-- ==== Sys2Proof/Word.lean ====
section
/-! DEFINITION. The word types of the part: bytes, 32-bit control and status register words, 64-bit scalar registers and 512-bit vector registers, and the number widths the rules name. -/

namespace Sys2Proof

/-- One byte, the smallest addressable unit of every address space of the part. -/
abbrev Byte := BitVec 8

/-- A run of bytes, lowest offset first (R9, R11). -/
abbrev Bytes := List Byte

/-- A control and status register word of 32 bits. -/
abbrev CsrWord := BitVec 32

/-- A scalar register of a Lendel thread (R198). -/
abbrev SReg := BitVec 64

/-- A vector register of a Lendel thread (R198). -/
abbrev VReg := BitVec 512

end Sys2Proof
end

