-- ==== Sys2Proof/Config.lean ====
section
/-! DEFINITION. What an implementation fixes and the free values: constants with no body, so that no proof can see their value. -/

namespace Sys2Proof.Config

/-- How far the counter of an island moves in one tick (R635; log 3). -/
opaque tickNs : (island draw : Nat) → Nat

/-- How many clock cycles of an island a tick takes (R638; log 3). -/
opaque tickCycles : (island draw : Nat) → Nat

/-- The upper half of the destination of a 32-bit atomic, by the old value, and what VEXT gives for a lane that the type does not have, by its
operands: results depend on operands only (R199; log 42, log 43). -/
opaque freeUpper : (old : Nat) → SReg
opaque freeExt : (type lane : Nat) → VReg → SReg

/-- A number the spec leaves open, drawn afresh each time: session and run identifiers, expected durations, measured times (log 2). -/
opaque freeNat : (draw : Nat) → Nat

/-- A byte the spec leaves open (log 2). -/
opaque freeByte : (draw index : Nat) → Byte

/-- A scalar value the spec leaves open (log 2). -/
opaque freeWord : (draw : Nat) → SReg

/-- A byte of the steward state that live activation saves in scratch with population 00 (R106; log 210). -/
opaque stewardByte : (offset : Nat) → Byte

/-- The random 16 bits of one stochastic rounding (R242). -/
opaque rand16 : (draw : Nat) → Nat

/-- The element a lane holds where R210 and R241 state no value (a NaN operand or a tie of zeros of an FP minimum or maximum). -/
opaque freeLane : (width a b : Nat) → Nat

/-- Whether a line that a core's L1 data cache has held is still held (R156): the manual states no replacement rule. -/
opaque l1Keep : (draw : Nat) → Bool

/-- SHA-384 and BLAKE3 digests (R571 and the chapters that name them): uninterpreted. -/
opaque sha384 : Bytes → Bytes
opaque blake3 : Bytes → Bytes

/-- AES sealing of a record under a key: uninterpreted (R428, R593). -/
opaque sealBytes : (key : Nat) → (nonce : Bytes) → Bytes → Bytes
opaque unsealBytes : (key : Nat) → (nonce : Bytes) → Bytes → Option Bytes

/-- A signature made with an identity key over a message (R584, R320): uninterpreted. -/
opaque sign : (key : Nat) → Bytes → Bytes

/-- AES-256-XTS over one data unit: the unit's bytes as a little-endian number, under a key and with a tweak (R456; log 50). It is uninterpreted
but for being a permutation, so that what was enciphered under a key and tweak deciphers to itself. -/
opaque xts : (key tweak bits : Nat) → BitVec bits ≃ BitVec bits

/-- The ICP MSI-X vector of a function: the manual names no number (R54, R58). -/
opaque icpVector : Nat

/-- The serial number read from fuses (R79). -/
opaque serial : Bytes

/-- The SubsystemID pair of the board record (R389). -/
opaque subsystemId : Nat

/-- Whether a signature over a message verifies under a key (R351): uninterpreted. -/
opaque verifySig : (key : Nat) → Bytes → Bytes → Bool

/-- The number of devices of the domain (R280): the manual gives no register for it. -/
opaque domainSize : Nat

/-- A working key derived from a key by a label (R598), and the tag of a sealed chunk (R321): uninterpreted. -/
opaque deriveKey : (key : Nat) → (label : Bytes) → Nat
opaque sealTag : (key : Nat) → (nonce : Bytes) → Bytes → Bytes

/-- Capacity of a local SSD in GiB, its own AWUPF and its volatile cache flag (R450), and the size of the region of a remote storage target
in bytes (R447): what the SSD or target reports. -/
opaque ssdGib : (ssd : Nat) → Nat
opaque ssdAwupf : (ssd : Nat) → Nat
opaque ssdVolatile : (ssd : Nat) → Bool
opaque remoteBytes : (conn : Nat) → Nat

/-- A byte of a log page or identify structure that NVM Express defines and the manual does not state (log 52). -/
opaque nvmeByte : (page draw index : Nat) → Byte

/-- The hash of a frame under spread profile 0 as loaded at cold reset, whose key and fields the manual does not state (R506; log 61). -/
opaque defaultHash : Bytes → Nat

/-- The key-store key of a life-cycle state and epoch, opening of a wrapped key block under R594, the check value of a key (R595), and the token of R591:
uninterpreted. -/
opaque storeKey : (lifecycle epoch : Nat) → Nat
opaque unwrapKey : (lifecycle : Nat) → Bytes → Option Bytes
opaque keyCheck : (key : Nat) → Nat
opaque lifecycleToken : Bytes → Bytes

/-- A certificate chain of a slot (R583), and the Alias key of a life-cycle state, running image and strap value (R582): uninterpreted. -/
opaque certChain : (slot lifecycle identity : Nat) → Bytes
opaque aliasKey : (lifecycle build straps : Nat) → Nat

/-- The measurements that are digests of the boot ROM, of the running image header and of the fused unit map (R585). -/
opaque romDigest : Bytes
opaque headerDigest : (build : Nat) → Bytes
opaque unitDigest : (revoked : Nat) → (units : List (Nat × Nat)) → Bytes

/-- What an SPDM response of a code holds where DSP0274 and not the manual lays it out (log 81). -/
opaque spdmData : (code draw : Nat) → Bytes

/-- The DPA that the check line of a group of a store carries under its own checksum (R117; log 172). -/
opaque checkDpa : (group : Nat) → Nat

/-- Mortar crossings of the part, and spare SRAM rows and columns as built: the manual gives no count (R45, R79). -/
opaque crossings : Nat
opaque sramSpares : Nat

/-- Subsystem vendor ID and subsystem ID of the board record in SPI flash (R389), and the version field of an extended capability (R390): the manual
gives no values. -/
opaque boardSubsystem : Nat
opaque capVersion : (id : Nat) → Nat

/-- SHA-384 of the public key of a fused firmware key slot (R578): uninterpreted. -/
opaque fwKeyHash : (slot : Nat) → Bytes

/-- Clock at which an island without listed points starts, and the floor an engine may be lowered to, in MHz; the point, or the clock, that a
DVFS governor wants for an occupancy; the regulator headroom and the voltages that engines and quoin islands need, in mV: the manual states no
values (R685, R686). -/
opaque islandMhz : (island : Nat) → Nat
opaque engineFloor : (island : Nat) → Nat
opaque dvfsWant : (island occupancy : Nat) → Nat
opaque headroomMv : Nat
opaque engineMv : (island mhz : Nat) → Nat
opaque quoinMv : Nat

end Sys2Proof.Config
end

