-- ==== Sys2Proof/Syntax.lean ====
section
/-! DEFINITION. The commands of the part: the operands each carries and the one inductive Instr, one constructor per row of the table of operations and events. -/

namespace Sys2Proof

/-! ### Igavaine Command Protocol (chapter 2) -/

/-- The transport endpoint that carries an ICP packet (R58, R63, R65, R66). -/
inductive Via where
  /-- the command ring of a function, by FUNCTION_ID (R58) -/
  | ring (fn : Nat)
  /-- a management port peer, by a number that stands for its address and port (R63) -/
  | mgmt (peer : Nat)
  /-- an MCTP endpoint ID (R65) -/
  | mctp (eid : Nat)
  /-- the command ring of an accelerator endpoint, port block × 4 + link (R66) -/
  | accel (ep : Nat)
  deriving DecidableEq, Repr

/-- What a restore or an adoption finds on its sources while the command runs: the two ledger slot records of each source, the course
manifest, and the device manifest of each origin device (R328, R351). -/
structure CourseRead where
  ledgers : List (Bytes × Bytes) := []
  manifest : Bytes := []
  devices : List (Nat × Bytes) := []
  /-- the two ledger slot records of each origin device, through which its device manifest is found (R351) -/
  originLedgers : List (Nat × Bytes × Bytes) := []
  deriving DecidableEq, Repr

/-- An ICP command packet: the header of R53, its parameter bytes, and the bytes of client memory the command reads by DMA
(none: the access was refused). -/
structure IcpPkt where
  major : Nat := 0
  minor : Nat := 0
  opcode : Nat := 0
  tag : Nat := 0
  functionId : Nat := 0
  generation : Nat := 0
  /-- FLAGS of R54 -/
  flags : Nat := 0
  /-- PARAM_LEN of R53 -/
  paramLen : Nat := 0
  /-- parameter bytes that the slot, datagram or message has room for (R72 step 8) -/
  room : Nat := 4064
  sessionId : Nat := 0
  params : Bytes := []
  dma : Option Bytes := none
  reads : CourseRead := {}
  /-- scratch words whose parity fails as a spare-out that the command asks for copies them (R141) -/
  parity : List Nat := []
  /-- the consumer index of the command ring after this command was fetched; the fetch sets it (R57) -/
  headAfter : Nat := 0
  /-- steward firmware faults while it runs the command (R75) -/
  fwFault : Bool := false
  deriving DecidableEq, Repr

/-- A slot of a command ring, or the payload that carries one ICP packet, as bytes, with what the command's own reads of memory outside the
part return while it runs. -/
structure IcpSlot where
  bytes : Bytes := []
  dma : Option Bytes := none
  reads : CourseRead := {}
  parity : List Nat := []
  fwFault : Bool := false
  deriving DecidableEq, Repr

/-- An MCTP message: its type, the vendor ID, and the rest (R65). -/
structure MctpMsg where
  type : Nat := 0x7E
  vendor : Nat := 0x1F6D
  slot : IcpSlot := {}
  deriving DecidableEq, Repr

/-- An IP fragment of a UDP datagram on the management port: the IP version, the UDP destination port, the identification of the datagram,
where the fragment's bytes lie in the UDP payload, and whether more follow; an unfragmented datagram is one that starts at 0 and is the last
(R63). -/
structure MgmtFrag where
  v6 : Bool := false
  port : Nat := 7141
  ident : Nat := 0
  offset : Nat := 0
  more : Bool := false
  slot : IcpSlot := {}
  deriving DecidableEq, Repr

/-- A register a host, firmware or an accelerator can write whose space is not one flat offset. -/
inductive RegTarget where
  /-- an offset in CSR space (R28) -/
  | csr (off : Nat)
  /-- a ring register of a function (R58) -/
  | ring (fn off : Nat)
  /-- a WIN_XLAT register of a host port's PF0 (R397) -/
  | winXlat (hp n : Nat)
  /-- a register of a function's configuration space (R389, R393) -/
  | config (fn off : Nat)
  /-- the ACS control of the downstream bridge above an accelerator link, port block × 4 + link (R386) -/
  | acs (ep : Nat)
  /-- a word of a function's MSI-X table (R394) -/
  | msix (fn word : Nat)
  deriving DecidableEq, Repr

/-- Who makes a register access (R30, R648). -/
inductive Requester where
  /-- PF0 of a host port, through its BAR0 windows -/
  | host (hp : Nat)
  /-- the steward cores -/
  | steward
  /-- any other issuer inside the part or behind a link -/
  | other
  /-- a debugger on the JTAG pins (R588, R589) -/
  | jtag
  deriving DecidableEq, Repr

/-! ### Crossings (R23, R24) -/

/-- A piece of work that was inside a crossing when it reset. -/
inductive CrossWork where
  /-- work that GDDR7 link retry, PCIe replay or GRT retransmission reissues -/
  | retried
  /-- a custody descriptor, by its queue pair and its number there -/
  | desc (queue seq : Nat)
  /-- a command that waits for its final reply, by its place among those -/
  | command (index : Nat)
  /-- an NVMe command, by the number of its operation -/
  | nvme (op : Nat)
  /-- a frame of an egress queue -/
  | frame (sub tc index : Nat)
  deriving DecidableEq, Repr

/-- A crossing that resets: the block on its reading side, the work that was inside, and, where its cluster is spared out, the scratch words whose
parity fails in the copy. -/
structure CrossReset where
  block : Nat
  inside : List CrossWork := []
  parity : List Nat := []
  deriving DecidableEq, Repr

/-! ### Memory (chapter 3) -/

/-- A key of the vault (R572): a provisioned one by its handle, an identity key pair, or the key of an SPDM session. -/
inductive VaultKey where
  | provisioned (handle : Nat)
  | deviceId
  | provisionId
  | aliasKey
  | session (mailbox peer sid : Nat)
  deriving DecidableEq, Repr

/-- What happens at a row, or column, of an SRAM: a parity failure, with the key that a vault word held, or an idle cycle of its bank (R146). -/
structure RowEvent where
  isColumn : Bool := false
  idle : Bool := false
  key : Option VaultKey := none
  deriving DecidableEq, Repr

/-- An access by a requester to an address. -/
structure AccessBy where
  who : Requester
  addr : Nat
  deriving DecidableEq, Repr

/-- What a LIVENESS message says of the sender's part of the tree: its highest manifest format and version of the transport, and the members heard
there (R33, R367; log 208). -/
structure LiveBelow where
  format : Nat
  members : List Nat
  grt : Nat := 2
  deriving DecidableEq, Repr

/-- A line that failed its checksum while a command read it (R118): the DPA of the line, whether the second read passes, and,
for a block map or bitmap line, whether the other copy fails too (R122). -/
structure LineFault where
  dpa : Nat
  reread : Bool
  bothCopies : Bool := false
  /-- it is the check line of the group of `dpa` that fails, so that all 31 data lines of the group fail (R118) -/
  check : Bool := false
  deriving DecidableEq, Repr

/-! ### Mason threads (chapters 4 and 5) -/

/-- What the memory side gives an instruction of a mason thread: the bytes that its reads through W12 to W15 return, in order (for
gath, the index list in `data` and the elements in `elems`), the element at which such an access fails at its port, the lines of
custody memory whose read fails its checksum, the scratch words whose parity fails, and the logical cluster of a core whose write or atomic, at port B
of the bank, meets this one on its scratch word in the same cycle (R138). -/
structure MemIo where
  data : Bytes := []
  elems : Bytes := []
  failAt : Option Nat := none
  faults : List LineFault := []
  parity : List Nat := []
  rival : Option Nat := none
  deriving DecidableEq, Repr

/-! ### Custody descriptors (chapter 6) -/

/-- A custody descriptor (R257). -/
structure Desc where
  opcode : Nat := 0
  version : Nat := 2
  flags : Nat := 0
  tag : Nat := 0
  handle : Nat := 0
  step : Nat := 0
  indexAddr : Nat := 0
  dataAddr : Nat := 0
  auxAddr : Nat := 0
  count : Nat := 0
  bags : Nat := 0
  pool : Nat := 0
  ioFormat : Nat := 0
  colStart : Nat := 0
  colCount : Nat := 0
  lr : Nat := 0
  deriving DecidableEq, Repr

/-- What a descriptor's reads of client memory return (none: the access was refused; for `data` also: its writes at DATA_ADDR were
refused), and the lines of custody memory whose read
failed its checksum while it ran. -/
structure DescIo where
  index : Option Bytes := some []
  data : Option Bytes := some []
  aux : Option Bytes := some []
  faults : List LineFault := []
  deriving DecidableEq, Repr

/-! ### Rows of a committed course (chapters 6 to 8) -/

/-- A row as a destination of a committed course gives it: the captured format and bytes of its weight or master, of its state, its
serving copy where the course captured it, and its key (R286, R316, R357). -/
structure CapturedRow where
  weightFormat : Nat := 0
  weights : Bytes := []
  stateFormat : Nat := 0
  state : Bytes := []
  serving : Option Bytes := none
  key : Nat := 0
  deriving DecidableEq, Repr

/-- What a source gives of one shard that holds an adopted row: the origin device, its manifest's format and the shard's entry in that manifest, the
shard's header and chunk list, and the chunks read (R352, R370). -/
structure ShardRead where
  origin : Nat
  format : Nat := 4
  entry : Bytes
  head : Bytes
  chunks : List (Nat × Bytes)
  deriving DecidableEq, Repr

/-- One read of an adopted row: the shards of the course that hold it, and in a hashed table the number of its row in the origin's table. -/
structure AdoptRead where
  shards : List ShardRead
  row : Nat := 0
  deriving DecidableEq, Repr


/-! ### NVM Express (chapter 10) -/

/-- The fields of an NVM Express submission entry that the controller's commands use: command identifier, namespace, the runs of memory
that its PRP entries name (address and length), and command dwords 10 to 15. -/
structure NvmeCmd where
  cid : Nat := 0
  nsid : Nat := 0
  prp : List (Nat × Nat) := []
  dw10 : Nat := 0
  dw11 : Nat := 0
  dw12 : Nat := 0
  dw13 : Nat := 0
  dw14 : Nat := 0
  dw15 : Nat := 0
  deriving DecidableEq, Repr

/-- What the outside of the storage service gives a command while it runs: the bytes that its data pointer names (none: the access was
refused), the legs whose read fails, the legs whose write fails after retries, the bytes queued at each leg, and the cipher engine's check: 0 passed, 1 passed
at the second computation, 2 failed (R603). -/
structure NvmeIo where
  data : Option Bytes := some []
  readFail : List Nat := []
  writeFail : List Nat := []
  queued : List Nat := []
  cipher : Nat := 0
  deriving DecidableEq, Repr

/-! ### Packet path and transport (chapters 11 and 12) -/

/-- A slot of an NVM Express submission queue: its 64 bytes, the runs of memory that its PRP entries and lists name, and what the outside gives the
command while it runs. -/
structure NvmeSlot where
  bytes : Bytes := []
  prp : List (Nat × Nat) := []
  io : NvmeIo := {}
  deriving DecidableEq, Repr

/-- A NIC transmit descriptor (R519). -/
structure TxDesc where
  addr : Nat := 0
  len : Nat
  flags : Nat := 0
  vlan : Nat := 0
  l3 : Nat := 0
  l4 : Nat := 0
  deriving DecidableEq, Repr

/-- A NIC receive buffer descriptor (R519). -/
structure RxDesc where
  addr : Nat
  len : Nat
  deriving DecidableEq, Repr

/-- A packet of the transport (R538 to R540): base header, extension header bytes after R540, payload, and the IP congestion mark. In RoCEv2 mode the
same fields stand for those that the IBTA headers carry (log 63). -/
structure GrtPkt where
  roce : Bool := false
  ver : Nat := 2
  /-- 1 WRITE, 2 WRITE_NOTIFY, 3 READ_REQ, 4 READ_RESP, 5 ACK, 6 NAK, 7 HELLO, 8 CLOSE -/
  type : Nat
  /-- FLAGS of R539 -/
  flags : Nat := 0
  /-- DST_CONN -/
  dst : Nat := 0
  psn : Nat := 0
  ts : Nat := 0
  path : Nat := 0
  ext : Bytes := []
  payload : Bytes := []
  /-- it arrived CE-marked -/
  ce : Bool := false
  deriving DecidableEq, Repr

/-- A work request of the transport (R541). -/
structure GrtWr where
  opcode : Nat := 0
  flags : Nat := 0
  tag : Nat := 0
  conn : Nat := 0
  length : Nat := 0
  localAddr : Nat := 0
  rkey : Nat := 0
  notify : Nat := 0
  remoteOffset : Nat := 0
  ctrInc : Nat := 0xFF
  trigCtr : Nat := 0
  threshold : Nat := 0
  ctrValue : Nat := 0
  /-- the cipher engine's check of a SEALED request: 0 passed, 1 passed at the second computation, 2 failed (R603) -/
  cipher : Nat := 0
  deriving DecidableEq, Repr


/-- A slot of a work queue of the transport: its 64 bytes, the cipher engine's check of a SEALED request, and the bytes that its LOCAL_ADDR names
(none: the access was refused). -/
structure WrSlot where
  bytes : Bytes := []
  cipher : Nat := 0
  data : Option Bytes := none
  deriving DecidableEq, Repr

/-- A packet that arrives for the transport: its bytes after the UDP header and whether it arrived CE-marked (R10, R539, R540), or, in RoCEv2 mode, the
fields that the IBTA headers stand for (log 63). -/
inductive GrtArrival where
  | grt (bytes : Bytes) (ce : Bool)
  | roce (pkt : GrtPkt)
  deriving DecidableEq, Repr

/-- The commands of the part, one constructor per row of spec/opcode_table.json, in its order. -/
inductive Instr where
  /-- HELLO (R67): Opens an ICP session at the highest common major version, negotiates minor and capabilities, and starts the lease. -/
  | hello (via : Via) (pkt : IcpPkt)
  /-- GOODBYE (R80): Ends the session once earlier commands have posted final replies and discards its stage set. -/
  | goodbye (via : Via) (pkt : IcpPkt)
  /-- LEASE_RENEW (R39): Renews the issuer's lease with a clamped period running from the reply. -/
  | leaseRenew (via : Via) (pkt : IcpPkt)
  /-- FLUSH (R83): Barrier that replies after every earlier command of its ring or session has posted a final reply. -/
  | flush (via : Via) (pkt : IcpPkt)
  /-- GET_IDENTITY (R79): Returns the 512-byte identity, capacity and spare report. -/
  | getIdentity (via : Via) (pkt : IcpPkt)
  /-- GET_STRAPS (R714): Returns the sampled, latched and overridden strap values with their origins. -/
  | getStraps (via : Via) (pkt : IcpPkt)
  /-- STRAP_OVERRIDE (R715): Stores or clears a strap override in the board record or boot record for later starts. -/
  | strapOverride (via : Via) (pkt : IcpPkt)
  /-- GET_START_REPORT (R669): Returns the start stage, failed-start count and up to eight start records. -/
  | getStartReport (via : Via) (pkt : IcpPkt)
  /-- CFG_STAGE (R92): Checks and clamps a configuration as its direct opcode would and stores it as a shadow entry in the owner's stage set. -/
  | cfgStage (via : Via) (pkt : IcpPkt)
  /-- CFG_COMMIT_ROLLING (R96): Commits the stage set with each unit flipping at its own boundary. -/
  | cfgCommitRolling (via : Via) (pkt : IcpPkt)
  /-- CFG_COMMIT_DRAIN (R97): Pauses intake at the affected units and starts the drain bound before flipping all entries at once. -/
  | cfgCommitDrain (via : Via) (pkt : IcpPkt)
  /-- DRAIN_COMPLETE (R97): Admitted work has left the paused units within the bound, so every entry flips, intake resumes and OK is replied. -/
  | drainComplete (owner : Via)
  /-- DRAIN_BOUND_EXPIRY (R97): The drain bound expires first, so intake resumes with old versions and FAILED DRAIN_BOUND_EXCEEDED is replied. -/
  | drainBoundExpiry (owner : Via)
  /-- CFG_ABORT (R80): Discards the issuer's stage set, or answers BUSY while a commit of it runs. -/
  | cfgAbort (via : Via) (pkt : IcpPkt)
  /-- POWER_CAP_SET (R694): Sets the package power cap and temperature target, optionally persisting them. -/
  | powerCapSet (via : Via) (pkt : IcpPkt)
  /-- TABLE_CREATE (R243): Clamps parameters, allocates and initialises every region of a new table and returns its handle. -/
  | tableCreate (via : Via) (pkt : IcpPkt)
  /-- TABLE_DESTROY (R249): Waits for started descriptors, frees the table and bumps the handle generation. -/
  | tableDestroy (via : Via) (pkt : IcpPkt)
  /-- TABLE_QUERY (R251): Returns the table's state, row counts, tier placement, poison and rollback counters. -/
  | tableQuery (via : Via) (pkt : IcpPkt)
  /-- CQP_CREATE (R254): Creates a custody queue pair with rings in client memory or the queue region and a doorbell page. -/
  | cqpCreate (via : Via) (pkt : IcpPkt)
  /-- CQP_DESTROY (R80): Stops fetching, waits for started descriptors to post, and frees the queue pair's pages. -/
  | cqpDestroy (via : Via) (pkt : IcpPkt)
  /-- KERNEL_LOAD (R173): Verifies a kernel image, clamps its resources, places it on clusters and returns a kernel handle. -/
  | kernelLoad (via : Via) (pkt : IcpPkt)
  /-- KERNEL_UNLOAD (R181): Stops handing out items, ends unstarted descriptors with ENDED and releases slots and scratch after running items halt. -/
  | kernelUnload (via : Via) (pkt : IcpPkt)
  /-- RULE_REGISTER (R275): Registers a loaded kernel as a custom update rule and returns its RULE_ID. -/
  | ruleRegister (via : Via) (pkt : IcpPkt)
  /-- COURSE_POLICY_SET (R290): Sets the course policy, destinations and fence-tree fields and takes spill, chunk and staging frames. -/
  | coursePolicySet (via : Via) (pkt : IcpPkt)
  /-- COURSE_OPEN (R295): At the fence root opens a course at a chosen step S and passes the open down the fence tree. -/
  | courseOpen (via : Via) (pkt : IcpPkt)
  /-- STEP_DONE (R300): Records a client's highest finished step for its queue pairs and samples their SQ_TAIL. -/
  | stepDone (via : Via) (pkt : IcpPkt)
  /-- COURSE_STATUS (R341): Returns the state and progress counters of the open or a named course. -/
  | courseStatus (via : Via) (pkt : IcpPkt)
  /-- COURSE_ABORT (R80): At the fence root aborts the open course with ABORTED_BY_COMMAND. -/
  | courseAbort (via : Via) (pkt : IcpPkt)
  /-- REGION_REGISTER (R334): Registers an accelerator region for staged capture from the next course. -/
  | regionRegister (via : Via) (pkt : IcpPkt)
  /-- REGION_DEREGISTER (R80): Removes an accelerator region from capture from the next course. -/
  | regionDeregister (via : Via) (pkt : IcpPkt)
  /-- TABLE_CAPTURE_POLICY (R316): Sets a table's inclusion and narrowing formats for later courses. -/
  | tableCapturePolicy (via : Via) (pkt : IcpPkt)
  /-- LEDGER_QUERY (R341): Returns both ledger slot records of a destination. -/
  | ledgerQuery (via : Via) (pkt : IcpPkt)
  /-- RESTORE_BEGIN (R349): Verifies a committed course, makes the read plan and starts restoring tables onto this device. -/
  | restoreBegin (via : Via) (pkt : IcpPkt)
  /-- SHARD_MAP_LOAD (R345): Loads one piece of a shard map and checks the whole map on the LAST piece. -/
  | shardMapLoad (via : Via) (pkt : IcpPkt)
  /-- RESTORE_STATUS (R365): Returns the state and progress of a restore. -/
  | restoreStatus (via : Via) (pkt : IcpPkt)
  /-- SHARD_ADOPT (R370): Activates a survivor map and adopts a lost member's rows from the latest course. -/
  | shardAdopt (via : Via) (pkt : IcpPkt)
  /-- SHRINK_DONE (R372): Completes a shrink, failing forwarded indices for ownerless rows with REMOTE_UNREACHABLE. -/
  | shrinkDone (via : Via) (pkt : IcpPkt)
  /-- NS_CREATE (R447): Creates a namespace on local or remote legs, with journals when atomic, and assigns the lowest free NSID. -/
  | nsCreate (via : Via) (pkt : IcpPkt)
  /-- NS_DELETE (R450): Frees a namespace that is not attached, not a course destination and not being sanitized. -/
  | nsDelete (via : Via) (pkt : IcpPkt)
  /-- NS_ATTACH (R450): Attaches a namespace to one NVMe controller and raises Namespace Attribute Changed. -/
  | nsAttach (via : Via) (pkt : IcpPkt)
  /-- NS_DETACH (R450): Stops intake for a namespace on a controller, waits for its commands and detaches it. -/
  | nsDetach (via : Via) (pkt : IcpPkt)
  /-- NS_QUERY (R450): Returns a namespace's configuration, leg states, resync, journal and sanitize state. -/
  | nsQuery (via : Via) (pkt : IcpPkt)
  /-- SSD_LIST (R450): Returns entries describing local SSDs from a first index. -/
  | ssdList (via : Via) (pkt : IcpPkt)
  /-- NS_MIRROR_SET (R450): Adds, removes or resyncs a namespace leg. -/
  | nsMirrorSet (via : Via) (pkt : IcpPkt)
  /-- PORT_CONFIG_BLOCK (R379): Sets a port block's role, bifurcation, host port, reset propagation and speed and retrains it. -/
  | portConfigBlock (via : Via) (pkt : IcpPkt)
  /-- PORT_CONFIG_ETHERNET (R481): Sets an Ethernet port's mode, service, frame size, training, lane order and service timers. -/
  | portConfigEthernet (via : Via) (pkt : IcpPkt)
  /-- NIC_QP_CREATE (R518): Creates a NIC queue pair for PF2 or a VF with rings and a doorbell page. -/
  | nicQpCreate (via : Via) (pkt : IcpPkt)
  /-- NIC_QP_DESTROY (R518): Destroys a NIC queue pair. -/
  | nicQpDestroy (via : Via) (pkt : IcpPkt)
  /-- PORT_QUERY_BLOCK (R383): Returns a port block's configuration and link records with accelerator ring addresses. -/
  | portQueryBlock (via : Via) (pkt : IcpPkt)
  /-- PORT_QUERY_ETHERNET (R487): Returns an Ethernet port's configuration and sub-port records. -/
  | portQueryEthernet (via : Via) (pkt : IcpPkt)
  /-- PARSE_NODE_WRITE (R491): Writes a parse-graph node, applied between frames at the parser entry. -/
  | parseNodeWrite (via : Via) (pkt : IcpPkt)
  /-- CLS_INSERT (R503): Inserts or replaces classification entries record by record. -/
  | clsInsert (via : Via) (pkt : IcpPkt)
  /-- CLS_DELETE (R498): Deletes classification entries. -/
  | clsDelete (via : Via) (pkt : IcpPkt)
  /-- CLS_CONFIGURE (R502): Empties a classification table and sets its kind, key fields and clamped capacity. -/
  | clsConfigure (via : Via) (pkt : IcpPkt)
  /-- CLS_MISS_ACTION (R504): Sets a classification table's miss action. -/
  | clsMissAction (via : Via) (pkt : IcpPkt)
  /-- INDIRECTION_ENTRIES (R516): Writes indirection table entries of a spread profile's slice. -/
  | indirectionEntries (via : Via) (pkt : IcpPkt)
  /-- INDIRECTION_PROFILE (R515): Sets a spread profile's base, size, hash fields, key and owner. -/
  | indirectionProfile (via : Via) (pkt : IcpPkt)
  /-- SHAPER_SET (R522): Configures an egress queue, NIC queue pair or GRT connection shaper. -/
  | shaperSet (via : Via) (pkt : IcpPkt)
  /-- POLICER_SET (R508): Configures an ingress policer's rates, bursts and colour mode. -/
  | policerSet (via : Via) (pkt : IcpPkt)
  /-- GATE_LIST_SET (R524): Sets a sub-port's gate list to take effect at a cycle boundary. -/
  | gateListSet (via : Via) (pkt : IcpPkt)
  /-- SAMPLER_SET (R528): Configures a queue sampler and its ring. -/
  | samplerSet (via : Via) (pkt : IcpPkt)
  /-- GRT_CONN_CREATE (R533): Creates a GRT or RoCEv2 connection with its work queue and starts connecting. -/
  | grtConnCreate (via : Via) (pkt : IcpPkt)
  /-- GRT_CONN_DESTROY (R80): Sends CLOSE, flushes requests with CONN_ERROR and frees the connection. -/
  | grtConnDestroy (via : Via) (pkt : IcpPkt)
  /-- MR_REGISTER (R563): Registers memory or a namespace range for remote access and returns an RKEY. -/
  | mrRegister (via : Via) (pkt : IcpPkt)
  /-- MR_REVOKE (R566): Puts a registration into REVOKING and replies once admitted packets have drained. -/
  | mrRevoke (via : Via) (pkt : IcpPkt)
  /-- GRT_CONN_QUERY (R570): Returns a connection's state, RTT, window, counters and trigger counters. -/
  | grtConnQuery (via : Via) (pkt : IcpPkt)
  /-- KEY_PROVISION_CLEAR (R593): Provisions a key given in clear and seals a copy into SPI flash. -/
  | keyProvisionClear (via : Via) (pkt : IcpPkt)
  /-- KEY_PROVISION_WRAPPED (R594): Unwraps a key by ECDH with the ProvisionID key and stores it. -/
  | keyProvisionWrapped (via : Via) (pkt : IcpPkt)
  /-- KEY_ERASE (R596): Empties a key and erases its sealed copy, optionally releasing the handle. -/
  | keyErase (via : Via) (pkt : IcpPkt)
  /-- LIFECYCLE_TRANSITION (R592): Burns life-cycle fuses, wipes secrets and derives identity keys for the new state. -/
  | lifecycleTransition (via : Via) (pkt : IcpPkt)
  /-- GET_CERT_CHAIN (R586): Returns part of a certificate chain from slot 0 or 1. -/
  | getCertChain (via : Via) (pkt : IcpPkt)
  /-- SECURITY_STATUS (R615): Returns security state and issues a new life-cycle challenge to privileged issuers. -/
  | securityStatus (via : Via) (pkt : IcpPkt)
  /-- ERR_QUERY (R632): Returns a block's error header and timestamps or the error summaries. -/
  | errQuery (via : Via) (pkt : IcpPkt)
  /-- ERR_ACK (R632): Acts as a write to a block's ERR_ACK register and returns the resulting status. -/
  | errAck (via : Via) (pkt : IcpPkt)
  /-- COUNTER_SELECT (R640): Selects event, unit, mode, threshold and reader of a block's performance counter. -/
  | counterSelect (via : Via) (pkt : IcpPkt)
  /-- COUNTER_READ (R641): Reads a block's eight counters with their read skews. -/
  | counterRead (via : Via) (pkt : IcpPkt)
  /-- POLICY_SET (R646): Enables a self-directed policy or bounds its quantity. -/
  | policySet (via : Via) (pkt : IcpPkt)
  /-- POLICY_LOG_READ (R645): Returns policy log records from a sequence number. -/
  | policyLogRead (via : Via) (pkt : IcpPkt)
  /-- FW_STAGE (R671): Programs one piece of a firmware image into a flash slot and verifies the finished image. -/
  | fwStage (via : Via) (pkt : IcpPkt)
  /-- FW_ACTIVATE_AT_RESET (R672): Writes the slot as pending so the next start boots it on trial. -/
  | fwActivateAtReset (via : Via) (pkt : IcpPkt)
  /-- FW_ACTIVATE_RESET_NOW (R672): Marks the slot pending and performs a warm reset within 10 ms. -/
  | fwActivateResetNow (via : Via) (pkt : IcpPkt)
  /-- FW_ACTIVATE_LIVE (R675): Replaces the steward firmware without a reset during a bounded intake pause. -/
  | fwActivateLive (via : Via) (pkt : IcpPkt)
  /-- ACTIVATION_RETRY (R678): Every 100 ms rechecks a deferred activation and runs it once no emergency holds. -/
  | activationRetry
  /-- ACTIVATION_DEFER_EXPIRY (R89): After 60 s of deferral posts FAILED with the emergency detail. -/
  | activationDeferExpiry
  /-- FW_QUERY (R679): Returns running firmware, slot records and the last activation outcome. -/
  | fwQuery (via : Via) (pkt : IcpPkt)
  /-- FN_CREATE (R409): Sets a function's allotment and spoof identity and assigns a tenant slot when quota becomes non-zero. -/
  | fnCreate (via : Via) (pkt : IcpPkt)
  /-- FN_DESTROY (R414): Resets a function, frees its tables and kernels and returns its allotment and tenant slot. -/
  | fnDestroy (via : Via) (pkt : IcpPkt)
  /-- FN_RESET (R84): Resets a function: stops fetching, aborts uncommitted commands, silences DMA and bumps its generation. -/
  | fnReset (via : Via) (pkt : IcpPkt)
  /-- GET_FUNCTION_STATE (R418): Returns a function's generation history, held resources and kept replies. -/
  | getFunctionState (via : Via) (pkt : IcpPkt)
  /-- ADOPT_QUEUES (R419): Passes held custody queue pairs to the issuer's current generation. -/
  | adoptQueues (via : Via) (pkt : IcpPkt)
  /-- MIG_FREEZE (R426): Quiesces a VF's rings and DMA and sets it FROZEN. -/
  | migFreeze (via : Via) (pkt : IcpPkt)
  /-- MIG_SAVE (R427): Writes part of a frozen VF's sealed state record. -/
  | migSave (via : Via) (pkt : IcpPkt)
  /-- MIG_RESTORE (R429): Loads a sealed state record onto a target VF and checks its seal on the last piece. -/
  | migRestore (via : Via) (pkt : IcpPkt)
  /-- MIG_RESUME (R431): Sets a frozen VF ACTIVE and resumes fetching at recorded indices. -/
  | migResume (via : Via) (pkt : IcpPkt)
  /-- DIRTY_LOG_START (R432): Starts marking pages of a VF's memory written by DMA in a bitmap. -/
  | dirtyLogStart (via : Via) (pkt : IcpPkt)
  /-- DIRTY_LOG_STOP (R435): Stops the dirty log and reports pages marked and out-of-range writes. -/
  | dirtyLogStop (via : Via) (pkt : IcpPkt)
  /-- DIAG_STEWARD_SELFTEST (R81): Runs the steward core self-test diagnostic. -/
  | diagStewardSelftest (via : Via) (pkt : IcpPkt)
  /-- DIAG_SPI_FLASH_READ (R81): Runs the SPI flash read diagnostic. -/
  | diagSpiFlashRead (via : Via) (pkt : IcpPkt)
  /-- DIAG_GDDR7_TRAINING (R81): Runs GDDR7 channel training and walking patterns. -/
  | diagGddr7Training (via : Via) (pkt : IcpPkt)
  /-- DIAG_LINK_TRAINING (R81): Runs port block link training. -/
  | diagLinkTraining (via : Via) (pkt : IcpPkt)
  /-- DIAG_CLUSTER_SPARE_OUT (R81): Spares out a physical cluster on request. -/
  | diagClusterSpareOut (via : Via) (pkt : IcpPkt)
  /-- DIAG_RESULT (R81): Returns the state and result records of the current or last diagnostic run. -/
  | diagResult (via : Via) (pkt : IcpPkt)
  /-- DUMP_READ (R633): Returns bytes of the error-state dump. -/
  | dumpRead (via : Via) (pkt : IcpPkt)
  /-- CMD_TAIL (R60): Doorbell write of a command ring tail that lets the part fetch commands. -/
  | cmdTail (ring index : Nat) (slots : Option (List IcpSlot))
  /-- RPL_HEAD (R60): Doorbell write of a reply ring head that frees reply slots. -/
  | rplHead (ring index : Nat)
  /-- ICP_RING_DISABLE (R59): Clearing ENABLE stops fetching, posts final replies of fetched commands and clears READY. -/
  | icpRingDisable (fn : Nat)
  /-- MANAGEMENT_DATAGRAM (R63): A UDP datagram on port 7141 carrying one ICP packet, served or answered from the reply cache. -/
  | managementDatagram (peer : Nat) (frag : MgmtFrag)
  /-- MANAGEMENT_SESSION_IDLE (R63): A management session with no command for 300 s is closed. -/
  | managementSessionIdle (peer : Nat)
  /-- MCTP_MESSAGE (R65): An MCTP vendor message carrying one ICP packet. -/
  | mctpMessage (eid : Nat) (msg : MctpMsg)
  /-- LEASE_EXPIRY (R39): A full lease period passes without renewal and the function is declared failed. -/
  | leaseExpiry (fn : Nat)
  /-- RECLAIM_COMPLETE (R404): Resources of the old generation are returned to the allotment. -/
  | reclaimComplete (fn : Nat)
  /-- SQ_TAIL (R256): Doorbell write of a custody queue pair tail that lets descriptors be fetched. -/
  | sqTail (queue index : Nat) (who : Nat) (slots : List (Bytes × DescIo))
  /-- CQ_HEAD (R256): Doorbell write of a custody completion ring head that frees completion slots. -/
  | cqHead (queue index : Nat)
  /-- LOOKUP (R265): Reads rows by index and writes converted column ranges to the output. -/
  | lookup (queue : Nat) (desc : Desc) (io : DescIo)
  /-- LOOKUP_POOL (R266): Reads bags of rows and writes their sum, mean or max per bag. -/
  | lookupPool (queue : Nat) (desc : Desc) (io : DescIo)
  /-- UPDATE (R270): Scales and sums gradients per distinct row and applies the table's update rule. -/
  | update (queue : Nat) (desc : Desc) (io : DescIo)
  /-- READ_ROWS (R265): Writes the stored bytes of rows of the stored, master or state region. -/
  | readRows (queue : Nat) (desc : Desc) (io : DescIo)
  /-- WRITE_ROWS (R273): Stores rows of the stored, master or state region and clears poison once all regions are written. -/
  | writeRows (queue : Nat) (desc : Desc) (io : DescIo)
  /-- PREFETCH (R269): Moves the blocks of listed rows to GDDR7 within the tiering budget. -/
  | prefetch (queue : Nat) (desc : Desc) (io : DescIo)
  /-- KERNEL (R177): Hands the items of a kernel descriptor to free thread slots and completes when all items end. -/
  | kernel (queue : Nat) (desc : Desc) (io : DescIo)
  /-- FORWARDED_INDEX (R281): An index owned by another device arrives at its owner and is served under its table. -/
  | forwardedIndex (dev token domainId op flags step client lr index : Nat) (data : Bytes) (faults : List LineFault)
  /-- FORWARD_RESULT (R281): The owner's result for a forwarded index arrives and is placed as if local. -/
  | forwardResult (queue seq position status flags : Nat) (data : Bytes)
  /-- HELD_DESCRIPTOR_RELEASE (R305): Row-writing descriptors held above S start once the fence closes or the course aborts. -/
  | heldDescriptorRelease (queue : Nat)
  /-- REPOINT_ROW (R285): Rebuilds a poisoned row from the latest committed course and records a rollback. -/
  | repointRow (table row : Nat) (values : List CapturedRow) (slotFree : Bool)
  /-- REPOINT_TIMEOUT (R287): A row not readable from any destination within 1 s stays poisoned. -/
  | repointTimeout (table row : Nat)
  /-- COURSE_OPEN_MESSAGE (R298): A member receives the course open, opens it and clears its course-front bits. -/
  | courseOpenMessage (source id step label format trigger : Nat)
  /-- FENCE_UP (R304): A member or parent receives FENCE_UP from a child. -/
  | fenceUp (child id : Nat) (peerStep ended : Option Nat)
  /-- FENCE_RELEASE (R304): A member receives FENCE_RELEASE and closes the fence of its sharded tables. -/
  | fenceRelease (id : Nat) (ended : Option Nat)
  /-- FENCE_CLOSE (R305): The last covered descriptor of step S completes and the fence closes, arming capture-before-update. -/
  | fenceClose (tenant : Nat) (domain : Bool)
  /-- FENCE_TIMEOUT (R306): The fence has not closed within FENCE_TIMEOUT_MS and the course aborts. -/
  | fenceTimeout
  /-- SPILL_WAIT_RELEASE (R309): An update waiting for a full spill region proceeds once the walker captures its block. -/
  | spillWaitRelease (table region index : Nat)
  /-- CAPTURE_BLOCK (R307): The capture walker captures the next block into a chunk buffer. -/
  | captureBlock (faults : List LineFault)
  /-- SHARD_WRITE_COMPLETE (R324): A shard write to a destination completes durably. -/
  | shardWriteComplete (shard dest : Nat)
  /-- SHARD_WRITE_FAILED (R323): A failed shard write is retried or its destination is declared failed. -/
  | shardWriteFailed (shard dest : Nat)
  /-- REGION_PULL_COMPLETE (R335): An accelerator region is fully staged and the release record is written. -/
  | regionPullComplete (region : Nat) (data : Bytes)
  /-- COMMIT_UP (R329): A parent or the root receives a child's device manifest entries. -/
  | commitUp (child id : Nat) (entries : List (Nat × Nat × Nat × Bytes))
  /-- ROOT_LEDGER_DURABLE (R329): The root's ledger record is durable everywhere, the course commits and COMMIT_RELEASE is sent. -/
  | rootLedgerDurable (dest : Nat)
  /-- COMMIT_RELEASE (R329): A member receives the course manifest and writes it with its own ledger record. -/
  | commitRelease (id : Nat) (manifest : Bytes)
  /-- PERIODIC_COURSE (R331): PERIOD_S after the previous open, the root opens a periodic course. -/
  | periodicCourse
  /-- BUCKET_BOUNDARY (R333): At each warning-rate bucket boundary a member evaluates rates and may request an early course. -/
  | bucketBoundary
  /-- EARLY_REQUEST (R333): An early-course request reaches the root, which opens an early course unless barred. -/
  | earlyRequest (child counter rate : Nat)
  /-- CE_ABORT_REQ (R342): Writing ABORT at the fence root aborts the open course. -/
  | ceAbortReq (who : Requester) (value : CsrWord)
  /-- RESTORE_CHUNK_READ (R352): A planned chunk arrives, is verified against its digest or tag and its rows are placed widened. -/
  | restoreChunkRead (shard chunk : Nat) (head data : Bytes)
  /-- RESTORE_SOURCE_TIMEOUT (R353): A source silent for 1 s is passed over for the next source. -/
  | restoreSourceTimeout (shard : Nat)
  /-- RESTORE_COMPLETE (R360): All planned bytes are placed, the handle map is written and tables become visible. -/
  | restoreComplete
  /-- ADOPT_ROW_READ (R370): An adopted row's data arrives, is written whole and releases its held descriptors. -/
  | adoptRowRead (table row : Nat) (value : AdoptRead) (slotFree : Bool)
  /-- ADOPT_TIMEOUT (R370): Rows unread within ADOPT_TIMEOUT_MS stay poisoned. -/
  | adoptTimeout (table row : Nat)
  /-- LIVENESS_SEND (R367): Every LIVENESS_MS a member sends LIVENESS to parent and children. -/
  | livenessSend
  /-- LIVENESS (R367): A LIVENESS message from a tree neighbour arrives. -/
  | liveness (device : Nat) (step : Option Nat) (adopting : Bool) (below : LiveBelow)
  /-- LIVENESS_TIMEOUT (R367): No LIVENESS for 3 × LIVENESS_MS declares the neighbour failed. -/
  | livenessTimeout (device : Nat)
  /-- MEMBER_FAILED (R367): A member learns of lost devices and treats them as failed. -/
  | memberFailed (devices : List Nat) (report : Bool)
  /-- LINK_CRC_FAIL (R112): A GDDR7 transfer fails CRC and is retried, retraining the channel at the retry limit. -/
  | linkCrcFail (mc channel retry : Nat)
  /-- CHANNEL_RETRAIN_DONE (R112): A channel retrain ends, resuming the channel or fencing it. -/
  | channelRetrainDone (mc channel : Nat) (trained : Bool)
  /-- POISONED_BLOCK_PLACED (R113): A block waiting for a frame after a fence is placed and its rows are repointed. -/
  | poisonedBlockPlaced (table region index : Nat)
  /-- MC_FENCE_REQ (R136): Writing a channel bit fences that channel at run time. -/
  | mcFenceReq (who : Requester) (mc : Nat) (mask : Nat)
  /-- SCRUB_READ (R123): The patrol scrubber reads the next line at lowest priority. -/
  | scrubRead (dpa : Nat) (fault : Option LineFault)
  /-- CXL_LINK_DOWN (R127): A CXL link down for 250 µs fences the device and poisons its frames. -/
  | cxlLinkDown (block link : Nat)
  /-- TIER_EPOCH_END (R130): At each epoch end halves heat counters and promotes, demotes or swaps blocks. -/
  | tierEpochEnd
  /-- TIER_MOVE_COMPLETE (R131): A block move's copy passes end, the block map points to the destination and the source frees. -/
  | tierMoveComplete (table region index : Nat)
  /-- CROSSING_MISMATCH (R23): A crossing pointer mismatch resets the crossing and records a CON. -/
  | crossingMismatch (crossing : Nat) (reset : CrossReset)
  /-- SRAM_ROW_SPARED (R146): An SRAM row or column failing parity twice is replaced at the bank's next idle cycle. -/
  | sramRowSpared (block sram row : Nat) (event : RowEvent)
  /-- RESIDUE_MISMATCH (R186): A residue check failure replays the instruction and spares the core on the third. -/
  | residueMismatch (th : Nat) (third : Bool)
  /-- REGISTER_PARITY_FAULT (R189): A register read parity failure faults the item. -/
  | registerParityFault (th : Nat)
  /-- L1_PARITY_REFETCH (R188): An L1 line failing parity is dropped and refetched. -/
  | l1ParityRefetch (cluster core line : Nat) (instruction : Bool)
  /-- CL_SPARE_REQ (R190): Writing a core bit spares out that physical core. -/
  | clSpareReq (who : Requester) (cluster : Nat) (mask : BitVec 17)
  /-- CORE_SAFE_POINT (R190): A stopping core's line requests have returned and its threads move to the spare core. -/
  | coreSafePoint (cluster core : Nat)
  /-- CLUSTER_SPARE_OUT (R193): Spare cluster takes over a failed cluster's logical index with copied scratch. -/
  | clusterSpareOut (logical : Nat) (badWords : List Nat)
  /-- ITEM_WATCHDOG (R180): An item running longer than WATCHDOG_MS faults with WATCHDOG. -/
  | itemWatchdog (th : Nat)
  /-- Q_MV (R207): rd = rs. -/
  | qMv (th : Nat) (rd rs : Fin 32)
  /-- Q_ADD (R207): rd = rd + rs. -/
  | qAdd (th : Nat) (rd rs : Fin 32)
  /-- Q_SUB (R207): rd = rd − rs. -/
  | qSub (th : Nat) (rd rs : Fin 32)
  /-- Q_LDK (R207): rd = sign-extended imm6. -/
  | qLdk (th : Nat) (rd : Fin 32) (imm : BitVec 6)
  /-- Q_ADDK (R207): rd = rd + sign-extended imm6. -/
  | qAddk (th : Nat) (rd : Fin 32) (imm : BitVec 6)
  /-- Q_SHLK (R207): rd = rd shifted left by imm6. -/
  | qShlk (th : Nat) (rd : Fin 32) (imm : BitVec 6)
  /-- Q_LD_D (R207): Short 64-bit load into a primed register. -/
  | qLdD (th : Nat) (rd rb : Fin 8) (off : BitVec 5) (io : MemIo)
  /-- Q_ST_D (R207): Short 64-bit store of a primed register. -/
  | qStD (th : Nat) (rs rb : Fin 8) (off : BitVec 5) (io : MemIo)
  /-- Q_LD_W (R207): Short sign-extended 32-bit load. -/
  | qLdW (th : Nat) (rd rb : Fin 8) (off : BitVec 5) (io : MemIo)
  /-- Q_ST_W (R207): Short 32-bit store. -/
  | qStW (th : Nat) (rs rb : Fin 8) (off : BitVec 5) (io : MemIo)
  /-- Q_BEQZ (R207): Short branch if a primed register is zero. -/
  | qBeqz (th : Nat) (rs : Fin 8) (off : BitVec 8)
  /-- Q_BNEZ (R207): Short branch if a primed register is non-zero. -/
  | qBnez (th : Nat) (rs : Fin 8) (off : BitVec 8)
  /-- Q_JMP (R207): Short relative jump. -/
  | qJmp (th : Nat) (off : BitVec 11)
  /-- Q_JR (R215): Jump to a register target, faulting ALIGN on an odd target. -/
  | qJr (th : Nat) (rs : Fin 32)
  /-- Q_HALT (R158): Fences at external scope and ends the item. -/
  | qHalt (th : Nat)
  /-- Q_NOP (R207): No operation. -/
  | qNop (th : Nat)
  /-- ADD (R210): rd = rs1 + rs2. -/
  | add (th : Nat) (rd rs1 rs2 : Fin 32)
  /-- SUB (R210): rd = rs1 − rs2. -/
  | sub (th : Nat) (rd rs1 rs2 : Fin 32)
  /-- AND (R210): rd = rs1 AND rs2. -/
  | and (th : Nat) (rd rs1 rs2 : Fin 32)
  /-- OR (R210): rd = rs1 OR rs2. -/
  | or (th : Nat) (rd rs1 rs2 : Fin 32)
  /-- XOR (R210): rd = rs1 XOR rs2. -/
  | xor (th : Nat) (rd rs1 rs2 : Fin 32)
  /-- SHL (R210): Shift left by rs2[5:0]. -/
  | shl (th : Nat) (rd rs1 rs2 : Fin 32)
  /-- SHR (R210): Logical shift right by rs2[5:0]. -/
  | shr (th : Nat) (rd rs1 rs2 : Fin 32)
  /-- SAR (R210): Arithmetic shift right by rs2[5:0]. -/
  | sar (th : Nat) (rd rs1 rs2 : Fin 32)
  /-- SETLT (R210): rd = 1 if rs1 < rs2 signed. -/
  | setlt (th : Nat) (rd rs1 rs2 : Fin 32)
  /-- SETLTU (R210): rd = 1 if rs1 < rs2 unsigned. -/
  | setltu (th : Nat) (rd rs1 rs2 : Fin 32)
  /-- MIN (R210): Signed minimum. -/
  | min (th : Nat) (rd rs1 rs2 : Fin 32)
  /-- MAX (R210): Signed maximum. -/
  | max (th : Nat) (rd rs1 rs2 : Fin 32)
  /-- MINU (R210): Unsigned minimum. -/
  | minu (th : Nat) (rd rs1 rs2 : Fin 32)
  /-- MAXU (R210): Unsigned maximum. -/
  | maxu (th : Nat) (rd rs1 rs2 : Fin 32)
  /-- ADDK (R210): rd = rs1 + imm12. -/
  | addk (th : Nat) (rd rs1 : Fin 32) (imm : BitVec 12)
  /-- ANDK (R210): rd = rs1 AND imm12. -/
  | andk (th : Nat) (rd rs1 : Fin 32) (imm : BitVec 12)
  /-- ORK (R210): rd = rs1 OR imm12. -/
  | ork (th : Nat) (rd rs1 : Fin 32) (imm : BitVec 12)
  /-- XORK (R210): rd = rs1 XOR imm12. -/
  | xork (th : Nat) (rd rs1 : Fin 32) (imm : BitVec 12)
  /-- SETLTK (R210): rd = 1 if rs1 < imm12 signed. -/
  | setltk (th : Nat) (rd rs1 : Fin 32) (imm : BitVec 12)
  /-- SETLTUK (R210): rd = 1 if rs1 < imm12 unsigned. -/
  | setltuk (th : Nat) (rd rs1 : Fin 32) (imm : BitVec 12)
  /-- SHLK (R210): Shift left by an immediate. -/
  | shlk (th : Nat) (rd rs1 : Fin 32) (sh : BitVec 6)
  /-- SHRK (R210): Logical shift right by an immediate. -/
  | shrk (th : Nat) (rd rs1 : Fin 32) (sh : BitVec 6)
  /-- SARK (R210): Arithmetic shift right by an immediate. -/
  | sark (th : Nat) (rd rs1 : Fin 32) (sh : BitVec 6)
  /-- LDI (R210): rd = sign-extended imm20. -/
  | ldi (th : Nat) (rd : Fin 32) (imm : BitVec 20)
  /-- LDIS (R210): rd = (rd << 20) OR zero-extended imm20. -/
  | ldis (th : Nat) (rd : Fin 32) (imm : BitVec 20)
  /-- LD_B (R210): Sign-extended byte load. -/
  | ldB (th : Nat) (rd rs1 : Fin 32) (imm : BitVec 12) (io : MemIo)
  /-- LD_H (R210): Sign-extended halfword load. -/
  | ldH (th : Nat) (rd rs1 : Fin 32) (imm : BitVec 12) (io : MemIo)
  /-- LD_W (R210): Sign-extended word load. -/
  | ldW (th : Nat) (rd rs1 : Fin 32) (imm : BitVec 12) (io : MemIo)
  /-- LD_D (R210): 64-bit load. -/
  | ldD (th : Nat) (rd rs1 : Fin 32) (imm : BitVec 12) (io : MemIo)
  /-- LD_BU (R210): Zero-extended byte load. -/
  | ldBu (th : Nat) (rd rs1 : Fin 32) (imm : BitVec 12) (io : MemIo)
  /-- LD_HU (R210): Zero-extended halfword load. -/
  | ldHu (th : Nat) (rd rs1 : Fin 32) (imm : BitVec 12) (io : MemIo)
  /-- LD_WU (R210): Zero-extended word load. -/
  | ldWu (th : Nat) (rd rs1 : Fin 32) (imm : BitVec 12) (io : MemIo)
  /-- ST_B (R210): Byte store. -/
  | stB (th : Nat) (rs2 rs1 : Fin 32) (imm : BitVec 12) (io : MemIo)
  /-- ST_H (R210): Halfword store. -/
  | stH (th : Nat) (rs2 rs1 : Fin 32) (imm : BitVec 12) (io : MemIo)
  /-- ST_W (R210): Word store. -/
  | stW (th : Nat) (rs2 rs1 : Fin 32) (imm : BitVec 12) (io : MemIo)
  /-- ST_D (R210): 64-bit store, taking the course path when it hits table rows. -/
  | stD (th : Nat) (rs2 rs1 : Fin 32) (imm : BitVec 12) (io : MemIo)
  /-- BEQ (R210): Branch if equal. -/
  | beq (th : Nat) (rs1 rs2 : Fin 32) (off : BitVec 12)
  /-- BNE (R210): Branch if not equal. -/
  | bne (th : Nat) (rs1 rs2 : Fin 32) (off : BitVec 12)
  /-- BLT (R210): Branch if less, signed. -/
  | blt (th : Nat) (rs1 rs2 : Fin 32) (off : BitVec 12)
  /-- BGE (R210): Branch if greater or equal, signed. -/
  | bge (th : Nat) (rs1 rs2 : Fin 32) (off : BitVec 12)
  /-- BLTU (R210): Branch if less, unsigned. -/
  | bltu (th : Nat) (rs1 rs2 : Fin 32) (off : BitVec 12)
  /-- BGEU (R210): Branch if greater or equal, unsigned. -/
  | bgeu (th : Nat) (rs1 rs2 : Fin 32) (off : BitVec 12)
  /-- BEQZ (R210): Branch if register is zero. -/
  | beqz (th : Nat) (rs1 : Fin 32) (off : BitVec 17)
  /-- BNEZ (R210): Branch if register is non-zero. -/
  | bnez (th : Nat) (rs1 : Fin 32) (off : BitVec 17)
  /-- BANY (R214): Branch if the mask has any bit set. -/
  | bany (th : Nat) (mask : Fin 8) (off : BitVec 17)
  /-- BNONE (R214): Branch if the mask has no bit set. -/
  | bnone (th : Nat) (mask : Fin 8) (off : BitVec 17)
  /-- CALL (R210): Saves the return address and jumps relative. -/
  | call (th : Nat) (rd : Fin 32) (off : BitVec 20)
  /-- CALLR (R215): Saves the return address and jumps to a register target. -/
  | callr (th : Nat) (rd rs1 : Fin 32) (imm : BitVec 12)
  /-- HALT (R158): Fences at external scope and ends the item. -/
  | halt (th : Nat)
  /-- FENCE (R157): Holds the thread until earlier accesses are performed at the chosen scope. -/
  | fence (th : Nat) (scope : BitVec 12)
  /-- RDSR (R210): Reads lc, lpos, the cycle count or island time. -/
  | rdsr (th : Nat) (rd : Fin 32) (imm : BitVec 12)
  /-- RPT (R218): Starts a counted block repeat or steps over the block when the count is zero. -/
  | rpt (th : Nat) (rs1 : Fin 32) (imm : BitVec 12)
  /-- AADD (R210): Atomic add returning the old value. -/
  | aadd (th : Nat) (rd rs1 rs2 : Fin 32) (acquire release wide : Bool) (io : MemIo)
  /-- AMIN (R210): Atomic signed minimum. -/
  | amin (th : Nat) (rd rs1 rs2 : Fin 32) (acquire release wide : Bool) (io : MemIo)
  /-- AMAX (R210): Atomic signed maximum. -/
  | amax (th : Nat) (rd rs1 rs2 : Fin 32) (acquire release wide : Bool) (io : MemIo)
  /-- AMINU (R210): Atomic unsigned minimum. -/
  | aminu (th : Nat) (rd rs1 rs2 : Fin 32) (acquire release wide : Bool) (io : MemIo)
  /-- AMAXU (R210): Atomic unsigned maximum. -/
  | amaxu (th : Nat) (rd rs1 rs2 : Fin 32) (acquire release wide : Bool) (io : MemIo)
  /-- AAND (R210): Atomic AND. -/
  | aand (th : Nat) (rd rs1 rs2 : Fin 32) (acquire release wide : Bool) (io : MemIo)
  /-- AOR (R210): Atomic OR. -/
  | aor (th : Nat) (rd rs1 rs2 : Fin 32) (acquire release wide : Bool) (io : MemIo)
  /-- AXOR (R210): Atomic XOR. -/
  | axor (th : Nat) (rd rs1 rs2 : Fin 32) (acquire release wide : Bool) (io : MemIo)
  /-- ASWAP (R210): Atomic swap. -/
  | aswap (th : Nat) (rd rs1 rs2 : Fin 32) (acquire release wide : Bool) (io : MemIo)
  /-- ACAS (R212): Atomic compare and swap using rd as compare value and result. -/
  | acas (th : Nat) (rd rs1 rs2 : Fin 32) (acquire release wide : Bool) (io : MemIo)
  /-- AFADD (R210): Atomic FP32 add. -/
  | afadd (th : Nat) (rd rs1 rs2 : Fin 32) (acquire release wide : Bool) (io : MemIo)
  /-- AFMIN (R210): Atomic FP32 minimum. -/
  | afmin (th : Nat) (rd rs1 rs2 : Fin 32) (acquire release wide : Bool) (io : MemIo)
  /-- AFMAX (R210): Atomic FP32 maximum. -/
  | afmax (th : Nat) (rd rs1 rs2 : Fin 32) (acquire release wide : Bool) (io : MemIo)
  /-- ABFADD2 (R210): Atomic add of a BF16 pair. -/
  | abfadd2 (th : Nat) (rd rs1 rs2 : Fin 32) (acquire release wide : Bool) (io : MemIo)
  /-- MUL (R210): Low 64 bits of the product. -/
  | mul (th : Nat) (rd rs1 rs2 : Fin 32)
  /-- MULHS (R210): High 64 bits of the signed product. -/
  | mulhs (th : Nat) (rd rs1 rs2 : Fin 32)
  /-- MULHU (R210): High 64 bits of the unsigned product. -/
  | mulhu (th : Nat) (rd rs1 rs2 : Fin 32)
  /-- DIVS (R202): Signed division that never faults. -/
  | divs (th : Nat) (rd rs1 rs2 : Fin 32)
  /-- DIVU (R202): Unsigned division that never faults. -/
  | divu (th : Nat) (rd rs1 rs2 : Fin 32)
  /-- REMS (R202): Signed remainder. -/
  | rems (th : Nat) (rd rs1 rs2 : Fin 32)
  /-- REMU (R202): Unsigned remainder. -/
  | remu (th : Nat) (rd rs1 rs2 : Fin 32)
  /-- VADD (R210): Per-lane add. -/
  | vadd (th : Nat) (type : Fin 8) (rnd zm : Bool) (mask : Fin 8) (vs2 vs1 vd : Fin 16)
  /-- VSUB (R210): Per-lane subtract. -/
  | vsub (th : Nat) (type : Fin 8) (rnd zm : Bool) (mask : Fin 8) (vs2 vs1 vd : Fin 16)
  /-- VMUL (R210): Per-lane multiply. -/
  | vmul (th : Nat) (type : Fin 8) (rnd zm : Bool) (mask : Fin 8) (vs2 vs1 vd : Fin 16)
  /-- VFMA (R210): Per-lane fused multiply-add. -/
  | vfma (th : Nat) (type : Fin 8) (rnd zm : Bool) (mask : Fin 8) (vs2 vs1 vd : Fin 16)
  /-- VMIN (R210): Per-lane signed or FP minimum. -/
  | vmin (th : Nat) (type : Fin 8) (rnd zm : Bool) (mask : Fin 8) (vs2 vs1 vd : Fin 16)
  /-- VMAX (R210): Per-lane signed or FP maximum. -/
  | vmax (th : Nat) (type : Fin 8) (rnd zm : Bool) (mask : Fin 8) (vs2 vs1 vd : Fin 16)
  /-- VMINU (R210): Per-lane unsigned minimum. -/
  | vminu (th : Nat) (type : Fin 8) (rnd zm : Bool) (mask : Fin 8) (vs2 vs1 vd : Fin 16)
  /-- VMAXU (R210): Per-lane unsigned maximum. -/
  | vmaxu (th : Nat) (type : Fin 8) (rnd zm : Bool) (mask : Fin 8) (vs2 vs1 vd : Fin 16)
  /-- VAND (R210): Per-lane AND. -/
  | vand (th : Nat) (type : Fin 8) (rnd zm : Bool) (mask : Fin 8) (vs2 vs1 vd : Fin 16)
  /-- VOR (R210): Per-lane OR. -/
  | vor (th : Nat) (type : Fin 8) (rnd zm : Bool) (mask : Fin 8) (vs2 vs1 vd : Fin 16)
  /-- VXOR (R210): Per-lane XOR. -/
  | vxor (th : Nat) (type : Fin 8) (rnd zm : Bool) (mask : Fin 8) (vs2 vs1 vd : Fin 16)
  /-- VSLL (R210): Per-lane shift left. -/
  | vsll (th : Nat) (type : Fin 8) (rnd zm : Bool) (mask : Fin 8) (vs2 vs1 vd : Fin 16)
  /-- VSRL (R210): Per-lane logical shift right. -/
  | vsrl (th : Nat) (type : Fin 8) (rnd zm : Bool) (mask : Fin 8) (vs2 vs1 vd : Fin 16)
  /-- VSRA (R210): Per-lane arithmetic shift right. -/
  | vsra (th : Nat) (type : Fin 8) (rnd zm : Bool) (mask : Fin 8) (vs2 vs1 vd : Fin 16)
  /-- VDIV (R210): Per-lane FP division. -/
  | vdiv (th : Nat) (type : Fin 8) (rnd zm : Bool) (mask : Fin 8) (vs2 vs1 vd : Fin 16)
  /-- VSQRT (R210): Per-lane FP square root. -/
  | vsqrt (th : Nat) (type : Fin 8) (rnd zm : Bool) (mask : Fin 8) (vs1 vd : Fin 16)
  /-- VABS (R210): Per-lane absolute value. -/
  | vabs (th : Nat) (type : Fin 8) (rnd zm : Bool) (mask : Fin 8) (vs1 vd : Fin 16)
  /-- VNEG (R210): Per-lane negation. -/
  | vneg (th : Nat) (type : Fin 8) (rnd zm : Bool) (mask : Fin 8) (vs1 vd : Fin 16)
  /-- VREDSUM (R231): Pairwise-tree sum of active lanes into lane 0. -/
  | vredsum (th : Nat) (type : Fin 8) (rnd zm : Bool) (mask : Fin 8) (vs1 vd : Fin 16)
  /-- VREDMAX (R231): Pairwise-tree maximum of active lanes into lane 0. -/
  | vredmax (th : Nat) (type : Fin 8) (rnd zm : Bool) (mask : Fin 8) (vs1 vd : Fin 16)
  /-- VREDMIN (R231): Pairwise-tree minimum of active lanes into lane 0. -/
  | vredmin (th : Nat) (type : Fin 8) (rnd zm : Bool) (mask : Fin 8) (vs1 vd : Fin 16)
  /-- VSEL (R210): Selects lanes from vs1 or vs2 by mask. -/
  | vsel (th : Nat) (type : Fin 8) (rnd zm : Bool) (mask : Fin 8) (vs2 vs1 vd : Fin 16)
  /-- VADD_S (R210): Adds a scalar to every lane. -/
  | vaddS (th : Nat) (type : Fin 8) (rnd zm : Bool) (mask : Fin 8) (rs : Fin 32) (vs1 vd : Fin 16)
  /-- VSUB_S (R210): Subtracts a scalar from every lane. -/
  | vsubS (th : Nat) (type : Fin 8) (rnd zm : Bool) (mask : Fin 8) (rs : Fin 32) (vs1 vd : Fin 16)
  /-- VMUL_S (R210): Multiplies every lane by a scalar. -/
  | vmulS (th : Nat) (type : Fin 8) (rnd zm : Bool) (mask : Fin 8) (rs : Fin 32) (vs1 vd : Fin 16)
  /-- VFMA_S (R210): Fused multiply-add with a scalar. -/
  | vfmaS (th : Nat) (type : Fin 8) (rnd zm : Bool) (mask : Fin 8) (rs : Fin 32) (vs1 vd : Fin 16)
  /-- VMIN_S (R210): Per-lane minimum with a scalar. -/
  | vminS (th : Nat) (type : Fin 8) (rnd zm : Bool) (mask : Fin 8) (rs : Fin 32) (vs1 vd : Fin 16)
  /-- VMAX_S (R210): Per-lane maximum with a scalar. -/
  | vmaxS (th : Nat) (type : Fin 8) (rnd zm : Bool) (mask : Fin 8) (rs : Fin 32) (vs1 vd : Fin 16)
  /-- VBCAST (R210): Broadcasts a scalar to every lane. -/
  | vbcast (th : Nat) (type : Fin 8) (rnd zm : Bool) (mask : Fin 8) (rs : Fin 32) (vd : Fin 16)
  /-- VSLL_S (R210): Shifts every lane left by a scalar. -/
  | vsllS (th : Nat) (type : Fin 8) (rnd zm : Bool) (mask : Fin 8) (rs : Fin 32) (vs1 vd : Fin 16)
  /-- VSRL_S (R210): Shifts every lane right logically by a scalar. -/
  | vsrlS (th : Nat) (type : Fin 8) (rnd zm : Bool) (mask : Fin 8) (rs : Fin 32) (vs1 vd : Fin 16)
  /-- VSRA_S (R210): Shifts every lane right arithmetically by a scalar. -/
  | vsraS (th : Nat) (type : Fin 8) (rnd zm : Bool) (mask : Fin 8) (rs : Fin 32) (vs1 vd : Fin 16)
  /-- VEQ (R233): Per-lane equality into a mask. -/
  | veq (th : Nat) (type : Fin 8) (rnd zm : Bool) (mask : Fin 8) (vs2 vs1 : Fin 16) (md : Fin 8)
  /-- VNE (R233): Per-lane inequality into a mask. -/
  | vne (th : Nat) (type : Fin 8) (rnd zm : Bool) (mask : Fin 8) (vs2 vs1 : Fin 16) (md : Fin 8)
  /-- VLT (R233): Per-lane less-than into a mask. -/
  | vlt (th : Nat) (type : Fin 8) (rnd zm : Bool) (mask : Fin 8) (vs2 vs1 : Fin 16) (md : Fin 8)
  /-- VLE (R233): Per-lane less-or-equal into a mask. -/
  | vle (th : Nat) (type : Fin 8) (rnd zm : Bool) (mask : Fin 8) (vs2 vs1 : Fin 16) (md : Fin 8)
  /-- VLTU (R233): Per-lane unsigned less-than into a mask. -/
  | vltu (th : Nat) (type : Fin 8) (rnd zm : Bool) (mask : Fin 8) (vs2 vs1 : Fin 16) (md : Fin 8)
  /-- VLEU (R233): Per-lane unsigned less-or-equal into a mask. -/
  | vleu (th : Nat) (type : Fin 8) (rnd zm : Bool) (mask : Fin 8) (vs2 vs1 : Fin 16) (md : Fin 8)
  /-- VLD (R210): Loads 64 bytes into active lanes. -/
  | vld (th : Nat) (type : Fin 8) (off : BitVec 6) (mask : Fin 8) (zm : Bool) (rs1 : Fin 32) (vd : Fin 16) (io : MemIo)
  /-- VST (R210): Stores active lanes to 64 bytes. -/
  | vst (th : Nat) (type : Fin 8) (off : BitVec 6) (mask : Fin 8) (zm : Bool) (rs1 : Fin 32) (vd : Fin 16) (io : MemIo)
  /-- VLDB (R210): Loads one element into every lane. -/
  | vldb (th : Nat) (type : Fin 8) (off : BitVec 6) (mask : Fin 8) (zm : Bool) (rs1 : Fin 32) (vd : Fin 16) (io : MemIo)
  /-- VAADD (R210): Atomic vector add to an aligned 64-byte half line. -/
  | vaadd (th : Nat) (type : Fin 8) (off : BitVec 6) (mask : Fin 8) (zm : Bool) (rs1 : Fin 32) (vd : Fin 16) (io : MemIo)
  /-- VCVT (R238): Converts elements between types. -/
  | vcvt (th : Nat) (type : Fin 8) (rnd zm : Bool) (mask : Fin 8) (src : Fin 8) (vs1 vd : Fin 16)
  /-- VMXPK (R240): Packs 32 elements into an OCP Microscaling block. -/
  | vmxpk (th : Nat) (type : Fin 8) (rnd zm : Bool) (mask : Fin 8) (src : Fin 8) (vs1 vd : Fin 16)
  /-- VMXUNPK (R240): Unpacks an OCP Microscaling block. -/
  | vmxunpk (th : Nat) (type : Fin 8) (rnd zm : Bool) (mask : Fin 8) (src : Fin 8) (vs1 vd : Fin 16)
  /-- MAND (R210): Mask AND. -/
  | mand (th : Nat) (md ma mb : Fin 8)
  /-- MOR (R210): Mask OR. -/
  | mor (th : Nat) (md ma mb : Fin 8)
  /-- MXOR (R210): Mask XOR. -/
  | mxor (th : Nat) (md ma mb : Fin 8)
  /-- MANDN (R210): Mask AND NOT. -/
  | mandn (th : Nat) (md ma mb : Fin 8)
  /-- MPOP (R210): Counts set mask bits. -/
  | mpop (th : Nat) (rd : Fin 32) (ma : Fin 8)
  /-- MFIRST (R210): Index of the lowest set mask bit. -/
  | mfirst (th : Nat) (rd : Fin 32) (ma : Fin 8)
  /-- MFROMS (R210): Mask from a scalar. -/
  | mfroms (th : Nat) (md : Fin 8) (rs1 : Fin 32)
  /-- MTOS (R210): Scalar from a mask. -/
  | mtos (th : Nat) (rd : Fin 32) (ma : Fin 8)
  /-- VEXT (R210): Extracts a lane into a scalar. -/
  | vext (th : Nat) (type : Fin 8) (lane : Fin 64) (sr : Fin 32) (vr : Fin 16)
  /-- VINS (R210): Inserts a scalar into a lane. -/
  | vins (th : Nat) (type : Fin 8) (lane : Fin 64) (sr : Fin 32) (vr : Fin 16)
  /-- VIDX (R210): Writes lane indices into a vector. -/
  | vidx (th : Nat) (type : Fin 8) (vr : Fin 16)
  /-- MOVS (R224): Moves a counted run of elements one at a time. -/
  | movs (th : Nat) (size : Fin 8) (rc r1 r0 : Fin 32) (io : MemIo)
  /-- FILLS (R224): Fills a counted run with a value. -/
  | fills (th : Nat) (size : Fin 8) (rc r1 r0 : Fin 32) (io : MemIo)
  /-- CMPS (R224): Compares two strings until a difference. -/
  | cmps (th : Nat) (size : Fin 8) (rc r1 r0 : Fin 32) (io : MemIo)
  /-- SCANS (R224): Scans a string for an equal or unequal element. -/
  | scans (th : Nat) (size : Fin 8) (rc : Fin 32) (cond : Bool) (r1 r0 : Fin 32) (io : MemIo)
  /-- GATH (R228): Gathers elements selected by an index list. -/
  | gath (th : Nat) (wide : Bool) (size : Fin 8) (rc r2 r1 r0 : Fin 32) (io : MemIo)
  /-- NVME_SQ_DOORBELL (R444): Write of an NVMe submission queue tail doorbell. -/
  | nvmeSqDoorbell (fn sq tail : Nat) (entries : List NvmeSlot)
  /-- NVME_CQ_DOORBELL (R444): Write of an NVMe completion queue head doorbell. -/
  | nvmeCqDoorbell (fn cq head : Nat)
  /-- CONTROLLER_RESET (R475): CC.EN change resets the controller to PS0 and deletes its I/O queues. -/
  | controllerReset (fn : Nat) (enable : Bool) (asq asqSize acq acqSize : Nat)
  /-- DELETE_IO_SQ (R440): Deletes an I/O submission queue. -/
  | deleteIoSq (fn : Nat) (cmd : NvmeCmd)
  /-- DELETE_IO_CQ (R440): Deletes an I/O completion queue. -/
  | deleteIoCq (fn : Nat) (cmd : NvmeCmd)
  /-- CREATE_IO_SQ (R440): Creates an I/O submission queue. -/
  | createIoSq (fn : Nat) (cmd : NvmeCmd)
  /-- CREATE_IO_CQ (R445): Creates an I/O completion queue with an interrupt vector. -/
  | createIoCq (fn : Nat) (cmd : NvmeCmd)
  /-- GET_LOG_PAGE (R440): Returns a supported log page. -/
  | getLogPage (fn : Nat) (cmd : NvmeCmd)
  /-- IDENTIFY (R439): Returns controller or namespace identify data. -/
  | identify (fn : Nat) (cmd : NvmeCmd)
  /-- ABORT (R440): Requests abort of a command; never stops Sanitize or Format. -/
  | abort (fn : Nat) (cmd : NvmeCmd)
  /-- SET_FEATURES (R440): Sets a supported feature such as arbitration, queues or coalescing. -/
  | setFeatures (fn : Nat) (cmd : NvmeCmd)
  /-- SET_FEATURES_POWER_MANAGEMENT (R472): Requests a power state, waiting for idleness for non-operational states. -/
  | setFeaturesPowerManagement (fn : Nat) (cmd : NvmeCmd)
  /-- POWER_STATE_IDLE (R472): No command in progress for 1 ms, the controller enters PS3 or PS4 and completes Set Features. -/
  | powerStateIdle (fn : Nat)
  /-- POWER_STATE_ABANDON (R472): Entry not reached within 1 s is abandoned. -/
  | powerStateAbandon (fn : Nat)
  /-- GET_FEATURES (R440): Returns a supported feature. -/
  | getFeatures (fn : Nat) (cmd : NvmeCmd)
  /-- ASYNCHRONOUS_EVENT_REQUEST (R440): Posts a request completed on a later asynchronous event. -/
  | asynchronousEventRequest (fn : Nat) (cmd : NvmeCmd)
  /-- FORMAT_NVM (R469): Reformats namespaces with optional erase, recording progress. -/
  | formatNvm (fn : Nat) (cmd : NvmeCmd)
  /-- SANITIZE_EXIT_FAILURE (R466): Clears FAILED sanitize state. -/
  | sanitizeExitFailure (fn : Nat) (cmd : NvmeCmd)
  /-- SANITIZE_BLOCK_ERASE (R466): Erases every extent of attached namespaces. -/
  | sanitizeBlockErase (fn : Nat) (cmd : NvmeCmd)
  /-- SANITIZE_OVERWRITE (R466): Overwrites every extent with a pattern for OWPASS passes. -/
  | sanitizeOverwrite (fn : Nat) (cmd : NvmeCmd)
  /-- SANITIZE_CRYPTO_ERASE (R466): Erases the namespace key and generates a new one. -/
  | sanitizeCryptoErase (fn : Nat) (cmd : NvmeCmd)
  /-- SANITIZE_PROGRESS (R465): An extent or pass of sanitize or format completes and progress is recorded. -/
  | sanitizeProgress (nsid : Nat) (ok : Bool)
  /-- FLUSH_NVM (R441): Completes once earlier fetched writes to the namespace have completed. -/
  | flushNvm (fn sq : Nat) (cmd : NvmeCmd)
  /-- NVME_WRITE (R441): Writes data to every in-sync leg, or journals it on atomic namespaces. -/
  | nvmeWrite (fn sq : Nat) (cmd : NvmeCmd) (io : NvmeIo)
  /-- NVME_READ (R452): Reads from the least-queued in-sync leg with retry on the other. -/
  | nvmeRead (fn sq : Nat) (cmd : NvmeCmd) (io : NvmeIo)
  /-- COMPARE (R440): Compares data with the namespace. -/
  | compare (fn sq : Nat) (cmd : NvmeCmd) (io : NvmeIo)
  /-- WRITE_ZEROES (R440): Writes zeros over a range. -/
  | writeZeroes (fn sq : Nat) (cmd : NvmeCmd) (io : NvmeIo)
  /-- DATASET_MANAGEMENT (R458): Deallocates ranges one lock entry at a time. -/
  | datasetManagement (fn sq : Nat) (cmd : NvmeCmd) (io : NvmeIo)
  /-- VERIFY (R440): Verifies a range. -/
  | verify (fn sq : Nat) (cmd : NvmeCmd) (io : NvmeIo)
  /-- RANGE_LOCK_GRANT (R459): A command waiting at the lock table starts once no earlier conflicting entry remains. -/
  | rangeLockGrant (op : Nat)
  /-- JOURNAL_DURABLE (R462): Both journal copies are durable and the atomic write's completion is posted. -/
  | journalDurable (op : Nat)
  /-- IN_PLACE_WRITE_DONE (R462): Every leg holds the data, the range lock is released and the record retired. -/
  | inPlaceWriteDone (op : Nat) (writeFail : List Nat)
  /-- LEG_FAILED (R453): A leg's failure marks it FAILED and write-protects the namespace if none remains. -/
  | legFailed (nsid leg : Nat) (ssd : Option Nat)
  /-- LEG_RETURN (R454): A returning leg is resynced piece by piece and becomes IN_SYNC. -/
  | legReturn (nsid leg : Nat) (ssd : Option Nat)
  /-- RESYNC_PIECE (R454): One 1 MiB resync piece is copied under a reserve range lock. -/
  | resyncPiece (nsid leg : Nat)
  /-- ETHERNET_FRAME_RX (R504): A received frame is parsed, classified, policed and spread to its verdict's destination. -/
  | ethernetFrameRx (sub : Nat) (frame : Bytes) (full : Bool) (corrected uncorrectable : Nat)
  /-- LINK_UP (R509): A sub-port link comes up and enters STARTUP or RECOVERY. -/
  | linkUp (sub speed laneMask inverted : Nat) (partner : Bool)
  /-- LINK_DOWN (R486): A sub-port link goes down and egress frames are held. -/
  | linkDown (sub : Nat)
  /-- LINK_DOWN_HOLD_EXPIRY (R486): Held frames are dropped after 10 ms with LINK_DOWN completions. -/
  | linkDownHoldExpiry (sub : Nat)
  /-- SERVICE_TIMER_EXPIRY (R509): STARTUP_MS or RECOVERY_MS ends and the sub-port enters NORMAL. -/
  | serviceTimerExpiry (sub : Nat)
  /-- LANE_TRAINING_FAILED (R485): A lane failing training three times down-trains its port. -/
  | laneTrainingFailed (port lane : Nat)
  /-- LANE_IDENTITY_FOUND (R484): The partner's lane-identity pattern is recognised and its order adopted. -/
  | laneIdentityFound (port order : Nat)
  /-- TX_TAIL (R518): NIC transmit ring tail doorbell write. -/
  | txTail (fn qp index : Nat) (slots : List (Bytes × Option Bytes))
  /-- RX_TAIL (R518): NIC receive buffer ring tail doorbell write. -/
  | rxTail (fn qp index : Nat) (slots : List Bytes)
  /-- NIC_CQ_HEAD (R518): NIC completion ring head doorbell write. -/
  | nicCqHead (fn qp index : Nat)
  /-- NIC_TRANSMIT (R520): A transmit descriptor's frame passes spoof checks and is queued on its egress queue. -/
  | nicTransmit (fn qp : Nat)
  /-- TRANSMISSION_SLOT (R521): The scheduler sends the eligible head frame of the highest TC. -/
  | transmissionSlot (sub : Nat)
  /-- GATE_LIST_TAKE_EFFECT (R525): A new gate list takes effect at a cycle boundary. -/
  | gateListTakeEffect (sub : Nat)
  /-- SAMPLER_INTERVAL (R529): Each interval the sampler writes one record per queue. -/
  | samplerInterval (sampler : Nat)
  /-- GRT_SQ_TAIL (R535): GRT work queue tail doorbell write. -/
  | grtSqTail (wq index : Nat) (slots : List WrSlot)
  /-- GRT_CQ_HEAD (R535): GRT completion ring head doorbell write. -/
  | grtCqHead (wq index : Nat)
  /-- GRT_WRITE (R541): Sends a message writing local data to a remote registration. -/
  | grtWrite (wq : Nat) (wr : GrtWr) (data : Option Bytes)
  /-- GRT_WRITE_NOTIFY (R541): Sends a write that posts a receive completion with NOTIFY_DATA. -/
  | grtWriteNotify (wq : Nat) (wr : GrtWr) (data : Option Bytes)
  /-- GRT_READ (R541): Sends a read request for remote data. -/
  | grtRead (wq : Nat) (wr : GrtWr) (data : Option Bytes)
  /-- CTR_ADD (R561): Adds CTR_VALUE to a trigger counter when fetched. -/
  | ctrAdd (wq : Nat) (wr : GrtWr)
  /-- GRT_NOP (R541): Sends nothing and completes. -/
  | grtNop (wq : Nat) (wr : GrtWr)
  /-- TRIGGER_FIRE (R562): A parked request fires when its counter reaches THRESHOLD. -/
  | triggerFire (wq : Nat)
  /-- GRT_RX_WRITE (R546): An inbound WRITE or WRITE_NOTIFY packet is admitted, placed and tracked. -/
  | grtRxWrite (pkt : GrtArrival) (tagOk refused : Bool)
  /-- GRT_RX_READ_REQ (R564): An inbound READ_REQ is admitted and answered with READ_RESP packets. -/
  | grtRxReadReq (pkt : GrtArrival) (data : Option Bytes)
  /-- GRT_RX_READ_RESP (R546): An inbound READ_RESP is placed at the request's local address. -/
  | grtRxReadResp (pkt : GrtArrival) (tagOk : Bool)
  /-- GRT_RX_ACK (R557): An ACK advances CUM_PSN and CMSN, updates RTT and window, and completes sends. -/
  | grtRxAck (pkt : GrtArrival)
  /-- GRT_RX_NAK (R559): A NAK fails the message, errors the connection or schedules a resend. -/
  | grtRxNak (pkt : GrtArrival)
  /-- GRT_RX_HELLO (R536): A peer HELLO settles version and PMTU and makes the connection READY. -/
  | grtRxHello (pkt : GrtArrival)
  /-- GRT_RX_CLOSE (R539): A peer CLOSE packet arrives. -/
  | grtRxClose (pkt : GrtArrival)
  /-- HELLO_RETRY (R536): Every 1 ms a CONNECTING connection resends HELLO. -/
  | helloRetry (conn : Nat)
  /-- CONNECTING_TIMEOUT (R536): A connection still CONNECTING after 60 s enters ERROR. -/
  | connectingTimeout (conn : Nat)
  /-- ACK_DELAY_EXPIRY (R556): An ACK is sent within 2 µs of an unacknowledged arrival. -/
  | ackDelayExpiry (conn : Nat)
  /-- RETRANSMIT_TIMEOUT (R557): A packet's timeout expires, it is resent or the connection enters ERROR. -/
  | retransmitTimeout (conn psn : Nat)
  /-- RETRY_AFTER_EXPIRY (R559): After RETRY_AFTER_US an RNR or RESOURCE refused packet is resent. -/
  | retryAfterExpiry (conn psn : Nat)
  /-- PATH_EXCLUSION_EXPIRY (R545): An excluded entropy returns after its exclusion time. -/
  | pathExclusionExpiry (conn path : Nat)
  /-- PERSIST_DURABLE (R565): A PERSIST write's namespace write completes and the message may be released. -/
  | persistDurable (conn msn : Nat) (ok : Bool)
  /-- REVOCATION_DRAINED (R566): Admitted packets of a revoking region have been placed and MR_REVOKE replies. -/
  | revocationDrained (rkey : Nat)
  /-- FLR (R404): Function Level Reset stops fetching, silences DMA, bumps the generation and resets config space. -/
  | flr (fn : Nat)
  /-- PERST_N (R387): PERST_N or host link loss resets the host port's bridges and fails its functions. -/
  | perstN (hostPort : Nat) (asserted : Bool)
  /-- SECONDARY_BUS_RESET (R387): Hot-resets the accelerator link behind a downstream bridge. -/
  | secondaryBusReset (block link : Nat)
  /-- ACCELERATOR_LINK_RESET (R56): An accelerator endpoint's link resets and its generation is bumped. -/
  | acceleratorLinkReset (block link : Nat)
  /-- LINK_TRAINING (R382): A PCIe or CXL link trains, correcting reversal and polarity and down-training dead lanes. -/
  | linkTraining (block link : Nat) (width speed : Nat) (flit reversed : Bool) (polarity : Nat)
  /-- NUMVFS_WRITE (R391): A NumVFs write is clamped so the part's total stays within 1,024. -/
  | numvfsWrite (fn count : Nat)
  /-- VF_ENABLE (R391): Setting VF Enable assigns each VF the lowest free VF number. -/
  | vfEnable (fn : Nat) (enable : Bool)
  /-- D_STATE_CHANGE (R423): A PF enters D0, D1, D3hot or D3cold with effects on decoding, DMA and queues. -/
  | dStateChange (fn : Nat) (state : Nat) (pme : Bool)
  /-- WAKE_EVENT (R424): A wake event sends PME or asserts WAKE_N and returns the part from standby. -/
  | wakeEvent (fn kind : Nat)
  /-- APERTURE_ACCESS (R401): A host read or write through BAR4 to custody memory. -/
  | apertureAccess (hostPort offset length : Nat) (write : Option Bytes) (faults : List LineFault)
  /-- WINDOW_ACCESS (R398): A host access through a BAR0 translation window to CSR space. -/
  | windowAccess (hostPort offset width : Nat) (write : Option Nat)
  /-- APT_WRITE (R400): An aperture table entry write, rejected when its DPA is unpopulated. -/
  | aptWrite (hostPort entry : Nat) (value : BitVec 64)
  /-- QUEUE_REGION_ACCESS (R396): An access to a queue-region page, served or counted when no ring is there. -/
  | queueRegionAccess (hostPort offset length : Nat) (write : Option Bytes)
  /-- IDE_TLP_RX (R613): Received IDE TLPs are held until their MAC checks, dropped on failure. -/
  | ideTlpRx (hp stream : Nat) (tlps : List Bytes) (macOk : Bool)
  /-- SPDM_GET_VERSION (R584): SPDM GET_VERSION request. -/
  | spdmGetVersion (mailbox peer : Nat)
  /-- SPDM_GET_CAPABILITIES (R584): SPDM GET_CAPABILITIES request. -/
  | spdmGetCapabilities (mailbox peer version : Nat)
  /-- SPDM_NEGOTIATE_ALGORITHMS (R584): SPDM NEGOTIATE_ALGORITHMS request. -/
  | spdmNegotiateAlgorithms (mailbox peer : Nat) (agreed : Bool)
  /-- SPDM_GET_DIGESTS (R584): SPDM GET_DIGESTS request. -/
  | spdmGetDigests (mailbox peer : Nat)
  /-- SPDM_GET_CERTIFICATE (R583): SPDM GET_CERTIFICATE from slot 0 or 1. -/
  | spdmGetCertificate (mailbox peer slot offset length : Nat)
  /-- SPDM_CHALLENGE (R584): SPDM CHALLENGE signed with the Alias key. -/
  | spdmChallenge (mailbox peer slot : Nat) (nonce : Bytes)
  /-- SPDM_GET_MEASUREMENTS (R585): Returns the seven measurement blocks. -/
  | spdmGetMeasurements (mailbox peer index : Nat) (signed : Bool) (nonce : Bytes)
  /-- SPDM_KEY_EXCHANGE (R584): Opens a secured session within the session limit. -/
  | spdmKeyExchange (mailbox peer slot : Nat) (exchange : Bytes)
  /-- SPDM_FINISH (R584): SPDM FINISH request. -/
  | spdmFinish (mailbox peer session : Nat) (verified : Bool)
  /-- SPDM_KEY_UPDATE (R584): SPDM KEY_UPDATE request. -/
  | spdmKeyUpdate (mailbox peer session operation : Nat)
  /-- SPDM_HEARTBEAT (R584): SPDM HEARTBEAT request. -/
  | spdmHeartbeat (mailbox peer session : Nat)
  /-- SPDM_END_SESSION (R584): Ends an SPDM session. -/
  | spdmEndSession (mailbox peer session : Nat)
  /-- IDE_KM (R612): IDE key management request in a secured session. -/
  | ideKm (mailbox peer session stream message : Nat) (key : Nat)
  /-- ALARM (R608): An alarm source erases keys, records a CON, fails keyed work and burns an epoch bit. -/
  | alarm (source : Nat)
  /-- SEALED_COPIES_ERASED (R608): Firmware erases the sealed key copies from SPI flash after an alarm. -/
  | sealedCopiesErased
  /-- CX_ALARM_CLEAR (R610): Writing 1 clears alarm bits and, when all clear, identity keys are derived again. -/
  | cxAlarmClear (who : Requester) (value : CsrWord)
  /-- ERR_ACK_ACK (R625): ACK with matching SEQ stops the escalation timer and sets ACKED. -/
  | errAckAck (who : Requester) (block seq : Nat)
  /-- ERR_ACK_CLEAR (R628): CLEAR zeroes the latch and returns an isolated block to service. -/
  | errAckClear (who : Requester) (block seq : Nat) (withAck : Bool)
  /-- ISOLATED_BLOCK_RETURN (R628): An isolated block returns to service within 10 ms of its CLEAR. -/
  | isolatedBlockReturn (block : Nat)
  /-- ESCALATION_TIMER_EXPIRY (R626): The unacknowledged timer expires and the block escalates or is isolated. -/
  | escalationTimerExpiry (block : Nat)
  /-- CNT_SEL_WRITE (R638): A write changing a counter's event, unit or mode zeroes the counter. -/
  | cntSelWrite (who : Requester) (block counter : Nat) (value : CsrWord)
  /-- UNMAPPED_ACCESS (R29): An access to unoccupied CSR space or an unmapped DPA is ignored and counted. -/
  | unmappedAccess (access : AccessBy) (isCsr : Bool) (isWrite : Bool)
  /-- CSR_WRITE (R12): A write to a register field with no behaviour of its own is stored by its access type. -/
  | csrWrite (who : Requester) (target : RegTarget) (value : CsrWord)
  /-- COLD_RESET (R649): PWR_OK rise or SYS_RST_N starts a cold start sequence. -/
  | coldReset (kind straps : Nat) (densities : List (Nat × Nat)) (untrained : List (Nat × Nat)) (cxl : List (Nat × Nat)) (aonKept stewardOk : Bool)
  /-- WARM_RESET (R649): An internal reset pulse starts a warm start keeping straps, fences and dump. -/
  | warmReset (kind : Nat) (stewardOk : Bool)
  /-- IMAGE_VERIFIED (R577): The image header and sections pass verification and firmware starts. -/
  | imageVerified (network : Option Bytes)
  /-- NETWORK_FETCH_TIMEOUT (R657): Network boot gives up after 60 s as a failed start. -/
  | networkFetchTimeout
  /-- START_COMPLETE (R653): Clears the failed-start count, burns commits and serves the endpoint functions. -/
  | startComplete
  /-- START_WATCHDOG_EXPIRY (R654): The start watchdog expires after 10 s and causes a warm reset. -/
  | startWatchdogExpiry
  /-- GL_START_CTL_WRITE (R665): Writes FOOTING_THRESHOLD into the boot record for the next start. -/
  | glStartCtlWrite (who : Requester) (value : CsrWord)
  /-- PACKAGE_POWER_LOOP (R686): Each 1 ms keeps average package power within the cap. -/
  | packagePowerLoop (milliwatts : Nat) (temps : List (Nat × Nat))
  /-- TEMPERATURE_LOOP (R687): Each 10 ms lowers or raises island ceilings toward TEMP_TARGET_C. -/
  | temperatureLoop (temps : List (Nat × Nat))
  /-- DVFS_GOVERNOR (R685): Each 1 ms per island sets the operating point by occupancy within limits. -/
  | dvfsGovernor (island occupancy : Nat)
  /-- THERMAL_THROTTLE (R688): A sensor at 100 °C lowers the island a point every 10 µs. -/
  | thermalThrottle (island : Nat)
  /-- THERMAL_TRIP (R689): A sensor at 115 °C asserts THERMTRIP_N and stops island clocks. -/
  | thermalTrip (island : Nat)
  /-- CURRENT_LIMITER_ENGAGE (R690): A VDD_K droop halves cluster clocks. -/
  | currentLimiterEngage
  /-- CURRENT_LIMITER_RELEASE (R690): Voltage back within 2 % for 5 µs restores clocks. -/
  | currentLimiterRelease
  /-- FALLBACK_GOVERNOR_TAKEOVER (R692): No operating point written for 5 ms hands control to the fallback governor. -/
  | fallbackGovernorTakeover
  /-- FALLBACK_GOVERNOR_TICK (R692): Every 100 µs the fallback governor steps all clusters against the cap. -/
  | fallbackGovernorTick (milliwatts : Nat)
  /-- DIODE_READ (R691): Every 10 ms reads the thermal diode and calibrates or flags a fault. -/
  | diodeRead (millivolts temp : Nat)
  /-- THROTTLE_N (R722): THROTTLE_N assertion holds every cluster at P5 until release. -/
  | throttleN (asserted : Bool)
  /-- STANDBY_ENTRY (R697): The package enters standby when all PFs are in D3 and no custody client is active. -/
  | standbyEntry
  /-- INPUT_CHANGE (R720): A conditioned input's filtered level changes and is recorded at most once per 10 µs. -/
  | inputChange (input : Nat) (active : Bool)
  /-- INPUT_RATE_REREAD (R720): At the end of the 10 µs window the filtered level is re-read. -/
  | inputRateReread (input : Nat) (active : Bool)
  /-- INPUT_STUCK (R721): An input active for more than 10 s is declared stuck. -/
  | inputStuck (input : Nat)
  /-- INPUT_UNSTUCK (R721): A stuck input inactive for 1 s is released. -/
  | inputUnstuck (input : Nat)
  /-- TAMPER_N (R607): TAMPER_N assertion raises the TAMPER alarm. -/
  | tamperN (asserted : Bool)
  /-- PAD_CONTENTION (R723): A pin's read-back differs from its driven level for 10 µs and is counted. -/
  | padContention (group : Nat)
  /-- PWR_OK_FALL (R705): PWR_OK falling puts every pin in its reset state. -/
  | pwrOkFall
  /-- ICP_RING_ENABLE (R58): Writing 1 to ICP_RING_CFG.ENABLE starts fetching from the function's command ring. -/
  | icpRingEnable (fn : Nat)
  /-- UNDEFINED_ENCODING (R205): Issuing an undefined encoding, such as halfword 0x0000, faults the item with ILLEGAL. -/
  | undefinedEncoding (th : Nat) (word : BitVec 32)
  /-- FETCH_FAULT (R200): Fetching an instruction outside W0, including running off the end of the code or a branch target outside W0, faults with WINDOW. -/
  | fetchFault (th : Nat)
  /-- JOURNAL_SSD_FAILED (R463): A journal SSD fails; the part continues on the other copy, or write-protects the namespace when both have failed. -/
  | journalSsdFailed (ssd : Nat)
  /-- JOURNAL_SSD_RETURN (R463): A failed journal SSD returns; the part rebuilds its journal region empty and takes writes again. -/
  | journalSsdReturn (ssd : Nat)
  /-- REFERENCE_CLOCK_LOST (R623): Loss of REFCLK_SYS while running records FAT REFERENCE_CLOCK_LOST and freezes the part. -/
  | referenceClockLost (island : Nat)
  /-- RAIL_OUT_OF_RANGE (R623): A supply rail leaving its range records FAT RAIL_OUT_OF_RANGE in the power and thermal block. -/
  | railOutOfRange (rail millivolts : Nat)
  /-- STEWARD_CORE_FAILED (R45): A steward core fails and its spare is switched in, or FAT STEWARD_LOST is recorded when no steward core remains. -/
  | stewardCoreFailed (core : Nat)
  /-- FAULT_N_MINIMUM_HOLD_EXPIRY (R631): FAULT_N is released when its 1 ms minimum assertion ends after the last CON or FAT has already been cleared. -/
  | faultNMinimumHoldExpiry
  /-- INTERRUPT_COALESCING_EXPIRY (R445): An NVMe interrupt coalescing aggregation time runs out and the pending interrupt is sent. -/
  | interruptCoalescingExpiry (fn vector : Nat)
  /-- ROCEV2_CNP (R569): An inbound RoCEv2 CNP halves the connection's cwnd, at most once per RTT. -/
  | rocev2Cnp (conn : Nat)
  /-- LIVE_ACTIVATION_RESUME (R675): The new firmware runs, fetching resumes at each CMD_HEAD, PAUSED clears, and the final reply is posted. -/
  | liveActivationResume
  /-- FLR_COMPLETE (R404): At event 5 the FLR completes and configuration requests are served normally instead of with CRS. -/
  | flrComplete (fn : Nat)
  /-- DIAG_RUN_END (R81): A running diagnostic finishes, its state becomes passed or failed, and a new DIAG_RUN is allowed. -/
  | diagRunEnd (outcomes : List (Nat × Bool × Nat))
  /-- HARDWARE_THROTTLE_STEP (R688): Every 10 µs while a sensor is hot, hardware lowers the island one more operating point, stopping once every sensor is below 98 °C. -/
  | hardwareThrottleStep (island : Nat) (below98 : Bool)
  /-- INPUT_GLITCH (R720): A pulse on a conditioned input shorter than 1 µs is rejected and counted in GL_INPUT_GLITCH. -/
  | inputGlitch (input : Nat)
  deriving DecidableEq, Repr

end Sys2Proof
end

