-- ==== Sys2Proof/Decode.lean ====
section
/-! DEFINITION. The command that a word of the opcode table's bits spells (no row of the table gives bits, so no word spells one), and the Lendel
instruction that code bytes spell, as the formats and code tables of R203 to R209 have them. A field that no rule of chapter 5 gives a use or marks
zero is not read (log 177). The decoders that name a constructor beyond the runtime's limit of constructor tags are noncomputable; the kernel
evaluates them. -/

namespace Sys2Proof

/-! ### Fields of a word -/

def fld (w lo n : Nat) : Nat := w / 2 ^ lo % 2 ^ n
def fldBit (w b : Nat) : Bool := fld w b 1 == 1
/-- A register field of 5, 4 or 3 bits. -/
def reg5 (w lo : Nat) : Fin 32 := ⟨w / 2 ^ lo % 32, Nat.mod_lt _ (by decide)⟩
def reg4 (w lo : Nat) : Fin 16 := ⟨w / 2 ^ lo % 16, Nat.mod_lt _ (by decide)⟩
def reg3 (w lo : Nat) : Fin 8 := ⟨w / 2 ^ lo % 8, Nat.mod_lt _ (by decide)⟩
/-- A mask register in a 5-bit field, whose upper two bits are zero (R208). -/
def maskFits (w lo : Nat) : Bool := fld w (lo + 3) 2 == 0
/-- An encoding is undefined where a field marked zero is not (R205). -/
def whenZero (ok : Bool) (i : Instr) : Option Instr := if ok then some i else none

/-! ### Short forms (R206, R207) -/

def decodeShort (th : Nat) (io : MemIo) (h : Nat) : Option Instr :=
  let rd := reg5 h 11
  let rs := reg5 h 6
  let imm := BitVec.ofNat 6 (fld h 5 6)
  let hr := fld h 5 1 == 0
  let rp := reg3 h 13
  let rb := reg3 h 10
  let off5 := BitVec.ofNat 5 (fld h 5 5)
  let off8 := BitVec.ofNat 8 (fld h 5 8)
  if h = 0 then none
  else match fld h 1 4 with
    | 0x0 => whenZero hr (.qMv th rd rs)
    | 0x1 => whenZero hr (.qAdd th rd rs)
    | 0x2 => whenZero hr (.qSub th rd rs)
    | 0x3 => some (.qLdk th rd imm)
    | 0x4 => some (.qAddk th rd imm)
    | 0x5 => some (.qShlk th rd imm)
    | 0x6 => some (.qLdD th rp rb off5 io)
    | 0x7 => some (.qStD th rp rb off5 io)
    | 0x8 => some (.qLdW th rp rb off5 io)
    | 0x9 => some (.qStW th rp rb off5 io)
    | 0xA => some (.qBeqz th rp off8)
    | 0xB => some (.qBnez th rp off8)
    | 0xC => some (.qJmp th (BitVec.ofNat 11 (fld h 5 11)))
    | 0xD => whenZero (hr && fld h 11 5 == 0) (.qJr th rs)
    | 0xE => whenZero (fld h 5 11 == 0) (.qHalt th)
    | _ => whenZero (fld h 5 11 == 0) (.qNop th)

/-! ### Which long words are defined (R205, R209) -/

/-- The table of R209: each major opcode with the place and the width of its function field, and the codes listed. -/
def majors : List (Nat × Nat × Nat × List Nat) :=
  [(0x00, 7, 5, List.range 14), (0x01, 7, 3, List.range 8), (0x02, 0, 0, [0]), (0x03, 7, 3, List.range 7), (0x04, 7, 3, List.range 4),
   (0x05, 7, 3, List.range 6), (0x06, 7, 3, [0, 1, 4, 5]), (0x07, 0, 0, [0]), (0x08, 7, 3, [0]), (0x09, 7, 3, [0, 1, 2, 4]),
   (0x0A, 7, 5, List.range 14), (0x0B, 7, 5, List.range 7), (0x0C, 0, 0, [0]), (0x10, 27, 5, List.range 22), (0x11, 28, 4, List.range 10),
   (0x12, 27, 5, List.range 6), (0x13, 23, 3, List.range 4), (0x15, 27, 5, List.range 3), (0x17, 7, 5, List.range 8),
   (0x18, 28, 4, List.range 3), (0x20, 30, 2, List.range 4), (0x21, 30, 2, List.range 2)]

/-- Every field that the formats or the instruction mark zero is zero (R208 to R210, R237). -/
def zerosHold (w : Nat) : Bool :=
  match fld w 1 6 with
  | 0x00 => fld w 12 5 == 0
  | 0x01 => if fld w 7 3 = 6 then fld w 16 6 == 0 else if fld w 7 3 = 7 then fld w 16 6 == 0 || fld w 16 6 == 16 else true
  | 0x06 => decide (fld w 7 3 < 2) || maskFits w 27
  | 0x0A => fld w 12 2 == 0
  | 0x0B => fld w 12 5 == 0
  | 0x10 => if fld w 27 5 = 16 ∨ fld w 27 5 = 17 then fld w 15 4 == 0 else true
  | 0x11 => if fld w 28 4 = 6 then fld w 11 4 == 0 else true
  | 0x12 => !fldBit w 10
  | 0x15 => !fldBit w 18
  | 0x17 => fld w 12 5 == 0 && (if fld w 7 5 < 4 then maskFits w 27 && maskFits w 22 && maskFits w 17
                               else if fld w 7 5 = 6 then maskFits w 27 else maskFits w 22)
  | 0x18 => fld w 11 3 == 0 && (if fld w 28 4 = 2 then fld w 19 6 == 0 else true)
  | 0x20 => if fld w 30 2 = 3 then fld w 18 4 == 0 else fld w 17 5 == 0
  | _ => true

/-- A long word whose encoding is defined. -/
def longDefined (w : Nat) : Bool :=
  w % 2 == 1 && majors.any (fun r => r.1 == fld w 1 6 && r.2.2.2.contains (fld w r.2.1 r.2.2.1)) && zerosHold w

/-! ### Long forms, group by group (R208, R209), of a word that is defined -/

/-- OP: format RR, funct5. -/
def decodeOp (th w : Nat) : Option Instr :=
  let rd := reg5 w 27
  let a := reg5 w 22
  let b := reg5 w 17
  match fld w 7 5 with
  | 0 => some (.add th rd a b)
  | 1 => some (.sub th rd a b)
  | 2 => some (.and th rd a b)
  | 3 => some (.or th rd a b)
  | 4 => some (.xor th rd a b)
  | 5 => some (.shl th rd a b)
  | 6 => some (.shr th rd a b)
  | 7 => some (.sar th rd a b)
  | 8 => some (.setlt th rd a b)
  | 9 => some (.setltu th rd a b)
  | 10 => some (.min th rd a b)
  | 11 => some (.max th rd a b)
  | 12 => some (.minu th rd a b)
  | 13 => some (.maxu th rd a b)
  | _ => none

/-- MULDIV: format RR, funct5. -/
noncomputable def decodeMul (th w : Nat) : Option Instr :=
  let rd := reg5 w 27
  let a := reg5 w 22
  let b := reg5 w 17
  match fld w 7 5 with
  | 0 => some (.mul th rd a b)
  | 1 => some (.mulhs th rd a b)
  | 2 => some (.mulhu th rd a b)
  | 3 => some (.divs th rd a b)
  | 4 => some (.divu th rd a b)
  | 5 => some (.rems th rd a b)
  | 6 => some (.remu th rd a b)
  | _ => none

/-- OPK: format RK, funct3; a shift has its amount in imm[5:0], and imm[10] tells sark from shrk. -/
def decodeOpk (th w : Nat) : Option Instr :=
  let rd := reg5 w 27
  let a := reg5 w 22
  let imm := BitVec.ofNat 12 (fld w 10 12)
  let sh := BitVec.ofNat 6 (fld w 10 6)
  match fld w 7 3 with
  | 0 => some (.addk th rd a imm)
  | 1 => some (.andk th rd a imm)
  | 2 => some (.ork th rd a imm)
  | 3 => some (.xork th rd a imm)
  | 4 => some (.setltk th rd a imm)
  | 5 => some (.setltuk th rd a imm)
  | 6 => some (.shlk th rd a sh)
  | _ => if fldBit w 20 then some (.sark th rd a sh) else some (.shrk th rd a sh)

/-- LOAD and STORE: formats RK and ST, funct3. -/
def decodeLoad (th : Nat) (io : MemIo) (w : Nat) : Option Instr :=
  let rd := reg5 w 27
  let a := reg5 w 22
  let imm := BitVec.ofNat 12 (fld w 10 12)
  match fld w 7 3 with
  | 0 => some (.ldB th rd a imm io)
  | 1 => some (.ldH th rd a imm io)
  | 2 => some (.ldW th rd a imm io)
  | 3 => some (.ldD th rd a imm io)
  | 4 => some (.ldBu th rd a imm io)
  | 5 => some (.ldHu th rd a imm io)
  | 6 => some (.ldWu th rd a imm io)
  | _ => none
def decodeStore (th : Nat) (io : MemIo) (w : Nat) : Option Instr :=
  let b := reg5 w 27
  let a := reg5 w 22
  let imm := BitVec.ofNat 12 (fld w 10 12)
  match fld w 7 3 with
  | 0 => some (.stB th b a imm io)
  | 1 => some (.stH th b a imm io)
  | 2 => some (.stW th b a imm io)
  | 3 => some (.stD th b a imm io)
  | _ => none

/-- BRANCH and BRZ: formats BR and BZ, funct3. -/
def decodeBranch (th w : Nat) : Option Instr :=
  let a := reg5 w 27
  let b := reg5 w 22
  let off := BitVec.ofNat 12 (fld w 10 12)
  match fld w 7 3 with
  | 0 => some (.beq th a b off)
  | 1 => some (.bne th a b off)
  | 2 => some (.blt th a b off)
  | 3 => some (.bge th a b off)
  | 4 => some (.bltu th a b off)
  | 5 => some (.bgeu th a b off)
  | _ => none
def decodeBrz (th w : Nat) : Option Instr :=
  let off := BitVec.ofNat 17 (fld w 10 17)
  match fld w 7 3 with
  | 0 => some (.beqz th (reg5 w 27) off)
  | 1 => some (.bnez th (reg5 w 27) off)
  | 4 => some (.bany th (reg3 w 27) off)
  | 5 => some (.bnone th (reg3 w 27) off)
  | _ => none

/-- SYS: format RK, funct3. -/
def decodeSys (th w : Nat) : Option Instr :=
  let imm := BitVec.ofNat 12 (fld w 10 12)
  match fld w 7 3 with
  | 0 => some (.halt th)
  | 1 => some (.fence th imm)
  | 2 => some (.rdsr th (reg5 w 27) imm)
  | 4 => some (.rpt th (reg5 w 22) imm)
  | _ => none

/-- ATOM: format RR, funct5; ext[4] acquire, ext[3] release, ext[2] 64-bit width, ext[1:0] zero. -/
noncomputable def decodeAtom (th : Nat) (io : MemIo) (w : Nat) : Option Instr :=
  let rd := reg5 w 27
  let a := reg5 w 22
  let b := reg5 w 17
  let q := fldBit w 16
  let l := fldBit w 15
  let d := fldBit w 14
  match fld w 7 5 with
  | 0 => some (.aadd th rd a b q l d io)
  | 1 => some (.amin th rd a b q l d io)
  | 2 => some (.amax th rd a b q l d io)
  | 3 => some (.aminu th rd a b q l d io)
  | 4 => some (.amaxu th rd a b q l d io)
  | 5 => some (.aand th rd a b q l d io)
  | 6 => some (.aor th rd a b q l d io)
  | 7 => some (.axor th rd a b q l d io)
  | 8 => some (.aswap th rd a b q l d io)
  | 9 => some (.acas th rd a b q l d io)
  | 10 => some (.afadd th rd a b q l d io)
  | 11 => some (.afmin th rd a b q l d io)
  | 12 => some (.afmax th rd a b q l d io)
  | 13 => some (.abfadd2 th rd a b q l d io)
  | _ => none

/-- VOP: format V, funct5. -/
noncomputable def decodeVop (th w : Nat) : Option Instr :=
  let ty := reg3 w 24
  let rnd := fldBit w 23
  let zm := fldBit w 22
  let m := reg3 w 19
  let b := reg4 w 15
  let a := reg4 w 11
  let d := reg4 w 7
  match fld w 27 5 with
  | 0 => some (.vadd th ty rnd zm m b a d)
  | 1 => some (.vsub th ty rnd zm m b a d)
  | 2 => some (.vmul th ty rnd zm m b a d)
  | 3 => some (.vfma th ty rnd zm m b a d)
  | 4 => some (.vmin th ty rnd zm m b a d)
  | 5 => some (.vmax th ty rnd zm m b a d)
  | 6 => some (.vminu th ty rnd zm m b a d)
  | 7 => some (.vmaxu th ty rnd zm m b a d)
  | 8 => some (.vand th ty rnd zm m b a d)
  | 9 => some (.vor th ty rnd zm m b a d)
  | 10 => some (.vxor th ty rnd zm m b a d)
  | 11 => some (.vsll th ty rnd zm m b a d)
  | 12 => some (.vsrl th ty rnd zm m b a d)
  | 13 => some (.vsra th ty rnd zm m b a d)
  | 14 => some (.vdiv th ty rnd zm m b a d)
  | 15 => some (.vsqrt th ty rnd zm m a d)
  | 16 => some (.vabs th ty rnd zm m a d)
  | 17 => some (.vneg th ty rnd zm m a d)
  | 18 => some (.vredsum th ty rnd zm m a d)
  | 19 => some (.vredmax th ty rnd zm m a d)
  | 20 => some (.vredmin th ty rnd zm m a d)
  | 21 => some (.vsel th ty rnd zm m b a d)
  | _ => none

/-- VOPS: format VS, funct4. -/
noncomputable def decodeVops (th w : Nat) : Option Instr :=
  let ty := reg3 w 25
  let rnd := fldBit w 24
  let zm := fldBit w 23
  let m := reg3 w 20
  let r := reg5 w 15
  let a := reg4 w 11
  let d := reg4 w 7
  match fld w 28 4 with
  | 0 => some (.vaddS th ty rnd zm m r a d)
  | 1 => some (.vsubS th ty rnd zm m r a d)
  | 2 => some (.vmulS th ty rnd zm m r a d)
  | 3 => some (.vfmaS th ty rnd zm m r a d)
  | 4 => some (.vminS th ty rnd zm m r a d)
  | 5 => some (.vmaxS th ty rnd zm m r a d)
  | 6 => some (.vbcast th ty rnd zm m r d)
  | 7 => some (.vsllS th ty rnd zm m r a d)
  | 8 => some (.vsrlS th ty rnd zm m r a d)
  | 9 => some (.vsraS th ty rnd zm m r a d)
  | _ => none

/-- VCMP: format V, funct5; md in [9:7] with [10] zero. -/
noncomputable def decodeVcmp (th w : Nat) : Option Instr :=
  let ty := reg3 w 24
  let rnd := fldBit w 23
  let zm := fldBit w 22
  let m := reg3 w 19
  let b := reg4 w 15
  let a := reg4 w 11
  let d := reg3 w 7
  match fld w 27 5 with
  | 0 => some (.veq th ty rnd zm m b a d)
  | 1 => some (.vne th ty rnd zm m b a d)
  | 2 => some (.vlt th ty rnd zm m b a d)
  | 3 => some (.vle th ty rnd zm m b a d)
  | 4 => some (.vltu th ty rnd zm m b a d)
  | 5 => some (.vleu th ty rnd zm m b a d)
  | _ => none

/-- VMEM: format VM, funct3. -/
noncomputable def decodeVmem (th : Nat) (io : MemIo) (w : Nat) : Option Instr :=
  let off := BitVec.ofNat 6 (fld w 26 6)
  let ty := reg3 w 20
  let m := reg3 w 17
  let r := reg5 w 12
  let zm := fldBit w 11
  let d := reg4 w 7
  match fld w 23 3 with
  | 0 => some (.vld th ty off m zm r d io)
  | 1 => some (.vst th ty off m zm r d io)
  | 2 => some (.vldb th ty off m zm r d io)
  | 3 => some (.vaadd th ty off m zm r d io)
  | _ => none

/-- VCVT: format V, funct5; the source type in vs2[17:15] with vs2[18] zero (R237). -/
noncomputable def decodeVcvt (th w : Nat) : Option Instr :=
  let ty := reg3 w 24
  let rnd := fldBit w 23
  let zm := fldBit w 22
  let m := reg3 w 19
  let src := reg3 w 15
  let a := reg4 w 11
  let d := reg4 w 7
  match fld w 27 5 with
  | 0 => some (.vcvt th ty rnd zm m src a d)
  | 1 => some (.vmxpk th ty rnd zm m src a d)
  | 2 => some (.vmxunpk th ty rnd zm m src a d)
  | _ => none

/-- MASK: format RR, funct5. -/
noncomputable def decodeMask (th w : Nat) : Option Instr :=
  let md := reg3 w 27
  let ma := reg3 w 22
  let mb := reg3 w 17
  match fld w 7 5 with
  | 0 => some (.mand th md ma mb)
  | 1 => some (.mor th md ma mb)
  | 2 => some (.mxor th md ma mb)
  | 3 => some (.mandn th md ma mb)
  | 4 => some (.mpop th (reg5 w 27) ma)
  | 5 => some (.mfirst th (reg5 w 27) ma)
  | 6 => some (.mfroms th md (reg5 w 22))
  | 7 => some (.mtos th (reg5 w 27) ma)
  | _ => none

/-- VX: funct4. -/
noncomputable def decodeVx (th w : Nat) : Option Instr :=
  let ty := reg3 w 25
  let lane : Fin 64 := ⟨w / 2 ^ 19 % 64, Nat.mod_lt _ (by decide)⟩
  let sr := reg5 w 14
  let vr := reg4 w 7
  match fld w 28 4 with
  | 0 => some (.vext th ty lane sr vr)
  | 1 => some (.vins th ty lane sr vr)
  | 2 => some (.vidx th ty vr)
  | _ => none

/-- STR and GATH: format STR. -/
noncomputable def decodeStr (th : Nat) (io : MemIo) (w : Nat) : Option Instr :=
  let size := reg3 w 27
  let rc := reg5 w 22
  let r1 := reg5 w 12
  let r0 := reg5 w 7
  match fld w 30 2 with
  | 0 => some (.movs th size rc r1 r0 io)
  | 1 => some (.fills th size rc r1 r0 io)
  | 2 => some (.cmps th size rc r1 r0 io)
  | _ => some (.scans th size rc (fldBit w 17) r1 r0 io)
noncomputable def decodeGath (th : Nat) (io : MemIo) (w : Nat) : Option Instr :=
  some (.gath th (fldBit w 30) (reg3 w 27) (reg5 w 22) (reg5 w 17) (reg5 w 12) (reg5 w 7) io)

/-- A long form: the major opcode in [6:1] names its group. -/
noncomputable def decodeLong (th : Nat) (io : MemIo) (w : Nat) : Option Instr :=
  let rd := reg5 w 27
  let imm20 := BitVec.ofNat 20 (fld w 7 20)
  if !longDefined w then none
  else match fld w 1 6 with
  | 0x00 => decodeOp th w
  | 0x01 => decodeOpk th w
  | 0x02 => some (.ldi th rd imm20)
  | 0x03 => decodeLoad th io w
  | 0x04 => decodeStore th io w
  | 0x05 => decodeBranch th w
  | 0x06 => decodeBrz th w
  | 0x07 => some (.call th rd imm20)
  | 0x08 => some (.callr th rd (reg5 w 22) (BitVec.ofNat 12 (fld w 10 12)))
  | 0x09 => decodeSys th w
  | 0x0A => decodeAtom th io w
  | 0x0B => decodeMul th w
  | 0x0C => some (.ldis th rd imm20)
  | 0x10 => decodeVop th w
  | 0x11 => decodeVops th w
  | 0x12 => decodeVcmp th w
  | 0x13 => decodeVmem th io w
  | 0x15 => decodeVcvt th w
  | 0x17 => decodeMask th w
  | 0x18 => decodeVx th w
  | 0x20 => decodeStr th io w
  | 0x21 => decodeGath th io w
  | _ => none

/-- Bytes of the form that a first halfword begins: bit 0 is 0 for a short form, 1 for a long one (R203). -/
def formBytes (h : Nat) : Nat := if h % 2 = 0 then 2 else 4

/-- The encoding that a word begins with is defined. -/
def encodingDefined (w : Nat) : Bool := if w % 2 = 0 then (decodeShort 0 {} (w % 65536)).isSome else longDefined (w % 2 ^ 32)

/-- The instruction that code bytes spell at their start, halfwords little-endian and the first one lowest (R203); none where the encoding is
undefined (R205). -/
noncomputable def decodeCode (th : Nat) (io : MemIo) (code : List (BitVec 8)) : Option Instr :=
  match code with
  | a :: b :: rest =>
    let h := a.toNat + 256 * b.toNat
    if h % 2 = 0 then decodeShort th io h
    else (match rest with
      | c :: d :: _ => decodeLong th io (h + 65536 * (c.toNat + 256 * d.toNat))
      | _ => none)
  | _ => none

/-! ### The opcode table -/

/-- The rows of the table that give bits: the constructor of a row, its width, mask and pattern. The table gives none. -/
def tableWords : List (Nat × Nat × Nat × Instr) := []

/-- The command that a word of `nbits` bits spells by the table. -/
def decodeTableWord (nbits w : Nat) : Option Instr :=
  (tableWords.find? (fun r => decide (r.1 = nbits ∧ w &&& r.2.1 = r.2.2.1))).map (·.2.2.2)

end Sys2Proof
end

