-- ==== Sys2Proof/Machine/Bytes.lean ====
section
/-! DEFINITION. Helpers over plain data: byte order, clamping, association lists, check lists and the checksums the rules compute. -/

namespace Sys2Proof.Machine

/-- Little-endian value of a run of bytes (R9, R11). -/
def leVal : Bytes → Nat
  | [] => 0
  | b :: r => b.toNat + 256 * leVal r

/-- The field of `n` bytes at an offset of a structure; bytes beyond its end read 0. -/
def le (bs : Bytes) (off n : Nat) : Nat := leVal ((bs.drop off).take n)

/-- A value as `n` bytes, low-order byte first. -/
def leBytes : Nat → Nat → Bytes
  | 0, _ => []
  | n + 1, v => BitVec.ofNat 8 v :: leBytes n (v / 256)

/-- Big-endian forms, for the wire headers of R10. -/
def beVal (bs : Bytes) : Nat := leVal bs.reverse
def be (bs : Bytes) (off n : Nat) : Nat := beVal ((bs.drop off).take n)

/-- A structure with the bytes at an offset replaced, grown with zeros where it is shorter. -/
def setBytes (bs : Bytes) (off : Nat) (v : Bytes) : Bytes :=
  (bs ++ List.replicate (off - bs.length) 0).take off ++ v ++ bs.drop (off + v.length)

/-- A structure with one little-endian field set. -/
def setLe (bs : Bytes) (off n v : Nat) : Bytes := setBytes bs off (leBytes n v)

/-- A zeroed structure of a given size with the listed fields (offset, bytes, value) set. -/
def layout (size : Nat) (fields : List (Nat × Nat × Nat)) : Bytes :=
  fields.foldl (fun b f => setLe b f.1 f.2.1 f.2.2) (List.replicate size 0)

/-- The parameter block padded or cut to its size, with the listed fields set to their values in effect (R74). -/
def echo (size : Nat) (p : Bytes) (fields : List (Nat × Nat × Nat)) : Bytes :=
  fields.foldl (fun b f => setLe b f.1 f.2.1 f.2.2) ((p ++ List.replicate size 0).take size)

/-- A quantity forced into its range; an empty range gives its lower bound (R34, R35). -/
def clampN (lo hi v : Nat) : Nat := max lo (min hi v)

/-- The least multiple of `m` at or above a value. -/
def roundUp (m v : Nat) : Nat := if m = 0 then v else (v + m - 1) / m * m

/-- The quotient rounded up. -/
def ceilDiv (a b : Nat) : Nat := if b = 0 then 0 else (a + b - 1) / b

/-- The least power of two at or above a value, looked for below 2 ^ fuel. -/
def pow2Up (fuel v : Nat) : Nat :=
  match (List.range (fuel + 1)).find? (fun k => decide (v ≤ 2 ^ k)) with
  | some k => 2 ^ k
  | none => 2 ^ fuel

/-- The number of one bits among the low `w` bits. -/
def popCount (w v : Nat) : Nat := ((List.range w).filter (fun i => v.testBit i)).length

/-- Bits `lo` up to `lo + w - 1` of a value. -/
def bits (v lo w : Nat) : Nat := (v / 2 ^ lo) % 2 ^ w

def bit (b : Bool) : Nat := if b then 1 else 0

/-- A saturating sum. -/
def satAdd (cap a b : Nat) : Nat := min cap (a + b)

section Assoc
variable {κ α : Type} [DecidableEq κ]

/-- The entry of a key. -/
def look : List (κ × α) → κ → Option α
  | [], _ => none
  | (k, v) :: r, q => if k = q then some v else look r q

/-- The entry of a key, or a default where none is listed. -/
def lookD (l : List (κ × α)) (q : κ) (d : α) : α := (look l q).getD d

/-- The list with the entry of a key replaced, or added at the end. -/
def put : List (κ × α) → κ → α → List (κ × α)
  | [], q, v => [(q, v)]
  | (k, w) :: r, q, v => if k = q then (q, v) :: r else (k, w) :: put r q v

/-- The list without a key. -/
def del (l : List (κ × α)) (q : κ) : List (κ × α) := l.filter (fun e => decide (e.1 ≠ q))

def has (l : List (κ × α)) (q : κ) : Bool := (look l q).isSome

end Assoc

/-- The list with its first element that passes a test changed. -/
def updFirst {α : Type} (p : α → Bool) (f : α → α) : List α → List α
  | [] => []
  | x :: r => if p x then f x :: r else x :: updFirst p f r

/-- The list without its first element that passes a test. -/
def dropFirst {α : Type} (p : α → Bool) : List α → List α
  | [] => []
  | x :: r => if p x then r else x :: dropFirst p r

/-- Every element that passes a test changed. -/
def updAll {α : Type} (p : α → Bool) (f : α → α) (l : List α) : List α := l.map (fun x => if p x then f x else x)

/-- The last `n` elements. -/
def lastN {α : Type} (n : Nat) (l : List α) : List α := l.drop (l.length - n)

/-- An element goes before the first that it may stand before. -/
def insertBy {α : Type} (le : α → α → Bool) (x : α) : List α → List α
  | [] => [x]
  | y :: r => if le x y then x :: y :: r else y :: insertBy le x r

/-- A list in order, elements that may stand either way keeping theirs. -/
def sortBy {α : Type} (le : α → α → Bool) : List α → List α
  | [] => []
  | x :: r => insertBy le x (sortBy le r)

/-- The status and detail of the first check that fails: (it fails, status, detail). -/
def firstBad : List (Bool × Nat × Nat) → Option (Nat × Nat)
  | [] => none
  | (b, st, d) :: r => if b then some (st, d) else firstBad r

/-- The first number from one on that passes a test, with a bound on the numbers tried. -/
def lowestFrom (p : Nat → Bool) : Nat → Nat → Option Nat
  | 0, _ => none
  | n + 1, k => if p k then some k else lowestFrom p n (k + 1)

/-- The lowest number below a bound that passes a test. -/
def lowest (n : Nat) (p : Nat → Bool) : Option Nat := lowestFrom p n 0

/-- One bit of CRC-32C, reflected form of the polynomial 0x1EDC_6F41 (R117). -/
def crcBit (c : BitVec 32) : BitVec 32 := if c.getLsbD 0 then (c >>> 1) ^^^ 0x82F63B78#32 else c >>> 1

def crcByte (c : BitVec 32) (b : Byte) : BitVec 32 :=
  let x := c ^^^ b.setWidth 32
  crcBit (crcBit (crcBit (crcBit (crcBit (crcBit (crcBit (crcBit x)))))))

/-- CRC-32C with initial value and final XOR of all ones (R117). -/
def crc32c (bs : Bytes) : BitVec 32 := (bs.foldl crcByte 0xFFFFFFFF#32) ^^^ 0xFFFFFFFF#32

/-- splitmix64: the next state and the output (R247). -/
def splitmix (x : BitVec 64) : BitVec 64 :=
  let z := x + 0x9E3779B97F4A7C15#64
  let z := (z ^^^ (z >>> 30)) * 0xBF58476D1CE4E5B9#64
  let z := (z ^^^ (z >>> 27)) * 0x94D049BB133111EB#64
  z ^^^ (z >>> 31)

end Sys2Proof.Machine
end

