-- ==== Sys2Proof/Machine/Float.lean ====
section
/-! DEFINITION. Number formats: exact decoding, rounding to nearest even and stochastic rounding (R241), arithmetic with one rounding (R235, R236), integer and Microscaling conversions (R238 to R240), and the element formats of table rows (R252, R253). -/

namespace Sys2Proof.Machine

open Sys2Proof

/-- The value a floating-point pattern stands for: a NaN, an infinity, or ± m × 2^e. -/
inductive FV where
  | nan
  | inf (neg : Bool)
  | fin (neg : Bool) (m : Nat) (e : Int)
  deriving DecidableEq, Repr

/-- A floating-point format: width, exponent and mantissa bits and bias; whether its top exponent holds infinities and NaNs (IEEE),
only one NaN pattern (E4M3), or nothing special; and whether a finite overflow saturates. -/
structure Fmt where
  w : Nat
  eb : Nat
  mb : Nat
  bias : Nat
  ieee : Bool
  oneNan : Bool
  sat : Bool
  canon : Nat
  deriving DecidableEq, Repr

def fp32 : Fmt := { w := 32, eb := 8, mb := 23, bias := 127, ieee := true, oneNan := false, sat := false, canon := 0x7FC00000 }
def bf16 : Fmt := { w := 16, eb := 8, mb := 7, bias := 127, ieee := true, oneNan := false, sat := false, canon := 0x7FC0 }
def fp16 : Fmt := { w := 16, eb := 5, mb := 10, bias := 15, ieee := true, oneNan := false, sat := false, canon := 0x7E00 }
def e4m3 : Fmt := { w := 8, eb := 4, mb := 3, bias := 7, ieee := false, oneNan := true, sat := true, canon := 0x7F }
def e5m2 : Fmt := { w := 8, eb := 5, mb := 2, bias := 15, ieee := true, oneNan := false, sat := true, canon := 0x7E }
def e3m2 : Fmt := { w := 6, eb := 3, mb := 2, bias := 3, ieee := false, oneNan := false, sat := true, canon := 0 }
def e2m3 : Fmt := { w := 6, eb := 2, mb := 3, bias := 1, ieee := false, oneNan := false, sat := true, canon := 0 }
def e2m1 : Fmt := { w := 4, eb := 2, mb := 1, bias := 1, ieee := false, oneNan := false, sat := true, canon := 0 }

/-- Code (without sign) of the greatest finite magnitude of a format. -/
def Fmt.maxCode (f : Fmt) : Nat :=
  if f.ieee then (2 ^ f.eb - 1) * 2 ^ f.mb - 1 else if f.oneNan then 2 ^ (f.eb + f.mb) - 2 else 2 ^ (f.eb + f.mb) - 1

/-- The pattern of a sign and a code without sign. -/
def Fmt.withSign (f : Fmt) (neg : Bool) (code : Nat) : Nat := bit neg * 2 ^ (f.w - 1) + code

/-- The value of a pattern. -/
def decF (f : Fmt) (v : Nat) : FV :=
  let neg := v.testBit (f.w - 1)
  let ex := bits v f.mb f.eb
  let mant := bits v 0 f.mb
  if f.ieee && ex == 2 ^ f.eb - 1 then (if mant = 0 then .inf neg else .nan)
  else if f.oneNan && ex == 2 ^ f.eb - 1 && mant == 2 ^ f.mb - 1 then .nan
  else if ex = 0 then .fin neg mant (1 - (f.bias : Int) - f.mb)
  else .fin neg (2 ^ f.mb + mant) ((ex : Int) - f.bias - f.mb)

/-- Rounds a quotient `m / 2 ^ sh` to a whole number: to nearest even, or up with the probability its fraction gives a random
16-bit value (R241). -/
def roundShift (rnd : Option Nat) (m sh : Nat) : Nat :=
  let k := m / 2 ^ sh
  let rem := m % 2 ^ sh
  match rnd with
  | none => if 2 * rem > 2 ^ sh ∨ (2 * rem = 2 ^ sh ∧ k % 2 = 1) then k + 1 else k
  | some r => if rem * 2 ^ 16 / 2 ^ sh + r % 2 ^ 16 ≥ 2 ^ 16 then k + 1 else k

/-- The pattern of a finite magnitude m × 2^e rounded once to a format. -/
def encMag (f : Fmt) (rnd : Option Nat) (neg : Bool) (m : Nat) (e : Int) : Nat :=
  if m = 0 then f.withSign neg 0
  else
    let top : Int := (Nat.log2 m : Int) + e
    let q : Int := max (1 - (f.bias : Int) - f.mb) (top - f.mb)
    let k := if q ≤ e then m * 2 ^ (e - q).toNat else roundShift rnd m (q - e).toNat
    let code := ((q + f.mb + f.bias).toNat - 1) * 2 ^ f.mb + k
    if code ≤ f.maxCode then f.withSign neg code
    else if f.sat then f.withSign neg f.maxCode
    else f.withSign neg ((2 ^ f.eb - 1) * 2 ^ f.mb)

/-- The pattern of a value rounded once to a format (R235, R236, R241). -/
def encF (f : Fmt) (rnd : Option Nat) : FV → Nat
  | .nan => f.canon
  | .inf neg => if f.ieee then f.withSign neg ((2 ^ f.eb - 1) * 2 ^ f.mb) else f.withSign neg f.maxCode
  | .fin neg m e => encMag f rnd neg m e

/-- Signed numerator of a finite value over 2^e0, for e0 at or below its exponent. -/
def FV.num (neg : Bool) (m : Nat) (e e0 : Int) : Int :=
  let x : Int := (m * 2 ^ (e - e0).toNat : Nat)
  if neg then -x else x

/-- Exact sum; a zero sum is negative only when both terms are negative zeros. -/
def FV.add : FV → FV → FV
  | .nan, _ => .nan
  | _, .nan => .nan
  | .inf a, .inf b => if a = b then .inf a else .nan
  | .inf a, _ => .inf a
  | _, .inf b => .inf b
  | .fin n1 m1 e1, .fin n2 m2 e2 =>
    let e0 := min e1 e2
    let x := FV.num n1 m1 e1 e0 + FV.num n2 m2 e2 e0
    if x = 0 then .fin (n1 && n2 && m1 == 0 && m2 == 0) 0 0
    else .fin (decide (x < 0)) x.natAbs e0

def FV.neg : FV → FV
  | .nan => .nan
  | .inf a => .inf (!a)
  | .fin n m e => .fin (!n) m e

def FV.sub (a b : FV) : FV := a.add b.neg

/-- Exact product. -/
def FV.mul : FV → FV → FV
  | .nan, _ => .nan
  | _, .nan => .nan
  | .inf a, .inf b => .inf (a != b)
  | .inf a, .fin n m _ => if m = 0 then .nan else .inf (a != n)
  | .fin n m _, .inf b => if m = 0 then .nan else .inf (n != b)
  | .fin n1 m1 e1, .fin n2 m2 e2 => .fin (n1 != n2) (m1 * m2) (e1 + e2)

/-- Quotient to at least 64 bits with a sticky bit, enough for one correct rounding. -/
def FV.div : FV → FV → FV
  | .nan, _ => .nan
  | _, .nan => .nan
  | .inf _, .inf _ => .nan
  | .inf a, .fin n _ _ => .inf (a != n)
  | .fin n _ _, .inf b => .fin (n != b) 0 0
  | .fin n1 m1 e1, .fin n2 m2 e2 =>
    if m2 = 0 then (if m1 = 0 then .nan else .inf (n1 != n2))
    else
      let sh := 66 + Nat.log2 m2
      let x := m1 * 2 ^ sh
      .fin (n1 != n2) (2 * (x / m2) + bit (decide (x % m2 ≠ 0))) (e1 - e2 - sh - 1)

/-- Integer square root, one bit of the root at a time from bit `n - 1` down. -/
def isqrtBits : Nat → Nat → Nat → Nat
  | 0, _, r => r
  | n + 1, v, r => if (r + 2 ^ n) * (r + 2 ^ n) ≤ v then isqrtBits n v (r + 2 ^ n) else isqrtBits n v r

def isqrt (v : Nat) : Nat := isqrtBits (Nat.log2 v / 2 + 1) v 0

/-- Square root to at least 64 bits with a sticky bit. -/
def FV.sqrt : FV → FV
  | .nan => .nan
  | .inf a => if a then .nan else .inf false
  | .fin n m e =>
    if m = 0 then .fin n 0 0
    else if n then .nan
    else
      let sh : Nat := if (e % 2 = 0) then 130 else 131
      let x := m * 2 ^ sh
      let r := isqrt x
      .fin false (2 * r + bit (decide (r * r ≠ x))) ((e - sh) / 2 - 1)

/-- Power with a whole exponent, exact. -/
def FV.pow : FV → Nat → FV
  | .nan, _ => .nan
  | .inf a, n => .inf (a && n % 2 == 1)
  | .fin ng m e, n => .fin (ng && n % 2 == 1) (m ^ n) (e * n)

/-- The order of two values; none where one is a NaN. -/
def FV.lt : FV → FV → Option Bool
  | .nan, _ => none
  | _, .nan => none
  | .inf a, .inf b => some (a && !b)
  | .inf a, .fin _ _ _ => some a
  | .fin _ _ _, .inf b => some (!b)
  | .fin n1 m1 e1, .fin n2 m2 e2 =>
    let e0 := min e1 e2
    some (decide (FV.num n1 m1 e1 e0 < FV.num n2 m2 e2 e0))

def FV.eq (a b : FV) : Option Bool :=
  match a.lt b, b.lt a with
  | some x, some y => some (!x && !y)
  | _, _ => none

def FV.isNan : FV → Bool
  | .nan => true
  | _ => false

def FV.isZero : FV → Bool
  | .fin _ m _ => m == 0
  | _ => false

def FV.isFin : FV → Bool
  | .fin _ _ _ => true
  | _ => false

def FV.isNeg : FV → Bool
  | .fin n _ _ => n
  | .inf n => n
  | .nan => false

def FV.abs : FV → FV
  | .nan => .nan
  | .inf _ => .inf false
  | .fin _ m e => .fin false m e

/-! ### FP32 arithmetic to nearest even, on patterns (R271) -/

def f32 (v : Nat) : FV := decF fp32 v
def r32 (v : FV) : Nat := encF fp32 none v
def fadd (a b : Nat) : Nat := r32 ((f32 a).add (f32 b))
def fsub (a b : Nat) : Nat := r32 ((f32 a).sub (f32 b))
def fmul (a b : Nat) : Nat := r32 ((f32 a).mul (f32 b))
def fdiv (a b : Nat) : Nat := r32 ((f32 a).div (f32 b))
def fsqrt (a : Nat) : Nat := r32 (f32 a).sqrt
def fpow (a n : Nat) : Nat := r32 ((f32 a).pow n)
def fone : Nat := 0x3F800000
def fzero : Nat := 0
def fnan (a : Nat) : Bool := (f32 a).isNan
def flt (a b : Nat) : Bool := (f32 a).lt (f32 b) == some true
/-- A whole number as FP32. -/
def fofNat (n : Nat) : Nat := encF fp32 none (.fin false n 0)

/-- An FP32 quantity forced into a range; a NaN takes the lower bound, an infinity is clamped (R34). -/
def fclamp (lo hi v : Nat) : Nat := if fnan v then lo else if flt v lo then lo else if flt hi v then hi else v

/-- The greater or lesser of two patterns; where an operand is a NaN, or both are zeros, no rule states which pattern results. -/
def fpick (f : Fmt) (greater : Bool) (a b : Nat) : Nat :=
  match (decF f a).lt (decF f b) with
  | none => Config.freeLane f.w a b % 2 ^ f.w
  | some l =>
    if (decF f a).isZero && (decF f b).isZero && a != b then (if Config.freeLane f.w a b % 2 = 0 then a else b)
    else if l = greater then b else a

/-! ### Integers and Microscaling (R238 to R240) -/

/-- A floating-point value rounded to an integer of `w` bits, saturated; a NaN gives 0. -/
def toInt (rnd : Option Nat) (w : Nat) : FV → Int
  | .nan => 0
  | .inf n => if n then -(2 ^ (w - 1) : Nat) else (2 ^ (w - 1) - 1 : Nat)
  | .fin n m e =>
    let k : Nat := if 0 ≤ e then m * 2 ^ e.toNat else roundShift rnd m (-e).toNat
    if n then max (-(k : Int)) (-(2 ^ (w - 1) : Nat)) else min (k : Int) (2 ^ (w - 1) - 1 : Nat)

/-- An integer as a value. -/
def FV.ofInt (x : Int) : FV := .fin (decide (x < 0)) x.natAbs 0

/-- An integer as `w` bits of two's complement. -/
def wrapInt (w : Nat) (x : Int) : Nat := (x % (2 ^ w : Nat)).toNat

/-- Element formats of Microscaling blocks by the code of R239, with their emax. -/
def mxFmt (code : Nat) : Option (Fmt × Nat) :=
  match code with
  | 0 => some (e4m3, 8)
  | 1 => some (e5m2, 15)
  | 2 => some (e3m2, 4)
  | 3 => some (e2m3, 2)
  | 4 => some (e2m1, 2)
  | _ => none

/-- Scale code of a block of values (R240): 0xFF where it holds a NaN or an infinity. -/
def mxScale (emax : Nat) (vs : List FV) : Nat :=
  if vs.any (fun v => !v.isFin) then 0xFF
  else
    let tops : List Int := vs.filterMap (fun v => match v with
      | .fin _ m e => if m = 0 then none else some ((Nat.log2 m : Int) + e)
      | _ => none)
    match tops with
    | [] => 127
    | t :: r => (max (-127) (min 127 (r.foldl max t - emax)) + 127).toNat

/-- An element of a block: its value divided by 2^X, rounded and saturated (R240). -/
def mxElem (f : Fmt) (code : Nat) (rnd : Option Nat) (v : FV) : Nat :=
  if code = 0xFF then 0
  else match v with
    | .fin n m e =>
      let x := encMag f rnd n m (e - ((code : Int) - 127))
      if x % 2 ^ (f.w - 1) > f.maxCode then f.withSign n f.maxCode else x
    | _ => 0

/-- The value of an element with its scale code. -/
def mxValue (f : Fmt) (code elem : Nat) : FV :=
  if code = 0xFF then .nan
  else match decF f elem with
    | .fin n m e => .fin n m (e + ((code : Int) - 127))
    | v => v

/-! ### Element formats of table rows (R252, R253) -/

/-- Floating-point element formats 0 to 4. -/
def elemFmt (code : Nat) : Option Fmt :=
  match code with
  | 0 => some fp32
  | 1 => some bf16
  | 2 => some fp16
  | 3 => some e4m3
  | 4 => some e5m2
  | _ => none

/-- Element and emax of the Microscaling row formats 5 to 7. -/
def rowMx (code : Nat) : Option (Fmt × Nat) :=
  match code with
  | 5 => some (e4m3, 8)
  | 6 => some (e3m2, 4)
  | 7 => some (e2m1, 2)
  | _ => none

/-- Bytes of a row of D elements (R252). -/
def rowBytesOf (fmt d : Nat) : Nat :=
  match fmt with
  | 0 => 4 * d
  | 1 => 2 * d
  | 2 => 2 * d
  | 3 => d
  | 4 => d
  | 5 => d + d / 32
  | 6 => 3 * d / 4 + d / 32
  | 7 => d / 2 + d / 32
  | 8 => d + 4
  | _ => (d + 1) / 2 + 4

/-- Element `i` of `w` bits of a packed run of bytes, from the least significant bit of the first byte up. -/
def packedGet (bs : Bytes) (w i : Nat) : Nat := bits (le bs (w * i / 8) 2) (w * i % 8) w

/-- A run of `w`-bit elements packed into bytes. -/
def packBits (w : Nat) (es : List Nat) : Bytes :=
  leBytes ((w * es.length + 7) / 8) (es.foldr (fun e a => e % 2 ^ w + 2 ^ w * a) 0)

/-- Signed value of a 4-bit or 8-bit code. -/
def sext (w v : Nat) : Int := if 2 ^ (w - 1) ≤ v % 2 ^ w then (v % 2 ^ w : Nat) - (2 ^ w : Nat) else (v % 2 ^ w : Nat)

/-- Element `j` of a stored row as an FP32 pattern. -/
def decodeElem (fmt d : Nat) (bs : Bytes) (j : Nat) : Nat :=
  match elemFmt fmt, rowMx fmt with
  | some f, _ => r32 (decF f (le bs (f.w / 8 * j) (f.w / 8)))
  | none, some (f, _) => r32 (mxValue f (le bs (f.w * d / 8 + j / 32) 1) (packedGet bs f.w j))
  | none, none =>
    let w := if fmt = 8 then 8 else 4
    let scale := le bs (if fmt = 8 then d else (d + 1) / 2) 4
    r32 ((FV.ofInt (sext w (packedGet bs w j))).mul (f32 scale))

/-- The elements of a stored row as FP32 patterns. -/
def decodeRow (fmt d : Nat) (bs : Bytes) : List Nat := (List.range d).map (decodeElem fmt d bs)

/-- The largest finite magnitude of a row (R253). -/
def rowAmax (es : List Nat) : Nat :=
  es.foldl (fun a e => match f32 e with
    | .fin _ m x => let v := r32 (.fin false m x); if flt a v then v else a
    | _ => a) 0

/-- A row of FP32 elements stored in a format; `rnd j` is the rounding of element j. -/
def encodeRow (fmt d : Nat) (rnd : Nat → Option Nat) (es : List Nat) : Bytes :=
  match elemFmt fmt, rowMx fmt with
  | some f, _ => ((List.range d).map (fun j => leBytes (f.w / 8) (encF f (rnd j) (f32 (es.getD j 0))))).flatten
  | none, some (f, emax) =>
    let scale := fun b => mxScale emax ((List.range 32).map (fun i => f32 (es.getD (32 * b + i) 0)))
    packBits f.w ((List.range d).map (fun j => mxElem f (scale (j / 32)) (rnd j) (f32 (es.getD j 0))))
      ++ (List.range (d / 32)).map (fun b => BitVec.ofNat 8 (scale b))
  | none, none =>
    let w := if fmt = 8 then 8 else 4
    let lim : Nat := if fmt = 8 then 127 else 7
    let amax := rowAmax es
    let scale := if amax = 0 then 0 else fdiv amax (fofNat lim)
    let q := fun j =>
      if scale = 0 then 0
      else match f32 (es.getD j 0) with
        | .nan => 0
        | .inf n => wrapInt w (if n then -(lim : Int) else lim)
        | v => wrapInt w (max (-(lim : Int)) (min lim (toInt (rnd j) 32 (v.div (f32 scale)))))
    packBits w ((List.range d).map q) ++ leBytes 4 scale

/-- Rounding of element j by a mode: to nearest even, or stochastic with the unit's own random values (R277). -/
def rowRound (stochastic : Bool) (draw j : Nat) : Option Nat := if stochastic then some (Config.rand16 (draw + j)) else none

end Sys2Proof.Machine
end

