-- ==== Sys2Proof/Machine/State.lean ====
section
/-! DEFINITION. The state of the part as plain data: every register, ring, table, course, connection, key, counter and pin that the spec gives it, the queue of waiting commands, and the state right after cold reset. -/

namespace Sys2Proof.Machine

/-! ### Errors and telemetry (chapter 14) -/

/-- The error header of one block (R621): the fields the registers of offsets 0x10 to 0x3C show, the time stamps of R632 and
the counter value at which the escalation timer expires. -/
structure ErrHdr where
  isolated : Bool := false
  escalated : Bool := false
  acked : Bool := false
  /-- ERR_STATUS.CLASS, the reaction class in force -/
  cls : Nat := 0
  fatSeen : Bool := false
  conSeen : Bool := false
  corSeen : Bool := false
  valid : Bool := false
  seq : Nat := 0
  /-- ERR_FIRST.CLASS -/
  fcls : Nat := 0
  source : Nat := 0
  ovf : Bool := false
  highest : Nat := 0
  ovfCount : Nat := 0
  /-- ERR_MASK.COR_SILENT -/
  corSilent : Bool := false
  fatCount : Nat := 0
  conCount : Nat := 0
  corCount : Nat := 0
  /-- ERR_TIMER.RUNNING -/
  running : Bool := false
  /-- ERR_TIMER.MS -/
  ms : Nat := 20
  /-- island counter value at which the timer expires, read through ERR_TIMER_LEFT -/
  timerEnd : Nat := 0
  info : List Nat := [0, 0, 0, 0]
  firstTime : Nat := 0
  escTime : Nat := 0
  /-- a CLEAR of the isolated block was accepted and its return to service is due (R628) -/
  returning : Bool := false
  /-- the CON of a sparing event has been recorded and awaits the steward cores' acknowledgement (R194) -/
  sparing : Bool := false
  deriving DecidableEq, Repr

/-- One performance counter (R637, R640): CNT_SEL, CNT_THRESH, the 48-bit count and the function that reads it. -/
structure PerfCtr where
  enable : Bool := false
  mode : Nat := 0
  unit : Nat := 0
  event : Nat := 0
  thresh : Nat := 0
  count : Nat := 0
  /-- READER of R640: a FUNCTION_ID, or 0xFFFF; the manual gives no reset value (log 5) -/
  reader : Nat := 0xFFFF
  /-- the event's value in the cycle before, for EDGE (R638) -/
  last : Nat := 0
  deriving DecidableEq, Repr

/-- A record of the policy log (R644). -/
structure PolicyRec where
  time : Nat
  seq : Nat
  policy : Nat
  reason : Nat
  object : Nat
  old : Nat
  new : Nat
  deriving DecidableEq, Repr

/-- The dump of R633: its bytes and the block index and source code of the FAT. -/
structure Dump where
  bytes : Bytes := []
  block : Nat := 0
  source : Nat := 0
  deriving DecidableEq, Repr

/-- Telemetry state beside the block headers: the policy log, the policy bounds set by POLICY_SET, FAULT_N's minimum
assertion, and the dump. -/
structure Tel where
  /-- the policy log, oldest first, at most 65,536 records (R644) -/
  plog : List PolicyRec := []
  /-- SEQ of the next record (TM_LOG_SEQ.NEXT) -/
  plogNext : Nat := 0
  /-- SEQ up to which records have been read, for TM_LOG_LOST -/
  plogRead : Nat := 0
  /-- bounds of POLICY_SET for DVFS islands (key: island ID) in MHz, LOW and HIGH -/
  dvfsBound : List (Nat × (Nat × Nat)) := []
  /-- narrowest width that down-training may reach, by port block (POLICY_SET 8) -/
  minWidth : List (Nat × Nat) := []
  /-- the 1 ms minimum assertion of FAULT_N runs (R631) -/
  faultHold : Bool := false
  /-- a FAT has frozen the part (ERR_STATUS.FROZEN of every block, R629) -/
  frozen : Bool := false
  dump : Option Dump := none
  deriving DecidableEq, Repr

/-! ### Igavaine Command Protocol (chapter 2) -/

/-- An ICP reply: the header fields of R57 and the reply data. -/
structure IcpReply where
  major : Nat := 0
  minor : Nat := 0
  opcode : Nat := 0
  tag : Nat := 0
  functionId : Nat := 0
  generation : Nat := 0
  status : Nat := 0
  detail : Nat := 0
  cmdHead : Nat := 0
  sessionId : Nat := 0
  phase : Bool := false
  interim : Bool := false
  data : Bytes := []
  /-- the slot of the reply ring it takes (R62) -/
  slot : Nat := 0
  deriving DecidableEq, Repr

/-- What has arrived of a fragmented datagram: parts by their place in the payload, and the payload's length once the last is there (R63). -/
structure FragSet where
  parts : List (Nat × Bytes) := []
  total : Option Nat := none
  deriving DecidableEq, Repr

/-- A command or reply ring pair (R58 to R62, R66): a function's (by FUNCTION_ID) or an accelerator endpoint's. -/
structure Ring where
  cmdBase : Nat := 0
  rplBase : Nat := 0
  enable : Bool := false
  irqEn : Bool := false
  rplLog2 : Nat := 4
  cmdLog2 : Nat := 4
  cmdHead : Nat := 0
  ringErr : Bool := false
  dbErr : Bool := false
  ready : Bool := false
  /-- the last values written to the doorbells (R60) -/
  cmdTail : Nat := 0
  rplHead : Nat := 0
  /-- reply ring slot written next, and the pass it lies on (R62) -/
  rplProd : Nat := 0
  rplPass : Bool := true
  /-- slots between RPL_HEAD and the producer, in use, and slots reserved for commands not yet answered (R61) -/
  rplUsed : Nat := 0
  reserved : Nat := 0
  /-- replies held while the function's PF is in D1 or D3hot (R423) -/
  held : List (IcpPkt × IcpReply) := []
  /-- commands in the ring slots between CMD_HEAD and CMD_TAIL, not yet fetched -/
  unread : List IcpPkt := []
  /-- ENABLE was cleared, and READY falls once the fetched commands are answered (R59) -/
  draining : Bool := false
  deriving DecidableEq, Repr

/-- An open session (R63 to R71). -/
structure Session where
  sid : Nat
  major : Nat
  minor : Nat
  caps : Nat := 0
  /-- session slot of a management port session, 0 to 15 -/
  slot : Nat := 0
  /-- steward counter value at the last command, for the 300 s of R63 -/
  lastUse : Nat := 0
  /-- the last 64 replies of a management session, oldest first (R64) -/
  kept : List IcpReply := []
  deriving DecidableEq, Repr

/-- What a command whose final reply is still to come waits for. -/
inductive WaitKind where
  /-- FLUSH, or a HELLO or GOODBYE that acts as one (R70, R80, R83) -/
  | barrier
  /-- CFG_COMMIT DRAIN (R97) -/
  | drain
  /-- CFG_COMMIT ROLLING whose last unit has not flipped (R96) -/
  | rolling
  /-- FW_ACTIVATE (R675, R678) -/
  | activate
  /-- TABLE_DESTROY, CQP_DESTROY, KERNEL_UNLOAD waiting for started work (R249, R80, R181) -/
  | destroy
  /-- MR_REVOKE waiting for admitted packets (R566) -/
  | revoke
  /-- NS_DETACH waiting for commands in progress (R450) -/
  | detach
  /-- SHARD_ADOPT, and a SHRINK_DONE behind it (R370, R372) -/
  | adopt
  deriving DecidableEq, Repr

/-- A command that has been fetched and has not posted its final reply. -/
structure Waiter where
  via : Via
  pkt : IcpPkt
  kind : WaitKind
  /-- generation of the issuer when the command was fetched -/
  gen : Nat := 0
  /-- the object it waits on -/
  obj : Nat := 0
  /-- commands it counted as earlier (FLUSH), or other counts its reply carries -/
  count : Nat := 0
  deriving DecidableEq, Repr

/-- The owner of a stage set (chapter 2, Staged configuration): a function, or a management port or MCTP session. -/
inductive Owner where
  | fn (fid : Nat)
  | session (via : Via)
  deriving DecidableEq, Repr

/-- A staged object: its type of R91, its handle and the configuration in effect. -/
structure StageEntry where
  owner : Owner
  otype : Nat
  handle : Nat
  config : Bytes
  deriving DecidableEq, Repr

/-- The commit of a stage set that is under way (R94 to R97). -/
structure Commit where
  owner : Owner
  via : Via
  bound : Nat
  start : Nat
  deriving DecidableEq, Repr

/-- A diagnostic run (R81). -/
structure Diag where
  runId : Nat
  test : Nat
  target : Nat
  iterations : Nat
  /-- 0 running, 1 passed, 2 failed -/
  status : Nat := 0
  records : Bytes := []
  deriving DecidableEq, Repr

/-- Protocol state that belongs to no one function. -/
structure Icp where
  sessions : List (Via × Session) := []
  /-- commands without a final reply, oldest first -/
  waits : List Waiter := []
  /-- packets held behind a FLUSH, HELLO, GOODBYE or FENCE of their own ring or session (R54, R83) -/
  behind : List (Via × IcpPkt) := []
  stage : List StageEntry := []
  commits : List Commit := []
  diag : Option Diag := none
  /-- datagrams of the management port of which fragments are missing, by peer, IP version (6: true) and identification (R63) -/
  frags : List ((Nat × Bool × Nat) × FragSet) := []
  /-- intake is paused on every ring for firmware activation (R86) -/
  paused : Bool := false
  /-- replies dropped at a function reset (R84), datagrams dropped in a pause (R86), doorbell values out of range (R60) -/
  replyDrops : Nat := 0
  datagramDrops : Nat := 0
  dbInvalid : Nat := 0
  deriving DecidableEq, Repr

/-! ### Functions, ports and the host's view (chapter 9) -/

/-- An allotment of the pools of R407, or the amounts in use of one. -/
structure Allot where
  cqps : Nat := 0
  nicQps : Nat := 0
  nvmeQps : Nat := 0
  quota : Nat := 0
  conns : Nat := 0
  locks : Nat := 0
  limiters : Nat := 0
  deriving DecidableEq, Repr

/-- The condition of a function (R418). -/
inductive FnState where
  | active
  | frozen
  deriving DecidableEq, Repr

/-- The dirty log of a VF (R432 to R435). -/
structure DirtyLog where
  issuer : Nat
  bitmap : Nat
  base : Nat
  length : Nat
  /-- pages whose bit the part has set -/
  pages : List Nat := []
  outside : Nat := 0
  deriving DecidableEq, Repr

/-- The D-states of R423. -/
inductive DState where
  | d0
  | d1
  | d3hot
  | d3cold
  deriving DecidableEq, Repr

/-- A PCIe function: identity, generation, lease, allotment and spoof identity (R38 to R42, R389 to R435). -/
structure Fn where
  /-- current generation, 1 to 65,535 (R41; the manual gives no first value: log 6) -/
  gen : Nat := 1
  prevGen : Nat := 0
  /-- CAUSE of R418 -/
  cause : Nat := 0
  st : FnState := .active
  /-- host port, PF and SR-IOV index (R391, R418) -/
  hp : Nat := 0
  pf : Nat := 0
  vfIndex : Nat := 0
  allot : Allot := {}
  /-- SPOOF bits of R408 -/
  spoof : Nat := 0
  vlan : Nat := 0
  mac : Nat := 0
  ipv4 : Nat := 0
  ipv6 : Nat := 0
  ipv6Len : Nat := 0
  slot : Option Nat := none
  leaseMs : Nat := 2000
  /-- a lease runs, and the steward counter value at which its period began (R39) -/
  leaseOn : Bool := false
  leaseFrom : Nat := 0
  lateDiscarded : Nat := 0
  spoofDrops : Nat := 0
  /-- resources of old generations not yet returned (R404 event 6) -/
  reclaim : Allot := {}
  /-- TAG and STATUS of the last 64 replies kept at a lease expiry, oldest first (R85) -/
  kept : List (Nat × Nat) := []
  dstate : DState := .d0
  pmeEn : Bool := false
  /-- a PF asserts WAKE_N (R424) -/
  wake : Bool := false
  /-- SR-IOV capability of a PF (R391) -/
  numVfs : Nat := 0
  vfEnable : Bool := false
  /-- a VF of a PF whose VF Enable is clear is not there; its allotment, tables and held queue pairs stay (R411, R415) -/
  on : Bool := true
  /-- an FLR is between its events 1 and 5 (R405) -/
  crs : Bool := false
  dirty : Option DirtyLog := none
  /-- pieces of a migration record taken so far (R429) -/
  migBuf : Bytes := []
  deriving DecidableEq, Repr

/-- One link of a port block (R383, R384). -/
structure PLink where
  width : Nat := 0
  speed : Nat := 0
  flit : Bool := false
  reversed : Bool := false
  polarity : Nat := 0
  downtrained : Bool := false
  /-- the link has trained since cold reset -/
  seen : Bool := false
  /-- generation of the accelerator endpoint behind the link (R56) -/
  gen : Nat := 1
  deriving DecidableEq, Repr

/-- A port block (R375 to R384). -/
structure PBlock where
  role : Nat := 0
  bifur : Nat := 0
  hostPort : Nat := 0
  propagate : Bool := false
  maxSpeed : Nat := 6
  links : List PLink := [{}, {}, {}, {}]
  deriving DecidableEq, Repr

/-- A ring in the queue region (R396): host port, first page and number of pages, the GDDR7 frames behind them, and the owner. -/
structure QRing where
  hp : Nat
  page : Nat
  pages : Nat
  frames : List Nat
  /-- FUNCTION_ID of the owner: a function, or an accelerator endpoint -/
  owner : Nat
  /-- the custody queue pair, or none for an endpoint's ICP rings -/
  queue : Option Nat
  /-- completion or reply ring -/
  reply : Bool
  deriving DecidableEq, Repr

/-- The PCIe side of the part. -/
structure Ports where
  /-- PB0 to PB19 -/
  blocks : List (Nat × PBlock) := []
  /-- WIN_XLAT registers, key host port × 16 + n; an unlisted one reads its reset value n (R397) -/
  winXlat : List (Nat × CsrWord) := []
  /-- aperture table entries, key host port × 4096 + p; an unlisted one reads 0 (R399) -/
  apt : List (Nat × BitVec 64) := []
  qrings : List QRing := []
  /-- the words of configuration space that a write stores: Command, BARs, MSI-X control, Device Control 2 and SR-IOV control, key
  FUNCTION_ID × 4096 + offset; an unlisted one reads 0 (R389, R393, R432) -/
  cfg : List (Nat × CsrWord) := []
  /-- words of the MSI-X tables, key FUNCTION_ID × 8192 + word (R394) -/
  msix : List (Nat × CsrWord) := []
  /-- messages of masked vectors that are pending, by function and vector (R394) -/
  msixPending : List (Nat × Nat) := []
  /-- ACS control of the downstream bridges, by the link below each, port block × 4 + link; an unlisted one is 0 (R386) -/
  acs : List (Nat × Nat) := []
  /-- accelerator endpoints whose rings have found no free pages or frames (R396, R730) -/
  ringless : List Nat := []
  deriving DecidableEq, Repr

/-- The six PFs at cold reset with the default allotments of R412; VFs appear when a PF enables them. -/
def Fn.resetAll : List (Nat × Fn) :=
  [(0, { hp := 0, pf := 0, allot := { cqps := 256, conns := 1024, limiters := 16 } }),
   (1, { hp := 0, pf := 1, allot := { nvmeQps := 1024, locks := 4096, limiters := 16 } }),
   (2, { hp := 0, pf := 2, allot := { nicQps := 256, conns := 1024, limiters := 16 } }),
   (3, { hp := 1, pf := 0, allot := { cqps := 256, conns := 1024, limiters := 16 } }),
   (4, { hp := 1, pf := 1, allot := { nvmeQps := 1024, locks := 4096, limiters := 16 } }),
   (5, { hp := 1, pf := 2, allot := { nicQps := 256, conns := 1024, limiters := 16 } })]

/-! ### Custody memory (chapter 3) -/

/-- The tier class of a table (R129). -/
inductive TierClass where
  | auto
  | pinHot
  | pinCold
  deriving DecidableEq, Repr

/-- One capture block of custody and its block map entry (R102, R128): the table slot and region it belongs to, its index
there, the frame that holds it (frame number = DPA / 64 KiB; none: it waits for a free frame, R113), the destination of a move
under way (R131), its heat, and its course-front bit (R103; true: captured in the open course). -/
structure Blk where
  table : Nat
  region : Nat
  index : Nat
  frame : Option Nat
  cls : TierClass := .auto
  moving : Option Nat := none
  heat : Nat := 0
  captured : Bool := true
  /-- the block, by table, region and index, that takes this one's frame when its own move of a swap has ended (R130) -/
  swapFor : Option (Nat × Nat × Nat) := none
  deriving DecidableEq, Repr

/-- What a run of frames outside the block map is used for. -/
inductive FrameUse where
  /-- one copy of the block map and front bitmap of a table slot (R103) -/
  | map (table : Nat)
  /-- spill region, chunk buffers and staging of the course policy in force (R293) -/
  | course
  /-- the same, of a policy accepted since the last COURSE_OPEN -/
  | courseNext
  /-- the same, of a superseded policy, until the next COURSE_OPEN -/
  | courseOld
  /-- CXL frames of a CXL staging destination (R294) -/
  | cxlArea
  /-- pages of the queue region (R396) -/
  | ring
  /-- code images and scratch of kernels -/
  | kernel (slot : Nat)
  /-- retired by a fence -/
  | retired
  deriving DecidableEq, Repr

/-- A run of GDDR7 or CXL frames taken for one use. -/
structure Extent where
  first : Nat
  count : Nat
  use : FrameUse
  deriving DecidableEq, Repr

/-- A set of CXL devices that share an address range (R125): the links, port block × 4 + link, the first cold frame and the
count of frames. -/
structure CxlSet where
  links : List Nat
  first : Nat
  count : Nat
  fenced : Bool := false
  deriving DecidableEq, Repr

/-- An access of a host to custody memory that waits for a channel to retrain (R112): its address and length, the bytes of a write, and the lines
whose read fails. -/
structure HeldAcc where
  dpa : Nat
  len : Nat
  write : Option Bytes := none
  faults : List LineFault := []
  deriving DecidableEq, Repr

/-- The memory side: contents by DPA, poison, block map, frame allocation, channels and on-chip banks. -/
structure Mem where
  /-- contents by DPA in canonical form; an unlisted byte reads 0 (R120, R140; log 7) -/
  cells : List Host.Cell := []
  /-- DPAs of poisoned lines, each a multiple of 128 (R119) -/
  poison : List Nat := []
  /-- DPAs of scratch words marked bad (R142) -/
  badWords : List Nat := []
  blocks : List Blk := []
  extents : List Extent := []
  /-- GDDR7 channels trained at the cold reset, 16 × n + c, in channel order (R108) -/
  channels : List Nat := []
  /-- channels fenced, with the cause code of MC_CH_CAUSE (R111, R113) -/
  fenced : List (Nat × Nat) := []
  /-- density in effect, encoding of MC_POP.DENSITY -/
  density : Nat := 2
  /-- GDDR7 frames behind the trained channels, and the next never-used hot frame and freed hot frames -/
  hotTotal : Nat := 0
  hotNext : Nat := 0
  hotFree : List Nat := []
  /-- the CXL tier: its sets, next never-used cold frame (counted from the start of the region), freed cold frames -/
  cxl : List CxlSet := []
  coldTotal : Nat := 0
  coldNext : Nat := 0
  coldFree : List Nat := []
  /-- channels being retrained, and the host accesses that wait for one of them (R112) -/
  retraining : List Nat := []
  heldAcc : List HeldAcc := []
  /-- island counter values of the retrains of a channel (R112) -/
  retrains : List (Nat × List Nat) := []
  /-- corrected GDDR7 errors since the last bucket boundary (R122, R332) -/
  corrected : Nat := 0
  /-- SRAM rows and columns: time of the last parity failure, key of the sender's choosing (R146) -/
  sramFails : List (Nat × Nat) := []
  /-- rows or columns waiting for the idle cycle that replaces them -/
  sramDue : List Nat := []
  /-- provisioned keys, by handle, that rows or columns of the vault have lost (R144, R146) -/
  vaultLost : List (Nat × Nat) := []
  /-- spare SRAM rows and columns used -/
  sramUsed : Nat := 0
  /-- crossings: time of the last pointer mismatch, and crossings on their spare pair (R23, R25) -/
  crossFails : List (Nat × Nat) := []
  crossSpared : List Nat := []
  /-- spares of every kind used since manufacture, in always-on RAM (R46, R145) -/
  sparesUsed : Nat := 0
  /-- fence records in always-on RAM: channels with their cause, and CXL links (R111, R127, R145) -/
  fenceLog : List (Nat × Nat) := []
  cxlFenceLog : List Nat := []
  /-- the same records in SPI flash -/
  flashFences : List (Nat × Nat) := []
  flashCxlFences : List Nat := []
  /-- device positions, 4 × n + position, that answered identity reads (R109, R135) -/
  present : List Nat := []
  /-- moves made in the present tiering epoch (R130, R269) -/
  moves : Nat := 0
  deriving DecidableEq, Repr

/-! ### The mason array (chapters 4 and 5) -/

/-- What launched a set of kernel items: a KERNEL descriptor, or a row of a custom-rule UPDATE here or of a forwarded one. -/
inductive JobOrigin where
  | desc (queue seq : Nat)
  | row (queue seq position : Nat)
  | forwarded (dev token : Nat)
  deriving DecidableEq, Repr

/-- The items of one KERNEL descriptor or of one row of a custom rule (R177 to R179, R276). -/
structure Job where
  id : Nat
  /-- kernel index -/
  kernel : Nat
  origin : JobOrigin
  items : Nat
  step : Nat
  /-- W1: the descriptor and its argument bytes, or the record of a rule item -/
  args : Bytes
  /-- table of W4 for rule items, and the row and buffer of W12 -/
  rule : Option (Nat × Nat) := none
  grad : Bytes := []
  /-- an update held for a row that has been repointed or adopted: recovery work (R184; log 175) -/
  recovery : Bool := false
  /-- a rule item's row as it stood before, region by region, and whether its key was inserted for this item (R262) -/
  before : List Bytes := []
  fresh : Bool := false
  /-- client memory that W12 to W14 name, by FUNCTION_ID, the generation its accesses carry (R170), and their base addresses (log 40) -/
  client : Nat := 0
  gen : Nat := 0
  buffers : List Nat := []
  /-- items handed out, items ended, items that halted without a fault, and the lowest faulting item with its kind -/
  next : Nat := 0
  ended : Nat := 0
  halted : Nat := 0
  fault : Option (Nat × Nat) := none
  deriving DecidableEq, Repr

/-- A loaded kernel (R172 to R176). -/
structure Kernel where
  /-- handle: tenant slot [31:22], kernel index [21:10], generation [9:0] -/
  handle : Nat
  owner : Nat
  /-- GDDR7 frames of code and constants, their length and the entry offset -/
  frames : List Nat := []
  codeLen : Nat := 0
  entry : Nat := 0
  /-- logical clusters granted, and the thread slots held: cluster × 1,024 + core × 64 + slot, in the order items take them -/
  clusters : List Nat := []
  slots : List Nat := []
  threads : Nat := 1
  prio : Nat := 0
  /-- W2 size, W3 size, and the scratch offset of its allocation in each granted cluster -/
  perCore : Nat := 0
  shared : Nat := 0
  offsets : List (Nat × Nat) := []
  watchdogMs : Nat := 1
  /-- handles bound to W4 to W11 -/
  tables : List Nat := []
  /-- KERNEL_UNLOAD has been received: no more items are handed out (R181) -/
  unloading : Bool := false
  deriving DecidableEq, Repr

/-- The architectural state of a thread (R198) and the item it runs. -/
structure Thread where
  job : Nat
  item : Nat
  s : Vector SReg 32 := .replicate 32 0
  v : Vector VReg 16 := .replicate 16 0
  m : Vector SReg 8 := .replicate 8 0
  pc : SReg := 0
  lc : SReg := 0
  lpos : SReg := 0
  deriving DecidableEq, Repr

/-- The unit map of a physical cluster (R147, R190 to R193, R196). -/
structure ClusterSt where
  /-- masks of the physical cores that are active, and that are fused bad or spared out -/
  active : Nat := 0
  failed : Nat := 0
  /-- logical cluster, or 0xFF -/
  logical : Nat := 0
  /-- physical index of the spare core; 31 when none remains -/
  spare : Nat := 0
  /-- physical core of each logical core; 31 for one that is gone -/
  cores : List Nat := []
  deriving DecidableEq, Repr

/-- The mason array. -/
structure Mason where
  /-- cores fused bad, as a mask per physical cluster; an unlisted cluster has none (log 41) -/
  fuses : List (Nat × Nat) := []
  /-- unit maps by physical cluster; an unlisted one reads 0, before the map is loaded -/
  units : List (Nat × ClusterSt) := []
  /-- loaded kernels by kernel index, and the generation of each index last used -/
  kernels : List (Nat × Kernel) := []
  gens : List (Nat × Nat) := []
  jobs : List Job := []
  nextJob : Nat := 0
  /-- threads running an item, by thread slot -/
  threads : List (Nat × Thread) := []
  /-- threads that lost their core, or gave their slot to recovery work, and wait for a free slot of their kernel (R184, R192) -/
  saved : List Thread := []
  /-- L1 data of each core, cluster × 16 + core: lines by DPA with the bytes cached (R156) -/
  l1 : List (Nat × List (Nat × Bytes)) := []
  /-- cores that have stopped issuing on the way to their safe point: physical cluster and core (R190) -/
  stopping : List (Nat × Nat) := []
  /-- instructions issued since the last tick, by (physical cluster × 32 + core) × 2 + slot kind (0 scalar, 1 vector): those that wrote their results,
  and those that were wasted (R642) -/
  slots : List (Nat × Nat × Nat) := []
  /-- register parity faults: physical cluster × 32 + core, and island counter value (R189) -/
  parityFails : List (Nat × Nat) := []
  deriving DecidableEq, Repr

/-! ### Table service (chapter 6) -/

/-- A poisoned row of a table (R285 to R288): the row, the regions written whole since (bit 0 weight or master, bit 1 state), the
cause code of R288, and whether it waits for a read of the latest committed course. -/
structure BadRow where
  row : Nat
  written : Nat := 0
  cause : Nat := 1
  repointing : Bool := true
  /-- the line that held its key is lost, so that no key is known to be its own (R285, R286) -/
  keyLost : Bool := false
  deriving DecidableEq, Repr

/-- A capture policy that waits for the next COURSE_OPEN (R91 type 8). -/
structure CapPolicy where
  include_ : Bool
  weight : Nat
  state : Nat
  serving : Bool
  deriving DecidableEq, Repr

/-- A table: the parameters of R243 in effect and its running state. -/
structure Tbl where
  /-- handle: tenant slot [31:22], table index [21:10], generation [9:0] -/
  handle : Nat
  owner : Nat
  /-- the owner's generation (R38) -/
  gen : Nat := 0
  rows : Nat
  format : Nat := 0
  split : Bool := false
  rule : Nat := 0
  stateFormat : Nat := 0
  rowBytes : Nat := 16
  dim : Nat := 1
  hashed : Bool := false
  sharded : Bool := false
  tier : TierClass := .auto
  rounding : Nat := 0
  init : Nat := 0
  initValue : Nat := 0
  initSeed : Nat := 0
  lr : Nat := 0
  beta1 : Nat := 0
  beta2 : Nat := 0
  epsilon : Nat := 0
  decay : Nat := 0
  momentum : Nat := 0
  trustMax : Nat := 0
  gradScale : Nat := 0
  stepBase : Nat := 0
  /-- highest step applied to it (R297, R361) -/
  highStep : Option Nat := none
  ruleId : Nat := 0
  domainId : Nat := 0
  ring : Nat := 0
  ringEntries : Nat := 0
  ringProd : Nat := 0
  ringPass : Bool := true
  /-- 0 READY, 1 ERROR, 2 DESTROYING (R251) -/
  status : Nat := 0
  /-- owned ranges in ascending order, (first, length): rows, or h1 values of a hashed sharded table (R280, R732) -/
  ranges : List (Nat × Nat) := []
  /-- rows held on this device, and bytes of its state row -/
  localRows : Nat := 0
  stateBytes : Nat := 0
  bad : List BadRow := []
  /-- rows repointed and not since written whole (R288), with the mask of regions written since -/
  rolled : List (Nat × Nat) := []
  rolledBack : Nat := 0
  lastCourse : Nat := 0
  ringLost : Nat := 0
  updates : Nat := 0
  lookups : Nat := 0
  /-- capture policy (R316): include, weight format, state format (0xFF stored), serving copy -/
  include_ : Bool := true
  capWeight : Nat := 0xFF
  capState : Nat := 0xFF
  capServing : Bool := false
  /-- a capture policy committed under ROLLING, for the next COURSE_OPEN -/
  capNext : Option CapPolicy := none
  /-- tables of a restore that is not complete are not visible (R360) -/
  visible : Bool := true
  deriving DecidableEq, Repr

/-- A custody completion (R260). -/
structure Cqe where
  tag : Nat := 0
  count : Nat := 0
  gen : Nat := 0
  status : Nat := 0
  detail : Nat := 0
  flags : Nat := 0
  sqHead : Nat := 0
  phase : Bool := false
  deriving DecidableEq, Repr

/-- A descriptor in progress: what it has served and what it still waits for. -/
structure InProg where
  /-- number of the descriptor on its queue pair -/
  seq : Nat
  desc : Desc
  io : DescIo
  /-- positions of the index list (for UPDATE: first positions of distinct rows) still to serve -/
  todo : List Nat := []
  /-- indices served, here or by their owners: position, status, flags and bytes (R281) -/
  got : List (Nat × (Nat × Nat × Bytes)) := []
  /-- positions sent to their owners -/
  sent : List Nat := []
  /-- the device each of those was sent to, for indices that another member serves (R281, R284) -/
  sentTo : List (Nat × Nat) := []
  flags : Nat := 0
  /-- KERNEL: items not yet ended, items halted, lowest faulting item and its kind -/
  itemsLeft : Nat := 0
  halted : Nat := 0
  faultItem : Option (Nat × Nat) := none
  deriving DecidableEq, Repr

/-- A custody queue pair (R254 to R263). -/
structure Cqp where
  owner : Nat
  gen : Nat
  sqAddr : Nat := 0
  cqAddr : Nat := 0
  sqLog2 : Nat := 4
  cqLog2 : Nat := 4
  version : Nat := 2
  place : Nat := 0
  vector : Nat := 0xFFFF
  endpoint : Nat := 0xFFFF
  inflight : Nat := 1
  /-- doorbell page of the owner's BAR2 -/
  page : Nat := 1
  /-- doorbells as last written, consumer index, descriptors fetched so far -/
  sqTail : Nat := 0
  cqHead : Nat := 0
  sqHead : Nat := 0
  fetched : Nat := 0
  /-- completion ring: producer, pass, entries not yet freed, slots reserved -/
  cqProd : Nat := 0
  cqPass : Bool := true
  cqUsed : Nat := 0
  /-- fetching stopped after a loss of the host side (R415), and completions held in the part -/
  held : Bool := false
  heldCpl : List (Cqe × Bool) := []
  /-- data of held completions, to be written before them: address and bytes -/
  heldData : List (Nat × Bytes) := []
  /-- adopted: held completions go out at the next SQ_TAIL write (R419) -/
  adopted : Bool := false
  /-- error state of R730 -/
  error : Bool := false
  /-- CQP_DESTROY waits for its started descriptors, and the completions posted meanwhile -/
  closing : Bool := false
  closedCount : Nat := 0
  /-- fetched and not started, oldest first: behind a FENCE, or held (R263, R303) -/
  waiting : List (Nat × Desc × DescIo) := []
  /-- descriptors of the submission ring between the consumer index and the tail that await a completion slot (R256) -/
  unread : List (Desc × DescIo) := []
  running : List InProg := []
  /-- highest step its client reported done, and SQ_TAIL as sampled then (R300, R301) -/
  stepDone : Option Nat := none
  sampled : Nat := 0
  /-- each rise of that step with the SQ_TAIL sampled at it, oldest first (R274) -/
  samples : List (Nat × Nat) := []
  deriving DecidableEq, Repr

/-- A custom update rule (R275). -/
structure Rule where
  tenant : Nat
  kernel : Nat
  stateBytes : Nat
  hyper : List Nat
  /-- its last table has been destroyed, so that it holds its kernel no more (R183) -/
  spent : Bool := false
  deriving DecidableEq, Repr

/-- An index that arrived from another device and waits for its row (R281, R284). -/
structure FwdWait where
  dev : Nat
  token : Nat
  domainId : Nat
  op : Nat
  flags : Nat
  step : Nat
  client : Nat
  lr : Nat
  index : Nat
  data : Bytes
  /-- flags raised while it waits; a kernel item of a custom rule runs for it -/
  raised : Nat := 0
  running : Bool := false
  deriving DecidableEq, Repr

/-- The table service. -/
structure Tables where
  /-- tables by index, 0 to 4,095 -/
  tbls : List (Nat × Tbl) := []
  /-- generation of each table index last used (R249) -/
  gens : List (Nat × Nat) := []
  cqps : List (Nat × Cqp) := []
  rules : List (Nat × Rule) := []
  fwd : List FwdWait := []
  deriving DecidableEq, Repr

/-! ### Courses (chapter 7) -/

/-- A destination entry (R291). -/
structure Dest where
  type : Nat := 1
  id : Nat := 0
  areaGib : Nat := 1
  deriving DecidableEq, Repr

/-- A course policy (R290) with the defaults the manual gives; no destination is configured by default. -/
structure CoursePolicy where
  period : Nat := 600
  spillGib : Nat := 4
  destMode : Nat := 0
  format : Nat := 4
  shardMib : Nat := 256
  fenceMs : Nat := 10000
  stagingGib : Nat := 0
  chunkBufs : Nat := 256
  sealOn : Bool := false
  early : Bool := true
  window : Nat := 60
  earlyGap : Nat := 300
  /-- THRESH_CORR, THRESH_RETRAIN, THRESH_THERMAL, THRESH_ACCEL -/
  thresh : List Nat := [10000, 50, 50000, 1000]
  margin : Nat := 5
  stepLead : Nat := 2
  device : Nat := 0
  parent : Nat := 0xFFFFFFFF
  children : Nat := 0
  liveness : Nat := 100
  dests : List Dest := []
  deriving DecidableEq, Repr

/-- A copy of a capture block: the table index, region and block, and the bytes that are not zero, by offset in the block. -/
structure BlkImage where
  table : Nat
  region : Nat
  index : Nat
  cells : List Host.Cell
  /-- rows, by local number, that stayed poisoned when the image was taken: they are captured as zeros (R315) -/
  lost : List Nat := []
  deriving DecidableEq, Repr

/-- A shard of the open course (R319): table index, region (0 weight or master, 1 state, 2 serving, 3 key, 4 accelerator region),
its rows and formats, and where it stands on each destination. -/
structure Shard where
  number : Nat
  table : Nat
  handle : Nat
  domainId : Nat
  region : Nat
  format : Nat
  index : Nat
  /-- global number of the first row, and its number among the rows held here -/
  firstRow : Nat
  localRow : Nat
  rowCount : Nat
  rowBytes : Nat
  dim : Nat
  dataOffset : Nat
  chunks : Nat
  /-- destinations it was sent to, with its offset there; destinations where it is durable; write retries by destination -/
  sent : List (Nat × Nat) := []
  durable : List Nat := []
  retries : List (Nat × Nat) := []
  mark : Bytes := []
  /-- its stored bytes, once they are made: header with chunk list, and data; every write of the shard is of these (R323) -/
  head : Bytes := []
  body : Bytes := []
  deriving DecidableEq, Repr

/-- A rollback entry of a device manifest (R288, R315). -/
structure Rollback where
  handle : Nat
  firstRow : Nat
  rows : Nat
  course : Nat
  step : Nat
  cause : Nat
  deriving DecidableEq, Repr

/-- A registered accelerator region (R334) and its part in the open course. -/
structure AccelRegion where
  id : Nat
  owner : Nat
  endpoint : Nat
  addr : Nat
  length : Nat
  notify : Nat
  tag : Nat
  /-- takes part from the next COURSE_OPEN on; leaves at the next COURSE_OPEN -/
  joins : Bool := false
  leaves : Bool := false
  /-- highest step its endpoint reported done -/
  done : Option Nat := none
  /-- in the open course, and its release record written -/
  inCourse : Bool := false
  staged : Bool := false
  /-- the staged bytes, until its shards are durable -/
  data : Bytes := []
  /-- 16-bit sequence of the notify records -/
  seq : Nat := 0
  deriving DecidableEq, Repr

/-- An entry that a member's COMMIT_UP carries (R326). -/
structure MemberEntry where
  device : Nat
  shards : Nat
  length : Nat
  digest : Bytes
  deriving DecidableEq, Repr

/-- A ledger record (R327). -/
structure LedgerRec where
  root : Bool
  seq : Nat
  course : Nat
  step : Nat
  format : Nat
  device : Nat
  prev : Nat
  manifestOff : Nat
  manifestLen : Nat
  digest : Bytes
  devOff : Nat
  devLen : Nat
  deriving DecidableEq, Repr

/-- A destination's course area: its two ledger slots (none: no valid record) and the extents in use (offset, length, course). -/
structure Area where
  slot0 : Option LedgerRec := none
  slot1 : Option LedgerRec := none
  extents : List (Nat × Nat × Nat) := []
  deriving DecidableEq, Repr

/-- The open course, or the latest one (R341). -/
structure CourseRun where
  id : Nat
  step : Nat
  label : Nat := 0
  format : Nat := 4
  trigger : Nat := 0
  /-- 1 FENCING, 2 CAPTURING, 3 COMMITTING, 4 COMMITTED, 5 ABORTED -/
  status : Nat := 1
  detail : Nat := 0
  /-- course engine counter at COURSE_OPEN -/
  openedAt : Nat := 0
  /-- captured tables by index -/
  tables : List Nat := []
  /-- fence clients: tenant slot and queue pair -/
  clients : List (Nat × Nat) := []
  /-- tenants whose local fence is closed, and the domain fence -/
  closed : List Nat := []
  domainClosed : Bool := false
  fenceUpSent : Bool := false
  /-- children that sent FENCE_UP -/
  ups : List Nat := []
  /-- forwarded updates of step S or less not yet acknowledged -/
  fwdOut : Nat := 0
  total : Nat := 0
  cbu : Nat := 0
  drained : Nat := 0
  /-- images in the spill region, and images the walker has taken -/
  spill : List BlkImage := []
  images : List BlkImage := []
  /-- blocks whose updates wait for spill room (R309), oldest first -/
  waiting : List (Nat × Nat × Nat) := []
  shards : List Shard := []
  rollbacks : List Rollback := []
  failed : List Nat := []
  /-- device manifest: bytes, and its offset on each destination -/
  devManifest : Bytes := []
  devOff : List (Nat × Nat) := []
  manifestSent : Bool := false
  /-- COMMIT_UP, or the root's course manifest, has gone out; children whose COMMIT_UP has come; the course manifest and its offsets -/
  commitSent : Bool := false
  upsCommit : List Nat := []
  manifest : Bytes := []
  manifestOff : List (Nat × Nat) := []
  members : List MemberEntry := []
  /-- destinations on which the root's ledger record is not durable yet: those that hold shards of the root, and the others (R329) -/
  ledgerDue : List Nat := []
  ledgerRest : List Nat := []
  deriving DecidableEq, Repr

/-- An opening that reached a paused course engine (R97): a periodic course, an early course, or COURSE_OPEN from the parent. -/
inductive Opening where
  | periodic
  | early
  | message (source id step label format trigger : Nat)
  deriving DecidableEq, Repr

/-- The course engine. -/
structure Course where
  policy : CoursePolicy := {}
  /-- the policy that governs from the next COURSE_OPEN -/
  next : Option CoursePolicy := none
  /-- a COURSE_POLICY_SET has been accepted since the last reset (R293, R712) -/
  policySet : Bool := false
  childrenSet : Bool := false
  /-- its frames are taken (R293) -/
  framesTaken : Bool := false
  run : Option CourseRun := none
  /-- highest course ID known, and the highest steps that the neighbours in the fence tree reported for their parts of it -/
  highId : Nat := 0
  peerSteps : List (Nat × Nat) := []
  /-- highest manifest formats that the neighbours reported for their parts of the tree, the lowest of each part (R33) -/
  peerFormats : List (Nat × Nat) := []
  /-- highest versions of the transport that the neighbours reported, the lowest of each part of the tree (R33) -/
  peerGrt : List (Nat × Nat) := []
  /-- neighbours that reported an adoption in their part of the fence tree (R373) -/
  peersAdopting : List Nat := []
  lastOutcome : Nat := 0
  lastDetail : Nat := 0
  spillWaits : Nat := 0
  regions : List AccelRegion := []
  nextRegion : Nat := 1
  /-- warning events: the 16 buckets of each of the four counters, newest first, and of the present bucket -/
  buckets : List (List Nat) := [[], [], [], []]
  present : List Nat := [0, 0, 0, 0]
  /-- course engine counter at the last COURSE_OPEN and the last early course -/
  lastOpen : Nat := 0
  openedOnce : Bool := false
  lastEarly : Option Nat := none
  /-- course areas by destination key (type × 2^32 + ID); they outlive resets (R649) -/
  areas : List (Nat × Area) := []
  /-- openings held while a DRAIN commit pauses the course engine, oldest first (R97) -/
  heldOpens : List Opening := []
  /-- latest committed course: ID and step -/
  committed : Option (Nat × Nat) := none
  deriving DecidableEq, Repr

/-! ### Restore, re-slicing and shrinking (chapter 8) -/

/-- A range entry of a shard map (R344): rows of a sharded table, or h1 values of a hashed one, and their owner. -/
structure MapRange where
  table : Nat
  owner : Nat
  first : Nat
  count : Nat
  deriving DecidableEq, Repr

/-- A source entry of a shard map (R344). -/
structure MapSource where
  origin : Nat
  type : Nat
  priority : Nat
  id : Nat
  deriving DecidableEq, Repr

/-- A shard map: the one in force, or the one being loaded with the bytes received so far (R344 to R348). -/
structure ShardMap where
  id : Nat := 0
  bytes : Bytes := []
  complete : Bool := false
  thisDevice : Nat := 0
  limit : Nat := 1
  ranges : List MapRange := []
  /-- origin device and LOCAL_OWNER -/
  origins : List (Nat × Nat) := []
  sources : List MapSource := []
  crc : Nat := 0
  /-- SHRINK_DONE has completed the shrink to this map (R372) -/
  shrunk : Bool := false
  deriving DecidableEq, Repr

/-- A table that a restore rebuilds: its origin and handle in the course, the table as it is to be, and its index here (none with
VERIFY_ONLY). -/
structure RestTab where
  origin : Nat
  handle : Nat
  tbl : Tbl
  ti : Option Nat := none
  deriving DecidableEq, Repr

/-- A shard of the read plan of a restore (R356). -/
structure PlanShard where
  origin : Nat
  /-- SHARD_INDEX, and TABLE_HANDLE in the course -/
  index : Nat
  handle : Nat
  /-- number of its table in the restore's list, or the ID of an accelerator region with region 4 -/
  tab : Nat
  region : Nat
  format : Nat
  firstRow : Nat
  rowCount : Nat
  rowBytes : Nat
  colStart : Nat := 0
  colCount : Nat := 0
  /-- COL_START and COL_COUNT as the entry gives them; none in format 2 -/
  entryCols : Option (Nat × Nat) := none
  dataOffset : Nat
  /-- LENGTH and DEST_MASK of the entry -/
  length : Nat := 0
  mask : Nat := 255
  mark : Bytes := []
  /-- its rows are known only once the key shards of its origin have been read -/
  keyed : Bool := false
  /-- rows needed, (first, count) -/
  need : List (Nat × Nat) := []
  /-- chunks still to read, and chunks read and verified -/
  chunks : List Nat := []
  got : List (Nat × Bytes) := []
  head : Option Bytes := none
  /-- what failed once on its present source: 0 for the header, 1 + j for chunk j (R353) -/
  retried : List Nat := []
  /-- sources of its origin in order of trial, and how many of them each of the header and chunks has given up -/
  sources : List MapSource := []
  passed : List (Nat × Nat) := []
  placed : Bool := false
  deriving DecidableEq, Repr

/-- A restore (R349 to R365). -/
structure RestoreRun where
  id : Nat
  /-- 0 IDLE, 1 VERIFYING, 2 READING, 3 COMPLETE, 4 FAILED -/
  state : Nat := 2
  detail : Nat := 0
  courseId : Nat := 0
  step : Nat := 0
  format : Nat := 4
  map : Option ShardMap := none
  tenant : Nat := 0
  verifyOnly : Bool := false
  /-- issuer and address of the handle map -/
  issuer : Nat := 0
  handleMap : Nat := 0
  tabs : List RestTab := []
  plan : List PlanShard := []
  /-- rows of re-sliced hashed tables: origin, table number, row in the origin, row here -/
  moves : List (Nat × Nat × Nat × Nat) := []
  /-- rows lost in the course: origin, table number, row (of the origin in a hashed sharded table, else here), cause -/
  lost : List (Nat × Nat × Nat × Nat) := []
  bytesPlanned : Nat := 0
  bytesDone : Nat := 0
  retries : Nat := 0
  failOrigin : Nat := 0
  failShard : Nat := 0
  /-- accelerator regions restored onto registrations here, by registration ID, and regions skipped -/
  regions : List Nat := []
  regionsSkipped : Nat := 0
  deriving DecidableEq, Repr

/-- An adoption (R368 to R373): the command that runs it, the course, and the rows not yet read, by table index and local row. -/
structure AdoptRun where
  wait : Waiter
  mapId : Nat
  courseId : Nat
  step : Nat
  timeoutMs : Nat
  /-- course engine counter at its start, and the highest step applied here then -/
  started : Nat
  highStep : Nat := 0
  todo : List (Nat × Nat) := []
  /-- failed reads of rows still to be read (R353) -/
  failed : List ((Nat × Nat) × Nat) := []
  adopted : Nat := 0
  poisoned : Nat := 0
  /-- a value of the command was clamped (R34) -/
  clamped : Bool := false
  deriving DecidableEq, Repr

/-- Shard maps, restore, adoption and liveness. -/
structure Elastic where
  active : Option ShardMap := none
  loading : Option ShardMap := none
  restore : Option RestoreRun := none
  nextRestore : Nat := 1
  adopt : Option AdoptRun := none
  /-- neighbours in the fence tree: device index and course engine counter when LIVENESS last arrived (R367) -/
  heard : List (Nat × Nat) := []
  /-- members of a child's subtree, as its LIVENESS named them -/
  below : List (Nat × List Nat) := []
  /-- devices treated as failed under R40 -/
  lost : List Nat := []
  deriving DecidableEq, Repr

/-! ### Storage service (chapter 10) -/

/-- One leg of a namespace (R446, R447, R452 to R456). A local leg's contents are kept by their place on its SSDs; on an encrypted namespace
they are ciphertext. -/
structure Leg where
  /-- 1 local, 2 remote -/
  kind : Nat := 1
  /-- SSD indices of a local leg, and the extents it takes: SSD and extent -/
  ssds : List Nat := []
  extents : List (Nat × Nat) := []
  /-- GRT connection and byte offset of a remote leg -/
  conn : Nat := 0
  offset : Nat := 0
  /-- 0 IN_SYNC, 1 RESYNCING, 2 FAILED -/
  state : Nat := 0
  /-- bytes resynced so far -/
  copied : Nat := 0
  /-- contents by `legKey`, in canonical form, each byte as it differs from its extent's fill; an unlisted byte reads as the fill (R451) -/
  cells : List Host.Cell := []
  /-- extents of the leg, by number, that an overwrite has filled, with the 32-bit pattern; any other is filled with zeros (R466) -/
  fills : List (Nat × Nat) := []
  /-- it failed while another leg was in sync, so its contents are out of date -/
  stale : Bool := false
  deriving DecidableEq, Repr

/-- A record of an atomic write's journal (R462): the operation that wrote it, its first block, its data as the legs hold it, the CRC-32C of its
header, and whether both copies are durable. -/
structure JRec where
  seq : Nat
  op : Nat
  first : Nat
  data : Bytes
  crc : Nat := 0
  durable : Bool := false
  deriving DecidableEq, Repr

/-- Progress of Sanitize or Format NVM on a namespace (R465): state code, what is done, and where it stands. -/
structure Sanitize where
  state : Nat := 0
  /-- SANACT 2 block erase, 3 overwrite, 4 crypto erase; 0 none (Format without erase) -/
  action : Nat := 0
  format : Bool := false
  /-- LBA format of a Format -/
  lbaf : Nat := 0
  extent : Nat := 0
  pass : Nat := 1
  passes : Nat := 1
  pattern : Nat := 0
  invert : Bool := false
  seq : Nat := 0
  /-- command that a Format completes: controller, submission queue and command identifier -/
  fn : Nat := 0
  cid : Nat := 0
  /-- a crypto erase stands until keys are provisioned again (R468) -/
  held : Bool := false
  deriving DecidableEq, Repr

/-- A namespace (R446 to R457). -/
structure Ns where
  /-- capacity in bytes -/
  bytes : Nat := 0
  /-- controller it is attached to, by FUNCTION_ID; at most one (R451) -/
  attached : List Nat := []
  lbaFormat : Nat := 0
  atomic : Bool := false
  encrypted : Bool := false
  stripe : Nat := 17
  key : Nat := 0
  journalA : Nat := 0
  journalB : Nat := 0
  journalMib : Nat := 0
  legs : List Leg := []
  /-- journal SSDs that have failed, the records not retired, oldest first, and the next sequence number -/
  journalFailed : List Nat := []
  journal : List JRec := []
  journalSeq : Nat := 0
  /-- dirty-region bitmap: 1 MiB regions (R455) -/
  dirty : List Nat := []
  /-- blocks of an encrypted namespace written since they were last deallocated: these hold ciphertext (R456) -/
  mapped : List Nat := []
  san : Sanitize := {}
  deriving DecidableEq, Repr

/-- An NVMe submission queue (R442, R444): its completion queue, ring and the entries visible and not yet fetched. -/
structure NSq where
  cq : Nat
  base : Nat
  size : Nat
  head : Nat := 0
  tail : Nat := 0
  unread : List (Nat × NvmeCmd × NvmeIo) := []
  deriving DecidableEq, Repr

/-- An NVMe completion queue: its ring, interrupt, producer and phase, the host's head, and the entries reserved or not yet consumed. -/
structure NCq where
  base : Nat
  size : Nat
  ien : Bool := false
  vector : Nat := 0
  prod : Nat := 0
  pass : Bool := true
  head : Nat := 0
  used : Nat := 0
  deriving DecidableEq, Repr

/-- A Set Features to PS3 or PS4 under way (R472). -/
structure PsEntry where
  cid : Nat
  target : Nat
  waited : Bool := false
  deriving DecidableEq, Repr

/-- A completion held while the PF is in D1 or D3hot (R423), with the data its command writes. -/
structure NvmeHeld where
  sq : Nat
  cid : Nat
  status : Nat
  dw0 : Nat := 0
  writes : List (Nat × Bytes) := []
  deriving DecidableEq, Repr

/-- An NVM Express controller, by FUNCTION_ID (R436 to R445, R471 to R475). Features hold the values NVM Express gives at a reset
where the manual states none (log 51). -/
structure Nvme where
  enabled : Bool := false
  sqs : List (Nat × NSq) := []
  cqs : List (Nat × NCq) := []
  /-- submission queue served last -/
  turn : Nat := 0
  /-- power state in force, the last operational one, and an entry under way -/
  ps : Nat := 0
  lastOp : Nat := 0
  psEntry : Option PsEntry := none
  /-- features 0x01, 0x07 (granted queue pairs), 0x08, 0x09 (vectors with coalescing disabled), 0x0A and 0x0B -/
  arb : Nat := 3
  queues : Nat := 0
  coalesce : Nat := 0
  noCoalesce : List Nat := []
  awn : Nat := 0
  asyncMask : Nat := 0
  /-- Asynchronous Event Requests outstanding, events waiting for one, and event types masked until their log is read -/
  aers : List Nat := []
  events : List Nat := []
  masked : List Nat := []
  changed : List Nat := []
  /-- completions not yet signalled, by interrupt vector -/
  coalesced : List (Nat × Nat) := []
  /-- Sanitize Status log: 0 never, 1 success, 2 in progress, 3 failed -/
  sanStatus : Nat := 0
  /-- a Sanitize or Format command that waits for the commands fetched before it (R467): opcode and command -/
  sanWait : Option (Nat × NvmeCmd) := none
  held : List NvmeHeld := []
  deriving DecidableEq, Repr

/-- Where an I/O command stands. -/
inductive NvmePhase where
  /-- waiting for a free range-lock entry of its function (R460) -/
  | entry
  /-- holding an entry, waiting behind a conflicting one (R459) -/
  | lock
  /-- an atomic write that waits for room in the journal (R463) -/
  | room
  /-- its journal record is being made durable -/
  | journal
  /-- its completion is posted, and its data is being written in place -/
  | place
  /-- a Flush that waits for earlier writes -/
  | flush
  deriving DecidableEq, Repr

/-- An I/O command in progress, or a piece of a resync, in the order of arrival at the lock table (R458 to R463). -/
structure NvmeOp where
  id : Nat
  fn : Nat
  /-- the function's generation when the command was fetched (R38) -/
  gen : Nat := 0
  sq : Nat
  opcode : Nat
  cmd : NvmeCmd
  io : NvmeIo
  /-- the LBA range it holds or asks for: first block and count -/
  first : Nat := 0
  count : Nat := 0
  write : Bool := false
  phase : NvmePhase
  /-- its completion has been posted, or is to be discarded (R474) -/
  posted : Bool := false
  /-- it waited at the lock table -/
  waited : Bool := false
  /-- ranges of a Dataset Management still to come -/
  ranges : List (Nat × Nat) := []
  /-- it holds an entry of the recovery reserve (R454, R477): the leg that a resync piece copies to -/
  resync : Option Nat := none
  deriving DecidableEq, Repr

/-- The storage service. -/
structure Sto where
  ns : List (Nat × Ns) := []
  ctrls : List (Nat × Nvme) := []
  ops : List NvmeOp := []
  nextOp : Nat := 0
  /-- SSD indices that have failed -/
  failedSsds : List Nat := []
  deriving DecidableEq, Repr

/-! ### Packet path (chapter 11) -/

/-- The addresses that packets of a function's connections carry, from its identity (R408, R421): MAC, VLAN ID (0: none), and IP. -/
structure SourceAddr where
  mac : Nat := 0
  vlan : Nat := 0
  v6 : Bool := false
  ip : Nat := 0
  deriving DecidableEq, Repr

/-- Where a frame in an egress queue comes from: a NIC transmit descriptor (function, its generation, queue pair, ring index, IRQ), a FORWARD
verdict, or a connection of the transport. -/
inductive EgSrc where
  | nic (fn gen qp index : Nat) (irq : Bool)
  | forward
  | grt (conn : Nat)
  deriving DecidableEq, Repr

/-- A frame in an egress queue: its bytes without FCS (empty for a transport packet), FRAME_LEN, and the port's counter when it was queued. -/
structure EgFrame where
  src : EgSrc
  bytes : Bytes := []
  pkt : Option GrtPkt := none
  len : Nat
  since : Nat := 0
  deriving DecidableEq, Repr

/-- A gate list: BASE_TIME and the entries, DURATION_NS and GATE_MASK (R524). -/
structure GateList where
  base : Nat := 0
  entries : List (Nat × Nat) := []
  deriving DecidableEq, Repr

/-- A sub-port (R479, R509, R521, R524). -/
structure SubPort where
  up : Bool := false
  /-- a link-up has been seen since cold reset or the last accepted PORT_CONFIG -/
  seen : Bool := false
  /-- a link-up has been seen since the last cold reset or MODE change: the next one is a retrain (R332) -/
  trainedOnce : Bool := false
  /-- 0 NORMAL, 1 STARTUP, 2 TEST, 3 RECOVERY -/
  svc : Nat := 0
  downtrained : Bool := false
  /-- Gb/s, and the lanes in use -/
  speed : Nat := 0
  laneMask : Nat := 0
  partner : Bool := false
  /-- corrected codewords since the last link-up -/
  fec : Nat := 0
  /-- its frames are held after a link-down (R486) -/
  hold : Bool := false
  /-- TC0 to TC7 -/
  queues : List (List EgFrame) := [[], [], [], [], [], [], [], []]
  /-- list in force, and the list to come with the time at which it takes effect (R525) -/
  gates : GateList := {}
  nextGates : Option (GateList × Nat) := none
  deriving DecidableEq, Repr

/-- A lane of an Ethernet port (R483 to R485). -/
structure EnLane where
  trained : Bool := false
  inverted : Bool := false
  found : Bool := false
  logical : Nat
  /-- failed trainings in a row -/
  fails : Nat := 0
  deriving DecidableEq, Repr

/-- An Ethernet port (R481). -/
structure EnPort where
  mode : Nat := 1
  service : Nat := 0
  maxFrame : Nat := 9728
  an : Nat := 3
  laneOrder : Nat := 0
  startupMs : Nat := 1000
  recoveryMs : Nat := 5000
  downtrain : Bool := true
  dscp : List Nat := [0, 8, 16, 24, 32, 40, 48, 56]
  lanes : List EnLane := [{ logical := 0 }, { logical := 1 }, { logical := 2 }, { logical := 3 }]
  subs : List SubPort := [{}, {}, {}, {}]
  deriving DecidableEq, Repr

/-- A node of the parse graph (R491). -/
structure ParseNode where
  hid : Nat := 0xFF
  valid : Bool := false
  selBit : Nat := 0
  selWidth : Nat := 0
  advMode : Nat := 0
  advFixed : Nat := 1
  advBit : Nat := 0
  advWidth : Nat := 1
  advScale : Nat := 1
  advAdd : Nat := 0
  dflt : Nat := 0
  /-- VALUE and next-node word -/
  entries : List (Nat × Nat) := []
  deriving DecidableEq, Repr

/-- A field reference (R498). -/
structure FieldRef where
  source : Nat := 0
  hid : Nat := 0
  inst : Nat := 0
  bitOff : Nat := 0
  width : Nat := 1
  deriving DecidableEq, Repr

/-- An action (R499). -/
structure ClsAction where
  set : Nat := 0
  verdict : Nat := 0
  tc : Nat := 0
  colour : Nat := 0
  dest : Nat := 0
  policer : Nat := 0
  profile : Nat := 0xFF
  next : Nat := 0
  userOff : Nat := 0
  userLen : Nat := 0
  userVal : Bytes := []
  deriving DecidableEq, Repr

/-- An entry of a classification table. -/
structure ClsEntry where
  prio : Nat := 0
  plen : Nat := 0
  key : Bytes
  mask : Bytes := []
  action : ClsAction
  deriving DecidableEq, Repr

/-- A classification table: KIND 0 disabled, 1 exact, 2 ternary, 3 longest prefix; entries in the order of insertion (R498 to R503). -/
structure ClsTable where
  kind : Nat := 0
  fields : List FieldRef := []
  capacity : Nat := 0
  entries : List ClsEntry := []
  miss : Option ClsAction := none
  deriving DecidableEq, Repr

/-- A policer: rates in Mb/s, bursts in bytes, bucket levels in 1/8000 byte, and the packet path's counter at which they held (R508). -/
structure Policer where
  aware : Bool := false
  enable : Bool := false
  cir : Nat := 1
  cbs : Nat := 10240
  pir : Nat := 1
  pbs : Nat := 10240
  c : Nat := 0
  p : Nat := 0
  since : Nat := 0
  deriving DecidableEq, Repr

/-- A shaper: rate in Mb/s, burst in bytes, QUEUE_LIMIT of an egress queue, bucket level in 1/8000 byte and the counter at which it held, and
the function whose rate limiter it took (R522, R523). -/
structure Shaper where
  enable : Bool := false
  rate : Nat := 1
  burst : Nat := 10240
  limit : Nat := 4194304
  level : Int := 0
  since : Nat := 0
  took : Option Nat := none
  deriving DecidableEq, Repr

/-- A spread profile (R514 to R516). -/
structure Profile where
  base : Nat := 0
  sizeLog2 : Nat := 0
  fields : List FieldRef := []
  key : Bytes := []
  owner : Nat := 0
  /-- profile 0 as loaded at cold reset: it spreads over the queue pairs of the function (R506) -/
  dflt : Bool := false
  deriving DecidableEq, Repr

/-- A completion of a NIC queue pair before GENERATION and PHASE are put in (R519). -/
structure NicCpl where
  index : Nat
  len : Nat
  flags : Nat
  tci : Nat
  hash : Nat
  irq : Bool
  deriving DecidableEq, Repr

/-- A NIC queue pair (R518, R519): its rings, the descriptors visible to the part and not yet taken, and the completions that wait for room. -/
structure NicQp where
  gen : Nat
  port : Nat
  tc : Nat
  tx : Nat
  rx : Nat
  cq : Nat
  txLog2 : Nat
  rxLog2 : Nat
  cqLog2 : Nat
  vector : Nat
  page : Nat
  txTail : Nat := 0
  txHead : Nat := 0
  /-- descriptor, the frame bytes its buffer holds (none: the access was refused), and the port's counter when it became visible -/
  txq : List (TxDesc × Option Bytes × Nat) := []
  rxTail : Nat := 0
  rxHead : Nat := 0
  rxq : List RxDesc := []
  cqHead : Nat := 0
  cqProd : Nat := 0
  cqPass : Bool := true
  cqUsed : Nat := 0
  heldCpl : List NicCpl := []
  deriving DecidableEq, Repr

/-- A queue sampler (R528, R529). -/
structure Sampler where
  enable : Bool := false
  kind : Nat := 0
  port : Nat := 0
  fn : Nat := 0
  first : Nat := 0
  count : Nat := 1
  interval : Nat := 500
  ring : Nat := 0
  log2 : Nat := 6
  issuer : Nat := 0
  prod : Nat := 0
  pass : Bool := true
  deriving DecidableEq, Repr

/-- The default parse graph of nodes 0 to 31 (R495): the manual names the headers and not the nodes, so their numbers and header IDs are the
model's (log 60). Next-node words: END 0x8000, VALID 0x4000. -/
def defaultNodes : List (Nat × ParseNode) :=
  let l3 : List (Nat × Nat) := [(0x8100, 0x4001), (0x88A8, 0x4001), (0x0800, 0x4002), (0x86DD, 0x4003)]
  let l4 : List (Nat × Nat) := [(17, 0x4004), (6, 0x4005), (0, 0x4008), (43, 0x4008), (60, 0x4008), (44, 0x4009), (51, 0x400A)]
  [(0, { hid := 1, valid := true, selBit := 96, selWidth := 16, advFixed := 14, dflt := 0x8000, entries := l3 }),
   (1, { hid := 2, valid := true, selBit := 16, selWidth := 16, advFixed := 4, dflt := 0x8000, entries := l3 }),
   (2, { hid := 3, valid := true, selBit := 72, selWidth := 8, advMode := 1, advBit := 4, advWidth := 4, advScale := 4, dflt := 0x8000,
         entries := [(17, 0x4004), (6, 0x4005)] }),
   (3, { hid := 4, valid := true, selBit := 48, selWidth := 8, advFixed := 40, dflt := 0x8000, entries := l4 }),
   (4, { hid := 5, valid := true, selBit := 16, selWidth := 16, advFixed := 8, dflt := 0x8000,
         entries := [(4791, 0x4006), (7142, 0x4007), (4789, 0x400B)] }),
   (5, { hid := 7, valid := true, advMode := 1, advBit := 96, advWidth := 4, advScale := 4, dflt := 0x8000 }),
   (6, { hid := 6, valid := true, advFixed := 12, dflt := 0x8000 }),
   (7, { hid := 9, valid := true, advFixed := 24, dflt := 0x8000 }),
   (8, { hid := 10, valid := true, selWidth := 8, advMode := 1, advBit := 8, advWidth := 8, advScale := 8, advAdd := 8, dflt := 0x8000,
         entries := l4 }),
   (9, { hid := 10, valid := true, selWidth := 8, advFixed := 8, dflt := 0x8000, entries := l4 }),
   (10, { hid := 10, valid := true, selWidth := 8, advMode := 1, advBit := 8, advWidth := 8, advScale := 4, advAdd := 8, dflt := 0x8000,
          entries := l4 }),
   (11, { hid := 8, valid := true, advFixed := 8, dflt := 0x4000 })]

/-- The classification tables at cold reset (R506): T0 keys on the UDP destination port and T7 holds the miss action. -/
def defaultTables : List (Nat × ClsTable) :=
  let grt : ClsAction := { set := 3, verdict := 2, tc := 6, next := 8 }
  [(0, { kind := 1, fields := [{ hid := 5, bitOff := 16, width := 16 }], capacity := 2,
         entries := [{ key := [0x12, 0xB7], action := grt }, { key := [0x1B, 0xE6], action := grt }] }),
   (7, { kind := 1, fields := [{ hid := 1, width := 8 }], miss := some { set := 0x15, verdict := 1, dest := 2, profile := 0 } })]

/-- The packet path. -/
structure Packet where
  /-- EN0 to EN7; an unlisted one is as at cold reset -/
  en : List (Nat × EnPort) := []
  nodes : List (Nat × ParseNode) := defaultNodes
  tables : List (Nat × ClsTable) := defaultTables
  policers : List (Nat × Policer) := []
  /-- key: OBJECT_KIND and object: port × 8 + TC, FUNCTION_ID × 65,536 + queue pair, or connection handle -/
  shapers : List ((Nat × Nat) × Shaper) := []
  /-- entries that were written; an unlisted one is 0 -/
  indir : List (Nat × Nat) := []
  profiles : List (Nat × Profile) := [(0, { sizeLog2 := 12, dflt := true })]
  /-- key: FUNCTION_ID × 65,536 + queue pair -/
  qps : List (Nat × NicQp) := []
  samplers : List (Nat × Sampler) := []
  /-- frames given to the steward in the present second, and its start (R505) -/
  stewardFrom : Nat := 0
  stewardCount : Nat := 0
  /-- frames held at a paused port: sub-port and bytes (R97) -/
  ingress : List (Nat × Bytes) := []
  /-- frames and packets that egress queues did not take in during a pause, with their sub-port and TC, oldest first (R97) -/
  egressHeld : List (Nat × Nat × EgFrame) := []
  deriving DecidableEq, Repr

/-! ### Gitus Reliable Transport (chapter 12) -/

/-- A packet sent and not yet covered by CUM_PSN (R556, R557). -/
structure TxPkt where
  pkt : GrtPkt
  msn : Nat
  /-- transport counter at the last transmission -/
  sentAt : Nat := 0
  /-- retransmissions that count toward RETRY_LIMIT, and the timeout in force in µs -/
  tries : Nat := 0
  rto : Nat := 0
  /-- an ACK has shown it -/
  sacked : Bool := false
  /-- presumed lost, to be sent again -/
  lost : Bool := false
  /-- RETRY_AFTER_US of a refusal it waits out; a resend after one does not count toward RETRY_LIMIT -/
  wait : Option Nat := none
  refused : Bool := false
  deriving DecidableEq, Repr

/-- A work request of a connection (R541, R553): its data, its MSN once sent, how far its packets are made, the response packets placed, and
its status once it is done. -/
structure GrtReq where
  wr : GrtWr
  data : Bytes := []
  msn : Option Nat := none
  off : Nat := 0
  sentAll : Bool := false
  got : List Nat := []
  last : Option Nat := none
  done : Option Nat := none
  deriving DecidableEq, Repr

/-- A tracking entry (R547, R548, R552). -/
structure GrtEntry where
  msn : Nat
  /-- packet indices that have arrived -/
  got : List Nat := []
  /-- packet count and length, once the LAST packet has arrived -/
  count : Option Nat := none
  length : Nat := 0
  notify : Option Nat := none
  /-- PERSIST packets whose namespace write is not yet durable -/
  waiting : Nat := 0
  failed : Bool := false
  authFail : Bool := false
  deriving DecidableEq, Repr

/-- A response to a READ_REQ that is being sent: the request's MSN, its data and how far it is made. -/
structure GrtResp where
  msn : Nat
  data : Bytes
  off : Nat := 0
  sealed_ : Bool := false
  deriving DecidableEq, Repr

/-- A connection (R532 to R560). -/
structure Conn where
  owner : Nat
  gen : Nat := 0
  endpoint : Nat := 0xFFFF
  roce : Bool := false
  bind : Bool := false
  v6 : Bool := false
  wq : Nat := 0
  port : Nat := 0
  tc : Nat := 0
  pmtu : Nat := 0
  paths : Nat := 0
  versionMax : Nat := 2
  retryLimit : Nat := 8
  recvCtr : Nat := 0xFF
  peerIp : Nat := 0
  peerMac : Nat := 0
  pathBase : Nat := 0xC000
  peerConn : Nat := 0
  initPsn : Nat := 0
  rtoMin : Nat := 50
  rtoMax : Nat := 100000
  target : Nat := 20000
  cwndMax : Nat := 4194304
  /-- 0 CONNECTING, 1 READY, 2 ERROR -/
  state : Nat := 0
  version : Nat := 0
  /-- sending side: next PSN, next MSN (log 64), next entropy, packets in flight, window, smoothed RTT and last decrease in ns -/
  nextPsn : Nat := 0
  nextMsn : Nat := 1
  nextPath : Nat := 0
  flight : List TxPkt := []
  cwnd : Nat := 0
  srtt : Nat := 0
  lastDec : Nat := 0
  reqs : List GrtReq := []
  resps : List GrtResp := []
  retx : Nat := 0
  refusedResends : Nat := 0
  /-- smoothed RTT by entropy, and excluded entropies with the time at which each returns, the one excluded longest first -/
  pathRtt : List (Nat × Nat) := []
  excluded : List (Nat × Nat) := []
  /-- receiving side: CUM_PSN, PSNs beyond it that have arrived, tracking entries, CMSN, data packets not yet acknowledged, and TIMESTAMP and PATH of the
  newest packet -/
  cum : Nat := 0
  seen : List Nat := []
  entries : List GrtEntry := []
  cmsn : Nat := 0
  unacked : Nat := 0
  ackDue : Bool := false
  newTs : Nat := 0
  newPath : Nat := 0
  /-- present RNR delay in µs (R559) -/
  rnr : Nat := 0
  deriving DecidableEq, Repr

/-- A completion before GENERATION and PHASE are put in (R542). -/
structure GrtCpl where
  tag : Nat
  conn : Nat
  length : Nat
  status : Nat
  receive : Bool
  deriving DecidableEq, Repr

/-- A work queue (R535, R541, R561, R562). -/
structure Wq where
  owner : Nat
  gen : Nat
  endpoint : Nat
  sq : Nat
  cq : Nat
  sqLog2 : Nat
  cqLog2 : Nat
  vector : Nat
  page : Nat
  tail : Nat := 0
  unread : List (GrtWr × Option Bytes) := []
  /-- trigger counters; an unlisted one is 0 -/
  ctrs : List (Nat × Nat) := []
  parked : List (GrtWr × Option Bytes) := []
  cqHead : Nat := 0
  cqProd : Nat := 0
  cqPass : Bool := true
  cqUsed : Nat := 0
  heldCpl : List GrtCpl := []
  deriving DecidableEq, Repr

/-- A registration (R563, R566). -/
structure Mr where
  owner : Nat
  /-- the owner's generation (R38) -/
  gen : Nat := 0
  endpoint : Nat
  kind : Nat
  access : Nat
  conn : Nat
  addr : Nat
  length : Nat
  nsid : Nat
  handle : Nat
  revoking : Bool := false
  deriving DecidableEq, Repr

/-- The transport. -/
structure Grt where
  /-- connections by handle -/
  conns : List (Nat × Conn) := []
  wqs : List (Nat × Wq) := []
  /-- registrations by slot -/
  mrs : List (Nat × Mr) := []
  /-- reuse counts of released connection slots and of released registration slots -/
  connReuse : List (Nat × Nat) := []
  mrReuse : List (Nat × Nat) := []
  /-- devices of the domain that the part has connections to, in the order they were made, with the version each runs at (R33, R532) -/
  domain : List (Nat × Nat) := []
  deriving DecidableEq, Repr

/-! ### Security (chapter 13) -/

/-- A provisioned key (R572, R593): its kind (1 namespace, 2 transport, 3 domain course, 4 migration), the function of a transport key, and
its material; none: the key is empty. -/
structure Key where
  kind : Nat
  owner : Nat := 0
  material : Option Nat := none
  /-- what the sealed copy in SPI flash still holds where a parity failure erased the key from the vault (R144, R575) -/
  sealedCopy : Option Nat := none
  deriving DecidableEq, Repr

/-- An SPDM conversation on a transport (R584): 0 and 1 the DOE mailboxes of PF0 of the host ports, 2 MCTP. -/
structure Spdm where
  mailbox : Nat
  peer : Nat := 0
  /-- 0 nothing, 1 version given, 2 capabilities given, 3 algorithms agreed -/
  stage : Nat := 0
  version : Nat := 0
  /-- sessions: identifier, and whether FINISH has established it -/
  sessions : List (Nat × Bool) := []
  deriving DecidableEq, Repr

/-- A selective IDE stream of a host port (R612 to R614): its keys loaded, and whether it is in Secure state. -/
structure IdeStream where
  hp : Nat
  stream : Nat
  keys : Nat := 0
  secure : Bool := false
  deriving DecidableEq, Repr

/-- Keys, lifecycle and alarms of the cipher engine and the vault. The fuse fields have no value stated for a new part (log 70). -/
structure Sec where
  /-- provisioned keys by handle, the one provisioned last first (R599) -/
  keys : List (Nat × Key) := []
  /-- key cache of the cipher engine: the base key and the label of each working key held, newest first (R600) -/
  keyCache : List (Nat × Bytes) := []
  /-- reuse counts of released slots, by kind × 2^14 + slot -/
  reuse : List (Nat × Nat) := []
  /-- fuses: life-cycle state, owner changes, least SVN, epoch bits burned, revoked firmware key slots -/
  lifecycle : Nat := 0
  ownerChanges : Nat := 0
  svnMin : Nat := 0
  epoch : Nat := 0
  revoked : Nat := 0
  /-- the Alias key, the DeviceID key and the ProvisionID key are in the vault (R572) -/
  identity : Bool := false
  deviceKey : Bool := false
  provisionKey : Bool := false
  /-- the Alias key as last derived (R582) -/
  alias_ : Nat := 0
  /-- CX_ALARM[4:0] -/
  alarm : Nat := 0
  challenge : Option Nat := none
  /-- CX_JTAG.LEVEL -/
  jtag : Nat := 0
  /-- sealed copies of keys in SPI flash await erasure after an alarm (R608) -/
  sealedCopies : Bool := false
  spdm : List Spdm := []
  ide : List IdeStream := []
  deriving DecidableEq, Repr

/-! ### Start-up and firmware (chapter 15) -/

/-- The boot record of R659, the copy in force. -/
structure BootRec where
  activeSlot : Nat := 0
  /-- 0 A, 1 B, 0xFF none -/
  pendingSlot : Nat := 0xFF
  sequence : Nat := 0
  /-- 0 EMPTY, 1 LOADING, 2 VALID, 3 INVALID; the manual gives no first value (log 8) -/
  slotA : Nat := 0
  slotB : Nat := 0
  failedStarts : Nat := 0
  threshold : Nat := 3
  /-- boot source 0 to 3, or 0xFF for none -/
  sourceOverride : Nat := 0xFF
  svnCommit : Bool := false
  trial : Bool := false
  deriving DecidableEq, Repr

/-- A start record (R669). -/
structure StartRec where
  seq : Nat := 0
  kind : Nat := 0
  outcome : Nat := 0
  reason : Nat := 0
  slot : Nat := 0xFF
  fwVersion : Nat := 0
  svn : Nat := 0
  source : Nat := 0
  straps : Nat := 0
  durationMs : Nat := 0
  fatBlock : Nat := 0xFFFF
  fatSource : Nat := 0
  detail : Nat := 0
  deriving DecidableEq, Repr

/-- The fields of an image header that the part keeps (R660). -/
structure ImageInfo where
  fwVersion : Nat := 0
  svn : Nat := 0
  revokeMask : Nat := 0
  /-- highest ICP major, its minor, and the capability bits that the image implements; as shipped 3.2 and bits 0 to 5 (R3, R67) -/
  icpMajor : Nat := 3
  icpMinor : Nat := 2
  liveVersion : Nat := 0
  icpCaps : Nat := 0x3F
  buildId : Nat := 0
  /-- fused key slot that signed it (R578); 4: none -/
  keySlot : Nat := 4
  deriving DecidableEq, Repr

/-- A flash slot (R670, R671): the bytes received and the image length. -/
structure FwSlot where
  image : Bytes := []
  imageLen : Nat := 0
  deriving DecidableEq, Repr

/-- An FW_ACTIVATE deferred or under way (R672 to R678). -/
structure Activation where
  via : Via
  pkt : IcpPkt
  slot : Nat
  mode : Nat
  flags : Nat
  /-- deferred (R678); otherwise under way -/
  deferred : Bool
  /-- milliseconds spent deferred -/
  deferredMs : Nat := 0
  /-- detail of the emergency -/
  detail : Nat := 0
  /-- intake pause of a live activation in µs -/
  pauseUs : Nat := 0
  /-- steward counter value at which the pause began -/
  pauseFrom : Nat := 0
  deriving DecidableEq, Repr

/-- Start-up state. -/
structure Boot where
  /-- active steward cores, and the spare one while it remains (R45) -/
  stewards : List Nat := [0, 1, 2]
  stewardSpare : Option Nat := some 3
  /-- PWR_OK low or SYS_RST_N asserted: the part is in reset -/
  inReset : Bool := true
  /-- STAGE of R669: 0 ROM, 1 LOADING, 2 STARTING, 3 COMPLETE, 4 FOOTING -/
  stage : Nat := 0
  footingReason : Nat := 0
  record : BootRec := {}
  /-- FOOTING_THRESHOLD in effect, loaded at event 3 of a start (R665) -/
  threshold : Nat := 3
  slotA : FwSlot := {}
  slotB : FwSlot := {}
  /-- running image: its header fields, and its slot (0 A, 1 B, 2 network, 0xFF none) -/
  running : ImageInfo := {}
  runningSlot : Nat := 0xFF
  /-- boot source in effect and whether the boot record set it -/
  source : Nat := 0
  overridden : Bool := false
  /-- slots or sources still to try in this start (0 A, 1 B, 2 network) -/
  trials : List Nat := []
  /-- start records, newest first, at most eight (R669) -/
  records : List StartRec := []
  startCount : Nat := 0
  /-- block and source of the last FAT cleared by a reset (R630) -/
  fatBlock : Nat := 0xFFFF
  fatSource : Nat := 0
  /-- the start watchdog runs (R654), and the always-on counter at time zero -/
  watchdog : Bool := false
  startFrom : Nat := 0
  startMs : Nat := 0
  /-- detail of the last image tried (R669) -/
  imageDetail : Nat := 0
  act : Option Activation := none
  /-- final status, detail, mode and pause of the last activation (R679) -/
  lastStatus : Nat := 0
  lastDetail : Nat := 0
  lastMode : Nat := 0
  lastPauseUs : Nat := 0
  deriving DecidableEq, Repr

/-! ### Power and thermal control (chapter 16) -/

/-- Operating state of an island: for a cluster its point P0 to P5 by number, for another island its clock. The manual gives no first point (log 9). -/
structure IslandPow where
  point : Nat := 5
  mhz : Nat := 400
  /-- highest point that the temperature loop and the package-power loop allow (0: P0), and the same bounds in MHz for an engine -/
  ceiling : Nat := 0
  capPoint : Nat := 0
  ceilingMhz : Nat := 2000
  capMhz : Nat := 2000
  /-- point firmware last set, the bound of the fallback governor -/
  fwPoint : Nat := 0
  /-- held by the hardware throttle (R688), and whether a sensor is still at or above 98 °C -/
  held : Bool := false
  hot : Bool := false
  /-- consecutive 10 ms samples at least 3 °C below the target (R687) -/
  cool : Nat := 0
  deriving DecidableEq, Repr

/-- Power and thermal state. -/
structure Power where
  islands : List (Nat × IslandPow) := []
  capW : Nat := 600
  tempC : Nat := 90
  /-- a cap accepted since the last period of the package-power loop (R695) -/
  nextCap : Option Nat := none
  /-- the pair persisted in the board record (R695) -/
  persisted : Option (Nat × Nat) := none
  powerMw : Nat := 0
  /-- hottest sensor in units of 1/8 °C, and its island -/
  hottest : Nat := 0
  hottestIsland : Nat := 0
  limiter : Bool := false
  /-- engagements in the present period of the package-power loop (R690) -/
  engaged : Nat := 0
  fallback : Bool := true
  capUnmet : Bool := false
  /-- THERMTRIP_N asserted; the trip of the previous power-on -/
  tripped : Bool := false
  trippedIsland : Nat := 0
  trippedLast : Bool := false
  diodeState : Nat := 0
  diodeTemp : Nat := 0
  throttlePin : Bool := false
  standby : Bool := false
  vddq : Nat := 0
  vddk : Nat := 0
  deriving DecidableEq, Repr

/-! ### Pins and straps (chapter 17) -/

/-- A conditioned input (R720, R721). -/
structure Input where
  /-- active after conditioning -/
  active : Bool := false
  /-- always-on counter value of the last recorded event, and of the last change -/
  lastEvent : Nat := 0
  recorded : Bool := false
  since : Nat := 0
  /-- a re-read is due at the end of the 10 µs window -/
  due : Bool := false
  stuck : Bool := false
  deriving DecidableEq, Repr

/-- Straps, overrides, conditioned inputs and GPIO. -/
structure Pins where
  /-- strap balls at the last sampling, and the merged latched value (R713); before the first sampling they read 0 (log 10) -/
  strapPins : Nat := 0
  latched : Nat := 0
  /-- override of the board record -/
  nextMask : Nat := 0
  nextValue : Nat := 0
  /-- the override in force at the last sampling -/
  mask : Nat := 0
  /-- inputs 0 to 22: PBi_PERST_N, TAMPER_N, THROTTLE_N, JTAG_TRST_N -/
  inputs : List (Nat × Input) := []
  /-- level of each GPIO ball -/
  gpioIn : Nat := 0
  deriving DecidableEq, Repr

/-! ### What the part sends out (the model's own log) -/

/-- A sideband pin the part drives (chapter 17). -/
inductive Pin where
  | faultN
  | alertN
  | wakeN
  | thermtripN
  | gpio (n : Nat)
  deriving DecidableEq, Repr

/-- A message to another device of the domain, over connections that the part manages (R281, R298, R304, R329, R333, R367). -/
inductive DomainMsg where
  | courseOpen (id step label format trigger : Nat)
  | openRefused (id : Nat)
  | fenceUp (id : Nat) (step : Option Nat)
  | fenceRelease (id : Nat)
  | commitUp (id : Nat) (entries : List MemberEntry)
  | commitRelease (id : Nat) (manifest : Bytes)
  | abort (id detail : Nat)
  | earlyRequest (counter rate : Nat)
  | liveness (device : Nat) (step : Option Nat) (adopting : Bool) (format grt : Nat) (below : List Nat)
  | memberFailed (devices : List Nat)
  | lostReport (devices : List Nat)
  | index (queue seq position domainId op flags step client lr index : Nat) (data : Bytes)
  | indexResult (token status flags : Nat) (data : Bytes)
  deriving DecidableEq, Repr

/-- What the part sends to the world outside it, in the order it leaves. -/
inductive Out where
  /-- an ICP reply on the transport that carried the command -/
  | reply (via : Via) (r : IcpReply)
  /-- a UDP datagram to a management peer, and an MCTP message to an endpoint: message type, vendor ID and the rest (R63, R65) -/
  | datagram (peer : Nat) (data : Bytes)
  | mctp (eid type vendor : Nat) (data : Bytes)
  /-- an MSI-X message of a function -/
  | msix (fn vec : Nat)
  /-- bytes written by DMA at an address of a function's or endpoint's memory, tagged with its generation (R42) -/
  | dma (fn gen addr : Nat) (data : Bytes)
  /-- a bit set by an AtomicOp in the dirty bitmap of an issuer, tagged with the issuer's generation (R42, R433) -/
  | dirtyBit (fn gen addr bit : Nat)
  /-- the value a memory or register read returns; poisoned: with the EP bit (R401) -/
  | readData (data : Bytes) (poisoned : Bool)
  /-- a memory request of a host port completes with Completer Abort (R728) -/
  | completerAbort (hp : Nat)
  /-- a memory request of a host port completes with Unsupported Request, and a configuration request to a function with Configuration Request Retry
  Status (R652) -/
  | unsupported (hp : Nat)
  | configRetry (fn : Nat)
  /-- an access to an unmapped DPA completes to its requester with an address error (R101) -/
  | addressError (dpa : Nat)
  /-- a pin driven active (true) or released -/
  | pin (p : Pin) (active : Bool)
  /-- a PME message of a PF (R424) -/
  | pme (fn : Nat)
  /-- a custody completion, on the completion ring of a queue pair -/
  | cqe (queue : Nat) (c : Cqe)
  /-- a message to a device of the domain by its index; index 0x10000 stands for every child in the fence tree -/
  | domain (dst : Nat) (m : DomainMsg)
  /-- bytes written to a destination's course area (R291) -/
  | dest (key off : Nat) (data : Bytes)
  /-- a frame sent on a sub-port, without FCS -/
  | frame (sub : Nat) (bytes : Bytes)
  /-- a packet of the transport sent on a sub-port: its connection, UDP source port and DSCP (R538, R544), its source addresses (R421), and its bytes on
  the wire (R539; none in RoCEv2 mode, whose headers are the InfiniBand specification's) -/
  | packet (sub conn source dscp : Nat) (addr : SourceAddr) (pkt : GrtPkt) (bytes : Bytes)
  /-- a frame given to steward firmware, and one handed to the transport (R505) -/
  | toSteward (sub : Nat) (bytes : Bytes)
  | toTransport (sub : Nat) (colour : Nat) (bytes : Bytes)
  /-- an SPDM response on a mailbox or MCTP: its code, its session, and its content (R584) -/
  | spdm (mailbox peer session code : Nat) (data : Bytes)
  /-- TLPs of an IDE stream delivered after their MAC was checked (R613) -/
  | tlps (hp stream : Nat) (data : List Bytes)
  /-- a record written to SPI flash or the board record -/
  | flash (what : String) (data : Bytes)
  deriving DecidableEq, Repr


/-- The state of the part. -/
structure State where
  /-- MODEL'S OWN: how many free values have been drawn (log 2) -/
  draw : Nat := 0
  /-- counters of the islands in nanoseconds, by island ID; an unlisted one reads 0 (R635) -/
  time : List (Nat × Nat) := []
  /-- MODEL'S OWN: what the part has sent out, oldest first (log 4) -/
  out : List Out := []
  /-- the commands that are waiting, first in, first out -/
  pending : List Instr := []
  /-- control and status registers by CSR offset; an unlisted one reads its reset value (R12, R13, R28) -/
  csr : List (Nat × CsrWord) := []
  /-- error headers by block index; an unlisted one reads its reset values (R620, R621) -/
  err : List (Nat × ErrHdr) := []
  /-- performance counters, key block index × 8 + n (R637) -/
  perf : List (Nat × PerfCtr) := []
  /-- telemetry beside the headers (R629 to R646) -/
  tel : Tel := {}
  /-- sessions, stage sets and waiting commands (R52 to R99) -/
  icp : Icp := {}
  /-- command and reply rings by FUNCTION_ID (R58, R66) -/
  rings : List (Nat × Ring) := []
  /-- functions by FUNCTION_ID (R38 to R42, R389 to R435) -/
  fns : List (Nat × Fn) := Fn.resetAll
  /-- port blocks, windows, aperture, queue region (R375 to R401) -/
  ports : Ports := {}
  /-- custody memory and on-chip banks (R100 to R146) -/
  mem : Mem := {}
  /-- start-up, flash slots, activation (R649 to R682) -/
  boot : Boot := {}
  /-- operating points, cap, temperatures (R683 to R698) -/
  pwr : Power := {}
  /-- straps and conditioned inputs (R699 to R726) -/
  pins : Pins := {}
  /-- tables, custody queue pairs, custom rules, forwarded indices (R243 to R289) -/
  tab : Tables := {}
  /-- course policy, the open course, regions, ledgers (R290 to R343) -/
  course : Course := {}
  /-- shard maps, restore, adoption, liveness (R344 to R374) -/
  elastic : Elastic := {}
  /-- kernels, items, threads, cores and clusters (R147 to R242) -/
  mason : Mason := {}
  /-- keys, fuses, alarms, attestation and IDE (R572 to R618) -/
  sec : Sec := {}
  /-- doorbell pages of NIC queue pairs and GRT work queues: FUNCTION_ID and page (R395) -/
  pages : List (Nat × Nat) := []
  /-- namespaces, controllers, range locks and journals (R436 to R478) -/
  sto : Sto := {}
  /-- connections, work queues, registrations (R532 to R571) -/
  grt : Grt := {}
  /-- Ethernet ports, parse graph, classification, policing, spreading, NIC queue pairs, egress queues (R479 to R531) -/
  pp : Packet := {}
  deriving DecidableEq, Repr

/-- Why the machine stops with a fault. No command of this part stops one: the spec gives every row an effect, and what it leaves
open is a free value. The type stays for the interface. -/
inductive Fault where
  /-- nothing raises it; safe -/
  | none
  deriving DecidableEq, Repr

/-- Why a command is refused. -/
inductive Refusal where
  /-- raised by the arm of a command that has no meaning yet; safe -/
  | notModelled (mnemonic : String)
  deriving DecidableEq, Repr

/-- The part right after cold reset, before its start sequence has run: every field at the value its declaration names. -/
def State.reset : State := {}


end Sys2Proof.Machine
end

