-- ==== Sys2Proof/Machine/Setters.lean ====
section
/-! DEFINITION. One update per field of the state. -/

namespace Sys2Proof.Machine

/-- the state with another draw -/
def State.setDraw (s : State) (v : Nat) : State := { s with draw := v }
/-- the state with another time -/
def State.setTime (s : State) (v : List (Nat × Nat)) : State := { s with time := v }
/-- the state with another out -/
def State.setOut (s : State) (v : List Out) : State := { s with out := v }
/-- the state with another pending -/
def State.setPending (s : State) (v : List Instr) : State := { s with pending := v }
/-- the state with another csr -/
def State.setCsr (s : State) (v : List (Nat × CsrWord)) : State := { s with csr := v }
/-- the state with another err -/
def State.setErr (s : State) (v : List (Nat × ErrHdr)) : State := { s with err := v }
/-- the state with another perf -/
def State.setPerf (s : State) (v : List (Nat × PerfCtr)) : State := { s with perf := v }
/-- the state with another tel -/
def State.setTel (s : State) (v : Tel) : State := { s with tel := v }
/-- the state with another icp -/
def State.setIcp (s : State) (v : Icp) : State := { s with icp := v }
/-- the state with another rings -/
def State.setRings (s : State) (v : List (Nat × Ring)) : State := { s with rings := v }
/-- the state with another fns -/
def State.setFns (s : State) (v : List (Nat × Fn)) : State := { s with fns := v }
/-- the state with another ports -/
def State.setPorts (s : State) (v : Ports) : State := { s with ports := v }
/-- the state with another mem -/
def State.setMem (s : State) (v : Mem) : State := { s with mem := v }
/-- the state with another boot -/
def State.setBoot (s : State) (v : Boot) : State := { s with boot := v }
/-- the state with another pwr -/
def State.setPwr (s : State) (v : Power) : State := { s with pwr := v }
/-- the state with another pins -/
def State.setPins (s : State) (v : Pins) : State := { s with pins := v }
/-- the state with another tab -/
def State.setTab (s : State) (v : Tables) : State := { s with tab := v }
/-- the state with another course -/
def State.setCourse (s : State) (v : Course) : State := { s with course := v }
/-- the state with another elastic -/
def State.setElastic (s : State) (v : Elastic) : State := { s with elastic := v }
/-- the state with another mason -/
def State.setMason (s : State) (v : Mason) : State := { s with mason := v }
/-- the state with another sec -/
def State.setSec (s : State) (v : Sec) : State := { s with sec := v }
/-- the state with another pages -/
def State.setPages (s : State) (v : List (Nat × Nat)) : State := { s with pages := v }
/-- the state with another sto -/
def State.setSto (s : State) (v : Sto) : State := { s with sto := v }
/-- the state with another grt -/
def State.setGrt (s : State) (v : Grt) : State := { s with grt := v }
/-- the state with another pp -/
def State.setPp (s : State) (v : Packet) : State := { s with pp := v }

end Sys2Proof.Machine
end

