-- ==== Sys2Proof/Machine/Ops.lean ====
section
/-! DEFINITION. The shared operations: blocks and islands, time stamps, what is sent out, free values, register cells and counters, recording an error and its reactions, the policy log. -/

namespace Sys2Proof.Machine

open Sys2Proof

/-! ### Block indices (R620), offsets in CSR space (R28) and islands (R635, R727) -/

def blkGlobal : Nat := 0
def blkSteward : Nat := 1
def blkCluster (p : Nat) : Nat := 2 + p
def blkMc (n : Nat) : Nat := 19 + n
def blkTable : Nat := 25
def blkCourse : Nat := 26
def blkStorage : Nat := 27
def blkPacket : Nat := 28
def blkTransport : Nat := 29
def blkCipher : Nat := 30
def blkTelem : Nat := 31
def blkPower : Nat := 32
def blkPb (n : Nat) : Nat := 33 + n
def blkEn (n : Nat) : Nat := 53 + n

/-- First offset and span of a block in CSR space (R28). -/
def blkBase (b : Nat) : Nat :=
  if b = 0 then 0
  else if b = 1 then 0x100000
  else if b ≤ 18 then 0x1000000 + (b - 2) * 0x100000
  else if b ≤ 24 then 0x3000000 + (b - 19) * 0x100000
  else if b ≤ 32 then 0x4000000 + (b - 25) * 0x800000
  else if b ≤ 52 then 0x8000000 + (b - 33) * 0x100000
  else 0xA000000 + (b - 53) * 0x100000

def blkSpan (b : Nat) : Nat := if 25 ≤ b ∧ b ≤ 32 then 0x800000 else 0x100000

/-- The block that holds an offset of CSR space, and the offset within it. -/
def blkOf (off : Nat) : Option (Nat × Nat) :=
  match (List.range 61).find? (fun b => decide (blkBase b ≤ off ∧ off < blkBase b + blkSpan b)) with
  | some b => some (b, off - blkBase b)
  | none => none

/-- Island of a block (R727). -/
def blkIsland (b : Nat) : Nat :=
  if b = 0 then 0x50
  else if b = 1 then 0x47
  else if b ≤ 18 then b - 2
  else if b ≤ 24 then 0x20 + (b - 19)
  else if b ≤ 31 then 0x40 + (b - 25)
  else if b = 32 then 0x50
  else if b ≤ 52 then 0x30 + (b - 33) / 5
  else 0x38 + (b - 53)

/-- Every island ID of R635. -/
def allIslands : List Nat :=
  List.range 0x11 ++ (List.range 6).map (0x20 + ·) ++ (List.range 4).map (0x30 + ·) ++ (List.range 8).map (0x38 + ·)
    ++ (List.range 8).map (0x40 + ·) ++ [0x50]

/-- The counter of an island in nanoseconds. -/
def now (s : State) (isl : Nat) : Nat := lookD s.time isl 0

/-- The steward complex's counter, and the always-on domain's. -/
def nowSt (s : State) : Nat := now s 0x47
def nowAon (s : State) : Nat := now s 0x50

/-- A 64-bit timestamp of an island (R635). -/
def stampIsl (s : State) (isl : Nat) : Nat := isl * 2 ^ 56 + now s isl % 2 ^ 56

/-- A timestamp of a block's island (R727). -/
def stamp (s : State) (b : Nat) : Nat := stampIsl s (blkIsland b)

/-! ### Sending and drawing -/

/-- Something leaves the part. -/
def emit (o : Out) (s : State) : State := s.setOut (s.out ++ [o])

/-- The device number that stands for every child in the fence tree. -/
def downTree : Nat := 0x10000

/-- The highest version of the transport that this part implements, and the domain's: the lowest of the members' highest (R33; log 208). -/
def ownGrt : Nat := 2
def domainGrt (s : State) : Nat := s.course.peerGrt.foldl (fun m e => min m e.2) ownGrt

/-- The part has a connection to a device of the domain from the first message either way, and it runs at the domain's version (R33, R532). -/
def joinDomain (dst : Nat) (s : State) : State :=
  if dst = downTree then s else s.setGrt { s.grt with domain := put s.grt.domain dst (domainGrt s) }

/-- The domain's version has changed: its connections run at the new one. -/
def levelDomain (s : State) : State := s.setGrt { s.grt with domain := s.grt.domain.map (fun e => (e.1, domainGrt s)) }

/-- A message to a device of the domain. -/
def sendDomain (dst : Nat) (m : DomainMsg) (s : State) : State := emit (.domain dst m) (joinDomain dst s)

/-- A FAT has frozen every block, and none accepts work (R629): what a block would do leaves the state as it is. -/
def thawed (s t : State) : State := if s.tel.frozen then s else t

/-- A host's access to memory while the part is frozen: a read completes with ones, and a write has no effect (R629). -/
def frozenAccess (length : Nat) (read : Bool) (s : State) : State :=
  if read then emit (.readData (List.replicate length 0xFF) false) s else s

/-- One free value has been drawn. -/
def drawn (s : State) : State := s.setDraw (s.draw + 1)

/-! ### Register cells -/

/-- The reset value of a register that is stored whole, by kind of block and offset within it (R134, R135, R196, R680). -/
def cellReset (b rel : Nat) : Nat :=
  if b = blkTable then
    (if rel = 0x10000 then 0x80000064 else if rel = 0x10004 then 0x2004 else if rel = 0x10008 then 0x0A05
     else if rel = 0x1000C then 16 else 0)
  else if 19 ≤ b ∧ b ≤ 24 then (if rel = 0x10C then 4 else if rel = 0x114 then 0x80000018 else 0)
  else if 2 ≤ b ∧ b ≤ 18 then (if rel = 0x128 then 256 else 0)
  else if b = blkGlobal then (if rel = 0x108 then 3 else 0)
  else 0

/-- The stored value of a register cell. -/
def cell (s : State) (b rel : Nat) : Nat :=
  match look s.csr (blkBase b + rel) with
  | some v => v.toNat
  | none => cellReset b rel

def setCell (b rel v : Nat) (s : State) : State := s.setCsr (put s.csr (blkBase b + rel) (BitVec.ofNat 32 v))

/-- A wrapping 32-bit counter register rises. -/
def bumpBy (b rel n : Nat) (s : State) : State := setCell b rel (cell s b rel + n) s
def bump (b rel : Nat) (s : State) : State := bumpBy b rel 1 s

/-- An access under R29 or R101 is counted with its address. -/
def countUnmapped (addr : Nat) (s : State) : State := setCell blkGlobal 0x170 addr (bump blkGlobal 0x16C s)

/-! ### Functions -/

/-- FUNCTION_ID of a PF and of a VF number (R55). -/
def pfId (hp pf : Nat) : Nat := hp * 3 + pf
def vfId (n : Nat) : Nat := 0x1000 + n
def accelId (ep : Nat) : Nat := 0x4000 + ep
def isPf (fid : Nat) : Bool := decide (fid < 6)
def isVf (fid : Nat) : Bool := decide (0x1000 ≤ fid ∧ fid < 0x1400)
def isAccel (fid : Nat) : Bool := decide (0x4000 ≤ fid ∧ fid < 0x4050)

def fnD (s : State) (fid : Nat) : Fn := lookD s.fns fid {}
def setFn (fid : Nat) (f : Fn) (s : State) : State := s.setFns (put s.fns fid f)
def updFn (fid : Nat) (g : Fn → Fn) (s : State) : State :=
  match look s.fns fid with
  | some f => setFn fid (g f) s
  | none => s

/-- The generation that follows another (R41). -/
def nextGen (g : Nat) : Nat := if 65535 ≤ g then 1 else g + 1

/-- The link of an accelerator endpoint, port block × 4 + link. -/
def pbOf (s : State) (n : Nat) : PBlock := lookD s.ports.blocks n {}
/-- The block of a host port: the host-role blocks in ascending order (R378). -/
def hostPortBlock (s : State) (hp : Nat) : Option Nat := ((List.range 20).filter (fun n => (pbOf s n).role == 1))[hp]?

/-- The port block behind which the memory of a function or endpoint lies. -/
def portBlock (s : State) (fid : Nat) : Option Nat :=
  if isAccel fid then some (blkPb ((fid - 0x4000) / 4)) else (hostPortBlock s (fnD s fid).hp).map blkPb

/-- A function that the part has: its host port exists; a VF whose VF Enable has been cleared keeps its record. -/
def fnKnown (s : State) (fid : Nat) : Option Fn := (look s.fns fid).filter (fun f => (hostPortBlock s f.hp).isSome)
/-- A PF, or a VF that is enabled. -/
def fnOf (s : State) (fid : Nat) : Option Fn := (fnKnown s fid).filter (·.on)
def setPb (n : Nat) (b : PBlock) (s : State) : State := s.setPorts { s.ports with blocks := put s.ports.blocks n b }
def linkOf (s : State) (ep : Nat) : PLink := ((pbOf s (ep / 4)).links[ep % 4]?).getD {}
def setLink (ep : Nat) (l : PLink) (s : State) : State :=
  let b := pbOf s (ep / 4)
  setPb (ep / 4) { b with links := b.links.set (ep % 4) l } s

/-! ### Configuration words and BARs (R389, R393) -/

/-- A stored word of a function's configuration space. -/
def cfgWord (s : State) (fid off : Nat) : Nat := (lookD s.ports.cfg (fid * 4096 + off) 0).toNat
def setCfg (fid off v : Nat) (s : State) : State :=
  s.setPorts { s.ports with cfg := put s.ports.cfg (fid * 4096 + off) (BitVec.ofNat 32 v) }

/-- The PF that a function is or belongs to: 0 to 2. -/
def pfKind (s : State) (fid : Nat) : Nat := if isPf fid then fid % 3 else (fnD s fid).pf

/-- The BARs of a PF, or of its VFs: number, size and whether prefetchable (R393). -/
def barTable (vf : Bool) (kind : Nat) : List (Nat × Nat × Bool) :=
  match vf, kind with
  | false, 0 => [(0, 2 ^ 26, false), (2, 2 ^ 29, true), (4, 2 ^ 36, true)]
  | false, 1 => [(0, 2 ^ 20, false), (2, 2 ^ 26, true), (4, 2 ^ 17, false)]
  | false, _ => [(0, 2 ^ 17, false), (2, 2 ^ 26, true)]
  | true, 1 => [(0, 2 ^ 20, false), (2, 2 ^ 23, true), (4, 2 ^ 17, false)]
  | true, _ => [(0, 2 ^ 17, false), (2, 2 ^ 23, true)]

/-- A 64-bit BAR stored at an offset of configuration space. -/
def barAt (s : State) (fid off : Nat) : Nat := cfgWord s fid off + cfgWord s fid (off + 4) * 2 ^ 32

/-- BAR2 of a function, where it is assigned and its memory decoding is enabled: a VF's is its part of the VF BAR of its PF. -/
def bar2Base (s : State) (fid : Nat) : Option Nat :=
  if isVf fid then
    let f := fnD s fid
    let pf := pfId f.hp f.pf
    if barAt s pf 0x17C = 0 ∨ (cfgWord s pf 0x158).testBit 3 = false then none else some (barAt s pf 0x17C + 2 ^ 23 * (f.vfIndex - 1))
  else if barAt s fid 0x18 = 0 ∨ (cfgWord s fid 4).testBit 1 = false then none
  else some (barAt s fid 0x18)

/-- AtomicOp Requester Enable of a host port's PF0 (R432). -/
def atomicReq (s : State) (hp : Nat) : Bool := (cfgWord s (pfId hp 0) 0x88).testBit 6

/-- Configuration space and the MSI-X table of the functions that a predicate names are in their reset state (R405). -/
def resetCfg (p : Nat → Bool) (s : State) : State :=
  s.setPorts { s.ports with cfg := s.ports.cfg.filter (fun e => !p (e.1 / 4096)), msix := s.ports.msix.filter (fun e => !p (e.1 / 8192)),
                              msixPending := s.ports.msixPending.filter (fun e => !p e.1) }

/-- The current generation of a function or an accelerator endpoint, by FUNCTION_ID. -/
def genOf (s : State) (fid : Nat) : Nat :=
  if isAccel fid then (linkOf s (fid - 0x4000)).gen else (fnD s fid).gen

/-- The port block whose link leads to a function or an accelerator endpoint. -/
def pathBlock (s : State) (fid : Nat) : Option Nat :=
  if isAccel fid then some ((fid - 0x4000) / 4) else hostPortBlock s (fnD s fid).hp

/-- A VF is FROZEN: MIG_FREEZE has replied (R426). -/
def isFrozen (s : State) (fid : Nat) : Bool :=
  (fnD s fid).st == .frozen && !s.icp.waits.any (fun w => w.pkt.opcode == 0x0904 && w.kind == .destroy && w.obj == fid)

/-- Completions into a function's host memory are held: its PF is not in D0, or it is FROZEN (R423, R426). -/
def hostHeld (s : State) (fid : Nat) : Bool := (fnD s fid).dstate != .d0 || isFrozen s fid

/-- The upstream link of a function's host port is down. -/
def hostLinkDown (s : State) (fid : Nat) : Bool :=
  match hostPortBlock s (fnD s fid).hp with | some b => (linkOf s (4 * b)).width == 0 | none => false

/-- Outbound requests do not leave: the link to the endpoint or host is down, or the function is in FLR, not in D0, or FROZEN (R384, R404, R423,
R426). -/
def silenced (s : State) (fid : Nat) : Bool :=
  if isAccel fid then (linkOf s (fid - 0x4000)).width == 0 else (fnD s fid).crs || hostHeld s fid || hostLinkDown s fid

/-- Outbound requests of a function are discarded, and its port block counts them (R384). -/
def dmaDropped (fid n : Nat) (s : State) : State :=
  match pathBlock s fid with
  | some b => bumpBy (blkPb b) 0x11C n s
  | none => s

/-- A page of the range of a dirty log has been written: its bit of the bitmap is set (R433). -/
def markPage (fid : Nat) (d : DirtyLog) (k : Nat) (s : State) : State :=
  let s := updFn fid (fun f => { f with dirty := f.dirty.map (fun (d : DirtyLog) =>
    { d with pages := if d.pages.contains k then d.pages else d.pages ++ [k] }) }) s
  if silenced s d.issuer then dmaDropped d.issuer 1 s
  else emit (.dirtyBit d.issuer (genOf s d.issuer) (d.bitmap + k / 64 * 8) (k % 64)) s

/-- Bytes have been written into a function's memory: under a dirty log every page of its range that they lie in is marked, and a write that reaches
outside the range counts once as out of range (R433). -/
def markWrite (fid addr n : Nat) (s : State) : State :=
  match (fnD s fid).dirty with
  | none => s
  | some d =>
    let lo := max addr d.base
    let hi := min (addr + n) (d.base + d.length)
    let s := if lo = addr ∧ hi = addr + n then s
      else updFn fid (fun f => { f with dirty := f.dirty.map (fun (d : DirtyLog) => { d with outside := d.outside + 1 }) }) s
    if lo < hi then (List.range ((hi - 1 - d.base) / 4096 - (lo - d.base) / 4096 + 1)).foldl (fun s i => markPage fid d ((lo - d.base) / 4096 + i) s) s
    else s

/-- Bytes are written to a function's or endpoint's memory under its generation (R42), and the pages of a VF under a dirty log are marked
after them (R433). -/
def dmaOut (fid addr : Nat) (bs : Bytes) (s : State) : State :=
  if bs.isEmpty then s else
  if silenced s fid then dmaDropped fid 1 s
  else markWrite fid addr bs.length (emit (.dma fid (genOf s fid) addr bs) s)

/-- A vector is masked: in its table entry, or by the function mask of the MSI-X capability (R390, R394). -/
def msixMasked (s : State) (fn vec : Nat) : Bool :=
  (lookD s.ports.msix (fn * 8192 + 4 * vec + 3) 0).getLsbD 0 || (cfgWord s fn 0x50).testBit 30

/-- The MSI-X message of a vector: pending while the vector is masked (R394), discarded like every request of a silenced function (R384). -/
def raiseMsix (fn vec : Nat) (s : State) : State :=
  if msixMasked s fn vec then
    s.setPorts { s.ports with msixPending := s.ports.msixPending.filter (· != (fn, vec)) ++ [(fn, vec)] }
  else if silenced s fn then dmaDropped fn 1 s
  else emit (.msix fn vec) s

/-- Pending messages of a function whose vectors are masked no more are sent. -/
def releaseMsix (fn : Nat) (s : State) : State :=
  (s.ports.msixPending.filter (fun e => e.1 == fn && !msixMasked s fn e.2)).foldl (fun s e =>
    raiseMsix fn e.2 (s.setPorts { s.ports with msixPending := s.ports.msixPending.filter (· != e) })) s

/-! ### Errors (R621 to R631) -/

def errOf (s : State) (b : Nat) : ErrHdr := lookD s.err b {}
def setErr (b : Nat) (h : ErrHdr) (s : State) : State := s.setErr (put s.err b h)

def isolated (s : State) (b : Nat) : Bool := (errOf s b).isolated

/-- A block holds an uncleared CON or FAT, or is isolated (R631). -/
def holdsFault (h : ErrHdr) : Bool := h.conSeen || h.fatSeen || h.isolated

def anyFault (s : State) : Bool := (List.range 61).any (fun b => holdsFault (errOf s b))

/-- FAULT_N is driven low (R631). -/
def faultAsserted (s : State) : Bool := anyFault s || s.tel.faultHold

/-- The latch and the counts after an error of a class is recorded (R622). -/
def latchErr (t cls src : Nat) (info : List Nat) (h : ErrHdr) : ErrHdr :=
  let h := if h.valid then
      { h with ovf := true, highest := max h.highest cls, ovfCount := satAdd 65535 h.ovfCount 1 }
    else
      { h with valid := true, seq := (h.seq + 1) % 16, fcls := cls, source := src, firstTime := t,
               info := (info.map (· % 2 ^ 32) ++ [0, 0, 0, 0]).take 4 }
  { h with corSeen := h.corSeen || cls == 1, conSeen := h.conSeen || cls == 2, fatSeen := h.fatSeen || cls == 3,
           corCount := if cls = 1 then satAdd 65535 h.corCount 1 else h.corCount,
           conCount := if cls = 2 then satAdd 255 h.conCount 1 else h.conCount,
           fatCount := if cls = 3 then satAdd 255 h.fatCount 1 else h.fatCount }

/-- The reaction class and the timer after an error of a class is recorded at a counter value (R625 to R627). -/
def reactErr (t cls : Nat) (h : ErrHdr) : ErrHdr :=
  if cls = 1 ∧ h.corSilent then h
  else if cls = 3 then { h with cls := 3, acked := false, running := false }
  else if h.cls = 0 then { h with cls := cls, acked := false, running := true, timerEnd := t + h.ms * 1000000 }
  else if h.cls < cls then
    (if h.running then { h with cls := cls }
     else { h with cls := cls, acked := false, running := true, timerEnd := t + h.ms * 1000000 })
  else h

/-- TM_ERR_ROUTE of a block: 0 steward only, 1 and 2 PF0 of a host port, 3 both (R647). -/
def errRoute (s : State) (b : Nat) : Nat := bits (cell s blkTelem (0x120 + 4 * (b / 16))) (2 * (b % 16)) 2

/-- The MSI-X messages of an error (R624). -/
def notifyErr (b cls : Nat) (s : State) : State :=
  if cls = 1 ∧ (errOf s b).corSilent then s
  else
    let r := errRoute s b
    let s := if r % 2 = 1 then raiseMsix (pfId 0 0) (1024 + b) s else s
    if 2 ≤ r then raiseMsix (pfId 1 0) (1024 + b) s else s

/-- FAULT_N follows the headers: it is asserted for at least 1 ms from the first CON or FAT (R631). -/
def driveFault (before : Bool) (s : State) : State :=
  if before then s
  else if anyFault s then emit (.pin .faultN true) (s.setTel { s.tel with faultHold := true }) else s

/-- A counter takes a value that an event has for `n` cycles, after the value it had in the cycle before (R638). -/
def countPerf (v n : Nat) (c : PerfCtr) : PerfCtr :=
  match c.mode with
  | 0 => { c with count := (c.count + v * n) % 2 ^ 48 }
  | 1 => { c with count := (c.count + bit (decide (c.thresh < v)) * n) % 2 ^ 48 }
  | 2 => { c with count := (c.count + bit (decide (c.thresh < v ∧ c.last ≤ c.thresh))) % 2 ^ 48 }
  | _ => { c with count := min (2 ^ 48 - 1) (max c.count v) }

/-- The counters of a block that count an event of a unit, or of all units, change. -/
def perfWith (b ev : Nat) (unit : Option Nat) (f : PerfCtr → PerfCtr) (s : State) : State :=
  s.setPerf (s.perf.map (fun e =>
    if e.1 / 8 = b ∧ e.2.enable ∧ e.2.event = ev ∧ (unit.isNone ∨ unit = some e.2.unit ∨ e.2.unit = 0x1F) then (e.1, f e.2) else e))

/-- Something that happens in one cycle gives a value to a block's event for that cycle (R638, R639). -/
def perfEvent (b ev v : Nat) (s : State) : State := perfWith b ev none (countPerf v 1) s

/-- An event holds a value for `n` cycles. -/
def perfLevel (b ev : Nat) (unit : Option Nat) (v n : Nat) (s : State) : State :=
  perfWith b ev unit (fun c => if n = 0 then c else { countPerf v n c with last := v }) s

/-- Recording an error in a block (R622, R624, R625, R627, R631); the reaction to a FAT is added by `recordErr`. -/
def noteErr (b cls src : Nat) (info : List Nat) (s : State) : State :=
  let before := faultAsserted s
  let t := now s (blkIsland b)
  let h := reactErr t cls (latchErr (stamp s b) cls src info (errOf s b))
  driveFault before (notifyErr b cls (perfEvent b (if cls = 1 then 1 else 2) 1 (setErr b h s)))

/-- A COR or a CON is recorded. -/
def recordCor (b src : Nat) (info : List Nat) (s : State) : State := noteErr b 1 src info s
def recordCon (b src : Nat) (info : List Nat) (s : State) : State := noteErr b 2 src info s

/-! ### Policy log (R644, R49) -/

/-- A policy decision is logged; the oldest record of a full ring is overwritten, and counted when nothing has read it. -/
def logPolicy (isl policy reason object old new : Nat) (s : State) : State :=
  let r : PolicyRec := { time := stampIsl s isl, seq := s.tel.plogNext, policy := policy, reason := reason,
                         object := object, old := old, new := new }
  let full := decide (65536 ≤ s.tel.plog.length)
  let lost := full && (match s.tel.plog with | o :: _ => decide (s.tel.plogRead ≤ o.seq) | [] => false)
  let s' := s.setTel { s.tel with plog := (if full then s.tel.plog.drop 1 else s.tel.plog) ++ [r],
                                  plogNext := (s.tel.plogNext + 1) % 2 ^ 32 }
  if lost then bump blkTelem 0x138 s' else s'

/-- A policy record as it is read out (R644). -/
def PolicyRec.bytes (r : PolicyRec) : Bytes :=
  layout 32 [(0, 8, r.time), (8, 4, r.seq), (0xC, 1, r.policy), (0xD, 1, r.reason), (0xE, 2, r.object), (0x10, 8, r.old), (0x18, 8, r.new)]

/-- A spare is switched in: logged as policy 7, counted, and recorded as a COR in its block (R25, R45, R146, R623). -/
def logSpare (b src unit extra : Nat) (s : State) : State :=
  recordCor b src [unit, extra]
    (logPolicy (blkIsland b) 7 4 b 0 unit (s.setMem { s.mem with sparesUsed := s.mem.sparesUsed + 1 }))

/-- The CON of a sparing event is recorded: the steward cores will acknowledge it (R194). -/
def sparingCon (b src : Nat) (info : List Nat) (s : State) : State :=
  let s := recordCon b src info s
  setErr b { errOf s b with sparing := true } s

/-- The steward cores acknowledge the CON of a sparing event once the spare has taken over (R194), whatever error the block has latched before it. -/
def ackSpare (b : Nat) (s : State) : State :=
  let h := errOf s b
  if h.valid && h.sparing then setErr b { h with running := false, acked := true, sparing := false } s else s

/-- Destroying a staged object removes its entry (R93). -/
def unstage (otype handle : Nat) (s : State) : State :=
  s.setIcp { s.icp with stage := s.icp.stage.filter (fun e => !(e.otype == otype && e.handle == handle)) }

/-- PF0 and the steward cores. -/
def trusted : Requester → Bool
  | .host _ => true
  | .steward => true
  | .other => false
  | .jtag => false

/-- Who may write the ERR_ACK of a block: PF0 and the steward cores, and of the power and thermal block the steward cores alone (R30, R648). -/
def errWriter (who : Requester) (b : Nat) : Bool := trusted who && (b != blkPower || who == .steward)

/-! ### Keys (R572, R597, R599) -/

def keyOf (s : State) (h : Nat) : Option Key := look s.sec.keys h
/-- A key's material; none where the handle is empty or names nothing. -/
def keyMaterial (s : State) (h : Nat) : Option Nat := (keyOf s h).bind (·.material)
/-- Domain course keys held, the one provisioned last first. -/
def domainKeys (s : State) : List Nat := s.sec.keys.filterMap (fun e => if e.2.kind = 3 then e.2.material else none)
/-- A key's handle reads as empty: its material, its sealed copy and the working keys derived from it are gone (R596). -/
def clearKey (h : Nat) (s : State) : State :=
  match keyOf s h with
  | none => s
  | some k => s.setSec { s.sec with
      keys := put s.sec.keys h { k with material := none, sealedCopy := none },
      keyCache := s.sec.keyCache.filter (fun e => some e.1 != k.material) }
/-- A working key is used: one that the cache of 16,384 does not hold is derived and enters it (R600). -/
def useWorkingKey (k : Nat) (label : Bytes) (s : State) : State :=
  if s.sec.keyCache.contains (k, label) then s
  else s.setSec { s.sec with keyCache := ((k, label) :: s.sec.keyCache).take 16384 }
/-- Keyed operations are permitted by the life-cycle state and no alarm holds them (R588, R609). -/
def keyedAllowed (s : State) : Bool := s.sec.lifecycle != 4

/-! ### Serving -/

/-- The part has started and runs firmware. -/
def running (s : State) : Bool := !s.boot.inReset && s.boot.stage == 3 && !s.pwr.tripped

/-- The part is in footing mode. -/
def footing (s : State) : Bool := !s.boot.inReset && s.boot.stage == 4

/-- A function answers requests: a part that has started serves them all, and one in footing mode only the footing PF0s (R652, R666). -/
def functionServed (s : State) (fid : Nat) : Bool := running s || (footing s && (fid == 0 || fid == 3))

/-- A function serves configuration requests: none during its FLR (R404). -/
def configServed (s : State) (fid : Nat) : Bool := functionServed s fid && !(fnD s fid).crs

/-- A configuration request that a function does not serve is answered with Configuration Request Retry Status (R652, R404); a part in reset answers none. -/
def configRetry (fid : Nat) (s : State) : State := if s.boot.inReset then s else emit (.configRetry fid) s

/-- A power emergency and a thermal emergency (R678). -/
def powerEmergency (s : State) : Bool :=
  !footing s && !s.tel.frozen && (s.pwr.limiter || s.pwr.fallback)
def thermalEmergency (s : State) : Bool := s.pwr.islands.any (fun e => e.2.held)

/-- ALERT_N: in footing mode and while an emergency holds; released while the part is in reset (R666, R719). -/
def alertAsserted (s : State) : Bool := !s.boot.inReset && (footing s || powerEmergency s || thermalEmergency s)

/-- ALERT_N follows the state. -/
def driveAlert (before : Bool) (s : State) : State :=
  if alertAsserted s = before then s else emit (.pin .alertN (alertAsserted s)) s

/-- The fallback governor takes control, and is counted (R692, R698). -/
def takeFallback (s : State) : State :=
  if s.pwr.fallback then s else bump blkPower 0x11C (s.setPwr { s.pwr with fallback := true })

/-- Operating state of an island; another island than a cluster starts at its own clock. -/
def islandOf (s : State) (i : Nat) : IslandPow :=
  match look s.pwr.islands i with
  | some x => x
  | none => if i ≤ 0x10 then {} else { point := 0, mhz := Config.islandMhz i }
def setIsland (i : Nat) (x : IslandPow) (s : State) : State := s.setPwr { s.pwr with islands := put s.pwr.islands i x }
def updIsland (i : Nat) (f : IslandPow → IslandPow) (s : State) : State := setIsland i (f (islandOf s i)) s

/-- Clock of a cluster's operating point in MHz (R683). -/
def pointMhz (p : Nat) : Nat := match p with | 0 => 2200 | 1 => 1800 | 2 => 1400 | 3 => 1000 | 4 => 600 | _ => 400

end Sys2Proof.Machine
end

