-- ==== Sys2Proof/Machine/MemOps.lean ====
section
/-! DEFINITION. Custody memory: contents by device physical address in one canonical form, the address map, frames and channels, poison, the block map and frame allocation. -/

namespace Sys2Proof.Machine

open Sys2Proof

/-! ### Contents -/

/-- What an unlisted address reads as: frames are zero-filled at allocation (R120) and scratch is cleared at a cold reset (R140). -/
def memDefault : Byte := 0

/-- The byte at an address. -/
def memGet : List Host.Cell → Nat → Byte
  | [], _ => memDefault
  | (k, v) :: r, a => if a = k then v else memGet r a

/-- The contents with one byte replaced, in canonical form. -/
def memPut : List Host.Cell → Nat → Byte → List Host.Cell
  | [], a, v => if v = memDefault then [] else [(a, v)]
  | (k, w) :: r, a, v =>
    if a < k then (if v = memDefault then (k, w) :: r else (a, v) :: (k, w) :: r)
    else if a = k then (if v = memDefault then r else (a, v) :: r)
    else (k, w) :: memPut r a v

/-- The contents with a run of bytes replaced. -/
def memPutBytes : List Host.Cell → Nat → Bytes → List Host.Cell
  | m, _, [] => m
  | m, a, b :: r => memPutBytes (memPut m a b) (a + 1) r

/-- The bytes from an address on. -/
def memGetBytes (m : List Host.Cell) (a n : Nat) : Bytes := (List.range n).map (fun i => memGet m (a + i))

/-- The contents with an address range zeroed. -/
def memZero (m : List Host.Cell) (a n : Nat) : List Host.Cell := m.filter (fun c => decide (¬ (a ≤ c.1 ∧ c.1 < a + n)))

/-- The contents with the bytes of one range copied to another. -/
def memCopy (m : List Host.Cell) (src dst n : Nat) : List Host.Cell :=
  let moved := (m.filter (fun c => decide (src ≤ c.1 ∧ c.1 < src + n))).map (fun c => (c.1 - src + dst, c.2))
  moved.foldl (fun acc c => memPut acc c.1 c.2) (memZero m dst n)

/-- The canonical form: addresses strictly rising and no entry equal to what an unlisted address reads as. -/
def Memory.wf : List Host.Cell → Bool
  | [] => true
  | [(_, v)] => decide (v ≠ memDefault)
  | (a, v) :: (b, w) :: r => decide (v ≠ memDefault) && decide (a < b) && Memory.wf ((b, w) :: r)

def setCells (m : List Host.Cell) (s : State) : State := s.setMem { s.mem with cells := m }

/-! ### The address map (R100, R101) -/

def frameBytes : Nat := 0x10000
/-- Frame number (DPA / 64 KiB) of the first CXL frame. -/
def coldBase : Nat := 0x10000000
def isHotFrame (f : Nat) : Bool := decide (f < 0x400000)
def scratchBase : Nat := 0xF000000000000
def vaultBase : Nat := 0xF000010000000
def aonBase : Nat := 0xF000011000000
def csrBase : Nat := 0xF000020000000

/-- Scratch DPA of a logical cluster. -/
def scratchDpa (k : Nat) : Nat := scratchBase + k * 0x400000

/-- The region of an address. -/
inductive Region where
  | gddr7
  | cxl
  | scratch
  | vault
  | aon
  | csr
  | unmapped
  deriving DecidableEq, Repr

/-- Number of GDDR7 channels per population code (R104). -/
def popChannels (pop : Nat) : Nat := if pop = 0 then 0 else if pop = 1 then 48 else 96

/-- Usable frames of one channel by population and density (R104, R107, R115: 31/32 of raw; 1 GiB raw per channel with
32 Gbit devices, 2 GiB in clamshell). -/
def chanFrames (pop density : Nat) : Nat :=
  let raw := (if pop = 3 then 2 else 1) * 16384
  let raw := if density = 0 then raw / 2 else if density = 1 then raw * 3 / 4 else raw
  raw * 31 / 32

/-- Channel (16 × n + c) of a hot frame (R108). -/
def frameChan (s : State) (f : Nat) : Nat := (s.mem.channels[f % s.mem.channels.length]?).getD 0

/-- The set of CXL devices that holds a cold frame. -/
def frameSet (s : State) (f : Nat) : Option CxlSet :=
  s.mem.cxl.find? (fun c => decide (coldBase + c.first ≤ f ∧ f < coldBase + c.first + c.count))

/-- A frame whose channel or device has been fenced at run time. -/
def retired (s : State) (f : Nat) : Bool :=
  if isHotFrame f then has s.mem.fenced (frameChan s f)
  else match frameSet s f with | some c => c.fenced | none => false

/-- Populated extents of the GDDR7 and CXL regions in frames. -/
def hotPopulated (s : State) (f : Nat) : Bool := decide (f < s.mem.hotTotal)
def coldPopulated (s : State) (f : Nat) : Bool := decide (coldBase ≤ f ∧ f < coldBase + s.mem.coldTotal)

def regionOf (s : State) (dpa : Nat) : Region :=
  let f := dpa / frameBytes
  if dpa < 0x4000000000 then (if hotPopulated s f then .gddr7 else .unmapped)
  else if decide (coldBase ≤ f ∧ f < 2 * coldBase) then (if coldPopulated s f then .cxl else .unmapped)
  else if scratchBase ≤ dpa ∧ dpa < scratchBase + 0x4000000 then .scratch
  else if vaultBase ≤ dpa ∧ dpa < vaultBase + 0x200000 then .vault
  else if aonBase ≤ dpa ∧ dpa < aonBase + 0x10000 then .aon
  else if csrBase ≤ dpa ∧ dpa < csrBase + 0x10000000 then .csr
  else .unmapped

/-- A whole range lies in the populated GDDR7 or CXL region. -/
def custodyRange (s : State) (dpa n : Nat) : Bool :=
  let f := dpa / frameBytes
  let l := (dpa + n - 1) / frameBytes
  decide (0 < n) && ((hotPopulated s f && hotPopulated s l) || (coldPopulated s f && coldPopulated s l))

/-- The HDM decode of a CXL address: the link of the device that serves it, 4 KiB from each device of its set in turn, and the number of the
line on that device (R125). -/
def cxlDevice (s : State) (dpa : Nat) : Option (Nat × Nat) :=
  (frameSet s (dpa / frameBytes)).map (fun c =>
    let l := (dpa - (coldBase + c.first) * frameBytes) / 128
    let w := c.links.length
    ((c.links[l / 32 % w]?).getD 0, l / 32 / w * 32 + l % 32))

/-- The block that records the errors of a line: the memory controller, or the CXL-role port block that serves the device (R122, R126). -/
def lineBlock (s : State) (dpa : Nat) : Nat :=
  let f := dpa / frameBytes
  if isHotFrame f then blkMc (frameChan s f / 16)
  else match cxlDevice s dpa with
    | some d => blkPb (d.1 / 4)
    | none => blkPb 0

/-! ### Check groups (R115, R116, R126) -/

/-- The store that holds a line, a channel by its number or a CXL link by 96 and its number, and which of its usable data lines it is. -/
def storeLine (s : State) (dpa : Nat) : Nat × Nat :=
  let f := dpa / frameBytes
  if isHotFrame f then (frameChan s f, f / s.mem.channels.length * 512 + dpa % frameBytes / 128)
  else match cxlDevice s dpa with
    | some d => (96 + d.1, d.2)
    | none => (96, 0)

/-- The DPA of a data line of a store; none beyond its capacity. -/
def storeDpa (s : State) (store n : Nat) : Option Nat :=
  if store < 96 then
    let f := n / 512 * s.mem.channels.length + s.mem.channels.idxOf store
    if f < s.mem.hotTotal then some (f * frameBytes + n % 512 * 128) else none
  else
    (s.mem.cxl.find? (fun c => c.links.contains (store - 96))).bind (fun c =>
      let l := (n / 32 * c.links.length + c.links.idxOf (store - 96)) * 32 + n % 32
      if l < c.count * 512 then some ((coldBase + c.first) * frameBytes + l * 128) else none)

/-- The data lines of the check group that holds a line: 31 of its store's, from line 31 × (n div 31) on (R116). -/
def groupLines (s : State) (dpa : Nat) : List (Option Nat) :=
  let x := storeLine s dpa
  (List.range 31).map (fun k => storeDpa s x.1 (x.2 / 31 * 31 + k))

/-! ### Capacity and the recovery reserve (R43, R44, R104, R113, R114) -/

def hotRetiredCount (s : State) : Nat :=
  let c := s.mem.channels.length
  if c = 0 then 0 else (s.mem.channels.filter (fun x => has s.mem.fenced x)).length * (s.mem.hotTotal / c)
def hotUsable (s : State) : Nat := s.mem.hotTotal - hotRetiredCount s
def coldUsable (s : State) : Nat := s.mem.coldTotal - ((s.mem.cxl.filter (·.fenced)).map (·.count)).sum
def hotReserve (s : State) : Nat := ceilDiv (hotUsable s) 100
def coldReserve (s : State) : Nat := ceilDiv (coldUsable s) 100
def hotAllocatable (s : State) : Nat := hotUsable s - hotReserve s
def coldAllocatable (s : State) : Nat := coldUsable s - coldReserve s

/-- Frames of an extent that have not been retired; those that have are out of the usable count already (R44, R113). -/
def liveFrames (s : State) (e : Extent) : Nat :=
  if s.mem.fenced.isEmpty && !s.mem.cxl.any (·.fenced) then e.count
  else ((List.range e.count).filter (fun i => !retired s (e.first + i))).length

/-- Frames that blocks (with the destinations of their moves) and extents occupy in one tier. -/
def framesUsed (s : State) (hot : Bool) : Nat :=
  let mine := fun (f : Option Nat) => match f with | some x => isHotFrame x == hot && !retired s x | none => false
  (s.mem.blocks.filter (fun b => mine b.frame)).length + (s.mem.blocks.filter (fun b => mine b.moving)).length
    + ((s.mem.extents.filter (fun e => isHotFrame e.first == hot && e.use != .retired)).map (liveFrames s)).sum

def hotFreeCount (s : State) : Nat := hotAllocatable s - framesUsed s true
def coldFreeCount (s : State) : Nat := coldAllocatable s - framesUsed s false

/-! ### Allocation -/

/-- The first of a run of candidates that may be taken. -/
def skipTo (ok : Nat → Bool) : Nat → Nat → Nat
  | 0, f => f
  | n + 1, f => if ok f then f else skipTo ok n (f + 1)

/-- A frame is zero-filled with whole-line writes when it is allocated, which clears its poison (R120). -/
def cleanFrame (f : Nat) (m : Mem) : Mem :=
  { m with cells := memZero m.cells (f * frameBytes) frameBytes,
           poison := m.poison.filter (fun l => decide (l / frameBytes ≠ f)) }

/-- Frames that one tier may give out; recovery draws on the reserve as well (R43). -/
def tierRoom (hot reserve : Bool) (s : State) : Nat :=
  if hot then (if reserve then hotUsable s else hotAllocatable s) else (if reserve then coldUsable s else coldAllocatable s)

/-- A GDDR7 frame that may be taken: a freed one first, else the next never used; those passed over are free ones. -/
def takeHot (may : Nat → Bool) (s : State) : Option (Nat × State) :=
  let ok := fun f => !retired s f && may f
  match s.mem.hotFree.find? ok with
  | some f => some (f, s.setMem (cleanFrame f { s.mem with hotFree := s.mem.hotFree.filter (fun x => decide (x ≠ f)) }))
  | none =>
    let f := skipTo ok 97 s.mem.hotNext
    let passed := ((List.range (f - s.mem.hotNext)).map (s.mem.hotNext + ·)).filter (fun x => !retired s x)
    if hotPopulated s f && ok f then
      some (f, s.setMem (cleanFrame f { s.mem with hotNext := f + 1, hotFree := s.mem.hotFree ++ passed })) else none

/-- Takes one frame of a tier; `reserve` lets recovery take it out of the reserve (R43). -/
def takeFrame (hot reserve : Bool) (s : State) : Option (Nat × State) :=
  if framesUsed s hot < tierRoom hot reserve s then
    if hot then takeHot (fun _ => true) s
    else
      match s.mem.coldFree.filter (fun f => !retired s f) with
      | f :: _ => some (f, s.setMem (cleanFrame f { s.mem with coldFree := s.mem.coldFree.filter (fun x => decide (x ≠ f)) }))
      | [] =>
        let f := coldBase + s.mem.coldNext
        let f := match frameSet s f with
          | some c => if c.fenced then coldBase + c.first + c.count else f
          | none => f
        if coldPopulated s f && !retired s f then
          some (f, s.setMem (cleanFrame f { s.mem with coldNext := f - coldBase + 1 })) else none
  else none

/-- Gives a frame back. -/
def freeFrame (f : Nat) (s : State) : State :=
  if retired s f then s
  else if isHotFrame f then s.setMem { s.mem with hotFree := f :: s.mem.hotFree }
  else s.setMem { s.mem with coldFree := f :: s.mem.coldFree }

/-- Takes frames of one tier for a use one by one. -/
def takeSingles (hot : Bool) (use : FrameUse) : Nat → State → Option State
  | 0, s => some s
  | n + 1, s => (takeFrame hot false s).bind (fun fs => takeSingles hot use n
      (fs.2.setMem { fs.2.mem with extents := fs.2.mem.extents ++ [{ first := fs.1, count := 1, use := use }] }))

/-- A run of frames is zero-filled as it is allocated, which clears its poison (R120). -/
def cleanRun (f n : Nat) (m : Mem) : Mem :=
  { m with cells := memZero m.cells (f * frameBytes) (n * frameBytes),
           poison := m.poison.filter (fun l => !decide (f ≤ l / frameBytes ∧ l / frameBytes < f + n)) }

/-- The next never-used GDDR7 frames in one run. -/
def takeRun (use : FrameUse) (n : Nat) (s : State) : State :=
  s.setMem (cleanRun s.mem.hotNext n { s.mem with hotNext := s.mem.hotNext + n,
                                                  extents := s.mem.extents ++ [{ first := s.mem.hotNext, count := n, use := use }] })

/-- Takes GDDR7 frames for one use: the next never-used frames in one run where no frame is retired and they suffice, else one by one. -/
def takeExtent (use : FrameUse) (n : Nat) (s : State) : Option State :=
  if n = 0 then some s
  else if hotAllocatable s < framesUsed s true + n then none
  else if s.mem.fenced.isEmpty ∧ s.mem.hotNext + n ≤ s.mem.hotTotal then some (takeRun use n s)
  else takeSingles true use n s

/-- The frames of a use, in order. -/
def useFrames (s : State) (use : FrameUse) : List Nat :=
  (s.mem.extents.filter (fun e => e.use == use)).flatMap (fun e => (List.range e.count).map (e.first + ·))

/-- A frame for the second copy of a map frame: on another channel than the first (R103). -/
def takeTwin (use : FrameUse) (reserve : Bool) (f : Nat) (s : State) : Option (Nat × State) :=
  if framesUsed s true < tierRoom true reserve s then
    (takeHot (fun g => frameChan s g != frameChan s f) s).map (fun a =>
      (a.1, a.2.setMem { a.2.mem with extents := a.2.mem.extents ++ [{ first := a.1, count := 1, use := use }] }))
  else none

/-- Pairs of frames, one after the other, the two of a pair on different channels. -/
def takePairs (use : FrameUse) (reserve : Bool) : Nat → State → Option State
  | 0, s => some s
  | n + 1, s => (takeFrame true reserve s).bind (fun a =>
      (takeTwin use reserve a.1 (a.2.setMem { a.2.mem with extents := a.2.mem.extents ++ [{ first := a.1, count := 1, use := use }] })).bind
        (fun b => takePairs use reserve n b.2))

/-- The two copies of a table's block map and bitmap: frames of a use in pairs, on two different channels each (R103). Consecutive frames of a run
lie on different channels (R108). -/
def takeMap (use : FrameUse) (reserve : Bool) (n : Nat) (s : State) : Option State :=
  if n = 0 then some s
  else if tierRoom true reserve s < framesUsed s true + 2 * n then none
  else if s.mem.fenced.isEmpty ∧ 2 ≤ s.mem.channels.length ∧ s.mem.hotNext + 2 * n ≤ s.mem.hotTotal ∧ (useFrames s use).length % 2 = 0 then
    some (takeRun use (2 * n) s)
  else takePairs use reserve n s

/-- The other frame of a pair of a use. -/
def twinOf (s : State) (use : FrameUse) (f : Nat) : Option Nat :=
  let l := useFrames s use
  let i := l.idxOf f
  l[if i % 2 = 0 then i + 1 else i - 1]?

/-- Gives back every run taken for a use. -/
def freeExtents (p : FrameUse → Bool) (s : State) : State :=
  let gone := s.mem.extents.filter (fun e => p e.use)
  s.setMem { s.mem with extents := s.mem.extents.filter (fun e => !p e.use),
                        hotFree := (gone.map (fun e => (List.range e.count).map (e.first + ·))).flatten ++ s.mem.hotFree }

/-! ### Lines and poison (R117 to R121) -/

def lineOf (dpa : Nat) : Nat := dpa / 128 * 128

/-- The lines that a range of bytes touches. -/
def linesOf (dpa n : Nat) : List Nat :=
  if n = 0 then [] else (List.range ((dpa + n - 1) / 128 - dpa / 128 + 1)).map (fun i => (dpa / 128 + i) * 128)

/-- A line is poisoned: it has taken the poison pattern, or its channel or device has been fenced at run time, which poisons every line of its
frames (R113, R119, R127). -/
def poisoned (s : State) (dpa : Nat) : Bool := s.mem.poison.contains (lineOf dpa) || retired s (dpa / frameBytes)
def rangePoisoned (s : State) (dpa n : Nat) : Bool := (linesOf dpa n).any (poisoned s)

/-- An access to a line fails: the line is poisoned, or the block that serves it is isolated (R165, R628). -/
def lineFails (s : State) (a : Nat) : Bool := poisoned s a || isolated s (lineBlock s a)

/-- A host's memory request meets an isolated block: the port block of its host port, or the one that serves a line of its range (R728). -/
def requestAborted (s : State) (hp dpa n : Nat) : Bool :=
  (match hostPortBlock s hp with | some b => isolated s (blkPb b) | none => false)
    || (linesOf dpa n).any (fun a => isolated s (lineBlock s a))

/-- A memory request to a BAR of a function that is not served: a read completes with Unsupported Request, and a write has no effect (R652). -/
def unserved (hp : Nat) (read : Bool) (s : State) : State := if read && !s.boot.inReset then emit (.unsupported hp) s else s

/-- A memory request that is aborted: a read completes with Completer Abort, and a write has no effect (R728). -/
def completerAbort (hp : Nat) (read : Bool) (s : State) : State := if read then emit (.completerAbort hp) s else s

/-- A line takes the poison pattern (R119). -/
def poisonLine (l : Nat) (s : State) : State :=
  if poisoned s l then s
  else s.setMem { s.mem with poison := s.mem.poison ++ [l], cells := memZero s.mem.cells l 128 }

/-- The stored checksum of a line (R117, R119): over its 128 bytes and its DPA, XOR 0x0BAD_C0DE where it is poisoned. -/
def lineChecksum (s : State) (l : Nat) : BitVec 32 :=
  let c := crc32c (memGetBytes s.mem.cells l 128 ++ leBytes 8 l)
  if poisoned s l then c ^^^ 0x0BADC0DE#32 else c

/-- The check line of the group that holds a line: the checksums of its 31 data lines, then its own over bytes 0 to 123 and its DPA, which the spec
does not give (R115, R117; log 172). -/
def checkLine (s : State) (dpa : Nat) : Bytes :=
  let x := storeLine s dpa
  let b := (groupLines s dpa).flatMap (fun l => leBytes 4 (match l with | some l => (lineChecksum s l).toNat | none => 0))
  b ++ leBytes 4 (crc32c (b ++ leBytes 8 (Config.checkDpa (x.1 * 2 ^ 40 + x.2 / 31)))).toNat

/-- Writes one segment that lies within a line: a whole line clears poison, a part of a poisoned line is not applied (R120). -/
def writeSeg (l dpa : Nat) (seg : Bytes) (s : State) : State × Bool :=
  if retired s (l / frameBytes) then (s, false)
  else if s.mem.poison.contains l then
    (if seg.length = 128 then
      (s.setMem { s.mem with poison := s.mem.poison.filter (fun x => decide (x ≠ l)),
                             cells := memPutBytes s.mem.cells dpa seg }, true)
     else (s, false))
  else (setCells (memPutBytes s.mem.cells dpa seg) s, true)

/-- Writes a run of bytes line by line; the flag says that every line took its part. -/
def writeMem (dpa : Nat) (bs : Bytes) (s : State) : State × Bool :=
  (linesOf dpa bs.length).foldl (fun acc l =>
    let a := max dpa l
    let e := min (dpa + bs.length) (l + 128)
    let r := writeSeg l a ((bs.drop (a - dpa)).take (e - a)) acc.1
    (r.1, acc.2 && r.2)) (s, true)

/-- Writes a run of bytes of table rows. Every line that the run covers whole is clear of poison; a poisoned line of which it covers a part stays
poisoned until the rows on it have all been written (R120, `healLines`; log 173). -/
def writeFresh (dpa : Nat) (bs : Bytes) (s : State) : State :=
  let ls := (linesOf dpa bs.length).filter (fun l => decide (dpa ≤ l ∧ l + 128 ≤ dpa + bs.length))
  s.setMem { s.mem with poison := s.mem.poison.filter (fun l => !ls.contains l),
                        cells := memPutBytes s.mem.cells dpa bs }

/-- Bytes of custody memory as a reader sees them; a poisoned line holds zeros (R119). -/
def readMem (dpa n : Nat) (s : State) : Bytes := memGetBytes s.mem.cells dpa n

/-- The channel of a GDDR7 line retrains, and its accesses are held (R112). -/
def channelHeld (s : State) (dpa : Nat) : Bool :=
  isHotFrame (dpa / frameBytes) && s.mem.retraining.contains (frameChan s (dpa / frameBytes))

/-- Some line of a range lies on a channel that retrains. -/
def rangeHeld (s : State) (dpa n : Nat) : Bool := !s.mem.retraining.isEmpty && (linesOf dpa n).any (channelHeld s)

/-- A host's access to custody memory is done: a read returns its bytes, a write stores them line by line (R120). -/
def serveAcc (a : HeldAcc) (s : State) : State :=
  match a.write with
  | none => emit (.readData (readMem a.dpa a.len s) (rangePoisoned s a.dpa a.len)) s
  | some bs => (writeMem a.dpa bs s).1

/-- A word of scratch of a range is marked bad (R142). -/
def badScratch (s : State) (dpa n : Nat) : Bool := s.mem.badWords.any (fun w => decide (w < dpa + n ∧ dpa < w + 8))

/-! ### Block map (R102) -/

def blkFind (s : State) (table region index : Nat) : Option Blk :=
  s.mem.blocks.find? (fun b => b.table == table && b.region == region && b.index == index)

def updBlk (table region index : Nat) (f : Blk → Blk) (s : State) : State :=
  s.setMem { s.mem with
    blocks := updFirst (fun b => b.table == table && b.region == region && b.index == index) f s.mem.blocks }

/-- The block whose frame holds a DPA. -/
def blkAt (s : State) (dpa : Nat) : Option Blk :=
  s.mem.blocks.find? (fun b => b.frame == some (dpa / frameBytes))

/-- The extent that holds a DPA. -/
def extentAt (s : State) (dpa : Nat) : Option Extent :=
  s.mem.extents.find? (fun e => decide (e.first ≤ dpa / frameBytes ∧ dpa / frameBytes < e.first + e.count))

/-- A descriptor or mason-array access touches a block (R128). -/
def heatUp (table region index : Nat) (s : State) : State :=
  updBlk table region index (fun b => { b with heat := satAdd 255 b.heat 1 }) s

/-- DPA of a byte of a region of a table, through the block map; none while its block waits for a frame. -/
def regionDpa (s : State) (table region off : Nat) : Option Nat :=
  match blkFind s table region (off / frameBytes) with
  | some b => b.frame.map (fun f => f * frameBytes + off % frameBytes)
  | none => none

/-- A vault access by anyone but the steward cores and the cipher engine is refused and recorded (R143). -/
def vaultDenied (requester : Nat) (s : State) : State :=
  recordCor blkCipher 0x0100 [requester] (bump blkCipher 0x11C s)

end Sys2Proof.Machine
end

