-- ==== Sys2Proof/Machine/Wire.lean ====
section
/-! DEFINITION. The bytes of the structures that the part reads and writes: headers of the Igavaine Command Protocol in the byte order of their transport (R9
to R11, R52, R53, R57), custody descriptors (R257), NVMe commands, and work requests and packets of the transport (R539 to R541). -/

namespace Sys2Proof.Machine

open Sys2Proof

/-! ### Byte order of a header (R9, R10) -/

/-- A field of a header: in network byte order, or little-endian. -/
def hdr (net : Bool) (bs : Bytes) (off n : Nat) : Nat := if net then be bs off n else le bs off n

/-- A zeroed header of a size with fields (offset, bytes, value) set, in network byte order or little-endian. -/
def hdrLayout (net : Bool) (size : Nat) (fields : List (Nat × Nat × Nat)) : Bytes :=
  fields.foldl (fun b f => setBytes b f.1 (if net then (leBytes f.2.1 f.2.2).reverse else leBytes f.2.1 f.2.2)) (List.replicate size 0)

/-! ### ICP packets (R52, R53, R57) -/

/-- The command packet that a slot or payload holds; reserved bytes are ignored (R14), and bytes beyond the payload read 0. -/
def icpPkt (net : Bool) (x : IcpSlot) : IcpPkt :=
  let f := hdr net x.bytes
  { major := f 0 1, minor := f 1 1, opcode := f 2 2, tag := f 4 4, functionId := f 8 2, generation := f 0xA 2, flags := f 0xC 4,
    paramLen := f 0x10 2, sessionId := f 0x14 4, room := x.bytes.length - 32, params := x.bytes.drop 32, dma := x.dma, reads := x.reads,
    parity := x.parity, fwFault := x.fwFault }

/-- The bytes of a command packet. -/
def pktBytes (net : Bool) (p : IcpPkt) : Bytes :=
  hdrLayout net 32 [(0, 1, p.major), (1, 1, p.minor), (2, 2, p.opcode), (4, 4, p.tag), (8, 2, p.functionId), (0xA, 2, p.generation),
    (0xC, 4, p.flags), (0x10, 2, p.paramLen), (0x14, 4, p.sessionId)] ++ p.params

/-- The reply header (R57). -/
def IcpReply.header (net : Bool) (r : IcpReply) : Bytes :=
  hdrLayout net 32 [(0, 1, r.major), (1, 1, r.minor), (2, 2, r.opcode), (4, 4, r.tag), (8, 2, r.functionId), (0xA, 2, r.generation),
    (0xC, 2, r.status), (0xE, 2, r.detail), (0x10, 2, r.data.length), (0x12, 2, r.cmdHead), (0x14, 4, r.sessionId),
    (0x1C, 4, bit r.phase + 2 * bit r.interim)]

/-- The bytes of a reply. -/
def IcpReply.bytes (net : Bool) (r : IcpReply) : Bytes := r.header net ++ r.data

/-! ### Custody descriptors (R257) -/

/-- The 64 bytes of a descriptor. -/
def descBytes (d : Desc) : Bytes :=
  layout 64 [(0, 1, d.opcode), (1, 1, d.version), (2, 2, d.flags), (4, 4, d.tag), (8, 4, d.handle), (0xC, 4, d.step),
    (0x10, 8, d.indexAddr), (0x18, 8, d.dataAddr), (0x20, 8, d.auxAddr), (0x28, 4, d.count), (0x2C, 4, d.bags), (0x30, 1, d.pool),
    (0x31, 1, d.ioFormat), (0x32, 2, d.colStart), (0x34, 2, d.colCount), (0x38, 4, d.lr)]

/-- The descriptor that a slot of a submission ring holds. -/
def descOf (b : Bytes) : Desc :=
  { opcode := le b 0 1, version := le b 1 1, flags := le b 2 2, tag := le b 4 4, handle := le b 8 4, step := le b 0xC 4,
    indexAddr := le b 0x10 8, dataAddr := le b 0x18 8, auxAddr := le b 0x20 8, count := le b 0x28 4, bags := le b 0x2C 4, pool := le b 0x30 1,
    ioFormat := le b 0x31 1, colStart := le b 0x32 2, colCount := le b 0x34 2, lr := le b 0x38 4 }

/-! ### NVMe commands -/

/-- The command of a 64-byte submission entry and its opcode, with the places that its data pointer names. The offsets are those of NVM Express, which
the storage service implements (PRESUMED, log 181). -/
def nvmeOf (b : Bytes) (prp : List (Nat × Nat)) : Nat × NvmeCmd :=
  (le b 0 1, { cid := le b 2 2, nsid := le b 4 4, prp := prp, dw10 := le b 0x28 4, dw11 := le b 0x2C 4, dw12 := le b 0x30 4, dw13 := le b 0x34 4,
               dw14 := le b 0x38 4, dw15 := le b 0x3C 4 })

/-- An entry of a submission queue as the part reads it: opcode, command and what the outside gives it. -/
def nvmeSlot (x : NvmeSlot) : Nat × NvmeCmd × NvmeIo :=
  let c := nvmeOf x.bytes x.prp
  (c.1, c.2, x.io)

/-! ### Descriptors of a NIC queue pair (R519) -/

/-- The 32 bytes of a transmit descriptor. -/
def txBytes (d : TxDesc) : Bytes :=
  layout 32 [(0, 8, d.addr), (8, 4, d.len), (0xC, 2, d.flags), (0xE, 2, d.vlan), (0x10, 1, d.l3), (0x11, 1, d.l4)]

/-- The transmit descriptor that a slot holds. -/
def txOf (b : Bytes) : TxDesc :=
  { addr := le b 0 8, len := le b 8 4, flags := le b 0xC 2, vlan := le b 0xE 2, l3 := le b 0x10 1, l4 := le b 0x11 1 }

/-- The receive buffer descriptor that a slot holds. -/
def rxOf (b : Bytes) : RxDesc := { addr := le b 0 8, len := le b 8 4 }

/-! ### The transport (R539, R541) -/

/-- The work request of a slot of a work queue, little-endian. -/
def wrOf (b : Bytes) (cipher : Nat) : GrtWr :=
  { opcode := le b 0 1, flags := le b 1 1, tag := le b 4 4, conn := le b 8 4, length := le b 0xC 4, localAddr := le b 0x10 8, rkey := le b 0x18 4,
    notify := le b 0x1C 4, remoteOffset := le b 0x20 8, ctrInc := le b 0x28 1, trigCtr := le b 0x29 1, threshold := le b 0x30 8,
    ctrValue := le b 0x38 8, cipher := cipher }

/-- A slot of a work queue as the part reads it: the work request and the bytes of its LOCAL_ADDR. -/
def wrSlot (x : WrSlot) : GrtWr × Option Bytes := (wrOf x.bytes x.cipher, x.data)

/-- The 64 bytes of a work request. -/
def wrBytes (w : GrtWr) : Bytes :=
  layout 64 [(0, 1, w.opcode), (1, 1, w.flags), (4, 4, w.tag), (8, 4, w.conn), (0xC, 4, w.length), (0x10, 8, w.localAddr), (0x18, 4, w.rkey),
    (0x1C, 4, w.notify), (0x20, 8, w.remoteOffset), (0x28, 1, w.ctrInc), (0x29, 1, w.trigCtr), (0x30, 8, w.threshold), (0x38, 8, w.ctrValue)]

/-- A packet as it goes on the wire: the 24-byte base header in network byte order, the extension header, the payload. -/
def grtBytes (p : GrtPkt) : Bytes :=
  hdrLayout true 24 [(0, 1, p.ver % 16 * 16 + p.type % 16), (1, 1, p.flags), (2, 2, p.payload.length), (4, 4, p.dst), (8, 4, p.psn), (0xC, 4, p.ts),
    (0x10, 1, p.path)] ++ p.ext ++ p.payload

/-- Bytes of the extension header of a packet type; an ACK's tells its own length (R540). -/
def grtExtLen (type : Nat) (b : Bytes) : Nat :=
  if type = 5 then 16 + be b 0x25 1 else if type = 6 then 16 else if 1 ≤ type ∧ type ≤ 7 then 24 else 0

/-- The packet that bytes on the wire spell; `ce`: they arrived CE-marked. -/
def grtOf (b : Bytes) (ce : Bool) : GrtPkt :=
  let n := grtExtLen (be b 0 1 % 16) b
  { ver := be b 0 1 / 16, type := be b 0 1 % 16, flags := be b 1 1, dst := be b 4 4, psn := be b 8 4, ts := be b 0xC 4, path := be b 0x10 1,
    ext := (b.drop 24).take n, payload := (b.drop (24 + n)).take (be b 2 2), ce := ce }

/-- A packet that has arrived, read in network byte order (R10). -/
def arrived (x : GrtArrival) : GrtPkt :=
  match x with
  | .grt b ce => grtOf b ce
  | .roce p => { p with roce := true }

end Sys2Proof.Machine
end

