-- ==== Sys2Proof/Machine/Icp.lean ====
section
/-! DEFINITION. The Igavaine Command Protocol: status codes, the opcode table, the checks of a command, and the posting of replies. -/

namespace Sys2Proof.Machine

open Sys2Proof

/-! ### Status codes (R75) and details (R76) -/

def stOk : Nat := 0x0000
def stDeferred : Nat := 0x0010
def stBusy : Nat := 0x0011
def stUnknownOpcode : Nat := 0x0020
def stVersion : Nat := 0x0021
def stBadHandle : Nat := 0x0022
def stBadAddress : Nat := 0x0023
def stNotPermitted : Nat := 0x0024
def stNoResource : Nat := 0x0025
def stConflict : Nat := 0x0026
def stAbortedReset : Nat := 0x0030
def stFooting : Nat := 0x0040
def stIntegrity : Nat := 0x0050
def stFailed : Nat := 0x0060
def stInternal : Nat := 0x00FF

def dtNone : Nat := 0
def dtClamped : Nat := 1
def dtNoSession : Nat := 2
def dtStaleSession : Nat := 3
def dtStaleGeneration : Nat := 4
def dtCap : Nat := 5
def dtParamLength : Nat := 6
def dtFunctionId : Nat := 7
def dtIssuerKind : Nat := 8
def dtStaged : Nat := 9
def dtStageFull : Nat := 0xA
def dtDrain : Nat := 0xB
def dtPower : Nat := 0xC
def dtThermal : Nat := 0xD
def dtIsolated : Nat := 0xE
def dtFrozen : Nat := 0x0180
/-- DETAIL of a rejected field (R73). -/
def dtField (off : Nat) : Nat := 0x8000 + off

/-- A row of the opcode table (R77); `block` is the block index a command of the opcode needs (R728). -/
structure OpSpec where
  op : Nat
  major : Nat
  minor : Nat
  cap : Option Nat
  size : Nat
  footing : Bool
  p : Bool
  f : Bool
  a : Bool
  block : Option Nat
  deriving DecidableEq, Repr

def opTable0 : List OpSpec :=
  [{ op := 0x0000, major := 2, minor := 0, cap := none, size := 56, footing := true, p := true, f := true, a := true, block := none },
   { op := 0x0001, major := 2, minor := 0, cap := none, size := 0, footing := true, p := true, f := true, a := true, block := none },
   { op := 0x0002, major := 2, minor := 0, cap := none, size := 8, footing := false, p := false, f := true, a := false, block := none },
   { op := 0x0003, major := 2, minor := 0, cap := none, size := 0, footing := true, p := true, f := true, a := true, block := none },
   { op := 0x0100, major := 2, minor := 0, cap := none, size := 0, footing := true, p := true, f := true, a := false, block := none },
   { op := 0x0101, major := 2, minor := 0, cap := none, size := 0, footing := true, p := true, f := false, a := false, block := none },
   { op := 0x0102, major := 2, minor := 0, cap := none, size := 8, footing := true, p := true, f := false, a := false, block := none },
   { op := 0x0103, major := 2, minor := 0, cap := none, size := 0, footing := true, p := true, f := false, a := false, block := none },
   { op := 0x0110, major := 3, minor := 0, cap := none, size := 16, footing := false, p := true, f := true, a := false, block := none },
   { op := 0x0111, major := 3, minor := 0, cap := none, size := 16, footing := false, p := true, f := true, a := false, block := none },
   { op := 0x0112, major := 3, minor := 0, cap := none, size := 0, footing := false, p := true, f := true, a := false, block := none },
   { op := 0x0120, major := 2, minor := 0, cap := none, size := 8, footing := false, p := true, f := false, a := false, block := some 32 },
   { op := 0x0200, major := 2, minor := 0, cap := none, size := 128, footing := false, p := true, f := true, a := false, block := some 25 },
   { op := 0x0201, major := 2, minor := 0, cap := none, size := 8, footing := false, p := true, f := true, a := false, block := some 25 },
   { op := 0x0202, major := 2, minor := 0, cap := none, size := 8, footing := false, p := true, f := true, a := false, block := some 25 },
   { op := 0x0204, major := 2, minor := 0, cap := none, size := 64, footing := false, p := true, f := true, a := false, block := some 25 },
   { op := 0x0205, major := 2, minor := 0, cap := none, size := 8, footing := false, p := true, f := true, a := false, block := some 25 },
   { op := 0x0210, major := 2, minor := 0, cap := none, size := 64, footing := false, p := true, f := true, a := false, block := none },
   { op := 0x0211, major := 2, minor := 0, cap := none, size := 8, footing := false, p := true, f := true, a := false, block := none },
   { op := 0x0212, major := 3, minor := 0, cap := none, size := 32, footing := false, p := true, f := true, a := false, block := some 25 }]

def opTable1 : List OpSpec :=
  [{ op := 0x0300, major := 2, minor := 0, cap := none, size := 128, footing := false, p := true, f := false, a := false, block := some 26 },
   { op := 0x0301, major := 2, minor := 0, cap := none, size := 32, footing := false, p := true, f := false, a := false, block := some 26 },
   { op := 0x0302, major := 2, minor := 0, cap := none, size := 16, footing := false, p := true, f := true, a := true, block := some 26 },
   { op := 0x0303, major := 2, minor := 0, cap := none, size := 8, footing := false, p := true, f := true, a := false, block := some 26 },
   { op := 0x0304, major := 2, minor := 0, cap := none, size := 8, footing := false, p := true, f := false, a := false, block := some 26 },
   { op := 0x0305, major := 2, minor := 0, cap := none, size := 48, footing := false, p := true, f := true, a := true, block := some 26 },
   { op := 0x0306, major := 2, minor := 0, cap := none, size := 8, footing := false, p := true, f := true, a := true, block := some 26 },
   { op := 0x0307, major := 2, minor := 0, cap := none, size := 64, footing := false, p := true, f := true, a := false, block := some 26 },
   { op := 0x0308, major := 2, minor := 0, cap := none, size := 8, footing := false, p := true, f := false, a := false, block := some 26 },
   { op := 0x0310, major := 2, minor := 0, cap := none, size := 64, footing := false, p := true, f := false, a := false, block := some 26 },
   { op := 0x0311, major := 2, minor := 0, cap := none, size := 16, footing := false, p := true, f := false, a := false, block := some 26 },
   { op := 0x0312, major := 2, minor := 0, cap := none, size := 8, footing := false, p := true, f := false, a := false, block := some 26 },
   { op := 0x0313, major := 3, minor := 0, cap := none, size := 64, footing := false, p := true, f := false, a := false, block := some 26 },
   { op := 0x0400, major := 2, minor := 0, cap := none, size := 128, footing := false, p := true, f := false, a := false, block := some 27 },
   { op := 0x0401, major := 2, minor := 0, cap := none, size := 8, footing := false, p := true, f := false, a := false, block := some 27 },
   { op := 0x0402, major := 2, minor := 0, cap := none, size := 16, footing := false, p := true, f := false, a := false, block := some 27 },
   { op := 0x0403, major := 2, minor := 0, cap := none, size := 16, footing := false, p := true, f := false, a := false, block := some 27 },
   { op := 0x0404, major := 2, minor := 0, cap := none, size := 8, footing := false, p := true, f := true, a := false, block := some 27 },
   { op := 0x0405, major := 2, minor := 0, cap := none, size := 8, footing := false, p := true, f := false, a := false, block := some 27 },
   { op := 0x0406, major := 2, minor := 0, cap := none, size := 32, footing := false, p := true, f := false, a := false, block := some 27 }]

def opTable2 : List OpSpec :=
  [{ op := 0x0500, major := 2, minor := 0, cap := none, size := 64, footing := false, p := true, f := false, a := false, block := none },
   { op := 0x0501, major := 2, minor := 0, cap := none, size := 8, footing := false, p := true, f := true, a := false, block := none },
   { op := 0x0502, major := 2, minor := 0, cap := none, size := 128, footing := false, p := true, f := false, a := false, block := some 28 },
   { op := 0x0503, major := 2, minor := 0, cap := none, size := 32, footing := false, p := true, f := false, a := false, block := some 28 },
   { op := 0x0504, major := 2, minor := 0, cap := none, size := 16, footing := false, p := true, f := true, a := false, block := some 28 },
   { op := 0x0505, major := 2, minor := 0, cap := none, size := 32, footing := false, p := true, f := true, a := false, block := some 28 },
   { op := 0x0506, major := 2, minor := 0, cap := none, size := 32, footing := false, p := true, f := false, a := false, block := some 28 },
   { op := 0x0507, major := 2, minor := 0, cap := none, size := 16, footing := false, p := true, f := false, a := false, block := none },
   { op := 0x0508, major := 2, minor := 0, cap := none, size := 32, footing := false, p := true, f := true, a := false, block := some 28 },
   { op := 0x0510, major := 2, minor := 0, cap := none, size := 96, footing := false, p := true, f := true, a := true, block := some 29 },
   { op := 0x0511, major := 2, minor := 0, cap := none, size := 8, footing := false, p := true, f := true, a := true, block := some 29 },
   { op := 0x0512, major := 2, minor := 0, cap := none, size := 48, footing := false, p := true, f := true, a := true, block := some 29 },
   { op := 0x0513, major := 2, minor := 0, cap := none, size := 8, footing := false, p := true, f := true, a := true, block := some 29 },
   { op := 0x0514, major := 2, minor := 0, cap := none, size := 8, footing := false, p := true, f := true, a := false, block := some 29 },
   { op := 0x0600, major := 2, minor := 0, cap := none, size := 80, footing := false, p := true, f := false, a := false, block := some 30 },
   { op := 0x0601, major := 2, minor := 0, cap := none, size := 8, footing := false, p := true, f := false, a := false, block := some 30 },
   { op := 0x0602, major := 2, minor := 0, cap := none, size := 96, footing := false, p := true, f := false, a := false, block := some 30 },
   { op := 0x0603, major := 2, minor := 0, cap := none, size := 8, footing := false, p := true, f := true, a := false, block := some 30 },
   { op := 0x0604, major := 2, minor := 0, cap := none, size := 0, footing := false, p := true, f := true, a := false, block := some 30 },
   { op := 0x0700, major := 2, minor := 0, cap := none, size := 8, footing := false, p := true, f := false, a := false, block := none }]

def opTable3 : List OpSpec :=
  [{ op := 0x0701, major := 2, minor := 0, cap := none, size := 8, footing := false, p := true, f := false, a := false, block := none },
   { op := 0x0702, major := 2, minor := 0, cap := none, size := 32, footing := false, p := true, f := false, a := false, block := some 31 },
   { op := 0x0703, major := 2, minor := 0, cap := none, size := 8, footing := false, p := true, f := true, a := false, block := some 31 },
   { op := 0x0704, major := 2, minor := 0, cap := none, size := 32, footing := false, p := true, f := false, a := false, block := some 31 },
   { op := 0x0705, major := 3, minor := 1, cap := some 2, size := 16, footing := false, p := true, f := false, a := false, block := some 31 },
   { op := 0x0800, major := 2, minor := 0, cap := none, size := 48, footing := true, p := true, f := false, a := false, block := none },
   { op := 0x0801, major := 2, minor := 0, cap := none, size := 16, footing := true, p := true, f := false, a := false, block := none },
   { op := 0x0802, major := 2, minor := 0, cap := none, size := 0, footing := true, p := true, f := false, a := false, block := none },
   { op := 0x0900, major := 2, minor := 0, cap := none, size := 64, footing := false, p := true, f := false, a := false, block := none },
   { op := 0x0901, major := 2, minor := 0, cap := none, size := 8, footing := false, p := true, f := false, a := false, block := none },
   { op := 0x0902, major := 2, minor := 0, cap := none, size := 8, footing := false, p := true, f := false, a := false, block := none },
   { op := 0x0903, major := 2, minor := 0, cap := none, size := 8, footing := false, p := true, f := true, a := false, block := none },
   { op := 0x0904, major := 3, minor := 0, cap := none, size := 8, footing := false, p := true, f := false, a := false, block := none },
   { op := 0x0905, major := 3, minor := 0, cap := none, size := 24, footing := false, p := true, f := false, a := false, block := none },
   { op := 0x0906, major := 3, minor := 0, cap := none, size := 24, footing := false, p := true, f := false, a := false, block := none },
   { op := 0x0907, major := 3, minor := 0, cap := none, size := 8, footing := false, p := true, f := false, a := false, block := none },
   { op := 0x0908, major := 3, minor := 2, cap := some 5, size := 32, footing := false, p := true, f := false, a := false, block := none },
   { op := 0x0909, major := 3, minor := 2, cap := some 5, size := 8, footing := false, p := true, f := false, a := false, block := none },
   { op := 0x0F00, major := 2, minor := 0, cap := none, size := 32, footing := true, p := true, f := false, a := false, block := none },
   { op := 0x0F01, major := 2, minor := 0, cap := none, size := 8, footing := true, p := true, f := false, a := false, block := none }]

def opTable4 : List OpSpec :=
  [{ op := 0x0F02, major := 2, minor := 0, cap := none, size := 16, footing := true, p := true, f := false, a := false, block := none }]

/-- The opcode table of R77. -/
def opTable : List OpSpec := opTable0 ++ opTable1 ++ opTable2 ++ opTable3 ++ opTable4

/-- The row of an opcode. -/
def opSpec (op : Nat) : Option OpSpec := opTable.find? (fun o => o.op == op)

/-! ### Issuers (R55, R77, R731) -/

/-- Who issued a command: the kind and FUNCTION_ID of R55, whether it is privileged, and the function or endpoint that owns what
it creates. -/
structure Issuer where
  kind : Nat
  fid : Nat
  priv : Bool
  owner : Nat
  deriving DecidableEq, Repr

def sessionOf (s : State) (via : Via) : Option Session := look s.icp.sessions via

def issuerOf (s : State) : Via → Issuer
  | .ring fn => { kind := fn / 0x1000, fid := fn, priv := fn == 0 || fn == 3, owner := fn }
  | .mgmt peer =>
    { kind := 2, fid := 0x2000 + ((look s.icp.sessions (.mgmt peer)).map (·.slot)).getD 0, priv := true, owner := 0 }
  | .mctp eid => { kind := 3, fid := 0x3000 + eid, priv := true, owner := 0 }
  | .accel ep => { kind := 4, fid := accelId ep, priv := false, owner := accelId ep }

/-- The ring of a transport: by FUNCTION_ID of the function or the accelerator endpoint. -/
def ringKey : Via → Option Nat
  | .ring fn => some fn
  | .accel ep => some (accelId ep)
  | _ => none

def ringOf (s : State) (k : Nat) : Ring := lookD s.rings k (if isAccel k then { cmdLog2 := 6, rplLog2 := 6 } else {})
def setRing (k : Nat) (r : Ring) (s : State) : State := s.setRings (put s.rings k r)

/-- What a handler sees of its command. -/
structure Ctx where
  via : Via
  pkt : IcpPkt
  iss : Issuer
  sess : Option Session
  deriving DecidableEq, Repr

/-- The parameter block, PARAM_LEN bytes of it; what lies beyond reads 0. -/
def Ctx.params (c : Ctx) : Bytes := c.pkt.params.take c.pkt.paramLen

/-- A parameter field by its offset and size. -/
def Ctx.p (c : Ctx) (off n : Nat) : Nat := le c.params off n

/-- The session holds a capability bit (R69). -/
def Ctx.cap (c : Ctx) (b : Nat) : Bool := match c.sess with | some x => x.caps.testBit b | none => false

/-- What a handler answers: a reply with the state after it, or a state in which the final reply is still to come, with the detail and the
data that an OK reply would hold as things stand. -/
inductive Res where
  | reply (s : State) (status detail : Nat) (data : Bytes)
  | later (s : State) (detail : Nat) (data : Bytes)
  deriving DecidableEq, Repr

/-- A rejection, which leaves the state as it was. -/
def Res.rej (s : State) (status detail : Nat) : Res := .reply s status detail []

/-- OK, with detail CLAMPED where a value in effect differs from the value given (R74). -/
def Res.ok (s : State) (clamped : Bool) (data : Bytes) : Res := .reply s stOk (if clamped then dtClamped else dtNone) data

/-- The final reply is still to come; CLAMPED where a value in effect differs from the value given (R74). -/
def Res.wait (s : State) (clamped : Bool) (data : Bytes) : Res := .later s (if clamped then dtClamped else dtNone) data

/-- The checks first; where none fails, the rest. -/
def checked (s : State) (cs : List (Bool × Nat × Nat)) (k : Res) : Res :=
  match firstBad cs with
  | some (st, d) => Res.rej s st d
  | none => k

/-- R72 steps 10 and 11 after the field checks: `r` is what the command answers as far as its room goes; where the room suffices, a state
that forbids the command (a check of `bars` that fails) stops it. -/
def roomThen (s : State) (bars : List (Bool × Nat × Nat)) (r : Res) : Res :=
  match r with
  | .reply s' st dt data => if st = stNoResource then .reply s' st dt data else checked s bars (.reply s' st dt data)
  | .later s' dt data => checked s bars (.later s' dt data)

/-- Fields of a layout that use all their bits: offset, bytes, mask. -/
def whole (l : List (Nat × Nat)) : List (Nat × Nat × Nat) := l.map (fun f => (f.1, f.2, 2 ^ (8 * f.2) - 1))

/-- Reply data that holds the block in effect (R74): the fields that the layout names as given, with their reserved bits and every reserved byte
zero (R14), and the listed fields set to their values in effect. -/
def Ctx.echo (c : Ctx) (size : Nat) (named : List (Nat × Nat × Nat)) (fields : List (Nat × Nat × Nat)) : Bytes :=
  layout size (named.map (fun f => (f.1, f.2.1, c.p f.1 f.2.1 &&& f.2.2)) ++ fields)

/-- A field was clamped: some listed field differs from the value given. -/
def Ctx.differs (c : Ctx) (fields : List (Nat × Nat × Nat)) : Bool := fields.any (fun f => c.p f.1 f.2.1 != f.2.2)

/-- OK for an opcode whose reply is the block in effect: the fields in effect, and CLAMPED where one differs. -/
def Ctx.okEcho (c : Ctx) (s : State) (size : Nat) (named : List (Nat × Nat × Nat)) (fields : List (Nat × Nat × Nat)) : Res :=
  Res.ok s (c.differs fields) (c.echo size named fields)

abbrev Handler := Ctx → State → Res

def anyHostPort (s : State) : Bool := (hostPortBlock s 0).isSome

/-! ### The checks of R72 -/

def flagBit (v i : Nat) : Bool := v.testBit i

/-- FUNCTION_ID matches the transport and ring that carried the command (step 1). -/
def fidMatches (s : State) (op : Nat) (via : Via) (pkt : IcpPkt) : Bool :=
  match via with
  | .ring fn => pkt.functionId == fn
  | .accel ep => pkt.functionId == accelId ep
  | .mctp eid => pkt.functionId == 0x3000 + eid
  | .mgmt _ => pkt.functionId / 0x1000 == 2 && (op == 0 || pkt.functionId == (issuerOf s via).fid)

/-- The issuer kind is listed for an opcode (step 7). -/
def issuerListed (o : OpSpec) (i : Issuer) : Bool :=
  (o.p && i.priv) || (o.f && (i.kind == 0 || i.kind == 1)) || (o.a && i.kind == 4)

/-- An allotment of nothing. -/
def noAllot (f : Fn) : Bool := decide (f.allot = {})

/-- The session checks of step 2. -/
def checkSession (s : State) (via : Via) (pkt : IcpPkt) : List (Bool × Nat × Nat) :=
  match sessionOf s via with
  | none => [(true, stConflict, dtNoSession)]
  | some x => [(pkt.sessionId != x.sid, stConflict, dtStaleSession), (pkt.major != x.major, stVersion, dtNone)]

/-- The version and capability checks of step 6; CHECK_ONLY needs capability bit 0 of the open session, for HELLO too (R54). -/
def checkVersion (s : State) (o : OpSpec) (via : Via) (pkt : IcpPkt) : Bool :=
  if o.op = 0 then flagBit pkt.flags 1 && !(sessionOf s via).any (fun x => x.caps.testBit 0)
  else match sessionOf s via with
    | none => true
    | some x =>
      decide (x.major < o.major ∨ (x.major = o.major ∧ x.minor < o.minor))
        || (match o.cap with | some b => !x.caps.testBit b | none => false)
        || (flagBit pkt.flags 1 && !x.caps.testBit 0)

/-- Opcodes that create objects owned by a function (R731). -/
def createsOwned (op : Nat) : Bool := [0x0200, 0x0204, 0x0210, 0x0212, 0x0305, 0x0510, 0x0512].contains op

/-- The checks of R72 up to step 8, with the answers of a frozen part (R629) at step 5, of an isolated block (R728) after step 8,
and of R392 and R731 at step 10. -/
def icpChecks (op : Nat) (via : Via) (pkt : IcpPkt) (s : State) : List (Bool × Nat × Nat) :=
  let i := issuerOf s via
  let pre : List (Bool × Nat × Nat) := [(!fidMatches s op via pkt, stBadHandle, dtFunctionId)]
  let ses := if op = 0 then [] else checkSession s via pkt
  let gen : List (Bool × Nat × Nat) :=
    if i.kind = 2 ∨ i.kind = 3 then []
    else [(pkt.generation != genOf s i.fid && !(pkt.generation == 0 && ([0x0000, 0x0100, 0x0903].contains op)),
           stConflict, dtStaleGeneration)]
  match opSpec op with
  | none => pre ++ ses ++ gen ++ [(true, stUnknownOpcode, dtNone)]
  | some o => pre ++ ses ++ gen ++
    [(footing s && !o.footing, stFooting, dtNone),
     (s.tel.frozen && !(o.footing || op == 0x0700 || op == 0x0701), stConflict, dtFrozen),
     (checkVersion s o via pkt, stVersion, dtCap),
     (!issuerListed o i, stNotPermitted, dtIssuerKind),
     (decide (4064 < pkt.paramLen ∨ pkt.room < pkt.paramLen ∨ pkt.paramLen < o.size), stBadAddress, dtParamLength),
     (isolated s blkSteward || (match o.block with | some b => isolated s b | none => false), stFailed, dtIsolated),
     (i.kind == 1 && noAllot (fnD s i.fid) && !([0x0000, 0x0001, 0x0100, 0x0903].contains op), stNoResource, dtNone),
     (createsOwned op && (i.kind == 2 || i.kind == 3) && !anyHostPort s, stNoResource, dtNone)]

def icpCheck (op : Nat) (via : Via) (pkt : IcpPkt) (s : State) : Option (Nat × Nat) := firstBad (icpChecks op via pkt s)

/-! ### Replies (R57, R61, R62, R64) -/

/-- The slots of a ring. -/
def cmdSlots (r : Ring) : Nat := 2 ^ r.cmdLog2
def rplSlots (r : Ring) : Nat := 2 ^ r.rplLog2

/-- Reply slots that a command reserves before it is fetched (R61). -/
def slotsFor (op : Nat) : Nat := if op = 0x0801 then 2 else 1

/-- A command of a ring is fetched: the consumer index advances and its reply slots are reserved (R58, R61). -/
def fetchSlot (k : Nat) (s : State) : State :=
  let r := ringOf s k
  match r.unread with
  | [] => s
  | p :: rest =>
    setRing k { r with unread := rest, cmdHead := (r.cmdHead + 1) % cmdSlots r, reserved := r.reserved + slotsFor p.opcode } s

/-- The packet with the consumer index after its fetch, which its reply reports (R57). -/
def stampHead (s : State) (k : Nat) (p : IcpPkt) : IcpPkt :=
  { p with headAfter := ((ringOf s k).cmdHead + 1) % cmdSlots (ringOf s k) }

/-- The command ring consumer index a reply reports (R57). -/
def cmdHeadOf (via : Via) (pkt : IcpPkt) : Nat :=
  match ringKey via with
  | none => 0
  | some _ => pkt.headAfter

/-- Where an accelerator endpoint's command or reply ring lies: the DPA of a byte of it (R66, R396). -/
def accelRingByte (s : State) (k : Nat) (reply : Bool) (off : Nat) : Option Nat :=
  match s.ports.qrings.find? (fun q => q.owner == k && q.queue.isNone && q.reply == reply) with
  | some q => (q.frames[off / frameBytes]?).map (fun f => f * frameBytes + off % frameBytes)
  | none => none

/-- The slot of an accelerator endpoint's command ring as the queue region holds it. -/
def accelSlot (s : State) (k i : Nat) : Bytes :=
  match accelRingByte s k false (4096 * i) with
  | some dpa => readMem dpa 4096 s
  | none => List.replicate 4096 0

/-- Bytes are written into a slot of a reply ring: a function's ring in its memory, an endpoint's in the queue region (R62, R66). -/
def slotWrite (k slot off : Nat) (bs : Bytes) (s : State) : State :=
  if isAccel k then
    match accelRingByte s k true (4096 * slot + off) with
    | some dpa => (writeMem dpa bs s).1
    | none => s
  else dmaOut k ((ringOf s k).rplBase + 4096 * slot + off) bs s

/-- A reply of a ring leaves the part: its data first and its header last (R62), then its MSI-X message (R54). -/
def deliverReply (k : Nat) (via : Via) (pkt : IcpPkt) (r : IcpReply) (s : State) : State :=
  let s := emit (.reply via r) (slotWrite k r.slot 0 (r.header false) (slotWrite k r.slot 32 r.data s))
  if flagBit pkt.flags 2 && (ringOf s k).irqEn then raiseMsix k Config.icpVector s else s

/-- A reply of another transport leaves the part: a datagram whose header is in network byte order, or an MCTP message (R52, R63, R65). -/
def sendPacket (via : Via) (r : IcpReply) (s : State) : State :=
  let s := emit (.reply via r) s
  match via with
  | .mgmt peer => emit (.datagram peer (r.bytes true)) s
  | .mctp eid => emit (.mctp eid 0x7E 0x1F6D (r.bytes false)) s
  | _ => s

/-- A reply leaves on its transport: the reply slot, PHASE and the producer index (R62), the MSI-X message (R54), and the kept
replies of a management session, one for each TAG: a final reply takes the place of an interim one (R64, R75). -/
def postReply (via : Via) (pkt : IcpPkt) (r : IcpReply) (s : State) : State :=
  match ringKey via with
  | some k =>
    let g := ringOf s k
    let r := { r with phase := g.rplPass, slot := g.rplProd }
    let last := decide (g.rplProd + 1 = rplSlots g)
    let s := setRing k { g with rplProd := if last then 0 else g.rplProd + 1,
                                rplPass := if last then !g.rplPass else g.rplPass,
                                rplUsed := g.rplUsed + 1, reserved := g.reserved - 1 } s
    if (fnD s k).dstate = .d1 ∨ (fnD s k).dstate = .d3hot then setRing k { ringOf s k with held := (ringOf s k).held ++ [(pkt, r)] } s
    else deliverReply k via pkt r s
  | none =>
    let s := sendPacket via r s
    match via, sessionOf s via with
    | .mgmt _, some x =>
      s.setIcp { s.icp with sessions := put s.icp.sessions via { x with kept := lastN 64 (x.kept.filter (fun y => y.tag != r.tag) ++ [r]) } }
    | _, _ => s

/-- The reply of a command with a status, a detail and data, as the part stands after it (R57). -/
def mkReply (op : Nat) (via : Via) (pkt : IcpPkt) (status detail : Nat) (data : Bytes) (s : State) : IcpReply :=
  let i := issuerOf s via
  let x := sessionOf s via
  { major := (x.map (·.major)).getD 0, minor := (x.map (·.minor)).getD 0, opcode := op, tag := pkt.tag,
    functionId := i.fid, generation := if i.kind = 2 ∨ i.kind = 3 then 0 else genOf s i.fid,
    status := status, detail := detail, cmdHead := cmdHeadOf via pkt,
    sessionId := (x.map (·.sid)).getD 0, data := data }

/-- A final or interim reply is posted. -/
def sendReply (op : Nat) (via : Via) (pkt : IcpPkt) (status detail : Nat) (data : Bytes) (s : State) : State :=
  postReply via pkt (mkReply op via pkt status detail data s) s

/-! ### Running a command -/

/-- The transports that carry ICP in the part's present condition (R78, R629, R653, R423). -/
def transportServed (s : State) (via : Via) : Bool :=
  if footing s then (match via with | .ring fn => fn == 0 || fn == 3 | .mgmt _ => true | _ => false)
  else if s.tel.frozen then (match via with | .ring fn => fn == 0 || fn == 3 | .mgmt _ => true | _ => false)
  else running s && (match via with
    | .ring fn => (fnOf s fn).isSome && (fnD s fn).dstate == .d0 && (fnD s fn).st != .frozen && !(fnD s fn).crs
    | _ => true)

/-- A DRAIN commit is in progress (R97, R99). -/
def drainRuns (s : State) : Bool := s.icp.waits.any (fun w => w.kind == .drain)

/-- A DRAIN commit is in progress whose set holds an object of a type that passes a test: the units of such objects take nothing in (R97). -/
def drainsType (s : State) (p : Nat → Bool) : Bool :=
  s.icp.commits.any (fun c => s.icp.stage.any (fun e => e.owner == c.owner && p e.otype)
    && s.icp.waits.any (fun w => w.via == c.via && w.kind == .drain))

/-- Egress queues take in nothing: a shaper or a gate list is being committed under DRAIN. -/
def egressPaused (s : State) : Bool := drainsType s (fun t => t == 4 || t == 6)

/-- The course engine opens nothing on command: a course policy or a capture policy is being committed under DRAIN. -/
def coursePaused (s : State) : Bool := drainsType s (fun t => t == 7 || t == 8)

def waitsOf (s : State) (via : Via) : List Waiter := s.icp.waits.filter (fun w => w.via == via)

/-- The command must wait for earlier commands of its own ring or session (R54, R83), or for a DRAIN commit that pauses the course engine (R97). -/
def mustHold (s : State) (via : Via) (pkt : IcpPkt) : Bool :=
  (waitsOf s via).any (fun w => w.kind == .barrier) || s.icp.behind.any (fun b => b.1 == via)
    || (flagBit pkt.flags 0 && !(waitsOf s via).isEmpty) || (pkt.opcode == 0x0301 && coursePaused s)

/-- The command of an opcode with its handler, once it starts: the checks, then the handler; CHECK_ONLY keeps the state and answers with the
values that would be in effect (R54). A command in which steward firmware faults has no effect and is answered INTERNAL_ERROR (R75). -/
def icpStart (op : Nat) (h : Handler) (via : Via) (pkt : IcpPkt) (s : State) : State :=
  match icpCheck op via pkt s with
  | some (st, d) => sendReply op via pkt st d [] s
  | none =>
    let c : Ctx := { via := via, pkt := { pkt with opcode := op }, iss := issuerOf s via, sess := sessionOf s via }
    if pkt.fwFault then sendReply op via pkt stInternal dtNone [] (recordCon blkSteward 0x0100 [op, pkt.tag] s)
    else match h c s with
    | .reply s' st d data =>
      if flagBit pkt.flags 1 then sendReply op via pkt st d data s else sendReply op via pkt st d data s'
    | .later s' d data =>
      if flagBit pkt.flags 1 then sendReply op via pkt stOk d data s else s'

/-- The last use of a session is now (R63). -/
def touchSession (via : Via) (s : State) : State :=
  match sessionOf s via with
  | some x => s.setIcp { s.icp with sessions := put s.icp.sessions via { x with lastUse := nowSt s } }
  | none => s

/-- A kept reply of a management session with the same TAG (R64). -/
def keptReply (s : State) (via : Via) (tag : Nat) : Option IcpReply :=
  match via, sessionOf s via with
  | .mgmt _, some x => x.kept.find? (fun r => r.tag == tag)
  | _, _ => none

/-- A VF that is being frozen has no started work left: in its host memory queues, in frames of its NIC queue pairs, and in requests of its connections
(R426). -/
def quiet (s : State) (fid : Nat) : Bool :=
  let sent := fun (f : EgFrame) => match f.src with | .nic fn _ _ _ _ => fn == fid | _ => false
  s.tab.cqps.all (fun e => !(e.2.owner == fid && e.2.endpoint == 0xFFFF && !e.2.running.isEmpty))
    && s.sto.ops.all (fun o => !(o.fn == fid && o.resync.isNone && !o.posted))
    && s.icp.waits.all (fun w => !(w.via == .ring fid))
    && s.pp.en.all (fun e => e.2.subs.all (fun x => x.queues.all (fun q => !q.any sent))) && !s.pp.egressHeld.any (fun x => sent x.2.2)
    && s.grt.conns.all (fun e => !(e.2.owner == fid && e.2.reqs.any (fun r => r.done.isNone)))

/-- A command waits: its final reply is still to come. -/
def addWait (c : Ctx) (kind : WaitKind) (obj count : Nat) (s : State) : State :=
  s.setIcp { s.icp with waits := s.icp.waits ++
    [{ via := c.via, pkt := c.pkt, kind := kind, gen := genOf s c.iss.fid, obj := obj, count := count }] }

/-- A live activation stops fetching once no DRAIN commit runs (R99, R675 event 3). -/
def livePause (s : State) : State :=
  match s.boot.act with
  | some a =>
    if a.mode = 2 ∧ !a.deferred ∧ !s.icp.paused ∧ !drainRuns s then
      (s.setIcp { s.icp with paused := true }).setBoot { s.boot with act := some { a with pauseFrom := nowSt s } }
    else s
  | none => s

/-- The final reply of a waiting command: dropped after a function reset, kept after a loss of the host side (R84, R85). -/
def finishWait (w : Waiter) (status detail : Nat) (data : Bytes) (s : State) : State :=
  let s := s.setIcp { s.icp with waits := dropFirst (fun x => x == w) s.icp.waits }
  match w.via with
  | .ring fn =>
    let f := fnD s fn
    if f.gen = w.gen then sendReply w.pkt.opcode w.via w.pkt status detail data s
    else if 3 ≤ f.cause then setFn fn { f with kept := lastN 64 (f.kept ++ [(w.pkt.tag, status)]) } s
    else s.setIcp { s.icp with replyDrops := s.icp.replyDrops + 1 }
  | .accel ep =>
    if genOf s (accelId ep) = w.gen then sendReply w.pkt.opcode w.via w.pkt status detail data s
    else s.setIcp { s.icp with replyDrops := s.icp.replyDrops + 1 }
  | _ => sendReply w.pkt.opcode w.via w.pkt status detail data s

/-- MIG_FREEZE replies once the started work of its VF has completed (R426). -/
def freezeProgress (s : State) : State :=
  (s.icp.waits.filter (fun w => w.kind == .destroy && w.pkt.opcode == 0x0904)).foldl (fun s w =>
    if quiet s w.obj then finishWait w stOk dtNone (layout 16 [(0, 4, Config.freeNat s.draw)]) (drawn s) else s) s

end Sys2Proof.Machine
end

