-- ==== Sys2Proof/Machine/Tables.lean ====
section
/-! DEFINITION. Tables: their regions and row layout, ownership of rows, hashed keys, initial values, allocation of their blocks, and the reading and writing of one row. -/

namespace Sys2Proof.Machine

open Sys2Proof

/-! ### The tables -/

def tblOf (s : State) (ti : Nat) : Option Tbl := look s.tab.tbls ti
def tblD (s : State) (ti : Nat) : Tbl := lookD s.tab.tbls ti { handle := 0, owner := 0, rows := 0 }
def setTbl (ti : Nat) (t : Tbl) (s : State) : State := s.setTab { s.tab with tbls := put s.tab.tbls ti t }
def updTbl (ti : Nat) (f : Tbl → Tbl) (s : State) : State :=
  match tblOf s ti with
  | some t => setTbl ti (f t) s
  | none => s

/-- Table index of a handle: bits [21:10]. -/
def handleIndex (h : Nat) : Nat := bits h 10 12

/-- The table that a handle names: present, of the handle's generation, and visible (R249, R360). -/
def tblByHandle (s : State) (h : Nat) : Option (Nat × Tbl) :=
  match tblOf s (handleIndex h) with
  | some t => if t.handle = h ∧ t.visible ∧ t.status ≠ 2 then some (handleIndex h, t) else none
  | none => none

/-- The table that a started descriptor names: also one that is being destroyed, which serves what has started (R249). -/
def tblServed (s : State) (h : Nat) : Option (Nat × Tbl) :=
  match tblOf s (handleIndex h) with
  | some t => if t.handle = h ∧ t.visible then some (handleIndex h, t) else none
  | none => none


/-- A table of a DOMAIN_TABLE_ID is held here, one that is being destroyed included (R244). -/
def domainHeld (s : State) (d : Nat) : Bool := s.tab.tbls.any (fun e => e.2.sharded && e.2.domainId == d)

/-- The sharded table of this device with a domain-wide identifier. -/
def tblByDomain (s : State) (d : Nat) : Option (Nat × Tbl) :=
  s.tab.tbls.find? (fun e => e.2.sharded && e.2.domainId == d && e.2.status != 2)

/-! ### Regions and row layout (R245, R246) -/

/-- Bytes of a master row. -/
def masterBytes (t : Tbl) : Nat := roundUp 16 (4 * t.dim)

/-- Elements of state that a rule keeps per row (R271). -/
def ruleElems (rule dim : Nat) : Nat :=
  match rule with
  | 2 => dim
  | 3 => 1
  | 4 => dim
  | 5 => 2 * dim
  | 6 => 2 * dim
  | 7 => 2 * dim
  | _ => 0

/-- Row size of a region: 0 weight or master, 1 state, 2 serving, 3 key; 0 where the table has no such region. -/
def regionRow (t : Tbl) (r : Nat) : Nat :=
  match r with
  | 0 => if t.split then masterBytes t else t.rowBytes
  | 1 => t.stateBytes
  | 2 => if t.split then t.rowBytes else 0
  | 3 => if t.hashed then 8 else 0
  | _ => 0

/-- Whole capture blocks that a row of B bytes takes when it is longer than one. -/
def rowSpan (b : Nat) : Nat := if b ≤ 65536 then 1 else ceilDiv b 65536

/-- First block of a row of B bytes and its byte offset there. -/
def rowPlace (b row : Nat) : Nat × Nat :=
  if b ≤ 65536 then (row / (65536 / b), row % (65536 / b) * b) else (row * rowSpan b, 0)

/-- The blocks of a row in a region, with offset and length of its part in each. -/
def rowSegs (b row : Nat) : List (Nat × Nat × Nat) :=
  if b = 0 then [] else
  let p := rowPlace b row
  (List.range (rowSpan b)).map (fun i => (p.1 + i, p.2, min 65536 (b - 65536 * i)))

/-- Number of capture blocks of a region. -/
def regionBlocks (t : Tbl) (r : Nat) : Nat :=
  let b := regionRow t r
  if b = 0 ∨ t.localRows = 0 then 0
  else if b ≤ 65536 then ceilDiv t.localRows (65536 / b) else t.localRows * rowSpan b

/-- Rows that lie wholly or in part in a block of a region: first row and count. -/
def blockRows (t : Tbl) (r index : Nat) : Nat × Nat :=
  let b := regionRow t r
  if b = 0 then (0, 0)
  else if b ≤ 65536 then (index * (65536 / b), min (65536 / b) (t.localRows - index * (65536 / b)))
  else (index / rowSpan b, 1)

/-- The regions a table has. -/
def tblRegions (t : Tbl) : List Nat := (List.range 4).filter (fun r => decide (regionRow t r ≠ 0))

def tblBlocks (t : Tbl) : Nat := ((List.range 4).map (regionBlocks t)).sum

/-- Frames of one copy of the block map and front bitmap: 8 bytes per capture block, in whole frames (R103). -/
def mapFrames (blocks : Nat) : Nat := ceilDiv (8 * blocks) 65536

/-! ### Reading and writing a row (R264) -/

def blkFrame (s : State) (ti r index : Nat) : Option Nat := (blkFind s ti r index).bind (·.frame)

/-- Every block of a row has a frame (R113). -/
def rowPlaced (s : State) (ti : Nat) (t : Tbl) (r row : Nat) : Bool :=
  (rowSegs (regionRow t r) row).all (fun g => (blkFrame s ti r g.1).isSome)

/-- The bytes of a row of a region; a block without a frame reads as the poison pattern, zeros. -/
def readRow (s : State) (ti : Nat) (t : Tbl) (r row : Nat) : Bytes :=
  ((rowSegs (regionRow t r) row).map (fun g => match blkFrame s ti r g.1 with
    | some f => readMem (f * frameBytes + g.2.1) g.2.2 s
    | none => List.replicate g.2.2 0)).flatten

/-- Marks a line of a block that is being moved as written, by writing both frames (R131). -/
def writeBlk (b : Blk) (off : Nat) (bs : Bytes) (s : State) : State :=
  let s := match b.frame with
    | some f => writeFresh (f * frameBytes + off) bs s
    | none => s
  match b.moving with
  | some f => writeFresh (f * frameBytes + off) bs s
  | none => s

/-- Writes a row of a region whole. -/
def writeRow (ti : Nat) (t : Tbl) (r row : Nat) (bs : Bytes) (s : State) : State :=
  let b := regionRow t r
  let bs := (bs ++ List.replicate b 0).take b
  ((rowSegs b row).zipIdx).foldl (fun s g => match blkFind s ti r g.1.1 with
    | some k => writeBlk k g.1.2.1 ((bs.drop (65536 * g.2)).take g.1.2.2) s
    | none => s) s

/-- A row's blocks gain heat (R128). -/
def heatRow (ti : Nat) (t : Tbl) (r row : Nat) (s : State) : State :=
  (rowSegs (regionRow t r) row).foldl (fun s g => heatUp ti r g.1 s) s

/-- Some block of the row lies in the CXL tier. -/
def rowCold (s : State) (ti : Nat) (t : Tbl) (r row : Nat) : Bool :=
  (rowSegs (regionRow t r) row).any (fun g => match blkFrame s ti r g.1 with | some f => !isHotFrame f | none => false)

/-! ### Ownership of rows (R280, R732, R348) -/

/-- This device's index in the domain. -/
def deviceIndex (s : State) : Nat := s.course.policy.device

/-- Ranges of a sharded table and their owners: the active map's, or the even division; h1 values of a hashed table. -/
def tableRanges (s : State) (domainId rows : Nat) (hashed : Bool) : List (Nat × Nat × Nat) :=
  let whole := if hashed then 2 ^ 32 else rows
  let even := (List.range (max 1 Config.domainSize)).map (fun d =>
    (d, d * whole / max 1 Config.domainSize, (d + 1) * whole / max 1 Config.domainSize - d * whole / max 1 Config.domainSize))
  match s.elastic.active with
  | some m =>
    (match m.ranges.filter (fun r => r.table == domainId) with
     | [] => even
     | rs => rs.map (fun r => (r.owner, r.first, r.count)))
  | none => even

/-- The owner of a row or h1 value. -/
def ownerOf (s : State) (t : Tbl) (x : Nat) : Option Nat :=
  (tableRanges s t.domainId t.rows t.hashed).find? (fun r => decide (r.2.1 ≤ x ∧ x < r.2.1 + r.2.2)) |>.map (·.1)

/-- This device in the layout that governs a sharded table: THIS_DEVICE of the active map where the map names the table (R344, R348). -/
def layoutDevice (s : State) (domainId : Nat) : Nat :=
  match s.elastic.active with
  | some m => if m.ranges.any (fun r => r.table == domainId) then m.thisDevice else deviceIndex s
  | none => deviceIndex s

/-- The ranges this device owns, ascending. -/
def ownedRanges (s : State) (domainId rows : Nat) (hashed : Bool) : List (Nat × Nat) :=
  ((tableRanges s domainId rows hashed).filter (fun r => r.1 == layoutDevice s domainId && r.2.2 != 0)).map (·.2)

/-- This device among the owners of a table's indices. -/
def tableDevice (s : State) (t : Tbl) : Nat := if t.sharded then layoutDevice s t.domainId else deviceIndex s

/-- Rows of the bucket array of an owned range of length L (R732). -/
def arrayRows (rows len : Nat) : Nat := max 16 (ceilDiv (rows * len) (2 ^ 32 * 16) * 16)

/-- Rows held here. -/
def heldRows (t : Tbl) : Nat :=
  if t.sharded then
    (if t.hashed then (t.ranges.map (fun r => arrayRows t.rows r.2)).sum else (t.ranges.map (·.2)).sum)
  else t.rows

/-- Local number of a global row. -/
def localOf : List (Nat × Nat) → Nat → Option Nat
  | [], _ => none
  | (f, n) :: r, x => if f ≤ x ∧ x < f + n then some (x - f) else (localOf r x).map (· + n)

/-- Global number of a local row. -/
def globalOf : List (Nat × Nat) → Nat → Nat
  | [], x => x
  | (f, n) :: r, x => if x < n then f + x else globalOf r (x - n)

/-- Identity of a local row of a table that is not hashed. -/
def rowIdentity (t : Tbl) (row : Nat) : Nat := if t.sharded && !t.hashed then globalOf t.ranges row else row

/-! ### Hashed tables (R278, R279, R732) -/

def emptyKey : Nat := 2 ^ 64 - 1

def keyH1 (k : Nat) : Nat := (crc32c (leBytes 8 k)).toNat
def keyH2 (k : Nat) : Nat := (((leBytes 8 k).foldl crcByte 0x5A5A5A5A#32) ^^^ 0xFFFFFFFF#32).toNat

/-- The bucket array of a key here: its first row and its number of buckets. -/
def arrayOf : List (Nat × Nat) → Nat → Nat → Nat → Option (Nat × Nat)
  | [], _, _, _ => none
  | (f, n) :: r, rows, base, h =>
    if f ≤ h ∧ h < f + n then some (base, arrayRows rows n / 16) else arrayOf r rows (base + arrayRows rows n) h

def keyArray (t : Tbl) (k : Nat) : Option (Nat × Nat) :=
  if t.sharded then arrayOf t.ranges t.rows 0 (keyH1 k) else some (0, t.rows / 16)

/-- Rows of a key's two candidate buckets. -/
def keyBuckets (t : Tbl) (k : Nat) : List Nat × List Nat :=
  match keyArray t k with
  | some (base, n) =>
    ((List.range 16).map (base + keyH1 k % max 1 n * 16 + ·), (List.range 16).map (base + keyH2 k % max 1 n * 16 + ·))
  | none => ([], [])

def keyAt (s : State) (ti : Nat) (t : Tbl) (row : Nat) : Nat := leVal (readRow s ti t 3 row)

/-- The key of a row can be read: its line has not been lost (R285). -/
def keyKnown (t : Tbl) (row : Nat) : Bool := !t.bad.any (fun b => b.row == row && b.keyLost)

/-- The row that holds a key. -/
def findKey (s : State) (ti : Nat) (t : Tbl) (k : Nat) : Option Nat :=
  let b := keyBuckets t k
  (b.1 ++ b.2).find? (fun r => keyKnown t r && keyAt s ti t r == k)

/-- A candidate row of a key whose own key is lost: one under repointing, else one that stays poisoned. -/
def lostKeyRow (t : Tbl) (k : Nat) : Option BadRow :=
  let b := keyBuckets t k
  let l := t.bad.filter (fun x => x.keyLost && (b.1 ++ b.2).contains x.row)
  (l.find? (·.repointing)).orElse (fun _ => l.head?)

/-- The row a new key takes: the less full candidate bucket, the first on a tie, and in it the first empty row. -/
def freeSlot (s : State) (ti : Nat) (t : Tbl) (k : Nat) : Option Nat :=
  let b := keyBuckets t k
  let empty := fun (l : List Nat) => l.filter (fun r => keyKnown t r && keyAt s ti t r == emptyKey)
  let e1 := empty b.1
  let e2 := empty b.2
  if e1.length < e2.length then e2.head? else e1.head?

/-- Keys present. -/
def keysUsed (s : State) (ti : Nat) (t : Tbl) : Nat :=
  ((List.range t.localRows).filter (fun r => keyKnown t r && keyAt s ti t r != emptyKey)).length

/-! ### Initial values (R733) -/

/-- The uniform initialiser of one element. -/
def uniformInit (seed x e : Nat) : FV :=
  let c : BitVec 64 := splitmix (BitVec.ofNat 64 x) + BitVec.ofNat 64 e
  let z := splitmix (splitmix (BitVec.ofNat 64 seed) ^^^ c)
  FV.ofInt (2 * ((z.toNat / 2 ^ 40 : Nat) : Int) - 2 ^ 24)

/-- The FP32 elements of a row's initial weights. -/
def initRow (t : Tbl) (x : Nat) : List Nat :=
  (List.range t.dim).map (fun e => match t.init with
    | 1 => r32 (((f32 t.initValue).mul (uniformInit t.initSeed x e)).mul (.fin false 1 (-24)))
    | 2 => t.initValue
    | _ => fzero)

/-- The stored weight or master bytes and the serving copy of a row of FP32 elements, rounded to nearest even. -/
def weightBytes (t : Tbl) (es : List Nat) : Bytes :=
  if t.split then encodeRow 0 t.dim (fun _ => none) es else encodeRow t.format t.dim (fun _ => none) es

def servingBytes (t : Tbl) (rnd : Nat → Option Nat) (es : List Nat) : Bytes := encodeRow t.format t.dim rnd es

/-- A row takes its initial contents under an identity: weights, state of zeros, serving copy. -/
def initTableRow (ti : Nat) (t : Tbl) (row x : Nat) (s : State) : State :=
  let es := initRow t x
  let s := writeRow ti t 0 row (weightBytes t es) s
  let s := writeRow ti t 1 row [] s
  writeRow ti t 2 row (servingBytes t (fun _ => none) es) s

/-- A row of INIT 0 is zero; in a block-scaled format that is a scale code of 127 in each block (R240, R733). -/
def zeroInit (t : Tbl) : Bool := t.init == 0 && !decide (5 ≤ t.format ∧ t.format ≤ 7)

/-- The rows of a new table. -/
def initTable (ti : Nat) (t : Tbl) (s : State) : State :=
  (List.range t.localRows).foldl (fun s row =>
    writeRow ti t 3 row (leBytes 8 emptyKey)
      (if zeroInit t then s else initTableRow ti t row (rowIdentity t row) s)) s

/-! ### Allocation (R247, R103) -/

/-- Tier class of a region. -/
def regionClass (t : Tbl) (r : Nat) : TierClass := if r = 2 then .pinHot else t.tier

/-- A frame for a block of a tier class: AUTO takes GDDR7 while a frame is free there, the CXL tier otherwise. -/
def classFrame (c : TierClass) (s : State) : Option (Nat × State) :=
  match c with
  | .pinHot => takeFrame true false s
  | .pinCold => takeFrame false false s
  | .auto => (takeFrame true false s).orElse (fun _ => takeFrame false false s)

/-- A block of a class takes a frame for recovery: free frames first, then the recovery reserve (R43). -/
def recoverFrame (c : TierClass) (s : State) : Option (Nat × State) :=
  match c with
  | .pinHot => (takeFrame true false s).orElse (fun _ => takeFrame true true s)
  | .pinCold => (takeFrame false false s).orElse (fun _ => takeFrame false true s)
  | .auto => ((takeFrame true false s).orElse (fun _ => takeFrame false false s)).orElse (fun _ => takeFrame true true s)

/-- One block of a region is placed, for recovery or for a client. -/
def placeBlk (recovery : Bool) (ti : Nat) (t : Tbl) (acc : Option State) (ri : Nat × Nat) : Option State :=
  acc.bind (fun s => ((if recovery then recoverFrame else classFrame) (regionClass t ri.1) s).map (fun fs =>
    fs.2.setMem { fs.2.mem with blocks := fs.2.mem.blocks ++
      [{ table := ti, region := ri.1, index := ri.2, frame := some fs.1, cls := regionClass t ri.1 }] }))

/-- The blocks of a table, region by region. -/
def tblBlockList (t : Tbl) : List (Nat × Nat) :=
  ((List.range 4).map (fun r => (List.range (regionBlocks t r)).map (fun i => (r, i)))).flatten

/-- Every frame of a table: its blocks and the two copies of its block map. -/
def allocTable (ti : Nat) (t : Tbl) (s : State) : Option State :=
  ((tblBlockList t).foldl (placeBlk false ti t) (some s)).bind (takeMap (.map ti) false (mapFrames (tblBlocks t)))

/-- Frames a table is charged for. -/
def tblCharge (t : Tbl) : Nat := tblBlocks t + 2 * mapFrames (tblBlocks t)

/-- Frames of a function's quota in use: its tables, its kernels' code (R176) and the rings of its queue pairs (R396). -/
def quotaUsed (s : State) (fid : Nat) : Nat :=
  ((s.tab.tbls.filter (fun e => e.2.owner == fid)).map (fun e => tblCharge e.2)).sum
    + ((s.mason.kernels.filter (fun e => e.2.owner == fid)).map (fun e => e.2.frames.length)).sum
    + ((s.ports.qrings.filter (fun q => q.owner == fid && q.queue.isSome)).map (fun q => q.frames.length)).sum
    + (fnD s fid).reclaim.quota
def quotaOf (s : State) (fid : Nat) : Nat := (fnD s fid).allot.quota

/-- Every frame of a table goes back, and the table is gone; its index keeps its generation (R249). -/
def freeTable (ti : Nat) (s : State) : State :=
  let s := unstage 8 (tblD s ti).handle s
  let gone := s.mem.blocks.filter (fun b => b.table == ti)
  let s := s.setMem { s.mem with blocks := s.mem.blocks.filter (fun b => b.table != ti) }
  let s := gone.foldl (fun s b =>
    let s := match b.frame with | some f => freeFrame f s | none => s
    match b.moving with | some f => freeFrame f s | none => s) s
  let s := freeExtents (fun u => u == .map ti) s
  let h := (tblD s ti).handle
  let g := bits h 0 10
  let t := tblD s ti
  let last := t.rule == 15 && !s.tab.tbls.any (fun e => e.1 != ti && e.2.rule == 15 && e.2.ruleId == t.ruleId)
  let s := if last then s.setTab { s.tab with rules := s.tab.rules.map (fun r => if r.1 = t.ruleId then (r.1, { r.2 with spent := true }) else r) } else s
  s.setTab { s.tab with tbls := del s.tab.tbls ti, gens := put s.tab.gens ti (if 1023 ≤ g then 0 else g + 1) }

/-- The next free table index. -/
def freeTableIndex (s : State) : Option Nat := lowest 4096 (fun i => !has s.tab.tbls i)

/-! ### Poisoned rows (R285 to R288) -/

def badRow (t : Tbl) (row : Nat) : Option BadRow := t.bad.find? (fun b => b.row == row)

/-- Every block of a row has a frame. -/
def rowWhole (s : State) (ti : Nat) (t : Tbl) (row : Nat) : Bool := (tblRegions t).all (fun r => rowPlaced s ti t r row)

/-- A row is poisoned, its key too where the line that held it is lost. It waits for repointing where a course has been committed and all of its
blocks have frames (R113, R285). -/
def poisonRow (ti row cause : Nat) (key : Bool) (s : State) : State :=
  updTbl ti (fun t => { t with bad :=
    { row := row, written := 0, cause := cause, repointing := s.course.committed.isSome && rowWhole s ti t row,
      keyLost := key || !keyKnown t row } :: t.bad.filter (fun b => b.row != row) }) s

/-- Rows of a region that touch a run of bytes of a block: first row and count. -/
def rowsAt (t : Tbl) (r index off n : Nat) : Nat × Nat :=
  let b := regionRow t r
  if b = 0 then (0, 0)
  else if b ≤ 65536 then
    let w := blockRows t r index
    let lo := off / b
    let hi := min w.2 (ceilDiv (off + n) b)
    (w.1 + lo, hi - lo)
  else blockRows t r index

/-- A poisoned row touches a line of a table. -/
def lineOwed (s : State) (ti l : Nat) : Bool :=
  match blkAt s l with
  | some b => b.table != ti || (
      let w := rowsAt (tblD s ti) b.region b.index (l % frameBytes) 128
      (tblD s ti).bad.any (fun x => decide (w.1 ≤ x.row ∧ x.row < w.1 + w.2)))
  | none => true

/-- Lines of a table on which no poisoned row is left are written whole, which clears their poison (R120). -/
def healLines (ti : Nat) (s : State) : State := s.setMem { s.mem with poison := s.mem.poison.filter (lineOwed s ti) }

/-- A row is good again. -/
def rowGood (ti row : Nat) (s : State) : State :=
  healLines ti (updTbl ti (fun t => { t with bad := t.bad.filter (fun (x : BadRow) => x.row != row) }) s)

/-- The regions that must be written whole for poison to clear, as a mask: bit 0 weight or master, bit 1 state. -/
def wholeMask (t : Tbl) : Nat := if t.stateBytes = 0 then 1 else 3

/-- Regions of a row have been written whole (R273): its poison clears, and its mark as rolled back, once all have. -/
def wroteRegions (ti row mask : Nat) (s : State) : State :=
  healLines ti <| updTbl ti (fun t =>
    let t := match badRow t row with
      | some b =>
        let w := b.written ||| mask
        if w &&& wholeMask t = wholeMask t then { t with bad := t.bad.filter (fun (x : BadRow) => x.row != row) }
        else { t with bad := t.bad.map (fun (x : BadRow) => if x.row = row then { x with written := w } else x) }
      | none => t
    match t.rolled.find? (fun x => x.1 == row) with
    | some r =>
      let w := r.2 ||| mask
      if w &&& wholeMask t = wholeMask t then { t with rolled := t.rolled.filter (fun (x : Nat × Nat) => x.1 != row) }
      else { t with rolled := t.rolled.map (fun (x : Nat × Nat) => if x.1 = row then (row, w) else x) }
    | none => t) s

def isRolled (t : Tbl) (row : Nat) : Bool := t.rolled.any (fun x => x.1 == row)

/-- A rollback record for `n` rows from `row` on (R288): written to the ring's next slot, or lost where the ring is full. -/
def rollbackRecord (ti row n course step cause : Nat) (slotFree : Bool) (s : State) : State :=
  match tblOf s ti with
  | none => s
  | some t =>
    let t := { t with rolledBack := (t.rolledBack + n) % 2 ^ 64, lastCourse := course,
                      rolled := (List.range n).map (fun k => (row + k, 0)) ++ t.rolled.filter (fun x => !decide (row ≤ x.1 ∧ x.1 < row + n)) }
    if t.ringEntries = 0 then setTbl ti t s
    else if !slotFree then setTbl ti { t with ringLost := (t.ringLost + 1) % 2 ^ 32 } s
    else
      let rec_ := layout 32 [(0, 4, t.handle), (4, 4, bit t.ringPass * 2 ^ 31 + n % 2 ^ 31), (8, 8, rowIdentity t row), (0x10, 4, course),
                             (0x14, 4, step), (0x18, 4, cause)]
      let last := decide (t.ringProd + 1 = t.ringEntries)
      dmaOut t.owner (t.ring + 32 * t.ringProd) rec_
        (setTbl ti { t with ringProd := if last then 0 else t.ringProd + 1,
                            ringPass := if last then !t.ringPass else t.ringPass } s)

/-- Poisoned rows that TABLE_QUERY counts, with the rows of blocks that wait for a frame. -/
def poisonedRows (t : Tbl) : Nat := t.bad.length

end Sys2Proof.Machine
end

