-- ==== Sys2Proof/Machine/CourseOps.lean ====
section
/-! DEFINITION. Courses as shared operations: the course front and capture-before-update, the fence, the walker, shards, manifests, the ledger, commit and abort. -/

namespace Sys2Proof.Machine

open Sys2Proof

/-! ### The run -/

def crun (s : State) : CourseRun := s.course.run.getD { id := 0, step := 0, status := 0 }
def setRun (r : CourseRun) (s : State) : State := s.setCourse { s.course with run := some r }
def updRun (f : CourseRun → CourseRun) (s : State) : State :=
  match s.course.run with
  | some r => setRun (f r) s
  | none => s

/-- A course is open (R296): FENCING, CAPTURING or COMMITTING. -/
def courseLive (s : State) : Bool := match s.course.run with | some r => decide (1 ≤ r.status ∧ r.status ≤ 3) | none => false

/-- Every child in the fence tree, and the parent. -/
def fenceParent (s : State) : Nat := s.course.policy.parent
def fenceRoot (s : State) : Bool := fenceParent s == 0xFFFFFFFF
def hasTree (s : State) : Bool := !fenceRoot s || s.course.policy.children != 0

/-- A message down the fence tree, and one to the parent. -/
def sendDown (m : DomainMsg) (s : State) : State := if s.course.policy.children = 0 then s else sendDomain downTree m s
def sendUp (m : DomainMsg) (s : State) : State := if fenceRoot s then s else sendDomain (fenceParent s) m s

/-- Spill frames of the policy in force. -/
def spillFrames (s : State) : Nat := s.course.policy.spillGib * 16384

/-- The domain course key in use (R599). -/
def domainKey (s : State) : Option Nat := (domainKeys s).head?

/-! ### The fence (R299 to R305) -/

/-- The fence of a table is closed, or does not concern it. -/
def fenceClosedFor (s : State) (ti : Nat) : Bool :=
  let r := crun s
  let t := tblD s ti
  !courseLive s || !r.tables.contains ti || (if t.sharded then r.domainClosed else r.closed.contains t.owner)

/-- A row-writing descriptor of a step on a table is held (R303). -/
def heldByFence (s : State) (ti step : Nat) : Bool :=
  courseLive s && !fenceClosedFor s ti && decide ((crun s).step < step)

/-- Every covered descriptor of a queue pair with a step of S or less has completed (R301, R302). -/
def coveredDone (q : Cqp) (S : Nat) : Bool :=
  decide (q.sampled ≤ q.fetched)
    && (q.running.all (fun p => decide (q.sampled ≤ p.seq ∨ S < p.desc.step)))
    && (q.waiting.all (fun w => decide (q.sampled ≤ w.1 ∨ S < w.2.1.step)))

/-- A fence client is done (R299, R302). -/
def clientDone (s : State) (c : Nat × Nat) : Bool :=
  match look s.tab.cqps c.2 with
  | none => true
  | some q =>
    q.owner != c.1 || q.gen != genOf s q.owner
      || (match q.stepDone with | some d => decide ((crun s).step ≤ d) | none => false) && coveredDone q (crun s).step

/-- Clients of the open fence that are not done. -/
def fencePending (s : State) : Nat :=
  if courseLive s ∧ (crun s).status = 1 then ((crun s).clients.filter (fun c => !clientDone s c)).length else 0

/-- Tenants with captured local tables, and with captured sharded tables. -/
def localTenants (s : State) : List Nat :=
  (((crun s).tables.filter (fun ti => !(tblD s ti).sharded)).map (fun ti => (tblD s ti).owner)).eraseDups
def shardTenants (s : State) : List Nat :=
  (((crun s).tables.filter (fun ti => (tblD s ti).sharded)).map (fun ti => (tblD s ti).owner)).eraseDups
/-- Tenants that own a sharded table, whether or not the course captures it (R304). -/
def domainTenants (s : State) : List Nat := ((s.tab.tbls.filter (·.2.sharded)).map (·.2.owner)).eraseDups

/-- Every queue pair of a tenant is done. -/
def tenantDone (s : State) (fid : Nat) : Bool := ((crun s).clients.filter (fun c => c.1 == fid)).all (clientDone s)

/-- Forwarded updates of step S or less that their owners have not acknowledged (R304). -/
def fwdPending (s : State) : Bool :=
  s.tab.cqps.any (fun e => e.2.running.any (fun p =>
    decide (p.desc.step ≤ (crun s).step) && (p.desc.opcode == 3 || p.desc.opcode == 5) && !p.sent.isEmpty))

/-- FENCE_UP is due on this member (R304 step 1). -/
def fenceUpDue (s : State) : Bool :=
  courseLive s && !(crun s).fenceUpSent && (domainTenants s).all (tenantDone s) && !fwdPending s
    && decide (s.course.policy.children ≤ (crun s).ups.length)

/-- Every fence of this device's captured tables is closed. -/
def allClosed (s : State) : Bool :=
  (localTenants s).all (fun f => (crun s).closed.contains f) && ((shardTenants s).isEmpty || (crun s).domainClosed)

/-- The course goes on to CAPTURING once every fence is closed (R341). -/
def toCapturing (s : State) : State :=
  if courseLive s && (crun s).status == 1 && allClosed s then updRun (fun r => { r with status := 2 }) s else s

def maxStep : Option Nat → Option Nat → Option Nat
  | some a, some b => some (max a b)
  | none, y => y
  | x, none => x

/-- A table that the next COURSE_OPEN captures: the capture policy that waits for it takes effect there (R91 type 8). -/
def includedNext (t : Tbl) : Bool := ((t.capNext.map (·.include_)).getD t.include_) && t.status == 0

/-- The highest step applied to a table that the next COURSE_OPEN captures, here and in the domain as known here (R297). -/
def ownStep (s : State) : Option Nat := (s.tab.tbls.filter (fun e => includedNext e.2)).foldl (fun m e => maxStep m e.2.highStep) none
def domainStep (s : State) : Option Nat := s.course.peerSteps.foldl (fun m e => maxStep m (some e.2)) (ownStep s)

/-- The same over this member and those below it, which it reports to its parent. -/
def subtreeStep (s : State) : Option Nat :=
  (s.course.peerSteps.filter (fun e => e.1 != fenceParent s)).foldl (fun m e => maxStep m (some e.2)) (ownStep s)

/-- The highest manifest format that this part writes (R33). -/
def ownFormat : Nat := 4

/-- The lowest of the highest manifest formats over this member and those below it, which it reports to its parent; at the root, the domain version
(R33). -/
def subtreeFormat (s : State) : Nat :=
  (s.course.peerFormats.filter (fun e => e.1 != fenceParent s)).foldl (fun m e => min m e.2) ownFormat

/-- The same of the versions of the transport (R33). -/
def subtreeGrt (s : State) : Nat := (s.course.peerGrt.filter (fun e => e.1 != fenceParent s)).foldl (fun m e => min m e.2) ownGrt

/-- A member tells the highest step applied there. -/
def notePeer (device : Nat) (step : Option Nat) (s : State) : State :=
  match step with
  | some x => s.setCourse { s.course with peerSteps := put s.course.peerSteps device x }
  | none => s

/-- FENCE_UP goes out where it is due; the root answers with FENCE_RELEASE and closes its own domain fence (R304). -/
def fenceProgress (s : State) : State :=
  if fenceUpDue s && hasTree s then
    let s := updRun (fun r => { r with fenceUpSent := true }) s
    if fenceRoot s then
      toCapturing (updRun (fun r => { r with domainClosed := true }) (sendDown (.fenceRelease (crun s).id) s))
    else sendUp (.fenceUp (crun s).id (subtreeStep s)) s
  else s

/-! ### Capture-before-update (R308 to R310) -/

/-- Rows of a block that stay poisoned. -/
def lostIn (s : State) (ti r i : Nat) : List BadRow :=
  let t := tblD s ti
  let w := blockRows t r i
  t.bad.filter (fun b => !b.repointing && decide (w.1 ≤ b.row ∧ b.row < w.1 + w.2))

/-- The image of a block: its bytes that are not zero, by offset, and its rows that stay poisoned. -/
def blkImage (s : State) (ti r i : Nat) : BlkImage :=
  let lost := (lostIn s ti r i).map (·.row)
  match blkFrame s ti r i with
  | some f => { table := ti, region := r, index := i,
                cells := (s.mem.cells.filter (fun c => decide (f * frameBytes ≤ c.1 ∧ c.1 < (f + 1) * frameBytes))).map
                  (fun c => (c.1 - f * frameBytes, c.2)), lost := lost }
  | none => { table := ti, region := r, index := i, cells := [], lost := lost }

/-- A block holds rows that wait for repointing. -/
def blkRepointing (s : State) (ti r i : Nat) : Bool :=
  let t := tblD s ti
  let w := blockRows t r i
  t.bad.any (fun b => b.repointing && decide (w.1 ≤ b.row ∧ b.row < w.1 + w.2))

/-- A block's frame lies on a channel that retrains (R112). -/
def blkHeld (s : State) (ti r i : Nat) : Bool := match blkFrame s ti r i with | some f => channelHeld s (f * frameBytes) | none => false

/-- What an update of a step meets at a block. -/
inductive Front where
  /-- nothing stands in the way: the block is captured, or the update belongs to the course -/
  | clear
  /-- the block is copied into the spill region first -/
  | copy
  /-- the copy waits: the spill region is full, or rows of the block wait for repointing, or its channel retrains -/
  | wait (spillFull : Bool)
  deriving DecidableEq, Repr

def frontOf (s : State) (ti r i step : Nat) : Front :=
  if !courseLive s || !(crun s).tables.contains ti || decide (step ≤ (crun s).step) then .clear
  else match blkFind s ti r i with
    | some b =>
      if b.captured then .clear
      else if blkRepointing s ti r i || blkHeld s ti r i then .wait false
      else if (crun s).spill.length < spillFrames s then .copy else .wait true
    | none => .clear

/-- Rows of a block that stay poisoned are listed as lost (R315). -/
def lostRows (ti r i : Nat) (s : State) : List Rollback :=
  let t := tblD s ti
  (lostIn s ti r i).filterMap (fun b =>
    let e : Rollback := { handle := t.handle, firstRow := rowIdentity t b.row, rows := 1, course := 0, step := 0, cause := b.cause }
    if (crun s).rollbacks.contains e then none else some e)

/-- Copies a block into the spill region and marks it captured (R308). -/
def copyBlock (ti r i : Nat) (s : State) : State :=
  perfEvent blkCourse 0x100 1 <| perfEvent blkCourse 0x101 1 <| updBlk ti r i (fun b => { b with captured := true })
    (updRun (fun c => { c with spill := c.spill ++ [blkImage s ti r i], cbu := c.cbu + 1, rollbacks := c.rollbacks ++ lostRows ti r i s,
                               waiting := c.waiting.filter (fun w => w != (ti, r, i)) }) s)

/-- Capture-before-update of a list of blocks: the state after the copies; where some block makes the update wait, the block
stands first among those the walker serves, and the flag says whether the spill region was the cause. -/
def captureBefore (ti step : Nat) : List (Nat × Nat) → State → State × Option Bool
  | [], s => (s, none)
  | (r, i) :: rest, s =>
    match frontOf s ti r i step with
    | .clear => captureBefore ti step rest s
    | .copy => captureBefore ti step rest (copyBlock ti r i s)
    | .wait full =>
      let s := if full && !(crun s).waiting.contains (ti, r, i) then
          updRun (fun c => { c with waiting := c.waiting ++ [(ti, r, i)] }) s else s
      (s, some full)

/-- An update of a step is applied to a table (R297). -/
def noteStep (ti step : Nat) (s : State) : State := updTbl ti (fun t => { t with highStep := maxStep t.highStep (some step) }) s

/-! ### Course areas (R294, R327, R328) -/

def destKey (d : Dest) : Nat := d.type * 2 ^ 32 + d.id
def areaOf (s : State) (k : Nat) : Area := lookD s.course.areas k {}
def setArea (k : Nat) (a : Area) (s : State) : State := s.setCourse { s.course with areas := put s.course.areas k a }

/-- The lowest place of a length in an area that no extent overlaps. -/
def placeIn (a : Area) (limit len : Nat) : Option Nat :=
  let cands := 65536 :: a.extents.map (fun e => roundUp 4096 (e.1 + e.2.1))
  let fits := cands.filter (fun o => decide (65536 ≤ o ∧ o + len ≤ limit)
    && a.extents.all (fun e => decide (o + len ≤ e.1 ∨ e.1 + roundUp 4096 e.2.1 ≤ o)))
  match fits with
  | [] => none
  | f :: r => some (r.foldl min f)

/-- The ledger record in force of an area: the valid slot of the higher sequence (R328). -/
def ledgerOf (a : Area) : Option LedgerRec :=
  match a.slot0, a.slot1 with
  | some x, some y => if x.seq < y.seq then some y else some x
  | some x, none => some x
  | none, y => y

/-- The 128 bytes of a ledger record (R327). -/
def LedgerRec.bytes (r : LedgerRec) : Bytes :=
  let b := layout 128 [(0, 4, 0x4C444752), (4, 2, 1), (6, 2, bit r.root), (8, 8, r.seq), (0x10, 4, r.course), (0x14, 4, r.step),
    (0x18, 2, r.format), (0x1A, 2, r.device), (0x1C, 4, r.prev), (0x20, 8, r.manifestOff), (0x28, 8, r.manifestLen),
    (0x60, 8, r.devOff), (0x68, 8, r.devLen)]
  let b := setBytes b 0x30 ((r.digest ++ List.replicate 48 0).take 48)
  setLe b 0x7C 4 (crc32c (b.take 0x7C)).toNat

/-- The record goes into slot 0: the record in force occupies slot 1, or none does (R328). -/
def intoSlot0 (a : Area) : Bool :=
  match a.slot0, a.slot1 with
  | none, _ => true
  | some _, none => false
  | some x, some y => decide (x.seq < y.seq)

/-- The write of a ledger record leaves, in one 4 KiB write. -/
def emitLedger (k : Nat) (r : LedgerRec) (s : State) : State :=
  emit (.dest k (if intoSlot0 (areaOf s k) then 0 else 4096) (r.bytes ++ List.replicate 3968 0)) s

/-- The record is durable in its slot. -/
def setLedger (k : Nat) (r : LedgerRec) (s : State) : State :=
  let a := areaOf s k
  setArea k (if intoSlot0 a then { a with slot0 := some r } else { a with slot1 := some r }) s

/-- Frees every extent of an area that the course of its valid record does not reference (R330, R339). -/
def trimArea (a : Area) : Area :=
  match ledgerOf a with
  | some r => { a with extents := a.extents.filter (fun e => e.2.2 == r.course) }
  | none => { a with extents := [] }

/-! ### Shards (R316 to R322) -/

/-- Captured format of a scalar state (R318). -/
def scalarFormat (t : Tbl) : Nat := if t.capState = 0 ∨ (t.capState = 0xFF ∧ t.stateFormat = 0) then 0 else 1

/-- Captured format of a region, 0xFF for raw bytes; a scalar state goes in FP32 or BF16, and a manifest of format 3 carries MXFP8 state as BF16
(R318, R320). -/
def capFormat (t : Tbl) (mf r : Nat) : Nat :=
  match r with
  | 0 => if t.rule = 15 then 0xFF else if t.capWeight = 0xFF then (if t.split then 0 else t.format) else t.capWeight
  | 1 => if t.rule = 15 then 0xFF else if t.rule = 3 then scalarFormat t else if t.capState = 0xFF then t.stateFormat
         else if t.capState = 5 ∧ mf = 3 then 1 else t.capState
  | 2 => t.format
  | _ => 0xFF

/-- Vectors of state of a rule, 0 for a scalar state. -/
def stateVectors (rule : Nat) : Nat := match rule with | 2 => 1 | 4 => 1 | 5 => 2 | 6 => 2 | 7 => 2 | _ => 0

/-- Bytes of a captured row of a region. -/
def capRowBytes (t : Tbl) (mf r : Nat) : Nat :=
  match r with
  | 0 => if t.rule = 15 ∨ t.capWeight = 0xFF then regionRow t 0 else roundUp 16 (rowBytesOf t.capWeight t.dim)
  | 1 => if t.rule = 15 ∨ t.capState = 0xFF then t.stateBytes
         else if t.rule = 3 then 16 else roundUp 16 (stateVectors t.rule * rowBytesOf (capFormat t mf 1) t.dim)
  | r => regionRow t r

/-- A row of state of a rule in an element format, each vector in its row layout. -/
def encodeState (t : Tbl) (fmt : Nat) (rnd : Nat → Option Nat) (es : List Nat) : Bytes :=
  if t.rule = 3 then encodeRow (if fmt = 5 then 1 else fmt) 1 rnd es
  else ((List.range (stateVectors t.rule)).map (fun v =>
    encodeRow fmt t.dim (fun j => rnd (v * t.dim + j)) ((es.drop (v * t.dim)).take t.dim))).flatten

def decodeState (t : Tbl) (fmt : Nat) (bs : Bytes) : List Nat :=
  if t.rule = 3 then decodeRow (if fmt = 5 then 1 else fmt) 1 bs
  else ((List.range (stateVectors t.rule)).map (fun v =>
    decodeRow fmt t.dim (bs.drop (v * rowBytesOf fmt t.dim)))).flatten

/-- The stored bytes of a row narrowed to their captured form, rounded to nearest even (R318). -/
def captureRow (t : Tbl) (mf r : Nat) (bs : Bytes) : Bytes :=
  let b := capRowBytes t mf r
  let body := match r with
    | 0 => if t.rule = 15 ∨ t.capWeight = 0xFF then bs
           else encodeRow t.capWeight t.dim (fun _ => none) (decodeRow (if t.split then 0 else t.format) t.dim bs)
    | 1 => if t.rule = 15 ∨ t.capState = 0xFF then bs
           else if t.rule = 3 then encodeRow (scalarFormat t) 1 (fun _ => none) (decodeRow t.stateFormat 1 bs)
           else encodeState t (capFormat t mf 1) (fun _ => none) (decodeState t t.stateFormat bs)
    | _ => bs
  (body ++ List.replicate b 0).take b

/-- Bytes of the area of a shard: the data offset of R319. -/
def dataOffset (shardMib : Nat) : Nat := roundUp 4096 (256 + shardMib / 4 * 32)
def dataOffsetSealed (shardMib : Nat) : Nat := roundUp 4096 (256 + shardMib / 4 * 48)

/-- Ranges of a region's local rows that no shard may cross, as (first local row, count, first global row) (R319, R732). -/
def shardRanges (t : Tbl) : List (Nat × Nat × Nat) :=
  if t.sharded then
    (t.ranges.foldl (fun acc r =>
      let n := if t.hashed then arrayRows t.rows r.2 else r.2
      (acc.1 ++ [(acc.2, n, if t.hashed then acc.2 else r.1)], acc.2 + n)) (([] : List (Nat × Nat × Nat)), 0)).1
  else [(0, t.localRows, 0)]

/-- The regions a course captures of a table. -/
def capRegions (t : Tbl) : List Nat := (tblRegions t).filter (fun r => r != 2 || t.capServing)

/-- The shards of a region. -/
def regionShards (s : State) (ti : Nat) (t : Tbl) (mf : Nat) (sealOn : Bool) (r : Nat) : List Shard :=
  let p := s.course.policy
  let b := capRowBytes t mf r
  let d := if sealOn then dataOffsetSealed p.shardMib else dataOffset p.shardMib
  let R := max 1 ((p.shardMib * 2 ^ 20 - d) / max 1 b)
  let pieces := ((shardRanges t).map (fun g => (List.range (ceilDiv g.2.1 R)).map (fun k =>
    (g.1 + k * R, min R (g.2.1 - k * R), g.2.2 + k * R)))).flatten
  pieces.zipIdx.map (fun x =>
    { number := x.2, table := ti, handle := t.handle, domainId := if t.sharded then t.domainId else 0, region := r,
      format := capFormat t mf r, index := x.2, firstRow := x.1.2.2, localRow := x.1.1, rowCount := x.1.2.1, rowBytes := b,
      dim := t.dim, dataOffset := d, chunks := ceilDiv (x.1.2.1 * b) (4 * 2 ^ 20) })

/-- The shards of a course on this device. -/
def planShards (s : State) (tables : List Nat) (mf : Nat) (sealOn : Bool) : List Shard :=
  ((tables.map (fun ti => ((capRegions (tblD s ti)).map (regionShards s ti (tblD s ti) mf sealOn)).flatten)).flatten).zipIdx.map
    (fun x => { x.1 with number := x.2 })

/-- Bytes of a row in the images of captured blocks. -/
def imageRow (imgs : List BlkImage) (ti : Nat) (t : Tbl) (r row : Nat) : Bytes :=
  ((rowSegs (regionRow t r) row).map (fun g =>
    match imgs.find? (fun m => m.table == ti && m.region == r && m.index == g.1) with
    | some m => memGetBytes m.cells g.2.1 g.2.2
    | none => List.replicate g.2.2 0)).flatten

/-- The data bytes of a shard; rows that stayed poisoned when their image was taken are captured as zeros (R315). -/
def shardData (s : State) (h : Shard) : Bytes :=
  let t := tblD s h.table
  ((List.range h.rowCount).map (fun i =>
    if (crun s).images.any (fun m => m.table == h.table && m.region == h.region && m.lost.contains (h.localRow + i))
    then List.replicate h.rowBytes 0
    else captureRow t (crun s).format h.region (imageRow (crun s).images h.table t h.region (h.localRow + i)))).flatten

/-- The label of a sealed shard's key and the nonce of a chunk (R598). -/
def sealLabel (s : State) (h : Shard) : Bytes :=
  ([0x54, 0x52, 0x4D, 0x2D, 0x53, 0x45, 0x41, 0x4C] : Bytes) ++ leBytes 4 (crun s).id ++ leBytes 2 (deviceIndex s)
    ++ leBytes 1 h.region ++ leBytes 4 h.handle
def sealNonce (course index chunk : Nat) : Bytes := leBytes 4 course ++ leBytes 4 index ++ leBytes 4 chunk

/-- The stored chunks of a shard and its chunk list (R321). -/
def shardChunks (s : State) (h : Shard) (sealOn : Bool) (data : Bytes) : Bytes × Bytes :=
  let key := Config.deriveKey ((domainKey s).getD 0) (sealLabel s h)
  let parts := (List.range h.chunks).map (fun j =>
    let raw := (data.drop (j * 4194304)).take 4194304
    if sealOn then
      let n := sealNonce (crun s).id h.index j
      let c := (Config.sealBytes key n raw ++ List.replicate raw.length 0).take raw.length
      (c, (Config.blake3 c ++ List.replicate 32 0).take 32 ++ (Config.sealTag key n raw ++ List.replicate 16 0).take 16)
    else (raw, (Config.blake3 raw ++ List.replicate 32 0).take 32))
  ((parts.map (·.1)).flatten, (parts.map (·.2)).flatten)

/-- The 256-byte header of a shard (R320). -/
def shardHeader (s : State) (h : Shard) (sealOn : Bool) : Bytes :=
  layout 256 [(0, 4, 0x53485244), (4, 2, (crun s).format), (6, 2, bit sealOn), (8, 4, (crun s).id), (0xC, 2, deviceIndex s),
    (0xE, 1, h.region), (0xF, 1, h.format), (0x10, 4, h.handle), (0x14, 4, h.domainId), (0x18, 4, h.index), (0x1C, 4, h.chunks),
    (0x20, 8, h.firstRow), (0x28, 8, h.rowCount), (0x30, 4, h.rowBytes), (0x34, 2, 0), (0x36, 2, h.dim), (0x38, 4, h.dataOffset),
    (0x3C, 4, if h.region = 4 then 0 else h.dim), (0x40, 8, h.rowCount * h.rowBytes), (0x48, 4, (crun s).step)]

/-! ### Abort (R337, R338) -/

/-- The release record of a region (R335, R337). -/
def regionRecord (g : AccelRegion) (course step status : Nat) : Bytes :=
  layout 16 [(0, 4, g.id), (4, 4, course), (8, 4, step), (0xC, 2, status), (0xE, 2, g.seq)]

def updRegion (id : Nat) (f : AccelRegion → AccelRegion) (s : State) : State :=
  s.setCourse { s.course with regions := updFirst (fun g => g.id == id) f s.course.regions }

/-- The open course ends without a commit. -/
def abortCourse (detail : Nat) (s : State) : State :=
  if !courseLive s then s else
  let r := crun s
  let unreleased := s.course.regions.filter (fun g => g.inCourse && !g.staged)
  let s := unreleased.foldl (fun s g => dmaOut g.endpoint g.notify (regionRecord g r.id r.step 1)
    (updRegion g.id (fun x => { x with seq := (x.seq + 1) % 65536 }) s)) s
  let s := s.setMem { s.mem with blocks := s.mem.blocks.map (fun b => { b with captured := true }) }
  let s := s.setCourse { s.course with
    lastOutcome := 2, lastDetail := detail,
    regions := s.course.regions.map (fun g => { g with inCourse := false, staged := false }),
    areas := s.course.areas.map (fun e => (e.1, { e.2 with extents := e.2.extents.filter (fun x => x.2.2 != r.id) })) }
  let s := updRun (fun r => { r with status := 5, detail := detail, spill := [], images := [], waiting := [], shards := [],
                                     ledgerDue := [], ledgerRest := [] }) s
  sendDown (.abort r.id detail) (sendUp (.abort r.id detail) s)

/-! ### Destinations (R323, R324, R338) -/

def dests (s : State) : List Dest := s.course.policy.dests
def destAt (s : State) (i : Nat) : Dest := ((dests s)[i]?).getD {}
/-- Destination entries not declared failed for the course. -/
def liveDests (s : State) : List Nat := (List.range (dests s).length).filter (fun i => !(crun s).failed.contains i)

/-- Bytes queued for a destination: those of shards sent and not yet durable there. -/
def queuedBytes (s : State) (i : Nat) : Nat :=
  (((crun s).shards.filter (fun h => has h.sent i && !h.durable.contains i)).map (fun h => h.dataOffset + h.rowCount * h.rowBytes)).sum

/-- The destination with the fewest bytes queued, the lowest entry on a tie. -/
def leastQueued (s : State) : List Nat → Option Nat
  | [] => none
  | i :: r => match leastQueued s r with
    | some j => if queuedBytes s j < queuedBytes s i then some j else some i
    | none => some i

/-- Destinations a shard goes to: every one in MIRROR mode, the least queued in STRIPE mode (R324). -/
def shardDests (s : State) : List Nat :=
  if s.course.policy.destMode = 1 then liveDests s else ((leastQueued s (liveDests s)).map (fun i => [i])).getD []

def updShard (n : Nat) (f : Shard → Shard) (s : State) : State :=
  updRun (fun r => { r with shards := updFirst (fun h => h.number == n) f r.shards }) s

/-- Space of a length in a destination's area for the open course. -/
def takeArea (i len : Nat) (s : State) : Option (Nat × State) :=
  let d := destAt s i
  let a := areaOf s (destKey d)
  match placeIn a (d.areaGib * 2 ^ 30) len with
  | some o => some (o, setArea (destKey d) { a with extents := a.extents ++ [(o, len, (crun s).id)] } s)
  | none => none

/-- The course seals its chunks. -/
def sealing (s : State) : Bool := s.course.policy.sealOn && (crun s).format == 4

/-- The stored bytes of a shard and its mark are made once, so that every write of it is of the same bytes (R322, R323). -/
def packShard (h : Shard) (data : Bytes) (s : State) : Shard × State :=
  if !h.head.isEmpty then (h, s)
  else
    let c := shardChunks s h (sealing s) data
    let head := shardHeader s h (sealing s) ++ c.2
    let h := { h with head := head, body := c.1, mark := Config.sha384 head }
    (h, updShard h.number (fun x => { x with head := h.head, body := h.body, mark := h.mark })
      (if sealing s then useWorkingKey ((domainKey s).getD 0) (sealLabel s h) s else s))

/-- The write of a shard at a place of a destination: data first, then header and chunk list (R324). -/
def writeShard (k o : Nat) (h : Shard) (s : State) : State := emit (.dest k o h.head) (emit (.dest k (o + h.dataOffset) h.body) s)

/-- The lowest place of a length that is free in the areas of all of some destinations, so that one OFFSET names it in each (R325). -/
def placeAll (s : State) (is : List Nat) (len : Nat) : Option Nat :=
  let ends := 65536 :: (is.map (fun i => (areaOf s (destKey (destAt s i))).extents.map (fun e => roundUp 4096 (e.1 + e.2.1)))).flatten
  match ends.filter (fun o => is.all (fun i => (let a := areaOf s (destKey (destAt s i))
      decide (65536 ≤ o ∧ o + len ≤ (destAt s i).areaGib * 2 ^ 30)
        && a.extents.all (fun e => decide (o + len ≤ e.1 ∨ e.1 + roundUp 4096 e.2.1 ≤ o))))) with
  | [] => none
  | f :: r => some (r.foldl min f)

/-- A shard is written at a place of one destination. -/
def sendShard (o i : Nat) (h : Shard) (s : State) : State :=
  let k := destKey (destAt s i)
  let a := areaOf s k
  updShard h.number (fun h => { h with sent := put h.sent i o })
    (writeShard k o h (setArea k { a with extents := a.extents ++ [(o, h.dataOffset + h.rowCount * h.rowBytes, (crun s).id)] } s))

/-- A shard goes to its destinations, at one place in the areas of all of them; the course aborts where there is none (R338). -/
def sendOut (h : Shard) (data : Bytes) (s : State) : State :=
  match placeAll s (shardDests s) (h.dataOffset + h.rowCount * h.rowBytes) with
  | none => abortCourse 0x0107 s
  | some o =>
    let p := packShard h data s
    (shardDests s).foldl (fun s i => sendShard o i p.1 s) p.2

/-- Blocks that hold the rows of a shard, or a run of its rows. -/
def rowsBlocks (t : Tbl) (r first n : Nat) : List Nat :=
  if n = 0 ∨ regionRow t r = 0 then [] else
  let b := regionRow t r
  let lo := (rowPlace b first).1
  let hi := (rowPlace b (first + n - 1)).1 + rowSpan b - 1
  (List.range (hi - lo + 1)).map (lo + ·)

def imaged (s : State) (ti r i : Nat) : Bool :=
  (crun s).images.any (fun m => m.table == ti && m.region == r && m.index == i)

/-- Every block of a shard is captured. -/
def shardReady (s : State) (h : Shard) : Bool :=
  h.region != 4 && h.sent.isEmpty
    && (rowsBlocks (tblD s h.table) h.region h.localRow h.rowCount).all (imaged s h.table h.region)

/-! ### The walker (R307, R311) -/

/-- Blocks of a shard's chunk. -/
def chunkBlocks (s : State) (h : Shard) (j : Nat) : List Nat :=
  let lo := j * 4194304 / h.rowBytes
  let hi := min h.rowCount (ceilDiv ((j + 1) * 4194304) h.rowBytes)
  rowsBlocks (tblD s h.table) h.region (h.localRow + lo) (hi - lo)

/-- Open chunks: some of their blocks are captured and some are not; the blocks still to capture, by table and region. -/
def openChunks (s : State) : List (Nat × Nat × List Nat) :=
  (((crun s).shards.filter (fun h => h.region != 4)).map (fun h => (List.range h.chunks).filterMap (fun j =>
    let bs := chunkBlocks s h j
    let rest := bs.filter (fun i => !imaged s h.table h.region i)
    if rest.length < bs.length ∧ rest ≠ [] then some (h.table, h.region, rest) else none))).flatten

/-- The open chunk with the fewest uncaptured blocks. -/
def fewest : List (Nat × Nat × List Nat) → Option (Nat × Nat × List Nat)
  | [] => none
  | c :: r => match fewest r with
    | some d => if d.2.2.length < c.2.2.length then some d else some c
    | none => some c

/-- A block can be captured now: its fence is closed, the walker has not taken it, no row of it waits for repointing, and its channel does not
retrain, or it has a spill copy. -/
def capturable (s : State) (b : Nat × Nat × Nat) : Bool :=
  fenceClosedFor s b.1 && !imaged s b.1 b.2.1 b.2.2 && !blkRepointing s b.1 b.2.1 b.2.2
    && !(blkHeld s b.1 b.2.1 b.2.2 && !(crun s).spill.any (fun m => m.table == b.1 && m.region == b.2.1 && m.index == b.2.2))

/-- Tables of the course in ascending handle order. -/
def walkTables (s : State) : List Nat :=
  sortBy (fun a b => decide ((tblD s a).handle ≤ (tblD s b).handle)) (crun s).tables

/-- Every block of the course, in the walker's order. -/
def walkOrder (s : State) : List (Nat × Nat × Nat) :=
  ((walkTables s).map (fun ti => (tblBlockList (tblD s ti)).map (fun ri => (ti, ri.1, ri.2)))).flatten

/-- The block the walker takes next; with no chunk buffer free, the next block in order of the open chunk with the fewest left, and nothing while that
block cannot be captured (R311). -/
def nextCapture (s : State) : Option (Nat × Nat × Nat) :=
  if !courseLive s then none else
  match (if s.course.policy.chunkBufs ≤ (openChunks s).length then fewest (openChunks s) else none) with
  | some c => (c.2.2.head?.map (fun i => (c.1, c.2.1, i))).filter (capturable s)
  | none =>
    match (crun s).waiting.find? (capturable s) with
    | some b => some b
    | none => (walkOrder s).find? (capturable s)

/-- Captures a block, from its spill copy where it has one, and sends the shards that are complete with it. -/
def captureBlock (b : Nat × Nat × Nat) (s : State) : State :=
  let mine := fun (m : BlkImage) => m.table == b.1 && m.region == b.2.1 && m.index == b.2.2
  let lost := if (crun s).spill.any mine then [] else lostRows b.1 b.2.1 b.2.2 s
  let img := ((crun s).spill.find? mine).getD (blkImage s b.1 b.2.1 b.2.2)
  let s := if (blkFind s b.1 b.2.1 b.2.2).any (·.captured) then s else perfEvent blkCourse 0x100 1 s
  let s := updBlk b.1 b.2.1 b.2.2 (fun x => { x with captured := true })
    (updRun (fun r => { r with spill := r.spill.filter (fun m => !mine m), images := r.images ++ [img],
                               waiting := r.waiting.filter (fun w => w != b), rollbacks := r.rollbacks ++ lost }) s)
  ((crun s).shards.filter (fun h => h.table == b.1 && h.region == b.2.1 && shardReady s h)).foldl
    (fun s h => if courseLive s then sendOut h (shardData s h) s else s) s

/-! ### Manifests and commit (R325 to R330) -/

/-- The TABLE_CREATE block of a table in effect (R243). -/
def tableBlock (t : Tbl) : Bytes :=
  layout 128 [(0, 8, t.rows), (8, 1, t.format), (9, 1, bit t.split), (0xA, 1, t.rule), (0xB, 1, t.stateFormat), (0xC, 4, t.rowBytes),
    (0x10, 4, t.dim), (0x14, 1, bit t.hashed + 2 * bit t.sharded),
    (0x15, 1, match t.tier with | .auto => 0 | .pinHot => 1 | .pinCold => 2), (0x16, 1, t.rounding), (0x17, 1, t.init),
    (0x18, 4, t.initValue), (0x1C, 4, t.initSeed), (0x20, 4, t.lr), (0x24, 4, t.beta1), (0x28, 4, t.beta2), (0x2C, 4, t.epsilon),
    (0x30, 4, t.decay), (0x34, 4, t.momentum), (0x38, 4, t.trustMax), (0x3C, 4, t.gradScale), (0x40, 4, t.stepBase),
    (0x44, 4, t.ruleId), (0x48, 4, t.domainId), (0x4C, 4, t.handle), (0x50, 8, t.ring), (0x58, 4, t.ringEntries)]

/-- The TABLE_CAPTURE_POLICY block of a table in effect (R316). -/
def captureBlockOf (t : Tbl) : Bytes :=
  layout 64 [(0, 4, t.handle), (4, 1, bit t.include_), (5, 1, t.capWeight), (6, 1, t.capState), (7, 1, bit t.capServing)]

/-- A shard's entry: its bytes lie at one offset in the area of each destination that holds it. -/
def shardEntry (h : Shard) : Bytes :=
  let mask := (h.sent.map (fun d => 2 ^ d.1)).sum
  setBytes (layout 128 [(0, 4, h.index), (4, 4, h.handle), (8, 4, h.domainId), (0xC, 1, h.region), (0xD, 1, h.format), (0xE, 1, mask),
    (0x10, 8, h.firstRow), (0x18, 8, h.rowCount), (0x20, 2, 0), (0x22, 2, h.dim),
    (0x28, 8, ((h.sent.head?).map (·.2)).getD 0), (0x30, 8, h.dataOffset + h.rowCount * h.rowBytes)]) 0x38
    ((h.mark ++ List.replicate 48 0).take 48)

def rollbackEntry (r : Rollback) : Bytes :=
  layout 32 [(0, 4, r.handle), (4, 4, r.rows), (8, 8, r.firstRow), (0x10, 4, r.course), (0x14, 4, r.step), (0x18, 4, r.cause)]

def regionEntry (shards : List Shard) (g : AccelRegion) : Bytes :=
  let mine := shards.filter (fun h => h.region == 4 && h.handle == g.id)
  layout 64 [(0, 4, g.id), (4, 2, g.endpoint), (8, 8, g.tag), (0x10, 8, g.length),
    (0x18, 4, (shards.findIdx? (fun h => h.region == 4 && h.handle == g.id)).getD 0), (0x1C, 4, mine.length)]

/-- "TRM-SIGN", and the use of the signing key (R598, R600). -/
def signLabel : Bytes := [0x54, 0x52, 0x4D, 0x2D, 0x53, 0x49, 0x47, 0x4E]
def useSignKey (s : State) : State := useWorkingKey ((domainKey s).getD 0) signLabel s

/-- A signature with the domain course key, 96 bytes (R325, R598). -/
def domainSign (s : State) (m : Bytes) : Bytes :=
  (Config.sign (Config.deriveKey ((domainKey s).getD 0) signLabel) m
    ++ List.replicate 96 0).take 96

/-- The device manifest. -/
def deviceManifest (s : State) : Bytes :=
  let r := crun s
  let regions := s.course.regions.filter (·.inCourse)
  let body := layout 128 [(0, 4, 0x444D4E46), (4, 2, r.format), (6, 2, 1), (8, 4, r.id), (0xC, 4, r.step), (0x10, 2, deviceIndex s),
      (0x12, 2, s.course.policy.destMode), (0x14, 4, r.tables.length), (0x18, 4, r.shards.length), (0x1C, 4, r.rollbacks.length),
      (0x20, 4, regions.length), (0x24, 4, (r.failed.map (2 ^ ·)).sum), (0x28, 8, r.label)]
    ++ (r.tables.map (fun ti => tableBlock (tblD s ti) ++ captureBlockOf (tblD s ti))).flatten
    ++ (r.shards.map shardEntry).flatten ++ (r.rollbacks.map rollbackEntry).flatten ++ (regions.map (regionEntry r.shards)).flatten
  body ++ domainSign s body

/-- The course manifest of the root (R326). -/
def courseManifest (s : State) (ms : List MemberEntry) : Bytes :=
  let r := crun s
  let body := layout 64 [(0, 4, 0x434D4E46), (4, 2, r.format), (8, 4, r.id), (0xC, 4, r.step), (0x10, 4, ms.length)]
    ++ (ms.map (fun m => setBytes (layout 64 [(0, 2, m.device), (4, 4, m.shards), (8, 8, m.length)]) 0x10
        ((m.digest ++ List.replicate 48 0).take 48))).flatten
  body ++ domainSign s body

/-- Writes bytes into an extent of every destination in use; the offsets, by destination. -/
def writeEverywhere (bs : Bytes) (is : List Nat) (s : State) : List (Nat × Nat) × State :=
  is.foldl (fun acc i => if !courseLive acc.2 then acc else match takeArea i bs.length acc.2 with
    | some (o, s) => (acc.1 ++ [(i, o)], emit (.dest (destKey (destAt s i)) o bs) s)
    | none => (acc.1, abortCourse 0x0107 acc.2)) ([], s)

/-- Every shard and every region of this device is durable. -/
def outputDurable (s : State) : Bool :=
  (walkOrder s).all (fun b => imaged s b.1 b.2.1 b.2.2)
    && (crun s).shards.all (fun h => !h.sent.isEmpty && h.sent.all (fun d => h.durable.contains d.1 || (crun s).failed.contains d.1)
        && h.sent.any (fun d => h.durable.contains d.1))
    && s.course.regions.all (fun g => !g.inCourse || g.staged)

/-- This device's entry for COMMIT_UP. -/
def ownEntry (s : State) : MemberEntry :=
  { device := deviceIndex s, shards := (crun s).shards.length, length := (crun s).devManifest.length,
    digest := Config.sha384 (crun s).devManifest }

/-- The ledger record of a commit for one destination. -/
def ledgerFor (s : State) (root : Bool) (i : Nat) (manifest : Bytes) (off : Nat) : LedgerRec :=
  let r := crun s
  let prev := ledgerOf (areaOf s (destKey (destAt s i)))
  { root := root, seq := ((prev.map (·.seq)).getD 0) + 1, course := r.id, step := r.step, format := r.format, device := deviceIndex s,
    prev := (prev.map (·.course)).getD 0, manifestOff := off, manifestLen := manifest.length, digest := Config.sha384 manifest,
    devOff := lookD r.devOff i 0, devLen := r.devManifest.length }

/-- The device manifest is written once all output is durable (R329 step 1). -/
def manifestProgress (s : State) : State :=
  if courseLive s && (crun s).status == 2 && outputDurable s && !(crun s).manifestSent then
    let m := deviceManifest s
    let w := writeEverywhere m (liveDests s) (useSignKey s)
    if courseLive w.2 then
      updRun (fun r => { r with status := 3, devManifest := m, devOff := w.1, manifestSent := true }) w.2
    else w.2
  else s

/-- COMMIT_UP has come from every child's subtree. -/
def childrenIn (s : State) : Bool := decide (s.course.policy.children ≤ (crun s).upsCommit.length)

/-- The commit goes on where it can: a member sends COMMIT_UP, the root writes the course manifest and its ledger record (R329). -/
def commitProgress (s : State) : State :=
  let s := manifestProgress s
  if courseLive s && (crun s).status == 3 && childrenIn s && !(crun s).commitSent then
    let ms := ownEntry s :: (crun s).members
    if fenceRoot s then
      let m := courseManifest s ms
      let w := writeEverywhere m (liveDests s) (useSignKey s)
      if courseLive w.2 then
        let due := (liveDests w.2).filter (fun i => (crun w.2).shards.isEmpty || (crun w.2).shards.any (fun h => has h.sent i))
        let s := updRun (fun r => { r with commitSent := true, ledgerDue := due, ledgerRest := (liveDests w.2).filter (fun i => !due.contains i), manifest := m, manifestOff := w.1 }) w.2
        (liveDests s).foldl (fun s i => emitLedger (destKey (destAt s i)) (ledgerFor s true i m (lookD w.1 i 0)) s) s
      else w.2
    else sendUp (.commitUp (crun s).id ms) (updRun (fun r => { r with commitSent := true }) s)
  else s

/-- The course is committed on this device: its extents replace those of the course before it, where its ledger record is durable (R330). -/
def courseCommitted (s : State) : State :=
  let r := crun s
  let s := updRun (fun r => { r with status := 4, spill := [], images := [], waiting := [] }) s
  let s := s.setMem { s.mem with blocks := s.mem.blocks.map (fun b => { b with captured := true }) }
  s.setCourse { s.course with
    lastOutcome := 1, lastDetail := 0, committed := some (r.id, r.step),
    regions := s.course.regions.map (fun g => { g with inCourse := false, staged := false }),
    areas := s.course.areas.map (fun e => (e.1, if (r.ledgerRest.map (fun i => destKey (destAt s i))).contains e.1 then e.2 else trimArea e.2)) }

/-! ### Opening (R295 to R298) -/

/-- Gives back the frames of a use. -/
def dropUse (u : FrameUse) (s : State) : State := freeExtents (fun x => x == u) s
/-- Renames the use of extents. -/
def reuse (a b : FrameUse) (s : State) : State :=
  s.setMem { s.mem with extents := s.mem.extents.map (fun e => if e.use = a then { e with use := b } else e) }

/-- GDDR7 frames that a policy takes (R293). -/
def policyFrames (p : CoursePolicy) : Nat := p.spillGib * 16384 + p.chunkBufs * 64 + p.stagingGib * 16384

/-- A waiting capture policy is in force. -/
def CapPolicy.into (q : CapPolicy) (t : Tbl) : Tbl :=
  { t with include_ := q.include_, capWeight := q.weight, capState := q.state, capServing := q.serving, capNext := none }

/-- The policy accepted last takes force and the frames of superseded ones are freed. -/
def enforcePolicy (s : State) : State :=
  let s := s.setTab { s.tab with tbls := s.tab.tbls.map (fun e =>
    (e.1, match e.2.capNext with | some q => q.into e.2 | none => e.2)) }
  let s := match s.course.next with
    | some p => s.setCourse { s.course with policy := p, next := none }
    | none => s
  if s.mem.extents.any (fun e => e.use == .courseNext) then
    reuse .courseNext .course (dropUse .courseOld (dropUse .course s))
  else dropUse .courseOld s

/-- Tables a course captures: included, READY and visible (R251, R316). -/
def capturedTables (s : State) : List Nat :=
  (s.tab.tbls.filter (fun e => e.2.include_ && e.2.visible && e.2.status == 0)).map (·.1)

/-- The course is open on this device, and its course front is cleared. -/
def openRun (id step label format trigger : Nat) (s : State) : State :=
  let s := enforcePolicy s
  let tables := capturedTables s
  let blocks := s.mem.blocks.map (fun b => { b with captured := !tables.contains b.table })
  let s := s.setMem { s.mem with blocks := blocks }
  let regions := (s.course.regions.filter (fun g => !g.leaves)).map (fun g =>
    { g with joins := false, inCourse := true, staged := false })
  let t := now s 0x41
  let s := s.setCourse { s.course with regions := regions, highId := max s.course.highId id, lastOpen := t, openedOnce := true }
  let run : CourseRun :=
    { id := id, step := step, label := label, format := format, trigger := trigger, status := 1, openedAt := t, tables := tables,
      clients := s.tab.cqps.map (fun e => (e.2.owner, e.1)), total := (blocks.filter (fun b => !b.captured)).length }
  let s := setRun run s
  updRun (fun r => { r with shards := planShards s tables format (s.course.policy.sealOn && format == 4) }) s

/-- A warning event is counted (R332): 0 corrected errors, 1 retrains, 2 thermal, 3 accelerator errors. -/
def warn (i n : Nat) (s : State) : State :=
  s.setCourse { s.course with present := s.course.present.set i (s.course.present.getD i 0 + n) }

end Sys2Proof.Machine
end

