-- ==== Sys2Proof/Machine/Lines.lean ====
section
/-! DEFINITION. What follows from a bad line: the re-read, poison and its consequence by what the line holds, rings in the queue region, run-time fences, and the replacement of frames. -/

namespace Sys2Proof.Machine

open Sys2Proof

/-! ### Frames for recovery (R43, R113) -/

/-- A frame for one use outside the block map. -/
def takeUseFrame (use : FrameUse) (reserve : Bool) (s : State) : Option (Nat × State) :=
  (takeFrame true reserve s).map (fun fs =>
    (fs.1, fs.2.setMem { fs.2.mem with extents := fs.2.mem.extents ++ [{ first := fs.1, count := 1, use := use }] }))

/-- Several frames for one use; none where they do not all fit. -/
def takeUseFrames (use : FrameUse) : Nat → State → Option (List Nat × State)
  | 0, s => some ([], s)
  | n + 1, s =>
    (takeUseFrame use false s).bind (fun a => (takeUseFrames use n a.2).map (fun b => (a.1 :: b.1, b.2)))

/-- The extents with other frames in a frame's place. -/
def swapFrame (f : Nat) (put_ : List Nat) (l : List Extent) : List Extent :=
  (l.map (fun e => if e.first ≤ f ∧ f < e.first + e.count then
      (if f = e.first then [] else [{ e with count := f - e.first }]) ++ put_.map (fun g => { e with first := g, count := 1 })
        ++ (if f + 1 = e.first + e.count then [] else [{ e with first := f + 1, count := e.first + e.count - f - 1 }])
    else [e])).flatten

/-- The extents without a frame. -/
def cutFrame (f : Nat) (l : List Extent) : List Extent := swapFrame f [] l

/-- A frame that a kernel's code or a ring holds: it is not placed again, and reads of it report poison (R113, R730). -/
def stays (u : FrameUse) : Bool := match u with | .kernel _ => true | .ring => true | .retired => true | _ => false

/-- A GDDR7 frame of a block map, a bitmap, the spill region or staging is replaced by another, a map frame by one on another channel than its
twin's (R103, R113); with none left it stays retired. A frame of the CXL course area is lost with its device. -/
def replaceFrame (f : Nat) (s : State) : State :=
  match s.mem.extents.find? (fun e => decide (e.first ≤ f ∧ f < e.first + e.count)) with
  | some e =>
    if stays e.use then s
    else if !isHotFrame f then s.setMem { s.mem with extents := cutFrame f s.mem.extents }
    else
      let may := match e.use, twinOf s e.use f with
        | .map _, some g => fun x => frameChan s x != frameChan s g
        | _, _ => fun _ => true
      if framesUsed s true < hotUsable s + 1 then
        match takeHot may s with
        | some (g, s) => s.setMem { s.mem with extents := swapFrame f [g] s.mem.extents }
        | none => s
      else s
  | none => s

/-! ### Rings in the queue region (R396, R730) -/

/-- Host port of an accelerator endpoint. -/
def endpointHost (s : State) (ep : Nat) : Nat := (pbOf s (ep / 4)).hostPort

/-- The lowest run of free pages of a host port's queue region. -/
def freePages (s : State) (hp n : Nat) : Option Nat :=
  let mine := s.ports.qrings.filter (fun q => q.hp == hp)
  let cands := 0 :: mine.map (fun q => q.page + q.pages)
  let fits := cands.filter (fun p => decide (p + n ≤ 65536) && mine.all (fun q => decide (p + n ≤ q.page ∨ q.page + q.pages ≤ p)))
  match fits with
  | [] => none
  | p :: r => some (r.foldl min p)

/-- A ring of a number of bytes is placed in the queue region. -/
def placeRing (hp owner : Nat) (queue : Option Nat) (reply : Bool) (bytes : Nat) (s : State) : Option (Nat × State) :=
  let n := ceilDiv bytes 4096
  (freePages s hp n).bind (fun p => (takeUseFrames .ring (ceilDiv n 16) s).map (fun a =>
    (p, a.2.setPorts { a.2.ports with qrings := a.2.ports.qrings ++
      [{ hp := hp, page := p, pages := n, frames := a.1, owner := owner, queue := queue, reply := reply }] })))

/-- Gives back the frames of rings. -/
def dropRings (p : QRing → Bool) (s : State) : State :=
  let gone := s.ports.qrings.filter p
  let s := s.setPorts { s.ports with qrings := s.ports.qrings.filter (fun q => !p q) }
  (gone.map (·.frames)).flatten.foldl (fun s f => freeFrame f (s.setMem { s.mem with extents := cutFrame f s.mem.extents })) s

/-- ICP command and reply rings of an endpoint: 64 slots of 4 KiB each, 8 frames (R66, R396). -/
def endpointRings (ep : Nat) (s : State) : State :=
  let hp := endpointHost s ep
  let id := accelId ep
  if s.ports.qrings.any (fun q => q.owner == id && q.queue.isNone) then s
  else match placeRing hp id none false 262144 s with
    | some (_, s1) => (match placeRing hp id none true 262144 s1 with | some (_, s2) => s2 | none => s)
    | none => s

/-- The rings of an endpoint are placed. -/
def ringsPlaced (s : State) (ep : Nat) : Bool := s.ports.qrings.any (fun q => q.owner == accelId ep && q.queue.isNone)

/-- An endpoint takes its rings and is served through them; where none can be placed it has none until frames become free (R396, R730). -/
def armEndpoint (ep : Nat) (s : State) : State :=
  let s := endpointRings ep s
  let there := ringsPlaced s ep
  let r := ringOf s (accelId ep)
  setRing (accelId ep) { r with enable := there, ready := there } (s.setPorts { s.ports with
    ringless := s.ports.ringless.filter (· != ep) ++ (if there then [] else [ep]) })

/-- Endpoints without rings try again. -/
def retryRings (s : State) : State := s.ports.ringless.foldl (fun s ep => armEndpoint ep s) s

/-- The frames of rings are retired (R730). -/
def retireRings (p : QRing → Bool) (s : State) : State :=
  let gone := ((s.ports.qrings.filter p).map (·.frames)).flatten
  let s := s.setPorts { s.ports with qrings := s.ports.qrings.filter (fun q => !p q) }
  s.setMem { s.mem with extents := gone.foldl (fun l f => cutFrame f l ++ [{ first := f, count := 1, use := .retired }]) s.mem.extents }

/-- The session and the unanswered commands of an endpoint end and its generation rises (R56, R63). -/
def endpointReset (ep : Nat) (s : State) : State :=
  let l := linkOf s ep
  let s := setLink ep { l with gen := nextGen l.gen } s
  let gone := (s.icp.waits.filter (fun w => w.via == .accel ep)).length
  let s := s.setIcp { s.icp with
    sessions := del s.icp.sessions (.accel ep), waits := s.icp.waits.filter (fun w => w.via != .accel ep),
    behind := s.icp.behind.filter (fun b => b.1 != .accel ep), replyDrops := s.icp.replyDrops + gone }
  s.setRings (put s.rings (accelId ep) { cmdLog2 := 6, rplLog2 := 6, enable := ringsPlaced s ep, ready := ringsPlaced s ep })

/-- A line of a ring is poisoned. -/
def ringPoisoned (l : Nat) (q : QRing) (s : State) : State :=
  let hot := isHotFrame (l / frameBytes)
  let s := recordCon (lineBlock s l) (if hot then 0x0106 else 0x0104)
    [l % 2 ^ 32, l / 2 ^ 32, q.owner, (q.queue).getD q.owner] s
  match q.queue with
  | some n => s.setTab { s.tab with cqps := s.tab.cqps.map (fun e =>
      if e.1 = n then (e.1, { e.2 with error := true, waiting := [], unread := [] }) else e) }
  | none =>
    let ep := q.owner - 0x4000
    let s := endpointReset ep s
    armEndpoint ep (retireRings (fun x => x.owner == q.owner && x.queue.isNone) s)

/-! ### Poison (R118 to R122, R126) -/

/-- Every row touching a line of a block is poisoned and passed on for repointing (R285). -/
def poisonRowsAt (b : Blk) (off n cause : Nat) (s : State) : State :=
  let w := rowsAt (tblD s b.table) b.region b.index off n
  (List.range w.2).foldl (fun s i => poisonRow b.table (w.1 + i) cause (b.region == 3) s) s

/-- A table goes into the error state (R251). -/
def tableError (ti : Nat) (s : State) : State := updTbl ti (fun t => { t with status := 1 }) s

/-- What a line's poison leads to, by what the line holds. -/
def lineConsequence (lf : LineFault) (s : State) : State :=
  let l := lineOf lf.dpa
  let info := [l % 2 ^ 32, l / 2 ^ 32]
  let blk := lineBlock s l
  let hot := isHotFrame (l / frameBytes)
  match s.mem.blocks.find? (fun b => b.frame == some (l / frameBytes) || b.moving == some (l / frameBytes)) with
  | some b =>
    let s := if hot then recordCor blk 0x0101 info s else recordCor blk 0x0102 info s
    poisonRowsAt b (l % frameBytes) 128 1 s
  | none =>
    match s.ports.qrings.find? (fun q => q.frames.contains (l / frameBytes)) with
    | some q => ringPoisoned l q s
    | none =>
      match extentAt s l with
      | none => s
      | some e =>
        match e.use with
        | .map ti =>
          if lf.bothCopies then tableError ti (abortCourse 0x0109 (recordCon blk 0x0104 info s))
          else
            let s := s.setMem { s.mem with poison := s.mem.poison.filter (fun x => x != l) }
            warn 0 1 (recordCor blk 0x0102 info s)
        | .course => abortCourse 0x0108 (recordCon blk 0x0105 info s)
        | .courseNext => abortCourse 0x0108 (recordCon blk 0x0105 info s)
        | .courseOld => abortCourse 0x0108 (recordCon blk 0x0105 info s)
        | _ => recordCor blk (if hot then 0x0101 else 0x0102) info s

/-- A line whose second read fails too is poisoned. -/
def badLine (lf : LineFault) (s : State) : State :=
  let l := lineOf lf.dpa
  if poisoned s l then s
  else
    let s := poisonLine l s
    lineConsequence lf (if isHotFrame (l / frameBytes) then bump (lineBlock s l) 0x120 s else s)

/-- A read of a line fails its checksum and is done once more; where the check line fails, so do the data lines of its group (R118). -/
def lineFault (lf : LineFault) (s : State) : State :=
  let l := lineOf lf.dpa
  let hot := isHotFrame (l / frameBytes)
  let info := [l % 2 ^ 32, l / 2 ^ 32]
  let blk := lineBlock s l
  if (poisoned s l && !lf.check) || !custodyRange s l 128 then s
  else if lf.reread then
    (if hot then warn 0 1 (bump blk 0x11C (recordCor blk 0x0100 info s)) else recordCor blk 0x0101 info s)
  else if lf.check then (groupLines s l).foldl (fun s x => match x with | some d => badLine { lf with dpa := d } s | none => s) s
  else badLine lf s

def lineFaults (ls : List LineFault) (s : State) : State := ls.foldl (fun s l => lineFault l s) s

/-! ### Run-time fences (R113, R114, R127) -/

/-- The rows of a block wait for repointing, or, where a block of theirs has no frame, stay poisoned until it is placed. -/
def fenceRows (b : Blk) (cause : Nat) (s : State) : State :=
  let w := blockRows (tblD s b.table) b.region b.index
  (List.range w.2).foldl (fun s i => poisonRow b.table (w.1 + i) cause (b.region == 3) s) s

/-- A block whose frame is lost takes another one of a tier that its class allows. -/
def rehomeBlock (cause : Nat) (b : Blk) (s : State) : State :=
  let s := match b.moving with | some f => freeFrame f s | none => s
  let s := updBlk b.table b.region b.index (fun x => { x with frame := none, moving := none }) s
  match recoverFrame b.cls s with
  | some (f, s) => fenceRows b cause (updBlk b.table b.region b.index (fun x => { x with frame := some f }) s)
  | none => fenceRows b cause s

/-- Frames of the extents and rings that have been retired, one by one. -/
def retiredExtents (s : State) : List (Nat × FrameUse) :=
  (s.mem.extents.map (fun e => ((List.range e.count).map (fun i => (e.first + i, e.use))).filter (fun x => retired s x.1))).flatten

/-- The frames of a fenced channel or device are retired, every line of them is poisoned (`poisoned`), and what they held is placed again. -/
def fencedFrames (cause : Nat) (s : State) : State :=
  let moves := s.mem.blocks.filter (fun b => match b.moving with | some f => retired s f | none => false)
  let s := moves.foldl (fun s b => updBlk b.table b.region b.index (fun x => { x with moving := none }) s) s
  let lost := s.mem.blocks.filter (fun b => match b.frame with | some f => retired s f | none => false)
  let s := s.setMem { s.mem with
    poison := s.mem.poison.filter (fun l => !retired s (l / frameBytes)),
    cells := s.mem.cells.filter (fun c => !(retired s (c.1 / frameBytes))) }
  let s := lost.foldl (fun s b => rehomeBlock cause b s) s
  let ex := retiredExtents s
  let s := match ex.find? (fun x => x.2 == .course || x.2 == .courseNext || x.2 == .courseOld) with
    | some x => abortCourse 0x0108 (recordCon (lineBlock s (x.1 * frameBytes)) 0x0105
        [x.1 * frameBytes % 2 ^ 32, x.1 * frameBytes / 2 ^ 32] s)
    | none => s
  let s := (ex.filter (fun x => match x.2 with | .map _ => true | _ => false)).foldl (fun s x =>
    warn 0 1 (recordCor (lineBlock s (x.1 * frameBytes)) 0x0102 [x.1 * frameBytes % 2 ^ 32, x.1 * frameBytes / 2 ^ 32] s)) s
  let s := (s.ports.qrings.filter (fun q => q.frames.any (retired s))).foldl
    (fun s q => ringPoisoned ((q.frames.find? (retired s)).getD 0 * frameBytes) q s) s
  ex.foldl (fun s x => replaceFrame x.1 s) s

/-- The fence records as SPI flash holds them: channel and cause, then CXL links, 2 bytes each. -/
def fenceBytes (m : Mem) : Bytes :=
  m.fenceLog.flatMap (fun e => leBytes 2 e.1 ++ leBytes 2 e.2) ++ m.cxlFenceLog.flatMap (fun n => leBytes 2 n)

/-- The fence records of the always-on RAM are mirrored in SPI flash (R111, R145). -/
def mirrorFences (s : State) : State :=
  emit (.flash "fence records" (fenceBytes s.mem)) (s.setMem { s.mem with flashFences := s.mem.fenceLog, flashCxlFences := s.mem.cxlFenceLog })

/-- A host's access to custody memory, with the lines whose read fails: it waits while a channel of its lines retrains (R112). -/
def hostAccess (a : HeldAcc) (s : State) : State :=
  if rangeHeld s a.dpa a.len then s.setMem { s.mem with heldAcc := s.mem.heldAcc ++ [a] } else serveAcc a (lineFaults a.faults s)

/-- Accesses whose channels no longer retrain are done, in their order. -/
def releaseAccs (s : State) : State :=
  let go := s.mem.heldAcc.filter (fun a => !rangeHeld s a.dpa a.len)
  go.foldl (fun s a => serveAcc a (lineFaults a.faults s))
    (s.setMem { s.mem with heldAcc := s.mem.heldAcc.filter (fun a => rangeHeld s a.dpa a.len) })

/-- A channel is fenced at run time. -/
def fenceChannel (mc ch cause : Nat) (s : State) : State :=
  let x := 16 * mc + ch
  if !s.mem.channels.contains x || has s.mem.fenced x then s
  else
    let n := s.mem.hotTotal / s.mem.channels.length * 512
    let s := s.setMem { s.mem with fenced := put s.mem.fenced x cause, fenceLog := put s.mem.fenceLog x cause,
                                   retraining := s.mem.retraining.filter (fun y => y != x) }
    releaseAccs (fencedFrames 2 (bumpBy (blkMc mc) 0x120 n (recordCon (blkMc mc) 0x0103 [ch, cause] (mirrorFences s))))

/-- A CXL device, with its whole interleave set, is fenced until the next cold reset. -/
def fenceCxl (block link : Nat) (s : State) : State :=
  let n := block * 4 + link
  match s.mem.cxl.find? (fun c => c.links.contains n && !c.fenced) with
  | none => s
  | some _ =>
    let s := s.setMem { s.mem with
      cxl := s.mem.cxl.map (fun c => if c.links.contains n then { c with fenced := true } else c),
      cxlFenceLog := n :: s.mem.cxlFenceLog.filter (fun x => x != n) }
    fencedFrames 3 (recordCon (blkPb block) 0x0103 [link] (mirrorFences s))

end Sys2Proof.Machine
end

