-- ==== Sys2Proof/Machine/Rows.lean ====
section
/-! DEFINITION. Rows at work: the optimizer rules, pooling, and the serving of one index of a descriptor by the device that owns its row. -/

namespace Sys2Proof.Machine

open Sys2Proof

/-! ### Completion statuses and flags (R260, R261) -/

def csOk : Nat := 0
def csBadOpcode : Nat := 1
def csBadVersion : Nat := 2
def csBadHandle : Nat := 3
def csBadAddress : Nat := 4
def csBadIndex : Nat := 5
def csNotPermitted : Nat := 6
def csIntegrity : Nat := 7
def csTableFull : Nat := 8
def csStepClosed : Nat := 9
def csKernelFault : Nat := 0xA
def csUnreachable : Nat := 0xB
def csAborted : Nat := 0xC
def csIsolated : Nat := 0xD

def cfRolledBack : Nat := 1
def cfClamped : Nat := 2
def cfForwarded : Nat := 4
def cfSpillWait : Nat := 8
def cfCxl : Nat := 16

/-! ### The optimizer rules (R271) -/

/-- What a rule reads beside the row: its table, t, the learning rate. -/
structure RuleCtx where
  t : Tbl
  /-- max(STEP − STEP_BASE + 1, 1) -/
  n : Nat
  lr : Nat
  deriving DecidableEq, Repr

/-- g′ = g + λw. -/
def decayed (c : RuleCtx) (g w : Nat) : Nat := fadd g (fmul c.t.decay w)

/-- w − η·g′ ÷ (√a + ε). -/
def adaStep (c : RuleCtx) (w g a : Nat) : Nat := fsub w (fdiv (fmul c.lr g) (fadd (fsqrt a) c.t.epsilon))

/-- First and second moment after a gradient. -/
def moment1 (c : RuleCtx) (m g : Nat) : Nat := fadd (fmul c.t.beta1 m) (fmul (fsub fone c.t.beta1) g)
def moment2 (c : RuleCtx) (v g : Nat) : Nat := fadd (fmul c.t.beta2 v) (fmul (fsub fone c.t.beta2) (fmul g g))
/-- Bias-corrected moments. -/
def hat1 (c : RuleCtx) (m : Nat) : Nat := fdiv m (fsub fone (fpow c.t.beta1 c.n))
def hat2 (c : RuleCtx) (v : Nat) : Nat := fdiv v (fsub fone (fpow c.t.beta2 c.n))
/-- m̂ ÷ (√v̂ + ε). -/
def adamDir (c : RuleCtx) (m v : Nat) : Nat := fdiv (hat1 c m) (fadd (fsqrt (hat2 c v)) c.t.epsilon)

/-- The norm of a row: the square root of the sum of the squares, in element order. -/
def rowNorm (es : List Nat) : Nat := fsqrt (es.foldl (fun a e => fadd a (fmul e e)) fzero)

/-- τ of LAMB: the ratio of the norms, 1 where either is 0, limited to TRUST_MAX. -/
def trust (c : RuleCtx) (w r : List Nat) : Nat :=
  let a := rowNorm w
  let b := rowNorm r
  let q := if (f32 a).isZero || (f32 b).isZero then fone else fdiv a b
  if flt c.t.trustMax q then c.t.trustMax else q

/-- The row and its state after one update: new weights and new state elements. -/
def applyRule (c : RuleCtx) (g w st : List Nat) : List Nat × List Nat :=
  let d := c.t.dim
  let ix := List.range d
  let W := fun i => w.getD i 0
  let G := fun i => g.getD i 0
  let gd := fun i => decayed c (G i) (W i)
  match c.t.rule with
  | 1 => (ix.map (fun i => fsub (W i) (fmul c.lr (gd i))), [])
  | 2 =>
    let m := ix.map (fun i => fadd (fmul c.t.momentum (st.getD i 0)) (gd i))
    (ix.map (fun i => fsub (W i) (fmul c.lr (m.getD i 0))), m)
  | 3 =>
    let sum := ix.foldl (fun a i => fadd a (fmul (gd i) (gd i))) fzero
    let a := fadd (st.getD 0 0) (fdiv sum (fofNat d))
    (ix.map (fun i => adaStep c (W i) (gd i) a), [a])
  | 4 =>
    let a := ix.map (fun i => fadd (st.getD i 0) (fmul (gd i) (gd i)))
    (ix.map (fun i => adaStep c (W i) (gd i) (a.getD i 0)), a)
  | 5 =>
    let m := ix.map (fun i => moment1 c (st.getD i 0) (gd i))
    let v := ix.map (fun i => moment2 c (st.getD (d + i) 0) (gd i))
    (ix.map (fun i => fsub (W i) (fdiv (fmul c.lr (hat1 c (m.getD i 0))) (fadd (fsqrt (hat2 c (v.getD i 0))) c.t.epsilon))), m ++ v)
  | 6 =>
    let m := ix.map (fun i => moment1 c (st.getD i 0) (G i))
    let v := ix.map (fun i => moment2 c (st.getD (d + i) 0) (G i))
    (ix.map (fun i => fsub (W i) (fmul c.lr (fadd (adamDir c (m.getD i 0) (v.getD i 0)) (fmul c.t.decay (W i))))), m ++ v)
  | 7 =>
    let m := ix.map (fun i => moment1 c (st.getD i 0) (G i))
    let v := ix.map (fun i => moment2 c (st.getD (d + i) 0) (G i))
    let r := ix.map (fun i => fadd (adamDir c (m.getD i 0) (v.getD i 0)) (fmul c.t.decay (W i)))
    let q := fmul c.lr (trust c (ix.map W) r)
    (ix.map (fun i => fsub (W i) (fmul q (r.getD i 0))), m ++ v)
  | _ => (w, st)

/-! ### Reading and storing the values of a row -/

/-- Format of the weights a rule works on: FP32 for a master, the stored format otherwise (R272). -/
def weightFormat (t : Tbl) : Nat := if t.split then 0 else t.format

/-- The weights of a row as FP32 elements. -/
def rowWeights (s : State) (ti : Nat) (t : Tbl) (row : Nat) : List Nat :=
  decodeRow (weightFormat t) t.dim (readRow s ti t 0 row)

/-- The serving copy is rewritten from a master with stochastic rounding, whatever ROUNDING holds (R272). -/
def rewriteServing (ti : Nat) (t : Tbl) (row : Nat) (es : List Nat) (s : State) : State :=
  if t.split then
    writeRow ti t 2 row (servingBytes t (rowRound true s.draw) es) (s.setDraw (s.draw + t.dim))
  else s

/-- Weights and state are stored by the table's ROUNDING, and the serving copy after them. -/
def storeRow (ti : Nat) (t : Tbl) (row : Nat) (w st : List Nat) (s : State) : State :=
  let sr := t.rounding == 1
  let d := s.draw
  let n := ruleElems t.rule t.dim
  let s := writeRow ti t 0 row (encodeRow (weightFormat t) t.dim (rowRound sr d) w) (s.setDraw (d + t.dim + n))
  let s := if t.stateBytes = 0 then s
    else writeRow ti t 1 row (encodeState t t.stateFormat (rowRound sr (d + t.dim)) st) s
  rewriteServing ti t row w s

/-! ### Serving one index -/

/-- An index of a descriptor at the device that owns its row. -/
structure RowOp where
  op : Nat
  /-- FLAGS of the descriptor -/
  flags : Nat
  step : Nat
  lr : Nat
  index : Nat
  /-- UPDATE: the FP32 elements of the summed gradient; WRITE_ROWS: the bytes to store -/
  data : Bytes := []
  deriving DecidableEq, Repr

/-- What serving an index comes to. -/
inductive Served where
  /-- served: status, flags and row bytes -/
  | done (s : State) (status flags : Nat) (bytes : Bytes)
  /-- it waits, with the flags the wait raises -/
  | wait (s : State) (flags : Nat)
  /-- a kernel item runs the custom rule on a row -/
  | item (s : State) (row flags : Nat)
  deriving DecidableEq, Repr

/-- The region that READ_ROWS and WRITE_ROWS address (R265, R273). -/
def addressed (t : Tbl) (flags : Nat) : Nat :=
  if flags.testBit 5 then 1 else if flags.testBit 4 then 0 else if t.split then 2 else 0

/-- The region that a lookup reads. -/
def servedRegion (t : Tbl) : Nat := if t.split then 2 else 0

/-- The row that an index names here: a row, an absent key, or none. -/
inductive RowRef where
  | row (r : Nat)
  | absent
  /-- a key that is not found while the key of a candidate row is lost (R285, R287) -/
  | lost (b : BadRow)
  | bad
  deriving DecidableEq, Repr

def rowRef (s : State) (ti : Nat) (t : Tbl) (index : Nat) : RowRef :=
  if t.hashed then
    (if index = emptyKey then .bad
     else if (keyArray t index).isNone then .bad
     else match findKey s ti t index, lostKeyRow t index with
       | some r, _ => .row r
       | none, some b => .lost b
       | none, none => .absent)
  else if t.rows ≤ index then .bad
  else if t.sharded then (match localOf t.ranges index with | some r => .row r | none => .bad)
  else .row index

/-- Flags of touching a row. -/
def touchFlags (s : State) (ti : Nat) (t : Tbl) (rs : List Nat) (row : Nat) : Nat :=
  (if isRolled t row then cfRolledBack else 0) + (if rs.any (fun r => rowCold s ti t r row) then cfCxl else 0)

/-- The key blocks that a descriptor reads to find a key. -/
def heatKeys (ti : Nat) (t : Tbl) (index : Nat) (s : State) : State :=
  if t.hashed then
    (let b := keyBuckets t index
     (((b.1 ++ b.2).map (fun r => (rowPlace 8 r).1)).eraseDups).foldl (fun s i => heatUp ti 3 i s) s)
  else s

/-- A frame of a row in some regions lies on a channel that retrains (R112). -/
def rowRetrains (s : State) (ti : Nat) (t : Tbl) (rs : List Nat) (row : Nat) : Bool :=
  rs.any (fun r => (rowSegs (regionRow t r) row).any (fun g => match blkFrame s ti r g.1 with
    | some f => channelHeld s (f * frameBytes)
    | none => false))

/-- The blocks of a row in some regions. -/
def blocksOf (t : Tbl) (rs : List Nat) (row : Nat) : List (Nat × Nat) :=
  (rs.map (fun r => (rowSegs (regionRow t r) row).map (fun g => (r, g.1)))).flatten

/-- The flag of a row that was repointed and has not been written whole since, which a failed access raises too (R288). -/
def rolledFlag (t : Tbl) (row : Nat) : Nat := if isRolled t row then cfRolledBack else 0

/-- A read of a row of one region. -/
def serveRead (ti : Nat) (t : Tbl) (r row : Nat) (s : State) : Served :=
  match badRow t row with
  | some b => if b.repointing then .wait s 0 else .done (heatRow ti t r row s) csIntegrity (rolledFlag t row) []
  | none =>
    if !rowPlaced s ti t r row then .done (heatRow ti t r row s) csIntegrity (rolledFlag t row) []
    else if rowRetrains s ti t [r] row then .wait s 0
    else
      let f := touchFlags s ti t [r] row
      let s := perfEvent blkTable 0x100 1 <| heatRow ti t r row (updTbl ti (fun t => { t with lookups := (t.lookups + 1) % 2 ^ 64 }) s)
      .done s csOk f (readRow s ti t r row)

/-- The bytes a tiering epoch may still move, in frames (R130). -/
def moveBudget (s : State) : Nat :=
  cell s blkTable 0x1000C % 256 * 10 ^ 6 * (cell s blkTable 0x10000 % 2 ^ 14) / frameBytes

/-- The cores drop what they have cached of some frames, so that no thread meets an older value of a block that comes back to one (R154, R156). -/
def l1Forget (fs : List Nat) (s : State) : State :=
  s.setMason { s.mason with l1 := s.mason.l1.map (fun e => (e.1, e.2.filter (fun x => !fs.contains (x.1 / frameBytes)))) }

/-- A block's contents and poison go to another frame and its source frame is freed (R131). -/
def moveBlock (b : Blk) (f : Nat) (s : State) : State :=
  match b.frame with
  | none => s
  | some g =>
    let bad := s.mem.poison.filter (fun l => l / frameBytes == g)
    let s := s.setMem { s.mem with
      cells := memCopy s.mem.cells (g * frameBytes) (f * frameBytes) frameBytes,
      poison := s.mem.poison.filter (fun l => l / frameBytes != g && l / frameBytes != f)
        ++ bad.map (fun l => l - g * frameBytes + f * frameBytes) }
    freeFrame g (l1Forget [g, f] (updBlk b.table b.region b.index (fun x => { x with frame := some f, moving := none, swapFor := none }) s))

/-- Blocks of a row are promoted within the budget (R269). -/
def promoteRow (ti : Nat) (blocks : List (Nat × Nat)) (s : State) : State :=
  blocks.foldl (fun s ri => match blkFind s ti ri.1 ri.2 with
    | some b =>
      (match b.frame with
       | some g =>
         if b.cls == .auto && !isHotFrame g && b.moving.isNone && decide (s.mem.moves < moveBudget s) then
           (match takeFrame true false s with
            | some (f, s) =>
              bump blkTable 0x10018 (moveBlock b f (s.setMem { s.mem with moves := s.mem.moves + 1 }))
            | none => s)
         else s
       | none => s)
    | none => s) s

/-- Every block of a row of AUTO regions lies in GDDR7. -/
def rowHot (s : State) (ti : Nat) (t : Tbl) (row : Nat) : Bool :=
  (blocksOf t (tblRegions t) row).all (fun ri => match blkFrame s ti ri.1 ri.2 with | some f => isHotFrame f | none => false)

/-- A write of a row meets poison, missing frames and the course front: what stops it, or the state in which it may go on. -/
def writable (ti : Nat) (t : Tbl) (row step : Nat) (rs : List Nat) (overwrite : Bool) (s : State) : Served :=
  match badRow t row with
  | some b => if b.repointing then .wait s 0 else if overwrite then go else .done touched csIntegrity (rolledFlag t row) []
  | none => go
where
  /-- an access that fails touches its blocks too (R128) -/
  touched : State := rs.foldl (fun s r => heatRow ti t r row s) s
  go : Served :=
    if !(rs.all (fun r => rowPlaced s ti t r row)) then .done touched csIntegrity (rolledFlag t row) []
    else if rowRetrains s ti t rs row then .wait s 0
    else match captureBefore ti step (blocksOf t rs row) s with
      | (s, none) => .done s csOk (touchFlags s ti t rs row) []
      | (s, some full) => .wait s (if full then cfSpillWait else 0)

/-- The memory of a row of some regions lies behind an isolated block (R261). -/
def rowIsolated (s : State) (ti : Nat) (t : Tbl) (regions : List Nat) (row : Nat) : Bool :=
  (blocksOf t regions row).any (fun p => match blkFind s ti p.1 p.2 with
    | some b => (match b.frame with | some f => isolated s (lineBlock s (f * frameBytes)) | none => false)
    | none => false)

/-- Rows whose keys are read to find an index. -/
def keyRows (t : Tbl) (index : Nat) : List Nat :=
  if t.hashed && index != emptyKey then (keyBuckets t index).1 ++ (keyBuckets t index).2 else []

/-- A key that must be read lies behind an isolated block, or on a channel that retrains (R112, R261). -/
def keysIsolated (s : State) (ti : Nat) (t : Tbl) (index : Nat) : Bool := (keyRows t index).any (rowIsolated s ti t [3])
def keysRetrain (s : State) (ti : Nat) (t : Tbl) (index : Nat) : Bool := (keyRows t index).any (rowRetrains s ti t [3])

/-- An absent key takes a row (R279): the row, once its key block and its own blocks are captured. -/
def insertKey (ti : Nat) (t : Tbl) (key step : Nat) (s : State) : Option Nat × Served :=
  match freeSlot s ti t key with
  | none => (none, .done s csTableFull 0 [])
  | some row =>
    if rowIsolated s ti t (tblRegions t) row then (none, .done s csIsolated 0 [])
    else match writable ti t row step (tblRegions t) true s with
    | .done s 0 f _ =>
      (some row, .done (heatRow ti t 3 row (wroteRegions ti row 3 (initTableRow ti t row key (writeRow ti t 3 row (leBytes 8 key) s)))) csOk f [])
    | r => (none, r)

/-- UPDATE of a row that may be written. -/
def updateRow (ti : Nat) (t : Tbl) (o : RowOp) (row : Nat) (s : State) : State :=
  let g := decodeRow 0 t.dim o.data
  let c : RuleCtx := { t := t, n := (max 1 ((o.step : Int) - t.stepBase + 1)).toNat, lr := o.lr }
  let st := decodeState t t.stateFormat (readRow s ti t 1 row)
  let r := applyRule c g (rowWeights s ti t row) st
  wroteRegions ti row 3 (storeRow ti t row r.1 r.2 s)

/-- WRITE_ROWS of a row that may be written (R273). -/
def writeOneRow (ti : Nat) (t : Tbl) (o : RowOp) (row : Nat) (s : State) : State :=
  let r := addressed t o.flags
  let s := writeRow ti t r row o.data s
  let s := if t.split ∧ r = 0 then rewriteServing ti t row (decodeRow 0 t.dim o.data) s else s
  wroteRegions ti row (if r = 0 then 1 else if r = 1 then 2 else 0) s

/-- A row update has been applied: UPDATES counts it. -/
def countUpdate (ti : Nat) (s : State) : State :=
  perfEvent blkTable 0x101 1 (updTbl ti (fun t => { t with updates := (t.updates + 1) % 2 ^ 64 }) s)

/-- A row has been written at a step. -/
def noteWrite (ti : Nat) (t : Tbl) (rs : List Nat) (row step : Nat) (s : State) : State :=
  noteStep ti step (rs.foldl (fun s r => heatRow ti t r row s) s)

/-- Regions a row-writing opcode touches. -/
def writtenRegions (t : Tbl) (o : RowOp) : List Nat :=
  if o.op = 3 then (tblRegions t).filter (· != 3)
  else if addressed t o.flags = 0 ∧ t.split then [0, 2] else [addressed t o.flags]

/-- The write of a row that the index names or has just taken. -/
def serveWrite (ti : Nat) (t : Tbl) (o : RowOp) (row flags : Nat) (s : State) : Served :=
  if o.op = 3 then
    (if t.rule = 15 then .item s row flags
     else .done (noteWrite ti t [0, 1, 2] row o.step (countUpdate ti (updateRow ti t o row s))) csOk flags [])
  else .done (noteWrite ti t (writtenRegions t o) row o.step (writeOneRow ti t o row s)) csOk flags []

/-- Rows of a key's bucket array that an adoption has still to read (R370). -/
def adoptHolds (s : State) (ti : Nat) (t : Tbl) (key : Nat) : Bool :=
  match s.elastic.adopt, keyArray t key with
  | some a, some (base, n) => a.todo.any (fun x => x.1 == ti && decide (base ≤ x.2 ∧ x.2 < base + 16 * n))
  | _, _ => false

/-- Regions of a row that an opcode needs. -/
def opRegions (t : Tbl) (o : RowOp) : List Nat :=
  if o.op = 1 ∨ o.op = 2 then [servedRegion t] else if o.op = 4 then [addressed t o.flags] else if o.op = 6 then tblRegions t
  else writtenRegions t o

/-- The key of a row is known again. -/
def knowKey (ti row : Nat) (s : State) : State :=
  updTbl ti (fun t => { t with bad := t.bad.map (fun (x : BadRow) => if x.row = row then { x with keyLost := false } else x) }) s

/-- WRITE_ROWS of a key that is not found takes a candidate row whose own key was lost with no course to repoint it from, so that the tenant's writes
clear its poison (R273, R285; log 211). -/
def serveRekey (ti : Nat) (t : Tbl) (o : RowOp) (row : Nat) (s : State) : Served :=
  if rowIsolated s ti t (tblRegions t) row then .done s csIsolated 0 []
  else if heldByFence s ti o.step then .wait s 0
  else match writable ti t row o.step (3 :: writtenRegions t o) true s with
  | .done s 0 f _ => serveWrite ti (tblD s ti) o row f (heatRow ti t 3 row (knowKey ti row (writeRow ti t 3 row (leBytes 8 o.index) s)))
  | r => r

/-- One index is served here, once its row is found. -/
def serveFound (ti : Nat) (o : RowOp) (s : State) : Served :=
  let t := tblD s ti
  if keysIsolated s ti t o.index then .done s csIsolated 0 []
  else if keysRetrain s ti t o.index then .wait s 0
  else match rowRef s ti t o.index with
  | .bad => .done s csBadIndex 0 []
  | .lost b => if b.repointing then .wait s 0 else if o.op = 5 then serveRekey ti t o b.row s else .done s csIntegrity (rolledFlag t b.row) []
  | .absent =>
    if adoptHolds s ti t o.index then .wait s 0
    else if o.op = 3 ∨ o.op = 5 then
      (if heldByFence s ti o.step then .wait s 0
       else match insertKey ti t o.index o.step s with
        | (some row, .done s 0 f _) => serveWrite ti (tblD s ti) o row f s
        | (_, r) => r)
    else if o.op = 6 then .done s csOk 0 []
    else .done s csOk 0 (List.replicate (regionRow t (if o.op = 4 then addressed t o.flags else servedRegion t)) 0)
  | .row row =>
    if rowIsolated s ti t (opRegions t o) row then .done s csIsolated 0 [] else
    match o.op with
    | 1 => serveRead ti t (servedRegion t) row s
    | 2 => serveRead ti t (servedRegion t) row s
    | 4 => serveRead ti t (addressed t o.flags) row s
    | 6 =>
      (match badRow t row with
       | some b => if b.repointing then .wait s 0 else .done ((tblRegions t).foldl (fun s r => heatRow ti t r row s) s) csIntegrity (rolledFlag t row) []
       | none =>
         let hot := (tblRegions t).foldl (fun s r => heatRow ti t r row s) s
         if !rowWhole s ti t row then .done hot csIntegrity (rolledFlag t row) []
         else if rowRetrains s ti t (tblRegions t) row then .wait s 0
         else
           let s := promoteRow ti (blocksOf t (tblRegions t) row) hot
           .done s csOk (touchFlags s ti t (tblRegions t) row) (if rowHot s ti t row then [1] else []))
    | _ =>
      if heldByFence s ti o.step then .wait s 0
      else match writable ti t row o.step (writtenRegions t o) (o.op == 5) s with
        | .done s 0 f _ => serveWrite ti t o row f s
        | r => r

/-- One index is served here; what has been served has touched its key blocks. -/
def serveIndex (ti : Nat) (o : RowOp) (s : State) : Served :=
  match serveFound ti o s with
  | .done s' st f bs => .done (heatKeys ti (tblD s ti) o.index s') st f bs
  | .item s' row f => .item (heatKeys ti (tblD s ti) o.index s') row f
  | .wait s' f => .wait s' f

/-! ### Pooling (R267) -/

/-- The rows of a bag, in order, each with its weight and FP32 elements; the pooled elements. -/
def poolBag (mode dim : Nat) (rows : List (Nat × List Nat)) : List Nat :=
  match rows with
  | [] => List.replicate dim fzero
  | _ =>
    (List.range dim).map (fun i =>
      if mode = 2 then
        match rows.map (fun r => fmul r.1 (r.2.getD i 0)) with
        | [] => fzero
        | a :: rest => rest.foldl (fun m x => if fnan m then m else if fnan x then x else if flt m x then x else m) a
      else
        let sum := rows.foldl (fun a r => r32 ((f32 a).add ((f32 r.1).mul (f32 (r.2.getD i 0))))) fzero
        if mode = 1 then fdiv sum (fofNat rows.length) else sum)

end Sys2Proof.Machine
end

