-- ==== Sys2Proof/Machine/Items.lean ====
section
/-! DEFINITION. The mason array's units and items: the map of physical to logical units, thread slots, table windows, the hand-out of items to threads, and the release of a kernel (R147, R166, R171, R176 to R178). -/

namespace Sys2Proof.Machine

open Sys2Proof

/-! ### Thread slots and units -/

/-- Logical cluster, logical core, and core number over the array of a thread slot. -/
def thCluster (th : Nat) : Nat := th / 1024
def thCore (th : Nat) : Nat := th / 64 % 16
def coreKey (th : Nat) : Nat := th / 64

/-- The physical cluster that serves a logical one. -/
def physCluster (s : State) (k : Nat) : Option (Nat × ClusterSt) :=
  s.mason.units.find? (fun e => decide (k < 16) && e.2.logical == k)
def unitOf (s : State) (p : Nat) : ClusterSt := lookD s.mason.units p {}
def setUnit (p : Nat) (u : ClusterSt) (s : State) : State := s.setMason { s.mason with units := put s.mason.units p u }

/-- The physical core behind a logical one; none where it is gone. -/
def physCore (u : ClusterSt) (c : Nat) : Option Nat :=
  match u.cores[c]? with
  | some p => if p < 17 then some p else none
  | none => none

/-- The core of a thread slot is in service and issues. -/
def coreUp (s : State) (th : Nat) : Bool :=
  match physCluster s (thCluster th) with
  | some (p, u) => (match physCore u (thCore th) with
    | some c => !s.mason.stopping.contains (p, c) && !isolated s (blkCluster p)
    | none => false)
  | none => false

/-- The map that fuses give a physical cluster: its lowest 16 good cores, and the spare. -/
def fuseUnit (bad logical : Nat) : ClusterSt :=
  let good := (List.range 17).filter (fun c => !bad.testBit c)
  { active := ((good.take 16).map (2 ^ ·)).sum, failed := bad % 2 ^ 17, logical := logical, spare := (good[16]?).getD 31,
    cores := good.take 16 }

/-- The unit map is loaded from fuses (R147): the good clusters, in order, take the logical indices 0 to 15. -/
def loadUnits (s : State) : State :=
  let bad := fun p => lookD s.mason.fuses p 0 % 2 ^ 17
  let good := (List.range 17).filter (fun p => decide (popCount 17 (bad p) ≤ 1))
  s.setMason { s.mason with units := (List.range 17).map (fun p =>
    (p, fuseUnit (bad p) (match (good.take 16).idxOf? p with | some k => k | none => 0xFF))) }

/-! ### Table windows (R246, R248) -/

/-- Rows of a table as stored, range by range: first local row, count, and the key the ranges are ordered by. -/
def storedSpans (t : Tbl) : List (Nat × Nat × Nat) :=
  if t.sharded then
    (t.ranges.foldl (fun acc r =>
      let n := if t.hashed then arrayRows t.rows r.2 else r.2
      (acc.1 ++ [(acc.2, n, r.1)], acc.2 + n)) (([] : List (Nat × Nat × Nat)), 0)).1
  else [(0, t.localRows, 0)]

/-- The same in ascending order of the owned ranges. -/
def windowSpans (t : Tbl) : List (Nat × Nat × Nat) := sortBy (fun a b => decide (a.2.2 ≤ b.2.2)) (storedSpans t)

/-- The local row that row `r` of a window is. -/
def spanRow : List (Nat × Nat × Nat) → Nat → Option Nat
  | [], _ => none
  | (b, n, _) :: rest, r => if r < n then some (b + r) else spanRow rest (r - n)

/-- The row of a window that a local row is. -/
def rowSpanOf : List (Nat × Nat × Nat) → Nat → Nat → Option Nat
  | [], _, _ => none
  | (b, n, _) :: rest, w, row => if b ≤ row ∧ row < b + n then some (w + row - b) else rowSpanOf rest (w + n) row

/-- Kernel address of a local row of a region in window W4. -/
def windowAddr (t : Tbl) (r row : Nat) : Nat :=
  let p := rowPlace (regionRow t r) ((rowSpanOf (windowSpans t) 0 row).getD row)
  4 * 2 ^ 60 + (match r with | 1 => 2 ^ 55 | 2 => 2 ^ 56 | 3 => 2 ^ 57 | _ => 0) + p.1 * 65536 + p.2

/-- Region of an offset in a table window, and the offset in it. -/
def windowRegion (off : Nat) : Nat × Nat :=
  if 2 ^ 57 ≤ off then (3, off - 2 ^ 57) else if 2 ^ 56 ≤ off then (2, off - 2 ^ 56) else if 2 ^ 55 ≤ off then (1, off - 2 ^ 55)
  else (0, off)

/-- A byte of a table window: its local row, and the block and offset that hold it; none beyond the rows held. -/
def windowByte (t : Tbl) (r off : Nat) : Option (Nat × Nat × Nat) :=
  let b := regionRow t r
  if b = 0 then none
  else if b ≤ 65536 then
    let i := off % 65536 / b
    if 65536 / b ≤ i then none
    else (spanRow (windowSpans t) (off / 65536 * (65536 / b) + i)).map (fun row =>
      let p := rowPlace b row
      (row, p.1, p.2 + off % 65536 % b))
  else
    let w := off / 65536 / rowSpan b
    let rem := off - w * rowSpan b * 65536
    if b ≤ rem then none
    else (spanRow (windowSpans t) w).map (fun row => (row, (rowPlace b row).1 + rem / 65536, rem % 65536))

/-! ### Kernels -/

/-- A loaded kernel by its handle. -/
def kernelByHandle (s : State) (h : Nat) : Option (Nat × Kernel) :=
  match look s.mason.kernels (handleIndex h) with
  | some k => if k.handle = h then some (handleIndex h, k) else none
  | none => none

/-- Threads of a kernel that run or wait to go on. -/
def kernelThreads (s : State) (ki : Nat) : List Nat :=
  (s.mason.threads.filter (fun e => s.mason.jobs.any (fun j => j.id == e.2.job && j.kernel == ki))).map (·.1)
def kernelBusy (s : State) (ki : Nat) : Bool :=
  !(kernelThreads s ki).isEmpty || s.mason.saved.any (fun t => s.mason.jobs.any (fun j => j.id == t.job && j.kernel == ki))

/-- Scratch of a kernel in a cluster: 16 private pieces and the shared piece. -/
def kernelScratch (k : Kernel) : Nat := 16 * k.perCore + k.shared

/-- Scratch that a kernel no longer uses is zeroed, which makes its words good (R142, R171). -/
def zeroScratch (a n : Nat) (s : State) : State :=
  s.setMem { s.mem with cells := memZero s.mem.cells a n, badWords := s.mem.badWords.filter (fun w => !decide (a ≤ w ∧ w < a + n)) }

/-! ### L1 data (R156) -/

def l1Of (s : State) (core : Nat) : List (Nat × Bytes) := lookD s.mason.l1 core []
def setL1 (core : Nat) (ls : List (Nat × Bytes)) (s : State) : State := s.setMason { s.mason with l1 := put s.mason.l1 core ls }

/-- A core drops every L1 data line, or one of them. -/
def l1Clear (core : Nat) (s : State) : State := s.setMason { s.mason with l1 := del s.mason.l1 core }
def l1Drop (core line : Nat) (s : State) : State := setL1 core (del (l1Of s core) line) s

/-- A kernel is gone: its frames go back, its scratch is zeroed, its cores forget its lines, and its index keeps its generation
(R171, R181). -/
def releaseKernel (ki : Nat) (s : State) : State :=
  match look s.mason.kernels ki with
  | none => s
  | some k =>
    let s := k.offsets.foldl (fun s o => zeroScratch (scratchDpa o.1 + o.2) (kernelScratch k) s) s
    let s := freeExtents (fun u => u == .kernel ki) s
    let cores := (k.slots.map coreKey).eraseDups
    let others := fun (x : Nat) => s.mason.kernels.any (fun e => e.1 != ki && (e.2.slots.map coreKey).contains x)
    let g := bits k.handle 0 10
    s.setMason { s.mason with
      kernels := del s.mason.kernels ki, gens := put s.mason.gens ki (if 1023 ≤ g then 0 else g + 1),
      l1 := s.mason.l1.filter (fun e => !(cores.contains e.1 && !others e.1)) }

/-! ### Handing out items (R177, R178, R184) -/

/-- Entries of a logical cluster's dispatch queue: descriptors and rule items of kernels on it with items still to hand out (log 175). -/
def queueEntries (s : State) (cluster : Nat) : Nat :=
  (s.mason.jobs.filter (fun j => decide (j.next < j.items)
    && ((look s.mason.kernels j.kernel).map (fun k => k.clusters.contains cluster)).getD false)).length

/-- A kernel's clusters have an entry free, of their 1,024; the last 11 serve recovery work only (R43, R184). -/
def queueRoom (s : State) (recovery : Bool) (ki : Nat) : Bool :=
  ((look s.mason.kernels ki).map (·.clusters)).getD [] |>.all (fun c => decide (queueEntries s c < if recovery then 1024 else 1013))

def addJob (j : Job) (s : State) : State :=
  s.setMason { s.mason with jobs := s.mason.jobs ++ [{ j with id := s.mason.nextJob }], nextJob := s.mason.nextJob + 1 }

def updJob (id : Nat) (f : Job → Job) (s : State) : State :=
  s.setMason { s.mason with jobs := updFirst (fun j => j.id == id) f s.mason.jobs }

def setThread (th : Nat) (t : Thread) (s : State) : State := s.setMason { s.mason with threads := put s.mason.threads th t }

/-- Argument address of an item in W1: after the descriptor, or the record of a rule item. -/
def argsAddr (j : Job) : Nat := 2 ^ 60 + (match j.origin with | .desc _ _ => 64 | _ => 0)

/-- A thread at the start of an item. -/
def freshThread (k : Kernel) (j : Job) (item th : Nat) : Thread :=
  let w := fun (v : Nat) => BitVec.ofNat 64 v
  { job := j.id, item := item, pc := w k.entry,
    s := ((((Vector.replicate 32 (0 : SReg)).set 1 (w item)).set 2 (w j.items)).set 3 (w (argsAddr j))).set 4 (w j.step)
          |>.set 5 (w (thCluster th * 16 + thCore th)) }

/-- The oldest job of a kernel with items to hand out, of recovery work or of any. -/
def nextJob (s : State) (ki : Nat) (recovery : Bool) : Option Job :=
  s.mason.jobs.find? (fun j => j.kernel == ki && decide (j.next < j.items) && (j.recovery || !recovery))

/-- A slot takes the next item of a job. -/
def giveItem (k : Kernel) (j : Job) (th : Nat) (s : State) : State :=
  setThread th (freshThread k j j.next th) (updJob j.id (fun j => { j with next := j.next + 1 }) s)

/-- A free thread slot of a kernel takes an item of recovery work, else a thread that was saved, else the next item of the kernel's oldest
descriptor. A core meets a saved thread with no lines of its own cached (R191). -/
def handSlot (ki : Nat) (k : Kernel) (s : State) (th : Nat) : State :=
  if has s.mason.threads th || !coreUp s th then s
  else match nextJob s ki true with
    | some j => if k.unloading then s else giveItem k j th s
    | none =>
      match s.mason.saved.find? (fun t => s.mason.jobs.any (fun j => j.id == t.job && j.kernel == ki)) with
      | some t => l1Clear (coreKey th) (setThread th t (s.setMason { s.mason with saved := dropFirst (fun x => x == t) s.mason.saved }))
      | none =>
        if k.unloading then s
        else match nextJob s ki false with
          | some j => giveItem k j th s
          | none => s

/-- Recovery work that finds no free slot takes that of a client thread, whose state is saved (R184). -/
def preemptSlot (ki : Nat) (k : Kernel) (s : State) (th : Nat) : State :=
  match nextJob s ki true, look s.mason.threads th with
  | some j, some t =>
    if k.unloading || !coreUp s th || s.mason.jobs.any (fun x => x.id == t.job && x.recovery) then s
    else giveItem k j th (s.setMason { s.mason with saved := s.mason.saved ++ [t] })
  | _, _ => s

/-- Every kernel hands out what it can. -/
def dispatchItems (s : State) : State :=
  s.mason.kernels.foldl (fun s e => e.2.slots.foldl (preemptSlot e.1 e.2) (e.2.slots.foldl (handSlot e.1 e.2) s)) s

end Sys2Proof.Machine
end

