-- ==== Sys2Proof/Machine/Desc.lean ====
section
/-! DEFINITION. Custody queue pairs: fetching, checking, starting, advancing and completing descriptors, forwarded indices, and the settling of everything that waits. -/

namespace Sys2Proof.Machine

open Sys2Proof

/-! ### Queue pairs -/

def cqpOf (s : State) (n : Nat) : Option Cqp := look s.tab.cqps n
def cqpD (s : State) (n : Nat) : Cqp := lookD s.tab.cqps n { owner := 0, gen := 0 }
def setCqp (n : Nat) (q : Cqp) (s : State) : State := s.setTab { s.tab with cqps := put s.tab.cqps n q }
def updCqp (n : Nat) (f : Cqp → Cqp) (s : State) : State :=
  match cqpOf s n with
  | some q => setCqp n (f q) s
  | none => s

/-- The memory that a queue pair's addresses refer to (R255). -/
def queueMemory (q : Cqp) : Nat := if q.endpoint = 0xFFFF then q.owner else q.endpoint

/-- Nothing is fetched or started: the queue pair lies in host memory and its function is frozen or not in D0 (R423, R426). -/
def queueStopped (s : State) (q : Cqp) : Bool :=
  q.endpoint == 0xFFFF && ((fnD s q.owner).st == .frozen || (fnD s q.owner).dstate != .d0)

def sqSlots (q : Cqp) : Nat := 2 ^ q.sqLog2
def cqSlots (q : Cqp) : Nat := 2 ^ q.cqLog2

/-! ### Completions (R260, R62) -/

/-- The 16 bytes of a completion. -/
def Cqe.bytes (c : Cqe) : Bytes :=
  layout 16 [(0, 4, c.tag), (4, 4, c.count), (8, 2, c.gen), (0xA, 1, c.status), (0xB, 1, c.detail), (0xC, 2, c.flags),
    (0xE, 2, bit c.phase * 2 ^ 15 + c.sqHead % 2 ^ 15)]

/-- DPA of a byte of a ring in the queue region. -/
def ringDpa (s : State) (queue : Option Nat) (owner : Nat) (reply : Bool) (off : Nat) : Option Nat :=
  match s.ports.qrings.find? (fun r => r.queue == queue && r.reply == reply && (queue.isSome || r.owner == owner)) with
  | some r => (r.frames[off / frameBytes]?).map (fun f => f * frameBytes + off % frameBytes)
  | none => none

/-- A completion is written: into its ring, in the queue region or in the client's memory; where the line it needs is poisoned it is
dropped (R730). -/
def writeCqe (n : Nat) (c : Cqe) (irq : Bool) (s : State) : State :=
  match cqpOf s n with
  | none => s
  | some q =>
    let c := { c with phase := q.cqPass, gen := genOf s q.owner }
    let last := decide (q.cqProd + 1 = cqSlots q)
    let q' := { q with cqProd := if last then 0 else q.cqProd + 1, cqPass := if last then !q.cqPass else q.cqPass }
    let dpa := ringDpa s (some n) q.owner true (16 * q.cqProd)
    let intact := match dpa with | some a => !poisoned s a | none => true
    let s := setCqp n q' s
    if !intact then s
    else
      let s := match dpa with | some a => (writeMem a c.bytes s).1 | none => s
      let s := emit (.cqe n c) (if dpa.isNone then dmaOut (queueMemory q) (q.cqAddr + 16 * q.cqProd) c.bytes s else s)
      if irq && q.vector != 0xFFFF then raiseMsix q.owner q.vector s else s

/-- A completion is posted, or held in the part while its queue pair is held (R415). -/
def postCqe (n : Nat) (d : Desc) (count status detail flags : Nat) (s : State) : State :=
  match cqpOf s n with
  | none => s
  | some q =>
    let c : Cqe := { tag := d.tag, count := count, gen := genOf s q.owner, status := status, detail := detail, flags := flags,
                     sqHead := q.sqHead }
    let q := { q with closedCount := q.closedCount + bit q.closing }
    let s := setCqp n q s
    if q.held then setCqp n { q with heldCpl := q.heldCpl ++ [(c, d.flags.testBit 0)] } s
    else writeCqe n c (d.flags.testBit 0) s

/-! ### The checks of a descriptor (R258) -/

/-- Fields of a version 2 descriptor; in version 1 they are reserved. -/
def v2 (d : Desc) (x : Nat) : Nat := if d.version = 1 then 0 else x
def colStart (d : Desc) : Nat := v2 d d.colStart
def colLen (d : Desc) (dim : Nat) : Nat := if v2 d d.colCount = 0 then dim else v2 d d.colCount
def indexSize (d : Desc) : Nat := if d.version ≠ 1 ∧ d.flags.testBit 3 then 8 else 4

/-- The index at a position of the list. -/
def indexAt (d : Desc) (io : DescIo) (k : Nat) : Nat := le (io.index.getD []) (k * indexSize d) (indexSize d)

def ioAccepted (op fmt : Nat) : Bool :=
  match op with
  | 1 => decide (fmt ≤ 4)
  | 2 => decide (fmt ≤ 4)
  | 3 => decide (fmt ≤ 2)
  | _ => true

/-- The offsets of LOOKUP_POOL are in order and end at COUNT (R266). -/
def poolOffset (io : DescIo) (b : Nat) : Nat := le (io.aux.getD []) (4 * b) 4
def offsetsBad (d : Desc) (io : DescIo) : Bool :=
  (List.range d.bags).any (fun b => decide (poolOffset io (b + 1) < poolOffset io b)) || poolOffset io d.bags != d.count

/-- The column range of a descriptor is out of order for a table. -/
def columnsBad (d : Desc) (t : Tbl) : Bool :=
  let c := v2 d d.colCount
  let st := colStart d
  if d.opcode = 3 ∨ d.opcode = 5 then c != 0 || st != 0
  else
    let f := t.format
    decide (t.dim < st + colLen d t.dim)
      || (decide (5 ≤ f ∧ f ≤ 7) && (st % 32 != 0 || colLen d t.dim % 32 != 0))

/-- A row-writing descriptor (R259). -/
def writesRows (d : Desc) : Bool := d.opcode == 3 || d.opcode == 5

/-- A client access of the descriptor was refused, a read of its operands or a write of its rows at DATA_ADDR (R261). -/
def clientRefused (d : Desc) (io : DescIo) : Bool :=
  io.index.isNone || io.data.isNone
    || (decide (d.opcode = 2 ∨ d.opcode = 7) && io.aux.isNone)

/-- A block that the descriptor needs is isolated: the table service, the client's port block, or, for KERNEL, every cluster that its kernel was granted
(R261, R628). A row's memory is looked at when the row is served. -/
def descIsolated (s : State) (q : Cqp) (d : Desc) : Bool :=
  isolated s blkTable || (match portBlock s (queueMemory q) with | some b => isolated s b | none => false)
    || (d.opcode == 7 && (match kernelByHandle s d.handle with
        | some (_, k) => !k.clusters.isEmpty && k.clusters.all (fun c => match physCluster s c with | some (p, _) => isolated s (blkCluster p) | none => false)
        | none => false))

/-- Positions to serve: for UPDATE the first position of each distinct index. -/
def positions (d : Desc) (io : DescIo) : List Nat :=
  if d.opcode = 3 then
    (List.range d.count).filter (fun k => (List.range k).all (fun j => indexAt d io j != indexAt d io k))
  else List.range d.count

/-- The device that owns an index: this one, another, or none. -/
def indexOwner (s : State) (t : Tbl) (index : Nat) : Option Nat :=
  if !t.sharded then some (tableDevice s t)
  else if t.hashed then (if index = emptyKey then some (tableDevice s t) else ownerOf s t (keyH1 index))
  else if t.rows ≤ index then some (tableDevice s t)
  else ownerOf s t index

/-- The memory of a row or key that the descriptor names here lies behind an isolated block, so that the descriptor has no effect (R261). -/
def rowsIsolated (s : State) (d : Desc) (io : DescIo) : Bool :=
  s.err.any (fun e => e.2.isolated) && (match tblByHandle s d.handle with
    | some (ti, t) => (positions d io).any (fun k =>
        let x := indexAt d io k
        indexOwner s t x == some (tableDevice s t) && (keysIsolated s ti t x || (match rowRef s ti t x with
          | .row r => rowIsolated s ti t (opRegions t { op := d.opcode, flags := d.flags, step := 0, lr := 0, index := x, data := [] }) r
          | .lost b => writesRows d && rowIsolated s ti t (tblRegions t) b.row
          | .absent => writesRows d && (match freeSlot s ti t x with | some r => rowIsolated s ti t (tblRegions t) r | none => false)
          | .bad => false)))
    | none => false)

/-- The first check that fails, as a status. -/
def descStatus (s : State) (q : Cqp) (d : Desc) (io : DescIo) (kernelOwner : Option Nat) : Nat :=
  if descIsolated s q d then csIsolated
  else if ¬ (1 ≤ d.opcode ∧ d.opcode ≤ 7) then csBadOpcode
  else if d.version ≠ q.version then csBadVersion
  else if d.opcode = 7 then
    (if kernelOwner ≠ some q.owner then csBadHandle
     else if 16777216 < d.count ∨ 4096 < d.bags ∨ clientRefused d io then csBadAddress
     else csOk)
  else match tblByHandle s d.handle with
    | none => csBadHandle
    | some (_, t) =>
      if t.owner ≠ q.owner then csBadHandle
      else if t.status = 1 then csIntegrity
      else if (d.opcode = 4 ∨ d.opcode = 5) ∧ ((d.flags.testBit 5 ∧ t.stateBytes = 0) ∨ (d.flags.testBit 4 ∧ ¬ t.split)
          ∨ (d.flags.testBit 5 ∧ d.flags.testBit 4)) then csBadAddress
      else if 16777216 < d.count then csBadAddress
      else if d.opcode = 2 ∧ ¬ (1 ≤ d.bags ∧ d.bags ≤ 16777216) then csBadAddress
      else if columnsBad d t then csBadAddress
      else if clientRefused d io then csBadAddress
      else if d.opcode = 2 ∧ d.pool % 4 = 3 then csNotPermitted
      else if !ioAccepted d.opcode d.ioFormat then csNotPermitted
      else if d.opcode = 3 ∧ t.rule = 0 then csNotPermitted
      else if d.opcode = 2 ∧ offsetsBad d io then csBadAddress
      else if rowsIsolated s d io then csIsolated
      else csOk

/-- The descriptor arrived after its client first sent STEP_DONE for the open course's step or a later one (R274, R303). -/
def stepClosed (s : State) (q : Cqp) (seq : Nat) (d : Desc) : Bool :=
  courseLive s && writesRows d && decide (d.step ≤ (crun s).step)
    && (match q.samples.find? (fun x => decide ((crun s).step ≤ x.1)) with | some x => decide (x.2 ≤ seq) | none => false)

/-- A KERNEL descriptor finds no room in the dispatch queues of its kernel's clusters (R184). -/
def kernelFull (s : State) (d : Desc) : Bool :=
  d.opcode == 7 && (match kernelByHandle s d.handle with | some (ki, _) => !queueRoom s false ki | none => false)

/-- The step fence holds the descriptor (R303). -/
def fenceHolds (s : State) (d : Desc) : Bool :=
  writesRows d && (match tblByHandle s d.handle with | some (ti, _) => heldByFence s ti d.step | none => false)

/-- The descriptor may not start yet. -/
def descHeld (s : State) (d : Desc) : Bool := kernelFull s d || fenceHolds s d

/-! ### Indices of a descriptor -/

/-- Positions that name the same index. -/
def twins (d : Desc) (io : DescIo) (k : Nat) : List Nat :=
  (List.range d.count).filter (fun j => indexAt d io j == indexAt d io k)

/-- The summed gradient of an index: FP32 elements in list order (R270). -/
def gradient (t : Tbl) (d : Desc) (io : DescIo) (k : Nat) : Bytes :=
  let e := rowBytesOf d.ioFormat 1
  let row := fun j => (decodeRow d.ioFormat t.dim ((io.data.getD []).drop (j * t.dim * e))).map (fun x => fmul t.gradScale x)
  let g := match (twins d io k).map row with
    | [] => []
    | a :: r => r.foldl (fun a b => (List.range t.dim).map (fun i => fadd (a.getD i 0) (b.getD i 0))) a
  encodeRow 0 t.dim (fun _ => none) g

/-- Learning rate of an UPDATE (R257): the descriptor's, clamped, or the table's where it is 0 or a NaN. -/
def effectiveLr (t : Tbl) (d : Desc) : Nat :=
  let x := v2 d d.lr
  if (f32 x).isZero || fnan x then t.lr else fclamp 0 0x447A0000 x
def lrClamped (d : Desc) : Bool :=
  let x := v2 d d.lr
  d.opcode == 3 && !(f32 x).isZero && !fnan x && fclamp 0 0x447A0000 x != x

/-- The work that a position stands for. -/
def rowOpAt (t : Tbl) (d : Desc) (io : DescIo) (k : Nat) : RowOp :=
  { op := d.opcode, flags := d.flags, step := d.step, lr := effectiveLr t d, index := indexAt d io k,
    data := if d.opcode = 3 then gradient t d io k
            else if d.opcode = 5 then ((io.data.getD []).drop (k * regionRow t (addressed t d.flags))).take
              (regionRow t (addressed t d.flags)) else [] }

/-- An earlier index of the queue pair on the same row is not served yet, and one of the two writes. A descriptor comes before those that started
after it: a read that passed a held row-writing descriptor sees its rows as they stood before that one (R263). -/
def rowBusy (q : Cqp) (p : InProg) (k : Nat) : Bool :=
  let x := indexAt p.desc p.io k
  let clash := fun (o : InProg) (j : Nat) =>
    o.desc.opcode != 7 && o.desc.handle == p.desc.handle && indexAt o.desc o.io j == x && (writesRows o.desc || writesRows p.desc)
  (q.running.takeWhile (fun o => o.seq != p.seq)).any (fun o => (o.todo ++ o.sent).any (clash o))
    || (p.todo ++ p.sent).any (fun j => decide (j < k) && clash p j)

/-! ### Advancing and completing -/

def updProg (n seq : Nat) (f : InProg → InProg) (s : State) : State :=
  updCqp n (fun q => { q with running := updFirst (fun p => p.seq == seq) f q.running }) s

/-- A position has been served. -/
def gotIndex (n seq k status flags : Nat) (bs : Bytes) (s : State) : State :=
  updProg n seq (fun p => { p with todo := p.todo.filter (· != k), sent := p.sent.filter (· != k), sentTo := del p.sentTo k,
                                   got := p.got ++ [(k, status, flags, bs)], flags := p.flags ||| flags }) s

/-- The argument record of a custom rule's item (R276). -/
def ruleArgs (t : Tbl) (row : Nat) (hyper : List Nat) : Bytes :=
  layout 0x38 [(0, 8, windowAddr t 0 row), (8, 8, if t.stateBytes = 0 then 0 else windowAddr t 1 row),
    (0x10, 8, if t.split then windowAddr t 2 row else 0), (0x18, 8, 0xC * 2 ^ 60), (0x20, 8, rowIdentity t row),
    (0x28, 4, hyper.getD 0 0), (0x2C, 4, hyper.getD 1 0), (0x30, 4, hyper.getD 2 0), (0x34, 4, hyper.getD 3 0)]

/-- One kernel item runs the rule of a table on a row (R276). -/
def ruleJob (origin : JobOrigin) (ti row step : Nat) (grad : Bytes) (fresh : Bool) (s : State) : State :=
  let now := fun (r : Nat) => readRow s ti (tblD s ti) r row
  let t := tblD s ti
  match look s.tab.rules t.ruleId with
  | some r => addJob { id := 0, kernel := r.kernel, origin := origin, items := 1, step := step, args := ruleArgs t row r.hyper,
                       rule := some (ti, row), grad := grad, recovery := isRolled t row, before := [now 0, now 1, now 2], fresh := fresh } s
  | none => s

/-- A rule item finds room in the dispatch queues of its kernel's clusters. -/
def ruleRoom (s : State) (ti row : Nat) : Bool :=
  let t := tblD s ti
  match look s.tab.rules t.ruleId with
  | some r => queueRoom s (isRolled t row) r.kernel
  | none => true

/-- One position of a running descriptor is served, sent to its owner, or left waiting. -/
def servePosition (n seq k : Nat) (s : State) : State :=
  match (cqpD s n).running.find? (fun p => p.seq == seq) with
  | none => s
  | some p =>
    match tblServed s p.desc.handle with
    | none => gotIndex n seq k csBadHandle 0 [] s
    | some (ti, t) =>
      let o := rowOpAt t p.desc p.io k
      if t.status = 1 then gotIndex n seq k csIntegrity 0 [] s
      else if rowBusy (cqpD s n) p k then s
      else if indexOwner s t o.index = some (tableDevice s t) then
        let fresh := decide (rowRef s ti t o.index = .absent)
        match serveIndex ti o s with
        | .done s st f bs => gotIndex n seq k st f bs s
        | .wait s f =>
          let first := f.testBit 3 && !p.flags.testBit 3
          let s := if first then s.setCourse { s.course with spillWaits := (s.course.spillWaits + 1) % 2 ^ 32 } else s
          updProg n seq (fun p => { p with flags := p.flags ||| f }) s
        | .item s row f =>
          if !ruleRoom s ti row then s
          else ruleJob (.row n seq k) ti row o.step o.data fresh
            (updProg n seq (fun p => { p with todo := p.todo.filter (· != k), sent := p.sent ++ [k], flags := p.flags ||| f }) s)
      else match indexOwner s t o.index with
        | some dev =>
          if dev = 0xFFFF ∧ ((s.elastic.active).map (·.shrunk)).getD false then gotIndex n seq k csUnreachable 0 [] s
          else if dev = 0xFFFF ∨ s.elastic.lost.contains dev then s
          else sendDomain dev (.index n seq k t.domainId o.op o.flags o.step (cqpD s n).owner o.lr o.index o.data)
            (updProg n seq (fun p => { p with todo := p.todo.filter (· != k), sent := p.sent ++ [k], sentTo := put p.sentTo k dev }) s)
        | none => s

/-- A kernel's items have ended: the descriptor completes (R179). -/
def kernelComplete (n seq halted : Nat) (fault : Option (Nat × Nat)) (s : State) : State :=
  match (cqpD s n).running.find? (fun p => p.seq == seq) with
  | none => s
  | some p =>
    let s := updCqp n (fun q => { q with running := q.running.filter (fun p => p.seq != seq) }) s
    postCqe n p.desc halted (if fault.isSome then csKernelFault else csOk) ((fault.map (·.2)).getD 0) p.flags s

/-- The result of a position. -/
def resultAt (p : InProg) (k : Nat) : Nat × Nat × Bytes := lookD p.got k (0, 0, [])
/-- The position that stands for a position of an UPDATE. -/
def chief (p : InProg) (k : Nat) : Nat :=
  if p.desc.opcode = 3 then ((twins p.desc p.io k).head?).getD k else k
def statusAt (p : InProg) (k : Nat) : Nat := (resultAt p (chief p k)).1

/-- The output of a descriptor whose indices have all been served (R265 to R268). -/
def descOutput (t : Tbl) (p : InProg) : Bytes :=
  let d := p.desc
  let c := colLen d t.dim
  let elems := fun k => ((decodeRow t.format t.dim (resultAt p k).2.2).drop (colStart d)).take c
  match d.opcode with
  | 1 => ((List.range d.count).map (fun k =>
      if statusAt p k = 0 then encodeRow d.ioFormat c (fun _ => none) (elems k)
      else List.replicate (rowBytesOf d.ioFormat c) 0)).flatten
  | 2 => ((List.range d.bags).map (fun b =>
      let lo := poolOffset p.io b
      let ks := (List.range (poolOffset p.io (b + 1) - lo)).map (lo + ·)
      let w := fun k => if d.pool.testBit 2 then le (p.io.aux.getD []) (roundUp 64 (4 * (d.bags + 1)) + 4 * k) 4 else fone
      let rows := (ks.filter (fun k => statusAt p k == 0)).map (fun k => (w k, elems k))
      encodeRow d.ioFormat c (fun _ => none) (poolBag (d.pool % 4) c rows))).flatten
  | 4 => ((List.range d.count).map (fun k =>
      let n := regionRow t (addressed t d.flags)
      if statusAt p k = 0 then ((resultAt p k).2.2 ++ List.replicate n 0).take n else List.replicate n 0)).flatten
  | _ => []

/-- A prefetched row lies in GDDR7: one held here as it stands now, one of another device as its owner answered (R259, R269). -/
def prefetchedHot (s : State) (p : InProg) (k : Nat) : Bool :=
  match tblServed s p.desc.handle with
  | some (ti, t) =>
    if indexOwner s t (indexAt p.desc p.io k) == some (tableDevice s t) then
      (match rowRef s ti t (indexAt p.desc p.io k) with | .row r => rowHot s ti t r | _ => false)
    else (resultAt p k).2.2 != []
  | none => false

/-- COUNT of a completion without a failure. -/
def descCount (s : State) (p : InProg) : Nat :=
  match p.desc.opcode with
  | 2 => p.desc.bags
  | 6 => ((List.range p.desc.count).filter (prefetchedHot s p)).length
  | _ => p.desc.count

/-- A descriptor whose indices have all been served completes: its output, then its completion. -/
def completeDesc (n : Nat) (p : InProg) (s : State) : State :=
  let d := p.desc
  let bad := (List.range d.count).filter (fun k => statusAt p k != 0)
  let t := match tblServed s d.handle with | some (_, t) => t | none => { handle := 0, owner := 0, rows := 0 }
  let q := cqpD s n
  let out := if d.opcode = 3 ∨ d.opcode = 5 ∨ d.opcode = 6 then [] else descOutput t p
  let s := if out.isEmpty then s
    else if q.held then setCqp n { q with heldData := q.heldData ++ [(d.dataAddr, out)] } s
    else dmaOut (queueMemory q) d.dataAddr out s
  let s := updCqp n (fun q => { q with running := q.running.filter (fun x => x.seq != p.seq) }) s
  let flags := p.flags ||| (if lrClamped d then cfClamped else 0)
  match bad.head? with
  | some k => postCqe n d k (statusAt p k)
      (if statusAt p k = csKernelFault then leVal (resultAt p (chief p k)).2.2 else min 255 bad.length) flags s
  | none => postCqe n d (descCount s p) csOk 0 flags s

/-- Every running descriptor of a queue pair goes on as far as it can. -/
def advanceQueue (n : Nat) (s : State) : State :=
  let s := (cqpD s n).running.foldl (fun s p => p.todo.foldl (fun s k => servePosition n p.seq k s) s) s
  (((cqpD s n).running.filter (fun p => p.desc.opcode != 7 && p.todo.isEmpty && p.sent.isEmpty))).foldl
    (fun s p => completeDesc n p s) s

/-! ### Fetching and starting (R256, R263) -/

/-- The next slot of a submission ring in the queue region lies on a channel that retrains (R112). -/
def slotHeld (s : State) (n : Nat) (q : Cqp) : Bool :=
  match ringDpa s (some n) q.owner false (64 * q.sqHead) with | some a => channelHeld s a | none => false

/-- Descriptors are fetched while completion slots can be reserved. -/
def fetchDescs (n : Nat) : Nat → State → State
  | 0, s => s
  | fuel + 1, s =>
    match cqpOf s n with
    | none => s
    | some q =>
      match q.unread with
      | [] => s
      | u :: rest =>
        if q.held || q.error || queueStopped s q || decide (cqSlots q ≤ q.cqUsed) || slotHeld s n q then s
        else fetchDescs n fuel (setCqp n { q with unread := rest, waiting := q.waiting ++ [(q.fetched, u)], fetched := q.fetched + 1,
                                                  cqUsed := q.cqUsed + 1, sqHead := (q.sqHead + 1) % sqSlots q } s)

/-- A descriptor starts: it completes at once where a check fails; otherwise it runs. W12 to W14 of a KERNEL map the index, data and aux addresses, W15 nothing (DESIGN CHOICE, log 217). -/
def startDesc (n seq : Nat) (d : Desc) (io : DescIo) (s : State) : State :=
  let q := cqpD s n
  let s := setCqp n { q with waiting := q.waiting.filter (fun w => w.1 != seq) } s
  let s := lineFaults io.faults s
  let st := descStatus s q d io ((kernelByHandle s d.handle).map (·.2.owner))
  if st ≠ csOk then postCqe n d 0 st 0 0 s
  else if stepClosed s q seq d then postCqe n d 0 csStepClosed 0 0 s
  else if d.opcode = 7 then
    match kernelByHandle s d.handle with
    | none => postCqe n d 0 csBadHandle 0 0 s
    | some (ki, k) =>
      if k.unloading then postCqe n d 0 csKernelFault 8 0 s
      else if d.count = 0 then postCqe n d 0 csOk 0 0 s
      else addJob { id := 0, kernel := ki, origin := .desc n seq, items := d.count, step := d.step,
                    args := descBytes d ++ (io.aux.getD []).take d.bags, client := queueMemory q, gen := genOf s (queueMemory q),
                    buffers := [d.indexAddr, d.dataAddr, d.auxAddr] }
        (updCqp n (fun q => { q with running := q.running ++ [{ seq := seq, desc := d, io := io }] }) s)
  else updCqp n (fun q => { q with running := q.running ++ [{ seq := seq, desc := d, io := io, todo := positions d io }] }) s

/-- The next descriptor of a queue pair that may start: in ring order, FENCE waits for every earlier one, and reads pass row-writing
descriptors that the step fence holds; a KERNEL descriptor without dispatch room holds those behind it. -/
def nextStart (s : State) (q : Cqp) : List (Nat × Desc × DescIo) → Bool → Option (Nat × Desc × DescIo)
  | [], _ => none
  | w :: rest, passed =>
    if w.2.1.flags.testBit 1 && (passed || !q.running.isEmpty) then none
    else if kernelFull s w.2.1 && !passed then none
    else if fenceHolds s w.2.1 || (passed && (writesRows w.2.1 || w.2.1.opcode == 7)) then nextStart s q rest true
    else some w

/-- Descriptors start while one may; none of a held queue pair (R415). -/
def startDescs (n : Nat) : Nat → State → State
  | 0, s => s
  | fuel + 1, s =>
    match cqpOf s n with
    | none => s
    | some q =>
      if q.held ∨ q.inflight ≤ q.running.length ∨ queueStopped s q then s
      else match nextStart s q q.waiting false with
        | some w => startDescs n fuel (advanceQueue n (startDesc n w.1 w.2.1 w.2.2 s))
        | none => s

def runQueue (n : Nat) (s : State) : State :=
  let s := fetchDescs n (cqpD s n).unread.length s
  let s := advanceQueue n s
  startDescs n (cqpD s n).waiting.length s

/-! ### Forwarded indices (R281 to R284) -/

def updFwd (w : FwdWait) (f : FwdWait → FwdWait) (s : State) : State :=
  s.setTab { s.tab with fwd := updFirst (fun x => x.dev == w.dev && x.token == w.token) f s.tab.fwd }

/-- An index forwarded to this device is served, or waits. -/
def serveForwarded (w : FwdWait) (s : State) : State :=
  let s0 := s
  let reply := fun (st f : Nat) (bs : Bytes) (s : State) =>
    sendDomain w.dev (.indexResult w.token st f bs)
      (s.setTab { s.tab with fwd := dropFirst (fun (x : FwdWait) => x.dev == w.dev && x.token == w.token) s.tab.fwd })
  match tblByDomain s w.domainId with
  | none => reply csUnreachable 0 [] s
  | some (ti, t) =>
    if !t.visible then s
    else if t.status = 1 then reply csIntegrity 0 [] s
    else if w.running then s
    else match serveIndex ti { op := w.op, flags := w.flags, step := w.step, lr := w.lr, index := w.index, data := w.data } s with
      | .done s st f bs => reply st (f ||| w.raised) bs s
      | .wait s f => updFwd w (fun x => { x with raised := x.raised ||| f }) s
      | .item s row f =>
        if !ruleRoom s ti row then s
        else ruleJob (.forwarded w.dev w.token) ti row w.step w.data (decide (rowRef s0 ti t w.index = .absent))
          (updFwd w (fun x => { x with running := true, raised := x.raised ||| f }) s)

/-! ### Destroying (R80, R249) -/

/-- A table is freed: the frames that go back. -/
def tableFrames (s : State) (ti : Nat) : Nat := tblCharge (tblD s ti)

/-- A descriptor on a table has started. -/
def tableBusy (s : State) (ti : Nat) : Bool :=
  let t := tblD s ti
  s.tab.cqps.any (fun e => e.2.running.any (fun p => p.desc.opcode != 7 && p.desc.handle == t.handle))
    || s.tab.fwd.any (fun w => w.running && t.sharded && w.domainId == t.domainId)

/-- A queue pair is gone: its doorbell page and its pages of the queue region are free, and it counts as done in an open fence (R299). -/
def removeCqp (n : Nat) (s : State) : State :=
  updRun (fun r => { r with clients := r.clients.filter (fun c => c.2 != n) })
    (dropRings (fun r => r.queue == some n) (s.setTab { s.tab with cqps := del s.tab.cqps n }))

/-- Held data and completions go out, in order (R403, R419, R423). -/
def deliverHeld (n : Nat) (s : State) : State :=
  let q := cqpD s n
  let s := setCqp n { q with held := false, heldCpl := [], heldData := [] } s
  let s := q.heldData.foldl (fun s w => dmaOut (queueMemory q) w.1 w.2 s) s
  q.heldCpl.foldl (fun s c => writeCqe n c.1 c.2 s) s

/-- TABLE_DESTROY, CQP_DESTROY, KERNEL_UNLOAD and MIG_FREEZE whose started work has all completed reply. -/
def destroyProgress (s : State) : State :=
  freezeProgress <| (s.icp.waits.filter (fun w => w.kind == .destroy)).foldl (fun s w =>
    if w.pkt.opcode = 0x0201 ∧ !tableBusy s w.obj then
      let h := (tblD s w.obj).handle
      let n := tableFrames s w.obj
      finishWait w stOk dtNone (layout 8 [(0, 4, h), (4, 4, n)]) (freeTable w.obj s)
    else if w.pkt.opcode = 0x0205 ∧ (cqpD s w.obj).running.isEmpty then
      let k := (cqpD s w.obj).closedCount
      finishWait w stOk dtNone (layout 8 [(0, 4, w.obj), (4, 4, k)]) (removeCqp w.obj s)
    else if w.pkt.opcode = 0x0211 ∧ !kernelBusy s w.obj then
      let h := ((look s.mason.kernels w.obj).map (·.handle)).getD 0
      finishWait w stOk dtNone (layout 8 [(0, 4, h), (4, 4, w.count)]) (releaseKernel w.obj s)
    else s) s

/-! ### Settling -/

/-- The commands of a table or a course that wait are looked at again once. -/
def settleOnce (s : State) : State :=
  let s := s.tab.cqps.foldl (fun s e => runQueue e.1 s) s
  let s := s.tab.fwd.foldl (fun s w => serveForwarded w s) s
  destroyProgress (commitProgress (toCapturing (fenceProgress (dispatchItems s))))

def settleN : Nat → State → State
  | 0, s => s
  | n + 1, s => settleN n (settleOnce s)

/-- Work that may still move. -/
def settleFuel (s : State) : Nat :=
  1 + (s.tab.cqps.map (fun e => e.2.unread.length + e.2.waiting.length + e.2.running.length)).sum + s.tab.fwd.length

/-- Everything of the table service and the course engine that can go on does so. -/
def settle (s : State) : State := settleN (settleFuel s) (retryRings s)

end Sys2Proof.Machine
end

