-- ==== Sys2Proof/Machine/TableCmds.lean ====
section
/-! DEFINITION. The commands and events of the table service (chapter 6): tables, custody queue pairs, custom rules, doorbells, descriptors, forwarded indices and repointing. -/

namespace Sys2Proof.Machine

open Sys2Proof

/-- A handle of an object of `owner` names it for this issuer (R37). -/
def mayName (c : Ctx) (owner : Nat) : Bool := c.iss.priv || c.iss.owner == owner

/-- A table that a handle names for an issuer, one being destroyed among them. -/
def tblFor (c : Ctx) (s : State) (h : Nat) : Option (Nat × Tbl) :=
  match tblOf s (handleIndex h) with
  | some t => if t.handle = h ∧ t.visible ∧ mayName c t.owner then some (handleIndex h, t) else none
  | none => none

/-! ### TABLE_CREATE (R243 to R247) -/

/-- Smallest row of a format: a multiple of 16 that holds one element, or one block of 32 with its scale. -/
def minRow (fmt : Nat) : Nat := if fmt = 5 then 48 else if fmt = 6 ∨ fmt = 7 then 32 else 16

/-- The most elements that fit in a row of B bytes. -/
def maxDim (fmt b : Nat) : Nat :=
  match fmt with
  | 0 => b / 4
  | 1 => b / 2
  | 2 => b / 2
  | 3 => b
  | 4 => b
  | 5 => b / 33 * 32
  | 6 => b / 25 * 32
  | 7 => b / 17 * 32
  | 8 => b - 4
  | _ => (b - 4) * 2

/-- The table that a parameter block asks for, every field clamped in ascending offset. -/
def createTbl (c : Ctx) (s : State) : Tbl :=
  let fmt := c.p 8 1
  let split := c.p 9 1 == 1
  let rule := c.p 0xA 1
  let sf := c.p 0xB 1
  let hashed := (c.p 0x14 1).testBit 0
  let sharded := (c.p 0x14 1).testBit 1
  let r0 := clampN 1 (2 ^ 40) (c.p 0 8)
  let rows := if hashed then roundUp 16 r0 else r0
  let rb := roundUp 16 (clampN (minRow fmt) 16384 (c.p 0xC 4))
  let dim := if 5 ≤ fmt ∧ fmt ≤ 7 then clampN 32 (maxDim fmt rb) (c.p 0x10 4) / 32 * 32 else clampN 1 (maxDim fmt rb) (c.p 0x10 4)
  let fp := fun off lo hi => fclamp lo hi (c.p off 4)
  let entries := c.p 0x58 4
  let dom := if sharded then c.p 0x48 4 else 0
  let rid := if rule = 15 then c.p 0x44 4 else 0
  let t : Tbl :=
    { handle := 0, owner := c.iss.owner, gen := genOf s c.iss.owner, rows := rows, format := fmt, split := split, rule := rule, stateFormat := sf, rowBytes := rb,
      dim := dim, hashed := hashed, sharded := sharded,
      tier := if c.p 0x15 1 = 1 then .pinHot else if c.p 0x15 1 = 2 then .pinCold else .auto, rounding := c.p 0x16 1,
      init := c.p 0x17 1,
      initValue := if fnan (c.p 0x18 4) then 0 else fclamp 0xC61C4000 0x461C4000 (c.p 0x18 4), initSeed := c.p 0x1C 4,
      lr := fp 0x20 0 0x447A0000, beta1 := fp 0x24 0 0x3F7FFFFF, beta2 := fp 0x28 0 0x3F7FFFFF,
      epsilon := fp 0x2C 0x0DA24260 0x3F800000, decay := fp 0x30 0 0x3F800000, momentum := fp 0x34 0 0x3F7FFFFF,
      trustMax := fp 0x38 0x3F800000 0x447A0000, gradScale := fp 0x3C 0x33800000 0x4B800000, stepBase := c.p 0x40 4, ruleId := rid,
      domainId := dom, ring := c.p 0x50 8, ringEntries := if entries = 0 then 0 else pow2Up 16 (clampN 64 65536 entries),
      ranges := if sharded then ownedRanges s dom rows hashed else [(0, rows)],
      stateBytes := if rule = 15 then ((look s.tab.rules rid).map (·.stateBytes)).getD 0
                    else roundUp 16 (ruleElems rule dim * (if sf = 0 then 4 else 2)) }
  { t with localRows := heldRows t }

/-- A table is created: its index, the table and the state with every frame allocated and every row initialised. -/
def buildTable (t : Tbl) (s : State) : Option (Nat × Tbl × State) :=
  (freeTableIndex s).bind (fun ti =>
    let g := lookD s.tab.gens ti 1
    let t := { t with handle := ((fnD s t.owner).slot.getD 0) % 1024 * 2 ^ 22 + ti * 2 ^ 10 + g }
    if s.mem.hotTotal = 0 ∨ quotaOf s t.owner < quotaUsed s t.owner + tblCharge t then none
    else (allocTable ti t s).map (fun s => (ti, t, initTable ti t (setTbl ti t s))))

def createChecks (c : Ctx) (s : State) : List (Bool × Nat × Nat) :=
  let rule := c.p 0xA 1
  let sharded := (c.p 0x14 1).testBit 1
  [(decide (9 < c.p 8 1), stNotPermitted, dtField 8),
   (decide (1 < c.p 9 1 ∨ (c.p 9 1 = 1 ∧ c.p 8 1 = 0)), stNotPermitted, dtField 9),
   (!(decide (rule ≤ 7) || rule == 15), stNotPermitted, dtField 0xA),
   (decide (1 < c.p 0xB 1), stNotPermitted, dtField 0xB),
   (c.p 9 1 == 1 && (c.p 0x14 1).testBit 0, stNotPermitted, dtField 0x14),
   (decide (2 < c.p 0x15 1), stNotPermitted, dtField 0x15),
   (decide (1 < c.p 0x16 1), stNotPermitted, dtField 0x16),
   (decide (2 < c.p 0x17 1), stNotPermitted, dtField 0x17),
   (rule == 15 && !(match look s.tab.rules (c.p 0x44 4) with | some r => r.tenant == c.iss.owner | none => false),
    stBadHandle, dtField 0x44),
   (sharded && c.p 0x48 4 == 0, stBadHandle, dtField 0x48),
   (decide (c.p 0x50 8 % 64 ≠ 0), stBadAddress, dtField 0x50)]

/-- The fields of the block of R243. -/
def tableNames : List (Nat × Nat × Nat) :=
  whole [(0, 8), (8, 1), (9, 1), (0xA, 1), (0xB, 1), (0xC, 4), (0x10, 4), (0x15, 1), (0x16, 1), (0x17, 1), (0x18, 4), (0x1C, 4), (0x40, 4), (0x50, 8)]
    ++ [(0x14, 1, 3)]

/-- TABLE_CREATE. -/
def hTableCreate : Handler := fun c s =>
  checked s (createChecks c s) <|
  roomThen s [((c.p 0x14 1).testBit 1 && domainHeld s (c.p 0x48 4), stConflict, 0x012C)]
    (match buildTable (createTbl c s) s with
     | none => Res.rej s stNoResource dtNone
     | some (_, t, s') =>
       let eff := [(0, 8, t.rows), (0xC, 4, t.rowBytes), (0x10, 4, t.dim), (0x18, 4, t.initValue), (0x20, 4, t.lr), (0x24, 4, t.beta1),
         (0x28, 4, t.beta2), (0x2C, 4, t.epsilon), (0x30, 4, t.decay), (0x34, 4, t.momentum), (0x38, 4, t.trustMax),
         (0x3C, 4, t.gradScale), (0x44, 4, t.ruleId), (0x48, 4, t.domainId), (0x58, 4, t.ringEntries)]
       Res.ok s' (c.differs eff) (c.echo 128 tableNames (eff ++ [(0x4C, 4, t.handle)])))

/-- TABLE_DESTROY (R249). -/
def hTableDestroy : Handler := fun c s =>
  match tblFor c s (c.p 0 4) with
  | none => Res.rej s stBadHandle (dtField 0)
  | some (ti, t) =>
    if t.status = 2 then Res.rej s stBadHandle (dtField 0)
    else if courseLive s && (crun s).tables.contains ti then Res.rej s stBusy dtNone
    else if tableBusy s ti then .later (addWait c .destroy ti 0 (updTbl ti (fun t => { t with status := 2 }) s)) dtNone
      (layout 8 [(0, 4, t.handle), (4, 4, tblCharge t)])
    else Res.ok (freeTable ti s) false (layout 8 [(0, 4, t.handle), (4, 4, tableFrames s ti)])

/-- TABLE_QUERY (R251). -/
def hTableQuery : Handler := fun c s =>
  match tblFor c s (c.p 0 4) with
  | none => Res.rej s stBadHandle (dtField 0)
  | some (ti, t) =>
    let mine := s.mem.blocks.filter (fun b => b.table == ti)
    let in_ := fun (h : Bool) => (mine.filter (fun b => match b.frame with | some f => isHotFrame f == h | none => false)).length
    Res.ok s false (layout 128 [(0, 4, t.handle), (4, 4, t.status), (8, 8, t.localRows),
      (0x10, 8, if t.hashed then keysUsed s ti t else t.localRows), (0x18, 4, in_ true), (0x1C, 4, in_ false), (0x20, 8, poisonedRows t),
      (0x28, 8, t.rolledBack), (0x30, 4, t.lastCourse), (0x34, 4, t.ringLost), (0x38, 8, t.updates), (0x40, 8, t.lookups)])

/-! ### Custody queue pairs (R254) -/

/-- MSI-X vectors of a function (R394). -/
def vectorCount (fid : Nat) : Nat := if isVf fid then 64 else 2048
/-- Doorbell pages of a function's BAR2 (R407). -/
def pageCount (fid : Nat) : Nat := if isVf fid then 2048 else 16384

/-- Doorbell pages in use: custody queue pairs, NIC queue pairs and GRT work queues of the function (R395), and in BAR2 of PF0 the ICP doorbell pages of
the accelerator endpoints below its host port (R66). -/
def usedPages (s : State) (fid : Nat) : List Nat :=
  (s.tab.cqps.filter (fun e => e.2.owner == fid)).map (fun e => e.2.page)
    ++ (s.pages.filter (fun e => e.1 == fid)).map (·.2)
    ++ (if isPf fid && fid % 3 == 0 then ((List.range 80).filter (fun ep =>
          (pbOf s (ep / 4)).role == 2 && (pbOf s (ep / 4)).hostPort == fid / 3)).map (16383 - ·) else [])

/-- The lowest free doorbell page; page 0 is the ICP page. -/
def freePage (s : State) (fid : Nat) : Option Nat :=
  (lowest (pageCount fid - 1) (fun k => !(usedPages s fid).contains (k + 1))).map (· + 1)

/-- PCIe address of a page of a function's BAR2; from 0 while the BAR is not assigned. -/
def bar2Addr (s : State) (fid off : Nat) : Nat := (bar2Base s fid).getD 0 + off

/-- An accelerator endpoint that is present. -/
def endpointLive (s : State) (fid : Nat) : Bool :=
  isAccel fid && (pbOf s ((fid - 0x4000) / 4)).role == 2 && (linkOf s (fid - 0x4000)).width != 0

/-- Host port whose queue region holds the rings of a queue pair (R396). -/
def queueHost (s : State) (owner endpoint : Nat) : Nat :=
  if endpoint = 0xFFFF then (fnD s owner).hp else endpointHost s (endpoint - 0x4000)

/-- The checks of CQP_CREATE, in the order of the offsets; the ring addresses are checked once RING_PLACE has been read (R254). -/
def cqpChecks (c : Ctx) (s : State) : List (Bool × Nat × Nat) :=
  let place := c.p 0x13 1
  [(!(c.p 0x12 1 == 1 || c.p 0x12 1 == 2), stVersion, dtField 0x12),
   (decide (1 < place), stNotPermitted, dtField 0x13),
   (place == 0 && c.p 0 8 % 4096 != 0, stBadAddress, dtField 0),
   (place == 0 && c.p 8 8 % 4096 != 0, stBadAddress, dtField 8),
   (c.p 0x14 2 != 0xFFFF && decide (vectorCount c.iss.owner ≤ c.p 0x14 2), stBadHandle, dtField 0x14),
   (c.p 0x16 2 != 0xFFFF && !endpointLive s (c.p 0x16 2), stBadHandle, dtField 0x16),
   (decide ((fnD s c.iss.owner).allot.cqps ≤ (s.tab.cqps.filter (fun e => e.2.owner == c.iss.owner)).length
     + (fnD s c.iss.owner).reclaim.cqps), stNoResource, dtNone)]

/-- Both rings of a queue pair are placed in the queue region, charged to the owner (R396). -/
def placeQueue (n hp owner sq cq : Nat) (s : State) : Option (Nat × Nat × State) :=
  (placeRing hp owner (some n) false (64 * 2 ^ sq) s).bind (fun a =>
    (placeRing hp owner (some n) true (16 * 2 ^ cq) a.2).bind (fun b =>
      if quotaOf s owner < quotaUsed b.2 owner then none else some (a.1, b.1, b.2)))

/-- CQP_CREATE. -/
def hCqpCreate : Handler := fun c s =>
  let o := c.iss.owner
  let sq := clampN 4 15 (c.p 0x10 1)
  let cq := clampN sq 15 (c.p 0x11 1)
  let infl := clampN 1 4096 (c.p 0x18 4)
  let eff := [(0x10, 1, sq), (0x11, 1, cq), (0x18, 4, infl)]
  checked s (cqpChecks c s) <|
  roomThen s [(c.p 0x13 1 == 1 && (bar2Base s (pfId (queueHost s o (c.p 0x16 2)) 0)).isNone, stConflict, dtNone)]
    (match lowest 8192 (fun n => !has s.tab.cqps n), freePage s o with
     | some n, some page =>
       let q : Cqp := { owner := o, gen := genOf s o, sqAddr := c.p 0 8, cqAddr := c.p 8 8, sqLog2 := sq, cqLog2 := cq,
                        version := c.p 0x12 1, place := c.p 0x13 1, vector := c.p 0x14 2, endpoint := c.p 0x16 2, inflight := infl,
                        page := page }
       let answer := fun (q : Cqp) (s : State) => Res.ok (setCqp n q s) (c.differs eff)
         (c.echo 64 (whole [(0, 8), (8, 8), (0x12, 1), (0x13, 1), (0x14, 2), (0x16, 2)]) (eff ++ [(0x1C, 4, n), (0x20, 8, q.sqAddr), (0x28, 8, q.cqAddr), (0x30, 8, bar2Addr s o (4096 * page))]))
       if c.p 0x13 1 = 0 then answer q s
       else
         let hp := queueHost s o (c.p 0x16 2)
         match placeQueue n hp o sq cq s with
         | some (a, b, s') =>
           let base := bar2Addr s (pfId hp 0) 0x10000000
           answer { q with sqAddr := base + 4096 * a, cqAddr := base + 4096 * b } s'
         | none => Res.rej s stNoResource dtNone
     | _, _ => Res.rej s stNoResource dtNone)

/-- CQP_DESTROY (R80). -/
def hCqpDestroy : Handler := fun c s =>
  let n := c.p 0 4
  match cqpOf s n with
  | none => Res.rej s stBadHandle (dtField 0)
  | some q =>
    if !mayName c q.owner || q.closing then Res.rej s stBadHandle (dtField 0)
    else
      let s := setCqp n { q with closing := true, unread := [], waiting := [], closedCount := 0 } s
      if q.running.isEmpty then Res.ok (settle (removeCqp n s)) false (layout 8 [(0, 4, n)])
      else .later (addWait c .destroy n 0 s) dtNone (layout 8 [(0, 4, n), (4, 4, q.running.length)])

/-- RULE_REGISTER (R275): the kernel is one that the registering tenant loaded; with population 00 it is answered NO_RESOURCE (R106). -/
def hRuleRegister : Handler := fun c s =>
  let sb := roundUp 16 (clampN 0 16384 (c.p 4 4))
  if s.mem.hotTotal = 0 then Res.rej s stNoResource dtNone
  else match kernelByHandle s (c.p 0 4) with
  | none => Res.rej s stBadHandle (dtField 0)
  | some (ki, k) =>
    if k.owner != c.iss.owner || k.unloading then Res.rej s stBadHandle (dtField 0)
    else match lowest 65536 (fun i => !has s.tab.rules (i + 1)) with
      | none => Res.rej s stNoResource dtNone
      | some i =>
        let r : Rule := { tenant := k.owner, kernel := ki, stateBytes := sb, hyper := [c.p 8 4, c.p 0xC 4, c.p 0x10 4, c.p 0x14 4] }
        Res.ok (s.setTab { s.tab with rules := put s.tab.rules (i + 1) r }) (sb != c.p 4 4) (layout 16 [(0, 4, i + 1)])

/-! ### Doorbells (R256, R60) -/

/-- Held completions go out at the first SQ_TAIL write after adoption (R419). -/
def releaseHeld (n : Nat) (s : State) : State :=
  let q := cqpD s n
  if q.adopted then
    deliverHeld n (setCqp n { q with adopted := false } s)
  else s

/-- A doorbell of a queue pair in error, or that is being destroyed, is ignored and counted. -/
def doorbellIgnored (s : State) : State := s.setIcp { s.icp with dbInvalid := s.icp.dbInvalid + 1 }

/-- A doorbell value at or above its ring's slot count is ignored, counted, and sets the DB_ERR of the function that the queue belongs to (R60, R256). -/
def doorbellRange (owner : Nat) (s : State) : State := setRing owner { ringOf s owner with dbErr := true } (doorbellIgnored s)

/-- The writer may reach the doorbell page: the creating function, or the endpoint that the queue pair names. -/
def mayRing (q : Cqp) (who : Nat) : Bool := who == q.owner || (q.endpoint != 0xFFFF && who == q.endpoint)

/-- Descriptors become visible to the part with a new tail. -/
def ringTail (n index : Nat) (slots : List (Desc × DescIo)) (q : Cqp) (s : State) : State :=
  let fresh := (index + sqSlots q - q.sqTail) % sqSlots q
  setCqp n { q with sqTail := index, unread := q.unread ++ slots.take fresh } s

/-- A slot of a submission ring as the part reads it, in little-endian order (R9): its bytes stand in the queue region where the ring was placed there
(R396), and in the client's memory else. -/
def sqSlot (s : State) (n : Nat) (q : Cqp) (k : Nat) (x : Bytes × DescIo) : Desc × DescIo :=
  (descOf (match ringDpa s (some n) q.owner false (64 * (k % sqSlots q)) with | some a => readMem a 64 s | none => x.1), x.2)

/-- The slots that a new tail makes visible; the bytes of a slot left out are zero. -/
def freshSlots (s : State) (n index : Nat) (q : Cqp) (slots : List (Bytes × DescIo)) : List (Desc × DescIo) :=
  (List.range ((index + sqSlots q - q.sqTail) % sqSlots q)).map (fun i => sqSlot s n q (q.sqTail + i) (slots.getD i ([], {})))

/-- A client writes a descriptor into the next slot of a submission ring in the queue region (R396). -/
def descPut (n : Nat) (q : Cqp) (d : Desc) (s : State) : State :=
  match ringDpa s (some n) q.owner false (64 * q.sqTail) with
  | some a => (writeMem a (descBytes d) s).1
  | none => s

/-- A host cannot reach the doorbell page of a queue in its memory: memory decoding is off outside D0 (R423). -/
def doorbellOff (s : State) (endpoint owner : Nat) : Bool := endpoint == 0xFFFF && (fnD s owner).dstate != .d0

/-- SQ_TAIL. -/
def execSqTail (queue index : Nat) (who : Nat) (slots : List (Bytes × DescIo)) (s : State) : Host.Outcome State Fault Refusal :=
  .next (thawed s <| match cqpOf s queue with
    | none => s
    | some q =>
      if !mayRing q who then countUnmapped (4096 * q.page) s
      else if who = q.owner ∧ (fnD s q.owner).dstate ≠ .d0 then s
      else if sqSlots q ≤ index then doorbellRange q.owner s
      else if q.error || q.closing then doorbellIgnored s
      else
        let s := releaseHeld queue s
        settle (ringTail queue index (freshSlots s queue index (cqpD s queue) slots) (cqpD s queue) s))

/-- CQ_HEAD. -/
def execCqHead (queue index : Nat) (s : State) : Host.Outcome State Fault Refusal :=
  .next (thawed s <| match cqpOf s queue with
    | none => s
    | some q =>
      if doorbellOff s q.endpoint q.owner then s
      else if cqSlots q ≤ index then doorbellRange q.owner s
      else if q.error then doorbellIgnored s
      else
        let freed := (index + cqSlots q - q.cqHead) % cqSlots q
        settle (setCqp queue { q with cqHead := index, cqUsed := q.cqUsed - freed } s))

/-- One descriptor, in the next slot of its queue pair's ring. -/
def submit (queue op : Nat) (d : Desc) (io : DescIo) (s : State) : State :=
  match cqpOf s queue with
  | none => s
  | some q =>
    if doorbellOff s q.endpoint q.owner then s
    else if q.error || q.closing then doorbellIgnored s
    else
      let s := releaseHeld queue (descPut queue q { d with opcode := op } s)
      settle (ringTail queue ((q.sqTail + 1) % sqSlots q) [({ d with opcode := op }, io)] (cqpD s queue) s)

def execLookup (queue : Nat) (desc : Desc) (io : DescIo) (s : State) : Host.Outcome State Fault Refusal :=
  .next (thawed s <| submit queue 1 desc io s)
def execLookupPool (queue : Nat) (desc : Desc) (io : DescIo) (s : State) : Host.Outcome State Fault Refusal :=
  .next (thawed s <| submit queue 2 desc io s)
def execUpdate (queue : Nat) (desc : Desc) (io : DescIo) (s : State) : Host.Outcome State Fault Refusal :=
  .next (thawed s <| submit queue 3 desc io s)
def execReadRows (queue : Nat) (desc : Desc) (io : DescIo) (s : State) : Host.Outcome State Fault Refusal :=
  .next (thawed s <| submit queue 4 desc io s)
def execWriteRows (queue : Nat) (desc : Desc) (io : DescIo) (s : State) : Host.Outcome State Fault Refusal :=
  .next (thawed s <| submit queue 5 desc io s)
def execPrefetch (queue : Nat) (desc : Desc) (io : DescIo) (s : State) : Host.Outcome State Fault Refusal :=
  .next (thawed s <| submit queue 6 desc io s)

/-! ### Forwarded indices (R281 to R284) -/

/-- An index arrives at its owner. -/
def execForwardedIndex (dev token domainId op flags step client lr index : Nat) (data : Bytes) (faults : List LineFault) (s : State) :
    Host.Outcome State Fault Refusal :=
  let w : FwdWait := { dev := dev, token := token, domainId := domainId, op := op, flags := flags, step := step, client := client,
                       lr := lr, index := index, data := data }
  .next (thawed s <| let s := lineFaults faults s
         settle (s.setTab { s.tab with fwd := s.tab.fwd ++ [w] }))

/-- An owner's result arrives and is placed as if the row were local. -/
def execForwardResult (queue seq position status flags : Nat) (data : Bytes) (s : State) : Host.Outcome State Fault Refusal :=
  .next (thawed s <| match (cqpD s queue).running.find? (fun p => p.seq == seq) with
    | none => s
    | some p =>
      if p.sent.contains position then settle (gotIndex queue seq position status (flags ||| cfForwarded) data s) else s)

/-- Row-writing descriptors held above S start once the fence has closed or the course has aborted (R305). -/
def execHeldDescriptorRelease (queue : Nat) (s : State) : Host.Outcome State Fault Refusal :=
  .next (thawed s <| settle (runQueue queue s))

/-- An update that waited for spill room goes on once the walker has captured its block (R309). -/
def execSpillWaitRelease (table region index : Nat) (s : State) : Host.Outcome State Fault Refusal :=
  .next (thawed s <| if courseLive s && (crun s).waiting.contains (table, region, index) then s else settle s)

/-! ### Repointing (R285 to R288, R357) -/

/-- Captured bytes in the stored format of a row of `dim` elements: copied where the format is the same, widened otherwise. -/
def widenWeights (t : Tbl) (fmt : Nat) (bs : Bytes) : Bytes :=
  if fmt = 0xFF ∨ fmt = weightFormat t then bs else encodeRow (weightFormat t) t.dim (fun _ => none) (decodeRow fmt t.dim bs)
def widenState (t : Tbl) (fmt : Nat) (bs : Bytes) : Bytes :=
  if fmt = 0xFF ∨ fmt = t.stateFormat then bs else encodeState t t.stateFormat (fun _ => none) (decodeState t fmt bs)

/-- A row is written whole from a captured value; the serving copy is rebuilt from the master. -/
def placeRow (ti row : Nat) (v : CapturedRow) (s : State) : State :=
  let t := tblD s ti
  let s := writeRow ti t 0 row (widenWeights t v.weightFormat v.weights) s
  let s := writeRow ti t 1 row (widenState t v.stateFormat v.state) s
  let s := if t.hashed then writeRow ti t 3 row (leBytes 8 v.key) s else s
  if t.split then writeRow ti t 2 row (servingBytes t (fun _ => none) (rowWeights s ti t row)) s else s

/-- A row repointed before its blocks are captured enters the open course's rollback list (R315). -/
def noteRollback (ti row course step cause : Nat) (s : State) : State :=
  let t := tblD s ti
  let open_ := courseLive s && (crun s).tables.contains ti && (blocksOf t (tblRegions t) row).any (fun ri =>
    match blkFind s ti ri.1 ri.2 with | some b => !b.captured | none => false)
  if open_ then updRun (fun r => { r with rollbacks := r.rollbacks ++
      [{ handle := t.handle, firstRow := rowIdentity t row, rows := 1, course := course, step := step, cause := cause }] }) s
  else s

/-- How many rows from `row` on one repointing takes: rows of consecutive numbers, all under repointing for one cause. -/
def repointRun (s : State) (ti : Nat) (t : Tbl) (row : Nat) (b : BadRow) (n : Nat) : Nat :=
  ((List.range n).takeWhile (fun k => rowIdentity t (row + k) == rowIdentity t row + k
    && (match badRow t (row + k) with | some x => x.repointing && x.cause == b.cause | none => false) && rowWhole s ti t (row + k))).length

/-- One row takes its value from the latest committed course. -/
def repointOne (table row id step cause : Nat) (value : CapturedRow) (s : State) : State :=
  let s := placeRow table row value s
  noteRollback table row id step cause (rowGood table row s)

/-- Poisoned rows from `row` on are repointed together, with one record. -/
def execRepointRow (table row : Nat) (values : List CapturedRow) (slotFree : Bool) (s : State) : Host.Outcome State Fault Refusal :=
  .next (thawed s <| match badRow (tblD s table) row, s.course.committed with
    | some b, some (id, step) =>
      let n := repointRun s table (tblD s table) row b values.length
      if n ≠ 0 ∧ (tblOf s table).isSome then
        let s := (values.take n).zipIdx.foldl (fun s x => repointOne table (row + x.2) id step b.cause x.1 s) s
        settle (rollbackRecord table row n id step b.cause slotFree s)
      else s
    | _, _ => s)

/-- No destination gave the row within 1 s: it stays poisoned (R287). -/
def execRepointTimeout (table row : Nat) (s : State) : Host.Outcome State Fault Refusal :=
  .next (thawed s <| match badRow (tblD s table) row with
    | some b =>
      if b.repointing then settle (updTbl table (fun t => { t with bad := t.bad.map (fun (x : BadRow) =>
        if x.row = row then { x with repointing := false } else x) }) s) else s
    | none => s)

end Sys2Proof.Machine
end

