-- ==== Sys2Proof/Machine/CourseCmds.lean ====
section
/-! DEFINITION. The commands and events of the course engine (chapter 7). -/

namespace Sys2Proof.Machine

open Sys2Proof

/-! ### Course policy (R290 to R294) -/

/-- The destination entries of a policy block. -/
def policyDests (c : Ctx) (n : Nat) : List Dest :=
  (List.range n).map (fun i =>
    { type := c.p (0x40 + 16 * i) 1, id := if c.p (0x40 + 16 * i) 1 = 3 then 0 else c.p (0x44 + 16 * i) 4,
      areaGib := c.p (0x48 + 16 * i) 4 })

/-- The policy that a parameter block asks for, every field clamped. -/
def policyOf (c : Ctx) : CoursePolicy :=
  let th := fun off => clampN 1 10000000 (c.p off 4)
  { period := clampN 0 86400 (c.p 0 4), spillGib := clampN 1 32 (c.p 4 1), destMode := c.p 6 1, format := c.p 7 1,
    shardMib := roundUp 4 (clampN 16 4096 (c.p 8 4)), fenceMs := clampN 100 600000 (c.p 0xC 4), stagingGib := clampN 0 64 (c.p 0x10 2),
    chunkBufs := clampN 64 1024 (c.p 0x12 2), sealOn := (c.p 0x14 4).testBit 1, early := (c.p 0x14 4).testBit 0,
    window := clampN 1 3600 (c.p 0x18 4), earlyGap := clampN 10 86400 (c.p 0x1C 4), thresh := [th 0x20, th 0x24, th 0x28, th 0x2C],
    margin := clampN 1 30 (c.p 0x30 1), stepLead := clampN 1 16 (c.p 0x31 1), device := c.p 0x32 2, parent := c.p 0x34 4,
    children := clampN 0 64 (c.p 0x38 1), liveness := clampN 10 10000 (c.p 0x3A 2), dests := policyDests c (clampN 1 4 (c.p 5 1)) }

/-- The numeric fields of a policy in effect, for the reply. -/
def policyFields (p : CoursePolicy) : List (Nat × Nat × Nat) :=
  [(0, 4, p.period), (4, 1, p.spillGib), (5, 1, p.dests.length), (8, 4, p.shardMib), (0xC, 4, p.fenceMs), (0x10, 2, p.stagingGib),
   (0x12, 2, p.chunkBufs), (0x18, 4, p.window), (0x1C, 4, p.earlyGap), (0x20, 4, p.thresh.getD 0 0), (0x24, 4, p.thresh.getD 1 0),
   (0x28, 4, p.thresh.getD 2 0), (0x2C, 4, p.thresh.getD 3 0), (0x30, 1, p.margin), (0x31, 1, p.stepLead), (0x38, 1, p.children),
   (0x3A, 2, p.liveness)]

/-- A destination names a namespace or a connection of this device (R292). -/
def destKnown (s : State) (d : Dest) : Bool :=
  match d.type with
  | 1 => has s.sto.ns d.id
  | 2 => has s.grt.conns d.id
  | _ => true

/-- AREA_GIB is the length of an access, so it is never clamped (R36, R292): outside its range, or larger than the namespace, the target region of the
connection, or the CXL tier. -/
def destTooSmall (s : State) (d : Dest) : Bool :=
  decide (d.areaGib = 0 ∨ 65536 < d.areaGib) || match d.type with
  | 1 => (match look s.sto.ns d.id with | some n => decide (n.bytes < d.areaGib * 2 ^ 30) | none => false)
  | 2 => decide (Config.remoteBytes d.id < d.areaGib * 2 ^ 30)
  | _ => decide (s.mem.coldTotal * frameBytes < d.areaGib * 2 ^ 30)

def destAttached (s : State) (d : Dest) : Bool :=
  match d.type with
  | 1 => (match look s.sto.ns d.id with | some n => !n.attached.isEmpty | none => false)
  | _ => false

/-- Checks of the destination entries, entry by entry. -/
def destChecks (s : State) (p : CoursePolicy) : List (Bool × Nat × Nat) :=
  (p.dests.zipIdx.map (fun x =>
    let o := 0x40 + 16 * x.2
    [(!(decide (1 ≤ x.1.type ∧ x.1.type ≤ 3)), stNotPermitted, dtField o),
     (!destKnown s x.1, stBadHandle, dtField (o + 4)),
     (destTooSmall s x.1, stBadAddress, dtField (o + 8))])).flatten

def policyChecks (c : Ctx) (s : State) (p : CoursePolicy) : List (Bool × Nat × Nat) :=
  [(decide (1 < p.destMode), stNotPermitted, dtField 6),
   (!(p.format == 3 || p.format == 4) || (p.format == 3 && !c.cap 1), stVersion, dtField 7),
   (decide (32767 < p.device), stBadHandle, dtField 0x32)] ++ destChecks s p

/-- CXL frames of a staging destination; those already held are kept (R294). -/
def takeCxlArea (gib : Nat) (s : State) : Option State :=
  let held := ((s.mem.extents.filter (fun e => e.use == .cxlArea)).map (·.count)).sum
  let n := gib * 16384 - held
  if n = 0 then some s
  else if coldAllocatable s < framesUsed s false + n then none
  else if s.mem.cxl.all (fun c => !c.fenced) ∧ s.mem.coldNext + n ≤ s.mem.coldTotal then
    some (s.setMem (cleanRun (coldBase + s.mem.coldNext) n
      { s.mem with coldNext := s.mem.coldNext + n,
                   extents := s.mem.extents ++ [{ first := coldBase + s.mem.coldNext, count := n, use := .cxlArea }] }))
  else takeSingles false .cxlArea n s

/-- The frames of an accepted policy are taken; those of the one it supersedes go back at the next COURSE_OPEN (R293). -/
def takePolicy (p : CoursePolicy) (s : State) : Option State :=
  let s := reuse .courseNext .courseOld s
  (takeExtent .courseNext (policyFrames p) s).bind (fun s =>
    match (p.dests.filter (fun d => d.type == 3)).map (·.areaGib) with
    | [] => some s
    | g :: r => takeCxlArea (r.foldl max g) s)

/-- An accepted policy governs from now, or from the next COURSE_OPEN while a course is open (R290) or where it is committed under ROLLING (R91). -/
def acceptPolicy (rolling : Bool) (p : CoursePolicy) (s : State) : Option State :=
  (takePolicy p s).map (fun s =>
    let s := if rolling || courseLive s then s.setCourse { s.course with next := some p } else s.setCourse { s.course with policy := p, next := none }
    s.setCourse { s.course with policySet := true, framesTaken := true,
                                childrenSet := s.course.childrenSet || p.children != 0 })

/-- The fields of the blocks of R290 and R291. -/
def policyNames : List (Nat × Nat × Nat) :=
  whole [(0, 4), (4, 1), (5, 1), (6, 1), (7, 1), (8, 4), (0xC, 4), (0x10, 2), (0x12, 2), (0x18, 4), (0x1C, 4), (0x20, 4), (0x24, 4), (0x28, 4),
    (0x2C, 4), (0x30, 1), (0x31, 1), (0x32, 2), (0x34, 4), (0x38, 1), (0x3A, 2)] ++ [(0x14, 4, 3)]
    ++ (List.range 4).flatMap (fun i => whole [(0x40 + 16 * i, 1), (0x44 + 16 * i, 4), (0x48 + 16 * i, 4)])

/-- A course policy is set, now or at the next COURSE_OPEN; the room is checked before the state of the namespaces (R72 steps 10 and 11). -/
def hCoursePolicy (rolling : Bool) : Handler := fun c s =>
  let p := policyOf c
  checked s (policyChecks c s p)
    (roomThen s [(p.dests.any (destAttached s), stConflict, dtNone)]
      (match acceptPolicy rolling p s with
       | none => Res.rej s stNoResource dtNone
       | some s' => c.okEcho s' 128 policyNames (policyFields p ++ (p.dests.zipIdx.map (fun x => (0x48 + 16 * x.2, 4, x.1.areaGib))))))

/-- COURSE_POLICY_SET. -/
def hCoursePolicySet : Handler := hCoursePolicy false

/-! ### Opening (R295 to R298, R331, R333) -/

/-- The frames of the default policy are taken at the first COURSE_OPEN (R293). -/
def ensureFrames (s : State) : Option State :=
  if s.course.framesTaken then some s
  else (takePolicy s.course.policy s).map (fun s => s.setCourse { s.course with framesTaken := true })

/-- The policy that the next COURSE_OPEN runs under. -/
def openPolicy (s : State) : CoursePolicy := s.course.next.getD s.course.policy

/-- What stands in the way of any opening at the root: first the room (R72 step 10, R105), then the state. -/
def openBars (s : State) : List (Bool × Nat × Nat) :=
  [(decide (s.mem.hotTotal = 0) || (ensureFrames s).isNone, stNoResource, dtNone),
   ((openPolicy s).parent != 0xFFFFFFFF, stConflict, 0x0102), (courseLive s, stConflict, 0x0104),
   ((openPolicy s).dests.isEmpty, stConflict, 0x0103), ((domainKey s).isNone, stConflict, 0x0160),
   (s.elastic.adopt.isSome || !s.course.peersAdopting.isEmpty, stConflict, 0x0130)]

/-- The root opens a course and passes the open down the tree. -/
def rootOpen (id step label trigger : Nat) (s : State) : Option State :=
  (ensureFrames s).map (fun s =>
    let f := min (openPolicy s).format (subtreeFormat s)
    settle (sendDown (.courseOpen id step label f trigger) (openRun id step label f trigger s)))

/-- COURSE_OPEN. -/
def hCourseOpen : Handler := fun c s =>
  let id := if c.p 0 4 = 0 then s.course.highId + 1 else c.p 0 4
  let high := (domainStep s).getD 0
  let step := if c.p 4 4 = 0xFFFFFFFF then (high + (openPolicy s).stepLead) % 2 ^ 32 else c.p 4 4
  checked s ((c.p 0 4 != 0 && decide (c.p 0 4 ≤ s.course.highId), stBadHandle, 0x0101) :: openBars s)
    (if step ≤ high ∧ (domainStep s).isSome then .reply s stConflict 0x0100 (layout 32 [(0xC, 4, high)])
     else match rootOpen id step (c.p 8 8) 0 s with
      | none => Res.rej s stNoResource dtNone
      | some s' =>
        Res.ok s' false (layout 32 [(0, 4, id), (4, 4, step), (8, 2, (crun s').format), (0xA, 1, 0), (0xC, 4, high),
          (0x10, 8, (crun s').total)]))

/-- A periodic or an early course opens, unless it is barred: then it is skipped and logged (R331, R333). -/
def autoOpen (trigger : Nat) (s : State) : State :=
  match firstBad (openBars s) with
  | some _ => logPolicy 0x41 2 6 trigger s.course.highId s.course.highId s
  | none =>
    let id := s.course.highId + 1
    match rootOpen id (((domainStep s).getD 0 + (openPolicy s).stepLead) % 2 ^ 32) 0 trigger s with
    | some s' => s'
    | none => logPolicy 0x41 2 6 trigger s.course.highId s.course.highId s

/-- The domain role of the straps (R712); values 4 to 7 act as 0. -/
def domainRole (s : State) : Nat := if bits s.pins.latched 10 3 < 4 then bits s.pins.latched 10 3 else 0

/-- Periodic courses run here (R712). -/
def periodicHere (s : State) : Bool :=
  fenceRoot s && s.course.policy.period != 0
    && (match domainRole s with
        | 0 => true
        | 2 => s.course.childrenSet
        | 3 => s.course.policySet
        | _ => false)

/-- A paused course engine opens nothing: what would open a course is held until the DRAIN commit has ended (R97). -/
def holdOpen (o : Opening) (s : State) : State := s.setCourse { s.course with heldOpens := s.course.heldOpens ++ [o] }

/-- PERIOD_S after the previous COURSE_OPEN. -/
def execPeriodicCourse (s : State) : Host.Outcome State Fault Refusal :=
  .next (thawed s <| if running s && periodicHere s then (if coursePaused s then holdOpen .periodic s else autoOpen 1 s) else s)

/-- The root opens an early course unless one is open or opened within EARLY_MIN_GAP_S. -/
def earlyOpen (s : State) : State :=
  let t := now s 0x41
  let soon := match s.course.lastEarly with
    | some x => decide (t < x + s.course.policy.earlyGap * 1000000000)
    | none => false
  if soon || courseLive s then logPolicy 0x41 2 6 2 s.course.highId s.course.highId s
  else
    let s' := autoOpen 2 s
    if courseLive s' then s'.setCourse { s'.course with lastEarly := some t } else s'

/-- A request for an early course goes toward the root, or is acted on there. -/
def requestEarly (counter rate : Nat) (s : State) : State :=
  if fenceRoot s then (if coursePaused s then holdOpen .early s else earlyOpen s) else sendUp (.earlyRequest counter rate) s

/-- Rate of a counter in milli-events per second over its 16 buckets. -/
def warnRate (s : State) (i : Nat) : Nat := 1000 * ((s.course.buckets.getD i []).sum) / s.course.policy.window

/-- A bucket of the warning window ends (R332, R333). -/
def execBucketBoundary (s : State) : Host.Outcome State Fault Refusal :=
  .next (thawed s <| 
    let s := s.setCourse { s.course with
      buckets := (List.range 4).map (fun i => (s.course.present.getD i 0 :: s.course.buckets.getD i []).take 16),
      present := [0, 0, 0, 0] }
    if !s.course.policy.early then s
    else (List.range 4).foldl (fun s i =>
      if s.course.policy.thresh.getD i 0 ≤ warnRate s i then
        requestEarly i (warnRate s i) (logPolicy 0x41 2 1 i (s.course.policy.thresh.getD i 0) (warnRate s i) s)
      else s) s)

/-- An early-course request arrives from a child. -/
def execEarlyRequest (child counter rate : Nat) (s : State) : Host.Outcome State Fault Refusal :=
  .next (thawed s <| if child = deviceIndex s then s else requestEarly counter rate s)

/-- A member receives the open (R298); it refuses a format that it does not write (R33). -/
def openMessage (source id step label format trigger : Nat) (s : State) : State :=
    if courseLive s || !(format == 3 || format == ownFormat) || (match ownStep s with | some x => decide (step < x) | none => false) then sendDomain source (.openRefused id) s
    else match ensureFrames s with
      | none => sendDomain source (.openRefused id) s
      | some s => settle (sendDown (.courseOpen id step label format trigger) (openRun id step label format trigger s))

/-- COURSE_OPEN arrives from the parent. -/
def execCourseOpenMessage (source id step label format trigger : Nat) (s : State) : Host.Outcome State Fault Refusal :=
  .next (thawed s <| if coursePaused s then holdOpen (.message source id step label format trigger) s
    else openMessage source id step label format trigger s)

/-! ### The fence (R299 to R306) -/

/-- The queue pairs that a STEP_DONE names. -/
def stepQueues (c : Ctx) (s : State) (id : Nat) : List Nat :=
  let mine := fun (q : Cqp) => if c.iss.kind = 4 then q.endpoint == c.iss.fid else q.owner == c.iss.owner
  if id = 0xFFFFFFFF then (s.tab.cqps.filter (fun e => mine e.2)).map (·.1)
  else match cqpOf s id with
    | some q => if mine q || c.iss.priv then [id] else []
    | none => []

/-- A queue pair's report: the highest step done and the tail as it stands (R301). -/
def reportStep (step : Nat) (n : Nat) (s : State) : State :=
  updCqp n (fun q =>
    let tail := q.fetched + q.unread.length
    let rises := match q.stepDone with | some x => decide (x < step) | none => true
    { q with stepDone := some (max step (q.stepDone.getD 0)), sampled := tail,
             samples := if rises then q.samples ++ [(step, tail)] else q.samples }) s

/-- Fence clients among some queue pairs are all done. -/
def clientsDone (s : State) (qs : List Nat) : Bool := ((crun s).clients.filter (fun c => qs.contains c.2)).all (clientDone s)

/-- STEP_DONE (R300). -/
def hStepDone : Handler := fun c s =>
  let step := c.p 0 4
  let id := c.p 4 4
  let qs := stepQueues c s id
  checked s [(id != 0xFFFFFFFF && qs.isEmpty, stBadHandle, dtField 4)]
    (let before := clientsDone s qs
     let s1 := qs.foldl (fun s n => reportStep step n s) (warn 3 (c.p 8 2) s)
     let s1 := if c.iss.kind = 4 then s1.setCourse { s1.course with regions := s1.course.regions.map (fun g =>
         if g.endpoint = c.iss.fid then { g with done := some (max step (g.done.getD 0)) } else g) } else s1
     let finished := courseLive s1 && !before && clientsDone s1 qs
     Res.ok (settle s1) false (layout 8 [(0, 4, if courseLive s then (crun s).id else 0), (4, 4, bit finished)]))

/-- A child's FENCE_UP; or, with a detail, what it answers in its place: STEP_PASSED, its refusal of the open, which goes up to the
root, or the course's abort there. -/
def execFenceUp (child id : Nat) (peerStep ended : Option Nat) (s : State) : Host.Outcome State Fault Refusal :=
  .next (thawed s <| if courseLive s && (crun s).id == id then
      match ended with
      | some d => if d = 0x0100 ∧ !fenceRoot s then sendUp (.openRefused id) s else settle (abortCourse d s)
      | none => settle (updRun (fun r => { r with ups := if r.ups.contains child then r.ups else r.ups ++ [child] })
        (notePeer child peerStep s))
    else s)

/-- FENCE_RELEASE closes the fence of this member's sharded tables; with a detail, the parent passes down the course's abort. -/
def execFenceRelease (id : Nat) (ended : Option Nat) (s : State) : Host.Outcome State Fault Refusal :=
  .next (thawed s <| if courseLive s && (crun s).id == id then
      match ended with
      | some d => settle (abortCourse d s)
      | none => settle (toCapturing (updRun (fun r => { r with domainClosed := true }) (sendDown (.fenceRelease id) s)))
    else s)

/-- A tenant's fence closes once every client is done; a domain of one device closes its domain fence in the same way. -/
def execFenceClose (tenant : Nat) (domain : Bool) (s : State) : Host.Outcome State Fault Refusal :=
  .next (thawed s <| if !courseLive s then s
    else if domain then
      (if !hasTree s && (domainTenants s).all (tenantDone s) && !fwdPending s then
         settle (toCapturing (updRun (fun r => { r with domainClosed := true }) s)) else s)
    else if tenantDone s tenant && !(crun s).closed.contains tenant then
      settle (toCapturing (updRun (fun r => { r with closed := r.closed ++ [tenant] }) s))
    else s)

/-- FENCE_TIMEOUT_MS have passed since COURSE_OPEN and a fence is still open. -/
def execFenceTimeout (s : State) : Host.Outcome State Fault Refusal :=
  .next (thawed s <| if courseLive s && (crun s).status == 1 then settle (abortCourse 0x0105 s) else s)

/-! ### The walker and the destinations -/

/-- The walker captures the next block (R307, R311). -/
def execCaptureBlock (faults : List LineFault) (s : State) : Host.Outcome State Fault Refusal :=
  .next (thawed s <| let s := lineFaults faults s
         match nextCapture s with
         | some b => settle (captureBlock b s)
         | none => s)

/-- Bytes of staging in use: those of staged regions whose shards are not durable yet, at most what the staging holds (R335). -/
def stagingUsed (s : State) : Nat :=
  min (s.course.policy.stagingGib * 2 ^ 30) ((((crun s).shards.filter (fun h => h.region == 4 && h.durable.isEmpty)).map
    (fun h => h.rowCount * h.rowBytes)).sum)

/-- The staging is full, and a pull waits (R336). -/
def stagingFull (s : State) : Bool := decide (s.course.policy.stagingGib * 2 ^ 30 ≤ stagingUsed s)

/-- The shards of a staged region are all durable: nothing of it is left in staging (R335). -/
def freeStaged (s : State) : State :=
  s.setCourse { s.course with regions := s.course.regions.map (fun g =>
    if g.staged && (crun s).shards.all (fun h => !(h.region == 4 && h.handle == g.id) || !h.durable.isEmpty) then { g with data := [] } else g) }

/-- A shard is durable on a destination. -/
def execShardWriteComplete (shard dest : Nat) (s : State) : Host.Outcome State Fault Refusal :=
  .next (thawed s <| match (crun s).shards.find? (fun h => h.number == shard) with
    | some h =>
      if courseLive s && has h.sent dest && !h.durable.contains dest then
        settle (freeStaged (updRun (fun r => { r with drained := r.drained + h.dataOffset + h.rowCount * h.rowBytes })
          (updShard shard (fun h => { h with durable := h.durable ++ [dest] }) s)))
      else s
    | none => s)

/-- Data of a shard: of its captured rows, or of its part of a staged region. -/
def shardBytes (s : State) (h : Shard) : Bytes :=
  if h.region = 4 then
    match s.course.regions.find? (fun g => g.id == h.handle) with
    | some g => (g.data.drop (h.firstRow * 4096)).take (h.rowCount * 4096)
    | none => []
  else shardData s h

/-- A destination fails for the course (R338): in STRIPE mode its unfinished shards go to the others. -/
def destFailed (dest : Nat) (s : State) : State :=
  let s := updRun (fun r => { r with failed := if r.failed.contains dest then r.failed else r.failed ++ [dest] }) s
  if (liveDests s).isEmpty then abortCourse 0x0106 s
  else
    let lost := (crun s).shards.filter (fun h => has h.sent dest && !h.durable.contains dest)
    lost.foldl (fun s h =>
      if !courseLive s then s
      else
        let s := updShard h.number (fun h => { h with sent := del h.sent dest }) s
        if s.course.policy.destMode = 1 then s else sendOut h (shardBytes s h) s) s

/-- A shard's write to a destination fails: retried at the same place up to 3 times (R323). -/
def execShardWriteFailed (shard dest : Nat) (s : State) : Host.Outcome State Fault Refusal :=
  .next (thawed s <| match (crun s).shards.find? (fun h => h.number == shard) with
    | some h =>
      (match look h.sent dest with
       | some off =>
         if !courseLive s || h.durable.contains dest then s
         else if lookD h.retries dest 0 < 3 then
           writeShard (destKey (destAt s dest)) off h
             (updShard shard (fun h => { h with retries := put h.retries dest (lookD h.retries dest 0 + 1) }) s)
         else settle (destFailed dest s)
       | none => s)
    | none => s)

/-- The shards of a staged region: rows of 4 KiB pages. -/
def accelShards (s : State) (g : AccelRegion) : List Shard :=
  let p := s.course.policy
  let d := if sealing s then dataOffsetSealed p.shardMib else dataOffset p.shardMib
  let R := max 1 ((p.shardMib * 2 ^ 20 - d) / 4096)
  let pages := g.length / 4096
  let base := (crun s).shards.length
  (List.range (ceilDiv pages R)).map (fun k =>
    { number := base + k, table := 0, handle := g.id, domainId := 0, region := 4, format := 0xFF, index := k, firstRow := k * R,
      localRow := 0, rowCount := min R (pages - k * R), rowBytes := 4096, dim := 0, dataOffset := d,
      chunks := ceilDiv (min R (pages - k * R) * 4096) 4194304 })

/-- The first region, in registration order, whose pull is not complete. -/
def nextPull (s : State) : Option AccelRegion := s.course.regions.find? (fun g => g.inCourse && !g.staged)

/-- The last byte of a region is in staging, which had room for it: the release record is written and the shards are drained (R335). -/
def execRegionPullComplete (region : Nat) (data : Bytes) (s : State) : Host.Outcome State Fault Refusal :=
  .next (thawed s <| match nextPull s with
    | some g =>
      if courseLive s && g.id == region && !stagingFull s && (match g.done with | some x => decide ((crun s).step ≤ x) | none => false) then
        let s := updRegion region (fun g => { g with staged := true, data := data, seq := (g.seq + 1) % 65536 }) s
        let s := dmaOut g.endpoint g.notify (regionRecord g (crun s).id (crun s).step 0) s
        let hs := accelShards s g
        let s := updRun (fun r => { r with shards := r.shards ++ hs }) s
        settle (hs.foldl (fun s h => if courseLive s then sendOut h (shardBytes s h) s else s) s)
      else s
    | none => s)

/-! ### Commit (R329, R330) -/

/-- A child's COMMIT_UP. -/
def execCommitUp (child id : Nat) (entries : List (Nat × Nat × Nat × Bytes)) (s : State) : Host.Outcome State Fault Refusal :=
  .next (thawed s <| if courseLive s && (crun s).id == id && !(crun s).upsCommit.contains child then
      settle (updRun (fun r => { r with upsCommit := r.upsCommit ++ [child], members := r.members ++ entries.map (fun e =>
        { device := e.1, shards := e.2.1, length := e.2.2.1, digest := e.2.2.2 }) }) s)
    else s)

/-- The root's record is durable on a destination that holds no shard of it: that area's earlier course is freed once the course is committed. -/
def lateLedger (dest : Nat) (s : State) : State :=
  let r := crun s
  let k := destKey (destAt s dest)
  let s := setLedger k (ledgerFor s true dest r.manifest (lookD r.manifestOff dest 0)) s
  let s := if r.status = 4 then setArea k (trimArea (areaOf s k)) s else s
  updRun (fun r => { r with ledgerRest := r.ledgerRest.filter (· != dest) }) s

/-- The root's ledger record is durable on a destination; on the last one that holds shards of the root the course is committed (R329). -/
def execRootLedgerDurable (dest : Nat) (s : State) : Host.Outcome State Fault Refusal :=
  .next (thawed s <| if courseLive s && (crun s).ledgerDue.contains dest then
      let r := crun s
      let s := setLedger (destKey (destAt s dest)) (ledgerFor s true dest r.manifest (lookD r.manifestOff dest 0)) s
      let s := updRun (fun r => { r with ledgerDue := r.ledgerDue.filter (· != dest) }) s
      if (crun s).ledgerDue.isEmpty then settle (courseCommitted (sendDown (.commitRelease r.id r.manifest) s)) else s
    else if (courseLive s || (crun s).status == 4) && (crun s).ledgerRest.contains dest then lateLedger dest s
    else s)

/-- A member receives the course manifest: it writes it and its own ledger record, and the course is committed here; where its area is full the course
aborts (R338). -/
def execCommitRelease (id : Nat) (manifest : Bytes) (s : State) : Host.Outcome State Fault Refusal :=
  .next (thawed s <| if courseLive s && (crun s).id == id && (crun s).commitSent && !fenceRoot s then
      let w := writeEverywhere manifest (liveDests s) s
      if !courseLive w.2 then settle w.2 else
      let s := w.2
      let s := (liveDests s).foldl (fun s i =>
        let r := ledgerFor s false i manifest (lookD w.1 i 0)
        setLedger (destKey (destAt s i)) r (emitLedger (destKey (destAt s i)) r s)) s
      settle (courseCommitted (sendDown (.commitRelease id manifest) s))
    else s)

/-! ### Status, abort, regions, capture policy -/

/-- CE_ABORT_REQ.ABORT (R342, R343). -/
def ceAbortReq (who : Requester) (v : Nat) (s : State) : State :=
  if !trusted who then countUnmapped (blkBase blkCourse + 0x128) s
  else if v.testBit 0 && fenceRoot s && courseLive s then settle (abortCourse 0x010B s) else s

def execCeAbortReq (who : Requester) (value : CsrWord) (s : State) : Host.Outcome State Fault Refusal :=
  .next (ceAbortReq who value.toNat s)

/-- COURSE_ABORT (R80, R338). -/
def hCourseAbort : Handler := fun c s =>
  checked s
    [(!courseLive s || (c.p 0 4 != 0 && c.p 0 4 != (crun s).id), stBadHandle, dtField 0),
     (!fenceRoot s, stConflict, 0x0102)]
    (Res.ok (settle (abortCourse 0x010B s)) false (layout 8 [(0, 4, (crun s).id), (4, 4, 5)]))

/-- Blocks of the course that are captured. -/
def blocksCaptured (s : State) : Nat :=
  (crun s).total - (if courseLive s then (s.mem.blocks.filter (fun b => !b.captured)).length else 0)

/-- Bytes that COURSE_STATUS reports. -/
def courseStatus (s : State) : Bytes :=
  let r := crun s
  layout 128 [(0, 4, r.id), (4, 4, r.step), (8, 2, r.status), (0xA, 2, r.detail), (0xC, 4, fencePending s), (0x10, 8, r.total),
    (0x18, 8, blocksCaptured s), (0x20, 8, r.cbu), (0x28, 8, r.spill.length), (0x30, 8, s.course.spillWaits), (0x38, 8, r.drained),
    (0x40, 8, (r.shards.filter (fun h => !h.durable.isEmpty)).length)]

/-- COURSE_STATUS (R341). -/
def hCourseStatus : Handler := fun c s =>
  checked s [(c.p 0 4 != 0 && (s.course.run.isNone || c.p 0 4 != (crun s).id), stBadHandle, dtField 0)]
    (Res.ok s false (courseStatus s))

/-- LEDGER_QUERY (R341). -/
def hLedgerQuery : Handler := fun c s =>
  checked s [(decide ((dests s).length ≤ c.p 0 4), stBadHandle, dtField 0)]
    (let a := areaOf s (destKey (destAt s (c.p 0 4)))
     let rec_ := fun (r : Option LedgerRec) => match r with | some x => x.bytes | none => List.replicate 128 0
     Res.ok s false (rec_ a.slot0 ++ rec_ a.slot1))

/-- REGION_REGISTER (R334). -/
def hRegionRegister : Handler := fun c s =>
  let len := c.p 0x10 8
  let ep := c.p 0 2
  checked s
    [(!endpointLive s ep || (c.iss.kind == 4 && ep != c.iss.fid), stBadHandle, dtField 0),
     (decide (len < 4096 ∨ 2 ^ 36 < len ∨ len % 4096 ≠ 0), stBadAddress, dtField 0x10)]
    (let g : AccelRegion := { id := s.course.nextRegion, owner := c.iss.owner, endpoint := ep, addr := c.p 8 8, length := len,
                              notify := c.p 0x18 8, tag := c.p 0x20 8, joins := courseLive s }
     Res.ok (s.setCourse { s.course with regions := s.course.regions ++ [g], nextRegion := s.course.nextRegion + 1 }) false
       (layout 16 [(0, 4, g.id)]))

/-- REGION_DEREGISTER (R334, R80). -/
def hRegionDeregister : Handler := fun c s =>
  match s.course.regions.find? (fun g => g.id == c.p 0 4 && !g.leaves) with
  | none => Res.rej s stBadHandle (dtField 0)
  | some g =>
    if !mayName c g.owner then Res.rej s stBadHandle (dtField 0)
    else
      let s := if courseLive s then updRegion g.id (fun g => { g with leaves := true }) s
        else s.setCourse { s.course with regions := s.course.regions.filter (fun x => x.id != g.id) }
      Res.ok s false (layout 8 [(0, 4, g.id)])

/-- Bits of an element of a format, for the width test of R317. -/
def elemBits (fmt : Nat) : Nat := match fmt with | 0 => 32 | 1 => 16 | 2 => 16 | 6 => 6 | 7 => 4 | 9 => 4 | _ => 8

/-- Checks of a capture policy for a table (R317). -/
def capChecks (t : Tbl) (inc w f v : Nat) : List (Bool × Nat × Nat) :=
  [(decide (1 < inc), stNotPermitted, dtField 4),
   (!(w == 0xFF || decide (w ≤ 2)) || (w != 0xFF && (t.rule == 15 || decide (elemBits (weightFormat t) < elemBits w))),
    stNotPermitted, dtField 5),
   (!(f == 0xFF || f == 0 || f == 1 || f == 5)
      || (f != 0xFF && (t.rule == 15 || decide (elemBits t.stateFormat < elemBits f) || (f == 5 && t.dim % 32 != 0))),
    stNotPermitted, dtField 6),
   (decide (1 < v), stNotPermitted, dtField 7)]

/-- A table's capture policy is set, now or at the next COURSE_OPEN (R316, R91). -/
def hCapturePolicy (rolling : Bool) : Handler := fun c s =>
  match tblFor c s (c.p 0 4) with
  | none => Res.rej s stBadHandle (dtField 0)
  | some (ti, t) =>
    checked s (capChecks t (c.p 4 1) (c.p 5 1) (c.p 6 1) (c.p 7 1) ++ [(courseLive s, stBusy, dtNone)])
      (let q : CapPolicy := { include_ := c.p 4 1 == 1, weight := c.p 5 1, state := c.p 6 1, serving := c.p 7 1 == 1 }
       Res.ok (setTbl ti (if rolling then { t with capNext := some q } else q.into t) s) false
         (c.echo 64 (whole [(0, 4), (4, 1), (5, 1), (6, 1), (7, 1)]) []))

/-- TABLE_CAPTURE_POLICY. -/
def hTableCapturePolicy : Handler := hCapturePolicy false

end Sys2Proof.Machine
end

