-- ==== Sys2Proof/Machine/Restore.lean ====
section
/-! DEFINITION. Restore, re-slicing and shrinking (chapter 8): shard maps, the verification and read plan of a restore, adoption of a lost member's rows, and liveness. -/

namespace Sys2Proof.Machine

open Sys2Proof

/-! ### Shard maps (R344 to R348) -/

/-- The entries of a map's three sections, from its bytes. -/
def mapRange (b : Bytes) (i : Nat) : MapRange :=
  let o := 0x40 + 24 * i
  { table := le b o 4, owner := le b (o + 4) 2, first := le b (o + 8) 8, count := le b (o + 0x10) 8 }
def mapOriginAt (b : Bytes) : Nat := 0x40 + 24 * le b 0x10 4
def mapSourceAt (b : Bytes) : Nat := mapOriginAt b + 8 * le b 0x14 4
def mapEnd (b : Bytes) : Nat := mapSourceAt b + 16 * le b 0x18 4

/-- CRC-32C over INDEX_LIMIT, the range section and the origin section (R344). -/
def layoutCrc (b : Bytes) : Nat := (crc32c ((b.drop 0x0C).take 4 ++ (b.drop 0x40).take (mapSourceAt b - 0x40))).toNat

/-- The map that a whole byte string spells. -/
def readMap (b : Bytes) : ShardMap :=
  { id := le b 8 4, bytes := b, complete := true, thisDevice := le b 6 2, limit := le b 0xC 4, crc := le b 0x1C 4,
    ranges := (List.range (le b 0x10 4)).map (mapRange b),
    origins := (List.range (le b 0x14 4)).map (fun i => (le b (mapOriginAt b + 8 * i) 2, le b (mapOriginAt b + 8 * i + 2) 2)),
    sources := (List.range (le b 0x18 4)).map (fun i =>
      let o := mapSourceAt b + 16 * i
      { origin := le b o 2, type := le b (o + 2) 1, priority := le b (o + 3) 1, id := le b (o + 4) 4 }) }

/-- Rows, or h1 values, of a sharded table that this device holds. -/
def heldSpan (s : State) (table : Nat) : Option Nat :=
  (tblByDomain s table).map (fun e => if e.2.hashed then 2 ^ 32 else e.2.rows)

/-- Ranges follow one another without gap or overlap, table by table from row 0, and reach the end of a table held here. -/
def tiles (s : State) : Option (Nat × Nat) → List MapRange → Bool
  | none, [] => true
  | some (t, e), [] => match heldSpan s t with | some n => e == n | none => true
  | cur, r :: rest =>
    (match cur with
     | none => r.first == 0
     | some (t, e) =>
       if r.table = t then r.first == e
       else decide (t < r.table) && r.first == 0 && (match heldSpan s t with | some n => e == n | none => true))
      && tiles s (some (r.table, r.first + r.count)) rest

/-- A source or destination names a namespace or connection of this device. -/
def sourceKnown (s : State) (type id : Nat) : Bool :=
  match type with
  | 1 => has s.sto.ns id
  | 2 => has s.grt.conns id
  | 3 => true
  | _ => false

/-- The checks of a whole map, in order (R347). -/
def mapChecks (s : State) (b : Bytes) : List (Bool × Nat × Nat) :=
  let m := readMap b
  [(le b 0 4 != 0x534D4150 || b.length != mapEnd b, stBadAddress, 0x0127),
   (le b 4 2 != 1, stVersion, dtNone),
   (m.crc != layoutCrc b, stIntegrity, 0x0128),
   (!tiles s none m.ranges, stFailed, 0x0129),
   (!(decide (1 ≤ m.limit ∧ m.limit ≤ 32768) && m.ranges.all (fun r => decide (r.owner < m.limit) || r.owner == 0xFFFF)
      && m.origins.all (fun o => decide (o.2 < m.limit) || o.2 == 0xFFFF) && decide (m.thisDevice < m.limit)), stFailed, 0x0129),
   (m.sources.any (fun x => !sourceKnown s x.type x.id), stBadHandle, dtNone)]

def setElastic (f : Elastic → Elastic) (s : State) : State := s.setElastic (f s.elastic)

/-- SHARD_MAP_LOAD. -/
def hShardMapLoad : Handler := fun c s =>
  let id := c.p 0 4
  let off := c.p 4 4
  let n := c.p 8 2
  let m : ShardMap := match s.elastic.loading with
    | some m => if m.id = id then m else { id := id }
    | none => { id := id }
  checked s [(id == 0, stBadHandle, dtField 0), (decide (off ≠ m.bytes.length ∨ 2 ^ 20 < off + n), stBadAddress, dtField 4),
             (decide (4048 < n ∨ c.params.length < 16 + n), stBadAddress, dtField 8)]
    (let b := m.bytes ++ (c.params.drop 16).take n
     let keep := fun (m : ShardMap) => setElastic (fun e => { e with loading := some m }) s
     let answer := fun (m : ShardMap) => Res.ok (keep m) false
       (layout 16 [(0, 4, id), (4, 4, m.bytes.length), (8, 4, bit m.complete), (0xC, 4, le m.bytes 0x1C 4)])
     if !(c.p 0xA 2).testBit 0 then answer { m with bytes := b, complete := false }
     else match firstBad (mapChecks s b) with
       | some (st, d) => .reply (keep { id := id }) st d []
       | none => answer { readMap b with id := id })

/-- A complete map by its identifier: the one loaded, or the active one. -/
def mapById (s : State) (id : Nat) : Option ShardMap :=
  match s.elastic.loading with
  | some m => if m.id = id ∧ m.complete then some m else active
  | none => active
where
  active : Option ShardMap := match s.elastic.active with | some m => if m.id = id then some m else none | none => none

/-- A map governs ownership from now on (R348). -/
def activate (m : ShardMap) (s : State) : State :=
  setElastic (fun e => { e with active := some m, loading := match e.loading with
    | some l => if l.id = m.id then none else some l
    | none => none }) s

/-! ### The structures of a course (R325 to R328, R366) -/

/-- A slot holds a valid ledger record (R328). -/
def ledgerValid (b : Bytes) : Bool :=
  le b 0 4 == 0x4C444752 && decide (128 ≤ b.length) && le b 0x7C 4 == (crc32c (b.take 0x7C)).toNat

/-- The record of a pair of slots: the valid one of the higher SEQUENCE. -/
def ledgerPick (a b : Bytes) : Option Bytes :=
  match ledgerValid a, ledgerValid b with
  | true, true => some (if le a 8 8 < le b 8 8 then b else a)
  | true, false => some a
  | false, true => some b
  | _, _ => none

/-- The record of the sources: the first of those of the highest course. -/
def ledgerBest : List (Bytes × Bytes) → Option Bytes
  | [] => none
  | p :: r => match ledgerPick p.1 p.2, ledgerBest r with
    | some a, some b => some (if le a 0x10 4 < le b 0x10 4 then b else a)
    | some a, none => some a
    | none, x => x

/-- Sizes of the parts of a device manifest. -/
def manEntry (b : Bytes) : Nat := if le b 4 2 = 2 then 96 else 128
def manTables (b : Bytes) : Nat := le b 0x14 4
def manShards (b : Bytes) : Nat := le b 0x18 4
def manRollbacks (b : Bytes) : Nat := if le b 4 2 = 2 then 0 else le b 0x1C 4
def manRegions (b : Bytes) : Nat := if le b 4 2 = 2 then 0 else le b 0x20 4
def manShardAt (b : Bytes) : Nat := 128 + 192 * manTables b
def manRollAt (b : Bytes) : Nat := manShardAt b + manEntry b * manShards b
def manRegionAt (b : Bytes) : Nat := manRollAt b + 32 * manRollbacks b

/-- A signature of 96 bytes at the end verifies under a domain course key held here (R351). -/
def signedByDomain (s : State) (b : Bytes) : Bool :=
  let body := b.take (b.length - 96)
  (domainKeys s).any (fun k => Config.verifySig (Config.deriveKey k signLabel) body
    (b.drop (b.length - 96)))

/-- The digest that a course manifest gives for a device's manifest. -/
def memberDigest (m : Bytes) (dev : Nat) : Option Bytes :=
  ((List.range (le m 0x10 4)).find? (fun i => le m (64 + 64 * i) 2 == dev)).map (fun i => (m.drop (64 + 64 * i + 0x10)).take 48)

def digest48 (b : Bytes) : Bytes := (Config.sha384 b ++ List.replicate 48 0).take 48

/-! ### The plan (R354 to R356) -/

/-- What a restore is made from: its ledger record, course manifest and device manifests, and the map it names. -/
structure RestoreSet where
  ledger : Bytes
  course : Bytes
  devices : List (Nat × Bytes)
  map : Option ShardMap
  thisDevice : Nat
  tenant : Nat
  sources : List MapSource
  /-- the ledger record of each origin whose device manifest was found through it -/
  records : List (Nat × Bytes) := []
  deriving DecidableEq, Repr

/-- This device in the new layout. -/
def RestoreSet.self (r : RestoreSet) : Nat := match r.map with | some m => m.thisDevice | none => r.thisDevice

/-- Runs, in ascending order of their first rows, with those that touch or overlap joined. -/
def joinRuns : List (Nat × Nat) → List (Nat × Nat)
  | [] => []
  | x :: rest => match joinRuns rest with
    | [] => [x]
    | y :: l => if y.1 ≤ x.1 + x.2 then (x.1, max (x.1 + x.2) (y.1 + y.2) - x.1) :: l else x :: y :: l

/-- The rows of a sharded table that an origin's weight shards hold in a course. -/
def courseRuns (b : Bytes) (dom : Nat) : List (Nat × Nat) :=
  joinRuns (sortBy (fun a b => decide (a.1 ≤ b.1)) ((List.range (manShards b)).filterMap (fun i =>
    let o := manShardAt b + manEntry b * i
    if le b (o + 8) 4 = dom ∧ le b (o + 0xC) 1 = 0 ∧ le b (o + 0x18) 8 ≠ 0 then some (le b (o + 0x10) 8, le b (o + 0x18) 8) else none)))

/-- Ranges of a sharded table that this device owns under the restore's layout: those the map gives it, or without a map those that the origin it
takes over held in the course. The key ranges of a hashed table, which no manifest holds, are those of the layout in force here (DEDUCED, log 214). -/
def RestoreSet.owned (r : RestoreSet) (s : State) (dom rows : Nat) (hashed : Bool) : List (Nat × Nat) :=
  match r.map with
  | some m => (m.ranges.filter (fun x => x.table == dom && x.owner == m.thisDevice && x.count != 0)).map (fun x => (x.first, x.count))
  | none =>
    if hashed then ((tableRanges s dom rows hashed).filter (fun x => x.1 == r.thisDevice && x.2.2 != 0)).map (·.2)
    else courseRuns (lookD r.devices r.thisDevice []) dom

/-- The block of a table in a device manifest, as TABLE_CREATE takes it (R355). -/
def manBlock (b : Bytes) (i : Nat) : Bytes :=
  let t := (b.drop (128 + 192 * i)).take 128
  setLe (setLe (setLe t 0x4C 4 0) 0x50 8 0) 0x58 4 0
def manHandle (b : Bytes) (i : Nat) : Nat := le b (128 + 192 * i + 0x4C) 4

/-- A TABLE_CREATE on behalf of the tenant. -/
def createCtx (block : Bytes) (tenant : Nat) : Ctx :=
  { via := .ring tenant, pkt := { opcode := 0x0200, paramLen := 128, params := block },
    iss := { kind := tenant / 0x1000, fid := tenant, priv := false, owner := tenant }, sess := none }

/-- The tables of one origin that this device restores, with their creation contexts. -/
def originTabs (r : RestoreSet) (s : State) (o : Nat × Bytes) : List (Ctx × RestTab) :=
  (List.range (manTables o.2)).filterMap (fun i =>
    let c := createCtx (manBlock o.2 i) r.tenant
    let t := createTbl c s
    if t.sharded then
      (let rs := r.owned s t.domainId t.rows t.hashed
       if rs.isEmpty then none
       else
         let t := { t with ranges := rs }
         some (c, { origin := o.1, handle := manHandle o.2 i, tbl := { t with localRows := heldRows t, visible := false } }))
    else
      let mine := match r.map with
        | some m => m.origins.any (fun x => x.1 == o.1 && x.2 == m.thisDevice)
        | none => o.1 == r.thisDevice
      if mine then some (c, { origin := o.1, handle := manHandle o.2 i, tbl := { t with visible := false } }) else none)

/-- Every table this device restores; a sharded table once, from the first origin that holds it. -/
def restTabs (r : RestoreSet) (s : State) : List (Ctx × RestTab) :=
  (r.devices.map (originTabs r s)).flatten.foldl (fun acc x =>
    if x.2.tbl.sharded && acc.any (fun y => y.2.tbl.sharded && y.2.tbl.domainId == x.2.tbl.domainId) then acc else acc ++ [x])
    ([] : List (Ctx × RestTab))

/-- DOMAIN_TABLE_ID of every sharded table that the course holds, by the manifests found. -/
def courseDomains (r : RestoreSet) : List Nat :=
  (r.devices.map (fun o => (List.range (manTables o.2)).filterMap (fun i =>
    let b := manBlock o.2 i
    if (le b 0x14 1).testBit 1 then some (le b 0x48 4) else none))).flatten

/-- Captured bytes per row of a shard, from its region, format and columns. -/
def shardRowBytes (t : Tbl) (region fmt cols : Nat) : Nat :=
  let whole := decide (cols = t.dim)
  match region with
  | 0 => if fmt = 0xFF ∨ (fmt = weightFormat t ∧ whole) then regionRow t 0 else roundUp 16 (rowBytesOf fmt cols)
  | 1 => if fmt = 0xFF ∨ (fmt = t.stateFormat ∧ whole) then t.stateBytes
         else if t.rule = 3 then 16 else roundUp 16 (stateVectors t.rule * rowBytesOf fmt cols)
  | 2 => if whole then t.rowBytes else roundUp 16 (rowBytesOf fmt cols)
  | 3 => 8
  | _ => 4096

/-- Overlap of two runs, (first, count). -/
def overlap (a b : Nat × Nat) : Option (Nat × Nat) :=
  let lo := max a.1 b.1
  let hi := min (a.1 + a.2) (b.1 + b.2)
  if lo < hi then some (lo, hi - lo) else none

def chunkBytes : Nat := 4194304

/-- Chunks of a shard that hold the rows of some runs. -/
def chunksFor (firstRow rowBytes : Nat) (need : List (Nat × Nat)) : List Nat :=
  need.foldl (fun acc n =>
    let lo := (n.1 - firstRow) * rowBytes / chunkBytes
    let hi := ((n.1 - firstRow + n.2) * rowBytes - 1) / chunkBytes
    acc ++ ((List.range (hi - lo + 1)).map (lo + ·)).filter (fun j => !acc.contains j)) ([] : List Nat)

/-- A shard entry of 128 bytes, or of 96 in format 2, as a shard of the plan (R325, R366); its table's number and its needs come with the table. -/
def shardAt (f2 : Bool) (origin : Nat) (e : Bytes) : PlanShard :=
  { origin := origin, index := le e 0 4, handle := le e 4 4, tab := le e 8 4, region := le e 0xC 1,
    format := le e 0xD 1, firstRow := le e 0x10 8, rowCount := le e 0x18 8, rowBytes := 0,
    colStart := if f2 then 0 else le e 0x20 2, colCount := if f2 then 0 else le e 0x22 2,
    entryCols := if f2 then none else some (le e 0x20 2, le e 0x22 2), dataOffset := 0,
    length := if f2 then le e 0x28 8 else le e 0x30 8, mask := if f2 then 255 else le e 0xE 1,
    mark := (e.drop (if f2 then 0x30 else 0x38)).take 48 }

/-- A shard entry of a device manifest. -/
def manShard (b : Bytes) (origin : Nat) (i : Nat) : PlanShard :=
  let o := manShardAt b + manEntry b * i
  let f2 := decide (le b 4 2 = 2)
  shardAt f2 origin (b.drop o)

/-- A shard whose columns, row size and data offset are completed from its table, until its header gives them. -/
def fitShard (t : Tbl) (h : PlanShard) : PlanShard :=
  let cols := if h.colCount = 0 then t.dim else h.colCount
  let b := shardRowBytes t h.region h.format cols
  { h with colCount := cols, rowBytes := b, dataOffset := h.length - h.rowCount * b }

/-- The shards of one table that the plan reads. -/
def tabShards (r : RestoreSet) (num : Nat) (x : RestTab) (srcs : Nat → Nat → List MapSource) : List PlanShard :=
  let t := x.tbl
  (r.devices.map (fun o => (List.range (manShards o.2)).filterMap (fun i =>
    let h := manShard o.2 o.1 i
    let mine := decide (h.region ≤ 3) && (if t.sharded then h.tab == t.domainId else o.1 == x.origin && h.handle == x.handle)
    if !mine then none
    else
      let h : PlanShard := { fitShard t h with tab := num, sources := srcs o.1 h.mask }
      if t.sharded && t.hashed && h.region != 3 then some { h with keyed := true }
      else
        let need := if t.sharded && !t.hashed then t.ranges.filterMap (overlap (h.firstRow, h.rowCount))
                    else if h.rowCount = 0 then [] else [(h.firstRow, h.rowCount)]
        if need.isEmpty then none else some { h with need := need, chunks := chunksFor h.firstRow h.rowBytes need }))).flatten

/-- The sources that hold a shard: source i of an origin stands for its destination i (DEDUCED, log 214). -/
def masked (mask : Nat) (l : List MapSource) : List MapSource := (l.zipIdx.filter (fun x => mask.testBit x.2)).map (·.1)

/-- Sources of an origin that hold a shard, in order of trial: those the map gives it, or the course's own areas (R344, R353, R366). -/
def originSources (r : RestoreSet) (o mask : Nat) : List MapSource :=
  match r.map with
  | some m => sortBy (fun a b => decide (a.priority ≤ b.priority)) (masked mask (m.sources.filter (fun x => x.origin == o)))
  | none => masked mask r.sources

/-- Accelerator regions of the course, by origin, tag, length and shards (R359). -/
def manRegionList (r : RestoreSet) : List (Nat × Nat × Nat × Nat) :=
  (r.devices.map (fun o => (List.range (manRegions o.2)).map (fun i =>
    let a := manRegionAt o.2 + 64 * i
    (o.1, le o.2 a 4, le o.2 (a + 8) 8, le o.2 (a + 0x10) 8)))).flatten

/-- The registration here that a region of the course is restored onto. -/
def regionHere (s : State) (tag len : Nat) : Option AccelRegion := s.course.regions.find? (fun g => g.tag == tag && g.length == len)

/-- The region shards that the plan reads. -/
def regionPlan (r : RestoreSet) (s : State) : List PlanShard :=
  ((manRegionList r).map (fun g =>
    match regionHere s g.2.2.1 g.2.2.2, look r.devices g.1 with
    | some a, some b => (List.range (manShards b)).filterMap (fun i =>
        let h : PlanShard := manShard b g.1 i
        if h.region = 4 ∧ h.handle = g.2.1 then
          let need := if h.rowCount = 0 then [] else [(h.firstRow, h.rowCount)]
          let h : PlanShard :=
            { h with tab := a.id, rowBytes := 4096, dataOffset := h.length - h.rowCount * 4096, need := need,
                     sources := originSources r g.1 h.mask }
          some { h with chunks := chunksFor h.firstRow 4096 h.need }
        else none)
    | _, _ => [])).flatten

/-- Rows of restored tables that the course lists as lost (R358): origin, table number, row here (of a hashed sharded table, row of the origin),
cause. -/
def lostInCourse (r : RestoreSet) (tabs : List RestTab) : List (Nat × Nat × Nat × Nat) :=
  (r.devices.map (fun o => ((List.range (manRollbacks o.2)).map (fun i =>
    let a := manRollAt o.2 + 32 * i
    if le o.2 (a + 0x10) 4 ≠ 0 then [] else
    (tabs.zipIdx.map (fun x =>
      let rows := (List.range (le o.2 (a + 4) 4)).map (le o.2 (a + 8) 8 + ·)
      let named := (List.range (manTables o.2)).any (fun j => manHandle o.2 j == le o.2 a 4
        && (if x.1.tbl.sharded then le o.2 (128 + 192 * j + 0x48) 4 == x.1.tbl.domainId
            else o.1 == x.1.origin && manHandle o.2 j == x.1.handle))
      if !named then []
      else if x.1.tbl.sharded && !x.1.tbl.hashed then
        (rows.filterMap (localOf x.1.tbl.ranges)).map (fun w => (o.1, x.2, w, le o.2 (a + 0x18) 4))
      else rows.map (fun w => (o.1, x.2, w, le o.2 (a + 0x18) 4)))).flatten)).flatten)).flatten

/-! ### Columns (R356) -/

/-- Columns of a run of columns that some intervals leave open. -/
def columnsCovered (dim : Nat) (parts : List (Nat × Nat)) : Bool :=
  (List.range dim).all (fun c => parts.any (fun p => decide (p.1 ≤ c ∧ c < p.1 + p.2)))

/-- All columns of a row lie in some shards. -/
def rowCovered (t : Tbl) (hs : List PlanShard) (y : Nat) : Bool :=
  columnsCovered t.dim ((hs.filter (fun h => decide (h.firstRow ≤ y ∧ y < h.firstRow + h.rowCount))).map (fun h => (h.colStart, h.colCount)))

/-- Regions that a course must give a table, of the shards that hold it: a serving copy where one was captured. -/
def courseRegions (t : Tbl) (hs : List PlanShard) : List Nat :=
  ([0, 1, 3].filter (fun g => regionRow t g != 0)) ++ (if hs.any (fun h => h.region == 2) then [2] else [])

/-- Every needed row of a table whose rows are numbered alike in the course and here has all its columns; rows between two starts of needs or shards
are covered alike. -/
def rowsCovered (plan : List PlanShard) (num : Nat) (t : Tbl) : Bool :=
  let mine := plan.filter (fun h => h.tab == num && h.region != 4)
  let need := if t.sharded then t.ranges else [(0, t.rows)]
  (courseRegions t mine).all (fun g =>
    let hs := mine.filter (fun h => h.region == g)
    need.all (fun n =>
      let marks := n.1 :: (hs.map (fun h => [h.firstRow, h.firstRow + h.rowCount])).flatten.filter (fun y => decide (n.1 ≤ y ∧ y < n.1 + n.2))
      marks.all (rowCovered t hs)))

/-! ### Verification (R351) -/

/-- Members of a course that wrote shards, as its course manifest lists them (R326). -/
def courseMembers (b : Bytes) : List Nat :=
  (List.range (le b 0x10 4)).filterMap (fun i => if le b (64 + 64 * i + 4) 4 = 0 then none else some (le b (64 + 64 * i) 2))

/-- Rows that this device owns under the map may lie in shards of origins whose manifests were not found: a table that no manifest found holds, a
hashed table, whose key shards are read of every origin, or a row that the shards found do not cover (R351 step 4, R356). -/
def RestoreSet.open_ (r : RestoreSet) (m : ShardMap) (tabs : List RestTab) (plan : List PlanShard) : Bool :=
  m.ranges.any (fun x => x.owner == m.thisDevice && x.count != 0 && !tabs.any (fun y => y.tbl.sharded && y.tbl.domainId == x.table))
    || tabs.zipIdx.any (fun x => x.1.tbl.sharded && (x.1.tbl.hashed || !rowsCovered plan x.2 x.1.tbl))

/-- Origins whose device manifests are needed: those whose local tables this device takes, and those that may hold rows it owns (R351 step 4, R354). -/
def RestoreSet.needed (r : RestoreSet) (tabs : List RestTab) (plan : List PlanShard) : List Nat :=
  match r.map with
  | some m => (m.origins.filter (fun o => o.2 == m.thisDevice)).map (·.1) ++ (if r.open_ m tabs plan then courseMembers r.course else [])
  | none => [r.thisDevice]

/-- The checks of the course's structures, for the origins whose shards or tables the plan uses; a device manifest that is needed and was not found
fails as one whose digest differs does (DEDUCED, log 214). -/
def verifyChecks (s : State) (r : RestoreSet) (used : List Nat) (tabs : List RestTab) (plan : List PlanShard) : List (Bool × Nat × Nat) :=
  let devs := r.devices.filter (fun o => used.contains o.1)
  let records := (r.records.filter (fun o => used.contains o.1)).map (·.2)
  [(digest48 r.course != (r.ledger.drop 0x30).take 48, stIntegrity, 0x0121),
   (!signedByDomain s r.course, stIntegrity, 0x0122),
   ((r.needed tabs plan).any (fun o => (look r.devices o).isNone), stIntegrity, 0x0121)]
  ++ (devs.map (fun o => [(memberDigest r.course o.1 != some (digest48 o.2), stIntegrity, 0x0121),
                          (!signedByDomain s o.2, stIntegrity, 0x0122)])).flatten
  ++ [(le r.course 8 4 != le r.ledger 0x10 4 || le r.course 0xC 4 != le r.ledger 0x14 4
        || devs.any (fun o => le o.2 8 4 != le r.ledger 0x10 4 || le o.2 0xC 4 != le r.ledger 0x14 4)
        || records.any (fun l => le l 0x10 4 != le r.ledger 0x10 4 || le l 0x14 4 != le r.ledger 0x14 4), stIntegrity, 0x0121)]

/-- The restore is under way: verifying or reading. -/
def restoreLive (s : State) : Bool :=
  match s.elastic.restore with | some r => r.state == 1 || r.state == 2 | none => false

/-- The source areas a RESTORE_BEGIN names, or the destinations of the course policy (R349). -/
def beginSources (c : Ctx) (s : State) : List MapSource :=
  let n := clampN 0 4 (c.p 0xC 1)
  if n = 0 then (dests s).map (fun d => { origin := 0, type := d.type, priority := 0, id := d.id })
  else (List.range n).map (fun i => { origin := 0, type := c.p (0x20 + 8 * i) 1, priority := i, id := c.p (0x24 + 8 * i) 4 })

/-- The condition checks of R350 that need no ledger record. A map with a range of no owner, which R344 allows only in a map used by SHARD_ADOPT,
fails as R347's check of its owners does (DEDUCED, log 214). -/
def beginChecks (c : Ctx) (s : State) : List (Bool × Nat × Nat) :=
  let t := c.p 8 2
  let src := beginSources c s
  [(c.p 4 4 != 0 && (mapById s (c.p 4 4)).isNone, stBadHandle, 0x0127),
   (!(decide (t < 0x2000) && (fnOf s t).isSome), stBadHandle, dtNone),
   (decide (c.p 0x10 8 % 64 ≠ 0), stBadAddress, dtNone)]
  ++ (src.map (fun x => [(!decide (1 ≤ x.type ∧ x.type ≤ 3), stNotPermitted, dtNone),
                         (!sourceKnown s x.type x.id, stBadHandle, dtNone)])).flatten
  ++ [(restoreLive s, stBusy, 0x012F), (s.elastic.adopt.isSome, stBusy, 0x0130), (courseLive s, stConflict, 0x0104),
      (c.p 4 4 != 0 && (match mapById s (c.p 4 4) with | some m => m.ranges.any (fun x => x.owner == 0xFFFF) | none => false), stFailed, 0x0129)]

/-- The tables of a restore are created, hidden until it is complete; none where they do not fit. -/
def buildTabs : List RestTab → State → Option (List RestTab × State)
  | [], s => some ([], s)
  | x :: r, s => (buildTable x.tbl s).bind (fun b => (buildTabs r b.2.2).map (fun y =>
      ({ x with ti := some b.1, tbl := b.2.1 } :: y.1, y.2)))

/-- Bytes that the plan reads: headers with chunk lists, and chunks. -/
def planBytes (plan : List PlanShard) : Nat :=
  (plan.map (fun h => h.dataOffset + (((h.chunks ++ h.got.map (·.1)).map (fun j =>
    min chunkBytes (h.rowCount * h.rowBytes - j * chunkBytes))).sum))).sum

/-- The restore starts with its tables and plan. -/
def startRestore (c : Ctx) (r : RestoreSet) (tabs : List (Ctx × RestTab)) (s : State) : Res :=
  let verify := (c.p 0xA 2).testBit 0
  let skip := (c.p 0xA 2).testBit 1
  match (if verify then some (tabs.map (·.2), s) else buildTabs (tabs.map (·.2)) s) with
  | none => Res.rej s stNoResource dtNone
  | some (ts, s') =>
    let plan := (ts.zipIdx.map (fun x => tabShards r x.2 x.1 (originSources r))).flatten ++ (if skip then [] else regionPlan r s)
    let regs := if skip then [] else manRegionList r
    let run : RestoreRun :=
      { id := s.elastic.nextRestore, courseId := le r.ledger 0x10 4, step := le r.ledger 0x14 4, format := le r.ledger 0x18 2,
        map := r.map, tenant := r.tenant, verifyOnly := verify, issuer := c.iss.owner, handleMap := c.p 0x10 8, tabs := ts, plan := plan,
        lost := lostInCourse r ts, bytesPlanned := planBytes plan,
        regions := regs.filterMap (fun g => (regionHere s g.2.2.1 g.2.2.2).map (·.id)),
        regionsSkipped := (regs.filter (fun g => (regionHere s g.2.2.1 g.2.2.2).isNone)).length }
    Res.ok (setElastic (fun e => { e with restore := some run, nextRestore := (e.nextRestore + 1) % 2 ^ 32 }) s') (decide (4 < c.p 0xC 1))
      (layout 32 [(0, 4, run.id), (4, 4, run.courseId), (8, 4, run.step), (0xC, 2, run.format), (0xE, 2, ts.length),
        (0x10, 4, plan.length), (0x18, 8, planBytes plan)])

/-- What a restore is made from, with the record found. The device manifest of an origin is found through the origin's own ledger record (R351 step 4). -/
def beginSet (c : Ctx) (s : State) (l : Bytes) : RestoreSet :=
  let records := c.pkt.reads.originLedgers.filterMap (fun o => (ledgerPick o.2.1 o.2.2).map (fun b => (o.1, b)))
  { ledger := l, course := c.pkt.reads.manifest, devices := c.pkt.reads.devices.filter (fun o => has records o.1), records := records,
    map := if c.p 4 4 = 0 then none else mapById s (c.p 4 4), thisDevice := c.p 0x18 4, tenant := c.p 8 2,
    sources := beginSources c s }

/-- The checks of R350 and R351 once the record is found: its course, the structures, and the room and fields of every table. -/
def beginStructChecks (c : Ctx) (r : RestoreSet) (s : State) : List (Bool × Nat × Nat) :=
  let tabs := restTabs r s
  let plan := (tabs.zipIdx.map (fun x => tabShards r x.2 x.1.2 (originSources r))).flatten ++ regionPlan r s
  let used := r.devices.filterMap (fun o =>
    if (tabs.any (fun x => x.2.origin == o.1)) || plan.any (fun h => h.origin == o.1) then some o.1 else none)
  let fmtBad := fun (b : Bytes) => decide (le b 4 2 < 2 ∨ 4 < le b 4 2)
  [(c.p 0 4 != 0 && c.p 0 4 != le r.ledger 0x10 4, stBadHandle, 0x0101),
   ((courseDomains r).any (domainHeld s), stConflict, 0x012C),
   (fmtBad r.course || (r.devices.filter (fun o => used.contains o.1)).any (fun o => fmtBad o.2 || le o.2 6 2 != 1),
    stVersion, dtNone)]
  ++ verifyChecks s r used (tabs.map (·.2)) plan ++ (tabs.map (fun x => createChecks x.1 s)).flatten

/-- RESTORE_BEGIN. -/
def hRestoreBegin : Handler := fun c s =>
  checked s (beginChecks c s)
    (match ledgerBest c.pkt.reads.ledgers with
     | none => Res.rej s stFailed 0x0120
     | some l =>
       let r := beginSet c s l
       checked s (beginStructChecks c r s) (startRestore c r (restTabs r s) s))

/-! ### Reading the plan (R352, R353, R356, R357) -/

def rrun (s : State) : RestoreRun := s.elastic.restore.getD { id := 0, state := 0 }
def updRestore (f : RestoreRun → RestoreRun) (s : State) : State :=
  setElastic (fun e => { e with restore := e.restore.map f }) s
def updPlan (i : Nat) (f : PlanShard → PlanShard) (s : State) : State :=
  updRestore (fun r => { r with plan := r.plan.zipIdx.map (fun x => if x.2 = i then f x.1 else x.1) }) s

/-- The restore ends as FAILED: its tables are destroyed (R363). -/
def failRestore (detail origin shard : Nat) (s : State) : State :=
  if !restoreLive s then s else
  let s := (rrun s).tabs.foldl (fun s x => match x.ti with | some ti => freeTable ti s | none => s) s
  settle (updRestore (fun r => { r with state := 4, detail := detail, failOrigin := origin, failShard := shard,
                                        plan := r.plan.map (fun (h : PlanShard) => { h with got := [] }) }) s)

/-- The tenant of a restore has been declared failed. -/
def restoreTenantLost (fid : Nat) (s : State) : State :=
  if restoreLive s ∧ (rrun s).tenant = fid then failRestore 0x012B 0 0 s else s

/-- A chunk is read again; a header is no chunk. -/
def readAgain (item : Nat) (s : State) : State :=
  if item = 0 then s else updRestore (fun r => { r with retries := r.retries + 1 }) s

/-- The header (item 0) or chunk j (item 1 + j) of a shard has failed a check: it is read once more from the same source, then from the next source of
the origin, and where no source remains the restore ends (R353). -/
def readFailed (i : Nat) (h : PlanShard) (item detail : Nat) (s : State) : State :=
  let n := lookD h.passed item 0
  if !h.retried.contains item then readAgain item (updPlan i (fun h => { h with retried := item :: h.retried }) s)
  else if n + 1 < h.sources.length then
    readAgain item (updPlan i (fun h => { h with passed := put h.passed item (n + 1), retried := h.retried.filter (· != item) }) s)
  else failRestore detail h.origin h.index s

/-- What is still to be read of a shard: its header and its chunks. -/
def outstanding (h : PlanShard) : List Nat := (if h.head.isNone then [0] else []) ++ h.chunks.map (· + 1)

/-- The source from which the first of it is read now. -/
def presentSource (h : PlanShard) : Nat := ((outstanding h).map (fun k => lookD h.passed k 0)).foldl min h.sources.length

/-- What is read from source n is read from the next one. -/
def passOver (n : Nat) (h : PlanShard) : PlanShard :=
  { h with passed := (outstanding h).foldl (fun p k => if lookD h.passed k 0 = n then put p k (n + 1) else p) h.passed,
           retried := h.retried.filter (fun k => lookD h.passed k 0 != n) }

/-- A header and chunk list agree with the shard's entry and mark (R352). -/
def headGood (course : Nat) (h : PlanShard) (head : Bytes) : Bool :=
  let esz := if (le head 6 2).testBit 0 then 48 else 32
  let list := 256 + esz * le head 0x1C 4
  digest48 (head.take list) == h.mark && le head 8 4 == course && le head 0xE 1 == h.region && le head 0xF 1 == h.format
    && le head 0x20 8 == h.firstRow && le head 0x28 8 == h.rowCount
    && (match h.entryCols with | some c => le head 0x34 2 == c.1 && le head 0x36 2 == c.2 | none => true)

/-- The key of a sealed shard under a domain course key (R598). -/
def sealedLabel (course : Nat) (h : PlanShard) : Bytes :=
  (([0x54, 0x52, 0x4D, 0x2D, 0x53, 0x45, 0x41, 0x4C] : Bytes) ++ leBytes 4 course ++ leBytes 2 h.origin
    ++ leBytes 1 h.region ++ leBytes 4 h.handle)
def sealKey (course : Nat) (h : PlanShard) (k : Nat) : Nat := Config.deriveKey k (sealedLabel course h)

/-- The working keys that a chunk's check uses, one for each domain course key held (R351, R600). -/
def useSealKeys (course : Nat) (h : PlanShard) (head : Bytes) (s : State) : State :=
  if (le head 6 2).testBit 0 then (domainKeys s).foldl (fun s k => useWorkingKey k (sealedLabel course h) s) s else s

/-- A chunk's plaintext, or the detail of the check it fails. -/
def openChunk (s : State) (course : Nat) (h : PlanShard) (head : Bytes) (j : Nat) (data : Bytes) : Bytes ⊕ Nat :=
  let sealed_ := (le head 6 2).testBit 0
  let e := 256 + (if sealed_ then 48 else 32) * j
  if (Config.blake3 data ++ List.replicate 32 0).take 32 ≠ (head.drop e).take 32 then .inr 0x0124
  else if !sealed_ then .inl data
  else
    let n := sealNonce course h.index j
    let tag := (head.drop (e + 32)).take 16
    match (domainKeys s).filterMap (fun k =>
        let key := sealKey course h k
        (Config.unsealBytes key n data).bind (fun p =>
          if (Config.sealTag key n p ++ List.replicate 16 0).take 16 = tag then some p else none)) with
    | p :: _ => .inl p
    | [] => .inr 0x0125

/-- Bytes of a shard's data, from the chunks read. -/
def gotBytes (h : PlanShard) (off n : Nat) : Bytes :=
  (List.range n).map (fun k => ((lookD h.got ((off + k) / chunkBytes) [])[(off + k) % chunkBytes]?).getD 0)

/-- Elements spliced into a row of elements. -/
def splice (old new : List Nat) (at_ : Nat) : List Nat := old.take at_ ++ new ++ old.drop (at_ + new.length)

/-- The bytes of a row of a region after a shard's columns are placed in it, widened (R357). -/
def placedBytes (t : Tbl) (h : PlanShard) (old bs : Bytes) : Bytes :=
  let part : Tbl := { t with dim := h.colCount }
  let whole := decide (h.colStart = 0 ∧ h.colCount = t.dim)
  match h.region with
  | 0 =>
    if whole ∨ h.format = 0xFF then widenWeights t h.format bs
    else encodeRow (weightFormat t) t.dim (fun _ => none)
      (splice (decodeRow (weightFormat t) t.dim old) (decodeRow h.format h.colCount bs) h.colStart)
  | 1 =>
    if whole ∨ h.format = 0xFF ∨ t.rule = 3 then widenState t h.format bs
    else
      let o := decodeState t t.stateFormat old
      let n := decodeState part h.format bs
      encodeState t t.stateFormat (fun _ => none) (((List.range (stateVectors t.rule)).map (fun v =>
        splice ((o.drop (v * t.dim)).take t.dim) ((n.drop (v * h.colCount)).take h.colCount) h.colStart)).flatten)
  | 2 =>
    if whole then bs
    else encodeRow t.format t.dim (fun _ => none)
      (splice (decodeRow t.format t.dim old) (decodeRow h.format h.colCount bs) h.colStart)
  | _ => bs

/-- The row here of a shard's row. -/
def rowHere (r : RestoreRun) (x : RestTab) (h : PlanShard) (row : Nat) : Option Nat :=
  if x.tbl.sharded && x.tbl.hashed then (r.moves.find? (fun m => m.1 == h.origin && m.2.1 == h.tab && m.2.2.1 == row)).map (·.2.2.2)
  else if x.tbl.sharded then localOf x.tbl.ranges row
  else some row

/-- The rows of a shard that are needed are written. -/
def placeShardRows (x : RestTab) (ti : Nat) (h : PlanShard) (s : State) : State :=
  ((h.need.map (fun n => (List.range n.2).map (n.1 + ·))).flatten).foldl (fun s row =>
    match rowHere (rrun s) x h row with
    | some w =>
      writeRow ti x.tbl h.region w
        (placedBytes x.tbl h (readRow s ti x.tbl h.region w) (gotBytes h ((row - h.firstRow) * h.rowBytes) h.rowBytes)) s
    | none => s) s

/-- The keys of a key shard that this device owns take rows (R356). -/
def placeKeys (x : RestTab) (h : PlanShard) (s : State) : State :=
  (List.range h.rowCount).foldl (fun s i =>
    let k := leVal (gotBytes h (8 * i) 8)
    if k = emptyKey ∨ (keyArray x.tbl k).isNone ∨ !restoreLive s then s
    else
      let note := fun (w : Nat) (s : State) => updRestore (fun r => { r with moves := r.moves ++ [(h.origin, h.tab, h.firstRow + i, w)] }) s
      match x.ti with
      | none => note 0 s
      | some ti => match freeSlot s ti x.tbl k with
        | some w => note w (writeRow ti x.tbl 3 w (leBytes 8 k) s)
        | none => failRestore 0x0131 h.origin h.index s) s

/-- What the plan has grown by since a state counts as planned (R365). -/
def plannedMore (old s : State) : State :=
  updRestore (fun r => { r with bytesPlanned := r.bytesPlanned + planBytes r.plan - planBytes (rrun old).plan }) s

/-- Once every key shard of an origin's table has been read, the rows that its other shards must give are known. -/
def keysKnown (origin tab : Nat) (s : State) : State :=
  if (rrun s).plan.any (fun h => h.origin == origin && h.tab == tab && h.region == 3 && !h.placed) then s
  else plannedMore s (updRestore (fun r => { r with plan := r.plan.map (fun h =>
    if h.origin = origin ∧ h.tab = tab ∧ h.keyed then
      let rows := (r.moves.filter (fun m => m.1 == origin && m.2.1 == tab && decide (h.firstRow ≤ m.2.2.1 ∧ m.2.2.1 < h.firstRow + h.rowCount)))
      let need := rows.map (fun m => (m.2.2.1, 1))
      { h with keyed := false, need := need, chunks := chunksFor h.firstRow h.rowBytes need, placed := need.isEmpty }
    else h) }) s)

/-- Every chunk of a shard has been read: its rows are placed, or its region's bytes are written to the accelerator. -/
def placeShard (i : Nat) (h : PlanShard) (s : State) : State :=
  let r := rrun s
  let s := updPlan i (fun h => { h with placed := true, got := [] }) s
  if h.region = 4 then
    (if r.verifyOnly then s else match s.course.regions.find? (fun g => g.id == h.tab) with
      | some g => dmaOut g.endpoint (g.addr + h.firstRow * 4096) ((gotBytes h 0 (h.rowCount * 4096)).take (g.length - h.firstRow * 4096)) s
      | none => s)
  else match r.tabs[h.tab]? with
    | none => s
    | some x =>
      if h.region = 3 ∧ x.tbl.sharded then keysKnown h.origin h.tab (placeKeys x h s)
      else match x.ti with | some ti => placeShardRows x ti h s | none => s

/-- A shard with its header: ROW_BYTES and DATA_OFFSET are the header's, and the chunks to read with them (R320, R356). -/
def withHead (head : Bytes) (h : PlanShard) : PlanShard :=
  let b := le head 0x30 4
  { h with head := some head, dataOffset := le head 0x38 4, rowBytes := b,
           chunks := if b = h.rowBytes then h.chunks else chunksFor h.firstRow b h.need }

/-- A header has been read: it is checked, and counted. -/
def takeHead (i : Nat) (h : PlanShard) (head : Bytes) (s : State) : Option State :=
  if h.head.isSome then some s
  else if headGood (rrun s).courseId h head then
    some (plannedMore s (updRestore (fun r => { r with bytesDone := r.bytesDone + le head 0x38 4 }) (updPlan i (withHead head) s)))
  else none

/-- A chunk of a shard whose header is good: it is checked, and with the last one the shard's rows are placed. -/
def takeChunk (shard chunk : Nat) (h : PlanShard) (head data : Bytes) (s : State) : State :=
  if !h.chunks.contains chunk then s
  else match openChunk s (rrun s).courseId h head chunk data with
    | .inr d => readFailed shard h (chunk + 1) d s
    | .inl p =>
      let s := updRestore (fun r => { r with bytesDone := r.bytesDone + data.length }) (useSealKeys (rrun s).courseId h head s)
      let s := updPlan shard (fun h => { h with chunks := h.chunks.filter (· != chunk), got := put h.got chunk p,
                                                retried := h.retried.filter (· != chunk + 1) }) s
      match (rrun s).plan[shard]? with
      | some h => if h.chunks.isEmpty then placeShard shard h s else s
      | none => s

/-- A planned chunk arrives with its shard's header and chunk list. A live activation pauses the reading (R364). -/
def execRestoreChunkRead (shard chunk : Nat) (head data : Bytes) (s : State) : Host.Outcome State Fault Refusal :=
  .next (thawed s <| match (rrun s).plan[shard]? with
    | none => s
    | some h =>
      if (rrun s).state ≠ 2 ∨ s.icp.paused ∨ h.keyed ∨ !h.chunks.contains chunk then s
      else match takeHead shard h head s with
        | none => readFailed shard h 0 0x0123 s
        | some s => takeChunk shard chunk ((rrun s).plan[shard]?.getD h) (h.head.getD head) data s)

/-- A source has not answered for 1 s: what is read from it is read from the next one, and where none remains the restore ends (R353). -/
def execRestoreSourceTimeout (shard : Nat) (s : State) : Host.Outcome State Fault Refusal :=
  .next (thawed s <| match (rrun s).plan[shard]? with
    | none => s
    | some h => 
      if (rrun s).state ≠ 2 ∨ h.placed then s
      else if presentSource h + 1 < h.sources.length then updPlan shard (passOver (presentSource h)) s
      else failRestore 0x0126 h.origin h.index s)

/-! ### Completion (R358 to R361) -/

/-- Every needed row of a restored table has all its columns; of a hashed sharded table, every row whose key was kept (R356). -/
def tabCovered (r : RestoreRun) (num : Nat) (x : RestTab) : Bool :=
  if x.tbl.sharded && x.tbl.hashed then
    (r.moves.filter (fun m => m.2.1 == num)).all (fun m =>
      let mine := r.plan.filter (fun h => h.tab == num && h.origin == m.1 && h.region != 4)
      ((courseRegions x.tbl mine).filter (· != 3)).all (fun g => rowCovered x.tbl (mine.filter (fun h => h.region == g)) m.2.2.1))
  else rowsCovered r.plan num x.tbl

/-- Serving copies that the course did not capture are rebuilt from the master. -/
def rebuildServing (r : RestoreRun) (num : Nat) (x : RestTab) (s : State) : State :=
  match x.ti with
  | none => s
  | some ti =>
    if !x.tbl.split || r.plan.any (fun h => h.tab == num && h.region == 2) then s
    else (List.range x.tbl.localRows).foldl (fun s w =>
      writeRow ti x.tbl 2 w (servingBytes x.tbl (fun _ => none) (rowWeights s ti x.tbl w)) s) s

/-- The row here of a row lost in the course: in a hashed sharded table, the row that its key was given. -/
def lostHere (r : RestoreRun) (l : Nat × Nat × Nat × Nat) : Option Nat :=
  match r.tabs[l.2.1]? with
  | some x =>
    if x.tbl.sharded && x.tbl.hashed then (r.moves.find? (fun m => m.1 == l.1 && m.2.1 == l.2.1 && m.2.2.1 == l.2.2.1)).map (·.2.2.2)
    else some l.2.2.1
  | none => none

/-- A lost row is restored poisoned. -/
def restoreLost (r : RestoreRun) (l : Nat × Nat × Nat × Nat) (s : State) : State :=
  match (r.tabs[l.2.1]?).bind (fun x => x.ti), lostHere r l with
  | some ti, some w => updTbl ti (fun t => { t with bad :=
      { row := w, written := 0, cause := l.2.2.2, repointing := false } :: t.bad.filter (fun b => b.row != w) }) s
  | _, _ => s

/-- The handle map. -/
def handleMapBytes (r : RestoreRun) (s : State) : Bytes :=
  (r.tabs.map (fun x => layout 16 [(0, 2, x.origin), (4, 4, x.handle), (8, 4, ((x.ti.map (fun ti => (tblD s ti).handle))).getD 0),
    (0xC, 4, x.tbl.domainId)])).flatten ++ List.replicate 16 0xFF

/-- The latest course committed in the domain, once a course that was restored is known (R328, R350, R369). -/
def laterCourse (a : Option (Nat × Nat)) (b : Nat × Nat) : Option (Nat × Nat) :=
  match a with | some x => if b.1 ≤ x.1 then some x else some b | none => some b

/-- Every planned byte has been placed. -/
def execRestoreComplete (s : State) : Host.Outcome State Fault Refusal :=
  .next (thawed s <| 
    let r := rrun s
    if r.state ≠ 2 ∨ r.plan.any (fun h => !h.placed) then s
    else if !(r.tabs.zipIdx.all (fun x => tabCovered r x.2 x.1)) then failRestore 0x012A 0 0 s
    else
      let s := updRestore (fun r => { r with state := 3 }) s
      if r.verifyOnly then s
      else
        let s := r.tabs.zipIdx.foldl (fun s x => rebuildServing r x.2 x.1 s) s
        let s := r.lost.foldl (fun s l => restoreLost r l s) s
        let s := r.regions.foldl (fun s id => match s.course.regions.find? (fun g => g.id == id) with
          | some g => dmaOut g.endpoint g.notify (regionRecord g r.courseId r.step 0) (updRegion id (fun x => { x with seq := (x.seq + 1) % 65536 }) s)
          | none => s) s
        let s := if r.handleMap = 0 then s else dmaOut r.issuer r.handleMap (handleMapBytes r s) s
        let s := r.tabs.foldl (fun s x => match x.ti with | some ti => updTbl ti (fun t => { t with visible := true, highStep := some r.step }) s | none => s) s
        let s := s.setCourse { s.course with highId := max s.course.highId r.courseId, committed := laterCourse s.course.committed (r.courseId, r.step) }
        settle (match r.map with | some m => activate m s | none => s))

/-- RESTORE_STATUS (R365). What it reports as restored is restored: it counts from COMPLETE on, and with VERIFY_ONLY never. -/
def hRestoreStatus : Handler := fun c s =>
  let r := rrun s
  let done := decide (r.state = 3) && !r.verifyOnly
  checked s [(c.p 0 4 != 0 && c.p 0 4 != r.id, stBadHandle, dtField 0)]
    (Res.ok s false (layout 128 [(0, 4, r.id), (4, 1, r.state), (6, 2, r.detail), (8, 4, r.courseId), (0xC, 4, r.step),
      (0x10, 4, (r.map.map (·.id)).getD 0), (0x14, 4, (r.map.map (·.crc)).getD 0), (0x18, 4, r.plan.length),
      (0x1C, 4, (r.plan.filter (·.placed)).length), (0x20, 8, r.bytesPlanned), (0x28, 8, r.bytesDone), (0x30, 4, r.retries),
      (0x34, 2, r.failOrigin), (0x36, 2, if done then r.tabs.length else 0), (0x38, 4, r.failShard), (0x3C, 4, if done then r.regions.length else 0),
      (0x40, 4, r.regionsSkipped), (0x48, 8, if done then (r.lost.filter (fun l => (lostHere r l).isSome)).length else 0)]))

/-! ### Adoption (R368 to R373) -/

/-- The parts of a run that lie outside another. -/
def cutRun (g : Nat × Nat) (f : Nat × Nat) : List (Nat × Nat) :=
  match overlap f g with
  | none => [f]
  | some o => (if f.1 < o.1 then [(f.1, o.1 - f.1)] else [])
      ++ (if o.1 + o.2 < f.1 + f.2 then [(o.1 + o.2, f.1 + f.2 - o.1 - o.2)] else [])

/-- The runs of a list that lie outside every run of another. -/
def cutRuns (fs gs : List (Nat × Nat)) : List (Nat × Nat) := gs.foldl (fun fs g => (fs.map (cutRun g)).flatten) fs

/-- LOST of a SHARD_ADOPT. -/
def lostList (c : Ctx) : List Nat := (List.range (clampN 1 16 (c.p 4 2))).map (fun i => c.p (0x10 + 2 * i) 2)

/-- The owners of a table until a new layout governs it: those of the active map, or the even division of as many rows as this device holds the table
with, or the new map's ranges cover. -/
def ownersBefore (s : State) (m : ShardMap) (table : Nat) : List (Nat × Nat × Nat) :=
  match tblByDomain s table with
  | some e => tableRanges s table e.2.rows e.2.hashed
  | none => tableRanges s table (((m.ranges.filter (fun r => r.table == table)).map (fun r => r.first + r.count)).foldl max 0) false

/-- The new layout moves a row of a member that is not lost, or names a lost member as an owner. -/
def movesLive (s : State) (m : ShardMap) (lost : List Nat) : Bool :=
  m.ranges.any (fun r => r.count != 0 && lost.contains r.owner)
    || m.ranges.any (fun r => (ownersBefore s m r.table).any (fun o =>
        (overlap (r.first, r.count) o.2).isSome && o.1 != r.owner && !lost.contains o.1 && o.1 != 0xFFFF))

/-- Local rows of the ranges added at the end of a table. -/
def addedRows (t : Tbl) (rs : List (Nat × Nat)) : List Nat :=
  let n := (rs.map (fun r => if t.hashed then arrayRows t.rows r.2 else r.2)).sum
  (List.range n).map (t.localRows + ·)

/-- A table takes ranges of a lost member at the end of its own: their rows are placed, out of the recovery reserve where nothing else is free, and
poisoned until they are read (R43, R370 step 3). In a hashed table the keys of these rows are not known until then, so that every descriptor on a key
of their arrays waits. -/
def adoptRanges (ti : Nat) (t : Tbl) (rs : List (Nat × Nat)) (s : State) : Option State :=
  let rows := addedRows t rs
  let t' := { t with ranges := t.ranges ++ rs, localRows := t.localRows + rows.length,
                     bad := rows.map (fun w => { row := w, written := 0, cause := 4, repointing := true, keyLost := t.hashed }) ++ t.bad }
  let fresh := (tblBlockList t').filter (fun x => (blkFind s ti x.1 x.2).isNone)
  let n := mapFrames (tblBlocks t') - mapFrames (tblBlocks t)
  ((fresh.foldl (placeBlk true ti t') (some (setTbl ti t' s))).bind (takeMap (.map ti) true n)).map (fun s =>
    rows.foldl (fun s w => writeRow ti t' 3 w (leBytes 8 emptyKey) s) s)

/-- The ranges of a table in ascending order. -/
def ascending (rs : List (Nat × Nat)) : List (Nat × Nat) := sortBy (fun a b => decide (a.1 ≤ b.1)) rs

/-- The row that a row of a hashed sharded table becomes when its bucket arrays stand in ascending order of their ranges. -/
def rowAfter (t : Tbl) (row : Nat) : Nat := (rowSpanOf (windowSpans t) 0 row).getD row

/-- The bucket arrays of a hashed table follow one another in ascending order of their ranges, in every region (R732): rows are moved whole, with
what is known of them. -/
def orderArrays (ti : Nat) (s : State) : State :=
  let t := tblD s ti
  if !t.hashed || !t.sharded || ascending t.ranges = t.ranges then s
  else
    let old := (tblRegions t).flatMap (fun r => (List.range t.localRows).map (fun w => (r, rowAfter t w, readRow s ti t r w)))
    let s := (s.mem.blocks.filter (fun b => b.table == ti)).foldl (fun s b => s.setMem (
      let m := match b.frame with | some f => cleanFrame f s.mem | none => s.mem
      match b.moving with | some f => cleanFrame f m | none => m)) s
    let t' := { t with ranges := ascending t.ranges, bad := t.bad.map (fun (x : BadRow) => { x with row := rowAfter t x.row }),
                       rolled := t.rolled.map (fun x => (rowAfter t x.1, x.2)) }
    let s := old.foldl (fun s x => writeRow ti t' x.1 x.2.1 x.2.2 s) (setTbl ti t' s)
    s.setMason { s.mason with jobs := s.mason.jobs.map (fun j =>
      { j with rule := j.rule.map (fun x => if x.1 = ti then (ti, rowAfter t x.2) else x) }) }

/-- Rows of an earlier adoption that are still to be read. -/
def oldTodo (s : State) : List (Nat × Nat) := match s.elastic.adopt with | some a => a.todo | none => []

/-- Every table takes its adopted ranges; the rows to read, those of an earlier adoption among them. -/
def adoptAll (m : ShardMap) (todo : List (Nat × Nat)) (s : State) : Option (List (Nat × Nat) × State) :=
  s.tab.tbls.foldl (fun acc e => acc.bind (fun a =>
    let t := tblD a.2 e.1
    let mine := (m.ranges.filter (fun r => r.table == t.domainId && r.owner == m.thisDevice && r.count != 0)).map (fun r => (r.first, r.count))
    let rs := if t.sharded then cutRuns mine t.ranges else []
    if rs.isEmpty then some a
    else (adoptRanges e.1 t rs a.2).map (fun s =>
      let t' := tblD s e.1
      let place := fun (w : Nat) => if t'.hashed then rowAfter t' w else w
      let old := a.1.map (fun (x : Nat × Nat) => if x.1 = e.1 then (x.1, place x.2) else x)
      (old ++ (addedRows t rs).map (fun w => (e.1, place w)), orderArrays e.1 s)))) (some (todo, s))

/-- The highest step applied on this device. -/
def deviceStep (s : State) : Nat := (s.tab.tbls.foldl (fun m e => maxStep m e.2.highStep) none).getD 0

/-- The reply of an adoption. -/
def adoptData (s : State) (a : AdoptRun) : Bytes :=
  layout 32 [(0, 4, a.courseId), (4, 4, a.step), (8, 8, a.adopted), (0x10, 8, a.poisoned), (0x18, 4, a.highStep - a.step),
    (0x1C, 4, (now s 0x41 - a.started) / 1000000)]

/-- Positions of running descriptors on rows without an owner complete (R372). -/
def failOwnerless (s : State) : State :=
  settle (setElastic (fun e => { e with active := e.active.map (fun m => { m with shrunk := true }) }) s)

/-- What a SHRINK_DONE replies. -/
def shrinkData (s : State) : Bytes :=
  layout 32 [(0, 4, (s.course.committed.map (·.1)).getD 0), (4, 4, (s.course.committed.map (·.2)).getD 0)]

/-- No adoption runs any more: a SHRINK_DONE that waited goes on; one whose map a later SHARD_ADOPT has replaced no longer names the active map (R372). -/
def releaseShrink (s : State) : State :=
  (s.icp.waits.filter (fun w => w.kind == .adopt)).foldl (fun s w =>
    if (s.elastic.active.map (·.id)) = some (le w.pkt.params 0 4) then finishWait w stOk dtNone (shrinkData s) (failOwnerless s)
    else finishWait w stConflict dtNone [] s) s

/-- An adoption with no rows left replies, and a SHRINK_DONE behind it goes on. -/
def adoptProgress (s : State) : State :=
  match s.elastic.adopt with
  | none => s
  | some a =>
    if !a.todo.isEmpty then s
    else
      releaseShrink (finishWait a.wait stOk (if a.clamped then dtClamped else dtNone) (adoptData s a) (setElastic (fun e => { e with adopt := none }) s))

/-- An earlier adoption gives way (R373). -/
def supersede (s : State) : State :=
  match s.elastic.adopt with
  | none => s
  | some a => finishWait a.wait stFailed 0x012E [] (setElastic (fun e => { e with adopt := none }) s)

/-- Indices that some devices were to serve are unserved again: they wait for the owner that a map gives them (R284). -/
def requeueSent (devs : List Nat) (s : State) : State :=
  let back := fun (p : InProg) =>
    let mine := (p.sentTo.filter (fun e => devs.contains e.2)).map (·.1)
    { p with sent := p.sent.filter (fun k => !mine.contains k), sentTo := p.sentTo.filter (fun e => !devs.contains e.2), todo := p.todo ++ mine }
  s.setTab { s.tab with cqps := s.tab.cqps.map (fun e => (e.1, { e.2 with running := e.2.running.map back })) }

/-- SHARD_ADOPT without SHRINK_DONE. -/
def hShardAdopt : Handler := fun c s =>
  let ms := if c.p 0xC 4 = 0 then 60000 else clampN 1000 600000 (c.p 0xC 4)
  match mapById s (c.p 0 4) with
  | none => Res.rej s stBadHandle 0x0127
  | some m =>
    checked s [(c.p 8 4 != 0 && some (c.p 8 4) != s.course.committed.map (·.1), stBadHandle, dtField 8)] <|
    roomThen s [(movesLive s m (lostList c), stConflict, 0x012D), (s.course.committed.isNone, stFailed, 0x0120)]
      (match adoptAll m (oldTodo s) (supersede s) with
       | none => Res.rej s stNoResource dtNone
       | some (rows, s') =>
         let clamped := ms != c.p 0xC 4 || clampN 1 16 (c.p 4 2) != c.p 4 2
         let w : Waiter := { via := c.via, pkt := c.pkt, kind := .adopt, gen := genOf s c.iss.fid }
         let a : AdoptRun :=
           { wait := w, mapId := m.id, courseId := (s.course.committed.map (·.1)).getD 0,
             step := (s.course.committed.map (·.2)).getD 0, timeoutMs := ms, started := now s 0x41, highStep := deviceStep s,
             todo := rows, clamped := clamped }
         let s' := requeueSent (lostList c) (activate { m with shrunk := false } s')
         if a.todo.isEmpty then Res.ok (settle (releaseShrink s')) clamped (adoptData s' a)
         else Res.wait (settle (setElastic (fun e => { e with adopt := some a }) s')) clamped (adoptData s' a))

/-- SHARD_ADOPT with SHRINK_DONE. -/
def hShrinkDone : Handler := fun c s =>
  if (s.elastic.active.map (·.id)) ≠ some (c.p 0 4) then Res.rej s stConflict dtNone
  else if s.elastic.adopt.isSome then .later (addWait c .adopt 0 0 s) dtNone (shrinkData s)
  else Res.ok (failOwnerless s) false (shrinkData s)

/-- Opcode 0x0313: FLAGS tells the two apart. -/
def hAdopt : Handler := fun c s => if (c.p 6 2).testBit 0 then hShrinkDone c s else hShardAdopt c s

def updAdopt (f : AdoptRun → AdoptRun) (s : State) : State := setElastic (fun e => { e with adopt := e.adopt.map f }) s

/-- A row of an adoption is done: adopted, left poisoned, or an empty place of a hashed table. -/
def adoptedRow (table row adopted poisoned : Nat) (s : State) : State :=
  settle (adoptProgress (updAdopt (fun a => { a with todo := a.todo.filter (· != (table, row)), failed := a.failed.filter (fun f => f.1 != (table, row)),
                                                     adopted := a.adopted + adopted, poisoned := a.poisoned + poisoned }) s))

/-- The row that stands for a row of an adoption in its table: in a hashed table, where rows take keys as they come, the row itself while nothing is
known of it, else the first row of its bucket arrays still in that state. -/
def adoptMark (t : Tbl) (row : Nat) : Nat :=
  let open_ := t.bad.filter (fun (x : BadRow) => x.keyLost && x.repointing && x.cause == 4)
  if !t.hashed || open_.any (fun x => x.row == row) then row
  else
    let arrays := (storedSpans t).filter (fun (a : Nat × Nat × Nat) => decide (a.1 ≤ row ∧ row < a.1 + a.2.1))
    ((open_.find? (fun x => arrays.any (fun a => decide (a.1 ≤ x.row ∧ x.row < a.1 + a.2.1)))).map (·.row)).getD row

/-- A row that cannot be read stays poisoned (R285, R370 step 5). -/
def rowLost (row : Nat) (t : Tbl) : Tbl :=
  { t with bad := t.bad.map (fun (x : BadRow) => if x.row = adoptMark t row then { x with repointing := false } else x) }

/-- A place of a hashed table that the course leaves empty: nothing is lost with it. -/
def rowEmpty (row : Nat) (t : Tbl) : Tbl := { t with bad := t.bad.filter (fun (x : BadRow) => x.row != adoptMark t row) }

/-- A hashed table in which rows that wait for an adoption are free to take adopted keys. -/
def adoptRoom (t : Tbl) : Tbl := { t with bad := t.bad.filter (fun (x : BadRow) => !(x.keyLost && x.repointing && x.cause == 4)) }

/-- The adoption fails: a key finds no place. What it has not read stays poisoned. -/
def adoptFull (s : State) : State :=
  match s.elastic.adopt with
  | none => s
  | some a =>
    let s := a.todo.foldl (fun s x => updTbl x.1 (rowLost x.2) s) s
    settle (releaseShrink (finishWait a.wait stFailed 0x0131 [] (setElastic (fun e => { e with adopt := none }) s)))

/-- A shard of the course with its header and the chunks read, where every check of R352 passes. -/
def readShard (s : State) (course : Nat) (t : Tbl) (x : ShardRead) : Option PlanShard :=
  let h := fitShard t (shardAt (decide (x.format = 2)) x.origin x.entry)
  if !headGood course h x.head then none
  else
    let g := withHead x.head h
    x.chunks.foldl (fun acc c => acc.bind (fun g => match openChunk s course g x.head c.1 c.2 with
      | .inl p => some { g with got := put g.got c.1 p }
      | .inr _ => none)) (some g)

/-- Shards that hold a row of a table, and whose chunks with it have been read. -/
def rowParts (t : Tbl) (row : Nat) (hs : List PlanShard) : List PlanShard :=
  hs.filter (fun h => decide (h.region ≤ 3) && t.sharded && h.tab == t.domainId && decide (h.firstRow ≤ row ∧ row < h.firstRow + h.rowCount)
    && (chunksFor h.firstRow h.rowBytes [(row, 1)]).all (fun j => has h.got j))

/-- A row's bytes in a shard. -/
def partBytes (h : PlanShard) (row : Nat) : Bytes := gotBytes h ((row - h.firstRow) * h.rowBytes) h.rowBytes

/-- A row of the course is written whole, its serving copy with it (R357, R370). -/
def placeParts (ti row w : Nat) (hs : List PlanShard) (s : State) : State :=
  let t := tblD s ti
  let s := hs.foldl (fun s h => writeRow ti t h.region w (placedBytes t h (readRow s ti t h.region w) (partBytes h row)) s) s
  if t.split && !hs.any (fun h => h.region == 2) then writeRow ti t 2 w (servingBytes t (fun _ => none) (rowWeights s ti t w)) s else s

/-- Failed reads after which a row is read no more: two from each source of its origin (R353). -/
def readsAllowed (s : State) (origin : Nat) : Nat :=
  2 * max 1 (((s.elastic.active.map (·.sources)).getD []).filter (fun x => x.origin == origin)).length

/-- A read of a row failed a check: it is read again, from the same source and then from the next (R353). -/
def adoptReread (table row : Nat) (s : State) : State :=
  updAdopt (fun a => { a with failed := put a.failed (table, row) (lookD a.failed (table, row) 0 + 1) }) s

/-- An adopted row is written, reported as rolled back, and its held descriptors go on (R370, R371). -/
def adoptPut (a : AdoptRun) (table row from_ w : Nat) (hs : List PlanShard) (slotFree : Bool) (s : State) : State :=
  let s := rowGood table w (placeParts table from_ w hs s)
  adoptedRow table row 1 0 (rollbackRecord table w 1 a.courseId a.step 4 slotFree (noteRollback table w a.courseId a.step 4 s))

/-- The shards of an adopted row arrive. Each is checked; a row all of whose columns they hold is written whole, in a hashed table where its key finds a
place (R356, R370, R371). -/
def execAdoptRowRead (table row : Nat) (value : AdoptRead) (slotFree : Bool) (s : State) : Host.Outcome State Fault Refusal :=
  .next (thawed s <| match s.elastic.adopt with
    | none => s
    | some a =>
      let t := tblD s table
      let origin := ((value.shards.head?).map (·.origin)).getD 0
      if !a.todo.contains (table, row) ∨ readsAllowed s origin ≤ lookD a.failed (table, row) 0 then s
      else
        let hs := value.shards.filterMap (readShard s a.courseId t)
        if hs.length < value.shards.length then adoptReread table row s
        else
          let s := (value.shards.zip hs).foldl (fun s x => useSealKeys a.courseId x.2 x.1.head s) s
          let from_ := if t.hashed then value.row else rowIdentity t row
          let parts := rowParts t from_ hs
          let key := ((parts.find? (fun h => h.region == 3)).map (fun h => leVal (partBytes h from_))).getD emptyKey
          if !(courseRegions t parts).all (fun g => rowCovered t (parts.filter (fun h => h.region == g)) from_) then s
          else if !t.hashed then adoptPut a table row from_ row parts slotFree s
          else if key = emptyKey ∨ (keyArray t key).isNone then adoptedRow table row 0 0 (updTbl table (rowEmpty row) s)
          else match freeSlot s table (adoptRoom t) key with
            | some w => adoptPut a table row from_ w parts slotFree s
            | none => adoptFull s)

/-- A row could not be read within ADOPT_TIMEOUT_MS: it stays poisoned. -/
def execAdoptTimeout (table row : Nat) (s : State) : Host.Outcome State Fault Refusal :=
  .next (thawed s <| match s.elastic.adopt with
    | none => s
    | some a =>
      if !a.todo.contains (table, row) then s
      else adoptedRow table row 0 1 (updTbl table (rowLost row) s))

/-! ### Liveness (R367) -/

/-- Members of this device's subtree heard within the last 3 × LIVENESS_MS. -/
def heardBelow (s : State) : List Nat :=
  let t := now s 0x41
  let fresh := (s.elastic.heard.filter (fun h => h.1 != fenceParent s && decide (t ≤ h.2 + 3 * s.course.policy.liveness * 1000000))).map (·.1)
  fresh ++ (fresh.map (fun d => lookD s.elastic.below d [])).flatten

/-- LIVENESS_MS have passed: a message to the parent and to each child. -/
def execLivenessSend (s : State) : Host.Outcome State Fault Refusal :=
  .next (thawed s <| if !hasTree s then s
    else sendDown (.liveness (deviceIndex s) (ownStep s) s.elastic.adopt.isSome ownFormat (domainGrt s) [])
      (sendUp (.liveness (deviceIndex s) (subtreeStep s)
        (s.elastic.adopt.isSome || s.course.peersAdopting.any (· != fenceParent s)) (subtreeFormat s) (subtreeGrt s) (heardBelow s)) s))

/-- LIVENESS arrives from a neighbour in the tree, on the connection to it. It carries the highest manifest format and version of the transport of the
sender's part of the tree; a member not heard counts as at this part's own (R33; log 208). The versions it carries are a DESIGN CHOICE (log 208). -/
def execLiveness (device : Nat) (step : Option Nat) (adopting : Bool) (below : LiveBelow) (s : State) : Host.Outcome State Fault Refusal :=
  .next (thawed s <| 
    let s := setElastic (fun e => { e with heard := put e.heard device (now s 0x41),
                                           below := if device = fenceParent s then e.below else put e.below device below.members }) s
    let others := s.course.peersAdopting.filter (· != device)
    levelDomain (joinDomain device (notePeer device step (s.setCourse { s.course with
      peersAdopting := if adopting then others ++ [device] else others, peerFormats := put s.course.peerFormats device below.format,
      peerGrt := put s.course.peerGrt device below.grt }))))

/-- Devices are lost: each is recorded, the open course aborts, and what waits for them waits for an adoption. -/
def membersLost (devs : List Nat) (s : State) : State :=
  let devs := devs.filter (fun d => !s.elastic.lost.contains d && d != deviceIndex s)
  if devs.isEmpty then s
  else
    let s := devs.foldl (fun s d => recordCor blkCourse 0x0100 [d] s) s
    let s := s.setCourse { s.course with peerSteps := s.course.peerSteps.filter (fun e => !devs.contains e.1),
                                               peerFormats := s.course.peerFormats.filter (fun e => !devs.contains e.1),
                                               peerGrt := s.course.peerGrt.filter (fun e => !devs.contains e.1),
                                               peersAdopting := s.course.peersAdopting.filter (fun d => !devs.contains d) }
    let s := levelDomain s
    let s := setElastic (fun e => { e with lost := e.lost ++ devs, heard := e.heard.filter (fun h => !devs.contains h.1) }) s
    let s := abortCourse 0x010A s
    settle (requeueSent devs s)

/-- A lost child's subtree that is no longer heard is reported to the root, level by level; the root tells every member. -/
def reportLost (devs : List Nat) (s : State) : State :=
  if fenceRoot s then sendDown (.memberFailed devs) s else sendUp (.lostReport devs) s

/-- A neighbour in the tree is declared failed: of a child, every member of its subtree that is no longer heard is reported with it. -/
def neighbourLost (device : Nat) (s : State) : State :=
  if device = fenceParent s then membersLost [device] s
  else
    let still := (s.elastic.heard.filter (fun h => h.1 != device)).map (·.1)
    let all := device :: (lookD s.elastic.below device []).filter (fun d => !still.contains d)
    membersLost all (reportLost all s)

/-- No LIVENESS from a neighbour for 3 × LIVENESS_MS. -/
def execLivenessTimeout (device : Nat) (s : State) : Host.Outcome State Fault Refusal :=
  .next (thawed s <| if !hasTree s || s.elastic.lost.contains device then s else neighbourLost device s)

/-- A connection to a device of the domain enters ERROR: a neighbour in the tree is declared failed (R367, R558), and another device is lost with it. -/
def domainConnLost (device : Nat) (s : State) : State :=
  if s.elastic.lost.contains device then s
  else settle (if hasTree s && (device == fenceParent s || has s.elastic.heard device) then neighbourLost device s else membersLost [device] s)

/-- MEMBER_FAILED arrives from the root, and goes on down the tree; or a report on its way to the root: there it is learned, elsewhere
passed on. -/
def execMemberFailed (devices : List Nat) (report : Bool) (s : State) : Host.Outcome State Fault Refusal :=
  .next (thawed s <| if !report then membersLost devices (sendDown (.memberFailed devices) s)
    else if fenceRoot s then membersLost devices (reportLost devices s)
    else reportLost devices s)

end Sys2Proof.Machine
end

