-- ==== Sys2Proof/Machine/Ports.lean ====
section
/-! DEFINITION. Port blocks and the host's view of them (chapter 9): role presets, PORT_CONFIG and PORT_QUERY of a port block, link training, the queue region. -/

namespace Sys2Proof.Machine

open Sys2Proof

/-! ### Presets (R375, R376, R385) -/

/-- The preset in effect for STRAP[3:0]. -/
def presetOf (strap : Nat) : Nat := if strap ≤ 3 ∨ strap = 15 then strap else 0

/-- Role of a block under a preset: 0 DOWN, 1 HOST, 2 ACCELERATOR, 3 CXL, 4 STORAGE. -/
def presetRole (p n : Nat) : Nat :=
  match p with
  | 0 => if n < 2 then 1 else if n < 10 then 2 else if n < 14 then 3 else 4
  | 1 => if n < 2 then 1 else if n < 10 then 2 else 4
  | 2 => if n < 1 then 1 else if n < 9 then 2 else if n < 13 then 3 else 4
  | 3 => if n < 2 then 1 else if n < 14 then 2 else 4
  | _ => if n = 0 then 1 else 0

/-- Host port whose hierarchy shows an accelerator block of a preset. -/
def presetHost (p n : Nat) : Nat :=
  match p with
  | 0 => bit (decide (6 ≤ n ∧ n < 10))
  | 1 => bit (decide (6 ≤ n ∧ n < 10))
  | 3 => bit (decide (8 ≤ n ∧ n < 14))
  | _ => 0

/-- The port blocks as a cold reset leaves them. -/
def presetBlocks (p : Nat) : List (Nat × PBlock) :=
  (List.range 20).map (fun n =>
    (n, { role := presetRole p n, bifur := if presetRole p n = 4 then 3 else 0, hostPort := presetHost p n }))

/-! ### Links (R377, R385) -/

/-- Lanes of each link of a bifurcation: 0 x16, 1 x8 + x8, 2 x8 + x4 + x4, 3 4 × x4, 4 x8. -/
def bifurLanes (b : Nat) : List Nat :=
  match b with
  | 0 => [16]
  | 1 => [8, 8]
  | 2 => [8, 4, 4]
  | 3 => [4, 4, 4, 4]
  | _ => [8]

/-- A role accepts a bifurcation (R377); a block of role DOWN trains nothing and takes any. -/
def bifurOk (role b : Nat) : Bool :=
  if role = 1 then b == 0 || b == 4 else if role = 0 then decide (b ≤ 4) else decide (b ≤ 3)

/-- Downstream bridges of a host hierarchy, were a block configured as given. -/
def bridges (s : State) (hp n : Nat) (x : PBlock) : Nat :=
  ((List.range 20).map (fun k =>
    let b := if k = n then x else pbOf s k
    if b.role = 2 ∧ b.hostPort = hp then (bifurLanes b.bifur).length else 0)).sum

/-- Functions of a host port, its VFs included. -/
def hostFns (s : State) (hp : Nat) : List Nat := (s.fns.filter (fun e => e.2.on && e.2.hp == hp)).map (·.1)

/-- Number of the host port that a host-role block is (R378). -/
def hostPortOf (s : State) (n : Nat) : Option Nat :=
  (List.range 2).find? (fun hp => hostPortBlock s hp == some n)

/-! ### PORT_CONFIG and PORT_QUERY of a port block (R379 to R383) -/

/-- The fields of the block in effect. -/
def blockFields (b : PBlock) : List (Nat × Nat × Nat) :=
  [(2, 1, b.role), (3, 1, b.bifur), (4, 1, b.hostPort), (5, 1, bit b.propagate), (6, 1, b.maxSpeed)]

def askedBlock (c : Ctx) (b : PBlock) : PBlock :=
  { b with role := c.p 2 1, bifur := c.p 3 1, hostPort := c.p 4 1, propagate := (c.p 5 1).testBit 0,
           maxSpeed := clampN 1 6 (c.p 6 1) }

/-- PCIe address of an endpoint's ring or doorbell page, 0 until it is placed and BAR2 of PF0 assigned (R383). -/
def ringAddr (s : State) (ep : Nat) (reply : Bool) : Nat :=
  let hp := endpointHost s ep
  match s.ports.qrings.find? (fun q => q.owner == accelId ep && q.queue.isNone && q.reply == reply), bar2Base s (pfId hp 0) with
  | some q, some b => b + 0x10000000 + q.page * 4096
  | _, _ => 0

/-- A link record of PORT_QUERY. -/
def linkRecord (s : State) (n k : Nat) : Bytes :=
  let b := pbOf s n
  let l := (b.links[k]?).getD {}
  let there := decide (k < (bifurLanes b.bifur).length)
  let acc := b.role == 2 && there
  let ep := 4 * n + k
  layout 32
    [(0, 1, if !there then 2 else if l.width = 0 then 0 else 1), (1, 1, l.width), (2, 1, l.speed),
     (3, 1, bit l.downtrained * 4 + bit l.reversed * 2 + bit l.flit), (4, 2, if acc then accelId ep else 0xFFFF),
     (6, 2, if acc then l.gen else 0), (8, 8, if acc then ringAddr s ep false else 0),
     (0x10, 8, if acc then ringAddr s ep true else 0),
     (0x18, 8, if acc && ringsPlaced s ep then (match bar2Base s (pfId (endpointHost s ep) 0) with | some a => a + 4096 * (16383 - ep) | none => 0) else 0)]

/-- PORT_QUERY with PORT_KIND 0. -/
def hPortQueryBlock : Handler := fun c s =>
  let n := c.p 1 1
  checked s [(decide (19 < n), stBadHandle, dtField 1)]
    (Res.ok s false (layout 64 ((1, 1, n) :: blockFields (pbOf s n))
      ++ ((List.range 4).map (linkRecord s n)).flatten ++ List.replicate 64 0))

/-! ### Links train and reset (R56, R381, R382, R387) -/

/-- A link is down: its endpoint takes rings when it trains. -/
def noRetry (ep : Nat) (s : State) : State := s.setPorts { s.ports with ringless := s.ports.ringless.filter (· != ep) }

/-- A link trains, or goes down with width 0. A width under the bound of POLICY_SET does not come up (R646). -/
def trainLink (n k : Nat) (x : PLink) (s : State) : State :=
  let b := pbOf s n
  let old := (b.links[k]?).getD {}
  let full := (bifurLanes b.bifur).getD k 0
  let up := decide (x.width ∈ [1, 2, 4, 8, 16] ∧ x.width ≤ full ∧ lookD s.tel.minWidth n 1 ≤ x.width) && b.role != 0
  if !up then
    (let s := noRetry (4 * n + k) (setLink (4 * n + k) { gen := old.gen, seen := old.seen } s)
     if b.role = 2 ∧ 0 < old.width then endpointReset (4 * n + k) s else s)
  else
    let l : PLink := { x with speed := clampN 1 b.maxSpeed x.speed, downtrained := decide (x.width < full), seen := true, gen := old.gen }
    let s := setLink (4 * n + k) l s
    let s := if old.seen then warn 1 1 (bump (blkPb n) 0x114 s) else s
    let s := if l.downtrained then
        logPolicy (blkIsland (blkPb n)) 8 4 (blkPb n) (if old.width = 0 then full else old.width) x.width (bump (blkPb n) 0x118 s)
      else s
    if b.role = 2 then
      armEndpoint (4 * n + k) s
    else s

/-- An accelerator link is reset: its endpoint's generation rises and its session ends. -/
def resetAccelLink (n k : Nat) (s : State) : State :=
  if (pbOf s n).role = 2 ∧ k < (bifurLanes (pbOf s n).bifur).length then
    (let l := linkOf s (4 * n + k)
     endpointReset (4 * n + k) (noRetry (4 * n + k) (setLink (4 * n + k) { gen := l.gen, seen := l.seen } s)))
  else s

/-- Hot reset of an accelerator link. -/
def execAcceleratorLinkReset (block link : Nat) (s : State) : Host.Outcome State Fault Refusal :=
  .next (if 19 < block then s else resetAccelLink block link s)

/-- Secondary Bus Reset of a downstream bridge resets its accelerator link by hot reset. -/
def execSecondaryBusReset (block link : Nat) (s : State) : Host.Outcome State Fault Refusal :=
  .next (if 19 < block then s else resetAccelLink block link s)

/-! ### The queue region (R396) -/

/-- The byte of the queue region at an offset: its DPA where a ring lies there. -/
def regionByte (s : State) (hp off : Nat) : Option Nat :=
  match s.ports.qrings.find? (fun q => q.hp == hp && decide (q.page ≤ off / 4096 ∧ off / 4096 < q.page + q.pages)) with
  | some q =>
    let o := off - q.page * 4096
    (q.frames[o / frameBytes]?).map (fun f => f * frameBytes + o % frameBytes)
  | none => none

/-- An access to BAR2 of a host port's PF0: the doorbell pages and the reserved range behind them read zero without effect (R393, R395; a write to a
doorbell page is a row of its own), and from 256 MiB on lies the queue region, in which a page that holds no ring reads zero and ignores writes, and both
are counted (R396). -/
def execQueueRegionAccess (hostPort bar2 length : Nat) (write : Option Bytes) (s : State) : Host.Outcome State Fault Refusal :=
  let offset := bar2 - 0x10000000
  let d := regionByte s hostPort offset
  .next (if !running s then unserved hostPort write.isNone s
    else if s.tel.frozen then frozenAccess length write.isNone s
    else if bar2 < 0x10000000 then (if write.isNone then emit (.readData (List.replicate length 0) false) s else s)
    else if requestAborted s hostPort (d.getD 0) (if d.isSome then min length (4096 - offset % 4096) else 0) then
      completerAbort hostPort write.isNone s
    else match d with
    | none =>
      let s := countUnmapped bar2 s
      (match write with
       | some _ => s
       | none => emit (.readData (List.replicate length 0) false) s)
    | some dpa =>
      let n := min length (4096 - offset % 4096)
      hostAccess { dpa := dpa, len := n, write := write.map (·.take n) } s)

end Sys2Proof.Machine
end

