-- ==== Sys2Proof/Machine/Alarm.lean ====
section
/-! DEFINITION. What an alarm does at once (R576, R607 to R609), and the cipher engine's own check (R602, R603). -/

namespace Sys2Proof.Machine

open Sys2Proof

def dtKeyEmpty : Nat := 0x0160

/-- Every working secret is erased: key material, the key cache, IDE stream keys, SPDM sessions and, until the alarm is cleared, the identity keys (R572). -/
def wipeKeys (s : State) : State :=
  s.setSec { s.sec with keys := s.sec.keys.map (fun e => (e.1, { e.2 with material := none, sealedCopy := none })), keyCache := [], ide := [], spdm := [], identity := false, deviceKey := false, provisionKey := false }

/-- A crypto erase standing in KEY_ERASED is held until keys are provisioned again (R468). -/
def holdCryptoErase (s : State) : State :=
  s.setSto { s.sto with ns := s.sto.ns.map (fun e =>
    (e.1, if e.2.san.state = 2 then { e.2 with san := { e.2.san with held := true } } else e.2)) }

/-- With no domain course key held, an open course aborts (R597). -/
def abortKeyless (s : State) : State := if (domainKeys s).isEmpty then abortCourse dtKeyEmpty s else s

/-- An alarm source raises its bit (R608). The first of an episode burns an epoch bit. -/
def alarmCore (k : Nat) (s : State) : State :=
  let first := decide (s.sec.alarm = 0)
  let s := bump blkCipher 0x110 (s.setSec { s.sec with alarm := s.sec.alarm ||| 2 ^ k, epoch := if first then min 128 (s.sec.epoch + 1) else s.sec.epoch,
                                                       sealedCopies := true })
  let s := recordCon blkCipher 0x0103 [s.sec.alarm] (holdCryptoErase (wipeKeys s))
  abortKeyless s

/-- The cipher engine's check of an operation's blocks (R602, R603): none, a retry that passed, or a second mismatch. -/
def cipherCheck (requester c : Nat) (s : State) : State :=
  if c = 1 then recordCor blkCipher 0x0101 [requester] (bump blkCipher 0x114 s)
  else if c = 2 then alarmCore 4 (recordCon blkCipher 0x0102 [requester] (bump blkCipher 0x118 s))
  else s

end Sys2Proof.Machine
end

