-- ==== Sys2Proof/Machine/Nvme.lean ====
section
/-! DEFINITION. The storage service at work: NVM Express queues and completions, the legs of a namespace, range locks, journals, sanitize, and what goes on when something frees (chapter 10). -/

namespace Sys2Proof.Machine

open Sys2Proof

/-! ### NVM Express status codes: status code type × 256 + status code -/

def nvOk : Nat := 0x00
def nvBadOpcode : Nat := 0x01
def nvBadField : Nat := 0x02
def nvTransfer : Nat := 0x04
def nvInternal : Nat := 0x06
def nvAborted : Nat := 0x07
def nvSqDeleted : Nat := 0x08
def nvBadNs : Nat := 0x0B
def nvSanFailed : Nat := 0x1C
def nvSanitizing : Nat := 0x1D
def nvProtected : Nat := 0x20
def nvLbaRange : Nat := 0x80
def nvNotReady : Nat := 0x82
def nvFormatting : Nat := 0x84
def nvBadCq : Nat := 0x100
def nvBadQid : Nat := 0x101
def nvBadQSize : Nat := 0x102
def nvBadVector : Nat := 0x108
def nvBadLog : Nat := 0x109
def nvBadFormat : Nat := 0x10A
def nvBadDelete : Nat := 0x10C
def nvUnread : Nat := 0x281
def nvMiscompare : Nat := 0x285

/-! ### Controllers and namespaces -/

def ctrlOf (s : State) (fn : Nat) : Nvme := lookD s.sto.ctrls fn {}
def setCtrl (fn : Nat) (c : Nvme) (s : State) : State := s.setSto { s.sto with ctrls := put s.sto.ctrls fn c }
def updCtrl (fn : Nat) (f : Nvme → Nvme) (s : State) : State := setCtrl fn (f (ctrlOf s fn)) s
def nsOf (s : State) (n : Nat) : Option Ns := look s.sto.ns n
def nsD (s : State) (n : Nat) : Ns := lookD s.sto.ns n {}
def setNs (n : Nat) (x : Ns) (s : State) : State := s.setSto { s.sto with ns := put s.sto.ns n x }
def updNs (n : Nat) (f : Ns → Ns) (s : State) : State :=
  match nsOf s n with
  | some x => setNs n (f x) s
  | none => s
def updLeg (n i : Nat) (f : Leg → Leg) (s : State) : State :=
  updNs n (fun x => { x with legs := x.legs.zipIdx.map (fun e => if e.2 = i then f e.1 else e.1) }) s

/-- A function is an NVM Express controller (R436). -/
def isController (s : State) (fn : Nat) : Bool := match fnOf s fn with | some f => f.pf == 1 | none => false

def lbaBytes (x : Ns) : Nat := if x.lbaFormat = 0 then 512 else 4096
def nsLbas (x : Ns) : Nat := x.bytes / lbaBytes x

/-- The namespace's key is empty (R457). -/
def keyGone (s : State) (x : Ns) : Bool := x.encrypted && ((keyMaterial s x.key).isNone || !keyedAllowed s)

/-- Detail SANITIZE_ACTIVE (R478). -/
def dtSanActive : Nat := 0x0144

/-- Sanitize or Format runs on a namespace (R465). -/
def sanActive (x : Ns) : Bool := decide (1 ≤ x.san.state ∧ x.san.state ≤ 5)

/-- Namespaces attached to a controller. -/
def attachedTo (s : State) (fn : Nat) : List (Nat × Ns) := s.sto.ns.filter (fun e => e.2.attached.contains fn)

/-- Both journals of an atomic namespace have failed (R463). -/
def journalsLost (x : Ns) : Bool := x.atomic && x.journalFailed.contains x.journalA && x.journalFailed.contains x.journalB

/-- Some leg is in sync. -/
def hasLeg (x : Ns) : Bool := x.legs.any (fun l => l.state == 0)

/-- No leg holds the data, or both journals of an atomic namespace have failed: writes are refused (R453, R463). -/
def writeProtected (x : Ns) : Bool := !hasLeg x || journalsLost x

/-! ### Local SSDs (R446) -/

/-- SSD i is present: link i % 4 of the storage-role block i / 4 is up. -/
def ssdPresent (s : State) (i : Nat) : Bool :=
  decide (i < 80) && (pbOf s (i / 4)).role == 4 && (((pbOf s (i / 4)).links[i % 4]?).getD {}).width != 0
def ssdReady (s : State) (i : Nat) : Bool := ssdPresent s i && !s.sto.failedSsds.contains i

/-- SSDs of a local leg. -/
def legWidth (l : Leg) : Nat := max 1 l.ssds.length

/-- Where a byte of a namespace lies on its local leg: which of its SSDs, in ascending index, and the byte of the leg's part of that SSD, extents
counted one after the other. Stripe units of 2^STRIPE_LOG2 bytes go to the SSDs in turn (R446). -/
def stripePlace (x : Ns) (l : Leg) (off : Nat) : Nat × Nat :=
  let u := 2 ^ x.stripe
  (off / u % legWidth l, off / u / legWidth l * u + off % u)

/-- The key under which a leg's contents list a byte of the namespace: its place on the leg's SSDs, or the byte of the remote region. -/
def legKey (x : Ns) (l : Leg) (off : Nat) : Nat :=
  if l.kind = 1 then (stripePlace x l off).2 * legWidth l + (stripePlace x l off).1 else off

/-- The extent of a leg that holds a key, by its number among the leg's extents; a remote leg counts its GiB. -/
def legExtent (l : Leg) (k : Nat) : Nat :=
  if l.kind = 1 then k % legWidth l * (l.extents.length / legWidth l) + k / legWidth l / 2 ^ 30 else k / 2 ^ 30

/-- The SSD and extent on it that hold a byte of a local leg: the first 1 GiB of an SSD, extent 0, is its metadata area (R446). -/
def ssdExtentAt (x : Ns) (l : Leg) (off : Nat) : Option (Nat × Nat) := l.extents[legExtent l (legKey x l off)]?

/-- What an extent was last filled with, at a key: the byte of the 32-bit overwrite pattern, or zero (R451, R466). -/
def legFill (l : Leg) (k : Nat) : Byte :=
  BitVec.ofNat 8 (lookD l.fills (legExtent l k) 0 / 256 ^ (k / legWidth l % 4))

/-- Bytes of a leg as it holds them, from a byte of the namespace on. -/
def rawGet (x : Ns) (l : Leg) (off n : Nat) : Bytes :=
  (List.range n).map (fun i => memGet l.cells (legKey x l (off + i)) ^^^ legFill l (legKey x l (off + i)))

/-- Bytes laid on a leg. -/
def rawPut (x : Ns) (l : Leg) (off : Nat) (data : Bytes) : Leg :=
  { l with cells := data.zipIdx.foldl (fun m e => memPut m (legKey x l (off + e.2)) (e.1 ^^^ legFill l (legKey x l (off + e.2)))) l.cells }

/-- An extent of a leg is filled with a pattern, zero for an erasure. -/
def fillExtent (e pattern : Nat) (l : Leg) : Leg :=
  { l with cells := l.cells.filter (fun c => decide (legExtent l c.1 ≠ e)),
           fills := if pattern = 0 then del l.fills e else put l.fills e pattern }

/-- Extents of a leg; a remote leg counts one for each GiB. -/
def legExtents (x : Ns) (l : Leg) : Nat := if l.kind = 1 then l.extents.length else ceilDiv x.bytes (2 ^ 30)

/-! ### The data of an encrypted namespace (R456) -/

/-- One logical block under the namespace's key, its LBA the tweak. -/
def cipherBlock (key lba : Nat) (b : Bytes) : Bytes :=
  leBytes b.length ((Config.xts key lba (8 * b.length)) (BitVec.ofNat (8 * b.length) (le b 0 b.length))).toNat
def decipherBlock (key lba : Nat) (b : Bytes) : Bytes :=
  leBytes b.length ((Config.xts key lba (8 * b.length)).symm (BitVec.ofNat (8 * b.length) (le b 0 b.length))).toNat

/-- Block j of data that starts at a block boundary. -/
def blockOf (b j : Nat) (data : Bytes) : Bytes := (data.drop (j * b)).take b

/-- How many blocks a range of bytes touches, the first being off / b. -/
def lbasTouched (b off n : Nat) : Nat := (off + n + b - 1) / b - off / b

/-- The bytes of a leg as the namespace holds them: deciphered where the namespace is encrypted; a deallocated block reads zeros. -/
def legRead (s : State) (x : Ns) (l : Leg) (off n : Nat) : Bytes :=
  if !x.encrypted then rawGet x l off n
  else
    let b := lbaBytes x
    let f := off / b
    let plain := ((List.range (lbasTouched b off n)).map (fun j =>
      if x.mapped.contains (f + j) then decipherBlock ((keyMaterial s x.key).getD 0) (f + j) (rawGet x l ((f + j) * b) b)
      else List.replicate b 0)).flatten
    (plain.drop (off - f * b)).take n

/-- What the legs and the journal hold for data written at a byte: itself, or the ciphertext of every block that it touches (R456). -/
def stored (s : State) (x : Ns) (off : Nat) (data : Bytes) : Nat × Bytes :=
  if !x.encrypted || data.isEmpty then (off, data)
  else match keyMaterial s x.key with
    | none => (off, [])
    | some key =>
      let b := lbaBytes x
      let f := off / b
      let c := lbasTouched b off data.length
      let old := legRead s x ((x.legs.find? (fun l => l.state == 0)).getD {}) (f * b) (c * b)
      let plain := setBytes old (off - f * b) data
      (f * b, ((List.range c).map (fun j => cipherBlock key (f + j) (blockOf b j plain))).flatten)

/-- Extents of a journal region. -/
def journalExtents (x : Ns) : Nat := if x.atomic then ceilDiv x.journalMib 1024 else 0

/-- Extents of an SSD in use by number; journal regions take the highest ones and are counted. -/
def ssdExtents (s : State) (i : Nat) : List Nat :=
  (s.sto.ns.map (fun e => (e.2.legs.map (fun l => (l.extents.filter (fun x => x.1 == i)).map (·.2))).flatten)).flatten
def ssdJournals (s : State) (i : Nat) : Nat :=
  (s.sto.ns.map (fun e => (if e.2.journalA = i then journalExtents e.2 else 0) + (if e.2.journalB = i then journalExtents e.2 else 0))).sum
def ssdFree (s : State) (i : Nat) : Nat := Config.ssdGib i - 1 - (ssdExtents s i).length - ssdJournals s i

/-! ### Completions and interrupts (R403, R442, R445) -/

/-- An interrupt of a completion queue: at once, or gathered by Interrupt Coalescing; the admin queue's are never gathered. -/
def nvmeIrq (fn cq : Nat) (q : NCq) (s : State) : State :=
  let c := ctrlOf s fn
  let time := bits c.coalesce 8 8
  let thr := bits c.coalesce 0 8
  if !q.ien then s
  else if cq = 0 ∨ time = 0 ∨ c.noCoalesce.contains q.vector then raiseMsix fn q.vector s
  else
    let n := lookD c.coalesced q.vector 0 + 1
    if thr < n then raiseMsix fn q.vector (setCtrl fn { c with coalesced := del c.coalesced q.vector } s)
    else setCtrl fn { c with coalesced := put c.coalesced q.vector n } s

/-- Host memory of a controller may be written: its PF is in D0 (R423). -/
def hostAwake (s : State) (fn : Nat) : Bool := (fnD s fn).dstate == .d0

/-- A completion entry is written to its queue, after the data of its command. -/
def nvmeWrite (fn sq cid status dw0 : Nat) (writes : List (Nat × Bytes)) (s : State) : State :=
  let c := ctrlOf s fn
  match look c.sqs sq with
  | none => s
  | some q => match look c.cqs q.cq with
    | none => s
    | some cq =>
      let e := layout 16 [(0, 4, dw0), (8, 2, q.head), (0xA, 2, sq), (0xC, 2, cid), (0xE, 2, status * 2 + bit cq.pass)]
      let last := decide (cq.prod + 1 = cq.size)
      let cq' := { cq with prod := if last then 0 else cq.prod + 1, pass := if last then !cq.pass else cq.pass }
      let s := perfEvent blkStorage 0x100 1 (writes.foldl (fun s w => dmaOut fn w.1 w.2 s) s)
      nvmeIrq fn q.cq cq' (dmaOut fn (cq.base + 16 * cq.prod) e (setCtrl fn { c with cqs := put c.cqs q.cq cq' } s))

/-- A command completes: at once, or held until the PF is back in D0. -/
def nvmeDone (fn sq cid status dw0 : Nat) (writes : List (Nat × Bytes)) (s : State) : State :=
  if !hostHeld s fn then nvmeWrite fn sq cid status dw0 writes s
  else updCtrl fn (fun c => { c with held := c.held ++ [{ sq := sq, cid := cid, status := status, dw0 := dw0, writes := writes }] }) s

/-- Data laid over the runs of memory that PRP entries name. -/
def prpWrites : List (Nat × Nat) → Bytes → List (Nat × Bytes)
  | [], _ => []
  | r :: rest, d => if d.isEmpty then [] else (r.1, d.take r.2) :: prpWrites rest (d.drop r.2)

/-! ### Asynchronous events (R440, R444, R451) -/

/-- An event of a type waits for an Asynchronous Event Request, or completes one; its type is then masked until its log is read. -/
def asyncEvent (fn type info log : Nat) (s : State) : State :=
  let c := ctrlOf s fn
  let dw := type + info * 256 + log * 65536
  if c.masked.contains type then s
  else match c.aers with
    | [] => setCtrl fn { c with events := c.events ++ [dw] } s
    | cid :: rest => nvmeDone fn 0 cid nvOk dw [] (setCtrl fn { c with aers := rest, masked := c.masked ++ [type] } s)

/-- Namespace Attribute Changed (R451). -/
def nsChanged (fn nsid : Nat) (s : State) : State :=
  let s := updCtrl fn (fun c => { c with changed := if c.changed.contains nsid then c.changed else c.changed ++ [nsid] }) s
  if (ctrlOf s fn).asyncMask.testBit 8 then asyncEvent fn 2 0 4 s else s

/-! ### Legs (R452 to R455) -/

/-- A change of a namespace's legs or journals is logged (log 53). -/
def logStorage (nsid old new : Nat) (s : State) : State := logPolicy (blkIsland blkStorage) 7 4 (nsid % 65536) old new s

/-- A leg fails. -/
def failLeg (n i : Nat) (s : State) : State :=
  match (nsD s n).legs[i]? with
  | some l =>
    if l.state = 2 then s
    else
      let other := ((nsD s n).legs.zipIdx.any (fun e => decide (e.2 ≠ i) && e.1.state == 0))
      logStorage n l.state 2 (updLeg n i (fun l => { l with state := 2, copied := 0, stale := other || l.state == 1 }) s)
  | none => s

/-- The extent at which an operation goes on once leg i, with its extents, has left the namespace. -/
def extentWithout (x : Ns) (i : Nat) : Nat :=
  let before := ((x.legs.take i).map (legExtents x)).sum
  let mine := legExtents x ((x.legs[i]?).getD {})
  if x.san.extent < before then x.san.extent else max before (x.san.extent - mine)

/-- A leg fails; during Sanitize or Format it leaves the namespace (R453, R470). -/
def legDown (n i : Nat) (s : State) : State :=
  let s := failLeg n i s
  if sanActive (nsD s n) && decide (i < (nsD s n).legs.length) then
    updNs n (fun x => { x with san := { x.san with extent := extentWithout x i },
                               legs := (x.legs.zipIdx.filter (fun e => decide (e.2 ≠ i))).map (·.1) }) s
  else s

/-- Legs of a kind fail on every namespace. -/
def failLegsOf (p : Leg → Bool) (s : State) : State :=
  s.sto.ns.foldl (fun s e => ((e.2.legs.zipIdx.filter (fun l => p l.1)).map (·.2)).reverse.foldl (fun s i => legDown e.1 i s) s) s

/-- A leg lies behind a connection. -/
def legBehind (h : Nat) (l : Leg) : Bool := l.kind == 2 && l.conn == h

/-- Numbers joined to a list that does not hold them yet. -/
def joinNew (l new : List Nat) : List Nat := new.foldl (fun d r => if d.contains r then d else d ++ [r]) l

/-- The dirty-region bitmap as a write leaves it: the bits of its regions set, and those of earlier writes cleared where both legs hold them,
every leg being in sync. The rule clears a bit lazily: here, with the next write (R455; log 216). -/
def dirtyAfter (x : Ns) (off n : Nat) : List Nat :=
  if decide (1 < x.legs.length) && !x.atomic && decide (0 < n) then
    joinNew (if x.legs.all (fun l => l.state == 0) then [] else x.dirty)
      ((List.range ((off + n - 1) / 1048576 - off / 1048576 + 1)).map (off / 1048576 + ·))
  else x.dirty

/-- Bytes as the legs hold them are written on every leg that is IN_SYNC or RESYNCING, but for those that fail. -/
def rawLegs (n off : Nat) (data : Bytes) (fails : List Nat) (s : State) : State :=
  let s := updNs n (fun x => { x with
    legs := x.legs.zipIdx.map (fun e => if e.1.state = 2 ∨ fails.contains e.2 then e.1 else rawPut x e.1 off data),
    dirty := dirtyAfter x off data.length,
    mapped := if x.encrypted then joinNew x.mapped ((List.range (data.length / lbaBytes x)).map (off / lbaBytes x + ·)) else x.mapped }) s
  fails.foldl (fun s i => failLeg n i s) s

/-- Data is written on every leg that takes writes (R452), enciphered on an encrypted namespace (R456). -/
def writeLegs (n off : Nat) (data : Bytes) (fails : List Nat) (s : State) : State :=
  let p := stored s (nsD s n) off data
  rawLegs n p.1 p.2 fails s

/-- The leg a read goes to, and then the others that are in sync: fewer bytes queued first, the lower index on a tie (R452). -/
def readOrder (x : Ns) (queued : List Nat) : List Nat :=
  sortBy (fun a b => decide (queued.getD a 0 < queued.getD b 0 ∨ (queued.getD a 0 = queued.getD b 0 ∧ a ≤ b)))
    ((List.range x.legs.length).filter (fun i => ((x.legs[i]?).map (·.state)) == some 0))

/-- What the namespace's legs return for a range; none: no leg returns it. -/
def readLegs (s : State) (x : Ns) (off n : Nat) (io : NvmeIo) : Option Bytes :=
  ((readOrder x io.queued).find? (fun i => !io.readFail.contains i)).map (fun i => legRead s x ((x.legs[i]?).getD {}) off n)

/-- The legs a read failed on before one returned its data. -/
def failedFirst (x : Ns) (io : NvmeIo) : List Nat :=
  let order := readOrder x io.queued
  if order.any (fun i => !io.readFail.contains i) then order.takeWhile (fun i => io.readFail.contains i) else []

/-- A range of a namespace on one leg, as another leg holds it. -/
def copyRange (x : Ns) (src : Leg) (off n : Nat) (dst : Leg) : Leg := rawPut x dst off (rawGet x src off n)

/-- The leg that a read returned its data from. -/
def readLeg (x : Ns) (io : NvmeIo) : Option Leg :=
  ((readOrder x io.queued).find? (fun i => !io.readFail.contains i)).map (fun i => (x.legs[i]?).getD {})

/-- The failed range is rewritten on the legs it failed on, with what another leg returned (R452). -/
def repairRead (n off len : Nat) (io : NvmeIo) (s : State) : State :=
  let x := nsD s n
  match readLeg x io with
  | some src => (failedFirst x io).foldl (fun s i => updLeg n i (copyRange x src off len) s) s
  | none => s

/-! ### Range locks (R458 to R460) -/

/-- An operation holds a range-lock entry. -/
def holdsEntry (o : NvmeOp) : Bool := o.phase != .entry && o.phase != .flush

/-- Entries a function holds of its allotment. -/
def locksUsed (s : State) (fn : Nat) : Nat := (s.sto.ops.filter (fun o => o.fn == fn && o.resync.isNone && holdsEntry o)).length

/-- A function may take an entry: its allotment has one free, and no earlier command of it waits for one (R460). -/
def entryFree (s : State) (fn : Nat) : Bool :=
  decide (locksUsed s fn < (fnD s fn).allot.locks) && !s.sto.ops.any (fun x => x.fn == fn && x.phase == .entry)

/-- Two entries conflict. -/
def conflicts (a b : NvmeOp) : Bool :=
  a.cmd.nsid == b.cmd.nsid && (a.write || b.write) && decide (a.first < b.first + b.count ∧ b.first < a.first + a.count)

/-- An entry that arrived before an operation conflicts with it. -/
def blocked (s : State) (o : NvmeOp) : Bool :=
  (s.sto.ops.takeWhile (fun x => x.id != o.id)).any (fun x => holdsEntry x && conflicts x o)

def updOp (id : Nat) (f : NvmeOp → NvmeOp) (s : State) : State :=
  s.setSto { s.sto with ops := updFirst (fun o => o.id == id) f s.sto.ops }
def dropOp (id : Nat) (s : State) : State := s.setSto { s.sto with ops := s.sto.ops.filter (fun o => o.id != id) }

/-- An operation's completion, posted once; of an operation whose queue or controller is gone it is discarded (R474), and
counted where it carries an older generation of its function (R42). -/
def postOp (o : NvmeOp) (status : Nat) (writes : List (Nat × Bytes)) (s : State) : State :=
  if o.resync.isSome then s
  else if o.posted then
    (if o.gen = genOf s o.fn then s else updFn o.fn (fun f => { f with lateDiscarded := (f.lateDiscarded + 1) % 2 ^ 64 }) s)
  else nvmeDone o.fn o.sq o.cmd.cid status 0 writes s

/-- An operation ends with a status, its entry released. -/
def endOp (o : NvmeOp) (status : Nat) (writes : List (Nat × Bytes)) (s : State) : State :=
  postOp o status writes (dropOp o.id s)

/-! ### Running an operation that holds its entry -/

/-- The ranges of a Dataset Management: attributes, length, first block. -/
def dsmRanges (c : NvmeCmd) (data : Bytes) : List (Nat × Nat) :=
  (List.range (bits c.dw10 0 8 + 1)).map (fun i => (le data (16 * i + 8) 8, le data (16 * i + 4) 4))

/-- The bytes an operation writes. -/
def opBytes (x : Ns) (o : NvmeOp) : Bytes :=
  if o.opcode = 1 then ((o.io.data.getD []) ++ List.replicate (o.count * lbaBytes x) 0).take (o.count * lbaBytes x)
  else List.replicate (o.count * lbaBytes x) 0

/-- A write that the namespace makes atomic: at most 256 KiB on an atomic namespace (R461). -/
def journalled (x : Ns) (o : NvmeOp) : Bool :=
  x.atomic && o.resync.isNone && (o.opcode == 1 || o.opcode == 8) && decide (o.count * lbaBytes x ≤ 262144)

/-- The 4 KiB header of a journal record without its CRC: the namespace, the LBA range and the sequence number, at the model's own offsets
(log 216). -/
def recHeader (n : Nat) (b : Nat) (r : JRec) : Bytes :=
  layout 4096 [(0, 4, n), (8, 8, r.first), (0x10, 4, r.data.length / b), (0x18, 8, r.seq)]

/-- The CRC-32C of a record, over header and data, under the parameters of R117 without the DPA (R462). -/
def recCrc (n : Nat) (b : Nat) (r : JRec) : Nat := (crc32c (recHeader n b r ++ r.data)).toNat

/-- A record with its CRC. -/
def withCrc (n : Nat) (b : Nat) (r : JRec) : JRec := { r with crc := recCrc n b r }

/-- Bytes of a journal record, and those of the records not retired. -/
def recBytes (d : Bytes) : Nat := 4096 + d.length
def journalUsed (x : Ns) : Nat := (x.journal.map (fun r => recBytes r.data)).sum

/-- A journal record is written, where there is room for it (R462, R463). -/
def writeRecord (o : NvmeOp) (s : State) : State :=
  let x := nsD s o.cmd.nsid
  let d := (stored s x (o.first * lbaBytes x) (opBytes x o)).2
  if journalUsed x + recBytes d ≤ x.journalMib * 1048576 then
    updOp o.id (fun o => { o with phase := .journal }) (bump blkStorage 0x110 (setNs o.cmd.nsid
      { x with journal := x.journal ++ [withCrc o.cmd.nsid (lbaBytes x) { seq := x.journalSeq, op := o.id, first := o.first, data := d }],
               journalSeq := x.journalSeq + 1 } s))
  else if o.phase = .room then s
  else updOp o.id (fun o => { o with phase := .room }) (bump blkStorage 0x118 s)

/-- One 1 MiB piece of a resync is copied; the leg is in sync after the last (R454). -/
def copyPiece (n i first count : Nat) (s : State) : State :=
  let x := nsD s n
  let b := lbaBytes x
  match (x.legs.find? (fun l => l.state == 0)) with
  | some src => updLeg n i (fun l =>
      if l.state = 1 then
        { copyRange x src (first * b) (count * b) l with
            copied := l.copied + count * b, state := if x.bytes ≤ l.copied + count * b then 0 else 1,
            stale := decide (l.copied + count * b < x.bytes) }
      else l) s
  | none => s

/-- A Dataset Management gives up the entry of one range and arrives at the lock table anew with its next (R458). -/
def nextRange (o : NvmeOp) (first count : Nat) (rest : List (Nat × Nat)) (s : State) : State :=
  let s := dropOp o.id s
  s.setSto { s.sto with ops := s.sto.ops ++
    [{ o with first := first, count := count, ranges := rest, phase := if entryFree s o.fn then .lock else .entry }] }

/-- An operation starts: it runs to its end, or, an atomic write, goes to the journal. -/
def startOp (o : NvmeOp) (s : State) : State :=
  let x := nsD s o.cmd.nsid
  let off := o.first * lbaBytes x
  let n := o.count * lbaBytes x
  let gone := keyGone s x
  let s := if x.encrypted ∧ !gone then cipherCheck o.fn o.io.cipher s else s
  match o.resync with
  | some leg => dropOp o.id (copyPiece o.cmd.nsid leg o.first o.count s)
  | none =>
    if gone then endOp o nvNotReady [] s
    else if x.encrypted ∧ o.io.cipher = 2 then endOp o nvInternal [] s
    else if o.opcode = 2 ∨ o.opcode = 5 ∨ o.opcode = 0xC then
      match readLegs s x off n o.io with
      | none => endOp o nvUnread [] s
      | some d =>
        let s := repairRead o.cmd.nsid off n o.io s
        if o.opcode = 2 then endOp o nvOk (prpWrites o.cmd.prp d) s
        else if o.opcode = 5 then endOp o (if (o.io.data.getD []).take n = d then nvOk else nvMiscompare) [] s
        else endOp o nvOk [] s
    else if writeProtected x then endOp o nvProtected [] s
    else if journalled x o then writeRecord o s
    else
      let s := writeLegs o.cmd.nsid off (opBytes x o) o.io.writeFail s
      if !hasLeg (nsD s o.cmd.nsid) then endOp o nvTransfer [] s
      else match o.ranges with
        | [] => endOp o nvOk [] s
        | r :: rest => nextRange o r.1 r.2 rest s

/-- An operation that holds an entry starts where nothing earlier conflicts; a Dataset Management goes on through its ranges. -/
def tryStart (o : NvmeOp) : Nat → State → State
  | 0, s => s
  | fuel + 1, s =>
    match s.sto.ops.find? (fun x => x.id == o.id) with
    | some o => if o.phase == .lock && !blocked s o then tryStart o fuel (startOp o s) else s
    | none => s

/-- A command waits at the lock table; the wait is counted once (R476). -/
def noteWait (id : Nat) (s : State) : State :=
  match s.sto.ops.find? (fun x => x.id == id) with
  | some o => if (o.phase == .entry || o.phase == .lock) && !o.waited && o.resync.isNone then
      updOp id (fun o => { o with waited := true }) (bump blkStorage 0x108 s) else s
  | none => s

/-- An operation arrives at the lock table (R458, R460). -/
def arrive (o : NvmeOp) (s : State) : State :=
  let id := s.sto.nextOp
  let o := { o with id := id, phase := if o.resync.isSome || entryFree s o.fn then .lock else .entry }
  noteWait id (tryStart o (1 + o.ranges.length) (s.setSto { s.sto with ops := s.sto.ops ++ [o], nextOp := id + 1 }))

/-! ### Commands to namespaces (R440, R441, R457, R467) -/

/-- Records of a start's replay still stand: no leg or no readable journal copy took them (R464). -/
def replayWaits (s : State) (x : Ns) : Bool := x.atomic && x.journal.any (fun r => !s.sto.ops.any (fun o => o.id == r.op))

/-- A command to a namespace is refused: the status, where one applies before its lock. -/
def ioStatus (s : State) (fn op : Nat) (c : NvmeCmd) (io : NvmeIo) : Nat :=
  let ctl := ctrlOf s fn
  if !(([0, 1, 2, 5, 8, 9, 0xC] : List Nat).contains op) then nvBadOpcode
  else match nsOf s c.nsid with
    | none => nvBadNs
    | some x =>
      let n := bits c.dw12 0 16 + 1
      let slba := c.dw10 % 2 ^ 32 + c.dw11 % 2 ^ 32 * 2 ^ 32
      if !x.attached.contains fn || s.icp.waits.any (fun w => w.kind == WaitKind.detach && w.obj == c.nsid) then nvBadNs
      else if sanActive x then (if x.san.format then nvFormatting else nvSanitizing)
      else if (match ctl.sanWait with
          | some (o, k) => o == 0x84 || k.nsid == c.nsid || k.nsid == 0xFFFFFFFF | none => false) then
        (match ctl.sanWait with | some (0x84, _) => nvSanitizing | _ => nvFormatting)
      else if x.san.state = 7 ∧ !x.san.format then nvSanFailed
      else if keyGone s x || replayWaits s x then nvNotReady
      else if op = 0 then nvOk
      else if op = 9 then (if io.data.isNone then nvTransfer else nvOk)
      else if nsLbas x < slba + n then nvLbaRange
      else if op ≠ 8 ∧ op ≠ 0xC ∧ 2097152 < n * lbaBytes x then nvBadField
      else if (op = 1 ∨ op = 5) ∧ io.data.isNone then nvTransfer
      else if (op = 1 ∨ op = 8) ∧ writeProtected x then nvProtected
      else nvOk

/-- An I/O command that has been fetched. -/
def ioCommand (fn sq op : Nat) (c : NvmeCmd) (io : NvmeIo) (s : State) : State :=
  let st := ioStatus s fn op c io
  let o : NvmeOp := { id := 0, fn := fn, gen := genOf s fn, sq := sq, opcode := op, cmd := c, io := io, phase := .lock }
  if st ≠ nvOk then nvmeDone fn sq c.cid st 0 [] s
  else if op = 0 then
    (if s.sto.ops.any (fun x => x.cmd.nsid == c.nsid && x.write && !x.posted && x.resync.isNone) then
      s.setSto { s.sto with ops := s.sto.ops ++ [{ o with id := s.sto.nextOp, phase := .flush }], nextOp := s.sto.nextOp + 1 }
     else nvmeDone fn sq c.cid nvOk 0 [] s)
  else if op = 9 then
    (if !c.dw11.testBit 2 then nvmeDone fn sq c.cid nvOk 0 [] s
     else
       let rs := dsmRanges c (io.data.getD [])
       if rs.any (fun r => decide (nsLbas (nsD s c.nsid) < r.1 + r.2)) then nvmeDone fn sq c.cid nvLbaRange 0 [] s
       else if (fnD s fn).allot.locks = 0 then nvmeDone fn sq c.cid nvInternal 0 [] s
       else if writeProtected (nsD s c.nsid) then nvmeDone fn sq c.cid nvProtected 0 [] s
       else match rs with
         | [] => nvmeDone fn sq c.cid nvOk 0 [] s
         | r :: rest => arrive { o with first := r.1, count := r.2, ranges := rest, write := true } s)
  else if (fnD s fn).allot.locks = 0 then nvmeDone fn sq c.cid nvInternal 0 [] s
  else arrive { o with first := c.dw10 % 2 ^ 32 + c.dw11 % 2 ^ 32 * 2 ^ 32, count := bits c.dw12 0 16 + 1, write := op == 1 || op == 8 } s

/-! ### Sanitize and Format (R465 to R469) -/

/-- Extents of a namespace over its legs, one leg after the other. -/
def sanExtents (x : Ns) : Nat := max 1 ((x.legs.map (legExtents x)).sum)

/-- One extent of a namespace is filled on the leg that has it: with zeros, or with a pass of an overwrite (R466). -/
def fillNs (x : Ns) (e pattern : Nat) : Ns :=
  { x with legs := x.legs.zipIdx.map (fun l =>
      let before := ((x.legs.take l.2).map (legExtents x)).sum
      if before ≤ e ∧ e < before + legExtents x l.1 then fillExtent (e - before) pattern l.1 else l.1) }

/-- What a pass of an overwrite writes: the pattern, inverted in every second pass where OIPBP is set (R466). -/
def passPattern (z : Sanitize) : Nat := if z.invert ∧ z.pass % 2 = 0 then 0xFFFFFFFF - z.pattern % 2 ^ 32 else z.pattern % 2 ^ 32

/-- The progress record as SPI flash takes it (R465). -/
def sanRecord (n : Nat) (s : State) : State :=
  let x := nsD s n
  emit (.flash "sanitize" (layout 24 [(0, 4, n), (4, 1, x.san.state), (5, 1, x.san.action), (6, 1, x.san.pass), (7, 1, bit x.san.format),
    (8, 8, x.san.extent), (0x10, 8, x.san.seq)])) s

/-- A progress record: the metadata areas take every one, SPI flash one for each change of state (R465). -/
def setSan (n : Nat) (f : Sanitize → Sanitize) (s : State) : State :=
  let t := updNs n (fun x => { x with san := { f x.san with seq := x.san.seq + 1 } }) s
  if (nsD t n).san.state = (nsD s n).san.state then t else sanRecord n t

/-- Namespaces that a Format names. -/
def formatTargets (s : State) (fn nsid : Nat) : List Nat :=
  (attachedTo s fn).filterMap (fun e => if nsid = 0xFFFFFFFF ∨ e.1 = nsid then some e.1 else none)

/-- What still runs on a namespace whose commands have completed ends, its records discarded: in-place writes and pieces of a resync (R467). -/
def dropOps (n : Nat) (s : State) : State := s.setSto { s.sto with ops := s.sto.ops.filter (fun o => o.cmd.nsid != n) }

/-- An operation is accepted once the commands fetched before it have completed: a Sanitize command then completes. -/
def acceptSan (fn op : Nat) (c : NvmeCmd) (s : State) : State :=
  let begin := fun (f : Sanitize) (n : Nat) (s : State) =>
    setSan n (fun x => { f with seq := x.seq }) (dropOps n (updNs n (fun x => { x with journal := [] }) s))
  if op = 0x84 then
    let p := bits c.dw10 4 4
    let f : Sanitize := { state := 1, action := bits c.dw10 0 3, passes := if p = 0 then 16 else p, pattern := c.dw11,
                          invert := c.dw10.testBit 8, fn := fn, cid := c.cid }
    nvmeDone fn 0 c.cid nvOk 0 [] ((attachedTo s fn).foldl (fun s e => begin f e.1 s) (updCtrl fn (fun k => { k with sanStatus := 2 }) s))
  else
    let ses := bits c.dw10 9 3
    let f : Sanitize := { state := 1, action := if ses = 1 then 2 else if ses = 2 then 4 else 0, format := true,
                          lbaf := bits c.dw10 0 4, fn := fn, cid := c.cid }
    (formatTargets s fn c.nsid).foldl (fun s n => begin f n s) s

/-- A controller has a command in progress. -/
def ctrlBusy (s : State) (fn : Nat) : Bool := s.sto.ops.any (fun o => o.fn == fn && o.resync.isNone && !o.posted)

/-! ### What goes on when something frees -/

/-- A function's waiting commands take entries of its allotment in order (R460). -/
def takeEntries (s : State) : State :=
  (s.sto.ops.filter (fun o => o.phase == .entry)).foldl (fun s o =>
    if locksUsed s o.fn < (fnD s o.fn).allot.locks
        ∧ !(s.sto.ops.takeWhile (fun x => x.id != o.id)).any (fun x => x.fn == o.fn && x.phase == .entry) then
      updOp o.id (fun o => { o with phase := .lock }) s
    else s) s

/-- Held records find room; commands to namespaces whose key has gone, or that are write-protected, end. -/
def freshenOps (s : State) : State :=
  s.sto.ops.foldl (fun s o =>
    let x := nsD s o.cmd.nsid
    match o.phase with
    | .room => if keyGone s x then endOp o nvNotReady [] s else if writeProtected x then endOp o nvProtected [] s else writeRecord o s
    | .entry => if keyGone s x then endOp o nvNotReady [] s else s
    | .lock => if keyGone s x && o.resync.isNone then endOp o nvNotReady [] s else s
    | .flush =>
      if keyGone s x then endOp o nvNotReady [] s
      else if s.sto.ops.any (fun y => decide (y.id < o.id) && y.cmd.nsid == o.cmd.nsid && y.write && !y.posted && y.resync.isNone)
      then s else endOp o nvOk [] s
    | _ => s) s

/-- Sanitize and Format commands whose earlier commands have completed are accepted; detaches complete. -/
def finishWaits (s : State) : State :=
  let s := s.sto.ctrls.foldl (fun s e => match (ctrlOf s e.1).sanWait with
    | some (op, c) => if ctrlBusy s e.1 then s else acceptSan e.1 op c (updCtrl e.1 (fun k => { k with sanWait := none }) s)
    | none => s) s
  (s.icp.waits.filter (fun w => w.kind == .detach)).foldl (fun s w =>
    if s.sto.ops.any (fun o => o.cmd.nsid == w.obj && o.fn == w.count && o.resync.isNone) then s
    else finishWait w stOk dtNone (layout 8 [(0, 4, w.obj), (4, 2, w.count)])
      (nsChanged w.count w.obj (updNs w.obj (fun x => { x with attached := [] }) s))) s

/-- Everything of the storage service that can go on without another event does so. -/
def stoSettle (s : State) : State := destroyProgress (finishWaits (freshenOps (takeEntries s)))

end Sys2Proof.Machine
end

