-- ==== Sys2Proof/Machine/Parse.lean ====
section
/-! DEFINITION. The packet path's reading of a frame: the parse graph (R491 to R496), keys and classification (R497 to R507), policing
(R508 to R513) and load spreading (R514 to R517). -/

namespace Sys2Proof.Machine

open Sys2Proof

/-! ### Bits of a frame -/

/-- A run of bits of a byte string as an unsigned big-endian number, counted from the most significant bit of its first byte; none: it goes
beyond the end. -/
def beBits (bs : Bytes) (off w : Nat) : Option Nat :=
  if bs.length * 8 < off + w then none
  else
    let a := off / 8
    let e := (off + w + 7) / 8
    some (be bs a (e - a) / 2 ^ (8 * e - (off + w)) % 2 ^ w)

/-- A value as `n` bytes, high-order byte first. -/
def beBytes (n v : Nat) : Bytes := (leBytes n v).reverse

/-! ### The parser (R493, R494) -/

/-- What a parse gives: the header stack (header ID and start offset), and PARSE_FLAGS. -/
structure Parsed where
  stack : List (Nat × Nat) := []
  flags : Nat := 0
  deriving DecidableEq, Repr

def pfError : Nat := 1
def pfDepth : Nat := 2
def pfWindow : Nat := 4

def Parsed.end (p : Parsed) (f : Nat) : Parsed := { p with flags := p.flags ||| f }

def nodeOf (s : State) (n : Nat) : ParseNode := lookD s.pp.nodes n {}

/-- The word that chooses the next node: the first valid entry whose VALUE equals the field, or DEFAULT_NEXT. -/
def nextWord (n : ParseNode) (v : Nat) : Nat :=
  if n.selWidth = 0 then n.dflt
  else match n.entries.find? (fun e => e.2.testBit 14 && e.1 == v) with
    | some e => e.2
    | none => n.dflt

/-- The parse from a node at an offset, with the nodes that may still be visited. -/
def parseFrom (s : State) (frame : Bytes) : Nat → Nat → Nat → Parsed → Parsed
  | 0, _, _, p => p.end pfDepth
  | fuel + 1, node, off, p =>
    let n := nodeOf s node
    if !n.valid then p.end pfError
    else if 511 < off then p.end pfWindow
    else if n.hid ≠ 0xFF ∧ 12 ≤ p.stack.length then p.end pfDepth
    else
      let p := if n.hid = 0xFF then p else { p with stack := p.stack ++ [(n.hid, off)] }
      if n.selWidth ≠ 0 ∧ 4096 < 8 * off + n.selBit + n.selWidth then p.end pfWindow
      else match beBits frame (8 * off + n.selBit) n.selWidth with
        | none => p.end pfError
        | some v =>
          let w := nextWord n v
          let adv := if n.advMode = 0 then some n.advFixed
            else (beBits frame (8 * off + n.advBit) n.advWidth).map (fun f => f * n.advScale + n.advAdd)
          if n.advMode = 1 ∧ 4096 < 8 * off + n.advBit + n.advWidth then p.end pfWindow
          else match adv with
            | none => p.end pfError
            | some 0 => p.end pfError
            | some a =>
              if frame.length < off + a then p.end pfError
              else if w.testBit 15 then p
              else parseFrom s frame fuel (w % 256) (off + a) p

/-- Parsing starts at node 0 at frame byte 0 and visits at most 16 nodes. -/
def parseFrame (s : State) (frame : Bytes) : Parsed := parseFrom s frame 16 0 0 {}

/-! ### Metadata and classification (R497 to R504) -/

/-- The metadata of a frame. -/
structure Meta where
  sub : Nat
  len : Nat
  flags : Nat := 0
  colour : Nat := 0
  tc : Nat := 0
  verdict : Nat := 0
  profile : Nat := 0xFF
  dest : Nat := 0
  policer : Nat := 0
  user : Bytes := List.replicate 48 0
  deriving DecidableEq, Repr

/-- The 64 bytes of metadata; its numbers are little-endian (R9). -/
def Meta.bytes (m : Meta) : Bytes :=
  leBytes 2 m.sub ++ leBytes 2 m.len ++ leBytes 2 m.flags ++ leBytes 1 m.colour ++ leBytes 1 m.tc ++ leBytes 1 m.verdict
    ++ leBytes 1 m.profile ++ leBytes 2 m.dest ++ leBytes 2 m.policer ++ [0, 0] ++ m.user

/-- A field of the header stack or of the metadata, right-aligned in whole bytes; absent fields are zero (R501). -/
def fieldBytes (frame : Bytes) (stack : List (Nat × Nat)) (m : Meta) (f : FieldRef) : Bytes :=
  let v := if f.source = 1 then beBits m.bytes f.bitOff f.width
    else match (if f.inst = 0 then stack else stack.reverse).find? (fun h => h.1 == f.hid) with
      | some h => beBits frame (8 * h.2 + f.bitOff) f.width
      | none => none
  beBytes ((f.width + 7) / 8) (v.getD 0)

/-- Width of a key in bytes. -/
def keyWidth (fs : List FieldRef) : Nat := (fs.map (fun f => (f.width + 7) / 8)).sum

/-- The bytes of KEY or MASK that a table compares. -/
def keyPart (t : ClsTable) (bs : Bytes) : Bytes := bs.take (keyWidth t.fields)

def andBytes : Bytes → Bytes → Bytes
  | a :: r, b :: q => (a &&& b) :: andBytes r q
  | _, _ => []

/-- The first `n` bits of a key as a number. -/
def prefixOf (key : Bytes) (n : Nat) : Nat := beVal key / 2 ^ (8 * key.length - n)

/-- The entry of a table that a frame's key hits (R503). -/
def clsHit (t : ClsTable) (key : Bytes) : Option ClsEntry :=
  match t.kind with
  | 1 => t.entries.find? (fun e => keyPart t e.key == key)
  | 2 =>
    (t.entries.filter (fun e => andBytes (keyPart t e.key) (keyPart t e.mask) == andBytes key (keyPart t e.mask))).foldl
      (fun (best : Option ClsEntry) e => match best with
        | some b => if b.prio < e.prio then some e else some b
        | none => some e) none
  | 3 =>
    (t.entries.filter (fun e => prefixOf (keyPart t e.key) e.plen == prefixOf key e.plen)).foldl
      (fun (best : Option ClsEntry) e => match best with
        | some b => if b.plen < e.plen then some e else some b
        | none => some e) none
  | _ => none

/-- The fields of an action, in the order listed, each only when its SET bit is 1 (R499). -/
def applyAction (a : ClsAction) (m : Meta) : Meta :=
  let m := if a.set.testBit 0 then { m with verdict := a.verdict } else m
  let m := if a.set.testBit 1 then { m with tc := a.tc } else m
  let m := if a.set.testBit 5 then { m with colour := a.colour } else m
  let m := if a.set.testBit 2 then { m with dest := a.dest } else m
  let m := if a.set.testBit 3 then { m with policer := a.policer } else m
  let m := if a.set.testBit 4 then { m with profile := a.profile } else m
  if a.set.testBit 6 then { m with user := (setBytes m.user a.userOff (a.userVal.take a.userLen)).take 48 } else m

def tableOf (s : State) (n : Nat) : ClsTable := lookD s.pp.tables n {}

/-- The tables from one on. -/
def classifyFrom (s : State) (frame : Bytes) (stack : List (Nat × Nat)) : Nat → Nat → Meta → Meta
  | 0, _, m => m
  | fuel + 1, n, m =>
    if 8 ≤ n then m
    else
      let t := tableOf s n
      let act := if t.kind = 0 then none
        else match clsHit t ((t.fields.map (fieldBytes frame stack m)).flatten) with
          | some e => some e.action
          | none => t.miss
      match act with
      | none => classifyFrom s frame stack fuel (n + 1) m
      | some a =>
        let m := applyAction a m
        if m.verdict = 4 then m
        else classifyFrom s frame stack fuel (if a.next = 0 then n + 1 else a.next) m

def classify (s : State) (sub len : Nat) (frame : Bytes) (p : Parsed) : Meta :=
  classifyFrom s frame p.stack 8 0 { sub := sub, len := len, flags := p.flags }

/-! ### Policing (R508 to R513) -/

def policerOf (s : State) (n : Nat) : Policer := lookD s.pp.policers n {}

/-- The buckets of a policer filled up to a counter value. -/
def fillPolicer (t : Nat) (q : Policer) : Policer :=
  let dt := t - q.since
  { q with c := min (q.cbs * 8000) (q.c + q.cir * dt), p := min (q.pbs * 8000) (q.p + q.pir * dt), since := t }

/-- A policer's answer to a frame of a length under the ingress sub-port's service state: the policer after it, whether the frame passes,
and its colour. -/
def police (svc colour len : Nat) (q : Policer) : Policer × Bool × Nat :=
  let l := len * 8000
  if svc = 0 then (if l ≤ q.c then ({ q with c := q.c - l }, true, colour) else (q, false, colour))
  else
    let pre := if q.aware then colour else 0
    if pre = 2 ∨ q.p < l then (q, true, 2)
    else if pre = 1 ∨ q.c < l then ({ q with p := q.p - l }, true, 1)
    else ({ q with p := q.p - l, c := q.c - l }, true, 0)

/-- P is filled to PBS when a sub-port enters STARTUP, TEST or RECOVERY (R513). -/
def fillPeaks (s : State) : State :=
  s.setPp { s.pp with policers := s.pp.policers.map (fun e =>
    (e.1, let q := fillPolicer (now s 0x43) e.2; { q with p := q.pbs * 8000 })) }

/-! ### Load spreading (R514, R517) -/

/-- Bit `j` of a cyclic key of 416 bits. -/
def keyBit (key : Bytes) (j : Nat) : Bool :=
  let k := j % 416
  ((key.getD (k / 8) 0).toNat).testBit (7 - k % 8)

/-- Key bits i to i + 31 as a number, the first the most significant. -/
def keyWord (key : Bytes) (i : Nat) : Nat := ((List.range 32).map (fun k => if keyBit key (i + k) then 2 ^ (31 - k) else 0)).sum

/-- The Toeplitz hash. -/
def toeplitz (key input : Bytes) : Nat :=
  (List.range (8 * input.length)).foldl (fun h i =>
    if ((input.getD (i / 8) 0).toNat).testBit (7 - i % 8) then h ^^^ keyWord key i else h) 0

def profileOf (s : State) (n : Nat) : Profile := lookD s.pp.profiles n {}

/-- The hash of a frame under a profile; profile 0 as loaded at cold reset has no stated key, so its hash is free (log 61). -/
def spreadHash (s : State) (frame : Bytes) (stack : List (Nat × Nat)) (m : Meta) : Nat :=
  let p := profileOf s m.profile
  if p.dflt then Config.defaultHash frame % 2 ^ 32
  else toeplitz p.key ((p.fields.map (fieldBytes frame stack m)).flatten)

/-- The place in the indirection table that a hash chooses. -/
def spreadAt (s : State) (m : Meta) (h : Nat) : Nat :=
  let p := profileOf s m.profile
  (p.base + h % 2 ^ p.sizeLog2) % 4096

/-- The indirection entry that a hash chooses. -/
def spreadEntry (s : State) (m : Meta) (h : Nat) : Nat := lookD s.pp.indir (spreadAt s m h) 0

/-- The queue pair index that a HOST frame goes to; where profile 0 is as loaded at cold reset, an entry nobody has written spreads over the queue
pairs of the function (R506). -/
def hostQp (s : State) (m : Meta) (h : Nat) : Nat :=
  if m.profile = 0xFF then 0
  else if (profileOf s m.profile).dflt && !has s.pp.indir (spreadAt s m h) then
    (let qs := (s.pp.qps.filter (fun e => e.1 / 65536 == m.dest)).map (fun e => e.1 % 65536)
     qs.getD (h % max 1 qs.length) 0)
  else spreadEntry s m h

end Sys2Proof.Machine
end

