-- ==== Sys2Proof/Machine/Egress.lean ====
section
/-! DEFINITION. Ethernet sub-ports, NIC queue pairs and their completions, egress queues, shapers and gate lists (R479 to R486, R518 to R527). -/

namespace Sys2Proof.Machine

open Sys2Proof

/-! ### Ports and sub-ports -/

def enOf (s : State) (n : Nat) : EnPort := lookD s.pp.en n {}
def setEn (n : Nat) (p : EnPort) (s : State) : State := s.setPp { s.pp with en := put s.pp.en n p }
def updEn (n : Nat) (f : EnPort → EnPort) (s : State) : State := setEn n (f (enOf s n)) s

/-- A sub-port by its index, port × 4 + s. -/
def subOf (s : State) (i : Nat) : SubPort := ((enOf s (i / 4)).subs[i % 4]?).getD {}
def setSub (i : Nat) (x : SubPort) (s : State) : State :=
  updEn (i / 4) (fun p => { p with subs := p.subs.set (i % 4) x }) s
def updSub (i : Nat) (f : SubPort → SubPort) (s : State) : State := setSub i (f (subOf s i)) s

/-- Sub-ports of a port in a mode (R479). -/
def modeSubs (mode : Nat) : Nat := if mode = 1 then 1 else if mode = 2 then 2 else if mode = 3 then 4 else 0

/-- A sub-port exists in its port's present mode. -/
def subExists (s : State) (i : Nat) : Bool := decide (i < 32 ∧ i % 4 < modeSubs (enOf s (i / 4)).mode)

/-- Full lane mask and speed of a sub-port in a mode. -/
def fullLanes (mode i : Nat) : Nat := if mode = 1 then 15 else if mode = 2 then 3 * 4 ^ (i % 4) else if mode = 3 then 2 ^ (i % 4) else 0
def laneSpeed (mask : Nat) : Nat := 200 * popCount 4 mask

/-- The counter of a port, and of the packet path's island. -/
def nowEn (s : State) (i : Nat) : Nat := now s (blkIsland (blkEn (i / 4)))
def nowPp (s : State) : Nat := now s (blkIsland blkPacket)

def bumpEn (i rel : Nat) (s : State) : State := bump (blkEn (i / 4)) rel s
def bumpEnBy (i rel n : Nat) (s : State) : State := bumpBy (blkEn (i / 4)) rel n s

/-! ### NIC completions (R519) -/

def qpKey (fid qp : Nat) : Nat := fid * 65536 + qp
def qpOf (s : State) (k : Nat) : Option NicQp := look s.pp.qps k
def setQp (k : Nat) (q : NicQp) (s : State) : State := s.setPp { s.pp with qps := put s.pp.qps k q }

/-- A completion goes into the ring with GENERATION and PHASE, and the MSI-X message after it (R403). -/
def writeNic (k : Nat) (c : NicCpl) (s : State) : State :=
  match qpOf s k with
  | none => s
  | some q =>
    let fid := k / 65536
    let last := decide (q.cqProd + 1 = 2 ^ q.cqLog2)
    let bs := leBytes 2 c.index ++ leBytes 2 c.len ++ leBytes 2 c.flags ++ leBytes 2 c.tci ++ leBytes 4 c.hash
                ++ leBytes 2 (genOf s fid) ++ leBytes 2 (bit q.cqPass * 32768)
    let s := setQp k { q with cqProd := if last then 0 else q.cqProd + 1, cqPass := if last then !q.cqPass else q.cqPass,
                              cqUsed := q.cqUsed + 1 } s
    let s := dmaOut fid (q.cq + 16 * q.cqProd) bs s
    if c.irq ∧ q.vector ≠ 0xFFFF then raiseMsix fid q.vector s else s

/-- A completion is posted, or waits while the PF is not in D0, the VF is FROZEN (R423, R426) or the ring has no free entry (log 62). -/
def postNic (k : Nat) (c : NicCpl) (s : State) : State :=
  match qpOf s k with
  | none => s
  | some q =>
    if 2 ^ q.cqLog2 ≤ q.cqUsed ∨ q.heldCpl ≠ [] ∨ hostHeld s (k / 65536) then setQp k { q with heldCpl := q.heldCpl ++ [c] } s
    else writeNic k c s

/-- Completions that waited are posted while there is room. -/
def drainNic (k : Nat) : Nat → State → State
  | 0, s => s
  | fuel + 1, s =>
    match qpOf s k with
    | some q =>
      (match q.heldCpl with
       | c :: r => if q.cqUsed < 2 ^ q.cqLog2 ∧ hostHeld s (k / 65536) = false then drainNic k fuel (writeNic k c (setQp k { q with heldCpl := r } s)) else s
       | [] => s)
    | none => s

/-- Transmit completion of a descriptor: status 0 OK, 1 LINK_DOWN, 2 SPOOF, 3 BAD_LENGTH. A descriptor of an older generation is a late one,
counted and not posted (R42). -/
def txDone (fid gen qp index : Nat) (irq : Bool) (st : Nat) (s : State) : State :=
  if genOf s fid ≠ gen then updFn fid (fun f => { f with lateDiscarded := f.lateDiscarded + 1 }) s
  else freezeProgress (postNic (qpKey fid qp) { index := index, len := 0, flags := st % 4, tci := 0, hash := 0, irq := irq } s)

/-- A status that the manual does not state. -/
def txDoneFree (fid gen qp index : Nat) (irq : Bool) (s : State) : State :=
  txDone fid gen qp index irq (Config.freeNat s.draw) (drawn s)

/-! ### Egress queues (R489, R521) -/

def queueAt (x : SubPort) (tc : Nat) : List EgFrame := (x.queues[tc]?).getD []
def queueBytes (q : List EgFrame) : Nat := (q.map (·.len)).sum

/-- Bytes in the shared packet buffer. -/
def sharedBytes (s : State) : Nat :=
  (s.pp.en.map (fun e => (e.2.subs.map (fun x => (x.queues.map queueBytes).sum)).sum)).sum

def egressKey (i tc : Nat) : Nat × Nat := (0, i * 8 + tc)
def shaperOf (s : State) (k : Nat × Nat) : Shaper := lookD s.pp.shapers k {}
def setShaper (k : Nat × Nat) (x : Shaper) (s : State) : State := s.setPp { s.pp with shapers := put s.pp.shapers k x }

/-- A queue has room for a frame. -/
def hasRoom (s : State) (i tc len : Nat) : Bool :=
  decide (queueBytes (queueAt (subOf s i) tc) < (shaperOf s (egressKey i tc)).limit) && decide (sharedBytes s + len ≤ 134217728)

def pushFrame (i tc : Nat) (f : EgFrame) (s : State) : State :=
  updSub i (fun x => { x with queues := x.queues.set tc (queueAt x tc ++ [{ f with since := nowEn s i }]) }) s

/-- The NIC descriptor of a dropped frame completes with a status, or with one the manual does not state. -/
def dropDone (st : Option Nat) (f : EgFrame) (s : State) : State :=
  match f.src with
  | .nic fid gen qp index irq =>
    (match st with
     | some v => txDone fid gen qp index irq v s
     | none => txDoneFree fid gen qp index irq s)
  | _ => s

/-- A frame reaches its egress queue: dropped on a sub-port that is gone or whose link has stayed down, tail-dropped when there is no room. -/
def enqueue (i tc : Nat) (f : EgFrame) (s : State) : State :=
  let x := subOf s i
  if !subExists s i || (!x.up && !x.hold) then dropDone (some 1) f (bumpEn i 0x130 s)
  else if !hasRoom s i tc f.len then dropDone none f (bumpEn i 0x130 s)
  else pushFrame i tc f s

/-- Every frame queued on a sub-port is dropped and counted; NIC descriptors complete LINK_DOWN (R482, R486). -/
def dropQueued (i : Nat) (s : State) : State :=
  let fs := (subOf s i).queues.flatten
  let s := updSub i (fun x => { x with queues := [[], [], [], [], [], [], [], []], hold := false }) s
  fs.foldl (fun s f => dropDone (some 1) f s) (bumpEnBy i 0x130 fs.length s)

/-! ### Shapers (R523) -/

/-- A shaper's bucket filled up to a counter value. -/
def fillShaper (t : Nat) (x : Shaper) : Shaper :=
  { x with level := min (x.burst * 8000 : Nat) (x.level + (x.rate * (t - x.since) : Nat)), since := t }

/-- The shaper holds at least a length. -/
def shaperAllows (t len : Nat) (x : Shaper) : Bool :=
  !x.enable || decide (((len * 8000 : Nat) : Int) ≤ (fillShaper t x).level)

/-- Sending a frame takes its length and 20 bytes. -/
def shaperTake (t len : Nat) (x : Shaper) : Shaper :=
  let y := fillShaper t x
  { y with level := y.level - ((len + 20) * 8000 : Nat) }

def takeFrom (k : Nat × Nat) (t len : Nat) (s : State) : State :=
  if has s.pp.shapers k then setShaper k (shaperTake t len (shaperOf s k)) s else s

/-! ### Gate lists (R524 to R527) -/

def cycleOf (g : GateList) : Nat := (g.entries.map (·.1)).sum

/-- The whole list opens a class. -/
def alwaysOpen (g : GateList) (tc : Nat) : Bool := g.entries.all (fun e => e.2.testBit tc)

/-- Time until the first closed entry. -/
def gateRun (tc : Nat) : List (Nat × Nat) → Nat
  | [] => 0
  | (d, m) :: r => if m.testBit tc then d + gateRun tc r else 0

/-- The entries from a phase of the cycle on. -/
def entriesFrom : Nat → List (Nat × Nat) → List (Nat × Nat)
  | _, [] => []
  | p, (d, m) :: r => if p < d then (d - p, m) :: r else entriesFrom (p - d) r

/-- Where a time lies in the cycle. -/
def phaseOf (g : GateList) (t : Nat) : Nat :=
  let c := cycleOf g
  if c = 0 then 0 else (t + c - g.base % c) % c

/-- Time for which a class stays open from a time on; none: always. -/
def openFor (g : GateList) (tc t : Nat) : Option Nat :=
  if alwaysOpen g tc then none else some (gateRun tc (entriesFrom (phaseOf g t) g.entries ++ g.entries))

/-- The longest window of a class, over the end of the cycle too; none: always open. -/
def longestWindow (g : GateList) (tc : Nat) : Option Nat :=
  if alwaysOpen g tc then none
  else some ((List.range g.entries.length).foldl (fun m i => max m (gateRun tc (g.entries.drop i ++ g.entries))) 0)

/-- Transmission time of a frame fits in a window: (FRAME_LEN + 20) × 8 bits at the speed in Gb/s. -/
def fitsWindow (len speed : Nat) (w : Option Nat) : Bool :=
  match w with
  | none => true
  | some n => decide ((len + 20) * 8 ≤ n * speed)

/-- The time at which a new list takes effect (R525). -/
def gateDue (cur new : GateList) (t : Nat) : Nat :=
  let c := cycleOf cur
  let e := if c = 0 then t else t + (c - phaseOf cur t) % c
  let c' := cycleOf new
  if e ≤ new.base ∨ c' = 0 then max e new.base else new.base + ceilDiv (e - new.base) c' * c'

/-! ### The scheduler (R521, R526, R527) -/

/-- Head frames longer than the longest window of their class are dropped and counted. -/
def dropOversize (i tc : Nat) : Nat → State → State
  | 0, s => s
  | fuel + 1, s =>
    let x := subOf s i
    match queueAt x tc with
    | f :: r =>
      if fitsWindow f.len x.speed (longestWindow x.gates tc) then s
      else dropOversize i tc fuel (dropDone none f (bumpEn i 0x12C (setSub i { x with queues := x.queues.set tc r } s)))
    | [] => s

/-- The head frame of a class may be sent now. -/
def eligible (s : State) (i tc : Nat) : Bool :=
  let x := subOf s i
  match queueAt x tc with
  | f :: _ =>
    shaperAllows (nowEn s i) f.len (shaperOf s (egressKey i tc)) && fitsWindow f.len x.speed (openFor x.gates tc (nowEn s i))
  | [] => false

/-- Packets that the transport builds take their source addresses from the identity of the connection's function (R421). -/
def sourceAddr (s : State) (c : Conn) : SourceAddr :=
  let f := fnD s c.owner
  { mac := f.mac, vlan := f.vlan, v6 := c.v6, ip := if c.v6 then f.ipv6 else f.ipv4 }

/-- The frame leaves on the wire. -/
def sendFrame (i : Nat) (f : EgFrame) (s : State) : State :=
  let s := bumpEn i 0x11C s
  match f.src with
  | .nic fid gen qp index irq => txDone fid gen qp index irq 0 (emit (.frame i f.bytes) s)
  | .forward => emit (.frame i f.bytes) s
  | .grt h =>
    (match f.pkt with
     | some p =>
       let c := lookD s.grt.conns h { owner := 0 }
       emit (.packet i h (c.pathBase + p.path) ((enOf s (i / 4)).dscp.getD c.tc 0) (sourceAddr s c) p (if p.roce then [] else grtBytes p)) (perfEvent blkTransport 0x100 1 s)
     | none => s)

/-- One transmission slot: the head frame of the highest-numbered eligible class is sent. -/
def transmitSlot (i : Nat) (s : State) : State :=
  let x := subOf s i
  if !x.up || isolated s (blkEn (i / 4)) then s
  else
    let s := (List.range 8).foldl (fun s tc => dropOversize i tc (queueAt (subOf s i) tc).length s) s
    match [7, 6, 5, 4, 3, 2, 1, 0].find? (eligible s i) with
    | none => s
    | some tc =>
      let x := subOf s i
      match queueAt x tc with
      | f :: r =>
        sendFrame i f (takeFrom (egressKey i tc) (nowEn s i) f.len (setSub i { x with queues := x.queues.set tc r } s))
      | [] => s

end Sys2Proof.Machine
end

