-- ==== Sys2Proof/Machine/FrameRx.lean ====
section
/-! DEFINITION. A received frame: parsing, classification, policing, spreading and delivery (R489 to R520); a transmitted frame: checksums, tags and
spoof checks (R420 to R422, R519). -/

namespace Sys2Proof.Machine

open Sys2Proof

/-! ### Checksums -/

/-- Ones' complement sum of 16-bit big-endian words, a last odd byte padded with zero. -/
def sum16 : Bytes → Nat
  | a :: b :: r => a.toNat * 256 + b.toNat + sum16 r
  | [a] => a.toNat * 256
  | [] => 0

/-- The Internet checksum of a sum. -/
def fold16 (n : Nat) : Nat :=
  let a := n % 65536 + n / 65536
  let b := a % 65536 + a / 65536
  let c := b % 65536 + b / 65536
  65535 - c % 65536

/-- EtherType and offset of the network header behind any tags. -/
def etherType (f : Bytes) : Nat × Nat :=
  let a := be f 12 2
  if a = 0x8100 ∨ a = 0x88A8 then
    (let b := be f 16 2
     if b = 0x8100 ∨ b = 0x88A8 then (be f 20 2, 22) else (b, 18))
  else (a, 14)

/-- Network header of a frame at an offset: version, source and destination address bytes, protocol, header length. -/
def netHeader (f : Bytes) (o : Nat) : Nat × Bytes × Bytes × Nat × Nat :=
  if ((f.drop o).headD 0).toNat / 16 = 6 then (6, (f.drop (o + 8)).take 16, (f.drop (o + 24)).take 16, be f (o + 6) 1, 40)
  else (4, (f.drop (o + 12)).take 4, (f.drop (o + 16)).take 4, be f (o + 9) 1, be f o 1 % 16 * 4)

/-- Sum over the pseudo header and the transport bytes of a frame whose network header is at one offset and transport header at another. -/
def l4Sum (f : Bytes) (l3 l4 : Nat) : Nat :=
  let h := netHeader f l3
  let l4len := if h.1 = 4 then be f (l3 + 2) 2 - (l4 - l3) else be f (l3 + 4) 2 + 40 - (l4 - l3)
  let seg := (f.drop l4).take l4len
  sum16 h.2.1 + sum16 h.2.2.1 + h.2.2.2.1 + seg.length + sum16 seg

/-- L3_CSUM: the IPv4 header checksum is put in. -/
def insertL3 (l3 : Nat) (f : Bytes) : Bytes :=
  let n := be f l3 1 % 16 * 4
  let g := setBytes f (l3 + 10) [0, 0]
  (setBytes g (l3 + 10) (beBytes 2 (fold16 (sum16 ((g.drop l3).take n))))).take f.length

/-- L4_CSUM: the TCP or UDP checksum is put in; a UDP checksum of 0 is sent as all ones. -/
def insertL4 (l3 l4 : Nat) (f : Bytes) : Bytes :=
  let h := netHeader f l3
  let at_ := if h.2.2.2.1 = 6 then l4 + 16 else l4 + 6
  let g := setBytes f at_ [0, 0]
  let c := fold16 (l4Sum g l3 l4)
  (setBytes g at_ (beBytes 2 (if c = 0 ∧ h.2.2.2.1 = 17 then 65535 else c))).take f.length

/-- An IEEE 802.1Q tag is put in behind the addresses. -/
def insertTag (tci : Nat) (f : Bytes) : Bytes := f.take 12 ++ [0x81, 0x00] ++ beBytes 2 tci ++ f.drop 12

def tagged (f : Bytes) : Bool := be f 12 2 == 0x8100 || be f 12 2 == 0x88A8

/-! ### Spoof checks (R420, R421) -/

/-- An IPv6 address is link-local. -/
def linkLocal (a : Bytes) : Bool := be a 0 2 / 64 == 0x3FA
/-- An IPv6 address lies in a prefix. -/
def inPrefix (a : Bytes) (p len : Nat) : Bool := beVal a / 2 ^ (128 - len) == p / 2 ^ (128 - len)

def spoofMac (x : Fn) (f : Bytes) : Bool := be f 6 6 == x.mac
def spoofVlan (x : Fn) (f : Bytes) : Bool := if x.vlan = 0 then !tagged f else !tagged f || be f 14 2 % 4096 == x.vlan
def spoofIp (x : Fn) (f : Bytes) : Bool :=
  let e := etherType f
  if e.1 = 0x0800 then be f (e.2 + 12) 4 == x.ipv4
  else if e.1 = 0x0806 then be f (e.2 + 14) 4 == x.ipv4
  else if e.1 = 0x86DD then
    (let a := (f.drop (e.2 + 8)).take 16
     linkLocal a || inPrefix a x.ipv6 x.ipv6Len)
  else true

/-- A GRT header that a frame carries names a connection that the function owns: one whose peer it addresses (log 65). -/
def spoofGrt (s : State) (fid : Nat) (f : Bytes) : Bool :=
  let e := etherType f
  if e.1 = 0x0800 ∨ e.1 = 0x86DD then
    (let h := netHeader f e.2
     if h.2.2.2.1 = 17 ∧ be f (e.2 + h.2.2.2.2 + 2) 2 = 7142 then
       (let d := be f (e.2 + h.2.2.2.2 + 12) 4
        s.grt.conns.any (fun c => c.2.owner == fid && c.2.peerConn == d))
     else true)
  else true

/-- The checks of R420 whose SPOOF bits are set. -/
def spoofPasses (s : State) (fid : Nat) (f : Bytes) : Bool :=
  let x := fnD s fid
  (!x.spoof.testBit 0 || spoofMac x f) && (!x.spoof.testBit 1 || spoofVlan x f) && (!x.spoof.testBit 2 || spoofIp x f)
    && (!x.spoof.testBit 3 || spoofGrt s fid f)

/-- The part inserts the function's VLAN tag into an untagged frame (R420). -/
def spoofTag (s : State) (fid : Nat) (f : Bytes) : Bytes :=
  let x := fnD s fid
  if x.spoof.testBit 1 ∧ x.vlan ≠ 0 ∧ !tagged f then insertTag x.vlan f else f

/-! ### Transmission (R519, R520) -/

/-- The frame of a descriptor with what its FLAGS ask for. -/
def builtFrame (d : TxDesc) (bs : Bytes) : Bytes :=
  let f := bs.take d.len
  let f := if d.flags.testBit 1 then insertL3 d.l3 f else f
  let f := if d.flags.testBit 2 then insertL4 d.l3 d.l4 f else f
  if d.flags.testBit 3 then insertTag d.vlan f else f

/-- A function's NIC queues are served (R415, R423, R426). -/
def nicServed (s : State) (fid : Nat) : Bool :=
  (fnOf s fid).isSome && (fnD s fid).st == .active && (fnD s fid).dstate == .d0 && !(fnD s fid).crs

/-- A transmit descriptor is taken: its frame is checked and goes to its egress queue. -/
def transmitDesc (k : Nat) (q : NicQp) (d : TxDesc) (data : Option Bytes) (s : State) : State :=
  let fid := k / 65536
  let irq := d.flags.testBit 0
  let done := fun st s => txDone fid q.gen (k % 65536) q.txHead irq st s
  if isolated s blkPacket || isolated s (blkEn (q.port / 4)) then done 1 s
  else if d.len < 14 ∨ (enOf s (q.port / 4)).maxFrame - 4 < d.len then done 3 s
  else match data with
    | none => txDoneFree fid q.gen (k % 65536) q.txHead irq s
    | some bs =>
      let f := builtFrame d bs
      if !spoofPasses s fid f then done 2 (updFn fid (fun x => { x with spoofDrops := x.spoofDrops + 1 }) s)
      else
        let f := spoofTag s fid f
        enqueue q.port q.tc { src := .nic fid q.gen (k % 65536) q.txHead irq, bytes := f, len := f.length + 4 }
          (takeFrom (1, k) (nowEn s q.port) (f.length + 4) s)

/-- The next descriptor of a queue pair, when its shaper admits it. -/
def nicTransmit (k : Nat) (s : State) : State :=
  match qpOf s k with
  | none => s
  | some q =>
    (match q.txq with
     | [] => s
     | (d, data, _) :: r =>
       if egressPaused s || !nicServed s (k / 65536) || !shaperAllows (nowEn s q.port) (d.len + 4) (shaperOf s (1, k)) then s
       else transmitDesc k q d data (setQp k { q with txq := r, txHead := (q.txHead + 1) % 2 ^ q.txLog2 } s))

/-! ### Reception -/

/-- IEEE 802.3 PAUSE and priority flow control frames (R480). -/
def isPause (f : Bytes) : Bool := be f 12 2 == 0x8808 && (be f 14 2 == 1 || be f 14 2 == 0x0101)

/-- L4_CSUM_OK (bit 2) and L4_CSUM_BAD (bit 3) of a frame whose network and transport headers are plain TCP or UDP. -/
def rxCsum (f : Bytes) : Nat :=
  let e := etherType f
  if e.1 = 0x0800 ∨ e.1 = 0x86DD then
    (let h := netHeader f e.2
     let l4 := e.2 + h.2.2.2.2
     if h.2.2.2.1 = 6 ∨ (h.2.2.2.1 = 17 ∧ be f (l4 + 6) 2 ≠ 0) then
       (if fold16 (l4Sum f e.2 l4) = 0 then 4 else 8)
     else 0)
  else 0

/-- A HOST frame goes to a receive buffer of a queue pair of DEST (R505, R517, R520). -/
def deliverHost (m : Meta) (h : Nat) (f : Bytes) (s : State) : State :=
  let k := qpKey m.dest (hostQp s m h)
  match qpOf s k with
  | none => bump blkPacket 0x108 s
  | some q =>
    (match q.rxq with
     | [] => bump blkPacket 0x10C s
     | d :: r =>
       let g := if tagged f then f.take 12 ++ f.drop 16 else f
       if !nicServed s m.dest || decide (d.len < g.length) then bump blkPacket 0x10C s
       else
         let s := setQp k { q with rxq := r, rxHead := (q.rxHead + 1) % 2 ^ q.rxLog2 } s
         let s := dmaOut m.dest d.addr g s
         postNic k { index := q.rxHead, len := g.length,
                     flags := 256 + m.colour % 4 * 64 + m.flags % 2 * 32 + bit (tagged f) * 16 + rxCsum f,
                     tci := if tagged f then be f 14 2 else 0, hash := h, irq := true } s)

/-- A frame for steward firmware, at most 100,000 in a second (R505). -/
def deliverSteward (sub : Nat) (f : Bytes) (s : State) : State :=
  let t := nowPp s
  let s := if s.pp.stewardFrom + 1000000000 ≤ t then s.setPp { s.pp with stewardFrom := t, stewardCount := 0 } else s
  if 100000 ≤ s.pp.stewardCount then bump blkPacket 0x110 s
  else emit (.toSteward sub f) (s.setPp { s.pp with stewardCount := s.pp.stewardCount + 1 })

/-- A forwarded frame goes to its egress queue, or is held while a DRAIN commit pauses the egress queues (R97). -/
def offer (i tc : Nat) (f : EgFrame) (s : State) : State :=
  if egressPaused s then s.setPp { s.pp with egressHeld := s.pp.egressHeld ++ [(i, tc, f)] } else enqueue i tc f s

/-- Where a frame goes by its verdict (R505). -/
def deliver (m : Meta) (stack : List (Nat × Nat)) (f : Bytes) (s : State) : State :=
  match m.verdict with
  | 1 => deliverHost m (if m.profile = 0xFF then 0 else spreadHash s f stack m) f s
  | 2 => emit (.toTransport m.sub m.colour f) s
  | 3 =>
    let e := if m.profile = 0xFF then 0 else spreadEntry s m (spreadHash s f stack m)
    offer m.dest (if e.testBit 15 then bits e 5 3 else m.tc) { src := .forward, bytes := f, len := f.length + 4 } s
  | 5 => deliverSteward m.sub f s
  | _ => bump blkPacket 0x100 s

/-- The policer that a frame's metadata names (R508 to R513): the state after it, and the metadata; none: the frame is dropped. -/
def policeFrame (m : Meta) (s : State) : State × Option Meta :=
  let q := policerOf s m.policer
  if m.policer = 0 ∨ !q.enable then (s, some m)
  else
    let r := police (subOf s m.sub).svc m.colour m.len (fillPolicer (nowPp s) q)
    let s := s.setPp { s.pp with policers := put s.pp.policers m.policer r.1 }
    if !r.2.1 then (bumpEn m.sub 0x124 s, none)
    else
      (if (subOf s m.sub).svc ≠ 0 ∧ r.2.2 ≠ 0 then bumpEn m.sub 0x128 s else s, some { m with colour := r.2.2 })

/-- A frame runs through the packet path. -/
def routeFrame (sub : Nat) (f : Bytes) (s : State) : State :=
  let p := parseFrame s f
  let s := if p.flags = 0 then s else bump blkPacket 0x104 s
  let m := classify s sub (f.length + 4) f p
  if m.verdict = 4 then bump blkPacket 0x114 s
  else
    let r := policeFrame m s
    match r.2 with
    | none => r.1
    | some m => deliver m p.stack f r.1

/-- A staged object of the packet path is being committed under DRAIN: its ports are paused (R97). -/
def ppPaused (s : State) : Bool := drainsType s (fun t => decide (1 ≤ t ∧ t ≤ 6))

/-- Bytes that a sub-port's ingress buffer holds. -/
def ingressBytes (s : State) (sub : Nat) : Nat := ((s.pp.ingress.filter (fun e => e.1 == sub)).map (fun e => e.2.length + 4)).sum

/-- Frames held at paused ports go on when intake resumes. -/
def resumeIngress (s : State) : State :=
  s.pp.ingress.foldl (fun s e => routeFrame e.1 e.2 s) (s.setPp { s.pp with ingress := [] })

/-- A frame is received (R480, R489). -/
def receiveFrame (sub : Nat) (f : Bytes) (full : Bool) (s : State) : State :=
  let s := bumpEn sub 0x118 s
  if full || decide (2097152 < ingressBytes s sub + f.length + 4) then bumpEn sub 0x120 s
  else if isPause f then bumpEn sub 0x134 s
  else if isolated s blkPacket || isolated s (blkEn (sub / 4)) || decide ((enOf s (sub / 4)).maxFrame < f.length + 4) then s
  else if ppPaused s then s.setPp { s.pp with ingress := s.pp.ingress ++ [(sub, f)] }
  else routeFrame sub f s

end Sys2Proof.Machine
end

