-- ==== Sys2Proof/Machine/PacketCmds.lean ====
section
/-! DEFINITION. The commands and events of the packet path (chapter 11): Ethernet ports, NIC queue pairs, parse nodes, classification, spreading,
shapers, policers, gate lists and samplers. -/

namespace Sys2Proof.Machine

open Sys2Proof

/-! ### PORT_CONFIG, PORT_KIND 1 (R481, R482, R509) -/

/-- LANE_ORDER names each physical lane once. -/
def lanePerm (o : Nat) : Bool := (List.range 4).all (fun p => (List.range 4).any (fun k => bits o (2 * k) 2 == p))

/-- The logical lane of each physical lane under an order. -/
def lanesBy (o : Nat) (ls : List EnLane) : List EnLane :=
  (List.range 4).map (fun p =>
    { (ls[p]?).getD { logical := p } with
      logical := (((List.range 4).find? (fun k => bits o (2 * k) 2 == p)).getD p) })

/-- Sub-ports that a NIC queue pair or a connection is bound to. -/
def subBound (s : State) (i : Nat) : Bool :=
  s.pp.qps.any (fun e => e.2.port == i) || s.grt.conns.any (fun e => e.2.port == i)

/-- The sub-ports of a port that a mode no longer has. -/
def removedSubs (s : State) (n mode : Nat) : List Nat :=
  ((List.range 4).filter (fun i => decide (modeSubs mode ≤ i ∧ i < modeSubs (enOf s n).mode))).map (4 * n + ·)

/-- The state of a sub-port whose STARTUP or RECOVERY time may be 0. -/
def enterSvc (ms svc : Nat) : Nat := if ms = 0 then 0 else svc

/-- The port in effect after the block. -/
def askedPort (c : Ctx) (p : EnPort) : EnPort :=
  { p with mode := c.p 2 1, service := c.p 3 1, maxFrame := clampN 1518 9728 (c.p 4 2), an := c.p 6 1 % 4, laneOrder := c.p 7 1,
           startupMs := clampN 0 60000 (c.p 8 4), recoveryMs := clampN 0 600000 (c.p 0xC 4), downtrain := (c.p 0x10 4).testBit 0,
           dscp := (List.range 8).map (fun t => c.p (0x14 + t) 1 % 64) }

/-- The service state of a sub-port after SERVICE is set. -/
def serviceSub (old : EnPort) (new : EnPort) (x : SubPort) : SubPort :=
  let x := { x with seen := false }
  if new.service = 1 then { x with svc := 2 }
  else if old.service = 1 then { x with svc := if x.up then enterSvc new.startupMs 1 else 0, seen := x.up }
  else x

/-- A mode change retrains the port: its links go down, and frames wait as after a link-down. -/
def retrainSub (x : SubPort) : SubPort :=
  { x with up := false, trainedOnce := false, hold := x.up || x.hold, downtrained := false, speed := 0, laneMask := 0 }

def portFields (p : EnPort) : List (Nat × Nat × Nat) :=
  [(2, 1, p.mode), (3, 1, p.service), (4, 2, p.maxFrame), (6, 1, p.an), (7, 1, p.laneOrder), (8, 4, p.startupMs), (0xC, 4, p.recoveryMs),
   (0x10, 4, bit p.downtrain)] ++ (List.range 8).map (fun t => (0x14 + t, 1, p.dscp.getD t 0))

/-- A sub-port goes, and with it what stands in a stage set for it: its gate list and the shapers of its queues (R93). -/
def unstageSub (i : Nat) (s : State) : State :=
  (List.range 8).foldl (fun s tc => unstage 4 ((egressKey i tc).1 * 2 ^ 40 + (egressKey i tc).2) s) (unstage 6 i s)

/-- PORT_CONFIG of an Ethernet port. -/
def hPortConfigEthernet : Handler := fun c s =>
  let n := c.p 1 1
  let old := enOf s n
  let new := askedPort c old
  checked s
    [(decide (n ≤ 7) && isolated s (blkEn n), stFailed, dtIsolated),
     (decide (7 < n), stBadHandle, dtField 1),
     (decide (3 < c.p 2 1), stNotPermitted, dtField 2),
     (decide (1 < c.p 3 1), stNotPermitted, dtField 3),
     (c.p 7 1 != 0 && !lanePerm (c.p 7 1), stNotPermitted, dtField 7),
     ((removedSubs s n (c.p 2 1)).any (subBound s), stConflict, dtNone)]
    (let gone := removedSubs s n new.mode
     let changed := decide (new.mode ≠ old.mode)
     let s' := gone.foldl (fun s i => unstageSub i (dropQueued i s)) s
     let subs := (enOf s' n).subs.map (fun x => serviceSub old new (if changed then retrainSub x else x))
     let lanes := if new.laneOrder = 0 then old.lanes else (lanesBy new.laneOrder old.lanes).map (fun l => { l with found := false })
     let lanes := if changed then lanes.map (fun l => { l with trained := false, fails := 0 }) else lanes
     let s' := setEn n { new with subs := subs, lanes := lanes } s'
     let s' := if subs.zipIdx.any (fun e => e.1.svc != 0 && e.1.svc != (((enOf s n).subs[e.2]?).getD {}).svc) then fillPeaks s' else s'
     Res.ok (if changed then warn 1 1 (bump (blkEn n) 0x13C s') else s')
       (c.differs [(4, 2, new.maxFrame), (8, 4, new.startupMs), (0xC, 4, new.recoveryMs)]) (c.echo 64 (whole [(0, 1), (1, 1)]) (portFields new)))

/-- PORT_QUERY of an Ethernet port (R487). -/
def hPortQueryEthernet : Handler := fun c s =>
  let n := c.p 1 1
  if 7 < n then Res.rej s stBadHandle (dtField 1)
  else
    let p := enOf s n
    let rec_ := fun i =>
      let x := (p.subs[i]?).getD {}
      leBytes 1 (bit x.up) ++ leBytes 1 x.svc ++ leBytes 2 x.speed ++ leBytes 1 (bit x.partner) ++ leBytes 1 x.laneMask ++ [0, 0]
        ++ leBytes 8 x.fec
    Res.ok s false (layout 64 ([(0, 1, 1), (1, 1, n)] ++ portFields p) ++ ((List.range 4).map rec_).flatten ++ List.replicate 128 0)

/-! ### NIC queue pairs (R518) -/

/-- A FUNCTION_ID is PF2 or one of its VFs. -/
def nicFunction (s : State) (fid : Nat) : Bool := match fnOf s fid with | some x => x.pf == 2 | none => false

/-- A NIC queue pair and its doorbell page are given back. -/
def removeNicQp (k : Nat) (s : State) : State :=
  match qpOf s k with
  | none => s
  | some q =>
    let s := s.setPages (s.pages.filter (fun e => !(e.1 == k / 65536 && e.2 == q.page)))
    let s := unstage 4 (2 ^ 40 + k) s
    s.setPp { s.pp with qps := del s.pp.qps k, shapers := del s.pp.shapers (1, k) }

/-- The fields of the block of R518. -/
def nicNames : List (Nat × Nat × Nat) :=
  whole [(0, 1), (1, 1), (2, 2), (4, 2), (6, 1), (7, 1), (8, 8), (0x10, 8), (0x18, 8), (0x20, 1), (0x21, 1), (0x22, 1), (0x24, 2), (0x28, 8)]

/-- NIC_QP_CREATE: PORT_CONFIG with PORT_KIND 2, ACTION 0. -/
def hNicQpCreate : Handler := fun c s =>
  let fid := c.p 2 2
  let tx := clampN 4 15 (c.p 0x20 1)
  let rx := clampN 4 15 (c.p 0x21 1)
  let cq := clampN (max tx rx + 1) 16 (c.p 0x22 1)
  let used := (s.pp.qps.filter (fun e => e.1 / 65536 == fid)).length + (fnD s fid).reclaim.nicQps
  checked s
    [(isolated s blkPacket, stFailed, dtIsolated),
     (!nicFunction s fid, stBadHandle, dtField 2),
     (!subExists s (c.p 6 1), stBadHandle, dtField 6),
     (decide (7 < c.p 7 1), stNotPermitted, dtField 7),
     (c.p 8 8 % 4096 != 0, stBadAddress, dtField 8),
     (c.p 0x10 8 % 4096 != 0, stBadAddress, dtField 0x10),
     (c.p 0x18 8 % 4096 != 0, stBadAddress, dtField 0x18),
     (c.p 0x24 2 != 0xFFFF && decide (vectorCount fid ≤ c.p 0x24 2), stBadHandle, dtField 0x24),
     (decide ((fnD s fid).allot.nicQps ≤ used), stNoResource, dtNone)]
    (match lowest 16384 (fun i => !has s.pp.qps (qpKey fid i)), freePage s fid with
     | some i, some page =>
       let q : NicQp := { gen := genOf s fid, port := c.p 6 1, tc := c.p 7 1, tx := c.p 8 8, rx := c.p 0x10 8, cq := c.p 0x18 8,
                          txLog2 := tx, rxLog2 := rx, cqLog2 := cq, vector := c.p 0x24 2, page := page }
       let s' := setQp (qpKey fid i) q (s.setPages (s.pages ++ [(fid, page)]))
       let eff := [(0x20, 1, tx), (0x21, 1, rx), (0x22, 1, cq)]
       Res.ok s' (c.differs eff) (c.echo 64 nicNames (eff ++ [(4, 2, i), (0x28, 8, 4096 * page)]))
     | _, _ => Res.rej s stNoResource dtNone)

/-- NIC_QP_DESTROY: ACTION 1. -/
def hNicQpDestroy : Handler := fun c s =>
  let fid := c.p 2 2
  checked s
    [(!nicFunction s fid, stBadHandle, dtField 2), (!has s.pp.qps (qpKey fid (c.p 4 2)), stBadHandle, dtField 4)]
    (Res.ok (removeNicQp (qpKey fid (c.p 4 2)) s) false (c.echo 64 nicNames []))

/-- PORT_CONFIG with PORT_KIND 2, by its ACTION. -/
def hNicQp : Handler := fun c s =>
  match c.p 1 1 with
  | 0 => hNicQpCreate c s
  | 1 => hNicQpDestroy c s
  | _ => Res.rej s stNotPermitted (dtField 1)

/-! ### Doorbells of a NIC queue pair -/

/-- TX_TAIL makes descriptors visible (R60, R518), read in little-endian order (R9, R519). -/
def execTxTail (fn qp index : Nat) (slots : List (Bytes × Option Bytes)) (s : State) : Host.Outcome State Fault Refusal :=
  .next (thawed s <| match qpOf s (qpKey fn qp) with
    | none => s
    | some q =>
      if doorbellOff s 0xFFFF fn then s
      else if 2 ^ q.txLog2 ≤ index then doorbellRange fn s
      else
        let n := (index + 2 ^ q.txLog2 - q.txTail) % 2 ^ q.txLog2
        setQp (qpKey fn qp) { q with txTail := index,
                                     txq := q.txq ++ (slots.take n).map (fun d => (txOf d.1, d.2, nowEn s q.port)) } s)

/-- RX_TAIL posts receive buffers. -/
def execRxTail (fn qp index : Nat) (slots : List Bytes) (s : State) : Host.Outcome State Fault Refusal :=
  .next (thawed s <| match qpOf s (qpKey fn qp) with
    | none => s
    | some q =>
      if doorbellOff s 0xFFFF fn then s
      else if 2 ^ q.rxLog2 ≤ index then doorbellRange fn s
      else
        let n := (index + 2 ^ q.rxLog2 - q.rxTail) % 2 ^ q.rxLog2
        setQp (qpKey fn qp) { q with rxTail := index, rxq := q.rxq ++ (slots.take n).map rxOf } s)

/-- CQ_HEAD frees completion entries. -/
def execNicCqHead (fn qp index : Nat) (s : State) : Host.Outcome State Fault Refusal :=
  .next (thawed s <| match qpOf s (qpKey fn qp) with
    | none => s
    | some q =>
      if doorbellOff s 0xFFFF fn then s
      else if 2 ^ q.cqLog2 ≤ index then doorbellRange fn s
      else
        let freed := (index + 2 ^ q.cqLog2 - q.cqHead) % 2 ^ q.cqLog2
        drainNic (qpKey fn qp) q.heldCpl.length (setQp (qpKey fn qp) { q with cqHead := index, cqUsed := q.cqUsed - freed } s))

/-- NIC_TRANSMIT. -/
def execNicTransmit (fn qp : Nat) (s : State) : Host.Outcome State Fault Refusal := .next (thawed s <| nicTransmit (qpKey fn qp) s)

/-! ### PARSE_NODE_WRITE (R491, R492, R496) -/

def askedNode (c : Ctx) : ParseNode :=
  { hid := c.p 2 1, valid := (c.p 3 1).testBit 0, selBit := clampN 0 2047 (c.p 4 2), selWidth := clampN 0 32 (c.p 6 1),
    advMode := c.p 7 1, advFixed := clampN 1 255 (c.p 8 2), advBit := clampN 0 2047 (c.p 0xA 2), advWidth := clampN 1 16 (c.p 0xC 1),
    advScale := clampN 1 255 (c.p 0xD 1), advAdd := clampN 0 255 (c.p 0xE 2), dflt := c.p 0x10 2,
    entries := (List.range 16).map (fun i => (c.p (0x20 + 6 * i) 4, c.p (0x24 + 6 * i) 2)) }

/-- The fields of the block of R491; next-node words have reserved bits [13:8]. -/
def nodeNames : List (Nat × Nat × Nat) :=
  whole [(0, 2), (2, 1), (7, 1)] ++ [(3, 1, 1), (0x10, 2, 0xC0FF)]
    ++ (List.range 16).flatMap (fun i => [(0x20 + 6 * i, 4, 2 ^ 32 - 1), (0x24 + 6 * i, 2, 0xC0FF)])

def hParseNodeWrite : Handler := fun c s =>
  let n := askedNode c
  checked s
    [(decide (255 < c.p 0 2), stBadHandle, dtField 0),
     (decide (63 < c.p 2 1 ∧ c.p 2 1 ≠ 0xFF), stBadHandle, dtField 2),
     (decide (1 < c.p 7 1), stNotPermitted, dtField 7)]
    (c.okEcho (s.setPp { s.pp with nodes := put s.pp.nodes (c.p 0 2) n }) 128 nodeNames
      [(4, 2, n.selBit), (6, 1, n.selWidth), (8, 2, n.advFixed), (0xA, 2, n.advBit), (0xC, 1, n.advWidth), (0xD, 1, n.advScale),
       (0xE, 2, n.advAdd)])

/-! ### Classification (R498 to R507) -/

def actionAt (bs : Bytes) (o : Nat) : ClsAction :=
  { set := le bs o 1 % 128, verdict := le bs (o + 1) 1, tc := min 7 (le bs (o + 2) 1), colour := le bs (o + 3) 1, dest := le bs (o + 4) 2,
    policer := le bs (o + 6) 2, profile := le bs (o + 8) 1, next := le bs (o + 9) 1, userOff := le bs (o + 0xA) 1,
    userLen := clampN 1 8 (le bs (o + 0xB) 1), userVal := (bs.drop (o + 0xC)).take 8 }

/-- The checks of an action in a table; a field whose SET bit is 0 is not applied and is not checked (log 66). -/
def actionBad (s : State) (table o : Nat) (a : ClsAction) : List (Bool × Nat × Nat) :=
  [(a.set.testBit 0 && decide (5 < a.verdict), stNotPermitted, dtField (o + 1)),
   (a.set.testBit 5 && decide (2 < a.colour), stNotPermitted, dtField (o + 3)),
   (a.set.testBit 2 && a.set.testBit 0 && a.verdict == 1 && !nicFunction s a.dest, stBadHandle, dtField (o + 4)),
   (a.set.testBit 2 && a.set.testBit 0 && a.verdict == 3 && !subExists s a.dest, stBadHandle, dtField (o + 4)),
   (a.set.testBit 2 && !(a.set.testBit 0 && (a.verdict == 1 || a.verdict == 3)) && !(nicFunction s a.dest || subExists s a.dest),
     stBadHandle, dtField (o + 4)),
   (a.set.testBit 3 && decide (4095 < a.policer), stBadHandle, dtField (o + 6)),
   (a.set.testBit 4 && decide (63 < a.profile ∧ a.profile ≠ 0xFF), stBadHandle, dtField (o + 8)),
   (a.next != 0 && decide (a.next ≤ table ∨ 8 < a.next), stNotPermitted, dtField (o + 9)),
   (a.set.testBit 6 && decide (48 < a.userOff + a.userLen), stBadAddress, dtField (o + 0xA))]

def fieldAt (bs : Bytes) (o : Nat) : FieldRef :=
  { source := le bs o 1, hid := le bs (o + 1) 1, inst := le bs (o + 2) 1, bitOff := min 4095 (le bs (o + 4) 2),
    width := clampN 1 128 (le bs (o + 6) 2) }

/-- Cost of an entry in the pool of its table's kind (R502). -/
def clsCost (kind width : Nat) : Nat :=
  if kind = 1 then (if width ≤ 16 then 1 else 3) else if kind = 3 then (if width ≤ 8 then 1 else 2) else 1
def clsPool (kind : Nat) : Nat := if kind = 1 then 1048576 else if kind = 2 then 32768 else if kind = 3 then 262144 else 0

/-- Capacity that the pool of a kind has left for one table. -/
def clsFree (s : State) (table kind width : Nat) : Nat :=
  let used := ((s.pp.tables.filter (fun e => e.1 != table && e.2.kind == kind)).map
    (fun e => e.2.capacity * clsCost kind (keyWidth e.2.fields))).sum
  (clsPool kind - used) / clsCost kind width

/-- The same key, and MASK or PREFIX_LEN, as an entry's. -/
def sameKey (t : ClsTable) (a b : ClsEntry) : Bool :=
  keyPart t a.key == keyPart t b.key && (t.kind != 2 || keyPart t a.mask == keyPart t b.mask) && (t.kind != 3 || a.plen == b.plen)

def entryAt (t : ClsTable) (bs : Bytes) (o : Nat) : ClsEntry :=
  { prio := le bs o 2, plen := min (8 * keyWidth t.fields) (le bs (o + 2) 2), key := (bs.drop (o + 8)).take 48,
    mask := (bs.drop (o + 0x38)).take 48, action := actionAt bs (o + 0x68) }

def putTable (n : Nat) (t : ClsTable) (s : State) : State := s.setPp { s.pp with tables := put s.pp.tables n t }

/-- References outside their sets, reference by reference, the first at an offset; of a metadata reference INSTANCE is ignored (R72, R498, R500). -/
def refsBad (o : Nat) (fs : List FieldRef) : List (Bool × Nat × Nat) :=
  fs.zipIdx.flatMap (fun x => [(decide (1 < x.1.source), stNotPermitted, dtField (o + 8 * x.2)),
    (x.1.source == 0 && decide (1 < x.1.inst), stNotPermitted, dtField (o + 2 + 8 * x.2))])

/-- A quantity of an action, of a field reference, or of a record of CLS_ENTRY_WRITE has a value in effect that differs from the value given (R34, R74);
a field of an action counts where its SET bit is 1. -/
def actionClamped (bs : Bytes) (o : Nat) : Bool :=
  (bits (le bs o 1) 1 1 == 1 && (actionAt bs o).tc != le bs (o + 2) 1) || (bits (le bs o 1) 6 1 == 1 && (actionAt bs o).userLen != le bs (o + 0xB) 1)

def refClamped (bs : Bytes) (o : Nat) : Bool := (fieldAt bs o).bitOff != le bs (o + 4) 2 || (fieldAt bs o).width != le bs (o + 6) 2

def recordClamped (op : Nat) (t : ClsTable) (bs : Bytes) (o : Nat) : Bool :=
  let prefix_ := t.kind == 3 && (entryAt t bs o).plen != le bs (o + 2) 2
  match op with
  | 0 => prefix_ || actionClamped bs (o + 0x68)
  | 1 => prefix_
  | _ => clampN 1 8 (le bs (o + 1) 1) != le bs (o + 1) 1 || (List.range (clampN 1 8 (le bs (o + 1) 1))).any (fun i => refClamped bs (o + 8 + 8 * i))

/-- One record at an offset of the block: the state after it, or its rejection. -/
def clsRecord (op n : Nat) (bs : Bytes) (o : Nat) (s : State) : State × Option (Nat × Nat) :=
  let t := tableOf s n
  match op with
  | 0 =>
    let e := entryAt t bs o
    (match firstBad (actionBad s n (o + 0x68) e.action) with
     | some r => (s, some r)
     | none =>
       if t.entries.any (sameKey t e) then (putTable n { t with entries := updFirst (sameKey t e) (fun _ => e) t.entries } s, none)
       else if t.capacity ≤ t.entries.length then (s, some (stNoResource, dtNone))
       else (putTable n { t with entries := t.entries ++ [e] } s, none))
  | 1 => (putTable n { t with entries := t.entries.filter (fun e => !sameKey t (entryAt t bs o) e) } s, none)
  | _ =>
    let kind := le bs o 1
    let fs := (List.range (clampN 1 8 (le bs (o + 1) 1))).map (fun i => fieldAt bs (o + 8 + 8 * i))
    let bad := firstBad ([(decide (3 < kind), stNotPermitted, dtField o)]
      ++ refsBad (o + 8) fs
      ++ [(decide (48 < keyWidth fs), stBadAddress, dtField (o + 8))])
    match bad with
    | some r => (s, some r)
    | none =>
      (putTable n { t with kind := kind, fields := fs, entries := [],
                           capacity := clampN 0 (clsFree s n kind (keyWidth fs)) (le bs (o + 4) 4) } s, none)

/-- Records from one on are applied until one is rejected: the state, how many were applied, and the rejection. -/
def clsRecords (op n : Nat) (bs : Bytes) : Nat → Nat → State → State × Nat × Option (Nat × Nat)
  | 0, i, s => (s, i, none)
  | k + 1, i, s =>
    match clsRecord op n bs (32 + 128 * i) s with
    | (s', none) => clsRecords op n bs k (i + 1) s'
    | (_, some r) => (s, i, some r)

/-- CLS_ENTRY_WRITE. -/
def hClsEntryWrite : Handler := fun c s =>
  let n := c.p 0 1
  let op := c.p 1 1
  let count := if op = 3 then 0 else if op = 2 then 1 else clampN 0 31 (c.p 2 2)
  let answer := fun (s : State) (i bad : Nat) => layout 32 [(0, 4, i), (4, 4, (tableOf s n).entries.length), (8, 4, bad)]
  checked s
    [(decide (7 < n), stBadHandle, dtField 0), (decide (3 < op), stNotPermitted, dtField 1),
     (decide (c.pkt.paramLen < 32 + 128 * count), stBadAddress, dtField 2)]
    (if op = 3 then
       (let a := actionAt c.params 8
        checked s (actionBad s n 8 a) (Res.ok (putTable n { tableOf s n with miss := some a } s) (actionClamped c.params 8) (answer s 0 0xFFFFFFFF)))
     else match clsRecords op n c.params count 0 s with
       | (s', i, none) =>
         Res.ok s' (c.p 2 2 != count || (op == 2 && c.p 0x24 4 != (tableOf s' n).capacity)
           || (List.range count).any (fun i => recordClamped op (tableOf s n) c.params (32 + 128 * i))) (answer s' i 0xFFFFFFFF)
       | (s', i, some (st, d)) => .reply s' st d (answer s' i i))

/-! ### INDIRECTION_WRITE (R515, R516) -/

/-- Only its owner and privileged issuers may write a profile. -/
def ownsProfile (c : Ctx) (s : State) (n : Nat) : Bool := c.iss.priv || (has s.pp.profiles n && (profileOf s n).owner == c.iss.fid)

/-- INDIRECTION_WRITE with OP 0. -/
def hIndirectionEntries : Handler := fun c s =>
  let n := c.p 0 1
  let p := profileOf s n
  let first := c.p 2 2
  let count := clampN 0 2024 (c.p 4 2)
  checked s
    [(decide (63 < n) || !ownsProfile c s n, stBadHandle, dtField 0),
     (decide (2 ^ p.sizeLog2 < first + count), stBadAddress, dtField 2),
     (decide (c.pkt.paramLen < 16 + 2 * count), stBadAddress, dtField 4),
     (!c.iss.priv && c.p 6 2 != 0, stNotPermitted, dtField 6)]
    (let m := (List.range count).foldl (fun m i => put m ((p.base + first + i) % 4096) (c.p (16 + 2 * i) 2)) s.pp.indir
     Res.ok (s.setPp { s.pp with indir := m }) (c.p 4 2 != count) (layout 16 [(0, 4, count), (4, 4, 2 ^ p.sizeLog2)]))

/-- INDIRECTION_WRITE with OP 1. -/
def hIndirectionProfile : Handler := fun c s =>
  let n := c.p 0 1
  let k := clampN 0 12 (c.p 0x12 1)
  let base := clampN 0 (4096 - 2 ^ k) (c.p 0x10 2) / 2 ^ k * 2 ^ k
  let fc := clampN 0 4 (c.p 0x13 1)
  let fs := (List.range fc).map (fun i => fieldAt c.params (0x14 + 8 * i))
  checked s
    ([(!c.iss.priv, stNotPermitted, dtIssuerKind), (decide (63 < n), stBadHandle, dtField 0),
      (decide (c.pkt.paramLen < 16 + 88), stBadAddress, dtParamLength)] ++ refsBad 0x14 fs)
    (let p : Profile := { base := base, sizeLog2 := k, fields := fs, key := (c.params.drop 0x34).take 52, owner := c.p 6 2 }
     Res.ok (s.setPp { s.pp with profiles := put s.pp.profiles n p })
       (c.differs ([(0x10, 2, base), (0x12, 1, k), (0x13, 1, fc)] ++ (List.range fc).flatMap (fun i =>
         [(0x18 + 8 * i, 2, ((fs[i]?).getD {}).bitOff), (0x1A + 8 * i, 2, ((fs[i]?).getD {}).width)]))) (layout 16 [(0, 4, 0), (4, 4, 2 ^ k)]))

/-- INDIRECTION_WRITE, by its OP. -/
def hIndirectionWrite : Handler := fun c s =>
  match c.p 1 1 with
  | 0 => hIndirectionEntries c s
  | 1 => hIndirectionProfile c s
  | _ => Res.rej s stNotPermitted (dtField 1)

/-! ### SHAPER_SET and POLICER_SET (R508, R513, R522, R523) -/

/-- The object of a SHAPER_SET: its key and its owner. -/
def shaperKey (c : Ctx) : Nat × Nat :=
  match c.p 0 1 with
  | 0 => egressKey (c.p 2 1) (c.p 1 1)
  | 1 => (1, qpKey (bits (c.p 4 4) 16 16) (bits (c.p 4 4) 0 16))
  | k => (k, c.p 4 4)

def shaperOwner (s : State) (k : Nat × Nat) : Nat := if k.1 = 1 then k.2 / 65536 else (lookD s.grt.conns k.2 { owner := 0 }).owner

def limitersUsed (s : State) (fid : Nat) : Nat :=
  (s.pp.shapers.filter (fun e => e.2.took == some fid)).length + (fnD s fid).reclaim.limiters

/-- The counter that a shaper's bucket fills on: its port's. -/
def shaperPort (s : State) (k : Nat × Nat) : Nat :=
  if k.1 = 0 then k.2 / 8 else if k.1 = 1 then ((qpOf s k.2).map (·.port)).getD 0 else (lookD s.grt.conns k.2 { owner := 0 }).port

/-- SHAPER_SET. -/
def hShaperSet : Handler := fun c s =>
  let kind := c.p 0 1
  let k := shaperKey c
  let o := shaperOwner s k
  let rate := clampN 1 800000 (c.p 8 4)
  let burst := clampN 10240 16777216 (c.p 0xC 4)
  let limit := if kind = 0 then clampN 65536 67108864 (c.p 0x10 4) else 4194304
  let on := (c.p 3 1).testBit 0
  let old := shaperOf s k
  let takes := on && kind != 0 && old.took.isNone
  checked s
    [(decide (2 < kind), stNotPermitted, dtField 0),
     (kind == 0 && !c.iss.priv, stNotPermitted, dtIssuerKind),
     (kind == 0 && decide (7 < c.p 1 1), stNotPermitted, dtField 1),
     (kind == 0 && !subExists s (c.p 2 1), stBadHandle, dtField 2),
     (kind == 1 && !(has s.pp.qps k.2 && mayName c o), stBadHandle, dtField 4),
     (kind == 2 && !(has s.grt.conns k.2 && mayName c o), stBadHandle, dtField 4),
     (takes && decide ((fnD s o).allot.limiters ≤ limitersUsed s o), stNoResource, dtNone)]
    (let t := nowEn s (shaperPort s k)
     let x := if has s.pp.shapers k then fillShaper t old
              else { old with level := (Config.freeNat s.draw % (burst * 8000 + 1) : Nat), since := t }
     let x := { x with enable := on, rate := rate, burst := burst, limit := limit, level := min x.level (burst * 8000 : Nat),
                       took := if takes then some o else x.took }
     c.okEcho (setShaper k x (drawn s)) 32 (whole [(0, 1), (1, 1), (2, 1), (4, 4), (0x10, 4)] ++ [(3, 1, 1)])
       ([(8, 4, rate), (0xC, 4, burst)] ++ (if kind = 0 then [(0x10, 4, limit)] else [])))

/-- POLICER_SET. -/
def hPolicerSet : Handler := fun c s =>
  let n := c.p 0 2
  let cir := clampN 1 800000 (c.p 4 4)
  let cbs := clampN 10240 268435456 (c.p 8 4)
  let pir := clampN cir 800000 (c.p 0xC 4)
  let pbs := clampN 10240 268435456 (c.p 0x10 4)
  checked s
    [(decide (n = 0 ∨ 4095 < n), stBadHandle, dtField 0), (decide (1 < c.p 2 1), stNotPermitted, dtField 2)]
    (let t := nowPp s
     let q := if has s.pp.policers n then fillPolicer t (policerOf s n)
              else { policerOf s n with c := Config.freeNat s.draw % (cbs * 8000 + 1), p := Config.freeNat (s.draw + 1) % (pbs * 8000 + 1),
                                          since := t }
     let q := { q with aware := c.p 2 1 == 1, enable := (c.p 3 1).testBit 0, cir := cir, cbs := cbs, pir := pir, pbs := pbs,
                       c := min q.c (cbs * 8000), p := min q.p (pbs * 8000) }
     let s' := drawn (drawn s)
     c.okEcho (s'.setPp { s'.pp with policers := put s'.pp.policers n q }) 32 (whole [(0, 2), (2, 1)] ++ [(3, 1, 1)])
       [(4, 4, cir), (8, 4, cbs), (0xC, 4, pir), (0x10, 4, pbs)])

/-! ### GATE_LIST_SET (R524, R525) -/

def hGateListSet : Handler := fun c s =>
  let i := c.p 0 1
  let n := clampN 0 64 (c.p 1 1)
  let es := (List.range n).map (fun j => (clampN 100 1000000000 (c.p (16 + 16 * j) 4), c.p (20 + 16 * j) 1))
  let eff := (1, 1, n) :: (List.range n).map (fun j => (16 + 16 * j, 4, (es.getD j (0, 0)).1))
  checked s
    [(decide (i < 32) && isolated s (blkEn (i / 4)), stFailed, dtIsolated),
     (!subExists s i, stBadHandle, dtField 0),
     (decide (c.pkt.paramLen < 16 + 16 * n), stBadAddress, dtField 1)]
    (let g : GateList := { base := c.p 8 8, entries := es }
     let due := gateDue (subOf s i).gates g (nowEn s i)
     c.okEcho (updSub i (fun x => { x with nextGates := some (g, due) }) s) (16 + 16 * n)
       (whole ([(0, 1), (8, 8)] ++ (List.range n).map (fun j => (20 + 16 * j, 1)))) eff)

/-- A new list takes effect at its time; waiting frames are judged under it from then on (R525, R527). -/
def execGateListTakeEffect (sub : Nat) (s : State) : Host.Outcome State Fault Refusal :=
  .next (thawed s <| match (subOf s sub).nextGates with
    | some (g, due) => if due ≤ nowEn s sub then updSub sub (fun x => { x with gates := g, nextGates := none }) s else s
    | none => s)

/-! ### SAMPLER_SET and the samplers (R528, R529) -/

def samplerOf (s : State) (n : Nat) : Sampler := lookD s.pp.samplers n {}

def hSamplerSet : Handler := fun c s =>
  let n := c.p 0 1
  let kind := c.p 2 1
  let count := clampN 1 (if kind = 0 then 8 else 64) (c.p 8 2)
  let iv := max (clampN 500 1000000 (c.p 0xC 4)) (ceilDiv (count * 125) 4)
  let lg := clampN 6 20 (c.p 0x18 1)
  let fid := c.p 4 2
  checked s
    [(decide (63 < n), stBadHandle, dtField 0),
     (decide (1 < kind), stNotPermitted, dtField 2),
     (kind == 0 && !c.iss.priv, stNotPermitted, dtIssuerKind),
     (kind == 0 && !subExists s (c.p 3 1), stBadHandle, dtField 3),
     (kind == 1 && !(nicFunction s fid && mayName c fid), stBadHandle, dtField 4),
     (kind == 0 && decide (8 < c.p 6 2 + count), stBadHandle, dtField 6),
     (kind == 1 && !(List.range count).all (fun i => has s.pp.qps (qpKey fid (c.p 6 2 + i))), stBadHandle, dtField 6),
     (c.p 0x10 8 % 64 != 0, stBadAddress, dtField 0x10)]
    (let x : Sampler := { enable := (c.p 1 1).testBit 0, kind := kind, port := c.p 3 1, fn := fid, first := c.p 6 2, count := count,
                          interval := iv, ring := c.p 0x10 8, log2 := lg, issuer := c.iss.owner }
     c.okEcho (s.setPp { s.pp with samplers := put s.pp.samplers n x }) 32
       (whole [(0, 1), (2, 1), (3, 1), (4, 2), (6, 2), (0x10, 8)] ++ [(1, 1, 1)]) [(8, 2, count), (0xC, 4, iv), (0x18, 1, lg)])

/-- Bytes in a sampled queue and the time its head has waited. -/
def sampledQueue (s : State) (x : Sampler) (i : Nat) : Nat × Nat :=
  if x.kind = 0 then
    (let q := queueAt (subOf s x.port) (x.first + i)
     (queueBytes q, match q with | f :: _ => nowEn s x.port - f.since | [] => 0))
  else match qpOf s (qpKey x.fn (x.first + i)) with
    | some q => ((q.txq.map (fun d => d.1.len)).sum, match q.txq with | d :: _ => nowEn s q.port - d.2.2 | [] => 0)
    | none => (0, 0)

/-- One record per queue, around the ring. -/
def sampleOne (n i : Nat) (s : State) : State :=
  let x := samplerOf s n
  let d := sampledQueue s x i
  let t := if x.kind = 0 then nowEn s x.port else nowPp s
  let bs := leBytes 6 t ++ leBytes 2 (bit x.pass * 32768 + i % 64) ++ leBytes 4 d.1 ++ leBytes 4 (min (2 ^ 32 - 1) d.2)
  let last := decide (x.prod + 1 = 2 ^ x.log2)
  dmaOut x.issuer (x.ring + 16 * x.prod) bs
    (s.setPp { s.pp with samplers := put s.pp.samplers n { x with prod := if last then 0 else x.prod + 1, pass := if last then !x.pass else x.pass } })

def execSamplerInterval (sampler : Nat) (s : State) : Host.Outcome State Fault Refusal :=
  .next (thawed s <| let x := samplerOf s sampler
         if x.enable then (List.range x.count).foldl (fun s i => sampleOne sampler i s) s else s)

/-! ### Links (R483 to R486, R509) -/

/-- A frame arrives. -/
def execEthernetFrameRx (sub : Nat) (frame : Bytes) (full : Bool) (corrected uncorrectable : Nat) (s : State) : Host.Outcome State Fault Refusal :=
  .next (thawed s <| if !subExists s sub || !(subOf s sub).up then s
    else
      receiveFrame sub frame full (bumpEnBy sub 0x138 uncorrectable (updSub sub (fun x => { x with fec := x.fec + corrected }) s)))

/-- A sub-port's link comes up at a speed on a set of lanes. -/
def linkUp (sub speed laneMask inverted : Nat) (partner : Bool) (s : State) : State :=
  let p := enOf s (sub / 4)
  let x := subOf s sub
  let svc := if x.svc = 2 then 2 else if !x.seen then enterSvc p.startupMs 1
    else if x.svc = 0 ∨ x.svc = 3 then enterSvc p.recoveryMs 3 else x.svc
  let lanes := (List.range 4).map (fun l =>
    let y := (p.lanes[l]?).getD { logical := l }
    if laneMask.testBit l then { y with trained := true, inverted := inverted.testBit l, fails := 0 } else y)
  let s := setEn (sub / 4) { p with lanes := lanes } s
  let s := setSub sub { x with up := true, seen := true, trainedOnce := true, svc := svc, downtrained := decide (laneMask ≠ fullLanes p.mode sub),
                               speed := speed, laneMask := laneMask, partner := partner, fec := 0, hold := false } s
  let s := if svc = 3 ∨ (svc ≠ 0 ∧ svc ≠ x.svc) then fillPeaks s else s
  if x.trainedOnce then warn 1 1 (bumpEn sub 0x13C s) else s

def execLinkUp (sub speed laneMask inverted : Nat) (partner : Bool) (s : State) : Host.Outcome State Fault Refusal :=
  .next (if !subExists s sub || (subOf s sub).up then s else linkUp sub speed (laneMask % 16) inverted partner s)

/-- A sub-port's link goes down; its queued frames are held. -/
def linkDown (sub : Nat) (s : State) : State :=
  let p := enOf s (sub / 4)
  let m := (subOf s sub).laneMask
  let lanes := (List.range 4).map (fun l =>
    let y := (p.lanes[l]?).getD { logical := l }
    if m.testBit l then { y with trained := false } else y)
  updSub sub (fun x => { x with up := false, hold := true, speed := 0 }) (setEn (sub / 4) { p with lanes := lanes } s)

def execLinkDown (sub : Nat) (s : State) : Host.Outcome State Fault Refusal :=
  .next (if (subOf s sub).up then linkDown sub s else s)

/-- The link is not back within 10 ms. -/
def execLinkDownHoldExpiry (sub : Nat) (s : State) : Host.Outcome State Fault Refusal :=
  .next (let x := subOf s sub
         if !x.up && x.hold then dropQueued sub s else s)

/-- STARTUP_MS or RECOVERY_MS has passed. -/
def execServiceTimerExpiry (sub : Nat) (s : State) : Host.Outcome State Fault Refusal :=
  .next (thawed s <| let x := subOf s sub
         if x.svc = 1 ∨ x.svc = 3 then setSub sub { x with svc := 0 } s else s)

/-- The sub-port that a lane belongs to in a mode. -/
def laneSub (mode port lane : Nat) : Nat := 4 * port + (if mode = 1 then 0 else if mode = 2 then lane / 2 else lane)

/-- The lanes left after a failed lane: the other pair of four, the other lane of a pair, or none (R485). -/
def stepDown (mask lane : Nat) : Nat :=
  if popCount 4 mask = 4 then (if lane < 2 then 12 else 3)
  else if popCount 4 mask = 2 then mask - (if mask.testBit lane then 2 ^ lane else 0) else 0

/-- A port is taken down by one step. -/
def downTrain (i lane : Nat) (s : State) : State :=
  let p := enOf s (i / 4)
  let x := subOf s i
  let have_ := if x.laneMask = 0 then fullLanes p.mode i else x.laneMask
  let left := stepDown have_ lane
  let s := if p.downtrain then logPolicy (blkIsland (blkEn (i / 4))) 8 4 i have_ left s else s
  if !p.downtrain || left = 0 then
    (let s := if x.up then linkDown i s else s
     if p.downtrain then updSub i (fun x => { x with downtrained := true }) s else s)
  else updSub i (fun x => { x with downtrained := true, laneMask := left, speed := if x.up then laneSpeed left else x.speed }) s

/-- A lane fails training; the third failure takes its port down by one step. -/
def execLaneTrainingFailed (port lane : Nat) (s : State) : Host.Outcome State Fault Refusal :=
  .next (let p := enOf s port
         match p.lanes[lane]? with
         | none => s
         | some l =>
           if 8 ≤ port then s
           else if l.fails + 1 < 3 then setEn port { p with lanes := p.lanes.set lane { l with fails := l.fails + 1 } } s
           else downTrain (laneSub p.mode port lane) lane
             (setEn port { p with lanes := p.lanes.set lane { l with fails := 0, trained := false } } s))

/-- The partner's lane-identity pattern is recognised on all lanes: its order is adopted (R484). -/
def execLaneIdentityFound (port order : Nat) (s : State) : Host.Outcome State Fault Refusal :=
  .next (let p := enOf s port
         if 8 ≤ port ∨ p.laneOrder ≠ 0 ∨ !lanePerm order then s
         else setEn port { p with lanes := (lanesBy order p.lanes).map (fun l => { l with found := true }) } s)

/-- TRANSMISSION_SLOT: the scheduler sends the head frame of the highest-numbered class that is eligible (R521). -/
def execTransmissionSlot (sub : Nat) (s : State) : Host.Outcome State Fault Refusal := .next (thawed s <| transmitSlot sub s)

/-! ### Registers (R530, R531) -/

/-- Registers of an Ethernet port block that show state held elsewhere. -/
def enReg (s : State) (n rel : Nat) : Option Nat :=
  let p := enOf s n
  if rel = 0x100 then some (bit (p.service == 1) * 4 + p.mode % 4)
  else if rel = 0x104 then some (((List.range 4).map (fun i =>
    let x := (p.subs[i]?).getD {}
    (bit x.downtrained * 8 + x.svc % 4 * 2 + bit x.up) * 16 ^ i)).sum)
  else if 0x108 ≤ rel ∧ rel ≤ 0x114 then
    (let l := (p.lanes[(rel - 0x108) / 4]?).getD { logical := 0 }
     some (bit l.trained * 128 + bit l.inverted * 64 + bit l.found * 32 + l.logical % 4))
  else none

end Sys2Proof.Machine
end

