-- ==== Sys2Proof/Machine/Grt.lean ====
section
/-! DEFINITION. Gitus Reliable Transport at work (chapter 12): packets, paths, the congestion window, sending, completions, trigger counters, tracking and
release of messages, and the ERROR state. -/

namespace Sys2Proof.Machine

open Sys2Proof

/-! ### Connections, work queues and registrations -/

def connOf (s : State) (h : Nat) : Option Conn := look s.grt.conns h
def connD (s : State) (h : Nat) : Conn := lookD s.grt.conns h { owner := 0 }
def setConn (h : Nat) (c : Conn) (s : State) : State := s.setGrt { s.grt with conns := put s.grt.conns h c }
def updConn (h : Nat) (f : Conn → Conn) (s : State) : State :=
  match connOf s h with
  | some c => setConn h (f c) s
  | none => s
def wqOf (s : State) (w : Nat) : Option Wq := look s.grt.wqs w
def setWq (w : Nat) (q : Wq) (s : State) : State := s.setGrt { s.grt with wqs := put s.grt.wqs w q }
def mrOf (s : State) (rkey : Nat) : Option Mr :=
  match look s.grt.mrs (rkey / 4096) with
  | some m => if m.handle = rkey then some m else none
  | none => none

/-- A handle is slot [31:13] and reuse count [12:0] (R535). -/
def connSlot (h : Nat) : Nat := h / 8192

def nowTr (s : State) : Nat := now s (blkIsland blkTransport)
def bumpTr (rel : Nat) (s : State) : State := bump blkTransport rel s

/-- a comes after b in 32-bit sequence order. -/
def seqAfter (a b : Nat) : Bool := let d := (a + 2 ^ 32 - b % 2 ^ 32) % 2 ^ 32; decide (0 < d ∧ d < 2 ^ 31)
def seqAdd (a n : Nat) : Nat := (a + n) % 2 ^ 32
def seqDist (a b : Nat) : Nat := (a + 2 ^ 32 - b % 2 ^ 32) % 2 ^ 32

def pmtuBytes (code : Nat) : Nat := 1024 * 2 ^ code

/-- SACK window, and entropies less 1, of the version in effect (R537). -/
def sackWindow (c : Conn) : Nat := if c.version = 1 then 64 else 256
def pathsNow (c : Conn) : Nat := if c.roce then 0 else if c.version = 1 then min 15 c.paths else c.paths

/-- A key of KIND 2 that a function holds (R572). -/
def transportKey (s : State) (fid : Nat) : Bool :=
  keyedAllowed s && s.sec.keys.any (fun e => e.2.kind == 2 && e.2.owner == fid && e.2.material.isSome)

/-- The function's queues and connections are worked on: ACTIVE, and its PF in D0 (R423, R426). -/
def fnServed (s : State) (fid : Nat) : Bool :=
  (fnOf s fid).isSome && (fnD s fid).st == .active && (fnD s fid).dstate == .d0 && !(fnD s fid).crs

/-- The started work of a function's connections goes on: as long as it is served, and while it is being frozen (R426). -/
def fnWorks (s : State) (fid : Nat) : Bool :=
  (fnOf s fid).isSome && !hostHeld s fid && !(fnD s fid).crs

/-! ### Packets on the wire (R538 to R540, R569) -/

def fSealed (p : GrtPkt) : Bool := p.flags.testBit 3
def fPersist (p : GrtPkt) : Bool := p.flags.testBit 4
def fLast (p : GrtPkt) : Bool := p.flags.testBit 6
def fRetx (p : GrtPkt) : Bool := p.flags.testBit 5
def fAckNow (p : GrtPkt) : Bool := p.flags.testBit 2

/-- Bytes of the transport's headers in front of the payload. In RoCEv2 mode: BTH, then RETH, AETH or immediate, and the ICRC behind. -/
def headerLen (p : GrtPkt) : Nat :=
  if p.roce then 16 + (if p.type = 3 ∨ (p.flags.testBit 7 ∧ p.type ≤ 2) then 16 else 0)
    + (if p.type = 2 ∧ fLast p then 4 else 0) + (if 4 ≤ p.type ∧ p.type ≤ 6 then 4 else 0)
  else 24 + p.ext.length

/-- FRAME_LEN of a packet of a connection, FCS included. -/
def packetLen (s : State) (c : Conn) (p : GrtPkt) : Nat :=
  14 + (if (fnD s c.owner).vlan = 0 then 0 else 4) + (if c.v6 then 40 else 20) + 8 + headerLen p + p.payload.length
    + (if fSealed p then 16 else 0) + 4

/-- The working key of the SEALED packets of a function's connection from one connection ID to another is in use (R598, R600). -/
def useGrtKey (fid sender receiver : Nat) (p : GrtPkt) (s : State) : State :=
  match (s.sec.keys.find? (fun e => e.2.kind == 2 && e.2.owner == fid && e.2.material.isSome)).bind (fun e => e.2.material) with
  | some k =>
    if fSealed p then
      useWorkingKey k (([0x54, 0x52, 0x4D, 0x2D, 0x47, 0x52, 0x54] : Bytes) ++ leBytes 4 sender ++ leBytes 4 receiver) s
    else s
  | none => s

/-- A packet goes to the egress queue of its connection; it is never tail-dropped (R489). -/
def queuePacket (h : Nat) (p : GrtPkt) (s : State) : State :=
  let c := connD s h
  if egressPaused s then
    s.setPp { s.pp with egressHeld := s.pp.egressHeld ++ [(c.port, c.tc, { src := .grt h, pkt := some p, len := packetLen s c p })] }
  else
  let s := useGrtKey c.owner h c.peerConn p s
  let f : EgFrame := { src := .grt h, pkt := some p, len := packetLen s c p }
  if !subExists s c.port || (!(subOf s c.port).up && !(subOf s c.port).hold) then bumpEn c.port 0x130 s
  else pushFrame c.port c.tc f (takeFrom (2, h) (nowEn s c.port) f.len s)

/-- The extension headers. -/
def extWrite (msn off rkey notify region : Nat) : Bytes :=
  beBytes 4 msn ++ beBytes 4 off ++ beBytes 4 rkey ++ beBytes 4 notify ++ beBytes 8 region
def extRead (msn len rkey region : Nat) : Bytes := beBytes 4 msn ++ beBytes 4 len ++ beBytes 4 rkey ++ [0, 0, 0, 0] ++ beBytes 8 region
def extResp (msn off : Nat) : Bytes := beBytes 4 msn ++ beBytes 4 off ++ List.replicate 16 0
def extNak (psn msn code retry : Nat) : Bytes := beBytes 4 psn ++ beBytes 4 msn ++ beBytes 1 code ++ [0, 0, 0] ++ beBytes 4 retry

/-- The SACK bitmap: bit k stands for PSN CUM_PSN + 1 + k, the lowest bit of each byte first (log 67). -/
def sackBytes (c : Conn) : Bytes :=
  (List.range (sackWindow c / 8)).map (fun i =>
    BitVec.ofNat 8 ((List.range 8).map (fun b => if c.seen.contains (seqAdd c.cum (1 + 8 * i + b)) then 2 ^ b else 0)).sum)

def extAck (c : Conn) : Bytes :=
  beBytes 4 c.cum ++ beBytes 4 c.cmsn ++ beBytes 4 c.newTs ++ beBytes 1 c.newPath ++ beBytes 1 (sackWindow c / 8) ++ [0, 0] ++ sackBytes c

def extHello (c : Conn) (h : Nat) : Bytes :=
  beBytes 1 1 ++ beBytes 1 c.versionMax ++ beBytes 1 c.pmtu ++ beBytes 1 c.paths ++ beBytes 4 h ++ beBytes 4 c.initPsn ++ List.replicate 12 0

/-- Version of packets a connection sends. -/
def verOf (c : Conn) : Nat := if c.version = 0 then c.versionMax else c.version

/-- A packet that takes no PSN of its own. -/
def control (s : State) (c : Conn) (type path : Nat) (ext : Bytes) : GrtPkt :=
  { roce := c.roce, ver := verOf c, type := type, dst := c.peerConn, ts := nowTr s % 2 ^ 32, path := path, ext := ext }

def sendHello (h : Nat) (s : State) : State := let c := connD s h; queuePacket h (control s c 7 0 (extHello c h)) s

/-- An ACK goes out on the entropy of the newest packet (R556). -/
def sendAck (h : Nat) (s : State) : State :=
  let c := connD s h
  queuePacket h (control s c 5 c.newPath (extAck c)) (setConn h { c with unacked := 0, ackDue := false } s)

def sendNak (h psn msn code retry : Nat) (s : State) : State :=
  let c := connD s h
  queuePacket h (control s c 6 c.newPath (extNak psn msn code retry)) s

/-- A refusal with a NAK code of a packet without a connection to answer on: it goes back where the packet came from (log 68). -/
def refusal (code : Nat) (p : GrtPkt) (s : State) : State :=
  let q : GrtPkt := { ver := p.ver, type := 6, ts := nowTr s % 2 ^ 32, path := p.path, ext := extNak p.psn (be p.ext 0 4) code 0 }
  emit (.packet 32 p.dst 0 0 {} q (grtBytes q)) s

/-- A refusal of a packet that names no connection in READY. -/
def nakNoConn (p : GrtPkt) (s : State) : State := refusal 1 p s

/-! ### Paths (R544, R545) -/

/-- The next entropy in turn among those not excluded, other than one to avoid. -/
def pickPath (c : Conn) (avoid : Option Nat) : Nat :=
  let n := pathsNow c + 1
  match (List.range n).find? (fun i =>
      let p := (c.nextPath + i) % n
      !c.excluded.any (fun e => e.1 == p) && (n == 1 || avoid != some p)) with
  | some i => (c.nextPath + i) % n
  | none => ((List.range n).find? (fun p => avoid != some p)).getD 0

/-- An entropy is excluded; at most PATHS of them are at once, so the one excluded longest returns to make room (log 73). -/
def excludePath (h p : Nat) (s : State) : State :=
  let c := connD s h
  if c.excluded.any (fun e => e.1 == p) || pathsNow c == 0 then s
  else
    let until_ := nowTr s + max (64 * c.srtt) 1000000
    let ex := (if pathsNow c ≤ c.excluded.length then c.excluded.drop 1 else c.excluded) ++ [(p, until_)]
    logPolicy (blkIsland blkTransport) 4 1 (connSlot h % 65536) c.excluded.length ex.length
      (bumpTr 0x120 (setConn h { c with excluded := ex } s))

/-! ### Congestion window (R560) -/

/-- The window changes; a crossing of half the ceiling is logged. -/
def setCwnd (h w : Nat) (s : State) : State :=
  let c := connD s h
  let s' := setConn h { c with cwnd := w } s
  if decide (c.cwnd < c.cwndMax / 2) != decide (w < c.cwndMax / 2) then
    logPolicy (blkIsland blkTransport) 3 1 (connSlot h % 65536) c.cwnd w s'
  else s'

/-- The pseudocode on an ACK that newly covers n bytes with a round-trip time, in whole bytes and nanoseconds (log 69). -/
def ccAck (h n rtt : Nat) (s : State) : State :=
  let c := connD s h
  let srtt := if c.srtt ≤ rtt then c.srtt + (rtt - c.srtt) / 8 else c.srtt - (c.srtt - rtt) / 8
  let p := pmtuBytes c.pmtu
  let t := nowTr s
  let grow := decide (rtt ≤ c.target)
  let cut := !grow && decide (srtt ≤ t - c.lastDec)
  let w := if grow then c.cwnd + p * n / max 1 c.cwnd
    else if cut then max (c.cwnd * (rtt * 10 - 8 * (rtt - c.target)) / (10 * rtt)) (c.cwnd / 2) else c.cwnd
  setCwnd h (min (max w p) c.cwndMax) (setConn h { c with srtt := srtt, lastDec := if cut then t else c.lastDec } s)

/-- Timeout of a packet's first transmission in µs (R557). -/
def firstRto (c : Conn) : Nat := clampN c.rtoMin c.rtoMax (2 * c.srtt / 1000)

/-! ### Completions (R542, R553) -/

/-- A completion goes into the ring. -/
def writeGrt (w : Nat) (x : GrtCpl) (s : State) : State :=
  match wqOf s w with
  | none => s
  | some q =>
    let last := decide (q.cqProd + 1 = 2 ^ q.cqLog2)
    let bs := leBytes 4 x.tag ++ leBytes 4 x.conn ++ leBytes 4 x.length ++ leBytes 2 (genOf s q.owner) ++ leBytes 1 x.status
                ++ leBytes 1 (bit q.cqPass * 128 + bit x.receive)
    let s := setWq w { q with cqProd := if last then 0 else q.cqProd + 1, cqPass := if last then !q.cqPass else q.cqPass,
                              cqUsed := q.cqUsed + 1 } s
    let to_ := if q.endpoint = 0xFFFF then q.owner else q.endpoint
    let s := dmaOut to_ (q.cq + 16 * q.cqProd) bs s
    if q.vector = 0xFFFF then s else raiseMsix q.owner q.vector s

/-- A completion is posted, or waits while the PF is not in D0, the VF is FROZEN (R423, R426) or the ring has no free entry (log 62). -/
def postGrt (w : Nat) (x : GrtCpl) (s : State) : State :=
  match wqOf s w with
  | none => s
  | some q =>
    if 2 ^ q.cqLog2 ≤ q.cqUsed ∨ q.heldCpl ≠ [] ∨ hostHeld s q.owner then setWq w { q with heldCpl := q.heldCpl ++ [x] } s
    else writeGrt w x s

/-- Completions that waited are posted while there is room. -/
def drainGrt (w : Nat) : Nat → State → State
  | 0, s => s
  | fuel + 1, s =>
    match wqOf s w with
    | some q =>
      (match q.heldCpl with
       | x :: r => if q.cqUsed < 2 ^ q.cqLog2 ∧ hostHeld s q.owner = false then drainGrt w fuel (writeGrt w x (setWq w { q with heldCpl := r } s)) else s
       | [] => s)
    | none => s

/-- A trigger counter rises and never wraps (R561). -/
def raiseCtr (w k n : Nat) (s : State) : State :=
  match wqOf s w with
  | some q => if k < 64 then setWq w { q with ctrs := put q.ctrs k (min (2 ^ 64 - 1) (lookD q.ctrs k 0 + n)) } s else s
  | none => s

/-- A request ends with a status: its completion where one is due, and its counter (R542, R561). The bytes of a failed one are not stated. -/
def endReq (w h : Nat) (wr : GrtWr) (st : Nat) (s : State) : State :=
  let s := if st = 0 then raiseCtr w wr.ctrInc 1 s else drawn s
  if wr.flags.testBit 0 ∨ st ≠ 0 then
    postGrt w { tag := wr.tag, conn := h, length := if st = 0 then wr.length else Config.freeNat (s.draw - 1) % 2 ^ 32, status := st,
                receive := false } s
  else s

/-! ### Work requests (R541, R555) -/

/-- A CTR_ADD raises its counter and a NOP does nothing; each then completes. -/
def runLocal (w h : Nat) (wr : GrtWr) (s : State) : State :=
  endReq w h wr 0 (if wr.opcode = 4 then raiseCtr w wr.trigCtr wr.ctrValue s else s)

/-- Requests at the head that are done complete in order; a CTR_ADD or NOP that a FENCE held runs when it comes to the head. -/
def drainReqs (h : Nat) : Nat → State → State
  | 0, s => s
  | fuel + 1, s =>
    let c := connD s h
    match c.reqs with
    | [] => s
    | r :: rest =>
      (match r.done with
       | some st => drainReqs h fuel (endReq c.wq h r.wr st (setConn h { c with reqs := rest } s))
       | none =>
         if r.wr.opcode = 4 ∨ r.wr.opcode = 5 then drainReqs h fuel (runLocal c.wq h r.wr (setConn h { c with reqs := rest } s))
         else s)

def drainAll (h : Nat) (s : State) : State := drainReqs h (connD s h).reqs.length s

/-- Requests whose message fails, and the completion of requests in order. -/
def markDone (h : Nat) (p : GrtReq → Bool) (st : Nat) (s : State) : State :=
  freezeProgress (drainAll h (updConn h (fun c => { c with reqs := c.reqs.map (fun r =>
    if r.done.isNone && p r then { r with done := some st, sentAll := true } else r) }) s))

/-! ### Sending (R544, R546, R557, R560) -/

def inFlight (c : Conn) : Nat :=
  ((c.flight.filter (fun x => !x.sacked && !x.lost && x.wait.isNone)).map (fun x => x.pkt.payload.length)).sum

/-- A packet of a length may go: window, queue room and shaper. -/
def maySend (s : State) (h : Nat) (p : GrtPkt) : Bool :=
  let c := connD s h
  let n := packetLen s c p
  decide (inFlight c + p.payload.length ≤ max c.cwnd (pmtuBytes c.pmtu)) && hasRoom s c.port c.tc n
    && shaperAllows (nowEn s c.port) n (shaperOf s (2, h))

/-- A new packet takes the next PSN and entropy and goes out. -/
def sendNew (h msn : Nat) (p : GrtPkt) (s : State) : State :=
  let c := connD s h
  let path := pickPath c none
  let p := { p with roce := c.roce, ver := verOf c, dst := c.peerConn, psn := c.nextPsn, ts := nowTr s % 2 ^ 32, path := path }
  let x : TxPkt := { pkt := p, msn := msn, sentAt := nowTr s, rto := firstRto c }
  queuePacket h p (setConn h { c with nextPsn := seqAdd c.nextPsn 1, nextPath := (path + 1) % (pathsNow c + 1),
                                      flight := c.flight ++ [x] } s)

/-- A lost or refused packet goes out again under its PSN with RETX, on the next entropy other than the one it was lost on. -/
def resend (h psn : Nat) (s : State) : State :=
  let c := connD s h
  match c.flight.find? (fun x => x.pkt.psn == psn) with
  | none => s
  | some x =>
    let path := pickPath c (some x.pkt.path)
    let p := { x.pkt with flags := x.pkt.flags ||| 32, ts := nowTr s % 2 ^ 32, path := path }
    let y := { x with pkt := p, sentAt := nowTr s, lost := false, refused := false, wait := none,
                      tries := if x.refused then x.tries else x.tries + 1,
                      rto := if x.refused then x.rto else min c.rtoMax (2 * x.rto) }
    let s := setConn h { c with nextPath := (path + 1) % (pathsNow c + 1), retx := c.retx + 1,
                                refusedResends := if x.refused then c.refusedResends + 1 else c.refusedResends,
                                flight := updFirst (fun z => z.pkt.psn == psn) (fun _ => y) c.flight } s
    queuePacket h p (perfEvent blkTransport 0x101 1 (bumpTr 0x108 s))

/-- FLAGS of a packet of a message. -/
def pktFlags (first last persist sealed_ : Bool) : Nat := bit first * 128 + bit last * 64 + bit persist * 16 + bit sealed_ * 8

/-- The next packet of a request: the packet, and the request after it. -/
def nextPacket (c : Conn) (r : GrtReq) : GrtPkt × GrtReq :=
  let msn := r.msn.getD c.nextMsn
  let wr := r.wr
  if wr.opcode = 3 then
    ({ type := 3, flags := pktFlags true true false (wr.flags.testBit 4), ext := extRead msn wr.length wr.rkey wr.remoteOffset },
     { r with msn := some msn, sentAll := true })
  else
    let n := min (pmtuBytes c.pmtu) (wr.length - r.off)
    let last := decide (wr.length ≤ r.off + n)
    ({ type := wr.opcode, flags := pktFlags (r.off == 0) last (wr.flags.testBit 3) (wr.flags.testBit 4),
       ext := extWrite msn r.off wr.rkey wr.notify wr.remoteOffset, payload := (r.data.drop r.off).take n },
     { r with msn := some msn, off := r.off + n, sentAll := last })

/-- A request is not permitted on its connection (R543, R569, R597). -/
def notPermitted (s : State) (c : Conn) (wr : GrtWr) : Bool :=
  let sealed_ := wr.flags.testBit 4
  (c.roce && (wr.flags.testBit 3 || sealed_)) || (sealed_ && (c.version == 1 || !transportKey s c.owner))

/-- One packet is sent, where one may be: a lost packet, then a response, then the next request; none: nothing may be sent. -/
def sendOne (h : Nat) (s : State) : Option State :=
  let c := connD s h
  if c.state ≠ 1 ∨ !fnWorks s c.owner then none
  else match c.flight.find? (fun x => x.lost && !x.sacked) with
  | some x => if maySend s h x.pkt then some (resend h x.pkt.psn s) else none
  | none =>
    if sackWindow c ≤ c.flight.length then none
    else match c.resps with
    | r :: rest =>
      let n := min (pmtuBytes c.pmtu) (r.data.length - r.off)
      let last := decide (r.data.length ≤ r.off + n)
      let p : GrtPkt := { type := 4, flags := pktFlags (r.off == 0) last false r.sealed_, ext := extResp r.msn r.off,
                          payload := (r.data.drop r.off).take n }
      if maySend s h p then
        some (sendNew h r.msn p (setConn h { c with resps := if last then rest else { r with off := r.off + n } :: rest } s))
      else none
    | [] =>
      match c.reqs.zipIdx.find? (fun e => !e.1.sentAll && e.1.done.isNone) with
      | none => none
      | some (r, i) =>
        if r.wr.flags.testBit 1 ∧ i ≠ 0 ∧ r.off = 0 then none
        else if r.msn.isNone && notPermitted s c r.wr then
          some (drainAll h (setConn h { c with reqs := c.reqs.set i { r with done := some 0x0B, sentAll := true } } s))
        else if r.wr.opcode = 4 ∨ r.wr.opcode = 5 then
          (if i = 0 then some (drainAll h s) else none)
        else
          let q := nextPacket c r
          if maySend s h q.1 then
            some (sendNew h (q.2.msn.getD 0) q.1
              (setConn h { c with reqs := c.reqs.set i q.2, nextMsn := if r.msn.isNone then seqAdd c.nextMsn 1 else c.nextMsn } s))
          else none

/-- Everything that may be sent on a connection is sent. -/
def pump (h : Nat) : Nat → State → State
  | 0, s => s
  | fuel + 1, s =>
    match sendOne h s with
    | some s' => pump h fuel s'
    | none => s

/-- Packets that one command may send on a connection: a window, and requests that end without a packet. -/
def pumpConn (h : Nat) (s : State) : State := if egressPaused s then s else pump h (512 + (connD s h).reqs.length) s

/-- A request starts on its connection (R541, R543). -/
def startWr (w : Nat) (wr : GrtWr) (data : Option Bytes) (s : State) : State :=
  let fail := fun st => endReq w wr.conn wr st s
  if !(decide (1 ≤ wr.opcode ∧ wr.opcode ≤ 5)) then fail 1
  else match connOf s wr.conn with
    | none => fail 2
    | some c =>
      if c.wq ≠ w then fail 2
      else if isolated s blkTransport then fail 3
      else if (wr.ctrInc ≠ 0xFF ∧ 63 < wr.ctrInc) ∨ ((wr.opcode = 4 ∨ wr.flags.testBit 2) ∧ 63 < wr.trigCtr) then fail 2
      else if 67108864 < wr.length ∧ wr.opcode ≤ 3 then fail 3
      else if wr.opcode ≤ 2 ∧ data.isNone then fail 3
      else if c.state = 2 then fail 7
      else if 4 ≤ wr.opcode ∧ (!wr.flags.testBit 1 ∨ c.reqs = []) then runLocal w wr.conn wr s
      else
        let r : GrtReq := { wr := wr, data := ((data.getD []) ++ List.replicate wr.length 0).take (if wr.opcode ≤ 2 then wr.length else 0) }
        let s := if wr.flags.testBit 4 then cipherCheck c.owner wr.cipher s else s
        pumpConn wr.conn (setConn wr.conn { c with reqs := c.reqs ++ [r] } s)

/-- A request is fetched: it parks behind its threshold, or starts (R562). -/
def fetchWr (w : Nat) (wr : GrtWr) (data : Option Bytes) (s : State) : State :=
  match wqOf s w with
  | none => s
  | some q =>
    if wr.flags.testBit 2 ∧ wr.trigCtr < 64 ∧ lookD q.ctrs wr.trigCtr 0 < wr.threshold then
      (if 4096 ≤ q.parked.length then endReq w wr.conn wr 0x0A s else setWq w { q with parked := q.parked ++ [(wr, data)] } s)
    else startWr w wr data s

/-- Requests made visible are fetched in ring order while the function is served. -/
def fetchWq (w : Nat) : Nat → State → State
  | 0, s => s
  | fuel + 1, s =>
    match wqOf s w with
    | none => s
    | some q =>
      (match q.unread with
       | [] => s
       | (wr, d) :: rest => if fnServed s q.owner then fetchWq w fuel (fetchWr w wr d (setWq w { q with unread := rest } s)) else s)

/-! ### Tracking and release (R547 to R554) -/

/-- Bitmap pieces an entry has taken: one per 2,048 packet indices beyond the 64 held in place (R547). -/
def entryPieces (e : GrtEntry) : Nat := (((e.got.filter (fun i => decide (64 ≤ i))).map (fun i => (i - 64) / 2048)).eraseDups).length

def trackTotal : Nat := 524288 - 5243
def pieceTotal : Nat := 32768 - 328
def trackUsed (s : State) : Nat := (s.grt.conns.map (fun e => e.2.entries.length)).sum
def piecesUsed (s : State) : Nat := (s.grt.conns.map (fun e => (e.2.entries.map entryPieces).sum)).sum

/-- A message is complete: its LAST packet has arrived and every earlier one. -/
def entryComplete (e : GrtEntry) : Bool :=
  match e.count with
  | some n => (List.range n).all (fun i => e.got.contains i)
  | none => false

/-- A message is released in its turn (R552, R554, R568). -/
def releaseOne (h : Nat) (e : GrtEntry) (s : State) : State :=
  let c := connD s h
  let s := setConn h { c with cmsn := e.msn, entries := c.entries.filter (fun x => x.msn != e.msn) } s
  let post := fun st s => match e.notify with
    | some d => postGrt c.wq { tag := d, conn := h, length := e.length, status := st, receive := true } s
    | none => s
  if e.failed then (if e.authFail then post 8 s else s)
  else raiseCtr c.wq c.recvCtr 1 (post 0 s)

/-- Messages are released in MSN order while the next is complete or failed, and durable. -/
def releaseMsgs (h : Nat) : Nat → State → State
  | 0, s => s
  | fuel + 1, s =>
    let c := connD s h
    match c.entries.find? (fun e => e.msn == seqAdd c.cmsn 1) with
    | some e => if e.failed || (entryComplete e && e.waiting == 0) then releaseMsgs h fuel (releaseOne h e s) else s
    | none => s

def releaseAll (h : Nat) (s : State) : State := releaseMsgs h (connD s h).entries.length s

/-- A PSN has arrived: CUM_PSN moves over every PSN that has (R556). -/
def advanceCum : Nat → Conn → Conn
  | 0, c => c
  | fuel + 1, c =>
    let n := seqAdd c.cum 1
    if c.seen.contains n then advanceCum fuel { c with cum := n, seen := c.seen.filter (· != n) } else c

def markPsn (psn : Nat) (c : Conn) : Conn :=
  let c := { c with seen := if c.seen.contains psn then c.seen else c.seen ++ [psn] }
  advanceCum c.seen.length c

/-- A packet is a duplicate by its PSN, or lies beyond the SACK window (R549). -/
def psnOld (c : Conn) (psn : Nat) : Bool := !seqAfter psn c.cum || c.seen.contains psn
def psnBeyond (c : Conn) (psn : Nat) : Bool := decide (sackWindow c < seqDist psn c.cum)

/-- An arrival draws an ACK: at once for ACK_NOW or RETX and for every second data packet, otherwise within 2 µs (R556). -/
def noteArrival (h : Nat) (p : GrtPkt) (isData : Bool) (s : State) : State :=
  let c := connD s h
  let n := c.unacked + bit isData
  let s := setConn h { c with unacked := n, ackDue := true, newTs := p.ts, newPath := p.path } s
  let s := if p.roce ∧ p.ce then queuePacket h (control s c 9 0 []) s else s
  if fAckNow p || fRetx p || decide (2 ≤ n) then sendAck h s else s

/-! ### The ERROR state (R558) -/

/-- The legs of namespaces that lie behind a connection fail with it (R453). -/
def failRemote (h : Nat) (s : State) : State :=
  if s.sto.ns.any (fun e => e.2.legs.any (legBehind h)) then stoSettle (failLegsOf (legBehind h) s) else s

/-- A connection enters ERROR: the message concerned completes with one status and the rest with CONN_ERROR; its tracking entries are reclaimed. -/
def errorConn (h : Nat) (msn : Option Nat) (st : Nat) (s : State) : State :=
  let c := connD s h
  if c.state = 2 then s
  else
    let rs := c.reqs.map (fun r => if r.done.isSome then r
      else { r with sentAll := true, done := some (if r.msn.isSome && r.msn == msn then st else 7) })
    failRemote h (drainAll h (bumpTr 0x128 (setConn h { c with state := 2, reqs := rs, flight := [], resps := [], entries := [], seen := [],
                                                               ackDue := false, excluded := [] } s)))

/-! ### Destruction (R80, R415, R567) -/

/-- A connection's slot is free again; a work queue goes with its last connection. -/
def removeConn (h : Nat) (s : State) : State :=
  let c := connD s h
  let s := unstage 4 (2 * 2 ^ 40 + h) s
  let s := s.setPp { s.pp with shapers := del s.pp.shapers (2, h) }
  let s := s.setGrt { s.grt with conns := del s.grt.conns h,
                                 connReuse := put s.grt.connReuse (connSlot h) (max 1 ((h + 1) % 8192)) }
  if s.grt.conns.any (fun e => e.2.wq == c.wq) then s
  else match wqOf s c.wq with
    | some q =>
      let s := s.setPages (s.pages.filter (fun e => !(e.1 == q.owner && e.2 == q.page)))
      s.setGrt { s.grt with wqs := del s.grt.wqs c.wq }
    | none => s

/-- Packets of a connection leave its egress queue with it. -/
def dropConnFrames (h : Nat) (s : State) : State :=
  let c := connD s h
  updSub c.port (fun x => { x with queues := x.queues.map (fun q => q.filter (fun f => f.src != .grt h)) }) s

/-- A registration slot is free again with its next reuse count. -/
def removeMr (slot : Nat) (s : State) : State :=
  match look s.grt.mrs slot with
  | none => s
  | some m => s.setGrt { s.grt with mrs := del s.grt.mrs slot, mrReuse := put s.grt.mrReuse slot (max 1 ((m.handle + 1) % 4096)) }

/-- A change of a function's generation, whose unfinished work requests are discarded and counted (R42), destroys its connections and work queues and revokes its registrations (R415, R567). -/
def dropTransport (fid : Nat) (s : State) : State :=
  let hs := (s.grt.conns.filter (fun e => e.2.owner == fid)).map (·.1)
  let late := ((s.grt.conns.filter (fun e => e.2.owner == fid)).map (fun e => e.2.reqs.length)).sum
  let s := updFn fid (fun f => { f with lateDiscarded := (f.lateDiscarded + late) % 2 ^ 64 }) s
  let s := hs.foldl (fun s h => removeConn h (dropConnFrames h s)) s
  ((s.grt.mrs.filter (fun e => e.2.owner == fid)).map (·.1)).foldl (fun s m => removeMr m s) s

end Sys2Proof.Machine
end

