-- ==== Sys2Proof/Machine/NvmeCmds.lean ====
section
/-! DEFINITION. The commands of an NVM Express controller: doorbells and fetching, the admin and I/O commands, sanitize progress, power states and resets (R436 to R445, R465 to R475). -/

namespace Sys2Proof.Machine

open Sys2Proof

/-! ### Identify and logs (R439, R440) -/

/-- Controller Capabilities: MQES, CQR, TO in units of 500 ms, DSTRD and the NVM command set; no other arbitration than round robin. -/
def nvmeCap : Nat := 65535 + 2 ^ 16 + 20 * 2 ^ 24 + 2 ^ 37
def nvmeVs : Nat := 0x20000
/-- Controller Status: RDY follows CC.EN. -/
def nvmeCsts (s : State) (fn : Nat) : Nat := bit (ctrlOf s fn).enabled

def asciiBytes (t : String) : Bytes := t.toList.map (fun c => BitVec.ofNat 8 c.toNat)
def hexChar (n : Nat) : Nat := if n < 10 then 48 + n else 87 + n
/-- A 16-bit value as four hexadecimal digits. -/
def hex4 (n : Nat) : Bytes := [n / 4096 % 16, n / 256 % 16, n / 16 % 16, n % 16].map (fun d => BitVec.ofNat 8 (hexChar d))

/-- SUBNQN of a controller (R436). -/
def subNqn (fn : Nat) : Bytes := asciiBytes "nqn.2030-01.com.dythal:trelmir:" ++ Config.serial ++ hex4 fn

/-- A page whose fields the manual does not state are free, with the stated ones set. -/
def freePage4k (page draw size : Nat) (fields : List (Nat × Nat × Nat)) : Bytes :=
  fields.foldl (fun b f => setLe b f.1 f.2.1 f.2.2) ((List.range size).map (Config.nvmeByte page draw))

/-- The descriptor of a power state: maximum power in 10 mW, non-operational, entry and exit latency (R471). -/
def powerDesc (i mp nops enlat exlat : Nat) : List (Nat × Nat × Nat) :=
  [(2048 + 32 * i, 2, mp), (2048 + 32 * i + 3, 1, 2 * nops), (2048 + 32 * i + 4, 4, enlat), (2048 + 32 * i + 8, 4, exlat)]

def identifyController (fn draw : Nat) : Bytes :=
  let b := freePage4k 1 draw 4096
    ([(0, 2, 0x1F6D), (77, 1, 9), (78, 2, fn), (80, 4, 0x20000), (256, 2, 2), (263, 1, 4), (320, 2, 0), (328, 4, 7), (512, 1, 0x66),
      (513, 1, 0x44), (516, 4, 4096), (520, 2, 0x8D), (522, 2, 0), (525, 1, 0), (526, 2, 0), (528, 2, 0), (536, 4, 0)]
     ++ powerDesc 0 2500 0 0 0 ++ powerDesc 1 1200 0 10 10 ++ powerDesc 2 1200 0 10 10 ++ powerDesc 3 200 1 5000 5000
     ++ powerDesc 4 50 1 50000 100000)
  setBytes (setBytes b 4 (Config.serial.take 20)) 768 ((subNqn fn ++ List.replicate 256 0).take 256)

def identifyNs (x : Ns) (draw : Nat) : Bytes :=
  let aw := if x.atomic then 262144 / lbaBytes x - 1 else 0
  freePage4k 0 draw 4096
    [(0, 8, nsLbas x), (8, 8, nsLbas x), (25, 1, 1), (26, 1, x.lbaFormat), (27, 1, 0), (28, 1, 0), (29, 1, 0), (34, 2, aw), (36, 2, aw),
     (40, 2, 0), (44, 2, 0), (128, 2, 0), (130, 1, 9), (132, 2, 0), (134, 1, 12)]

/-- Ascending identifiers of at most 1,024 namespaces above a given one. -/
def nsList (s : State) (fn above : Nat) : Bytes :=
  sortBy (fun a b => decide (a ≤ b)) (((attachedTo s fn).map (·.1)).filter (fun n => decide (above < n)))
    |>.take 1024 |>.map (leBytes 4) |>.flatten

/-- Commands Supported and Effects: bit 0 of an entry marks a command the controller executes. -/
def effectsPage (draw : Nat) : Bytes :=
  let adm := [0, 1, 2, 4, 5, 6, 8, 9, 0xA, 0xC, 0x80, 0x84]
  let io := [0, 1, 2, 5, 8, 9, 0xC]
  (List.range 256).foldl (fun b o =>
      let b := if adm.contains o then b else setLe b (4 * o) 4 0
      if io.contains o then b else setLe b (1024 + 4 * o) 4 0)
    ((adm.map (4 * ·) ++ io.map (1024 + 4 * ·)).foldl
      (fun b p => setLe b p 1 (le b p 1 / 2 * 2 + 1)) ((List.range 4096).map (Config.nvmeByte 5 draw)))

/-- A log page (R440); none: it is not supported. -/
def logPage (s : State) (fn lid : Nat) : Option Bytes :=
  let c := ctrlOf s fn
  match lid with
  | 1 => some ((List.range 4096).map (Config.nvmeByte 0x101 s.draw))
  | 2 => some ((List.range 512).map (Config.nvmeByte 0x102 s.draw))
  | 4 => some (((c.changed.map (leBytes 4)).flatten ++ List.replicate 4096 0).take 4096)
  | 5 => some (effectsPage s.draw)
  | 0x81 =>
    let prog := match (attachedTo s fn).find? (fun e => sanActive e.2 && !e.2.san.format) with
      | some e => min 65534 (e.2.san.extent * 65536 / sanExtents e.2)
      | none => 65535
    some (layout 512 [(0, 2, prog), (2, 2, c.sanStatus)])
  | _ => none

/-- The bytes of a page that a command asks for. -/
def pagePart (page : Bytes) (off n : Nat) : Bytes := ((page.drop off) ++ List.replicate n 0).take n

/-! ### Queues (R442, R445) -/

/-- Queue pairs that the controller may hold. -/
def queueGrant (s : State) (fn : Nat) : Nat :=
  let a := (fnD s fn).allot.nvmeQps
  let q := (ctrlOf s fn).queues
  min 65535 (if q = 0 then a else min q a)

def createCq (fn : Nat) (c : NvmeCmd) (s : State) : State :=
  let k := ctrlOf s fn
  let qid := bits c.dw10 0 16; let size := bits c.dw10 16 16 + 1; let iv := bits c.dw11 16 16
  let st := if qid = 0 ∨ has k.cqs qid ∨ queueGrant s fn < qid then nvBadQid
    else if size < 2 then nvBadQSize
    else if !c.dw11.testBit 0 then nvBadField
    else if vectorCount fn ≤ iv then nvBadVector else nvOk
  nvmeDone fn 0 c.cid st 0 []
    (if st = nvOk then
      let q : NCq := { base := ((c.prp.head?).map (·.1)).getD 0, size := size, ien := c.dw11.testBit 1, vector := iv }
      setCtrl fn { k with cqs := put k.cqs qid q } s
     else s)

def createSq (fn : Nat) (c : NvmeCmd) (s : State) : State :=
  let k := ctrlOf s fn
  let qid := bits c.dw10 0 16; let size := bits c.dw10 16 16 + 1; let cq := bits c.dw11 16 16
  let st := if qid = 0 ∨ has k.sqs qid ∨ queueGrant s fn < qid then nvBadQid
    else if cq = 0 ∨ !has k.cqs cq then nvBadCq
    else if size < 2 then nvBadQSize
    else if !c.dw11.testBit 0 then nvBadField else nvOk
  nvmeDone fn 0 c.cid st 0 []
    (if st = nvOk then
      let q : NSq := { cq := cq, base := ((c.prp.head?).map (·.1)).getD 0, size := size }
      setCtrl fn { k with sqs := put k.sqs qid q } s
     else s)

/-- An operation has been issued to a leg or a journal (R474). -/
def opIssued (o : NvmeOp) : Bool := o.phase == .journal || o.phase == .place

def deleteSq (fn : Nat) (c : NvmeCmd) (s : State) : State :=
  let qid := bits c.dw10 0 16
  if qid = 0 ∨ !has (ctrlOf s fn).sqs qid then nvmeDone fn 0 c.cid nvBadQid 0 [] s
  else
    let mine := s.sto.ops.filter (fun o => o.fn == fn && o.sq == qid && o.resync.isNone)
    let s := mine.foldl (fun s o => if opIssued o then updOp o.id (fun o => { o with posted := true }) s else endOp o nvSqDeleted [] s) s
    nvmeDone fn 0 c.cid nvOk 0 [] (updCtrl fn (fun k => { k with sqs := del k.sqs qid }) s)

def deleteCq (fn : Nat) (c : NvmeCmd) (s : State) : State :=
  let k := ctrlOf s fn
  let qid := bits c.dw10 0 16
  if qid = 0 ∨ !has k.cqs qid then nvmeDone fn 0 c.cid nvBadQid 0 [] s
  else if k.sqs.any (fun e => e.2.cq == qid) then nvmeDone fn 0 c.cid nvBadDelete 0 [] s
  else nvmeDone fn 0 c.cid nvOk 0 [] (setCtrl fn { k with cqs := del k.cqs qid } s)

/-! ### Features (R437, R440, R443, R472) -/

/-- Sanitize or Format runs on a namespace of the controller. -/
def ctrlSanitizing (s : State) (fn : Nat) : Bool :=
  (attachedTo s fn).any (fun e => sanActive e.2) || (ctrlOf s fn).sanWait.isSome

/-- An entry to a non-operational state under way ends, reporting the state in force. -/
def supersedePs (fn : Nat) (s : State) : State :=
  let k := ctrlOf s fn
  match k.psEntry with
  | some e => nvmeDone fn 0 e.cid nvOk k.ps [] (setCtrl fn { k with psEntry := none } s)
  | none => s

/-- Power Management (R471 to R473). -/
def setPower (fn : Nat) (c : NvmeCmd) (s : State) : State :=
  let p := bits c.dw11 0 5
  if 4 < p then nvmeDone fn 0 c.cid nvBadField 0 [] s
  else if p ≤ 2 then
    let s := supersedePs fn s
    let t := if p = 2 then 1 else p
    nvmeDone fn 0 c.cid nvOk t [] (updCtrl fn (fun k => { k with ps := t, lastOp := t }) s)
  else if ctrlSanitizing s fn then
    let s := supersedePs fn s
    nvmeDone fn 0 c.cid nvOk (ctrlOf s fn).lastOp [] s
  else
    let s := supersedePs fn s
    let w := ctrlBusy s fn
    let s := if w then bump blkStorage 0x128 s else s
    updCtrl fn (fun k => { k with psEntry := some { cid := c.cid, target := p, waited := w } }) s

def setFeature (fn : Nat) (c : NvmeCmd) (s : State) : State :=
  let ok := fun (dw : Nat) (f : Nvme → Nvme) => nvmeDone fn 0 c.cid nvOk dw [] (updCtrl fn f s)
  match bits c.dw10 0 8 with
  | 1 => ok 0 (fun k => { k with arb := c.dw11 })
  | 2 => setPower fn c s
  | 7 =>
    let want := min (bits c.dw11 0 16) (bits c.dw11 16 16) + 1
    if bits c.dw11 0 16 = 65535 ∨ bits c.dw11 16 16 = 65535 then nvmeDone fn 0 c.cid nvBadField 0 [] s
    else
      let g := min want (fnD s fn).allot.nvmeQps
      ok ((g - 1) + (g - 1) * 65536) (fun k => { k with queues := g })
  | 8 => ok 0 (fun k => { k with coalesce := bits c.dw11 0 16 })
  | 9 =>
    let v := bits c.dw11 0 16
    if vectorCount fn ≤ v then nvmeDone fn 0 c.cid nvBadField 0 [] s
    else ok 0 (fun k => { k with noCoalesce := (k.noCoalesce.filter (· != v)) ++ (if c.dw11.testBit 16 then [v] else []) })
  | 0xA => ok 0 (fun k => { k with awn := c.dw11 % 2 })
  | 0xB => ok 0 (fun k => { k with asyncMask := c.dw11 })
  | _ => nvmeDone fn 0 c.cid nvBadField 0 [] s

def getFeature (fn : Nat) (c : NvmeCmd) (s : State) : State :=
  let k := ctrlOf s fn
  let g := queueGrant s fn - 1
  let v : Option Nat := match bits c.dw10 0 8 with
    | 1 => some k.arb
    | 2 => some k.ps
    | 7 => some (g + g * 65536)
    | 8 => some k.coalesce
    | 9 => some (bits c.dw11 0 16 + bit (k.noCoalesce.contains (bits c.dw11 0 16)) * 65536)
    | 0xA => some k.awn
    | 0xB => some k.asyncMask
    | _ => none
  match v with
  | some x => nvmeDone fn 0 c.cid nvOk x [] s
  | none => nvmeDone fn 0 c.cid nvBadField 0 [] s

/-! ### Other admin commands -/

def getLog (fn : Nat) (c : NvmeCmd) (s : State) : State :=
  let lid := bits c.dw10 0 8
  let n := (bits c.dw10 16 16 + bits c.dw11 0 16 * 65536 + 1) * 4
  match logPage s fn lid with
  | none => nvmeDone fn 0 c.cid nvBadLog 0 [] s
  | some p =>
    let keep := c.dw10.testBit 15
    let type := if lid = 1 then 0 else if lid = 2 then 1 else if lid = 4 then 2 else if lid = 0x81 then 6 else 7
    let s' := (if keep then s else updCtrl fn (fun k => { k with masked := k.masked.filter (· != type),
                                                                  changed := if lid = 4 then [] else k.changed }) s)
    nvmeDone fn 0 c.cid nvOk 0 (prpWrites c.prp (pagePart p (c.dw12 + c.dw13 * 2 ^ 32) n)) (drawn s')

def identify (fn : Nat) (c : NvmeCmd) (s : State) : State :=
  let give := fun (b : Bytes) => nvmeDone fn 0 c.cid nvOk 0 (prpWrites c.prp ((b ++ List.replicate 4096 0).take 4096)) (drawn s)
  match bits c.dw10 0 8 with
  | 0 =>
    (match nsOf s c.nsid with
     | some x => if x.attached.contains fn then give (identifyNs x s.draw) else give []
     | none => if 1 ≤ c.nsid ∧ c.nsid ≤ 4096 then give [] else nvmeDone fn 0 c.cid nvBadNs 0 [] s)
  | 1 => give (identifyController fn s.draw)
  | 2 => give (nsList s fn c.nsid)
  | 3 =>
    (match nsOf s c.nsid with
     | some x => if x.attached.contains fn then give ((List.range 4096).map (Config.nvmeByte 3 s.draw))
                 else nvmeDone fn 0 c.cid nvBadNs 0 [] s
     | none => nvmeDone fn 0 c.cid nvBadNs 0 [] s)
  | _ => nvmeDone fn 0 c.cid nvBadField 0 [] s

/-- Abort: a command that has not been issued, or an Asynchronous Event Request, is aborted; nothing else is. -/
def abortCmd (fn : Nat) (c : NvmeCmd) (s : State) : State :=
  let sq := bits c.dw10 0 16; let cid := bits c.dw10 16 16
  match s.sto.ops.find? (fun o => o.fn == fn && o.sq == sq && o.cmd.cid == cid && o.resync.isNone && !opIssued o) with
  | some o => nvmeDone fn 0 c.cid nvOk 0 [] (endOp o nvAborted [] s)
  | none =>
    if sq = 0 ∧ (ctrlOf s fn).aers.contains cid then
      nvmeDone fn 0 c.cid nvOk 0 [] (nvmeDone fn 0 cid nvAborted 0 []
        (updCtrl fn (fun k => { k with aers := k.aers.filter (· != cid) }) s))
    else nvmeDone fn 0 c.cid nvOk 1 [] s

def asyncRequest (fn : Nat) (c : NvmeCmd) (s : State) : State :=
  let k := ctrlOf s fn
  match k.events.find? (fun e => !k.masked.contains (e % 8)) with
  | some e => nvmeDone fn 0 c.cid nvOk e []
      (setCtrl fn { k with events := dropFirst (fun x => x == e) k.events, masked := k.masked ++ [e % 8] } s)
  | none => setCtrl fn { k with aers := k.aers ++ [c.cid] } s

/-- A Sanitize of one action (R466, R467). -/
def sanitize (act fn : Nat) (c : NvmeCmd) (s : State) : State :=
  let c := { c with dw10 := c.dw10 - bits c.dw10 0 3 + act, nsid := 0xFFFFFFFF }
  let mine := attachedTo s fn
  if mine.isEmpty then nvmeDone fn 0 c.cid nvOk 0 [] s
  else if ctrlSanitizing s fn then nvmeDone fn 0 c.cid nvSanitizing 0 [] s
  else if act = 1 then
    nvmeDone fn 0 c.cid nvOk 0 [] (mine.foldl (fun s e =>
      if e.2.san.state = 7 ∧ !e.2.san.format then setSan e.1 (fun x => { x with state := 0 }) s else s) s)
  else if ¬ (2 ≤ act ∧ act ≤ 4) ∨ (act = 4 ∧ mine.any (fun e => !e.2.encrypted)) then nvmeDone fn 0 c.cid nvBadField 0 [] s
  else updCtrl fn (fun k => { k with sanWait := some (0x84, c) }) s

/-- Format NVM (R469). -/
def formatNvm (fn : Nat) (c : NvmeCmd) (s : State) : State :=
  let ts := formatTargets s fn c.nsid
  let ses := bits c.dw10 9 3
  let running := ts.filterMap (fun n => if sanActive (nsD s n) then some (nsD s n).san.format else none)
  if ts.isEmpty ∧ c.nsid ≠ 0xFFFFFFFF then nvmeDone fn 0 c.cid nvBadNs 0 [] s
  else if ts.isEmpty then nvmeDone fn 0 c.cid nvOk 0 [] s
  else match running, (ctrlOf s fn).sanWait with
    | f :: _, _ => nvmeDone fn 0 c.cid (if f then nvFormatting else nvSanitizing) 0 [] s
    | [], some (o, _) => nvmeDone fn 0 c.cid (if o = 0x84 then nvSanitizing else nvFormatting) 0 [] s
    | [], none =>
      if 1 < bits c.dw10 0 4 then nvmeDone fn 0 c.cid nvBadFormat 0 [] s
      else if 2 < ses then nvmeDone fn 0 c.cid nvBadField 0 [] s
      else if ses = 2 ∧ ts.any (fun n => !(nsD s n).encrypted) then nvmeDone fn 0 c.cid nvBadFormat 0 [] s
      else updCtrl fn (fun k => { k with sanWait := some (0x80, c) }) s

/-- An admin command that has been fetched. -/
def adminCommand (fn op : Nat) (c : NvmeCmd) (s : State) : State :=
  match op with
  | 0 => deleteSq fn c s
  | 1 => createSq fn c s
  | 2 => getLog fn c s
  | 4 => deleteCq fn c s
  | 5 => createCq fn c s
  | 6 => identify fn c s
  | 8 => abortCmd fn c s
  | 9 => setFeature fn c s
  | 0xA => getFeature fn c s
  | 0xC => asyncRequest fn c s
  | 0x80 => formatNvm fn c s
  | 0x84 => sanitize (bits c.dw10 0 3) fn c s
  | _ => nvmeDone fn 0 c.cid nvBadOpcode 0 [] s

/-! ### Fetching (R442 to R444) -/

/-- The controller fetches. -/
def fetches (s : State) (fn : Nat) : Bool :=
  (ctrlOf s fn).enabled && running s && !s.tel.frozen && hostAwake s fn && (fnD s fn).st != .frozen && !(fnD s fn).crs

/-- One command of a submission queue is fetched, once an entry of its completion queue is reserved for it. -/
def fetchOne (fn sq : Nat) (s : State) : State :=
  let k := ctrlOf s fn
  match look k.sqs sq with
  | none => s
  | some q => match q.unread, look k.cqs q.cq with
    | (op, c, io) :: rest, some cq =>
      if cq.size ≤ cq.used + 1 then s
      else
        let s := setCtrl fn { k with
          sqs := put k.sqs sq { q with unread := rest, head := (q.head + 1) % q.size },
          cqs := put k.cqs q.cq { cq with used := cq.used + 1 },
          ps := if 3 ≤ k.ps then k.lastOp else k.ps } s
        let late := match k.psEntry with | some e => !e.waited | none => false
        let s := if late then bump blkStorage 0x128 (updCtrl fn (fun k =>
          { k with psEntry := k.psEntry.map (fun e => { e with waited := true }) }) s) else s
        if isolated s blkStorage then nvmeDone fn sq c.cid nvInternal 0 [] s
        else stoSettle (if sq = 0 then adminCommand fn op c s else ioCommand fn sq op c io s)
    | _, _ => s

def fetchMany (fn sq : Nat) : Nat → State → State
  | 0, s => s
  | n + 1, s => fetchMany fn sq n (fetchOne fn sq s)

/-- The submission queue whose turn is next: the first with commands and room after the one served last. -/
def nextSq (k : Nvme) : Option Nat :=
  let ready := sortBy (fun a b => decide (a ≤ b)) ((k.sqs.filter (fun e => !e.2.unread.isEmpty
    && (match look k.cqs e.2.cq with | some c => decide (c.used + 1 < c.size) | none => false))).map (·.1))
  (ready.find? (fun q => decide (k.turn < q))).orElse (fun _ => ready.head?)

/-- Submission queues are served in turn, each with its burst (R443). -/
def fetchTurns (fn : Nat) : Nat → State → State
  | 0, s => s
  | fuel + 1, s =>
    let k := ctrlOf s fn
    match nextSq k with
    | none => s
    | some q =>
      let ab := bits k.arb 0 3
      let n := ((look k.sqs q).map (fun x => x.unread.length)).getD 0
      fetchTurns fn fuel (fetchMany fn q (if ab = 7 then n else 2 ^ ab) (setCtrl fn { k with turn := q } s))

def fetchNvme (fn : Nat) (s : State) : State :=
  if fetches s fn then fetchTurns fn (((ctrlOf s fn).sqs.map (fun e => e.2.unread.length)).sum) s else s

/-- An invalid doorbell write is counted and, of an enabled controller, raises its asynchronous event (R444). -/
def badDoorbell (fn info : Nat) (s : State) : State :=
  let s := bump blkStorage 0x124 s
  if (ctrlOf s fn).enabled then asyncEvent fn 0 info 1 s else s

/-- Entries of a submission queue become visible with a new tail. -/
def ringSq (fn sq tail : Nat) (es : List (Nat × NvmeCmd × NvmeIo)) (s : State) : State :=
  let k := ctrlOf s fn
  if !isController s fn || !functionServed s fn || !hostAwake s fn then s
  else match look k.sqs sq with
    | none => badDoorbell fn 0 s
    | some q =>
      if q.size ≤ tail then badDoorbell fn 1 s
      else
        let n := (tail + q.size - q.tail) % q.size
        stoSettle (fetchNvme fn (setCtrl fn { k with sqs := put k.sqs sq { q with tail := tail, unread := q.unread ++ es.take n } } s))

/-- The bytes of the new entries are read in little-endian order (R9). -/
def execNvmeSqDoorbell (fn sq tail : Nat) (entries : List NvmeSlot) (s : State) : Host.Outcome State Fault Refusal :=
  .next (thawed s <| ringSq fn sq tail (entries.map nvmeSlot) s)

/-- One command is placed in a submission queue and its doorbell is written. -/
def nvmeSubmit (fn sq op : Nat) (c : NvmeCmd) (io : NvmeIo) (s : State) : State :=
  match look (ctrlOf s fn).sqs sq with
  | some q => ringSq fn sq ((q.tail + 1) % q.size) [(op, c, io)] s
  | none => ringSq fn sq 0 [] s

/-- A completion queue head doorbell. -/
def execNvmeCqDoorbell (fn cq head : Nat) (s : State) : Host.Outcome State Fault Refusal :=
  let k := ctrlOf s fn
  .next (thawed s <| if !isController s fn || !functionServed s fn || !hostAwake s fn then s
    else match look k.cqs cq with
      | none => badDoorbell fn 0 s
      | some q =>
        let freed := (head + q.size - q.head) % q.size
        if q.size ≤ head ∨ (q.prod + q.size - q.head) % q.size < freed then badDoorbell fn 1 s
        else stoSettle (fetchNvme fn (setCtrl fn { k with cqs := put k.cqs cq { q with head := head, used := q.used - freed } } s)))

def execInterruptCoalescingExpiry (fn vector : Nat) (s : State) : Host.Outcome State Fault Refusal :=
  .next (thawed s <| if has (ctrlOf s fn).coalesced vector then
           raiseMsix fn vector (updCtrl fn (fun k => { k with coalesced := del k.coalesced vector }) s)
         else s)

/-! ### The commands (R440) -/

def execDeleteIoSq (fn : Nat) (cmd : NvmeCmd) (s : State) : Host.Outcome State Fault Refusal := .next (thawed s <| nvmeSubmit fn 0 0x00 cmd {} s)
def execDeleteIoCq (fn : Nat) (cmd : NvmeCmd) (s : State) : Host.Outcome State Fault Refusal := .next (thawed s <| nvmeSubmit fn 0 0x04 cmd {} s)
def execCreateIoSq (fn : Nat) (cmd : NvmeCmd) (s : State) : Host.Outcome State Fault Refusal := .next (thawed s <| nvmeSubmit fn 0 0x01 cmd {} s)
def execCreateIoCq (fn : Nat) (cmd : NvmeCmd) (s : State) : Host.Outcome State Fault Refusal := .next (thawed s <| nvmeSubmit fn 0 0x05 cmd {} s)
def execGetLogPage (fn : Nat) (cmd : NvmeCmd) (s : State) : Host.Outcome State Fault Refusal := .next (thawed s <| nvmeSubmit fn 0 0x02 cmd {} s)
def execIdentify (fn : Nat) (cmd : NvmeCmd) (s : State) : Host.Outcome State Fault Refusal := .next (thawed s <| nvmeSubmit fn 0 0x06 cmd {} s)
def execAbort (fn : Nat) (cmd : NvmeCmd) (s : State) : Host.Outcome State Fault Refusal := .next (thawed s <| nvmeSubmit fn 0 0x08 cmd {} s)
def execSetFeatures (fn : Nat) (cmd : NvmeCmd) (s : State) : Host.Outcome State Fault Refusal := .next (thawed s <| nvmeSubmit fn 0 0x09 cmd {} s)
/-- Set Features with the feature identifier 0x02. -/
def execSetFeaturesPowerManagement (fn : Nat) (cmd : NvmeCmd) (s : State) : Host.Outcome State Fault Refusal :=
  .next (thawed s <| nvmeSubmit fn 0 0x09 { cmd with dw10 := cmd.dw10 - bits cmd.dw10 0 8 + 2 } {} s)
def execGetFeatures (fn : Nat) (cmd : NvmeCmd) (s : State) : Host.Outcome State Fault Refusal := .next (thawed s <| nvmeSubmit fn 0 0x0A cmd {} s)
def execAsynchronousEventRequest (fn : Nat) (cmd : NvmeCmd) (s : State) : Host.Outcome State Fault Refusal :=
  .next (thawed s <| nvmeSubmit fn 0 0x0C cmd {} s)
def execFormatNvm (fn : Nat) (cmd : NvmeCmd) (s : State) : Host.Outcome State Fault Refusal := .next (thawed s <| nvmeSubmit fn 0 0x80 cmd {} s)
/-- A Sanitize command with its action. -/
def withAction (c : NvmeCmd) (a : Nat) : NvmeCmd := { c with dw10 := c.dw10 - bits c.dw10 0 3 + a }
def execSanitizeExitFailure (fn : Nat) (cmd : NvmeCmd) (s : State) : Host.Outcome State Fault Refusal :=
  .next (thawed s <| nvmeSubmit fn 0 0x84 (withAction cmd 1) {} s)
def execSanitizeBlockErase (fn : Nat) (cmd : NvmeCmd) (s : State) : Host.Outcome State Fault Refusal :=
  .next (thawed s <| nvmeSubmit fn 0 0x84 (withAction cmd 2) {} s)
def execSanitizeOverwrite (fn : Nat) (cmd : NvmeCmd) (s : State) : Host.Outcome State Fault Refusal :=
  .next (thawed s <| nvmeSubmit fn 0 0x84 (withAction cmd 3) {} s)
def execSanitizeCryptoErase (fn : Nat) (cmd : NvmeCmd) (s : State) : Host.Outcome State Fault Refusal :=
  .next (thawed s <| nvmeSubmit fn 0 0x84 (withAction cmd 4) {} s)

/-- An I/O command goes to an I/O queue: queue 0 is the admin queue. -/
def ioSubmit (fn sq op : Nat) (c : NvmeCmd) (io : NvmeIo) (s : State) : State := if sq = 0 then s else nvmeSubmit fn sq op c io s

def execFlushNvm (fn sq : Nat) (cmd : NvmeCmd) (s : State) : Host.Outcome State Fault Refusal := .next (thawed s <| ioSubmit fn sq 0x00 cmd {} s)
def execNvmeWrite (fn sq : Nat) (cmd : NvmeCmd) (io : NvmeIo) (s : State) : Host.Outcome State Fault Refusal :=
  .next (thawed s <| ioSubmit fn sq 0x01 cmd io s)
def execNvmeRead (fn sq : Nat) (cmd : NvmeCmd) (io : NvmeIo) (s : State) : Host.Outcome State Fault Refusal :=
  .next (thawed s <| ioSubmit fn sq 0x02 cmd io s)
def execCompare (fn sq : Nat) (cmd : NvmeCmd) (io : NvmeIo) (s : State) : Host.Outcome State Fault Refusal :=
  .next (thawed s <| ioSubmit fn sq 0x05 cmd io s)
def execWriteZeroes (fn sq : Nat) (cmd : NvmeCmd) (io : NvmeIo) (s : State) : Host.Outcome State Fault Refusal :=
  .next (thawed s <| ioSubmit fn sq 0x08 cmd io s)
def execDatasetManagement (fn sq : Nat) (cmd : NvmeCmd) (io : NvmeIo) (s : State) : Host.Outcome State Fault Refusal :=
  .next (thawed s <| ioSubmit fn sq 0x09 cmd io s)
def execVerify (fn sq : Nat) (cmd : NvmeCmd) (io : NvmeIo) (s : State) : Host.Outcome State Fault Refusal :=
  .next (thawed s <| ioSubmit fn sq 0x0C cmd io s)

/-! ### Locks and journals (R459, R462) -/

/-- A command waiting at the lock table starts, where no earlier entry conflicts with it. -/
def execRangeLockGrant (op : Nat) (s : State) : Host.Outcome State Fault Refusal :=
  .next (thawed s <| match s.sto.ops.find? (fun o => o.id == op) with
    | some o => stoSettle (tryStart o (1 + o.ranges.length) s)
    | none => s)

/-- Both copies of an atomic write's record are durable: its completion is posted. -/
def execJournalDurable (op : Nat) (s : State) : Host.Outcome State Fault Refusal :=
  .next (thawed s <| match s.sto.ops.find? (fun o => o.id == op && o.phase == .journal) with
    | some o =>
      let x := nsD s o.cmd.nsid
      if journalsLost x then stoSettle (endOp o nvProtected [] s)
      else
        let s := setNs o.cmd.nsid { x with journal := x.journal.map (fun r => if r.op = op then { r with durable := true } else r) } s
        stoSettle (postOp o nvOk [] (updOp op (fun o => { o with phase := .place, posted := true }) s))
    | none => s)

/-- Every leg holds an atomic write's data: its lock is released and its record retired. Where no leg remains, both stay until one returns. -/
def execInPlaceWriteDone (op : Nat) (writeFail : List Nat) (s : State) : Host.Outcome State Fault Refusal :=
  .next (thawed s <| match s.sto.ops.find? (fun o => o.id == op && o.phase == .place) with
    | some o =>
      let x := nsD s o.cmd.nsid
      let off := o.first * lbaBytes x
      let s := match x.journal.find? (fun r => r.op == op) with
        | some r => rawLegs o.cmd.nsid off r.data writeFail s
        | none => writeLegs o.cmd.nsid off (opBytes x o) writeFail s
      stoSettle (if !hasLeg (nsD s o.cmd.nsid) then s else dropOp op (updNs o.cmd.nsid (fun x => { x with journal := x.journal.filter (fun r => r.op != op) }) s))
    | none => s)

/-! ### Sanitize progress (R465, R466, R468) -/

/-- An action has ended on every extent: the namespace is deallocated; a Format writes its metadata next. -/
def sanDone (n : Nat) (s : State) : State :=
  let s := updNs n (fun x => if x.san.action = 0 then x
    else { x with legs := x.legs.map (fun l => { l with cells := [], fills := [] }), mapped := [] }) s
  if (nsD s n).san.format then setSan n (fun x => { x with state := 5 }) s
  else
    let s := setSan n (fun x => { x with state := 6 }) s
    let fn := (nsD s n).san.fn
    if (attachedTo s fn).any (fun e => sanActive e.2) then s
    else asyncEvent fn 6 1 0x81 (updCtrl fn (fun k => { k with sanStatus := if k.sanStatus = 2 then 1 else k.sanStatus }) s)

/-- A Format command completes when no namespace of it is still being formatted. -/
def formatDone (n : Nat) (s : State) : State :=
  let x := (nsD s n).san
  if s.sto.ns.any (fun e => e.2.san.format && sanActive e.2 && e.2.san.fn == x.fn && e.2.san.cid == x.cid) then s
  else nvmeDone x.fn 0 x.cid (if s.sto.ns.any (fun e => e.2.san.format && e.2.san.state == 7 && e.2.san.fn == x.fn
    && e.2.san.cid == x.cid) then nvInternal else nvOk) 0 [] s

/-- An extent could not be erased. -/
def sanFailed (n : Nat) (s : State) : State :=
  let s := setSan n (fun x => { x with state := 7 }) s
  let x := (nsD s n).san
  if x.format then formatDone n s else updCtrl x.fn (fun k => { k with sanStatus := 3 }) s

/-- A crypto erase installs a new key, generated in the vault. -/
def newNsKey (n : Nat) (s : State) : State :=
  let h := (nsD s n).key
  match keyOf s h with
  | some k => drawn (s.setSec { s.sec with keys := put s.sec.keys h { k with material := some (Config.freeNat s.draw) } })
  | none => s

/-- A namespace takes its new LBA format: what of it held ciphertext still does, in blocks of the new size. -/
def withFormat (lbaf : Nat) (x : Ns) : Ns :=
  let y := { x with lbaFormat := lbaf }
  let k := lbaBytes x / lbaBytes y
  { y with mapped := joinNew [] ((x.mapped.map (fun m => (List.range (max 1 k)).map (m * lbaBytes x / lbaBytes y + ·))).flatten) }

/-- An extent or pass of Sanitize or Format completes, or fails. -/
def execSanitizeProgress (nsid : Nat) (ok : Bool) (s : State) : Host.Outcome State Fault Refusal :=
  let x := nsD s nsid
  let last := decide (sanExtents x ≤ x.san.extent + 1)
  let go := fun (f : Sanitize → Sanitize) => setSan nsid f s
  .next (thawed s <| if !sanActive x then s
    else stoSettle (match x.san.state with
      | 1 =>
        (match x.san.action with
         | 2 => go (fun x => { x with state := 3, extent := 0 })
         | 3 => go (fun x => { x with state := 4, extent := 0, pass := 1 })
         | 4 => (setSan nsid (fun x => { x with state := 2 }) (clearKey x.key s))
         | _ => go (fun x => { x with state := 5 }))
      | 2 => if s.sec.alarm = 0 ∧ keyedAllowed s ∧ !x.san.held then sanDone nsid (newNsKey nsid s) else s
      | 3 =>
        if !ok then sanFailed nsid s
        else
          let s := setNs nsid (fillNs x x.san.extent 0) s
          if last then sanDone nsid s else setSan nsid (fun x => { x with extent := x.extent + 1 }) s
      | 4 =>
        if !ok then sanFailed nsid s
        else
          let s := setNs nsid (fillNs x x.san.extent (passPattern x.san)) s
          if !last then setSan nsid (fun x => { x with extent := x.extent + 1 }) s
          else if x.san.passes ≤ x.san.pass then sanDone nsid s
          else setSan nsid (fun x => { x with extent := 0, pass := x.pass + 1 }) s
      | _ =>
        if !ok then sanFailed nsid s
        else formatDone nsid (setSan nsid (fun x => { x with state := 6 }) (updNs nsid (fun x => withFormat x.san.lbaf x) s))))

/-! ### Power states (R472) -/

/-- No command of the controller has been in progress for 1 ms: it enters the target state. -/
def execPowerStateIdle (fn : Nat) (s : State) : Host.Outcome State Fault Refusal :=
  .next (thawed s <| match (ctrlOf s fn).psEntry with
    | some e => if ctrlBusy s fn then s
        else nvmeDone fn 0 e.cid nvOk e.target [] (updCtrl fn (fun k => { k with ps := e.target, psEntry := none }) s)
    | none => s)

/-- Step 3 was not reached within 1 s: the entry is abandoned. -/
def execPowerStateAbandon (fn : Nat) (s : State) : Host.Outcome State Fault Refusal :=
  .next (thawed s <| match (ctrlOf s fn).psEntry with
    | some e => nvmeDone fn 0 e.cid nvOk (ctrlOf s fn).ps [] (bump blkStorage 0x12C (updCtrl fn (fun k => { k with psEntry := none }) s))
    | none => s)

/-! ### Resets (R474, R475) -/

/-- Commands of a controller that were not issued are dropped; those issued run on, their completions to be discarded; its queues go. -/
def nvmeReset (fn : Nat) (s : State) : State :=
  let kept := s.sto.ops.filter (fun o => !(o.fn == fn && o.resync.isNone && !opIssued o))
  let ops := kept.map (fun o => if o.fn = fn ∧ o.resync.isNone then { o with posted := true } else o)
  let ns := s.sto.ns.map (fun e =>
    (e.1, if e.2.san.format ∧ e.2.san.fn = fn then { e.2 with san := { e.2.san with fn := 0xFFFF } } else e.2))
  let s := s.setSto { s.sto with ops := ops, ns := ns }
  stoSettle (setCtrl fn { sanStatus := (ctrlOf s fn).sanStatus } s)

/-- CC.EN changes: the controller is reset, and takes its admin queues where it is enabled. -/
def execControllerReset (fn : Nat) (enable : Bool) (asq asqSize acq acqSize : Nat) (s : State) : Host.Outcome State Fault Refusal :=
  .next (if !isController s fn || !hostAwake s fn then s
    else
      let s := nvmeReset fn s
      let sq : NSq := { cq := 0, base := asq, size := clampN 2 4096 asqSize }
      let cq : NCq := { base := acq, size := clampN 2 4096 acqSize, ien := true }
      if enable then updCtrl fn (fun k => { k with enabled := true, sqs := [(0, sq)], cqs := [(0, cq)] }) s else s)

end Sys2Proof.Machine
end

