-- ==== Sys2Proof/Machine/StorageCmds.lean ====
section
/-! DEFINITION. Namespaces: the ICP namespace opcodes, failing and returning legs and journals, resync, and the replay of journals at a start (R446 to R464, R470). -/

namespace Sys2Proof.Machine

open Sys2Proof

def dtNsAttached : Nat := 0x0140
def dtNsCourse : Nat := 0x0141
def dtJournalSsd : Nat := 0x0142
def dtLegOverlap : Nat := 0x0143

/-- A course policy names the namespace. -/
def courseDest (s : State) (n : Nat) : Bool := s.course.policy.dests.any (fun d => d.type == 1 && d.id == n)

/-! ### Legs of a request (R447, R449) -/

/-- The leg that a leg entry at an offset asks for. -/
def legAt (c : Ctx) (off : Nat) : Leg :=
  if c.p off 1 = 2 then { kind := 2, conn := c.p (off + 4) 4, offset := c.p (off + 8) 8 }
  else { kind := c.p off 1, ssds := (List.range 128).filter (fun i => (c.p (off + 8) 16).testBit i) }

/-- Checks of one leg entry. -/
def legChecks (s : State) (off : Nat) (l : Leg) : List (Bool × Nat × Nat) :=
  [(!(l.kind == 1 || l.kind == 2), stNotPermitted, dtField off),
   (l.kind == 1 && l.ssds.any (fun i => !ssdPresent s i), stBadHandle, dtField (off + 8)),
   (l.kind == 2 && !has s.grt.conns l.conn, stBadHandle, dtField (off + 4)),
   (l.kind == 2 && l.offset % 4096 != 0, stBadAddress, dtField (off + 8))]

/-- A local leg names no SSD. -/
def legEmpty (l : Leg) : Bool := l.kind == 1 && l.ssds.isEmpty

/-- The most bytes a leg can hold: equal extents of each of its SSDs, or the rest of the target's region. -/
def legLimit (s : State) (l : Leg) : Nat :=
  if l.kind = 2 then Config.remoteBytes l.conn - l.offset
  else l.ssds.length * 2 ^ 30 *
    ((l.ssds.map (fun i => if ssdReady s i then ssdFree s i else 0)).foldl min ((l.ssds.head?.map (ssdFree s)).getD 0))

/-- Size granularity of a leg. -/
def legUnit (l : Leg) : Nat := if l.kind = 1 then max 1 l.ssds.length * 2 ^ 30 else 1

/-- The lowest extents of an SSD that nothing holds, above the metadata area. -/
def lowExtents (s : State) (ssd n : Nat) : List (Nat × Nat) :=
  let used := ssdExtents s ssd
  (((List.range (used.length + n)).map (· + 1)).filter (fun e => !used.contains e)).take n |>.map (fun e => (ssd, e))

/-- A leg takes its extents for a size. -/
def takeLeg (s : State) (bytes : Nat) (l : Leg) : Leg :=
  if l.kind = 1 then
    { l with extents := (l.ssds.map (fun i => lowExtents s i (ceilDiv bytes (max 1 l.ssds.length * 2 ^ 30)))).flatten }
  else l

/-- The extents of a local leg fit on its SSDs. -/
def legFits (s : State) (bytes : Nat) (l : Leg) : Bool := legEmpty l || decide (bytes ≤ legLimit s l)

/-! ### NS_CREATE (R447 to R449) -/

/-- The namespace that a parameter block asks for, every field in effect, without its extents. -/
def askedNs (c : Ctx) (s : State) : Ns :=
  let legs := (List.range (clampN 1 2 (c.p 0xA 1))).map (fun i => legAt c (0x20 + 24 * i))
  let unit := legs.foldl (fun u l => Nat.lcm u (legUnit l)) 1
  let limit := (legs.map (legLimit s)).foldl min (((legs.head?).map (legLimit s)).getD 0) / unit * unit
  let atomic := (c.p 9 1).testBit 0
  let encrypted := (c.p 9 1).testBit 1
  { bytes := roundUp unit (clampN (2 ^ 30) limit (c.p 0 8)), lbaFormat := c.p 8 1, atomic := atomic, encrypted := encrypted,
    stripe := if c.p 0xB 1 = 0 then 17 else clampN 16 20 (c.p 0xB 1), key := if encrypted then c.p 0xC 4 else 0,
    journalA := if atomic then c.p 0x10 2 else 0xFFFF, journalB := if atomic then c.p 0x12 2 else 0xFFFF,
    journalMib := if atomic then clampN 256 65536 (c.p 0x14 4) else c.p 0x14 4, legs := legs }

def nsCreateChecks (c : Ctx) (s : State) (x : Ns) : List (Bool × Nat × Nat) :=
  [(decide (1 < c.p 8 1), stNotPermitted, dtNone),
   (x.encrypted && ((keyOf s x.key).map (·.kind)) != some 1, stBadHandle, dtNone),
   (x.atomic && !(ssdPresent s x.journalA && ssdPresent s x.journalB), stBadHandle, dtNone),
   (x.atomic && x.journalA == x.journalB, stBadHandle, dtJournalSsd)]
  ++ ((x.legs.zipIdx.map (fun e => legChecks s (0x20 + 24 * e.2) e.1)).flatten.map (fun k => (k.1, k.2.1, dtNone)))

/-- An empty SSD mask, or two legs that share an SSD. -/
def legsOverlap (x : Ns) : Bool :=
  x.legs.any legEmpty
    || (match x.legs with | [a, b] => a.kind == 1 && b.kind == 1 && a.ssds.any (fun i => b.ssds.contains i) | _ => false)

/-- Journal regions fit beside the legs. -/
def journalsFit (s : State) (x : Ns) : Bool :=
  !x.atomic || [x.journalA, x.journalB].all (fun i =>
    ssdReady s i && decide (journalExtents x + (x.legs.map (fun l => (l.extents.filter (fun e => e.1 == i)).length)).sum ≤ ssdFree s i))

/-- NS_CREATE. -/
def hNsCreate : Handler := fun c s =>
  let x := askedNs c s
  checked s (nsCreateChecks c s x) <| roomThen s [(legsOverlap x, stConflict, dtLegOverlap)]
    (let x := { x with legs := x.legs.map (takeLeg s x.bytes) }
     match lowest 4096 (fun i => !has s.sto.ns (i + 1)) with
     | none => Res.rej s stNoResource dtNone
     | some i =>
       if !x.legs.all (legFits s x.bytes) || !journalsFit s x then Res.rej s stNoResource dtNone
       else
         Res.ok (setNs (i + 1) x s)
           (c.differs [(0, 8, x.bytes), (0xA, 1, x.legs.length), (0xB, 1, x.stripe), (0x14, 4, x.journalMib)])
           (layout 64 [(0, 4, i + 1), (8, 8, x.bytes), (0x10, 8, nsLbas x), (0x18, 1, x.legs.length), (0x19, 1, x.stripe),
             (0x1C, 4, if x.atomic then x.journalMib else 0)]))

/-! ### The other namespace opcodes (R450) -/

/-- NS_DELETE: the extents go back; an encrypted namespace's key is erased (R451). -/
def hNsDelete : Handler := fun c s =>
  let n := c.p 0 4
  match nsOf s n with
  | none => Res.rej s stBadHandle (dtField 0)
  | some x =>
    if sanActive x then Res.rej s stBusy dtSanActive
    else if !x.attached.isEmpty then Res.rej s stConflict dtNsAttached
    else if courseDest s n then Res.rej s stConflict dtNsCourse
    else
      let s := dropOps n (s.setSto { s.sto with ns := del s.sto.ns n })
      let s := if x.encrypted then clearKey x.key s else s
      Res.ok (stoSettle s) false (layout 8 [(0, 4, n)])

/-- NS_ATTACH. -/
def hNsAttach : Handler := fun c s =>
  let n := c.p 0 4; let fn := c.p 4 2
  match nsOf s n with
  | none => Res.rej s stBadHandle (dtField 0)
  | some x =>
    checked s [(!isController s fn, stBadHandle, dtField 4), (!x.attached.isEmpty, stConflict, dtNsAttached),
               (courseDest s n, stConflict, dtNsCourse)]
      (Res.ok (nsChanged fn n (setNs n { x with attached := [fn] } s)) false (layout 8 [(0, 4, n), (4, 2, fn)]))

/-- NS_DETACH: intake stops, and the reply follows the commands in progress. -/
def hNsDetach : Handler := fun c s =>
  let n := c.p 0 4; let fn := c.p 4 2
  match nsOf s n with
  | none => Res.rej s stBadHandle (dtField 0)
  | some x =>
    checked s [(!x.attached.contains fn, stBadHandle, dtField 4), (sanActive x, stBusy, dtSanActive)]
      (if s.sto.ops.any (fun o => o.cmd.nsid == n && o.fn == fn && o.resync.isNone) then .later (addWait c .detach n fn s) dtNone (layout 8 [(0, 4, n), (4, 2, fn)])
       else Res.ok (nsChanged fn n (setNs n { x with attached := [] } s)) false (layout 8 [(0, 4, n), (4, 2, fn)]))

/-- A leg entry as NS_CREATE takes it. -/
def legBytes (l : Leg) : Bytes :=
  if l.kind = 2 then layout 24 [(0, 1, 2), (4, 4, l.conn), (8, 8, l.offset)]
  else layout 24 [(0, 1, 1), (8, 16, (l.ssds.map (2 ^ ·)).sum)]

/-- The NS_CREATE block in effect. -/
def nsBlock (x : Ns) : Bytes :=
  let b := layout 128 [(0, 8, x.bytes), (8, 1, x.lbaFormat), (9, 1, bit x.atomic + 2 * bit x.encrypted), (0xA, 1, x.legs.length),
    (0xB, 1, x.stripe), (0xC, 4, x.key), (0x10, 2, if x.atomic then x.journalA else 0), (0x12, 2, if x.atomic then x.journalB else 0),
    (0x14, 4, if x.atomic then x.journalMib else 0)]
  x.legs.zipIdx.foldl (fun b e => setBytes b (0x20 + 24 * e.2) (legBytes e.1)) b

/-- State of a leg; 0xFF where there is none (log 54). -/
def legState (x : Ns) (i : Nat) : Nat := match x.legs[i]? with | some l => l.state | none => 0xFF

/-- NS_QUERY: the manual gives the fields after the block no offsets (log 54). -/
def hNsQuery : Handler := fun c s =>
  match nsOf s (c.p 0 4) with
  | none => Res.rej s stBadHandle (dtField 0)
  | some x =>
    if !c.iss.priv && !x.attached.contains c.iss.fid then Res.rej s stBadHandle (dtField 0)
    else
      let copied := (x.legs.map (fun l => if l.state = 1 then l.copied else 0)).sum
      Res.ok s false (nsBlock x ++ layout 128 [(0, 2, (x.attached.head?).getD 0xFFFF), (2, 1, legState x 0), (3, 1, legState x 1),
        (8, 8, copied), (0x10, 4, x.journal.length), (0x14, 1, x.san.state)])

/-- SSD_LIST: the manual gives the fields of an entry no offsets (log 54). -/
def hSsdList : Handler := fun c s =>
  let es := ((List.range 80).filter (fun i => decide (c.p 0 4 ≤ i))).map (fun i =>
    let st := if !ssdPresent s i then 2 else if s.sto.failedSsds.contains i then 1 else 0
    if st = 2 then layout 32 [(0, 2, i), (2, 1, 2)]
    else layout 32 [(0, 2, i), (2, 1, st), (3, 1, bit (Config.ssdVolatile i)), (4, 4, Config.ssdGib i), (8, 4, ssdFree s i),
      (0xC, 2, Config.ssdAwupf i)])
  Res.ok s false (layout 16 [(0, 4, es.length)] ++ es.flatten)

/-- The reply of NS_MIRROR_SET: NSID, each leg's state and the bytes left to resync (log 54). -/
def mirrorReply (s : State) (n : Nat) : Bytes :=
  let x := nsD s n
  layout 32 [(0, 4, n), (4, 1, legState x 0), (5, 1, legState x 1),
    (8, 8, (x.legs.map (fun l => if l.state = 1 then x.bytes - l.copied else 0)).sum)]

/-- A leg begins to resync, from its first piece: one of an earlier resync of it that still waits is dropped. -/
def beginResync (n i : Nat) (s : State) : State :=
  updLeg n i (fun l => { l with state := 1, copied := 0, stale := true })
    (s.setSto { s.sto with ops := s.sto.ops.filter (fun o => !(o.cmd.nsid == n && o.resync == some i)) })

/-- NS_MIRROR_SET. -/
def hNsMirrorSet : Handler := fun c s =>
  let n := c.p 0 4; let act := c.p 4 1; let i := c.p 5 1
  match nsOf s n with
  | none => Res.rej s stBadHandle (dtField 0)
  | some x =>
    let done := fun (s : State) => Res.ok (stoSettle s) false (mirrorReply s n)
    let l := legAt c 8
    checked s [(decide (2 < act), stNotPermitted, dtField 4)]
      (match act with
       | 0 =>
         checked s (legChecks s 8 l ++ [(!legFits s x.bytes l, stNoResource, dtNone),
             (i != x.legs.length || decide (1 < i), stConflict, dtField 5),
             (legEmpty l || (l.kind == 1 && l.ssds.any (fun k => (x.legs.map (·.ssds)).flatten.contains k)), stConflict, dtLegOverlap)])
           (let k := takeLeg s x.bytes l
            done (setNs n { x with legs := x.legs ++ [{ k with state := 1, stale := true }] } s))
       | 1 =>
         checked s [(decide (x.legs.length ≤ i), stBadHandle, dtField 5),
             (!(x.legs.zipIdx.any (fun e => decide (e.2 ≠ i) && e.1.state == 0)), stConflict, dtField 5)]
           (done (s.setSto { s.sto with
             ns := put s.sto.ns n { x with legs := (x.legs.zipIdx.filter (fun e => decide (e.2 ≠ i))).map (·.1) },
             ops := s.sto.ops.filter (fun o => !(o.cmd.nsid == n && o.resync.isSome)) }))
       | _ =>
         checked s [(decide (x.legs.length ≤ i), stBadHandle, dtField 5),
             (!(x.legs.zipIdx.any (fun e => decide (e.2 ≠ i) && e.1.state == 0)), stConflict, dtField 5)]
           (done (beginResync n i s)))

/-! ### Failing and returning (R453, R454, R463, R470) -/

def markSsd (i : Nat) (s : State) : State :=
  if s.sto.failedSsds.contains i then s else s.setSto { s.sto with failedSsds := s.sto.failedSsds ++ [i] }

/-- Namespaces whose journal lies on an SSD. -/
def journalOn (s : State) (i : Nat) : List (Nat × Ns) := s.sto.ns.filter (fun e => e.2.atomic && (e.2.journalA == i || e.2.journalB == i))

/-- A journal of a namespace fails: the part goes on with the other; where that has failed too, records not yet durable end with their writes (R463). -/
def journalDown (i n : Nat) (s : State) : State :=
  if (nsD s n).journalFailed.contains i then s
  else
    let s := logStorage n 0 2 (updNs n (fun x => { x with journalFailed := x.journalFailed ++ [i] }) s)
    if journalsLost (nsD s n) then
      (s.sto.ops.filter (fun o => o.cmd.nsid == n && o.phase == .journal)).foldl (fun s o => endOp o nvProtected [] s)
        (updNs n (fun x => { x with journal := x.journal.filter (fun r => r.durable) }) s)
    else s

/-- A journal of a namespace returns: where both had failed, its region is rebuilt empty (R463). -/
def journalBack (i n : Nat) (s : State) : State :=
  if (nsD s n).journalFailed.contains i then
    logStorage n 2 0 (updNs n (fun x => { x with journalFailed := x.journalFailed.filter (· != i),
                                                 journal := if journalsLost x then [] else x.journal }) s)
  else s

/-- An SSD fails: the journals on it, and every leg that takes extents of it. -/
def failSsd (i : Nat) (s : State) : State :=
  let s := markSsd i s
  failLegsOf (fun l => l.kind == 1 && l.ssds.contains i) ((journalOn s i).foldl (fun s e => journalDown i e.1 s) s)

/-- Records that a start found complete are written on every leg, in sequence order, and retired; where no leg holds the namespace's data, or no
journal copy can be read, they stand (R464). -/
def replayHeld (n : Nat) (s : State) : State :=
  let x := nsD s n
  if !hasLeg x || journalsLost x then s
  else
    let rs := x.journal.filter (fun r => !s.sto.ops.any (fun o => o.id == r.op))
    let s := rs.foldl (fun s r => rawLegs n (r.first * lbaBytes x) r.data [] s) s
    setCell blkStorage 0x114 (cell s blkStorage 0x114 + rs.length)
      (updNs n (fun y => { y with journal := x.journal.filter (fun r => s.sto.ops.any (fun o => o.id == r.op)) }) s)

/-- A failed leg comes back: one whose contents are out of date is resynced, and the last one that failed is in sync and takes the records whose
replay waited for it. -/
def legBack (n i : Nat) (s : State) : State :=
  match (nsD s n).legs[i]? with
  | some l =>
    if l.state ≠ 2 then s
    else logStorage n 2 (bit l.stale) (if l.stale then beginResync n i s else replayHeld n (updLeg n i (fun l => { l with state := 0 }) s))
  | none => s

/-- An SSD returns: the journals on it, and every leg that failed with it and has no other failed SSD. -/
def returnSsd (i : Nat) (s : State) : State :=
  let s := s.setSto { s.sto with failedSsds := s.sto.failedSsds.filter (· != i) }
  let s := (journalOn s i).foldl (fun s e => journalBack i e.1 s) s
  s.sto.ns.foldl (fun s e => (e.2.legs.zipIdx.filter (fun l => l.1.kind == 1 && l.1.ssds.contains i
    && !l.1.ssds.any (fun k => s.sto.failedSsds.contains k))).foldl (fun s l => legBack e.1 l.2 s) s) s

/-- LEG_FAILED: a leg fails, with the SSD that failed where there is one. -/
def execLegFailed (nsid leg : Nat) (ssd : Option Nat) (s : State) : Host.Outcome State Fault Refusal :=
  .next (thawed s <| match ((nsD s nsid).legs[leg]?).isSome, ssd with
    | false, none => s
    | false, some i => stoSettle (failSsd i s)
    | true, none => stoSettle (legDown nsid leg s)
    | true, some i => stoSettle (failSsd i (legDown nsid leg s)))

/-- LEG_RETURN: a leg comes back, or an SSD and every leg that failed with it. -/
def execLegReturn (nsid leg : Nat) (ssd : Option Nat) (s : State) : Host.Outcome State Fault Refusal :=
  .next (thawed s <| match ssd with
    | some i => stoSettle (returnSsd i s)
    | none => stoSettle (legBack nsid leg s))

/-- One 1 MiB piece of a resync takes its lock from the recovery reserve and is copied once nothing earlier conflicts. -/
def execResyncPiece (nsid leg : Nat) (s : State) : Host.Outcome State Fault Refusal :=
  let x := nsD s nsid
  .next (thawed s <| match x.legs[leg]? with
    | some l =>
      if l.state ≠ 1 ∨ sanActive x ∨ s.sto.ops.any (fun o => o.cmd.nsid == nsid && o.resync == some leg)
          ∨ 656 ≤ (s.sto.ops.filter (fun o => o.resync.isSome)).length then s
      else
        let n := min 1048576 (x.bytes - l.copied) / lbaBytes x
        stoSettle (arrive { id := 0, fn := 0xFFFF, sq := 0, opcode := 0, cmd := { nsid := nsid }, io := {},
                            first := l.copied / lbaBytes x, count := n, write := true, phase := .lock, resync := some leg } s)
    | none => s)

/-- JOURNAL_SSD_FAILED: a journal SSD fails, and with it the legs that it serves. -/
def execJournalSsdFailed (ssd : Nat) (s : State) : Host.Outcome State Fault Refusal := .next (thawed s <| stoSettle (failSsd ssd s))

/-- JOURNAL_SSD_RETURN. -/
def execJournalSsdReturn (ssd : Nat) (s : State) : Host.Outcome State Fault Refusal := .next (thawed s <| stoSettle (returnSsd ssd s))

/-! ### A start (R455, R464) -/

/-- A record was complete in a copy when power failed: one not known durable may have been. -/
def recComplete (draw : Nat) (r : JRec) : Bool := r.durable || Config.freeNat draw % 2 == 1

/-- The journals of a namespace are read: records that are complete and whose CRC holds are replayed, the others discarded (R464). -/
def replayNs (n : Nat) (s : State) : State :=
  let x := nsD s n
  if journalsLost x then s
  else
    let rs := (x.journal.zipIdx.filter (fun e => recComplete (s.draw + e.2) e.1 && decide (e.1.crc = recCrc n (lbaBytes x) e.1))).map (·.1)
    replayHeld n (updNs n (fun x => { x with journal := rs.map (fun r => { r with durable := true }) }) (s.setDraw (s.draw + x.journal.length)))

/-- Dirty regions of a mirror are copied from leg 0 to leg 1. -/
def settleMirror (n : Nat) (s : State) : State :=
  let x := nsD s n
  match x.legs with
  | [a, b] =>
    if a.state = 0 ∧ b.state = 0 ∧ !x.atomic then
      setNs n { x with legs := [a, x.dirty.foldl (fun l r => copyRange x a (r * 1048576) 1048576 l) b], dirty := [] } s
    else s
  | _ => s

/-- Where a Sanitize or Format goes on: by the record of the local SSDs, or, of a namespace with remote legs only, by that of SPI flash, written
when its state last changed (R465, log 203). -/
def sanResume (x : Ns) : Ns :=
  if x.legs.any (fun l => l.kind == 1) then x else { x with san := { x.san with extent := 0, pass := 1 } }

/-- The storage service at a start: nothing is in progress, journals are replayed, mirrors settled, controllers reset. -/
def storageStart (s : State) : State :=
  let s := setCell blkStorage 0x114 0 (s.setSto { s.sto with ops := [], ns := s.sto.ns.map (fun e => (e.1, sanResume e.2)), ctrls := s.sto.ctrls.map (fun e => (e.1, { sanStatus := e.2.sanStatus })) })
  s.sto.ns.foldl (fun s e => settleMirror e.1 (replayNs e.1 s)) s

/-! ### Registers (R476) -/

def storageReg (s : State) (rel : Nat) : Option Nat :=
  match rel with
  | 0x100 => some s.sto.ns.length
  | 0x104 => some (s.sto.ops.filter holdsEntry).length
  | 0x10C => some ((s.sto.failedSsds.filter (ssdPresent s)).length % 128 * 256
      + ((List.range 80).filter (ssdPresent s)).length % 128)
  | 0x11C => some (s.sto.ns.filter (fun e => e.2.legs.any (fun l => l.state != 0))).length
  | 0x120 => some (s.sto.ns.filter (fun e => sanActive e.2)).length
  | _ => none

end Sys2Proof.Machine
end

