-- ==== Sys2Proof/Machine/GrtCmds.lean ====
section
/-! DEFINITION. The commands and events of Gitus Reliable Transport (chapter 12), but for the retransmit timeout, which can fail a function. -/

namespace Sys2Proof.Machine

open Sys2Proof

/-! ### Issuers -/

/-- The function a connection or registration belongs to: the issuing one; for an accelerator endpoint PF0 of its host port (log 71). -/
def grtOwner (c : Ctx) (s : State) : Nat := if c.iss.kind = 4 then pfId (endpointHost s (c.iss.fid - 0x4000)) 0 else c.iss.owner

/-- An accelerator endpoint names only what it created, in its own memory. -/
def mayNameEnd (c : Ctx) (s : State) (owner endpoint : Nat) : Bool :=
  c.iss.priv || (grtOwner c s == owner && (c.iss.kind != 4 || endpoint == c.iss.fid))

def connFor (c : Ctx) (s : State) (h : Nat) : Option Conn :=
  match connOf s h with
  | some x => if mayNameEnd c s x.owner x.endpoint then some x else none
  | none => none

/-- The memory an ENDPOINT field names. -/
def endpointIn (c : Ctx) (v : Nat) : Nat := if v = 0xFFFF ∧ c.iss.kind = 4 then c.iss.fid else v

/-! ### GRT_CONN_CREATE (R533 to R536) -/

/-- A field whose 0 takes a default, clamped. -/
def dfltClamp (dflt lo hi v : Nat) : Nat := clampN lo hi (if v = 0 then dflt else v)

/-- The largest PMTU code at or below one whose frame fits MAX_FRAME, and the version or mode. -/
def fitPmtu (s : State) (port : Nat) (v6 : Bool) (top code : Nat) : Nat :=
  ((List.range (min top code + 1)).filter (fun k =>
    k == 0 || decide (14 + 4 + (if v6 then 40 else 20) + 8 + 48 + pmtuBytes k + 4 ≤ (enOf s (port / 4)).maxFrame))).foldl max 0

/-- The connection that a parameter block asks for. -/
def askedConn (c : Ctx) (s : State) : Conn :=
  let roce := c.p 2 1 == 1
  let v6 := (c.p 3 1).testBit 1
  let vmax := c.p 0xC 1
  let paths := if roce then 0 else if vmax = 1 then min 15 (c.p 0xB 1) else c.p 0xB 1
  let rmin := dfltClamp 50 10 10000 (c.p 0x34 4)
  let pm := fitPmtu s (c.p 8 1) v6 (if roce ∨ vmax = 1 then 2 else 3) (c.p 0xA 1)
  { owner := grtOwner c s, gen := genOf s (grtOwner c s), endpoint := endpointIn c (c.p 0 2), roce := roce, bind := (c.p 3 1).testBit 0,
    v6 := v6, port := c.p 8 1, tc := min 7 (c.p 9 1), pmtu := pm, paths := paths, versionMax := vmax,
    retryLimit := dfltClamp 8 1 32 (c.p 0xD 1), recvCtr := c.p 0xE 1, peerIp := be c.params 0x10 16, peerMac := be c.params 0x20 6,
    pathBase := clampN 0xC000 (0xFFFF - paths) (c.p 0x26 2), peerConn := if roce then c.p 0x28 4 % 2 ^ 24 else c.p 0x28 4,
    initPsn := c.p 0x2C 4, rtoMin := rmin, rtoMax := dfltClamp 100000 rmin 1000000 (c.p 0x38 4),
    target := dfltClamp 20000 1000 1000000 (c.p 0x3C 4), cwndMax := dfltClamp 4194304 8192 16777216 (c.p 0x40 4),
    state := if roce then 1 else 0, nextPsn := c.p 0x2C 4, cwnd := 16 * pmtuBytes pm,
    cum := if roce then seqAdd (c.p 0x30 4) (2 ^ 32 - 1) else 0 }

/-- The function has an address of a family. -/
def hasAddress (x : Fn) (v6 : Bool) : Bool := if v6 then x.ipv6 != 0 else x.ipv4 != 0

def connChecks (c : Ctx) (s : State) : List (Bool × Nat × Nat) :=
  let share := (c.p 3 1).testBit 2
  let o := grtOwner c s
  [(c.p 0 2 != 0xFFFF && !endpointLive s (c.p 0 2), stBadHandle, dtField 0),
   (decide (1 < c.p 2 1), stNotPermitted, dtField 2),
   (share && !(match connOf s (c.p 4 4) with | some x => x.owner == o | none => false), stBadHandle, dtField 4),
   (!subExists s (c.p 8 1), stBadHandle, dtField 8),
   (!(c.p 0xC 1 == 1 || c.p 0xC 1 == 2), stNotPermitted, dtField 0xC),
   (decide (63 < c.p 0xE 1 ∧ c.p 0xE 1 ≠ 0xFF), stBadHandle, dtField 0xE),
   (decide (c.p 0x20 1 % 2 = 1), stBadAddress, dtField 0x20),
   (!share && c.p 0x48 8 % 4096 != 0, stBadAddress, dtField 0x48),
   (!share && c.p 0x50 8 % 4096 != 0, stBadAddress, dtField 0x50),
   (!share && c.p 0x5A 2 != 0xFFFF && decide (vectorCount o ≤ c.p 0x5A 2), stBadHandle, dtField 0x5A),
   (decide ((fnD s o).allot.conns ≤ (s.grt.conns.filter (fun e => e.2.owner == o)).length + (fnD s o).reclaim.conns), stNoResource, dtNone)]

/-- The 64-byte reply of R535. -/
def connReply (h page : Nat) (x : Conn) (sq cq : Nat) : Bytes :=
  layout 64 [(0, 4, h), (8, 8, page), (0x10, 1, x.pmtu), (0x11, 1, x.paths), (0x12, 1, x.retryLimit), (0x13, 1, x.tc), (0x14, 2, x.pathBase),
    (0x18, 4, x.rtoMin), (0x1C, 4, x.rtoMax), (0x20, 4, x.target), (0x24, 4, x.cwndMax), (0x28, 1, sq), (0x29, 1, cq)]

/-- A field's value in effect differs from the one given, be it a given 0 that takes its default (R34). -/
def changedFrom (given eff : Nat) : Bool := given != eff

def connClamped (c : Ctx) (x : Conn) (share : Bool) (sq cq : Nat) : Bool :=
  changedFrom (c.p 9 1) x.tc || changedFrom (c.p 0xA 1) x.pmtu || changedFrom (c.p 0xB 1) x.paths
    || changedFrom (c.p 0xD 1) x.retryLimit || changedFrom (c.p 0x26 2) x.pathBase || changedFrom (c.p 0x34 4) x.rtoMin
    || changedFrom (c.p 0x38 4) x.rtoMax || changedFrom (c.p 0x3C 4) x.target || changedFrom (c.p 0x40 4) x.cwndMax
    || (!share && (changedFrom (c.p 0x58 1) sq || changedFrom (c.p 0x59 1) cq))

/-- GRT_CONN_CREATE. -/
def hGrtConnCreate : Handler := fun c s =>
  let x := askedConn c s
  let share := (c.p 3 1).testBit 2
  let sq := clampN 4 15 (c.p 0x58 1)
  let cq := clampN sq 16 (c.p 0x59 1)
  let slot := lowest 262144 (fun i => !s.grt.conns.any (fun e => connSlot e.1 == i))
  let begin_ := fun (h : Nat) (s : State) => if x.roce then s else sendHello h s
  checked s (connChecks c s) <| roomThen s [(!hasAddress (fnD s x.owner) ((c.p 3 1).testBit 1), stConflict, dtNone)]
    (match slot with
     | none => Res.rej s stNoResource dtNone
     | some i =>
       let h := i * 8192 + lookD s.grt.connReuse i 1
       if share then
         (let w := (connD s (c.p 4 4)).wq
          let q := (wqOf s w).getD { owner := 0, gen := 0, endpoint := 0, sq := 0, cq := 0, sqLog2 := sq, cqLog2 := cq, vector := 0, page := 0 }
          Res.ok (begin_ h (setConn h { x with wq := w } s)) (connClamped c x true sq cq) (connReply h 0 x q.sqLog2 q.cqLog2))
       else match freePage s x.owner, lowest (s.grt.wqs.length + 1) (fun w => !has s.grt.wqs w) with
         | some page, some w =>
           let q : Wq := { owner := x.owner, gen := x.gen, endpoint := x.endpoint, sq := c.p 0x48 8, cq := c.p 0x50 8, sqLog2 := sq, cqLog2 := cq,
                           vector := c.p 0x5A 2, page := page }
           let s' := setConn h { x with wq := w } (setWq w q (s.setPages (s.pages ++ [(x.owner, page)])))
           Res.ok (begin_ h s') (connClamped c x false sq cq) (connReply h (4096 * page) x sq cq)
         | _, _ => Res.rej s stNoResource dtNone)

/-- GRT_CONN_DESTROY (R80). -/
def hGrtConnDestroy : Handler := fun c s =>
  let h := c.p 0 4
  match connFor c s h with
  | none => Res.rej s stBadHandle (dtField 0)
  | some x =>
    let n := (x.reqs.filter (fun r => r.done.isNone)).length
    let s := if x.state = 2 ∨ x.roce then s else queuePacket h (control s x 8 0 []) s
    let s := updConn h (fun c => { c with reqs := c.reqs.map (fun r => if r.done.isSome then r else { r with done := some 7, sentAll := true }) }) s
    let q := (wqOf s x.wq).map (·.parked)
    let mine := (q.getD []).filter (fun e => e.1.conn == h)
    let s := drainAll h s
    let s := match wqOf s x.wq with
      | some y => setWq x.wq { y with parked := y.parked.filter (fun e => e.1.conn != h) } s
      | none => s
    let s := mine.foldl (fun s e => endReq x.wq h e.1 7 s) s
    Res.ok (removeConn h s) false (layout 8 [(0, 4, h), (4, 4, n + mine.length)])

/-- GRT_CONN_QUERY (R570). -/
def hGrtConnQuery : Handler := fun c s =>
  let h := c.p 0 4
  let base := clampN 0 56 (c.p 4 4)
  match connFor c s h with
  | none => Res.rej s stBadHandle (dtField 0)
  | some x =>
    let q := wqOf s x.wq
    let ctr := fun k => lookD ((q.map (·.ctrs)).getD []) k 0
    Res.ok s (base != c.p 4 4) (layout 128 ([(0, 1, x.state), (1, 1, x.version), (2, 2, x.excluded.length), (4, 4, x.srtt), (8, 4, x.cwnd),
      (0xC, 4, inFlight x), (0x10, 8, x.retx), (0x18, 8, x.refusedResends), (0x20, 4, x.nextMsn), (0x24, 4, x.cmsn),
      (0x28, 4, ((q.map (·.parked)).getD []).length), (0x2C, 1, x.pmtu), (0x2D, 1, pathsNow x)]
      ++ (List.range 8).map (fun i => (0x40 + 8 * i, 8, ctr (base + i)))))

/-! ### Registration (R563, R566) -/

def hMrRegister : Handler := fun c s =>
  let kind := c.p 2 1
  let len := c.p 0x10 8
  let addr := c.p 8 8
  let n := c.p 0x18 4
  let o := grtOwner c s
  let slot := lowest 1048576 (fun i => !has s.grt.mrs i)
  checked s
    [(c.p 0 2 != 0xFFFF && !endpointLive s (c.p 0 2), stBadHandle, dtField 0),
     (decide (1 < kind), stNotPermitted, dtField 2),
     (c.p 4 4 != 0 && !(match connOf s (c.p 4 4) with | some x => x.owner == o | none => false), stBadHandle, dtField 4),
     (decide (2 ^ 64 < addr + len) || (kind == 1 && (nsOf s n).isSome && decide ((nsD s n).bytes < addr + len)), stBadAddress, dtField 8),
     (decide (len < 4096 ∨ 2 ^ 40 < len ∨ len % 4096 ≠ 0), stBadAddress, dtField 0x10),
     (decide (kind = 1 ∧ nsOf s n = none), stBadHandle, dtField 0x18)] <|
  roomThen s [(kind == 1 && ((nsD s n).attached != [] || courseDest s n), stConflict, dtNone)]
    (match slot with
     | none => Res.rej s stNoResource dtNone
     | some i =>
       let r := i * 4096 + lookD s.grt.mrReuse i 1
       let m : Mr := { owner := o, gen := genOf s o, endpoint := endpointIn c (c.p 0 2), kind := kind, access := c.p 3 1 % 16, conn := c.p 4 4, addr := addr,
                       length := len, nsid := n, handle := r }
       Res.ok (s.setGrt { s.grt with mrs := put s.grt.mrs i m }) false (layout 32 [(0, 4, r), (8, 8, len)]))

/-- MR_REVOKE. -/
def hMrRevoke : Handler := fun c s =>
  let r := c.p 0 4
  match mrOf s r with
  | none => Res.rej s stBadHandle (dtField 0)
  | some m =>
    if !mayNameEnd c s m.owner m.endpoint then Res.rej s stBadHandle (dtField 0)
    else if m.revoking then Res.rej s stBusy dtNone
    else .later (addWait c .revoke r 0 (s.setGrt { s.grt with mrs := put s.grt.mrs (r / 4096) { m with revoking := true } })) dtNone (layout 8 [(0, 4, r)])

/-- Admitted packets of a revoking region have been placed. -/
def execRevocationDrained (rkey : Nat) (s : State) : Host.Outcome State Fault Refusal :=
  .next (thawed s <| match mrOf s rkey with
    | some m =>
      if m.revoking then
        (let s := removeMr (rkey / 4096) s
         match s.icp.waits.find? (fun w => w.kind == .revoke && w.obj == rkey) with
         | some w => finishWait w stOk dtNone (layout 8 [(0, 4, rkey)]) s
         | none => s)
      else s
    | none => s)

/-! ### Doorbells and work requests -/

/-- GRT_SQ_TAIL. -/
def execGrtSqTail (wq index : Nat) (slots : List WrSlot) (s : State) : Host.Outcome State Fault Refusal :=
  .next (thawed s <| match wqOf s wq with
    | none => s
    | some q =>
      if doorbellOff s q.endpoint q.owner then s
      else if 2 ^ q.sqLog2 ≤ index then doorbellRange q.owner s
      else
        let n := (index + 2 ^ q.sqLog2 - q.tail) % 2 ^ q.sqLog2
        fetchWq wq (q.unread.length + n) (setWq wq { q with tail := index, unread := q.unread ++ (slots.take n).map wrSlot } s))

/-- GRT_CQ_HEAD. -/
def execGrtCqHead (wq index : Nat) (s : State) : Host.Outcome State Fault Refusal :=
  .next (thawed s <| match wqOf s wq with
    | none => s
    | some q =>
      if doorbellOff s q.endpoint q.owner then s
      else if 2 ^ q.cqLog2 ≤ index then doorbellRange q.owner s
      else
        let freed := (index + 2 ^ q.cqLog2 - q.cqHead) % 2 ^ q.cqLog2
        drainGrt wq q.heldCpl.length (setWq wq { q with cqHead := index, cqUsed := q.cqUsed - freed } s))

/-- One request in the next slot of a work queue. -/
def submitWr (w op : Nat) (wr : GrtWr) (data : Option Bytes) (s : State) : State :=
  match wqOf s w with
  | none => s
  | some q =>
    let r : GrtWr := { wr with opcode := op }
    if doorbellOff s q.endpoint q.owner then s
    else fetchWq w (q.unread.length + 1) (setWq w { q with tail := (q.tail + 1) % 2 ^ q.sqLog2, unread := q.unread ++ [(r, data)] } s)

def execGrtWrite (wq : Nat) (wr : GrtWr) (data : Option Bytes) (s : State) : Host.Outcome State Fault Refusal := .next (thawed s <| submitWr wq 1 wr data s)
def execGrtWriteNotify (wq : Nat) (wr : GrtWr) (data : Option Bytes) (s : State) : Host.Outcome State Fault Refusal :=
  .next (thawed s <| submitWr wq 2 wr data s)
def execGrtRead (wq : Nat) (wr : GrtWr) (data : Option Bytes) (s : State) : Host.Outcome State Fault Refusal := .next (thawed s <| submitWr wq 3 wr data s)
def execCtrAdd (wq : Nat) (wr : GrtWr) (s : State) : Host.Outcome State Fault Refusal := .next (thawed s <| submitWr wq 4 wr (some []) s)
def execGrtNop (wq : Nat) (wr : GrtWr) (s : State) : Host.Outcome State Fault Refusal := .next (thawed s <| submitWr wq 5 wr (some []) s)

/-- The first parked request in ring order whose counter has reached its threshold (R562). -/
def execTriggerFire (wq : Nat) (s : State) : Host.Outcome State Fault Refusal :=
  .next (thawed s <| match wqOf s wq with
    | none => s
    | some q =>
      let due := fun (e : GrtWr × Option Bytes) => decide (e.1.threshold ≤ lookD q.ctrs e.1.trigCtr 0)
      match q.parked.find? due with
      | some e => startWr wq e.1 e.2 (setWq wq { q with parked := dropFirst due q.parked } s)
      | none => s)

/-! ### Inbound packets (R546 to R554, R559, R563 to R568) -/

/-- A packet for a connection of a function whose DMA is stopped is refused as receiver-not-ready: of a VF from MIG_FREEZE on, but for the responses
that its started requests wait for while it is being frozen (R426), and of a PF in D1 or D3hot (R423; DESIGN CHOICE, log 215). The answer RNR is a DESIGN CHOICE (log 215). -/
def rxStopped (s : State) (c : Conn) (resp : Bool) : Bool :=
  ((fnD s c.owner).st == .frozen && !(resp && !isFrozen s c.owner))
    || (c.endpoint == 0xFFFF && ((fnD s c.owner).dstate == .d1 || (fnD s c.owner).dstate == .d3hot))

/-- The answer to a packet with a PSN before it is looked at further: the state where it goes no further (R549, R559, R728). -/
def rxRefused (resp : Bool) (p : GrtPkt) (s : State) : Option State :=
  if isolated s blkTransport then
    (match connOf s p.dst with
     | some _ => some (sendNak p.dst p.psn (be p.ext 0 4) 5 0 s)
     | none => some (refusal 5 p s))
  else match connOf s p.dst with
  | none => some (nakNoConn p s)
  | some c =>
    if c.state ≠ 1 then some (nakNoConn p s)
    else if !c.roce && p.ver != c.version then some (sendNak p.dst p.psn (be p.ext 0 4) 6 0 s)
    else if rxStopped s c resp then
      (let d := if c.rnr = 0 then 100 else min 10000 (2 * c.rnr)
       some (sendNak p.dst p.psn (be p.ext 0 4) 3 d (bumpTr 0x118 (setConn p.dst { c with rnr := d } s))))
    else if psnOld c p.psn then some (sendAck p.dst (bumpTr 0x110 s))
    else if c.roce && p.psn != seqAdd c.cum 1 then some (sendNak p.dst (seqAdd c.cum 1) 0 8 0 s)
    else if psnBeyond c p.psn then some s
    else none

/-- A packet is refused for its message: the message fails, and the PSN counts as arrived (R554, R559). -/
def rxFail (p : GrtPkt) (code : Nat) (auth : Bool) (s : State) : State :=
  let msn := be p.ext 0 4
  let c := connD s p.dst
  let e := (c.entries.find? (fun e => e.msn == msn)).getD { msn := msn }
  let e := { e with failed := true, authFail := e.authFail || auth, notify := if p.type = 2 then some (be p.ext 12 4) else e.notify }
  let s := setConn p.dst (markPsn p.psn { c with rnr := 0, entries := c.entries.filter (fun x => x.msn != msn) ++ [e] }) s
  let s := if code = 2 then bumpTr 0x114 s else s
  noteArrival p.dst p (p.type ≤ 2) (releaseAll p.dst (sendNak p.dst p.psn msn code 0 s))

/-- A write packet's form is one the receiver accepts. -/
def writeValid (c : Conn) (p : GrtPkt) : Bool :=
  let off := be p.ext 4 4
  let n := pmtuBytes c.pmtu
  decide (p.type = 1 ∨ p.type = 2) && decide (p.payload.length ≤ n) && (fLast p || decide (p.payload.length = n)) && decide (off % n = 0)
    && !(fSealed p && (c.version == 1 || c.roce)) && !(fPersist p && c.roce)

/-- The registration that admits a packet: ACTIVE, of the connection's function, open to the connection, granting the access, its range holding the bytes
(R564). -/
def admitMr (s : State) (h rkey need off n : Nat) : Option Mr :=
  let c := connD s h
  match mrOf s rkey with
  | some m =>
    if !m.revoking && m.owner == c.owner && (m.conn == 0 || m.conn == h) && (m.access &&& need) == need && decide (off + n ≤ m.length)
    then some m else none
  | none => none

/-- ACCESS bits that a write needs. -/
def writeNeeds (p : GrtPkt) : Nat := 1 + (if p.type = 2 then 4 else 0) + (if fPersist p then 8 else 0)

/-- The bytes are placed in the registration: its endpoint's memory, or its namespace; none: the namespace takes no write. -/
def placeBytes (m : Mr) (off : Nat) (bs : Bytes) (s : State) : Option State :=
  if m.kind = 0 then some (dmaOut (if m.endpoint = 0xFFFF then m.owner else m.endpoint) (m.addr + off) bs s)
  else match nsOf s m.nsid with
    | some x => if keyGone s x || writeProtected x || sanActive x then none else some (writeLegs m.nsid (m.addr + off) bs [] s)
    | none => none

/-- A write packet is tracked after it is placed (R547, R548). -/
def trackWrite (p : GrtPkt) (tagOk persistNs : Bool) (s : State) : State :=
  let c := connD s p.dst
  let s := useGrtKey c.owner c.peerConn p.dst p s
  let msn := be p.ext 0 4
  let off := be p.ext 4 4
  let e := (c.entries.find? (fun e => e.msn == msn)).getD { msn := msn }
  let i := off / pmtuBytes c.pmtu
  let bad := fSealed p && !tagOk
  let e := { e with got := e.got ++ [i], count := if fLast p then some (i + 1) else e.count,
                    length := if fLast p then off + p.payload.length else e.length,
                    notify := if p.type = 2 then some (be p.ext 12 4) else e.notify,
                    waiting := e.waiting + bit persistNs, failed := e.failed || bad, authFail := e.authFail || bad }
  let s := setConn p.dst (markPsn p.psn { c with rnr := 0, entries := c.entries.filter (fun x => x.msn != msn) ++ [e] }) s
  let s := if bad then bump blkCipher 0x120 (bumpTr 0x114 (bumpTr 0x124 (sendNak p.dst p.psn msn 2 0 s))) else s
  noteArrival p.dst p true (releaseAll p.dst s)

/-- An entry or a piece is needed and none is free (R550). -/
def trackFull (s : State) (c : Conn) (msn i : Nat) : Bool :=
  match c.entries.find? (fun e => e.msn == msn) with
  | none => decide (trackTotal ≤ trackUsed s) || (decide (64 ≤ i) && decide (pieceTotal ≤ piecesUsed s))
  | some e => decide (64 ≤ i) && !e.got.any (fun k => decide (64 ≤ k) && (k - 64) / 2048 == (i - 64) / 2048)
                && decide (pieceTotal ≤ piecesUsed s)

/-- GRT_RX_WRITE. -/
def rxWrite (p : GrtPkt) (tagOk refused : Bool) (s : State) : State :=
  match rxRefused false p s with
  | some s => s
  | none =>
    let c := connD s p.dst
    let msn := be p.ext 0 4
    let off := be p.ext 4 4
    let at_ := be p.ext 16 8 + off
    let i := off / pmtuBytes c.pmtu
    if !writeValid c p then rxFail p 5 false s
    else if !seqAfter msn c.cmsn then noteArrival p.dst p true (setConn p.dst (markPsn p.psn c) s)
    else if (c.entries.find? (fun e => e.msn == msn)).any (fun e => e.got.contains i) then
      sendAck p.dst (bumpTr 0x110 (setConn p.dst (markPsn p.psn c) s))
    else if trackFull s c msn i then sendNak p.dst p.psn msn 4 50 (bumpTr 0x11C s)
    else match admitMr s p.dst (be p.ext 8 4) (writeNeeds p) at_ p.payload.length with
      | none => rxFail p 2 false s
      | some m =>
        if refused || (fSealed p && !transportKey s c.owner) then rxFail p 2 false s
        else match placeBytes m at_ p.payload s with
          | none => rxFail p (if fPersist p then 7 else 2) false s
          | some s => trackWrite p tagOk (fPersist p && m.kind == 1) s

def execGrtRxWrite (pkt : GrtArrival) (tagOk refused : Bool) (s : State) : Host.Outcome State Fault Refusal := .next (thawed s <| rxWrite (arrived pkt) tagOk refused s)

/-- GRT_RX_READ_REQ: the response is sent from the registration's bytes. -/
def rxReadReq (p : GrtPkt) (data : Option Bytes) (s : State) : State :=
  match rxRefused false p s with
  | some s => s
  | none =>
    let c := connD s p.dst
    let msn := be p.ext 0 4
    let len := be p.ext 4 4
    if p.type ≠ 3 ∨ 67108864 < len then rxFail p 5 false s
    else if !seqAfter msn c.cmsn then noteArrival p.dst p false (setConn p.dst (markPsn p.psn c) s)
    else if trackFull s c msn 0 then sendNak p.dst p.psn msn 4 50 (bumpTr 0x11C s)
    else match admitMr s p.dst (be p.ext 8 4) 2 (be p.ext 16 8) len with
      | none => rxFail p 2 false s
      | some m =>
        let bs := if m.kind = 0 then data else (nsOf s m.nsid).bind (fun x =>
          if keyGone s x then none else readLegs s x (m.addr + be p.ext 16 8) len {})
        match bs with
        | none => rxFail p 2 false s
        | some bs =>
          let e : GrtEntry := { msn := msn, got := [0], count := some 1 }
          let c := { c with rnr := 0, entries := c.entries ++ [e],
                            resps := c.resps ++ [{ msn := msn, data := (bs ++ List.replicate len 0).take len, sealed_ := fSealed p }] }
          let s := setConn p.dst (markPsn p.psn c) s
          pumpConn p.dst (noteArrival p.dst p false (releaseAll p.dst s))

def execGrtRxReadReq (pkt : GrtArrival) (data : Option Bytes) (s : State) : Host.Outcome State Fault Refusal := .next (thawed s <| rxReadReq (arrived pkt) data s)

/-- A response packet is placed for the request that waits for it (R546, R553). -/
def rxReadResp (p : GrtPkt) (tagOk : Bool) (s : State) : State :=
  match rxRefused true p s with
  | some s => s
  | none =>
    let msn := be p.ext 0 4
    let off := be p.ext 4 4
    let c := connD s p.dst
    let i := off / pmtuBytes c.pmtu
    let s := setConn p.dst (markPsn p.psn { c with rnr := 0 }) (useGrtKey c.owner c.peerConn p.dst p s)
    match c.reqs.find? (fun r => r.wr.opcode == 3 && r.msn == some msn && r.done.isNone) with
    | none => noteArrival p.dst p true s
    | some r =>
      if r.got.contains i ∨ r.wr.length < off + p.payload.length then noteArrival p.dst p true s
      else
        let to_ := if c.endpoint = 0xFFFF then c.owner else c.endpoint
        let s := dmaOut to_ (r.wr.localAddr + off) p.payload s
        let bad := fSealed p && !tagOk
        let r' := { r with got := r.got ++ [i], last := if fLast p then some (i + 1) else r.last }
        let full := match r'.last with | some n => (List.range n).all (fun k => r'.got.contains k) | none => false
        let s := if bad then bump blkCipher 0x120 (bumpTr 0x124 s) else s
        let s := updConn p.dst (fun c => { c with reqs := c.reqs.map (fun x => if x.msn == some msn then r' else x) }) s
        let s := if bad then markDone p.dst (fun x => x.msn == some msn) 8 s
          else if full then markDone p.dst (fun x => x.msn == some msn) 0 s else s
        pumpConn p.dst (noteArrival p.dst p true s)

def execGrtRxReadResp (pkt : GrtArrival) (tagOk : Bool) (s : State) : Host.Outcome State Fault Refusal := .next (thawed s <| rxReadResp (arrived pkt) tagOk s)

/-! ### Acknowledgements (R545, R553, R556, R557, R560) -/

/-- An ACK shows a PSN. -/
def ackShows (ext : Bytes) (psn : Nat) : Bool :=
  let cum := be ext 0 4
  let k := seqDist psn (seqAdd cum 1)
  !seqAfter psn cum || (decide (k < 8 * be ext 13 1) && ((ext.getD (16 + k / 8) 0).toNat).testBit (k % 8))

/-- Packets that an ACK shows newly. -/
def newlyShown (ext : Bytes) (c : Conn) : List TxPkt := c.flight.filter (fun x => !x.sacked && ackShows ext x.pkt.psn)

/-- Packets that an ACK presumes lost: not shown, and sent at least a quarter of the smoothed RTT before one that is. -/
def presumedLost (ext : Bytes) (c : Conn) : List TxPkt :=
  let t := ((c.flight.filter (fun x => ackShows ext x.pkt.psn)).map (·.sentAt)).foldl max 0
  c.flight.filter (fun x => !x.sacked && !x.lost && x.wait.isNone && !ackShows ext x.pkt.psn && decide (x.sentAt + c.srtt / 4 ≤ t)
    && c.flight.any (fun y => ackShows ext y.pkt.psn))

/-- The smoothed RTT of the entropy that an ACK names; a slow one is excluded. -/
def pathSample (h path rtt : Nat) (s : State) : State :=
  let c := connD s h
  let old := lookD c.pathRtt path 0
  let v := if old ≤ rtt then old + (rtt - old) / 8 else old - (old - rtt) / 8
  let s := setConn h { c with pathRtt := put c.pathRtt path v } s
  if 2 * c.target < v then excludePath h path s else s

/-- GRT_RX_ACK. -/
def rxAck (p : GrtPkt) (s : State) : State :=
  match connOf s p.dst with
  | none => s
  | some c =>
    if c.state ≠ 1 ∨ p.ext.length < 16 then s
    else
      let h := p.dst
      let n := ((newlyShown p.ext c).map (fun x => x.pkt.payload.length)).sum
      let rtt := (nowTr s + 2 ^ 32 - be p.ext 8 4) % 2 ^ 32
      let lost := presumedLost p.ext c
      let cmsn := be p.ext 4 4
      let fl := (c.flight.filter (fun x => seqAfter x.pkt.psn (be p.ext 0 4))).map (fun x =>
        if ackShows p.ext x.pkt.psn then { x with sacked := true, lost := false, wait := none }
        else if lost.any (fun y => y.pkt.psn == x.pkt.psn) then { x with lost := true } else x)
      let fresh := decide ((newlyShown p.ext c) ≠ [])
      let s := setConn h { c with flight := fl } s
      let s := if fresh then pathSample h (be p.ext 12 1) rtt (ccAck h n rtt s) else s
      let s := lost.foldl (fun s x => excludePath h x.pkt.path s) s
      let s := markDone h (fun r => r.wr.opcode != 3 && r.sentAll && (match r.msn with | some m => !seqAfter m cmsn | none => false)) 0 s
      pumpConn h s

def execGrtRxAck (pkt : GrtArrival) (s : State) : Host.Outcome State Fault Refusal := .next (thawed s <| rxAck (arrived pkt) s)

/-- The status of a message that a NAK code fails (R543, R559). -/
def nakStatus (code : Nat) : Nat := if code = 2 then 4 else if code = 7 then 9 else 5

/-- GRT_RX_NAK. -/
def rxNak (p : GrtPkt) (s : State) : State :=
  match connOf s p.dst with
  | none => s
  | some c =>
    let h := p.dst
    let psn := be p.ext 0 4
    let msn := be p.ext 4 4
    let code := be p.ext 8 1
    let after := be p.ext 12 4
    if c.state = 2 then s
    else if code = 1 then errorConn h none 7 s
    else if code = 6 then errorConn h (some msn) 5 s
    else if code = 3 ∨ code = 4 then
      setConn h { c with flight := c.flight.map (fun x => if x.pkt.psn == psn then { x with wait := some after, lost := false } else x) } s
    else if code = 8 then
      pumpConn h (setConn h { c with flight := c.flight.map (fun x =>
        if seqAfter psn x.pkt.psn then x else { x with lost := true }) } s)
    else if c.flight.any (fun x => x.pkt.psn == psn && x.pkt.type == 4) then
      -- a response was refused: its MSN is the peer's, and no more of it is sent (R554)
      setConn h { c with resps := c.resps.filter (fun r => r.msn != msn) } s
    else
      pumpConn h (markDone h (fun r => r.msn == some msn) (nakStatus code) s)

def execGrtRxNak (pkt : GrtArrival) (s : State) : Host.Outcome State Fault Refusal := .next (thawed s <| rxNak (arrived pkt) s)

/-! ### Connecting (R536) -/

/-- GRT_RX_HELLO: both sides run at the lower versions and PMTU, or have no version in common. -/
def rxHello (p : GrtPkt) (s : State) : State :=
  match connOf s p.dst with
  | none => nakNoConn p s
  | some c =>
    let h := p.dst
    let vmin := be p.ext 0 1
    let v := min c.versionMax (be p.ext 1 1)
    let pm := min (min c.pmtu (be p.ext 2 1)) (if v = 1 then 2 else 3)
    if c.roce ∨ c.state = 2 then nakNoConn p s
    else if c.state = 1 then sendHello h s
    else if v < vmin ∨ v < 1 then errorConn h none 7 (sendNak h 0 0 6 0 s)
    else
      pumpConn h (setConn h { c with state := 1, version := v, pmtu := pm, cum := seqAdd (be p.ext 8 4) (2 ^ 32 - 1), cwnd := 16 * pmtuBytes pm } s)

def execGrtRxHello (pkt : GrtArrival) (s : State) : Host.Outcome State Fault Refusal := .next (thawed s <| rxHello (arrived pkt) s)

/-- GRT_RX_CLOSE: the packet is taken; the manual gives it no effect on the receiver's connection, which learns of the loss from NO_CONN (log 72). -/
def execGrtRxClose (pkt : GrtArrival) (s : State) : Host.Outcome State Fault Refusal :=
  .next (thawed s <| match connOf s (arrived pkt).dst with
    | some _ => s
    | none => nakNoConn (arrived pkt) s)

/-- HELLO_RETRY. -/
def execHelloRetry (conn : Nat) (s : State) : Host.Outcome State Fault Refusal :=
  .next (thawed s <| match connOf s conn with
    | some c => if c.state = 0 then sendHello conn s else s
    | none => s)

/-- CONNECTING_TIMEOUT. -/
def execConnectingTimeout (conn : Nat) (s : State) : Host.Outcome State Fault Refusal :=
  .next (thawed s <| match connOf s conn with
    | some c => if c.state = 0 then errorConn conn none 7 s else s
    | none => s)

/-- ACK_DELAY_EXPIRY. -/
def execAckDelayExpiry (conn : Nat) (s : State) : Host.Outcome State Fault Refusal :=
  .next (thawed s <| match connOf s conn with
    | some c => if c.state = 1 ∧ c.ackDue then sendAck conn s else s
    | none => s)

/-- RETRY_AFTER_EXPIRY: the refused packet is sent again, and this never counts toward RETRY_LIMIT. -/
def execRetryAfterExpiry (conn psn : Nat) (s : State) : Host.Outcome State Fault Refusal :=
  .next (thawed s <| updConn conn (fun c => { c with flight := c.flight.map (fun x =>
           if x.pkt.psn == psn && x.wait.isSome then { x with wait := none, lost := true, refused := true } else x) }) s
         |> pumpConn conn)

/-- PATH_EXCLUSION_EXPIRY. -/
def execPathExclusionExpiry (conn path : Nat) (s : State) : Host.Outcome State Fault Refusal :=
  .next (thawed s <| match connOf s conn with
    | some c => pumpConn conn (setConn conn { c with excluded := c.excluded.filter (fun e => e.1 != path) } s)
    | none => s)

/-- PERSIST_DURABLE: a PERSIST write of a message is durable, or could not be made so (R552, R559, R565). -/
def execPersistDurable (conn msn : Nat) (ok : Bool) (s : State) : Host.Outcome State Fault Refusal :=
  .next (thawed s <| match connOf s conn with
    | none => s
    | some c =>
      if c.entries.any (fun e => e.msn == msn && decide (0 < e.waiting)) then
        (let es := c.entries.map (fun e => if e.msn == msn then { e with waiting := e.waiting - 1, failed := e.failed || !ok } else e)
         let s := setConn conn { c with entries := es } s
         let s := if ok then s else sendNak conn 0 msn 7 0 s
         let s := releaseAll conn s
         if (connD s conn).cmsn = c.cmsn then s else updConn conn (fun c => { c with ackDue := true }) s)
      else s)

/-- ROCEV2_CNP: the window is halved, at most once per RTT (R569). -/
def execRocev2Cnp (conn : Nat) (s : State) : Host.Outcome State Fault Refusal :=
  .next (thawed s <| match connOf s conn with
    | some c =>
      if c.roce ∧ c.state = 1 ∧ c.lastDec + c.srtt ≤ nowTr s then
        setCwnd conn (max (c.cwnd / 2) (pmtuBytes c.pmtu)) (setConn conn { c with lastDec := nowTr s } s)
      else s
    | none => s)

/-! ### Registers (R571) -/

def grtReg (s : State) (rel : Nat) : Option Nat :=
  match rel with
  | 0x100 => some (s.grt.conns.length % 2 ^ 19)
  | 0x104 => some (s.grt.domain.length % 2 ^ 15)
  | 0x12C => some (if running s then (trackTotal - trackUsed s) % 2 ^ 20 else 0)
  | 0x130 => some (if running s then (pieceTotal - piecesUsed s) % 2 ^ 16 else 0)
  | _ => none

end Sys2Proof.Machine
end

