-- ==== Sys2Proof/Machine/ThreadMem.lean ====
section
/-! DEFINITION. Memory as a mason thread sees it: windows (R167 to R171), loads, stores and atomics with L1 data caching (R154 to R163), poison and the course rules (R164, R165). -/

namespace Sys2Proof.Machine

open Sys2Proof

/-! ### Fault kinds (R180) -/

def fkWindow : Nat := 1
def fkAlign : Nat := 2
def fkIllegal : Nat := 3
def fkPoison : Nat := 4
def fkParity : Nat := 5
def fkWatchdog : Nat := 6
def fkIo : Nat := 7
def fkEnded : Nat := 8

/-- A thread with its item's job and kernel. -/
structure TCtx where
  th : Nat
  t : Thread
  j : Job
  ki : Nat
  k : Kernel
  deriving DecidableEq, Repr

/-- The thread of a slot, where it runs an item on a core in service. -/
def tctx (s : State) (th : Nat) : Option TCtx :=
  match look s.mason.threads th with
  | none => none
  | some t =>
    match s.mason.jobs.find? (fun j => j.id == t.job) with
    | none => none
    | some j =>
      match look s.mason.kernels j.kernel with
      | none => none
      | some k => if coreUp s th && !s.tel.frozen then some { th := th, t := t, j := j, ki := j.kernel, k := k } else none

/-! ### Windows (R167, R168) -/

/-- What a run of kernel addresses maps to. -/
inductive Target where
  /-- device memory, byte by byte; `table`: with the local rows and the blocks it touches -/
  | mem (dpas : List Nat)
  | scratch (dpa : Nat)
  | table (ti : Nat) (region : Nat) (bytes : List (Nat × Nat × Nat))
  /-- bytes held inside the part: W1, and W12 of a rule item -/
  | inside (bs : Bytes)
  /-- client memory, by FUNCTION_ID and address -/
  | client (fid addr : Nat)
  deriving DecidableEq, Repr

/-- Every element of a list, or none. -/
def allSome {α : Type} : List (Option α) → Option (List α)
  | [] => some []
  | x :: r => x.bind (fun a => (allSome r).map (a :: ·))

/-- DPA of a byte of a kernel's code and constants. -/
def codeDpa (k : Kernel) (off : Nat) : Nat := (k.frames[off / frameBytes]?).getD 0 * frameBytes + off % frameBytes
/-- A thread's next instruction belongs to the vector slot: its major opcode is 0x10 to 0x18 without MASK (R209; log 179). -/
def nextIsVector (s : State) (c : TCtx) : Bool :=
  let h := (memGet s.mem.cells (codeDpa c.k c.t.pc.toNat)).toNat
  h % 2 == 1 && decide (0x10 ≤ h / 2 % 64 ∧ h / 2 % 64 ≤ 0x18) && h / 2 % 64 != 0x17

/-- Scratch allocation of a kernel in the thread's cluster. -/
def scratchAt (c : TCtx) : Nat := scratchDpa (thCluster c.th) + lookD c.k.offsets (thCluster c.th) 0

/-- Table bound to a window for the thread's item (R167, R276). -/
def boundTable (s : State) (c : TCtx) (w : Nat) : Option (Nat × Tbl) :=
  match c.j.rule with
  | some (ti, _) => if w = 4 then (tblOf s ti).map (fun t => (ti, t)) else tblByHandle s (c.k.tables.getD (w - 4) 0)
  | none => tblByHandle s (c.k.tables.getD (w - 4) 0)

/-- The target of `n` bytes at a kernel address, for a kind of access: 0 read, 1 write, 2 atomic; none: a WINDOW fault. -/
def resolve (s : State) (c : TCtx) (addr : SReg) (n kind : Nat) : Option Target :=
  let w := addr.toNat / 2 ^ 60
  let off := addr.toNat % 2 ^ 60
  if w = 0 then
    (if kind = 0 ∧ off + n ≤ c.k.codeLen then some (.mem ((List.range n).map (fun i => codeDpa c.k (off + i)))) else none)
  else if w = 1 then (if kind = 0 ∧ off + n ≤ c.j.args.length then some (.inside ((c.j.args.drop off).take n)) else none)
  else if w = 2 then (if off + n ≤ c.k.perCore then some (.scratch (scratchAt c + thCore c.th * c.k.perCore + off)) else none)
  else if w = 3 then (if off + n ≤ c.k.shared then some (.scratch (scratchAt c + 16 * c.k.perCore + off)) else none)
  else if w < 12 then
    (match boundTable s c w with
     | none => none
     | some (ti, t) =>
       let r := windowRegion off
       (allSome ((List.range n).map (fun i => windowByte t r.1 (r.2 + i)))).map (fun bs => .table ti r.1 bs))
  else if c.j.rule.isSome then
    (if w = 12 ∧ kind = 0 ∧ off + n ≤ c.j.grad.length then some (.inside ((c.j.grad.drop off).take n)) else none)
  else if kind = 2 then none
  else match c.j.buffers[w - 12]? with
    | some b => some (.client c.j.client ((b + off) % 2 ^ 64))
    | none => none

/-- What a memory access of a thread comes to. -/
inductive Acc (α : Type) where
  | ok (a : α) (s : State)
  | fault (kind : Nat) (s : State)
  /-- the course rules hold it (R164) -/
  | wait (s : State)

/-! ### L1 data (R156) -/

/-- A line of custody memory as a core reads it: from L1 where the line is still held there, else from memory into L1. -/
def readLine (core line : Nat) (s : State) : Bytes × State :=
  let fill := fun (s : State) =>
    let bs := readMem line 128 s
    (bs, setL1 core (lastN 1024 (put (l1Of s core) line bs)) s)
  match look (l1Of s core) line with
  | some bs => if Config.l1Keep s.draw then (bs, drawn s) else fill (drawn s)
  | none => fill s

/-- The bytes of some addresses through L1. -/
def readDpas (core : Nat) (dpas : List Nat) (s : State) : Bytes × State :=
  let r := ((dpas.map lineOf).eraseDups).foldl (fun (acc : List (Nat × Bytes) × State) l =>
    let x := readLine core l acc.2
    (acc.1 ++ [(l, x.1)], x.2)) (([] : List (Nat × Bytes)), s)
  (dpas.map (fun a => ((lookD r.1 (lineOf a) [])[a % 128]?).getD 0), r.2)

/-- A store updates the core's own copy of a line. -/
def l1Write (core : Nat) (w : List (Nat × Byte)) (s : State) : State :=
  if (l1Of s core).isEmpty then s
  else setL1 core ((l1Of s core).map (fun e => (e.1, w.foldl (fun bs x => if lineOf x.1 = e.1 then bs.set (x.1 % 128) x.2 else bs) e.2))) s

/-! ### Scratch parity (R142) -/

/-- A scratch word whose parity fails is marked bad and recorded. -/
def scratchParity (c : TCtx) (dpa : Nat) (s : State) : State :=
  let w := dpa / 8 * 8
  let b := match physCluster s (thCluster c.th) with | some (p, _) => blkCluster p | none => blkCluster 0
  if s.mem.badWords.contains w then s
  else recordCon b 0x0102 [w % 2 ^ 32, w / 2 ^ 32] (s.setMem { s.mem with badWords := s.mem.badWords ++ [w] })

/-! ### Table rows -/

/-- DPA of a byte of a table window; none while its block has no frame. -/
def tableDpa (s : State) (ti region : Nat) (b : Nat × Nat × Nat) : Option Nat :=
  (blkFrame s ti region b.2.1).map (fun f => f * frameBytes + b.2.2)

/-- Some byte lies in a line that fails, a row that stays poisoned or a block without a frame (R165, R628; log 206). -/
def tablePoison (s : State) (ti region : Nat) (bs : List (Nat × Nat × Nat)) : Bool :=
  bs.any (fun b => (match badRow (tblD s ti) b.1 with | some x => !x.repointing | none => false)
    || (match tableDpa s ti region b with | some a => lineFails s a | none => true))

/-- Some byte lies in a row under repointing, which its descriptor waits for (R287), or on a channel that retrains (R112). -/
def tableWaits (s : State) (ti region : Nat) (bs : List (Nat × Nat × Nat)) : Bool :=
  bs.any (fun b => (badRow (tblD s ti) b.1).isSome || (match tableDpa s ti region b with | some a => channelHeld s a | none => false))

def tableBlocks (region : Nat) (bs : List (Nat × Nat × Nat)) : List (Nat × Nat) := (bs.map (fun b => (region, b.2.1))).eraseDups

/-- Flags that an item raises for its descriptor, or for the forwarded index it serves (R274, R283, R288, R289). -/
def raiseFlags (o : JobOrigin) (f : Nat) (s : State) : State :=
  if f = 0 then s
  else match o with
    | .desc n seq => updProg n seq (fun p => { p with flags := p.flags ||| f }) s
    | .row n seq _ => updProg n seq (fun p => { p with flags := p.flags ||| f }) s
    | .forwarded dev token => s.setTab { s.tab with
        fwd := updFirst (fun (x : FwdWait) => x.dev == dev && x.token == token) (fun x => { x with raised := x.raised ||| f }) s.tab.fwd }

/-- An access of an item touches rows of a table: their heat, and what the completion tells of them. -/
def touchRows (c : TCtx) (ti region : Nat) (bs : List (Nat × Nat × Nat)) (s : State) : State :=
  let t := tblD s ti
  let cold := (tableBlocks region bs).any (fun x => match blkFrame s ti x.1 x.2 with | some f => !isHotFrame f | none => false)
  raiseFlags c.j.origin ((if bs.any (fun b => isRolled t b.1) then cfRolledBack else 0) + (if cold then cfCxl else 0))
    ((tableBlocks region bs).foldl (fun s x => heatUp ti x.1 x.2 s) s)

/-- The memory of a function or endpoint lies behind an isolated port block (R628). -/
def clientAway (s : State) (fid : Nat) : Bool := match portBlock s fid with | some b => isolated s b | none => false

/-- The client memory of an item is reset or gone, so that its accesses carry an old generation (R170), or it lies behind an isolated port block. -/
def staleClient (c : TCtx) (s : State) : Bool := c.j.gen != genOf s c.j.client || clientAway s c.j.client

/-- A core of a logical cluster, at port B of another cluster's bank, is answered WRITE_LOST: its own cluster's CL_WRITE_LOST counts it
(R138, R163, R196). -/
def writeLost (k : Nat) (s : State) : State :=
  match physCluster s k with | some (p, _) => bump (blkCluster p) 0x124 s | none => s

/-! ### Loads and stores -/

/-- The lines and words that fail while an access runs. -/
def memFaults (c : TCtx) (io : MemIo) (s : State) : State := io.parity.foldl (fun s w => scratchParity c w s) (lineFaults io.faults s)

/-- What goes with a write or an atomic of a thread: the lines and words that fail, and WRITE_LOST for a rival at port B of the scratch bank. The
thread's own access is port A's (W2 and W3 name its own cluster, R137), so it always has its effect (R138). -/
def storeFaults (c : TCtx) (io : MemIo) (addr : SReg) (n kind : Nat) (s : State) : State :=
  let s := memFaults c io s
  match io.rival, resolve s c addr n kind with
  | some k, some (.scratch _) => if k = thCluster c.th then s else writeLost k s
  | _, _ => s

/-- Loads `n` bytes; `ext` are the bytes client memory returns, `bad` that it refuses them. R180 has no fault kind for a word of scratch whose parity
fails: such an access ends the item with POISON (DESIGN CHOICE: log 209). A bad scratch word ends the item with POISON (DESIGN CHOICE, log 209). -/
def loadMem (c : TCtx) (addr : SReg) (n : Nat) (ext : Bytes) (bad : Bool) (s : State) : Acc Bytes :=
  match resolve s c addr n 0 with
  | none => .fault fkWindow s
  | some (.inside bs) => .ok bs s
  | some (.scratch a) => if badScratch s a n then .fault fkPoison s else .ok (readMem a n s) s
  | some (.mem as) =>
    if as.any (lineFails s) then .fault fkPoison s
    else if as.any (channelHeld s) then .wait s
    else let r := readDpas (coreKey c.th) as s; .ok r.1 r.2
  | some (.table ti region bs) =>
    if tablePoison s ti region bs then .fault fkPoison (touchRows c ti region bs s)
    else if tableWaits s ti region bs then .wait s
    else
      let s := touchRows c ti region bs s
      let r := readDpas (coreKey c.th) (bs.filterMap (tableDpa s ti region)) s; .ok r.1 r.2
  | some (.client _ _) => if bad || staleClient c s then .fault fkIo s else .ok ((ext ++ List.replicate n 0).take n) s

/-- Bytes of table rows may be stored now: no poison, nothing under repointing, and the course rules let them (R164). -/
def tableReady (c : TCtx) (ti region : Nat) (bs : List (Nat × Nat × Nat)) (s : State) : Acc Unit :=
  if tablePoison s ti region bs then .fault fkPoison (touchRows c ti region bs s)
  else if tableWaits s ti region bs then .wait s
  else if heldByFence s ti c.j.step then .wait s
  else match captureBefore ti c.j.step (tableBlocks region bs) s with
    | (s, some full) => .wait (if full then noteSpill c s else s)
    | (s, none) => .ok () s
where
  /-- the completion will tell of the wait (R274) -/
  noteSpill (c : TCtx) (s : State) : State :=
    let told := match c.j.origin with
      | .desc n seq => (cqpD s n).running.any (fun p => p.seq == seq && p.flags.testBit 3)
      | .row n seq _ => (cqpD s n).running.any (fun p => p.seq == seq && p.flags.testBit 3)
      | .forwarded dev token => s.tab.fwd.any (fun x => x.dev == dev && x.token == token && x.raised.testBit 3)
    if told then s
    else raiseFlags c.j.origin cfSpillWait (s.setCourse { s.course with spillWaits := (s.course.spillWaits + 1) % 2 ^ 32 })

/-- Bytes stored to table rows, once they may be: both frames of a block that moves take them (R131, R164). -/
def storeTable (c : TCtx) (ti region : Nat) (bs : List (Nat × Nat × Nat)) (data : Bytes) (s : State) : Acc Unit :=
  match tableReady c ti region bs s with
  | .ok _ s =>
    let w := bs.zip data
    let s := l1Write (coreKey c.th) (w.filterMap (fun x => (tableDpa s ti region x.1).map (fun a => (a, x.2)))) s
    let s := w.foldl (fun s x => match blkFind s ti region x.1.2.1 with
      | some b => writeBlk b x.1.2.2 [x.2] s
      | none => s) s
    .ok () (noteStep ti c.j.step (touchRows c ti region bs s))
  | r => r

/-- Scratch words that are written hold good parity again; a store of part of an 8-byte word makes the whole word good (DESIGN CHOICE: log 209). A store of part of a bad word clears the mark of the whole word (DESIGN CHOICE, log 209). -/
def storeScratch (dpa : Nat) (data : Bytes) (s : State) : State :=
  let s := setCells (memPutBytes s.mem.cells dpa data) s
  s.setMem { s.mem with badWords := s.mem.badWords.filter (fun w => !decide (w < dpa + data.length ∧ dpa < w + 8)) }

/-- Stores bytes; `bad`: client memory refuses the access. A store to scratch is port A's, and is always stored (R138). -/
def storeMem (c : TCtx) (addr : SReg) (data : Bytes) (bad : Bool) (s : State) : Acc Unit :=
  match resolve s c addr data.length 1 with
  | none => .fault fkWindow s
  | some (.inside _) => .fault fkWindow s
  | some (.mem _) => .fault fkWindow s
  | some (.scratch a) => .ok () (storeScratch a data s)
  | some (.table ti region bs) => storeTable c ti region bs data s
  | some (.client fid a) => if bad || staleClient c s then .fault fkIo s else .ok () (dmaOut fid a data s)

/-- An atomic of `n` aligned bytes at its point of coherence: the old bytes, with what `f` makes of them stored (R159 to R163);
`f` answers none where nothing is stored. One on scratch is port A's, and its result is always stored (R138). A misaligned one faults with ALIGN
whatever its window: R160 names ALIGN and R211 WINDOW for one through W12 to W15, with no order between them (DESIGN CHOICE: log 212). ALIGN comes before WINDOW (DESIGN CHOICE, log 212). -/
def atomicMem (c : TCtx) (addr : SReg) (n : Nat) (f : Bytes → Option Bytes) (s : State) : Acc Bytes :=
  if addr.toNat % n ≠ 0 then .fault fkAlign s
  else match resolve s c addr n 2 with
    | none => .fault fkWindow s
    | some (.inside _) => .fault fkWindow s
    | some (.mem _) => .fault fkWindow s
    | some (.client _ _) => .fault fkWindow s
    | some (.scratch a) =>
      if badScratch s a n then .fault fkPoison s
      else
        let old := readMem a n s
        .ok old (match f old with | some bs => storeScratch a bs s | none => s)
    | some (.table ti region bs) =>
      if tablePoison s ti region bs then .fault fkPoison (touchRows c ti region bs s)
      else if tableWaits s ti region bs then .wait s
      else
        let dpas := bs.filterMap (tableDpa s ti region)
        let old := dpas.map (memGet s.mem.cells)
        let s := (dpas.map lineOf).eraseDups.foldl (fun s l => l1Drop (coreKey c.th) l s) s
        match f old with
        | none => .ok old (touchRows c ti region bs s)
        | some new => match storeTable c ti region bs new s with
          | .ok _ s => .ok old s
          | .fault k s => .fault k s
          | .wait s => .wait s

/-- An atomic of `n` aligned bytes may be performed now. -/
def atomicReady (c : TCtx) (addr : SReg) (n : Nat) (s : State) : Acc Unit :=
  match resolve s c addr n 2 with
  | some (.scratch a) => if badScratch s a n then .fault fkPoison s else .ok () s
  | some (.table ti region bs) => tableReady c ti region bs s
  | _ => .fault fkWindow s

end Sys2Proof.Machine
end

