-- ==== Sys2Proof/Machine/Threads.lean ====
section
/-! DEFINITION. The running of a mason thread: its registers, the issue of one instruction, block repeat sequencing (R216 to R222), and the end of an item (R158, R178 to R180). -/

namespace Sys2Proof.Machine

open Sys2Proof

/-! ### Registers (R198) -/

/-- A scalar register; s0 reads as zero. -/
def getS (t : Thread) (r : Fin 32) : SReg := if r = 0 then 0 else t.s.get r
/-- A write to a scalar register; one to s0 is discarded. -/
def setS (r : Fin 32) (v : SReg) (t : Thread) : Thread := if r = 0 then t else { t with s := t.s.set r v }
def getV (t : Thread) (r : Fin 16) : VReg := t.v.get r
def setV (r : Fin 16) (v : VReg) (t : Thread) : Thread := { t with v := t.v.set r v }
/-- A mask register; m0 reads as all ones. -/
def getM (t : Thread) (r : Fin 8) : SReg := if r = 0 then BitVec.allOnes 64 else t.m.get r
/-- A write to a mask register; one to m0 is discarded. -/
def setM (r : Fin 8) (v : SReg) (t : Thread) : Thread := if r = 0 then t else { t with m := t.m.set r v }

/-- s16 to s23, by a primed field of the short forms (R206). -/
def primed (r : Fin 8) : Fin 32 := ⟨16 + r.val, by omega⟩

/-! ### Block repeat (R216 to R220) -/

def lcStart (lc : SReg) : SReg := lc >>> 32
def lcActive (lc : SReg) : Bool := lc.getLsbD 31
def lcCreg (lc : SReg) : Fin 32 := (lc.extractLsb' 5 5).toFin
def lcLen (lc : SReg) : Nat := (lc.extractLsb' 0 5).toNat
/-- lc with ACTIVE cleared. -/
def lcOff (lc : SReg) : SReg := lc &&& ~~~(0x80000000#64)
/-- lc for a block of n instructions at a byte address, counted by a register. -/
def lcOn (start : SReg) (creg : Fin 32) (n : Nat) : SReg :=
  ((start >>> 1) <<< 32) ||| 0x80000000#64 ||| BitVec.ofNat 64 (creg.val * 32 + (n - 1))

/-- What follows an instruction that did not redirect the pc: the next instruction, or the next pass of a repeated block. -/
def advance (len : Nat) (t : Thread) : Thread :=
  let pc := t.pc + BitVec.ofNat 64 len
  if !lcActive t.lc then { t with pc := pc }
  else if t.lpos.toNat < lcLen t.lc then { t with pc := pc, lpos := t.lpos + 1 }
  else
    let r := lcCreg t.lc
    if getS t r ≤ 1 then { setS r 0 t with pc := pc, lc := lcOff t.lc, lpos := 0 }
    else { setS r (getS t r - 1) t with pc := lcStart t.lc <<< 1, lpos := 0 }

/-- A jump ends a block repeat. -/
def jumpTo (target : SReg) (t : Thread) : Thread := { t with pc := target, lc := lcOff t.lc, lpos := 0 }

/-! ### The end of an item (R179, R180) -/

/-- The item of a custom rule has faulted: its row is left as it was, and a key inserted for it is gone (R262). -/
def rowUndone (ti row : Nat) (j : Job) (s : State) : State :=
  let t := tblD s ti
  let s := [0, 1, 2].foldl (fun s r => writeRow ti t r row (j.before.getD r []) s) s
  if j.fresh then writeRow ti t 3 row (leBytes 8 emptyKey) s else s

/-- Every item of a job has ended: its descriptor, row or forwarded index completes. -/
def jobDone (j : Job) (s : State) : State :=
  let s := s.setMason { s.mason with jobs := s.mason.jobs.filter (fun x => x.id != j.id) }
  let ruled := fun (s : State) => match j.rule, j.fault with
    | some (ti, row), none => wroteRegions ti row 3 (countUpdate ti s)
    | some (ti, row), some _ => rowUndone ti row j s
    | none, _ => s
  let status := if j.fault.isSome then csKernelFault else csOk
  let kind := match j.fault with | some x => leBytes 1 x.2 | none => []
  match j.origin with
  | .desc n seq => kernelComplete n seq j.halted j.fault s
  | .row n seq k => gotIndex n seq k status 0 kind (ruled s)
  | .forwarded dev token =>
    let raised := match s.tab.fwd.find? (fun x => x.dev == dev && x.token == token) with | some x => x.raised | none => 0
    sendDomain dev (.indexResult token status raised kind)
      ((ruled s).setTab { (ruled s).tab with fwd := dropFirst (fun (x : FwdWait) => x.dev == dev && x.token == token) (ruled s).tab.fwd })

/-- Items of a job end: so many, some of them without a fault, or with the lowest faulting one and its kind. -/
def itemsEnd (id n halted : Nat) (fault : Option (Nat × Nat)) (s : State) : State :=
  let worse := fun (a b : Option (Nat × Nat)) => match a, b with
    | some x, some y => if y.1 < x.1 then some y else some x
    | some x, none => some x
    | none, y => y
  let s := updJob id (fun j => { j with ended := j.ended + n, halted := j.halted + halted, fault := worse j.fault fault }) s
  match s.mason.jobs.find? (fun j => j.id == id) with
  | some j => if j.items ≤ j.ended then jobDone j s else s
  | none => s

/-- The item of a thread ends, without a fault or with one; the slot takes the next item. -/
def endItem (c : TCtx) (fault : Option Nat) (s : State) : State :=
  let s := s.setMason { s.mason with threads := del s.mason.threads c.th }
  settle (itemsEnd c.t.job 1 (bit fault.isNone) (fault.map (fun k => (c.t.item, k))) s)

/-! ### Issue -/

/-- What an instruction does to its thread. -/
inductive Flow where
  /-- the thread goes on with the next instruction -/
  | next (t : Thread) (s : State)
  /-- a jump or taken branch -/
  | jump (t : Thread) (target : SReg) (s : State)
  /-- the thread stands exactly so: a repeat has begun, or the instruction waits or is only partly done -/
  | keep (t : Thread) (s : State)
  /-- the item ends without a fault -/
  | halt (s : State)
  | fault (kind : Nat) (s : State)

/-- Physical cluster and core of a thread slot. -/
def physOf (s : State) (th : Nat) : Option (Nat × Nat) :=
  (physCluster s (thCluster th)).bind (fun e => (physCore e.2 (thCore th)).map (fun c => (e.1, c)))

/-- The slot that an instruction issued in on a thread's core, the scalar or the vector one, has retired it, or has wasted it (R642). The counts are kept
while counters exist that can show them, until the tick that classes the cycles. -/
def slotUsed (vec wasted : Bool) (th : Nat) (s : State) : State :=
  match physOf s th with
  | none => s
  | some (p, c) =>
    if s.perf.isEmpty then s
    else
      let k := (p * 32 + c) * 2 + bit vec
      let n := lookD s.mason.slots k (0, 0)
      s.setMason { s.mason with slots := put s.mason.slots k (n.1 + bit (!wasted), n.2 + bit wasted) }

/-- A thread issues an instruction of `len` bytes in one of its core's two slots; one that does not lie within W0 faults with WINDOW (R200). An
instruction that waits has not issued. A fetch from a poisoned line never faults (DESIGN CHOICE, log 218). -/
def issueIn (vec : Bool) (th len : Nat) (f : TCtx → State → Flow) (s : State) : State :=
  match tctx s th with
  | none => s
  | some c =>
    if c.k.codeLen < c.t.pc.toNat + len then endItem c (some fkWindow) s
    else match f c s with
      | .next t s => setThread th (advance len t) (slotUsed vec false th s)
      | .jump t target s => setThread th (jumpTo target t) (slotUsed vec false th s)
      | .keep t s => settle (setThread th t s)
      | .halt s => endItem c none (slotUsed vec false th s)
      | .fault k s => endItem c (some k) (slotUsed vec true th s)

/-- An instruction of the scalar slot, and one of the vector slot: the V, VS, VM and VX formats (log 179). -/
def issue (th len : Nat) (f : TCtx → State → Flow) (s : State) : State := issueIn false th len f s
def issueV (th len : Nat) (f : TCtx → State → Flow) (s : State) : State := issueIn true th len f s

/-- An instruction that is undefined with its operands faults with ILLEGAL (R205). -/
def orIllegal (bad : Bool) (s : State) (k : Flow) : Flow := if bad then .fault fkIllegal s else k

/-- An instruction that writes registers only. -/
def pureOp (th len : Nat) (f : Thread → Thread) (s : State) : State := issue th len (fun c s => .next (f c.t) s) s
def pureOpV (th len : Nat) (f : Thread → Thread) (s : State) : State := issueV th len (fun c s => .next (f c.t) s) s

end Sys2Proof.Machine
end

