-- ==== Sys2Proof/Machine/MasonCmds.lean ====
section
/-! DEFINITION. The commands and events of the mason array (chapter 4): loading and unloading kernels, residue and parity failures, and the sparing out of cores and clusters. -/

namespace Sys2Proof.Machine

open Sys2Proof

/-! ### KERNEL_LOAD (R172 to R176) -/

/-- The header checks of a kernel image. -/
def imageChecks (im : Bytes) : List (Bool × Nat × Nat) :=
  let off := le im 8 4; let len := le im 0xC 4; let entry := le im 0x10 4
  let outside := decide (off % 64 ≠ 0 ∨ len % 2 ≠ 0 ∨ entry % 2 ≠ 0 ∨ im.length < off + len ∨ len ≤ entry)
  [(le im 0 4 != 0x4B444E4C, stIntegrity, dtNone),
   (le im 4 2 != 1 || le im 6 2 != 1, stVersion, dtNone),
   (outside, stBadAddress, dtField 0),
   (le im 0x14 4 != (crc32c ((im.drop off).take len)).toNat, stIntegrity, dtNone)]

/-- Thread slots that kernels hold. -/
def heldSlots (s : State) : List Nat := (s.mason.kernels.map (fun e => e.2.slots)).flatten

/-- Free thread slots of a core. -/
def freeSlots (s : State) (core : Nat) : List Nat := ((List.range 64).map (core * 64 + ·)).filter (fun x => !(heldSlots s).contains x)

/-- Logical cores of a unit that are present. -/
def liveCores (u : ClusterSt) : List Nat := (List.range 16).filter (fun c => (physCore u c).isSome)

/-- Every kernel on a core is of one owner. -/
def coreOwner (s : State) (core owner : Nat) : Bool :=
  s.mason.kernels.all (fun e => e.2.owner == owner || !(e.2.slots.map coreKey).contains core)

/-- Lowest offset in a cluster's scratch at which a piece fits beside the pieces held there. -/
def scratchFit (s : State) (k size : Nat) : Option Nat :=
  if s.mem.hotTotal = 0 ∧ 12 ≤ k then none else
  let used := (s.mason.kernels.filterMap (fun e => (look e.2.offsets k).map (fun o => (o, o + kernelScratch e.2))))
  let cand := sortBy (fun a b => decide (a ≤ b)) ((0 :: used.map (·.2)).filter (fun o =>
    decide (o + size ≤ 0x400000) && used.all (fun u => decide (o + size ≤ u.1 ∨ u.2 ≤ o))))
  if size = 0 then some 0 else cand.head?

/-- A logical cluster can take a kernel of an owner. -/
def clusterFits (s : State) (owner threads size k : Nat) : Bool :=
  match physCluster s k with
  | none => false
  | some (p, u) =>
    !isolated s (blkCluster p) && !(liveCores u).isEmpty
      && (liveCores u).all (fun c => coreOwner s (k * 16 + c) owner && decide (threads ≤ (freeSlots s (k * 16 + c)).length))
      && (scratchFit s k size).isSome

/-- The slots of a placement in the order items take them: clusters in turn, then cores, then further slots of each core (R177). -/
def placeSlots (s : State) (clusters : List Nat) (threads : Nat) : List Nat :=
  ((List.range threads).map (fun j => ((List.range 16).map (fun c => clusters.filterMap (fun k =>
    match physCluster s k with
    | some (_, u) => if (physCore u c).isSome then (freeSlots s (k * 16 + c))[j]? else none
    | none => none))).flatten)).flatten

/-- Code and constants are written into the frames taken for them. -/
def writeCode (frames : List Nat) (code : Bytes) (s : State) : State :=
  frames.zipIdx.foldl (fun s f => writeFresh (f.1 * frameBytes) ((code.drop (f.2 * frameBytes)).take frameBytes) s) s

/-- The kernel that a parameter block asks for, with every field in effect (R173). -/
def askedKernel (c : Ctx) : Kernel :=
  let per := roundUp 4096 (clampN 0 262144 (c.p 0x10 4))
  { handle := 0, owner := c.iss.owner, threads := clampN 1 64 (c.p 0xD 1), prio := clampN 0 3 (c.p 0xE 1), perCore := per,
    shared := roundUp 4096 (clampN 0 (0x400000 - 16 * per) (c.p 0x14 4)), watchdogMs := clampN 1 60000 (c.p 0x18 4),
    tables := (List.range 8).map (fun i => c.p (0x20 + 4 * i) 4) }

/-- A kernel is placed on the lowest clusters that fit it and its code is copied in; none where there is no placement. -/
def placeKernel (k : Kernel) (n : Nat) (im : Bytes) (s : State) : Option (Kernel × State) :=
  let cl := ((List.range 16).filter (clusterFits s k.owner k.threads (kernelScratch k))).take n
  let len := le im 0xC 4
  match lowest 256 (fun i => !has s.mason.kernels i) with
  | some ki =>
    if cl.length < n ∨ quotaOf s k.owner < quotaUsed s k.owner + ceilDiv len frameBytes then none
    else (takeUseFrames (.kernel ki) (ceilDiv len frameBytes) s).map (fun a =>
      let k := { k with handle := ((fnD s k.owner).slot.getD 0) % 1024 * 2 ^ 22 + ki * 2 ^ 10 + lookD s.mason.gens ki 1,
                        frames := a.1, codeLen := len, entry := le im 0x10 4, clusters := cl, slots := placeSlots s cl k.threads,
                        offsets := cl.map (fun x => (x, (scratchFit s x (kernelScratch k)).getD 0)) }
      let s := writeCode a.1 ((im.drop (le im 8 4)).take len) a.2
      (k, s.setMason { s.mason with kernels := put s.mason.kernels ki k }))
  | none => none

/-! ### Sparing a core out (R190 to R192, R194) -/

/-- Logical core number over the array of a physical core. -/
def logicalCore (s : State) (p c : Nat) : Option Nat :=
  if (unitOf s p).logical < 16 then ((unitOf s p).cores.idxOf? c).map (fun i => (unitOf s p).logical * 16 + i) else none

/-- A thread that has lost its core takes a free slot of its kernel, or its state is saved (R192). The core it comes to has none of its lines
cached (R191). -/
def moveThread (ki : Nat) (t : Thread) (s : State) : State :=
  match (look s.mason.kernels ki).bind (fun k => k.slots.find? (fun th => !has s.mason.threads th && coreUp s th)) with
  | some th => l1Clear (coreKey th) (setThread th t s)
  | none => s.setMason { s.mason with saved := s.mason.saved ++ [t] }

/-- Threads of a logical core go to other cores of their kernels; the core's slots are gone, and its pieces of scratch are zeroed (R171). -/
def abandonCore (k : Nat) (s : State) : State :=
  let mine := s.mason.threads.filter (fun e => coreKey e.1 == k)
  let pieces := (s.mason.kernels.filter (fun e => (e.2.slots.map coreKey).contains k)).map (fun e =>
    (scratchDpa (k / 16) + lookD e.2.offsets (k / 16) 0 + k % 16 * e.2.perCore, e.2.perCore))
  let s := s.setMason { s.mason with
    threads := s.mason.threads.filter (fun e => coreKey e.1 != k),
    kernels := s.mason.kernels.map (fun e => (e.1, { e.2 with slots := e.2.slots.filter (fun x => coreKey x != k) })) }
  let s := pieces.foldl (fun s p => zeroScratch p.1 p.2 s) s
  mine.foldl (fun s e => match s.mason.jobs.find? (fun j => j.id == e.2.job) with
    | some j => moveThread j.kernel e.2 s
    | none => s) s

/-- A stopped core has reached its safe point: the spare core takes its logical index and the CON is acknowledged, or the cluster goes on without
the core, which is logged all the same. -/
def coreSafe (cluster core : Nat) (s : State) : State :=
  if !s.mason.stopping.contains (cluster, core) then s
  else
    let u := unitOf s cluster
    let lk := logicalCore s cluster core
    let s := s.setMason { s.mason with stopping := s.mason.stopping.filter (· != (cluster, core)) }
    let s := match lk with | some k => l1Clear k s | none => s
    let u := { u with active := u.active - (if u.active.testBit core then 2 ^ core else 0), failed := u.failed ||| 2 ^ core }
    let swap := fun (x : Nat) => u.cores.map (fun c => if c = core then x else c)
    if u.spare ≠ 31 then
      settle (logSpare (blkCluster cluster) 4 core 0
        (ackSpare (blkCluster cluster) (setUnit cluster { u with cores := swap u.spare, active := u.active ||| 2 ^ u.spare, spare := 31 } s)))
    else
      let s := logPolicy (blkIsland (blkCluster cluster)) 7 4 (blkCluster cluster) core 31 (setUnit cluster { u with cores := swap 31 } s)
      settle (match lk with | some k => abandonCore k s | none => s)

/-- A sparing event that is under way in clusters that a command touches runs first (R195; log 176). -/
def spareFirst (clusters : List Nat) (s : State) : State :=
  (s.mason.stopping.filter (fun x => clusters.contains (unitOf s x.1).logical)).foldl (fun s x => coreSafe x.1 x.2 s) s

/-- KERNEL_LOAD. -/
def hKernelLoad : Handler := fun c s =>
  let len := c.p 8 4
  let n := clampN 1 16 (c.p 0xC 1)
  let im := (c.pkt.dma.getD []).take len
  let k := askedKernel c
  let foreign := fun (i : Nat) => c.p (0x20 + 4 * i) 4 != 0 &&
    !(match tblByHandle s (c.p (0x20 + 4 * i) 4) with | some (_, t) => t.owner == c.iss.owner | none => false)
  checked s
    ([(c.pkt.dma.isNone, stBadAddress, dtField 0), (decide (len < 64 ∨ 1048576 < len), stBadAddress, dtField 8)]
      ++ (List.range 8).map (fun i => (foreign i, stBadHandle, dtField (0x20 + 4 * i))) ++ imageChecks im)
    (match placeKernel k n im (spareFirst (List.range 16) s) with
     | none => Res.rej s stNoResource dtNone
     | some (k, s') =>
       Res.ok s' (c.differs [(0xC, 1, n), (0xD, 1, k.threads), (0xE, 1, k.prio), (0x10, 4, k.perCore), (0x14, 4, k.shared),
           (0x18, 4, k.watchdogMs)])
         (layout 32 [(0, 4, k.handle), (4, 1, n), (5, 1, k.threads), (6, 1, k.prio), (8, 4, k.perCore), (0xC, 4, k.shared),
           (0x10, 4, k.watchdogMs), (0x14, 4, k.codeLen), (0x18, 2, (k.clusters.map (2 ^ ·)).sum)]))

/-! ### KERNEL_UNLOAD (R181, R183) -/

/-- Some rule of a kernel holds it: one that a table names, or one registered whose last table has not been destroyed (R183). -/
def ruleHeld (s : State) (ki : Nat) : Bool :=
  s.tab.rules.any (fun r => r.2.kernel == ki && (!r.2.spent || s.tab.tbls.any (fun e => e.2.rule == 15 && e.2.ruleId == r.1)))

/-- Items of a kernel, of the jobs a test names, that have not been handed out end with ENDED. -/
def endUnstarted (p : Job → Bool) (ki : Nat) (s : State) : State :=
  (s.mason.jobs.filter (fun j => j.kernel == ki && p j && decide (j.next < j.items))).foldl (fun s j =>
    itemsEnd j.id (j.items - j.next) 0 (some (j.next, fkEnded)) (updJob j.id (fun x => { x with next := x.items }) s)) s

/-- Descriptors that name a kernel and have not started complete with ENDED and a count of 0. -/
def endWaiting (handle : Nat) (s : State) : State :=
  s.tab.cqps.foldl (fun s e =>
    (e.2.waiting.filter (fun w => w.2.1.opcode == 7 && w.2.1.handle == handle)).foldl (fun s w =>
      postCqe e.1 w.2.1 0 csKernelFault fkEnded 0
        (updCqp e.1 (fun q => { q with waiting := q.waiting.filter (fun x => x.1 != w.1) }) s)) s) s

/-- No more items of a kernel start. -/
def stopKernel (ki : Nat) (s : State) : State :=
  match look s.mason.kernels ki with
  | none => s
  | some k => endWaiting k.handle (endUnstarted (fun _ => true) ki
      ((s.setMason { s.mason with kernels := put s.mason.kernels ki { k with unloading := true } }).setTab
        { s.tab with rules := s.tab.rules.filter (fun r => r.2.kernel != ki) }))

/-- Running items of a kernel, of the jobs a test names, end with ENDED. -/
def endRunning (p : Job → Bool) (ki : Nat) (s : State) : State :=
  let mine := fun (t : Thread) => s.mason.jobs.any (fun j => j.id == t.job && j.kernel == ki && p j)
  let gone := (s.mason.threads.filter (fun e => mine e.2)).map (·.2) ++ s.mason.saved.filter mine
  gone.foldl (fun s t => itemsEnd t.job 1 0 (some (t.item, fkEnded)) s)
    (s.setMason { s.mason with threads := s.mason.threads.filter (fun e => !mine e.2), saved := s.mason.saved.filter (fun t => !mine t) })

/-- Logical clusters of a kernel. -/
def kernelClusters (s : State) (ki : Nat) : List Nat := ((look s.mason.kernels ki).map (·.clusters)).getD []

/-- A kernel is unloaded at once, every item of it ended (R182). -/
def killKernel (ki : Nat) (s : State) : State :=
  releaseKernel ki (endRunning (fun _ => true) ki (stopKernel ki (spareFirst (kernelClusters s ki) s)))

/-- The items of KERNEL descriptors of a kernel that a rule holds end with ENDED; its rule items run on (R182, R183). -/
def endDescItems (ki : Nat) (s : State) : State :=
  endRunning (fun j => j.rule.isNone) ki (endUnstarted (fun j => j.rule.isNone) ki s)

/-- KERNEL_UNLOAD: the count of its reply is that of the items ended and running. -/
def hKernelUnload : Handler := fun c s =>
  match kernelByHandle s (c.p 0 4) with
  | none => Res.rej s stBadHandle (dtField 0)
  | some (ki, k) =>
    if !mayName c k.owner || k.unloading then Res.rej s stBadHandle (dtField 0)
    else if ruleHeld s ki then Res.rej s stBusy dtNone
    else
      let n := ((s.mason.jobs.filter (fun j => j.kernel == ki)).map (fun j => j.items - j.ended)).sum
      let s := stopKernel ki (spareFirst k.clusters s)
      if kernelBusy s ki then .later (addWait c .destroy ki n s) dtNone (layout 8 [(0, 4, k.handle), (4, 4, n)])
      else Res.ok (settle (releaseKernel ki s)) false (layout 8 [(0, 4, k.handle), (4, 4, n)])

/-- A KERNEL descriptor is submitted (R177). -/
def execKernel (queue : Nat) (desc : Desc) (io : DescIo) (s : State) : Host.Outcome State Fault Refusal :=
  .next (thawed s <| submit queue 7 desc io s)

/-! ### Failures of a core (R186, R188, R189) -/

/-- A core stops issuing. -/
def stopCore (p c : Nat) (s : State) : State :=
  if s.mason.stopping.contains (p, c) then s else s.setMason { s.mason with stopping := s.mason.stopping ++ [(p, c)] }

/-- A residue mismatch: a replay passed, or the third one stopped the core. -/
def execResidueMismatch (th : Nat) (third : Bool) (s : State) : Host.Outcome State Fault Refusal :=
  .next (match tctx s th, physOf s th with
    | some x, some (p, c) =>
      let s := slotUsed (nextIsVector s x) true th s
      if third then stopCore p c ((if (unitOf s p).spare = 31 then recordCon else sparingCon) (blkCluster p) 0x0101 [c, th % 64] (bump (blkCluster p) 0x114 s))
      else recordCor (blkCluster p) 0x0100 [c, th % 64] (bump (blkCluster p) 0x110 s)
    | _, _ => s)

/-- A register read fails parity: the item faults, and a second such fault on the core within 1 s stops it. -/
def execRegisterParityFault (th : Nat) (s : State) : Host.Outcome State Fault Refusal :=
  .next (match tctx s th, physOf s th with
    | some x, some (p, c) =>
      let t := now s (blkIsland (blkCluster p))
      let again := s.mason.parityFails.any (fun e => e.1 == p * 32 + c && decide (t ≤ e.2 + 1000000000))
      let s := s.setMason { s.mason with parityFails := put s.mason.parityFails (p * 32 + c) t }
      let s := if again then stopCore p c s else s
      endItem x (some fkParity) s
    | _, _ => s)

/-- An L1 line fails parity, is dropped and fetched again; which SRAM and row it lay in the part alone knows. -/
def execL1ParityRefetch (cluster core line : Nat) (instruction : Bool) (s : State) : Host.Outcome State Fault Refusal :=
  .next (match logicalCore s cluster core with
    | some k =>
      recordCor (blkCluster cluster) 2 [Config.freeNat s.draw, Config.freeNat (s.draw + 1)]
        (bump (blkCluster cluster) 0x118 (if instruction then drawn (drawn s) else l1Drop k (lineOf line) (drawn (drawn s))))
    | none => s)

/-! ### Sparing out (R190 to R194, R197) -/

/-- Cores of a cluster on the way out. -/
def stoppingIn (s : State) (p : Nat) : Nat := (s.mason.stopping.filter (fun x => x.1 == p)).length

/-- CL_SPARE_REQ.CORE: each active core named stops while a spare core remains for it; any other such write is counted. How much a refused write counts is a DESIGN CHOICE (log 217). -/
def clSpareReq (who : Requester) (cluster mask : Nat) (s : State) : State :=
  let off := blkBase (blkCluster cluster) + 0x11C
  if 16 < cluster ∨ !trusted who then countUnmapped off s
  else ((List.range 17).filter (fun c => mask.testBit c)).foldl (fun s c =>
    if (unitOf s cluster).active.testBit c && (unitOf s cluster).spare != 31 && stoppingIn s cluster == 0 then stopCore cluster c s
    else countUnmapped off s) s

def execClSpareReq (who : Requester) (cluster : Nat) (mask : BitVec 17) (s : State) : Host.Outcome State Fault Refusal :=
  .next (clSpareReq who cluster mask.toNat s)

/-- A stopped core reaches its safe point. -/
def execCoreSafePoint (cluster core : Nat) (s : State) : Host.Outcome State Fault Refusal := .next (coreSafe cluster core s)

/-- The spare cluster: good, and without a logical index. -/
def spareCluster (s : State) : Option (Nat × ClusterSt) :=
  s.mason.units.find? (fun e => e.2.logical == 0xFF && decide (e.2.active ≠ 0))

/-- A logical cluster passes to the spare cluster; scratch words that fail parity in the copy arrive marked bad (R141, R193). A word that fails parity in the copy records its CON in the spare cluster (DESIGN CHOICE, log 217). -/
def spareOutCluster (k : Nat) (badWords : List Nat) (s : State) : State :=
  match physCluster s k, spareCluster s with
  | some (p, u), some (q, v) =>
    let s := setUnit q { v with logical := k } (setUnit p { u with logical := 0xFF, active := 0, failed := 0x1FFFF, spare := 31 } s)
    let s := s.setMason { s.mason with l1 := s.mason.l1.filter (fun e => e.1 / 16 != k),
                                       stopping := s.mason.stopping.filter (fun x => x.1 != p) }
    let s := (badWords.filter (fun w => decide (scratchDpa k ≤ w ∧ w < scratchDpa (k + 1)))).foldl (fun s w =>
      let w := w / 8 * 8
      recordCon (blkCluster q) 0x0102 [w % 2 ^ 32, w / 2 ^ 32]
        (if s.mem.badWords.contains w then s else s.setMem { s.mem with badWords := s.mem.badWords ++ [w] })) s
    settle (logSpare (blkCluster p) 4 p 0 (ackSpare (blkCluster p) s))
  | _, _ => s

def execClusterSpareOut (logical : Nat) (badWords : List Nat) (s : State) : Host.Outcome State Fault Refusal :=
  .next (spareOutCluster logical badWords s)

end Sys2Proof.Machine
end

