-- ==== Sys2Proof/Machine/Security.lean ====
section
/-! DEFINITION. Security (chapter 13): alarms, keys, life cycle, attestation, SPDM and IDE. -/

namespace Sys2Proof.Machine

open Sys2Proof

/-! ### Details (R618) -/

def dtAlarmActive : Nat := 0x0161
def dtTamperStuck : Nat := 0x0162
def dtClearForbidden : Nat := 0x0163
def dtWrapAuth : Nat := 0x0164
def dtWeakKey : Nat := 0x0165
def dtToken : Nat := 0x0166
def dtEpochExhausted : Nat := 0x0168
def dtKeyInUse : Nat := 0x0169
def dtOwnerChanges : Nat := 0x016A

/-! ### Status (R615, R616) -/

def tamperInput (s : State) : Input := lookD s.pins.inputs 20 {}
def keysHeld (s : State) : Nat := (s.sec.keys.filter (fun e => e.2.material.isSome)).length
def keysEmpty (s : State) : Nat := s.sec.keys.length - keysHeld s

/-- CX_ALARM[6:0]. -/
def alarmReg (s : State) : Nat := s.sec.alarm % 32 + bit (keysHeld s == 0) * 32 + bit (tamperInput s).stuck * 64

/-- Registers of the cipher engine and vault control block that show state held elsewhere. -/
def cipherReg (s : State) (rel : Nat) : Option Nat :=
  match rel with
  | 0x100 => some (s.sec.ownerChanges % 16 * 16 + s.sec.lifecycle % 8)
  | 0x104 => some (s.boot.running.svn % 128 * 65536 + s.sec.svnMin % 128)
  | 0x108 => some (alarmReg s)
  | 0x10C => some (s.sec.epoch % 256)
  | 0x124 => some (keysHeld s % 2 ^ 14)
  | 0x128 => some (s.sec.jtag % 4)
  | _ => none

/-- A challenge is issued: to a privileged issuer a new one, which ends the one before; to others zero. -/
def hSecurityStatus : Handler := fun c s =>
  let ch := if c.iss.priv then Config.freeNat s.draw % 2 ^ 64 else 0
  let s' := if c.iss.priv then drawn (s.setSec { s.sec with challenge := some ch }) else s
  Res.ok s' false (layout 64 [(0, 1, s.sec.lifecycle), (1, 1, s.sec.ownerChanges), (2, 1, alarmReg s), (3, 1, s.sec.epoch), (4, 1, s.sec.svnMin),
    (5, 1, s.boot.running.svn), (6, 1, s.sec.jtag), (8, 8, ch), (0x10, 2, keysHeld s), (0x12, 2, keysEmpty s),
    (0x14, 1, (domainKeys s).length), (0x15, 1, (s.sec.ide.filter (·.secure)).length)])

/-! ### Alarms (R576, R607 to R611) -/

/-- An alarm source raises its bit, and what waits on the keys goes on. -/
def raiseAlarm (k : Nat) (s : State) : State := stoSettle (alarmCore k s)

/-- ALARM. -/
def execAlarm (source : Nat) (s : State) : Host.Outcome State Fault Refusal := .next (if source < 5 then raiseAlarm source s else s)

/-- TAMPER_N after input conditioning: its assertion raises the alarm. -/
def setTamper (on : Bool) (s : State) : State :=
  let i := tamperInput s
  let s := s.setPins { s.pins with inputs := put s.pins.inputs 20 { i with active := on, since := nowAon s } }
  if on && !i.active then raiseAlarm 0 s else s

def execTamperN (asserted : Bool) (s : State) : Host.Outcome State Fault Refusal := .next (setTamper asserted s)

/-- SEALED_COPIES_ERASED. -/
def execSealedCopiesErased (s : State) : Host.Outcome State Fault Refusal :=
  .next (if s.sec.sealedCopies then emit (.flash "sealed keys erased" []) (s.setSec { s.sec with sealedCopies := false }) else s)

/-- The key ladder derives the identity keys. -/
def deriveIdentity (s : State) : State :=
  if s.sec.alarm = 0 then
    s.setSec { s.sec with identity := true, deviceKey := true, provisionKey := true, alias_ := Config.aliasKey s.sec.lifecycle s.boot.running.buildId s.pins.latched }
  else s

/-- CX_ALARM_CLEAR: writing 1 clears a bit; TAMPER stays set while TAMPER_N is asserted. -/
def cxAlarmClear (who : Requester) (v : Nat) (s : State) : State :=
  if !trusted who then countUnmapped (blkBase blkCipher + 0x108) s
  else
    let left := ((List.range 5).map (fun k =>
      if s.sec.alarm.testBit k && (!v.testBit k || (k == 0 && (tamperInput s).active)) then 2 ^ k else 0)).sum
    deriveIdentity (s.setSec { s.sec with alarm := left })

def execCxAlarmClear (who : Requester) (value : CsrWord) (s : State) : Host.Outcome State Fault Refusal :=
  .next (cxAlarmClear who value.toNat s)

/-! ### Keys (R575, R593 to R597) -/

def keyLen (kind : Nat) : Nat := if kind = 1 then 64 else 32
/-- Handles of a kind that the part may hold. -/
def keyLimit (kind : Nat) : Nat := if kind = 1 then 8192 else if kind = 3 then 4 else if kind = 4 then 1 else 16384

/-- A key beyond the number the part holds (R595). -/
def keyBeyond (s : State) (kind owner : Nat) : Bool :=
  decide (keyLimit kind ≤ (s.sec.keys.filter (fun e => e.2.kind == kind)).length)
    || (kind == 2 && s.sec.keys.any (fun e => e.2.kind == 2 && e.2.owner == owner))

/-- The lowest slot of a kind, with its next reuse count. -/
def newKeyHandle (s : State) (kind : Nat) : Option Nat :=
  (lowest 16384 (fun i => !s.sec.keys.any (fun e => e.1 / 16384 == kind * 16384 + i))).map (fun i =>
    (kind * 16384 + i) * 16384 + lookD s.sec.reuse (kind * 16384 + i) 1)

/-- The checks of KEY_PROVISION before the key is opened: the conditions of R595 in the order of R72. -/
def keyChecks (c : Ctx) (s : State) : List (Bool × Nat × Nat) :=
  let kind := c.p 0 1
  let wrap := c.p 1 1
  let h := c.p 4 4
  [(wrap == 1 && decide (c.pkt.paramLen < 208), stBadAddress, dtParamLength),
   (decide (kind = 0 ∨ 4 < kind ∨ 1 < wrap), stNotPermitted, dtNone),
   (s.sec.lifecycle == 4 && wrap == 1, stNotPermitted, dtNone),
   (kind == 2 && (fnOf s (c.p 2 2)).isNone, stBadHandle, dtNone),
   (h != 0 && !(match keyOf s h with | some k => k.kind == kind | none => false), stBadHandle, dtNone),
   (c.p 8 2 != keyLen kind, stBadAddress, dtNone),
   (wrap == 0 && (s.sec.lifecycle == 2 || s.sec.lifecycle == 4), stNotPermitted, dtClearForbidden),
   (decide (128 ≤ s.sec.epoch), stNotPermitted, dtEpochExhausted),
   (h == 0 && (keyBeyond s kind (if kind = 2 then c.p 2 2 else 0) || (newKeyHandle s kind).isNone), stNoResource, dtNone),
   (h != 0 && (keyMaterial s h).isSome, stConflict, dtKeyInUse),
   ((tamperInput s).stuck, stConflict, dtTamperStuck),
   (s.sec.alarm != 0, stConflict, dtAlarmActive)]

/-- The key is stored under its handle, newest first, and its sealed copy goes to SPI flash. -/
def storeNewKey (kind owner h key : Nat) (bytes : Bytes) (s : State) : State :=
  let k : Key := { kind := kind, owner := owner, material := some key }
  let nonce := (List.range 12).map (Config.freeByte s.draw)
  let s := drawn (s.setSec { s.sec with keys := (h, k) :: del s.sec.keys h })
  let s := s.setSto { s.sto with ns := s.sto.ns.map (fun e => (e.1, { e.2 with san := { e.2.san with held := false } })) }
  emit (.flash "sealed key" (Config.sealBytes (Config.storeKey s.sec.lifecycle s.sec.epoch) nonce bytes)) s

/-- The wrapped form of KEY_PROVISION is opened with the ProvisionID key (R594); without that key in the vault nothing opens (DESIGN CHOICE: log 213). -/
def unwrapped (s : State) (bs : Bytes) : Option Bytes := if s.sec.provisionKey then Config.unwrapKey s.sec.lifecycle bs else none

/-- KEY_PROVISION, clear or wrapped. -/
def hKeyProvision : Handler := fun c s =>
  let kind := c.p 0 1
  let owner := if kind = 2 then c.p 2 2 else 0
  let given := c.p 4 4
  checked s (keyChecks c s)
    (match (if c.p 1 1 = 1 then unwrapped s (c.params.take 208) else some ((c.params.drop 0x10).take (keyLen kind))) with
     | none => Res.rej s stIntegrity dtWrapAuth
     | some bs =>
       let bs := bs.take (keyLen kind)
       if kind = 1 ∧ bs.take 32 = bs.drop 32 then Res.rej s stFailed dtWeakKey
       else match (if given = 0 then newKeyHandle s kind else some given) with
         | none => Res.rej s stNoResource dtNone
         | some h =>
           let key := leVal bs
           Res.ok (stoSettle (storeNewKey kind (if given = 0 then owner else ((keyOf s h).map (·.owner)).getD owner) h key bs s)) false
             (layout 16 [(0, 4, h), (4, 4, kind), (8, 4, Config.keyCheck key)]))

/-- A namespace names a key. -/
def keyNamed (s : State) (h : Nat) : Bool := s.sto.ns.any (fun e => e.2.encrypted && e.2.key == h)

/-- KEY_ERASE (R596). -/
def hKeyErase : Handler := fun c s =>
  let h := c.p 0 4
  let rel := (c.p 4 4).testBit 0
  match keyOf s h with
  | none => Res.rej s stBadHandle (dtField 0)
  | some k =>
    if rel && keyNamed s h then Res.rej s stConflict dtKeyInUse
    else
      let s := clearKey h s
      let ks := if rel then del s.sec.keys h else s.sec.keys
      let ru := if rel then put s.sec.reuse (h / 16384) (max 1 ((h + 1) % 16384)) else s.sec.reuse
      let s := emit (.flash "sealed key erased" (leBytes 4 h)) (s.setSec { s.sec with keys := ks, reuse := ru })
      let s := stoSettle (if k.kind = 3 then abortKeyless s else s)
      Res.ok s false (layout 8 [(0, 4, keysHeld s)])

/-! ### Life cycle (R587 to R592) -/

/-- JTAG level of a state, with STRAP[13] (R588). -/
def jtagLevel (s : State) : Nat := if s.sec.lifecycle = 3 ∨ (s.sec.lifecycle = 0 ∧ s.pins.latched.testBit 13) then 2 else 1

/-- A transition is one of the table. -/
def transitionOk (a b : Nat) : Bool :=
  (a == 0 && b == 1) || (a == 1 && b == 2) || (a == 2 && b == 1) || ((a == 1 || a == 2) && b == 3) || (a != 4 && b == 4)
/-- A transition that needs a token. -/
def needsToken (b a : Nat) : Bool := (a == 0 && b == 1) || b == 3

/-- A course, a restore, an adoption, a sanitize or a format is under way. -/
def recoveryWork (s : State) : Bool :=
  courseLive s || (match s.elastic.restore with | some r => r.state == 1 || r.state == 2 | none => false) || s.elastic.adopt.isSome
    || s.sto.ns.any (fun e => sanActive e.2)

/-- RETURNED: custody memory is zeroed, and every table, kernel and namespace is destroyed. -/
def zeroCustody (s : State) : State :=
  let s := s.mason.kernels.foldl (fun s e => killKernel e.1 s) s
  let s := s.tab.tbls.foldl (fun s e => freeTable e.1 s) s
  let s := s.setSto { s.sto with ns := [], ops := [] }
  s.setMem { s.mem with cells := [], poison := [] }

/-- LIFECYCLE_TRANSITION. -/
def hLifecycleTransition : Handler := fun c s =>
  let a := s.sec.lifecycle
  let b := c.p 0 1
  let used := s.setSec { s.sec with challenge := none }
  let tokenBad := !(s.sec.challenge == some (c.p 8 8)
    && (c.params.drop 0x10).take 48 == Config.lifecycleToken (leBytes 1 b ++ Config.serial ++ leBytes 8 (c.p 8 8)))
  checked s
    [(decide (4 < b), stNotPermitted, dtField 0),
     (a == 2 && b == 1 && decide (15 ≤ s.sec.ownerChanges), stNoResource, dtOwnerChanges),
     (recoveryWork s || !transitionOk a b, stConflict, dtNone)]
    (if needsToken b a && tokenBad then .reply used stIntegrity dtToken []
     else
       let s := if needsToken b a then used else s
       let s := s.setSec { s.sec with lifecycle := b, ownerChanges := if a = 2 ∧ b = 1 then s.sec.ownerChanges + 1 else s.sec.ownerChanges }
       let s := emit (.flash "sealed keys erased" []) (wipeKeys s)
       let s := if b = 3 then zeroCustody s else s
       Res.ok (stoSettle (deriveIdentity s)) false (layout 96 [(0, 1, b)]))

/-! ### Attestation (R582 to R586) -/

def chainOf (s : State) (slot : Nat) : Bytes := Config.certChain slot s.sec.lifecycle s.sec.alias_

/-- GET_CERT_CHAIN. -/
def hGetCertChain : Handler := fun c s =>
  let ch := chainOf s (c.p 0 1)
  let off := c.p 4 4
  if 1 < c.p 0 1 then Res.rej s stBadHandle (dtField 0)
  else if ch.length < off then Res.rej s stBadAddress (dtField 4)
  else
    let part := (ch.drop off).take 4048
    Res.ok s false (layout 16 [(0, 4, ch.length), (4, 4, part.length)] ++ part)

/-- A measurement block of R585. -/
def measurement (s : State) (i : Nat) : Bytes :=
  match i with
  | 1 => Config.romDigest
  | 2 => Config.headerDigest s.boot.running.buildId
  | 3 => leBytes 1 s.boot.running.svn ++ leBytes 1 s.sec.svnMin
  | 4 => leBytes 1 s.sec.lifecycle ++ leBytes 1 s.sec.ownerChanges
  | 5 => leBytes 2 s.pins.latched
  | 6 => Config.unitDigest s.sec.revoked s.mason.fuses
  | 7 => leBytes 1 s.sec.epoch ++ leBytes 1 (alarmReg s)
  | _ => []

/-! ### SPDM (R584; response codes and error codes of DSP0274, log 81) -/

def spdmBusy : Nat := 0x03
def spdmUnexpected : Nat := 0x04
def spdmUnspecified : Nat := 0x05
def spdmInvalid : Nat := 0x01
def spdmInvalidSession : Nat := 0x02
def spdmDecrypt : Nat := 0x06
def spdmSessionLimit : Nat := 0x0A

def respond (mb peer session code : Nat) (data : Bytes) (s : State) : State := emit (.spdm mb peer session code data) s
def spdmError (mb peer e : Nat) (s : State) : State := respond mb peer 0 0x7F (leBytes 1 e) s

/-- The conversation of a mailbox with a peer; a DOE mailbox has one. -/
def spdmIs (mb peer : Nat) (x : Spdm) : Bool := x.mailbox == mb && (mb < 2 || x.peer == peer)
def spdmOf (s : State) (mb peer : Nat) : Spdm := (s.sec.spdm.find? (spdmIs mb peer)).getD { mailbox := mb, peer := peer }
def setSpdm (x : Spdm) (s : State) : State :=
  s.setSec { s.sec with spdm := s.sec.spdm.filter (fun y => !spdmIs x.mailbox x.peer y) ++ [x] }

/-- The mailbox answers SPDM: the part runs; in footing mode the answer is ERROR Busy. -/
def spdmServed (mb peer : Nat) (s : State) (k : State) : State :=
  if 3 ≤ mb then s else if footing s then spdmError mb peer spdmBusy s else if running s then k else s

/-- A request that the conversation has come far enough for. -/
def spdmAt (mb peer stage : Nat) (s : State) (k : State) : State :=
  spdmServed mb peer s (if (spdmOf s mb peer).stage < stage then spdmError mb peer spdmUnexpected s else k)

/-- A request that the Alias key answers; while an alarm holds the identity keys erased, attestation is stopped (R610). -/
def spdmSigned (mb peer stage : Nat) (s : State) (k : State) : State :=
  spdmAt mb peer stage s (if s.sec.identity then k else spdmError mb peer spdmUnspecified s)

def execSpdmGetVersion (mailbox peer : Nat) (s : State) : Host.Outcome State Fault Refusal :=
  .next (spdmServed mailbox peer s
    (respond mailbox peer 0 0x04 [2, 0, 0x12, 0, 0x13]
      (setSpdm { spdmOf s mailbox peer with stage := 1, version := 0 } s)))

def execSpdmGetCapabilities (mailbox peer version : Nat) (s : State) : Host.Outcome State Fault Refusal :=
  .next (spdmAt mailbox peer 1 s
    (if version = 0x12 ∨ version = 0x13 then
       respond mailbox peer 0 0x61 (Config.spdmData 0x61 s.draw)
         (drawn (setSpdm { spdmOf s mailbox peer with stage := 2, version := version } s))
     else spdmError mailbox peer 0x41 s))

def execSpdmNegotiateAlgorithms (mailbox peer : Nat) (agreed : Bool) (s : State) : Host.Outcome State Fault Refusal :=
  .next (spdmAt mailbox peer 2 s
    (if agreed then
       respond mailbox peer 0 0x63 (Config.spdmData 0x63 s.draw) (drawn (setSpdm { spdmOf s mailbox peer with stage := 3 } s))
     else spdmError mailbox peer spdmInvalid s))

/-- Digests of the chains in slots 0 and 1. -/
def execSpdmGetDigests (mailbox peer : Nat) (s : State) : Host.Outcome State Fault Refusal :=
  .next (spdmAt mailbox peer 3 s
    (respond mailbox peer 0 0x01 (Config.sha384 (chainOf s 0) ++ Config.sha384 (chainOf s 1)) s))

def execSpdmGetCertificate (mailbox peer slot offset length : Nat) (s : State) : Host.Outcome State Fault Refusal :=
  .next (spdmAt mailbox peer 3 s
    (if 1 < slot ∨ (chainOf s slot).length ≤ offset then spdmError mailbox peer spdmInvalid s
     else respond mailbox peer 0 0x02 (((chainOf s slot).drop offset).take length) s))

/-- A signature with the Alias key over what the request asks to have signed. -/
def aliasSign (s : State) (m : Bytes) : Bytes := Config.sign s.sec.alias_ (Config.sha384 m)

def execSpdmChallenge (mailbox peer slot : Nat) (nonce : Bytes) (s : State) : Host.Outcome State Fault Refusal :=
  .next (spdmSigned mailbox peer 3 s
    (if 1 < slot then spdmError mailbox peer spdmInvalid s
     else respond mailbox peer 0 0x03 (Config.sha384 (chainOf s slot) ++ aliasSign s nonce) s))

def execSpdmGetMeasurements (mailbox peer index : Nat) (signed : Bool) (nonce : Bytes) (s : State) : Host.Outcome State Fault Refusal :=
  .next (spdmAt mailbox peer 3 s
    (if signed && !s.sec.identity then spdmError mailbox peer spdmUnspecified s
     else if index ≠ 0 ∧ index ≠ 0xFF ∧ 7 < index then spdmError mailbox peer spdmInvalid s
     else
       let body := if index = 0 then [7] else if index = 0xFF then ((List.range 7).map (fun i => measurement s (i + 1))).flatten
         else measurement s index
       respond mailbox peer 0 0x60 (body ++ (if signed then aliasSign s (nonce ++ body) else [])) s))

/-- Sessions that a mailbox, or MCTP in all, holds. -/
def spdmSessions (s : State) (mb : Nat) : Nat := ((s.sec.spdm.filter (fun x => x.mailbox == mb)).map (fun x => x.sessions.length)).sum

def execSpdmKeyExchange (mailbox peer slot : Nat) (exchange : Bytes) (s : State) : Host.Outcome State Fault Refusal :=
  .next (spdmSigned mailbox peer 3 s
    (if 1 < slot then spdmError mailbox peer spdmInvalid s
     else if (if mailbox = 2 then 4 else 2) ≤ spdmSessions s mailbox then spdmError mailbox peer spdmSessionLimit s
     else
       let x := spdmOf s mailbox peer
       let sid := ((lowest 16 (fun i => !x.sessions.any (fun y => y.1 == i + 1))).getD 0) + 1
       respond mailbox peer sid 0x64 (Config.spdmData 0x64 s.draw ++ aliasSign s exchange)
         (drawn (setSpdm { x with sessions := x.sessions ++ [(sid, false)] } s))))

/-- A request within a session, which is established or, for FINISH, open. -/
def spdmIn (mb peer sid : Nat) (established : Bool) (s : State) (k : State) : State :=
  spdmAt mb peer 3 s
    (if (spdmOf s mb peer).sessions.any (fun y => y.1 == sid && y.2 == established) then k else spdmError mb peer spdmInvalidSession s)

def endSpdm (mb peer sid : Nat) (s : State) : State :=
  let x := spdmOf s mb peer
  setSpdm { x with sessions := x.sessions.filter (fun y => y.1 != sid) } s

def execSpdmFinish (mailbox peer session : Nat) (verified : Bool) (s : State) : Host.Outcome State Fault Refusal :=
  .next (spdmIn mailbox peer session false s
    (if verified then
       (let x := spdmOf s mailbox peer
        respond mailbox peer session 0x65 [] (setSpdm { x with sessions := x.sessions.map (fun y => if y.1 = session then (y.1, true) else y) } s))
     else spdmError mailbox peer spdmDecrypt (endSpdm mailbox peer session s)))

def execSpdmKeyUpdate (mailbox peer session operation : Nat) (s : State) : Host.Outcome State Fault Refusal :=
  .next (spdmIn mailbox peer session true s
    (if operation = 0 ∨ 3 < operation then spdmError mailbox peer spdmInvalid s
     else respond mailbox peer session 0x69 (leBytes 1 operation) s))

def execSpdmHeartbeat (mailbox peer session : Nat) (s : State) : Host.Outcome State Fault Refusal :=
  .next (spdmIn mailbox peer session true s (respond mailbox peer session 0x68 [] s))

def execSpdmEndSession (mailbox peer session : Nat) (s : State) : Host.Outcome State Fault Refusal :=
  .next (spdmIn mailbox peer session true s (endSpdm mailbox peer session (respond mailbox peer session 0x6C [] s)))

/-! ### IDE (R612 to R614) -/

def ideIs (hp n : Nat) (x : IdeStream) : Bool := x.hp == hp && x.stream == n
def ideOf (s : State) (hp n : Nat) : Option IdeStream := s.sec.ide.find? (ideIs hp n)
def setIde (x : IdeStream) (s : State) : State := s.setSec { s.sec with ide := s.sec.ide.filter (fun y => !ideIs x.hp x.stream y) ++ [x] }

/-- The streams of a host port end (R614). -/
def endIde (hp : Nat) (s : State) : State := s.setSec { s.sec with ide := s.sec.ide.filter (fun x => x.hp != hp) }

/-- IDE_KM in a secured session on a host port's DOE mailbox: message 0 QUERY, 2 KEY_PROG of key number `key`, 4 K_SET_GO, 5 K_SET_STOP. -/
def execIdeKm (mailbox peer session stream message : Nat) (key : Nat) (s : State) : Host.Outcome State Fault Refusal :=
  .next (spdmIn mailbox peer session true s
    (if 2 ≤ mailbox then spdmError mailbox peer spdmInvalid s
     else
       let x := (ideOf s mailbox stream).getD { hp := mailbox, stream := stream }
       let answer := fun code s => respond mailbox peer session 0x7E [BitVec.ofNat 8 code, BitVec.ofNat 8 stream] s
       match message with
       | 0 => answer 1 s
       | 2 =>
         if (ideOf s mailbox stream).isNone ∧ 8 ≤ (s.sec.ide.filter (fun y => y.hp == mailbox)).length then spdmError mailbox peer spdmInvalid s
         else answer 3 (setIde { x with keys := x.keys ||| 2 ^ (key % 16) } s)
       | 4 => if x.keys = 0 then spdmError mailbox peer spdmInvalid s else answer 6 (setIde { x with secure := true } s)
       | 5 => answer 6 (s.setSec { s.sec with ide := s.sec.ide.filter (fun y => !ideIs mailbox stream y) })
       | _ => spdmError mailbox peer spdmInvalid s))

/-- IDE_TLP_RX: TLPs are delivered once the MAC that covers them has been checked. -/
def execIdeTlpRx (hp stream : Nat) (tlps : List Bytes) (macOk : Bool) (s : State) : Host.Outcome State Fault Refusal :=
  .next (match ideOf s hp stream with
    | none => s
    | some x =>
      if !x.secure then s
      else if macOk then emit (.tlps hp stream tlps) s
      else
        let s := setIde { x with secure := false } s
        match hostPortBlock s hp with
        | some b => recordCon (blkPb b) 0x0100 [stream] s
        | none => s)

end Sys2Proof.Machine
end

