-- ==== Sys2Proof/Machine/Functions.lean ====
section
/-! DEFINITION. Functions (chapter 9): pools and allotments, the end of a generation, function reset, lease, PERST_N, SR-IOV, power states, and the commands that name a function. -/

namespace Sys2Proof.Machine

open Sys2Proof

/-! ### Pools (R407, R409) -/

/-- What a function has in use of each pool, resources of old generations not yet returned included. -/
def poolUse (s : State) (fid : Nat) : Allot :=
  let r := (fnD s fid).reclaim
  let k := ctrlOf s fid
  { cqps := (s.tab.cqps.filter (fun e => e.2.owner == fid)).length + r.cqps,
    nicQps := (s.pp.qps.filter (fun e => e.1 / 65536 == fid)).length + r.nicQps,
    nvmeQps := max (k.sqs.filter (fun e => e.1 != 0)).length (k.cqs.filter (fun e => e.1 != 0)).length + r.nvmeQps,
    quota := quotaUsed s fid,
    conns := (s.grt.conns.filter (fun e => e.2.owner == fid)).length + r.conns,
    locks := locksUsed s fid + r.locks, limiters := limitersUsed s fid }

/-- What is no longer in use. -/
def Allot.minus (a b : Allot) : Allot :=
  { cqps := a.cqps - b.cqps, nicQps := a.nicQps - b.nicQps, nvmeQps := a.nvmeQps - b.nvmeQps, quota := a.quota - b.quota,
    conns := a.conns - b.conns, locks := a.locks - b.locks, limiters := a.limiters - b.limiters }

def Allot.plus (a b : Allot) : Allot :=
  { cqps := a.cqps + b.cqps, nicQps := a.nicQps + b.nicQps, nvmeQps := a.nvmeQps + b.nvmeQps, quota := a.quota + b.quota,
    conns := a.conns + b.conns, locks := a.locks + b.locks, limiters := a.limiters + b.limiters }

def Allot.total (a : Allot) : Nat := a.cqps + a.nicQps + a.nvmeQps + a.quota + a.conns + a.locks + a.limiters

/-- Client totals of the pools. -/
def poolTotal (s : State) : Allot :=
  { cqps := 8192, nicQps := 16384, nvmeQps := 131072, quota := if s.mem.hotTotal = 0 then 0 else hotAllocatable s + coldAllocatable s, conns := 262144,
    locks := 65536, limiters := 8192 }

/-- Allotments of every function but one. -/
def othersAllot (s : State) (fid : Nat) : Allot :=
  (s.fns.filter (fun e => e.1 != fid)).foldl (fun a e => a.plus e.2.allot) {}

/-- The allotment in effect for one asked for (R409). -/
def clampAllot (s : State) (fid : Nat) (a : Allot) : Allot :=
  let f := fnD s fid
  let u := poolUse s fid
  let free := (poolTotal s).minus (othersAllot s fid)
  let pages := if isVf fid then 2047 else 16383
  let cq := if f.pf = 0 then clampN u.cqps (min free.cqps pages) a.cqps else 0
  { cqps := cq,
    nicQps := if f.pf = 2 then clampN u.nicQps (min free.nicQps (pages - cq)) a.nicQps else 0,
    nvmeQps := if f.pf = 1 then clampN u.nvmeQps (min free.nvmeQps 65535) a.nvmeQps else 0,
    quota := if f.pf = 0 then clampN u.quota free.quota a.quota else 0,
    conns := clampN u.conns free.conns a.conns,
    locks := if f.pf = 1 then clampN u.locks free.locks a.locks else 0,
    limiters := clampN u.limiters (min free.limiters 4096) a.limiters }

/-! ### The end of a generation (R40, R84, R85, R404, R415) -/

/-- Descriptors of a NIC queue pair are taken. -/
def resumeNic (k : Nat) : Nat → State → State
  | 0, s => s
  | n + 1, s => resumeNic k n (nicTransmit k s)

/-- Frames and packets held at paused egress queues go on (R97); the packets of a connection that is gone since do not. -/
def resumeEgress (s : State) : State :=
  s.pp.egressHeld.foldl (fun s x => match x.2.2.src, x.2.2.pkt with
    | .grt h, some p => if (connOf s h).isSome then queuePacket h p s else s
    | _, _ => enqueue x.1 x.2.1 x.2.2 s) (s.setPp { s.pp with egressHeld := [] })

/-- The openings held at a paused course engine come up (R97). -/
def resumeOpens (s : State) : State :=
  s.course.heldOpens.foldl (fun s o => match o with
    | .periodic => autoOpen 1 s
    | .early => earlyOpen s
    | .message source id step label format trigger => openMessage source id step label format trigger s)
    (s.setCourse { s.course with heldOpens := [] })

/-- Intake resumes where no DRAIN commit pauses it: frames held at paused ports go on, and queue pairs and connections send again (R97). -/
def resumeIntake (s : State) : State :=
  let s := if ppPaused s then s else resumeIngress s
  let s := if coursePaused s then s else resumeOpens s
  if egressPaused s then s
  else
    let s := resumeEgress s
    s.grt.conns.foldl (fun s e => pumpConn e.1 s) (s.pp.qps.foldl (fun s e => resumeNic e.1 e.2.txq.length s) s)

/-- Which waiting commands count as before their commit point: barriers and DRAIN commits, and every held command; a destroy, a ROLLING commit, a
revoke, a detach, an adoption or an activation is past it and completes (DESIGN CHOICE, log 183). -/
def undone (fid : Nat) (w : Waiter) : Bool := w.via == .ring fid && (w.kind == .barrier || w.kind == .drain)

/-- A ROLLING commit of a function: its objects flip, and its stage set goes with the generation (R98). -/
def rollingOf (fid : Nat) (w : Waiter) : Bool := w.via == .ring fid && w.kind == .rolling

/-- The ICP side ends: a reset answers what is fetched and not past its commit point with ABORTED_RESET on the old ring; after a loss of the
host side those answers are kept. A DRAIN commit is abandoned (R98); a ROLLING one whose units have not all flipped has no reply yet, and it is
dropped and counted (R84 step 3). The count is that of the commands answered. -/
def abortWaits (fid : Nat) (s : State) : State :=
  let ws := s.icp.waits.filter (undone fid)
  let bs := s.icp.behind.filter (fun b => b.1 == .ring fid)
  let s := s.setIcp { s.icp with behind := s.icp.behind.filter (fun b => b.1 != .ring fid),
                                 waits := s.icp.waits.filter (fun w => !rollingOf fid w),
                                 replyDrops := s.icp.replyDrops + (s.icp.waits.filter (rollingOf fid)).length,
                                 commits := s.icp.commits.filter (fun k => k.owner != .fn fid) }
  let s := ws.foldl (fun s w => finishWait w stAbortedReset dtNone [] s) s
  bs.foldl (fun s b =>
    finishWait { via := b.1, pkt := b.2, kind := .barrier, gen := (fnD s fid).gen } stAbortedReset dtNone [] s) s

/-- The commands that a reset answers ABORTED_RESET. -/
def abortCount (s : State) (fid : Nat) : Nat :=
  (s.icp.waits.filter (undone fid)).length
    + (s.icp.behind.filter (fun b => b.1 == .ring fid)).length

/-- The same after a loss: the packets held keep the generation they were fetched under. The statuses kept are the model's choice: ABORTED_RESET
for what is undone, OK for a ROLLING commit, STATE_CONFLICT with STALE_GENERATION for what never started (log 183). -/
def keepWaits (fid gen : Nat) (s : State) : State :=
  let ws := s.icp.waits.filter (undone fid)
  let rs := s.icp.waits.filter (rollingOf fid)
  let bs := s.icp.behind.filter (fun b => b.1 == .ring fid)
  let s := s.setIcp { s.icp with behind := s.icp.behind.filter (fun b => b.1 != .ring fid),
                                 commits := s.icp.commits.filter (fun k => k.owner != .fn fid) }
  let s := ws.foldl (fun s w => finishWait w stAbortedReset dtNone [] s) s
  let s := rs.foldl (fun s w => finishWait w stOk dtNone [] s) s
  bs.foldl (fun s b => finishWait { via := b.1, pkt := b.2, kind := .barrier, gen := gen } stConflict dtStaleGeneration [] s) s

/-- Completions of work of an older generation that the part discards and counts (R42), each a request that a silenced function sends no more (R384). -/
def lateCompletions (fid n : Nat) (s : State) : State :=
  dmaDropped fid n (updFn fid (fun f => { f with lateDiscarded := (f.lateDiscarded + n) % 2 ^ 64 }) s)

/-- The custody queue pairs of a function that has been reset or lost (R415). -/
def failQueues (reset : Bool) (fid : Nat) (s : State) : State :=
  let g := (fnD s fid).gen
  (s.tab.cqps.filter (fun e => e.2.owner == fid)).foldl (fun s e =>
    if reset then
      let s := if e.2.endpoint = 0xFFFF then lateCompletions fid e.2.running.length s
        else (cqpD s e.1).running.foldl (fun s p =>
          postCqe e.1 p.desc 0 csAborted 0 p.flags (updCqp e.1 (fun q => { q with running := q.running.filter (fun x => x.seq != p.seq) }) s)) s
      removeCqp e.1 s
    else if e.2.endpoint = 0xFFFF then updCqp e.1 (fun q => { q with held := true, adopted := false }) s
    else updCqp e.1 (fun q => { q with gen := g }) s) s

/-- Kernels of a function; of those that a rule holds, the items of its own KERNEL descriptors (R182, R183). -/
def failKernels (fid : Nat) (s : State) : State :=
  (s.mason.kernels.filter (fun e => e.2.owner == fid)).foldl (fun s e => if ruleHeld s e.1 then endDescItems e.1 s else killKernel e.1 s) s

/-- NVMe queues, NIC queue pairs, connections and registrations. -/
def failHostSide (fid : Nat) (s : State) : State :=
  let s := if has s.sto.ctrls fid then nvmeReset fid s else s
  let s := (s.pp.qps.filter (fun e => e.1 / 65536 == fid)).foldl (fun s e => removeNicQp e.1 s) s
  dropTransport fid s

/-- Completions that a function's queues hold for want of room or of D0, or after a loss of the host side (R415, R423). -/
def heldCompletions (s : State) (fid : Nat) : Nat :=
  ((s.pp.qps.filter (fun e => e.1 / 65536 == fid)).map (fun e => e.2.heldCpl.length)).sum
    + ((s.grt.wqs.filter (fun e => e.2.owner == fid)).map (fun e => e.2.heldCpl.length)).sum
    + ((s.tab.cqps.filter (fun e => e.2.owner == fid)).map (fun e => e.2.heldCpl.length)).sum
    + ((look s.sto.ctrls fid).map (fun k => k.held.length)).getD 0

/-- The tables of a function stay with it under its new generation (R38, R415). -/
def restampTables (fid : Nat) (s : State) : State :=
  s.setTab { s.tab with tbls := s.tab.tbls.map (fun e => (e.1, if e.2.owner = fid then { e.2 with gen := genOf s fid } else e.2)) }

/-- Replies that are never posted are counted (R84). -/
def dropReplies (n : Nat) (s : State) : State := s.setIcp { s.icp with replyDrops := s.icp.replyDrops + n }

/-- The generation of a function ends: by a reset, or by a loss of the host side. -/
def failFunction (reset : Bool) (cause fid : Nat) (s : State) : State :=
  match look s.fns fid with
  | none => s
  | some f =>
    let before := poolUse s fid
    let heldBefore := heldCompletions s fid
    let s := if reset then abortWaits fid s else s
    let f := (look s.fns fid).getD f
    let unposted := (ringOf s fid).held
    let s := if unposted.isEmpty then s
      else dropReplies (if reset then unposted.length else 0) (setRing fid { ringOf s fid with held := [] } s)
    let s := setFn fid { f with gen := nextGen f.gen, prevGen := f.gen, cause := cause, leaseOn := false,
                                kept := if reset then f.kept else lastN 64 (f.kept ++ unposted.map (fun e => (e.1.tag, e.2.status))),
                                st := if !reset ∧ f.st = .frozen then .frozen else .active,
                                migBuf := if reset then [] else f.migBuf } s
    let s := if reset then s else keepWaits fid f.gen s
    let s := s.setIcp { s.icp with sessions := del s.icp.sessions (.ring fid),
                                   stage := s.icp.stage.filter (fun e => e.owner != .fn fid) }
    let s := if reset ∨ cause = 5 then s.setRings (del s.rings fid) else s
    let s := updRun (fun r => { r with clients := r.clients.filter (fun c => c.1 != fid) }) s
    let s := restampTables fid (failHostSide fid (failKernels fid (failQueues reset fid s)))
    let s := restoreTenantLost fid s
    let s := lateCompletions fid (heldBefore - heldCompletions s fid) s
    let s := updFn fid (fun x => { x with reclaim := x.reclaim.plus (before.minus (poolUse s fid)) }) s
    settle (livePause (resumeIntake s))

/-- VFs of a PF that are enabled, by SR-IOV index. -/
def vfsOf (s : State) (pf : Nat) : List Nat :=
  (s.fns.filter (fun e => isVf e.1 && e.2.on && e.2.hp == pf / 3 && e.2.pf == pf % 3)).map (·.1)

/-- VF Enable is cleared: the VFs are reset with their configuration space (R405, R406), or lost, and are no longer there. -/
def disableVfs (reset : Bool) (cause pf : Nat) (s : State) : State :=
  let vs := vfsOf s pf
  let s := vs.foldl (fun s v => updFn v (fun f => { f with on := false, crs := false }) (failFunction reset cause v s)) s
  let s := resetCfg (fun f => vs.contains f) s
  updFn pf (fun f => { f with vfEnable := false }) s

/-! ### FLR, lease, reclaim -/

/-- Initiate Function Level Reset: events 1 to 4 of R404; requests of configuration space are retried until event 5. -/
def execFlr (fn : Nat) (s : State) : Host.Outcome State Fault Refusal :=
  .next (match fnOf s fn with
    | none => s
    | some _ =>
      if !configServed s fn then configRetry fn s
      else
        let s := failFunction true 1 fn s
        let s := if isPf fn then disableVfs true 1 fn s else s
        updFn fn (fun f => { f with crs := true, pmeEn := false, numVfs := 0, dstate := .d0 }) (resetCfg (· == fn) s))

/-- Running firmware serves a function's ring. -/
def serveRing (fid : Nat) (s : State) : State := if running s then setRing fid { ringOf s fid with ready := true } s else s

/-- Event 5: configuration requests are served again. -/
def execFlrComplete (fn : Nat) (s : State) : Host.Outcome State Fault Refusal :=
  .next (if (fnD s fn).crs && functionServed s fn then serveRing fn (updFn fn (fun f => { f with crs := false }) s) else s)

/-- Event 6: resources of old generations are back in the allotment. -/
def execReclaimComplete (fn : Nat) (s : State) : Host.Outcome State Fault Refusal :=
  .next (updFn fn (fun f => { f with reclaim := {} }) s)

/-- A lease expires (R39, R40). -/
def execLeaseExpiry (fn : Nat) (s : State) : Host.Outcome State Fault Refusal :=
  .next (if (fnD s fn).leaseOn then failFunction false 3 fn s else s)

/-! ### A packet in flight is not acknowledged in time (R40, R537, R557, R558) -/

/-- The retry limit is reached: the connection enters ERROR, and with BIND_LIVENESS its owner is declared failed. -/
def retryLimitReached (h : Nat) (x : TxPkt) (s : State) : State :=
  let c := connD s h
  let s := errorConn h (some x.msn) 6 s
  if c.bind then failFunction false 4 c.owner s else s

/-- A retransmission timeout of a packet; in RoCEv2 mode every packet behind it goes again too (R569). A connection that the part manages for the domain is named by its number from 262,144 on. -/
def execRetransmitTimeout (conn psn : Nat) (s : State) : Host.Outcome State Fault Refusal :=
  .next (thawed s <| if 262144 ≤ connSlot conn then
      (match s.grt.domain[connSlot conn - 262144]? with
       | some d => domainConnLost d.1 s
       | none => s)
    else match connOf s conn with
      | none => s
      | some c => match c.flight.find? (fun x => x.pkt.psn == psn && !x.sacked && x.wait.isNone) with
        | none => s
        | some x =>
          let s := bumpTr 0x10C s
          let s := setCwnd conn (pmtuBytes c.pmtu) s
          if c.retryLimit ≤ x.tries then retryLimitReached conn x s
          else
            let s := excludePath conn x.pkt.path s
            let s := updConn conn (fun c => { c with flight := c.flight.map (fun (y : TxPkt) =>
              if y.pkt.psn = psn ∨ (c.roce = true ∧ seqAfter y.pkt.psn psn = true) then { y with lost := true } else y) }) s
            pumpConn conn s)

/-! ### SR-IOV (R391) -/

/-- NumVFs is written; a write is clamped, and while VF Enable is set it changes nothing. -/
def execNumvfsWrite (fn count : Nat) (s : State) : Host.Outcome State Fault Refusal :=
  let others := ((s.fns.filter (fun e => isPf e.1 && e.1 != fn)).map (fun e => e.2.numVfs)).sum
  .next (if !isPf fn then s
         else if !configServed s fn then configRetry fn s
         else if (fnD s fn).vfEnable then s
         else updFn fn (fun f => { f with numVfs := min count (1024 - others) }) s)

/-- One VF takes the lowest number that no enabled VF holds. -/
def enableVf (pf : Nat) (s : State) (i : Nat) : State :=
  match lowest 1024 (fun n => !(look s.fns (vfId n)).any (·.on)) with
  | none => s
  | some n =>
    let f := lookD s.fns (vfId n) { spoof := 15 }
    serveRing (vfId n) <| setFn (vfId n) { f with on := true, hp := pf / 3, pf := pf % 3, vfIndex := i + 1, crs := false, dstate := (fnD s pf).dstate } (resetCfg (· == vfId n) s)

/-- VF Enable is written. -/
def execVfEnable (fn : Nat) (enable : Bool) (s : State) : Host.Outcome State Fault Refusal :=
  let f := fnD s fn
  .next (if !isPf fn then s
         else if !configServed s fn then configRetry fn s
         else if f.vfEnable == enable then s
         else if enable then
           (List.range f.numVfs).foldl (enableVf fn) (updFn fn (fun f => { f with vfEnable := true }) s)
         else disableVfs true 1 fn s)

/-! ### Power states (R423, R424) -/

/-- The function may use its host memory again: what was held goes out, and its queues are served. -/
def resumeFunction (fid : Nat) (s : State) : State :=
  let r := ringOf s fid
  let s := r.held.foldl (fun s e => deliverReply fid (.ring fid) e.1 e.2 s) (if has s.rings fid then setRing fid { r with held := [] } s else s)
  let s := (s.tab.cqps.filter (fun e => e.2.owner == fid && e.2.held && !e.2.adopted && e.2.gen == (fnD s fid).gen)).foldl
    (fun s e => deliverHeld e.1 s) s
  let hs := (ctrlOf s fid).held
  let s := if hs.isEmpty then s
    else hs.foldl (fun s h => nvmeWrite fid h.sq h.cid h.status h.dw0 h.writes s) (updCtrl fid (fun c => { c with held := [] }) s)
  let s := fetchNvme fid s
  let s := (s.pp.qps.filter (fun e => e.1 / 65536 == fid)).foldl
    (fun s e => resumeNic e.1 e.2.txq.length (drainNic e.1 e.2.heldCpl.length s)) s
  let s := (s.grt.wqs.filter (fun e => e.2.owner == fid)).foldl
    (fun s e => fetchWq e.1 e.2.unread.length (drainGrt e.1 e.2.heldCpl.length s)) s
  (s.grt.conns.filter (fun e => e.2.owner == fid)).foldl (fun s e => pumpConn e.1 s) s

/-- Completions of the custody queue pairs in a function's host memory are held. -/
def holdQueues (fid : Nat) (s : State) : State :=
  (s.tab.cqps.filter (fun e => e.2.owner == fid && e.2.endpoint == 0xFFFF)).foldl
    (fun s e => updCqp e.1 (fun q => { q with held := true }) s) s

/-- A PF and the VFs that follow it. -/
def withVfs (s : State) (pf : Nat) : List Nat := pf :: vfsOf s pf

def dstateOf (n : Nat) : DState := match n with | 0 => .d0 | 1 => .d1 | 2 => .d3hot | _ => .d3cold

/-- A PF changes its D-state: 0 D0, 1 D1, 2 D3hot, 3 D3cold. -/
def execDStateChange (fn state : Nat) (pme : Bool) (s : State) : Host.Outcome State Fault Refusal :=
  let old := (fnD s fn).dstate
  let new := dstateOf state
  let setAll := fun (s : State) => (withVfs s fn).foldl (fun s v => updFn v (fun f => { f with dstate := new }) s) s
  .next (if !isPf fn then s
    else if (fnD s fn).crs then configRetry fn s
    else
      let s := updFn fn (fun f => { f with pmeEn := pme }) s
      if old = new then s
      else match new with
        | .d0 => settle ((withVfs s fn).foldl (fun s v => resumeFunction v s) (setAll s))
        | .d3cold => setAll ((withVfs s fn).foldl (fun s v => failFunction false 5 v s) s)
        | _ => (withVfs s fn).foldl (fun s v => holdQueues v s) (setAll s))

/-- A wake event of a PF: 0 doorbell of a custody queue pair, 1 wake frame, 2 management request. The package leaves standby. -/
def execWakeEvent (fn kind : Nat) (s : State) : Host.Outcome State Fault Refusal :=
  let f := fnD s fn
  .next (if !isPf fn ∨ 2 < kind then s
    else
      let s := s.setPwr { s.pwr with standby := false }
      if !f.pmeEn then s
      else match f.dstate with
        | .d1 => emit (.pme fn) s
        | .d3hot => emit (.pme fn) s
        | .d3cold => emit (.pin .wakeN true) (updFn fn (fun f => { f with wake := true }) s)
        | .d0 => s)

/-! ### PERST_N and the loss of a host link (R387) -/

/-- A host port's PFs. -/
def pfsOf (hp : Nat) : List Nat := [pfId hp 0, pfId hp 1, pfId hp 2]

/-- PERST_N, a hot reset or a link-down of a host port: its functions are declared failed and its bridges reset. -/
def hostReset (hp : Nat) (s : State) : State :=
  let s := (pfsOf hp).foldl (fun s p =>
    updFn p (fun f => { f with numVfs := 0, vfEnable := false, crs := false,
                               pmeEn := f.pmeEn && f.dstate == .d3cold, dstate := if f.dstate = .d3cold then .d3cold else .d0 })
      (disableVfs false 5 p (failFunction false 5 p s))) s
  let s := endIde hp (resetCfg (fun f => (fnD s f).hp == hp) s)
  let s := s.setPorts { s.ports with acs := s.ports.acs.filter (fun e => (pbOf s (e.1 / 4)).hostPort != hp) }
  (List.range 80).foldl (fun s ep =>
    let b := pbOf s (ep / 4)
    if b.role = 2 ∧ b.hostPort = hp ∧ b.propagate then resetAccelLink (ep / 4) (ep % 4) s else s) s

/-! ### Changes of a port block (R379 to R381, R387) -/

/-- A function holds a resource (R38, R407). -/
def holdsAny (s : State) (fid : Nat) : Bool :=
  decide (0 < (poolUse s fid).total) || s.tab.tbls.any (fun e => e.2.owner == fid)
    || s.mason.kernels.any (fun e => e.2.owner == fid) || s.tab.rules.any (fun e => e.2.tenant == fid)
    || s.sto.ctrls.any (fun e => e.1 == fid && !e.2.sqs.isEmpty) || s.grt.wqs.any (fun e => e.2.owner == fid)
    || s.grt.mrs.any (fun e => e.2.owner == fid) || s.sto.ops.any (fun o => o.fn == fid)
    || s.course.regions.any (fun g => g.owner == fid)

/-- A block is in use (R380). -/
def blockInUse (s : State) (n : Nat) : Bool :=
  match (pbOf s n).role with
  | 1 => (match hostPortOf s n with | some hp => (hostFns s hp).any (holdsAny s) | none => false)
  | 2 => s.tab.cqps.any (fun e => isAccel e.2.endpoint && (e.2.endpoint - 0x4000) / 4 == n)
  | 3 => s.mem.cxl.any (fun x => x.links.any (fun l => l / 4 == n)
      && s.mem.blocks.any (fun b => match b.frame with | some f => decide (coldBase + x.first ≤ f ∧ f < coldBase + x.first + x.count) | none => false))
  | 4 => s.sto.ns.any (fun e => e.2.legs.any (fun l => l.kind == 1 && l.ssds.any (fun d => d / 4 == n))
      || (e.2.atomic && (e.2.journalA / 4 == n || e.2.journalB / 4 == n)))
  | _ => false

/-- The links of a block go down: the functions behind a host block are failed (R387), and the endpoints of an accelerator block are reset with
their rings given back. -/
def blockRetrain (n : Nat) (s : State) : State :=
  let s := if (pbOf s n).role = 2 then
      (List.range 4).foldl (fun s l => endpointReset (4 * n + l)
        (dropRings (fun q => q.owner == accelId (4 * n + l) && q.queue.isNone) s)) s
    else match hostPortOf s n with
      | some hp => hostReset hp s
      | none => s
  let b := pbOf s n
  setPb n { b with links := b.links.map (fun (l : PLink) => { gen := l.gen, seen := l.seen }) } s

/-- A block takes a new configuration and retrains. Where its role, bifurcation and host port stay, its links stay up, no faster than MAX_SPEED,
until LINK_TRAINING tells what they trained to (DESIGN CHOICE, log 198). -/
def blockChange (n : Nat) (x : PBlock) (s : State) : State :=
  let old := pbOf s n
  if x = old then s
  else if x.role = old.role ∧ x.bifur = old.bifur ∧ x.hostPort = old.hostPort then
    setPb n { x with links := old.links.map (fun (l : PLink) => { l with speed := min x.maxSpeed l.speed }) } s
  else setPb n { x with links := (pbOf (blockRetrain n s) n).links } (blockRetrain n s)

/-- PORT_CONFIG with PORT_KIND 0. -/
def hPortConfigBlock : Handler := fun c s =>
  let n := c.p 1 1
  let old := pbOf s n
  let x := askedBlock c old
  let hosts := ((List.range 20).filter (fun k => k != n && (pbOf s k).role == 1)).length
  checked s
    [(decide (19 < n), stBadHandle, dtField 1), (decide (4 < x.role), stNotPermitted, dtField 2),
     (!bifurOk x.role x.bifur || decide (4 < x.bifur), stNotPermitted, dtField 3),
     (decide (1 < x.hostPort), stNotPermitted, dtField 4),
     (x.role == 1 && decide (2 ≤ hosts), stNoResource, dtNone),
     (x.role == 2 && decide (31 < bridges s x.hostPort n x), stNoResource, dtNone),
     ((x.role != old.role || x.bifur != old.bifur || x.hostPort != old.hostPort) && blockInUse s n, stConflict, dtNone)]
    (c.okEcho (blockChange n x s) 64 (whole [(0, 1), (1, 1), (2, 1), (3, 1), (4, 1)] ++ [(5, 1, 1)]) [(6, 1, x.maxSpeed)])

/-- A link of a port block finishes training. An upstream link that goes down takes its host port with it (R387). -/
def execLinkTraining (block link width speed : Nat) (flit reversed : Bool) (polarity : Nat) (s : State) :
    Host.Outcome State Fault Refusal :=
  let t := trainLink block link { width := width, speed := speed, flit := flit, reversed := reversed, polarity := polarity } s
  .next (if 19 < block ∨ (bifurLanes (pbOf s block).bifur).length ≤ link then s
         else match hostPortOf s block with
           | some hp => if 0 < (linkOf s (4 * block + link)).width ∧ (linkOf t (4 * block + link)).width = 0 then hostReset hp t else t
           | none => t)

/-- The host port is out of reset: functions return from D3cold, and WAKE_N is released once no PF of either host port asserts it
(R424). -/
def hostRelease (hp : Nat) (s : State) : State :=
  let cold := (pfsOf hp).filter (fun p => (fnD s p).dstate == .d3cold)
  let woke := cold.any (fun p => (fnD s p).wake)
  let s := cold.foldl (fun s p => updFn p (fun f => { f with dstate := .d0, wake := false }) s) s
  if woke && !s.fns.any (fun e => e.2.wake) then emit (.pin .wakeN false) s else s

/-- PERST_N of a host-role block, or a hot reset or link-down of its link, begins (asserted) or ends. -/
def execPerstN (hostPort : Nat) (asserted : Bool) (s : State) : Host.Outcome State Fault Refusal :=
  .next (if (hostPortBlock s hostPort).isNone ∨ 1 < hostPort then s
         else if asserted then hostReset hostPort s else hostRelease hostPort s)

/-! ### FN_CREATE, FN_DESTROY, FN_RESET (R408 to R414) -/

/-- The allotment that FN_CREATE asks for. -/
def askedAllot (c : Ctx) : Allot :=
  { cqps := c.p 4 4, nicQps := c.p 8 4, nvmeQps := c.p 0xC 4, quota := c.p 0x10 4, conns := c.p 0x14 4, locks := c.p 0x18 4,
    limiters := c.p 0x1C 2 }

/-- A 6-byte MAC address, first byte first on the wire, as a number. -/
def macAt (c : Ctx) (off : Nat) : Nat := be c.params off 6

/-- FN_CREATE. -/
def hFnCreate : Handler := fun c s =>
  let fid := c.p 0 2
  let a := clampAllot s fid (askedAllot c)
  let f := fnD s fid
  let len := clampN 0 128 (c.p 0x26 1)
  let free := lowest 1024 (fun k => s.fns.all (fun e => e.2.slot != some k))
  let slot := if f.slot.isSome ∨ a.quota = 0 then f.slot else free
  checked s
    [((fnOf s fid).isNone, stBadHandle, dtField 0), (decide (4094 < c.p 0x1E 2), stBadHandle, dtField 0x1E),
     ((c.p 0x20 1).testBit 0, stBadAddress, dtField 0x20),
     (f.slot.isNone && a.quota != 0 && free.isNone, stNoResource, dtNone),
     (f.st == .frozen, stConflict, dtNone)]
    (let g : Fn := { f with allot := a, spoof := c.p 2 2 % 16, vlan := c.p 0x1E 2, mac := macAt c 0x20, ipv4 := c.p 0x28 4,
                            ipv6 := be c.params 0x30 16, ipv6Len := len, slot := slot }
     let fields := [(4, 4, a.cqps), (8, 4, a.nicQps), (0xC, 4, a.nvmeQps), (0x10, 4, a.quota), (0x14, 4, a.conns),
                    (0x18, 4, a.locks), (0x1C, 2, a.limiters), (0x26, 1, len)]
     Res.ok (setFn fid g s) (c.differs fields) (c.echo 64 (whole [(0, 2), (0x1E, 2), (0x20, 6), (0x28, 4), (0x30, 16)] ++ [(2, 2, 0xF)]) (fields ++ [(0x2C, 2, slot.getD 0xFFFF)])))

/-- Whether a reply on a command's own ring is dropped because the command resets that function. -/
def selfReset (c : Ctx) (fid : Nat) : Bool := c.via == .ring fid

/-- FN_RESET: events 2, 3, 4 and 6 of R404. -/
def hFnReset : Handler := fun c s =>
  let fid := c.p 0 2
  checked s [((fnOf s fid).isNone, stBadHandle, dtField 0)]
    (let n := abortCount s fid
     let t := failFunction true 2 fid s
     let data := layout 8 [(0, 2, fid), (2, 2, (fnD t fid).gen), (4, 4, n)]
     if selfReset c fid then .later (t.setIcp { t.icp with replyDrops := t.icp.replyDrops + 1 }) dtNone data
     else Res.ok t false data)

/-- Tables and kernels of a function that is removed. -/
def freeOwned (fid : Nat) (s : State) : State :=
  let s := (s.tab.tbls.filter (fun e => e.2.owner == fid)).foldl (fun s e => freeTable e.1 s) s
  let s := (s.mason.kernels.filter (fun e => e.2.owner == fid)).foldl (fun s e => killKernel e.1 s) s
  s.setTab { s.tab with rules := s.tab.rules.filter (fun r => r.2.tenant != fid) }

/-- FN_DESTROY. -/
def hFnDestroy : Handler := fun c s =>
  let fid := c.p 0 2
  let n := (s.tab.tbls.filter (fun e => e.2.owner == fid)).length
  checked s
    [((fnOf s fid).isNone, stBadHandle, dtField 0), (fid == 0 || fid == 3, stNotPermitted, dtField 0),
     (courseLive s && (crun s).tables.any (fun ti => (tblD s ti).owner == fid), stBusy, dtNone),
     ((attachedTo s fid).any (fun e => sanActive e.2), stBusy, dtSanActive)]
    (let t := freeOwned fid (failFunction true 2 fid s)
     let t := settle (updFn fid (fun f => { f with allot := {}, slot := none }) t)
     let data := layout 8 [(0, 2, fid), (4, 4, n)]
     if selfReset c fid then .later (t.setIcp { t.icp with replyDrops := t.icp.replyDrops + 1 }) dtNone data
     else Res.ok t false data)

/-! ### GET_FUNCTION_STATE (R418, R419) -/

/-- Queue pairs held since a generation ended and not adopted. -/
def heldQueues (s : State) (fid : Nat) : List (Nat × Cqp) :=
  s.tab.cqps.filter (fun e => e.2.owner == fid && e.2.held && e.2.gen != (fnD s fid).gen)

/-- STATE of R418: HELD while a queue pair of the function is held. -/
def stateCode (s : State) (fid : Nat) : Nat :=
  if isFrozen s fid then 2 else if !(heldQueues s fid).isEmpty then 1 else if noAllot (fnD s fid) then 3 else 0

def functionState (s : State) (fid : Nat) : Bytes :=
  let f := fnD s fid
  let hq := heldQueues s fid
  layout 128
    [(0, 2, fid), (2, 2, f.gen), (4, 2, f.prevGen), (6, 1, f.cause), (7, 1, stateCode s fid), (8, 2, f.slot.getD 0xFFFF),
     (0xC, 4, f.leaseMs), (0x10, 4, hq.length), (0x14, 4, (hq.map (fun e => e.2.heldCpl.length)).sum),
     (0x18, 4, (s.tab.cqps.filter (fun e => e.2.owner == fid && e.2.endpoint != 0xFFFF)).length),
     (0x1C, 4, (s.tab.tbls.filter (fun e => e.2.owner == fid)).length), (0x20, 8, f.lateDiscarded), (0x28, 8, f.spoofDrops),
     (0x30, 4, f.allot.quota), (0x34, 4, quotaUsed s fid), (0x38, 4, f.reclaim.total), (0x3C, 1, f.kept.length), (0x3D, 1, f.hp),
     (0x3E, 1, f.pf), (0x40, 2, f.vfIndex)]
    ++ (((f.kept.map (fun (k : Nat × Nat) => leBytes 4 k.1 ++ leBytes 2 k.2)).flatten) ++ List.replicate 384 0).take 384

/-- GET_FUNCTION_STATE. -/
def hGetFunctionState : Handler := fun c s =>
  let fid := c.p 0 2
  let adopt := (c.p 2 2).testBit 0
  checked s
    [((fnKnown s fid).isNone || (!c.iss.priv && fid != c.iss.fid), stBadHandle, dtField 0),
     (adopt && fid != c.iss.fid, stConflict, dtNone),
     (adopt && c.pkt.generation != (fnD s fid).gen, stConflict, dtStaleGeneration)]
    (let g := (fnD s fid).gen
     let s := if adopt then (heldQueues s fid).foldl (fun s e => updCqp e.1 (fun q => { q with gen := g, adopted := true }) s) s else s
     Res.ok s false (functionState s fid))

end Sys2Proof.Machine
end

