-- ==== Sys2Proof/Machine/ConfigSpace.lean ====
section
/-! DEFINITION. Configuration space of the functions, as a read of it finds it: the identity of R389 with the Revision ID of R2, the capabilities of R390 with
their pointers, and the SR-IOV and power management values of R391 and R423. No row of the table reads it; fields that the manual leaves to the PCI
Express Base Specification are not here. -/

namespace Sys2Proof.Machine

open Sys2Proof

/-- A capability of R390: its offset, its ID in the PCI Express Base Specification (PRESUMED, log 180), and whether PF0, the other PFs and the VFs have it. -/
structure Capability where
  offset : Nat
  id : Nat
  pf0 : Bool
  pfs : Bool
  vfs : Bool
  deriving DecidableEq, Repr

/-- The capabilities of R390 below 0x100, and the extended ones, in the order listed. -/
def capabilities : List Capability :=
  [{ offset := 0x040, id := 0x01, pf0 := true, pfs := true, vfs := false },
   { offset := 0x050, id := 0x11, pf0 := true, pfs := true, vfs := true },
   { offset := 0x060, id := 0x10, pf0 := true, pfs := true, vfs := true }]
def extCapabilities : List Capability :=
  [{ offset := 0x100, id := 0x01, pf0 := true, pfs := true, vfs := true },
   { offset := 0x148, id := 0x0E, pf0 := true, pfs := true, vfs := true },
   { offset := 0x150, id := 0x10, pf0 := true, pfs := true, vfs := false },
   { offset := 0x190, id := 0x1B, pf0 := true, pfs := true, vfs := true },
   { offset := 0x198, id := 0x0F, pf0 := true, pfs := true, vfs := true },
   { offset := 0x1A0, id := 0x2E, pf0 := true, pfs := false, vfs := false },
   { offset := 0x1C0, id := 0x30, pf0 := true, pfs := false, vfs := false },
   { offset := 0x300, id := 0x19, pf0 := true, pfs := false, vfs := false },
   { offset := 0x330, id := 0x25, pf0 := true, pfs := false, vfs := false },
   { offset := 0x340, id := 0x26, pf0 := true, pfs := false, vfs := false },
   { offset := 0x380, id := 0x2A, pf0 := true, pfs := false, vfs := false },
   { offset := 0x3C0, id := 0x31, pf0 := true, pfs := false, vfs := false },
   { offset := 0x3E0, id := 0x27, pf0 := true, pfs := false, vfs := false },
   { offset := 0x430, id := 0x32, pf0 := true, pfs := false, vfs := false }]

/-- A PF 0 of a host port. -/
def isPf0 (fid : Nat) : Bool := isPf fid && fid % 3 == 0

/-- A function has a capability. -/
def hasCap (fid : Nat) (c : Capability) : Bool := if isPf0 fid then c.pf0 else if isPf fid then c.pfs else c.vfs

/-- The next capability that the function has after an offset; 0 at the end. Each pointer skips those that are absent (R390). -/
def nextCap (l : List Capability) (fid off : Nat) : Nat :=
  (((l.filter (fun c => hasCap fid c && decide (off < c.offset))).map (·.offset)).head?).getD 0

/-- Class code (R389). -/
def classCode (s : State) (fid : Nat) : Nat := if pfKind s fid = 0 then 0x120000 else if pfKind s fid = 1 then 0x010802 else 0x020000

/-- Device ID (R389). -/
def deviceId (s : State) (fid : Nat) : Nat := if isVf fid then 0xFFFF else if isPf0 fid && footing s then 0x8403 else 0x8400

/-- First VF Offset of a PF: VF 1 of PF0 is function 3, and the VFs of each PF follow those of the PF before it (R391). -/
def firstVfOffset (s : State) (fid : Nat) : Nat :=
  3 + ((List.range (fid % 3)).map (fun k => (fnD s (fid / 3 * 3 + k)).numVfs)).sum - fid % 3

/-- The header (R389, R2). -/
def configHeader (s : State) (fid off : Nat) : Option Nat :=
  match off with
  | 0x00 => some ((if isVf fid then 0xFFFF else 0x1F6D) + deviceId s fid * 2 ^ 16)
  | 0x04 => some (cfgWord s fid 4 + 2 ^ 20)
  | 0x08 => some (0x10 + classCode s fid * 2 ^ 8)
  | 0x0C => some (if isPf0 fid then 0x80 * 2 ^ 16 else 0)
  | 0x2C => some Config.boardSubsystem
  | 0x34 => some (nextCap capabilities fid 0)
  | _ => none

/-- A word of a BAR register, type bits included; an unlisted BAR reads zero (R393). -/
def barWord (s : State) (fid base : Nat) (table : List (Nat × Nat × Bool)) (off : Nat) : Nat :=
  let i := (off - base) / 4
  match table.find? (fun b => b.1 == i || b.1 + 1 == i) with
  | some b => cfgWord s fid off + (if b.1 = i then 4 + bit b.2.2 * 8 else 0)
  | none => 0

/-- Offset and BAR of a function's MSI-X table and pending bits: in the function register area (R393, R394). -/
def msixPlace (s : State) (fid off : Nat) : Nat := off + (if pfKind s fid = 1 then 4 else 0)

/-- Fields inside the capabilities that the manual gives: the power state (R423), the MSI-X table (R394), AtomicOp Requester Enable (R432), and SR-IOV
(R391). -/
def configFields (s : State) (fid off : Nat) : Option Nat :=
  let f := fnD s fid
  if off = 0x54 then some (msixPlace s fid 0x10000)
  else if off = 0x58 then some (msixPlace s fid 0x18000)
  else if off = 0x88 then some (cfgWord s fid 0x88)
  else if 0x10 ≤ off ∧ off < 0x28 then some (if isVf fid then 0 else barWord s fid 0x10 (barTable false (pfKind s fid)) off)
  else if isPf fid then
    if 0x174 ≤ off ∧ off < 0x18C then some (barWord s fid 0x174 (barTable true (pfKind s fid)) off)
    else match off with
    | 0x044 => some ((match f.dstate with | .d0 => 0 | .d1 => 1 | .d3hot => 3 | .d3cold => 3) + 8 + bit f.pmeEn * 2 ^ 8)
    | 0x158 => some (bit f.vfEnable + cfgWord s fid 0x158)
    | 0x15C => some (1024 * 2 ^ 16)
    | 0x160 => some f.numVfs
    | 0x164 => some (firstVfOffset s fid + 1 * 2 ^ 16)
    | 0x168 => some (0x8401 * 2 ^ 16)
    | 0x16C => some 1
    | 0x170 => some 1
    | _ => none
  else none

/-- The 32-bit word of configuration space at an offset; none where the manual gives the function no value for it. -/
def configRead (s : State) (fid off : Nat) : Option Nat :=
  match capabilities.find? (fun c => c.offset == off && hasCap fid c), extCapabilities.find? (fun c => c.offset == off && hasCap fid c) with
  | some c, _ => some (c.id + nextCap capabilities fid off * 2 ^ 8 + (if c.id = 0x11 then (vectorCount fid - 1) * 2 ^ 16 + cfgWord s fid 0x50 else 0))
  | none, some c => some (c.id + Config.capVersion c.id % 16 * 2 ^ 16 + nextCap extCapabilities fid off * 2 ^ 20)
  | none, none => (configHeader s fid off).or (configFields s fid off)

/-! ### Writes (R389, R391, R393, R432) -/

/-- One half of a 64-bit BAR is written; address bits below its size stay 0. -/
def barWrite (fid base : Nat) (table : List (Nat × Nat × Bool)) (off v : Nat) (s : State) : State :=
  let i := (off - base) / 4
  match table.find? (fun b => b.1 == i || b.1 + 1 == i) with
  | some b =>
    let at_ := base + 4 * b.1
    let old := barAt s fid at_
    let full := if b.1 = i then old / 2 ^ 32 * 2 ^ 32 + v % 2 ^ 32 else v % 2 ^ 32 * 2 ^ 32 + old % 2 ^ 32
    let x := full / b.2.1 * b.2.1
    setCfg fid (at_ + 4) (x / 2 ^ 32) (setCfg fid at_ (x % 2 ^ 32) s)
  | none => s

/-- A 32-bit write to the words that configuration space stores. The rows of R391, R404 and R423 write the other fields. -/
def configWrite (fid off v : Nat) (s : State) : State :=
  match off with
  | 0x04 => setCfg fid 4 (bits v 2 1 * 4 + (if isPf fid then bits v 1 1 * 2 + bits v 6 1 * 64 + bits v 8 1 * 256 else 0)) s
  | 0x50 => releaseMsix fid (setCfg fid 0x50 (bits v 30 2 * 2 ^ 30) s)
  | 0x88 => setCfg fid 0x88 (v % 2 ^ 16) s
  | 0x158 => if isPf fid then setCfg fid 0x158 (bits v 3 2 * 8) s else s
  | _ =>
    if !isPf fid then s
    else if 0x10 ≤ off ∧ off < 0x28 then barWrite fid 0x10 (barTable false (pfKind s fid)) off v s
    else if 0x174 ≤ off ∧ off < 0x18C then barWrite fid 0x174 (barTable true (pfKind s fid)) off v s
    else s

/-! ### The MSI-X tables (R394) -/

/-- A word of a function's MSI-X table: address, address, data, and the mask in bit 0 of the fourth. -/
def msixWord (s : State) (fid w : Nat) : Nat := if w < 4 * vectorCount fid then (lookD s.ports.msix (fid * 8192 + w) 0).toNat else 0

def msixWrite (fid w v : Nat) (s : State) : State :=
  if w < 4 * vectorCount fid then
    let x := if w % 4 = 0 then v / 4 * 4 else if w % 4 = 3 then v % 2 else v
    releaseMsix fid (s.setPorts { s.ports with msix := put s.ports.msix (fid * 8192 + w) (BitVec.ofNat 32 x) })
  else s

/-- A 32-bit word of a function's pending bit array: bit b of word w tells of vector 32 w + b. -/
def pendingWord (s : State) (fid w : Nat) : Nat :=
  ((List.range 32).map (fun b => bit (s.ports.msixPending.contains (fid, 32 * w + b)) * 2 ^ b)).sum

/-! ### The hierarchy that a host sees (R385, R386, R391) -/

/-- The accelerator links below a host port, in order of block and link. -/
def downstreamLinks (s : State) (hp : Nat) : List Nat :=
  (List.range 80).filter (fun ep => (pbOf s (ep / 4)).role == 2 && (pbOf s (ep / 4)).hostPort == hp
    && decide (ep % 4 < (bifurLanes (pbOf s (ep / 4)).bifur).length))

/-- The bridges below the bus that a host assigns: bus, counted from there, and device number. Every one has Device ID 0x8402 and class 0x060400. -/
def bridgesBelow (s : State) (hp : Nat) : List (Nat × Nat) :=
  (0, 0) :: (1, 0) :: (List.range (downstreamLinks s hp).length).map (fun i => (1, i + 1))
def bridgeIds : Nat × Nat := (0x8402, 0x060400)

/-- Bus and function number of a function of the endpoint, under ARI: the PFs are functions 0 to 2 of bus B + 2, the VFs follow. -/
def functionPlace (s : State) (fid : Nat) : Nat × Nat :=
  let f := fnD s fid
  let n := if isPf fid then fid % 3 else f.pf + firstVfOffset s (pfId f.hp f.pf) + (f.vfIndex - 1)
  (2 + n / 256, n % 256)

/-- The ACS capability of a downstream bridge: Source Validation, P2P Request Redirect, P2P Completion Redirect and Upstream Forwarding. -/
def acsCapability : Nat := 1 + 4 + 8 + 16

/-- The ACS control of the downstream bridge above an accelerator link. -/
def acsControl (s : State) (ep : Nat) : Nat := lookD s.ports.acs ep 0

/-- ACS control is written: the bits of the capability. -/
def acsWrite (ep v : Nat) (s : State) : State := s.setPorts { s.ports with acs := put s.ports.acs ep (v &&& acsCapability) }

/-- Traffic between two accelerator links stays inside the part unless the ACS control of either bridge redirects requests (R386). -/
def routedInside (s : State) (a b : Nat) : Bool := !(acsControl s a).testBit 2 && !(acsControl s b).testBit 2

end Sys2Proof.Machine
end

