-- ==== Sys2Proof/Machine/Memory.lean ====
section
/-! DEFINITION. The events of custody memory (chapter 3): link errors and retraining, run-time fences, placement after a fence, scrubbing, tiering and spare rows. -/

namespace Sys2Proof.Machine

open Sys2Proof

/-! ### Channels (R112, R113, R136) -/

def second : Nat := 1000000000

/-- A channel starts to retrain: counted in MC_RETRAIN and as a warning event; more than 8 retrains within 1 s fence it. -/
def startRetrain (mc ch : Nat) (s : State) : State :=
  let x := 16 * mc + ch
  let t := now s (0x20 + mc)
  let recent := (lookD s.mem.retrains x []).filter (fun y => decide (t < y + second))
  let s := s.setMem { s.mem with retrains := put s.mem.retrains x (t :: recent),
                                 retraining := x :: s.mem.retraining.filter (fun y => y != x) }
  let s := warn 1 1 (bump (blkMc mc) 0x124 s)
  if 8 < recent.length + 1 then fenceChannel mc ch 3 s else s

/-- A transfer fails its link CRC for the nth retry. -/
def execLinkCrcFail (mc channel retry : Nat) (s : State) : Host.Outcome State Fault Refusal :=
  .next (
    let x := 16 * mc + channel
    if 5 < mc ∨ 15 < channel ∨ !s.mem.channels.contains x ∨ has s.mem.fenced x then s
    else if retry < cell s (blkMc mc) 0x10C % 16 then s
    else settle (startRetrain mc channel s))

/-- A retrain ends: the channel's accesses go on, or it is fenced. -/
def execChannelRetrainDone (mc channel : Nat) (trained : Bool) (s : State) : Host.Outcome State Fault Refusal :=
  .next (
    let x := 16 * mc + channel
    if !s.mem.retraining.contains x then s
    else
      let s := s.setMem { s.mem with retraining := s.mem.retraining.filter (fun y => y != x) }
      if trained then settle (releaseAccs s) else settle (fenceChannel mc channel 3 s))

/-- MC_FENCE_REQ is written: each bit set fences its channel; from any issuer but PF0 and the steward cores it is ignored and
counted. -/
def mcFenceReq (who : Requester) (mc mask : Nat) (s : State) : State :=
  if 5 < mc then s
  else if !trusted who then countUnmapped (blkBase (blkMc mc) + 0x110) s
  else settle ((List.range 16).foldl (fun s c => if mask.testBit c then fenceChannel mc c 3 s else s) s)

def execMcFenceReq (who : Requester) (mc : Nat) (mask : Nat) (s : State) : Host.Outcome State Fault Refusal :=
  .next (mcFenceReq who mc mask s)

/-- A block that a fence left without a frame takes a frame that has become free, and its rows go to repointing. -/
def execPoisonedBlockPlaced (table region index : Nat) (s : State) : Host.Outcome State Fault Refusal :=
  .next (thawed s <| match blkFind s table region index with
    | none => s
    | some b =>
      if b.frame.isSome then s
      else match recoverFrame b.cls s with
        | none => s
        | some (f, s) =>
          let s := updBlk table region index (fun x => { x with frame := some f }) s
          let w := blockRows (tblD s table) region index
          let again := fun (t : Tbl) (row : Nat) => s.course.committed.isSome && rowWhole s table t row
          settle (updTbl table (fun t => { t with bad := t.bad.map (fun (x : BadRow) =>
            if w.1 ≤ x.row ∧ x.row < w.1 + w.2 then { x with repointing := again t x.row } else x) }) s))

/-- The patrol scrubber reads a line (R123). -/
def execScrubRead (dpa : Nat) (fault : Option LineFault) (s : State) : Host.Outcome State Fault Refusal :=
  .next (thawed s <| 
    let f := dpa / frameBytes
    let mc := frameChan s f / 16
    if channelHeld s dpa || !(isHotFrame f && hotPopulated s f && !retired s f && (cell s (blkMc mc) 0x114).testBit 31) then s
    else
      let s := setCell (blkMc mc) 0x118 f s
      match fault with
      | some lf => settle (lineFault { lf with dpa := lineOf dpa } s)
      | none => s)

/-- A CXL link has been down for 250 µs (R127). -/
def execCxlLinkDown (block link : Nat) (s : State) : Host.Outcome State Fault Refusal :=
  .next (if 19 < block ∨ 3 < link then s else settle (fenceCxl block link s))

/-! ### Tiering (R128 to R133) -/

def heatHalved (s : State) : State := s.setMem { s.mem with blocks := s.mem.blocks.map (fun b => { b with heat := b.heat / 2 }) }

/-- AUTO blocks of one tier that are not being moved. -/
def movable (s : State) (hot : Bool) : List Blk :=
  s.mem.blocks.filter (fun b => b.cls == .auto && b.moving.isNone && (match b.frame with | some f => isHotFrame f == hot | none => false))

def hottestFirst (l : List Blk) : List Blk := sortBy (fun a b => decide (b.heat ≤ a.heat)) l
def coldestFirst (l : List Blk) : List Blk := sortBy (fun a b => decide (a.heat ≤ b.heat)) l

/-- A block's move to a frame of a tier begins, within the epoch's budget; the flag says that it began. -/
def beginMove (hot : Bool) (b : Blk) (s : State) : Bool × State :=
  if moveBudget s ≤ s.mem.moves then (false, s)
  else match takeFrame hot false s with
    | some (f, s) => (true, updBlk b.table b.region b.index (fun x => { x with moving := some f })
        (s.setMem { s.mem with moves := s.mem.moves + 1 }))
    | none => (false, s)

/-- Percentage of GDDR7 frames free, as a comparison of a count with a bound. -/
def belowPct (s : State) (free pct : Nat) : Bool := decide (free * 100 < pct * hotUsable s)

/-- Blocks are demoted, coldest first, until enough frames are free or become so. -/
def demoteBlocks (high : Nat) : List Blk → Nat → State → Nat × State
  | [], n, s => (n, s)
  | b :: r, n, s =>
    if belowPct s (hotFreeCount s + n) high then
      let m := beginMove false b s
      if m.1 then demoteBlocks high r (n + 1) m.2 else (n, m.2)
    else (n, s)

/-- Blocks are promoted, hottest first, while free frames stay above the high water mark. -/
def promoteBlocks (high : Nat) : List Blk → Nat → State → Nat × State
  | [], n, s => (n, s)
  | b :: r, n, s =>
    if high * hotUsable s < (hotFreeCount s - 1) * 100 then
      let m := beginMove true b s
      if m.1 then promoteBlocks high r (n + 1) m.2 else (n, m.2)
    else (n, s)

/-- The second block of a pair moves when the first one's frame has come free. -/
def moveAfter (a b : Blk) (s : State) : State :=
  updBlk a.table a.region a.index (fun x => { x with swapFor := some (b.table, b.region, b.index) })
    (s.setMem { s.mem with moves := s.mem.moves + 1 })

/-- Pairs change places, hottest with coldest first. Both blocks move at once where both tiers have a free frame; where one has none, the move
that needs none of its own goes first and frees the frame that the other takes. -/
def swapBlocks : List (Blk × Blk) → Nat → State → Nat × State
  | [], n, s => (n, s)
  | p :: r, n, s =>
    if moveBudget s < s.mem.moves + 2 ∨ (hotFreeCount s = 0 ∧ coldFreeCount s = 0) then (n, s)
    else if hotFreeCount s = 0 then swapBlocks r (n + 1) (moveAfter p.2 p.1 (beginMove false p.2 s).2)
    else if coldFreeCount s = 0 then swapBlocks r (n + 1) (moveAfter p.1 p.2 (beginMove true p.1 s).2)
    else swapBlocks r (n + 1) (beginMove false p.2 (beginMove true p.1 s).2).2

/-- The moves of an epoch: promotions, demotions and swaps begun. -/
def epochMoves (s : State) : (Nat × Nat × Nat) × State :=
  let th := cell s blkTable 0x10004
  let wa := cell s blkTable 0x10008
  let free := hotFreeCount s
  let warmCold := hottestFirst ((movable s false).filter (fun b => decide (bits th 8 8 ≤ b.heat)))
  if belowPct s free (bits wa 0 8) then
    let r := demoteBlocks (bits wa 8 8) (coldestFirst (movable s true)) 0 s
    ((0, r.1, 0), r.2)
  else if bits wa 8 8 * hotUsable s < free * 100 then
    let r := promoteBlocks (bits wa 8 8) warmCold 0 s
    ((r.1, 0, 0), r.2)
  else
    let r := swapBlocks (warmCold.zip (coldestFirst ((movable s true).filter (fun b => decide (b.heat ≤ bits th 0 8))))) 0 s
    ((0, 0, r.1), r.2)

/-- An epoch ends: the policy acts on the heat of the epoch, one record tells of it, and every heat counter is halved. OLD of the record holds the free
GDDR7 frames before in [21:0], promotions in [43:22] and the low 20 bits of the swaps in [63:44]; NEW the free frames after, demotions and the
high 20 bits of the swaps (log 174). -/
def execTierEpochEnd (s : State) : Host.Outcome State Fault Refusal :=
  .next (thawed s <| 
    let free := hotFreeCount s
    let s := s.setMem { s.mem with moves := 0 }
    if !(cell s blkTable 0x10000).testBit 31 || isolated s blkTable then heatHalved s
    else
      let r := epochMoves s
      let c := r.1
      let s' := heatHalved r.2
      if c = (0, 0, 0) then s'
      else
        let f := fun (n : Nat) => n % 2 ^ 22
        logPolicy 0x40 1 6 0 (f free + f c.1 * 2 ^ 22 + c.2.2 % 2 ^ 20 * 2 ^ 44)
          (f (free + c.2.1 - c.1) + f c.2.1 * 2 ^ 22 + c.2.2 / 2 ^ 20 % 2 ^ 20 * 2 ^ 44) s')

/-- The other block of a swap begins its move into the frame that has come free, where it still can; its move counted when the swap began. -/
def partnerMove (p : Option (Nat × Nat × Nat)) (s : State) : State :=
  match p with
  | none => s
  | some k =>
    match blkFind s k.1 k.2.1 k.2.2 with
    | none => s
    | some b =>
      match b.frame, b.moving with
      | some g, none =>
        if b.cls != .auto then s
        else (match takeFrame (!isHotFrame g) false s with
          | some (f, s) => updBlk k.1 k.2.1 k.2.2 (fun x => { x with moving := some f }) s
          | none => s)
      | _, _ => s

/-- The copy passes of a move have ended: the block map points to the destination and the source frame is free. -/
def execTierMoveComplete (table region index : Nat) (s : State) : Host.Outcome State Fault Refusal :=
  .next (thawed s <| match blkFind s table region index with
    | none => s
    | some b =>
      match b.moving with
      | none => s
      | some f => settle (partnerMove b.swapFor (moveBlock b f (if isHotFrame f then bump blkTable 0x10018 s else bump blkTable 0x1001C s))))

/-! ### On-chip memory (R45, R146) -/

/-- A row or column of an SRAM as one number. -/
def sramCode (block sram row : Nat) (isColumn : Bool) : Nat := ((block * 2 ^ 32 + sram % 2 ^ 32) * 2 ^ 32 + row % 2 ^ 32) * 2 + bit isColumn

/-- A row or column fails parity; the second time within 1 s its replacement is due. -/
def sramParity (code t : Nat) (s : State) : State :=
  let again := match look s.mem.sramFails code with | some t0 => decide (t < t0 + second) | none => false
  s.setMem { s.mem with sramFails := put s.mem.sramFails code t,
                        sramDue := if again && !s.mem.sramDue.contains code then s.mem.sramDue ++ [code] else s.mem.sramDue }

/-- A vault word that held part of a key fails parity: the key is erased from the vault, and its sealed copy opens again at the next start (R144,
R575). -/
def vaultWordLost (h : Nat) (s : State) : State :=
  match keyOf s h with
  | none => s
  | some k => settle (stoSettle (abortKeyless (s.setSec { s.sec with
      keys := put s.sec.keys h { k with material := none, sealedCopy := k.sealedCopy.or k.material },
      keyCache := s.sec.keyCache.filter (fun e => some e.1 != k.material) })))

/-- A word of the vault fails parity and erases the key that holds it (R144): a provisioned key leaves its sealed copy, an identity key pair is gone
until it is derived again, and the session of an SPDM key ends (R572). -/
def vaultKeyLost (code : Nat) (k : VaultKey) (s : State) : State :=
  match k with
  | .provisioned h => vaultWordLost h (s.setMem { s.mem with vaultLost := (code, h) :: s.mem.vaultLost.filter (· != (code, h)) })
  | .deviceId => s.setSec { s.sec with deviceKey := false }
  | .provisionId => s.setSec { s.sec with provisionKey := false }
  | .aliasKey => s.setSec { s.sec with identity := false }
  | .session mb peer sid => endSpdm mb peer sid s

/-- A replaced row or column has its contents again where they have a source: the provisioned keys that it lost, from their sealed copies (R146,
R575). Words without a source, scratch among them, keep what they held (DESIGN CHOICE: log 213). -/
def rowRestored (code : Nat) (s : State) : State :=
  let mine := s.mem.vaultLost.filter (fun x => x.1 == code)
  let s := s.setMem { s.mem with vaultLost := s.mem.vaultLost.filter (fun x => x.1 != code) }
  s.setSec { s.sec with keys := s.sec.keys.map (fun e => if mine.any (fun x => x.2 == e.1) then
    (e.1, { e.2 with material := e.2.material.or e.2.sealedCopy, sealedCopy := none }) else e) }

/-- SRAM_ROW_SPARED: a parity failure of a row or column (of a vault word, with the key it holds), or an idle cycle of its bank, at which a row or
column that failed parity twice within 1 s is replaced. The failure's own error is the event's that met it. What a replaced row without a source holds is a DESIGN CHOICE (log 213). -/
def execSramRowSpared (block sram row : Nat) (event : RowEvent) (s : State) : Host.Outcome State Fault Refusal :=
  let code := sramCode block sram row event.isColumn
  .next (if 60 < block then s
    else if event.idle then
      if s.mem.sramDue.contains code && decide (s.mem.sramUsed < Config.sramSpares) then
        logSpare block 0x0003 sram (row + bit event.isColumn * 2 ^ 31) (rowRestored code (s.setMem { s.mem with
          sramUsed := s.mem.sramUsed + 1, sramDue := s.mem.sramDue.filter (fun c => c != code), sramFails := del s.mem.sramFails code }))
      else s
    else
      let s := sramParity code (now s (blkIsland block)) s
      if block = blkCipher then (match event.key with | some k => vaultKeyLost code k s | none => s) else s)

end Sys2Proof.Machine
end

