-- ==== Sys2Proof/Machine/Csr.lean ====
section
/-! DEFINITION. Control and status registers: what each register of CSR space reads, from the one home of its state, and how a write to a field is stored by its access type (R12 to R14, R28 to R30). -/

namespace Sys2Proof.Machine

open Sys2Proof

/-! ### The block header (R621) -/

/-- Time left before escalation in µs (ERR_TIMER_LEFT). -/
def timerLeft (s : State) (b : Nat) : Nat :=
  let h := errOf s b
  if h.running then (h.timerEnd - now s (blkIsland b)) / 1000 % 2 ^ 24 else 0

/-- A header register of a block (offsets 0x00 to 0x3C). -/
def headerReg (s : State) (b rel : Nat) : Nat :=
  let h := errOf s b
  match rel with
  | 0x00 => blkIsland b * 2 ^ 24 + b
  | 0x04 => 2 ^ 16
  | 0x10 => bit h.isolated * 2 ^ 31 + bit s.tel.frozen * 2 ^ 30 + bit h.escalated * 2 ^ 29 + bit h.acked * 2 ^ 28
              + h.cls % 4 * 16 + bit h.fatSeen * 4 + bit h.conSeen * 2 + bit h.corSeen
  | 0x14 => bit h.valid * 2 ^ 31 + h.seq % 16 * 2 ^ 24 + h.fcls % 4 * 2 ^ 20 + h.source % 2 ^ 16
  | 0x18 => bit h.ovf * 2 ^ 31 + h.highest % 4 * 2 ^ 20 + h.ovfCount % 2 ^ 16
  | 0x1C => bit h.corSilent
  | 0x20 => h.fatCount % 256 * 2 ^ 24 + h.conCount % 256 * 2 ^ 16 + h.corCount % 2 ^ 16
  | 0x24 => bit h.running * 2 ^ 31 + h.ms % 2 ^ 14
  | 0x2C => timerLeft s b
  | 0x30 => h.info.getD 0 0
  | 0x34 => h.info.getD 1 0
  | 0x38 => h.info.getD 2 0
  | 0x3C => h.info.getD 3 0
  | _ => 0

/-! ### Performance counters (R637 to R639) -/

def perfOf (s : State) (b n : Nat) : PerfCtr := lookD s.perf (b * 8 + n) {}
def setPerfCtr (b n : Nat) (c : PerfCtr) (s : State) : State := s.setPerf (put s.perf (b * 8 + n) c)

/-- The greatest value per cycle of a block's event with a unit; none where the event or unit is undefined (R639). -/
def eventMax (b ev unit : Nat) : Option Nat :=
  let unitMax := fun (lim one all : Nat) =>
    if unit < lim then some one else if unit = 0x1F then some all else none
  if ev ≤ 2 then some 1
  else if 2 ≤ b ∧ b ≤ 18 then
    (if 0x100 ≤ ev ∧ ev ≤ 0x107 then unitMax 17 1 16 else if ev = 0x110 then unitMax 17 256 4096 else none)
  else if 19 ≤ b ∧ b ≤ 24 then
    (if ev = 0x100 ∨ ev = 0x101 then unitMax 16 1 16 else if ev = 0x102 then unitMax 16 64 1024 else none)
  else if b = blkTable then (if ev = 0x100 ∨ ev = 0x101 then some 16 else if ev = 0x102 then some 65536 else none)
  else if b = blkCourse then (if ev = 0x100 ∨ ev = 0x101 then some 1 else if ev = 0x102 then some 524288 else none)
  else if b = blkStorage then (if ev = 0x100 then some 16 else if ev = 0x101 then some 65536 else none)
  else if b = blkTransport then (if ev = 0x100 ∨ ev = 0x101 then some 8 else if ev = 0x102 then some 524288 else none)
  else if 33 ≤ b ∧ b ≤ 52 then (if (ev = 0x100 ∨ ev = 0x101) ∧ unit < 4 then some 4 else none)
  else if 53 ≤ b then (if ev = 0x100 ∧ unit < 4 then some 67108864 else none)
  else none

/-- A counter register of a block (offsets 0x200 to 0x27F). -/
def perfReg (s : State) (b rel : Nat) : Nat :=
  let c := perfOf s b ((rel - 0x200) / 16)
  match rel % 16 with
  | 0 => bit c.enable * 2 ^ 31 + c.mode % 4 * 2 ^ 29 + c.unit % 256 * 2 ^ 16 + c.event % 2 ^ 16
  | 4 => c.thresh % 2 ^ 32
  | 8 => c.count % 2 ^ 32
  | 12 => c.count / 2 ^ 32 % 2 ^ 16
  | _ => 0

/-! ### Registers that show state held elsewhere -/

/-- Milliseconds before the start watchdog expires (R654). -/
def watchdogLeft (s : State) : Nat :=
  if s.boot.watchdog then (10000 - (nowAon s - s.boot.startFrom) / 1000000) % 2 ^ 14 else 0

/-- Reason of the newest completed or failed start. -/
def lastReason (s : State) : Nat :=
  match s.boot.records.find? (fun r => r.outcome == 1 || r.outcome == 2) with
  | some r => r.reason
  | none => 0

/-- A mask over the conditioned inputs (R725). -/
def inputMask (s : State) (p : Input → Bool) : Nat :=
  ((s.pins.inputs.filter (fun e => decide (e.1 < 23) && p e.2)).map (fun e => 2 ^ e.1)).sum

/-- Mode of a GPIO ball (R725): 0 input, 1 push-pull, 2 open-drain, 3 disabled. -/
def gpioMode (s : State) (g : Nat) : Nat := bits (cell s blkGlobal 0x158) (2 * g) 2

/-- Registers of the global block (R680, R725). -/
def globalReg (s : State) (rel : Nat) : Option Nat :=
  match rel with
  | 0x100 => some (lastReason s % 256 * 2 ^ 24 + s.boot.footingReason % 256 * 2 ^ 8 + s.boot.stage % 8)
  | 0x104 => some (s.boot.threshold % 256 * 2 ^ 8 + s.boot.record.failedStarts % 256)
  | 0x10C => some (s.boot.record.pendingSlot % 256 * 2 ^ 16 + s.boot.runningSlot % 256 * 2 ^ 8
                    + bit s.boot.overridden * 4 + s.boot.source % 4)
  | 0x110 => some s.boot.running.fwVersion
  | 0x114 => some s.boot.startMs
  | 0x118 => some (bit s.boot.watchdog * 2 ^ 31 + watchdogLeft s)
  | 0x140 => some (s.pins.strapPins % 2 ^ 16 * 2 ^ 16 + s.pins.latched % 2 ^ 16)
  | 0x144 => some (s.pins.nextMask % 2 ^ 16 * 2 ^ 16 + s.pins.nextValue % 2 ^ 16)
  | 0x148 => some (inputMask s (·.active))
  | 0x14C => some (inputMask s (·.stuck))
  | 0x160 => some (((List.range 16).map (fun g =>
      if gpioMode s g = 3 then 0 else bit (s.pins.gpioIn.testBit g) * 2 ^ g)).sum)
  | _ => none

/-- Registers of a memory controller (R135). -/
def mcReg (s : State) (n rel : Nat) : Option Nat :=
  let pop := bits s.pins.latched 6 2
  let chans := (List.range 16).filter (fun c => s.mem.channels.contains (16 * n + c))
  let cause := fun c => lookD s.mem.fenced (16 * n + c) 0
  match rel with
  | 0x100 => some ((if s.mem.hotTotal = 0 then 0 else s.mem.density % 4 * 2 ^ 12) + bit (decide (pop = 3)) * 2 ^ 8
                    + ((List.range 4).map (fun p => if s.mem.present.contains (4 * n + p) then 2 ^ p else 0)).sum)
  | 0x104 => some (((List.range 16).map (fun c => if cause c ≠ 0 then 2 ^ (16 + c) else 0)).sum
                    + (chans.map (fun c => if cause c = 0 then 2 ^ c else 0)).sum)
  | 0x108 => some (((List.range 16).map (fun c => cause c % 4 * 2 ^ (2 * c))).sum)
  | _ => none

/-- The tiering registers that show free frames and moves (R134). -/
def tierReg (s : State) (rel : Nat) : Option Nat :=
  match rel with
  | 0x10010 => some (hotFreeCount s)
  | 0x10014 => some (coldFreeCount s)
  | 0x10020 => some (bit (s.mem.blocks.any (fun b => b.moving.isSome)))
  | _ => none

/-- Registers of a port block (R384). -/
def pbReg (s : State) (n rel : Nat) : Option Nat :=
  let p := pbOf s n
  if rel = 0x100 then some (bit p.propagate * 2 ^ 16 + p.hostPort % 2 * 2 ^ 8 + p.bifur % 16 * 16 + p.role % 16)
  else if 0x104 ≤ rel ∧ rel ≤ 0x110 then
    let l := (p.links[(rel - 0x104) / 4]?).getD {}
    some (l.polarity % 2 ^ 16 * 2 ^ 16 + bit l.reversed * 2 ^ 13 + bit l.flit * 2 ^ 12 + l.speed % 8 * 2 ^ 8 + l.width % 32)
  else none

/-- A 64-bit summary over the blocks (R647). -/
def summary (s : State) (p : ErrHdr → Bool) : Nat :=
  ((List.range 61).map (fun b => if p (errOf s b) then 2 ^ b else 0)).sum
def sumCor (s : State) : Nat := summary s (·.corSeen)
def sumCon (s : State) : Nat := summary s (fun h => h.conSeen || h.isolated)
def sumFat (s : State) : Nat := summary s (·.fatSeen)

/-- Registers of the telemetry block (R647). -/
def telemReg (s : State) (rel : Nat) : Option Nat :=
  match rel with
  | 0x100 => some (sumCor s % 2 ^ 32)
  | 0x104 => some (sumCor s / 2 ^ 32)
  | 0x108 => some (sumCon s % 2 ^ 32)
  | 0x10C => some (sumCon s / 2 ^ 32)
  | 0x110 => some (sumFat s % 2 ^ 32)
  | 0x114 => some (sumFat s / 2 ^ 32)
  | 0x118 => some (bit (faultAsserted s))
  | 0x134 => some s.tel.plogNext
  | _ => none

/-- Registers of the power and thermal block (R698). -/
def powerReg (s : State) (rel : Nat) : Option Nat :=
  let p := s.pwr
  match rel with
  | 0x100 => some (bit p.trippedLast * 64 + bit (decide (p.diodeState ≠ 0)) * 32 + bit p.capUnmet * 16
                    + bit (thermalEmergency s) * 8 + bit p.limiter * 4 + bit p.fallback * 2)
  | 0x104 => some (p.tempC % 256 * 2 ^ 16 + p.capW % 1024)
  | 0x108 => some p.powerMw
  | 0x10C => some (p.hottestIsland % 256 * 2 ^ 24 + p.hottest % 4096)
  | 0x110 => some (p.diodeState % 4 * 2 ^ 12 + p.diodeTemp % 4096)
  | 0x120 => some (p.vddq % 2 ^ 16 * 2 ^ 16 + p.vddk % 2 ^ 16)
  | _ => none

/-- Registers of the course engine (R342). -/
def courseReg (s : State) (rel : Nat) : Option Nat :=
  let r := crun s
  match rel with
  | 0x100 => some (s.course.lastDetail % 2 ^ 16 * 2 ^ 16 + s.course.lastOutcome % 16 * 16 + (if s.course.run.isSome then r.status % 16 else 0))
  | 0x104 => some r.id
  | 0x108 => some r.step
  | 0x10C => some (fencePending s)
  | 0x110 => some r.total
  | 0x114 => some (blocksCaptured s)
  | 0x118 => some r.spill.length
  | 0x11C => some s.course.spillWaits
  | 0x120 => some r.cbu
  | 0x124 => some (r.drained / 2 ^ 20)
  | _ => none

/-- Registers of a cluster (R196). CL_SLOTS.FREE of a cluster without a logical index reads 0 (DESIGN CHOICE, log 217). -/
def clusterReg (s : State) (p rel : Nat) : Option Nat :=
  let u := unitOf s p
  match rel with
  | 0x100 => some u.active
  | 0x104 => some u.failed
  | 0x108 => some (u.logical % 256 * 2 ^ 24 + u.spare % 32)
  | 0x10C => some (if has s.mason.units p then (islandOf s p).mhz % 4096 else 0)
  | 0x120 => some (if u.logical < 16 then ((liveCores u).map (fun c => (freeSlots s (u.logical * 16 + c)).length)).sum else 0)
  | _ => none

/-- A register whose value comes from state held elsewhere. -/
def derivedReg (s : State) (b rel : Nat) : Option Nat :=
  if b = blkGlobal then globalReg s rel
  else if 2 ≤ b ∧ b ≤ 18 then clusterReg s (b - 2) rel
  else if 19 ≤ b ∧ b ≤ 24 then mcReg s (b - 19) rel
  else if b = blkTable then tierReg s rel
  else if b = blkCourse then courseReg s rel
  else if b = blkStorage then storageReg s rel
  else if b = blkTransport then grtReg s rel
  else if b = blkCipher then cipherReg s rel
  else if b = blkTelem then telemReg s rel
  else if b = blkPower then powerReg s rel
  else if 33 ≤ b ∧ b ≤ 52 then pbReg s (b - 33) rel
  else if 53 ≤ b then enReg s (b - 53) rel
  else none

/-- The word a block's register reads. -/
def regRead (s : State) (b rel : Nat) : Nat :=
  if rel < 0x40 then headerReg s b rel
  else if rel < 0x100 then 0
  else if 0x200 ≤ rel ∧ rel < 0x280 then perfReg s b rel
  else match derivedReg s b rel with
    | some v => v % 2 ^ 32
    | none => cell s b rel

/-- A read of an aligned word of CSR space; an unoccupied offset reads 0 (R29). -/
def csrRead (s : State) (off : Nat) : Nat :=
  match blkOf off with
  | some (b, rel) => regRead s b rel
  | none => 0

/-- The read as an access: one at an unoccupied offset is counted. -/
def csrReadCount (off : Nat) (s : State) : State :=
  match blkOf off with
  | some _ => s
  | none => countUnmapped off s

/-! ### Writes by access type (R12) -/

/-- The value a stored register takes from a write, each field by its access type and clamped in ascending order of the field it
depends on; none: the register has no field that a plain write stores. -/
def storedWrite (s : State) (b rel v : Nat) : Option Nat :=
  if b = blkTable then
    match rel with
    | 0x10000 => some (bits v 31 1 * 2 ^ 31 + clampN 1 10000 (bits v 0 14))
    | 0x10004 =>
      let hi := clampN 1 255 (bits v 8 8)
      some (hi * 256 + clampN 0 (hi - 1) (bits v 0 8))
    | 0x10008 =>
      let lo := clampN 1 49 (bits v 0 8)
      some (clampN (lo + 1) 50 (bits v 8 8) * 256 + lo)
    | 0x1000C => some (clampN 1 64 (bits v 0 8))
    | _ => none
  else if 19 ≤ b ∧ b ≤ 24 then
    match rel with
    | 0x10C => some (clampN 1 8 (bits v 0 4))
    | 0x114 => some (bits v 31 1 * 2 ^ 31 + clampN 1 168 (bits v 0 8))
    | _ => none
  else if 2 ≤ b ∧ b ≤ 18 then (if rel = 0x128 then some (clampN 16 4096 (bits v 0 13)) else none)
  else if b = blkTelem then (if 0x120 ≤ rel ∧ rel ≤ 0x12C then some v else none)
  else if b = blkGlobal then
    match rel with
    | 0x158 => some v
    | 0x15C => some (v % 2 ^ 16)
    | 0x168 => some (cell s blkGlobal 0x168 - (cell s blkGlobal 0x168) % 64
                      + ((List.range 6).map (fun i =>
                          if (cell s blkGlobal 0x168).testBit i && !v.testBit i then 2 ^ i else 0)).sum)
    | _ => none
  else none

/-- Registers that only PF0 and the steward cores may write (R136, R648, R681, R726 and the chapters that name more). -/
def guarded (b rel : Nat) : Bool :=
  rel == 0x1C || rel == 0x24 || rel == 0x28
    || (decide (19 ≤ b ∧ b ≤ 24) && rel == 0x110)
    || (b == blkTelem && decide (0x120 ≤ rel ∧ rel ≤ 0x12C))
    || (b == blkGlobal && (rel == 0x108 || rel == 0x158 || rel == 0x15C || rel == 0x168))
    || (decide (2 ≤ b ∧ b ≤ 18) && rel == 0x11C)
    || (b == blkCourse && rel == 0x128)
    || (b == blkCipher && rel == 0x108)

/-! ### The dump (R633) -/

/-- The bytes 0x000 to 0x3FF of a block's CSR space. -/
def blkBytes (s : State) (b : Nat) : Bytes :=
  ((List.range 256).map (fun i => leBytes 4 (regRead s b (4 * i)))).flatten

/-- One record per block in index order, then the steward state's record of 16 bytes. -/
def dumpBytes (s : State) : Bytes :=
  ((List.range 61).map (fun b => leBytes 2 b ++ [0, 0] ++ leBytes 4 1024 ++ blkBytes s b)).flatten
    ++ leBytes 2 0xFFFF ++ [0, 0] ++ leBytes 4 16 ++ leBytes 4 s.boot.running.fwVersion
    ++ leBytes 4 s.boot.running.buildId ++ leBytes 2 s.boot.running.liveVersion ++ [0, 0, 0, 0, 0, 0]

end Sys2Proof.Machine
end

