-- ==== Sys2Proof/Machine/Faults.lean ====
section
/-! DEFINITION. Fault handling and telemetry commands (chapter 14): FAT reaction, acknowledgement, clearing, escalation, counters, policy bounds, the policy log and the dump. -/

namespace Sys2Proof.Machine

open Sys2Proof

/-! ### FAT (R629) -/

/-- Every cluster is held at P5 under the fallback governor (R693). -/
def clustersToP5 (s : State) : State :=
  (List.range 17).foldl (fun s c => updIsland c (fun x => { x with point := 5, mhz := 400 }) s) (takeFallback s)

/-- A FAT is recorded, freezes the part at once, and the dump is written. -/
def recordFat (b src : Nat) (info : List Nat) (s : State) : State :=
  let before := alertAsserted s
  let s := noteErr b 3 src info s
  if s.tel.frozen then s
  else
    let s := clustersToP5 (s.setTel { s.tel with frozen := true })
    driveAlert before (s.setTel { s.tel with dump := some { bytes := dumpBytes s, block := b, source := src } })

/-! ### ACK and CLEAR (R625, R628) -/

/-- An ACK or CLEAR that is ignored is counted in TM_ACK_STALE. -/
def staleAck (s : State) : State := bump blkTelem 0x130 s

/-- What an ACK with a SEQ does: it stops the timer and sets ACKED, or is ignored and counted. -/
def ackErr (b seq : Nat) (s : State) : State :=
  let h := errOf s b
  if h.valid && h.seq == seq % 16 then setErr b { h with running := false, acked := true, sparing := false } s else staleAck s

/-- A CLEAR is accepted (R628). -/
def clearAccepted (h : ErrHdr) : Bool := (h.acked || h.escalated) && h.cls != 3

/-- FAULT_N is released when the last CON or FAT is cleared and its minimum assertion has ended (R631). -/
def releaseFault (before : Bool) (s : State) : State :=
  if before && !faultAsserted s then emit (.pin .faultN false) s else s

/-- What a CLEAR does: the latch, the overflow, the SEEN bits and the reaction class are zeroed, and an isolated block is due to
return to service. -/
def clearErr (b : Nat) (s : State) : State :=
  let h := errOf s b
  if clearAccepted h then
    let before := faultAsserted s
    releaseFault before (setErr b
      { h with valid := false, ovf := false, highest := 0, ovfCount := 0, info := [0, 0, 0, 0], fcls := 0, source := 0,
               fatSeen := false, conSeen := false, corSeen := false, cls := 0, acked := false, escalated := false,
               running := false, sparing := false, returning := h.isolated } s)
  else staleAck s

/-- ERR_ACK.ACK written with a SEQ. -/
def execErrAckAck (who : Requester) (block seq : Nat) (s : State) : Host.Outcome State Fault Refusal :=
  .next (if 60 < block then countUnmapped (blkBase block + 0x28) s
         else if errWriter who block then ackErr block seq s else countUnmapped (blkBase block + 0x28) s)

/-- ERR_ACK.CLEAR written, with the ACK bit of the same write where it is set. -/
def execErrAckClear (who : Requester) (block seq : Nat) (withAck : Bool) (s : State) : Host.Outcome State Fault Refusal :=
  .next (if 60 < block then countUnmapped (blkBase block + 0x28) s
         else if errWriter who block then clearErr block (if withAck then ackErr block seq s else s)
         else countUnmapped (blkBase block + 0x28) s)

/-- The 1 ms minimum assertion of FAULT_N ends (R631). -/
def execFaultNMinimumHoldExpiry (s : State) : Host.Outcome State Fault Refusal :=
  let before := faultAsserted s
  .next (releaseFault before (s.setTel { s.tel with faultHold := false }))

/-- Loss of REFCLK_SYS while the part runs (R623, R724). -/
def execReferenceClockLost (island : Nat) (s : State) : Host.Outcome State Fault Refusal :=
  .next (if s.boot.inReset then s else recordFat blkGlobal 0x0101 [island] s)

/-- A supply rail leaves its range (R623). -/
def execRailOutOfRange (rail millivolts : Nat) (s : State) : Host.Outcome State Fault Refusal :=
  .next (if s.boot.inReset then s else recordFat blkPower 0x0100 [rail, millivolts] s)

/-! ### Counters (R637 to R641) -/

/-- CNT_SEL takes a value; a change of EVENT, UNIT or MODE zeroes the counter (R638). -/
def selectPerf (c : PerfCtr) (v : Nat) : PerfCtr :=
  let ev := bits v 0 16; let un := bits v 16 8; let mo := bits v 29 2
  { c with enable := v.testBit 31, event := ev, unit := un, mode := mo,
           count := if c.event = ev ∧ c.unit = un ∧ c.mode = mo then c.count else 0,
           last := if c.event = ev ∧ c.unit = un ∧ c.mode = mo then c.last else 0 }

/-- A write of CNT_SEL of a block's counter. -/
def execCntSelWrite (who : Requester) (block counter : Nat) (value : CsrWord) (s : State) : Host.Outcome State Fault Refusal :=
  .next (if 60 < block ∨ 7 < counter then s
         else if block = blkPower ∧ who ≠ .steward then countUnmapped (blkBase block + 0x200 + 16 * counter) s
         else setPerfCtr block counter (selectPerf (perfOf s block counter) value.toNat) s)

/-- COUNTER_SELECT (R640). -/
def hCounterSelect : Handler := fun c s =>
  let b := c.p 0 2; let n := c.p 2 1; let mo := c.p 3 1; let ev := c.p 4 2; let un := c.p 6 1
  let rd := c.p 0xC 2; let fl := c.p 0xE 2
  checked s
    [(decide (60 < b), stBadHandle, dtField 0), (decide (7 < n), stBadHandle, dtField 2),
     (decide (3 < mo), stNotPermitted, dtField 3), (mo != 0 && !c.cap 4, stVersion, dtCap),
     ((eventMax b ev un).isNone, stNotPermitted, 0x0183),
     (!(isPf rd || isVf rd || rd == 0xFFFF), stBadHandle, dtField 0xC)]
    (let old := perfOf s b n
     let th := clampN 0 ((eventMax b ev un).getD 0) (c.p 8 4)
     let keep := old.event = ev ∧ old.unit = un ∧ old.mode = mo ∧ ¬ fl.testBit 1
     let ctr : PerfCtr := { enable := fl.testBit 0, mode := mo, unit := un, event := ev, thresh := th,
                            count := if keep then old.count else 0, reader := rd, last := if keep then old.last else 0 }
     c.okEcho (setPerfCtr b n ctr s) 32 (whole [(0, 2), (2, 1), (3, 1), (4, 2), (6, 1), (0xC, 2)] ++ [(0xE, 2, 3)]) [(8, 4, th)])

/-- COUNTER_READ (R641): the skews between the reads are the part's own and are free values. -/
def hCounterRead : Handler := fun c s =>
  let b := c.p 0 2
  checked s [(decide (60 < b), stBadHandle, dtField 0)]
    (let entry := fun n =>
       let k := perfOf s b n
       if (c.iss.kind == 0 || c.iss.kind == 1) && !c.iss.priv && k.reader != c.iss.fid then 0
       else k.count % 2 ^ 48 + (if n = 0 then 0 else min 65535 (Config.freeNat (s.draw + n))) * 2 ^ 48
     Res.ok (s.setDraw (s.draw + 8)) false
       (layout 72 ((0, 8, stamp s b) :: (List.range 8).map (fun n => (8 + 8 * n, 8, entry n)))))

/-! ### Error commands (R632, R633) -/

/-- ERR_QUERY. -/
def hErrQuery : Handler := fun c s =>
  let b := c.p 0 2
  if b = 0xFFFF then
    Res.ok s false (layout 256 [(0, 8, sumCor s), (8, 8, sumCon s), (0x10, 8, sumFat s), (0x18, 1, bit (faultAsserted s))])
  else checked s [(decide (60 < b), stBadHandle, dtField 0)]
    (Res.ok s false (layout 256 ((List.range 16).map (fun i => (4 * i, 4, headerReg s b (4 * i)))
       ++ [(0x40, 8, (errOf s b).firstTime), (0x48, 8, (errOf s b).escTime)])))

/-- ERR_ACK (R632). -/
def hErrAck : Handler := fun c s =>
  let b := c.p 0 2; let seq := c.p 2 1; let fl := c.p 3 1
  checked s [(decide (60 < b), stBadHandle, dtField 0)]
    (let h := errOf s b
     let data := fun (t : State) => layout 8 [(0, 4, headerReg t b 0x10), (4, 4, headerReg t b 0x14)]
     let bad := fl.testBit 0 && !(h.valid && h.seq == seq % 16)
     let s1 := if fl.testBit 0 then ackErr b seq s else s
     if fl.testBit 1 then
       let s2 := clearErr b s1
       if bad then .reply s2 stConflict 0x0181 (data s2)
       else if clearAccepted (errOf s1 b) then Res.ok s2 false (data s2)
       else .reply s2 stConflict (if (errOf s1 b).cls = 3 then dtFrozen else 0x0182) (data s2)
     else if bad then .reply s1 stConflict 0x0181 (data s1)
     else Res.ok s1 false (data s1))

/-- DUMP_READ (R633). -/
def hDumpRead : Handler := fun c s =>
  let d := (s.tel.dump.map (·.bytes)).getD []
  let off := c.p 0 8
  let n := c.p 8 4
  checked s [(decide (d.length < off), stBadAddress, dtField 0), (decide (4048 < n), stBadAddress, dtField 8)]
    (let piece := (d.drop off).take n
     let src := match s.tel.dump with | some x => x.block * 2 ^ 16 + x.source | none => 0
     Res.ok s false (layout 16 [(0, 8, d.length), (8, 4, piece.length), (12, 4, src)] ++ piece))

/-! ### Policies (R644 to R646) -/

/-- POLICY_LOG_READ (R645). -/
def hPolicyLogRead : Handler := fun c s =>
  let first := c.p 0 4
  let n := clampN 1 126 (c.p 4 4)
  let oldest := match s.tel.plog with | r :: _ => r.seq | [] => s.tel.plogNext
  let recs := (s.tel.plog.filter (fun r => decide (first ≤ r.seq))).take n
  let seen := match recs.getLast? with | some r => max s.tel.plogRead (r.seq + 1) | none => s.tel.plogRead
  Res.ok (s.setTel { s.tel with plogRead := seen }) (n != c.p 4 4)
    (layout 16 [(0, 4, oldest), (4, 4, recs.length), (8, 4, oldest - first)] ++ (recs.map PolicyRec.bytes).flatten)

/-- Clock range of an island that DVFS may move, in MHz (R683, R684); none for an island of a fixed clock. -/
def dvfsRange (isl : Nat) : Option (Nat × Nat) :=
  if isl ≤ 0x10 then some (400, 2200) else if 0x40 ≤ isl ∧ isl ≤ 0x47 then some (1, 2000) else none

/-- The range of a policy quantity, and the register field it is (R646, R134). Tiering: PARAM 0 to 5. -/
def tierQuantity (s : State) (param : Nat) : Nat × Nat × Nat :=
  let th := cell s blkTable 0x10004; let wa := cell s blkTable 0x10008
  match param with
  | 0 => (1, 10000, bits (cell s blkTable 0x10000) 0 14)
  | 1 => (1, 255, bits th 8 8)
  | 2 => (0, bits th 8 8 - 1, bits th 0 8)
  | 3 => (1, 49, bits wa 0 8)
  | 4 => (bits wa 0 8 + 1, 50, bits wa 8 8)
  | _ => (1, 64, bits (cell s blkTable 0x1000C) 0 8)

/-- A tiering field takes a value; a field that depends on it is clamped again (R134). -/
def setTierQuantity (param v : Nat) (s : State) : State :=
  let ct := cell s blkTable 0x10000; let th := cell s blkTable 0x10004; let wa := cell s blkTable 0x10008
  match param with
  | 0 => setCell blkTable 0x10000 (bits ct 31 1 * 2 ^ 31 + v) s
  | 1 => setCell blkTable 0x10004 (v * 256 + min (bits th 0 8) (v - 1)) s
  | 2 => setCell blkTable 0x10004 (bits th 8 8 * 256 + v) s
  | 3 => setCell blkTable 0x10008 (max (bits wa 8 8) (v + 1) * 256 + v) s
  | 4 => setCell blkTable 0x10008 (v * 256 + bits wa 0 8) s
  | _ => setCell blkTable 0x1000C v s

end Sys2Proof.Machine
end

