-- ==== Sys2Proof/Machine/Migration.lean ====
section
/-! DEFINITION. Moving a tenant between hosts and the dirty log (R426 to R435), and the custody aperture of PF0 BAR4 (R399 to R401). -/

namespace Sys2Proof.Machine

open Sys2Proof

/-! ### Freeze and resume (R426, R431) -/

/-- A VF that is there. -/
def vfHere (s : State) (fid : Nat) : Bool := isVf fid && (fnOf s fid).isSome

/-- MIG_FREEZE: fetching stops at once, and the reply comes when the started work has completed. -/
def hMigFreeze : Handler := fun c s =>
  let fid := c.p 0 2
  checked s [(!vfHere s fid, stBadHandle, dtField 0)]
    (let s := updFn fid (fun f => { f with st := .frozen, migBuf := [] }) s
     if quiet s fid then Res.ok (drawn s) false (layout 16 [(0, 4, Config.freeNat s.draw)])
     else .later (addWait { c with pkt := { c.pkt with opcode := 0x0904 } } .destroy fid 0 s) dtNone (layout 16 [(0, 4, Config.freeNat s.draw)]))

/-- MIG_RESUME. -/
def hMigResume : Handler := fun c s =>
  let fid := c.p 0 2
  checked s [(!vfHere s fid, stBadHandle, dtField 0), (!isFrozen s fid, stConflict, dtNone)]
    (Res.ok (settle (resumeFunction fid (updFn fid (fun f => { f with st := .active, migBuf := [] }) s))) false
      (layout 8 [(0, 2, fid), (2, 2, (fnD s fid).gen)]))

/-! ### The state record (R427 to R430) -/

/-- What a state record holds (R428). -/
structure MigImage where
  fn : Fn
  ring : Ring
  cqps : List (Nat × Cqp)
  nicQps : List (Nat × NicQp)
  ctrl : Nvme
  conns : List (Nat × Conn)
  wqs : List (Nat × Wq)
  mrs : List (Nat × Mr)
  tables : List Nat
  kernels : List Nat
  deriving DecidableEq, Repr

/-- The bytes of a record in plain form, and what such bytes hold: the manual names the contents and not their layout. -/
opaque migBytes : MigImage → Bytes
opaque migImage : Bytes → Option MigImage

/-- The record of a function as it stands. -/
def imageOf (s : State) (fid : Nat) : MigImage :=
  { fn := fnD s fid, ring := ringOf s fid, cqps := s.tab.cqps.filter (fun e => e.2.owner == fid),
    nicQps := (s.pp.qps.filter (fun e => e.1 / 65536 == fid)).map (fun e => (e.1 % 65536, e.2)), ctrl := ctrlOf s fid,
    conns := s.grt.conns.filter (fun e => e.2.owner == fid), wqs := s.grt.wqs.filter (fun e => e.2.owner == fid),
    mrs := s.grt.mrs.filter (fun e => e.2.owner == fid),
    tables := (s.tab.tbls.filter (fun e => e.2.owner == fid)).map (fun e => e.2.handle),
    kernels := (s.mason.kernels.filter (fun e => e.2.owner == fid)).map (fun e => e.2.handle) }

/-- The migration key, and its working key (R598), where one is held. -/
def migBase (s : State) : Option Nat := (s.sec.keys.find? (fun e => e.2.kind == 4 && e.2.material.isSome)).bind (fun e => e.2.material)
def migLabel : Bytes := asciiBytes "TRM-MIG"
def migKey (s : State) : Option Nat := (migBase s).map (fun k => Config.deriveKey k migLabel)

/-- A sealed record: its length, a random nonce, and the sealed image. -/
def sealRecord (k : Nat) (s : State) (fid : Nat) : Bytes :=
  let nonce := (List.range 12).map (Config.freeByte s.draw)
  let body := Config.sealBytes k nonce (migBytes (imageOf s fid))
  leBytes 8 (20 + body.length) ++ nonce ++ body

/-- MIG_SAVE: the record is made at the first piece and kept until the VF resumes. -/
def hMigSave : Handler := fun c s =>
  let fid := c.p 0 2
  let fresh := (fnD s fid).migBuf.isEmpty
  let record := match migKey s with
    | some k => if fresh then sealRecord k s fid else (fnD s fid).migBuf
    | none => []
  let piece := (record.drop (c.p 0x10 8)).take (c.p 4 4)
  checked s
    [(!vfHere s fid, stBadHandle, dtField 0), (decide (record.length < c.p 0x10 8) && (migKey s).isSome, stBadAddress, dtField 0x10),
     (!isFrozen s fid, stConflict, dtNone), ((migKey s).isNone, stConflict, dtKeyEmpty)]
    (let s := if fresh then useWorkingKey ((migBase s).getD 0) migLabel (drawn (updFn fid (fun f => { f with migBuf := record }) s)) else s
     Res.ok (dmaOut c.iss.owner (c.p 8 8) piece s) false (layout 32 [(0, 4, piece.length), (8, 8, record.length), (0x10, 4, 1)]))

/-- Everything that one function owns passes to another, under its new generation; a queue pair held since an earlier one stays held until it is adopted
(R419, R430). -/
def moveOwner (src dst : Nat) (s : State) : State :=
  let o := fun (x : Nat) => if x = src then dst else x
  let new := nextGen (fnD s src).gen
  let g := fun (x y : Nat) => if x = src ∧ y = (fnD s src).gen then new else y
  let s := s.setTab { s.tab with
    tbls := s.tab.tbls.map (fun e => (e.1, { e.2 with owner := o e.2.owner, gen := g e.2.owner e.2.gen })),
    cqps := s.tab.cqps.map (fun e => (e.1, { e.2 with owner := o e.2.owner, gen := g e.2.owner e.2.gen })),
    rules := s.tab.rules.map (fun e => (e.1, { e.2 with tenant := o e.2.tenant })) }
  let s := s.setMason { s.mason with
    kernels := s.mason.kernels.map (fun e => (e.1, { e.2 with owner := o e.2.owner })),
    jobs := s.mason.jobs.map (fun (j : Job) => { j with client := o j.client }) }
  let s := s.setPorts { s.ports with qrings := s.ports.qrings.map (fun (q : QRing) => { q with owner := o q.owner }) }
  let s := s.setPp { s.pp with
    qps := s.pp.qps.map (fun e => (if e.1 / 65536 = src then qpKey dst (e.1 % 65536) else e.1,
      { e.2 with gen := if e.1 / 65536 = src then g src e.2.gen else e.2.gen })),
    shapers := s.pp.shapers.map (fun e => ((e.1.1, if e.1.1 = 1 ∧ e.1.2 / 65536 = src then qpKey dst (e.1.2 % 65536) else e.1.2),
      { e.2 with took := e.2.took.map o })) }
  let s := s.setPages (s.pages.map (fun e => (o e.1, e.2)))
  let s := s.setGrt { s.grt with
    conns := s.grt.conns.map (fun e => (e.1, { e.2 with owner := o e.2.owner, gen := g e.2.owner e.2.gen })),
    wqs := s.grt.wqs.map (fun e => (e.1, { e.2 with owner := o e.2.owner, gen := g e.2.owner e.2.gen })),
    mrs := s.grt.mrs.map (fun e => (e.1, { e.2 with owner := o e.2.owner,
                                                    gen := g e.2.owner e.2.gen })) }
  let ctrl := ctrlOf s src
  let s := s.setSto { s.sto with
    ns := s.sto.ns.map (fun e => (e.1, { e.2 with attached := e.2.attached.map o })),
    ctrls := if has s.sto.ctrls src then put (del s.sto.ctrls src) dst ctrl else s.sto.ctrls }
  let s := updRun (fun r => { r with clients := r.clients.map (fun c => (o c.1, c.2)), closed := r.closed.map o }) s
  let s := s.setCourse { s.course with regions := s.course.regions.map (fun (g : AccelRegion) => { g with owner := o g.owner }) }
  let s := s.setElastic { s.elastic with restore := s.elastic.restore.map (fun (r : RestoreRun) => { r with tenant := o r.tenant }) }
  s.setRings (put (del s.rings src) dst (ringOf s src))

/-- The identity of a record goes to the target, which becomes FROZEN under the generation after the record's. -/
def takeImage (dst : Nat) (x : Fn) (slot : Option Nat) (s : State) : State :=
  let s := s.setIcp { s.icp with sessions := del s.icp.sessions (.ring dst),
                                 stage := s.icp.stage.filter (fun e => e.owner != .fn dst) }
  updFn dst (fun f => { f with st := .frozen, prevGen := f.gen, gen := nextGen x.gen, spoof := x.spoof, vlan := x.vlan, mac := x.mac,
                               ipv4 := x.ipv4, ipv6 := x.ipv6, ipv6Len := x.ipv6Len, slot := slot, kept := x.kept, leaseMs := x.leaseMs,
                               leaseOn := false, migBuf := [] }) s

/-- The queues, connections and registrations of a record take the place of what the source's have become since; queue pairs in accelerator memory,
which never stop, stay as they are (R426, R430). -/
def overlay (dst g : Nat) (m : MigImage) (s : State) : State :=
  let gen := fun (x : Nat) => if x = m.fn.gen then g else x
  let s := m.cqps.foldl (fun s e => if (cqpOf s e.1).any (fun q => q.owner == dst && q.endpoint == 0xFFFF)
    then setCqp e.1 { e.2 with owner := dst, gen := gen e.2.gen } s else s) s
  let s := m.nicQps.foldl (fun s e => if (qpOf s (qpKey dst e.1)).isSome then setQp (qpKey dst e.1) { e.2 with gen := gen e.2.gen } s else s) s
  let s := m.conns.foldl (fun s e => if (connOf s e.1).any (fun c => c.owner == dst) then setConn e.1 { e.2 with owner := dst, gen := gen e.2.gen } s else s) s
  let s := m.wqs.foldl (fun s e => if (wqOf s e.1).any (fun q => q.owner == dst) then setWq e.1 { e.2 with owner := dst, gen := gen e.2.gen } s else s) s
  setRing dst m.ring (setCtrl dst m.ctrl s)

/-- A record restored onto a VF of the part that saved it: tables, kernels and handles move from the source, and the target takes the record's state
(R429, R430). -/
def restoreHere (src dst : Nat) (m : MigImage) (s : State) : State :=
  let slot := (fnD s src).slot
  let s := overlay dst (nextGen m.fn.gen) m (moveOwner src dst s)
  let s := takeImage dst m.fn slot s
  let s := updFn src (fun f => { f with slot := none }) s
  updFn src (fun f => { f with allot := {}, reclaim := {} }) (failFunction true 2 src s)

/-- The numbers that a record's queue pairs, connections, work queues and registrations bear are free on this part. The refusal is a DESIGN CHOICE (log 215). -/
def numbersFree (s : State) (m : MigImage) : Bool :=
  m.cqps.all (fun e => !has s.tab.cqps e.1) && m.conns.all (fun e => !has s.grt.conns e.1) && m.wqs.all (fun e => !has s.grt.wqs e.1)
    && m.mrs.all (fun e => !has s.grt.mrs e.1)

/-- A record restored from another part: no table and no kernel comes with it. -/
def restoreForeign (dst : Nat) (m : MigImage) (s : State) : State :=
  let g := fun (x : Nat) => if x = m.fn.gen then nextGen m.fn.gen else x
  let s := takeImage dst m.fn (fnD s dst).slot s
  let s := m.cqps.foldl (fun s e => setCqp e.1 { e.2 with owner := dst, gen := g e.2.gen, running := [] } s) s
  let s := m.nicQps.foldl (fun s e => setQp (qpKey dst e.1) { e.2 with gen := g e.2.gen } (s.setPages (s.pages ++ [(dst, e.2.page)]))) s
  let s := m.conns.foldl (fun s e => setConn e.1 { e.2 with owner := dst, gen := g e.2.gen } s) s
  let s := m.wqs.foldl (fun s e =>
    setWq e.1 { e.2 with owner := dst, gen := g e.2.gen } (s.setPages (s.pages ++ [(dst, e.2.page)]))) s
  let s := s.setGrt { s.grt with mrs := m.mrs.foldl (fun l e => put l e.1 { e.2 with owner := dst, gen := g e.2.gen }) s.grt.mrs }
  setRing dst m.ring (setCtrl dst m.ctrl s)

/-- What the target of a restore must be: a VF with an allotment and no resource in use. -/
def restoreTarget (s : State) (fid : Nat) : Bool := !noAllot (fnD s fid) && !holdsAny s fid

/-- The last piece of a record has come: its seal is checked, and it takes effect. A record of another part whose handles are taken here is answered
NO_RESOURCE (DESIGN CHOICE, log 215). -/
def finishRestore (c : Ctx) (dst src k : Nat) (record : Bytes) (s : State) : Res :=
  let s := useWorkingKey ((migBase s).getD 0) migLabel s
  match Config.unsealBytes k ((record.drop 8).take 12) (record.drop 20) with
  | none => .reply (bump blkCipher 0x120 (updFn dst (fun f => { f with migBuf := [] }) s)) stIntegrity dtNone []
  | some plain =>
    let data := layout 32 [(0, 4, (c.pkt.dma.getD []).length), (8, 8, record.length), (0x10, 4, 1)]
    match migImage plain with
      | some m =>
        if src ≠ 0xFFFF then Res.ok (restoreHere src dst m s) false data
        else if numbersFree s m then Res.ok (restoreForeign dst m s) false data
        else .reply (updFn dst (fun f => { f with migBuf := [] }) s) stNoResource dtNone []
      | none => .reply (updFn dst (fun f => { f with migBuf := [] }) s) stIntegrity dtNone []

/-- MIG_RESTORE: pieces are taken in order. -/
def hMigRestore : Handler := fun c s =>
  let dst := c.p 0 2
  let src := c.p 2 2
  let old := (fnD s dst).migBuf
  let piece := (c.pkt.dma.getD []).take (c.p 4 4)
  let record := (if c.p 0x10 8 = 0 then [] else old) ++ piece
  checked s
    [(!vfHere s dst, stBadHandle, dtField 0),
     (src != 0xFFFF && (!vfHere s src || src == dst), stBadHandle, dtField 2),
     (c.pkt.dma.isNone, stBadAddress, dtField 8),
     (c.p 0x10 8 != 0 && c.p 0x10 8 != old.length, stBadAddress, dtField 0x10),
     (src != 0xFFFF && !isFrozen s src, stConflict, dtNone), (!restoreTarget s dst, stConflict, dtNone),
     ((migKey s).isNone, stConflict, dtKeyEmpty)]
    (if 20 ≤ record.length ∧ le record 0 8 ≤ record.length then
       finishRestore c dst src ((migKey s).getD 0) record s
     else Res.ok (updFn dst (fun f => { f with migBuf := record }) s) false
       (layout 32 [(0, 4, piece.length), (8, 8, if record.length < 8 then 0 else le record 0 8), (0x10, 4, 1)]))

/-! ### The dirty log (R432, R435) -/

/-- DIRTY_LOG_START. -/
def hDirtyLogStart : Handler := fun c s =>
  let fid := c.p 0 2
  let len := c.p 0x18 8
  checked s
    [(!vfHere s fid, stBadHandle, dtField 0), (c.p 0x10 8 % 4096 != 0, stBadAddress, dtField 0x10),
     (len == 0, stBadAddress, dtField 0x18), (!atomicReq s (fnD s c.iss.owner).hp, stConflict, dtNone)]
    (Res.ok (updFn fid (fun f => { f with dirty := some { issuer := c.iss.owner, bitmap := c.p 8 8, base := c.p 0x10 8, length := len } }) s)
      false (layout 16 [(0, 8, ceilDiv len 4096)]))

/-- DIRTY_LOG_STOP. -/
def hDirtyLogStop : Handler := fun c s =>
  let fid := c.p 0 2
  let d := (fnD s fid).dirty
  checked s [(!vfHere s fid, stBadHandle, dtField 0), (d.isNone, stConflict, dtNone)]
    (Res.ok (updFn fid (fun f => { f with dirty := none }) s) false
      (layout 16 [(0, 8, ((d.map (fun (x : DirtyLog) => x.pages.length)).getD 0)),
                  (8, 4, ((d.map (fun (x : DirtyLog) => x.outside)).getD 0))]))

/-! ### The custody aperture (R399 to R401) -/

def aptOf (s : State) (hp p : Nat) : Nat := (lookD s.ports.apt (hp * 4096 + p) 0).toNat

/-- First DPA of the page that an entry maps. -/
def aptBase (v : Nat) : Nat := bits v 24 28 * 2 ^ 24

/-- An aperture table entry is written; one whose page is not wholly custody memory reads back with VALID 0 and is counted. -/
def setApt (hostPort entry v : Nat) (s : State) : State :=
  let ok := custodyRange s (aptBase v) 0x1000000
  let kept := bit (v.testBit 63 && ok) * 2 ^ 63 + bit (v.testBit 62) * 2 ^ 62 + aptBase v
  let s := if ok then s else countUnmapped (0x8000 + 8 * entry) s
  s.setPorts { s.ports with apt := put s.ports.apt (hostPort * 4096 + entry) (BitVec.ofNat 64 kept) }

def execAptWrite (hostPort entry : Nat) (value : BitVec 64) (s : State) : Host.Outcome State Fault Refusal :=
  .next (if 1 < hostPort ∨ 4095 < entry ∨ functionServed s (pfId hostPort 0) = false ∨ (fnD s (pfId hostPort 0)).dstate ≠ .d0 then s else setApt hostPort entry value.toNat s)

/-- A read or a write through BAR4 at an offset; it stays within one page of the aperture. Memory decoding is off outside D0 (R423). -/
def execApertureAccess (hostPort offset length : Nat) (write : Option Bytes) (faults : List LineFault) (s : State) :
    Host.Outcome State Fault Refusal :=
  let e := aptOf s hostPort (offset / 0x1000000)
  let dpa := aptBase e + offset % 0x1000000
  let n := min length (0x1000000 - offset % 0x1000000)
  .next (if (fnD s (pfId hostPort 0)).dstate ≠ .d0 then s
    else if !running s then unserved hostPort write.isNone s
    else if s.tel.frozen then frozenAccess length write.isNone s
    else if requestAborted s hostPort dpa (if e.testBit 63 then n else 0) then completerAbort hostPort write.isNone s
    else match write with
    | none =>
      if e.testBit 63 then hostAccess { dpa := dpa, len := n, faults := faults } s
      else emit (.readData (List.replicate length 0) false) (countUnmapped offset s)
    | some bs =>
      if e.testBit 63 && e.testBit 62 && !courseLive s then hostAccess { dpa := dpa, len := n, write := some (bs.take n), faults := faults } s
      else countUnmapped offset s)

end Sys2Proof.Machine
end

