-- ==== Sys2Proof/Machine/Sessions.lean ====
section
/-! DEFINITION. Sessions, barriers, identity, leases and staged configuration (chapter 2): HELLO, GOODBYE, FLUSH, LEASE_RENEW, GET_IDENTITY, CFG_STAGE, CFG_COMMIT, CFG_ABORT. -/

namespace Sys2Proof.Machine

open Sys2Proof

/-! ### Sessions (R63 to R71) -/

/-- The owner of a stage set that an issuer acts for. -/
def ownerFor (via : Via) : Owner :=
  match via with
  | .ring fn => .fn fn
  | v => .session v

/-- A wait for the end of an owner's commit. -/
def commitWait (o : Owner) (w : Waiter) : Bool := ownerFor w.via == o && (w.kind == .drain || w.kind == .rolling)

/-- A stage set is discarded, with a commit of it that runs and its reply (R98). -/
def dropStage (o : Owner) (s : State) : State :=
  livePause (resumeIntake (s.setIcp { s.icp with
    stage := s.icp.stage.filter (fun e => e.owner != o), commits := s.icp.commits.filter (fun k => k.owner != o),
    waits := s.icp.waits.filter (fun w => !commitWait o w),
    replyDrops := s.icp.replyDrops + (s.icp.waits.filter (commitWait o)).length }))

/-- A session ends: the stage set of a management or MCTP session goes with it, and a function's lease. -/
def endSession (via : Via) (s : State) : State :=
  let s := s.setIcp { s.icp with sessions := del s.icp.sessions via }
  match via with
  | .ring fn => updFn fn (fun f => { f with leaseOn := false }) s
  | .accel _ => s
  | _ => dropStage (.session via) s

/-- The versions that the part lists: 2.0 and the one that the running image's header names, 3.2 as shipped (R3, R67); the footing service's
2.0 and 3.0. -/
def partMajor (s : State) : Nat := if footing s then 3 else s.boot.running.icpMajor

def partMinor (s : State) (major : Nat) : Nat := if major = partMajor s ∧ !footing s then s.boot.running.icpMinor else 0

/-- The versions that a HELLO lists: major and minor. -/
def listed (c : Ctx) : List (Nat × Nat) :=
  (List.range (clampN 1 8 (c.p 0 1))).map (fun i => (c.p (4 + 4 * i) 1, c.p (5 + 4 * i) 1))

/-- The highest common major, or none. -/
def commonMajor (s : State) (l : List (Nat × Nat)) : Option Nat :=
  if l.any (fun v => v.1 == partMajor s) then some (partMajor s) else if l.any (fun v => v.1 == 2) then some 2 else none

/-- The session's minor for a major (R67). -/
def sessionMinor (s : State) (l : List (Nat × Nat)) (major : Nat) : Nat :=
  min (partMinor s major) (((l.filter (fun v => v.1 == major)).map (·.2)).foldl max 0)

/-- The part's versions, and those of a session, as a HELLO reply lays them out (R68, R71). -/
def helloReply (s : State) (major minor sid caps lease gen : Nat) : Bytes :=
  layout 64 [(0, 1, major), (1, 1, minor), (4, 4, sid), (8, 8, caps), (0x10, 4, lease), (0x14, 2, gen), (0x16, 2, 4064), (0x18, 1, 2),
             (0x20, 1, 2), (0x21, 1, 0), (0x24, 1, partMajor s), (0x25, 1, partMinor s (partMajor s))]

/-- The transport's kind has a lease (R39); the footing service's sessions hold none (R667). -/
def leased (s : State) (via : Via) : Bool := match via with | .ring _ => !footing s | _ => false

/-- The lowest free slot of a management session. -/
def mgmtSlot (s : State) : Option Nat :=
  lowest 16 (fun k => s.icp.sessions.all (fun e => match e.1 with | .mgmt _ => e.2.slot != k | _ => true))

/-- No session can be opened on the transport for want of room (R63, R65). -/
def sessionsFull (s : State) (via : Via) : Bool :=
  match via with
  | .mgmt _ => (mgmtSlot s).isNone
  | .mctp _ => decide (4 ≤ (s.icp.sessions.filter (fun e => match e.1 with | .mctp _ => true | _ => false)).length)
  | _ => false

/-- A session opens; the old one of the endpoint has ended. -/
def openSession (c : Ctx) (major : Nat) (s : State) : Res :=
  let l := listed c
  let minor := sessionMinor s l major
  let caps := if major ≠ 2 ∧ !footing s then (c.p 0x28 8 &&& s.boot.running.icpCaps) % 64 else 0
  let lease := if leased s c.via then clampN 100 60000 (c.p 0x24 4) else 0
  let sid := 1 + Config.freeNat s.draw % (2 ^ 32 - 1)
  let s := drawn s
  let x : Session := { sid := sid, major := major, minor := minor, caps := caps, slot := (mgmtSlot s).getD 0, lastUse := nowSt s }
  let s := s.setIcp { s.icp with sessions := put s.icp.sessions c.via x }
  let s := match c.via with
    | .ring fn =>
      updFn fn (fun f => { f with leaseMs := if leased s c.via then lease else f.leaseMs, leaseOn := leased s c.via, leaseFrom := nowSt s }) s
    | _ => s
  let gen := match c.via with | .ring fn => (fnD s fn).gen | .accel ep => genOf s (accelId ep) | _ => 0
  let clamped := c.p 0 1 != l.length || (leased s c.via && c.p 0x24 4 != lease)
  Res.ok s clamped (helloReply s major minor sid caps lease gen)

/-- HELLO once nothing of an old session is unanswered. -/
def helloNow : Handler := fun c s =>
  match commonMajor s (listed c) with
  | none => .reply s stVersion dtNone (helloReply s 0 0 0 0 0 0)
  | some m =>
    let s' := if (sessionOf s c.via).isSome then endSession c.via s else s
    if sessionsFull s' c.via then Res.rej s stNoResource dtNone else openSession c m s'

/-- HELLO: with an open session it acts as a FLUSH of that session first (R70). -/
def hHello : Handler := fun c s =>
  if (waitsOf s c.via).isEmpty then helloNow c s
  else
    let waiting := addWait { c with pkt := { c.pkt with opcode := 0 } } .barrier 0 (waitsOf s c.via).length s
    match helloNow c s with
    | .reply _ st d data => if st = stOk then .later waiting d data else if flagBit c.pkt.flags 1 then Res.rej s st d else .later waiting dtNone []
    | .later _ d data => .later waiting d data

/-- GOODBYE once nothing is unanswered: the reply is the session's last. -/
def goodbyeNow (via : Via) (pkt : IcpPkt) (s : State) : State :=
  dropStage (ownerFor via) (endSession via (sendReply 1 via pkt stOk dtNone [] s))

/-- GOODBYE. -/
def hGoodbye : Handler := fun c s =>
  if (waitsOf s c.via).isEmpty then .later (goodbyeNow c.via c.pkt s) dtNone []
  else .later (addWait { c with pkt := { c.pkt with opcode := 1 } } .barrier 0 (waitsOf s c.via).length s) dtNone []

/-- FLUSH: the reply counts the commands it waited for (R83). -/
def hFlush : Handler := fun c s =>
  let n := (waitsOf s c.via).length
  if n = 0 then Res.ok s false (layout 8 [(0, 4, 0)])
  else .later (addWait { c with pkt := { c.pkt with opcode := 3 } } .barrier 0 n s) dtNone (layout 8 [(0, 4, n)])

/-- LEASE_RENEW (R39, R80). -/
def hLeaseRenew : Handler := fun c s =>
  let fid := c.iss.fid
  let ms := if c.p 0 4 = 0 then (fnD s fid).leaseMs else clampN 100 60000 (c.p 0 4)
  Res.ok (updFn fid (fun f => { f with leaseMs := ms, leaseOn := true, leaseFrom := nowSt s }) s) (c.p 0 4 != 0 && c.p 0 4 != ms)
    (layout 8 [(0, 4, ms), (4, 2, (fnD s fid).gen)])

/-- A management session that has carried no command for 300 s is closed (R63). -/
def execManagementSessionIdle (peer : Nat) (s : State) : Host.Outcome State Fault Refusal :=
  .next (if (sessionOf s (.mgmt peer)).isSome then endSession (.mgmt peer) s else s)

/-! ### GET_IDENTITY (R79) -/

/-- Free amounts of the pools. -/
def poolFree (s : State) : Allot := (poolTotal s).minus (s.fns.foldl (fun a e => a.plus e.2.allot) {})

/-- Logical cluster k: its unit map. -/
def logicalUnit (s : State) (k : Nat) : ClusterSt := match physCluster s k with | some (_, u) => u | none => {}

def coresIn (s : State) (k : Nat) : Nat := popCount 17 (logicalUnit s k).active

/-- The reply. In footing mode what only running firmware knows reads zero. -/
def identity (s : State) : Bytes :=
  let up := !footing s
  let fw := fun (n : Nat) => if up then n else 0
  let free := poolFree s
  let pop := bits s.pins.latched 6 2
  let logical := (List.range 16).filter (fun k => (physCluster s k).isSome)
  let fencedBits := (s.mem.fenced.map (fun f => 2 ^ f.1)).sum
  let inService := s.mem.channels.filter (fun ch => !s.mem.fenced.any (fun f => f.1 == ch))
  layout 512 ([(0, 2, 0x1F6D), (2, 2, if up then 0x8400 else 0x8403), (4, 1, 0x10), (5, 1, if !up then 1 else if s.tel.frozen then 2 else 0),
      (6, 1, s.sec.lifecycle), (7, 1, fw (domainRole s)), (8, 16, leVal Config.serial), (0x18, 4, fw s.boot.running.fwVersion), (0x1C, 1, partMajor s),
      (0x1D, 1, partMinor s (partMajor s)), (0x20, 8, fw s.boot.running.icpCaps), (0x28, 1, pop), (0x29, 1, if pop = 0 then 0xFF else s.mem.density),
      (0x2A, 1, inService.length), (0x2B, 1, s.mem.fenced.length), (0x2C, 4, 40 * inService.length),
      (0x30, 12, fencedBits), (0x3C, 4, ((s.mem.cxl.filter (·.fenced)).map (fun x => x.links.length)).sum),
      (0x40, 8, fw (hotUsable s)), (0x48, 8, fw (coldUsable s)), (0x50, 8, fw (hotReserve s)), (0x58, 8, fw (hotAllocatable s)),
      (0x60, 8, fw (coldAllocatable s)), (0x68, 1, logical.length), (0x69, 1, bit (spareCluster s).isSome),
      (0x6A, 2, (logical.map (coresIn s)).sum), (0x6C, 2, (logical.map (fun k => if (logicalUnit s k).spare < 31 then 2 ^ k else 0)).sum),
      (0x6E, 1, s.boot.stewards.length), (0x6F, 1, bit s.boot.stewardSpare.isSome),
      (0x70, 4, Config.crossings - s.mem.crossSpared.length), (0x74, 4, Config.sramSpares - s.mem.sramUsed), (0x78, 4, s.mem.sparesUsed)]
    ++ (List.range 16).map (fun k => (0x80 + k, 1, coresIn s k))
    ++ (List.range 20).map (fun n => (0x90 + n, 1, (pbOf s n).role + 16 * (pbOf s n).bifur))
    ++ (List.range 8).map (fun n => (0xA4 + n, 1, (enOf s n).mode % 4))
    ++ [(0xB0, 4, fw free.cqps), (0xB4, 4, fw free.nicQps), (0xB8, 4, fw free.nvmeQps), (0xBC, 4, fw free.conns), (0xC0, 4, fw free.locks),
        (0xC4, 4, fw free.limiters), (0xC8, 4, fw (1024 - (s.fns.filter (fun e => e.2.slot.isSome)).length)),
        (0xCC, 4, fw (4096 - s.tab.tbls.length)), (0xD0, 8, fw free.quota)])

/-- GET_IDENTITY. -/
def hGetIdentity : Handler := fun _ s => Res.ok s false (identity s)

end Sys2Proof.Machine
end

