-- ==== Sys2Proof/Machine/Startup.lean ====
section
/-! DEFINITION. Start-up and firmware (chapter 15): resets, the start sequence, failed starts, staging and activation of an image, the start report. -/

namespace Sys2Proof.Machine

open Sys2Proof

/-! ### Details (R682) -/

def dtSlotNotValid : Nat := 0x01A0
def dtSlotInUse : Nat := 0x01A1
def dtActPending : Nat := 0x01A2
def dtLiveIncompatible : Nat := 0x01A3
def dtImageFormat : Nat := 0x01A4
def dtImageSignature : Nat := 0x01A5
def dtKeyRevoked : Nat := 0x01A6
def dtSectionDigest : Nat := 0x01A7
def dtStepping : Nat := 0x01A8
def dtStageOrder : Nat := 0x01A9
def dtSvnRollback : Nat := 0x0167

/-! ### The boot record (R659) -/

def BootRec.bytes (r : BootRec) : Bytes :=
  let b := layout 60 [(0, 4, 0x42545243), (4, 2, 1), (6, 1, r.activeSlot), (7, 1, r.pendingSlot), (8, 8, r.sequence), (0x10, 1, r.slotA),
    (0x11, 1, r.slotB), (0x12, 1, r.failedStarts), (0x13, 1, r.threshold), (0x14, 1, r.sourceOverride),
    (0x15, 1, bit r.svnCommit * 2 + bit r.trial)]
  b ++ leBytes 4 (crc32c b).toNat

/-- The other copy is written, with SEQUENCE one higher. -/
def bootWrite (f : BootRec → BootRec) (s : State) : State :=
  let r := f s.boot.record
  let r := { r with sequence := (s.boot.record.sequence + 1) % 2 ^ 64 }
  emit (.flash "boot record" r.bytes) (s.setBoot { s.boot with record := r })

/-- State of a slot in the boot record, and the flash slot. -/
def slotState (r : BootRec) (i : Nat) : Nat := if i = 0 then r.slotA else r.slotB
def setSlotState (i v : Nat) (r : BootRec) : BootRec := if i = 0 then { r with slotA := v } else { r with slotB := v }
def flashSlot (s : State) (i : Nat) : FwSlot := if i = 0 then s.boot.slotA else s.boot.slotB
def setFlashSlot (i : Nat) (x : FwSlot) (s : State) : State :=
  s.setBoot (if i = 0 then { s.boot with slotA := x } else { s.boot with slotB := x })

/-! ### Images (R577 to R581, R660, R661) -/

/-- The section entries of a header: OFFSET, LENGTH, TARGET and digest. -/
def imageSections (im : Bytes) : List (Nat × Nat × Nat × Bytes) :=
  (List.range (le im 0x11 1)).map (fun i =>
    let e := im.drop (0xA0 + 64 * i)
    (le e 0 4, le e 4 4, le e 8 1, (e.drop 16).take 48))

/-- Two sections overlap. -/
def overlaps (a b : Nat × Nat × Nat × Bytes) : Bool := decide (a.1 < b.1 + b.2.1 ∧ b.1 < a.1 + a.2.1)

/-- The sections keep the rules of R661. -/
def sectionsOk (im : Bytes) : Bool :=
  let n := le im 0x11 1
  decide (1 ≤ n ∧ n ≤ 8)
    && (imageSections im).all (fun e => decide (e.1 % 4096 = 0 ∧ 4096 ≤ e.1 ∧ e.1 + e.2.1 ≤ le im 8 4 ∧ e.2.2.1 ≤ 4))
    && (List.range n).all (fun i => (List.range i).all (fun j =>
      match (imageSections im)[i]?, (imageSections im)[j]? with | some a, some b => !overlaps a b | _, _ => true))

/-- The fused key slot that an image's key is, where its revocation bit is clear. -/
def imageKeySlot (s : State) (im : Bytes) : Option Nat :=
  lowest 4 (fun k => Config.sha384 ((im.drop 0x40).take 96) == Config.fwKeyHash k && !s.sec.revoked.testBit k)

/-- The checks of an image in the order of R671: status and detail of the first that fails. -/
def imageCheck (s : State) (im : Bytes) : Option (Nat × Nat) :=
  firstBad
    [(le im 4 2 != 2, stVersion, dtNone),
     (le im 0 4 != 0x54524657 || le im 6 2 != 1024 || !sectionsOk im, stIntegrity, dtImageFormat),
     (!decide (le im 0x20 1 ≤ 0x10 ∧ 0x10 ≤ le im 0x21 1), stFailed, dtStepping),
     ((imageKeySlot s im).isNone, stIntegrity, dtKeyRevoked),
     (!Config.verifySig (leVal ((im.drop 0x40).take 96)) (Config.sha384 (im.take 0x3A0)) ((im.drop 0x3A0).take 96), stIntegrity, dtImageSignature),
     (decide (le im 0x10 1 < s.sec.svnMin), stIntegrity, dtSvnRollback),
     ((imageSections im).any (fun e => Config.sha384 ((im.drop e.1).take e.2.1) != e.2.2.2), stIntegrity, dtSectionDigest)]

/-- The header fields that the part keeps. -/
def imageInfo (im : Bytes) : ImageInfo :=
  { fwVersion := le im 0xC 4, svn := le im 0x10 1, revokeMask := le im 0x12 1 % 16, icpMajor := le im 0x13 1, icpMinor := le im 0x14 1,
    liveVersion := le im 0x16 2, icpCaps := le im 0x18 8, buildId := le im 0x24 4 }

/-! ### Start records (R662, R663, R669) -/

/-- The newest start record changes. -/
def updRecord (f : StartRec → StartRec) (s : State) : State :=
  s.setBoot { s.boot with records := match s.boot.records with | r :: l => f r :: l | [] => [] }

/-- Milliseconds since time zero. -/
def sinceZero (s : State) : Nat := (nowAon s - s.boot.startFrom) / 1000000 % 2 ^ 32

/-- The newest start, where it is still in progress, has failed. -/
def failStart (reason : Nat) (s : State) : State :=
  let d := sinceZero s
  updRecord (fun r => if r.outcome = 0 then { r with outcome := 2, reason := reason, durationMs := d, detail := s.boot.imageDetail } else r) s

/-- The start that a FAT, a power loss or a reset ends (R663). -/
def interruptStart (reason : Nat) (s : State) : State :=
  let d := s.tel.dump.getD {}
  let block := fun (r : StartRec) => { r with fatBlock := d.block, fatSource := d.source }
  if s.tel.frozen then failStart 4 (updRecord (fun r => if r.outcome = 0 then block r else r) s) else failStart reason s

/-- The FAT that a reset clears is kept for the start report (R630). -/
def keepFat (s : State) : State :=
  if s.tel.frozen then
    (let d := s.tel.dump.getD {}
     s.setBoot { s.boot with fatBlock := d.block, fatSource := d.source })
  else s

/-! ### Event 3 of a start (R651, R655, R662 to R664) -/

/-- Footing mode is entered. -/
def enterFooting (reason : Nat) (s : State) : State :=
  updRecord (fun r => { r with outcome := 3, reason := reason })
    (s.setBoot { s.boot with stage := 4, footingReason := reason, watchdog := false, trials := [], running := {}, runningSlot := 0xFF })

/-- The order of trial of R655 and R656: only slots marked VALID; 2 is the network image. -/
def trialOrder (r : BootRec) (source : Nat) : List Nat :=
  let pend := r.pendingSlot < 2
  let first := if pend then r.pendingSlot else r.activeSlot
  let valid := fun i => slotState r i == 2
  match source with
  | 0 => [first, 1 - first].filter valid
  | 1 => (if pend then [r.pendingSlot].filter valid else []) ++ [2]
  | _ => [first, 1 - first].filter valid ++ [2]

/-- A slot left LOADING is INVALID, and a trial that failed is no longer pending. -/
def settleRecord (r : BootRec) : BootRec :=
  let r := { r with slotA := if r.slotA = 1 then 3 else r.slotA, slotB := if r.slotB = 1 then 3 else r.slotB }
  if r.trial ∧ 0 < r.failedStarts then { r with trial := false, pendingSlot := 0xFF, svnCommit := false } else r

/-- The boot ROM reads the boot record and applies the failed-start rule. -/
def beginStart (kind : Nat) (stewardOk : Bool) (s : State) : State :=
  let b := s.boot
  let newest := match b.records with | r :: _ => r.reason | [] => 0
  let r := settleRecord b.record
  let source := if r.sourceOverride ≤ 3 then r.sourceOverride else bits s.pins.latched 4 2
  let n := (b.startCount + 1) % 2 ^ 32
  let rec_ : StartRec := { seq := n, kind := kind, source := source, straps := s.pins.latched }
  let s := s.setBoot { b with
    inReset := false, stage := 0, footingReason := 0, record := r, threshold := r.threshold, source := source,
    overridden := decide (r.sourceOverride ≤ 3), records := (rec_ :: b.records).take 8, startCount := n, running := {}, runningSlot := 0xFF,
    startFrom := nowAon s, imageDetail := 0, act := none, trials := [], watchdog := true }
  if source = 3 then enterFooting 6 s
  else if r.threshold ≤ r.failedStarts then enterFooting newest s
  else
    let t := trialOrder r source
    let trial := decide (r.pendingSlot < 2) && t.head? == some r.pendingSlot
    let s := bootWrite (fun x => { x with failedStarts := satAdd 255 x.failedStarts 1, trial := trial }) s
    if !stewardOk then failStart 7 s
    else if t.isEmpty then failStart 2 s
    else s.setBoot { s.boot with stage := 1, trials := t }

/-! ### Cold reset (R649, R109, R125, R713) -/

/-- Channels of a population in channel order (R104, R108). -/
def popChannelIds (pop : Nat) : List Nat :=
  if pop = 0 then []
  else ((List.range 6).map (fun mc => (List.range (if pop = 1 then 8 else 16)).map (fun c => 16 * mc + c))).flatten

/-- Sets of links of one capacity: the largest power of two up to 16 first. -/
def cxlGroups : Nat → List Nat → List (List Nat)
  | 0, _ => []
  | f + 1, l =>
    if l.isEmpty then []
    else
      let n := if 16 ≤ l.length then 16 else if 8 ≤ l.length then 8 else if 4 ≤ l.length then 4 else if 2 ≤ l.length then 2 else 1
      l.take n :: cxlGroups f (l.drop n)

/-- Frames of a set of n devices of a raw capacity in MiB, net of the inline checksums (R126). -/
def cxlFrames (n mib : Nat) : Nat := n * mib * 16 * 31 / 32

/-- The sets of the devices found, those of more ways first whatever their devices' capacity, with the frames of each (R125). -/
def cxlWays (found : List (Nat × Nat)) : List (List Nat × Nat) :=
  let caps := (found.map (·.2)).eraseDups
  let sets := (caps.map (fun c =>
    (cxlGroups found.length ((found.filter (fun e => e.2 == c)).map (·.1))).map (fun l => (l, cxlFrames l.length c)))).flatten
  [16, 8, 4, 2, 1].flatMap (fun n => sets.filter (fun x => x.1.length == n))

/-- The sets one after the other; capacity beyond 16 TiB raw stays unused (R124, R126). -/
def cxlLayout : Nat → List (List Nat × Nat) → List CxlSet
  | _, [] => []
  | at_, (l, n) :: r =>
    let m := min n (260046848 - at_)
    { links := l, first := at_, count := m } :: cxlLayout (at_ + m) r

/-- The positions of a population that answered their identity reads, 4 × controller + position, and the density in effect: that of the smallest
device (R107, R109). -/
def positionsFound (pop : Nat) (densities : List (Nat × Nat)) : List Nat :=
  ((popChannelIds pop).map (· / 4)).eraseDups.filter (fun p => has densities p)
def densityInEffect (pop : Nat) (densities : List (Nat × Nat)) : Nat :=
  ((positionsFound pop densities).map (fun p => lookD densities p 2)).foldl min 2

/-- Custody memory as training and enumeration leave it; a channel whose position does not answer has failed the first step (R109). -/
def coldMem (s : State) (blocks : List (Nat × PBlock)) (pop : Nat) (densities untrained found : List (Nat × Nat)) (aonKept : Bool) : Mem :=
  let ids := popChannelIds pop
  let here := positionsFound pop densities
  let density := densityInEffect pop densities
  let up := ids.filter (fun c => !has untrained c && here.contains (c / 4))
  let bad := untrained.filter (fun e => ids.contains e.1)
    ++ (ids.filter (fun c => !has untrained c && !here.contains (c / 4))).map (fun c => (c, 2))
  let sets := cxlLayout 0 (cxlWays (found.filter (fun e => decide (0 < e.2) && (lookD blocks (e.1 / 4) {}).role == 3)))
  { channels := up, fenced := bad, fenceLog := bad, density := density, present := here, hotTotal := up.length * chanFrames pop density,
    cxl := sets, coldTotal := (sets.map (·.count)).sum, sramUsed := s.mem.sramUsed, crossSpared := s.mem.crossSpared,
    sparesUsed := if aonKept then s.mem.sparesUsed else Config.freeNat s.draw }

/-- In footing mode the GDDR7 reset stays driven and every port block but the host's stays in reset (R666). -/
def footingHold (s : State) : State :=
  if footing s then
    s.setMem { s.mem with channels := [], hotTotal := 0, cxl := [], coldTotal := 0 }
  else s

/-- Pins that a reset releases (R717, R719). -/
def releasePins (s : State) : State :=
  if s.boot.inReset then s else
  let s1 := if faultAsserted s then emit (.pin .faultN false) s else s
  let s1 := if alertAsserted s then emit (.pin .alertN false) s1 else s1
  let s1 := if s.pwr.tripped then emit (.pin .thermtripN false) s1 else s1
  if s.fns.any (fun e => e.2.wake) then emit (.pin .wakeN false) s1 else s1

/-- Every sealed copy is opened into the vault; the key cache is empty (R575, R600). -/
def openCopies (x : Sec) : Sec :=
  { x with keyCache := [], keys := x.keys.map (fun e => (e.1, { e.2 with material := e.2.material.or e.2.sealedCopy, sealedCopy := none })) }

/-- Keys stay in their sealed copies and the fuses stay; everything else of the vault is derived again (R572, R575). -/
def coldSec (x : Sec) : Sec :=
  { openCopies x with identity := false, deviceKey := false, provisionKey := false, alarm := 0, challenge := none, spdm := [], ide := [] }

/-- The latest course that the ledgers of this device's areas hold (R328, R339): its ID and step. -/
def latestLedger (areas : List (Nat × Area)) : Option (Nat × Nat) :=
  areas.foldl (fun m e => match m, ledgerOf e.2 with
    | none, some r => some (r.course, r.step)
    | some x, some r => if x.1 < r.course then some (r.course, r.step) else some x
    | m, none => m) none

/-- Areas and their ledgers stay on the destinations; the highest course ID is the ledgers'. -/
def coldCourse (s : State) : Course :=
  let areas := s.course.areas.map (fun e => (e.1, trimArea e.2))
  { areas := areas, committed := latestLedger areas,
    policy := { parent := if domainRole s = 1 ∨ domainRole s = 3 then 0 else 0xFFFFFFFF },
    highId := (areas.map (fun e => max ((e.2.slot0.map (·.course)).getD 0) ((e.2.slot1.map (·.course)).getD 0))).foldl max 0 }

/-- The part as a cold reset leaves it, before its start begins. -/
def coldState (straps : Nat) (densities untrained found : List (Nat × Nat)) (aonKept : Bool) (s : State) : State :=
  let mask := s.pins.nextMask
  let balls := straps % 2 ^ 16
  let latched := (balls &&& (0xFFFF - mask)) ||| (s.pins.nextValue &&& mask)
  let cap := s.pwr.persisted.getD (600, 90)
  let blocks := presetBlocks (presetOf (latched % 16))
  { draw := s.draw + 1, out := s.out, pending := s.pending,
    ports := { blocks := blocks },
    mem := coldMem s blocks (bits latched 6 2) densities untrained found aonKept,
    mason := { fuses := s.mason.fuses },
    sec := coldSec s.sec,
    sto := { ns := s.sto.ns, ctrls := s.sto.ctrls, failedSsds := s.sto.failedSsds },
    pwr := { capW := cap.1, tempC := cap.2, persisted := s.pwr.persisted, trippedLast := s.pwr.tripped },
    pins := { strapPins := balls, latched := latched, nextMask := s.pins.nextMask, nextValue := s.pins.nextValue, mask := mask },
    boot := { stewards := s.boot.stewards, stewardSpare := s.boot.stewardSpare, record := s.boot.record, slotA := s.boot.slotA,
              slotB := s.boot.slotB, records := s.boot.records, startCount := s.boot.startCount, fatBlock := s.boot.fatBlock,
              fatSource := s.boot.fatSource },
    course := { areas := s.course.areas } }

/-- COLD_RESET: kind 1 power-on, 2 SYS_RST_N; the GDDR7 positions that answer, with the density of their devices; channels that fail training, with their cause; links that find a
CXL device, with its raw capacity in MiB. -/
def execColdReset (kind straps : Nat) (densities : List (Nat × Nat)) (untrained : List (Nat × Nat)) (cxl : List (Nat × Nat)) (aonKept stewardOk : Bool)
    (s : State) : Host.Outcome State Fault Refusal :=
  .next (
    let s := releasePins (keepFat (interruptStart 5 s))
    let s := mirrorFences (coldState straps densities untrained cxl aonKept s)
    let s := s.setCourse (coldCourse s)
    let s := loadUnits (s.setSec { s.sec with jtag := jtagLevel s })
    driveAlert false (storageStart (footingHold (beginStart kind stewardOk s))))

/-! ### Warm reset (R649, R630) -/

/-- A FAT is cleared; other errors stay. -/
def warmHdr (h : ErrHdr) : ErrHdr :=
  if h.fatSeen ∨ h.cls = 3 then
    { h with valid := false, ovf := false, highest := 0, ovfCount := 0, info := [0, 0, 0, 0], fcls := 0, source := 0, fatSeen := false,
             conSeen := false, corSeen := false, cls := 0, acked := false, escalated := false, running := false, sparing := false }
  else h

/-- Custody memory keeps its training, fences and contents; every table, ring and kernel is gone, and scratch reads zero, except the dump that
population 00 holds there. -/
def warmMem (s : State) : Mem :=
  let m := s.mem
  { cells := m.cells.filter (fun c => decide (c.1 < scratchBase ∨ scratchBase + 0x4000000 ≤ c.1)), poison := m.poison,
    channels := m.channels, fenced := m.fenced, density := m.density, hotTotal := m.hotTotal, cxl := m.cxl, coldTotal := m.coldTotal,
    retrains := m.retrains, corrected := m.corrected, sramFails := m.sramFails, sramDue := m.sramDue, sramUsed := m.sramUsed,
    crossFails := m.crossFails, crossSpared := m.crossSpared, sparesUsed := m.sparesUsed, fenceLog := m.fenceLog,
    cxlFenceLog := m.cxlFenceLog, flashFences := m.flashFences, flashCxlFences := m.flashCxlFences, present := m.present }

/-- Links go down for the reset and keep what cold reset or PORT_CONFIG gave their blocks (R381). -/
def warmPorts (p : Ports) : Ports :=
  { blocks := p.blocks.map (fun e => (e.1, { e.2 with links := e.2.links.map (fun (l : PLink) =>
      { gen := if l.width = 0 then l.gen else nextGen l.gen, seen := l.seen }) })),
    winXlat := p.winXlat, apt := p.apt }

/-- The course engine after a warm reset: a course in progress is lost (R649), and the registers that only a cold reset zeroes stand (R342). -/
def warmCourse (s : State) : Course :=
  { coldCourse s with
    lastOutcome := s.course.lastOutcome, lastDetail := s.course.lastDetail, spillWaits := s.course.spillWaits,
    run := s.course.run.map (fun r => { id := r.id, step := r.step, label := r.label, format := r.format, trigger := r.trigger,
                                        status := if courseLive s then 0 else r.status, detail := r.detail, total := r.total, cbu := r.cbu,
                                        drained := r.drained }) }

/-- Functions after a warm reset: their links have gone down (R387), so their generations have ended and no VF is there; what FN_CREATE gave them stays
(R411 to R413). -/
def warmFn (fid : Nat) (f : Fn) : Fn :=
  { hp := f.hp, pf := f.pf, vfIndex := f.vfIndex, allot := f.allot, spoof := f.spoof, vlan := f.vlan, mac := f.mac, ipv4 := f.ipv4, ipv6 := f.ipv6,
    ipv6Len := f.ipv6Len, slot := f.slot, gen := nextGen f.gen, prevGen := f.gen, cause := 5, lateDiscarded := f.lateDiscarded,
    spoofDrops := f.spoofDrops, kept := f.kept, dirty := f.dirty, on := isPf fid }

/-- The part as a warm reset leaves it, before its start begins. -/
def warmState (s : State) : State :=
  { draw := s.draw, time := s.time, out := s.out, pending := s.pending, csr := s.csr, err := s.err.map (fun e => (e.1, warmHdr e.2)),
    perf := s.perf,
    tel := { plog := if bits s.pins.latched 6 2 = 0 then [] else s.tel.plog, plogNext := s.tel.plogNext, plogRead := s.tel.plogRead,
             dump := s.tel.dump, faultHold := s.tel.faultHold },
    icp := { replyDrops := s.icp.replyDrops, datagramDrops := s.icp.datagramDrops, dbInvalid := s.icp.dbInvalid },
    ports := warmPorts s.ports, mem := warmMem s, mason := { fuses := s.mason.fuses, units := s.mason.units },
    sec := { openCopies s.sec with identity := false, deviceKey := false, provisionKey := false, challenge := none, spdm := [], ide := [] },
    sto := { ns := s.sto.ns, ctrls := s.sto.ctrls, failedSsds := s.sto.failedSsds },
    pwr := { s.pwr with islands := s.pwr.islands.map (fun e => (e.1, { e.2 with fwPoint := 0 })), fallback := true, standby := false },
    pins := s.pins, boot := s.boot, course := warmCourse s, fns := s.fns.map (fun e => (e.1, warmFn e.1 e.2)) }

/-- WARM_RESET: kind 3 watchdog, 4 FW_ACTIVATE. -/
def execWarmReset (kind : Nat) (stewardOk : Bool) (s : State) : Host.Outcome State Fault Refusal :=
  .next (if s.boot.inReset then s else
    let before := faultAsserted s
    let alert := alertAsserted s
    let s := warmState (keepFat (interruptStart 5 s))
    let s := releaseFault before s
    driveAlert alert (storageStart (footingHold (beginStart kind stewardOk s))))

/-! ### Events 5, 6 and 9 (R651, R653, R655, R657) -/

/-- An image has passed: its firmware runs and the identity keys are derived. -/
def startImage (slot : Nat) (im : Bytes) (s : State) : State :=
  let i := { imageInfo im with keySlot := (imageKeySlot s im).getD 4 }
  deriveIdentity
    (updRecord (fun r => { r with slot := slot, fwVersion := i.fwVersion, svn := i.svn })
      (s.setBoot { s.boot with running := i, runningSlot := slot, stage := 2, trials := [] }))

/-- A slot that fails verification is marked INVALID, and one on trial is no longer pending. -/
def failSlot (slot detail : Nat) (s : State) : State :=
  let s := bootWrite (fun r =>
    let r := setSlotState slot 3 r
    if r.pendingSlot = slot then { r with pendingSlot := 0xFF, trial := false, svnCommit := false } else r) s
  s.setBoot { s.boot with imageDetail := detail }

/-- The choices of a start in order, with the image the network gave where it was fetched. -/
def tryImages (network : Option Bytes) : List Nat → State → State
  | [], s => failStart 2 (s.setBoot { s.boot with trials := [] })
  | t :: r, s =>
    if t = 2 then
      (match network with
       | none => s.setBoot { s.boot with trials := t :: r }
       | some im =>
         match imageCheck s im with
         | none => startImage 2 im s
         | some (_, d) => failStart 3 (s.setBoot { s.boot with trials := [], imageDetail := d }))
    else
      (match imageCheck s (flashSlot s t).image with
       | none => startImage t (flashSlot s t).image s
       | some (_, d) => tryImages network r (failSlot t d s))

/-- A start is under way and no FAT has stopped it. -/
def starting (s : State) (stage : Nat) : Bool := !s.boot.inReset && s.boot.stage == stage && !s.tel.frozen && !s.pwr.tripped

/-- The images are read and verified; `network` is the file that DHCP and TFTP fetched, where they did. -/
def execImageVerified (network : Option Bytes) (s : State) : Host.Outcome State Fault Refusal :=
  .next (if starting s 1 && !s.boot.trials.isEmpty then tryImages network s.boot.trials s else s)

/-- The network fetch gives up. -/
def execNetworkFetchTimeout (s : State) : Host.Outcome State Fault Refusal :=
  .next (if starting s 1 && s.boot.trials.head? == some 2 then failStart 3 (s.setBoot { s.boot with trials := [] }) else s)

/-- Revocations and the SVN commit that the image requested are burned (R578, R579). -/
def burnFuses (s : State) : State :=
  let mask := s.boot.running.revokeMask &&& (0xFF - 2 ^ s.boot.running.keySlot)
  let svn := if s.boot.record.svnCommit then max s.sec.svnMin (min 64 s.boot.running.svn) else s.sec.svnMin
  s.setSec { s.sec with revoked := s.sec.revoked ||| mask, svnMin := svn }

/-- Every ring of a function is served. -/
def ringsReady (s : State) : State :=
  s.fns.foldl (fun s e => if e.2.on then setRing e.1 { ringOf s e.1 with ready := true } s else s) s

/-- Start complete. -/
def execStartComplete (s : State) : Host.Outcome State Fault Refusal :=
  .next (if !starting s 2 then s else
    let d := sinceZero s
    let s1 := updRecord (fun r => { r with outcome := 1, reason := 0, durationMs := d })
      (bootWrite (fun r =>
        if r.trial then { r with failedStarts := 0, trial := false, activeSlot := r.pendingSlot, pendingSlot := 0xFF }
        else { r with failedStarts := 0 }) s)
    let s2 := burnFuses s1
    let s3 := if s.boot.record.svnCommit then bootWrite (fun r => { r with svnCommit := false }) s2 else s2
    ringsReady (s3.setBoot { s3.boot with stage := 3, startMs := d, watchdog := false }))

/-- The start watchdog expires: the start has failed, and a warm reset follows. -/
def execStartWatchdogExpiry (s : State) : Host.Outcome State Fault Refusal :=
  .next (if !s.boot.watchdog then s
    else (let s := interruptStart 1 s
          s.setBoot { s.boot with watchdog := false }))

/-- GL_START_CTL.FOOTING_THRESHOLD is written (R665, R681). -/
def startCtl (who : Requester) (v : Nat) (s : State) : State :=
  if !trusted who then countUnmapped (blkBase blkGlobal + 0x108) s
  else
    let t := clampN 1 7 (v % 8)
    bootWrite (fun r => { r with threshold := t }) (setCell blkGlobal 0x108 t s)

def execGlStartCtlWrite (who : Requester) (value : CsrWord) (s : State) : Host.Outcome State Fault Refusal :=
  .next (startCtl who value.toNat s)

/-! ### FW_STAGE (R670, R671) -/

/-- The slot that a SLOT byte names. -/
def stageSlot (s : State) (b : Nat) : Nat :=
  if b = 0xFF then (if footing s ∨ 1 < s.boot.runningSlot then 1 - s.boot.record.activeSlot else 1 - s.boot.runningSlot) else b

/-- The slot may not be written. -/
def slotInUse (s : State) (i : Nat) : Bool :=
  (!footing s && s.boot.runningSlot == i) || s.boot.record.pendingSlot == i || (match s.boot.act with | some a => a.slot == i | none => false)

/-- The reply to a piece. -/
def stageReply (s : State) (i : Nat) : Bytes :=
  let x := flashSlot s i
  let ok := slotState s.boot.record i == 2
  layout 16 [(0, 1, i), (1, 1, slotState s.boot.record i), (4, 4, x.image.length), (8, 4, if ok then le x.image 0xC 4 else 0),
             (0xC, 1, if ok then le x.image 0x10 1 else 0)]

/-- FW_STAGE. -/
def hFwStage : Handler := fun c s =>
  let i := stageSlot s (c.p 0 1)
  let n := c.p 2 2
  let off := c.p 4 4
  let len := c.p 8 4
  let x := flashSlot s i
  checked s
    [(!([0, 1, 0xFF].contains (c.p 0 1)), stBadHandle, dtNone), (decide (c.pkt.paramLen < 48 + n), stBadAddress, dtField 2),
     ((off != 0 && (off != x.image.length || len != x.imageLen || slotState s.boot.record i != 1)) || decide (len < 1024 ∨ 31457280 < len),
       stBadAddress, dtStageOrder),
     (decide (len < off + n), stBadAddress, dtNone), (slotInUse s i, stConflict, dtSlotInUse)]
    (let piece := ((c.params.drop 0x30) ++ List.replicate n 0).take n
     let s := if off = 0 then setFlashSlot i { imageLen := len } (bootWrite (setSlotState i 1) s) else s
     let im := (if off = 0 then [] else x.image) ++ piece
     let s := setFlashSlot i { image := im, imageLen := len } s
     if im.length < len then Res.ok s false (stageReply s i)
     else
       match imageCheck s im with
       | some (st, d) => .reply (bootWrite (setSlotState i 3) s) st d []
       | none =>
         let s := bootWrite (setSlotState i 2) s
         Res.ok s false (stageReply s i))

/-! ### FW_ACTIVATE (R672 to R678) -/

/-- The slot becomes pending, or, where it is the running one, none is (R672, R674); in footing mode the next start gets one trial (R668). -/
def writePending (slot : Nat) (commit : Bool) (s : State) : State :=
  let foot := footing s
  let p := if !foot ∧ s.boot.runningSlot = slot then 0xFF else slot
  bootWrite (fun r => { r with pendingSlot := p, svnCommit := commit, trial := false,
                               failedStarts := if foot then r.threshold - 1 else r.failedStarts }) s

/-- The 32-byte reply. -/
def actReply (s : State) (slot mode flags deferred pause : Nat) : Bytes :=
  layout 32 [(0, 1, slot), (1, 1, mode), (2, 1, flags % 2), (4, 4, le (flashSlot s slot).image 0xC 4), (8, 4, deferred), (0xC, 4, pause)]

/-- The outcome of the last activation is kept for FW_QUERY. -/
def actOutcome (status detail mode pause : Nat) (s : State) : State :=
  s.setBoot { s.boot with lastStatus := status, lastDetail := detail, lastMode := mode, lastPauseUs := pause }

/-- Detail of the emergency that holds. -/
def emergencyDetail (s : State) : Option Nat :=
  if powerEmergency s then some dtPower else if thermalEmergency s then some dtThermal else none

/-- The header of a slot's image. -/
def slotInfo (s : State) (i : Nat) : ImageInfo := imageInfo (flashSlot s i).image

/-- The checks of R673. -/
def actChecks (c : Ctx) (s : State) (mode : Nat) : List (Bool × Nat × Nat) :=
  let slot := c.p 0 1
  [(decide (1 < slot), stBadHandle, dtField 0), (decide (2 < mode), stNotPermitted, dtField 1), (mode == 2 && !c.cap 3, stVersion, dtCap),
   (slotState s.boot.record slot != 2, stConflict, dtSlotNotValid), (s.boot.act.isSome, stBusy, dtActPending),
   (mode == 2 && ((slotInfo s slot).liveVersion == 0 || (slotInfo s slot).liveVersion != s.boot.running.liveVersion), stConflict,
     dtLiveIncompatible),
   (mode == 2 && s.tel.frozen, stConflict, dtFrozen)]

/-- The activation of a context. -/
def actOf (c : Ctx) (mode : Nat) : Activation :=
  { via := c.via, pkt := { c.pkt with opcode := 0x0801 }, slot := c.p 0 1, mode := mode, flags := c.p 2 1, deferred := false }

/-- An activation that waits posts its interim reply and is deferred (R89). -/
def deferAct (c : Ctx) (mode detail : Nat) (s : State) : Res :=
  let data := actReply s (c.p 0 1) mode (c.p 2 1) 0 0
  let r := mkReply 0x0801 c.via c.pkt stDeferred detail data s
  let s := postReply c.via c.pkt { r with interim := true } s
  let s := s.setBoot { s.boot with act := some { actOf c mode with deferred := true, detail := detail } }
  .later (addWait { c with pkt := { c.pkt with opcode := 0x0801 } } .activate 0 0 s) dtNone data

/-- FW_ACTIVATE in a mode. -/
def hFwActivate (mode : Nat) : Handler := fun c s =>
  let slot := c.p 0 1
  let commit := (c.p 2 1).testBit 0
  checked s (actChecks c s mode)
    (match mode, emergencyDetail s with
     | 0, _ =>
       let s := actOutcome stOk dtNone 0 0 (writePending slot commit s)
       Res.ok s false (actReply s slot 0 (c.p 2 1) 0 0)
     | 1, none =>
       let s := actOutcome stOk dtNone 1 0 (writePending slot commit s)
       Res.ok (s.setBoot { s.boot with act := some (actOf c 1) }) false (actReply s slot 1 (c.p 2 1) 0 0)
     | _, none =>
       let s := s.setBoot { s.boot with act := some (actOf c 2) }
       .later (livePause (addWait { c with pkt := { c.pkt with opcode := 0x0801 } } .activate 0 0 s)) dtNone (actReply s slot 2 (c.p 2 1) 0 0)
     | m, some d => deferAct c m d s)

/-- The wait of the activation under way is answered. -/
def finishAct (status detail : Nat) (data : Bytes) (s : State) : State :=
  match s.icp.waits.find? (fun w => w.kind == .activate) with
  | some w => finishWait w status detail data s
  | none => s

/-- ACTIVATION_RETRY: the part checks again every 100 ms. -/
def execActivationRetry (s : State) : Host.Outcome State Fault Refusal :=
  .next (match s.boot.act with
    | none => s
    | some a =>
      if !a.deferred then s
      else
        let a := { a with deferredMs := a.deferredMs + 100 }
        match emergencyDetail s with
        | some _ => s.setBoot { s.boot with act := some a }
        | none =>
          if a.mode = 1 then
            (let s := actOutcome stOk dtNone 1 0 (writePending a.slot (a.flags.testBit 0) s)
             let s := s.setBoot { s.boot with act := some { a with deferred := false } }
             finishAct stOk dtNone (actReply s a.slot 1 a.flags a.deferredMs 0) s)
          else livePause (s.setBoot { s.boot with act := some { a with deferred := false } }))

/-- ACTIVATION_DEFER_EXPIRY: the emergency has outlasted the 60 s. -/
def execActivationDeferExpiry (s : State) : Host.Outcome State Fault Refusal :=
  .next (match s.boot.act with
    | none => s
    | some a =>
      if !a.deferred then s
      else
        let s := actOutcome stFailed a.detail a.mode 0 (s.setBoot { s.boot with act := none })
        finishAct stFailed a.detail (actReply s a.slot a.mode a.flags a.deferredMs 0) s)

/-- The new firmware implements a session's major and every capability of its set (R87). -/
def sessionLives (i : ImageInfo) (x : Session) : Bool := decide (x.major ≤ i.icpMajor) && x.caps &&& i.icpCaps == x.caps

/-- LIVE_ACTIVATION_RESUME: events 5 to 7 of R675. -/
def liveResume (a : Activation) (s : State) : State :=
  let pause := nowSt s - a.pauseFrom
  let i := { slotInfo s a.slot with keySlot := (imageKeySlot s (flashSlot s a.slot).image).getD 4 }
  let s := bootWrite (fun r => { r with activeSlot := a.slot, svnCommit := r.svnCommit || a.flags.testBit 0 }) s
  let s := s.setBoot { s.boot with running := i, runningSlot := a.slot, act := none }
  let s := s.setIcp { s.icp with paused := false }
  let s := s.setFns (s.fns.map (fun e => (e.1, { e.2 with leaseFrom := e.2.leaseFrom + pause })))
  let s := (s.icp.sessions.filter (fun e => !sessionLives i e.2)).foldl (fun s e => endSession e.1 s) s
  finishAct stOk dtNone (actReply s a.slot 2 a.flags a.deferredMs (pause / 1000)) (actOutcome stOk dtNone 2 (pause / 1000) s)

/-! ### Reports (R669, R679) -/

/-- A slot record. -/
def slotRecord (s : State) (i : Nat) : Bytes :=
  let x := flashSlot s i
  let f := slotInfo s i
  layout 32 [(0, 1, slotState s.boot.record i), (1, 1, f.svn), (2, 2, f.liveVersion), (4, 4, f.fwVersion), (8, 4, x.imageLen),
             (0xC, 4, x.image.length), (0x10, 4, f.buildId)]

/-- FW_QUERY. -/
def hFwQuery : Handler := fun _ s =>
  let b := s.boot
  let st := match b.act with | none => 0 | some a => if a.deferred then 1 else 2
  Res.ok s false (layout 32 [(0, 4, b.running.fwVersion), (4, 1, b.runningSlot), (5, 1, b.running.svn), (6, 1, s.sec.svnMin),
      (7, 1, b.record.pendingSlot), (8, 2, b.running.liveVersion), (0xA, 1, st), (0xC, 2, b.lastStatus), (0xE, 2, b.lastDetail),
      (0x10, 1, b.lastMode), (0x14, 4, b.lastPauseUs)]
    ++ slotRecord s 0 ++ slotRecord s 1 ++ List.replicate 160 0)

/-- A start record as it is read out. -/
def StartRec.bytes (r : StartRec) : Bytes :=
  layout 64 [(0, 4, r.seq), (4, 1, r.kind), (5, 1, r.outcome), (6, 1, r.reason), (7, 1, r.slot), (8, 4, r.fwVersion), (0xC, 1, r.svn),
             (0xD, 1, r.source), (0xE, 2, r.straps), (0x10, 4, r.durationMs), (0x14, 2, r.fatBlock), (0x16, 2, r.fatSource), (0x18, 4, r.detail)]

/-- GET_START_REPORT. -/
def hGetStartReport : Handler := fun _ s =>
  let b := s.boot
  Res.ok s false (layout 64 [(0, 1, b.stage), (1, 1, b.footingReason), (2, 1, b.record.failedStarts), (3, 1, b.threshold), (4, 1, b.source),
      (5, 1, bit b.overridden), (6, 1, b.record.activeSlot), (7, 1, b.record.pendingSlot), (8, 4, b.startCount), (0xC, 2, b.fatBlock),
      (0xE, 2, b.fatSource), (0x10, 1, b.records.length)]
    ++ ((b.records.map StartRec.bytes).flatten ++ List.replicate 512 0).take 512 ++ List.replicate 448 0)

/-! ### Diagnostics (R81) -/

/-- The target of a test is one that it has. -/
def diagTargetOk (test target : Nat) : Bool :=
  match test with
  | 1 => decide (target ≤ 3) || target == 0xFFFF
  | 3 => decide (target < 96) || target == 0xFFFF
  | 4 => decide (target ≤ 19)
  | 5 => decide (target ≤ 16)
  | _ => true

/-- The test is served in the part's present condition. -/
def diagServed (s : State) (test target : Nat) : Bool :=
  match test with
  | 1 => footing s || s.boot.stewardSpare == some target
  | 3 => footing s || has s.mem.fenced target
  | 4 => footing s || (pbOf s target).role == 0
  | 5 => !footing s
  | _ => true

/-- The targets of a run, one by one. -/
def diagTargets (test target : Nat) : List Nat :=
  if target = 0xFFFF ∧ test = 1 then List.range 4 else if target = 0xFFFF ∧ test = 3 then List.range 96 else [target]

/-- A result record. -/
def diagRecord (o : Nat × Bool × Nat) : Bytes := layout 16 [(0, 2, o.1), (2, 2, bit (!o.2.1)), (4, 4, o.2.2)]

/-- DIAG_RUN of a test; a spare-out is done when it starts. -/
def hDiagRun (test : Nat) : Handler := fun c s =>
  let target := c.p 2 2
  let n := clampN 1 1000 (c.p 4 4)
  let logical := (unitOf s target).logical
  checked s
    [(decide (test = 0 ∨ 5 < test), stNotPermitted, dtField 0), (!diagTargetOk test target, stBadHandle, dtField 2),
     (test == 5 && (spareCluster s).isNone, stNoResource, dtNone),
     ((match s.icp.diag with | some d => d.status == 0 | none => false), stBusy, dtNone), (!diagServed s test target, stConflict, dtNone)]
    (let moved : Bytes := if test = 5 then diagRecord (target, decide (logical < 16), logical) else []
     let d : Diag := { runId := Config.freeNat s.draw % 2 ^ 32, test := test, target := target, iterations := if test = 5 then 1 else n,
                       records := moved }
     let ms := Config.freeNat (s.draw + 1)
     let s := drawn (drawn (s.setIcp { s.icp with diag := some d }))
     let s := if test = 5 ∧ logical < 16 then spareOutCluster logical c.pkt.parity s else s
     Res.ok s (test != 5 && n != c.p 4 4) (layout 16 [(0, 4, d.runId), (4, 4, ms)]))

/-- The records of a run: each target in each iteration, iteration by iteration (the order is the model's choice, log 171). `outcomes` holds what the
tests found, for each target in the order of its iterations; what it does not name is a free value. -/
def diagRecords (d : Diag) (outcomes : List (Nat × Bool × Nat)) (draw : Nat) : List (Nat × Bool × Nat) :=
  let ts := diagTargets d.test d.target
  (List.range d.iterations).flatMap (fun i => ts.zipIdx.map (fun t =>
    let k := draw + 2 * (i * ts.length + t.2)
    ((outcomes.filter (fun o => o.1 == t.1))[i]?).getD (t.1, Config.freeNat k % 2 == 1, Config.freeNat (k + 1) % 2 ^ 32)))

/-- DIAG_RUN_END: what the tests found, one record per target and iteration; a spare-out has its record since its start. -/
def execDiagRunEnd (outcomes : List (Nat × Bool × Nat)) (s : State) : Host.Outcome State Fault Refusal :=
  .next (match s.icp.diag with
    | none => s
    | some d =>
      if d.status ≠ 0 then s
      else
        let out := diagRecords d outcomes s.draw
        if d.test = 5 then s.setIcp { s.icp with diag := some { d with status := if (d.records.getD 2 0) = 0 then 1 else 2 } }
        else (s.setIcp { s.icp with diag := some { d with status := if out.all (·.2.1) then 1 else 2, records := (out.map diagRecord).flatten } }).setDraw
          (s.draw + 2 * out.length))

/-- DIAG_RESULT: as many records as a reply has room for. -/
def hDiagResult : Handler := fun c s =>
  match s.icp.diag with
  | none => Res.rej s stBadHandle (dtField 0)
  | some d =>
    if d.runId ≠ c.p 0 4 then Res.rej s stBadHandle (dtField 0)
    else
      let recs := d.records.take (253 * 16)
      Res.ok s false (layout 16 [(0, 4, d.runId), (4, 1, d.status), (6, 2, recs.length / 16)] ++ recs)

/-! ### Steward cores and crossings (R45, R23, R25) -/

/-- A steward core fails: the spare is switched in, or, when none remains, the part stops. -/
def execStewardCoreFailed (core : Nat) (s : State) : Host.Outcome State Fault Refusal :=
  .next (
    let b := s.boot
    if b.stewardSpare = some core then s.setBoot { b with stewardSpare := none }
    else if !b.stewards.contains core then s
    else
      let left := b.stewards.filter (fun x => x != core)
      match b.stewardSpare with
      | some sp => logSpare blkSteward 0x0004 core 0 (s.setBoot { b with stewards := left ++ [sp], stewardSpare := none })
      | none =>
        let s := s.setBoot { b with stewards := left }
        if left.isEmpty then recordFat blkGlobal 0x0100 [] s else s)

/-- Jobs of the mason array end without a trace: their items, threads and saved threads go. -/
def dropJobs (mine : Job → Bool) (s : State) : State :=
  let gone := fun (id : Nat) => s.mason.jobs.any (fun j => j.id == id && mine j)
  s.setMason { s.mason with jobs := s.mason.jobs.filter (fun j => !gone j.id),
                            threads := s.mason.threads.filter (fun e => !gone e.2.job),
                            saved := s.mason.saved.filter (fun t => !gone t.job) }

/-- A custody descriptor that was fetched and has not completed. -/
def admitted (s : State) (n seq : Nat) : Option Desc :=
  let q := cqpD s n
  ((q.waiting.find? (fun w => w.1 == seq)).map (·.2.1)).or ((q.running.find? (fun p => p.seq == seq)).map (·.desc))

/-- The job runs for a descriptor, whole or for one of its rows. -/
def Job.of (j : Job) (n seq : Nat) : Bool :=
  match j.origin with
  | .desc a b => a == n && b == seq
  | .row a b _ => a == n && b == seq
  | .forwarded _ _ => false

/-- An admitted descriptor completes with a status, and none of its work goes on. -/
def failDesc (n seq status detail : Nat) (s : State) : State :=
  match admitted s n seq with
  | none => s
  | some d =>
    postCqe n d 0 status detail 0
      (updCqp n (fun q => { q with waiting := q.waiting.filter (fun w => w.1 != seq), running := q.running.filter (fun p => p.seq != seq) })
        (dropJobs (fun j => j.of n seq) s))

/-- A custody descriptor was inside a crossing that reset: it completes with an error status (R24). The manual names no status. -/
def crossDesc (n seq : Nat) (s : State) : State :=
  if (admitted s n seq).isNone then s
  else drawn (drawn (failDesc n seq (1 + Config.freeNat s.draw % 13) (Config.freeNat (s.draw + 1) % 256) s))

/-- A frame of an egress queue was inside a crossing that reset: a NIC frame completes with an error status, a forwarded one is counted as a drop,
and one of a connection is left to retransmission (R24). -/
def crossFrame (sub tc index : Nat) (s : State) : State :=
  let q := queueAt (subOf s sub) tc
  match q[index]? with
  | none => s
  | some f =>
    let s := updSub sub (fun x => { x with queues := x.queues.set tc (q.eraseIdx index) }) s
    match f.src with
    | .nic fn gen qp i irq => txDone fn gen qp i irq (1 + Config.freeNat s.draw % 3) (drawn s)
    | .forward => bumpEn sub 0x130 s
    | .grt _ => s

/-- One piece of the work that was inside a crossing that reset (R24). -/
def crossLost (w : CrossWork) (s : State) : State :=
  match w with
  | .retried => s
  | .desc n seq => crossDesc n seq s
  | .command i => (match s.icp.waits[i]? with | some w => finishWait w stFailed dtNone [] s | none => s)
  | .nvme id => (match s.sto.ops.find? (fun o => o.id == id) with | some o => endOp o nvInternal [] s | none => s)
  | .frame sub tc index => crossFrame sub tc index s

/-- A crossing whose spare pair is used up spares its cluster out at a further mismatch: a spare cluster is left (R193). -/
def crossSparesOut (block : Nat) (s : State) : Bool :=
  decide (2 ≤ block ∧ block ≤ 18) && decide ((unitOf s (block - 2)).logical < 16) && (spareCluster s).isSome

/-- A crossing of a cluster that has used its spare pointer pair mismatches again: the cluster is spared out (R193). -/
def crossCluster (block : Nat) (parity : List Nat) (s : State) : State :=
  if decide (2 ≤ block ∧ block ≤ 18) && decide ((unitOf s (block - 2)).logical < 16) then
    spareOutCluster (unitOf s (block - 2)).logical parity s
  else s

/-- The CON of a crossing mismatch, with its timer held where a sparing follows it (R194). -/
def crossCon (sparing : Bool) (block crossing : Nat) (s : State) : State :=
  if sparing then sparingCon block 0x0001 [crossing] s else recordCon block 0x0001 [crossing] s

/-- The crossing has mismatched less than 1 s ago. -/
def crossedAgain (s : State) (block crossing : Nat) : Bool :=
  match look s.mem.crossFails crossing with | some t0 => decide (now s (blkIsland block) < t0 + second) | none => false

/-- The time of a crossing's mismatch is kept, and it goes over to its spare pointer pair. -/
def crossNoted (crossing t : Nat) (s : State) : State := s.setMem { s.mem with crossFails := put s.mem.crossFails crossing t }
def crossSwitched (crossing : Nat) (s : State) : State := s.setMem { s.mem with crossSpared := s.mem.crossSpared ++ [crossing] }

/-- The pointers of a crossing disagree: it resets, what was inside is reissued or completes with an error, the block on its reading side records
the error, and the second time within 1 s it goes over to its spare pair. -/
def execCrossingMismatch (crossing : Nat) (reset : CrossReset) (s : State) : Host.Outcome State Fault Refusal :=
  let block := reset.block
  .next (if 60 < block then s else
    let s := settle (stoSettle (reset.inside.foldl (fun s w => crossLost w s) s))
    if s.mem.crossSpared.contains crossing then
      crossCluster block reset.parity (crossCon (crossSparesOut block s) block crossing s) else
    let again := crossedAgain s block crossing
    let s := crossNoted crossing (now s (blkIsland block)) (crossCon again block crossing s)
    if again then logSpare block 0x0004 crossing 0 (ackSpare block (crossSwitched crossing s)) else s)

end Sys2Proof.Machine
end

