-- ==== Sys2Proof/Machine/PowerCmds.lean ====
section
/-! DEFINITION. Power and thermal control, straps and pins (chapters 16 and 17): the firmware loops, the hardware protections, the fallback governor, POWER_CAP_SET, the straps and the conditioned inputs. -/

namespace Sys2Proof.Machine

open Sys2Proof

/-! ### Operating points (R683, R684) -/

/-- Typical power of a cluster at a point in mW, and its island voltage in mV. -/
def pointMw (p : Nat) : Nat := match p with | 0 => 20000 | 1 => 13800 | 2 => 9100 | 3 => 5500 | 4 => 2700 | _ => 1700
def pointMv (p : Nat) : Nat := match p with | 0 => 850 | 1 => 780 | 2 => 720 | 3 => 660 | 4 => 600 | _ => 580

def isCluster (i : Nat) : Bool := decide (i ≤ 0x10)
/-- Engines and the steward complex. -/
def isEngine (i : Nat) : Bool := decide (0x40 ≤ i ∧ i ≤ 0x47)
def engineIslands : List Nat := (List.range 8).map (0x40 + ·)
/-- Clusters that have a logical index. -/
def clustersUp (s : State) : List Nat := (List.range 17).filter (fun p => (unitOf s p).logical < 16)

def withPoint (p : Nat) (x : IslandPow) : IslandPow := { x with point := min 5 p, mhz := pointMhz (min 5 p) }
/-- An engine's clock, at most 2,000 MHz. -/
def withMhz (m : Nat) (x : IslandPow) : IslandPow := { x with mhz := min 2000 m }

/-- The voltages that the islands need are requested from the board, within the fused limits. -/
def requestVolts (s : State) : State :=
  let cl := (clustersUp s).map (fun c => pointMv (islandOf s c).point)
  let en := engineIslands.map (fun e => Config.engineMv e (islandOf s e).mhz)
  s.setPwr { s.pwr with vddk := min 950 ((cl ++ en).foldl max 0 + Config.headroomMv), vddq := min 850 (Config.quoinMv + Config.headroomMv) }

/-- Every cluster is held at P5 by THROTTLE_N. -/
def pinHeld (s : State) : Bool := s.pwr.throttlePin

/-- POLICY_SET's bounds of an island, in MHz. -/
def dvfsBounds (s : State) (i : Nat) : Nat × Nat := lookD s.tel.dvfsBound i ((dvfsRange i).getD (0, 0))

/-- The firmware loops run: the part is started, and neither paused, frozen nor in standby. -/
def loopsRun (s : State) : Bool := running s && !s.tel.frozen && !s.icp.paused && !s.pwr.standby

/-! ### The package-power loop (R686, R690, R692, R695) -/

/-- The highest point at which every cluster stays within its share of what the cap leaves to the clusters: the model of the worked case of
R696. -/
def capTarget (s : State) (mw : Nat) : Nat :=
  let cl := clustersUp s
  let drawn := (cl.map (fun c => pointMw (islandOf s c).point)).sum
  let budget := s.pwr.capW * 1000 - (mw - drawn)
  ((List.range 6).find? (fun p => decide (pointMw p * cl.length ≤ budget))).getD 5

/-- A cluster takes a point of firmware's choosing. -/
def fwPoint (c p : Nat) (s : State) : State :=
  updIsland c (fun x => if pinHeld s ∨ x.hot then { x with fwPoint := p } else { withPoint p x with fwPoint := p }) s

/-- Clusters above the target are lowered to it, hottest first. -/
def shedClusters (target mw : Nat) (temps : List (Nat × Nat)) (s : State) : State :=
  let order := sortBy (fun a b => decide (lookD temps b 0 ≤ lookD temps a 0)) (clustersUp s)
  order.foldl (fun s c =>
    let old := (islandOf s c).point
    let s := updIsland c (fun x => { x with capPoint := max x.capPoint target }) s
    if old < target then
      logPolicy 0x47 6 1 c (pointMhz old) (pointMhz target) (fwPoint c target s)
    else s) (s.setPwr { s.pwr with powerMw := mw })

/-- Engines are lowered, by an amount that the manual leaves to firmware, once every cluster stands at P5. -/
def shedEngines (s : State) : State :=
  engineIslands.foldl (fun s e =>
    let old := (islandOf s e).mhz
    let lo := min old (Config.engineFloor e)
    let new := lo + Config.freeNat s.draw % (old - lo + 1)
    let s := drawn s
    if new = old then s
    else logPolicy 0x47 6 1 e old new (updIsland e (fun x => { withMhz new x with capMhz := new }) s)) s

/-- Every island that may be lowered stands at its floor. -/
def atFloor (s : State) : Bool :=
  (clustersUp s).all (fun c => (islandOf s c).point == 5) && engineIslands.all (fun e => decide ((islandOf s e).mhz ≤ Config.engineFloor e))

/-- The power left over lets each island rise by one point; each rise of a cap point is logged as recovery (R49). -/
def capRelax (s : State) (target : Nat) : State :=
  let engine := fun (s : State) (e : Nat) =>
    let old := (islandOf s e).capMhz
    if old = 2000 then s else logPolicy 0x47 6 5 e old 2000 (updIsland e (fun x => { x with capMhz := 2000 }) s)
  let cluster := fun (s : State) (c : Nat) =>
    let old := (islandOf s c).capPoint
    if target < old then logPolicy 0x47 6 5 c (pointMhz old) (pointMhz (old - 1)) (updIsland c (fun x => { x with capPoint := old - 1 }) s)
    else s
  (clustersUp s).foldl cluster (engineIslands.foldl engine s)

/-- The limiter engaged more than 10 times in the period: every cluster is lowered by one point. -/
def limiterPenalty (s : State) : State :=
  if 10 < s.pwr.engaged then
    (clustersUp s).foldl (fun s c =>
      let p := min 5 ((islandOf s c).point + 1)
      logPolicy 0x47 6 3 c (pointMhz (islandOf s c).point) (pointMhz p) (fwPoint c p s)) s
  else s

/-- The cap accepted since the last period takes effect. -/
def applyCap (s : State) : State :=
  match s.pwr.nextCap with
  | some w => logPolicy 0x47 6 2 0x50 s.pwr.capW w (s.setPwr { s.pwr with capW := w, nextCap := none })
  | none => s

/-- The hottest sensor: its value and its island. -/
def hottestOf (temps : List (Nat × Nat)) : Nat × Nat := temps.foldl (fun a e => if a.1 < e.2 then (e.2, e.1) else a) (0, 0)
def noteHottest (temps : List (Nat × Nat)) (s : State) : State :=
  if temps.isEmpty then s else s.setPwr { s.pwr with hottest := (hottestOf temps).1, hottestIsland := (hottestOf temps).2 }

/-- A period of the loop: the 10 ms average of package power in mW, and the hottest sensor of each cluster in 1/8 °C. -/
def execPackagePowerLoop (milliwatts : Nat) (temps : List (Nat × Nat)) (s : State) : Host.Outcome State Fault Refusal :=
  let before := alertAsserted s
  .next (if !loopsRun s then s
    else if isolated s blkPower then s.setPwr { s.pwr with powerMw := milliwatts, engaged := 0 }
    else
      let s := noteHottest temps (applyCap s)
      let s := limiterPenalty (s.setPwr { s.pwr with powerMw := milliwatts, fallback := false })
      let s := s.setPwr { s.pwr with engaged := 0 }
      let target := capTarget s milliwatts
      let s :=
        if s.pwr.capW * 1000 < milliwatts then
          (let s := shedClusters target milliwatts temps s
           let s := if (clustersUp s).all (fun c => (islandOf s c).point == 5) then shedEngines s else s
           let unmet := atFloor s
           let s := if unmet && !s.pwr.capUnmet then logPolicy 0x47 6 3 0x50 (s.pwr.capW * 1000) milliwatts s else s
           s.setPwr { s.pwr with capUnmet := unmet })
        else capRelax (s.setPwr { s.pwr with capUnmet := false }) target
      driveAlert before (requestVolts s))

/-! ### The temperature loop (R687, R332) -/

/-- The target in 1/8 °C, 3 °C lower while the diode is out. -/
def tempTarget (s : State) : Nat := (s.pwr.tempC - (if s.pwr.diodeState = 0 then 0 else 3)) * 8

/-- The ceiling of an island is lowered by one point; an engine's, which has no points, by an amount of firmware's. -/
def lowerCeiling (i : Nat) (s : State) : State :=
  if isCluster i then
    (let c := min 5 ((islandOf s i).ceiling + 1)
     let s := updIsland i (fun x => { x with ceiling := c, cool := 0 }) s
     let s := logPolicy 0x47 5 1 i (pointMhz ((islandOf s i).ceiling - 1)) (pointMhz c) s
     if (islandOf s i).point < c then
       (let s := fwPoint i c s
        if pointMhz c < (dvfsBounds s i).1 then logPolicy 0x47 5 3 i (dvfsBounds s i).1 (pointMhz c) s else s)
     else s)
  else if isEngine i then
    (let old := (islandOf s i).ceilingMhz
     let lo := min old (Config.engineFloor i)
     let c := lo + Config.freeNat s.draw % (old - lo + 1)
     let s := logPolicy 0x47 5 1 i old c (drawn s)
     let s := updIsland i (fun x => { withMhz (min c x.mhz) x with ceilingMhz := c, cool := 0 }) s
     if c < (dvfsBounds s i).1 then logPolicy 0x47 5 3 i (dvfsBounds s i).1 c s else s)
  else s

/-- The ceiling rises by one point, or by an amount of firmware's; a rise is logged as recovery (R49). -/
def raiseCeiling (i : Nat) (s : State) : State :=
  if isCluster i then
    (let old := (islandOf s i).ceiling
     let s := updIsland i (fun x => { x with ceiling := old - 1, cool := 0 }) s
     if old = 0 then s else logPolicy 0x47 5 5 i (pointMhz old) (pointMhz (old - 1)) s)
  else if isEngine i then
    (let old := (islandOf s i).ceilingMhz
     let new := old + Config.freeNat s.draw % (2001 - min old 2000)
     let s := updIsland i (fun x => { x with ceilingMhz := new, cool := 0 }) (drawn s)
     if new = old then s else logPolicy 0x47 5 5 i old new s)
  else s

/-- One island's sample. -/
def tempSample (s : State) (e : Nat × Nat) : State :=
  if tempTarget s < e.2 then lowerCeiling e.1 s
  else if e.2 + 24 ≤ tempTarget s then
    (if 10 ≤ (islandOf s e.1).cool + 1 then raiseCeiling e.1 s else updIsland e.1 (fun x => { x with cool := x.cool + 1 }) s)
  else updIsland e.1 (fun x => { x with cool := 0 }) s

/-- A 10 ms sample: the hottest sensor of each island in 1/8 °C. A hottest island close to 100 °C is a warning event. -/
def execTemperatureLoop (temps : List (Nat × Nat)) (s : State) : Host.Outcome State Fault Refusal :=
  .next (if !loopsRun s then s
    else
      let s := noteHottest temps s
      let s := if !temps.isEmpty ∧ (100 - s.course.policy.margin) * 8 ≤ s.pwr.hottest then warn 2 1 s else s
      if isolated s blkPower then s else requestVolts ((temps.filter (fun e => isCluster e.1 || isEngine e.1)).foldl tempSample s))

/-! ### DVFS governors (R685, R687) -/

/-- The point of a cluster nearest to what its governor wants within its limits: LOW is met first, then HIGH, the cap and the ceiling prevail. -/
def dvfsPoint (s : State) (i want : Nat) : Nat :=
  let b := dvfsBounds s i
  let x := islandOf s i
  let atLeast := ((List.range 6).reverse.find? (fun p => decide (b.1 ≤ pointMhz p))).getD 0
  let atMost := ((List.range 6).find? (fun p => decide (pointMhz p ≤ b.2))).getD 5
  max (max atMost (max x.ceiling x.capPoint)) (min atLeast (min 5 want))

/-- The clock of an engine, in the same order. -/
def dvfsMhz (s : State) (i want : Nat) : Nat :=
  let b := dvfsBounds s i
  let x := islandOf s i
  min (min b.2 2000) (min (min x.ceilingMhz x.capMhz) (max b.1 want))

/-- A governor's decision, which ends a hold of the hardware throttle that it raises the island from (R688). -/
def execDvfsGovernor (island occupancy : Nat) (s : State) : Host.Outcome State Fault Refusal :=
  let before := alertAsserted s
  let want := Config.dvfsWant island occupancy
  let x := islandOf s island
  .next (if !loopsRun s || isolated s blkPower || !(isCluster island || isEngine island) then s
    else
      let new := if isCluster island then pointMhz (dvfsPoint s island want) else dvfsMhz s island want
      let stays := x.hot || (isCluster island && pinHeld s)
      let s := if isCluster island then fwPoint island (dvfsPoint s island want) s
        else if stays then s else updIsland island (fun x => withMhz new x) s
      let s := updIsland island (fun y => { y with held := y.held && (y.hot || decide (new ≤ x.mhz)) }) s
      let s := if new ≠ x.mhz ∧ !stays then logPolicy 0x47 5 6 island x.mhz new s else s
      let s := if new < (dvfsBounds s island).1 then logPolicy 0x47 5 3 island (dvfsBounds s island).1 new s else s
      driveAlert before (requestVolts s))

/-! ### Hardware protections (R688 to R691, R722) -/

/-- Hardware lowers an island by one point, or halves its clock. -/
def throttleStep (i : Nat) (s : State) : State :=
  if isCluster i then updIsland i (fun x => withPoint (x.point + 1) x) s else updIsland i (fun x => { x with mhz := x.mhz / 2 }) s

def execThermalThrottle (island : Nat) (s : State) : Host.Outcome State Fault Refusal :=
  let before := alertAsserted s
  .next (if s.boot.inReset || !(allIslands.contains island) then s
    else
      let s := if (islandOf s island).hot then s else bump blkPower 0x118 s
      driveAlert before (throttleStep island (updIsland island (fun x => { x with held := true, hot := true }) s)))

def execHardwareThrottleStep (island : Nat) (below98 : Bool) (s : State) : Host.Outcome State Fault Refusal :=
  .next (if !(islandOf s island).hot then s
    else if below98 then updIsland island (fun x => { x with hot := false }) s else throttleStep island s)

/-- The trip stops every island clock except the always-on domain. -/
def execThermalTrip (island : Nat) (s : State) : Host.Outcome State Fault Refusal :=
  .next (if s.boot.inReset || s.pwr.tripped then s
    else emit (.pin .thermtripN true) (s.setPwr { s.pwr with tripped := true, trippedIsland := island }))

def execCurrentLimiterEngage (s : State) : Host.Outcome State Fault Refusal :=
  let before := alertAsserted s
  .next (if s.boot.inReset then s
    else driveAlert before (bump blkPower 0x114 (s.setPwr { s.pwr with limiter := true, engaged := s.pwr.engaged + 1 })))

def execCurrentLimiterRelease (s : State) : Host.Outcome State Fault Refusal :=
  .next (driveAlert (alertAsserted s) (s.setPwr { s.pwr with limiter := false }))

/-- The diode is read, in mV and 1/8 °C; a fault counts once as a warning event. -/
def execDiodeRead (millivolts temp : Nat) (s : State) : Host.Outcome State Fault Refusal :=
  let st := if millivolts < 250 then 2 else if 850 < millivolts then 1 else 0
  .next (if s.boot.inReset then s
    else
      let s1 := if st ≠ 0 ∧ s.pwr.diodeState = 0 then warn 2 1 s else s
      s1.setPwr { s1.pwr with diodeState := st, diodeTemp := if st = 0 then temp else s1.pwr.diodeTemp })

/-- THROTTLE_N after conditioning: every cluster at P5 while it is asserted; logged once an assertion. -/
def setThrottle (on : Bool) (s : State) : State :=
  let i := lookD s.pins.inputs 21 {}
  let s := s.setPins { s.pins with inputs := put s.pins.inputs 21 { i with active := on, since := if i.active = on then i.since else nowAon s } }
  if on then
    (if s.pwr.throttlePin then s
     else (List.range 17).foldl (fun s c => updIsland c (withPoint 5) s) (logPolicy 0x50 5 3 21 0 1 (s.setPwr { s.pwr with throttlePin := true })))
  else s.setPwr { s.pwr with throttlePin := false }

def execThrottleN (asserted : Bool) (s : State) : Host.Outcome State Fault Refusal :=
  .next (if s.boot.inReset then s else setThrottle asserted s)

/-! ### The fallback governor (R692, R693) -/

def execFallbackGovernorTakeover (s : State) : Host.Outcome State Fault Refusal :=
  .next (if s.boot.inReset || s.pwr.standby then s else driveAlert (alertAsserted s) (takeFallback s))

/-- Every cluster steps by one point against the cap; none rises above the point firmware last set, nor while something else holds it. -/
def execFallbackGovernorTick (milliwatts : Nat) (s : State) : Host.Outcome State Fault Refusal :=
  .next (if !s.pwr.fallback || s.boot.inReset then s
    else
      let s := s.setPwr { s.pwr with powerMw := milliwatts }
      if s.tel.frozen then s
      else if s.pwr.capW * 1000 < milliwatts then
        (List.range 17).foldl (fun s c => updIsland c (fun x => withPoint (x.point + 1) x) s) s
      else if milliwatts < s.pwr.capW * 900 then
        (List.range 17).foldl (fun s c => updIsland c (fun x =>
          if x.held ∨ pinHeld s ∨ x.point ≤ x.fwPoint then x else withPoint (x.point - 1) x) s) s
      else s)

/-! ### Standby (R425, R697) -/

/-- Every PF is in D3 and no custody client is active; that no queue pair has fetched for 1 s is the event's own. -/
def standbyReady (s : State) : Bool :=
  (s.fns.filter (fun e => isPf e.1 && (fnKnown s e.1).isSome)).all (fun e => e.2.dstate == .d3hot || e.2.dstate == .d3cold) && !courseLive s
    && (match s.elastic.restore with | some r => !(r.state == 1 || r.state == 2) | none => true) && s.elastic.adopt.isNone

def execStandbyEntry (s : State) : Host.Outcome State Fault Refusal :=
  .next (if running s && standbyReady s then
      driveAlert (alertAsserted s) (s.setPwr { s.pwr with standby := true, fallback := false })
    else s)

/-! ### POWER_CAP_SET (R694, R695) -/

def hPowerCapSet : Handler := fun c s =>
  let w := clampN 250 600 (c.p 0 2)
  let t := clampN 70 95 (c.p 3 1)
  let fl := c.p 2 1 % 2
  let s := s.setPwr { s.pwr with nextCap := some w, tempC := t, persisted := if fl = 1 then some (w, t) else s.pwr.persisted }
  let s := if fl = 1 then emit (.flash "board record" (leBytes 2 w ++ leBytes 1 t)) s else s
  Res.ok s (w != c.p 0 2 || t != c.p 3 1)
    (layout 8 [(0, 2, w), (2, 1, fl), (3, 1, t), (4, 2, s.pwr.powerMw / 1000), (6, 1, s.pwr.hottest / 8)])

/-! ### Straps (R711 to R716) -/

/-- The origin of a field of the straps: an override in force, or the strap. -/
def strapOrigin (s : State) (lo w : Nat) : Nat := if bits s.pins.mask lo w = 0 then 0 else 1

/-- A port block differs from the preset. -/
def presetChanged (s : State) : Bool :=
  let p := presetBlocks (presetOf (s.pins.latched % 16))
  (List.range 20).any (fun n =>
    let a := lookD p n {}; let b := pbOf s n
    a.role != b.role || a.bifur != b.bifur || a.hostPort != b.hostPort)

/-- The reply of GET_STRAPS. -/
def strapReply (s : State) : Bytes :=
  let l := s.pins.latched
  let preset := presetOf (l % 16)
  let unlock := s.sec.lifecycle == 0 && l.testBit 13
  layout 64
    [(0, 2, s.pins.strapPins), (2, 2, l), (4, 2, s.pins.nextMask), (6, 2, s.pins.nextValue), (8, 1, preset),
     (9, 1, if presetChanged s then 3 else if preset ≠ l % 16 then 2 else strapOrigin s 0 4),
     (0xA, 1, s.boot.source), (0xB, 1, if s.boot.overridden then 1 else strapOrigin s 4 2),
     (0xC, 1, bits l 6 2), (0xD, 1, strapOrigin s 6 2), (0xE, 1, bits l 8 2), (0xF, 1, strapOrigin s 8 2),
     (0x10, 1, domainRole s), (0x11, 1, if 4 ≤ bits l 10 3 then 2 else strapOrigin s 10 3),
     (0x12, 1, bit unlock), (0x13, 1, if l.testBit 13 && !unlock then 2 else 0), (0x14, 4, inputMask s (·.stuck))]

/-- GET_STRAPS. -/
def hGetStraps : Handler := fun _ s => Res.ok s false (strapReply s)

/-- STRAP_OVERRIDE. -/
def hStrapOverride : Handler := fun c s =>
  let m := c.p 0 2
  let v := c.p 2 2
  let clear := (c.p 4 1).testBit 0
  let gone := if clear ∧ m = 0 then 0xFFFF else m
  let mask := if clear then s.pins.nextMask &&& (0xFFFF - gone) else s.pins.nextMask ||| m
  let value := if clear then s.pins.nextValue &&& (0xFFFF - gone) else (s.pins.nextValue &&& (0xFFFF - m)) ||| (v &&& m)
  let src := if bits mask 4 2 = 0 then 0xFF
    else bits ((s.pins.strapPins &&& (0xFFFF - mask)) ||| (value &&& mask)) 4 2
  checked s [(decide (0x2000 ≤ m), stNotPermitted, dtField 0)]
    (let s := emit (.flash "board record" (leBytes 2 mask ++ leBytes 2 value))
       (s.setPins { s.pins with nextMask := mask, nextValue := value })
     let s := if s.boot.record.sourceOverride = src then s else bootWrite (fun r => { r with sourceOverride := src }) s
     Res.ok s false (strapReply s))

/-! ### Conditioned inputs (R720, R721) -/

def inputOf (s : State) (i : Nat) : Input := lookD s.pins.inputs i {}
def setInput (i : Nat) (x : Input) (s : State) : State := s.setPins { s.pins with inputs := put s.pins.inputs i x }

/-- What a conditioned level does: PBi_PERST_N of a host-role block, TAMPER_N, THROTTLE_N. -/
def inputEffect (i : Nat) (on : Bool) (s : State) : State :=
  if i < 20 then
    (match hostPortOf s i with
     | some hp => if on then hostReset hp s else hostRelease hp s
     | none => s)
  else if i = 20 then setTamper on s
  else if i = 21 then setThrottle on s
  else s

/-- The conditioned level takes a value and acts; the change is recorded. -/
def settleInput (i : Nat) (on : Bool) (s : State) : State :=
  let x := inputOf s i
  if x.active = on then setInput i { x with due := false } s
  else
    let t := nowAon s
    let s := inputEffect i on s
    setInput i { inputOf s i with active := on, lastEvent := t, recorded := true, since := t, due := false } s

/-- The filtered level of an input changes: recorded, or counted and read again at the end of the 10 µs. -/
def execInputChange (input : Nat) (active : Bool) (s : State) : Host.Outcome State Fault Refusal :=
  let x := inputOf s input
  .next (if 22 < input || s.boot.inReset then s
    else if x.recorded && decide (nowAon s < x.lastEvent + 10000) then bump blkGlobal 0x154 (setInput input { x with due := true } s)
    else settleInput input active s)

/-- The level is read again. -/
def execInputRateReread (input : Nat) (active : Bool) (s : State) : Host.Outcome State Fault Refusal :=
  .next (if (inputOf s input).due && !s.boot.inReset then settleInput input active s else s)

/-- The input has been active for more than 10 s. -/
def execInputStuck (input : Nat) (s : State) : Host.Outcome State Fault Refusal :=
  let x := inputOf s input
  .next (if 22 < input || !x.active || x.stuck then s
    else logPolicy 0x50 0 4 input 0 1 (setInput input { x with stuck := true } s))

/-- The input has been inactive for 1 s. -/
def execInputUnstuck (input : Nat) (s : State) : Host.Outcome State Fault Refusal :=
  let x := inputOf s input
  .next (if x.stuck && !x.active then setInput input { x with stuck := false } s else s)

/-- A pulse shorter than 1 µs. -/
def execInputGlitch (input : Nat) (s : State) : Host.Outcome State Fault Refusal :=
  .next (if 22 < input || s.boot.inReset then s else bump blkGlobal 0x150 s)

/-- A pin of a group reads back otherwise than it is driven (R723). -/
def execPadContention (group : Nat) (s : State) : Host.Outcome State Fault Refusal :=
  .next (if 5 < group || s.boot.inReset then s
    else setCell blkGlobal 0x168 (cell s blkGlobal 0x168 ||| 2 ^ group) (bump blkGlobal 0x164 s))

/-- PWR_OK falls: every pin takes its reset state, and the part is in reset. -/
def execPwrOkFall (s : State) : Host.Outcome State Fault Refusal :=
  .next (if s.boot.inReset then s
    else (let s := releasePins s
          s.setBoot { s.boot with inReset := true }))

end Sys2Proof.Machine
end

