-- ==== Sys2Proof/Machine/Staging.lean ====
section
/-! DEFINITION. POLICY_SET and staged configuration (R646, R90 to R99): CFG_STAGE, CFG_COMMIT, CFG_ABORT, and the ends of a commit. -/

namespace Sys2Proof.Machine

open Sys2Proof

/-! ### POLICY_SET (R646) -/

/-- A PARAM that the policy's row has. -/
def policyParamOk (policy param : Nat) : Bool :=
  match policy with
  | 1 => decide (param ≤ 5)
  | 2 => decide (param ≤ 3)
  | 5 => (dvfsRange param).isSome
  | 8 => decide (param ≤ 19)
  | _ => true

/-- LOW and HIGH in effect; a row that names one value leaves HIGH alone. -/
def policyBounds (s : State) (policy param low high : Nat) : Nat × Nat :=
  match policy with
  | 1 => (let r := tierQuantity s param
          (clampN r.1 r.2.1 low, high))
  | 2 => (clampN 1 10000000 low, high)
  | 5 => (let r := (dvfsRange param).getD (0, 0)
          let l := clampN r.1 r.2 low
          (l, clampN l r.2 high))
  | 8 => (clampN 1 16 low, high)
  | _ => (low, high)

/-- A course policy with one trigger threshold and EARLY_EN set. -/
def setTrigger (param v enable : Nat) (p : CoursePolicy) : CoursePolicy :=
  { p with thresh := p.thresh.set param v, early := if enable = 0xFF then p.early else enable == 1 }

/-- The policy takes its bounds. -/
def setPolicy (policy enable param low high : Nat) (s : State) : State :=
  match policy with
  | 1 =>
    let s := setTierQuantity param low s
    if enable = 0xFF then s else setCell blkTable 0x10000 (enable * 2 ^ 31 + bits (cell s blkTable 0x10000) 0 14) s
  | 2 => s.setCourse { s.course with policy := setTrigger param low enable s.course.policy,
                                     next := s.course.next.map (setTrigger param low enable) }
  | 5 => s.setTel { s.tel with dvfsBound := put s.tel.dvfsBound param (low, high) }
  | 8 => s.setTel { s.tel with minWidth := put s.tel.minWidth param low }
  | _ => s

/-- POLICY_SET. -/
def hPolicySet : Handler := fun c s =>
  let p := c.p 0 1
  let e := c.p 1 1
  let b := policyBounds s p (c.p 2 2) (c.p 8 8) (c.p 0x10 8)
  checked s
    [(!([1, 2, 5, 7, 8].contains p), stNotPermitted, dtField 0),
     (!([0, 1, 0xFF].contains e) || (e == 0 && [5, 7, 8].contains p), stNotPermitted, dtField 1),
     (!policyParamOk p (c.p 2 2), stBadHandle, dtField 2)]
    (c.okEcho (setPolicy p e (c.p 2 2) b.1 b.2 s) 32 (whole [(0, 1), (1, 1), (2, 2)]) [(8, 8, b.1), (0x10, 8, b.2)])

/-! ### Staged objects (R91) -/

/-- The direct opcode of an object type, and its handler. -/
def stageOp (t : Nat) : Nat :=
  match t with
  | 1 => 0x0502 | 2 => 0x0503 | 3 => 0x0504 | 4 => 0x0505 | 5 => 0x0506 | 6 => 0x0507 | 7 => 0x0300 | 8 => 0x0307 | _ => 0x0704

def stageHandler (t : Nat) : Handler :=
  match t with
  | 1 => hParseNodeWrite
  | 2 => hClsEntryWrite
  | 3 => hIndirectionWrite
  | 4 => hShaperSet
  | 5 => hPolicerSet
  | 6 => hGateListSet
  | 7 => hCoursePolicySet
  | 8 => hTableCapturePolicy
  | _ => hPolicySet

/-- The object that a direct opcode's block changes, by type. -/
def stageKey (t : Nat) (c : Ctx) : Nat :=
  match t with
  | 1 => c.p 0 2
  | 2 => c.p 0 1
  | 3 => c.p 0 1
  | 4 => (shaperKey c).1 * 2 ^ 40 + (shaperKey c).2
  | 5 => c.p 0 2
  | 6 => c.p 0 1
  | 7 => 0
  | 8 => c.p 0 4
  | _ => c.p 0 1 * 65536 + c.p 2 2

/-- OBJECT_HANDLE names the object of the block, where the block names it by one number (log 90). -/
def handleAgrees (t handle : Nat) (c : Ctx) : Bool :=
  match t with
  | 4 => c.p 0 1 == 0 || handle == c.p 4 4
  | 7 => true
  | 9 => true
  | _ => handle == stageKey t c

/-- A type whose reply is the block in effect. -/
def echoes (t : Nat) : Bool := !(t == 2 || t == 3)

/-- Records that a CLS_ENTRY_WRITE block holds. -/
def clsCount (c : Ctx) : Nat := if c.p 1 1 = 3 then 0 else if c.p 1 1 = 2 then 1 else clampN 0 31 (c.p 2 2)

/-- The entry that a record of a CLS_ENTRY_WRITE block names, as a number: its table, and beside it the format (0), the miss action (1), or the
part of its key, MASK and PREFIX_LEN that tells entries of the table apart (R503). -/
def clsKey (s : State) (n : Nat) (bs : Bytes) (o : Nat) : Nat :=
  let t := tableOf s n
  let e := entryAt t bs o
  n + 8 * (2 + leVal (keyPart t e.key ++ (if t.kind = 2 then keyPart t e.mask else []) ++ leBytes 2 (if t.kind = 3 then e.plen else 0)))

/-- The objects of a CLS_ENTRY_WRITE block: the table's format, its miss action, or the entries that its records name (R91 type 2). -/
def clsKeys (c : Ctx) (s : State) : List Nat :=
  let n := c.p 0 1
  match c.p 1 1 with
  | 2 => [n]
  | 3 => [n + 8]
  | _ => (List.range (clsCount c)).map (fun i => clsKey s n c.params (32 + 128 * i))

/-- A field reference as it is in effect (R498). -/
def setField (bs : Bytes) (o : Nat) : Bytes :=
  setLe (setLe bs (o + 4) 2 (fieldAt bs o).bitOff) (o + 6) 2 (fieldAt bs o).width

/-- One record of a CLS_ENTRY_WRITE block as a block of its own, with the values in effect. -/
def clsBlock (c : Ctx) (s s' : State) (i : Nat) : Bytes :=
  let n := c.p 0 1
  let bs := setLe (c.params.take 32) 2 2 1 ++ (c.params.drop (32 + 128 * i)).take 128
  if c.p 1 1 = 2 then
    let k := clampN 1 8 (le bs 33 1)
    setLe (setLe ((List.range k).foldl (fun b j => setField b (40 + 8 * j)) bs) 33 1 k) 36 4 (tableOf s' n).capacity
  else setLe bs 34 2 (entryAt (tableOf s n) bs 32).plen

/-- An INDIRECTION_WRITE block with the values in effect (R515, R516). -/
def spreadBlock (c : Ctx) : Bytes :=
  if c.p 1 1 = 0 then setLe c.params 4 2 (clampN 0 2024 (c.p 4 2))
  else
    let k := clampN 0 12 (c.p 0x12 1)
    let fc := clampN 0 4 (c.p 0x13 1)
    let bs := (List.range fc).foldl (fun b i => setField b (0x14 + 8 * i)) c.params
    setLe (setLe (setLe bs 0x10 2 (clampN 0 (4096 - 2 ^ k) (c.p 0x10 2) / 2 ^ k * 2 ^ k)) 0x12 1 k) 0x13 1 fc

/-- The objects that a checked block names, each with its own block in effect (R91, R92): one, but for the records of a CLS_ENTRY_WRITE. -/
def stageObjs (t : Nat) (c : Ctx) (s s' : State) (data : Bytes) : List (Nat × Bytes) :=
  match t with
  | 2 =>
    if c.p 1 1 = 3 then (clsKeys c s).map (fun k => (k, c.params))
    else (clsKeys c s).zipIdx.map (fun k => (k.1, clsBlock c s s' k.2))
  | 3 => [(stageKey 3 c, spreadBlock c)]
  | _ => [(stageKey t c, data)]

/-- The block changes an object: a new format changes every entry of its table. -/
def touches (t : Nat) (c : Ctx) (s : State) (key : Nat) : Bool :=
  if t = 2 then key % 8 == c.p 0 1 && (c.p 1 1 == 2 || (clsKeys c s).contains key) else key == stageKey t c

/-- The context in which a staged block is checked and applied. -/
def stageCtx (c : Ctx) (t : Nat) (config : Bytes) : Ctx :=
  { c with pkt := { c.pkt with opcode := stageOp t, params := config, paramLen := config.length, room := 4064, flags := 0 } }

/-- A block run as its direct opcode would be. -/
def runStaged (c : Ctx) (t : Nat) (config : Bytes) (s : State) : Res :=
  let d := stageCtx c t config
  match icpCheck (stageOp t) c.via d.pkt s with
  | some (st, dt) => Res.rej s st dt
  | none => stageHandler t d s

/-- The object stands in a stage set. -/
def isStaged (s : State) (t key : Nat) : Bool := s.icp.stage.any (fun e => e.otype == t && e.handle == key)

/-- The slice of the indirection table that a staged INDIRECTION_WRITE is about: the one its profile record gives, or the one of its profile (R514). -/
def stagedSlice (s : State) (e : StageEntry) : Nat × Nat :=
  if le e.config 1 1 = 1 then (le e.config 0x10 2, 2 ^ le e.config 0x12 1) else ((profileOf s e.handle).base, 2 ^ (profileOf s e.handle).sizeLog2)

/-- Entries that an INDIRECTION_WRITE writes lie in a slice; slices may overlap (R514). -/
def writesSlice (c : Ctx) (s : State) (x : Nat × Nat) : Bool :=
  let lo := (profileOf s (c.p 0 1)).base + c.p 2 2
  c.p 1 1 == 0 && decide (lo < x.1 + x.2 ∧ x.1 < lo + clampN 0 2024 (c.p 4 2))

/-- The block changes a staged object: one of its own type, a slice that its entries lie in, or, between COURSE_POLICY_SET and POLICY_SET of policy 2,
the course policy whose thresholds and EARLY_EN both set (R290, R514, R646). -/
def changesStaged (t : Nat) (c : Ctx) (s : State) (e : StageEntry) : Bool :=
  (e.otype == t && touches t c s e.handle)
    || (t == 3 && e.otype == 3 && writesSlice c s (stagedSlice s e))
    || (t == 9 && c.p 0 1 == 2 && e.otype == 7) || (t == 7 && e.otype == 9 && e.handle / 65536 == 2)

/-- A direct opcode would change an object that stands in a stage set. -/
def stagedHit (t : Nat) (c : Ctx) (s : State) : Bool := s.icp.stage.any (changesStaged t c s)

/-- A direct opcode of a stageable object: nothing that stands in a stage set is changed (R93), whatever a later record's check says. -/
def direct (t : Nat) : Handler := fun c s =>
  match stageHandler t c s with
  | .reply s' st d data =>
    if stagedHit t c s then (if st = 0 then Res.rej s stBusy dtStaged else Res.rej s st d) else .reply s' st d data
  | r => r

/-- The entries of an owner, and whether a commit of them runs. -/
def stageSet (s : State) (o : Owner) : List StageEntry := s.icp.stage.filter (fun e => e.owner == o)
def committing (s : State) (o : Owner) : Bool := s.icp.commits.any (fun k => k.owner == o)

/-- The entries that a checked block makes; of two records that name one object the later stands (R92). -/
def entriesFor (o : Owner) (t : Nat) (d : Ctx) (s s' : State) (data : Bytes) : List StageEntry :=
  ((stageObjs t d s s' data).foldl (fun l x => put l x.1 x.2) []).map (fun x => { owner := o, otype := t, handle := x.1, config := x.2 })

/-- The entries that it does not replace. -/
def others (t : Nat) (d : Ctx) (s s' : State) : List StageEntry :=
  s.icp.stage.filter (fun e => !(e.otype == t && (stageObjs t d s s' []).any (fun x => x.1 == e.handle)))

/-- CFG_STAGE (R90, R92, R93). The spec does not say what counts as shadow bytes: the model counts the CONFIG bytes of the entries (log 170). -/
def hCfgStage : Handler := fun c s =>
  let t := c.p 0 2
  let n := c.p 8 2
  let config := (c.params.drop 16).take n
  let o := ownerFor c.via
  let d := stageCtx c t config
  checked s
    [(decide (t = 0 ∨ 9 < t), stNotPermitted, dtField 0), (!handleAgrees t (c.p 4 4) d, stBadHandle, dtField 4),
     (decide (4048 < n ∨ c.pkt.paramLen < 16 + n), stBadAddress, dtField 8)]
    (match runStaged c t config s with
     | .later _ _ _ => Res.rej s stConflict dtNone
     | .reply s' st dt data =>
       let new := entriesFor o t d s s' data
       let mine := (others t d s s').filter (fun x => x.owner == o) ++ new
       let used := (mine.map (fun x => x.config.length)).sum
       if st ≠ 0 ∧ st ≠ stBusy ∧ st ≠ stConflict then Res.rej s st dt
       else
         if 256 < mine.length ∨ 1048576 < used then Res.rej s stNoResource dtStageFull
         else if st ≠ 0 then Res.rej s st dt
         else if s.icp.stage.any (fun x => changesStaged t d s x && x.owner != o) then Res.rej s stBusy dtStaged
         else if committing s o then Res.rej s stBusy dtNone
         else Res.ok (s.setIcp { s.icp with stage := others t d s s' ++ new }) (dt == dtClamped) (layout 16 [(0, 4, mine.length), (4, 4, used)]))

/-! ### CFG_COMMIT (R94 to R97) -/

/-- A block run at a commit: under ROLLING a course policy and a capture policy wait for the next COURSE_OPEN (R91 types 7 and 8). -/
def runCommit (rolling : Bool) (c : Ctx) (t : Nat) (config : Bytes) (s : State) : Res :=
  let d := stageCtx c t config
  match rolling, t, icpCheck (stageOp t) c.via d.pkt s with
  | true, 7, none => hCoursePolicy true d s
  | true, 8, none => hCapturePolicy true d s
  | _, _, _ => runStaged c t config s

/-- The entries are applied one after the other; the status of the first that fails. -/
def applyStage (rolling : Bool) (c : Ctx) : List StageEntry → State → State × Option (Nat × Nat)
  | [], s => (s, none)
  | e :: r, s =>
    match runCommit rolling c e.otype e.config s with
    | .reply s' 0 _ _ => applyStage rolling c r s'
    | .reply _ st d _ => (s, some (st, d))
    | .later s' _ _ => applyStage rolling c r s'

/-- The reply of a commit. -/
def commitReply (mode bound applied pause time : Nat) : Bytes :=
  layout 32 [(0, 1, mode), (4, 4, bound), (8, 4, applied), (0xC, 4, pause), (0x10, 4, time)]

/-- A unit of the set has not flipped: a gate list whose cycle has not ended, or a course policy or a capture policy that waits for the next
COURSE_OPEN. -/
def unflipped (s : State) (o : Owner) : Bool :=
  (stageSet s o).any (fun e => (e.otype == 6 && (subOf s e.handle).nextGates.isSome) || (e.otype == 7 && s.course.next.isSome)
    || (e.otype == 8 && (match tblByHandle s e.handle with | some t => t.2.capNext.isSome | none => false)))

/-- A set is empty again and its commit has ended. -/
def clearSet (o : Owner) (s : State) : State :=
  s.setIcp { s.icp with stage := s.icp.stage.filter (fun e => e.owner != o), commits := s.icp.commits.filter (fun k => k.owner != o) }

/-- The bound in effect. -/
def drainBound (c : Ctx) : Nat := clampN 10 100000 (c.p 4 4)

/-- The commit is under way. -/
def openCommit (c : Ctx) (s : State) : State :=
  s.setIcp { s.icp with commits := s.icp.commits ++ [{ owner := ownerFor c.via, via := c.via, bound := drainBound c, start := nowSt s }] }

/-- CFG_COMMIT in a mode: 0 ROLLING, 1 DRAIN. While a commit of the issuer's own runs, it and CFG_STAGE are answered BUSY with no detail: the spec
says so of CFG_ABORT only (DESIGN CHOICE, log 170). -/
def hCfgCommit (mode : Nat) : Handler := fun c s =>
  let o := ownerFor c.via
  let es := stageSet s o
  let b := drainBound c
  let w := { c with pkt := { c.pkt with opcode := 0x0111 } }
  checked s [(decide (1 < mode), stNotPermitted, dtField 0), (committing s o, stBusy, dtNone)]
    (match applyStage (decide (mode = 0)) c es s with
     | (_, some (st, d)) => Res.rej s st d
     | (s', none) =>
       if mode = 0 then
         (if unflipped s' o then Res.wait (addWait w .rolling 0 es.length (openCommit c s')) (b != c.p 4 4) (commitReply 0 b es.length 0 0)
          else Res.ok (clearSet o s') (b != c.p 4 4) (commitReply 0 b es.length 0 0))
       else Res.wait (addWait w .drain 0 es.length (openCommit c s)) (b != c.p 4 4) (commitReply 1 b es.length 0 0))

/-- The context of the owner of a waiting commit. -/
def waitCtx (s : State) (w : Waiter) : Ctx := { via := w.via, pkt := w.pkt, iss := issuerOf s w.via, sess := sessionOf s w.via }

/-- The commit of a transport's owner that runs in a kind. -/
def commitOf (s : State) (via : Via) (kind : WaitKind) : Option (Waiter × Commit) :=
  match s.icp.waits.find? (fun w => w.via == via && w.kind == kind), s.icp.commits.find? (fun k => k.via == via) with
  | some w, some k => some (w, k)
  | _, _ => none

/-- Microseconds since a commit began. -/
def commitTime (s : State) (k : Commit) : Nat := (nowSt s - k.start) / 1000

/-- A ROLLING commit whose last unit has flipped is answered. -/
def finishRolling (s : State) (w : Waiter) : State :=
  match commitOf s w.via .rolling with
  | some (w, k) =>
    if unflipped s k.owner then s
    else finishWait w stOk (if k.bound = le w.pkt.params 4 4 then dtNone else dtClamped)
      (commitReply 0 k.bound w.count 0 (commitTime s k)) (clearSet k.owner s)
  | none => s

/-- The gate lists of a set take effect at once. -/
def gatesNow (es : List StageEntry) (s : State) : State :=
  (es.filter (fun e => e.otype == 6)).foldl (fun s e => updSub e.handle (fun x => match x.nextGates with
    | some g => { x with gates := g.1, nextGates := none }
    | none => x) s) s

/-- Every entry flips at once, gate lists too; the status of the first that fails against the objects as they stand then. -/
def flipAll (c : Ctx) (es : List StageEntry) (s : State) : State × Option (Nat × Nat) :=
  match applyStage false c es s with
  | (s', none) => (gatesNow es s', none)
  | (_, bad) => (s, bad)

/-- A commit is over and its set is kept. -/
def endCommit (o : Owner) (s : State) : State := s.setIcp { s.icp with commits := s.icp.commits.filter (fun k => k.owner != o) }

/-- An open course is work admitted before the pause that has not left the course engine (R97 step 2, log 170). -/
def courseWork (s : State) (es : List StageEntry) : Bool := courseLive s && es.any (fun e => e.otype == 7 || e.otype == 8)

/-- DRAIN_COMPLETE. An entry that fails against the objects as they stand at the flip ends the commit as R95 ends one before it (log 170). -/
def execDrainComplete (owner : Via) (s : State) : Host.Outcome State Fault Refusal :=
  .next (match commitOf s owner .drain with
    | none => s
    | some (w, k) =>
      let t := commitTime s k
      let es := stageSet s k.owner
      let c := waitCtx s w
      if courseWork s es then s
      else match flipAll { c with pkt := { c.pkt with flags := 0 } } es s with
        | (s', none) =>
          livePause (resumeIntake (finishWait w stOk (if k.bound = le w.pkt.params 4 4 then dtNone else dtClamped)
            (commitReply 1 k.bound es.length t t) (clearSet k.owner s')))
        | (_, some (st, d)) => livePause (resumeIntake (finishWait w st d [] (endCommit k.owner s))))

/-- DRAIN_BOUND_EXPIRY. The reply's data are the model's choice: nothing applied, and the time elapsed as the pause (log 170). -/
def execDrainBoundExpiry (owner : Via) (s : State) : Host.Outcome State Fault Refusal :=
  .next (match commitOf s owner .drain with
    | none => s
    | some (w, k) =>
      let t := commitTime s k
      livePause (resumeIntake (finishWait w stFailed dtDrain (commitReply 1 k.bound 0 t t) (endCommit k.owner s))))

/-- CFG_ABORT. -/
def hCfgAbort : Handler := fun c s =>
  let o := ownerFor c.via
  checked s [(committing s o, stBusy, dtNone)] (Res.ok (clearSet o s) false (layout 8 [(0, 4, (stageSet s o).length)]))

end Sys2Proof.Machine
end

