-- ==== Sys2Proof/Machine/IcpTable.lean ====
section
/-! DEFINITION. The intake of ICP commands: the handler of every opcode, the fetch from the rings, barriers, and one meaning for each row of the opcode table (R52 to R99). -/

namespace Sys2Proof.Machine

open Sys2Proof

/-! ### Handlers by opcode (R77) -/

/-- PORT_CONFIG and PORT_QUERY, by PORT_KIND. -/
def hPortConfig : Handler := fun c s =>
  match c.p 0 1 with
  | 0 => hPortConfigBlock c s
  | 1 => hPortConfigEthernet c s
  | 2 => hNicQp c s
  | _ => Res.rej s stNotPermitted (dtField 0)

def hPortQuery : Handler := fun c s =>
  match c.p 0 1 with
  | 0 => hPortQueryBlock c s
  | 1 => hPortQueryEthernet c s
  | _ => Res.rej s stNotPermitted (dtField 0)

def handlers : List (Nat × Handler) :=
  [(0x0000, hHello), (0x0001, hGoodbye), (0x0002, hLeaseRenew), (0x0003, hFlush), (0x0100, hGetIdentity), (0x0101, hGetStraps),
   (0x0102, hStrapOverride), (0x0103, hGetStartReport), (0x0110, hCfgStage), (0x0111, fun c s => hCfgCommit (c.p 0 1) c s),
   (0x0112, hCfgAbort), (0x0120, hPowerCapSet), (0x0200, hTableCreate), (0x0201, hTableDestroy), (0x0202, hTableQuery),
   (0x0204, hCqpCreate), (0x0205, hCqpDestroy), (0x0210, hKernelLoad), (0x0211, hKernelUnload), (0x0212, hRuleRegister)]
  ++ [(0x0300, direct 7), (0x0301, hCourseOpen), (0x0302, hStepDone), (0x0303, hCourseStatus), (0x0304, hCourseAbort),
   (0x0305, hRegionRegister), (0x0306, hRegionDeregister), (0x0307, direct 8), (0x0308, hLedgerQuery), (0x0310, hRestoreBegin),
   (0x0311, hShardMapLoad), (0x0312, hRestoreStatus), (0x0313, hAdopt), (0x0400, hNsCreate), (0x0401, hNsDelete), (0x0402, hNsAttach),
   (0x0403, hNsDetach), (0x0404, hNsQuery), (0x0405, hSsdList), (0x0406, hNsMirrorSet)]
  ++ [(0x0500, hPortConfig), (0x0501, hPortQuery), (0x0502, direct 1), (0x0503, direct 2), (0x0504, direct 3), (0x0505, direct 4),
   (0x0506, direct 5), (0x0507, direct 6), (0x0508, hSamplerSet), (0x0510, hGrtConnCreate), (0x0511, hGrtConnDestroy),
   (0x0512, hMrRegister), (0x0513, hMrRevoke), (0x0514, hGrtConnQuery), (0x0600, hKeyProvision), (0x0601, hKeyErase),
   (0x0602, hLifecycleTransition), (0x0603, hGetCertChain), (0x0604, hSecurityStatus), (0x0700, hErrQuery)]
  ++ [(0x0701, hErrAck), (0x0702, hCounterSelect), (0x0703, hCounterRead), (0x0704, direct 9), (0x0705, hPolicyLogRead),
   (0x0800, hFwStage), (0x0801, fun c s => hFwActivate (c.p 1 1) c s), (0x0802, hFwQuery), (0x0900, hFnCreate), (0x0901, hFnDestroy),
   (0x0902, hFnReset), (0x0903, hGetFunctionState), (0x0904, hMigFreeze), (0x0905, hMigSave), (0x0906, hMigRestore), (0x0907, hMigResume),
   (0x0908, hDirtyLogStart), (0x0909, hDirtyLogStop), (0x0F00, fun c s => hDiagRun (c.p 0 2) c s), (0x0F01, hDiagResult), (0x0F02, hDumpRead)]

/-- The handler of an opcode; one outside the table is answered UNKNOWN_OPCODE by the checks. -/
def handlerOf (op : Nat) : Handler :=
  match handlers.find? (fun h => h.1 == op) with
  | some h => h.2
  | none => fun _ s => Res.rej s stUnknownOpcode dtNone

/-! ### Taking a command -/

/-- A deferral posted the interim reply; any other FW_ACTIVATE gives its second reply slot back (R61, R89). -/
def releaseSpare (via : Via) (pkt : IcpPkt) (before s : State) : State :=
  let interim := before.boot.act.isNone && (match s.boot.act with | some a => a.deferred | none => false)
  match ringKey via with
  | some k => if pkt.opcode = 0x0801 ∧ ¬ interim then setRing k { ringOf s k with reserved := (ringOf s k).reserved - 1 } s else s
  | none => s

/-- A fetched command starts. -/
def startPkt (via : Via) (pkt : IcpPkt) (s : State) : State :=
  releaseSpare via pkt s (icpStart pkt.opcode (handlerOf pkt.opcode) via pkt s)

/-- A command has come off its transport: a kept reply answers it, or it starts, or it waits behind others of its ring or session. -/
def acceptPkt (via : Via) (pkt : IcpPkt) (s : State) : State :=
  match keptReply s via pkt.tag with
  | some r => sendPacket via r (touchSession via s)
  | none =>
    let s := touchSession via s
    if mustHold s via pkt then s.setIcp { s.icp with behind := s.icp.behind ++ [(via, pkt)] } else startPkt via pkt s

/-! ### What goes on when something has changed -/

def viaOf (k : Nat) : Via := if isAccel k then .accel (k - 0x4000) else .ring k

/-- The next command of a ring, where the part may fetch it: the ring runs and reply slots are free (R58, R61, R86). -/
def fetchable (s : State) (k : Nat) : Option IcpPkt :=
  let r := ringOf s k
  match r.unread with
  | [] => none
  | p :: _ =>
    if r.enable && !r.ringErr && !s.icp.paused && transportServed s (viaOf k)
        && decide (r.rplUsed + r.reserved + slotsFor p.opcode ≤ rplSlots r) then some p else none

/-- A barrier whose earlier commands are all answered is answered. -/
def finishBarrier (w : Waiter) (s : State) : State :=
  if w.pkt.opcode = 3 then finishWait w stOk dtNone (layout 8 [(0, 4, w.count)]) s
  else
    let s := s.setIcp { s.icp with waits := dropFirst (fun x => x == w) s.icp.waits }
    if w.pkt.opcode = 1 then goodbyeNow w.via w.pkt s
    else match helloNow { via := w.via, pkt := w.pkt, iss := issuerOf s w.via, sess := sessionOf s w.via } s with
      | .reply s' st d data => sendReply 0 w.via w.pkt st d data s'
      | .later s' _ _ => s'

/-- A held command may start: no barrier runs before it, a FENCE finds nothing unanswered, and no DRAIN commit pauses the course engine (R97). -/
def mayStart (s : State) (b : Via × IcpPkt) : Bool :=
  !(waitsOf s b.1).any (fun w => w.kind == .barrier) && !(flagBit b.2.flags 0 && !(waitsOf s b.1).isEmpty)
    && !(b.2.opcode == 0x0301 && coursePaused s)

/-- The first held command, in order of its own ring or session, that may start. -/
def pickBehind (s : State) : List (Via × IcpPkt) → List Via → Option (Via × IcpPkt)
  | [], _ => none
  | b :: r, seen => if seen.contains b.1 then pickBehind s r seen else if mayStart s b then some b else pickBehind s r (b.1 :: seen)

/-- A ROLLING commit whose last unit has flipped. -/
def rolledOut (s : State) (w : Waiter) : Bool :=
  w.kind == .rolling && (match commitOf s w.via .rolling with | some (_, k) => !unflipped s k.owner | none => false)

/-- One thing that can go on: a barrier, a ROLLING commit, a held command, or the fetch of one command. -/
def wakeOnce (s : State) : Option State :=
  match s.icp.waits.find? (fun w => w.kind == .barrier && waitsOf s w.via == [w]) with
  | some w => some (finishBarrier w s)
  | none =>
    match s.icp.waits.find? (rolledOut s) with
    | some w => some (livePause (finishRolling s w))
    | none =>
      match pickBehind s s.icp.behind [] with
      | some b => some (startPkt b.1 b.2 (s.setIcp { s.icp with behind := dropFirst (fun x => x == b) s.icp.behind }))
      | none =>
        match (s.rings.map (·.1)).find? (fun k => (fetchable s k).isSome) with
        | some k => (fetchable s k).map (fun p => acceptPkt (viaOf k) (stampHead s k p) (fetchSlot k s))
        | none => none

def wakeFor : Nat → State → State
  | 0, s => s
  | n + 1, s => match wakeOnce s with
    | some s' => wakeFor n s'
    | none => s

/-- READY falls on a ring whose ENABLE was cleared once its fetched commands are answered (R59). -/
def settleReady (s : State) : State :=
  s.setRings (s.rings.map (fun e =>
    if e.2.draining && (waitsOf s (viaOf e.1)).isEmpty && !s.icp.behind.any (fun b => b.1 == viaOf e.1)
    then (e.1, { e.2 with ready := false, draining := false }) else e))

/-- Everything that can go on does: as many rounds as there are commands in hand. -/
def icpWake (s : State) : State :=
  settleReady (wakeFor (4 * (s.icp.waits.length + s.icp.behind.length + (s.rings.map (fun e => e.2.unread.length)).sum) + 1) s)

/-! ### Arrival (R58, R60, R63, R65, R66) -/

/-- The doorbell page and the ring registers of an issuer are there. -/
def ringThere (s : State) (k : Nat) : Bool :=
  if isAccel k then has s.rings k else (fnOf s k).isSome && (fnD s k).dstate == .d0 && configServed s k

/-- A command is written into its slot of an endpoint's command ring, which lies in the queue region (R66); a function's lies in its own memory. -/
def slotPut (k : Nat) (pkt : IcpPkt) (s : State) : State :=
  if !isAccel k then s
  else match accelRingByte s k false (4096 * (ringOf s k).cmdTail) with
    | some dpa => (writeMem dpa ((pktBytes false pkt).take 4096) s).1
    | none => s

/-- One more command stands in a ring and its doorbell is rung; a full ring takes none. -/
def ringPut (k : Nat) (pkt : IcpPkt) (s : State) : State :=
  let r := ringOf s k
  if !ringThere s k || decide (cmdSlots r ≤ r.unread.length + 1) then s
  else setRing k { r with unread := r.unread ++ [pkt], cmdTail := (r.cmdTail + 1) % cmdSlots r } (slotPut k pkt s)

/-- A command arrives on a transport. -/
def icpArrive (via : Via) (pkt : IcpPkt) (s : State) : State :=
  match ringKey via with
  | some k => ringPut k pkt s
  | none =>
    if !transportServed s via then s
    else if s.icp.paused then
      (match via with | .mgmt _ => s.setIcp { s.icp with datagramDrops := s.icp.datagramDrops + 1 } | _ => s)
    else acceptPkt via pkt s

/-- A command of an opcode arrives and the part takes what it can. -/
def icpRow (op : Nat) (via : Via) (pkt : IcpPkt) (s : State) : State := icpWake (icpArrive via { pkt with opcode := op } s)

/-- The packet with one parameter byte set; rows that share an opcode are told apart by it. -/
def withByte (off : Nat) (f : Nat → Nat) (pkt : IcpPkt) : IcpPkt :=
  let ps := pkt.params ++ List.replicate (off + 1 - pkt.params.length) 0
  { pkt with params := ps.set off (BitVec.ofNat 8 (f (le ps off 1))) }

/-- A bit of the byte set or clear. -/
def putBit (i : Nat) (b : Bool) (v : Nat) : Nat := v - v / 2 ^ i % 2 * 2 ^ i + bit b * 2 ^ i

/-! ### The rows of the opcode table -/

/-- HELLO. -/
def execHello (via : Via) (pkt : IcpPkt) (s : State) : Host.Outcome State Fault Refusal :=
  .next (icpRow 0x0000 via pkt s)

/-- GOODBYE. -/
def execGoodbye (via : Via) (pkt : IcpPkt) (s : State) : Host.Outcome State Fault Refusal :=
  .next (icpRow 0x0001 via pkt s)

/-- LEASE_RENEW. -/
def execLeaseRenew (via : Via) (pkt : IcpPkt) (s : State) : Host.Outcome State Fault Refusal :=
  .next (icpRow 0x0002 via pkt s)

/-- FLUSH. -/
def execFlush (via : Via) (pkt : IcpPkt) (s : State) : Host.Outcome State Fault Refusal :=
  .next (icpRow 0x0003 via pkt s)

/-- GET_IDENTITY. -/
def execGetIdentity (via : Via) (pkt : IcpPkt) (s : State) : Host.Outcome State Fault Refusal :=
  .next (icpRow 0x0100 via pkt s)

/-- GET_STRAPS. -/
def execGetStraps (via : Via) (pkt : IcpPkt) (s : State) : Host.Outcome State Fault Refusal :=
  .next (icpRow 0x0101 via pkt s)

/-- STRAP_OVERRIDE. -/
def execStrapOverride (via : Via) (pkt : IcpPkt) (s : State) : Host.Outcome State Fault Refusal :=
  .next (icpRow 0x0102 via pkt s)

/-- GET_START_REPORT. -/
def execGetStartReport (via : Via) (pkt : IcpPkt) (s : State) : Host.Outcome State Fault Refusal :=
  .next (icpRow 0x0103 via pkt s)

/-- CFG_STAGE. -/
def execCfgStage (via : Via) (pkt : IcpPkt) (s : State) : Host.Outcome State Fault Refusal :=
  .next (icpRow 0x0110 via pkt s)

/-- CFG_COMMIT_ROLLING. -/
def execCfgCommitRolling (via : Via) (pkt : IcpPkt) (s : State) : Host.Outcome State Fault Refusal :=
  .next (icpRow 0x0111 via (withByte 0 (fun _ => 0) pkt) s)

/-- CFG_COMMIT_DRAIN. -/
def execCfgCommitDrain (via : Via) (pkt : IcpPkt) (s : State) : Host.Outcome State Fault Refusal :=
  .next (icpRow 0x0111 via (withByte 0 (fun _ => 1) pkt) s)

/-- CFG_ABORT. -/
def execCfgAbort (via : Via) (pkt : IcpPkt) (s : State) : Host.Outcome State Fault Refusal :=
  .next (icpRow 0x0112 via pkt s)

/-- POWER_CAP_SET. -/
def execPowerCapSet (via : Via) (pkt : IcpPkt) (s : State) : Host.Outcome State Fault Refusal :=
  .next (icpRow 0x0120 via pkt s)

/-- TABLE_CREATE. -/
def execTableCreate (via : Via) (pkt : IcpPkt) (s : State) : Host.Outcome State Fault Refusal :=
  .next (icpRow 0x0200 via pkt s)

/-- TABLE_DESTROY. -/
def execTableDestroy (via : Via) (pkt : IcpPkt) (s : State) : Host.Outcome State Fault Refusal :=
  .next (icpRow 0x0201 via pkt s)

/-- TABLE_QUERY. -/
def execTableQuery (via : Via) (pkt : IcpPkt) (s : State) : Host.Outcome State Fault Refusal :=
  .next (icpRow 0x0202 via pkt s)

/-- CQP_CREATE. -/
def execCqpCreate (via : Via) (pkt : IcpPkt) (s : State) : Host.Outcome State Fault Refusal :=
  .next (icpRow 0x0204 via pkt s)

/-- CQP_DESTROY. -/
def execCqpDestroy (via : Via) (pkt : IcpPkt) (s : State) : Host.Outcome State Fault Refusal :=
  .next (icpRow 0x0205 via pkt s)

/-- KERNEL_LOAD. -/
def execKernelLoad (via : Via) (pkt : IcpPkt) (s : State) : Host.Outcome State Fault Refusal :=
  .next (icpRow 0x0210 via pkt s)

/-- KERNEL_UNLOAD. -/
def execKernelUnload (via : Via) (pkt : IcpPkt) (s : State) : Host.Outcome State Fault Refusal :=
  .next (icpRow 0x0211 via pkt s)

/-- RULE_REGISTER. -/
def execRuleRegister (via : Via) (pkt : IcpPkt) (s : State) : Host.Outcome State Fault Refusal :=
  .next (icpRow 0x0212 via pkt s)

/-- COURSE_POLICY_SET. -/
def execCoursePolicySet (via : Via) (pkt : IcpPkt) (s : State) : Host.Outcome State Fault Refusal :=
  .next (icpRow 0x0300 via pkt s)

/-- COURSE_OPEN. -/
def execCourseOpen (via : Via) (pkt : IcpPkt) (s : State) : Host.Outcome State Fault Refusal :=
  .next (icpRow 0x0301 via pkt s)

/-- STEP_DONE. -/
def execStepDone (via : Via) (pkt : IcpPkt) (s : State) : Host.Outcome State Fault Refusal :=
  .next (icpRow 0x0302 via pkt s)

/-- COURSE_STATUS. -/
def execCourseStatus (via : Via) (pkt : IcpPkt) (s : State) : Host.Outcome State Fault Refusal :=
  .next (icpRow 0x0303 via pkt s)

/-- COURSE_ABORT. -/
def execCourseAbort (via : Via) (pkt : IcpPkt) (s : State) : Host.Outcome State Fault Refusal :=
  .next (icpRow 0x0304 via pkt s)

/-- REGION_REGISTER. -/
def execRegionRegister (via : Via) (pkt : IcpPkt) (s : State) : Host.Outcome State Fault Refusal :=
  .next (icpRow 0x0305 via pkt s)

/-- REGION_DEREGISTER. -/
def execRegionDeregister (via : Via) (pkt : IcpPkt) (s : State) : Host.Outcome State Fault Refusal :=
  .next (icpRow 0x0306 via pkt s)

/-- TABLE_CAPTURE_POLICY. -/
def execTableCapturePolicy (via : Via) (pkt : IcpPkt) (s : State) : Host.Outcome State Fault Refusal :=
  .next (icpRow 0x0307 via pkt s)

/-- LEDGER_QUERY. -/
def execLedgerQuery (via : Via) (pkt : IcpPkt) (s : State) : Host.Outcome State Fault Refusal :=
  .next (icpRow 0x0308 via pkt s)

/-- RESTORE_BEGIN. -/
def execRestoreBegin (via : Via) (pkt : IcpPkt) (s : State) : Host.Outcome State Fault Refusal :=
  .next (icpRow 0x0310 via pkt s)

/-- SHARD_MAP_LOAD. -/
def execShardMapLoad (via : Via) (pkt : IcpPkt) (s : State) : Host.Outcome State Fault Refusal :=
  .next (icpRow 0x0311 via pkt s)

/-- RESTORE_STATUS. -/
def execRestoreStatus (via : Via) (pkt : IcpPkt) (s : State) : Host.Outcome State Fault Refusal :=
  .next (icpRow 0x0312 via pkt s)

/-- SHARD_ADOPT. -/
def execShardAdopt (via : Via) (pkt : IcpPkt) (s : State) : Host.Outcome State Fault Refusal :=
  .next (icpRow 0x0313 via (withByte 6 (putBit 0 false) pkt) s)

/-- SHRINK_DONE. -/
def execShrinkDone (via : Via) (pkt : IcpPkt) (s : State) : Host.Outcome State Fault Refusal :=
  .next (icpRow 0x0313 via (withByte 6 (putBit 0 true) pkt) s)

/-- NS_CREATE. -/
def execNsCreate (via : Via) (pkt : IcpPkt) (s : State) : Host.Outcome State Fault Refusal :=
  .next (icpRow 0x0400 via pkt s)

/-- NS_DELETE. -/
def execNsDelete (via : Via) (pkt : IcpPkt) (s : State) : Host.Outcome State Fault Refusal :=
  .next (icpRow 0x0401 via pkt s)

/-- NS_ATTACH. -/
def execNsAttach (via : Via) (pkt : IcpPkt) (s : State) : Host.Outcome State Fault Refusal :=
  .next (icpRow 0x0402 via pkt s)

/-- NS_DETACH. -/
def execNsDetach (via : Via) (pkt : IcpPkt) (s : State) : Host.Outcome State Fault Refusal :=
  .next (icpRow 0x0403 via pkt s)

/-- NS_QUERY. -/
def execNsQuery (via : Via) (pkt : IcpPkt) (s : State) : Host.Outcome State Fault Refusal :=
  .next (icpRow 0x0404 via pkt s)

/-- SSD_LIST. -/
def execSsdList (via : Via) (pkt : IcpPkt) (s : State) : Host.Outcome State Fault Refusal :=
  .next (icpRow 0x0405 via pkt s)

/-- NS_MIRROR_SET. -/
def execNsMirrorSet (via : Via) (pkt : IcpPkt) (s : State) : Host.Outcome State Fault Refusal :=
  .next (icpRow 0x0406 via pkt s)

/-- PORT_CONFIG_BLOCK. -/
def execPortConfigBlock (via : Via) (pkt : IcpPkt) (s : State) : Host.Outcome State Fault Refusal :=
  .next (icpRow 0x0500 via (withByte 0 (fun _ => 0) pkt) s)

/-- PORT_CONFIG_ETHERNET. -/
def execPortConfigEthernet (via : Via) (pkt : IcpPkt) (s : State) : Host.Outcome State Fault Refusal :=
  .next (icpRow 0x0500 via (withByte 0 (fun _ => 1) pkt) s)

/-- NIC_QP_CREATE. -/
def execNicQpCreate (via : Via) (pkt : IcpPkt) (s : State) : Host.Outcome State Fault Refusal :=
  .next (icpRow 0x0500 via (withByte 1 (fun _ => 0) (withByte 0 (fun _ => 2) pkt)) s)

/-- NIC_QP_DESTROY. -/
def execNicQpDestroy (via : Via) (pkt : IcpPkt) (s : State) : Host.Outcome State Fault Refusal :=
  .next (icpRow 0x0500 via (withByte 1 (fun _ => 1) (withByte 0 (fun _ => 2) pkt)) s)

/-- PORT_QUERY_BLOCK. -/
def execPortQueryBlock (via : Via) (pkt : IcpPkt) (s : State) : Host.Outcome State Fault Refusal :=
  .next (icpRow 0x0501 via (withByte 0 (fun _ => 0) pkt) s)

/-- PORT_QUERY_ETHERNET. -/
def execPortQueryEthernet (via : Via) (pkt : IcpPkt) (s : State) : Host.Outcome State Fault Refusal :=
  .next (icpRow 0x0501 via (withByte 0 (fun _ => 1) pkt) s)

/-- PARSE_NODE_WRITE. -/
def execParseNodeWrite (via : Via) (pkt : IcpPkt) (s : State) : Host.Outcome State Fault Refusal :=
  .next (icpRow 0x0502 via pkt s)

/-- CLS_INSERT. -/
def execClsInsert (via : Via) (pkt : IcpPkt) (s : State) : Host.Outcome State Fault Refusal :=
  .next (icpRow 0x0503 via (withByte 1 (fun _ => 0) pkt) s)

/-- CLS_DELETE. -/
def execClsDelete (via : Via) (pkt : IcpPkt) (s : State) : Host.Outcome State Fault Refusal :=
  .next (icpRow 0x0503 via (withByte 1 (fun _ => 1) pkt) s)

/-- CLS_CONFIGURE. -/
def execClsConfigure (via : Via) (pkt : IcpPkt) (s : State) : Host.Outcome State Fault Refusal :=
  .next (icpRow 0x0503 via (withByte 1 (fun _ => 2) pkt) s)

/-- CLS_MISS_ACTION. -/
def execClsMissAction (via : Via) (pkt : IcpPkt) (s : State) : Host.Outcome State Fault Refusal :=
  .next (icpRow 0x0503 via (withByte 1 (fun _ => 3) pkt) s)

/-- INDIRECTION_ENTRIES. -/
def execIndirectionEntries (via : Via) (pkt : IcpPkt) (s : State) : Host.Outcome State Fault Refusal :=
  .next (icpRow 0x0504 via (withByte 1 (fun _ => 0) pkt) s)

/-- INDIRECTION_PROFILE. -/
def execIndirectionProfile (via : Via) (pkt : IcpPkt) (s : State) : Host.Outcome State Fault Refusal :=
  .next (icpRow 0x0504 via (withByte 1 (fun _ => 1) pkt) s)

/-- SHAPER_SET. -/
def execShaperSet (via : Via) (pkt : IcpPkt) (s : State) : Host.Outcome State Fault Refusal :=
  .next (icpRow 0x0505 via pkt s)

/-- POLICER_SET. -/
def execPolicerSet (via : Via) (pkt : IcpPkt) (s : State) : Host.Outcome State Fault Refusal :=
  .next (icpRow 0x0506 via pkt s)

/-- GATE_LIST_SET. -/
def execGateListSet (via : Via) (pkt : IcpPkt) (s : State) : Host.Outcome State Fault Refusal :=
  .next (icpRow 0x0507 via pkt s)

/-- SAMPLER_SET. -/
def execSamplerSet (via : Via) (pkt : IcpPkt) (s : State) : Host.Outcome State Fault Refusal :=
  .next (icpRow 0x0508 via pkt s)

/-- GRT_CONN_CREATE. -/
def execGrtConnCreate (via : Via) (pkt : IcpPkt) (s : State) : Host.Outcome State Fault Refusal :=
  .next (icpRow 0x0510 via pkt s)

/-- GRT_CONN_DESTROY. -/
def execGrtConnDestroy (via : Via) (pkt : IcpPkt) (s : State) : Host.Outcome State Fault Refusal :=
  .next (icpRow 0x0511 via pkt s)

/-- MR_REGISTER. -/
def execMrRegister (via : Via) (pkt : IcpPkt) (s : State) : Host.Outcome State Fault Refusal :=
  .next (icpRow 0x0512 via pkt s)

/-- MR_REVOKE. -/
def execMrRevoke (via : Via) (pkt : IcpPkt) (s : State) : Host.Outcome State Fault Refusal :=
  .next (icpRow 0x0513 via pkt s)

/-- GRT_CONN_QUERY. -/
def execGrtConnQuery (via : Via) (pkt : IcpPkt) (s : State) : Host.Outcome State Fault Refusal :=
  .next (icpRow 0x0514 via pkt s)

/-- KEY_PROVISION_CLEAR. -/
def execKeyProvisionClear (via : Via) (pkt : IcpPkt) (s : State) : Host.Outcome State Fault Refusal :=
  .next (icpRow 0x0600 via (withByte 1 (fun _ => 0) pkt) s)

/-- KEY_PROVISION_WRAPPED. -/
def execKeyProvisionWrapped (via : Via) (pkt : IcpPkt) (s : State) : Host.Outcome State Fault Refusal :=
  .next (icpRow 0x0600 via (withByte 1 (fun _ => 1) pkt) s)

/-- KEY_ERASE. -/
def execKeyErase (via : Via) (pkt : IcpPkt) (s : State) : Host.Outcome State Fault Refusal :=
  .next (icpRow 0x0601 via pkt s)

/-- LIFECYCLE_TRANSITION. -/
def execLifecycleTransition (via : Via) (pkt : IcpPkt) (s : State) : Host.Outcome State Fault Refusal :=
  .next (icpRow 0x0602 via pkt s)

/-- GET_CERT_CHAIN. -/
def execGetCertChain (via : Via) (pkt : IcpPkt) (s : State) : Host.Outcome State Fault Refusal :=
  .next (icpRow 0x0603 via pkt s)

/-- SECURITY_STATUS. -/
def execSecurityStatus (via : Via) (pkt : IcpPkt) (s : State) : Host.Outcome State Fault Refusal :=
  .next (icpRow 0x0604 via pkt s)

/-- ERR_QUERY. -/
def execErrQuery (via : Via) (pkt : IcpPkt) (s : State) : Host.Outcome State Fault Refusal :=
  .next (icpRow 0x0700 via pkt s)

/-- ERR_ACK. -/
def execErrAck (via : Via) (pkt : IcpPkt) (s : State) : Host.Outcome State Fault Refusal :=
  .next (icpRow 0x0701 via pkt s)

/-- COUNTER_SELECT. -/
def execCounterSelect (via : Via) (pkt : IcpPkt) (s : State) : Host.Outcome State Fault Refusal :=
  .next (icpRow 0x0702 via pkt s)

/-- COUNTER_READ. -/
def execCounterRead (via : Via) (pkt : IcpPkt) (s : State) : Host.Outcome State Fault Refusal :=
  .next (icpRow 0x0703 via pkt s)

/-- POLICY_SET. -/
def execPolicySet (via : Via) (pkt : IcpPkt) (s : State) : Host.Outcome State Fault Refusal :=
  .next (icpRow 0x0704 via pkt s)

/-- POLICY_LOG_READ. -/
def execPolicyLogRead (via : Via) (pkt : IcpPkt) (s : State) : Host.Outcome State Fault Refusal :=
  .next (icpRow 0x0705 via pkt s)

/-- FW_STAGE. -/
def execFwStage (via : Via) (pkt : IcpPkt) (s : State) : Host.Outcome State Fault Refusal :=
  .next (icpRow 0x0800 via pkt s)

/-- FW_ACTIVATE_AT_RESET. -/
def execFwActivateAtReset (via : Via) (pkt : IcpPkt) (s : State) : Host.Outcome State Fault Refusal :=
  .next (icpRow 0x0801 via (withByte 1 (fun _ => 0) pkt) s)

/-- FW_ACTIVATE_RESET_NOW. -/
def execFwActivateResetNow (via : Via) (pkt : IcpPkt) (s : State) : Host.Outcome State Fault Refusal :=
  .next (icpRow 0x0801 via (withByte 1 (fun _ => 1) pkt) s)

/-- FW_ACTIVATE_LIVE. -/
def execFwActivateLive (via : Via) (pkt : IcpPkt) (s : State) : Host.Outcome State Fault Refusal :=
  .next (icpRow 0x0801 via (withByte 1 (fun _ => 2) pkt) s)

/-- FW_QUERY. -/
def execFwQuery (via : Via) (pkt : IcpPkt) (s : State) : Host.Outcome State Fault Refusal :=
  .next (icpRow 0x0802 via pkt s)

/-- FN_CREATE. -/
def execFnCreate (via : Via) (pkt : IcpPkt) (s : State) : Host.Outcome State Fault Refusal :=
  .next (icpRow 0x0900 via pkt s)

/-- FN_DESTROY. -/
def execFnDestroy (via : Via) (pkt : IcpPkt) (s : State) : Host.Outcome State Fault Refusal :=
  .next (icpRow 0x0901 via pkt s)

/-- FN_RESET. -/
def execFnReset (via : Via) (pkt : IcpPkt) (s : State) : Host.Outcome State Fault Refusal :=
  .next (icpRow 0x0902 via pkt s)

/-- GET_FUNCTION_STATE. -/
def execGetFunctionState (via : Via) (pkt : IcpPkt) (s : State) : Host.Outcome State Fault Refusal :=
  .next (icpRow 0x0903 via (withByte 2 (putBit 0 false) pkt) s)

/-- ADOPT_QUEUES. -/
def execAdoptQueues (via : Via) (pkt : IcpPkt) (s : State) : Host.Outcome State Fault Refusal :=
  .next (icpRow 0x0903 via (withByte 2 (putBit 0 true) pkt) s)

/-- MIG_FREEZE. -/
def execMigFreeze (via : Via) (pkt : IcpPkt) (s : State) : Host.Outcome State Fault Refusal :=
  .next (icpRow 0x0904 via pkt s)

/-- MIG_SAVE. -/
def execMigSave (via : Via) (pkt : IcpPkt) (s : State) : Host.Outcome State Fault Refusal :=
  .next (icpRow 0x0905 via pkt s)

/-- MIG_RESTORE. -/
def execMigRestore (via : Via) (pkt : IcpPkt) (s : State) : Host.Outcome State Fault Refusal :=
  .next (icpRow 0x0906 via pkt s)

/-- MIG_RESUME. -/
def execMigResume (via : Via) (pkt : IcpPkt) (s : State) : Host.Outcome State Fault Refusal :=
  .next (icpRow 0x0907 via pkt s)

/-- DIRTY_LOG_START. -/
def execDirtyLogStart (via : Via) (pkt : IcpPkt) (s : State) : Host.Outcome State Fault Refusal :=
  .next (icpRow 0x0908 via pkt s)

/-- DIRTY_LOG_STOP. -/
def execDirtyLogStop (via : Via) (pkt : IcpPkt) (s : State) : Host.Outcome State Fault Refusal :=
  .next (icpRow 0x0909 via pkt s)

/-- DIAG_STEWARD_SELFTEST. -/
def execDiagStewardSelftest (via : Via) (pkt : IcpPkt) (s : State) : Host.Outcome State Fault Refusal :=
  .next (icpRow 0x0F00 via (withByte 1 (fun _ => 0) (withByte 0 (fun _ => 1) pkt)) s)

/-- DIAG_SPI_FLASH_READ. -/
def execDiagSpiFlashRead (via : Via) (pkt : IcpPkt) (s : State) : Host.Outcome State Fault Refusal :=
  .next (icpRow 0x0F00 via (withByte 1 (fun _ => 0) (withByte 0 (fun _ => 2) pkt)) s)

/-- DIAG_GDDR7_TRAINING. -/
def execDiagGddr7Training (via : Via) (pkt : IcpPkt) (s : State) : Host.Outcome State Fault Refusal :=
  .next (icpRow 0x0F00 via (withByte 1 (fun _ => 0) (withByte 0 (fun _ => 3) pkt)) s)

/-- DIAG_LINK_TRAINING. -/
def execDiagLinkTraining (via : Via) (pkt : IcpPkt) (s : State) : Host.Outcome State Fault Refusal :=
  .next (icpRow 0x0F00 via (withByte 1 (fun _ => 0) (withByte 0 (fun _ => 4) pkt)) s)

/-- DIAG_CLUSTER_SPARE_OUT. -/
def execDiagClusterSpareOut (via : Via) (pkt : IcpPkt) (s : State) : Host.Outcome State Fault Refusal :=
  .next (icpRow 0x0F00 via (withByte 1 (fun _ => 0) (withByte 0 (fun _ => 5) pkt)) s)

/-- DIAG_RESULT. -/
def execDiagResult (via : Via) (pkt : IcpPkt) (s : State) : Host.Outcome State Fault Refusal :=
  .next (icpRow 0x0F01 via pkt s)

/-- DUMP_READ. -/
def execDumpRead (via : Via) (pkt : IcpPkt) (s : State) : Host.Outcome State Fault Refusal :=
  .next (icpRow 0x0F02 via pkt s)

/-! ### Doorbells, rings and other transports -/

/-- The commands in the slots from CMD_HEAD up to an index: the bytes of a function's slots are what its memory holds there, and a slot left
out reads as zero; the bytes of an endpoint's slots are what the queue region holds (R58, R66). -/
def slotsTo (s : State) (k index : Nat) (slots : List IcpSlot) : List IcpPkt :=
  let r := ringOf s k
  let n := (index + cmdSlots r - r.cmdHead) % cmdSlots r
  (List.range n).map (fun i =>
    let x := slots.getD i { bytes := List.replicate 4096 0 }
    icpPkt false (if isAccel k then { x with bytes := accelSlot s k ((r.cmdHead + i) % cmdSlots r) } else x))

/-- A doorbell value out of range is ignored, counted, and sets DB_ERR (R60). -/
def badIcpDoorbell (k : Nat) (s : State) : State :=
  (setRing k { ringOf s k with dbErr := true } s).setIcp { s.icp with dbInvalid := (s.icp.dbInvalid + 1) % 2 ^ 32 }

/-- CMD_TAIL: the commands that the ring's memory holds up to the index may be fetched; `none`: the ring access fails (R58). -/
def execCmdTail (ring index : Nat) (slots : Option (List IcpSlot)) (s : State) : Host.Outcome State Fault Refusal :=
  let r := ringOf s ring
  .next (if !ringThere s ring then s
    else if cmdSlots r ≤ index then badIcpDoorbell ring s
    else match slots with
      | some l => icpWake (setRing ring { r with cmdTail := index, unread := slotsTo s ring index l } s)
      | none => setRing ring { r with cmdTail := index, unread := [], ringErr := r.ringErr || r.enable } s)

/-- RPL_HEAD: the reply slots up to the index are free again. -/
def execRplHead (ring index : Nat) (s : State) : Host.Outcome State Fault Refusal :=
  let r := ringOf s ring
  .next (if !ringThere s ring then s
    else if rplSlots r ≤ index then badIcpDoorbell ring s
    else icpWake (setRing ring { r with rplHead := index,
                                        rplUsed := r.rplUsed - (index + rplSlots r - r.rplHead) % rplSlots r } s))

/-- ENABLE is written. -/
def ringEnable (k : Nat) (on : Bool) (s : State) : State :=
  let r := ringOf s k
  if on then setRing k { r with enable := true, draining := false, ready := r.ready || transportServed s (viaOf k) } s
  else if r.enable then setRing k { r with enable := false, draining := true } s
  else s

/-- ICP_RING_ENABLE. -/
def execIcpRingEnable (fn : Nat) (s : State) : Host.Outcome State Fault Refusal :=
  .next (if isAccel fn || !ringThere s fn then s else icpWake (ringEnable fn true s))

/-- ICP_RING_DISABLE. -/
def execIcpRingDisable (fn : Nat) (s : State) : Host.Outcome State Fault Refusal :=
  .next (if isAccel fn || !ringThere s fn then s else icpWake (ringEnable fn false s))

/-- The parts of a payload that have arrived, put together from its start as far as they go without a gap. -/
def joinParts : List (Nat × Bytes) → Bytes → Bytes
  | [], acc => acc
  | p :: r, acc => if acc.length < p.1 then acc else joinParts r (acc ++ p.2.drop (acc.length - p.1))

/-- The payload of a datagram all of whose fragments are there (R63). -/
def FragSet.payload (x : FragSet) : Option Bytes :=
  match x.total with
  | none => none
  | some n => (let bs := joinParts (sortBy (fun a b => decide (a.1 ≤ b.1)) x.parts) []
               if n ≤ bs.length then some (bs.take n) else none)

/-- A fragment joins those of its datagram. -/
def FragSet.add (x : FragSet) (f : MgmtFrag) : FragSet :=
  { parts := x.parts ++ [(f.offset, f.slot.bytes)], total := if f.more then x.total else some (f.offset + f.slot.bytes.length) }

/-- A fragment of a datagram arrives at the management port: the ICP packet of a datagram that is complete is taken; one of more than 4,096
bytes of payload is not put together; a datagram that arrives in a pause is dropped, and counted at its first fragment (R63, R86). -/
def fragArrive (peer : Nat) (f : MgmtFrag) (s : State) : State :=
  let key := (peer, f.v6, f.ident)
  let x := (lookD s.icp.frags key {}).add f
  if f.port ≠ 7141 ∨ !transportServed s (.mgmt peer) then s
  else if s.icp.paused then
    (if f.offset = 0 then s.setIcp { s.icp with datagramDrops := s.icp.datagramDrops + 1 } else s)
  else match x.payload with
    | some bs =>
      let s := s.setIcp { s.icp with frags := del s.icp.frags key }
      if 4096 < bs.length then s else acceptPkt (.mgmt peer) (icpPkt true { f.slot with bytes := bs }) s
    | none => s.setIcp { s.icp with frags := put s.icp.frags key x }

/-- MANAGEMENT_DATAGRAM: a datagram, or a fragment of one, with a packet of any opcode; the header is in network byte order (R52). -/
def execManagementDatagram (peer : Nat) (frag : MgmtFrag) (s : State) : Host.Outcome State Fault Refusal :=
  .next (icpWake (fragArrive peer frag s))

/-- MCTP_MESSAGE: a packet of any opcode of an MCTP endpoint, in a message of type 0x7E and vendor 0x1F6D (R65). -/
def execMctpMessage (eid : Nat) (msg : MctpMsg) (s : State) : Host.Outcome State Fault Refusal :=
  let pkt := icpPkt false msg.slot
  .next (if msg.type = 0x7E ∧ msg.vendor = 0x1F6D then icpRow pkt.opcode (.mctp eid) pkt s else icpWake s)

/-- Every command fetched before the pause is answered, but for the activation itself, what waits behind it on its own transport (R86), and an
adoption, which goes on afterwards (R676). -/
def fetchedDone (a : Activation) (s : State) : Bool :=
  s.icp.waits.all (fun w => w.kind == .activate || w.kind == .adopt || (w.kind == .barrier && w.via == a.via)) && s.icp.behind.all (fun b => b.1 == a.via)

/-- LIVE_ACTIVATION_RESUME: the commands fetched before the pause are answered, the new firmware runs, and fetching resumes. -/
def execLiveActivationResume (s : State) : Host.Outcome State Fault Refusal :=
  .next (match s.boot.act with
    | some a => if a.mode = 2 ∧ !a.deferred ∧ s.icp.paused ∧ fetchedDone a s then icpWake (liveResume a s) else s
    | none => s)

end Sys2Proof.Machine
end

