-- ==== Sys2Proof/Machine/CsrCmds.lean ====
section
/-! DEFINITION. Register accesses: writes of CSR space and of the function register area, accesses through the BAR0 windows, and accesses to nothing (R12 to R14, R28 to R30, R58, R397, R398). -/

namespace Sys2Proof.Machine

open Sys2Proof

/-! ### Registers of a block whose writes act -/

/-- Header registers (R621). -/
def writeHeader (b rel v : Nat) (s : State) : State :=
  let h := errOf s b
  match rel with
  | 0x1C => setErr b { h with corSilent := v.testBit 0 } s
  | 0x24 => setErr b { h with ms := clampN 1 10000 (bits v 0 14) } s
  | 0x28 =>
    let s := if v.testBit 0 then ackErr b (bits v 24 4) s else s
    if v.testBit 1 then clearErr b s else s
  | _ => s

/-- Counter registers (R637). -/
def writePerf (b rel v : Nat) (s : State) : State :=
  let n := (rel - 0x200) / 16
  let c := perfOf s b n
  match rel % 16 with
  | 0 => setPerfCtr b n (selectPerf c v) s
  | 4 => setPerfCtr b n { c with thresh := clampN 0 ((eventMax b c.event c.unit).getD 0) v } s
  | 8 => setPerfCtr b n { c with count := c.count / 2 ^ 32 * 2 ^ 32 + v % 2 ^ 32 } s
  | 12 => setPerfCtr b n { c with count := v % 2 ^ 16 * 2 ^ 32 + c.count % 2 ^ 32 } s
  | _ => s

/-- The level a GPIO ball is driven to; none: it is no output. -/
def gpioDrive (s : State) (g : Nat) : Option Bool :=
  match gpioMode s g with
  | 1 => some ((cell s blkGlobal 0x15C).testBit g)
  | 2 => some ((cell s blkGlobal 0x15C).testBit g)
  | _ => none

/-- GPIO balls whose drive has changed take their new level (R725). -/
def driveGpio (before s : State) : State :=
  (List.range 16).foldl (fun s g => match gpioDrive s g with
    | some l => if gpioDrive before g = some l then s else emit (.pin (.gpio g) l) s
    | none => s) s

/-- A block's own registers. -/
def writeOwn (who : Requester) (b rel v : Nat) (s : State) : State :=
  if b = blkGlobal ∧ rel = 0x108 then startCtl who v s
  else if 2 ≤ b ∧ b ≤ 18 ∧ rel = 0x11C then (if v % 2 ^ 17 = 0 then s else clSpareReq who (b - 2) (v % 2 ^ 17) s)
  else if 19 ≤ b ∧ b ≤ 24 ∧ rel = 0x110 then mcFenceReq who (b - 19) (v % 2 ^ 16) s
  else if b = blkCourse ∧ rel = 0x128 then ceAbortReq who v s
  else if b = blkCipher ∧ rel = 0x108 then cxAlarmClear who v s
  else match storedWrite s b rel v with
    | some x => if b = blkGlobal then driveGpio s (setCell b rel x s) else setCell b rel x s
    | none => s

/-- A write of 32 bits at an offset of CSR space: ignored where no register takes it, counted where no block lies there or the requester
may not write it (R29, R30, R136, R197, R343, R617, R648, R681, R726). -/
def csrPut (who : Requester) (off v : Nat) (s : State) : State :=
  match blkOf off with
  | none => countUnmapped off s
  | some (b, rel) =>
    if b = blkPower ∧ who ≠ .steward then countUnmapped off s
    else if guarded b rel && !trusted who then countUnmapped off s
    else if rel < 0x40 then writeHeader b rel v s
    else if 0x200 ≤ rel ∧ rel < 0x280 then writePerf b rel v s
    else writeOwn who b rel v s

/-! ### The function register area (R58, R59, R394, R397) -/

/-- A ring register as it reads. -/
def ringReg (s : State) (fn off : Nat) : Nat :=
  let r := ringOf s fn
  match off with
  | 0x00 => r.cmdBase % 2 ^ 32
  | 0x04 => r.cmdBase / 2 ^ 32
  | 0x08 => r.rplBase % 2 ^ 32
  | 0x0C => r.rplBase / 2 ^ 32
  | 0x10 => bit r.enable * 2 ^ 31 + bit r.irqEn * 2 ^ 16 + r.rplLog2 * 2 ^ 8 + r.cmdLog2
  | 0x14 => r.cmdHead % 2 ^ 16 * 2 ^ 16 + bit r.ringErr * 16 + bit r.dbErr * 8 + bit s.icp.paused * 4 + bit (footing s) * 2 + bit r.ready
  | _ => 0

/-- One half of a ring base address; addresses are 4 KiB aligned. -/
def lowHalf (old v : Nat) : Nat := old / 2 ^ 32 * 2 ^ 32 + v / 2 ^ 12 * 2 ^ 12
def highHalf (old v : Nat) : Nat := v * 2 ^ 32 + old % 2 ^ 32

/-- A ring register is written. Bases and LOG2 fields keep their values while ENABLE is 1. -/
def ringWrite (fn off v : Nat) (s : State) : State :=
  let r := ringOf s fn
  match off with
  | 0x00 => if r.enable then s else setRing fn { r with cmdBase := lowHalf r.cmdBase v } s
  | 0x04 => if r.enable then s else setRing fn { r with cmdBase := highHalf r.cmdBase v } s
  | 0x08 => if r.enable then s else setRing fn { r with rplBase := lowHalf r.rplBase v } s
  | 0x0C => if r.enable then s else setRing fn { r with rplBase := highHalf r.rplBase v } s
  | 0x10 =>
    let r := if r.enable then r else { r with rplLog2 := clampN 4 12 (bits v 8 4), cmdLog2 := clampN 4 12 (bits v 0 4) }
    ringEnable fn (v.testBit 31) (setRing fn { r with irqEn := v.testBit 16 } s)
  | 0x14 => setRing fn { r with ringErr := r.ringErr && !v.testBit 4, dbErr := r.dbErr && !v.testBit 3 } s
  | _ => s

/-- WIN_XLAT of a window: ENABLE in bit 31, BASE in bits 5 to 0. -/
def winXlat (s : State) (hp n : Nat) : Nat := (lookD s.ports.winXlat (hp * 16 + n) (BitVec.ofNat 32 n)).toNat

def setWinXlat (hp n v : Nat) (s : State) : State :=
  s.setPorts { s.ports with winXlat := put s.ports.winXlat (hp * 16 + n) (BitVec.ofNat 32 (v / 2 ^ 31 % 2 * 2 ^ 31 + v % 64)) }

/-- The function register area of PF0. -/
def areaRead (s : State) (hp off : Nat) : Nat :=
  if off < 0x100 then ringReg s (pfId hp 0) off
  else if off < 0x140 then winXlat s hp ((off - 0x100) / 4)
  else if 0x8000 ≤ off ∧ off < 0x10000 then aptOf s hp ((off - 0x8000) / 8) / 2 ^ (8 * (off % 8)) % 2 ^ 32
  else if 0x10000 ≤ off ∧ off < 0x18000 then msixWord s (pfId hp 0) ((off - 0x10000) / 4)
  else if 0x18000 ≤ off ∧ off < 0x18100 then pendingWord s (pfId hp 0) ((off - 0x18000) / 4)
  else 0

def areaWrite (hp off v : Nat) (s : State) : State :=
  if off < 0x100 then icpWake (ringWrite (pfId hp 0) off v s)
  else if off < 0x140 then setWinXlat hp ((off - 0x100) / 4) v s
  else if 0x8000 ≤ off ∧ off < 0x10000 then
    let p := (off - 0x8000) / 8
    let old := aptOf s hp p
    setApt hp p (if off % 8 = 0 then old / 2 ^ 32 * 2 ^ 32 + v % 2 ^ 32 else v % 2 ^ 32 * 2 ^ 32 + old % 2 ^ 32) s
  else if 0x10000 ≤ off ∧ off < 0x18000 then msixWrite (pfId hp 0) ((off - 0x10000) / 4) v s
  else s

/-! ### The rows -/

/-- CSR_WRITE: a write of 32 bits to a register of CSR space, of a function's rings, of the window translation of a PF0, of the configuration space of a
function, of its MSI-X table, or of the ACS control of a downstream bridge. -/
def execCsrWrite (who : Requester) (target : RegTarget) (value : CsrWord) (s : State) : Host.Outcome State Fault Refusal :=
  .next (match target with
    | .csr off => csrPut who (off / 4 * 4) value.toNat s
    | .ring fn off => if isAccel fn || !ringThere s fn then s else icpWake (ringWrite fn off value.toNat s)
    | .winXlat hp n => if 1 < hp ∨ 15 < n ∨ functionServed s (pfId hp 0) = false ∨ (fnD s (pfId hp 0)).dstate ≠ .d0 then s else setWinXlat hp n value.toNat s
    | .config fn off => if (fnOf s fn).isNone then s else if !configServed s fn then configRetry fn s else configWrite fn (off / 4 * 4) value.toNat s
    | .acs ep => if (pbOf s (ep / 4)).role = 2 ∧ ep < 80 then acsWrite ep value.toNat s else s
    | .msix fn w => if isAccel fn || !ringThere s fn then s else msixWrite fn w value.toNat s)

/-- A read or write of `width` bytes at an offset of BAR0 of a host port's PF0. -/
def execWindowAccess (hostPort offset width : Nat) (write : Option Nat) (s : State) : Host.Outcome State Fault Refusal :=
  let n := offset / 0x400000
  let word := offset / 4 * 4
  let x := winXlat s hostPort n
  let csr := x % 64 * 0x400000 + word % 0x400000
  -- a read returns its word in the lowest four bytes of the access
  let answer := fun (v : Nat) => emit (.readData ((leBytes 4 (v / 2 ^ (8 * (offset % 4))) ++ List.replicate width 0).take width) false)
  .next (if 1 < hostPort ∨ 15 < n ∨ (fnD s (pfId hostPort 0)).dstate ≠ .d0 then s
    else if !(running s || (footing s && decide (offset < 0x20000))) then unserved hostPort write.isNone s
    else if n = 0 ∧ offset < 0x20000 then
      (match write with
       | none =>
         if 8 ≤ width ∧ offset % 8 = 0 ∧ 0x8000 ≤ offset ∧ offset < 0x10000 then
           emit (.readData ((leBytes 8 (aptOf s hostPort ((offset - 0x8000) / 8)) ++ List.replicate width 0).take width) false) s
         else answer (areaRead s hostPort word) s
       | some v =>
         if width < 4 then s
         else if 8 ≤ width ∧ offset % 8 = 0 ∧ 0x8000 ≤ offset ∧ offset < 0x10000 then setApt hostPort ((offset - 0x8000) / 8) (v % 2 ^ 64) s
         else areaWrite hostPort word (v % 2 ^ 32) s)
    else if x < 2 ^ 31 then
      (match write with
       | none => answer 0 (countUnmapped csr s)
       | some _ => countUnmapped csr s)
    else match write with
      | none => answer (csrRead s csr) (csrReadCount csr s)
      | some v => if width < 4 then s else csrPut (.host hostPort) csr (v % 2 ^ 32) s)

/-- A DPA that no region shows at present; the scratch region shows logical clusters only (R100, R101). -/
def dpaUnmapped (s : State) (dpa : Nat) : Bool :=
  match regionOf s dpa with
  | .unmapped => true
  | .scratch => (physCluster s ((dpa - scratchBase) / 0x400000)).isNone
  | _ => false

/-- A debugger on JTAG reads the SRAMs where full debug is on, a word marked bad as a data error (R142); the vault is denied to it like to every other requester (R143, R574, R589). -/
def jtagReads (s : State) (dpa : Nat) : Bool := s.sec.jtag == 2 && regionOf s dpa == .scratch && !dpaUnmapped s dpa

/-- A byte of the scratch set aside with population 00: the policy log in 2 MiB, a record at its number's place, the dump in 6 MiB and the state that
live activation saves in 8 MiB, in that order (R106; DESIGN CHOICE: log 210). The layout is a DESIGN CHOICE (log 210). -/
def asideByte (s : State) (o : Nat) : Byte :=
  if o < 0x200000 then
    (match s.tel.plog.find? (fun r => r.seq % 65536 == o / 32) with | some r => r.bytes.getD (o % 32) 0 | none => 0)
  else if o < 0x800000 then ((s.tel.dump.map (·.bytes)).getD []).getD (o - 0x200000) 0
  else Config.stewardByte (o - 0x800000)

/-- Scratch as a debugger reads it. -/
def scratchRead (s : State) (a n : Nat) : Bytes :=
  if s.mem.hotTotal = 0 ∧ scratchDpa 12 ≤ a ∧ a + n ≤ scratchDpa 16 then (List.range n).map (fun i => asideByte s (a + i - scratchDpa 12))
  else readMem a n s

/-- The requester as ERR_INFO0 names it: PF0 of a host port, or 0xFFFF (log 178). -/
def vaultRequester : Requester → Nat
  | .host hp => pfId hp 0
  | _ => 0xFFFF

/-- UNMAPPED_ACCESS: an offset of CSR space that no block occupies, or a DPA that is not mapped (R29, R101), or one of the vault (R143). -/
def execUnmappedAccess (access : AccessBy) (isCsr isWrite : Bool) (s : State) : Host.Outcome State Fault Refusal :=
  let who := access.who
  let addr := access.addr
  .next (if isCsr then
      (if (blkOf addr).isSome then s
       else if isWrite then countUnmapped addr s else emit (.readData [0, 0, 0, 0] false) (countUnmapped addr s))
    else if regionOf s addr == .vault then
      (if who = .steward then s
       else if isWrite then vaultDenied (vaultRequester who) s
       else emit (.readData [0, 0, 0, 0] false) (vaultDenied (vaultRequester who) s))
    else if who = .jtag && !isWrite && jtagReads s addr then emit (.readData (scratchRead s addr 4) (badScratch s addr 4)) s
    else if dpaUnmapped s addr then emit (.addressError addr) (countUnmapped addr s) else s)

end Sys2Proof.Machine
end

