-- ==== Sys2Proof/Machine/Isolation.lean ====
section
/-! DEFINITION. Isolation of a block (R626, R628): the work that it had admitted fails at its requesters, and the block returns to service after its CLEAR. -/

namespace Sys2Proof.Machine

open Sys2Proof

/-! ### Admitted work, by block -/

/-- Steward mailboxes: commands that wait short of their commit point are answered FAILED with detail BLOCK_ISOLATED (R728; log 206). -/
def failCommands (s : State) : State :=
  livePause (resumeIntake ((s.icp.waits.filter (fun w => w.kind == .barrier || w.kind == .drain)).foldl (fun s w =>
    finishWait w stFailed dtIsolated [] (match commitOf s w.via .drain with
      | some (x, k) => if x == w then endCommit k.owner s else s
      | none => s)) s))

/-- Every admitted descriptor of a queue pair completes with status ISOLATED. -/
def failQueue (n : Nat) (s : State) : State :=
  let q := cqpD s n
  (q.waiting.map (·.1) ++ q.running.map (·.seq)).foldl (fun s seq => failDesc n seq csIsolated 0 s) s

/-- The table service: every admitted descriptor, and every index served here for another device. -/
def failTable (s : State) : State :=
  let s := s.tab.cqps.foldl (fun s e => failQueue e.1 s) s
  let fwd := s.tab.fwd
  let s := dropJobs (fun j => match j.origin with | .forwarded _ _ => true | _ => false) (s.setTab { s.tab with fwd := [] })
  settle (fwd.foldl (fun s x => sendDomain x.dev (.indexResult x.token csIsolated 0 []) s) s)

/-- A cluster holds a job: a thread of the job runs there, or every cluster that its kernel was granted is isolated. -/
def clusterHolds (p : Nat) (j : Job) (s : State) : Bool :=
  s.mason.threads.any (fun e => e.2.job == j.id && (physOf s e.1).any (fun x => x.1 == p))
    || (!(kernelClusters s j.kernel).isEmpty && (kernelClusters s j.kernel).all (fun c =>
          match physCluster s c with | some (q, _) => isolated s (blkCluster q) | none => false))

/-- A job ends at its requester with status ISOLATED: its descriptor, the index it ran for, or the device that forwarded the index. -/
def failJob (j : Job) (s : State) : State :=
  match j.origin with
  | .desc n seq => failDesc n seq csIsolated 0 s
  | .row n seq k => gotIndex n seq k csIsolated 0 [] (dropJobs (fun x => x.id == j.id) s)
  | .forwarded dev token =>
    let mine := fun (x : FwdWait) => x.dev == dev && x.token == token
    let s := dropJobs (fun x => x.id == j.id) s
    sendDomain dev (.indexResult token csIsolated 0 []) (s.setTab { s.tab with fwd := dropFirst mine s.tab.fwd })

/-- A cluster: the jobs that it holds. -/
def failCluster (p : Nat) (s : State) : State :=
  settle ((s.mason.jobs.filter (fun j => clusterHolds p j s)).foldl (fun s j => failJob j s) s)

/-- The storage service: every command in progress completes with Internal Error. -/
def failStorage (s : State) : State := settle (stoSettle (s.sto.ops.foldl (fun s o => endOp o nvInternal [] s) s))

/-- The transport: every message and every parked request completes with BAD_ADDRESS, the messages in MSN order (R554, R728). -/
def failTransport (s : State) : State :=
  let s := s.grt.conns.foldl (fun s e => markDone e.1 (fun _ => true) 3 s) s
  s.grt.wqs.foldl (fun s e => match wqOf s e.1 with
    | none => s
    | some q => q.parked.foldl (fun s x => endReq e.1 x.1.conn x.1 3 s) (setWq e.1 { q with parked := [] } s)) s

/-- A frame that an isolated Ethernet port held: the NIC's ends with LINK_DOWN, a forwarded one is counted as a drop, and one of a connection is
left to retransmission. -/
def failFrame (sub : Nat) (f : EgFrame) (s : State) : State :=
  match f.src with
  | .nic fn gen qp i irq => txDone fn gen qp i irq 1 s
  | .forward => bumpEn sub 0x130 s
  | .grt _ => s

/-- An Ethernet port: the frames of its egress queues. -/
def failPort (n : Nat) (s : State) : State :=
  (List.range 4).foldl (fun s k =>
    let sub := 4 * n + k
    if (enOf s n).subs.length ≤ k then s else
    (subOf s sub).queues.flatten.foldl (fun s f => failFrame sub f s) (updSub sub (fun x => { x with queues := x.queues.map (fun _ => []) }) s)) s

/-- The work that a block admitted and still holds fails at its requesters; work that depends on the block fails where it meets it (R626, R628). The
other blocks hold no work of a requester. -/
def failAdmitted (b : Nat) (s : State) : State :=
  if b = blkSteward then failCommands s
  else if 2 ≤ b ∧ b ≤ 18 then failCluster (b - 2) s
  else if b = blkTable then failTable s
  else if b = blkCourse then (if courseLive s then settle (abortCourse dtIsolated s) else s)
  else if b = blkStorage then failStorage s
  else if b = blkTransport then failTransport s
  else if 53 ≤ b ∧ b ≤ 60 then failPort (b - 53) s
  else s

/-! ### The rows -/

/-- An isolated block whose CLEAR was accepted returns to service, what it still held discarded (R628). -/
def execIsolatedBlockReturn (block : Nat) (s : State) : Host.Outcome State Fault Refusal :=
  let h := errOf s block
  .next (if h.isolated && h.returning then
           failAdmitted block (releaseFault (faultAsserted s) (setErr block { h with isolated := false, returning := false } s))
         else s)

/-- The escalation timer of a block expires: a CON isolates the block, and its admitted work fails; a COR is reported (R626, R619). -/
def execEscalationTimerExpiry (block : Nat) (s : State) : Host.Outcome State Fault Refusal :=
  let h := errOf s block
  .next (if h.running then
           (let s := bump blkTelem 0x13C (setErr block
              { h with running := false, escalated := true, escTime := stamp s block,
                       isolated := h.isolated || h.cls == 2, returning := false } s)
            if h.cls ≠ 2 then s
            else failAdmitted block (if block = blkPower then driveAlert (alertAsserted s) (takeFallback s) else s))
         else s)

end Sys2Proof.Machine
end

