-- ==== Sys2Proof/Machine/Lendel.lean ====
section
/-! DEFINITION. The scalar, memory, branch, atomic, mask and string instructions of the Lendel set (R207, R210 to R229). -/

namespace Sys2Proof.Machine

open Sys2Proof

abbrev Ran := Host.Outcome State Fault Refusal

/-! ### Scalar arithmetic -/

/-- rd = rs1 op rs2. -/
def rr (th : Nat) (rd rs1 rs2 : Fin 32) (op : SReg → SReg → SReg) (s : State) : State :=
  pureOp th 4 (fun t => setS rd (op (getS t rs1) (getS t rs2)) t) s

/-- rd = rs1 op immediate. -/
def rk (th : Nat) (rd rs1 : Fin 32) (v : SReg) (op : SReg → SReg → SReg) (s : State) : State :=
  pureOp th 4 (fun t => setS rd (op (getS t rs1) v) t) s

def imm12 (v : BitVec 12) : SReg := v.signExtend 64
def flag64 (b : Bool) : SReg := if b then 1 else 0
/-- A shift amount: the low 6 bits. -/
def shamt (v : SReg) : Nat := v.toNat % 64

/-- Quotient and remainder under R202. -/
def quotS (a b : SReg) : SReg :=
  if b = 0 then (if a.slt 0 then BitVec.intMin 64 else BitVec.intMax 64) else a.sdiv b
def quotU (a b : SReg) : SReg := if b = 0 then BitVec.allOnes 64 else a.udiv b
def remS (a b : SReg) : SReg := if b = 0 then a else a.srem b
def remU (a b : SReg) : SReg := if b = 0 then a else a.umod b

/-- The upper half of a product, signed and unsigned. -/
def hiS (a b : SReg) : SReg := BitVec.ofInt 64 (a.toInt * b.toInt / 2 ^ 64)
def hiU (a b : SReg) : SReg := BitVec.ofNat 64 (a.toNat * b.toNat / 2 ^ 64)

def execAdd (th : Nat) (rd rs1 rs2 : Fin 32) (s : State) : Ran := .next (rr th rd rs1 rs2 (· + ·) s)
def execSub (th : Nat) (rd rs1 rs2 : Fin 32) (s : State) : Ran := .next (rr th rd rs1 rs2 (· - ·) s)
def execAnd (th : Nat) (rd rs1 rs2 : Fin 32) (s : State) : Ran := .next (rr th rd rs1 rs2 (· &&& ·) s)
def execOr (th : Nat) (rd rs1 rs2 : Fin 32) (s : State) : Ran := .next (rr th rd rs1 rs2 (· ||| ·) s)
def execXor (th : Nat) (rd rs1 rs2 : Fin 32) (s : State) : Ran := .next (rr th rd rs1 rs2 (· ^^^ ·) s)
def execShl (th : Nat) (rd rs1 rs2 : Fin 32) (s : State) : Ran := .next (rr th rd rs1 rs2 (fun a b => a <<< shamt b) s)
def execShr (th : Nat) (rd rs1 rs2 : Fin 32) (s : State) : Ran := .next (rr th rd rs1 rs2 (fun a b => a >>> shamt b) s)
def execSar (th : Nat) (rd rs1 rs2 : Fin 32) (s : State) : Ran := .next (rr th rd rs1 rs2 (fun a b => a.sshiftRight (shamt b)) s)
def execSetlt (th : Nat) (rd rs1 rs2 : Fin 32) (s : State) : Ran := .next (rr th rd rs1 rs2 (fun a b => flag64 (a.slt b)) s)
def execSetltu (th : Nat) (rd rs1 rs2 : Fin 32) (s : State) : Ran := .next (rr th rd rs1 rs2 (fun a b => flag64 (a.ult b)) s)
def execMin (th : Nat) (rd rs1 rs2 : Fin 32) (s : State) : Ran := .next (rr th rd rs1 rs2 (fun a b => if b.slt a then b else a) s)
def execMax (th : Nat) (rd rs1 rs2 : Fin 32) (s : State) : Ran := .next (rr th rd rs1 rs2 (fun a b => if a.slt b then b else a) s)
def execMinu (th : Nat) (rd rs1 rs2 : Fin 32) (s : State) : Ran := .next (rr th rd rs1 rs2 (fun a b => if b.ult a then b else a) s)
def execMaxu (th : Nat) (rd rs1 rs2 : Fin 32) (s : State) : Ran := .next (rr th rd rs1 rs2 (fun a b => if a.ult b then b else a) s)
def execMul (th : Nat) (rd rs1 rs2 : Fin 32) (s : State) : Ran := .next (rr th rd rs1 rs2 (· * ·) s)
def execMulhs (th : Nat) (rd rs1 rs2 : Fin 32) (s : State) : Ran := .next (rr th rd rs1 rs2 hiS s)
def execMulhu (th : Nat) (rd rs1 rs2 : Fin 32) (s : State) : Ran := .next (rr th rd rs1 rs2 hiU s)
def execDivs (th : Nat) (rd rs1 rs2 : Fin 32) (s : State) : Ran := .next (rr th rd rs1 rs2 quotS s)
def execDivu (th : Nat) (rd rs1 rs2 : Fin 32) (s : State) : Ran := .next (rr th rd rs1 rs2 quotU s)
def execRems (th : Nat) (rd rs1 rs2 : Fin 32) (s : State) : Ran := .next (rr th rd rs1 rs2 remS s)
def execRemu (th : Nat) (rd rs1 rs2 : Fin 32) (s : State) : Ran := .next (rr th rd rs1 rs2 remU s)

def execAddk (th : Nat) (rd rs1 : Fin 32) (imm : BitVec 12) (s : State) : Ran := .next (rk th rd rs1 (imm12 imm) (· + ·) s)
def execAndk (th : Nat) (rd rs1 : Fin 32) (imm : BitVec 12) (s : State) : Ran := .next (rk th rd rs1 (imm12 imm) (· &&& ·) s)
def execOrk (th : Nat) (rd rs1 : Fin 32) (imm : BitVec 12) (s : State) : Ran := .next (rk th rd rs1 (imm12 imm) (· ||| ·) s)
def execXork (th : Nat) (rd rs1 : Fin 32) (imm : BitVec 12) (s : State) : Ran := .next (rk th rd rs1 (imm12 imm) (· ^^^ ·) s)
def execSetltk (th : Nat) (rd rs1 : Fin 32) (imm : BitVec 12) (s : State) : Ran :=
  .next (rk th rd rs1 (imm12 imm) (fun a b => flag64 (a.slt b)) s)
def execSetltuk (th : Nat) (rd rs1 : Fin 32) (imm : BitVec 12) (s : State) : Ran :=
  .next (rk th rd rs1 (imm12 imm) (fun a b => flag64 (a.ult b)) s)
def execShlk (th : Nat) (rd rs1 : Fin 32) (sh : BitVec 6) (s : State) : Ran := .next (rk th rd rs1 0 (fun a _ => a <<< sh.toNat) s)
def execShrk (th : Nat) (rd rs1 : Fin 32) (sh : BitVec 6) (s : State) : Ran := .next (rk th rd rs1 0 (fun a _ => a >>> sh.toNat) s)
def execSark (th : Nat) (rd rs1 : Fin 32) (sh : BitVec 6) (s : State) : Ran :=
  .next (rk th rd rs1 0 (fun a _ => a.sshiftRight sh.toNat) s)
def execLdi (th : Nat) (rd : Fin 32) (imm : BitVec 20) (s : State) : Ran := .next (pureOp th 4 (setS rd (imm.signExtend 64)) s)
def execLdis (th : Nat) (rd : Fin 32) (imm : BitVec 20) (s : State) : Ran :=
  .next (pureOp th 4 (fun t => setS rd ((getS t rd <<< 20) ||| imm.zeroExtend 64) t) s)

/-! ### Short forms (R207) -/

def execQMv (th : Nat) (rd rs : Fin 32) (s : State) : Ran := .next (pureOp th 2 (fun t => setS rd (getS t rs) t) s)
def execQAdd (th : Nat) (rd rs : Fin 32) (s : State) : Ran := .next (pureOp th 2 (fun t => setS rd (getS t rd + getS t rs) t) s)
def execQSub (th : Nat) (rd rs : Fin 32) (s : State) : Ran := .next (pureOp th 2 (fun t => setS rd (getS t rd - getS t rs) t) s)
def execQLdk (th : Nat) (rd : Fin 32) (imm : BitVec 6) (s : State) : Ran := .next (pureOp th 2 (setS rd (imm.signExtend 64)) s)
def execQAddk (th : Nat) (rd : Fin 32) (imm : BitVec 6) (s : State) : Ran :=
  .next (pureOp th 2 (fun t => setS rd (getS t rd + imm.signExtend 64) t) s)
def execQShlk (th : Nat) (rd : Fin 32) (imm : BitVec 6) (s : State) : Ran :=
  .next (pureOp th 2 (fun t => setS rd (getS t rd <<< imm.toNat) t) s)
def execQNop (th : Nat) (s : State) : Ran := .next (pureOp th 2 id s)

/-! ### Loads and stores -/

/-- A load of `n` bytes at an address into a register, widened by `ext`. -/
def loadTo (th len : Nat) (rd : Fin 32) (n : Nat) (addr : Thread → SReg) (ext : Nat → SReg) (io : MemIo) (s : State) : State :=
  issue th len (fun c s =>
    match loadMem c (addr c.t) n io.data io.failAt.isSome (memFaults c io s) with
    | .ok bs s => .next (setS rd (ext (leVal bs)) c.t) s
    | .fault k s => .fault k s
    | .wait s => .keep c.t s) s

/-- A store of `n` bytes of a register. -/
def storeFrom (th len : Nat) (rs : Fin 32) (n : Nat) (addr : Thread → SReg) (io : MemIo) (s : State) : State :=
  issue th len (fun c s =>
    match storeMem c (addr c.t) (leBytes n (getS c.t rs).toNat) io.failAt.isSome (storeFaults c io (addr c.t) n 1 s) with
    | .ok _ s => .next c.t s
    | .fault k s => .fault k s
    | .wait s => .keep c.t s) s

def sx (w : Nat) (v : Nat) : SReg := (BitVec.ofNat w v).signExtend 64
def zx (v : Nat) : SReg := BitVec.ofNat 64 v
def based (rs1 : Fin 32) (imm : BitVec 12) (t : Thread) : SReg := getS t rs1 + imm12 imm

def execLdB (th : Nat) (rd rs1 : Fin 32) (imm : BitVec 12) (io : MemIo) (s : State) : Ran := .next (loadTo th 4 rd 1 (based rs1 imm) (sx 8) io s)
def execLdH (th : Nat) (rd rs1 : Fin 32) (imm : BitVec 12) (io : MemIo) (s : State) : Ran := .next (loadTo th 4 rd 2 (based rs1 imm) (sx 16) io s)
def execLdW (th : Nat) (rd rs1 : Fin 32) (imm : BitVec 12) (io : MemIo) (s : State) : Ran := .next (loadTo th 4 rd 4 (based rs1 imm) (sx 32) io s)
def execLdD (th : Nat) (rd rs1 : Fin 32) (imm : BitVec 12) (io : MemIo) (s : State) : Ran := .next (loadTo th 4 rd 8 (based rs1 imm) zx io s)
def execLdBu (th : Nat) (rd rs1 : Fin 32) (imm : BitVec 12) (io : MemIo) (s : State) : Ran := .next (loadTo th 4 rd 1 (based rs1 imm) zx io s)
def execLdHu (th : Nat) (rd rs1 : Fin 32) (imm : BitVec 12) (io : MemIo) (s : State) : Ran := .next (loadTo th 4 rd 2 (based rs1 imm) zx io s)
def execLdWu (th : Nat) (rd rs1 : Fin 32) (imm : BitVec 12) (io : MemIo) (s : State) : Ran := .next (loadTo th 4 rd 4 (based rs1 imm) zx io s)
def execStB (th : Nat) (rs2 rs1 : Fin 32) (imm : BitVec 12) (io : MemIo) (s : State) : Ran := .next (storeFrom th 4 rs2 1 (based rs1 imm) io s)
def execStH (th : Nat) (rs2 rs1 : Fin 32) (imm : BitVec 12) (io : MemIo) (s : State) : Ran := .next (storeFrom th 4 rs2 2 (based rs1 imm) io s)
def execStW (th : Nat) (rs2 rs1 : Fin 32) (imm : BitVec 12) (io : MemIo) (s : State) : Ran := .next (storeFrom th 4 rs2 4 (based rs1 imm) io s)
def execStD (th : Nat) (rs2 rs1 : Fin 32) (imm : BitVec 12) (io : MemIo) (s : State) : Ran := .next (storeFrom th 4 rs2 8 (based rs1 imm) io s)

def shortBase (rb : Fin 8) (off : BitVec 5) (scale : Nat) (t : Thread) : SReg := getS t (primed rb) + BitVec.ofNat 64 (off.toNat * scale)

def execQLdD (th : Nat) (rd rb : Fin 8) (off : BitVec 5) (io : MemIo) (s : State) : Ran := .next (loadTo th 2 (primed rd) 8 (shortBase rb off 8) zx io s)
def execQLdW (th : Nat) (rd rb : Fin 8) (off : BitVec 5) (io : MemIo) (s : State) : Ran := .next (loadTo th 2 (primed rd) 4 (shortBase rb off 4) (sx 32) io s)
def execQStD (th : Nat) (rs rb : Fin 8) (off : BitVec 5) (io : MemIo) (s : State) : Ran := .next (storeFrom th 2 (primed rs) 8 (shortBase rb off 8) io s)
def execQStW (th : Nat) (rs rb : Fin 8) (off : BitVec 5) (io : MemIo) (s : State) : Ran := .next (storeFrom th 2 (primed rs) 4 (shortBase rb off 4) io s)

/-! ### Branches and jumps (R213 to R215) -/

/-- A branch by a number of halfwords from its own address, taken where a test holds. -/
def branch (th len : Nat) (off : SReg) (test : Thread → Bool) (s : State) : State :=
  issue th len (fun c s => if test c.t then .jump c.t (c.t.pc + (off <<< 1)) s else .next c.t s) s

def br (th : Nat) (rs1 rs2 : Fin 32) (off : BitVec 12) (test : SReg → SReg → Bool) (s : State) : State :=
  branch th 4 (off.signExtend 64) (fun t => test (getS t rs1) (getS t rs2)) s

def execBeq (th : Nat) (rs1 rs2 : Fin 32) (off : BitVec 12) (s : State) : Ran := .next (br th rs1 rs2 off (fun a b => a == b) s)
def execBne (th : Nat) (rs1 rs2 : Fin 32) (off : BitVec 12) (s : State) : Ran := .next (br th rs1 rs2 off (fun a b => a != b) s)
def execBlt (th : Nat) (rs1 rs2 : Fin 32) (off : BitVec 12) (s : State) : Ran := .next (br th rs1 rs2 off (fun a b => a.slt b) s)
def execBge (th : Nat) (rs1 rs2 : Fin 32) (off : BitVec 12) (s : State) : Ran := .next (br th rs1 rs2 off (fun a b => !a.slt b) s)
def execBltu (th : Nat) (rs1 rs2 : Fin 32) (off : BitVec 12) (s : State) : Ran := .next (br th rs1 rs2 off (fun a b => a.ult b) s)
def execBgeu (th : Nat) (rs1 rs2 : Fin 32) (off : BitVec 12) (s : State) : Ran := .next (br th rs1 rs2 off (fun a b => !a.ult b) s)
def execBeqz (th : Nat) (rs1 : Fin 32) (off : BitVec 17) (s : State) : Ran := .next (branch th 4 (off.signExtend 64) (fun t => getS t rs1 == 0) s)
def execBnez (th : Nat) (rs1 : Fin 32) (off : BitVec 17) (s : State) : Ran := .next (branch th 4 (off.signExtend 64) (fun t => getS t rs1 != 0) s)
def execBany (th : Nat) (mask : Fin 8) (off : BitVec 17) (s : State) : Ran := .next (branch th 4 (off.signExtend 64) (fun t => getM t mask != 0) s)
def execBnone (th : Nat) (mask : Fin 8) (off : BitVec 17) (s : State) : Ran := .next (branch th 4 (off.signExtend 64) (fun t => getM t mask == 0) s)
def execQBeqz (th : Nat) (rs : Fin 8) (off : BitVec 8) (s : State) : Ran := .next (branch th 2 (off.signExtend 64) (fun t => getS t (primed rs) == 0) s)
def execQBnez (th : Nat) (rs : Fin 8) (off : BitVec 8) (s : State) : Ran := .next (branch th 2 (off.signExtend 64) (fun t => getS t (primed rs) != 0) s)
def execQJmp (th : Nat) (off : BitVec 11) (s : State) : Ran := .next (branch th 2 (off.signExtend 64) (fun _ => true) s)

def execCall (th : Nat) (rd : Fin 32) (off : BitVec 20) (s : State) : Ran :=
  .next (issue th 4 (fun c s => .jump (setS rd (c.t.pc + 4) c.t) (c.t.pc + (off.signExtend 64 <<< 1)) s) s)

/-- The target is formed before rd is written; an odd one faults before the pc changes. -/
def execCallr (th : Nat) (rd rs1 : Fin 32) (imm : BitVec 12) (s : State) : Ran :=
  .next (issue th 4 (fun c s =>
    let t := getS c.t rs1 + imm12 imm
    if t.getLsbD 0 then .fault fkAlign s else .jump (setS rd (c.t.pc + 4) c.t) t s) s)

def execQJr (th : Nat) (rs : Fin 32) (s : State) : Ran :=
  .next (issue th 2 (fun c s => if (getS c.t rs).getLsbD 0 then .fault fkAlign s else .jump c.t (getS c.t rs) s) s)

/-! ### System (R157, R158, R218) -/

/-- A fence at a scope: device and external fences drop the core's L1 data lines. -/
def fenceAt (c : TCtx) (scope : Nat) (s : State) : State := if scope = 0 then s else l1Clear (coreKey c.th) s

def execFence (th : Nat) (scope : BitVec 12) (s : State) : Ran :=
  .next (issue th 4 (fun c s => orIllegal (decide (2 < scope.toNat)) s (.next c.t (fenceAt c scope.toNat s))) s)

def execHalt (th : Nat) (s : State) : Ran := .next (issue th 4 (fun c s => .halt (fenceAt c 2 s)) s)
def execQHalt (th : Nat) (s : State) : Ran := .next (issue th 2 (fun c s => .halt (fenceAt c 2 s)) s)

/-- The counter of the thread's clock island. -/
def threadTime (s : State) (th : Nat) : Nat := match physCluster s (thCluster th) with | some (p, _) => now s p | none => 0

/-- rdsr: lc, lpos, the core's cycle count (a free value: no rule gives it), or the island's counter. -/
def execRdsr (th : Nat) (rd : Fin 32) (imm : BitVec 12) (s : State) : Ran :=
  .next (issue th 4 (fun c s =>
    match imm.toNat with
    | 0 => .next (setS rd c.t.lc c.t) s
    | 1 => .next (setS rd c.t.lpos c.t) s
    | 2 => .next (setS rd (Config.freeWord s.draw) c.t) (drawn s)
    | 3 => .next (setS rd (BitVec.ofNat 64 (threadTime s th)) c.t) s
    | _ => .fault fkIllegal s) s)

/-- Bytes of the next instructions of a kernel's code from an offset on: bit 0 of the first halfword selects the form (R203). -/
def codeSpan (s : State) (k : Kernel) : Nat → Nat → Nat
  | 0, off => off
  | n + 1, off => codeSpan s k n (off + (if (memGet s.mem.cells (codeDpa k off)).getLsbD 0 then 4 else 2))

def execRpt (th : Nat) (rs1 : Fin 32) (imm : BitVec 12) (s : State) : Ran :=
  .next (issue th 4 (fun c s =>
    let n := imm.toNat + 1
    orIllegal (rs1 == 0 || decide (32 < n) || lcActive c.t.lc) s
      (if getS c.t rs1 = 0 then .keep { c.t with pc := BitVec.ofNat 64 (codeSpan s c.k n (c.t.pc.toNat + 4)) } (slotUsed false false c.th s)
       else .keep { c.t with pc := c.t.pc + 4, lc := lcOn (c.t.pc + 4) rs1 n, lpos := 0 } (slotUsed false false c.th s))) s)

/-! ### Atomics (R159 to R163, R210 to R212) -/

/-- Old value of an atomic in its destination; no rule states the upper half of a 32-bit one (log 42). -/
def oldTo (wide : Bool) (old : Nat) : SReg :=
  if wide then zx old else ((Config.freeUpper old >>> 32) <<< 32) ||| zx (old % 2 ^ 32)

/-- An atomic: `f` takes the old value, rs2 and rd, each cut to the width, and gives the value stored, if any.
Earlier accesses of a thread are performed before later ones here, which is all that release asks. -/
def atomic (th : Nat) (rd rs1 rs2 : Fin 32) (acquire _release wide narrowOnly : Bool) (io : MemIo) (f : Nat → Nat → Nat → Nat → Option Nat) (s : State) :
    State :=
  issue th 4 (fun c s =>
    let n := if wide then 8 else 4
    let cut := fun (v : SReg) => v.toNat % 2 ^ (8 * n)
    orIllegal (narrowOnly && wide) s
      (match atomicMem c (getS c.t rs1) n (fun old => (f (8 * n) (leVal old) (cut (getS c.t rs2)) (cut (getS c.t rd))).map (leBytes n))
          (storeFaults c io (getS c.t rs1) n 2 s) with
       | .ok old s =>
         .next (setS rd (oldTo wide (leVal old)) c.t) (if acquire then l1Clear (coreKey th) s else s)
       | .fault k s => .fault k s
       | .wait s => .keep c.t s)) s

/-- The lesser or greater of two values of a width. -/
def pickS (greater : Bool) (w a b : Nat) : Nat := if (sext w a < sext w b) = greater then b else a
def pickU (greater : Bool) (a b : Nat) : Nat := if decide (a < b) = greater then b else a

/-- FP32 addition, and the addition of two BF16 halves, to nearest even (R161). -/
def bfadd2 (a b : Nat) : Nat :=
  let h := fun i => encF bf16 none ((decF bf16 (bits a (16 * i) 16)).add (decF bf16 (bits b (16 * i) 16)))
  h 0 + h 1 * 2 ^ 16

def execAadd (th : Nat) (rd rs1 rs2 : Fin 32) (acquire release wide : Bool) (io : MemIo) (s : State) : Ran :=
  .next (atomic th rd rs1 rs2 acquire release wide false io (fun w old v _ => some ((old + v) % 2 ^ w)) s)
def execAmin (th : Nat) (rd rs1 rs2 : Fin 32) (acquire release wide : Bool) (io : MemIo) (s : State) : Ran :=
  .next (atomic th rd rs1 rs2 acquire release wide false io (fun w old v _ => some (pickS false w old v)) s)
def execAmax (th : Nat) (rd rs1 rs2 : Fin 32) (acquire release wide : Bool) (io : MemIo) (s : State) : Ran :=
  .next (atomic th rd rs1 rs2 acquire release wide false io (fun w old v _ => some (pickS true w old v)) s)
def execAminu (th : Nat) (rd rs1 rs2 : Fin 32) (acquire release wide : Bool) (io : MemIo) (s : State) : Ran :=
  .next (atomic th rd rs1 rs2 acquire release wide false io (fun _ old v _ => some (pickU false old v)) s)
def execAmaxu (th : Nat) (rd rs1 rs2 : Fin 32) (acquire release wide : Bool) (io : MemIo) (s : State) : Ran :=
  .next (atomic th rd rs1 rs2 acquire release wide false io (fun _ old v _ => some (pickU true old v)) s)
def execAand (th : Nat) (rd rs1 rs2 : Fin 32) (acquire release wide : Bool) (io : MemIo) (s : State) : Ran :=
  .next (atomic th rd rs1 rs2 acquire release wide false io (fun _ old v _ => some (old &&& v)) s)
def execAor (th : Nat) (rd rs1 rs2 : Fin 32) (acquire release wide : Bool) (io : MemIo) (s : State) : Ran :=
  .next (atomic th rd rs1 rs2 acquire release wide false io (fun _ old v _ => some (old ||| v)) s)
def execAxor (th : Nat) (rd rs1 rs2 : Fin 32) (acquire release wide : Bool) (io : MemIo) (s : State) : Ran :=
  .next (atomic th rd rs1 rs2 acquire release wide false io (fun _ old v _ => some (old ^^^ v)) s)
def execAswap (th : Nat) (rd rs1 rs2 : Fin 32) (acquire release wide : Bool) (io : MemIo) (s : State) : Ran :=
  .next (atomic th rd rs1 rs2 acquire release wide false io (fun _ _ v _ => some v) s)
def execAcas (th : Nat) (rd rs1 rs2 : Fin 32) (acquire release wide : Bool) (io : MemIo) (s : State) : Ran :=
  .next (atomic th rd rs1 rs2 acquire release wide false io (fun _ old v cmp => if old = cmp then some v else none) s)
def execAfadd (th : Nat) (rd rs1 rs2 : Fin 32) (acquire release wide : Bool) (io : MemIo) (s : State) : Ran :=
  .next (atomic th rd rs1 rs2 acquire release wide true io (fun _ old v _ => some (fadd old v)) s)
def execAfmin (th : Nat) (rd rs1 rs2 : Fin 32) (acquire release wide : Bool) (io : MemIo) (s : State) : Ran :=
  .next (atomic th rd rs1 rs2 acquire release wide true io (fun _ old v _ => some (fpick fp32 false old v)) s)
def execAfmax (th : Nat) (rd rs1 rs2 : Fin 32) (acquire release wide : Bool) (io : MemIo) (s : State) : Ran :=
  .next (atomic th rd rs1 rs2 acquire release wide true io (fun _ old v _ => some (fpick fp32 true old v)) s)
def execAbfadd2 (th : Nat) (rd rs1 rs2 : Fin 32) (acquire release wide : Bool) (io : MemIo) (s : State) : Ran :=
  .next (atomic th rd rs1 rs2 acquire release wide true io (fun _ old v _ => some (bfadd2 old v)) s)

/-! ### Masks -/

def maskOp (th : Nat) (md ma mb : Fin 8) (f : SReg → SReg → SReg) (s : State) : State :=
  pureOp th 4 (fun t => setM md (f (getM t ma) (getM t mb)) t) s

def execMand (th : Nat) (md ma mb : Fin 8) (s : State) : Ran := .next (maskOp th md ma mb (· &&& ·) s)
def execMor (th : Nat) (md ma mb : Fin 8) (s : State) : Ran := .next (maskOp th md ma mb (· ||| ·) s)
def execMxor (th : Nat) (md ma mb : Fin 8) (s : State) : Ran := .next (maskOp th md ma mb (· ^^^ ·) s)
def execMandn (th : Nat) (md ma mb : Fin 8) (s : State) : Ran := .next (maskOp th md ma mb (fun a b => a &&& ~~~b) s)
def execMpop (th : Nat) (rd : Fin 32) (ma : Fin 8) (s : State) : Ran :=
  .next (pureOp th 4 (fun t => setS rd (BitVec.ofNat 64 (popCount 64 (getM t ma).toNat)) t) s)
def execMfirst (th : Nat) (rd : Fin 32) (ma : Fin 8) (s : State) : Ran :=
  .next (pureOp th 4 (fun t => setS rd (BitVec.ofNat 64 ((lowest 64 (fun i => (getM t ma).getLsbD i)).getD 64)) t) s)
def execMfroms (th : Nat) (md : Fin 8) (rs1 : Fin 32) (s : State) : Ran := .next (pureOp th 4 (fun t => setM md (getS t rs1) t) s)
def execMtos (th : Nat) (rd : Fin 32) (ma : Fin 8) (s : State) : Ran := .next (pureOp th 4 (fun t => setS rd (getM t ma) t) s)

/-! ### Strings and gather (R223 to R229) -/

/-- Registers of a string instruction are different, and none is s0. -/
def regsBad (rs : List (Fin 32)) : Bool := rs.contains 0 || !decide rs.Nodup

def bump64 (r : Fin 32) (n : Nat) (t : Thread) : Thread := setS r (getS t r + BitVec.ofNat 64 n) t
def countDown (r : Fin 32) (t : Thread) : Thread := setS r (getS t r - 1) t

/-- The i-th access through a window of client memory fails at its port. -/
def ioFails (io : MemIo) (i : Nat) : Bool := io.failAt == some i
/-- The i-th run of `n` bytes that client memory returns. -/
def ioPart (io : MemIo) (i n : Nat) : Bytes := (io.data.drop (i * n)).take n

/-- movs, element by element. -/
def movsLoop (c : TCtx) (e : Nat) (rc r1 r0 : Fin 32) (io : MemIo) : Nat → Nat → Thread → State → Flow
  | 0, _, t, s => .next t s
  | n + 1, i, t, s =>
    match loadMem c (getS t r1) e (ioPart io i e) (ioFails io i) s with
    | .fault k s => .fault k s
    | .wait s => .keep t s
    | .ok bs s => match storeMem c (getS t r0) bs (ioFails io i) s with
      | .fault k s => .fault k s
      | .wait s => .keep t s
      | .ok _ s => movsLoop c e rc r1 r0 io n (i + 1) (countDown rc (bump64 r1 e (bump64 r0 e t))) s

def fillsLoop (c : TCtx) (e : Nat) (rc r1 r0 : Fin 32) (io : MemIo) : Nat → Nat → Thread → State → Flow
  | 0, _, t, s => .next t s
  | n + 1, i, t, s =>
    match storeMem c (getS t r0) (leBytes e (getS t r1).toNat) (ioFails io i) s with
    | .fault k s => .fault k s
    | .wait s => .keep t s
    | .ok _ s => fillsLoop c e rc r1 r0 io n (i + 1) (countDown rc (bump64 r0 e t)) s

def cmpsLoop (c : TCtx) (e : Nat) (rc r1 r0 : Fin 32) (io : MemIo) : Nat → Nat → Thread → State → Flow
  | 0, _, t, s => .next t s
  | n + 1, i, t, s =>
    match loadMem c (getS t r0) e (ioPart io i e) (ioFails io i) s with
    | .fault k s => .fault k s
    | .wait s => .keep t s
    | .ok a s => match loadMem c (getS t r1) e ((io.elems.drop (i * e)).take e) (ioFails io i) s with
      | .fault k s => .fault k s
      | .wait s => .keep t s
      | .ok b s =>
        if a ≠ b then .next t s
        else cmpsLoop c e rc r1 r0 io n (i + 1) (countDown rc (bump64 r1 e (bump64 r0 e t))) s

def scansLoop (c : TCtx) (e : Nat) (cond : Bool) (rc r1 r0 : Fin 32) (io : MemIo) : Nat → Nat → Thread → State → Flow
  | 0, _, t, s => .next t s
  | n + 1, i, t, s =>
    match loadMem c (getS t r0) e (ioPart io i e) (ioFails io i) s with
    | .fault k s => .fault k s
    | .wait s => .keep t s
    | .ok a s =>
      if decide (a = leBytes e (getS t r1).toNat) != cond then .next t s
      else scansLoop c e cond rc r1 r0 io n (i + 1) (countDown rc (bump64 r0 e t)) s

/-- gath: `w` bytes of index, `e` bytes of element. -/
def gathLoop (c : TCtx) (w e : Nat) (rc r2 r1 r0 : Fin 32) (io : MemIo) : Nat → Nat → Thread → State → Flow
  | 0, _, t, s => .next t s
  | n + 1, i, t, s =>
    match loadMem c (getS t r1) w (ioPart io i w) (ioFails io i) s with
    | .fault k s => .fault k s
    | .wait s => .keep t s
    | .ok ix s => match loadMem c (getS t r2 + BitVec.ofNat 64 (leVal ix * e)) e ((io.elems.drop (i * e)).take e) (ioFails io i) s with
      | .fault k s => .fault k s
      | .wait s => .keep t s
      | .ok bs s => match storeMem c (getS t r0) bs (ioFails io i) s with
        | .fault k s => .fault k s
        | .wait s => .keep t s
        | .ok _ s => gathLoop c w e rc r2 r1 r0 io n (i + 1) (countDown rc (bump64 r1 w (bump64 r0 e t))) s

/-- A string instruction runs all its elements; the pc stays on it until then. -/
def strRun (th : Nat) (bad : Bool) (rc : Fin 32) (start : TCtx → State → State) (loop : TCtx → Nat → Nat → Thread → State → Flow) (s : State) : State :=
  issue th 4 (fun c s => orIllegal bad s (loop c (getS c.t rc).toNat 0 c.t (start c s))) s
/-- What goes with the stores of a string instruction at its destination register. -/
def strStores (io : MemIo) (r0 : Fin 32) (e : Nat) (c : TCtx) (s : State) : State := storeFaults c io (getS c.t r0) e 1 s

def execMovs (th : Nat) (size : Fin 8) (rc r1 r0 : Fin 32) (io : MemIo) (s : State) : Ran :=
  .next (strRun th (regsBad [r0, r1, rc]) rc (strStores io r0 (2 ^ size.val)) (fun c => movsLoop c (2 ^ size.val) rc r1 r0 io) s)
def execFills (th : Nat) (size : Fin 8) (rc r1 r0 : Fin 32) (io : MemIo) (s : State) : Ran :=
  .next (strRun th (regsBad [r0, r1, rc] || decide (3 < size.val)) rc (strStores io r0 (2 ^ size.val)) (fun c => fillsLoop c (2 ^ size.val) rc r1 r0 io) s)
def execCmps (th : Nat) (size : Fin 8) (rc r1 r0 : Fin 32) (io : MemIo) (s : State) : Ran :=
  .next (strRun th (regsBad [r0, r1, rc] || decide (3 < size.val)) rc (fun c => memFaults c io) (fun c => cmpsLoop c (2 ^ size.val) rc r1 r0 io) s)
def execScans (th : Nat) (size : Fin 8) (rc : Fin 32) (cond : Bool) (r1 r0 : Fin 32) (io : MemIo) (s : State) : Ran :=
  .next (strRun th (regsBad [r0, r1, rc] || decide (3 < size.val)) rc (fun c => memFaults c io) (fun c => scansLoop c (2 ^ size.val) cond rc r1 r0 io) s)
def execGath (th : Nat) (wide : Bool) (size : Fin 8) (rc r2 r1 r0 : Fin 32) (io : MemIo) (s : State) : Ran :=
  .next (strRun th (regsBad [r0, r1, r2, rc]) rc (strStores io r0 (2 ^ size.val)) (fun c => gathLoop c (if wide then 8 else 4) (2 ^ size.val) rc r2 r1 r0 io) s)

/-! ### Faults without an instruction (R180, R200, R205) -/

/-- An undefined encoding is issued. -/
def execUndefinedEncoding (th : Nat) (word : BitVec 32) (s : State) : Ran :=
  .next (if encodingDefined word.toNat then s
    else issue th (formBytes word.toNat) (fun _ s => .fault fkIllegal s) s)

/-- The instruction at the pc does not lie within W0: the item faults. -/
def execFetchFault (th : Nat) (s : State) : Ran :=
  .next (match tctx s th with
    | some c => if c.k.codeLen < c.t.pc.toNat + (if (memGet s.mem.cells (codeDpa c.k c.t.pc.toNat)).getLsbD 0 then 4 else 2)
                then endItem c (some fkWindow) s else s
    | none => s)

/-- An item has run for longer than WATCHDOG_MS. -/
def execItemWatchdog (th : Nat) (s : State) : Ran :=
  .next (match tctx s th with | some c => endItem c (some fkWatchdog) s | none => s)

end Sys2Proof.Machine
end

