-- ==== Sys2Proof/Machine/Vec.lean ====
section
/-! DEFINITION. The vector instructions of the Lendel set (R210, R230 to R242). -/

namespace Sys2Proof.Machine

open Sys2Proof

/-! ### Types and lanes (R230) -/

/-- The format of a floating-point type code; none for an integer type. -/
def vtFmt (ty : Fin 8) : Option Fmt :=
  match ty.val with
  | 3 => some fp32
  | 4 => some bf16
  | 5 => some fp16
  | 6 => some e4m3
  | 7 => some e5m2
  | _ => none

def vtWidth (ty : Fin 8) : Nat :=
  match ty.val with
  | 0 => 8
  | 1 => 16
  | 2 => 32
  | 3 => 32
  | 4 => 16
  | 5 => 16
  | _ => 8

def laneCount (w : Nat) : Nat := 512 / w

/-- Lane k of a register. -/
def lane (w : Nat) (v : VReg) (k : Nat) : Nat := bits v.toNat (w * k) w

/-- The register whose lanes are given. -/
def ofLanes (w : Nat) (f : Nat → Nat) : VReg :=
  BitVec.ofNat 512 ((List.range (laneCount w)).foldr (fun k a => f k % 2 ^ w + 2 ^ w * a) 0)

/-- Lane k is active under a mask (R232). -/
def active (m : SReg) (k : Nat) : Bool := m.getLsbD k

/-- What a masked instruction leaves in a lane. -/
def merged (zm : Bool) (m : SReg) (w : Nat) (old : VReg) (res : Nat → Nat) (k : Nat) : Nat :=
  if active m k then res k else if zm then 0 else lane w old k

/-- Rounding of lane k by the rnd bit (R241, R242). -/
def laneRound (rnd : Bool) (draw k : Nat) : Option Nat := if rnd then some (Config.rand16 (draw + k)) else none

/-- The random values of an instruction have been drawn. -/
def drawLanes (rnd : Bool) (s : State) : State := if rnd then s.setDraw (s.draw + 64) else s

/-! ### Lane operations -/

/-- An operation of one lane: on integers of a width, on values of a format; none: the type is excluded. -/
structure LaneOp where
  int : Option (Nat → Nat → Nat → Nat → Nat)
  fp : Option (Fmt → Option Nat → Nat → Nat → Nat → Nat)

/-- The result of a lane from vs1, vs2 and vd. -/
def LaneOp.run (o : LaneOp) (ty : Fin 8) (rnd : Option Nat) (a b d : Nat) : Nat :=
  match vtFmt ty with
  | some f => (match o.fp with | some g => g f rnd a b d | none => 0)
  | none => (match o.int with | some g => g (vtWidth ty) a b d | none => 0)

/-- The type is excluded by R210. -/
def LaneOp.excluded (o : LaneOp) (ty : Fin 8) : Bool := if (vtFmt ty).isSome then o.fp.isNone else o.int.isNone

/-- An FP operation with one rounding. -/
def fpOp (g : FV → FV → FV → FV) : Fmt → Option Nat → Nat → Nat → Nat → Nat :=
  fun f rnd a b d => encF f rnd (g (decF f a) (decF f b) (decF f d))

def opAdd : LaneOp := { int := some (fun w a b _ => (a + b) % 2 ^ w), fp := some (fpOp (fun a b _ => a.add b)) }
def opSub : LaneOp := { int := some (fun w a b _ => (a + 2 ^ w - b) % 2 ^ w), fp := some (fpOp (fun a b _ => a.sub b)) }
def opMul : LaneOp := { int := some (fun w a b _ => a * b % 2 ^ w), fp := some (fpOp (fun a b _ => a.mul b)) }
def opFma : LaneOp := { int := some (fun w a b d => (a * b + d) % 2 ^ w), fp := some (fpOp (fun a b d => (a.mul b).add d)) }
def opMin : LaneOp := { int := some (fun w a b _ => pickS false w a b), fp := some (fun f _ a b _ => fpick f false a b) }
def opMax : LaneOp := { int := some (fun w a b _ => pickS true w a b), fp := some (fun f _ a b _ => fpick f true a b) }
def opMinu : LaneOp := { int := some (fun _ a b _ => pickU false a b), fp := none }
def opMaxu : LaneOp := { int := some (fun _ a b _ => pickU true a b), fp := none }
def opAnd : LaneOp := { int := some (fun _ a b _ => a &&& b), fp := none }
def opOr : LaneOp := { int := some (fun _ a b _ => a ||| b), fp := none }
def opXor : LaneOp := { int := some (fun _ a b _ => a ^^^ b), fp := none }
def opSll : LaneOp := { int := some (fun w a b _ => a * 2 ^ (b % w) % 2 ^ w), fp := none }
def opSrl : LaneOp := { int := some (fun w a b _ => a / 2 ^ (b % w)), fp := none }
def opSra : LaneOp := { int := some (fun w a b _ => wrapInt w (sext w a / (2 ^ (b % w) : Nat))), fp := none }
def opDiv : LaneOp := { int := none, fp := some (fpOp (fun a b _ => a.div b)) }
def opSqrt : LaneOp := { int := none, fp := some (fpOp (fun a _ _ => a.sqrt)) }
/-- Absolute value and negation act on the sign bit of an FP lane; the most negative integer wraps (R201). -/
def opAbs : LaneOp := { int := some (fun w a _ _ => wrapInt w (sext w a).natAbs), fp := some (fun f _ a _ _ => a % 2 ^ (f.w - 1)) }
def opNeg : LaneOp := { int := some (fun w a _ _ => (2 ^ w - a) % 2 ^ w), fp := some (fun f _ a _ _ => (a + 2 ^ (f.w - 1)) % 2 ^ f.w) }

/-- vd = op of vs1, a second operand per lane, and vd, under the mask. -/
def vecOp (o : LaneOp) (th : Nat) (ty : Fin 8) (rnd zm : Bool) (mask : Fin 8) (second : Thread → Nat → Nat) (vs1 vd : Fin 16) (s : State) :
    State :=
  issueV th 4 (fun c s =>
    let w := vtWidth ty
    let t := c.t
    let res := fun k => o.run ty (laneRound rnd s.draw k) (lane w (getV t vs1) k) (second t k) (lane w (getV t vd) k)
    orIllegal (o.excluded ty) s
      (.next (setV vd (ofLanes w (merged zm (getM t mask) w (getV t vd) res)) t) (drawLanes (rnd && (vtFmt ty).isSome) s))) s

/-- The V form: the second operand is vs2. -/
def vv (o : LaneOp) (th : Nat) (ty : Fin 8) (rnd zm : Bool) (mask : Fin 8) (vs2 vs1 vd : Fin 16) (s : State) : State :=
  vecOp o th ty rnd zm mask (fun t k => lane (vtWidth ty) (getV t vs2) k) vs1 vd s

/-- The VS form: the second operand is a scalar taken as a lane value. -/
def vs (o : LaneOp) (th : Nat) (ty : Fin 8) (rnd zm : Bool) (mask : Fin 8) (rs : Fin 32) (vs1 vd : Fin 16) (s : State) : State :=
  vecOp o th ty rnd zm mask (fun t _ => (getS t rs).toNat % 2 ^ vtWidth ty) vs1 vd s

def execVadd (th : Nat) (type : Fin 8) (rnd zm : Bool) (mask : Fin 8) (vs2 vs1 vd : Fin 16) (s : State) : Ran := .next (vv opAdd th type rnd zm mask vs2 vs1 vd s)
def execVsub (th : Nat) (type : Fin 8) (rnd zm : Bool) (mask : Fin 8) (vs2 vs1 vd : Fin 16) (s : State) : Ran := .next (vv opSub th type rnd zm mask vs2 vs1 vd s)
def execVmul (th : Nat) (type : Fin 8) (rnd zm : Bool) (mask : Fin 8) (vs2 vs1 vd : Fin 16) (s : State) : Ran := .next (vv opMul th type rnd zm mask vs2 vs1 vd s)
def execVfma (th : Nat) (type : Fin 8) (rnd zm : Bool) (mask : Fin 8) (vs2 vs1 vd : Fin 16) (s : State) : Ran := .next (vv opFma th type rnd zm mask vs2 vs1 vd s)
def execVmin (th : Nat) (type : Fin 8) (rnd zm : Bool) (mask : Fin 8) (vs2 vs1 vd : Fin 16) (s : State) : Ran := .next (vv opMin th type rnd zm mask vs2 vs1 vd s)
def execVmax (th : Nat) (type : Fin 8) (rnd zm : Bool) (mask : Fin 8) (vs2 vs1 vd : Fin 16) (s : State) : Ran := .next (vv opMax th type rnd zm mask vs2 vs1 vd s)
def execVminu (th : Nat) (type : Fin 8) (rnd zm : Bool) (mask : Fin 8) (vs2 vs1 vd : Fin 16) (s : State) : Ran := .next (vv opMinu th type rnd zm mask vs2 vs1 vd s)
def execVmaxu (th : Nat) (type : Fin 8) (rnd zm : Bool) (mask : Fin 8) (vs2 vs1 vd : Fin 16) (s : State) : Ran := .next (vv opMaxu th type rnd zm mask vs2 vs1 vd s)
def execVand (th : Nat) (type : Fin 8) (rnd zm : Bool) (mask : Fin 8) (vs2 vs1 vd : Fin 16) (s : State) : Ran := .next (vv opAnd th type rnd zm mask vs2 vs1 vd s)
def execVor (th : Nat) (type : Fin 8) (rnd zm : Bool) (mask : Fin 8) (vs2 vs1 vd : Fin 16) (s : State) : Ran := .next (vv opOr th type rnd zm mask vs2 vs1 vd s)
def execVxor (th : Nat) (type : Fin 8) (rnd zm : Bool) (mask : Fin 8) (vs2 vs1 vd : Fin 16) (s : State) : Ran := .next (vv opXor th type rnd zm mask vs2 vs1 vd s)
def execVsll (th : Nat) (type : Fin 8) (rnd zm : Bool) (mask : Fin 8) (vs2 vs1 vd : Fin 16) (s : State) : Ran := .next (vv opSll th type rnd zm mask vs2 vs1 vd s)
def execVsrl (th : Nat) (type : Fin 8) (rnd zm : Bool) (mask : Fin 8) (vs2 vs1 vd : Fin 16) (s : State) : Ran := .next (vv opSrl th type rnd zm mask vs2 vs1 vd s)
def execVsra (th : Nat) (type : Fin 8) (rnd zm : Bool) (mask : Fin 8) (vs2 vs1 vd : Fin 16) (s : State) : Ran := .next (vv opSra th type rnd zm mask vs2 vs1 vd s)
def execVdiv (th : Nat) (type : Fin 8) (rnd zm : Bool) (mask : Fin 8) (vs2 vs1 vd : Fin 16) (s : State) : Ran := .next (vv opDiv th type rnd zm mask vs2 vs1 vd s)
def execVsqrt (th : Nat) (type : Fin 8) (rnd zm : Bool) (mask : Fin 8) (vs1 vd : Fin 16) (s : State) : Ran := .next (vv opSqrt th type rnd zm mask vs1 vs1 vd s)
def execVabs (th : Nat) (type : Fin 8) (rnd zm : Bool) (mask : Fin 8) (vs1 vd : Fin 16) (s : State) : Ran := .next (vv opAbs th type rnd zm mask vs1 vs1 vd s)
def execVneg (th : Nat) (type : Fin 8) (rnd zm : Bool) (mask : Fin 8) (vs1 vd : Fin 16) (s : State) : Ran := .next (vv opNeg th type rnd zm mask vs1 vs1 vd s)

def execVaddS (th : Nat) (type : Fin 8) (rnd zm : Bool) (mask : Fin 8) (rs : Fin 32) (vs1 vd : Fin 16) (s : State) : Ran := .next (vs opAdd th type rnd zm mask rs vs1 vd s)
def execVsubS (th : Nat) (type : Fin 8) (rnd zm : Bool) (mask : Fin 8) (rs : Fin 32) (vs1 vd : Fin 16) (s : State) : Ran := .next (vs opSub th type rnd zm mask rs vs1 vd s)
def execVmulS (th : Nat) (type : Fin 8) (rnd zm : Bool) (mask : Fin 8) (rs : Fin 32) (vs1 vd : Fin 16) (s : State) : Ran := .next (vs opMul th type rnd zm mask rs vs1 vd s)
def execVfmaS (th : Nat) (type : Fin 8) (rnd zm : Bool) (mask : Fin 8) (rs : Fin 32) (vs1 vd : Fin 16) (s : State) : Ran := .next (vs opFma th type rnd zm mask rs vs1 vd s)
def execVminS (th : Nat) (type : Fin 8) (rnd zm : Bool) (mask : Fin 8) (rs : Fin 32) (vs1 vd : Fin 16) (s : State) : Ran := .next (vs opMin th type rnd zm mask rs vs1 vd s)
def execVmaxS (th : Nat) (type : Fin 8) (rnd zm : Bool) (mask : Fin 8) (rs : Fin 32) (vs1 vd : Fin 16) (s : State) : Ran := .next (vs opMax th type rnd zm mask rs vs1 vd s)
def execVsllS (th : Nat) (type : Fin 8) (rnd zm : Bool) (mask : Fin 8) (rs : Fin 32) (vs1 vd : Fin 16) (s : State) : Ran := .next (vs opSll th type rnd zm mask rs vs1 vd s)
def execVsrlS (th : Nat) (type : Fin 8) (rnd zm : Bool) (mask : Fin 8) (rs : Fin 32) (vs1 vd : Fin 16) (s : State) : Ran := .next (vs opSrl th type rnd zm mask rs vs1 vd s)
def execVsraS (th : Nat) (type : Fin 8) (rnd zm : Bool) (mask : Fin 8) (rs : Fin 32) (vs1 vd : Fin 16) (s : State) : Ran := .next (vs opSra th type rnd zm mask rs vs1 vd s)

/-- The first operand is the scalar. -/
def opFirst : LaneOp := { int := some (fun _ _ b _ => b), fp := some (fun _ _ _ b _ => b) }

def execVbcast (th : Nat) (type : Fin 8) (_rnd zm : Bool) (mask : Fin 8) (rs : Fin 32) (vd : Fin 16) (s : State) : Ran :=
  .next (vs opFirst th type false zm mask rs vd vd s)

/-- Every lane of vd is vs1 where the mask bit is 1, else vs2. -/
def execVsel (th : Nat) (type : Fin 8) (_rnd _zm : Bool) (mask : Fin 8) (vs2 vs1 vd : Fin 16) (s : State) : Ran :=
  .next (pureOpV th 4 (fun t =>
    let w := vtWidth type
    setV vd (ofLanes w (fun k => if active (getM t mask) k then lane w (getV t vs1) k else lane w (getV t vs2) k)) t) s)

/-! ### Reductions (R231) -/

/-- Neighbours combined, once. -/
def pairUp (f : Nat → Nat → Nat → Nat) : Nat → List Nat → List Nat
  | _, [] => []
  | _, [a] => [a]
  | i, a :: b :: r => f i a b :: pairUp f (i + 1) r

/-- A pairwise tree of `n` levels; `f` gets the number of each node. -/
def treeFold (f : Nat → Nat → Nat → Nat) : Nat → Nat → List Nat → Nat
  | 0, _, l => l.headD 0
  | n + 1, i, l => treeFold f n (i + l.length) (pairUp f i l)

/-- The identity of an inactive lane of a minimum or maximum: the least or greatest value of the type. -/
def extreme (ty : Fin 8) (greatest : Bool) : Nat :=
  match vtFmt ty with
  | some f => if f.ieee then f.withSign (!greatest) ((2 ^ f.eb - 1) * 2 ^ f.mb) else f.withSign (!greatest) f.maxCode
  | none => if greatest then 2 ^ (vtWidth ty - 1) - 1 else 2 ^ (vtWidth ty - 1)

/-- A reduction: 0 sum, 1 maximum, 2 minimum. FP types compute in FP32. -/
def reduce (kind th : Nat) (ty : Fin 8) (rnd : Bool) (mask : Fin 8) (vs1 vd : Fin 16) (s : State) : State :=
  issueV th 4 (fun c s =>
    let w := vtWidth ty
    let m := getM c.t mask
    let idle := if kind = 0 then 0 else extreme ty (kind == 2)
    let raw := (List.range (laneCount w)).map (fun k => if active m k then lane w (getV c.t vs1) k else idle)
    match vtFmt ty with
    | some f =>
      let r := treeFold (fun i a b => if kind = 0 then encF fp32 (laneRound rnd s.draw i) ((f32 a).add (f32 b)) else fpick fp32 (kind == 1) a b)
        6 0 (raw.map (fun x => r32 (decF f x)))
      .next (setV vd (BitVec.ofNat 512 (r % 2 ^ 32)) c.t) (if rnd then s.setDraw (s.draw + 128) else s)
    | none =>
      let r := treeFold (fun _ a b => if kind = 0 then (a + b) % 2 ^ w else pickS (kind == 1) w a b) 6 0 raw
      .next (setV vd (BitVec.ofNat 512 (r % 2 ^ w)) c.t) s) s

def execVredsum (th : Nat) (type : Fin 8) (rnd _zm : Bool) (mask : Fin 8) (vs1 vd : Fin 16) (s : State) : Ran :=
  .next (reduce 0 th type rnd mask vs1 vd s)
def execVredmax (th : Nat) (type : Fin 8) (rnd _zm : Bool) (mask : Fin 8) (vs1 vd : Fin 16) (s : State) : Ran :=
  .next (reduce 1 th type rnd mask vs1 vd s)
def execVredmin (th : Nat) (type : Fin 8) (rnd _zm : Bool) (mask : Fin 8) (vs1 vd : Fin 16) (s : State) : Ran :=
  .next (reduce 2 th type rnd mask vs1 vd s)

/-! ### Compares (R233) -/

/-- A relation of two lanes: signed or FP, or unsigned (integers only). -/
structure LaneRel where
  int : Nat → Nat → Nat → Bool
  fp : Option (FV → FV → Bool)

/-- md: the relation of every active lane. -/
def compare (o : LaneRel) (th : Nat) (ty : Fin 8) (mask : Fin 8) (vs2 vs1 : Fin 16) (md : Fin 8) (s : State) : State :=
  issueV th 4 (fun c s =>
    let w := vtWidth ty
    let m := getM c.t mask
    let rel := fun k =>
      let a := lane w (getV c.t vs1) k
      let b := lane w (getV c.t vs2) k
      match vtFmt ty, o.fp with
      | some f, some g => g (decF f a) (decF f b)
      | _, _ => o.int w a b
    let v := ((List.range (laneCount w)).map (fun k => if active m k && rel k then 2 ^ k else 0)).sum
    orIllegal ((vtFmt ty).isSome && o.fp.isNone) s (.next (setM md (BitVec.ofNat 64 v) c.t) s)) s

def execVeq (th : Nat) (type : Fin 8) (_rnd _zm : Bool) (mask : Fin 8) (vs2 vs1 : Fin 16) (md : Fin 8) (s : State) : Ran :=
  .next (compare { int := fun _ a b => a == b, fp := some (fun a b => a.eq b == some true) } th type mask vs2 vs1 md s)
def execVne (th : Nat) (type : Fin 8) (_rnd _zm : Bool) (mask : Fin 8) (vs2 vs1 : Fin 16) (md : Fin 8) (s : State) : Ran :=
  .next (compare { int := fun _ a b => a != b, fp := some (fun a b => a.eq b != some true) } th type mask vs2 vs1 md s)
def execVlt (th : Nat) (type : Fin 8) (_rnd _zm : Bool) (mask : Fin 8) (vs2 vs1 : Fin 16) (md : Fin 8) (s : State) : Ran :=
  .next (compare { int := fun w a b => decide (sext w a < sext w b), fp := some (fun a b => a.lt b == some true) } th type mask vs2 vs1 md s)
def execVle (th : Nat) (type : Fin 8) (_rnd _zm : Bool) (mask : Fin 8) (vs2 vs1 : Fin 16) (md : Fin 8) (s : State) : Ran :=
  .next (compare { int := fun w a b => decide (sext w a ≤ sext w b), fp := some (fun a b => b.lt a == some false) } th type mask vs2 vs1 md s)
def execVltu (th : Nat) (type : Fin 8) (_rnd _zm : Bool) (mask : Fin 8) (vs2 vs1 : Fin 16) (md : Fin 8) (s : State) : Ran :=
  .next (compare { int := fun _ a b => decide (a < b), fp := none } th type mask vs2 vs1 md s)
def execVleu (th : Nat) (type : Fin 8) (_rnd _zm : Bool) (mask : Fin 8) (vs2 vs1 : Fin 16) (md : Fin 8) (s : State) : Ran :=
  .next (compare { int := fun _ a b => decide (a ≤ b), fp := none } th type mask vs2 vs1 md s)

/-! ### Vector memory -/

def vmAddr (rs1 : Fin 32) (off : BitVec 6) (t : Thread) : SReg := getS t rs1 + (off.signExtend 64 <<< 6)

/-- Byte offset of a lane in a register. -/
def laneOff (w k : Nat) : Nat := w * k / 8

/-- The active lanes among some, loaded from memory. -/
def loadLanes (c : TCtx) (w : Nat) (m : SReg) (addr : SReg) (io : MemIo) : List Nat → List (Nat × Nat) → State → Acc (List (Nat × Nat))
  | [], acc, s => .ok acc s
  | k :: r, acc, s =>
    if !active m k then loadLanes c w m addr io r acc s
    else match loadMem c (addr + BitVec.ofNat 64 (laneOff w k)) (w / 8) ((io.data.drop (laneOff w k)).take (w / 8)) (ioFails io k) s with
      | .ok bs s => loadLanes c w m addr io r ((k, leVal bs) :: acc) s
      | .fault e s => .fault e s
      | .wait s => .wait s

/-- The active lanes of a register stored to memory. -/
def storeLanes (c : TCtx) (w : Nat) (m : SReg) (addr : SReg) (v : VReg) (io : MemIo) : List Nat → State → Acc Unit
  | [], s => .ok () s
  | k :: r, s =>
    if !active m k then storeLanes c w m addr v io r s
    else match storeMem c (addr + BitVec.ofNat 64 (laneOff w k)) (leBytes (w / 8) (lane w v k)) (ioFails io k) s with
      | .ok _ s => storeLanes c w m addr v io r s
      | .fault e s => .fault e s
      | .wait s => .wait s

/-- The active lanes that an atomic add is to reach may all be written, so that it waits or faults before any lane is added. -/
def readyLanes (c : TCtx) (w : Nat) (m : SReg) (addr : SReg) : List Nat → State → Acc Unit
  | [], s => .ok () s
  | k :: r, s =>
    if !active m k then readyLanes c w m addr r s
    else match atomicReady c (addr + BitVec.ofNat 64 (laneOff w k)) (w / 8) s with
      | .ok _ s => readyLanes c w m addr r s
      | .fault e s => .fault e s
      | .wait s => .wait s

/-- The active lanes of a register added to memory, each atomically, to nearest even (R161). -/
def addLanes (c : TCtx) (f : Fmt) (m : SReg) (addr : SReg) (v : VReg) : List Nat → State → Acc Unit
  | [], s => .ok () s
  | k :: r, s =>
    if !active m k then addLanes c f m addr v r s
    else
      let g := fun (old : Bytes) => some (leBytes (f.w / 8) (encF f none ((decF f (leVal old)).add (decF f (lane f.w v k)))))
      match atomicMem c (addr + BitVec.ofNat 64 (laneOff f.w k)) (f.w / 8) g s with
      | .ok _ s => addLanes c f m addr v r s
      | .fault e s => .fault e s
      | .wait s => .wait s

def execVld (th : Nat) (type : Fin 8) (off : BitVec 6) (mask : Fin 8) (zm : Bool) (rs1 : Fin 32) (vd : Fin 16) (io : MemIo) (s : State) : Ran :=
  .next (issueV th 4 (fun c s =>
    let w := vtWidth type
    match loadLanes c w (getM c.t mask) (vmAddr rs1 off c.t) io (List.range (laneCount w)) [] (memFaults c io s) with
    | .ok ls s => .next (setV vd (ofLanes w (merged zm (getM c.t mask) w (getV c.t vd) (fun k => lookD ls k 0))) c.t) s
    | .fault e s => .fault e s
    | .wait s => .keep c.t s) s)

def execVst (th : Nat) (type : Fin 8) (off : BitVec 6) (mask : Fin 8) (_zm : Bool) (rs1 : Fin 32) (vd : Fin 16) (io : MemIo) (s : State) : Ran :=
  .next (issueV th 4 (fun c s =>
    let w := vtWidth type
    match storeLanes c w (getM c.t mask) (vmAddr rs1 off c.t) (getV c.t vd) io (List.range (laneCount w))
        (storeFaults c io (vmAddr rs1 off c.t) (w / 8) 1 s) with
    | .ok _ s => .next c.t s
    | .fault e s => .fault e s
    | .wait s => .keep c.t s) s)

def execVldb (th : Nat) (type : Fin 8) (off : BitVec 6) (mask : Fin 8) (zm : Bool) (rs1 : Fin 32) (vd : Fin 16) (io : MemIo) (s : State) : Ran :=
  .next (issueV th 4 (fun c s =>
    let w := vtWidth type
    let m := getM c.t mask
    if (List.range (laneCount w)).all (fun k => !active m k) then
      .next (setV vd (ofLanes w (merged zm m w (getV c.t vd) (fun _ => 0))) c.t) s
    else match loadMem c (vmAddr rs1 off c.t) (w / 8) io.data io.failAt.isSome (memFaults c io s) with
      | .ok bs s => .next (setV vd (ofLanes w (merged zm m w (getV c.t vd) (fun _ => leVal bs))) c.t) s
      | .fault e s => .fault e s
      | .wait s => .keep c.t s) s)

def execVaadd (th : Nat) (type : Fin 8) (off : BitVec 6) (mask : Fin 8) (_zm : Bool) (rs1 : Fin 32) (vd : Fin 16) (io : MemIo) (s : State) : Ran :=
  .next (issueV th 4 (fun c s =>
    let a := vmAddr rs1 off c.t
    match (if type = 3 then some fp32 else if type = 4 then some bf16 else none) with
    | none => .fault fkIllegal s
    | some f =>
      if a.toNat % 64 ≠ 0 then .fault fkAlign s
      else match readyLanes c f.w (getM c.t mask) a (List.range (laneCount f.w)) (storeFaults c io a (f.w / 8) 2 s) with
        | .ok _ s => (match addLanes c f (getM c.t mask) a (getV c.t vd) (List.range (laneCount f.w)) s with
          | .ok _ s => .next c.t s
          | .fault e s => .fault e s
          | .wait s => .keep c.t s)
        | .fault e s => .fault e s
        | .wait s => .keep c.t s) s)

/-! ### Lanes and scalars -/

/-- A lane that the type does not have gives a free value (log 43). -/
def execVext (th : Nat) (type : Fin 8) (lane : Fin 64) (sr : Fin 32) (vr : Fin 16) (s : State) : Ran :=
  .next (issueV th 4 (fun c s =>
    let w := vtWidth type
    let v := Machine.lane w (getV c.t vr) lane.val
    if laneCount w ≤ lane.val then .next (setS sr (Config.freeExt type.val lane.val (getV c.t vr)) c.t) s
    else .next (setS sr (if (vtFmt type).isSome then zx v else sx w v) c.t) s) s)

/-- A lane that the type does not have leaves the register as it was (DESIGN CHOICE, log 218). -/
def execVins (th : Nat) (type : Fin 8) (lane : Fin 64) (sr : Fin 32) (vr : Fin 16) (s : State) : Ran :=
  .next (pureOpV th 4 (fun t =>
    let w := vtWidth type
    setV vr (ofLanes w (fun k => if k = lane.val then (getS t sr).toNat else Machine.lane w (getV t vr) k)) t) s)

/-- A lane number that E4M3 or E5M2 cannot hold rounds to nearest even (DESIGN CHOICE, log 218). -/
def execVidx (th : Nat) (type : Fin 8) (vr : Fin 16) (s : State) : Ran :=
  .next (pureOpV th 4 (setV vr (ofLanes (vtWidth type) (fun k => match vtFmt type with
    | some f => encF f none (.fin false k 0)
    | none => k))) s)

/-! ### Conversions (R237 to R240) -/

/-- One element from a source to a destination type (R238). -/
def convert (src dst : Fin 8) (rnd : Option Nat) (x : Nat) : Nat :=
  match vtFmt src, vtFmt dst with
  | some f, some g => encF g rnd (decF f x)
  | some f, none => wrapInt (vtWidth dst) (toInt rnd (vtWidth dst) (decF f x))
  | none, some g => encF g rnd (FV.ofInt (sext (vtWidth src) x))
  | none, none =>
    let w := vtWidth dst
    wrapInt w (max (-(2 ^ (w - 1) : Nat)) (min (2 ^ (w - 1) - 1 : Nat) (sext (vtWidth src) x)))

/-- A register by number, and one updated. -/
def vAt (t : Thread) (i : Nat) : VReg := if h : i < 16 then getV t ⟨i, h⟩ else 0
def vSet (i : Nat) (v : VReg) (t : Thread) : Thread := if h : i < 16 then setV ⟨i, h⟩ v t else t

/-- Lane k of a group of registers of a lane width, counted through its registers. -/
def groupLane (w : Nat) (t : Thread) (first k : Nat) : Nat := lane w (vAt t (first + k / laneCount w)) (k % laneCount w)

/-- Registers of a side of a conversion. -/
def groupSize (w other : Nat) : Nat := if other < w then w / other else 1

def execVcvt (th : Nat) (type : Fin 8) (rnd zm : Bool) (mask : Fin 8) (src : Fin 8) (vs1 vd : Fin 16) (s : State) : Ran :=
  .next (issueV th 4 (fun c s =>
    let wd := vtWidth type
    let ws := vtWidth src
    let rs := groupSize ws wd
    let rd := groupSize wd ws
    let t := c.t
    let m := getM t mask
    let out := fun (i k : Nat) =>
      let n := i * laneCount wd + k
      if active m n then convert src type (laneRound rnd s.draw n) (groupLane ws t vs1.val n)
      else if zm then 0 else lane wd (vAt t (vd.val + i)) k
    orIllegal (decide (vs1.val % rs ≠ 0 ∨ vd.val % rd ≠ 0)) s
      (.next ((List.range rd).foldl (fun t' i => vSet (vd.val + i) (ofLanes wd (out i)) t') t) (drawLanes rnd s))) s)

/-- The 32 elements of the wide side: an FP32 pair, or one BF16 register. -/
def wideElems (ty : Fin 8) (t : Thread) (first : Nat) : List FV :=
  (List.range 32).map (fun k => if ty = 3 then decF fp32 (groupLane 32 t first k) else decF bf16 (groupLane 16 t first k))

/-- vmxpk and vmxunpk with these operands are undefined. -/
def mxBad (ty : Fin 8) (mask src : Fin 8) (wide : Fin 16) : Bool :=
  !(ty == 3 || ty == 4) || (mxFmt src.val).isNone || mask != 0 || (ty == 3 && decide (wide.val % 2 ≠ 0))

def execVmxpk (th : Nat) (type : Fin 8) (rnd _zm : Bool) (mask : Fin 8) (src : Fin 8) (vs1 vd : Fin 16) (s : State) : Ran :=
  .next (issueV th 4 (fun c s =>
    match mxBad type mask src vs1, mxFmt src.val with
    | false, some (f, emax) =>
      let es := wideElems type c.t vs1.val
      let code := mxScale emax es
      let packed := packBits f.w (es.zipIdx.map (fun x => mxElem f code (laneRound rnd s.draw x.2) x.1))
      .next (setV vd (BitVec.ofNat 512 (leVal packed + code * 2 ^ 504)) c.t) (drawLanes rnd s)
    | _, _ => .fault fkIllegal s) s)

def execVmxunpk (th : Nat) (type : Fin 8) (rnd _zm : Bool) (mask : Fin 8) (src : Fin 8) (vs1 vd : Fin 16) (s : State) : Ran :=
  .next (issueV th 4 (fun c s =>
    match mxBad type mask src vd, mxFmt src.val with
    | false, some (f, _) =>
      let v := (getV c.t vs1).toNat
      let code := bits v 504 8
      let el := fun k => mxValue f code (bits v (f.w * k) f.w)
      let out := fun (g : Fmt) (k : Nat) => encF g (laneRound rnd s.draw k) (el k)
      if type = 3 then
        .next (vSet (vd.val + 1) (ofLanes 32 (fun k => out fp32 (16 + k))) (setV vd (ofLanes 32 (out fp32)) c.t)) (drawLanes rnd s)
      else .next (setV vd (ofLanes 16 (out bf16)) c.t) (drawLanes rnd s)
    | _, _ => .fault fkIllegal s) s)

end Sys2Proof.Machine
end

