-- ==== Sys2Proof/Machine/Dispatch.lean ====
section
/-! DEFINITION. The dispatch: one arm per command, each one call of that command's meaning. -/

namespace Sys2Proof.Machine

/-- The effect of a command on everything but the queue. -/
def exec (i : Instr) (s : State) : Host.Outcome State Fault Refusal :=
  match i with
  | .hello via pkt => Sys2Proof.Machine.execHello via pkt s
  | .goodbye via pkt => Sys2Proof.Machine.execGoodbye via pkt s
  | .leaseRenew via pkt => Sys2Proof.Machine.execLeaseRenew via pkt s
  | .flush via pkt => Sys2Proof.Machine.execFlush via pkt s
  | .getIdentity via pkt => Sys2Proof.Machine.execGetIdentity via pkt s
  | .getStraps via pkt => Sys2Proof.Machine.execGetStraps via pkt s
  | .strapOverride via pkt => Sys2Proof.Machine.execStrapOverride via pkt s
  | .getStartReport via pkt => Sys2Proof.Machine.execGetStartReport via pkt s
  | .cfgStage via pkt => Sys2Proof.Machine.execCfgStage via pkt s
  | .cfgCommitRolling via pkt => Sys2Proof.Machine.execCfgCommitRolling via pkt s
  | .cfgCommitDrain via pkt => Sys2Proof.Machine.execCfgCommitDrain via pkt s
  | .drainComplete owner => Sys2Proof.Machine.execDrainComplete owner s
  | .drainBoundExpiry owner => Sys2Proof.Machine.execDrainBoundExpiry owner s
  | .cfgAbort via pkt => Sys2Proof.Machine.execCfgAbort via pkt s
  | .powerCapSet via pkt => Sys2Proof.Machine.execPowerCapSet via pkt s
  | .tableCreate via pkt => Sys2Proof.Machine.execTableCreate via pkt s
  | .tableDestroy via pkt => Sys2Proof.Machine.execTableDestroy via pkt s
  | .tableQuery via pkt => Sys2Proof.Machine.execTableQuery via pkt s
  | .cqpCreate via pkt => Sys2Proof.Machine.execCqpCreate via pkt s
  | .cqpDestroy via pkt => Sys2Proof.Machine.execCqpDestroy via pkt s
  | .kernelLoad via pkt => Sys2Proof.Machine.execKernelLoad via pkt s
  | .kernelUnload via pkt => Sys2Proof.Machine.execKernelUnload via pkt s
  | .ruleRegister via pkt => Sys2Proof.Machine.execRuleRegister via pkt s
  | .coursePolicySet via pkt => Sys2Proof.Machine.execCoursePolicySet via pkt s
  | .courseOpen via pkt => Sys2Proof.Machine.execCourseOpen via pkt s
  | .stepDone via pkt => Sys2Proof.Machine.execStepDone via pkt s
  | .courseStatus via pkt => Sys2Proof.Machine.execCourseStatus via pkt s
  | .courseAbort via pkt => Sys2Proof.Machine.execCourseAbort via pkt s
  | .regionRegister via pkt => Sys2Proof.Machine.execRegionRegister via pkt s
  | .regionDeregister via pkt => Sys2Proof.Machine.execRegionDeregister via pkt s
  | .tableCapturePolicy via pkt => Sys2Proof.Machine.execTableCapturePolicy via pkt s
  | .ledgerQuery via pkt => Sys2Proof.Machine.execLedgerQuery via pkt s
  | .restoreBegin via pkt => Sys2Proof.Machine.execRestoreBegin via pkt s
  | .shardMapLoad via pkt => Sys2Proof.Machine.execShardMapLoad via pkt s
  | .restoreStatus via pkt => Sys2Proof.Machine.execRestoreStatus via pkt s
  | .shardAdopt via pkt => Sys2Proof.Machine.execShardAdopt via pkt s
  | .shrinkDone via pkt => Sys2Proof.Machine.execShrinkDone via pkt s
  | .nsCreate via pkt => Sys2Proof.Machine.execNsCreate via pkt s
  | .nsDelete via pkt => Sys2Proof.Machine.execNsDelete via pkt s
  | .nsAttach via pkt => Sys2Proof.Machine.execNsAttach via pkt s
  | .nsDetach via pkt => Sys2Proof.Machine.execNsDetach via pkt s
  | .nsQuery via pkt => Sys2Proof.Machine.execNsQuery via pkt s
  | .ssdList via pkt => Sys2Proof.Machine.execSsdList via pkt s
  | .nsMirrorSet via pkt => Sys2Proof.Machine.execNsMirrorSet via pkt s
  | .portConfigBlock via pkt => Sys2Proof.Machine.execPortConfigBlock via pkt s
  | .portConfigEthernet via pkt => Sys2Proof.Machine.execPortConfigEthernet via pkt s
  | .nicQpCreate via pkt => Sys2Proof.Machine.execNicQpCreate via pkt s
  | .nicQpDestroy via pkt => Sys2Proof.Machine.execNicQpDestroy via pkt s
  | .portQueryBlock via pkt => Sys2Proof.Machine.execPortQueryBlock via pkt s
  | .portQueryEthernet via pkt => Sys2Proof.Machine.execPortQueryEthernet via pkt s
  | .parseNodeWrite via pkt => Sys2Proof.Machine.execParseNodeWrite via pkt s
  | .clsInsert via pkt => Sys2Proof.Machine.execClsInsert via pkt s
  | .clsDelete via pkt => Sys2Proof.Machine.execClsDelete via pkt s
  | .clsConfigure via pkt => Sys2Proof.Machine.execClsConfigure via pkt s
  | .clsMissAction via pkt => Sys2Proof.Machine.execClsMissAction via pkt s
  | .indirectionEntries via pkt => Sys2Proof.Machine.execIndirectionEntries via pkt s
  | .indirectionProfile via pkt => Sys2Proof.Machine.execIndirectionProfile via pkt s
  | .shaperSet via pkt => Sys2Proof.Machine.execShaperSet via pkt s
  | .policerSet via pkt => Sys2Proof.Machine.execPolicerSet via pkt s
  | .gateListSet via pkt => Sys2Proof.Machine.execGateListSet via pkt s
  | .samplerSet via pkt => Sys2Proof.Machine.execSamplerSet via pkt s
  | .grtConnCreate via pkt => Sys2Proof.Machine.execGrtConnCreate via pkt s
  | .grtConnDestroy via pkt => Sys2Proof.Machine.execGrtConnDestroy via pkt s
  | .mrRegister via pkt => Sys2Proof.Machine.execMrRegister via pkt s
  | .mrRevoke via pkt => Sys2Proof.Machine.execMrRevoke via pkt s
  | .grtConnQuery via pkt => Sys2Proof.Machine.execGrtConnQuery via pkt s
  | .keyProvisionClear via pkt => Sys2Proof.Machine.execKeyProvisionClear via pkt s
  | .keyProvisionWrapped via pkt => Sys2Proof.Machine.execKeyProvisionWrapped via pkt s
  | .keyErase via pkt => Sys2Proof.Machine.execKeyErase via pkt s
  | .lifecycleTransition via pkt => Sys2Proof.Machine.execLifecycleTransition via pkt s
  | .getCertChain via pkt => Sys2Proof.Machine.execGetCertChain via pkt s
  | .securityStatus via pkt => Sys2Proof.Machine.execSecurityStatus via pkt s
  | .errQuery via pkt => Sys2Proof.Machine.execErrQuery via pkt s
  | .errAck via pkt => Sys2Proof.Machine.execErrAck via pkt s
  | .counterSelect via pkt => Sys2Proof.Machine.execCounterSelect via pkt s
  | .counterRead via pkt => Sys2Proof.Machine.execCounterRead via pkt s
  | .policySet via pkt => Sys2Proof.Machine.execPolicySet via pkt s
  | .policyLogRead via pkt => Sys2Proof.Machine.execPolicyLogRead via pkt s
  | .fwStage via pkt => Sys2Proof.Machine.execFwStage via pkt s
  | .fwActivateAtReset via pkt => Sys2Proof.Machine.execFwActivateAtReset via pkt s
  | .fwActivateResetNow via pkt => Sys2Proof.Machine.execFwActivateResetNow via pkt s
  | .fwActivateLive via pkt => Sys2Proof.Machine.execFwActivateLive via pkt s
  | .activationRetry => Sys2Proof.Machine.execActivationRetry s
  | .activationDeferExpiry => Sys2Proof.Machine.execActivationDeferExpiry s
  | .fwQuery via pkt => Sys2Proof.Machine.execFwQuery via pkt s
  | .fnCreate via pkt => Sys2Proof.Machine.execFnCreate via pkt s
  | .fnDestroy via pkt => Sys2Proof.Machine.execFnDestroy via pkt s
  | .fnReset via pkt => Sys2Proof.Machine.execFnReset via pkt s
  | .getFunctionState via pkt => Sys2Proof.Machine.execGetFunctionState via pkt s
  | .adoptQueues via pkt => Sys2Proof.Machine.execAdoptQueues via pkt s
  | .migFreeze via pkt => Sys2Proof.Machine.execMigFreeze via pkt s
  | .migSave via pkt => Sys2Proof.Machine.execMigSave via pkt s
  | .migRestore via pkt => Sys2Proof.Machine.execMigRestore via pkt s
  | .migResume via pkt => Sys2Proof.Machine.execMigResume via pkt s
  | .dirtyLogStart via pkt => Sys2Proof.Machine.execDirtyLogStart via pkt s
  | .dirtyLogStop via pkt => Sys2Proof.Machine.execDirtyLogStop via pkt s
  | .diagStewardSelftest via pkt => Sys2Proof.Machine.execDiagStewardSelftest via pkt s
  | .diagSpiFlashRead via pkt => Sys2Proof.Machine.execDiagSpiFlashRead via pkt s
  | .diagGddr7Training via pkt => Sys2Proof.Machine.execDiagGddr7Training via pkt s
  | .diagLinkTraining via pkt => Sys2Proof.Machine.execDiagLinkTraining via pkt s
  | .diagClusterSpareOut via pkt => Sys2Proof.Machine.execDiagClusterSpareOut via pkt s
  | .diagResult via pkt => Sys2Proof.Machine.execDiagResult via pkt s
  | .dumpRead via pkt => Sys2Proof.Machine.execDumpRead via pkt s
  | .cmdTail ring index slots => Sys2Proof.Machine.execCmdTail ring index slots s
  | .rplHead ring index => Sys2Proof.Machine.execRplHead ring index s
  | .icpRingDisable fn => Sys2Proof.Machine.execIcpRingDisable fn s
  | .managementDatagram peer frag => Sys2Proof.Machine.execManagementDatagram peer frag s
  | .managementSessionIdle peer => Sys2Proof.Machine.execManagementSessionIdle peer s
  | .mctpMessage eid msg => Sys2Proof.Machine.execMctpMessage eid msg s
  | .leaseExpiry fn => Sys2Proof.Machine.execLeaseExpiry fn s
  | .reclaimComplete fn => Sys2Proof.Machine.execReclaimComplete fn s
  | .sqTail queue index who slots => Sys2Proof.Machine.execSqTail queue index who slots s
  | .cqHead queue index => Sys2Proof.Machine.execCqHead queue index s
  | .lookup queue desc io => Sys2Proof.Machine.execLookup queue desc io s
  | .lookupPool queue desc io => Sys2Proof.Machine.execLookupPool queue desc io s
  | .update queue desc io => Sys2Proof.Machine.execUpdate queue desc io s
  | .readRows queue desc io => Sys2Proof.Machine.execReadRows queue desc io s
  | .writeRows queue desc io => Sys2Proof.Machine.execWriteRows queue desc io s
  | .prefetch queue desc io => Sys2Proof.Machine.execPrefetch queue desc io s
  | .kernel queue desc io => Sys2Proof.Machine.execKernel queue desc io s
  | .forwardedIndex dev token domainId op flags step client lr index data faults => Sys2Proof.Machine.execForwardedIndex dev token domainId op flags step client lr index data faults s
  | .forwardResult queue seq position status flags data => Sys2Proof.Machine.execForwardResult queue seq position status flags data s
  | .heldDescriptorRelease queue => Sys2Proof.Machine.execHeldDescriptorRelease queue s
  | .repointRow table row values slotFree => Sys2Proof.Machine.execRepointRow table row values slotFree s
  | .repointTimeout table row => Sys2Proof.Machine.execRepointTimeout table row s
  | .courseOpenMessage source id step label format trigger => Sys2Proof.Machine.execCourseOpenMessage source id step label format trigger s
  | .fenceUp child id peerStep ended => Sys2Proof.Machine.execFenceUp child id peerStep ended s
  | .fenceRelease id ended => Sys2Proof.Machine.execFenceRelease id ended s
  | .fenceClose tenant domain => Sys2Proof.Machine.execFenceClose tenant domain s
  | .fenceTimeout => Sys2Proof.Machine.execFenceTimeout s
  | .spillWaitRelease table region index => Sys2Proof.Machine.execSpillWaitRelease table region index s
  | .captureBlock faults => Sys2Proof.Machine.execCaptureBlock faults s
  | .shardWriteComplete shard dest => Sys2Proof.Machine.execShardWriteComplete shard dest s
  | .shardWriteFailed shard dest => Sys2Proof.Machine.execShardWriteFailed shard dest s
  | .regionPullComplete region data => Sys2Proof.Machine.execRegionPullComplete region data s
  | .commitUp child id entries => Sys2Proof.Machine.execCommitUp child id entries s
  | .rootLedgerDurable dest => Sys2Proof.Machine.execRootLedgerDurable dest s
  | .commitRelease id manifest => Sys2Proof.Machine.execCommitRelease id manifest s
  | .periodicCourse => Sys2Proof.Machine.execPeriodicCourse s
  | .bucketBoundary => Sys2Proof.Machine.execBucketBoundary s
  | .earlyRequest child counter rate => Sys2Proof.Machine.execEarlyRequest child counter rate s
  | .ceAbortReq who value => Sys2Proof.Machine.execCeAbortReq who value s
  | .restoreChunkRead shard chunk head data => Sys2Proof.Machine.execRestoreChunkRead shard chunk head data s
  | .restoreSourceTimeout shard => Sys2Proof.Machine.execRestoreSourceTimeout shard s
  | .restoreComplete => Sys2Proof.Machine.execRestoreComplete s
  | .adoptRowRead table row value slotFree => Sys2Proof.Machine.execAdoptRowRead table row value slotFree s
  | .adoptTimeout table row => Sys2Proof.Machine.execAdoptTimeout table row s
  | .livenessSend => Sys2Proof.Machine.execLivenessSend s
  | .liveness device step adopting below => Sys2Proof.Machine.execLiveness device step adopting below s
  | .livenessTimeout device => Sys2Proof.Machine.execLivenessTimeout device s
  | .memberFailed devices report => Sys2Proof.Machine.execMemberFailed devices report s
  | .linkCrcFail mc channel retry => Sys2Proof.Machine.execLinkCrcFail mc channel retry s
  | .channelRetrainDone mc channel trained => Sys2Proof.Machine.execChannelRetrainDone mc channel trained s
  | .poisonedBlockPlaced table region index => Sys2Proof.Machine.execPoisonedBlockPlaced table region index s
  | .mcFenceReq who mc mask => Sys2Proof.Machine.execMcFenceReq who mc mask s
  | .scrubRead dpa fault => Sys2Proof.Machine.execScrubRead dpa fault s
  | .cxlLinkDown block link => Sys2Proof.Machine.execCxlLinkDown block link s
  | .tierEpochEnd => Sys2Proof.Machine.execTierEpochEnd s
  | .tierMoveComplete table region index => Sys2Proof.Machine.execTierMoveComplete table region index s
  | .crossingMismatch crossing reset => Sys2Proof.Machine.execCrossingMismatch crossing reset s
  | .sramRowSpared block sram row event => Sys2Proof.Machine.execSramRowSpared block sram row event s
  | .residueMismatch th third => Sys2Proof.Machine.execResidueMismatch th third s
  | .registerParityFault th => Sys2Proof.Machine.execRegisterParityFault th s
  | .l1ParityRefetch cluster core line instruction => Sys2Proof.Machine.execL1ParityRefetch cluster core line instruction s
  | .clSpareReq who cluster mask => Sys2Proof.Machine.execClSpareReq who cluster mask s
  | .coreSafePoint cluster core => Sys2Proof.Machine.execCoreSafePoint cluster core s
  | .clusterSpareOut logical badWords => Sys2Proof.Machine.execClusterSpareOut logical badWords s
  | .itemWatchdog th => Sys2Proof.Machine.execItemWatchdog th s
  | .qMv th rd rs => Sys2Proof.Machine.execQMv th rd rs s
  | .qAdd th rd rs => Sys2Proof.Machine.execQAdd th rd rs s
  | .qSub th rd rs => Sys2Proof.Machine.execQSub th rd rs s
  | .qLdk th rd imm => Sys2Proof.Machine.execQLdk th rd imm s
  | .qAddk th rd imm => Sys2Proof.Machine.execQAddk th rd imm s
  | .qShlk th rd imm => Sys2Proof.Machine.execQShlk th rd imm s
  | .qLdD th rd rb off io => Sys2Proof.Machine.execQLdD th rd rb off io s
  | .qStD th rs rb off io => Sys2Proof.Machine.execQStD th rs rb off io s
  | .qLdW th rd rb off io => Sys2Proof.Machine.execQLdW th rd rb off io s
  | .qStW th rs rb off io => Sys2Proof.Machine.execQStW th rs rb off io s
  | .qBeqz th rs off => Sys2Proof.Machine.execQBeqz th rs off s
  | .qBnez th rs off => Sys2Proof.Machine.execQBnez th rs off s
  | .qJmp th off => Sys2Proof.Machine.execQJmp th off s
  | .qJr th rs => Sys2Proof.Machine.execQJr th rs s
  | .qHalt th => Sys2Proof.Machine.execQHalt th s
  | .qNop th => Sys2Proof.Machine.execQNop th s
  | .add th rd rs1 rs2 => Sys2Proof.Machine.execAdd th rd rs1 rs2 s
  | .sub th rd rs1 rs2 => Sys2Proof.Machine.execSub th rd rs1 rs2 s
  | .and th rd rs1 rs2 => Sys2Proof.Machine.execAnd th rd rs1 rs2 s
  | .or th rd rs1 rs2 => Sys2Proof.Machine.execOr th rd rs1 rs2 s
  | .xor th rd rs1 rs2 => Sys2Proof.Machine.execXor th rd rs1 rs2 s
  | .shl th rd rs1 rs2 => Sys2Proof.Machine.execShl th rd rs1 rs2 s
  | .shr th rd rs1 rs2 => Sys2Proof.Machine.execShr th rd rs1 rs2 s
  | .sar th rd rs1 rs2 => Sys2Proof.Machine.execSar th rd rs1 rs2 s
  | .setlt th rd rs1 rs2 => Sys2Proof.Machine.execSetlt th rd rs1 rs2 s
  | .setltu th rd rs1 rs2 => Sys2Proof.Machine.execSetltu th rd rs1 rs2 s
  | .min th rd rs1 rs2 => Sys2Proof.Machine.execMin th rd rs1 rs2 s
  | .max th rd rs1 rs2 => Sys2Proof.Machine.execMax th rd rs1 rs2 s
  | .minu th rd rs1 rs2 => Sys2Proof.Machine.execMinu th rd rs1 rs2 s
  | .maxu th rd rs1 rs2 => Sys2Proof.Machine.execMaxu th rd rs1 rs2 s
  | .addk th rd rs1 imm => Sys2Proof.Machine.execAddk th rd rs1 imm s
  | .andk th rd rs1 imm => Sys2Proof.Machine.execAndk th rd rs1 imm s
  | .ork th rd rs1 imm => Sys2Proof.Machine.execOrk th rd rs1 imm s
  | .xork th rd rs1 imm => Sys2Proof.Machine.execXork th rd rs1 imm s
  | .setltk th rd rs1 imm => Sys2Proof.Machine.execSetltk th rd rs1 imm s
  | .setltuk th rd rs1 imm => Sys2Proof.Machine.execSetltuk th rd rs1 imm s
  | .shlk th rd rs1 sh => Sys2Proof.Machine.execShlk th rd rs1 sh s
  | .shrk th rd rs1 sh => Sys2Proof.Machine.execShrk th rd rs1 sh s
  | .sark th rd rs1 sh => Sys2Proof.Machine.execSark th rd rs1 sh s
  | .ldi th rd imm => Sys2Proof.Machine.execLdi th rd imm s
  | .ldis th rd imm => Sys2Proof.Machine.execLdis th rd imm s
  | .ldB th rd rs1 imm io => Sys2Proof.Machine.execLdB th rd rs1 imm io s
  | .ldH th rd rs1 imm io => Sys2Proof.Machine.execLdH th rd rs1 imm io s
  | .ldW th rd rs1 imm io => Sys2Proof.Machine.execLdW th rd rs1 imm io s
  | .ldD th rd rs1 imm io => Sys2Proof.Machine.execLdD th rd rs1 imm io s
  | .ldBu th rd rs1 imm io => Sys2Proof.Machine.execLdBu th rd rs1 imm io s
  | .ldHu th rd rs1 imm io => Sys2Proof.Machine.execLdHu th rd rs1 imm io s
  | .ldWu th rd rs1 imm io => Sys2Proof.Machine.execLdWu th rd rs1 imm io s
  | .stB th rs2 rs1 imm io => Sys2Proof.Machine.execStB th rs2 rs1 imm io s
  | .stH th rs2 rs1 imm io => Sys2Proof.Machine.execStH th rs2 rs1 imm io s
  | .stW th rs2 rs1 imm io => Sys2Proof.Machine.execStW th rs2 rs1 imm io s
  | .stD th rs2 rs1 imm io => Sys2Proof.Machine.execStD th rs2 rs1 imm io s
  | .beq th rs1 rs2 off => Sys2Proof.Machine.execBeq th rs1 rs2 off s
  | .bne th rs1 rs2 off => Sys2Proof.Machine.execBne th rs1 rs2 off s
  | .blt th rs1 rs2 off => Sys2Proof.Machine.execBlt th rs1 rs2 off s
  | .bge th rs1 rs2 off => Sys2Proof.Machine.execBge th rs1 rs2 off s
  | .bltu th rs1 rs2 off => Sys2Proof.Machine.execBltu th rs1 rs2 off s
  | .bgeu th rs1 rs2 off => Sys2Proof.Machine.execBgeu th rs1 rs2 off s
  | .beqz th rs1 off => Sys2Proof.Machine.execBeqz th rs1 off s
  | .bnez th rs1 off => Sys2Proof.Machine.execBnez th rs1 off s
  | .bany th mask off => Sys2Proof.Machine.execBany th mask off s
  | .bnone th mask off => Sys2Proof.Machine.execBnone th mask off s
  | .call th rd off => Sys2Proof.Machine.execCall th rd off s
  | .callr th rd rs1 imm => Sys2Proof.Machine.execCallr th rd rs1 imm s
  | .halt th => Sys2Proof.Machine.execHalt th s
  | .fence th scope => Sys2Proof.Machine.execFence th scope s
  | .rdsr th rd imm => Sys2Proof.Machine.execRdsr th rd imm s
  | .rpt th rs1 imm => Sys2Proof.Machine.execRpt th rs1 imm s
  | .aadd th rd rs1 rs2 acquire release wide io => Sys2Proof.Machine.execAadd th rd rs1 rs2 acquire release wide io s
  | .amin th rd rs1 rs2 acquire release wide io => Sys2Proof.Machine.execAmin th rd rs1 rs2 acquire release wide io s
  | .amax th rd rs1 rs2 acquire release wide io => Sys2Proof.Machine.execAmax th rd rs1 rs2 acquire release wide io s
  | .aminu th rd rs1 rs2 acquire release wide io => Sys2Proof.Machine.execAminu th rd rs1 rs2 acquire release wide io s
  | .amaxu th rd rs1 rs2 acquire release wide io => Sys2Proof.Machine.execAmaxu th rd rs1 rs2 acquire release wide io s
  | .aand th rd rs1 rs2 acquire release wide io => Sys2Proof.Machine.execAand th rd rs1 rs2 acquire release wide io s
  | .aor th rd rs1 rs2 acquire release wide io => Sys2Proof.Machine.execAor th rd rs1 rs2 acquire release wide io s
  | .axor th rd rs1 rs2 acquire release wide io => Sys2Proof.Machine.execAxor th rd rs1 rs2 acquire release wide io s
  | .aswap th rd rs1 rs2 acquire release wide io => Sys2Proof.Machine.execAswap th rd rs1 rs2 acquire release wide io s
  | .acas th rd rs1 rs2 acquire release wide io => Sys2Proof.Machine.execAcas th rd rs1 rs2 acquire release wide io s
  | .afadd th rd rs1 rs2 acquire release wide io => Sys2Proof.Machine.execAfadd th rd rs1 rs2 acquire release wide io s
  | .afmin th rd rs1 rs2 acquire release wide io => Sys2Proof.Machine.execAfmin th rd rs1 rs2 acquire release wide io s
  | .afmax th rd rs1 rs2 acquire release wide io => Sys2Proof.Machine.execAfmax th rd rs1 rs2 acquire release wide io s
  | .abfadd2 th rd rs1 rs2 acquire release wide io => Sys2Proof.Machine.execAbfadd2 th rd rs1 rs2 acquire release wide io s
  | .mul th rd rs1 rs2 => Sys2Proof.Machine.execMul th rd rs1 rs2 s
  | .mulhs th rd rs1 rs2 => Sys2Proof.Machine.execMulhs th rd rs1 rs2 s
  | .mulhu th rd rs1 rs2 => Sys2Proof.Machine.execMulhu th rd rs1 rs2 s
  | .divs th rd rs1 rs2 => Sys2Proof.Machine.execDivs th rd rs1 rs2 s
  | .divu th rd rs1 rs2 => Sys2Proof.Machine.execDivu th rd rs1 rs2 s
  | .rems th rd rs1 rs2 => Sys2Proof.Machine.execRems th rd rs1 rs2 s
  | .remu th rd rs1 rs2 => Sys2Proof.Machine.execRemu th rd rs1 rs2 s
  | .vadd th type rnd zm mask vs2 vs1 vd => Sys2Proof.Machine.execVadd th type rnd zm mask vs2 vs1 vd s
  | .vsub th type rnd zm mask vs2 vs1 vd => Sys2Proof.Machine.execVsub th type rnd zm mask vs2 vs1 vd s
  | .vmul th type rnd zm mask vs2 vs1 vd => Sys2Proof.Machine.execVmul th type rnd zm mask vs2 vs1 vd s
  | .vfma th type rnd zm mask vs2 vs1 vd => Sys2Proof.Machine.execVfma th type rnd zm mask vs2 vs1 vd s
  | .vmin th type rnd zm mask vs2 vs1 vd => Sys2Proof.Machine.execVmin th type rnd zm mask vs2 vs1 vd s
  | .vmax th type rnd zm mask vs2 vs1 vd => Sys2Proof.Machine.execVmax th type rnd zm mask vs2 vs1 vd s
  | .vminu th type rnd zm mask vs2 vs1 vd => Sys2Proof.Machine.execVminu th type rnd zm mask vs2 vs1 vd s
  | .vmaxu th type rnd zm mask vs2 vs1 vd => Sys2Proof.Machine.execVmaxu th type rnd zm mask vs2 vs1 vd s
  | .vand th type rnd zm mask vs2 vs1 vd => Sys2Proof.Machine.execVand th type rnd zm mask vs2 vs1 vd s
  | .vor th type rnd zm mask vs2 vs1 vd => Sys2Proof.Machine.execVor th type rnd zm mask vs2 vs1 vd s
  | .vxor th type rnd zm mask vs2 vs1 vd => Sys2Proof.Machine.execVxor th type rnd zm mask vs2 vs1 vd s
  | .vsll th type rnd zm mask vs2 vs1 vd => Sys2Proof.Machine.execVsll th type rnd zm mask vs2 vs1 vd s
  | .vsrl th type rnd zm mask vs2 vs1 vd => Sys2Proof.Machine.execVsrl th type rnd zm mask vs2 vs1 vd s
  | .vsra th type rnd zm mask vs2 vs1 vd => Sys2Proof.Machine.execVsra th type rnd zm mask vs2 vs1 vd s
  | .vdiv th type rnd zm mask vs2 vs1 vd => Sys2Proof.Machine.execVdiv th type rnd zm mask vs2 vs1 vd s
  | .vsqrt th type rnd zm mask vs1 vd => Sys2Proof.Machine.execVsqrt th type rnd zm mask vs1 vd s
  | .vabs th type rnd zm mask vs1 vd => Sys2Proof.Machine.execVabs th type rnd zm mask vs1 vd s
  | .vneg th type rnd zm mask vs1 vd => Sys2Proof.Machine.execVneg th type rnd zm mask vs1 vd s
  | .vredsum th type rnd zm mask vs1 vd => Sys2Proof.Machine.execVredsum th type rnd zm mask vs1 vd s
  | .vredmax th type rnd zm mask vs1 vd => Sys2Proof.Machine.execVredmax th type rnd zm mask vs1 vd s
  | .vredmin th type rnd zm mask vs1 vd => Sys2Proof.Machine.execVredmin th type rnd zm mask vs1 vd s
  | .vsel th type rnd zm mask vs2 vs1 vd => Sys2Proof.Machine.execVsel th type rnd zm mask vs2 vs1 vd s
  | .vaddS th type rnd zm mask rs vs1 vd => Sys2Proof.Machine.execVaddS th type rnd zm mask rs vs1 vd s
  | .vsubS th type rnd zm mask rs vs1 vd => Sys2Proof.Machine.execVsubS th type rnd zm mask rs vs1 vd s
  | .vmulS th type rnd zm mask rs vs1 vd => Sys2Proof.Machine.execVmulS th type rnd zm mask rs vs1 vd s
  | .vfmaS th type rnd zm mask rs vs1 vd => Sys2Proof.Machine.execVfmaS th type rnd zm mask rs vs1 vd s
  | .vminS th type rnd zm mask rs vs1 vd => Sys2Proof.Machine.execVminS th type rnd zm mask rs vs1 vd s
  | .vmaxS th type rnd zm mask rs vs1 vd => Sys2Proof.Machine.execVmaxS th type rnd zm mask rs vs1 vd s
  | .vbcast th type rnd zm mask rs vd => Sys2Proof.Machine.execVbcast th type rnd zm mask rs vd s
  | .vsllS th type rnd zm mask rs vs1 vd => Sys2Proof.Machine.execVsllS th type rnd zm mask rs vs1 vd s
  | .vsrlS th type rnd zm mask rs vs1 vd => Sys2Proof.Machine.execVsrlS th type rnd zm mask rs vs1 vd s
  | .vsraS th type rnd zm mask rs vs1 vd => Sys2Proof.Machine.execVsraS th type rnd zm mask rs vs1 vd s
  | .veq th type rnd zm mask vs2 vs1 md => Sys2Proof.Machine.execVeq th type rnd zm mask vs2 vs1 md s
  | .vne th type rnd zm mask vs2 vs1 md => Sys2Proof.Machine.execVne th type rnd zm mask vs2 vs1 md s
  | .vlt th type rnd zm mask vs2 vs1 md => Sys2Proof.Machine.execVlt th type rnd zm mask vs2 vs1 md s
  | .vle th type rnd zm mask vs2 vs1 md => Sys2Proof.Machine.execVle th type rnd zm mask vs2 vs1 md s
  | .vltu th type rnd zm mask vs2 vs1 md => Sys2Proof.Machine.execVltu th type rnd zm mask vs2 vs1 md s
  | .vleu th type rnd zm mask vs2 vs1 md => Sys2Proof.Machine.execVleu th type rnd zm mask vs2 vs1 md s
  | .vld th type off mask zm rs1 vd io => Sys2Proof.Machine.execVld th type off mask zm rs1 vd io s
  | .vst th type off mask zm rs1 vd io => Sys2Proof.Machine.execVst th type off mask zm rs1 vd io s
  | .vldb th type off mask zm rs1 vd io => Sys2Proof.Machine.execVldb th type off mask zm rs1 vd io s
  | .vaadd th type off mask zm rs1 vd io => Sys2Proof.Machine.execVaadd th type off mask zm rs1 vd io s
  | .vcvt th type rnd zm mask src vs1 vd => Sys2Proof.Machine.execVcvt th type rnd zm mask src vs1 vd s
  | .vmxpk th type rnd zm mask src vs1 vd => Sys2Proof.Machine.execVmxpk th type rnd zm mask src vs1 vd s
  | .vmxunpk th type rnd zm mask src vs1 vd => Sys2Proof.Machine.execVmxunpk th type rnd zm mask src vs1 vd s
  | .mand th md ma mb => Sys2Proof.Machine.execMand th md ma mb s
  | .mor th md ma mb => Sys2Proof.Machine.execMor th md ma mb s
  | .mxor th md ma mb => Sys2Proof.Machine.execMxor th md ma mb s
  | .mandn th md ma mb => Sys2Proof.Machine.execMandn th md ma mb s
  | .mpop th rd ma => Sys2Proof.Machine.execMpop th rd ma s
  | .mfirst th rd ma => Sys2Proof.Machine.execMfirst th rd ma s
  | .mfroms th md rs1 => Sys2Proof.Machine.execMfroms th md rs1 s
  | .mtos th rd ma => Sys2Proof.Machine.execMtos th rd ma s
  | .vext th type lane sr vr => Sys2Proof.Machine.execVext th type lane sr vr s
  | .vins th type lane sr vr => Sys2Proof.Machine.execVins th type lane sr vr s
  | .vidx th type vr => Sys2Proof.Machine.execVidx th type vr s
  | .movs th size rc r1 r0 io => Sys2Proof.Machine.execMovs th size rc r1 r0 io s
  | .fills th size rc r1 r0 io => Sys2Proof.Machine.execFills th size rc r1 r0 io s
  | .cmps th size rc r1 r0 io => Sys2Proof.Machine.execCmps th size rc r1 r0 io s
  | .scans th size rc cond r1 r0 io => Sys2Proof.Machine.execScans th size rc cond r1 r0 io s
  | .gath th wide size rc r2 r1 r0 io => Sys2Proof.Machine.execGath th wide size rc r2 r1 r0 io s
  | .nvmeSqDoorbell fn sq tail entries => Sys2Proof.Machine.execNvmeSqDoorbell fn sq tail entries s
  | .nvmeCqDoorbell fn cq head => Sys2Proof.Machine.execNvmeCqDoorbell fn cq head s
  | .controllerReset fn enable asq asqSize acq acqSize => Sys2Proof.Machine.execControllerReset fn enable asq asqSize acq acqSize s
  | .deleteIoSq fn cmd => Sys2Proof.Machine.execDeleteIoSq fn cmd s
  | .deleteIoCq fn cmd => Sys2Proof.Machine.execDeleteIoCq fn cmd s
  | .createIoSq fn cmd => Sys2Proof.Machine.execCreateIoSq fn cmd s
  | .createIoCq fn cmd => Sys2Proof.Machine.execCreateIoCq fn cmd s
  | .getLogPage fn cmd => Sys2Proof.Machine.execGetLogPage fn cmd s
  | .identify fn cmd => Sys2Proof.Machine.execIdentify fn cmd s
  | .abort fn cmd => Sys2Proof.Machine.execAbort fn cmd s
  | .setFeatures fn cmd => Sys2Proof.Machine.execSetFeatures fn cmd s
  | .setFeaturesPowerManagement fn cmd => Sys2Proof.Machine.execSetFeaturesPowerManagement fn cmd s
  | .powerStateIdle fn => Sys2Proof.Machine.execPowerStateIdle fn s
  | .powerStateAbandon fn => Sys2Proof.Machine.execPowerStateAbandon fn s
  | .getFeatures fn cmd => Sys2Proof.Machine.execGetFeatures fn cmd s
  | .asynchronousEventRequest fn cmd => Sys2Proof.Machine.execAsynchronousEventRequest fn cmd s
  | .formatNvm fn cmd => Sys2Proof.Machine.execFormatNvm fn cmd s
  | .sanitizeExitFailure fn cmd => Sys2Proof.Machine.execSanitizeExitFailure fn cmd s
  | .sanitizeBlockErase fn cmd => Sys2Proof.Machine.execSanitizeBlockErase fn cmd s
  | .sanitizeOverwrite fn cmd => Sys2Proof.Machine.execSanitizeOverwrite fn cmd s
  | .sanitizeCryptoErase fn cmd => Sys2Proof.Machine.execSanitizeCryptoErase fn cmd s
  | .sanitizeProgress nsid ok => Sys2Proof.Machine.execSanitizeProgress nsid ok s
  | .flushNvm fn sq cmd => Sys2Proof.Machine.execFlushNvm fn sq cmd s
  | .nvmeWrite fn sq cmd io => Sys2Proof.Machine.execNvmeWrite fn sq cmd io s
  | .nvmeRead fn sq cmd io => Sys2Proof.Machine.execNvmeRead fn sq cmd io s
  | .compare fn sq cmd io => Sys2Proof.Machine.execCompare fn sq cmd io s
  | .writeZeroes fn sq cmd io => Sys2Proof.Machine.execWriteZeroes fn sq cmd io s
  | .datasetManagement fn sq cmd io => Sys2Proof.Machine.execDatasetManagement fn sq cmd io s
  | .verify fn sq cmd io => Sys2Proof.Machine.execVerify fn sq cmd io s
  | .rangeLockGrant op => Sys2Proof.Machine.execRangeLockGrant op s
  | .journalDurable op => Sys2Proof.Machine.execJournalDurable op s
  | .inPlaceWriteDone op writeFail => Sys2Proof.Machine.execInPlaceWriteDone op writeFail s
  | .legFailed nsid leg ssd => Sys2Proof.Machine.execLegFailed nsid leg ssd s
  | .legReturn nsid leg ssd => Sys2Proof.Machine.execLegReturn nsid leg ssd s
  | .resyncPiece nsid leg => Sys2Proof.Machine.execResyncPiece nsid leg s
  | .ethernetFrameRx sub frame full corrected uncorrectable => Sys2Proof.Machine.execEthernetFrameRx sub frame full corrected uncorrectable s
  | .linkUp sub speed laneMask inverted partner => Sys2Proof.Machine.execLinkUp sub speed laneMask inverted partner s
  | .linkDown sub => Sys2Proof.Machine.execLinkDown sub s
  | .linkDownHoldExpiry sub => Sys2Proof.Machine.execLinkDownHoldExpiry sub s
  | .serviceTimerExpiry sub => Sys2Proof.Machine.execServiceTimerExpiry sub s
  | .laneTrainingFailed port lane => Sys2Proof.Machine.execLaneTrainingFailed port lane s
  | .laneIdentityFound port order => Sys2Proof.Machine.execLaneIdentityFound port order s
  | .txTail fn qp index slots => Sys2Proof.Machine.execTxTail fn qp index slots s
  | .rxTail fn qp index slots => Sys2Proof.Machine.execRxTail fn qp index slots s
  | .nicCqHead fn qp index => Sys2Proof.Machine.execNicCqHead fn qp index s
  | .nicTransmit fn qp => Sys2Proof.Machine.execNicTransmit fn qp s
  | .transmissionSlot sub => Sys2Proof.Machine.execTransmissionSlot sub s
  | .gateListTakeEffect sub => Sys2Proof.Machine.execGateListTakeEffect sub s
  | .samplerInterval sampler => Sys2Proof.Machine.execSamplerInterval sampler s
  | .grtSqTail wq index slots => Sys2Proof.Machine.execGrtSqTail wq index slots s
  | .grtCqHead wq index => Sys2Proof.Machine.execGrtCqHead wq index s
  | .grtWrite wq wr data => Sys2Proof.Machine.execGrtWrite wq wr data s
  | .grtWriteNotify wq wr data => Sys2Proof.Machine.execGrtWriteNotify wq wr data s
  | .grtRead wq wr data => Sys2Proof.Machine.execGrtRead wq wr data s
  | .ctrAdd wq wr => Sys2Proof.Machine.execCtrAdd wq wr s
  | .grtNop wq wr => Sys2Proof.Machine.execGrtNop wq wr s
  | .triggerFire wq => Sys2Proof.Machine.execTriggerFire wq s
  | .grtRxWrite pkt tagOk refused => Sys2Proof.Machine.execGrtRxWrite pkt tagOk refused s
  | .grtRxReadReq pkt data => Sys2Proof.Machine.execGrtRxReadReq pkt data s
  | .grtRxReadResp pkt tagOk => Sys2Proof.Machine.execGrtRxReadResp pkt tagOk s
  | .grtRxAck pkt => Sys2Proof.Machine.execGrtRxAck pkt s
  | .grtRxNak pkt => Sys2Proof.Machine.execGrtRxNak pkt s
  | .grtRxHello pkt => Sys2Proof.Machine.execGrtRxHello pkt s
  | .grtRxClose pkt => Sys2Proof.Machine.execGrtRxClose pkt s
  | .helloRetry conn => Sys2Proof.Machine.execHelloRetry conn s
  | .connectingTimeout conn => Sys2Proof.Machine.execConnectingTimeout conn s
  | .ackDelayExpiry conn => Sys2Proof.Machine.execAckDelayExpiry conn s
  | .retransmitTimeout conn psn => Sys2Proof.Machine.execRetransmitTimeout conn psn s
  | .retryAfterExpiry conn psn => Sys2Proof.Machine.execRetryAfterExpiry conn psn s
  | .pathExclusionExpiry conn path => Sys2Proof.Machine.execPathExclusionExpiry conn path s
  | .persistDurable conn msn ok => Sys2Proof.Machine.execPersistDurable conn msn ok s
  | .revocationDrained rkey => Sys2Proof.Machine.execRevocationDrained rkey s
  | .flr fn => Sys2Proof.Machine.execFlr fn s
  | .perstN hostPort asserted => Sys2Proof.Machine.execPerstN hostPort asserted s
  | .secondaryBusReset block link => Sys2Proof.Machine.execSecondaryBusReset block link s
  | .acceleratorLinkReset block link => Sys2Proof.Machine.execAcceleratorLinkReset block link s
  | .linkTraining block link width speed flit reversed polarity => Sys2Proof.Machine.execLinkTraining block link width speed flit reversed polarity s
  | .numvfsWrite fn count => Sys2Proof.Machine.execNumvfsWrite fn count s
  | .vfEnable fn enable => Sys2Proof.Machine.execVfEnable fn enable s
  | .dStateChange fn state pme => Sys2Proof.Machine.execDStateChange fn state pme s
  | .wakeEvent fn kind => Sys2Proof.Machine.execWakeEvent fn kind s
  | .apertureAccess hostPort offset length write faults => Sys2Proof.Machine.execApertureAccess hostPort offset length write faults s
  | .windowAccess hostPort offset width write => Sys2Proof.Machine.execWindowAccess hostPort offset width write s
  | .aptWrite hostPort entry value => Sys2Proof.Machine.execAptWrite hostPort entry value s
  | .queueRegionAccess hostPort offset length write => Sys2Proof.Machine.execQueueRegionAccess hostPort offset length write s
  | .ideTlpRx hp stream tlps macOk => Sys2Proof.Machine.execIdeTlpRx hp stream tlps macOk s
  | .spdmGetVersion mailbox peer => Sys2Proof.Machine.execSpdmGetVersion mailbox peer s
  | .spdmGetCapabilities mailbox peer version => Sys2Proof.Machine.execSpdmGetCapabilities mailbox peer version s
  | .spdmNegotiateAlgorithms mailbox peer agreed => Sys2Proof.Machine.execSpdmNegotiateAlgorithms mailbox peer agreed s
  | .spdmGetDigests mailbox peer => Sys2Proof.Machine.execSpdmGetDigests mailbox peer s
  | .spdmGetCertificate mailbox peer slot offset length => Sys2Proof.Machine.execSpdmGetCertificate mailbox peer slot offset length s
  | .spdmChallenge mailbox peer slot nonce => Sys2Proof.Machine.execSpdmChallenge mailbox peer slot nonce s
  | .spdmGetMeasurements mailbox peer index signed nonce => Sys2Proof.Machine.execSpdmGetMeasurements mailbox peer index signed nonce s
  | .spdmKeyExchange mailbox peer slot exchange => Sys2Proof.Machine.execSpdmKeyExchange mailbox peer slot exchange s
  | .spdmFinish mailbox peer session verified => Sys2Proof.Machine.execSpdmFinish mailbox peer session verified s
  | .spdmKeyUpdate mailbox peer session operation => Sys2Proof.Machine.execSpdmKeyUpdate mailbox peer session operation s
  | .spdmHeartbeat mailbox peer session => Sys2Proof.Machine.execSpdmHeartbeat mailbox peer session s
  | .spdmEndSession mailbox peer session => Sys2Proof.Machine.execSpdmEndSession mailbox peer session s
  | .ideKm mailbox peer session stream message key => Sys2Proof.Machine.execIdeKm mailbox peer session stream message key s
  | .alarm source => Sys2Proof.Machine.execAlarm source s
  | .sealedCopiesErased => Sys2Proof.Machine.execSealedCopiesErased s
  | .cxAlarmClear who value => Sys2Proof.Machine.execCxAlarmClear who value s
  | .errAckAck who block seq => Sys2Proof.Machine.execErrAckAck who block seq s
  | .errAckClear who block seq withAck => Sys2Proof.Machine.execErrAckClear who block seq withAck s
  | .isolatedBlockReturn block => Sys2Proof.Machine.execIsolatedBlockReturn block s
  | .escalationTimerExpiry block => Sys2Proof.Machine.execEscalationTimerExpiry block s
  | .cntSelWrite who block counter value => Sys2Proof.Machine.execCntSelWrite who block counter value s
  | .unmappedAccess access isCsr isWrite => Sys2Proof.Machine.execUnmappedAccess access isCsr isWrite s
  | .csrWrite who target value => Sys2Proof.Machine.execCsrWrite who target value s
  | .coldReset kind straps densities untrained cxl aonKept stewardOk => Sys2Proof.Machine.execColdReset kind straps densities untrained cxl aonKept stewardOk s
  | .warmReset kind stewardOk => Sys2Proof.Machine.execWarmReset kind stewardOk s
  | .imageVerified network => Sys2Proof.Machine.execImageVerified network s
  | .networkFetchTimeout => Sys2Proof.Machine.execNetworkFetchTimeout s
  | .startComplete => Sys2Proof.Machine.execStartComplete s
  | .startWatchdogExpiry => Sys2Proof.Machine.execStartWatchdogExpiry s
  | .glStartCtlWrite who value => Sys2Proof.Machine.execGlStartCtlWrite who value s
  | .packagePowerLoop milliwatts temps => Sys2Proof.Machine.execPackagePowerLoop milliwatts temps s
  | .temperatureLoop temps => Sys2Proof.Machine.execTemperatureLoop temps s
  | .dvfsGovernor island occupancy => Sys2Proof.Machine.execDvfsGovernor island occupancy s
  | .thermalThrottle island => Sys2Proof.Machine.execThermalThrottle island s
  | .thermalTrip island => Sys2Proof.Machine.execThermalTrip island s
  | .currentLimiterEngage => Sys2Proof.Machine.execCurrentLimiterEngage s
  | .currentLimiterRelease => Sys2Proof.Machine.execCurrentLimiterRelease s
  | .fallbackGovernorTakeover => Sys2Proof.Machine.execFallbackGovernorTakeover s
  | .fallbackGovernorTick milliwatts => Sys2Proof.Machine.execFallbackGovernorTick milliwatts s
  | .diodeRead millivolts temp => Sys2Proof.Machine.execDiodeRead millivolts temp s
  | .throttleN asserted => Sys2Proof.Machine.execThrottleN asserted s
  | .standbyEntry => Sys2Proof.Machine.execStandbyEntry s
  | .inputChange input active => Sys2Proof.Machine.execInputChange input active s
  | .inputRateReread input active => Sys2Proof.Machine.execInputRateReread input active s
  | .inputStuck input => Sys2Proof.Machine.execInputStuck input s
  | .inputUnstuck input => Sys2Proof.Machine.execInputUnstuck input s
  | .tamperN asserted => Sys2Proof.Machine.execTamperN asserted s
  | .padContention group => Sys2Proof.Machine.execPadContention group s
  | .pwrOkFall => Sys2Proof.Machine.execPwrOkFall s
  | .icpRingEnable fn => Sys2Proof.Machine.execIcpRingEnable fn s
  | .undefinedEncoding th word => Sys2Proof.Machine.execUndefinedEncoding th word s
  | .fetchFault th => Sys2Proof.Machine.execFetchFault th s
  | .journalSsdFailed ssd => Sys2Proof.Machine.execJournalSsdFailed ssd s
  | .journalSsdReturn ssd => Sys2Proof.Machine.execJournalSsdReturn ssd s
  | .referenceClockLost island => Sys2Proof.Machine.execReferenceClockLost island s
  | .railOutOfRange rail millivolts => Sys2Proof.Machine.execRailOutOfRange rail millivolts s
  | .stewardCoreFailed core => Sys2Proof.Machine.execStewardCoreFailed core s
  | .faultNMinimumHoldExpiry => Sys2Proof.Machine.execFaultNMinimumHoldExpiry s
  | .interruptCoalescingExpiry fn vector => Sys2Proof.Machine.execInterruptCoalescingExpiry fn vector s
  | .rocev2Cnp conn => Sys2Proof.Machine.execRocev2Cnp conn s
  | .liveActivationResume => Sys2Proof.Machine.execLiveActivationResume s
  | .flrComplete fn => Sys2Proof.Machine.execFlrComplete fn s
  | .diagRunEnd outcomes => Sys2Proof.Machine.execDiagRunEnd outcomes s
  | .hardwareThrottleStep island below98 => Sys2Proof.Machine.execHardwareThrottleStep island below98 s
  | .inputGlitch input => Sys2Proof.Machine.execInputGlitch input s

end Sys2Proof.Machine
end

