-- ==== Sys2Proof/Machine/Tick.lean ====
section
/-! DEFINITION. What a tick does when no command waits: time passes on every island, counters count, and ICP work that can go on does (R635, R638; log 3). -/

namespace Sys2Proof.Machine

open Sys2Proof

/-- Islands whose clocks run: after a thermal trip the always-on domain's only (R689). -/
def clockedIslands (s : State) : List Nat := if s.pwr.tripped then [0x50] else allIslands

/-- The counter of an island moves on. -/
def tickIsland (s : State) (isl : Nat) : State := s.setTime (put s.time isl (now s isl + Config.tickNs isl s.draw))

/-- The occupancies that counters can watch: block, event, unit and present value (R639). -/
def occupancies (s : State) : List (Nat × Nat × Option Nat × Nat) :=
  [(blkTable, 0x102, none, (s.tab.cqps.map (fun e => e.2.running.length)).sum),
   (blkCourse, 0x102, none, if s.course.run.isSome then (crun s).spill.length else 0),
   (blkStorage, 0x101, none, (s.sto.ops.filter (fun o => o.phase == .entry || o.phase == .lock)).length),
   (blkTransport, 0x102, none, trackUsed s)]
  ++ (s.pp.en.map (fun e => e.2.subs.zipIdx.map (fun x => (blkEn e.1, 0x100, some x.2, (x.1.queues.map queueBytes).sum)))).flatten

/-- A slot kind of a core is classed over the cycles of a tick: what issued was retired or wasted, as many cycles as there were instructions; in the
rest the slot was back-starved where some thread's next instruction belongs to it, else front-starved (R642). Which cycles those were is not modelled:
for OVER, EDGE and MAX of all cores together the count is a free value. -/
def classSlots (p c n : Nat) (vec : Bool) (s : State) : State :=
  let k := (p * 32 + c) * 2 + bit vec
  let u := lookD s.mason.slots k (0, 0)
  let r := min u.1 n
  let w := min u.2 (n - r)
  let waits := s.mason.threads.any (fun e => decide (physOf s e.1 = some (p, c)) && (match tctx s e.1 with
    | some x => nextIsVector s x == vec
    | none => false))
  let all := fun (m : Nat) (x : PerfCtr) => if x.unit = 0x1F ∧ x.mode ≠ 0 then { x with count := Config.freeNat (s.draw + k) % 2 ^ 48 } else countPerf 1 m x
  let count := fun (ev m : Nat) (s : State) => if m = 0 then s else perfWith (blkCluster p) (ev + bit vec) (some c) (all m) s
  let s := s.setMason { s.mason with slots := put s.mason.slots k (u.1 - r, u.2 - w) }
  count (if waits then 0x106 else 0x104) (n - r - w) (count 0x102 w (count 0x100 r s))

/-- Both slot kinds of every active core of a cluster in use are classed; spare and spared-out cores count nothing. -/
def tickSlots (cyc : Nat → Nat) (s : State) : State :=
  (s.mason.units.filter (fun e => decide (e.2.logical < 16))).foldl (fun s e =>
    ((List.range 17).filter (fun c => e.2.active.testBit c && e.2.cores.contains c)).foldl (fun s c =>
      classSlots e.1 c (cyc (blkCluster e.1)) true (classSlots e.1 c (cyc (blkCluster e.1)) false s)) s) s

/-- Counters count the cycles of a tick, and the occupancies over them. -/
def tickPerf (s : State) : State :=
  let cyc := fun (b : Nat) => Config.tickCycles (blkIsland b) s.draw
  let t := (List.range 61).foldl (fun t b => perfLevel b 0 none 1 (cyc b) t) s
  tickSlots cyc ((occupancies s).foldl (fun t o => perfLevel o.1 o.2.1 o.2.2.1 o.2.2.2 (cyc o.1) t) t)

/-- A tick. -/
def tick (s : State) : State := icpWake (drawn ((clockedIslands s).foldl tickIsland (if s.perf.isEmpty then s else tickPerf s)))

end Sys2Proof.Machine
end

