-- ==== Sys2Proof/Safety.lean ====
section
/-! DEFINITION. What counts as a sound state and a safe run: the invariants that every step keeps, and the conditions and results in whose terms claims are stated. -/

namespace Sys2Proof.Machine

open Sys2Proof

/-! ### Sound states -/

/-- Memory is in its canonical form: addresses strictly rising, and no entry equal to what an unlisted address reads as. -/
def memOk (s : State) : Prop := Memory.wf s.mem.cells = true

/-- The fields of an error header hold what its registers can show (R621). -/
def errOk (h : ErrHdr) : Prop := h.seq < 16 ∧ h.cls ≤ 3 ∧ h.corCount ≤ 65535 ∧ h.conCount ≤ 255 ∧ h.fatCount ≤ 255 ∧ h.ovfCount ≤ 65535

/-! ### Running an instruction of the mason array -/

/-- The slot of a thread runs an item, and an instruction of `len` bytes at its pc lies within W0 (R200). -/
def Issues (s : State) (th len : Nat) (c : TCtx) : Prop := tctx s th = some c ∧ c.t.pc.toNat + len ≤ c.k.codeLen

/-- The next state in which the thread stands as `t`, past an instruction of `len` bytes of the scalar slot, which has retired it; nothing else has
changed. -/
def ran (s : State) (th len : Nat) (t : Thread) : Ran := .next (setThread th (advance len t) (slotUsed false false th s))

/-- The same past an instruction of the vector slot. -/
def ranV (s : State) (th len : Nat) (t : Thread) : Ran := .next (setThread th (advance len t) (slotUsed true false th s))

/-- The next state in which the thread has jumped, its instruction retired, and nothing else has changed. -/
def jumped (s : State) (th : Nat) (target : SReg) (t : Thread) : Ran := .next (setThread th (jumpTo target t) (slotUsed false false th s))

/-- The next state in which the thread's item has ended with a fault of a kind (R180), its instruction wasted in the scalar slot. -/
def faulted (s : State) (c : TCtx) (kind : Nat) : Ran := .next (endItem c (some kind) (slotUsed false true c.th s))

/-- The same for an instruction of the vector slot. -/
def faultedV (s : State) (c : TCtx) (kind : Nat) : Ran := .next (endItem c (some kind) (slotUsed true true c.th s))

/-- The next state in which the thread's item has ended with a fault of a kind without an instruction having issued. -/
def ended (s : State) (c : TCtx) (kind : Nat) : Ran := .next (endItem c (some kind) s)

/-! ### Elements of a string instruction (R224, R228) -/

/-- `n` elements, numbered from `i`, have run one after another. -/
def Elements (elem : Nat → Thread → State → Thread → State → Prop) : Nat → Nat → Thread → State → Thread → State → Prop
  | 0, _, t, s, t', s' => t' = t ∧ s' = s
  | n + 1, i, t, s, t', s' => ∃ t1 s1, elem i t s t1 s1 ∧ Elements elem n (i + 1) t1 s1 t' s'

/-- One element of movs: loaded, stored, registers advanced. -/
def movsElem (c : TCtx) (e : Nat) (rc r1 r0 : Fin 32) (io : MemIo) (i : Nat) (t : Thread) (s : State) (t' : Thread) (s' : State) : Prop :=
  ∃ bs s1, loadMem c (getS t r1) e (ioPart io i e) (ioFails io i) s = .ok bs s1 ∧
    storeMem c (getS t r0) bs (ioFails io i) s1 = .ok () s' ∧ t' = countDown rc (bump64 r1 e (bump64 r0 e t))

/-- One element of fills: the low bytes of r1 stored, r0 advanced. -/
def fillsElem (c : TCtx) (e : Nat) (rc r1 r0 : Fin 32) (io : MemIo) (i : Nat) (t : Thread) (s : State) (t' : Thread) (s' : State) : Prop :=
  storeMem c (getS t r0) (leBytes e (getS t r1).toNat) (ioFails io i) s = .ok () s' ∧ t' = countDown rc (bump64 r0 e t)

/-- One element of gath: the index loaded, the element it selects loaded and stored, registers advanced. -/
def gathElem (c : TCtx) (w e : Nat) (rc r2 r1 r0 : Fin 32) (io : MemIo) (i : Nat) (t : Thread) (s : State) (t' : Thread) (s' : State) : Prop :=
  ∃ ix bs s1 s2, loadMem c (getS t r1) w (ioPart io i w) (ioFails io i) s = .ok ix s1 ∧
    loadMem c (getS t r2 + BitVec.ofNat 64 (leVal ix * e)) e ((io.elems.drop (i * e)).take e) (ioFails io i) s1 = .ok bs s2 ∧
    storeMem c (getS t r0) bs (ioFails io i) s2 = .ok () s' ∧ t' = countDown rc (bump64 r1 w (bump64 r0 e t))

/-- One element of cmps: both strings loaded, and found equal or not. -/
def cmpsElem (c : TCtx) (e : Nat) (rc r1 r0 : Fin 32) (io : MemIo) (same : Bool) (i : Nat) (t : Thread) (s : State) (t' : Thread) (s' : State) :
    Prop :=
  ∃ a b s1, loadMem c (getS t r0) e (ioPart io i e) (ioFails io i) s = .ok a s1 ∧
    loadMem c (getS t r1) e ((io.elems.drop (i * e)).take e) (ioFails io i) s1 = .ok b s' ∧ decide (a = b) = same ∧
    t' = countDown rc (bump64 r1 e (bump64 r0 e t))

/-- One element of scans: the string loaded, and equal to the value or not. -/
def scansElem (c : TCtx) (e : Nat) (rc r1 r0 : Fin 32) (io : MemIo) (hit : Bool) (i : Nat) (t : Thread) (s : State) (t' : Thread) (s' : State) :
    Prop :=
  ∃ a, loadMem c (getS t r0) e (ioPart io i e) (ioFails io i) s = .ok a s' ∧ decide (a = leBytes e (getS t r1).toNat) = hit ∧
    t' = countDown rc (bump64 r0 e t)

/-! ### Vector results -/

/-- Something done for each of some lanes in turn takes one state to another. -/
def InTurn (f : Nat → State → State → Prop) : List Nat → State → State → Prop
  | [], s, s' => s' = s
  | k :: r, s, s' => ∃ s1, f k s s1 ∧ InTurn f r s1 s'

/-- The outcome is the next state in which the thread goes on with vd written lane by lane under a mask, in `s` otherwise as given (R232). -/
def LanesWritten (s : State) (th : Nat) (t : Thread) (w : Nat) (zm : Bool) (mask : Fin 8) (vd : Fin 16) (f : Nat → Nat) (r : Ran) : Prop :=
  ∃ v : VReg, r = ranV s th 4 (setV vd v t) ∧
    ∀ k < 512 / w, lane w v k = if (getM t mask).getLsbD k then f k else if zm then 0 else lane w (getV t vd) k

/-! ### Recorded errors (R622) -/

/-- The four words of ERR_INFO that an error with these values latches. -/
def infoOf (info : List Nat) : List Nat := (info.map (· % 2 ^ 32) ++ [0, 0, 0, 0]).take 4

/-- Between two states an error of a class (1 COR, 2 CON, 3 FAT) and source has been recorded in a block: latched where the header held none,
else counted as overflow; seen and counted by its class. -/
def Recorded (s t : State) (b cls src : Nat) (info : List Nat) : Prop :=
  let h := errOf s b
  let h' := errOf t b
  (h.valid = false → h'.valid = true ∧ h'.fcls = cls ∧ h'.source = src ∧ h'.info = infoOf info ∧ h'.firstTime = stamp s b ∧
    h'.seq = (h.seq + 1) % 16 ∧ h'.ovf = h.ovf ∧ h'.ovfCount = h.ovfCount) ∧
  (h.valid = true → h'.valid = true ∧ h'.fcls = h.fcls ∧ h'.source = h.source ∧ h'.info = h.info ∧ h'.firstTime = h.firstTime ∧
    h'.seq = h.seq ∧ h'.ovf = true ∧ h'.highest = max h.highest cls ∧ h'.ovfCount = min 65535 (h.ovfCount + 1)) ∧
  h'.corSeen = (h.corSeen || cls == 1) ∧ h'.conSeen = (h.conSeen || cls == 2) ∧ h'.fatSeen = (h.fatSeen || cls == 3) ∧
  h'.corCount = (if cls = 1 then min 65535 (h.corCount + 1) else h.corCount) ∧
  h'.conCount = (if cls = 2 then min 255 (h.conCount + 1) else h.conCount) ∧
  h'.fatCount = (if cls = 3 then min 255 (h.fatCount + 1) else h.fatCount)

/-! ### Running a command of ICP (R54, R58, R61, R72) -/

/-- The packet of an opcode as the part has it once it has come off its transport: from a ring with the index after its fetch (R57). -/
def taken (op : Nat) (via : Via) (pkt : IcpPkt) (s : State) : IcpPkt :=
  match ringKey via with
  | some k => stampHead (ringPut k { pkt with opcode := op } s) k { pkt with opcode := op }
  | none => { pkt with opcode := op }

/-- A command of an opcode starts: on a ring it has been placed and is the one thing the part may fetch; on another transport the part takes
it at once; every check of R72 up to step 8 passes, the firmware meets no fault of its own (R75), and CHECK_ONLY is clear. `s0` is the state in
which its handler sees it as `c`. -/
def Starts (op : Nat) (via : Via) (pkt : IcpPkt) (s : State) (c : Ctx) (s0 : State) : Prop :=
  (match ringKey via with
    | some k => viaOf k = via ∧ s.icp.waits = [] ∧ s.icp.behind = [] ∧ (∀ k', (ringOf s k').unread = []) ∧
        fetchable (ringPut k { pkt with opcode := op } s) k = some { pkt with opcode := op } ∧
        s0 = touchSession via (fetchSlot k (ringPut k { pkt with opcode := op } s))
    | none => transportServed s via = true ∧ s.icp.paused = false ∧ keptReply s via pkt.tag = none ∧
        mustHold (touchSession via s) via { pkt with opcode := op } = false ∧ s0 = touchSession via s) ∧
  icpCheck op via (taken op via pkt s) s0 = none ∧ pkt.fwFault = false ∧ flagBit pkt.flags 1 = false ∧
  c = { via := via, pkt := taken op via pkt s, iss := issuerOf s0 via, sess := sessionOf s0 via }

/-- The outcome is the next state in which the part stands as `x` and then some of what waited has gone on. -/
def Onward (r : Ran) (x : State) : Prop := ∃ n, r = .next (settleReady (wakeFor n x))

/-- The outcome: the command is answered with a status, a detail and data, in a part that its effect has left as `x`. -/
def Replied (r : Ran) (c : Ctx) (status detail : Nat) (data : Bytes) (x : State) : Prop :=
  Onward r (sendReply c.pkt.opcode c.via c.pkt status detail data x)

/-- The detail of an OK reply: CLAMPED where a value in effect differs from the value given. -/
def okDetail (clamped : Bool) : Nat := if clamped then dtClamped else dtNone

/-! ### Running a descriptor (R256, R263 to R265) -/

/-- A queue pair is the only one, is neither stopped nor being destroyed, has nothing in hand, takes doorbells, and may fetch a descriptor more; no
accelerator endpoint waits for rings. -/
def QueueIdle (s : State) (n : Nat) (q : Cqp) : Prop :=
  s.tel.frozen = false ∧ s.tab.cqps = [(n, q)] ∧ q.unread = [] ∧ q.waiting = [] ∧ q.running = [] ∧ q.error = false ∧ q.closing = false ∧
  q.held = false ∧ q.adopted = false ∧ queueStopped s q = false ∧ q.cqUsed < 2 ^ q.cqLog2 ∧ 1 ≤ q.inflight ∧ q.sqTail < 2 ^ q.sqLog2 ∧ 0 < q.sqLog2 ∧
  doorbellOff s q.endpoint q.owner = false ∧ s.ports.ringless = []

/-- Two states differ in the heat of blocks at most (R128). -/
def HeatOnly (s t : State) : Prop :=
  t = s.setMem { s.mem with blocks := t.mem.blocks } ∧
  t.mem.blocks.map (fun b => { b with heat := 0 }) = s.mem.blocks.map (fun b => { b with heat := 0 })

/-- What else of the part is looked at once the queue pairs have been: forwarded indices, items, the fence, the commit, and what is being
destroyed. -/
def restOfRound (s : State) : State :=
  destroyProgress (commitProgress (toCapturing (fenceProgress (dispatchItems (s.tab.fwd.foldl (fun s w => serveForwarded w s) s)))))

/-- Positions of the one descriptor that a queue pair runs are served here one after another, each at once. -/
def ServedInTurn (n : Nat) : InProg → List Nat → State → InProg → State → Prop
  | p, [], s, p', s' => p' = p ∧ s' = s
  | p, k :: r, s, p', s' => (cqpD s n).running = [p] ∧ ∃ ti t s1 st f bs, tblServed s p.desc.handle = some (ti, t) ∧
      t.status ≠ 1 ∧ rowBusy (cqpD s n) p k = false ∧ indexOwner s t (indexAt p.desc p.io k) = some (tableDevice s t) ∧
      serveIndex ti (rowOpAt t p.desc p.io k) s = .done s1 st f bs ∧ (cqpD s1 n).running = [p] ∧ has s1.tab.cqps n = true ∧
      ServedInTurn n { p with todo := p.todo.filter (· != k), sent := p.sent.filter (· != k), sentTo := del p.sentTo k,
                              got := p.got ++ [(k, st, f, bs)], flags := p.flags ||| f } r (gotIndex n p.seq k st f bs s1) p' s'

/-! ### Running a command of NVM Express (R442 to R445, R457, R460) -/

/-- A controller takes a command of a submission queue at once: it fetches, nothing waits in any of its queues, the queue has room for the
command and its completion queue for the completion. -/
def NvReady (fn sq : Nat) (s : State) : Prop :=
  isController s fn = true ∧ fetches s fn = true ∧ isolated s blkStorage = false ∧ (∀ e ∈ (ctrlOf s fn).sqs, e.2.unread = []) ∧
  ∃ q cq, look (ctrlOf s fn).sqs sq = some q ∧ 2 ≤ q.size ∧ q.tail < q.size ∧ look (ctrlOf s fn).cqs q.cq = some cq ∧ cq.used + 1 < cq.size

/-- A command of a submission queue has been placed and fetched between two states, and nothing else has changed: the queue's indices have
advanced, an entry of its completion queue is reserved, and a controller in a non-operational power state has left it. -/
def NvTaken (fn sq : Nat) (s x : State) : Prop :=
  let k := ctrlOf s fn
  let k' := ctrlOf x fn
  x = (s.setSto { s.sto with ctrls := x.sto.ctrls }).setCsr x.csr ∧ (∀ f, f ≠ fn → look x.sto.ctrls f = look s.sto.ctrls f) ∧
  k' = { k with turn := sq, sqs := k'.sqs, cqs := k'.cqs, ps := if 3 ≤ k.ps then k.lastOp else k.ps, psEntry := k'.psEntry } ∧
  k'.psEntry.map (fun e => (e.cid, e.target)) = k.psEntry.map (fun e => (e.cid, e.target)) ∧ (∀ j, j ≠ sq → look k'.sqs j = look k.sqs j) ∧
  ∀ q cq, look k.sqs sq = some q → look k.cqs q.cq = some cq →
    look k'.sqs sq = some { q with tail := (q.tail + 1) % q.size, head := (q.head + 1) % q.size, unread := [] } ∧
    look k'.cqs q.cq = some { cq with used := cq.used + 1 } ∧ ∀ j, j ≠ q.cq → look k'.cqs j = look k.cqs j

/-- The outcome: the command has been fetched, has had its effect, and then what can go on in the storage service has gone on. -/
def NvRan (fn sq : Nat) (s : State) (r : Ran) (effect : State → State) : Prop :=
  ∃ x n, NvTaken fn sq s x ∧ r = .next (stoSettle (fetchMany fn sq n (stoSettle (effect x))))

/-- A namespace takes the I/O commands of a controller, and no other command is in progress. -/
def NvOpen (s : State) (fn nsid : Nat) (x : Ns) : Prop :=
  nsOf s nsid = some x ∧ x.attached.contains fn = true ∧ (∀ w ∈ s.icp.waits, ¬ (w.kind = .detach ∧ w.obj = nsid)) ∧ sanActive x = false ∧
  (ctrlOf s fn).sanWait = none ∧ ¬ (x.san.state = 7 ∧ x.san.format = false) ∧ keyGone s x = false ∧ s.sto.ops = [] ∧
  replayWaits s x = false ∧ 1 ≤ (fnD s fn).allot.locks

/-- First block, and number of blocks, of an I/O command. -/
def slbaOf (c : NvmeCmd) : Nat := c.dw10 % 2 ^ 32 + c.dw11 % 2 ^ 32 * 2 ^ 32
def nlbOf (c : NvmeCmd) : Nat := bits c.dw12 0 16 + 1

/-! ### Packets of the transport (R546, R549, R559) -/

/-- A connection accepts a packet with a PSN: it is READY, of that version, of a function that is not FROZEN, and the PSN is new and within the window. -/
def Accepts (s : State) (p : GrtPkt) (c : Conn) : Prop :=
  isolated s blkTransport = false ∧ connOf s p.dst = some c ∧ c.state = 1 ∧ (c.roce = true ∨ p.ver = c.version) ∧ rxStopped s c false = false ∧
  psnOld c p.psn = false ∧ (c.roce = true → p.psn = seqAdd c.cum 1) ∧ psnBeyond c p.psn = false

/-- The outcome: a request has been taken off a work queue that had no other, and is fetched. -/
def WrRan (w : Nat) (q : Wq) (s : State) (r : Ran) (effect : State → State) : Prop :=
  ∃ y, y = s.setGrt { s.grt with wqs := y.grt.wqs } ∧ wqOf y w = some { q with tail := (q.tail + 1) % 2 ^ q.sqLog2, unread := [] } ∧
    (∀ v, v ≠ w → wqOf y v = wqOf s v) ∧ r = .next (effect y)

end Sys2Proof.Machine
end

