-- ==== Sys2Proof/Certificates/Slice0/Obligations.lean ====
section
/-! DEFINITION. The statements about this hardware that the provers settle: completion, results and frames of every row of the opcode table, the rules of the whole machine, and the invariants of a step. -/

open Sys2Proof Sys2Proof.Machine

/-- R207 and the scalar rows of R210: the destination's new value, with everything else unchanged. -/
def Obligations.ScalarArithmeticWritesItsDestination : Prop :=
  (∀ (s : State) (th : Nat) (c : TCtx) (rd rs1 rs2 : Fin 32), Issues s th 4 c →
      let a := getS c.t rs1
      let b := getS c.t rs2
      let wrote := fun (v : SReg) => ran s th 4 (setS rd v c.t)
      exec (.add th rd rs1 rs2) s = wrote (a + b) ∧
      exec (.sub th rd rs1 rs2) s = wrote (a - b) ∧
      exec (.and th rd rs1 rs2) s = wrote (a &&& b) ∧
      exec (.or th rd rs1 rs2) s = wrote (a ||| b) ∧
      exec (.xor th rd rs1 rs2) s = wrote (a ^^^ b) ∧
      exec (.shl th rd rs1 rs2) s = wrote (a <<< (b.toNat % 64)) ∧
      exec (.shr th rd rs1 rs2) s = wrote (a >>> (b.toNat % 64)) ∧
      exec (.sar th rd rs1 rs2) s = wrote (a.sshiftRight (b.toNat % 64)) ∧
      exec (.setlt th rd rs1 rs2) s = wrote (if a.toInt < b.toInt then 1 else 0) ∧
      exec (.setltu th rd rs1 rs2) s = wrote (if a.toNat < b.toNat then 1 else 0) ∧
      exec (.min th rd rs1 rs2) s = wrote (if b.toInt < a.toInt then b else a) ∧
      exec (.max th rd rs1 rs2) s = wrote (if a.toInt < b.toInt then b else a) ∧
      exec (.minu th rd rs1 rs2) s = wrote (if b.toNat < a.toNat then b else a) ∧
      exec (.maxu th rd rs1 rs2) s = wrote (if a.toNat < b.toNat then b else a) ∧
      exec (.mul th rd rs1 rs2) s = wrote (BitVec.ofNat 64 (a.toNat * b.toNat)) ∧
      exec (.mulhs th rd rs1 rs2) s = wrote (BitVec.ofInt 64 (a.toInt * b.toInt / 2 ^ 64)) ∧
      exec (.mulhu th rd rs1 rs2) s = wrote (BitVec.ofNat 64 (a.toNat * b.toNat / 2 ^ 64))) ∧
  (∀ (s : State) (th : Nat) (c : TCtx) (rd rs1 : Fin 32) (imm : BitVec 12) (sh : BitVec 6) (wide : BitVec 20), Issues s th 4 c →
    let a := getS c.t rs1
    let k : SReg := imm.signExtend 64
    let wrote := fun (v : SReg) => ran s th 4 (setS rd v c.t)
    exec (.addk th rd rs1 imm) s = wrote (a + k) ∧
    exec (.andk th rd rs1 imm) s = wrote (a &&& k) ∧
    exec (.ork th rd rs1 imm) s = wrote (a ||| k) ∧
    exec (.xork th rd rs1 imm) s = wrote (a ^^^ k) ∧
    exec (.setltk th rd rs1 imm) s = wrote (if a.toInt < k.toInt then 1 else 0) ∧
    exec (.setltuk th rd rs1 imm) s = wrote (if a.toNat < k.toNat then 1 else 0) ∧
    exec (.shlk th rd rs1 sh) s = wrote (a <<< sh.toNat) ∧
    exec (.shrk th rd rs1 sh) s = wrote (a >>> sh.toNat) ∧
    exec (.sark th rd rs1 sh) s = wrote (a.sshiftRight sh.toNat) ∧
    exec (.ldi th rd wide) s = wrote (wide.signExtend 64) ∧
    exec (.ldis th rd wide) s = wrote ((getS c.t rd <<< 20) ||| wide.zeroExtend 64)) ∧
  (∀ (s : State) (th : Nat) (c : TCtx) (rd rs : Fin 32) (imm : BitVec 6), Issues s th 2 c →
    let wrote := fun (v : SReg) => ran s th 2 (setS rd v c.t)
    exec (.qMv th rd rs) s = wrote (getS c.t rs) ∧
    exec (.qAdd th rd rs) s = wrote (getS c.t rd + getS c.t rs) ∧
    exec (.qSub th rd rs) s = wrote (getS c.t rd - getS c.t rs) ∧
    exec (.qLdk th rd imm) s = wrote (imm.signExtend 64) ∧
    exec (.qAddk th rd imm) s = wrote (getS c.t rd + imm.signExtend 64) ∧
    exec (.qShlk th rd imm) s = wrote (getS c.t rd <<< imm.toNat) ∧
    exec (.qNop th) s = ran s th 2 c.t)

/-- R202: division never faults, and its value in every corner. -/
def Obligations.DivisionSaturatesAndNeverFaults : Prop :=
  ∀ (s : State) (th : Nat) (c : TCtx) (rd rs1 rs2 : Fin 32), Issues s th 4 c →
    let a := getS c.t rs1
    let b := getS c.t rs2
    ∃ qs qu ms mu : SReg,
      exec (.divs th rd rs1 rs2) s = ran s th 4 (setS rd qs c.t) ∧
      exec (.divu th rd rs1 rs2) s = ran s th 4 (setS rd qu c.t) ∧
      exec (.rems th rd rs1 rs2) s = ran s th 4 (setS rd ms c.t) ∧
      exec (.remu th rd rs1 rs2) s = ran s th 4 (setS rd mu c.t) ∧
      (b = 0 → 0 ≤ a.toInt → qs.toInt = 2 ^ 63 - 1) ∧
      (b = 0 → a.toInt < 0 → qs.toInt = -2 ^ 63) ∧
      (b = 0 → qu.toNat = 2 ^ 64 - 1 ∧ ms = a ∧ mu = a) ∧
      (a.toInt = -2 ^ 63 → b.toInt = -1 → qs.toInt = -2 ^ 63 ∧ ms = 0) ∧
      (b ≠ 0 → ¬ (a.toInt = -2 ^ 63 ∧ b.toInt = -1) →
        qs.toInt = Int.tdiv a.toInt b.toInt ∧ ms.toInt = Int.tmod a.toInt b.toInt ∧ a.toInt = qs.toInt * b.toInt + ms.toInt) ∧
      (b ≠ 0 → qu.toNat = a.toNat / b.toNat ∧ mu.toNat = a.toNat % b.toNat)

/-- The mask rows of R210, with the fixed registers of R198. -/
def Obligations.MaskInstructionsActOnWholeMasks : Prop :=
  ∀ (s : State) (th : Nat) (c : TCtx) (rd rs1 : Fin 32) (md ma mb : Fin 8), Issues s th 4 c →
    let a := getM c.t ma
    let b := getM c.t mb
    exec (.mand th md ma mb) s = ran s th 4 (setM md (a &&& b) c.t) ∧
    exec (.mor th md ma mb) s = ran s th 4 (setM md (a ||| b) c.t) ∧
    exec (.mxor th md ma mb) s = ran s th 4 (setM md (a ^^^ b) c.t) ∧
    exec (.mandn th md ma mb) s = ran s th 4 (setM md (a &&& ~~~b) c.t) ∧
    (∃ n : Nat, n = ((List.range 64).filter (fun i => a.getLsbD i)).length ∧
      exec (.mpop th rd ma) s = ran s th 4 (setS rd (BitVec.ofNat 64 n) c.t)) ∧
    (∃ n : Nat, (∀ i < n, a.getLsbD i = false) ∧ (n < 64 → a.getLsbD n = true) ∧ n ≤ 64 ∧
      exec (.mfirst th rd ma) s = ran s th 4 (setS rd (BitVec.ofNat 64 n) c.t)) ∧
    exec (.mfroms th md rs1) s = ran s th 4 (setM md (getS c.t rs1) c.t) ∧
    exec (.mtos th rd ma) s = ran s th 4 (setS rd a c.t) ∧
    getM c.t 0 = BitVec.allOnes 64 ∧ setM 0 a c.t = c.t ∧ getS c.t 0 = 0 ∧ setS 0 a c.t = c.t

/-- R213 to R215 and R220. -/
def Obligations.BranchesCompareAndJump : Prop :=
  (∀ (s : State) (th : Nat) (c : TCtx) (rs1 rs2 : Fin 32) (off : BitVec 12), Issues s th 4 c →
    let a := getS c.t rs1
    let b := getS c.t rs2
    let go := fun (taken : Prop) [Decidable taken] =>
      if taken then jumped s th (c.t.pc + BitVec.ofInt 64 (off.toInt * 2)) c.t else ran s th 4 c.t
    exec (.beq th rs1 rs2 off) s = go (a = b) ∧
    exec (.bne th rs1 rs2 off) s = go (a ≠ b) ∧
    exec (.blt th rs1 rs2 off) s = go (a.toInt < b.toInt) ∧
    exec (.bge th rs1 rs2 off) s = go (b.toInt ≤ a.toInt) ∧
    exec (.bltu th rs1 rs2 off) s = go (a.toNat < b.toNat) ∧
    exec (.bgeu th rs1 rs2 off) s = go (b.toNat ≤ a.toNat)) ∧
  (∀ (s : State) (th : Nat) (c : TCtx) (rs1 : Fin 32) (mask : Fin 8) (off : BitVec 17), Issues s th 4 c →
    let go := fun (taken : Prop) [Decidable taken] =>
      if taken then jumped s th (c.t.pc + BitVec.ofInt 64 (off.toInt * 2)) c.t else ran s th 4 c.t
    exec (.beqz th rs1 off) s = go (getS c.t rs1 = 0) ∧
    exec (.bnez th rs1 off) s = go (getS c.t rs1 ≠ 0) ∧
    exec (.bany th mask off) s = go (getM c.t mask ≠ 0) ∧
    exec (.bnone th mask off) s = go (getM c.t mask = 0)) ∧
  (∀ (s : State) (th : Nat) (c : TCtx) (rs : Fin 8) (off : BitVec 8) (far : BitVec 11) (r : Fin 32), Issues s th 2 c →
    let reg := getS c.t (primed rs)
    let go := fun (taken : Prop) [Decidable taken] =>
      if taken then jumped s th (c.t.pc + BitVec.ofInt 64 (off.toInt * 2)) c.t else ran s th 2 c.t
    exec (.qBeqz th rs off) s = go (reg = 0) ∧
    exec (.qBnez th rs off) s = go (reg ≠ 0) ∧
    exec (.qJmp th far) s = jumped s th (c.t.pc + BitVec.ofInt 64 (far.toInt * 2)) c.t ∧
    (getS c.t r % 2 = 0 → exec (.qJr th r) s = jumped s th (getS c.t r) c.t) ∧
    (getS c.t r % 2 = 1 → exec (.qJr th r) s = faulted s c fkAlign)) ∧
  (∀ (s : State) (th : Nat) (c : TCtx) (rd rs1 : Fin 32) (off : BitVec 20) (imm : BitVec 12), Issues s th 4 c →
    let target := getS c.t rs1 + imm.signExtend 64
    exec (.call th rd off) s = jumped s th (c.t.pc + BitVec.ofInt 64 (off.toInt * 2)) (setS rd (c.t.pc + 4) c.t) ∧
    (target % 2 = 0 → exec (.callr th rd rs1 imm) s = jumped s th target (setS rd (c.t.pc + 4) c.t)) ∧
    (target % 2 = 1 → exec (.callr th rd rs1 imm) s = faulted s c fkAlign)) ∧
  (∀ (t : Thread) (target : SReg), (jumpTo target t).pc = target ∧ (jumpTo target t).lpos = 0 ∧ lcActive (jumpTo target t).lc = false ∧
    (jumpTo target t).s = t.s ∧ (jumpTo target t).v = t.v ∧ (jumpTo target t).m = t.m)

/-- R217 and R218, the pseudocode of rpt and of the end of each instruction. -/
def Obligations.BlockRepeatRunsItsPasses : Prop :=
  (∀ (s : State) (th : Nat) (c : TCtx) (rs1 : Fin 32) (imm : BitVec 12), Issues s th 4 c →
    let n := imm.toNat + 1
    ((rs1 = 0 ∨ imm.toNat / 32 ≠ 0 ∨ lcActive c.t.lc = true) → exec (.rpt th rs1 imm) s = faulted s c fkIllegal) ∧
    (rs1 ≠ 0 → imm.toNat / 32 = 0 → lcActive c.t.lc = false →
      (getS c.t rs1 = 0 →
        exec (.rpt th rs1 imm) s =
          .next (settle (setThread th { c.t with pc := BitVec.ofNat 64 (codeSpan s c.k n (c.t.pc.toNat + 4)) } (slotUsed false false th s)))) ∧
      (getS c.t rs1 ≠ 0 → ∃ lc : SReg,
        exec (.rpt th rs1 imm) s =
          .next (settle (setThread th { c.t with pc := c.t.pc + 4, lc := lc, lpos := 0 } (slotUsed false false th s))) ∧
        lcActive lc = true ∧ lcCreg lc = rs1 ∧ lcLen lc = n - 1 ∧
        (lcStart lc).toNat = (c.t.pc + 4).toNat / 2 % 2 ^ 32))) ∧
  (∀ (s : State) (k : Kernel) (n off : Nat), codeSpan s k 0 off = off ∧
    codeSpan s k (n + 1) off = codeSpan s k n (off + if (memGet s.mem.cells (codeDpa k off)).getLsbD 0 then 4 else 2)) ∧
  (∀ (t : Thread) (len : Nat),
    let pc := t.pc + BitVec.ofNat 64 len
    let r := lcCreg t.lc
    (lcActive t.lc = false → advance len t = { t with pc := pc }) ∧
    (lcActive t.lc = true → t.lpos.toNat < lcLen t.lc → advance len t = { t with pc := pc, lpos := t.lpos + 1 }) ∧
    (lcActive t.lc = true → lcLen t.lc ≤ t.lpos.toNat → (getS t r).toNat ≤ 1 →
      (advance len t).pc = pc ∧ (advance len t).lpos = 0 ∧ lcActive (advance len t).lc = false ∧ (advance len t).s = (setS r 0 t).s) ∧
    (lcActive t.lc = true → lcLen t.lc ≤ t.lpos.toNat → 1 < (getS t r).toNat →
      (advance len t).pc = lcStart t.lc <<< 1 ∧ (advance len t).lpos = 0 ∧ (advance len t).lc = t.lc ∧
      (advance len t).s = (setS r (getS t r - 1) t).s))

/-- The load rows of R210 and R207; a load waits only for a row under repointing (R287) or a channel that retrains (R112). -/
def Obligations.LoadsWriteTheBytesTheyRead : Prop :=
  (∀ (s : State) (th : Nat) (c : TCtx) (rd rs1 : Fin 32) (imm : BitVec 12) (io : MemIo), Issues s th 4 c →
    let at' := getS c.t rs1 + imm.signExtend 64
    let reads := fun (n : Nat) (bs : Bytes) (s' : State) => loadMem c at' n io.data io.failAt.isSome (memFaults c io s) = .ok bs s'
    let fails := fun (n k : Nat) (s' : State) => loadMem c at' n io.data io.failAt.isSome (memFaults c io s) = .fault k s'
    let waits := fun (n : Nat) (s' : State) => loadMem c at' n io.data io.failAt.isSome (memFaults c io s) = .wait s'
    let stays := fun (s' : State) => (Host.Outcome.next (settle (setThread th c.t s')) : Ran)
    let wrote := fun (s' : State) (v : SReg) => ran s' th 4 (setS rd v c.t)
    (∀ bs s', reads 1 bs s' → exec (.ldB th rd rs1 imm io) s = wrote s' ((BitVec.ofNat 8 (leVal bs)).signExtend 64)) ∧
    (∀ bs s', reads 2 bs s' → exec (.ldH th rd rs1 imm io) s = wrote s' ((BitVec.ofNat 16 (leVal bs)).signExtend 64)) ∧
    (∀ bs s', reads 4 bs s' → exec (.ldW th rd rs1 imm io) s = wrote s' ((BitVec.ofNat 32 (leVal bs)).signExtend 64)) ∧
    (∀ bs s', reads 8 bs s' → exec (.ldD th rd rs1 imm io) s = wrote s' (BitVec.ofNat 64 (leVal bs))) ∧
    (∀ bs s', reads 1 bs s' → exec (.ldBu th rd rs1 imm io) s = wrote s' (BitVec.ofNat 64 (leVal bs))) ∧
    (∀ bs s', reads 2 bs s' → exec (.ldHu th rd rs1 imm io) s = wrote s' (BitVec.ofNat 64 (leVal bs))) ∧
    (∀ bs s', reads 4 bs s' → exec (.ldWu th rd rs1 imm io) s = wrote s' (BitVec.ofNat 64 (leVal bs))) ∧
    (∀ k s', fails 1 k s' → exec (.ldB th rd rs1 imm io) s = faulted s' c k ∧ exec (.ldBu th rd rs1 imm io) s = faulted s' c k) ∧
    (∀ k s', fails 2 k s' → exec (.ldH th rd rs1 imm io) s = faulted s' c k ∧ exec (.ldHu th rd rs1 imm io) s = faulted s' c k) ∧
    (∀ k s', fails 4 k s' → exec (.ldW th rd rs1 imm io) s = faulted s' c k ∧ exec (.ldWu th rd rs1 imm io) s = faulted s' c k) ∧
    (∀ k s', fails 8 k s' → exec (.ldD th rd rs1 imm io) s = faulted s' c k) ∧
    (∀ s', waits 1 s' → exec (.ldB th rd rs1 imm io) s = stays s' ∧ exec (.ldBu th rd rs1 imm io) s = stays s') ∧
    (∀ s', waits 2 s' → exec (.ldH th rd rs1 imm io) s = stays s' ∧ exec (.ldHu th rd rs1 imm io) s = stays s') ∧
    (∀ s', waits 4 s' → exec (.ldW th rd rs1 imm io) s = stays s' ∧ exec (.ldWu th rd rs1 imm io) s = stays s') ∧
    (∀ s', waits 8 s' → exec (.ldD th rd rs1 imm io) s = stays s')) ∧
  (∀ (s : State) (th : Nat) (c : TCtx) (rd rb : Fin 8) (off : BitVec 5) (io : MemIo), Issues s th 2 c →
    let base := getS c.t (primed rb)
    let access := fun (scale n : Nat) => loadMem c (base + BitVec.ofNat 64 (off.toNat * scale)) n io.data io.failAt.isSome (memFaults c io s)
    (∀ bs s', access 8 8 = .ok bs s' → exec (.qLdD th rd rb off io) s = ran s' th 2 (setS (primed rd) (BitVec.ofNat 64 (leVal bs)) c.t)) ∧
    (∀ bs s', access 4 4 = .ok bs s' →
      exec (.qLdW th rd rb off io) s = ran s' th 2 (setS (primed rd) ((BitVec.ofNat 32 (leVal bs)).signExtend 64) c.t)) ∧
    (∀ k s', access 8 8 = .fault k s' → exec (.qLdD th rd rb off io) s = faulted s' c k) ∧
    (∀ k s', access 4 4 = .fault k s' → exec (.qLdW th rd rb off io) s = faulted s' c k) ∧
    (∀ s', access 8 8 = .wait s' → exec (.qLdD th rd rb off io) s = .next (settle (setThread th c.t s'))) ∧
    (∀ s', access 4 4 = .wait s' → exec (.qLdW th rd rb off io) s = .next (settle (setThread th c.t s')))) ∧
  (∀ (c : TCtx) (addr : SReg) (n : Nat) (ext : Bytes) (bad : Bool) (s s' : State), loadMem c addr n ext bad s = .wait s' → s' = s ∧
    ((∃ as, resolve s c addr n 0 = some (.mem as) ∧ ∃ a ∈ as, channelHeld s a = true) ∨
     (∃ ti region bs, resolve s c addr n 0 = some (.table ti region bs) ∧ tableWaits s ti region bs = true)))

/-- R167 and R168. -/
def Obligations.WindowsMapKernelAddresses : Prop :=
  ∀ (s : State) (c : TCtx) (addr : SReg) (n kind : Nat), kind < 3 →
    let w := addr.toNat / 2 ^ 60
    let off := addr.toNat % 2 ^ 60
    (w = 0 → resolve s c addr n kind =
      if kind = 0 ∧ off + n ≤ c.k.codeLen then some (.mem ((List.range n).map (fun i => codeDpa c.k (off + i)))) else none) ∧
    (w = 1 → resolve s c addr n kind =
      if kind = 0 ∧ off + n ≤ c.j.args.length then some (.inside ((c.j.args.drop off).take n)) else none) ∧
    (w = 2 → resolve s c addr n kind =
      if off + n ≤ c.k.perCore then some (.scratch (scratchAt c + thCore c.th * c.k.perCore + off)) else none) ∧
    (w = 3 → resolve s c addr n kind = if off + n ≤ c.k.shared then some (.scratch (scratchAt c + 16 * c.k.perCore + off)) else none) ∧
    (4 ≤ w → w ≤ 11 → boundTable s c w = none → resolve s c addr n kind = none) ∧
    (4 ≤ w → w ≤ 11 → ∀ x, resolve s c addr n kind = some x →
      ∃ ti t region bs, boundTable s c w = some (ti, t) ∧ x = .table ti region bs ∧ bs.length = n ∧
        ∀ i (h : i < bs.length), windowByte t region ((windowRegion off).2 + i) = some bs[i]) ∧
    (12 ≤ w → c.j.rule = none → kind = 2 → resolve s c addr n kind = none) ∧
    (12 ≤ w → c.j.rule = none → kind ≠ 2 → ∀ b, c.j.buffers[w - 12]? = some b →
      resolve s c addr n kind = some (.client c.j.client ((b + off) % 2 ^ 64))) ∧
    (12 ≤ w → c.j.rule = none → c.j.buffers[w - 12]? = none → resolve s c addr n kind = none) ∧
    (w = 12 → c.j.rule ≠ none → resolve s c addr n kind =
      if kind = 0 ∧ off + n ≤ c.j.grad.length then some (.inside ((c.j.grad.drop off).take n)) else none) ∧
    (13 ≤ w → c.j.rule ≠ none → resolve s c addr n kind = none) ∧
    (∀ ext bad, resolve s c addr n 0 = none → loadMem c addr n ext bad s = .fault fkWindow s) ∧
    (∀ data bad, resolve s c addr data.length 1 = none → storeMem c addr data bad s = .fault fkWindow s) ∧
    (∀ f, addr.toNat % n = 0 → resolve s c addr n 2 = none → atomicMem c addr n f s = .fault fkWindow s)

/-- R154 to R156, R142, R165, the generation of R170, the held channel of R112 and the isolated block of R628. -/
def Obligations.LoadsReturnWhatTheirTargetHolds : Prop :=
  (∀ (s : State) (fid : Nat), clientAway s fid = true ↔ ∃ b, portBlock s fid = some b ∧ isolated s b = true) ∧
  (∀ (s : State) (c : TCtx) (addr : SReg) (n : Nat) (ext : Bytes) (bad : Bool),
    (∀ bs, resolve s c addr n 0 = some (.inside bs) → loadMem c addr n ext bad s = .ok bs s) ∧
    (∀ a, resolve s c addr n 0 = some (.scratch a) →
      ((∃ w ∈ s.mem.badWords, w < a + n ∧ a < w + 8) → loadMem c addr n ext bad s = .fault fkPoison s) ∧
      ((∀ w ∈ s.mem.badWords, ¬ (w < a + n ∧ a < w + 8)) →
        loadMem c addr n ext bad s = .ok ((List.range n).map (fun i => memGet s.mem.cells (a + i))) s)) ∧
    (∀ fid a, resolve s c addr n 0 = some (.client fid a) →
      (bad = true ∨ c.j.gen ≠ genOf s c.j.client ∨ clientAway s c.j.client = true → loadMem c addr n ext bad s = .fault fkIo s) ∧
      (bad = false → c.j.gen = genOf s c.j.client → clientAway s c.j.client = false → n ≤ ext.length → loadMem c addr n ext bad s = .ok (ext.take n) s)) ∧
    (∀ as, resolve s c addr n 0 = some (.mem as) →
      let fails := fun (a : Nat) => lineOf a ∈ s.mem.poison ∨ isolated s (lineBlock s a) = true
      ((∃ a ∈ as, fails a) → loadMem c addr n ext bad s = .fault fkPoison s) ∧
      ((∀ a ∈ as, ¬ fails a) → (∃ a ∈ as, channelHeld s a = true) → loadMem c addr n ext bad s = .wait s) ∧
      ((∀ a ∈ as, ¬ fails a) → (∀ a ∈ as, channelHeld s a = false) → ∃ bs s', loadMem c addr n ext bad s = .ok bs s' ∧ bs.length = n ∧
        (l1Of s (coreKey c.th) = [] → bs = as.map (memGet s.mem.cells))))) ∧
  (∀ (s s' : State) (c : TCtx) (addr : SReg) (n : Nat) (ext bs : Bytes) (bad : Bool), loadMem c addr n ext bad s = .ok bs s' →
    (∀ a, memGet s'.mem.cells a = memGet s.mem.cells a) ∧ s'.mem.badWords = s.mem.badWords ∧ s'.mem.poison = s.mem.poison ∧
    s'.mason.threads = s.mason.threads)

/-- The store rows of R210 and R207, and the waiting store of R164. -/
def Obligations.StoresGoOnFaultOrWait : Prop :=
  (∀ (s : State) (th : Nat) (c : TCtx) (rs2 rs1 : Fin 32) (imm : BitVec 12) (io : MemIo), Issues s th 4 c →
    let at' := getS c.t rs1 + imm.signExtend 64
    let access := fun (n : Nat) => storeMem c at' (leBytes n (getS c.t rs2).toNat) io.failAt.isSome (storeFaults c io at' n 1 s)
    let ends := fun (n : Nat) (r : Ran) =>
      (∀ s', access n = .ok () s' → r = ran s' th 4 c.t) ∧
      (∀ k s', access n = .fault k s' → r = faulted s' c k) ∧
      (∀ s', access n = .wait s' → r = .next (settle (setThread th c.t s')))
    ends 1 (exec (.stB th rs2 rs1 imm io) s) ∧ ends 2 (exec (.stH th rs2 rs1 imm io) s) ∧
    ends 4 (exec (.stW th rs2 rs1 imm io) s) ∧ ends 8 (exec (.stD th rs2 rs1 imm io) s)) ∧
  (∀ (s : State) (th : Nat) (c : TCtx) (rs rb : Fin 8) (off : BitVec 5) (io : MemIo), Issues s th 2 c →
    let base := getS c.t (primed rb)
    let access := fun (n : Nat) =>
      let at' := base + BitVec.ofNat 64 (off.toNat * n)
      storeMem c at' (leBytes n (getS c.t (primed rs)).toNat) io.failAt.isSome (storeFaults c io at' n 1 s)
    let ends := fun (n : Nat) (r : Ran) =>
      (∀ s', access n = .ok () s' → r = ran s' th 2 c.t) ∧
      (∀ k s', access n = .fault k s' → r = faulted s' c k) ∧
      (∀ s', access n = .wait s' → r = .next (settle (setThread th c.t s')))
    ends 8 (exec (.qStD th rs rb off io) s) ∧ ends 4 (exec (.qStW th rs rb off io) s))

/-- R120, R131, R142 and R165, with the frame of a store; port A's store stands where port B writes the same word, whose own write is counted as
lost in that port's cluster (R137, R138, R196); one to client memory carries the function's generation (R170). -/
def Obligations.StoresChangeOnlyTheirBytes : Prop :=
  (∀ (s : State) (c : TCtx) (io : MemIo) (addr : SReg) (n kind : Nat),
    let s0 := memFaults c io s
    let s' := storeFaults c io addr n kind s
    s'.mem = s0.mem ∧ s'.mason = s0.mason ∧ s'.out = s0.out ∧
    (∀ k a, io.rival = some k → k ≠ thCluster c.th → resolve s0 c addr n kind = some (.scratch a) →
      ∀ p u, physCluster s0 k = some (p, u) → cell s' (blkCluster p) 0x124 = (cell s0 (blkCluster p) 0x124 + 1) % 2 ^ 32) ∧
    (io.rival = none → s' = s0)) ∧
  (∀ (s : State) (c : TCtx) (addr : SReg) (data : Bytes) (bad : Bool) (a : Nat),
    resolve s c addr data.length 1 = some (.scratch a) →
    ∃ s', storeMem c addr data bad s = .ok () s' ∧
      (∀ i (h : i < data.length), memGet s'.mem.cells (a + i) = data[i]) ∧
      (∀ x, (x < a ∨ a + data.length ≤ x) → memGet s'.mem.cells x = memGet s.mem.cells x) ∧
      (∀ w, w ∈ s'.mem.badWords ↔ w ∈ s.mem.badWords ∧ ¬ (w < a + data.length ∧ a < w + 8)) ∧
      s' = s.setMem { s.mem with cells := s'.mem.cells, badWords := s'.mem.badWords }) ∧
  (∀ (s s' : State) (c : TCtx) (addr : SReg) (data : Bytes) (bad : Bool) (ti region : Nat) (bs : List (Nat × Nat × Nat)),
    resolve s c addr data.length 1 = some (.table ti region bs) → storeMem c addr data bad s = .ok () s' →
      (∀ x, (∀ b ∈ bs, ∀ k, blkFind s ti region b.2.1 = some k →
          (∀ f, k.frame = some f → x ≠ f * frameBytes + b.2.2) ∧ (∀ f, k.moving = some f → x ≠ f * frameBytes + b.2.2)) →
        memGet s'.mem.cells x = memGet s.mem.cells x) ∧
      (∀ b v k f, bs = [b] → data = [v] → blkFind s ti region b.2.1 = some k → k.frame = some f →
        memGet s'.mem.cells (f * frameBytes + b.2.2) = v)) ∧
  (∀ (s : State) (c : TCtx) (addr : SReg) (data : Bytes) (bad : Bool) (ti region : Nat) (bs : List (Nat × Nat × Nat)),
    resolve s c addr data.length 1 = some (.table ti region bs) → tablePoison s ti region bs = true →
      storeMem c addr data bad s = .fault fkPoison (touchRows c ti region bs s)) ∧
  (∀ (s : State) (c : TCtx) (addr : SReg) (data : Bytes) (bad : Bool) (fid a : Nat),
    resolve s c addr data.length 1 = some (.client fid a) →
      (bad = true ∨ c.j.gen ≠ genOf s c.j.client ∨ clientAway s c.j.client = true → storeMem c addr data bad s = .fault fkIo s) ∧
      (bad = false → c.j.gen = genOf s c.j.client → clientAway s c.j.client = false → ∃ s', storeMem c addr data bad s = .ok () s' ∧ s'.mem = s.mem ∧ s'.mason = s.mason ∧
        (data ≠ [] → silenced s fid = false → ∃ rest, s'.out = s.out ++ .dma fid (genOf s fid) a data :: rest)))

/-- The atomic rows of R210, with R161, R162 and R212. -/
def Obligations.AtomicsReturnTheOldValue : Prop :=
  ∀ (s : State) (th : Nat) (c : TCtx) (rd rs1 rs2 : Fin 32) (acq rel wide : Bool) (io : MemIo), Issues s th 4 c →
    let n := if wide then 8 else 4
    let v := (getS c.t rs2).toNat % 2 ^ (8 * n)
    let d := (getS c.t rd).toNat % 2 ^ (8 * n)
    let ends := fun (new : Nat → Option Nat) (r : Ran) =>
      let access := atomicMem c (getS c.t rs1) n (fun old => (new (leVal old)).map (leBytes n)) (storeFaults c io (getS c.t rs1) n 2 s)
      (∀ old s', access = .ok old s' →
        ∃ q : SReg, q.toNat % 2 ^ (8 * n) = leVal old % 2 ^ (8 * n) ∧
          r = ran (if acq then l1Clear (coreKey th) s' else s') th 4 (setS rd q c.t)) ∧
      (∀ k s', access = .fault k s' → r = faulted s' c k) ∧
      (∀ s', access = .wait s' → r = .next (settle (setThread th c.t s')))
    ends (fun old => some ((old + v) % 2 ^ (8 * n))) (exec (.aadd th rd rs1 rs2 acq rel wide io) s) ∧
    ends (fun old => some (if sext (8 * n) old < sext (8 * n) v then old else v)) (exec (.amin th rd rs1 rs2 acq rel wide io) s) ∧
    ends (fun old => some (if sext (8 * n) old < sext (8 * n) v then v else old)) (exec (.amax th rd rs1 rs2 acq rel wide io) s) ∧
    ends (fun old => some (if old < v then old else v)) (exec (.aminu th rd rs1 rs2 acq rel wide io) s) ∧
    ends (fun old => some (if old < v then v else old)) (exec (.amaxu th rd rs1 rs2 acq rel wide io) s) ∧
    ends (fun old => some (old &&& v)) (exec (.aand th rd rs1 rs2 acq rel wide io) s) ∧
    ends (fun old => some (old ||| v)) (exec (.aor th rd rs1 rs2 acq rel wide io) s) ∧
    ends (fun old => some (old ^^^ v)) (exec (.axor th rd rs1 rs2 acq rel wide io) s) ∧
    ends (fun _ => some v) (exec (.aswap th rd rs1 rs2 acq rel wide io) s) ∧
    ends (fun old => if old = d then some v else none) (exec (.acas th rd rs1 rs2 acq rel wide io) s) ∧
    (wide = false →
      ends (fun old => some (fadd old v)) (exec (.afadd th rd rs1 rs2 acq rel wide io) s) ∧
      ends (fun old => some (fpick fp32 false old v)) (exec (.afmin th rd rs1 rs2 acq rel wide io) s) ∧
      ends (fun old => some (fpick fp32 true old v)) (exec (.afmax th rd rs1 rs2 acq rel wide io) s) ∧
      ends (fun old => some (bfadd2 old v)) (exec (.abfadd2 th rd rs1 rs2 acq rel wide io) s)) ∧
    (wide = true →
      exec (.afadd th rd rs1 rs2 acq rel wide io) s = faulted s c fkIllegal ∧
      exec (.afmin th rd rs1 rs2 acq rel wide io) s = faulted s c fkIllegal ∧
      exec (.afmax th rd rs1 rs2 acq rel wide io) s = faulted s c fkIllegal ∧
      exec (.abfadd2 th rd rs1 rs2 acq rel wide io) s = faulted s c fkIllegal)

/-- R211 and the ALIGN fault of R160, for every atomic of 32 or 64 bits, with the frame of a scratch atomic. -/
def Obligations.AtomicsNeverPassTheIoWindows : Prop :=
  (∀ (s : State) (th : Nat) (c : TCtx) (rd rs1 rs2 : Fin 32) (acq rel wide : Bool) (io : MemIo), Issues s th 4 c →
    let n := if wide then 8 else 4
    let at' := (getS c.t rs1).toNat
    let s0 := storeFaults c io (getS c.t rs1) n 2 s
    let all := fun (k : Nat) =>
      exec (.aadd th rd rs1 rs2 acq rel wide io) s = faulted s0 c k ∧ exec (.amin th rd rs1 rs2 acq rel wide io) s = faulted s0 c k ∧
      exec (.amax th rd rs1 rs2 acq rel wide io) s = faulted s0 c k ∧ exec (.aminu th rd rs1 rs2 acq rel wide io) s = faulted s0 c k ∧
      exec (.amaxu th rd rs1 rs2 acq rel wide io) s = faulted s0 c k ∧ exec (.aand th rd rs1 rs2 acq rel wide io) s = faulted s0 c k ∧
      exec (.aor th rd rs1 rs2 acq rel wide io) s = faulted s0 c k ∧ exec (.axor th rd rs1 rs2 acq rel wide io) s = faulted s0 c k ∧
      exec (.aswap th rd rs1 rs2 acq rel wide io) s = faulted s0 c k ∧ exec (.acas th rd rs1 rs2 acq rel wide io) s = faulted s0 c k ∧
      (wide = false → exec (.afadd th rd rs1 rs2 acq rel wide io) s = faulted s0 c k ∧
        exec (.afmin th rd rs1 rs2 acq rel wide io) s = faulted s0 c k ∧ exec (.afmax th rd rs1 rs2 acq rel wide io) s = faulted s0 c k ∧
        exec (.abfadd2 th rd rs1 rs2 acq rel wide io) s = faulted s0 c k)
    (12 ≤ at' / 2 ^ 60 → at' % n = 0 → all fkWindow) ∧ (at' % n ≠ 0 → all fkAlign)) ∧
  (∀ (s s' : State) (c : TCtx) (addr : SReg) (n a : Nat) (f : Bytes → Option Bytes) (old : Bytes),
    resolve s c addr n 2 = some (.scratch a) → (∀ bs new, f bs = some new → new.length = n) → atomicMem c addr n f s = .ok old s' →
      old = (List.range n).map (fun i => memGet s.mem.cells (a + i)) ∧
      (∀ x, (x < a ∨ a + n ≤ x) → memGet s'.mem.cells x = memGet s.mem.cells x) ∧
      (f old = none → s' = s) ∧
      (∀ new, f old = some new → (List.range n).map (fun i => memGet s'.mem.cells (a + i)) = new))

/-- R223, R224, R227 and R228. -/
def Obligations.StringsRunElementByElement : Prop :=
  ∀ (s : State) (th : Nat) (c : TCtx) (size : Fin 8) (rc r2 r1 r0 : Fin 32) (wide cond : Bool) (io : MemIo), Issues s th 4 c →
    let e := 2 ^ size.val
    let w := if wide then 8 else 4
    let s0 := memFaults c io s
    let s1 := storeFaults c io (getS c.t r0) e 1 s
    let n := (getS c.t rc).toNat
    let three := r0 ≠ r1 ∧ r0 ≠ rc ∧ r1 ≠ rc ∧ r0 ≠ 0 ∧ r1 ≠ 0 ∧ rc ≠ 0
    let four := three ∧ r2 ≠ 0 ∧ r2 ≠ r0 ∧ r2 ≠ r1 ∧ r2 ≠ rc
    (¬ three → exec (.movs th size rc r1 r0 io) s = faulted s c fkIllegal ∧ exec (.fills th size rc r1 r0 io) s = faulted s c fkIllegal ∧
      exec (.cmps th size rc r1 r0 io) s = faulted s c fkIllegal ∧ exec (.scans th size rc cond r1 r0 io) s = faulted s c fkIllegal) ∧
    (3 < size.val → exec (.fills th size rc r1 r0 io) s = faulted s c fkIllegal ∧
      exec (.cmps th size rc r1 r0 io) s = faulted s c fkIllegal ∧ exec (.scans th size rc cond r1 r0 io) s = faulted s c fkIllegal) ∧
    (¬ four → exec (.gath th wide size rc r2 r1 r0 io) s = faulted s c fkIllegal) ∧
    (three → ∀ t' s', Elements (movsElem c e rc r1 r0 io) n 0 c.t s1 t' s' →
      exec (.movs th size rc r1 r0 io) s = ran s' th 4 t' ∧ getS t' rc = 0 ∧
      getS t' r0 = getS c.t r0 + BitVec.ofNat 64 (n * e) ∧ getS t' r1 = getS c.t r1 + BitVec.ofNat 64 (n * e)) ∧
    (three → size.val ≤ 3 → ∀ t' s', Elements (fillsElem c e rc r1 r0 io) n 0 c.t s1 t' s' →
      exec (.fills th size rc r1 r0 io) s = ran s' th 4 t' ∧ getS t' rc = 0 ∧
      getS t' r0 = getS c.t r0 + BitVec.ofNat 64 (n * e) ∧ getS t' r1 = getS c.t r1) ∧
    (four → ∀ t' s', Elements (gathElem c w e rc r2 r1 r0 io) n 0 c.t s1 t' s' →
      exec (.gath th wide size rc r2 r1 r0 io) s = ran s' th 4 t' ∧ getS t' rc = 0 ∧
      getS t' r0 = getS c.t r0 + BitVec.ofNat 64 (n * e) ∧ getS t' r1 = getS c.t r1 + BitVec.ofNat 64 (n * w) ∧ getS t' r2 = getS c.t r2) ∧
    (three → size.val ≤ 3 → ∀ k ≤ n, ∀ t' s', Elements (cmpsElem c e rc r1 r0 io true) k 0 c.t s0 t' s' →
      getS t' rc = getS c.t rc - BitVec.ofNat 64 k ∧ getS t' r0 = getS c.t r0 + BitVec.ofNat 64 (k * e) ∧
      (k = n → exec (.cmps th size rc r1 r0 io) s = ran s' th 4 t') ∧
      (∀ t'' s'', k < n → cmpsElem c e rc r1 r0 io false k t' s' t'' s'' → exec (.cmps th size rc r1 r0 io) s = ran s'' th 4 t')) ∧
    (three → size.val ≤ 3 → ∀ k ≤ n, ∀ t' s', Elements (scansElem c e rc r1 r0 io cond) k 0 c.t s0 t' s' →
      getS t' rc = getS c.t rc - BitVec.ofNat 64 k ∧ getS t' r0 = getS c.t r0 + BitVec.ofNat 64 (k * e) ∧
      (k = n → exec (.scans th size rc cond r1 r0 io) s = ran s' th 4 t') ∧
      (∀ t'' s'', k < n → scansElem c e rc r1 r0 io (!cond) k t' s' t'' s'' → exec (.scans th size rc cond r1 r0 io) s = ran s'' th 4 t')) ∧
    (three → ∀ k < n, ∀ t' s' q s'', Elements (movsElem c e rc r1 r0 io) k 0 c.t s1 t' s' →
      loadMem c (getS t' r1) e (ioPart io k e) (ioFails io k) s' = .fault q s'' → exec (.movs th size rc r1 r0 io) s = faulted s'' c q)

/-- The system rows of R210, and the faults that need no instruction. -/
def Obligations.FencesHaltsAndSystemReads : Prop :=
  (∀ (s : State) (th : Nat) (c : TCtx) (rd : Fin 32) (imm : BitVec 12) (word : BitVec 32), Issues s th 4 c →
    (imm = 0 → exec (.fence th imm) s = ran s th 4 c.t) ∧
    (imm = 1 ∨ imm = 2 → exec (.fence th imm) s = ran (l1Clear (coreKey th) s) th 4 c.t) ∧
    (2 < imm.toNat → exec (.fence th imm) s = faulted s c fkIllegal) ∧
    exec (.halt th) s = .next (endItem c none (slotUsed false false th (l1Clear (coreKey th) s))) ∧
    (imm = 0 → exec (.rdsr th rd imm) s = ran s th 4 (setS rd c.t.lc c.t)) ∧
    (imm = 1 → exec (.rdsr th rd imm) s = ran s th 4 (setS rd c.t.lpos c.t)) ∧
    (imm = 2 → ∃ v, exec (.rdsr th rd imm) s = ran (drawn s) th 4 (setS rd v c.t)) ∧
    (imm = 3 → ∀ p u, physCluster s (thCluster th) = some (p, u) →
      exec (.rdsr th rd imm) s = ran s th 4 (setS rd (BitVec.ofNat 64 (now s p)) c.t)) ∧
    (3 < imm.toNat → exec (.rdsr th rd imm) s = faulted s c fkIllegal) ∧
    (word.getLsbD 0 = true → encodingDefined word.toNat = false → exec (.undefinedEncoding th word) s = faulted s c fkIllegal)) ∧
  (∀ (s : State) (th : Nat) (c : TCtx) (word : BitVec 32), Issues s th 2 c →
    exec (.qHalt th) s = .next (endItem c none (slotUsed false false th (l1Clear (coreKey th) s))) ∧
    (word.getLsbD 0 = false → encodingDefined word.toNat = false → exec (.undefinedEncoding th word) s = faulted s c fkIllegal) ∧
    (encodingDefined word.toNat = true → exec (.undefinedEncoding th word) s = .next s)) ∧
  (∀ (s : State) (th : Nat) (c : TCtx), tctx s th = some c →
    (c.k.codeLen < c.t.pc.toNat + 2 → exec (.fetchFault th) s = ended s c fkWindow) ∧
    exec (.itemWatchdog th) s = ended s c fkWatchdog)

/-- R210, R230, R232 and R234 for the integer types. -/
def Obligations.IntegerVectorLanes : Prop :=
  (∀ (s : State) (th : Nat) (c : TCtx) (ty : Fin 8) (rnd zm : Bool) (mask : Fin 8) (rs : Fin 32) (vs2 vs1 vd : Fin 16), Issues s th 4 c →
    ty.val < 3 →
    let w := vtWidth ty
    let a := fun k => lane w (getV c.t vs1) k
    let d := fun k => lane w (getV c.t vd) k
    let lanes := fun (r : Ran) (f : Nat → Nat) => LanesWritten s th c.t w zm mask vd f r
    let forms := fun (b : Nat → Nat) (add sub mul fma mn mx sll srl sra : Ran) =>
      lanes add (fun k => (a k + b k) % 2 ^ w) ∧ lanes sub (fun k => (a k + (2 ^ w - b k)) % 2 ^ w) ∧
      lanes mul (fun k => a k * b k % 2 ^ w) ∧ lanes fma (fun k => (a k * b k + d k) % 2 ^ w) ∧
      lanes mn (fun k => if sext w (a k) < sext w (b k) then a k else b k) ∧
      lanes mx (fun k => if sext w (a k) < sext w (b k) then b k else a k) ∧
      lanes sll (fun k => a k * 2 ^ (b k % w) % 2 ^ w) ∧ lanes srl (fun k => a k / 2 ^ (b k % w)) ∧
      lanes sra (fun k => (sext w (a k) / 2 ^ (b k % w) % 2 ^ w).toNat)
    let b := fun k => lane w (getV c.t vs2) k
    forms b (exec (.vadd th ty rnd zm mask vs2 vs1 vd) s) (exec (.vsub th ty rnd zm mask vs2 vs1 vd) s)
      (exec (.vmul th ty rnd zm mask vs2 vs1 vd) s) (exec (.vfma th ty rnd zm mask vs2 vs1 vd) s)
      (exec (.vmin th ty rnd zm mask vs2 vs1 vd) s) (exec (.vmax th ty rnd zm mask vs2 vs1 vd) s)
      (exec (.vsll th ty rnd zm mask vs2 vs1 vd) s) (exec (.vsrl th ty rnd zm mask vs2 vs1 vd) s)
      (exec (.vsra th ty rnd zm mask vs2 vs1 vd) s) ∧
    forms (fun _ => (getS c.t rs).toNat % 2 ^ w)
      (exec (.vaddS th ty rnd zm mask rs vs1 vd) s) (exec (.vsubS th ty rnd zm mask rs vs1 vd) s)
      (exec (.vmulS th ty rnd zm mask rs vs1 vd) s) (exec (.vfmaS th ty rnd zm mask rs vs1 vd) s)
      (exec (.vminS th ty rnd zm mask rs vs1 vd) s) (exec (.vmaxS th ty rnd zm mask rs vs1 vd) s)
      (exec (.vsllS th ty rnd zm mask rs vs1 vd) s) (exec (.vsrlS th ty rnd zm mask rs vs1 vd) s)
      (exec (.vsraS th ty rnd zm mask rs vs1 vd) s) ∧
    lanes (exec (.vminu th ty rnd zm mask vs2 vs1 vd) s) (fun k => min (a k) (b k)) ∧
    lanes (exec (.vmaxu th ty rnd zm mask vs2 vs1 vd) s) (fun k => max (a k) (b k)) ∧
    lanes (exec (.vand th ty rnd zm mask vs2 vs1 vd) s) (fun k => a k &&& b k) ∧
    lanes (exec (.vor th ty rnd zm mask vs2 vs1 vd) s) (fun k => a k ||| b k) ∧
    lanes (exec (.vxor th ty rnd zm mask vs2 vs1 vd) s) (fun k => a k ^^^ b k) ∧
    lanes (exec (.vabs th ty rnd zm mask vs1 vd) s) (fun k => (sext w (a k)).natAbs % 2 ^ w) ∧
    lanes (exec (.vneg th ty rnd zm mask vs1 vd) s) (fun k => (2 ^ w - a k) % 2 ^ w) ∧
    exec (.vdiv th ty rnd zm mask vs2 vs1 vd) s = faultedV s c fkIllegal ∧
    exec (.vsqrt th ty rnd zm mask vs1 vd) s = faultedV s c fkIllegal) ∧
  (∀ (s : State) (th : Nat) (c : TCtx) (ty : Fin 8) (rnd zm : Bool) (mask : Fin 8) (rs : Fin 32) (vs2 vs1 vd : Fin 16), Issues s th 4 c →
    3 ≤ ty.val →
    exec (.vminu th ty rnd zm mask vs2 vs1 vd) s = faultedV s c fkIllegal ∧ exec (.vmaxu th ty rnd zm mask vs2 vs1 vd) s = faultedV s c fkIllegal ∧
    exec (.vand th ty rnd zm mask vs2 vs1 vd) s = faultedV s c fkIllegal ∧ exec (.vor th ty rnd zm mask vs2 vs1 vd) s = faultedV s c fkIllegal ∧
    exec (.vxor th ty rnd zm mask vs2 vs1 vd) s = faultedV s c fkIllegal ∧ exec (.vsll th ty rnd zm mask vs2 vs1 vd) s = faultedV s c fkIllegal ∧
    exec (.vsrl th ty rnd zm mask vs2 vs1 vd) s = faultedV s c fkIllegal ∧ exec (.vsra th ty rnd zm mask vs2 vs1 vd) s = faultedV s c fkIllegal ∧
    exec (.vsllS th ty rnd zm mask rs vs1 vd) s = faultedV s c fkIllegal ∧ exec (.vsrlS th ty rnd zm mask rs vs1 vd) s = faultedV s c fkIllegal ∧
    exec (.vsraS th ty rnd zm mask rs vs1 vd) s = faultedV s c fkIllegal)

/-- R210, R235, R236 and R241 for the FP types. -/
def Obligations.FloatVectorLanes : Prop :=
  ∀ (s : State) (th : Nat) (c : TCtx) (ty : Fin 8) (f : Fmt) (rnd zm : Bool) (mask : Fin 8) (rs : Fin 32) (vs2 vs1 vd : Fin 16), Issues s th 4 c →
    vtFmt ty = some f →
    let w := f.w
    let s' := if rnd then s.setDraw (s.draw + 64) else s
    let by' := fun k => if rnd then some (Config.rand16 (s.draw + k)) else none
    let pa := fun k => lane w (getV c.t vs1) k
    let x := fun k => decF f (pa k)
    let z := fun k => decF f (lane w (getV c.t vd) k)
    let lanes := fun (r : Ran) (g : Nat → Nat) => LanesWritten s' th c.t w zm mask vd (fun k => g k % 2 ^ w) r
    let forms := fun (pb : Nat → Nat) (add sub mul fma mn mx : Ran) =>
      lanes add (fun k => encF f (by' k) ((x k).add (decF f (pb k)))) ∧ lanes sub (fun k => encF f (by' k) ((x k).sub (decF f (pb k)))) ∧
      lanes mul (fun k => encF f (by' k) ((x k).mul (decF f (pb k)))) ∧
      lanes fma (fun k => encF f (by' k) (((x k).mul (decF f (pb k))).add (z k))) ∧
      lanes mn (fun k => fpick f false (pa k) (pb k)) ∧ lanes mx (fun k => fpick f true (pa k) (pb k))
    let pb := fun k => lane w (getV c.t vs2) k
    w = vtWidth ty ∧
    forms pb (exec (.vadd th ty rnd zm mask vs2 vs1 vd) s) (exec (.vsub th ty rnd zm mask vs2 vs1 vd) s)
      (exec (.vmul th ty rnd zm mask vs2 vs1 vd) s) (exec (.vfma th ty rnd zm mask vs2 vs1 vd) s)
      (exec (.vmin th ty rnd zm mask vs2 vs1 vd) s) (exec (.vmax th ty rnd zm mask vs2 vs1 vd) s) ∧
    forms (fun _ => (getS c.t rs).toNat % 2 ^ w)
      (exec (.vaddS th ty rnd zm mask rs vs1 vd) s) (exec (.vsubS th ty rnd zm mask rs vs1 vd) s)
      (exec (.vmulS th ty rnd zm mask rs vs1 vd) s) (exec (.vfmaS th ty rnd zm mask rs vs1 vd) s)
      (exec (.vminS th ty rnd zm mask rs vs1 vd) s) (exec (.vmaxS th ty rnd zm mask rs vs1 vd) s) ∧
    lanes (exec (.vdiv th ty rnd zm mask vs2 vs1 vd) s) (fun k => encF f (by' k) ((x k).div (decF f (pb k)))) ∧
    lanes (exec (.vsqrt th ty rnd zm mask vs1 vd) s) (fun k => encF f (by' k) (x k).sqrt) ∧
    lanes (exec (.vabs th ty rnd zm mask vs1 vd) s) (fun k => pa k % 2 ^ (w - 1)) ∧
    lanes (exec (.vneg th ty rnd zm mask vs1 vd) s) (fun k => (pa k + 2 ^ (w - 1)) % 2 ^ w)

/-- R235 and R236: exact decoding, canonical NaN, and the saturation of the FP8 types. -/
def Obligations.FormatsReencodeTheirPatterns : Prop :=
  (∀ f ∈ [fp32, bf16, fp16, e4m3, e5m2, e3m2, e2m3, e2m1], ∀ (v : Nat) (rnd : Option Nat), v < 2 ^ f.w →
    ((decF f v).isNan = false → encF f rnd (decF f v) = v) ∧ ((decF f v).isNan = true → encF f rnd (decF f v) = f.canon)) ∧
  (∀ (rnd : Option Nat) (n : Bool), encF e4m3 rnd (.inf n) = (if n then 0xFE else 0x7E) ∧ encF e5m2 rnd (.inf n) = (if n then 0xFC else 0x7C) ∧
    (∀ m : Nat, 448 < m → encF e4m3 rnd (.fin n m 0) = (if n then 0xFE else 0x7E)) ∧
    (∀ m : Nat, 57344 < m → encF e5m2 rnd (.fin n m 0) = (if n then 0xFB else 0x7B))) ∧
  fp32.canon = 0x7FC00000 ∧ bf16.canon = 0x7FC0 ∧ fp16.canon = 0x7E00 ∧ e4m3.canon = 0x7F ∧ e5m2.canon = 0x7E

/-- R231, with the identities of inactive lanes. -/
def Obligations.ReductionsCombineTheActiveLanes : Prop :=
  (∀ (s : State) (th : Nat) (c : TCtx) (ty : Fin 8) (rnd zm : Bool) (mask : Fin 8) (vs1 vd : Fin 16), Issues s th 4 c → ty.val < 3 →
    let w := vtWidth ty
    let a := fun k => lane w (getV c.t vs1) k
    let act := (List.range (512 / w)).filter (fun k => (getM c.t mask).getLsbD k)
    exec (.vredsum th ty rnd zm mask vs1 vd) s = ranV s th 4 (setV vd (BitVec.ofNat 512 ((act.map a).sum % 2 ^ w)) c.t) ∧
    (∃ r < 2 ^ w, exec (.vredmax th ty rnd zm mask vs1 vd) s = ranV s th 4 (setV vd (BitVec.ofNat 512 r) c.t) ∧
      (∀ k ∈ act, sext w (a k) ≤ sext w r) ∧ (r = 2 ^ (w - 1) ∨ r ∈ act.map a)) ∧
    (∃ r < 2 ^ w, exec (.vredmin th ty rnd zm mask vs1 vd) s = ranV s th 4 (setV vd (BitVec.ofNat 512 r) c.t) ∧
      (∀ k ∈ act, sext w r ≤ sext w (a k)) ∧ (r = 2 ^ (w - 1) - 1 ∨ r ∈ act.map a))) ∧
  (∀ (s : State) (th : Nat) (c : TCtx) (ty : Fin 8) (f : Fmt) (rnd zm : Bool) (mask : Fin 8) (vs1 vd : Fin 16), Issues s th 4 c →
    vtFmt ty = some f →
    let w := f.w
    let s' := if rnd then s.setDraw (s.draw + 128) else s
    let by' := fun i => if rnd then some (Config.rand16 (s.draw + i)) else none
    let lanes := fun (idle : Nat) => (List.range (512 / w)).map (fun k =>
      encF fp32 none (decF f (if (getM c.t mask).getLsbD k then lane w (getV c.t vs1) k else idle)))
    let wrote := fun (r : Nat) => ranV s' th 4 (setV vd (BitVec.ofNat 512 (r % 2 ^ 32)) c.t)
    exec (.vredsum th ty rnd zm mask vs1 vd) s =
      wrote (treeFold (fun i x y => encF fp32 (by' i) ((decF fp32 x).add (decF fp32 y))) 6 0 (lanes 0)) ∧
    exec (.vredmax th ty rnd zm mask vs1 vd) s = wrote (treeFold (fun _ x y => fpick fp32 true x y) 6 0 (lanes (extreme ty false))) ∧
    exec (.vredmin th ty rnd zm mask vs1 vd) s = wrote (treeFold (fun _ x y => fpick fp32 false x y) 6 0 (lanes (extreme ty true))))

/-- R233. -/
def Obligations.ComparesWriteMaskBits : Prop :=
  (∀ (s : State) (th : Nat) (c : TCtx) (ty : Fin 8) (rnd zm : Bool) (mask : Fin 8) (vs2 vs1 : Fin 16) (md : Fin 8), Issues s th 4 c →
    let w := vtWidth ty
    let a := fun k => lane w (getV c.t vs1) k
    let b := fun k => lane w (getV c.t vs2) k
    let wrote := fun (rel : Nat → Prop) (r : Ran) => ∃ m : SReg, r = ranV s th 4 (setM md m c.t) ∧
      ∀ k < 64, (m.getLsbD k = true ↔ k < 512 / w ∧ (getM c.t mask).getLsbD k = true ∧ rel k)
    (ty.val < 3 →
      wrote (fun k => a k = b k) (exec (.veq th ty rnd zm mask vs2 vs1 md) s) ∧
      wrote (fun k => a k ≠ b k) (exec (.vne th ty rnd zm mask vs2 vs1 md) s) ∧
      wrote (fun k => sext w (a k) < sext w (b k)) (exec (.vlt th ty rnd zm mask vs2 vs1 md) s) ∧
      wrote (fun k => sext w (a k) ≤ sext w (b k)) (exec (.vle th ty rnd zm mask vs2 vs1 md) s) ∧
      wrote (fun k => a k < b k) (exec (.vltu th ty rnd zm mask vs2 vs1 md) s) ∧
      wrote (fun k => a k ≤ b k) (exec (.vleu th ty rnd zm mask vs2 vs1 md) s)) ∧
    (∀ f, vtFmt ty = some f →
      wrote (fun k => (decF f (a k)).eq (decF f (b k)) = some true) (exec (.veq th ty rnd zm mask vs2 vs1 md) s) ∧
      wrote (fun k => (decF f (a k)).eq (decF f (b k)) ≠ some true) (exec (.vne th ty rnd zm mask vs2 vs1 md) s) ∧
      wrote (fun k => (decF f (a k)).lt (decF f (b k)) = some true) (exec (.vlt th ty rnd zm mask vs2 vs1 md) s) ∧
      wrote (fun k => (decF f (b k)).lt (decF f (a k)) = some false) (exec (.vle th ty rnd zm mask vs2 vs1 md) s) ∧
      exec (.vltu th ty rnd zm mask vs2 vs1 md) s = faultedV s c fkIllegal ∧
      exec (.vleu th ty rnd zm mask vs2 vs1 md) s = faultedV s c fkIllegal)) ∧
  (∀ x y : FV, x = .nan ∨ y = .nan → x.eq y = none ∧ x.lt y = none ∧ y.lt x = none)

/-- The lane rows of R210. -/
def Obligations.LanesAndScalarsMove : Prop :=
  ∀ (s : State) (th : Nat) (c : TCtx) (ty : Fin 8) (rnd zm : Bool) (mask : Fin 8) (rs : Fin 32) (ln : Fin 64) (vs2 vs1 vd : Fin 16), Issues s th 4 c →
    let w := vtWidth ty
    let n := 512 / w
    (∃ v : VReg, exec (.vsel th ty rnd zm mask vs2 vs1 vd) s = ranV s th 4 (setV vd v c.t) ∧
      ∀ k < n, lane w v k = if (getM c.t mask).getLsbD k then lane w (getV c.t vs1) k else lane w (getV c.t vs2) k) ∧
    LanesWritten s th c.t w zm mask vd (fun _ => (getS c.t rs).toNat % 2 ^ w) (exec (.vbcast th ty rnd zm mask rs vd) s) ∧
    (∃ v : VReg, exec (.vins th ty ln rs vd) s = ranV s th 4 (setV vd v c.t) ∧
      ∀ k < n, lane w v k = if k = ln.val then (getS c.t rs).toNat % 2 ^ w else lane w (getV c.t vd) k) ∧
    (∃ v : VReg, exec (.vidx th ty vd) s = ranV s th 4 (setV vd v c.t) ∧
      ∀ k < n, lane w v k = match vtFmt ty with | some f => encF f none (.fin false k 0) % 2 ^ w | none => k) ∧
    (ln.val < n → exec (.vext th ty ln rs vs1) s =
      ranV s th 4 (setS rs (if ty.val < 3 then BitVec.ofInt 64 (sext w (lane w (getV c.t vs1) ln.val))
                           else BitVec.ofNat 64 (lane w (getV c.t vs1) ln.val)) c.t)) ∧
    (n ≤ ln.val → ∃ q, exec (.vext th ty ln rs vs1) s = ranV s th 4 (setS rs q c.t))

/-- R237 and R238. -/
def Obligations.ConversionsFollowTheirTable : Prop :=
  (∀ (s : State) (th : Nat) (c : TCtx) (ty src : Fin 8) (rnd zm : Bool) (mask : Fin 8) (vs1 vd : Fin 16), Issues s th 4 c →
    let wd := vtWidth ty
    let ws := vtWidth src
    let rs := if wd < ws then ws / wd else 1
    let rd := if ws < wd then wd / ws else 1
    let by' := fun k => if rnd then some (Config.rand16 (s.draw + k)) else none
    (vs1.val % rs ≠ 0 ∨ vd.val % rd ≠ 0 → exec (.vcvt th ty rnd zm mask src vs1 vd) s = faultedV s c fkIllegal) ∧
    (vs1.val % rs = 0 → vd.val % rd = 0 → ∃ t' : Thread,
      exec (.vcvt th ty rnd zm mask src vs1 vd) s = ranV (if rnd then s.setDraw (s.draw + 64) else s) th 4 t' ∧
      (∀ n < rd * (512 / wd), groupLane wd t' vd.val n =
        if (getM c.t mask).getLsbD n then convert src ty (by' n) (groupLane ws c.t vs1.val n) % 2 ^ wd
        else if zm then 0 else groupLane wd c.t vd.val n) ∧
      (∀ i < 16, (i < vd.val ∨ vd.val + rd ≤ i) → vAt t' i = vAt c.t i) ∧
      t'.s = c.t.s ∧ t'.m = c.t.m ∧ t'.lc = c.t.lc ∧ t'.lpos = c.t.lpos ∧ t'.pc = c.t.pc)) ∧
  (∀ (src dst : Fin 8) (rnd : Option Nat) (x : Nat),
    (∀ f g, vtFmt src = some f → vtFmt dst = some g → convert src dst rnd x = encF g rnd (decF f x)) ∧
    (∀ f, vtFmt src = some f → vtFmt dst = none →
      sext (vtWidth dst) (convert src dst rnd x) = toInt rnd (vtWidth dst) (decF f x) ∧ ((decF f x).isNan = true → convert src dst rnd x = 0)) ∧
    (∀ g, vtFmt src = none → vtFmt dst = some g → convert src dst rnd x = encF g rnd (FV.ofInt (sext (vtWidth src) x))) ∧
    (vtFmt src = none → vtFmt dst = none →
      let w := vtWidth dst
      sext w (convert src dst rnd x) = max (-(2 : Int) ^ (w - 1)) (min ((2 : Int) ^ (w - 1) - 1) (sext (vtWidth src) x))))

/-- R239 and R240. -/
def Obligations.MicroscalingBlocksPackAndUnpack : Prop :=
  (∀ (s : State) (th : Nat) (c : TCtx) (ty src : Fin 8) (rnd zm : Bool) (mask : Fin 8) (vs1 vd : Fin 16), Issues s th 4 c →
    (ty.val ≠ 3 ∧ ty.val ≠ 4 ∨ 4 < src.val ∨ mask ≠ 0 →
      exec (.vmxpk th ty rnd zm mask src vs1 vd) s = faultedV s c fkIllegal ∧
      exec (.vmxunpk th ty rnd zm mask src vs1 vd) s = faultedV s c fkIllegal) ∧
    (ty.val = 3 → vs1.val % 2 = 1 → exec (.vmxpk th ty rnd zm mask src vs1 vd) s = faultedV s c fkIllegal) ∧
    (ty.val = 3 → vd.val % 2 = 1 → exec (.vmxunpk th ty rnd zm mask src vs1 vd) s = faultedV s c fkIllegal) ∧
    (∀ f emax, mxFmt src.val = some (f, emax) → mask = 0 → (ty.val = 3 ∨ ty.val = 4) →
      let by' := fun k => if rnd then some (Config.rand16 (s.draw + k)) else none
      let s' := if rnd then s.setDraw (s.draw + 64) else s
      let wide := if ty.val = 3 then 32 else 16
      let el := fun (k : Nat) => decF (if ty.val = 3 then fp32 else bf16) (groupLane wide c.t vs1.val k)
      let code := mxScale emax ((List.range 32).map el)
      let packed := (getV c.t vs1).toNat
      (¬ (ty.val = 3 ∧ vs1.val % 2 = 1) → ∃ v : VReg,
        exec (.vmxpk th ty rnd zm mask src vs1 vd) s = ranV s' th 4 (setV vd v c.t) ∧
        (∀ k < 32, bits v.toNat (f.w * k) f.w = mxElem f code (by' k) (el k) % 2 ^ f.w) ∧ bits v.toNat 504 8 = code ∧
        bits v.toNat (f.w * 32) (504 - f.w * 32) = 0 ∧
        ((∃ k < 32, (el k).isFin = false) → code = 0xFF ∧ ∀ k < 32, mxElem f code (by' k) (el k) = 0) ∧
        ((∀ k < 32, (el k).isZero = true) → code = 127)) ∧
      (ty.val = 4 → ∃ v : VReg, exec (.vmxunpk th ty rnd zm mask src vs1 vd) s = ranV s' th 4 (setV vd v c.t) ∧
        ∀ k < 32, lane 16 v k = encF bf16 (by' k) (mxValue f (bits packed 504 8) (bits packed (f.w * k) f.w)) % 2 ^ 16) ∧
      (ty.val = 3 → vd.val % 2 = 0 → ∃ (v0 v1 : VReg) (h : vd.val + 1 < 16),
        exec (.vmxunpk th ty rnd zm mask src vs1 vd) s = ranV s' th 4 (setV ⟨vd.val + 1, h⟩ v1 (setV vd v0 c.t)) ∧
        ∀ k < 16, lane 32 v0 k = encF fp32 (by' k) (mxValue f (bits packed 504 8) (bits packed (f.w * k) f.w)) % 2 ^ 32 ∧
          lane 32 v1 k = encF fp32 (by' (16 + k)) (mxValue f (bits packed 504 8) (bits packed (f.w * (16 + k)) f.w)) % 2 ^ 32)))

/-- The VM rows of R210; vaadd adds no lane before every lane may be added (R164). -/
def Obligations.VectorMemoryTouchesActiveLanes : Prop :=
  ∀ (s : State) (th : Nat) (c : TCtx) (ty : Fin 8) (off : BitVec 6) (mask : Fin 8) (zm : Bool) (rs1 : Fin 32) (vd : Fin 16) (io : MemIo),
    Issues s th 4 c →
    let w := vtWidth ty
    let at' := getS c.t rs1 + BitVec.ofInt 64 (off.toInt * 64)
    let place := fun (k : Nat) => at' + BitVec.ofNat 64 (w * k / 8)
    let act := (List.range (512 / w)).filter (fun k => (getM c.t mask).getLsbD k)
    let s0 := memFaults c io s
    (∀ (val : Nat → Nat) (s' : State),
      InTurn (fun k x y => ∃ bs, loadMem c (place k) (w / 8) ((io.data.drop (w * k / 8)).take (w / 8)) (ioFails io k) x = .ok bs y ∧ leVal bs = val k)
        act s0 s' →
      LanesWritten s' th c.t w zm mask vd (fun k => val k % 2 ^ w) (exec (.vld th ty off mask zm rs1 vd io) s)) ∧
    (∀ s', InTurn (fun k x y => storeMem c (place k) (leBytes (w / 8) (lane w (getV c.t vd) k)) (ioFails io k) x = .ok () y) act (storeFaults c io at' (w / 8) 1 s) s' →
      exec (.vst th ty off mask zm rs1 vd io) s = ranV s' th 4 c.t) ∧
    (∀ bs s', act ≠ [] → loadMem c at' (w / 8) io.data io.failAt.isSome s0 = .ok bs s' →
      LanesWritten s' th c.t w zm mask vd (fun _ => leVal bs % 2 ^ w) (exec (.vldb th ty off mask zm rs1 vd io) s)) ∧
    (act = [] → LanesWritten s th c.t w zm mask vd (fun _ => 0) (exec (.vldb th ty off mask zm rs1 vd io) s)) ∧
    (ty.val ≠ 3 → ty.val ≠ 4 → exec (.vaadd th ty off mask zm rs1 vd io) s = faultedV s c fkIllegal) ∧
    (ty.val = 3 ∨ ty.val = 4 → at'.toNat % 64 ≠ 0 → exec (.vaadd th ty off mask zm rs1 vd io) s = faultedV s c fkAlign) ∧
    (∀ f, vtFmt ty = some f → ty.val = 3 ∨ ty.val = 4 → at'.toNat % 64 = 0 →
      let ready := fun (k : Nat) (x y : State) => atomicReady c (place k) (f.w / 8) x = .ok () y
      let s0 := storeFaults c io at' (f.w / 8) 2 s
      (∀ s1 s', InTurn ready act s0 s1 →
        InTurn (fun k x y => ∃ old, atomicMem c (place k) (f.w / 8) (fun old => some (leBytes (f.w / 8)
          (encF f none ((decF f (leVal old)).add (decF f (lane f.w (getV c.t vd) k)))))) x = .ok old y) act s1 s' →
        exec (.vaadd th ty off mask zm rs1 vd io) s = ranV s' th 4 c.t) ∧
      (∀ pre k post s1 s2, act = pre ++ k :: post → InTurn ready pre s0 s1 →
        (atomicReady c (place k) (f.w / 8) s1 = .wait s2 → exec (.vaadd th ty off mask zm rs1 vd io) s = .next (settle (setThread th c.t s2))) ∧
        (∀ q, atomicReady c (place k) (f.w / 8) s1 = .fault q s2 → exec (.vaadd th ty off mask zm rs1 vd io) s = faultedV s2 c q)))

/-- R186, R188 to R194 and R197. -/
def Obligations.CoreFailuresAreRecordedAndSparedOut : Prop :=
  (∀ (s : State) (th p core : Nat) (c : TCtx), tctx s th = some c → physOf s th = some (p, core) → p < 17 →
    let b := blkCluster p
    (∃ t, exec (.residueMismatch th false) s = .next t ∧ Recorded s t b 1 0x0100 [core, th % 64] ∧
      cell t b 0x110 = (cell s b 0x110 + 1) % 2 ^ 32 ∧ t.mason = (slotUsed (nextIsVector s c) true th s).mason ∧
      t.mason = { s.mason with slots := t.mason.slots } ∧ t.mem = s.mem) ∧
    (∃ t, exec (.residueMismatch th true) s = .next t ∧ Recorded s t b 2 0x0101 [core, th % 64] ∧
      cell t b 0x114 = (cell s b 0x114 + 1) % 2 ^ 32 ∧ (p, core) ∈ t.mason.stopping ∧
      (∀ x, x ∈ t.mason.stopping ↔ x ∈ s.mason.stopping ∨ x = (p, core)) ∧ t.mason.threads = s.mason.threads ∧ t.mem = s.mem) ∧
    (let seen := s.setMason { s.mason with parityFails := put s.mason.parityFails (p * 32 + core) (now s (blkIsland b)) }
     ((∃ e ∈ s.mason.parityFails, e.1 = p * 32 + core ∧ now s (blkIsland b) ≤ e.2 + 1000000000) →
       exec (.registerParityFault th) s = .next (endItem c (some fkParity) (stopCore p core seen))) ∧
     ((∀ e ∈ s.mason.parityFails, e.1 = p * 32 + core → e.2 + 1000000000 < now s (blkIsland b)) →
       exec (.registerParityFault th) s = .next (endItem c (some fkParity) seen)))) ∧
  (∀ (s : State) (cluster core line k : Nat) (instruction : Bool), cluster < 17 → logicalCore s cluster core = some k →
    let b := blkCluster cluster
    ∃ t i0 i1, exec (.l1ParityRefetch cluster core line instruction) s = .next t ∧ Recorded s t b 1 2 [i0, i1] ∧
      cell t b 0x118 = (cell s b 0x118 + 1) % 2 ^ 32 ∧ t.mem = s.mem ∧
      (instruction = true → t.mason = s.mason) ∧ (instruction = false → look (l1Of t k) (lineOf line) = none)) ∧
  (∀ (s : State) (who : Requester) (cluster p : Nat), cluster ≤ 16 → p < 17 →
    let req := exec (.clSpareReq who cluster (BitVec.ofNat 17 (2 ^ p))) s
    (trusted who = true → (unitOf s cluster).active.testBit p = true → (unitOf s cluster).spare ≠ 31 → (∀ x ∈ s.mason.stopping, x.1 ≠ cluster) →
      ∃ t, req = .next t ∧ t.mason.stopping = s.mason.stopping ++ [(cluster, p)] ∧ t.mason.units = s.mason.units ∧ t.mem = s.mem ∧ t.csr = s.csr) ∧
    (trusted who = false ∨ (unitOf s cluster).active.testBit p = false ∨ (unitOf s cluster).spare = 31 ∨ (∃ x ∈ s.mason.stopping, x.1 = cluster) →
      ∃ t, req = .next t ∧ t.mason = s.mason ∧ t.mem = s.mem ∧ cell t blkGlobal 0x16C = (cell s blkGlobal 0x16C + 1) % 2 ^ 32 ∧
        cell t blkGlobal 0x170 = (blkBase (blkCluster cluster) + 0x11C) % 2 ^ 32)) ∧
  (∀ (s : State) (cluster core : Nat), (cluster, core) ∈ s.mason.stopping → core < 17 →
    let u := unitOf s cluster
    let gone := s.setMason { s.mason with stopping := s.mason.stopping.filter (· != (cluster, core)) }
    let clear := fun (x : State) => match logicalCore s cluster core with | some k => l1Clear k x | none => x
    (u.spare ≠ 31 → u.active.testBit core = true → u.active.testBit u.spare = false →
      ∃ v : ClusterSt, exec (.coreSafePoint cluster core) s =
          .next (settle (logSpare (blkCluster cluster) 4 core 0 (ackSpare (blkCluster cluster) (setUnit cluster v (clear gone))))) ∧
        v.spare = 31 ∧ v.logical = u.logical ∧ v.cores = u.cores.map (fun c => if c = core then u.spare else c) ∧
        (∀ i, v.active.testBit i = if i = u.spare then true else if i = core then false else u.active.testBit i) ∧
        (∀ i, v.failed.testBit i = (u.failed.testBit i || decide (i = core)))) ∧
    (u.spare = 31 → ∃ v : ClusterSt,
        let lost := logPolicy (blkIsland (blkCluster cluster)) 7 4 (blkCluster cluster) core 31 (setUnit cluster v (clear gone))
        exec (.coreSafePoint cluster core) s =
          .next (settle (match logicalCore s cluster core with
            | some k => abandonCore k lost
            | none => lost)) ∧
        v.cores = u.cores.map (fun c => if c = core then 31 else c) ∧ v.spare = 31 ∧ v.logical = u.logical)) ∧
  (∀ (s : State) (logical p q : Nat) (u v : ClusterSt) (badWords : List Nat),
    physCluster s logical = some (p, u) → spareCluster s = some (q, v) → p ≠ q →
    ∃ x, exec (.clusterSpareOut logical badWords) s = .next (settle (logSpare (blkCluster p) 4 p 0 x)) ∧
      (unitOf x q).logical = logical ∧ (unitOf x q).active = v.active ∧ (unitOf x p).logical = 0xFF ∧ (unitOf x p).active = 0 ∧
      x.mem.cells = s.mem.cells ∧ x.mason.threads = s.mason.threads ∧
      (∀ w ∈ badWords, scratchDpa logical ≤ w → w < scratchDpa (logical + 1) → w / 8 * 8 ∈ x.mem.badWords))

/-- R63 to R71, R79, R80 and R83. -/
def Obligations.IcpSessionsOpenRenewAndEnd : Prop :=
  (∀ (via : Via) (pkt : IcpPkt) (s s0 : State) (c : Ctx), Starts 0x0000 via pkt s c s0 → waitsOf s0 via = [] →
    let before := if (sessionOf s0 via).isSome then endSession via s0 else s0
    (∀ m, commonMajor s0 (listed c) = some m → sessionsFull before via = false → ∃ (x : Session) (lease gen : Nat) (clamped : Bool) (s1 : State),
      Replied (exec (.hello via pkt) s) c stOk (okDetail clamped) (helloReply before m x.minor x.sid x.caps lease gen) s1 ∧
      sessionOf s1 via = some x ∧ x.major = m ∧ 1 ≤ x.sid ∧ x.sid < 2 ^ 32 ∧ x.minor = min (partMinor before m) (((listed c).filter (fun v => v.1 == m)).map (·.2) |>.foldl max 0) ∧
      (m = 2 → x.caps = 0) ∧ x.caps < 64 ∧ x.lastUse = nowSt before) ∧
    (commonMajor s0 (listed c) = none → Replied (exec (.hello via pkt) s) c stVersion dtNone (helloReply s0 0 0 0 0 0 0) s0)) ∧
  (∀ (via : Via) (pkt : IcpPkt) (s s0 : State) (c : Ctx), Starts 0x0001 via pkt s c s0 → waitsOf s0 via = [] →
    let ended := endSession via (sendReply 1 via c.pkt stOk dtNone [] s0)
    Onward (exec (.goodbye via pkt) s) (dropStage (ownerFor via) ended) ∧
    (via = .ring 0 ∨ via = .ring 3 ∨ (∃ ep, via = .accel ep) → sessionOf ended via = none)) ∧
  (∀ (via : Via) (pkt : IcpPkt) (s s0 : State) (c : Ctx), Starts 0x0003 via pkt s c s0 →
    (waitsOf s0 via = [] → Replied (exec (.flush via pkt) s) c stOk dtNone (layout 8 [(0, 4, 0)]) s0) ∧
    (waitsOf s0 via ≠ [] → Onward (exec (.flush via pkt) s) (addWait c .barrier 0 (waitsOf s0 via).length s0))) ∧
  (∀ (fn : Nat) (pkt : IcpPkt) (s s0 : State) (c : Ctx) (f : Fn), Starts 0x0002 (.ring fn) pkt s c s0 → look s0.fns fn = some f →
    let ms := if c.p 0 4 = 0 then f.leaseMs else max 100 (min 60000 (c.p 0 4))
    Replied (exec (.leaseRenew (.ring fn) pkt) s) c stOk (okDetail (c.p 0 4 != 0 && c.p 0 4 != ms)) (layout 8 [(0, 4, ms), (4, 2, f.gen)])
      (setFn fn { f with leaseMs := ms, leaseOn := true, leaseFrom := nowSt s0 } s0)) ∧
  (∀ (via : Via) (pkt : IcpPkt) (s s0 : State) (c : Ctx), Starts 0x0100 via pkt s c s0 →
    Replied (exec (.getIdentity via pkt) s) c stOk dtNone (identity s0) s0) ∧
  (∀ (peer : Nat) (s : State), (sessionOf s (.mgmt peer)).isSome = true →
    exec (.managementSessionIdle peer) s =
      .next (dropStage (.session (.mgmt peer)) (s.setIcp { s.icp with sessions := del s.icp.sessions (.mgmt peer) })))

/-- R90 to R98. -/
def Obligations.StagedConfigurationCommitsOrAborts : Prop :=
  (∀ (via : Via) (pkt : IcpPkt) (s s0 s' : State) (c : Ctx) (d : Nat) (data : Bytes), Starts 0x0110 via pkt s c s0 →
    let t := c.p 0 2
    let n := c.p 8 2
    let config := (c.params.drop 16).take n
    let block := stageCtx c t config
    let o := ownerFor via
    let new := stageObjs t block s0 s' data
    let rest := s0.icp.stage.filter (fun e => !(e.otype == t && (stageObjs t block s0 s' []).any (fun x => x.1 == e.handle)))
    let es := new.map (fun x => ({ owner := o, otype := t, handle := x.1, config := x.2 } : StageEntry))
    let mine := rest.filter (fun x => x.owner == o) ++ es
    let used := (mine.map (fun x => x.config.length)).sum
    1 ≤ t → t ≤ 9 → handleAgrees t (c.p 4 4) block = true → n ≤ 4048 → 16 + n ≤ c.pkt.paramLen →
    runStaged c t config s0 = .reply s' stOk d data → mine.length ≤ 256 → used ≤ 1048576 →
    (∀ x ∈ s0.icp.stage, x.otype = t → touches t block s0 x.handle = true → x.owner = o) → committing s0 o = false →
    Replied (exec (.cfgStage via pkt) s) c stOk (okDetail (d == dtClamped)) (layout 16 [(0, 4, mine.length), (4, 4, used)])
      (s0.setIcp { s0.icp with stage := rest ++ es }) ∧
    (t ≠ 2 → t ≠ 3 → new = [(stageKey t block, data)]) ∧ (t = 3 → new = [(stageKey 3 block, spreadBlock block)])) ∧
  (∀ (via : Via) (pkt : IcpPkt) (s s0 s' : State) (c : Ctx), Starts 0x0111 via (withByte 0 (fun _ => 0) pkt) s c s0 → c.p 0 1 = 0 →
    committing s0 (ownerFor via) = false → applyStage true c (stageSet s0 (ownerFor via)) s0 = (s', none) →
    let n := (stageSet s0 (ownerFor via)).length
    (unflipped s' (ownerFor via) = false →
      Replied (exec (.cfgCommitRolling via pkt) s) c stOk (okDetail (drainBound c != c.p 4 4)) (commitReply 0 (drainBound c) n 0 0)
        (clearSet (ownerFor via) s')) ∧
    (unflipped s' (ownerFor via) = true → Onward (exec (.cfgCommitRolling via pkt) s) (addWait c .rolling 0 n (openCommit c s')))) ∧
  (∀ (via : Via) (pkt : IcpPkt) (s s0 s' : State) (c : Ctx), Starts 0x0111 via (withByte 0 (fun _ => 1) pkt) s c s0 → c.p 0 1 = 1 →
    committing s0 (ownerFor via) = false → applyStage false c (stageSet s0 (ownerFor via)) s0 = (s', none) →
    Onward (exec (.cfgCommitDrain via pkt) s) (addWait c .drain 0 (stageSet s0 (ownerFor via)).length (openCommit c s0)) ∧
    10 ≤ drainBound c ∧ drainBound c ≤ 100000) ∧
  (∀ (via : Via) (pkt : IcpPkt) (s s0 : State) (c : Ctx), Starts 0x0112 via pkt s c s0 → committing s0 (ownerFor via) = false →
    Replied (exec (.cfgAbort via pkt) s) c stOk dtNone (layout 8 [(0, 4, (stageSet s0 (ownerFor via)).length)]) (clearSet (ownerFor via) s0) ∧
    stageSet (clearSet (ownerFor via) s0) (ownerFor via) = []) ∧
  (∀ (owner : Via) (s : State) (w : Waiter) (k : Commit), commitOf s owner .drain = some (w, k) →
    let t := commitTime s k
    let d := if k.bound = le w.pkt.params 4 4 then dtNone else dtClamped
    let es := stageSet s k.owner
    let resume := fun (x : State) => livePause (resumeIntake x)
    let wc := waitCtx s w
    let kept := s.setIcp { s.icp with commits := s.icp.commits.filter (fun x => x.owner != k.owner) }
    (courseWork s es = true → exec (.drainComplete owner) s = .next s) ∧
    (∀ s', courseWork s es = false → applyStage false { wc with pkt := { wc.pkt with flags := 0 } } es s = (s', none) →
      exec (.drainComplete owner) s = .next (resume (finishWait w stOk d (commitReply 1 k.bound es.length t t) (clearSet k.owner (gatesNow es s'))))) ∧
    (∀ s' st e, courseWork s es = false → applyStage false { wc with pkt := { wc.pkt with flags := 0 } } es s = (s', some (st, e)) →
      exec (.drainComplete owner) s = .next (resume (finishWait w st e [] kept))) ∧
    exec (.drainBoundExpiry owner) s = .next (resume (finishWait w stFailed dtDrain (commitReply 1 k.bound 0 t t) kept)))

/-- R72, the CHECK_ONLY flag of R54 and INTERNAL_ERROR of R75; a reply changes nothing but its ring, an endpoint's slot of it in the queue region
(R66), the dirty log of the memory that its slot lies in, the count of messages a port block has dropped (R384) and the pending bits of MSI-X. -/
def Obligations.RejectedCommandsChangeNothing : Prop :=
  (∀ (op : Nat) (h : Handler) (via : Via) (pkt : IcpPkt) (s : State) (st d : Nat), icpCheck op via pkt s = some (st, d) →
    icpStart op h via pkt s = sendReply op via pkt st d [] s) ∧
  (∀ (op : Nat) (h : Handler) (via : Via) (pkt : IcpPkt) (s : State), icpCheck op via pkt s = none → pkt.fwFault = true →
    icpStart op h via pkt s = sendReply op via pkt stInternal dtNone [] (recordCon blkSteward 0x0100 [op, pkt.tag] s)) ∧
  (∀ (op : Nat) (h : Handler) (via : Via) (pkt : IcpPkt) (s : State), icpCheck op via pkt s = none → pkt.fwFault = false →
    flagBit pkt.flags 1 = true →
    ∃ st d data, icpStart op h via pkt s = sendReply op via pkt st d data s ∧
      let ran := h { via := via, pkt := { pkt with opcode := op }, iss := issuerOf s via, sess := sessionOf s via } s
      (∀ s' st' d' data', ran = .reply s' st' d' data' → st = st' ∧ d = d' ∧ data = data') ∧
      (∀ s' d' data', ran = .later s' d' data' → st = stOk ∧ d = d' ∧ data = data')) ∧
  (∀ (op : Nat) (via : Via) (pkt : IcpPkt) (st d : Nat) (data : Bytes) (s : State),
    let t := sendReply op via pkt st d data s
    ((∀ k, ringKey via = some k → isAccel k = false) → t.mem = s.mem) ∧
    (∀ k a, ringKey via = some k → data.length ≤ 4064 → (∀ i < 4096, accelRingByte s k true (4096 * (ringOf s k).rplProd + i) ≠ some a) →
      memGet t.mem.cells a = memGet s.mem.cells a) ∧
    (∀ k, { fnD t k with dirty := none } = { fnD s k with dirty := none }) ∧
    ((∀ k, ringKey via = some k → silenced s k = false) → t.csr = s.csr) ∧
    (∀ b off, (∀ p, ¬ (b = blkPb p ∧ off = 0x11C)) → cell t b off = cell s b off) ∧
    t.err = s.err ∧ t.tab = s.tab ∧ t.mason = s.mason ∧ t.course = s.course ∧ t.sec = s.sec ∧
    t.boot = s.boot ∧ t.pwr = s.pwr ∧ t.sto = s.sto ∧ t.pp = s.pp ∧ t.grt = s.grt ∧ t.tel = s.tel ∧
    t.ports = { s.ports with msixPending := t.ports.msixPending } ∧ t.pending = s.pending ∧
    t.icp.stage = s.icp.stage ∧ t.icp.waits = s.icp.waits ∧ t.icp.behind = s.icp.behind ∧ (∃ o, t.out = s.out ++ o))

/-- R243 to R251: what each command answers in every case, and the state that it leaves. -/
def Obligations.TablesAreCreatedQueriedAndDestroyed : Prop :=
  (∀ (via : Via) (pkt : IcpPkt) (s s0 : State) (c : Ctx), Starts 0x0200 via pkt s c s0 →
    let r := exec (.tableCreate via pkt) s
    let o := c.iss.owner
    let known := (c.p 0x14 1).testBit 1 && domainHeld s0 (c.p 0x48 4)
    (∀ st d, firstBad (createChecks c s0) = some (st, d) → Replied r c st d [] s0) ∧
    (firstBad (createChecks c s0) = none → freeTableIndex s0 = none ∨ s0.mem.hotTotal = 0 → Replied r c stNoResource dtNone [] s0) ∧
    (∀ ti, firstBad (createChecks c s0) = none → freeTableIndex s0 = some ti → s0.mem.hotTotal ≠ 0 →
      let t : Tbl := { createTbl c s0 with handle := ((fnD s0 o).slot.getD 0) % 1024 * 2 ^ 22 + ti * 2 ^ 10 + lookD s0.tab.gens ti 1 }
      let eff := [(0, 8, t.rows), (0xC, 4, t.rowBytes), (0x10, 4, t.dim), (0x18, 4, t.initValue), (0x20, 4, t.lr), (0x24, 4, t.beta1),
        (0x28, 4, t.beta2), (0x2C, 4, t.epsilon), (0x30, 4, t.decay), (0x34, 4, t.momentum), (0x38, 4, t.trustMax),
        (0x3C, 4, t.gradScale), (0x44, 4, t.ruleId), (0x48, 4, t.domainId), (0x58, 4, t.ringEntries)]
      (quotaOf s0 o < quotaUsed s0 o + tblCharge t ∨ allocTable ti t s0 = none → Replied r c stNoResource dtNone [] s0) ∧
      (∀ s1, quotaUsed s0 o + tblCharge t ≤ quotaOf s0 o → allocTable ti t s0 = some s1 →
        (known = true → Replied r c stConflict 0x012C [] s0) ∧
        (known = false → Replied r c stOk (okDetail (c.differs eff)) (c.echo 128 tableNames (eff ++ [(0x4C, 4, t.handle)]))
          (initTable ti t (setTbl ti t s1)))) ∧
      t.owner = o ∧ t.visible = true ∧ t.status = 0 ∧ (lookD s0.tab.gens ti 1 < 1024 → handleIndex t.handle = ti))) ∧
  (∀ (via : Via) (pkt : IcpPkt) (s s0 : State) (c : Ctx), Starts 0x0202 via pkt s c s0 →
    (tblFor c s0 (c.p 0 4) = none → Replied (exec (.tableQuery via pkt) s) c stBadHandle (dtField 0) [] s0) ∧
    (∀ ti t, tblFor c s0 (c.p 0 4) = some (ti, t) →
      let mine := s0.mem.blocks.filter (fun b => b.table == ti)
      let frames := fun (hot : Bool) => (mine.filter (fun b => match b.frame with | some f => isHotFrame f == hot | none => false)).length
      Replied (exec (.tableQuery via pkt) s) c stOk dtNone (layout 128 [(0, 4, t.handle), (4, 4, t.status), (8, 8, t.localRows),
        (0x10, 8, if t.hashed then keysUsed s0 ti t else t.localRows), (0x18, 4, frames true), (0x1C, 4, frames false),
        (0x20, 8, poisonedRows t), (0x28, 8, t.rolledBack), (0x30, 4, t.lastCourse), (0x34, 4, t.ringLost), (0x38, 8, t.updates),
        (0x40, 8, t.lookups)]) s0)) ∧
  (∀ (via : Via) (pkt : IcpPkt) (s s0 : State) (c : Ctx), Starts 0x0201 via pkt s c s0 →
    let r := exec (.tableDestroy via pkt) s
    (tblFor c s0 (c.p 0 4) = none → Replied r c stBadHandle (dtField 0) [] s0) ∧
    (∀ ti t, tblFor c s0 (c.p 0 4) = some (ti, t) →
      let held := courseLive s0 && (crun s0).tables.contains ti
      (t.status = 2 → Replied r c stBadHandle (dtField 0) [] s0) ∧
      (t.status ≠ 2 → held = true → Replied r c stBusy dtNone [] s0) ∧
      (t.status ≠ 2 → held = false → tableBusy s0 ti = false →
        Replied r c stOk dtNone (layout 8 [(0, 4, t.handle), (4, 4, tblCharge t)]) (freeTable ti s0)) ∧
      (t.status ≠ 2 → held = false → tableBusy s0 ti = true →
        Onward r (addWait c .destroy ti 0 (setTbl ti { t with status := 2 } s0)))))

/-- R172 to R183, R254 and R275: what each command answers in every case, and the state that it leaves. -/
def Obligations.QueuePairsKernelsAndRulesAreMade : Prop :=
  (∀ (via : Via) (pkt : IcpPkt) (s s0 : State) (c : Ctx), Starts 0x0204 via pkt s c s0 →
    let r := exec (.cqpCreate via pkt) s
    let o := c.iss.owner
    let sq := max 4 (min 15 (c.p 0x10 1))
    let cq := max sq (min 15 (c.p 0x11 1))
    let infl := max 1 (min 4096 (c.p 0x18 4))
    let hp := queueHost s0 o (c.p 0x16 2)
    (∀ st d, firstBad (cqpChecks c s0) = some (st, d) → Replied r c st d [] s0) ∧
    (firstBad (cqpChecks c s0) = none → lowest 8192 (fun n => !has s0.tab.cqps n) = none ∨ freePage s0 o = none →
      Replied r c stNoResource dtNone [] s0) ∧
    (∀ n page, firstBad (cqpChecks c s0) = none → lowest 8192 (fun n => !has s0.tab.cqps n) = some n → freePage s0 o = some page →
      let q : Cqp := { owner := o, gen := genOf s0 o, sqAddr := c.p 0 8, cqAddr := c.p 8 8, sqLog2 := sq, cqLog2 := cq, version := c.p 0x12 1,
                       place := c.p 0x13 1, vector := c.p 0x14 2, endpoint := c.p 0x16 2, inflight := infl, page := page }
      let eff := [(0x10, 1, sq), (0x11, 1, cq), (0x18, 4, infl)]
      let made := fun (q : Cqp) (x : State) => Replied r c stOk (okDetail (c.differs eff))
        (c.echo 64 (whole [(0, 8), (8, 8), (0x12, 1), (0x13, 1), (0x14, 2), (0x16, 2)])
          (eff ++ [(0x1C, 4, n), (0x20, 8, q.sqAddr), (0x28, 8, q.cqAddr), (0x30, 8, bar2Addr x o (4096 * page))])) (setCqp n q x)
      (c.p 0x13 1 = 0 → made q s0) ∧
      (c.p 0x13 1 ≠ 0 → placeQueue n hp o sq cq s0 = none → Replied r c stNoResource dtNone [] s0) ∧
      (∀ i j s1, c.p 0x13 1 ≠ 0 → placeQueue n hp o sq cq s0 = some (i, j, s1) →
        let base := bar2Addr s0 (pfId hp 0) 0x10000000
        ((bar2Base s0 (pfId hp 0)).isSome = false → Replied r c stConflict dtNone [] s0) ∧
        ((bar2Base s0 (pfId hp 0)).isSome = true → made { q with sqAddr := base + 4096 * i, cqAddr := base + 4096 * j } s1)))) ∧
  (∀ (via : Via) (pkt : IcpPkt) (s s0 : State) (c : Ctx), Starts 0x0205 via pkt s c s0 →
    let r := exec (.cqpDestroy via pkt) s
    let n := c.p 0 4
    (cqpOf s0 n = none → Replied r c stBadHandle (dtField 0) [] s0) ∧
    (∀ q, cqpOf s0 n = some q →
      let closed := setCqp n { q with closing := true, unread := [], waiting := [], closedCount := 0 } s0
      (mayName c q.owner = false ∨ q.closing = true → Replied r c stBadHandle (dtField 0) [] s0) ∧
      (mayName c q.owner = true → q.closing = false → q.running = [] →
        Replied r c stOk dtNone (layout 8 [(0, 4, n)]) (settle (removeCqp n closed))) ∧
      (mayName c q.owner = true → q.closing = false → q.running ≠ [] → Onward r (addWait c .destroy n 0 closed)))) ∧
  (∀ (via : Via) (pkt : IcpPkt) (s s0 : State) (c : Ctx), Starts 0x0210 via pkt s c s0 →
    let r := exec (.kernelLoad via pkt) s
    let len := c.p 8 4
    let n := max 1 (min 16 (c.p 0xC 1))
    let im := (c.pkt.dma.getD []).take len
    let foreign := fun (i : Nat) => c.p (0x20 + 4 * i) 4 != 0 &&
      !(match tblByHandle s0 (c.p (0x20 + 4 * i) 4) with | some (_, t) => t.owner == c.iss.owner | none => false)
    let checks := [(c.pkt.dma.isNone, stBadAddress, dtField 0), (decide (len < 64 ∨ 1048576 < len), stBadAddress, dtField 8)]
      ++ (List.range 8).map (fun i => (foreign i, stBadHandle, dtField (0x20 + 4 * i))) ++ imageChecks im
    let placed := placeKernel (askedKernel c) n im (spareFirst (List.range 16) s0)
    (∀ st d, firstBad checks = some (st, d) → Replied r c st d [] s0) ∧
    (firstBad checks = none → placed = none → Replied r c stNoResource dtNone [] s0) ∧
    (∀ k s1, firstBad checks = none → placed = some (k, s1) →
      Replied r c stOk (okDetail (c.differs [(0xC, 1, n), (0xD, 1, k.threads), (0xE, 1, k.prio), (0x10, 4, k.perCore), (0x14, 4, k.shared),
          (0x18, 4, k.watchdogMs)]))
        (layout 32 [(0, 4, k.handle), (4, 1, n), (5, 1, k.threads), (6, 1, k.prio), (8, 4, k.perCore), (0xC, 4, k.shared),
          (0x10, 4, k.watchdogMs), (0x14, 4, k.codeLen), (0x18, 2, (k.clusters.map (2 ^ ·)).sum)]) s1 ∧
      k.owner = c.iss.owner ∧ k.codeLen = le im 0xC 4 ∧ k.entry = le im 0x10 4 ∧ k.clusters.length = n ∧
      1 ≤ k.threads ∧ k.threads ≤ 64 ∧ k.prio ≤ 3 ∧ k.perCore % 4096 = 0 ∧ k.shared % 4096 = 0 ∧ 1 ≤ k.watchdogMs ∧ k.watchdogMs ≤ 60000)) ∧
  (∀ (via : Via) (pkt : IcpPkt) (s s0 : State) (c : Ctx), Starts 0x0211 via pkt s c s0 →
    let r := exec (.kernelUnload via pkt) s
    (kernelByHandle s0 (c.p 0 4) = none → Replied r c stBadHandle (dtField 0) [] s0) ∧
    (∀ ki k, kernelByHandle s0 (c.p 0 4) = some (ki, k) →
      let n := ((s0.mason.jobs.filter (fun j => j.kernel == ki)).map (fun j => j.items - j.ended)).sum
      let stopped := stopKernel ki (spareFirst k.clusters s0)
      (mayName c k.owner = false ∨ k.unloading = true → Replied r c stBadHandle (dtField 0) [] s0) ∧
      (mayName c k.owner = true → k.unloading = false → ruleHeld s0 ki = true → Replied r c stBusy dtNone [] s0) ∧
      (mayName c k.owner = true → k.unloading = false → ruleHeld s0 ki = false → kernelBusy stopped ki = false →
        Replied r c stOk dtNone (layout 8 [(0, 4, k.handle), (4, 4, n)]) (settle (releaseKernel ki stopped))) ∧
      (mayName c k.owner = true → k.unloading = false → ruleHeld s0 ki = false → kernelBusy stopped ki = true →
        Onward r (addWait c .destroy ki n stopped)))) ∧
  (∀ (via : Via) (pkt : IcpPkt) (s s0 : State) (c : Ctx), Starts 0x0212 via pkt s c s0 →
    let r := exec (.ruleRegister via pkt) s
    let sb := (max 0 (min 16384 (c.p 4 4)) + 15) / 16 * 16
    let free := lowest 65536 (fun i => !has s0.tab.rules (i + 1))
    (s0.mem.hotTotal = 0 → Replied r c stNoResource dtNone [] s0) ∧
    (s0.mem.hotTotal ≠ 0 → kernelByHandle s0 (c.p 0 4) = none → Replied r c stBadHandle (dtField 0) [] s0) ∧
    (∀ ki k, s0.mem.hotTotal ≠ 0 → kernelByHandle s0 (c.p 0 4) = some (ki, k) →
      (k.owner ≠ c.iss.owner ∨ k.unloading = true → Replied r c stBadHandle (dtField 0) [] s0) ∧
      (k.owner = c.iss.owner → k.unloading = false → free = none → Replied r c stNoResource dtNone [] s0) ∧
      (∀ i, k.owner = c.iss.owner → k.unloading = false → free = some i →
        let made : Rule := { tenant := c.iss.owner, kernel := ki, stateBytes := sb, hyper := [c.p 8 4, c.p 0xC 4, c.p 0x10 4, c.p 0x14 4] }
        Replied r c stOk (okDetail (sb != c.p 4 4)) (layout 16 [(0, 4, i + 1)])
          (s0.setTab { s0.tab with rules := put s0.tab.rules (i + 1) made }))))

/-- R256, R257, R60 and R263: a descriptor enters its queue pair; on a queue pair with nothing else in hand it is fetched, starts, and completes
with each of its indices served in turn, or runs as items of its kernel. -/
def Obligations.DescriptorsEnterTheirQueuePair : Prop :=
  (∀ (s : State) (n : Nat) (q : Cqp) (d : Desc) (io : DescIo), s.tel.frozen = false → cqpOf s n = some q → q.error = false → q.closing = false →
    (doorbellOff s q.endpoint q.owner = true →
      exec (.lookup n d io) s = .next s ∧ exec (.lookupPool n d io) s = .next s ∧ exec (.update n d io) s = .next s ∧
      exec (.readRows n d io) s = .next s ∧ exec (.writeRows n d io) s = .next s ∧ exec (.prefetch n d io) s = .next s ∧
      exec (.kernel n d io) s = .next s) ∧
    (doorbellOff s q.endpoint q.owner = false →
    let queued := fun (op : Nat) =>
      let s1 := releaseHeld n (descPut n q { d with opcode := op } s)
      let q1 := cqpD s1 n
      settle (setCqp n { q1 with sqTail := (q.sqTail + 1) % 2 ^ q.sqLog2, unread := q1.unread ++ [({ d with opcode := op }, io)] } s1)
    q.sqTail < 2 ^ q.sqLog2 → 0 < q.sqLog2 →
    exec (.lookup n d io) s = .next (queued 1) ∧ exec (.lookupPool n d io) s = .next (queued 2) ∧ exec (.update n d io) s = .next (queued 3) ∧
    exec (.readRows n d io) s = .next (queued 4) ∧ exec (.writeRows n d io) s = .next (queued 5) ∧
    exec (.prefetch n d io) s = .next (queued 6) ∧ exec (.kernel n d io) s = .next (queued 7))) ∧
  (∀ (s : State) (n : Nat) (q : Cqp) (d : Desc) (io : DescIo), QueueIdle s n q →
    let runs := fun (op : Nat) (r : Ran) =>
      let d' := { d with opcode := op }
      let fetched := { q with sqTail := (q.sqTail + 1) % 2 ^ q.sqLog2, sqHead := (q.sqHead + 1) % 2 ^ q.sqLog2, fetched := q.fetched + 1,
                              cqUsed := q.cqUsed + 1, waiting := [(q.fetched, d', io)] }
      let s1 := descPut n q d' s
      let y := lineFaults io.faults (setCqp n { fetched with waiting := [] } s1)
      let kernel := kernelByHandle y d.handle
      let status := descStatus y fetched d' io (kernel.map (·.2.owner))
      let done := fun (z : State) => r = .next (settleN (1 + s.tab.fwd.length) (restOfRound (advanceQueue n z)))
      let started : InProg := { seq := q.fetched, desc := d', io := io, todo := positions d' io }
      let running := fun (p : InProg) => updCqp n (fun q => { q with running := q.running ++ [p] }) y
      descHeld (setCqp n fetched s1) d' = false → slotHeld s1 n q = false →
      (status ≠ csOk → done (postCqe n d' 0 status 0 0 y)) ∧
      (status = csOk → stepClosed y fetched q.fetched d' = true → done (postCqe n d' 0 csStepClosed 0 0 y)) ∧
      (status = csOk → stepClosed y fetched q.fetched d' = false → op ≠ 7 → done (running started)) ∧
      (∀ ki k, status = csOk → stepClosed y fetched q.fetched d' = false → op = 7 → kernel = some (ki, k) →
        (k.unloading = true → done (postCqe n d' 0 csKernelFault 8 0 y)) ∧
        (k.unloading = false → d.count = 0 → done (postCqe n d' 0 csOk 0 0 y)) ∧
        (k.unloading = false → d.count ≠ 0 → ∃ j : Job,
          done (addJob j (running { started with todo := [] })) ∧
          j.kernel = ki ∧ j.origin = .desc n q.fetched ∧ j.items = d.count ∧ j.step = d.step ∧
          j.args = descBytes d' ++ (io.aux.getD []).take d.bags ∧ j.client = queueMemory fetched ∧ j.gen = genOf y (queueMemory fetched) ∧
          j.buffers = [d.indexAddr, d.dataAddr, d.auxAddr]))
    runs 1 (exec (.lookup n d io) s) ∧ runs 2 (exec (.lookupPool n d io) s) ∧ runs 3 (exec (.update n d io) s) ∧
    runs 4 (exec (.readRows n d io) s) ∧ runs 5 (exec (.writeRows n d io) s) ∧ runs 6 (exec (.prefetch n d io) s) ∧
    runs 7 (exec (.kernel n d io) s)) ∧
  (∀ (z z' : State) (n : Nat) (q : Cqp) (p p' : InProg), cqpOf z n = some q → q.running = [p] → p.desc.opcode ≠ 7 → p.sent = [] →
    ServedInTurn n p p.todo z p' z' → advanceQueue n z = completeDesc n p' z') ∧
  (∀ (z : State) (n ti : Nat) (q : Cqp) (t : Tbl) (p : InProg), cqpOf z n = some q → q.held = false → (∀ k < p.desc.count, statusAt p k = csOk) →
    tblServed z p.desc.handle = some (ti, t) →
    let ended := fun (x : State) => setCqp n { q with running := q.running.filter (fun o => o.seq != p.seq) } x
    let flags := p.flags ||| (if lrClamped p.desc then cfClamped else 0)
    (p.desc.opcode = 3 ∨ p.desc.opcode = 5 → completeDesc n p z = postCqe n p.desc p.desc.count csOk 0 flags (ended z)) ∧
    (p.desc.opcode = 6 → completeDesc n p z = postCqe n p.desc (descCount (ended z) p) csOk 0 flags (ended z)) ∧
    (p.desc.opcode = 1 ∨ p.desc.opcode = 4 → completeDesc n p z =
      postCqe n p.desc p.desc.count csOk 0 flags (ended (dmaOut (queueMemory q) p.desc.dataAddr (descOutput t p) z))) ∧
    (p.desc.opcode = 2 → completeDesc n p z =
      postCqe n p.desc p.desc.bags csOk 0 flags (ended (dmaOut (queueMemory q) p.desc.dataAddr (descOutput t p) z)))) ∧
  (∀ (s : State) (n index who : Nat) (q : Cqp) (slots : List (Bytes × DescIo)), s.tel.frozen = false → cqpOf s n = some q →
    let r := exec (.sqTail n index who slots) s
    let off := who = q.owner ∧ (fnD s q.owner).dstate ≠ .d0
    (mayRing q who = true → off → r = .next s) ∧
    (mayRing q who = false → ∃ t, r = .next t ∧ t.tab = s.tab ∧ t.mem = s.mem ∧
      cell t blkGlobal 0x16C = (cell s blkGlobal 0x16C + 1) % 2 ^ 32) ∧
    (mayRing q who = true → ¬ off → 2 ^ q.sqLog2 ≤ index → r = .next ((s.setIcp { s.icp with dbInvalid := s.icp.dbInvalid + 1 }).setRings
      (put s.rings q.owner { ringOf s q.owner with dbErr := true }))) ∧
    (mayRing q who = true → ¬ off → index < 2 ^ q.sqLog2 → q.error = true ∨ q.closing = true →
      r = .next (s.setIcp { s.icp with dbInvalid := s.icp.dbInvalid + 1 })) ∧
    (mayRing q who = true → ¬ off → q.error = false → q.closing = false → index < 2 ^ q.sqLog2 →
      let s1 := if q.adopted then deliverHeld n (setCqp n { q with adopted := false } s) else s
      let q1 := cqpD s1 n
      let fresh := (List.range ((index + 2 ^ q1.sqLog2 - q1.sqTail) % 2 ^ q1.sqLog2)).map (fun i => sqSlot s1 n q1 (q1.sqTail + i) (slots.getD i ([], {})))
      r = .next (settle (setCqp n { q1 with sqTail := index, unread := q1.unread ++ fresh } s1)))) ∧
  (∀ (s : State) (n k : Nat) (q : Cqp) (b : Bytes) (io : DescIo), sqSlot s n q k (b, io) = (descOf (match ringDpa s (some n) q.owner false
    (64 * (k % 2 ^ q.sqLog2)) with | some a => readMem a 64 s | none => b), io)) ∧
  (∀ (s : State) (n index : Nat) (q : Cqp), s.tel.frozen = false → cqpOf s n = some q →
    let r := exec (.cqHead n index) s
    let off := doorbellOff s q.endpoint q.owner
    (off = true → r = .next s) ∧
    (off = false → 2 ^ q.cqLog2 ≤ index → r = .next ((s.setIcp { s.icp with dbInvalid := s.icp.dbInvalid + 1 }).setRings
      (put s.rings q.owner { ringOf s q.owner with dbErr := true }))) ∧
    (off = false → q.error = true → index < 2 ^ q.cqLog2 → r = .next (s.setIcp { s.icp with dbInvalid := s.icp.dbInvalid + 1 })) ∧
    (off = false → q.error = false → index < 2 ^ q.cqLog2 →
      r = .next (settle (setCqp n
        { q with cqHead := index, cqUsed := q.cqUsed - (index + 2 ^ q.cqLog2 - q.cqHead) % 2 ^ q.cqLog2 } s))))

/-- R264, R265, R273, R285 and R303. -/
def Obligations.ADescriptorsIndexIsServedByItsOperation : Prop :=
  ∀ (s : State) (ti row : Nat) (t : Tbl) (o : RowOp), tblOf s ti = some t →
    let here := rowIsolated s ti t (opRegions t o) row = false
    let ends := fun (status flags : Nat) (bs : Bytes) => ∃ s', serveIndex ti o s = .done s' status flags bs ∧ HeatOnly s s'
    (keysIsolated s ti t o.index = true → ends csIsolated 0 []) ∧
    (keysIsolated s ti t o.index = false → keysRetrain s ti t o.index = true → serveIndex ti o s = .wait s 0) ∧
    (t.hashed = false → keysIsolated s ti t o.index = false ∧ keysRetrain s ti t o.index = false) ∧
    (t.hashed = false → t.sharded = false → rowRef s ti t o.index = (if t.rows ≤ o.index then .bad else .row o.index)) ∧
    (keysIsolated s ti t o.index = false → keysRetrain s ti t o.index = false →
      (rowRef s ti t o.index = .row row → badRow t row = none → here →
        ∀ r, (o.op = 1 ∨ o.op = 2 → r = servedRegion t) → (o.op = 4 → r = addressed t o.flags) → (o.op = 1 ∨ o.op = 2 ∨ o.op = 4) →
          rowPlaced s ti t r row = true →
          (rowRetrains s ti t [r] row = true → serveIndex ti o s = .wait s 0) ∧
          (rowRetrains s ti t [r] row = false →
            ∃ s' f, serveIndex ti o s = .done s' csOk f (readRow s ti t r row) ∧ (∀ a, memGet s'.mem.cells a = memGet s.mem.cells a) ∧
              s'.mem.poison = s.mem.poison ∧ (tblD s' ti).lookups = (t.lookups + 1) % 2 ^ 64)) ∧
      (rowRef s ti t o.index = .row row → rowIsolated s ti t (opRegions t o) row = true → ends csIsolated 0 []) ∧
      (rowRef s ti t o.index = .row row → here → (o.op = 3 ∨ o.op = 5) → heldByFence s ti o.step = true → serveIndex ti o s = .wait s 0) ∧
      (∀ b, rowRef s ti t o.index = .row row → here → badRow t row = some b → (1 ≤ o.op ∧ o.op ≤ 6) →
        (o.op = 3 ∨ o.op = 5 → heldByFence s ti o.step = false) →
        (b.repointing = true → serveIndex ti o s = .wait s 0) ∧ (b.repointing = false → o.op ≠ 5 → ends csIntegrity (rolledFlag t row) [])) ∧
      (∀ b, rowRef s ti t o.index = .lost b →
        (b.repointing = true → serveIndex ti o s = .wait s 0) ∧
        (b.repointing = false → o.op ≠ 5 → ends csIntegrity (rolledFlag t b.row) []) ∧
        (b.repointing = false → o.op = 5 → rowIsolated s ti t (tblRegions t) b.row = true → ends csIsolated 0 []) ∧
        (b.repointing = false → o.op = 5 → rowIsolated s ti t (tblRegions t) b.row = false → heldByFence s ti o.step = true →
          serveIndex ti o s = .wait s 0)) ∧
      (rowRef s ti t o.index = .bad → ends csBadIndex 0 []) ∧
      (rowRef s ti t o.index = .absent → adoptHolds s ti t o.index = false → (o.op = 1 ∨ o.op = 2) →
        ends csOk 0 (List.replicate (regionRow t (servedRegion t)) 0)))

/-- R281 to R288, R305 and R309. -/
def Obligations.ForwardedIndicesAndRepointing : Prop :=
  (∀ (s : State) (dev token dom op flags step client lr index : Nat) (data : Bytes) (faults : List LineFault), s.tel.frozen = false →
    ∃ w : FwdWait, exec (.forwardedIndex dev token dom op flags step client lr index data faults) s =
        .next (settle ((lineFaults faults s).setTab { (lineFaults faults s).tab with fwd := (lineFaults faults s).tab.fwd ++ [w] })) ∧
      w.dev = dev ∧ w.token = token ∧ w.domainId = dom ∧ w.op = op ∧ w.flags = flags ∧ w.step = step ∧ w.client = client ∧ w.lr = lr ∧
      w.index = index ∧ w.data = data ∧ w.running = false) ∧
  (∀ (s : State) (n seq k st f : Nat) (data : Bytes) (p : InProg), s.tel.frozen = false →
    (cqpD s n).running.find? (fun p => p.seq == seq) = some p →
    (k ∈ p.sent → exec (.forwardResult n seq k st f data) s = .next (settle (gotIndex n seq k st (f ||| cfForwarded) data s))) ∧
    (k ∉ p.sent → exec (.forwardResult n seq k st f data) s = .next s)) ∧
  (∀ (s : State) (n : Nat), s.tel.frozen = false → exec (.heldDescriptorRelease n) s = .next (settle (runQueue n s))) ∧
  (∀ (s : State) (ti r i : Nat), s.tel.frozen = false →
    (courseLive s = true ∧ (ti, r, i) ∈ (crun s).waiting → exec (.spillWaitRelease ti r i) s = .next s) ∧
    (¬ (courseLive s = true ∧ (ti, r, i) ∈ (crun s).waiting) → exec (.spillWaitRelease ti r i) s = .next (settle s))) ∧
  (∀ (s : State) (ti row id step : Nat) (t : Tbl) (b : BadRow) (v : CapturedRow) (slotFree : Bool), s.tel.frozen = false →
    tblOf s ti = some t → badRow t row = some b →
    (s.course.committed = some (id, step) → b.repointing = true → rowWhole s ti t row = true →
      exec (.repointRow ti row [v] slotFree) s =
        .next (settle (rollbackRecord ti row 1 id step b.cause slotFree (repointOne ti row id step b.cause v s)))) ∧
    (s.course.committed = none ∨ b.repointing = false ∨ rowWhole s ti t row = false → exec (.repointRow ti row [v] slotFree) s = .next s) ∧
    (b.repointing = true → exec (.repointTimeout ti row) s =
      .next (settle (setTbl ti { t with bad := t.bad.map (fun x => if x.row = row then { x with repointing := false } else x) } s)))) ∧
  (∀ (s : State) (ti row : Nat) (vs : List CapturedRow) (slotFree : Bool), s.tel.frozen = false → badRow (tblD s ti) row = none →
    exec (.repointRow ti row vs slotFree) s = .next s ∧ exec (.repointTimeout ti row) s = .next s)

/-- R290 to R301, R316, R328, R334, R338 and R341. -/
def Obligations.CourseCommandsAnswerAndAct : Prop :=
  (∀ (via : Via) (pkt : IcpPkt) (s s0 s1 : State) (c : Ctx), Starts 0x0300 via pkt s c s0 →
    let p := policyOf c
    let fields := policyFields p ++ (p.dests.zipIdx.map (fun x => (0x48 + 16 * x.2, 4, x.1.areaGib)))
    firstBad (policyChecks c s0 p) = none → (∀ d ∈ p.dests, destAttached s0 d = false) → acceptPolicy false p s0 = some s1 →
    stagedHit 7 c s0 = false →
    Replied (exec (.coursePolicySet via pkt) s) c stOk (okDetail (c.differs fields)) (c.echo 128 policyNames fields) s1 ∧
    (courseLive s0 = true → s1.course.next = some p ∧ s1.course.policy = s0.course.policy) ∧ (courseLive s0 = false → s1.course.policy = p) ∧
    100 ≤ p.fenceMs ∧ p.fenceMs ≤ 600000 ∧ p.shardMib % 4 = 0 ∧ 16 ≤ p.shardMib ∧ p.shardMib ≤ 4096 ∧ 1 ≤ p.spillGib ∧ p.spillGib ≤ 32) ∧
  (∀ (via : Via) (pkt : IcpPkt) (s s0 s2 : State) (c : Ctx), Starts 0x0301 via pkt s c s0 →
    let id := if c.p 0 4 = 0 then s0.course.highId + 1 else c.p 0 4
    let high := (domainStep s0).getD 0
    let step := if c.p 4 4 = 0xFFFFFFFF then (high + (openPolicy s0).stepLead) % 2 ^ 32 else c.p 4 4
    let f := min (openPolicy s0).format (subtreeFormat s0)
    (c.p 0 4 = 0 ∨ s0.course.highId < c.p 0 4) → firstBad (openBars s0) = none → ensureFrames s0 = some s2 →
    let o := openRun id step (c.p 8 8) f 0 s2
    let x := settle (sendDown (.courseOpen id step (c.p 8 8) f 0) o)
    ((domainStep s0 = none ∨ high < step) →
      Replied (exec (.courseOpen via pkt) s) c stOk dtNone (layout 32 [(0, 4, id), (4, 4, step), (8, 2, (crun x).format), (0xA, 1, 0), (0xC, 4, high),
        (0x10, 8, (crun x).total)]) x ∧
      (crun o).id = id ∧ (crun o).step = step ∧ (crun o).status = 1 ∧ (crun o).clients = s0.tab.cqps.map (fun e => (e.2.owner, e.1)) ∧
      o.course.highId = max s2.course.highId id) ∧
    ((domainStep s0).isSome = true → step ≤ high →
      Replied (exec (.courseOpen via pkt) s) c stConflict 0x0100 (layout 32 [(0xC, 4, high)]) s0)) ∧
  (∀ (via : Via) (pkt : IcpPkt) (s s0 : State) (c : Ctx), Starts 0x0302 via pkt s c s0 →
    let qs := stepQueues c s0 (c.p 4 4)
    (c.p 4 4 = 0xFFFFFFFF ∨ qs ≠ []) → ∃ (s1 : State) (fin : Bool),
      Replied (exec (.stepDone via pkt) s) c stOk dtNone (layout 8 [(0, 4, if courseLive s0 then (crun s0).id else 0), (4, 4, bit fin)])
        (settle s1) ∧
      (∀ n q, look s0.tab.cqps n = some q → look s1.tab.cqps n = some (if n ∈ qs then
        { q with stepDone := some (max (c.p 0 4) (q.stepDone.getD 0)), sampled := q.fetched + q.unread.length,
                 samples := if (match q.stepDone with | some x => decide (x < c.p 0 4) | none => true)
                   then q.samples ++ [(c.p 0 4, q.fetched + q.unread.length)] else q.samples } else q)) ∧
      s1.tab.tbls = s0.tab.tbls ∧ s1.mem = s0.mem) ∧
  (∀ (via : Via) (pkt : IcpPkt) (s s0 : State) (c : Ctx), Starts 0x0303 via pkt s c s0 →
    (c.p 0 4 = 0 ∨ (s0.course.run.isSome = true ∧ c.p 0 4 = (crun s0).id)) →
    Replied (exec (.courseStatus via pkt) s) c stOk dtNone (courseStatus s0) s0) ∧
  (∀ (via : Via) (pkt : IcpPkt) (s s0 : State) (c : Ctx), Starts 0x0304 via pkt s c s0 → courseLive s0 = true → fenceRoot s0 = true →
    (c.p 0 4 = 0 ∨ c.p 0 4 = (crun s0).id) →
    Replied (exec (.courseAbort via pkt) s) c stOk dtNone (layout 8 [(0, 4, (crun s0).id), (4, 4, 5)]) (settle (abortCourse 0x010B s0)) ∧
    (crun (abortCourse 0x010B s0)).status = 5 ∧ (abortCourse 0x010B s0).course.lastDetail = 0x010B) ∧
  (∀ (via : Via) (pkt : IcpPkt) (s s0 : State) (c : Ctx), Starts 0x0305 via pkt s c s0 → endpointLive s0 (c.p 0 2) = true →
    (c.iss.kind = 4 → c.p 0 2 = c.iss.fid) → 4096 ≤ c.p 0x10 8 → c.p 0x10 8 ≤ 2 ^ 36 → c.p 0x10 8 % 4096 = 0 →
    let g : AccelRegion := { id := s0.course.nextRegion, owner := c.iss.owner, endpoint := c.p 0 2, addr := c.p 8 8, length := c.p 0x10 8,
                             notify := c.p 0x18 8, tag := c.p 0x20 8, joins := courseLive s0 }
    Replied (exec (.regionRegister via pkt) s) c stOk dtNone (layout 16 [(0, 4, g.id)])
      (s0.setCourse { s0.course with regions := s0.course.regions ++ [g], nextRegion := s0.course.nextRegion + 1 })) ∧
  (∀ (via : Via) (pkt : IcpPkt) (s s0 : State) (c : Ctx) (g : AccelRegion), Starts 0x0306 via pkt s c s0 →
    s0.course.regions.find? (fun g => g.id == c.p 0 4 && !g.leaves) = some g → mayName c g.owner = true →
    Replied (exec (.regionDeregister via pkt) s) c stOk dtNone (layout 8 [(0, 4, g.id)])
      (if courseLive s0 then updRegion g.id (fun g => { g with leaves := true }) s0
       else s0.setCourse { s0.course with regions := s0.course.regions.filter (fun x => x.id != g.id) })) ∧
  (∀ (via : Via) (pkt : IcpPkt) (s s0 : State) (c : Ctx) (ti : Nat) (t : Tbl), Starts 0x0307 via pkt s c s0 →
    tblFor c s0 (c.p 0 4) = some (ti, t) → firstBad (capChecks t (c.p 4 1) (c.p 5 1) (c.p 6 1) (c.p 7 1)) = none → courseLive s0 = false →
    stagedHit 8 c s0 = false →
    Replied (exec (.tableCapturePolicy via pkt) s) c stOk dtNone (layout 64 [(0, 4, c.p 0 4), (4, 1, c.p 4 1), (5, 1, c.p 5 1), (6, 1, c.p 6 1), (7, 1, c.p 7 1)])
      (setTbl ti { t with include_ := c.p 4 1 == 1, capWeight := c.p 5 1, capState := c.p 6 1, capServing := c.p 7 1 == 1, capNext := none } s0)) ∧
  (∀ (via : Via) (pkt : IcpPkt) (s s0 : State) (c : Ctx), Starts 0x0308 via pkt s c s0 → c.p 0 4 < (dests s0).length →
    let a := areaOf s0 (destKey (destAt s0 (c.p 0 4)))
    let b := fun (r : Option LedgerRec) => match r with | some x => x.bytes | none => List.replicate 128 0
    Replied (exec (.ledgerQuery via pkt) s) c stOk dtNone (b a.slot0 ++ b a.slot1) s0)

/-- R298 to R305, R331 to R333, R338. -/
def Obligations.CourseFencesCloseAndTimeOut : Prop :=
  ∀ s : State, s.tel.frozen = false →
  (∀ source id step label format trigger : Nat, coursePaused s = false →
    (courseLive s = true ∨ (format ≠ 3 ∧ format ≠ ownFormat) →
      exec (.courseOpenMessage source id step label format trigger) s = .next (sendDomain source (.openRefused id) s)) ∧
    (∀ x, ownStep s = some x → step < x →
      exec (.courseOpenMessage source id step label format trigger) s = .next (sendDomain source (.openRefused id) s)) ∧
    (∀ s2, courseLive s = false → (format = 3 ∨ format = ownFormat) → (∀ x, ownStep s = some x → x ≤ step) → ensureFrames s = some s2 →
      let o := openRun id step label format trigger s2
      exec (.courseOpenMessage source id step label format trigger) s =
        .next (settle (sendDown (.courseOpen id step label format trigger) o)) ∧
      courseLive o = true ∧ (crun o).id = id ∧ (crun o).step = step ∧ (crun o).ups = [] ∧ (crun o).domainClosed = false)) ∧
  (coursePaused s = true → (∀ source id step label format trigger : Nat, exec (.courseOpenMessage source id step label format trigger) s =
      .next (holdOpen (.message source id step label format trigger) s)) ∧
    (running s = true → periodicHere s = true → exec .periodicCourse s = .next (holdOpen .periodic s)) ∧
    (∀ child counter rate : Nat, child ≠ deviceIndex s → fenceRoot s = true →
      exec (.earlyRequest child counter rate) s = .next (holdOpen .early s))) ∧
  (∀ (child id : Nat) (peer : Option Nat), courseLive s = true → (crun s).id = id → ∃ x,
    exec (.fenceUp child id peer none) s = .next (settle x) ∧
    (crun x).ups = (if child ∈ (crun s).ups then (crun s).ups else (crun s).ups ++ [child]) ∧
    (crun x).status = (crun s).status ∧ (∀ p, peer = some p → look x.course.peerSteps child = some p) ∧ x.mem = s.mem ∧ x.tab = s.tab) ∧
  (∀ (child id d : Nat) (peer : Option Nat), courseLive s = true → (crun s).id = id →
    exec (.fenceUp child id peer (some d)) s =
      .next (if d = 0x0100 ∧ fenceRoot s = false then sendUp (.openRefused id) s else settle (abortCourse d s))) ∧
  (∀ (child id : Nat) (peer ended : Option Nat), (courseLive s = false ∨ (crun s).id ≠ id) →
    exec (.fenceUp child id peer ended) s = .next s ∧ exec (.fenceRelease id ended) s = .next s) ∧
  (∀ id d : Nat, courseLive s = true → (crun s).id = id →
    exec (.fenceRelease id (some d)) s = .next (settle (abortCourse d s)) ∧
    ∃ x, exec (.fenceRelease id none) s = .next (settle (toCapturing x)) ∧ (crun x).domainClosed = true ∧ (crun x).closed = (crun s).closed ∧
      (s.course.policy.children = 0 → x.out = s.out) ∧ (s.course.policy.children ≠ 0 → x.out = s.out ++ [.domain downTree (.fenceRelease id)])) ∧
  (∀ tenant : Nat, courseLive s = true → tenantDone s tenant = true → tenant ∉ (crun s).closed → ∃ x,
    exec (.fenceClose tenant false) s = .next (settle (toCapturing x)) ∧ (crun x).closed = (crun s).closed ++ [tenant] ∧
    (crun x).domainClosed = (crun s).domainClosed ∧ x.mem = s.mem) ∧
  (∀ tenant : Nat, (courseLive s = false ∨ tenantDone s tenant = false ∨ tenant ∈ (crun s).closed) →
    exec (.fenceClose tenant false) s = .next s) ∧
  (courseLive s = true → (crun s).status = 1 → exec .fenceTimeout s = .next (settle (abortCourse 0x0105 s)) ∧
    (abortCourse 0x0105 s).course.lastOutcome = 2 ∧ (abortCourse 0x0105 s).course.lastDetail = 0x0105 ∧
    courseLive (abortCourse 0x0105 s) = false) ∧
  ((courseLive s = false ∨ (crun s).status ≠ 1) → exec .fenceTimeout s = .next s) ∧
  (coursePaused s = false → running s = true → periodicHere s = true →
    (∀ bad, firstBad (openBars s) = some bad →
      exec .periodicCourse s = .next (logPolicy 0x41 2 6 1 s.course.highId s.course.highId s)) ∧
    (∀ x, firstBad (openBars s) = none →
      rootOpen (s.course.highId + 1) (((domainStep s).getD 0 + (openPolicy s).stepLead) % 2 ^ 32) 0 1 s = some x →
      exec .periodicCourse s = .next x)) ∧
  ((running s = false ∨ periodicHere s = false) → exec .periodicCourse s = .next s) ∧
  (let s1 := s.setCourse { s.course with
      buckets := (List.range 4).map (fun i => (s.course.present.getD i 0 :: s.course.buckets.getD i []).take 16), present := [0, 0, 0, 0] }
   (s.course.policy.early = false ∨ ∀ i < 4, warnRate s1 i < s.course.policy.thresh.getD i 0) → exec .bucketBoundary s = .next s1) ∧
  (let s1 := s.setCourse { s.course with
      buckets := (List.range 4).map (fun i => (s.course.present.getD i 0 :: s.course.buckets.getD i []).take 16), present := [0, 0, 0, 0] }
   ∀ i < 4, s.course.policy.early = true → fenceRoot s = false → s.course.policy.thresh.getD i 0 ≤ warnRate s1 i →
    (∀ j < 4, j ≠ i → warnRate s1 j < s.course.policy.thresh.getD j 0) →
    exec .bucketBoundary s = .next (sendDomain (fenceParent s) (.earlyRequest i (warnRate s1 i))
      (logPolicy 0x41 2 1 i (s.course.policy.thresh.getD i 0) (warnRate s1 i) s1))) ∧
  (∀ child counter rate : Nat, child ≠ deviceIndex s →
    (fenceRoot s = false → exec (.earlyRequest child counter rate) s =
      .next (sendDomain (fenceParent s) (.earlyRequest counter rate) s)) ∧
    (coursePaused s = false → fenceRoot s = true → (courseLive s = true ∨ ∃ x, s.course.lastEarly = some x ∧ now s 0x41 < x + s.course.policy.earlyGap * 1000000000) →
      exec (.earlyRequest child counter rate) s = .next (logPolicy 0x41 2 6 2 s.course.highId s.course.highId s)) ∧
    (coursePaused s = false → fenceRoot s = true → courseLive s = false → s.course.lastEarly = none → ∃ t, exec (.earlyRequest child counter rate) s = .next t ∧
      (courseLive t = true → t.course.lastEarly = some (now s 0x41))))

/-- R307 to R311, R323, R324, R329, R330, R335 and R338. -/
def Obligations.CapturedBlocksBecomeDurableShards : Prop :=
  ∀ s : State, s.tel.frozen = false →
  (∀ b, nextCapture s = some b → exec (.captureBlock []) s = .next (settle (captureBlock b s)) ∧
    (∀ k, blkFind s b.1 b.2.1 b.2.2 = some k → ∃ k', blkFind (captureBlock b s) b.1 b.2.1 b.2.2 = some k' ∧ k'.captured = true)) ∧
  (nextCapture s = none → exec (.captureBlock []) s = .next s) ∧
  (∀ (n d : Nat) (h : Shard), (crun s).shards.find? (fun h => h.number == n) = some h → courseLive s = true → has h.sent d = true →
    (h.durable.contains d = false → ∃ x, exec (.shardWriteComplete n d) s = .next (settle x) ∧
      (crun x).shards.find? (fun h => h.number == n) = some { h with durable := h.durable ++ [d] } ∧
      (crun x).drained = (crun s).drained + h.dataOffset + h.rowCount * h.rowBytes ∧ x.out = s.out ∧ x.mem = s.mem) ∧
    (h.durable.contains d = true → exec (.shardWriteComplete n d) s = .next s)) ∧
  (∀ (n d off : Nat) (h : Shard), (crun s).shards.find? (fun h => h.number == n) = some h → courseLive s = true → look h.sent d = some off →
    h.durable.contains d = false →
    let k := destKey (destAt s d)
    let tries := lookD h.retries d 0
    (tries < 3 → ∃ x, exec (.shardWriteFailed n d) s = .next x ∧
      x.out = s.out ++ [.dest k (off + h.dataOffset) h.body, .dest k off h.head] ∧ x.course.areas = s.course.areas ∧
      (∃ h', (crun x).shards.find? (fun h => h.number == n) = some h' ∧ lookD h'.retries d 0 = tries + 1 ∧ h'.sent = h.sent)) ∧
    (3 ≤ tries → exec (.shardWriteFailed n d) s = .next (settle (destFailed d s)) ∧
      ((liveDests s).filter (· ≠ d) = [] → (destFailed d s).course.lastDetail = 0x0106 ∧ courseLive (destFailed d s) = false))) ∧
  (∀ (g : AccelRegion) (data : Bytes), nextPull s = some g → courseLive s = true → (∃ x, g.done = some x ∧ (crun s).step ≤ x) →
    (stagingFull s = true → exec (.regionPullComplete g.id data) s = .next s) ∧
    (stagingFull s = false → ∃ x,
    exec (.regionPullComplete g.id data) s =
      .next (settle ((accelShards x g).foldl (fun s h => if courseLive s then sendOut h (shardBytes s h) s else s)
        (updRun (fun r => { r with shards := r.shards ++ accelShards x g }) x))) ∧
    x.course.regions = updFirst (fun y => y.id == g.id) (fun y => { y with staged := true, data := data, seq := (y.seq + 1) % 65536 }) s.course.regions ∧
    (isAccel g.endpoint = true → silenced s g.endpoint = false → (fnD s g.endpoint).dirty = none →
      x.out = s.out ++ [.dma g.endpoint (genOf s g.endpoint) g.notify (regionRecord g (crun s).id (crun s).step 0)]))) ∧
  (∀ (child id : Nat) (es : List (Nat × Nat × Nat × Bytes)), courseLive s = true → (crun s).id = id →
    (child ∉ (crun s).upsCommit → ∃ x, exec (.commitUp child id es) s = .next (settle x) ∧ (crun x).upsCommit = (crun s).upsCommit ++ [child] ∧
      (crun x).members = (crun s).members ++ es.map (fun e => { device := e.1, shards := e.2.1, length := e.2.2.1, digest := e.2.2.2 }) ∧
      x.mem = s.mem ∧ x.out = s.out) ∧
    (child ∈ (crun s).upsCommit → exec (.commitUp child id es) s = .next s)) ∧
  (∀ d : Nat, courseLive s = true → (crun s).ledgerDue.contains d = true →
    (∀ e, e ∈ (crun s).ledgerDue → e ≠ d → ∃ x, exec (.rootLedgerDurable d) s = .next x ∧ (crun x).status = (crun s).status ∧
      d ∉ (crun x).ledgerDue ∧ x.out = s.out) ∧
    ((∀ e ∈ (crun s).ledgerDue, e = d) → ∃ x, exec (.rootLedgerDurable d) s = .next (settle (courseCommitted x)) ∧
      (courseCommitted x).course.committed = some ((crun s).id, (crun s).step) ∧ (crun (courseCommitted x)).status = 4 ∧
      ∀ b ∈ (courseCommitted x).mem.blocks, b.captured = true)) ∧
  (∀ d : Nat, (courseLive s = true ∨ (crun s).status = 4) → (crun s).ledgerDue.contains d = false → (crun s).ledgerRest.contains d = true →
    exec (.rootLedgerDurable d) s = .next (lateLedger d s)) ∧
  (∀ (id : Nat) (manifest : Bytes), courseLive s = true → (crun s).id = id → (crun s).commitSent = true → fenceRoot s = false →
    let w := writeEverywhere manifest (liveDests s) s
    (courseLive w.2 = false → exec (.commitRelease id manifest) s = .next (settle w.2)) ∧
    (courseLive w.2 = true → ∃ x,
      exec (.commitRelease id manifest) s = .next (settle (courseCommitted (sendDown (.commitRelease id manifest) x))))) ∧
  (∀ (id : Nat) (manifest : Bytes), (courseLive s = false ∨ (crun s).id ≠ id ∨ (crun s).commitSent = false ∨ fenceRoot s = true) →
    exec (.commitRelease id manifest) s = .next s)

/-- R136, R343, R617 and R681: the count and the address are those of R29. -/
def Obligations.GuardedWritesAreIgnoredFromOthers : Prop :=
  (∀ (who : Requester) (v : CsrWord) (s : State), trusted who = false →
    exec (.ceAbortReq who v) s = .next (countUnmapped 0x4800128 s) ∧
    exec (.cxAlarmClear who v) s = .next (countUnmapped 0x6800108 s) ∧
    exec (.glStartCtlWrite who v) s = .next (countUnmapped 0x108 s)) ∧
  (∀ (who : Requester) (mc mask : Nat) (s : State), trusted who = false → mc < 6 → exec (.mcFenceReq who mc mask) s = .next (countUnmapped (0x3000000 + mc * 0x100000 + 0x110) s)) ∧
  (∀ (a : Nat) (s : State),
    (countUnmapped a s).csr = put (put s.csr 0x16C (BitVec.ofNat 32 (cell s 0 0x16C + 1))) 0x170 (BitVec.ofNat 32 a) ∧
    countUnmapped a s = s.setCsr (countUnmapped a s).csr) ∧
  (∀ (who : Requester) (v : CsrWord) (s : State), trusted who = true →
    (v.toNat.testBit 0 = true → fenceRoot s = true → courseLive s = true → exec (.ceAbortReq who v) s = .next (settle (abortCourse 0x010B s))) ∧
    (∃ t, exec (.glStartCtlWrite who v) s = .next t ∧ cell t 0 0x108 = max 1 (min 7 (v.toNat % 8)))) ∧
  (∀ (who : Requester) (mc mask : Nat) (s : State), trusted who = true → mc < 6 → exec (.mcFenceReq who mc mask) s =
    .next (settle ((List.range 16).foldl (fun s c => if mask.testBit c then fenceChannel mc c 3 s else s) s))) ∧
  (∀ (who : Requester) (v : CsrWord) (s : State), trusted who = true → ∃ t, exec (.cxAlarmClear who v) s = .next t ∧
    ∀ k < 5, t.sec.alarm.testBit k = (s.sec.alarm.testBit k && (!v.toNat.testBit k || (k == 0 && (tamperInput s).active))))

/-- R112 to R131, R25, R45 and R146. -/
def Obligations.MemoryChannelsRetrainAndFence : Prop :=
  (∀ (mc ch retry : Nat) (s : State), mc < 6 → ch < 16 → s.mem.channels.contains (16 * mc + ch) = true → has s.mem.fenced (16 * mc + ch) = false →
    let recent := (lookD s.mem.retrains (16 * mc + ch) []).filter (fun y => decide (now s (0x20 + mc) < y + 1000000000))
    (retry < cell s (blkMc mc) 0x10C % 16 → exec (.linkCrcFail mc ch retry) s = .next s) ∧
    (cell s (blkMc mc) 0x10C % 16 ≤ retry → ∃ x,
      exec (.linkCrcFail mc ch retry) s = .next (settle (if 8 < recent.length + 1 then fenceChannel mc ch 3 x else x)) ∧
      x.mem.retraining.contains (16 * mc + ch) = true ∧ x.mem.fenced = s.mem.fenced ∧
      cell x (blkMc mc) 0x124 = (cell s (blkMc mc) 0x124 + 1) % 2 ^ 32 ∧ x.course.present = s.course.present.set 1 (s.course.present.getD 1 0 + 1) ∧
      x.mem.cells = s.mem.cells ∧ x.out = s.out)) ∧
  (∀ (mc ch : Nat) (s : State),
    let y := s.setMem { s.mem with retraining := s.mem.retraining.filter (fun y => y != 16 * mc + ch) }
    (s.mem.retraining.contains (16 * mc + ch) = true → exec (.channelRetrainDone mc ch true) s = .next (settle (releaseAccs y)) ∧
      (s.mem.heldAcc = [] → exec (.channelRetrainDone mc ch true) s = .next (settle y)) ∧
      exec (.channelRetrainDone mc ch false) s = .next (settle (fenceChannel mc ch 3 y))) ∧
    (s.mem.retraining.contains (16 * mc + ch) = false → ∀ trained, exec (.channelRetrainDone mc ch trained) s = .next s)) ∧
  (∀ (block link : Nat) (s : State), block < 20 → link < 4 → exec (.cxlLinkDown block link) s = .next (settle (fenceCxl block link s))) ∧
  (∀ (ti r i f : Nat) (b : Blk) (s y : State), s.tel.frozen = false → blkFind s ti r i = some b → b.frame = none →
    recoverFrame b.cls s = some (f, y) → ∃ x, exec (.poisonedBlockPlaced ti r i) s = .next (settle x) ∧
      (∃ b', blkFind x ti r i = some b' ∧ b'.frame = some f) ∧ x.mem.cells = y.mem.cells) ∧
  (∀ (dpa : Nat) (s : State), s.tel.frozen = false →
    let f := dpa / 65536
    let mc := frameChan s f / 16
    let y := setCell (blkMc mc) 0x118 f s
    (channelHeld s dpa = true → ∀ lf, exec (.scrubRead dpa lf) s = .next s) ∧
    (channelHeld s dpa = false → isHotFrame f = true → hotPopulated s f = true → retired s f = false → (cell s (blkMc mc) 0x114).testBit 31 = true →
    exec (.scrubRead dpa none) s = .next y ∧
    ∀ lf, exec (.scrubRead dpa (some lf)) s = .next (settle (lineFault { lf with dpa := dpa / 128 * 128 } y)))) ∧
  (∀ s : State, s.tel.frozen = false →
    let y := s.setMem { s.mem with moves := 0 }
    (((cell s blkTable 0x10000).testBit 31 = false ∨ isolated s blkTable = true) → exec .tierEpochEnd s = .next (heatHalved y)) ∧
    (∀ (p d w : Nat) (x : State), (cell s blkTable 0x10000).testBit 31 = true → isolated s blkTable = false → epochMoves y = ((p, d, w), x) →
      x.mem.moves ≤ moveBudget s ∧
      ((p, d, w) = (0, 0, 0) → exec .tierEpochEnd s = .next (heatHalved x)) ∧
      ((p, d, w) ≠ (0, 0, 0) → exec .tierEpochEnd s =
        .next (logPolicy 0x40 1 6 0 (hotFreeCount s % 2 ^ 22 + p % 2 ^ 22 * 2 ^ 22 + w % 2 ^ 20 * 2 ^ 44)
          ((hotFreeCount s + d - p) % 2 ^ 22 + d % 2 ^ 22 * 2 ^ 22 + w / 2 ^ 20 % 2 ^ 20 * 2 ^ 44) (heatHalved x))))) ∧
  (∀ (ti r i f g : Nat) (b : Blk) (s : State), s.tel.frozen = false → blkFind s ti r i = some b → b.moving = some f → b.frame = some g → b.swapFor ≠ some (ti, r, i) →
    ∃ x b', exec (.tierMoveComplete ti r i) s = .next (settle x) ∧ blkFind x ti r i = some b' ∧ b'.frame = some f ∧ b'.moving = none) ∧
  (∀ (crossing block : Nat) (inside : List CrossWork) (parity : List Nat) (s : State), block < 61 →
    let y := settle (stoSettle (inside.foldl (fun s w => crossLost w s) s))
    (y.mem.crossSpared.contains crossing = true → ∃ x, Recorded y x block 2 1 [crossing] ∧ x.mem = y.mem ∧
      exec (.crossingMismatch crossing ⟨block, inside, parity⟩) s = .next (crossCluster block parity x)) ∧
    (y.mem.crossSpared.contains crossing = false → ∃ x, x.mem.crossFails = put y.mem.crossFails crossing (now y (blkIsland block)) ∧
      Recorded y x block 2 1 [crossing] ∧
      let again := match look y.mem.crossFails crossing with | some t0 => decide (now y (blkIsland block) < t0 + 1000000000) | none => false
      exec (.crossingMismatch crossing ⟨block, inside, parity⟩) s = .next (if again then
        logSpare block 0x0004 crossing 0 (ackSpare block (x.setMem { x.mem with crossSpared := y.mem.crossSpared ++ [crossing] })) else x))) ∧
  (∀ (block sram row : Nat) (isColumn : Bool) (key : Option VaultKey) (s : State), block < 61 →
    let code := sramCode block sram row isColumn
    let due := s.mem.sramDue.contains code = true ∧ s.mem.sramUsed < Config.sramSpares
    let again := match look s.mem.sramFails code with | some t0 => decide (now s (blkIsland block) < t0 + 1000000000) | none => false
    (due → ∃ t, exec (.sramRowSpared block sram row ⟨isColumn, true, key⟩) s = .next t ∧ t.mem.sparesUsed = s.mem.sparesUsed + 1 ∧
      t.mem.sramUsed = s.mem.sramUsed + 1 ∧ t.mem.sramDue.contains code = false ∧ look t.mem.sramFails code = none ∧ t.mem.cells = s.mem.cells ∧
      (∀ h e m, s.mem.vaultLost.contains (code, h) = true → look s.sec.keys h = some e → e.material = none → e.sealedCopy = some m →
        (look t.sec.keys h).map (·.material) = some (some m)) ∧
      Recorded s t block 1 3 [sram, row + if isColumn then 2 ^ 31 else 0]) ∧
    (¬ due → exec (.sramRowSpared block sram row ⟨isColumn, true, key⟩) s = .next s) ∧
    ∃ x, x = s.setMem { s.mem with sramFails := put s.mem.sramFails code (now s (blkIsland block)), sramDue := x.mem.sramDue } ∧
      (x.mem.sramDue.contains code = (again || s.mem.sramDue.contains code)) ∧
      (block ≠ blkCipher ∨ key = none → exec (.sramRowSpared block sram row ⟨isColumn, false, key⟩) s = .next x) ∧
      ∀ k, block = blkCipher → key = some k → exec (.sramRowSpared block sram row ⟨isColumn, false, key⟩) s = .next (vaultKeyLost code k x) ∧
        (k = .deviceId → (vaultKeyLost code k x).sec.deviceKey = false) ∧ (k = .aliasKey → (vaultKeyLost code k x).sec.identity = false) ∧
        ∀ h e, k = .provisioned h → keyOf s h = some e → ∃ z, vaultKeyLost code k x = settle (stoSettle (abortKeyless z)) ∧
          look z.sec.keys h = some { e with material := none, sealedCopy := e.sealedCopy.or e.material })

/-- R344 to R373: the commands. -/
def Obligations.RestoreAndAdoptionCommands : Prop :=
  (∀ (via : Via) (pkt : IcpPkt) (s s0 : State) (c : Ctx), Starts 0x0311 via pkt s c s0 →
    let id := c.p 0 4
    let n := c.p 8 2
    let m : ShardMap := match s0.elastic.loading with | some m => if m.id = id then m else { id := id } | none => { id := id }
    let b := m.bytes ++ (c.params.drop 16).take n
    id ≠ 0 → c.p 4 4 = m.bytes.length → c.p 4 4 + n ≤ 2 ^ 20 → n ≤ 4048 → 16 + n ≤ c.params.length →
    let keep := fun (m : ShardMap) => s0.setElastic { s0.elastic with loading := some m }
    ((c.p 0xA 2).testBit 0 = false → Replied (exec (.shardMapLoad via pkt) s) c stOk dtNone
      (layout 16 [(0, 4, id), (4, 4, b.length), (8, 4, 0), (0xC, 4, le b 0x1C 4)]) (keep { m with bytes := b, complete := false })) ∧
    ((c.p 0xA 2).testBit 0 = true → firstBad (mapChecks s0 b) = none → Replied (exec (.shardMapLoad via pkt) s) c stOk dtNone
      (layout 16 [(0, 4, id), (4, 4, b.length), (8, 4, 1), (0xC, 4, le b 0x1C 4)]) (keep { readMap b with id := id })) ∧
    (∀ st d, (c.p 0xA 2).testBit 0 = true → firstBad (mapChecks s0 b) = some (st, d) →
      Replied (exec (.shardMapLoad via pkt) s) c st d [] (keep { id := id }))) ∧
  (∀ (via : Via) (pkt : IcpPkt) (s s0 : State) (c : Ctx), Starts 0x0310 via pkt s c s0 → firstBad (beginChecks c s0) = none →
    (ledgerBest pkt.reads.ledgers = none → Replied (exec (.restoreBegin via pkt) s) c stFailed 0x0120 [] s0) ∧
    (∀ l s1 d data, ledgerBest pkt.reads.ledgers = some l → firstBad (beginStructChecks c (beginSet c s0 l) s0) = none →
      startRestore c (beginSet c s0 l) (restTabs (beginSet c s0 l) s0) s0 = .reply s1 stOk d data →
      Replied (exec (.restoreBegin via pkt) s) c stOk d data s1 ∧ (rrun s1).id = s0.elastic.nextRestore ∧ (rrun s1).courseId = le l 0x10 4 ∧
        (rrun s1).step = le l 0x14 4 ∧ (rrun s1).state = 2 ∧ (c.p 0 4 = 0 ∨ c.p 0 4 = le l 0x10 4) ∧ digest48 pkt.reads.manifest = (l.drop 0x30).take 48 ∧
        signedByDomain s0 pkt.reads.manifest = true ∧ ((c.p 0xA 2).testBit 0 = true → s1.mem = s0.mem ∧ s1.tab = s0.tab))) ∧
  (∀ (via : Via) (pkt : IcpPkt) (s s0 : State) (c : Ctx), Starts 0x0312 via pkt s c s0 → (c.p 0 4 = 0 ∨ c.p 0 4 = (rrun s0).id) →
    ∃ data, Replied (exec (.restoreStatus via pkt) s) c stOk dtNone data s0 ∧ le data 0 4 = (rrun s0).id % 2 ^ 32 ∧
      le data 4 1 = (rrun s0).state % 2 ^ 8 ∧ le data 6 2 = (rrun s0).detail % 2 ^ 16 ∧ le data 8 4 = (rrun s0).courseId % 2 ^ 32) ∧
  (∀ (via : Via) (pkt : IcpPkt) (s s0 s1 : State) (c : Ctx) (m : ShardMap) (rows : List (Nat × Nat)),
    Starts 0x0313 via (withByte 6 (putBit 0 false) pkt) s c s0 → (c.p 6 2).testBit 0 = false → mapById s0 (c.p 0 4) = some m →
    (c.p 8 4 = 0 ∨ some (c.p 8 4) = s0.course.committed.map (·.1)) → movesLive s0 m (lostList c) = false → s0.course.committed.isSome = true →
    adoptAll m (oldTodo s0) (supersede s0) = some (rows, s1) →
    let ms := if c.p 0xC 4 = 0 then 60000 else clampN 1000 600000 (c.p 0xC 4)
    let x := requeueSent (lostList c) (activate { m with shrunk := false } s1)
    (rows = [] → ∃ data, Replied (exec (.shardAdopt via pkt) s) c stOk
      (okDetail (ms != c.p 0xC 4 || clampN 1 16 (c.p 4 2) != c.p 4 2)) data (settle (releaseShrink x))) ∧
    (rows ≠ [] → ∃ y, Onward (exec (.shardAdopt via pkt) s) (settle y) ∧ y.elastic.active = some { m with shrunk := false } ∧
      (∃ a, y.elastic.adopt = some a ∧ a.todo = rows ∧ a.mapId = m.id ∧ a.timeoutMs = ms ∧
        a.clamped = (ms != c.p 0xC 4 || clampN 1 16 (c.p 4 2) != c.p 4 2)) ∧ y.mem = s1.mem ∧ y.tab = x.tab)) ∧
  (∀ (via : Via) (pkt : IcpPkt) (s s0 : State) (c : Ctx), Starts 0x0313 via (withByte 6 (putBit 0 true) pkt) s c s0 →
    (c.p 6 2).testBit 0 = true → s0.elastic.active.map (·.id) = some (c.p 0 4) →
    (s0.elastic.adopt.isSome = true → Onward (exec (.shrinkDone via pkt) s) (addWait c .adopt 0 0 s0)) ∧
    (s0.elastic.adopt = none → Replied (exec (.shrinkDone via pkt) s) c stOk dtNone
      (layout 32 [(0, 4, (s0.course.committed.map (·.1)).getD 0), (4, 4, (s0.course.committed.map (·.2)).getD 0)]) (failOwnerless s0)))

/-- R352 to R372: the events. -/
def Obligations.RestoredRowsAndLostMembers : Prop :=
  ∀ s : State, s.tel.frozen = false →
  (∀ (i j : Nat) (h : PlanShard) (head data : Bytes), (rrun s).plan[i]? = some h → (rrun s).state = 2 → s.icp.paused = false → h.keyed = false → h.chunks.contains j = true →
    let fails := fun (h : PlanShard) (item detail : Nat) (z : State) (o : Host.Outcome State Fault Refusal) =>
      let n := lookD h.passed item 0
      (h.retried.contains item = false → ∃ x, o = .next x ∧ (rrun x).plan[i]? = some { h with retried := item :: h.retried } ∧
        (rrun x).retries = (rrun z).retries + (if item = 0 then 0 else 1) ∧ x.mem = z.mem) ∧
      (h.retried.contains item = true → n + 1 < h.sources.length → ∃ x, o = .next x ∧
        (rrun x).plan[i]? = some { h with passed := put h.passed item (n + 1), retried := h.retried.filter (· != item) } ∧
        (rrun x).retries = (rrun z).retries + (if item = 0 then 0 else 1) ∧ x.mem = z.mem) ∧
      (h.retried.contains item = true → h.sources.length ≤ n + 1 → o = .next (failRestore detail h.origin h.index z))
    (takeHead i h head s = none → fails h 0 0x0123 s (exec (.restoreChunkRead i j head data) s)) ∧
    (∀ (y : State) (g : PlanShard), takeHead i h head s = some y → (rrun y).plan[i]? = some g →
      (g.chunks.contains j = false → exec (.restoreChunkRead i j head data) s = .next y) ∧
      (∀ d, g.chunks.contains j = true → openChunk y (rrun y).courseId g (h.head.getD head) j data = .inr d →
        fails g (j + 1) d y (exec (.restoreChunkRead i j head data) s)) ∧
      ∀ p : Bytes, g.chunks.contains j = true → openChunk y (rrun y).courseId g (h.head.getD head) j data = .inl p → ∃ x,
        exec (.restoreChunkRead i j head data) s = .next (match (rrun x).plan[i]? with
          | some k => if k.chunks.isEmpty then placeShard i k x else x
          | none => x) ∧
        (∃ k, (rrun x).plan[i]? = some k ∧ lookD k.got j [] = p ∧ k.chunks = g.chunks.filter (· != j) ∧ k.retried = g.retried.filter (· != j + 1)) ∧
        (rrun x).bytesDone = (rrun y).bytesDone + data.length ∧ x.mem = s.mem ∧ x.tab = s.tab)) ∧
  (∀ (i : Nat) (h : PlanShard), (rrun s).plan[i]? = some h → (rrun s).state = 2 → h.placed = false →
    (presentSource h + 1 < h.sources.length → ∃ x g, exec (.restoreSourceTimeout i) s = .next x ∧ (rrun x).plan[i]? = some g ∧
      (∀ k, lookD g.passed k 0 = if (outstanding h).contains k && lookD h.passed k 0 == presentSource h then presentSource h + 1 else lookD h.passed k 0) ∧
      g.sources = h.sources ∧ g.chunks = h.chunks ∧ g.head = h.head ∧ x.mem = s.mem ∧ x.out = s.out) ∧
    (h.sources.length ≤ presentSource h + 1 → exec (.restoreSourceTimeout i) s = .next (failRestore 0x0126 h.origin h.index s))) ∧
  (let r := rrun s
   r.state = 2 → (∀ h ∈ r.plan, h.placed = true) →
    (r.tabs.zipIdx.all (fun x => tabCovered r x.2 x.1) = false → exec .restoreComplete s = .next (failRestore 0x012A 0 0 s)) ∧
    (r.tabs.zipIdx.all (fun x => tabCovered r x.2 x.1) = true →
      (r.verifyOnly = true → exec .restoreComplete s = .next (updRestore (fun r => { r with state := 3 }) s)) ∧
      (r.verifyOnly = false → ∃ x, exec .restoreComplete s = .next (settle x) ∧ (rrun x).state = 3 ∧
        x.course.highId = max s.course.highId r.courseId ∧ x.course.committed = laterCourse s.course.committed (r.courseId, r.step) ∧
        (∀ t ∈ r.tabs, ∀ ti, t.ti = some ti → (look x.tab.tbls ti).isSome = true → (tblD x ti).visible = true ∧ (tblD x ti).highStep = some r.step)))) ∧
  ((rrun s).state ≠ 2 → exec .restoreComplete s = .next s) ∧
  (((rrun s).state ≠ 2 ∨ s.icp.paused = true) → ∀ i j head data, exec (.restoreChunkRead i j head data) s = .next s) ∧
  (∀ (a : AdoptRun) (ti row : Nat) (v : AdoptRead) (slotFree : Bool), s.elastic.adopt = some a → a.todo.contains (ti, row) = true →
    let t := tblD s ti
    let tries := readsAllowed s (((v.shards.head?).map (·.origin)).getD 0)
    let hs := v.shards.filterMap (readShard s a.courseId t)
    let from_ := if t.hashed then v.row else rowIdentity t row
    let parts := rowParts t from_ hs
    let whole := (courseRegions t parts).all (fun g => rowCovered t (parts.filter (fun h => h.region == g)) from_)
    (tries ≤ lookD a.failed (ti, row) 0 → exec (.adoptRowRead ti row v slotFree) s = .next s) ∧
    (lookD a.failed (ti, row) 0 < tries →
      (hs.length < v.shards.length → ∃ x b, exec (.adoptRowRead ti row v slotFree) s = .next x ∧ x.elastic.adopt = some b ∧ b.todo = a.todo ∧
        lookD b.failed (ti, row) 0 = lookD a.failed (ti, row) 0 + 1 ∧ x.mem = s.mem ∧ x.tab = s.tab) ∧
      (hs.length = v.shards.length → ∃ y, y = s.setSec y.sec ∧
        (whole = false → exec (.adoptRowRead ti row v slotFree) s = .next y) ∧
        (whole = true → t.hashed = false → ∃ x, exec (.adoptRowRead ti row v slotFree) s = .next (adoptedRow ti row 1 0 x) ∧
          x.mem.cells = (placeParts ti from_ row parts y).mem.cells ∧ x.elastic = s.elastic) ∧
        (whole = true → t.hashed = true →
          let key := ((parts.find? (fun h => h.region == 3)).map (fun h => leVal (partBytes h from_))).getD emptyKey
          let gone := key = emptyKey ∨ keyArray t key = none
          (gone → exec (.adoptRowRead ti row v slotFree) s = .next (adoptedRow ti row 0 0 (updTbl ti (rowEmpty row) y))) ∧
          (∀ w, ¬ gone → freeSlot y ti (adoptRoom t) key = some w → ∃ x, exec (.adoptRowRead ti row v slotFree) s = .next (adoptedRow ti row 1 0 x) ∧
            x.mem.cells = (placeParts ti from_ w parts y).mem.cells ∧ x.elastic = s.elastic) ∧
          (¬ gone → freeSlot y ti (adoptRoom t) key = none → exec (.adoptRowRead ti row v slotFree) s = .next (adoptFull y))))) ∧
    (t.hashed = false → adoptMark t row = row) ∧
    (∃ x, exec (.adoptTimeout ti row) s = .next (adoptedRow ti row 0 1 x) ∧ x.mem = s.mem ∧ x.elastic = s.elastic ∧
      (look s.tab.tbls ti ≠ none → (tblD x ti).bad = t.bad.map (fun b => if b.row = adoptMark t row then { b with repointing := false } else b)))) ∧
  ((∀ a, s.elastic.adopt = some a → a.todo = []) → ∀ ti row v slotFree,
    exec (.adoptRowRead ti row v slotFree) s = .next s ∧ exec (.adoptTimeout ti row) s = .next s) ∧
  ((hasTree s = false → exec .livenessSend s = .next s ∧ ∀ d, exec (.livenessTimeout d) s = .next s) ∧
   (hasTree s = true → exec .livenessSend s = .next (sendDown (.liveness (deviceIndex s) (ownStep s) s.elastic.adopt.isSome ownFormat (domainGrt s) [])
      (sendUp (.liveness (deviceIndex s) (subtreeStep s) (s.elastic.adopt.isSome || s.course.peersAdopting.any (· != fenceParent s))
        (subtreeFormat s) (subtreeGrt s) (heardBelow s)) s)))) ∧
  (∀ (d : Nat) (step : Option Nat) (adopting : Bool) (format grt : Nat) (below : List Nat), ∃ t,
    exec (.liveness d step adopting ⟨format, below, grt⟩) s = .next t ∧ look t.course.peerFormats d = some format ∧ look t.course.peerGrt d = some grt ∧
    (∀ e ∈ t.grt.domain, e.2 = domainGrt t ∧ e.2 ≤ grt) ∧ look t.elastic.heard d = some (now s 0x41) ∧ (d ≠ fenceParent s → look t.elastic.below d = some below) ∧
    (t.course.peersAdopting.contains d = adopting) ∧ (∀ x, step = some x → look t.course.peerSteps d = some x) ∧ t.mem = s.mem ∧ t.tab = s.tab ∧
    t.out = s.out) ∧
  (∀ d : Nat, hasTree s = true → s.elastic.lost.contains d = false →
    (d = fenceParent s → exec (.livenessTimeout d) s = .next (membersLost [d] s)) ∧
    (d ≠ fenceParent s → ∃ rest, exec (.livenessTimeout d) s = .next (membersLost (d :: rest) (reportLost (d :: rest) s)))) ∧
  (∀ ds : List Nat, exec (.memberFailed ds false) s = .next (membersLost ds (sendDown (.memberFailed ds) s)) ∧
    (fenceRoot s = false → exec (.memberFailed ds true) s = .next (sendDomain (fenceParent s) (.lostReport ds) s))) ∧
  (∀ d : Nat, s.elastic.lost.contains d = false → d ≠ deviceIndex s → ∃ x, membersLost [d] s = settle x ∧ x.elastic.lost = s.elastic.lost ++ [d] ∧
    courseLive x = false ∧ (courseLive s = true → x.course.lastDetail = 0x010A) ∧ Recorded s x 26 1 0x0100 [d])

/-- R437 to R444, R466 to R475. Status values are status code type × 256 + status code. -/
def Obligations.NvmeAdminCommandsComplete : Prop :=
  ∀ (fn : Nat) (cmd : NvmeCmd) (s : State), NvReady fn 0 s →
  let k := ctrlOf s fn
  let qid := bits cmd.dw10 0 16
  let size := bits cmd.dw10 16 16 + 1
  let hi := bits cmd.dw11 16 16
  let base := ((cmd.prp.head?).map (·.1)).getD 0
  let ends := fun (r : Ran) (st dw : Nat) => NvRan fn 0 s r (nvmeDone fn 0 cmd.cid st dw [])
  let endsIn := fun (r : Ran) (dw : Nat) (f : Nvme → Nvme) => NvRan fn 0 s r (fun x => nvmeDone fn 0 cmd.cid 0 dw [] (updCtrl fn f x))
  (qid ≠ 0 → qid ≤ queueGrant s fn → has k.cqs qid = false → 2 ≤ size → cmd.dw11.testBit 0 = true → hi < vectorCount fn →
    endsIn (exec (.createIoCq fn cmd) s) 0 (fun k => { k with cqs := put k.cqs qid { base := base, size := size, ien := cmd.dw11.testBit 1, vector := hi } })) ∧
  (qid ≠ 0 → qid ≤ queueGrant s fn → has k.sqs qid = false → hi ≠ 0 → has k.cqs hi = true → 2 ≤ size → cmd.dw11.testBit 0 = true →
    endsIn (exec (.createIoSq fn cmd) s) 0 (fun k => { k with sqs := put k.sqs qid { cq := hi, base := base, size := size } })) ∧
  ((qid = 0 ∨ queueGrant s fn < qid) → ends (exec (.createIoCq fn cmd) s) 0x101 0 ∧ ends (exec (.createIoSq fn cmd) s) 0x101 0) ∧
  (qid ≠ 0 → has k.sqs qid = true → (∀ o ∈ s.sto.ops, ¬ (o.fn = fn ∧ o.sq = qid)) →
    endsIn (exec (.deleteIoSq fn cmd) s) 0 (fun k => { k with sqs := del k.sqs qid })) ∧
  (qid ≠ 0 → has k.cqs qid = true → (∀ e ∈ k.sqs, e.2.cq ≠ qid) → endsIn (exec (.deleteIoCq fn cmd) s) 0 (fun k => { k with cqs := del k.cqs qid })) ∧
  (let lid := bits cmd.dw10 0 8
   let n := (bits cmd.dw10 16 16 + bits cmd.dw11 0 16 * 65536 + 1) * 4
   let type := if lid = 1 then 0 else if lid = 2 then 1 else if lid = 4 then 2 else if lid = 0x81 then 6 else 7
   (∀ p, logPage s fn lid = some p → NvRan fn 0 s (exec (.getLogPage fn cmd) s) (fun x =>
      nvmeDone fn 0 cmd.cid 0 0 (prpWrites cmd.prp (pagePart p (cmd.dw12 + cmd.dw13 * 2 ^ 32) n))
        (drawn (if cmd.dw10.testBit 15 then x else updCtrl fn (fun k => { k with
          masked := k.masked.filter (· != type), changed := if lid = 4 then [] else k.changed }) x)))) ∧
   (logPage s fn lid = none → ends (exec (.getLogPage fn cmd) s) 0x109 0)) ∧
  (bits cmd.dw10 0 8 = 1 → NvRan fn 0 s (exec (.identify fn cmd) s) (fun x =>
    nvmeDone fn 0 cmd.cid 0 0 (prpWrites cmd.prp ((identifyController fn s.draw ++ List.replicate 4096 0).take 4096)) (drawn x))) ∧
  (3 < bits cmd.dw10 0 8 → ends (exec (.identify fn cmd) s) 2 0) ∧
  (s.sto.ops = [] → (¬ (qid = 0 ∧ k.aers.contains (bits cmd.dw10 16 16) = true) → ends (exec (.abort fn cmd) s) 0 1) ∧
    (qid = 0 → k.aers.contains (bits cmd.dw10 16 16) = true → NvRan fn 0 s (exec (.abort fn cmd) s) (fun x =>
      nvmeDone fn 0 cmd.cid 0 0 [] (nvmeDone fn 0 (bits cmd.dw10 16 16) 7 0 []
        (updCtrl fn (fun k => { k with aers := k.aers.filter (· != bits cmd.dw10 16 16) }) x))))) ∧
  (let fid := bits cmd.dw10 0 8
   let lo := bits cmd.dw11 0 16
   let g := min (min lo hi + 1) (fnD s fn).allot.nvmeQps
   (fid = 1 → endsIn (exec (.setFeatures fn cmd) s) 0 (fun k => { k with arb := cmd.dw11 })) ∧
   (fid = 7 → lo ≠ 65535 → hi ≠ 65535 → endsIn (exec (.setFeatures fn cmd) s) ((g - 1) + (g - 1) * 65536) (fun k => { k with queues := g })) ∧
   (fid = 8 → endsIn (exec (.setFeatures fn cmd) s) 0 (fun k => { k with coalesce := lo })) ∧
   (fid = 0xB → endsIn (exec (.setFeatures fn cmd) s) 0 (fun k => { k with asyncMask := cmd.dw11 })) ∧
   (fid ∉ [1, 2, 7, 8, 9, 0xA, 0xB] → ends (exec (.setFeatures fn cmd) s) 2 0 ∧ ends (exec (.getFeatures fn cmd) s) 2 0) ∧
   (fid = 1 → ends (exec (.getFeatures fn cmd) s) 0 k.arb) ∧
   (fid = 2 → ends (exec (.getFeatures fn cmd) s) 0 (if 3 ≤ k.ps then k.lastOp else k.ps)) ∧
   (fid = 0xB → ends (exec (.getFeatures fn cmd) s) 0 k.asyncMask)) ∧
  (let p := bits cmd.dw11 0 5
   let t := if p = 2 then 1 else p
   k.psEntry = none → (p ≤ 2 → endsIn (exec (.setFeaturesPowerManagement fn cmd) s) t (fun k => { k with ps := t, lastOp := t })) ∧
    (3 ≤ p → p ≤ 4 → ctrlSanitizing s fn = false → ctrlBusy s fn = false → NvRan fn 0 s (exec (.setFeaturesPowerManagement fn cmd) s)
      (updCtrl fn (fun k => { k with psEntry := some { cid := cmd.cid, target := p, waited := false } }))) ∧
    (4 < p → ends (exec (.setFeaturesPowerManagement fn cmd) s) 2 0)) ∧
  ((∀ e ∈ k.events, k.masked.contains (e % 8) = true) → NvRan fn 0 s (exec (.asynchronousEventRequest fn cmd) s)
    (updCtrl fn (fun k => { k with aers := k.aers ++ [cmd.cid] }))) ∧
  (∀ e, k.events.find? (fun e => !k.masked.contains (e % 8)) = some e → endsIn (exec (.asynchronousEventRequest fn cmd) s) e
    (fun k => { k with events := dropFirst (fun x => x == e) k.events, masked := k.masked ++ [e % 8] })) ∧
  (let ts := formatTargets s fn cmd.nsid
   let ses := bits cmd.dw10 9 3
   ts ≠ [] → (∀ n ∈ ts, sanActive (nsD s n) = false) → k.sanWait = none → bits cmd.dw10 0 4 ≤ 1 →
    (ses ≤ 1 ∨ (ses = 2 ∧ ∀ n ∈ ts, (nsD s n).encrypted = true)) →
    NvRan fn 0 s (exec (.formatNvm fn cmd) s) (updCtrl fn (fun k => { k with sanWait := some (0x80, cmd) }))) ∧
  (attachedTo s fn ≠ [] → ctrlSanitizing s fn = false →
    let c := fun a => { cmd with dw10 := cmd.dw10 - bits cmd.dw10 0 3 + a, nsid := 0xFFFFFFFF }
    NvRan fn 0 s (exec (.sanitizeBlockErase fn cmd) s) (updCtrl fn (fun k => { k with sanWait := some (0x84, c 2) })) ∧
    NvRan fn 0 s (exec (.sanitizeOverwrite fn cmd) s) (updCtrl fn (fun k => { k with sanWait := some (0x84, c 3) })) ∧
    ((∀ e ∈ attachedTo s fn, e.2.encrypted = true) →
      NvRan fn 0 s (exec (.sanitizeCryptoErase fn cmd) s) (updCtrl fn (fun k => { k with sanWait := some (0x84, c 4) }))) ∧
    ((∃ e ∈ attachedTo s fn, e.2.encrypted = false) → ends (exec (.sanitizeCryptoErase fn cmd) s) 2 0) ∧
    NvRan fn 0 s (exec (.sanitizeExitFailure fn cmd) s) (fun x => nvmeDone fn 0 cmd.cid 0 0 [] ((attachedTo x fn).foldl (fun s e =>
      if e.2.san.state = 7 ∧ !e.2.san.format then setSan e.1 (fun x => { x with state := 0 }) s else s) x)))

/-- R441, R442 and R452 to R463. -/
def Obligations.NvmeIoCommandsComplete : Prop :=
  ∀ (fn sq : Nat) (cmd : NvmeCmd) (io : NvmeIo) (s : State) (x : Ns), sq ≠ 0 → NvReady fn sq s →
  let b := lbaBytes x
  let off := slbaOf cmd * b
  let n := nlbOf cmd * b
  let id := s.sto.nextOp
  let ends := fun (r : Ran) (st : Nat) (w : List (Nat × Bytes)) => NvRan fn sq s r (fun y =>
    nvmeDone fn sq cmd.cid st 0 w (y.setSto { y.sto with nextOp := id + 1 }))
  let reads := fun (r : Ran) (st : Nat) (w : List (Nat × Bytes)) => NvRan fn sq s r (fun y =>
    nvmeDone fn sq cmd.cid st 0 w (repairRead cmd.nsid off n io (y.setSto { y.sto with nextOp := id + 1 })))
  let holds := fun (op : Nat) (y : State) => y.setSto { y.sto with
    ops := [{ id := id, fn := fn, gen := genOf s fn, sq := sq, opcode := op, cmd := cmd, io := io, first := slbaOf cmd, count := nlbOf cmd, write := true, phase := .lock }],
    nextOp := id + 1 }
  (NvOpen s fn cmd.nsid x → io.cipher = 0 →
    NvRan fn sq s (exec (.flushNvm fn sq cmd) s) (nvmeDone fn sq cmd.cid 0 0 []) ∧
    (slbaOf cmd + nlbOf cmd ≤ nsLbas x →
      (∀ d, readLegs s x off n io = some d →
        (n ≤ 2097152 → reads (exec (.nvmeRead fn sq cmd io) s) 0 (prpWrites cmd.prp d)) ∧ reads (exec (.verify fn sq cmd io) s) 0 [] ∧
        (∀ e, n ≤ 2097152 → io.data = some e → reads (exec (.compare fn sq cmd io) s) (if e.take n = d then 0 else 0x285) [])) ∧
      (io.readFail = [] → ∀ y, repairRead cmd.nsid off n io y = y) ∧
      (readLegs s x off n io = none → (n ≤ 2097152 → ends (exec (.nvmeRead fn sq cmd io) s) 0x281 []) ∧ ends (exec (.verify fn sq cmd io) s) 0x281 []) ∧
      (writeProtected x = false → (∃ i l, x.legs[i]? = some l ∧ l.state = 0 ∧ i ∉ io.writeFail) → (x.atomic = false ∨ 262144 < n) →
        (∀ e, n ≤ 2097152 → io.data = some e → NvRan fn sq s (exec (.nvmeWrite fn sq cmd io) s) (fun y =>
          nvmeDone fn sq cmd.cid 0 0 [] (dropOp id (writeLegs cmd.nsid off ((e ++ List.replicate n 0).take n) io.writeFail (holds 1 y))))) ∧
        NvRan fn sq s (exec (.writeZeroes fn sq cmd io) s) (fun y =>
          nvmeDone fn sq cmd.cid 0 0 [] (dropOp id (writeLegs cmd.nsid off (List.replicate n 0) io.writeFail (holds 8 y))))) ∧
      (∀ e, writeProtected x = false → x.atomic = true → n ≤ 262144 → io.data = some e →
        let d := (stored s x off ((e ++ List.replicate n 0).take n)).2
        journalUsed x + 4096 + d.length ≤ x.journalMib * 1048576 →
        NvRan fn sq s (exec (.nvmeWrite fn sq cmd io) s) (fun y =>
          updOp id (fun o => { o with phase := .journal }) (bump blkStorage 0x110 (setNs cmd.nsid { x with
            journal := x.journal ++ [withCrc cmd.nsid b { seq := x.journalSeq, op := id, first := slbaOf cmd, data := d }],
            journalSeq := x.journalSeq + 1 } (holds 1 y))))) ∧
      (writeProtected x = true → NvRan fn sq s (exec (.writeZeroes fn sq cmd io) s) (nvmeDone fn sq cmd.cid 0x20 0 []) ∧
        (n ≤ 2097152 → io.data ≠ none → NvRan fn sq s (exec (.nvmeWrite fn sq cmd io) s) (nvmeDone fn sq cmd.cid 0x20 0 [])))) ∧
    (∀ e, io.data = some e → cmd.dw11.testBit 2 = false → NvRan fn sq s (exec (.datasetManagement fn sq cmd io) s) (nvmeDone fn sq cmd.cid 0 0 [])) ∧
    (∀ e r, io.data = some e → cmd.dw11.testBit 2 = true → dsmRanges cmd e = [r] → r.1 + r.2 ≤ nsLbas x → writeProtected x = false →
      (∃ i l, x.legs[i]? = some l ∧ l.state = 0 ∧ i ∉ io.writeFail) →
      NvRan fn sq s (exec (.datasetManagement fn sq cmd io) s) (fun y => nvmeDone fn sq cmd.cid 0 0 [] (dropOp id
        (writeLegs cmd.nsid (r.1 * b) (List.replicate (r.2 * b) 0) io.writeFail (y.setSto { y.sto with
          ops := [{ id := id, fn := fn, gen := genOf s fn, sq := sq, opcode := 9, cmd := cmd, io := io, first := r.1, count := r.2, write := true, phase := .lock }],
          nextOp := id + 1 })))))) ∧
  (nsOf s cmd.nsid = none → NvRan fn sq s (exec (.nvmeRead fn sq cmd io) s) (nvmeDone fn sq cmd.cid 0x0B 0 []) ∧
    NvRan fn sq s (exec (.nvmeWrite fn sq cmd io) s) (nvmeDone fn sq cmd.cid 0x0B 0 [])) ∧
  (∀ (off : Nat) (data : Bytes) (t : State), nsOf t cmd.nsid = some x → ∀ (i : Nat) (l : Leg), x.legs[i]? = some l → l.state ≠ 2 →
    Memory.wf l.cells = true → (x.encrypted = true → keyMaterial t x.key ≠ none) →
    let t' := writeLegs cmd.nsid off data [] t
    let x' := nsD t' cmd.nsid
    ∃ l' : Leg, x'.legs[i]? = some l' ∧ legRead t' x' l' off data.length = data ∧
      (∀ a n, (a + n ≤ off / b * b ∨ (off + data.length + b - 1) / b * b ≤ a) → legRead t' x' l' a n = legRead t x l a n) ∧
      (x.encrypted = false → ∀ a n, (a + n ≤ off ∨ off + data.length ≤ a) → legRead t' x' l' a n = legRead t x l a n))

/-- R447 to R451 and R454. -/
def Obligations.NamespacesAreMadeAttachedAndMirrored : Prop :=
  (∀ (via : Via) (pkt : IcpPkt) (s s0 : State) (c : Ctx), Starts 0x0400 via pkt s c s0 →
    let x0 := askedNs c s0
    let x := { x0 with legs := x0.legs.map (takeLeg s0 x0.bytes) }
    (∀ i, firstBad (nsCreateChecks c s0 x0) = none → legsOverlap x0 = false → lowest 4096 (fun i => !has s0.sto.ns (i + 1)) = some i →
      x.legs.all (legFits s0 x.bytes) = true → journalsFit s0 x = true →
      Replied (exec (.nsCreate via pkt) s) c stOk
        (okDetail (c.differs [(0, 8, x.bytes), (0xA, 1, x.legs.length), (0xB, 1, x.stripe), (0x14, 4, x.journalMib)]))
        (layout 64 [(0, 4, i + 1), (8, 8, x.bytes), (0x10, 8, nsLbas x), (0x18, 1, x.legs.length), (0x19, 1, x.stripe),
          (0x1C, 4, if x.atomic then x.journalMib else 0)]) (setNs (i + 1) x s0) ∧ has s0.sto.ns (i + 1) = false ∧ i < 4096) ∧
    (∀ st d, firstBad (nsCreateChecks c s0 x0) = some (st, d) → Replied (exec (.nsCreate via pkt) s) c st d [] s0)) ∧
  (∀ (via : Via) (pkt : IcpPkt) (s s0 : State) (c : Ctx) (x : Ns), Starts 0x0401 via pkt s c s0 →
    let n := c.p 0 4
    (nsOf s0 n = some x → sanActive x = true → Replied (exec (.nsDelete via pkt) s) c stBusy dtSanActive [] s0) ∧
    (nsOf s0 n = some x → x.attached ≠ [] → sanActive x = false → Replied (exec (.nsDelete via pkt) s) c stConflict dtNsAttached [] s0) ∧
    (nsOf s0 n = some x → x.attached = [] → courseDest s0 n = false → sanActive x = false → ∃ y,
    Replied (exec (.nsDelete via pkt) s) c stOk dtNone (layout 8 [(0, 4, n)]) (stoSettle y) ∧ y.sto.ns = del s0.sto.ns n ∧ y.mem = s0.mem ∧
    y.sto.ops = s0.sto.ops.filter (fun o => o.cmd.nsid != n) ∧ (x.encrypted = false → y.sec = s0.sec) ∧
    (x.encrypted = true → keyMaterial y x.key = none))) ∧
  (∀ (via : Via) (pkt : IcpPkt) (s s0 : State) (c : Ctx) (x : Ns), Starts 0x0402 via pkt s c s0 →
    let n := c.p 0 4
    let fn := c.p 4 2
    nsOf s0 n = some x → isController s0 fn = true →
    (x.attached = [] → courseDest s0 n = false → Replied (exec (.nsAttach via pkt) s) c stOk dtNone (layout 8 [(0, 4, n), (4, 2, fn)])
      (nsChanged fn n (setNs n { x with attached := [fn] } s0))) ∧
    (x.attached ≠ [] → Replied (exec (.nsAttach via pkt) s) c stConflict dtNsAttached [] s0)) ∧
  (∀ (via : Via) (pkt : IcpPkt) (s s0 : State) (c : Ctx) (x : Ns), Starts 0x0403 via pkt s c s0 →
    let n := c.p 0 4
    let fn := c.p 4 2
    nsOf s0 n = some x → x.attached.contains fn = true → sanActive x = false →
    ((∀ o ∈ s0.sto.ops, ¬ (o.cmd.nsid = n ∧ o.fn = fn ∧ o.resync = none)) →
      Replied (exec (.nsDetach via pkt) s) c stOk dtNone (layout 8 [(0, 4, n), (4, 2, fn)]) (nsChanged fn n (setNs n { x with attached := [] } s0))) ∧
    ((∃ o ∈ s0.sto.ops, o.cmd.nsid = n ∧ o.fn = fn ∧ o.resync = none) → Onward (exec (.nsDetach via pkt) s) (addWait c .detach n fn s0))) ∧
  (∀ (via : Via) (pkt : IcpPkt) (s s0 : State) (c : Ctx) (x : Ns), Starts 0x0404 via pkt s c s0 → nsOf s0 (c.p 0 4) = some x →
    ((c.iss.priv = true ∨ x.attached.contains c.iss.fid = true) → ∃ tail, Replied (exec (.nsQuery via pkt) s) c stOk dtNone (nsBlock x ++ tail) s0) ∧
    (c.iss.priv = false → x.attached.contains c.iss.fid = false → Replied (exec (.nsQuery via pkt) s) c stBadHandle (dtField 0) [] s0)) ∧
  (∀ (via : Via) (pkt : IcpPkt) (s s0 : State) (c : Ctx), Starts 0x0405 via pkt s c s0 → ∃ es,
    Replied (exec (.ssdList via pkt) s) c stOk dtNone (layout 16 [(0, 4, 80 - c.p 0 4)] ++ es) s0 ∧ es.length = 32 * (80 - c.p 0 4)) ∧
  (∀ (via : Via) (pkt : IcpPkt) (s s0 : State) (c : Ctx) (x : Ns), Starts 0x0406 via pkt s c s0 →
    let n := c.p 0 4
    let i := c.p 5 1
    let l := legAt c 8
    let done := fun (y : State) => Replied (exec (.nsMirrorSet via pkt) s) c stOk dtNone (mirrorReply y n) (stoSettle y)
    nsOf s0 n = some x →
    (c.p 4 1 = 0 → x.legs.length = 1 → i = 1 → firstBad (legChecks s0 8 l) = none → legFits s0 x.bytes l = true → legEmpty l = false →
      (∀ k ∈ l.ssds, l.kind = 1 → k ∉ (x.legs.map (·.ssds)).flatten) →
      done (setNs n { x with legs := x.legs ++ [{ takeLeg s0 x.bytes l with state := 1, stale := true }] } s0)) ∧
    (i < x.legs.length → (∃ j l, j ≠ i ∧ x.legs[j]? = some l ∧ l.state = 0) →
      (c.p 4 1 = 1 → ∃ y, done y ∧ (nsD y n).legs = x.legs.eraseIdx i ∧ y.mem = s0.mem) ∧
      (c.p 4 1 = 2 → done (beginResync n i s0))) ∧
    ((∀ j l, j ≠ i → x.legs[j]? = some l → l.state ≠ 0) → i < x.legs.length → c.p 4 1 = 1 →
      Replied (exec (.nsMirrorSet via pkt) s) c stConflict (dtField 5) [] s0))

/-- R444, R445, R453, R454, R459, R462, R463, R465, R468, R472, R474 and R475. -/
def Obligations.StorageGoesOnThroughItsEvents : Prop :=
  (∀ (fn : Nat) (s : State), s.tel.frozen = false → isController s fn = true → functionServed s fn = true → (ctrlOf s fn).enabled = true →
    hostAwake s fn = true →
    let k := ctrlOf s fn
    (∀ sq tail es, (look k.sqs sq = none → exec (.nvmeSqDoorbell fn sq tail es) s = .next (badDoorbell fn 0 s)) ∧
      (∀ q, look k.sqs sq = some q → (q.size ≤ tail → exec (.nvmeSqDoorbell fn sq tail es) s = .next (badDoorbell fn 1 s)) ∧
        (tail < q.size → exec (.nvmeSqDoorbell fn sq tail es) s = .next (stoSettle (fetchNvme fn (setCtrl fn { k with
          sqs := put k.sqs sq { q with tail := tail, unread := q.unread ++ (es.map nvmeSlot).take ((tail + q.size - q.tail) % q.size) } } s)))))) ∧
    (∀ cq head, (look k.cqs cq = none → exec (.nvmeCqDoorbell fn cq head) s = .next (badDoorbell fn 0 s)) ∧
      (∀ q, look k.cqs cq = some q →
        let freed := (head + q.size - q.head) % q.size
        ((q.size ≤ head ∨ (q.prod + q.size - q.head) % q.size < freed) → exec (.nvmeCqDoorbell fn cq head) s = .next (badDoorbell fn 1 s)) ∧
        (head < q.size → freed ≤ (q.prod + q.size - q.head) % q.size → exec (.nvmeCqDoorbell fn cq head) s =
          .next (stoSettle (fetchNvme fn (setCtrl fn { k with cqs := put k.cqs cq { q with head := head, used := q.used - freed } } s))))))) ∧
  (∀ (fn q n : Nat) (es : List NvmeSlot) (s : State),
    (s.tel.frozen = false → isController s fn = true → functionServed s fn = true → hostAwake s fn = true →
      (ctrlOf s fn).enabled = false → (ctrlOf s fn).sqs = [] → (ctrlOf s fn).cqs = [] →
      exec (.nvmeSqDoorbell fn q n es) s = .next (bump blkStorage 0x124 s) ∧ exec (.nvmeCqDoorbell fn q n) s = .next (bump blkStorage 0x124 s)) ∧
    ((isController s fn = false ∨ functionServed s fn = false ∨ hostAwake s fn = false) →
      exec (.nvmeSqDoorbell fn q n es) s = .next s ∧ exec (.nvmeCqDoorbell fn q n) s = .next s)) ∧
  (∀ (fn asq an acq cn : Nat) (s : State), isController s fn = true → hostAwake s fn = true → ∃ x,
    exec (.controllerReset fn false asq an acq cn) s = .next x ∧
    exec (.controllerReset fn true asq an acq cn) s = .next (setCtrl fn { ctrlOf x fn with
      enabled := true, sqs := [(0, { cq := 0, base := asq, size := max 2 (min 4096 an) })], cqs := [(0, { base := acq, size := max 2 (min 4096 cn), ien := true })] } x) ∧
    x = stoSettle (setCtrl fn { sanStatus := (ctrlOf s fn).sanStatus } (s.setSto { s.sto with
      ops := (s.sto.ops.filter (fun o => !(o.fn == fn && o.resync.isNone && !opIssued o))).map
        (fun o => if o.fn = fn ∧ o.resync.isNone then { o with posted := true } else o),
      ns := s.sto.ns.map (fun e =>
        (e.1, if e.2.san.format ∧ e.2.san.fn = fn then { e.2 with san := { e.2.san with fn := 0xFFFF } } else e.2)) }))) ∧
  (∀ s : State, s.tel.frozen = false →
    (∀ (id : Nat) (o : NvmeOp), s.sto.ops.find? (fun o => o.id == id) = some o → exec (.rangeLockGrant id) s =
      .next (stoSettle (tryStart o (1 + o.ranges.length) s)) ∧
      ((o.phase ≠ .lock ∨ blocked s o = true) → exec (.rangeLockGrant id) s = .next (stoSettle s)) ∧
      (o.phase = .lock → blocked s o = false → o.ranges = [] → exec (.rangeLockGrant id) s = .next (stoSettle (startOp o s)))) ∧
    (∀ (id : Nat) (o : NvmeOp), s.sto.ops.find? (fun o => o.id == id && o.phase == .journal) = some o → writeProtected (nsD s o.cmd.nsid) = false →
      ∃ x, exec (.journalDurable id) s = .next (stoSettle (postOp o 0 [] x)) ∧ (∀ r ∈ (nsD x o.cmd.nsid).journal, r.op = id → r.durable = true) ∧
        (nsD x o.cmd.nsid).legs = (nsD s o.cmd.nsid).legs ∧ x.out = s.out) ∧
    (∀ (id : Nat) (fails : List Nat) (o : NvmeOp), s.sto.ops.find? (fun o => o.id == id && o.phase == .place) = some o →
      let off := o.first * lbaBytes (nsD s o.cmd.nsid)
      let w := match (nsD s o.cmd.nsid).journal.find? (fun r => r.op == id) with
        | some r => rawLegs o.cmd.nsid off r.data fails s
        | none => writeLegs o.cmd.nsid off (opBytes (nsD s o.cmd.nsid) o) fails s
      (hasLeg (nsD w o.cmd.nsid) = true → ∃ x, exec (.inPlaceWriteDone id fails) s = .next (stoSettle x) ∧ (∀ p ∈ x.sto.ops, p.id ≠ id) ∧
        (∀ r ∈ (nsD x o.cmd.nsid).journal, r.op ≠ id) ∧ (nsD x o.cmd.nsid).legs = (nsD w o.cmd.nsid).legs) ∧
      (hasLeg (nsD w o.cmd.nsid) = false → exec (.inPlaceWriteDone id fails) s = .next (stoSettle w))) ∧
    (∀ (n i : Nat) (x : Ns) (l : Leg), nsOf s n = some x → x.legs[i]? = some l → sanActive x = false → l.state ≠ 2 → ∃ y,
      exec (.legFailed n i none) s = .next (stoSettle y) ∧ (nsD y n).legs.length = x.legs.length ∧
      (∃ l', (nsD y n).legs[i]? = some l' ∧ l'.state = 2 ∧ l'.cells = l.cells) ∧ (∀ j, j ≠ i → (nsD y n).legs[j]? = x.legs[j]?) ∧
      y.tel.plogNext = (s.tel.plogNext + 1) % 2 ^ 32) ∧
    (∀ (n i : Nat) (x : Ns) (l : Leg), nsOf s n = some x → x.legs[i]? = some l → l.state = 2 → ∃ y l',
      exec (.legReturn n i none) s = .next (stoSettle y) ∧ (nsD y n).legs[i]? = some l' ∧ l'.state = (if l.stale then 1 else 0) ∧
      ((l.stale = true ∨ x.journal = []) → l'.cells = l.cells) ∧
      (l.stale = false → journalsLost x = false → ∀ r ∈ (nsD y n).journal, ∃ o ∈ s.sto.ops, o.id = r.op)) ∧
    (∀ (n i : Nat) (l : Leg), (nsD s n).legs[i]? = some l →
      ((l.state ≠ 1 ∨ sanActive (nsD s n) = true) → exec (.resyncPiece n i) s = .next s) ∧
      (∀ src, nsOf s n ≠ none → l.state = 1 → sanActive (nsD s n) = false → s.sto.ops = [] → (nsD s n).legs.find? (fun k => k.state == 0) = some src →
        Memory.wf l.cells = true →
        let x := nsD s n
        let b := lbaBytes x
        let count := min 1048576 (x.bytes - l.copied) / b
        ∃ y l', exec (.resyncPiece n i) s = .next (stoSettle y) ∧ y.sto.ops = [] ∧ (nsD y n).legs[i]? = some l' ∧ l'.copied = l.copied + count * b ∧
          l'.state = (if x.bytes ≤ l.copied + count * b then 0 else 1) ∧
          rawGet x l' (l.copied / b * b) (count * b) = rawGet x src (l.copied / b * b) (count * b)) ∧
      (l.state = 1 → sanActive (nsD s n) = false → s.sto.ops = [] → exec (.resyncPiece n i) s = .next (stoSettle (arrive
        { id := 0, fn := 0xFFFF, sq := 0, opcode := 0, cmd := { nsid := n }, io := {}, first := l.copied / lbaBytes (nsD s n),
          count := min 1048576 ((nsD s n).bytes - l.copied) / lbaBytes (nsD s n), write := true, phase := .lock, resync := some i } s))))) ∧
  (∀ (i : Nat) (s : State), s.tel.frozen = false → s.sto.ns = [] → ∃ x y, exec (.journalSsdFailed i) s = .next (stoSettle x) ∧
    x.sto.failedSsds.contains i = true ∧ exec (.journalSsdReturn i) s = .next (stoSettle y) ∧ y.sto.failedSsds.contains i = false) ∧
  (∀ (i : Nat) (s : State), s.tel.frozen = false → ∃ x y, exec (.journalSsdFailed i) s = .next (stoSettle x) ∧
    exec (.journalSsdReturn i) s = .next (stoSettle y) ∧ x.sto.failedSsds.contains i = true ∧ y.sto.failedSsds.contains i = false ∧
    ∀ (n : Nat) (z : Ns), nsOf s n = some z →
      (z.atomic = true → (z.journalA = i ∨ z.journalB = i) → (nsD x n).journalFailed.contains i = true ∧ (nsD y n).journalFailed.contains i = false) ∧
      ∀ (j : Nat) (l : Leg), z.legs[j]? = some l → l.kind = 1 → i ∈ l.ssds → sanActive z = false →
        (∃ l' : Leg, (nsD x n).legs[j]? = some l' ∧ l'.state = 2) ∧
        (l.state = 2 → (∀ k ∈ l.ssds, s.sto.failedSsds.contains k = true → k = i) →
          ∃ l' : Leg, (nsD y n).legs[j]? = some l' ∧ l'.state = if l.stale then 1 else 0)) ∧
  (∀ (i n : Nat) (x : Ns) (s : State), s.tel.frozen = false → s.sto.ns = [(n, x)] → x.atomic = true → (x.journalA = i ∨ x.journalB = i) →
    (i ∉ x.journalFailed → ∃ y, exec (.journalSsdFailed i) s = .next (stoSettle y) ∧ (nsD y n).journalFailed = x.journalFailed ++ [i]) ∧
    (i ∈ x.journalFailed → ∃ y, exec (.journalSsdReturn i) s = .next (stoSettle y) ∧ (nsD y n).journalFailed = x.journalFailed.filter (· != i) ∧
      (journalsLost x = true → (nsD y n).journal = []))) ∧
  (∀ (i n : Nat) (x : Ns) (l : Leg) (s : State), s.tel.frozen = false → s.sto.ns = [(n, x)] → x.legs = [l] → x.atomic = false → sanActive x = false →
    l.kind = 1 → i ∈ l.ssds →
    (l.state ≠ 2 → ∃ y l', exec (.journalSsdFailed i) s = .next (stoSettle y) ∧ (nsD y n).legs = [l'] ∧ l'.state = 2 ∧ l'.cells = l.cells) ∧
    (l.state = 2 → l.stale = false → x.journal = [] → s.sto.failedSsds = [i] → ∃ y l', exec (.legReturn n 0 (some i)) s = .next (stoSettle y) ∧
      (nsD y n).legs = [l'] ∧ l'.state = 0 ∧ l'.cells = l.cells)) ∧
  (∀ (n : Nat) (s : State), s.tel.frozen = false →
    let x := nsD s n
    let last := decide (sanExtents x ≤ x.san.extent + 1)
    let goes := fun (ok : Bool) (f : Sanitize → Sanitize) => exec (.sanitizeProgress n ok) s = .next (stoSettle (setSan n f s))
    (sanActive x = false → ∀ ok, exec (.sanitizeProgress n ok) s = .next s) ∧
    (x.san.state = 1 → x.san.action = 2 → ∀ ok, goes ok (fun x => { x with state := 3, extent := 0 })) ∧
    (x.san.state = 1 → x.san.action = 3 → ∀ ok, goes ok (fun x => { x with state := 4, extent := 0, pass := 1 })) ∧
    (x.san.state = 1 → x.san.action = 4 → ∀ ok, exec (.sanitizeProgress n ok) s =
      .next (stoSettle (setSan n (fun x => { x with state := 2 }) (clearKey x.key s)))) ∧
    (x.san.state = 1 → x.san.action = 0 → ∀ ok, goes ok (fun x => { x with state := 5 })) ∧
    (x.san.state = 2 → ∀ ok,
      (s.sec.alarm = 0 → keyedAllowed s = true → x.san.held = false → exec (.sanitizeProgress n ok) s = .next (stoSettle (sanDone n (newNsKey n s)))) ∧
      (¬ (s.sec.alarm = 0 ∧ keyedAllowed s = true ∧ x.san.held = false) → exec (.sanitizeProgress n ok) s = .next (stoSettle s))) ∧
    (let filled := setNs n (fillNs x x.san.extent (if x.san.state = 3 then 0 else passPattern x.san)) s
     let fills := fun (f : Sanitize → Sanitize) => exec (.sanitizeProgress n true) s = .next (stoSettle (setSan n f filled))
     (x.san.state = 3 → last = false → fills (fun x => { x with extent := x.extent + 1 })) ∧
     (x.san.state = 4 → last = false → fills (fun x => { x with extent := x.extent + 1 })) ∧
     (x.san.state = 4 → last = true → x.san.pass < x.san.passes → fills (fun x => { x with extent := 0, pass := x.pass + 1 })) ∧
     ((x.san.state = 3 ∨ (x.san.state = 4 ∧ x.san.passes ≤ x.san.pass)) → last = true →
       exec (.sanitizeProgress n true) s = .next (stoSettle (sanDone n filled)))) ∧
    (x.san.state = 5 → exec (.sanitizeProgress n true) s =
      .next (stoSettle (formatDone n (setSan n (fun x => { x with state := 6 }) (updNs n (fun x => withFormat x.san.lbaf x) s))))) ∧
    (∀ i e p l, x.legs[i]? = some l → Memory.wf l.cells = true → e < legExtents x l → ∃ l',
      (fillNs x (((x.legs.take i).map (legExtents x)).sum + e) p).legs[i]? = some l' ∧
      ∀ k, (legExtent l k = e → memGet l'.cells k ^^^ legFill l' k = BitVec.ofNat 8 (p / 256 ^ (k / legWidth l % 4))) ∧
        (legExtent l k ≠ e → memGet l'.cells k ^^^ legFill l' k = memGet l.cells k ^^^ legFill l k)) ∧
    ((x.san.state = 3 ∨ x.san.state = 4 ∨ x.san.state = 5) → exec (.sanitizeProgress n false) s = .next (stoSettle (sanFailed n s))) ∧
    (x.san.format = false → x.san.action ≠ 0 → ∀ l ∈ (nsD (sanDone n s) n).legs, l.cells = [] ∧ l.fills = [])) ∧
  (∀ (fn : Nat) (s : State), (ctrlOf s fn).psEntry = none → exec (.powerStateIdle fn) s = .next s ∧ exec (.powerStateAbandon fn) s = .next s) ∧
  (∀ (fn : Nat) (e : PsEntry) (s : State), s.tel.frozen = false → (ctrlOf s fn).psEntry = some e →
    (ctrlBusy s fn = false → exec (.powerStateIdle fn) s =
      .next (nvmeDone fn 0 e.cid 0 e.target [] (updCtrl fn (fun k => { k with ps := e.target, psEntry := none }) s))) ∧
    (ctrlBusy s fn = true → exec (.powerStateIdle fn) s = .next s) ∧
    exec (.powerStateAbandon fn) s = .next (nvmeDone fn 0 e.cid 0 (ctrlOf s fn).ps [] (bump blkStorage 0x12C
      (updCtrl fn (fun k => { k with psEntry := none }) s)))) ∧
  (∀ (fn v : Nat) (s : State), s.tel.frozen = false →
    let y := updCtrl fn (fun k => { k with coalesced := del k.coalesced v }) s
    (has (ctrlOf s fn).coalesced v = true → exec (.interruptCoalescingExpiry fn v) s = .next (raiseMsix fn v y) ∧
      (msixMasked s fn v = false → silenced s fn = false → raiseMsix fn v y = emit (.msix fn v) y) ∧
      (msixMasked s fn v = true → (raiseMsix fn v y).out = s.out ∧ (raiseMsix fn v y).ports.msixPending.contains (fn, v) = true)) ∧
    (has (ctrlOf s fn).coalesced v = false → exec (.interruptCoalescingExpiry fn v) s = .next s)) ∧
  (∀ (fn sq n m i leg v a b d e : Nat) (es : List NvmeSlot) (en ok : Bool) (ssd : Option Nat) (fails : List Nat) (s : State),
    (∃ t, exec (.nvmeSqDoorbell fn sq n es) s = .next t) ∧ (∃ t, exec (.nvmeCqDoorbell fn sq n) s = .next t) ∧
    (∃ t, exec (.controllerReset fn en a b d e) s = .next t) ∧ (∃ t, exec (.powerStateIdle fn) s = .next t) ∧
    (∃ t, exec (.powerStateAbandon fn) s = .next t) ∧ (∃ t, exec (.sanitizeProgress m ok) s = .next t) ∧
    (∃ t, exec (.rangeLockGrant i) s = .next t) ∧ (∃ t, exec (.journalDurable i) s = .next t) ∧
    (∃ t, exec (.inPlaceWriteDone i fails) s = .next t) ∧ (∃ t, exec (.legFailed m leg ssd) s = .next t) ∧
    (∃ t, exec (.legReturn m leg ssd) s = .next t) ∧ (∃ t, exec (.resyncPiece m leg) s = .next t) ∧
    (∃ t, exec (.journalSsdFailed i) s = .next t) ∧ (∃ t, exec (.journalSsdReturn i) s = .next t) ∧
    ∃ t, exec (.interruptCoalescingExpiry fn v) s = .next t)

/-- R380 to R383, R481, R487, R491, R498 to R503, R508, R515 to R518, R522 to R525 and R528. -/
def Obligations.PortsAndPacketObjectsAreConfigured : Prop :=
  (∀ (via : Via) (pkt : IcpPkt) (s s0 : State) (c : Ctx), Starts 0x0500 via (withByte 0 (fun _ => 0) pkt) s c s0 → c.p 0 1 = 0 →
    let n := c.p 1 1
    let x := askedBlock c (pbOf s0 n)
    n ≤ 19 → x.role ≤ 4 → bifurOk x.role x.bifur = true → x.bifur ≤ 4 → x.hostPort ≤ 1 →
    (x.role = 1 → ((List.range 20).filter (fun k => k != n && (pbOf s0 k).role == 1)).length < 2) →
    (x.role = 2 → bridges s0 x.hostPort n x ≤ 31) →
    ((x.role = (pbOf s0 n).role ∧ x.bifur = (pbOf s0 n).bifur ∧ x.hostPort = (pbOf s0 n).hostPort) ∨ blockInUse s0 n = false) →
    Replied (exec (.portConfigBlock via pkt) s) c stOk (okDetail (c.p 6 1 != x.maxSpeed))
      (layout 64 [(0, 1, 0), (1, 1, n), (2, 1, x.role), (3, 1, x.bifur), (4, 1, x.hostPort), (5, 1, bit x.propagate), (6, 1, x.maxSpeed)])
      (blockChange n x s0) ∧ 1 ≤ x.maxSpeed ∧ x.maxSpeed ≤ 6 ∧
    (x.role ≠ (pbOf s0 n).role → (pbOf s0 n).role ≠ 1 → ∀ l ∈ (pbOf (blockChange n x s0) n).links, l.width = 0)) ∧
  (∀ (via : Via) (pkt : IcpPkt) (s s0 : State) (c : Ctx), Starts 0x0500 via (withByte 0 (fun _ => 1) pkt) s c s0 → c.p 0 1 = 1 →
    let n := c.p 1 1
    let x := askedPort c (enOf s0 n)
    n ≤ 7 → isolated s0 (blkEn n) = false → c.p 2 1 ≤ 3 → c.p 3 1 ≤ 1 → (c.p 7 1 = 0 ∨ lanePerm (c.p 7 1) = true) →
    (removedSubs s0 n (c.p 2 1)).any (subBound s0) = false → ∃ y,
    Replied (exec (.portConfigEthernet via pkt) s) c stOk (okDetail (c.differs [(4, 2, x.maxFrame), (8, 4, x.startupMs), (0xC, 4, x.recoveryMs)]))
      (layout 64 ([(0, 1, 1), (1, 1, n)] ++ portFields x)) y ∧
    (enOf y n).mode = c.p 2 1 ∧ (enOf y n).service = c.p 3 1 ∧ (enOf y n).maxFrame = max 1518 (min 9728 (c.p 4 2)) ∧
    (enOf y n).startupMs = min 60000 (c.p 8 4) ∧ (enOf y n).recoveryMs = min 600000 (c.p 0xC 4) ∧ (enOf y n).dscp = x.dscp ∧
    (c.p 2 1 ≠ (enOf s0 n).mode → cell y (blkEn n) 0x13C = (cell s0 (blkEn n) 0x13C + 1) % 2 ^ 32) ∧ (∀ m, m ≠ n → enOf y m = enOf s0 m) ∧
    y.mem = s0.mem) ∧
  (∀ (via : Via) (pkt : IcpPkt) (s s0 : State) (c : Ctx),
    (Starts 0x0501 via (withByte 0 (fun _ => 0) pkt) s c s0 → c.p 0 1 = 0 → c.p 1 1 ≤ 19 → ∃ data,
      Replied (exec (.portQueryBlock via pkt) s) c stOk dtNone data s0 ∧ le data 2 1 = (pbOf s0 (c.p 1 1)).role % 2 ^ 8) ∧
    (Starts 0x0501 via (withByte 0 (fun _ => 1) pkt) s c s0 → c.p 0 1 = 1 → c.p 1 1 ≤ 7 → ∃ data,
      Replied (exec (.portQueryEthernet via pkt) s) c stOk dtNone data s0 ∧ le data 2 1 = (enOf s0 (c.p 1 1)).mode % 2 ^ 8)) ∧
  (∀ (via : Via) (pkt : IcpPkt) (s s0 : State) (c : Ctx) (i page : Nat),
    Starts 0x0500 via (withByte 1 (fun _ => 0) (withByte 0 (fun _ => 2) pkt)) s c s0 → c.p 0 1 = 2 → c.p 1 1 = 0 →
    let fid := c.p 2 2
    let tx := clampN 4 15 (c.p 0x20 1)
    let rx := clampN 4 15 (c.p 0x21 1)
    let cq := clampN (max tx rx + 1) 16 (c.p 0x22 1)
    isolated s0 blkPacket = false → nicFunction s0 fid = true → subExists s0 (c.p 6 1) = true → c.p 7 1 ≤ 7 → c.p 8 8 % 4096 = 0 →
    c.p 0x10 8 % 4096 = 0 → c.p 0x18 8 % 4096 = 0 → (c.p 0x24 2 = 0xFFFF ∨ c.p 0x24 2 < vectorCount fid) →
    (s0.pp.qps.filter (fun e => e.1 / 65536 == fid)).length + (fnD s0 fid).reclaim.nicQps < (fnD s0 fid).allot.nicQps →
    lowest 16384 (fun i => !has s0.pp.qps (qpKey fid i)) = some i → freePage s0 fid = some page →
    let eff := [(0x20, 1, tx), (0x21, 1, rx), (0x22, 1, cq)]
    Replied (exec (.nicQpCreate via pkt) s) c stOk (okDetail (c.differs eff)) (c.echo 64 nicNames (eff ++ [(4, 2, i), (0x28, 8, 4096 * page)]))
      (setQp (qpKey fid i) {
        gen := genOf s0 fid, port := c.p 6 1, tc := c.p 7 1, tx := c.p 8 8, rx := c.p 0x10 8, cq := c.p 0x18 8, txLog2 := tx, rxLog2 := rx, cqLog2 := cq, vector := c.p 0x24 2, page := page } (s0.setPages (s0.pages ++ [(fid, page)]))) ∧
    has s0.pp.qps (qpKey fid i) = false ∧ tx < cq ∧ rx < cq ∧ cq ≤ 16) ∧
  (∀ (via : Via) (pkt : IcpPkt) (s s0 : State) (c : Ctx),
    Starts 0x0500 via (withByte 1 (fun _ => 1) (withByte 0 (fun _ => 2) pkt)) s c s0 → c.p 0 1 = 2 → c.p 1 1 = 1 →
    let k := qpKey (c.p 2 2) (c.p 4 2)
    nicFunction s0 (c.p 2 2) = true → has s0.pp.qps k = true →
    Replied (exec (.nicQpDestroy via pkt) s) c stOk dtNone (c.echo 64 nicNames []) (removeNicQp k s0) ∧
    (removeNicQp k s0).pp.qps = del s0.pp.qps k ∧ (removeNicQp k s0).mem = s0.mem) ∧
  (∀ (via : Via) (pkt : IcpPkt) (s s0 : State) (c : Ctx), Starts 0x0502 via pkt s c s0 → isStaged s0 1 (c.p 0 2) = false →
    c.p 0 2 ≤ 255 → (c.p 2 1 ≤ 63 ∨ c.p 2 1 = 0xFF) → c.p 7 1 ≤ 1 → ∃ clamped data,
    Replied (exec (.parseNodeWrite via pkt) s) c stOk (okDetail clamped) data
      (s0.setPp { s0.pp with nodes := put s0.pp.nodes (c.p 0 2) (askedNode c) }) ∧ (askedNode c).selWidth ≤ 32 ∧ 1 ≤ (askedNode c).advFixed) ∧
  (∀ (op : Nat) (via : Via) (pkt : IcpPkt) (s s0 s1 : State) (c : Ctx) (i : Nat) (row : Instr),
    (op, row) ∈ [(0, Instr.clsInsert via pkt), (1, .clsDelete via pkt), (2, .clsConfigure via pkt)] →
    Starts 0x0503 via (withByte 1 (fun _ => op) pkt) s c s0 → c.p 1 1 = op →
    let n := c.p 0 1
    let count := if op = 2 then 1 else min 31 (c.p 2 2)
    n ≤ 7 → 32 + 128 * count ≤ c.pkt.paramLen → stagedHit 2 c s0 = false →
    (clsRecords op n c.params count 0 s0 = (s1, i, none) → ∃ clamped, Replied (exec row s) c stOk (okDetail clamped)
      (layout 32 [(0, 4, i), (4, 4, (tableOf s1 n).entries.length), (8, 4, 0xFFFFFFFF)]) s1 ∧ i = count) ∧
    (∀ st d, st ≠ stOk → clsRecords op n c.params count 0 s0 = (s1, i, some (st, d)) → Replied (exec row s) c st d
      (layout 32 [(0, 4, i), (4, 4, (tableOf s1 n).entries.length), (8, 4, i)]) s1 ∧ i < count) ∧
    (∀ m, m ≠ n → tableOf (clsRecords op n c.params count 0 s0).1 m = tableOf s0 m)) ∧
  (∀ (via : Via) (pkt : IcpPkt) (s s0 : State) (c : Ctx), Starts 0x0503 via (withByte 1 (fun _ => 3) pkt) s c s0 → c.p 1 1 = 3 →
    let n := c.p 0 1
    let a := actionAt c.params 8
    n ≤ 7 → 32 ≤ c.pkt.paramLen → stagedHit 2 c s0 = false → firstBad (actionBad s0 n 8 a) = none → ∃ data,
    Replied (exec (.clsMissAction via pkt) s) c stOk (okDetail (actionClamped c.params 8)) data (putTable n { tableOf s0 n with miss := some a } s0)) ∧
  (∀ (via : Via) (pkt : IcpPkt) (s s0 : State) (c : Ctx), Starts 0x0504 via (withByte 1 (fun _ => 0) pkt) s c s0 → c.p 1 1 = 0 →
    let n := c.p 0 1
    let p := profileOf s0 n
    let count := min 2024 (c.p 4 2)
    n ≤ 63 → ownsProfile c s0 n = true → (c.iss.priv = true ∨ c.p 6 2 = 0) → 16 + 2 * count ≤ c.pkt.paramLen →
    c.p 2 2 + count ≤ 2 ^ p.sizeLog2 → stagedHit 3 c s0 = false →
    Replied (exec (.indirectionEntries via pkt) s) c stOk (okDetail (c.p 4 2 != count)) (layout 16 [(0, 4, count), (4, 4, 2 ^ p.sizeLog2)])
      (s0.setPp { s0.pp with indir := (List.range count).foldl (fun m i => put m ((p.base + c.p 2 2 + i) % 4096) (c.p (16 + 2 * i) 2)) s0.pp.indir })) ∧
  (∀ (via : Via) (pkt : IcpPkt) (s s0 : State) (c : Ctx), Starts 0x0504 via (withByte 1 (fun _ => 1) pkt) s c s0 → c.p 1 1 = 1 →
    let n := c.p 0 1
    let k := min 12 (c.p 0x12 1)
    let fs := (List.range (min 4 (c.p 0x13 1))).map (fun i => fieldAt c.params (0x14 + 8 * i))
    c.iss.priv = true → n ≤ 63 → 104 ≤ c.pkt.paramLen → (∀ f ∈ fs, f.source ≤ 1 ∧ (f.source = 0 → f.inst ≤ 1)) → stagedHit 3 c s0 = false → ∃ (clamped : Bool) (p : Profile),
    Replied (exec (.indirectionProfile via pkt) s) c stOk (okDetail clamped) (layout 16 [(0, 4, 0), (4, 4, 2 ^ k)])
      (s0.setPp { s0.pp with profiles := put s0.pp.profiles n p }) ∧
    p.sizeLog2 = k ∧ p.fields = fs ∧ p.owner = c.p 6 2 ∧ p.base % 2 ^ k = 0 ∧ p.base + 2 ^ k ≤ 4096) ∧
  (∀ (via : Via) (pkt : IcpPkt) (s s0 : State) (c : Ctx), Starts 0x0505 via pkt s c s0 → isStaged s0 4 (stageKey 4 c) = false →
    let kind := c.p 0 1
    let k := shaperKey c
    let o := shaperOwner s0 k
    ((kind = 0 ∧ c.iss.priv = true ∧ c.p 1 1 ≤ 7 ∧ subExists s0 (c.p 2 1) = true) ∨ (kind = 1 ∧ has s0.pp.qps k.2 = true ∧ mayName c o = true) ∨
      (kind = 2 ∧ has s0.grt.conns k.2 = true ∧ mayName c o = true)) →
    (kind ≠ 0 → (shaperOf s0 k).took = none → (c.p 3 1).testBit 0 = true → limitersUsed s0 o < (fnD s0 o).allot.limiters) → ∃ clamped data y,
    Replied (exec (.shaperSet via pkt) s) c stOk (okDetail clamped) data y ∧ y.draw = s0.draw + 1 ∧
    (shaperOf y k).rate = max 1 (min 800000 (c.p 8 4)) ∧ (shaperOf y k).burst = max 10240 (min 16777216 (c.p 0xC 4)) ∧
    (shaperOf y k).enable = (c.p 3 1).testBit 0 ∧ (shaperOf y k).level ≤ ((shaperOf y k).burst * 8000 : Nat) ∧
    (∀ j, j ≠ k → look y.pp.shapers j = look s0.pp.shapers j)) ∧
  (∀ (via : Via) (pkt : IcpPkt) (s s0 : State) (c : Ctx), Starts 0x0506 via pkt s c s0 → isStaged s0 5 (c.p 0 2) = false →
    1 ≤ c.p 0 2 → c.p 0 2 ≤ 4095 → c.p 2 1 ≤ 1 → ∃ clamped data y,
    Replied (exec (.policerSet via pkt) s) c stOk (okDetail clamped) data y ∧ y.draw = s0.draw + 2 ∧
    let q := policerOf y (c.p 0 2)
    q.cir = max 1 (min 800000 (c.p 4 4)) ∧ q.cbs = max 10240 (min 268435456 (c.p 8 4)) ∧ q.cir ≤ q.pir ∧ q.pir ≤ 800000 ∧
    q.aware = (c.p 2 1 == 1) ∧ q.enable = (c.p 3 1).testBit 0 ∧ q.c ≤ q.cbs * 8000 ∧ q.p ≤ q.pbs * 8000 ∧
    (∀ j, j ≠ c.p 0 2 → policerOf y j = policerOf s0 j)) ∧
  (∀ (via : Via) (pkt : IcpPkt) (s s0 : State) (c : Ctx), Starts 0x0507 via pkt s c s0 →
    let i := c.p 0 1
    let n := min 64 (c.p 1 1)
    let es := (List.range n).map (fun j => (clampN 100 1000000000 (c.p (16 + 16 * j) 4), c.p (20 + 16 * j) 1))
    let g : GateList := { base := c.p 8 8, entries := es }
    isolated s0 (blkEn (i / 4)) = false → subExists s0 i = true → 16 + 16 * n ≤ c.pkt.paramLen → isStaged s0 6 i = false → ∃ clamped data,
    Replied (exec (.gateListSet via pkt) s) c stOk (okDetail clamped) data
      (updSub i (fun x => { x with nextGates := some (g, gateDue (subOf s0 i).gates g (nowEn s0 i)) }) s0)) ∧
  (∀ (via : Via) (pkt : IcpPkt) (s s0 : State) (c : Ctx), Starts 0x0508 via pkt s c s0 →
    let n := c.p 0 1
    let kind := c.p 2 1
    let count := clampN 1 (if kind = 0 then 8 else 64) (c.p 8 2)
    let iv := max (clampN 500 1000000 (c.p 0xC 4)) (ceilDiv (count * 125) 4)
    n ≤ 63 → c.p 0x10 8 % 64 = 0 →
    ((kind = 0 ∧ c.iss.priv = true ∧ subExists s0 (c.p 3 1) = true ∧ c.p 6 2 + count ≤ 8) ∨
      (kind = 1 ∧ nicFunction s0 (c.p 4 2) = true ∧ mayName c (c.p 4 2) = true ∧ ∀ i < count, has s0.pp.qps (qpKey (c.p 4 2) (c.p 6 2 + i)) = true)) →
    ∃ clamped data, Replied (exec (.samplerSet via pkt) s) c stOk (okDetail clamped) data (s0.setPp { s0.pp with samplers := put s0.pp.samplers n {
        enable := (c.p 1 1).testBit 0, kind := kind, port := c.p 3 1, fn := c.p 4 2, first := c.p 6 2, count := count, interval := iv,
        ring := c.p 0x10 8, log2 := clampN 6 20 (c.p 0x18 1), issuer := c.iss.owner } }))

/-- R480 to R486, R509 to R512, R518 to R521, R525 and R528. -/
def Obligations.FramesLinksAndQueuesOfThePacketPath : Prop :=
  ∀ s : State, s.tel.frozen = false →
  (∀ (i cor unc : Nat) (f : Bytes) (full : Bool),
    let y := bumpEn i 0x118 (bumpEnBy i 0x138 unc (updSub i (fun x => { x with fec := x.fec + cor }) s))
    (subExists s i = false ∨ (subOf s i).up = false → exec (.ethernetFrameRx i f full cor unc) s = .next s) ∧
    (subExists s i = true → (subOf s i).up = true →
      (full = true → exec (.ethernetFrameRx i f full cor unc) s = .next (bumpEn i 0x120 y)) ∧
      (full = false → ingressBytes s i + f.length + 4 ≤ 2097152 → isPause f = true →
        exec (.ethernetFrameRx i f full cor unc) s = .next (bumpEn i 0x134 y)) ∧
      (full = false → ingressBytes s i + f.length + 4 ≤ 2097152 → isPause f = false → isolated s blkPacket = false → isolated s (blkEn (i / 4)) = false →
        f.length + 4 ≤ (enOf s (i / 4)).maxFrame → ppPaused s = false → exec (.ethernetFrameRx i f full cor unc) s = .next (routeFrame i f y)))) ∧
  (∀ m : Meta,
    let q := fillPolicer (nowPp s) (policerOf s m.policer)
    let with_ := fun (q : Policer) => s.setPp { s.pp with policers := put s.pp.policers m.policer q }
    let L := m.len * 8000
    let pre := if q.aware then m.colour else 0
    ((m.policer = 0 ∨ (policerOf s m.policer).enable = false) → policeFrame m s = (s, some m)) ∧
    (m.policer ≠ 0 → (policerOf s m.policer).enable = true →
      ((subOf s m.sub).svc = 0 → policeFrame m s = if L ≤ q.c then (with_ { q with c := q.c - L }, some m) else (bumpEn m.sub 0x124 (with_ q), none)) ∧
      ((subOf s m.sub).svc ≠ 0 → policeFrame m s =
        if pre = 2 ∨ q.p < L then (bumpEn m.sub 0x128 (with_ q), some { m with colour := 2 })
        else if pre = 1 ∨ q.c < L then (bumpEn m.sub 0x128 (with_ { q with p := q.p - L }), some { m with colour := 1 })
        else (with_ { q with p := q.p - L, c := q.c - L }, some { m with colour := 0 })))) ∧
  (∀ i speed mask inv : Nat, ∀ partner : Bool, subExists s i = true → (subOf s i).up = false → i % 4 < (enOf s (i / 4)).subs.length → ∃ t,
    exec (.linkUp i speed mask inv partner) s = .next t ∧ (subOf t i).up = true ∧ (subOf t i).speed = speed ∧ (subOf t i).laneMask = mask % 16 ∧
    (subOf t i).queues = (subOf s i).queues ∧
    ((subOf s i).svc = 2 → (subOf t i).svc = 2) ∧
    ((subOf s i).svc ≠ 2 → (subOf s i).seen = false → (subOf t i).svc = if (enOf s (i / 4)).startupMs = 0 then 0 else 1) ∧
    (((subOf s i).svc = 0 ∨ (subOf s i).svc = 3) → (subOf s i).seen = true → (subOf t i).svc = if (enOf s (i / 4)).recoveryMs = 0 then 0 else 3)) ∧
  (∀ i : Nat, (subOf s i).up = true → i % 4 < (enOf s (i / 4)).subs.length → ∃ t, exec (.linkDown i) s = .next t ∧ (subOf t i).up = false ∧
    (subOf t i).hold = true ∧ (subOf t i).queues = (subOf s i).queues ∧ (subOf t i).svc = (subOf s i).svc) ∧
  (∀ i : Nat, (subOf s i).up = false → (subOf s i).hold = true → exec (.linkDownHoldExpiry i) s = .next (dropQueued i s)) ∧
  (∀ i : Nat, ((subOf s i).svc = 1 ∨ (subOf s i).svc = 3) → exec (.serviceTimerExpiry i) s = .next (setSub i { subOf s i with svc := 0 } s)) ∧
  (∀ i : Nat, (subOf s i).svc ≠ 1 → (subOf s i).svc ≠ 3 → exec (.serviceTimerExpiry i) s = .next s) ∧
  (∀ (port lane : Nat) (l : EnLane), port < 8 → (enOf s port).lanes[lane]? = some l →
    (l.fails < 2 → exec (.laneTrainingFailed port lane) s =
      .next (setEn port { enOf s port with lanes := (enOf s port).lanes.set lane { l with fails := l.fails + 1 } } s)) ∧
    (2 ≤ l.fails → exec (.laneTrainingFailed port lane) s = .next (downTrain (laneSub (enOf s port).mode port lane) lane
      (setEn port { enOf s port with lanes := (enOf s port).lanes.set lane { l with fails := 0, trained := false } } s)))) ∧
  (∀ port order : Nat, port < 8 →
    ((enOf s port).laneOrder ≠ 0 → exec (.laneIdentityFound port order) s = .next s) ∧
    ((enOf s port).laneOrder = 0 → lanePerm order = true → ∃ t, exec (.laneIdentityFound port order) s = .next t ∧
      ∀ p < 4, ∃ l, (enOf t port).lanes[p]? = some l ∧ l.found = true ∧ bits order (2 * l.logical) 2 = p)) ∧
  (∀ fn, doorbellRange fn s = (s.setIcp { s.icp with dbInvalid := s.icp.dbInvalid + 1 }).setRings (doorbellRange fn s).rings ∧
    ringOf (doorbellRange fn s) fn = { ringOf s fn with dbErr := true } ∧ ∀ k, k ≠ fn → ringOf (doorbellRange fn s) k = ringOf s k) ∧
  (∀ (fn qp index : Nat), ((fnD s fn).dstate ≠ .d0 ∨ qpOf s (qpKey fn qp) = none) → exec (.nicCqHead fn qp index) s = .next s ∧
    (∀ slots, exec (.txTail fn qp index slots) s = .next s) ∧ ∀ slots, exec (.rxTail fn qp index slots) s = .next s) ∧
  (∀ (fn qp index : Nat) (q : NicQp), qpOf s (qpKey fn qp) = some q → (fnD s fn).dstate = .d0 →
    (∀ slots, (2 ^ q.txLog2 ≤ index → exec (.txTail fn qp index slots) s = .next (doorbellRange fn s)) ∧
      (index < 2 ^ q.txLog2 → exec (.txTail fn qp index slots) s = .next (setQp (qpKey fn qp) { q with
        txTail := index, txq := q.txq ++ (slots.take ((index + 2 ^ q.txLog2 - q.txTail) % 2 ^ q.txLog2)).map (fun d => (txOf d.1, d.2, nowEn s q.port)) } s))) ∧
    (∀ slots, (2 ^ q.rxLog2 ≤ index → exec (.rxTail fn qp index slots) s = .next (doorbellRange fn s)) ∧
      (index < 2 ^ q.rxLog2 → exec (.rxTail fn qp index slots) s = .next (setQp (qpKey fn qp) { q with
        rxTail := index, rxq := q.rxq ++ (slots.take ((index + 2 ^ q.rxLog2 - q.rxTail) % 2 ^ q.rxLog2)).map rxOf } s))) ∧
    ((2 ^ q.cqLog2 ≤ index → exec (.nicCqHead fn qp index) s = .next (doorbellRange fn s)) ∧
      (index < 2 ^ q.cqLog2 → exec (.nicCqHead fn qp index) s = .next (drainNic (qpKey fn qp) q.heldCpl.length (setQp (qpKey fn qp) { q with
        cqHead := index, cqUsed := q.cqUsed - (index + 2 ^ q.cqLog2 - q.cqHead) % 2 ^ q.cqLog2 } s))))) ∧
  (∀ (fn qp at_ : Nat) (q : NicQp) (d : TxDesc) (data : Option Bytes) (r : List (TxDesc × Option Bytes × Nat)), qp < 65536 →
    qpOf s (qpKey fn qp) = some q → q.txq = (d, data, at_) :: r →
    (egressPaused s = false → nicServed s fn = true → shaperAllows (nowEn s q.port) (d.len + 4) (shaperOf s (1, qpKey fn qp)) = true →
      exec (.nicTransmit fn qp) s = .next (transmitDesc (qpKey fn qp) q d data (setQp (qpKey fn qp) { q with
        txq := r, txHead := (q.txHead + 1) % 2 ^ q.txLog2 } s))) ∧
    ((egressPaused s = true ∨ nicServed s fn = false ∨ shaperAllows (nowEn s q.port) (d.len + 4) (shaperOf s (1, qpKey fn qp)) = false) →
      exec (.nicTransmit fn qp) s = .next s)) ∧
  (∀ i : Nat, ((subOf s i).up = false ∨ isolated s (blkEn (i / 4)) = true) → exec (.transmissionSlot i) s = .next s) ∧
  (∀ (i tc : Nat) (f : EgFrame) (r : List EgFrame), (subOf s i).up = true → isolated s (blkEn (i / 4)) = false → tc < 8 →
    (∀ k < 8, ∀ g l, queueAt (subOf s i) k = g :: l → fitsWindow g.len (subOf s i).speed (longestWindow (subOf s i).gates k) = true) →
    queueAt (subOf s i) tc = f :: r → eligible s i tc = true → (∀ k < 8, tc < k → eligible s i k = false) →
    exec (.transmissionSlot i) s = .next (sendFrame i f (takeFrom (egressKey i tc) (nowEn s i) f.len
      (setSub i { subOf s i with queues := (subOf s i).queues.set tc r } s)))) ∧
  (∀ (i due : Nat) (g : GateList), (subOf s i).nextGates = some (g, due) →
    (due ≤ nowEn s i → exec (.gateListTakeEffect i) s = .next (updSub i (fun x => { x with gates := g, nextGates := none }) s)) ∧
    (nowEn s i < due → exec (.gateListTakeEffect i) s = .next s)) ∧
  (∀ n : Nat, ((samplerOf s n).enable = false → exec (.samplerInterval n) s = .next s) ∧
    ((samplerOf s n).enable = true → ∃ t, exec (.samplerInterval n) s = .next t ∧ t.mem = s.mem ∧ t.pp.en = s.pp.en ∧ t.pp.qps = s.pp.qps ∧
      (1 ≤ (samplerOf s n).count → (samplerOf s n).prod < 2 ^ (samplerOf s n).log2 →
        (samplerOf t n).prod = ((samplerOf s n).prod + (samplerOf s n).count) % 2 ^ (samplerOf s n).log2) ∧
      t = (List.range (samplerOf s n).count).foldl (fun s i => sampleOne n i s) s)) ∧
  (∀ n i : Nat, ∃ bs x', bs.length = 16 ∧ sampleOne n i s = dmaOut (samplerOf s n).issuer ((samplerOf s n).ring + 16 * (samplerOf s n).prod) bs
      (s.setPp { s.pp with samplers := put s.pp.samplers n x' }) ∧
    x' = { samplerOf s n with prod := x'.prod, pass := x'.pass } ∧
    (x'.prod, x'.pass) = if (samplerOf s n).prod + 1 = 2 ^ (samplerOf s n).log2 then (0, !(samplerOf s n).pass)
      else ((samplerOf s n).prod + 1, (samplerOf s n).pass)) ∧
  (∀ (i fn qp n m k cor unc : Nat) (f : Bytes) (full partner : Bool) (tx : List (Bytes × Option Bytes)) (rx : List Bytes),
    (∃ t, exec (.ethernetFrameRx i f full cor unc) s = .next t) ∧ (∃ t, exec (.linkUp i n m k partner) s = .next t) ∧
    (∃ t, exec (.linkDown i) s = .next t) ∧ (∃ t, exec (.linkDownHoldExpiry i) s = .next t) ∧ (∃ t, exec (.serviceTimerExpiry i) s = .next t) ∧
    (∃ t, exec (.laneTrainingFailed n m) s = .next t) ∧ (∃ t, exec (.laneIdentityFound n m) s = .next t) ∧
    (∃ t, exec (.txTail fn qp n tx) s = .next t) ∧ (∃ t, exec (.rxTail fn qp n rx) s = .next t) ∧ (∃ t, exec (.nicCqHead fn qp n) s = .next t) ∧
    (∃ t, exec (.nicTransmit fn qp) s = .next t) ∧ (∃ t, exec (.transmissionSlot i) s = .next t) ∧
    (∃ t, exec (.gateListTakeEffect i) s = .next t) ∧ ∃ t, exec (.samplerInterval n) s = .next t)

/-- R533 to R535, R541, R543, R555, R558, R561 to R563, R566, R567 and R570. -/
def Obligations.TransportObjectsAndRequestsRun : Prop :=
  (∀ (via : Via) (pkt : IcpPkt) (s s0 : State) (c : Ctx) (i : Nat), Starts 0x0510 via pkt s c s0 →
    let x := askedConn c s0
    let share := (c.p 3 1).testBit 2
    let h := i * 8192 + lookD s0.grt.connReuse i 1
    firstBad (connChecks c s0) = none → hasAddress (fnD s0 x.owner) ((c.p 3 1).testBit 1) = true →
    lowest 262144 (fun i => !s0.grt.conns.any (fun e => connSlot e.1 == i)) = some i →
    (share = true → ∃ clamped data, Replied (exec (.grtConnCreate via pkt) s) c stOk (okDetail clamped) data
      (if x.roce then setConn h { x with wq := (connD s0 (c.p 4 4)).wq } s0 else sendHello h (setConn h { x with wq := (connD s0 (c.p 4 4)).wq } s0))) ∧
    (∀ page w, share = false → freePage s0 x.owner = some page → lowest (s0.grt.wqs.length + 1) (fun w => !has s0.grt.wqs w) = some w →
      ∃ clamped data q, Replied (exec (.grtConnCreate via pkt) s) c stOk (okDetail clamped) data
        (let y := setConn h { x with wq := w } (setWq w q (s0.setPages (s0.pages ++ [(x.owner, page)])))
         if x.roce then y else sendHello h y) ∧
        q.owner = x.owner ∧ q.sq = c.p 0x48 8 ∧ q.cq = c.p 0x50 8 ∧ 4 ≤ q.sqLog2 ∧ q.sqLog2 ≤ q.cqLog2 ∧ q.cqLog2 ≤ 16) ∧
    x.state = (if x.roce then 1 else 0) ∧ x.rtoMin ≤ x.rtoMax ∧ 1 ≤ x.retryLimit ∧ x.retryLimit ≤ 32) ∧
  (∀ (via : Via) (pkt : IcpPkt) (s s0 : State) (c : Ctx) (x : Conn), Starts 0x0511 via pkt s c s0 → connFor c s0 (c.p 0 4) = some x → ∃ y n,
    Replied (exec (.grtConnDestroy via pkt) s) c stOk dtNone (layout 8 [(0, 4, c.p 0 4), (4, 4, n)]) (removeConn (c.p 0 4) y) ∧
    n = (x.reqs.filter (fun r => r.done.isNone)).length +
      ((((wqOf s0 x.wq).map (·.parked)).getD []).filter (fun e => e.1.conn == c.p 0 4)).length ∧
    connOf (removeConn (c.p 0 4) y) (c.p 0 4) = none) ∧
  (∀ (via : Via) (pkt : IcpPkt) (s s0 : State) (c : Ctx) (x : Conn), Starts 0x0514 via pkt s c s0 → connFor c s0 (c.p 0 4) = some x → ∃ clamped data,
    Replied (exec (.grtConnQuery via pkt) s) c stOk (okDetail clamped) data s0 ∧ le data 0 1 = x.state % 2 ^ 8 ∧ le data 8 4 = x.cwnd % 2 ^ 32) ∧
  (∀ (via : Via) (pkt : IcpPkt) (s s0 : State) (c : Ctx) (i : Nat), Starts 0x0512 via pkt s c s0 →
    let kind := c.p 2 1
    let len := c.p 0x10 8
    let o := grtOwner c s0
    (c.p 0 2 = 0xFFFF ∨ endpointLive s0 (c.p 0 2) = true) → kind ≤ 1 → (c.p 4 4 = 0 ∨ ∃ x, connOf s0 (c.p 4 4) = some x ∧ x.owner = o) →
    c.p 8 8 + len ≤ 2 ^ 64 → 4096 ≤ len → len ≤ 2 ^ 40 → len % 4096 = 0 →
    (kind = 1 → ∃ n, nsOf s0 (c.p 0x18 4) = some n ∧ c.p 8 8 + len ≤ n.bytes ∧ n.attached = [] ∧ courseDest s0 (c.p 0x18 4) = false) →
    lowest 1048576 (fun i => !has s0.grt.mrs i) = some i →
    let r := i * 4096 + lookD s0.grt.mrReuse i 1
    Replied (exec (.mrRegister via pkt) s) c stOk dtNone (layout 32 [(0, 4, r), (8, 8, len)]) (s0.setGrt { s0.grt with
      mrs := put s0.grt.mrs i { owner := o, gen := genOf s0 o, endpoint := endpointIn c (c.p 0 2), kind := kind, access := c.p 3 1 % 16, conn := c.p 4 4, addr := c.p 8 8,
                                length := len, nsid := c.p 0x18 4, handle := r } })) ∧
  (∀ (via : Via) (pkt : IcpPkt) (s s0 : State) (c : Ctx) (m : Mr), Starts 0x0513 via pkt s c s0 → mrOf s0 (c.p 0 4) = some m →
    mayNameEnd c s0 m.owner m.endpoint = true →
    (m.revoking = false → Onward (exec (.mrRevoke via pkt) s) (addWait c .revoke (c.p 0 4) 0
      (s0.setGrt { s0.grt with mrs := put s0.grt.mrs (c.p 0 4 / 4096) { m with revoking := true } }))) ∧
    (m.revoking = true → Replied (exec (.mrRevoke via pkt) s) c stBusy dtNone [] s0)) ∧
  (∀ s : State, s.tel.frozen = false →
    (∀ (r : Nat) (m : Mr) (w : Waiter), mrOf s r = some m → m.revoking = true → s.icp.waits.find? (fun w => w.kind == .revoke && w.obj == r) = some w →
      exec (.revocationDrained r) s = .next (finishWait w stOk dtNone (layout 8 [(0, 4, r)]) (removeMr (r / 4096) s)) ∧ mrOf (removeMr (r / 4096) s) r = none) ∧
    (∀ (w index : Nat), wqOf s w = none ∨ (∃ q, wqOf s w = some q ∧ doorbellOff s q.endpoint q.owner = true) →
      (∀ slots, exec (.grtSqTail w index slots) s = .next s) ∧ exec (.grtCqHead w index) s = .next s) ∧
    (∀ (w index : Nat) (q : Wq), wqOf s w = some q → doorbellOff s q.endpoint q.owner = false →
      (2 ^ q.sqLog2 ≤ index → ∀ slots, exec (.grtSqTail w index slots) s = .next (doorbellRange q.owner s)) ∧
      (index < 2 ^ q.sqLog2 → ∀ slots, exec (.grtSqTail w index slots) s =
        .next (fetchWq w (q.unread.length + (index + 2 ^ q.sqLog2 - q.tail) % 2 ^ q.sqLog2) (setWq w { q with
          tail := index, unread := q.unread ++ (slots.take ((index + 2 ^ q.sqLog2 - q.tail) % 2 ^ q.sqLog2)).map wrSlot } s))) ∧
      (2 ^ q.cqLog2 ≤ index → exec (.grtCqHead w index) s = .next (doorbellRange q.owner s)) ∧
      (index < 2 ^ q.cqLog2 → exec (.grtCqHead w index) s = .next (drainGrt w q.heldCpl.length (setWq w { q with
        cqHead := index, cqUsed := q.cqUsed - (index + 2 ^ q.cqLog2 - q.cqHead) % 2 ^ q.cqLog2 } s)))) ∧
    (∀ (w : Nat) (q : Wq) (wr : GrtWr) (data : Option Bytes), wqOf s w = some q → q.unread = [] → fnServed s q.owner = true →
      let rows : List (Nat × Ran × Option Bytes) := [(1, exec (.grtWrite w wr data) s, data), (2, exec (.grtWriteNotify w wr data) s, data),
        (3, exec (.grtRead w wr data) s, data), (4, exec (.ctrAdd w wr) s, some []), (5, exec (.grtNop w wr) s, some [])]
      (wr.flags.testBit 2 = true → wr.trigCtr < 64 → lookD q.ctrs wr.trigCtr 0 < wr.threshold → ∀ r ∈ rows,
        (q.parked.length < 4096 → WrRan w q s r.2.1 (fun y => setWq w { q with
          tail := (q.tail + 1) % 2 ^ q.sqLog2, unread := [], parked := q.parked ++ [({ wr with opcode := r.1 }, r.2.2)] } y)) ∧
        (4096 ≤ q.parked.length → WrRan w q s r.2.1 (endReq w wr.conn { wr with opcode := r.1 } 0x0A))) ∧
      (wr.flags.testBit 2 = false →
        (connOf s wr.conn = none → ∀ r ∈ rows, WrRan w q s r.2.1 (endReq w wr.conn { wr with opcode := r.1 } 2)) ∧
        (∀ c, connOf s wr.conn = some c → c.wq ≠ w → ∀ r ∈ rows, WrRan w q s r.2.1 (endReq w wr.conn { wr with opcode := r.1 } 2)) ∧
        (∀ c, connOf s wr.conn = some c → c.wq = w → isolated s blkTransport = false → (wr.ctrInc = 0xFF ∨ wr.ctrInc ≤ 63) →
          (c.state ≠ 2 → wr.flags.testBit 1 = false →
            (wr.trigCtr ≤ 63 → WrRan w q s (exec (.ctrAdd w wr) s) (fun y => endReq w wr.conn { wr with opcode := 4 } 0 (raiseCtr w wr.trigCtr wr.ctrValue y))) ∧
            WrRan w q s (exec (.grtNop w wr) s) (endReq w wr.conn { wr with opcode := 5 } 0)) ∧
          (wr.length ≤ 67108864 → wr.flags.testBit 4 = false →
            (c.state = 2 → data ≠ none → wr.trigCtr ≤ 63 → ∀ r ∈ rows, WrRan w q s r.2.1 (endReq w wr.conn { wr with opcode := r.1 } 7)) ∧
            (c.state = 2 → WrRan w q s (exec (.grtRead w wr data) s) (endReq w wr.conn { wr with opcode := 3 } 7)) ∧
            (c.state ≠ 2 → WrRan w q s (exec (.grtRead w wr data) s) (fun y => pumpConn wr.conn (setConn wr.conn { c with
                reqs := c.reqs ++ [{ wr := { wr with opcode := 3 }, data := [] }] } y)) ∧
              (∀ e, data = some e →
                WrRan w q s (exec (.grtWrite w wr data) s) (fun y => pumpConn wr.conn (setConn wr.conn { c with
                  reqs := c.reqs ++ [{ wr := { wr with opcode := 1 }, data := (e ++ List.replicate wr.length 0).take wr.length }] } y)) ∧
                WrRan w q s (exec (.grtWriteNotify w wr data) s) (fun y => pumpConn wr.conn (setConn wr.conn { c with
                  reqs := c.reqs ++ [{ wr := { wr with opcode := 2 }, data := (e ++ List.replicate wr.length 0).take wr.length }] } y)))))))) ∧
    (∀ (w k n : Nat) (q : Wq), wqOf s w = some q → k < 64 → ∃ q', wqOf (raiseCtr w k n s) w = some q' ∧
      lookD q'.ctrs k 0 = min (2 ^ 64 - 1) (lookD q.ctrs k 0 + n)) ∧
    (∀ (w : Nat) (q : Wq) (e : GrtWr × Option Bytes), wqOf s w = some q →
      let due := fun (e : GrtWr × Option Bytes) => decide (e.1.threshold ≤ lookD q.ctrs e.1.trigCtr 0)
      (q.parked.find? due = some e → exec (.triggerFire w) s = .next (startWr w e.1 e.2 (setWq w { q with parked := dropFirst due q.parked } s))) ∧
      (q.parked.find? due = none → exec (.triggerFire w) s = .next s)) ∧
    (∀ fn, doorbellRange fn s = (s.setIcp { s.icp with dbInvalid := s.icp.dbInvalid + 1 }).setRings (doorbellRange fn s).rings ∧
      ringOf (doorbellRange fn s) fn = { ringOf s fn with dbErr := true } ∧ ∀ k, k ≠ fn → ringOf (doorbellRange fn s) k = ringOf s k)) ∧
  (∀ (via : Via) (pkt : IcpPkt) (w n r : Nat) (wr : GrtWr) (data : Option Bytes) (slots : List WrSlot) (s : State),
    (∃ t, exec (.grtConnCreate via pkt) s = .next t) ∧ (∃ t, exec (.grtConnDestroy via pkt) s = .next t) ∧
    (∃ t, exec (.grtConnQuery via pkt) s = .next t) ∧ (∃ t, exec (.mrRegister via pkt) s = .next t) ∧ (∃ t, exec (.mrRevoke via pkt) s = .next t) ∧
    (∃ t, exec (.revocationDrained r) s = .next t) ∧ (∃ t, exec (.grtSqTail w n slots) s = .next t) ∧ (∃ t, exec (.grtCqHead w n) s = .next t) ∧
    (∃ t, exec (.grtWrite w wr data) s = .next t) ∧ (∃ t, exec (.grtWriteNotify w wr data) s = .next t) ∧
    (∃ t, exec (.grtRead w wr data) s = .next t) ∧ (∃ t, exec (.ctrAdd w wr) s = .next t) ∧ (∃ t, exec (.grtNop w wr) s = .next t) ∧
    ∃ t, exec (.triggerFire w) s = .next t)

/-- R536, R545, R546, R549, R552, R553, R556 to R559, R564 and R569. -/
def Obligations.TransportPacketsAndTimersAct : Prop :=
  ∀ s : State, s.tel.frozen = false →
  (∀ (a : GrtArrival) (c : Conn) (tagOk refused : Bool) (data : Option Bytes),
    let p := arrived a
    isolated s blkTransport = false →
    ((connOf s p.dst = none ∨ (connOf s p.dst = some c ∧ c.state ≠ 1)) →
      exec (.grtRxWrite a tagOk refused) s = .next (nakNoConn p s) ∧ exec (.grtRxReadReq a data) s = .next (nakNoConn p s) ∧
      exec (.grtRxReadResp a tagOk) s = .next (nakNoConn p s)) ∧
    (connOf s p.dst = some c → c.state = 1 → (c.roce = true ∨ p.ver = c.version) → rxStopped s c false = true →
      let d := if c.rnr = 0 then 100 else min 10000 (2 * c.rnr)
      exec (.grtRxWrite a tagOk refused) s = .next (sendNak p.dst p.psn (be p.ext 0 4) 3 d (bumpTr 0x118 (setConn p.dst { c with rnr := d } s)))) ∧
    (connOf s p.dst = some c → c.state = 1 → (c.roce = true ∨ p.ver = c.version) → rxStopped s c false = false →
      (psnOld c p.psn = true → exec (.grtRxWrite a tagOk refused) s = .next (sendAck p.dst (bumpTr 0x110 s))) ∧
      (c.roce = false → psnOld c p.psn = false → psnBeyond c p.psn = true → exec (.grtRxWrite a tagOk refused) s = .next s))) ∧
  (∀ (a : GrtArrival) (c : Conn) (tagOk : Bool),
    let p := arrived a
    Accepts s p c → writeValid c p = true →
    let msn := be p.ext 0 4
    let at_ := be p.ext 16 8 + be p.ext 4 4
    let i := be p.ext 4 4 / pmtuBytes c.pmtu
    seqAfter msn c.cmsn = true → (∀ e, c.entries.find? (fun e => e.msn == msn) = some e → e.got.contains i = false) → trackFull s c msn i = false →
    (∀ m, admitMr s p.dst (be p.ext 8 4) (writeNeeds p) at_ p.payload.length = some m → (fSealed p = false ∨ transportKey s c.owner = true) → m.kind = 0 →
      exec (.grtRxWrite a tagOk false) s = .next (trackWrite p tagOk false
        (dmaOut (if m.endpoint = 0xFFFF then m.owner else m.endpoint) (m.addr + at_) p.payload s))) ∧
    (admitMr s p.dst (be p.ext 8 4) (writeNeeds p) at_ p.payload.length = none → ∀ refused,
      exec (.grtRxWrite a tagOk refused) s = .next (rxFail p 2 false s))) ∧
  (∀ (a : GrtArrival) (c : Conn) (m : Mr) (bs : Bytes),
    let p := arrived a
    Accepts s p c → p.type = 3 → be p.ext 4 4 ≤ 67108864 → seqAfter (be p.ext 0 4) c.cmsn = true →
    trackFull s c (be p.ext 0 4) 0 = false → admitMr s p.dst (be p.ext 8 4) 2 (be p.ext 16 8) (be p.ext 4 4) = some m → m.kind = 0 → ∃ x,
    exec (.grtRxReadReq a (some bs)) s = .next (pumpConn p.dst x) ∧ (connD x p.dst).resps = c.resps ++
      [{ msn := be p.ext 0 4, data := (bs ++ List.replicate (be p.ext 4 4) 0).take (be p.ext 4 4), sealed_ := fSealed p }]) ∧
  (∀ (a : GrtArrival) (c : Conn),
    let p := arrived a
    Accepts s p c →
    let msn := be p.ext 0 4
    let off := be p.ext 4 4
    let i := off / pmtuBytes c.pmtu
    let y := setConn p.dst (markPsn p.psn { c with rnr := 0 }) (useGrtKey c.owner c.peerConn p.dst p s)
    (c.reqs.find? (fun r => r.wr.opcode == 3 && r.msn == some msn && r.done.isNone) = none → ∀ ok,
      exec (.grtRxReadResp a ok) s = .next (noteArrival p.dst p true y)) ∧
    (∀ r, c.reqs.find? (fun r => r.wr.opcode == 3 && r.msn == some msn && r.done.isNone) = some r → i ∉ r.got → off + p.payload.length ≤ r.wr.length →
      fLast p = false → r.last = none →
      exec (.grtRxReadResp a true) s = .next (pumpConn p.dst (noteArrival p.dst p true (updConn p.dst (fun c => { c with
        reqs := c.reqs.map (fun x => if x.msn == some msn then { r with got := r.got ++ [i] } else x) })
        (dmaOut (if c.endpoint = 0xFFFF then c.owner else c.endpoint) (r.wr.localAddr + off) p.payload y)))))) ∧
  (∀ (a : GrtArrival) (c : Conn),
    let p := arrived a
    connOf s p.dst = some c →
    ((c.state ≠ 1 ∨ p.ext.length < 16) → exec (.grtRxAck a) s = .next s) ∧
    (c.state = 1 → 16 ≤ p.ext.length → ∃ x, exec (.grtRxAck a) s = .next (pumpConn p.dst x) ∧
      ∀ f ∈ (connD x p.dst).flight, seqAfter f.pkt.psn (be p.ext 0 4) = true ∧ (ackShows p.ext f.pkt.psn = true → f.sacked = true)) ∧
    (let psn := be p.ext 0 4
     let msn := be p.ext 4 4
     let code := be p.ext 8 1
     (c.state = 2 → exec (.grtRxNak a) s = .next s) ∧
     (c.state ≠ 2 →
      (code = 1 → exec (.grtRxNak a) s = .next (errorConn p.dst none 7 s)) ∧
      (code = 6 → exec (.grtRxNak a) s = .next (errorConn p.dst (some msn) 5 s)) ∧
      ((code = 3 ∨ code = 4) → exec (.grtRxNak a) s = .next (setConn p.dst { c with
        flight := c.flight.map (fun x => if x.pkt.psn == psn then { x with wait := some (be p.ext 12 4), lost := false } else x) } s)) ∧
      (code ∉ [1, 3, 4, 6, 8] → (∃ x ∈ c.flight, x.pkt.psn = psn ∧ x.pkt.type = 4) → exec (.grtRxNak a) s =
        .next (setConn p.dst { c with resps := c.resps.filter (fun r => r.msn != msn) } s)) ∧
      (code ∉ [1, 3, 4, 6, 8] → (∀ x ∈ c.flight, x.pkt.psn = psn → x.pkt.type ≠ 4) → exec (.grtRxNak a) s =
        .next (pumpConn p.dst (markDone p.dst (fun r => r.msn == some msn) (if code = 2 then 4 else if code = 7 then 9 else 5) s))))) ∧
    (let v := min c.versionMax (be p.ext 1 1)
     let pm := min (min c.pmtu (be p.ext 2 1)) (if v = 1 then 2 else 3)
     c.roce = false → (c.state = 1 → exec (.grtRxHello a) s = .next (sendHello p.dst s)) ∧
      (c.state = 0 → (v < be p.ext 0 1 ∨ v < 1) → exec (.grtRxHello a) s = .next (errorConn p.dst none 7 (sendNak p.dst 0 0 6 0 s))) ∧
      (c.state = 0 → be p.ext 0 1 ≤ v → 1 ≤ v → exec (.grtRxHello a) s = .next (pumpConn p.dst (setConn p.dst { c with
        state := 1, version := v, pmtu := pm, cum := seqAdd (be p.ext 8 4) (2 ^ 32 - 1), cwnd := 16 * pmtuBytes pm } s)))) ∧
    exec (.grtRxClose a) s = .next s) ∧
  (∀ a : GrtArrival,
    let p := arrived a
    connOf s p.dst = none → exec (.grtRxClose a) s = .next (nakNoConn p s) ∧ exec (.grtRxHello a) s = .next (nakNoConn p s)) ∧
  (∀ (h : Nat) (c : Conn), connOf s h = some c →
    (c.state = 0 → exec (.helloRetry h) s = .next (sendHello h s) ∧ exec (.connectingTimeout h) s = .next (errorConn h none 7 s)) ∧
    (c.state ≠ 0 → exec (.helloRetry h) s = .next s ∧ exec (.connectingTimeout h) s = .next s) ∧
    (c.state = 1 → c.ackDue = true → exec (.ackDelayExpiry h) s = .next (sendAck h s)) ∧
    ((c.state ≠ 1 ∨ c.ackDue = false) → exec (.ackDelayExpiry h) s = .next s) ∧
    (∀ psn, exec (.retryAfterExpiry h psn) s = .next (pumpConn h (setConn h { c with flight := c.flight.map (fun x =>
      if x.pkt.psn == psn && x.wait.isSome then { x with wait := none, lost := true, refused := true } else x) } s))) ∧
    (∀ path, exec (.pathExclusionExpiry h path) s = .next (pumpConn h (setConn h { c with excluded := c.excluded.filter (fun e => e.1 != path) } s))) ∧
    (∀ (psn : Nat) (x : TxPkt), connSlot h < 262144 → c.flight.find? (fun x => x.pkt.psn == psn && !x.sacked && x.wait.isNone) = some x →
      let y := setCwnd h (pmtuBytes c.pmtu) (bumpTr 0x10C s)
      (c.retryLimit ≤ x.tries → c.bind = false → exec (.retransmitTimeout h psn) s = .next (errorConn h (some x.msn) 6 y)) ∧
      (x.tries < c.retryLimit → exec (.retransmitTimeout h psn) s = .next (pumpConn h (updConn h (fun c => { c with flight := c.flight.map (fun (y : TxPkt) =>
        if y.pkt.psn = psn ∨ (c.roce = true ∧ seqAfter y.pkt.psn psn = true) then { y with lost := true } else y) }) (excludePath h x.pkt.path y))))) ∧
    (∀ msn ok, (∀ e ∈ c.entries, e.msn = msn → e.waiting = 0) → exec (.persistDurable h msn ok) s = .next s) ∧
    (∀ msn, (∃ e ∈ c.entries, e.msn = msn ∧ 0 < e.waiting) →
      let y := releaseAll h (setConn h { c with entries := c.entries.map (fun e => if e.msn == msn then { e with waiting := e.waiting - 1, failed := e.failed } else e) } s)
      exec (.persistDurable h msn true) s = .next (if (connD y h).cmsn = c.cmsn then y else updConn h (fun c => { c with ackDue := true }) y)) ∧
    (c.roce = true → c.state = 1 → c.lastDec + c.srtt ≤ nowTr s → exec (.rocev2Cnp h) s =
      .next (setCwnd h (max (c.cwnd / 2) (pmtuBytes c.pmtu)) (setConn h { c with lastDec := nowTr s } s))) ∧
    ((c.roce = false ∨ c.state ≠ 1 ∨ nowTr s < c.lastDec + c.srtt) → exec (.rocev2Cnp h) s = .next s) ∧
    (c.state ≠ 2 → (∀ e ∈ s.sto.ns, ∀ l ∈ e.2.legs, legBehind h l = false) →
      (connD (errorConn h none 7 s) h).state = 2 ∧ (connD (errorConn h none 7 s) h).flight = []) ∧
    (∀ (n : Nat) (x : Ns) (l : Leg), s.sto.ns = [(n, x)] → x.legs = [l] → sanActive x = false → l.state ≠ 2 → l.kind = 2 → l.conn = h → ∃ y l',
      failRemote h s = stoSettle y ∧ (nsD y n).legs = [l'] ∧ l'.state = 2 ∧ l'.cells = l.cells))

/-- R408 to R414, R418, R419, R426 to R435. The layout of the record is the model's own. -/
def Obligations.FunctionCommandsAnswerAndAct : Prop :=
  (∀ (via : Via) (pkt : IcpPkt) (s s0 : State) (c : Ctx), Starts 0x0900 via pkt s c s0 →
    let fid := c.p 0 2
    let f := fnD s0 fid
    let a := clampAllot s0 fid (askedAllot c)
    (fnOf s0 fid).isSome = true → c.p 0x1E 2 ≤ 4094 → (c.p 0x20 1).testBit 0 = false → f.st ≠ .frozen →
    (f.slot.isSome = true ∨ a.quota = 0 ∨ ∃ k, k < 1024 ∧ ∀ e ∈ s0.fns, e.2.slot ≠ some k) → ∃ clamped data g,
    Replied (exec (.fnCreate via pkt) s) c stOk (okDetail clamped) data (setFn fid g s0) ∧
    g = { f with allot := a, spoof := c.p 2 2 % 16, vlan := c.p 0x1E 2, mac := be c.params 0x20 6, ipv4 := c.p 0x28 4,
                 ipv6 := be c.params 0x30 16, ipv6Len := min 128 (c.p 0x26 1), slot := g.slot } ∧
    ((f.slot.isSome = true ∨ a.quota = 0) → g.slot = f.slot) ∧
    (f.slot = none → a.quota ≠ 0 → ∃ k, g.slot = some k ∧ k < 1024 ∧ ∀ e ∈ s0.fns, e.2.slot ≠ some k) ∧
    (poolUse s0 fid).conns ≤ a.conns ∧ (poolUse s0 fid).limiters ≤ a.limiters ∧ (f.pf = 0 → (poolUse s0 fid).cqps ≤ a.cqps)) ∧
  (∀ (via : Via) (pkt : IcpPkt) (s s0 : State) (c : Ctx), Starts 0x0902 via pkt s c s0 →
    let fid := c.p 0 2
    let t := failFunction true 2 fid s0
    (fnOf s0 fid).isSome = true →
    (via ≠ .ring fid → Replied (exec (.fnReset via pkt) s) c stOk dtNone
      (layout 8 [(0, 2, fid), (2, 2, (fnD t fid).gen), (4, 4, abortCount s0 fid)]) t) ∧
    (via = .ring fid → Onward (exec (.fnReset via pkt) s) (t.setIcp { t.icp with replyDrops := t.icp.replyDrops + 1 }))) ∧
  (∀ (via : Via) (pkt : IcpPkt) (s s0 : State) (c : Ctx), Starts 0x0901 via pkt s c s0 →
    let fid := c.p 0 2
    let t := settle (updFn fid (fun f => { f with allot := {}, slot := none }) (freeOwned fid (failFunction true 2 fid s0)))
    (fnOf s0 fid).isSome = true → fid ≠ 0 → fid ≠ 3 → (courseLive s0 = false ∨ (crun s0).tables.any (fun ti => (tblD s0 ti).owner == fid) = false) →
    ((∃ e ∈ attachedTo s0 fid, sanActive e.2 = true) → Replied (exec (.fnDestroy via pkt) s) c stBusy dtSanActive [] s0) ∧
    ((∀ e ∈ attachedTo s0 fid, sanActive e.2 = false) → (via ≠ .ring fid → Replied (exec (.fnDestroy via pkt) s) c stOk dtNone
      (layout 8 [(0, 2, fid), (4, 4, (s0.tab.tbls.filter (fun e => e.2.owner == fid)).length)]) t) ∧
     (via = .ring fid → Onward (exec (.fnDestroy via pkt) s) (t.setIcp { t.icp with replyDrops := t.icp.replyDrops + 1 })))) ∧
  (∀ (via : Via) (pkt : IcpPkt) (s s0 : State) (c : Ctx),
    let fid := c.p 0 2
    (fnKnown s0 fid).isSome = true →
    (Starts 0x0903 via (withByte 2 (putBit 0 false) pkt) s c s0 → (c.p 2 2).testBit 0 = false → (c.iss.priv = true ∨ fid = c.iss.fid) →
      Replied (exec (.getFunctionState via pkt) s) c stOk dtNone (functionState s0 fid) s0) ∧
    (Starts 0x0903 via (withByte 2 (putBit 0 true) pkt) s c s0 → (c.p 2 2).testBit 0 = true → fid = c.iss.fid →
      c.pkt.generation = (fnD s0 fid).gen → ∃ y, Replied (exec (.adoptQueues via pkt) s) c stOk dtNone (functionState y fid) y ∧
      y = s0.setTab { s0.tab with cqps := y.tab.cqps } ∧
      ∀ q, cqpD y q = if (heldQueues s0 fid).any (fun e => e.1 == q) then { cqpD s0 q with gen := (fnD s0 fid).gen, adopted := true } else cqpD s0 q)) ∧
  (∀ (via : Via) (pkt : IcpPkt) (s s0 : State) (c : Ctx), vfHere s0 (c.p 0 2) = true →
    let fid := c.p 0 2
    let x := updFn fid (fun f => { f with st := .frozen, migBuf := [] }) s0
    let fresh := (fnD s0 fid).migBuf.isEmpty
    let off := c.p 0x10 8
    (Starts 0x0904 via pkt s c s0 →
      (quiet x fid = true → Replied (exec (.migFreeze via pkt) s) c stOk dtNone (layout 16 [(0, 4, Config.freeNat s0.draw)]) (drawn x)) ∧
      (quiet x fid = false → Onward (exec (.migFreeze via pkt) s) (addWait c .destroy fid 0 x))) ∧
    (Starts 0x0907 via pkt s c s0 → isFrozen s0 fid = true → Replied (exec (.migResume via pkt) s) c stOk dtNone
      (layout 8 [(0, 2, fid), (2, 2, (fnD s0 fid).gen)]) (settle (resumeFunction fid (updFn fid (fun f => { f with st := .active, migBuf := [] }) s0)))) ∧
    (∀ k, Starts 0x0905 via pkt s c s0 → isFrozen s0 fid = true → migKey s0 = some k →
      let record := if fresh then sealRecord k s0 fid else (fnD s0 fid).migBuf
      let piece := (record.drop off).take (c.p 4 4)
      off ≤ record.length → Replied (exec (.migSave via pkt) s) c stOk dtNone (layout 32 [(0, 4, piece.length), (8, 8, record.length), (0x10, 4, 1)])
        (dmaOut c.iss.owner (c.p 8 8) piece (if fresh then useWorkingKey ((migBase s0).getD 0) migLabel (drawn (updFn fid (fun f => { f with migBuf := record }) s0)) else s0))) ∧
    (∀ k d, Starts 0x0906 via pkt s c s0 → migKey s0 = some k → restoreTarget s0 fid = true → pkt.dma = some d →
      (c.p 2 2 = 0xFFFF ∨ (vfHere s0 (c.p 2 2) = true ∧ c.p 2 2 ≠ fid ∧ isFrozen s0 (c.p 2 2) = true)) →
      (off = 0 ∨ off = (fnD s0 fid).migBuf.length) →
      let record := (if off = 0 then [] else (fnD s0 fid).migBuf) ++ d.take (c.p 4 4)
      let opened := Config.unsealBytes k ((record.drop 8).take 12) (record.drop 20)
      let s1 := useWorkingKey ((migBase s0).getD 0) migLabel s0
      ((record.length < 20 ∨ record.length < le record 0 8) → ∃ data,
        Replied (exec (.migRestore via pkt) s) c stOk dtNone data (updFn fid (fun f => { f with migBuf := record }) s0)) ∧
      (20 ≤ record.length → le record 0 8 ≤ record.length →
        (opened = none → Replied (exec (.migRestore via pkt) s) c stIntegrity dtNone []
          (bump blkCipher 0x120 (updFn fid (fun f => { f with migBuf := [] }) s1))) ∧
        (∀ plain, opened = some plain → ∃ data,
          let spoilt := updFn fid (fun f => { f with migBuf := [] }) s1
          (migImage plain = none → Replied (exec (.migRestore via pkt) s) c stIntegrity dtNone [] spoilt) ∧
          ∀ m, migImage plain = some m →
            (c.p 2 2 ≠ 0xFFFF → Replied (exec (.migRestore via pkt) s) c stOk dtNone data (restoreHere (c.p 2 2) fid m s1)) ∧
            (c.p 2 2 = 0xFFFF → numbersFree s1 m = true → Replied (exec (.migRestore via pkt) s) c stOk dtNone data (restoreForeign fid m s1)) ∧
            (c.p 2 2 = 0xFFFF → numbersFree s1 m = false → Replied (exec (.migRestore via pkt) s) c stNoResource dtNone [] spoilt)))) ∧
    (Starts 0x0908 via pkt s c s0 → off % 4096 = 0 → c.p 0x18 8 ≠ 0 → atomicReq s0 (fnD s0 c.iss.owner).hp = true →
      Replied (exec (.dirtyLogStart via pkt) s) c stOk dtNone (layout 16 [(0, 8, ceilDiv (c.p 0x18 8) 4096)])
        (updFn fid (fun f => { f with dirty := some { issuer := c.iss.owner, bitmap := c.p 8 8, base := off, length := c.p 0x18 8 } }) s0)) ∧
    (∀ d, Starts 0x0909 via pkt s c s0 → (fnD s0 fid).dirty = some d →
      Replied (exec (.dirtyLogStop via pkt) s) c stOk dtNone (layout 16 [(0, 8, d.pages.length), (8, 4, d.outside)])
        (updFn fid (fun f => { f with dirty := none }) s0)))

/-- R40, R41, R387, R391, R404, R406, R415, R423 and R424. -/
def Obligations.GenerationsEndWhole : Prop :=
  (∀ g, 1 ≤ nextGen g ∧ nextGen g ≤ 65535) ∧
  (∀ (reset : Bool) (cause fid : Nat) (s : State), (look s.fns fid).isSome = true →
    let t := failFunction reset cause fid s
    (fnD t fid).gen = nextGen (fnD s fid).gen ∧ (fnD t fid).prevGen = (fnD s fid).gen ∧ (fnD t fid).cause = cause ∧ (fnD t fid).leaseOn = false ∧
    has t.icp.sessions (.ring fid) = false ∧ (∀ e ∈ t.grt.conns, e.2.owner ≠ fid) ∧ (∀ e ∈ t.grt.mrs, e.2.owner ≠ fid) ∧
    ∀ k, k ≠ fid → (fnD t k).gen = (fnD s k).gen) ∧
  (∀ (fn : Nat) (s : State),
    let later : Ran := .next (if s.boot.inReset then s else emit (.configRetry fn) s)
    (fnOf s fn = none → exec (.flr fn) s = .next s) ∧
    ((running s = false ∧ footing s = false ∨ (fnD s fn).crs = true) →
      ((fnOf s fn).isSome = true → exec (.flr fn) s = later) ∧
      (isPf fn = true → (∀ n, exec (.numvfsWrite fn n) s = later) ∧ ∀ on, exec (.vfEnable fn on) s = later)) ∧
    ((fnOf s fn).isSome = true → running s = true → (fnD s fn).crs = false → ∃ t, exec (.flr fn) s = .next t ∧ (fnD t fn).gen = nextGen (fnD s fn).gen ∧
      (fnD t fn).cause = 1 ∧ (fnD t fn).crs = true ∧ (fnD t fn).dstate = .d0 ∧ (fnD t fn).numVfs = 0) ∧
    ((fnD s fn).crs = false → exec (.flrComplete fn) s = .next s) ∧
    ((fnD s fn).crs = true → running s = true → ∃ t, exec (.flrComplete fn) s = .next t ∧ (fnD t fn).crs = false ∧
      (ringOf t fn).ready = true ∧ t.grt = s.grt ∧ t.mem = s.mem) ∧
    ((fnD s fn).leaseOn = false → exec (.leaseExpiry fn) s = .next s) ∧
    ((fnD s fn).leaseOn = true → exec (.leaseExpiry fn) s = .next (failFunction false 3 fn s)) ∧
    (∃ t, exec (.reclaimComplete fn) s = .next t ∧ (fnD t fn).reclaim = {} ∧ t = s.setFns t.fns) ∧
    ((fnD s fn).crs = true → isPf fn = true → ∀ pme n, exec (.dStateChange fn n pme) s = later) ∧
    ((fnD s fn).crs = false → isPf fn = true → ∀ pme n, dstateOf n ≠ (fnD s fn).dstate →
      (dstateOf n = .d3cold → (look s.fns fn).isSome = true → ∃ t, exec (.dStateChange fn n pme) s = .next t ∧
        (fnD t fn).gen = nextGen (fnD s fn).gen ∧ (fnD t fn).cause = 5 ∧ (fnD t fn).dstate = .d3cold) ∧
      (dstateOf n ≠ .d3cold → (look s.fns fn).isSome = true → ∃ t, exec (.dStateChange fn n pme) s = .next t ∧
        (fnD t fn).gen = (fnD s fn).gen ∧ (fnD t fn).dstate = dstateOf n ∧ (fnD t fn).pmeEn = pme))) ∧
  (∀ (hp pf : Nat) (s : State), (hostPortBlock s hp).isSome = true → hp ≤ 1 → pf < 3 → (look s.fns (pfId hp pf)).isSome = true →
    ∃ t, exec (.perstN hp true) s = .next t ∧ (fnD t (pfId hp pf)).gen = nextGen (fnD s (pfId hp pf)).gen ∧ (fnD t (pfId hp pf)).cause = 5 ∧
      (fnD t (pfId hp pf)).vfEnable = false ∧ (fnD t (pfId hp pf)).dstate ≠ .d1 ∧ (fnD t (pfId hp pf)).dstate ≠ .d3hot) ∧
  (∀ (hp : Nat) (s : State), (hostPortBlock s hp).isSome = true → hp ≤ 1 → exec (.perstN hp false) s = .next (hostRelease hp s)) ∧
  (∀ (fn : Nat) (s : State),
    let f := fnD s fn
    let others := ((s.fns.filter (fun e => isPf e.1 && e.1 != fn)).map (fun e => e.2.numVfs)).sum
    (f.vfEnable = true → running s = true → f.crs = false → ∀ n, exec (.numvfsWrite fn n) s = .next s) ∧
    (isPf fn = true → running s = true → f.crs = false → f.vfEnable = false → (look s.fns fn).isSome = true →
      ∀ n, exec (.numvfsWrite fn n) s = .next (setFn fn { f with numVfs := min n (1024 - others) } s)) ∧
    (∀ on, (isPf fn = false ∨ (running s = true ∧ f.crs = false ∧ f.vfEnable = on)) → exec (.vfEnable fn on) s = .next s) ∧
    (isPf fn = true → running s = true → f.crs = false → f.vfEnable = true → (look s.fns fn).isSome = true → ∃ t, exec (.vfEnable fn false) s = .next t ∧
      (fnD t fn).vfEnable = false ∧ (fnD t fn).gen = f.gen ∧ ∀ v ∈ vfsOf s fn, v ≠ fn → (fnD t v).on = false) ∧
    (isPf fn = true → running s = true → f.crs = false → f.vfEnable = false → (look s.fns fn).isSome = true → exec (.vfEnable fn true) s =
      .next ((List.range f.numVfs).foldl (enableVf fn) (setFn fn { f with vfEnable := true } s))) ∧
    (isPf fn = true → ∀ kind, kind ≤ 2 →
      let x := s.setPwr { s.pwr with standby := false }
      (f.pmeEn = false → exec (.wakeEvent fn kind) s = .next x) ∧
      (f.pmeEn = true → (f.dstate = .d1 ∨ f.dstate = .d3hot) → exec (.wakeEvent fn kind) s = .next (emit (.pme fn) x)) ∧
      (f.pmeEn = true → f.dstate = .d3cold → exec (.wakeEvent fn kind) s = .next (emit (.pin .wakeN true) (updFn fn (fun f => { f with wake := true }) x)))))

/-- R12, R29, R377, R381, R382, R387, R396, R397, R399 to R401, R646, R652 and R728. -/
def Obligations.HostAccessesReachTheirMemory : Prop :=
  (∀ (n k width speed pol : Nat) (flit rev : Bool) (s : State),
    let b := pbOf s n
    let full := (bifurLanes b.bifur).getD k 0
    n ≤ 19 → k < (bifurLanes b.bifur).length → k < b.links.length →
    (b.role ≠ 0 → width ∈ [1, 2, 4, 8, 16] → width ≤ full → lookD s.tel.minWidth n 1 ≤ width → ∃ t, exec (.linkTraining n k width speed flit rev pol) s = .next t ∧
      (linkOf t (4 * n + k)).width = width ∧ (linkOf t (4 * n + k)).speed = max 1 (min b.maxSpeed speed) ∧
      (linkOf t (4 * n + k)).downtrained = decide (width < full) ∧ (linkOf t (4 * n + k)).gen = (linkOf s (4 * n + k)).gen) ∧
    ((width ∉ [1, 2, 4, 8, 16] ∨ full < width ∨ width < lookD s.tel.minWidth n 1 ∨ b.role = 0) → ∃ t, exec (.linkTraining n k width speed flit rev pol) s = .next t ∧
      (linkOf t (4 * n + k)).width = 0) ∧
    (b.role = 2 → ∃ t, exec (.acceleratorLinkReset n k) s = .next t ∧ exec (.secondaryBusReset n k) s = .next t ∧
      (linkOf t (4 * n + k)).gen = nextGen (linkOf s (4 * n + k)).gen ∧ (linkOf t (4 * n + k)).width = 0 ∧
      has t.icp.sessions (.accel (4 * n + k)) = false) ∧
    (b.role ≠ 2 → exec (.acceleratorLinkReset n k) s = .next s ∧ exec (.secondaryBusReset n k) s = .next s)) ∧
  (∀ (hp off len : Nat) (s : State), running s = false → footing s = false → (fnD s (pfId hp 0)).dstate = .d0 → hp ≤ 1 →
    let denied : Ran := .next (if s.boot.inReset then s else emit (.unsupported hp) s)
    (∀ n v, exec (.aptWrite hp n v) s = .next s) ∧
    (∀ bs faults, exec (.apertureAccess hp off len none faults) s = denied ∧ exec (.apertureAccess hp off len (some bs) faults) s = .next s) ∧
    (∀ bs, exec (.queueRegionAccess hp off len none) s = denied ∧ exec (.queueRegionAccess hp off len (some bs)) s = .next s) ∧
    (off < 0x4000000 → ∀ v w, exec (.windowAccess hp off w none) s = denied ∧ exec (.windowAccess hp off w (some v)) s = .next s)) ∧
  (∀ (hp n : Nat) (v : BitVec 64) (s : State), running s = true → hp ≤ 1 → n ≤ 4095 → (fnD s (pfId hp 0)).dstate = .d0 → ∃ t, exec (.aptWrite hp n v) s = .next t ∧ t.mem = s.mem ∧
    ((aptOf t hp n).testBit 63 = (v.getLsbD 63 && custodyRange s (aptBase v.toNat) 0x1000000)) ∧
    ((aptOf t hp n).testBit 62 = v.getLsbD 62) ∧ aptBase (aptOf t hp n) = aptBase v.toNat ∧ (∀ m, m ≠ n → aptOf t hp m = aptOf s hp m) ∧
    (custodyRange s (aptBase v.toNat) 0x1000000 = false → cell t blkGlobal 0x170 = 0x8000 + 8 * n)) ∧
  (∀ (hp off len : Nat) (s : State), (fnD s (pfId hp 0)).dstate ≠ .d0 → ∀ w faults, exec (.apertureAccess hp off len w faults) s = .next s) ∧
  (∀ (hp off len : Nat) (s : State), running s = true → s.tel.frozen = false → (fnD s (pfId hp 0)).dstate = .d0 →
    let e := aptOf s hp (off / 0x1000000)
    let dpa := aptBase e + off % 0x1000000
    let n := min len (0x1000000 - off % 0x1000000)
    let port := ∃ b, hostPortBlock s hp = some b ∧ isolated s (blkPb b) = true
    let away := fun (d m : Nat) => port ∨ ∃ a ∈ linesOf d m, isolated s (lineBlock s a) = true
    (∀ bs faults, (port ∨ (e.testBit 63 = true ∧ away dpa n)) →
      exec (.apertureAccess hp off len none faults) s = .next (emit (.completerAbort hp) s) ∧
      exec (.apertureAccess hp off len (some bs) faults) s = .next s) ∧
    (∀ bs, (port ∨ ∃ d, regionByte s hp off = some d ∧ away d (min len (4096 - off % 4096))) →
      exec (.queueRegionAccess hp (0x10000000 + off) len none) s = .next (emit (.completerAbort hp) s) ∧
      exec (.queueRegionAccess hp (0x10000000 + off) len (some bs)) s = .next s)) ∧
  (∀ (hp bar2 len : Nat) (bs : Bytes) (s : State), running s = true → s.tel.frozen = false → bar2 < 0x10000000 →
    exec (.queueRegionAccess hp bar2 len none) s = .next (emit (.readData (List.replicate len 0) false) s) ∧
    exec (.queueRegionAccess hp bar2 len (some bs)) s = .next s) ∧
  (∀ (hp off len : Nat) (s : State), running s = true → s.tel.frozen = false → (fnD s (pfId hp 0)).dstate = .d0 →
    (∀ b, hostPortBlock s hp = some b → isolated s (blkPb b) = false) → (∀ d : Nat, isolated s (lineBlock s d) = false) →
    let e := aptOf s hp (off / 0x1000000)
    let dpa := aptBase e + off % 0x1000000
    let n := min len (0x1000000 - off % 0x1000000)
    let waits := fun (a : HeldAcc) => s.setMem { s.mem with heldAcc := s.mem.heldAcc ++ [a] }
    (e.testBit 63 = true → rangeHeld s dpa n = false → ∀ faults, exec (.apertureAccess hp off len none faults) s = .next (emit
      (.readData (readMem dpa n (lineFaults faults s)) (rangePoisoned (lineFaults faults s) dpa n)) (lineFaults faults s))) ∧
    (e.testBit 63 = true → rangeHeld s dpa n = true → ∀ faults, exec (.apertureAccess hp off len none faults) s =
      .next (waits { dpa := dpa, len := n, faults := faults })) ∧
    (e.testBit 63 = false → ∀ faults, exec (.apertureAccess hp off len none faults) s =
      .next (emit (.readData (List.replicate len 0) false) (countUnmapped off s))) ∧
    (∀ bs faults, ¬ (e.testBit 63 = true ∧ e.testBit 62 = true ∧ courseLive s = false) →
      exec (.apertureAccess hp off len (some bs) faults) s = .next (countUnmapped off s)) ∧
    (∀ bs, e.testBit 63 = true → e.testBit 62 = true → courseLive s = false → rangeHeld s dpa n = false →
      exec (.apertureAccess hp off len (some bs) []) s = .next (writeMem dpa (bs.take n) (lineFaults [] s)).1) ∧
    (∀ bs faults, e.testBit 63 = true → e.testBit 62 = true → courseLive s = false → rangeHeld s dpa n = true →
      exec (.apertureAccess hp off len (some bs) faults) s = .next (waits { dpa := dpa, len := n, write := some (bs.take n), faults := faults })) ∧
    (∀ bs, regionByte s hp off = none →
      exec (.queueRegionAccess hp (0x10000000 + off) len none) s =
        .next (emit (.readData (List.replicate len 0) false) (countUnmapped (0x10000000 + off) s)) ∧
      exec (.queueRegionAccess hp (0x10000000 + off) len (some bs)) s = .next (countUnmapped (0x10000000 + off) s)) ∧
    (∀ bs d, regionByte s hp off = some d →
      let m := min len (4096 - off % 4096)
      (rangeHeld s d m = false →
        exec (.queueRegionAccess hp (0x10000000 + off) len none) s = .next (emit (.readData (readMem d m s) (rangePoisoned s d m)) s) ∧
        exec (.queueRegionAccess hp (0x10000000 + off) len (some bs)) s = .next (writeMem d (bs.take m) s).1) ∧
      (rangeHeld s d m = true → exec (.queueRegionAccess hp (0x10000000 + off) len none) s = .next (waits { dpa := d, len := m })))) ∧
  (∀ (hp off : Nat) (s : State), running s = true → hp ≤ 1 → off < 0x4000000 → 0x20000 ≤ off → off % 4 = 0 → (fnD s (pfId hp 0)).dstate = .d0 →
    let x := winXlat s hp (off / 0x400000)
    let csr := x % 64 * 0x400000 + off % 0x400000
    (x < 2 ^ 31 → exec (.windowAccess hp off 4 none) s = .next (emit (.readData [0, 0, 0, 0] false) (countUnmapped csr s)) ∧
      ∀ v, exec (.windowAccess hp off 4 (some v)) s = .next (countUnmapped csr s)) ∧
    (2 ^ 31 ≤ x → exec (.windowAccess hp off 4 none) s = .next (emit (.readData (leBytes 4 (csrRead s csr)) false) (csrReadCount csr s)) ∧
      (∀ v, exec (.windowAccess hp off 4 (some v)) s = .next (csrPut (.host hp) csr (v % 2 ^ 32) s)) ∧
      ∀ v w, w < 4 → exec (.windowAccess hp off w (some v)) s = .next s)) ∧
  (∀ (hp p v : Nat) (s : State), running s = true → hp ≤ 1 → p ≤ 4095 → (fnD s (pfId hp 0)).dstate = .d0 →
    let old := aptOf s hp p
    exec (.windowAccess hp (0x8000 + 8 * p) 8 none) s = .next (emit (.readData (leBytes 8 old) false) s) ∧
    exec (.windowAccess hp (0x8000 + 8 * p) 8 (some v)) s = .next (setApt hp p (v % 2 ^ 64) s) ∧
    exec (.windowAccess hp (0x8000 + 8 * p) 4 (some v)) s = .next (setApt hp p (old / 2 ^ 32 * 2 ^ 32 + v % 2 ^ 32) s) ∧
    exec (.windowAccess hp (0x8000 + 8 * p + 4) 4 (some v)) s = .next (setApt hp p (v % 2 ^ 32 * 2 ^ 32 + old % 2 ^ 32) s))

/-- R468, R572, R576, R583 to R597, R600, R608 and R616. -/
def Obligations.KeysAlarmsAndLifeCycle : Prop :=
  (∀ (w : Nat) (row : Instr) (via : Via) (pkt : IcpPkt) (s s0 : State) (c : Ctx),
    (w, row) ∈ [(0, Instr.keyProvisionClear via pkt), (1, .keyProvisionWrapped via pkt)] →
    Starts 0x0600 via (withByte 1 (fun _ => w) pkt) s c s0 → c.p 1 1 = w → firstBad (keyChecks c s0) = none →
    let kind := c.p 0 1
    let given := c.p 4 4
    let opened := if w = 1 then (if s0.sec.provisionKey then Config.unwrapKey s0.sec.lifecycle (c.params.take 208) else none) else some ((c.params.drop 0x10).take (keyLen kind))
    (opened = none → Replied (exec row s) c stIntegrity dtWrapAuth [] s0) ∧
    (∀ b, opened = some b →
      let bs := b.take (keyLen kind)
      (kind = 1 → bs.take 32 = bs.drop 32 → Replied (exec row s) c stFailed dtWeakKey [] s0) ∧
      (∀ h, ¬ (kind = 1 ∧ bs.take 32 = bs.drop 32) → (if given = 0 then newKeyHandle s0 kind else some given) = some h → ∃ y,
        Replied (exec row s) c stOk dtNone (layout 16 [(0, 4, h), (4, 4, kind), (8, 4, Config.keyCheck (leVal bs))]) (stoSettle y) ∧
        keyMaterial y h = some (leVal bs) ∧ (∀ g, g ≠ h → keyOf y g = keyOf s0 g) ∧ (∀ e ∈ y.sto.ns, e.2.san.held = false) ∧ y.mem = s0.mem))) ∧
  (∀ (via : Via) (pkt : IcpPkt) (s s0 : State) (c : Ctx) (k : Key), Starts 0x0601 via pkt s c s0 →
    let h := c.p 0 4
    let release := (c.p 4 4).testBit 0
    keyOf s0 h = some k →
    (release = true → keyNamed s0 h = true → Replied (exec (.keyErase via pkt) s) c stConflict dtKeyInUse [] s0) ∧
    (¬ (release = true ∧ keyNamed s0 h = true) → ∃ y data, Replied (exec (.keyErase via pkt) s) c stOk dtNone data (stoSettle y) ∧
      keyMaterial y h = none ∧ ((keyOf y h).bind (·.sealedCopy) = none) ∧ (∀ m, k.material = some m → ∀ e ∈ y.sec.keyCache, e.1 ≠ m) ∧
      (release = true → keyOf y h = none) ∧ (∀ g, g ≠ h → keyOf y g = keyOf s0 g) ∧
      (k.kind = 3 → domainKeys y = [] → courseLive y = false))) ∧
  (∀ (via : Via) (pkt : IcpPkt) (s s0 : State) (c : Ctx), Starts 0x0602 via pkt s c s0 →
    let a := s0.sec.lifecycle
    let b := c.p 0 1
    let proven := decide (s0.sec.challenge = some (c.p 8 8)) &&
      (c.params.drop 0x10).take 48 == Config.lifecycleToken (leBytes 1 b ++ Config.serial ++ leBytes 8 (c.p 8 8))
    b ≤ 4 → ¬ (a = 2 ∧ b = 1 ∧ 15 ≤ s0.sec.ownerChanges) → recoveryWork s0 = false → transitionOk a b = true →
    (needsToken b a = true → proven = false →
      Replied (exec (.lifecycleTransition via pkt) s) c stIntegrity dtToken [] (s0.setSec { s0.sec with challenge := none })) ∧
    ((needsToken b a = false ∨ proven = true) → ∃ y,
      Replied (exec (.lifecycleTransition via pkt) s) c stOk dtNone (layout 96 [(0, 1, b)]) (stoSettle y) ∧
      y.sec.lifecycle = b ∧ (∀ h, keyMaterial y h = none) ∧ y.sec.keyCache = [] ∧ y.sec.ide = [] ∧ y.sec.spdm = [] ∧
      y.sec.ownerChanges = (if a = 2 ∧ b = 1 then s0.sec.ownerChanges + 1 else s0.sec.ownerChanges) ∧
      (b = 3 → y.mem.cells = [] ∧ y.mem.poison = [] ∧ y.sto.ns = []) ∧ (b ≠ 3 → y.mem = s0.mem))) ∧
  (∀ (via : Via) (pkt : IcpPkt) (s s0 : State) (c : Ctx),
    (Starts 0x0603 via pkt s c s0 →
      let chain := Config.certChain (c.p 0 1) s0.sec.lifecycle s0.sec.alias_
      let part := (chain.drop (c.p 4 4)).take 4048
      c.p 0 1 ≤ 1 → c.p 4 4 ≤ chain.length → Replied (exec (.getCertChain via pkt) s) c stOk dtNone
        (layout 16 [(0, 4, chain.length), (4, 4, part.length)] ++ part) s0) ∧
    (Starts 0x0604 via pkt s c s0 → ∃ data ch, Replied (exec (.securityStatus via pkt) s) c stOk dtNone data
        (if c.iss.priv then drawn (s0.setSec { s0.sec with challenge := some ch }) else s0) ∧
      (c.iss.priv = true → le data 8 8 = ch) ∧ (c.iss.priv = false → le data 8 8 = 0) ∧ le data 0 1 = s0.sec.lifecycle % 2 ^ 8)) ∧
  (∀ (k : Nat) (s : State),
    let t := alarmCore k s
    (k < 5 → exec (.alarm k) s = .next (stoSettle t)) ∧ (5 ≤ k → exec (.alarm k) s = .next s) ∧
    t.sec.alarm = s.sec.alarm ||| 2 ^ k ∧ (∀ h, keyMaterial t h = none) ∧ t.sec.keyCache = [] ∧ t.sec.identity = false ∧ t.sec.deviceKey = false ∧
    t.sec.provisionKey = false ∧ t.sec.ide = [] ∧ t.sec.spdm = [] ∧
    t.sec.epoch = (if s.sec.alarm = 0 then min 128 (s.sec.epoch + 1) else s.sec.epoch) ∧ t.sec.sealedCopies = true ∧ courseLive t = false ∧
    Recorded s t blkCipher 2 0x0103 [s.sec.alarm ||| 2 ^ k]) ∧
  (∀ s : State, (s.sec.sealedCopies = false → exec .sealedCopiesErased s = .next s) ∧
    (s.sec.sealedCopies = true → exec .sealedCopiesErased s = .next (emit (.flash "sealed keys erased" []) (s.setSec { s.sec with sealedCopies := false }))))

/-- R584 to R586, R610 and R612 to R614. -/
def Obligations.SpdmAndIdeAnswerByStage : Prop :=
  (∀ (mb peer v slot off len index sid op stream msg key : Nat) (agreed signed verified : Bool) (nonce exch : Bytes) (s : State),
    let x := spdmOf s mb peer
    let rows := [exec (.spdmGetVersion mb peer) s, exec (.spdmGetCapabilities mb peer v) s, exec (.spdmNegotiateAlgorithms mb peer agreed) s,
      exec (.spdmGetDigests mb peer) s, exec (.spdmGetCertificate mb peer slot off len) s, exec (.spdmChallenge mb peer slot nonce) s,
      exec (.spdmGetMeasurements mb peer index signed nonce) s, exec (.spdmKeyExchange mb peer slot exch) s,
      exec (.spdmFinish mb peer sid verified) s, exec (.spdmKeyUpdate mb peer sid op) s, exec (.spdmHeartbeat mb peer sid) s,
      exec (.spdmEndSession mb peer sid) s, exec (.ideKm mb peer sid stream msg key) s]
    let error := fun e => Host.Outcome.next (emit (.spdm mb peer 0 0x7F (leBytes 1 e)) s)
    let answer := fun code data (t : State) => Host.Outcome.next (emit (.spdm mb peer 0 code data) t)
    let within := fun code data (t : State) => Host.Outcome.next (emit (.spdm mb peer sid code data) t)
    let chain := fun i => Config.certChain i s.sec.lifecycle s.sec.alias_
    let body := if index = 0 then [7] else if index = 0xFF then ((List.range 7).map (fun i => measurement s (i + 1))).flatten else measurement s index
    (∀ r ∈ rows, ∃ t, r = .next t) ∧ (3 ≤ mb → ∀ r ∈ rows, r = .next s) ∧
    (mb < 3 → footing s = true → ∀ r ∈ rows, r = error 3) ∧
    (footing s = false → running s = false → ∀ r ∈ rows, r = .next s) ∧
    (mb < 3 → running s = true →
      exec (.spdmGetVersion mb peer) s = answer 0x04 [2, 0, 0x12, 0, 0x13] (setSpdm { x with stage := 1, version := 0 } s) ∧
      (x.stage = 0 → ∀ r ∈ rows.drop 1, r = error 4) ∧
      (1 ≤ x.stage → (v = 0x12 ∨ v = 0x13) → exec (.spdmGetCapabilities mb peer v) s =
        answer 0x61 (Config.spdmData 0x61 s.draw) (drawn (setSpdm { x with stage := 2, version := v } s))) ∧
      (1 ≤ x.stage → v ≠ 0x12 → v ≠ 0x13 → exec (.spdmGetCapabilities mb peer v) s = error 0x41) ∧
      (2 ≤ x.stage → exec (.spdmNegotiateAlgorithms mb peer true) s = answer 0x63 (Config.spdmData 0x63 s.draw) (drawn (setSpdm { x with stage := 3 } s)) ∧
        exec (.spdmNegotiateAlgorithms mb peer false) s = error 1) ∧
      (3 ≤ x.stage →
        exec (.spdmGetDigests mb peer) s = answer 0x01 (Config.sha384 (chain 0) ++ Config.sha384 (chain 1)) s ∧
        (slot ≤ 1 → off < (chain slot).length → exec (.spdmGetCertificate mb peer slot off len) s = answer 0x02 (((chain slot).drop off).take len) s) ∧
        ((1 < slot ∨ (chain slot).length ≤ off) → exec (.spdmGetCertificate mb peer slot off len) s = error 1) ∧
        (s.sec.identity = true → 1 < slot → exec (.spdmChallenge mb peer slot nonce) s = error 1 ∧ exec (.spdmKeyExchange mb peer slot exch) s = error 1) ∧
        (7 < index → index ≠ 0xFF → exec (.spdmGetMeasurements mb peer index false nonce) s = error 1) ∧
        (s.sec.identity = true → slot ≤ 1 → (if mb = 2 then 4 else 2) ≤ spdmSessions s mb → exec (.spdmKeyExchange mb peer slot exch) s = error 0x0A) ∧
        (s.sec.identity = false → exec (.spdmChallenge mb peer slot nonce) s = error 5 ∧ exec (.spdmKeyExchange mb peer slot exch) s = error 5 ∧
          exec (.spdmGetMeasurements mb peer index true nonce) s = error 5) ∧
        ((index ≤ 7 ∨ index = 0xFF) → exec (.spdmGetMeasurements mb peer index false nonce) s = answer 0x60 body s ∧
          (s.sec.identity = true → exec (.spdmGetMeasurements mb peer index true nonce) s =
            answer 0x60 (body ++ Config.sign s.sec.alias_ (Config.sha384 (nonce ++ body))) s)) ∧
        (s.sec.identity = true → slot ≤ 1 →
          exec (.spdmChallenge mb peer slot nonce) s =
            answer 0x03 (Config.sha384 (chain slot) ++ Config.sign s.sec.alias_ (Config.sha384 nonce)) s ∧
          (spdmSessions s mb < (if mb = 2 then 4 else 2) → ∃ new, (∀ y ∈ x.sessions, y.1 ≠ new) ∧ new ≤ 16 ∧
            exec (.spdmKeyExchange mb peer slot exch) s = .next (emit (.spdm mb peer new 0x64
              (Config.spdmData 0x64 s.draw ++ Config.sign s.sec.alias_ (Config.sha384 exch)))
              (drawn (setSpdm { x with sessions := x.sessions ++ [(new, false)] } s))))) ∧
        ((sid, false) ∈ x.sessions →
          exec (.spdmFinish mb peer sid true) s =
            within 0x65 [] (setSpdm { x with sessions := x.sessions.map (fun y => if y.1 = sid then (y.1, true) else y) } s) ∧
          exec (.spdmFinish mb peer sid false) s = .next (emit (.spdm mb peer 0 0x7F (leBytes 1 6)) (endSpdm mb peer sid s))) ∧
        ((sid, false) ∉ x.sessions → exec (.spdmFinish mb peer sid verified) s = error 2) ∧
        ((sid, true) ∉ x.sessions → ∀ r ∈ rows.drop 9, r = error 2) ∧
        ((sid, true) ∈ x.sessions →
          (1 ≤ op → op ≤ 3 → exec (.spdmKeyUpdate mb peer sid op) s = within 0x69 (leBytes 1 op) s) ∧
          ((op = 0 ∨ 3 < op) → exec (.spdmKeyUpdate mb peer sid op) s = error 1) ∧
          (mb = 2 → exec (.ideKm mb peer sid stream msg key) s = error 1) ∧
          exec (.spdmHeartbeat mb peer sid) s = within 0x68 [] s ∧
          exec (.spdmEndSession mb peer sid) s = .next (endSpdm mb peer sid (emit (.spdm mb peer sid 0x6C []) s)) ∧
          (mb < 2 →
            let st := (ideOf s mb stream).getD { hp := mb, stream := stream }
            let km := fun code (t : State) => within 0x7E [BitVec.ofNat 8 code, BitVec.ofNat 8 stream] t
            exec (.ideKm mb peer sid stream 0 key) s = km 1 s ∧
            ((ideOf s mb stream).isSome = true ∨ (s.sec.ide.filter (fun y => y.hp == mb)).length < 8 →
              exec (.ideKm mb peer sid stream 2 key) s = km 3 (setIde { st with keys := st.keys ||| 2 ^ (key % 16) } s)) ∧
            (ideOf s mb stream = none → 8 ≤ (s.sec.ide.filter (fun y => y.hp == mb)).length → exec (.ideKm mb peer sid stream 2 key) s = error 1) ∧
            (st.keys = 0 → exec (.ideKm mb peer sid stream 4 key) s = error 1) ∧
            (msg ∉ [0, 2, 4, 5] → exec (.ideKm mb peer sid stream msg key) s = error 1) ∧
            (st.keys ≠ 0 → exec (.ideKm mb peer sid stream 4 key) s = km 6 (setIde { st with secure := true } s)) ∧
            exec (.ideKm mb peer sid stream 5 key) s =
              km 6 (s.setSec { s.sec with ide := s.sec.ide.filter (fun y => !ideIs mb stream y) })))))) ∧
  (∀ (mb peer sid : Nat) (s : State), ∀ y ∈ (spdmOf (endSpdm mb peer sid s) mb peer).sessions, y.1 ≠ sid) ∧
  (∀ (hp stream : Nat) (tlps : List Bytes) (s : State), (∀ ok, ∃ t, exec (.ideTlpRx hp stream tlps ok) s = .next t) ∧
    ((∀ x, ideOf s hp stream = some x → x.secure = false) → ∀ ok, exec (.ideTlpRx hp stream tlps ok) s = .next s) ∧
    (∀ x, ideOf s hp stream = some x → x.secure = true →
      exec (.ideTlpRx hp stream tlps true) s = .next (emit (.tlps hp stream tlps) s) ∧
      ∃ t, exec (.ideTlpRx hp stream tlps false) s = .next t ∧ ideOf t hp stream = some { x with secure := false } ∧
        (∀ b, hostPortBlock s hp = some b → Recorded s t (blkPb b) 2 0x0100 [stream])))

/-- R45, R619, R622 to R631, R692 and R693. -/
def Obligations.ErrorsAreRecordedAcknowledgedAndCleared : Prop :=
  (∀ (b cls src : Nat) (info : List Nat) (s : State), 1 ≤ cls → cls ≤ 3 →
    let t := noteErr b cls src info s
    let h := errOf s b
    let h' := errOf t b
    Recorded s t b cls src info ∧ (∀ k, k ≠ b → errOf t k = errOf s k) ∧
    (cls = 1 → h.corSilent = true → h'.cls = h.cls ∧ h'.running = h.running) ∧ (cls = 3 → h'.cls = 3 ∧ h'.running = false) ∧
    (h.cls = 0 → cls < 3 → ¬ (cls = 1 ∧ h.corSilent = true) →
      h'.cls = cls ∧ h'.running = true ∧ h'.acked = false ∧ h'.timerEnd = now s (blkIsland b) + h.ms * 1000000) ∧
    (h.cls = 1 → h.running = true → cls = 2 → h'.cls = 2 ∧ h'.timerEnd = h.timerEnd) ∧
    (b ≤ 60 → 2 ≤ cls → faultAsserted t = true) ∧ t.mem = s.mem ∧ t.mason = s.mason ∧ t.fns = s.fns) ∧
  (∀ (b src : Nat) (info : List Nat) (s : State), s.tel.frozen = false →
    let t := recordFat b src info s
    t.tel.frozen = true ∧ (∃ d, t.tel.dump = some d ∧ d.block = b ∧ d.source = src) ∧ (∀ c, c < 17 → (islandOf t c).point = 5 ∧ (islandOf t c).mhz = 400) ∧
    t.pwr.fallback = true ∧ Recorded s t b 3 src info ∧ t.mem = s.mem) ∧
  (∀ (s : State) (n mv : Nat),
    (s.boot.inReset = true → exec (.referenceClockLost n) s = .next s ∧ exec (.railOutOfRange n mv) s = .next s) ∧
    (s.boot.inReset = false → exec (.referenceClockLost n) s = .next (recordFat blkGlobal 0x0101 [n] s) ∧
      exec (.railOutOfRange n mv) s = .next (recordFat blkPower 0x0100 [n, mv] s)) ∧
    (let b := s.boot
     let left := b.stewards.filter (fun x => x != n)
     (b.stewardSpare = some n → exec (.stewardCoreFailed n) s = .next (s.setBoot { b with stewardSpare := none })) ∧
     (b.stewardSpare ≠ some n → n ∉ b.stewards → exec (.stewardCoreFailed n) s = .next s) ∧
     (∀ k, k ≠ n → b.stewardSpare = some k → n ∈ b.stewards → exec (.stewardCoreFailed n) s =
       .next (logSpare blkSteward 0x0004 n 0 (s.setBoot { b with stewards := left ++ [k], stewardSpare := none }))) ∧
     (b.stewardSpare = none → n ∈ b.stewards → exec (.stewardCoreFailed n) s =
       .next (if left = [] then recordFat blkGlobal 0x0100 [] (s.setBoot { b with stewards := left }) else s.setBoot { b with stewards := left })))) ∧
  (∀ (who : Requester) (b seq : Nat) (s : State), b ≤ 60 →
    let h := errOf s b
    let good := decide (h.valid = true ∧ h.seq = seq % 16)
    let acked := setErr b { h with running := false, acked := true, sparing := false } s
    let ignored := bump blkTelem 0x130 s
    let other := countUnmapped (blkBase b + 0x28) s
    ((trusted who = false ∨ (b = blkPower ∧ who ≠ .steward)) → exec (.errAckAck who b seq) s = .next other ∧ ∀ a, exec (.errAckClear who b seq a) s = .next other) ∧
    (trusted who = true → (b ≠ blkPower ∨ who = .steward) →
      exec (.errAckAck who b seq) s = .next (if good then acked else ignored) ∧
      ((h.acked = true ∨ h.escalated = true) → h.cls ≠ 3 → ∃ t, exec (.errAckClear who b seq false) s = .next t ∧
        (errOf t b).valid = false ∧ (errOf t b).ovf = false ∧ (errOf t b).cls = 0 ∧ (errOf t b).corSeen = false ∧ (errOf t b).conSeen = false ∧
        (errOf t b).fatSeen = false ∧ (errOf t b).acked = false ∧ (errOf t b).escalated = false ∧ (errOf t b).info = [0, 0, 0, 0] ∧
        (errOf t b).isolated = h.isolated ∧ (errOf t b).returning = h.isolated ∧ (errOf t b).seq = h.seq ∧ (∀ k, k ≠ b → errOf t k = errOf s k)) ∧
      (h.acked = false → h.escalated = false → exec (.errAckClear who b seq false) s = .next ignored) ∧
      (h.cls = 3 → exec (.errAckClear who b seq false) s = .next ignored) ∧
      (good = true → h.cls ≠ 3 → ∃ t, exec (.errAckClear who b seq true) s = .next t ∧ (errOf t b).valid = false ∧ (errOf t b).cls = 0))) ∧
  (∀ (b : Nat) (s : State),
    let h := errOf s b
    ((h.isolated = false ∨ h.returning = false) → exec (.isolatedBlockReturn b) s = .next s) ∧
    (h.isolated = true → h.returning = true → ∃ t, exec (.isolatedBlockReturn b) s = .next (failAdmitted b t) ∧
      errOf t b = { h with isolated := false, returning := false } ∧ t.csr = s.csr ∧ t.mem = s.mem) ∧
    (h.running = false → exec (.escalationTimerExpiry b) s = .next s) ∧
    (h.running = true → ∃ t, exec (.escalationTimerExpiry b) s = .next (if h.cls = 2 then failAdmitted b t else t) ∧
      errOf t b = { h with running := false, escalated := true, escTime := stamp s b, isolated := h.isolated || h.cls == 2, returning := false } ∧
      cell t blkTelem 0x13C = (cell s blkTelem 0x13C + 1) % 2 ^ 32 ∧ (h.cls = 2 → b = blkPower → t.pwr.fallback = true) ∧ t.mem = s.mem) ∧
    (b ≠ blkSteward → ¬ (2 ≤ b ∧ b ≤ 18) → b ≠ blkTable → b ≠ blkCourse → b ≠ blkStorage → b ≠ blkTransport → b < 53 → failAdmitted b s = s) ∧
    (∀ n seq d, (cqpOf s n).isSome = true → admitted s n seq = some d → ∃ y, failDesc n seq csIsolated 0 s = postCqe n d 0 csIsolated 0 0 y ∧
      (cqpD y n).waiting = (cqpD s n).waiting.filter (fun w => w.1 != seq) ∧ (cqpD y n).running = (cqpD s n).running.filter (fun p => p.seq != seq) ∧
      (∀ j ∈ y.mason.jobs, j.of n seq = false) ∧ y.mem = s.mem ∧ y.out = s.out) ∧
    (failAdmitted blkCourse s = if courseLive s = true then settle (abortCourse dtIsolated s) else s) ∧
    (∃ t, exec .faultNMinimumHoldExpiry s = .next t ∧ t.tel.faultHold = false ∧ t.err = s.err ∧
      t.out = s.out ++ (if faultAsserted s = true ∧ anyFault s = false then [.pin .faultN false] else [])))

/-- R12, R14, R29, R30, R143, R397, R589, R632 to R646, R669, R694, R715 and R716. -/
def Obligations.TelemetryReportsAndRegisterWrites : Prop :=
  (∀ (via : Via) (pkt : IcpPkt) (s s0 : State) (c : Ctx),
    let b := c.p 0 2
    let h := errOf s0 b
    let good := decide (h.valid = true ∧ h.seq = c.p 2 1 % 16)
    let shown := fun (t : State) => layout 8 [(0, 4, headerReg t b 0x10), (4, 4, headerReg t b 0x14)]
    (Starts 0x0700 via pkt s c s0 → (b ≤ 60 ∨ b = 0xFFFF) → ∃ data, Replied (exec (.errQuery via pkt) s) c stOk dtNone data s0 ∧
      (b ≤ 60 → le data 0x40 8 = h.firstTime % 2 ^ 64) ∧ (b = 0xFFFF → le data 8 8 = sumCon s0 % 2 ^ 64)) ∧
    (Starts 0x0701 via pkt s c s0 → b ≤ 60 →
      ((c.p 3 1).testBit 0 = true → (c.p 3 1).testBit 1 = false → good = true →
        let y := setErr b { h with running := false, acked := true, sparing := false } s0
        Replied (exec (.errAck via pkt) s) c stOk dtNone (shown y) y) ∧
      ((c.p 3 1).testBit 0 = true → (c.p 3 1).testBit 1 = false → good = false →
        Replied (exec (.errAck via pkt) s) c stConflict 0x0181 (shown (staleAck s0)) (staleAck s0)) ∧
      ((c.p 3 1).testBit 0 = false → (c.p 3 1).testBit 1 = true → clearAccepted h = true →
        Replied (exec (.errAck via pkt) s) c stOk dtNone (shown (clearErr b s0)) (clearErr b s0)) ∧
      ((c.p 3 1).testBit 0 = false → (c.p 3 1).testBit 1 = true → clearAccepted h = false →
        Replied (exec (.errAck via pkt) s) c stConflict (if h.cls = 3 then dtFrozen else 0x0182) (shown (staleAck s0)) (staleAck s0))) ∧
    (∀ lim, Starts 0x0702 via pkt s c s0 → b ≤ 60 → c.p 2 1 ≤ 7 → c.p 3 1 ≤ 3 → (c.p 3 1 ≠ 0 → c.cap 4 = true) →
      eventMax b (c.p 4 2) (c.p 6 1) = some lim → (isPf (c.p 0xC 2) || isVf (c.p 0xC 2) || c.p 0xC 2 == 0xFFFF) = true → ∃ k : PerfCtr,
      Replied (exec (.counterSelect via pkt) s) c stOk (okDetail (c.differs [(8, 4, min lim (c.p 8 4))])) 
        (c.echo 32 (whole [(0, 2), (2, 1), (3, 1), (4, 2), (6, 1), (0xC, 2)] ++ [(0xE, 2, 3)]) [(8, 4, min lim (c.p 8 4))])
        (setPerfCtr b (c.p 2 1) k s0) ∧
      k.enable = (c.p 0xE 2).testBit 0 ∧ k.mode = c.p 3 1 ∧ k.event = c.p 4 2 ∧ k.unit = c.p 6 1 ∧ k.thresh = min lim (c.p 8 4) ∧ k.reader = c.p 0xC 2 ∧
      (((c.p 0xE 2).testBit 1 = true ∨ (perfOf s0 b (c.p 2 1)).event ≠ c.p 4 2 ∨ (perfOf s0 b (c.p 2 1)).mode ≠ c.p 3 1) → k.count = 0)) ∧
    (Starts 0x0703 via pkt s c s0 → b ≤ 60 → ∃ data, Replied (exec (.counterRead via pkt) s) c stOk dtNone data (s0.setDraw (s0.draw + 8)) ∧
      le data 0 8 = stamp s0 b % 2 ^ 64 ∧ ∀ n, n < 8 →
        let hidden := c.iss.kind ≤ 1 ∧ c.iss.priv = false ∧ (perfOf s0 b n).reader ≠ c.iss.fid
        (hidden → le data (8 + 8 * n) 8 = 0) ∧ (¬ hidden → le data (8 + 8 * n) 6 = (perfOf s0 b n).count % 2 ^ 48))) ∧
  (∀ (via : Via) (pkt : IcpPkt) (s s0 : State) (c : Ctx),
    (Starts 0x0704 via pkt s c s0 →
      let p := c.p 0 1
      let bd := policyBounds s0 p (c.p 2 2) (c.p 8 8) (c.p 0x10 8)
      p ∈ [1, 2, 5, 7, 8] → (c.p 1 1 = 1 ∨ c.p 1 1 = 0xFF ∨ (c.p 1 1 = 0 ∧ p ≤ 2)) → policyParamOk p (c.p 2 2) = true →
      stagedHit 9 c s0 = false →
      Replied (exec (.policySet via pkt) s) c stOk (okDetail (c.differs [(8, 8, bd.1), (0x10, 8, bd.2)])) 
        (c.echo 32 (whole [(0, 1), (1, 1), (2, 2)]) [(8, 8, bd.1), (0x10, 8, bd.2)])
        (setPolicy p (c.p 1 1) (c.p 2 2) bd.1 bd.2 s0) ∧ (p = 2 → 1 ≤ bd.1 ∧ bd.1 ≤ 10000000) ∧ (p = 8 → 1 ≤ bd.1 ∧ bd.1 ≤ 16)) ∧
    (Starts 0x0705 via pkt s c s0 →
      let n := max 1 (min 126 (c.p 4 4))
      let recs := (s0.tel.plog.filter (fun r => decide (c.p 0 4 ≤ r.seq))).take n
      ∃ seen data, Replied (exec (.policyLogRead via pkt) s) c stOk (okDetail (n != c.p 4 4)) data (s0.setTel { s0.tel with plogRead := seen }) ∧
        le data 4 4 = recs.length ∧ s0.tel.plogRead ≤ seen ∧ (∀ r, recs.getLast? = some r → r.seq < seen)) ∧
    (Starts 0x0F02 via pkt s c s0 →
      let d := (s0.tel.dump.map (·.bytes)).getD []
      let piece := (d.drop (c.p 0 8)).take (c.p 8 4)
      c.p 0 8 ≤ d.length → c.p 8 4 ≤ 4048 → ∃ src, Replied (exec (.dumpRead via pkt) s) c stOk dtNone
        (layout 16 [(0, 8, d.length), (8, 4, piece.length), (12, 4, src)] ++ piece) s0) ∧
    (Starts 0x0101 via pkt s c s0 → Replied (exec (.getStraps via pkt) s) c stOk dtNone (strapReply s0) s0) ∧
    (Starts 0x0102 via pkt s c s0 → c.p 0 2 < 0x2000 → ∃ y, Replied (exec (.strapOverride via pkt) s) c stOk dtNone (strapReply y) y ∧
      ((c.p 4 1).testBit 0 = false → y.pins.nextMask = s0.pins.nextMask ||| c.p 0 2 ∧
        ∀ i, i < 13 → (c.p 0 2).testBit i = true → y.pins.nextValue.testBit i = (c.p 2 2).testBit i) ∧
      ((c.p 4 1).testBit 0 = true → c.p 0 2 = 0 → ∀ i, i < 16 → y.pins.nextMask.testBit i = false) ∧
      y.pins.latched = s0.pins.latched ∧ y.mem = s0.mem) ∧
    (Starts 0x0103 via pkt s c s0 → ∃ data, Replied (exec (.getStartReport via pkt) s) c stOk dtNone data s0 ∧
      le data 0 1 = s0.boot.stage % 2 ^ 8 ∧ le data 8 4 = s0.boot.startCount % 2 ^ 32) ∧
    (Starts 0x0120 via pkt s c s0 →
      let w := max 250 (min 600 (c.p 0 2))
      let t := max 70 (min 95 (c.p 3 1))
      ∃ data y, Replied (exec (.powerCapSet via pkt) s) c stOk (okDetail (w != c.p 0 2 || t != c.p 3 1)) data y ∧ le data 0 2 = w ∧ le data 3 1 = t ∧
        y.pwr.nextCap = some w ∧ y.pwr.tempC = t ∧ y.pwr.capW = s0.pwr.capW ∧
        y.pwr.persisted = (if c.p 2 1 % 2 = 1 then some (w, t) else s0.pwr.persisted))) ∧
  (∀ (who : Requester) (off : Nat) (v : CsrWord) (s : State),
    let o := off / 4 * 4
    (blkOf o = none → exec (.csrWrite who (.csr off) v) s = .next (countUnmapped o s)) ∧
    (∀ b rel, blkOf o = some (b, rel) →
      (((b = blkPower ∧ who ≠ .steward) ∨ (guarded b rel = true ∧ trusted who = false)) →
        exec (.csrWrite who (.csr off) v) s = .next (countUnmapped o s)) ∧
      ((b ≠ blkPower ∨ who = .steward) → (guarded b rel = false ∨ trusted who = true) →
        (rel = 0x1C → exec (.csrWrite who (.csr off) v) s = .next (setErr b { errOf s b with corSilent := v.getLsbD 0 } s)) ∧
        (rel = 0x24 → exec (.csrWrite who (.csr off) v) s =
          .next (setErr b { errOf s b with ms := max 1 (min 10000 (v.toNat % 2 ^ 14)) } s)) ∧
        (rel < 0x100 → rel ∉ [0x1C, 0x24, 0x28] → exec (.csrWrite who (.csr off) v) s = .next s) ∧
        (∀ x, 0x100 ≤ rel → (rel < 0x200 ∨ 0x280 ≤ rel) → storedWrite s b rel v.toNat = some x → ∃ t,
          exec (.csrWrite who (.csr off) v) s = .next t ∧ csrRead t o = x ∧ t.mem = s.mem ∧ t.err = s.err ∧
          ∀ b' rel', blkBase b' + rel' ≠ blkBase b + rel → cell t b' rel' = cell s b' rel'))) ∧
    (∀ hp n, running s = true → hp ≤ 1 → n ≤ 15 → (fnD s (pfId hp 0)).dstate = .d0 → ∃ t, exec (.csrWrite who (.winXlat hp n) v) s = .next t ∧
      winXlat t hp n = v.toNat / 2 ^ 31 * 2 ^ 31 + v.toNat % 64 ∧ (∀ k, k ≤ 15 → k ≠ n → winXlat t hp k = winXlat s hp k)) ∧
    (∀ fn r, (isAccel fn = true ∨ ringThere s fn = false) → exec (.csrWrite who (.ring fn r) v) s = .next s) ∧
    (∀ fn w, isAccel fn = false → ringThere s fn = true → w < 4 * vectorCount fn → w % 4 = 1 ∨ w % 4 = 2 →
      (∀ e ∈ s.ports.msixPending, e.1 = fn → msixMasked s fn e.2 = true) → ∃ t,
      exec (.csrWrite who (.msix fn w) v) s = .next t ∧ msixWord t fn w = v.toNat ∧ t.csr = s.csr ∧ t.fns = s.fns ∧ t.mem = s.mem) ∧
    (∀ ep, ep < 80 → (pbOf s (ep / 4)).role = 2 → ∃ t, exec (.csrWrite who (.acs ep) v) s = .next t ∧
      acsControl t ep = v.toNat &&& acsCapability ∧ (∀ k, k ≠ ep → acsControl t k = acsControl s k) ∧ t.csr = s.csr ∧ t.mem = s.mem) ∧
    (∀ ep, (80 ≤ ep ∨ (pbOf s (ep / 4)).role ≠ 2) → exec (.csrWrite who (.acs ep) v) s = .next s) ∧
    (∀ fn off, fnOf s fn = none → exec (.csrWrite who (.config fn off) v) s = .next s) ∧
    (∀ fn off, (fnOf s fn).isSome = true → s.boot.inReset = false → ((running s = false ∧ footing s = false) ∨ (fnD s fn).crs = true) →
      exec (.csrWrite who (.config fn off) v) s = .next (emit (.configRetry fn) s)) ∧
    (∀ hp, running s = true → (fnOf s (pfId hp 0)).isSome = true → hp ≤ 1 → (fnD s (pfId hp 0)).crs = false →
      (∃ t, exec (.csrWrite who (.config (pfId hp 0) 0x1C) v) s = .next t ∧ barAt t (pfId hp 0) 0x18 / 2 ^ 32 = v.toNat ∧
        configRead t (pfId hp 0) 0x1C = some v.toNat ∧ t.fns = s.fns ∧ t.csr = s.csr ∧ t.mem = s.mem) ∧
      (∃ t, exec (.csrWrite who (.config (pfId hp 0) 0x18) v) s = .next t ∧ configRead t (pfId hp 0) 0x18 = some (v.toNat / 2 ^ 29 * 2 ^ 29 + 12) ∧
        t.fns = s.fns ∧ t.csr = s.csr ∧ t.mem = s.mem) ∧
      (∃ t, exec (.csrWrite who (.config (pfId hp 0) 0x88) v) s = .next t ∧ atomicReq t hp = v.getLsbD 6 ∧ t.fns = s.fns ∧ t.csr = s.csr ∧ t.mem = s.mem) ∧
      (∃ t, exec (.csrWrite who (.config (pfId hp 0) 4) v) s = .next t ∧
        bar2Base t (pfId hp 0) = (if barAt s (pfId hp 0) 0x18 ≠ 0 ∧ v.getLsbD 1 = true then some (barAt s (pfId hp 0) 0x18) else none) ∧
        t.fns = s.fns ∧ t.csr = s.csr ∧ t.mem = s.mem)) ∧
    (∀ fn r, isAccel fn = false → ringThere s fn = true → exec (.csrWrite who (.ring fn r) v) s = .next (icpWake (ringWrite fn r v.toNat s))) ∧
    (∀ b n, b ≤ 60 → n ≤ 7 →
      (b = blkPower → who ≠ .steward → exec (.cntSelWrite who b n v) s = .next (countUnmapped (blkBase b + 0x200 + 16 * n) s)) ∧
      ((b ≠ blkPower ∨ who = .steward) → ∃ t, exec (.cntSelWrite who b n v) s = .next t ∧
        (perfOf t b n).event = v.toNat % 2 ^ 16 ∧ (perfOf t b n).enable = v.getLsbD 31 ∧ (perfOf t b n).mode = v.toNat / 2 ^ 29 % 4 ∧
        ((perfOf s b n).event ≠ v.toNat % 2 ^ 16 → (perfOf t b n).count = 0) ∧ (∀ m, m ≤ 7 → m ≠ n → perfOf t b m = perfOf s b m))) ∧
    (∀ a, blkOf a = none → exec (.unmappedAccess ⟨who, a⟩ true true) s = .next (countUnmapped a s) ∧
      exec (.unmappedAccess ⟨who, a⟩ true false) s = .next (emit (.readData [0, 0, 0, 0] false) (countUnmapped a s))) ∧
    (∀ a w, (blkOf a).isSome = true → exec (.unmappedAccess ⟨who, a⟩ true w) s = .next s) ∧
    (∀ a w, regionOf s a ≠ .vault → who ≠ .jtag → exec (.unmappedAccess ⟨who, a⟩ false w) s =
      .next (if dpaUnmapped s a then emit (.addressError a) (countUnmapped a s) else s)) ∧
    (∀ a, jtagReads s a = true → exec (.unmappedAccess ⟨.jtag, a⟩ false false) s = .next (emit (.readData (scratchRead s a 4) (badScratch s a 4)) s)) ∧
    (∀ a w, regionOf s a = .vault → exec (.unmappedAccess ⟨.steward, a⟩ false w) s = .next s) ∧
    (∀ a, regionOf s a = .vault → who ≠ .steward →
      (∃ t, exec (.unmappedAccess ⟨who, a⟩ false true) s = .next t ∧ t = vaultDenied (vaultRequester who) s ∧
        Recorded s t blkCipher 1 0x0100 [vaultRequester who] ∧ cell t blkCipher 0x11C = (cell s blkCipher 0x11C + 1) % 2 ^ 32 ∧ t.mem = s.mem) ∧
      exec (.unmappedAccess ⟨who, a⟩ false false) s = .next (emit (.readData [0, 0, 0, 0] false) (vaultDenied (vaultRequester who) s))))

/-- R81, R86, R89, R99, R107, R375, R649 to R657, R663, R665, R670 to R679. -/
def Obligations.StartsImagesAndActivations : Prop :=
  (∀ (kind straps : Nat) (densities untrained cxl : List (Nat × Nat)) (aonKept stewardOk : Bool) (s : State), ∃ t,
    exec (.coldReset kind straps densities untrained cxl aonKept stewardOk) s = .next t ∧ t.boot.inReset = false ∧
    t.pins.latched = ((straps % 2 ^ 16) &&& (0xFFFF - s.pins.nextMask)) ||| (s.pins.nextValue &&& s.pins.nextMask) ∧
    (∀ n, n < 20 → (pbOf t n).role = presetRole (presetOf (t.pins.latched % 16)) n) ∧
    t.boot.startCount = (s.boot.startCount + 1) % 2 ^ 32 ∧ t.boot.records.length ≤ 8 ∧ t.mem.cells = [] ∧ t.tab = {} ∧ t.tel.frozen = false ∧
    t.icp.sessions = [] ∧ t.sec.keys = (openCopies s.sec).keys ∧ t.sec.keyCache = [] ∧ t.sec.alarm = 0 ∧ t.sec.spdm = [] ∧ t.sec.identity = false ∧
    t.mem.density = densityInEffect (bits t.pins.latched 6 2) densities ∧ (∀ e ∈ densities, e.1 ∈ t.mem.present → t.mem.density ≤ lookD densities e.1 2) ∧
    (3 < s.boot.record.sourceOverride → bits t.pins.latched 4 2 = 3 → t.boot.stage = 4 ∧ t.boot.footingReason = 6) ∧
    (s.boot.record.threshold ≤ s.boot.record.failedStarts → t.boot.stage = 4)) ∧
  (∀ (kind : Nat) (stewardOk : Bool) (s : State), (s.boot.inReset = true → exec (.warmReset kind stewardOk) s = .next s) ∧
    (s.boot.inReset = false → ∃ t, exec (.warmReset kind stewardOk) s = .next t ∧ t.pins = s.pins ∧ t.mem.fenced = s.mem.fenced ∧
      t.tab = {} ∧ t.tel.frozen = false ∧ t.tel.dump = s.tel.dump ∧ t.icp.sessions = [] ∧ t.sec.keys = (openCopies s.sec).keys ∧ t.sec.keyCache = [] ∧ t.sec.spdm = [] ∧
      t.boot.startCount = (s.boot.startCount + 1) % 2 ^ 32 ∧ t.boot.act = none ∧ t.time = s.time)) ∧
  (∀ (net : Option Bytes) (s : State),
    ((starting s 1 = false ∨ s.boot.trials = []) → exec (.imageVerified net) s = .next s) ∧
    (starting s 1 = true → (s.boot.trials.head? = some 2 → exec (.imageVerified none) s = .next s) ∧
      (∀ i rest, s.boot.trials = i :: rest → i < 2 → imageCheck s (flashSlot s i).image = none → ∃ t, exec (.imageVerified net) s = .next t ∧
        t.boot.stage = 2 ∧ t.boot.runningSlot = i ∧ t.boot.running.fwVersion = (imageInfo (flashSlot s i).image).fwVersion ∧ t.boot.trials = []) ∧
      (∀ i e, s.boot.trials = [i] → i < 2 → imageCheck s (flashSlot s i).image = some e → ∃ t, exec (.imageVerified net) s = .next t ∧
        slotState t.boot.record i = 3 ∧ t.boot.stage = 1 ∧ t.boot.trials = [] ∧ t.boot.imageDetail = e.2)) ∧
    (starting s 1 = true → s.boot.trials.head? = some 2 → ∃ t, exec .networkFetchTimeout s = .next t ∧ t.boot.trials = [] ∧ t = s.setBoot t.boot) ∧
    ((starting s 1 = false ∨ s.boot.trials.head? ≠ some 2) → exec .networkFetchTimeout s = .next s) ∧
    (starting s 2 = false → exec .startComplete s = .next s) ∧
    (starting s 2 = true → ∃ t, exec .startComplete s = .next t ∧ t.boot.stage = 3 ∧ t.boot.watchdog = false ∧ t.boot.record.failedStarts = 0 ∧
      (s.boot.record.trial = true → t.boot.record.activeSlot = s.boot.record.pendingSlot ∧ t.boot.record.pendingSlot = 0xFF) ∧
      (∀ e ∈ s.fns, e.2.on = true → (ringOf t e.1).ready = true) ∧ s.sec.svnMin ≤ t.sec.svnMin ∧ t.mem = s.mem) ∧
    (s.boot.watchdog = false → exec .startWatchdogExpiry s = .next s) ∧
    (s.boot.watchdog = true → ∃ t, exec .startWatchdogExpiry s = .next t ∧ t.boot.watchdog = false ∧ t = s.setBoot t.boot)) ∧
  (∀ (via : Via) (pkt : IcpPkt) (s s0 : State) (c : Ctx), Starts 0x0800 via pkt s c s0 →
    let i := stageSlot s0 (c.p 0 1)
    let n := c.p 2 2
    let off := c.p 4 4
    let len := c.p 8 4
    let x := flashSlot s0 i
    let im := (if off = 0 then [] else x.image) ++ ((c.params.drop 0x30) ++ List.replicate n 0).take n
    c.p 0 1 ∈ [0, 1, 0xFF] → 48 + n ≤ c.pkt.paramLen → 1024 ≤ len → len ≤ 31457280 → off + n ≤ len → slotInUse s0 i = false →
    (off = 0 ∨ (off = x.image.length ∧ len = x.imageLen ∧ slotState s0.boot.record i = 1)) →
    (im.length < len → ∃ y data, Replied (exec (.fwStage via pkt) s) c stOk dtNone data y ∧ flashSlot y i = { image := im, imageLen := len } ∧
      (off = 0 → slotState y.boot.record i = 1)) ∧
    (len ≤ im.length → imageCheck s0 im = none → ∃ y data, Replied (exec (.fwStage via pkt) s) c stOk dtNone data y ∧
      flashSlot y i = { image := im, imageLen := len } ∧ slotState y.boot.record i = 2) ∧
    (∀ st d, len ≤ im.length → imageCheck s0 im = some (st, d) → ∃ y, Replied (exec (.fwStage via pkt) s) c st d [] y ∧ slotState y.boot.record i = 3)) ∧
  (∀ (m : Nat) (row : Instr) (via : Via) (pkt : IcpPkt) (s s0 : State) (c : Ctx),
    (m, row) ∈ [(0, Instr.fwActivateAtReset via pkt), (1, .fwActivateResetNow via pkt), (2, .fwActivateLive via pkt)] →
    Starts 0x0801 via (withByte 1 (fun _ => m) pkt) s c s0 → c.p 1 1 = m → firstBad (actChecks c s0 m) = none →
    let slot := c.p 0 1
    let x := actOutcome stOk dtNone m 0 (writePending slot ((c.p 2 1).testBit 0) s0)
    let y := if m = 0 then x else x.setBoot { x.boot with act := some (actOf c 1) }
    let z := livePause (addWait c .activate 0 0 (s0.setBoot { s0.boot with act := some (actOf c 2) }))
    (m = 0 ∨ (m = 1 ∧ emergencyDetail s0 = none) →
      Onward (exec row s) (releaseSpare via c.pkt s0 (sendReply 0x0801 via c.pkt stOk dtNone (actReply x slot m (c.p 2 1) 0 0) y)) ∧
      y.boot.record.pendingSlot = (if footing s0 = false ∧ s0.boot.runningSlot = slot then 0xFF else slot)) ∧
    (m = 2 → emergencyDetail s0 = none → Onward (exec row s) (releaseSpare via c.pkt s0 z) ∧
      (drainRuns s0 = false → s0.icp.paused = false → z.icp.paused = true)) ∧
    (∀ d, 1 ≤ m → emergencyDetail s0 = some d → ∃ r, r.interim = true ∧ r.status = stDeferred ∧ r.detail = d ∧
      Onward (exec row s) (addWait c .activate 0 0 ((postReply via c.pkt r s0).setBoot
        { s0.boot with act := some { actOf c m with deferred := true, detail := d } })))) ∧
  (∀ s : State,
    (s.boot.act = none → exec .activationRetry s = .next s ∧ exec .activationDeferExpiry s = .next s ∧ exec .liveActivationResume s = .next s) ∧
    (∀ a, s.boot.act = some a → a.deferred = false → exec .activationRetry s = .next s ∧ exec .activationDeferExpiry s = .next s) ∧
    (∀ a, s.boot.act = some a → a.deferred = true →
      exec .liveActivationResume s = .next s ∧
      (∀ d, emergencyDetail s = some d → exec .activationRetry s =
        .next (s.setBoot { s.boot with act := some { a with deferredMs := a.deferredMs + 100, detail := d } })) ∧
      (emergencyDetail s = none → a.mode = 2 → exec .activationRetry s =
        .next (livePause (s.setBoot { s.boot with act := some { a with deferredMs := a.deferredMs + 100, deferred := false } }))) ∧
      (emergencyDetail s = none → a.mode = 1 → ∃ y data, exec .activationRetry s = .next (finishAct stOk dtNone data y) ∧
        y.boot.act = some { a with deferredMs := a.deferredMs + 100, deferred := false } ∧
        y.boot.record.pendingSlot = (if footing s = false ∧ s.boot.runningSlot = a.slot then 0xFF else a.slot)) ∧
      ∃ y data, exec .activationDeferExpiry s = .next (finishAct stFailed a.detail data y) ∧ y.boot.act = none ∧ y.boot.lastStatus = stFailed ∧
        y.boot.record = s.boot.record) ∧
    (∀ a, s.boot.act = some a → fetchedDone a s = false → exec .liveActivationResume s = .next s) ∧
    (∀ a, s.boot.act = some a → a.mode = 2 → a.deferred = false → s.icp.paused = true → fetchedDone a s = true →
      let y := liveResume a s
      exec .liveActivationResume s = .next (icpWake y) ∧ y.icp.paused = false ∧ y.boot.act = none ∧ y.boot.runningSlot = a.slot ∧
      y.boot.record.activeSlot = a.slot ∧ ∀ e ∈ y.icp.sessions, sessionLives (slotInfo s a.slot) e.2 = true)) ∧
  (∀ (via : Via) (pkt : IcpPkt) (s s0 : State) (c : Ctx), Starts 0x0802 via pkt s c s0 → ∃ data,
    Replied (exec (.fwQuery via pkt) s) c stOk dtNone data s0 ∧ le data 4 1 = s0.boot.runningSlot % 2 ^ 8 ∧ le data 7 1 = s0.boot.record.pendingSlot % 2 ^ 8) ∧
  (∀ (test : Nat) (row : Instr) (via : Via) (pkt : IcpPkt) (s s0 : State) (c : Ctx),
    (test, row) ∈ [(1, Instr.diagStewardSelftest via pkt), (2, .diagSpiFlashRead via pkt), (3, .diagGddr7Training via pkt),
      (4, .diagLinkTraining via pkt), (5, .diagClusterSpareOut via pkt)] →
    Starts 0x0F00 via (withByte 1 (fun _ => 0) (withByte 0 (fun _ => test) pkt)) s c s0 → c.p 0 2 = test →
    let target := c.p 2 2
    let n := max 1 (min 1000 (c.p 4 4))
    let logical := (unitOf s0 target).logical
    diagTargetOk test target = true → (test = 5 → (spareCluster s0).isSome = true) → (∀ d, s0.icp.diag = some d → d.status ≠ 0) →
    diagServed s0 test target = true → ∃ d data,
    let x := drawn (drawn (s0.setIcp { s0.icp with diag := some d }))
    Replied (exec row s) c stOk (okDetail (test != 5 && n != c.p 4 4)) data (if test = 5 ∧ logical < 16 then spareOutCluster logical c.pkt.parity x else x) ∧
    d.test = test ∧ d.target = target ∧ d.status = 0 ∧ (test ≠ 5 → d.iterations = n ∧ d.records = []) ∧ le data 0 4 = d.runId) ∧
  (∀ (via : Via) (pkt : IcpPkt) (s s0 : State) (c : Ctx) (d : Diag), Starts 0x0F01 via pkt s c s0 → s0.icp.diag = some d →
    let recs := d.records.take (253 * 16)
    (d.runId = c.p 0 4 → Replied (exec (.diagResult via pkt) s) c stOk dtNone
      (layout 16 [(0, 4, d.runId), (4, 1, d.status), (6, 2, recs.length / 16)] ++ recs) s0) ∧
    (d.runId ≠ c.p 0 4 → Replied (exec (.diagResult via pkt) s) c stBadHandle (dtField 0) [] s0)) ∧
  (∀ (outcomes : List (Nat × Bool × Nat)) (s : State),
    ((∀ d, s.icp.diag = some d → d.status ≠ 0) → exec (.diagRunEnd outcomes) s = .next s) ∧
    (∀ d, s.icp.diag = some d → d.status = 0 → d.test ≠ 5 →
      let out := diagRecords d outcomes s.draw
      out.length = d.iterations * (diagTargets d.test d.target).length ∧ (∀ o ∈ out, o.1 ∈ diagTargets d.test d.target) ∧
      exec (.diagRunEnd outcomes) s = .next ((s.setIcp { s.icp with
        diag := some { d with status := if out.all (·.2.1) then 1 else 2, records := (out.map diagRecord).flatten } }).setDraw
        (s.draw + 2 * out.length))))

/-- R49, R685 to R692, R695, R697 and R720 to R723. -/
def Obligations.PowerThermalAndPadEvents : Prop :=
  (∀ (mw i occ : Nat) (temps : List (Nat × Nat)) (s : State), loopsRun s = false →
    exec (.packagePowerLoop mw temps) s = .next s ∧ exec (.temperatureLoop temps) s = .next s ∧ exec (.dvfsGovernor i occ) s = .next s) ∧
  (∀ (mw : Nat) (temps : List (Nat × Nat)) (s : State), loopsRun s = true →
    let cap := s.pwr.nextCap.getD s.pwr.capW
    let target := capTarget (s.setPwr { s.pwr with capW := cap }) mw
    (isolated s blkPower = true → exec (.packagePowerLoop mw temps) s = .next (s.setPwr { s.pwr with powerMw := mw, engaged := 0 })) ∧
    (isolated s blkPower = false → ∃ t, exec (.packagePowerLoop mw temps) s = .next t ∧ t.pwr.powerMw = mw ∧ t.pwr.capW = cap ∧ t.pwr.nextCap = none ∧
      t.pwr.fallback = false ∧ t.pwr.engaged = 0 ∧ t.pwr.vddk ≤ 950 ∧ t.pwr.vddq ≤ 850 ∧ (mw ≤ cap * 1000 → t.pwr.capUnmet = false) ∧
      (cap * 1000 < mw → s.pwr.engaged ≤ 10 → pinHeld s = false → ∀ c ∈ clustersUp s, (islandOf s c).hot = false → target ≤ (islandOf t c).point) ∧
      t.mem = s.mem ∧ t.mason = s.mason)) ∧
  (∀ (i v : Nat) (s : State), loopsRun s = true → isolated s blkPower = false → isCluster i = true →
    let x := islandOf s i
    ∃ t, exec (.temperatureLoop [(i, v)]) s = .next t ∧ (∀ j, j ≠ i → islandOf t j = islandOf s j) ∧ t.pwr.hottest = v ∧
      (tempTarget s < v → (islandOf t i).ceiling = min 5 (x.ceiling + 1) ∧ (islandOf t i).cool = 0) ∧
      (v ≤ tempTarget s → v + 24 ≤ tempTarget s → x.cool + 1 < 10 → islandOf t i = { x with cool := x.cool + 1 }) ∧
      (v ≤ tempTarget s → v + 24 ≤ tempTarget s → 9 ≤ x.cool → islandOf t i = { x with ceiling := x.ceiling - 1, cool := 0 } ∧
        (x.ceiling ≠ 0 → t.tel.plog.getLast?.map (fun r => (r.policy, r.reason, r.object, r.old, r.new)) =
          some (5, 5, i, pointMhz x.ceiling, pointMhz (x.ceiling - 1)))) ∧
      (v ≤ tempTarget s → tempTarget s < v + 24 → islandOf t i = { x with cool := 0 })) ∧
  (∀ (i occ : Nat) (s : State), loopsRun s = true → isolated s blkPower = false →
    let x := islandOf s i
    (isCluster i = true → x.hot = false → pinHeld s = false → ∃ t, exec (.dvfsGovernor i occ) s = .next t ∧
      (islandOf t i).point = min 5 (dvfsPoint s i (Config.dvfsWant i occ)) ∧ min 5 (max x.ceiling x.capPoint) ≤ (islandOf t i).point ∧
      (∀ j, j ≠ i → islandOf t j = islandOf s j)) ∧
    (isCluster i = false → isEngine i = true → x.hot = false → ∃ t, exec (.dvfsGovernor i occ) s = .next t ∧
      (islandOf t i).mhz ≤ min x.ceilingMhz x.capMhz ∧ (islandOf t i).mhz ≤ 2000 ∧ (∀ j, j ≠ i → islandOf t j = islandOf s j))) ∧
  (∀ (i : Nat) (s : State),
    let x := islandOf s i
    ((s.boot.inReset = true ∨ allIslands.contains i = false) → exec (.thermalThrottle i) s = .next s) ∧
    (s.boot.inReset = false → allIslands.contains i = true → ∃ t, exec (.thermalThrottle i) s = .next t ∧ (islandOf t i).held = true ∧
      (islandOf t i).hot = true ∧ (isCluster i = true → (islandOf t i).point = min 5 (x.point + 1)) ∧
      (isCluster i = false → (islandOf t i).mhz = x.mhz / 2) ∧ (∀ j, j ≠ i → islandOf t j = islandOf s j) ∧
      cell t blkPower 0x118 = (if x.hot then cell s blkPower 0x118 else (cell s blkPower 0x118 + 1) % 2 ^ 32)) ∧
    (x.hot = false → ∀ b, exec (.hardwareThrottleStep i b) s = .next s) ∧
    (x.hot = true → (∃ t, exec (.hardwareThrottleStep i true) s = .next t ∧ islandOf t i = { x with hot := false }) ∧
      (∃ t, exec (.hardwareThrottleStep i false) s = .next t ∧ (isCluster i = true → (islandOf t i).point = min 5 (x.point + 1)) ∧
        (isCluster i = false → (islandOf t i).mhz = x.mhz / 2) ∧ (islandOf t i).hot = true)) ∧
    ((s.boot.inReset = true ∨ s.pwr.tripped = true) → exec (.thermalTrip i) s = .next s) ∧
    (s.boot.inReset = false → s.pwr.tripped = false → exec (.thermalTrip i) s =
      .next (emit (.pin .thermtripN true) (s.setPwr { s.pwr with tripped := true, trippedIsland := i })) ∧
      ∀ t, exec (.thermalTrip i) s = .next t → clockedIslands t = [0x50])) ∧
  (∀ (n temp : Nat) (s : State),
    (s.boot.inReset = true → exec .currentLimiterEngage s = .next s ∧ exec .fallbackGovernorTakeover s = .next s ∧
      exec (.fallbackGovernorTick n) s = .next s ∧ exec (.diodeRead n temp) s = .next s ∧ (∀ b, exec (.throttleN b) s = .next s)) ∧
    (s.boot.inReset = false → ∃ t, exec .currentLimiterEngage s = .next t ∧ t.pwr.limiter = true ∧ t.pwr.engaged = s.pwr.engaged + 1 ∧
      cell t blkPower 0x114 = (cell s blkPower 0x114 + 1) % 2 ^ 32) ∧
    (∃ t, exec .currentLimiterRelease s = .next t ∧ t.pwr = { s.pwr with limiter := false }) ∧
    (s.pwr.standby = true → exec .fallbackGovernorTakeover s = .next s) ∧
    (s.boot.inReset = false → s.pwr.standby = false → ∃ t, exec .fallbackGovernorTakeover s = .next t ∧ t.pwr = { s.pwr with fallback := true }) ∧
    (s.pwr.fallback = false → exec (.fallbackGovernorTick n) s = .next s) ∧
    (s.pwr.fallback = true → s.boot.inReset = false → s.tel.frozen = false → ∃ t, exec (.fallbackGovernorTick n) s = .next t ∧ t.pwr.powerMw = n ∧
      ∀ c, c < 17 →
        let x := islandOf s c
        (s.pwr.capW * 1000 < n → (islandOf t c).point = min 5 (x.point + 1)) ∧
        (n ≤ s.pwr.capW * 1000 → s.pwr.capW * 900 ≤ n → islandOf t c = x) ∧
        (n < s.pwr.capW * 900 → (x.held = true ∨ pinHeld s = true ∨ x.point ≤ x.fwPoint) → islandOf t c = x) ∧
        (n < s.pwr.capW * 900 → x.held = false → pinHeld s = false → x.fwPoint < x.point → (islandOf t c).point = min 5 (x.point - 1))) ∧
    (s.boot.inReset = false → ∃ t, exec (.diodeRead n temp) s = .next t ∧ t.pwr.diodeState = (if n < 250 then 2 else if 850 < n then 1 else 0) ∧
      t.pwr.diodeTemp = (if 250 ≤ n ∧ n ≤ 850 then temp else s.pwr.diodeTemp) ∧
      ((s.pwr.diodeState ≠ 0 ∨ (250 ≤ n ∧ n ≤ 850)) → t.course = s.course)) ∧
    (s.boot.inReset = false → (∃ t, exec (.throttleN true) s = .next t ∧ t.pwr.throttlePin = true ∧
        (s.pwr.throttlePin = false → ∀ c, c < 17 → (islandOf t c).point = 5 ∧ (islandOf t c).mhz = 400)) ∧
      ∃ t, exec (.throttleN false) s = .next t ∧ t.pwr.throttlePin = false) ∧
    ((running s = false ∨ standbyReady s = false) → exec .standbyEntry s = .next s) ∧
    (running s = true → standbyReady s = true → ∃ t, exec .standbyEntry s = .next t ∧ t.pwr = { s.pwr with standby := true, fallback := false })) ∧
  (∀ (i : Nat) (on : Bool) (s : State),
    let x := inputOf s i
    let settles := fun (r : Ran) => ∃ t, r = .next t ∧ (inputOf t i).active = on ∧ (inputOf t i).due = false ∧
      (x.active ≠ on → (inputOf t i).recorded = true ∧ (inputOf t i).lastEvent = nowAon s)
    ((22 < i ∨ s.boot.inReset = true) → exec (.inputChange i on) s = .next s ∧ exec (.inputGlitch i) s = .next s) ∧
    (i ≤ 22 → s.boot.inReset = false →
      (x.recorded = true → nowAon s < x.lastEvent + 10000 → exec (.inputChange i on) s = .next (bump blkGlobal 0x154 (setInput i { x with due := true } s))) ∧
      ((x.recorded = false ∨ x.lastEvent + 10000 ≤ nowAon s) → settles (exec (.inputChange i on) s)) ∧
      exec (.inputGlitch i) s = .next (bump blkGlobal 0x150 s)) ∧
    ((x.due = false ∨ s.boot.inReset = true) → exec (.inputRateReread i on) s = .next s) ∧
    (x.due = true → s.boot.inReset = false → settles (exec (.inputRateReread i on) s)) ∧
    ((22 < i ∨ x.active = false ∨ x.stuck = true) → exec (.inputStuck i) s = .next s) ∧
    (i ≤ 22 → x.active = true → x.stuck = false → exec (.inputStuck i) s = .next (logPolicy 0x50 0 4 i 0 1 (setInput i { x with stuck := true } s))) ∧
    ((x.stuck = false ∨ x.active = true) → exec (.inputUnstuck i) s = .next s) ∧
    (x.stuck = true → x.active = false → exec (.inputUnstuck i) s = .next (setInput i { x with stuck := false } s))) ∧
  (∀ (g : Nat) (s : State),
    (((tamperInput s).active = true) → ∀ on, ∃ t, exec (.tamperN on) s = .next t ∧ t = s.setPins t.pins ∧ (tamperInput t).active = on) ∧
    ((tamperInput s).active = false → ∃ t, exec (.tamperN true) s = .next t ∧ (tamperInput t).active = true ∧ t.sec.alarm.testBit 0 = true ∧
      t.sec.identity = false) ∧
    ((5 < g ∨ s.boot.inReset = true) → exec (.padContention g) s = .next s) ∧
    (g ≤ 5 → s.boot.inReset = false → ∃ t, exec (.padContention g) s = .next t ∧ (cell t blkGlobal 0x168).testBit g = true ∧
      cell t blkGlobal 0x164 = (cell s blkGlobal 0x164 + 1) % 2 ^ 32 ∧ t.pins = s.pins) ∧
    (s.boot.inReset = true → exec .pwrOkFall s = .next s) ∧
    (s.boot.inReset = false → ∃ t, exec .pwrOkFall s = .next t ∧ t.boot = { s.boot with inReset := true } ∧ t.mem = s.mem ∧
      (faultAsserted s = true → .pin .faultN false ∈ t.out)))

/-- R52, R53, R58 to R66, R72 and R86. -/
def Obligations.RingsAndPortsTakeTheirPackets : Prop :=
  (∀ (k index : Nat) (slots : Option (List IcpSlot)) (s : State),
    let r := ringOf s k
    (ringThere s k = false → exec (.cmdTail k index slots) s = .next s ∧ exec (.rplHead k index) s = .next s ∧
      exec (.icpRingEnable k) s = .next s ∧ exec (.icpRingDisable k) s = .next s) ∧
    (ringThere s k = true →
      (2 ^ r.cmdLog2 ≤ index → ∃ t, exec (.cmdTail k index slots) s = .next t ∧ (ringOf t k).dbErr = true ∧
        t.icp.dbInvalid = (s.icp.dbInvalid + 1) % 2 ^ 32 ∧ (ringOf t k).unread = r.unread) ∧
      (index < 2 ^ r.cmdLog2 →
        (∀ l, slots = some l → exec (.cmdTail k index slots) s =
          .next (icpWake (setRing k { r with cmdTail := index, unread := slotsTo s k index l } s)) ∧
          (slotsTo s k index l).length = (index + 2 ^ r.cmdLog2 - r.cmdHead) % 2 ^ r.cmdLog2 ∧
          ∀ i, i < (slotsTo s k index l).length → ∃ x : IcpSlot, (slotsTo s k index l)[i]? = some (icpPkt false x) ∧
            (isAccel k = true → x.bytes = accelSlot s k ((r.cmdHead + i) % 2 ^ r.cmdLog2)) ∧
            (isAccel k = false → i < l.length → l[i]? = some x)) ∧
        (slots = none → exec (.cmdTail k index slots) s =
          .next (setRing k { r with cmdTail := index, unread := [], ringErr := r.ringErr || r.enable } s))) ∧
      (2 ^ r.rplLog2 ≤ index → ∃ t, exec (.rplHead k index) s = .next t ∧ (ringOf t k).dbErr = true ∧ (ringOf t k).rplUsed = r.rplUsed) ∧
      (index < 2 ^ r.rplLog2 → exec (.rplHead k index) s = .next (icpWake (setRing k { r with
        rplHead := index, rplUsed := r.rplUsed - (index + 2 ^ r.rplLog2 - r.rplHead) % 2 ^ r.rplLog2 } s))) ∧
      (isAccel k = false →
        exec (.icpRingEnable k) s = .next (icpWake (setRing k { r with
          enable := true, draining := false, ready := r.ready || transportServed s (viaOf k) } s)) ∧
        (r.enable = true → exec (.icpRingDisable k) s = .next (icpWake (setRing k { r with enable := false, draining := true } s))) ∧
        (r.enable = false → exec (.icpRingDisable k) s = .next (icpWake s))))) ∧
  (∀ (n : Nat) (sl : IcpSlot) (f : MgmtFrag) (pkt : IcpPkt) (s : State) (via : Via) (row : Instr),
    (via = .mgmt n ∧ row = .managementDatagram n f ∧ f.slot = sl ∧ f.port = 7141 ∧ f.offset = 0 ∧ f.more = false ∧ sl.bytes.length ≤ 4096 ∧
      has s.icp.frags (n, f.v6, f.ident) = false ∧ pkt = icpPkt true sl) ∨
    (via = .mctp n ∧ row = .mctpMessage n ⟨0x7E, 0x1F6D, sl⟩ ∧ pkt = icpPkt false sl) →
    let x := touchSession via s
    (transportServed s via = false → Onward (exec row s) s) ∧
    (transportServed s via = true → s.icp.paused = true → via = .mgmt n →
      Onward (exec row s) (s.setIcp { s.icp with datagramDrops := s.icp.datagramDrops + 1 })) ∧
    (transportServed s via = true → s.icp.paused = false →
      (∀ r, keptReply s via pkt.tag = some r → Onward (exec row s) (sendPacket via r x)) ∧
      (keptReply s via pkt.tag = none → mustHold x via pkt = true → Onward (exec row s) (x.setIcp { x.icp with behind := x.icp.behind ++ [(via, pkt)] })) ∧
      (keptReply s via pkt.tag = none → mustHold x via pkt = false → ∀ st d, icpCheck pkt.opcode via pkt x = some (st, d) →
        Onward (exec row s) (sendReply pkt.opcode via pkt st d [] x))) ∧
    (∀ s0 c st d data y, Starts pkt.opcode via pkt s c s0 → handlerOf pkt.opcode c s0 = .reply y st d data → Replied (exec row s) c st d data y) ∧
    (∀ s0 c dt data y, Starts pkt.opcode via pkt s c s0 → handlerOf pkt.opcode c s0 = .later y dt data → Onward (exec row s) y)) ∧
  (∀ (n : Nat) (f : MgmtFrag) (s : State),
    let key := (n, f.v6, f.ident)
    let parts := (lookD s.icp.frags key {}).add f
    ((f.port ≠ 7141 ∨ transportServed s (.mgmt n) = false) → Onward (exec (.managementDatagram n f) s) s) ∧
    (f.port = 7141 → transportServed s (.mgmt n) = true →
      (s.icp.paused = true → f.offset ≠ 0 → Onward (exec (.managementDatagram n f) s) s) ∧
      (s.icp.paused = false →
        (parts.payload = none → Onward (exec (.managementDatagram n f) s) (s.setIcp { s.icp with frags := put s.icp.frags key parts })) ∧
        (∀ bs, parts.payload = some bs →
          let y := s.setIcp { s.icp with frags := del s.icp.frags key }
          (4096 < bs.length → Onward (exec (.managementDatagram n f) s) y) ∧
          (bs.length ≤ 4096 → Onward (exec (.managementDatagram n f) s) (acceptPkt (.mgmt n) (icpPkt true { f.slot with bytes := bs }) y)))))) ∧
  (∀ (a b : Bytes) (f g : MgmtFrag), f.offset = 0 → f.more = true → f.slot.bytes = a → g.offset = a.length → g.more = false → g.slot.bytes = b → a ≠ [] →
    ((FragSet.add {} f).payload = none ∧ ((FragSet.add {} f).add g).payload = some (a ++ b)) ∧
    ((FragSet.add {} g).payload = none ∧ ((FragSet.add {} g).add f).payload = some (a ++ b))) ∧
  (∀ (n type vendor : Nat) (x : IcpSlot) (s : State), ¬ (type = 0x7E ∧ vendor = 0x1F6D) → Onward (exec (.mctpMessage n ⟨type, vendor, x⟩) s) s) ∧
  (∀ (n : Nat) (x : IcpSlot) (s : State), (icpPkt false x).opcode = 0x0100 →
    exec (.mctpMessage n ⟨0x7E, 0x1F6D, x⟩) s = exec (.getIdentity (.mctp n) (icpPkt false x)) s) ∧
  (∀ (n : Nat) (f : MgmtFrag) (s : State), f.port = 7141 → f.offset = 0 → f.more = false → f.slot.bytes.length ≤ 4096 →
    has s.icp.frags (n, f.v6, f.ident) = false → (icpPkt true f.slot).opcode = 0x0100 →
    exec (.managementDatagram n f) s = exec (.getIdentity (.mgmt n) (icpPkt true f.slot)) s)

/-- The queue is the model's own; the island counters are R635's. -/
def Obligations.StepRunsTheFrontCommand : Prop :=
  (∀ (c : Instr) (rest : List Instr) (s : State), s.pending = c :: rest → step s = exec c (s.setPending rest)) ∧
  (∀ s : State, s.pending = [] → step s = .next (tick s)) ∧
  (∀ (s : State) (isl : Nat), isl ∈ clockedIslands s →
    now ((clockedIslands s).foldl tickIsland s) isl = now s isl + Config.tickNs isl s.draw) ∧
  (∀ (c : Instr) (s : State), ∃ t, exec c s = .next t) ∧ (∀ s : State, ∃ t, step s = .next t)

/-- R134, R135, R196, R621, R635, R637, R665 and R680; generation 1 is log 6. -/
def Obligations.ResetHoldsTheStatedValues : Prop :=
  let s := State.reset
  s.pending = [] ∧ memOk s ∧ s.mem.cells = [] ∧ (∀ i, now s i = 0) ∧
  (∀ b, (errOf s b).valid = false ∧ (errOf s b).cls = 0 ∧ (errOf s b).ms = 20 ∧ (errOf s b).corSilent = false ∧ errOk (errOf s b)) ∧
  (∀ b n, (perfOf s b n).enable = false ∧ (perfOf s b n).count = 0) ∧
  csrRead s (blkBase blkTable + 0x10000) = 0x80000064 ∧ csrRead s (blkBase blkTable + 0x10004) = 0x2004 ∧
  csrRead s (blkBase blkTable + 0x10008) = 0x0A05 ∧ csrRead s (blkBase blkTable + 0x1000C) = 16 ∧
  (∀ n, n < 6 → csrRead s (blkBase (blkMc n) + 0x10C) = 4 ∧ csrRead s (blkBase (blkMc n) + 0x114) = 0x80000018) ∧
  (∀ p, p < 17 → csrRead s (blkBase (blkCluster p) + 0x128) = 256) ∧ csrRead s (blkBase blkGlobal + 0x108) = 3 ∧
  (∀ b, b ≤ 60 → csrRead s (blkBase b) = blkIsland b * 2 ^ 24 + b) ∧
  s.boot.inReset = true ∧ running s = false ∧ s.icp.sessions = [] ∧ s.tab.tbls = [] ∧ s.grt.conns = [] ∧ s.sto.ns = [] ∧ s.tel.frozen = false ∧
  faultAsserted s = false ∧ (∀ f, f < 6 → (fnD s f).gen = 1)

/-- The invariant of custody memory over every row of the opcode table and the tick. -/
def Obligations.EveryStepKeepsMemoryCanonical : Prop :=
  (∀ s t : State, memOk s → step s = .next t → memOk t) ∧
  (∀ (c : Instr) (s t : State), memOk s → exec c s = .next t → memOk t) ∧
  (∀ m m' : List Host.Cell, Memory.wf m = true → Memory.wf m' = true → (∀ a, memGet m a = memGet m' a) → m = m')
end

