-- ==== Sys2Proof/Laws/Memory.lean ====
section
/-! SUPPORT. The laws of custody memory's contents: a byte read after a write, and that every operation on the contents keeps their canonical form. -/

namespace Sys2Proof.Machine

open Sys2Proof

/-- The canonical form, as a sorted list without default entries. -/
theorem Memory.wf_iff (m : List Host.Cell) :
    Memory.wf m = true ↔ m.Pairwise (fun a b => a.1 < b.1) ∧ ∀ c ∈ m, c.2 ≠ memDefault := by
  induction m with
  | nil => simp [Memory.wf]
  | cons x r ih =>
    obtain ⟨a, v⟩ := x
    cases r with
    | nil => simp [Memory.wf]
    | cons y r =>
      obtain ⟨b, w⟩ := y
      simp only [Memory.wf, Bool.and_eq_true, decide_eq_true_eq, ih, List.pairwise_cons, List.mem_cons, forall_eq_or_imp]
      constructor
      · rintro ⟨⟨hv, hab⟩, ⟨hb, hr⟩, hw, hd⟩
        exact ⟨⟨⟨hab, fun c hc => lt_trans hab (hb c hc)⟩, hb, hr⟩, hv, hw, hd⟩
      · rintro ⟨⟨⟨hab, _⟩, hb, hr⟩, hv, hw, hd⟩
        exact ⟨⟨hv, hab⟩, ⟨hb, hr⟩, hw, hd⟩

theorem Memory.wf_nil : Memory.wf [] = true := rfl

/-- Entries left out keep the form. -/
theorem Memory.wf_filter (p : Host.Cell → Bool) {m : List Host.Cell} (h : Memory.wf m = true) : Memory.wf (m.filter p) = true := by
  rw [Memory.wf_iff] at *
  exact ⟨h.1.filter p, fun c hc => h.2 c (List.mem_of_mem_filter hc)⟩

theorem mem_memPut {m : List Host.Cell} {a : Nat} {v : Byte} {c : Host.Cell} (h : c ∈ memPut m a v) : c = (a, v) ∨ c ∈ m := by
  induction m with
  | nil =>
    by_cases hv : v = memDefault
    · simp [memPut, hv] at h
    · exact .inl (by simpa [memPut, hv] using h)
  | cons x r ih =>
    obtain ⟨k, w⟩ := x
    simp only [memPut] at h
    split at h
    · split at h
      · exact .inr h
      · rcases List.mem_cons.1 h with rfl | h
        · exact .inl rfl
        · exact .inr h
    · split at h
      · split at h
        · exact .inr (List.mem_cons_of_mem _ h)
        · rcases List.mem_cons.1 h with rfl | h
          · exact .inl rfl
          · exact .inr (List.mem_cons_of_mem _ h)
      · rcases List.mem_cons.1 h with rfl | h
        · exact .inr List.mem_cons_self
        · exact (ih h).imp_right (List.mem_cons_of_mem _)

/-- A byte written keeps the form. -/
theorem Memory.wf_memPut {m : List Host.Cell} (a : Nat) (v : Byte) (h : Memory.wf m = true) : Memory.wf (memPut m a v) = true := by
  rw [Memory.wf_iff] at *
  induction m with
  | nil =>
    by_cases hv : v = memDefault
    · simp [memPut, hv]
    · simp [memPut, hv]
  | cons x r ih =>
    obtain ⟨k, w⟩ := x
    obtain ⟨hp, hd⟩ := h
    have hkr := (List.pairwise_cons.1 hp).1
    have hr := (List.pairwise_cons.1 hp).2
    have hdr : ∀ c ∈ r, c.2 ≠ memDefault := fun c hc => hd c (List.mem_cons_of_mem _ hc)
    simp only [memPut]
    split
    case isTrue hak =>
      split
      case isTrue => exact ⟨hp, hd⟩
      case isFalse hv =>
        refine ⟨List.pairwise_cons.2 ⟨fun c hc => ?_, hp⟩, fun c hc => ?_⟩
        · rcases List.mem_cons.1 hc with rfl | hc
          · exact hak
          · exact lt_trans hak (hkr c hc)
        · rcases List.mem_cons.1 hc with rfl | hc
          · exact hv
          · exact hd c hc
    case isFalse hak =>
      split
      case isTrue hk =>
        subst hk
        split
        case isTrue => exact ⟨hr, hdr⟩
        case isFalse hv =>
          refine ⟨List.pairwise_cons.2 ⟨hkr, hr⟩, fun c hc => ?_⟩
          rcases List.mem_cons.1 hc with rfl | hc
          · exact hv
          · exact hdr c hc
      case isFalse hk =>
        obtain ⟨h1, h2⟩ := ih ⟨hr, hdr⟩
        refine ⟨List.pairwise_cons.2 ⟨fun c hc => ?_, h1⟩, fun c hc => ?_⟩
        · rcases mem_memPut hc with rfl | hc
          · show k < a; omega
          · exact hkr c hc
        · rcases List.mem_cons.1 hc with rfl | hc
          · exact hd _ List.mem_cons_self
          · exact h2 c hc

/-- A run of bytes written keeps the form. -/
theorem Memory.wf_memPutBytes {m : List Host.Cell} (a : Nat) (bs : Bytes) (h : Memory.wf m = true) :
    Memory.wf (memPutBytes m a bs) = true := by
  induction bs generalizing m a with
  | nil => exact h
  | cons b r ih => exact ih _ (Memory.wf_memPut a b h)

/-- A range zeroed keeps the form. -/
theorem Memory.wf_memZero {m : List Host.Cell} (a n : Nat) (h : Memory.wf m = true) : Memory.wf (memZero m a n) = true :=
  Memory.wf_filter _ h

theorem Memory.wf_foldl_memPut (l : List Host.Cell) {m : List Host.Cell} (h : Memory.wf m = true) :
    Memory.wf (l.foldl (fun acc c => memPut acc c.1 c.2) m) = true := by
  induction l generalizing m with
  | nil => exact h
  | cons c r ih => exact ih (Memory.wf_memPut _ _ h)

/-- A range copied keeps the form. -/
theorem Memory.wf_memCopy {m : List Host.Cell} (src dst n : Nat) (h : Memory.wf m = true) : Memory.wf (memCopy m src dst n) = true :=
  Memory.wf_foldl_memPut _ (Memory.wf_memZero dst n h)

theorem memGet_of_lt {m : List Host.Cell} {a : Nat} (h : ∀ c ∈ m, a < c.1) : memGet m a = memDefault := by
  induction m with
  | nil => rfl
  | cons x r ih =>
    have := h x List.mem_cons_self
    rw [memGet, if_neg (by omega)]
    exact ih (fun c hc => h c (List.mem_cons_of_mem _ hc))

/-- A read after a write of one byte: the byte written at its address, and every other byte as before. -/
theorem memGet_memPut {m : List Host.Cell} (h : Memory.wf m = true) (a b : Nat) (v : Byte) :
    memGet (memPut m a v) b = if b = a then v else memGet m b := by
  rw [Memory.wf_iff] at h
  induction m with
  | nil => by_cases hv : v = memDefault <;> by_cases hb : b = a <;> simp [memPut, memGet, hv, hb]
  | cons x r ih =>
    obtain ⟨k, w⟩ := x
    obtain ⟨hp, hd⟩ := h
    have hkr := (List.pairwise_cons.1 hp).1
    have hr := (List.pairwise_cons.1 hp).2
    have hdr : ∀ c ∈ r, c.2 ≠ memDefault := fun c hc => hd c (List.mem_cons_of_mem _ hc)
    have hrk : memGet r k = memDefault := memGet_of_lt hkr
    simp only [memPut]
    split
    case isTrue hak =>
      split
      case isTrue hv =>
        by_cases hb : b = a
        · subst hb
          rw [if_pos rfl, hv]
          refine memGet_of_lt (fun c hc => ?_)
          rcases List.mem_cons.1 hc with rfl | hc
          · exact hak
          · exact lt_trans hak (hkr c hc)
        · rw [if_neg hb]
      case isFalse hv => rw [memGet]
    case isFalse hak =>
      split
      case isTrue hk =>
        subst hk
        split
        case isTrue hv =>
          by_cases hb : b = a
          · subst hb; rw [if_pos rfl, hrk, hv]
          · rw [if_neg hb, memGet, if_neg hb]
        case isFalse hv =>
          by_cases hb : b = a <;> simp [memGet, hb]
      case isFalse hk =>
        rw [memGet, memGet, ih ⟨hr, hdr⟩]
        by_cases hb : b = k
        · subst hb; simp [Ne.symm hk]
        · simp [hb]

/-- A read after a run of bytes written. -/
theorem memGet_memPutBytes {m : List Host.Cell} (h : Memory.wf m = true) (a b : Nat) (bs : Bytes) :
    memGet (memPutBytes m a bs) b = if a ≤ b ∧ b < a + bs.length then (bs[b - a]?).getD 0 else memGet m b := by
  induction bs generalizing m a with
  | nil => rw [memPutBytes, if_neg (by simp only [List.length_nil]; omega)]
  | cons x r ih =>
    rw [memPutBytes, ih (Memory.wf_memPut a x h), memGet_memPut h]
    by_cases h1 : b = a
    · subst h1
      rw [if_neg (by omega), if_pos rfl, if_pos (by simp)]
      simp
    · by_cases h2 : a + 1 ≤ b ∧ b < a + 1 + r.length
      · rw [if_pos h2, if_pos (by simp; omega)]
        obtain ⟨k, hk⟩ : ∃ k, b - a = k + 1 := ⟨b - a - 1, by omega⟩
        rw [hk, List.getElem?_cons_succ, show b - (a + 1) = k by omega]
      · rw [if_neg h2, if_neg h1, if_neg (by simp; omega)]

end Sys2Proof.Machine
end

