-- ==== Sys2Proof/Laws/State.lean ====
section
/-! SUPPORT. What every update of one field of the state leaves of every field: one lemma per field per update, each true by unfolding. -/

namespace Sys2Proof.Machine

@[simp] theorem State.setDraw_draw (s : State) (v : Nat) : (State.setDraw s v).draw = v := rfl
@[simp] theorem State.setDraw_time (s : State) (v : Nat) : (State.setDraw s v).time = s.time := rfl
@[simp] theorem State.setDraw_out (s : State) (v : Nat) : (State.setDraw s v).out = s.out := rfl
@[simp] theorem State.setDraw_pending (s : State) (v : Nat) : (State.setDraw s v).pending = s.pending := rfl
@[simp] theorem State.setDraw_csr (s : State) (v : Nat) : (State.setDraw s v).csr = s.csr := rfl
@[simp] theorem State.setDraw_err (s : State) (v : Nat) : (State.setDraw s v).err = s.err := rfl
@[simp] theorem State.setDraw_perf (s : State) (v : Nat) : (State.setDraw s v).perf = s.perf := rfl
@[simp] theorem State.setDraw_tel (s : State) (v : Nat) : (State.setDraw s v).tel = s.tel := rfl
@[simp] theorem State.setDraw_icp (s : State) (v : Nat) : (State.setDraw s v).icp = s.icp := rfl
@[simp] theorem State.setDraw_rings (s : State) (v : Nat) : (State.setDraw s v).rings = s.rings := rfl
@[simp] theorem State.setDraw_fns (s : State) (v : Nat) : (State.setDraw s v).fns = s.fns := rfl
@[simp] theorem State.setDraw_ports (s : State) (v : Nat) : (State.setDraw s v).ports = s.ports := rfl
@[simp] theorem State.setDraw_mem (s : State) (v : Nat) : (State.setDraw s v).mem = s.mem := rfl
@[simp] theorem State.setDraw_boot (s : State) (v : Nat) : (State.setDraw s v).boot = s.boot := rfl
@[simp] theorem State.setDraw_pwr (s : State) (v : Nat) : (State.setDraw s v).pwr = s.pwr := rfl
@[simp] theorem State.setDraw_pins (s : State) (v : Nat) : (State.setDraw s v).pins = s.pins := rfl
@[simp] theorem State.setDraw_tab (s : State) (v : Nat) : (State.setDraw s v).tab = s.tab := rfl
@[simp] theorem State.setDraw_course (s : State) (v : Nat) : (State.setDraw s v).course = s.course := rfl
@[simp] theorem State.setDraw_elastic (s : State) (v : Nat) : (State.setDraw s v).elastic = s.elastic := rfl
@[simp] theorem State.setDraw_mason (s : State) (v : Nat) : (State.setDraw s v).mason = s.mason := rfl
@[simp] theorem State.setDraw_sec (s : State) (v : Nat) : (State.setDraw s v).sec = s.sec := rfl
@[simp] theorem State.setDraw_pages (s : State) (v : Nat) : (State.setDraw s v).pages = s.pages := rfl
@[simp] theorem State.setDraw_sto (s : State) (v : Nat) : (State.setDraw s v).sto = s.sto := rfl
@[simp] theorem State.setDraw_grt (s : State) (v : Nat) : (State.setDraw s v).grt = s.grt := rfl
@[simp] theorem State.setDraw_pp (s : State) (v : Nat) : (State.setDraw s v).pp = s.pp := rfl

@[simp] theorem State.setTime_draw (s : State) (v : List (Nat × Nat)) : (State.setTime s v).draw = s.draw := rfl
@[simp] theorem State.setTime_time (s : State) (v : List (Nat × Nat)) : (State.setTime s v).time = v := rfl
@[simp] theorem State.setTime_out (s : State) (v : List (Nat × Nat)) : (State.setTime s v).out = s.out := rfl
@[simp] theorem State.setTime_pending (s : State) (v : List (Nat × Nat)) : (State.setTime s v).pending = s.pending := rfl
@[simp] theorem State.setTime_csr (s : State) (v : List (Nat × Nat)) : (State.setTime s v).csr = s.csr := rfl
@[simp] theorem State.setTime_err (s : State) (v : List (Nat × Nat)) : (State.setTime s v).err = s.err := rfl
@[simp] theorem State.setTime_perf (s : State) (v : List (Nat × Nat)) : (State.setTime s v).perf = s.perf := rfl
@[simp] theorem State.setTime_tel (s : State) (v : List (Nat × Nat)) : (State.setTime s v).tel = s.tel := rfl
@[simp] theorem State.setTime_icp (s : State) (v : List (Nat × Nat)) : (State.setTime s v).icp = s.icp := rfl
@[simp] theorem State.setTime_rings (s : State) (v : List (Nat × Nat)) : (State.setTime s v).rings = s.rings := rfl
@[simp] theorem State.setTime_fns (s : State) (v : List (Nat × Nat)) : (State.setTime s v).fns = s.fns := rfl
@[simp] theorem State.setTime_ports (s : State) (v : List (Nat × Nat)) : (State.setTime s v).ports = s.ports := rfl
@[simp] theorem State.setTime_mem (s : State) (v : List (Nat × Nat)) : (State.setTime s v).mem = s.mem := rfl
@[simp] theorem State.setTime_boot (s : State) (v : List (Nat × Nat)) : (State.setTime s v).boot = s.boot := rfl
@[simp] theorem State.setTime_pwr (s : State) (v : List (Nat × Nat)) : (State.setTime s v).pwr = s.pwr := rfl
@[simp] theorem State.setTime_pins (s : State) (v : List (Nat × Nat)) : (State.setTime s v).pins = s.pins := rfl
@[simp] theorem State.setTime_tab (s : State) (v : List (Nat × Nat)) : (State.setTime s v).tab = s.tab := rfl
@[simp] theorem State.setTime_course (s : State) (v : List (Nat × Nat)) : (State.setTime s v).course = s.course := rfl
@[simp] theorem State.setTime_elastic (s : State) (v : List (Nat × Nat)) : (State.setTime s v).elastic = s.elastic := rfl
@[simp] theorem State.setTime_mason (s : State) (v : List (Nat × Nat)) : (State.setTime s v).mason = s.mason := rfl
@[simp] theorem State.setTime_sec (s : State) (v : List (Nat × Nat)) : (State.setTime s v).sec = s.sec := rfl
@[simp] theorem State.setTime_pages (s : State) (v : List (Nat × Nat)) : (State.setTime s v).pages = s.pages := rfl
@[simp] theorem State.setTime_sto (s : State) (v : List (Nat × Nat)) : (State.setTime s v).sto = s.sto := rfl
@[simp] theorem State.setTime_grt (s : State) (v : List (Nat × Nat)) : (State.setTime s v).grt = s.grt := rfl
@[simp] theorem State.setTime_pp (s : State) (v : List (Nat × Nat)) : (State.setTime s v).pp = s.pp := rfl

@[simp] theorem State.setOut_draw (s : State) (v : List Out) : (State.setOut s v).draw = s.draw := rfl
@[simp] theorem State.setOut_time (s : State) (v : List Out) : (State.setOut s v).time = s.time := rfl
@[simp] theorem State.setOut_out (s : State) (v : List Out) : (State.setOut s v).out = v := rfl
@[simp] theorem State.setOut_pending (s : State) (v : List Out) : (State.setOut s v).pending = s.pending := rfl
@[simp] theorem State.setOut_csr (s : State) (v : List Out) : (State.setOut s v).csr = s.csr := rfl
@[simp] theorem State.setOut_err (s : State) (v : List Out) : (State.setOut s v).err = s.err := rfl
@[simp] theorem State.setOut_perf (s : State) (v : List Out) : (State.setOut s v).perf = s.perf := rfl
@[simp] theorem State.setOut_tel (s : State) (v : List Out) : (State.setOut s v).tel = s.tel := rfl
@[simp] theorem State.setOut_icp (s : State) (v : List Out) : (State.setOut s v).icp = s.icp := rfl
@[simp] theorem State.setOut_rings (s : State) (v : List Out) : (State.setOut s v).rings = s.rings := rfl
@[simp] theorem State.setOut_fns (s : State) (v : List Out) : (State.setOut s v).fns = s.fns := rfl
@[simp] theorem State.setOut_ports (s : State) (v : List Out) : (State.setOut s v).ports = s.ports := rfl
@[simp] theorem State.setOut_mem (s : State) (v : List Out) : (State.setOut s v).mem = s.mem := rfl
@[simp] theorem State.setOut_boot (s : State) (v : List Out) : (State.setOut s v).boot = s.boot := rfl
@[simp] theorem State.setOut_pwr (s : State) (v : List Out) : (State.setOut s v).pwr = s.pwr := rfl
@[simp] theorem State.setOut_pins (s : State) (v : List Out) : (State.setOut s v).pins = s.pins := rfl
@[simp] theorem State.setOut_tab (s : State) (v : List Out) : (State.setOut s v).tab = s.tab := rfl
@[simp] theorem State.setOut_course (s : State) (v : List Out) : (State.setOut s v).course = s.course := rfl
@[simp] theorem State.setOut_elastic (s : State) (v : List Out) : (State.setOut s v).elastic = s.elastic := rfl
@[simp] theorem State.setOut_mason (s : State) (v : List Out) : (State.setOut s v).mason = s.mason := rfl
@[simp] theorem State.setOut_sec (s : State) (v : List Out) : (State.setOut s v).sec = s.sec := rfl
@[simp] theorem State.setOut_pages (s : State) (v : List Out) : (State.setOut s v).pages = s.pages := rfl
@[simp] theorem State.setOut_sto (s : State) (v : List Out) : (State.setOut s v).sto = s.sto := rfl
@[simp] theorem State.setOut_grt (s : State) (v : List Out) : (State.setOut s v).grt = s.grt := rfl
@[simp] theorem State.setOut_pp (s : State) (v : List Out) : (State.setOut s v).pp = s.pp := rfl

@[simp] theorem State.setPending_draw (s : State) (v : List Instr) : (State.setPending s v).draw = s.draw := rfl
@[simp] theorem State.setPending_time (s : State) (v : List Instr) : (State.setPending s v).time = s.time := rfl
@[simp] theorem State.setPending_out (s : State) (v : List Instr) : (State.setPending s v).out = s.out := rfl
@[simp] theorem State.setPending_pending (s : State) (v : List Instr) : (State.setPending s v).pending = v := rfl
@[simp] theorem State.setPending_csr (s : State) (v : List Instr) : (State.setPending s v).csr = s.csr := rfl
@[simp] theorem State.setPending_err (s : State) (v : List Instr) : (State.setPending s v).err = s.err := rfl
@[simp] theorem State.setPending_perf (s : State) (v : List Instr) : (State.setPending s v).perf = s.perf := rfl
@[simp] theorem State.setPending_tel (s : State) (v : List Instr) : (State.setPending s v).tel = s.tel := rfl
@[simp] theorem State.setPending_icp (s : State) (v : List Instr) : (State.setPending s v).icp = s.icp := rfl
@[simp] theorem State.setPending_rings (s : State) (v : List Instr) : (State.setPending s v).rings = s.rings := rfl
@[simp] theorem State.setPending_fns (s : State) (v : List Instr) : (State.setPending s v).fns = s.fns := rfl
@[simp] theorem State.setPending_ports (s : State) (v : List Instr) : (State.setPending s v).ports = s.ports := rfl
@[simp] theorem State.setPending_mem (s : State) (v : List Instr) : (State.setPending s v).mem = s.mem := rfl
@[simp] theorem State.setPending_boot (s : State) (v : List Instr) : (State.setPending s v).boot = s.boot := rfl
@[simp] theorem State.setPending_pwr (s : State) (v : List Instr) : (State.setPending s v).pwr = s.pwr := rfl
@[simp] theorem State.setPending_pins (s : State) (v : List Instr) : (State.setPending s v).pins = s.pins := rfl
@[simp] theorem State.setPending_tab (s : State) (v : List Instr) : (State.setPending s v).tab = s.tab := rfl
@[simp] theorem State.setPending_course (s : State) (v : List Instr) : (State.setPending s v).course = s.course := rfl
@[simp] theorem State.setPending_elastic (s : State) (v : List Instr) : (State.setPending s v).elastic = s.elastic := rfl
@[simp] theorem State.setPending_mason (s : State) (v : List Instr) : (State.setPending s v).mason = s.mason := rfl
@[simp] theorem State.setPending_sec (s : State) (v : List Instr) : (State.setPending s v).sec = s.sec := rfl
@[simp] theorem State.setPending_pages (s : State) (v : List Instr) : (State.setPending s v).pages = s.pages := rfl
@[simp] theorem State.setPending_sto (s : State) (v : List Instr) : (State.setPending s v).sto = s.sto := rfl
@[simp] theorem State.setPending_grt (s : State) (v : List Instr) : (State.setPending s v).grt = s.grt := rfl
@[simp] theorem State.setPending_pp (s : State) (v : List Instr) : (State.setPending s v).pp = s.pp := rfl

@[simp] theorem State.setCsr_draw (s : State) (v : List (Nat × CsrWord)) : (State.setCsr s v).draw = s.draw := rfl
@[simp] theorem State.setCsr_time (s : State) (v : List (Nat × CsrWord)) : (State.setCsr s v).time = s.time := rfl
@[simp] theorem State.setCsr_out (s : State) (v : List (Nat × CsrWord)) : (State.setCsr s v).out = s.out := rfl
@[simp] theorem State.setCsr_pending (s : State) (v : List (Nat × CsrWord)) : (State.setCsr s v).pending = s.pending := rfl
@[simp] theorem State.setCsr_csr (s : State) (v : List (Nat × CsrWord)) : (State.setCsr s v).csr = v := rfl
@[simp] theorem State.setCsr_err (s : State) (v : List (Nat × CsrWord)) : (State.setCsr s v).err = s.err := rfl
@[simp] theorem State.setCsr_perf (s : State) (v : List (Nat × CsrWord)) : (State.setCsr s v).perf = s.perf := rfl
@[simp] theorem State.setCsr_tel (s : State) (v : List (Nat × CsrWord)) : (State.setCsr s v).tel = s.tel := rfl
@[simp] theorem State.setCsr_icp (s : State) (v : List (Nat × CsrWord)) : (State.setCsr s v).icp = s.icp := rfl
@[simp] theorem State.setCsr_rings (s : State) (v : List (Nat × CsrWord)) : (State.setCsr s v).rings = s.rings := rfl
@[simp] theorem State.setCsr_fns (s : State) (v : List (Nat × CsrWord)) : (State.setCsr s v).fns = s.fns := rfl
@[simp] theorem State.setCsr_ports (s : State) (v : List (Nat × CsrWord)) : (State.setCsr s v).ports = s.ports := rfl
@[simp] theorem State.setCsr_mem (s : State) (v : List (Nat × CsrWord)) : (State.setCsr s v).mem = s.mem := rfl
@[simp] theorem State.setCsr_boot (s : State) (v : List (Nat × CsrWord)) : (State.setCsr s v).boot = s.boot := rfl
@[simp] theorem State.setCsr_pwr (s : State) (v : List (Nat × CsrWord)) : (State.setCsr s v).pwr = s.pwr := rfl
@[simp] theorem State.setCsr_pins (s : State) (v : List (Nat × CsrWord)) : (State.setCsr s v).pins = s.pins := rfl
@[simp] theorem State.setCsr_tab (s : State) (v : List (Nat × CsrWord)) : (State.setCsr s v).tab = s.tab := rfl
@[simp] theorem State.setCsr_course (s : State) (v : List (Nat × CsrWord)) : (State.setCsr s v).course = s.course := rfl
@[simp] theorem State.setCsr_elastic (s : State) (v : List (Nat × CsrWord)) : (State.setCsr s v).elastic = s.elastic := rfl
@[simp] theorem State.setCsr_mason (s : State) (v : List (Nat × CsrWord)) : (State.setCsr s v).mason = s.mason := rfl
@[simp] theorem State.setCsr_sec (s : State) (v : List (Nat × CsrWord)) : (State.setCsr s v).sec = s.sec := rfl
@[simp] theorem State.setCsr_pages (s : State) (v : List (Nat × CsrWord)) : (State.setCsr s v).pages = s.pages := rfl
@[simp] theorem State.setCsr_sto (s : State) (v : List (Nat × CsrWord)) : (State.setCsr s v).sto = s.sto := rfl
@[simp] theorem State.setCsr_grt (s : State) (v : List (Nat × CsrWord)) : (State.setCsr s v).grt = s.grt := rfl
@[simp] theorem State.setCsr_pp (s : State) (v : List (Nat × CsrWord)) : (State.setCsr s v).pp = s.pp := rfl

@[simp] theorem State.setErr_draw (s : State) (v : List (Nat × ErrHdr)) : (State.setErr s v).draw = s.draw := rfl
@[simp] theorem State.setErr_time (s : State) (v : List (Nat × ErrHdr)) : (State.setErr s v).time = s.time := rfl
@[simp] theorem State.setErr_out (s : State) (v : List (Nat × ErrHdr)) : (State.setErr s v).out = s.out := rfl
@[simp] theorem State.setErr_pending (s : State) (v : List (Nat × ErrHdr)) : (State.setErr s v).pending = s.pending := rfl
@[simp] theorem State.setErr_csr (s : State) (v : List (Nat × ErrHdr)) : (State.setErr s v).csr = s.csr := rfl
@[simp] theorem State.setErr_err (s : State) (v : List (Nat × ErrHdr)) : (State.setErr s v).err = v := rfl
@[simp] theorem State.setErr_perf (s : State) (v : List (Nat × ErrHdr)) : (State.setErr s v).perf = s.perf := rfl
@[simp] theorem State.setErr_tel (s : State) (v : List (Nat × ErrHdr)) : (State.setErr s v).tel = s.tel := rfl
@[simp] theorem State.setErr_icp (s : State) (v : List (Nat × ErrHdr)) : (State.setErr s v).icp = s.icp := rfl
@[simp] theorem State.setErr_rings (s : State) (v : List (Nat × ErrHdr)) : (State.setErr s v).rings = s.rings := rfl
@[simp] theorem State.setErr_fns (s : State) (v : List (Nat × ErrHdr)) : (State.setErr s v).fns = s.fns := rfl
@[simp] theorem State.setErr_ports (s : State) (v : List (Nat × ErrHdr)) : (State.setErr s v).ports = s.ports := rfl
@[simp] theorem State.setErr_mem (s : State) (v : List (Nat × ErrHdr)) : (State.setErr s v).mem = s.mem := rfl
@[simp] theorem State.setErr_boot (s : State) (v : List (Nat × ErrHdr)) : (State.setErr s v).boot = s.boot := rfl
@[simp] theorem State.setErr_pwr (s : State) (v : List (Nat × ErrHdr)) : (State.setErr s v).pwr = s.pwr := rfl
@[simp] theorem State.setErr_pins (s : State) (v : List (Nat × ErrHdr)) : (State.setErr s v).pins = s.pins := rfl
@[simp] theorem State.setErr_tab (s : State) (v : List (Nat × ErrHdr)) : (State.setErr s v).tab = s.tab := rfl
@[simp] theorem State.setErr_course (s : State) (v : List (Nat × ErrHdr)) : (State.setErr s v).course = s.course := rfl
@[simp] theorem State.setErr_elastic (s : State) (v : List (Nat × ErrHdr)) : (State.setErr s v).elastic = s.elastic := rfl
@[simp] theorem State.setErr_mason (s : State) (v : List (Nat × ErrHdr)) : (State.setErr s v).mason = s.mason := rfl
@[simp] theorem State.setErr_sec (s : State) (v : List (Nat × ErrHdr)) : (State.setErr s v).sec = s.sec := rfl
@[simp] theorem State.setErr_pages (s : State) (v : List (Nat × ErrHdr)) : (State.setErr s v).pages = s.pages := rfl
@[simp] theorem State.setErr_sto (s : State) (v : List (Nat × ErrHdr)) : (State.setErr s v).sto = s.sto := rfl
@[simp] theorem State.setErr_grt (s : State) (v : List (Nat × ErrHdr)) : (State.setErr s v).grt = s.grt := rfl
@[simp] theorem State.setErr_pp (s : State) (v : List (Nat × ErrHdr)) : (State.setErr s v).pp = s.pp := rfl

@[simp] theorem State.setPerf_draw (s : State) (v : List (Nat × PerfCtr)) : (State.setPerf s v).draw = s.draw := rfl
@[simp] theorem State.setPerf_time (s : State) (v : List (Nat × PerfCtr)) : (State.setPerf s v).time = s.time := rfl
@[simp] theorem State.setPerf_out (s : State) (v : List (Nat × PerfCtr)) : (State.setPerf s v).out = s.out := rfl
@[simp] theorem State.setPerf_pending (s : State) (v : List (Nat × PerfCtr)) : (State.setPerf s v).pending = s.pending := rfl
@[simp] theorem State.setPerf_csr (s : State) (v : List (Nat × PerfCtr)) : (State.setPerf s v).csr = s.csr := rfl
@[simp] theorem State.setPerf_err (s : State) (v : List (Nat × PerfCtr)) : (State.setPerf s v).err = s.err := rfl
@[simp] theorem State.setPerf_perf (s : State) (v : List (Nat × PerfCtr)) : (State.setPerf s v).perf = v := rfl
@[simp] theorem State.setPerf_tel (s : State) (v : List (Nat × PerfCtr)) : (State.setPerf s v).tel = s.tel := rfl
@[simp] theorem State.setPerf_icp (s : State) (v : List (Nat × PerfCtr)) : (State.setPerf s v).icp = s.icp := rfl
@[simp] theorem State.setPerf_rings (s : State) (v : List (Nat × PerfCtr)) : (State.setPerf s v).rings = s.rings := rfl
@[simp] theorem State.setPerf_fns (s : State) (v : List (Nat × PerfCtr)) : (State.setPerf s v).fns = s.fns := rfl
@[simp] theorem State.setPerf_ports (s : State) (v : List (Nat × PerfCtr)) : (State.setPerf s v).ports = s.ports := rfl
@[simp] theorem State.setPerf_mem (s : State) (v : List (Nat × PerfCtr)) : (State.setPerf s v).mem = s.mem := rfl
@[simp] theorem State.setPerf_boot (s : State) (v : List (Nat × PerfCtr)) : (State.setPerf s v).boot = s.boot := rfl
@[simp] theorem State.setPerf_pwr (s : State) (v : List (Nat × PerfCtr)) : (State.setPerf s v).pwr = s.pwr := rfl
@[simp] theorem State.setPerf_pins (s : State) (v : List (Nat × PerfCtr)) : (State.setPerf s v).pins = s.pins := rfl
@[simp] theorem State.setPerf_tab (s : State) (v : List (Nat × PerfCtr)) : (State.setPerf s v).tab = s.tab := rfl
@[simp] theorem State.setPerf_course (s : State) (v : List (Nat × PerfCtr)) : (State.setPerf s v).course = s.course := rfl
@[simp] theorem State.setPerf_elastic (s : State) (v : List (Nat × PerfCtr)) : (State.setPerf s v).elastic = s.elastic := rfl
@[simp] theorem State.setPerf_mason (s : State) (v : List (Nat × PerfCtr)) : (State.setPerf s v).mason = s.mason := rfl
@[simp] theorem State.setPerf_sec (s : State) (v : List (Nat × PerfCtr)) : (State.setPerf s v).sec = s.sec := rfl
@[simp] theorem State.setPerf_pages (s : State) (v : List (Nat × PerfCtr)) : (State.setPerf s v).pages = s.pages := rfl
@[simp] theorem State.setPerf_sto (s : State) (v : List (Nat × PerfCtr)) : (State.setPerf s v).sto = s.sto := rfl
@[simp] theorem State.setPerf_grt (s : State) (v : List (Nat × PerfCtr)) : (State.setPerf s v).grt = s.grt := rfl
@[simp] theorem State.setPerf_pp (s : State) (v : List (Nat × PerfCtr)) : (State.setPerf s v).pp = s.pp := rfl

@[simp] theorem State.setTel_draw (s : State) (v : Tel) : (State.setTel s v).draw = s.draw := rfl
@[simp] theorem State.setTel_time (s : State) (v : Tel) : (State.setTel s v).time = s.time := rfl
@[simp] theorem State.setTel_out (s : State) (v : Tel) : (State.setTel s v).out = s.out := rfl
@[simp] theorem State.setTel_pending (s : State) (v : Tel) : (State.setTel s v).pending = s.pending := rfl
@[simp] theorem State.setTel_csr (s : State) (v : Tel) : (State.setTel s v).csr = s.csr := rfl
@[simp] theorem State.setTel_err (s : State) (v : Tel) : (State.setTel s v).err = s.err := rfl
@[simp] theorem State.setTel_perf (s : State) (v : Tel) : (State.setTel s v).perf = s.perf := rfl
@[simp] theorem State.setTel_tel (s : State) (v : Tel) : (State.setTel s v).tel = v := rfl
@[simp] theorem State.setTel_icp (s : State) (v : Tel) : (State.setTel s v).icp = s.icp := rfl
@[simp] theorem State.setTel_rings (s : State) (v : Tel) : (State.setTel s v).rings = s.rings := rfl
@[simp] theorem State.setTel_fns (s : State) (v : Tel) : (State.setTel s v).fns = s.fns := rfl
@[simp] theorem State.setTel_ports (s : State) (v : Tel) : (State.setTel s v).ports = s.ports := rfl
@[simp] theorem State.setTel_mem (s : State) (v : Tel) : (State.setTel s v).mem = s.mem := rfl
@[simp] theorem State.setTel_boot (s : State) (v : Tel) : (State.setTel s v).boot = s.boot := rfl
@[simp] theorem State.setTel_pwr (s : State) (v : Tel) : (State.setTel s v).pwr = s.pwr := rfl
@[simp] theorem State.setTel_pins (s : State) (v : Tel) : (State.setTel s v).pins = s.pins := rfl
@[simp] theorem State.setTel_tab (s : State) (v : Tel) : (State.setTel s v).tab = s.tab := rfl
@[simp] theorem State.setTel_course (s : State) (v : Tel) : (State.setTel s v).course = s.course := rfl
@[simp] theorem State.setTel_elastic (s : State) (v : Tel) : (State.setTel s v).elastic = s.elastic := rfl
@[simp] theorem State.setTel_mason (s : State) (v : Tel) : (State.setTel s v).mason = s.mason := rfl
@[simp] theorem State.setTel_sec (s : State) (v : Tel) : (State.setTel s v).sec = s.sec := rfl
@[simp] theorem State.setTel_pages (s : State) (v : Tel) : (State.setTel s v).pages = s.pages := rfl
@[simp] theorem State.setTel_sto (s : State) (v : Tel) : (State.setTel s v).sto = s.sto := rfl
@[simp] theorem State.setTel_grt (s : State) (v : Tel) : (State.setTel s v).grt = s.grt := rfl
@[simp] theorem State.setTel_pp (s : State) (v : Tel) : (State.setTel s v).pp = s.pp := rfl

@[simp] theorem State.setIcp_draw (s : State) (v : Icp) : (State.setIcp s v).draw = s.draw := rfl
@[simp] theorem State.setIcp_time (s : State) (v : Icp) : (State.setIcp s v).time = s.time := rfl
@[simp] theorem State.setIcp_out (s : State) (v : Icp) : (State.setIcp s v).out = s.out := rfl
@[simp] theorem State.setIcp_pending (s : State) (v : Icp) : (State.setIcp s v).pending = s.pending := rfl
@[simp] theorem State.setIcp_csr (s : State) (v : Icp) : (State.setIcp s v).csr = s.csr := rfl
@[simp] theorem State.setIcp_err (s : State) (v : Icp) : (State.setIcp s v).err = s.err := rfl
@[simp] theorem State.setIcp_perf (s : State) (v : Icp) : (State.setIcp s v).perf = s.perf := rfl
@[simp] theorem State.setIcp_tel (s : State) (v : Icp) : (State.setIcp s v).tel = s.tel := rfl
@[simp] theorem State.setIcp_icp (s : State) (v : Icp) : (State.setIcp s v).icp = v := rfl
@[simp] theorem State.setIcp_rings (s : State) (v : Icp) : (State.setIcp s v).rings = s.rings := rfl
@[simp] theorem State.setIcp_fns (s : State) (v : Icp) : (State.setIcp s v).fns = s.fns := rfl
@[simp] theorem State.setIcp_ports (s : State) (v : Icp) : (State.setIcp s v).ports = s.ports := rfl
@[simp] theorem State.setIcp_mem (s : State) (v : Icp) : (State.setIcp s v).mem = s.mem := rfl
@[simp] theorem State.setIcp_boot (s : State) (v : Icp) : (State.setIcp s v).boot = s.boot := rfl
@[simp] theorem State.setIcp_pwr (s : State) (v : Icp) : (State.setIcp s v).pwr = s.pwr := rfl
@[simp] theorem State.setIcp_pins (s : State) (v : Icp) : (State.setIcp s v).pins = s.pins := rfl
@[simp] theorem State.setIcp_tab (s : State) (v : Icp) : (State.setIcp s v).tab = s.tab := rfl
@[simp] theorem State.setIcp_course (s : State) (v : Icp) : (State.setIcp s v).course = s.course := rfl
@[simp] theorem State.setIcp_elastic (s : State) (v : Icp) : (State.setIcp s v).elastic = s.elastic := rfl
@[simp] theorem State.setIcp_mason (s : State) (v : Icp) : (State.setIcp s v).mason = s.mason := rfl
@[simp] theorem State.setIcp_sec (s : State) (v : Icp) : (State.setIcp s v).sec = s.sec := rfl
@[simp] theorem State.setIcp_pages (s : State) (v : Icp) : (State.setIcp s v).pages = s.pages := rfl
@[simp] theorem State.setIcp_sto (s : State) (v : Icp) : (State.setIcp s v).sto = s.sto := rfl
@[simp] theorem State.setIcp_grt (s : State) (v : Icp) : (State.setIcp s v).grt = s.grt := rfl
@[simp] theorem State.setIcp_pp (s : State) (v : Icp) : (State.setIcp s v).pp = s.pp := rfl

@[simp] theorem State.setRings_draw (s : State) (v : List (Nat × Ring)) : (State.setRings s v).draw = s.draw := rfl
@[simp] theorem State.setRings_time (s : State) (v : List (Nat × Ring)) : (State.setRings s v).time = s.time := rfl
@[simp] theorem State.setRings_out (s : State) (v : List (Nat × Ring)) : (State.setRings s v).out = s.out := rfl
@[simp] theorem State.setRings_pending (s : State) (v : List (Nat × Ring)) : (State.setRings s v).pending = s.pending := rfl
@[simp] theorem State.setRings_csr (s : State) (v : List (Nat × Ring)) : (State.setRings s v).csr = s.csr := rfl
@[simp] theorem State.setRings_err (s : State) (v : List (Nat × Ring)) : (State.setRings s v).err = s.err := rfl
@[simp] theorem State.setRings_perf (s : State) (v : List (Nat × Ring)) : (State.setRings s v).perf = s.perf := rfl
@[simp] theorem State.setRings_tel (s : State) (v : List (Nat × Ring)) : (State.setRings s v).tel = s.tel := rfl
@[simp] theorem State.setRings_icp (s : State) (v : List (Nat × Ring)) : (State.setRings s v).icp = s.icp := rfl
@[simp] theorem State.setRings_rings (s : State) (v : List (Nat × Ring)) : (State.setRings s v).rings = v := rfl
@[simp] theorem State.setRings_fns (s : State) (v : List (Nat × Ring)) : (State.setRings s v).fns = s.fns := rfl
@[simp] theorem State.setRings_ports (s : State) (v : List (Nat × Ring)) : (State.setRings s v).ports = s.ports := rfl
@[simp] theorem State.setRings_mem (s : State) (v : List (Nat × Ring)) : (State.setRings s v).mem = s.mem := rfl
@[simp] theorem State.setRings_boot (s : State) (v : List (Nat × Ring)) : (State.setRings s v).boot = s.boot := rfl
@[simp] theorem State.setRings_pwr (s : State) (v : List (Nat × Ring)) : (State.setRings s v).pwr = s.pwr := rfl
@[simp] theorem State.setRings_pins (s : State) (v : List (Nat × Ring)) : (State.setRings s v).pins = s.pins := rfl
@[simp] theorem State.setRings_tab (s : State) (v : List (Nat × Ring)) : (State.setRings s v).tab = s.tab := rfl
@[simp] theorem State.setRings_course (s : State) (v : List (Nat × Ring)) : (State.setRings s v).course = s.course := rfl
@[simp] theorem State.setRings_elastic (s : State) (v : List (Nat × Ring)) : (State.setRings s v).elastic = s.elastic := rfl
@[simp] theorem State.setRings_mason (s : State) (v : List (Nat × Ring)) : (State.setRings s v).mason = s.mason := rfl
@[simp] theorem State.setRings_sec (s : State) (v : List (Nat × Ring)) : (State.setRings s v).sec = s.sec := rfl
@[simp] theorem State.setRings_pages (s : State) (v : List (Nat × Ring)) : (State.setRings s v).pages = s.pages := rfl
@[simp] theorem State.setRings_sto (s : State) (v : List (Nat × Ring)) : (State.setRings s v).sto = s.sto := rfl
@[simp] theorem State.setRings_grt (s : State) (v : List (Nat × Ring)) : (State.setRings s v).grt = s.grt := rfl
@[simp] theorem State.setRings_pp (s : State) (v : List (Nat × Ring)) : (State.setRings s v).pp = s.pp := rfl

@[simp] theorem State.setFns_draw (s : State) (v : List (Nat × Fn)) : (State.setFns s v).draw = s.draw := rfl
@[simp] theorem State.setFns_time (s : State) (v : List (Nat × Fn)) : (State.setFns s v).time = s.time := rfl
@[simp] theorem State.setFns_out (s : State) (v : List (Nat × Fn)) : (State.setFns s v).out = s.out := rfl
@[simp] theorem State.setFns_pending (s : State) (v : List (Nat × Fn)) : (State.setFns s v).pending = s.pending := rfl
@[simp] theorem State.setFns_csr (s : State) (v : List (Nat × Fn)) : (State.setFns s v).csr = s.csr := rfl
@[simp] theorem State.setFns_err (s : State) (v : List (Nat × Fn)) : (State.setFns s v).err = s.err := rfl
@[simp] theorem State.setFns_perf (s : State) (v : List (Nat × Fn)) : (State.setFns s v).perf = s.perf := rfl
@[simp] theorem State.setFns_tel (s : State) (v : List (Nat × Fn)) : (State.setFns s v).tel = s.tel := rfl
@[simp] theorem State.setFns_icp (s : State) (v : List (Nat × Fn)) : (State.setFns s v).icp = s.icp := rfl
@[simp] theorem State.setFns_rings (s : State) (v : List (Nat × Fn)) : (State.setFns s v).rings = s.rings := rfl
@[simp] theorem State.setFns_fns (s : State) (v : List (Nat × Fn)) : (State.setFns s v).fns = v := rfl
@[simp] theorem State.setFns_ports (s : State) (v : List (Nat × Fn)) : (State.setFns s v).ports = s.ports := rfl
@[simp] theorem State.setFns_mem (s : State) (v : List (Nat × Fn)) : (State.setFns s v).mem = s.mem := rfl
@[simp] theorem State.setFns_boot (s : State) (v : List (Nat × Fn)) : (State.setFns s v).boot = s.boot := rfl
@[simp] theorem State.setFns_pwr (s : State) (v : List (Nat × Fn)) : (State.setFns s v).pwr = s.pwr := rfl
@[simp] theorem State.setFns_pins (s : State) (v : List (Nat × Fn)) : (State.setFns s v).pins = s.pins := rfl
@[simp] theorem State.setFns_tab (s : State) (v : List (Nat × Fn)) : (State.setFns s v).tab = s.tab := rfl
@[simp] theorem State.setFns_course (s : State) (v : List (Nat × Fn)) : (State.setFns s v).course = s.course := rfl
@[simp] theorem State.setFns_elastic (s : State) (v : List (Nat × Fn)) : (State.setFns s v).elastic = s.elastic := rfl
@[simp] theorem State.setFns_mason (s : State) (v : List (Nat × Fn)) : (State.setFns s v).mason = s.mason := rfl
@[simp] theorem State.setFns_sec (s : State) (v : List (Nat × Fn)) : (State.setFns s v).sec = s.sec := rfl
@[simp] theorem State.setFns_pages (s : State) (v : List (Nat × Fn)) : (State.setFns s v).pages = s.pages := rfl
@[simp] theorem State.setFns_sto (s : State) (v : List (Nat × Fn)) : (State.setFns s v).sto = s.sto := rfl
@[simp] theorem State.setFns_grt (s : State) (v : List (Nat × Fn)) : (State.setFns s v).grt = s.grt := rfl
@[simp] theorem State.setFns_pp (s : State) (v : List (Nat × Fn)) : (State.setFns s v).pp = s.pp := rfl

@[simp] theorem State.setPorts_draw (s : State) (v : Ports) : (State.setPorts s v).draw = s.draw := rfl
@[simp] theorem State.setPorts_time (s : State) (v : Ports) : (State.setPorts s v).time = s.time := rfl
@[simp] theorem State.setPorts_out (s : State) (v : Ports) : (State.setPorts s v).out = s.out := rfl
@[simp] theorem State.setPorts_pending (s : State) (v : Ports) : (State.setPorts s v).pending = s.pending := rfl
@[simp] theorem State.setPorts_csr (s : State) (v : Ports) : (State.setPorts s v).csr = s.csr := rfl
@[simp] theorem State.setPorts_err (s : State) (v : Ports) : (State.setPorts s v).err = s.err := rfl
@[simp] theorem State.setPorts_perf (s : State) (v : Ports) : (State.setPorts s v).perf = s.perf := rfl
@[simp] theorem State.setPorts_tel (s : State) (v : Ports) : (State.setPorts s v).tel = s.tel := rfl
@[simp] theorem State.setPorts_icp (s : State) (v : Ports) : (State.setPorts s v).icp = s.icp := rfl
@[simp] theorem State.setPorts_rings (s : State) (v : Ports) : (State.setPorts s v).rings = s.rings := rfl
@[simp] theorem State.setPorts_fns (s : State) (v : Ports) : (State.setPorts s v).fns = s.fns := rfl
@[simp] theorem State.setPorts_ports (s : State) (v : Ports) : (State.setPorts s v).ports = v := rfl
@[simp] theorem State.setPorts_mem (s : State) (v : Ports) : (State.setPorts s v).mem = s.mem := rfl
@[simp] theorem State.setPorts_boot (s : State) (v : Ports) : (State.setPorts s v).boot = s.boot := rfl
@[simp] theorem State.setPorts_pwr (s : State) (v : Ports) : (State.setPorts s v).pwr = s.pwr := rfl
@[simp] theorem State.setPorts_pins (s : State) (v : Ports) : (State.setPorts s v).pins = s.pins := rfl
@[simp] theorem State.setPorts_tab (s : State) (v : Ports) : (State.setPorts s v).tab = s.tab := rfl
@[simp] theorem State.setPorts_course (s : State) (v : Ports) : (State.setPorts s v).course = s.course := rfl
@[simp] theorem State.setPorts_elastic (s : State) (v : Ports) : (State.setPorts s v).elastic = s.elastic := rfl
@[simp] theorem State.setPorts_mason (s : State) (v : Ports) : (State.setPorts s v).mason = s.mason := rfl
@[simp] theorem State.setPorts_sec (s : State) (v : Ports) : (State.setPorts s v).sec = s.sec := rfl
@[simp] theorem State.setPorts_pages (s : State) (v : Ports) : (State.setPorts s v).pages = s.pages := rfl
@[simp] theorem State.setPorts_sto (s : State) (v : Ports) : (State.setPorts s v).sto = s.sto := rfl
@[simp] theorem State.setPorts_grt (s : State) (v : Ports) : (State.setPorts s v).grt = s.grt := rfl
@[simp] theorem State.setPorts_pp (s : State) (v : Ports) : (State.setPorts s v).pp = s.pp := rfl

@[simp] theorem State.setMem_draw (s : State) (v : Mem) : (State.setMem s v).draw = s.draw := rfl
@[simp] theorem State.setMem_time (s : State) (v : Mem) : (State.setMem s v).time = s.time := rfl
@[simp] theorem State.setMem_out (s : State) (v : Mem) : (State.setMem s v).out = s.out := rfl
@[simp] theorem State.setMem_pending (s : State) (v : Mem) : (State.setMem s v).pending = s.pending := rfl
@[simp] theorem State.setMem_csr (s : State) (v : Mem) : (State.setMem s v).csr = s.csr := rfl
@[simp] theorem State.setMem_err (s : State) (v : Mem) : (State.setMem s v).err = s.err := rfl
@[simp] theorem State.setMem_perf (s : State) (v : Mem) : (State.setMem s v).perf = s.perf := rfl
@[simp] theorem State.setMem_tel (s : State) (v : Mem) : (State.setMem s v).tel = s.tel := rfl
@[simp] theorem State.setMem_icp (s : State) (v : Mem) : (State.setMem s v).icp = s.icp := rfl
@[simp] theorem State.setMem_rings (s : State) (v : Mem) : (State.setMem s v).rings = s.rings := rfl
@[simp] theorem State.setMem_fns (s : State) (v : Mem) : (State.setMem s v).fns = s.fns := rfl
@[simp] theorem State.setMem_ports (s : State) (v : Mem) : (State.setMem s v).ports = s.ports := rfl
@[simp] theorem State.setMem_mem (s : State) (v : Mem) : (State.setMem s v).mem = v := rfl
@[simp] theorem State.setMem_boot (s : State) (v : Mem) : (State.setMem s v).boot = s.boot := rfl
@[simp] theorem State.setMem_pwr (s : State) (v : Mem) : (State.setMem s v).pwr = s.pwr := rfl
@[simp] theorem State.setMem_pins (s : State) (v : Mem) : (State.setMem s v).pins = s.pins := rfl
@[simp] theorem State.setMem_tab (s : State) (v : Mem) : (State.setMem s v).tab = s.tab := rfl
@[simp] theorem State.setMem_course (s : State) (v : Mem) : (State.setMem s v).course = s.course := rfl
@[simp] theorem State.setMem_elastic (s : State) (v : Mem) : (State.setMem s v).elastic = s.elastic := rfl
@[simp] theorem State.setMem_mason (s : State) (v : Mem) : (State.setMem s v).mason = s.mason := rfl
@[simp] theorem State.setMem_sec (s : State) (v : Mem) : (State.setMem s v).sec = s.sec := rfl
@[simp] theorem State.setMem_pages (s : State) (v : Mem) : (State.setMem s v).pages = s.pages := rfl
@[simp] theorem State.setMem_sto (s : State) (v : Mem) : (State.setMem s v).sto = s.sto := rfl
@[simp] theorem State.setMem_grt (s : State) (v : Mem) : (State.setMem s v).grt = s.grt := rfl
@[simp] theorem State.setMem_pp (s : State) (v : Mem) : (State.setMem s v).pp = s.pp := rfl

@[simp] theorem State.setBoot_draw (s : State) (v : Boot) : (State.setBoot s v).draw = s.draw := rfl
@[simp] theorem State.setBoot_time (s : State) (v : Boot) : (State.setBoot s v).time = s.time := rfl
@[simp] theorem State.setBoot_out (s : State) (v : Boot) : (State.setBoot s v).out = s.out := rfl
@[simp] theorem State.setBoot_pending (s : State) (v : Boot) : (State.setBoot s v).pending = s.pending := rfl
@[simp] theorem State.setBoot_csr (s : State) (v : Boot) : (State.setBoot s v).csr = s.csr := rfl
@[simp] theorem State.setBoot_err (s : State) (v : Boot) : (State.setBoot s v).err = s.err := rfl
@[simp] theorem State.setBoot_perf (s : State) (v : Boot) : (State.setBoot s v).perf = s.perf := rfl
@[simp] theorem State.setBoot_tel (s : State) (v : Boot) : (State.setBoot s v).tel = s.tel := rfl
@[simp] theorem State.setBoot_icp (s : State) (v : Boot) : (State.setBoot s v).icp = s.icp := rfl
@[simp] theorem State.setBoot_rings (s : State) (v : Boot) : (State.setBoot s v).rings = s.rings := rfl
@[simp] theorem State.setBoot_fns (s : State) (v : Boot) : (State.setBoot s v).fns = s.fns := rfl
@[simp] theorem State.setBoot_ports (s : State) (v : Boot) : (State.setBoot s v).ports = s.ports := rfl
@[simp] theorem State.setBoot_mem (s : State) (v : Boot) : (State.setBoot s v).mem = s.mem := rfl
@[simp] theorem State.setBoot_boot (s : State) (v : Boot) : (State.setBoot s v).boot = v := rfl
@[simp] theorem State.setBoot_pwr (s : State) (v : Boot) : (State.setBoot s v).pwr = s.pwr := rfl
@[simp] theorem State.setBoot_pins (s : State) (v : Boot) : (State.setBoot s v).pins = s.pins := rfl
@[simp] theorem State.setBoot_tab (s : State) (v : Boot) : (State.setBoot s v).tab = s.tab := rfl
@[simp] theorem State.setBoot_course (s : State) (v : Boot) : (State.setBoot s v).course = s.course := rfl
@[simp] theorem State.setBoot_elastic (s : State) (v : Boot) : (State.setBoot s v).elastic = s.elastic := rfl
@[simp] theorem State.setBoot_mason (s : State) (v : Boot) : (State.setBoot s v).mason = s.mason := rfl
@[simp] theorem State.setBoot_sec (s : State) (v : Boot) : (State.setBoot s v).sec = s.sec := rfl
@[simp] theorem State.setBoot_pages (s : State) (v : Boot) : (State.setBoot s v).pages = s.pages := rfl
@[simp] theorem State.setBoot_sto (s : State) (v : Boot) : (State.setBoot s v).sto = s.sto := rfl
@[simp] theorem State.setBoot_grt (s : State) (v : Boot) : (State.setBoot s v).grt = s.grt := rfl
@[simp] theorem State.setBoot_pp (s : State) (v : Boot) : (State.setBoot s v).pp = s.pp := rfl

@[simp] theorem State.setPwr_draw (s : State) (v : Power) : (State.setPwr s v).draw = s.draw := rfl
@[simp] theorem State.setPwr_time (s : State) (v : Power) : (State.setPwr s v).time = s.time := rfl
@[simp] theorem State.setPwr_out (s : State) (v : Power) : (State.setPwr s v).out = s.out := rfl
@[simp] theorem State.setPwr_pending (s : State) (v : Power) : (State.setPwr s v).pending = s.pending := rfl
@[simp] theorem State.setPwr_csr (s : State) (v : Power) : (State.setPwr s v).csr = s.csr := rfl
@[simp] theorem State.setPwr_err (s : State) (v : Power) : (State.setPwr s v).err = s.err := rfl
@[simp] theorem State.setPwr_perf (s : State) (v : Power) : (State.setPwr s v).perf = s.perf := rfl
@[simp] theorem State.setPwr_tel (s : State) (v : Power) : (State.setPwr s v).tel = s.tel := rfl
@[simp] theorem State.setPwr_icp (s : State) (v : Power) : (State.setPwr s v).icp = s.icp := rfl
@[simp] theorem State.setPwr_rings (s : State) (v : Power) : (State.setPwr s v).rings = s.rings := rfl
@[simp] theorem State.setPwr_fns (s : State) (v : Power) : (State.setPwr s v).fns = s.fns := rfl
@[simp] theorem State.setPwr_ports (s : State) (v : Power) : (State.setPwr s v).ports = s.ports := rfl
@[simp] theorem State.setPwr_mem (s : State) (v : Power) : (State.setPwr s v).mem = s.mem := rfl
@[simp] theorem State.setPwr_boot (s : State) (v : Power) : (State.setPwr s v).boot = s.boot := rfl
@[simp] theorem State.setPwr_pwr (s : State) (v : Power) : (State.setPwr s v).pwr = v := rfl
@[simp] theorem State.setPwr_pins (s : State) (v : Power) : (State.setPwr s v).pins = s.pins := rfl
@[simp] theorem State.setPwr_tab (s : State) (v : Power) : (State.setPwr s v).tab = s.tab := rfl
@[simp] theorem State.setPwr_course (s : State) (v : Power) : (State.setPwr s v).course = s.course := rfl
@[simp] theorem State.setPwr_elastic (s : State) (v : Power) : (State.setPwr s v).elastic = s.elastic := rfl
@[simp] theorem State.setPwr_mason (s : State) (v : Power) : (State.setPwr s v).mason = s.mason := rfl
@[simp] theorem State.setPwr_sec (s : State) (v : Power) : (State.setPwr s v).sec = s.sec := rfl
@[simp] theorem State.setPwr_pages (s : State) (v : Power) : (State.setPwr s v).pages = s.pages := rfl
@[simp] theorem State.setPwr_sto (s : State) (v : Power) : (State.setPwr s v).sto = s.sto := rfl
@[simp] theorem State.setPwr_grt (s : State) (v : Power) : (State.setPwr s v).grt = s.grt := rfl
@[simp] theorem State.setPwr_pp (s : State) (v : Power) : (State.setPwr s v).pp = s.pp := rfl

@[simp] theorem State.setPins_draw (s : State) (v : Pins) : (State.setPins s v).draw = s.draw := rfl
@[simp] theorem State.setPins_time (s : State) (v : Pins) : (State.setPins s v).time = s.time := rfl
@[simp] theorem State.setPins_out (s : State) (v : Pins) : (State.setPins s v).out = s.out := rfl
@[simp] theorem State.setPins_pending (s : State) (v : Pins) : (State.setPins s v).pending = s.pending := rfl
@[simp] theorem State.setPins_csr (s : State) (v : Pins) : (State.setPins s v).csr = s.csr := rfl
@[simp] theorem State.setPins_err (s : State) (v : Pins) : (State.setPins s v).err = s.err := rfl
@[simp] theorem State.setPins_perf (s : State) (v : Pins) : (State.setPins s v).perf = s.perf := rfl
@[simp] theorem State.setPins_tel (s : State) (v : Pins) : (State.setPins s v).tel = s.tel := rfl
@[simp] theorem State.setPins_icp (s : State) (v : Pins) : (State.setPins s v).icp = s.icp := rfl
@[simp] theorem State.setPins_rings (s : State) (v : Pins) : (State.setPins s v).rings = s.rings := rfl
@[simp] theorem State.setPins_fns (s : State) (v : Pins) : (State.setPins s v).fns = s.fns := rfl
@[simp] theorem State.setPins_ports (s : State) (v : Pins) : (State.setPins s v).ports = s.ports := rfl
@[simp] theorem State.setPins_mem (s : State) (v : Pins) : (State.setPins s v).mem = s.mem := rfl
@[simp] theorem State.setPins_boot (s : State) (v : Pins) : (State.setPins s v).boot = s.boot := rfl
@[simp] theorem State.setPins_pwr (s : State) (v : Pins) : (State.setPins s v).pwr = s.pwr := rfl
@[simp] theorem State.setPins_pins (s : State) (v : Pins) : (State.setPins s v).pins = v := rfl
@[simp] theorem State.setPins_tab (s : State) (v : Pins) : (State.setPins s v).tab = s.tab := rfl
@[simp] theorem State.setPins_course (s : State) (v : Pins) : (State.setPins s v).course = s.course := rfl
@[simp] theorem State.setPins_elastic (s : State) (v : Pins) : (State.setPins s v).elastic = s.elastic := rfl
@[simp] theorem State.setPins_mason (s : State) (v : Pins) : (State.setPins s v).mason = s.mason := rfl
@[simp] theorem State.setPins_sec (s : State) (v : Pins) : (State.setPins s v).sec = s.sec := rfl
@[simp] theorem State.setPins_pages (s : State) (v : Pins) : (State.setPins s v).pages = s.pages := rfl
@[simp] theorem State.setPins_sto (s : State) (v : Pins) : (State.setPins s v).sto = s.sto := rfl
@[simp] theorem State.setPins_grt (s : State) (v : Pins) : (State.setPins s v).grt = s.grt := rfl
@[simp] theorem State.setPins_pp (s : State) (v : Pins) : (State.setPins s v).pp = s.pp := rfl

@[simp] theorem State.setTab_draw (s : State) (v : Tables) : (State.setTab s v).draw = s.draw := rfl
@[simp] theorem State.setTab_time (s : State) (v : Tables) : (State.setTab s v).time = s.time := rfl
@[simp] theorem State.setTab_out (s : State) (v : Tables) : (State.setTab s v).out = s.out := rfl
@[simp] theorem State.setTab_pending (s : State) (v : Tables) : (State.setTab s v).pending = s.pending := rfl
@[simp] theorem State.setTab_csr (s : State) (v : Tables) : (State.setTab s v).csr = s.csr := rfl
@[simp] theorem State.setTab_err (s : State) (v : Tables) : (State.setTab s v).err = s.err := rfl
@[simp] theorem State.setTab_perf (s : State) (v : Tables) : (State.setTab s v).perf = s.perf := rfl
@[simp] theorem State.setTab_tel (s : State) (v : Tables) : (State.setTab s v).tel = s.tel := rfl
@[simp] theorem State.setTab_icp (s : State) (v : Tables) : (State.setTab s v).icp = s.icp := rfl
@[simp] theorem State.setTab_rings (s : State) (v : Tables) : (State.setTab s v).rings = s.rings := rfl
@[simp] theorem State.setTab_fns (s : State) (v : Tables) : (State.setTab s v).fns = s.fns := rfl
@[simp] theorem State.setTab_ports (s : State) (v : Tables) : (State.setTab s v).ports = s.ports := rfl
@[simp] theorem State.setTab_mem (s : State) (v : Tables) : (State.setTab s v).mem = s.mem := rfl
@[simp] theorem State.setTab_boot (s : State) (v : Tables) : (State.setTab s v).boot = s.boot := rfl
@[simp] theorem State.setTab_pwr (s : State) (v : Tables) : (State.setTab s v).pwr = s.pwr := rfl
@[simp] theorem State.setTab_pins (s : State) (v : Tables) : (State.setTab s v).pins = s.pins := rfl
@[simp] theorem State.setTab_tab (s : State) (v : Tables) : (State.setTab s v).tab = v := rfl
@[simp] theorem State.setTab_course (s : State) (v : Tables) : (State.setTab s v).course = s.course := rfl
@[simp] theorem State.setTab_elastic (s : State) (v : Tables) : (State.setTab s v).elastic = s.elastic := rfl
@[simp] theorem State.setTab_mason (s : State) (v : Tables) : (State.setTab s v).mason = s.mason := rfl
@[simp] theorem State.setTab_sec (s : State) (v : Tables) : (State.setTab s v).sec = s.sec := rfl
@[simp] theorem State.setTab_pages (s : State) (v : Tables) : (State.setTab s v).pages = s.pages := rfl
@[simp] theorem State.setTab_sto (s : State) (v : Tables) : (State.setTab s v).sto = s.sto := rfl
@[simp] theorem State.setTab_grt (s : State) (v : Tables) : (State.setTab s v).grt = s.grt := rfl
@[simp] theorem State.setTab_pp (s : State) (v : Tables) : (State.setTab s v).pp = s.pp := rfl

@[simp] theorem State.setCourse_draw (s : State) (v : Course) : (State.setCourse s v).draw = s.draw := rfl
@[simp] theorem State.setCourse_time (s : State) (v : Course) : (State.setCourse s v).time = s.time := rfl
@[simp] theorem State.setCourse_out (s : State) (v : Course) : (State.setCourse s v).out = s.out := rfl
@[simp] theorem State.setCourse_pending (s : State) (v : Course) : (State.setCourse s v).pending = s.pending := rfl
@[simp] theorem State.setCourse_csr (s : State) (v : Course) : (State.setCourse s v).csr = s.csr := rfl
@[simp] theorem State.setCourse_err (s : State) (v : Course) : (State.setCourse s v).err = s.err := rfl
@[simp] theorem State.setCourse_perf (s : State) (v : Course) : (State.setCourse s v).perf = s.perf := rfl
@[simp] theorem State.setCourse_tel (s : State) (v : Course) : (State.setCourse s v).tel = s.tel := rfl
@[simp] theorem State.setCourse_icp (s : State) (v : Course) : (State.setCourse s v).icp = s.icp := rfl
@[simp] theorem State.setCourse_rings (s : State) (v : Course) : (State.setCourse s v).rings = s.rings := rfl
@[simp] theorem State.setCourse_fns (s : State) (v : Course) : (State.setCourse s v).fns = s.fns := rfl
@[simp] theorem State.setCourse_ports (s : State) (v : Course) : (State.setCourse s v).ports = s.ports := rfl
@[simp] theorem State.setCourse_mem (s : State) (v : Course) : (State.setCourse s v).mem = s.mem := rfl
@[simp] theorem State.setCourse_boot (s : State) (v : Course) : (State.setCourse s v).boot = s.boot := rfl
@[simp] theorem State.setCourse_pwr (s : State) (v : Course) : (State.setCourse s v).pwr = s.pwr := rfl
@[simp] theorem State.setCourse_pins (s : State) (v : Course) : (State.setCourse s v).pins = s.pins := rfl
@[simp] theorem State.setCourse_tab (s : State) (v : Course) : (State.setCourse s v).tab = s.tab := rfl
@[simp] theorem State.setCourse_course (s : State) (v : Course) : (State.setCourse s v).course = v := rfl
@[simp] theorem State.setCourse_elastic (s : State) (v : Course) : (State.setCourse s v).elastic = s.elastic := rfl
@[simp] theorem State.setCourse_mason (s : State) (v : Course) : (State.setCourse s v).mason = s.mason := rfl
@[simp] theorem State.setCourse_sec (s : State) (v : Course) : (State.setCourse s v).sec = s.sec := rfl
@[simp] theorem State.setCourse_pages (s : State) (v : Course) : (State.setCourse s v).pages = s.pages := rfl
@[simp] theorem State.setCourse_sto (s : State) (v : Course) : (State.setCourse s v).sto = s.sto := rfl
@[simp] theorem State.setCourse_grt (s : State) (v : Course) : (State.setCourse s v).grt = s.grt := rfl
@[simp] theorem State.setCourse_pp (s : State) (v : Course) : (State.setCourse s v).pp = s.pp := rfl

@[simp] theorem State.setElastic_draw (s : State) (v : Elastic) : (State.setElastic s v).draw = s.draw := rfl
@[simp] theorem State.setElastic_time (s : State) (v : Elastic) : (State.setElastic s v).time = s.time := rfl
@[simp] theorem State.setElastic_out (s : State) (v : Elastic) : (State.setElastic s v).out = s.out := rfl
@[simp] theorem State.setElastic_pending (s : State) (v : Elastic) : (State.setElastic s v).pending = s.pending := rfl
@[simp] theorem State.setElastic_csr (s : State) (v : Elastic) : (State.setElastic s v).csr = s.csr := rfl
@[simp] theorem State.setElastic_err (s : State) (v : Elastic) : (State.setElastic s v).err = s.err := rfl
@[simp] theorem State.setElastic_perf (s : State) (v : Elastic) : (State.setElastic s v).perf = s.perf := rfl
@[simp] theorem State.setElastic_tel (s : State) (v : Elastic) : (State.setElastic s v).tel = s.tel := rfl
@[simp] theorem State.setElastic_icp (s : State) (v : Elastic) : (State.setElastic s v).icp = s.icp := rfl
@[simp] theorem State.setElastic_rings (s : State) (v : Elastic) : (State.setElastic s v).rings = s.rings := rfl
@[simp] theorem State.setElastic_fns (s : State) (v : Elastic) : (State.setElastic s v).fns = s.fns := rfl
@[simp] theorem State.setElastic_ports (s : State) (v : Elastic) : (State.setElastic s v).ports = s.ports := rfl
@[simp] theorem State.setElastic_mem (s : State) (v : Elastic) : (State.setElastic s v).mem = s.mem := rfl
@[simp] theorem State.setElastic_boot (s : State) (v : Elastic) : (State.setElastic s v).boot = s.boot := rfl
@[simp] theorem State.setElastic_pwr (s : State) (v : Elastic) : (State.setElastic s v).pwr = s.pwr := rfl
@[simp] theorem State.setElastic_pins (s : State) (v : Elastic) : (State.setElastic s v).pins = s.pins := rfl
@[simp] theorem State.setElastic_tab (s : State) (v : Elastic) : (State.setElastic s v).tab = s.tab := rfl
@[simp] theorem State.setElastic_course (s : State) (v : Elastic) : (State.setElastic s v).course = s.course := rfl
@[simp] theorem State.setElastic_elastic (s : State) (v : Elastic) : (State.setElastic s v).elastic = v := rfl
@[simp] theorem State.setElastic_mason (s : State) (v : Elastic) : (State.setElastic s v).mason = s.mason := rfl
@[simp] theorem State.setElastic_sec (s : State) (v : Elastic) : (State.setElastic s v).sec = s.sec := rfl
@[simp] theorem State.setElastic_pages (s : State) (v : Elastic) : (State.setElastic s v).pages = s.pages := rfl
@[simp] theorem State.setElastic_sto (s : State) (v : Elastic) : (State.setElastic s v).sto = s.sto := rfl
@[simp] theorem State.setElastic_grt (s : State) (v : Elastic) : (State.setElastic s v).grt = s.grt := rfl
@[simp] theorem State.setElastic_pp (s : State) (v : Elastic) : (State.setElastic s v).pp = s.pp := rfl

@[simp] theorem State.setMason_draw (s : State) (v : Mason) : (State.setMason s v).draw = s.draw := rfl
@[simp] theorem State.setMason_time (s : State) (v : Mason) : (State.setMason s v).time = s.time := rfl
@[simp] theorem State.setMason_out (s : State) (v : Mason) : (State.setMason s v).out = s.out := rfl
@[simp] theorem State.setMason_pending (s : State) (v : Mason) : (State.setMason s v).pending = s.pending := rfl
@[simp] theorem State.setMason_csr (s : State) (v : Mason) : (State.setMason s v).csr = s.csr := rfl
@[simp] theorem State.setMason_err (s : State) (v : Mason) : (State.setMason s v).err = s.err := rfl
@[simp] theorem State.setMason_perf (s : State) (v : Mason) : (State.setMason s v).perf = s.perf := rfl
@[simp] theorem State.setMason_tel (s : State) (v : Mason) : (State.setMason s v).tel = s.tel := rfl
@[simp] theorem State.setMason_icp (s : State) (v : Mason) : (State.setMason s v).icp = s.icp := rfl
@[simp] theorem State.setMason_rings (s : State) (v : Mason) : (State.setMason s v).rings = s.rings := rfl
@[simp] theorem State.setMason_fns (s : State) (v : Mason) : (State.setMason s v).fns = s.fns := rfl
@[simp] theorem State.setMason_ports (s : State) (v : Mason) : (State.setMason s v).ports = s.ports := rfl
@[simp] theorem State.setMason_mem (s : State) (v : Mason) : (State.setMason s v).mem = s.mem := rfl
@[simp] theorem State.setMason_boot (s : State) (v : Mason) : (State.setMason s v).boot = s.boot := rfl
@[simp] theorem State.setMason_pwr (s : State) (v : Mason) : (State.setMason s v).pwr = s.pwr := rfl
@[simp] theorem State.setMason_pins (s : State) (v : Mason) : (State.setMason s v).pins = s.pins := rfl
@[simp] theorem State.setMason_tab (s : State) (v : Mason) : (State.setMason s v).tab = s.tab := rfl
@[simp] theorem State.setMason_course (s : State) (v : Mason) : (State.setMason s v).course = s.course := rfl
@[simp] theorem State.setMason_elastic (s : State) (v : Mason) : (State.setMason s v).elastic = s.elastic := rfl
@[simp] theorem State.setMason_mason (s : State) (v : Mason) : (State.setMason s v).mason = v := rfl
@[simp] theorem State.setMason_sec (s : State) (v : Mason) : (State.setMason s v).sec = s.sec := rfl
@[simp] theorem State.setMason_pages (s : State) (v : Mason) : (State.setMason s v).pages = s.pages := rfl
@[simp] theorem State.setMason_sto (s : State) (v : Mason) : (State.setMason s v).sto = s.sto := rfl
@[simp] theorem State.setMason_grt (s : State) (v : Mason) : (State.setMason s v).grt = s.grt := rfl
@[simp] theorem State.setMason_pp (s : State) (v : Mason) : (State.setMason s v).pp = s.pp := rfl

@[simp] theorem State.setSec_draw (s : State) (v : Sec) : (State.setSec s v).draw = s.draw := rfl
@[simp] theorem State.setSec_time (s : State) (v : Sec) : (State.setSec s v).time = s.time := rfl
@[simp] theorem State.setSec_out (s : State) (v : Sec) : (State.setSec s v).out = s.out := rfl
@[simp] theorem State.setSec_pending (s : State) (v : Sec) : (State.setSec s v).pending = s.pending := rfl
@[simp] theorem State.setSec_csr (s : State) (v : Sec) : (State.setSec s v).csr = s.csr := rfl
@[simp] theorem State.setSec_err (s : State) (v : Sec) : (State.setSec s v).err = s.err := rfl
@[simp] theorem State.setSec_perf (s : State) (v : Sec) : (State.setSec s v).perf = s.perf := rfl
@[simp] theorem State.setSec_tel (s : State) (v : Sec) : (State.setSec s v).tel = s.tel := rfl
@[simp] theorem State.setSec_icp (s : State) (v : Sec) : (State.setSec s v).icp = s.icp := rfl
@[simp] theorem State.setSec_rings (s : State) (v : Sec) : (State.setSec s v).rings = s.rings := rfl
@[simp] theorem State.setSec_fns (s : State) (v : Sec) : (State.setSec s v).fns = s.fns := rfl
@[simp] theorem State.setSec_ports (s : State) (v : Sec) : (State.setSec s v).ports = s.ports := rfl
@[simp] theorem State.setSec_mem (s : State) (v : Sec) : (State.setSec s v).mem = s.mem := rfl
@[simp] theorem State.setSec_boot (s : State) (v : Sec) : (State.setSec s v).boot = s.boot := rfl
@[simp] theorem State.setSec_pwr (s : State) (v : Sec) : (State.setSec s v).pwr = s.pwr := rfl
@[simp] theorem State.setSec_pins (s : State) (v : Sec) : (State.setSec s v).pins = s.pins := rfl
@[simp] theorem State.setSec_tab (s : State) (v : Sec) : (State.setSec s v).tab = s.tab := rfl
@[simp] theorem State.setSec_course (s : State) (v : Sec) : (State.setSec s v).course = s.course := rfl
@[simp] theorem State.setSec_elastic (s : State) (v : Sec) : (State.setSec s v).elastic = s.elastic := rfl
@[simp] theorem State.setSec_mason (s : State) (v : Sec) : (State.setSec s v).mason = s.mason := rfl
@[simp] theorem State.setSec_sec (s : State) (v : Sec) : (State.setSec s v).sec = v := rfl
@[simp] theorem State.setSec_pages (s : State) (v : Sec) : (State.setSec s v).pages = s.pages := rfl
@[simp] theorem State.setSec_sto (s : State) (v : Sec) : (State.setSec s v).sto = s.sto := rfl
@[simp] theorem State.setSec_grt (s : State) (v : Sec) : (State.setSec s v).grt = s.grt := rfl
@[simp] theorem State.setSec_pp (s : State) (v : Sec) : (State.setSec s v).pp = s.pp := rfl

@[simp] theorem State.setPages_draw (s : State) (v : List (Nat × Nat)) : (State.setPages s v).draw = s.draw := rfl
@[simp] theorem State.setPages_time (s : State) (v : List (Nat × Nat)) : (State.setPages s v).time = s.time := rfl
@[simp] theorem State.setPages_out (s : State) (v : List (Nat × Nat)) : (State.setPages s v).out = s.out := rfl
@[simp] theorem State.setPages_pending (s : State) (v : List (Nat × Nat)) : (State.setPages s v).pending = s.pending := rfl
@[simp] theorem State.setPages_csr (s : State) (v : List (Nat × Nat)) : (State.setPages s v).csr = s.csr := rfl
@[simp] theorem State.setPages_err (s : State) (v : List (Nat × Nat)) : (State.setPages s v).err = s.err := rfl
@[simp] theorem State.setPages_perf (s : State) (v : List (Nat × Nat)) : (State.setPages s v).perf = s.perf := rfl
@[simp] theorem State.setPages_tel (s : State) (v : List (Nat × Nat)) : (State.setPages s v).tel = s.tel := rfl
@[simp] theorem State.setPages_icp (s : State) (v : List (Nat × Nat)) : (State.setPages s v).icp = s.icp := rfl
@[simp] theorem State.setPages_rings (s : State) (v : List (Nat × Nat)) : (State.setPages s v).rings = s.rings := rfl
@[simp] theorem State.setPages_fns (s : State) (v : List (Nat × Nat)) : (State.setPages s v).fns = s.fns := rfl
@[simp] theorem State.setPages_ports (s : State) (v : List (Nat × Nat)) : (State.setPages s v).ports = s.ports := rfl
@[simp] theorem State.setPages_mem (s : State) (v : List (Nat × Nat)) : (State.setPages s v).mem = s.mem := rfl
@[simp] theorem State.setPages_boot (s : State) (v : List (Nat × Nat)) : (State.setPages s v).boot = s.boot := rfl
@[simp] theorem State.setPages_pwr (s : State) (v : List (Nat × Nat)) : (State.setPages s v).pwr = s.pwr := rfl
@[simp] theorem State.setPages_pins (s : State) (v : List (Nat × Nat)) : (State.setPages s v).pins = s.pins := rfl
@[simp] theorem State.setPages_tab (s : State) (v : List (Nat × Nat)) : (State.setPages s v).tab = s.tab := rfl
@[simp] theorem State.setPages_course (s : State) (v : List (Nat × Nat)) : (State.setPages s v).course = s.course := rfl
@[simp] theorem State.setPages_elastic (s : State) (v : List (Nat × Nat)) : (State.setPages s v).elastic = s.elastic := rfl
@[simp] theorem State.setPages_mason (s : State) (v : List (Nat × Nat)) : (State.setPages s v).mason = s.mason := rfl
@[simp] theorem State.setPages_sec (s : State) (v : List (Nat × Nat)) : (State.setPages s v).sec = s.sec := rfl
@[simp] theorem State.setPages_pages (s : State) (v : List (Nat × Nat)) : (State.setPages s v).pages = v := rfl
@[simp] theorem State.setPages_sto (s : State) (v : List (Nat × Nat)) : (State.setPages s v).sto = s.sto := rfl
@[simp] theorem State.setPages_grt (s : State) (v : List (Nat × Nat)) : (State.setPages s v).grt = s.grt := rfl
@[simp] theorem State.setPages_pp (s : State) (v : List (Nat × Nat)) : (State.setPages s v).pp = s.pp := rfl

@[simp] theorem State.setSto_draw (s : State) (v : Sto) : (State.setSto s v).draw = s.draw := rfl
@[simp] theorem State.setSto_time (s : State) (v : Sto) : (State.setSto s v).time = s.time := rfl
@[simp] theorem State.setSto_out (s : State) (v : Sto) : (State.setSto s v).out = s.out := rfl
@[simp] theorem State.setSto_pending (s : State) (v : Sto) : (State.setSto s v).pending = s.pending := rfl
@[simp] theorem State.setSto_csr (s : State) (v : Sto) : (State.setSto s v).csr = s.csr := rfl
@[simp] theorem State.setSto_err (s : State) (v : Sto) : (State.setSto s v).err = s.err := rfl
@[simp] theorem State.setSto_perf (s : State) (v : Sto) : (State.setSto s v).perf = s.perf := rfl
@[simp] theorem State.setSto_tel (s : State) (v : Sto) : (State.setSto s v).tel = s.tel := rfl
@[simp] theorem State.setSto_icp (s : State) (v : Sto) : (State.setSto s v).icp = s.icp := rfl
@[simp] theorem State.setSto_rings (s : State) (v : Sto) : (State.setSto s v).rings = s.rings := rfl
@[simp] theorem State.setSto_fns (s : State) (v : Sto) : (State.setSto s v).fns = s.fns := rfl
@[simp] theorem State.setSto_ports (s : State) (v : Sto) : (State.setSto s v).ports = s.ports := rfl
@[simp] theorem State.setSto_mem (s : State) (v : Sto) : (State.setSto s v).mem = s.mem := rfl
@[simp] theorem State.setSto_boot (s : State) (v : Sto) : (State.setSto s v).boot = s.boot := rfl
@[simp] theorem State.setSto_pwr (s : State) (v : Sto) : (State.setSto s v).pwr = s.pwr := rfl
@[simp] theorem State.setSto_pins (s : State) (v : Sto) : (State.setSto s v).pins = s.pins := rfl
@[simp] theorem State.setSto_tab (s : State) (v : Sto) : (State.setSto s v).tab = s.tab := rfl
@[simp] theorem State.setSto_course (s : State) (v : Sto) : (State.setSto s v).course = s.course := rfl
@[simp] theorem State.setSto_elastic (s : State) (v : Sto) : (State.setSto s v).elastic = s.elastic := rfl
@[simp] theorem State.setSto_mason (s : State) (v : Sto) : (State.setSto s v).mason = s.mason := rfl
@[simp] theorem State.setSto_sec (s : State) (v : Sto) : (State.setSto s v).sec = s.sec := rfl
@[simp] theorem State.setSto_pages (s : State) (v : Sto) : (State.setSto s v).pages = s.pages := rfl
@[simp] theorem State.setSto_sto (s : State) (v : Sto) : (State.setSto s v).sto = v := rfl
@[simp] theorem State.setSto_grt (s : State) (v : Sto) : (State.setSto s v).grt = s.grt := rfl
@[simp] theorem State.setSto_pp (s : State) (v : Sto) : (State.setSto s v).pp = s.pp := rfl

@[simp] theorem State.setGrt_draw (s : State) (v : Grt) : (State.setGrt s v).draw = s.draw := rfl
@[simp] theorem State.setGrt_time (s : State) (v : Grt) : (State.setGrt s v).time = s.time := rfl
@[simp] theorem State.setGrt_out (s : State) (v : Grt) : (State.setGrt s v).out = s.out := rfl
@[simp] theorem State.setGrt_pending (s : State) (v : Grt) : (State.setGrt s v).pending = s.pending := rfl
@[simp] theorem State.setGrt_csr (s : State) (v : Grt) : (State.setGrt s v).csr = s.csr := rfl
@[simp] theorem State.setGrt_err (s : State) (v : Grt) : (State.setGrt s v).err = s.err := rfl
@[simp] theorem State.setGrt_perf (s : State) (v : Grt) : (State.setGrt s v).perf = s.perf := rfl
@[simp] theorem State.setGrt_tel (s : State) (v : Grt) : (State.setGrt s v).tel = s.tel := rfl
@[simp] theorem State.setGrt_icp (s : State) (v : Grt) : (State.setGrt s v).icp = s.icp := rfl
@[simp] theorem State.setGrt_rings (s : State) (v : Grt) : (State.setGrt s v).rings = s.rings := rfl
@[simp] theorem State.setGrt_fns (s : State) (v : Grt) : (State.setGrt s v).fns = s.fns := rfl
@[simp] theorem State.setGrt_ports (s : State) (v : Grt) : (State.setGrt s v).ports = s.ports := rfl
@[simp] theorem State.setGrt_mem (s : State) (v : Grt) : (State.setGrt s v).mem = s.mem := rfl
@[simp] theorem State.setGrt_boot (s : State) (v : Grt) : (State.setGrt s v).boot = s.boot := rfl
@[simp] theorem State.setGrt_pwr (s : State) (v : Grt) : (State.setGrt s v).pwr = s.pwr := rfl
@[simp] theorem State.setGrt_pins (s : State) (v : Grt) : (State.setGrt s v).pins = s.pins := rfl
@[simp] theorem State.setGrt_tab (s : State) (v : Grt) : (State.setGrt s v).tab = s.tab := rfl
@[simp] theorem State.setGrt_course (s : State) (v : Grt) : (State.setGrt s v).course = s.course := rfl
@[simp] theorem State.setGrt_elastic (s : State) (v : Grt) : (State.setGrt s v).elastic = s.elastic := rfl
@[simp] theorem State.setGrt_mason (s : State) (v : Grt) : (State.setGrt s v).mason = s.mason := rfl
@[simp] theorem State.setGrt_sec (s : State) (v : Grt) : (State.setGrt s v).sec = s.sec := rfl
@[simp] theorem State.setGrt_pages (s : State) (v : Grt) : (State.setGrt s v).pages = s.pages := rfl
@[simp] theorem State.setGrt_sto (s : State) (v : Grt) : (State.setGrt s v).sto = s.sto := rfl
@[simp] theorem State.setGrt_grt (s : State) (v : Grt) : (State.setGrt s v).grt = v := rfl
@[simp] theorem State.setGrt_pp (s : State) (v : Grt) : (State.setGrt s v).pp = s.pp := rfl

@[simp] theorem State.setPp_draw (s : State) (v : Packet) : (State.setPp s v).draw = s.draw := rfl
@[simp] theorem State.setPp_time (s : State) (v : Packet) : (State.setPp s v).time = s.time := rfl
@[simp] theorem State.setPp_out (s : State) (v : Packet) : (State.setPp s v).out = s.out := rfl
@[simp] theorem State.setPp_pending (s : State) (v : Packet) : (State.setPp s v).pending = s.pending := rfl
@[simp] theorem State.setPp_csr (s : State) (v : Packet) : (State.setPp s v).csr = s.csr := rfl
@[simp] theorem State.setPp_err (s : State) (v : Packet) : (State.setPp s v).err = s.err := rfl
@[simp] theorem State.setPp_perf (s : State) (v : Packet) : (State.setPp s v).perf = s.perf := rfl
@[simp] theorem State.setPp_tel (s : State) (v : Packet) : (State.setPp s v).tel = s.tel := rfl
@[simp] theorem State.setPp_icp (s : State) (v : Packet) : (State.setPp s v).icp = s.icp := rfl
@[simp] theorem State.setPp_rings (s : State) (v : Packet) : (State.setPp s v).rings = s.rings := rfl
@[simp] theorem State.setPp_fns (s : State) (v : Packet) : (State.setPp s v).fns = s.fns := rfl
@[simp] theorem State.setPp_ports (s : State) (v : Packet) : (State.setPp s v).ports = s.ports := rfl
@[simp] theorem State.setPp_mem (s : State) (v : Packet) : (State.setPp s v).mem = s.mem := rfl
@[simp] theorem State.setPp_boot (s : State) (v : Packet) : (State.setPp s v).boot = s.boot := rfl
@[simp] theorem State.setPp_pwr (s : State) (v : Packet) : (State.setPp s v).pwr = s.pwr := rfl
@[simp] theorem State.setPp_pins (s : State) (v : Packet) : (State.setPp s v).pins = s.pins := rfl
@[simp] theorem State.setPp_tab (s : State) (v : Packet) : (State.setPp s v).tab = s.tab := rfl
@[simp] theorem State.setPp_course (s : State) (v : Packet) : (State.setPp s v).course = s.course := rfl
@[simp] theorem State.setPp_elastic (s : State) (v : Packet) : (State.setPp s v).elastic = s.elastic := rfl
@[simp] theorem State.setPp_mason (s : State) (v : Packet) : (State.setPp s v).mason = s.mason := rfl
@[simp] theorem State.setPp_sec (s : State) (v : Packet) : (State.setPp s v).sec = s.sec := rfl
@[simp] theorem State.setPp_pages (s : State) (v : Packet) : (State.setPp s v).pages = s.pages := rfl
@[simp] theorem State.setPp_sto (s : State) (v : Packet) : (State.setPp s v).sto = s.sto := rfl
@[simp] theorem State.setPp_grt (s : State) (v : Packet) : (State.setPp s v).grt = s.grt := rfl
@[simp] theorem State.setPp_pp (s : State) (v : Packet) : (State.setPp s v).pp = v := rfl

end Sys2Proof.Machine
end

