-- ==== Sys2Proof/Laws/MemOk.lean ====
section
/-! SUPPORT. What it says of a result that its states hold memory in canonical form, for every kind of result, with the lemmas that take such a statement apart. -/

namespace Sys2Proof.Machine

open Sys2Proof

def optOk {α : Type} (g : α → State) : Option α → Prop
  | none => True
  | some x => memOk (g x)

def Res.Ok : Res → Prop
  | .reply s _ _ _ => memOk s
  | .later s _ _ => memOk s

def Flow.Ok : Flow → Prop
  | .next _ s => memOk s
  | .jump _ _ s => memOk s
  | .keep _ s => memOk s
  | .halt s => memOk s
  | .fault _ s => memOk s

def Served.Ok : Served → Prop
  | .done s _ _ _ => memOk s
  | .wait s _ => memOk s
  | .item s _ _ => memOk s

def Acc.Ok {α : Type} : Acc α → Prop
  | .ok _ s => memOk s
  | .fault _ s => memOk s
  | .wait s => memOk s

def OutOk : Host.Outcome State Fault Refusal → Prop
  | .next s => memOk s
  | _ => True

section
variable {α β : Type} {g : α → State} {s t : State}

theorem optOk_none : optOk g none := trivial
theorem optOk_mk {x : α} (h : memOk (g x)) : optOk g (some x) := h
theorem optOk_get {o : Option α} {x : α} (e : o = some x) (h : optOk g o) : memOk (g x) := by subst e; exact h
theorem optOk_get2 {o : Option (β × State)} {x : β} (e : o = some (x, s)) (h : optOk (fun x => x.2) o) : memOk s := by
  subst e; exact h
theorem optOk_get3 {γ : Type} {o : Option (β × γ × State)} {x : β} {y : γ} (e : o = some (x, y, s)) (h : optOk (fun x => x.2.2) o) :
    memOk s := by
  subst e; exact h
theorem memOk_getD {o : Option State} (h : optOk (fun x => x) o) (hs : memOk s) : memOk (o.getD s) := by
  cases o with
  | none => exact hs
  | some x => exact h
theorem optOk_bind {o : Option β} {f : β → Option α} (h : ∀ x, o = some x → optOk g (f x)) : optOk g (o.bind f) := by
  cases o with
  | none => trivial
  | some x => exact h x rfl
theorem optOk_map {o : Option β} {f : β → α} (h : ∀ x, o = some x → memOk (g (f x))) : optOk g (o.map f) := by
  cases o with
  | none => trivial
  | some x => exact h x rfl

theorem optOk_orElse {o : Option α} {f : Unit → Option α} (h : optOk g o) (hf : optOk g (f ())) : optOk g (o.orElse f) := by
  cases o with
  | none => exact hf
  | some x => exact h
theorem optOk_foldl {f : Option α → β → Option α} (l : List β) (hf : ∀ o x, optOk g o → optOk g (f o x)) {o : Option α}
    (h : optOk g o) : optOk g (l.foldl f o) := by
  induction l generalizing o with
  | nil => exact h
  | cons x r ih => exact ih (hf o x h)

theorem Res.ok_reply {st d : Nat} {b : Bytes} (h : memOk s) : Res.Ok (.reply s st d b) := h
theorem Res.ok_later {d : Nat} {b : Bytes} (h : memOk s) : Res.Ok (.later s d b) := h
theorem Res.get_reply {r : Res} {st d : Nat} {b : Bytes} (e : r = .reply s st d b) (h : Res.Ok r) : memOk s := by subst e; exact h
theorem Res.get_later {r : Res} {d : Nat} {b : Bytes} (e : r = .later s d b) (h : Res.Ok r) : memOk s := by subst e; exact h

theorem Flow.ok_next {x : Thread} (h : memOk s) : Flow.Ok (.next x s) := h
theorem Flow.ok_jump {x : Thread} {a : SReg} (h : memOk s) : Flow.Ok (.jump x a s) := h
theorem Flow.ok_keep {x : Thread} (h : memOk s) : Flow.Ok (.keep x s) := h
theorem Flow.ok_halt (h : memOk s) : Flow.Ok (.halt s) := h
theorem Flow.ok_fault {k : Nat} (h : memOk s) : Flow.Ok (.fault k s) := h
theorem Flow.get_next {r : Flow} {x : Thread} (e : r = .next x s) (h : Flow.Ok r) : memOk s := by subst e; exact h
theorem Flow.get_jump {r : Flow} {x : Thread} {a : SReg} (e : r = .jump x a s) (h : Flow.Ok r) : memOk s := by subst e; exact h
theorem Flow.get_keep {r : Flow} {x : Thread} (e : r = .keep x s) (h : Flow.Ok r) : memOk s := by subst e; exact h
theorem Flow.get_halt {r : Flow} (e : r = .halt s) (h : Flow.Ok r) : memOk s := by subst e; exact h
theorem Flow.get_fault {r : Flow} {k : Nat} (e : r = .fault k s) (h : Flow.Ok r) : memOk s := by subst e; exact h

theorem Served.ok_done {x y : Nat} {b : Bytes} (h : memOk s) : Served.Ok (.done s x y b) := h
theorem Served.ok_wait {x : Nat} (h : memOk s) : Served.Ok (.wait s x) := h
theorem Served.ok_item {x y : Nat} (h : memOk s) : Served.Ok (.item s x y) := h
theorem Served.get_done {r : Served} {x y : Nat} {b : Bytes} (e : r = .done s x y b) (h : Served.Ok r) : memOk s := by subst e; exact h
theorem Served.get_wait {r : Served} {x : Nat} (e : r = .wait s x) (h : Served.Ok r) : memOk s := by subst e; exact h
theorem Served.get_item {r : Served} {x y : Nat} (e : r = .item s x y) (h : Served.Ok r) : memOk s := by subst e; exact h

theorem Served.get_done2 {r : β × Served} {x y : Nat} {b : Bytes} {c : β} (e : r = (c, .done s x y b)) (h : Served.Ok r.2) : memOk s := by
  subst e; exact h
theorem Served.get_wait2 {r : β × Served} {x : Nat} {c : β} (e : r = (c, .wait s x)) (h : Served.Ok r.2) : memOk s := by subst e; exact h
theorem Served.get_item2 {r : β × Served} {x y : Nat} {c : β} (e : r = (c, .item s x y)) (h : Served.Ok r.2) : memOk s := by
  subst e; exact h
theorem Served.get_snd {r : β × Served} {c : β} {v : Served} (e : r = (c, v)) (h : Served.Ok r.2) : Served.Ok v := by subst e; exact h

theorem Acc.ok_ok {a : α} (h : memOk s) : Acc.Ok (.ok a s) := h
theorem Acc.ok_fault {k : Nat} (h : memOk s) : Acc.Ok (.fault k s : Acc α) := h
theorem Acc.ok_wait (h : memOk s) : Acc.Ok (.wait s : Acc α) := h
theorem Acc.get_ok {r : Acc α} {a : α} (e : r = .ok a s) (h : Acc.Ok r) : memOk s := by subst e; exact h
theorem Acc.get_fault {r : Acc α} {k : Nat} (e : r = .fault k s) (h : Acc.Ok r) : memOk s := by subst e; exact h
theorem Acc.get_wait {r : Acc α} (e : r = .wait s) (h : Acc.Ok r) : memOk s := by subst e; exact h

theorem OutOk.mk (h : memOk s) : OutOk (.next s) := h

theorem memOk_fst {p : State × β} {x : β} (e : p = (s, x)) (h : memOk p.1) : memOk s := by subst e; exact h
theorem memOk_snd {p : β × State} {x : β} (e : p = (x, s)) (h : memOk p.2) : memOk s := by subst e; exact h

theorem memOk_foldl {f : State → α → State} (l : List α) (hf : ∀ s x, memOk s → memOk (f s x)) (h : memOk s) :
    memOk (l.foldl f s) := by
  induction l generalizing s with
  | nil => exact h
  | cons x r ih => exact ih (hf s x h)

theorem memOk_foldr {f : α → State → State} (l : List α) (hf : ∀ x s, memOk s → memOk (f x s)) (h : memOk s) :
    memOk (l.foldr f s) := by
  induction l with
  | nil => exact h
  | cons x r ih => exact hf x _ ih

theorem memOk_foldl_fst {f : State × β → α → State × β} (l : List α) (hf : ∀ p x, memOk p.1 → memOk (f p x).1) {p : State × β}
    (h : memOk p.1) : memOk (l.foldl f p).1 := by
  induction l generalizing p with
  | nil => exact h
  | cons x r ih => exact ih (hf p x h)

theorem memOk_foldl_snd {f : β × State → α → β × State} (l : List α) (hf : ∀ p x, memOk p.2 → memOk (f p x).2) {p : β × State}
    (h : memOk p.2) : memOk (l.foldl f p).2 := by
  induction l generalizing p with
  | nil => exact h
  | cons x r ih => exact ih (hf p x h)

/-- An update of the memory record that leaves the contents as they are. -/
theorem memOk_setMem {m : Mem} (h : Memory.wf m.cells = true) : memOk (s.setMem m) := h
theorem memOk_cells (h : memOk s) : Memory.wf s.mem.cells = true := h
end

end Sys2Proof.Machine
end

