-- ==== Sys2Proof/Laws/MemOkSetters.lean ====
section
/-! SUPPORT. Every operation of Machine/Setters.lean keeps memory in its canonical form. -/

namespace Sys2Proof.Machine

open Sys2Proof

theorem State_setDraw_memOk : ∀ x0 x1, memOk x0 → memOk (State.setDraw x0 x1) := fun _ _ h => h

theorem State_setTime_memOk : ∀ x0 x1, memOk x0 → memOk (State.setTime x0 x1) := fun _ _ h => h

theorem State_setOut_memOk : ∀ x0 x1, memOk x0 → memOk (State.setOut x0 x1) := fun _ _ h => h

theorem State_setPending_memOk : ∀ x0 x1, memOk x0 → memOk (State.setPending x0 x1) := fun _ _ h => h

theorem State_setCsr_memOk : ∀ x0 x1, memOk x0 → memOk (State.setCsr x0 x1) := fun _ _ h => h

theorem State_setErr_memOk : ∀ x0 x1, memOk x0 → memOk (State.setErr x0 x1) := fun _ _ h => h

theorem State_setPerf_memOk : ∀ x0 x1, memOk x0 → memOk (State.setPerf x0 x1) := fun _ _ h => h

theorem State_setTel_memOk : ∀ x0 x1, memOk x0 → memOk (State.setTel x0 x1) := fun _ _ h => h

theorem State_setIcp_memOk : ∀ x0 x1, memOk x0 → memOk (State.setIcp x0 x1) := fun _ _ h => h

theorem State_setRings_memOk : ∀ x0 x1, memOk x0 → memOk (State.setRings x0 x1) := fun _ _ h => h

theorem State_setFns_memOk : ∀ x0 x1, memOk x0 → memOk (State.setFns x0 x1) := fun _ _ h => h

theorem State_setPorts_memOk : ∀ x0 x1, memOk x0 → memOk (State.setPorts x0 x1) := fun _ _ h => h

theorem State_setMem_memOk : ∀ (s : State) m, Memory.wf m.cells = true → memOk (s.setMem m) := fun _ _ h => h

theorem State_setBoot_memOk : ∀ x0 x1, memOk x0 → memOk (State.setBoot x0 x1) := fun _ _ h => h

theorem State_setPwr_memOk : ∀ x0 x1, memOk x0 → memOk (State.setPwr x0 x1) := fun _ _ h => h

theorem State_setPins_memOk : ∀ x0 x1, memOk x0 → memOk (State.setPins x0 x1) := fun _ _ h => h

theorem State_setTab_memOk : ∀ x0 x1, memOk x0 → memOk (State.setTab x0 x1) := fun _ _ h => h

theorem State_setCourse_memOk : ∀ x0 x1, memOk x0 → memOk (State.setCourse x0 x1) := fun _ _ h => h

theorem State_setElastic_memOk : ∀ x0 x1, memOk x0 → memOk (State.setElastic x0 x1) := fun _ _ h => h

theorem State_setMason_memOk : ∀ x0 x1, memOk x0 → memOk (State.setMason x0 x1) := fun _ _ h => h

theorem State_setSec_memOk : ∀ x0 x1, memOk x0 → memOk (State.setSec x0 x1) := fun _ _ h => h

theorem State_setPages_memOk : ∀ x0 x1, memOk x0 → memOk (State.setPages x0 x1) := fun _ _ h => h

theorem State_setSto_memOk : ∀ x0 x1, memOk x0 → memOk (State.setSto x0 x1) := fun _ _ h => h

theorem State_setGrt_memOk : ∀ x0 x1, memOk x0 → memOk (State.setGrt x0 x1) := fun _ _ h => h

theorem State_setPp_memOk : ∀ x0 x1, memOk x0 → memOk (State.setPp x0 x1) := fun _ _ h => h

end Sys2Proof.Machine
end

