-- ==== Sys2Proof/Laws/MemOkOps.lean ====
section
/-! SUPPORT. Every operation of Machine/Ops.lean keeps memory in its canonical form. -/

namespace Sys2Proof.Machine

open Sys2Proof

theorem emit_memOk : ∀ x0 x1, memOk x1 → memOk (emit x0 x1) := by
  intros; unfold emit; repeat' (first | with_reducible assumption | with_reducible apply State_setOut_memOk)

theorem joinDomain_memOk : ∀ x0 x1, memOk x1 → memOk (joinDomain x0 x1) := by
  intros; unfold joinDomain; repeat' (first | with_reducible assumption | intro _ | extract_lets | with_reducible apply State_setGrt_memOk | split | dsimp +zetaDelta only)

theorem levelDomain_memOk : ∀ x0, memOk x0 → memOk (levelDomain x0) := by
  intros; unfold levelDomain; repeat' (first | with_reducible assumption | intro _ | extract_lets | with_reducible apply State_setGrt_memOk | split | dsimp +zetaDelta only)

theorem sendDomain_memOk : ∀ x0 x1 x2, memOk x2 → memOk (sendDomain x0 x1 x2) := by
  intros; unfold sendDomain; repeat' (first | with_reducible assumption | intro _ | extract_lets | with_reducible apply joinDomain_memOk | with_reducible apply emit_memOk | with_reducible apply State_setGrt_memOk | split | dsimp +zetaDelta only)

theorem thawed_memOk : ∀ x0 x1, memOk x0 → memOk x1 → memOk (thawed x0 x1) := by
  intros; unfold thawed; repeat' (first | with_reducible assumption | split)

theorem frozenAccess_memOk : ∀ x0 x1 x2, memOk x2 → memOk (frozenAccess x0 x1 x2) := by
  intros; unfold frozenAccess; repeat' (first | with_reducible assumption | with_reducible apply emit_memOk | split)

theorem drawn_memOk : ∀ x0, memOk x0 → memOk (drawn x0) := by
  intros; unfold drawn; repeat' (first | with_reducible assumption | with_reducible apply State_setDraw_memOk)

theorem setCell_memOk : ∀ x0 x1 x2 x3, memOk x3 → memOk (setCell x0 x1 x2 x3) := by
  intros; unfold setCell; repeat' (first | with_reducible assumption | with_reducible apply State_setCsr_memOk)

theorem bumpBy_memOk : ∀ x0 x1 x2 x3, memOk x3 → memOk (bumpBy x0 x1 x2 x3) := by
  intros; unfold bumpBy; repeat' (first | with_reducible assumption | with_reducible apply setCell_memOk)

theorem bump_memOk : ∀ x0 x1 x2, memOk x2 → memOk (bump x0 x1 x2) := by
  intros; unfold bump; repeat' (first | with_reducible assumption | with_reducible apply bumpBy_memOk)

theorem countUnmapped_memOk : ∀ x0 x1, memOk x1 → memOk (countUnmapped x0 x1) := by
  intros; unfold countUnmapped; repeat' (first | with_reducible assumption | with_reducible apply setCell_memOk | with_reducible apply bump_memOk)

theorem setFn_memOk : ∀ x0 x1 x2, memOk x2 → memOk (setFn x0 x1 x2) := by
  intros; unfold setFn; repeat' (first | with_reducible assumption | with_reducible apply State_setFns_memOk)

theorem updFn_memOk : ∀ x0 x1 x2, memOk x2 → memOk (updFn x0 x1 x2) := by
  intros; unfold updFn; repeat' (first | with_reducible assumption | with_reducible apply setFn_memOk | split)

theorem setPb_memOk : ∀ x0 x1 x2, memOk x2 → memOk (setPb x0 x1 x2) := by
  intros; unfold setPb; repeat' (first | with_reducible assumption | with_reducible apply State_setPorts_memOk)

theorem setLink_memOk : ∀ x0 x1 x2, memOk x2 → memOk (setLink x0 x1 x2) := by
  intros; unfold setLink; repeat' (first | with_reducible assumption | with_reducible apply setPb_memOk)

theorem setCfg_memOk : ∀ x0 x1 x2 x3, memOk x3 → memOk (setCfg x0 x1 x2 x3) := by
  intros; unfold setCfg; repeat' (first | with_reducible assumption | with_reducible apply State_setPorts_memOk)

theorem resetCfg_memOk : ∀ x0 x1, memOk x1 → memOk (resetCfg x0 x1) := by
  intros; unfold resetCfg; repeat' (first | with_reducible assumption | intro _ | extract_lets | with_reducible apply State_setPorts_memOk | split | dsimp +zetaDelta only)

theorem dmaDropped_memOk : ∀ x0 x1 x2, memOk x2 → memOk (dmaDropped x0 x1 x2) := by
  intros; unfold dmaDropped; repeat' (first | with_reducible assumption | with_reducible apply bumpBy_memOk | split)

theorem markPage_memOk : ∀ x0 x1 x2 x3, memOk x3 → memOk (markPage x0 x1 x2 x3) := by
  intros; unfold markPage; repeat' (first | with_reducible assumption | with_reducible apply updFn_memOk | with_reducible apply dmaDropped_memOk | intro _ | extract_lets | with_reducible apply emit_memOk | with_reducible apply setFn_memOk | split | dsimp +zetaDelta only)

theorem markWrite_memOk : ∀ x0 x1 x2 x3, memOk x3 → memOk (markWrite x0 x1 x2 x3) := by
  intros; unfold markWrite; repeat' (first | with_reducible assumption | intro _ | extract_lets | with_reducible apply updFn_memOk | with_reducible apply markPage_memOk | with_reducible apply memOk_foldl | with_reducible apply memOk_foldl_fst | with_reducible apply memOk_foldl_snd | split | dsimp +zetaDelta only)

theorem dmaOut_memOk : ∀ x0 x1 x2 x3, memOk x3 → memOk (dmaOut x0 x1 x2 x3) := by
  intros; unfold dmaOut; repeat' (first | with_reducible assumption | with_reducible apply markWrite_memOk | with_reducible apply dmaDropped_memOk | intro _ | extract_lets | with_reducible apply emit_memOk | with_reducible apply markPage_memOk | with_reducible apply memOk_foldl | split | dsimp +zetaDelta only)

theorem raiseMsix_memOk : ∀ x0 x1 x2, memOk x2 → memOk (raiseMsix x0 x1 x2) := by
  intros; unfold raiseMsix; repeat' (first | with_reducible assumption | intro _ | extract_lets | with_reducible apply State_setPorts_memOk | with_reducible apply dmaDropped_memOk | with_reducible apply emit_memOk | split | dsimp +zetaDelta only)

theorem releaseMsix_memOk : ∀ x0 x1, memOk x1 → memOk (releaseMsix x0 x1) := by
  intros; unfold releaseMsix; repeat' (first | with_reducible assumption | intro _ | extract_lets | with_reducible apply raiseMsix_memOk | with_reducible apply State_setPorts_memOk | with_reducible apply memOk_foldl | with_reducible apply memOk_foldl_fst | with_reducible apply memOk_foldl_snd | split | dsimp +zetaDelta only)

theorem setErr_memOk : ∀ x0 x1 x2, memOk x2 → memOk (setErr x0 x1 x2) := by
  intros; unfold setErr; repeat' (first | with_reducible assumption | with_reducible apply State_setErr_memOk)

theorem notifyErr_memOk : ∀ x0 x1 x2, memOk x2 → memOk (notifyErr x0 x1 x2) := by
  intros; unfold notifyErr; repeat' (first | with_reducible assumption | intro _ | extract_lets | with_reducible apply raiseMsix_memOk | with_reducible apply emit_memOk | split | dsimp +zetaDelta only)

theorem driveFault_memOk : ∀ x0 x1, memOk x1 → memOk (driveFault x0 x1) := by
  intros; unfold driveFault; repeat' (first | with_reducible assumption | with_reducible apply emit_memOk | with_reducible apply State_setTel_memOk | split)

theorem perfWith_memOk : ∀ x0 x1 x2 x3 x4, memOk x4 → memOk (perfWith x0 x1 x2 x3 x4) := by
  intros; unfold perfWith; repeat' (first | with_reducible assumption | with_reducible apply State_setPerf_memOk)

theorem perfEvent_memOk : ∀ x0 x1 x2 x3, memOk x3 → memOk (perfEvent x0 x1 x2 x3) := by
  intros; unfold perfEvent; repeat' (first | with_reducible assumption | with_reducible apply perfWith_memOk)

theorem perfLevel_memOk : ∀ x0 x1 x2 x3 x4 x5, memOk x5 → memOk (perfLevel x0 x1 x2 x3 x4 x5) := by
  intros; unfold perfLevel; repeat' (first | with_reducible assumption | with_reducible apply perfWith_memOk)

theorem noteErr_memOk : ∀ x0 x1 x2 x3 x4, memOk x4 → memOk (noteErr x0 x1 x2 x3 x4) := by
  intros; unfold noteErr; repeat' (first | with_reducible assumption | with_reducible apply driveFault_memOk | with_reducible apply notifyErr_memOk | with_reducible apply perfEvent_memOk | with_reducible apply setErr_memOk)

theorem recordCor_memOk : ∀ x0 x1 x2 x3, memOk x3 → memOk (recordCor x0 x1 x2 x3) := by
  intros; unfold recordCor; repeat' (first | with_reducible assumption | with_reducible apply noteErr_memOk)

theorem recordCon_memOk : ∀ x0 x1 x2 x3, memOk x3 → memOk (recordCon x0 x1 x2 x3) := by
  intros; unfold recordCon; repeat' (first | with_reducible assumption | with_reducible apply noteErr_memOk)

theorem logPolicy_memOk : ∀ x0 x1 x2 x3 x4 x5 x6, memOk x6 → memOk (logPolicy x0 x1 x2 x3 x4 x5 x6) := by
  intros; unfold logPolicy; repeat' (first | with_reducible assumption | extract_lets | with_reducible apply State_setTel_memOk | with_reducible apply bump_memOk | split)

theorem logSpare_memOk : ∀ x0 x1 x2 x3 x4, memOk x4 → memOk (logSpare x0 x1 x2 x3 x4) := by
  intros; unfold logSpare; repeat' (first | with_reducible assumption | with_reducible apply recordCor_memOk | with_reducible apply logPolicy_memOk | with_reducible apply State_setMem_memOk | (with_reducible show Memory.wf _ = true; first | refine memOk_cells ?_ | (refine Memory.wf_memPutBytes _ _ ?_) | (refine Memory.wf_memZero _ _ ?_) | (refine Memory.wf_memPut _ _ ?_) | (refine Memory.wf_memCopy _ _ _ ?_) | (refine Memory.wf_filter _ ?_) | exact Memory.wf_nil))

theorem sparingCon_memOk : ∀ x0 x1 x2 x3, memOk x3 → memOk (sparingCon x0 x1 x2 x3) := by
  intros; unfold sparingCon; repeat' (first | with_reducible assumption | intro _ | extract_lets | with_reducible apply recordCon_memOk | with_reducible apply setErr_memOk | with_reducible apply State_setErr_memOk | split | dsimp +zetaDelta only)

theorem ackSpare_memOk : ∀ x0 x1, memOk x1 → memOk (ackSpare x0 x1) := by
  intros; unfold ackSpare; repeat' (first | with_reducible assumption | with_reducible apply State_setErr_memOk | intro _ | extract_lets | with_reducible apply setErr_memOk | split | dsimp +zetaDelta only)

theorem unstage_memOk : ∀ x0 x1 x2, memOk x2 → memOk (unstage x0 x1 x2) := by
  intros; unfold unstage; repeat' (first | with_reducible assumption | with_reducible apply State_setIcp_memOk)

theorem clearKey_memOk : ∀ x0 x1, memOk x1 → memOk (clearKey x0 x1) := by
  intros; unfold clearKey; repeat' (first | with_reducible assumption | intro _ | extract_lets | with_reducible apply State_setSec_memOk | split | dsimp +zetaDelta only)

theorem useWorkingKey_memOk : ∀ x0 x1 x2, memOk x2 → memOk (useWorkingKey x0 x1 x2) := by
  intros; unfold useWorkingKey; repeat' (first | with_reducible assumption | intro _ | extract_lets | with_reducible apply State_setSec_memOk | split | dsimp +zetaDelta only)

theorem configRetry_memOk : ∀ x0 x1, memOk x1 → memOk (configRetry x0 x1) := by
  intros; unfold configRetry; repeat' (first | with_reducible assumption | with_reducible apply emit_memOk | split)

theorem driveAlert_memOk : ∀ x0 x1, memOk x1 → memOk (driveAlert x0 x1) := by
  intros; unfold driveAlert; repeat' (first | with_reducible assumption | with_reducible apply emit_memOk | split)

theorem takeFallback_memOk : ∀ x0, memOk x0 → memOk (takeFallback x0) := by
  intros; unfold takeFallback; repeat' (first | with_reducible assumption | with_reducible apply bump_memOk | with_reducible apply State_setPwr_memOk | split)

theorem setIsland_memOk : ∀ x0 x1 x2, memOk x2 → memOk (setIsland x0 x1 x2) := by
  intros; unfold setIsland; repeat' (first | with_reducible assumption | with_reducible apply State_setPwr_memOk)

theorem updIsland_memOk : ∀ x0 x1 x2, memOk x2 → memOk (updIsland x0 x1 x2) := by
  intros; unfold updIsland; repeat' (first | with_reducible assumption | with_reducible apply setIsland_memOk)

end Sys2Proof.Machine
end

