-- ==== Sys2Proof/Laws/MemOkMemOps.lean ====
section
/-! SUPPORT. Every operation of Machine/MemOps.lean keeps memory in its canonical form. -/

namespace Sys2Proof.Machine

open Sys2Proof

theorem setCells_memOk : ∀ m s, Memory.wf m = true → memOk (setCells m s) := fun _ _ h => h

theorem cleanFrame_wf : ∀ f m, Memory.wf m.cells = true → Memory.wf (cleanFrame f m).cells = true :=
  fun _ _ h => Memory.wf_memZero _ _ h

theorem takeHot_memOk : ∀ x0 x1, memOk x1 → optOk (fun x => x.2) (takeHot x0 x1) := by
  intros; unfold takeHot; repeat' (first | with_reducible assumption | extract_lets | with_reducible apply optOk_none | with_reducible apply optOk_mk | with_reducible apply State_setMem_memOk | with_reducible apply cleanFrame_wf | with_reducible apply memOk_cells | split)

theorem takeFrame_memOk : ∀ x0 x1 x2, memOk x2 → optOk (fun x => x.2) (takeFrame x0 x1 x2) := by
  intros; unfold takeFrame; repeat' (first | with_reducible assumption | extract_lets | with_reducible apply takeHot_memOk | with_reducible apply optOk_none | with_reducible apply optOk_mk | with_reducible apply State_setMem_memOk | with_reducible apply cleanFrame_wf | with_reducible apply memOk_cells | split)

theorem freeFrame_memOk : ∀ x0 x1, memOk x1 → memOk (freeFrame x0 x1) := by
  intros; unfold freeFrame; repeat' (first | with_reducible assumption | with_reducible apply State_setMem_memOk | (with_reducible show Memory.wf _ = true; first | refine memOk_cells ?_ | (refine Memory.wf_memPutBytes _ _ ?_) | (refine Memory.wf_memZero _ _ ?_) | (refine Memory.wf_memPut _ _ ?_) | (refine Memory.wf_memCopy _ _ _ ?_) | (refine Memory.wf_filter _ ?_) | exact Memory.wf_nil) | split)

theorem takeSingles_memOk : ∀ x0 x1 x2 x3, memOk x3 → optOk (fun x => x) (takeSingles x0 x1 x2 x3) := by
  intro x0 x1 x2
  induction x2 with
  | zero => exact fun s h => optOk_mk h
  | succ n ih =>
    intro s h
    unfold takeSingles
    refine optOk_bind (fun a ea => ih _ (State_setMem_memOk _ _ ?_))
    have ha : memOk a.2 := optOk_get (g := fun x => x.2) ea (takeFrame_memOk _ _ _ h)
    exact ha

theorem cleanRun_wf : ∀ f n m, Memory.wf m.cells = true → Memory.wf (cleanRun f n m).cells = true :=
  fun _ _ _ h => Memory.wf_memZero _ _ h

theorem takeRun_memOk : ∀ x0 x1 x2, memOk x2 → memOk (takeRun x0 x1 x2) := by
  intros; unfold takeRun; exact State_setMem_memOk _ _ (cleanRun_wf _ _ _ (memOk_cells (by assumption)))

theorem takeExtent_memOk : ∀ x0 x1 x2, memOk x2 → optOk (fun x => x) (takeExtent x0 x1 x2) := by
  intros; unfold takeExtent; repeat' (first | with_reducible assumption | intro _ | extract_lets | with_reducible apply optOk_none | with_reducible apply optOk_mk | with_reducible apply optOk_bind | with_reducible apply optOk_map | with_reducible apply optOk_orElse | with_reducible apply takeRun_memOk | with_reducible apply takeSingles_memOk | split | dsimp +zetaDelta only | (refine optOk_get (g := fun x => (x : State)) (by assumption) ?_))

theorem takeTwin_memOk : ∀ x0 x1 x2 x3, memOk x3 → optOk (fun x => x.2) (takeTwin x0 x1 x2 x3) := by
  intros; unfold takeTwin; repeat' (first | with_reducible assumption | intro _ | extract_lets | with_reducible apply optOk_none | with_reducible apply optOk_mk | with_reducible apply optOk_bind | with_reducible apply optOk_map | with_reducible apply optOk_orElse | with_reducible apply State_setMem_memOk | with_reducible apply takeHot_memOk | (with_reducible show Memory.wf _ = true; first | refine memOk_cells ?_ | (refine Memory.wf_memPutBytes _ _ ?_) | (refine Memory.wf_memZero _ _ ?_) | (refine Memory.wf_memPut _ _ ?_) | (refine Memory.wf_memCopy _ _ _ ?_) | (refine Memory.wf_filter _ ?_) | exact Memory.wf_nil) | split | dsimp +zetaDelta only | (refine optOk_get2 (by assumption) ?_))

theorem takePairs_memOk : ∀ x0 x1 x2 x3, memOk x3 → optOk (fun x => x) (takePairs x0 x1 x2 x3)
  | _, _, 0, _, h => h
  | x0, x1, n + 1, _, h => by
    refine optOk_bind (fun a ha => optOk_bind (fun b hb => takePairs_memOk x0 x1 n _ ?_))
    have h1 : memOk a.2 := optOk_get ha (takeFrame_memOk _ _ _ h)
    exact optOk_get hb (takeTwin_memOk _ _ _ _ (State_setMem_memOk _ _ (memOk_cells h1)))

theorem takeMap_memOk : ∀ x0 x1 x2 x3, memOk x3 → optOk (fun x => x) (takeMap x0 x1 x2 x3) := by
  intros; unfold takeMap; repeat' (first | with_reducible assumption | intro _ | extract_lets | with_reducible apply optOk_none | with_reducible apply optOk_mk | with_reducible apply optOk_bind | with_reducible apply optOk_map | with_reducible apply optOk_orElse | with_reducible apply takeRun_memOk | with_reducible apply takePairs_memOk | split | dsimp +zetaDelta only | (refine optOk_get (g := fun x => (x : State)) (by assumption) ?_))

theorem freeExtents_memOk : ∀ x0 x1, memOk x1 → memOk (freeExtents x0 x1) := by
  intros; unfold freeExtents; repeat' (first | with_reducible assumption | with_reducible apply State_setMem_memOk | (with_reducible show Memory.wf _ = true; first | refine memOk_cells ?_ | (refine Memory.wf_memPutBytes _ _ ?_) | (refine Memory.wf_memZero _ _ ?_) | (refine Memory.wf_memPut _ _ ?_) | (refine Memory.wf_memCopy _ _ _ ?_) | (refine Memory.wf_filter _ ?_) | exact Memory.wf_nil))

theorem unserved_memOk : ∀ x0 x1 x2, memOk x2 → memOk (unserved x0 x1 x2) := by
  intros; unfold unserved; repeat' (first | with_reducible assumption | with_reducible apply emit_memOk | split)

theorem completerAbort_memOk : ∀ x0 x1 x2, memOk x2 → memOk (completerAbort x0 x1 x2) := by
  intros; unfold completerAbort; repeat' (first | with_reducible assumption | with_reducible apply emit_memOk | split)

theorem poisonLine_memOk : ∀ x0 x1, memOk x1 → memOk (poisonLine x0 x1) := by
  intros; unfold poisonLine; repeat' (first | with_reducible assumption | with_reducible apply State_setMem_memOk | (with_reducible show Memory.wf _ = true; first | refine memOk_cells ?_ | (refine Memory.wf_memPutBytes _ _ ?_) | (refine Memory.wf_memZero _ _ ?_) | (refine Memory.wf_memPut _ _ ?_) | (refine Memory.wf_memCopy _ _ _ ?_) | (refine Memory.wf_filter _ ?_) | exact Memory.wf_nil) | split)

theorem writeSeg_memOk : ∀ x0 x1 x2 x3, memOk x3 → memOk (writeSeg x0 x1 x2 x3).1 := by
  intros; unfold writeSeg; repeat' (first | with_reducible assumption | with_reducible apply State_setMem_memOk | with_reducible apply setCells_memOk | (with_reducible show Memory.wf _ = true; first | refine memOk_cells ?_ | (refine Memory.wf_memPutBytes _ _ ?_) | (refine Memory.wf_memZero _ _ ?_) | (refine Memory.wf_memPut _ _ ?_) | (refine Memory.wf_memCopy _ _ _ ?_) | (refine Memory.wf_filter _ ?_) | exact Memory.wf_nil) | split)

theorem writeMem_memOk : ∀ x0 x1 x2, memOk x2 → memOk (writeMem x0 x1 x2).1 := by
  intros; unfold writeMem; repeat' (first | with_reducible assumption | intro _ | with_reducible apply writeSeg_memOk | with_reducible apply memOk_foldl_fst)

theorem writeFresh_memOk : ∀ x0 x1 x2, memOk x2 → memOk (writeFresh x0 x1 x2) := by
  intros; unfold writeFresh; repeat' (first | with_reducible assumption | with_reducible apply State_setMem_memOk | (with_reducible show Memory.wf _ = true; first | refine memOk_cells ?_ | (refine Memory.wf_memPutBytes _ _ ?_) | (refine Memory.wf_memZero _ _ ?_) | (refine Memory.wf_memPut _ _ ?_) | (refine Memory.wf_memCopy _ _ _ ?_) | (refine Memory.wf_filter _ ?_) | exact Memory.wf_nil))

theorem serveAcc_memOk : ∀ x0 x1, memOk x1 → memOk (serveAcc x0 x1) := by
  intros; unfold serveAcc; repeat' (first | with_reducible assumption | intro _ | extract_lets | with_reducible apply emit_memOk | with_reducible apply writeMem_memOk | split | dsimp +zetaDelta only)

theorem updBlk_memOk : ∀ x0 x1 x2 x3 x4, memOk x4 → memOk (updBlk x0 x1 x2 x3 x4) := by
  intros; unfold updBlk; repeat' (first | with_reducible assumption | with_reducible apply State_setMem_memOk | (with_reducible show Memory.wf _ = true; first | refine memOk_cells ?_ | (refine Memory.wf_memPutBytes _ _ ?_) | (refine Memory.wf_memZero _ _ ?_) | (refine Memory.wf_memPut _ _ ?_) | (refine Memory.wf_memCopy _ _ _ ?_) | (refine Memory.wf_filter _ ?_) | exact Memory.wf_nil))

theorem heatUp_memOk : ∀ x0 x1 x2 x3, memOk x3 → memOk (heatUp x0 x1 x2 x3) := by
  intros; unfold heatUp; repeat' (first | with_reducible assumption | with_reducible apply updBlk_memOk)

theorem vaultDenied_memOk : ∀ x0 x1, memOk x1 → memOk (vaultDenied x0 x1) := by
  intros; unfold vaultDenied; repeat' (first | with_reducible assumption | with_reducible apply recordCor_memOk | with_reducible apply bump_memOk)

end Sys2Proof.Machine
end

