-- ==== Sys2Proof/Laws/MemOkIcp.lean ====
section
/-! SUPPORT. Every operation of Machine/Icp.lean keeps memory in its canonical form. -/

namespace Sys2Proof.Machine

open Sys2Proof

theorem setRing_memOk : ∀ x0 x1 x2, memOk x2 → memOk (setRing x0 x1 x2) := by
  intros; unfold setRing; repeat' (first | with_reducible assumption | with_reducible apply State_setRings_memOk)

theorem Res_rej_memOk : ∀ x0 x1 x2, memOk x0 → Res.Ok (Res.rej x0 x1 x2) := by
  intros; unfold Res.rej; repeat' (first | with_reducible assumption | with_reducible apply Res.ok_reply)

theorem Res_ok_memOk : ∀ x0 x1 x2, memOk x0 → Res.Ok (Res.ok x0 x1 x2) := by
  intros; unfold Res.ok; repeat' (first | with_reducible assumption | with_reducible apply Res.ok_reply)

theorem Res_wait_memOk : ∀ x0 x1 x2, memOk x0 → Res.Ok (Res.wait x0 x1 x2) := by
  intros; unfold Res.wait; repeat' (first | with_reducible assumption | intro _ | extract_lets | with_reducible apply Res.ok_reply | with_reducible apply Res.ok_later | split | dsimp +zetaDelta only | (refine Res.get_reply (by assumption) ?_) | (refine Res.get_later (by assumption) ?_))

theorem checked_memOk : ∀ x0 x1 x2, memOk x0 → Res.Ok x2 → Res.Ok (checked x0 x1 x2) := by
  intros; unfold checked; repeat' (first | with_reducible assumption | with_reducible apply Res_rej_memOk | split)

theorem roomThen_memOk : ∀ x0 x1 x2, memOk x0 → Res.Ok x2 → Res.Ok (roomThen x0 x1 x2) := by
  intros; unfold roomThen; repeat' (first | with_reducible assumption | with_reducible apply checked_memOk | split)

theorem Ctx_okEcho_memOk : ∀ x0 x1 x2 x3 x4, memOk x1 → Res.Ok (Ctx.okEcho x0 x1 x2 x3 x4) := by
  intros; unfold Ctx.okEcho; repeat' (first | with_reducible assumption | intro _ | extract_lets | with_reducible apply Res.ok_reply | with_reducible apply Res.ok_later | with_reducible apply Res_ok_memOk | split | dsimp +zetaDelta only | (refine Res.get_reply (by assumption) ?_) | (refine Res.get_later (by assumption) ?_))

theorem fetchSlot_memOk : ∀ x0 x1, memOk x1 → memOk (fetchSlot x0 x1) := by
  intros; unfold fetchSlot; repeat' (first | with_reducible assumption | extract_lets | with_reducible apply setRing_memOk | split)

theorem slotWrite_memOk : ∀ x0 x1 x2 x3 x4, memOk x4 → memOk (slotWrite x0 x1 x2 x3 x4) := by
  intros; unfold slotWrite; repeat' (first | with_reducible assumption | intro _ | extract_lets | with_reducible apply writeMem_memOk | with_reducible apply dmaOut_memOk | split | dsimp +zetaDelta only | (refine memOk_fst (by assumption) ?_))

theorem deliverReply_memOk : ∀ x0 x1 x2 x3 x4, memOk x4 → memOk (deliverReply x0 x1 x2 x3 x4) := by
  intros; unfold deliverReply; repeat' (first | with_reducible assumption | with_reducible apply raiseMsix_memOk | intro _ | extract_lets | with_reducible apply emit_memOk | with_reducible apply slotWrite_memOk | split | dsimp +zetaDelta only)

theorem sendPacket_memOk : ∀ x0 x1 x2, memOk x2 → memOk (sendPacket x0 x1 x2) := by
  intros; unfold sendPacket; repeat' (first | with_reducible assumption | intro _ | extract_lets | with_reducible apply emit_memOk | split | dsimp +zetaDelta only)

theorem postReply_memOk : ∀ x0 x1 x2 x3, memOk x3 → memOk (postReply x0 x1 x2 x3) := by
  intros; unfold postReply; repeat' (first | with_reducible assumption | intro _ | extract_lets | with_reducible apply setRing_memOk | with_reducible apply deliverReply_memOk | with_reducible apply sendPacket_memOk | with_reducible apply State_setIcp_memOk | split | dsimp +zetaDelta only)

theorem sendReply_memOk : ∀ x0 x1 x2 x3 x4 x5 x6, memOk x6 → memOk (sendReply x0 x1 x2 x3 x4 x5 x6) := by
  intros; unfold sendReply; repeat' (first | with_reducible assumption | with_reducible apply postReply_memOk)

theorem icpStart_memOk : ∀ x0 x1 x2 x3 x4, (∀ c s, memOk s → Res.Ok (x1 c s)) → memOk x4 → memOk (icpStart x0 x1 x2 x3 x4) := by
  intro x0 x1 x2 x3 x4 hh h4; unfold icpStart; repeat' (first | with_reducible assumption | extract_lets | with_reducible apply sendReply_memOk | with_reducible apply recordCon_memOk | split | exact Res.get_reply (by assumption) (hh _ _ h4) | exact Res.get_later (by assumption) (hh _ _ h4))

theorem touchSession_memOk : ∀ x0 x1, memOk x1 → memOk (touchSession x0 x1) := by
  intros; unfold touchSession; repeat' (first | with_reducible assumption | with_reducible apply State_setIcp_memOk | split)

theorem addWait_memOk : ∀ x0 x1 x2 x3 x4, memOk x4 → memOk (addWait x0 x1 x2 x3 x4) := by
  intros; unfold addWait; repeat' (first | with_reducible assumption | with_reducible apply State_setIcp_memOk)

theorem livePause_memOk : ∀ x0, memOk x0 → memOk (livePause x0) := by
  intros; unfold livePause; repeat' (first | with_reducible assumption | with_reducible apply State_setBoot_memOk | with_reducible apply State_setIcp_memOk | split)

theorem finishWait_memOk : ∀ x0 x1 x2 x3 x4, memOk x4 → memOk (finishWait x0 x1 x2 x3 x4) := by
  intros; unfold finishWait; repeat' (first | with_reducible assumption | extract_lets | with_reducible apply State_setIcp_memOk | with_reducible apply sendReply_memOk | with_reducible apply setFn_memOk | split)

theorem freezeProgress_memOk : ∀ x0, memOk x0 → memOk (freezeProgress x0) := by
  intros; unfold freezeProgress; repeat' (first | with_reducible assumption | intro _ | extract_lets | with_reducible apply finishWait_memOk | with_reducible apply drawn_memOk | with_reducible apply memOk_foldl | with_reducible apply memOk_foldl_fst | with_reducible apply memOk_foldl_snd | split | dsimp +zetaDelta only)

end Sys2Proof.Machine
end

