-- ==== Sys2Proof/Laws/MemOkTables.lean ====
section
/-! SUPPORT. Every operation of Machine/Tables.lean keeps memory in its canonical form. -/

namespace Sys2Proof.Machine

open Sys2Proof

theorem setTbl_memOk : ∀ x0 x1 x2, memOk x2 → memOk (setTbl x0 x1 x2) := by
  intros; unfold setTbl; repeat' (first | with_reducible assumption | with_reducible apply State_setTab_memOk)

theorem updTbl_memOk : ∀ x0 x1 x2, memOk x2 → memOk (updTbl x0 x1 x2) := by
  intros; unfold updTbl; repeat' (first | with_reducible assumption | with_reducible apply setTbl_memOk | split)

theorem writeBlk_memOk : ∀ x0 x1 x2 x3, memOk x3 → memOk (writeBlk x0 x1 x2 x3) := by
  intros; unfold writeBlk; repeat' (first | with_reducible assumption | with_reducible apply writeFresh_memOk | split | dsimp +zetaDelta only)

theorem writeRow_memOk : ∀ x0 x1 x2 x3 x4 x5, memOk x5 → memOk (writeRow x0 x1 x2 x3 x4 x5) := by
  intros; unfold writeRow; repeat' (first | with_reducible assumption | intro _ | with_reducible apply writeBlk_memOk | with_reducible apply memOk_foldl | split)

theorem heatRow_memOk : ∀ x0 x1 x2 x3 x4, memOk x4 → memOk (heatRow x0 x1 x2 x3 x4) := by
  intros; unfold heatRow; repeat' (first | with_reducible assumption | intro _ | with_reducible apply heatUp_memOk | with_reducible apply memOk_foldl)

theorem initTableRow_memOk : ∀ x0 x1 x2 x3 x4, memOk x4 → memOk (initTableRow x0 x1 x2 x3 x4) := by
  intros; unfold initTableRow; repeat' (first | with_reducible assumption | with_reducible apply writeRow_memOk)

theorem initTable_memOk : ∀ x0 x1 x2, memOk x2 → memOk (initTable x0 x1 x2) := by
  intros; unfold initTable; repeat' (first | with_reducible assumption | intro _ | with_reducible apply writeRow_memOk | with_reducible apply initTableRow_memOk | with_reducible apply memOk_foldl | split)

theorem classFrame_memOk : ∀ x0 x1, memOk x1 → optOk (fun x => x.2) (classFrame x0 x1) := by
  intros; unfold classFrame; repeat' (first | with_reducible assumption | with_reducible apply optOk_orElse | with_reducible apply takeFrame_memOk | split)

theorem recoverFrame_memOk : ∀ x0 x1, memOk x1 → optOk (fun x => x.2) (recoverFrame x0 x1) := by
  intros; unfold recoverFrame; repeat' (first | with_reducible assumption | with_reducible apply optOk_orElse | with_reducible apply takeFrame_memOk | split)

theorem placeBlk_memOk : ∀ x0 x1 x2 x3 x4, optOk (fun x => x) x3 → optOk (fun x => x) (placeBlk x0 x1 x2 x3 x4) := by
  intros; unfold placeBlk; repeat' (first | with_reducible assumption | intro _ | extract_lets | with_reducible apply optOk_none | with_reducible apply optOk_mk | with_reducible apply optOk_bind | with_reducible apply optOk_map | with_reducible apply optOk_orElse | with_reducible apply State_setMem_memOk | with_reducible apply recoverFrame_memOk | with_reducible apply classFrame_memOk | (with_reducible show Memory.wf _ = true; first | refine memOk_cells ?_ | (refine Memory.wf_memPutBytes _ _ ?_) | (refine Memory.wf_memZero _ _ ?_) | (refine Memory.wf_memPut _ _ ?_) | (refine Memory.wf_memCopy _ _ _ ?_) | (refine Memory.wf_filter _ ?_) | exact Memory.wf_nil) | split | dsimp +zetaDelta only | (refine optOk_get (g := fun x => (x : State)) (by assumption) ?_) | (refine optOk_get2 (by assumption) ?_))

theorem allocTable_memOk : ∀ x0 x1 x2, memOk x2 → optOk (fun x => x) (allocTable x0 x1 x2) := by
  intros; unfold allocTable; repeat' (first | with_reducible assumption | intro _ | extract_lets | with_reducible apply optOk_none | with_reducible apply optOk_mk | with_reducible apply optOk_bind | with_reducible apply optOk_map | with_reducible apply optOk_orElse | with_reducible apply optOk_foldl | with_reducible apply placeBlk_memOk | with_reducible apply takeMap_memOk | with_reducible apply memOk_foldl | with_reducible apply memOk_foldl_fst | with_reducible apply memOk_foldl_snd | split | dsimp +zetaDelta only | (refine optOk_get (g := fun x => (x : State)) (by assumption) ?_))

theorem freeTable_memOk : ∀ x0 x1, memOk x1 → memOk (freeTable x0 x1) := by
  intros; unfold freeTable; repeat' (first | with_reducible assumption | intro _ | with_reducible apply unstage_memOk | with_reducible apply State_setMem_memOk | with_reducible apply freeFrame_memOk | with_reducible apply freeExtents_memOk | with_reducible apply State_setTab_memOk | with_reducible apply memOk_foldl | (with_reducible show Memory.wf _ = true; first | refine memOk_cells ?_ | (refine Memory.wf_memPutBytes _ _ ?_) | (refine Memory.wf_memZero _ _ ?_) | (refine Memory.wf_memPut _ _ ?_) | (refine Memory.wf_memCopy _ _ _ ?_) | (refine Memory.wf_filter _ ?_) | exact Memory.wf_nil) | split | dsimp +zetaDelta only)

theorem poisonRow_memOk : ∀ x0 x1 x2 x3 x4, memOk x4 → memOk (poisonRow x0 x1 x2 x3 x4) := by
  intros; unfold poisonRow; repeat' (first | with_reducible assumption | intro _ | extract_lets | with_reducible apply updTbl_memOk | split | dsimp +zetaDelta only)

theorem healLines_memOk : ∀ x0 x1, memOk x1 → memOk (healLines x0 x1) := by
  intros; unfold healLines; repeat' (first | with_reducible assumption | intro _ | extract_lets | with_reducible apply State_setMem_memOk | (with_reducible show Memory.wf _ = true; first | refine memOk_cells ?_ | (refine Memory.wf_memPutBytes _ _ ?_) | (refine Memory.wf_memZero _ _ ?_) | (refine Memory.wf_memPut _ _ ?_) | (refine Memory.wf_memCopy _ _ _ ?_) | (refine Memory.wf_filter _ ?_) | exact Memory.wf_nil) | split | dsimp +zetaDelta only)

theorem rowGood_memOk : ∀ x0 x1 x2, memOk x2 → memOk (rowGood x0 x1 x2) := by
  intros; unfold rowGood; repeat' (first | with_reducible assumption | intro _ | extract_lets | with_reducible apply healLines_memOk | with_reducible apply updTbl_memOk | split | dsimp +zetaDelta only)

theorem wroteRegions_memOk : ∀ x0 x1 x2 x3, memOk x3 → memOk (wroteRegions x0 x1 x2 x3) := by
  intros; unfold wroteRegions; repeat' (first | with_reducible assumption | intro _ | extract_lets | with_reducible apply healLines_memOk | with_reducible apply updTbl_memOk | split | dsimp +zetaDelta only)

theorem rollbackRecord_memOk : ∀ x0 x1 x2 x3 x4 x5 x6 x7, memOk x7 → memOk (rollbackRecord x0 x1 x2 x3 x4 x5 x6 x7) := by
  intros; unfold rollbackRecord; repeat' (first | with_reducible assumption | extract_lets | with_reducible apply setTbl_memOk | with_reducible apply dmaOut_memOk | split)

end Sys2Proof.Machine
end

