-- ==== Sys2Proof/Laws/MemOkCourseOps.lean ====
section
/-! SUPPORT. Every operation of Machine/CourseOps.lean keeps memory in its canonical form. -/

namespace Sys2Proof.Machine

open Sys2Proof

theorem setRun_memOk : ∀ x0 x1, memOk x1 → memOk (setRun x0 x1) := by
  intros; unfold setRun; repeat' (first | with_reducible assumption | with_reducible apply State_setCourse_memOk)

theorem updRun_memOk : ∀ x0 x1, memOk x1 → memOk (updRun x0 x1) := by
  intros; unfold updRun; repeat' (first | with_reducible assumption | with_reducible apply setRun_memOk | split)

theorem sendDown_memOk : ∀ x0 x1, memOk x1 → memOk (sendDown x0 x1) := by
  intros; unfold sendDown; repeat' (first | with_reducible assumption | with_reducible apply sendDomain_memOk | split)

theorem sendUp_memOk : ∀ x0 x1, memOk x1 → memOk (sendUp x0 x1) := by
  intros; unfold sendUp; repeat' (first | with_reducible assumption | with_reducible apply sendDomain_memOk | split)

theorem toCapturing_memOk : ∀ x0, memOk x0 → memOk (toCapturing x0) := by
  intros; unfold toCapturing; repeat' (first | with_reducible assumption | with_reducible apply updRun_memOk | split)

theorem notePeer_memOk : ∀ x0 x1 x2, memOk x2 → memOk (notePeer x0 x1 x2) := by
  intros; unfold notePeer; repeat' (first | with_reducible assumption | with_reducible apply State_setCourse_memOk | split)

theorem fenceProgress_memOk : ∀ x0, memOk x0 → memOk (fenceProgress x0) := by
  intros; unfold fenceProgress; repeat' (first | with_reducible assumption | extract_lets | with_reducible apply updRun_memOk | with_reducible apply toCapturing_memOk | with_reducible apply sendDown_memOk | with_reducible apply sendUp_memOk | split)

theorem copyBlock_memOk : ∀ x0 x1 x2 x3, memOk x3 → memOk (copyBlock x0 x1 x2 x3) := by
  intros; unfold copyBlock; repeat' (first | with_reducible assumption | intro _ | extract_lets | with_reducible apply perfEvent_memOk | with_reducible apply updBlk_memOk | with_reducible apply updRun_memOk | split | dsimp +zetaDelta only)

theorem captureBefore_memOk : ∀ x0 x1 x2 x3, memOk x3 → memOk (captureBefore x0 x1 x2 x3).1 := by
  intro x0 x1 x2 x3; fun_induction captureBefore x0 x1 x2 x3 <;> repeat' (first | intro _ | with_reducible apply copyBlock_memOk | with_reducible apply updRun_memOk | with_reducible apply_assumption | split | dsimp +zetaDelta only)

theorem noteStep_memOk : ∀ x0 x1 x2, memOk x2 → memOk (noteStep x0 x1 x2) := by
  intros; unfold noteStep; repeat' (first | with_reducible assumption | with_reducible apply updTbl_memOk)

theorem setArea_memOk : ∀ x0 x1 x2, memOk x2 → memOk (setArea x0 x1 x2) := by
  intros; unfold setArea; repeat' (first | with_reducible assumption | with_reducible apply State_setCourse_memOk)

theorem emitLedger_memOk : ∀ x0 x1 x2, memOk x2 → memOk (emitLedger x0 x1 x2) := by
  intros; unfold emitLedger; repeat' (first | with_reducible assumption | with_reducible apply emit_memOk)

theorem setLedger_memOk : ∀ x0 x1 x2, memOk x2 → memOk (setLedger x0 x1 x2) := by
  intros; unfold setLedger; repeat' (first | with_reducible assumption | with_reducible apply setArea_memOk)

theorem updRegion_memOk : ∀ x0 x1 x2, memOk x2 → memOk (updRegion x0 x1 x2) := by
  intros; unfold updRegion; repeat' (first | with_reducible assumption | with_reducible apply State_setCourse_memOk)

theorem abortCourse_memOk : ∀ x0 x1, memOk x1 → memOk (abortCourse x0 x1) := by
  intros; unfold abortCourse; repeat' (first | with_reducible assumption | with_reducible apply dmaOut_memOk | intro _ | with_reducible apply emit_memOk | with_reducible apply updRegion_memOk | with_reducible apply State_setMem_memOk | with_reducible apply State_setCourse_memOk | with_reducible apply updRun_memOk | with_reducible apply sendDown_memOk | with_reducible apply sendUp_memOk | with_reducible apply memOk_foldl | (with_reducible show Memory.wf _ = true; first | refine memOk_cells ?_ | (refine Memory.wf_memPutBytes _ _ ?_) | (refine Memory.wf_memZero _ _ ?_) | (refine Memory.wf_memPut _ _ ?_) | (refine Memory.wf_memCopy _ _ _ ?_) | (refine Memory.wf_filter _ ?_) | exact Memory.wf_nil) | split)

theorem updShard_memOk : ∀ x0 x1 x2, memOk x2 → memOk (updShard x0 x1 x2) := by
  intros; unfold updShard; repeat' (first | with_reducible assumption | with_reducible apply updRun_memOk)

theorem takeArea_memOk : ∀ x0 x1 x2, memOk x2 → optOk (fun x => x.2) (takeArea x0 x1 x2) := by
  intros; unfold takeArea; repeat' (first | with_reducible assumption | extract_lets | with_reducible apply optOk_none | with_reducible apply optOk_mk | with_reducible apply setArea_memOk | split)

theorem writeShard_memOk : ∀ x0 x1 x2 x3, memOk x3 → memOk (writeShard x0 x1 x2 x3) := by
  intros; unfold writeShard; repeat' (first | with_reducible assumption | intro _ | extract_lets | with_reducible apply emit_memOk | split | dsimp +zetaDelta only)

theorem packShard_memOk : ∀ x0 x1 x2, memOk x2 → memOk (packShard x0 x1 x2).2 := by
  intros; unfold packShard; repeat' (first | with_reducible assumption | extract_lets | with_reducible apply updShard_memOk | with_reducible apply useWorkingKey_memOk | split | dsimp +zetaDelta only)

theorem sendShard_memOk : ∀ x0 x1 x2 x3, memOk x3 → memOk (sendShard x0 x1 x2 x3) := by
  intros; unfold sendShard; repeat' (first | with_reducible assumption | with_reducible apply writeShard_memOk | with_reducible apply setArea_memOk | intro _ | extract_lets | with_reducible apply memOk_getD | with_reducible apply optOk_map | with_reducible apply optOk_bind | with_reducible apply takeArea_memOk | with_reducible apply abortCourse_memOk | with_reducible apply emit_memOk | with_reducible apply useWorkingKey_memOk | with_reducible apply updShard_memOk | split | dsimp +zetaDelta only | (refine optOk_get2 (by assumption) ?_))

theorem sendOut_memOk : ∀ x0 x1 x2, memOk x2 → memOk (sendOut x0 x1 x2) := by
  intros; unfold sendOut; repeat' (first | with_reducible assumption | with_reducible apply packShard_memOk | extract_lets | with_reducible apply abortCourse_memOk | with_reducible apply memOk_foldl_fst | with_reducible apply memOk_foldl_snd | intro _ | with_reducible apply sendShard_memOk | with_reducible apply memOk_foldl | split | dsimp +zetaDelta only)

theorem captureBlock_memOk : ∀ x0 x1, memOk x1 → memOk (captureBlock x0 x1) := by
  intros; unfold captureBlock; repeat' (first | with_reducible assumption | extract_lets | with_reducible apply memOk_foldl_fst | with_reducible apply memOk_foldl_snd | intro _ | with_reducible apply perfEvent_memOk | with_reducible apply updBlk_memOk | with_reducible apply updRun_memOk | with_reducible apply sendOut_memOk | with_reducible apply memOk_foldl | split | dsimp +zetaDelta only)

theorem useSignKey_memOk : ∀ x0, memOk x0 → memOk (useSignKey x0) := by
  intros; unfold useSignKey; repeat' (first | with_reducible assumption | intro _ | extract_lets | with_reducible apply useWorkingKey_memOk | split | dsimp +zetaDelta only)

theorem writeEverywhere_memOk : ∀ x0 x1 x2, memOk x2 → memOk (writeEverywhere x0 x1 x2).2 := by
  intros; unfold writeEverywhere; repeat' (first | with_reducible assumption | intro _ | with_reducible apply takeArea_memOk | with_reducible apply emit_memOk | with_reducible apply abortCourse_memOk | with_reducible apply memOk_foldl_snd | split | (refine optOk_get2 (by assumption) ?_))

theorem manifestProgress_memOk : ∀ x0, memOk x0 → memOk (manifestProgress x0) := by
  intros; unfold manifestProgress; repeat' (first | with_reducible assumption | intro _ | extract_lets | with_reducible apply writeEverywhere_memOk | with_reducible apply useSignKey_memOk | with_reducible apply updRun_memOk | split | dsimp +zetaDelta only | (refine memOk_snd (by assumption) ?_))

theorem commitProgress_memOk : ∀ x0, memOk x0 → memOk (commitProgress x0) := by
  intros; unfold commitProgress; repeat' (first | with_reducible assumption | intro _ | extract_lets | with_reducible apply manifestProgress_memOk | with_reducible apply writeEverywhere_memOk | with_reducible apply useSignKey_memOk | with_reducible apply updRun_memOk | with_reducible apply emitLedger_memOk | with_reducible apply sendUp_memOk | with_reducible apply memOk_foldl | with_reducible apply memOk_foldl_fst | with_reducible apply memOk_foldl_snd | split | dsimp +zetaDelta only | (refine memOk_snd (by assumption) ?_))

theorem courseCommitted_memOk : ∀ x0, memOk x0 → memOk (courseCommitted x0) := by
  intros; unfold courseCommitted; repeat' (first | with_reducible assumption | with_reducible apply updRun_memOk | with_reducible apply State_setMem_memOk | with_reducible apply State_setCourse_memOk | (with_reducible show Memory.wf _ = true; first | refine memOk_cells ?_ | (refine Memory.wf_memPutBytes _ _ ?_) | (refine Memory.wf_memZero _ _ ?_) | (refine Memory.wf_memPut _ _ ?_) | (refine Memory.wf_memCopy _ _ _ ?_) | (refine Memory.wf_filter _ ?_) | exact Memory.wf_nil))

theorem dropUse_memOk : ∀ x0 x1, memOk x1 → memOk (dropUse x0 x1) := by
  intros; unfold dropUse; repeat' (first | with_reducible assumption | with_reducible apply freeExtents_memOk)

theorem reuse_memOk : ∀ x0 x1 x2, memOk x2 → memOk (reuse x0 x1 x2) := by
  intros; unfold reuse; repeat' (first | with_reducible assumption | with_reducible apply State_setMem_memOk | (with_reducible show Memory.wf _ = true; first | refine memOk_cells ?_ | (refine Memory.wf_memPutBytes _ _ ?_) | (refine Memory.wf_memZero _ _ ?_) | (refine Memory.wf_memPut _ _ ?_) | (refine Memory.wf_memCopy _ _ _ ?_) | (refine Memory.wf_filter _ ?_) | exact Memory.wf_nil))

theorem enforcePolicy_memOk : ∀ x0, memOk x0 → memOk (enforcePolicy x0) := by
  intros; unfold enforcePolicy; repeat' (first | with_reducible assumption | intro _ | extract_lets | with_reducible apply State_setTab_memOk | with_reducible apply State_setCourse_memOk | with_reducible apply reuse_memOk | with_reducible apply dropUse_memOk | split | dsimp +zetaDelta only)

theorem openRun_memOk : ∀ x0 x1 x2 x3 x4 x5, memOk x5 → memOk (openRun x0 x1 x2 x3 x4 x5) := by
  intros; unfold openRun; repeat' (first | with_reducible assumption | with_reducible apply enforcePolicy_memOk | with_reducible apply State_setMem_memOk | with_reducible apply State_setCourse_memOk | with_reducible apply setRun_memOk | with_reducible apply updRun_memOk | (with_reducible show Memory.wf _ = true; first | refine memOk_cells ?_ | (refine Memory.wf_memPutBytes _ _ ?_) | (refine Memory.wf_memZero _ _ ?_) | (refine Memory.wf_memPut _ _ ?_) | (refine Memory.wf_memCopy _ _ _ ?_) | (refine Memory.wf_filter _ ?_) | exact Memory.wf_nil))

theorem warn_memOk : ∀ x0 x1 x2, memOk x2 → memOk (warn x0 x1 x2) := by
  intros; unfold warn; repeat' (first | with_reducible assumption | with_reducible apply State_setCourse_memOk)

end Sys2Proof.Machine
end

