-- ==== Sys2Proof/Laws/MemOkLines.lean ====
section
/-! SUPPORT. Every operation of Machine/Lines.lean keeps memory in its canonical form. -/

namespace Sys2Proof.Machine

open Sys2Proof

theorem takeUseFrame_memOk : ∀ x0 x1 x2, memOk x2 → optOk (fun x => x.2) (takeUseFrame x0 x1 x2) := by
  intros; unfold takeUseFrame; repeat' (first | with_reducible assumption | intro _ | with_reducible apply optOk_map | with_reducible apply State_setMem_memOk | with_reducible apply takeFrame_memOk | (refine optOk_get2 (by assumption) ?_))

theorem takeUseFrames_memOk : ∀ x0 x1 x2, memOk x2 → optOk (fun x => x.2) (takeUseFrames x0 x1 x2) := by
  intro x0 x1 x2; fun_induction takeUseFrames x0 x1 x2 <;> repeat' (first | intro _ | with_reducible apply optOk_bind | with_reducible apply optOk_map | with_reducible apply takeUseFrame_memOk | with_reducible apply_assumption | (refine optOk_get2 (by assumption) ?_))

theorem replaceFrame_memOk : ∀ x0 x1, memOk x1 → memOk (replaceFrame x0 x1) := by
  intros; unfold replaceFrame; repeat' (first | with_reducible assumption | intro _ | extract_lets | with_reducible apply optOk_map | with_reducible apply optOk_bind | with_reducible apply State_setMem_memOk | with_reducible apply takeHot_memOk | (with_reducible show Memory.wf _ = true; first | refine memOk_cells ?_ | (refine Memory.wf_memPutBytes _ _ ?_) | (refine Memory.wf_memZero _ _ ?_) | (refine Memory.wf_memPut _ _ ?_) | (refine Memory.wf_memCopy _ _ _ ?_) | (refine Memory.wf_filter _ ?_) | exact Memory.wf_nil) | split | dsimp +zetaDelta only | (refine optOk_get2 (by assumption) ?_))

theorem placeRing_memOk : ∀ x0 x1 x2 x3 x4 x5, memOk x5 → optOk (fun x => x.2) (placeRing x0 x1 x2 x3 x4 x5) := by
  intros; unfold placeRing; repeat' (first | with_reducible assumption | intro _ | with_reducible apply optOk_bind | with_reducible apply optOk_map | with_reducible apply State_setPorts_memOk | with_reducible apply takeUseFrames_memOk | (refine optOk_get2 (by assumption) ?_))

theorem dropRings_memOk : ∀ x0 x1, memOk x1 → memOk (dropRings x0 x1) := by
  intros; unfold dropRings; repeat' (first | with_reducible assumption | intro _ | with_reducible apply State_setPorts_memOk | with_reducible apply freeFrame_memOk | with_reducible apply State_setMem_memOk | with_reducible apply memOk_foldl | (with_reducible show Memory.wf _ = true; first | refine memOk_cells ?_ | (refine Memory.wf_memPutBytes _ _ ?_) | (refine Memory.wf_memZero _ _ ?_) | (refine Memory.wf_memPut _ _ ?_) | (refine Memory.wf_memCopy _ _ _ ?_) | (refine Memory.wf_filter _ ?_) | exact Memory.wf_nil))

theorem endpointRings_memOk : ∀ x0 x1, memOk x1 → memOk (endpointRings x0 x1) := by
  intros; unfold endpointRings; repeat' (first | with_reducible assumption | extract_lets | with_reducible apply placeRing_memOk | split | (refine optOk_get2 (by assumption) ?_))

theorem armEndpoint_memOk : ∀ x0 x1, memOk x1 → memOk (armEndpoint x0 x1) := by
  intros; unfold armEndpoint; repeat' (first | with_reducible assumption | intro _ | extract_lets | with_reducible apply endpointRings_memOk | with_reducible apply setRing_memOk | with_reducible apply State_setPorts_memOk | split | dsimp +zetaDelta only)

theorem retryRings_memOk : ∀ x0, memOk x0 → memOk (retryRings x0) := by
  intros; unfold retryRings; repeat' (first | with_reducible assumption | intro _ | extract_lets | with_reducible apply armEndpoint_memOk | with_reducible apply memOk_foldl | with_reducible apply memOk_foldl_fst | with_reducible apply memOk_foldl_snd | split | dsimp +zetaDelta only)

theorem retireRings_memOk : ∀ x0 x1, memOk x1 → memOk (retireRings x0 x1) := by
  intros; unfold retireRings; repeat' (first | with_reducible assumption | intro _ | extract_lets | with_reducible apply State_setPorts_memOk | with_reducible apply State_setMem_memOk | with_reducible apply memOk_foldl | with_reducible apply memOk_foldl_fst | with_reducible apply memOk_foldl_snd | (with_reducible show Memory.wf _ = true; first | refine memOk_cells ?_ | (refine Memory.wf_memPutBytes _ _ ?_) | (refine Memory.wf_memZero _ _ ?_) | (refine Memory.wf_memPut _ _ ?_) | (refine Memory.wf_memCopy _ _ _ ?_) | (refine Memory.wf_filter _ ?_) | exact Memory.wf_nil) | split | dsimp +zetaDelta only)

theorem endpointReset_memOk : ∀ x0 x1, memOk x1 → memOk (endpointReset x0 x1) := by
  intros; unfold endpointReset; repeat' (first | with_reducible assumption | intro _ | extract_lets | with_reducible apply setLink_memOk | with_reducible apply State_setIcp_memOk | with_reducible apply State_setRings_memOk | split | dsimp +zetaDelta only)

theorem ringPoisoned_memOk : ∀ x0 x1 x2, memOk x2 → memOk (ringPoisoned x0 x1 x2) := by
  intros; unfold ringPoisoned; repeat' (first | with_reducible assumption | intro _ | extract_lets | with_reducible apply armEndpoint_memOk | with_reducible apply retireRings_memOk | with_reducible apply recordCon_memOk | with_reducible apply State_setTab_memOk | with_reducible apply endpointReset_memOk | with_reducible apply dropRings_memOk | with_reducible apply endpointRings_memOk | split | dsimp +zetaDelta only)

theorem poisonRowsAt_memOk : ∀ x0 x1 x2 x3 x4, memOk x4 → memOk (poisonRowsAt x0 x1 x2 x3 x4) := by
  intros; unfold poisonRowsAt; repeat' (first | with_reducible assumption | intro _ | with_reducible apply poisonRow_memOk | with_reducible apply memOk_foldl)

theorem tableError_memOk : ∀ x0 x1, memOk x1 → memOk (tableError x0 x1) := by
  intros; unfold tableError; repeat' (first | with_reducible assumption | with_reducible apply updTbl_memOk)

theorem lineConsequence_memOk : ∀ x0 x1, memOk x1 → memOk (lineConsequence x0 x1) := by
  intros; unfold lineConsequence; repeat' (first | with_reducible assumption | with_reducible apply recordCor_memOk | with_reducible apply poisonRowsAt_memOk | with_reducible apply ringPoisoned_memOk | with_reducible apply tableError_memOk | with_reducible apply abortCourse_memOk | with_reducible apply recordCon_memOk | with_reducible apply State_setMem_memOk | with_reducible apply warn_memOk | (with_reducible show Memory.wf _ = true; first | refine memOk_cells ?_ | (refine Memory.wf_memPutBytes _ _ ?_) | (refine Memory.wf_memZero _ _ ?_) | (refine Memory.wf_memPut _ _ ?_) | (refine Memory.wf_memCopy _ _ _ ?_) | (refine Memory.wf_filter _ ?_) | exact Memory.wf_nil) | split | dsimp +zetaDelta only)

theorem badLine_memOk : ∀ x0 x1, memOk x1 → memOk (badLine x0 x1) := by
  intros; unfold badLine; repeat' (first | with_reducible assumption | intro _ | extract_lets | with_reducible apply poisonLine_memOk | with_reducible apply lineConsequence_memOk | with_reducible apply bump_memOk | split | dsimp +zetaDelta only)

theorem lineFault_memOk : ∀ x0 x1, memOk x1 → memOk (lineFault x0 x1) := by
  intros; unfold lineFault; repeat' (first | with_reducible assumption | intro _ | extract_lets | with_reducible apply warn_memOk | with_reducible apply bump_memOk | with_reducible apply recordCor_memOk | with_reducible apply badLine_memOk | with_reducible apply memOk_foldl | with_reducible apply memOk_foldl_fst | with_reducible apply memOk_foldl_snd | split | dsimp +zetaDelta only)

theorem lineFaults_memOk : ∀ x0 x1, memOk x1 → memOk (lineFaults x0 x1) := by
  intros; unfold lineFaults; repeat' (first | with_reducible assumption | intro _ | with_reducible apply lineFault_memOk | with_reducible apply memOk_foldl)

theorem fenceRows_memOk : ∀ x0 x1 x2, memOk x2 → memOk (fenceRows x0 x1 x2) := by
  intros; unfold fenceRows; repeat' (first | with_reducible assumption | intro _ | extract_lets | with_reducible apply poisonRow_memOk | with_reducible apply memOk_foldl | with_reducible apply memOk_foldl_fst | with_reducible apply memOk_foldl_snd | split | dsimp +zetaDelta only)

theorem rehomeBlock_memOk : ∀ x0 x1 x2, memOk x2 → memOk (rehomeBlock x0 x1 x2) := by
  intros; unfold rehomeBlock; repeat' (first | with_reducible assumption | intro _ | extract_lets | with_reducible apply optOk_map | with_reducible apply optOk_bind | with_reducible apply freeFrame_memOk | with_reducible apply updBlk_memOk | with_reducible apply recoverFrame_memOk | with_reducible apply fenceRows_memOk | split | dsimp +zetaDelta only | (refine optOk_get2 (by assumption) ?_))

theorem fencedFrames_memOk : ∀ x0 x1, memOk x1 → memOk (fencedFrames x0 x1) := by
  intros; unfold fencedFrames; repeat' (first | with_reducible assumption | intro _ | with_reducible apply updBlk_memOk | with_reducible apply State_setMem_memOk | with_reducible apply rehomeBlock_memOk | with_reducible apply abortCourse_memOk | with_reducible apply recordCon_memOk | with_reducible apply warn_memOk | with_reducible apply recordCor_memOk | with_reducible apply ringPoisoned_memOk | with_reducible apply replaceFrame_memOk | with_reducible apply memOk_foldl | (with_reducible show Memory.wf _ = true; first | refine memOk_cells ?_ | (refine Memory.wf_memPutBytes _ _ ?_) | (refine Memory.wf_memZero _ _ ?_) | (refine Memory.wf_memPut _ _ ?_) | (refine Memory.wf_memCopy _ _ _ ?_) | (refine Memory.wf_filter _ ?_) | exact Memory.wf_nil) | split | dsimp +zetaDelta only)

theorem mirrorFences_memOk : ∀ x0, memOk x0 → memOk (mirrorFences x0) := by
  intros; unfold mirrorFences; repeat' (first | with_reducible assumption | intro _ | extract_lets | with_reducible apply emit_memOk | with_reducible apply State_setMem_memOk | (with_reducible show Memory.wf _ = true; first | refine memOk_cells ?_ | (refine Memory.wf_memPutBytes _ _ ?_) | (refine Memory.wf_memZero _ _ ?_) | (refine Memory.wf_memPut _ _ ?_) | (refine Memory.wf_memCopy _ _ _ ?_) | (refine Memory.wf_filter _ ?_) | exact Memory.wf_nil) | split | dsimp +zetaDelta only)

theorem hostAccess_memOk : ∀ x0 x1, memOk x1 → memOk (hostAccess x0 x1) := by
  intros; unfold hostAccess; repeat' (first | with_reducible assumption | intro _ | extract_lets | with_reducible apply State_setMem_memOk | with_reducible apply serveAcc_memOk | with_reducible apply lineFaults_memOk | (with_reducible show Memory.wf _ = true; first | refine memOk_cells ?_ | (refine Memory.wf_memPutBytes _ _ ?_) | (refine Memory.wf_memZero _ _ ?_) | (refine Memory.wf_memPut _ _ ?_) | (refine Memory.wf_memCopy _ _ _ ?_) | (refine Memory.wf_filter _ ?_) | exact Memory.wf_nil) | split | dsimp +zetaDelta only)

theorem releaseAccs_memOk : ∀ x0, memOk x0 → memOk (releaseAccs x0) := by
  intros; unfold releaseAccs; repeat' (first | with_reducible assumption | intro _ | extract_lets | with_reducible apply serveAcc_memOk | with_reducible apply lineFaults_memOk | with_reducible apply State_setMem_memOk | with_reducible apply memOk_foldl | with_reducible apply memOk_foldl_fst | with_reducible apply memOk_foldl_snd | (with_reducible show Memory.wf _ = true; first | refine memOk_cells ?_ | (refine Memory.wf_memPutBytes _ _ ?_) | (refine Memory.wf_memZero _ _ ?_) | (refine Memory.wf_memPut _ _ ?_) | (refine Memory.wf_memCopy _ _ _ ?_) | (refine Memory.wf_filter _ ?_) | exact Memory.wf_nil) | split | dsimp +zetaDelta only)

theorem fenceChannel_memOk : ∀ x0 x1 x2 x3, memOk x3 → memOk (fenceChannel x0 x1 x2 x3) := by
  intros; unfold fenceChannel; repeat' (first | with_reducible assumption | with_reducible apply releaseAccs_memOk | intro _ | extract_lets | with_reducible apply State_setMem_memOk | with_reducible apply fencedFrames_memOk | with_reducible apply bumpBy_memOk | with_reducible apply recordCon_memOk | with_reducible apply mirrorFences_memOk | (with_reducible show Memory.wf _ = true; first | refine memOk_cells ?_ | (refine Memory.wf_memPutBytes _ _ ?_) | (refine Memory.wf_memZero _ _ ?_) | (refine Memory.wf_memPut _ _ ?_) | (refine Memory.wf_memCopy _ _ _ ?_) | (refine Memory.wf_filter _ ?_) | exact Memory.wf_nil) | split | dsimp +zetaDelta only)

theorem fenceCxl_memOk : ∀ x0 x1 x2, memOk x2 → memOk (fenceCxl x0 x1 x2) := by
  intros; unfold fenceCxl; repeat' (first | with_reducible assumption | intro _ | extract_lets | with_reducible apply State_setMem_memOk | with_reducible apply fencedFrames_memOk | with_reducible apply recordCon_memOk | with_reducible apply mirrorFences_memOk | (with_reducible show Memory.wf _ = true; first | refine memOk_cells ?_ | (refine Memory.wf_memPutBytes _ _ ?_) | (refine Memory.wf_memZero _ _ ?_) | (refine Memory.wf_memPut _ _ ?_) | (refine Memory.wf_memCopy _ _ _ ?_) | (refine Memory.wf_filter _ ?_) | exact Memory.wf_nil) | split | dsimp +zetaDelta only)

end Sys2Proof.Machine
end

