-- ==== Sys2Proof/Laws/MemOkRows.lean ====
section
/-! SUPPORT. Every operation of Machine/Rows.lean keeps memory in its canonical form. -/

namespace Sys2Proof.Machine

open Sys2Proof

theorem rewriteServing_memOk : ∀ x0 x1 x2 x3 x4, memOk x4 → memOk (rewriteServing x0 x1 x2 x3 x4) := by
  intros; unfold rewriteServing; repeat' (first | with_reducible assumption | with_reducible apply writeRow_memOk | with_reducible apply State_setDraw_memOk | split)

theorem storeRow_memOk : ∀ x0 x1 x2 x3 x4 x5, memOk x5 → memOk (storeRow x0 x1 x2 x3 x4 x5) := by
  intros; unfold storeRow; repeat' (first | with_reducible assumption | with_reducible apply writeRow_memOk | with_reducible apply State_setDraw_memOk | with_reducible apply rewriteServing_memOk | split | dsimp +zetaDelta only)

theorem heatKeys_memOk : ∀ x0 x1 x2 x3, memOk x3 → memOk (heatKeys x0 x1 x2 x3) := by
  intros; unfold heatKeys; repeat' (first | with_reducible assumption | intro _ | extract_lets | with_reducible apply heatUp_memOk | with_reducible apply memOk_foldl | with_reducible apply memOk_foldl_fst | with_reducible apply memOk_foldl_snd | split | dsimp +zetaDelta only)

theorem serveRead_memOk : ∀ x0 x1 x2 x3 x4, memOk x4 → Served.Ok (serveRead x0 x1 x2 x3 x4) := by
  intros; unfold serveRead; repeat' (first | with_reducible assumption | intro _ | extract_lets | with_reducible apply Served.ok_done | with_reducible apply Served.ok_wait | with_reducible apply perfEvent_memOk | with_reducible apply heatRow_memOk | with_reducible apply updTbl_memOk | split | dsimp +zetaDelta only)

theorem l1Forget_memOk : ∀ x0 x1, memOk x1 → memOk (l1Forget x0 x1) := by
  intros; unfold l1Forget; repeat' (first | with_reducible assumption | intro _ | extract_lets | with_reducible apply State_setMason_memOk | split | dsimp +zetaDelta only)

theorem moveBlock_memOk : ∀ x0 x1 x2, memOk x2 → memOk (moveBlock x0 x1 x2) := by
  intros; unfold moveBlock; repeat' (first | with_reducible assumption | intro _ | extract_lets | with_reducible apply State_setMem_memOk | with_reducible apply freeFrame_memOk | with_reducible apply l1Forget_memOk | with_reducible apply updBlk_memOk | (with_reducible show Memory.wf _ = true; first | refine memOk_cells ?_ | (refine Memory.wf_memPutBytes _ _ ?_) | (refine Memory.wf_memZero _ _ ?_) | (refine Memory.wf_memPut _ _ ?_) | (refine Memory.wf_memCopy _ _ _ ?_) | (refine Memory.wf_filter _ ?_) | exact Memory.wf_nil) | split | dsimp +zetaDelta only)

theorem promoteRow_memOk : ∀ x0 x1 x2, memOk x2 → memOk (promoteRow x0 x1 x2) := by
  intros; unfold promoteRow; repeat' (first | with_reducible assumption | intro _ | with_reducible apply takeFrame_memOk | with_reducible apply bump_memOk | with_reducible apply moveBlock_memOk | with_reducible apply State_setMem_memOk | with_reducible apply memOk_foldl | split | (refine optOk_get2 (by assumption) ?_))

theorem writable_touched_memOk : ∀ x0 x1 x2 x3 x4, memOk x4 → memOk (writable.touched x0 x1 x2 x3 x4) := by
  intros; unfold writable.touched; repeat' (first | with_reducible assumption | intro _ | extract_lets | with_reducible apply heatRow_memOk | with_reducible apply memOk_foldl | with_reducible apply memOk_foldl_fst | with_reducible apply memOk_foldl_snd | split | dsimp +zetaDelta only)

theorem writable_go_memOk : ∀ x0 x1 x2 x3 x4 x5, memOk x5 → Served.Ok (writable.go x0 x1 x2 x3 x4 x5) := by
  intros; unfold writable.go; repeat' (first | with_reducible assumption | intro _ | extract_lets | with_reducible apply Served.ok_done | with_reducible apply Served.ok_wait | with_reducible apply Served.ok_item | with_reducible apply writable_touched_memOk | with_reducible apply captureBefore_memOk | split | dsimp +zetaDelta only | (refine memOk_fst (by assumption) ?_) | (refine Served.get_done (by assumption) ?_) | (refine Served.get_wait (by assumption) ?_) | (refine Served.get_item (by assumption) ?_))

theorem writable_memOk : ∀ x0 x1 x2 x3 x4 x5 x6, memOk x6 → Served.Ok (writable x0 x1 x2 x3 x4 x5 x6) := by
  intros; unfold writable; repeat' (first | with_reducible assumption | intro _ | extract_lets | with_reducible apply heatRow_memOk | with_reducible apply captureBefore_memOk | with_reducible apply memOk_foldl | with_reducible apply memOk_foldl_fst | with_reducible apply memOk_foldl_snd | with_reducible apply Served.ok_done | with_reducible apply Served.ok_wait | with_reducible apply writable_go_memOk | with_reducible apply writable_touched_memOk | split | dsimp +zetaDelta only)

theorem insertKey_memOk : ∀ x0 x1 x2 x3 x4, memOk x4 → Served.Ok (insertKey x0 x1 x2 x3 x4).2 := by
  intros; unfold insertKey; repeat' (first | with_reducible assumption | intro _ | extract_lets | with_reducible apply Served.ok_done | with_reducible apply Served.ok_wait | with_reducible apply Served.ok_item | with_reducible apply optOk_none | with_reducible apply optOk_mk | with_reducible apply optOk_bind | with_reducible apply optOk_map | with_reducible apply optOk_orElse | with_reducible apply writable_memOk | with_reducible apply heatRow_memOk | with_reducible apply wroteRegions_memOk | with_reducible apply initTableRow_memOk | with_reducible apply writeRow_memOk | split | dsimp +zetaDelta only | (refine Served.get_done (by assumption) ?_) | (refine Served.get_wait (by assumption) ?_) | (refine Served.get_item (by assumption) ?_) | (refine Served.get_done2 (by assumption) ?_) | (refine Served.get_wait2 (by assumption) ?_) | (refine Served.get_item2 (by assumption) ?_) | (refine Served.get_snd (by assumption) ?_))

theorem updateRow_memOk : ∀ x0 x1 x2 x3 x4, memOk x4 → memOk (updateRow x0 x1 x2 x3 x4) := by
  intros; unfold updateRow; repeat' (first | with_reducible assumption | with_reducible apply wroteRegions_memOk | with_reducible apply storeRow_memOk)

theorem writeOneRow_memOk : ∀ x0 x1 x2 x3 x4, memOk x4 → memOk (writeOneRow x0 x1 x2 x3 x4) := by
  intros; unfold writeOneRow; repeat' (first | with_reducible assumption | with_reducible apply writeRow_memOk | with_reducible apply rewriteServing_memOk | with_reducible apply wroteRegions_memOk | split | dsimp +zetaDelta only)

theorem countUpdate_memOk : ∀ x0 x1, memOk x1 → memOk (countUpdate x0 x1) := by
  intros; unfold countUpdate; repeat' (first | with_reducible assumption | with_reducible apply perfEvent_memOk | with_reducible apply updTbl_memOk)

theorem noteWrite_memOk : ∀ x0 x1 x2 x3 x4 x5, memOk x5 → memOk (noteWrite x0 x1 x2 x3 x4 x5) := by
  intros; unfold noteWrite; repeat' (first | with_reducible assumption | intro _ | with_reducible apply noteStep_memOk | with_reducible apply heatRow_memOk | with_reducible apply memOk_foldl)

theorem serveWrite_memOk : ∀ x0 x1 x2 x3 x4 x5, memOk x5 → Served.Ok (serveWrite x0 x1 x2 x3 x4 x5) := by
  intros; unfold serveWrite; repeat' (first | with_reducible assumption | with_reducible apply Served.ok_done | with_reducible apply Served.ok_item | with_reducible apply noteWrite_memOk | with_reducible apply countUpdate_memOk | with_reducible apply updateRow_memOk | with_reducible apply writeOneRow_memOk | split)

theorem knowKey_memOk : ∀ x0 x1 x2, memOk x2 → memOk (knowKey x0 x1 x2) := by
  intros; unfold knowKey; repeat' (first | with_reducible assumption | intro _ | extract_lets | with_reducible apply updTbl_memOk | split | dsimp +zetaDelta only)

theorem serveRekey_memOk : ∀ x0 x1 x2 x3 x4, memOk x4 → Served.Ok (serveRekey x0 x1 x2 x3 x4) := by
  intros; unfold serveRekey; repeat' (first | with_reducible assumption | intro _ | extract_lets | with_reducible apply Served.ok_done | with_reducible apply Served.ok_wait | with_reducible apply Served.ok_item | with_reducible apply serveWrite_memOk | with_reducible apply heatRow_memOk | with_reducible apply knowKey_memOk | with_reducible apply writeRow_memOk | with_reducible apply writable_memOk | split | dsimp +zetaDelta only | (refine Served.get_done2 (by assumption) ?_) | (refine Served.get_wait2 (by assumption) ?_) | (refine Served.get_item2 (by assumption) ?_) | (refine Served.get_snd (by assumption) ?_) | (refine Served.get_done (by assumption) ?_) | (refine Served.get_wait (by assumption) ?_) | (refine Served.get_item (by assumption) ?_))

theorem serveFound_memOk : ∀ x0 x1 x2, memOk x2 → Served.Ok (serveFound x0 x1 x2) := by
  intros; unfold serveFound; repeat' (first | with_reducible assumption | with_reducible apply serveRekey_memOk | intro _ | extract_lets | with_reducible apply Served.ok_done | with_reducible apply Served.ok_wait | with_reducible apply Served.ok_item | with_reducible apply optOk_map | with_reducible apply optOk_bind | with_reducible apply insertKey_memOk | with_reducible apply serveWrite_memOk | with_reducible apply serveRead_memOk | with_reducible apply heatRow_memOk | with_reducible apply promoteRow_memOk | with_reducible apply writable_memOk | with_reducible apply memOk_foldl | with_reducible apply memOk_foldl_fst | with_reducible apply memOk_foldl_snd | split | dsimp +zetaDelta only | (refine Served.get_done2 (by assumption) ?_) | (refine Served.get_wait2 (by assumption) ?_) | (refine Served.get_item2 (by assumption) ?_) | (refine Served.get_snd (by assumption) ?_) | (refine Served.get_done (by assumption) ?_) | (refine Served.get_wait (by assumption) ?_) | (refine Served.get_item (by assumption) ?_))

theorem serveIndex_memOk : ∀ x0 x1 x2, memOk x2 → Served.Ok (serveIndex x0 x1 x2) := by
  intros; unfold serveIndex; repeat' (first | with_reducible assumption | intro _ | extract_lets | with_reducible apply Served.ok_done | with_reducible apply Served.ok_wait | with_reducible apply Served.ok_item | with_reducible apply serveFound_memOk | with_reducible apply heatKeys_memOk | split | dsimp +zetaDelta only | (refine Served.get_done (by assumption) ?_) | (refine Served.get_wait (by assumption) ?_) | (refine Served.get_item (by assumption) ?_))

end Sys2Proof.Machine
end

