-- ==== Sys2Proof/Laws/MemOkItems.lean ====
section
/-! SUPPORT. Every operation of Machine/Items.lean keeps memory in its canonical form. -/

namespace Sys2Proof.Machine

open Sys2Proof

theorem setUnit_memOk : ∀ x0 x1 x2, memOk x2 → memOk (setUnit x0 x1 x2) := by
  intros; unfold setUnit; repeat' (first | with_reducible assumption | with_reducible apply State_setMason_memOk)

theorem loadUnits_memOk : ∀ x0, memOk x0 → memOk (loadUnits x0) := by
  intros; unfold loadUnits; repeat' (first | with_reducible assumption | with_reducible apply State_setMason_memOk)

theorem zeroScratch_memOk : ∀ x0 x1 x2, memOk x2 → memOk (zeroScratch x0 x1 x2) := by
  intros; unfold zeroScratch; repeat' (first | with_reducible assumption | intro _ | extract_lets | with_reducible apply State_setMem_memOk | (with_reducible show Memory.wf _ = true; first | refine memOk_cells ?_ | (refine Memory.wf_memPutBytes _ _ ?_) | (refine Memory.wf_memZero _ _ ?_) | (refine Memory.wf_memPut _ _ ?_) | (refine Memory.wf_memCopy _ _ _ ?_) | (refine Memory.wf_filter _ ?_) | exact Memory.wf_nil) | split | dsimp +zetaDelta only)

theorem setL1_memOk : ∀ x0 x1 x2, memOk x2 → memOk (setL1 x0 x1 x2) := by
  intros; unfold setL1; repeat' (first | with_reducible assumption | with_reducible apply State_setMason_memOk)

theorem l1Clear_memOk : ∀ x0 x1, memOk x1 → memOk (l1Clear x0 x1) := by
  intros; unfold l1Clear; repeat' (first | with_reducible assumption | with_reducible apply State_setMason_memOk)

theorem l1Drop_memOk : ∀ x0 x1 x2, memOk x2 → memOk (l1Drop x0 x1 x2) := by
  intros; unfold l1Drop; repeat' (first | with_reducible assumption | with_reducible apply setL1_memOk)

theorem releaseKernel_memOk : ∀ x0 x1, memOk x1 → memOk (releaseKernel x0 x1) := by
  intros; unfold releaseKernel; repeat' (first | with_reducible assumption | intro _ | extract_lets | with_reducible apply zeroScratch_memOk | with_reducible apply freeExtents_memOk | with_reducible apply State_setMason_memOk | with_reducible apply memOk_foldl | with_reducible apply memOk_foldl_fst | with_reducible apply memOk_foldl_snd | split | dsimp +zetaDelta only)

theorem addJob_memOk : ∀ x0 x1, memOk x1 → memOk (addJob x0 x1) := by
  intros; unfold addJob; repeat' (first | with_reducible assumption | with_reducible apply State_setMason_memOk)

theorem updJob_memOk : ∀ x0 x1 x2, memOk x2 → memOk (updJob x0 x1 x2) := by
  intros; unfold updJob; repeat' (first | with_reducible assumption | with_reducible apply State_setMason_memOk)

theorem setThread_memOk : ∀ x0 x1 x2, memOk x2 → memOk (setThread x0 x1 x2) := by
  intros; unfold setThread; repeat' (first | with_reducible assumption | with_reducible apply State_setMason_memOk)

theorem giveItem_memOk : ∀ x0 x1 x2 x3, memOk x3 → memOk (giveItem x0 x1 x2 x3) := by
  intros; unfold giveItem; repeat' (first | with_reducible assumption | intro _ | extract_lets | with_reducible apply setThread_memOk | with_reducible apply updJob_memOk | split | dsimp +zetaDelta only)

theorem handSlot_memOk : ∀ x0 x1 x2 x3, memOk x2 → memOk (handSlot x0 x1 x2 x3) := by
  intros; unfold handSlot; repeat' (first | with_reducible assumption | intro _ | extract_lets | with_reducible apply giveItem_memOk | with_reducible apply l1Clear_memOk | with_reducible apply setThread_memOk | with_reducible apply State_setMason_memOk | split | dsimp +zetaDelta only)

theorem preemptSlot_memOk : ∀ x0 x1 x2 x3, memOk x2 → memOk (preemptSlot x0 x1 x2 x3) := by
  intros; unfold preemptSlot; repeat' (first | with_reducible assumption | intro _ | extract_lets | with_reducible apply giveItem_memOk | with_reducible apply State_setMason_memOk | split | dsimp +zetaDelta only)

theorem dispatchItems_memOk : ∀ x0, memOk x0 → memOk (dispatchItems x0) := by
  intros; unfold dispatchItems; repeat' (first | with_reducible assumption | intro _ | extract_lets | with_reducible apply preemptSlot_memOk | with_reducible apply handSlot_memOk | with_reducible apply memOk_foldl | with_reducible apply memOk_foldl_fst | with_reducible apply memOk_foldl_snd | split | dsimp +zetaDelta only)

end Sys2Proof.Machine
end

