-- ==== Sys2Proof/Laws/MemOkDesc.lean ====
section
/-! SUPPORT. Every operation of Machine/Desc.lean keeps memory in its canonical form. -/

namespace Sys2Proof.Machine

open Sys2Proof

theorem setCqp_memOk : ∀ x0 x1 x2, memOk x2 → memOk (setCqp x0 x1 x2) := by
  intros; unfold setCqp; repeat' (first | with_reducible assumption | with_reducible apply State_setTab_memOk)

theorem updCqp_memOk : ∀ x0 x1 x2, memOk x2 → memOk (updCqp x0 x1 x2) := by
  intros; unfold updCqp; repeat' (first | with_reducible assumption | with_reducible apply setCqp_memOk | split)

theorem writeCqe_memOk : ∀ x0 x1 x2 x3, memOk x3 → memOk (writeCqe x0 x1 x2 x3) := by
  intros; unfold writeCqe; repeat' (first | with_reducible assumption | intro _ | extract_lets | with_reducible apply raiseMsix_memOk | with_reducible apply setCqp_memOk | with_reducible apply writeMem_memOk | with_reducible apply emit_memOk | with_reducible apply dmaOut_memOk | split | dsimp +zetaDelta only)

theorem postCqe_memOk : ∀ x0 x1 x2 x3 x4 x5 x6, memOk x6 → memOk (postCqe x0 x1 x2 x3 x4 x5 x6) := by
  intros; unfold postCqe; repeat' (first | with_reducible assumption | intro _ | extract_lets | with_reducible apply setCqp_memOk | with_reducible apply writeCqe_memOk | split | dsimp +zetaDelta only)

theorem updProg_memOk : ∀ x0 x1 x2 x3, memOk x3 → memOk (updProg x0 x1 x2 x3) := by
  intros; unfold updProg; repeat' (first | with_reducible assumption | with_reducible apply updCqp_memOk)

theorem gotIndex_memOk : ∀ x0 x1 x2 x3 x4 x5 x6, memOk x6 → memOk (gotIndex x0 x1 x2 x3 x4 x5 x6) := by
  intros; unfold gotIndex; repeat' (first | with_reducible assumption | with_reducible apply updProg_memOk)

theorem ruleJob_memOk : ∀ x0 x1 x2 x3 x4 x5 x6, memOk x6 → memOk (ruleJob x0 x1 x2 x3 x4 x5 x6) := by
  intros; unfold ruleJob; repeat' (first | with_reducible assumption | intro _ | extract_lets | with_reducible apply addJob_memOk | split | dsimp +zetaDelta only)

theorem servePosition_memOk : ∀ x0 x1 x2 x3, memOk x3 → memOk (servePosition x0 x1 x2 x3) := by
  intros; unfold servePosition; repeat' (first | with_reducible assumption | intro _ | extract_lets | with_reducible apply gotIndex_memOk | with_reducible apply serveIndex_memOk | with_reducible apply State_setCourse_memOk | with_reducible apply updProg_memOk | with_reducible apply ruleJob_memOk | with_reducible apply sendDomain_memOk | split | dsimp +zetaDelta only | (refine Served.get_done (by assumption) ?_) | (refine Served.get_wait (by assumption) ?_) | (refine Served.get_item (by assumption) ?_))

theorem kernelComplete_memOk : ∀ x0 x1 x2 x3 x4, memOk x4 → memOk (kernelComplete x0 x1 x2 x3 x4) := by
  intros; unfold kernelComplete; repeat' (first | with_reducible assumption | with_reducible apply updCqp_memOk | with_reducible apply postCqe_memOk | split)

theorem completeDesc_memOk : ∀ x0 x1 x2, memOk x2 → memOk (completeDesc x0 x1 x2) := by
  intros; unfold completeDesc; repeat' (first | with_reducible assumption | intro _ | extract_lets | with_reducible apply setCqp_memOk | with_reducible apply dmaOut_memOk | with_reducible apply updCqp_memOk | with_reducible apply postCqe_memOk | split | dsimp +zetaDelta only)

theorem advanceQueue_memOk : ∀ x0 x1, memOk x1 → memOk (advanceQueue x0 x1) := by
  intros; unfold advanceQueue; repeat' (first | with_reducible assumption | intro _ | with_reducible apply servePosition_memOk | with_reducible apply completeDesc_memOk | with_reducible apply memOk_foldl)

theorem fetchDescs_memOk : ∀ x0 x1 x2, memOk x2 → memOk (fetchDescs x0 x1 x2) := by
  intro x0 x1 x2; fun_induction fetchDescs x0 x1 x2 <;> repeat' (first | intro _ | with_reducible apply_assumption)

theorem startDesc_memOk : ∀ x0 x1 x2 x3 x4, memOk x4 → memOk (startDesc x0 x1 x2 x3 x4) := by
  intros; unfold startDesc; repeat' (first | with_reducible assumption | extract_lets | with_reducible apply setCqp_memOk | with_reducible apply lineFaults_memOk | with_reducible apply postCqe_memOk | with_reducible apply addJob_memOk | with_reducible apply updCqp_memOk | split)

theorem startDescs_memOk : ∀ x0 x1 x2, memOk x2 → memOk (startDescs x0 x1 x2) := by
  intro x0 x1 x2; fun_induction startDescs x0 x1 x2 <;> repeat' (first | intro _ | with_reducible apply advanceQueue_memOk | with_reducible apply startDesc_memOk | with_reducible apply_assumption)

theorem runQueue_memOk : ∀ x0 x1, memOk x1 → memOk (runQueue x0 x1) := by
  intros; unfold runQueue; repeat' (first | with_reducible assumption | with_reducible apply fetchDescs_memOk | with_reducible apply advanceQueue_memOk | with_reducible apply startDescs_memOk)

theorem updFwd_memOk : ∀ x0 x1 x2, memOk x2 → memOk (updFwd x0 x1 x2) := by
  intros; unfold updFwd; repeat' (first | with_reducible assumption | with_reducible apply State_setTab_memOk)

theorem serveForwarded_memOk : ∀ x0 x1, memOk x1 → memOk (serveForwarded x0 x1) := by
  intros; unfold serveForwarded; repeat' (first | with_reducible assumption | intro _ | extract_lets | with_reducible apply sendDomain_memOk | with_reducible apply State_setTab_memOk | with_reducible apply serveIndex_memOk | with_reducible apply updFwd_memOk | with_reducible apply ruleJob_memOk | split | (refine Served.get_done (by assumption) ?_) | (refine Served.get_wait (by assumption) ?_) | (refine Served.get_item (by assumption) ?_) | dsimp +zetaDelta only)

theorem removeCqp_memOk : ∀ x0 x1, memOk x1 → memOk (removeCqp x0 x1) := by
  intros; unfold removeCqp; repeat' (first | with_reducible assumption | intro _ | extract_lets | with_reducible apply updRun_memOk | with_reducible apply dropRings_memOk | with_reducible apply State_setTab_memOk | split | dsimp +zetaDelta only)

theorem deliverHeld_memOk : ∀ x0 x1, memOk x1 → memOk (deliverHeld x0 x1) := by
  intros; unfold deliverHeld; repeat' (first | with_reducible assumption | extract_lets | with_reducible apply memOk_foldl_fst | with_reducible apply memOk_foldl_snd | intro _ | with_reducible apply setCqp_memOk | with_reducible apply dmaOut_memOk | with_reducible apply writeCqe_memOk | with_reducible apply memOk_foldl | split | dsimp +zetaDelta only)

theorem destroyProgress_memOk : ∀ x0, memOk x0 → memOk (destroyProgress x0) := by
  intros; unfold destroyProgress; repeat' (first | with_reducible assumption | extract_lets | with_reducible apply freezeProgress_memOk | with_reducible apply memOk_foldl_fst | with_reducible apply memOk_foldl_snd | intro _ | with_reducible apply finishWait_memOk | with_reducible apply freeTable_memOk | with_reducible apply removeCqp_memOk | with_reducible apply releaseKernel_memOk | with_reducible apply drawn_memOk | with_reducible apply memOk_foldl | split | dsimp +zetaDelta only)

theorem settleOnce_memOk : ∀ x0, memOk x0 → memOk (settleOnce x0) := by
  intros; unfold settleOnce; repeat' (first | with_reducible assumption | intro _ | with_reducible apply runQueue_memOk | with_reducible apply serveForwarded_memOk | with_reducible apply destroyProgress_memOk | with_reducible apply commitProgress_memOk | with_reducible apply toCapturing_memOk | with_reducible apply fenceProgress_memOk | with_reducible apply dispatchItems_memOk | with_reducible apply memOk_foldl)

theorem settleN_memOk : ∀ x0 x1, memOk x1 → memOk (settleN x0 x1) := by
  intro x0 x1; fun_induction settleN x0 x1 <;> repeat' (first | intro _ | with_reducible apply settleOnce_memOk | with_reducible apply_assumption)

theorem settle_memOk : ∀ x0, memOk x0 → memOk (settle x0) := by
  intros; unfold settle; repeat' (first | with_reducible assumption | intro _ | extract_lets | with_reducible apply retryRings_memOk | with_reducible apply settleN_memOk | split | dsimp +zetaDelta only)

end Sys2Proof.Machine
end

