-- ==== Sys2Proof/Laws/MemOkAlarm.lean ====
section
/-! SUPPORT. Every operation of Machine/Alarm.lean keeps memory in its canonical form. -/

namespace Sys2Proof.Machine

open Sys2Proof

theorem wipeKeys_memOk : ∀ x0, memOk x0 → memOk (wipeKeys x0) := by
  intros; unfold wipeKeys; repeat' (first | with_reducible assumption | intro _ | extract_lets | with_reducible apply State_setSec_memOk | split | dsimp +zetaDelta only)

theorem holdCryptoErase_memOk : ∀ x0, memOk x0 → memOk (holdCryptoErase x0) := by
  intros; unfold holdCryptoErase; repeat' (first | with_reducible assumption | with_reducible apply State_setSto_memOk)

theorem abortKeyless_memOk : ∀ x0, memOk x0 → memOk (abortKeyless x0) := by
  intros; unfold abortKeyless; repeat' (first | with_reducible assumption | with_reducible apply abortCourse_memOk | split)

theorem alarmCore_memOk : ∀ x0 x1, memOk x1 → memOk (alarmCore x0 x1) := by
  intros; unfold alarmCore; repeat' (first | with_reducible assumption | with_reducible apply bump_memOk | with_reducible apply State_setSec_memOk | with_reducible apply recordCon_memOk | with_reducible apply holdCryptoErase_memOk | with_reducible apply wipeKeys_memOk | with_reducible apply abortKeyless_memOk)

theorem cipherCheck_memOk : ∀ x0 x1 x2, memOk x2 → memOk (cipherCheck x0 x1 x2) := by
  intros; unfold cipherCheck; repeat' (first | with_reducible assumption | with_reducible apply recordCor_memOk | with_reducible apply bump_memOk | with_reducible apply alarmCore_memOk | with_reducible apply recordCon_memOk | split)

end Sys2Proof.Machine
end

