-- ==== Sys2Proof/Laws/MemOkTableCmds.lean ====
section
/-! SUPPORT. Every operation of Machine/TableCmds.lean keeps memory in its canonical form. -/

namespace Sys2Proof.Machine

open Sys2Proof

theorem buildTable_memOk : ∀ x0 x1, memOk x1 → optOk (fun x => x.2.2) (buildTable x0 x1) := by
  intros; unfold buildTable; repeat' (first | with_reducible assumption | intro _ | extract_lets | with_reducible apply optOk_none | with_reducible apply optOk_bind | with_reducible apply optOk_map | with_reducible apply initTable_memOk | with_reducible apply setTbl_memOk | with_reducible apply allocTable_memOk | split | (refine optOk_get (g := fun x => (x : State)) (by assumption) ?_))

theorem hTableCreate_memOk : ∀ x0 x1, memOk x1 → Res.Ok (hTableCreate x0 x1) := by
  intros; unfold hTableCreate; repeat' (first | with_reducible assumption | intro _ | extract_lets | with_reducible apply checked_memOk | with_reducible apply roomThen_memOk | with_reducible apply buildTable_memOk | with_reducible apply Res_rej_memOk | split | (refine optOk_get3 (by assumption) ?_) | dsimp +zetaDelta only)

theorem hTableDestroy_memOk : ∀ x0 x1, memOk x1 → Res.Ok (hTableDestroy x0 x1) := by
  intros; unfold hTableDestroy; repeat' (first | with_reducible assumption | with_reducible apply Res.ok_later | with_reducible apply Res_rej_memOk | with_reducible apply addWait_memOk | with_reducible apply updTbl_memOk | with_reducible apply Res_ok_memOk | with_reducible apply freeTable_memOk | split)

theorem hTableQuery_memOk : ∀ x0 x1, memOk x1 → Res.Ok (hTableQuery x0 x1) := by
  intros; unfold hTableQuery; repeat' (first | with_reducible assumption | with_reducible apply Res_rej_memOk | with_reducible apply Res_ok_memOk | split)

theorem placeQueue_memOk : ∀ x0 x1 x2 x3 x4 x5, memOk x5 → optOk (fun x => x.2.2) (placeQueue x0 x1 x2 x3 x4 x5) := by
  intros; unfold placeQueue; repeat' (first | with_reducible assumption | intro _ | with_reducible apply optOk_none | with_reducible apply optOk_bind | with_reducible apply placeRing_memOk | split | (refine optOk_get2 (by assumption) ?_))

theorem hCqpCreate_memOk : ∀ x0 x1, memOk x1 → Res.Ok (hCqpCreate x0 x1) := by
  intros; unfold hCqpCreate; repeat' (first | with_reducible assumption | extract_lets | with_reducible apply checked_memOk | with_reducible apply roomThen_memOk | with_reducible apply Res_ok_memOk | with_reducible apply setCqp_memOk | with_reducible apply placeQueue_memOk | with_reducible apply Res_rej_memOk | split | (refine optOk_get3 (by assumption) ?_))

theorem hCqpDestroy_memOk : ∀ x0 x1, memOk x1 → Res.Ok (hCqpDestroy x0 x1) := by
  intros; unfold hCqpDestroy; repeat' (first | with_reducible assumption | extract_lets | with_reducible apply Res.ok_later | with_reducible apply Res_rej_memOk | with_reducible apply setCqp_memOk | with_reducible apply Res_ok_memOk | with_reducible apply settle_memOk | with_reducible apply removeCqp_memOk | with_reducible apply addWait_memOk | split)

theorem hRuleRegister_memOk : ∀ x0 x1, memOk x1 → Res.Ok (hRuleRegister x0 x1) := by
  intros; unfold hRuleRegister; repeat' (first | with_reducible assumption | with_reducible apply Res_rej_memOk | with_reducible apply Res_ok_memOk | with_reducible apply State_setTab_memOk | split)

theorem releaseHeld_memOk : ∀ x0 x1, memOk x1 → memOk (releaseHeld x0 x1) := by
  intros; unfold releaseHeld; repeat' (first | with_reducible assumption | extract_lets | with_reducible apply deliverHeld_memOk | with_reducible apply setCqp_memOk | split)

theorem doorbellIgnored_memOk : ∀ x0, memOk x0 → memOk (doorbellIgnored x0) := by
  intros; unfold doorbellIgnored; repeat' (first | with_reducible assumption | with_reducible apply State_setIcp_memOk)

theorem doorbellRange_memOk : ∀ x0 x1, memOk x1 → memOk (doorbellRange x0 x1) := by
  intros; unfold doorbellRange; repeat' (first | with_reducible assumption | intro _ | extract_lets | with_reducible apply setRing_memOk | with_reducible apply doorbellIgnored_memOk | split | dsimp +zetaDelta only)

theorem ringTail_memOk : ∀ x0 x1 x2 x3 x4, memOk x4 → memOk (ringTail x0 x1 x2 x3 x4) := by
  intros; unfold ringTail; repeat' (first | with_reducible assumption | with_reducible apply setCqp_memOk)

theorem descPut_memOk : ∀ x0 x1 x2 x3, memOk x3 → memOk (descPut x0 x1 x2 x3) := by
  intros; unfold descPut; split <;> first | exact writeMem_memOk _ _ _ ‹_› | assumption

theorem execSqTail_memOk : ∀ x0 x1 x2 x3 x4, memOk x4 → OutOk (execSqTail x0 x1 x2 x3 x4) := by
  intros; unfold execSqTail; repeat' (first | with_reducible assumption | intro _ | extract_lets | with_reducible apply OutOk.mk | with_reducible apply thawed_memOk | with_reducible apply countUnmapped_memOk | with_reducible apply doorbellRange_memOk | with_reducible apply doorbellIgnored_memOk | with_reducible apply releaseHeld_memOk | with_reducible apply settle_memOk | with_reducible apply ringTail_memOk | split | dsimp +zetaDelta only)

theorem execCqHead_memOk : ∀ x0 x1 x2, memOk x2 → OutOk (execCqHead x0 x1 x2) := by
  intros; unfold execCqHead; repeat' (first | with_reducible assumption | intro _ | extract_lets | with_reducible apply OutOk.mk | with_reducible apply thawed_memOk | with_reducible apply doorbellRange_memOk | with_reducible apply doorbellIgnored_memOk | with_reducible apply settle_memOk | with_reducible apply setCqp_memOk | split | dsimp +zetaDelta only)

theorem submit_memOk : ∀ x0 x1 x2 x3 x4, memOk x4 → memOk (submit x0 x1 x2 x3 x4) := by
  intros; unfold submit; repeat' (first | with_reducible assumption | intro _ | extract_lets | with_reducible apply releaseHeld_memOk | with_reducible apply descPut_memOk | with_reducible apply doorbellIgnored_memOk | with_reducible apply settle_memOk | with_reducible apply ringTail_memOk | split | dsimp +zetaDelta only)

theorem execLookup_memOk : ∀ x0 x1 x2 x3, memOk x3 → OutOk (execLookup x0 x1 x2 x3) := by
  intros; unfold execLookup; repeat' (first | with_reducible assumption | with_reducible apply OutOk.mk | with_reducible apply thawed_memOk | with_reducible apply submit_memOk)

theorem execLookupPool_memOk : ∀ x0 x1 x2 x3, memOk x3 → OutOk (execLookupPool x0 x1 x2 x3) := by
  intros; unfold execLookupPool; repeat' (first | with_reducible assumption | with_reducible apply OutOk.mk | with_reducible apply thawed_memOk | with_reducible apply submit_memOk)

theorem execUpdate_memOk : ∀ x0 x1 x2 x3, memOk x3 → OutOk (execUpdate x0 x1 x2 x3) := by
  intros; unfold execUpdate; repeat' (first | with_reducible assumption | with_reducible apply OutOk.mk | with_reducible apply thawed_memOk | with_reducible apply submit_memOk)

theorem execReadRows_memOk : ∀ x0 x1 x2 x3, memOk x3 → OutOk (execReadRows x0 x1 x2 x3) := by
  intros; unfold execReadRows; repeat' (first | with_reducible assumption | with_reducible apply OutOk.mk | with_reducible apply thawed_memOk | with_reducible apply submit_memOk)

theorem execWriteRows_memOk : ∀ x0 x1 x2 x3, memOk x3 → OutOk (execWriteRows x0 x1 x2 x3) := by
  intros; unfold execWriteRows; repeat' (first | with_reducible assumption | with_reducible apply OutOk.mk | with_reducible apply thawed_memOk | with_reducible apply submit_memOk)

theorem execPrefetch_memOk : ∀ x0 x1 x2 x3, memOk x3 → OutOk (execPrefetch x0 x1 x2 x3) := by
  intros; unfold execPrefetch; repeat' (first | with_reducible assumption | with_reducible apply OutOk.mk | with_reducible apply thawed_memOk | with_reducible apply submit_memOk)

theorem execForwardedIndex_memOk : ∀ x0 x1 x2 x3 x4 x5 x6 x7 x8 x9 x10 x11, memOk x11 → OutOk (execForwardedIndex x0 x1 x2 x3 x4 x5 x6 x7 x8 x9 x10 x11) := by
  intros; unfold execForwardedIndex; repeat' (first | with_reducible assumption | with_reducible apply OutOk.mk | with_reducible apply thawed_memOk | with_reducible apply lineFaults_memOk | with_reducible apply settle_memOk | with_reducible apply State_setTab_memOk)

theorem execForwardResult_memOk : ∀ x0 x1 x2 x3 x4 x5 x6, memOk x6 → OutOk (execForwardResult x0 x1 x2 x3 x4 x5 x6) := by
  intros; unfold execForwardResult; repeat' (first | with_reducible assumption | with_reducible apply OutOk.mk | with_reducible apply thawed_memOk | with_reducible apply settle_memOk | with_reducible apply gotIndex_memOk | split)

theorem execHeldDescriptorRelease_memOk : ∀ x0 x1, memOk x1 → OutOk (execHeldDescriptorRelease x0 x1) := by
  intros; unfold execHeldDescriptorRelease; repeat' (first | with_reducible assumption | with_reducible apply OutOk.mk | with_reducible apply thawed_memOk | with_reducible apply settle_memOk | with_reducible apply runQueue_memOk)

theorem execSpillWaitRelease_memOk : ∀ x0 x1 x2 x3, memOk x3 → OutOk (execSpillWaitRelease x0 x1 x2 x3) := by
  intros; unfold execSpillWaitRelease; repeat' (first | with_reducible assumption | with_reducible apply OutOk.mk | with_reducible apply thawed_memOk | with_reducible apply settle_memOk | split)

theorem placeRow_memOk : ∀ x0 x1 x2 x3, memOk x3 → memOk (placeRow x0 x1 x2 x3) := by
  intros; unfold placeRow; repeat' (first | with_reducible assumption | with_reducible apply writeRow_memOk | split | dsimp +zetaDelta only)

theorem noteRollback_memOk : ∀ x0 x1 x2 x3 x4 x5, memOk x5 → memOk (noteRollback x0 x1 x2 x3 x4 x5) := by
  intros; unfold noteRollback; repeat' (first | with_reducible assumption | extract_lets | with_reducible apply updRun_memOk | split)

theorem repointOne_memOk : ∀ x0 x1 x2 x3 x4 x5 x6, memOk x6 → memOk (repointOne x0 x1 x2 x3 x4 x5 x6) := by
  intros; unfold repointOne; repeat' (first | with_reducible assumption | intro _ | extract_lets | with_reducible apply placeRow_memOk | with_reducible apply noteRollback_memOk | with_reducible apply rowGood_memOk | split | dsimp +zetaDelta only)

theorem execRepointRow_memOk : ∀ x0 x1 x2 x3 x4, memOk x4 → OutOk (execRepointRow x0 x1 x2 x3 x4) := by
  intros; unfold execRepointRow; repeat' (first | with_reducible assumption | intro _ | extract_lets | with_reducible apply OutOk.mk | with_reducible apply thawed_memOk | with_reducible apply repointOne_memOk | with_reducible apply settle_memOk | with_reducible apply rollbackRecord_memOk | with_reducible apply memOk_foldl | split)

theorem execRepointTimeout_memOk : ∀ x0 x1 x2, memOk x2 → OutOk (execRepointTimeout x0 x1 x2) := by
  intros; unfold execRepointTimeout; repeat' (first | with_reducible assumption | with_reducible apply OutOk.mk | with_reducible apply thawed_memOk | with_reducible apply settle_memOk | with_reducible apply updTbl_memOk | split)

end Sys2Proof.Machine
end

