-- ==== Sys2Proof/Laws/MemOkCourseCmds.lean ====
section
/-! SUPPORT. Every operation of Machine/CourseCmds.lean keeps memory in its canonical form. -/

namespace Sys2Proof.Machine

open Sys2Proof

theorem takeCxlArea_memOk : ∀ x0 x1, memOk x1 → optOk (fun x => x) (takeCxlArea x0 x1) := by
  intros; unfold takeCxlArea; repeat' (first | with_reducible assumption | extract_lets | with_reducible apply takeSingles_memOk | with_reducible apply optOk_none | with_reducible apply optOk_mk | with_reducible apply State_setMem_memOk | with_reducible apply cleanRun_wf | with_reducible apply memOk_cells | split)

theorem takePolicy_memOk : ∀ x0 x1, memOk x1 → optOk (fun x => x) (takePolicy x0 x1) := by
  intros; unfold takePolicy; repeat' (first | with_reducible assumption | intro _ | with_reducible apply optOk_bind | with_reducible apply reuse_memOk | with_reducible apply takeExtent_memOk | with_reducible apply takeCxlArea_memOk | split | (refine optOk_get (g := fun x => (x : State)) (by assumption) ?_))

theorem acceptPolicy_memOk : ∀ x0 x1 x2, memOk x2 → optOk (fun x => x) (acceptPolicy x0 x1 x2) := by
  intros; unfold acceptPolicy; repeat' (first | with_reducible assumption | intro _ | extract_lets | with_reducible apply optOk_none | with_reducible apply optOk_mk | with_reducible apply optOk_bind | with_reducible apply optOk_map | with_reducible apply optOk_orElse | with_reducible apply State_setCourse_memOk | with_reducible apply takePolicy_memOk | split | dsimp +zetaDelta only | (refine optOk_get (g := fun x => (x : State)) (by assumption) ?_))

theorem hCoursePolicy_memOk : ∀ x0 x1 x2, memOk x2 → Res.Ok (hCoursePolicy x0 x1 x2) := by
  intros; unfold hCoursePolicy; repeat' (first | with_reducible assumption | intro _ | extract_lets | with_reducible apply checked_memOk | with_reducible apply roomThen_memOk | with_reducible apply Ctx_okEcho_memOk | with_reducible apply Res_rej_memOk | split | dsimp +zetaDelta only | exact optOk_get (g := fun x => (x : State)) (by assumption) (acceptPolicy_memOk _ _ _ (by assumption)))

theorem hCoursePolicySet_memOk : ∀ x0 x1, memOk x1 → Res.Ok (hCoursePolicySet x0 x1) := by
  intros; unfold hCoursePolicySet; repeat' (first | with_reducible assumption | intro _ | extract_lets | with_reducible apply Res.ok_reply | with_reducible apply Res.ok_later | with_reducible apply hCoursePolicy_memOk | split | dsimp +zetaDelta only | (refine Res.get_reply (by assumption) ?_) | (refine Res.get_later (by assumption) ?_))

theorem ensureFrames_memOk : ∀ x0, memOk x0 → optOk (fun x => x) (ensureFrames x0) := by
  intros; unfold ensureFrames; repeat' (first | with_reducible assumption | intro _ | with_reducible apply optOk_mk | with_reducible apply optOk_map | with_reducible apply State_setCourse_memOk | with_reducible apply takePolicy_memOk | split | (refine optOk_get (g := fun x => (x : State)) (by assumption) ?_))

theorem rootOpen_memOk : ∀ x0 x1 x2 x3 x4, memOk x4 → optOk (fun x => x) (rootOpen x0 x1 x2 x3 x4) := by
  intros; unfold rootOpen; repeat' (first | with_reducible assumption | intro _ | with_reducible apply optOk_map | with_reducible apply settle_memOk | with_reducible apply sendDown_memOk | with_reducible apply openRun_memOk | with_reducible apply ensureFrames_memOk | (refine optOk_get (g := fun x => (x : State)) (by assumption) ?_))

theorem hCourseOpen_memOk : ∀ x0 x1, memOk x1 → Res.Ok (hCourseOpen x0 x1) := by
  intros; unfold hCourseOpen; repeat' (first | with_reducible assumption | with_reducible apply Res.ok_reply | with_reducible apply checked_memOk | with_reducible apply rootOpen_memOk | with_reducible apply Res_rej_memOk | split | (refine optOk_get (g := fun x => (x : State)) (by assumption) ?_))

theorem autoOpen_memOk : ∀ x0 x1, memOk x1 → memOk (autoOpen x0 x1) := by
  intros; unfold autoOpen; repeat' (first | with_reducible assumption | extract_lets | with_reducible apply logPolicy_memOk | with_reducible apply rootOpen_memOk | split | (refine optOk_get (g := fun x => (x : State)) (by assumption) ?_))

theorem holdOpen_memOk : ∀ x0 x1, memOk x1 → memOk (holdOpen x0 x1) := by
  intros; unfold holdOpen; repeat' (first | with_reducible assumption | intro _ | extract_lets | with_reducible apply State_setCourse_memOk | split | dsimp +zetaDelta only)

theorem execPeriodicCourse_memOk : ∀ x0, memOk x0 → OutOk (execPeriodicCourse x0) := by
  intros; unfold execPeriodicCourse; repeat' (first | with_reducible assumption | intro _ | extract_lets | with_reducible apply holdOpen_memOk | with_reducible apply OutOk.mk | with_reducible apply thawed_memOk | with_reducible apply autoOpen_memOk | split | dsimp +zetaDelta only)

theorem earlyOpen_memOk : ∀ x0, memOk x0 → memOk (earlyOpen x0) := by
  intros; unfold earlyOpen; repeat' (first | with_reducible assumption | extract_lets | with_reducible apply logPolicy_memOk | with_reducible apply autoOpen_memOk | with_reducible apply State_setCourse_memOk | split)

theorem requestEarly_memOk : ∀ x0 x1 x2, memOk x2 → memOk (requestEarly x0 x1 x2) := by
  intros; unfold requestEarly; repeat' (first | with_reducible assumption | intro _ | extract_lets | with_reducible apply holdOpen_memOk | with_reducible apply earlyOpen_memOk | with_reducible apply sendUp_memOk | split | dsimp +zetaDelta only)

theorem execBucketBoundary_memOk : ∀ x0, memOk x0 → OutOk (execBucketBoundary x0) := by
  intros; unfold execBucketBoundary; repeat' (first | with_reducible assumption | intro _ | extract_lets | with_reducible apply OutOk.mk | with_reducible apply thawed_memOk | with_reducible apply State_setCourse_memOk | with_reducible apply requestEarly_memOk | with_reducible apply logPolicy_memOk | with_reducible apply memOk_foldl | split)

theorem execEarlyRequest_memOk : ∀ x0 x1 x2 x3, memOk x3 → OutOk (execEarlyRequest x0 x1 x2 x3) := by
  intros; unfold execEarlyRequest; repeat' (first | with_reducible assumption | with_reducible apply OutOk.mk | with_reducible apply thawed_memOk | with_reducible apply requestEarly_memOk | split)

theorem openMessage_memOk : ∀ x0 x1 x2 x3 x4 x5 x6, memOk x6 → memOk (openMessage x0 x1 x2 x3 x4 x5 x6) := by
  intros; unfold openMessage; repeat' (first | with_reducible assumption | intro _ | extract_lets | with_reducible apply sendDomain_memOk | with_reducible apply ensureFrames_memOk | with_reducible apply settle_memOk | with_reducible apply sendDown_memOk | with_reducible apply openRun_memOk | split | (refine optOk_get (g := fun x => (x : State)) (by assumption) ?_) | dsimp +zetaDelta only)

theorem execCourseOpenMessage_memOk : ∀ x0 x1 x2 x3 x4 x5 x6, memOk x6 → OutOk (execCourseOpenMessage x0 x1 x2 x3 x4 x5 x6) := by
  intros; unfold execCourseOpenMessage; repeat' (first | with_reducible assumption | intro _ | extract_lets | with_reducible apply holdOpen_memOk | with_reducible apply openMessage_memOk | with_reducible apply OutOk.mk | with_reducible apply thawed_memOk | split | dsimp +zetaDelta only)

theorem reportStep_memOk : ∀ x0 x1 x2, memOk x2 → memOk (reportStep x0 x1 x2) := by
  intros; unfold reportStep; repeat' (first | with_reducible assumption | with_reducible apply updCqp_memOk)

theorem hStepDone_memOk : ∀ x0 x1, memOk x1 → Res.Ok (hStepDone x0 x1) := by
  intros; unfold hStepDone; repeat' (first | with_reducible assumption | intro _ | with_reducible apply checked_memOk | with_reducible apply reportStep_memOk | with_reducible apply warn_memOk | with_reducible apply State_setCourse_memOk | with_reducible apply Res_ok_memOk | with_reducible apply settle_memOk | with_reducible apply memOk_foldl | split | dsimp +zetaDelta only)

theorem execFenceUp_memOk : ∀ x0 x1 x2 x3 x4, memOk x4 → OutOk (execFenceUp x0 x1 x2 x3 x4) := by
  intros; unfold execFenceUp; repeat' (first | with_reducible assumption | with_reducible apply OutOk.mk | with_reducible apply thawed_memOk | with_reducible apply sendUp_memOk | with_reducible apply settle_memOk | with_reducible apply abortCourse_memOk | with_reducible apply updRun_memOk | with_reducible apply notePeer_memOk | split)

theorem execFenceRelease_memOk : ∀ x0 x1 x2, memOk x2 → OutOk (execFenceRelease x0 x1 x2) := by
  intros; unfold execFenceRelease; repeat' (first | with_reducible assumption | with_reducible apply OutOk.mk | with_reducible apply thawed_memOk | with_reducible apply settle_memOk | with_reducible apply abortCourse_memOk | with_reducible apply toCapturing_memOk | with_reducible apply updRun_memOk | with_reducible apply sendDown_memOk | split)

theorem execFenceClose_memOk : ∀ x0 x1 x2, memOk x2 → OutOk (execFenceClose x0 x1 x2) := by
  intros; unfold execFenceClose; repeat' (first | with_reducible assumption | intro _ | extract_lets | with_reducible apply OutOk.mk | with_reducible apply thawed_memOk | with_reducible apply settle_memOk | with_reducible apply toCapturing_memOk | with_reducible apply updRun_memOk | split | dsimp +zetaDelta only)

theorem execFenceTimeout_memOk : ∀ x0, memOk x0 → OutOk (execFenceTimeout x0) := by
  intros; unfold execFenceTimeout; repeat' (first | with_reducible assumption | with_reducible apply OutOk.mk | with_reducible apply thawed_memOk | with_reducible apply settle_memOk | with_reducible apply abortCourse_memOk | split)

theorem execCaptureBlock_memOk : ∀ x0 x1, memOk x1 → OutOk (execCaptureBlock x0 x1) := by
  intros; unfold execCaptureBlock; repeat' (first | with_reducible assumption | extract_lets | with_reducible apply OutOk.mk | with_reducible apply thawed_memOk | with_reducible apply lineFaults_memOk | with_reducible apply settle_memOk | with_reducible apply captureBlock_memOk | split)

theorem freeStaged_memOk : ∀ x0, memOk x0 → memOk (freeStaged x0) := by
  intros; unfold freeStaged; repeat' (first | with_reducible assumption | intro _ | extract_lets | with_reducible apply State_setCourse_memOk | split | dsimp +zetaDelta only)

theorem execShardWriteComplete_memOk : ∀ x0 x1 x2, memOk x2 → OutOk (execShardWriteComplete x0 x1 x2) := by
  intros; unfold execShardWriteComplete; repeat' (first | with_reducible assumption | intro _ | extract_lets | with_reducible apply freeStaged_memOk | with_reducible apply OutOk.mk | with_reducible apply thawed_memOk | with_reducible apply settle_memOk | with_reducible apply updRun_memOk | with_reducible apply updShard_memOk | split | dsimp +zetaDelta only)

theorem destFailed_memOk : ∀ x0 x1, memOk x1 → memOk (destFailed x0 x1) := by
  intros; unfold destFailed; repeat' (first | with_reducible assumption | intro _ | extract_lets | with_reducible apply updRun_memOk | with_reducible apply abortCourse_memOk | with_reducible apply updShard_memOk | with_reducible apply sendOut_memOk | with_reducible apply memOk_foldl | split)

theorem execShardWriteFailed_memOk : ∀ x0 x1 x2, memOk x2 → OutOk (execShardWriteFailed x0 x1 x2) := by
  intros; unfold execShardWriteFailed; repeat' (first | with_reducible assumption | intro _ | extract_lets | with_reducible apply writeShard_memOk | with_reducible apply OutOk.mk | with_reducible apply thawed_memOk | with_reducible apply emit_memOk | with_reducible apply updShard_memOk | with_reducible apply settle_memOk | with_reducible apply destFailed_memOk | split | dsimp +zetaDelta only)

theorem execRegionPullComplete_memOk : ∀ x0 x1 x2, memOk x2 → OutOk (execRegionPullComplete x0 x1 x2) := by
  intros; unfold execRegionPullComplete; repeat' (first | with_reducible assumption | extract_lets | with_reducible apply memOk_foldl_fst | with_reducible apply memOk_foldl_snd | with_reducible apply dmaOut_memOk | intro _ | with_reducible apply OutOk.mk | with_reducible apply thawed_memOk | with_reducible apply updRegion_memOk | with_reducible apply emit_memOk | with_reducible apply updRun_memOk | with_reducible apply settle_memOk | with_reducible apply sendOut_memOk | with_reducible apply memOk_foldl | split | dsimp +zetaDelta only)

theorem execCommitUp_memOk : ∀ x0 x1 x2 x3, memOk x3 → OutOk (execCommitUp x0 x1 x2 x3) := by
  intros; unfold execCommitUp; repeat' (first | with_reducible assumption | with_reducible apply OutOk.mk | with_reducible apply thawed_memOk | with_reducible apply settle_memOk | with_reducible apply updRun_memOk | split)

theorem lateLedger_memOk : ∀ x0 x1, memOk x1 → memOk (lateLedger x0 x1) := by
  intros; unfold lateLedger; dsimp only; repeat' (first | with_reducible assumption | with_reducible apply updRun_memOk | with_reducible apply setArea_memOk | with_reducible apply setLedger_memOk | split)

theorem execRootLedgerDurable_memOk : ∀ x0 x1, memOk x1 → OutOk (execRootLedgerDurable x0 x1) := by
  intros; unfold execRootLedgerDurable; repeat' (first | with_reducible assumption | with_reducible apply lateLedger_memOk | extract_lets | with_reducible apply OutOk.mk | with_reducible apply thawed_memOk | with_reducible apply setLedger_memOk | with_reducible apply updRun_memOk | with_reducible apply settle_memOk | with_reducible apply courseCommitted_memOk | with_reducible apply sendDown_memOk | split)

theorem execCommitRelease_memOk : ∀ x0 x1 x2, memOk x2 → OutOk (execCommitRelease x0 x1 x2) := by
  intros; unfold execCommitRelease; repeat' (first | with_reducible assumption | extract_lets | with_reducible apply memOk_foldl_fst | with_reducible apply memOk_foldl_snd | intro _ | with_reducible apply OutOk.mk | with_reducible apply thawed_memOk | with_reducible apply writeEverywhere_memOk | with_reducible apply setLedger_memOk | with_reducible apply emitLedger_memOk | with_reducible apply settle_memOk | with_reducible apply courseCommitted_memOk | with_reducible apply sendDown_memOk | with_reducible apply memOk_foldl | split | dsimp +zetaDelta only)

theorem ceAbortReq_memOk : ∀ x0 x1 x2, memOk x2 → memOk (ceAbortReq x0 x1 x2) := by
  intros; unfold ceAbortReq; repeat' (first | with_reducible assumption | with_reducible apply countUnmapped_memOk | with_reducible apply settle_memOk | with_reducible apply abortCourse_memOk | split)

theorem execCeAbortReq_memOk : ∀ x0 x1 x2, memOk x2 → OutOk (execCeAbortReq x0 x1 x2) := by
  intros; unfold execCeAbortReq; repeat' (first | with_reducible assumption | with_reducible apply OutOk.mk | with_reducible apply ceAbortReq_memOk)

theorem hCourseAbort_memOk : ∀ x0 x1, memOk x1 → Res.Ok (hCourseAbort x0 x1) := by
  intros; unfold hCourseAbort; repeat' (first | with_reducible assumption | with_reducible apply checked_memOk | with_reducible apply Res_ok_memOk | with_reducible apply settle_memOk | with_reducible apply abortCourse_memOk)

theorem hCourseStatus_memOk : ∀ x0 x1, memOk x1 → Res.Ok (hCourseStatus x0 x1) := by
  intros; unfold hCourseStatus; repeat' (first | with_reducible assumption | with_reducible apply checked_memOk | with_reducible apply Res_ok_memOk)

theorem hLedgerQuery_memOk : ∀ x0 x1, memOk x1 → Res.Ok (hLedgerQuery x0 x1) := by
  intros; unfold hLedgerQuery; repeat' (first | with_reducible assumption | with_reducible apply checked_memOk | with_reducible apply Res_ok_memOk)

theorem hRegionRegister_memOk : ∀ x0 x1, memOk x1 → Res.Ok (hRegionRegister x0 x1) := by
  intros; unfold hRegionRegister; repeat' (first | with_reducible assumption | with_reducible apply checked_memOk | with_reducible apply Res_ok_memOk | with_reducible apply State_setCourse_memOk)

theorem hRegionDeregister_memOk : ∀ x0 x1, memOk x1 → Res.Ok (hRegionDeregister x0 x1) := by
  intros; unfold hRegionDeregister; repeat' (first | with_reducible assumption | with_reducible apply Res_rej_memOk | with_reducible apply updRegion_memOk | with_reducible apply State_setCourse_memOk | with_reducible apply Res_ok_memOk | split | dsimp +zetaDelta only)

theorem hCapturePolicy_memOk : ∀ x0 x1 x2, memOk x2 → Res.Ok (hCapturePolicy x0 x1 x2) := by
  intros; unfold hCapturePolicy; repeat' (first | with_reducible assumption | intro _ | extract_lets | with_reducible apply Res.ok_reply | with_reducible apply Res.ok_later | with_reducible apply Res_rej_memOk | with_reducible apply checked_memOk | with_reducible apply Res_ok_memOk | with_reducible apply setTbl_memOk | split | dsimp +zetaDelta only | (refine Res.get_reply (by assumption) ?_) | (refine Res.get_later (by assumption) ?_))

theorem hTableCapturePolicy_memOk : ∀ x0 x1, memOk x1 → Res.Ok (hTableCapturePolicy x0 x1) := by
  intros; unfold hTableCapturePolicy; repeat' (first | with_reducible assumption | intro _ | extract_lets | with_reducible apply Res.ok_reply | with_reducible apply Res.ok_later | with_reducible apply hCapturePolicy_memOk | split | dsimp +zetaDelta only | (refine Res.get_reply (by assumption) ?_) | (refine Res.get_later (by assumption) ?_))

end Sys2Proof.Machine
end

