-- ==== Sys2Proof/Laws/MemOkNvme.lean ====
section
/-! SUPPORT. Every operation of Machine/Nvme.lean keeps memory in its canonical form. -/

namespace Sys2Proof.Machine

open Sys2Proof

theorem setCtrl_memOk : ∀ x0 x1 x2, memOk x2 → memOk (setCtrl x0 x1 x2) := by
  intros; unfold setCtrl; repeat' (first | with_reducible assumption | with_reducible apply State_setSto_memOk)

theorem updCtrl_memOk : ∀ x0 x1 x2, memOk x2 → memOk (updCtrl x0 x1 x2) := by
  intros; unfold updCtrl; repeat' (first | with_reducible assumption | with_reducible apply setCtrl_memOk)

theorem setNs_memOk : ∀ x0 x1 x2, memOk x2 → memOk (setNs x0 x1 x2) := by
  intros; unfold setNs; repeat' (first | with_reducible assumption | with_reducible apply State_setSto_memOk)

theorem updNs_memOk : ∀ x0 x1 x2, memOk x2 → memOk (updNs x0 x1 x2) := by
  intros; unfold updNs; repeat' (first | with_reducible assumption | with_reducible apply setNs_memOk | split)

theorem updLeg_memOk : ∀ x0 x1 x2 x3, memOk x3 → memOk (updLeg x0 x1 x2 x3) := by
  intros; unfold updLeg; repeat' (first | with_reducible assumption | with_reducible apply updNs_memOk)

theorem nvmeIrq_memOk : ∀ x0 x1 x2 x3, memOk x3 → memOk (nvmeIrq x0 x1 x2 x3) := by
  intros; unfold nvmeIrq; repeat' (first | with_reducible assumption | intro _ | with_reducible apply raiseMsix_memOk | extract_lets | with_reducible apply emit_memOk | with_reducible apply setCtrl_memOk | split | dsimp +zetaDelta only)

theorem nvmeWrite_memOk : ∀ x0 x1 x2 x3 x4 x5 x6, memOk x6 → memOk (nvmeWrite x0 x1 x2 x3 x4 x5 x6) := by
  intros; unfold nvmeWrite; repeat' (first | with_reducible assumption | intro _ | extract_lets | with_reducible apply perfEvent_memOk | with_reducible apply dmaOut_memOk | with_reducible apply nvmeIrq_memOk | with_reducible apply setCtrl_memOk | with_reducible apply memOk_foldl | split)

theorem nvmeDone_memOk : ∀ x0 x1 x2 x3 x4 x5 x6, memOk x6 → memOk (nvmeDone x0 x1 x2 x3 x4 x5 x6) := by
  intros; unfold nvmeDone; repeat' (first | with_reducible assumption | intro _ | extract_lets | with_reducible apply nvmeWrite_memOk | with_reducible apply updCtrl_memOk | split | dsimp +zetaDelta only)

theorem asyncEvent_memOk : ∀ x0 x1 x2 x3 x4, memOk x4 → memOk (asyncEvent x0 x1 x2 x3 x4) := by
  intros; unfold asyncEvent; repeat' (first | with_reducible assumption | extract_lets | with_reducible apply setCtrl_memOk | with_reducible apply nvmeDone_memOk | split)

theorem nsChanged_memOk : ∀ x0 x1 x2, memOk x2 → memOk (nsChanged x0 x1 x2) := by
  intros; unfold nsChanged; repeat' (first | with_reducible assumption | extract_lets | with_reducible apply updCtrl_memOk | with_reducible apply asyncEvent_memOk | split)

theorem logStorage_memOk : ∀ x0 x1 x2 x3, memOk x3 → memOk (logStorage x0 x1 x2 x3) := by
  intros; unfold logStorage; repeat' (first | with_reducible assumption | with_reducible apply logPolicy_memOk)

theorem failLeg_memOk : ∀ x0 x1 x2, memOk x2 → memOk (failLeg x0 x1 x2) := by
  intros; unfold failLeg; repeat' (first | with_reducible assumption | intro _ | extract_lets | with_reducible apply logStorage_memOk | with_reducible apply updLeg_memOk | split | dsimp +zetaDelta only)

theorem legDown_memOk : ∀ x0 x1 x2, memOk x2 → memOk (legDown x0 x1 x2) := by
  intros; unfold legDown; repeat' (first | with_reducible assumption | extract_lets | intro _ | with_reducible apply updNs_memOk | with_reducible apply failLeg_memOk | split | dsimp +zetaDelta only)

theorem failLegsOf_memOk : ∀ x0 x1, memOk x1 → memOk (failLegsOf x0 x1) := by
  intros; unfold failLegsOf; repeat' (first | with_reducible assumption | intro _ | with_reducible apply legDown_memOk | with_reducible apply memOk_foldl)

theorem rawLegs_memOk : ∀ x0 x1 x2 x3 x4, memOk x4 → memOk (rawLegs x0 x1 x2 x3 x4) := by
  intros; unfold rawLegs; repeat' (first | with_reducible assumption | intro _ | extract_lets | with_reducible apply updNs_memOk | with_reducible apply failLeg_memOk | with_reducible apply memOk_foldl | with_reducible apply memOk_foldl_fst | with_reducible apply memOk_foldl_snd | split | dsimp +zetaDelta only)

theorem writeLegs_memOk : ∀ x0 x1 x2 x3 x4, memOk x4 → memOk (writeLegs x0 x1 x2 x3 x4) := by
  intros; unfold writeLegs; repeat' (first | with_reducible assumption | extract_lets | with_reducible apply rawLegs_memOk | intro _ | with_reducible apply updNs_memOk | with_reducible apply failLeg_memOk | with_reducible apply memOk_foldl | split | dsimp +zetaDelta only)

theorem repairRead_memOk : ∀ x0 x1 x2 x3 x4, memOk x4 → memOk (repairRead x0 x1 x2 x3 x4) := by
  intros; unfold repairRead; repeat' (first | with_reducible assumption | extract_lets | with_reducible apply memOk_foldl_fst | with_reducible apply memOk_foldl_snd | intro _ | with_reducible apply updLeg_memOk | with_reducible apply memOk_foldl | split | dsimp +zetaDelta only)

theorem updOp_memOk : ∀ x0 x1 x2, memOk x2 → memOk (updOp x0 x1 x2) := by
  intros; unfold updOp; repeat' (first | with_reducible assumption | with_reducible apply State_setSto_memOk)

theorem dropOp_memOk : ∀ x0 x1, memOk x1 → memOk (dropOp x0 x1) := by
  intros; unfold dropOp; repeat' (first | with_reducible assumption | with_reducible apply State_setSto_memOk)

theorem postOp_memOk : ∀ x0 x1 x2 x3, memOk x3 → memOk (postOp x0 x1 x2 x3) := by
  intros; unfold postOp; repeat' (first | with_reducible assumption | intro _ | extract_lets | with_reducible apply updFn_memOk | with_reducible apply nvmeDone_memOk | split | dsimp +zetaDelta only)

theorem endOp_memOk : ∀ x0 x1 x2 x3, memOk x3 → memOk (endOp x0 x1 x2 x3) := by
  intros; unfold endOp; repeat' (first | with_reducible assumption | with_reducible apply postOp_memOk | with_reducible apply dropOp_memOk)

theorem writeRecord_memOk : ∀ x0 x1, memOk x1 → memOk (writeRecord x0 x1) := by
  intros; unfold writeRecord; repeat' (first | with_reducible assumption | intro _ | extract_lets | with_reducible apply updOp_memOk | with_reducible apply bump_memOk | with_reducible apply setNs_memOk | split | dsimp +zetaDelta only)

theorem copyPiece_memOk : ∀ x0 x1 x2 x3 x4, memOk x4 → memOk (copyPiece x0 x1 x2 x3 x4) := by
  intros; unfold copyPiece; repeat' (first | with_reducible assumption | intro _ | extract_lets | with_reducible apply updLeg_memOk | split | dsimp +zetaDelta only)

theorem nextRange_memOk : ∀ x0 x1 x2 x3 x4, memOk x4 → memOk (nextRange x0 x1 x2 x3 x4) := by
  intros; unfold nextRange; repeat' (first | with_reducible assumption | intro _ | with_reducible apply State_setSto_memOk | with_reducible apply dropOp_memOk | dsimp +zetaDelta only)

theorem startOp_memOk : ∀ x0 x1, memOk x1 → memOk (startOp x0 x1) := by
  intros; unfold startOp; repeat' (first | with_reducible assumption | intro _ | extract_lets | with_reducible apply cipherCheck_memOk | with_reducible apply dropOp_memOk | with_reducible apply copyPiece_memOk | with_reducible apply endOp_memOk | with_reducible apply writeRecord_memOk | with_reducible apply writeLegs_memOk | with_reducible apply nextRange_memOk | with_reducible apply repairRead_memOk | split | dsimp +zetaDelta only)

theorem tryStart_memOk : ∀ x0 x1 x2, memOk x2 → memOk (tryStart x0 x1 x2) := by
  intro x0 x1 x2; fun_induction tryStart x0 x1 x2 <;> repeat' (first | intro _ | with_reducible apply startOp_memOk | with_reducible apply_assumption)

theorem noteWait_memOk : ∀ x0 x1, memOk x1 → memOk (noteWait x0 x1) := by
  intros; unfold noteWait; repeat' (first | with_reducible assumption | intro _ | extract_lets | with_reducible apply updOp_memOk | with_reducible apply bump_memOk | split | dsimp +zetaDelta only)

theorem arrive_memOk : ∀ x0 x1, memOk x1 → memOk (arrive x0 x1) := by
  intros; unfold arrive; repeat' (first | with_reducible assumption | with_reducible apply noteWait_memOk | with_reducible apply tryStart_memOk | with_reducible apply State_setSto_memOk)

theorem ioCommand_memOk : ∀ x0 x1 x2 x3 x4 x5, memOk x5 → memOk (ioCommand x0 x1 x2 x3 x4 x5) := by
  intros; unfold ioCommand; repeat' (first | with_reducible assumption | with_reducible apply nvmeDone_memOk | with_reducible apply State_setSto_memOk | with_reducible apply arrive_memOk | split | dsimp +zetaDelta only)

theorem sanRecord_memOk : ∀ x0 x1, memOk x1 → memOk (sanRecord x0 x1) := by
  intros; unfold sanRecord; repeat' (first | with_reducible assumption | with_reducible apply emit_memOk)

theorem setSan_memOk : ∀ x0 x1 x2, memOk x2 → memOk (setSan x0 x1 x2) := by
  intros; unfold setSan; repeat' (first | with_reducible assumption | extract_lets | split | with_reducible apply sanRecord_memOk | with_reducible apply updNs_memOk)

theorem dropOps_memOk : ∀ x0 x1, memOk x1 → memOk (dropOps x0 x1) := by
  intros; unfold dropOps; repeat' (first | with_reducible assumption | intro _ | extract_lets | with_reducible apply State_setSto_memOk | split | dsimp +zetaDelta only)

theorem acceptSan_memOk : ∀ x0 x1 x2 x3, memOk x3 → memOk (acceptSan x0 x1 x2 x3) := by
  intros; unfold acceptSan; repeat' (first | with_reducible assumption | extract_lets | with_reducible apply dropOps_memOk | with_reducible apply memOk_foldl_fst | with_reducible apply memOk_foldl_snd | intro _ | with_reducible apply setSan_memOk | with_reducible apply updNs_memOk | with_reducible apply nvmeDone_memOk | with_reducible apply updCtrl_memOk | with_reducible apply memOk_foldl | split | dsimp +zetaDelta only)

theorem takeEntries_memOk : ∀ x0, memOk x0 → memOk (takeEntries x0) := by
  intros; unfold takeEntries; repeat' (first | with_reducible assumption | intro _ | with_reducible apply updOp_memOk | with_reducible apply memOk_foldl | split)

theorem freshenOps_memOk : ∀ x0, memOk x0 → memOk (freshenOps x0) := by
  intros; unfold freshenOps; repeat' (first | with_reducible assumption | with_reducible apply memOk_foldl_fst | with_reducible apply memOk_foldl_snd | intro _ | extract_lets | with_reducible apply endOp_memOk | with_reducible apply writeRecord_memOk | with_reducible apply memOk_foldl | split | dsimp +zetaDelta only)

theorem finishWaits_memOk : ∀ x0, memOk x0 → memOk (finishWaits x0) := by
  intros; unfold finishWaits; repeat' (first | with_reducible assumption | intro _ | with_reducible apply acceptSan_memOk | with_reducible apply updCtrl_memOk | with_reducible apply finishWait_memOk | with_reducible apply nsChanged_memOk | with_reducible apply updNs_memOk | with_reducible apply memOk_foldl | split)

theorem stoSettle_memOk : ∀ x0, memOk x0 → memOk (stoSettle x0) := by
  intros; unfold stoSettle; repeat' (first | with_reducible assumption | with_reducible apply destroyProgress_memOk | with_reducible apply finishWaits_memOk | with_reducible apply freshenOps_memOk | with_reducible apply takeEntries_memOk)

end Sys2Proof.Machine
end

