-- ==== Sys2Proof/Laws/MemOkRestore.lean ====
section
/-! SUPPORT. Every operation of Machine/Restore.lean keeps memory in its canonical form. -/

namespace Sys2Proof.Machine

open Sys2Proof

theorem setElastic_memOk : ∀ x0 x1, memOk x1 → memOk (setElastic x0 x1) := by
  intros; unfold setElastic; repeat' (first | with_reducible assumption | with_reducible apply State_setElastic_memOk)

theorem hShardMapLoad_memOk : ∀ x0 x1, memOk x1 → Res.Ok (hShardMapLoad x0 x1) := by
  intros; unfold hShardMapLoad; repeat' (first | with_reducible assumption | extract_lets | with_reducible apply Res.ok_reply | with_reducible apply checked_memOk | with_reducible apply setElastic_memOk | with_reducible apply Res_ok_memOk | split)

theorem activate_memOk : ∀ x0 x1, memOk x1 → memOk (activate x0 x1) := by
  intros; unfold activate; repeat' (first | with_reducible assumption | with_reducible apply setElastic_memOk)

theorem buildTabs_memOk : ∀ x0 x1, memOk x1 → optOk (fun x => x.2) (buildTabs x0 x1) := by
  intro x0 x1; fun_induction buildTabs x0 x1 <;> repeat' (first | intro _ | with_reducible apply optOk_bind | with_reducible apply optOk_map | with_reducible apply buildTable_memOk | with_reducible apply_assumption | (refine optOk_get2 (by assumption) ?_) | (refine optOk_get3 (by assumption) ?_))

theorem startRestore_memOk : ∀ x0 x1 x2 x3, memOk x3 → Res.Ok (startRestore x0 x1 x2 x3) := by
  intros; unfold startRestore; repeat' (first | with_reducible assumption | extract_lets | with_reducible apply buildTabs_memOk | with_reducible apply Res_rej_memOk | with_reducible apply Res_ok_memOk | with_reducible apply setElastic_memOk | with_reducible apply optOk_mk | split | (refine optOk_get2 (by assumption) ?_))

theorem hRestoreBegin_memOk : ∀ x0 x1, memOk x1 → Res.Ok (hRestoreBegin x0 x1) := by
  intros; unfold hRestoreBegin; repeat' (first | with_reducible assumption | with_reducible apply checked_memOk | with_reducible apply Res_rej_memOk | with_reducible apply startRestore_memOk | split)

theorem updRestore_memOk : ∀ x0 x1, memOk x1 → memOk (updRestore x0 x1) := by
  intros; unfold updRestore; repeat' (first | with_reducible assumption | with_reducible apply setElastic_memOk)

theorem updPlan_memOk : ∀ x0 x1 x2, memOk x2 → memOk (updPlan x0 x1 x2) := by
  intros; unfold updPlan; repeat' (first | with_reducible assumption | with_reducible apply updRestore_memOk)

theorem failRestore_memOk : ∀ x0 x1 x2 x3, memOk x3 → memOk (failRestore x0 x1 x2 x3) := by
  intros; unfold failRestore; repeat' (first | with_reducible assumption | intro _ | with_reducible apply freeTable_memOk | with_reducible apply settle_memOk | with_reducible apply updRestore_memOk | with_reducible apply memOk_foldl | split)

theorem restoreTenantLost_memOk : ∀ x0 x1, memOk x1 → memOk (restoreTenantLost x0 x1) := by
  intros; unfold restoreTenantLost; repeat' (first | with_reducible assumption | with_reducible apply failRestore_memOk | split)

theorem readAgain_memOk : ∀ x0 x1, memOk x1 → memOk (readAgain x0 x1) := by
  intros; unfold readAgain; repeat' (first | with_reducible assumption | intro _ | extract_lets | with_reducible apply updRestore_memOk | split | dsimp +zetaDelta only)

theorem readFailed_memOk : ∀ x0 x1 x2 x3 x4, memOk x4 → memOk (readFailed x0 x1 x2 x3 x4) := by
  intros; unfold readFailed; repeat' (first | with_reducible assumption | intro _ | extract_lets | with_reducible apply readAgain_memOk | with_reducible apply failRestore_memOk | with_reducible apply updRestore_memOk | with_reducible apply updPlan_memOk | split | dsimp +zetaDelta only)

theorem useSealKeys_memOk : ∀ x0 x1 x2 x3, memOk x3 → memOk (useSealKeys x0 x1 x2 x3) := by
  intros; unfold useSealKeys; repeat' (first | with_reducible assumption | intro _ | extract_lets | with_reducible apply useWorkingKey_memOk | with_reducible apply memOk_foldl | with_reducible apply memOk_foldl_fst | with_reducible apply memOk_foldl_snd | split | dsimp +zetaDelta only)

theorem placeShardRows_memOk : ∀ x0 x1 x2 x3, memOk x3 → memOk (placeShardRows x0 x1 x2 x3) := by
  intros; unfold placeShardRows; repeat' (first | with_reducible assumption | intro _ | with_reducible apply writeRow_memOk | with_reducible apply memOk_foldl | split)

theorem placeKeys_memOk : ∀ x0 x1 x2, memOk x2 → memOk (placeKeys x0 x1 x2) := by
  intros; unfold placeKeys; repeat' (first | with_reducible assumption | intro _ | extract_lets | with_reducible apply updRestore_memOk | with_reducible apply writeRow_memOk | with_reducible apply failRestore_memOk | with_reducible apply memOk_foldl | split)

theorem plannedMore_memOk : ∀ x0 x1, memOk x0 → memOk x1 → memOk (plannedMore x0 x1) := by
  intros; unfold plannedMore; repeat' (first | with_reducible assumption | intro _ | extract_lets | with_reducible apply updRestore_memOk | split | dsimp +zetaDelta only)

theorem keysKnown_memOk : ∀ x0 x1 x2, memOk x2 → memOk (keysKnown x0 x1 x2) := by
  intros; unfold keysKnown; repeat' (first | with_reducible assumption | intro _ | extract_lets | with_reducible apply plannedMore_memOk | with_reducible apply updRestore_memOk | split | dsimp +zetaDelta only)

theorem placeShard_memOk : ∀ x0 x1 x2, memOk x2 → memOk (placeShard x0 x1 x2) := by
  intros; unfold placeShard; repeat' (first | with_reducible assumption | extract_lets | with_reducible apply updPlan_memOk | with_reducible apply dmaOut_memOk | with_reducible apply keysKnown_memOk | with_reducible apply placeKeys_memOk | with_reducible apply placeShardRows_memOk | split)

theorem takeHead_memOk : ∀ x0 x1 x2 x3, memOk x3 → optOk (fun x => x) (takeHead x0 x1 x2 x3) := by
  intros; unfold takeHead; repeat' (first | with_reducible assumption | intro _ | extract_lets | with_reducible apply plannedMore_memOk | with_reducible apply optOk_none | with_reducible apply optOk_mk | with_reducible apply updRestore_memOk | with_reducible apply updPlan_memOk | split | dsimp +zetaDelta only)

theorem takeChunk_memOk : ∀ x0 x1 x2 x3 x4 x5, memOk x5 → memOk (takeChunk x0 x1 x2 x3 x4 x5) := by
  intros; unfold takeChunk; repeat' (first | with_reducible assumption | intro _ | extract_lets | with_reducible apply readFailed_memOk | with_reducible apply updRestore_memOk | with_reducible apply useSealKeys_memOk | with_reducible apply updPlan_memOk | with_reducible apply placeShard_memOk | split | dsimp +zetaDelta only)

theorem execRestoreChunkRead_memOk : ∀ x0 x1 x2 x3 x4, memOk x4 → OutOk (execRestoreChunkRead x0 x1 x2 x3 x4) := by
  intros; unfold execRestoreChunkRead; repeat' (first | with_reducible assumption | with_reducible apply takeChunk_memOk | intro _ | extract_lets | with_reducible apply OutOk.mk | with_reducible apply memOk_getD | with_reducible apply optOk_map | with_reducible apply optOk_bind | with_reducible apply thawed_memOk | with_reducible apply takeHead_memOk | with_reducible apply readFailed_memOk | with_reducible apply updRestore_memOk | with_reducible apply useSealKeys_memOk | with_reducible apply updPlan_memOk | with_reducible apply placeShard_memOk | split | dsimp +zetaDelta only | (refine optOk_get (g := fun x => (x : State)) (by assumption) ?_))

theorem execRestoreSourceTimeout_memOk : ∀ x0 x1, memOk x1 → OutOk (execRestoreSourceTimeout x0 x1) := by
  intros; unfold execRestoreSourceTimeout; repeat' (first | with_reducible assumption | intro _ | extract_lets | with_reducible apply updPlan_memOk | with_reducible apply failRestore_memOk | with_reducible apply OutOk.mk | with_reducible apply thawed_memOk | split | dsimp +zetaDelta only)

theorem rebuildServing_memOk : ∀ x0 x1 x2 x3, memOk x3 → memOk (rebuildServing x0 x1 x2 x3) := by
  intros; unfold rebuildServing; repeat' (first | with_reducible assumption | intro _ | with_reducible apply writeRow_memOk | with_reducible apply memOk_foldl | split)

theorem restoreLost_memOk : ∀ x0 x1 x2, memOk x2 → memOk (restoreLost x0 x1 x2) := by
  intros; unfold restoreLost; repeat' (first | with_reducible assumption | intro _ | extract_lets | with_reducible apply updTbl_memOk | split | dsimp +zetaDelta only)

theorem execRestoreComplete_memOk : ∀ x0, memOk x0 → OutOk (execRestoreComplete x0) := by
  intros; unfold execRestoreComplete; repeat' (first | with_reducible assumption | extract_lets | with_reducible apply memOk_foldl_fst | with_reducible apply memOk_foldl_snd | intro _ | with_reducible apply OutOk.mk | with_reducible apply thawed_memOk | with_reducible apply failRestore_memOk | with_reducible apply updRestore_memOk | with_reducible apply rebuildServing_memOk | with_reducible apply restoreLost_memOk | with_reducible apply dmaOut_memOk | with_reducible apply updRegion_memOk | with_reducible apply updTbl_memOk | with_reducible apply State_setCourse_memOk | with_reducible apply settle_memOk | with_reducible apply activate_memOk | with_reducible apply memOk_foldl | split | dsimp +zetaDelta only)

theorem hRestoreStatus_memOk : ∀ x0 x1, memOk x1 → Res.Ok (hRestoreStatus x0 x1) := by
  intros; unfold hRestoreStatus; repeat' (first | with_reducible assumption | intro _ | extract_lets | with_reducible apply checked_memOk | with_reducible apply Res_ok_memOk | split | dsimp +zetaDelta only)

theorem adoptRanges_memOk : ∀ x0 x1 x2 x3, memOk x3 → optOk (fun x => x) (adoptRanges x0 x1 x2 x3) := by
  intros; unfold adoptRanges; repeat' (first | with_reducible assumption | intro _ | extract_lets | with_reducible apply optOk_none | with_reducible apply optOk_mk | with_reducible apply optOk_bind | with_reducible apply optOk_map | with_reducible apply optOk_orElse | with_reducible apply optOk_foldl | with_reducible apply writeRow_memOk | with_reducible apply placeBlk_memOk | with_reducible apply setTbl_memOk | with_reducible apply takeMap_memOk | with_reducible apply memOk_foldl | with_reducible apply memOk_foldl_fst | with_reducible apply memOk_foldl_snd | split | dsimp +zetaDelta only | (refine optOk_get (g := fun x => (x : State)) (by assumption) ?_))

theorem orderArrays_memOk : ∀ x0 x1, memOk x1 → memOk (orderArrays x0 x1) := by
  intro x0 x1 h; unfold orderArrays; extract_lets; split
  · exact h
  · refine State_setMason_memOk _ _ (memOk_foldl _ (fun _ _ h => writeRow_memOk _ _ _ _ _ _ h) (setTbl_memOk _ _ _ ?_))
    refine memOk_foldl _ (fun s b h => State_setMem_memOk _ _ ?_) h
    dsimp only
    repeat' (first | exact memOk_cells h | with_reducible apply cleanFrame_wf | split)

theorem adoptAll_memOk : ∀ x0 x1 x2, memOk x2 → optOk (fun x => x.2) (adoptAll x0 x1 x2) := by
  intros; unfold adoptAll; repeat' (first | with_reducible assumption | intro _ | extract_lets | with_reducible apply optOk_mk | with_reducible apply optOk_bind | with_reducible apply optOk_map | with_reducible apply optOk_foldl | with_reducible apply adoptRanges_memOk | with_reducible apply orderArrays_memOk | split | (refine optOk_get (g := fun x => (x : List (Nat × Nat) × State).2) (by assumption) ?_) | (refine optOk_get (g := fun x => (x : State)) (by assumption) ?_))

theorem failOwnerless_memOk : ∀ x0, memOk x0 → memOk (failOwnerless x0) := by
  intros; unfold failOwnerless; repeat' (first | with_reducible assumption | with_reducible apply settle_memOk | with_reducible apply setElastic_memOk)

theorem releaseShrink_memOk : ∀ x0, memOk x0 → memOk (releaseShrink x0) := by
  intros; unfold releaseShrink; repeat' (first | with_reducible assumption | intro _ | extract_lets | with_reducible apply finishWait_memOk | with_reducible apply failOwnerless_memOk | with_reducible apply memOk_foldl | with_reducible apply memOk_foldl_fst | with_reducible apply memOk_foldl_snd | split | dsimp +zetaDelta only)

theorem adoptProgress_memOk : ∀ x0, memOk x0 → memOk (adoptProgress x0) := by
  intros; unfold adoptProgress; repeat' (first | with_reducible assumption | extract_lets | with_reducible apply releaseShrink_memOk | with_reducible apply State_setElastic_memOk | intro _ | with_reducible apply finishWait_memOk | with_reducible apply setElastic_memOk | with_reducible apply failOwnerless_memOk | with_reducible apply memOk_foldl | split | dsimp +zetaDelta only)

theorem supersede_memOk : ∀ x0, memOk x0 → memOk (supersede x0) := by
  intros; unfold supersede; repeat' (first | with_reducible assumption | with_reducible apply finishWait_memOk | with_reducible apply setElastic_memOk | split)

theorem requeueSent_memOk : ∀ x0 x1, memOk x1 → memOk (requeueSent x0 x1) := by
  intros; unfold requeueSent; repeat' (first | with_reducible assumption | intro _ | extract_lets | with_reducible apply State_setTab_memOk | split | dsimp +zetaDelta only)

theorem hShardAdopt_memOk : ∀ x0 x1, memOk x1 → Res.Ok (hShardAdopt x0 x1) := by
  intros; unfold hShardAdopt; repeat' (first | with_reducible assumption | with_reducible apply releaseShrink_memOk | with_reducible apply State_setElastic_memOk | intro _ | extract_lets | with_reducible apply Res.ok_reply | with_reducible apply Res.ok_later | with_reducible apply memOk_getD | with_reducible apply optOk_map | with_reducible apply optOk_bind | with_reducible apply Res_rej_memOk | with_reducible apply checked_memOk | with_reducible apply roomThen_memOk | with_reducible apply adoptAll_memOk | with_reducible apply supersede_memOk | with_reducible apply requeueSent_memOk | with_reducible apply activate_memOk | with_reducible apply Res_ok_memOk | with_reducible apply settle_memOk | with_reducible apply Res_wait_memOk | with_reducible apply setElastic_memOk | split | dsimp +zetaDelta only | (refine optOk_get2 (by assumption) ?_) | (refine Res.get_reply (by assumption) ?_) | (refine Res.get_later (by assumption) ?_))

theorem hShrinkDone_memOk : ∀ x0 x1, memOk x1 → Res.Ok (hShrinkDone x0 x1) := by
  intros; unfold hShrinkDone; repeat' (first | with_reducible assumption | intro _ | extract_lets | with_reducible apply Res.ok_later | with_reducible apply Res_rej_memOk | with_reducible apply addWait_memOk | with_reducible apply Res_ok_memOk | with_reducible apply failOwnerless_memOk | split | dsimp +zetaDelta only)

theorem hAdopt_memOk : ∀ x0 x1, memOk x1 → Res.Ok (hAdopt x0 x1) := by
  intros; unfold hAdopt; repeat' (first | with_reducible assumption | with_reducible apply hShrinkDone_memOk | with_reducible apply hShardAdopt_memOk | split)

theorem updAdopt_memOk : ∀ x0 x1, memOk x1 → memOk (updAdopt x0 x1) := by
  intros; unfold updAdopt; repeat' (first | with_reducible assumption | with_reducible apply setElastic_memOk)

theorem adoptedRow_memOk : ∀ x0 x1 x2 x3 x4, memOk x4 → memOk (adoptedRow x0 x1 x2 x3 x4) := by
  intros; unfold adoptedRow; repeat' (first | with_reducible assumption | intro _ | extract_lets | with_reducible apply settle_memOk | with_reducible apply adoptProgress_memOk | with_reducible apply updAdopt_memOk | split | dsimp +zetaDelta only)

theorem adoptFull_memOk : ∀ x0, memOk x0 → memOk (adoptFull x0) := by
  intros; unfold adoptFull; repeat' (first | with_reducible assumption | intro _ | extract_lets | with_reducible apply updTbl_memOk | with_reducible apply releaseShrink_memOk | with_reducible apply State_setElastic_memOk | with_reducible apply memOk_foldl | with_reducible apply memOk_foldl_fst | with_reducible apply memOk_foldl_snd | with_reducible apply settle_memOk | with_reducible apply finishWait_memOk | with_reducible apply setElastic_memOk | split | dsimp +zetaDelta only)

theorem placeParts_memOk : ∀ x0 x1 x2 x3 x4, memOk x4 → memOk (placeParts x0 x1 x2 x3 x4) := by
  intros; unfold placeParts; repeat' (first | with_reducible assumption | intro _ | extract_lets | with_reducible apply writeRow_memOk | with_reducible apply memOk_foldl | with_reducible apply memOk_foldl_fst | with_reducible apply memOk_foldl_snd | split | dsimp +zetaDelta only)

theorem adoptReread_memOk : ∀ x0 x1 x2, memOk x2 → memOk (adoptReread x0 x1 x2) := by
  intros; unfold adoptReread; repeat' (first | with_reducible assumption | intro _ | extract_lets | with_reducible apply updAdopt_memOk | split | dsimp +zetaDelta only)

theorem adoptPut_memOk : ∀ x0 x1 x2 x3 x4 x5 x6 x7, memOk x7 → memOk (adoptPut x0 x1 x2 x3 x4 x5 x6 x7) := by
  intros; unfold adoptPut; repeat' (first | with_reducible assumption | intro _ | extract_lets | with_reducible apply rowGood_memOk | with_reducible apply placeParts_memOk | with_reducible apply adoptedRow_memOk | with_reducible apply rollbackRecord_memOk | with_reducible apply noteRollback_memOk | split | dsimp +zetaDelta only)

theorem execAdoptRowRead_memOk : ∀ x0 x1 x2 x3 x4, memOk x4 → OutOk (execAdoptRowRead x0 x1 x2 x3 x4) := by
  intros; unfold execAdoptRowRead; repeat' (first | with_reducible assumption | with_reducible apply adoptReread_memOk | with_reducible apply useSealKeys_memOk | with_reducible apply adoptPut_memOk | with_reducible apply updTbl_memOk | with_reducible apply memOk_foldl | with_reducible apply memOk_foldl_fst | with_reducible apply memOk_foldl_snd | intro _ | extract_lets | with_reducible apply OutOk.mk | with_reducible apply thawed_memOk | with_reducible apply placeRow_memOk | with_reducible apply rowGood_memOk | with_reducible apply adoptedRow_memOk | with_reducible apply rollbackRecord_memOk | with_reducible apply noteRollback_memOk | with_reducible apply adoptFull_memOk | split | dsimp +zetaDelta only)

theorem execAdoptTimeout_memOk : ∀ x0 x1 x2, memOk x2 → OutOk (execAdoptTimeout x0 x1 x2) := by
  intros; unfold execAdoptTimeout; repeat' (first | with_reducible assumption | intro _ | extract_lets | with_reducible apply OutOk.mk | with_reducible apply thawed_memOk | with_reducible apply adoptedRow_memOk | with_reducible apply updTbl_memOk | split | dsimp +zetaDelta only)

theorem execLivenessSend_memOk : ∀ x0, memOk x0 → OutOk (execLivenessSend x0) := by
  intros; unfold execLivenessSend; repeat' (first | with_reducible assumption | intro _ | extract_lets | with_reducible apply OutOk.mk | with_reducible apply thawed_memOk | with_reducible apply sendDown_memOk | with_reducible apply sendUp_memOk | split | dsimp +zetaDelta only)

theorem execLiveness_memOk : ∀ x0 x1 x2 x3 x4, memOk x4 → OutOk (execLiveness x0 x1 x2 x3 x4) := by
  intros; unfold execLiveness; repeat' (first | with_reducible assumption | with_reducible apply State_setElastic_memOk | with_reducible apply levelDomain_memOk | with_reducible apply joinDomain_memOk | intro _ | extract_lets | with_reducible apply OutOk.mk | with_reducible apply thawed_memOk | with_reducible apply setElastic_memOk | with_reducible apply notePeer_memOk | with_reducible apply State_setCourse_memOk | split | dsimp +zetaDelta only)

theorem membersLost_memOk : ∀ x0 x1, memOk x1 → memOk (membersLost x0 x1) := by
  intros; unfold membersLost; repeat' (first | with_reducible assumption | with_reducible apply levelDomain_memOk | with_reducible apply State_setElastic_memOk | intro _ | extract_lets | with_reducible apply recordCor_memOk | with_reducible apply State_setCourse_memOk | with_reducible apply setElastic_memOk | with_reducible apply abortCourse_memOk | with_reducible apply settle_memOk | with_reducible apply requeueSent_memOk | with_reducible apply memOk_foldl | with_reducible apply memOk_foldl_fst | with_reducible apply memOk_foldl_snd | split | dsimp +zetaDelta only)

theorem reportLost_memOk : ∀ x0 x1, memOk x1 → memOk (reportLost x0 x1) := by
  intros; unfold reportLost; repeat' (first | with_reducible assumption | with_reducible apply sendDown_memOk | with_reducible apply sendUp_memOk | split)

theorem neighbourLost_memOk : ∀ x0 x1, memOk x1 → memOk (neighbourLost x0 x1) := by
  intros; unfold neighbourLost; repeat' (first | with_reducible assumption | intro _ | extract_lets | with_reducible apply membersLost_memOk | with_reducible apply reportLost_memOk | split | dsimp +zetaDelta only)

theorem execLivenessTimeout_memOk : ∀ x0 x1, memOk x1 → OutOk (execLivenessTimeout x0 x1) := by
  intros; unfold execLivenessTimeout; repeat' (first | with_reducible assumption | intro _ | extract_lets | with_reducible apply neighbourLost_memOk | with_reducible apply OutOk.mk | with_reducible apply thawed_memOk | with_reducible apply membersLost_memOk | with_reducible apply reportLost_memOk | split | dsimp +zetaDelta only)

theorem domainConnLost_memOk : ∀ x0 x1, memOk x1 → memOk (domainConnLost x0 x1) := by
  intros; unfold domainConnLost; repeat' (first | with_reducible assumption | intro _ | extract_lets | with_reducible apply settle_memOk | with_reducible apply neighbourLost_memOk | with_reducible apply membersLost_memOk | split | dsimp +zetaDelta only)

theorem execMemberFailed_memOk : ∀ x0 x1 x2, memOk x2 → OutOk (execMemberFailed x0 x1 x2) := by
  intros; unfold execMemberFailed; repeat' (first | with_reducible assumption | with_reducible apply OutOk.mk | with_reducible apply thawed_memOk | with_reducible apply membersLost_memOk | with_reducible apply sendDown_memOk | with_reducible apply reportLost_memOk | split)

end Sys2Proof.Machine
end

