-- ==== Sys2Proof/Laws/MemOkParse.lean ====
section
/-! SUPPORT. Every operation of Machine/Parse.lean keeps memory in its canonical form. -/

namespace Sys2Proof.Machine

open Sys2Proof

theorem fillPeaks_memOk : ∀ x0, memOk x0 → memOk (fillPeaks x0) := by
  intros; unfold fillPeaks; repeat' (first | with_reducible assumption | with_reducible apply State_setPp_memOk)

end Sys2Proof.Machine
end

