-- ==== Sys2Proof/Laws/MemOkEgress.lean ====
section
/-! SUPPORT. Every operation of Machine/Egress.lean keeps memory in its canonical form. -/

namespace Sys2Proof.Machine

open Sys2Proof

theorem setEn_memOk : ∀ x0 x1 x2, memOk x2 → memOk (setEn x0 x1 x2) := by
  intros; unfold setEn; repeat' (first | with_reducible assumption | with_reducible apply State_setPp_memOk)

theorem updEn_memOk : ∀ x0 x1 x2, memOk x2 → memOk (updEn x0 x1 x2) := by
  intros; unfold updEn; repeat' (first | with_reducible assumption | with_reducible apply setEn_memOk)

theorem setSub_memOk : ∀ x0 x1 x2, memOk x2 → memOk (setSub x0 x1 x2) := by
  intros; unfold setSub; repeat' (first | with_reducible assumption | with_reducible apply updEn_memOk)

theorem updSub_memOk : ∀ x0 x1 x2, memOk x2 → memOk (updSub x0 x1 x2) := by
  intros; unfold updSub; repeat' (first | with_reducible assumption | with_reducible apply setSub_memOk)

theorem bumpEn_memOk : ∀ x0 x1 x2, memOk x2 → memOk (bumpEn x0 x1 x2) := by
  intros; unfold bumpEn; repeat' (first | with_reducible assumption | with_reducible apply bump_memOk)

theorem bumpEnBy_memOk : ∀ x0 x1 x2 x3, memOk x3 → memOk (bumpEnBy x0 x1 x2 x3) := by
  intros; unfold bumpEnBy; repeat' (first | with_reducible assumption | with_reducible apply bumpBy_memOk)

theorem setQp_memOk : ∀ x0 x1 x2, memOk x2 → memOk (setQp x0 x1 x2) := by
  intros; unfold setQp; repeat' (first | with_reducible assumption | with_reducible apply State_setPp_memOk)

theorem writeNic_memOk : ∀ x0 x1 x2, memOk x2 → memOk (writeNic x0 x1 x2) := by
  intros; unfold writeNic; repeat' (first | with_reducible assumption | intro _ | extract_lets | with_reducible apply raiseMsix_memOk | with_reducible apply setQp_memOk | with_reducible apply dmaOut_memOk | with_reducible apply emit_memOk | split | dsimp +zetaDelta only)

theorem postNic_memOk : ∀ x0 x1 x2, memOk x2 → memOk (postNic x0 x1 x2) := by
  intros; unfold postNic; repeat' (first | with_reducible assumption | intro _ | extract_lets | with_reducible apply setQp_memOk | with_reducible apply writeNic_memOk | split | dsimp +zetaDelta only)

theorem drainNic_memOk : ∀ x0 x1 x2, memOk x2 → memOk (drainNic x0 x1 x2) := by
  intro x0 x1 x2; fun_induction drainNic x0 x1 x2 <;> repeat' (first | intro _ | with_reducible apply writeNic_memOk | with_reducible apply_assumption)

theorem txDone_memOk : ∀ x0 x1 x2 x3 x4 x5 x6, memOk x6 → memOk (txDone x0 x1 x2 x3 x4 x5 x6) := by
  intros; unfold txDone; repeat' (first | with_reducible assumption | intro _ | extract_lets | with_reducible apply freezeProgress_memOk | with_reducible apply updFn_memOk | with_reducible apply postNic_memOk | split | dsimp +zetaDelta only)

theorem txDoneFree_memOk : ∀ x0 x1 x2 x3 x4 x5, memOk x5 → memOk (txDoneFree x0 x1 x2 x3 x4 x5) := by
  intros; unfold txDoneFree; repeat' (first | with_reducible assumption | with_reducible apply txDone_memOk | with_reducible apply drawn_memOk)

theorem setShaper_memOk : ∀ x0 x1 x2, memOk x2 → memOk (setShaper x0 x1 x2) := by
  intros; unfold setShaper; repeat' (first | with_reducible assumption | with_reducible apply State_setPp_memOk)

theorem pushFrame_memOk : ∀ x0 x1 x2 x3, memOk x3 → memOk (pushFrame x0 x1 x2 x3) := by
  intros; unfold pushFrame; repeat' (first | with_reducible assumption | with_reducible apply updSub_memOk)

theorem dropDone_memOk : ∀ x0 x1 x2, memOk x2 → memOk (dropDone x0 x1 x2) := by
  intros; unfold dropDone; repeat' (first | with_reducible assumption | with_reducible apply txDone_memOk | with_reducible apply txDoneFree_memOk | split)

theorem enqueue_memOk : ∀ x0 x1 x2 x3, memOk x3 → memOk (enqueue x0 x1 x2 x3) := by
  intros; unfold enqueue; repeat' (first | with_reducible assumption | extract_lets | with_reducible apply dropDone_memOk | with_reducible apply bumpEn_memOk | with_reducible apply pushFrame_memOk | split)

theorem dropQueued_memOk : ∀ x0 x1, memOk x1 → memOk (dropQueued x0 x1) := by
  intros; unfold dropQueued; repeat' (first | with_reducible assumption | intro _ | with_reducible apply updSub_memOk | with_reducible apply dropDone_memOk | with_reducible apply bumpEnBy_memOk | with_reducible apply memOk_foldl)

theorem takeFrom_memOk : ∀ x0 x1 x2 x3, memOk x3 → memOk (takeFrom x0 x1 x2 x3) := by
  intros; unfold takeFrom; repeat' (first | with_reducible assumption | with_reducible apply setShaper_memOk | split)

theorem dropOversize_memOk : ∀ x0 x1 x2 x3, memOk x3 → memOk (dropOversize x0 x1 x2 x3) := by
  intro x0 x1 x2 x3; fun_induction dropOversize x0 x1 x2 x3 <;> repeat' (first | intro _ | with_reducible apply dropDone_memOk | with_reducible apply_assumption)

theorem sendFrame_memOk : ∀ x0 x1 x2, memOk x2 → memOk (sendFrame x0 x1 x2) := by
  intros; unfold sendFrame; repeat' (first | with_reducible assumption | intro _ | extract_lets | with_reducible apply bumpEn_memOk | with_reducible apply txDone_memOk | with_reducible apply emit_memOk | with_reducible apply perfEvent_memOk | split | dsimp +zetaDelta only)

theorem transmitSlot_memOk : ∀ x0 x1, memOk x1 → memOk (transmitSlot x0 x1) := by
  intros; unfold transmitSlot; repeat' (first | with_reducible assumption | intro _ | extract_lets | with_reducible apply dropOversize_memOk | with_reducible apply sendFrame_memOk | with_reducible apply takeFrom_memOk | with_reducible apply setSub_memOk | with_reducible apply memOk_foldl | split)

end Sys2Proof.Machine
end

