-- ==== Sys2Proof/Laws/MemOkFrameRx.lean ====
section
/-! SUPPORT. Every operation of Machine/FrameRx.lean keeps memory in its canonical form. -/

namespace Sys2Proof.Machine

open Sys2Proof

theorem transmitDesc_memOk : ∀ x0 x1 x2 x3 x4, memOk x4 → memOk (transmitDesc x0 x1 x2 x3 x4) := by
  intros; unfold transmitDesc; repeat' (first | with_reducible assumption | extract_lets | with_reducible apply txDone_memOk | with_reducible apply txDoneFree_memOk | with_reducible apply updFn_memOk | with_reducible apply enqueue_memOk | with_reducible apply takeFrom_memOk | split)

theorem nicTransmit_memOk : ∀ x0 x1, memOk x1 → memOk (nicTransmit x0 x1) := by
  intros; unfold nicTransmit; repeat' (first | with_reducible assumption | with_reducible apply transmitDesc_memOk | with_reducible apply setQp_memOk | split)

theorem deliverHost_memOk : ∀ x0 x1 x2 x3, memOk x3 → memOk (deliverHost x0 x1 x2 x3) := by
  intros; unfold deliverHost; repeat' (first | with_reducible assumption | extract_lets | with_reducible apply bump_memOk | with_reducible apply setQp_memOk | with_reducible apply dmaOut_memOk | with_reducible apply postNic_memOk | split)

theorem deliverSteward_memOk : ∀ x0 x1 x2, memOk x2 → memOk (deliverSteward x0 x1 x2) := by
  intros; unfold deliverSteward; repeat' (first | with_reducible assumption | with_reducible apply State_setPp_memOk | with_reducible apply bump_memOk | with_reducible apply emit_memOk | split | dsimp +zetaDelta only)

theorem offer_memOk : ∀ x0 x1 x2 x3, memOk x3 → memOk (offer x0 x1 x2 x3) := by
  intros; unfold offer; repeat' (first | with_reducible assumption | intro _ | extract_lets | with_reducible apply State_setPp_memOk | with_reducible apply enqueue_memOk | split | dsimp +zetaDelta only)

theorem deliver_memOk : ∀ x0 x1 x2 x3, memOk x3 → memOk (deliver x0 x1 x2 x3) := by
  intros; unfold deliver; repeat' (first | with_reducible assumption | intro _ | extract_lets | with_reducible apply offer_memOk | with_reducible apply deliverHost_memOk | with_reducible apply emit_memOk | with_reducible apply enqueue_memOk | with_reducible apply deliverSteward_memOk | with_reducible apply bump_memOk | split | dsimp +zetaDelta only)

theorem policeFrame_memOk : ∀ x0 x1, memOk x1 → memOk (policeFrame x0 x1).1 := by
  intros; unfold policeFrame; repeat' (first | with_reducible assumption | extract_lets | with_reducible apply State_setPp_memOk | with_reducible apply bumpEn_memOk | split)

theorem routeFrame_memOk : ∀ x0 x1 x2, memOk x2 → memOk (routeFrame x0 x1 x2) := by
  intros; unfold routeFrame; repeat' (first | with_reducible assumption | with_reducible apply bump_memOk | with_reducible apply policeFrame_memOk | with_reducible apply deliver_memOk | split | dsimp +zetaDelta only)

theorem resumeIngress_memOk : ∀ x0, memOk x0 → memOk (resumeIngress x0) := by
  intros; unfold resumeIngress; repeat' (first | with_reducible assumption | intro _ | with_reducible apply routeFrame_memOk | with_reducible apply State_setPp_memOk | with_reducible apply memOk_foldl)

theorem receiveFrame_memOk : ∀ x0 x1 x2 x3, memOk x3 → memOk (receiveFrame x0 x1 x2 x3) := by
  intros; unfold receiveFrame; repeat' (first | with_reducible assumption | extract_lets | with_reducible apply bumpEn_memOk | with_reducible apply State_setPp_memOk | with_reducible apply routeFrame_memOk | split)

end Sys2Proof.Machine
end

