-- ==== Sys2Proof/Laws/MemOkPacketCmds.lean ====
section
/-! SUPPORT. Every operation of Machine/PacketCmds.lean keeps memory in its canonical form. -/

namespace Sys2Proof.Machine

open Sys2Proof

theorem unstageSub_memOk : ∀ x0 x1, memOk x1 → memOk (unstageSub x0 x1) := by
  intros; unfold unstageSub; repeat' (first | with_reducible assumption | intro _ | extract_lets | with_reducible apply unstage_memOk | with_reducible apply memOk_foldl | with_reducible apply memOk_foldl_fst | with_reducible apply memOk_foldl_snd | split | dsimp +zetaDelta only)

theorem hPortConfigEthernet_memOk : ∀ x0 x1, memOk x1 → Res.Ok (hPortConfigEthernet x0 x1) := by
  intros; unfold hPortConfigEthernet; repeat' (first | with_reducible assumption | with_reducible apply warn_memOk | intro _ | extract_lets | with_reducible apply Res.ok_reply | with_reducible apply Res.ok_later | with_reducible apply checked_memOk | with_reducible apply unstageSub_memOk | with_reducible apply dropQueued_memOk | with_reducible apply setEn_memOk | with_reducible apply fillPeaks_memOk | with_reducible apply Res_ok_memOk | with_reducible apply bump_memOk | with_reducible apply memOk_foldl | with_reducible apply memOk_foldl_fst | with_reducible apply memOk_foldl_snd | split | dsimp +zetaDelta only | (refine Res.get_reply (by assumption) ?_) | (refine Res.get_later (by assumption) ?_))

theorem hPortQueryEthernet_memOk : ∀ x0 x1, memOk x1 → Res.Ok (hPortQueryEthernet x0 x1) := by
  intros; unfold hPortQueryEthernet; repeat' (first | with_reducible assumption | extract_lets | with_reducible apply Res_rej_memOk | with_reducible apply Res_ok_memOk | split)

theorem removeNicQp_memOk : ∀ x0 x1, memOk x1 → memOk (removeNicQp x0 x1) := by
  intros; unfold removeNicQp; repeat' (first | with_reducible assumption | with_reducible apply State_setPages_memOk | with_reducible apply unstage_memOk | with_reducible apply State_setPp_memOk | split)

theorem hNicQpCreate_memOk : ∀ x0 x1, memOk x1 → Res.Ok (hNicQpCreate x0 x1) := by
  intros; unfold hNicQpCreate; repeat' (first | with_reducible assumption | with_reducible apply checked_memOk | with_reducible apply setQp_memOk | with_reducible apply State_setPages_memOk | with_reducible apply Res_ok_memOk | with_reducible apply Res_rej_memOk | split)

theorem hNicQpDestroy_memOk : ∀ x0 x1, memOk x1 → Res.Ok (hNicQpDestroy x0 x1) := by
  intros; unfold hNicQpDestroy; repeat' (first | with_reducible assumption | with_reducible apply checked_memOk | with_reducible apply Res_ok_memOk | with_reducible apply removeNicQp_memOk)

theorem hNicQp_memOk : ∀ x0 x1, memOk x1 → Res.Ok (hNicQp x0 x1) := by
  intros; unfold hNicQp; repeat' (first | with_reducible assumption | with_reducible apply hNicQpCreate_memOk | with_reducible apply hNicQpDestroy_memOk | with_reducible apply Res_rej_memOk | split)

theorem execTxTail_memOk : ∀ x0 x1 x2 x3 x4, memOk x4 → OutOk (execTxTail x0 x1 x2 x3 x4) := by
  intros; unfold execTxTail; repeat' (first | with_reducible assumption | intro _ | extract_lets | with_reducible apply OutOk.mk | with_reducible apply thawed_memOk | with_reducible apply doorbellRange_memOk | with_reducible apply setQp_memOk | split | dsimp +zetaDelta only)

theorem execRxTail_memOk : ∀ x0 x1 x2 x3 x4, memOk x4 → OutOk (execRxTail x0 x1 x2 x3 x4) := by
  intros; unfold execRxTail; repeat' (first | with_reducible assumption | intro _ | extract_lets | with_reducible apply OutOk.mk | with_reducible apply thawed_memOk | with_reducible apply doorbellRange_memOk | with_reducible apply setQp_memOk | split | dsimp +zetaDelta only)

theorem execNicCqHead_memOk : ∀ x0 x1 x2 x3, memOk x3 → OutOk (execNicCqHead x0 x1 x2 x3) := by
  intros; unfold execNicCqHead; repeat' (first | with_reducible assumption | intro _ | extract_lets | with_reducible apply OutOk.mk | with_reducible apply thawed_memOk | with_reducible apply doorbellRange_memOk | with_reducible apply drainNic_memOk | with_reducible apply setQp_memOk | split | dsimp +zetaDelta only)

theorem execNicTransmit_memOk : ∀ x0 x1 x2, memOk x2 → OutOk (execNicTransmit x0 x1 x2) := by
  intros; unfold execNicTransmit; repeat' (first | with_reducible assumption | with_reducible apply OutOk.mk | with_reducible apply thawed_memOk | with_reducible apply nicTransmit_memOk)

theorem hParseNodeWrite_memOk : ∀ x0 x1, memOk x1 → Res.Ok (hParseNodeWrite x0 x1) := by
  intros; unfold hParseNodeWrite; repeat' (first | with_reducible assumption | with_reducible apply checked_memOk | with_reducible apply Ctx_okEcho_memOk | with_reducible apply State_setPp_memOk)

theorem putTable_memOk : ∀ x0 x1 x2, memOk x2 → memOk (putTable x0 x1 x2) := by
  intros; unfold putTable; repeat' (first | with_reducible assumption | with_reducible apply State_setPp_memOk)

theorem clsRecord_memOk : ∀ x0 x1 x2 x3 x4, memOk x4 → memOk (clsRecord x0 x1 x2 x3 x4).1 := by
  intros; unfold clsRecord; repeat' (first | with_reducible assumption | intro _ | extract_lets | with_reducible apply putTable_memOk | split | dsimp +zetaDelta only)

theorem clsRecords_memOk : ∀ x0 x1 x2 x3 x4 x5, memOk x5 → memOk (clsRecords x0 x1 x2 x3 x4 x5).1 := by
  intro x0 x1 x2 x3 x4 x5; fun_induction clsRecords x0 x1 x2 x3 x4 x5 <;> repeat' (first | intro _ | with_reducible apply clsRecord_memOk | with_reducible apply_assumption | (refine memOk_fst (by assumption) ?_))

theorem hClsEntryWrite_memOk : ∀ x0 x1, memOk x1 → Res.Ok (hClsEntryWrite x0 x1) := by
  intros; unfold hClsEntryWrite; repeat' (first | with_reducible assumption | intro _ | extract_lets | with_reducible apply checked_memOk | with_reducible apply Res_ok_memOk | with_reducible apply putTable_memOk | with_reducible apply clsRecords_memOk | split | (refine memOk_fst (by assumption) ?_) | dsimp +zetaDelta only)

theorem hIndirectionEntries_memOk : ∀ x0 x1, memOk x1 → Res.Ok (hIndirectionEntries x0 x1) := by
  intros; unfold hIndirectionEntries; repeat' (first | with_reducible assumption | intro _ | extract_lets | with_reducible apply memOk_foldl | with_reducible apply memOk_foldl_fst | with_reducible apply memOk_foldl_snd | with_reducible apply checked_memOk | with_reducible apply Res_ok_memOk | with_reducible apply State_setPp_memOk | split | dsimp +zetaDelta only)

theorem hIndirectionProfile_memOk : ∀ x0 x1, memOk x1 → Res.Ok (hIndirectionProfile x0 x1) := by
  intros; unfold hIndirectionProfile; repeat' (first | with_reducible assumption | intro _ | extract_lets | with_reducible apply checked_memOk | with_reducible apply Res_ok_memOk | with_reducible apply State_setPp_memOk | split | dsimp +zetaDelta only)

theorem hIndirectionWrite_memOk : ∀ x0 x1, memOk x1 → Res.Ok (hIndirectionWrite x0 x1) := by
  intros; unfold hIndirectionWrite; repeat' (first | with_reducible assumption | with_reducible apply hIndirectionEntries_memOk | with_reducible apply hIndirectionProfile_memOk | with_reducible apply Res_rej_memOk | split)

theorem hShaperSet_memOk : ∀ x0 x1, memOk x1 → Res.Ok (hShaperSet x0 x1) := by
  intros; unfold hShaperSet; repeat' (first | with_reducible assumption | with_reducible apply checked_memOk | with_reducible apply Ctx_okEcho_memOk | with_reducible apply setShaper_memOk | with_reducible apply drawn_memOk)

theorem hPolicerSet_memOk : ∀ x0 x1, memOk x1 → Res.Ok (hPolicerSet x0 x1) := by
  intros; unfold hPolicerSet; repeat' (first | with_reducible assumption | with_reducible apply checked_memOk | with_reducible apply drawn_memOk | with_reducible apply Ctx_okEcho_memOk | with_reducible apply State_setPp_memOk)

theorem hGateListSet_memOk : ∀ x0 x1, memOk x1 → Res.Ok (hGateListSet x0 x1) := by
  intros; unfold hGateListSet; repeat' (first | with_reducible assumption | intro _ | extract_lets | with_reducible apply checked_memOk | with_reducible apply Ctx_okEcho_memOk | with_reducible apply updSub_memOk | split | dsimp +zetaDelta only)

theorem execGateListTakeEffect_memOk : ∀ x0 x1, memOk x1 → OutOk (execGateListTakeEffect x0 x1) := by
  intros; unfold execGateListTakeEffect; repeat' (first | with_reducible assumption | with_reducible apply OutOk.mk | with_reducible apply thawed_memOk | with_reducible apply updSub_memOk | split)

theorem hSamplerSet_memOk : ∀ x0 x1, memOk x1 → Res.Ok (hSamplerSet x0 x1) := by
  intros; unfold hSamplerSet; repeat' (first | with_reducible assumption | with_reducible apply checked_memOk | with_reducible apply Ctx_okEcho_memOk | with_reducible apply State_setPp_memOk)

theorem sampleOne_memOk : ∀ x0 x1 x2, memOk x2 → memOk (sampleOne x0 x1 x2) := by
  intros; unfold sampleOne; repeat' (first | with_reducible assumption | with_reducible apply dmaOut_memOk | with_reducible apply State_setPp_memOk)

theorem execSamplerInterval_memOk : ∀ x0 x1, memOk x1 → OutOk (execSamplerInterval x0 x1) := by
  intros; unfold execSamplerInterval; repeat' (first | with_reducible assumption | intro _ | extract_lets | with_reducible apply OutOk.mk | with_reducible apply thawed_memOk | with_reducible apply sampleOne_memOk | with_reducible apply memOk_foldl | split)

theorem execEthernetFrameRx_memOk : ∀ x0 x1 x2 x3 x4 x5, memOk x5 → OutOk (execEthernetFrameRx x0 x1 x2 x3 x4 x5) := by
  intros; unfold execEthernetFrameRx; repeat' (first | with_reducible assumption | with_reducible apply OutOk.mk | with_reducible apply thawed_memOk | with_reducible apply receiveFrame_memOk | with_reducible apply bumpEnBy_memOk | with_reducible apply updSub_memOk | split)

theorem linkUp_memOk : ∀ x0 x1 x2 x3 x4 x5, memOk x5 → memOk (linkUp x0 x1 x2 x3 x4 x5) := by
  intros; unfold linkUp; repeat' (first | with_reducible assumption | intro _ | extract_lets | with_reducible apply warn_memOk | with_reducible apply setEn_memOk | with_reducible apply setSub_memOk | with_reducible apply fillPeaks_memOk | with_reducible apply bumpEn_memOk | split | dsimp +zetaDelta only)

theorem execLinkUp_memOk : ∀ x0 x1 x2 x3 x4 x5, memOk x5 → OutOk (execLinkUp x0 x1 x2 x3 x4 x5) := by
  intros; unfold execLinkUp; repeat' (first | with_reducible assumption | with_reducible apply OutOk.mk | with_reducible apply linkUp_memOk | split)

theorem linkDown_memOk : ∀ x0 x1, memOk x1 → memOk (linkDown x0 x1) := by
  intros; unfold linkDown; repeat' (first | with_reducible assumption | with_reducible apply updSub_memOk | with_reducible apply setEn_memOk)

theorem execLinkDown_memOk : ∀ x0 x1, memOk x1 → OutOk (execLinkDown x0 x1) := by
  intros; unfold execLinkDown; repeat' (first | with_reducible assumption | with_reducible apply OutOk.mk | with_reducible apply linkDown_memOk | split)

theorem execLinkDownHoldExpiry_memOk : ∀ x0 x1, memOk x1 → OutOk (execLinkDownHoldExpiry x0 x1) := by
  intros; unfold execLinkDownHoldExpiry; repeat' (first | with_reducible assumption | extract_lets | with_reducible apply OutOk.mk | with_reducible apply dropQueued_memOk | split)

theorem execServiceTimerExpiry_memOk : ∀ x0 x1, memOk x1 → OutOk (execServiceTimerExpiry x0 x1) := by
  intros; unfold execServiceTimerExpiry; repeat' (first | with_reducible assumption | extract_lets | with_reducible apply OutOk.mk | with_reducible apply thawed_memOk | with_reducible apply setSub_memOk | split)

theorem downTrain_memOk : ∀ x0 x1 x2, memOk x2 → memOk (downTrain x0 x1 x2) := by
  intros; unfold downTrain; repeat' (first | with_reducible assumption | with_reducible apply logPolicy_memOk | with_reducible apply linkDown_memOk | with_reducible apply updSub_memOk | split | dsimp +zetaDelta only)

theorem execLaneTrainingFailed_memOk : ∀ x0 x1 x2, memOk x2 → OutOk (execLaneTrainingFailed x0 x1 x2) := by
  intros; unfold execLaneTrainingFailed; repeat' (first | with_reducible assumption | extract_lets | with_reducible apply OutOk.mk | with_reducible apply setEn_memOk | with_reducible apply downTrain_memOk | split)

theorem execLaneIdentityFound_memOk : ∀ x0 x1 x2, memOk x2 → OutOk (execLaneIdentityFound x0 x1 x2) := by
  intros; unfold execLaneIdentityFound; repeat' (first | with_reducible assumption | extract_lets | with_reducible apply OutOk.mk | with_reducible apply setEn_memOk | split)

theorem execTransmissionSlot_memOk : ∀ x0 x1, memOk x1 → OutOk (execTransmissionSlot x0 x1) := by
  intros; unfold execTransmissionSlot; repeat' (first | with_reducible assumption | with_reducible apply OutOk.mk | with_reducible apply thawed_memOk | with_reducible apply transmitSlot_memOk)

end Sys2Proof.Machine
end

