-- ==== Sys2Proof/Laws/MemOkGrt.lean ====
section
/-! SUPPORT. Every operation of Machine/Grt.lean keeps memory in its canonical form. -/

namespace Sys2Proof.Machine

open Sys2Proof

theorem setConn_memOk : ∀ x0 x1 x2, memOk x2 → memOk (setConn x0 x1 x2) := by
  intros; unfold setConn; repeat' (first | with_reducible assumption | with_reducible apply State_setGrt_memOk)

theorem updConn_memOk : ∀ x0 x1 x2, memOk x2 → memOk (updConn x0 x1 x2) := by
  intros; unfold updConn; repeat' (first | with_reducible assumption | with_reducible apply setConn_memOk | split)

theorem setWq_memOk : ∀ x0 x1 x2, memOk x2 → memOk (setWq x0 x1 x2) := by
  intros; unfold setWq; repeat' (first | with_reducible assumption | with_reducible apply State_setGrt_memOk)

theorem bumpTr_memOk : ∀ x0 x1, memOk x1 → memOk (bumpTr x0 x1) := by
  intros; unfold bumpTr; repeat' (first | with_reducible assumption | with_reducible apply bump_memOk)

theorem useGrtKey_memOk : ∀ x0 x1 x2 x3 x4, memOk x4 → memOk (useGrtKey x0 x1 x2 x3 x4) := by
  intros; unfold useGrtKey; repeat' (first | with_reducible assumption | with_reducible apply useWorkingKey_memOk | split)

theorem queuePacket_memOk : ∀ x0 x1 x2, memOk x2 → memOk (queuePacket x0 x1 x2) := by
  intros; unfold queuePacket; repeat' (first | with_reducible assumption | intro _ | with_reducible apply State_setPp_memOk | extract_lets | with_reducible apply useGrtKey_memOk | with_reducible apply bumpEn_memOk | with_reducible apply pushFrame_memOk | with_reducible apply takeFrom_memOk | split | dsimp +zetaDelta only)

theorem sendHello_memOk : ∀ x0 x1, memOk x1 → memOk (sendHello x0 x1) := by
  intros; unfold sendHello; repeat' (first | with_reducible assumption | with_reducible apply queuePacket_memOk)

theorem sendAck_memOk : ∀ x0 x1, memOk x1 → memOk (sendAck x0 x1) := by
  intros; unfold sendAck; repeat' (first | with_reducible assumption | with_reducible apply queuePacket_memOk | with_reducible apply setConn_memOk)

theorem sendNak_memOk : ∀ x0 x1 x2 x3 x4 x5, memOk x5 → memOk (sendNak x0 x1 x2 x3 x4 x5) := by
  intros; unfold sendNak; repeat' (first | with_reducible assumption | with_reducible apply queuePacket_memOk)

theorem refusal_memOk : ∀ x0 x1 x2, memOk x2 → memOk (refusal x0 x1 x2) := by
  intros; unfold refusal; repeat' (first | with_reducible assumption | intro _ | extract_lets | with_reducible apply emit_memOk | split | dsimp +zetaDelta only)

theorem nakNoConn_memOk : ∀ x0 x1, memOk x1 → memOk (nakNoConn x0 x1) := by
  intros; unfold nakNoConn; repeat' (first | with_reducible assumption | intro _ | extract_lets | with_reducible apply refusal_memOk | split | dsimp +zetaDelta only)

theorem excludePath_memOk : ∀ x0 x1 x2, memOk x2 → memOk (excludePath x0 x1 x2) := by
  intros; unfold excludePath; repeat' (first | with_reducible assumption | extract_lets | with_reducible apply logPolicy_memOk | with_reducible apply bumpTr_memOk | with_reducible apply setConn_memOk | split)

theorem setCwnd_memOk : ∀ x0 x1 x2, memOk x2 → memOk (setCwnd x0 x1 x2) := by
  intros; unfold setCwnd; repeat' (first | with_reducible assumption | extract_lets | with_reducible apply setConn_memOk | with_reducible apply logPolicy_memOk | split)

theorem ccAck_memOk : ∀ x0 x1 x2 x3, memOk x3 → memOk (ccAck x0 x1 x2 x3) := by
  intros; unfold ccAck; repeat' (first | with_reducible assumption | with_reducible apply setCwnd_memOk | with_reducible apply setConn_memOk)

theorem writeGrt_memOk : ∀ x0 x1 x2, memOk x2 → memOk (writeGrt x0 x1 x2) := by
  intros; unfold writeGrt; repeat' (first | with_reducible assumption | intro _ | extract_lets | with_reducible apply raiseMsix_memOk | with_reducible apply setWq_memOk | with_reducible apply dmaOut_memOk | with_reducible apply emit_memOk | split | dsimp +zetaDelta only)

theorem postGrt_memOk : ∀ x0 x1 x2, memOk x2 → memOk (postGrt x0 x1 x2) := by
  intros; unfold postGrt; repeat' (first | with_reducible assumption | intro _ | extract_lets | with_reducible apply setWq_memOk | with_reducible apply writeGrt_memOk | split | dsimp +zetaDelta only)

theorem drainGrt_memOk : ∀ x0 x1 x2, memOk x2 → memOk (drainGrt x0 x1 x2) := by
  intro x0 x1 x2; fun_induction drainGrt x0 x1 x2 <;> repeat' (first | intro _ | with_reducible apply writeGrt_memOk | with_reducible apply_assumption)

theorem raiseCtr_memOk : ∀ x0 x1 x2 x3, memOk x3 → memOk (raiseCtr x0 x1 x2 x3) := by
  intros; unfold raiseCtr; repeat' (first | with_reducible assumption | with_reducible apply setWq_memOk | split)

theorem endReq_memOk : ∀ x0 x1 x2 x3 x4, memOk x4 → memOk (endReq x0 x1 x2 x3 x4) := by
  intros; unfold endReq; repeat' (first | with_reducible assumption | with_reducible apply raiseCtr_memOk | with_reducible apply drawn_memOk | with_reducible apply postGrt_memOk | split | dsimp +zetaDelta only)

theorem runLocal_memOk : ∀ x0 x1 x2 x3, memOk x3 → memOk (runLocal x0 x1 x2 x3) := by
  intros; unfold runLocal; repeat' (first | with_reducible assumption | with_reducible apply endReq_memOk | with_reducible apply raiseCtr_memOk | split)

theorem drainReqs_memOk : ∀ x0 x1 x2, memOk x2 → memOk (drainReqs x0 x1 x2) := by
  intro x0 x1 x2; fun_induction drainReqs x0 x1 x2 <;> repeat' (first | intro _ | with_reducible apply endReq_memOk | with_reducible apply runLocal_memOk | with_reducible apply_assumption)

theorem drainAll_memOk : ∀ x0 x1, memOk x1 → memOk (drainAll x0 x1) := by
  intros; unfold drainAll; repeat' (first | with_reducible assumption | with_reducible apply drainReqs_memOk)

theorem markDone_memOk : ∀ x0 x1 x2 x3, memOk x3 → memOk (markDone x0 x1 x2 x3) := by
  intros; unfold markDone; repeat' (first | with_reducible assumption | intro _ | extract_lets | with_reducible apply freezeProgress_memOk | with_reducible apply drainAll_memOk | with_reducible apply updConn_memOk | split | dsimp +zetaDelta only)

theorem sendNew_memOk : ∀ x0 x1 x2 x3, memOk x3 → memOk (sendNew x0 x1 x2 x3) := by
  intros; unfold sendNew; repeat' (first | with_reducible assumption | with_reducible apply queuePacket_memOk | with_reducible apply setConn_memOk)

theorem resend_memOk : ∀ x0 x1 x2, memOk x2 → memOk (resend x0 x1 x2) := by
  intros; unfold resend; repeat' (first | with_reducible assumption | extract_lets | with_reducible apply setConn_memOk | with_reducible apply queuePacket_memOk | with_reducible apply perfEvent_memOk | with_reducible apply bumpTr_memOk | split)

theorem sendOne_memOk : ∀ x0 x1, memOk x1 → optOk (fun x => x) (sendOne x0 x1) := by
  intros; unfold sendOne; repeat' (first | with_reducible assumption | intro _ | extract_lets | with_reducible apply optOk_none | with_reducible apply optOk_mk | with_reducible apply resend_memOk | with_reducible apply sendNew_memOk | with_reducible apply setConn_memOk | with_reducible apply drainAll_memOk | split | dsimp +zetaDelta only)

theorem pump_memOk : ∀ x0 x1 x2, memOk x2 → memOk (pump x0 x1 x2) := by
  intro x0 x1 x2; fun_induction pump x0 x1 x2 <;> repeat' (first | intro _ | with_reducible apply sendOne_memOk | with_reducible apply_assumption | (refine optOk_get (g := fun x => (x : State)) (by assumption) ?_))

theorem pumpConn_memOk : ∀ x0 x1, memOk x1 → memOk (pumpConn x0 x1) := by
  intros; unfold pumpConn; repeat' (first | with_reducible assumption | intro _ | extract_lets | with_reducible apply pump_memOk | split | dsimp +zetaDelta only)

theorem startWr_memOk : ∀ x0 x1 x2 x3, memOk x3 → memOk (startWr x0 x1 x2 x3) := by
  intros; unfold startWr; repeat' (first | with_reducible assumption | with_reducible apply endReq_memOk | with_reducible apply runLocal_memOk | with_reducible apply cipherCheck_memOk | with_reducible apply pumpConn_memOk | with_reducible apply setConn_memOk | split | dsimp +zetaDelta only)

theorem fetchWr_memOk : ∀ x0 x1 x2 x3, memOk x3 → memOk (fetchWr x0 x1 x2 x3) := by
  intros; unfold fetchWr; repeat' (first | with_reducible assumption | with_reducible apply endReq_memOk | with_reducible apply setWq_memOk | with_reducible apply startWr_memOk | split)

theorem fetchWq_memOk : ∀ x0 x1 x2, memOk x2 → memOk (fetchWq x0 x1 x2) := by
  intro x0 x1 x2; fun_induction fetchWq x0 x1 x2 <;> repeat' (first | intro _ | with_reducible apply fetchWr_memOk | with_reducible apply_assumption)

theorem releaseOne_memOk : ∀ x0 x1 x2, memOk x2 → memOk (releaseOne x0 x1 x2) := by
  intros; unfold releaseOne; repeat' (first | with_reducible assumption | with_reducible apply setConn_memOk | with_reducible apply postGrt_memOk | with_reducible apply raiseCtr_memOk | split | dsimp +zetaDelta only)

theorem releaseMsgs_memOk : ∀ x0 x1 x2, memOk x2 → memOk (releaseMsgs x0 x1 x2) := by
  intro x0 x1 x2; fun_induction releaseMsgs x0 x1 x2 <;> repeat' (first | intro _ | with_reducible apply releaseOne_memOk | with_reducible apply_assumption)

theorem releaseAll_memOk : ∀ x0 x1, memOk x1 → memOk (releaseAll x0 x1) := by
  intros; unfold releaseAll; repeat' (first | with_reducible assumption | with_reducible apply releaseMsgs_memOk)

theorem noteArrival_memOk : ∀ x0 x1 x2 x3, memOk x3 → memOk (noteArrival x0 x1 x2 x3) := by
  intros; unfold noteArrival; repeat' (first | with_reducible assumption | with_reducible apply setConn_memOk | with_reducible apply queuePacket_memOk | with_reducible apply sendAck_memOk | split | dsimp +zetaDelta only)

theorem failRemote_memOk : ∀ x0 x1, memOk x1 → memOk (failRemote x0 x1) := by
  intros; unfold failRemote; repeat' (first | with_reducible assumption | intro _ | with_reducible apply stoSettle_memOk | with_reducible apply failLegsOf_memOk | split)

theorem errorConn_memOk : ∀ x0 x1 x2 x3, memOk x3 → memOk (errorConn x0 x1 x2 x3) := by
  intros; unfold errorConn; repeat' (first | with_reducible assumption | extract_lets | with_reducible apply failRemote_memOk | with_reducible apply drainAll_memOk | with_reducible apply bumpTr_memOk | with_reducible apply setConn_memOk | split)

theorem removeConn_memOk : ∀ x0 x1, memOk x1 → memOk (removeConn x0 x1) := by
  intros; unfold removeConn; repeat' (first | with_reducible assumption | extract_lets | with_reducible apply unstage_memOk | with_reducible apply State_setPp_memOk | with_reducible apply State_setGrt_memOk | with_reducible apply State_setPages_memOk | split)

theorem dropConnFrames_memOk : ∀ x0 x1, memOk x1 → memOk (dropConnFrames x0 x1) := by
  intros; unfold dropConnFrames; repeat' (first | with_reducible assumption | with_reducible apply updSub_memOk)

theorem removeMr_memOk : ∀ x0 x1, memOk x1 → memOk (removeMr x0 x1) := by
  intros; unfold removeMr; repeat' (first | with_reducible assumption | with_reducible apply State_setGrt_memOk | split)

theorem dropTransport_memOk : ∀ x0 x1, memOk x1 → memOk (dropTransport x0 x1) := by
  intros; unfold dropTransport; repeat' (first | with_reducible assumption | intro _ | extract_lets | with_reducible apply updFn_memOk | with_reducible apply removeConn_memOk | with_reducible apply dropConnFrames_memOk | with_reducible apply removeMr_memOk | with_reducible apply memOk_foldl | with_reducible apply memOk_foldl_fst | with_reducible apply memOk_foldl_snd | split | dsimp +zetaDelta only)

end Sys2Proof.Machine
end

