-- ==== Sys2Proof/Laws/MemOkNvmeCmds.lean ====
section
/-! SUPPORT. Every operation of Machine/NvmeCmds.lean keeps memory in its canonical form. -/

namespace Sys2Proof.Machine

open Sys2Proof

theorem createCq_memOk : ∀ x0 x1 x2, memOk x2 → memOk (createCq x0 x1 x2) := by
  intros; unfold createCq; repeat' (first | with_reducible assumption | with_reducible apply nvmeDone_memOk | with_reducible apply setCtrl_memOk | split)

theorem createSq_memOk : ∀ x0 x1 x2, memOk x2 → memOk (createSq x0 x1 x2) := by
  intros; unfold createSq; repeat' (first | with_reducible assumption | with_reducible apply nvmeDone_memOk | with_reducible apply setCtrl_memOk | split)

theorem deleteSq_memOk : ∀ x0 x1 x2, memOk x2 → memOk (deleteSq x0 x1 x2) := by
  intros; unfold deleteSq; repeat' (first | with_reducible assumption | intro _ | extract_lets | with_reducible apply nvmeDone_memOk | with_reducible apply updOp_memOk | with_reducible apply endOp_memOk | with_reducible apply updCtrl_memOk | with_reducible apply memOk_foldl | split)

theorem deleteCq_memOk : ∀ x0 x1 x2, memOk x2 → memOk (deleteCq x0 x1 x2) := by
  intros; unfold deleteCq; repeat' (first | with_reducible assumption | extract_lets | with_reducible apply nvmeDone_memOk | with_reducible apply setCtrl_memOk | split)

theorem supersedePs_memOk : ∀ x0 x1, memOk x1 → memOk (supersedePs x0 x1) := by
  intros; unfold supersedePs; repeat' (first | with_reducible assumption | extract_lets | with_reducible apply nvmeDone_memOk | with_reducible apply setCtrl_memOk | split)

theorem setPower_memOk : ∀ x0 x1 x2, memOk x2 → memOk (setPower x0 x1 x2) := by
  intros; unfold setPower; repeat' (first | with_reducible assumption | intro _ | extract_lets | with_reducible apply nvmeDone_memOk | with_reducible apply supersedePs_memOk | with_reducible apply updCtrl_memOk | with_reducible apply bump_memOk | split | dsimp +zetaDelta only)

theorem setFeature_memOk : ∀ x0 x1 x2, memOk x2 → memOk (setFeature x0 x1 x2) := by
  intros; unfold setFeature; repeat' (first | with_reducible assumption | extract_lets | with_reducible apply nvmeDone_memOk | with_reducible apply updCtrl_memOk | with_reducible apply setPower_memOk | split)

theorem getFeature_memOk : ∀ x0 x1 x2, memOk x2 → memOk (getFeature x0 x1 x2) := by
  intros; unfold getFeature; repeat' (first | with_reducible assumption | with_reducible apply nvmeDone_memOk | split | dsimp +zetaDelta only)

theorem getLog_memOk : ∀ x0 x1 x2, memOk x2 → memOk (getLog x0 x1 x2) := by
  intros; unfold getLog; repeat' (first | with_reducible assumption | with_reducible apply nvmeDone_memOk | with_reducible apply updCtrl_memOk | with_reducible apply drawn_memOk | split | dsimp +zetaDelta only)

theorem identify_memOk : ∀ x0 x1 x2, memOk x2 → memOk (identify x0 x1 x2) := by
  intros; unfold identify; repeat' (first | with_reducible assumption | with_reducible apply nvmeDone_memOk | with_reducible apply drawn_memOk | split)

theorem abortCmd_memOk : ∀ x0 x1 x2, memOk x2 → memOk (abortCmd x0 x1 x2) := by
  intros; unfold abortCmd; repeat' (first | with_reducible assumption | extract_lets | with_reducible apply nvmeDone_memOk | with_reducible apply endOp_memOk | with_reducible apply updCtrl_memOk | split)

theorem asyncRequest_memOk : ∀ x0 x1 x2, memOk x2 → memOk (asyncRequest x0 x1 x2) := by
  intros; unfold asyncRequest; repeat' (first | with_reducible assumption | extract_lets | with_reducible apply nvmeDone_memOk | with_reducible apply setCtrl_memOk | split)

theorem sanitize_memOk : ∀ x0 x1 x2 x3, memOk x3 → memOk (sanitize x0 x1 x2 x3) := by
  intros; unfold sanitize; repeat' (first | with_reducible assumption | intro _ | extract_lets | with_reducible apply nvmeDone_memOk | with_reducible apply setSan_memOk | with_reducible apply updCtrl_memOk | with_reducible apply memOk_foldl | split)

theorem formatNvm_memOk : ∀ x0 x1 x2, memOk x2 → memOk (formatNvm x0 x1 x2) := by
  intros; unfold formatNvm; repeat' (first | with_reducible assumption | extract_lets | with_reducible apply nvmeDone_memOk | with_reducible apply updCtrl_memOk | split)

theorem adminCommand_memOk : ∀ x0 x1 x2 x3, memOk x3 → memOk (adminCommand x0 x1 x2 x3) := by
  intros; unfold adminCommand; repeat' (first | with_reducible assumption | with_reducible apply deleteSq_memOk | with_reducible apply createSq_memOk | with_reducible apply getLog_memOk | with_reducible apply deleteCq_memOk | with_reducible apply createCq_memOk | with_reducible apply identify_memOk | with_reducible apply abortCmd_memOk | with_reducible apply setFeature_memOk | with_reducible apply getFeature_memOk | with_reducible apply asyncRequest_memOk | with_reducible apply formatNvm_memOk | with_reducible apply sanitize_memOk | with_reducible apply nvmeDone_memOk | split)

theorem fetchOne_memOk : ∀ x0 x1 x2, memOk x2 → memOk (fetchOne x0 x1 x2) := by
  intros; unfold fetchOne; repeat' (first | with_reducible assumption | intro _ | extract_lets | with_reducible apply setCtrl_memOk | with_reducible apply bump_memOk | with_reducible apply updCtrl_memOk | with_reducible apply nvmeDone_memOk | with_reducible apply stoSettle_memOk | with_reducible apply adminCommand_memOk | with_reducible apply ioCommand_memOk | split | dsimp +zetaDelta only)

theorem fetchMany_memOk : ∀ x0 x1 x2 x3, memOk x3 → memOk (fetchMany x0 x1 x2 x3) := by
  intro x0 x1 x2 x3; fun_induction fetchMany x0 x1 x2 x3 <;> repeat' (first | intro _ | with_reducible apply fetchOne_memOk | with_reducible apply_assumption)

theorem fetchTurns_memOk : ∀ x0 x1 x2, memOk x2 → memOk (fetchTurns x0 x1 x2) := by
  intro x0 x1 x2; fun_induction fetchTurns x0 x1 x2 <;> repeat' (first | intro _ | with_reducible apply fetchMany_memOk | with_reducible apply_assumption)

theorem fetchNvme_memOk : ∀ x0 x1, memOk x1 → memOk (fetchNvme x0 x1) := by
  intros; unfold fetchNvme; repeat' (first | with_reducible assumption | with_reducible apply fetchTurns_memOk | split)

theorem badDoorbell_memOk : ∀ x0 x1 x2, memOk x2 → memOk (badDoorbell x0 x1 x2) := by
  intros; unfold badDoorbell; repeat' (first | with_reducible assumption | extract_lets | split | with_reducible apply asyncEvent_memOk | with_reducible apply bump_memOk)

theorem ringSq_memOk : ∀ x0 x1 x2 x3 x4, memOk x4 → memOk (ringSq x0 x1 x2 x3 x4) := by
  intros; unfold ringSq; repeat' (first | with_reducible assumption | intro _ | extract_lets | with_reducible apply badDoorbell_memOk | with_reducible apply stoSettle_memOk | with_reducible apply fetchNvme_memOk | with_reducible apply setCtrl_memOk | split | dsimp +zetaDelta only)

theorem execNvmeSqDoorbell_memOk : ∀ x0 x1 x2 x3 x4, memOk x4 → OutOk (execNvmeSqDoorbell x0 x1 x2 x3 x4) := by
  intros; unfold execNvmeSqDoorbell; repeat' (first | with_reducible assumption | intro _ | extract_lets | with_reducible apply OutOk.mk | with_reducible apply thawed_memOk | with_reducible apply ringSq_memOk | split | dsimp +zetaDelta only)

theorem nvmeSubmit_memOk : ∀ x0 x1 x2 x3 x4 x5, memOk x5 → memOk (nvmeSubmit x0 x1 x2 x3 x4 x5) := by
  intros; unfold nvmeSubmit; repeat' (first | with_reducible assumption | with_reducible apply ringSq_memOk | split)

theorem execNvmeCqDoorbell_memOk : ∀ x0 x1 x2 x3, memOk x3 → OutOk (execNvmeCqDoorbell x0 x1 x2 x3) := by
  intros; unfold execNvmeCqDoorbell; repeat' (first | with_reducible assumption | intro _ | extract_lets | with_reducible apply OutOk.mk | with_reducible apply thawed_memOk | with_reducible apply badDoorbell_memOk | with_reducible apply stoSettle_memOk | with_reducible apply fetchNvme_memOk | with_reducible apply setCtrl_memOk | split | dsimp +zetaDelta only)

theorem execInterruptCoalescingExpiry_memOk : ∀ x0 x1 x2, memOk x2 → OutOk (execInterruptCoalescingExpiry x0 x1 x2) := by
  intros; unfold execInterruptCoalescingExpiry; repeat' (first | with_reducible assumption | intro _ | extract_lets | with_reducible apply raiseMsix_memOk | with_reducible apply OutOk.mk | with_reducible apply thawed_memOk | with_reducible apply emit_memOk | with_reducible apply updCtrl_memOk | split | dsimp +zetaDelta only)

theorem execDeleteIoSq_memOk : ∀ x0 x1 x2, memOk x2 → OutOk (execDeleteIoSq x0 x1 x2) := by
  intros; unfold execDeleteIoSq; repeat' (first | with_reducible assumption | with_reducible apply OutOk.mk | with_reducible apply thawed_memOk | with_reducible apply nvmeSubmit_memOk)

theorem execDeleteIoCq_memOk : ∀ x0 x1 x2, memOk x2 → OutOk (execDeleteIoCq x0 x1 x2) := by
  intros; unfold execDeleteIoCq; repeat' (first | with_reducible assumption | with_reducible apply OutOk.mk | with_reducible apply thawed_memOk | with_reducible apply nvmeSubmit_memOk)

theorem execCreateIoSq_memOk : ∀ x0 x1 x2, memOk x2 → OutOk (execCreateIoSq x0 x1 x2) := by
  intros; unfold execCreateIoSq; repeat' (first | with_reducible assumption | with_reducible apply OutOk.mk | with_reducible apply thawed_memOk | with_reducible apply nvmeSubmit_memOk)

theorem execCreateIoCq_memOk : ∀ x0 x1 x2, memOk x2 → OutOk (execCreateIoCq x0 x1 x2) := by
  intros; unfold execCreateIoCq; repeat' (first | with_reducible assumption | with_reducible apply OutOk.mk | with_reducible apply thawed_memOk | with_reducible apply nvmeSubmit_memOk)

theorem execGetLogPage_memOk : ∀ x0 x1 x2, memOk x2 → OutOk (execGetLogPage x0 x1 x2) := by
  intros; unfold execGetLogPage; repeat' (first | with_reducible assumption | with_reducible apply OutOk.mk | with_reducible apply thawed_memOk | with_reducible apply nvmeSubmit_memOk)

theorem execIdentify_memOk : ∀ x0 x1 x2, memOk x2 → OutOk (execIdentify x0 x1 x2) := by
  intros; unfold execIdentify; repeat' (first | with_reducible assumption | with_reducible apply OutOk.mk | with_reducible apply thawed_memOk | with_reducible apply nvmeSubmit_memOk)

theorem execAbort_memOk : ∀ x0 x1 x2, memOk x2 → OutOk (execAbort x0 x1 x2) := by
  intros; unfold execAbort; repeat' (first | with_reducible assumption | with_reducible apply OutOk.mk | with_reducible apply thawed_memOk | with_reducible apply nvmeSubmit_memOk)

theorem execSetFeatures_memOk : ∀ x0 x1 x2, memOk x2 → OutOk (execSetFeatures x0 x1 x2) := by
  intros; unfold execSetFeatures; repeat' (first | with_reducible assumption | with_reducible apply OutOk.mk | with_reducible apply thawed_memOk | with_reducible apply nvmeSubmit_memOk)

theorem execSetFeaturesPowerManagement_memOk : ∀ x0 x1 x2, memOk x2 → OutOk (execSetFeaturesPowerManagement x0 x1 x2) := by
  intros; unfold execSetFeaturesPowerManagement; repeat' (first | with_reducible assumption | with_reducible apply OutOk.mk | with_reducible apply thawed_memOk | with_reducible apply nvmeSubmit_memOk)

theorem execGetFeatures_memOk : ∀ x0 x1 x2, memOk x2 → OutOk (execGetFeatures x0 x1 x2) := by
  intros; unfold execGetFeatures; repeat' (first | with_reducible assumption | with_reducible apply OutOk.mk | with_reducible apply thawed_memOk | with_reducible apply nvmeSubmit_memOk)

theorem execAsynchronousEventRequest_memOk : ∀ x0 x1 x2, memOk x2 → OutOk (execAsynchronousEventRequest x0 x1 x2) := by
  intros; unfold execAsynchronousEventRequest; repeat' (first | with_reducible assumption | with_reducible apply OutOk.mk | with_reducible apply thawed_memOk | with_reducible apply nvmeSubmit_memOk)

theorem execFormatNvm_memOk : ∀ x0 x1 x2, memOk x2 → OutOk (execFormatNvm x0 x1 x2) := by
  intros; unfold execFormatNvm; repeat' (first | with_reducible assumption | with_reducible apply OutOk.mk | with_reducible apply thawed_memOk | with_reducible apply nvmeSubmit_memOk)

theorem execSanitizeExitFailure_memOk : ∀ x0 x1 x2, memOk x2 → OutOk (execSanitizeExitFailure x0 x1 x2) := by
  intros; unfold execSanitizeExitFailure; repeat' (first | with_reducible assumption | with_reducible apply OutOk.mk | with_reducible apply thawed_memOk | with_reducible apply nvmeSubmit_memOk)

theorem execSanitizeBlockErase_memOk : ∀ x0 x1 x2, memOk x2 → OutOk (execSanitizeBlockErase x0 x1 x2) := by
  intros; unfold execSanitizeBlockErase; repeat' (first | with_reducible assumption | with_reducible apply OutOk.mk | with_reducible apply thawed_memOk | with_reducible apply nvmeSubmit_memOk)

theorem execSanitizeOverwrite_memOk : ∀ x0 x1 x2, memOk x2 → OutOk (execSanitizeOverwrite x0 x1 x2) := by
  intros; unfold execSanitizeOverwrite; repeat' (first | with_reducible assumption | with_reducible apply OutOk.mk | with_reducible apply thawed_memOk | with_reducible apply nvmeSubmit_memOk)

theorem execSanitizeCryptoErase_memOk : ∀ x0 x1 x2, memOk x2 → OutOk (execSanitizeCryptoErase x0 x1 x2) := by
  intros; unfold execSanitizeCryptoErase; repeat' (first | with_reducible assumption | with_reducible apply OutOk.mk | with_reducible apply thawed_memOk | with_reducible apply nvmeSubmit_memOk)

theorem ioSubmit_memOk : ∀ x0 x1 x2 x3 x4 x5, memOk x5 → memOk (ioSubmit x0 x1 x2 x3 x4 x5) := by
  intros; unfold ioSubmit; repeat' (first | with_reducible assumption | with_reducible apply nvmeSubmit_memOk | split)

theorem execFlushNvm_memOk : ∀ x0 x1 x2 x3, memOk x3 → OutOk (execFlushNvm x0 x1 x2 x3) := by
  intros; unfold execFlushNvm; repeat' (first | with_reducible assumption | with_reducible apply OutOk.mk | with_reducible apply thawed_memOk | with_reducible apply ioSubmit_memOk)

theorem execNvmeWrite_memOk : ∀ x0 x1 x2 x3 x4, memOk x4 → OutOk (execNvmeWrite x0 x1 x2 x3 x4) := by
  intros; unfold execNvmeWrite; repeat' (first | with_reducible assumption | with_reducible apply OutOk.mk | with_reducible apply thawed_memOk | with_reducible apply ioSubmit_memOk)

theorem execNvmeRead_memOk : ∀ x0 x1 x2 x3 x4, memOk x4 → OutOk (execNvmeRead x0 x1 x2 x3 x4) := by
  intros; unfold execNvmeRead; repeat' (first | with_reducible assumption | with_reducible apply OutOk.mk | with_reducible apply thawed_memOk | with_reducible apply ioSubmit_memOk)

theorem execCompare_memOk : ∀ x0 x1 x2 x3 x4, memOk x4 → OutOk (execCompare x0 x1 x2 x3 x4) := by
  intros; unfold execCompare; repeat' (first | with_reducible assumption | with_reducible apply OutOk.mk | with_reducible apply thawed_memOk | with_reducible apply ioSubmit_memOk)

theorem execWriteZeroes_memOk : ∀ x0 x1 x2 x3 x4, memOk x4 → OutOk (execWriteZeroes x0 x1 x2 x3 x4) := by
  intros; unfold execWriteZeroes; repeat' (first | with_reducible assumption | with_reducible apply OutOk.mk | with_reducible apply thawed_memOk | with_reducible apply ioSubmit_memOk)

theorem execDatasetManagement_memOk : ∀ x0 x1 x2 x3 x4, memOk x4 → OutOk (execDatasetManagement x0 x1 x2 x3 x4) := by
  intros; unfold execDatasetManagement; repeat' (first | with_reducible assumption | with_reducible apply OutOk.mk | with_reducible apply thawed_memOk | with_reducible apply ioSubmit_memOk)

theorem execVerify_memOk : ∀ x0 x1 x2 x3 x4, memOk x4 → OutOk (execVerify x0 x1 x2 x3 x4) := by
  intros; unfold execVerify; repeat' (first | with_reducible assumption | with_reducible apply OutOk.mk | with_reducible apply thawed_memOk | with_reducible apply ioSubmit_memOk)

theorem execRangeLockGrant_memOk : ∀ x0 x1, memOk x1 → OutOk (execRangeLockGrant x0 x1) := by
  intros; unfold execRangeLockGrant; repeat' (first | with_reducible assumption | with_reducible apply OutOk.mk | with_reducible apply thawed_memOk | with_reducible apply stoSettle_memOk | with_reducible apply tryStart_memOk | split)

theorem execJournalDurable_memOk : ∀ x0 x1, memOk x1 → OutOk (execJournalDurable x0 x1) := by
  intros; unfold execJournalDurable; repeat' (first | with_reducible assumption | extract_lets | with_reducible apply OutOk.mk | with_reducible apply thawed_memOk | with_reducible apply stoSettle_memOk | with_reducible apply endOp_memOk | with_reducible apply setNs_memOk | with_reducible apply postOp_memOk | with_reducible apply updOp_memOk | split)

theorem execInPlaceWriteDone_memOk : ∀ x0 x1 x2, memOk x2 → OutOk (execInPlaceWriteDone x0 x1 x2) := by
  intros; unfold execInPlaceWriteDone; repeat' (first | with_reducible assumption | intro _ | extract_lets | with_reducible apply rawLegs_memOk | with_reducible apply OutOk.mk | with_reducible apply thawed_memOk | with_reducible apply writeLegs_memOk | with_reducible apply stoSettle_memOk | with_reducible apply dropOp_memOk | with_reducible apply updNs_memOk | split | dsimp +zetaDelta only)

theorem sanDone_memOk : ∀ x0 x1, memOk x1 → memOk (sanDone x0 x1) := by
  intros; unfold sanDone; repeat' (first | with_reducible assumption | intro _ | extract_lets | with_reducible apply updNs_memOk | with_reducible apply setSan_memOk | with_reducible apply asyncEvent_memOk | with_reducible apply updCtrl_memOk | split | dsimp +zetaDelta only)

theorem formatDone_memOk : ∀ x0 x1, memOk x1 → memOk (formatDone x0 x1) := by
  intros; unfold formatDone; repeat' (first | with_reducible assumption | extract_lets | with_reducible apply nvmeDone_memOk | split)

theorem sanFailed_memOk : ∀ x0 x1, memOk x1 → memOk (sanFailed x0 x1) := by
  intros; unfold sanFailed; repeat' (first | with_reducible assumption | extract_lets | with_reducible apply setSan_memOk | with_reducible apply formatDone_memOk | with_reducible apply updCtrl_memOk | split)

theorem newNsKey_memOk : ∀ x0 x1, memOk x1 → memOk (newNsKey x0 x1) := by
  intros; unfold newNsKey; repeat' (first | with_reducible assumption | extract_lets | with_reducible apply drawn_memOk | with_reducible apply State_setSec_memOk | split)

theorem execSanitizeProgress_memOk : ∀ x0 x1 x2, memOk x2 → OutOk (execSanitizeProgress x0 x1 x2) := by
  intros; unfold execSanitizeProgress; repeat' (first | with_reducible assumption | with_reducible apply setNs_memOk | intro _ | extract_lets | with_reducible apply OutOk.mk | with_reducible apply setSan_memOk | with_reducible apply thawed_memOk | with_reducible apply stoSettle_memOk | with_reducible apply clearKey_memOk | with_reducible apply sanDone_memOk | with_reducible apply newNsKey_memOk | with_reducible apply sanFailed_memOk | with_reducible apply formatDone_memOk | with_reducible apply updNs_memOk | split | dsimp +zetaDelta only)

theorem execPowerStateIdle_memOk : ∀ x0 x1, memOk x1 → OutOk (execPowerStateIdle x0 x1) := by
  intros; unfold execPowerStateIdle; repeat' (first | with_reducible assumption | with_reducible apply OutOk.mk | with_reducible apply thawed_memOk | with_reducible apply nvmeDone_memOk | with_reducible apply updCtrl_memOk | split)

theorem execPowerStateAbandon_memOk : ∀ x0 x1, memOk x1 → OutOk (execPowerStateAbandon x0 x1) := by
  intros; unfold execPowerStateAbandon; repeat' (first | with_reducible assumption | with_reducible apply OutOk.mk | with_reducible apply thawed_memOk | with_reducible apply nvmeDone_memOk | with_reducible apply bump_memOk | with_reducible apply updCtrl_memOk | split)

theorem nvmeReset_memOk : ∀ x0 x1, memOk x1 → memOk (nvmeReset x0 x1) := by
  intros; unfold nvmeReset; repeat' (first | with_reducible assumption | with_reducible apply State_setSto_memOk | with_reducible apply stoSettle_memOk | with_reducible apply setCtrl_memOk)

theorem execControllerReset_memOk : ∀ x0 x1 x2 x3 x4 x5 x6, memOk x6 → OutOk (execControllerReset x0 x1 x2 x3 x4 x5 x6) := by
  intros; unfold execControllerReset; repeat' (first | with_reducible assumption | with_reducible apply OutOk.mk | with_reducible apply nvmeReset_memOk | with_reducible apply updCtrl_memOk | split)

end Sys2Proof.Machine
end

