-- ==== Sys2Proof/Laws/MemOkStorageCmds.lean ====
section
/-! SUPPORT. Every operation of Machine/StorageCmds.lean keeps memory in its canonical form. -/

namespace Sys2Proof.Machine

open Sys2Proof

theorem hNsCreate_memOk : ∀ x0 x1, memOk x1 → Res.Ok (hNsCreate x0 x1) := by
  intros; unfold hNsCreate; repeat' (first | with_reducible assumption | extract_lets | with_reducible apply checked_memOk | with_reducible apply roomThen_memOk | with_reducible apply Res_rej_memOk | with_reducible apply Res_ok_memOk | with_reducible apply setNs_memOk | split)

theorem hNsDelete_memOk : ∀ x0 x1, memOk x1 → Res.Ok (hNsDelete x0 x1) := by
  intros; unfold hNsDelete; repeat' (first | with_reducible assumption | with_reducible apply dropOps_memOk | intro _ | extract_lets | with_reducible apply Res.ok_reply | with_reducible apply Res.ok_later | with_reducible apply Res_rej_memOk | with_reducible apply State_setSto_memOk | with_reducible apply clearKey_memOk | with_reducible apply Res_ok_memOk | with_reducible apply stoSettle_memOk | split | dsimp +zetaDelta only | (refine Res.get_reply (by assumption) ?_) | (refine Res.get_later (by assumption) ?_))

theorem hNsAttach_memOk : ∀ x0 x1, memOk x1 → Res.Ok (hNsAttach x0 x1) := by
  intros; unfold hNsAttach; repeat' (first | with_reducible assumption | extract_lets | with_reducible apply Res_rej_memOk | with_reducible apply checked_memOk | with_reducible apply Res_ok_memOk | with_reducible apply nsChanged_memOk | with_reducible apply setNs_memOk | split)

theorem hNsDetach_memOk : ∀ x0 x1, memOk x1 → Res.Ok (hNsDetach x0 x1) := by
  intros; unfold hNsDetach; repeat' (first | with_reducible assumption | extract_lets | with_reducible apply Res.ok_later | with_reducible apply Res_rej_memOk | with_reducible apply checked_memOk | with_reducible apply addWait_memOk | with_reducible apply Res_ok_memOk | with_reducible apply nsChanged_memOk | with_reducible apply setNs_memOk | split)

theorem hNsQuery_memOk : ∀ x0 x1, memOk x1 → Res.Ok (hNsQuery x0 x1) := by
  intros; unfold hNsQuery; repeat' (first | with_reducible assumption | with_reducible apply Res_rej_memOk | with_reducible apply Res_ok_memOk | split)

theorem hSsdList_memOk : ∀ x0 x1, memOk x1 → Res.Ok (hSsdList x0 x1) := by
  intros; unfold hSsdList; repeat' (first | with_reducible assumption | with_reducible apply Res_ok_memOk)

theorem beginResync_memOk : ∀ x0 x1 x2, memOk x2 → memOk (beginResync x0 x1 x2) := by
  intros; unfold beginResync; repeat' (first | with_reducible assumption | intro _ | extract_lets | with_reducible apply State_setSto_memOk | with_reducible apply updLeg_memOk | split | dsimp +zetaDelta only)

theorem hNsMirrorSet_memOk : ∀ x0 x1, memOk x1 → Res.Ok (hNsMirrorSet x0 x1) := by
  intros; unfold hNsMirrorSet; repeat' (first | with_reducible assumption | with_reducible apply Res_rej_memOk | with_reducible apply Res_ok_memOk | with_reducible apply stoSettle_memOk | with_reducible apply checked_memOk | with_reducible apply setNs_memOk | with_reducible apply State_setSto_memOk | with_reducible apply beginResync_memOk | split | dsimp +zetaDelta only)

theorem markSsd_memOk : ∀ x0 x1, memOk x1 → memOk (markSsd x0 x1) := by
  intros; unfold markSsd; repeat' (first | with_reducible assumption | intro _ | with_reducible apply State_setSto_memOk | split)

theorem journalDown_memOk : ∀ x0 x1 x2, memOk x2 → memOk (journalDown x0 x1 x2) := by
  intros; unfold journalDown; repeat' (first | with_reducible assumption | intro _ | with_reducible apply endOp_memOk | with_reducible apply updNs_memOk | with_reducible apply logStorage_memOk | with_reducible apply memOk_foldl | split | dsimp +zetaDelta only)

theorem journalBack_memOk : ∀ x0 x1 x2, memOk x2 → memOk (journalBack x0 x1 x2) := by
  intros; unfold journalBack; repeat' (first | with_reducible assumption | intro _ | with_reducible apply updNs_memOk | with_reducible apply logStorage_memOk | split)

theorem failSsd_memOk : ∀ x0 x1, memOk x1 → memOk (failSsd x0 x1) := by
  intros; unfold failSsd; repeat' (first | with_reducible assumption | intro _ | with_reducible apply failLegsOf_memOk | with_reducible apply markSsd_memOk | with_reducible apply journalDown_memOk | with_reducible apply memOk_foldl | dsimp +zetaDelta only)

theorem replayHeld_memOk : ∀ x0 x1, memOk x1 → memOk (replayHeld x0 x1) := by
  intros; unfold replayHeld; repeat' (first | with_reducible assumption | intro _ | extract_lets | with_reducible apply rawLegs_memOk | with_reducible apply setCell_memOk | with_reducible apply updNs_memOk | with_reducible apply memOk_foldl | with_reducible apply memOk_foldl_fst | with_reducible apply memOk_foldl_snd | split | dsimp +zetaDelta only)

theorem legBack_memOk : ∀ x0 x1 x2, memOk x2 → memOk (legBack x0 x1 x2) := by
  intros; unfold legBack; repeat' (first | with_reducible assumption | extract_lets | with_reducible apply replayHeld_memOk | intro _ | with_reducible apply logStorage_memOk | with_reducible apply beginResync_memOk | with_reducible apply updLeg_memOk | split | dsimp +zetaDelta only)

theorem returnSsd_memOk : ∀ x0 x1, memOk x1 → memOk (returnSsd x0 x1) := by
  intros; unfold returnSsd; repeat' (first | with_reducible assumption | intro _ | with_reducible apply State_setSto_memOk | with_reducible apply journalBack_memOk | with_reducible apply legBack_memOk | with_reducible apply memOk_foldl | dsimp +zetaDelta only)

theorem execLegFailed_memOk : ∀ x0 x1 x2 x3, memOk x3 → OutOk (execLegFailed x0 x1 x2 x3) := by
  intros; unfold execLegFailed; repeat' (first | with_reducible assumption | with_reducible apply OutOk.mk | with_reducible apply thawed_memOk | with_reducible apply stoSettle_memOk | with_reducible apply legDown_memOk | with_reducible apply failSsd_memOk | split)

theorem execLegReturn_memOk : ∀ x0 x1 x2 x3, memOk x3 → OutOk (execLegReturn x0 x1 x2 x3) := by
  intros; unfold execLegReturn; repeat' (first | with_reducible assumption | with_reducible apply OutOk.mk | with_reducible apply thawed_memOk | with_reducible apply stoSettle_memOk | with_reducible apply returnSsd_memOk | with_reducible apply legBack_memOk | split)

theorem execResyncPiece_memOk : ∀ x0 x1 x2, memOk x2 → OutOk (execResyncPiece x0 x1 x2) := by
  intros; unfold execResyncPiece; repeat' (first | with_reducible assumption | intro _ | extract_lets | with_reducible apply OutOk.mk | with_reducible apply thawed_memOk | with_reducible apply stoSettle_memOk | with_reducible apply arrive_memOk | split | dsimp +zetaDelta only)

theorem execJournalSsdFailed_memOk : ∀ x0 x1, memOk x1 → OutOk (execJournalSsdFailed x0 x1) := by
  intros; unfold execJournalSsdFailed; repeat' (first | with_reducible assumption | with_reducible apply OutOk.mk | with_reducible apply thawed_memOk | with_reducible apply stoSettle_memOk | with_reducible apply failSsd_memOk)

theorem execJournalSsdReturn_memOk : ∀ x0 x1, memOk x1 → OutOk (execJournalSsdReturn x0 x1) := by
  intros; unfold execJournalSsdReturn; repeat' (first | with_reducible assumption | with_reducible apply OutOk.mk | with_reducible apply thawed_memOk | with_reducible apply stoSettle_memOk | with_reducible apply returnSsd_memOk)

theorem replayNs_memOk : ∀ x0 x1, memOk x1 → memOk (replayNs x0 x1) := by
  intros; unfold replayNs; repeat' (first | with_reducible assumption | extract_lets | with_reducible apply replayHeld_memOk | intro _ | with_reducible apply State_setDraw_memOk | with_reducible apply writeLegs_memOk | with_reducible apply setCell_memOk | with_reducible apply updNs_memOk | with_reducible apply memOk_foldl | split | dsimp +zetaDelta only)

theorem settleMirror_memOk : ∀ x0 x1, memOk x1 → memOk (settleMirror x0 x1) := by
  intros; unfold settleMirror; repeat' (first | with_reducible assumption | intro _ | with_reducible apply atomic_memOk | with_reducible apply memOk_foldl | with_reducible apply memOk_foldl_fst | with_reducible apply memOk_foldl_snd | extract_lets | with_reducible apply setNs_memOk | split | dsimp +zetaDelta only)

theorem storageStart_memOk : ∀ x0, memOk x0 → memOk (storageStart x0) := by
  intros; unfold storageStart; repeat' (first | with_reducible assumption | intro _ | with_reducible apply setCell_memOk | with_reducible apply State_setSto_memOk | with_reducible apply settleMirror_memOk | with_reducible apply replayNs_memOk | with_reducible apply memOk_foldl)

end Sys2Proof.Machine
end

