-- ==== Sys2Proof/Laws/MemOkGrtCmds.lean ====
section
/-! SUPPORT. Every operation of Machine/GrtCmds.lean keeps memory in its canonical form. -/

namespace Sys2Proof.Machine

open Sys2Proof

theorem hGrtConnCreate_memOk : ∀ x0 x1, memOk x1 → Res.Ok (hGrtConnCreate x0 x1) := by
  intros; unfold hGrtConnCreate; repeat' (first | with_reducible assumption | with_reducible apply sendHello_memOk | with_reducible apply checked_memOk | with_reducible apply roomThen_memOk | with_reducible apply Res_rej_memOk | with_reducible apply Res_ok_memOk | with_reducible apply setConn_memOk | with_reducible apply setWq_memOk | with_reducible apply State_setPages_memOk | split | dsimp +zetaDelta only)

theorem hGrtConnDestroy_memOk : ∀ x0 x1, memOk x1 → Res.Ok (hGrtConnDestroy x0 x1) := by
  intros; unfold hGrtConnDestroy; repeat' (first | with_reducible assumption | intro _ | with_reducible apply Res_rej_memOk | with_reducible apply queuePacket_memOk | with_reducible apply updConn_memOk | with_reducible apply drainAll_memOk | with_reducible apply setWq_memOk | with_reducible apply endReq_memOk | with_reducible apply Res_ok_memOk | with_reducible apply removeConn_memOk | with_reducible apply memOk_foldl | split | dsimp +zetaDelta only)

theorem hGrtConnQuery_memOk : ∀ x0 x1, memOk x1 → Res.Ok (hGrtConnQuery x0 x1) := by
  intros; unfold hGrtConnQuery; repeat' (first | with_reducible assumption | extract_lets | with_reducible apply Res_rej_memOk | with_reducible apply Res_ok_memOk | split)

theorem hMrRegister_memOk : ∀ x0 x1, memOk x1 → Res.Ok (hMrRegister x0 x1) := by
  intros; unfold hMrRegister; repeat' (first | with_reducible assumption | with_reducible apply checked_memOk | with_reducible apply roomThen_memOk | with_reducible apply Res_rej_memOk | with_reducible apply Res_ok_memOk | with_reducible apply State_setGrt_memOk | split | dsimp +zetaDelta only)

theorem hMrRevoke_memOk : ∀ x0 x1, memOk x1 → Res.Ok (hMrRevoke x0 x1) := by
  intros; unfold hMrRevoke; repeat' (first | with_reducible assumption | extract_lets | with_reducible apply Res.ok_later | with_reducible apply Res_rej_memOk | with_reducible apply addWait_memOk | with_reducible apply State_setGrt_memOk | split)

theorem execRevocationDrained_memOk : ∀ x0 x1, memOk x1 → OutOk (execRevocationDrained x0 x1) := by
  intros; unfold execRevocationDrained; repeat' (first | with_reducible assumption | extract_lets | with_reducible apply OutOk.mk | with_reducible apply thawed_memOk | with_reducible apply removeMr_memOk | with_reducible apply finishWait_memOk | split)

theorem execGrtSqTail_memOk : ∀ x0 x1 x2 x3, memOk x3 → OutOk (execGrtSqTail x0 x1 x2 x3) := by
  intros; unfold execGrtSqTail; repeat' (first | with_reducible assumption | intro _ | extract_lets | with_reducible apply OutOk.mk | with_reducible apply thawed_memOk | with_reducible apply doorbellRange_memOk | with_reducible apply fetchWq_memOk | with_reducible apply setWq_memOk | split | dsimp +zetaDelta only)

theorem execGrtCqHead_memOk : ∀ x0 x1 x2, memOk x2 → OutOk (execGrtCqHead x0 x1 x2) := by
  intros; unfold execGrtCqHead; repeat' (first | with_reducible assumption | intro _ | extract_lets | with_reducible apply OutOk.mk | with_reducible apply thawed_memOk | with_reducible apply doorbellRange_memOk | with_reducible apply drainGrt_memOk | with_reducible apply setWq_memOk | split | dsimp +zetaDelta only)

theorem submitWr_memOk : ∀ x0 x1 x2 x3 x4, memOk x4 → memOk (submitWr x0 x1 x2 x3 x4) := by
  intros; unfold submitWr; repeat' (first | with_reducible assumption | intro _ | extract_lets | with_reducible apply fetchWq_memOk | with_reducible apply setWq_memOk | split | dsimp +zetaDelta only)

theorem execGrtWrite_memOk : ∀ x0 x1 x2 x3, memOk x3 → OutOk (execGrtWrite x0 x1 x2 x3) := by
  intros; unfold execGrtWrite; repeat' (first | with_reducible assumption | with_reducible apply OutOk.mk | with_reducible apply thawed_memOk | with_reducible apply submitWr_memOk)

theorem execGrtWriteNotify_memOk : ∀ x0 x1 x2 x3, memOk x3 → OutOk (execGrtWriteNotify x0 x1 x2 x3) := by
  intros; unfold execGrtWriteNotify; repeat' (first | with_reducible assumption | with_reducible apply OutOk.mk | with_reducible apply thawed_memOk | with_reducible apply submitWr_memOk)

theorem execGrtRead_memOk : ∀ x0 x1 x2 x3, memOk x3 → OutOk (execGrtRead x0 x1 x2 x3) := by
  intros; unfold execGrtRead; repeat' (first | with_reducible assumption | with_reducible apply OutOk.mk | with_reducible apply thawed_memOk | with_reducible apply submitWr_memOk)

theorem execCtrAdd_memOk : ∀ x0 x1 x2, memOk x2 → OutOk (execCtrAdd x0 x1 x2) := by
  intros; unfold execCtrAdd; repeat' (first | with_reducible assumption | with_reducible apply OutOk.mk | with_reducible apply thawed_memOk | with_reducible apply submitWr_memOk)

theorem execGrtNop_memOk : ∀ x0 x1 x2, memOk x2 → OutOk (execGrtNop x0 x1 x2) := by
  intros; unfold execGrtNop; repeat' (first | with_reducible assumption | with_reducible apply OutOk.mk | with_reducible apply thawed_memOk | with_reducible apply submitWr_memOk)

theorem execTriggerFire_memOk : ∀ x0 x1, memOk x1 → OutOk (execTriggerFire x0 x1) := by
  intros; unfold execTriggerFire; repeat' (first | with_reducible assumption | extract_lets | with_reducible apply OutOk.mk | with_reducible apply thawed_memOk | with_reducible apply startWr_memOk | with_reducible apply setWq_memOk | split)

theorem rxRefused_memOk : ∀ x0 x1 x2, memOk x2 → optOk (fun x => x) (rxRefused x0 x1 x2) := by
  intros; unfold rxRefused; repeat' (first | with_reducible assumption | intro _ | extract_lets | with_reducible apply optOk_none | with_reducible apply optOk_mk | with_reducible apply optOk_bind | with_reducible apply optOk_map | with_reducible apply optOk_orElse | with_reducible apply sendNak_memOk | with_reducible apply refusal_memOk | with_reducible apply nakNoConn_memOk | with_reducible apply bumpTr_memOk | with_reducible apply setConn_memOk | with_reducible apply sendAck_memOk | split | dsimp +zetaDelta only | (refine optOk_get (g := fun x => (x : State)) (by assumption) ?_))

theorem rxFail_memOk : ∀ x0 x1 x2 x3, memOk x3 → memOk (rxFail x0 x1 x2 x3) := by
  intros; unfold rxFail; repeat' (first | with_reducible assumption | with_reducible apply setConn_memOk | with_reducible apply bumpTr_memOk | with_reducible apply noteArrival_memOk | with_reducible apply releaseAll_memOk | with_reducible apply sendNak_memOk | split | dsimp +zetaDelta only)

theorem placeBytes_memOk : ∀ x0 x1 x2 x3, memOk x3 → optOk (fun x => x) (placeBytes x0 x1 x2 x3) := by
  intros; unfold placeBytes; repeat' (first | with_reducible assumption | with_reducible apply optOk_none | with_reducible apply optOk_mk | with_reducible apply dmaOut_memOk | with_reducible apply writeLegs_memOk | split)

theorem trackWrite_memOk : ∀ x0 x1 x2 x3, memOk x3 → memOk (trackWrite x0 x1 x2 x3) := by
  intros; unfold trackWrite; repeat' (first | with_reducible assumption | with_reducible apply useGrtKey_memOk | with_reducible apply setConn_memOk | with_reducible apply bump_memOk | with_reducible apply bumpTr_memOk | with_reducible apply sendNak_memOk | with_reducible apply noteArrival_memOk | with_reducible apply releaseAll_memOk | split | dsimp +zetaDelta only)

theorem rxWrite_memOk : ∀ x0 x1 x2 x3, memOk x3 → memOk (rxWrite x0 x1 x2 x3) := by
  intros; unfold rxWrite; repeat' (first | with_reducible assumption | intro _ | extract_lets | with_reducible apply rxRefused_memOk | with_reducible apply rxFail_memOk | with_reducible apply noteArrival_memOk | with_reducible apply setConn_memOk | with_reducible apply sendAck_memOk | with_reducible apply bumpTr_memOk | with_reducible apply sendNak_memOk | with_reducible apply placeBytes_memOk | with_reducible apply trackWrite_memOk | split | (refine optOk_get (g := fun x => (x : State)) (by assumption) ?_) | dsimp +zetaDelta only)

theorem execGrtRxWrite_memOk : ∀ x0 x1 x2 x3, memOk x3 → OutOk (execGrtRxWrite x0 x1 x2 x3) := by
  intros; unfold execGrtRxWrite; repeat' (first | with_reducible assumption | intro _ | extract_lets | with_reducible apply OutOk.mk | with_reducible apply thawed_memOk | with_reducible apply rxWrite_memOk | split | dsimp +zetaDelta only)

theorem rxReadReq_memOk : ∀ x0 x1 x2, memOk x2 → memOk (rxReadReq x0 x1 x2) := by
  intros; unfold rxReadReq; repeat' (first | with_reducible assumption | intro _ | extract_lets | with_reducible apply rxRefused_memOk | with_reducible apply rxFail_memOk | with_reducible apply noteArrival_memOk | with_reducible apply setConn_memOk | with_reducible apply sendNak_memOk | with_reducible apply bumpTr_memOk | with_reducible apply pumpConn_memOk | with_reducible apply releaseAll_memOk | split | dsimp +zetaDelta only | (refine optOk_get (g := fun x => (x : State)) (by assumption) ?_))

theorem execGrtRxReadReq_memOk : ∀ x0 x1 x2, memOk x2 → OutOk (execGrtRxReadReq x0 x1 x2) := by
  intros; unfold execGrtRxReadReq; repeat' (first | with_reducible assumption | intro _ | extract_lets | with_reducible apply OutOk.mk | with_reducible apply thawed_memOk | with_reducible apply rxReadReq_memOk | split | dsimp +zetaDelta only)

theorem rxReadResp_memOk : ∀ x0 x1 x2, memOk x2 → memOk (rxReadResp x0 x1 x2) := by
  intros; unfold rxReadResp; repeat' (first | with_reducible assumption | intro _ | extract_lets | with_reducible apply useGrtKey_memOk | with_reducible apply rxRefused_memOk | with_reducible apply setConn_memOk | with_reducible apply noteArrival_memOk | with_reducible apply dmaOut_memOk | with_reducible apply bump_memOk | with_reducible apply bumpTr_memOk | with_reducible apply updConn_memOk | with_reducible apply markDone_memOk | with_reducible apply pumpConn_memOk | split | dsimp +zetaDelta only | (refine optOk_get (g := fun x => (x : State)) (by assumption) ?_))

theorem execGrtRxReadResp_memOk : ∀ x0 x1 x2, memOk x2 → OutOk (execGrtRxReadResp x0 x1 x2) := by
  intros; unfold execGrtRxReadResp; repeat' (first | with_reducible assumption | intro _ | extract_lets | with_reducible apply OutOk.mk | with_reducible apply thawed_memOk | with_reducible apply rxReadResp_memOk | split | dsimp +zetaDelta only)

theorem pathSample_memOk : ∀ x0 x1 x2 x3, memOk x3 → memOk (pathSample x0 x1 x2 x3) := by
  intros; unfold pathSample; repeat' (first | with_reducible assumption | extract_lets | with_reducible apply setConn_memOk | with_reducible apply excludePath_memOk | split)

theorem rxAck_memOk : ∀ x0 x1, memOk x1 → memOk (rxAck x0 x1) := by
  intros; unfold rxAck; repeat' (first | with_reducible assumption | intro _ | with_reducible apply setConn_memOk | with_reducible apply pathSample_memOk | with_reducible apply ccAck_memOk | with_reducible apply excludePath_memOk | with_reducible apply markDone_memOk | with_reducible apply pumpConn_memOk | with_reducible apply memOk_foldl | split | dsimp +zetaDelta only)

theorem execGrtRxAck_memOk : ∀ x0 x1, memOk x1 → OutOk (execGrtRxAck x0 x1) := by
  intros; unfold execGrtRxAck; repeat' (first | with_reducible assumption | intro _ | extract_lets | with_reducible apply OutOk.mk | with_reducible apply thawed_memOk | with_reducible apply rxAck_memOk | split | dsimp +zetaDelta only)

theorem rxNak_memOk : ∀ x0 x1, memOk x1 → memOk (rxNak x0 x1) := by
  intros; unfold rxNak; repeat' (first | with_reducible assumption | extract_lets | with_reducible apply errorConn_memOk | with_reducible apply setConn_memOk | with_reducible apply pumpConn_memOk | with_reducible apply markDone_memOk | split)

theorem execGrtRxNak_memOk : ∀ x0 x1, memOk x1 → OutOk (execGrtRxNak x0 x1) := by
  intros; unfold execGrtRxNak; repeat' (first | with_reducible assumption | intro _ | extract_lets | with_reducible apply OutOk.mk | with_reducible apply thawed_memOk | with_reducible apply rxNak_memOk | split | dsimp +zetaDelta only)

theorem rxHello_memOk : ∀ x0 x1, memOk x1 → memOk (rxHello x0 x1) := by
  intros; unfold rxHello; repeat' (first | with_reducible assumption | extract_lets | with_reducible apply nakNoConn_memOk | with_reducible apply sendHello_memOk | with_reducible apply errorConn_memOk | with_reducible apply sendNak_memOk | with_reducible apply pumpConn_memOk | with_reducible apply setConn_memOk | split)

theorem execGrtRxHello_memOk : ∀ x0 x1, memOk x1 → OutOk (execGrtRxHello x0 x1) := by
  intros; unfold execGrtRxHello; repeat' (first | with_reducible assumption | intro _ | extract_lets | with_reducible apply OutOk.mk | with_reducible apply thawed_memOk | with_reducible apply rxHello_memOk | split | dsimp +zetaDelta only)

theorem execGrtRxClose_memOk : ∀ x0 x1, memOk x1 → OutOk (execGrtRxClose x0 x1) := by
  intros; unfold execGrtRxClose; repeat' (first | with_reducible assumption | intro _ | extract_lets | with_reducible apply OutOk.mk | with_reducible apply thawed_memOk | with_reducible apply nakNoConn_memOk | split | dsimp +zetaDelta only)

theorem execHelloRetry_memOk : ∀ x0 x1, memOk x1 → OutOk (execHelloRetry x0 x1) := by
  intros; unfold execHelloRetry; repeat' (first | with_reducible assumption | with_reducible apply OutOk.mk | with_reducible apply thawed_memOk | with_reducible apply sendHello_memOk | split)

theorem execConnectingTimeout_memOk : ∀ x0 x1, memOk x1 → OutOk (execConnectingTimeout x0 x1) := by
  intros; unfold execConnectingTimeout; repeat' (first | with_reducible assumption | with_reducible apply OutOk.mk | with_reducible apply thawed_memOk | with_reducible apply errorConn_memOk | split)

theorem execAckDelayExpiry_memOk : ∀ x0 x1, memOk x1 → OutOk (execAckDelayExpiry x0 x1) := by
  intros; unfold execAckDelayExpiry; repeat' (first | with_reducible assumption | with_reducible apply OutOk.mk | with_reducible apply thawed_memOk | with_reducible apply sendAck_memOk | split)

theorem execRetryAfterExpiry_memOk : ∀ x0 x1 x2, memOk x2 → OutOk (execRetryAfterExpiry x0 x1 x2) := by
  intros; unfold execRetryAfterExpiry; repeat' (first | with_reducible assumption | with_reducible apply OutOk.mk | with_reducible apply thawed_memOk | with_reducible apply pumpConn_memOk | with_reducible apply updConn_memOk)

theorem execPathExclusionExpiry_memOk : ∀ x0 x1 x2, memOk x2 → OutOk (execPathExclusionExpiry x0 x1 x2) := by
  intros; unfold execPathExclusionExpiry; repeat' (first | with_reducible assumption | with_reducible apply OutOk.mk | with_reducible apply thawed_memOk | with_reducible apply pumpConn_memOk | with_reducible apply setConn_memOk | split)

theorem execPersistDurable_memOk : ∀ x0 x1 x2 x3, memOk x3 → OutOk (execPersistDurable x0 x1 x2 x3) := by
  intros; unfold execPersistDurable; repeat' (first | with_reducible assumption | with_reducible apply OutOk.mk | with_reducible apply thawed_memOk | with_reducible apply setConn_memOk | with_reducible apply sendNak_memOk | with_reducible apply releaseAll_memOk | with_reducible apply updConn_memOk | split | dsimp +zetaDelta only)

theorem execRocev2Cnp_memOk : ∀ x0 x1, memOk x1 → OutOk (execRocev2Cnp x0 x1) := by
  intros; unfold execRocev2Cnp; repeat' (first | with_reducible assumption | with_reducible apply OutOk.mk | with_reducible apply thawed_memOk | with_reducible apply setCwnd_memOk | with_reducible apply setConn_memOk | split)

end Sys2Proof.Machine
end

