-- ==== Sys2Proof/Laws/MemOkThreadMem.lean ====
section
/-! SUPPORT. Every operation of Machine/ThreadMem.lean keeps memory in its canonical form. -/

namespace Sys2Proof.Machine

open Sys2Proof

theorem readLine_memOk : ∀ x0 x1 x2, memOk x2 → memOk (readLine x0 x1 x2).2 := by
  intros; unfold readLine; repeat' (first | with_reducible assumption | with_reducible apply setL1_memOk | with_reducible apply drawn_memOk | split)

theorem readDpas_memOk : ∀ x0 x1 x2, memOk x2 → memOk (readDpas x0 x1 x2).2 := by
  intros; unfold readDpas; repeat' (first | with_reducible assumption | intro _ | with_reducible apply readLine_memOk | with_reducible apply memOk_foldl_snd)

theorem l1Write_memOk : ∀ x0 x1 x2, memOk x2 → memOk (l1Write x0 x1 x2) := by
  intros; unfold l1Write; repeat' (first | with_reducible assumption | with_reducible apply setL1_memOk | split)

theorem scratchParity_memOk : ∀ x0 x1 x2, memOk x2 → memOk (scratchParity x0 x1 x2) := by
  intros; unfold scratchParity; repeat' (first | with_reducible assumption | extract_lets | with_reducible apply recordCon_memOk | with_reducible apply State_setMem_memOk | (with_reducible show Memory.wf _ = true; first | refine memOk_cells ?_ | (refine Memory.wf_memPutBytes _ _ ?_) | (refine Memory.wf_memZero _ _ ?_) | (refine Memory.wf_memPut _ _ ?_) | (refine Memory.wf_memCopy _ _ _ ?_) | (refine Memory.wf_filter _ ?_) | exact Memory.wf_nil) | split)

theorem raiseFlags_memOk : ∀ x0 x1 x2, memOk x2 → memOk (raiseFlags x0 x1 x2) := by
  intros; unfold raiseFlags; repeat' (first | with_reducible assumption | intro _ | extract_lets | with_reducible apply updProg_memOk | with_reducible apply State_setTab_memOk | split | dsimp +zetaDelta only)

theorem touchRows_memOk : ∀ x0 x1 x2 x3 x4, memOk x4 → memOk (touchRows x0 x1 x2 x3 x4) := by
  intros; unfold touchRows; repeat' (first | with_reducible assumption | intro _ | extract_lets | with_reducible apply raiseFlags_memOk | with_reducible apply heatUp_memOk | with_reducible apply memOk_foldl | with_reducible apply memOk_foldl_fst | with_reducible apply memOk_foldl_snd | split | dsimp +zetaDelta only)

theorem writeLost_memOk : ∀ x0 x1, memOk x1 → memOk (writeLost x0 x1) := by
  intros; unfold writeLost; repeat' (first | with_reducible assumption | intro _ | extract_lets | with_reducible apply bump_memOk | split | dsimp +zetaDelta only)

theorem memFaults_memOk : ∀ x0 x1 x2, memOk x2 → memOk (memFaults x0 x1 x2) := by
  intros; unfold memFaults; repeat' (first | with_reducible assumption | intro _ | with_reducible apply scratchParity_memOk | with_reducible apply lineFaults_memOk | with_reducible apply memOk_foldl)

theorem storeFaults_memOk : ∀ x0 x1 x2 x3 x4 x5, memOk x5 → memOk (storeFaults x0 x1 x2 x3 x4 x5) := by
  intros; unfold storeFaults; repeat' (first | with_reducible assumption | intro _ | extract_lets | with_reducible apply memFaults_memOk | with_reducible apply writeLost_memOk | split | dsimp +zetaDelta only)

theorem loadMem_memOk : ∀ x0 x1 x2 x3 x4 x5, memOk x5 → Acc.Ok (loadMem x0 x1 x2 x3 x4 x5) := by
  intros; unfold loadMem; repeat' (first | with_reducible assumption | intro _ | extract_lets | with_reducible apply Acc.ok_ok | with_reducible apply Acc.ok_fault | with_reducible apply Acc.ok_wait | with_reducible apply readDpas_memOk | with_reducible apply touchRows_memOk | split | dsimp +zetaDelta only | (refine Acc.get_ok (by assumption) ?_) | (refine Acc.get_fault (by assumption) ?_) | (refine Acc.get_wait (by assumption) ?_) | (refine memOk_snd (by assumption) ?_))

theorem tableReady_noteSpill_memOk : ∀ x0 x1, memOk x1 → memOk (tableReady.noteSpill x0 x1) := by
  intros; unfold tableReady.noteSpill; repeat' (first | with_reducible assumption | intro _ | extract_lets | with_reducible apply raiseFlags_memOk | with_reducible apply State_setCourse_memOk | split | dsimp +zetaDelta only)

theorem tableReady_memOk : ∀ x0 x1 x2 x3 x4, memOk x4 → Acc.Ok (tableReady x0 x1 x2 x3 x4) := by
  intro x0 x1 x2 x3 x4 h; unfold tableReady; repeat' (first | with_reducible assumption | with_reducible apply Acc.ok_ok | with_reducible apply Acc.ok_fault | with_reducible apply Acc.ok_wait | with_reducible apply touchRows_memOk | with_reducible apply tableReady_noteSpill_memOk | split | exact memOk_fst (by assumption) (captureBefore_memOk _ _ _ _ h))

theorem storeTable_memOk : ∀ x0 x1 x2 x3 x4 x5, memOk x5 → Acc.Ok (storeTable x0 x1 x2 x3 x4 x5) := by
  intros; unfold storeTable; repeat' (first | with_reducible assumption | intro _ | extract_lets | with_reducible apply Acc.ok_ok | with_reducible apply Acc.ok_fault | with_reducible apply Acc.ok_wait | with_reducible apply tableReady_memOk | with_reducible apply l1Write_memOk | with_reducible apply writeBlk_memOk | with_reducible apply noteStep_memOk | with_reducible apply touchRows_memOk | with_reducible apply memOk_foldl | with_reducible apply memOk_foldl_fst | with_reducible apply memOk_foldl_snd | split | dsimp +zetaDelta only | (refine Acc.get_ok (by assumption) ?_) | (refine Acc.get_fault (by assumption) ?_) | (refine Acc.get_wait (by assumption) ?_))

theorem storeScratch_memOk : ∀ x0 x1 x2, memOk x2 → memOk (storeScratch x0 x1 x2) := by
  intros; unfold storeScratch; repeat' (first | with_reducible assumption | with_reducible apply setCells_memOk | with_reducible apply State_setMem_memOk | (with_reducible show Memory.wf _ = true; first | refine memOk_cells ?_ | (refine Memory.wf_memPutBytes _ _ ?_) | (refine Memory.wf_memZero _ _ ?_) | (refine Memory.wf_memPut _ _ ?_) | (refine Memory.wf_memCopy _ _ _ ?_) | (refine Memory.wf_filter _ ?_) | exact Memory.wf_nil))

theorem storeMem_memOk : ∀ x0 x1 x2 x3 x4, memOk x4 → Acc.Ok (storeMem x0 x1 x2 x3 x4) := by
  intros; unfold storeMem; repeat' (first | with_reducible assumption | intro _ | extract_lets | with_reducible apply Acc.ok_ok | with_reducible apply Acc.ok_fault | with_reducible apply Acc.ok_wait | with_reducible apply writeLost_memOk | with_reducible apply storeScratch_memOk | with_reducible apply storeTable_memOk | with_reducible apply dmaOut_memOk | split | dsimp +zetaDelta only | (refine Acc.get_ok (by assumption) ?_) | (refine Acc.get_fault (by assumption) ?_) | (refine Acc.get_wait (by assumption) ?_))

theorem atomicMem_memOk : ∀ x0 x1 x2 x3 x4, memOk x4 → Acc.Ok (atomicMem x0 x1 x2 x3 x4) := by
  intros; unfold atomicMem; repeat' (first | with_reducible assumption | intro _ | extract_lets | with_reducible apply Acc.ok_ok | with_reducible apply Acc.ok_fault | with_reducible apply Acc.ok_wait | with_reducible apply writeLost_memOk | with_reducible apply storeScratch_memOk | with_reducible apply touchRows_memOk | with_reducible apply l1Drop_memOk | with_reducible apply storeTable_memOk | with_reducible apply memOk_foldl | with_reducible apply memOk_foldl_fst | with_reducible apply memOk_foldl_snd | split | dsimp +zetaDelta only | (refine Acc.get_ok (by assumption) ?_) | (refine Acc.get_fault (by assumption) ?_) | (refine Acc.get_wait (by assumption) ?_))

theorem atomicReady_memOk : ∀ x0 x1 x2 x3, memOk x3 → Acc.Ok (atomicReady x0 x1 x2 x3) := by
  intros; unfold atomicReady; repeat' (first | with_reducible assumption | intro _ | extract_lets | with_reducible apply Acc.ok_ok | with_reducible apply Acc.ok_fault | with_reducible apply Acc.ok_wait | with_reducible apply tableReady_memOk | split | dsimp +zetaDelta only | (refine Acc.get_ok (by assumption) ?_) | (refine Acc.get_fault (by assumption) ?_) | (refine Acc.get_wait (by assumption) ?_))

end Sys2Proof.Machine
end

