-- ==== Sys2Proof/Laws/MemOkThreads.lean ====
section
/-! SUPPORT. Every operation of Machine/Threads.lean keeps memory in its canonical form. -/

namespace Sys2Proof.Machine

open Sys2Proof

theorem rowUndone_memOk : ∀ x0 x1 x2 x3, memOk x3 → memOk (rowUndone x0 x1 x2 x3) := by
  intros; unfold rowUndone; repeat' (first | with_reducible assumption | intro _ | extract_lets | with_reducible apply writeRow_memOk | with_reducible apply memOk_foldl | with_reducible apply memOk_foldl_fst | with_reducible apply memOk_foldl_snd | split | dsimp +zetaDelta only)

theorem jobDone_memOk : ∀ x0 x1, memOk x1 → memOk (jobDone x0 x1) := by
  intros; unfold jobDone; repeat' (first | with_reducible assumption | intro _ | extract_lets | with_reducible apply rowUndone_memOk | with_reducible apply State_setMason_memOk | with_reducible apply wroteRegions_memOk | with_reducible apply countUpdate_memOk | with_reducible apply kernelComplete_memOk | with_reducible apply gotIndex_memOk | with_reducible apply sendDomain_memOk | with_reducible apply State_setTab_memOk | split | dsimp +zetaDelta only)

theorem itemsEnd_memOk : ∀ x0 x1 x2 x3 x4, memOk x4 → memOk (itemsEnd x0 x1 x2 x3 x4) := by
  intros; unfold itemsEnd; repeat' (first | with_reducible assumption | extract_lets | with_reducible apply updJob_memOk | with_reducible apply jobDone_memOk | split)

theorem endItem_memOk : ∀ x0 x1 x2, memOk x2 → memOk (endItem x0 x1 x2) := by
  intros; unfold endItem; repeat' (first | with_reducible assumption | with_reducible apply State_setMason_memOk | with_reducible apply settle_memOk | with_reducible apply itemsEnd_memOk)

theorem slotUsed_memOk : ∀ x0 x1 x2 x3, memOk x3 → memOk (slotUsed x0 x1 x2 x3) := by
  intros; unfold slotUsed; repeat' (first | with_reducible assumption | intro _ | extract_lets | with_reducible apply State_setMason_memOk | split | dsimp +zetaDelta only)

theorem issueIn_memOk : ∀ x0 x1 x2 x3 x4, (∀ c s, memOk s → Flow.Ok (x3 c s)) → memOk x4 → memOk (issueIn x0 x1 x2 x3 x4) := by
  intro x0 x1 x2 x3 x4 hh h4; unfold issueIn; repeat' (first | with_reducible assumption | with_reducible apply endItem_memOk | with_reducible apply setThread_memOk | with_reducible apply settle_memOk | with_reducible apply slotUsed_memOk | split | exact Flow.get_next (by assumption) (hh _ _ h4) | exact Flow.get_jump (by assumption) (hh _ _ h4) | exact Flow.get_keep (by assumption) (hh _ _ h4) | exact Flow.get_halt (by assumption) (hh _ _ h4) | exact Flow.get_fault (by assumption) (hh _ _ h4))

theorem issue_memOk : ∀ x0 x1 x2 x3, (∀ c s, memOk s → Flow.Ok (x2 c s)) → memOk x3 → memOk (issue x0 x1 x2 x3) :=
  fun _ _ _ _ hh h => issueIn_memOk _ _ _ _ _ hh h

theorem issueV_memOk : ∀ x0 x1 x2 x3, (∀ c s, memOk s → Flow.Ok (x2 c s)) → memOk x3 → memOk (issueV x0 x1 x2 x3) :=
  fun _ _ _ _ hh h => issueIn_memOk _ _ _ _ _ hh h

theorem orIllegal_memOk : ∀ x0 x1 x2, memOk x1 → Flow.Ok x2 → Flow.Ok (orIllegal x0 x1 x2) := by
  intros; unfold orIllegal; repeat' (first | with_reducible assumption | with_reducible apply Flow.ok_fault | split)

theorem pureOp_memOk : ∀ x0 x1 x2 x3, memOk x3 → memOk (pureOp x0 x1 x2 x3) := by
  intros; unfold pureOp; repeat' (first | with_reducible assumption | intro _ | with_reducible apply Flow.ok_next | with_reducible apply issue_memOk)

theorem pureOpV_memOk : ∀ x0 x1 x2 x3, memOk x3 → memOk (pureOpV x0 x1 x2 x3) := by
  intros; unfold pureOpV; repeat' (first | with_reducible assumption | intro _ | extract_lets | with_reducible apply Flow.ok_next | with_reducible apply Flow.ok_jump | with_reducible apply Flow.ok_keep | with_reducible apply Flow.ok_halt | with_reducible apply Flow.ok_fault | with_reducible apply issueV_memOk | split | dsimp +zetaDelta only)

end Sys2Proof.Machine
end

