-- ==== Sys2Proof/Laws/MemOkMasonCmds.lean ====
section
/-! SUPPORT. Every operation of Machine/MasonCmds.lean keeps memory in its canonical form. -/

namespace Sys2Proof.Machine

open Sys2Proof

theorem writeCode_memOk : ∀ x0 x1 x2, memOk x2 → memOk (writeCode x0 x1 x2) := by
  intros; unfold writeCode; repeat' (first | with_reducible assumption | intro _ | with_reducible apply writeFresh_memOk | with_reducible apply memOk_foldl)

theorem placeKernel_memOk : ∀ x0 x1 x2 x3, memOk x3 → optOk (fun x => x.2) (placeKernel x0 x1 x2 x3) := by
  intros; unfold placeKernel; repeat' (first | with_reducible assumption | intro _ | extract_lets | with_reducible apply optOk_none | with_reducible apply optOk_map | with_reducible apply writeCode_memOk | with_reducible apply State_setMason_memOk | with_reducible apply takeUseFrames_memOk | split | (refine optOk_get2 (by assumption) ?_))

theorem moveThread_memOk : ∀ x0 x1 x2, memOk x2 → memOk (moveThread x0 x1 x2) := by
  intros; unfold moveThread; repeat' (first | with_reducible assumption | intro _ | extract_lets | with_reducible apply l1Clear_memOk | with_reducible apply setThread_memOk | with_reducible apply State_setMason_memOk | split | dsimp +zetaDelta only)

theorem abandonCore_memOk : ∀ x0 x1, memOk x1 → memOk (abandonCore x0 x1) := by
  intros; unfold abandonCore; repeat' (first | with_reducible assumption | intro _ | extract_lets | with_reducible apply State_setMason_memOk | with_reducible apply zeroScratch_memOk | with_reducible apply moveThread_memOk | with_reducible apply memOk_foldl | with_reducible apply memOk_foldl_fst | with_reducible apply memOk_foldl_snd | split | dsimp +zetaDelta only)

theorem coreSafe_memOk : ∀ x0 x1 x2, memOk x2 → memOk (coreSafe x0 x1 x2) := by
  intros; unfold coreSafe; repeat' (first | with_reducible assumption | intro _ | extract_lets | with_reducible apply State_setMason_memOk | with_reducible apply l1Clear_memOk | with_reducible apply settle_memOk | with_reducible apply logSpare_memOk | with_reducible apply ackSpare_memOk | with_reducible apply setUnit_memOk | with_reducible apply logPolicy_memOk | with_reducible apply abandonCore_memOk | split | dsimp +zetaDelta only)

theorem spareFirst_memOk : ∀ x0 x1, memOk x1 → memOk (spareFirst x0 x1) := by
  intros; unfold spareFirst; repeat' (first | with_reducible assumption | intro _ | extract_lets | with_reducible apply coreSafe_memOk | with_reducible apply memOk_foldl | with_reducible apply memOk_foldl_fst | with_reducible apply memOk_foldl_snd | split | dsimp +zetaDelta only)

theorem hKernelLoad_memOk : ∀ x0 x1, memOk x1 → Res.Ok (hKernelLoad x0 x1) := by
  intros; unfold hKernelLoad; repeat' (first | with_reducible assumption | intro _ | extract_lets | with_reducible apply Res.ok_reply | with_reducible apply Res.ok_later | with_reducible apply memOk_getD | with_reducible apply optOk_map | with_reducible apply optOk_bind | with_reducible apply checked_memOk | with_reducible apply placeKernel_memOk | with_reducible apply spareFirst_memOk | with_reducible apply Res_rej_memOk | with_reducible apply Res_ok_memOk | split | dsimp +zetaDelta only | (refine Res.get_reply (by assumption) ?_) | (refine Res.get_later (by assumption) ?_) | (refine optOk_get2 (by assumption) ?_))

theorem endUnstarted_memOk : ∀ x0 x1 x2, memOk x2 → memOk (endUnstarted x0 x1 x2) := by
  intros; unfold endUnstarted; repeat' (first | with_reducible assumption | intro _ | extract_lets | with_reducible apply itemsEnd_memOk | with_reducible apply updJob_memOk | with_reducible apply memOk_foldl | with_reducible apply memOk_foldl_fst | with_reducible apply memOk_foldl_snd | split | dsimp +zetaDelta only)

theorem endWaiting_memOk : ∀ x0 x1, memOk x1 → memOk (endWaiting x0 x1) := by
  intros; unfold endWaiting; repeat' (first | with_reducible assumption | intro _ | with_reducible apply postCqe_memOk | with_reducible apply updCqp_memOk | with_reducible apply memOk_foldl)

theorem stopKernel_memOk : ∀ x0 x1, memOk x1 → memOk (stopKernel x0 x1) := by
  intros; unfold stopKernel; repeat' (first | with_reducible assumption | intro _ | extract_lets | with_reducible apply endWaiting_memOk | with_reducible apply endUnstarted_memOk | with_reducible apply State_setTab_memOk | with_reducible apply State_setMason_memOk | split | dsimp +zetaDelta only)

theorem endRunning_memOk : ∀ x0 x1 x2, memOk x2 → memOk (endRunning x0 x1 x2) := by
  intros; unfold endRunning; repeat' (first | with_reducible assumption | intro _ | extract_lets | with_reducible apply itemsEnd_memOk | with_reducible apply State_setMason_memOk | with_reducible apply memOk_foldl | with_reducible apply memOk_foldl_fst | with_reducible apply memOk_foldl_snd | split | dsimp +zetaDelta only)

theorem killKernel_memOk : ∀ x0 x1, memOk x1 → memOk (killKernel x0 x1) := by
  intros; unfold killKernel; repeat' (first | with_reducible assumption | intro _ | extract_lets | with_reducible apply releaseKernel_memOk | with_reducible apply endRunning_memOk | with_reducible apply stopKernel_memOk | with_reducible apply spareFirst_memOk | split | dsimp +zetaDelta only)

theorem endDescItems_memOk : ∀ x0 x1, memOk x1 → memOk (endDescItems x0 x1) :=
  fun _ _ h => endRunning_memOk _ _ _ (endUnstarted_memOk _ _ _ h)

theorem hKernelUnload_memOk : ∀ x0 x1, memOk x1 → Res.Ok (hKernelUnload x0 x1) := by
  intros; unfold hKernelUnload; repeat' (first | with_reducible assumption | intro _ | extract_lets | with_reducible apply Res.ok_reply | with_reducible apply Res.ok_later | with_reducible apply Res_rej_memOk | with_reducible apply stopKernel_memOk | with_reducible apply spareFirst_memOk | with_reducible apply addWait_memOk | with_reducible apply Res_ok_memOk | with_reducible apply settle_memOk | with_reducible apply releaseKernel_memOk | split | dsimp +zetaDelta only | (refine Res.get_reply (by assumption) ?_) | (refine Res.get_later (by assumption) ?_))

theorem execKernel_memOk : ∀ x0 x1 x2 x3, memOk x3 → OutOk (execKernel x0 x1 x2 x3) := by
  intros; unfold execKernel; repeat' (first | with_reducible assumption | with_reducible apply OutOk.mk | with_reducible apply thawed_memOk | with_reducible apply submit_memOk)

theorem stopCore_memOk : ∀ x0 x1 x2, memOk x2 → memOk (stopCore x0 x1 x2) := by
  intros; unfold stopCore; repeat' (first | with_reducible assumption | with_reducible apply State_setMason_memOk | split)

theorem execResidueMismatch_memOk : ∀ x0 x1 x2, memOk x2 → OutOk (execResidueMismatch x0 x1 x2) := by
  intros; unfold execResidueMismatch; repeat' (first | with_reducible assumption | with_reducible apply sparingCon_memOk | intro _ | extract_lets | with_reducible apply OutOk.mk | with_reducible apply slotUsed_memOk | with_reducible apply stopCore_memOk | with_reducible apply recordCon_memOk | with_reducible apply bump_memOk | with_reducible apply recordCor_memOk | split | dsimp +zetaDelta only)

theorem execRegisterParityFault_memOk : ∀ x0 x1, memOk x1 → OutOk (execRegisterParityFault x0 x1) := by
  intros; unfold execRegisterParityFault; repeat' (first | with_reducible assumption | with_reducible apply OutOk.mk | with_reducible apply State_setMason_memOk | with_reducible apply stopCore_memOk | with_reducible apply endItem_memOk | split | dsimp +zetaDelta only)

theorem execL1ParityRefetch_memOk : ∀ x0 x1 x2 x3 x4, memOk x4 → OutOk (execL1ParityRefetch x0 x1 x2 x3 x4) := by
  intros; unfold execL1ParityRefetch; repeat' (first | with_reducible assumption | with_reducible apply OutOk.mk | with_reducible apply recordCor_memOk | with_reducible apply bump_memOk | with_reducible apply drawn_memOk | with_reducible apply l1Drop_memOk | split)

theorem clSpareReq_memOk : ∀ x0 x1 x2 x3, memOk x3 → memOk (clSpareReq x0 x1 x2 x3) := by
  intros; unfold clSpareReq; repeat' (first | with_reducible assumption | intro _ | with_reducible apply countUnmapped_memOk | with_reducible apply stopCore_memOk | with_reducible apply memOk_foldl | split)

theorem execClSpareReq_memOk : ∀ x0 x1 x2 x3, memOk x3 → OutOk (execClSpareReq x0 x1 x2 x3) := by
  intros; unfold execClSpareReq; repeat' (first | with_reducible assumption | with_reducible apply OutOk.mk | with_reducible apply clSpareReq_memOk)

theorem execCoreSafePoint_memOk : ∀ x0 x1 x2, memOk x2 → OutOk (execCoreSafePoint x0 x1 x2) := by
  intros; unfold execCoreSafePoint; repeat' (first | with_reducible assumption | intro _ | extract_lets | with_reducible apply OutOk.mk | with_reducible apply coreSafe_memOk | split | dsimp +zetaDelta only)

theorem spareOutCluster_memOk : ∀ x0 x1 x2, memOk x2 → memOk (spareOutCluster x0 x1 x2) := by
  intros; unfold spareOutCluster; repeat' (first | with_reducible assumption | intro _ | extract_lets | with_reducible apply setUnit_memOk | with_reducible apply State_setMason_memOk | with_reducible apply recordCon_memOk | with_reducible apply State_setMem_memOk | with_reducible apply settle_memOk | with_reducible apply logSpare_memOk | with_reducible apply ackSpare_memOk | with_reducible apply memOk_foldl | with_reducible apply memOk_foldl_fst | with_reducible apply memOk_foldl_snd | (with_reducible show Memory.wf _ = true; first | refine memOk_cells ?_ | (refine Memory.wf_memPutBytes _ _ ?_) | (refine Memory.wf_memZero _ _ ?_) | (refine Memory.wf_memPut _ _ ?_) | (refine Memory.wf_memCopy _ _ _ ?_) | (refine Memory.wf_filter _ ?_) | exact Memory.wf_nil) | split | dsimp +zetaDelta only)

theorem execClusterSpareOut_memOk : ∀ x0 x1 x2, memOk x2 → OutOk (execClusterSpareOut x0 x1 x2) := by
  intros; unfold execClusterSpareOut; repeat' (first | with_reducible assumption | with_reducible apply OutOk.mk | with_reducible apply spareOutCluster_memOk)

end Sys2Proof.Machine
end

