-- ==== Sys2Proof/Laws/MemOkSecurity.lean ====
section
/-! SUPPORT. Every operation of Machine/Security.lean keeps memory in its canonical form. -/

namespace Sys2Proof.Machine

open Sys2Proof

theorem hSecurityStatus_memOk : ∀ x0 x1, memOk x1 → Res.Ok (hSecurityStatus x0 x1) := by
  intros; unfold hSecurityStatus; repeat' (first | with_reducible assumption | with_reducible apply drawn_memOk | with_reducible apply State_setSec_memOk | with_reducible apply Res_ok_memOk | split | dsimp +zetaDelta only)

theorem raiseAlarm_memOk : ∀ x0 x1, memOk x1 → memOk (raiseAlarm x0 x1) := by
  intros; unfold raiseAlarm; repeat' (first | with_reducible assumption | with_reducible apply stoSettle_memOk | with_reducible apply alarmCore_memOk)

theorem execAlarm_memOk : ∀ x0 x1, memOk x1 → OutOk (execAlarm x0 x1) := by
  intros; unfold execAlarm; repeat' (first | with_reducible assumption | with_reducible apply OutOk.mk | with_reducible apply raiseAlarm_memOk | split)

theorem setTamper_memOk : ∀ x0 x1, memOk x1 → memOk (setTamper x0 x1) := by
  intros; unfold setTamper; repeat' (first | with_reducible assumption | extract_lets | with_reducible apply State_setPins_memOk | with_reducible apply raiseAlarm_memOk | split)

theorem execTamperN_memOk : ∀ x0 x1, memOk x1 → OutOk (execTamperN x0 x1) := by
  intros; unfold execTamperN; repeat' (first | with_reducible assumption | with_reducible apply OutOk.mk | with_reducible apply setTamper_memOk)

theorem execSealedCopiesErased_memOk : ∀ x0, memOk x0 → OutOk (execSealedCopiesErased x0) := by
  intros; unfold execSealedCopiesErased; repeat' (first | with_reducible assumption | with_reducible apply OutOk.mk | with_reducible apply emit_memOk | with_reducible apply State_setSec_memOk | split)

theorem deriveIdentity_memOk : ∀ x0, memOk x0 → memOk (deriveIdentity x0) := by
  intros; unfold deriveIdentity; repeat' (first | with_reducible assumption | intro _ | extract_lets | with_reducible apply State_setSec_memOk | split | dsimp +zetaDelta only)

theorem cxAlarmClear_memOk : ∀ x0 x1 x2, memOk x2 → memOk (cxAlarmClear x0 x1 x2) := by
  intros; unfold cxAlarmClear; repeat' (first | with_reducible assumption | with_reducible apply countUnmapped_memOk | with_reducible apply deriveIdentity_memOk | with_reducible apply State_setSec_memOk | split)

theorem execCxAlarmClear_memOk : ∀ x0 x1 x2, memOk x2 → OutOk (execCxAlarmClear x0 x1 x2) := by
  intros; unfold execCxAlarmClear; repeat' (first | with_reducible assumption | with_reducible apply OutOk.mk | with_reducible apply cxAlarmClear_memOk)

theorem storeNewKey_memOk : ∀ x0 x1 x2 x3 x4 x5, memOk x5 → memOk (storeNewKey x0 x1 x2 x3 x4 x5) := by
  intros; unfold storeNewKey; repeat' (first | with_reducible assumption | with_reducible apply drawn_memOk | with_reducible apply State_setSec_memOk | with_reducible apply State_setSto_memOk | with_reducible apply emit_memOk)

theorem hKeyProvision_memOk : ∀ x0 x1, memOk x1 → Res.Ok (hKeyProvision x0 x1) := by
  intros; unfold hKeyProvision; repeat' (first | with_reducible assumption | intro _ | extract_lets | with_reducible apply checked_memOk | with_reducible apply Res_rej_memOk | with_reducible apply Res_ok_memOk | with_reducible apply stoSettle_memOk | with_reducible apply storeNewKey_memOk | split | dsimp +zetaDelta only)

theorem hKeyErase_memOk : ∀ x0 x1, memOk x1 → Res.Ok (hKeyErase x0 x1) := by
  intros; unfold hKeyErase; repeat' (first | with_reducible assumption | intro _ | extract_lets | with_reducible apply Res.ok_reply | with_reducible apply Res.ok_later | with_reducible apply Res_rej_memOk | with_reducible apply clearKey_memOk | with_reducible apply emit_memOk | with_reducible apply State_setSec_memOk | with_reducible apply stoSettle_memOk | with_reducible apply abortKeyless_memOk | with_reducible apply Res_ok_memOk | split | dsimp +zetaDelta only | (refine Res.get_reply (by assumption) ?_) | (refine Res.get_later (by assumption) ?_))

theorem zeroCustody_memOk : ∀ x0, memOk x0 → memOk (zeroCustody x0) := by
  intros; unfold zeroCustody; repeat' (first | with_reducible apply State_setMem_memOk | (with_reducible show Memory.wf _ = true; first | refine memOk_cells ?_ | (refine Memory.wf_memPutBytes _ _ ?_) | (refine Memory.wf_memZero _ _ ?_) | (refine Memory.wf_memPut _ _ ?_) | (refine Memory.wf_memCopy _ _ _ ?_) | (refine Memory.wf_filter _ ?_) | exact Memory.wf_nil))

theorem hLifecycleTransition_memOk : ∀ x0 x1, memOk x1 → Res.Ok (hLifecycleTransition x0 x1) := by
  intros; unfold hLifecycleTransition; repeat' (first | with_reducible assumption | with_reducible apply Res.ok_reply | with_reducible apply State_setSec_memOk | with_reducible apply checked_memOk | with_reducible apply emit_memOk | with_reducible apply wipeKeys_memOk | with_reducible apply zeroCustody_memOk | with_reducible apply Res_ok_memOk | with_reducible apply stoSettle_memOk | with_reducible apply deriveIdentity_memOk | split | dsimp +zetaDelta only)

theorem hGetCertChain_memOk : ∀ x0 x1, memOk x1 → Res.Ok (hGetCertChain x0 x1) := by
  intros; unfold hGetCertChain; repeat' (first | with_reducible assumption | extract_lets | with_reducible apply Res_rej_memOk | with_reducible apply Res_ok_memOk | split)

theorem respond_memOk : ∀ x0 x1 x2 x3 x4 x5, memOk x5 → memOk (respond x0 x1 x2 x3 x4 x5) := by
  intros; unfold respond; repeat' (first | with_reducible assumption | with_reducible apply emit_memOk)

theorem spdmError_memOk : ∀ x0 x1 x2 x3, memOk x3 → memOk (spdmError x0 x1 x2 x3) := by
  intros; unfold spdmError; repeat' (first | with_reducible assumption | with_reducible apply respond_memOk)

theorem setSpdm_memOk : ∀ x0 x1, memOk x1 → memOk (setSpdm x0 x1) := by
  intros; unfold setSpdm; repeat' (first | with_reducible assumption | with_reducible apply State_setSec_memOk)

theorem spdmServed_memOk : ∀ x0 x1 x2 x3, memOk x2 → memOk x3 → memOk (spdmServed x0 x1 x2 x3) := by
  intros; unfold spdmServed; repeat' (first | with_reducible assumption | with_reducible apply spdmError_memOk | split)

theorem spdmAt_memOk : ∀ x0 x1 x2 x3 x4, memOk x3 → memOk x4 → memOk (spdmAt x0 x1 x2 x3 x4) := by
  intros; unfold spdmAt; repeat' (first | with_reducible assumption | with_reducible apply spdmServed_memOk | with_reducible apply spdmError_memOk | split)

theorem spdmSigned_memOk : ∀ x0 x1 x2 x3 x4, memOk x3 → memOk x4 → memOk (spdmSigned x0 x1 x2 x3 x4) := by
  intros; unfold spdmSigned; repeat' (first | with_reducible assumption | with_reducible apply spdmAt_memOk | with_reducible apply spdmError_memOk | split)

theorem execSpdmGetVersion_memOk : ∀ x0 x1 x2, memOk x2 → OutOk (execSpdmGetVersion x0 x1 x2) := by
  intros; unfold execSpdmGetVersion; repeat' (first | with_reducible assumption | with_reducible apply OutOk.mk | with_reducible apply spdmServed_memOk | with_reducible apply respond_memOk | with_reducible apply setSpdm_memOk)

theorem execSpdmGetCapabilities_memOk : ∀ x0 x1 x2 x3, memOk x3 → OutOk (execSpdmGetCapabilities x0 x1 x2 x3) := by
  intros; unfold execSpdmGetCapabilities; repeat' (first | with_reducible assumption | with_reducible apply OutOk.mk | with_reducible apply spdmAt_memOk | with_reducible apply respond_memOk | with_reducible apply drawn_memOk | with_reducible apply setSpdm_memOk | with_reducible apply spdmError_memOk | split)

theorem execSpdmNegotiateAlgorithms_memOk : ∀ x0 x1 x2 x3, memOk x3 → OutOk (execSpdmNegotiateAlgorithms x0 x1 x2 x3) := by
  intros; unfold execSpdmNegotiateAlgorithms; repeat' (first | with_reducible assumption | with_reducible apply OutOk.mk | with_reducible apply spdmAt_memOk | with_reducible apply respond_memOk | with_reducible apply drawn_memOk | with_reducible apply setSpdm_memOk | with_reducible apply spdmError_memOk | split)

theorem execSpdmGetDigests_memOk : ∀ x0 x1 x2, memOk x2 → OutOk (execSpdmGetDigests x0 x1 x2) := by
  intros; unfold execSpdmGetDigests; repeat' (first | with_reducible assumption | with_reducible apply OutOk.mk | with_reducible apply spdmAt_memOk | with_reducible apply respond_memOk)

theorem execSpdmGetCertificate_memOk : ∀ x0 x1 x2 x3 x4 x5, memOk x5 → OutOk (execSpdmGetCertificate x0 x1 x2 x3 x4 x5) := by
  intros; unfold execSpdmGetCertificate; repeat' (first | with_reducible assumption | with_reducible apply OutOk.mk | with_reducible apply spdmAt_memOk | with_reducible apply spdmError_memOk | with_reducible apply respond_memOk | split)

theorem execSpdmChallenge_memOk : ∀ x0 x1 x2 x3 x4, memOk x4 → OutOk (execSpdmChallenge x0 x1 x2 x3 x4) := by
  intros; unfold execSpdmChallenge; repeat' (first | with_reducible assumption | with_reducible apply OutOk.mk | with_reducible apply spdmSigned_memOk | with_reducible apply spdmError_memOk | with_reducible apply respond_memOk | split)

theorem execSpdmGetMeasurements_memOk : ∀ x0 x1 x2 x3 x4 x5, memOk x5 → OutOk (execSpdmGetMeasurements x0 x1 x2 x3 x4 x5) := by
  intros; unfold execSpdmGetMeasurements; repeat' (first | with_reducible assumption | with_reducible apply OutOk.mk | with_reducible apply spdmAt_memOk | with_reducible apply spdmError_memOk | with_reducible apply respond_memOk | split)

theorem execSpdmKeyExchange_memOk : ∀ x0 x1 x2 x3 x4, memOk x4 → OutOk (execSpdmKeyExchange x0 x1 x2 x3 x4) := by
  intros; unfold execSpdmKeyExchange; repeat' (first | with_reducible assumption | with_reducible apply OutOk.mk | with_reducible apply spdmSigned_memOk | with_reducible apply spdmError_memOk | with_reducible apply respond_memOk | with_reducible apply drawn_memOk | with_reducible apply setSpdm_memOk | split)

theorem spdmIn_memOk : ∀ x0 x1 x2 x3 x4 x5, memOk x4 → memOk x5 → memOk (spdmIn x0 x1 x2 x3 x4 x5) := by
  intros; unfold spdmIn; repeat' (first | with_reducible assumption | with_reducible apply spdmAt_memOk | with_reducible apply spdmError_memOk | split)

theorem endSpdm_memOk : ∀ x0 x1 x2 x3, memOk x3 → memOk (endSpdm x0 x1 x2 x3) := by
  intros; unfold endSpdm; repeat' (first | with_reducible assumption | with_reducible apply setSpdm_memOk)

theorem execSpdmFinish_memOk : ∀ x0 x1 x2 x3 x4, memOk x4 → OutOk (execSpdmFinish x0 x1 x2 x3 x4) := by
  intros; unfold execSpdmFinish; repeat' (first | with_reducible assumption | with_reducible apply OutOk.mk | with_reducible apply spdmIn_memOk | with_reducible apply respond_memOk | with_reducible apply setSpdm_memOk | with_reducible apply spdmError_memOk | with_reducible apply endSpdm_memOk | split)

theorem execSpdmKeyUpdate_memOk : ∀ x0 x1 x2 x3 x4, memOk x4 → OutOk (execSpdmKeyUpdate x0 x1 x2 x3 x4) := by
  intros; unfold execSpdmKeyUpdate; repeat' (first | with_reducible assumption | with_reducible apply OutOk.mk | with_reducible apply spdmIn_memOk | with_reducible apply spdmError_memOk | with_reducible apply respond_memOk | split)

theorem execSpdmHeartbeat_memOk : ∀ x0 x1 x2 x3, memOk x3 → OutOk (execSpdmHeartbeat x0 x1 x2 x3) := by
  intros; unfold execSpdmHeartbeat; repeat' (first | with_reducible assumption | with_reducible apply OutOk.mk | with_reducible apply spdmIn_memOk | with_reducible apply respond_memOk)

theorem execSpdmEndSession_memOk : ∀ x0 x1 x2 x3, memOk x3 → OutOk (execSpdmEndSession x0 x1 x2 x3) := by
  intros; unfold execSpdmEndSession; repeat' (first | with_reducible assumption | with_reducible apply OutOk.mk | with_reducible apply spdmIn_memOk | with_reducible apply endSpdm_memOk | with_reducible apply respond_memOk)

theorem setIde_memOk : ∀ x0 x1, memOk x1 → memOk (setIde x0 x1) := by
  intros; unfold setIde; repeat' (first | with_reducible assumption | with_reducible apply State_setSec_memOk)

theorem endIde_memOk : ∀ x0 x1, memOk x1 → memOk (endIde x0 x1) := by
  intros; unfold endIde; repeat' (first | with_reducible assumption | with_reducible apply State_setSec_memOk)

theorem execIdeKm_memOk : ∀ x0 x1 x2 x3 x4 x5 x6, memOk x6 → OutOk (execIdeKm x0 x1 x2 x3 x4 x5 x6) := by
  intros; unfold execIdeKm; repeat' (first | with_reducible assumption | extract_lets | with_reducible apply OutOk.mk | with_reducible apply spdmIn_memOk | with_reducible apply spdmError_memOk | with_reducible apply respond_memOk | with_reducible apply setIde_memOk | with_reducible apply State_setSec_memOk | split)

theorem execIdeTlpRx_memOk : ∀ x0 x1 x2 x3 x4, memOk x4 → OutOk (execIdeTlpRx x0 x1 x2 x3 x4) := by
  intros; unfold execIdeTlpRx; repeat' (first | with_reducible assumption | extract_lets | with_reducible apply OutOk.mk | with_reducible apply emit_memOk | with_reducible apply setIde_memOk | with_reducible apply recordCon_memOk | split)

end Sys2Proof.Machine
end

