-- ==== Sys2Proof/Laws/MemOkMemory.lean ====
section
/-! SUPPORT. Every operation of Machine/Memory.lean keeps memory in its canonical form. -/

namespace Sys2Proof.Machine

open Sys2Proof

theorem startRetrain_memOk : ∀ x0 x1 x2, memOk x2 → memOk (startRetrain x0 x1 x2) := by
  intros; unfold startRetrain; repeat' (first | with_reducible assumption | extract_lets | with_reducible apply State_setMem_memOk | with_reducible apply warn_memOk | with_reducible apply bump_memOk | with_reducible apply fenceChannel_memOk | (with_reducible show Memory.wf _ = true; first | refine memOk_cells ?_ | (refine Memory.wf_memPutBytes _ _ ?_) | (refine Memory.wf_memZero _ _ ?_) | (refine Memory.wf_memPut _ _ ?_) | (refine Memory.wf_memCopy _ _ _ ?_) | (refine Memory.wf_filter _ ?_) | exact Memory.wf_nil) | split)

theorem execLinkCrcFail_memOk : ∀ x0 x1 x2 x3, memOk x3 → OutOk (execLinkCrcFail x0 x1 x2 x3) := by
  intros; unfold execLinkCrcFail; repeat' (first | with_reducible assumption | extract_lets | with_reducible apply OutOk.mk | with_reducible apply settle_memOk | with_reducible apply startRetrain_memOk | split)

theorem execChannelRetrainDone_memOk : ∀ x0 x1 x2 x3, memOk x3 → OutOk (execChannelRetrainDone x0 x1 x2 x3) := by
  intros; unfold execChannelRetrainDone; repeat' (first | with_reducible assumption | intro _ | with_reducible apply releaseAccs_memOk | extract_lets | with_reducible apply OutOk.mk | with_reducible apply State_setMem_memOk | with_reducible apply settle_memOk | with_reducible apply fenceChannel_memOk | (with_reducible show Memory.wf _ = true; first | refine memOk_cells ?_ | (refine Memory.wf_memPutBytes _ _ ?_) | (refine Memory.wf_memZero _ _ ?_) | (refine Memory.wf_memPut _ _ ?_) | (refine Memory.wf_memCopy _ _ _ ?_) | (refine Memory.wf_filter _ ?_) | exact Memory.wf_nil) | split | dsimp +zetaDelta only)

theorem mcFenceReq_memOk : ∀ x0 x1 x2 x3, memOk x3 → memOk (mcFenceReq x0 x1 x2 x3) := by
  intros; unfold mcFenceReq; repeat' (first | with_reducible assumption | intro _ | with_reducible apply countUnmapped_memOk | with_reducible apply settle_memOk | with_reducible apply fenceChannel_memOk | with_reducible apply memOk_foldl | split)

theorem execMcFenceReq_memOk : ∀ x0 x1 x2 x3, memOk x3 → OutOk (execMcFenceReq x0 x1 x2 x3) := by
  intros; unfold execMcFenceReq; repeat' (first | with_reducible assumption | with_reducible apply OutOk.mk | with_reducible apply mcFenceReq_memOk)

theorem execPoisonedBlockPlaced_memOk : ∀ x0 x1 x2 x3, memOk x3 → OutOk (execPoisonedBlockPlaced x0 x1 x2 x3) := by
  intros; unfold execPoisonedBlockPlaced; repeat' (first | with_reducible assumption | with_reducible apply OutOk.mk | with_reducible apply thawed_memOk | with_reducible apply recoverFrame_memOk | with_reducible apply updBlk_memOk | with_reducible apply settle_memOk | with_reducible apply updTbl_memOk | split | (refine optOk_get2 (by assumption) ?_))

theorem execScrubRead_memOk : ∀ x0 x1 x2, memOk x2 → OutOk (execScrubRead x0 x1 x2) := by
  intros; unfold execScrubRead; repeat' (first | with_reducible assumption | extract_lets | with_reducible apply OutOk.mk | with_reducible apply thawed_memOk | with_reducible apply setCell_memOk | with_reducible apply settle_memOk | with_reducible apply lineFault_memOk | split)

theorem execCxlLinkDown_memOk : ∀ x0 x1 x2, memOk x2 → OutOk (execCxlLinkDown x0 x1 x2) := by
  intros; unfold execCxlLinkDown; repeat' (first | with_reducible assumption | with_reducible apply OutOk.mk | with_reducible apply settle_memOk | with_reducible apply fenceCxl_memOk | split)

theorem heatHalved_memOk : ∀ x0, memOk x0 → memOk (heatHalved x0) := by
  intros; unfold heatHalved; repeat' (first | with_reducible assumption | with_reducible apply State_setMem_memOk | (with_reducible show Memory.wf _ = true; first | refine memOk_cells ?_ | (refine Memory.wf_memPutBytes _ _ ?_) | (refine Memory.wf_memZero _ _ ?_) | (refine Memory.wf_memPut _ _ ?_) | (refine Memory.wf_memCopy _ _ _ ?_) | (refine Memory.wf_filter _ ?_) | exact Memory.wf_nil))

theorem memOk_goOn {f : Nat → State → Nat × State} (n : Nat) (m : Bool × State) (hb : memOk m.2)
    (hf : ∀ n s, memOk s → memOk (f n s).2) : memOk (if m.1 then f (n + 1) m.2 else (n, m.2)).2 := by
  split
  · exact hf _ _ hb
  · exact hb

theorem beginMove_memOk : ∀ x0 x1 x2, memOk x2 → memOk (beginMove x0 x1 x2).2 := by
  intros; unfold beginMove; repeat' (first | with_reducible assumption | with_reducible apply takeFrame_memOk | with_reducible apply updBlk_memOk | with_reducible apply State_setMem_memOk | split | (refine optOk_get2 (by assumption) ?_))

theorem demoteBlocks_cons (high : Nat) (b : Blk) (r : List Blk) (n : Nat) (s : State) :
    demoteBlocks high (b :: r) n s = if belowPct s (hotFreeCount s + n) high
      then (if (beginMove false b s).1 then demoteBlocks high r (n + 1) (beginMove false b s).2 else (n, (beginMove false b s).2)) else (n, s) := rfl

theorem demoteBlocks_memOk : ∀ x0 x1 x2 x3, memOk x3 → memOk (demoteBlocks x0 x1 x2 x3).2 := by
  intro high l
  induction l with
  | nil => intro _ _ h; exact h
  | cons b r ih =>
    intro n s h
    rw [demoteBlocks_cons]
    split
    · exact memOk_goOn n _ (beginMove_memOk false b s h) ih
    · exact h

theorem promoteBlocks_cons (high : Nat) (b : Blk) (r : List Blk) (n : Nat) (s : State) :
    promoteBlocks high (b :: r) n s = if high * hotUsable s < (hotFreeCount s - 1) * 100
      then (if (beginMove true b s).1 then promoteBlocks high r (n + 1) (beginMove true b s).2 else (n, (beginMove true b s).2)) else (n, s) := rfl

theorem promoteBlocks_memOk : ∀ x0 x1 x2 x3, memOk x3 → memOk (promoteBlocks x0 x1 x2 x3).2 := by
  intro high l
  induction l with
  | nil => intro _ _ h; exact h
  | cons b r ih =>
    intro n s h
    rw [promoteBlocks_cons]
    split
    · exact memOk_goOn n _ (beginMove_memOk true b s h) ih
    · exact h

theorem moveAfter_memOk : ∀ x0 x1 x2, memOk x2 → memOk (moveAfter x0 x1 x2) := by
  intros; unfold moveAfter; repeat' (first | with_reducible assumption | intro _ | extract_lets | with_reducible apply updBlk_memOk | with_reducible apply State_setMem_memOk | (with_reducible show Memory.wf _ = true; first | refine memOk_cells ?_ | (refine Memory.wf_memPutBytes _ _ ?_) | (refine Memory.wf_memZero _ _ ?_) | (refine Memory.wf_memPut _ _ ?_) | (refine Memory.wf_memCopy _ _ _ ?_) | (refine Memory.wf_filter _ ?_) | exact Memory.wf_nil) | split | dsimp +zetaDelta only)

theorem swapBlocks_memOk : ∀ x0 x1 x2, memOk x2 → memOk (swapBlocks x0 x1 x2).2
  | [], _, _, h => h
  | p :: r, n, s, h => by
    unfold swapBlocks
    split
    · exact h
    split
    · exact swapBlocks_memOk r _ _ (moveAfter_memOk _ _ _ (beginMove_memOk _ _ _ h))
    split
    · exact swapBlocks_memOk r _ _ (moveAfter_memOk _ _ _ (beginMove_memOk _ _ _ h))
    · exact swapBlocks_memOk r _ _ (beginMove_memOk _ _ _ (beginMove_memOk _ _ _ h))

theorem epochMoves_memOk : ∀ x0, memOk x0 → memOk (epochMoves x0).2 := by
  intros; unfold epochMoves; repeat' (first | with_reducible assumption | intro _ | extract_lets | with_reducible apply demoteBlocks_memOk | with_reducible apply promoteBlocks_memOk | with_reducible apply swapBlocks_memOk | split | dsimp +zetaDelta only | (refine memOk_snd (by assumption) ?_))

theorem execTierEpochEnd_memOk : ∀ x0, memOk x0 → OutOk (execTierEpochEnd x0) := by
  intros; unfold execTierEpochEnd; repeat' (first | with_reducible assumption | extract_lets | with_reducible apply OutOk.mk | with_reducible apply thawed_memOk | with_reducible apply State_setMem_memOk | with_reducible apply heatHalved_memOk | with_reducible apply epochMoves_memOk | with_reducible apply logPolicy_memOk | (with_reducible show Memory.wf _ = true; first | refine memOk_cells ?_ | (refine Memory.wf_memPutBytes _ _ ?_) | (refine Memory.wf_memZero _ _ ?_) | (refine Memory.wf_memPut _ _ ?_) | (refine Memory.wf_memCopy _ _ _ ?_) | (refine Memory.wf_filter _ ?_) | exact Memory.wf_nil) | split)

theorem partnerMove_memOk : ∀ x0 x1, memOk x1 → memOk (partnerMove x0 x1) := by
  intros; unfold partnerMove; repeat' (first | with_reducible assumption | intro _ | extract_lets | with_reducible apply optOk_map | with_reducible apply optOk_bind | with_reducible apply takeFrame_memOk | with_reducible apply updBlk_memOk | split | dsimp +zetaDelta only | (refine optOk_get2 (by assumption) ?_))

theorem execTierMoveComplete_memOk : ∀ x0 x1 x2 x3, memOk x3 → OutOk (execTierMoveComplete x0 x1 x2 x3) := by
  intros; unfold execTierMoveComplete; repeat' (first | with_reducible assumption | intro _ | extract_lets | with_reducible apply OutOk.mk | with_reducible apply thawed_memOk | with_reducible apply settle_memOk | with_reducible apply partnerMove_memOk | with_reducible apply moveBlock_memOk | with_reducible apply bump_memOk | split | dsimp +zetaDelta only)

theorem sramParity_memOk : ∀ x0 x1 x2, memOk x2 → memOk (sramParity x0 x1 x2) := by
  intros; unfold sramParity; repeat' (first | with_reducible assumption | intro _ | extract_lets | with_reducible apply State_setMem_memOk | (with_reducible show Memory.wf _ = true; first | refine memOk_cells ?_ | (refine Memory.wf_memPutBytes _ _ ?_) | (refine Memory.wf_memZero _ _ ?_) | (refine Memory.wf_memPut _ _ ?_) | (refine Memory.wf_memCopy _ _ _ ?_) | (refine Memory.wf_filter _ ?_) | exact Memory.wf_nil) | split | dsimp +zetaDelta only)

theorem vaultWordLost_memOk : ∀ x0 x1, memOk x1 → memOk (vaultWordLost x0 x1) := by
  intros; unfold vaultWordLost; repeat' (first | with_reducible assumption | intro _ | extract_lets | with_reducible apply settle_memOk | with_reducible apply stoSettle_memOk | with_reducible apply abortKeyless_memOk | with_reducible apply State_setSec_memOk | split | dsimp +zetaDelta only)

theorem vaultKeyLost_memOk : ∀ x0 x1 x2, memOk x2 → memOk (vaultKeyLost x0 x1 x2) := by
  intros; unfold vaultKeyLost; repeat' (first | with_reducible assumption | intro _ | extract_lets | with_reducible apply vaultWordLost_memOk | with_reducible apply State_setMem_memOk | with_reducible apply State_setSec_memOk | with_reducible apply endSpdm_memOk | (with_reducible show Memory.wf _ = true; first | refine memOk_cells ?_ | (refine Memory.wf_filter _ ?_)) |  split | dsimp +zetaDelta only)

theorem rowRestored_memOk : ∀ x0 x1, memOk x1 → memOk (rowRestored x0 x1) := by
  intros; unfold rowRestored; repeat' (first | with_reducible assumption | intro _ | extract_lets | with_reducible apply State_setMem_memOk | with_reducible apply State_setSec_memOk | (with_reducible show Memory.wf _ = true; first | refine memOk_cells ?_ | (refine Memory.wf_memPutBytes _ _ ?_) | (refine Memory.wf_memZero _ _ ?_) | (refine Memory.wf_memPut _ _ ?_) | (refine Memory.wf_memCopy _ _ _ ?_) | (refine Memory.wf_filter _ ?_) | exact Memory.wf_nil) | split | dsimp +zetaDelta only)

theorem execSramRowSpared_memOk : ∀ x0 x1 x2 x3 x4, memOk x4 → OutOk (execSramRowSpared x0 x1 x2 x3 x4) := by
  intros; unfold execSramRowSpared; repeat' (first | with_reducible assumption | with_reducible apply rowRestored_memOk | with_reducible apply vaultKeyLost_memOk | intro _ | extract_lets | with_reducible apply OutOk.mk | with_reducible apply logSpare_memOk | with_reducible apply State_setMem_memOk | with_reducible apply sramParity_memOk | with_reducible apply vaultWordLost_memOk | (with_reducible show Memory.wf _ = true; first | refine memOk_cells ?_ | (refine Memory.wf_memPutBytes _ _ ?_) | (refine Memory.wf_memZero _ _ ?_) | (refine Memory.wf_memPut _ _ ?_) | (refine Memory.wf_memCopy _ _ _ ?_) | (refine Memory.wf_filter _ ?_) | exact Memory.wf_nil) | split | dsimp +zetaDelta only)

end Sys2Proof.Machine
end

