-- ==== Sys2Proof/Laws/MemOkCsr.lean ====
section
/-! SUPPORT. Every operation of Machine/Csr.lean keeps memory in its canonical form. -/

namespace Sys2Proof.Machine

open Sys2Proof

theorem setPerfCtr_memOk : ∀ x0 x1 x2 x3, memOk x3 → memOk (setPerfCtr x0 x1 x2 x3) := by
  intros; unfold setPerfCtr; repeat' (first | with_reducible assumption | with_reducible apply State_setPerf_memOk)

theorem csrReadCount_memOk : ∀ x0 x1, memOk x1 → memOk (csrReadCount x0 x1) := by
  intros; unfold csrReadCount; repeat' (first | with_reducible assumption | with_reducible apply countUnmapped_memOk | split)

end Sys2Proof.Machine
end

