-- ==== Sys2Proof/Laws/MemOkFaults.lean ====
section
/-! SUPPORT. Every operation of Machine/Faults.lean keeps memory in its canonical form. -/

namespace Sys2Proof.Machine

open Sys2Proof

theorem clustersToP5_memOk : ∀ x0, memOk x0 → memOk (clustersToP5 x0) := by
  intros; unfold clustersToP5; repeat' (first | with_reducible assumption | intro _ | with_reducible apply updIsland_memOk | with_reducible apply takeFallback_memOk | with_reducible apply memOk_foldl)

theorem recordFat_memOk : ∀ x0 x1 x2 x3, memOk x3 → memOk (recordFat x0 x1 x2 x3) := by
  intros; unfold recordFat; repeat' (first | with_reducible assumption | extract_lets | with_reducible apply noteErr_memOk | with_reducible apply clustersToP5_memOk | with_reducible apply State_setTel_memOk | with_reducible apply driveAlert_memOk | split)

theorem staleAck_memOk : ∀ x0, memOk x0 → memOk (staleAck x0) := by
  intros; unfold staleAck; repeat' (first | with_reducible assumption | with_reducible apply bump_memOk)

theorem ackErr_memOk : ∀ x0 x1 x2, memOk x2 → memOk (ackErr x0 x1 x2) := by
  intros; unfold ackErr; repeat' (first | with_reducible assumption | intro _ | with_reducible apply State_setErr_memOk | extract_lets | with_reducible apply setErr_memOk | with_reducible apply staleAck_memOk | split | dsimp +zetaDelta only)

theorem releaseFault_memOk : ∀ x0 x1, memOk x1 → memOk (releaseFault x0 x1) := by
  intros; unfold releaseFault; repeat' (first | with_reducible assumption | with_reducible apply emit_memOk | split)

theorem clearErr_memOk : ∀ x0 x1, memOk x1 → memOk (clearErr x0 x1) := by
  intros; unfold clearErr; repeat' (first | with_reducible assumption | intro _ | with_reducible apply State_setErr_memOk | extract_lets | with_reducible apply releaseFault_memOk | with_reducible apply setErr_memOk | with_reducible apply staleAck_memOk | split | dsimp +zetaDelta only)

theorem execErrAckAck_memOk : ∀ x0 x1 x2 x3, memOk x3 → OutOk (execErrAckAck x0 x1 x2 x3) := by
  intros; unfold execErrAckAck; repeat' (first | with_reducible assumption | intro _ | extract_lets | with_reducible apply OutOk.mk | with_reducible apply countUnmapped_memOk | with_reducible apply ackErr_memOk | split | dsimp +zetaDelta only)

theorem execErrAckClear_memOk : ∀ x0 x1 x2 x3 x4, memOk x4 → OutOk (execErrAckClear x0 x1 x2 x3 x4) := by
  intros; unfold execErrAckClear; repeat' (first | with_reducible assumption | intro _ | extract_lets | with_reducible apply OutOk.mk | with_reducible apply countUnmapped_memOk | with_reducible apply clearErr_memOk | with_reducible apply ackErr_memOk | split | dsimp +zetaDelta only)

theorem execFaultNMinimumHoldExpiry_memOk : ∀ x0, memOk x0 → OutOk (execFaultNMinimumHoldExpiry x0) := by
  intros; unfold execFaultNMinimumHoldExpiry; repeat' (first | with_reducible assumption | with_reducible apply OutOk.mk | with_reducible apply releaseFault_memOk | with_reducible apply State_setTel_memOk)

theorem execReferenceClockLost_memOk : ∀ x0 x1, memOk x1 → OutOk (execReferenceClockLost x0 x1) := by
  intros; unfold execReferenceClockLost; repeat' (first | with_reducible assumption | with_reducible apply OutOk.mk | with_reducible apply recordFat_memOk | split)

theorem execRailOutOfRange_memOk : ∀ x0 x1 x2, memOk x2 → OutOk (execRailOutOfRange x0 x1 x2) := by
  intros; unfold execRailOutOfRange; repeat' (first | with_reducible assumption | with_reducible apply OutOk.mk | with_reducible apply recordFat_memOk | split)

theorem execCntSelWrite_memOk : ∀ x0 x1 x2 x3 x4, memOk x4 → OutOk (execCntSelWrite x0 x1 x2 x3 x4) := by
  intros; unfold execCntSelWrite; repeat' (first | with_reducible assumption | with_reducible apply OutOk.mk | with_reducible apply countUnmapped_memOk | with_reducible apply setPerfCtr_memOk | split)

theorem hCounterSelect_memOk : ∀ x0 x1, memOk x1 → Res.Ok (hCounterSelect x0 x1) := by
  intros; unfold hCounterSelect; repeat' (first | with_reducible assumption | with_reducible apply checked_memOk | with_reducible apply Ctx_okEcho_memOk | with_reducible apply setPerfCtr_memOk)

theorem hCounterRead_memOk : ∀ x0 x1, memOk x1 → Res.Ok (hCounterRead x0 x1) := by
  intros; unfold hCounterRead; repeat' (first | with_reducible assumption | with_reducible apply checked_memOk | with_reducible apply Res_ok_memOk | with_reducible apply State_setDraw_memOk)

theorem hErrQuery_memOk : ∀ x0 x1, memOk x1 → Res.Ok (hErrQuery x0 x1) := by
  intros; unfold hErrQuery; repeat' (first | with_reducible assumption | extract_lets | with_reducible apply Res_ok_memOk | with_reducible apply checked_memOk | split)

theorem hErrAck_memOk : ∀ x0 x1, memOk x1 → Res.Ok (hErrAck x0 x1) := by
  intros; unfold hErrAck; repeat' (first | with_reducible assumption | with_reducible apply Res.ok_reply | with_reducible apply checked_memOk | with_reducible apply ackErr_memOk | with_reducible apply clearErr_memOk | with_reducible apply Res_ok_memOk | split | dsimp +zetaDelta only)

theorem hDumpRead_memOk : ∀ x0 x1, memOk x1 → Res.Ok (hDumpRead x0 x1) := by
  intros; unfold hDumpRead; repeat' (first | with_reducible assumption | with_reducible apply checked_memOk | with_reducible apply Res_ok_memOk)

theorem hPolicyLogRead_memOk : ∀ x0 x1, memOk x1 → Res.Ok (hPolicyLogRead x0 x1) := by
  intros; unfold hPolicyLogRead; repeat' (first | with_reducible assumption | with_reducible apply Res_ok_memOk | with_reducible apply State_setTel_memOk)

theorem setTierQuantity_memOk : ∀ x0 x1 x2, memOk x2 → memOk (setTierQuantity x0 x1 x2) := by
  intros; unfold setTierQuantity; repeat' (first | with_reducible assumption | with_reducible apply setCell_memOk | split)

end Sys2Proof.Machine
end

