-- ==== Sys2Proof/Laws/MemOkPorts.lean ====
section
/-! SUPPORT. Every operation of Machine/Ports.lean keeps memory in its canonical form. -/

namespace Sys2Proof.Machine

open Sys2Proof

theorem hPortQueryBlock_memOk : ∀ x0 x1, memOk x1 → Res.Ok (hPortQueryBlock x0 x1) := by
  intros; unfold hPortQueryBlock; repeat' (first | with_reducible assumption | with_reducible apply checked_memOk | with_reducible apply Res_ok_memOk)

theorem noRetry_memOk : ∀ x0 x1, memOk x1 → memOk (noRetry x0 x1) := by
  intros; unfold noRetry; repeat' (first | with_reducible assumption | intro _ | extract_lets | with_reducible apply State_setPorts_memOk | split | dsimp +zetaDelta only)

theorem trainLink_memOk : ∀ x0 x1 x2 x3, memOk x3 → memOk (trainLink x0 x1 x2 x3) := by
  intros; unfold trainLink; repeat' (first | with_reducible assumption | intro _ | extract_lets | with_reducible apply noRetry_memOk | with_reducible apply armEndpoint_memOk | with_reducible apply setLink_memOk | with_reducible apply endpointReset_memOk | with_reducible apply warn_memOk | with_reducible apply bump_memOk | with_reducible apply logPolicy_memOk | with_reducible apply endpointRings_memOk | with_reducible apply setRing_memOk | split | dsimp +zetaDelta only)

theorem resetAccelLink_memOk : ∀ x0 x1 x2, memOk x2 → memOk (resetAccelLink x0 x1 x2) := by
  intros; unfold resetAccelLink; repeat' (first | with_reducible assumption | intro _ | extract_lets | with_reducible apply noRetry_memOk | with_reducible apply endpointReset_memOk | with_reducible apply setLink_memOk | split | dsimp +zetaDelta only)

theorem execAcceleratorLinkReset_memOk : ∀ x0 x1 x2, memOk x2 → OutOk (execAcceleratorLinkReset x0 x1 x2) := by
  intros; unfold execAcceleratorLinkReset; repeat' (first | with_reducible assumption | with_reducible apply OutOk.mk | with_reducible apply resetAccelLink_memOk | split)

theorem execSecondaryBusReset_memOk : ∀ x0 x1 x2, memOk x2 → OutOk (execSecondaryBusReset x0 x1 x2) := by
  intros; unfold execSecondaryBusReset; repeat' (first | with_reducible assumption | with_reducible apply OutOk.mk | with_reducible apply resetAccelLink_memOk | split)

theorem execQueueRegionAccess_memOk : ∀ x0 x1 x2 x3 x4, memOk x4 → OutOk (execQueueRegionAccess x0 x1 x2 x3 x4) := by
  intros; unfold execQueueRegionAccess; repeat' (first | with_reducible assumption | intro _ | extract_lets | with_reducible apply hostAccess_memOk | with_reducible apply unserved_memOk |  with_reducible apply OutOk.mk | with_reducible apply frozenAccess_memOk | with_reducible apply completerAbort_memOk | with_reducible apply countUnmapped_memOk | with_reducible apply emit_memOk | with_reducible apply writeMem_memOk | split | dsimp +zetaDelta only)

end Sys2Proof.Machine
end

