-- ==== Sys2Proof/Laws/MemOkFunctions.lean ====
section
/-! SUPPORT. Every operation of Machine/Functions.lean keeps memory in its canonical form. -/

namespace Sys2Proof.Machine

open Sys2Proof

theorem resumeNic_memOk : ∀ x0 x1 x2, memOk x2 → memOk (resumeNic x0 x1 x2) := by
  intro x0 x1 x2; fun_induction resumeNic x0 x1 x2 <;> repeat' (first | intro _ | with_reducible apply nicTransmit_memOk | with_reducible apply_assumption)

theorem resumeEgress_memOk : ∀ x0, memOk x0 → memOk (resumeEgress x0) := by
  intros; unfold resumeEgress; repeat' (first | with_reducible assumption | intro _ | extract_lets | with_reducible apply queuePacket_memOk | with_reducible apply enqueue_memOk | with_reducible apply State_setPp_memOk | with_reducible apply memOk_foldl | with_reducible apply memOk_foldl_fst | with_reducible apply memOk_foldl_snd | split | dsimp +zetaDelta only)

theorem resumeOpens_memOk : ∀ x0, memOk x0 → memOk (resumeOpens x0) := by
  intros; unfold resumeOpens; repeat' (first | with_reducible assumption | intro _ | extract_lets | with_reducible apply autoOpen_memOk | with_reducible apply earlyOpen_memOk | with_reducible apply openMessage_memOk | with_reducible apply State_setCourse_memOk | with_reducible apply memOk_foldl | with_reducible apply memOk_foldl_fst | with_reducible apply memOk_foldl_snd | split | dsimp +zetaDelta only)

theorem resumeIntake_memOk : ∀ x0, memOk x0 → memOk (resumeIntake x0) := by
  intros; unfold resumeIntake; repeat' (first | with_reducible assumption | with_reducible apply resumeOpens_memOk | with_reducible apply resumeEgress_memOk | intro _ | extract_lets | with_reducible apply resumeIngress_memOk | with_reducible apply pumpConn_memOk | with_reducible apply resumeNic_memOk | with_reducible apply memOk_foldl | with_reducible apply memOk_foldl_fst | with_reducible apply memOk_foldl_snd | split | dsimp +zetaDelta only)

theorem abortWaits_memOk : ∀ x0 x1, memOk x1 → memOk (abortWaits x0 x1) := by
  intros; unfold abortWaits; repeat' (first | with_reducible assumption | intro _ | with_reducible apply State_setIcp_memOk | with_reducible apply finishWait_memOk | with_reducible apply memOk_foldl)

theorem keepWaits_memOk : ∀ x0 x1 x2, memOk x2 → memOk (keepWaits x0 x1 x2) := by
  intros; unfold keepWaits; repeat' (first | with_reducible assumption | intro _ | with_reducible apply State_setIcp_memOk | with_reducible apply finishWait_memOk | with_reducible apply memOk_foldl)

theorem lateCompletions_memOk : ∀ x0 x1 x2, memOk x2 → memOk (lateCompletions x0 x1 x2) := by
  intros; unfold lateCompletions; repeat' (first | with_reducible assumption | with_reducible apply dmaDropped_memOk | intro _ | extract_lets | with_reducible apply updFn_memOk | split | dsimp +zetaDelta only)

theorem failQueues_memOk : ∀ x0 x1 x2, memOk x2 → memOk (failQueues x0 x1 x2) := by
  intros; unfold failQueues; repeat' (first | with_reducible assumption | intro _ | extract_lets | with_reducible apply lateCompletions_memOk | with_reducible apply postCqe_memOk | with_reducible apply updCqp_memOk | with_reducible apply removeCqp_memOk | with_reducible apply memOk_foldl | with_reducible apply memOk_foldl_fst | with_reducible apply memOk_foldl_snd | split | dsimp +zetaDelta only)

theorem failKernels_memOk : ∀ x0 x1, memOk x1 → memOk (failKernels x0 x1) := by
  intros; unfold failKernels; repeat' (first | with_reducible assumption | intro _ | extract_lets | with_reducible apply endDescItems_memOk | with_reducible apply killKernel_memOk | with_reducible apply memOk_foldl | with_reducible apply memOk_foldl_fst | with_reducible apply memOk_foldl_snd | split | dsimp +zetaDelta only)

theorem failHostSide_memOk : ∀ x0 x1, memOk x1 → memOk (failHostSide x0 x1) := by
  intros; unfold failHostSide; repeat' (first | with_reducible assumption | intro _ | with_reducible apply nvmeReset_memOk | with_reducible apply removeNicQp_memOk | with_reducible apply dropTransport_memOk | with_reducible apply memOk_foldl | split | dsimp +zetaDelta only)

theorem restampTables_memOk : ∀ x0 x1, memOk x1 → memOk (restampTables x0 x1) := by
  intros; unfold restampTables; repeat' (first | with_reducible assumption | intro _ | extract_lets | with_reducible apply State_setTab_memOk | split | dsimp +zetaDelta only)

theorem dropReplies_memOk : ∀ x0 x1, memOk x1 → memOk (dropReplies x0 x1) := by
  intros; unfold dropReplies; repeat' (first | with_reducible assumption | intro _ | extract_lets | with_reducible apply State_setIcp_memOk | split | dsimp +zetaDelta only)

theorem failFunction_memOk : ∀ x0 x1 x2 x3, memOk x3 → memOk (failFunction x0 x1 x2 x3) := by
  intros; unfold failFunction; repeat' (first | with_reducible assumption | with_reducible apply dropReplies_memOk | with_reducible apply setRing_memOk | with_reducible apply lateCompletions_memOk | intro _ | extract_lets | with_reducible apply abortWaits_memOk | with_reducible apply setFn_memOk | with_reducible apply keepWaits_memOk | with_reducible apply State_setIcp_memOk | with_reducible apply State_setRings_memOk | with_reducible apply updRun_memOk | with_reducible apply restampTables_memOk | with_reducible apply failHostSide_memOk | with_reducible apply failKernels_memOk | with_reducible apply failQueues_memOk | with_reducible apply restoreTenantLost_memOk | with_reducible apply updFn_memOk | with_reducible apply settle_memOk | with_reducible apply livePause_memOk | with_reducible apply resumeIntake_memOk | split | dsimp +zetaDelta only)

theorem disableVfs_memOk : ∀ x0 x1 x2 x3, memOk x3 → memOk (disableVfs x0 x1 x2 x3) := by
  intros; unfold disableVfs; repeat' (first | with_reducible assumption | extract_lets | with_reducible apply vs_memOk | with_reducible apply resetCfg_memOk | with_reducible apply memOk_foldl_fst | with_reducible apply memOk_foldl_snd | intro _ | with_reducible apply updFn_memOk | with_reducible apply failFunction_memOk | with_reducible apply memOk_foldl | split | dsimp +zetaDelta only)

theorem execFlr_memOk : ∀ x0 x1, memOk x1 → OutOk (execFlr x0 x1) := by
  intros; unfold execFlr; repeat' (first | with_reducible assumption | with_reducible apply configRetry_memOk |  with_reducible apply resetCfg_memOk | with_reducible apply OutOk.mk | with_reducible apply failFunction_memOk | with_reducible apply disableVfs_memOk | with_reducible apply updFn_memOk | split | dsimp +zetaDelta only)

theorem serveRing_memOk : ∀ x0 x1, memOk x1 → memOk (serveRing x0 x1) := by
  intros; unfold serveRing; repeat' (first | with_reducible assumption | with_reducible apply setRing_memOk | split)

theorem execFlrComplete_memOk : ∀ x0 x1, memOk x1 → OutOk (execFlrComplete x0 x1) := by
  intros; unfold execFlrComplete; repeat' (first | with_reducible assumption | with_reducible apply OutOk.mk | with_reducible apply serveRing_memOk | with_reducible apply updFn_memOk | split)

theorem execReclaimComplete_memOk : ∀ x0 x1, memOk x1 → OutOk (execReclaimComplete x0 x1) := by
  intros; unfold execReclaimComplete; repeat' (first | with_reducible assumption | with_reducible apply OutOk.mk | with_reducible apply updFn_memOk)

theorem execLeaseExpiry_memOk : ∀ x0 x1, memOk x1 → OutOk (execLeaseExpiry x0 x1) := by
  intros; unfold execLeaseExpiry; repeat' (first | with_reducible assumption | with_reducible apply OutOk.mk | with_reducible apply failFunction_memOk | split)

theorem retryLimitReached_memOk : ∀ x0 x1 x2, memOk x2 → memOk (retryLimitReached x0 x1 x2) := by
  intros; unfold retryLimitReached; repeat' (first | with_reducible assumption | extract_lets | with_reducible apply errorConn_memOk | with_reducible apply failFunction_memOk | split)

theorem execRetransmitTimeout_memOk : ∀ x0 x1 x2, memOk x2 → OutOk (execRetransmitTimeout x0 x1 x2) := by
  intros; unfold execRetransmitTimeout; repeat' (first | with_reducible assumption | intro _ | extract_lets | with_reducible apply domainConnLost_memOk | with_reducible apply OutOk.mk | with_reducible apply thawed_memOk | with_reducible apply settle_memOk | with_reducible apply membersLost_memOk | with_reducible apply bumpTr_memOk | with_reducible apply setCwnd_memOk | with_reducible apply retryLimitReached_memOk | with_reducible apply excludePath_memOk | with_reducible apply updConn_memOk | with_reducible apply pumpConn_memOk | split | dsimp +zetaDelta only)

theorem execNumvfsWrite_memOk : ∀ x0 x1 x2, memOk x2 → OutOk (execNumvfsWrite x0 x1 x2) := by
  intros; unfold execNumvfsWrite; repeat' (first | with_reducible assumption | with_reducible apply configRetry_memOk |  with_reducible apply OutOk.mk | with_reducible apply updFn_memOk | split)

theorem enableVf_memOk : ∀ x0 x1 x2, memOk x1 → memOk (enableVf x0 x1 x2) := by
  intros; unfold enableVf; repeat' (first | with_reducible assumption | intro _ | extract_lets | with_reducible apply resetCfg_memOk | with_reducible apply serveRing_memOk | with_reducible apply setFn_memOk | split | dsimp +zetaDelta only)

theorem execVfEnable_memOk : ∀ x0 x1 x2, memOk x2 → OutOk (execVfEnable x0 x1 x2) := by
  intros; unfold execVfEnable; repeat' (first | with_reducible assumption | with_reducible apply configRetry_memOk |  with_reducible apply OutOk.mk | with_reducible apply enableVf_memOk | with_reducible apply updFn_memOk | with_reducible apply disableVfs_memOk | with_reducible apply memOk_foldl | split)

theorem resumeFunction_memOk : ∀ x0 x1, memOk x1 → memOk (resumeFunction x0 x1) := by
  intros; unfold resumeFunction; repeat' (first | with_reducible assumption | intro _ | with_reducible apply deliverReply_memOk | with_reducible apply setRing_memOk | with_reducible apply deliverHeld_memOk | with_reducible apply nvmeWrite_memOk | with_reducible apply updCtrl_memOk | with_reducible apply fetchNvme_memOk | with_reducible apply resumeNic_memOk | with_reducible apply drainNic_memOk | with_reducible apply fetchWq_memOk | with_reducible apply drainGrt_memOk | with_reducible apply pumpConn_memOk | with_reducible apply memOk_foldl | split | dsimp +zetaDelta only)

theorem holdQueues_memOk : ∀ x0 x1, memOk x1 → memOk (holdQueues x0 x1) := by
  intros; unfold holdQueues; repeat' (first | with_reducible assumption | intro _ | with_reducible apply updCqp_memOk | with_reducible apply memOk_foldl)

theorem execDStateChange_memOk : ∀ x0 x1 x2 x3, memOk x3 → OutOk (execDStateChange x0 x1 x2 x3) := by
  intros; unfold execDStateChange; repeat' (first | with_reducible assumption | extract_lets | with_reducible apply configRetry_memOk | with_reducible apply memOk_foldl_fst | with_reducible apply memOk_foldl_snd | intro _ | with_reducible apply OutOk.mk | with_reducible apply updFn_memOk | with_reducible apply settle_memOk | with_reducible apply resumeFunction_memOk | with_reducible apply failFunction_memOk | with_reducible apply holdQueues_memOk | with_reducible apply memOk_foldl | split | dsimp +zetaDelta only)

theorem execWakeEvent_memOk : ∀ x0 x1 x2, memOk x2 → OutOk (execWakeEvent x0 x1 x2) := by
  intros; unfold execWakeEvent; repeat' (first | with_reducible assumption | intro _ | extract_lets | with_reducible apply updFn_memOk | with_reducible apply OutOk.mk | with_reducible apply State_setPwr_memOk | with_reducible apply emit_memOk | split | dsimp +zetaDelta only)

theorem hostReset_memOk : ∀ x0 x1, memOk x1 → memOk (hostReset x0 x1) := by
  intros; unfold hostReset; repeat' (first | with_reducible assumption | with_reducible apply memOk_foldl_fst | with_reducible apply memOk_foldl_snd | with_reducible apply resetCfg_memOk | intro _ | extract_lets | with_reducible apply updFn_memOk | with_reducible apply disableVfs_memOk | with_reducible apply failFunction_memOk | with_reducible apply endIde_memOk | with_reducible apply State_setPorts_memOk | with_reducible apply resetAccelLink_memOk | with_reducible apply memOk_foldl | split | dsimp +zetaDelta only)

theorem blockRetrain_memOk : ∀ x0 x1, memOk x1 → memOk (blockRetrain x0 x1) := by
  intros; unfold blockRetrain; repeat' (first | with_reducible assumption | intro _ | with_reducible apply endpointReset_memOk | with_reducible apply dropRings_memOk | with_reducible apply hostReset_memOk | with_reducible apply setPb_memOk | with_reducible apply memOk_foldl | split | dsimp +zetaDelta only)

theorem blockChange_memOk : ∀ x0 x1 x2, memOk x2 → memOk (blockChange x0 x1 x2) := by
  intros; unfold blockChange; repeat' (first | with_reducible assumption | with_reducible apply setPb_memOk | with_reducible apply blockRetrain_memOk | split | dsimp +zetaDelta only)

theorem hPortConfigBlock_memOk : ∀ x0 x1, memOk x1 → Res.Ok (hPortConfigBlock x0 x1) := by
  intros; unfold hPortConfigBlock; repeat' (first | with_reducible assumption | with_reducible apply checked_memOk | with_reducible apply Ctx_okEcho_memOk | with_reducible apply blockChange_memOk)

theorem execLinkTraining_memOk : ∀ x0 x1 x2 x3 x4 x5 x6 x7, memOk x7 → OutOk (execLinkTraining x0 x1 x2 x3 x4 x5 x6 x7) := by
  intros; unfold execLinkTraining; repeat' (first | with_reducible assumption | with_reducible apply OutOk.mk | with_reducible apply hostReset_memOk | with_reducible apply trainLink_memOk | split | dsimp only)

theorem hostRelease_memOk : ∀ x0 x1, memOk x1 → memOk (hostRelease x0 x1) := by
  intros; unfold hostRelease; repeat' (first | with_reducible assumption | with_reducible apply memOk_foldl_fst | with_reducible apply memOk_foldl_snd | intro _ | extract_lets | with_reducible apply updFn_memOk | with_reducible apply emit_memOk | with_reducible apply memOk_foldl | split | dsimp +zetaDelta only)

theorem execPerstN_memOk : ∀ x0 x1 x2, memOk x2 → OutOk (execPerstN x0 x1 x2) := by
  intros; unfold execPerstN; repeat' (first | with_reducible assumption | with_reducible apply OutOk.mk | with_reducible apply hostReset_memOk | with_reducible apply hostRelease_memOk | split)

theorem hFnCreate_memOk : ∀ x0 x1, memOk x1 → Res.Ok (hFnCreate x0 x1) := by
  intros; unfold hFnCreate; repeat' (first | with_reducible assumption | with_reducible apply checked_memOk | with_reducible apply Res_ok_memOk | with_reducible apply setFn_memOk)

theorem hFnReset_memOk : ∀ x0 x1, memOk x1 → Res.Ok (hFnReset x0 x1) := by
  intros; unfold hFnReset; repeat' (first | with_reducible assumption | with_reducible apply Res.ok_later | with_reducible apply checked_memOk | with_reducible apply failFunction_memOk | with_reducible apply State_setIcp_memOk | with_reducible apply Res_ok_memOk | split)

theorem freeOwned_memOk : ∀ x0 x1, memOk x1 → memOk (freeOwned x0 x1) := by
  intros; unfold freeOwned; repeat' (first | with_reducible assumption | intro _ | with_reducible apply freeTable_memOk | with_reducible apply killKernel_memOk | with_reducible apply State_setTab_memOk | with_reducible apply memOk_foldl)

theorem hFnDestroy_memOk : ∀ x0 x1, memOk x1 → Res.Ok (hFnDestroy x0 x1) := by
  intros; unfold hFnDestroy; repeat' (first | with_reducible assumption | with_reducible apply Res.ok_later | with_reducible apply checked_memOk | with_reducible apply freeOwned_memOk | with_reducible apply failFunction_memOk | with_reducible apply settle_memOk | with_reducible apply updFn_memOk | with_reducible apply State_setIcp_memOk | with_reducible apply Res_ok_memOk | split)

theorem hGetFunctionState_memOk : ∀ x0 x1, memOk x1 → Res.Ok (hGetFunctionState x0 x1) := by
  intros; unfold hGetFunctionState; repeat' (first | with_reducible assumption | intro _ | with_reducible apply checked_memOk | with_reducible apply updCqp_memOk | with_reducible apply Res_ok_memOk | with_reducible apply memOk_foldl | split | dsimp +zetaDelta only)

end Sys2Proof.Machine
end

