-- ==== Sys2Proof/Laws/MemOkMigration.lean ====
section
/-! SUPPORT. Every operation of Machine/Migration.lean keeps memory in its canonical form. -/

namespace Sys2Proof.Machine

open Sys2Proof

theorem hMigFreeze_memOk : ∀ x0 x1, memOk x1 → Res.Ok (hMigFreeze x0 x1) := by
  intros; unfold hMigFreeze; repeat' (first | with_reducible assumption | intro _ | extract_lets | with_reducible apply Res.ok_later | with_reducible apply checked_memOk | with_reducible apply updFn_memOk | with_reducible apply Res_ok_memOk | with_reducible apply drawn_memOk | with_reducible apply addWait_memOk | split | dsimp +zetaDelta only)

theorem hMigResume_memOk : ∀ x0 x1, memOk x1 → Res.Ok (hMigResume x0 x1) := by
  intros; unfold hMigResume; repeat' (first | with_reducible assumption | with_reducible apply checked_memOk | with_reducible apply Res_ok_memOk | with_reducible apply settle_memOk | with_reducible apply resumeFunction_memOk | with_reducible apply updFn_memOk)

theorem hMigSave_memOk : ∀ x0 x1, memOk x1 → Res.Ok (hMigSave x0 x1) := by
  intros; unfold hMigSave; repeat' (first | with_reducible assumption | intro _ | extract_lets | with_reducible apply Res.ok_reply | with_reducible apply Res.ok_later | with_reducible apply checked_memOk | with_reducible apply useWorkingKey_memOk | with_reducible apply drawn_memOk | with_reducible apply updFn_memOk | with_reducible apply Res_ok_memOk | with_reducible apply dmaOut_memOk | split | dsimp +zetaDelta only | (refine Res.get_reply (by assumption) ?_) | (refine Res.get_later (by assumption) ?_))

theorem moveOwner_memOk : ∀ x0 x1 x2, memOk x2 → memOk (moveOwner x0 x1 x2) := by
  intros; unfold moveOwner; repeat' (first | with_reducible assumption | intro _ | extract_lets | with_reducible apply setElastic_memOk | with_reducible apply State_setTab_memOk | with_reducible apply State_setMason_memOk | with_reducible apply State_setPorts_memOk | with_reducible apply State_setPp_memOk | with_reducible apply State_setPages_memOk | with_reducible apply State_setGrt_memOk | with_reducible apply State_setSto_memOk | with_reducible apply updRun_memOk | with_reducible apply State_setCourse_memOk | with_reducible apply State_setElastic_memOk | with_reducible apply State_setRings_memOk | split | dsimp +zetaDelta only)

theorem takeImage_memOk : ∀ x0 x1 x2 x3, memOk x3 → memOk (takeImage x0 x1 x2 x3) := by
  intros; unfold takeImage; repeat' (first | with_reducible assumption | with_reducible apply State_setIcp_memOk | with_reducible apply updFn_memOk)

theorem overlay_memOk : ∀ x0 x1 x2 x3, memOk x3 → memOk (overlay x0 x1 x2 x3) := by
  intros; unfold overlay; repeat' (first | with_reducible assumption | intro _ | extract_lets | with_reducible apply setCqp_memOk | with_reducible apply setQp_memOk | with_reducible apply setConn_memOk | with_reducible apply setWq_memOk | with_reducible apply setRing_memOk | with_reducible apply setCtrl_memOk | with_reducible apply memOk_foldl | with_reducible apply memOk_foldl_fst | with_reducible apply memOk_foldl_snd | split | dsimp +zetaDelta only)

theorem restoreHere_memOk : ∀ x0 x1 x2 x3, memOk x3 → memOk (restoreHere x0 x1 x2 x3) := by
  intros; unfold restoreHere; repeat' (first | with_reducible assumption | intro _ | extract_lets | with_reducible apply overlay_memOk | with_reducible apply moveOwner_memOk | with_reducible apply takeImage_memOk | with_reducible apply updFn_memOk | with_reducible apply failFunction_memOk | split | dsimp +zetaDelta only)

theorem restoreForeign_memOk : ∀ x0 x1 x2, memOk x2 → memOk (restoreForeign x0 x1 x2) := by
  intros; unfold restoreForeign; repeat' (first | with_reducible assumption | extract_lets | with_reducible apply memOk_foldl_fst | with_reducible apply memOk_foldl_snd | with_reducible apply State_setPages_memOk | intro _ | with_reducible apply takeImage_memOk | with_reducible apply setCqp_memOk | with_reducible apply setQp_memOk | with_reducible apply State_setPages_memOk | with_reducible apply setConn_memOk | with_reducible apply setWq_memOk | with_reducible apply State_setGrt_memOk | with_reducible apply setRing_memOk | with_reducible apply setCtrl_memOk | with_reducible apply memOk_foldl | split | dsimp +zetaDelta only)

theorem finishRestore_memOk : ∀ x0 x1 x2 x3 x4 x5, memOk x5 → Res.Ok (finishRestore x0 x1 x2 x3 x4 x5) := by
  intros; unfold finishRestore; repeat' (first | with_reducible assumption | intro _ | extract_lets | with_reducible apply useWorkingKey_memOk | with_reducible apply Res.ok_reply | with_reducible apply bump_memOk | with_reducible apply updFn_memOk | with_reducible apply Res_ok_memOk | with_reducible apply restoreHere_memOk | with_reducible apply restoreForeign_memOk | split | dsimp +zetaDelta only)

theorem hMigRestore_memOk : ∀ x0 x1, memOk x1 → Res.Ok (hMigRestore x0 x1) := by
  intros; unfold hMigRestore; repeat' (first | with_reducible assumption | with_reducible apply checked_memOk | with_reducible apply finishRestore_memOk | with_reducible apply Res_ok_memOk | with_reducible apply updFn_memOk | split)

theorem hDirtyLogStart_memOk : ∀ x0 x1, memOk x1 → Res.Ok (hDirtyLogStart x0 x1) := by
  intros; unfold hDirtyLogStart; repeat' (first | with_reducible assumption | with_reducible apply checked_memOk | with_reducible apply Res_ok_memOk | with_reducible apply updFn_memOk)

theorem hDirtyLogStop_memOk : ∀ x0 x1, memOk x1 → Res.Ok (hDirtyLogStop x0 x1) := by
  intros; unfold hDirtyLogStop; repeat' (first | with_reducible assumption | with_reducible apply checked_memOk | with_reducible apply Res_ok_memOk | with_reducible apply updFn_memOk)

theorem setApt_memOk : ∀ x0 x1 x2 x3, memOk x3 → memOk (setApt x0 x1 x2 x3) := by
  intros; unfold setApt; repeat' (first | with_reducible assumption | intro _ | extract_lets | with_reducible apply countUnmapped_memOk | with_reducible apply State_setPorts_memOk | split | dsimp +zetaDelta only)

theorem execAptWrite_memOk : ∀ x0 x1 x2 x3, memOk x3 → OutOk (execAptWrite x0 x1 x2 x3) := by
  intros; unfold execAptWrite; repeat' (first | with_reducible assumption | intro _ | extract_lets | with_reducible apply OutOk.mk | with_reducible apply setApt_memOk | split | dsimp +zetaDelta only)

theorem execApertureAccess_memOk : ∀ x0 x1 x2 x3 x4 x5, memOk x5 → OutOk (execApertureAccess x0 x1 x2 x3 x4 x5) := by
  intros; unfold execApertureAccess; repeat' (first | with_reducible assumption | intro _ | extract_lets | with_reducible apply hostAccess_memOk | with_reducible apply unserved_memOk |  with_reducible apply OutOk.mk | with_reducible apply frozenAccess_memOk | with_reducible apply completerAbort_memOk | with_reducible apply lineFaults_memOk | with_reducible apply emit_memOk | with_reducible apply countUnmapped_memOk | with_reducible apply writeMem_memOk | split | dsimp +zetaDelta only)

end Sys2Proof.Machine
end

