-- ==== Sys2Proof/Laws/MemOkSessions.lean ====
section
/-! SUPPORT. Every operation of Machine/Sessions.lean keeps memory in its canonical form. -/

namespace Sys2Proof.Machine

open Sys2Proof

theorem dropStage_memOk : ∀ x0 x1, memOk x1 → memOk (dropStage x0 x1) := by
  intros; unfold dropStage; repeat' (first | with_reducible assumption | intro _ | extract_lets | with_reducible apply livePause_memOk | with_reducible apply resumeIntake_memOk | with_reducible apply State_setIcp_memOk | split | dsimp +zetaDelta only)

theorem endSession_memOk : ∀ x0 x1, memOk x1 → memOk (endSession x0 x1) := by
  intros; unfold endSession; repeat' (first | with_reducible assumption | with_reducible apply State_setIcp_memOk | with_reducible apply updFn_memOk | with_reducible apply dropStage_memOk | split)

theorem openSession_memOk : ∀ x0 x1 x2, memOk x2 → Res.Ok (openSession x0 x1 x2) := by
  intros; unfold openSession; repeat' (first | with_reducible assumption | with_reducible apply drawn_memOk | with_reducible apply State_setIcp_memOk | with_reducible apply updFn_memOk | with_reducible apply Res_ok_memOk | split | dsimp +zetaDelta only)

theorem helloNow_memOk : ∀ x0 x1, memOk x1 → Res.Ok (helloNow x0 x1) := by
  intros; unfold helloNow; repeat' (first | with_reducible assumption | with_reducible apply Res.ok_reply | with_reducible apply endSession_memOk | with_reducible apply Res_rej_memOk | with_reducible apply openSession_memOk | split | dsimp +zetaDelta only)

theorem hHello_memOk : ∀ x0 x1, memOk x1 → Res.Ok (hHello x0 x1) := by
  intros; unfold hHello; repeat' (first | with_reducible assumption | intro _ | extract_lets | with_reducible apply Res.ok_reply | with_reducible apply Res.ok_later | with_reducible apply helloNow_memOk | with_reducible apply addWait_memOk | with_reducible apply Res_rej_memOk | split | dsimp +zetaDelta only | (refine Res.get_reply (by assumption) ?_) | (refine Res.get_later (by assumption) ?_))

theorem goodbyeNow_memOk : ∀ x0 x1 x2, memOk x2 → memOk (goodbyeNow x0 x1 x2) := by
  intros; unfold goodbyeNow; repeat' (first | with_reducible assumption | with_reducible apply dropStage_memOk | with_reducible apply endSession_memOk | with_reducible apply sendReply_memOk)

theorem hGoodbye_memOk : ∀ x0 x1, memOk x1 → Res.Ok (hGoodbye x0 x1) := by
  intros; unfold hGoodbye; repeat' (first | with_reducible assumption | with_reducible apply Res.ok_later | with_reducible apply goodbyeNow_memOk | with_reducible apply addWait_memOk | split)

theorem hFlush_memOk : ∀ x0 x1, memOk x1 → Res.Ok (hFlush x0 x1) := by
  intros; unfold hFlush; repeat' (first | with_reducible assumption | extract_lets | with_reducible apply Res.ok_later | with_reducible apply Res_ok_memOk | with_reducible apply addWait_memOk | split)

theorem hLeaseRenew_memOk : ∀ x0 x1, memOk x1 → Res.Ok (hLeaseRenew x0 x1) := by
  intros; unfold hLeaseRenew; repeat' (first | with_reducible assumption | with_reducible apply Res_ok_memOk | with_reducible apply updFn_memOk)

theorem execManagementSessionIdle_memOk : ∀ x0 x1, memOk x1 → OutOk (execManagementSessionIdle x0 x1) := by
  intros; unfold execManagementSessionIdle; repeat' (first | with_reducible assumption | with_reducible apply OutOk.mk | with_reducible apply endSession_memOk | split)

theorem hGetIdentity_memOk : ∀ x0 x1, memOk x1 → Res.Ok (hGetIdentity x0 x1) := by
  intros; unfold hGetIdentity; repeat' (first | with_reducible assumption | with_reducible apply Res_ok_memOk)

end Sys2Proof.Machine
end

