-- ==== Sys2Proof/Laws/MemOkStartup.lean ====
section
/-! SUPPORT. Every operation of Machine/Startup.lean keeps memory in its canonical form. -/

namespace Sys2Proof.Machine

open Sys2Proof

theorem bootWrite_memOk : ∀ x0 x1, memOk x1 → memOk (bootWrite x0 x1) := by
  intros; unfold bootWrite; repeat' (first | with_reducible assumption | with_reducible apply emit_memOk | with_reducible apply State_setBoot_memOk)

theorem setFlashSlot_memOk : ∀ x0 x1 x2, memOk x2 → memOk (setFlashSlot x0 x1 x2) := by
  intros; unfold setFlashSlot; repeat' (first | with_reducible assumption | with_reducible apply State_setBoot_memOk)

theorem updRecord_memOk : ∀ x0 x1, memOk x1 → memOk (updRecord x0 x1) := by
  intros; unfold updRecord; repeat' (first | with_reducible assumption | with_reducible apply State_setBoot_memOk)

theorem failStart_memOk : ∀ x0 x1, memOk x1 → memOk (failStart x0 x1) := by
  intros; unfold failStart; repeat' (first | with_reducible assumption | with_reducible apply updRecord_memOk)

theorem interruptStart_memOk : ∀ x0 x1, memOk x1 → memOk (interruptStart x0 x1) := by
  intros; unfold interruptStart; repeat' (first | with_reducible assumption | with_reducible apply failStart_memOk | with_reducible apply updRecord_memOk | split)

theorem keepFat_memOk : ∀ x0, memOk x0 → memOk (keepFat x0) := by
  intros; unfold keepFat; repeat' (first | with_reducible assumption | with_reducible apply State_setBoot_memOk | split)

theorem enterFooting_memOk : ∀ x0 x1, memOk x1 → memOk (enterFooting x0 x1) := by
  intros; unfold enterFooting; repeat' (first | with_reducible assumption | with_reducible apply updRecord_memOk | with_reducible apply State_setBoot_memOk)

theorem beginStart_memOk : ∀ x0 x1 x2, memOk x2 → memOk (beginStart x0 x1 x2) := by
  intros; unfold beginStart; repeat' (first | with_reducible assumption | extract_lets | with_reducible apply State_setBoot_memOk | with_reducible apply enterFooting_memOk | with_reducible apply bootWrite_memOk | with_reducible apply failStart_memOk | split)

theorem footingHold_memOk : ∀ x0, memOk x0 → memOk (footingHold x0) := by
  intros; unfold footingHold; repeat' (first | with_reducible assumption | with_reducible apply State_setMem_memOk | (with_reducible show Memory.wf _ = true; first | refine memOk_cells ?_ | (refine Memory.wf_memPutBytes _ _ ?_) | (refine Memory.wf_memZero _ _ ?_) | (refine Memory.wf_memPut _ _ ?_) | (refine Memory.wf_memCopy _ _ _ ?_) | (refine Memory.wf_filter _ ?_) | exact Memory.wf_nil) | split)

theorem releasePins_memOk : ∀ x0, memOk x0 → memOk (releasePins x0) := by
  intros; unfold releasePins; repeat' (first | with_reducible assumption | intro _ | extract_lets | with_reducible apply emit_memOk | split | dsimp +zetaDelta only)

theorem coldState_memOk : ∀ x0 x1 x2 x3 x4 x5, memOk x5 → memOk (coldState x0 x1 x2 x3 x4 x5) := fun _ _ _ _ _ _ _ => Memory.wf_nil

theorem execColdReset_memOk : ∀ x0 x1 x2 x3 x4 x5 x6 x7, memOk x7 → OutOk (execColdReset x0 x1 x2 x3 x4 x5 x6 x7) := by
  intros; unfold execColdReset; repeat' (first | with_reducible assumption | intro _ | extract_lets | with_reducible apply OutOk.mk | with_reducible apply releasePins_memOk | with_reducible apply keepFat_memOk | with_reducible apply interruptStart_memOk | with_reducible apply mirrorFences_memOk | with_reducible apply coldState_memOk | with_reducible apply State_setCourse_memOk | with_reducible apply loadUnits_memOk | with_reducible apply State_setSec_memOk | with_reducible apply driveAlert_memOk | with_reducible apply storageStart_memOk | with_reducible apply footingHold_memOk | with_reducible apply beginStart_memOk | split | dsimp +zetaDelta only)

theorem warmState_memOk : ∀ x0, memOk x0 → memOk (warmState x0) := fun s h => Memory.wf_filter _ (show Memory.wf s.mem.cells = true from h)

theorem execWarmReset_memOk : ∀ x0 x1 x2, memOk x2 → OutOk (execWarmReset x0 x1 x2) := by
  intros; unfold execWarmReset; repeat' (first | with_reducible assumption | with_reducible apply OutOk.mk | with_reducible apply warmState_memOk | with_reducible apply keepFat_memOk | with_reducible apply interruptStart_memOk | with_reducible apply releaseFault_memOk | with_reducible apply driveAlert_memOk | with_reducible apply storageStart_memOk | with_reducible apply footingHold_memOk | with_reducible apply beginStart_memOk | split)

theorem startImage_memOk : ∀ x0 x1 x2, memOk x2 → memOk (startImage x0 x1 x2) := by
  intros; unfold startImage; repeat' (first | with_reducible assumption | with_reducible apply deriveIdentity_memOk | with_reducible apply updRecord_memOk | with_reducible apply State_setBoot_memOk)

theorem failSlot_memOk : ∀ x0 x1 x2, memOk x2 → memOk (failSlot x0 x1 x2) := by
  intros; unfold failSlot; repeat' (first | with_reducible assumption | with_reducible apply bootWrite_memOk | with_reducible apply State_setBoot_memOk)

theorem tryImages_memOk : ∀ x0 x1 x2, memOk x2 → memOk (tryImages x0 x1 x2) := by
  intro x0 x1 x2; fun_induction tryImages x0 x1 x2 <;> repeat' (first | intro _ | with_reducible apply startImage_memOk | with_reducible apply_assumption)

theorem execImageVerified_memOk : ∀ x0 x1, memOk x1 → OutOk (execImageVerified x0 x1) := by
  intros; unfold execImageVerified; repeat' (first | with_reducible assumption | with_reducible apply OutOk.mk | with_reducible apply tryImages_memOk | split)

theorem execNetworkFetchTimeout_memOk : ∀ x0, memOk x0 → OutOk (execNetworkFetchTimeout x0) := by
  intros; unfold execNetworkFetchTimeout; repeat' (first | with_reducible assumption | with_reducible apply OutOk.mk | with_reducible apply failStart_memOk | with_reducible apply State_setBoot_memOk | split)

theorem burnFuses_memOk : ∀ x0, memOk x0 → memOk (burnFuses x0) := by
  intros; unfold burnFuses; repeat' (first | with_reducible assumption | with_reducible apply State_setSec_memOk)

theorem ringsReady_memOk : ∀ x0, memOk x0 → memOk (ringsReady x0) := by
  intros; unfold ringsReady; repeat' (first | with_reducible assumption | intro _ | with_reducible apply setRing_memOk | with_reducible apply memOk_foldl | split)

theorem execStartComplete_memOk : ∀ x0, memOk x0 → OutOk (execStartComplete x0) := by
  intros; unfold execStartComplete; repeat' (first | with_reducible assumption | with_reducible apply OutOk.mk | with_reducible apply updRecord_memOk | with_reducible apply bootWrite_memOk | with_reducible apply burnFuses_memOk | with_reducible apply ringsReady_memOk | with_reducible apply State_setBoot_memOk | split | dsimp +zetaDelta only)

theorem execStartWatchdogExpiry_memOk : ∀ x0, memOk x0 → OutOk (execStartWatchdogExpiry x0) := by
  intros; unfold execStartWatchdogExpiry; repeat' (first | with_reducible assumption | with_reducible apply OutOk.mk | with_reducible apply interruptStart_memOk | with_reducible apply State_setBoot_memOk | split)

theorem startCtl_memOk : ∀ x0 x1 x2, memOk x2 → memOk (startCtl x0 x1 x2) := by
  intros; unfold startCtl; repeat' (first | with_reducible assumption | with_reducible apply countUnmapped_memOk | with_reducible apply bootWrite_memOk | with_reducible apply setCell_memOk | split)

theorem execGlStartCtlWrite_memOk : ∀ x0 x1 x2, memOk x2 → OutOk (execGlStartCtlWrite x0 x1 x2) := by
  intros; unfold execGlStartCtlWrite; repeat' (first | with_reducible assumption | with_reducible apply OutOk.mk | with_reducible apply startCtl_memOk)

theorem hFwStage_memOk : ∀ x0 x1, memOk x1 → Res.Ok (hFwStage x0 x1) := by
  intros; unfold hFwStage; repeat' (first | with_reducible assumption | intro _ | extract_lets | with_reducible apply Res.ok_reply | with_reducible apply checked_memOk | with_reducible apply setFlashSlot_memOk | with_reducible apply bootWrite_memOk | with_reducible apply Res_ok_memOk | split | dsimp +zetaDelta only)

theorem writePending_memOk : ∀ x0 x1 x2, memOk x2 → memOk (writePending x0 x1 x2) := by
  intros; unfold writePending; repeat' (first | with_reducible assumption | with_reducible apply bootWrite_memOk)

theorem actOutcome_memOk : ∀ x0 x1 x2 x3 x4, memOk x4 → memOk (actOutcome x0 x1 x2 x3 x4) := by
  intros; unfold actOutcome; repeat' (first | with_reducible assumption | with_reducible apply State_setBoot_memOk)

theorem deferAct_memOk : ∀ x0 x1 x2 x3, memOk x3 → Res.Ok (deferAct x0 x1 x2 x3) := by
  intros; unfold deferAct; repeat' (first | with_reducible assumption | with_reducible apply Res.ok_later | with_reducible apply postReply_memOk | with_reducible apply State_setBoot_memOk | with_reducible apply addWait_memOk)

theorem hFwActivate_memOk : ∀ x0 x1 x2, memOk x2 → Res.Ok (hFwActivate x0 x1 x2) := by
  intros; unfold hFwActivate; repeat' (first | with_reducible assumption | with_reducible apply Res.ok_later | with_reducible apply checked_memOk | with_reducible apply actOutcome_memOk | with_reducible apply writePending_memOk | with_reducible apply Res_ok_memOk | with_reducible apply State_setBoot_memOk | with_reducible apply livePause_memOk | with_reducible apply addWait_memOk | with_reducible apply deferAct_memOk | split)

theorem finishAct_memOk : ∀ x0 x1 x2 x3, memOk x3 → memOk (finishAct x0 x1 x2 x3) := by
  intros; unfold finishAct; repeat' (first | with_reducible assumption | with_reducible apply finishWait_memOk | split)

theorem execActivationRetry_memOk : ∀ x0, memOk x0 → OutOk (execActivationRetry x0) := by
  intros; unfold execActivationRetry; repeat' (first | with_reducible assumption | intro _ | extract_lets | with_reducible apply OutOk.mk | with_reducible apply State_setBoot_memOk | with_reducible apply actOutcome_memOk | with_reducible apply writePending_memOk | with_reducible apply finishAct_memOk | with_reducible apply livePause_memOk | split | dsimp +zetaDelta only)

theorem execActivationDeferExpiry_memOk : ∀ x0, memOk x0 → OutOk (execActivationDeferExpiry x0) := by
  intros; unfold execActivationDeferExpiry; repeat' (first | with_reducible assumption | with_reducible apply OutOk.mk | with_reducible apply actOutcome_memOk | with_reducible apply State_setBoot_memOk | with_reducible apply finishAct_memOk | split)

theorem liveResume_memOk : ∀ x0 x1, memOk x1 → memOk (liveResume x0 x1) := by
  intros; unfold liveResume; repeat' (first | with_reducible assumption | intro _ | with_reducible apply bootWrite_memOk | with_reducible apply State_setBoot_memOk | with_reducible apply State_setIcp_memOk | with_reducible apply State_setFns_memOk | with_reducible apply endSession_memOk | with_reducible apply finishAct_memOk | with_reducible apply actOutcome_memOk | with_reducible apply memOk_foldl)

theorem hFwQuery_memOk : ∀ x0 x1, memOk x1 → Res.Ok (hFwQuery x0 x1) := by
  intros; unfold hFwQuery; repeat' (first | with_reducible assumption | with_reducible apply Res_ok_memOk)

theorem hGetStartReport_memOk : ∀ x0 x1, memOk x1 → Res.Ok (hGetStartReport x0 x1) := by
  intros; unfold hGetStartReport; repeat' (first | with_reducible assumption | with_reducible apply Res_ok_memOk)

theorem hDiagRun_memOk : ∀ x0 x1 x2, memOk x2 → Res.Ok (hDiagRun x0 x1 x2) := by
  intros; unfold hDiagRun; repeat' (first | with_reducible assumption | with_reducible apply checked_memOk | with_reducible apply drawn_memOk | with_reducible apply State_setIcp_memOk | with_reducible apply spareOutCluster_memOk | with_reducible apply Res_ok_memOk | split | dsimp +zetaDelta only)

theorem execDiagRunEnd_memOk : ∀ x0 x1, memOk x1 → OutOk (execDiagRunEnd x0 x1) := by
  intros; unfold execDiagRunEnd; repeat' (first | with_reducible assumption | intro _ | extract_lets | with_reducible apply OutOk.mk | with_reducible apply State_setIcp_memOk | with_reducible apply State_setDraw_memOk | split | dsimp +zetaDelta only)

theorem hDiagResult_memOk : ∀ x0 x1, memOk x1 → Res.Ok (hDiagResult x0 x1) := by
  intros; unfold hDiagResult; repeat' (first | with_reducible assumption | with_reducible apply Res_rej_memOk | with_reducible apply Res_ok_memOk | split)

theorem execStewardCoreFailed_memOk : ∀ x0 x1, memOk x1 → OutOk (execStewardCoreFailed x0 x1) := by
  intros; unfold execStewardCoreFailed; repeat' (first | with_reducible assumption | extract_lets | with_reducible apply OutOk.mk | with_reducible apply State_setBoot_memOk | with_reducible apply logSpare_memOk | with_reducible apply recordFat_memOk | split)

theorem dropJobs_memOk : ∀ x0 x1, memOk x1 → memOk (dropJobs x0 x1) := by
  intros; unfold dropJobs; repeat' (first | with_reducible assumption | extract_lets | with_reducible apply State_setMason_memOk)

theorem failDesc_memOk : ∀ x0 x1 x2 x3 x4, memOk x4 → memOk (failDesc x0 x1 x2 x3 x4) := by
  intros; unfold failDesc; repeat' (first | with_reducible assumption | intro _ | with_reducible apply dropJobs_memOk | with_reducible apply updCqp_memOk | with_reducible apply postCqe_memOk | split)

theorem crossDesc_memOk : ∀ x0 x1 x2, memOk x2 → memOk (crossDesc x0 x1 x2) := by
  intros; unfold crossDesc; repeat' (first | with_reducible assumption | with_reducible apply drawn_memOk | with_reducible apply failDesc_memOk | split)

theorem crossFrame_memOk : ∀ x0 x1 x2 x3, memOk x3 → memOk (crossFrame x0 x1 x2 x3) := by
  intros; unfold crossFrame; repeat' (first | with_reducible assumption | intro _ | extract_lets | with_reducible apply updSub_memOk | with_reducible apply txDone_memOk | with_reducible apply drawn_memOk | with_reducible apply bumpEn_memOk | split | dsimp +zetaDelta only)

theorem crossLost_memOk : ∀ x0 x1, memOk x1 → memOk (crossLost x0 x1) := by
  intros; unfold crossLost; repeat' (first | with_reducible assumption | intro _ | extract_lets | with_reducible apply crossDesc_memOk | with_reducible apply finishWait_memOk | with_reducible apply endOp_memOk | with_reducible apply crossFrame_memOk | split | dsimp +zetaDelta only)

theorem crossCluster_memOk : ∀ x0 x1 x2, memOk x2 → memOk (crossCluster x0 x1 x2) := by
  intros; unfold crossCluster; repeat' (first | with_reducible assumption | intro _ | extract_lets | with_reducible apply spareOutCluster_memOk | split | dsimp +zetaDelta only)

theorem crossCon_memOk : ∀ x0 x1 x2 x3, memOk x3 → memOk (crossCon x0 x1 x2 x3) := by
  intros; unfold crossCon; repeat' (first | with_reducible assumption | with_reducible apply sparingCon_memOk | with_reducible apply recordCon_memOk | split)

theorem crossNoted_memOk : ∀ x0 x1 x2, memOk x2 → memOk (crossNoted x0 x1 x2) := fun _ _ _ h => h

theorem crossSwitched_memOk : ∀ x0 x1, memOk x1 → memOk (crossSwitched x0 x1) := fun _ _ h => h

theorem execCrossingMismatch_memOk : ∀ x0 x1 x2, memOk x2 → OutOk (execCrossingMismatch x0 x1 x2) := by
  intros; unfold execCrossingMismatch; repeat' (first | with_reducible assumption | with_reducible apply crossCon_memOk | with_reducible apply crossNoted_memOk | with_reducible apply crossSwitched_memOk | with_reducible apply ackSpare_memOk | intro _ | extract_lets | with_reducible apply OutOk.mk | with_reducible apply settle_memOk | with_reducible apply stoSettle_memOk | with_reducible apply crossLost_memOk | with_reducible apply crossCluster_memOk | with_reducible apply recordCon_memOk | with_reducible apply State_setMem_memOk | with_reducible apply logSpare_memOk | with_reducible apply memOk_foldl | with_reducible apply memOk_foldl_fst | with_reducible apply memOk_foldl_snd | (with_reducible show Memory.wf _ = true; first | refine memOk_cells ?_ | (refine Memory.wf_memPutBytes _ _ ?_) | (refine Memory.wf_memZero _ _ ?_) | (refine Memory.wf_memPut _ _ ?_) | (refine Memory.wf_memCopy _ _ _ ?_) | (refine Memory.wf_filter _ ?_) | exact Memory.wf_nil) | split | dsimp +zetaDelta only)

end Sys2Proof.Machine
end

