-- ==== Sys2Proof/Laws/MemOkPowerCmds.lean ====
section
/-! SUPPORT. Every operation of Machine/PowerCmds.lean keeps memory in its canonical form. -/

namespace Sys2Proof.Machine

open Sys2Proof

theorem requestVolts_memOk : ∀ x0, memOk x0 → memOk (requestVolts x0) := by
  intros; unfold requestVolts; repeat' (first | with_reducible assumption | with_reducible apply State_setPwr_memOk)

theorem fwPoint_memOk : ∀ x0 x1 x2, memOk x2 → memOk (fwPoint x0 x1 x2) := by
  intros; unfold fwPoint; repeat' (first | with_reducible assumption | with_reducible apply updIsland_memOk)

theorem shedClusters_memOk : ∀ x0 x1 x2 x3, memOk x3 → memOk (shedClusters x0 x1 x2 x3) := by
  intros; unfold shedClusters; repeat' (first | with_reducible assumption | intro _ | extract_lets | with_reducible apply updIsland_memOk | with_reducible apply logPolicy_memOk | with_reducible apply fwPoint_memOk | with_reducible apply State_setPwr_memOk | with_reducible apply memOk_foldl | split)

theorem shedEngines_memOk : ∀ x0, memOk x0 → memOk (shedEngines x0) := by
  intros; unfold shedEngines; repeat' (first | with_reducible assumption | intro _ | extract_lets | with_reducible apply drawn_memOk | with_reducible apply logPolicy_memOk | with_reducible apply updIsland_memOk | with_reducible apply memOk_foldl | split)

theorem capRelax_memOk : ∀ x0 x1, memOk x0 → memOk (capRelax x0 x1) := by
  intros; unfold capRelax; repeat' (first | with_reducible assumption | intro _ | extract_lets | with_reducible apply logPolicy_memOk | with_reducible apply updIsland_memOk | with_reducible apply memOk_foldl | with_reducible apply memOk_foldl_fst | with_reducible apply memOk_foldl_snd | split | dsimp +zetaDelta only)

theorem limiterPenalty_memOk : ∀ x0, memOk x0 → memOk (limiterPenalty x0) := by
  intros; unfold limiterPenalty; repeat' (first | with_reducible assumption | intro _ | with_reducible apply logPolicy_memOk | with_reducible apply fwPoint_memOk | with_reducible apply memOk_foldl | split)

theorem applyCap_memOk : ∀ x0, memOk x0 → memOk (applyCap x0) := by
  intros; unfold applyCap; repeat' (first | with_reducible assumption | with_reducible apply logPolicy_memOk | with_reducible apply State_setPwr_memOk | split)

theorem noteHottest_memOk : ∀ x0 x1, memOk x1 → memOk (noteHottest x0 x1) := by
  intros; unfold noteHottest; repeat' (first | with_reducible assumption | with_reducible apply State_setPwr_memOk | split)

theorem execPackagePowerLoop_memOk : ∀ x0 x1 x2, memOk x2 → OutOk (execPackagePowerLoop x0 x1 x2) := by
  intros; unfold execPackagePowerLoop; repeat' (first | with_reducible assumption | with_reducible apply OutOk.mk | with_reducible apply State_setPwr_memOk | with_reducible apply noteHottest_memOk | with_reducible apply applyCap_memOk | with_reducible apply limiterPenalty_memOk | with_reducible apply shedClusters_memOk | with_reducible apply shedEngines_memOk | with_reducible apply logPolicy_memOk | with_reducible apply capRelax_memOk | with_reducible apply driveAlert_memOk | with_reducible apply requestVolts_memOk | split | dsimp +zetaDelta only)

theorem lowerCeiling_memOk : ∀ x0 x1, memOk x1 → memOk (lowerCeiling x0 x1) := by
  intros; unfold lowerCeiling; repeat' (first | with_reducible assumption | extract_lets | with_reducible apply updIsland_memOk | with_reducible apply logPolicy_memOk | with_reducible apply fwPoint_memOk | with_reducible apply drawn_memOk | split)

theorem raiseCeiling_memOk : ∀ x0 x1, memOk x1 → memOk (raiseCeiling x0 x1) := by
  intros; unfold raiseCeiling; repeat' (first | with_reducible assumption | intro _ | extract_lets | with_reducible apply updIsland_memOk | with_reducible apply logPolicy_memOk | with_reducible apply drawn_memOk | split | dsimp +zetaDelta only)

theorem tempSample_memOk : ∀ x0 x1, memOk x0 → memOk (tempSample x0 x1) := by
  intros; unfold tempSample; repeat' (first | with_reducible assumption | with_reducible apply lowerCeiling_memOk | with_reducible apply raiseCeiling_memOk | with_reducible apply updIsland_memOk | split)

theorem execTemperatureLoop_memOk : ∀ x0 x1, memOk x1 → OutOk (execTemperatureLoop x0 x1) := by
  intros; unfold execTemperatureLoop; repeat' (first | with_reducible assumption | with_reducible apply OutOk.mk | with_reducible apply noteHottest_memOk | with_reducible apply warn_memOk | with_reducible apply requestVolts_memOk | with_reducible apply tempSample_memOk | with_reducible apply memOk_foldl | split | dsimp +zetaDelta only)

theorem execDvfsGovernor_memOk : ∀ x0 x1 x2, memOk x2 → OutOk (execDvfsGovernor x0 x1 x2) := by
  intros; unfold execDvfsGovernor; repeat' (first | with_reducible assumption | with_reducible apply OutOk.mk | with_reducible apply fwPoint_memOk | with_reducible apply updIsland_memOk | with_reducible apply logPolicy_memOk | with_reducible apply driveAlert_memOk | with_reducible apply requestVolts_memOk | split | dsimp +zetaDelta only)

theorem throttleStep_memOk : ∀ x0 x1, memOk x1 → memOk (throttleStep x0 x1) := by
  intros; unfold throttleStep; repeat' (first | with_reducible assumption | with_reducible apply updIsland_memOk | split)

theorem execThermalThrottle_memOk : ∀ x0 x1, memOk x1 → OutOk (execThermalThrottle x0 x1) := by
  intros; unfold execThermalThrottle; repeat' (first | with_reducible assumption | with_reducible apply OutOk.mk | with_reducible apply bump_memOk | with_reducible apply driveAlert_memOk | with_reducible apply throttleStep_memOk | with_reducible apply updIsland_memOk | split | dsimp +zetaDelta only)

theorem execHardwareThrottleStep_memOk : ∀ x0 x1 x2, memOk x2 → OutOk (execHardwareThrottleStep x0 x1 x2) := by
  intros; unfold execHardwareThrottleStep; repeat' (first | with_reducible assumption | with_reducible apply OutOk.mk | with_reducible apply updIsland_memOk | with_reducible apply throttleStep_memOk | split)

theorem execThermalTrip_memOk : ∀ x0 x1, memOk x1 → OutOk (execThermalTrip x0 x1) := by
  intros; unfold execThermalTrip; repeat' (first | with_reducible assumption | with_reducible apply OutOk.mk | with_reducible apply emit_memOk | with_reducible apply State_setPwr_memOk | split)

theorem execCurrentLimiterEngage_memOk : ∀ x0, memOk x0 → OutOk (execCurrentLimiterEngage x0) := by
  intros; unfold execCurrentLimiterEngage; repeat' (first | with_reducible assumption | with_reducible apply OutOk.mk | with_reducible apply driveAlert_memOk | with_reducible apply bump_memOk | with_reducible apply State_setPwr_memOk | split)

theorem execCurrentLimiterRelease_memOk : ∀ x0, memOk x0 → OutOk (execCurrentLimiterRelease x0) := by
  intros; unfold execCurrentLimiterRelease; repeat' (first | with_reducible assumption | with_reducible apply OutOk.mk | with_reducible apply driveAlert_memOk | with_reducible apply State_setPwr_memOk)

theorem execDiodeRead_memOk : ∀ x0 x1 x2, memOk x2 → OutOk (execDiodeRead x0 x1 x2) := by
  intros; unfold execDiodeRead; repeat' (first | with_reducible assumption | with_reducible apply OutOk.mk | with_reducible apply warn_memOk | with_reducible apply State_setPwr_memOk | split | dsimp +zetaDelta only)

theorem setThrottle_memOk : ∀ x0 x1, memOk x1 → memOk (setThrottle x0 x1) := by
  intros; unfold setThrottle; repeat' (first | with_reducible assumption | intro _ | extract_lets | with_reducible apply State_setPins_memOk | with_reducible apply updIsland_memOk | with_reducible apply logPolicy_memOk | with_reducible apply State_setPwr_memOk | with_reducible apply memOk_foldl | split)

theorem execThrottleN_memOk : ∀ x0 x1, memOk x1 → OutOk (execThrottleN x0 x1) := by
  intros; unfold execThrottleN; repeat' (first | with_reducible assumption | with_reducible apply OutOk.mk | with_reducible apply setThrottle_memOk | split)

theorem execFallbackGovernorTakeover_memOk : ∀ x0, memOk x0 → OutOk (execFallbackGovernorTakeover x0) := by
  intros; unfold execFallbackGovernorTakeover; repeat' (first | with_reducible assumption | with_reducible apply OutOk.mk | with_reducible apply driveAlert_memOk | with_reducible apply takeFallback_memOk | split)

theorem execFallbackGovernorTick_memOk : ∀ x0 x1, memOk x1 → OutOk (execFallbackGovernorTick x0 x1) := by
  intros; unfold execFallbackGovernorTick; repeat' (first | with_reducible assumption | intro _ | extract_lets | with_reducible apply OutOk.mk | with_reducible apply State_setPwr_memOk | with_reducible apply updIsland_memOk | with_reducible apply memOk_foldl | split)

theorem execStandbyEntry_memOk : ∀ x0, memOk x0 → OutOk (execStandbyEntry x0) := by
  intros; unfold execStandbyEntry; repeat' (first | with_reducible assumption | with_reducible apply OutOk.mk | with_reducible apply driveAlert_memOk | with_reducible apply State_setPwr_memOk | split)

theorem hPowerCapSet_memOk : ∀ x0 x1, memOk x1 → Res.Ok (hPowerCapSet x0 x1) := by
  intros; unfold hPowerCapSet; repeat' (first | with_reducible assumption | with_reducible apply State_setPwr_memOk | with_reducible apply emit_memOk | with_reducible apply Res_ok_memOk | split | dsimp +zetaDelta only)

theorem hGetStraps_memOk : ∀ x0 x1, memOk x1 → Res.Ok (hGetStraps x0 x1) := by
  intros; unfold hGetStraps; repeat' (first | with_reducible assumption | with_reducible apply Res_ok_memOk)

theorem hStrapOverride_memOk : ∀ x0 x1, memOk x1 → Res.Ok (hStrapOverride x0 x1) := by
  intros; unfold hStrapOverride; repeat' (first | with_reducible assumption | with_reducible apply checked_memOk | with_reducible apply emit_memOk | with_reducible apply State_setPins_memOk | with_reducible apply bootWrite_memOk | with_reducible apply Res_ok_memOk | split | dsimp +zetaDelta only)

theorem setInput_memOk : ∀ x0 x1 x2, memOk x2 → memOk (setInput x0 x1 x2) := by
  intros; unfold setInput; repeat' (first | with_reducible assumption | with_reducible apply State_setPins_memOk)

theorem inputEffect_memOk : ∀ x0 x1 x2, memOk x2 → memOk (inputEffect x0 x1 x2) := by
  intros; unfold inputEffect; repeat' (first | with_reducible assumption | with_reducible apply hostReset_memOk | with_reducible apply hostRelease_memOk | with_reducible apply setTamper_memOk | with_reducible apply setThrottle_memOk | split)

theorem settleInput_memOk : ∀ x0 x1 x2, memOk x2 → memOk (settleInput x0 x1 x2) := by
  intros; unfold settleInput; repeat' (first | with_reducible assumption | extract_lets | with_reducible apply setInput_memOk | with_reducible apply inputEffect_memOk | split)

theorem execInputChange_memOk : ∀ x0 x1 x2, memOk x2 → OutOk (execInputChange x0 x1 x2) := by
  intros; unfold execInputChange; repeat' (first | with_reducible assumption | with_reducible apply OutOk.mk | with_reducible apply bump_memOk | with_reducible apply setInput_memOk | with_reducible apply settleInput_memOk | split)

theorem execInputRateReread_memOk : ∀ x0 x1 x2, memOk x2 → OutOk (execInputRateReread x0 x1 x2) := by
  intros; unfold execInputRateReread; repeat' (first | with_reducible assumption | with_reducible apply OutOk.mk | with_reducible apply settleInput_memOk | split)

theorem execInputStuck_memOk : ∀ x0 x1, memOk x1 → OutOk (execInputStuck x0 x1) := by
  intros; unfold execInputStuck; repeat' (first | with_reducible assumption | with_reducible apply OutOk.mk | with_reducible apply logPolicy_memOk | with_reducible apply setInput_memOk | split)

theorem execInputUnstuck_memOk : ∀ x0 x1, memOk x1 → OutOk (execInputUnstuck x0 x1) := by
  intros; unfold execInputUnstuck; repeat' (first | with_reducible assumption | with_reducible apply OutOk.mk | with_reducible apply setInput_memOk | split)

theorem execInputGlitch_memOk : ∀ x0 x1, memOk x1 → OutOk (execInputGlitch x0 x1) := by
  intros; unfold execInputGlitch; repeat' (first | with_reducible assumption | with_reducible apply OutOk.mk | with_reducible apply bump_memOk | split)

theorem execPadContention_memOk : ∀ x0 x1, memOk x1 → OutOk (execPadContention x0 x1) := by
  intros; unfold execPadContention; repeat' (first | with_reducible assumption | with_reducible apply OutOk.mk | with_reducible apply setCell_memOk | with_reducible apply bump_memOk | split)

theorem execPwrOkFall_memOk : ∀ x0, memOk x0 → OutOk (execPwrOkFall x0) := by
  intros; unfold execPwrOkFall; repeat' (first | with_reducible assumption | with_reducible apply OutOk.mk | with_reducible apply releasePins_memOk | with_reducible apply State_setBoot_memOk | split)

end Sys2Proof.Machine
end

