-- ==== Sys2Proof/Laws/MemOkStaging.lean ====
section
/-! SUPPORT. Every operation of Machine/Staging.lean keeps memory in its canonical form. -/

namespace Sys2Proof.Machine

open Sys2Proof

theorem setPolicy_memOk : ∀ x0 x1 x2 x3 x4 x5, memOk x5 → memOk (setPolicy x0 x1 x2 x3 x4 x5) := by
  intros; unfold setPolicy; repeat' (first | with_reducible assumption | with_reducible apply setTierQuantity_memOk | with_reducible apply setCell_memOk | with_reducible apply State_setCourse_memOk | with_reducible apply State_setTel_memOk | split)

theorem hPolicySet_memOk : ∀ x0 x1, memOk x1 → Res.Ok (hPolicySet x0 x1) := by
  intros; unfold hPolicySet; repeat' (first | with_reducible assumption | with_reducible apply checked_memOk | with_reducible apply Ctx_okEcho_memOk | with_reducible apply setPolicy_memOk)

theorem stageHandler_memOk : ∀ x0 x1 x2, memOk x2 → Res.Ok (stageHandler x0 x1 x2) := by
  intros; unfold stageHandler; repeat' (first | with_reducible assumption | with_reducible apply hParseNodeWrite_memOk | with_reducible apply hClsEntryWrite_memOk | with_reducible apply hIndirectionWrite_memOk | with_reducible apply hShaperSet_memOk | with_reducible apply hPolicerSet_memOk | with_reducible apply hGateListSet_memOk | with_reducible apply hCoursePolicySet_memOk | with_reducible apply hTableCapturePolicy_memOk | with_reducible apply hPolicySet_memOk | split)

theorem runStaged_memOk : ∀ x0 x1 x2 x3, memOk x3 → Res.Ok (runStaged x0 x1 x2 x3) := by
  intros; unfold runStaged; repeat' (first | with_reducible assumption | extract_lets | with_reducible apply Res_rej_memOk | with_reducible apply stageHandler_memOk | split)

theorem direct_memOk : ∀ x0 x1 x2, memOk x2 → Res.Ok (direct x0 x1 x2) := by
  intros; unfold direct; repeat' (first | with_reducible assumption | with_reducible apply stageHandler_memOk | with_reducible apply Res_rej_memOk | split | (refine Res.get_reply (by assumption) ?_))

theorem hCfgStage_memOk : ∀ x0 x1, memOk x1 → Res.Ok (hCfgStage x0 x1) := by
  intros; unfold hCfgStage; repeat' (first | with_reducible assumption | intro _ | with_reducible apply runStaged_memOk | extract_lets | with_reducible apply checked_memOk | with_reducible apply Res_rej_memOk | with_reducible apply Res_ok_memOk | with_reducible apply State_setIcp_memOk | split | dsimp +zetaDelta only)

theorem runCommit_memOk : ∀ x0 x1 x2 x3 x4, memOk x4 → Res.Ok (runCommit x0 x1 x2 x3 x4) := by
  intros; unfold runCommit; repeat' (first | with_reducible assumption | intro _ | extract_lets | with_reducible apply Res.ok_reply | with_reducible apply Res.ok_later | with_reducible apply hCoursePolicy_memOk | with_reducible apply hCapturePolicy_memOk | with_reducible apply runStaged_memOk | split | dsimp +zetaDelta only | (refine Res.get_reply (by assumption) ?_) | (refine Res.get_later (by assumption) ?_))

theorem applyStage_memOk : ∀ x0 x1 x2 x3, memOk x3 → memOk (applyStage x0 x1 x2 x3).1 := by
  intro x0 x1 x2 x3; fun_induction applyStage x0 x1 x2 x3 <;> intro h <;> repeat' (first | with_reducible assumption | with_reducible apply_assumption | exact Res.get_reply (by assumption) (runCommit_memOk _ _ _ _ _ h) | exact Res.get_later (by assumption) (runCommit_memOk _ _ _ _ _ h))

theorem clearSet_memOk : ∀ x0 x1, memOk x1 → memOk (clearSet x0 x1) := by
  intros; unfold clearSet; repeat' (first | with_reducible assumption | with_reducible apply State_setIcp_memOk)

theorem openCommit_memOk : ∀ x0 x1, memOk x1 → memOk (openCommit x0 x1) := by
  intros; unfold openCommit; repeat' (first | with_reducible assumption | with_reducible apply State_setIcp_memOk)

theorem hCfgCommit_memOk : ∀ x0 x1 x2, memOk x2 → Res.Ok (hCfgCommit x0 x1 x2) := by
  intros; unfold hCfgCommit; repeat' (first | with_reducible assumption | intro _ | extract_lets | with_reducible apply Res.ok_reply | with_reducible apply Res.ok_later | with_reducible apply checked_memOk | with_reducible apply applyStage_memOk | with_reducible apply Res_rej_memOk | with_reducible apply Res_wait_memOk | with_reducible apply addWait_memOk | with_reducible apply openCommit_memOk | with_reducible apply Res_ok_memOk | with_reducible apply clearSet_memOk | split | dsimp +zetaDelta only | (refine Res.get_reply (by assumption) ?_) | (refine Res.get_later (by assumption) ?_) | (refine memOk_fst (by assumption) ?_))

theorem finishRolling_memOk : ∀ x0 x1, memOk x0 → memOk (finishRolling x0 x1) := by
  intros; unfold finishRolling; repeat' (first | with_reducible assumption | with_reducible apply finishWait_memOk | with_reducible apply clearSet_memOk | split)

theorem gatesNow_memOk : ∀ x0 x1, memOk x1 → memOk (gatesNow x0 x1) := by
  intros; unfold gatesNow; repeat' (first | with_reducible assumption | intro _ | extract_lets | with_reducible apply updSub_memOk | with_reducible apply memOk_foldl | with_reducible apply memOk_foldl_fst | with_reducible apply memOk_foldl_snd | split | dsimp +zetaDelta only)

theorem flipAll_memOk : ∀ x0 x1 x2, memOk x2 → memOk (flipAll x0 x1 x2).1 := by
  intro x0 x1 x2 h; unfold flipAll; split
  · exact gatesNow_memOk _ _ (memOk_fst (by assumption) (applyStage_memOk _ _ _ _ h))
  · exact h

theorem endCommit_memOk : ∀ x0 x1, memOk x1 → memOk (endCommit x0 x1) := by
  intros; unfold endCommit; repeat' (first | with_reducible assumption | intro _ | extract_lets | with_reducible apply State_setIcp_memOk | split | dsimp +zetaDelta only)

theorem execDrainComplete_memOk : ∀ x0 x1, memOk x1 → OutOk (execDrainComplete x0 x1) := by
  intros; unfold execDrainComplete; repeat' (first | with_reducible assumption | intro _ | extract_lets | with_reducible apply OutOk.mk | with_reducible apply flipAll_memOk | with_reducible apply livePause_memOk | with_reducible apply resumeIntake_memOk | with_reducible apply finishWait_memOk | with_reducible apply clearSet_memOk | with_reducible apply endCommit_memOk | split | dsimp +zetaDelta only | (refine memOk_fst (by assumption) ?_))

theorem execDrainBoundExpiry_memOk : ∀ x0 x1, memOk x1 → OutOk (execDrainBoundExpiry x0 x1) := by
  intros; unfold execDrainBoundExpiry; repeat' (first | with_reducible assumption | intro _ | extract_lets | with_reducible apply OutOk.mk | with_reducible apply livePause_memOk | with_reducible apply resumeIntake_memOk | with_reducible apply finishWait_memOk | with_reducible apply endCommit_memOk | split | dsimp +zetaDelta only)

theorem hCfgAbort_memOk : ∀ x0 x1, memOk x1 → Res.Ok (hCfgAbort x0 x1) := by
  intros; unfold hCfgAbort; repeat' (first | with_reducible assumption | with_reducible apply checked_memOk | with_reducible apply Res_ok_memOk | with_reducible apply clearSet_memOk)

end Sys2Proof.Machine
end

