-- ==== Sys2Proof/Laws/MemOkIcpTable.lean ====
section
/-! SUPPORT. Every operation of Machine/IcpTable.lean keeps memory in its canonical form. -/

namespace Sys2Proof.Machine

open Sys2Proof

theorem hPortConfig_memOk : ∀ x0 x1, memOk x1 → Res.Ok (hPortConfig x0 x1) := by
  intros; unfold hPortConfig; repeat' (first | with_reducible assumption | intro _ | extract_lets | with_reducible apply Res.ok_reply | with_reducible apply Res.ok_later | with_reducible apply hPortConfigBlock_memOk | with_reducible apply hPortConfigEthernet_memOk | with_reducible apply hNicQp_memOk | with_reducible apply Res_rej_memOk | with_reducible apply memOk_foldl | with_reducible apply memOk_foldl_fst | with_reducible apply memOk_foldl_snd | with_reducible apply memOk_getD | with_reducible apply optOk_map | with_reducible apply optOk_mk | with_reducible apply optOk_none | split)

theorem hPortQuery_memOk : ∀ x0 x1, memOk x1 → Res.Ok (hPortQuery x0 x1) := by
  intros; unfold hPortQuery; repeat' (first | with_reducible assumption | intro _ | extract_lets | with_reducible apply Res.ok_reply | with_reducible apply Res.ok_later | with_reducible apply hPortQueryBlock_memOk | with_reducible apply hPortQueryEthernet_memOk | with_reducible apply Res_rej_memOk | with_reducible apply memOk_foldl | with_reducible apply memOk_foldl_fst | with_reducible apply memOk_foldl_snd | with_reducible apply memOk_getD | with_reducible apply optOk_map | with_reducible apply optOk_mk | with_reducible apply optOk_none | split)

theorem handlers_memOk : ∀ h ∈ handlers, ∀ c s, memOk s → Res.Ok (h.2 c s) := by
  unfold handlers
  simp only [List.forall_mem_append, List.forall_mem_cons]
  exact ⟨⟨⟨⟨hHello_memOk, hGoodbye_memOk, hLeaseRenew_memOk, hFlush_memOk, hGetIdentity_memOk,
      hGetStraps_memOk, hStrapOverride_memOk, hGetStartReport_memOk, hCfgStage_memOk, fun c s h => hCfgCommit_memOk _ c s h,
      hCfgAbort_memOk, hPowerCapSet_memOk, hTableCreate_memOk, hTableDestroy_memOk, hTableQuery_memOk,
      hCqpCreate_memOk, hCqpDestroy_memOk, hKernelLoad_memOk, hKernelUnload_memOk, hRuleRegister_memOk, List.forall_mem_nil _⟩,
    ⟨direct_memOk 7, hCourseOpen_memOk, hStepDone_memOk, hCourseStatus_memOk, hCourseAbort_memOk,
      hRegionRegister_memOk, hRegionDeregister_memOk, direct_memOk 8, hLedgerQuery_memOk, hRestoreBegin_memOk,
      hShardMapLoad_memOk, hRestoreStatus_memOk, hAdopt_memOk, hNsCreate_memOk, hNsDelete_memOk,
      hNsAttach_memOk, hNsDetach_memOk, hNsQuery_memOk, hSsdList_memOk, hNsMirrorSet_memOk, List.forall_mem_nil _⟩⟩,
    ⟨hPortConfig_memOk, hPortQuery_memOk, direct_memOk 1, direct_memOk 2, direct_memOk 3,
      direct_memOk 4, direct_memOk 5, direct_memOk 6, hSamplerSet_memOk, hGrtConnCreate_memOk,
      hGrtConnDestroy_memOk, hMrRegister_memOk, hMrRevoke_memOk, hGrtConnQuery_memOk, hKeyProvision_memOk,
      hKeyErase_memOk, hLifecycleTransition_memOk, hGetCertChain_memOk, hSecurityStatus_memOk, hErrQuery_memOk, List.forall_mem_nil _⟩⟩,
    ⟨hErrAck_memOk, hCounterSelect_memOk, hCounterRead_memOk, direct_memOk 9, hPolicyLogRead_memOk,
      hFwStage_memOk, fun c s h => hFwActivate_memOk _ c s h, hFwQuery_memOk, hFnCreate_memOk, hFnDestroy_memOk,
      hFnReset_memOk, hGetFunctionState_memOk, hMigFreeze_memOk, hMigSave_memOk, hMigRestore_memOk,
      hMigResume_memOk, hDirtyLogStart_memOk, hDirtyLogStop_memOk, fun c s h => hDiagRun_memOk _ c s h, hDiagResult_memOk,
      hDumpRead_memOk, List.forall_mem_nil _⟩⟩

theorem handlerOf_memOk : ∀ x0 x1 x2, memOk x2 → Res.Ok (handlerOf x0 x1 x2) := by
  intro op c s h
  unfold handlerOf
  cases e : handlers.find? (fun h => h.1 == op) with
  | some x => exact handlers_memOk x (List.mem_of_find?_eq_some e) c s h
  | none => exact h

theorem releaseSpare_memOk : ∀ x0 x1 x2 x3, memOk x2 → memOk x3 → memOk (releaseSpare x0 x1 x2 x3) := by
  intros; unfold releaseSpare; repeat' (first | with_reducible assumption | intro _ | extract_lets | with_reducible apply setRing_memOk | with_reducible apply memOk_foldl | with_reducible apply memOk_foldl_fst | with_reducible apply memOk_foldl_snd | with_reducible apply memOk_getD | with_reducible apply optOk_map | with_reducible apply optOk_mk | with_reducible apply optOk_none | split)

theorem startPkt_memOk : ∀ x0 x1 x2, memOk x2 → memOk (startPkt x0 x1 x2) := by
  intros; unfold startPkt; repeat' (first | with_reducible assumption | intro _ | extract_lets | with_reducible apply releaseSpare_memOk | with_reducible apply icpStart_memOk | with_reducible apply handlerOf_memOk)

theorem acceptPkt_memOk : ∀ x0 x1 x2, memOk x2 → memOk (acceptPkt x0 x1 x2) := by
  intros; unfold acceptPkt; repeat' (first | with_reducible assumption | intro _ | extract_lets | with_reducible apply sendPacket_memOk | with_reducible apply touchSession_memOk | with_reducible apply State_setIcp_memOk | with_reducible apply startPkt_memOk | split | dsimp +zetaDelta only)

theorem finishBarrier_memOk : ∀ x0 x1, memOk x1 → memOk (finishBarrier x0 x1) := by
  intros; unfold finishBarrier; repeat' (first | with_reducible assumption | (intro _) | extract_lets | (with_reducible apply finishWait_memOk) | (with_reducible apply State_setIcp_memOk) | (with_reducible apply goodbyeNow_memOk) | (with_reducible apply helloNow_memOk) | (with_reducible apply sendReply_memOk) | (with_reducible apply memOk_foldl) | (with_reducible apply memOk_foldl_fst) | (with_reducible apply memOk_foldl_snd) | (with_reducible apply memOk_getD) | (with_reducible apply optOk_map) | (with_reducible apply optOk_mk) | (with_reducible apply optOk_none) | split | dsimp only | dsimp +zetaDelta only | (refine Res.get_reply (by assumption) ?_) | (refine Res.get_later (by assumption) ?_))

theorem wakeOnce_memOk : ∀ x0, memOk x0 → optOk (fun x => x) (wakeOnce x0) := by
  intros; unfold wakeOnce; repeat' (first | with_reducible assumption | intro _ | extract_lets | with_reducible apply optOk_none | with_reducible apply optOk_mk | with_reducible apply optOk_bind | with_reducible apply optOk_map | with_reducible apply optOk_orElse | with_reducible apply optOk_foldl | with_reducible apply finishBarrier_memOk | with_reducible apply livePause_memOk | with_reducible apply finishRolling_memOk | with_reducible apply startPkt_memOk | with_reducible apply State_setIcp_memOk | with_reducible apply acceptPkt_memOk | with_reducible apply fetchSlot_memOk | with_reducible apply memOk_foldl | with_reducible apply memOk_foldl_fst | with_reducible apply memOk_foldl_snd | with_reducible apply memOk_getD | with_reducible apply optOk_map | with_reducible apply optOk_mk | with_reducible apply optOk_none | split)

theorem wakeFor_memOk : ∀ x0 x1, memOk x1 → memOk (wakeFor x0 x1) := by
  intro x0 x1; fun_induction wakeFor x0 x1 <;> repeat' (first | with_reducible assumption | (intro _) | extract_lets | (with_reducible apply wakeOnce_memOk) | (with_reducible apply memOk_foldl) | (with_reducible apply memOk_foldl_fst) | (with_reducible apply memOk_foldl_snd) | (with_reducible apply memOk_getD) | (with_reducible apply optOk_map) | (with_reducible apply optOk_mk) | (with_reducible apply optOk_none) | (with_reducible apply_assumption) | split | dsimp only | dsimp +zetaDelta only | (refine optOk_get (g := fun x => (x : State)) (by assumption) ?_))

theorem settleReady_memOk : ∀ x0, memOk x0 → memOk (settleReady x0) := by
  intros; unfold settleReady; repeat' (first | with_reducible assumption | intro _ | extract_lets | with_reducible apply State_setRings_memOk)

theorem icpWake_memOk : ∀ x0, memOk x0 → memOk (icpWake x0) := by
  intros; unfold icpWake; repeat' (first | with_reducible assumption | intro _ | extract_lets | with_reducible apply settleReady_memOk | with_reducible apply wakeFor_memOk)

theorem slotPut_memOk : ∀ x0 x1 x2, memOk x2 → memOk (slotPut x0 x1 x2) := by
  intros; unfold slotPut; repeat' (first | with_reducible assumption | intro _ | extract_lets | with_reducible apply writeMem_memOk | split | dsimp +zetaDelta only | (refine memOk_fst (by assumption) ?_))

theorem ringPut_memOk : ∀ x0 x1 x2, memOk x2 → memOk (ringPut x0 x1 x2) := by
  intros; unfold ringPut; repeat' (first | with_reducible assumption | intro _ | extract_lets | with_reducible apply setRing_memOk | with_reducible apply slotPut_memOk | split | dsimp +zetaDelta only)

theorem icpArrive_memOk : ∀ x0 x1 x2, memOk x2 → memOk (icpArrive x0 x1 x2) := by
  intros; unfold icpArrive; repeat' (first | with_reducible assumption | intro _ | extract_lets | with_reducible apply ringPut_memOk | with_reducible apply State_setIcp_memOk | with_reducible apply acceptPkt_memOk | with_reducible apply memOk_foldl | with_reducible apply memOk_foldl_fst | with_reducible apply memOk_foldl_snd | with_reducible apply memOk_getD | with_reducible apply optOk_map | with_reducible apply optOk_mk | with_reducible apply optOk_none | split)

theorem icpRow_memOk : ∀ x0 x1 x2 x3, memOk x3 → memOk (icpRow x0 x1 x2 x3) := by
  intros; unfold icpRow; repeat' (first | with_reducible assumption | intro _ | extract_lets | with_reducible apply icpWake_memOk | with_reducible apply icpArrive_memOk)

theorem execHello_memOk : ∀ x0 x1 x2, memOk x2 → OutOk (execHello x0 x1 x2) := by
  intros; unfold execHello; repeat' (first | with_reducible assumption | intro _ | extract_lets | with_reducible apply OutOk.mk | with_reducible apply icpRow_memOk)

theorem execGoodbye_memOk : ∀ x0 x1 x2, memOk x2 → OutOk (execGoodbye x0 x1 x2) := by
  intros; unfold execGoodbye; repeat' (first | with_reducible assumption | intro _ | extract_lets | with_reducible apply OutOk.mk | with_reducible apply icpRow_memOk)

theorem execLeaseRenew_memOk : ∀ x0 x1 x2, memOk x2 → OutOk (execLeaseRenew x0 x1 x2) := by
  intros; unfold execLeaseRenew; repeat' (first | with_reducible assumption | intro _ | extract_lets | with_reducible apply OutOk.mk | with_reducible apply icpRow_memOk)

theorem execFlush_memOk : ∀ x0 x1 x2, memOk x2 → OutOk (execFlush x0 x1 x2) := by
  intros; unfold execFlush; repeat' (first | with_reducible assumption | intro _ | extract_lets | with_reducible apply OutOk.mk | with_reducible apply icpRow_memOk)

theorem execGetIdentity_memOk : ∀ x0 x1 x2, memOk x2 → OutOk (execGetIdentity x0 x1 x2) := by
  intros; unfold execGetIdentity; repeat' (first | with_reducible assumption | intro _ | extract_lets | with_reducible apply OutOk.mk | with_reducible apply icpRow_memOk)

theorem execGetStraps_memOk : ∀ x0 x1 x2, memOk x2 → OutOk (execGetStraps x0 x1 x2) := by
  intros; unfold execGetStraps; repeat' (first | with_reducible assumption | intro _ | extract_lets | with_reducible apply OutOk.mk | with_reducible apply icpRow_memOk)

theorem execStrapOverride_memOk : ∀ x0 x1 x2, memOk x2 → OutOk (execStrapOverride x0 x1 x2) := by
  intros; unfold execStrapOverride; repeat' (first | with_reducible assumption | intro _ | extract_lets | with_reducible apply OutOk.mk | with_reducible apply icpRow_memOk)

theorem execGetStartReport_memOk : ∀ x0 x1 x2, memOk x2 → OutOk (execGetStartReport x0 x1 x2) := by
  intros; unfold execGetStartReport; repeat' (first | with_reducible assumption | intro _ | extract_lets | with_reducible apply OutOk.mk | with_reducible apply icpRow_memOk)

theorem execCfgStage_memOk : ∀ x0 x1 x2, memOk x2 → OutOk (execCfgStage x0 x1 x2) := by
  intros; unfold execCfgStage; repeat' (first | with_reducible assumption | intro _ | extract_lets | with_reducible apply OutOk.mk | with_reducible apply icpRow_memOk)

theorem execCfgCommitRolling_memOk : ∀ x0 x1 x2, memOk x2 → OutOk (execCfgCommitRolling x0 x1 x2) := by
  intros; unfold execCfgCommitRolling; repeat' (first | with_reducible assumption | intro _ | extract_lets | with_reducible apply OutOk.mk | with_reducible apply icpRow_memOk)

theorem execCfgCommitDrain_memOk : ∀ x0 x1 x2, memOk x2 → OutOk (execCfgCommitDrain x0 x1 x2) := by
  intros; unfold execCfgCommitDrain; repeat' (first | with_reducible assumption | intro _ | extract_lets | with_reducible apply OutOk.mk | with_reducible apply icpRow_memOk)

theorem execCfgAbort_memOk : ∀ x0 x1 x2, memOk x2 → OutOk (execCfgAbort x0 x1 x2) := by
  intros; unfold execCfgAbort; repeat' (first | with_reducible assumption | intro _ | extract_lets | with_reducible apply OutOk.mk | with_reducible apply icpRow_memOk)

theorem execPowerCapSet_memOk : ∀ x0 x1 x2, memOk x2 → OutOk (execPowerCapSet x0 x1 x2) := by
  intros; unfold execPowerCapSet; repeat' (first | with_reducible assumption | intro _ | extract_lets | with_reducible apply OutOk.mk | with_reducible apply icpRow_memOk)

theorem execTableCreate_memOk : ∀ x0 x1 x2, memOk x2 → OutOk (execTableCreate x0 x1 x2) := by
  intros; unfold execTableCreate; repeat' (first | with_reducible assumption | intro _ | extract_lets | with_reducible apply OutOk.mk | with_reducible apply icpRow_memOk)

theorem execTableDestroy_memOk : ∀ x0 x1 x2, memOk x2 → OutOk (execTableDestroy x0 x1 x2) := by
  intros; unfold execTableDestroy; repeat' (first | with_reducible assumption | intro _ | extract_lets | with_reducible apply OutOk.mk | with_reducible apply icpRow_memOk)

theorem execTableQuery_memOk : ∀ x0 x1 x2, memOk x2 → OutOk (execTableQuery x0 x1 x2) := by
  intros; unfold execTableQuery; repeat' (first | with_reducible assumption | intro _ | extract_lets | with_reducible apply OutOk.mk | with_reducible apply icpRow_memOk)

theorem execCqpCreate_memOk : ∀ x0 x1 x2, memOk x2 → OutOk (execCqpCreate x0 x1 x2) := by
  intros; unfold execCqpCreate; repeat' (first | with_reducible assumption | intro _ | extract_lets | with_reducible apply OutOk.mk | with_reducible apply icpRow_memOk)

theorem execCqpDestroy_memOk : ∀ x0 x1 x2, memOk x2 → OutOk (execCqpDestroy x0 x1 x2) := by
  intros; unfold execCqpDestroy; repeat' (first | with_reducible assumption | intro _ | extract_lets | with_reducible apply OutOk.mk | with_reducible apply icpRow_memOk)

theorem execKernelLoad_memOk : ∀ x0 x1 x2, memOk x2 → OutOk (execKernelLoad x0 x1 x2) := by
  intros; unfold execKernelLoad; repeat' (first | with_reducible assumption | intro _ | extract_lets | with_reducible apply OutOk.mk | with_reducible apply icpRow_memOk)

theorem execKernelUnload_memOk : ∀ x0 x1 x2, memOk x2 → OutOk (execKernelUnload x0 x1 x2) := by
  intros; unfold execKernelUnload; repeat' (first | with_reducible assumption | intro _ | extract_lets | with_reducible apply OutOk.mk | with_reducible apply icpRow_memOk)

theorem execRuleRegister_memOk : ∀ x0 x1 x2, memOk x2 → OutOk (execRuleRegister x0 x1 x2) := by
  intros; unfold execRuleRegister; repeat' (first | with_reducible assumption | intro _ | extract_lets | with_reducible apply OutOk.mk | with_reducible apply icpRow_memOk)

theorem execCoursePolicySet_memOk : ∀ x0 x1 x2, memOk x2 → OutOk (execCoursePolicySet x0 x1 x2) := by
  intros; unfold execCoursePolicySet; repeat' (first | with_reducible assumption | intro _ | extract_lets | with_reducible apply OutOk.mk | with_reducible apply icpRow_memOk)

theorem execCourseOpen_memOk : ∀ x0 x1 x2, memOk x2 → OutOk (execCourseOpen x0 x1 x2) := by
  intros; unfold execCourseOpen; repeat' (first | with_reducible assumption | intro _ | extract_lets | with_reducible apply OutOk.mk | with_reducible apply icpRow_memOk)

theorem execStepDone_memOk : ∀ x0 x1 x2, memOk x2 → OutOk (execStepDone x0 x1 x2) := by
  intros; unfold execStepDone; repeat' (first | with_reducible assumption | intro _ | extract_lets | with_reducible apply OutOk.mk | with_reducible apply icpRow_memOk)

theorem execCourseStatus_memOk : ∀ x0 x1 x2, memOk x2 → OutOk (execCourseStatus x0 x1 x2) := by
  intros; unfold execCourseStatus; repeat' (first | with_reducible assumption | intro _ | extract_lets | with_reducible apply OutOk.mk | with_reducible apply icpRow_memOk)

theorem execCourseAbort_memOk : ∀ x0 x1 x2, memOk x2 → OutOk (execCourseAbort x0 x1 x2) := by
  intros; unfold execCourseAbort; repeat' (first | with_reducible assumption | intro _ | extract_lets | with_reducible apply OutOk.mk | with_reducible apply icpRow_memOk)

theorem execRegionRegister_memOk : ∀ x0 x1 x2, memOk x2 → OutOk (execRegionRegister x0 x1 x2) := by
  intros; unfold execRegionRegister; repeat' (first | with_reducible assumption | intro _ | extract_lets | with_reducible apply OutOk.mk | with_reducible apply icpRow_memOk)

theorem execRegionDeregister_memOk : ∀ x0 x1 x2, memOk x2 → OutOk (execRegionDeregister x0 x1 x2) := by
  intros; unfold execRegionDeregister; repeat' (first | with_reducible assumption | intro _ | extract_lets | with_reducible apply OutOk.mk | with_reducible apply icpRow_memOk)

theorem execTableCapturePolicy_memOk : ∀ x0 x1 x2, memOk x2 → OutOk (execTableCapturePolicy x0 x1 x2) := by
  intros; unfold execTableCapturePolicy; repeat' (first | with_reducible assumption | intro _ | extract_lets | with_reducible apply OutOk.mk | with_reducible apply icpRow_memOk)

theorem execLedgerQuery_memOk : ∀ x0 x1 x2, memOk x2 → OutOk (execLedgerQuery x0 x1 x2) := by
  intros; unfold execLedgerQuery; repeat' (first | with_reducible assumption | intro _ | extract_lets | with_reducible apply OutOk.mk | with_reducible apply icpRow_memOk)

theorem execRestoreBegin_memOk : ∀ x0 x1 x2, memOk x2 → OutOk (execRestoreBegin x0 x1 x2) := by
  intros; unfold execRestoreBegin; repeat' (first | with_reducible assumption | intro _ | extract_lets | with_reducible apply OutOk.mk | with_reducible apply icpRow_memOk)

theorem execShardMapLoad_memOk : ∀ x0 x1 x2, memOk x2 → OutOk (execShardMapLoad x0 x1 x2) := by
  intros; unfold execShardMapLoad; repeat' (first | with_reducible assumption | intro _ | extract_lets | with_reducible apply OutOk.mk | with_reducible apply icpRow_memOk)

theorem execRestoreStatus_memOk : ∀ x0 x1 x2, memOk x2 → OutOk (execRestoreStatus x0 x1 x2) := by
  intros; unfold execRestoreStatus; repeat' (first | with_reducible assumption | intro _ | extract_lets | with_reducible apply OutOk.mk | with_reducible apply icpRow_memOk)

theorem execShardAdopt_memOk : ∀ x0 x1 x2, memOk x2 → OutOk (execShardAdopt x0 x1 x2) := by
  intros; unfold execShardAdopt; repeat' (first | with_reducible assumption | intro _ | extract_lets | with_reducible apply OutOk.mk | with_reducible apply icpRow_memOk)

theorem execShrinkDone_memOk : ∀ x0 x1 x2, memOk x2 → OutOk (execShrinkDone x0 x1 x2) := by
  intros; unfold execShrinkDone; repeat' (first | with_reducible assumption | intro _ | extract_lets | with_reducible apply OutOk.mk | with_reducible apply icpRow_memOk)

theorem execNsCreate_memOk : ∀ x0 x1 x2, memOk x2 → OutOk (execNsCreate x0 x1 x2) := by
  intros; unfold execNsCreate; repeat' (first | with_reducible assumption | intro _ | extract_lets | with_reducible apply OutOk.mk | with_reducible apply icpRow_memOk)

theorem execNsDelete_memOk : ∀ x0 x1 x2, memOk x2 → OutOk (execNsDelete x0 x1 x2) := by
  intros; unfold execNsDelete; repeat' (first | with_reducible assumption | intro _ | extract_lets | with_reducible apply OutOk.mk | with_reducible apply icpRow_memOk)

theorem execNsAttach_memOk : ∀ x0 x1 x2, memOk x2 → OutOk (execNsAttach x0 x1 x2) := by
  intros; unfold execNsAttach; repeat' (first | with_reducible assumption | intro _ | extract_lets | with_reducible apply OutOk.mk | with_reducible apply icpRow_memOk)

theorem execNsDetach_memOk : ∀ x0 x1 x2, memOk x2 → OutOk (execNsDetach x0 x1 x2) := by
  intros; unfold execNsDetach; repeat' (first | with_reducible assumption | intro _ | extract_lets | with_reducible apply OutOk.mk | with_reducible apply icpRow_memOk)

theorem execNsQuery_memOk : ∀ x0 x1 x2, memOk x2 → OutOk (execNsQuery x0 x1 x2) := by
  intros; unfold execNsQuery; repeat' (first | with_reducible assumption | intro _ | extract_lets | with_reducible apply OutOk.mk | with_reducible apply icpRow_memOk)

theorem execSsdList_memOk : ∀ x0 x1 x2, memOk x2 → OutOk (execSsdList x0 x1 x2) := by
  intros; unfold execSsdList; repeat' (first | with_reducible assumption | intro _ | extract_lets | with_reducible apply OutOk.mk | with_reducible apply icpRow_memOk)

theorem execNsMirrorSet_memOk : ∀ x0 x1 x2, memOk x2 → OutOk (execNsMirrorSet x0 x1 x2) := by
  intros; unfold execNsMirrorSet; repeat' (first | with_reducible assumption | intro _ | extract_lets | with_reducible apply OutOk.mk | with_reducible apply icpRow_memOk)

theorem execPortConfigBlock_memOk : ∀ x0 x1 x2, memOk x2 → OutOk (execPortConfigBlock x0 x1 x2) := by
  intros; unfold execPortConfigBlock; repeat' (first | with_reducible assumption | intro _ | extract_lets | with_reducible apply OutOk.mk | with_reducible apply icpRow_memOk)

theorem execPortConfigEthernet_memOk : ∀ x0 x1 x2, memOk x2 → OutOk (execPortConfigEthernet x0 x1 x2) := by
  intros; unfold execPortConfigEthernet; repeat' (first | with_reducible assumption | intro _ | extract_lets | with_reducible apply OutOk.mk | with_reducible apply icpRow_memOk)

theorem execNicQpCreate_memOk : ∀ x0 x1 x2, memOk x2 → OutOk (execNicQpCreate x0 x1 x2) := by
  intros; unfold execNicQpCreate; repeat' (first | with_reducible assumption | intro _ | extract_lets | with_reducible apply OutOk.mk | with_reducible apply icpRow_memOk)

theorem execNicQpDestroy_memOk : ∀ x0 x1 x2, memOk x2 → OutOk (execNicQpDestroy x0 x1 x2) := by
  intros; unfold execNicQpDestroy; repeat' (first | with_reducible assumption | intro _ | extract_lets | with_reducible apply OutOk.mk | with_reducible apply icpRow_memOk)

theorem execPortQueryBlock_memOk : ∀ x0 x1 x2, memOk x2 → OutOk (execPortQueryBlock x0 x1 x2) := by
  intros; unfold execPortQueryBlock; repeat' (first | with_reducible assumption | intro _ | extract_lets | with_reducible apply OutOk.mk | with_reducible apply icpRow_memOk)

theorem execPortQueryEthernet_memOk : ∀ x0 x1 x2, memOk x2 → OutOk (execPortQueryEthernet x0 x1 x2) := by
  intros; unfold execPortQueryEthernet; repeat' (first | with_reducible assumption | intro _ | extract_lets | with_reducible apply OutOk.mk | with_reducible apply icpRow_memOk)

theorem execParseNodeWrite_memOk : ∀ x0 x1 x2, memOk x2 → OutOk (execParseNodeWrite x0 x1 x2) := by
  intros; unfold execParseNodeWrite; repeat' (first | with_reducible assumption | intro _ | extract_lets | with_reducible apply OutOk.mk | with_reducible apply icpRow_memOk)

theorem execClsInsert_memOk : ∀ x0 x1 x2, memOk x2 → OutOk (execClsInsert x0 x1 x2) := by
  intros; unfold execClsInsert; repeat' (first | with_reducible assumption | intro _ | extract_lets | with_reducible apply OutOk.mk | with_reducible apply icpRow_memOk)

theorem execClsDelete_memOk : ∀ x0 x1 x2, memOk x2 → OutOk (execClsDelete x0 x1 x2) := by
  intros; unfold execClsDelete; repeat' (first | with_reducible assumption | intro _ | extract_lets | with_reducible apply OutOk.mk | with_reducible apply icpRow_memOk)

theorem execClsConfigure_memOk : ∀ x0 x1 x2, memOk x2 → OutOk (execClsConfigure x0 x1 x2) := by
  intros; unfold execClsConfigure; repeat' (first | with_reducible assumption | intro _ | extract_lets | with_reducible apply OutOk.mk | with_reducible apply icpRow_memOk)

theorem execClsMissAction_memOk : ∀ x0 x1 x2, memOk x2 → OutOk (execClsMissAction x0 x1 x2) := by
  intros; unfold execClsMissAction; repeat' (first | with_reducible assumption | intro _ | extract_lets | with_reducible apply OutOk.mk | with_reducible apply icpRow_memOk)

theorem execIndirectionEntries_memOk : ∀ x0 x1 x2, memOk x2 → OutOk (execIndirectionEntries x0 x1 x2) := by
  intros; unfold execIndirectionEntries; repeat' (first | with_reducible assumption | intro _ | extract_lets | with_reducible apply OutOk.mk | with_reducible apply icpRow_memOk)

theorem execIndirectionProfile_memOk : ∀ x0 x1 x2, memOk x2 → OutOk (execIndirectionProfile x0 x1 x2) := by
  intros; unfold execIndirectionProfile; repeat' (first | with_reducible assumption | intro _ | extract_lets | with_reducible apply OutOk.mk | with_reducible apply icpRow_memOk)

theorem execShaperSet_memOk : ∀ x0 x1 x2, memOk x2 → OutOk (execShaperSet x0 x1 x2) := by
  intros; unfold execShaperSet; repeat' (first | with_reducible assumption | intro _ | extract_lets | with_reducible apply OutOk.mk | with_reducible apply icpRow_memOk)

theorem execPolicerSet_memOk : ∀ x0 x1 x2, memOk x2 → OutOk (execPolicerSet x0 x1 x2) := by
  intros; unfold execPolicerSet; repeat' (first | with_reducible assumption | intro _ | extract_lets | with_reducible apply OutOk.mk | with_reducible apply icpRow_memOk)

theorem execGateListSet_memOk : ∀ x0 x1 x2, memOk x2 → OutOk (execGateListSet x0 x1 x2) := by
  intros; unfold execGateListSet; repeat' (first | with_reducible assumption | intro _ | extract_lets | with_reducible apply OutOk.mk | with_reducible apply icpRow_memOk)

theorem execSamplerSet_memOk : ∀ x0 x1 x2, memOk x2 → OutOk (execSamplerSet x0 x1 x2) := by
  intros; unfold execSamplerSet; repeat' (first | with_reducible assumption | intro _ | extract_lets | with_reducible apply OutOk.mk | with_reducible apply icpRow_memOk)

theorem execGrtConnCreate_memOk : ∀ x0 x1 x2, memOk x2 → OutOk (execGrtConnCreate x0 x1 x2) := by
  intros; unfold execGrtConnCreate; repeat' (first | with_reducible assumption | intro _ | extract_lets | with_reducible apply OutOk.mk | with_reducible apply icpRow_memOk)

theorem execGrtConnDestroy_memOk : ∀ x0 x1 x2, memOk x2 → OutOk (execGrtConnDestroy x0 x1 x2) := by
  intros; unfold execGrtConnDestroy; repeat' (first | with_reducible assumption | intro _ | extract_lets | with_reducible apply OutOk.mk | with_reducible apply icpRow_memOk)

theorem execMrRegister_memOk : ∀ x0 x1 x2, memOk x2 → OutOk (execMrRegister x0 x1 x2) := by
  intros; unfold execMrRegister; repeat' (first | with_reducible assumption | intro _ | extract_lets | with_reducible apply OutOk.mk | with_reducible apply icpRow_memOk)

theorem execMrRevoke_memOk : ∀ x0 x1 x2, memOk x2 → OutOk (execMrRevoke x0 x1 x2) := by
  intros; unfold execMrRevoke; repeat' (first | with_reducible assumption | intro _ | extract_lets | with_reducible apply OutOk.mk | with_reducible apply icpRow_memOk)

theorem execGrtConnQuery_memOk : ∀ x0 x1 x2, memOk x2 → OutOk (execGrtConnQuery x0 x1 x2) := by
  intros; unfold execGrtConnQuery; repeat' (first | with_reducible assumption | intro _ | extract_lets | with_reducible apply OutOk.mk | with_reducible apply icpRow_memOk)

theorem execKeyProvisionClear_memOk : ∀ x0 x1 x2, memOk x2 → OutOk (execKeyProvisionClear x0 x1 x2) := by
  intros; unfold execKeyProvisionClear; repeat' (first | with_reducible assumption | intro _ | extract_lets | with_reducible apply OutOk.mk | with_reducible apply icpRow_memOk)

theorem execKeyProvisionWrapped_memOk : ∀ x0 x1 x2, memOk x2 → OutOk (execKeyProvisionWrapped x0 x1 x2) := by
  intros; unfold execKeyProvisionWrapped; repeat' (first | with_reducible assumption | intro _ | extract_lets | with_reducible apply OutOk.mk | with_reducible apply icpRow_memOk)

theorem execKeyErase_memOk : ∀ x0 x1 x2, memOk x2 → OutOk (execKeyErase x0 x1 x2) := by
  intros; unfold execKeyErase; repeat' (first | with_reducible assumption | intro _ | extract_lets | with_reducible apply OutOk.mk | with_reducible apply icpRow_memOk)

theorem execLifecycleTransition_memOk : ∀ x0 x1 x2, memOk x2 → OutOk (execLifecycleTransition x0 x1 x2) := by
  intros; unfold execLifecycleTransition; repeat' (first | with_reducible assumption | intro _ | extract_lets | with_reducible apply OutOk.mk | with_reducible apply icpRow_memOk)

theorem execGetCertChain_memOk : ∀ x0 x1 x2, memOk x2 → OutOk (execGetCertChain x0 x1 x2) := by
  intros; unfold execGetCertChain; repeat' (first | with_reducible assumption | intro _ | extract_lets | with_reducible apply OutOk.mk | with_reducible apply icpRow_memOk)

theorem execSecurityStatus_memOk : ∀ x0 x1 x2, memOk x2 → OutOk (execSecurityStatus x0 x1 x2) := by
  intros; unfold execSecurityStatus; repeat' (first | with_reducible assumption | intro _ | extract_lets | with_reducible apply OutOk.mk | with_reducible apply icpRow_memOk)

theorem execErrQuery_memOk : ∀ x0 x1 x2, memOk x2 → OutOk (execErrQuery x0 x1 x2) := by
  intros; unfold execErrQuery; repeat' (first | with_reducible assumption | intro _ | extract_lets | with_reducible apply OutOk.mk | with_reducible apply icpRow_memOk)

theorem execErrAck_memOk : ∀ x0 x1 x2, memOk x2 → OutOk (execErrAck x0 x1 x2) := by
  intros; unfold execErrAck; repeat' (first | with_reducible assumption | intro _ | extract_lets | with_reducible apply OutOk.mk | with_reducible apply icpRow_memOk)

theorem execCounterSelect_memOk : ∀ x0 x1 x2, memOk x2 → OutOk (execCounterSelect x0 x1 x2) := by
  intros; unfold execCounterSelect; repeat' (first | with_reducible assumption | intro _ | extract_lets | with_reducible apply OutOk.mk | with_reducible apply icpRow_memOk)

theorem execCounterRead_memOk : ∀ x0 x1 x2, memOk x2 → OutOk (execCounterRead x0 x1 x2) := by
  intros; unfold execCounterRead; repeat' (first | with_reducible assumption | intro _ | extract_lets | with_reducible apply OutOk.mk | with_reducible apply icpRow_memOk)

theorem execPolicySet_memOk : ∀ x0 x1 x2, memOk x2 → OutOk (execPolicySet x0 x1 x2) := by
  intros; unfold execPolicySet; repeat' (first | with_reducible assumption | intro _ | extract_lets | with_reducible apply OutOk.mk | with_reducible apply icpRow_memOk)

theorem execPolicyLogRead_memOk : ∀ x0 x1 x2, memOk x2 → OutOk (execPolicyLogRead x0 x1 x2) := by
  intros; unfold execPolicyLogRead; repeat' (first | with_reducible assumption | intro _ | extract_lets | with_reducible apply OutOk.mk | with_reducible apply icpRow_memOk)

theorem execFwStage_memOk : ∀ x0 x1 x2, memOk x2 → OutOk (execFwStage x0 x1 x2) := by
  intros; unfold execFwStage; repeat' (first | with_reducible assumption | intro _ | extract_lets | with_reducible apply OutOk.mk | with_reducible apply icpRow_memOk)

theorem execFwActivateAtReset_memOk : ∀ x0 x1 x2, memOk x2 → OutOk (execFwActivateAtReset x0 x1 x2) := by
  intros; unfold execFwActivateAtReset; repeat' (first | with_reducible assumption | intro _ | extract_lets | with_reducible apply OutOk.mk | with_reducible apply icpRow_memOk)

theorem execFwActivateResetNow_memOk : ∀ x0 x1 x2, memOk x2 → OutOk (execFwActivateResetNow x0 x1 x2) := by
  intros; unfold execFwActivateResetNow; repeat' (first | with_reducible assumption | intro _ | extract_lets | with_reducible apply OutOk.mk | with_reducible apply icpRow_memOk)

theorem execFwActivateLive_memOk : ∀ x0 x1 x2, memOk x2 → OutOk (execFwActivateLive x0 x1 x2) := by
  intros; unfold execFwActivateLive; repeat' (first | with_reducible assumption | intro _ | extract_lets | with_reducible apply OutOk.mk | with_reducible apply icpRow_memOk)

theorem execFwQuery_memOk : ∀ x0 x1 x2, memOk x2 → OutOk (execFwQuery x0 x1 x2) := by
  intros; unfold execFwQuery; repeat' (first | with_reducible assumption | intro _ | extract_lets | with_reducible apply OutOk.mk | with_reducible apply icpRow_memOk)

theorem execFnCreate_memOk : ∀ x0 x1 x2, memOk x2 → OutOk (execFnCreate x0 x1 x2) := by
  intros; unfold execFnCreate; repeat' (first | with_reducible assumption | intro _ | extract_lets | with_reducible apply OutOk.mk | with_reducible apply icpRow_memOk)

theorem execFnDestroy_memOk : ∀ x0 x1 x2, memOk x2 → OutOk (execFnDestroy x0 x1 x2) := by
  intros; unfold execFnDestroy; repeat' (first | with_reducible assumption | intro _ | extract_lets | with_reducible apply OutOk.mk | with_reducible apply icpRow_memOk)

theorem execFnReset_memOk : ∀ x0 x1 x2, memOk x2 → OutOk (execFnReset x0 x1 x2) := by
  intros; unfold execFnReset; repeat' (first | with_reducible assumption | intro _ | extract_lets | with_reducible apply OutOk.mk | with_reducible apply icpRow_memOk)

theorem execGetFunctionState_memOk : ∀ x0 x1 x2, memOk x2 → OutOk (execGetFunctionState x0 x1 x2) := by
  intros; unfold execGetFunctionState; repeat' (first | with_reducible assumption | intro _ | extract_lets | with_reducible apply OutOk.mk | with_reducible apply icpRow_memOk)

theorem execAdoptQueues_memOk : ∀ x0 x1 x2, memOk x2 → OutOk (execAdoptQueues x0 x1 x2) := by
  intros; unfold execAdoptQueues; repeat' (first | with_reducible assumption | intro _ | extract_lets | with_reducible apply OutOk.mk | with_reducible apply icpRow_memOk)

theorem execMigFreeze_memOk : ∀ x0 x1 x2, memOk x2 → OutOk (execMigFreeze x0 x1 x2) := by
  intros; unfold execMigFreeze; repeat' (first | with_reducible assumption | intro _ | extract_lets | with_reducible apply OutOk.mk | with_reducible apply icpRow_memOk)

theorem execMigSave_memOk : ∀ x0 x1 x2, memOk x2 → OutOk (execMigSave x0 x1 x2) := by
  intros; unfold execMigSave; repeat' (first | with_reducible assumption | intro _ | extract_lets | with_reducible apply OutOk.mk | with_reducible apply icpRow_memOk)

theorem execMigRestore_memOk : ∀ x0 x1 x2, memOk x2 → OutOk (execMigRestore x0 x1 x2) := by
  intros; unfold execMigRestore; repeat' (first | with_reducible assumption | intro _ | extract_lets | with_reducible apply OutOk.mk | with_reducible apply icpRow_memOk)

theorem execMigResume_memOk : ∀ x0 x1 x2, memOk x2 → OutOk (execMigResume x0 x1 x2) := by
  intros; unfold execMigResume; repeat' (first | with_reducible assumption | intro _ | extract_lets | with_reducible apply OutOk.mk | with_reducible apply icpRow_memOk)

theorem execDirtyLogStart_memOk : ∀ x0 x1 x2, memOk x2 → OutOk (execDirtyLogStart x0 x1 x2) := by
  intros; unfold execDirtyLogStart; repeat' (first | with_reducible assumption | intro _ | extract_lets | with_reducible apply OutOk.mk | with_reducible apply icpRow_memOk)

theorem execDirtyLogStop_memOk : ∀ x0 x1 x2, memOk x2 → OutOk (execDirtyLogStop x0 x1 x2) := by
  intros; unfold execDirtyLogStop; repeat' (first | with_reducible assumption | intro _ | extract_lets | with_reducible apply OutOk.mk | with_reducible apply icpRow_memOk)

theorem execDiagStewardSelftest_memOk : ∀ x0 x1 x2, memOk x2 → OutOk (execDiagStewardSelftest x0 x1 x2) := by
  intros; unfold execDiagStewardSelftest; repeat' (first | with_reducible assumption | intro _ | extract_lets | with_reducible apply OutOk.mk | with_reducible apply icpRow_memOk)

theorem execDiagSpiFlashRead_memOk : ∀ x0 x1 x2, memOk x2 → OutOk (execDiagSpiFlashRead x0 x1 x2) := by
  intros; unfold execDiagSpiFlashRead; repeat' (first | with_reducible assumption | intro _ | extract_lets | with_reducible apply OutOk.mk | with_reducible apply icpRow_memOk)

theorem execDiagGddr7Training_memOk : ∀ x0 x1 x2, memOk x2 → OutOk (execDiagGddr7Training x0 x1 x2) := by
  intros; unfold execDiagGddr7Training; repeat' (first | with_reducible assumption | intro _ | extract_lets | with_reducible apply OutOk.mk | with_reducible apply icpRow_memOk)

theorem execDiagLinkTraining_memOk : ∀ x0 x1 x2, memOk x2 → OutOk (execDiagLinkTraining x0 x1 x2) := by
  intros; unfold execDiagLinkTraining; repeat' (first | with_reducible assumption | intro _ | extract_lets | with_reducible apply OutOk.mk | with_reducible apply icpRow_memOk)

theorem execDiagClusterSpareOut_memOk : ∀ x0 x1 x2, memOk x2 → OutOk (execDiagClusterSpareOut x0 x1 x2) := by
  intros; unfold execDiagClusterSpareOut; repeat' (first | with_reducible assumption | intro _ | extract_lets | with_reducible apply OutOk.mk | with_reducible apply icpRow_memOk)

theorem execDiagResult_memOk : ∀ x0 x1 x2, memOk x2 → OutOk (execDiagResult x0 x1 x2) := by
  intros; unfold execDiagResult; repeat' (first | with_reducible assumption | intro _ | extract_lets | with_reducible apply OutOk.mk | with_reducible apply icpRow_memOk)

theorem execDumpRead_memOk : ∀ x0 x1 x2, memOk x2 → OutOk (execDumpRead x0 x1 x2) := by
  intros; unfold execDumpRead; repeat' (first | with_reducible assumption | intro _ | extract_lets | with_reducible apply OutOk.mk | with_reducible apply icpRow_memOk)

theorem badIcpDoorbell_memOk : ∀ x0 x1, memOk x1 → memOk (badIcpDoorbell x0 x1) := by
  intros; unfold badIcpDoorbell; repeat' (first | with_reducible assumption | intro _ | extract_lets | with_reducible apply State_setIcp_memOk | with_reducible apply setRing_memOk)

theorem execCmdTail_memOk : ∀ x0 x1 x2 x3, memOk x3 → OutOk (execCmdTail x0 x1 x2 x3) := by
  intros; unfold execCmdTail; repeat' (first | with_reducible assumption | intro _ | extract_lets | with_reducible apply OutOk.mk | with_reducible apply badIcpDoorbell_memOk | with_reducible apply icpWake_memOk | with_reducible apply setRing_memOk | with_reducible apply memOk_foldl | with_reducible apply memOk_foldl_fst | with_reducible apply memOk_foldl_snd | with_reducible apply memOk_getD | with_reducible apply optOk_map | with_reducible apply optOk_mk | with_reducible apply optOk_none | split)

theorem execRplHead_memOk : ∀ x0 x1 x2, memOk x2 → OutOk (execRplHead x0 x1 x2) := by
  intros; unfold execRplHead; repeat' (first | with_reducible assumption | intro _ | extract_lets | with_reducible apply OutOk.mk | with_reducible apply badIcpDoorbell_memOk | with_reducible apply icpWake_memOk | with_reducible apply setRing_memOk | with_reducible apply memOk_foldl | with_reducible apply memOk_foldl_fst | with_reducible apply memOk_foldl_snd | with_reducible apply memOk_getD | with_reducible apply optOk_map | with_reducible apply optOk_mk | with_reducible apply optOk_none | split)

theorem ringEnable_memOk : ∀ x0 x1 x2, memOk x2 → memOk (ringEnable x0 x1 x2) := by
  intros; unfold ringEnable; repeat' (first | with_reducible assumption | intro _ | extract_lets | with_reducible apply setRing_memOk | with_reducible apply memOk_foldl | with_reducible apply memOk_foldl_fst | with_reducible apply memOk_foldl_snd | with_reducible apply memOk_getD | with_reducible apply optOk_map | with_reducible apply optOk_mk | with_reducible apply optOk_none | split)

theorem execIcpRingEnable_memOk : ∀ x0 x1, memOk x1 → OutOk (execIcpRingEnable x0 x1) := by
  intros; unfold execIcpRingEnable; repeat' (first | with_reducible assumption | intro _ | extract_lets | with_reducible apply OutOk.mk | with_reducible apply icpWake_memOk | with_reducible apply ringEnable_memOk | with_reducible apply memOk_foldl | with_reducible apply memOk_foldl_fst | with_reducible apply memOk_foldl_snd | with_reducible apply memOk_getD | with_reducible apply optOk_map | with_reducible apply optOk_mk | with_reducible apply optOk_none | split)

theorem execIcpRingDisable_memOk : ∀ x0 x1, memOk x1 → OutOk (execIcpRingDisable x0 x1) := by
  intros; unfold execIcpRingDisable; repeat' (first | with_reducible assumption | intro _ | extract_lets | with_reducible apply OutOk.mk | with_reducible apply icpWake_memOk | with_reducible apply ringEnable_memOk | with_reducible apply memOk_foldl | with_reducible apply memOk_foldl_fst | with_reducible apply memOk_foldl_snd | with_reducible apply memOk_getD | with_reducible apply optOk_map | with_reducible apply optOk_mk | with_reducible apply optOk_none | split)

theorem fragArrive_memOk : ∀ x0 x1 x2, memOk x2 → memOk (fragArrive x0 x1 x2) := by
  intros; unfold fragArrive; repeat' (first | with_reducible assumption | intro _ | extract_lets | with_reducible apply State_setIcp_memOk | with_reducible apply acceptPkt_memOk | split | dsimp +zetaDelta only)

theorem execManagementDatagram_memOk : ∀ x0 x1 x2, memOk x2 → OutOk (execManagementDatagram x0 x1 x2) := by
  intros; unfold execManagementDatagram; repeat' (first | with_reducible assumption | intro _ | extract_lets | with_reducible apply OutOk.mk | with_reducible apply icpWake_memOk | with_reducible apply fragArrive_memOk | split | dsimp +zetaDelta only)

theorem execMctpMessage_memOk : ∀ x0 x1 x2, memOk x2 → OutOk (execMctpMessage x0 x1 x2) := by
  intros; unfold execMctpMessage; repeat' (first | with_reducible assumption | intro _ | extract_lets | with_reducible apply OutOk.mk | with_reducible apply icpRow_memOk | with_reducible apply icpWake_memOk | split | dsimp +zetaDelta only)

theorem execLiveActivationResume_memOk : ∀ x0, memOk x0 → OutOk (execLiveActivationResume x0) := by
  intros; unfold execLiveActivationResume; repeat' (first | with_reducible assumption | intro _ | extract_lets | with_reducible apply OutOk.mk | with_reducible apply icpWake_memOk | with_reducible apply liveResume_memOk | with_reducible apply memOk_foldl | with_reducible apply memOk_foldl_fst | with_reducible apply memOk_foldl_snd | with_reducible apply memOk_getD | with_reducible apply optOk_map | with_reducible apply optOk_mk | with_reducible apply optOk_none | split)

end Sys2Proof.Machine
end

