-- ==== Sys2Proof/Laws/MemOkCsrCmds.lean ====
section
/-! SUPPORT. Every operation of Machine/CsrCmds.lean keeps memory in its canonical form. -/

namespace Sys2Proof.Machine

open Sys2Proof

theorem acsWrite_memOk : ∀ x0 x1 x2, memOk x2 → memOk (acsWrite x0 x1 x2) := fun _ _ _ h => h

theorem writeHeader_memOk : ∀ x0 x1 x2 x3, memOk x3 → memOk (writeHeader x0 x1 x2 x3) := by
  intros; unfold writeHeader; repeat' (first | with_reducible assumption | with_reducible apply setErr_memOk | with_reducible apply ackErr_memOk | with_reducible apply clearErr_memOk | split | dsimp +zetaDelta only)

theorem writePerf_memOk : ∀ x0 x1 x2 x3, memOk x3 → memOk (writePerf x0 x1 x2 x3) := by
  intros; unfold writePerf; repeat' (first | with_reducible assumption | with_reducible apply setPerfCtr_memOk | split)

theorem driveGpio_memOk : ∀ x0 x1, memOk x0 → memOk x1 → memOk (driveGpio x0 x1) := by
  intros; unfold driveGpio; repeat' (first | with_reducible assumption | intro _ | with_reducible apply emit_memOk | with_reducible apply memOk_foldl | split)

theorem writeOwn_memOk : ∀ x0 x1 x2 x3 x4, memOk x4 → memOk (writeOwn x0 x1 x2 x3 x4) := by
  intros; unfold writeOwn; repeat' (first | with_reducible assumption | with_reducible apply startCtl_memOk | with_reducible apply clSpareReq_memOk | with_reducible apply mcFenceReq_memOk | with_reducible apply ceAbortReq_memOk | with_reducible apply cxAlarmClear_memOk | with_reducible apply driveGpio_memOk | with_reducible apply setCell_memOk | split)

theorem csrPut_memOk : ∀ x0 x1 x2 x3, memOk x3 → memOk (csrPut x0 x1 x2 x3) := by
  intros; unfold csrPut; repeat' (first | with_reducible assumption | with_reducible apply countUnmapped_memOk | with_reducible apply writeHeader_memOk | with_reducible apply writePerf_memOk | with_reducible apply writeOwn_memOk | split)

theorem ringWrite_memOk : ∀ x0 x1 x2 x3, memOk x3 → memOk (ringWrite x0 x1 x2 x3) := by
  intros; unfold ringWrite; repeat' (first | with_reducible assumption | extract_lets | with_reducible apply setRing_memOk | with_reducible apply ringEnable_memOk | split)

theorem setWinXlat_memOk : ∀ x0 x1 x2 x3, memOk x3 → memOk (setWinXlat x0 x1 x2 x3) := by
  intros; unfold setWinXlat; repeat' (first | with_reducible assumption | with_reducible apply State_setPorts_memOk)

theorem barWrite_memOk : ∀ x0 x1 x2 x3 x4 x5, memOk x5 → memOk (barWrite x0 x1 x2 x3 x4 x5) := by
  intros; unfold barWrite; repeat' (first | with_reducible assumption | with_reducible apply setCfg_memOk | split | dsimp only)

theorem configWrite_memOk : ∀ x0 x1 x2 x3, memOk x3 → memOk (configWrite x0 x1 x2 x3) := by
  intros; unfold configWrite; repeat' (first | with_reducible assumption | intro _ | extract_lets | with_reducible apply releaseMsix_memOk | with_reducible apply setCfg_memOk | with_reducible apply barWrite_memOk | split | dsimp +zetaDelta only)

theorem msixWrite_memOk : ∀ x0 x1 x2 x3, memOk x3 → memOk (msixWrite x0 x1 x2 x3) := by
  intros; unfold msixWrite; repeat' (first | with_reducible assumption | intro _ | extract_lets | with_reducible apply releaseMsix_memOk | with_reducible apply State_setPorts_memOk | split | dsimp +zetaDelta only)

theorem areaWrite_memOk : ∀ x0 x1 x2 x3, memOk x3 → memOk (areaWrite x0 x1 x2 x3) := by
  intros; unfold areaWrite; repeat' (first | with_reducible assumption | with_reducible apply msixWrite_memOk | with_reducible apply configWrite_memOk | intro _ | extract_lets | with_reducible apply icpWake_memOk | with_reducible apply ringWrite_memOk | with_reducible apply setWinXlat_memOk | with_reducible apply setApt_memOk | split | dsimp +zetaDelta only)

theorem execCsrWrite_memOk : ∀ x0 x1 x2 x3, memOk x3 → OutOk (execCsrWrite x0 x1 x2 x3) := by
  intros; unfold execCsrWrite; repeat' (first | with_reducible assumption | with_reducible apply acsWrite_memOk | intro _ | extract_lets | with_reducible apply configRetry_memOk |  with_reducible apply msixWrite_memOk | with_reducible apply configWrite_memOk | with_reducible apply OutOk.mk | with_reducible apply csrPut_memOk | with_reducible apply icpWake_memOk | with_reducible apply ringWrite_memOk | with_reducible apply setWinXlat_memOk | split | dsimp +zetaDelta only)

theorem execWindowAccess_memOk : ∀ x0 x1 x2 x3 x4, memOk x4 → OutOk (execWindowAccess x0 x1 x2 x3 x4) := by
  intros; unfold execWindowAccess; repeat' (first | with_reducible assumption | with_reducible apply unserved_memOk |  intro _ | extract_lets | with_reducible apply OutOk.mk | with_reducible apply emit_memOk | with_reducible apply setApt_memOk | with_reducible apply areaWrite_memOk | with_reducible apply countUnmapped_memOk | with_reducible apply csrReadCount_memOk | with_reducible apply csrPut_memOk | split | dsimp +zetaDelta only)

theorem execUnmappedAccess_memOk : ∀ x0 x1 x2 x3, memOk x3 → OutOk (execUnmappedAccess x0 x1 x2 x3) := by
  intros; unfold execUnmappedAccess; repeat' (first | with_reducible assumption | intro _ | extract_lets | with_reducible apply OutOk.mk | with_reducible apply countUnmapped_memOk | with_reducible apply emit_memOk | with_reducible apply vaultDenied_memOk | split | dsimp +zetaDelta only)

end Sys2Proof.Machine
end

