-- ==== Sys2Proof/Laws/MemOkIsolation.lean ====
section
/-! SUPPORT. Every operation of Machine/Isolation.lean keeps memory in its canonical form. -/

namespace Sys2Proof.Machine

open Sys2Proof

theorem failCommands_memOk : ∀ x0, memOk x0 → memOk (failCommands x0) := by
  intros; unfold failCommands; repeat' (first | with_reducible assumption | intro _ | with_reducible apply livePause_memOk | with_reducible apply resumeIntake_memOk | with_reducible apply finishWait_memOk | with_reducible apply endCommit_memOk | with_reducible apply memOk_foldl | split)

theorem failQueue_memOk : ∀ x0 x1, memOk x1 → memOk (failQueue x0 x1) := by
  intros; unfold failQueue; repeat' (first | with_reducible assumption | intro _ | with_reducible apply failDesc_memOk | with_reducible apply memOk_foldl)

theorem failTable_memOk : ∀ x0, memOk x0 → memOk (failTable x0) := by
  intros; unfold failTable; repeat' (first | with_reducible assumption | intro _ | with_reducible apply settle_memOk | with_reducible apply sendDomain_memOk | with_reducible apply dropJobs_memOk | with_reducible apply State_setTab_memOk | with_reducible apply failQueue_memOk | with_reducible apply memOk_foldl | dsimp only)

theorem failJob_memOk : ∀ x0 x1, memOk x1 → memOk (failJob x0 x1) := by
  intros; unfold failJob; repeat' (first | with_reducible assumption | intro _ | with_reducible apply failDesc_memOk | with_reducible apply gotIndex_memOk | with_reducible apply dropJobs_memOk | with_reducible apply sendDomain_memOk | with_reducible apply State_setTab_memOk | split | dsimp only)

theorem failCluster_memOk : ∀ x0 x1, memOk x1 → memOk (failCluster x0 x1) := by
  intros; unfold failCluster; repeat' (first | with_reducible assumption | intro _ | with_reducible apply settle_memOk | with_reducible apply failJob_memOk | with_reducible apply memOk_foldl)

theorem failStorage_memOk : ∀ x0, memOk x0 → memOk (failStorage x0) := by
  intros; unfold failStorage; repeat' (first | with_reducible assumption | intro _ | with_reducible apply settle_memOk | with_reducible apply stoSettle_memOk | with_reducible apply endOp_memOk | with_reducible apply memOk_foldl)

theorem failTransport_memOk : ∀ x0, memOk x0 → memOk (failTransport x0) := by
  intros; unfold failTransport; repeat' (first | with_reducible assumption | intro _ | with_reducible apply markDone_memOk | with_reducible apply endReq_memOk | with_reducible apply setWq_memOk | with_reducible apply memOk_foldl | split | dsimp only)

theorem failFrame_memOk : ∀ x0 x1 x2, memOk x2 → memOk (failFrame x0 x1 x2) := by
  intros; unfold failFrame; repeat' (first | with_reducible assumption | with_reducible apply txDone_memOk | with_reducible apply bumpEn_memOk | split)

theorem failPort_memOk : ∀ x0 x1, memOk x1 → memOk (failPort x0 x1) := by
  intros; unfold failPort; repeat' (first | with_reducible assumption | intro _ | with_reducible apply failFrame_memOk | with_reducible apply updSub_memOk | with_reducible apply memOk_foldl | split | dsimp only)

theorem failAdmitted_memOk : ∀ x0 x1, memOk x1 → memOk (failAdmitted x0 x1) := by
  intros; unfold failAdmitted; repeat' (first | with_reducible assumption | with_reducible apply failCommands_memOk | with_reducible apply failCluster_memOk | with_reducible apply failTable_memOk | with_reducible apply settle_memOk | with_reducible apply abortCourse_memOk | with_reducible apply failStorage_memOk | with_reducible apply failTransport_memOk | with_reducible apply failPort_memOk | split)

theorem execIsolatedBlockReturn_memOk : ∀ x0 x1, memOk x1 → OutOk (execIsolatedBlockReturn x0 x1) := by
  intros; unfold execIsolatedBlockReturn; repeat' (first | with_reducible assumption | with_reducible apply OutOk.mk | with_reducible apply failAdmitted_memOk | with_reducible apply releaseFault_memOk | with_reducible apply setErr_memOk | split)

theorem execEscalationTimerExpiry_memOk : ∀ x0 x1, memOk x1 → OutOk (execEscalationTimerExpiry x0 x1) := by
  intros; unfold execEscalationTimerExpiry; repeat' (first | with_reducible assumption | with_reducible apply OutOk.mk | extract_lets | with_reducible apply failAdmitted_memOk | with_reducible apply bump_memOk | with_reducible apply setErr_memOk | with_reducible apply driveAlert_memOk | with_reducible apply takeFallback_memOk | split)

end Sys2Proof.Machine
end

