-- ==== Sys2Proof/Laws/MemOkLendel.lean ====
section
/-! SUPPORT. Every operation of Machine/Lendel.lean keeps memory in its canonical form. -/

namespace Sys2Proof.Machine

open Sys2Proof

theorem rr_memOk : ∀ x0 x1 x2 x3 x4 x5, memOk x5 → memOk (rr x0 x1 x2 x3 x4 x5) := by
  intros; unfold rr; repeat' (first | with_reducible assumption | intro _ | extract_lets | with_reducible apply pureOp_memOk)

theorem rk_memOk : ∀ x0 x1 x2 x3 x4 x5, memOk x5 → memOk (rk x0 x1 x2 x3 x4 x5) := by
  intros; unfold rk; repeat' (first | with_reducible assumption | intro _ | extract_lets | with_reducible apply pureOp_memOk)

theorem execAdd_memOk : ∀ x0 x1 x2 x3 x4, memOk x4 → OutOk (execAdd x0 x1 x2 x3 x4) := by
  intros; unfold execAdd; repeat' (first | with_reducible assumption | intro _ | extract_lets | with_reducible apply OutOk.mk | with_reducible apply rr_memOk)

theorem execSub_memOk : ∀ x0 x1 x2 x3 x4, memOk x4 → OutOk (execSub x0 x1 x2 x3 x4) := by
  intros; unfold execSub; repeat' (first | with_reducible assumption | intro _ | extract_lets | with_reducible apply OutOk.mk | with_reducible apply rr_memOk)

theorem execAnd_memOk : ∀ x0 x1 x2 x3 x4, memOk x4 → OutOk (execAnd x0 x1 x2 x3 x4) := by
  intros; unfold execAnd; repeat' (first | with_reducible assumption | intro _ | extract_lets | with_reducible apply OutOk.mk | with_reducible apply rr_memOk)

theorem execOr_memOk : ∀ x0 x1 x2 x3 x4, memOk x4 → OutOk (execOr x0 x1 x2 x3 x4) := by
  intros; unfold execOr; repeat' (first | with_reducible assumption | intro _ | extract_lets | with_reducible apply OutOk.mk | with_reducible apply rr_memOk)

theorem execXor_memOk : ∀ x0 x1 x2 x3 x4, memOk x4 → OutOk (execXor x0 x1 x2 x3 x4) := by
  intros; unfold execXor; repeat' (first | with_reducible assumption | intro _ | extract_lets | with_reducible apply OutOk.mk | with_reducible apply rr_memOk)

theorem execShl_memOk : ∀ x0 x1 x2 x3 x4, memOk x4 → OutOk (execShl x0 x1 x2 x3 x4) := by
  intros; unfold execShl; repeat' (first | with_reducible assumption | intro _ | extract_lets | with_reducible apply OutOk.mk | with_reducible apply rr_memOk)

theorem execShr_memOk : ∀ x0 x1 x2 x3 x4, memOk x4 → OutOk (execShr x0 x1 x2 x3 x4) := by
  intros; unfold execShr; repeat' (first | with_reducible assumption | intro _ | extract_lets | with_reducible apply OutOk.mk | with_reducible apply rr_memOk)

theorem execSar_memOk : ∀ x0 x1 x2 x3 x4, memOk x4 → OutOk (execSar x0 x1 x2 x3 x4) := by
  intros; unfold execSar; repeat' (first | with_reducible assumption | intro _ | extract_lets | with_reducible apply OutOk.mk | with_reducible apply rr_memOk)

theorem execSetlt_memOk : ∀ x0 x1 x2 x3 x4, memOk x4 → OutOk (execSetlt x0 x1 x2 x3 x4) := by
  intros; unfold execSetlt; repeat' (first | with_reducible assumption | intro _ | extract_lets | with_reducible apply OutOk.mk | with_reducible apply rr_memOk)

theorem execSetltu_memOk : ∀ x0 x1 x2 x3 x4, memOk x4 → OutOk (execSetltu x0 x1 x2 x3 x4) := by
  intros; unfold execSetltu; repeat' (first | with_reducible assumption | intro _ | extract_lets | with_reducible apply OutOk.mk | with_reducible apply rr_memOk)

theorem execMin_memOk : ∀ x0 x1 x2 x3 x4, memOk x4 → OutOk (execMin x0 x1 x2 x3 x4) := by
  intros; unfold execMin; repeat' (first | with_reducible assumption | intro _ | extract_lets | with_reducible apply OutOk.mk | with_reducible apply rr_memOk)

theorem execMax_memOk : ∀ x0 x1 x2 x3 x4, memOk x4 → OutOk (execMax x0 x1 x2 x3 x4) := by
  intros; unfold execMax; repeat' (first | with_reducible assumption | intro _ | extract_lets | with_reducible apply OutOk.mk | with_reducible apply rr_memOk)

theorem execMinu_memOk : ∀ x0 x1 x2 x3 x4, memOk x4 → OutOk (execMinu x0 x1 x2 x3 x4) := by
  intros; unfold execMinu; repeat' (first | with_reducible assumption | intro _ | extract_lets | with_reducible apply OutOk.mk | with_reducible apply rr_memOk)

theorem execMaxu_memOk : ∀ x0 x1 x2 x3 x4, memOk x4 → OutOk (execMaxu x0 x1 x2 x3 x4) := by
  intros; unfold execMaxu; repeat' (first | with_reducible assumption | intro _ | extract_lets | with_reducible apply OutOk.mk | with_reducible apply rr_memOk)

theorem execMul_memOk : ∀ x0 x1 x2 x3 x4, memOk x4 → OutOk (execMul x0 x1 x2 x3 x4) := by
  intros; unfold execMul; repeat' (first | with_reducible assumption | intro _ | extract_lets | with_reducible apply OutOk.mk | with_reducible apply rr_memOk)

theorem execMulhs_memOk : ∀ x0 x1 x2 x3 x4, memOk x4 → OutOk (execMulhs x0 x1 x2 x3 x4) := by
  intros; unfold execMulhs; repeat' (first | with_reducible assumption | intro _ | extract_lets | with_reducible apply OutOk.mk | with_reducible apply rr_memOk)

theorem execMulhu_memOk : ∀ x0 x1 x2 x3 x4, memOk x4 → OutOk (execMulhu x0 x1 x2 x3 x4) := by
  intros; unfold execMulhu; repeat' (first | with_reducible assumption | intro _ | extract_lets | with_reducible apply OutOk.mk | with_reducible apply rr_memOk)

theorem execDivs_memOk : ∀ x0 x1 x2 x3 x4, memOk x4 → OutOk (execDivs x0 x1 x2 x3 x4) := by
  intros; unfold execDivs; repeat' (first | with_reducible assumption | intro _ | extract_lets | with_reducible apply OutOk.mk | with_reducible apply rr_memOk)

theorem execDivu_memOk : ∀ x0 x1 x2 x3 x4, memOk x4 → OutOk (execDivu x0 x1 x2 x3 x4) := by
  intros; unfold execDivu; repeat' (first | with_reducible assumption | intro _ | extract_lets | with_reducible apply OutOk.mk | with_reducible apply rr_memOk)

theorem execRems_memOk : ∀ x0 x1 x2 x3 x4, memOk x4 → OutOk (execRems x0 x1 x2 x3 x4) := by
  intros; unfold execRems; repeat' (first | with_reducible assumption | intro _ | extract_lets | with_reducible apply OutOk.mk | with_reducible apply rr_memOk)

theorem execRemu_memOk : ∀ x0 x1 x2 x3 x4, memOk x4 → OutOk (execRemu x0 x1 x2 x3 x4) := by
  intros; unfold execRemu; repeat' (first | with_reducible assumption | intro _ | extract_lets | with_reducible apply OutOk.mk | with_reducible apply rr_memOk)

theorem execAddk_memOk : ∀ x0 x1 x2 x3 x4, memOk x4 → OutOk (execAddk x0 x1 x2 x3 x4) := by
  intros; unfold execAddk; repeat' (first | with_reducible assumption | intro _ | extract_lets | with_reducible apply OutOk.mk | with_reducible apply rk_memOk)

theorem execAndk_memOk : ∀ x0 x1 x2 x3 x4, memOk x4 → OutOk (execAndk x0 x1 x2 x3 x4) := by
  intros; unfold execAndk; repeat' (first | with_reducible assumption | intro _ | extract_lets | with_reducible apply OutOk.mk | with_reducible apply rk_memOk)

theorem execOrk_memOk : ∀ x0 x1 x2 x3 x4, memOk x4 → OutOk (execOrk x0 x1 x2 x3 x4) := by
  intros; unfold execOrk; repeat' (first | with_reducible assumption | intro _ | extract_lets | with_reducible apply OutOk.mk | with_reducible apply rk_memOk)

theorem execXork_memOk : ∀ x0 x1 x2 x3 x4, memOk x4 → OutOk (execXork x0 x1 x2 x3 x4) := by
  intros; unfold execXork; repeat' (first | with_reducible assumption | intro _ | extract_lets | with_reducible apply OutOk.mk | with_reducible apply rk_memOk)

theorem execSetltk_memOk : ∀ x0 x1 x2 x3 x4, memOk x4 → OutOk (execSetltk x0 x1 x2 x3 x4) := by
  intros; unfold execSetltk; repeat' (first | with_reducible assumption | intro _ | extract_lets | with_reducible apply OutOk.mk | with_reducible apply rk_memOk)

theorem execSetltuk_memOk : ∀ x0 x1 x2 x3 x4, memOk x4 → OutOk (execSetltuk x0 x1 x2 x3 x4) := by
  intros; unfold execSetltuk; repeat' (first | with_reducible assumption | intro _ | extract_lets | with_reducible apply OutOk.mk | with_reducible apply rk_memOk)

theorem execShlk_memOk : ∀ x0 x1 x2 x3 x4, memOk x4 → OutOk (execShlk x0 x1 x2 x3 x4) := by
  intros; unfold execShlk; repeat' (first | with_reducible assumption | intro _ | extract_lets | with_reducible apply OutOk.mk | with_reducible apply rk_memOk)

theorem execShrk_memOk : ∀ x0 x1 x2 x3 x4, memOk x4 → OutOk (execShrk x0 x1 x2 x3 x4) := by
  intros; unfold execShrk; repeat' (first | with_reducible assumption | intro _ | extract_lets | with_reducible apply OutOk.mk | with_reducible apply rk_memOk)

theorem execSark_memOk : ∀ x0 x1 x2 x3 x4, memOk x4 → OutOk (execSark x0 x1 x2 x3 x4) := by
  intros; unfold execSark; repeat' (first | with_reducible assumption | intro _ | extract_lets | with_reducible apply OutOk.mk | with_reducible apply rk_memOk)

theorem execLdi_memOk : ∀ x0 x1 x2 x3, memOk x3 → OutOk (execLdi x0 x1 x2 x3) := by
  intros; unfold execLdi; repeat' (first | with_reducible assumption | intro _ | extract_lets | with_reducible apply OutOk.mk | with_reducible apply pureOp_memOk)

theorem execLdis_memOk : ∀ x0 x1 x2 x3, memOk x3 → OutOk (execLdis x0 x1 x2 x3) := by
  intros; unfold execLdis; repeat' (first | with_reducible assumption | intro _ | extract_lets | with_reducible apply OutOk.mk | with_reducible apply pureOp_memOk)

theorem execQMv_memOk : ∀ x0 x1 x2 x3, memOk x3 → OutOk (execQMv x0 x1 x2 x3) := by
  intros; unfold execQMv; repeat' (first | with_reducible assumption | intro _ | extract_lets | with_reducible apply OutOk.mk | with_reducible apply pureOp_memOk)

theorem execQAdd_memOk : ∀ x0 x1 x2 x3, memOk x3 → OutOk (execQAdd x0 x1 x2 x3) := by
  intros; unfold execQAdd; repeat' (first | with_reducible assumption | intro _ | extract_lets | with_reducible apply OutOk.mk | with_reducible apply pureOp_memOk)

theorem execQSub_memOk : ∀ x0 x1 x2 x3, memOk x3 → OutOk (execQSub x0 x1 x2 x3) := by
  intros; unfold execQSub; repeat' (first | with_reducible assumption | intro _ | extract_lets | with_reducible apply OutOk.mk | with_reducible apply pureOp_memOk)

theorem execQLdk_memOk : ∀ x0 x1 x2 x3, memOk x3 → OutOk (execQLdk x0 x1 x2 x3) := by
  intros; unfold execQLdk; repeat' (first | with_reducible assumption | intro _ | extract_lets | with_reducible apply OutOk.mk | with_reducible apply pureOp_memOk)

theorem execQAddk_memOk : ∀ x0 x1 x2 x3, memOk x3 → OutOk (execQAddk x0 x1 x2 x3) := by
  intros; unfold execQAddk; repeat' (first | with_reducible assumption | intro _ | extract_lets | with_reducible apply OutOk.mk | with_reducible apply pureOp_memOk)

theorem execQShlk_memOk : ∀ x0 x1 x2 x3, memOk x3 → OutOk (execQShlk x0 x1 x2 x3) := by
  intros; unfold execQShlk; repeat' (first | with_reducible assumption | intro _ | extract_lets | with_reducible apply OutOk.mk | with_reducible apply pureOp_memOk)

theorem execQNop_memOk : ∀ x0 x1, memOk x1 → OutOk (execQNop x0 x1) := by
  intros; unfold execQNop; repeat' (first | with_reducible assumption | intro _ | extract_lets | with_reducible apply OutOk.mk | with_reducible apply pureOp_memOk)

theorem loadTo_memOk : ∀ x0 x1 x2 x3 x4 x5 x6 x7, memOk x7 → memOk (loadTo x0 x1 x2 x3 x4 x5 x6 x7) := by
  intros; unfold loadTo; repeat' (first | with_reducible assumption | (intro _) | extract_lets | (with_reducible apply Flow.ok_next) | (with_reducible apply Flow.ok_jump) | (with_reducible apply Flow.ok_keep) | (with_reducible apply Flow.ok_halt) | (with_reducible apply Flow.ok_fault) | (with_reducible apply issue_memOk) | (with_reducible apply loadMem_memOk) | (with_reducible apply memFaults_memOk) | (with_reducible apply memOk_foldl) | (with_reducible apply memOk_foldl_fst) | (with_reducible apply memOk_foldl_snd) | (with_reducible apply memOk_getD) | (with_reducible apply optOk_map) | (with_reducible apply optOk_mk) | (with_reducible apply optOk_none) | split | dsimp only | dsimp +zetaDelta only | (refine Acc.get_ok (by assumption) ?_) | (refine Acc.get_fault (by assumption) ?_) | (refine Acc.get_wait (by assumption) ?_))

theorem storeFrom_memOk : ∀ x0 x1 x2 x3 x4 x5 x6, memOk x6 → memOk (storeFrom x0 x1 x2 x3 x4 x5 x6) := by
  intros; unfold storeFrom; repeat' (first | with_reducible assumption | with_reducible apply storeFaults_memOk | (intro _) | extract_lets | (with_reducible apply Flow.ok_next) | (with_reducible apply Flow.ok_jump) | (with_reducible apply Flow.ok_keep) | (with_reducible apply Flow.ok_halt) | (with_reducible apply Flow.ok_fault) | (with_reducible apply issue_memOk) | (with_reducible apply storeMem_memOk) | (with_reducible apply memFaults_memOk) | (with_reducible apply memOk_foldl) | (with_reducible apply memOk_foldl_fst) | (with_reducible apply memOk_foldl_snd) | (with_reducible apply memOk_getD) | (with_reducible apply optOk_map) | (with_reducible apply optOk_mk) | (with_reducible apply optOk_none) | split | dsimp only | dsimp +zetaDelta only | (refine Acc.get_ok (by assumption) ?_) | (refine Acc.get_fault (by assumption) ?_) | (refine Acc.get_wait (by assumption) ?_))

theorem execLdB_memOk : ∀ x0 x1 x2 x3 x4 x5, memOk x5 → OutOk (execLdB x0 x1 x2 x3 x4 x5) := by
  intros; unfold execLdB; repeat' (first | with_reducible assumption | intro _ | extract_lets | with_reducible apply OutOk.mk | with_reducible apply loadTo_memOk)

theorem execLdH_memOk : ∀ x0 x1 x2 x3 x4 x5, memOk x5 → OutOk (execLdH x0 x1 x2 x3 x4 x5) := by
  intros; unfold execLdH; repeat' (first | with_reducible assumption | intro _ | extract_lets | with_reducible apply OutOk.mk | with_reducible apply loadTo_memOk)

theorem execLdW_memOk : ∀ x0 x1 x2 x3 x4 x5, memOk x5 → OutOk (execLdW x0 x1 x2 x3 x4 x5) := by
  intros; unfold execLdW; repeat' (first | with_reducible assumption | intro _ | extract_lets | with_reducible apply OutOk.mk | with_reducible apply loadTo_memOk)

theorem execLdD_memOk : ∀ x0 x1 x2 x3 x4 x5, memOk x5 → OutOk (execLdD x0 x1 x2 x3 x4 x5) := by
  intros; unfold execLdD; repeat' (first | with_reducible assumption | intro _ | extract_lets | with_reducible apply OutOk.mk | with_reducible apply loadTo_memOk)

theorem execLdBu_memOk : ∀ x0 x1 x2 x3 x4 x5, memOk x5 → OutOk (execLdBu x0 x1 x2 x3 x4 x5) := by
  intros; unfold execLdBu; repeat' (first | with_reducible assumption | intro _ | extract_lets | with_reducible apply OutOk.mk | with_reducible apply loadTo_memOk)

theorem execLdHu_memOk : ∀ x0 x1 x2 x3 x4 x5, memOk x5 → OutOk (execLdHu x0 x1 x2 x3 x4 x5) := by
  intros; unfold execLdHu; repeat' (first | with_reducible assumption | intro _ | extract_lets | with_reducible apply OutOk.mk | with_reducible apply loadTo_memOk)

theorem execLdWu_memOk : ∀ x0 x1 x2 x3 x4 x5, memOk x5 → OutOk (execLdWu x0 x1 x2 x3 x4 x5) := by
  intros; unfold execLdWu; repeat' (first | with_reducible assumption | intro _ | extract_lets | with_reducible apply OutOk.mk | with_reducible apply loadTo_memOk)

theorem execStB_memOk : ∀ x0 x1 x2 x3 x4 x5, memOk x5 → OutOk (execStB x0 x1 x2 x3 x4 x5) := by
  intros; unfold execStB; repeat' (first | with_reducible assumption | intro _ | extract_lets | with_reducible apply OutOk.mk | with_reducible apply storeFrom_memOk)

theorem execStH_memOk : ∀ x0 x1 x2 x3 x4 x5, memOk x5 → OutOk (execStH x0 x1 x2 x3 x4 x5) := by
  intros; unfold execStH; repeat' (first | with_reducible assumption | intro _ | extract_lets | with_reducible apply OutOk.mk | with_reducible apply storeFrom_memOk)

theorem execStW_memOk : ∀ x0 x1 x2 x3 x4 x5, memOk x5 → OutOk (execStW x0 x1 x2 x3 x4 x5) := by
  intros; unfold execStW; repeat' (first | with_reducible assumption | intro _ | extract_lets | with_reducible apply OutOk.mk | with_reducible apply storeFrom_memOk)

theorem execStD_memOk : ∀ x0 x1 x2 x3 x4 x5, memOk x5 → OutOk (execStD x0 x1 x2 x3 x4 x5) := by
  intros; unfold execStD; repeat' (first | with_reducible assumption | intro _ | extract_lets | with_reducible apply OutOk.mk | with_reducible apply storeFrom_memOk)

theorem execQLdD_memOk : ∀ x0 x1 x2 x3 x4 x5, memOk x5 → OutOk (execQLdD x0 x1 x2 x3 x4 x5) := by
  intros; unfold execQLdD; repeat' (first | with_reducible assumption | intro _ | extract_lets | with_reducible apply OutOk.mk | with_reducible apply loadTo_memOk)

theorem execQLdW_memOk : ∀ x0 x1 x2 x3 x4 x5, memOk x5 → OutOk (execQLdW x0 x1 x2 x3 x4 x5) := by
  intros; unfold execQLdW; repeat' (first | with_reducible assumption | intro _ | extract_lets | with_reducible apply OutOk.mk | with_reducible apply loadTo_memOk)

theorem execQStD_memOk : ∀ x0 x1 x2 x3 x4 x5, memOk x5 → OutOk (execQStD x0 x1 x2 x3 x4 x5) := by
  intros; unfold execQStD; repeat' (first | with_reducible assumption | intro _ | extract_lets | with_reducible apply OutOk.mk | with_reducible apply storeFrom_memOk)

theorem execQStW_memOk : ∀ x0 x1 x2 x3 x4 x5, memOk x5 → OutOk (execQStW x0 x1 x2 x3 x4 x5) := by
  intros; unfold execQStW; repeat' (first | with_reducible assumption | intro _ | extract_lets | with_reducible apply OutOk.mk | with_reducible apply storeFrom_memOk)

theorem branch_memOk : ∀ x0 x1 x2 x3 x4, memOk x4 → memOk (branch x0 x1 x2 x3 x4) := by
  intros; unfold branch; repeat' (first | with_reducible assumption | intro _ | extract_lets | with_reducible apply Flow.ok_next | with_reducible apply Flow.ok_jump | with_reducible apply Flow.ok_keep | with_reducible apply Flow.ok_halt | with_reducible apply Flow.ok_fault | with_reducible apply issue_memOk | with_reducible apply memOk_foldl | with_reducible apply memOk_foldl_fst | with_reducible apply memOk_foldl_snd | with_reducible apply memOk_getD | with_reducible apply optOk_map | with_reducible apply optOk_mk | with_reducible apply optOk_none | split)

theorem br_memOk : ∀ x0 x1 x2 x3 x4 x5, memOk x5 → memOk (br x0 x1 x2 x3 x4 x5) := by
  intros; unfold br; repeat' (first | with_reducible assumption | intro _ | extract_lets | with_reducible apply branch_memOk)

theorem execBeq_memOk : ∀ x0 x1 x2 x3 x4, memOk x4 → OutOk (execBeq x0 x1 x2 x3 x4) := by
  intros; unfold execBeq; repeat' (first | with_reducible assumption | intro _ | extract_lets | with_reducible apply OutOk.mk | with_reducible apply br_memOk)

theorem execBne_memOk : ∀ x0 x1 x2 x3 x4, memOk x4 → OutOk (execBne x0 x1 x2 x3 x4) := by
  intros; unfold execBne; repeat' (first | with_reducible assumption | intro _ | extract_lets | with_reducible apply OutOk.mk | with_reducible apply br_memOk)

theorem execBlt_memOk : ∀ x0 x1 x2 x3 x4, memOk x4 → OutOk (execBlt x0 x1 x2 x3 x4) := by
  intros; unfold execBlt; repeat' (first | with_reducible assumption | intro _ | extract_lets | with_reducible apply OutOk.mk | with_reducible apply br_memOk)

theorem execBge_memOk : ∀ x0 x1 x2 x3 x4, memOk x4 → OutOk (execBge x0 x1 x2 x3 x4) := by
  intros; unfold execBge; repeat' (first | with_reducible assumption | intro _ | extract_lets | with_reducible apply OutOk.mk | with_reducible apply br_memOk)

theorem execBltu_memOk : ∀ x0 x1 x2 x3 x4, memOk x4 → OutOk (execBltu x0 x1 x2 x3 x4) := by
  intros; unfold execBltu; repeat' (first | with_reducible assumption | intro _ | extract_lets | with_reducible apply OutOk.mk | with_reducible apply br_memOk)

theorem execBgeu_memOk : ∀ x0 x1 x2 x3 x4, memOk x4 → OutOk (execBgeu x0 x1 x2 x3 x4) := by
  intros; unfold execBgeu; repeat' (first | with_reducible assumption | intro _ | extract_lets | with_reducible apply OutOk.mk | with_reducible apply br_memOk)

theorem execBeqz_memOk : ∀ x0 x1 x2 x3, memOk x3 → OutOk (execBeqz x0 x1 x2 x3) := by
  intros; unfold execBeqz; repeat' (first | with_reducible assumption | intro _ | extract_lets | with_reducible apply OutOk.mk | with_reducible apply branch_memOk)

theorem execBnez_memOk : ∀ x0 x1 x2 x3, memOk x3 → OutOk (execBnez x0 x1 x2 x3) := by
  intros; unfold execBnez; repeat' (first | with_reducible assumption | intro _ | extract_lets | with_reducible apply OutOk.mk | with_reducible apply branch_memOk)

theorem execBany_memOk : ∀ x0 x1 x2 x3, memOk x3 → OutOk (execBany x0 x1 x2 x3) := by
  intros; unfold execBany; repeat' (first | with_reducible assumption | intro _ | extract_lets | with_reducible apply OutOk.mk | with_reducible apply branch_memOk)

theorem execBnone_memOk : ∀ x0 x1 x2 x3, memOk x3 → OutOk (execBnone x0 x1 x2 x3) := by
  intros; unfold execBnone; repeat' (first | with_reducible assumption | intro _ | extract_lets | with_reducible apply OutOk.mk | with_reducible apply branch_memOk)

theorem execQBeqz_memOk : ∀ x0 x1 x2 x3, memOk x3 → OutOk (execQBeqz x0 x1 x2 x3) := by
  intros; unfold execQBeqz; repeat' (first | with_reducible assumption | intro _ | extract_lets | with_reducible apply OutOk.mk | with_reducible apply branch_memOk)

theorem execQBnez_memOk : ∀ x0 x1 x2 x3, memOk x3 → OutOk (execQBnez x0 x1 x2 x3) := by
  intros; unfold execQBnez; repeat' (first | with_reducible assumption | intro _ | extract_lets | with_reducible apply OutOk.mk | with_reducible apply branch_memOk)

theorem execQJmp_memOk : ∀ x0 x1 x2, memOk x2 → OutOk (execQJmp x0 x1 x2) := by
  intros; unfold execQJmp; repeat' (first | with_reducible assumption | intro _ | extract_lets | with_reducible apply OutOk.mk | with_reducible apply branch_memOk)

theorem execCall_memOk : ∀ x0 x1 x2 x3, memOk x3 → OutOk (execCall x0 x1 x2 x3) := by
  intros; unfold execCall; repeat' (first | with_reducible assumption | intro _ | extract_lets | with_reducible apply OutOk.mk | with_reducible apply Flow.ok_next | with_reducible apply Flow.ok_jump | with_reducible apply Flow.ok_keep | with_reducible apply Flow.ok_halt | with_reducible apply Flow.ok_fault | with_reducible apply issue_memOk)

theorem execCallr_memOk : ∀ x0 x1 x2 x3 x4, memOk x4 → OutOk (execCallr x0 x1 x2 x3 x4) := by
  intros; unfold execCallr; repeat' (first | with_reducible assumption | intro _ | extract_lets | with_reducible apply OutOk.mk | with_reducible apply Flow.ok_next | with_reducible apply Flow.ok_jump | with_reducible apply Flow.ok_keep | with_reducible apply Flow.ok_halt | with_reducible apply Flow.ok_fault | with_reducible apply issue_memOk | with_reducible apply memOk_foldl | with_reducible apply memOk_foldl_fst | with_reducible apply memOk_foldl_snd | with_reducible apply memOk_getD | with_reducible apply optOk_map | with_reducible apply optOk_mk | with_reducible apply optOk_none | split)

theorem execQJr_memOk : ∀ x0 x1 x2, memOk x2 → OutOk (execQJr x0 x1 x2) := by
  intros; unfold execQJr; repeat' (first | with_reducible assumption | intro _ | extract_lets | with_reducible apply OutOk.mk | with_reducible apply Flow.ok_next | with_reducible apply Flow.ok_jump | with_reducible apply Flow.ok_keep | with_reducible apply Flow.ok_halt | with_reducible apply Flow.ok_fault | with_reducible apply issue_memOk | with_reducible apply memOk_foldl | with_reducible apply memOk_foldl_fst | with_reducible apply memOk_foldl_snd | with_reducible apply memOk_getD | with_reducible apply optOk_map | with_reducible apply optOk_mk | with_reducible apply optOk_none | split)

theorem fenceAt_memOk : ∀ x0 x1 x2, memOk x2 → memOk (fenceAt x0 x1 x2) := by
  intros; unfold fenceAt; repeat' (first | with_reducible assumption | intro _ | extract_lets | with_reducible apply l1Clear_memOk | with_reducible apply memOk_foldl | with_reducible apply memOk_foldl_fst | with_reducible apply memOk_foldl_snd | with_reducible apply memOk_getD | with_reducible apply optOk_map | with_reducible apply optOk_mk | with_reducible apply optOk_none | split)

theorem execFence_memOk : ∀ x0 x1 x2, memOk x2 → OutOk (execFence x0 x1 x2) := by
  intros; unfold execFence; repeat' (first | with_reducible assumption | intro _ | extract_lets | with_reducible apply OutOk.mk | with_reducible apply Flow.ok_next | with_reducible apply Flow.ok_jump | with_reducible apply Flow.ok_keep | with_reducible apply Flow.ok_halt | with_reducible apply Flow.ok_fault | with_reducible apply issue_memOk | with_reducible apply orIllegal_memOk | with_reducible apply fenceAt_memOk)

theorem execHalt_memOk : ∀ x0 x1, memOk x1 → OutOk (execHalt x0 x1) := by
  intros; unfold execHalt; repeat' (first | with_reducible assumption | intro _ | extract_lets | with_reducible apply OutOk.mk | with_reducible apply Flow.ok_next | with_reducible apply Flow.ok_jump | with_reducible apply Flow.ok_keep | with_reducible apply Flow.ok_halt | with_reducible apply Flow.ok_fault | with_reducible apply issue_memOk | with_reducible apply fenceAt_memOk)

theorem execQHalt_memOk : ∀ x0 x1, memOk x1 → OutOk (execQHalt x0 x1) := by
  intros; unfold execQHalt; repeat' (first | with_reducible assumption | intro _ | extract_lets | with_reducible apply OutOk.mk | with_reducible apply Flow.ok_next | with_reducible apply Flow.ok_jump | with_reducible apply Flow.ok_keep | with_reducible apply Flow.ok_halt | with_reducible apply Flow.ok_fault | with_reducible apply issue_memOk | with_reducible apply fenceAt_memOk)

theorem execRdsr_memOk : ∀ x0 x1 x2 x3, memOk x3 → OutOk (execRdsr x0 x1 x2 x3) := by
  intros; unfold execRdsr; repeat' (first | with_reducible assumption | intro _ | extract_lets | with_reducible apply OutOk.mk | with_reducible apply Flow.ok_next | with_reducible apply Flow.ok_jump | with_reducible apply Flow.ok_keep | with_reducible apply Flow.ok_halt | with_reducible apply Flow.ok_fault | with_reducible apply issue_memOk | with_reducible apply drawn_memOk | with_reducible apply memOk_foldl | with_reducible apply memOk_foldl_fst | with_reducible apply memOk_foldl_snd | with_reducible apply memOk_getD | with_reducible apply optOk_map | with_reducible apply optOk_mk | with_reducible apply optOk_none | split)

theorem execRpt_memOk : ∀ x0 x1 x2 x3, memOk x3 → OutOk (execRpt x0 x1 x2 x3) := by
  intros; unfold execRpt; repeat' (first | with_reducible assumption | intro _ | extract_lets | with_reducible apply OutOk.mk | with_reducible apply Flow.ok_next | with_reducible apply Flow.ok_jump | with_reducible apply Flow.ok_keep | with_reducible apply Flow.ok_halt | with_reducible apply Flow.ok_fault | with_reducible apply issue_memOk | with_reducible apply orIllegal_memOk | with_reducible apply slotUsed_memOk | split | dsimp +zetaDelta only | (refine Flow.get_next (by assumption) ?_) | (refine Flow.get_jump (by assumption) ?_) | (refine Flow.get_keep (by assumption) ?_) | (refine Flow.get_halt (by assumption) ?_) | (refine Flow.get_fault (by assumption) ?_))

theorem atomic_memOk : ∀ x0 x1 x2 x3 x4 x5 x6 x7 x8 x9 x10, memOk x10 → memOk (atomic x0 x1 x2 x3 x4 x5 x6 x7 x8 x9 x10) := by
  intros; unfold atomic; repeat' (first | with_reducible assumption | with_reducible apply storeFaults_memOk | intro _ | extract_lets | with_reducible apply Flow.ok_next | with_reducible apply Flow.ok_jump | with_reducible apply Flow.ok_keep | with_reducible apply Flow.ok_halt | with_reducible apply Flow.ok_fault | with_reducible apply issue_memOk | with_reducible apply orIllegal_memOk | with_reducible apply atomicMem_memOk | with_reducible apply memFaults_memOk | with_reducible apply drawn_memOk | with_reducible apply l1Clear_memOk | with_reducible apply memOk_foldl | with_reducible apply memOk_foldl_fst | with_reducible apply memOk_foldl_snd | with_reducible apply memOk_getD | with_reducible apply optOk_map | with_reducible apply optOk_mk | with_reducible apply optOk_none | split | dsimp only | dsimp +zetaDelta only | (refine Acc.get_ok (by assumption) ?_) | (refine Acc.get_fault (by assumption) ?_) | (refine Acc.get_wait (by assumption) ?_))

theorem execAadd_memOk : ∀ x0 x1 x2 x3 x4 x5 x6 x7 x8, memOk x8 → OutOk (execAadd x0 x1 x2 x3 x4 x5 x6 x7 x8) := by
  intros; unfold execAadd; repeat' (first | with_reducible assumption | intro _ | extract_lets | with_reducible apply OutOk.mk | with_reducible apply atomic_memOk)

theorem execAmin_memOk : ∀ x0 x1 x2 x3 x4 x5 x6 x7 x8, memOk x8 → OutOk (execAmin x0 x1 x2 x3 x4 x5 x6 x7 x8) := by
  intros; unfold execAmin; repeat' (first | with_reducible assumption | intro _ | extract_lets | with_reducible apply OutOk.mk | with_reducible apply atomic_memOk)

theorem execAmax_memOk : ∀ x0 x1 x2 x3 x4 x5 x6 x7 x8, memOk x8 → OutOk (execAmax x0 x1 x2 x3 x4 x5 x6 x7 x8) := by
  intros; unfold execAmax; repeat' (first | with_reducible assumption | intro _ | extract_lets | with_reducible apply OutOk.mk | with_reducible apply atomic_memOk)

theorem execAminu_memOk : ∀ x0 x1 x2 x3 x4 x5 x6 x7 x8, memOk x8 → OutOk (execAminu x0 x1 x2 x3 x4 x5 x6 x7 x8) := by
  intros; unfold execAminu; repeat' (first | with_reducible assumption | intro _ | extract_lets | with_reducible apply OutOk.mk | with_reducible apply atomic_memOk)

theorem execAmaxu_memOk : ∀ x0 x1 x2 x3 x4 x5 x6 x7 x8, memOk x8 → OutOk (execAmaxu x0 x1 x2 x3 x4 x5 x6 x7 x8) := by
  intros; unfold execAmaxu; repeat' (first | with_reducible assumption | intro _ | extract_lets | with_reducible apply OutOk.mk | with_reducible apply atomic_memOk)

theorem execAand_memOk : ∀ x0 x1 x2 x3 x4 x5 x6 x7 x8, memOk x8 → OutOk (execAand x0 x1 x2 x3 x4 x5 x6 x7 x8) := by
  intros; unfold execAand; repeat' (first | with_reducible assumption | intro _ | extract_lets | with_reducible apply OutOk.mk | with_reducible apply atomic_memOk)

theorem execAor_memOk : ∀ x0 x1 x2 x3 x4 x5 x6 x7 x8, memOk x8 → OutOk (execAor x0 x1 x2 x3 x4 x5 x6 x7 x8) := by
  intros; unfold execAor; repeat' (first | with_reducible assumption | intro _ | extract_lets | with_reducible apply OutOk.mk | with_reducible apply atomic_memOk)

theorem execAxor_memOk : ∀ x0 x1 x2 x3 x4 x5 x6 x7 x8, memOk x8 → OutOk (execAxor x0 x1 x2 x3 x4 x5 x6 x7 x8) := by
  intros; unfold execAxor; repeat' (first | with_reducible assumption | intro _ | extract_lets | with_reducible apply OutOk.mk | with_reducible apply atomic_memOk)

theorem execAswap_memOk : ∀ x0 x1 x2 x3 x4 x5 x6 x7 x8, memOk x8 → OutOk (execAswap x0 x1 x2 x3 x4 x5 x6 x7 x8) := by
  intros; unfold execAswap; repeat' (first | with_reducible assumption | intro _ | extract_lets | with_reducible apply OutOk.mk | with_reducible apply atomic_memOk)

theorem execAcas_memOk : ∀ x0 x1 x2 x3 x4 x5 x6 x7 x8, memOk x8 → OutOk (execAcas x0 x1 x2 x3 x4 x5 x6 x7 x8) := by
  intros; unfold execAcas; repeat' (first | with_reducible assumption | intro _ | extract_lets | with_reducible apply OutOk.mk | with_reducible apply atomic_memOk)

theorem execAfadd_memOk : ∀ x0 x1 x2 x3 x4 x5 x6 x7 x8, memOk x8 → OutOk (execAfadd x0 x1 x2 x3 x4 x5 x6 x7 x8) := by
  intros; unfold execAfadd; repeat' (first | with_reducible assumption | intro _ | extract_lets | with_reducible apply OutOk.mk | with_reducible apply atomic_memOk)

theorem execAfmin_memOk : ∀ x0 x1 x2 x3 x4 x5 x6 x7 x8, memOk x8 → OutOk (execAfmin x0 x1 x2 x3 x4 x5 x6 x7 x8) := by
  intros; unfold execAfmin; repeat' (first | with_reducible assumption | intro _ | extract_lets | with_reducible apply OutOk.mk | with_reducible apply atomic_memOk)

theorem execAfmax_memOk : ∀ x0 x1 x2 x3 x4 x5 x6 x7 x8, memOk x8 → OutOk (execAfmax x0 x1 x2 x3 x4 x5 x6 x7 x8) := by
  intros; unfold execAfmax; repeat' (first | with_reducible assumption | intro _ | extract_lets | with_reducible apply OutOk.mk | with_reducible apply atomic_memOk)

theorem execAbfadd2_memOk : ∀ x0 x1 x2 x3 x4 x5 x6 x7 x8, memOk x8 → OutOk (execAbfadd2 x0 x1 x2 x3 x4 x5 x6 x7 x8) := by
  intros; unfold execAbfadd2; repeat' (first | with_reducible assumption | intro _ | extract_lets | with_reducible apply OutOk.mk | with_reducible apply atomic_memOk)

theorem maskOp_memOk : ∀ x0 x1 x2 x3 x4 x5, memOk x5 → memOk (maskOp x0 x1 x2 x3 x4 x5) := by
  intros; unfold maskOp; repeat' (first | with_reducible assumption | intro _ | extract_lets | with_reducible apply pureOp_memOk)

theorem execMand_memOk : ∀ x0 x1 x2 x3 x4, memOk x4 → OutOk (execMand x0 x1 x2 x3 x4) := by
  intros; unfold execMand; repeat' (first | with_reducible assumption | intro _ | extract_lets | with_reducible apply OutOk.mk | with_reducible apply maskOp_memOk)

theorem execMor_memOk : ∀ x0 x1 x2 x3 x4, memOk x4 → OutOk (execMor x0 x1 x2 x3 x4) := by
  intros; unfold execMor; repeat' (first | with_reducible assumption | intro _ | extract_lets | with_reducible apply OutOk.mk | with_reducible apply maskOp_memOk)

theorem execMxor_memOk : ∀ x0 x1 x2 x3 x4, memOk x4 → OutOk (execMxor x0 x1 x2 x3 x4) := by
  intros; unfold execMxor; repeat' (first | with_reducible assumption | intro _ | extract_lets | with_reducible apply OutOk.mk | with_reducible apply maskOp_memOk)

theorem execMandn_memOk : ∀ x0 x1 x2 x3 x4, memOk x4 → OutOk (execMandn x0 x1 x2 x3 x4) := by
  intros; unfold execMandn; repeat' (first | with_reducible assumption | intro _ | extract_lets | with_reducible apply OutOk.mk | with_reducible apply maskOp_memOk)

theorem execMpop_memOk : ∀ x0 x1 x2 x3, memOk x3 → OutOk (execMpop x0 x1 x2 x3) := by
  intros; unfold execMpop; repeat' (first | with_reducible assumption | intro _ | extract_lets | with_reducible apply OutOk.mk | with_reducible apply pureOp_memOk)

theorem execMfirst_memOk : ∀ x0 x1 x2 x3, memOk x3 → OutOk (execMfirst x0 x1 x2 x3) := by
  intros; unfold execMfirst; repeat' (first | with_reducible assumption | intro _ | extract_lets | with_reducible apply OutOk.mk | with_reducible apply pureOp_memOk)

theorem execMfroms_memOk : ∀ x0 x1 x2 x3, memOk x3 → OutOk (execMfroms x0 x1 x2 x3) := by
  intros; unfold execMfroms; repeat' (first | with_reducible assumption | intro _ | extract_lets | with_reducible apply OutOk.mk | with_reducible apply pureOp_memOk)

theorem execMtos_memOk : ∀ x0 x1 x2 x3, memOk x3 → OutOk (execMtos x0 x1 x2 x3) := by
  intros; unfold execMtos; repeat' (first | with_reducible assumption | intro _ | extract_lets | with_reducible apply OutOk.mk | with_reducible apply pureOp_memOk)

theorem movsLoop_memOk : ∀ x0 x1 x2 x3 x4 x5 x6 x7 x8 x9, memOk x9 → Flow.Ok (movsLoop x0 x1 x2 x3 x4 x5 x6 x7 x8 x9) := by
  intro x0 x1 x2 x3 x4 x5 x6 x7 x8 x9; fun_induction movsLoop x0 x1 x2 x3 x4 x5 x6 x7 x8 x9 <;> repeat' (first | with_reducible assumption | intro _ | extract_lets | with_reducible apply Flow.ok_next | with_reducible apply Flow.ok_jump | with_reducible apply Flow.ok_keep | with_reducible apply Flow.ok_halt | with_reducible apply Flow.ok_fault | with_reducible apply loadMem_memOk | with_reducible apply storeMem_memOk | with_reducible apply memOk_foldl | with_reducible apply memOk_foldl_fst | with_reducible apply memOk_foldl_snd | with_reducible apply memOk_getD | with_reducible apply optOk_map | with_reducible apply optOk_mk | with_reducible apply optOk_none | with_reducible apply_assumption | split | dsimp only | dsimp +zetaDelta only | (refine Acc.get_ok (by assumption) ?_) | (refine Acc.get_fault (by assumption) ?_) | (refine Acc.get_wait (by assumption) ?_))

theorem fillsLoop_memOk : ∀ x0 x1 x2 x3 x4 x5 x6 x7 x8 x9, memOk x9 → Flow.Ok (fillsLoop x0 x1 x2 x3 x4 x5 x6 x7 x8 x9) := by
  intro x0 x1 x2 x3 x4 x5 x6 x7 x8 x9; fun_induction fillsLoop x0 x1 x2 x3 x4 x5 x6 x7 x8 x9 <;> repeat' (first | with_reducible assumption | intro _ | extract_lets | with_reducible apply Flow.ok_next | with_reducible apply Flow.ok_jump | with_reducible apply Flow.ok_keep | with_reducible apply Flow.ok_halt | with_reducible apply Flow.ok_fault | with_reducible apply storeMem_memOk | with_reducible apply memOk_foldl | with_reducible apply memOk_foldl_fst | with_reducible apply memOk_foldl_snd | with_reducible apply memOk_getD | with_reducible apply optOk_map | with_reducible apply optOk_mk | with_reducible apply optOk_none | with_reducible apply_assumption | split | dsimp only | dsimp +zetaDelta only | (refine Acc.get_ok (by assumption) ?_) | (refine Acc.get_fault (by assumption) ?_) | (refine Acc.get_wait (by assumption) ?_))

theorem cmpsLoop_memOk : ∀ x0 x1 x2 x3 x4 x5 x6 x7 x8 x9, memOk x9 → Flow.Ok (cmpsLoop x0 x1 x2 x3 x4 x5 x6 x7 x8 x9) := by
  intro c e rc r1 r0 io n
  induction n with
  | zero => exact fun _ _ _ h => h
  | succ n ih =>
    intro i t s h
    rw [cmpsLoop]
    have ha := loadMem_memOk c (getS t r0) e (ioPart io i e) (ioFails io i) s h
    generalize loadMem c (getS t r0) e (ioPart io i e) (ioFails io i) s = a at ha ⊢
    cases a with
    | fault k s => exact ha
    | wait s => exact ha
    | ok x s =>
      dsimp only
      have hb := loadMem_memOk c (getS t r1) e ((io.elems.drop (i * e)).take e) (ioFails io i) s ha
      generalize loadMem c (getS t r1) e ((io.elems.drop (i * e)).take e) (ioFails io i) s = b at hb ⊢
      cases b with
      | fault k s => exact hb
      | wait s => exact hb
      | ok y s =>
        dsimp only
        split
        · exact hb
        · exact ih _ _ _ hb

theorem scansLoop_memOk : ∀ x0 x1 x2 x3 x4 x5 x6 x7 x8 x9 x10, memOk x10 → Flow.Ok (scansLoop x0 x1 x2 x3 x4 x5 x6 x7 x8 x9 x10) := by
  intro c e cond rc r1 r0 io n
  induction n with
  | zero => exact fun _ _ _ h => h
  | succ n ih =>
    intro i t s h
    rw [scansLoop]
    have ha := loadMem_memOk c (getS t r0) e (ioPart io i e) (ioFails io i) s h
    generalize loadMem c (getS t r0) e (ioPart io i e) (ioFails io i) s = a at ha ⊢
    cases a with
    | fault k s => exact ha
    | wait s => exact ha
    | ok x s =>
      dsimp only
      split
      · exact ha
      · exact ih _ _ _ ha

theorem gathLoop_memOk : ∀ x0 x1 x2 x3 x4 x5 x6 x7 x8 x9 x10 x11, memOk x11 → Flow.Ok (gathLoop x0 x1 x2 x3 x4 x5 x6 x7 x8 x9 x10 x11) := by
  intro x0 x1 x2 x3 x4 x5 x6 x7 x8 x9 x10 x11; fun_induction gathLoop x0 x1 x2 x3 x4 x5 x6 x7 x8 x9 x10 x11 <;> repeat' (first | with_reducible assumption | intro _ | extract_lets | with_reducible apply Flow.ok_next | with_reducible apply Flow.ok_jump | with_reducible apply Flow.ok_keep | with_reducible apply Flow.ok_halt | with_reducible apply Flow.ok_fault | with_reducible apply loadMem_memOk | with_reducible apply storeMem_memOk | with_reducible apply memOk_foldl | with_reducible apply memOk_foldl_fst | with_reducible apply memOk_foldl_snd | with_reducible apply memOk_getD | with_reducible apply optOk_map | with_reducible apply optOk_mk | with_reducible apply optOk_none | with_reducible apply_assumption | split | dsimp only | dsimp +zetaDelta only | (refine Acc.get_ok (by assumption) ?_) | (refine Acc.get_fault (by assumption) ?_) | (refine Acc.get_wait (by assumption) ?_))

theorem strRun_memOk : ∀ x0 x1 x2 x3 x4 x5, (∀ c s, memOk s → memOk (x3 c s)) → (∀ a b c d s, memOk s → Flow.Ok (x4 a b c d s)) → memOk x5 →
    memOk (strRun x0 x1 x2 x3 x4 x5) :=
  fun th _ _ _ _ s hi hl h => issue_memOk th 4 _ s (fun _ _ hs => orIllegal_memOk _ _ _ hs (hl _ _ _ _ _ (hi _ _ hs))) h

theorem strStores_memOk : ∀ x0 x1 x2 x3 x4, memOk x4 → memOk (strStores x0 x1 x2 x3 x4) := by
  intros; unfold strStores; repeat' (first | with_reducible assumption | intro _ | extract_lets | with_reducible apply storeFaults_memOk | split | dsimp +zetaDelta only)

theorem execMovs_memOk : ∀ x0 x1 x2 x3 x4 x5 x6, memOk x6 → OutOk (execMovs x0 x1 x2 x3 x4 x5 x6) := by
  intros; unfold execMovs; repeat' (first | with_reducible assumption | with_reducible apply strStores_memOk | intro _ | extract_lets | with_reducible apply OutOk.mk | with_reducible apply strRun_memOk | with_reducible apply movsLoop_memOk | split | dsimp +zetaDelta only)

theorem execFills_memOk : ∀ x0 x1 x2 x3 x4 x5 x6, memOk x6 → OutOk (execFills x0 x1 x2 x3 x4 x5 x6) := by
  intros; unfold execFills; repeat' (first | with_reducible assumption | with_reducible apply strStores_memOk | intro _ | extract_lets | with_reducible apply OutOk.mk | with_reducible apply strRun_memOk | with_reducible apply fillsLoop_memOk | split | dsimp +zetaDelta only)

theorem execCmps_memOk : ∀ x0 x1 x2 x3 x4 x5 x6, memOk x6 → OutOk (execCmps x0 x1 x2 x3 x4 x5 x6) := by
  intros; unfold execCmps; repeat' (first | with_reducible assumption | with_reducible apply memFaults_memOk | intro _ | extract_lets | with_reducible apply OutOk.mk | with_reducible apply strRun_memOk | with_reducible apply cmpsLoop_memOk | split | dsimp +zetaDelta only)

theorem execScans_memOk : ∀ x0 x1 x2 x3 x4 x5 x6 x7, memOk x7 → OutOk (execScans x0 x1 x2 x3 x4 x5 x6 x7) := by
  intros; unfold execScans; repeat' (first | with_reducible assumption | with_reducible apply memFaults_memOk | intro _ | extract_lets | with_reducible apply OutOk.mk | with_reducible apply strRun_memOk | with_reducible apply scansLoop_memOk | split | dsimp +zetaDelta only)

theorem execGath_memOk : ∀ x0 x1 x2 x3 x4 x5 x6 x7 x8, memOk x8 → OutOk (execGath x0 x1 x2 x3 x4 x5 x6 x7 x8) := by
  intros; unfold execGath; repeat' (first | with_reducible assumption | with_reducible apply strStores_memOk | intro _ | extract_lets | with_reducible apply OutOk.mk | with_reducible apply strRun_memOk | with_reducible apply gathLoop_memOk | split | dsimp +zetaDelta only)

theorem execUndefinedEncoding_memOk : ∀ x0 x1 x2, memOk x2 → OutOk (execUndefinedEncoding x0 x1 x2) := by
  intros; unfold execUndefinedEncoding; repeat' (first | with_reducible assumption | intro _ | extract_lets | with_reducible apply OutOk.mk | with_reducible apply Flow.ok_next | with_reducible apply Flow.ok_jump | with_reducible apply Flow.ok_keep | with_reducible apply Flow.ok_halt | with_reducible apply Flow.ok_fault | with_reducible apply issue_memOk | split | dsimp +zetaDelta only)

theorem execFetchFault_memOk : ∀ x0 x1, memOk x1 → OutOk (execFetchFault x0 x1) := by
  intros; unfold execFetchFault; repeat' (first | with_reducible assumption | intro _ | extract_lets | with_reducible apply OutOk.mk | with_reducible apply endItem_memOk | with_reducible apply memOk_foldl | with_reducible apply memOk_foldl_fst | with_reducible apply memOk_foldl_snd | with_reducible apply memOk_getD | with_reducible apply optOk_map | with_reducible apply optOk_mk | with_reducible apply optOk_none | split)

theorem execItemWatchdog_memOk : ∀ x0 x1, memOk x1 → OutOk (execItemWatchdog x0 x1) := by
  intros; unfold execItemWatchdog; repeat' (first | with_reducible assumption | intro _ | extract_lets | with_reducible apply OutOk.mk | with_reducible apply endItem_memOk | with_reducible apply memOk_foldl | with_reducible apply memOk_foldl_fst | with_reducible apply memOk_foldl_snd | with_reducible apply memOk_getD | with_reducible apply optOk_map | with_reducible apply optOk_mk | with_reducible apply optOk_none | split)

end Sys2Proof.Machine
end

