-- ==== Sys2Proof/Laws/MemOkSafety.lean ====
section
/-! SUPPORT. Every operation of Machine/Safety.lean keeps memory in its canonical form. -/

namespace Sys2Proof.Machine

open Sys2Proof

theorem ran_memOk : ∀ x0 x1 x2 x3, memOk x0 → OutOk (ran x0 x1 x2 x3) := by
  intros; unfold ran; repeat' (first | with_reducible assumption | intro _ | extract_lets | with_reducible apply OutOk.mk | with_reducible apply setThread_memOk | with_reducible apply slotUsed_memOk | split | dsimp +zetaDelta only)

theorem ranV_memOk : ∀ x0 x1 x2 x3, memOk x0 → OutOk (ranV x0 x1 x2 x3) := by
  intros; unfold ranV; repeat' (first | with_reducible assumption | intro _ | extract_lets | with_reducible apply OutOk.mk | with_reducible apply setThread_memOk | with_reducible apply slotUsed_memOk | split | dsimp +zetaDelta only)

theorem jumped_memOk : ∀ x0 x1 x2 x3, memOk x0 → OutOk (jumped x0 x1 x2 x3) := by
  intros; unfold jumped; repeat' (first | with_reducible assumption | intro _ | extract_lets | with_reducible apply OutOk.mk | with_reducible apply setThread_memOk | with_reducible apply slotUsed_memOk | split | dsimp +zetaDelta only)

theorem faulted_memOk : ∀ x0 x1 x2, memOk x0 → OutOk (faulted x0 x1 x2) := by
  intros; unfold faulted; repeat' (first | with_reducible assumption | intro _ | extract_lets | with_reducible apply OutOk.mk | with_reducible apply endItem_memOk | with_reducible apply slotUsed_memOk | split | dsimp +zetaDelta only)

theorem faultedV_memOk : ∀ x0 x1 x2, memOk x0 → OutOk (faultedV x0 x1 x2) := by
  intros; unfold faultedV; repeat' (first | with_reducible assumption | intro _ | extract_lets | with_reducible apply OutOk.mk | with_reducible apply endItem_memOk | with_reducible apply slotUsed_memOk | split | dsimp +zetaDelta only)

theorem ended_memOk : ∀ x0 x1 x2, memOk x0 → OutOk (ended x0 x1 x2) := by
  intros; unfold ended; repeat' (first | with_reducible assumption | intro _ | extract_lets | with_reducible apply OutOk.mk | with_reducible apply endItem_memOk | split | dsimp +zetaDelta only)

end Sys2Proof.Machine
end

