-- ==== Sys2Proof/Laws/MemOkTick.lean ====
section
/-! SUPPORT. Every operation of Machine/Tick.lean keeps memory in its canonical form. -/

namespace Sys2Proof.Machine

open Sys2Proof

theorem tickIsland_memOk : ∀ x0 x1, memOk x0 → memOk (tickIsland x0 x1) := by
  intros; unfold tickIsland; repeat' (first | with_reducible assumption | with_reducible apply State_setTime_memOk)

theorem classSlots_memOk : ∀ x0 x1 x2 x3 x4, memOk x4 → memOk (classSlots x0 x1 x2 x3 x4) := by
  intros; unfold classSlots; repeat' (first | with_reducible assumption | intro _ | extract_lets | with_reducible apply perfWith_memOk | with_reducible apply State_setMason_memOk | split | dsimp +zetaDelta only)

theorem tickSlots_memOk : ∀ x0 x1, memOk x1 → memOk (tickSlots x0 x1) := by
  intros; unfold tickSlots; repeat' (first | with_reducible assumption | intro _ | extract_lets | with_reducible apply classSlots_memOk | with_reducible apply memOk_foldl | with_reducible apply memOk_foldl_fst | with_reducible apply memOk_foldl_snd | split | dsimp +zetaDelta only)

theorem tickPerf_memOk : ∀ x0, memOk x0 → memOk (tickPerf x0) := by
  intros; unfold tickPerf; repeat' (first | with_reducible assumption | intro _ | extract_lets | with_reducible apply perfLevel_memOk | with_reducible apply tickSlots_memOk | with_reducible apply memOk_foldl | with_reducible apply memOk_foldl_fst | with_reducible apply memOk_foldl_snd | split | dsimp +zetaDelta only)

theorem tick_memOk : ∀ x0, memOk x0 → memOk (tick x0) := by
  intros; unfold tick; repeat' (first | with_reducible assumption | with_reducible apply icpWake_memOk | with_reducible apply drawn_memOk | with_reducible apply tickIsland_memOk | with_reducible apply tickPerf_memOk | with_reducible apply memOk_foldl | split)

end Sys2Proof.Machine
end

