-- ==== Sys2Proof/Laws/MemOkVec.lean ====
section
/-! SUPPORT. Every operation of Machine/Vec.lean keeps memory in its canonical form. -/

namespace Sys2Proof.Machine

open Sys2Proof

theorem drawLanes_memOk : ∀ x0 x1, memOk x1 → memOk (drawLanes x0 x1) := by
  intros; unfold drawLanes; repeat' (first | with_reducible assumption | with_reducible apply State_setDraw_memOk | split)

theorem vecOp_memOk : ∀ x0 x1 x2 x3 x4 x5 x6 x7 x8 x9, memOk x9 → memOk (vecOp x0 x1 x2 x3 x4 x5 x6 x7 x8 x9) := by
  intros; unfold vecOp; repeat' (first | with_reducible assumption | intro _ | extract_lets | with_reducible apply Flow.ok_next | with_reducible apply Flow.ok_jump | with_reducible apply Flow.ok_keep | with_reducible apply Flow.ok_halt | with_reducible apply Flow.ok_fault | with_reducible apply issueV_memOk | with_reducible apply orIllegal_memOk | with_reducible apply drawLanes_memOk | split | dsimp +zetaDelta only | (refine Flow.get_next (by assumption) ?_) | (refine Flow.get_jump (by assumption) ?_) | (refine Flow.get_keep (by assumption) ?_) | (refine Flow.get_halt (by assumption) ?_) | (refine Flow.get_fault (by assumption) ?_))

theorem vv_memOk : ∀ x0 x1 x2 x3 x4 x5 x6 x7 x8 x9, memOk x9 → memOk (vv x0 x1 x2 x3 x4 x5 x6 x7 x8 x9) := by
  intros; unfold vv; repeat' (first | with_reducible assumption | with_reducible apply vecOp_memOk)

theorem vs_memOk : ∀ x0 x1 x2 x3 x4 x5 x6 x7 x8 x9, memOk x9 → memOk (vs x0 x1 x2 x3 x4 x5 x6 x7 x8 x9) := by
  intros; unfold vs; repeat' (first | with_reducible assumption | with_reducible apply vecOp_memOk)

theorem execVadd_memOk : ∀ x0 x1 x2 x3 x4 x5 x6 x7 x8, memOk x8 → OutOk (execVadd x0 x1 x2 x3 x4 x5 x6 x7 x8) := by
  intros; unfold execVadd; repeat' (first | with_reducible assumption | with_reducible apply OutOk.mk | with_reducible apply vv_memOk)

theorem execVsub_memOk : ∀ x0 x1 x2 x3 x4 x5 x6 x7 x8, memOk x8 → OutOk (execVsub x0 x1 x2 x3 x4 x5 x6 x7 x8) := by
  intros; unfold execVsub; repeat' (first | with_reducible assumption | with_reducible apply OutOk.mk | with_reducible apply vv_memOk)

theorem execVmul_memOk : ∀ x0 x1 x2 x3 x4 x5 x6 x7 x8, memOk x8 → OutOk (execVmul x0 x1 x2 x3 x4 x5 x6 x7 x8) := by
  intros; unfold execVmul; repeat' (first | with_reducible assumption | with_reducible apply OutOk.mk | with_reducible apply vv_memOk)

theorem execVfma_memOk : ∀ x0 x1 x2 x3 x4 x5 x6 x7 x8, memOk x8 → OutOk (execVfma x0 x1 x2 x3 x4 x5 x6 x7 x8) := by
  intros; unfold execVfma; repeat' (first | with_reducible assumption | with_reducible apply OutOk.mk | with_reducible apply vv_memOk)

theorem execVmin_memOk : ∀ x0 x1 x2 x3 x4 x5 x6 x7 x8, memOk x8 → OutOk (execVmin x0 x1 x2 x3 x4 x5 x6 x7 x8) := by
  intros; unfold execVmin; repeat' (first | with_reducible assumption | with_reducible apply OutOk.mk | with_reducible apply vv_memOk)

theorem execVmax_memOk : ∀ x0 x1 x2 x3 x4 x5 x6 x7 x8, memOk x8 → OutOk (execVmax x0 x1 x2 x3 x4 x5 x6 x7 x8) := by
  intros; unfold execVmax; repeat' (first | with_reducible assumption | with_reducible apply OutOk.mk | with_reducible apply vv_memOk)

theorem execVminu_memOk : ∀ x0 x1 x2 x3 x4 x5 x6 x7 x8, memOk x8 → OutOk (execVminu x0 x1 x2 x3 x4 x5 x6 x7 x8) := by
  intros; unfold execVminu; repeat' (first | with_reducible assumption | with_reducible apply OutOk.mk | with_reducible apply vv_memOk)

theorem execVmaxu_memOk : ∀ x0 x1 x2 x3 x4 x5 x6 x7 x8, memOk x8 → OutOk (execVmaxu x0 x1 x2 x3 x4 x5 x6 x7 x8) := by
  intros; unfold execVmaxu; repeat' (first | with_reducible assumption | with_reducible apply OutOk.mk | with_reducible apply vv_memOk)

theorem execVand_memOk : ∀ x0 x1 x2 x3 x4 x5 x6 x7 x8, memOk x8 → OutOk (execVand x0 x1 x2 x3 x4 x5 x6 x7 x8) := by
  intros; unfold execVand; repeat' (first | with_reducible assumption | with_reducible apply OutOk.mk | with_reducible apply vv_memOk)

theorem execVor_memOk : ∀ x0 x1 x2 x3 x4 x5 x6 x7 x8, memOk x8 → OutOk (execVor x0 x1 x2 x3 x4 x5 x6 x7 x8) := by
  intros; unfold execVor; repeat' (first | with_reducible assumption | with_reducible apply OutOk.mk | with_reducible apply vv_memOk)

theorem execVxor_memOk : ∀ x0 x1 x2 x3 x4 x5 x6 x7 x8, memOk x8 → OutOk (execVxor x0 x1 x2 x3 x4 x5 x6 x7 x8) := by
  intros; unfold execVxor; repeat' (first | with_reducible assumption | with_reducible apply OutOk.mk | with_reducible apply vv_memOk)

theorem execVsll_memOk : ∀ x0 x1 x2 x3 x4 x5 x6 x7 x8, memOk x8 → OutOk (execVsll x0 x1 x2 x3 x4 x5 x6 x7 x8) := by
  intros; unfold execVsll; repeat' (first | with_reducible assumption | with_reducible apply OutOk.mk | with_reducible apply vv_memOk)

theorem execVsrl_memOk : ∀ x0 x1 x2 x3 x4 x5 x6 x7 x8, memOk x8 → OutOk (execVsrl x0 x1 x2 x3 x4 x5 x6 x7 x8) := by
  intros; unfold execVsrl; repeat' (first | with_reducible assumption | with_reducible apply OutOk.mk | with_reducible apply vv_memOk)

theorem execVsra_memOk : ∀ x0 x1 x2 x3 x4 x5 x6 x7 x8, memOk x8 → OutOk (execVsra x0 x1 x2 x3 x4 x5 x6 x7 x8) := by
  intros; unfold execVsra; repeat' (first | with_reducible assumption | with_reducible apply OutOk.mk | with_reducible apply vv_memOk)

theorem execVdiv_memOk : ∀ x0 x1 x2 x3 x4 x5 x6 x7 x8, memOk x8 → OutOk (execVdiv x0 x1 x2 x3 x4 x5 x6 x7 x8) := by
  intros; unfold execVdiv; repeat' (first | with_reducible assumption | with_reducible apply OutOk.mk | with_reducible apply vv_memOk)

theorem execVsqrt_memOk : ∀ x0 x1 x2 x3 x4 x5 x6 x7, memOk x7 → OutOk (execVsqrt x0 x1 x2 x3 x4 x5 x6 x7) := by
  intros; unfold execVsqrt; repeat' (first | with_reducible assumption | with_reducible apply OutOk.mk | with_reducible apply vv_memOk)

theorem execVabs_memOk : ∀ x0 x1 x2 x3 x4 x5 x6 x7, memOk x7 → OutOk (execVabs x0 x1 x2 x3 x4 x5 x6 x7) := by
  intros; unfold execVabs; repeat' (first | with_reducible assumption | with_reducible apply OutOk.mk | with_reducible apply vv_memOk)

theorem execVneg_memOk : ∀ x0 x1 x2 x3 x4 x5 x6 x7, memOk x7 → OutOk (execVneg x0 x1 x2 x3 x4 x5 x6 x7) := by
  intros; unfold execVneg; repeat' (first | with_reducible assumption | with_reducible apply OutOk.mk | with_reducible apply vv_memOk)

theorem execVaddS_memOk : ∀ x0 x1 x2 x3 x4 x5 x6 x7 x8, memOk x8 → OutOk (execVaddS x0 x1 x2 x3 x4 x5 x6 x7 x8) := by
  intros; unfold execVaddS; repeat' (first | with_reducible assumption | with_reducible apply OutOk.mk | with_reducible apply vs_memOk)

theorem execVsubS_memOk : ∀ x0 x1 x2 x3 x4 x5 x6 x7 x8, memOk x8 → OutOk (execVsubS x0 x1 x2 x3 x4 x5 x6 x7 x8) := by
  intros; unfold execVsubS; repeat' (first | with_reducible assumption | with_reducible apply OutOk.mk | with_reducible apply vs_memOk)

theorem execVmulS_memOk : ∀ x0 x1 x2 x3 x4 x5 x6 x7 x8, memOk x8 → OutOk (execVmulS x0 x1 x2 x3 x4 x5 x6 x7 x8) := by
  intros; unfold execVmulS; repeat' (first | with_reducible assumption | with_reducible apply OutOk.mk | with_reducible apply vs_memOk)

theorem execVfmaS_memOk : ∀ x0 x1 x2 x3 x4 x5 x6 x7 x8, memOk x8 → OutOk (execVfmaS x0 x1 x2 x3 x4 x5 x6 x7 x8) := by
  intros; unfold execVfmaS; repeat' (first | with_reducible assumption | with_reducible apply OutOk.mk | with_reducible apply vs_memOk)

theorem execVminS_memOk : ∀ x0 x1 x2 x3 x4 x5 x6 x7 x8, memOk x8 → OutOk (execVminS x0 x1 x2 x3 x4 x5 x6 x7 x8) := by
  intros; unfold execVminS; repeat' (first | with_reducible assumption | with_reducible apply OutOk.mk | with_reducible apply vs_memOk)

theorem execVmaxS_memOk : ∀ x0 x1 x2 x3 x4 x5 x6 x7 x8, memOk x8 → OutOk (execVmaxS x0 x1 x2 x3 x4 x5 x6 x7 x8) := by
  intros; unfold execVmaxS; repeat' (first | with_reducible assumption | with_reducible apply OutOk.mk | with_reducible apply vs_memOk)

theorem execVsllS_memOk : ∀ x0 x1 x2 x3 x4 x5 x6 x7 x8, memOk x8 → OutOk (execVsllS x0 x1 x2 x3 x4 x5 x6 x7 x8) := by
  intros; unfold execVsllS; repeat' (first | with_reducible assumption | with_reducible apply OutOk.mk | with_reducible apply vs_memOk)

theorem execVsrlS_memOk : ∀ x0 x1 x2 x3 x4 x5 x6 x7 x8, memOk x8 → OutOk (execVsrlS x0 x1 x2 x3 x4 x5 x6 x7 x8) := by
  intros; unfold execVsrlS; repeat' (first | with_reducible assumption | with_reducible apply OutOk.mk | with_reducible apply vs_memOk)

theorem execVsraS_memOk : ∀ x0 x1 x2 x3 x4 x5 x6 x7 x8, memOk x8 → OutOk (execVsraS x0 x1 x2 x3 x4 x5 x6 x7 x8) := by
  intros; unfold execVsraS; repeat' (first | with_reducible assumption | with_reducible apply OutOk.mk | with_reducible apply vs_memOk)

theorem execVbcast_memOk : ∀ x0 x1 x2 x3 x4 x5 x6 x7, memOk x7 → OutOk (execVbcast x0 x1 x2 x3 x4 x5 x6 x7) := by
  intros; unfold execVbcast; repeat' (first | with_reducible assumption | with_reducible apply OutOk.mk | with_reducible apply vs_memOk)

theorem execVsel_memOk : ∀ x0 x1 x2 x3 x4 x5 x6 x7 x8, memOk x8 → OutOk (execVsel x0 x1 x2 x3 x4 x5 x6 x7 x8) := by
  intros; unfold execVsel; repeat' (first | with_reducible assumption | intro _ | extract_lets | with_reducible apply OutOk.mk | with_reducible apply pureOpV_memOk | split | dsimp +zetaDelta only)

theorem reduce_memOk : ∀ x0 x1 x2 x3 x4 x5 x6 x7, memOk x7 → memOk (reduce x0 x1 x2 x3 x4 x5 x6 x7) := by
  intros; unfold reduce; repeat' (first | with_reducible assumption | intro _ | extract_lets | with_reducible apply Flow.ok_next | with_reducible apply Flow.ok_jump | with_reducible apply Flow.ok_keep | with_reducible apply Flow.ok_halt | with_reducible apply Flow.ok_fault | with_reducible apply issueV_memOk | with_reducible apply State_setDraw_memOk | split | dsimp +zetaDelta only)

theorem execVredsum_memOk : ∀ x0 x1 x2 x3 x4 x5 x6 x7, memOk x7 → OutOk (execVredsum x0 x1 x2 x3 x4 x5 x6 x7) := by
  intros; unfold execVredsum; repeat' (first | with_reducible assumption | with_reducible apply OutOk.mk | with_reducible apply reduce_memOk)

theorem execVredmax_memOk : ∀ x0 x1 x2 x3 x4 x5 x6 x7, memOk x7 → OutOk (execVredmax x0 x1 x2 x3 x4 x5 x6 x7) := by
  intros; unfold execVredmax; repeat' (first | with_reducible assumption | with_reducible apply OutOk.mk | with_reducible apply reduce_memOk)

theorem execVredmin_memOk : ∀ x0 x1 x2 x3 x4 x5 x6 x7, memOk x7 → OutOk (execVredmin x0 x1 x2 x3 x4 x5 x6 x7) := by
  intros; unfold execVredmin; repeat' (first | with_reducible assumption | with_reducible apply OutOk.mk | with_reducible apply reduce_memOk)

theorem compare_memOk : ∀ x0 x1 x2 x3 x4 x5 x6 x7, memOk x7 → memOk (compare x0 x1 x2 x3 x4 x5 x6 x7) := by
  intros; unfold compare; repeat' (first | with_reducible assumption | intro _ | extract_lets | with_reducible apply Flow.ok_next | with_reducible apply Flow.ok_jump | with_reducible apply Flow.ok_keep | with_reducible apply Flow.ok_halt | with_reducible apply Flow.ok_fault | with_reducible apply issueV_memOk | with_reducible apply orIllegal_memOk | split | dsimp +zetaDelta only | (refine Flow.get_next (by assumption) ?_) | (refine Flow.get_jump (by assumption) ?_) | (refine Flow.get_keep (by assumption) ?_) | (refine Flow.get_halt (by assumption) ?_) | (refine Flow.get_fault (by assumption) ?_))

theorem execVeq_memOk : ∀ x0 x1 x2 x3 x4 x5 x6 x7 x8, memOk x8 → OutOk (execVeq x0 x1 x2 x3 x4 x5 x6 x7 x8) := by
  intros; unfold execVeq; repeat' (first | with_reducible assumption | with_reducible apply OutOk.mk | with_reducible apply compare_memOk)

theorem execVne_memOk : ∀ x0 x1 x2 x3 x4 x5 x6 x7 x8, memOk x8 → OutOk (execVne x0 x1 x2 x3 x4 x5 x6 x7 x8) := by
  intros; unfold execVne; repeat' (first | with_reducible assumption | with_reducible apply OutOk.mk | with_reducible apply compare_memOk)

theorem execVlt_memOk : ∀ x0 x1 x2 x3 x4 x5 x6 x7 x8, memOk x8 → OutOk (execVlt x0 x1 x2 x3 x4 x5 x6 x7 x8) := by
  intros; unfold execVlt; repeat' (first | with_reducible assumption | with_reducible apply OutOk.mk | with_reducible apply compare_memOk)

theorem execVle_memOk : ∀ x0 x1 x2 x3 x4 x5 x6 x7 x8, memOk x8 → OutOk (execVle x0 x1 x2 x3 x4 x5 x6 x7 x8) := by
  intros; unfold execVle; repeat' (first | with_reducible assumption | with_reducible apply OutOk.mk | with_reducible apply compare_memOk)

theorem execVltu_memOk : ∀ x0 x1 x2 x3 x4 x5 x6 x7 x8, memOk x8 → OutOk (execVltu x0 x1 x2 x3 x4 x5 x6 x7 x8) := by
  intros; unfold execVltu; repeat' (first | with_reducible assumption | with_reducible apply OutOk.mk | with_reducible apply compare_memOk)

theorem execVleu_memOk : ∀ x0 x1 x2 x3 x4 x5 x6 x7 x8, memOk x8 → OutOk (execVleu x0 x1 x2 x3 x4 x5 x6 x7 x8) := by
  intros; unfold execVleu; repeat' (first | with_reducible assumption | with_reducible apply OutOk.mk | with_reducible apply compare_memOk)

theorem loadLanes_memOk : ∀ x0 x1 x2 x3 x4 x5 x6 x7, memOk x7 → Acc.Ok (loadLanes x0 x1 x2 x3 x4 x5 x6 x7) := by
  intro c w m addr io l
  induction l with
  | nil => exact fun _ _ h => h
  | cons k r ih =>
    intro acc s h
    rw [loadLanes]
    split
    · exact ih _ _ h
    · have ha := loadMem_memOk c (addr + BitVec.ofNat 64 (laneOff w k)) (w / 8) ((io.data.drop (laneOff w k)).take (w / 8)) (ioFails io k) s h
      generalize loadMem c (addr + BitVec.ofNat 64 (laneOff w k)) (w / 8) ((io.data.drop (laneOff w k)).take (w / 8)) (ioFails io k) s = a at ha ⊢
      cases a with
      | fault k s => exact ha
      | wait s => exact ha
      | ok x s => exact ih _ _ ha

theorem storeLanes_memOk : ∀ x0 x1 x2 x3 x4 x5 x6 x7, memOk x7 → Acc.Ok (storeLanes x0 x1 x2 x3 x4 x5 x6 x7) := by
  intro c w m addr v io l
  induction l with
  | nil => exact fun _ h => h
  | cons k r ih =>
    intro s h
    rw [storeLanes]
    split
    · exact ih _ h
    · have ha := storeMem_memOk c (addr + BitVec.ofNat 64 (laneOff w k)) (leBytes (w / 8) (lane w v k)) (ioFails io k) s h
      generalize storeMem c (addr + BitVec.ofNat 64 (laneOff w k)) (leBytes (w / 8) (lane w v k)) (ioFails io k) s = a at ha ⊢
      cases a with
      | fault k s => exact ha
      | wait s => exact ha
      | ok x s => exact ih _ ha

theorem readyLanes_memOk : ∀ x0 x1 x2 x3 x4 x5, memOk x5 → Acc.Ok (readyLanes x0 x1 x2 x3 x4 x5) := by
  intro c w m addr l
  induction l with
  | nil => exact fun _ h => h
  | cons k r ih =>
    intro s h
    unfold readyLanes
    repeat' (first | with_reducible assumption | with_reducible apply ih | with_reducible apply Acc.ok_fault | with_reducible apply Acc.ok_wait | split | exact Acc.get_ok (by assumption) (atomicReady_memOk _ _ _ _ h) | exact Acc.get_fault (by assumption) (atomicReady_memOk _ _ _ _ h) | exact Acc.get_wait (by assumption) (atomicReady_memOk _ _ _ _ h))

theorem addLanes_memOk : ∀ x0 x1 x2 x3 x4 x5 x6, memOk x6 → Acc.Ok (addLanes x0 x1 x2 x3 x4 x5 x6) := by
  intro c f m addr v l
  induction l with
  | nil => exact fun _ h => h
  | cons k r ih =>
    intro s h
    unfold addLanes
    extract_lets
    repeat' (first | with_reducible assumption | intro _ | with_reducible apply ih | with_reducible apply Acc.ok_fault | with_reducible apply Acc.ok_wait | split | exact Acc.get_ok (by assumption) (atomicMem_memOk _ _ _ _ _ h) | exact Acc.get_fault (by assumption) (atomicMem_memOk _ _ _ _ _ h) | exact Acc.get_wait (by assumption) (atomicMem_memOk _ _ _ _ _ h) | dsimp +zetaDelta only)

theorem execVld_memOk : ∀ x0 x1 x2 x3 x4 x5 x6 x7 x8, memOk x8 → OutOk (execVld x0 x1 x2 x3 x4 x5 x6 x7 x8) := by
  intros; unfold execVld; repeat' (first | with_reducible assumption | intro _ | extract_lets | with_reducible apply OutOk.mk | with_reducible apply Flow.ok_next | with_reducible apply Flow.ok_jump | with_reducible apply Flow.ok_keep | with_reducible apply Flow.ok_halt | with_reducible apply Flow.ok_fault | with_reducible apply issueV_memOk | with_reducible apply loadLanes_memOk | with_reducible apply memFaults_memOk | split | dsimp +zetaDelta only | (refine Acc.get_ok (by assumption) ?_) | (refine Acc.get_fault (by assumption) ?_) | (refine Acc.get_wait (by assumption) ?_))

theorem execVst_memOk : ∀ x0 x1 x2 x3 x4 x5 x6 x7 x8, memOk x8 → OutOk (execVst x0 x1 x2 x3 x4 x5 x6 x7 x8) := by
  intros; unfold execVst; repeat' (first | with_reducible assumption | with_reducible apply storeFaults_memOk | intro _ | extract_lets | with_reducible apply OutOk.mk | with_reducible apply Flow.ok_next | with_reducible apply Flow.ok_jump | with_reducible apply Flow.ok_keep | with_reducible apply Flow.ok_halt | with_reducible apply Flow.ok_fault | with_reducible apply issueV_memOk | with_reducible apply storeLanes_memOk | with_reducible apply memFaults_memOk | split | dsimp +zetaDelta only | (refine Acc.get_ok (by assumption) ?_) | (refine Acc.get_fault (by assumption) ?_) | (refine Acc.get_wait (by assumption) ?_))

theorem execVldb_memOk : ∀ x0 x1 x2 x3 x4 x5 x6 x7 x8, memOk x8 → OutOk (execVldb x0 x1 x2 x3 x4 x5 x6 x7 x8) := by
  intros; unfold execVldb; repeat' (first | with_reducible assumption | intro _ | extract_lets | with_reducible apply OutOk.mk | with_reducible apply Flow.ok_next | with_reducible apply Flow.ok_jump | with_reducible apply Flow.ok_keep | with_reducible apply Flow.ok_halt | with_reducible apply Flow.ok_fault | with_reducible apply issueV_memOk | with_reducible apply loadMem_memOk | with_reducible apply memFaults_memOk | split | dsimp +zetaDelta only | (refine Acc.get_ok (by assumption) ?_) | (refine Acc.get_fault (by assumption) ?_) | (refine Acc.get_wait (by assumption) ?_))

theorem execVaadd_memOk : ∀ x0 x1 x2 x3 x4 x5 x6 x7 x8, memOk x8 → OutOk (execVaadd x0 x1 x2 x3 x4 x5 x6 x7 x8) := by
  intros; unfold execVaadd; repeat' (first | with_reducible assumption | with_reducible apply storeFaults_memOk | intro _ | extract_lets | with_reducible apply OutOk.mk | with_reducible apply Flow.ok_next | with_reducible apply Flow.ok_jump | with_reducible apply Flow.ok_keep | with_reducible apply Flow.ok_halt | with_reducible apply Flow.ok_fault | with_reducible apply issueV_memOk | with_reducible apply readyLanes_memOk | with_reducible apply memFaults_memOk | with_reducible apply addLanes_memOk | split | dsimp +zetaDelta only | (refine Acc.get_ok (by assumption) ?_) | (refine Acc.get_fault (by assumption) ?_) | (refine Acc.get_wait (by assumption) ?_))

theorem execVext_memOk : ∀ x0 x1 x2 x3 x4 x5, memOk x5 → OutOk (execVext x0 x1 x2 x3 x4 x5) := by
  intros; unfold execVext; repeat' (first | with_reducible assumption | intro _ | extract_lets | with_reducible apply OutOk.mk | with_reducible apply Flow.ok_next | with_reducible apply Flow.ok_jump | with_reducible apply Flow.ok_keep | with_reducible apply Flow.ok_halt | with_reducible apply Flow.ok_fault | with_reducible apply issueV_memOk | split | dsimp +zetaDelta only)

theorem execVins_memOk : ∀ x0 x1 x2 x3 x4 x5, memOk x5 → OutOk (execVins x0 x1 x2 x3 x4 x5) := by
  intros; unfold execVins; repeat' (first | with_reducible assumption | intro _ | extract_lets | with_reducible apply OutOk.mk | with_reducible apply pureOpV_memOk | split | dsimp +zetaDelta only)

theorem execVidx_memOk : ∀ x0 x1 x2 x3, memOk x3 → OutOk (execVidx x0 x1 x2 x3) := by
  intros; unfold execVidx; repeat' (first | with_reducible assumption | intro _ | extract_lets | with_reducible apply OutOk.mk | with_reducible apply pureOpV_memOk | split | dsimp +zetaDelta only)

theorem execVcvt_memOk : ∀ x0 x1 x2 x3 x4 x5 x6 x7 x8, memOk x8 → OutOk (execVcvt x0 x1 x2 x3 x4 x5 x6 x7 x8) := by
  intros; unfold execVcvt; repeat' (first | with_reducible assumption | intro _ | extract_lets | with_reducible apply OutOk.mk | with_reducible apply Flow.ok_next | with_reducible apply Flow.ok_jump | with_reducible apply Flow.ok_keep | with_reducible apply Flow.ok_halt | with_reducible apply Flow.ok_fault | with_reducible apply issueV_memOk | with_reducible apply orIllegal_memOk | with_reducible apply drawLanes_memOk | with_reducible apply memOk_foldl | with_reducible apply memOk_foldl_fst | with_reducible apply memOk_foldl_snd | split | dsimp +zetaDelta only | (refine Flow.get_next (by assumption) ?_) | (refine Flow.get_jump (by assumption) ?_) | (refine Flow.get_keep (by assumption) ?_) | (refine Flow.get_halt (by assumption) ?_) | (refine Flow.get_fault (by assumption) ?_))

theorem execVmxpk_memOk : ∀ x0 x1 x2 x3 x4 x5 x6 x7 x8, memOk x8 → OutOk (execVmxpk x0 x1 x2 x3 x4 x5 x6 x7 x8) := by
  intros; unfold execVmxpk; repeat' (first | with_reducible assumption | intro _ | extract_lets | with_reducible apply OutOk.mk | with_reducible apply Flow.ok_next | with_reducible apply Flow.ok_jump | with_reducible apply Flow.ok_keep | with_reducible apply Flow.ok_halt | with_reducible apply Flow.ok_fault | with_reducible apply issueV_memOk | with_reducible apply drawLanes_memOk | split | dsimp +zetaDelta only)

theorem execVmxunpk_memOk : ∀ x0 x1 x2 x3 x4 x5 x6 x7 x8, memOk x8 → OutOk (execVmxunpk x0 x1 x2 x3 x4 x5 x6 x7 x8) := by
  intros; unfold execVmxunpk; repeat' (first | with_reducible assumption | intro _ | extract_lets | with_reducible apply OutOk.mk | with_reducible apply Flow.ok_next | with_reducible apply Flow.ok_jump | with_reducible apply Flow.ok_keep | with_reducible apply Flow.ok_halt | with_reducible apply Flow.ok_fault | with_reducible apply issueV_memOk | with_reducible apply drawLanes_memOk | split | dsimp +zetaDelta only)

end Sys2Proof.Machine
end

