-- ==== Sys2Proof/Laws/MemOkStep.lean ====
section
/-! SUPPORT. Every operation of Machine/Step.lean keeps memory in its canonical form. -/

namespace Sys2Proof.Machine

open Sys2Proof

theorem State_withFetchWord_memOk : ∀ x0 x1 x2, memOk x0 → memOk (State.withFetchWord x0 x1 x2) := by
  intros; unfold State.withFetchWord; repeat' (first | with_reducible assumption | with_reducible apply State_setPending_memOk | split)

end Sys2Proof.Machine
end

