-- ==== Sys2Proof/Tests/Base.lean ====
section
/-! SUPPORT. The small states the tests run on: a part that has started, a session on it, a mason thread, and the commands that meet every check of R72. -/

namespace Sys2Proof.Tests

set_option Elab.async false

open Sys2Proof Sys2Proof.Machine

/-- A part that runs firmware, with port block 0 in the host role. -/
def up : State :=
  (State.reset.setBoot { State.reset.boot with inReset := false, stage := 3 }).setPorts { State.reset.ports with blocks := [(0, { role := 1 })] }

/-- The same with the link of the first host port's block trained. -/
def hostUp (s : State) : State := setLink 0 { width := 16, speed := 6 } s

/-- The transport the commands arrive on: an MCTP endpoint, which is privileged. -/
def via : Via := .mctp 9

/-- A part with a session of version 3.1 and every capability on that transport. -/
def withSession (s : State) : State :=
  s.setIcp { s.icp with sessions := [(via, { sid := 1, major := 3, minor := 1, caps := 63 })] }

/-- A command packet of that session: PARAM_LEN and some fields of its parameters by offset, size and value. -/
def packet (n : Nat) (fields : List (Nat × Nat × Nat)) : IcpPkt :=
  { major := 3, minor := 1, functionId := 0x3009, sessionId := 1, paramLen := n, params := layout n fields }

/-- Every check of `Starts` for a transport that is no ring. -/
def meets (op : Nat) (v : Via) (p : IcpPkt) (s : State) : Bool :=
  (ringKey v).isNone && transportServed s v && !s.icp.paused && (keptReply s v p.tag).isNone && !mustHold (touchSession v s) v { p with opcode := op } &&
    (icpCheck op v (taken op v p s) (touchSession v s)).isNone && !p.fwFault && !flagBit p.flags 1

/-- What the handler of a command sees. -/
def seen (op : Nat) (v : Via) (p : IcpPkt) (s : State) : Ctx :=
  { via := v, pkt := taken op v p s, iss := issuerOf (touchSession v s) v, sess := sessionOf (touchSession v s) v }

/-- The status of a handler's answer; one that waits has none. -/
def statusOf : Res → Nat
  | .reply _ st _ _ => st
  | .later _ _ _ => 0xFFFF

/-- The state an outcome goes on with; every outcome of the tests is a next state. -/
def nextOf : Ran → State
  | .next s => s
  | _ => .reset

theorem starts_of {op : Nat} {v : Via} {p : IcpPkt} {s : State} (h : meets op v p s = true) :
    Starts op v p s (seen op v p s) (touchSession v s) := by
  simp only [meets, Bool.and_eq_true, Bool.not_eq_true', Option.isNone_iff_eq_none] at h
  obtain ⟨⟨⟨⟨⟨⟨⟨h1, h2⟩, h3⟩, h4⟩, h5⟩, h6⟩, h7⟩, h8⟩ := h
  simp only [Starts, h1]
  exact ⟨⟨h2, h3, h4, h5, trivial⟩, h6, h7, h8, rfl⟩

/-- The state in which the handler of a command of a function's ring sees the part. -/
def fetched (op fn : Nat) (p : IcpPkt) (s : State) : State := touchSession (.ring fn) (fetchSlot fn (ringPut fn { p with opcode := op } s))

/-- Every check of `Starts` for a function's ring. -/
def meetsRing (op fn : Nat) (p : IcpPkt) (s : State) : Bool :=
  decide (viaOf fn = .ring fn) && s.icp.waits.isEmpty && s.icp.behind.isEmpty && s.rings.all (fun e => e.2.unread.isEmpty) &&
    decide (fetchable (ringPut fn { p with opcode := op } s) fn = some { p with opcode := op }) &&
    (icpCheck op (.ring fn) (taken op (.ring fn) p s) (fetched op fn p s)).isNone && !p.fwFault && !flagBit p.flags 1

/-- What the handler of a ring's command sees. -/
def seenRing (op fn : Nat) (p : IcpPkt) (s : State) : Ctx :=
  { via := .ring fn, pkt := taken op (.ring fn) p s, iss := issuerOf (fetched op fn p s) (.ring fn), sess := sessionOf (fetched op fn p s) (.ring fn) }

theorem look_mem {α : Type} {l : List (Nat × α)} {q : Nat} {x : α} (h : look l q = some x) : (q, x) ∈ l := by
  induction l with
  | nil => simp [look] at h
  | cons e l ih => obtain ⟨a, b⟩ := e; simp only [look] at h; split at h <;> simp_all

theorem starts_ring {op fn : Nat} {p : IcpPkt} {s : State} (h : meetsRing op fn p s = true) :
    Starts op (.ring fn) p s (seenRing op fn p s) (fetched op fn p s) := by
  simp only [meetsRing, Bool.and_eq_true, Bool.not_eq_true', Option.isNone_iff_eq_none, decide_eq_true_eq, List.isEmpty_iff, List.all_eq_true] at h
  obtain ⟨⟨⟨⟨⟨⟨⟨h1, h2⟩, h3⟩, h4⟩, h5⟩, h6⟩, h7⟩, h8⟩ := h
  refine ⟨⟨h1, h2, h3, fun k => ?_, h5, rfl⟩, h6, h7, h8, rfl⟩
  unfold ringOf lookD
  cases e : look s.rings k with
  | none => simp only [Option.getD_none]; split <;> rfl
  | some r => exact h4 _ (look_mem e)

/-- A part with a session on the command ring of PF0 of host port 0. -/
def ringSession (s : State) : State :=
  (s.setRings [(0, { enable := true, ready := true })]).setIcp { s.icp with sessions := [(.ring 0, { sid := 1, major := 3, minor := 1, caps := 63 })] }

/-- A command packet of that ring. -/
def ringPacket (n : Nat) (fields : List (Nat × Nat × Nat)) : IcpPkt :=
  { major := 3, minor := 1, functionId := 0, generation := 1, sessionId := 1, paramLen := n, params := layout n fields }

/-- Kernel 0: 64 bytes of code in frame 0, W2 and W3 of 64 bytes, table handle 0x401 bound to W4. -/
def kernel : Kernel :=
  { handle := 1, owner := 0, frames := [0], codeLen := 64, clusters := [0], slots := [0], perCore := 64, shared := 64, tables := [0x401] }

/-- Cluster 0 in service with sixteen cores and a spare. -/
def cluster : ClusterSt := { active := 0xFFFF, logical := 0, spare := 16, cores := List.range 16 }

/-- A part on which thread 0 runs item 0 of kernel 0 as `t`. -/
def masonOf (t : Thread) : State :=
  up.setMason { up.mason with
    units := [(0, cluster)], kernels := [(0, kernel)],
    jobs := [{ id := 0, kernel := 0, origin := .desc 0 0, items := 1, step := 0, args := [], buffers := [0x1000], client := 0 }],
    threads := [(0, t)] }

/-- The thread as it begins, with some scalar registers set. -/
def thread (regs : List (Nat × SReg)) : Thread :=
  { job := 0, item := 0, s := regs.foldl (fun v r => v.setIfInBounds r.1 r.2) (.replicate 32 0) }

/-- Its context. -/
def ctxOf (t : Thread) : TCtx :=
  { th := 0, t := t, ki := 0, k := kernel,
    j := { id := 0, kernel := 0, origin := .desc 0 0, items := 1, step := 0, args := [], buffers := [0x1000], client := 0 } }

end Sys2Proof.Tests
end

