-- ==== Sys2Proof/Tests/Tables.lean ====
section
/-! SUPPORT. States, packets and descriptors that meet the hypotheses of the statements about the table service (chapter 6), clause by clause. -/

namespace Sys2Proof.Tests

set_option Elab.async false

open Sys2Proof Sys2Proof.Machine

/-- A table of four plain rows of 16 bytes, whose one block is frame 10. -/
def table : Tbl := { handle := 1, owner := 0, rows := 4, dim := 4, localRows := 4, ranges := [(0, 4)] }
def block : Blk := { table := 0, region := 0, index := 0, frame := some 10 }
/-- A part with memory behind its channels, a quota for PF0 of host port 0, and that table. -/
def tables : State :=
  let s := up.setMem { up.mem with hotTotal := 1000, hotNext := 20, channels := [0, 21], blocks := [block] }
  (s.setFns [(0, { allot := { cqps := 256, quota := 500 } })]).setTab { s.tab with tbls := [(0, table)] }
def served : State := ringSession tables
/-- The same with a kernel that no rule names. -/
def loaded : State := served.setMason { served.mason with kernels := [(0, kernel)] }
/-- A queue pair of sixteen slots. -/
def qpair : Cqp := { owner := 0, gen := 1 }
def queued (q : Cqp) : State := served.setTab { served.tab with cqps := [(0, q)] }
/-- A descriptor in progress on it, with position 3 sent to its owner. -/
def progress : InProg := { seq := 0, desc := { opcode := 1, handle := 1, count := 4 }, io := {}, todo := [], sent := [3] }
/-- The table with row 1 poisoned. -/
def badState (again : Bool) : State :=
  (tables.setTab { tables.tab with tbls := [(0, { table with bad := [{ row := 1, repointing := again }] })] }).setCourse
    { tables.course with committed := some (7, 100) }
/-- A course that fences the table at step 5, and one with an update that waits for spill room. -/
def fencing : State := tables.setCourse { tables.course with run := some { id := 8, step := 5, tables := [0] } }
def spilling : State := tables.setCourse { tables.course with run := some { id := 8, step := 5, status := 2, tables := [0], waiting := [(0, 0, 0)] } }
/-- A hashed table of sixteen rows. -/
def hashedState : State :=
  tables.setTab { tables.tab with tbls := [(0, { table with rows := 16, localRows := 16, hashed := true, ranges := [(0, 16)] })] }
def image : Bytes :=
  layout 64 [(0, 4, 0x4B444E4C), (4, 2, 1), (6, 2, 1), (8, 4, 64), (0xC, 4, 64), (0x14, 4, 63499111)] ++ List.replicate 64 0

theorem test_witness_TablesAreCreatedQueriedAndDestroyed :
    (∃ (via : Via) (pkt : IcpPkt) (s s0 : State) (c : Ctx), Starts 0x0200 via pkt s c s0 ∧ firstBad (createChecks c s0) = none ∧
      (buildTable (createTbl c s0) s0).isSome = true ∧ ¬ ((c.p 0x14 1).testBit 1 = true ∧ (tblByDomain s0 (c.p 0x48 4)).isSome = true)) ∧
    (∃ (via : Via) (pkt : IcpPkt) (s s0 : State) (c : Ctx), Starts 0x0200 via pkt s c s0 ∧ firstBad (createChecks c s0) = none ∧
      buildTable (createTbl c s0) s0 = none) ∧
    (∃ (via : Via) (pkt : IcpPkt) (s s0 : State) (c : Ctx), Starts 0x0202 via pkt s c s0 ∧ tblFor c s0 (c.p 0 4) = some (0, table)) ∧
    (∃ (via : Via) (pkt : IcpPkt) (s s0 : State) (c : Ctx), Starts 0x0201 via pkt s c s0 ∧ tblFor c s0 (c.p 0 4) = some (0, table) ∧
      table.status ≠ 2 ∧ ¬ (courseLive s0 = true ∧ 0 ∈ (crun s0).tables) ∧ tableBusy s0 0 = false) ∧
    (∃ (via : Via) (pkt : IcpPkt) (s s0 : State) (c : Ctx), Starts 0x0201 via pkt s c s0 ∧ tblFor c s0 (c.p 0 4) = some (0, table) ∧
      table.status ≠ 2 ∧ ¬ (courseLive s0 = true ∧ 0 ∈ (crun s0).tables) ∧ tableBusy s0 0 = true) ∧
    (∃ (via : Via) (pkt : IcpPkt) (s s0 : State) (c : Ctx), Starts 0x0201 via pkt s c s0 ∧ tblFor c s0 (c.p 0 4) = none) ∧
    (∃ (via : Via) (pkt : IcpPkt) (s s0 : State) (c : Ctx), Starts 0x0202 via pkt s c s0 ∧ tblFor c s0 (c.p 0 4) = none) :=
  ⟨⟨.ring 0, ringPacket 128 [(0, 8, 100), (0xC, 4, 16), (0x10, 4, 4)], served, _, _, starts_ring (by decide), by decide, by decide, by decide⟩,
   ⟨.ring 0, ringPacket 128 [(0, 8, 100000000), (0xC, 4, 16384), (0x10, 4, 4)], served, _, _, starts_ring (by decide), by decide, by decide⟩,
   ⟨.ring 0, ringPacket 8 [(0, 4, 1)], served, _, _, starts_ring (by decide), by decide⟩,
   ⟨.ring 0, ringPacket 8 [(0, 4, 1)], served, _, _, starts_ring (by decide), by decide, by decide, by decide, by decide⟩,
   ⟨.ring 0, ringPacket 8 [(0, 4, 1)], queued { qpair with running := [progress] }, _, _, starts_ring (by decide), by decide, by decide,
     by decide, by decide⟩,
   ⟨.ring 0, ringPacket 8 [(0, 4, 2)], served, _, _, starts_ring (by decide), by decide⟩,
   ⟨.ring 0, ringPacket 8 [(0, 4, 2)], served, _, _, starts_ring (by decide), by decide⟩⟩

theorem test_witness_QueuePairsKernelsAndRulesAreMade :
    (∃ (via : Via) (pkt : IcpPkt) (s s0 : State) (c : Ctx), Starts 0x0204 via pkt s c s0 ∧ firstBad (cqpChecks c s0) = none ∧ c.p 0x13 1 = 0 ∧
      lowest 8192 (fun n => !has s0.tab.cqps n) = some 0 ∧ freePage s0 c.iss.owner = some 1) ∧
    (∃ (via : Via) (pkt : IcpPkt) (s s0 : State) (c : Ctx), Starts 0x0205 via pkt s c s0 ∧ cqpOf s0 (c.p 0 4) = some qpair ∧
      mayName c qpair.owner = true ∧ qpair.closing = false ∧ qpair.running = []) ∧
    (∃ (via : Via) (pkt : IcpPkt) (s s0 : State) (c : Ctx) (q : Cqp), Starts 0x0205 via pkt s c s0 ∧ cqpOf s0 (c.p 0 4) = some q ∧
      mayName c q.owner = true ∧ q.closing = false ∧ q.running ≠ []) ∧
    (∃ (via : Via) (pkt : IcpPkt) (s s0 : State) (c : Ctx), Starts 0x0210 via pkt s c s0 ∧ c.pkt.dma = some image ∧
      firstBad (imageChecks (image.take (c.p 8 4))) = none ∧ (∀ i < 8, c.p (0x20 + 4 * i) 4 = 0) ∧
        (placeKernel (askedKernel c) (max 1 (min 16 (c.p 0xC 1))) (image.take (c.p 8 4)) s0).isSome = true) ∧
    (∃ (via : Via) (pkt : IcpPkt) (s s0 : State) (c : Ctx), Starts 0x0210 via pkt s c s0 ∧ c.pkt.dma = some image ∧
      firstBad (imageChecks (image.take (c.p 8 4))) = none ∧ (∀ i < 8, c.p (0x20 + 4 * i) 4 = 0) ∧
        placeKernel (askedKernel c) (max 1 (min 16 (c.p 0xC 1))) (image.take (c.p 8 4)) s0 = none) ∧
    (∃ (via : Via) (pkt : IcpPkt) (s s0 : State) (c : Ctx), Starts 0x0211 via pkt s c s0 ∧ kernelByHandle s0 (c.p 0 4) = some (0, kernel) ∧
      mayName c kernel.owner = true ∧ kernel.unloading = false ∧ ruleHeld s0 0 = false ∧ kernelBusy (stopKernel 0 s0) 0 = false) ∧
    (∃ (via : Via) (pkt : IcpPkt) (s s0 : State) (c : Ctx), Starts 0x0211 via pkt s c s0 ∧ kernelByHandle s0 (c.p 0 4) = some (0, kernel) ∧
      mayName c kernel.owner = true ∧ ruleHeld s0 0 = true) ∧
    (∃ (via : Via) (pkt : IcpPkt) (s s0 : State) (c : Ctx), Starts 0x0211 via pkt s c s0 ∧ kernelByHandle s0 (c.p 0 4) = some (0, kernel) ∧
      mayName c kernel.owner = true ∧ ruleHeld s0 0 = false ∧ kernelBusy (stopKernel 0 s0) 0 = true) ∧
    (∃ (via : Via) (pkt : IcpPkt) (s s0 : State) (c : Ctx), Starts 0x0212 via pkt s c s0 ∧ kernelByHandle s0 (c.p 0 4) = some (0, kernel) ∧
      mayName c kernel.owner = true ∧ kernel.unloading = false ∧ s0.mem.hotTotal ≠ 0 ∧ lowest 65536 (fun i => !has s0.tab.rules (i + 1)) = some 0) :=
  ⟨⟨.ring 0, ringPacket 64 [(0, 8, 0x10000), (8, 8, 0x20000), (0x10, 1, 4), (0x11, 1, 4), (0x12, 1, 2), (0x14, 2, 0xFFFF), (0x16, 2, 0xFFFF),
    (0x18, 4, 1)], served, _, _, starts_ring (by decide), by decide, by decide, by decide, by decide⟩,
   ⟨.ring 0, ringPacket 8 [(0, 4, 0)], queued qpair, _, _, starts_ring (by decide), by decide, by decide, by decide, by decide⟩,
   ⟨.ring 0, ringPacket 8 [(0, 4, 0)], queued { qpair with running := [progress] }, _, _, { qpair with running := [progress] },
     starts_ring (by decide), by decide, by decide, by decide, by decide⟩,
   ⟨.ring 0, { ringPacket 64 [(8, 4, 128), (0xC, 1, 1), (0x10, 4, 0), (0x14, 4, 0)] with dma := some image },
     served.setMason { served.mason with units := [(0, cluster)] }, _, _, starts_ring (by decide), by decide, by decide +kernel,
       by decide +kernel, by decide +kernel⟩,
   ⟨.ring 0, { ringPacket 64 [(8, 4, 128), (0xC, 1, 1), (0x10, 4, 0), (0x14, 4, 0)] with dma := some image }, served, _, _,
     starts_ring (by decide), by decide, by decide +kernel, by decide +kernel, by decide +kernel⟩,
   ⟨.ring 0, ringPacket 8 [(0, 4, 1)], loaded, _, _, starts_ring (by decide), by decide, by decide, by decide, by decide, by decide⟩,
   ⟨.ring 0, ringPacket 8 [(0, 4, 1)], loaded.setTab { loaded.tab with rules := [(1, { tenant := 0, kernel := 0, stateBytes := 0, hyper := [] })], tbls := [(0, { table with rule := 15, ruleId := 1 })] }, _, _, starts_ring (by decide), by decide, by decide, by decide⟩,
   ⟨.ring 0, ringPacket 8 [(0, 4, 1)], ringSession ((masonOf (thread [])).setMason { (masonOf (thread [])).mason with jobs := [{ id := 0, kernel := 0, origin := .desc 0 0, items := 1, step := 0, args := [], next := 1 }] }), _, _, starts_ring (by decide), by decide, by decide, by decide, by decide⟩,
   ⟨.ring 0, ringPacket 32 [(0, 4, 1), (4, 4, 100)], loaded, _, _, starts_ring (by decide), by decide, by decide, by decide, by decide, by decide⟩⟩

theorem test_witness_DescriptorsEnterTheirQueuePair :
    (∃ (s : State), s.tel.frozen = false ∧ cqpOf s 0 = some qpair ∧ qpair.sqTail < 2 ^ qpair.sqLog2) ∧
    (∃ (s : State), s.tel.frozen = false ∧ cqpOf s 0 = some qpair ∧ mayRing qpair 5 = false) ∧
    (∃ (s : State), s.tel.frozen = false ∧ cqpOf s 0 = some qpair ∧ mayRing qpair 0 = true ∧ qpair.adopted = false ∧
      (15 : Nat) < 2 ^ qpair.sqLog2 ∧ 2 ^ qpair.sqLog2 ≤ 16) :=
  ⟨⟨queued qpair, by decide, by decide, by decide⟩,
   ⟨queued qpair, by decide, by decide, by decide⟩,
   ⟨queued qpair, by decide, by decide, by decide, by decide, by decide, by decide⟩⟩

theorem test_witness_ADescriptorsIndexIsServedByItsOperation :
    (∃ (s : State) (o : RowOp), tblOf s 0 = some table ∧ rowRef s 0 table o.index = .row 3 ∧ badRow table 3 = none ∧
      rowPlaced s 0 table (servedRegion table) 3 = true) ∧
    (∃ (s : State), tblOf s 0 = some table ∧ rowRef s 0 table 4 = .bad) ∧
    (∃ (s : State) (o : RowOp), tblOf s 0 = some table ∧ rowRef s 0 table o.index = .row 0 ∧ heldByFence s 0 o.step = true) ∧
    (∃ (s : State) (t : Tbl), tblOf s 0 = some t ∧ rowRef s 0 t 1 = .row 1 ∧ badRow t 1 = some { row := 1, repointing := true } ∧
      heldByFence s 0 0 = false) ∧
    (∃ (s : State) (t : Tbl), tblOf s 0 = some t ∧ rowRef s 0 t 1 = .row 1 ∧ badRow t 1 = some { row := 1, repointing := false } ∧
      heldByFence s 0 0 = false) ∧
    (∃ (s : State) (t : Tbl), tblOf s 0 = some t ∧ rowRef s 0 t 5 = .absent ∧ adoptHolds s 0 t 5 = false) :=
  ⟨⟨tables, { op := 1, flags := 0, step := 0, lr := 0, index := 3 }, by decide, by decide, by decide, by decide⟩,
   ⟨tables, by decide, by decide⟩,
   ⟨fencing, { op := 3, flags := 0, step := 6, lr := 0, index := 0 }, by decide, by decide, by decide⟩,
   ⟨badState true, { table with bad := [{ row := 1 }] }, by decide, by decide, by decide, by decide⟩,
   ⟨badState false, { table with bad := [{ row := 1, repointing := false }] }, by decide, by decide, by decide, by decide⟩,
   ⟨hashedState, { table with rows := 16, localRows := 16, hashed := true, ranges := [(0, 16)] }, by decide, by decide, by decide⟩⟩

theorem test_witness_ForwardedIndicesAndRepointing :
    (∃ (s : State), s.tel.frozen = false) ∧
    (∃ (s : State), s.tel.frozen = false ∧ (cqpD s 0).running.find? (fun p => p.seq == 0) = some progress ∧ 3 ∈ progress.sent ∧ 2 ∉ progress.sent) ∧
    (∃ (s : State), s.tel.frozen = false) ∧
    (∃ (s : State), s.tel.frozen = false ∧ courseLive s = true ∧ (0, 0, 0) ∈ (crun s).waiting) ∧
    (∃ (s : State) (t : Tbl) (b : BadRow), s.tel.frozen = false ∧ tblOf s 0 = some t ∧ badRow t 1 = some b ∧ s.course.committed = some (7, 100) ∧
      b.repointing = true) ∧
    (∃ (s : State) (t : Tbl), s.tel.frozen = false ∧ tblOf s 0 = some t ∧ badRow t 1 = some { row := 1, repointing := false } ∧ badRow t 2 = none) :=
  ⟨⟨tables, by decide⟩,
   ⟨queued { qpair with running := [progress] }, by decide, by decide, by decide, by decide⟩,
   ⟨queued qpair, by decide⟩,
   ⟨spilling, by decide, by decide⟩,
   ⟨badState true, { table with bad := [{ row := 1 }] }, { row := 1 }, by decide, by decide, by decide, by decide, by decide⟩,
   ⟨badState false, { table with bad := [{ row := 1, repointing := false }] }, by decide, by decide, by decide, by decide⟩⟩

/-- A packet that creates a table of 100 rows of 16 bytes. -/
def create : IcpPkt := ringPacket 128 [(0, 8, 100), (0xC, 4, 16), (0x10, 4, 4)]
/-- A part with a table of domain 9, and a packet that creates another of it. -/
def domain9 : State :=
  (served.setTab { served.tab with tbls := [(0, { table with sharded := true, domainId := 9 })] }).setElastic
    { served.elastic with active := some { id := 1, ranges := [{ table := 9, owner := 0, first := 0, count := 100 }] } }
def create9 : IcpPkt := ringPacket 128 [(0, 8, 100), (0xC, 4, 16), (0x10, 4, 4), (0x14, 1, 2), (0x48, 4, 9)]

theorem test_witness_table_commands_refused :
    (∃ (pkt : IcpPkt) (s s0 : State) (c : Ctx), Starts 0x0200 (.ring 0) pkt s c s0 ∧ firstBad (createChecks c s0) ≠ none) ∧
    (∃ (pkt : IcpPkt) (s s0 : State) (c : Ctx), Starts 0x0200 (.ring 0) pkt s c s0 ∧ firstBad (createChecks c s0) = none ∧ s0.mem.hotTotal = 0) ∧
    (∃ (pkt : IcpPkt) (s s0 : State) (c : Ctx), Starts 0x0200 (.ring 0) pkt s c s0 ∧ firstBad (createChecks c s0) = none ∧
      freeTableIndex s0 = some 1 ∧ s0.mem.hotTotal ≠ 0 ∧ quotaOf s0 c.iss.owner < quotaUsed s0 c.iss.owner + tblCharge (createTbl c s0)) ∧
    (∃ (pkt : IcpPkt) (s s0 : State) (c : Ctx), Starts 0x0200 (.ring 0) pkt s c s0 ∧ firstBad (createChecks c s0) = none ∧
      freeTableIndex s0 = some 1 ∧ quotaUsed s0 c.iss.owner + tblCharge (createTbl c s0) ≤ quotaOf s0 c.iss.owner ∧
      (allocTable 1 { createTbl c s0 with handle := 0x401 } s0).isSome = true ∧ (c.p 0x14 1).testBit 1 = false) ∧
    (∃ (pkt : IcpPkt) (s s0 : State) (c : Ctx), Starts 0x0200 (.ring 0) pkt s c s0 ∧ firstBad (createChecks c s0) = none ∧
      freeTableIndex s0 = some 1 ∧ quotaUsed s0 c.iss.owner + tblCharge (createTbl c s0) ≤ quotaOf s0 c.iss.owner ∧
      (allocTable 1 { createTbl c s0 with handle := 0x401 } s0).isSome = true ∧
      ((c.p 0x14 1).testBit 1 && (tblByDomain s0 (c.p 0x48 4)).isSome) = true) ∧
    (∃ (s s0 : State) (c : Ctx) (t : Tbl), Starts 0x0201 (.ring 0) (ringPacket 8 [(0, 4, 1)]) s c s0 ∧ tblFor c s0 (c.p 0 4) = some (0, t) ∧ t.status ≠ 2 ∧
      (courseLive s0 && (crun s0).tables.contains 0) = true) :=
  ⟨⟨ringPacket 128 [(8, 1, 10)], served, _, _, starts_ring (by decide), by decide⟩,
   ⟨create, served.setMem { served.mem with hotTotal := 0 }, _, _, starts_ring (by decide), by decide, by decide⟩,
   ⟨create, served.setFns [(0, { allot := { quota := 0 } })], _, _, starts_ring (by decide), by decide, by decide, by decide, by decide⟩,
   ⟨create, served, _, _, starts_ring (by decide), by decide, by decide, by decide +kernel, by decide +kernel, by decide⟩,
   ⟨create9, domain9, _, _, starts_ring (by decide), by decide, by decide, by decide +kernel, by decide +kernel, by decide⟩,
   ⟨ringSession fencing, _, _, table, starts_ring (by decide), by decide, by decide, by decide⟩⟩

/-- A packet that creates a queue pair, its rings in client memory or in the queue region. -/
def createPair (place : Nat) : IcpPkt :=
  ringPacket 64 [(0, 8, 0x10000), (8, 8, 0x20000), (0x10, 1, 4), (0x11, 1, 4), (0x12, 1, 2), (0x13, 1, place), (0x14, 2, 0xFFFF), (0x16, 2, 0xFFFF),
    (0x18, 4, 1)]

/-- The part with every page of PF0 of host port 0 taken. -/
def noPages : State := served.setPages ((List.range 16384).map (fun k => (0, k)))

theorem lowest_none (p : Nat → Bool) : ∀ n i, (∀ k, i ≤ k → k < i + n → p k = false) → lowestFrom p n i = none
  | 0, _, _ => rfl
  | n + 1, i, h => by
    unfold lowestFrom
    rw [if_neg (by simp [h i (Nat.le_refl i) (by omega)])]
    exact lowest_none p n (i + 1) fun k a b => h k (by omega) (by omega)

theorem noPage : freePage (fetched 0x0204 0 (createPair 0) noPages) 0 = none := by
  have e : ∀ l, (fetched 0x0204 0 (createPair 0) (served.setPages l)).pages = l := fun _ => rfl
  have h : (fetched 0x0204 0 (createPair 0) noPages).pages = (List.range 16384).map (fun k => (0, k)) := e _
  unfold freePage lowest
  rw [Option.map_eq_none_iff]
  refine lowest_none _ _ _ fun k _ hk => ?_
  simp [usedPages, h, pageCount, isVf] at hk ⊢
  omega

theorem test_witness_queue_pair_commands :
    (∃ (pkt : IcpPkt) (s s0 : State) (c : Ctx), Starts 0x0204 (.ring 0) pkt s c s0 ∧ firstBad (cqpChecks c s0) ≠ none) ∧
    (∃ (s s0 : State) (c : Ctx), Starts 0x0204 (.ring 0) (createPair 0) s c s0 ∧ firstBad (cqpChecks c s0) = none ∧ freePage s0 c.iss.owner = none) ∧
    (∃ (s s0 : State) (c : Ctx), Starts 0x0204 (.ring 0) (createPair 1) s c s0 ∧ firstBad (cqpChecks c s0) = none ∧ c.p 0x13 1 ≠ 0 ∧
      (placeQueue 0 (queueHost s0 c.iss.owner (c.p 0x16 2)) c.iss.owner 4 4 s0).isSome = true ∧ (bar2Base s0 (pfId 0 0)).isSome = true) ∧
    (∃ (s s0 : State) (c : Ctx), Starts 0x0204 (.ring 0) (createPair 1) s c s0 ∧ firstBad (cqpChecks c s0) = none ∧ c.p 0x13 1 ≠ 0 ∧
      (placeQueue 0 (queueHost s0 c.iss.owner (c.p 0x16 2)) c.iss.owner 4 4 s0).isSome = true ∧ (bar2Base s0 (pfId 0 0)).isSome = false) ∧
    (∃ (s s0 : State) (c : Ctx), Starts 0x0204 (.ring 0) (createPair 1) s c s0 ∧ firstBad (cqpChecks c s0) = none ∧ c.p 0x13 1 ≠ 0 ∧
      placeQueue 0 (queueHost s0 c.iss.owner (c.p 0x16 2)) c.iss.owner 4 4 s0 = none) ∧
    (∃ (s s0 : State) (c : Ctx), Starts 0x0205 (.ring 0) (ringPacket 8 [(0, 4, 9)]) s c s0 ∧ cqpOf s0 (c.p 0 4) = none) ∧
    (∃ (s s0 : State) (c : Ctx), Starts 0x0205 (.ring 0) (ringPacket 8 [(0, 4, 0)]) s c s0 ∧ cqpOf s0 (c.p 0 4) = some { qpair with closing := true }) :=
  ⟨⟨ringPacket 64 [(0x12, 1, 3)], served, _, _, starts_ring (by decide), by decide⟩,
   ⟨noPages, _, _, starts_ring (by decide), by decide, noPage⟩,
   ⟨served.setPorts { served.ports with cfg := [(4, 2), (0x1C, 1)] }, _, _, starts_ring (by decide), by decide, by decide, by decide, by decide⟩,
   ⟨served, _, _, starts_ring (by decide), by decide, by decide, by decide, by decide⟩,
   ⟨served.setFns [(0, { allot := { cqps := 256, quota := 0 } })], _, _, starts_ring (by decide), by decide, by decide, by decide⟩,
   ⟨served, _, _, starts_ring (by decide), by decide⟩, ⟨queued { qpair with closing := true }, _, _, starts_ring (by decide), by decide⟩⟩

theorem test_witness_kernel_commands_refused :
    (∃ (s s0 : State) (c : Ctx), Starts 0x0210 (.ring 0) (ringPacket 64 [(8, 4, 128)]) s c s0 ∧ c.pkt.dma = none) ∧
    (∃ (s s0 : State) (c : Ctx), Starts 0x0211 (.ring 0) (ringPacket 8 [(0, 4, 9)]) s c s0 ∧ kernelByHandle s0 (c.p 0 4) = none) ∧
    (∃ (s s0 : State) (c : Ctx) (k : Kernel), Starts 0x0211 (.ring 0) (ringPacket 8 [(0, 4, 1)]) s c s0 ∧ kernelByHandle s0 (c.p 0 4) = some (0, k) ∧
      k.unloading = true) ∧
    (∃ (s s0 : State) (c : Ctx), Starts 0x0212 (.ring 0) (ringPacket 32 [(0, 4, 1)]) s c s0 ∧ s0.mem.hotTotal = 0) ∧
    (∃ (s s0 : State) (c : Ctx), Starts 0x0212 (.ring 0) (ringPacket 32 [(0, 4, 9)]) s c s0 ∧ s0.mem.hotTotal ≠ 0 ∧ kernelByHandle s0 (c.p 0 4) = none) ∧
    (∃ (s s0 : State) (c : Ctx) (k : Kernel), Starts 0x0212 (.ring 0) (ringPacket 32 [(0, 4, 1)]) s c s0 ∧ s0.mem.hotTotal ≠ 0 ∧
      kernelByHandle s0 (c.p 0 4) = some (0, k) ∧ k.owner ≠ c.iss.owner) :=
  ⟨⟨served, _, _, starts_ring (by decide), by decide⟩, ⟨loaded, _, _, starts_ring (by decide), by decide⟩,
   ⟨loaded.setMason { loaded.mason with kernels := [(0, { kernel with unloading := true })] }, _, _, { kernel with unloading := true },
     starts_ring (by decide), by decide, by decide⟩,
   ⟨loaded.setMem { loaded.mem with hotTotal := 0 }, _, _, starts_ring (by decide), by decide⟩,
   ⟨loaded, _, _, starts_ring (by decide), by decide, by decide⟩,
   ⟨loaded.setMason { loaded.mason with kernels := [(0, { kernel with owner := 1 })] }, _, _, { kernel with owner := 1 },
     starts_ring (by decide), by decide, by decide, by decide⟩⟩

/-- A LOOKUP of one row of the table, and a KERNEL of one item. -/
def lookupOne : Desc := { opcode := 1, version := 2, handle := 1, count := 1, ioFormat := 0, indexAddr := 0x1000, dataAddr := 0x2000 }
def kernelOne : Desc := { opcode := 7, version := 2, handle := 1, count := 1, dataAddr := 0x2000 }
def withIndices : DescIo := { index := some [1, 0, 0, 0] }

theorem test_witness_descriptors_run :
    (∃ (s : State) (d : Desc) (io : DescIo), QueueIdle s 0 qpair ∧ descHeld s d = false ∧ descStatus s qpair d io (some 0) = csOk ∧ d.opcode ≠ 7) ∧
    (∃ (s : State) (d : Desc) (io : DescIo), QueueIdle s 0 qpair ∧ descHeld s d = false ∧ descStatus s qpair d io (some 0) ≠ csOk) ∧
    (∃ (s : State) (d : Desc) (io : DescIo), QueueIdle s 0 qpair ∧ descHeld s d = false ∧ kernelByHandle s d.handle = some (0, kernel) ∧
      descStatus s qpair d io (some 0) = csOk ∧ d.opcode = 7 ∧ kernel.unloading = false ∧ d.count ≠ 0) ∧
    (∃ (s : State) (q : Cqp) (d : Desc) (io : DescIo), QueueIdle s 0 q ∧ descHeld s d = false ∧ descStatus s q d io (some 0) = csOk ∧
      stepClosed s q 0 d = true) :=
  ⟨⟨queued qpair, lookupOne, withIndices, by unfold QueueIdle; decide, by decide, by decide, by decide⟩,
   ⟨queued qpair, { lookupOne with version := 1 }, withIndices, by unfold QueueIdle; decide, by decide, by decide⟩,
   ⟨(queued qpair).setMason { served.mason with kernels := [(0, kernel)] }, kernelOne, {}, by unfold QueueIdle; decide, by decide, by decide, by decide,
     by decide, by decide, by decide⟩,
   ⟨((queued { qpair with samples := [(5, 0)] }).setTab { served.tab with tbls := [(0, { table with rule := 1 })], cqps := [(0, { qpair with samples := [(5, 0)] })] }).setCourse
       { served.course with run := some { id := 8, step := 5, status := 2, tables := [0], closed := [0] } },
     { qpair with samples := [(5, 0)] }, { lookupOne with opcode := 3, step := 5 }, withIndices, by unfold QueueIdle; decide, by decide, by decide,
     by decide⟩⟩

/-- The LOOKUP on its queue pair, with its one position to serve. -/
def lookupRun : InProg := { seq := 0, desc := lookupOne, io := withIndices, todo := [0] }
def lookupState : State := queued { qpair with running := [lookupRun] }

theorem test_witness_descriptor_served :
    (∃ p' s', ServedInTurn 0 lookupRun lookupRun.todo lookupState p' s') ∧
    (∃ (q : Cqp) (t : Tbl), cqpOf lookupState 0 = some q ∧ q.held = false ∧ tblServed lookupState lookupOne.handle = some (0, t) ∧
      ∀ k < 1, statusAt { lookupRun with got := [(0, csOk, 0, [])] } k = csOk) :=
  ⟨⟨_, _, by rfl, 0, table, _, _, _, _, by rfl, by decide, by rfl, by rfl, by rfl, by rfl, by rfl, rfl, rfl⟩,
   ⟨_, table, by rfl, by rfl, by rfl, by decide⟩⟩

/-- Every row's key lost. -/
def lostAll : List BadRow := (List.range 16).map (fun i => { row := i, repointing := false, keyLost := true })

theorem test_witness_row_blocks :
    (∃ s t, tblOf s 0 = some t ∧ rowRef s 0 t 1 = .row 1 ∧ rowIsolated s 0 t (tblRegions t) 1 = true) ∧
    (∃ s t, tblOf s 0 = some t ∧ rowRef s 0 t 1 = .row 1 ∧ rowIsolated s 0 t (tblRegions t) 1 = false ∧ rowRetrains s 0 t [servedRegion t] 1 = true) ∧
    (∃ s t b, tblOf s 0 = some t ∧ rowRef s 0 t 5 = .lost b) ∧
    (∃ s t, tblOf s 0 = some t ∧ rowWhole s 0 t 1 = true) ∧
    (∃ s t, tblOf s 0 = some t ∧ rowWhole s 0 t 1 = false) :=
  ⟨⟨tables.setErr [(blkMc (21 / 16), { isolated := true }), (blkMc 0, { isolated := true })], table, by decide, by decide, by decide⟩,
   ⟨tables.setMem { tables.mem with retraining := [0, 21] }, table, by decide, by decide, by decide, by decide⟩,
   ⟨hashedState.setTab { hashedState.tab with tbls := [(0, { table with rows := 16, localRows := 16, hashed := true, ranges := [(0, 16)], bad := lostAll })] },
     { table with rows := 16, localRows := 16, hashed := true, ranges := [(0, 16)], bad := lostAll }, { row := 0, repointing := false, keyLost := true },
     by decide +kernel, by decide +kernel⟩,
   ⟨tables, table, by decide, by decide⟩, ⟨tables.setMem { tables.mem with blocks := [] }, table, by decide, by decide⟩⟩

end Sys2Proof.Tests
end

