-- ==== Sys2Proof/Tests/Course.lean ====
section
/-! SUPPORT. States, packets and messages that meet the hypotheses of the statements about the course engine (chapter 7), clause by clause. -/

namespace Sys2Proof.Tests

set_option Elab.async false

open Sys2Proof Sys2Proof.Machine

/-- A part with the table of `tables`, room for the frames of a policy, a domain course key and a namespace as destination. -/
def coursePart : State :=
  let s := withSession tables
  let s := s.setMem { s.mem with hotTotal := 1000000 }
  let s := s.setSec { s.sec with keys := [(0xC0000001, { kind := 3, material := some 5 })] }
  let s := s.setSto { s.sto with ns := [(5, { bytes := 2147483648 })] }
  s.setCourse { s.course with framesTaken := true, policy := { dests := [{ type := 1, id := 5 }] } }
/-- The same with an open course. -/
def openCourse (r : CourseRun) : State := coursePart.setCourse { coursePart.course with run := some r, highId := r.id }
def course8 : CourseRun := { id := 8, step := 50, tables := [0], clients := [(0, 0)] }
/-- The same as a member of a fence tree. -/
def member (s : State) : State := s.setCourse { s.course with policy := { s.course.policy with parent := 3 } }
/-- The same at the root of a fence tree with two children. -/
def rootOf (s : State) : State := s.setCourse { s.course with policy := { s.course.policy with children := 2 } }
def policyBlock (n : Nat) : List (Nat × Nat × Nat) :=
  [(0, 4, 600), (4, 1, n), (5, 1, 1), (7, 1, 4), (8, 4, 256), (0xC, 4, 10000), (0x12, 2, 256), (0x18, 4, 60), (0x1C, 4, 300), (0x20, 4, 10000),
   (0x24, 4, 50), (0x28, 4, 50000), (0x2C, 4, 1000), (0x30, 1, 5), (0x31, 1, 2), (0x34, 4, 0xFFFFFFFF), (0x3A, 2, 100), (0x40, 1, 1), (0x44, 4, 5),
   (0x48, 4, 1)]
/-- A shard of the table, sent to destination 0. -/
def shard : Shard :=
  { number := 0, table := 0, handle := 1, domainId := 0, region := 0, format := 0, index := 0, firstRow := 0, localRow := 0, rowCount := 4, rowBytes := 16,
    dim := 4, dataOffset := 4096, chunks := 1, sent := [(0, 65536)] }
def region1 : AccelRegion := { id := 1, owner := 0, endpoint := 0x4004, addr := 0, length := 4096, notify := 64, tag := 7, done := some 60, inCourse := true }
/-- An accelerator endpoint behind link 0 of port block 1. -/
def withAccel (s : State) : State := s.setPorts { s.ports with blocks := s.ports.blocks ++ [(1, { role := 2, links := [{ width := 4, speed := 5 }, {}, {}, {}] })] }

theorem test_witness_CourseCommandsAnswerAndAct :
    (∃ (via : Via) (pkt : IcpPkt) (s s0 : State) (c : Ctx), let p := policyOf c; Starts 0x0300 via pkt s c s0 ∧
        firstBad (policyChecks c s0 p) = none ∧ (∀ d ∈ p.dests, destAttached s0 d = false) ∧ (acceptPolicy false p s0).isSome = true ∧
          stagedHit 7 c s0 = false) ∧
    (∃ (via : Via) (pkt : IcpPkt) (s s0 : State) (c : Ctx), let p := policyOf c; Starts 0x0300 via pkt s c s0 ∧
        firstBad (policyChecks c s0 p) = none ∧ (∀ d ∈ p.dests, destAttached s0 d = false) ∧ (acceptPolicy false p s0).isSome = true ∧
          stagedHit 7 c s0 = false ∧ courseLive s0 = true) ∧
    (∃ (via : Via) (pkt : IcpPkt) (s s0 : State) (c : Ctx), Starts 0x0301 via pkt s c s0 ∧ c.p 0 4 = 0 ∧ firstBad (openBars s0) = none ∧
      (ensureFrames s0).isSome = true ∧ domainStep s0 = none) ∧
    (∃ (via : Via) (pkt : IcpPkt) (s s0 : State) (c : Ctx), Starts 0x0301 via pkt s c s0 ∧ s0.course.highId < c.p 0 4 ∧
      firstBad (openBars s0) = none ∧ (ensureFrames s0).isSome = true ∧ domainStep s0 = some 10 ∧ c.p 4 4 ≤ 10) ∧
    (∃ (via : Via) (pkt : IcpPkt) (s s0 : State) (c : Ctx), Starts 0x0302 via pkt s c s0 ∧ stepQueues c s0 (c.p 4 4) ≠ []) ∧
    (∃ (via : Via) (pkt : IcpPkt) (s s0 : State) (c : Ctx), Starts 0x0303 via pkt s c s0 ∧ s0.course.run.isSome = true ∧ c.p 0 4 = (crun s0).id) ∧
    (∃ (via : Via) (pkt : IcpPkt) (s s0 : State) (c : Ctx), Starts 0x0304 via pkt s c s0 ∧ courseLive s0 = true ∧ fenceRoot s0 = true ∧
      c.p 0 4 = (crun s0).id) ∧
    (∃ (via : Via) (pkt : IcpPkt) (s s0 : State) (c : Ctx), Starts 0x0305 via pkt s c s0 ∧ endpointLive s0 (c.p 0 2) = true ∧ c.iss.kind ≠ 4 ∧
      4096 ≤ c.p 0x10 8 ∧ c.p 0x10 8 ≤ 2 ^ 36 ∧ c.p 0x10 8 % 4096 = 0) ∧
    (∃ (via : Via) (pkt : IcpPkt) (s s0 : State) (c : Ctx), Starts 0x0306 via pkt s c s0 ∧
      s0.course.regions.find? (fun g => g.id == c.p 0 4 && !g.leaves) = some region1 ∧ mayName c region1.owner = true) ∧
    (∃ (via : Via) (pkt : IcpPkt) (s s0 : State) (c : Ctx), Starts 0x0307 via pkt s c s0 ∧ tblFor c s0 (c.p 0 4) = some (0, table) ∧
      firstBad (capChecks table (c.p 4 1) (c.p 5 1) (c.p 6 1) (c.p 7 1)) = none ∧ courseLive s0 = false ∧ stagedHit 8 c s0 = false) ∧
    (∃ (via : Via) (pkt : IcpPkt) (s s0 : State) (c : Ctx), Starts 0x0308 via pkt s c s0 ∧ c.p 0 4 < (dests s0).length) :=
  ⟨⟨via, packet 128 (policyBlock 4), coursePart, _, _, starts_of (by decide), by decide, by decide, by decide, by decide⟩,
   ⟨via, packet 128 (policyBlock 32), openCourse course8, _, _, starts_of (by decide), by decide, by decide, by decide, by decide, by decide⟩,
   ⟨via, packet 32 [(4, 4, 0xFFFFFFFF)], coursePart, _, _, starts_of (by decide), by decide, by decide, by decide, by decide⟩,
   ⟨via, packet 32 [(0, 4, 9), (4, 4, 10)], coursePart.setTab { coursePart.tab with tbls := [(0, { table with highStep := some 10 })] }, _, _,
     starts_of (by decide), by decide, by decide, by decide, by decide, by decide⟩,
   ⟨via, packet 16 [(0, 4, 40), (4, 4, 0)], coursePart.setTab { coursePart.tab with cqps := [(0, { qpair with fetched := 5 })] }, _, _,
     starts_of (by decide), by decide⟩,
   ⟨via, packet 8 [(0, 4, 8)], openCourse course8, _, _, starts_of (by decide), by decide⟩,
   ⟨via, packet 8 [(0, 4, 8)], openCourse course8, _, _, starts_of (by decide), by decide, by decide, by decide⟩,
   ⟨.ring 0, ringPacket 48 [(0, 2, 0x4004), (8, 8, 0x100000), (0x10, 8, 68719476736), (0x18, 8, 64), (0x20, 8, 7)],
     ringSession (withAccel coursePart), _, _, starts_ring (by decide), by decide, by decide, by decide, by decide, by decide⟩,
   ⟨via, packet 8 [(0, 4, 1)], (openCourse course8).setCourse { (openCourse course8).course with regions := [region1] }, _, _,
     starts_of (by decide), by decide, by decide⟩,
   ⟨via, packet 64 [(0, 4, 1), (4, 1, 1), (5, 1, 0xFF), (6, 1, 0xFF)], coursePart, _, _, starts_of (by decide), by decide, by decide, by decide,
     by decide⟩,
   ⟨via, packet 8 [], coursePart, _, _, starts_of (by decide), by decide⟩⟩

theorem test_witness_CourseFencesCloseAndTimeOut :
    (∃ (s : State), s.tel.frozen = false ∧ courseLive s = true) ∧
    (∃ (s : State), s.tel.frozen = false ∧ ownStep s = some 10) ∧
    (∃ (s : State), s.tel.frozen = false ∧ courseLive s = false ∧ ownStep s = none ∧ (ensureFrames s).isSome = true) ∧
    (∃ (s : State), s.tel.frozen = false ∧ courseLive s = true ∧ (crun s).id = 8) ∧
    (∃ (s : State), s.tel.frozen = false ∧ courseLive s = true ∧ (crun s).id = 8 ∧ fenceRoot s = false) ∧
    (∃ (s : State), s.tel.frozen = false ∧ courseLive s = true ∧ tenantDone s 0 = true ∧ 0 ∉ (crun s).closed) ∧
    (∃ (s : State), s.tel.frozen = false ∧ tenantDone s 0 = false) ∧
    (∃ (s : State), s.tel.frozen = false ∧ courseLive s = true ∧ (crun s).status = 1) ∧
    (∃ (s : State), s.tel.frozen = false ∧ (crun s).status ≠ 1) ∧
    (∃ (s : State), s.tel.frozen = false ∧ running s = true ∧ periodicHere s = true ∧ firstBad (openBars s) = none ∧
      (rootOpen (s.course.highId + 1) (((domainStep s).getD 0 + (openPolicy s).stepLead) % 2 ^ 32) 0 1 s).isSome = true) ∧
    (∃ (s : State), s.tel.frozen = false ∧ running s = true ∧ periodicHere s = true ∧ (firstBad (openBars s)).isSome = true) ∧
    (∃ (s : State), s.tel.frozen = false ∧ periodicHere s = false) ∧
    (∃ (s : State), let s1 := s.setCourse { s.course with buckets := (List.range 4).map (fun i => (s.course.present.getD i 0 :: s.course.buckets.getD i []).take 16), present := [0, 0, 0, 0] }; s.tel.frozen = false ∧ (∀ i < 4, warnRate s1 i < s.course.policy.thresh.getD i 0)) ∧
    (∃ (s : State), let s1 := s.setCourse { s.course with buckets := (List.range 4).map (fun i => (s.course.present.getD i 0 :: s.course.buckets.getD i []).take 16), present := [0, 0, 0, 0] }; s.tel.frozen = false ∧ s.course.policy.early = true ∧ fenceRoot s = false ∧ s.course.policy.thresh.getD 1 0 ≤ warnRate s1 1 ∧ (∀ j < 4, j ≠ 1 → warnRate s1 j < s.course.policy.thresh.getD j 0)) ∧
    (∃ (s : State), s.tel.frozen = false ∧ 5 ≠ deviceIndex s ∧ fenceRoot s = false) ∧
    (∃ (s : State), s.tel.frozen = false ∧ 5 ≠ deviceIndex s ∧ fenceRoot s = true ∧ s.course.lastEarly = some 0 ∧
      now s 0x41 < 0 + s.course.policy.earlyGap * 1000000000) ∧
    (∃ (s : State), s.tel.frozen = false ∧ 5 ≠ deviceIndex s ∧ fenceRoot s = true ∧ courseLive s = false ∧ s.course.lastEarly = none) :=
  ⟨⟨member (openCourse course8), by decide, by decide⟩,
   ⟨coursePart.setTab { coursePart.tab with tbls := [(0, { table with highStep := some 10 })] }, by decide, by decide⟩,
   ⟨member coursePart, by decide, by decide, by decide, by decide⟩,
   ⟨rootOf (openCourse course8), by decide, by decide, by decide⟩,
   ⟨member (openCourse course8), by decide, by decide, by decide, by decide⟩,
   ⟨openCourse course8, by decide, by decide, by decide, by decide⟩,
   ⟨(openCourse course8).setTab { coursePart.tab with cqps := [(0, qpair)] }, by decide, by decide⟩,
   ⟨openCourse course8, by decide, by decide, by decide⟩,
   ⟨openCourse { course8 with status := 2 }, by decide, by decide⟩,
   ⟨coursePart, by decide, by decide, by decide, by decide, by decide⟩,
   ⟨openCourse course8, by decide, by decide, by decide, by decide⟩,
   ⟨member coursePart, by decide, by decide⟩,
   ⟨coursePart, by decide, by decide +kernel⟩,
   ⟨member (coursePart.setCourse { coursePart.course with present := [0, 3, 0, 0] }), by decide, by decide, by decide, by decide, by decide +kernel⟩,
   ⟨member coursePart, by decide, by decide, by decide⟩,
   ⟨coursePart.setCourse { coursePart.course with lastEarly := some 0 }, by decide, by decide, by decide, by decide, by decide⟩,
   ⟨coursePart, by decide, by decide, by decide, by decide, by decide⟩⟩

theorem test_witness_CapturedBlocksBecomeDurableShards :
    (∃ (s : State), s.tel.frozen = false ∧ nextCapture s = some (0, 0, 0) ∧ (blkFind s 0 0 0).isSome = true) ∧
    (∃ (s : State), s.tel.frozen = false ∧ nextCapture s = none) ∧
    (∃ (s : State), s.tel.frozen = false ∧ (crun s).shards.find? (fun h => h.number == 0) = some shard ∧ courseLive s = true ∧
      has shard.sent 0 = true ∧ shard.durable.contains 0 = false) ∧
    (∃ (s : State) (h : Shard), s.tel.frozen = false ∧ (crun s).shards.find? (fun h => h.number == 0) = some h ∧ courseLive s = true ∧
      has h.sent 0 = true ∧ h.durable.contains 0 = true) ∧
    (∃ (s : State) (h : Shard), s.tel.frozen = false ∧ (crun s).shards.find? (fun h => h.number == 0) = some h ∧ courseLive s = true ∧
      look h.sent 0 = some 65536 ∧ h.durable.contains 0 = false ∧ lookD h.retries 0 0 < 3) ∧
    (∃ (s : State) (h : Shard), s.tel.frozen = false ∧ (crun s).shards.find? (fun h => h.number == 0) = some h ∧ courseLive s = true ∧
      look h.sent 0 = some 65536 ∧ h.durable.contains 0 = false ∧ 3 ≤ lookD h.retries 0 0 ∧ (liveDests s).filter (· ≠ 0) = []) ∧
    (∃ (s : State), s.tel.frozen = false ∧ isAccel region1.endpoint = true ∧ silenced s region1.endpoint = false ∧ (fnD s region1.endpoint).dirty = none ∧
      nextPull s = some region1 ∧ courseLive s = true ∧ region1.done = some 60 ∧ (crun s).step ≤ 60) ∧
    (∃ (s : State), s.tel.frozen = false ∧ courseLive s = true ∧ (crun s).id = 8 ∧ 2 ∉ (crun s).upsCommit) ∧
    (∃ (s : State), s.tel.frozen = false ∧ courseLive s = true ∧ (crun s).id = 8 ∧ 2 ∈ (crun s).upsCommit) ∧
    (∃ (s : State), s.tel.frozen = false ∧ courseLive s = true ∧ (crun s).ledgerDue.contains 0 = true ∧ 1 ∈ (crun s).ledgerDue) ∧
    (∃ (s : State), s.tel.frozen = false ∧ courseLive s = true ∧ (crun s).ledgerDue.contains 0 = true ∧ (∀ e ∈ (crun s).ledgerDue, e = 0)) ∧
    (∃ (s : State), s.tel.frozen = false ∧ courseLive s = true ∧ (crun s).ledgerDue.contains 1 = false ∧ (crun s).ledgerRest.contains 1 = true) ∧
    (∃ (s : State), s.tel.frozen = false ∧ (crun s).status = 4 ∧ (crun s).ledgerDue.contains 1 = false ∧ (crun s).ledgerRest.contains 1 = true) ∧
    (∃ (s : State), s.tel.frozen = false ∧ courseLive s = true ∧ (crun s).id = 8 ∧ (crun s).commitSent = true ∧ fenceRoot s = false) ∧
    (∃ (s : State), s.tel.frozen = false ∧ fenceRoot s = true) :=
  ⟨⟨(openCourse { course8 with status := 2, closed := [0] }).setMem { coursePart.mem with blocks := [{ block with captured := false }] },
    by decide, by decide, by decide⟩,
   ⟨openCourse { course8 with status := 2 }, by decide, by decide⟩,
   ⟨openCourse { course8 with status := 2, closed := [0], shards := [shard] }, by decide, by decide, by decide, by decide, by decide⟩,
   ⟨openCourse { course8 with status := 2, closed := [0], shards := [{ shard with durable := [0] }] }, { shard with durable := [0] }, by decide,
     by decide, by decide, by decide, by decide⟩,
   ⟨openCourse { course8 with status := 2, closed := [0], shards := [{ shard with retries := [(0, 2)] }] }, { shard with retries := [(0, 2)] },
     by decide, by decide, by decide, by decide, by decide, by decide⟩,
   ⟨openCourse { course8 with status := 2, closed := [0], shards := [{ shard with retries := [(0, 3)] }] }, { shard with retries := [(0, 3)] },
     by decide, by decide, by decide, by decide, by decide, by decide, by decide⟩,
   ⟨(withAccel (openCourse { course8 with status := 2, closed := [0] })).setCourse { (openCourse { course8 with status := 2, closed := [0] }).course with regions := [region1] }, by decide, by decide, by decide, by decide, by decide, by decide, by decide⟩,
   ⟨rootOf (openCourse { course8 with status := 3 }), by decide, by decide, by decide, by decide⟩,
   ⟨rootOf (openCourse { course8 with status := 3, upsCommit := [2] }), by decide, by decide, by decide, by decide⟩,
   ⟨openCourse { course8 with status := 3, ledgerDue := [0, 1] }, by decide, by decide, by decide, by decide⟩,
   ⟨openCourse { course8 with status := 3, ledgerDue := [0] }, by decide, by decide, by decide, by decide⟩,
   ⟨openCourse { course8 with status := 3, ledgerDue := [0], ledgerRest := [1] }, by decide, by decide, by decide, by decide⟩,
   ⟨openCourse { course8 with status := 4, ledgerRest := [1] }, by decide, by decide, by decide, by decide⟩,
   ⟨member (openCourse { course8 with status := 3, commitSent := true }), by decide, by decide, by decide, by decide, by decide⟩,
   ⟨openCourse { course8 with status := 3, commitSent := true }, by decide, by decide⟩⟩

theorem test_witness_GuardedWritesAreIgnoredFromOthers :
    (∃ (s : State) (who : Requester), trusted who = true ∧ (1 : CsrWord).toNat.testBit 0 = true ∧ fenceRoot s = true ∧ courseLive s = true ∧
      (5 : Nat) < 6) :=
  ⟨openCourse course8, .steward, by decide, by decide, by decide, by decide, by decide⟩

/-- A member of each format, a message in neither format, and a captured table with a policy that waits. -/
theorem test_witness_course_formats :
    (∃ s : State, courseLive s = false ∧ ensureFrames s ≠ none ∧ ∀ x, ownStep s = some x → x ≤ 5) ∧
    (7 ≠ 3 ∧ 7 ≠ ownFormat) ∧ (3 = 3 ∨ 3 = ownFormat) ∧
    (∃ s : State, subtreeFormat s = ownFormat) ∧ (∃ s : State, subtreeFormat s = 3) :=
  ⟨⟨member coursePart, by decide, by decide, by decide⟩, by decide, by decide, ⟨coursePart, by decide⟩,
   ⟨(rootOf coursePart).setCourse { (rootOf coursePart).course with peerFormats := [(2, 3)] }, by decide⟩⟩

end Sys2Proof.Tests
end

