-- ==== Sys2Proof/Tests/Functions.lean ====
section
/-! SUPPORT. States and commands that meet the hypotheses of the statements about functions, migration, resets and host accesses (chapter 9),
  clause by clause. Whether the seal of a migration record opens is a free value,
    so the last two clauses about MIG_RESTORE are met in one of two ways and no witness says which. -/

namespace Sys2Proof.Tests

set_option Elab.async false

open Sys2Proof Sys2Proof.Machine

/-- A VF of PF0 of host port 0. -/
def vf : Fn := { hp := 0, pf := 0, slot := some 3, allot := { cqps := 4, conns := 2 } }
def withVf (x : Fn) : State :=
  let s := withSession up
  s.setFns (put (put s.fns 0 { fnD s 0 with numVfs := 1, vfEnable := true }) 0x1000 x)
/-- The part with its session at version 3.2, in which the dirty log was added. -/
def newer (s : State) : State := s.setIcp { s.icp with sessions := [(via, { sid := 1, major := 3, minor := 2, caps := 63 })] }
def withMigKey (s : State) : State := s.setSec { s.sec with keys := [(1, { kind := 4, material := some 7 })] }
def withPf (f : Fn) : State := up.setFns (put up.fns 1 { f with pf := 1 })
/-- A part whose port block 2 leads to accelerators. -/
def withAccelBlock (role : Nat) : State :=
  up.setPorts { up.ports with blocks := up.ports.blocks ++ [(2, { role := role, bifur := 1, maxSpeed := 5, links := [{ width := 8, speed := 5 }, { width := 8, speed := 5 }] })] }
/-- A part with 20 hot frames, of which frame 5 holds page 3 of host port 0's queue region, and aperture entry 0. -/
def withAperture (e : Nat) : State :=
  let s := up.setMem { up.mem with extents := [{ first := 5, count := 1, use := .ring }], hotTotal := 20, hotNext := 20 }
  s.setPorts { s.ports with apt := [(0, BitVec.ofNat 64 e)], qrings := [{ hp := 0, page := 3, pages := 1, frames := [5], owner := 0, queue := some 0, reply := false }] }

theorem test_witness_FunctionCommandsAnswerAndAct :
    (∃ (via : Via) (pkt : IcpPkt) (s s0 : State) (c : Ctx), let fid := c.p 0 2; let f := fnD s0 fid; let a := clampAllot s0 fid (askedAllot c);
      Starts 0x0900 via pkt s c s0 ∧ (fnOf s0 fid).isSome = true ∧ c.p 0x1E 2 ≤ 4094 ∧ (c.p 0x20 1).testBit 0 = false ∧ f.st ≠ .frozen ∧
        a.quota = 0 ∧ f.pf = 0) ∧
    (∃ (via : Via) (pkt : IcpPkt) (s s0 : State) (c : Ctx), let fid := c.p 0 2; let f := fnD s0 fid; let a := clampAllot s0 fid (askedAllot c);
      Starts 0x0900 via pkt s c s0 ∧ (fnOf s0 fid).isSome = true ∧ c.p 0x1E 2 ≤ 4094 ∧ (c.p 0x20 1).testBit 0 = false ∧ f.st ≠ .frozen ∧ (∃ k,
        k < 1024 ∧ ∀ e ∈ s0.fns, e.2.slot ≠ some k) ∧ f.slot = none ∧ a.quota ≠ 0) ∧
    (∃ (via : Via) (pkt : IcpPkt) (s s0 : State) (c : Ctx), let fid := c.p 0 2; Starts 0x0902 via pkt s c s0 ∧ (fnOf s0 fid).isSome = true ∧
      via ≠ .ring fid) ∧
    (∃ (via : Via) (pkt : IcpPkt) (s s0 : State) (c : Ctx), let fid := c.p 0 2; Starts 0x0902 via pkt s c s0 ∧ (fnOf s0 fid).isSome = true ∧
      Via.ring 0 = .ring fid) ∧
    (∃ (via : Via) (pkt : IcpPkt) (s s0 : State) (c : Ctx), let fid := c.p 0 2; Starts 0x0901 via pkt s c s0 ∧ (fnOf s0 fid).isSome = true ∧
      fid ≠ 0 ∧ fid ≠ 3 ∧ courseLive s0 = false ∧ via ≠ .ring fid) ∧
    (∃ (via : Via) (pkt : IcpPkt) (s s0 : State) (c : Ctx), let fid := c.p 0 2; Starts 0x0903 via pkt s c s0 ∧ (fnKnown s0 fid).isSome = true ∧
      (c.p 2 2).testBit 0 = false ∧ c.iss.priv = true) ∧
    (∃ (via : Via) (pkt : IcpPkt) (s s0 : State) (c : Ctx), let fid := c.p 0 2; Starts 0x0903 via pkt s c s0 ∧ (fnKnown s0 fid).isSome = true ∧
      (c.p 2 2).testBit 0 = true ∧ fid = c.iss.fid ∧ c.pkt.generation = (fnD s0 fid).gen) ∧
    (∃ (via : Via) (pkt : IcpPkt) (s s0 : State) (c : Ctx), let fid := c.p 0 2;
      let x := updFn fid (fun f => { f with st := .frozen, migBuf := [] }) s0; Starts 0x0904 via pkt s c s0 ∧ vfHere s0 (c.p 0 2) = true ∧
        quiet x fid = true) ∧
    (∃ (via : Via) (pkt : IcpPkt) (s s0 : State) (c : Ctx), let fid := c.p 0 2;
      let x := updFn fid (fun f => { f with st := .frozen, migBuf := [] }) s0; Starts 0x0904 via pkt s c s0 ∧ vfHere s0 (c.p 0 2) = true ∧
        quiet x fid = false) ∧
    (∃ (via : Via) (pkt : IcpPkt) (s s0 : State) (c : Ctx), let fid := c.p 0 2; Starts 0x0907 via pkt s c s0 ∧ vfHere s0 (c.p 0 2) = true ∧
      isFrozen s0 fid = true) ∧
    (∃ (via : Via) (pkt : IcpPkt) (s s0 : State) (c : Ctx) (k : Nat), let fid := c.p 0 2; let off := c.p 0x10 8;
      let fresh := (fnD s0 fid).migBuf.isEmpty; let record := if fresh then sealRecord k s0 fid else (fnD s0 fid).migBuf;
        Starts 0x0905 via pkt s c s0 ∧ vfHere s0 (c.p 0 2) = true ∧ isFrozen s0 fid = true ∧ migKey s0 = some k ∧ off ≤ record.length) ∧
    (∃ (via : Via) (pkt : IcpPkt) (s s0 : State) (c : Ctx) (k : Nat), let fid := c.p 0 2; let off := c.p 0x10 8;
      let fresh := (fnD s0 fid).migBuf.isEmpty; let record := (fnD s0 fid).migBuf; Starts 0x0905 via pkt s c s0 ∧ vfHere s0 (c.p 0 2) = true ∧
        isFrozen s0 fid = true ∧ fresh = false ∧ migKey s0 = some k ∧ off ≤ record.length) ∧
    (∃ (via : Via) (pkt : IcpPkt) (s s0 : State) (c : Ctx) (k : Nat) (d : Bytes), let fid := c.p 0 2; let off := c.p 0x10 8;
      let record := (if off = 0 then [] else (fnD s0 fid).migBuf) ++ d.take (c.p 4 4); Starts 0x0906 via pkt s c s0 ∧ vfHere s0 (c.p 0 2) = true ∧
        migKey s0 = some k ∧ restoreTarget s0 fid = true ∧ c.pkt.dma = some d ∧ c.p 2 2 = 0xFFFF ∧ off = (fnD s0 fid).migBuf.length ∧
          record.length < 20) ∧
    (∃ (via : Via) (pkt : IcpPkt) (s s0 : State) (c : Ctx) (k : Nat) (d : Bytes), let fid := c.p 0 2; let off := c.p 0x10 8;
      let record := (if off = 0 then [] else (fnD s0 fid).migBuf) ++ d.take (c.p 4 4); Starts 0x0906 via pkt s c s0 ∧ vfHere s0 (c.p 0 2) = true ∧
        migKey s0 = some k ∧ restoreTarget s0 fid = true ∧ c.pkt.dma = some d ∧ vfHere s0 (c.p 2 2) = true ∧ c.p 2 2 ≠ fid ∧
          isFrozen s0 (c.p 2 2) = true ∧ off = 0 ∧ 20 ≤ record.length ∧ le record 0 8 ≤ record.length) ∧
    (∃ (via : Via) (pkt : IcpPkt) (s s0 : State) (c : Ctx), let off := c.p 0x10 8; Starts 0x0908 via pkt s c s0 ∧ vfHere s0 (c.p 0 2) = true ∧
      off % 4096 = 0 ∧ c.p 0x18 8 ≠ 0 ∧ atomicReq s0 (fnD s0 c.iss.owner).hp = true) ∧
    (∃ (via : Via) (pkt : IcpPkt) (s s0 : State) (c : Ctx) (d : DirtyLog), let fid := c.p 0 2; Starts 0x0909 via pkt s c s0 ∧
      vfHere s0 (c.p 0 2) = true ∧ (fnD s0 fid).dirty = some d) :=
  ⟨⟨via, packet 64 [(0, 2, 0x1000), (2, 2, 15), (4, 4, 100), (0x10, 4, 0), (0x14, 4, 8), (0x1C, 2, 1), (0x1E, 2, 4094), (0x20, 1, 2), (0x26, 1,
    200), (0x28, 4, 77)], withVf { vf with slot := none, allot := {} }, _, _, starts_of (by decide +kernel), by decide, by decide, by decide,
      by decide, by decide, by decide⟩,
   ⟨via, packet 64 [(0, 2, 0x1000), (0x10, 4, 1)], let s := withVf { vf with slot := none, allot := {} };
     s.setMem { s.mem with hotTotal := 1000, hotNext := 1000 }, _, _, starts_of (by decide +kernel), by decide, by decide, by decide, by decide,
       ⟨0, by decide, by decide⟩, by decide, by decide⟩,
   ⟨via, packet 8 [(0, 2, 0x1000)], withVf vf, _, _, starts_of (by decide +kernel), by decide, by decide⟩,
   ⟨.ring 0, ringPacket 8 [(0, 2, 0)], ringSession up, _, _, starts_ring (by decide +kernel), by decide, by decide⟩,
   ⟨via, packet 8 [(0, 2, 0x1000)], withVf vf, _, _, starts_of (by decide +kernel), by decide, by decide, by decide, by decide, by decide⟩,
   ⟨via, withByte 2 (putBit 0 false) (packet 8 [(0, 2, 0x1000)]), withVf vf, _, _, starts_of (by decide +kernel), by decide, by decide, by decide⟩,
   ⟨.ring 0, withByte 2 (putBit 0 true) { ringPacket 8 [(0, 2, 0)] with generation := 2 }, let s := ringSession up;
     (s.setFns (put s.fns 0 { fnD s 0 with gen := 2, prevGen := 1, allot := { cqps := 4 } })).setTab { s.tab with cqps := [(5, { owner := 0, gen := 1, sqAddr := 65536, cqAddr := 131072, held := true })] }, _, _, starts_ring (by decide +kernel), by decide, by decide, by decide, by decide⟩,
   ⟨via, packet 8 [(0, 2, 0x1000)], withVf vf, _, _, starts_of (by decide +kernel), by decide, by decide⟩,
   ⟨via, packet 8 [(0, 2, 0x1000)], let s := withVf vf; s.setIcp { s.icp with waits := [{ via := .ring 0x1000, pkt := packet 8 [], kind := .destroy, obj := 1 }] }, _, _, starts_of (by decide +kernel), by decide, by decide⟩,
   ⟨via, packet 8 [(0, 2, 0x1000)], withVf { vf with st := .frozen }, _, _, starts_of (by decide +kernel), by decide, by decide⟩,
   ⟨via, packet 24 [(0, 2, 0x1000), (4, 4, 4096), (8, 8, 65536), (0x10, 8, 0)], withMigKey (withVf { vf with st := .frozen }), _, _,
     Config.deriveKey 7 (asciiBytes "TRM-MIG"), starts_of (by decide +kernel), by decide, by decide, rfl, Nat.zero_le _⟩,
   ⟨via, packet 24 [(0, 2, 0x1000), (4, 4, 2), (8, 8, 65536), (0x10, 8, 3)], withMigKey (withVf { vf with st := .frozen, migBuf := [1, 2, 3] }),
     _, _, Config.deriveKey 7 (asciiBytes "TRM-MIG"), starts_of (by decide +kernel), by decide, by decide, by decide, rfl, by decide⟩,
   ⟨via, { packet 24 [(0, 2, 0x1000), (2, 2, 0xFFFF), (4, 4, 3), (0x10, 8, 3)] with dma := some [9, 9, 9, 9] },
     withMigKey (withVf { vf with migBuf := [1, 2, 3] }), _, _, Config.deriveKey 7 (asciiBytes "TRM-MIG"), [9, 9, 9, 9],
       starts_of (by decide +kernel), by decide, rfl, by decide, by decide, by decide, by decide, by decide⟩,
   ⟨via, { packet 24 [(0, 2, 0x1000), (2, 2, 0x1001), (4, 4, 24), (0x10, 8, 0)] with dma := some (leBytes 8 24 ++ List.replicate 16 0) },
     let s := withMigKey (withVf vf); s.setFns (put s.fns 0x1001 { vf with vfIndex := 1, slot := none, st := .frozen }), _, _,
       Config.deriveKey 7 (asciiBytes "TRM-MIG"), leBytes 8 24 ++ List.replicate 16 0, starts_of (by decide +kernel), by decide, rfl, by decide,
         by decide, by decide, by decide, by decide, by decide, by decide, by decide⟩,
   ⟨via, packet 32 [(0, 2, 0x1000), (8, 8, 65536), (0x10, 8, 8192), (0x18, 8, 4097)], let s := newer (withVf vf); s.setPorts { s.ports with cfg := [(0x88, 0x40)] }, _, _, starts_of (by decide +kernel), by decide, by decide, by decide, by decide⟩,
   ⟨via, packet 8 [(0, 2, 0x1000)],
     newer (withVf { vf with dirty := some { issuer := 0, bitmap := 65536, base := 8192, length := 4097, pages := [1], outside := 2 } }), _, _,
     { issuer := 0, bitmap := 65536, base := 8192, length := 4097, pages := [1], outside := 2 }, starts_of (by decide +kernel), by decide, by decide⟩⟩

theorem test_witness_GenerationsEndWhole :
    (∃ (s : State), (look s.fns 1).isSome = true ∧ (fnOf s 1).isSome = true ∧ (fnD s 1).crs = false ∧ (fnD s 1).leaseOn = true ∧ isPf 1 = true ∧
      (fnD s 2).crs = false ∧ (fnD s 2).leaseOn = false ∧ fnOf s 9 = none ∧ dstateOf 3 ≠ (fnD s 1).dstate ∧ dstateOf 3 = .d3cold ∧
        dstateOf 2 ≠ (fnD s 1).dstate ∧ dstateOf 2 ≠ .d3cold) ∧
    (∃ (s : State), (fnD s 1).crs = true ∧ running s = true) ∧
    (∃ (s : State) (hp : Nat) (pf : Nat), (hostPortBlock s hp).isSome = true ∧ hp ≤ 1 ∧ pf < 3 ∧ (look s.fns (pfId hp pf)).isSome = true) ∧
    (∃ (s : State), let f := fnD s 1; isPf 1 = true ∧ f.crs = false ∧ f.vfEnable = false ∧ (look s.fns 1).isSome = true ∧ isPf 0x1000 = false) ∧
    (∃ (s : State), let f := fnD s 1; isPf 1 = true ∧ f.crs = false ∧ f.vfEnable = true ∧ (look s.fns 1).isSome = true ∧ (∃ v ∈ vfsOf s 1, v ≠ 1)) ∧
    (∃ (s : State), isPf 1 = true ∧ (fnD s 1).pmeEn = true ∧ (fnD s 1).dstate = .d3hot ∧ isPf 2 = true ∧ (fnD s 2).pmeEn = false) ∧
    (∃ (s : State), isPf 1 = true ∧ (fnD s 1).pmeEn = true ∧ (fnD s 1).dstate = .d3cold) :=
  ⟨⟨let s := withPf { gen := 65535, leaseOn := true, reclaim := { conns := 2 } };
    s.setGrt { s.grt with conns := [(1, { owner := 1 }), (8193, { owner := 2 })], mrs := [(0, { owner := 1, endpoint := 0xFFFF, kind := 0, access := 15, conn := 0, addr := 0, length := 4096, nsid := 0, handle := 1 })] }, by decide, by decide, by decide, by decide, by decide, by decide, by decide, by decide, by decide, by decide, by decide, by decide⟩,
   ⟨withPf { crs := true }, by decide, by decide⟩,
   ⟨withPf { dstate := .d3hot, numVfs := 1, vfEnable := true }, 0, 1, by decide, by decide, by decide, by decide⟩,
   ⟨withPf { numVfs := 2 }, by decide, by decide, by decide, by decide, by decide⟩,
   ⟨nextOf (exec (.vfEnable 1 true) (withPf { numVfs := 2 })), by decide, by decide, by decide +kernel, by decide +kernel, by decide +kernel⟩,
   ⟨withPf { pmeEn := true, dstate := .d3hot }, by decide, by decide, by decide, by decide, by decide⟩,
   ⟨withPf { pmeEn := true, dstate := .d3cold }, by decide, by decide, by decide⟩⟩

theorem test_witness_HostAccessesReachTheirMemory :
    (∃ (s : State) (n : Nat) (k : Nat), let b := pbOf s n; let full := (bifurLanes b.bifur).getD k 0; n ≤ 19 ∧ k < (bifurLanes b.bifur).length ∧
      k < b.links.length ∧ b.role ≠ 0 ∧ 4 ∈ [1, 2, 4, 8, 16] ∧ 4 ≤ full ∧ lookD s.tel.minWidth n 1 ≤ 4 ∧ b.role = 2) ∧
    (∃ (s : State) (n : Nat) (k : Nat), n ≤ 19 ∧ k < (bifurLanes (pbOf s n).bifur).length ∧ k < (pbOf s n).links.length ∧ (pbOf s n).role ≠ 2) ∧
    (∃ (s : State) (v : BitVec 64) (v' : BitVec 64), (fnD s (pfId 0 0)).dstate = .d0 ∧ custodyRange s (aptBase v'.toNat) 0x1000000 = false) ∧
    (∃ (s : State) (off : Nat) (len : Nat), let e := aptOf s 0 (off / 0x1000000); s.tel.frozen = false ∧ (fnD s (pfId 0 0)).dstate = .d0 ∧ e.testBit 63 = true ∧
      e.testBit 62 = true ∧ courseLive s = false ∧ regionByte s 0 4096 = none ∧ regionByte s 0 0x3FFE = some (5 * frameBytes + 0xFFE)) ∧
    (∃ (s : State) (off : Nat) (len : Nat), let e := aptOf s 0 (off / 0x1000000); s.tel.frozen = false ∧ (fnD s (pfId 0 0)).dstate = .d0 ∧ e.testBit 63 = false) ∧
    (∃ (s : State), (fnD s (pfId 0 0)).dstate ≠ .d0) ∧
    (∃ (s : State), (fnD s (pfId 0 0)).dstate = .d0 ∧ 2 ^ 31 ≤ winXlat s 0 (0x20000 / 0x400000) ∧ 2 ^ 31 ≤ winXlat s 0 (0x400004 / 0x400000) ∧
      winXlat s 0 (0x3FFFFFC / 0x400000) < 2 ^ 31) :=
  ⟨⟨withAccelBlock 2, 2, 1, by decide, by decide, by decide, by decide, by decide, by decide, by decide, by decide⟩,
   ⟨withAccelBlock 3, 2, 0, by decide, by decide, by decide, by decide⟩,
   ⟨withAperture 0, 0xC000000000000000, 0x800FFFFFFF000000, by decide, by decide⟩,
   ⟨withAperture (2 ^ 63 + 2 ^ 62), 0xFFFFFE, 4, by decide, by decide, by decide, by decide, by decide, by decide, by decide⟩,
   ⟨withAperture 0, 0xFFFFFE, 4, by decide, by decide, by decide⟩,
   ⟨let s := withAperture 0; s.setFns (put s.fns 0 { fnD s 0 with dstate := .d3hot }), by decide⟩,
   ⟨up.setPorts { up.ports with winXlat := [(1, 0x80000000), (0, 0x80000005), (15, 7)] }, by decide, by decide, by decide, by decide⟩⟩

/-- An isolated port block, an isolated memory controller behind an aperture page and a ring's page, and a part with neither. -/
theorem test_witness_aborted_requests :
    (∃ s : State, s.tel.frozen = false ∧ (fnD s (pfId 0 0)).dstate = .d0 ∧ ∃ b, hostPortBlock s 0 = some b ∧ isolated s (blkPb b) = true) ∧
    (∃ s : State, let e := aptOf s 0 0; s.tel.frozen = false ∧ (fnD s (pfId 0 0)).dstate = .d0 ∧ e.testBit 63 = true ∧
      (∃ a ∈ linesOf (aptBase e) 4, isolated s (lineBlock s a) = true) ∧
      ∃ d, regionByte s 0 0x3000 = some d ∧ ∃ a ∈ linesOf d 4, isolated s (lineBlock s a) = true) ∧
    (∃ s : State, s.tel.frozen = false ∧ (fnD s (pfId 0 0)).dstate = .d0 ∧ (∀ b, hostPortBlock s 0 = some b → isolated s (blkPb b) = false) ∧
      ∀ d : Nat, isolated s (lineBlock s d) = false) :=
  ⟨⟨up.setErr [(33, { isolated := true })], rfl, by decide, 0, by decide, by decide⟩,
   ⟨let s := withAperture (2 ^ 63); s.setErr ((List.range 6).map (fun n => (19 + n, { isolated := true }))), by decide +kernel, by decide +kernel,
     by decide +kernel, by decide +kernel, 5 * frameBytes, by decide +kernel, by decide +kernel⟩,
   ⟨up, rfl, by decide, fun _ _ => rfl, fun _ => rfl⟩⟩

/-- A part whose start is under way: its functions are there and answer nothing yet (R652). -/
theorem test_witness_before_start_complete :
    (∃ s : State, running s = false ∧ footing s = false ∧ (fnOf s 1).isSome = true ∧ isPf 1 = true ∧ s.boot.inReset = false ∧
      (fnD s (pfId 0 0)).dstate = .d0) ∧ (∃ s : State, running s = false ∧ footing s = false ∧ s.boot.inReset = true) ∧
    (∃ s : State, running s = true ∧ (fnD s 1).crs = true) :=
  ⟨⟨up.setBoot { up.boot with stage := 1 }, rfl, rfl, by decide, by decide, rfl, by decide⟩, ⟨.reset, by decide, by decide, rfl⟩,
   ⟨withPf { crs := true }, by decide, by decide⟩⟩

/-- R652: a write of the Command register before start complete is retried, and a read of the custody aperture is an Unsupported Request. -/
theorem test_before_start_complete :
    let s := up.setBoot { up.boot with stage := 1 }
    ((nextOf (exec (.csrWrite (.host 0) (.config 0 4) 2) s)).out, (nextOf (exec (.apertureAccess 0 0 4 none []) s)).out) =
      ([.configRetry 0], [.unsupported 0]) := by decide +kernel

end Sys2Proof.Tests
end

