-- ==== Sys2Proof/Tests/Mason.lean ====
section
/-! SUPPORT. States and operands that meet the hypotheses of the statements about the mason array and its instructions, clause by clause, and small tests of those instructions. -/

namespace Sys2Proof.Tests

set_option Elab.async false

open Sys2Proof Sys2Proof.Machine

/-! ### A thread runs an instruction -/

/-- Base of W2. -/
def w2 : SReg := 0x2000000000000000
/-- Base of W1. -/
def w1 : SReg := 0x1000000000000000
/-- Base of W12, client memory. -/
def w12 : SReg := 0xC000000000000000

theorem issues (r : List (Nat × SReg)) : Issues (masonOf (thread r)) 0 4 (ctxOf (thread r)) := ⟨rfl, by simp [ctxOf, thread, kernel]⟩
theorem issues2 (r : List (Nat × SReg)) : Issues (masonOf (thread r)) 0 2 (ctxOf (thread r)) := ⟨rfl, by simp [ctxOf, thread, kernel]⟩

/-- A thread in a block repeat of two instructions over r1, `lpos` instructions into its pass. -/
def looping (n lpos : SReg) : Thread := { thread [(1, n)] with pc := 8, lc := 0x80000021, lpos := lpos }

theorem issuesLoop (n p : SReg) : Issues (masonOf (looping n p)) 0 4 (ctxOf (looping n p)) := ⟨rfl, by simp [ctxOf, looping, thread, kernel]⟩

/-- The same part with table 1, four rows of 16 bytes in frame 5, and a course past its fence for it or not. -/
def withTable (status : Nat) (t : Thread) : State :=
  let s := masonOf t
  let s := s.setTab { s.tab with tbls := [(1, { handle := 0x401, owner := 0, rows := 4, localRows := 4, ranges := [(0, 4)] })] }
  let s := s.setMem { s.mem with blocks := [{ table := 1, region := 0, index := 0, frame := some 5 }] }
  if status = 0 then s else s.setCourse { s.course with run := some { id := 1, step := 0, status := status, tables := [1] } }

/-- The thread's context when it stores in step 1. -/
def ctxStep (t : Thread) : TCtx := { ctxOf t with j := { (ctxOf t).j with step := 1 } }
def stepOne (s : State) : State := s.setMason { s.mason with jobs := s.mason.jobs.map (fun j => { j with step := 1 }) }

/-! ### The scalar statements -/

theorem test_witness_scalar : (∃ s th c, Issues s th 4 c) ∧ (∃ s th c, Issues s th 2 c) := ⟨⟨_, _, _, issues []⟩, ⟨_, _, _, issues2 []⟩⟩

theorem test_witness_division :
    (∃ s th c, Issues s th 4 c ∧ getS c.t 2 = 0 ∧ 0 ≤ (getS c.t 1).toInt) ∧
    (∃ s th c, Issues s th 4 c ∧ getS c.t 2 = 0 ∧ (getS c.t 1).toInt < 0) ∧
    (∃ s th c, Issues s th 4 c ∧ (getS c.t 1).toInt = -2 ^ 63 ∧ (getS c.t 2).toInt = -1) ∧
    (∃ s th c, Issues s th 4 c ∧ getS c.t 2 ≠ 0 ∧ ¬ ((getS c.t 1).toInt = -2 ^ 63 ∧ (getS c.t 2).toInt = -1)) :=
  ⟨⟨_, _, _, issues [], by decide⟩, ⟨_, _, _, issues [(1, 0x8000000000000000)], by decide⟩,
   ⟨_, _, _, issues [(1, 0x8000000000000000), (2, 0xFFFFFFFFFFFFFFFF)], by decide⟩, ⟨_, _, _, issues [(1, 0x8000000000000000), (2, 1)], by decide⟩⟩

theorem test_witness_masks : ∃ s th c, Issues s th 4 c := ⟨_, _, _, issues []⟩

theorem test_witness_branches :
    (∃ s th c, Issues s th 2 c ∧ getS c.t 1 % 2 = 0) ∧ (∃ s th c, Issues s th 2 c ∧ getS c.t 1 % 2 = 1) ∧
    (∃ s th c, Issues s th 4 c ∧ (getS c.t 1 + (0xFFF : BitVec 12).signExtend 64) % 2 = 0) ∧
    (∃ s th c, Issues s th 4 c ∧ (getS c.t 1 + (0xFFF : BitVec 12).signExtend 64) % 2 = 1) :=
  ⟨⟨_, _, _, issues2 [], by decide⟩, ⟨_, _, _, issues2 [(1, 7)], by decide⟩, ⟨_, _, _, issues [(1, 9)], by decide⟩, ⟨_, _, _, issues [], by decide⟩⟩

theorem test_witness_repeat :
    (∃ s th c, Issues s th 4 c ∧ lcActive c.t.lc = false ∧ getS c.t 1 = 0 ∧ (31 : BitVec 12).toNat / 32 = 0) ∧
    (∃ s th c, Issues s th 4 c ∧ lcActive c.t.lc = false ∧ getS c.t 1 ≠ 0) ∧
    (∃ s th c, Issues s th 4 c ∧ lcActive c.t.lc = true) ∧ (32 : BitVec 12).toNat / 32 ≠ 0 ∧
    lcActive (looping 2 0).lc = true ∧ (looping 2 0).lpos.toNat < lcLen (looping 2 0).lc ∧
    (lcLen (looping 1 1).lc ≤ (looping 1 1).lpos.toNat ∧ (getS (looping 1 1) (lcCreg (looping 1 1).lc)).toNat ≤ 1) ∧
    (lcLen (looping 2 1).lc ≤ (looping 2 1).lpos.toNat ∧ 1 < (getS (looping 2 1) (lcCreg (looping 2 1).lc)).toNat) :=
  ⟨⟨_, _, _, issues [], by decide⟩, ⟨_, _, _, issues [(1, 5)], by decide⟩, ⟨_, _, _, issuesLoop 2 0, by decide⟩, by decide, by decide, by decide,
   by decide, by decide⟩

/-! ### Memory -/

theorem test_witness_loads :
    (∃ s th c, Issues s th 4 c ∧ (∃ bs s', loadMem c (getS c.t 1) 8 [] false (memFaults c {} s) = .ok bs s') ∧
      ∃ k s', loadMem c (getS c.t 2) 8 [] false (memFaults c {} s) = .fault k s') ∧
    (∃ s th c, Issues s th 2 c ∧ (∃ bs s', loadMem c (getS c.t (primed 0)) 8 [] false (memFaults c {} s) = .ok bs s') ∧
      ∃ k s', loadMem c (getS c.t (primed 1)) 4 [] false (memFaults c {} s) = .fault k s') :=
  ⟨⟨_, _, _, issues [(1, w2), (2, w1)], ⟨_, _, rfl⟩, ⟨_, _, rfl⟩⟩,
   ⟨_, _, _, issues2 [(16, w2), (17, w1)], ⟨_, _, rfl⟩, ⟨_, _, rfl⟩⟩⟩

/-- The part with row 1 of its table under repointing, and one whose channel of frame 0 retrains. -/
def repointed (t : Thread) : State :=
  let s := withTable 0 t
  s.setTab { s.tab with tbls := s.tab.tbls.map (fun e => (e.1, { e.2 with bad := [{ row := 1 }] })) }
def retrained (t : Thread) : State := let s := masonOf t; s.setMem { s.mem with channels := [0], retraining := [0] }

theorem test_witness_loads_wait :
    (∃ s th c, Issues s th 4 c ∧ ∃ s', loadMem c (getS c.t 1) 8 [] false (memFaults c {} s) = .wait s') ∧
    (∃ s th c, Issues s th 2 c ∧ ∃ s', loadMem c (getS c.t (primed 0)) 4 [] false (memFaults c {} s) = .wait s') ∧
    (∃ s c as, resolve s c 8 8 0 = some (.mem as) ∧ (∀ a ∈ as, lineOf a ∉ s.mem.poison) ∧ ∃ a ∈ as, channelHeld s a = true) :=
  ⟨⟨repointed (thread [(1, 0x4000000000000010)]), 0, ctxOf (thread [(1, 0x4000000000000010)]), ⟨rfl, by simp [ctxOf, thread, kernel]⟩, ⟨_, rfl⟩⟩,
   ⟨repointed (thread [(16, 0x4000000000000010)]), 0, ctxOf (thread [(16, 0x4000000000000010)]), ⟨rfl, by simp [ctxOf, thread, kernel]⟩, ⟨_, rfl⟩⟩,
   ⟨retrained (thread []), ctxOf (thread []), _, rfl, by decide, by decide⟩⟩

/-- A job of an earlier generation of its function, and one of the present generation. -/
theorem test_witness_generations : ∃ s c d, (∃ fid a, resolve s c w12 8 0 = some (.client fid a)) ∧ c.j.gen ≠ genOf s c.j.client ∧
    (∃ fid a, resolve s d w12 8 0 = some (.client fid a)) ∧ d.j.gen = genOf s d.j.client :=
  ⟨masonOf (thread []), { ctxOf (thread []) with j := { (ctxOf (thread [])).j with gen := 7 } },
   { ctxOf (thread []) with j := { (ctxOf (thread [])).j with gen := 1 } }, ⟨_, _, rfl⟩, by decide, ⟨_, _, rfl⟩, by decide⟩

/-- The two worked encodings of R209, `rpt s14, 8` and `q.addk s9, 4`; the halfword 0x0000 is undefined (R205). -/
theorem test_decode_words : decodeLong 3 {} 0x03801E13 = some (.rpt 3 14 7) ∧ decodeShort 0 {} 0x4888 = some (.qAddk 0 9 4) ∧
    decodeShort 0 {} 0 = none ∧ encodingDefined 0 = false ∧ encodingDefined 0x4888 = true := by decide

theorem test_witness_windows :
    (∀ w : Nat, w < 12 → (BitVec.ofNat 64 (w * 2 ^ 60)).toNat / 2 ^ 60 = w) ∧ ((ctxOf (thread [])).j.rule = none) ∧
    (boundTable (masonOf (thread [])) (ctxOf (thread [])) 5 = none) ∧
    (∃ x, resolve (withTable 0 (thread [])) (ctxOf (thread [])) 0x4000000000000000 8 1 = some x) ∧
    ((ctxOf (thread [])).j.buffers[0]? = some 0x1000 ∧ (ctxOf (thread [])).j.buffers[1]? = none) ∧
    (resolve (masonOf (thread [])) (ctxOf (thread [])) 0x1000000000000000 8 0 = none) :=
  ⟨by decide, rfl, rfl, ⟨_, rfl⟩, ⟨rfl, rfl⟩, rfl⟩

theorem test_witness_load_targets :
    (∃ s c bs, resolve s c 0x1000000000000000 0 0 = some (.inside bs)) ∧
    (∃ s c a, resolve s c w2 8 0 = some (.scratch a) ∧ ∀ w ∈ s.mem.badWords, ¬ (w < a + 8 ∧ a < w + 8)) ∧
    (∃ s c a, resolve s c w2 8 0 = some (.scratch a) ∧ ∃ w ∈ s.mem.badWords, w < a + 8 ∧ a < w + 8) ∧
    (∃ s c fid a, resolve s c w12 8 0 = some (.client fid a)) ∧
    (∃ s c as, resolve s c 8 8 0 = some (.mem as) ∧ (∀ a ∈ as, lineOf a ∉ s.mem.poison) ∧ l1Of s (coreKey c.th) = []) ∧
    (∃ s c as, resolve s c 8 8 0 = some (.mem as) ∧ ∃ a ∈ as, lineOf a ∈ s.mem.poison) :=
  ⟨⟨masonOf (thread []), ctxOf (thread []), _, rfl⟩, ⟨masonOf (thread []), ctxOf (thread []), _, rfl, by decide⟩,
   ⟨let s := masonOf (thread []); s.setMem { s.mem with badWords := [scratchDpa 0] }, ctxOf (thread []), _, rfl, by decide⟩,
   ⟨masonOf (thread []), ctxOf (thread []), _, _, rfl⟩, ⟨masonOf (thread []), ctxOf (thread []), _, rfl, by decide⟩,
   ⟨let s := masonOf (thread []); s.setMem { s.mem with poison := [0] }, ctxOf (thread []), _, rfl, by decide⟩⟩

theorem test_witness_stores :
    (∃ s th c, Issues s th 4 c ∧ (∃ s', storeMem c (getS c.t 1) (leBytes 8 (getS c.t 2).toNat) false (memFaults c {} s) = .ok () s') ∧
      ∃ k s', storeMem c (getS c.t 2) (leBytes 8 (getS c.t 2).toNat) false (memFaults c {} s) = .fault k s') ∧
    (∃ s th c, Issues s th 4 c ∧ ∃ s', storeMem c (getS c.t 1) (leBytes 8 0) false (memFaults c {} s) = .wait s') ∧
    (∃ s th c, Issues s th 2 c ∧ ∃ s', storeMem c (getS c.t (primed 0)) (leBytes 4 0) false (memFaults c {} s) = .ok () s') :=
  ⟨⟨_, _, _, issues [(1, w2)], ⟨_, rfl⟩, ⟨_, _, rfl⟩⟩,
   ⟨stepOne (withTable 1 (thread [(1, 0x4000000000000000)])), 0, ctxStep (thread [(1, 0x4000000000000000)]),
     ⟨rfl, by simp [ctxStep, ctxOf, thread, kernel]⟩, ⟨_, rfl⟩⟩,
   ⟨_, _, _, issues2 [(16, w2)], ⟨_, rfl⟩⟩⟩

theorem test_witness_store_targets :
    (∃ s c a, resolve s c w2 ([7] : Bytes).length 1 = some (.scratch a)) ∧
    (∃ s c ti region b s', resolve s c 0x4000000000000000 ([7] : Bytes).length 1 = some (.table ti region [b]) ∧
      storeMem c 0x4000000000000000 [7] false s = .ok () s' ∧ (blkFind s ti region b.2.1).map (·.frame) = some (some 5)) ∧
    (∃ s c ti region bs, resolve s c 0x4000000000000000 ([7] : Bytes).length 1 = some (.table ti region bs) ∧ tablePoison s ti region bs = true) ∧
    (∃ s c fid a, resolve s c w12 ([7] : Bytes).length 1 = some (.client fid a) ∧ silenced s fid = false) :=
  ⟨⟨masonOf (thread []), ctxOf (thread []), _, rfl⟩, ⟨withTable 0 (thread []), ctxOf (thread []), _, _, _, _, rfl, rfl, rfl⟩,
   ⟨(withTable 0 (thread [])).setMem { (withTable 0 (thread [])).mem with poison := [5 * 65536] }, ctxOf (thread []), _, _, _, rfl, rfl⟩,
   ⟨hostUp (masonOf (thread [])), ctxOf (thread []), _, _, rfl, by decide⟩⟩

theorem test_witness_atomics :
    (∃ s th c, Issues s th 4 c ∧ (∃ old s', atomicMem c (getS c.t 1) 8 some (memFaults c {} s) = .ok old s') ∧
      ∃ k s', atomicMem c (getS c.t 2) 8 some (memFaults c {} s) = .fault k s') ∧
    (∃ s th c, Issues s th 4 c ∧ ∃ s', atomicMem c (getS c.t 1) 4 some (memFaults c {} s) = .wait s') ∧
    (∃ s th c, Issues s th 4 c ∧ 12 ≤ (getS c.t 1).toNat / 2 ^ 60 ∧ (getS c.t 1).toNat % 8 = 0) ∧
    (∃ s th c, Issues s th 4 c ∧ (getS c.t 1).toNat % 8 ≠ 0) ∧
    (∃ s c a old s', resolve s c w2 8 2 = some (.scratch a) ∧ (∀ bs new : Bytes, some bs = some new → bs.length = 8 → new.length = 8) ∧
      atomicMem c w2 8 (fun _ => some (leBytes 8 5)) s = .ok old s') :=
  ⟨⟨_, _, _, issues [(1, w2), (2, 4)], ⟨_, _, rfl⟩, ⟨fkAlign, _, rfl⟩⟩,
   ⟨stepOne (withTable 1 (thread [(1, 0x4000000000000000)])), 0, ctxStep (thread [(1, 0x4000000000000000)]),
     ⟨rfl, by simp [ctxStep, ctxOf, thread, kernel]⟩, ⟨_, rfl⟩⟩,
   ⟨_, _, _, issues [(1, w12)], by decide, by decide⟩, ⟨_, _, _, issues [(1, 0xC000000000000004)], by decide⟩,
   ⟨masonOf (thread []), ctxOf (thread []), _, _, _, rfl, fun _ _ h e => by cases h; exact e, rfl⟩⟩

/-! ### Strings -/

/-- r1 and r2 in W2, r4 the count. -/
def strings (n : SReg) : List (Nat × SReg) := [(1, w2), (2, w2 + 16), (4, n)]

theorem test_witness_strings :
    (∃ s th c, Issues s th 4 c ∧ ∃ t' s', Elements (movsElem c 1 4 1 2 {}) (getS c.t 4).toNat 0 c.t (memFaults c {} s) t' s') ∧
    (∃ s th c, Issues s th 4 c ∧ ∃ t' s', Elements (fillsElem c 1 4 3 2 {}) (getS c.t 4).toNat 0 c.t (memFaults c {} s) t' s') ∧
    (∃ s th c, Issues s th 4 c ∧ ∃ t' s', Elements (cmpsElem c 1 4 1 2 {} true) (getS c.t 4).toNat 0 c.t (memFaults c {} s) t' s') ∧
    (∃ s th c, Issues s th 4 c ∧ ∃ t' s', scansElem c 1 4 3 2 {} true 0 c.t s t' s') ∧
    (∃ s th c, Issues s th 4 c ∧ ∃ q s'', loadMem c (getS c.t 1) 1 (ioPart {} 0 1) (ioFails {} 0) s = .fault q s'') :=
  ⟨⟨_, _, _, issues (strings 1), _, _, _, _, ⟨_, _, rfl, rfl, rfl⟩, rfl, rfl⟩, ⟨_, _, _, issues (strings 1), _, _, _, _, ⟨rfl, rfl⟩, rfl, rfl⟩,
   ⟨_, _, _, issues (strings 1), _, _, _, _, ⟨_, _, _, rfl, rfl, rfl, rfl⟩, rfl, rfl⟩, ⟨_, _, _, issues (strings 1), _, _, _, rfl, rfl, rfl⟩,
   ⟨_, _, _, issues [(4, 1), (1, 0x1000000000000000)], _, _, rfl⟩⟩

theorem test_witness_gather : ∃ s th c, Issues s th 4 c ∧ ∃ t' s',
    Elements (gathElem c 4 1 4 3 1 2 {}) (getS c.t 4).toNat 0 c.t (memFaults c {} s) t' s' :=
  ⟨_, _, _, issues ((3, w2) :: strings 1), _, _, _, _, ⟨_, _, _, _, rfl, rfl, rfl, rfl⟩, rfl, rfl⟩

theorem test_witness_system :
    (∃ s th c, Issues s th 4 c ∧ ∃ p u, physCluster s (thCluster th) = some (p, u)) ∧ (∃ s th c, Issues s th 2 c) ∧
    (∃ s th c, tctx s th = some c ∧ c.k.codeLen < c.t.pc.toNat + 2) :=
  ⟨⟨_, _, _, issues [], _, _, rfl⟩, ⟨_, _, _, issues2 []⟩, ⟨masonOf { thread [] with pc := 63 }, 0, ctxOf { thread [] with pc := 63 }, rfl, by decide⟩⟩

/-! ### Vectors -/

theorem test_witness_vectors :
    (∃ s th c, Issues s th 4 c ∧ (2 : Fin 8).val < 3) ∧ (∃ s th c, Issues s th 4 c ∧ 3 ≤ (3 : Fin 8).val) ∧
    (∃ s th c, Issues s th 4 c ∧ ∃ f, vtFmt 3 = some f) ∧
    (∀ ty : Fin 8, 3 ≤ ty.val → (vtFmt ty).isSome = true) ∧
    (∃ s th c, Issues s th 4 c ∧ (15 : Fin 64).val < 512 / vtWidth 2 ∧ 512 / vtWidth 2 ≤ (16 : Fin 64).val) ∧
    (∀ ty src : Fin 8, vtWidth ty = 2 * vtWidth src → (3 : Fin 16).val % 2 ≠ 0 ∧ (2 : Fin 16).val % 2 = 0) ∧
    (∀ src : Fin 8, src.val ≤ 4 → ∃ f emax, mxFmt src.val = some (f, emax)) :=
  ⟨⟨_, _, _, issues [], by decide⟩, ⟨_, _, _, issues [], by decide⟩, ⟨_, _, _, issues [], _, rfl⟩,
   by decide, ⟨_, _, _, issues [], by decide, by decide⟩, by decide, by
     intro src h
     match src with
     | 0 => exact ⟨_, _, rfl⟩
     | 1 => exact ⟨_, _, rfl⟩
     | 2 => exact ⟨_, _, rfl⟩
     | 3 => exact ⟨_, _, rfl⟩
     | 4 => exact ⟨_, _, rfl⟩⟩

theorem test_witness_vector_memory :
    (∃ (s : State) (th : Nat) (c : TCtx) (val : Nat → Nat) (s' : State), Issues s th 4 c ∧ InTurn (fun k x y => ∃ bs, loadMem c (getS c.t 1 + BitVec.ofNat 64 (32 * k / 8)) 4 [] false x = .ok bs y ∧
      leVal bs = val k) [0, 1] (memFaults c {} s) s') ∧
    (∃ s th c s', Issues s th 4 c ∧ InTurn (fun k x y => storeMem c (getS c.t 1 + BitVec.ofNat 64 (32 * k / 8))
      (leBytes 4 (lane 32 (getV c.t 3) k)) false x = .ok () y) [0, 1] (memFaults c {} s) s') ∧
    (∃ s th c s', Issues s th 4 c ∧ (getS c.t 1).toNat % 64 = 0 ∧ InTurn (fun k x y => ∃ old, atomicMem c (getS c.t 1 + BitVec.ofNat 64 (32 * k / 8)) 4
      (fun old => some (leBytes 4 (leVal old))) x = .ok old y) [0] (memFaults c {} s) s') ∧
    (∃ s th c, Issues s th 4 c ∧ (getS c.t 1).toNat % 64 ≠ 0) ∧
    (∃ s th c s', Issues s th 4 c ∧ InTurn (fun k x y => atomicReady c (getS c.t 1 + BitVec.ofNat 64 (32 * k / 8)) 4 x = .ok () y) [0, 1]
      (memFaults c {} s) s') ∧
    (∃ s th c s', Issues s th 4 c ∧ atomicReady c (getS c.t 1) 4 (memFaults c {} s) = .wait s') ∧
    (∃ s th c q s', Issues s th 4 c ∧ atomicReady c (getS c.t 1) 4 (memFaults c {} s) = .fault q s') :=
  ⟨⟨_, _, _, fun _ => 0, _, issues [(1, w2)], _, ⟨_, rfl, rfl⟩, _, ⟨_, rfl, rfl⟩, rfl⟩,
   ⟨_, _, _, _, issues [(1, w2)], _, rfl, _, rfl, rfl⟩, ⟨_, _, _, _, issues [(1, w2)], by decide, _, ⟨_, rfl⟩, rfl⟩,
   ⟨_, _, _, issues [(1, 4)], by decide⟩, ⟨_, _, _, _, issues [(1, w2)], _, rfl, _, rfl, rfl⟩,
   ⟨repointed (thread [(1, 0x4000000000000010)]), 0, ctxOf (thread [(1, 0x4000000000000010)]), _, ⟨rfl, by simp [ctxOf, thread, kernel]⟩, rfl⟩,
   ⟨_, _, _, _, _, issues [(1, w1)], rfl⟩⟩

/-! ### Cores that fail -/

theorem test_witness_core_failures :
    (∃ s th p core c, tctx s th = some c ∧ physOf s th = some (p, core) ∧ p < 17 ∧
      (∀ e ∈ s.mason.parityFails, e.1 = p * 32 + core → e.2 + 1000000000 < now s (blkIsland (blkCluster p)))) ∧
    (∃ s th p core c, tctx s th = some c ∧ physOf s th = some (p, core) ∧
      ∃ e ∈ s.mason.parityFails, e.1 = p * 32 + core ∧ now s (blkIsland (blkCluster p)) ≤ e.2 + 1000000000) ∧
    (∃ s k, logicalCore s 0 15 = some k) ∧
    (∃ s, (unitOf s 0).active.testBit 15 = true ∧ (unitOf s 0).spare ≠ 31 ∧ ∀ x ∈ s.mason.stopping, x.1 ≠ 0) ∧
    (∃ s, (unitOf s 1).active.testBit 0 = false) ∧
    (∃ s, (0, 3) ∈ s.mason.stopping ∧ (unitOf s 0).spare ≠ 31 ∧ (unitOf s 0).active.testBit 3 = true ∧
      (unitOf s 0).active.testBit (unitOf s 0).spare = false) ∧
    (∃ s, (0, 3) ∈ s.mason.stopping ∧ (unitOf s 0).spare = 31) ∧
    (∃ s p q u v, physCluster s 0 = some (p, u) ∧ spareCluster s = some (q, v) ∧ p ≠ q) :=
  let s := masonOf (thread [])
  let m := s.mason
  ⟨⟨s, 0, _, _, _, rfl, rfl, by decide, by decide⟩, ⟨s.setMason { m with parityFails := [(0, 0)] }, 0, _, _, _, rfl, rfl, by decide⟩,
   ⟨s, _, rfl⟩, ⟨s, by decide⟩, ⟨s, by decide⟩, ⟨s.setMason { m with stopping := [(0, 3)] }, by decide⟩,
   ⟨s.setMason { m with stopping := [(0, 3)], units := [(0, { cluster with spare := 31 })] }, by decide⟩,
   ⟨s.setMason { m with units := [(0, cluster), (16, { cluster with logical := 0xFF })] }, _, _, _, _, rfl, rfl, by decide⟩⟩

end Sys2Proof.Tests
end

