-- ==== Sys2Proof/Tests/Memory.lean ====
section
/-! SUPPORT. States and packets that meet the hypotheses of the statements about custody memory, restore and shrinking (chapters 3 and 8),
  clause by clause. That a stored signature verifies rests on an uninterpreted function, so no state shows the success of RESTORE_BEGIN. -/

namespace Sys2Proof.Tests

set_option Elab.async false

open Sys2Proof Sys2Proof.Machine

/-- Two trained channels. -/
def channelled : State := tables
/-- A hashed shard map: a file of no ranges, no origins and no sources. -/
def mapFile : Bytes := layout 64 [(0, 4, 0x534D4150), (4, 2, 1), (8, 4, 9), (0xC, 4, 1), (0x1C, 4, (crc32c (leBytes 4 1)).toNat)]
def mapPiece (flags off : Nat) (b : Bytes) : IcpPkt :=
  { packet 4064 [] with params := layout 16 [(0, 4, 9), (4, 4, off), (8, 2, b.length), (0xA, 2, flags)] ++ b ++ List.replicate (4048 - b.length) 0 }
def map9 : ShardMap := { readMap mapFile with id := 9 }
/-- A committed course, and that map loaded. -/
def mapped : State :=
  (coursePart.setCourse { coursePart.course with committed := some (7, 40) }).setElastic { coursePart.elastic with loading := some map9 }
def adopting : AdoptRun := { wait := { via := via, pkt := packet 64 [(0, 4, 9)], kind := .adopt }, mapId := 9, courseId := 7, step := 40, timeoutMs := 60000, started := 0, todo := [(0, 1)] }
/-- An adoption that waits for row 1 of the table. -/
def adoptState : State :=
  let s := (badState true)
  s.setElastic { s.elastic with active := some map9, adopt := some adopting }
/-- An adoption whose row 1 is an empty row of a hashed table. -/
def adoptEmpty : State :=
  let s := hashedState.setMem { hashedState.mem with
    blocks := [{ table := 0, region := 3, index := 0, frame := some 11 }], cells := (List.range 8).map (fun i => (11 * frameBytes + 8 + i, 0xFF)) }
  s.setElastic { s.elastic with adopt := some adopting }
/-- A shard of a restore's plan: the rows of `table`, in one chunk. -/
def planned : PlanShard :=
  { origin := 2, index := 0, handle := 1, tab := 0, region := 0, format := 0, firstRow := 0, rowCount := 4, rowBytes := 16, colCount := 4, dataOffset := 512,
    need := [(0, 4)], chunks := [0], sources := [{ origin := 2, type := 1, priority := 0, id := 5 }] }
def restoring (h : PlanShard) (verify : Bool) : State :=
  tables.setElastic { tables.elastic with restore := some { id := 1, courseId := 7, step := 40, verifyOnly := verify, plan := [h],
                                                            tabs := [{ origin := 2, handle := 1, tbl := table, ti := some 0 }] } }
/-- The chunk's bytes, and a chunk list that gives their hash. -/
def chunk0 : Bytes := List.replicate 64 7
def head0 : Bytes := layout 256 [] ++ (Config.blake3 chunk0 ++ List.replicate 32 0).take 32
theorem opened (s : State) (n : Nat) (h : PlanShard) : openChunk s n h head0 0 chunk0 = .inl chunk0 := by
  have e : (head0.drop (256 + (if (le head0 6 2).testBit 0 then 48 else 32) * 0)).take 32 = (Config.blake3 chunk0 ++ List.replicate 32 0).take 32 := by
    rw [Nat.mul_zero]
    show List.take 32 (List.take 32 (Config.blake3 chunk0 ++ List.replicate 32 0)) = _
    rw [List.take_take]; rfl
  have f : (le head0 6 2).testBit 0 = false := by decide
  simp only [openChunk]
  rw [if_neg (by simp only [e]; simp), f]
  rfl
/-- A header of another course fails its check, and so does a chunk whose hash its header does not give. -/
theorem head_bad (r : List Nat) : takeHead 0 { planned with retried := r } (layout 256 [(8, 4, 6)]) (restoring { planned with retried := r } false) = none := by
  have f : (le (layout 256 [(8, 4, 6)]) 8 4 == (rrun (restoring { planned with retried := r } false)).courseId) = false := by
    show (le (layout 256 [(8, 4, 6)]) 8 4 == 7) = false
    decide
  have g : headGood (rrun (restoring { planned with retried := r } false)).courseId { planned with retried := r } (layout 256 [(8, 4, 6)]) = false := by
    simp only [headGood, f, Bool.and_false, Bool.false_and]
  exact (if_neg (show ¬ (false = true) by decide)).trans (if_neg (by rw [g]; decide))
theorem chunk_bad (s : State) (n : Nat) (h : PlanShard) : openChunk s n h [] 0 chunk0 = .inr 0x0124 := by
  unfold openChunk
  rw [if_pos]
  intro e
  have l : ((Config.blake3 chunk0 ++ List.replicate 32 0).take 32).length = 32 := by simp
  rw [e] at l
  simp at l

/-! ### A shard read for an adoption -/

def hash0 : Bytes := (Config.blake3 chunk0 ++ List.replicate 32 0).take 32
theorem hash0_length : hash0.length = 32 := by simp [hash0]
theorem digest48_length (b : Bytes) : (digest48 b).length = 48 := by simp [digest48]
/-- A sharded table whose row 1 is still to be adopted, and the one chunk of its rows as a destination returns it: header, chunk list and entry. -/
def tableA : Tbl := { table with sharded := true, domainId := 3, bad := [{ row := 1, repointing := true }] }
def headA : Bytes := layout 256 [(8, 4, 7), (0x1C, 4, 1), (0x28, 8, 4), (0x30, 4, 16), (0x36, 2, 4), (0x38, 4, 512)] ++ hash0
def entryA : Bytes := layout 56 [(4, 4, 1), (8, 4, 3), (0x18, 8, 4), (0x22, 2, 4), (0x30, 8, 576)] ++ digest48 headA
def readA : ShardRead := { origin := 2, entry := entryA, head := headA, chunks := [(0, chunk0)] }
def shardA : PlanShard := fitShard tableA (shardAt false 2 entryA)
def gotA : PlanShard := { withHead headA shardA with got := [(0, chunk0)] }
def adoptHonest : State :=
  let s := tables.setTab { tables.tab with tbls := [(0, tableA)] }
  s.setElastic { s.elastic with adopt := some adopting }
/-- A hashed table of rows of no columns, and the chunk of its keys. -/
def tableK : Tbl := { table with rows := 16, localRows := 16, dim := 0, hashed := true, sharded := true, domainId := 3, ranges := [(0, 2 ^ 32)] }
def headK : Bytes := layout 256 [(8, 4, 7), (0xE, 1, 3), (0x1C, 4, 1), (0x28, 8, 8), (0x30, 4, 8), (0x38, 4, 512)] ++ hash0
def entryK : Bytes := layout 56 [(4, 4, 1), (8, 4, 3), (0xC, 1, 3), (0x18, 8, 8), (0x30, 8, 576)] ++ digest48 headK
def readK : ShardRead := { origin := 2, entry := entryK, head := headK, chunks := [(0, chunk0)] }
def shardK : PlanShard := fitShard tableK (shardAt false 2 entryK)
def gotK : PlanShard := { withHead headK shardK with got := [(0, chunk0)] }
/-- The same with its keys all taken, or all free. -/
def adoptHashed (free : Bool) : State :=
  let s := hashedState.setTab { hashedState.tab with tbls := [(0, tableK)] }
  let s := s.setMem { s.mem with
    blocks := [{ table := 0, region := 3, index := 0, frame := some 11 }], cells := if free then (List.range 128).map (fun i => (11 * frameBytes + i, 0xFF)) else [] }
  s.setElastic { s.elastic with adopt := some adopting }

theorem read_opens (s : State) (t : Tbl) (entry front : Bytes) (g : headGood 7 (fitShard t (shardAt false 2 entry)) (front ++ hash0) = true)
    (l : front.length = 256) (f : (le (front ++ hash0) 6 2).testBit 0 = false) :
    readShard s 7 t { origin := 2, entry := entry, head := front ++ hash0, chunks := [(0, chunk0)] } =
      some { withHead (front ++ hash0) (fitShard t (shardAt false 2 entry)) with got := [(0, chunk0)] } := by
  have o : ∀ h, openChunk s 7 h (front ++ hash0) 0 chunk0 = .inl chunk0 := by
    intro h
    have e : ((front ++ hash0).drop 256).take 32 = hash0 := by
      rw [List.drop_left' l]; exact List.take_of_length_le (by rw [hash0_length])
    simp only [openChunk, f]
    exact if_neg (fun h => h e.symm)
  have g' : headGood 7 (fitShard t (shardAt (decide ((4 : Nat) = 2)) 2 entry)) (front ++ hash0) = true := g
  simp only [readShard, g']
  show (match openChunk s 7 _ (front ++ hash0) 0 chunk0 with
    | .inl p => some _
    | .inr _ => none) = _
  rw [o]
  rfl
theorem mark_of (t : Tbl) (front head : Bytes) (l : front.length = 56) : (fitShard t (shardAt false 2 (front ++ digest48 head))).mark = digest48 head := by
  show (((front ++ digest48 head).drop 0x38).take 48) = _
  rw [List.drop_left' l]; exact List.take_of_length_le (by rw [digest48_length])
theorem head_of (front : Bytes) (l : front.length = 256) : (front ++ hash0).take 288 = front ++ hash0 :=
  List.take_of_length_le (by rw [List.length_append, hash0_length, l])
theorem headA_good : headGood 7 shardA headA = true := by
  have m : shardA.mark = digest48 headA := mark_of _ _ _ (by decide)
  have a : (le headA 6 2).testBit 0 = false := by decide
  have b : le headA 0x1C 4 = 1 := by decide
  simp only [headGood, m, a, b]
  rw [if_neg (by decide)]
  show (digest48 (headA.take 288) == digest48 headA && _ && _ && _ && _ && _ && _) = true
  rw [show headA.take 288 = headA from head_of _ (by decide +kernel), beq_self_eq_true]
  decide
theorem headK_good : headGood 7 shardK headK = true := by
  have m : shardK.mark = digest48 headK := mark_of _ _ _ (by decide)
  have a : (le headK 6 2).testBit 0 = false := by decide
  have b : le headK 0x1C 4 = 1 := by decide
  simp only [headGood, m, a, b]
  rw [if_neg (by decide)]
  show (digest48 (headK.take 288) == digest48 headK && _ && _ && _ && _ && _ && _) = true
  rw [show headK.take 288 = headK from head_of _ (by decide +kernel), beq_self_eq_true]
  decide
theorem readA_good (s : State) : readShard s 7 tableA readA = some gotA := read_opens s tableA _ _ headA_good (by decide +kernel) (by decide)
theorem readK_good (s : State) : readShard s 7 tableK readK = some gotK := read_opens s tableK _ _ headK_good (by decide +kernel) (by decide)

theorem test_witness_adopted_rows :
    (∃ (s : State) (a : AdoptRun) (v : AdoptRead), s.tel.frozen = false ∧ s.elastic.adopt = some a ∧ a.todo.contains (0, 1) = true ∧
      lookD a.failed (0, 1) 0 < readsAllowed s 2 ∧ (v.shards.filterMap (readShard s a.courseId (tblD s 0))).length = v.shards.length ∧
      (tblD s 0).hashed = false ∧ rowParts (tblD s 0) (rowIdentity (tblD s 0) 1) (v.shards.filterMap (readShard s a.courseId (tblD s 0))) = [gotA] ∧
      (courseRegions (tblD s 0) [gotA]).all (fun g => rowCovered (tblD s 0) ([gotA].filter (fun h => h.region == g)) (rowIdentity (tblD s 0) 1)) = true) ∧
    (∃ (s : State) (a : AdoptRun) (v : AdoptRead), s.tel.frozen = false ∧ s.elastic.adopt = some a ∧ a.todo.contains (0, 1) = true ∧
      (v.shards.filterMap (readShard s a.courseId (tblD s 0))).length = v.shards.length ∧
      (courseRegions (tblD s 0) []).all (fun g => rowCovered (tblD s 0) [] (rowIdentity (tblD s 0) 1)) = false) ∧
    (∀ free : Bool, ∃ (s : State) (a : AdoptRun) (v : AdoptRead), s.tel.frozen = false ∧ s.elastic.adopt = some a ∧ a.todo.contains (0, 1) = true ∧
      (v.shards.filterMap (readShard s a.courseId (tblD s 0))).length = v.shards.length ∧ (tblD s 0).hashed = true ∧
      rowParts (tblD s 0) v.row (v.shards.filterMap (readShard s a.courseId (tblD s 0))) = [gotK] ∧
      (courseRegions (tblD s 0) [gotK]).all (fun g => rowCovered (tblD s 0) ([gotK].filter (fun h => h.region == g)) v.row) = true ∧
      leVal (partBytes gotK v.row) ≠ emptyKey ∧ keyArray (tblD s 0) (leVal (partBytes gotK v.row)) ≠ none ∧
      (freeSlot s 0 (adoptRoom (tblD s 0)) (leVal (partBytes gotK v.row))).isSome = free) ∧
    (∃ (s : State) (a : AdoptRun) (v : AdoptRead), s.tel.frozen = false ∧ s.elastic.adopt = some a ∧ a.todo.contains (0, 1) = true ∧
      v.shards = [] ∧ (tblD s 0).hashed = true ∧
      (courseRegions (tblD s 0) []).all (fun g => rowCovered (tblD s 0) [] v.row) = true) ∧
    (∃ (s : State) (a : AdoptRun) (v : AdoptRead), s.tel.frozen = false ∧ s.elastic.adopt = some a ∧ a.todo.contains (0, 1) = true ∧
      (v.shards.filterMap (readShard s a.courseId (tblD s 0))).length < v.shards.length) ∧
    (∃ (s : State) (a : AdoptRun), s.tel.frozen = false ∧ s.elastic.adopt = some a ∧ a.todo.contains (0, 1) = true ∧ readsAllowed s 2 ≤ lookD a.failed (0, 1) 0) := by
  have eA : ∀ s, [readA].filterMap (readShard s 7 tableA) = [gotA] := fun s => by simp [readA_good]
  have eK : ∀ s, [readK].filterMap (readShard s 7 tableK) = [gotK] := fun s => by simp [readK_good]
  refine ⟨⟨adoptHonest, adopting, { shards := [readA] }, by decide, by decide, by decide, by decide, ?_, by decide, ?_, by decide⟩,
    ⟨adoptState, adopting, { shards := [] }, by decide, by decide, by decide, by decide, by decide⟩, ?_,
    ⟨adoptHashed true, adopting, { shards := [] }, by decide, by decide, by decide, rfl, by decide, by decide⟩,
    ⟨adoptState, adopting, { shards := [{ origin := 2, entry := [], head := layout 256 [(8, 4, 6)], chunks := [] }] }, by decide, by decide, by decide, ?_⟩,
    ⟨adoptState.setElastic { adoptState.elastic with adopt := some { adopting with failed := [((0, 1), 2)] } }, { adopting with failed := [((0, 1), 2)] },
      by decide, by decide, by decide, by decide⟩⟩
  · show ([readA].filterMap (readShard adoptHonest 7 tableA)).length = _
    rw [eA]; rfl
  · show rowParts tableA 1 ([readA].filterMap (readShard adoptHonest 7 tableA)) = _
    rw [eA]; rfl
  · intro free
    refine ⟨adoptHashed free, adopting, { shards := [readK], row := 1 }, by cases free <;> decide, by cases free <;> rfl, by decide, ?_, by cases free <;> decide, ?_, by cases free <;> decide +kernel,
      by decide +kernel, by cases free <;> decide +kernel, by cases free <;> decide +kernel⟩
    · show ([readK].filterMap (readShard (adoptHashed free) 7 tableK)).length = _
      rw [eK]; rfl
    · show rowParts tableK 1 ([readK].filterMap (readShard (adoptHashed free) 7 tableK)) = _
      rw [eK]; rfl
  · have f : headGood 7 (fitShard (tblD adoptState 0) (shardAt false 2 [])) (layout 256 [(8, 4, 6)]) = false := by
      have f : (le (layout 256 [(8, 4, 6)]) 8 4 == 7) = false := by decide
      simp only [headGood, f, Bool.and_false, Bool.false_and]
    show ([({ origin := 2, entry := [], head := layout 256 [(8, 4, 6)], chunks := [] } : ShardRead)].filterMap (readShard adoptState 7 (tblD adoptState 0))).length < 1
    have e : readShard adoptState 7 (tblD adoptState 0) { origin := 2, entry := [], head := layout 256 [(8, 4, 6)], chunks := [] } = none := by
      unfold readShard
      exact if_pos (by show (!headGood 7 (fitShard (tblD adoptState 0) (shardAt false 2 [])) (layout 256 [(8, 4, 6)])) = true; rw [f]; rfl)
    simp [e]

theorem test_witness_MemoryChannelsRetrainAndFence :
    (∃ (s : State), s.mem.channels.contains (16 * 1 + 5) = true ∧ has s.mem.fenced (16 * 1 + 5) = false ∧ 3 < cell s (blkMc 1) 0x10C % 16 ∧
      cell s (blkMc 1) 0x10C % 16 ≤ 4) ∧
    (∃ (s : State), s.mem.channels.contains (16 * 1 + 5) = true ∧ has s.mem.fenced (16 * 1 + 5) = false ∧ cell s (blkMc 1) 0x10C % 16 ≤ 15 ∧
      8 < ((lookD s.mem.retrains (16 * 1 + 5) []).filter (fun y => decide (now s 0x21 < y + 1000000000))).length + 1) ∧
    (∃ (s : State), s.mem.retraining.contains (16 * 1 + 5) = true ∧ s.mem.retraining.contains (16 * 0 + 0) = false) ∧
    (∃ (s : State), s.tel.frozen = false ∧ (blkFind s 0 0 0).isSome = true ∧ (recoverFrame .auto s).isSome = true) ∧
    (∃ (s : State), s.tel.frozen = false ∧ isHotFrame 999 = true ∧ hotPopulated s (999 * 65536 / 65536) = true ∧ retired s 999 = false ∧
      (cell s (blkMc (frameChan s 999 / 16)) 0x114).testBit 31 = true ∧ channelHeld s (999 * 65536) = false) ∧
    (∃ (s : State), channelHeld s (999 * 65536) = true) ∧
    (∃ (s : State), s.tel.frozen = false ∧ (cell s blkTable 0x10000).testBit 31 = false) ∧
    (∃ (s : State), s.tel.frozen = false ∧ (cell s blkTable 0x10000).testBit 31 = true ∧ isolated s blkTable = false ∧
      (epochMoves (s.setMem { s.mem with moves := 0 })).1 = (0, 0, 0)) ∧
    (∃ (s : State), s.tel.frozen = false ∧ (cell s blkTable 0x10000).testBit 31 = true ∧ isolated s blkTable = false ∧
      (epochMoves (s.setMem { s.mem with moves := 0 })).1 ≠ (0, 0, 0)) ∧
    (∃ (s : State), s.tel.frozen = false ∧ blkFind s 0 0 0 = some { block with moving := some 11 } ∧ block.swapFor ≠ some (0, 0, 0)) ∧
    (∃ (s : State), (60 : Nat) < 61 ∧ (look s.mem.crossFails 3).isSome = true ∧ s.mem.crossSpared.contains 3 = false) ∧
    (∃ (s : State), (settle (stoSettle s)).mem.crossSpared.contains 3 = true) ∧
    (∃ (s : State), s.mem.sramDue.contains (sramCode 60 2 5 true) = true ∧ (s.mem.sramUsed < Config.sramSpares ∨ Config.sramSpares = 0)) ∧
    (∃ (s : State), s.mem.sramDue.contains (sramCode 60 2 5 true) = false) :=
  ⟨⟨channelled, by decide, by decide, by decide, by decide⟩,
   ⟨channelled.setMem { channelled.mem with retrains := [(21, List.replicate 8 0)] }, by decide, by decide, by decide, by decide⟩,
   ⟨channelled.setMem { channelled.mem with retraining := [21] }, by decide, by decide⟩,
   ⟨channelled.setMem { channelled.mem with blocks := [{ block with frame := none }] }, by decide, by decide, by decide⟩,
   ⟨channelled, by decide, by decide, by decide, by decide, by decide, by decide⟩,
   ⟨channelled.setMem { channelled.mem with retraining := [0, 21] }, by decide⟩,
   ⟨setCell blkTable 0x10000 100 channelled, by decide, by decide⟩,
   ⟨channelled, by decide, by decide, by decide, by decide⟩,
   ⟨channelled.setMem { channelled.mem with cxl := [{ links := [4], first := 0, count := 100 }], coldTotal := 100, hotTotal := 20, hotNext := 20, extents := [{ first := 0, count := 10, use := .ring }], blocks := (List.range 9).map (fun i => { block with index := i, frame := some (10 + i), heat := i }) }, by decide, by decide, by decide, by decide⟩,
   ⟨channelled.setMem { channelled.mem with blocks := [{ block with moving := some 11 }] }, by decide, by decide, by decide⟩,
   ⟨channelled.setMem { channelled.mem with crossFails := [(3, 0)] }, by decide, by decide, by decide⟩,
   ⟨up.setMem { up.mem with crossSpared := [3] }, by decide⟩,
   ⟨up.setMem { up.mem with sramDue := [sramCode 60 2 5 true] }, by decide, by
     rcases Nat.eq_zero_or_pos Config.sramSpares with h | h
     · exact .inr h
     · exact .inl h⟩,
   ⟨up, by decide⟩⟩

theorem test_witness_RestoreAndAdoptionCommands :
    (∃ (via : Via) (pkt : IcpPkt) (s s0 : State) (c : Ctx), Starts 0x0311 via pkt s c s0 ∧ c.p 0 4 ≠ 0 ∧ c.p 4 4 = 0 ∧ c.p 4 4 + c.p 8 2 ≤ 2 ^ 20 ∧
      c.p 8 2 ≤ 4048 ∧ 16 + c.p 8 2 ≤ c.params.length ∧ (c.p 0xA 2).testBit 0 = false) ∧
    (∃ (via : Via) (pkt : IcpPkt) (s s0 : State) (c : Ctx), Starts 0x0311 via pkt s c s0 ∧ c.p 0 4 ≠ 0 ∧ c.p 4 4 = 32 ∧ c.p 8 2 ≤ 4048 ∧
      (c.p 0xA 2).testBit 0 = true ∧ firstBad (mapChecks s0 mapFile) = none) ∧
    (∃ (via : Via) (pkt : IcpPkt) (s s0 : State) (c : Ctx), Starts 0x0311 via pkt s c s0 ∧ c.p 0 4 ≠ 0 ∧ c.p 4 4 = 0 ∧
      (c.p 0xA 2).testBit 0 = true ∧ firstBad (mapChecks s0 (mapFile.take 32)) = some (stBadAddress, 0x0127)) ∧
    (∃ (via : Via) (pkt : IcpPkt) (s s0 : State) (c : Ctx), Starts 0x0310 via pkt s c s0 ∧ firstBad (beginChecks c s0) = none ∧
      ledgerBest pkt.reads.ledgers = none) ∧
    (∃ (via : Via) (pkt : IcpPkt) (s s0 : State) (c : Ctx), Starts 0x0312 via pkt s c s0 ∧ c.p 0 4 = (rrun s0).id) ∧
    (∃ (via : Via) (pkt : IcpPkt) (s s0 : State) (c : Ctx), Starts 0x0313 via pkt s c s0 ∧ (c.p 6 2).testBit 0 = false ∧
      mapById s0 (c.p 0 4) = some map9 ∧ some (c.p 8 4) = s0.course.committed.map (·.1) ∧ movesLive s0 map9 (lostList c) = false ∧
        s0.course.committed.isSome = true ∧ (adoptAll map9 (oldTodo s0) (supersede s0)).isSome = true ∧
          (adoptAll map9 (oldTodo s0) (supersede s0)).any (fun a => a.1.isEmpty) = true) ∧
    (∃ (via : Via) (pkt : IcpPkt) (s s0 : State) (c : Ctx), Starts 0x0313 via pkt s c s0 ∧ (c.p 6 2).testBit 0 = false ∧
      mapById s0 (c.p 0 4) = some map9 ∧ some (c.p 8 4) = s0.course.committed.map (·.1) ∧ movesLive s0 map9 (lostList c) = false ∧
        s0.course.committed.isSome = true ∧ (adoptAll map9 (oldTodo s0) (supersede s0)).any (fun a => !a.1.isEmpty) = true) ∧
    (∃ (via : Via) (pkt : IcpPkt) (s s0 : State) (c : Ctx), Starts 0x0313 via pkt s c s0 ∧ (c.p 6 2).testBit 0 = true ∧
      s0.elastic.active.map (·.id) = some (c.p 0 4) ∧ s0.elastic.adopt = none) ∧
    (∃ (via : Via) (pkt : IcpPkt) (s s0 : State) (c : Ctx), Starts 0x0313 via pkt s c s0 ∧ (c.p 6 2).testBit 0 = true ∧
      s0.elastic.active.map (·.id) = some (c.p 0 4) ∧ s0.elastic.adopt.isSome = true) :=
  ⟨⟨via, mapPiece 0 0 (mapFile.take 32), coursePart, _, _, starts_of (by decide +kernel), by decide, by decide, by decide, by decide,
    by decide +kernel, by decide⟩,
   ⟨via, mapPiece 1 32 (mapFile.drop 32), coursePart.setElastic { coursePart.elastic with loading := some { id := 9, bytes := mapFile.take 32 } },
     _, _, starts_of (by decide +kernel), by decide, by decide, by decide, by decide, by decide +kernel⟩,
   ⟨via, mapPiece 1 0 (mapFile.take 32), coursePart, _, _, starts_of (by decide +kernel), by decide, by decide, by decide, by decide +kernel⟩,
   ⟨via, packet 64 [(0x18, 4, 0)], coursePart, _, _, starts_of (by decide +kernel), by decide, by decide⟩,
   ⟨via, packet 8 [(0, 4, 1)], withSession (restoring planned false), _, _, starts_of (by decide +kernel), by decide⟩,
   ⟨via, withByte 6 (putBit 0 false) (packet 64 [(0, 4, 9), (8, 4, 7)]), mapped, _, _, starts_of (by decide +kernel), by decide,
     by decide +kernel, by decide, by decide, by decide, by decide, by decide⟩,
   ⟨via, withByte 6 (putBit 0 false) (packet 64 [(0, 4, 9), (8, 4, 7)]), mapped.setElastic { mapped.elastic with adopt := some adopting }, _, _,
     starts_of (by decide +kernel), by decide, by decide +kernel, by decide, by decide, by decide, by decide⟩,
   ⟨via, withByte 6 (putBit 0 true) (packet 64 [(0, 4, 9)]), mapped.setElastic { mapped.elastic with active := some map9 }, _, _,
     starts_of (by decide +kernel), by decide, by decide, by decide⟩,
   ⟨via, withByte 6 (putBit 0 true) (packet 64 [(0, 4, 9)]), mapped.setElastic { mapped.elastic with active := some map9, adopt := some adopting }, _, _, starts_of (by decide +kernel), by decide, by decide, by decide⟩⟩

theorem test_witness_RestoredRowsAndLostMembers :
    (∃ (s : State) (h : PlanShard) (y : State), s.tel.frozen = false ∧ (rrun s).plan[0]? = some h ∧ (rrun s).state = 2 ∧ s.icp.paused = false ∧ h.keyed = false ∧
      h.chunks.contains 0 = true ∧ takeHead 0 h [] s = some y ∧ (rrun y).plan[0]? = some h ∧
        openChunk y (rrun y).courseId h (h.head.getD []) 0 chunk0 = .inl chunk0) ∧
    (∃ (s : State) (h : PlanShard) (y : State), s.tel.frozen = false ∧ (rrun s).plan[0]? = some h ∧ (rrun s).state = 2 ∧ s.icp.paused = false ∧ h.keyed = false ∧
      h.chunks.contains 0 = true ∧ takeHead 0 h [] s = some y ∧ (rrun y).plan[0]? = some h ∧
        openChunk y (rrun y).courseId h (h.head.getD []) 0 chunk0 = .inr 0x0124 ∧ h.retried.contains (0 + 1) = true ∧ h.sources.length ≤ lookD h.passed (0 + 1) 0 + 1) ∧
    (∀ (r : List Nat), ∃ (s : State) (h : PlanShard), s.tel.frozen = false ∧ (rrun s).plan[0]? = some h ∧ (rrun s).state = 2 ∧ s.icp.paused = false ∧ h.keyed = false ∧
      h.chunks.contains 0 = true ∧ takeHead 0 h (layout 256 [(8, 4, 6)]) s = none ∧ h.retried = r ∧ h.sources.length ≤ lookD h.passed 0 0 + 1) ∧
    (∃ (s : State) (h : PlanShard), s.tel.frozen = false ∧ (rrun s).plan[0]? = some h ∧ (rrun s).state = 2 ∧ h.placed = false ∧
      h.sources.length = 2) ∧
    (∃ (s : State), s.tel.frozen = false ∧ (rrun s).plan[0]? = some planned ∧ (rrun s).state = 2 ∧ planned.placed = false ∧
      planned.sources.length ≤ 1) ∧
    (∃ (s : State), s.tel.frozen = false ∧ (rrun s).state = 2 ∧ (∀ h ∈ (rrun s).plan, h.placed = true) ∧
      (rrun s).tabs.zipIdx.all (fun x => tabCovered (rrun s) x.2 x.1) = true ∧ (rrun s).verifyOnly = false) ∧
    (∃ (s : State), s.tel.frozen = false ∧ (rrun s).state = 2 ∧ (∀ h ∈ (rrun s).plan, h.placed = true) ∧
      (rrun s).tabs.zipIdx.all (fun x => tabCovered (rrun s) x.2 x.1) = true ∧ (rrun s).verifyOnly = true) ∧
    (∃ (s : State), s.tel.frozen = false ∧ (rrun s).state = 2 ∧ (∀ h ∈ (rrun s).plan, h.placed = true) ∧
      (rrun s).tabs.zipIdx.all (fun x => tabCovered (rrun s) x.2 x.1) = false) ∧
    (∃ (s : State), s.tel.frozen = false ∧ (rrun s).state ≠ 2 ∧ s.elastic.adopt = none ∧ hasTree s = false) ∧
    (∃ (s : State) (a : AdoptRun), s.tel.frozen = false ∧ s.elastic.adopt = some a ∧ a.todo.contains (0, 1) = true ∧ (tblD s 0).hashed = false) ∧
    (∃ (s : State) (a : AdoptRun), s.tel.frozen = false ∧ s.elastic.adopt = some a ∧ a.todo.contains (0, 1) = true ∧ look s.tab.tbls 0 ≠ none ∧
      (tblD s 0).hashed = true ∧ keyAt s 0 (tblD s 0) 1 = emptyKey ∧ keyKnown (tblD s 0) 1 = true) ∧
    (∃ (s : State), s.tel.frozen = false ∧ hasTree s = true ∧ s.elastic.lost.contains 3 = false ∧ 3 ≠ fenceParent s ∧ 3 ≠ deviceIndex s ∧
      courseLive s = true) ∧
    (∃ (s : State), s.tel.frozen = false ∧ hasTree s = true ∧ s.elastic.lost.contains 3 = false ∧ 3 = fenceParent s ∧ fenceRoot s = false) :=
  ⟨⟨restoring { planned with head := some head0 } false, { planned with head := some head0 }, restoring { planned with head := some head0 } false,
    by decide, rfl, by decide, by decide, by decide, by decide, rfl, rfl, opened _ _ _⟩,
   ⟨restoring { planned with head := some [], retried := [1] } false, { planned with head := some [], retried := [1] },
     restoring { planned with head := some [], retried := [1] } false, by decide, by decide, by decide, by decide, by decide, by decide, rfl, rfl,
       chunk_bad _ _ _, by decide, by decide⟩,
   fun r => ⟨restoring { planned with retried := r } false, { planned with retried := r }, rfl, rfl, rfl, rfl, rfl, rfl, head_bad r, rfl, Nat.le_refl 1⟩,
   ⟨restoring { planned with sources := planned.sources ++ planned.sources } false,
     { planned with sources := planned.sources ++ planned.sources }, by decide, by decide, by decide, by decide, by decide⟩,
   ⟨restoring planned false, by decide, by decide, by decide, by decide, by decide⟩,
   ⟨restoring { planned with placed := true } false, by decide, by decide, by decide, by decide +kernel, by decide⟩,
   ⟨restoring { planned with placed := true } true, by decide, by decide, by decide, by decide +kernel, by decide⟩,
   ⟨restoring { planned with placed := true, colCount := 3 } false, by decide, by decide, by decide, by decide +kernel⟩,
   ⟨tables, by decide, by decide, by decide, by decide⟩,
   ⟨adoptState, adopting, by decide, by decide, by decide, by decide⟩,
   ⟨adoptEmpty, adopting, by decide, by decide, by decide, by decide, by decide, by decide +kernel, by decide⟩,
   ⟨rootOf (openCourse course8), by decide, by decide, by decide, by decide, by decide, by decide⟩,
   ⟨member (openCourse course8), by decide, by decide, by decide, by decide, by decide⟩⟩

end Sys2Proof.Tests
end

