-- ==== Sys2Proof/Tests/Packet.lean ====
section
/-! SUPPORT. States, packets and frames that meet the hypotheses of the statements about the packet path (chapter 11), clause by clause. -/

namespace Sys2Proof.Tests

set_option Elab.async false

open Sys2Proof Sys2Proof.Machine

def pkt0 (k n : Nat) (fields : List (Nat × Nat × Nat)) : IcpPkt := withByte 0 (fun _ => k) (packet n fields)
def pkt1 (k op n : Nat) (fields : List (Nat × Nat × Nat)) : IcpPkt := withByte 1 (fun _ => op) (withByte 0 (fun _ => k) (packet n fields))
def pktOp (op n : Nat) (fields : List (Nat × Nat × Nat)) : IcpPkt := withByte 1 (fun _ => op) (packet n fields)
/-- NIC queue pair 0 of PF2 of host port 0. -/
def nqp : NicQp := { gen := 1, port := 0, tc := 0, tx := 65536, rx := 131072, cq := 196608, txLog2 := 4, rxLog2 := 4, cqLog2 := 5, vector := 0xFFFF, page := 1 }
def nicPart (q : NicQp) : State :=
  let s := withSession up
  (s.setPp { s.pp with qps := [(2 * 65536, q)] }).setPages [(2, 1)]
def nic : State := nicPart nqp
/-- A part whose sub-port 0 is as given. -/
def withSub (x : SubPort) : State :=
  let s := withSession up
  s.setPp { s.pp with en := [(0, { subs := [x, {}, {}, {}] })] }
def linked : SubPort := { up := true, seen := true, speed := 800, laneMask := 15 }
def egress : EgFrame := { src := .forward, bytes := List.replicate 60 0, len := 64 }
def withPolicer (svc : Nat) (q : Policer) : State :=
  let s := withSub { linked with svc := svc }
  s.setPp { s.pp with policers := [(3, q)] }
def meta3 (len colour : Nat) : Meta := { sub := 0, len := len, colour := colour, policer := 3 }
def tx0 : TxDesc := { addr := 0, len := 60 }

theorem test_witness_PortsAndPacketObjectsAreConfigured :
    (∃ (via : Via) (pkt : IcpPkt) (s s0 : State) (c : Ctx), let x := askedBlock c (pbOf s0 19); Starts 0x0500 via pkt s c s0 ∧ c.p 0 1 = 0 ∧
      c.p 1 1 = 19 ∧ x.role ≤ 4 ∧ bifurOk x.role x.bifur = true ∧ x.bifur ≤ 4 ∧ x.hostPort ≤ 1 ∧ x.role ≠ 1 ∧ x.role ≠ 2 ∧ blockInUse s0 19 = false) ∧
    (∃ (via : Via) (pkt : IcpPkt) (s s0 : State) (c : Ctx), let x := askedBlock c (pbOf s0 1); Starts 0x0500 via pkt s c s0 ∧ c.p 0 1 = 0 ∧
      x.role = 1 ∧ bifurOk x.role x.bifur = true ∧ ((List.range 20).filter (fun k => k != 1 && (pbOf s0 k).role == 1)).length < 2 ∧
        blockInUse s0 1 = false) ∧
    (∃ (via : Via) (pkt : IcpPkt) (s s0 : State) (c : Ctx), Starts 0x0500 via pkt s c s0 ∧ c.p 0 1 = 1 ∧ c.p 1 1 ≤ 7 ∧
      isolated s0 (blkEn (c.p 1 1)) = false ∧ c.p 2 1 ≤ 3 ∧ c.p 3 1 ≤ 1 ∧ lanePerm (c.p 7 1) = true ∧
        (removedSubs s0 (c.p 1 1) (c.p 2 1)).any (subBound s0) = false) ∧
    (∃ (via : Via) (pkt : IcpPkt) (s s0 : State) (c : Ctx), Starts 0x0501 via pkt s c s0 ∧ c.p 0 1 = 0 ∧ c.p 1 1 ≤ 19) ∧
    (∃ (via : Via) (pkt : IcpPkt) (s s0 : State) (c : Ctx), Starts 0x0501 via pkt s c s0 ∧ c.p 0 1 = 1 ∧ c.p 1 1 ≤ 7) ∧
    (∃ (via : Via) (pkt : IcpPkt) (s s0 : State) (c : Ctx), let fid := c.p 2 2; Starts 0x0500 via pkt s c s0 ∧ c.p 0 1 = 2 ∧ c.p 1 1 = 0 ∧
      isolated s0 blkPacket = false ∧ nicFunction s0 fid = true ∧ subExists s0 (c.p 6 1) = true ∧ c.p 7 1 ≤ 7 ∧ c.p 8 8 % 4096 = 0 ∧
        c.p 0x10 8 % 4096 = 0 ∧ c.p 0x18 8 % 4096 = 0 ∧ c.p 0x24 2 < vectorCount fid ∧
          (s0.pp.qps.filter (fun e => e.1 / 65536 == fid)).length + (fnD s0 fid).reclaim.nicQps < (fnD s0 fid).allot.nicQps ∧
            lowest 16384 (fun i => !has s0.pp.qps (qpKey fid i)) = some 0 ∧ freePage s0 fid = some 1) ∧
    (∃ (via : Via) (pkt : IcpPkt) (s s0 : State) (c : Ctx), Starts 0x0500 via pkt s c s0 ∧ c.p 0 1 = 2 ∧ c.p 1 1 = 1 ∧
      nicFunction s0 (c.p 2 2) = true ∧ has s0.pp.qps (qpKey (c.p 2 2) (c.p 4 2)) = true) ∧
    (∃ (via : Via) (pkt : IcpPkt) (s s0 : State) (c : Ctx), Starts 0x0502 via pkt s c s0 ∧ isStaged s0 1 (c.p 0 2) = false ∧ c.p 0 2 ≤ 255 ∧
      c.p 2 1 = 0xFF ∧ c.p 7 1 ≤ 1) ∧
    (∃ (via : Via) (pkt : IcpPkt) (s s0 : State) (c : Ctx), Starts 0x0503 via pkt s c s0 ∧ c.p 1 1 = 0 ∧ c.p 0 1 ≤ 7 ∧
      32 + 128 * min 31 (c.p 2 2) ≤ c.pkt.paramLen ∧ stagedHit 2 c s0 = false ∧ (clsRecords 0 0 c.params 1 0 s0).2.2 = some (stNoResource,
        dtNone)) ∧
    (∃ (via : Via) (pkt : IcpPkt) (s s0 : State) (c : Ctx), Starts 0x0503 via pkt s c s0 ∧ c.p 1 1 = 1 ∧ c.p 0 1 ≤ 7 ∧
      32 + 128 * min 31 (c.p 2 2) ≤ c.pkt.paramLen ∧ stagedHit 2 c s0 = false ∧ (clsRecords 1 0 c.params 1 0 s0).2.2 = none) ∧
    (∃ (via : Via) (pkt : IcpPkt) (s s0 : State) (c : Ctx), Starts 0x0503 via pkt s c s0 ∧ c.p 1 1 = 3 ∧ c.p 0 1 ≤ 7 ∧ 32 ≤ c.pkt.paramLen ∧
      stagedHit 2 c s0 = false ∧ firstBad (actionBad s0 (c.p 0 1) 8 (actionAt c.params 8)) = none) ∧
    (∃ (via : Via) (pkt : IcpPkt) (s s0 : State) (c : Ctx), Starts 0x0504 via pkt s c s0 ∧ c.p 1 1 = 0 ∧ c.p 0 1 ≤ 63 ∧
      ownsProfile c s0 (c.p 0 1) = true ∧ c.iss.priv = true ∧ 16 + 2 * min 2024 (c.p 4 2) ≤ c.pkt.paramLen ∧
        c.p 2 2 + min 2024 (c.p 4 2) ≤ 2 ^ (profileOf s0 (c.p 0 1)).sizeLog2 ∧ isStaged s0 3 (c.p 0 1) = false) ∧
    (∃ (via : Via) (pkt : IcpPkt) (s s0 : State) (c : Ctx), Starts 0x0504 via pkt s c s0 ∧ c.p 1 1 = 1 ∧ c.iss.priv = true ∧ c.p 0 1 ≤ 63 ∧
      104 ≤ c.pkt.paramLen ∧ (∀ f ∈ (List.range (min 4 (c.p 0x13 1))).map (fun i => fieldAt c.params (0x14 + 8 * i)), f.source ≤ 1 ∧ f.inst ≤ 1) ∧
        isStaged s0 3 (c.p 0 1) = false) ∧
    (∃ (via : Via) (pkt : IcpPkt) (s s0 : State) (c : Ctx), Starts 0x0505 via pkt s c s0 ∧ isStaged s0 4 (stageKey 4 c) = false ∧ c.p 0 1 = 0 ∧
      c.iss.priv = true ∧ c.p 1 1 ≤ 7 ∧ subExists s0 (c.p 2 1) = true) ∧
    (∃ (via : Via) (pkt : IcpPkt) (s s0 : State) (c : Ctx), let k := shaperKey c; let o := shaperOwner s0 k; Starts 0x0505 via pkt s c s0 ∧
      isStaged s0 4 (stageKey 4 c) = false ∧ c.p 0 1 = 1 ∧ has s0.pp.qps k.2 = true ∧ mayName c o = true ∧ (shaperOf s0 k).took = none ∧
        (c.p 3 1).testBit 0 = true ∧ limitersUsed s0 o < (fnD s0 o).allot.limiters) ∧
    (∃ (via : Via) (pkt : IcpPkt) (s s0 : State) (c : Ctx), Starts 0x0506 via pkt s c s0 ∧ isStaged s0 5 (c.p 0 2) = false ∧ 1 ≤ c.p 0 2 ∧
      c.p 0 2 ≤ 4095 ∧ c.p 2 1 ≤ 1) ∧
    (∃ (via : Via) (pkt : IcpPkt) (s s0 : State) (c : Ctx), Starts 0x0507 via pkt s c s0 ∧ isolated s0 (blkEn (c.p 0 1 / 4)) = false ∧
      subExists s0 (c.p 0 1) = true ∧ 16 + 16 * min 64 (c.p 1 1) ≤ c.pkt.paramLen ∧ isStaged s0 6 (c.p 0 1) = false) ∧
    (∃ (via : Via) (pkt : IcpPkt) (s s0 : State) (c : Ctx), Starts 0x0508 via pkt s c s0 ∧ c.p 0 1 ≤ 63 ∧ c.p 0x10 8 % 64 = 0 ∧ c.p 2 1 = 0 ∧
      c.iss.priv = true ∧ subExists s0 (c.p 3 1) = true ∧ c.p 6 2 + clampN 1 8 (c.p 8 2) ≤ 8) ∧
    (∃ (via : Via) (pkt : IcpPkt) (s s0 : State) (c : Ctx), Starts 0x0508 via pkt s c s0 ∧ c.p 0 1 ≤ 63 ∧ c.p 0x10 8 % 64 = 0 ∧ c.p 2 1 = 1 ∧
      nicFunction s0 (c.p 4 2) = true ∧ mayName c (c.p 4 2) = true ∧ has s0.pp.qps (qpKey (c.p 4 2) (c.p 6 2)) = true) :=
  ⟨⟨via, pkt0 0 64 [(1, 1, 19), (2, 1, 4), (3, 1, 3), (4, 1, 1), (6, 1, 6)], withSession up, _, _, starts_of (by decide +kernel), by decide,
    by decide, by decide, by decide, by decide, by decide, by decide, by decide, by decide⟩,
   ⟨via, pkt0 0 64 [(1, 1, 1), (2, 1, 1), (3, 1, 4), (4, 1, 1), (6, 1, 6)], withSession up, _, _, starts_of (by decide +kernel), by decide,
     by decide, by decide, by decide, by decide⟩,
   ⟨via, pkt0 1 64 [(1, 1, 7), (2, 1, 3), (3, 1, 1), (4, 2, 100), (7, 1, 0x1B), (8, 4, 70000), (0xC, 4, 0)], withSession up, _, _,
     starts_of (by decide +kernel), by decide, by decide, by decide, by decide, by decide, by decide, by decide⟩,
   ⟨via, pkt0 0 8 [(1, 1, 0)], withSession up, _, _, starts_of (by decide +kernel), by decide, by decide⟩,
   ⟨via, pkt0 1 8 [(1, 1, 7)], withSession up, _, _, starts_of (by decide +kernel), by decide, by decide⟩,
   ⟨via, pkt1 2 0 64 [(2, 2, 2), (8, 8, 4096), (0x10, 8, 8192), (0x18, 8, 12288), (0x20, 1, 15), (0x21, 1, 3), (0x22, 1, 1), (0x24, 2, 2047)],
     withSession up, _, _, starts_of (by decide +kernel), by decide, by decide, by decide, by decide, by decide, by decide, by decide, by decide,
       by decide, by decide, by decide⟩,
   ⟨via, pkt1 2 1 64 [(2, 2, 2)], nic, _, _, starts_of (by decide +kernel), by decide, by decide, by decide, by decide⟩,
   ⟨via, packet 128 [(0, 2, 255), (2, 1, 0xFF), (6, 1, 64), (7, 1, 1)], withSession up, _, _, starts_of (by decide +kernel), by decide, by decide,
     by decide, by decide⟩,
   ⟨via, pktOp 0 160 [(0, 1, 0), (2, 2, 1), (0x20, 1, 0x77), (0x21, 1, 0x88)], withSession up, _, _, starts_of (by decide +kernel), by decide,
     by decide, by decide, by decide, by decide +kernel⟩,
   ⟨via, pktOp 1 160 [(0, 1, 0), (2, 2, 1), (0x20, 1, 0x77)], withSession up, _, _, starts_of (by decide +kernel), by decide, by decide,
     by decide, by decide, by decide +kernel⟩,
   ⟨via, pktOp 3 32 [(0, 1, 7), (8, 1, 1), (9, 1, 0)], withSession up, _, _, starts_of (by decide +kernel), by decide, by decide, by decide,
     by decide, by decide⟩,
   ⟨via, pktOp 0 24 [(0, 1, 0), (2, 2, 4094), (4, 2, 2), (16, 2, 7), (18, 2, 8)], withSession up, _, _, starts_of (by decide +kernel), by decide,
     by decide, by decide, by decide, by decide, by decide, by decide⟩,
   ⟨via, pktOp 1 104 [(0, 1, 63), (0x10, 2, 5000), (0x12, 1, 13), (0x13, 1, 1), (0x14, 1, 1)], withSession up, _, _,
     starts_of (by decide +kernel), by decide, by decide, by decide, by decide, by decide +kernel, by decide⟩,
   ⟨via, packet 32 [(0, 1, 0), (1, 1, 7), (2, 1, 0), (3, 1, 1), (8, 4, 900000), (0xC, 4, 1)], withSession up, _, _, starts_of (by decide +kernel),
     by decide, by decide⟩,
   ⟨via, packet 32 [(0, 1, 1), (3, 1, 1), (4, 4, 131072), (8, 4, 1), (0xC, 4, 1), (0x18, 2, 2)], nic, _, _, starts_of (by decide +kernel),
     by decide, by decide, by decide⟩,
   ⟨via, packet 32 [(0, 2, 4095), (2, 1, 1), (3, 1, 1), (4, 4, 100), (0xC, 4, 1)], withSession up, _, _, starts_of (by decide +kernel), by decide,
     by decide, by decide, by decide⟩,
   ⟨via, packet 48 [(0, 1, 28), (1, 1, 2), (8, 8, 500), (16, 4, 1), (20, 1, 1), (32, 4, 2000), (36, 1, 0xFE)], withSession up, _, _,
     starts_of (by decide +kernel), by decide, by decide, by decide, by decide⟩,
   ⟨via, packet 32 [(0, 1, 63), (1, 1, 1), (2, 1, 0), (3, 1, 0), (6, 2, 0), (8, 2, 8), (0xC, 4, 1), (0x10, 8, 64), (0x18, 1, 30)], withSession up,
     _, _, starts_of (by decide +kernel), by decide, by decide, by decide⟩,
   ⟨via, packet 32 [(0, 1, 1), (1, 1, 1), (2, 1, 1), (4, 2, 2), (8, 2, 1), (0x10, 8, 64)], nic, _, _, starts_of (by decide +kernel), by decide,
     by decide, by decide⟩⟩

theorem test_witness_FramesLinksAndQueuesOfThePacketPath :
    (∃ (s : State), s.tel.frozen = false ∧ (subOf s 0).up = false ∧ subExists s 0 = true ∧ 0 % 4 < (enOf s (0 / 4)).subs.length) ∧
    (∃ (s : State) (f : Bytes), s.tel.frozen = false ∧ subExists s 0 = true ∧ (subOf s 0).up = true ∧ ingressBytes s 0 + f.length + 4 ≤ 2097152 ∧
      isPause f = false ∧ isPause (layout 60 [(12, 2, 0x0888), (14, 2, 0x0100)]) = true ∧ isolated s blkPacket = false ∧
        isolated s (blkEn (0 / 4)) = false ∧ f.length + 4 ≤ (enOf s (0 / 4)).maxFrame ∧ ppPaused s = false) ∧
    (∃ (s : State), s.tel.frozen = false ∧ (meta3 64 0).policer ≠ 0 ∧ (policerOf s (meta3 64 0).policer).enable = true ∧
      (subOf s (meta3 64 0).sub).svc = 0 ∧ (meta3 64 0).len * 8000 ≤ (fillPolicer (nowPp s) (policerOf s 3)).c) ∧
    (∃ (s : State), s.tel.frozen = false ∧ (policerOf s (meta3 64 0).policer).enable = true ∧ (subOf s (meta3 64 0).sub).svc ≠ 0) ∧
    (∃ (s : State), s.tel.frozen = false ∧ (policerOf s (meta3 64 0).policer).enable = false) ∧
    (∃ (s : State), s.tel.frozen = false ∧ (subOf s 0).up = false ∧ (subOf s 0).hold = true ∧ (subOf s 0).seen = true ∧ (subOf s 0).svc = 0) ∧
    (∃ (s : State), s.tel.frozen = false ∧ (subOf s 0).svc = 1) ∧
    (∃ (s : State), s.tel.frozen = false ∧ (subOf s 0).svc = 2) ∧
    (∃ (s : State), s.tel.frozen = false ∧ (enOf s 7).lanes[1]? = some { logical := 1, fails := 1 } ∧
      (enOf s 7).lanes[2]? = some { logical := 2, fails := 2 } ∧ (enOf s 7).laneOrder = 0 ∧ lanePerm 0x1B = true) ∧
    (∃ (s : State), s.tel.frozen = false ∧ (enOf s 7).laneOrder ≠ 0) ∧
    (∃ (s : State), s.tel.frozen = false ∧ qpOf s (qpKey 2 0) = some nqp ∧ (15 : Nat) < 2 ^ nqp.txLog2 ∧ 2 ^ nqp.cqLog2 ≤ 32) ∧
    (∃ (s : State) (q : NicQp), s.tel.frozen = false ∧ qpOf s (qpKey 2 0) = some q ∧ nicServed s 2 = true ∧
      shaperAllows (nowEn s q.port) (tx0.len + 4) (shaperOf s (1, qpKey 2 0)) = true) ∧
    (∃ (s : State), s.tel.frozen = false ∧ (qpOf s (qpKey 2 0)).isSome = true ∧ nicServed s 2 = false) ∧
    (∃ (s : State), s.tel.frozen = false ∧ (subOf s 0).up = true ∧ isolated s (blkEn (0 / 4)) = false ∧ (∀ k < 8,
      ((queueAt (subOf s 0) k).all (fun g => fitsWindow g.len (subOf s 0).speed (longestWindow (subOf s 0).gates k))) = true) ∧
        queueAt (subOf s 0) 7 = [egress, egress] ∧ eligible s 0 7 = true) ∧
    (∃ (s : State), s.tel.frozen = false ∧ (subOf s 0).nextGates = some ({ base := 0, entries := [(100, 1)] }, 0) ∧ 0 ≤ nowEn s 0) ∧
    (∃ (s : State), s.tel.frozen = false ∧ (subOf s 0).nextGates = some ({ base := 0, entries := [(100, 1)] }, 1) ∧ nowEn s 0 < 1) ∧
    (∃ (s : State), s.tel.frozen = false ∧ (samplerOf s 1).enable = true ∧ (samplerOf s 0).enable = false ∧ 1 ≤ (samplerOf s 1).count ∧
      (samplerOf s 1).prod < 2 ^ (samplerOf s 1).log2) :=
  ⟨⟨withSub {}, by decide, by decide, by decide, by decide⟩,
   ⟨withSub linked, List.replicate 60 0, by decide, by decide, by decide, by decide, by decide, by decide, by decide, by decide, by decide,
     by decide⟩,
   ⟨withPolicer 0 { enable := true, c := 512000, p := 7, since := 0 }, by decide, by decide, by decide, by decide, by decide⟩,
   ⟨withPolicer 3 { enable := true, aware := true, c := 512000, p := 512000, since := 0 }, by decide, by decide, by decide⟩,
   ⟨withPolicer 0 {}, by decide, by decide⟩,
   ⟨withSub { seen := true, hold := true, queues := [[egress], [], [], [], [], [], [], []] }, by decide, by decide, by decide, by decide, by decide⟩,
   ⟨withSub { linked with svc := 1 }, by decide, by decide⟩,
   ⟨withSub { svc := 2 }, by decide, by decide⟩,
   ⟨(withSession up).setPp { up.pp with en := [(7, { lanes := [{ logical := 0 }, { logical := 1, fails := 1 }, { logical := 2, fails := 2 }, { logical := 3 }] })] }, by decide, by decide, by decide, by decide, by decide⟩,
   ⟨(withSession up).setPp { up.pp with en := [(7, { laneOrder := 0xE4 })] }, by decide, by decide⟩,
   ⟨nic, by decide, by decide, by decide, by decide⟩,
   ⟨nicPart { nqp with txTail := 1, txq := [(tx0, some (List.replicate 60 0), 0)] },
     { nqp with txTail := 1, txq := [(tx0, some (List.replicate 60 0), 0)] }, by decide, by decide, by decide, by decide⟩,
   ⟨(nicPart { nqp with txTail := 1, txq := [(tx0, none, 0)] }).setFns [(2, { hp := 0, pf := 2, st := .frozen })], by decide, by decide, by decide⟩,
   ⟨withSub { linked with queues := [[egress], [], [], [], [], [], [], [egress, egress]] }, by decide, by decide, by decide, by decide +kernel,
     by decide, by decide⟩,
   ⟨withSub { linked with nextGates := some ({ base := 0, entries := [(100, 1)] }, 0) }, by decide, by decide, by decide⟩,
   ⟨withSub { linked with nextGates := some ({ base := 0, entries := [(100, 1)] }, 1) }, by decide, by decide, by decide⟩,
   ⟨nic.setPp { nic.pp with samplers := [(1, { enable := true, kind := 1, fn := 2, count := 1, prod := 63 })] }, by decide, by decide, by decide,
     by decide, by decide⟩⟩

/-- A part whose commit of a shaper runs under DRAIN: egress queues take in nothing. -/
def shaperDrain : State :=
  up.setIcp { up.icp with
    stage := [{ owner := ownerFor via, otype := 4, handle := 0, config := [] }],
    waits := [{ via := via, pkt := packet 16 [(0, 1, 1), (4, 4, 100)], kind := .drain }],
    commits := [{ owner := ownerFor via, via := via, bound := 100, start := 0 }] }

theorem test_witness_egress_paused : egressPaused shaperDrain = true ∧ egressPaused up = false := by decide

end Sys2Proof.Tests
end

