-- ==== Sys2Proof/Tests/Security.lean ====
section
/-! SUPPORT. States and commands that meet the hypotheses of the statements about keys, alarms, the life cycle, SPDM and IDE (chapter 13),
  clause by clause. What a wrapped key opens to, the token of a life-cycle transition and the length of a certificate chain are uninterpreted,
    so no witness says which way a wrapped key opens, none shows a proven token, and none shows a certificate offset within its chain. -/

namespace Sys2Proof.Tests

set_option Elab.async false

open Sys2Proof Sys2Proof.Machine

/-- A part with a session and a changed vault. -/
def withSec (f : Sec → Sec) : State := let s := withSession up; s.setSec (f s.sec)
/-- A part that holds one key. -/
def holding (h : Nat) (k : Key) : State := withSec (fun x => { x with keys := [(h, k)] })
/-- KEY_PROVISION of a 64-byte namespace key whose halves are equal, or not. -/
def weakKey : IcpPkt := packet 208 [(0, 1, 1), (8, 2, 64)]
def goodKey (handle : Nat) : IcpPkt := packet 208 [(0, 1, 1), (4, 4, handle), (8, 2, 64), (0x10, 4, 5)]

theorem test_witness_KeysAlarmsAndLifeCycle :
    (∃ (via : Via) (pkt : IcpPkt) (s s0 : State) (c : Ctx), Starts 0x0600 via (withByte 1 (fun _ => 0) pkt) s c s0 ∧ c.p 1 1 = 0 ∧
      firstBad (keyChecks c s0) = none ∧
      (let bs := ((c.params.drop 0x10).take (keyLen (c.p 0 1))).take (keyLen (c.p 0 1)); c.p 0 1 = 1 ∧ bs.take 32 = bs.drop 32)) ∧
    (∃ (via : Via) (pkt : IcpPkt) (s s0 : State) (c : Ctx) (h : Nat), Starts 0x0600 via (withByte 1 (fun _ => 0) pkt) s c s0 ∧ c.p 1 1 = 0 ∧
      firstBad (keyChecks c s0) = none ∧ c.p 4 4 = 0 ∧ newKeyHandle s0 (c.p 0 1) = some h ∧
      (let bs := ((c.params.drop 0x10).take (keyLen (c.p 0 1))).take (keyLen (c.p 0 1)); ¬ (c.p 0 1 = 1 ∧ bs.take 32 = bs.drop 32))) ∧
    (∃ (via : Via) (pkt : IcpPkt) (s s0 : State) (c : Ctx), Starts 0x0600 via (withByte 1 (fun _ => 0) pkt) s c s0 ∧ c.p 1 1 = 0 ∧
      firstBad (keyChecks c s0) = none ∧ c.p 4 4 ≠ 0) ∧
    (∃ (via : Via) (pkt : IcpPkt) (s s0 : State) (c : Ctx), Starts 0x0600 via (withByte 1 (fun _ => 1) pkt) s c s0 ∧ c.p 1 1 = 1 ∧
      firstBad (keyChecks c s0) = none) ∧
    (∃ (via : Via) (pkt : IcpPkt) (s s0 : State) (c : Ctx) (k : Key), Starts 0x0601 via pkt s c s0 ∧ keyOf s0 (c.p 0 4) = some k ∧
      (c.p 4 4).testBit 0 = true ∧ keyNamed s0 (c.p 0 4) = true) ∧
    (∃ (via : Via) (pkt : IcpPkt) (s s0 : State) (c : Ctx) (k : Key), Starts 0x0601 via pkt s c s0 ∧ keyOf s0 (c.p 0 4) = some k ∧
      (c.p 4 4).testBit 0 = true ∧ keyNamed s0 (c.p 0 4) = false ∧ k.kind = 3) ∧
    (∃ (via : Via) (pkt : IcpPkt) (s s0 : State) (c : Ctx), Starts 0x0602 via pkt s c s0 ∧ c.p 0 1 ≤ 4 ∧
      ¬ (s0.sec.lifecycle = 2 ∧ c.p 0 1 = 1 ∧ 15 ≤ s0.sec.ownerChanges) ∧ recoveryWork s0 = false ∧
      transitionOk s0.sec.lifecycle (c.p 0 1) = true ∧ needsToken (c.p 0 1) s0.sec.lifecycle = true ∧ s0.sec.challenge ≠ some (c.p 8 8)) ∧
    (∃ (via : Via) (pkt : IcpPkt) (s s0 : State) (c : Ctx), Starts 0x0602 via pkt s c s0 ∧ c.p 0 1 ≤ 4 ∧
      ¬ (s0.sec.lifecycle = 2 ∧ c.p 0 1 = 1 ∧ 15 ≤ s0.sec.ownerChanges) ∧ recoveryWork s0 = false ∧
      transitionOk s0.sec.lifecycle (c.p 0 1) = true ∧ needsToken (c.p 0 1) s0.sec.lifecycle = false ∧ s0.sec.lifecycle = 2 ∧ c.p 0 1 = 1) ∧
    (∃ (via : Via) (pkt : IcpPkt) (s s0 : State) (c : Ctx), Starts 0x0603 via pkt s c s0 ∧ c.p 0 1 ≤ 1 ∧
      c.p 4 4 ≤ (Config.certChain (c.p 0 1) s0.sec.lifecycle s0.sec.alias_).length) ∧
    (∃ (via : Via) (pkt : IcpPkt) (s s0 : State) (c : Ctx), Starts 0x0604 via pkt s c s0 ∧ c.iss.priv = true) ∧
    (∃ (via : Via) (pkt : IcpPkt) (s s0 : State) (c : Ctx), Starts 0x0604 via pkt s c s0 ∧ c.iss.priv = false) ∧
    (∃ s : State, s.sec.sealedCopies = true) ∧ (∃ s : State, s.sec.sealedCopies = false) :=
  ⟨⟨via, weakKey, withSession up, _, _, starts_of (by decide +kernel), by decide +kernel, by decide +kernel, by decide +kernel⟩,
   ⟨via, goodKey 0, withSession up, _, _, _, starts_of (by decide +kernel), by decide +kernel, by decide +kernel, by decide +kernel, rfl, by decide +kernel⟩,
   ⟨via, goodKey 0x10000001, holding 0x10000001 { kind := 1 }, _, _, starts_of (by decide +kernel), by decide +kernel, by decide +kernel, by decide +kernel⟩,
   ⟨via, packet 208 [(0, 1, 3), (8, 2, 32)], withSession up, _, _, starts_of (by decide +kernel), by decide +kernel, by decide +kernel⟩,
   ⟨via, packet 8 [(0, 4, 0x10000001), (4, 4, 1)], (let s := holding 0x10000001 { kind := 1, material := some 5 };
     s.setSto { s.sto with ns := [(1, { encrypted := true, key := 0x10000001 })] }), _, _, _, starts_of (by decide +kernel), rfl, by decide +kernel, by decide +kernel⟩,
   ⟨via, packet 8 [(0, 4, 0x30000001), (4, 4, 1)], holding 0x30000001 { kind := 3, material := some 5 }, _, _, _, starts_of (by decide +kernel), rfl,
     by decide +kernel, by decide +kernel, rfl⟩,
   ⟨via, packet 112 [(0, 1, 3), (8, 8, 7)], withSec (fun x => { x with lifecycle := 2 }), _, _, starts_of (by decide +kernel), by decide +kernel,
     by decide +kernel, by decide +kernel, by decide +kernel, by decide +kernel, by decide +kernel⟩,
   ⟨via, packet 112 [(0, 1, 1)], withSec (fun x => { x with lifecycle := 2, ownerChanges := 14 }), _, _, starts_of (by decide +kernel), by decide +kernel,
     by decide +kernel, by decide +kernel, by decide +kernel, by decide +kernel, by decide +kernel, by decide +kernel⟩,
   ⟨via, packet 8 [(0, 1, 1)], withSession up, _, _, starts_of (by decide +kernel), by decide +kernel, Nat.zero_le _⟩,
   ⟨via, packet 8 [], withSession up, _, _, starts_of (by decide +kernel), by decide +kernel⟩,
   ⟨.ring 2, { ringPacket 8 [] with functionId := 2 }, (let s := ringSession up;
     (s.setRings [(2, { enable := true, ready := true })]).setIcp { s.icp with sessions := [(.ring 2, { sid := 1, major := 3, minor := 1, caps := 63 })] }),
     _, _, starts_ring (by decide +kernel), by decide +kernel⟩,
   ⟨withSec (fun x => { x with sealedCopies := true }), rfl⟩, ⟨up, rfl⟩⟩

/-- A conversation that has agreed algorithms, with an established session 1 and an open session 2. -/
def talking : Spdm := { mailbox := 0, stage := 3, version := 0x13, sessions := [(1, true), (2, false)] }
def attesting (identity : Bool) (x : Spdm) (ide : List IdeStream) : State :=
  up.setSec { up.sec with identity := identity, spdm := [x], ide := ide }

theorem test_witness_SpdmAndIdeAnswerByStage :
    (∃ s : State, footing s = true) ∧ (∃ s : State, running s = true ∧ (spdmOf s 0 0).stage = 0) ∧
    (∃ s : State, running s = true ∧ (spdmOf s 0 0).stage = 1) ∧ (∃ s : State, running s = true ∧ (spdmOf s 0 0).stage = 2) ∧
    (∃ s : State, running s = true ∧ 3 ≤ (spdmOf s 0 0).stage ∧ s.sec.identity = false) ∧
    (∃ s : State, running s = true ∧ 3 ≤ (spdmOf s 0 0).stage ∧ s.sec.identity = true ∧ spdmSessions s 0 < 2) ∧
    (∃ s : State, running s = true ∧ 3 ≤ (spdmOf s 0 0).stage ∧ (2, false) ∈ (spdmOf s 0 0).sessions ∧ (2, true) ∉ (spdmOf s 0 0).sessions) ∧
    (∃ s : State, running s = true ∧ 3 ≤ (spdmOf s 0 0).stage ∧ (1, true) ∈ (spdmOf s 0 0).sessions ∧
      (ideOf s 0 4).isSome = false ∧ (s.sec.ide.filter (fun y => y.hp == 0)).length < 8) ∧
    (∃ s : State, running s = true ∧ 3 ≤ (spdmOf s 0 0).stage ∧ (1, true) ∈ (spdmOf s 0 0).sessions ∧
      ((ideOf s 0 4).getD { hp := 0, stream := 4 }).keys ≠ 0) ∧
    (∃ s : State, ∀ x, ideOf s 0 4 = some x → x.secure = false) ∧
    (∃ (s : State) (x : IdeStream), ideOf s 0 4 = some x ∧ x.secure = true ∧ hostPortBlock s 0 = some 0) :=
  ⟨⟨up.setBoot { up.boot with stage := 4 }, by decide⟩, ⟨up, by decide, by decide⟩,
   ⟨attesting true { mailbox := 0, stage := 1 } [], by decide, by decide⟩, ⟨attesting true { mailbox := 0, stage := 2 } [], by decide, by decide⟩,
   ⟨attesting false talking [], by decide, by decide, by decide⟩, ⟨attesting true { talking with sessions := [(1, true)] } [], by decide, by decide, by decide, by decide⟩,
   ⟨attesting true talking [], by decide, by decide, by decide, by decide⟩, ⟨attesting true talking [], by decide, by decide, by decide, by decide, by decide⟩,
   ⟨attesting true talking [{ hp := 0, stream := 4, keys := 63 }], by decide, by decide, by decide, by decide⟩,
   ⟨attesting true talking [{ hp := 0, stream := 4, keys := 63 }], by intro x h; cases h; rfl⟩,
   ⟨attesting true talking [{ hp := 0, stream := 4, keys := 63, secure := true }], _, rfl, by decide, by decide⟩⟩

end Sys2Proof.Tests
end

