-- ==== Sys2Proof/Tests/Telemetry.lean ====
section
/-! SUPPORT. States and commands that meet the hypotheses of the statements about errors, telemetry and register writes (chapters 1, 14 and 17),
  clause by clause. -/

namespace Sys2Proof.Tests

set_option Elab.async false

open Sys2Proof Sys2Proof.Machine

/-- A part with a session and one error header. -/
def withErr (b : Nat) (h : ErrHdr) : State := (withSession up).setErr [(b, h)]
/-- A latched CON of sequence number 3. -/
def latched : ErrHdr := { valid := true, seq := 3, cls := 2, fcls := 2, conSeen := true, conCount := 1, running := true }

theorem test_witness_ErrorsAreRecordedAcknowledgedAndCleared :
    (∃ s : State, (errOf s 9).valid = false ∧ (errOf s 9).cls = 0 ∧ (errOf s 9).corSilent = false) ∧
    (∃ s : State, (errOf s 9).valid = true ∧ (errOf s 9).cls = 1 ∧ (errOf s 9).running = true) ∧
    (∃ s : State, (errOf s 9).corSilent = true) ∧ (∃ s : State, s.tel.frozen = false ∧ s.boot.inReset = false) ∧ (∃ s : State, s.boot.inReset = true) ∧
    (∃ s : State, s.boot.stewardSpare = some 3 ∧ 0 ∈ s.boot.stewards ∧ 5 ∉ s.boot.stewards) ∧
    (∃ s : State, s.boot.stewardSpare = none ∧ 0 ∈ s.boot.stewards ∧ s.boot.stewards.filter (fun x => x != 0) = []) ∧
    (∃ s : State, s.boot.stewardSpare = none ∧ 0 ∈ s.boot.stewards ∧ s.boot.stewards.filter (fun x => x != 0) ≠ []) ∧
    trusted .other = false ∧ trusted .steward = true ∧
    (∃ s : State, (errOf s 60).acked = true ∧ (errOf s 60).cls ≠ 3 ∧ (errOf s 60).valid = true ∧ (errOf s 60).seq = 19 % 16) ∧
    (∃ s : State, (errOf s 60).acked = false ∧ (errOf s 60).escalated = false) ∧ (∃ s : State, (errOf s 60).cls = 3) ∧
    (∃ s : State, (errOf s 9).isolated = true ∧ (errOf s 9).returning = true) ∧ (∃ s : State, (errOf s 9).isolated = true ∧ (errOf s 9).returning = false) ∧
    (∃ s : State, (errOf s blkPower).running = true ∧ (errOf s blkPower).cls = 2) ∧ (∃ s : State, faultAsserted s = true ∧ anyFault s = false) :=
  ⟨⟨up, rfl, rfl, rfl⟩, ⟨withErr 9 { latched with cls := 1 }, rfl, rfl, rfl⟩, ⟨withErr 9 { corSilent := true }, rfl⟩, ⟨up, rfl, rfl⟩, ⟨.reset, rfl⟩,
   ⟨up, rfl, by decide, by decide⟩, ⟨up.setBoot { up.boot with stewards := [0], stewardSpare := none }, rfl, by decide, by decide⟩,
   ⟨up.setBoot { up.boot with stewardSpare := none }, rfl, by decide, by decide⟩, rfl, rfl,
   ⟨withErr 60 { latched with acked := true, running := false }, rfl, by decide, rfl, rfl⟩, ⟨withErr 60 latched, rfl, rfl⟩,
   ⟨withErr 60 { latched with cls := 3 }, rfl⟩, ⟨withErr 9 { isolated := true, returning := true }, rfl, rfl⟩, ⟨withErr 9 { isolated := true }, rfl, rfl⟩,
   ⟨withErr blkPower latched, rfl, rfl⟩, ⟨up.setTel { up.tel with faultHold := true }, by decide, by decide⟩⟩

theorem test_witness_TelemetryReportsAndRegisterWrites :
    (∃ (via : Via) (pkt : IcpPkt) (s s0 : State) (c : Ctx), Starts 0x0700 via pkt s c s0 ∧ c.p 0 2 = 60) ∧
    (∃ (via : Via) (pkt : IcpPkt) (s s0 : State) (c : Ctx), Starts 0x0700 via pkt s c s0 ∧ c.p 0 2 = 0xFFFF) ∧
    (∃ (via : Via) (pkt : IcpPkt) (s s0 : State) (c : Ctx), Starts 0x0701 via pkt s c s0 ∧ (c.p 3 1).testBit 0 = true ∧ (c.p 3 1).testBit 1 = false ∧
      (errOf s0 (c.p 0 2)).valid = true ∧ (errOf s0 (c.p 0 2)).seq = c.p 2 1 % 16) ∧
    (∃ (via : Via) (pkt : IcpPkt) (s s0 : State) (c : Ctx), Starts 0x0701 via pkt s c s0 ∧ (c.p 3 1).testBit 0 = true ∧ (c.p 3 1).testBit 1 = false ∧
      (errOf s0 (c.p 0 2)).seq ≠ c.p 2 1 % 16) ∧
    (∃ (via : Via) (pkt : IcpPkt) (s s0 : State) (c : Ctx), Starts 0x0701 via pkt s c s0 ∧ (c.p 3 1).testBit 0 = false ∧ (c.p 3 1).testBit 1 = true ∧
      clearAccepted (errOf s0 (c.p 0 2)) = true) ∧
    (∃ (via : Via) (pkt : IcpPkt) (s s0 : State) (c : Ctx), Starts 0x0701 via pkt s c s0 ∧ (c.p 3 1).testBit 0 = false ∧ (c.p 3 1).testBit 1 = true ∧
      clearAccepted (errOf s0 (c.p 0 2)) = false) ∧
    (∃ (via : Via) (pkt : IcpPkt) (s s0 : State) (c : Ctx) (lim : Nat), Starts 0x0702 via pkt s c s0 ∧ c.p 0 2 ≤ 60 ∧ c.p 2 1 = 7 ∧ c.p 3 1 = 3 ∧ c.cap 4 = true ∧
      eventMax (c.p 0 2) (c.p 4 2) (c.p 6 1) = some lim ∧ (isPf (c.p 0xC 2) || isVf (c.p 0xC 2) || c.p 0xC 2 == 0xFFFF) = true ∧ lim < c.p 8 4) ∧
    (∃ (via : Via) (pkt : IcpPkt) (s s0 : State) (c : Ctx), Starts 0x0703 via pkt s c s0 ∧ c.p 0 2 ≤ 60 ∧ c.iss.priv = true) ∧
    (∃ (via : Via) (pkt : IcpPkt) (s s0 : State) (c : Ctx), Starts 0x0703 via pkt s c s0 ∧ c.p 0 2 ≤ 60 ∧ c.iss.kind ≤ 1 ∧ c.iss.priv = false ∧
      (perfOf s0 (c.p 0 2) 0).reader ≠ c.iss.fid) :=
  ⟨⟨via, packet 8 [(0, 2, 60)], withErr 60 latched, _, _, starts_of (by decide +kernel), by decide +kernel⟩,
   ⟨via, packet 8 [(0, 2, 0xFFFF)], withErr 60 latched, _, _, starts_of (by decide +kernel), by decide +kernel⟩,
   ⟨via, packet 8 [(0, 2, 60), (2, 1, 3), (3, 1, 1)], withErr 60 latched, _, _, starts_of (by decide +kernel), by decide +kernel, by decide +kernel, by decide +kernel, by decide +kernel⟩,
   ⟨via, packet 8 [(0, 2, 60), (2, 1, 4), (3, 1, 1)], withErr 60 latched, _, _, starts_of (by decide +kernel), by decide +kernel, by decide +kernel, by decide +kernel⟩,
   ⟨via, packet 8 [(0, 2, 60), (3, 1, 2)], withErr 60 { latched with acked := true }, _, _, starts_of (by decide +kernel), by decide +kernel, by decide +kernel, by decide +kernel⟩,
   ⟨via, packet 8 [(0, 2, 60), (3, 1, 2)], withErr 60 latched, _, _, starts_of (by decide +kernel), by decide +kernel, by decide +kernel, by decide +kernel⟩,
   ⟨via, packet 32 [(0, 2, 27), (2, 1, 7), (3, 1, 3), (8, 4, 0xFFFFFFFF), (0xC, 2, 0xFFFF)], withSession up, _, _, 1, starts_of (by decide +kernel), by decide +kernel,
     by decide +kernel, by decide +kernel, by decide +kernel, by decide +kernel, by decide +kernel, by decide +kernel⟩,
   ⟨via, packet 8 [(0, 2, 31)], withSession up, _, _, starts_of (by decide +kernel), by decide +kernel, by decide +kernel⟩,
   ⟨.ring 2, { ringPacket 8 [(0, 2, 31)] with functionId := 2 }, (let s := ringSession up;
     (s.setRings [(2, { enable := true, ready := true })]).setIcp { s.icp with sessions := [(.ring 2, { sid := 1, major := 3, minor := 1, caps := 63 })] }),
     _, _, starts_ring (by decide +kernel), by decide +kernel, by decide +kernel, by decide +kernel, by decide +kernel⟩⟩

theorem test_witness_TelemetryReports_policiesAndStraps :
    (∃ (via : Via) (pkt : IcpPkt) (s s0 : State) (c : Ctx), Starts 0x0704 via pkt s c s0 ∧ c.p 0 1 = 1 ∧ c.p 1 1 = 0 ∧
      policyParamOk (c.p 0 1) (c.p 2 2) = true ∧ isStaged s0 9 (c.p 0 1 * 65536 + c.p 2 2) = false) ∧
    (∃ (via : Via) (pkt : IcpPkt) (s s0 : State) (c : Ctx), Starts 0x0704 via pkt s c s0 ∧ c.p 0 1 = 8 ∧ c.p 1 1 = 1 ∧
      policyParamOk (c.p 0 1) (c.p 2 2) = true ∧ isStaged s0 9 (c.p 0 1 * 65536 + c.p 2 2) = false) ∧
    (∃ (via : Via) (pkt : IcpPkt) (s s0 : State) (c : Ctx), Starts 0x0705 via pkt s c s0 ∧ s0.tel.plog ≠ []) ∧
    (∃ (via : Via) (pkt : IcpPkt) (s s0 : State) (c : Ctx), Starts 0x0F02 via pkt s c s0 ∧ c.p 0 8 ≤ ((s0.tel.dump.map (·.bytes)).getD []).length ∧
      c.p 0 8 ≠ 0 ∧ c.p 8 4 = 4048) ∧
    (∃ (via : Via) (pkt : IcpPkt) (s s0 : State) (c : Ctx), Starts 0x0101 via pkt s c s0) ∧
    (∃ (via : Via) (pkt : IcpPkt) (s s0 : State) (c : Ctx), Starts 0x0102 via pkt s c s0 ∧ c.p 0 2 = 0x1FFF ∧ (c.p 4 1).testBit 0 = false) ∧
    (∃ (via : Via) (pkt : IcpPkt) (s s0 : State) (c : Ctx), Starts 0x0102 via pkt s c s0 ∧ c.p 0 2 = 0 ∧ (c.p 4 1).testBit 0 = true) ∧
    (∃ (via : Via) (pkt : IcpPkt) (s s0 : State) (c : Ctx), Starts 0x0103 via pkt s c s0) ∧
    (∃ (via : Via) (pkt : IcpPkt) (s s0 : State) (c : Ctx), Starts 0x0120 via pkt s c s0 ∧ c.p 0 2 = 601 ∧ c.p 3 1 = 69 ∧ c.p 2 1 % 2 = 1) :=
  ⟨⟨via, packet 32 [(0, 1, 1), (1, 1, 0)], withSession up, _, _, starts_of (by decide +kernel), by decide +kernel, by decide +kernel, by decide +kernel, by decide +kernel⟩,
   ⟨via, packet 32 [(0, 1, 8), (1, 1, 1), (2, 2, 2)], withSession up, _, _, starts_of (by decide +kernel), by decide +kernel, by decide +kernel, by decide +kernel, by decide +kernel⟩,
   ⟨via, packet 16 [(4, 4, 10)], (let s := withSession up; s.setTel { s.tel with plog := [{ time := 0, seq := 0, policy := 1, reason := 1, object := 0, old := 0, new := 1 }], plogNext := 1 }),
     _, _, starts_of (by decide +kernel), by decide +kernel⟩,
   ⟨via, packet 16 [(0, 8, 2), (8, 4, 4048)], (let s := withSession up; s.setTel { s.tel with dump := some { bytes := [1, 2, 3], block := 0, source := 0 } }), _, _,
     starts_of (by decide +kernel), by decide +kernel, by decide +kernel, by decide +kernel⟩,
   ⟨via, packet 0 [], withSession up, _, _, starts_of (by decide +kernel)⟩,
   ⟨via, packet 8 [(0, 2, 0x1FFF), (2, 2, 1)], withSession up, _, _, starts_of (by decide +kernel), by decide +kernel, by decide +kernel⟩,
   ⟨via, packet 8 [(4, 1, 1)], withSession up, _, _, starts_of (by decide +kernel), by decide +kernel, by decide +kernel⟩,
   ⟨via, packet 0 [], withSession up, _, _, starts_of (by decide +kernel)⟩,
   ⟨via, packet 8 [(0, 2, 601), (2, 1, 1), (3, 1, 69)], withSession up, _, _, starts_of (by decide +kernel), by decide +kernel, by decide +kernel, by decide +kernel⟩⟩

/-- One register of every kind that a write reaches or not: outside the map, of the power block, guarded, of the common header, and stored. -/
theorem test_witness_TelemetryReports_registers :
    (∃ off, blkOf (off / 4 * 4) = none) ∧
    (∃ off rel, blkOf (off / 4 * 4) = some (blkPower, rel) ∧ Requester.other ≠ .steward) ∧
    (∃ off b rel, blkOf (off / 4 * 4) = some (b, rel) ∧ guarded b rel = true ∧ trusted .other = false) ∧
    (∃ off b, blkOf (off / 4 * 4) = some (b, 0x1C) ∧ b ≠ blkPower ∧ trusted .steward = true) ∧
    (∃ off b, blkOf (off / 4 * 4) = some (b, 0x24) ∧ b ≠ blkPower ∧ trusted .steward = true) ∧
    (∃ off b, blkOf (off / 4 * 4) = some (b, 0x10) ∧ b ≠ blkPower ∧ guarded b 0x10 = false) ∧
    (∃ (s : State) (off b rel v x : Nat), blkOf (off / 4 * 4) = some (b, rel) ∧ b ≠ blkPower ∧ guarded b rel = false ∧ 0x100 ≤ rel ∧ rel < 0x200 ∧
      storedWrite s b rel v = some x) ∧
    (∃ (s : State) (fn : Nat), isAccel fn = false ∧ ringThere s fn = true) ∧ (∃ (s : State) (fn : Nat), ringThere s fn = false) ∧
    (∃ s : State, ∃ v : CsrWord, (perfOf s 9 7).event ≠ v.toNat % 2 ^ 16) ∧ (∃ (s : State) (a : Nat), dpaUnmapped s a = true) :=
  ⟨⟨0xFFFFFF0, by decide +kernel⟩, ⟨blkBase blkPower + 0x100, 0x100, by decide +kernel, by decide⟩,
   ⟨blkBase blkGlobal + 0x108, blkGlobal, 0x108, by decide +kernel, by decide +kernel, rfl⟩,
   ⟨blkBase (blkMc 0) + 0x1C, blkMc 0, by decide +kernel, by decide +kernel, by decide +kernel⟩,
   ⟨blkBase (blkMc 0) + 0x24, blkMc 0, by decide +kernel, by decide +kernel, by decide +kernel⟩,
   ⟨blkBase (blkMc 0) + 0x10, blkMc 0, by decide +kernel, by decide +kernel, by decide +kernel⟩,
   ⟨up, blkBase (blkMc 0) + 0x10C, blkMc 0, 0x10C, 99, 3, by decide +kernel, by decide +kernel, by decide +kernel, by decide, by decide, by decide +kernel⟩,
   ⟨up, 0, by decide +kernel, by decide +kernel⟩, ⟨up, 0x1000, by decide +kernel⟩, ⟨up, 5, by decide +kernel⟩, ⟨up, 2 ^ 51, by decide +kernel⟩⟩

/-- A PF0 that serves its MSI-X table and configuration space, one in FLR, and BAR2 before and after it is assigned. -/
theorem test_witness_config_registers :
    (∃ s : State, isAccel 0 = false ∧ ringThere s 0 = true ∧ 8190 < 4 * vectorCount 0 ∧ 8190 % 4 = 2 ∧ (fnOf s (pfId 0 0)).isSome = true ∧
      (fnD s (pfId 0 0)).crs = false ∧ barAt s (pfId 0 0) 0x18 ≠ 0) ∧
    (∃ s : State, barAt s (pfId 1 0) 0x18 = 0) ∧ (∃ s : State, (fnD s 0).crs = true) ∧ (∃ s : State, fnOf s 0x1000 = none) :=
  ⟨⟨up.setPorts { up.ports with cfg := [(0x1C, 1)] }, by decide +kernel, by decide +kernel, by decide +kernel, by decide, by decide +kernel, by decide +kernel,
    by decide +kernel⟩,
   ⟨up, by decide +kernel⟩, ⟨up.setFns [(0, { crs := true })], by decide +kernel⟩, ⟨up, by decide +kernel⟩⟩

/-- BAR2 of PF0, written by halves, keeps its size and type bits, and takes effect with memory decoding. -/
theorem test_bar2_assigned :
    let w := fun (off : Nat) (v : CsrWord) (s : State) => nextOf (exec (.csrWrite (.host 0) (.config 0 off) v) s)
    let s := w 0x1C 0x12 (w 0x18 0xFFFFFFFF up)
    (configRead s 0 0x18, configRead s 0 0x1C, bar2Base s 0, bar2Base (w 4 2 s) 0) = (some 0xE000000C, some 0x12, none, some 0x12E0000000) := by
  decide +kernel

/-- The vault, seen by a host, by JTAG and by the stewards; an SRAM that full debug reads. -/
theorem test_witness_vault_and_debug :
    (∃ (s : State) (a : Nat), regionOf s a = .vault ∧ (Requester.host 0) ≠ .steward ∧ Requester.jtag ≠ .steward) ∧
    (∃ (s : State) (a : Nat), jtagReads s a = true) ∧ (∃ (s : State) (a : Nat), jtagReads s a = false ∧ regionOf s a = .scratch) ∧
    (∃ (s : State) (a : Nat), regionOf s a ≠ .vault ∧ (Requester.host 0) ≠ .jtag) ∧ trusted .jtag = false ∧ trusted .other = false :=
  ⟨⟨up, vaultBase, by decide +kernel, by decide, by decide⟩, ⟨(masonOf (thread [])).setSec { up.sec with jtag := 2 }, scratchBase, by decide +kernel⟩,
   ⟨up, scratchBase, by decide +kernel, by decide +kernel⟩, ⟨up, 0, by decide +kernel, by decide⟩, by decide, by decide⟩

/-- A queue pair of PF0 with one descriptor that waits and one that runs. -/
def twoAdmitted : State :=
  let q : Cqp := { owner := 0, gen := 1, waiting := [(1, { tag := 9 }, {})], running := [{ seq := 0, desc := { tag := 8 }, io := {} }] }
  (withErr blkTable latched).setTab { up.tab with cqps := [(0, q)] }

theorem test_witness_isolation :
    (∃ s n seq d, (cqpOf s n).isSome = true ∧ admitted s n seq = some d) ∧ (∃ s fid b, portBlock s fid = some b ∧ isolated s b = true) ∧
    (∃ (s : State) (b : Nat), (errOf s b).running = true ∧ (errOf s b).cls = 2) ∧ (∃ s : State, courseLive s = false) :=
  ⟨⟨twoAdmitted, 0, 1, _, by decide, rfl⟩, ⟨withErr 33 { isolated := true }, 0, 33, by decide, by decide⟩, ⟨twoAdmitted, blkTable, by decide, by decide⟩,
   ⟨up, by decide⟩⟩

/-- R626 event 8: the table service is isolated, and both admitted descriptors complete with status 0x0D. -/
theorem test_isolation_fails_admitted :
    let s := nextOf (exec (.escalationTimerExpiry blkTable) twoAdmitted)
    (isolated s blkTable, (cqpD s 0).waiting, (cqpD s 0).running, s.out.filterMap (fun o => match o with | .cqe _ c => some (c.tag, c.status) | _ => none)) =
      (true, [], [], [(9, 0xD), (8, 0xD)]) := by decide +kernel

end Sys2Proof.Tests
end

