-- ==== Sys2Proof/Tests/Transport.lean ====
section
/-! SUPPORT. States, commands and packets that meet the hypotheses of the statements about the reliable transport (chapter 12), clause by clause. -/

namespace Sys2Proof.Tests

set_option Elab.async false

open Sys2Proof Sys2Proof.Machine

def linkUp : SubPort := { up := true, seen := true, speed := 800, laneMask := 15 }
/-- A part whose PF0 of host port 0 has an IPv4 address, with connection 1, its work queue 0 and a registration of 8 KiB. -/
def conn1 : Conn := { owner := 0, gen := 1, state := 1, version := 2, cwnd := 65536, peerConn := 77 }
def wq0 : Wq := { owner := 0, gen := 1, endpoint := 0xFFFF, sq := 65536, cq := 131072, sqLog2 := 4, cqLog2 := 4, vector := 0xFFFF, page := 1 }
def mr1 : Mr := { owner := 0, endpoint := 0xFFFF, kind := 0, access := 15, conn := 0, addr := 0x100000, length := 8192, nsid := 0, handle := 1 }
def transport (c : Conn) (q : Wq) : State :=
  let s := (withSession up).setFns [(0, { ipv4 := 0x0A000001, allot := { conns := 8 } })]
  let s := s.setPp { s.pp with en := [(0, { subs := [linkUp, {}, {}, {}] })] }
  (s.setGrt { s.grt with conns := [(1, c)], wqs := [(0, q)], mrs := [(0, mr1)] }).setPages [(0, 1)]
def grt : State := transport conn1 wq0
/-- A part with an unattached namespace 5 of 4 MiB. -/
def withNs (s : State) : State := s.setSto { s.sto with ns := [(5, { bytes := 4194304, legs := [{ ssds := [8], extents := [(8, 1)] }] })] }
def wr1 : GrtWr := { tag := 3, conn := 1, length := 4, localAddr := 4096, rkey := 1 }
/-- A write of four bytes at the start of registration 1, as message 1. -/
def rx (type : Nat) (ext : Bytes) : GrtPkt := { type := type, flags := 64, dst := 1, psn := 1, ext := ext, payload := [1, 2, 3, 4] }

theorem test_witness_TransportObjectsAndRequestsRun :
    (∃ (via : Via) (pkt : IcpPkt) (s s0 : State) (c : Ctx) (i : Nat), let x := askedConn c s0; let share := (c.p 3 1).testBit 2;
      Starts 0x0510 via pkt s c s0 ∧ firstBad (connChecks c s0) = none ∧ hasAddress (fnD s0 x.owner) ((c.p 3 1).testBit 1) = true ∧
        lowest 262144 (fun i => !s0.grt.conns.any (fun e => connSlot e.1 == i)) = some i ∧ share = false ∧ freePage s0 x.owner = some 2 ∧
          lowest (s0.grt.wqs.length + 1) (fun w => !has s0.grt.wqs w) = some 1) ∧
    (∃ (via : Via) (pkt : IcpPkt) (s s0 : State) (c : Ctx) (i : Nat), let x := askedConn c s0; let share := (c.p 3 1).testBit 2;
      Starts 0x0510 via pkt s c s0 ∧ firstBad (connChecks c s0) = none ∧ hasAddress (fnD s0 x.owner) ((c.p 3 1).testBit 1) = true ∧
        lowest 262144 (fun i => !s0.grt.conns.any (fun e => connSlot e.1 == i)) = some i ∧ share = true) ∧
    (∃ (via : Via) (pkt : IcpPkt) (s s0 : State) (c : Ctx) (x : Conn), Starts 0x0511 via pkt s c s0 ∧ connFor c s0 (c.p 0 4) = some x) ∧
    (∃ (via : Via) (pkt : IcpPkt) (s s0 : State) (c : Ctx) (x : Conn), Starts 0x0514 via pkt s c s0 ∧ connFor c s0 (c.p 0 4) = some x) ∧
    (∃ (via : Via) (pkt : IcpPkt) (s s0 : State) (c : Ctx) (i : Nat), let kind := c.p 2 1; let len := c.p 0x10 8; Starts 0x0512 via pkt s c s0 ∧
      c.p 0 2 = 0xFFFF ∧ kind ≤ 1 ∧ c.p 4 4 = 0 ∧ c.p 8 8 + len ≤ 2 ^ 64 ∧ 4096 ≤ len ∧ len ≤ 2 ^ 40 ∧ len % 4096 = 0 ∧ kind ≠ 1 ∧
        lowest 1048576 (fun i => !has s0.grt.mrs i) = some i) ∧
    (∃ (via : Via) (pkt : IcpPkt) (s s0 : State) (c : Ctx) (i : Nat) (x : Conn) (n : Ns), let kind := c.p 2 1; let len := c.p 0x10 8;
      let o := grtOwner c s0; Starts 0x0512 via pkt s c s0 ∧ kind = 1 ∧ connOf s0 (c.p 4 4) = some x ∧ x.owner = o ∧
        nsOf s0 (c.p 0x18 4) = some n ∧ c.p 8 8 + len ≤ n.bytes ∧ n.attached = [] ∧ courseDest s0 (c.p 0x18 4) = false ∧ len % 4096 = 0 ∧
          lowest 1048576 (fun i => !has s0.grt.mrs i) = some i) ∧
    (∃ (via : Via) (pkt : IcpPkt) (s s0 : State) (c : Ctx) (m : Mr), Starts 0x0513 via pkt s c s0 ∧ mrOf s0 (c.p 0 4) = some m ∧
      mayNameEnd c s0 m.owner m.endpoint = true ∧ m.revoking = false) ∧
    (∃ (via : Via) (pkt : IcpPkt) (s s0 : State) (c : Ctx) (m : Mr), Starts 0x0513 via pkt s c s0 ∧ mrOf s0 (c.p 0 4) = some m ∧
      mayNameEnd c s0 m.owner m.endpoint = true ∧ m.revoking = true) ∧
    (∃ (s : State) (m : Mr) (w : Waiter), s.tel.frozen = false ∧ mrOf s 1 = some m ∧ m.revoking = true ∧
      s.icp.waits.find? (fun w => w.kind == .revoke && w.obj == 1) = some w) ∧
    (∃ (s : State) (q : Wq) (index : Nat) (slots : List (GrtWr × Option Bytes)), s.tel.frozen = false ∧ wqOf s 0 = some q ∧ 2 ^ q.sqLog2 ≤ 16 ∧
      2 ^ q.cqLog2 ≤ 16 ∧ index < 2 ^ q.sqLog2 ∧ index < 2 ^ q.cqLog2) ∧
    (∃ (s : State) (q : Wq) (wr : GrtWr) (data : Option Bytes), s.tel.frozen = false ∧ wqOf s 0 = some q ∧ q.unread = [] ∧
      fnServed s q.owner = true ∧ wr.flags.testBit 2 = true ∧ wr.trigCtr < 64 ∧ lookD q.ctrs wr.trigCtr 0 < wr.threshold ∧ q.parked.length < 4096) ∧
    (∃ (s : State) (q : Wq) (wr : GrtWr) (data : Option Bytes), s.tel.frozen = false ∧ wqOf s 0 = some q ∧ q.unread = [] ∧
      fnServed s q.owner = true ∧ wr.flags.testBit 2 = false ∧ connOf s wr.conn = none) ∧
    (∃ (s : State) (q : Wq) (c : Conn) (wr : GrtWr), s.tel.frozen = false ∧ wqOf s 0 = some q ∧ q.unread = [] ∧ fnServed s q.owner = true ∧
      wr.flags.testBit 2 = false ∧ connOf s wr.conn = some c ∧ c.wq = 0 ∧ isolated s blkTransport = false ∧ wr.ctrInc = 0xFF ∧ c.state ≠ 2 ∧
        wr.flags.testBit 1 = false ∧ wr.trigCtr ≤ 63) ∧
    (∃ (s : State) (q : Wq) (c : Conn) (wr : GrtWr) (data : Option Bytes), s.tel.frozen = false ∧ wqOf s 0 = some q ∧ q.unread = [] ∧
      fnServed s q.owner = true ∧ wr.flags.testBit 2 = false ∧ connOf s wr.conn = some c ∧ c.wq = 0 ∧ isolated s blkTransport = false ∧
        wr.length ≤ 67108864 ∧ wr.flags.testBit 4 = false ∧ c.state = 2) ∧
    (∃ (s : State) (q : Wq) (c : Conn) (wr : GrtWr) (e : Bytes), s.tel.frozen = false ∧ wqOf s 0 = some q ∧ q.unread = [] ∧
      fnServed s q.owner = true ∧ wr.flags.testBit 2 = false ∧ connOf s wr.conn = some c ∧ c.wq = 0 ∧ isolated s blkTransport = false ∧
        wr.ctrInc ≤ 63 ∧ wr.length ≤ 67108864 ∧ wr.flags.testBit 4 = false ∧ c.state ≠ 2) ∧
    (∃ (s : State) (q : Wq), wqOf s 0 = some q) ∧
    (∃ (s : State) (q : Wq) (e : GrtWr × Option Bytes), let due := fun (e : GrtWr × Option Bytes) => decide (e.1.threshold ≤ lookD q.ctrs e.1.trigCtr 0); s.tel.frozen = false ∧ wqOf s 0 = some q ∧ q.parked.find? due = some e) ∧
    (∃ (s : State) (q : Wq), let due := fun (e : GrtWr × Option Bytes) => decide (e.1.threshold ≤ lookD q.ctrs e.1.trigCtr 0);
      s.tel.frozen = false ∧ wqOf s 0 = some q ∧ q.parked.find? due = none) :=
  ⟨⟨via, packet 96 [(0, 2, 0xFFFF), (0xC, 1, 2), (0xE, 1, 0xFF), (0xA, 1, 3), (0xB, 1, 7), (0x48, 8, 65536), (0x50, 8, 131072), (0x58, 1, 6),
    (0x59, 1, 6), (0x5A, 2, 0xFFFF)], grt, _, _, 1, starts_of (by decide +kernel), by decide +kernel, by decide, by decide +kernel, by decide,
      by decide +kernel, by decide⟩,
   ⟨via, packet 96 [(0, 2, 0xFFFF), (2, 1, 1), (3, 1, 4), (4, 4, 1), (0xC, 1, 1), (0xE, 1, 0xFF), (0xA, 1, 3), (0xB, 1, 7)], grt, _, _, 1,
     starts_of (by decide +kernel), by decide +kernel, by decide, by decide +kernel, by decide⟩,
   ⟨via, packet 8 [(0, 4, 1)], transport { conn1 with reqs := [{ wr := wr1, msn := some 1 }, { wr := wr1, done := some 0 }] } { wq0 with parked := [(wr1, none)] }, _, _, { conn1 with reqs := [{ wr := wr1, msn := some 1 }, { wr := wr1, done := some 0 }] }, starts_of (by decide +kernel), by decide⟩,
   ⟨via, packet 8 [(0, 4, 1), (4, 4, 60)], grt, _, _, conn1, starts_of (by decide +kernel), by decide⟩,
   ⟨via, packet 48 [(0, 2, 0xFFFF), (3, 1, 3), (8, 8, 0x200000), (0x10, 8, 4096)], grt, _, _, 1, starts_of (by decide +kernel), by decide,
     by decide, by decide, by decide, by decide, by decide, by decide, by decide, by decide +kernel⟩,
   ⟨via, packet 48 [(0, 2, 0xFFFF), (2, 1, 1), (3, 1, 3), (4, 4, 1), (8, 8, 0), (0x10, 8, 4194304), (0x18, 4, 5)], withNs grt, _, _, 1, conn1,
     { bytes := 4194304, legs := [{ ssds := [8], extents := [(8, 1)] }] }, starts_of (by decide +kernel), by decide, by decide, by decide,
       by decide, by decide, by decide, by decide, by decide, by decide +kernel⟩,
   ⟨via, packet 8 [(0, 4, 1)], grt, _, _, mr1, starts_of (by decide +kernel), by decide, by decide, by decide⟩,
   ⟨via, packet 8 [(0, 4, 1)], grt.setGrt { grt.grt with mrs := [(0, { mr1 with revoking := true })] }, _, _, { mr1 with revoking := true },
     starts_of (by decide +kernel), by decide, by decide, by decide⟩,
   ⟨(grt.setGrt { grt.grt with mrs := [(0, { mr1 with revoking := true })] }).setIcp { grt.icp with waits := [{ via := via, pkt := packet 8 [(0, 4, 1)], kind := .revoke, obj := 1 }] }, { mr1 with revoking := true }, { via := via, pkt := packet 8 [(0, 4, 1)], kind := .revoke, obj := 1 }, by decide, by decide, by decide, by decide⟩,
   ⟨grt, wq0, 15, [({ wr1 with opcode := 5 }, none)], by decide, by decide, by decide, by decide, by decide, by decide⟩,
   ⟨grt, wq0, { wr1 with flags := 4, trigCtr := 63, threshold := 1 }, some [1], by decide, by decide, by decide, by decide, by decide, by decide,
     by decide, by decide⟩,
   ⟨grt, wq0, { wr1 with conn := 2 }, none, by decide, by decide, by decide, by decide, by decide, by decide⟩,
   ⟨grt, wq0, conn1, { wr1 with trigCtr := 63, ctrValue := 5, flags := 1 }, by decide, by decide, by decide, by decide, by decide, by decide,
     by decide, by decide, by decide, by decide, by decide, by decide⟩,
   ⟨transport { conn1 with state := 2 } wq0, wq0, { conn1 with state := 2 }, wr1, none, by decide, by decide, by decide, by decide, by decide,
     by decide, by decide, by decide, by decide, by decide, by decide⟩,
   ⟨grt, wq0, conn1, { wr1 with ctrInc := 63 }, [1, 2], by decide, by decide, by decide, by decide, by decide, by decide, by decide, by decide,
     by decide, by decide, by decide, by decide⟩,
   ⟨transport conn1 { wq0 with ctrs := [(63, 2 ^ 64 - 1)] }, { wq0 with ctrs := [(63, 2 ^ 64 - 1)] }, by decide⟩,
   ⟨transport conn1 { wq0 with ctrs := [(3, 9)], parked := [({ wr1 with opcode := 1, trigCtr := 3, threshold := 10 }, some [1]), ({ wr1 with opcode := 1, trigCtr := 3, threshold := 9 }, some [2])] }, { wq0 with ctrs := [(3, 9)], parked := [({ wr1 with opcode := 1, trigCtr := 3, threshold := 10 }, some [1]), ({ wr1 with opcode := 1, trigCtr := 3, threshold := 9 }, some [2])] }, ({ wr1 with opcode := 1, trigCtr := 3, threshold := 9 }, some [2]), by decide, by decide, by decide⟩,
   ⟨grt, wq0, by decide, by decide, by decide⟩⟩

theorem test_witness_TransportPacketsAndTimersAct :
    (∃ (s : State) (p : GrtPkt) (p' : GrtPkt) (c : Conn), s.tel.frozen = false ∧ isolated s blkTransport = false ∧ connOf s p.dst = none ∧
      connOf s p'.dst = some c ∧ c.state ≠ 1) ∧
    (∃ (s : State) (p : GrtPkt) (p' : GrtPkt) (c : Conn), s.tel.frozen = false ∧ isolated s blkTransport = false ∧ connOf s p.dst = some c ∧
      c.state = 1 ∧ p.ver = c.version ∧ (fnD s c.owner).st ≠ .frozen ∧ psnOld c p.psn = true ∧ c.roce = false ∧ psnOld c p'.psn = false ∧
        psnBeyond c p'.psn = true) ∧
    (∃ (s : State) (p : GrtPkt) (c : Conn) (m : Mr), let at_ := be p.ext 16 8 + be p.ext 4 4; let i := be p.ext 4 4 / pmtuBytes c.pmtu;
      s.tel.frozen = false ∧ Accepts s p c ∧ writeValid c p = true ∧ seqAfter (be p.ext 0 4) c.cmsn = true ∧ (∀ e,
        c.entries.find? (fun e => e.msn == (be p.ext 0 4)) = some e → e.got.contains i = false) ∧ trackFull s c (be p.ext 0 4) i = false ∧
          admitMr s p.dst (be p.ext 8 4) (writeNeeds p) at_ p.payload.length = some m ∧ fSealed p = false ∧ m.kind = 0) ∧
    (∃ (s : State) (p : GrtPkt) (c : Conn), let at_ := be p.ext 16 8 + be p.ext 4 4; let i := be p.ext 4 4 / pmtuBytes c.pmtu;
      s.tel.frozen = false ∧ Accepts s p c ∧ writeValid c p = true ∧ seqAfter (be p.ext 0 4) c.cmsn = true ∧ (∀ e,
        c.entries.find? (fun e => e.msn == (be p.ext 0 4)) = some e → e.got.contains i = false) ∧ trackFull s c (be p.ext 0 4) i = false ∧
          admitMr s p.dst (be p.ext 8 4) (writeNeeds p) at_ p.payload.length = none) ∧
    (∃ (s : State) (p : GrtPkt) (c : Conn) (m : Mr) (bs : Bytes), s.tel.frozen = false ∧ Accepts s p c ∧ p.type = 3 ∧ be p.ext 4 4 ≤ 67108864 ∧
      seqAfter (be p.ext 0 4) c.cmsn = true ∧ trackFull s c (be p.ext 0 4) 0 = false ∧
        admitMr s p.dst (be p.ext 8 4) 2 (be p.ext 16 8) (be p.ext 4 4) = some m ∧ m.kind = 0) ∧
    (∃ (s : State) (p : GrtPkt) (c : Conn) (r : GrtReq), let msn := be p.ext 0 4; let off := be p.ext 4 4; let i := off / pmtuBytes c.pmtu;
      s.tel.frozen = false ∧ Accepts s p c ∧ c.reqs.find? (fun r => r.wr.opcode == 3 && r.msn == some msn && r.done.isNone) = some r ∧ i ∉ r.got ∧
        off + p.payload.length ≤ r.wr.length ∧ fLast p = false ∧ r.last = none) ∧
    (∃ (s : State) (p : GrtPkt) (c : Conn), let msn := be p.ext 0 4; s.tel.frozen = false ∧ Accepts s p c ∧
      c.reqs.find? (fun r => r.wr.opcode == 3 && r.msn == some msn && r.done.isNone) = none) ∧
    (∃ (s : State) (p : GrtPkt) (c : Conn), s.tel.frozen = false ∧ connOf s p.dst = some c ∧ c.state = 1 ∧ 16 ≤ p.ext.length) ∧
    (∃ (s : State) (p : GrtPkt) (c : Conn), s.tel.frozen = false ∧ connOf s p.dst = some c ∧ p.ext.length < 16) ∧
    (∃ (s : State) (p : GrtPkt) (c : Conn), let q := fun (code : Nat) => rx 6 (extNak 5 1 code 9); s.tel.frozen = false ∧ connOf s p.dst = some c ∧
      c.state ≠ 2 ∧ be (q 1).ext 8 1 = 1 ∧ be (q 6).ext 8 1 = 6 ∧ be (q 3).ext 8 1 = 3 ∧ be (q 4).ext 8 1 = 4 ∧ be (q 2).ext 8 1 ∉ [1, 3, 4, 6,
        8] ∧ be (q 7).ext 8 1 ∉ [1, 3, 4, 6, 8] ∧ be p.ext 8 1 ∉ [1, 3, 4, 6, 8]) ∧
    (∃ (s : State) (p : GrtPkt) (c : Conn), s.tel.frozen = false ∧ connOf s p.dst = some c ∧ c.state = 2) ∧
    (∃ (s : State) (p : GrtPkt) (p' : GrtPkt) (c : Conn), let v := min c.versionMax (be p.ext 1 1); s.tel.frozen = false ∧
      connOf s p.dst = some c ∧ c.roce = false ∧ c.state = 0 ∧ be p.ext 0 1 ≤ v ∧ 1 ≤ v ∧ min c.versionMax (be p'.ext 1 1) < be p'.ext 0 1) ∧
    (∃ (s : State) (p : GrtPkt) (c : Conn), s.tel.frozen = false ∧ connOf s 1 = some c ∧ c.roce = false ∧ c.state = 1 ∧ c.ackDue = true) ∧
    (∃ (s : State) (c : Conn) (x : TxPkt) (x' : TxPkt), s.tel.frozen = false ∧ connOf s 1 = some c ∧ connSlot 1 < 262144 ∧
      c.flight.find? (fun x => x.pkt.psn == 5 && !x.sacked && x.wait.isNone) = some x ∧
        c.flight.find? (fun x => x.pkt.psn == 6 && !x.sacked && x.wait.isNone) = some x' ∧ c.retryLimit ≤ x.tries ∧ c.bind = false ∧
          x'.tries < c.retryLimit) ∧
    (∃ (s : State) (c : Conn), s.tel.frozen = false ∧ connOf s 1 = some c ∧ (∃ e ∈ c.entries, e.msn = 1 ∧ 0 < e.waiting)) ∧
    (∃ (s : State) (c : Conn), s.tel.frozen = false ∧ connOf s 1 = some c ∧ c.roce = true ∧ c.state = 1 ∧ c.lastDec + c.srtt ≤ nowTr s) :=
  ⟨⟨transport { conn1 with state := 0 } wq0, { rx 1 (extWrite 1 0 1 0 0) with dst := 9 }, rx 1 (extWrite 1 0 1 0 0), { conn1 with state := 0 },
    by decide, by decide, by decide, by decide, by decide⟩,
   ⟨transport { conn1 with cum := 300 } wq0, { rx 1 (extWrite 1 0 1 0 0) with psn := 300 }, { rx 1 (extWrite 1 0 1 0 0) with psn := 557 },
     { conn1 with cum := 300 }, by decide, by decide, by decide, by decide, by decide, by decide, by decide, by decide, by decide, by decide⟩,
   ⟨grt, rx 2 (extWrite 1 0 1 55 8188), conn1, mr1, by decide, ⟨by decide, by decide, by decide, by decide, by decide, by decide, by decide,
     by decide⟩, by decide, by decide, by decide, by decide, by decide, by decide, by decide⟩,
   ⟨grt, rx 2 (extWrite 1 0 1 55 8189), conn1, by decide, ⟨by decide, by decide, by decide, by decide, by decide, by decide, by decide,
     by decide⟩, by decide, by decide, by decide, by decide, by decide⟩,
   ⟨grt, rx 3 (extRead 1 8192 1 0), conn1, mr1, [9, 8], by decide, ⟨by decide, by decide, by decide, by decide, by decide, by decide, by decide,
     by decide⟩, by decide, by decide, by decide, by decide, by decide, by decide⟩,
   ⟨transport { conn1 with reqs := [{ wr := { wr1 with opcode := 3, length := 2048 }, msn := some 1, sentAll := true }] } wq0,
     { rx 4 (extResp 1 1024) with flags := 0 }, { conn1 with reqs := [{ wr := { wr1 with opcode := 3, length := 2048 }, msn := some 1, sentAll := true }] }, { wr := { wr1 with opcode := 3, length := 2048 }, msn := some 1, sentAll := true }, by decide, ⟨by decide, by decide, by decide, by decide, by decide, by decide, by decide, by decide⟩, by decide, by decide, by decide, by decide, by decide⟩,
   ⟨grt, rx 4 (extResp 1 1024), conn1, by decide, ⟨by decide, by decide, by decide, by decide, by decide, by decide, by decide, by decide⟩,
     by decide⟩,
   ⟨transport { conn1 with flight := [{ pkt := { rx 1 [] with psn := 5 }, msn := 1 }, { pkt := { rx 1 [] with psn := 7 }, msn := 2 }] } wq0,
     rx 5 (beBytes 4 5 ++ beBytes 4 1 ++ beBytes 4 0 ++ [0, 32, 0, 0] ++ [2] ++ List.replicate 31 0),
       { conn1 with flight := [{ pkt := { rx 1 [] with psn := 5 }, msn := 1 }, { pkt := { rx 1 [] with psn := 7 }, msn := 2 }] }, by decide,
         by decide, by decide, by decide⟩,
   ⟨grt, rx 5 [], conn1, by decide, by decide, by decide⟩,
   ⟨transport { conn1 with reqs := [{ wr := wr1, msn := some 1 }], flight := [{ pkt := { rx 1 [] with psn := 5 }, msn := 1 }] } wq0,
     rx 6 (extNak 5 1 0 9), { conn1 with reqs := [{ wr := wr1, msn := some 1 }], flight := [{ pkt := { rx 1 [] with psn := 5 }, msn := 1 }] },
       by decide, by decide, by decide, by decide, by decide, by decide, by decide, by decide, by decide, by decide⟩,
   ⟨transport { conn1 with state := 2 } wq0, rx 6 (extNak 5 1 1 0), { conn1 with state := 2 }, by decide, by decide, by decide⟩,
   ⟨transport { conn1 with state := 0, version := 0 } wq0, rx 7 (beBytes 1 1 ++ beBytes 1 2 ++ beBytes 1 3 ++ beBytes 1 0 ++ beBytes 4 5 ++ beBytes 4 9), rx 7 (beBytes 1 3 ++ beBytes 1 4), { conn1 with state := 0, version := 0 }, by decide, by decide, by decide, by decide, by decide, by decide, by decide⟩,
   ⟨transport { conn1 with ackDue := true, excluded := [(3, 50)], flight := [{ pkt := { rx 1 [] with psn := 5 }, msn := 1, wait := some 9 }] } wq0, rx 7 [], { conn1 with ackDue := true, excluded := [(3, 50)], flight := [{ pkt := { rx 1 [] with psn := 5 }, msn := 1, wait := some 9 }] }, by decide, by decide, by decide, by decide, by decide⟩,
   ⟨transport { conn1 with retryLimit := 1, flight := [{ pkt := { rx 1 [] with psn := 5 }, msn := 1, tries := 1 }, { pkt := { rx 1 [] with psn := 6 }, msn := 1 }] } wq0, { conn1 with retryLimit := 1, flight := [{ pkt := { rx 1 [] with psn := 5 }, msn := 1, tries := 1 }, { pkt := { rx 1 [] with psn := 6 }, msn := 1 }] }, { pkt := { rx 1 [] with psn := 5 }, msn := 1, tries := 1 }, { pkt := { rx 1 [] with psn := 6 }, msn := 1 }, by decide, by decide, by decide, by decide, by decide, by decide, by decide, by decide⟩,
   ⟨transport { conn1 with entries := [{ msn := 1, got := [0], count := some 1, waiting := 1 }] } wq0,
     { conn1 with entries := [{ msn := 1, got := [0], count := some 1, waiting := 1 }] }, by decide, by decide, by decide⟩,
   ⟨transport { conn1 with roce := true } wq0, { conn1 with roce := true }, by decide, by decide, by decide, by decide, by decide⟩⟩

/-- A response in flight that the peer refuses, with a request of the same MSN behind it: the request stays. -/
def respConn : Conn := { conn1 with flight := [{ pkt := { rx 4 [] with psn := 9 }, msn := 1, sentAt := 0, rto := 1 }], resps := [{ msn := 1, data := [1], sealed_ := false }], reqs := [{ wr := { wr1 with opcode := 1 }, data := [], msn := some 1 }] }
theorem test_witness_response_refused : ∃ (s : State) (p : GrtPkt), connOf s p.dst = some respConn ∧ respConn.state ≠ 2 ∧ be p.ext 8 1 ∉ [1, 3, 4, 6, 8] ∧
    (∃ x ∈ respConn.flight, x.pkt.psn = be p.ext 0 4 ∧ x.pkt.type = 4) ∧
    (connD (rxNak p s) 1).resps = [] ∧ ((connD (rxNak p s) 1).reqs.map (·.done)) = [none] :=
  ⟨transport respConn wq0, { rx 6 (extNak 9 1 5 0) with payload := [] }, by decide, by decide, by decide +kernel, by decide +kernel, by decide +kernel, by decide +kernel⟩

end Sys2Proof.Tests
end

