-- ==== Sys2Proof/Tests/More.lean ====
section
/-! SUPPORT. States that meet the hypotheses of further clauses: those on waiting, on a D-state other than D0, on lost keys and on what a part turns away. -/

namespace Sys2Proof.Tests

set_option Elab.async false

open Sys2Proof Sys2Proof.Machine

/-- The part with PF0 of host port 0 in D3hot. -/
def asleep (s : State) : State := s.setFns (put s.fns 0 { fnD s 0 with dstate := .d3hot })

theorem test_witness_doorbells_off :
    (∃ (s : State) (q : Wq), s.tel.frozen = false ∧ wqOf s 0 = some q ∧ doorbellOff s q.endpoint q.owner = true) ∧
    (∃ (s : State) (q : Wq), s.tel.frozen = false ∧ wqOf s 0 = some q ∧ doorbellOff s q.endpoint q.owner = false) ∧
    (∃ (s : State) (q : Cqp), s.tel.frozen = false ∧ cqpOf s 0 = some q ∧ doorbellOff s q.endpoint q.owner = true) ∧
    (∃ (s : State) (q : Cqp), s.tel.frozen = false ∧ cqpOf s 0 = some q ∧ doorbellOff s q.endpoint q.owner = false ∧ 5 < 2 ^ q.cqLog2 ∧ q.error = false) ∧
    (∃ (s : State) (q : Cqp), s.tel.frozen = false ∧ cqpOf s 0 = some q ∧ mayRing q 0 = true ∧ (0 = q.owner ∧ (fnD s q.owner).dstate ≠ .d0)) ∧
    (∃ (s : State) (q : Cqp), s.tel.frozen = false ∧ cqpOf s 0 = some q ∧ mayRing q 0 = true ∧ ¬ (0 = q.owner ∧ (fnD s q.owner).dstate ≠ .d0) ∧
      5 < 2 ^ q.sqLog2 ∧ q.error = false ∧ q.closing = false) ∧
    (∃ (s : State) (q : Cqp), s.tel.frozen = false ∧ cqpOf s 0 = some q ∧ mayRing q 0 = true ∧ ¬ (0 = q.owner ∧ (fnD s q.owner).dstate ≠ .d0) ∧
      5 < 2 ^ q.sqLog2 ∧ q.error = true) ∧
    (∃ (s : State), s.tel.frozen = false ∧ (fnD s 2).dstate ≠ .d0 ∧ (qpOf s (qpKey 2 0)).isSome = true) ∧
    (∃ (s : State), s.tel.frozen = false ∧ (fnD s 2).dstate = .d0 ∧ (qpOf s (qpKey 2 0)).isSome = true) :=
  ⟨⟨asleep grt, wq0, by decide, by decide, by decide⟩, ⟨grt, wq0, by decide, by decide, by decide⟩,
   ⟨asleep (queued qpair), qpair, by decide, by decide, by decide⟩, ⟨queued qpair, qpair, by decide, by decide, by decide, by decide, by decide⟩,
   ⟨asleep (queued qpair), qpair, by decide, by decide, by decide, by decide⟩,
   ⟨queued qpair, qpair, by decide, by decide, by decide, by decide, by decide, by decide, by decide⟩,
   ⟨queued { qpair with error := true }, { qpair with error := true }, by decide, by decide, by decide, by decide, by decide, by decide⟩,
   ⟨nic.setFns [(2, { hp := 0, pf := 2, dstate := .d1 })], by decide, by decide, by decide⟩, ⟨nic, by decide, by decide, by decide⟩⟩

theorem test_witness_transport_turned_away :
    (∃ (s : State) (q : Wq) (wr : GrtWr), s.tel.frozen = false ∧ wqOf s 0 = some q ∧ q.unread = [] ∧ fnServed s q.owner = true ∧
      wr.flags.testBit 2 = true ∧ wr.trigCtr < 64 ∧ lookD q.ctrs wr.trigCtr 0 < wr.threshold ∧ 4096 ≤ q.parked.length) ∧
    (∃ (s : State) (q : Wq) (c : Conn) (wr : GrtWr), s.tel.frozen = false ∧ wqOf s 0 = some q ∧ q.unread = [] ∧ fnServed s q.owner = true ∧
      wr.flags.testBit 2 = false ∧ connOf s wr.conn = some c ∧ c.wq ≠ 0) ∧
    (∃ (s : State) (a : GrtArrival) (c : Conn), s.tel.frozen = false ∧ isolated s blkTransport = false ∧ connOf s (arrived a).dst = some c ∧
      c.state = 1 ∧ (arrived a).ver = c.version ∧ rxStopped s c false = true ∧ c.rnr = 0) ∧
    (∃ (s : State) (a : GrtArrival) (c : Conn), s.tel.frozen = false ∧ connOf s (arrived a).dst = some c ∧
      c.state = 1 ∧ (arrived a).ver = c.version ∧ rxStopped s c false = false ∧ psnOld c (arrived a).psn = true) :=
  ⟨⟨transport conn1 { wq0 with parked := List.replicate 4096 (wr1, none) }, { wq0 with parked := List.replicate 4096 (wr1, none) },
     { wr1 with flags := 4, trigCtr := 63, threshold := 1 }, by decide, rfl, rfl, by decide, by decide, by decide, by decide, by decide +kernel⟩,
   ⟨transport { conn1 with wq := 3 } wq0, wq0, { conn1 with wq := 3 }, wr1, by decide, by decide, by decide, by decide, by decide, by decide, by decide⟩,
   ⟨grt.setFns [(0, { fnD grt 0 with dstate := .d3hot })], .grt (grtBytes { rx 1 [] with ver := 2 }) false, conn1, by decide, by decide, by decide, by decide,
     by decide, by decide, by decide⟩,
   ⟨transport { conn1 with cum := 300 } wq0, .grt (grtBytes { rx 1 [] with ver := 2, psn := 300 }) false, { conn1 with cum := 300 }, by decide, by decide, by decide,
     by decide, by decide, by decide⟩⟩

/-- A hashed table whose keys lie in frame 11, with the channel of that frame retraining or its controller isolated. -/
def hashedKeys : State := hashedState.setMem { hashedState.mem with blocks := [{ table := 0, region := 3, index := 0, frame := some 11 }] }
/-- A course that pauses for a staged policy. -/
def courseDrain : State :=
  coursePart.setIcp { coursePart.icp with
    stage := [{ owner := ownerFor via, otype := 7, handle := 0, config := [] }],
    waits := [{ via := via, pkt := packet 16 [(0, 1, 1), (4, 4, 100)], kind := .drain }],
    commits := [{ owner := ownerFor via, via := via, bound := 100, start := 0 }] }

theorem test_witness_rows_that_wait :
    (∃ (s : State) (t : Tbl), tblOf s 0 = some t ∧ keysIsolated s 0 t 1 = true) ∧
    (∃ (s : State) (t : Tbl), tblOf s 0 = some t ∧ keysIsolated s 0 t 1 = false ∧ keysRetrain s 0 t 1 = true) ∧
    (∃ (s : State) (t : Tbl), tblOf s 0 = some t ∧ t.hashed = false ∧ rowRef s 0 t 1 = .row 1 ∧ badRow t 1 = none ∧ rowIsolated s 0 t [0] 1 = false ∧
      rowPlaced s 0 t 0 1 = true ∧ rowRetrains s 0 t [0] 1 = true) ∧
    (∃ (s : State) (t : Tbl), tblOf s 0 = some t ∧ t.hashed = false ∧ rowRef s 0 t 1 = .row 1 ∧ badRow t 1 = none ∧ rowIsolated s 0 t [0] 1 = false ∧
      rowPlaced s 0 t 0 1 = true ∧ rowRetrains s 0 t [0] 1 = false) :=
  ⟨⟨hashedKeys.setErr [(blkMc (frameChan hashedKeys 11 / 16), { isolated := true })], tblD hashedKeys 0, by decide, by decide +kernel⟩,
   ⟨hashedKeys.setMem { hashedKeys.mem with retraining := [frameChan hashedKeys 11] }, tblD hashedKeys 0, by decide, by decide +kernel, by decide +kernel⟩,
   ⟨tables.setMem { tables.mem with retraining := [frameChan tables 10] }, table, by decide, by decide, by decide, by decide, by decide, by decide, by decide⟩,
   ⟨tables, table, by decide, by decide, by decide, by decide, by decide, by decide, by decide⟩⟩

theorem test_witness_course_held :
    (∃ s : State, s.tel.frozen = false ∧ coursePaused s = true ∧ running s = true ∧ periodicHere s = true) ∧
    (∃ s : State, s.tel.frozen = false ∧ coursePaused s = true ∧ 5 ≠ deviceIndex s ∧ fenceRoot s = true) ∧
    (∃ s : State, s.tel.frozen = false ∧ coursePaused s = false ∧ running s = true ∧ periodicHere s = true) ∧
    (∃ s : State, s.tel.frozen = false ∧ nextPull s = some region1 ∧ courseLive s = true ∧ stagingFull s = true) ∧
    (∃ s : State, s.tel.frozen = false ∧ nextPull s = some region1 ∧ courseLive s = true ∧ stagingFull s = false) ∧
    (∃ s : State, s.tel.frozen = false ∧ courseLive s = true ∧ (crun s).id = 8 ∧ (crun s).commitSent = true ∧ fenceRoot s = false ∧
      courseLive (writeEverywhere [1] (liveDests s) s).2 = true) ∧
    (∃ s : State, s.tel.frozen = false ∧ courseLive s = true ∧ (crun s).id = 8 ∧ (crun s).commitSent = true ∧ fenceRoot s = false ∧
      courseLive (writeEverywhere [1] (liveDests s) s).2 = false) :=
  let pulling := fun (n : Nat) =>
    let s := withAccel (openCourse { course8 with status := 2, closed := [0] })
    s.setCourse { s.course with regions := [region1], policy := { s.course.policy with stagingGib := n } }
  let committing := member (openCourse { course8 with status := 3, commitSent := true })
  ⟨⟨courseDrain, by decide, by decide, by decide, by decide⟩, ⟨courseDrain, by decide, by decide, by decide, by decide⟩,
   ⟨coursePart, by decide, by decide, by decide, by decide⟩, ⟨pulling 0, by decide, by decide, by decide, by decide⟩,
   ⟨pulling 1, by decide, by decide, by decide, by decide⟩, ⟨committing, by decide, by decide, by decide, by decide, by decide, by decide⟩,
   ⟨committing.setCourse { committing.course with policy := { committing.course.policy with dests := [{ type := 1, id := 5, areaGib := 0 }] } },
     by decide, by decide, by decide, by decide, by decide, by decide⟩⟩

theorem test_witness_lost_keys :
    (∃ (s : State) (e : Key), s.mem.sramDue.contains (sramCode 33 2 5 true) = true ∧ s.mem.vaultLost.contains (sramCode 33 2 5 true, 3) = true ∧
      look s.sec.keys 3 = some e ∧ e.material = none ∧ e.sealedCopy = some 7) ∧
    (∃ (s : State) (e : Key), keyOf s 3 = some e ∧ e.material = some 7) ∧ blkCipher < 61 ∧
    (∃ s : State, s.mem.retraining.contains 21 = true ∧ s.mem.heldAcc = []) ∧
    (∃ s : State, s.mem.retraining.contains 21 = true ∧ s.mem.heldAcc ≠ []) :=
  ⟨⟨(up.setMem { up.mem with sramDue := [sramCode 33 2 5 true], vaultLost := [(sramCode 33 2 5 true, 3)] }).setSec { up.sec with keys := [(3, { kind := 1, sealedCopy := some 7 })] },
     { kind := 1, sealedCopy := some 7 }, by decide, by decide, by decide, by decide, by decide⟩,
   ⟨ up.setSec { up.sec with keys := [(3, { kind := 1, material := some 7 })] }, { kind := 1, material := some 7 }, by decide, by decide⟩, by decide,
   ⟨channelled.setMem { channelled.mem with retraining := [21] }, by decide, by decide⟩,
   ⟨channelled.setMem { channelled.mem with retraining := [21], heldAcc := [{ dpa := 0, len := 4 }] }, by decide, by decide⟩⟩

/-- Aperture entry 0 leads to frame 0, and a ring's page to frame 5. -/
def reached : State := withAperture (2 ^ 63 + 2 ^ 62)
/-- A VF to be restored, with its queue pairs. -/
def movedIn (q : List (Nat × Cqp)) : MigImage :=
  { fn := vf, ring := {}, cqps := q, nicQps := [], ctrl := {}, conns := [], wqs := [], mrs := [], tables := [], kernels := [] }

theorem test_witness_host_and_functions :
    (∃ s : State, running s = true ∧ s.tel.frozen = false ∧ (fnD s (pfId 0 0)).dstate = .d0 ∧ (aptOf s 0 0).testBit 63 = true ∧ (aptOf s 0 0).testBit 62 = true ∧
      courseLive s = false ∧ rangeHeld s (aptBase (aptOf s 0 0)) 4 = true) ∧
    (∃ s : State, running s = true ∧ s.tel.frozen = false ∧ (fnD s (pfId 0 0)).dstate = .d0 ∧ (aptOf s 0 0).testBit 63 = true ∧ (aptOf s 0 0).testBit 62 = true ∧
      courseLive s = false ∧ rangeHeld s (aptBase (aptOf s 0 0)) 4 = false) ∧
    (∃ (s : State) (d : Nat), running s = true ∧ s.tel.frozen = false ∧ (fnD s (pfId 0 0)).dstate = .d0 ∧ regionByte s 0 0x3000 = some d ∧ rangeHeld s d 4 = true) ∧
    (∃ (s : State) (d : Nat), running s = true ∧ s.tel.frozen = false ∧ (fnD s (pfId 0 0)).dstate = .d0 ∧ regionByte s 0 0x3000 = some d ∧ rangeHeld s d 4 = false) ∧
    (∃ s : State, running s = true ∧ s.tel.frozen = false ∧ (0x4000000 : Nat) < 0x10000000) ∧
    (∃ s : State, (fnD s 1).crs = true ∧ isPf 1 = true) ∧
    (∃ s : State, numbersFree s (movedIn [(5, qpair)]) = true) ∧ (∃ s : State, numbersFree s (movedIn [(0, qpair)]) = false) :=
  ⟨⟨reached.setMem { reached.mem with retraining := [frameChan reached 0] }, by decide, by decide, by decide, by decide, by decide, by decide, by decide⟩,
   ⟨reached, by decide, by decide, by decide, by decide, by decide, by decide, by decide⟩,
   ⟨reached.setMem { reached.mem with retraining := [frameChan reached 5] }, 5 * frameBytes, by decide, by decide, by decide, by decide, by decide⟩,
   ⟨reached, 5 * frameBytes, by decide, by decide, by decide, by decide, by decide⟩, ⟨up, by decide, by decide, by decide⟩,
   ⟨withPf { crs := true }, by decide, by decide⟩, ⟨queued qpair, by decide⟩, ⟨queued qpair, by decide⟩⟩

theorem test_witness_errors_and_registers :
    (∃ s : State, (pbOf s (5 / 4)).role = 2) ∧ (∃ s : State, (pbOf s (5 / 4)).role ≠ 2) ∧
    (∃ s : State, isAccel 0 = false ∧ ringThere s 0 = true ∧ 5 < 4 * vectorCount 0 ∧ ∀ e ∈ s.ports.msixPending, e.1 = 0 → msixMasked s 0 e.2 = true) ∧
    (∃ s : State, running s = true ∧ (fnD s (pfId 0 0)).dstate = .d0) ∧ (∃ s : State, ringThere s 0 = false) ∧
    (∃ s : State, jtagReads s (scratchDpa 0) = true ∧ badScratch s (scratchDpa 0) 4 = true) :=
  ⟨⟨up.setPorts { up.ports with blocks := [(1, { role := 2 })] }, by decide⟩, ⟨up, by decide⟩,
   ⟨(withSession up).setPorts { up.ports with msixPending := [(0, 1)], msix := [(7, 1)] }, by decide, by decide, by decide, by decide⟩,
   ⟨up, by decide, by decide⟩, ⟨State.reset, by decide⟩,
   ⟨((masonOf (thread [])).setSec { up.sec with jtag := 2 }).setMem { up.mem with badWords := [scratchDpa 0] }, by decide, by decide⟩⟩

theorem test_witness_spdm_errors :
    (∃ s : State, running s = true ∧ 3 ≤ (spdmOf s 2 0).stage ∧ (1, true) ∈ (spdmOf s 2 0).sessions) ∧
    (∃ s : State, running s = true ∧ 3 ≤ (spdmOf s 0 0).stage ∧ s.sec.identity = true ∧ 2 ≤ spdmSessions s 0) ∧
    (∃ s : State, running s = true ∧ 3 ≤ (spdmOf s 0 0).stage ∧ (1, true) ∈ (spdmOf s 0 0).sessions ∧ ideOf s 0 9 = none ∧
      8 ≤ (s.sec.ide.filter (fun y => y.hp == 0)).length) ∧
    (∃ s : State, running s = true ∧ 3 ≤ (spdmOf s 0 0).stage ∧ (5, false) ∉ (spdmOf s 0 0).sessions) ∧
    (∃ s : State, footing s = false ∧ running s = false) ∧ (∃ s : State, s.sec.provisionKey = true) ∧ (∃ s : State, s.sec.provisionKey = false) :=
  ⟨⟨attesting true { talking with mailbox := 2 } [], by decide, by decide, by decide⟩, ⟨attesting true talking [], by decide, by decide, by decide, by decide⟩,
   ⟨attesting true talking ((List.range 8).map (fun i => { hp := 0, stream := i })), by decide, by decide, by decide, by decide, by decide⟩,
   ⟨attesting true talking [], by decide, by decide, by decide⟩, ⟨State.reset, by decide, by decide⟩,
   ⟨up.setSec { up.sec with provisionKey := true }, by decide⟩, ⟨up.setSec { up.sec with provisionKey := false }, by decide⟩⟩

theorem test_witness_port_b_stores :
    (∃ (s : State) (th : Nat) (c : TCtx) (io : MemIo) (k a p : Nat) (u : ClusterSt), Issues s th 4 c ∧ io.rival = some k ∧ k ≠ thCluster c.th ∧
      resolve (memFaults c io s) c (getS c.t 1) 8 1 = some (.scratch a) ∧ physCluster (memFaults c io s) k = some (p, u)) ∧
    (∃ (s : State) (th : Nat) (c : TCtx), Issues s th 4 c ∧ (getS c.t 1).toNat % 8 = 0 ∧ resolve s c (getS c.t 1) 8 2 = none) :=
  ⟨⟨(masonOf (thread [(1, w2)])).setMason { (masonOf (thread [(1, w2)])).mason with units := [(0, cluster), (1, { cluster with logical := 1 })] }, 0, ctxOf (thread [(1, w2)]),
     { rival := some 1 }, 1, _, _, _, ⟨rfl, by simp [ctxOf, thread, kernel]⟩, by decide, by decide, rfl, rfl⟩,
   ⟨_, _, _, issues [(1, 0x1000000000000000)], by decide, by decide⟩⟩

end Sys2Proof.Tests
end

