-- ==== Sys2Proof/Tests/Power.lean ====
section
/-! SUPPORT. States that meet the hypotheses of the statements about power, temperature and pads (chapters 16 and 17), clause by clause. -/

namespace Sys2Proof.Tests

set_option Elab.async false

open Sys2Proof Sys2Proof.Machine

/-- A running part whose firmware has taken power control over, with one cluster up at P3. -/
def powered (f : Power → Power) : State :=
  let s := up.setMason { up.mason with units := [(0, cluster)] }
  s.setPwr (f { s.pwr with fallback := false, islands := [(0, { point := 3, mhz := 1000 }), (0x40, { mhz := 1000 })] })
/-- A part with one conditioned input. -/
def withInput (i : Nat) (x : Input) : State := up.setPins { up.pins with inputs := [(i, x)] }

theorem test_witness_PowerThermalAndPadEvents :
    (∃ s : State, loopsRun s = false) ∧ (∃ s : State, loopsRun s = true ∧ isolated s blkPower = true) ∧
    (∃ (s : State) (mw : Nat), loopsRun s = true ∧ isolated s blkPower = false ∧ s.pwr.nextCap.getD s.pwr.capW * 1000 < mw ∧ s.pwr.engaged ≤ 10 ∧
      pinHeld s = false ∧ 0 ∈ clustersUp s ∧ (islandOf s 0).hot = false) ∧
    (∃ (s : State) (v : Nat), loopsRun s = true ∧ isolated s blkPower = false ∧ isCluster 0 = true ∧ tempTarget s < v) ∧
    (∃ (s : State) (v : Nat), loopsRun s = true ∧ v + 24 = tempTarget s ∧ (islandOf s 0).cool + 1 < 10) ∧
    (∃ (s : State) (v : Nat), loopsRun s = true ∧ v + 24 = tempTarget s ∧ 9 ≤ (islandOf s 0).cool) ∧
    (∃ (s : State) (v : Nat), loopsRun s = true ∧ v = tempTarget s ∧ tempTarget s < v + 24) ∧
    (∃ s : State, loopsRun s = true ∧ isolated s blkPower = false ∧ isCluster 0 = true ∧ (islandOf s 0).hot = false ∧ pinHeld s = false) ∧
    (∃ s : State, loopsRun s = true ∧ isolated s blkPower = false ∧ isCluster 0x40 = false ∧ isEngine 0x40 = true ∧ (islandOf s 0x40).hot = false) ∧
    (∃ s : State, s.boot.inReset = true) ∧ allIslands.contains 0x11 = false ∧
    (∃ s : State, s.boot.inReset = false ∧ allIslands.contains 0x10 = true ∧ (islandOf s 0).hot = true ∧ isCluster 0x10 = true ∧ isCluster 0x40 = false) ∧
    (∃ s : State, s.pwr.tripped = true) ∧ (∃ s : State, s.boot.inReset = false ∧ s.pwr.tripped = false) ∧
    (∃ s : State, s.pwr.standby = true) ∧ (∃ s : State, s.pwr.fallback = false) ∧
    (∃ (s : State) (n : Nat), s.pwr.fallback = true ∧ s.boot.inReset = false ∧ s.tel.frozen = false ∧ s.pwr.capW * 1000 < n) ∧
    (∃ (s : State) (n : Nat), s.pwr.fallback = true ∧ s.boot.inReset = false ∧ s.tel.frozen = false ∧ n = s.pwr.capW * 900) ∧
    (∃ (s : State) (n : Nat), s.pwr.fallback = true ∧ s.boot.inReset = false ∧ s.tel.frozen = false ∧ n < s.pwr.capW * 900 ∧ (islandOf s 0).held = true) ∧
    (∃ (s : State) (n : Nat), s.pwr.fallback = true ∧ s.boot.inReset = false ∧ s.tel.frozen = false ∧ n < s.pwr.capW * 900 ∧ (islandOf s 0).held = false ∧
      pinHeld s = false ∧ (islandOf s 0).fwPoint < (islandOf s 0).point) ∧
    (∃ s : State, s.pwr.diodeState ≠ 0) ∧ (∃ s : State, s.boot.inReset = false ∧ s.pwr.throttlePin = false) ∧
    (∃ s : State, running s = true ∧ standbyReady s = true) ∧ (∃ s : State, running s = true ∧ standbyReady s = false) ∧
    (∃ s : State, (inputOf s 22).recorded = true ∧ nowAon s < (inputOf s 22).lastEvent + 10000 ∧ s.boot.inReset = false) ∧
    (∃ s : State, (inputOf s 22).recorded = false ∧ s.boot.inReset = false ∧ (inputOf s 22).active = false) ∧
    (∃ s : State, (inputOf s 22).due = true ∧ s.boot.inReset = false) ∧ (∃ s : State, (inputOf s 22).due = false) ∧
    (∃ s : State, (inputOf s 22).active = true ∧ (inputOf s 22).stuck = false) ∧ (∃ s : State, (inputOf s 22).stuck = true ∧ (inputOf s 22).active = false) ∧
    (∃ s : State, (tamperInput s).active = true) ∧ (∃ s : State, (tamperInput s).active = false) ∧ (∃ s : State, s.boot.inReset = false ∧ faultAsserted s = true) :=
  ⟨⟨.reset, by decide⟩, ⟨(powered id).setErr [(blkPower, { isolated := true })], by decide, by decide⟩,
   ⟨powered id, 600001, by decide, by decide, by decide, by decide, by decide, by decide, by decide⟩,
   ⟨powered id, 721, by decide, by decide, by decide, by decide⟩, ⟨powered id, 696, by decide, by decide, by decide⟩,
   ⟨powered (fun p => { p with islands := [(0, { cool := 9 })] }), 696, by decide, by decide, by decide⟩, ⟨powered id, 720, by decide, by decide, by decide⟩,
   ⟨powered id, by decide, by decide, by decide, by decide, by decide⟩, ⟨powered id, by decide, by decide, by decide, by decide, by decide⟩, ⟨.reset, rfl⟩,
   by decide, ⟨powered (fun p => { p with islands := [(0, { hot := true })] }), rfl, by decide, by decide, by decide, by decide⟩,
   ⟨powered (fun p => { p with tripped := true }), rfl⟩, ⟨up, rfl, rfl⟩, ⟨powered (fun p => { p with standby := true }), rfl⟩, ⟨powered id, rfl⟩,
   ⟨up, 600001, rfl, rfl, rfl, by decide⟩, ⟨up, 540000, rfl, rfl, rfl, by decide⟩,
   ⟨powered (fun p => { p with fallback := true, islands := [(0, { held := true })] }), 0, rfl, rfl, rfl, by decide, by decide⟩,
   ⟨up, 0, rfl, rfl, rfl, by decide, by decide, by decide, by decide⟩, ⟨powered (fun p => { p with diodeState := 1 }), by decide⟩, ⟨up, rfl, rfl⟩,
   ⟨up.setFns [(0, { dstate := .d3hot })], by decide, by decide⟩, ⟨up, by decide, by decide⟩,
   ⟨withInput 22 { recorded := true, lastEvent := 5 }, by decide, by decide, rfl⟩, ⟨up, by decide, rfl, by decide⟩,
   ⟨withInput 22 { due := true }, by decide, rfl⟩, ⟨up, by decide⟩, ⟨withInput 22 { active := true }, by decide, by decide⟩,
   ⟨withInput 22 { stuck := true }, by decide, by decide⟩, ⟨withInput 20 { active := true }, by decide⟩, ⟨up, by decide⟩,
   ⟨up.setTel { up.tel with faultHold := true }, rfl, by decide⟩⟩

end Sys2Proof.Tests
end

