-- ==== Sys2Proof/Tests/Protocol.lean ====
section
/-! SUPPORT. States and packets that meet the hypotheses of the statements about the command protocol (chapter 2), clause by clause. -/

namespace Sys2Proof.Tests

set_option Elab.async false

open Sys2Proof Sys2Proof.Machine

/-- The part with its session. -/
def icp : State := withSession up
/-- A part on which a command of that session waits. -/
def waiting : State := icp.setIcp { icp.icp with waits := [{ via := via, pkt := {}, kind := .destroy }] }
/-- A policer's block staged: number 1, rate 100 Mb/s. -/
def policer : Bytes := layout 32 [(0, 2, 1), (4, 4, 100), (8, 4, 20000), (0xC, 4, 100), (0x10, 4, 20000)]
def stagePolicer : IcpPkt := { packet 48 [] with params := layout 16 [(0, 2, 5), (4, 4, 1), (8, 2, 32)] ++ policer }
def staged : State := icp.setIcp { icp.icp with stage := [{ owner := ownerFor via, otype := 5, handle := 1, config := policer }] }
/-- A gate list staged, which flips at the end of a cycle. -/
def stagedGate : State :=
  let s := icp.setIcp { icp.icp with stage := [{ owner := ownerFor via, otype := 6, handle := 0, config := layout 32 [(0, 1, 0), (1, 1, 1), (16, 4, 1000)] }] }
  s.setPp { s.pp with en := [(0, {})] }
/-- A DRAIN commit under way. -/
def draining : State :=
  staged.setIcp { staged.icp with
    waits := [{ via := via, pkt := packet 16 [(0, 1, 1), (4, 4, 100)], kind := .drain }],
    commits := [{ owner := ownerFor via, via := via, bound := 100, start := 0 }] }

/-- The same commit with one object of another type. -/
def drainingOf (t handle : Nat) (config : Bytes) : State :=
  draining.setIcp { draining.icp with stage := [{ owner := ownerFor via, otype := t, handle := handle, config := config }] }

theorem test_witness_IcpSessionsOpenRenewAndEnd :
    (∃ (via : Via) (pkt : IcpPkt) (s s0 : State) (c : Ctx), let before := if (sessionOf s0 via).isSome then endSession via s0 else s0;
      Starts 0x0000 via pkt s c s0 ∧ waitsOf s0 via = [] ∧ commonMajor s0 (listed c) = some 3 ∧ sessionsFull before via = false) ∧
    (∃ (via : Via) (pkt : IcpPkt) (s s0 : State) (c : Ctx), Starts 0x0000 via pkt s c s0 ∧ waitsOf s0 via = [] ∧ commonMajor s0 (listed c) = none) ∧
    (∃ (via : Via) (pkt : IcpPkt) (s s0 : State) (c : Ctx), Starts 0x0001 via pkt s c s0 ∧ waitsOf s0 via = []) ∧
    (∃ (via : Via) (pkt : IcpPkt) (s s0 : State) (c : Ctx), Starts 0x0003 via pkt s c s0 ∧ waitsOf s0 via = []) ∧
    (∃ (via : Via) (pkt : IcpPkt) (s s0 : State) (c : Ctx), Starts 0x0003 via pkt s c s0 ∧ waitsOf s0 via ≠ []) ∧
    (∃ (via : Via) (pkt : IcpPkt) (s s0 : State) (c : Ctx), Starts 0x0100 via pkt s c s0) ∧
    (∃ (s : State), (sessionOf s (.mgmt 3)).isSome = true) ∧
    (∃ (via : Via) (pkt : IcpPkt) (s s0 : State) (c : Ctx) (f : Fn), Starts 0x0002 via pkt s c s0 ∧ look s0.fns 0 = some f) ∧
    (∃ (via : Via) (pkt : IcpPkt) (s s0 : State) (c : Ctx), Starts 0x0000 via pkt s c s0 ∧ waitsOf s0 via = [] ∧ commonMajor s0 (listed c) = some 2) :=
  ⟨⟨via, packet 56 [(0, 1, 1), (4, 1, 3), (5, 1, 1), (0x28, 8, 63)], icp, _, _, starts_of (by decide), by decide, by decide, by decide⟩,
   ⟨via, packet 56 [(0, 1, 1), (4, 1, 7)], icp, _, _, starts_of (by decide), by decide, by decide⟩,
   ⟨via, packet 0 [], icp, _, _, starts_of (by decide), by decide⟩,
   ⟨via, packet 0 [], icp, _, _, starts_of (by decide), by decide⟩,
   ⟨via, packet 0 [], waiting, _, _, starts_of (by decide), by decide⟩,
   ⟨via, packet 0 [], icp, _, _, starts_of (by decide)⟩,
   ⟨up.setIcp { up.icp with sessions := [(.mgmt 3, { sid := 1, major := 3, minor := 1 })] }, by decide⟩,
   ⟨.ring 0, ringPacket 8 [(0, 4, 5000)], ringSession up, _, _, fnD (ringSession up) 0, starts_ring (by decide), rfl⟩,
   ⟨.ring 0, ringPacket 56 [(0, 1, 1), (4, 1, 2)], ringSession up, _, _, starts_ring (by decide), by decide, by decide⟩⟩

theorem test_witness_StagedConfigurationCommitsOrAborts :
    (∃ (via : Via) (pkt : IcpPkt) (s s0 : State) (c : Ctx), let config := (c.params.drop 16).take 32; let d := stageCtx c 5 config;
      Starts 0x0110 via pkt s c s0 ∧ c.p 0 2 = 5 ∧ c.p 8 2 = 32 ∧ handleAgrees 5 (c.p 4 4) d = true ∧ statusOf (runStaged c 5 config s0) = stOk ∧
        committing s0 (ownerFor via) = false) ∧
    (∃ (via : Via) (pkt : IcpPkt) (s s0 : State) (c : Ctx), Starts 0x0111 via pkt s c s0 ∧ c.p 0 1 = 0 ∧ committing s0 (ownerFor via) = false ∧
      (applyStage true c (stageSet s0 (ownerFor via)) s0).2 = none ∧ unflipped (applyStage true c (stageSet s0 (ownerFor via)) s0).1 (ownerFor via) = false) ∧
    (∃ (via : Via) (pkt : IcpPkt) (s s0 : State) (c : Ctx), Starts 0x0111 via pkt s c s0 ∧ c.p 0 1 = 0 ∧ committing s0 (ownerFor via) = false ∧
      (applyStage true c (stageSet s0 (ownerFor via)) s0).2 = none ∧ unflipped (applyStage true c (stageSet s0 (ownerFor via)) s0).1 (ownerFor via) = true) ∧
    (∃ (via : Via) (pkt : IcpPkt) (s s0 : State) (c : Ctx), Starts 0x0111 via pkt s c s0 ∧ c.p 0 1 = 1 ∧ committing s0 (ownerFor via) = false ∧
      (applyStage false c (stageSet s0 (ownerFor via)) s0).2 = none) ∧
    (∃ (via : Via) (pkt : IcpPkt) (s s0 : State) (c : Ctx), Starts 0x0112 via pkt s c s0 ∧ committing s0 (ownerFor via) = false) ∧
    (∃ (s : State) (w : Waiter) (k : Commit), commitOf s via .drain = some (w, k) ∧ courseWork s (stageSet s k.owner) = false ∧
      (applyStage false { waitCtx s w with pkt := { (waitCtx s w).pkt with flags := 0 } } (stageSet s k.owner) s).2 = none) ∧
    (∃ (s : State) (w : Waiter) (k : Commit), commitOf s via .drain = some (w, k) ∧ courseWork s (stageSet s k.owner) = true) ∧
    (∃ (s : State) (w : Waiter) (k : Commit), commitOf s via .drain = some (w, k) ∧ courseWork s (stageSet s k.owner) = false ∧
      (applyStage false { waitCtx s w with pkt := { (waitCtx s w).pkt with flags := 0 } } (stageSet s k.owner) s).2 ≠ none) :=
  ⟨⟨via, stagePolicer, icp, _, _, starts_of (by decide), by decide, by decide, by decide, by decide, by decide⟩,
   ⟨via, withByte 0 (fun _ => 0) (packet 16 [(4, 4, 100)]), staged, _, _, starts_of (by decide), by decide, by decide, by decide, by decide⟩,
   ⟨via, withByte 0 (fun _ => 0) (packet 16 [(4, 4, 100)]), stagedGate, _, _, starts_of (by decide), by decide, by decide, by decide, by decide⟩,
   ⟨via, withByte 0 (fun _ => 1) (packet 16 [(4, 4, 100)]), staged, _, _, starts_of (by decide), by decide, by decide, by decide⟩,
   ⟨via, packet 0 [], staged, _, _, starts_of (by decide), by decide⟩,
   ⟨draining, { via := via, pkt := packet 16 [(0, 1, 1), (4, 4, 100)], kind := .drain },
     { owner := ownerFor via, via := via, bound := 100, start := 0 }, by decide, by decide, by decide⟩,
   ⟨(drainingOf 8 0 []).setCourse { icp.course with run := some { id := 1, step := 0 } },
     { via := via, pkt := packet 16 [(0, 1, 1), (4, 4, 100)], kind := .drain },
     { owner := ownerFor via, via := via, bound := 100, start := 0 }, by decide, by decide⟩,
   ⟨drainingOf 8 77 (layout 64 [(0, 4, 77)]), { via := via, pkt := packet 16 [(0, 1, 1), (4, 4, 100)], kind := .drain },
     { owner := ownerFor via, via := via, bound := 100, start := 0 }, by decide, by decide, by decide⟩⟩

theorem test_witness_RejectedCommandsChangeNothing :
    (∃ (s : State), icpCheck 0x0300 via (packet 128 []) s = some (stConflict, dtNoSession)) ∧
    (∃ (s : State), icpCheck 0x0100 via { packet 0 [] with flags := 2 } s = none ∧
      flagBit ({ packet 0 [] with flags := 2 } : IcpPkt).flags 1 = true) ∧
    (∃ (s : State), icpCheck 0x0100 via { packet 0 [] with fwFault := true } s = none) ∧
    (∃ (s : State), ∀ i < 4096, accelRingByte s 0x4000 true (4096 * (ringOf s 0x4000).rplProd + i) ≠ some 5) :=
  ⟨⟨up, by decide⟩,
   ⟨icp, by decide, by decide⟩, ⟨icp, by decide⟩, ⟨up, fun _ _ h => by cases h⟩⟩

/-- The ring of the accelerator endpoint on link 0 of port block 0. -/
def accelUp : State := up.setRings [(0x4000, { cmdLog2 := 6, rplLog2 := 6, enable := true, ready := true })]

theorem test_witness_RingsAndPortsTakeTheirPackets :
    (∃ (s : State), ringThere s 0x1000 = false) ∧
    (∃ (s : State), ringThere s 0 = true ∧ isAccel 0 = false ∧ (15 : Nat) < 2 ^ (ringOf s 0).cmdLog2 ∧ 2 ^ (ringOf s 0).rplLog2 ≤ 16) ∧
    (∃ (s : State), transportServed s (.mgmt 1) = false) ∧
    (∃ (s : State), transportServed s (.mgmt 1) = true) ∧
    (∃ (s : State) (r : IcpReply), transportServed s (.mgmt 3) = true ∧ s.icp.paused = false ∧ keptReply s (.mgmt 3) 5 = some r) ∧
    (∃ (s : State), transportServed s via = true ∧ keptReply s via 0 = none ∧
      mustHold (touchSession via s) via { packet 0 [] with flags := 1 } = true) ∧
    (∃ (via : Via) (pkt : IcpPkt) (s s0 : State) (c : Ctx), Starts 0x0100 via pkt s c s0 ∧ statusOf (handlerOf 0x0100 c s0) = stOk) ∧
    (∃ (via : Via) (pkt : IcpPkt) (s s0 : State) (c : Ctx), Starts 0x0003 via pkt s c s0 ∧ statusOf (handlerOf 0x0003 c s0) = 0xFFFF) ∧
    (∃ (s : State) (f : MgmtFrag), f.slot.bytes.length ≤ 4096 ∧ has s.icp.frags (3, f.v6, f.ident) = false ∧ f.port = 7141 ∧ f.offset = 0 ∧
      f.more = false ∧ transportServed s (.mgmt 3) = true ∧ s.icp.paused = false ∧ (icpPkt true f.slot).opcode = 0x0100) ∧
    (∃ (s : State) (f g : MgmtFrag), transportServed s (.mgmt 3) = true ∧ s.icp.paused = false ∧
      ((lookD s.icp.frags (3, f.v6, f.ident) {}).add f).payload = none ∧ (((lookD s.icp.frags (3, f.v6, f.ident) {}).add f).add g).payload = some [1, 2]) ∧
    (∃ (s : State), ringThere s 0x4000 = true ∧ isAccel 0x4000 = true ∧ (1 : Nat) < 2 ^ (ringOf s 0x4000).cmdLog2) :=
  ⟨⟨up, by decide⟩,
   ⟨up, by decide, by decide, by decide, by decide⟩,
   ⟨State.reset, by decide⟩,
   ⟨up.setIcp { up.icp with paused := true }, by decide⟩,
   ⟨up.setIcp { up.icp with sessions := [(.mgmt 3, { sid := 1, major := 3, minor := 1, kept := [{ tag := 5 }] })] }, { tag := 5 }, by decide,
     by decide, by decide⟩,
   ⟨waiting, by decide, by decide, by decide⟩,
   ⟨via, packet 0 [], icp, _, _, starts_of (by decide), by decide⟩,
   ⟨via, packet 0 [], waiting, _, _, starts_of (by decide), by decide⟩,
   ⟨up, { slot := { bytes := pktBytes true { packet 0 [] with opcode := 0x0100 } } }, by decide, by decide, by decide, by decide, by decide, by decide,
     by decide, by decide⟩,
   ⟨up, { more := true, slot := { bytes := [1] } }, { offset := 1, slot := { bytes := [2] } }, by decide, by decide, by decide, by decide⟩,
   ⟨accelUp, by decide, by decide, by decide⟩⟩

end Sys2Proof.Tests
end

