-- ==== Sys2Proof/WellFormed.lean ====
section
/-! DEFINITION. Which commands are well formed: every number names something of the kind its operand stands for. The meanings are total and
need none of this; it says which terms stand for a command that can arrive. -/

namespace Sys2Proof

/-- FUNCTION_ID of a PF or of a VF (R55). -/
def functionIdOk (n : Nat) : Bool := decide (n < 6 ∨ (0x1000 ≤ n ∧ n < 0x1400))

/-- FUNCTION_ID of a function or of an accelerator endpoint: what owns a command ring (R58, R66). -/
def ringOk (n : Nat) : Bool := functionIdOk n || decide (0x4000 ≤ n ∧ n < 0x4050)

/-- An island ID of R635. -/
def islandOk (n : Nat) : Bool :=
  decide (n ≤ 0x10 ∨ (0x20 ≤ n ∧ n ≤ 0x25) ∨ (0x30 ≤ n ∧ n ≤ 0x33) ∨ (0x38 ≤ n ∧ n ≤ 0x3F) ∨ (0x40 ≤ n ∧ n ≤ 0x47) ∨ n = 0x50)

/-- A transport endpoint. -/
def Via.wf : Via → Bool
  | .ring fn => functionIdOk fn
  | .mgmt _ => true
  | .mctp eid => decide (eid < 256)
  | .accel ep => decide (ep < 80)

/-- A command packet whose fields fit their widths (R53). -/
def IcpPkt.wf (p : IcpPkt) : Bool :=
  decide (p.major < 256 ∧ p.minor < 256 ∧ p.opcode < 65536 ∧ p.tag < 2 ^ 32 ∧ p.functionId < 65536 ∧ p.generation < 65536
    ∧ p.flags < 2 ^ 32 ∧ p.paramLen < 65536 ∧ p.sessionId < 2 ^ 32 ∧ p.room ≤ 4064 ∧ p.params.length ≤ 4064 ∧ p.headAfter = 0)

/-- A slot of 4 KiB, or a payload of at most 4,096 bytes (R58, R63). -/
def IcpSlot.wf (x : IcpSlot) : Bool := decide (x.bytes.length ≤ 4096)

/-- A fragment of a datagram: a port and a place of 16 bits. -/
def MgmtFrag.wf (x : MgmtFrag) : Bool := decide (x.port < 65536 ∧ x.offset < 65536 ∧ x.slot.bytes.length < 65536)

def Requester.wf : Requester → Bool
  | .host hp => decide (hp < 2)
  | .steward => true
  | .other => true
  | .jtag => true

/-- A register target within its space (R28, R58, R397). -/
def RegTarget.wf : RegTarget → Bool
  | .csr off => decide (off < 2 ^ 28)
  | .ring fn off => functionIdOk fn && decide (off < 0x18)
  | .winXlat hp n => decide (hp < 2 ∧ n < 16)
  | .config fn off => functionIdOk fn && decide (off < 4096)
  | .acs ep => decide (ep < 80)
  | .msix fn w => functionIdOk fn && decide (w < 8192)

/-- A command is well formed. -/
def Instr.wf : Instr → Bool
  | .hello via pkt => via.wf && pkt.wf
  | .goodbye via pkt => via.wf && pkt.wf
  | .leaseRenew via pkt => via.wf && pkt.wf
  | .flush via pkt => via.wf && pkt.wf
  | .getIdentity via pkt => via.wf && pkt.wf
  | .getStraps via pkt => via.wf && pkt.wf
  | .strapOverride via pkt => via.wf && pkt.wf
  | .getStartReport via pkt => via.wf && pkt.wf
  | .cfgStage via pkt => via.wf && pkt.wf
  | .cfgCommitRolling via pkt => via.wf && pkt.wf
  | .cfgCommitDrain via pkt => via.wf && pkt.wf
  | .drainComplete owner => owner.wf
  | .drainBoundExpiry owner => owner.wf
  | .cfgAbort via pkt => via.wf && pkt.wf
  | .powerCapSet via pkt => via.wf && pkt.wf
  | .tableCreate via pkt => via.wf && pkt.wf
  | .tableDestroy via pkt => via.wf && pkt.wf
  | .tableQuery via pkt => via.wf && pkt.wf
  | .cqpCreate via pkt => via.wf && pkt.wf
  | .cqpDestroy via pkt => via.wf && pkt.wf
  | .kernelLoad via pkt => via.wf && pkt.wf
  | .kernelUnload via pkt => via.wf && pkt.wf
  | .ruleRegister via pkt => via.wf && pkt.wf
  | .coursePolicySet via pkt => via.wf && pkt.wf
  | .courseOpen via pkt => via.wf && pkt.wf
  | .stepDone via pkt => via.wf && pkt.wf
  | .courseStatus via pkt => via.wf && pkt.wf
  | .courseAbort via pkt => via.wf && pkt.wf
  | .regionRegister via pkt => via.wf && pkt.wf
  | .regionDeregister via pkt => via.wf && pkt.wf
  | .tableCapturePolicy via pkt => via.wf && pkt.wf
  | .ledgerQuery via pkt => via.wf && pkt.wf
  | .restoreBegin via pkt => via.wf && pkt.wf
  | .shardMapLoad via pkt => via.wf && pkt.wf
  | .restoreStatus via pkt => via.wf && pkt.wf
  | .shardAdopt via pkt => via.wf && pkt.wf
  | .shrinkDone via pkt => via.wf && pkt.wf
  | .nsCreate via pkt => via.wf && pkt.wf
  | .nsDelete via pkt => via.wf && pkt.wf
  | .nsAttach via pkt => via.wf && pkt.wf
  | .nsDetach via pkt => via.wf && pkt.wf
  | .nsQuery via pkt => via.wf && pkt.wf
  | .ssdList via pkt => via.wf && pkt.wf
  | .nsMirrorSet via pkt => via.wf && pkt.wf
  | .portConfigBlock via pkt => via.wf && pkt.wf
  | .portConfigEthernet via pkt => via.wf && pkt.wf
  | .nicQpCreate via pkt => via.wf && pkt.wf
  | .nicQpDestroy via pkt => via.wf && pkt.wf
  | .portQueryBlock via pkt => via.wf && pkt.wf
  | .portQueryEthernet via pkt => via.wf && pkt.wf
  | .parseNodeWrite via pkt => via.wf && pkt.wf
  | .clsInsert via pkt => via.wf && pkt.wf
  | .clsDelete via pkt => via.wf && pkt.wf
  | .clsConfigure via pkt => via.wf && pkt.wf
  | .clsMissAction via pkt => via.wf && pkt.wf
  | .indirectionEntries via pkt => via.wf && pkt.wf
  | .indirectionProfile via pkt => via.wf && pkt.wf
  | .shaperSet via pkt => via.wf && pkt.wf
  | .policerSet via pkt => via.wf && pkt.wf
  | .gateListSet via pkt => via.wf && pkt.wf
  | .samplerSet via pkt => via.wf && pkt.wf
  | .grtConnCreate via pkt => via.wf && pkt.wf
  | .grtConnDestroy via pkt => via.wf && pkt.wf
  | .mrRegister via pkt => via.wf && pkt.wf
  | .mrRevoke via pkt => via.wf && pkt.wf
  | .grtConnQuery via pkt => via.wf && pkt.wf
  | .keyProvisionClear via pkt => via.wf && pkt.wf
  | .keyProvisionWrapped via pkt => via.wf && pkt.wf
  | .keyErase via pkt => via.wf && pkt.wf
  | .lifecycleTransition via pkt => via.wf && pkt.wf
  | .getCertChain via pkt => via.wf && pkt.wf
  | .securityStatus via pkt => via.wf && pkt.wf
  | .errQuery via pkt => via.wf && pkt.wf
  | .errAck via pkt => via.wf && pkt.wf
  | .counterSelect via pkt => via.wf && pkt.wf
  | .counterRead via pkt => via.wf && pkt.wf
  | .policySet via pkt => via.wf && pkt.wf
  | .policyLogRead via pkt => via.wf && pkt.wf
  | .fwStage via pkt => via.wf && pkt.wf
  | .fwActivateAtReset via pkt => via.wf && pkt.wf
  | .fwActivateResetNow via pkt => via.wf && pkt.wf
  | .fwActivateLive via pkt => via.wf && pkt.wf
  | .activationRetry => true
  | .activationDeferExpiry => true
  | .fwQuery via pkt => via.wf && pkt.wf
  | .fnCreate via pkt => via.wf && pkt.wf
  | .fnDestroy via pkt => via.wf && pkt.wf
  | .fnReset via pkt => via.wf && pkt.wf
  | .getFunctionState via pkt => via.wf && pkt.wf
  | .adoptQueues via pkt => via.wf && pkt.wf
  | .migFreeze via pkt => via.wf && pkt.wf
  | .migSave via pkt => via.wf && pkt.wf
  | .migRestore via pkt => via.wf && pkt.wf
  | .migResume via pkt => via.wf && pkt.wf
  | .dirtyLogStart via pkt => via.wf && pkt.wf
  | .dirtyLogStop via pkt => via.wf && pkt.wf
  | .diagStewardSelftest via pkt => via.wf && pkt.wf
  | .diagSpiFlashRead via pkt => via.wf && pkt.wf
  | .diagGddr7Training via pkt => via.wf && pkt.wf
  | .diagLinkTraining via pkt => via.wf && pkt.wf
  | .diagClusterSpareOut via pkt => via.wf && pkt.wf
  | .diagResult via pkt => via.wf && pkt.wf
  | .dumpRead via pkt => via.wf && pkt.wf
  | .cmdTail ring index slots => ringOk ring && decide (index < 2 ^ 32) && (slots.getD []).all (·.wf)
  | .rplHead ring index => ringOk ring && decide (index < 2 ^ 32)
  | .icpRingDisable fn => functionIdOk fn
  | .managementDatagram _ frag => frag.wf
  | .managementSessionIdle _ => true
  | .mctpMessage eid m => decide (eid < 256 ∧ m.type < 128 ∧ m.vendor < 65536) && m.slot.wf
  | .leaseExpiry fn => functionIdOk fn
  | .reclaimComplete fn => functionIdOk fn
  | .sqTail _ index _ _ => decide (index < 2 ^ 32)
  | .cqHead _ index => decide (index < 2 ^ 32)
  | .lookup _ _ _ => true
  | .lookupPool _ _ _ => true
  | .update _ _ _ => true
  | .readRows _ _ _ => true
  | .writeRows _ _ _ => true
  | .prefetch _ _ _ => true
  | .kernel _ _ _ => true
  | .forwardedIndex _ _ _ _ _ _ _ _ index _ _ => decide (index < 2 ^ 32)
  | .forwardResult _ _ _ _ _ _ => true
  | .heldDescriptorRelease _ => true
  | .repointRow _ _ _ _ => true
  | .repointTimeout _ _ => true
  | .courseOpenMessage _ _ _ _ _ _ => true
  | .fenceUp _ _ _ _ => true
  | .fenceRelease _ _ => true
  | .fenceClose _ _ => true
  | .fenceTimeout => true
  | .spillWaitRelease _ _ index => decide (index < 2 ^ 32)
  | .captureBlock _ => true
  | .shardWriteComplete _ _ => true
  | .shardWriteFailed _ _ => true
  | .regionPullComplete _ _ => true
  | .commitUp _ _ _ => true
  | .rootLedgerDurable _ => true
  | .commitRelease _ _ => true
  | .periodicCourse => true
  | .bucketBoundary => true
  | .earlyRequest _ _ _ => true
  | .ceAbortReq who _ => who.wf
  | .restoreChunkRead _ _ _ _ => true
  | .restoreSourceTimeout _ => true
  | .restoreComplete => true
  | .adoptRowRead _ _ _ _ => true
  | .adoptTimeout _ _ => true
  | .livenessSend => true
  | .liveness _ _ _ _ => true
  | .livenessTimeout _ => true
  | .memberFailed _ _ => true
  | .linkCrcFail mc channel _ => decide (mc < 6) && decide (channel < 16)
  | .channelRetrainDone mc channel _ => decide (mc < 6) && decide (channel < 16)
  | .poisonedBlockPlaced _ _ index => decide (index < 2 ^ 32)
  | .mcFenceReq who mc _ => who.wf && decide (mc < 6)
  | .scrubRead _ _ => true
  | .cxlLinkDown block link => decide (block < 20) && decide (link < 4)
  | .tierEpochEnd => true
  | .tierMoveComplete _ _ index => decide (index < 2 ^ 32)
  | .crossingMismatch _ x => decide (x.block < 61)
  | .sramRowSpared block _ _ _ => decide (block < 61)
  | .residueMismatch th _ => decide (th < 16384)
  | .registerParityFault th => decide (th < 16384)
  | .l1ParityRefetch cluster _ _ _ => decide (cluster < 17)
  | .clSpareReq who cluster _ => who.wf && decide (cluster < 17)
  | .coreSafePoint cluster _ => decide (cluster < 17)
  | .clusterSpareOut logical _ => decide (logical < 16)
  | .itemWatchdog th => decide (th < 16384)
  | .qMv th _ _ => decide (th < 16384)
  | .qAdd th _ _ => decide (th < 16384)
  | .qSub th _ _ => decide (th < 16384)
  | .qLdk th _ _ => decide (th < 16384)
  | .qAddk th _ _ => decide (th < 16384)
  | .qShlk th _ _ => decide (th < 16384)
  | .qLdD th _ _ _ _ => decide (th < 16384)
  | .qStD th _ _ _ _ => decide (th < 16384)
  | .qLdW th _ _ _ _ => decide (th < 16384)
  | .qStW th _ _ _ _ => decide (th < 16384)
  | .qBeqz th _ _ => decide (th < 16384)
  | .qBnez th _ _ => decide (th < 16384)
  | .qJmp th _ => decide (th < 16384)
  | .qJr th _ => decide (th < 16384)
  | .qHalt th => decide (th < 16384)
  | .qNop th => decide (th < 16384)
  | .add th _ _ _ => decide (th < 16384)
  | .sub th _ _ _ => decide (th < 16384)
  | .and th _ _ _ => decide (th < 16384)
  | .or th _ _ _ => decide (th < 16384)
  | .xor th _ _ _ => decide (th < 16384)
  | .shl th _ _ _ => decide (th < 16384)
  | .shr th _ _ _ => decide (th < 16384)
  | .sar th _ _ _ => decide (th < 16384)
  | .setlt th _ _ _ => decide (th < 16384)
  | .setltu th _ _ _ => decide (th < 16384)
  | .min th _ _ _ => decide (th < 16384)
  | .max th _ _ _ => decide (th < 16384)
  | .minu th _ _ _ => decide (th < 16384)
  | .maxu th _ _ _ => decide (th < 16384)
  | .addk th _ _ _ => decide (th < 16384)
  | .andk th _ _ _ => decide (th < 16384)
  | .ork th _ _ _ => decide (th < 16384)
  | .xork th _ _ _ => decide (th < 16384)
  | .setltk th _ _ _ => decide (th < 16384)
  | .setltuk th _ _ _ => decide (th < 16384)
  | .shlk th _ _ _ => decide (th < 16384)
  | .shrk th _ _ _ => decide (th < 16384)
  | .sark th _ _ _ => decide (th < 16384)
  | .ldi th _ _ => decide (th < 16384)
  | .ldis th _ _ => decide (th < 16384)
  | .ldB th _ _ _ _ => decide (th < 16384)
  | .ldH th _ _ _ _ => decide (th < 16384)
  | .ldW th _ _ _ _ => decide (th < 16384)
  | .ldD th _ _ _ _ => decide (th < 16384)
  | .ldBu th _ _ _ _ => decide (th < 16384)
  | .ldHu th _ _ _ _ => decide (th < 16384)
  | .ldWu th _ _ _ _ => decide (th < 16384)
  | .stB th _ _ _ _ => decide (th < 16384)
  | .stH th _ _ _ _ => decide (th < 16384)
  | .stW th _ _ _ _ => decide (th < 16384)
  | .stD th _ _ _ _ => decide (th < 16384)
  | .beq th _ _ _ => decide (th < 16384)
  | .bne th _ _ _ => decide (th < 16384)
  | .blt th _ _ _ => decide (th < 16384)
  | .bge th _ _ _ => decide (th < 16384)
  | .bltu th _ _ _ => decide (th < 16384)
  | .bgeu th _ _ _ => decide (th < 16384)
  | .beqz th _ _ => decide (th < 16384)
  | .bnez th _ _ => decide (th < 16384)
  | .bany th _ _ => decide (th < 16384)
  | .bnone th _ _ => decide (th < 16384)
  | .call th _ _ => decide (th < 16384)
  | .callr th _ _ _ => decide (th < 16384)
  | .halt th => decide (th < 16384)
  | .fence th _ => decide (th < 16384)
  | .rdsr th _ _ => decide (th < 16384)
  | .rpt th _ _ => decide (th < 16384)
  | .aadd th _ _ _ _ _ _ _ => decide (th < 16384)
  | .amin th _ _ _ _ _ _ _ => decide (th < 16384)
  | .amax th _ _ _ _ _ _ _ => decide (th < 16384)
  | .aminu th _ _ _ _ _ _ _ => decide (th < 16384)
  | .amaxu th _ _ _ _ _ _ _ => decide (th < 16384)
  | .aand th _ _ _ _ _ _ _ => decide (th < 16384)
  | .aor th _ _ _ _ _ _ _ => decide (th < 16384)
  | .axor th _ _ _ _ _ _ _ => decide (th < 16384)
  | .aswap th _ _ _ _ _ _ _ => decide (th < 16384)
  | .acas th _ _ _ _ _ _ _ => decide (th < 16384)
  | .afadd th _ _ _ _ _ _ _ => decide (th < 16384)
  | .afmin th _ _ _ _ _ _ _ => decide (th < 16384)
  | .afmax th _ _ _ _ _ _ _ => decide (th < 16384)
  | .abfadd2 th _ _ _ _ _ _ _ => decide (th < 16384)
  | .mul th _ _ _ => decide (th < 16384)
  | .mulhs th _ _ _ => decide (th < 16384)
  | .mulhu th _ _ _ => decide (th < 16384)
  | .divs th _ _ _ => decide (th < 16384)
  | .divu th _ _ _ => decide (th < 16384)
  | .rems th _ _ _ => decide (th < 16384)
  | .remu th _ _ _ => decide (th < 16384)
  | .vadd th _ _ _ _ _ _ _ => decide (th < 16384)
  | .vsub th _ _ _ _ _ _ _ => decide (th < 16384)
  | .vmul th _ _ _ _ _ _ _ => decide (th < 16384)
  | .vfma th _ _ _ _ _ _ _ => decide (th < 16384)
  | .vmin th _ _ _ _ _ _ _ => decide (th < 16384)
  | .vmax th _ _ _ _ _ _ _ => decide (th < 16384)
  | .vminu th _ _ _ _ _ _ _ => decide (th < 16384)
  | .vmaxu th _ _ _ _ _ _ _ => decide (th < 16384)
  | .vand th _ _ _ _ _ _ _ => decide (th < 16384)
  | .vor th _ _ _ _ _ _ _ => decide (th < 16384)
  | .vxor th _ _ _ _ _ _ _ => decide (th < 16384)
  | .vsll th _ _ _ _ _ _ _ => decide (th < 16384)
  | .vsrl th _ _ _ _ _ _ _ => decide (th < 16384)
  | .vsra th _ _ _ _ _ _ _ => decide (th < 16384)
  | .vdiv th _ _ _ _ _ _ _ => decide (th < 16384)
  | .vsqrt th _ _ _ _ _ _ => decide (th < 16384)
  | .vabs th _ _ _ _ _ _ => decide (th < 16384)
  | .vneg th _ _ _ _ _ _ => decide (th < 16384)
  | .vredsum th _ _ _ _ _ _ => decide (th < 16384)
  | .vredmax th _ _ _ _ _ _ => decide (th < 16384)
  | .vredmin th _ _ _ _ _ _ => decide (th < 16384)
  | .vsel th _ _ _ _ _ _ _ => decide (th < 16384)
  | .vaddS th _ _ _ _ _ _ _ => decide (th < 16384)
  | .vsubS th _ _ _ _ _ _ _ => decide (th < 16384)
  | .vmulS th _ _ _ _ _ _ _ => decide (th < 16384)
  | .vfmaS th _ _ _ _ _ _ _ => decide (th < 16384)
  | .vminS th _ _ _ _ _ _ _ => decide (th < 16384)
  | .vmaxS th _ _ _ _ _ _ _ => decide (th < 16384)
  | .vbcast th _ _ _ _ _ _ => decide (th < 16384)
  | .vsllS th _ _ _ _ _ _ _ => decide (th < 16384)
  | .vsrlS th _ _ _ _ _ _ _ => decide (th < 16384)
  | .vsraS th _ _ _ _ _ _ _ => decide (th < 16384)
  | .veq th _ _ _ _ _ _ _ => decide (th < 16384)
  | .vne th _ _ _ _ _ _ _ => decide (th < 16384)
  | .vlt th _ _ _ _ _ _ _ => decide (th < 16384)
  | .vle th _ _ _ _ _ _ _ => decide (th < 16384)
  | .vltu th _ _ _ _ _ _ _ => decide (th < 16384)
  | .vleu th _ _ _ _ _ _ _ => decide (th < 16384)
  | .vld th _ _ _ _ _ _ _ => decide (th < 16384)
  | .vst th _ _ _ _ _ _ _ => decide (th < 16384)
  | .vldb th _ _ _ _ _ _ _ => decide (th < 16384)
  | .vaadd th _ _ _ _ _ _ _ => decide (th < 16384)
  | .vcvt th _ _ _ _ _ _ _ => decide (th < 16384)
  | .vmxpk th _ _ _ _ _ _ _ => decide (th < 16384)
  | .vmxunpk th _ _ _ _ _ _ _ => decide (th < 16384)
  | .mand th _ _ _ => decide (th < 16384)
  | .mor th _ _ _ => decide (th < 16384)
  | .mxor th _ _ _ => decide (th < 16384)
  | .mandn th _ _ _ => decide (th < 16384)
  | .mpop th _ _ => decide (th < 16384)
  | .mfirst th _ _ => decide (th < 16384)
  | .mfroms th _ _ => decide (th < 16384)
  | .mtos th _ _ => decide (th < 16384)
  | .vext th _ _ _ _ => decide (th < 16384)
  | .vins th _ _ _ _ => decide (th < 16384)
  | .vidx th _ _ => decide (th < 16384)
  | .movs th _ _ _ _ _ => decide (th < 16384)
  | .fills th _ _ _ _ _ => decide (th < 16384)
  | .cmps th _ _ _ _ _ => decide (th < 16384)
  | .scans th _ _ _ _ _ _ => decide (th < 16384)
  | .gath th _ _ _ _ _ _ _ => decide (th < 16384)
  | .nvmeSqDoorbell fn _ _ _ => functionIdOk fn
  | .nvmeCqDoorbell fn _ _ => functionIdOk fn
  | .controllerReset fn _ _ _ _ _ => functionIdOk fn
  | .deleteIoSq fn _ => functionIdOk fn
  | .deleteIoCq fn _ => functionIdOk fn
  | .createIoSq fn _ => functionIdOk fn
  | .createIoCq fn _ => functionIdOk fn
  | .getLogPage fn _ => functionIdOk fn
  | .identify fn _ => functionIdOk fn
  | .abort fn _ => functionIdOk fn
  | .setFeatures fn _ => functionIdOk fn
  | .setFeaturesPowerManagement fn _ => functionIdOk fn
  | .powerStateIdle fn => functionIdOk fn
  | .powerStateAbandon fn => functionIdOk fn
  | .getFeatures fn _ => functionIdOk fn
  | .asynchronousEventRequest fn _ => functionIdOk fn
  | .formatNvm fn _ => functionIdOk fn
  | .sanitizeExitFailure fn _ => functionIdOk fn
  | .sanitizeBlockErase fn _ => functionIdOk fn
  | .sanitizeOverwrite fn _ => functionIdOk fn
  | .sanitizeCryptoErase fn _ => functionIdOk fn
  | .sanitizeProgress _ _ => true
  | .flushNvm fn _ _ => functionIdOk fn
  | .nvmeWrite fn _ _ _ => functionIdOk fn
  | .nvmeRead fn _ _ _ => functionIdOk fn
  | .compare fn _ _ _ => functionIdOk fn
  | .writeZeroes fn _ _ _ => functionIdOk fn
  | .datasetManagement fn _ _ _ => functionIdOk fn
  | .verify fn _ _ _ => functionIdOk fn
  | .rangeLockGrant _ => true
  | .journalDurable _ => true
  | .inPlaceWriteDone _ _ => true
  | .legFailed _ _ _ => true
  | .legReturn _ _ _ => true
  | .resyncPiece _ _ => true
  | .ethernetFrameRx i _ _ _ _ => decide (i < 32)
  | .linkUp i _ _ _ _ => decide (i < 32)
  | .linkDown i => decide (i < 32)
  | .linkDownHoldExpiry i => decide (i < 32)
  | .serviceTimerExpiry i => decide (i < 32)
  | .laneTrainingFailed port lane => decide (port < 8) && decide (lane < 4)
  | .laneIdentityFound port _ => decide (port < 8)
  | .txTail fn _ index _ => functionIdOk fn && decide (index < 2 ^ 32)
  | .rxTail fn _ index _ => functionIdOk fn && decide (index < 2 ^ 32)
  | .nicCqHead fn _ index => functionIdOk fn && decide (index < 2 ^ 32)
  | .nicTransmit fn _ => functionIdOk fn
  | .transmissionSlot i => decide (i < 32)
  | .gateListTakeEffect i => decide (i < 32)
  | .samplerInterval _ => true
  | .grtSqTail _ index _ => decide (index < 2 ^ 32)
  | .grtCqHead _ index => decide (index < 2 ^ 32)
  | .grtWrite _ _ _ => true
  | .grtWriteNotify _ _ _ => true
  | .grtRead _ _ _ => true
  | .ctrAdd _ _ => true
  | .grtNop _ _ => true
  | .triggerFire _ => true
  | .grtRxWrite _ _ _ => true
  | .grtRxReadReq _ _ => true
  | .grtRxReadResp _ _ => true
  | .grtRxAck _ => true
  | .grtRxNak _ => true
  | .grtRxHello _ => true
  | .grtRxClose _ => true
  | .helloRetry _ => true
  | .connectingTimeout _ => true
  | .ackDelayExpiry _ => true
  | .retransmitTimeout _ _ => true
  | .retryAfterExpiry _ _ => true
  | .pathExclusionExpiry _ _ => true
  | .persistDurable _ _ _ => true
  | .revocationDrained _ => true
  | .flr fn => functionIdOk fn
  | .perstN hostPort _ => decide (hostPort < 2)
  | .secondaryBusReset block link => decide (block < 20) && decide (link < 4)
  | .acceleratorLinkReset block link => decide (block < 20) && decide (link < 4)
  | .linkTraining block link _ _ _ _ _ => decide (block < 20) && decide (link < 4)
  | .numvfsWrite fn _ => functionIdOk fn
  | .vfEnable fn _ => functionIdOk fn
  | .dStateChange fn _ _ => functionIdOk fn
  | .wakeEvent fn _ => functionIdOk fn
  | .apertureAccess hostPort _ _ _ _ => decide (hostPort < 2)
  | .windowAccess hostPort _ _ _ => decide (hostPort < 2)
  | .aptWrite hostPort entry _ => decide (hostPort < 2) && decide (entry < 4096)
  | .queueRegionAccess hostPort _ _ _ => decide (hostPort < 2)
  | .ideTlpRx hp _ _ _ => decide (hp < 2)
  | .spdmGetVersion _ _ => true
  | .spdmGetCapabilities _ _ _ => true
  | .spdmNegotiateAlgorithms _ _ _ => true
  | .spdmGetDigests _ _ => true
  | .spdmGetCertificate _ _ _ _ _ => true
  | .spdmChallenge _ _ _ _ => true
  | .spdmGetMeasurements _ _ index _ _ => decide (index < 2 ^ 32)
  | .spdmKeyExchange _ _ _ _ => true
  | .spdmFinish _ _ _ _ => true
  | .spdmKeyUpdate _ _ _ _ => true
  | .spdmHeartbeat _ _ _ => true
  | .spdmEndSession _ _ _ => true
  | .ideKm _ _ _ _ _ _ => true
  | .alarm _ => true
  | .sealedCopiesErased => true
  | .cxAlarmClear who _ => who.wf
  | .errAckAck who block _ => who.wf && decide (block < 61)
  | .errAckClear who block _ _ => who.wf && decide (block < 61)
  | .isolatedBlockReturn block => decide (block < 61)
  | .escalationTimerExpiry block => decide (block < 61)
  | .cntSelWrite who block counter _ => who.wf && decide (block < 61) && decide (counter < 8)
  | .unmappedAccess a _ _ => a.who.wf
  | .csrWrite who target _ => who.wf && target.wf
  | .coldReset _ _ densities _ _ _ _ => densities.all (fun e => decide (e.2 < 3))
  | .warmReset _ _ => true
  | .imageVerified _ => true
  | .networkFetchTimeout => true
  | .startComplete => true
  | .startWatchdogExpiry => true
  | .glStartCtlWrite who _ => who.wf
  | .packagePowerLoop _ _ => true
  | .temperatureLoop _ => true
  | .dvfsGovernor island _ => islandOk island
  | .thermalThrottle island => islandOk island
  | .thermalTrip island => islandOk island
  | .currentLimiterEngage => true
  | .currentLimiterRelease => true
  | .fallbackGovernorTakeover => true
  | .fallbackGovernorTick _ => true
  | .diodeRead _ _ => true
  | .throttleN _ => true
  | .standbyEntry => true
  | .inputChange input _ => decide (input < 23)
  | .inputRateReread input _ => decide (input < 23)
  | .inputStuck input => decide (input < 23)
  | .inputUnstuck input => decide (input < 23)
  | .tamperN _ => true
  | .padContention group => decide (group < 6)
  | .pwrOkFall => true
  | .icpRingEnable fn => functionIdOk fn
  | .undefinedEncoding th _ => decide (th < 16384)
  | .fetchFault th => decide (th < 16384)
  | .journalSsdFailed _ => true
  | .journalSsdReturn _ => true
  | .referenceClockLost island => islandOk island
  | .railOutOfRange _ _ => true
  | .stewardCoreFailed _ => true
  | .faultNMinimumHoldExpiry => true
  | .interruptCoalescingExpiry fn _ => functionIdOk fn
  | .rocev2Cnp _ => true
  | .liveActivationResume => true
  | .flrComplete fn => functionIdOk fn
  | .diagRunEnd _ => true
  | .hardwareThrottleStep island _ => islandOk island
  | .inputGlitch input => decide (input < 23)

abbrev WellFormed (i : Instr) : Prop := i.wf = true

end Sys2Proof
end

