-- ==== Sys2Proof/Tests/Slice0.lean ====
section
/-! SUPPORT. Terms that a check of WellFormed refuses, one for each check, and witnesses for the statements about the step and the invariant. -/

namespace Sys2Proof.Tests

set_option Elab.async false

open Sys2Proof Sys2Proof.Machine

/-- A packet that passes every check, and the commands below differ from a well-formed one in one place. -/
def plain : IcpPkt := packet 8 []

/-- The transport and the packet of an ICP command (R53, R55, R58, R63 to R66). -/
theorem test_wf_icp : WellFormed (.hello via plain) ∧ WellFormed (.hello (.ring 0x13FF) plain) ∧ ¬ WellFormed (.hello (.ring 6) plain) ∧
    ¬ WellFormed (.hello (.ring 0x1400) plain) ∧ ¬ WellFormed (.hello (.mctp 256) plain) ∧ ¬ WellFormed (.hello (.accel 80) plain) ∧
    ¬ WellFormed (.flush via { plain with major := 256 }) ∧ ¬ WellFormed (.flush via { plain with minor := 256 }) ∧
    ¬ WellFormed (.flush via { plain with opcode := 65536 }) ∧ ¬ WellFormed (.flush via { plain with functionId := 65536 }) ∧
    ¬ WellFormed (.flush via { plain with generation := 65536 }) ∧ ¬ WellFormed (.flush via { plain with paramLen := 65536 }) ∧
    ¬ WellFormed (.flush via { plain with room := 4065 }) := by decide +kernel

theorem test_wf_icp_words : ¬ WellFormed (.flush via { plain with tag := 2 ^ 32 }) ∧ ¬ WellFormed (.flush via { plain with flags := 2 ^ 32 }) ∧
    ¬ WellFormed (.flush via { plain with sessionId := 2 ^ 32 }) ∧ ¬ WellFormed (.flush via { plain with params := List.replicate 4065 0 }) := by
  decide +kernel

/-- Doorbells and messages. -/
theorem test_wf_doorbells : WellFormed (.cmdTail 0x404F 3 none) ∧ ¬ WellFormed (.cmdTail 0x4050 3 none) ∧ ¬ WellFormed (.rplHead 0 (2 ^ 32)) ∧
    ¬ WellFormed (.sqTail 0 (2 ^ 32) 0 []) ∧ ¬ WellFormed (.mctpMessage 256 {}) ∧ ¬ WellFormed (.icpRingEnable 0x2000) := by decide +kernel

/-- Memory controllers, clusters, threads, blocks and islands. -/
theorem test_wf_parts : ¬ WellFormed (.linkCrcFail 6 0 0) ∧ ¬ WellFormed (.channelRetrainDone 0 16 true) ∧ ¬ WellFormed (.mcFenceReq (.host 2) 0 0) ∧
    ¬ WellFormed (.cxlLinkDown 20 0) ∧ ¬ WellFormed (.cxlLinkDown 0 4) ∧ ¬ WellFormed (.crossingMismatch 0 { block := 61 }) ∧ ¬ WellFormed (.coreSafePoint 17 0) ∧
    ¬ WellFormed (.clusterSpareOut 16 []) ∧ WellFormed (.qNop 16383) ∧ ¬ WellFormed (.qNop 16384) ∧ ¬ WellFormed (.dvfsGovernor 0x11 0) ∧
    ¬ WellFormed (.thermalTrip 0x26) := by decide +kernel

/-- Ports, functions, registers and inputs. -/
theorem test_wf_outside : ¬ WellFormed (.linkDown 32) ∧ ¬ WellFormed (.laneTrainingFailed 8 0) ∧ ¬ WellFormed (.laneTrainingFailed 0 4) ∧
    ¬ WellFormed (.flr 6) ∧ ¬ WellFormed (.perstN 2 true) ∧ ¬ WellFormed (.aptWrite 0 4096 0) ∧
    ¬ WellFormed (.errAckAck .steward 61 0) ∧ ¬ WellFormed (.cntSelWrite .steward 0 8 0) ∧ ¬ WellFormed (.csrWrite .steward (.csr (2 ^ 28)) 0) ∧
    ¬ WellFormed (.csrWrite .steward (.ring 0 0x18) 0) ∧ ¬ WellFormed (.csrWrite .steward (.winXlat 0 16) 0) ∧ ¬ WellFormed (.csrWrite .steward (.config 6 0) 0) ∧
    ¬ WellFormed (.csrWrite .steward (.msix 0 8192) 0) ∧ ¬ WellFormed (.inputStuck 23) ∧
    ¬ WellFormed (.padContention 6) := by decide +kernel

theorem test_witness_StepRunsTheFrontCommand :
    (∃ (s : State) (c : Instr) (rest : List Instr), s.pending = c :: rest) ∧ (∃ s : State, s.pending = []) ∧ (∃ (s : State) (isl : Nat), isl ∈ clockedIslands s) :=
  ⟨⟨up.setPending [.throttleN true, .startComplete], _, _, rfl⟩, ⟨up, rfl⟩, ⟨up, 0x50, by decide⟩⟩

/-- A sound state with two bytes of memory, and the step that follows it. -/
theorem test_witness_EveryStepKeepsMemoryCanonical :
    (∃ s t : State, memOk s ∧ s.mem.cells ≠ [] ∧ step s = .next t) ∧
    (∃ m : List Host.Cell, m ≠ [] ∧ Memory.wf m = true) :=
  ⟨⟨(up.setMem { up.mem with cells := [(4096, 7), (4097, 9)] }).setPending [.throttleN true], _, (by unfold memOk; decide), by decide, rfl⟩, ⟨[(4096, 7), (4097, 9)], by decide, by decide⟩⟩

end Sys2Proof.Tests
end

