-- ==== Sys2Proof/Tests/Startup.lean ====
section
/-! SUPPORT. States and commands that meet the hypotheses of the statements about starts, images, activations and diagnostics (chapters 2 and 15),
  clause by clause. That an image verifies rests on uninterpreted functions, so no state shows an image that passes. -/

namespace Sys2Proof.Tests

set_option Elab.async false

open Sys2Proof Sys2Proof.Machine

/-- A part with a session and changed start-up state. -/
def withBoot (f : Boot → Boot) : State := let s := withSession up; s.setBoot (f s.boot)
/-- Slot A is valid and holds a header of live version 7; so does the running image, from slot B. -/
def stagedImage : State :=
  withBoot (fun b => { b with record := { b.record with slotA := 2 }, slotA := { image := layout 64 [(0x16, 2, 7)], imageLen := 64 },
                              running := { liveVersion := 7 }, runningSlot := 1 })
def act (mode : Nat) (deferred : Bool) : Activation := { via := via, pkt := packet 16 [(1, 1, mode)], slot := 0, mode := mode, flags := 0, deferred := deferred }
/-- The same part with firmware in control of power: cool, and with a hot island, which makes an emergency. -/
def cool (s : State) : State := s.setPwr { s.pwr with fallback := false }
def hot (s : State) : State := s.setPwr { s.pwr with fallback := false, islands := [(0, { held := true, hot := true })] }

theorem test_witness_StartsImagesAndActivations :
    (∃ s : State, 3 < s.boot.record.sourceOverride) ∧ (∃ s : State, s.boot.record.threshold ≤ s.boot.record.failedStarts) ∧
    (∃ s : State, s.boot.inReset = true) ∧ (∃ s : State, s.boot.inReset = false) ∧
    (∃ s : State, starting s 1 = false) ∧ (∃ s : State, starting s 1 = true ∧ s.boot.trials.head? = some 2) ∧
    (∃ (s : State) (e : Nat × Nat), starting s 1 = true ∧ s.boot.trials = [1] ∧ imageCheck s (flashSlot s 1).image = some e) ∧
    (∃ s : State, starting s 2 = true ∧ s.boot.record.trial = true ∧ (0, { hp := 0, pf := 0, allot := { cqps := 256, conns := 1024, limiters := 16 } }) ∈ s.fns) ∧
    (∃ s : State, starting s 2 = false) ∧ (∃ s : State, s.boot.watchdog = true) ∧ (∃ s : State, s.boot.watchdog = false) ∧
    (∃ s : State, s.boot.act = none) ∧ (∃ (s : State) (a : Activation), s.boot.act = some a ∧ a.deferred = false) ∧
    (∃ (s : State) (a : Activation) (d : Nat), s.boot.act = some a ∧ a.deferred = true ∧ emergencyDetail s = some d) ∧
    (∃ (s : State) (a : Activation), s.boot.act = some a ∧ a.deferred = true ∧ emergencyDetail s = none ∧ a.mode = 2) ∧
    (∃ (s : State) (a : Activation), s.boot.act = some a ∧ a.deferred = true ∧ emergencyDetail s = none ∧ a.mode = 1) ∧
    (∃ (s : State) (a : Activation), s.boot.act = some a ∧ a.mode = 2 ∧ a.deferred = false ∧ s.icp.paused = true ∧ fetchedDone a s = true) ∧
    (∃ (s : State) (a : Activation), s.boot.act = some a ∧ fetchedDone a s = false) ∧
    (∃ (s : State) (d : Diag), s.icp.diag = some d ∧ d.status = 0 ∧ d.test ≠ 5) ∧ (∃ s : State, ∀ d, s.icp.diag = some d → d.status ≠ 0) :=
  ⟨⟨up, by decide⟩, ⟨withBoot (fun b => { b with record := { b.record with failedStarts := 3 } }), by decide⟩, ⟨.reset, rfl⟩, ⟨up, rfl⟩,
   ⟨up, by decide⟩, ⟨withBoot (fun b => { b with stage := 1, trials := [2] }), by decide, rfl⟩,
   ⟨withBoot (fun b => { b with stage := 1, trials := [1] }), (stVersion, dtNone), by decide, rfl, rfl⟩,
   ⟨withBoot (fun b => { b with stage := 2, record := { b.record with trial := true, pendingSlot := 1 } }), by decide, rfl, by decide⟩,
   ⟨up, by decide⟩, ⟨withBoot (fun b => { b with watchdog := true }), rfl⟩, ⟨up, rfl⟩, ⟨up, rfl⟩,
   ⟨withBoot (fun b => { b with act := some (act 2 false) }), _, rfl, rfl⟩,
   ⟨hot (withBoot (fun b => { b with act := some (act 2 true) })), _, dtThermal, rfl, rfl, by decide⟩,
   ⟨cool (withBoot (fun b => { b with act := some (act 2 true) })), _, rfl, rfl, by decide, rfl⟩,
   ⟨cool (withBoot (fun b => { b with act := some (act 1 true) })), _, rfl, rfl, by decide, rfl⟩,
   ⟨(let s := withBoot (fun b => { b with act := some (act 2 false) }); s.setIcp { s.icp with paused := true }), _, rfl, rfl, rfl, rfl, by decide⟩,
   ⟨(let s := withBoot (fun b => { b with act := some (act 2 false) }); s.setIcp { s.icp with waits := [{ via := .mctp 3, pkt := {}, kind := .destroy }] }), _, rfl,
     by decide⟩,
   ⟨up.setIcp { up.icp with diag := some { runId := 1, test := 3, target := 4, iterations := 1 } }, _, rfl, rfl, by decide⟩,
   ⟨up, (by intro d h; cases h)⟩⟩

theorem test_witness_StartsImagesAndActivations_commands :
    (∃ (via : Via) (pkt : IcpPkt) (s s0 : State) (c : Ctx), let i := stageSlot s0 (c.p 0 1); let n := c.p 2 2;
      let im := ((c.params.drop 0x30) ++ List.replicate n 0).take n; Starts 0x0800 via pkt s c s0 ∧ c.p 0 1 ∈ [0, 1, 0xFF] ∧
        48 + n ≤ c.pkt.paramLen ∧ 1024 ≤ c.p 8 4 ∧ c.p 8 4 ≤ 31457280 ∧ c.p 4 4 = 0 ∧ n ≤ c.p 8 4 ∧ slotInUse s0 i = false ∧ im.length < c.p 8 4) ∧
    (∃ (via : Via) (pkt : IcpPkt) (s s0 : State) (c : Ctx), let i := stageSlot s0 (c.p 0 1); let n := c.p 2 2;
      let im := (flashSlot s0 i).image ++ ((c.params.drop 0x30) ++ List.replicate n 0).take n; Starts 0x0800 via pkt s c s0 ∧ c.p 0 1 ∈ [0, 1, 0xFF] ∧
        48 + n ≤ c.pkt.paramLen ∧ c.p 8 4 = 1024 ∧ c.p 4 4 + n = c.p 8 4 ∧ slotInUse s0 i = false ∧ c.p 4 4 = (flashSlot s0 i).image.length ∧
        c.p 8 4 = (flashSlot s0 i).imageLen ∧ slotState s0.boot.record i = 1 ∧ c.p 8 4 ≤ im.length ∧ imageCheck s0 im = some (stVersion, dtNone)) ∧
    (∃ (via : Via) (pkt : IcpPkt) (s s0 : State) (c : Ctx), Starts 0x0801 via (withByte 1 (fun _ => 0) pkt) s c s0 ∧ c.p 1 1 = 0 ∧
      firstBad (actChecks c s0 0) = none) ∧
    (∃ (via : Via) (pkt : IcpPkt) (s s0 : State) (c : Ctx), Starts 0x0801 via (withByte 1 (fun _ => 1) pkt) s c s0 ∧ c.p 1 1 = 1 ∧
      firstBad (actChecks c s0 1) = none ∧ emergencyDetail s0 = none) ∧
    (∃ (via : Via) (pkt : IcpPkt) (s s0 : State) (c : Ctx), Starts 0x0801 via (withByte 1 (fun _ => 2) pkt) s c s0 ∧ c.p 1 1 = 2 ∧
      firstBad (actChecks c s0 2) = none ∧ emergencyDetail s0 = none ∧ drainRuns s0 = false ∧ s0.icp.paused = false) ∧
    (∃ (via : Via) (pkt : IcpPkt) (s s0 : State) (c : Ctx), Starts 0x0801 via (withByte 1 (fun _ => 2) pkt) s c s0 ∧ c.p 1 1 = 2 ∧
      firstBad (actChecks c s0 2) = none ∧ emergencyDetail s0 = some dtThermal) ∧
    (∃ (via : Via) (pkt : IcpPkt) (s s0 : State) (c : Ctx), Starts 0x0802 via pkt s c s0) ∧
    (∃ (via : Via) (pkt : IcpPkt) (s s0 : State) (c : Ctx), Starts 0x0F00 via (withByte 1 (fun _ => 0) (withByte 0 (fun _ => 1) pkt)) s c s0 ∧ c.p 0 2 = 1 ∧
      diagTargetOk 1 (c.p 2 2) = true ∧ (∀ d, s0.icp.diag = some d → d.status ≠ 0) ∧ diagServed s0 1 (c.p 2 2) = true) ∧
    (∃ (via : Via) (pkt : IcpPkt) (s s0 : State) (c : Ctx), Starts 0x0F00 via (withByte 1 (fun _ => 0) (withByte 0 (fun _ => 2) pkt)) s c s0 ∧ c.p 0 2 = 2 ∧
      diagTargetOk 2 (c.p 2 2) = true ∧ (∀ d, s0.icp.diag = some d → d.status ≠ 0) ∧ diagServed s0 2 (c.p 2 2) = true) ∧
    (∃ (via : Via) (pkt : IcpPkt) (s s0 : State) (c : Ctx), Starts 0x0F00 via (withByte 1 (fun _ => 0) (withByte 0 (fun _ => 3) pkt)) s c s0 ∧ c.p 0 2 = 3 ∧
      diagTargetOk 3 (c.p 2 2) = true ∧ (∀ d, s0.icp.diag = some d → d.status ≠ 0) ∧ diagServed s0 3 (c.p 2 2) = true) ∧
    (∃ (via : Via) (pkt : IcpPkt) (s s0 : State) (c : Ctx), Starts 0x0F00 via (withByte 1 (fun _ => 0) (withByte 0 (fun _ => 4) pkt)) s c s0 ∧ c.p 0 2 = 4 ∧
      diagTargetOk 4 (c.p 2 2) = true ∧ (∀ d, s0.icp.diag = some d → d.status ≠ 0) ∧ diagServed s0 4 (c.p 2 2) = true) ∧
    (∃ (via : Via) (pkt : IcpPkt) (s s0 : State) (c : Ctx), Starts 0x0F00 via (withByte 1 (fun _ => 0) (withByte 0 (fun _ => 5) pkt)) s c s0 ∧ c.p 0 2 = 5 ∧
      diagTargetOk 5 (c.p 2 2) = true ∧ (spareCluster s0).isSome = true ∧ (∀ d, s0.icp.diag = some d → d.status ≠ 0) ∧ diagServed s0 5 (c.p 2 2) = true) ∧
    (∃ (via : Via) (pkt : IcpPkt) (s s0 : State) (c : Ctx) (d : Diag), Starts 0x0F01 via pkt s c s0 ∧ s0.icp.diag = some d ∧ d.runId = c.p 0 4) ∧
    (∃ (via : Via) (pkt : IcpPkt) (s s0 : State) (c : Ctx) (d : Diag), Starts 0x0F01 via pkt s c s0 ∧ s0.icp.diag = some d ∧ d.runId ≠ c.p 0 4) :=
  ⟨⟨via, packet 64 [(0, 1, 0xFF), (2, 2, 16), (8, 4, 1024)], withSession up, _, _, starts_of (by decide +kernel), by decide +kernel, by decide +kernel,
     by decide +kernel, by decide +kernel, by decide +kernel, by decide +kernel, by decide +kernel, by decide +kernel⟩,
   ⟨via, packet 64 [(0, 1, 1), (2, 2, 16), (4, 4, 1008), (8, 4, 1024)],
     withBoot (fun b => { b with record := { b.record with slotB := 1 }, slotB := { image := List.replicate 1008 0, imageLen := 1024 } }), _, _,
     starts_of (by decide +kernel), by decide +kernel, by decide +kernel, by decide +kernel, by decide +kernel, by decide +kernel, by decide +kernel,
     by decide +kernel, by decide +kernel, by decide +kernel, rfl⟩,
   ⟨via, packet 16 [], stagedImage, _, _, starts_of (by decide +kernel), by decide +kernel, by decide +kernel⟩,
   ⟨via, packet 16 [], cool stagedImage, _, _, starts_of (by decide +kernel), by decide +kernel, by decide +kernel, by decide +kernel⟩,
   ⟨via, packet 16 [], cool stagedImage, _, _, starts_of (by decide +kernel), by decide +kernel, by decide +kernel, by decide +kernel, by decide +kernel, by decide +kernel⟩,
   ⟨via, packet 16 [], hot stagedImage, _, _, starts_of (by decide +kernel), by decide +kernel, by decide +kernel, by decide +kernel⟩,
   ⟨via, packet 0 [], stagedImage, _, _, starts_of (by decide +kernel)⟩,
   ⟨via, packet 32 [(2, 2, 3)], withSession up, _, _, starts_of (by decide +kernel), by decide +kernel, by decide +kernel, (by intro d h; cases h), by decide +kernel⟩,
   ⟨via, packet 32 [], withSession up, _, _, starts_of (by decide +kernel), by decide +kernel, by decide +kernel, (by intro d h; cases h), by decide +kernel⟩,
   ⟨via, packet 32 [(2, 2, 95)], (let s := withSession up; s.setMem { s.mem with fenced := [(95, 1)] }), _, _, starts_of (by decide +kernel), by decide +kernel,
     by decide +kernel, (by intro d h; cases h), by decide +kernel⟩,
   ⟨via, packet 32 [(2, 2, 19)], withSession up, _, _, starts_of (by decide +kernel), by decide +kernel, by decide +kernel, (by intro d h; cases h), by decide +kernel⟩,
   ⟨via, packet 32 [(2, 2, 0)], (let s := withSession up; s.setMason { s.mason with units := [(0, cluster), (16, { cluster with logical := 0xFF })] }), _, _,
     starts_of (by decide +kernel), by decide +kernel, by decide +kernel, by decide +kernel, (by intro d h; cases h), by decide +kernel⟩,
   ⟨via, packet 8 [(0, 4, 9)], (let s := withSession up; s.setIcp { s.icp with diag := some { runId := 9, test := 3, target := 4, iterations := 1 } }), _, _, _,
     starts_of (by decide +kernel), rfl, by decide +kernel⟩,
   ⟨via, packet 8 [(0, 4, 8)], (let s := withSession up; s.setIcp { s.icp with diag := some { runId := 9, test := 3, target := 4, iterations := 1 } }), _, _, _,
     starts_of (by decide +kernel), rfl, by decide +kernel⟩⟩

end Sys2Proof.Tests
end

