-- ==== Sys2Proof/Tests/Storage.lean ====
section
/-! SUPPORT. States and commands that meet the hypotheses of the statements about the storage service (chapter 10),
  clause by clause. A namespace's size limit depends on the SSDs' capacities, which are free values,
    so what fits is shown for SSDs of a capacity given. -/

namespace Sys2Proof.Tests

set_option Elab.async false

open Sys2Proof Sys2Proof.Machine

/-- Namespace 5: 4 MiB of 512-byte blocks on one local leg of SSD 8, attached to the controller of host port 0. -/
def leg0 : Leg := { ssds := [8], extents := [(8, 1)] }
def ns5 : Ns := { bytes := 4194304, attached := [1], legs := [leg0] }
/-- The same with atomic writes, and a journal on SSDs 9 and 10. -/
def ns5a : Ns := { ns5 with atomic := true, journalA := 9, journalB := 10, journalMib := 256 }
/-- A controller with its admin queues and one pair of I/O queues. -/
def ctrl : Nvme :=
  { enabled := true, queues := 4, sqs := [(0, { cq := 0, base := 0, size := 16 }), (1, { cq := 1, base := 4096, size := 16 })],
    cqs := [(0, { base := 8192, size := 16, ien := true }), (1, { base := 12288, size := 16 })] }
/-- A part whose port block 2 holds the SSDs 8 to 11. -/
def storage (x : Ns) (k : Nvme) : State :=
  let s := withSession up
  let s := s.setPorts { s.ports with blocks := s.ports.blocks ++ [(2, { role := 4, links := List.replicate 4 { width := 1, speed := 5 } })] }
  s.setSto { s.sto with ns := [(5, x)], ctrls := [(1, k)] }
def nvm : State := storage ns5 ctrl
/-- The namespace encrypted under key 3. -/
def ciphered : State := (storage { ns5 with encrypted := true, key := 3 } ctrl).setSec { up.sec with keys := [(3, { kind := 1, material := some 7 })] }
/-- An operation on namespace 5. -/
def operation (p : NvmePhase) : NvmeOp := { id := 0, fn := 1, sq := 1, opcode := 1, cmd := { cid := 9, nsid := 5 }, io := {}, first := 0, count := 8, write := true, phase := p }
def working (p : NvmePhase) (x : Ns) : State := (storage x ctrl).setSto { (storage x ctrl).sto with ops := [operation p] }
def sanitizing (z : Sanitize) : State := storage { ns5 with san := z } ctrl
def readyB (fn sq : Nat) (s : State) : Bool :=
  isController s fn && fetches s fn && !isolated s blkStorage && (ctrlOf s fn).sqs.all (fun e => e.2.unread.isEmpty) &&
    (match look (ctrlOf s fn).sqs sq with
     | some q => decide (2 ≤ q.size ∧ q.tail < q.size) && (match look (ctrlOf s fn).cqs q.cq with | some cq => decide (cq.used + 1 < cq.size) | none => false)
     | none => false)
theorem ready_of {fn sq : Nat} {s : State} (h : readyB fn sq s = true) : NvReady fn sq s := by
  simp only [readyB, Bool.and_eq_true, Bool.not_eq_true', List.all_eq_true, List.isEmpty_iff] at h
  obtain ⟨⟨⟨⟨h1, h2⟩, h3⟩, h4⟩, h5⟩ := h
  refine ⟨h1, h2, h3, h4, ?_⟩
  revert h5
  cases e : look (ctrlOf s fn).sqs sq with
  | none => simp
  | some q =>
    cases e2 : look (ctrlOf s fn).cqs q.cq with
    | none => simp [e2]
    | some cq =>
      intro h
      simp only [e2, Bool.and_eq_true, decide_eq_true_eq] at h
      exact ⟨q, cq, rfl, h.1.1, h.1.2, e2, h.2⟩

theorem test_witness_NvmeAdminCommandsComplete :
    (∃ (s : State) (cmd : NvmeCmd), NvReady 1 0 s ∧ bits cmd.dw10 0 16 ≠ 0 ∧ bits cmd.dw10 0 16 ≤ queueGrant s 1 ∧
      has (ctrlOf s 1).cqs (bits cmd.dw10 0 16) = false ∧ 2 ≤ bits cmd.dw10 16 16 + 1 ∧ cmd.dw11.testBit 0 = true ∧
        bits cmd.dw11 16 16 < vectorCount 1) ∧
    (∃ (s : State) (cmd : NvmeCmd), NvReady 1 0 s ∧ bits cmd.dw10 0 16 ≠ 0 ∧ bits cmd.dw10 0 16 ≤ queueGrant s 1 ∧
      has (ctrlOf s 1).sqs (bits cmd.dw10 0 16) = false ∧ bits cmd.dw11 16 16 ≠ 0 ∧ has (ctrlOf s 1).cqs (bits cmd.dw11 16 16) = true ∧
        2 ≤ bits cmd.dw10 16 16 + 1 ∧ cmd.dw11.testBit 0 = true) ∧
    (∃ (s : State) (cmd : NvmeCmd), NvReady 1 0 s ∧ bits cmd.dw10 0 16 = 0) ∧
    (∃ (s : State) (cmd : NvmeCmd), NvReady 1 0 s ∧ bits cmd.dw10 0 16 ≠ 0 ∧ has (ctrlOf s 1).sqs (bits cmd.dw10 0 16) = true ∧ (∀ o ∈ s.sto.ops,
      ¬ (o.fn = 1 ∧ o.sq = bits cmd.dw10 0 16))) ∧
    (∃ (s : State) (cmd : NvmeCmd), NvReady 1 0 s ∧ bits cmd.dw10 0 16 ≠ 0 ∧ has (ctrlOf s 1).cqs (bits cmd.dw10 0 16) = true ∧
      (∀ e ∈ (ctrlOf s 1).sqs, e.2.cq ≠ bits cmd.dw10 0 16)) ∧
    (∃ (s : State) (cmd : NvmeCmd), NvReady 1 0 s ∧ (logPage s 1 4).isSome = true ∧ logPage s 1 6 = none) ∧
    (∃ (s : State) (cmd : NvmeCmd), NvReady 1 0 s ∧ bits cmd.dw10 0 8 = 1 ∧ 3 < bits 4 0 8) ∧
    (∃ (s : State) (cmd : NvmeCmd), NvReady 1 0 s ∧ s.sto.ops = [] ∧ bits cmd.dw10 0 16 = 0 ∧
      (ctrlOf s 1).aers.contains (bits cmd.dw10 16 16) = true) ∧
    (∃ (s : State) (cmd : NvmeCmd), NvReady 1 0 s ∧ bits cmd.dw10 0 8 = 7 ∧ bits cmd.dw11 0 16 ≠ 65535 ∧ bits cmd.dw11 16 16 ≠ 65535 ∧
      bits 6 0 8 ∉ [1, 2, 7, 8, 9, 0xA, 0xB]) ∧
    (∃ (s : State) (cmd : NvmeCmd), NvReady 1 0 s ∧ (ctrlOf s 1).psEntry = none ∧ bits cmd.dw11 0 5 = 4 ∧ ctrlSanitizing s 1 = false ∧
      ctrlBusy s 1 = false ∧ bits 2 0 5 ≤ 2 ∧ 4 < bits 5 0 5) ∧
    (∃ (s : State) (cmd : NvmeCmd), NvReady 1 0 s ∧ (∀ e ∈ (ctrlOf s 1).events, (ctrlOf s 1).masked.contains (e % 8) = true)) ∧
    (∃ (s : State) (cmd : NvmeCmd), NvReady 1 0 s ∧ (ctrlOf s 1).events.find? (fun e => !(ctrlOf s 1).masked.contains (e % 8)) = some 2) ∧
    (∃ (s : State) (cmd : NvmeCmd), NvReady 1 0 s ∧ formatTargets s 1 cmd.nsid ≠ [] ∧ (∀ n ∈ formatTargets s 1 cmd.nsid,
      sanActive (nsD s n) = false) ∧ (ctrlOf s 1).sanWait = none ∧ bits cmd.dw10 0 4 ≤ 1 ∧ bits cmd.dw10 9 3 ≤ 1) ∧
    (∃ (s : State) (cmd : NvmeCmd), NvReady 1 0 s ∧ attachedTo s 1 ≠ [] ∧ ctrlSanitizing s 1 = false ∧ (∃ e ∈ attachedTo s 1,
      e.2.encrypted = false)) ∧
    (∃ (s : State) (cmd : NvmeCmd), NvReady 1 0 s ∧ attachedTo s 1 ≠ [] ∧ ctrlSanitizing s 1 = false ∧ (∀ e ∈ attachedTo s 1,
      e.2.encrypted = true)) :=
  ⟨⟨nvm, { cid := 1, prp := [(65536, 4096)], dw10 := 4 + 65536, dw11 := 3 + 2047 * 65536 }, ready_of (by decide +kernel), by decide, by decide,
    by decide, by decide, by decide, by decide⟩,
   ⟨nvm, { cid := 1, prp := [(65536, 4096)], dw10 := 4 + 65536, dw11 := 1 + 65536 }, ready_of (by decide +kernel), by decide, by decide,
     by decide, by decide, by decide, by decide, by decide⟩,
   ⟨nvm, { cid := 1, dw10 := 65536 }, ready_of (by decide +kernel), by decide⟩,
   ⟨nvm, { cid := 1, dw10 := 1 }, ready_of (by decide +kernel), by decide, by decide, by decide⟩,
   ⟨storage ns5 { ctrl with sqs := [(0, { cq := 0, base := 0, size := 16 })] }, { cid := 1, dw10 := 1 }, ready_of (by decide +kernel), by decide,
     by decide, by decide⟩,
   ⟨nvm, { cid := 1, prp := [(65536, 4096)], dw10 := 4 + 15 * 65536 }, ready_of (by decide +kernel), by decide +kernel, by decide⟩,
   ⟨nvm, { cid := 1, prp := [(65536, 4096)], dw10 := 1 }, ready_of (by decide +kernel), by decide, by decide⟩,
   ⟨storage ns5 { ctrl with aers := [7] }, { cid := 1, dw10 := 7 * 65536 }, ready_of (by decide +kernel), by decide, by decide, by decide⟩,
   ⟨nvm, { cid := 1, dw10 := 7, dw11 := 65534 + 3 * 65536 }, ready_of (by decide +kernel), by decide, by decide, by decide, by decide⟩,
   ⟨nvm, { cid := 1, dw11 := 4 }, ready_of (by decide +kernel), by decide, by decide, by decide, by decide, by decide, by decide⟩,
   ⟨storage ns5 { ctrl with events := [1], masked := [1] }, { cid := 1 }, ready_of (by decide +kernel), by decide⟩,
   ⟨storage ns5 { ctrl with events := [2] }, { cid := 1 }, ready_of (by decide +kernel), by decide⟩,
   ⟨nvm, { cid := 1, nsid := 5, dw10 := 1 + 512 }, ready_of (by decide +kernel), by decide, by decide, by decide, by decide, by decide⟩,
   ⟨nvm, { cid := 1 }, ready_of (by decide +kernel), by decide, by decide, by decide⟩,
   ⟨storage { ns5 with encrypted := true, key := 3 } ctrl, { cid := 1 }, ready_of (by decide +kernel), by decide, by decide, by decide⟩⟩

theorem test_witness_NvmeIoCommandsComplete :
    (∃ (s : State) (cmd : NvmeCmd) (io : NvmeIo), NvReady 1 1 s ∧ NvOpen s 1 cmd.nsid ns5 ∧ io.cipher = 0 ∧ slbaOf cmd + nlbOf cmd ≤ nsLbas ns5 ∧
      (readLegs s ns5 (slbaOf cmd * lbaBytes ns5) (nlbOf cmd * lbaBytes ns5) io).isSome = true ∧ nlbOf cmd * lbaBytes ns5 ≤ 2097152 ∧
        writeProtected ns5 = false ∧ ns5.legs[0]? = some leg0 ∧ leg0.state = 0 ∧ 0 ∉ io.writeFail ∧ ns5.atomic = false ∧ cmd.dw11.testBit 2 = false) ∧
    (∃ (s : State) (cmd : NvmeCmd) (io : NvmeIo), NvReady 1 1 s ∧ NvOpen s 1 cmd.nsid ns5 ∧ io.cipher = 0 ∧ slbaOf cmd + nlbOf cmd ≤ nsLbas ns5 ∧
      readLegs s ns5 (slbaOf cmd * lbaBytes ns5) (nlbOf cmd * lbaBytes ns5) io = none) ∧
    (∃ (s : State) (cmd : NvmeCmd) (io : NvmeIo), NvReady 1 1 s ∧ NvOpen s 1 cmd.nsid ns5a ∧ io.cipher = 0 ∧ slbaOf cmd + nlbOf cmd ≤ nsLbas ns5a ∧
      writeProtected ns5a = false ∧ ns5a.atomic = true ∧ nlbOf cmd * lbaBytes ns5a ≤ 262144 ∧
        io.data = some (List.replicate 512 6) ∧ (stored s ns5a (slbaOf cmd * lbaBytes ns5a) (List.replicate 512 6)).2 = List.replicate 512 6 ∧
        journalUsed ns5a + 4096 + 512 ≤ ns5a.journalMib * 1048576) ∧
    (∃ (s : State) (x : Ns) (cmd : NvmeCmd) (io : NvmeIo), NvReady 1 1 s ∧ NvOpen s 1 cmd.nsid x ∧ io.cipher = 0 ∧
      slbaOf cmd + nlbOf cmd ≤ nsLbas x ∧ writeProtected x = true) ∧
    (∃ (s : State) (cmd : NvmeCmd) (io : NvmeIo), NvReady 1 1 s ∧ NvOpen s 1 cmd.nsid ns5 ∧ io.cipher = 0 ∧ cmd.dw11.testBit 2 = true ∧
      dsmRanges cmd (layout 16 [(4, 4, 2), (8, 8, 8190)]) = [(8190, 2)] ∧ 8190 + 2 ≤ nsLbas ns5 ∧ writeProtected ns5 = false) ∧
    (∃ (s : State) (cmd : NvmeCmd), NvReady 1 1 s ∧ nsOf s cmd.nsid = none) ∧
    (∃ (s : State), nsOf s 5 = some ns5 ∧ ns5.legs[0]? = some leg0 ∧ leg0.state ≠ 2 ∧ Memory.wf leg0.cells = true) ∧
    (∃ (s : State) (x : Ns), nsOf s 5 = some x ∧ x.legs[0]? = some leg0 ∧ x.encrypted = true ∧ keyMaterial s x.key ≠ none) :=
  ⟨⟨nvm, { cid := 1, nsid := 5, prp := [(65536, 4096)], dw10 := 8191 }, { data := some (List.replicate 512 6) }, ready_of (by decide +kernel),
    (by unfold NvOpen <;> decide +kernel), by decide, by decide, by decide, by decide, by decide, by decide, by decide, by decide⟩,
   ⟨nvm, { cid := 1, nsid := 5, prp := [(65536, 4096)] }, { data := some [], readFail := [0] }, ready_of (by decide +kernel),
     (by unfold NvOpen <;> decide +kernel), by decide, by decide, by decide⟩,
   ⟨storage ns5a ctrl, { cid := 1, nsid := 5, prp := [(65536, 4096)] }, { data := some (List.replicate 512 6) }, ready_of (by decide +kernel),
     (by unfold NvOpen <;> decide +kernel), by decide, by decide, by decide, by decide, by decide, rfl, rfl, by decide⟩,
   ⟨storage { ns5 with legs := [{ leg0 with state := 2 }] } ctrl, { ns5 with legs := [{ leg0 with state := 2 }] },
     { cid := 1, nsid := 5, prp := [(65536, 4096)] }, { data := some (List.replicate 512 6) }, ready_of (by decide +kernel),
       (by unfold NvOpen <;> decide +kernel), by decide, by decide, by decide⟩,
   ⟨nvm, { cid := 1, nsid := 5, prp := [(65536, 4096)], dw11 := 4 }, { data := some (layout 16 [(4, 4, 2), (8, 8, 8190)]) },
     ready_of (by decide +kernel), (by unfold NvOpen <;> decide +kernel), by decide, by decide, by decide, by decide, by decide⟩,
   ⟨nvm, { cid := 1, nsid := 6 }, ready_of (by decide +kernel), by decide⟩,
   ⟨nvm, by decide, by decide, by decide, by decide⟩,
   ⟨ciphered, { ns5 with encrypted := true, key := 3 }, by decide, by decide, by decide, by decide⟩⟩

theorem test_witness_NamespacesAreMadeAttachedAndMirrored :
    (∃ (via : Via) (pkt : IcpPkt) (s s0 : State) (c : Ctx), Starts 0x0400 via pkt s c s0 ∧
      firstBad (nsCreateChecks c s0 (askedNs c s0)) = some (stNotPermitted, dtNone)) ∧
    (∃ (via : Via) (pkt : IcpPkt) (s s0 : State) (c : Ctx) (x : Ns), Starts 0x0401 via pkt s c s0 ∧ nsOf s0 (c.p 0 4) = some x ∧ x.attached = [] ∧
      courseDest s0 (c.p 0 4) = false ∧ sanActive x = false ∧ x.encrypted = true) ∧
    (∃ (via : Via) (pkt : IcpPkt) (s s0 : State) (c : Ctx) (x : Ns), Starts 0x0401 via pkt s c s0 ∧ nsOf s0 (c.p 0 4) = some x ∧
      x.attached ≠ [] ∧ sanActive x = true) ∧
    (∃ (via : Via) (pkt : IcpPkt) (s s0 : State) (c : Ctx) (x : Ns), Starts 0x0401 via pkt s c s0 ∧ nsOf s0 (c.p 0 4) = some x ∧
      x.attached ≠ [] ∧ sanActive x = false) ∧
    (∃ (via : Via) (pkt : IcpPkt) (s s0 : State) (c : Ctx) (x : Ns), Starts 0x0402 via pkt s c s0 ∧ nsOf s0 (c.p 0 4) = some x ∧
      isController s0 (c.p 4 2) = true ∧ x.attached = [] ∧ courseDest s0 (c.p 0 4) = false) ∧
    (∃ (via : Via) (pkt : IcpPkt) (s s0 : State) (c : Ctx), Starts 0x0402 via pkt s c s0 ∧ nsOf s0 (c.p 0 4) = some ns5 ∧
      isController s0 (c.p 4 2) = true ∧ ns5.attached ≠ []) ∧
    (∃ (via : Via) (pkt : IcpPkt) (s s0 : State) (c : Ctx), Starts 0x0403 via pkt s c s0 ∧ nsOf s0 (c.p 0 4) = some ns5 ∧
      ns5.attached.contains (c.p 4 2) = true ∧ sanActive ns5 = false ∧ (∀ o ∈ s0.sto.ops, ¬ (o.cmd.nsid = c.p 0 4 ∧ o.fn = c.p 4 2 ∧
        o.resync = none))) ∧
    (∃ (via : Via) (pkt : IcpPkt) (s s0 : State) (c : Ctx), Starts 0x0403 via pkt s c s0 ∧ nsOf s0 (c.p 0 4) = some ns5 ∧
      ns5.attached.contains (c.p 4 2) = true ∧ sanActive ns5 = false ∧ (∃ o ∈ s0.sto.ops, o.cmd.nsid = c.p 0 4 ∧ o.fn = c.p 4 2 ∧ o.resync = none)) ∧
    (∃ (via : Via) (pkt : IcpPkt) (s s0 : State) (c : Ctx), Starts 0x0404 via pkt s c s0 ∧ nsOf s0 (c.p 0 4) = some ns5 ∧ c.iss.priv = true) ∧
    (∃ (via : Via) (pkt : IcpPkt) (s s0 : State) (c : Ctx), Starts 0x0404 via pkt s c s0 ∧ nsOf s0 (c.p 0 4) = some ns5 ∧ c.iss.priv = false ∧
      ns5.attached.contains c.iss.fid = false) ∧
    (∃ (via : Via) (pkt : IcpPkt) (s s0 : State) (c : Ctx), Starts 0x0405 via pkt s c s0) ∧
    (∃ (via : Via) (pkt : IcpPkt) (s s0 : State) (c : Ctx) (x : Ns), Starts 0x0406 via pkt s c s0 ∧ nsOf s0 (c.p 0 4) = some x ∧
      c.p 5 1 < x.legs.length ∧ x.legs[0]? = some leg0 ∧ 0 ≠ c.p 5 1 ∧ leg0.state = 0) ∧
    (∃ (via : Via) (pkt : IcpPkt) (s s0 : State) (c : Ctx), Starts 0x0406 via pkt s c s0 ∧ nsOf s0 (c.p 0 4) = some ns5 ∧ ns5.legs.length = 1 ∧
      c.p 5 1 = 0 ∧ c.p 4 1 = 1) :=
  ⟨⟨via, packet 128 [(0, 8, 1073741824), (8, 1, 2), (0xA, 1, 1), (0x20, 1, 1), (0x28, 16, 256)], nvm, _, _, starts_of (by decide +kernel), by decide⟩,
   ⟨via, packet 8 [(0, 4, 5)], (storage { ns5 with attached := [], encrypted := true, key := 3 } ctrl).setSec { up.sec with keys := [(3, { kind := 1, material := some 7 })] }, _, _, { ns5 with attached := [], encrypted := true, key := 3 }, starts_of (by decide +kernel), by decide, by decide, by decide, by decide, by decide⟩,
   ⟨via, packet 8 [(0, 4, 5)], sanitizing { state := 3, action := 2 }, _, _, { ns5 with san := { state := 3, action := 2 } }, starts_of (by decide +kernel),
     by decide, by decide, by decide⟩,
   ⟨via, packet 8 [(0, 4, 5)], nvm, _, _, ns5, starts_of (by decide +kernel), by decide, by decide, by decide⟩,
   ⟨via, packet 16 [(0, 4, 5), (4, 2, 1)], storage { ns5 with attached := [] } ctrl, _, _, { ns5 with attached := [] },
     starts_of (by decide +kernel), by decide, by decide, by decide, by decide⟩,
   ⟨via, packet 16 [(0, 4, 5), (4, 2, 1)], nvm, _, _, starts_of (by decide +kernel), by decide, by decide, by decide⟩,
   ⟨via, packet 16 [(0, 4, 5), (4, 2, 1)], nvm, _, _, starts_of (by decide +kernel), by decide, by decide, by decide, by decide⟩,
   ⟨via, packet 16 [(0, 4, 5), (4, 2, 1)], working .lock ns5, _, _, starts_of (by decide +kernel), by decide, by decide, by decide, by decide⟩,
   ⟨via, packet 8 [(0, 4, 5)], nvm, _, _, starts_of (by decide +kernel), by decide, by decide⟩,
   ⟨.ring 2, { ringPacket 8 [(0, 4, 5)] with functionId := 2 }, (nvm.setRings [(2,
     { enable := true, ready := true })]).setIcp { up.icp with sessions := [(.ring 2, { sid := 1, major := 3, minor := 1, caps := 63 })] }, _, _,
       starts_ring (by decide +kernel), by decide, by decide, by decide⟩,
   ⟨via, packet 8 [(0, 4, 79)], nvm, _, _, starts_of (by decide +kernel)⟩,
   ⟨via, packet 32 [(0, 4, 5), (4, 1, 1), (5, 1, 1)], storage { ns5 with legs := [leg0, { leg0 with ssds := [9], extents := [(9, 1)] }] } ctrl, _,
     _, { ns5 with legs := [leg0, { leg0 with ssds := [9], extents := [(9, 1)] }] }, starts_of (by decide +kernel), by decide, by decide, by decide⟩,
   ⟨via, packet 32 [(0, 4, 5), (4, 1, 1), (5, 1, 0)], nvm, _, _, starts_of (by decide +kernel), by decide, by decide, by decide⟩⟩

/-- A mirror of two legs, and an operation of two ranges. -/
def mirrored : State := storage { ns5 with legs := [leg0, { leg0 with ssds := [9], extents := [(9, 1)] }] } ctrl
/-- A remote leg behind connection 4. -/
def remote : Leg := { kind := 2, conn := 4 }

theorem test_witness_storage_failures :
    (∃ s : State, s.tel.frozen = false ∧ isController s 1 = true ∧ functionServed s 1 = true ∧ hostAwake s 1 = true ∧ (ctrlOf s 1).enabled = false ∧ (ctrlOf s 1).sqs = [] ∧
      (ctrlOf s 1).cqs = []) ∧
    (∃ (s : State) (x : Ns), s.tel.frozen = false ∧ s.sto.ops.find? (fun o => o.id == 0 && o.phase == .place) = some (operation .place) ∧
      hasLeg (nsD (writeLegs 5 0 (opBytes x (operation .place)) [0] s) 5) = false) ∧
    (∃ s : State, s.tel.frozen = false ∧ s.sto.ns = [(5, ns5)] ∧ ns5.legs = [leg0] ∧ ns5.atomic = false ∧ sanActive ns5 = false ∧ leg0.kind = 1 ∧
      8 ∈ leg0.ssds ∧ leg0.state ≠ 2) ∧
    (∃ s : State, s.tel.frozen = false ∧ s.sto.ns = [(5, { ns5 with legs := [{ leg0 with state := 2 }] })] ∧ s.sto.failedSsds = [8]) ∧
    (∃ s : State, s.sto.ns = [(5, { ns5 with legs := [remote] })] ∧ remote.state ≠ 2 ∧ remote.kind = 2 ∧ remote.conn = 4) ∧
    (∃ (via : Via) (pkt : IcpPkt) (s s0 : State) (c : Ctx), Starts 0x0901 via pkt s c s0 ∧ (fnOf s0 (c.p 0 2)).isSome = true ∧ c.p 0 2 ≠ 0 ∧
      c.p 0 2 ≠ 3 ∧ courseLive s0 = false ∧ (∃ e ∈ attachedTo s0 (c.p 0 2), sanActive e.2 = true)) :=
  ⟨⟨storage ns5 {}, by decide, by decide, by decide, by decide, by decide, by decide, by decide⟩,
   ⟨working .place ns5a, ns5a, by decide, by decide, by decide +kernel⟩,
   ⟨nvm, by decide, by decide, by decide, by decide, by decide, by decide, by decide, by decide⟩,
   ⟨(storage { ns5 with legs := [{ leg0 with state := 2 }] } ctrl).setSto { (storage { ns5 with legs := [{ leg0 with state := 2 }] } ctrl).sto with failedSsds := [8] },
     by decide, by decide, by decide⟩,
   ⟨storage { ns5 with legs := [remote] } ctrl, by decide, by decide, by decide, by decide⟩,
   ⟨via, packet 8 [(0, 2, 1)], sanitizing { state := 3, action := 2 }, _, _, starts_of (by decide +kernel), by decide, by decide, by decide, by decide,
     ⟨(5, { ns5 with san := { state := 3, action := 2 } }), by decide, by decide⟩⟩⟩

/-- R452: what one leg could not return is rewritten there with what the other returned. -/
theorem test_read_repair : ((nsD (repairRead 5 512 2 { readFail := [0] } (storage { ns5 with
    legs := [leg0, { leg0 with ssds := [9], extents := [(9, 1)], cells := [(512, 7), (513, 8)] }] } ctrl)) 5).legs.map (fun l => memGetBytes l.cells 512 2)) =
    [[7, 8], [7, 8]] := by decide +kernel
/-- R458: the next range of a Dataset Management arrives behind what arrived before it. -/
theorem test_next_range : ((nextRange (operation .lock) 64 8 [] ((working .lock ns5).setSto
    { (working .lock ns5).sto with ops := [operation .lock, { operation .lock with id := 1 }] })).sto.ops.map (fun o => (o.id, o.first))) =
    [(1, 0), (0, 64)] := by decide +kernel
/-- R446: stripe units go to the SSDs in turn. -/
theorem test_stripe : stripePlace { stripe := 16 } { ssds := [9, 8] } (65536 * 3 + 5) = (1, 65541) := by decide
/-- R439: CAP as the manual's table gives it: MQES, CQR, TO, and the NVM command set. -/
theorem test_nvme_cap : nvmeCap % 65536 = 65535 ∧ nvmeCap.testBit 16 = true ∧ bits nvmeCap 24 8 = 20 ∧ bits nvmeCap 32 4 = 0 := by decide

theorem test_witness_StorageGoesOnThroughItsEvents :
    (∃ (s : State), s.tel.frozen = false ∧ isController s 1 = true ∧ functionServed s 1 = true ∧ (ctrlOf s 1).enabled = true ∧ hostAwake s 1 = true ∧
      look (ctrlOf s 1).sqs 2 = none ∧ (look (ctrlOf s 1).sqs 1).isSome = true ∧ look (ctrlOf s 1).cqs 2 = none ∧
        (look (ctrlOf s 1).cqs 1).isSome = true) ∧
    (∃ (s : State), isController s 1 = true ∧ hostAwake s 1 = true) ∧
    (∃ (s : State), s.tel.frozen = false ∧ s.sto.ops.find? (fun o => o.id == 0) = some (operation .lock) ∧ blocked s (operation .lock) = false) ∧
    (∃ (s : State), s.tel.frozen = false ∧ s.sto.ops.find? (fun o => o.id == 0) = some (operation .entry) ∧ (operation .entry).phase ≠ .lock) ∧
    (∃ (s : State), s.tel.frozen = false ∧ s.sto.ops.find? (fun o => o.id == 0 && o.phase == .journal) = some (operation .journal) ∧
      writeProtected (nsD s 5) = false) ∧
    (∃ (s : State), s.tel.frozen = false ∧ s.sto.ops.find? (fun o => o.id == 0 && o.phase == .place) = some (operation .place)) ∧
    (∃ (s : State), s.tel.frozen = false ∧ nsOf s 5 = some ns5 ∧ ns5.legs[0]? = some leg0 ∧ sanActive ns5 = false ∧ leg0.state ≠ 2) ∧
    (∃ (s : State) (x : Ns), s.tel.frozen = false ∧ nsOf s 5 = some x ∧ x.legs[1]? = some { leg0 with state := 2, stale := true }) ∧
    (∃ (s : State), s.tel.frozen = false ∧ (nsD s 5).legs[1]? = some { leg0 with state := 1, stale := true, copied := 3145728 } ∧
      (nsD s 5).legs[0]? = some leg0 ∧ s.sto.ops = [] ∧ Memory.wf ({ leg0 with state := 1, stale := true, copied := 3145728 } : Leg).cells = true) ∧
    (∃ (s : State), s.tel.frozen = false ∧ s.sto.ns = []) ∧
    (∃ (s : State), s.tel.frozen = false ∧ s.sto.ns = [(5, ns5a)] ∧ ns5a.atomic = true ∧ ns5a.journalA = 9 ∧ 9 ∉ ns5a.journalFailed) ∧
    (∃ (s : State) (x : Ns), s.tel.frozen = false ∧ s.sto.ns = [(5, x)] ∧ x.atomic = true ∧ 9 ∈ x.journalFailed ∧ journalsLost x = true) ∧
    (∃ (s : State), s.tel.frozen = false ∧ sanActive (nsD s 5) = false) ∧
    (∃ (s : State), s.tel.frozen = false ∧ (nsD s 5).san.state = 1 ∧ (nsD s 5).san.action = 2) ∧
    (∃ (s : State), s.tel.frozen = false ∧ (nsD s 5).san.state = 4 ∧ sanExtents (nsD s 5) ≤ (nsD s 5).san.extent + 1 ∧
      (nsD s 5).san.pass < (nsD s 5).san.passes) ∧
    (∃ (s : State), s.tel.frozen = false ∧ (nsD s 5).san.state = 4 ∧ (nsD s 5).san.passes ≤ (nsD s 5).san.pass ∧
      sanExtents (nsD s 5) ≤ (nsD s 5).san.extent + 1) ∧
    (∃ (s : State), s.tel.frozen = false ∧ (ctrlOf s 1).psEntry = some { cid := 7, target := 4 } ∧ ctrlBusy s 1 = false) ∧
    (∃ (s : State), s.tel.frozen = false ∧ (ctrlOf s 1).psEntry = some { cid := 7, target := 4 } ∧ ctrlBusy s 1 = true) ∧
    (∃ (s : State), s.tel.frozen = false ∧ has (ctrlOf s 1).coalesced 3 = true ∧ has (ctrlOf s 1).coalesced 4 = false) ∧
    (∃ (s : State), s.tel.frozen = false ∧ has (ctrlOf s 1).coalesced 3 = true ∧ msixMasked s 1 3 = false ∧ silenced s 1 = false) ∧
    (∃ (s : State), s.tel.frozen = false ∧ has (ctrlOf s 1).coalesced 3 = true ∧ msixMasked s 1 3 = true) ∧
    (∃ (s : State) (z : Ns), s.tel.frozen = false ∧ nsOf s 5 = some z ∧ z.atomic = true ∧ z.journalA = 9 ∧ sanActive z = false) ∧
    (∃ (s : State) (z : Ns), s.tel.frozen = false ∧ nsOf s 5 = some z ∧ z.legs[0]? = some leg0 ∧ leg0.kind = 1 ∧ 8 ∈ leg0.ssds ∧ sanActive z = false) ∧
    (∃ (s : State) (x : Ns), nsD s 5 = x ∧ x.legs[0]? = some leg0 ∧ Memory.wf leg0.cells = true ∧ 0 < legExtents x leg0 ∧ x.san.state = 4 ∧
      sanActive x = true) :=
  ⟨⟨nvm, by decide, by decide, by decide, by decide, by decide, by decide, by decide, by decide, by decide⟩,
   ⟨working .journal ns5a, by decide, by decide⟩,
   ⟨working .lock ns5, by decide, by decide, by decide⟩,
   ⟨working .entry ns5, by decide, by decide, by decide⟩,
   ⟨working .journal { ns5a with journal := [{ seq := 0, op := 0, first := 0, data := List.replicate 4096 1 }] }, by decide, by decide, by decide⟩,
   ⟨working .place { ns5a with journal := [{ seq := 0, op := 0, first := 0, data := List.replicate 4096 1, durable := true }] }, by decide,
     by decide⟩,
   ⟨nvm, by decide, by decide, by decide, by decide, by decide⟩,
   ⟨storage { ns5 with legs := [leg0, { leg0 with state := 2, stale := true }] } ctrl,
     { ns5 with legs := [leg0, { leg0 with state := 2, stale := true }] }, by decide, by decide, by decide⟩,
   ⟨storage { ns5 with legs := [leg0, { leg0 with state := 1, stale := true, copied := 3145728 }] } ctrl, by decide, by decide, by decide, by decide, by decide⟩,
   ⟨nvm.setSto { nvm.sto with ns := [] }, by decide, by decide⟩,
   ⟨storage ns5a ctrl, by decide, by decide, by decide, by decide, by decide⟩,
   ⟨storage { ns5a with journalFailed := [9, 10], journal := [{ seq := 0, op := 0, first := 0, data := [] }] } ctrl,
     { ns5a with journalFailed := [9, 10], journal := [{ seq := 0, op := 0, first := 0, data := [] }] }, by decide, by decide, by decide,
       by decide, by decide⟩,
   ⟨nvm, by decide, by decide⟩,
   ⟨sanitizing { state := 1, action := 2 }, by decide, by decide, by decide⟩,
   ⟨sanitizing { state := 4, action := 3, pass := 1, passes := 2 }, by decide, by decide, by decide, by decide⟩,
   ⟨sanitizing { state := 4, action := 3, pass := 2, passes := 2 }, by decide, by decide, by decide⟩,
   ⟨storage ns5 { ctrl with psEntry := some { cid := 7, target := 4 } }, by decide, by decide, by decide⟩,
   ⟨(storage ns5 { ctrl with psEntry := some { cid := 7, target := 4 } }).setSto { (storage ns5 { ctrl with psEntry := some { cid := 7, target := 4 } }).sto with ops := [operation .lock] }, by decide, by decide, by decide⟩,
   ⟨storage ns5 { ctrl with coalesced := [(3, 2)] }, by decide, by decide, by decide⟩,
   ⟨hostUp (storage ns5 { ctrl with coalesced := [(3, 2)] }), by decide, by decide, by decide, by decide⟩,
   ⟨(storage ns5 { ctrl with coalesced := [(3, 2)] }).setPorts { up.ports with msix := [(8192 + 15, 1)] }, by decide, by decide, by decide⟩,
   ⟨storage ns5a ctrl, ns5a, by decide, by decide, by decide, by decide, by decide⟩,
   ⟨nvm, ns5, by decide, by decide, by decide, by decide, by decide, by decide⟩,
   ⟨sanitizing { state := 4, action := 3, pass := 1, passes := 2 }, _, rfl, by decide, by decide, by decide, by decide, by decide⟩⟩

end Sys2Proof.Tests
end

section
/-! Laws of association lists: what a lookup finds after an entry is put or deleted. -/

namespace Sys2Proof.Machine

open Sys2Proof

section
variable {κ α : Type} [DecidableEq κ]

theorem look_put (l : List (κ × α)) (k q : κ) (v : α) : look (put l k v) q = if k = q then some v else look l q := by
  induction l with
  | nil => rfl
  | cons e r ih =>
    obtain ⟨a, b⟩ := e
    by_cases ha : a = k
    · subst ha
      by_cases hq : a = q <;> simp [put, look, hq]
    · by_cases hq : a = q
      · subst hq
        simp [put, look, ha, Ne.symm ha]
      · simp [put, look, ha, hq, ih]

@[simp] theorem look_put_same (l : List (κ × α)) (k : κ) (v : α) : look (put l k v) k = some v := by
  rw [look_put, if_pos rfl]

theorem look_put_of_ne (l : List (κ × α)) {k q : κ} (v : α) (h : k ≠ q) : look (put l k v) q = look l q := by
  rw [look_put, if_neg h]

@[simp] theorem lookD_put_same (l : List (κ × α)) (k : κ) (v d : α) : lookD (put l k v) k d = v := by
  simp [lookD]

theorem lookD_put_of_ne (l : List (κ × α)) {k q : κ} (v d : α) (h : k ≠ q) : lookD (put l k v) q d = lookD l q d := by
  rw [lookD, lookD, look_put_of_ne l v h]

theorem look_filter (p : κ → Bool) (l : List (κ × α)) (q : κ) :
    look (l.filter (fun e => p e.1)) q = if p q then look l q else none := by
  induction l with
  | nil => simp [look]
  | cons e r ih =>
    obtain ⟨a, b⟩ := e
    by_cases hq : a = q
    · subst hq
      by_cases hp : p a <;> simp [look, hp, ih]
    · by_cases hp : p a <;> simp [look, hp, hq, ih]

/-- A key deleted names nothing. -/
@[simp] theorem look_del_same (l : List (κ × α)) (k : κ) : look (del l k) k = none := by
  rw [del, look_filter (fun x => decide (x ≠ k))]
  simp

@[simp] theorem has_del_same (l : List (κ × α)) (k : κ) : has (del l k) k = false := by
  simp [has]

end

end Sys2Proof.Machine
end

section
/-! Laws of structures in bytes: what a field reads once a field has been set, and in a structure laid out from a list of fields. -/

namespace Sys2Proof.Machine

open Sys2Proof

@[simp] theorem leBytes_length (n v : Nat) : (leBytes n v).length = n := by
  induction n generalizing v with
  | zero => rfl
  | succ n ih => simp [leBytes, ih]

theorem leVal_leBytes (n v : Nat) : leVal (leBytes n v) = v % 256 ^ n := by
  induction n generalizing v with
  | zero => simp [leBytes, leVal, Nat.mod_one]
  | succ n ih =>
    rw [leBytes, leVal, ih, BitVec.toNat_ofNat, pow_succ' 256, Nat.mod_mul]

theorem leVal_take_leBytes {m n : Nat} (h : m ≤ n) (v : Nat) : leVal ((leBytes n v).take m) = v % 256 ^ m := by
  induction m generalizing n v with
  | zero => simp [leVal, Nat.mod_one]
  | succ m ih =>
    obtain ⟨k, rfl⟩ : ∃ k, n = k + 1 := ⟨n - 1, by omega⟩
    rw [leBytes, List.take_succ_cons, leVal, ih (by omega), BitVec.toNat_ofNat, pow_succ' 256, Nat.mod_mul]

theorem setLe_length {bs : Bytes} {off n : Nat} (v : Nat) (h : off + n ≤ bs.length) : (setLe bs off n v).length = bs.length := by
  simp [setLe, setBytes]; omega

theorem setLe_eq {bs : Bytes} {off n : Nat} (v : Nat) (h : off + n ≤ bs.length) :
    setLe bs off n v = bs.take off ++ (leBytes n v ++ bs.drop (off + n)) := by
  have hz : off - bs.length = 0 := by omega
  simp [setLe, setBytes, hz]

/-- The lowest bytes of a field that has been set. -/
theorem le_setLe_same {bs : Bytes} {off n m : Nat} (v : Nat) (h : off + n ≤ bs.length) (hm : m ≤ n) :
    le (setLe bs off n v) off m = v % 256 ^ m := by
  have hd : (setLe bs off n v).drop off = leBytes n v ++ bs.drop (off + n) := by
    rw [setLe_eq v h, List.drop_append_of_le_length (by simp; omega)]
    simp
  rw [le, hd, List.take_append_of_le_length (by simpa using hm), leVal_take_leBytes hm]

/-- A field that lies before or after the one set is as it was. -/
theorem le_setLe_apart {bs : Bytes} {off n o m : Nat} (v : Nat) (h : off + n ≤ bs.length) (ha : o + m ≤ off ∨ off + n ≤ o) :
    le (setLe bs off n v) o m = le bs o m := by
  unfold le
  congr 1
  apply List.ext_getElem?
  intro i
  by_cases hi : i < m
  · simp only [List.getElem?_take_of_lt hi, List.getElem?_drop]
    rw [setLe_eq v h]
    rcases ha with ha | ha
    · rw [List.getElem?_append_left (by simp; omega), List.getElem?_take_of_lt (by omega)]
    · rw [List.getElem?_append_right (by simp; omega), List.getElem?_append_right (by simp; omega), List.getElem?_drop]
      congr 1
      simp
      omega
  · simp [hi]

/-- Fields set one after another, as `layout` sets them. -/
def setFields (bs : Bytes) (fs : List (Nat × Nat × Nat)) : Bytes := fs.foldl (fun b f => setLe b f.1 f.2.1 f.2.2) bs

theorem layout_eq_setFields (size : Nat) (fs : List (Nat × Nat × Nat)) : layout size fs = setFields (List.replicate size 0) fs := rfl

theorem setFields_length {bs : Bytes} {fs : List (Nat × Nat × Nat)} (h : ∀ f ∈ fs, f.1 + f.2.1 ≤ bs.length) :
    (setFields bs fs).length = bs.length := by
  induction fs generalizing bs with
  | nil => rfl
  | cons f r ih =>
    have hf := setLe_length f.2.2 (h f List.mem_cons_self)
    rw [setFields, List.foldl_cons, ← setFields, ih (fun g hg => hf.symm ▸ h g (List.mem_cons_of_mem _ hg)), hf]

/-- Fields that lie apart from one leave it as it was. -/
theorem le_setFields_apart {bs : Bytes} {fs : List (Nat × Nat × Nat)} {o m : Nat}
    (h : ∀ f ∈ fs, f.1 + f.2.1 ≤ bs.length ∧ (o + m ≤ f.1 ∨ f.1 + f.2.1 ≤ o)) : le (setFields bs fs) o m = le bs o m := by
  induction fs generalizing bs with
  | nil => rfl
  | cons f r ih =>
    obtain ⟨hl, ha⟩ := h f List.mem_cons_self
    have hf := setLe_length f.2.2 hl
    rw [setFields, List.foldl_cons, ← setFields, ih (fun g hg => hf.symm ▸ h g (List.mem_cons_of_mem _ hg)), le_setLe_apart _ hl ha]

/-- The value of a field in a structure laid out from a list: the fields after it in the list lie apart from it. -/
theorem le_layout {size o n v : Nat} (before after : List (Nat × Nat × Nat)) (m : Nat) (hm : m ≤ n)
    (hb : ∀ f ∈ before, f.1 + f.2.1 ≤ size) (ho : o + n ≤ size)
    (ha : ∀ f ∈ after, f.1 + f.2.1 ≤ size ∧ (o + m ≤ f.1 ∨ f.1 + f.2.1 ≤ o)) :
    le (layout size (before ++ (o, n, v) :: after)) o m = v % 256 ^ m := by
  have hl : (setFields (List.replicate size 0) before).length = size := by
    rw [setFields_length (by simpa using hb), List.length_replicate]
  have hs := setLe_length v (hl.symm ▸ ho : o + n ≤ (setFields (List.replicate size 0) before).length)
  calc le (layout size (before ++ (o, n, v) :: after)) o m
      = le (setFields (setLe (setFields (List.replicate size 0) before) o n v) after) o m := by
        rw [layout_eq_setFields, setFields, List.foldl_append]; rfl
    _ = le (setLe (setFields (List.replicate size 0) before) o n v) o m :=
        le_setFields_apart (fun f hf => by rw [hs, hl]; exact ha f hf)
    _ = v % 256 ^ m := le_setLe_same v (hl.symm ▸ ho) hm

theorem layout_length {size : Nat} {fs : List (Nat × Nat × Nat)} (h : ∀ f ∈ fs, f.1 + f.2.1 ≤ size) : (layout size fs).length = size := by
  rw [layout_eq_setFields, setFields_length (by simpa using h), List.length_replicate]

/-- A field within the first of two runs of bytes. -/
theorem le_append_left {a b : Bytes} {o m : Nat} (h : o + m ≤ a.length) : le (a ++ b) o m = le a o m := by
  rw [le, le, List.drop_append_of_le_length (by omega), List.take_append_of_le_length (by simp; omega)]

end Sys2Proof.Machine
end

section
/-! How a command of ICP that starts is answered: what its handler answers is what the part replies, and then what can go on goes on. -/

namespace Sys2Proof.Machine

open Sys2Proof

theorem ringOf_setRing (k : Nat) (r : Ring) (s : State) (q : Nat) : ringOf (setRing k r s) q = if k = q then r else ringOf s q := by
  by_cases h : k = q
  · subst h
    simp [ringOf, setRing]
  · simp [ringOf, setRing, lookD_put_of_ne, h]

@[simp] theorem setRing_icp (k : Nat) (r : Ring) (s : State) : (setRing k r s).icp = s.icp := rfl

theorem writeSeg_eq_setMem (l dpa : Nat) (seg : Bytes) (s : State) : ∃ m, (writeSeg l dpa seg s).1 = s.setMem m := by
  unfold writeSeg
  split
  · exact ⟨s.mem, rfl⟩
  · split
    · split
      · exact ⟨_, rfl⟩
      · exact ⟨s.mem, rfl⟩
    · exact ⟨_, rfl⟩

/-- A fold of operations that change memory and a result alone. -/
theorem foldl_fst_eq_setMem {α β : Type} {f : State × β → α → State × β} (hf : ∀ p x, ∃ m, (f p x).1 = p.1.setMem m) (l : List α)
    (p : State × β) : ∃ m, (l.foldl f p).1 = p.1.setMem m := by
  induction l generalizing p with
  | nil => exact ⟨p.1.mem, rfl⟩
  | cons x r ih =>
    obtain ⟨m, hm⟩ := hf p x
    obtain ⟨m', hm'⟩ := ih (f p x)
    exact ⟨m', by rw [List.foldl_cons, hm', hm]; rfl⟩

/-- Writing custody memory changes memory alone. -/
theorem writeMem_eq_setMem (dpa : Nat) (bs : Bytes) (s : State) : ∃ m, (writeMem dpa bs s).1 = s.setMem m := by
  unfold writeMem
  refine foldl_fst_eq_setMem (fun p l => ?_) _ (s, true)
  exact writeSeg_eq_setMem _ _ _ _

theorem slotPut_eq_setMem (k : Nat) (pkt : IcpPkt) (s : State) : ∃ m, slotPut k pkt s = s.setMem m := by
  unfold slotPut
  split
  · exact ⟨s.mem, rfl⟩
  · split
    · exact writeMem_eq_setMem _ _ _
    · exact ⟨s.mem, rfl⟩

@[simp] theorem slotPut_icp (k : Nat) (pkt : IcpPkt) (s : State) : (slotPut k pkt s).icp = s.icp := by
  obtain ⟨m, h⟩ := slotPut_eq_setMem k pkt s
  rw [h]; rfl

@[simp] theorem slotPut_rings (k : Nat) (pkt : IcpPkt) (s : State) : (slotPut k pkt s).rings = s.rings := by
  obtain ⟨m, h⟩ := slotPut_eq_setMem k pkt s
  rw [h]; rfl

@[simp] theorem ringPut_icp (k : Nat) (pkt : IcpPkt) (s : State) : (ringPut k pkt s).icp = s.icp := by
  unfold ringPut
  dsimp only
  split <;> simp

/-- A command placed in a ring leaves every other ring as it was. -/
theorem ringOf_ringPut_of_ne {k q : Nat} (h : k ≠ q) (pkt : IcpPkt) (s : State) : ringOf (ringPut k pkt s) q = ringOf s q := by
  unfold ringPut
  dsimp only
  split
  · rfl
  · rw [ringOf_setRing, if_neg h]
    simp [ringOf]

@[simp] theorem fetchSlot_icp (k : Nat) (s : State) : (fetchSlot k s).icp = s.icp := by
  unfold fetchSlot
  dsimp only
  split <;> rfl

theorem fetchable_of_unread_nil {s : State} {k : Nat} (h : (ringOf s k).unread = []) : fetchable s k = none := by
  simp [fetchable, h]

/-- A ring with a command to fetch is listed. -/
theorem mem_rings_of_fetchable {s : State} {k : Nat} {p : IcpPkt} (h : fetchable s k = some p) : k ∈ s.rings.map (·.1) := by
  by_contra hk
  have hl : look s.rings k = none := by
    generalize s.rings = l at hk
    induction l with
    | nil => rfl
    | cons e r ih =>
      simp only [List.map_cons, List.mem_cons, not_or] at hk
      rw [look, if_neg (Ne.symm hk.1), ih hk.2]
  have hu : (ringOf s k).unread = [] := by
    rw [ringOf, lookD, hl, Option.getD_none]
    split <;> rfl
  rw [fetchable_of_unread_nil hu] at h
  cases h

/-- Where one ring alone has a command to fetch and nothing else waits, what goes on is the fetch of that command. -/
theorem wakeOnce_of_fetchable {s : State} {k : Nat} {p : IcpPkt} (hw : s.icp.waits = []) (hb : s.icp.behind = [])
    (hk : fetchable s k = some p) (ho : ∀ q, q ≠ k → fetchable s q = none) :
    wakeOnce s = some (acceptPkt (viaOf k) (stampHead s k p) (fetchSlot k s)) := by
  have hf : (s.rings.map (·.1)).find? (fun q => (fetchable s q).isSome) = some k := by
    cases hr : (s.rings.map (·.1)).find? (fun q => (fetchable s q).isSome) with
    | none =>
      have := List.find?_eq_none.1 hr k (mem_rings_of_fetchable hk)
      simp [hk] at this
    | some q =>
      have hq := List.find?_some hr
      by_cases e : q = k
      · rw [e]
      · simp [ho q e] at hq
  simp only [wakeOnce, hw, hb, List.find?_nil, pickBehind, hf, hk, Option.map_some]

theorem wakeFor_succ_of_wakeOnce {s x : State} (h : wakeOnce s = some x) (n : Nat) : wakeFor (n + 1) s = wakeFor n x := by
  simp only [wakeFor, h]

/-- Where something can go on, the rest goes on after it. -/
theorem icpWake_of_wakeOnce {s x : State} (h : wakeOnce s = some x) : ∃ n, icpWake s = settleReady (wakeFor n x) :=
  ⟨_, congrArg settleReady (wakeFor_succ_of_wakeOnce h _)⟩

/-- A reply of a ring's command is kept by no session. -/
theorem keptReply_ringKey {via : Via} {k : Nat} (h : ringKey via = some k) (s : State) (tag : Nat) : keptReply s via tag = none := by
  cases via <;> first | rfl | cases h

/-- What a use of the session changes is the session. -/
@[simp] theorem touchSession_waits (via : Via) (s : State) : (touchSession via s).icp.waits = s.icp.waits := by
  unfold touchSession; split <;> rfl
@[simp] theorem touchSession_behind (via : Via) (s : State) : (touchSession via s).icp.behind = s.icp.behind := by
  unfold touchSession; split <;> rfl

/-- With nothing in hand a command is not held. -/
theorem mustHold_of_idle {s : State} (hw : s.icp.waits = []) (hb : s.icp.behind = []) (via : Via) (pkt : IcpPkt) :
    mustHold s via pkt = false := by
  simp [mustHold, waitsOf, coursePaused, drainsType, hw, hb]

theorem releaseSpare_of_ne {via : Via} {pkt : IcpPkt} (h : pkt.opcode ≠ 0x0801) (before s : State) :
    releaseSpare via pkt before s = s := by
  unfold releaseSpare
  dsimp only
  split
  · rw [if_neg (fun hc => h hc.1)]
  · rfl

/-- A command that passes every check is answered as its handler answers it. -/
theorem startPkt_of_reply {op : Nat} {via : Via} {pkt : IcpPkt} {s x : State} {c : Ctx} {st d : Nat} {data : Bytes} (hop : pkt.opcode = op)
    (hne : op ≠ 0x0801) (hc : icpCheck op via pkt s = none) (hfw : pkt.fwFault = false) (hfl : flagBit pkt.flags 1 = false)
    (hx : c = { via := via, pkt := pkt, iss := issuerOf s via, sess := sessionOf s via }) (hh : handlerOf op c s = .reply x st d data) :
    startPkt via pkt s = sendReply c.pkt.opcode c.via c.pkt st d data x := by
  subst hop hx
  rw [startPkt, releaseSpare_of_ne hne]
  unfold icpStart
  simp only [hc]
  rw [if_neg (by simp [hfw]), hh]
  dsimp only
  rw [if_neg (by simp [hfl])]

/-- Taking a packet that no kept reply answers and nothing holds. -/
theorem acceptPkt_of_free {via : Via} {pkt : IcpPkt} {s : State} (hk : keptReply s via pkt.tag = none)
    (hm : mustHold (touchSession via s) via pkt = false) : acceptPkt via pkt s = startPkt via pkt (touchSession via s) := by
  simp [acceptPkt, hk, hm]

theorem taken_opcode (op : Nat) (via : Via) (pkt : IcpPkt) (s : State) : (taken op via pkt s).opcode = op := by
  unfold taken; split <;> rfl
theorem taken_fwFault (op : Nat) (via : Via) (pkt : IcpPkt) (s : State) : (taken op via pkt s).fwFault = pkt.fwFault := by
  unfold taken; split <;> rfl
theorem taken_flags (op : Nat) (via : Via) (pkt : IcpPkt) (s : State) : (taken op via pkt s).flags = pkt.flags := by
  unfold taken; split <;> rfl

/-- A command that starts is answered with what its handler replies (R54, R58, R72): on a ring it is the first thing that goes on, on another
transport it is taken as it arrives. -/
theorem replied_of_handler {op : Nat} {via : Via} {pkt : IcpPkt} {s s0 x : State} {c : Ctx} {st d : Nat} {data : Bytes}
    (hs : Starts op via pkt s c s0) (hne : op ≠ 0x0801) (hh : handlerOf op c s0 = .reply x st d data) :
    Replied (.next (icpRow op via pkt s)) c st d data x := by
  obtain ⟨htake, hcheck, hfw, hfl, hc⟩ := hs
  have hstart : startPkt via (taken op via pkt s) s0 = sendReply c.pkt.opcode c.via c.pkt st d data x :=
    startPkt_of_reply (taken_opcode ..) hne hcheck ((taken_fwFault ..).trans hfw) (by rw [taken_flags]; exact hfl) hc hh
  cases hr : ringKey via with
  | some k =>
    simp only [hr] at htake
    obtain ⟨hvia, hw, hb, hempty, hfetch, hs0⟩ := htake
    have htk : taken op via pkt s = stampHead (ringPut k { pkt with opcode := op } s) k { pkt with opcode := op } := by
      simp [taken, hr]
    have hother : ∀ q, q ≠ k → fetchable (ringPut k { pkt with opcode := op } s) q = none := fun q hq =>
      fetchable_of_unread_nil (by rw [ringOf_ringPut_of_ne (Ne.symm hq), hempty])
    have hwake := wakeOnce_of_fetchable (by simpa using hw) (by simpa using hb) hfetch hother
    rw [hvia, ← htk, acceptPkt_of_free (keptReply_ringKey hr _ _) (mustHold_of_idle (by simpa using hw) (by simpa using hb) _ _), ← hs0, hstart]
      at hwake
    obtain ⟨n, hn⟩ := icpWake_of_wakeOnce hwake
    exact ⟨n, by simp only [icpRow, icpArrive, hr, hn]⟩
  | none =>
    simp only [hr] at htake
    obtain ⟨hserved, hpaused, hkept, hhold, hs0⟩ := htake
    have htk : taken op via pkt s = { pkt with opcode := op } := by simp [taken, hr]
    have harrive : icpArrive via { pkt with opcode := op } s = sendReply c.pkt.opcode c.via c.pkt st d data x := by
      simp only [icpArrive, hr, hserved, hpaused, Bool.not_true, Bool.false_eq_true, if_false]
      rw [acceptPkt_of_free (pkt := { pkt with opcode := op }) hkept hhold, ← hs0, ← htk, hstart]
    rw [icpRow, harrive]
    exact ⟨_, rfl⟩

/-- Checks that all pass leave the rest. -/
theorem checked_of_pass {s : State} {cs : List (Bool × Nat × Nat)} (h : ∀ e ∈ cs, e.1 = false) (k : Res) : checked s cs k = k := by
  have : firstBad cs = none := by
    induction cs with
    | nil => rfl
    | cons e r ih =>
      obtain ⟨b, st, d⟩ := e
      have hb : b = false := h _ List.mem_cons_self
      simpa [firstBad, hb] using ih (fun e he => h e (List.mem_cons_of_mem _ he))
  rw [checked, this]

end Sys2Proof.Machine
end

section
/-! The commands of errors, counters, policies, the dump, straps, the start report and the power cap: what the handler of each answers (R632 to R646, R669,
R694, R715, R716), and from it the reply. -/

namespace Sys2Proof.Machine

open Sys2Proof

variable {via : Via} {pkt : IcpPkt} {s s0 : State} {c : Ctx}

/-! ### ERR_QUERY and ERR_ACK (R632) -/

theorem hErrQuery_all (h : c.p 0 2 = 0xFFFF) (s : State) : hErrQuery c s =
    Res.ok s false (layout 256 [(0, 8, sumCor s), (8, 8, sumCon s), (0x10, 8, sumFat s), (0x18, 1, bit (faultAsserted s))]) := by
  rw [hErrQuery, if_pos h]

theorem hErrQuery_block (h : c.p 0 2 ≤ 60) (s : State) : hErrQuery c s =
    Res.ok s false (layout 256 ((List.range 16).map (fun i => (4 * i, 4, headerReg s (c.p 0 2) (4 * i)))
      ++ [(0x40, 8, (errOf s (c.p 0 2)).firstTime), (0x48, 8, (errOf s (c.p 0 2)).escTime)])) := by
  rw [hErrQuery, if_neg (by omega), checked_of_pass (by simpa using h)]

theorem le_errQuery_firstTime (s : State) (b : Nat) :
    le (layout 256 ((List.range 16).map (fun i => (4 * i, 4, headerReg s b (4 * i)))
      ++ [(0x40, 8, (errOf s b).firstTime), (0x48, 8, (errOf s b).escTime)])) 0x40 8 = (errOf s b).firstTime % 2 ^ 64 := by
  refine le_layout _ [_] 8 le_rfl (fun f hf => ?_) (by decide) (by simp)
  obtain ⟨i, hi, rfl⟩ := List.mem_map.1 hf
  have := List.mem_range.1 hi
  dsimp only
  omega

theorem errQuery_replies (hs : Starts 0x0700 via pkt s c s0) (hb : c.p 0 2 ≤ 60 ∨ c.p 0 2 = 0xFFFF) :
    ∃ data, Replied (exec (.errQuery via pkt) s) c stOk dtNone data s0 ∧
      (c.p 0 2 ≤ 60 → le data 0x40 8 = (errOf s0 (c.p 0 2)).firstTime % 2 ^ 64) ∧ (c.p 0 2 = 0xFFFF → le data 8 8 = sumCon s0 % 2 ^ 64) := by
  rcases hb with hb | hb
  · exact ⟨_, replied_of_handler hs (by decide) (hErrQuery_block hb s0), fun _ => le_errQuery_firstTime s0 _, fun h => by omega⟩
  · refine ⟨_, replied_of_handler hs (by decide) (hErrQuery_all hb s0), fun h => by omega, fun _ => ?_⟩
    exact le_layout [_] [_, _] 8 le_rfl (by simp) (by decide) (by simp)

/-- The reply data of ERR_ACK: ERR_STATUS and ERR_FIRST of the block. -/
def ackData (b : Nat) (t : State) : Bytes := layout 8 [(0, 4, headerReg t b 0x10), (4, 4, headerReg t b 0x14)]

/-- An ACK alone names the latched error by its SEQ. -/
def ackGood (c : Ctx) (s : State) : Bool := (errOf s (c.p 0 2)).valid && (errOf s (c.p 0 2)).seq == c.p 2 1 % 16

theorem hErrAck_ack (hb : c.p 0 2 ≤ 60) (ha : (c.p 3 1).testBit 0 = true) (hc : (c.p 3 1).testBit 1 = false) (s : State) :
    hErrAck c s = if ackGood c s
      then Res.ok (setErr (c.p 0 2) { errOf s (c.p 0 2) with running := false, acked := true, sparing := false } s) false
        (ackData (c.p 0 2) (setErr (c.p 0 2) { errOf s (c.p 0 2) with running := false, acked := true, sparing := false } s))
      else .reply (staleAck s) stConflict 0x0181 (ackData (c.p 0 2) (staleAck s)) := by
  rw [hErrAck, checked_of_pass (by simpa using hb)]
  simp only [ha, hc, Bool.true_and, if_true, Bool.false_eq_true, if_false, ackErr]
  change (if (!ackGood c s) = true then _ else _) = _
  unfold ackData
  by_cases hg : ackGood c s = true
  · have hg' : ((errOf s (c.p 0 2)).valid && (errOf s (c.p 0 2)).seq == c.p 2 1 % 16) = true := hg
    simp only [hg, hg', Bool.not_true, Bool.false_eq_true, if_false, if_true]
  · have hg' : ¬ ((errOf s (c.p 0 2)).valid && (errOf s (c.p 0 2)).seq == c.p 2 1 % 16) = true := hg
    simp only [hg, hg', Bool.not_false, Bool.false_eq_true, if_true, if_false]

theorem hErrAck_clear (hb : c.p 0 2 ≤ 60) (ha : (c.p 3 1).testBit 0 = false) (hc : (c.p 3 1).testBit 1 = true) (s : State) :
    hErrAck c s = if clearAccepted (errOf s (c.p 0 2)) then Res.ok (clearErr (c.p 0 2) s) false (ackData (c.p 0 2) (clearErr (c.p 0 2) s))
      else .reply (clearErr (c.p 0 2) s) stConflict (if (errOf s (c.p 0 2)).cls = 3 then dtFrozen else 0x0182)
        (ackData (c.p 0 2) (clearErr (c.p 0 2) s)) := by
  rw [hErrAck, checked_of_pass (by simpa using hb)]
  simp only [ha, hc, Bool.false_and, if_true, Bool.false_eq_true, if_false, ackData]

theorem clearErr_of_refused {b : Nat} {s : State} (h : clearAccepted (errOf s b) = false) : clearErr b s = staleAck s := by
  simp [clearErr, h]

theorem errAck_replies (hs : Starts 0x0701 via pkt s c s0) (hb : c.p 0 2 ≤ 60) :
    let b := c.p 0 2
    let h := errOf s0 b
    let good := decide (h.valid = true ∧ h.seq = c.p 2 1 % 16)
    ((c.p 3 1).testBit 0 = true → (c.p 3 1).testBit 1 = false → good = true →
      let y := setErr b { h with running := false, acked := true, sparing := false } s0
      Replied (exec (.errAck via pkt) s) c stOk dtNone (ackData b y) y) ∧
    ((c.p 3 1).testBit 0 = true → (c.p 3 1).testBit 1 = false → good = false →
      Replied (exec (.errAck via pkt) s) c stConflict 0x0181 (ackData b (staleAck s0)) (staleAck s0)) ∧
    ((c.p 3 1).testBit 0 = false → (c.p 3 1).testBit 1 = true → clearAccepted h = true →
      Replied (exec (.errAck via pkt) s) c stOk dtNone (ackData b (clearErr b s0)) (clearErr b s0)) ∧
    ((c.p 3 1).testBit 0 = false → (c.p 3 1).testBit 1 = true → clearAccepted h = false →
      Replied (exec (.errAck via pkt) s) c stConflict (if h.cls = 3 then dtFrozen else 0x0182) (ackData b (staleAck s0)) (staleAck s0)) := by
  intro b h good
  have hgood : ackGood c s0 = good := by simp only [ackGood, good, h, b, Bool.decide_and, Bool.decide_eq_true, beq_eq_decide]
  refine ⟨fun ha hc hg => ?_, fun ha hc hg => ?_, fun ha hc hg => ?_, fun ha hc hg => ?_⟩
  · exact replied_of_handler hs (by decide) ((hErrAck_ack hb ha hc s0).trans (if_pos (hgood.trans hg)))
  · exact replied_of_handler hs (by decide) ((hErrAck_ack hb ha hc s0).trans (if_neg (by simp [hgood, hg])))
  · exact replied_of_handler hs (by decide) ((hErrAck_clear hb ha hc s0).trans (if_pos hg))
  · rw [← clearErr_of_refused hg]
    exact replied_of_handler hs (by decide) ((hErrAck_clear hb ha hc s0).trans (if_neg (by simp [h, b] at hg; simp [hg])))

/-! ### COUNTER_SELECT and COUNTER_READ (R640, R641) -/

/-- The counter that COUNTER_SELECT sets, `lim` the greatest value of its event. -/
def selectedCtr (c : Ctx) (lim : Nat) (old : PerfCtr) : PerfCtr :=
  let keep := old.event = c.p 4 2 ∧ old.unit = c.p 6 1 ∧ old.mode = c.p 3 1 ∧ ¬ (c.p 0xE 2).testBit 1
  { enable := (c.p 0xE 2).testBit 0, mode := c.p 3 1, unit := c.p 6 1, event := c.p 4 2, thresh := min lim (c.p 8 4),
    count := if keep then old.count else 0, reader := c.p 0xC 2, last := if keep then old.last else 0 }

theorem clampN_zero (hi v : Nat) : clampN 0 hi v = min hi v := Nat.zero_max _

theorem hCounterSelect_ok {lim : Nat} (hb : c.p 0 2 ≤ 60) (hn : c.p 2 1 ≤ 7) (hm : c.p 3 1 ≤ 3) (hcap : c.p 3 1 ≠ 0 → c.cap 4 = true)
    (hl : eventMax (c.p 0 2) (c.p 4 2) (c.p 6 1) = some lim) (hr : (isPf (c.p 0xC 2) || isVf (c.p 0xC 2) || c.p 0xC 2 == 0xFFFF) = true) (s : State) :
    hCounterSelect c s = c.okEcho (setPerfCtr (c.p 0 2) (c.p 2 1) (selectedCtr c lim (perfOf s (c.p 0 2) (c.p 2 1))) s) 32
      (whole [(0, 2), (2, 1), (3, 1), (4, 2), (6, 1), (0xC, 2)] ++ [(0xE, 2, 3)]) [(8, 4, min lim (c.p 8 4))] := by
  have hcap' : (c.p 3 1 != 0 && !c.cap 4) = false := by
    by_cases h0 : c.p 3 1 = 0
    · simp [h0]
    · simp [hcap h0]
  rw [hCounterSelect, checked_of_pass]
  · simp only [hl, Option.getD_some, clampN_zero, selectedCtr]
  · simp only [List.mem_cons, List.not_mem_nil, or_false, forall_eq_or_imp, forall_eq, hl, hr, hcap']
    simpa using ⟨hb, hn, hm⟩

theorem counterSelect_replies {lim : Nat} (hs : Starts 0x0702 via pkt s c s0) (hb : c.p 0 2 ≤ 60) (hn : c.p 2 1 ≤ 7) (hm : c.p 3 1 ≤ 3)
    (hcap : c.p 3 1 ≠ 0 → c.cap 4 = true) (hl : eventMax (c.p 0 2) (c.p 4 2) (c.p 6 1) = some lim)
    (hr : (isPf (c.p 0xC 2) || isVf (c.p 0xC 2) || c.p 0xC 2 == 0xFFFF) = true) : ∃ k : PerfCtr,
    Replied (exec (.counterSelect via pkt) s) c stOk (okDetail (c.differs [(8, 4, min lim (c.p 8 4))]))
      (c.echo 32 (whole [(0, 2), (2, 1), (3, 1), (4, 2), (6, 1), (0xC, 2)] ++ [(0xE, 2, 3)]) [(8, 4, min lim (c.p 8 4))])
      (setPerfCtr (c.p 0 2) (c.p 2 1) k s0) ∧
    k.enable = (c.p 0xE 2).testBit 0 ∧ k.mode = c.p 3 1 ∧ k.event = c.p 4 2 ∧ k.unit = c.p 6 1 ∧ k.thresh = min lim (c.p 8 4) ∧ k.reader = c.p 0xC 2 ∧
    (((c.p 0xE 2).testBit 1 = true ∨ (perfOf s0 (c.p 0 2) (c.p 2 1)).event ≠ c.p 4 2 ∨ (perfOf s0 (c.p 0 2) (c.p 2 1)).mode ≠ c.p 3 1) → k.count = 0) := by
  refine ⟨_, replied_of_handler hs (by decide) (hCounterSelect_ok hb hn hm hcap hl hr s0), rfl, rfl, rfl, rfl, rfl, rfl, fun h => ?_⟩
  refine if_neg (fun hk => ?_)
  obtain ⟨he, _, hmo, hz⟩ := hk
  rcases h with h | h | h
  · exact hz h
  · exact h he
  · exact h hmo

/-- The entry of a counter in the reply of COUNTER_READ: its count with the skew of its read above it, zero to a function that may not read it. -/
def counterEntry (c : Ctx) (s : State) (n : Nat) : Nat :=
  if (c.iss.kind == 0 || c.iss.kind == 1) && !c.iss.priv && (perfOf s (c.p 0 2) n).reader != c.iss.fid then 0
  else (perfOf s (c.p 0 2) n).count % 2 ^ 48 + (if n = 0 then 0 else min 65535 (Config.freeNat (s.draw + n))) * 2 ^ 48

theorem hCounterRead_ok (hb : c.p 0 2 ≤ 60) (s : State) : hCounterRead c s = Res.ok (s.setDraw (s.draw + 8)) false
    (layout 72 ((0, 8, stamp s (c.p 0 2)) :: (List.range 8).map (fun n => (8 + 8 * n, 8, counterEntry c s n)))) := by
  rw [hCounterRead, checked_of_pass (by simpa using hb)]
  rfl

/-- The field of one counter in that reply. -/
theorem le_counterRead {n m : Nat} (hn : n < 8) (hm : m ≤ 8) (t : Nat) (f : Nat → Nat) :
    le (layout 72 ((0, 8, t) :: (List.range 8).map (fun n => (8 + 8 * n, 8, f n)))) (8 + 8 * n) m = f n % 256 ^ m := by
  have hsplit : List.range 8 = List.range n ++ n :: (List.range (7 - n)).map (n + 1 + ·) := by
    interval_cases n <;> rfl
  rw [hsplit, List.map_append, List.map_cons, ← List.cons_append]
  refine le_layout _ _ m hm (fun g hg => ?_) (by omega) (fun g hg => ?_)
  · rcases List.mem_cons.1 hg with rfl | hg
    · simp
    · obtain ⟨i, hi, rfl⟩ := List.mem_map.1 hg
      have := List.mem_range.1 hi
      dsimp only; omega
  · simp only [List.map_map, List.mem_map, List.mem_range, Function.comp_apply] at hg
    obtain ⟨i, hi, rfl⟩ := hg
    dsimp only; omega

theorem counterRead_replies (hs : Starts 0x0703 via pkt s c s0) (hb : c.p 0 2 ≤ 60) :
    ∃ data, Replied (exec (.counterRead via pkt) s) c stOk dtNone data (s0.setDraw (s0.draw + 8)) ∧
      le data 0 8 = stamp s0 (c.p 0 2) % 2 ^ 64 ∧ ∀ n, n < 8 →
        let hidden := c.iss.kind ≤ 1 ∧ c.iss.priv = false ∧ (perfOf s0 (c.p 0 2) n).reader ≠ c.iss.fid
        (hidden → le data (8 + 8 * n) 8 = 0) ∧ (¬ hidden → le data (8 + 8 * n) 6 = (perfOf s0 (c.p 0 2) n).count % 2 ^ 48) := by
  refine ⟨_, replied_of_handler hs (by decide) (hCounterRead_ok hb s0), ?_, fun n hn => ?_⟩
  · refine le_layout [] _ 8 le_rfl (by simp) (by decide) (fun g hg => ?_)
    obtain ⟨i, hi, rfl⟩ := List.mem_map.1 hg
    have := List.mem_range.1 hi
    dsimp only; omega
  · intro hidden
    have hcond : ((c.iss.kind == 0 || c.iss.kind == 1) && !c.iss.priv && (perfOf s0 (c.p 0 2) n).reader != c.iss.fid) = true ↔ hidden := by
      have hk : c.iss.kind = 0 ∨ c.iss.kind = 1 ↔ c.iss.kind ≤ 1 := by omega
      simp [hidden, hk, and_assoc]
    rw [le_counterRead hn le_rfl, le_counterRead hn (by decide)]
    refine ⟨fun h => ?_, fun h => ?_⟩
    · rw [counterEntry, if_pos (hcond.2 h), Nat.zero_mod]
    · rw [counterEntry, if_neg (fun hc => h (hcond.1 hc))]
      rw [show (256 : Nat) ^ 6 = 2 ^ 48 by norm_num, Nat.add_mul_mod_self_right, Nat.mod_mod]

/-! ### POLICY_SET and POLICY_LOG_READ (R645, R646) -/

/-- A direct command of a stageable object that touches nothing staged answers as the object's own handler. -/
theorem direct_of_reply {t st d : Nat} {x : State} {data : Bytes} (h : stageHandler t c s = .reply x st d data) (hf : stagedHit t c s = false) :
    direct t c s = .reply x st d data := by
  simp only [direct, h, hf, Bool.false_eq_true, if_false]

/-- LOW and HIGH in effect for the policy that POLICY_SET names. -/
def askedBounds (c : Ctx) (s : State) : Nat × Nat := policyBounds s (c.p 0 1) (c.p 2 2) (c.p 8 8) (c.p 0x10 8)

theorem hPolicySet_ok (hp : c.p 0 1 ∈ [1, 2, 5, 7, 8]) (he : c.p 1 1 = 1 ∨ c.p 1 1 = 0xFF ∨ (c.p 1 1 = 0 ∧ c.p 0 1 ≤ 2))
    (hq : policyParamOk (c.p 0 1) (c.p 2 2) = true) (s : State) : hPolicySet c s =
    c.okEcho (setPolicy (c.p 0 1) (c.p 1 1) (c.p 2 2) (askedBounds c s).1 (askedBounds c s).2 s) 32 (whole [(0, 1), (1, 1), (2, 2)])
      [(8, 8, (askedBounds c s).1), (0x10, 8, (askedBounds c s).2)] := by
  have hp' : (!([1, 2, 5, 7, 8].contains (c.p 0 1))) = false := by
    rwa [Bool.not_eq_false', List.contains_iff_mem]
  have he' : (!([0, 1, 0xFF].contains (c.p 1 1)) || (c.p 1 1 == 0 && [5, 7, 8].contains (c.p 0 1))) = false := by
    rcases he with h | h | ⟨h, hle⟩
    · simp [h]
    · simp [h]
    · simp [h]
      omega
  rw [hPolicySet, checked_of_pass]
  · rfl
  · simp only [List.mem_cons, List.not_mem_nil, or_false, forall_eq_or_imp, forall_eq, hp', he', hq, Bool.not_true, and_self]

theorem clampN_bounds {lo hi : Nat} (h : lo ≤ hi) (v : Nat) : lo ≤ clampN lo hi v ∧ clampN lo hi v ≤ hi := by
  unfold clampN; omega

theorem policySet_replies (hs : Starts 0x0704 via pkt s c s0) (hp : c.p 0 1 ∈ [1, 2, 5, 7, 8])
    (he : c.p 1 1 = 1 ∨ c.p 1 1 = 0xFF ∨ (c.p 1 1 = 0 ∧ c.p 0 1 ≤ 2)) (hq : policyParamOk (c.p 0 1) (c.p 2 2) = true)
    (hf : stagedHit 9 c s0 = false) :
    Replied (exec (.policySet via pkt) s) c stOk
      (okDetail (c.differs [(8, 8, (askedBounds c s0).1), (0x10, 8, (askedBounds c s0).2)]))
      (c.echo 32 (whole [(0, 1), (1, 1), (2, 2)]) [(8, 8, (askedBounds c s0).1), (0x10, 8, (askedBounds c s0).2)])
      (setPolicy (c.p 0 1) (c.p 1 1) (c.p 2 2) (askedBounds c s0).1 (askedBounds c s0).2 s0) ∧
    (c.p 0 1 = 2 → 1 ≤ (askedBounds c s0).1 ∧ (askedBounds c s0).1 ≤ 10000000) ∧
    (c.p 0 1 = 8 → 1 ≤ (askedBounds c s0).1 ∧ (askedBounds c s0).1 ≤ 16) := by
  refine ⟨replied_of_handler hs (by decide) (direct_of_reply (hPolicySet_ok hp he hq s0) hf), fun h => ?_, fun h => ?_⟩
  · simpa [askedBounds, h, policyBounds] using clampN_bounds (by decide : 1 ≤ 10000000) (c.p 8 8)
  · simpa [askedBounds, h, policyBounds] using clampN_bounds (by decide : 1 ≤ 16) (c.p 8 8)

theorem policyLogRead_replies (hs : Starts 0x0705 via pkt s c s0) :
    let n := max 1 (min 126 (c.p 4 4))
    let recs := (s0.tel.plog.filter (fun r => decide (c.p 0 4 ≤ r.seq))).take n
    ∃ seen data, Replied (exec (.policyLogRead via pkt) s) c stOk (okDetail (n != c.p 4 4)) data (s0.setTel { s0.tel with plogRead := seen }) ∧
      le data 4 4 = recs.length ∧ s0.tel.plogRead ≤ seen ∧ (∀ r, recs.getLast? = some r → r.seq < seen) := by
  intro n recs
  refine ⟨_, _, replied_of_handler hs (by decide) (rfl : hPolicyLogRead c s0 = _), ?_, ?_, fun r hr => ?_⟩
  · have hlen : recs.length ≤ 126 := (List.length_take_le _ _).trans (by simp only [n]; omega)
    rw [le_append_left (by rw [layout_length (by simp)]; decide)]
    refine (le_layout [_] [_] 4 le_rfl (by simp) (by decide) (by simp)).trans (Nat.mod_eq_of_lt ?_)
    exact lt_of_le_of_lt hlen (by norm_num)
  · show s0.tel.plogRead ≤ match recs.getLast? with | some r => max s0.tel.plogRead (r.seq + 1) | none => s0.tel.plogRead
    split
    · exact le_max_left _ _
    · exact le_rfl
  · show r.seq < match recs.getLast? with | some r => max s0.tel.plogRead (r.seq + 1) | none => s0.tel.plogRead
    rw [hr]
    exact lt_of_lt_of_le (Nat.lt_succ_self _) (le_max_right _ _)

/-! ### DUMP_READ (R633) -/

theorem dumpRead_replies (hs : Starts 0x0F02 via pkt s c s0) (ho : c.p 0 8 ≤ ((s0.tel.dump.map (·.bytes)).getD []).length)
    (hn : c.p 8 4 ≤ 4048) :
    let d := (s0.tel.dump.map (·.bytes)).getD []
    let piece := (d.drop (c.p 0 8)).take (c.p 8 4)
    ∃ src, Replied (exec (.dumpRead via pkt) s) c stOk dtNone
      (layout 16 [(0, 8, d.length), (8, 4, piece.length), (12, 4, src)] ++ piece) s0 := by
  intro d piece
  exact ⟨_, replied_of_handler hs (by decide) (checked_of_pass (by simpa using ⟨ho, hn⟩) _ : hDumpRead c s0 = _)⟩

/-! ### Straps and the start report (R669, R715, R716) -/

/-- STRAP_OVERRIDE's effect on the overrides of the next cold reset: mask and value. -/
def overridden (c : Ctx) (s : State) : Nat × Nat :=
  let m := c.p 0 2
  let clear := (c.p 4 1).testBit 0
  let gone := if clear ∧ m = 0 then 0xFFFF else m
  (if clear then s.pins.nextMask &&& (0xFFFF - gone) else s.pins.nextMask ||| m,
   if clear then s.pins.nextValue &&& (0xFFFF - gone) else (s.pins.nextValue &&& (0xFFFF - m)) ||| (c.p 2 2 &&& m))

theorem hStrapOverride_ok (hm : c.p 0 2 < 0x2000) (s : State) : ∃ y, hStrapOverride c s = Res.ok y false (strapReply y) ∧
    y.pins = { s.pins with nextMask := (overridden c s).1, nextValue := (overridden c s).2 } ∧ y.mem = s.mem := by
  have hpass : hStrapOverride c s = _ := checked_of_pass (by simpa using hm) _
  exact ⟨_, hpass, iteInduction (motive := fun y : State => y.pins = _ ∧ y.mem = _) (fun _ => ⟨rfl, rfl⟩) (fun _ => ⟨rfl, rfl⟩)⟩

theorem testBit_complement {i : Nat} (hi : i < 16) (m : Nat) (hm : m < 2 ^ 16) : (0xFFFF - m).testBit i = !m.testBit i := by
  have := Nat.testBit_two_pow_sub_succ hm i
  simpa [hi, Nat.sub_sub, Nat.add_comm] using this

theorem overridden_value_testBit (hc : (c.p 4 1).testBit 0 = false) (hm : c.p 0 2 < 0x2000) {i : Nat} (hi : i < 13)
    (hb : (c.p 0 2).testBit i = true) : (overridden c s).2.testBit i = (c.p 2 2).testBit i := by
  simp [overridden, hc, Nat.testBit_or, Nat.testBit_and, testBit_complement (by omega : i < 16) (c.p 0 2) (by omega), hb]

theorem strapOverride_replies (hs : Starts 0x0102 via pkt s c s0) (hm : c.p 0 2 < 0x2000) :
    ∃ y, Replied (exec (.strapOverride via pkt) s) c stOk dtNone (strapReply y) y ∧
      ((c.p 4 1).testBit 0 = false → y.pins.nextMask = s0.pins.nextMask ||| c.p 0 2 ∧
        ∀ i, i < 13 → (c.p 0 2).testBit i = true → y.pins.nextValue.testBit i = (c.p 2 2).testBit i) ∧
      ((c.p 4 1).testBit 0 = true → c.p 0 2 = 0 → ∀ i, i < 16 → y.pins.nextMask.testBit i = false) ∧
      y.pins.latched = s0.pins.latched ∧ y.mem = s0.mem := by
  obtain ⟨y, hy, hpins, hmem⟩ := hStrapOverride_ok hm s0
  refine ⟨y, replied_of_handler hs (by decide) hy, fun hc => ⟨?_, fun i hi hb => ?_⟩, fun hc h0 i _ => ?_, ?_, hmem⟩
  · simp [hpins, overridden, hc]
  · rw [hpins]
    exact overridden_value_testBit hc hm hi hb
  · simp [hpins, overridden, hc, h0]
  · rw [hpins]

theorem getStraps_replies (hs : Starts 0x0101 via pkt s c s0) : Replied (exec (.getStraps via pkt) s) c stOk dtNone (strapReply s0) s0 :=
  replied_of_handler hs (by decide) (rfl : hGetStraps c s0 = _)

theorem getStartReport_replies (hs : Starts 0x0103 via pkt s c s0) :
    ∃ data, Replied (exec (.getStartReport via pkt) s) c stOk dtNone data s0 ∧
      le data 0 1 = s0.boot.stage % 2 ^ 8 ∧ le data 8 4 = s0.boot.startCount % 2 ^ 32 := by
  refine ⟨_, replied_of_handler hs (by decide) (rfl : hGetStartReport c s0 = _), ?_, ?_⟩
  · rw [List.append_assoc, le_append_left (by rw [layout_length (by simp)]; decide)]
    exact le_layout [] _ 1 le_rfl (by simp) (by decide) (by simp)
  · rw [List.append_assoc, le_append_left (by rw [layout_length (by simp)]; decide)]
    exact le_layout [_, _, _, _, _, _, _, _] _ 4 le_rfl (by simp) (by decide) (by simp)

/-! ### POWER_CAP_SET (R694) -/

theorem powerCapSet_replies (hs : Starts 0x0120 via pkt s c s0) :
    let w := max 250 (min 600 (c.p 0 2))
    let t := max 70 (min 95 (c.p 3 1))
    ∃ data y, Replied (exec (.powerCapSet via pkt) s) c stOk (okDetail (w != c.p 0 2 || t != c.p 3 1)) data y ∧ le data 0 2 = w ∧ le data 3 1 = t ∧
      y.pwr.nextCap = some w ∧ y.pwr.tempC = t ∧ y.pwr.capW = s0.pwr.capW ∧
      y.pwr.persisted = (if c.p 2 1 % 2 = 1 then some (w, t) else s0.pwr.persisted) := by
  intro w t
  have hw : w ≤ 600 := by simp only [w]; omega
  have ht : t ≤ 95 := by simp only [t]; omega
  refine ⟨_, _, replied_of_handler hs (by decide) (rfl : hPowerCapSet c s0 = _), ?_, ?_, ?_⟩
  · exact (le_layout [] _ 2 le_rfl (by simp) (by decide) (by simp)).trans (Nat.mod_eq_of_lt (lt_of_le_of_lt hw (by norm_num)))
  · exact (le_layout [_, _] _ 1 le_rfl (by simp) (by decide) (by simp)).trans (Nat.mod_eq_of_lt (lt_of_le_of_lt ht (by norm_num)))
  · by_cases hf : c.p 2 1 % 2 = 1
    · simp only [hf, if_true]
      exact ⟨rfl, rfl, rfl, rfl⟩
    · simp only [hf, if_false]
      exact ⟨rfl, rfl, rfl, rfl⟩

end Sys2Proof.Machine
end

section
/-! Registers of CSR space (R12 to R14, R28 to R30, R136, R648): what a cell reads after a write, what a write of each kind of register does. -/

namespace Sys2Proof.Machine

open Sys2Proof

/-! ### Cells -/

theorem cell_setCell (b rel v : Nat) (s : State) (b' rel' : Nat) :
    cell (setCell b rel v s) b' rel' = if blkBase b + rel = blkBase b' + rel' then v % 2 ^ 32 else cell s b' rel' := by
  by_cases h : blkBase b + rel = blkBase b' + rel'
  · simp [cell, setCell, h]
  · simp [cell, setCell, look_put_of_ne, h]

theorem cell_setCell_same (b rel v : Nat) (s : State) : cell (setCell b rel v s) b rel = v % 2 ^ 32 := by
  rw [cell_setCell, if_pos rfl]

theorem cell_setCell_of_ne {b rel b' rel' : Nat} (h : blkBase b + rel ≠ blkBase b' + rel') (v : Nat) (s : State) :
    cell (setCell b rel v s) b' rel' = cell s b' rel' := by
  rw [cell_setCell, if_neg h]

/-- A cell is read off the register file alone. -/
theorem cell_congr {s t : State} (h : t.csr = s.csr) (b rel : Nat) : cell t b rel = cell s b rel := by
  rw [cell, cell, h]

theorem cell_lt (s : State) {b rel : Nat} (h : cellReset b rel < 2 ^ 32) : cell s b rel < 2 ^ 32 := by
  unfold cell
  split
  · exact BitVec.isLt _
  · exact h

theorem cell_bump_same (b rel : Nat) (s : State) : cell (bump b rel s) b rel = (cell s b rel + 1) % 2 ^ 32 := cell_setCell_same ..

/-- The offset counted last under R29 and R101. -/
theorem cell_countUnmapped (addr : Nat) (s : State) : cell (countUnmapped addr s) blkGlobal 0x170 = addr % 2 ^ 32 := cell_setCell_same ..

@[simp] theorem emit_csr (o : Out) (s : State) : (emit o s).csr = s.csr := rfl
@[simp] theorem emit_mem (o : Out) (s : State) : (emit o s).mem = s.mem := rfl
@[simp] theorem emit_err (o : Out) (s : State) : (emit o s).err = s.err := rfl
@[simp] theorem setCell_mem (b rel v : Nat) (s : State) : (setCell b rel v s).mem = s.mem := rfl
@[simp] theorem setCell_err (b rel v : Nat) (s : State) : (setCell b rel v s).err = s.err := rfl
@[simp] theorem countUnmapped_mem (addr : Nat) (s : State) : (countUnmapped addr s).mem = s.mem := rfl
@[simp] theorem countUnmapped_ports (addr : Nat) (s : State) : (countUnmapped addr s).ports = s.ports := rfl

/-! ### The write of a stored field -/

theorem clampN_le {lo hi : Nat} (h : lo ≤ hi) (v : Nat) : clampN lo hi v ≤ hi := (clampN_bounds h v).2

theorem bits_lt (v lo w : Nat) : bits v lo w < 2 ^ w := Nat.mod_lt _ (by positivity)

/-- Six bits, summed by their weights. -/
theorem sum_six_bits_lt (p : Nat → Bool) : ((List.range 6).map (fun i => if p i then 2 ^ i else 0)).sum < 64 := by
  have hle : ∀ i, (if p i then 2 ^ i else 0) ≤ 2 ^ i := fun i => by split <;> simp
  have h0 := hle 0; have h1 := hle 1; have h2 := hle 2; have h3 := hle 3; have h4 := hle 4; have h5 := hle 5
  simp only [List.range, List.range.loop, List.map_cons, List.map_nil, List.sum_cons, List.sum_nil]
  omega

/-- A register that a plain write stores: which it is, and that no state held elsewhere shows through it. -/
theorem storedWrite_cases {s : State} {b rel v x : Nat} (h : storedWrite s b rel v = some x) :
    (b = blkTable ∧ (rel = 0x10000 ∨ rel = 0x10004 ∨ rel = 0x10008 ∨ rel = 0x1000C)) ∨
    ((19 ≤ b ∧ b ≤ 24) ∧ (rel = 0x10C ∨ rel = 0x114)) ∨ ((2 ≤ b ∧ b ≤ 18) ∧ rel = 0x128) ∨
    (b = blkTelem ∧ 0x120 ≤ rel ∧ rel ≤ 0x12C) ∨ (b = blkGlobal ∧ (rel = 0x158 ∨ rel = 0x15C ∨ rel = 0x168)) := by
  unfold storedWrite at h
  split at h
  next hb => left; refine ⟨hb, ?_⟩; split at h <;> simp_all
  next =>
    split at h
    next hb => right; left; refine ⟨hb, ?_⟩; split at h <;> simp_all
    next =>
      split at h
      next hb => right; right; left; refine ⟨hb, ?_⟩; split at h <;> simp_all
      next =>
        split at h
        next hb => right; right; right; left; refine ⟨hb, ?_⟩; split at h <;> simp_all
        next =>
          split at h
          next hb => right; right; right; right; refine ⟨hb, ?_⟩; split at h <;> simp_all
          next => cases h

/-- The value stored fits the register. -/
theorem storedWrite_lt {s : State} {b rel v x : Nat} (hv : v < 2 ^ 32) (h : storedWrite s b rel v = some x) : x < 2 ^ 32 := by
  rcases storedWrite_cases h with ⟨rfl, hr⟩ | ⟨hb, hr⟩ | ⟨hb, rfl⟩ | ⟨rfl, hr⟩ | ⟨rfl, hr⟩
  · rcases hr with rfl | rfl | rfl | rfl
    · obtain rfl : _ = x := Option.some.inj h
      have := bits_lt v 31 1; have := clampN_le (by decide : 1 ≤ 10000) (bits v 0 14)
      omega
    · obtain rfl : _ = x := Option.some.inj h
      have := clampN_bounds (by decide : 1 ≤ 255) (bits v 8 8)
      have := clampN_le (Nat.zero_le (clampN 1 255 (bits v 8 8) - 1)) (bits v 0 8)
      omega
    · obtain rfl : _ = x := Option.some.inj h
      have := clampN_bounds (by decide : 1 ≤ 49) (bits v 0 8)
      have := clampN_le (by omega : clampN 1 49 (bits v 0 8) + 1 ≤ 50) (bits v 8 8)
      omega
    · obtain rfl : _ = x := Option.some.inj h
      have := clampN_le (by decide : 1 ≤ 64) (bits v 0 8)
      omega
  · have hne : b ≠ blkTable := by simp only [blkTable]; omega
    rcases hr with rfl | rfl <;> simp only [storedWrite, hne, hb, if_true, if_false, and_self, Option.some.injEq] at h
    · have := clampN_le (by decide : 1 ≤ 8) (bits v 0 4)
      omega
    · have := bits_lt v 31 1; have := clampN_le (by decide : 1 ≤ 168) (bits v 0 8)
      omega
  · have hne : b ≠ blkTable := by simp only [blkTable]; omega
    have hmc : ¬ (19 ≤ b ∧ b ≤ 24) := by omega
    simp only [storedWrite, hne, hmc, hb, if_true, if_false, and_self, Option.some.injEq] at h
    have := clampN_le (by decide : 16 ≤ 4096) (bits v 0 13)
    omega
  · have hx : (some v : Option Nat) = some x := by rw [← h]; simp [storedWrite, blkTelem, blkTable, hr]
    exact Option.some.inj hx ▸ hv
  · rcases hr with rfl | rfl | rfl
    · obtain rfl : _ = x := Option.some.inj h
      exact hv
    · obtain rfl : _ = x := Option.some.inj h
      have := Nat.mod_lt v (by norm_num : 0 < 2 ^ 16)
      omega
    · obtain rfl : _ = x := Option.some.inj h
      have := sum_six_bits_lt (fun i => (cell s blkGlobal 0x168).testBit i && !v.testBit i)
      have := cell_lt s (b := blkGlobal) (rel := 0x168) (by decide)
      omega

/-- No state held elsewhere shows through a stored register. -/
theorem derivedReg_of_stored {s : State} {b rel v x : Nat} (h : storedWrite s b rel v = some x) (t : State) : derivedReg t b rel = none := by
  rcases storedWrite_cases h with ⟨rfl, hr⟩ | ⟨hb, hr⟩ | ⟨hb, rfl⟩ | ⟨rfl, hr⟩ | ⟨rfl, hr⟩
  · rcases hr with rfl | rfl | rfl | rfl <;> rfl
  · have h0 : b ≠ blkGlobal := by simp only [blkGlobal]; omega
    have h1 : ¬ (2 ≤ b ∧ b ≤ 18) := by omega
    rcases hr with rfl | rfl <;> simp [derivedReg, h0, h1, hb, mcReg]
  · have h0 : b ≠ blkGlobal := by simp only [blkGlobal]; omega
    simp [derivedReg, h0, hb, clusterReg]
  · have : telemReg t rel = none := by
      unfold telemReg
      split <;> first | rfl | omega
    simpa [derivedReg, blkTelem, blkGlobal, blkTable, blkCourse, blkStorage, blkTransport, blkCipher] using this
  · rcases hr with rfl | rfl | rfl <;> rfl

/-- A fold of operations that send something and change nothing else. -/
theorem foldl_eq_setOut {α : Type} {f : State → α → State} (hf : ∀ t x, ∃ o, f t x = t.setOut o) (l : List α) (s : State) :
    ∃ o, l.foldl f s = s.setOut o := by
  induction l generalizing s with
  | nil => exact ⟨s.out, rfl⟩
  | cons x r ih =>
    obtain ⟨o, ho⟩ := hf s x
    obtain ⟨o', ho'⟩ := ih (s.setOut o)
    exact ⟨o', by rw [List.foldl_cons, ho, ho']; rfl⟩

/-- Driving the balls sends levels out and changes nothing else. -/
theorem driveGpio_eq_setOut (before s : State) : ∃ o, driveGpio before s = s.setOut o := by
  refine foldl_eq_setOut (fun t g => ?_) _ s
  split
  · split
    · exact ⟨t.out, rfl⟩
    · exact ⟨_, rfl⟩
  · exact ⟨t.out, rfl⟩

/-- A stored register takes its value: it is put into the register file, and nothing else but what is sent out changes. -/
theorem writeOwn_of_stored {who : Requester} {s : State} {b rel v x : Nat} (h : storedWrite s b rel v = some x) :
    ∃ o, writeOwn who b rel v s = (setCell b rel x s).setOut o := by
  have hspecial : ¬ (b = blkGlobal ∧ rel = 0x108) ∧ ¬ (2 ≤ b ∧ b ≤ 18 ∧ rel = 0x11C) ∧ ¬ (19 ≤ b ∧ b ≤ 24 ∧ rel = 0x110) ∧
      ¬ (b = blkCourse ∧ rel = 0x128) ∧ ¬ (b = blkCipher ∧ rel = 0x108) := by
    have := storedWrite_cases h
    simp only [blkTable, blkTelem, blkGlobal, blkCourse, blkCipher] at *
    omega
  obtain ⟨h1, h2, h3, h4, h5⟩ := hspecial
  simp only [writeOwn, h1, h2, h3, h4, h5, h, if_false]
  split
  · exact driveGpio_eq_setOut _ _
  · exact ⟨s.out, rfl⟩

/-! ### A write of 32 bits by offset -/

theorem csrPut_unoccupied {off : Nat} (h : blkOf off = none) (who : Requester) (v : Nat) (s : State) :
    csrPut who off v s = countUnmapped off s := by
  simp only [csrPut, h]

theorem csrPut_denied {who : Requester} {off b rel : Nat} (h : blkOf off = some (b, rel))
    (hd : (b = blkPower ∧ who ≠ .steward) ∨ (guarded b rel = true ∧ trusted who = false)) (v : Nat) (s : State) :
    csrPut who off v s = countUnmapped off s := by
  simp only [csrPut, h]
  split
  · rfl
  · rcases hd with hd | ⟨hg, ht⟩
    · contradiction
    · simp [hg, ht]

/-- The write of a register that the requester may write. -/
theorem csrPut_permitted {who : Requester} {off b rel : Nat} (h : blkOf off = some (b, rel)) (hp : b ≠ blkPower ∨ who = .steward)
    (hg : guarded b rel = false ∨ trusted who = true) (v : Nat) (s : State) : csrPut who off v s =
    if rel < 0x40 then writeHeader b rel v s else if 0x200 ≤ rel ∧ rel < 0x280 then writePerf b rel v s else writeOwn who b rel v s := by
  have hp' : ¬ (b = blkPower ∧ who ≠ .steward) := by rintro ⟨h1, h2⟩; exact hp.elim (· h1) h2
  have hg' : (guarded b rel && !trusted who) = false := by rcases hg with h | h <;> simp [h]
  simp only [csrPut, h, hp', hg', Bool.false_eq_true, if_false]

/-- Below 0x100 no register but those of the header takes a write. -/
theorem writeOwn_low {rel : Nat} (h : rel < 0x100) (who : Requester) (b v : Nat) (s : State) : writeOwn who b rel v s = s := by
  have hn : storedWrite s b rel v = none := by
    cases hx : storedWrite s b rel v with
    | none => rfl
    | some x => have := storedWrite_cases hx; omega
  have h1 : ¬ (b = blkGlobal ∧ rel = 0x108) := by omega
  have h2 : ¬ (2 ≤ b ∧ b ≤ 18 ∧ rel = 0x11C) := by omega
  have h3 : ¬ (19 ≤ b ∧ b ≤ 24 ∧ rel = 0x110) := by omega
  have h4 : ¬ (b = blkCourse ∧ rel = 0x128) := by omega
  have h5 : ¬ (b = blkCipher ∧ rel = 0x108) := by omega
  simp only [writeOwn, h1, h2, h3, h4, h5, hn, if_false]

theorem writeHeader_other {rel : Nat} (h : rel ∉ [0x1C, 0x24, 0x28]) (b v : Nat) (s : State) : writeHeader b rel v s = s := by
  simp only [List.mem_cons, List.not_mem_nil, or_false, not_or] at h
  obtain ⟨h1, h2, h3⟩ := h
  unfold writeHeader
  dsimp only
  split <;> first | rfl | contradiction

end Sys2Proof.Machine
end

section
/-! Errors recorded (R622): what the header of the block holds after, and what recording leaves as it was. -/

namespace Sys2Proof.Machine

open Sys2Proof

@[simp] theorem setErr_mem (b : Nat) (h : ErrHdr) (s : State) : (setErr b h s).mem = s.mem := rfl
@[simp] theorem errOf_setErr_same (b : Nat) (h : ErrHdr) (s : State) : errOf (setErr b h s) b = h := by simp [errOf, setErr]
@[simp] theorem perfEvent_mem (b ev v : Nat) (s : State) : (perfEvent b ev v s).mem = s.mem := rfl
@[simp] theorem perfEvent_err (b ev v : Nat) (s : State) : (perfEvent b ev v s).err = s.err := rfl
@[simp] theorem perfEvent_csr (b ev v : Nat) (s : State) : (perfEvent b ev v s).csr = s.csr := rfl

/-- The port block that leads to a function is one of the twenty. -/
theorem pathBlock_lt {s : State} {fid n : Nat} (h : pathBlock s fid = some n) : n < 20 := by
  unfold pathBlock at h
  split at h
  next ha =>
    simp only [isAccel, decide_eq_true_eq] at ha
    obtain rfl := Option.some.inj h
    omega
  next => exact List.mem_range.1 (List.mem_of_mem_filter (List.mem_of_getElem? h))

/-- A register that is no port block's counter of dropped requests, by its offset in CSR space. -/
def noDropCounter (b rel : Nat) : Prop := ∀ n < 20, blkBase (blkPb n) + 0x11C ≠ blkBase b + rel

/-- Dropped requests are counted in a port block, and that is all. -/
theorem dmaDropped_frame (fid n : Nat) (s : State) : (dmaDropped fid n s).mem = s.mem ∧ (dmaDropped fid n s).err = s.err ∧
    ∀ b rel, noDropCounter b rel → cell (dmaDropped fid n s) b rel = cell s b rel := by
  unfold dmaDropped
  split
  next k hk => exact ⟨rfl, rfl, fun b rel h => cell_setCell_of_ne (h k (pathBlock_lt hk)) _ _⟩
  next => exact ⟨rfl, rfl, fun _ _ _ => rfl⟩

/-- An MSI-X message leaves memory, the error headers and every register but a port block's counter of dropped requests. -/
theorem raiseMsix_frame (fn vec : Nat) (s : State) : (raiseMsix fn vec s).mem = s.mem ∧ (raiseMsix fn vec s).err = s.err ∧
    ∀ b rel, noDropCounter b rel → cell (raiseMsix fn vec s) b rel = cell s b rel := by
  unfold raiseMsix
  split
  · exact ⟨rfl, rfl, fun _ _ _ => rfl⟩
  · split
    · exact dmaDropped_frame fn 1 s
    · exact ⟨rfl, rfl, fun _ _ _ => rfl⟩

theorem notifyErr_frame (b cls : Nat) (s : State) : (notifyErr b cls s).mem = s.mem ∧ (notifyErr b cls s).err = s.err ∧
    ∀ b' rel, noDropCounter b' rel → cell (notifyErr b cls s) b' rel = cell s b' rel := by
  unfold notifyErr
  split
  · exact ⟨rfl, rfl, fun _ _ _ => rfl⟩
  · dsimp only
    generalize ht : (if errRoute s b % 2 = 1 then raiseMsix (pfId 0 0) (1024 + b) s else s) = t
    have hfirst : t.mem = s.mem ∧ t.err = s.err ∧ ∀ b' rel, noDropCounter b' rel → cell t b' rel = cell s b' rel := by
      subst ht
      split
      · exact raiseMsix_frame _ _ s
      · exact ⟨rfl, rfl, fun _ _ _ => rfl⟩
    split
    · obtain ⟨hm, he, hc⟩ := raiseMsix_frame (pfId 1 0) (1024 + b) t
      exact ⟨hm.trans hfirst.1, he.trans hfirst.2.1, fun b' rel h => (hc b' rel h).trans (hfirst.2.2 b' rel h)⟩
    · exact hfirst

theorem driveFault_frame (before : Bool) (s : State) : (driveFault before s).mem = s.mem ∧ (driveFault before s).err = s.err ∧
    (driveFault before s).csr = s.csr := by
  unfold driveFault
  split
  · exact ⟨rfl, rfl, rfl⟩
  · split <;> exact ⟨rfl, rfl, rfl⟩

/-- Recording an error leaves memory and, but for a port block's counter of dropped requests, the registers. -/
theorem noteErr_frame (b cls src : Nat) (info : List Nat) (s : State) : (noteErr b cls src info s).mem = s.mem ∧
    ∀ b' rel, noDropCounter b' rel → cell (noteErr b cls src info s) b' rel = cell s b' rel := by
  unfold noteErr
  dsimp only
  obtain ⟨hm, _, hr⟩ := driveFault_frame (faultAsserted s) (notifyErr b cls (perfEvent b (if cls = 1 then 1 else 2) 1
    (setErr b (reactErr (now s (blkIsland b)) cls (latchErr (stamp s b) cls src info (errOf s b))) s)))
  obtain ⟨hm', _, hc'⟩ := notifyErr_frame b cls (perfEvent b (if cls = 1 then 1 else 2) 1
    (setErr b (reactErr (now s (blkIsland b)) cls (latchErr (stamp s b) cls src info (errOf s b))) s))
  exact ⟨hm.trans hm', fun b' rel h => (cell_congr hr b' rel).trans (hc' b' rel h)⟩

/-- The headers after an error is recorded: the block's has latched and reacted, and the others are as they were. -/
theorem noteErr_err (b cls src : Nat) (info : List Nat) (s : State) : (noteErr b cls src info s).err =
    put s.err b (reactErr (now s (blkIsland b)) cls (latchErr (stamp s b) cls src info (errOf s b))) := by
  unfold noteErr
  dsimp only
  rw [(driveFault_frame _ _).2.1, (notifyErr_frame _ _ _).2.1]
  rfl

theorem errOf_noteErr (b cls src : Nat) (info : List Nat) (s : State) : errOf (noteErr b cls src info s) b =
    reactErr (now s (blkIsland b)) cls (latchErr (stamp s b) cls src info (errOf s b)) := by
  rw [errOf, noteErr_err, lookD_put_same]

/-- The reaction to an error is in the class in force and the timer alone. -/
theorem reactErr_eq (t cls : Nat) (h : ErrHdr) : ∃ c a r e, reactErr t cls h = { h with cls := c, acked := a, running := r, timerEnd := e } := by
  unfold reactErr
  split
  · exact ⟨_, _, _, _, rfl⟩
  · split
    · exact ⟨_, _, _, _, rfl⟩
    · split
      · exact ⟨_, _, _, _, rfl⟩
      · split
        · split <;> exact ⟨_, _, _, _, rfl⟩
        · exact ⟨_, _, _, _, rfl⟩

/-- R622: an error is recorded as the rule says. -/
theorem recorded_noteErr (b cls src : Nat) (info : List Nat) (s : State) : Recorded s (noteErr b cls src info s) b cls src info := by
  unfold Recorded
  rw [errOf_noteErr]
  obtain ⟨c, a, r, e, h⟩ := reactErr_eq (now s (blkIsland b)) cls (latchErr (stamp s b) cls src info (errOf s b))
  rw [h]
  cases hv : (errOf s b).valid <;> simp [latchErr, hv, infoOf, satAdd]

end Sys2Proof.Machine
end

section
/-! Registers beside CSR space: configuration space (R389, R391, R393, R404, R432), the MSI-X tables (R394), ACS control (R386), windows (R397), the
aperture table (R399, R400), counters (R637). -/

namespace Sys2Proof.Machine

open Sys2Proof

/-! ### Configuration words -/

theorem cfgWord_setCfg (fid off v : Nat) (s : State) (f o : Nat) : cfgWord (setCfg fid off v s) f o =
    if fid * 4096 + off = f * 4096 + o then v % 2 ^ 32 else cfgWord s f o := by
  by_cases h : fid * 4096 + off = f * 4096 + o
  · simp [cfgWord, setCfg, h]
  · simp [cfgWord, setCfg, lookD_put_of_ne, h]

theorem cfgWord_lt (s : State) (f o : Nat) : cfgWord s f o < 2 ^ 32 := BitVec.isLt _

@[simp] theorem setCfg_fns (fid off v : Nat) (s : State) : (setCfg fid off v s).fns = s.fns := rfl
@[simp] theorem setCfg_csr (fid off v : Nat) (s : State) : (setCfg fid off v s).csr = s.csr := rfl
@[simp] theorem setCfg_mem (fid off v : Nat) (s : State) : (setCfg fid off v s).mem = s.mem := rfl

section
variable {hp : Nat} (h : hp ≤ 1)
include h

theorem isPf_pf0 : isPf (pfId hp 0) = true := by simp [isPf, pfId]; omega
theorem isVf_pf0 : isVf (pfId hp 0) = false := by simp [isVf, pfId]; omega
theorem pfKind_pf0 (s : State) : pfKind s (pfId hp 0) = 0 := by
  rw [pfKind, if_pos (isPf_pf0 h), pfId]
  omega

end

/-- BAR2 of PF0 with both halves: 512 MiB, so bits below 2 ^ 29 stay 0. -/
def setBar2 (fid full : Nat) (s : State) : State :=
  setCfg fid 0x1C (full / 2 ^ 29 * 2 ^ 29 / 2 ^ 32) (setCfg fid 0x18 (full / 2 ^ 29 * 2 ^ 29 % 2 ^ 32) s)

theorem configWrite_bar2_high {fid : Nat} {s : State} (hf : isPf fid = true) (hk : pfKind s fid = 0) (v : Nat) :
    configWrite fid 0x1C v s = setBar2 fid (v % 2 ^ 32 * 2 ^ 32 + barAt s fid 0x18 % 2 ^ 32) s := by
  simp [configWrite, hf, barWrite, hk, barTable, setBar2]

theorem configWrite_bar2_low {fid : Nat} {s : State} (hf : isPf fid = true) (hk : pfKind s fid = 0) (v : Nat) :
    configWrite fid 0x18 v s = setBar2 fid (barAt s fid 0x18 / 2 ^ 32 * 2 ^ 32 + v % 2 ^ 32) s := by
  simp [configWrite, hf, barWrite, hk, barTable, setBar2]

theorem cfgWord_setBar2_low (fid full : Nat) (s : State) :
    cfgWord (setBar2 fid full s) fid 0x18 = full / 2 ^ 29 * 2 ^ 29 % 2 ^ 32 := by
  rw [setBar2, cfgWord_setCfg, if_neg (by omega), cfgWord_setCfg, if_pos rfl, Nat.mod_mod]

theorem cfgWord_setBar2_high {full : Nat} (hfull : full < 2 ^ 64) (fid : Nat) (s : State) :
    cfgWord (setBar2 fid full s) fid 0x1C = full / 2 ^ 32 := by
  rw [setBar2, cfgWord_setCfg, if_pos rfl]
  omega

/-- The words of BAR2 of PF0 as configuration space reads them. -/
theorem configRead_bar2 {t : State} {fid : Nat} (hv : isVf fid = false) (hk : pfKind t fid = 0) :
    configRead t fid 0x18 = some (cfgWord t fid 0x18 + 12) ∧ configRead t fid 0x1C = some (cfgWord t fid 0x1C) := by
  constructor <;> simp [configRead, capabilities, extCapabilities, configHeader, configFields, hv, barWord, hk, barTable, bit]

/-- BAR2 of a function that is no VF: in use once assigned and decoding is enabled. -/
theorem bar2Base_pf {fid : Nat} (hv : isVf fid = false) (t : State) : bar2Base t fid =
    if barAt t fid 0x18 ≠ 0 ∧ (cfgWord t fid 4).testBit 1 = true then some (barAt t fid 0x18) else none := by
  unfold bar2Base
  rw [hv]
  by_cases h0 : barAt t fid 0x18 = 0 <;> by_cases h1 : (cfgWord t fid 4).testBit 1 = true <;> simp_all

/-! ### MSI-X, ACS, windows, aperture, counters -/

/-- Where every pending message of the function is still masked, none is let go. -/
theorem releaseMsix_of_masked {fn : Nat} {s : State} (h : ∀ e ∈ s.ports.msixPending, e.1 = fn → msixMasked s fn e.2 = true) :
    releaseMsix fn s = s := by
  have : s.ports.msixPending.filter (fun e => e.1 == fn && !msixMasked s fn e.2) = [] := by
    refine List.filter_eq_nil_iff.2 (fun e he => ?_)
    by_cases hf : e.1 = fn
    · simp [hf, h e he hf]
    · simp [hf]
  rw [releaseMsix, this, List.foldl_nil]

/-- A write of a word of the table that is no mask leaves what is masked. -/
theorem msixMasked_put {fn w : Nat} (hw : w % 4 ≠ 3) (s : State) (x : CsrWord) (vec : Nat) :
    msixMasked (s.setPorts { s.ports with msix := put s.ports.msix (fn * 8192 + w) x }) fn vec = msixMasked s fn vec := by
  have hne : fn * 8192 + w ≠ fn * 8192 + 4 * vec + 3 := by omega
  simp [msixMasked, cfgWord, lookD_put_of_ne _ _ _ hne]

theorem msixWrite_address {fn w : Nat} (hl : w < 4 * vectorCount fn) (hw : w % 4 = 1 ∨ w % 4 = 2) {s : State}
    (h : ∀ e ∈ s.ports.msixPending, e.1 = fn → msixMasked s fn e.2 = true) (v : Nat) :
    msixWrite fn w v s = s.setPorts { s.ports with msix := put s.ports.msix (fn * 8192 + w) (BitVec.ofNat 32 v) } := by
  have h0 : w % 4 ≠ 0 := by omega
  have h3 : w % 4 ≠ 3 := by omega
  simp only [msixWrite, hl, h0, h3, if_true, if_false]
  refine releaseMsix_of_masked (fun e he hf => ?_)
  rw [msixMasked_put h3]
  exact h e he hf

theorem acsControl_acsWrite (ep v : Nat) (s : State) (k : Nat) :
    acsControl (acsWrite ep v s) k = if ep = k then v &&& acsCapability else acsControl s k := by
  by_cases h : ep = k
  · simp [acsControl, acsWrite, h]
  · simp [acsControl, acsWrite, lookD_put_of_ne, h]

theorem winXlat_setWinXlat (hp n v : Nat) (s : State) (k : Nat) :
    winXlat (setWinXlat hp n v s) hp k = if n = k then v / 2 ^ 31 % 2 * 2 ^ 31 + v % 64 else winXlat s hp k := by
  by_cases h : n = k
  · subst h
    simp [winXlat, setWinXlat]
    omega
  · have hne : hp * 16 + n ≠ hp * 16 + k := by omega
    simp [winXlat, setWinXlat, lookD_put_of_ne, h]

theorem perfOf_setPerfCtr (b n : Nat) (c : PerfCtr) (s : State) (m : Nat) :
    perfOf (setPerfCtr b n c s) b m = if n = m then c else perfOf s b m := by
  by_cases h : n = m
  · simp [perfOf, setPerfCtr, h]
  · have hne : b * 8 + n ≠ b * 8 + m := by omega
    simp [perfOf, setPerfCtr, lookD_put_of_ne, h]

end Sys2Proof.Machine
end

section
/-! The rows of register accesses (R12, R14, R29, R30, R143, R397, R638, R648): what CSR_WRITE of each kind of register, CNT_SEL_WRITE and UNMAPPED_ACCESS do. -/

namespace Sys2Proof.Machine

open Sys2Proof

variable {who : Requester} {s : State}

/-! ### CSR_WRITE of a register of CSR space -/

section
variable {off b rel : Nat} (h : blkOf off = some (b, rel)) (hp : b ≠ blkPower ∨ who = .steward) (hg : guarded b rel = false ∨ trusted who = true)
include h hp hg

theorem csrPut_errMask (hr : rel = 0x1C) (v : Nat) : csrPut who off v s = setErr b { errOf s b with corSilent := v.testBit 0 } s := by
  subst hr
  rw [csrPut_permitted h hp hg, if_pos (by decide)]
  rfl

theorem csrPut_errTimer (hr : rel = 0x24) (v : Nat) :
    csrPut who off v s = setErr b { errOf s b with ms := max 1 (min 10000 (v % 2 ^ 14)) } s := by
  subst hr
  rw [csrPut_permitted h hp hg, if_pos (by decide)]
  simp only [writeHeader, clampN, bits, pow_zero, Nat.div_one]

/-- The other registers below 0x100 take no write. -/
theorem csrPut_low (hr : rel < 0x100) (hn : rel ∉ [0x1C, 0x24, 0x28]) (v : Nat) : csrPut who off v s = s := by
  rw [csrPut_permitted h hp hg]
  split
  · exact writeHeader_other hn _ _ _
  · rw [if_neg (by omega), writeOwn_low hr]

/-- A stored field takes its clamped value, which reads back, and no other register changes. -/
theorem csrPut_stored {v x : Nat} (hv : v < 2 ^ 32) (hlo : 0x100 ≤ rel) (hpc : rel < 0x200 ∨ 0x280 ≤ rel) (hx : storedWrite s b rel v = some x) :
    ∃ t, csrPut who off v s = t ∧ csrRead t off = x ∧ t.mem = s.mem ∧ t.err = s.err ∧
      ∀ b' rel', blkBase b' + rel' ≠ blkBase b + rel → cell t b' rel' = cell s b' rel' := by
  have hnp : ¬ (0x200 ≤ rel ∧ rel < 0x280) := by omega
  obtain ⟨o, ho⟩ := writeOwn_of_stored (who := who) hx
  refine ⟨(setCell b rel x s).setOut o, ?_, ?_, rfl, rfl, fun b' rel' hne => cell_setCell_of_ne (Ne.symm hne) x s⟩
  · rw [csrPut_permitted h hp hg, if_neg (by omega), if_neg hnp, ho]
  · have hcell : cell ((setCell b rel x s).setOut o) b rel = x :=
      (cell_setCell_same b rel x s).trans (Nat.mod_eq_of_lt (storedWrite_lt hv hx))
    simp only [csrRead, h, regRead, hnp, derivedReg_of_stored hx, hcell, if_false]
    rw [if_neg (by omega), if_neg (by omega)]

end

/-! ### CSR_WRITE of a window's translation, of a ring, of the MSI-X table and of ACS control -/

theorem running_served {s : State} (h : running s = true) (fid : Nat) : functionServed s fid = true := by simp [functionServed, h]

theorem csrWrite_winXlat {hp n : Nat} (hr : running s = true) (hh : hp ≤ 1) (hn : n ≤ 15) (hd : (fnD s (pfId hp 0)).dstate = .d0) (v : CsrWord) :
    exec (.csrWrite who (.winXlat hp n) v) s = .next (setWinXlat hp n v.toNat s) := by
  have hc : ¬ (1 < hp ∨ 15 < n ∨ functionServed s (pfId hp 0) = false ∨ (fnD s (pfId hp 0)).dstate ≠ .d0) := by
    simp [running_served hr, hd, hh, hn]
  exact congrArg _ (if_neg hc)

theorem csrWrite_ring_absent {fn : Nat} (h : isAccel fn = true ∨ ringThere s fn = false) (r : Nat) (v : CsrWord) :
    exec (.csrWrite who (.ring fn r) v) s = .next s := by
  refine congrArg _ (if_pos ?_)
  rcases h with h | h <;> simp [h]

theorem csrWrite_ring {fn : Nat} (ha : isAccel fn = false) (ht : ringThere s fn = true) (r : Nat) (v : CsrWord) :
    exec (.csrWrite who (.ring fn r) v) s = .next (icpWake (ringWrite fn r v.toNat s)) :=
  congrArg _ (if_neg (by simp [ha, ht]))

theorem csrWrite_msix {fn : Nat} (ha : isAccel fn = false) (ht : ringThere s fn = true) (w : Nat) (v : CsrWord) :
    exec (.csrWrite who (.msix fn w) v) s = .next (msixWrite fn w v.toNat s) :=
  congrArg _ (if_neg (by simp [ha, ht]))

/-- A write of an address or data word of the MSI-X table stores it and lets no masked message go. -/
theorem csrWrite_msix_address {fn w : Nat} (ha : isAccel fn = false) (ht : ringThere s fn = true) (hl : w < 4 * vectorCount fn)
    (hw : w % 4 = 1 ∨ w % 4 = 2) (hm : ∀ e ∈ s.ports.msixPending, e.1 = fn → msixMasked s fn e.2 = true) (v : CsrWord) :
    ∃ t, exec (.csrWrite who (.msix fn w) v) s = .next t ∧ msixWord t fn w = v.toNat ∧ t.csr = s.csr ∧ t.fns = s.fns ∧ t.mem = s.mem := by
  refine ⟨_, (csrWrite_msix ha ht w v).trans (congrArg _ (msixWrite_address hl hw hm v.toNat)), ?_, rfl, rfl, rfl⟩
  simp [msixWord, hl]

theorem csrWrite_acs {ep : Nat} (he : ep < 80) (hr : (pbOf s (ep / 4)).role = 2) (v : CsrWord) :
    exec (.csrWrite who (.acs ep) v) s = .next (acsWrite ep v.toNat s) :=
  congrArg _ (if_pos ⟨hr, he⟩)

theorem csrWrite_acs_absent {ep : Nat} (h : 80 ≤ ep ∨ (pbOf s (ep / 4)).role ≠ 2) (v : CsrWord) :
    exec (.csrWrite who (.acs ep) v) s = .next s :=
  congrArg _ (if_neg (by omega))

/-! ### CSR_WRITE of configuration space -/

theorem csrWrite_config_absent {fn : Nat} (h : fnOf s fn = none) (off : Nat) (v : CsrWord) :
    exec (.csrWrite who (.config fn off) v) s = .next s :=
  congrArg _ (if_pos (by simp [h]))

theorem csrWrite_config_retry {fn : Nat} (hf : (fnOf s fn).isSome = true) (hi : s.boot.inReset = false)
    (h : (running s = false ∧ footing s = false) ∨ (fnD s fn).crs = true) (off : Nat) (v : CsrWord) :
    exec (.csrWrite who (.config fn off) v) s = .next (emit (.configRetry fn) s) := by
  have hnone : ¬ (fnOf s fn).isNone = true := by cases e : fnOf s fn <;> simp_all
  have hserved : (!configServed s fn) = true := by rcases h with ⟨h1, h2⟩ | h <;> simp [configServed, functionServed, *]
  have hretry : configRetry fn s = emit (.configRetry fn) s := by simp [configRetry, hi]
  exact congrArg _ ((if_neg hnone).trans ((if_pos hserved).trans hretry))

/-- A running function that is not in FLR takes the write. -/
theorem csrWrite_config_served {fn : Nat} (hr : running s = true) (hf : (fnOf s fn).isSome = true) (hc : (fnD s fn).crs = false) (off : Nat)
    (v : CsrWord) : exec (.csrWrite who (.config fn off) v) s = .next (configWrite fn (off / 4 * 4) v.toNat s) := by
  have hnone : ¬ (fnOf s fn).isNone = true := by cases e : fnOf s fn <;> simp_all
  have hserved : ¬ (!configServed s fn) = true := by simp [configServed, running_served hr, hc]
  exact congrArg _ ((if_neg hnone).trans (if_neg hserved))

section
variable {hp : Nat} (hr : running s = true) (hf : (fnOf s (pfId hp 0)).isSome = true) (hh : hp ≤ 1) (hc : (fnD s (pfId hp 0)).crs = false)
  (v : CsrWord)
include hr hf hh hc

theorem csrWrite_bar2_high : ∃ t, exec (.csrWrite who (.config (pfId hp 0) 0x1C) v) s = .next t ∧ barAt t (pfId hp 0) 0x18 / 2 ^ 32 = v.toNat ∧
    configRead t (pfId hp 0) 0x1C = some v.toNat ∧ t.fns = s.fns ∧ t.csr = s.csr ∧ t.mem = s.mem := by
  have hv := v.isLt
  have hold := Nat.mod_lt (barAt s (pfId hp 0) 0x18) (by norm_num : 0 < 2 ^ 32)
  have hhigh : cfgWord (setBar2 (pfId hp 0) (v.toNat % 2 ^ 32 * 2 ^ 32 + barAt s (pfId hp 0) 0x18 % 2 ^ 32) s) (pfId hp 0) 0x1C = v.toNat := by
    rw [cfgWord_setBar2_high (by omega)]
    omega
  refine ⟨_, (csrWrite_config_served hr hf hc _ v).trans (congrArg _ (configWrite_bar2_high (isPf_pf0 hh) (pfKind_pf0 hh s) _)), ?_, ?_, rfl, rfl, rfl⟩
  · have hlow := cfgWord_lt (setBar2 (pfId hp 0) (v.toNat % 2 ^ 32 * 2 ^ 32 + barAt s (pfId hp 0) 0x18 % 2 ^ 32) s) (pfId hp 0) 0x18
    rw [barAt, hhigh]
    omega
  · rw [(configRead_bar2 (isVf_pf0 hh) (pfKind_pf0 hh _)).2, hhigh]

theorem csrWrite_bar2_low : ∃ t, exec (.csrWrite who (.config (pfId hp 0) 0x18) v) s = .next t ∧
    configRead t (pfId hp 0) 0x18 = some (v.toNat / 2 ^ 29 * 2 ^ 29 + 12) ∧ t.fns = s.fns ∧ t.csr = s.csr ∧ t.mem = s.mem := by
  have hv := v.isLt
  refine ⟨_, (csrWrite_config_served hr hf hc _ v).trans (congrArg _ (configWrite_bar2_low (isPf_pf0 hh) (pfKind_pf0 hh s) _)), ?_, rfl, rfl, rfl⟩
  rw [(configRead_bar2 (isVf_pf0 hh) (pfKind_pf0 hh _)).1, cfgWord_setBar2_low]
  congr 2
  omega

omit hh in
theorem csrWrite_deviceControl2 : ∃ t, exec (.csrWrite who (.config (pfId hp 0) 0x88) v) s = .next t ∧ atomicReq t hp = v.getLsbD 6 ∧
    t.fns = s.fns ∧ t.csr = s.csr ∧ t.mem = s.mem := by
  refine ⟨_, csrWrite_config_served hr hf hc _ v, ?_, rfl, rfl, rfl⟩
  show (cfgWord (setCfg (pfId hp 0) 0x88 (v.toNat % 2 ^ 16) s) (pfId hp 0) 0x88).testBit 6 = v.getLsbD 6
  rw [cfgWord_setCfg, if_pos rfl, Nat.testBit_mod_two_pow, Nat.testBit_mod_two_pow]
  simp [BitVec.getLsbD]

theorem csrWrite_command : ∃ t, exec (.csrWrite who (.config (pfId hp 0) 4) v) s = .next t ∧
    bar2Base t (pfId hp 0) = (if barAt s (pfId hp 0) 0x18 ≠ 0 ∧ v.getLsbD 1 = true then some (barAt s (pfId hp 0) 0x18) else none) ∧
    t.fns = s.fns ∧ t.csr = s.csr ∧ t.mem = s.mem := by
  refine ⟨_, csrWrite_config_served hr hf hc _ v, ?_, rfl, rfl, rfl⟩
  let x := bits v.toNat 2 1 * 4 + (if isPf (pfId hp 0) then bits v.toNat 1 1 * 2 + bits v.toNat 6 1 * 64 + bits v.toNat 8 1 * 256 else 0)
  have hx : x = bits v.toNat 2 1 * 4 + (bits v.toNat 1 1 * 2 + bits v.toNat 6 1 * 64 + bits v.toNat 8 1 * 256) := by
    simp only [x, isPf_pf0 hh, if_true]
  have hbit : (x % 2 ^ 32).testBit 1 = v.getLsbD 1 := by
    rw [Nat.testBit_mod_two_pow, BitVec.getLsbD, Nat.testBit_eq_decide_div_mod_eq, Nat.testBit_eq_decide_div_mod_eq, hx]
    simp only [bits]
    rw [Bool.eq_iff_iff]
    simp
    omega
  have hbar : barAt (setCfg (pfId hp 0) 4 x s) (pfId hp 0) 0x18 = barAt s (pfId hp 0) 0x18 := by
    rw [barAt, cfgWord_setCfg, cfgWord_setCfg, if_neg (by omega), if_neg (by omega), barAt]
  show bar2Base (setCfg (pfId hp 0) 4 x s) (pfId hp 0) = _
  rw [bar2Base_pf (isVf_pf0 hh), hbar, cfgWord_setCfg, if_pos rfl, hbit]

end

/-! ### CNT_SEL_WRITE -/

theorem cntSelWrite_denied {b n : Nat} (hb : b ≤ 60) (hn : n ≤ 7) (hp : b = blkPower) (hw : who ≠ .steward) (v : CsrWord) :
    exec (.cntSelWrite who b n v) s = .next (countUnmapped (blkBase b + 0x200 + 16 * n) s) :=
  congrArg _ ((if_neg (by omega)).trans (if_pos ⟨hp, hw⟩))

theorem cntSelWrite_permitted {b n : Nat} (hb : b ≤ 60) (hn : n ≤ 7) (hp : b ≠ blkPower ∨ who = .steward) (v : CsrWord) :
    exec (.cntSelWrite who b n v) s = .next (setPerfCtr b n (selectPerf (perfOf s b n) v.toNat) s) :=
  congrArg _ ((if_neg (by omega)).trans (if_neg (by rintro ⟨h1, h2⟩; exact hp.elim (· h1) h2)))

theorem cntSelWrite_selects {b n : Nat} (hb : b ≤ 60) (hn : n ≤ 7) (hp : b ≠ blkPower ∨ who = .steward) (v : CsrWord) :
    ∃ t, exec (.cntSelWrite who b n v) s = .next t ∧
      (perfOf t b n).event = v.toNat % 2 ^ 16 ∧ (perfOf t b n).enable = v.getLsbD 31 ∧ (perfOf t b n).mode = v.toNat / 2 ^ 29 % 4 ∧
      ((perfOf s b n).event ≠ v.toNat % 2 ^ 16 → (perfOf t b n).count = 0) ∧ (∀ m, m ≤ 7 → m ≠ n → perfOf t b m = perfOf s b m) := by
  have hev : bits v.toNat 0 16 = v.toNat % 2 ^ 16 := by simp [bits]
  refine ⟨_, cntSelWrite_permitted hb hn hp v, ?_⟩
  simp only [perfOf_setPerfCtr, if_true]
  refine ⟨hev, rfl, rfl, fun hne => if_neg (fun hk => hne (hk.1.trans hev)), fun m _ hm => if_neg (Ne.symm hm)⟩

/-! ### UNMAPPED_ACCESS -/

theorem unmappedAccess_csr_unoccupied {a : Nat} (h : blkOf a = none) :
    exec (.unmappedAccess ⟨who, a⟩ true true) s = .next (countUnmapped a s) ∧
    exec (.unmappedAccess ⟨who, a⟩ true false) s = .next (emit (.readData [0, 0, 0, 0] false) (countUnmapped a s)) := by
  have hn : ¬ (blkOf a).isSome = true := by simp [h]
  exact ⟨congrArg _ (if_neg hn), congrArg _ (if_neg hn)⟩

theorem unmappedAccess_csr_occupied {a : Nat} (h : (blkOf a).isSome = true) (w : Bool) :
    exec (.unmappedAccess ⟨who, a⟩ true w) s = .next s :=
  congrArg _ (if_pos h)

/-- An access to a DPA, by the region that shows it. -/
theorem unmappedAccess_dpa (who : Requester) (a : Nat) (w : Bool) (s : State) : exec (.unmappedAccess ⟨who, a⟩ false w) s = .next (
    if regionOf s a = .vault then
      (if who = .steward then s
       else if w then vaultDenied (vaultRequester who) s
       else emit (.readData [0, 0, 0, 0] false) (vaultDenied (vaultRequester who) s))
    else if who = .jtag && !w && jtagReads s a then emit (.readData (scratchRead s a 4) (badScratch s a 4)) s
    else if dpaUnmapped s a then emit (.addressError a) (countUnmapped a s) else s) := by
  change execUnmappedAccess _ _ _ _ = _
  simp only [execUnmappedAccess, Bool.false_eq_true, if_false, beq_iff_eq]

theorem jtagReads_region {a : Nat} (h : jtagReads s a = true) : regionOf s a = .scratch := by
  simp only [jtagReads, Bool.and_eq_true, beq_iff_eq] at h
  exact h.1.2

theorem blkBase_blkPb {n : Nat} (h : n < 20) : blkBase (blkPb n) = 0x8000000 + n * 0x100000 := by
  have h1 : ¬ 33 + n = 0 ∧ ¬ 33 + n = 1 ∧ ¬ 33 + n ≤ 18 ∧ ¬ 33 + n ≤ 24 ∧ ¬ 33 + n ≤ 32 ∧ 33 + n ≤ 52 := by omega
  simp only [blkBase, blkPb, h1, if_true, if_false]
  omega

/-- A port block's counter of dropped requests is no register of the cipher block. -/
theorem noDropCounter_cipher : noDropCounter blkCipher 0x11C := by
  intro n hn
  rw [blkBase_blkPb hn, show blkBase blkCipher = 0x6800000 from rfl]
  omega

/-- An access to the vault by any but the steward cores is recorded as a COR of the cipher block and counted there (R143). -/
theorem vaultDenied_recorded (r : Nat) (s : State) : Recorded s (vaultDenied r s) blkCipher 1 0x0100 [r] ∧
    cell (vaultDenied r s) blkCipher 0x11C = (cell s blkCipher 0x11C + 1) % 2 ^ 32 ∧ (vaultDenied r s).mem = s.mem := by
  obtain ⟨hm, hc⟩ := noteErr_frame blkCipher 1 0x0100 [r] (bump blkCipher 0x11C s)
  exact ⟨recorded_noteErr blkCipher 1 0x0100 [r] (bump blkCipher 0x11C s), (hc _ _ noDropCounter_cipher).trans (cell_bump_same ..), hm⟩

/-! ### The statement -/

/-- Settles O54: the commands by what their handlers answer (`replied_of_handler`), the register writes by the kind of register that each reaches. -/
theorem telemetryReportsAndRegisterWrites : Obligations.TelemetryReportsAndRegisterWrites := by
  unfold Obligations.TelemetryReportsAndRegisterWrites
  refine ⟨fun via pkt s s0 c => ?_, fun via pkt s s0 c => ?_, fun who off v s => ?_⟩
  · exact ⟨errQuery_replies, errAck_replies, fun lim hs hb hn hm hcap hl hr => counterSelect_replies hs hb hn hm hcap hl hr, counterRead_replies⟩
  · exact ⟨policySet_replies, policyLogRead_replies, dumpRead_replies, getStraps_replies,
      strapOverride_replies, getStartReport_replies, powerCapSet_replies⟩
  · refine ⟨fun h => congrArg _ (csrPut_unoccupied h who v.toNat s), fun b rel h => ⟨fun hd => congrArg _ (csrPut_denied h hd v.toNat s),
      fun hp hg => ⟨fun hr => congrArg _ (csrPut_errMask h hp hg hr v.toNat), fun hr => congrArg _ (csrPut_errTimer h hp hg hr v.toNat),
        fun hr hn => congrArg _ (csrPut_low h hp hg hr hn v.toNat), fun x hlo hpc hx => ?_⟩⟩, fun hp n hr hh hn hd => ?_,
      fun fn r h => csrWrite_ring_absent h r v, fun fn w ha ht hl hw hm => csrWrite_msix_address ha ht hl hw hm v, fun ep he hr => ?_,
      fun ep h => csrWrite_acs_absent h v, fun fn off h => csrWrite_config_absent h off v, fun fn off hf hi h => csrWrite_config_retry hf hi h off v,
      fun hp hr hf hh hc => ⟨csrWrite_bar2_high hr hf hh hc v, csrWrite_bar2_low hr hf hh hc v, csrWrite_deviceControl2 hr hf hc v,
        csrWrite_command hr hf hh hc v⟩,
      fun fn r ha ht => csrWrite_ring ha ht r v, fun b n hb hn => ⟨fun hp hw => cntSelWrite_denied hb hn hp hw v,
        fun hp => cntSelWrite_selects hb hn hp v⟩,
      fun a h => unmappedAccess_csr_unoccupied h, fun a w h => unmappedAccess_csr_occupied h w, fun a w h hw => ?_, fun a h => ?_, fun a w h => ?_,
      fun a h hw => ⟨?_, ?_⟩⟩
    · obtain ⟨t, ht, hread, hmem, herr, hcell⟩ := csrPut_stored h hp hg v.isLt hlo hpc hx
      exact ⟨t, congrArg _ ht, hread, hmem, herr, hcell⟩
    · refine ⟨_, csrWrite_winXlat hr hh hn hd v, ?_, fun k _ hk => ?_⟩
      · have := v.isLt
        rw [winXlat_setWinXlat, if_pos rfl]
        omega
      · rw [winXlat_setWinXlat, if_neg (Ne.symm hk)]
    · exact ⟨_, csrWrite_acs he hr v, (acsControl_acsWrite ep v.toNat s ep).trans (if_pos rfl),
        fun k hk => (acsControl_acsWrite ep v.toNat s k).trans (if_neg (Ne.symm hk)), rfl, rfl⟩
    · rw [unmappedAccess_dpa, if_neg h, if_neg (by simp [hw])]
    · rw [unmappedAccess_dpa, if_neg (by simp [jtagReads_region h]), if_pos (by simp [h])]
    · rw [unmappedAccess_dpa, if_pos h, if_pos rfl]
    · obtain ⟨hrec, hcount, hmem⟩ := vaultDenied_recorded (vaultRequester who) s
      refine ⟨vaultDenied (vaultRequester who) s, ?_, rfl, hrec, hcount, hmem⟩
      rw [unmappedAccess_dpa, if_pos h, if_neg hw, if_pos rfl]
    · rw [unmappedAccess_dpa, if_pos h, if_neg hw, if_neg Bool.false_ne_true]

end Sys2Proof.Machine
end

section
/-! What leaves the port blocks as they are (R375 to R384). A host reset fails functions, ends commands, kernels, rings, storage commands and
connections; of all that follows from it only the reset of an endpoint touches a port block. One lemma for each function says so. -/

namespace Sys2Proof.Machine

open Sys2Proof

/-! ### What keeps the port blocks -/

/-- The state that serving a row leaves. -/
def Served.state : Served → State
  | .done s _ _ _ => s
  | .wait s _ => s
  | .item s _ _ => s

@[simp] theorem Served.state_done (s : State) (st fl : Nat) (b : Bytes) : (Served.done s st fl b).state = s := rfl
@[simp] theorem Served.state_wait (s : State) (fl : Nat) : (Served.wait s fl).state = s := rfl
@[simp] theorem Served.state_item (s : State) (row fl : Nat) : (Served.item s row fl).state = s := rfl

@[simp] theorem setPorts_blocks (s : State) (p : Ports) : (s.setPorts p).ports.blocks = p.blocks := rfl
@[simp] theorem blocks_ite (c : Prop) [Decidable c] (s t : State) :
    (if c then s else t).ports.blocks = if c then s.ports.blocks else t.ports.blocks := by split <;> rfl

@[simp] theorem blocks_foldl {α : Type} {f : State → α → State} (h : ∀ s x, (f s x).ports.blocks = s.ports.blocks) (l : List α) (s : State) :
    (l.foldl f s).ports.blocks = s.ports.blocks := by
  induction l generalizing s with
  | nil => rfl
  | cons x xs ih => exact (ih (f s x)).trans (h s x)

theorem blocks_foldl_snd {α β : Type} {f : β × State → α → β × State} (h : ∀ a x, (f a x).2.ports.blocks = a.2.ports.blocks)
    (l : List α) (a : β × State) : (l.foldl f a).2.ports.blocks = a.2.ports.blocks := by
  induction l generalizing a with
  | nil => rfl
  | cons x xs ih => exact (ih (f a x)).trans (h a x)

/-! ### Outputs, counters, functions and interrupts -/

@[simp] theorem emit_blocks (o : Out) (s : State) : (emit o s).ports.blocks = s.ports.blocks := by rfl

@[simp] theorem joinDomain_blocks (dst : Nat) (s : State) : (joinDomain dst s).ports.blocks = s.ports.blocks := by
  simp [joinDomain]

@[simp] theorem sendDomain_blocks (dst : Nat) (m : DomainMsg) (s : State) : (sendDomain dst m s).ports.blocks = s.ports.blocks := by
  simp [sendDomain]

@[simp] theorem drawn_blocks (s : State) : (drawn s).ports.blocks = s.ports.blocks := by rfl

@[simp] theorem setCell_blocks (b rel v : Nat) (s : State) : (setCell b rel v s).ports.blocks = s.ports.blocks := by rfl

@[simp] theorem bumpBy_blocks (b rel n : Nat) (s : State) : (bumpBy b rel n s).ports.blocks = s.ports.blocks := by rfl

@[simp] theorem bump_blocks (b rel : Nat) (s : State) : (bump b rel s).ports.blocks = s.ports.blocks := by rfl

@[simp] theorem setFn_blocks (fid : Nat) (f : Fn) (s : State) : (setFn fid f s).ports.blocks = s.ports.blocks := by rfl

@[simp] theorem updFn_blocks (fid : Nat) (g : Fn → Fn) (s : State) : (updFn fid g s).ports.blocks = s.ports.blocks := by
  unfold updFn
  split <;> simp

@[simp] theorem resetCfg_blocks (p : Nat → Bool) (s : State) : (resetCfg p s).ports.blocks = s.ports.blocks := by rfl

@[simp] theorem dmaDropped_blocks (fid n : Nat) (s : State) : (dmaDropped fid n s).ports.blocks = s.ports.blocks := by
  unfold dmaDropped
  split <;> simp

@[simp] theorem markPage_blocks (fid : Nat) (d : DirtyLog) (k : Nat) (s : State) : (markPage fid d k s).ports.blocks = s.ports.blocks := by
  simp [markPage]

@[simp] theorem markWrite_blocks (fid addr n : Nat) (s : State) : (markWrite fid addr n s).ports.blocks = s.ports.blocks := by
  unfold markWrite
  split <;> simp

@[simp] theorem dmaOut_blocks (fid addr : Nat) (bs : Bytes) (s : State) : (dmaOut fid addr bs s).ports.blocks = s.ports.blocks := by
  simp [dmaOut]

@[simp] theorem raiseMsix_blocks (fn vec : Nat) (s : State) : (raiseMsix fn vec s).ports.blocks = s.ports.blocks := by
  simp [raiseMsix]

/-! ### Errors and the policy log -/

@[simp] theorem setErr_blocks (b : Nat) (h : ErrHdr) (s : State) : (setErr b h s).ports.blocks = s.ports.blocks := by rfl

@[simp] theorem notifyErr_blocks (b cls : Nat) (s : State) : (notifyErr b cls s).ports.blocks = s.ports.blocks := by
  simp [notifyErr]

@[simp] theorem driveFault_blocks (before : Bool) (s : State) : (driveFault before s).ports.blocks = s.ports.blocks := by
  simp [driveFault]

@[simp] theorem perfWith_blocks (b ev : Nat) (unit : Option Nat) (f : PerfCtr → PerfCtr) (s : State) :
    (perfWith b ev unit f s).ports.blocks = s.ports.blocks := by rfl

@[simp] theorem perfEvent_blocks (b ev v : Nat) (s : State) : (perfEvent b ev v s).ports.blocks = s.ports.blocks := by rfl

@[simp] theorem noteErr_blocks (b cls src : Nat) (info : List Nat) (s : State) :
    (noteErr b cls src info s).ports.blocks = s.ports.blocks := by
  simp [noteErr]

@[simp] theorem recordCor_blocks (b src : Nat) (info : List Nat) (s : State) : (recordCor b src info s).ports.blocks = s.ports.blocks := by
  simp [recordCor]

@[simp] theorem recordCon_blocks (b src : Nat) (info : List Nat) (s : State) : (recordCon b src info s).ports.blocks = s.ports.blocks := by
  simp [recordCon]

@[simp] theorem logPolicy_blocks (isl policy reason object old new : Nat) (s : State) :
    (logPolicy isl policy reason object old new s).ports.blocks = s.ports.blocks := by
  simp [logPolicy]

@[simp] theorem logSpare_blocks (b src unit extra : Nat) (s : State) :
    (logSpare b src unit extra s).ports.blocks = s.ports.blocks := by
  simp [logSpare]

@[simp] theorem ackSpare_blocks (b : Nat) (s : State) : (ackSpare b s).ports.blocks = s.ports.blocks := by
  simp [ackSpare]

@[simp] theorem unstage_blocks (otype handle : Nat) (s : State) : (unstage otype handle s).ports.blocks = s.ports.blocks := by rfl

@[simp] theorem useWorkingKey_blocks (k : Nat) (label : Bytes) (s : State) : (useWorkingKey k label s).ports.blocks = s.ports.blocks := by
  simp [useWorkingKey]

/-! ### Custody memory and its frames -/

@[simp] theorem setCells_blocks (m : List Host.Cell) (s : State) : (setCells m s).ports.blocks = s.ports.blocks := by rfl

theorem takeHot_blocks (may : Nat → Bool) (s : State) : ∀ t, takeHot may s = some t → t.2.ports.blocks = s.ports.blocks := by
  unfold takeHot
  dsimp only
  rintro t h
  split at h
  · cases h; rfl
  · split at h <;> cases h; rfl

theorem takeFrame_blocks (hot reserve : Bool) (s : State) : ∀ t, takeFrame hot reserve s = some t → t.2.ports.blocks = s.ports.blocks := by
  unfold takeFrame
  rintro t h
  split at h
  · split at h
    · exact takeHot_blocks _ s t h
    · split at h
      · cases h; rfl
      · dsimp only at h
        obtain ⟨-, h⟩ := Option.ite_none_right_eq_some.mp h
        cases h
        rfl
  · cases h

@[simp] theorem freeFrame_blocks (f : Nat) (s : State) : (freeFrame f s).ports.blocks = s.ports.blocks := by
  simp [freeFrame]

theorem takeSingles_blocks (hot : Bool) (use : FrameUse) (fuel : Nat) (s : State) :
    ∀ t, takeSingles hot use fuel s = some t → t.ports.blocks = s.ports.blocks := by
  induction fuel generalizing s with
  | zero => rintro t ⟨⟩; rfl
  | succ n ih =>
    rintro t h
    obtain ⟨fs, hf, ht⟩ := Option.bind_eq_some_iff.mp h
    exact (ih _ t ht).trans (takeFrame_blocks hot false s fs hf)

@[simp] theorem takeRun_blocks (use : FrameUse) (n : Nat) (s : State) : (takeRun use n s).ports.blocks = s.ports.blocks := by rfl

theorem takeExtent_blocks (use : FrameUse) (n : Nat) (s : State) : ∀ t, takeExtent use n s = some t → t.ports.blocks = s.ports.blocks := by
  unfold takeExtent
  rintro t h
  split at h
  · cases h; rfl
  · split at h
    · cases h
    · split at h
      · cases h; rfl
      · exact takeSingles_blocks true use n s t h

@[simp] theorem freeExtents_blocks (p : FrameUse → Bool) (s : State) : (freeExtents p s).ports.blocks = s.ports.blocks := by rfl

@[simp] theorem poisonLine_blocks (l : Nat) (s : State) : (poisonLine l s).ports.blocks = s.ports.blocks := by
  simp [poisonLine]

@[simp] theorem writeSeg_blocks (l dpa : Nat) (seg : Bytes) (s : State) : (writeSeg l dpa seg s).1.ports.blocks = s.ports.blocks := by
  obtain ⟨m, hm⟩ := writeSeg_eq_setMem l dpa seg s
  rw [hm]
  rfl

@[simp] theorem writeMem_blocks (dpa : Nat) (bs : Bytes) (s : State) : (writeMem dpa bs s).1.ports.blocks = s.ports.blocks := by
  obtain ⟨m, hm⟩ := writeMem_eq_setMem dpa bs s
  rw [hm]
  rfl

@[simp] theorem writeFresh_blocks (dpa : Nat) (bs : Bytes) (s : State) : (writeFresh dpa bs s).ports.blocks = s.ports.blocks := by rfl

@[simp] theorem updBlk_blocks (table region index : Nat) (f : Blk → Blk) (s : State) :
    (updBlk table region index f s).ports.blocks = s.ports.blocks := by rfl

@[simp] theorem heatUp_blocks (table region index : Nat) (s : State) :
    (heatUp table region index s).ports.blocks = s.ports.blocks := by rfl

/-! ### Replies and waiting commands -/

@[simp] theorem setRing_blocks (k : Nat) (r : Ring) (s : State) : (setRing k r s).ports.blocks = s.ports.blocks := by rfl

@[simp] theorem slotWrite_blocks (k slot off : Nat) (bs : Bytes) (s : State) :
    (slotWrite k slot off bs s).ports.blocks = s.ports.blocks := by
  unfold slotWrite
  repeat' split
  all_goals simp

@[simp] theorem deliverReply_blocks (k : Nat) (via : Via) (pkt : IcpPkt) (r : IcpReply) (s : State) :
    (deliverReply k via pkt r s).ports.blocks = s.ports.blocks := by
  simp [deliverReply]

@[simp] theorem sendPacket_blocks (via : Via) (r : IcpReply) (s : State) : (sendPacket via r s).ports.blocks = s.ports.blocks := by
  unfold sendPacket
  split <;> simp

@[simp] theorem postReply_blocks (via : Via) (pkt : IcpPkt) (r : IcpReply) (s : State) : (postReply via pkt r s).ports.blocks = s.ports.blocks := by
  unfold postReply
  split
  · simp
  · dsimp only
    split <;> simp

@[simp] theorem sendReply_blocks (op : Nat) (via : Via) (pkt : IcpPkt) (status detail : Nat) (data : Bytes) (s : State) :
    (sendReply op via pkt status detail data s).ports.blocks = s.ports.blocks := by
  simp [sendReply]

@[simp] theorem livePause_blocks (s : State) : (livePause s).ports.blocks = s.ports.blocks := by
  unfold livePause
  split <;> simp

@[simp] theorem finishWait_blocks (w : Waiter) (status detail : Nat) (data : Bytes) (s : State) :
    (finishWait w status detail data s).ports.blocks = s.ports.blocks := by
  unfold finishWait
  split <;> simp

@[simp] theorem freezeProgress_blocks (s : State) : (freezeProgress s).ports.blocks = s.ports.blocks := by
  simp [freezeProgress]

/-! ### Rows of tables -/

@[simp] theorem setTbl_blocks (ti : Nat) (t : Tbl) (s : State) : (setTbl ti t s).ports.blocks = s.ports.blocks := by rfl

@[simp] theorem updTbl_blocks (ti : Nat) (f : Tbl → Tbl) (s : State) : (updTbl ti f s).ports.blocks = s.ports.blocks := by
  unfold updTbl
  split <;> simp

@[simp] theorem writeBlk_blocks (b : Blk) (off : Nat) (bs : Bytes) (s : State) : (writeBlk b off bs s).ports.blocks = s.ports.blocks := by
  unfold writeBlk
  repeat' split
  all_goals simp

@[simp] theorem writeRow_blocks (ti : Nat) (t : Tbl) (r row : Nat) (bs : Bytes) (s : State) :
    (writeRow ti t r row bs s).ports.blocks = s.ports.blocks := blocks_foldl (fun s g => by split <;> simp) _ _

@[simp] theorem heatRow_blocks (ti : Nat) (t : Tbl) (r row : Nat) (s : State) : (heatRow ti t r row s).ports.blocks = s.ports.blocks := by
  simp [heatRow]

@[simp] theorem initTableRow_blocks (ti : Nat) (t : Tbl) (row x : Nat) (s : State) :
    (initTableRow ti t row x s).ports.blocks = s.ports.blocks := by
  simp [initTableRow]

@[simp] theorem freeTable_blocks (ti : Nat) (s : State) : (freeTable ti s).ports.blocks = s.ports.blocks := by
  unfold freeTable
  simp only [State.setTab_ports, blocks_ite, freeExtents_blocks, ite_self]
  exact blocks_foldl (fun s b => by cases b.frame <;> cases b.moving <;> simp) _ _

@[simp] theorem poisonRow_blocks (ti row cause : Nat) (key : Bool) (s : State) :
    (poisonRow ti row cause key s).ports.blocks = s.ports.blocks := by
  simp [poisonRow]

@[simp] theorem healLines_blocks (ti : Nat) (s : State) : (healLines ti s).ports.blocks = s.ports.blocks := by rfl

@[simp] theorem wroteRegions_blocks (ti row mask : Nat) (s : State) : (wroteRegions ti row mask s).ports.blocks = s.ports.blocks := by
  simp [wroteRegions]

/-! ### The course -/

@[simp] theorem setRun_blocks (r : CourseRun) (s : State) : (setRun r s).ports.blocks = s.ports.blocks := by rfl

@[simp] theorem updRun_blocks (f : CourseRun → CourseRun) (s : State) : (updRun f s).ports.blocks = s.ports.blocks := by
  unfold updRun
  split <;> simp

@[simp] theorem sendDown_blocks (m : DomainMsg) (s : State) : (sendDown m s).ports.blocks = s.ports.blocks := by
  simp [sendDown]

@[simp] theorem sendUp_blocks (m : DomainMsg) (s : State) : (sendUp m s).ports.blocks = s.ports.blocks := by
  simp [sendUp]

@[simp] theorem toCapturing_blocks (s : State) : (toCapturing s).ports.blocks = s.ports.blocks := by
  simp [toCapturing]

@[simp] theorem fenceProgress_blocks (s : State) : (fenceProgress s).ports.blocks = s.ports.blocks := by
  simp [fenceProgress]

@[simp] theorem copyBlock_blocks (ti r i : Nat) (s : State) : (copyBlock ti r i s).ports.blocks = s.ports.blocks := by
  simp [copyBlock]

@[simp] theorem captureBefore_blocks (ti step : Nat) (fronts : List (Nat × Nat)) (s : State) :
    (captureBefore ti step fronts s).1.ports.blocks = s.ports.blocks := by
  induction fronts generalizing s with
  | nil => rfl
  | cons g rest ih =>
    unfold captureBefore
    split
    · exact ih s
    · simp [ih]
    · simp

@[simp] theorem noteStep_blocks (ti step : Nat) (s : State) : (noteStep ti step s).ports.blocks = s.ports.blocks := by
  simp [noteStep]

@[simp] theorem setArea_blocks (k : Nat) (a : Area) (s : State) : (setArea k a s).ports.blocks = s.ports.blocks := by rfl

@[simp] theorem emitLedger_blocks (k : Nat) (r : LedgerRec) (s : State) : (emitLedger k r s).ports.blocks = s.ports.blocks := by rfl

@[simp] theorem updRegion_blocks (id : Nat) (f : AccelRegion → AccelRegion) (s : State) : (updRegion id f s).ports.blocks = s.ports.blocks := by rfl

@[simp] theorem abortCourse_blocks (detail : Nat) (s : State) : (abortCourse detail s).ports.blocks = s.ports.blocks := by
  simp [abortCourse]

theorem takeArea_blocks (i len : Nat) (s : State) : ∀ t, takeArea i len s = some t → t.2.ports.blocks = s.ports.blocks := by
  unfold takeArea
  dsimp only
  split <;> simp

@[simp] theorem useSignKey_blocks (s : State) : (useSignKey s).ports.blocks = s.ports.blocks := by
  simp [useSignKey]

@[simp] theorem writeEverywhere_blocks (bs : Bytes) (is : List Nat) (s : State) : (writeEverywhere bs is s).2.ports.blocks = s.ports.blocks := by
  unfold writeEverywhere
  refine blocks_foldl_snd (fun a i => ?_) _ _
  split
  · rfl
  · split
    · next h => simpa using takeArea_blocks _ _ _ _ h
    · simp

@[simp] theorem manifestProgress_blocks (s : State) : (manifestProgress s).ports.blocks = s.ports.blocks := by
  simp [manifestProgress]

@[simp] theorem commitProgress_blocks (s : State) : (commitProgress s).ports.blocks = s.ports.blocks := by
  simp [commitProgress]

@[simp] theorem dropUse_blocks (u : FrameUse) (s : State) : (dropUse u s).ports.blocks = s.ports.blocks := by rfl

@[simp] theorem reuse_blocks (a : FrameUse) (b : FrameUse) (s : State) : (reuse a b s).ports.blocks = s.ports.blocks := by rfl

@[simp] theorem enforcePolicy_blocks (s : State) : (enforcePolicy s).ports.blocks = s.ports.blocks := by
  unfold enforcePolicy
  dsimp only
  split <;> simp

@[simp] theorem openRun_blocks (id step label format trigger : Nat) (s : State) :
    (openRun id step label format trigger s).ports.blocks = s.ports.blocks := by
  simp [openRun]

/-! ### Rings of the queue region -/

@[simp] theorem warn_blocks (i n : Nat) (s : State) : (warn i n s).ports.blocks = s.ports.blocks := by rfl

theorem takeUseFrame_blocks (use : FrameUse) (reserve : Bool) (s : State) :
    ∀ t, takeUseFrame use reserve s = some t → t.2.ports.blocks = s.ports.blocks := by
  rintro t h
  obtain ⟨fs, hf, rfl⟩ := Option.map_eq_some_iff.mp h
  exact takeFrame_blocks true reserve s fs hf

theorem takeUseFrames_blocks (use : FrameUse) (fuel : Nat) (s : State) :
    ∀ t, takeUseFrames use fuel s = some t → t.2.ports.blocks = s.ports.blocks := by
  induction fuel generalizing s with
  | zero => rintro t ⟨⟩; rfl
  | succ n ih =>
    rintro t h
    obtain ⟨a, ha, h⟩ := Option.bind_eq_some_iff.mp h
    obtain ⟨b, hb, rfl⟩ := Option.map_eq_some_iff.mp h
    exact (ih a.2 b hb).trans (takeUseFrame_blocks use false s a ha)

theorem placeRing_blocks (hp owner : Nat) (queue : Option Nat) (reply : Bool) (bytes : Nat) (s : State) :
    ∀ t, placeRing hp owner queue reply bytes s = some t → t.2.ports.blocks = s.ports.blocks := by
  rintro t h
  obtain ⟨p, -, ht⟩ := Option.bind_eq_some_iff.mp h
  obtain ⟨a, ha, rfl⟩ := Option.map_eq_some_iff.mp ht
  exact takeUseFrames_blocks .ring _ s a ha

@[simp] theorem dropRings_blocks (p : QRing → Bool) (s : State) : (dropRings p s).ports.blocks = s.ports.blocks := by
  simp [dropRings]

@[simp] theorem endpointRings_blocks (ep : Nat) (s : State) : (endpointRings ep s).ports.blocks = s.ports.blocks := by
  unfold endpointRings
  dsimp only
  split
  · rfl
  · split
    · next h1 =>
      split
      · next h2 => exact (placeRing_blocks _ _ _ _ _ _ _ h2).trans (placeRing_blocks _ _ _ _ _ _ _ h1)
      · rfl
    · rfl

@[simp] theorem armEndpoint_blocks (ep : Nat) (s : State) : (armEndpoint ep s).ports.blocks = s.ports.blocks := by
  simp [armEndpoint]

@[simp] theorem retryRings_blocks (s : State) : (retryRings s).ports.blocks = s.ports.blocks := by
  simp [retryRings]

@[simp] theorem retireRings_blocks (p : QRing → Bool) (s : State) : (retireRings p s).ports.blocks = s.ports.blocks := by rfl

@[simp] theorem poisonRowsAt_blocks (b : Blk) (off n cause : Nat) (s : State) :
    (poisonRowsAt b off n cause s).ports.blocks = s.ports.blocks := by
  simp [poisonRowsAt]

@[simp] theorem tableError_blocks (ti : Nat) (s : State) : (tableError ti s).ports.blocks = s.ports.blocks := by
  simp [tableError]

/-! ### Row operations -/

@[simp] theorem rewriteServing_blocks (ti : Nat) (t : Tbl) (row : Nat) (es : List Nat) (s : State) :
    (rewriteServing ti t row es s).ports.blocks = s.ports.blocks := by
  simp [rewriteServing]

@[simp] theorem storeRow_blocks (ti : Nat) (t : Tbl) (row : Nat) (w : List Nat) (st : List Nat) (s : State) :
    (storeRow ti t row w st s).ports.blocks = s.ports.blocks := by
  simp [storeRow]

@[simp] theorem heatKeys_blocks (ti : Nat) (t : Tbl) (index : Nat) (s : State) : (heatKeys ti t index s).ports.blocks = s.ports.blocks := by
  simp [heatKeys]

@[simp] theorem serveRead_blocks (ti : Nat) (t : Tbl) (r row : Nat) (s : State) :
    (serveRead ti t r row s).state.ports.blocks = s.ports.blocks := by
  unfold serveRead
  repeat' split
  all_goals simp

@[simp] theorem l1Forget_blocks (fs : List Nat) (s : State) : (l1Forget fs s).ports.blocks = s.ports.blocks := by rfl

@[simp] theorem moveBlock_blocks (b : Blk) (f : Nat) (s : State) : (moveBlock b f s).ports.blocks = s.ports.blocks := by
  unfold moveBlock
  split <;> simp

@[simp] theorem promoteRow_blocks (ti : Nat) (blocks : List (Nat × Nat)) (s : State) : (promoteRow ti blocks s).ports.blocks = s.ports.blocks := by
  refine blocks_foldl (fun s ri => ?_) _ _
  split
  · split
    · split
      · split
        · next h => simpa using takeFrame_blocks _ _ _ _ h
        · rfl
      · rfl
    · rfl
  · rfl

@[simp] theorem writable_touched_blocks (ti : Nat) (t : Tbl) (row : Nat) (rs : List Nat) (s : State) :
    (writable.touched ti t row rs s).ports.blocks = s.ports.blocks := by
  simp [writable.touched]

@[simp] theorem writable_go_blocks (ti : Nat) (t : Tbl) (row step : Nat) (rs : List Nat) (s : State) :
    (writable.go ti t row step rs s).state.ports.blocks = s.ports.blocks := by
  unfold writable.go
  split
  · simp
  · split
    · rfl
    · have h := captureBefore_blocks ti step (blocksOf t rs row) s
      split <;> next he => simpa [he] using h

@[simp] theorem writable_blocks (ti : Nat) (t : Tbl) (row step : Nat) (rs : List Nat) (overwrite : Bool) (s : State) :
    (writable ti t row step rs overwrite s).state.ports.blocks = s.ports.blocks := by
  unfold writable
  repeat' split
  all_goals simp

@[simp] theorem insertKey_blocks (ti : Nat) (t : Tbl) (key step : Nat) (s : State) :
    (insertKey ti t key step s).2.state.ports.blocks = s.ports.blocks := by
  unfold insertKey
  have h := fun row => writable_blocks ti t row step (tblRegions t) true s
  split
  · rfl
  · next row _ =>
    split
    · rfl
    · specialize h row
      split <;> simp_all

@[simp] theorem updateRow_blocks (ti : Nat) (t : Tbl) (o : RowOp) (row : Nat) (s : State) :
    (updateRow ti t o row s).ports.blocks = s.ports.blocks := by
  simp [updateRow]

@[simp] theorem writeOneRow_blocks (ti : Nat) (t : Tbl) (o : RowOp) (row : Nat) (s : State) :
    (writeOneRow ti t o row s).ports.blocks = s.ports.blocks := by
  simp [writeOneRow]

@[simp] theorem countUpdate_blocks (ti : Nat) (s : State) : (countUpdate ti s).ports.blocks = s.ports.blocks := by
  simp [countUpdate]

@[simp] theorem noteWrite_blocks (ti : Nat) (t : Tbl) (rs : List Nat) (row step : Nat) (s : State) :
    (noteWrite ti t rs row step s).ports.blocks = s.ports.blocks := by
  simp [noteWrite]

@[simp] theorem serveWrite_blocks (ti : Nat) (t : Tbl) (o : RowOp) (row flags : Nat) (s : State) :
    (serveWrite ti t o row flags s).state.ports.blocks = s.ports.blocks := by
  unfold serveWrite
  repeat' split
  all_goals simp

@[simp] theorem knowKey_blocks (ti row : Nat) (s : State) : (knowKey ti row s).ports.blocks = s.ports.blocks := by
  simp [knowKey]

@[simp] theorem serveRekey_blocks (ti : Nat) (t : Tbl) (o : RowOp) (row : Nat) (s : State) :
    (serveRekey ti t o row s).state.ports.blocks = s.ports.blocks := by
  unfold serveRekey
  have h := writable_blocks ti t row o.step (3 :: writtenRegions t o) true s
  split
  · rfl
  · split
    · rfl
    · split <;> simp_all

@[simp] theorem serveFound_blocks (ti : Nat) (o : RowOp) (s : State) : (serveFound ti o s).state.ports.blocks = s.ports.blocks := by
  have hi := insertKey_blocks ti (tblD s ti) o.index o.step s
  have hw := fun row => writable_blocks ti (tblD s ti) row o.step (writtenRegions (tblD s ti) o) (o.op == 5) s
  unfold serveFound
  dsimp only
  split
  · rfl
  · split
    · rfl
    · split
      · rfl
      · split
        · rfl
        · split <;> simp
      · split
        · rfl
        · split
          · split
            · rfl
            · split <;> simp_all
          · split <;> simp
      · next row _ =>
        split
        · rfl
        · split
          · simp
          · simp
          · simp
          · split
            · split <;> simp
            · split
              · simp
              · split <;> simp
          · split
            · rfl
            · specialize hw row
              split <;> simp_all

@[simp] theorem serveIndex_blocks (ti : Nat) (o : RowOp) (s : State) : (serveIndex ti o s).state.ports.blocks = s.ports.blocks := by
  unfold serveIndex
  have h := serveFound_blocks ti o s
  split <;> simp_all

/-! ### Kernels and their items -/

@[simp] theorem setUnit_blocks (p : Nat) (u : ClusterSt) (s : State) : (setUnit p u s).ports.blocks = s.ports.blocks := by rfl

@[simp] theorem zeroScratch_blocks (a n : Nat) (s : State) : (zeroScratch a n s).ports.blocks = s.ports.blocks := by rfl

@[simp] theorem l1Clear_blocks (core : Nat) (s : State) : (l1Clear core s).ports.blocks = s.ports.blocks := by rfl

@[simp] theorem releaseKernel_blocks (ki : Nat) (s : State) : (releaseKernel ki s).ports.blocks = s.ports.blocks := by
  unfold releaseKernel
  split <;> simp

@[simp] theorem addJob_blocks (j : Job) (s : State) : (addJob j s).ports.blocks = s.ports.blocks := by rfl

@[simp] theorem updJob_blocks (id : Nat) (f : Job → Job) (s : State) : (updJob id f s).ports.blocks = s.ports.blocks := by rfl

@[simp] theorem setThread_blocks (th : Nat) (t : Thread) (s : State) : (setThread th t s).ports.blocks = s.ports.blocks := by rfl

@[simp] theorem giveItem_blocks (k : Kernel) (j : Job) (th : Nat) (s : State) : (giveItem k j th s).ports.blocks = s.ports.blocks := by rfl

@[simp] theorem handSlot_blocks (ki : Nat) (k : Kernel) (s : State) (th : Nat) : (handSlot ki k s th).ports.blocks = s.ports.blocks := by
  unfold handSlot
  repeat' split
  all_goals simp

@[simp] theorem preemptSlot_blocks (ki : Nat) (k : Kernel) (s : State) (th : Nat) : (preemptSlot ki k s th).ports.blocks = s.ports.blocks := by
  unfold preemptSlot
  split <;> simp

@[simp] theorem dispatchItems_blocks (s : State) : (dispatchItems s).ports.blocks = s.ports.blocks := by
  simp [dispatchItems]

/-! ### Custody queue pairs -/

@[simp] theorem setCqp_blocks (n : Nat) (q : Cqp) (s : State) : (setCqp n q s).ports.blocks = s.ports.blocks := by rfl

@[simp] theorem updCqp_blocks (n : Nat) (f : Cqp → Cqp) (s : State) : (updCqp n f s).ports.blocks = s.ports.blocks := by
  unfold updCqp
  split <;> simp

@[simp] theorem writeCqe_blocks (n : Nat) (c : Cqe) (irq : Bool) (s : State) : (writeCqe n c irq s).ports.blocks = s.ports.blocks := by
  unfold writeCqe
  split
  · rfl
  · next q _ =>
    cases ringDpa s (some n) q.owner true (16 * q.cqProd) <;> simp

@[simp] theorem postCqe_blocks (n : Nat) (d : Desc) (count status detail flags : Nat) (s : State) :
    (postCqe n d count status detail flags s).ports.blocks = s.ports.blocks := by
  unfold postCqe
  split <;> simp

@[simp] theorem updProg_blocks (n seq : Nat) (f : InProg → InProg) (s : State) : (updProg n seq f s).ports.blocks = s.ports.blocks := by
  simp [updProg]

@[simp] theorem gotIndex_blocks (n seq k status flags : Nat) (bs : Bytes) (s : State) :
    (gotIndex n seq k status flags bs s).ports.blocks = s.ports.blocks := by
  simp [gotIndex]

@[simp] theorem ruleJob_blocks (origin : JobOrigin) (ti row step : Nat) (grad : Bytes) (fresh : Bool) (s : State) :
    (ruleJob origin ti row step grad fresh s).ports.blocks = s.ports.blocks := by
  unfold ruleJob
  dsimp only
  split <;> simp

@[simp] theorem servePosition_blocks (n seq k : Nat) (s : State) : (servePosition n seq k s).ports.blocks = s.ports.blocks := by
  unfold servePosition
  split
  · rfl
  · next p _ =>
    split
    · simp
    · next ti t _ =>
      have h := serveIndex_blocks ti (rowOpAt t p.desc p.io k) s
      dsimp only
      split
      · simp
      · split
        · rfl
        · split
          · split <;> simp_all
          · split
            · split <;> simp
            · rfl

@[simp] theorem kernelComplete_blocks (n seq halted : Nat) (fault : Option (Nat × Nat)) (s : State) :
    (kernelComplete n seq halted fault s).ports.blocks = s.ports.blocks := by
  unfold kernelComplete
  split <;> simp

@[simp] theorem completeDesc_blocks (n : Nat) (p : InProg) (s : State) : (completeDesc n p s).ports.blocks = s.ports.blocks := by
  unfold completeDesc
  dsimp only
  split <;> simp

@[simp] theorem advanceQueue_blocks (n : Nat) (s : State) : (advanceQueue n s).ports.blocks = s.ports.blocks := by
  simp [advanceQueue]

@[simp] theorem fetchDescs_blocks (n fuel : Nat) (s : State) : (fetchDescs n fuel s).ports.blocks = s.ports.blocks := by
  induction fuel generalizing s with
  | zero => rfl
  | succ fuel ih =>
    unfold fetchDescs
    split
    · rfl
    · split
      · rfl
      · split
        · rfl
        · simp [ih]

@[simp] theorem updFwd_blocks (w : FwdWait) (f : FwdWait → FwdWait) (s : State) : (updFwd w f s).ports.blocks = s.ports.blocks := by rfl

@[simp] theorem serveForwarded_blocks (w : FwdWait) (s : State) : (serveForwarded w s).ports.blocks = s.ports.blocks := by
  unfold serveForwarded
  dsimp only
  split
  · simp
  · next ti t _ =>
    have h := serveIndex_blocks ti { op := w.op, flags := w.flags, step := w.step, lr := w.lr, index := w.index, data := w.data } s
    split
    · rfl
    · split
      · simp
      · split
        · rfl
        · split <;> simp_all

@[simp] theorem removeCqp_blocks (n : Nat) (s : State) : (removeCqp n s).ports.blocks = s.ports.blocks := by
  simp [removeCqp]

@[simp] theorem destroyProgress_blocks (s : State) : (destroyProgress s).ports.blocks = s.ports.blocks := by
  simp [destroyProgress]

/-! ### Frames of the next course -/

theorem takeCxlArea_blocks (gib : Nat) (s : State) : ∀ t, takeCxlArea gib s = some t → t.ports.blocks = s.ports.blocks := by
  unfold takeCxlArea
  dsimp only
  rintro t h
  split at h
  · cases h; rfl
  · split at h
    · cases h
    · split at h
      · cases h; rfl
      · exact takeSingles_blocks false .cxlArea _ s t h

theorem takePolicy_blocks (p : CoursePolicy) (s : State) : ∀ t, takePolicy p s = some t → t.ports.blocks = s.ports.blocks := by
  rintro t h
  obtain ⟨u, hu, ht⟩ := Option.bind_eq_some_iff.mp h
  have hs := (takeExtent_blocks _ _ _ u hu).trans (reuse_blocks .courseNext .courseOld s)
  split at ht
  · cases ht; exact hs
  · exact (takeCxlArea_blocks _ u t ht).trans hs

theorem ensureFrames_blocks (s : State) : ∀ t, ensureFrames s = some t → t.ports.blocks = s.ports.blocks := by
  unfold ensureFrames
  rintro t h
  split at h
  · cases h; rfl
  · obtain ⟨u, hu, rfl⟩ := Option.map_eq_some_iff.mp h
    exact takePolicy_blocks _ s u hu

/-! ### Storage -/

@[simp] theorem setCtrl_blocks (fn : Nat) (c : Nvme) (s : State) : (setCtrl fn c s).ports.blocks = s.ports.blocks := by rfl

@[simp] theorem updCtrl_blocks (fn : Nat) (f : Nvme → Nvme) (s : State) : (updCtrl fn f s).ports.blocks = s.ports.blocks := by rfl

@[simp] theorem setNs_blocks (n : Nat) (x : Ns) (s : State) : (setNs n x s).ports.blocks = s.ports.blocks := by rfl

@[simp] theorem updNs_blocks (n : Nat) (f : Ns → Ns) (s : State) : (updNs n f s).ports.blocks = s.ports.blocks := by
  unfold updNs
  split <;> simp

@[simp] theorem nvmeIrq_blocks (fn cq : Nat) (q : NCq) (s : State) : (nvmeIrq fn cq q s).ports.blocks = s.ports.blocks := by
  simp [nvmeIrq]

@[simp] theorem nvmeWrite_blocks (fn sq cid status dw0 : Nat) (writes : List (Nat × Bytes)) (s : State) :
    (nvmeWrite fn sq cid status dw0 writes s).ports.blocks = s.ports.blocks := by
  unfold nvmeWrite
  dsimp only
  split
  · rfl
  · split <;> simp

@[simp] theorem nvmeDone_blocks (fn sq cid status dw0 : Nat) (writes : List (Nat × Bytes)) (s : State) :
    (nvmeDone fn sq cid status dw0 writes s).ports.blocks = s.ports.blocks := by
  simp [nvmeDone]

@[simp] theorem asyncEvent_blocks (fn type info log : Nat) (s : State) :
    (asyncEvent fn type info log s).ports.blocks = s.ports.blocks := by
  unfold asyncEvent
  dsimp only
  split
  · rfl
  · split <;> simp

@[simp] theorem nsChanged_blocks (fn nsid : Nat) (s : State) : (nsChanged fn nsid s).ports.blocks = s.ports.blocks := by
  simp [nsChanged]

@[simp] theorem updOp_blocks (id : Nat) (f : NvmeOp → NvmeOp) (s : State) : (updOp id f s).ports.blocks = s.ports.blocks := by rfl

@[simp] theorem dropOp_blocks (id : Nat) (s : State) : (dropOp id s).ports.blocks = s.ports.blocks := by rfl

@[simp] theorem postOp_blocks (o : NvmeOp) (status : Nat) (writes : List (Nat × Bytes)) (s : State) :
    (postOp o status writes s).ports.blocks = s.ports.blocks := by
  simp [postOp]

@[simp] theorem endOp_blocks (o : NvmeOp) (status : Nat) (writes : List (Nat × Bytes)) (s : State) :
    (endOp o status writes s).ports.blocks = s.ports.blocks := by
  simp [endOp]

@[simp] theorem writeRecord_blocks (o : NvmeOp) (s : State) : (writeRecord o s).ports.blocks = s.ports.blocks := by
  simp [writeRecord]

@[simp] theorem sanRecord_blocks (n : Nat) (s : State) : (sanRecord n s).ports.blocks = s.ports.blocks := by rfl

@[simp] theorem setSan_blocks (n : Nat) (f : Sanitize → Sanitize) (s : State) : (setSan n f s).ports.blocks = s.ports.blocks := by
  simp [setSan]

@[simp] theorem dropOps_blocks (n : Nat) (s : State) : (dropOps n s).ports.blocks = s.ports.blocks := by rfl

@[simp] theorem acceptSan_blocks (fn op : Nat) (c : NvmeCmd) (s : State) : (acceptSan fn op c s).ports.blocks = s.ports.blocks := by
  simp [acceptSan]

@[simp] theorem takeEntries_blocks (s : State) : (takeEntries s).ports.blocks = s.ports.blocks := by
  simp [takeEntries]

@[simp] theorem freshenOps_blocks (s : State) : (freshenOps s).ports.blocks = s.ports.blocks := by
  refine blocks_foldl (fun s o => ?_) _ _
  dsimp only
  split <;> simp

@[simp] theorem finishWaits_blocks (s : State) : (finishWaits s).ports.blocks = s.ports.blocks := by
  unfold finishWaits
  simp only [blocks_ite, finishWait_blocks, nsChanged_blocks, updNs_blocks, ite_self, implies_true, blocks_foldl]
  exact blocks_foldl (fun s e => by split <;> simp) _ _

@[simp] theorem stoSettle_blocks (s : State) : (stoSettle s).ports.blocks = s.ports.blocks := by
  simp [stoSettle]

/-! ### Packets, subscribers and the NIC -/

@[simp] theorem setElastic_blocks (f : Elastic → Elastic) (s : State) : (setElastic f s).ports.blocks = s.ports.blocks := by rfl

@[simp] theorem updRestore_blocks (f : RestoreRun → RestoreRun) (s : State) : (updRestore f s).ports.blocks = s.ports.blocks := by rfl

@[simp] theorem setEn_blocks (n : Nat) (p : EnPort) (s : State) : (setEn n p s).ports.blocks = s.ports.blocks := by rfl

@[simp] theorem updEn_blocks (n : Nat) (f : EnPort → EnPort) (s : State) : (updEn n f s).ports.blocks = s.ports.blocks := by rfl

@[simp] theorem setSub_blocks (i : Nat) (x : SubPort) (s : State) : (setSub i x s).ports.blocks = s.ports.blocks := by rfl

@[simp] theorem updSub_blocks (i : Nat) (f : SubPort → SubPort) (s : State) : (updSub i f s).ports.blocks = s.ports.blocks := by rfl

@[simp] theorem bumpEn_blocks (i rel : Nat) (s : State) : (bumpEn i rel s).ports.blocks = s.ports.blocks := by rfl

@[simp] theorem setQp_blocks (k : Nat) (q : NicQp) (s : State) : (setQp k q s).ports.blocks = s.ports.blocks := by rfl

@[simp] theorem writeNic_blocks (k : Nat) (c : NicCpl) (s : State) : (writeNic k c s).ports.blocks = s.ports.blocks := by
  unfold writeNic
  split <;> simp

@[simp] theorem postNic_blocks (k : Nat) (c : NicCpl) (s : State) : (postNic k c s).ports.blocks = s.ports.blocks := by
  unfold postNic
  split <;> simp

@[simp] theorem txDone_blocks (fid gen qp index : Nat) (irq : Bool) (st : Nat) (s : State) :
    (txDone fid gen qp index irq st s).ports.blocks = s.ports.blocks := by
  simp [txDone]

@[simp] theorem txDoneFree_blocks (fid gen qp index : Nat) (irq : Bool) (s : State) :
    (txDoneFree fid gen qp index irq s).ports.blocks = s.ports.blocks := by
  simp [txDoneFree]

@[simp] theorem setShaper_blocks (k : Nat × Nat) (x : Shaper) (s : State) : (setShaper k x s).ports.blocks = s.ports.blocks := by rfl

@[simp] theorem pushFrame_blocks (i tc : Nat) (f : EgFrame) (s : State) : (pushFrame i tc f s).ports.blocks = s.ports.blocks := by rfl

@[simp] theorem dropDone_blocks (st : Option Nat) (f : EgFrame) (s : State) : (dropDone st f s).ports.blocks = s.ports.blocks := by
  unfold dropDone
  repeat' split
  all_goals simp

@[simp] theorem enqueue_blocks (i tc : Nat) (f : EgFrame) (s : State) : (enqueue i tc f s).ports.blocks = s.ports.blocks := by
  simp [enqueue]

@[simp] theorem takeFrom_blocks (k : Nat × Nat) (t len : Nat) (s : State) : (takeFrom k t len s).ports.blocks = s.ports.blocks := by
  simp [takeFrom]

@[simp] theorem transmitDesc_blocks (k : Nat) (q : NicQp) (d : TxDesc) (data : Option Bytes) (s : State) :
    (transmitDesc k q d data s).ports.blocks = s.ports.blocks := by
  unfold transmitDesc
  repeat' split
  all_goals simp

@[simp] theorem nicTransmit_blocks (k : Nat) (s : State) : (nicTransmit k s).ports.blocks = s.ports.blocks := by
  unfold nicTransmit
  split
  · simp
  · split <;> simp

@[simp] theorem deliverHost_blocks (m : Meta) (h : Nat) (f : Bytes) (s : State) : (deliverHost m h f s).ports.blocks = s.ports.blocks := by
  unfold deliverHost
  dsimp only
  split
  · simp
  · split <;> simp

@[simp] theorem deliverSteward_blocks (sub : Nat) (f : Bytes) (s : State) : (deliverSteward sub f s).ports.blocks = s.ports.blocks := by
  simp only [deliverSteward]
  split <;> simp

@[simp] theorem offer_blocks (i tc : Nat) (f : EgFrame) (s : State) : (offer i tc f s).ports.blocks = s.ports.blocks := by
  simp [offer]

@[simp] theorem deliver_blocks (m : Meta) (stack : List (Nat × Nat)) (f : Bytes) (s : State) :
    (deliver m stack f s).ports.blocks = s.ports.blocks := by
  unfold deliver
  split <;> simp

@[simp] theorem policeFrame_blocks (m : Meta) (s : State) : (policeFrame m s).1.ports.blocks = s.ports.blocks := by
  unfold policeFrame
  dsimp only
  split
  · rfl
  · split <;> simp

@[simp] theorem routeFrame_blocks (sub : Nat) (f : Bytes) (s : State) : (routeFrame sub f s).ports.blocks = s.ports.blocks := by
  unfold routeFrame
  dsimp only
  have hu : (if (parseFrame s f).flags = 0 then s else bump blkPacket 0x104 s).ports.blocks = s.ports.blocks := by simp
  generalize (if (parseFrame s f).flags = 0 then s else bump blkPacket 0x104 s) = u at hu ⊢
  split
  · simp [hu]
  · split <;> simp [hu]

@[simp] theorem resumeIngress_blocks (s : State) : (resumeIngress s).ports.blocks = s.ports.blocks := by
  simp [resumeIngress]

@[simp] theorem removeNicQp_blocks (k : Nat) (s : State) : (removeNicQp k s).ports.blocks = s.ports.blocks := by
  unfold removeNicQp
  split <;> simp

/-! ### Connections -/

@[simp] theorem setConn_blocks (h : Nat) (c : Conn) (s : State) : (setConn h c s).ports.blocks = s.ports.blocks := by rfl

@[simp] theorem setWq_blocks (w : Nat) (q : Wq) (s : State) : (setWq w q s).ports.blocks = s.ports.blocks := by rfl

@[simp] theorem bumpTr_blocks (rel : Nat) (s : State) : (bumpTr rel s).ports.blocks = s.ports.blocks := by rfl

@[simp] theorem useGrtKey_blocks (fid sender receiver : Nat) (p : GrtPkt) (s : State) :
    (useGrtKey fid sender receiver p s).ports.blocks = s.ports.blocks := by
  unfold useGrtKey
  split <;> simp

@[simp] theorem queuePacket_blocks (h : Nat) (p : GrtPkt) (s : State) : (queuePacket h p s).ports.blocks = s.ports.blocks := by
  simp [queuePacket]

@[simp] theorem writeGrt_blocks (w : Nat) (x : GrtCpl) (s : State) : (writeGrt w x s).ports.blocks = s.ports.blocks := by
  unfold writeGrt
  split <;> simp

@[simp] theorem postGrt_blocks (w : Nat) (x : GrtCpl) (s : State) : (postGrt w x s).ports.blocks = s.ports.blocks := by
  unfold postGrt
  split <;> simp

@[simp] theorem raiseCtr_blocks (w k n : Nat) (s : State) : (raiseCtr w k n s).ports.blocks = s.ports.blocks := by
  unfold raiseCtr
  split <;> simp

@[simp] theorem endReq_blocks (w h : Nat) (wr : GrtWr) (st : Nat) (s : State) : (endReq w h wr st s).ports.blocks = s.ports.blocks := by
  simp [endReq]

@[simp] theorem runLocal_blocks (w h : Nat) (wr : GrtWr) (s : State) : (runLocal w h wr s).ports.blocks = s.ports.blocks := by
  simp [runLocal]

@[simp] theorem drainReqs_blocks (h fuel : Nat) (s : State) : (drainReqs h fuel s).ports.blocks = s.ports.blocks := by
  induction fuel generalizing s with
  | zero => rfl
  | succ fuel ih =>
    unfold drainReqs
    dsimp only
    split
    · rfl
    · split
      · simp [ih]
      · split <;> simp [ih]

@[simp] theorem drainAll_blocks (h : Nat) (s : State) : (drainAll h s).ports.blocks = s.ports.blocks := by
  simp [drainAll]

@[simp] theorem sendNew_blocks (h msn : Nat) (p : GrtPkt) (s : State) : (sendNew h msn p s).ports.blocks = s.ports.blocks := by
  simp [sendNew]

@[simp] theorem resend_blocks (h psn : Nat) (s : State) : (resend h psn s).ports.blocks = s.ports.blocks := by
  unfold resend
  dsimp only
  split <;> simp

theorem sendOne_blocks (h : Nat) (s : State) : ∀ t, sendOne h s = some t → t.ports.blocks = s.ports.blocks := by
  unfold sendOne
  dsimp only
  rintro t ht
  split at ht
  · cases ht
  · split at ht
    · obtain ⟨-, ht⟩ := Option.ite_none_right_eq_some.mp ht
      cases ht
      simp
    · split at ht
      · cases ht
      · split at ht
        · obtain ⟨-, ht⟩ := Option.ite_none_right_eq_some.mp ht
          cases ht
          simp
        · split at ht
          · cases ht
          · split at ht
            · cases ht
            · split at ht
              · cases ht
                simp
              · split at ht
                · obtain ⟨-, ht⟩ := Option.ite_none_right_eq_some.mp ht
                  cases ht
                  simp
                · obtain ⟨-, ht⟩ := Option.ite_none_right_eq_some.mp ht
                  cases ht
                  simp

@[simp] theorem pump_blocks (h fuel : Nat) (s : State) : (pump h fuel s).ports.blocks = s.ports.blocks := by
  induction fuel generalizing s with
  | zero => rfl
  | succ fuel ih =>
    unfold pump
    split
    · next t ht => exact (ih t).trans (sendOne_blocks h s t ht)
    · rfl

@[simp] theorem pumpConn_blocks (h : Nat) (s : State) : (pumpConn h s).ports.blocks = s.ports.blocks := by
  simp [pumpConn]

@[simp] theorem removeConn_blocks (h : Nat) (s : State) : (removeConn h s).ports.blocks = s.ports.blocks := by
  unfold removeConn
  dsimp only
  split
  · simp
  · split <;> simp

@[simp] theorem dropConnFrames_blocks (h : Nat) (s : State) : (dropConnFrames h s).ports.blocks = s.ports.blocks := by rfl

@[simp] theorem removeMr_blocks (slot : Nat) (s : State) : (removeMr slot s).ports.blocks = s.ports.blocks := by
  unfold removeMr
  split <;> simp

@[simp] theorem dropTransport_blocks (fid : Nat) (s : State) : (dropTransport fid s).ports.blocks = s.ports.blocks := by
  simp [dropTransport]

/-! ### Ends of kernels -/

@[simp] theorem nvmeReset_blocks (fn : Nat) (s : State) : (nvmeReset fn s).ports.blocks = s.ports.blocks := by
  simp [nvmeReset]

@[simp] theorem rowUndone_blocks (ti row : Nat) (j : Job) (s : State) : (rowUndone ti row j s).ports.blocks = s.ports.blocks := by
  simp [rowUndone]

@[simp] theorem jobDone_blocks (j : Job) (s : State) : (jobDone j s).ports.blocks = s.ports.blocks := by
  unfold jobDone
  repeat' split
  all_goals simp

@[simp] theorem itemsEnd_blocks (id n halted : Nat) (fault : Option (Nat × Nat)) (s : State) :
    (itemsEnd id n halted fault s).ports.blocks = s.ports.blocks := by
  unfold itemsEnd
  dsimp only
  split <;> simp

@[simp] theorem moveThread_blocks (ki : Nat) (t : Thread) (s : State) : (moveThread ki t s).ports.blocks = s.ports.blocks := by
  unfold moveThread
  split <;> simp

@[simp] theorem abandonCore_blocks (k : Nat) (s : State) : (abandonCore k s).ports.blocks = s.ports.blocks := by
  unfold abandonCore
  dsimp only
  refine (blocks_foldl (fun s e => by split <;> simp) _ _).trans ?_
  simp

@[simp] theorem endUnstarted_blocks (p : Job → Bool) (ki : Nat) (s : State) : (endUnstarted p ki s).ports.blocks = s.ports.blocks := by
  simp [endUnstarted]

@[simp] theorem endWaiting_blocks (handle : Nat) (s : State) : (endWaiting handle s).ports.blocks = s.ports.blocks := by
  simp [endWaiting]

@[simp] theorem stopKernel_blocks (ki : Nat) (s : State) : (stopKernel ki s).ports.blocks = s.ports.blocks := by
  unfold stopKernel
  split <;> simp

@[simp] theorem endRunning_blocks (p : Job → Bool) (ki : Nat) (s : State) : (endRunning p ki s).ports.blocks = s.ports.blocks := by
  simp [endRunning]

@[simp] theorem endDescItems_blocks (ki : Nat) (s : State) : (endDescItems ki s).ports.blocks = s.ports.blocks := by
  simp [endDescItems]

/-! ### Functions that fail -/

@[simp] theorem endIde_blocks (hp : Nat) (s : State) : (endIde hp s).ports.blocks = s.ports.blocks := by rfl

@[simp] theorem noRetry_blocks (ep : Nat) (s : State) : (noRetry ep s).ports.blocks = s.ports.blocks := by rfl

@[simp] theorem resumeNic_blocks (k fuel : Nat) (s : State) : (resumeNic k fuel s).ports.blocks = s.ports.blocks := by
  induction fuel generalizing s with
  | zero => rfl
  | succ n ih => exact (ih (nicTransmit k s)).trans (nicTransmit_blocks k s)

@[simp] theorem resumeEgress_blocks (s : State) : (resumeEgress s).ports.blocks = s.ports.blocks := by
  refine blocks_foldl (fun s x => ?_) _ _
  split <;> simp

@[simp] theorem abortWaits_blocks (fid : Nat) (s : State) : (abortWaits fid s).ports.blocks = s.ports.blocks := by
  simp [abortWaits]

@[simp] theorem keepWaits_blocks (fid gen : Nat) (s : State) : (keepWaits fid gen s).ports.blocks = s.ports.blocks := by
  simp [keepWaits]

@[simp] theorem lateCompletions_blocks (fid n : Nat) (s : State) : (lateCompletions fid n s).ports.blocks = s.ports.blocks := by
  simp [lateCompletions]

@[simp] theorem failQueues_blocks (reset : Bool) (fid : Nat) (s : State) : (failQueues reset fid s).ports.blocks = s.ports.blocks := by
  simp [failQueues]

@[simp] theorem failHostSide_blocks (fid : Nat) (s : State) : (failHostSide fid s).ports.blocks = s.ports.blocks := by
  simp [failHostSide]

@[simp] theorem restampTables_blocks (fid : Nat) (s : State) : (restampTables fid s).ports.blocks = s.ports.blocks := by rfl

@[simp] theorem dropReplies_blocks (n : Nat) (s : State) : (dropReplies n s).ports.blocks = s.ports.blocks := by rfl

end Sys2Proof.Machine
end

section
/-! A host reset leaves every link that is down as it is (R56, R387). Apart from the generations of its links, no part of a port block changes
while functions fail and commands end: the frame `blockShape` carries through every function that may reset an endpoint on its way. -/

namespace Sys2Proof.Machine

open Sys2Proof

theorem pbOf_setPb_same (n : Nat) (b : PBlock) (s : State) : pbOf (setPb n b s) n = b := lookD_put_same ..
theorem pbOf_setPb_of_ne {m n : Nat} (h : m ≠ n) (b : PBlock) (s : State) : pbOf (setPb n b s) m = pbOf s m :=
  lookD_put_of_ne _ _ _ h.symm

/-- A port block but for the generations of its links. -/
def unnumbered (b : PBlock) : PBlock := { b with links := b.links.map (fun l => { l with gen := 0 }) }
def blockShape (bs : List (Nat × PBlock)) (n : Nat) : PBlock := unnumbered (lookD bs n {})

@[simp] theorem blockShape_ite (c : Prop) [Decidable c] (s t : List (Nat × PBlock)) :
    blockShape (if c then s else t) = if c then blockShape s else blockShape t := apply_ite blockShape c s t

@[simp] theorem blockShape_foldl {α : Type} {f : State → α → State}
    (h : ∀ s x, blockShape (f s x).ports.blocks = blockShape s.ports.blocks) (l : List α) (s : State) :
    blockShape (l.foldl f s).ports.blocks = blockShape s.ports.blocks := by
  induction l generalizing s with
  | nil => rfl
  | cons x xs ih => exact (ih (f s x)).trans (h s x)

/-- A new generation of a link is no part of a block's shape. -/
theorem unnumbered_set_gen (b : PBlock) (k g : Nat) :
    unnumbered { b with links := b.links.set k { (b.links[k]?).getD {} with gen := g } } = unnumbered b := by
  have : (b.links.set k { (b.links[k]?).getD {} with gen := g }).map (fun l => { l with gen := 0 }) =
      b.links.map (fun l : PLink => { l with gen := 0 }) := by
    refine List.ext_getElem (by simp) (fun i hi _ => ?_)
    have hlt : i < b.links.length := by simpa using hi
    by_cases hk : k = i
    · subst hk
      simp [hlt]
    · simp [hk]
  simp only [unnumbered, this]

theorem setLink_gen_shape (ep g : Nat) (s : State) :
    blockShape (setLink ep { linkOf s ep with gen := g } s).ports.blocks = blockShape s.ports.blocks := by
  funext n
  by_cases hn : n = ep / 4
  · subst hn
    exact (congrArg unnumbered (pbOf_setPb_same ..)).trans (unnumbered_set_gen ..)
  · exact congrArg unnumbered (pbOf_setPb_of_ne hn ..)

@[simp] theorem endpointReset_shape (ep : Nat) (s : State) : blockShape (endpointReset ep s).ports.blocks = blockShape s.ports.blocks :=
  setLink_gen_shape ep _ s

/-! ### Faults of lines -/

@[simp] theorem ringPoisoned_shape (l : Nat) (q : QRing) (s : State) :
    blockShape (ringPoisoned l q s).ports.blocks = blockShape s.ports.blocks := by
  unfold ringPoisoned
  dsimp only
  split <;> simp

@[simp] theorem lineConsequence_shape (lf : LineFault) (s : State) :
    blockShape (lineConsequence lf s).ports.blocks = blockShape s.ports.blocks := by
  unfold lineConsequence
  dsimp only
  split
  · simp
  · split
    · simp
    · split
      · rfl
      · split <;> simp

@[simp] theorem badLine_shape (lf : LineFault) (s : State) : blockShape (badLine lf s).ports.blocks = blockShape s.ports.blocks := by
  simp [badLine]

@[simp] theorem lineFault_shape (lf : LineFault) (s : State) : blockShape (lineFault lf s).ports.blocks = blockShape s.ports.blocks := by
  unfold lineFault
  dsimp only
  split
  · rfl
  · split
    · simp
    · split
      · exact blockShape_foldl (fun s x => by cases x <;> simp) _ _
      · simp

@[simp] theorem lineFaults_shape (ls : List LineFault) (s : State) :
    blockShape (lineFaults ls s).ports.blocks = blockShape s.ports.blocks := blockShape_foldl (fun s l => lineFault_shape l s) ls s

/-! ### Queues run and everything settles -/

@[simp] theorem startDesc_shape (n seq : Nat) (d : Desc) (io : DescIo) (s : State) :
    blockShape (startDesc n seq d io s).ports.blocks = blockShape s.ports.blocks := by
  unfold startDesc
  dsimp only
  split
  · simp
  · split
    · simp
    · split
      · split <;> simp
      · simp

@[simp] theorem startDescs_shape (n fuel : Nat) (s : State) : blockShape (startDescs n fuel s).ports.blocks = blockShape s.ports.blocks := by
  induction fuel generalizing s with
  | zero => rfl
  | succ fuel ih =>
    unfold startDescs
    split
    · rfl
    · split
      · rfl
      · split <;> simp [ih]

@[simp] theorem runQueue_shape (n : Nat) (s : State) : blockShape (runQueue n s).ports.blocks = blockShape s.ports.blocks := by
  simp [runQueue]

@[simp] theorem settleOnce_shape (s : State) : blockShape (settleOnce s).ports.blocks = blockShape s.ports.blocks := by
  simp [settleOnce]

@[simp] theorem settleN_shape (n : Nat) (s : State) : blockShape (settleN n s).ports.blocks = blockShape s.ports.blocks := by
  induction n generalizing s with
  | zero => rfl
  | succ n ih => exact (ih (settleOnce s)).trans (settleOnce_shape s)

@[simp] theorem settle_shape (s : State) : blockShape (settle s).ports.blocks = blockShape s.ports.blocks := by
  simp [settle]

/-! ### Courses open -/

theorem rootOpen_shape {id step label trigger : Nat} {s t : State} (h : rootOpen id step label trigger s = some t) :
    blockShape t.ports.blocks = blockShape s.ports.blocks := by
  obtain ⟨u, hu, rfl⟩ := Option.map_eq_some_iff.mp h
  simp [ensureFrames_blocks s u hu]

@[simp] theorem autoOpen_shape (trigger : Nat) (s : State) : blockShape (autoOpen trigger s).ports.blocks = blockShape s.ports.blocks := by
  unfold autoOpen
  split
  · simp
  · dsimp only
    split
    · next h => exact rootOpen_shape h
    · simp

@[simp] theorem earlyOpen_shape (s : State) : blockShape (earlyOpen s).ports.blocks = blockShape s.ports.blocks := by
  simp [earlyOpen]

@[simp] theorem openMessage_shape (source id step label format trigger : Nat) (s : State) :
    blockShape (openMessage source id step label format trigger s).ports.blocks = blockShape s.ports.blocks := by
  cases h : ensureFrames s with
  | none => simp [openMessage, h]
  | some t => simp [openMessage, h, ensureFrames_blocks s t h]

/-! ### Kernels stop and functions fail -/

@[simp] theorem failRestore_shape (detail origin shard : Nat) (s : State) :
    blockShape (failRestore detail origin shard s).ports.blocks = blockShape s.ports.blocks := by
  unfold failRestore
  split
  · rfl
  · simp only [settle_shape, updRestore_blocks]
    exact blockShape_foldl (fun s x => by split <;> simp) _ _

@[simp] theorem restoreTenantLost_shape (fid : Nat) (s : State) :
    blockShape (restoreTenantLost fid s).ports.blocks = blockShape s.ports.blocks := by
  simp [restoreTenantLost]

@[simp] theorem coreSafe_shape (cluster core : Nat) (s : State) :
    blockShape (coreSafe cluster core s).ports.blocks = blockShape s.ports.blocks := by
  unfold coreSafe
  dsimp only
  split
  · rfl
  · cases logicalCore s cluster core <;> simp

@[simp] theorem spareFirst_shape (clusters : List Nat) (s : State) :
    blockShape (spareFirst clusters s).ports.blocks = blockShape s.ports.blocks := by
  simp [spareFirst]

@[simp] theorem killKernel_shape (ki : Nat) (s : State) : blockShape (killKernel ki s).ports.blocks = blockShape s.ports.blocks := by
  simp [killKernel]

@[simp] theorem resumeOpens_shape (s : State) : blockShape (resumeOpens s).ports.blocks = blockShape s.ports.blocks := by
  unfold resumeOpens
  exact blockShape_foldl (fun s o => by split <;> simp) _ _

@[simp] theorem resumeIntake_shape (s : State) : blockShape (resumeIntake s).ports.blocks = blockShape s.ports.blocks := by
  simp [resumeIntake]

@[simp] theorem failKernels_shape (fid : Nat) (s : State) : blockShape (failKernels fid s).ports.blocks = blockShape s.ports.blocks := by
  simp [failKernels]

@[simp] theorem failFunction_shape (reset : Bool) (cause fid : Nat) (s : State) :
    blockShape (failFunction reset cause fid s).ports.blocks = blockShape s.ports.blocks := by
  unfold failFunction
  split
  · rfl
  · simp

@[simp] theorem disableVfs_shape (reset : Bool) (cause pf : Nat) (s : State) :
    blockShape (disableVfs reset cause pf s).ports.blocks = blockShape s.ports.blocks := by
  simp [disableVfs]

end Sys2Proof.Machine
end

section
/-! Links train and reset (R377, R381, R382, R387, R646): how wide a link comes up, what stays of one that goes down, and that a host reset brings
no link up. -/

namespace Sys2Proof.Machine

open Sys2Proof

variable {s t : State} {n k ep : Nat}

/-! ### Links of a block -/

theorem links_unnumbered_width (b : PBlock) (k : Nat) : (((unnumbered b).links[k]?).getD {}).width = ((b.links[k]?).getD {}).width := by
  simp only [unnumbered, List.getElem?_map]
  cases b.links[k]? <;> rfl

theorem linkOf_width_of_shape (h : blockShape t.ports.blocks = blockShape s.ports.blocks) (ep : Nat) : (linkOf t ep).width = (linkOf s ep).width := by
  have hb : unnumbered (pbOf t (ep / 4)) = unnumbered (pbOf s (ep / 4)) := congrFun h (ep / 4)
  rw [linkOf, linkOf, ← links_unnumbered_width, hb, links_unnumbered_width]

theorem linkOf_congr (h : t.ports.blocks = s.ports.blocks) (ep : Nat) : linkOf t ep = linkOf s ep := by
  simp only [linkOf, pbOf, h]

theorem linkOf_setLink_same (l : PLink) (h : ep % 4 < (pbOf s (ep / 4)).links.length) : linkOf (setLink ep l s) ep = l := by
  simp [linkOf, setLink, pbOf_setPb_same, h]

theorem linkOf_setLink_of_ne {e : Nat} (h : e ≠ ep) (l : PLink) (s : State) : linkOf (setLink ep l s) e = linkOf s e := by
  by_cases hb : e / 4 = ep / 4
  · have hk : ep % 4 ≠ e % 4 := by omega
    simp [linkOf, setLink, hb, pbOf_setPb_same, hk]
  · simp [linkOf, setLink, pbOf_setPb_of_ne hb]

theorem pbOf_congr (h : t.ports.blocks = s.ports.blocks) (n : Nat) : pbOf t n = pbOf s n := by simp only [pbOf, h]

theorem length_links_setLink (l : PLink) (s : State) : (pbOf (setLink ep l s) (ep / 4)).links.length = (pbOf s (ep / 4)).links.length := by
  simp [setLink, pbOf_setPb_same]

/-- A link that a block lacks reads as one that is down. -/
theorem setLink_width (l : PLink) (hl : l.width = 0) (s : State) (ep : Nat) : (linkOf (setLink ep l s) ep).width = 0 := by
  by_cases h : ep % 4 < (pbOf s (ep / 4)).links.length
  · rw [linkOf_setLink_same l h, hl]
  · simp [linkOf, setLink, pbOf_setPb_same, h]

theorem bifurLanes_length_le (b : Nat) : (bifurLanes b).length ≤ 4 := by
  unfold bifurLanes
  split <;> simp

/-! ### Resets keep links down -/

theorem endpointReset_width (e ep : Nat) (s : State) : (linkOf (endpointReset e s) ep).width = (linkOf s ep).width :=
  linkOf_width_of_shape (endpointReset_shape e s) ep

theorem endpointReset_link (h : ep % 4 < (pbOf s (ep / 4)).links.length) :
    linkOf (endpointReset ep s) ep = { linkOf s ep with gen := nextGen (linkOf s ep).gen } :=
  linkOf_setLink_same _ h

theorem resetAccelLink_down (h : (linkOf s ep).width = 0) : (linkOf (resetAccelLink n k s) ep).width = 0 := by
  unfold resetAccelLink
  split
  · rw [endpointReset_width, linkOf_congr (noRetry_blocks ..)]
    by_cases he : ep = 4 * n + k
    · subst he
      exact setLink_width _ rfl _ _
    · rw [linkOf_setLink_of_ne he, h]
  · exact h

theorem foldl_link_down {α : Type} {f : State → α → State} (hf : ∀ s x, (linkOf s ep).width = 0 → (linkOf (f s x) ep).width = 0)
    (l : List α) (h : (linkOf s ep).width = 0) : (linkOf (l.foldl f s) ep).width = 0 := by
  induction l generalizing s with
  | nil => exact h
  | cons x xs ih => exact ih (hf s x h)

theorem hostReset_down (hp : Nat) (h : (linkOf s ep).width = 0) : (linkOf (hostReset hp s) ep).width = 0 := by
  unfold hostReset
  refine foldl_link_down (fun s x hs => ?_) _ ?_
  · dsimp only
    split
    · exact resetAccelLink_down hs
    · exact hs
  · rw [linkOf_width_of_shape _ ep, h]
    simp

/-! ### A link trains -/

/-- A width with which a link may come up: one of a link's, neither above its lanes nor under the bound of POLICY_SET. -/
def linkFits (s : State) (n k width : Nat) : Prop :=
  (width ∈ [1, 2, 4, 8, 16] ∧ width ≤ (bifurLanes (pbOf s n).bifur).getD k 0 ∧ lookD s.tel.minWidth n 1 ≤ width) ∧ (pbOf s n).role ≠ 0

theorem trainLink_guard (s : State) (n k w : Nat) :
    (!(decide (w ∈ [1, 2, 4, 8, 16] ∧ w ≤ (bifurLanes (pbOf s n).bifur).getD k 0 ∧ lookD s.tel.minWidth n 1 ≤ w) && (pbOf s n).role != 0)) = true ↔
      ¬ linkFits s n k w := by
  rw [Bool.not_eq_true', ← Bool.not_eq_true, Bool.and_eq_true, decide_eq_true_iff, bne_iff_ne]
  rfl

theorem trainLink_down {x : PLink} (h : ¬ linkFits s n k x.width) : (linkOf (trainLink n k x s) (4 * n + k)).width = 0 := by
  have hd : ∀ l : PLink, l.width = 0 → (linkOf (noRetry (4 * n + k) (setLink (4 * n + k) l s)) (4 * n + k)).width = 0 := fun l hl => by
    rw [linkOf_congr (noRetry_blocks ..), setLink_width l hl]
  unfold trainLink
  dsimp only
  rw [if_pos ((trainLink_guard s n k x.width).mpr h)]
  split
  · rw [endpointReset_width, hd _ rfl]
  · exact hd _ rfl

/-- The link as it comes up. -/
def trained (s : State) (n k : Nat) (x : PLink) : PLink :=
  { x with speed := clampN 1 (pbOf s n).maxSpeed x.speed, downtrained := decide (x.width < (bifurLanes (pbOf s n).bifur).getD k 0), seen := true,
           gen := (((pbOf s n).links[k]?).getD {}).gen }

theorem trainLink_blocks {x : PLink} (h : linkFits s n k x.width) :
    (trainLink n k x s).ports.blocks = (setLink (4 * n + k) (trained s n k x) s).ports.blocks := by
  unfold trainLink
  dsimp only
  rw [if_neg (mt (trainLink_guard s n k x.width).mp (not_not.mpr h))]
  simp [trained]

theorem trainLink_up {x : PLink} (hk : k < 4) (hl : k < (pbOf s n).links.length) (h : linkFits s n k x.width) :
    linkOf (trainLink n k x s) (4 * n + k) = trained s n k x := by
  have hn : (4 * n + k) / 4 = n := by omega
  have hm : (4 * n + k) % 4 = k := by omega
  rw [linkOf_congr (trainLink_blocks h), linkOf_setLink_same _ (by rwa [hn, hm])]

/-! ### LINK_TRAINING and resets of accelerator links -/

section
variable {width speed pol : Nat} {flit rev : Bool} (hn : n ≤ 19) (hk : k < (bifurLanes (pbOf s n).bifur).length)
include hn hk

/-- The link that LINK_TRAINING reports, trained, or taken down with its host port. -/
theorem linkTraining_cases : ∃ t, exec (.linkTraining n k width speed flit rev pol) s = .next t ∧
    ∃ x : PLink, x.width = width ∧ x.speed = speed ∧
      (t = trainLink n k x s ∨ (linkOf (trainLink n k x s) (4 * n + k)).width = 0 ∧ ∃ hp, t = hostReset hp (trainLink n k x s)) := by
  refine ⟨_, rfl, { width := width, speed := speed, flit := flit, reversed := rev, polarity := pol }, rfl, rfl, ?_⟩
  rw [if_neg (by omega)]
  split
  · next hp _ =>
    split
    · next h => exact .inr ⟨h.2, hp, rfl⟩
    · exact .inl rfl
  · exact .inl rfl

theorem linkTraining_up (hl : k < (pbOf s n).links.length) (h : linkFits s n k width) :
    ∃ t, exec (.linkTraining n k width speed flit rev pol) s = .next t ∧
      (linkOf t (4 * n + k)).width = width ∧ (linkOf t (4 * n + k)).speed = max 1 (min (pbOf s n).maxSpeed speed) ∧
      (linkOf t (4 * n + k)).downtrained = decide (width < (bifurLanes (pbOf s n).bifur).getD k 0) ∧
      (linkOf t (4 * n + k)).gen = (linkOf s (4 * n + k)).gen := by
  have hk4 : k < 4 := hk.trans_le (bifurLanes_length_le _)
  obtain ⟨t, he, x, rfl, rfl, ht⟩ := linkTraining_cases (width := width) (speed := speed) (flit := flit) (rev := rev) (pol := pol) hn hk
  have hup := trainLink_up hk4 hl h
  refine ⟨t, he, ?_⟩
  rcases ht with rfl | ⟨h0, -⟩
  · rw [hup, linkOf, show (4 * n + k) / 4 = n by omega, show (4 * n + k) % 4 = k by omega]
    exact ⟨rfl, rfl, rfl, rfl⟩
  · rw [hup] at h0
    have h0 : x.width = 0 := h0
    simp [linkFits, h0] at h

theorem linkTraining_down (h : ¬ linkFits s n k width) :
    ∃ t, exec (.linkTraining n k width speed flit rev pol) s = .next t ∧ (linkOf t (4 * n + k)).width = 0 := by
  obtain ⟨t, he, x, rfl, rfl, ht⟩ := linkTraining_cases (width := width) (speed := speed) (flit := flit) (rev := rev) (pol := pol) hn hk
  refine ⟨t, he, ?_⟩
  rcases ht with rfl | ⟨h0, hp, ht⟩
  · exact trainLink_down h
  · rw [ht]
    exact hostReset_down hp h0

omit hn in
theorem resetAccelLink_reset (hl : k < (pbOf s n).links.length) (hr : (pbOf s n).role = 2) :
    (linkOf (resetAccelLink n k s) (4 * n + k)).gen = nextGen (linkOf s (4 * n + k)).gen ∧
    (linkOf (resetAccelLink n k s) (4 * n + k)).width = 0 ∧ has (resetAccelLink n k s).icp.sessions (.accel (4 * n + k)) = false := by
  have hk4 : k < 4 := hk.trans_le (bifurLanes_length_le _)
  have hd : (4 * n + k) / 4 = n := by omega
  have hm : (4 * n + k) % 4 = k := by omega
  unfold resetAccelLink
  rw [if_pos ⟨hr, hk⟩]
  set l : PLink := { gen := (linkOf s (4 * n + k)).gen, seen := (linkOf s (4 * n + k)).seen }
  set u := noRetry (4 * n + k) (setLink (4 * n + k) l s)
  have hlu : linkOf u (4 * n + k) = l := (linkOf_congr (noRetry_blocks ..) _).trans (linkOf_setLink_same l (by rwa [hd, hm]))
  refine ⟨?_, ?_, has_del_same _ _⟩
  · rw [endpointReset_link, hlu]
    rw [pbOf_congr (noRetry_blocks ..), length_links_setLink, hd, hm]
    exact hl
  · rw [endpointReset_width, hlu]

end

theorem acceleratorLinkReset_eq (hn : n ≤ 19) (k : Nat) (s : State) : exec (.acceleratorLinkReset n k) s = .next (resetAccelLink n k s) :=
  congrArg Host.Outcome.next (if_neg (by omega))

theorem secondaryBusReset_eq (hn : n ≤ 19) (k : Nat) (s : State) : exec (.secondaryBusReset n k) s = .next (resetAccelLink n k s) :=
  congrArg Host.Outcome.next (if_neg (by omega))

theorem resetAccelLink_other (hr : (pbOf s n).role ≠ 2) : resetAccelLink n k s = s := if_neg (fun h => hr h.1)

end Sys2Proof.Machine
end

section
/-! Host accesses to the aperture, the queue region and BAR0 (R12, R29, R396, R397, R399 to R401, R652, R728): what each does by the state of the
part, of the function and of the memory behind it. -/

namespace Sys2Proof.Machine

open Sys2Proof

variable {s : State} {hp off len : Nat}

/-! ### Requests that no one serves -/

/-- A memory request meets an isolated block. -/
theorem requestAborted_iff (s : State) (hp dpa n : Nat) : requestAborted s hp dpa n = true ↔
    (∃ b, hostPortBlock s hp = some b ∧ isolated s (blkPb b) = true) ∨ ∃ a ∈ linesOf dpa n, isolated s (lineBlock s a) = true := by
  unfold requestAborted
  cases hostPortBlock s hp <;> simp

theorem requestAborted_false (hb : ∀ b, hostPortBlock s hp = some b → isolated s (blkPb b) = false)
    (hd : ∀ d : Nat, isolated s (lineBlock s d) = false) (dpa n : Nat) : requestAborted s hp dpa n = false := by
  rw [← Bool.not_eq_true, requestAborted_iff]
  rintro (⟨b, hh, hi⟩ | ⟨a, -, hi⟩)
  · simp [hb b hh] at hi
  · simp [hd a] at hi

/-- An Unsupported Request, unless the link is in reset. -/
theorem unserved_read (hp : Nat) (s : State) : unserved hp true s = if s.boot.inReset then s else emit (.unsupported hp) s := by
  cases h : s.boot.inReset <;> simp [unserved, h]

/-! ### The aperture table -/

theorem aptBase_lt (v : Nat) : aptBase v < 2 ^ 52 := by
  have := bits_lt v 24 28
  unfold aptBase
  omega

/-- The word that an entry keeps: VALID and WRITE above the base of the page. -/
def aptKept (valid write : Bool) (base : Nat) : Nat := bit valid * 2 ^ 63 + bit write * 2 ^ 62 + base

section
variable {a w : Bool} {v : Nat}

theorem aptKept_lt : aptKept a w (aptBase v) < 2 ^ 64 := by
  have := aptBase_lt v
  cases a <;> cases w <;> simp [aptKept, bit] <;> omega

theorem aptKept_valid : (aptKept a w (aptBase v)).testBit 63 = a := by
  have := aptBase_lt v
  rw [Nat.testBit_eq_decide_div_mod_eq]
  cases a <;> cases w <;> simp [aptKept, bit] <;> omega

theorem aptKept_write : (aptKept a w (aptBase v)).testBit 62 = w := by
  have := aptBase_lt v
  rw [Nat.testBit_eq_decide_div_mod_eq]
  cases a <;> cases w <;> simp [aptKept, bit] <;> omega

theorem aptBase_aptKept : aptBase (aptKept a w (aptBase v)) = aptBase v := by
  have := bits_lt v 24 28
  cases a <;> cases w <;> simp only [aptKept, bit, aptBase, bits] at * <;> omega

end

section
variable (hp n v : Nat) (s : State)

theorem setApt_apt : (setApt hp n v s).ports.apt = put s.ports.apt (hp * 4096 + n)
    (BitVec.ofNat 64 (aptKept (v.testBit 63 && custodyRange s (aptBase v) 0x1000000) (v.testBit 62) (aptBase v))) := by
  unfold setApt
  dsimp only
  split <;> rfl

theorem aptOf_setApt_same : aptOf (setApt hp n v s) hp n =
    aptKept (v.testBit 63 && custodyRange s (aptBase v) 0x1000000) (v.testBit 62) (aptBase v) := by
  rw [aptOf, setApt_apt, lookD_put_same, BitVec.toNat_ofNat, Nat.mod_eq_of_lt aptKept_lt]

theorem aptOf_setApt_of_ne {m : Nat} (h : m ≠ n) : aptOf (setApt hp n v s) hp m = aptOf s hp m := by
  rw [aptOf, setApt_apt, lookD_put_of_ne _ _ _ (by omega), aptOf]

theorem setApt_mem : (setApt hp n v s).mem = s.mem := by
  unfold setApt
  dsimp only
  split <;> rfl

theorem setApt_counted (hn : n ≤ 4095) (h : custodyRange s (aptBase v) 0x1000000 = false) :
    cell (setApt hp n v s) blkGlobal 0x170 = 0x8000 + 8 * n := by
  have hc : (setApt hp n v s).csr = (countUnmapped (0x8000 + 8 * n) s).csr := by
    unfold setApt
    dsimp only
    rw [h]
    rfl
  rw [cell_congr hc, cell_countUnmapped]
  omega

end

theorem aptWrite_served (hr : running s = true) (hd : (fnD s (pfId hp 0)).dstate = .d0) (hh : hp ≤ 1) {n : Nat} (hn : n ≤ 4095) (v : BitVec 64) :
    exec (.aptWrite hp n v) s = .next (setApt hp n v.toNat s) :=
  congrArg _ (if_neg (by simp [running_served hr, hd]; omega))

theorem aptWrite_unserved (hr : running s = false) (hf : footing s = false) (n : Nat) (v : BitVec 64) :
    exec (.aptWrite hp n v) s = .next s :=
  congrArg _ (if_pos (by simp [functionServed, hr, hf]))

/-! ### The aperture -/

theorem apertureAccess_asleep (hd : (fnD s (pfId hp 0)).dstate ≠ .d0) (w : Option Bytes) (faults : List LineFault) :
    exec (.apertureAccess hp off len w faults) s = .next s := congrArg _ (if_pos hd)

theorem apertureAccess_unserved (hd : (fnD s (pfId hp 0)).dstate = .d0) (hr : running s = false) (w : Option Bytes) (faults : List LineFault) :
    exec (.apertureAccess hp off len w faults) s = .next (unserved hp w.isNone s) :=
  congrArg _ ((if_neg (not_not.mpr hd)).trans (if_pos (by simp [hr])))

section
variable (hr : running s = true) (hz : s.tel.frozen = false) (hd : (fnD s (pfId hp 0)).dstate = .d0)
include hr hz hd

theorem apertureAccess_aborted (h : requestAborted s hp (aptBase (aptOf s hp (off / 0x1000000)) + off % 0x1000000)
      (if (aptOf s hp (off / 0x1000000)).testBit 63 then min len (0x1000000 - off % 0x1000000) else 0) = true)
    (w : Option Bytes) (faults : List LineFault) :
    exec (.apertureAccess hp off len w faults) s = .next (completerAbort hp w.isNone s) :=
  congrArg _ ((if_neg (not_not.mpr hd)).trans ((if_neg (by simp [hr])).trans ((if_neg (by simp [hz])).trans (if_pos h))))

variable (ha : ∀ dpa n, requestAborted s hp dpa n = false)
include ha

theorem apertureAccess_read (faults : List LineFault) : exec (.apertureAccess hp off len none faults) s = .next (
    if (aptOf s hp (off / 0x1000000)).testBit 63 then
      hostAccess { dpa := aptBase (aptOf s hp (off / 0x1000000)) + off % 0x1000000, len := min len (0x1000000 - off % 0x1000000), faults := faults } s
    else emit (.readData (List.replicate len 0) false) (countUnmapped off s)) :=
  congrArg _ ((if_neg (not_not.mpr hd)).trans ((if_neg (by simp [hr])).trans ((if_neg (by simp [hz])).trans (if_neg (by simp [ha])))))

theorem apertureAccess_write (bs : Bytes) (faults : List LineFault) : exec (.apertureAccess hp off len (some bs) faults) s = .next (
    if (aptOf s hp (off / 0x1000000)).testBit 63 && (aptOf s hp (off / 0x1000000)).testBit 62 && !courseLive s then
      hostAccess { dpa := aptBase (aptOf s hp (off / 0x1000000)) + off % 0x1000000, len := min len (0x1000000 - off % 0x1000000),
                   write := some (bs.take (min len (0x1000000 - off % 0x1000000))), faults := faults } s
    else countUnmapped off s) :=
  congrArg _ ((if_neg (not_not.mpr hd)).trans ((if_neg (by simp [hr])).trans ((if_neg (by simp [hz])).trans (if_neg (by simp [ha])))))

end

/-- An access to memory whose channel retrains waits. -/
theorem hostAccess_held {a : HeldAcc} (h : rangeHeld s a.dpa a.len = true) :
    hostAccess a s = s.setMem { s.mem with heldAcc := s.mem.heldAcc ++ [a] } :=
  if_pos h

theorem hostAccess_done {a : HeldAcc} (h : rangeHeld s a.dpa a.len = false) : hostAccess a s = serveAcc a (lineFaults a.faults s) :=
  if_neg (by simp [h])

/-! ### The queue region -/

theorem queueRegionAccess_unserved (hr : running s = false) (w : Option Bytes) :
    exec (.queueRegionAccess hp off len w) s = .next (unserved hp w.isNone s) := congrArg _ (if_pos (by simp [hr]))

section
variable (hr : running s = true) (hz : s.tel.frozen = false)
include hr hz

theorem queueRegionAccess_doorbells (h : off < 0x10000000) (w : Option Bytes) : exec (.queueRegionAccess hp off len w) s = .next (
    if w.isNone then emit (.readData (List.replicate len 0) false) s else s) :=
  congrArg _ ((if_neg (by simp [hr])).trans ((if_neg (by simp [hz])).trans (if_pos h)))

theorem queueRegionAccess_aborted (h : requestAborted s hp ((regionByte s hp off).getD 0)
      (if (regionByte s hp off).isSome then min len (4096 - off % 4096) else 0) = true) (w : Option Bytes) :
    exec (.queueRegionAccess hp (0x10000000 + off) len w) s = .next (completerAbort hp w.isNone s) := by
  refine congrArg _ ((if_neg (by simp [hr])).trans ((if_neg (by simp [hz])).trans ((if_neg (by omega)).trans (if_pos ?_))))
  rw [Nat.add_sub_cancel_left]
  exact h

variable (ha : ∀ dpa n, requestAborted s hp dpa n = false)
include ha

theorem queueRegionAccess_empty_read (h : regionByte s hp off = none) : exec (.queueRegionAccess hp (0x10000000 + off) len none) s =
    .next (emit (.readData (List.replicate len 0) false) (countUnmapped (0x10000000 + off) s)) := by
  refine congrArg _ ((if_neg (by simp [hr])).trans ((if_neg (by simp [hz])).trans ((if_neg (by omega)).trans ((if_neg (by simp [ha])).trans ?_))))
  simp only [Nat.add_sub_cancel_left, h]

theorem queueRegionAccess_empty_write (h : regionByte s hp off = none) (bs : Bytes) :
    exec (.queueRegionAccess hp (0x10000000 + off) len (some bs)) s = .next (countUnmapped (0x10000000 + off) s) := by
  refine congrArg _ ((if_neg (by simp [hr])).trans ((if_neg (by simp [hz])).trans ((if_neg (by omega)).trans ((if_neg (by simp [ha])).trans ?_))))
  simp only [Nat.add_sub_cancel_left, h]

theorem queueRegionAccess_ring {d : Nat} (h : regionByte s hp off = some d) (w : Option Bytes) :
    exec (.queueRegionAccess hp (0x10000000 + off) len w) s =
      .next (hostAccess { dpa := d, len := min len (4096 - off % 4096), write := w.map (·.take (min len (4096 - off % 4096))) } s) := by
  refine congrArg _ ((if_neg (by simp [hr])).trans ((if_neg (by simp [hz])).trans ((if_neg (by omega)).trans ((if_neg (by simp [ha])).trans ?_))))
  rw [Nat.add_sub_cancel_left, h]

end

end Sys2Proof.Machine
end

section
/-! Accesses to BAR0 (R29, R397, R399), and the theorem of the host accesses. -/

namespace Sys2Proof.Machine

open Sys2Proof

variable {s : State} {hp off : Nat}

/-! ### Windows of BAR0 -/

theorem take_leBytes_append (n v : Nat) : (leBytes n v ++ List.replicate n 0).take n = leBytes n v :=
  List.take_left' (leBytes_length n v)

section
variable (hh : hp ≤ 1) (hd : (fnD s (pfId hp 0)).dstate = .d0) (ho : off < 0x4000000)
include hh hd ho

theorem windowAccess_here : ¬ (1 < hp ∨ 15 < off / 0x400000 ∨ (fnD s (pfId hp 0)).dstate ≠ .d0) := by
  rw [not_or, not_or, not_not]
  exact ⟨by omega, by omega, hd⟩

theorem windowAccess_unserved (hr : running s = false) (hf : footing s = false) (width : Nat) (w : Option Nat) :
    exec (.windowAccess hp off width w) s = .next (unserved hp w.isNone s) :=
  congrArg _ ((if_neg (windowAccess_here hh hd ho)).trans (if_pos (by simp [hr, hf])))

section
variable (hr : running s = true)
include hr

/-- Past the function register area a window maps a register. -/
theorem windowAccess_window_read (hlo : 0x20000 ≤ off) (ha : off % 4 = 0) : exec (.windowAccess hp off 4 none) s = .next (
    let csr := winXlat s hp (off / 0x400000) % 64 * 0x400000 + off % 0x400000
    if winXlat s hp (off / 0x400000) < 2 ^ 31 then emit (.readData (leBytes 4 0) false) (countUnmapped csr s)
    else emit (.readData (leBytes 4 (csrRead s csr)) false) (csrReadCount csr s)) := by
  refine congrArg _ ((if_neg (windowAccess_here hh hd ho)).trans ((if_neg (by simp [hr])).trans ((if_neg (by omega)).trans ?_)))
  simp only [show off / 4 * 4 = off by omega, ha, Nat.mul_zero, pow_zero, Nat.div_one, take_leBytes_append]

theorem windowAccess_window_write (hlo : 0x20000 ≤ off) (ha : off % 4 = 0) (width v : Nat) :
    exec (.windowAccess hp off width (some v)) s = .next (
      let csr := winXlat s hp (off / 0x400000) % 64 * 0x400000 + off % 0x400000
      if winXlat s hp (off / 0x400000) < 2 ^ 31 then countUnmapped csr s
      else if width < 4 then s else csrPut (.host hp) csr (v % 2 ^ 32) s) := by
  refine congrArg _ ((if_neg (windowAccess_here hh hd ho)).trans ((if_neg (by simp [hr])).trans ((if_neg (by omega)).trans ?_)))
  rw [show off / 4 * 4 = off by omega]

/-- A write within the function register area. -/
theorem windowAccess_area_write (hlo : off < 0x20000) {width : Nat} (hw : 4 ≤ width) (v : Nat) :
    exec (.windowAccess hp off width (some v)) s = .next (
      if 8 ≤ width ∧ off % 8 = 0 ∧ 0x8000 ≤ off ∧ off < 0x10000 then setApt hp ((off - 0x8000) / 8) (v % 2 ^ 64) s
      else areaWrite hp (off / 4 * 4) (v % 2 ^ 32) s) :=
  congrArg _ ((if_neg (windowAccess_here hh hd ho)).trans ((if_neg (by simp [hr])).trans ((if_pos ⟨by omega, hlo⟩).trans (if_neg (by omega)))))

end
end

/-! ### The page of the aperture table -/

section
variable {p : Nat} (hr : running s = true) (hh : hp ≤ 1) (hp' : p ≤ 4095) (hd : (fnD s (pfId hp 0)).dstate = .d0)
include hr hh hp' hd

theorem windowAccess_apt_read : exec (.windowAccess hp (0x8000 + 8 * p) 8 none) s = .next (emit (.readData (leBytes 8 (aptOf s hp p)) false) s) := by
  refine congrArg _ ((if_neg (windowAccess_here hh hd (by omega))).trans ((if_neg (by simp [hr])).trans ((if_pos (by omega)).trans ((if_pos (by omega)).trans ?_))))
  rw [show (0x8000 + 8 * p - 0x8000) / 8 = p by omega, take_leBytes_append]

theorem windowAccess_apt_whole (v : Nat) : exec (.windowAccess hp (0x8000 + 8 * p) 8 (some v)) s = .next (setApt hp p (v % 2 ^ 64) s) := by
  rw [windowAccess_area_write hh hd (by omega) hr (by omega) (by omega), if_pos (by omega), show (0x8000 + 8 * p - 0x8000) / 8 = p by omega]

/-- A write by halves keeps the other half. -/
theorem windowAccess_apt_half {o : Nat} (ho : o = 0 ∨ o = 4) (v : Nat) : exec (.windowAccess hp (0x8000 + 8 * p + o) 4 (some v)) s =
    .next (setApt hp p (if o = 0 then aptOf s hp p / 2 ^ 32 * 2 ^ 32 + v % 2 ^ 32 else v % 2 ^ 32 * 2 ^ 32 + aptOf s hp p % 2 ^ 32) s) := by
  rw [windowAccess_area_write hh hd (by omega) hr (by omega) (by omega), if_neg (by omega), show (0x8000 + 8 * p + o) / 4 * 4 = 0x8000 + 8 * p + o by omega,
    areaWrite, if_neg (by omega), if_neg (by omega), if_pos (by omega)]
  simp only [show (0x8000 + 8 * p + o - 0x8000) / 8 = p by omega, show (0x8000 + 8 * p + o) % 8 = o by omega, Nat.mod_mod]

end

end Sys2Proof.Machine
end

section
/-! What the accesses of the hosts reach (R12, R29, R377 to R401, R646, R652, R728). -/

namespace Sys2Proof.Machine

open Sys2Proof

theorem not_linkFits {s : State} {n k width : Nat} : ¬ linkFits s n k width ↔
    (width ∉ [1, 2, 4, 8, 16] ∨ (bifurLanes (pbOf s n).bifur).getD k 0 < width ∨ width < lookD s.tel.minWidth n 1 ∨ (pbOf s n).role = 0) := by
  simp only [linkFits, not_and_or, not_le, ne_eq, not_not, or_assoc]

/-- Settles O50: links train and reset by the rules of `linkTraining_up`, `linkTraining_down` and `resetAccelLink_reset`, where a host reset raises
no link; the accesses are served in the order of their checks. -/
theorem hostAccessesReachTheirMemory : Obligations.HostAccessesReachTheirMemory := by
  unfold Obligations.HostAccessesReachTheirMemory
  refine ⟨?links, ?unserved, ?aptWrite, ?asleep, ?aborted, ?doorbells, ?served, ?windows, ?table⟩
  case links =>
    intro n k width speed pol flit rev s b full hn hk hl
    refine ⟨fun hr hin hle hmin => linkTraining_up hn hk hl ⟨⟨hin, hle, hmin⟩, hr⟩, fun h => linkTraining_down hn hk (not_linkFits.mpr h), fun hr => ?_,
      fun hr => ?_⟩
    · exact ⟨_, acceleratorLinkReset_eq hn k s, secondaryBusReset_eq hn k s, resetAccelLink_reset hk hl hr⟩
    · rw [acceleratorLinkReset_eq hn, secondaryBusReset_eq hn, resetAccelLink_other hr]
      exact ⟨rfl, rfl⟩
  case unserved =>
    intro hp off len s hr hf hd hh denied
    have hden : denied = .next (unserved hp true s) := congrArg _ (unserved_read hp s).symm
    rw [hden]
    exact ⟨fun n v => aptWrite_unserved hr hf n v,
      fun bs faults => ⟨apertureAccess_unserved hd hr none faults, apertureAccess_unserved hd hr (some bs) faults⟩,
      fun bs => ⟨queueRegionAccess_unserved hr none, queueRegionAccess_unserved hr (some bs)⟩,
      fun ho v w => ⟨windowAccess_unserved hh hd ho hr hf w none, windowAccess_unserved hh hd ho hr hf w (some v)⟩⟩
  case aptWrite =>
    intro hp n v s hr hh hn hd
    refine ⟨_, aptWrite_served hr hd hh hn v, setApt_mem .., ?_, ?_, ?_, fun m hm => aptOf_setApt_of_ne _ _ _ _ hm, setApt_counted hp n _ s hn⟩
    · rw [aptOf_setApt_same, aptKept_valid, BitVec.testBit_toNat]
    · rw [aptOf_setApt_same, aptKept_write, BitVec.testBit_toNat]
    · rw [aptOf_setApt_same, aptBase_aptKept]
  case asleep => exact fun hp off len s hd w faults => apertureAccess_asleep hd w faults
  case aborted =>
    intro hp off len s hr hz hd e dpa n port away
    refine ⟨fun bs faults h => ?_, fun bs h => ?_⟩
    · have ha : requestAborted s hp dpa (if e.testBit 63 then n else 0) = true := by
        rw [requestAborted_iff]
        rcases h with h | ⟨hv, h⟩
        · exact .inl h
        · rwa [if_pos hv]
      exact ⟨apertureAccess_aborted hr hz hd ha none faults, apertureAccess_aborted hr hz hd ha (some bs) faults⟩
    · have ha : requestAborted s hp ((regionByte s hp off).getD 0)
          (if (regionByte s hp off).isSome then min len (4096 - off % 4096) else 0) = true := by
        rw [requestAborted_iff]
        rcases h with h | ⟨d, hb, h⟩
        · exact .inl h
        · simpa only [hb, Option.getD_some, Option.isSome_some, if_true] using h
      exact ⟨queueRegionAccess_aborted hr hz ha none, queueRegionAccess_aborted hr hz ha (some bs)⟩
  case doorbells =>
    exact fun hp bar2 len bs s hr hz h => ⟨queueRegionAccess_doorbells hr hz h none, queueRegionAccess_doorbells hr hz h (some bs)⟩
  case served =>
    intro hp off len s hr hz hd hb hl e dpa n waits
    have ha := requestAborted_false hb hl
    have hread := apertureAccess_read (off := off) (len := len) hr hz hd ha
    have hwrite := apertureAccess_write (off := off) (len := len) hr hz hd ha
    refine ⟨fun hv hw faults => ?_, fun hv hw faults => ?_, fun hv faults => ?_, fun bs faults h => ?_, fun bs hv hwr hc hw => ?_,
      fun bs faults hv hwr hc hw => ?_, fun bs h => ?_, fun bs d h => ?_⟩
    · rw [hread, if_pos hv, hostAccess_done hw]
      rfl
    · rw [hread, if_pos hv, hostAccess_held hw]
    · rw [hread, if_neg (by simp [e, hv])]
    · rw [hwrite, if_neg (by simpa [e, and_assoc] using h)]
    · rw [hwrite, if_pos (by simp [e, hv, hwr, hc]), hostAccess_done hw]
      rfl
    · rw [hwrite, if_pos (by simp [e, hv, hwr, hc]), hostAccess_held hw]
    · exact ⟨queueRegionAccess_empty_read hr hz ha h, queueRegionAccess_empty_write hr hz ha h bs⟩
    · have hring := queueRegionAccess_ring (len := len) hr hz ha h
      refine ⟨fun hw => ⟨?_, ?_⟩, fun hw => ?_⟩
      · rw [hring, hostAccess_done hw]
        rfl
      · rw [hring, hostAccess_done hw]
        rfl
      · rw [hring, hostAccess_held hw]
        rfl
  case windows =>
    intro hp off s hr hh ho hlo h4 hd x csr
    have hread := windowAccess_window_read hh hd ho hr hlo h4
    have hwrite := windowAccess_window_write hh hd ho hr hlo h4
    refine ⟨fun hx => ⟨?_, fun v => ?_⟩, fun hx => ?_⟩
    · rw [hread, if_pos hx]
      rfl
    · rw [hwrite, if_pos hx]
    have hx : ¬ x < 2 ^ 31 := by omega
    refine ⟨?_, fun v => ?_, fun v w hw => ?_⟩
    · rw [hread, if_neg hx]
    · rw [hwrite, if_neg hx, if_neg (lt_irrefl 4)]
    · rw [hwrite, if_neg hx, if_pos hw]
  case table =>
    exact fun hp p v s hr hh hp' hd => ⟨windowAccess_apt_read hr hh hp' hd, windowAccess_apt_whole hr hh hp' hd v,
      windowAccess_apt_half hr hh hp' hd (.inl rfl) v, windowAccess_apt_half hr hh hp' hd (.inr rfl) v⟩

end Sys2Proof.Machine
end

section
/-! Sessions of ICP (R39, R63 to R71, R79, R80, R83, R98): what HELLO, GOODBYE, FLUSH, LEASE_RENEW and GET_IDENTITY answer once they start, and the end of
an idle management session. -/

namespace Sys2Proof.Machine

open Sys2Proof

variable {via : Via} {pkt : IcpPkt} {s s0 : State} {c : Ctx}

/-! ### A command that starts -/

/-- A command that starts is the first thing that goes on (R54, R58, R72). -/
theorem onward_startPkt {op : Nat} (hs : Starts op via pkt s c s0) : Onward (.next (icpRow op via pkt s)) (startPkt via (taken op via pkt s) s0) := by
  obtain ⟨htake, -⟩ := hs
  cases hr : ringKey via with
  | some k =>
    simp only [hr] at htake
    obtain ⟨hvia, hw, hb, hempty, hfetch, hs0⟩ := htake
    have hother : ∀ q, q ≠ k → fetchable (ringPut k { pkt with opcode := op } s) q = none := fun q hq =>
      fetchable_of_unread_nil (by rw [ringOf_ringPut_of_ne (Ne.symm hq), hempty])
    have htk : taken op via pkt s = stampHead (ringPut k { pkt with opcode := op } s) k { pkt with opcode := op } := by simp [taken, hr]
    have hwake := wakeOnce_of_fetchable (by simpa using hw) (by simpa using hb) hfetch hother
    rw [hvia, ← htk, acceptPkt_of_free (keptReply_ringKey hr _ _) (mustHold_of_idle (by simpa using hw) (by simpa using hb) _ _), ← hs0] at hwake
    obtain ⟨n, hn⟩ := icpWake_of_wakeOnce hwake
    exact ⟨n, by simp only [icpRow, icpArrive, hr, hn]⟩
  | none =>
    simp only [hr] at htake
    obtain ⟨hserved, hpaused, hkept, hhold, hs0⟩ := htake
    have htk : taken op via pkt s = { pkt with opcode := op } := by simp [taken, hr]
    have harrive : icpArrive via { pkt with opcode := op } s = startPkt via (taken op via pkt s) s0 := by
      simp only [icpArrive, hr, hserved, hpaused, Bool.not_true, Bool.false_eq_true, if_false]
      rw [acceptPkt_of_free (pkt := { pkt with opcode := op }) hkept hhold, ← hs0, ← htk]
    rw [icpRow, harrive]
    exact ⟨_, rfl⟩

/-- A command that passes every check and whose reply is still to come leaves the part as its handler leaves it. -/
theorem startPkt_of_later {op d : Nat} {x : State} {data : Bytes} (hop : pkt.opcode = op) (hne : op ≠ 0x0801) (hc : icpCheck op via pkt s = none)
    (hfw : pkt.fwFault = false) (hfl : flagBit pkt.flags 1 = false)
    (hx : c = { via := via, pkt := pkt, iss := issuerOf s via, sess := sessionOf s via }) (hh : handlerOf op c s = .later x d data) :
    startPkt via pkt s = x := by
  subst hop hx
  rw [startPkt, releaseSpare_of_ne hne]
  unfold icpStart
  simp only [hc]
  rw [if_neg (by simp [hfw]), hh]
  exact if_neg (by simp [hfl])

theorem onward_of_handler_later {op d : Nat} {x : State} {data : Bytes} (hs : Starts op via pkt s c s0) (hne : op ≠ 0x0801)
    (hh : handlerOf op c s0 = .later x d data) : Onward (.next (icpRow op via pkt s)) x := by
  have hon := onward_startPkt hs
  obtain ⟨-, hcheck, hfw, hfl, hc⟩ := hs
  rwa [startPkt_of_later (taken_opcode ..) hne hcheck ((taken_fwFault ..).trans hfw) (by rwa [taken_flags]) hc hh] at hon

theorem Starts.via_eq {op : Nat} (hs : Starts op via pkt s c s0) : c.via = via := by
  obtain ⟨-, -, -, -, hc⟩ := hs
  rw [hc]

theorem Starts.opcode_eq {op : Nat} (hs : Starts op via pkt s c s0) : c.pkt.opcode = op := by
  obtain ⟨-, -, -, -, hc⟩ := hs
  rw [hc]
  exact taken_opcode ..

theorem Starts.iss_eq {op : Nat} (hs : Starts op via pkt s c s0) : c.iss = issuerOf s0 via := by
  obtain ⟨-, -, -, -, hc⟩ := hs
  rw [hc]

/-! ### HELLO (R63 to R71) -/

@[simp] theorem updFn_icp (fid : Nat) (g : Fn → Fn) (s : State) : (updFn fid g s).icp = s.icp := by
  unfold updFn
  split <;> rfl

@[simp] theorem updFn_boot (fid : Nat) (g : Fn → Fn) (s : State) : (updFn fid g s).boot = s.boot := by
  unfold updFn
  split <;> rfl

/-- The versions of a HELLO reply are read off the start-up state alone. -/
theorem helloReply_congr {t : State} (h : t.boot = s.boot) (major minor sid caps lease gen : Nat) :
    helloReply t major minor sid caps lease gen = helloReply s major minor sid caps lease gen := by
  have hf : footing t = footing s := by rw [footing, footing, h]
  simp only [helloReply, partMajor, partMinor, hf, h]

/-- The session that HELLO opens. -/
def openedSession (c : Ctx) (m : Nat) (s : State) : Session :=
  { sid := 1 + Config.freeNat s.draw % (2 ^ 32 - 1), major := m, minor := sessionMinor s (listed c) m,
    caps := if m ≠ 2 ∧ !footing s then (c.p 0x28 8 &&& s.boot.running.icpCaps) % 64 else 0,
    slot := (mgmtSlot (drawn s)).getD 0, lastUse := nowSt s }

theorem openedSession_sid (c : Ctx) (m : Nat) (s : State) : 1 ≤ (openedSession c m s).sid ∧ (openedSession c m s).sid < 2 ^ 32 := by
  have := Nat.mod_lt (Config.freeNat s.draw) (by norm_num : 0 < 2 ^ 32 - 1)
  simp only [openedSession]
  omega

theorem openedSession_caps_two (c : Ctx) (s : State) : (openedSession c 2 s).caps = 0 := rfl

theorem openedSession_caps_lt (c : Ctx) (m : Nat) (s : State) : (openedSession c m s).caps < 64 := by
  simp only [openedSession]
  split
  · exact Nat.mod_lt _ (by norm_num)
  · norm_num

theorem openSession_eq (c : Ctx) (m : Nat) (s : State) : ∃ lease gen clamped t, openSession c m s =
    Res.ok t clamped (helloReply s m (openedSession c m s).minor (openedSession c m s).sid (openedSession c m s).caps lease gen) ∧
    sessionOf t c.via = some (openedSession c m s) := by
  refine ⟨_, _, _, _, congrArg (Res.ok _ _) (helloReply_congr ?_ ..), ?_⟩
  · split
    · rw [updFn_boot]
      rfl
    · rfl
  · have hput : sessionOf ((drawn s).setIcp { (drawn s).icp with sessions := put (drawn s).icp.sessions c.via (openedSession c m s) }) c.via =
        some (openedSession c m s) := look_put_same ..
    split
    · rw [sessionOf, updFn_icp]
      exact hput
    · exact hput

/-- The part as HELLO finds it: the old session of the endpoint has ended (R70). -/
def sessionEnded (via : Via) (s : State) : State := if (sessionOf s via).isSome then endSession via s else s

theorem hHello_opens {m : Nat} (hw : waitsOf s c.via = []) (hm : commonMajor s (listed c) = some m) (hf : sessionsFull (sessionEnded c.via s) c.via = false) :
    hHello c s = openSession c m (sessionEnded c.via s) := by
  simp only [sessionEnded] at hf
  simp only [hHello, hw, List.isEmpty_nil, if_true, helloNow, hm, hf, Bool.false_eq_true, if_false, sessionEnded]

theorem hHello_refuses (hw : waitsOf s c.via = []) (hm : commonMajor s (listed c) = none) :
    hHello c s = .reply s stVersion dtNone (helloReply s 0 0 0 0 0 0) := by
  simp only [hHello, hw, List.isEmpty_nil, if_true, helloNow, hm]

theorem hello_opens {m : Nat} (hs : Starts 0x0000 via pkt s c s0) (hw : waitsOf s0 via = []) (hm : commonMajor s0 (listed c) = some m)
    (hf : sessionsFull (sessionEnded via s0) via = false) : ∃ lease gen clamped s1,
    Replied (exec (.hello via pkt) s) c stOk (okDetail clamped) (helloReply (sessionEnded via s0) m (openedSession c m (sessionEnded via s0)).minor
      (openedSession c m (sessionEnded via s0)).sid (openedSession c m (sessionEnded via s0)).caps lease gen) s1 ∧
    sessionOf s1 via = some (openedSession c m (sessionEnded via s0)) := by
  obtain ⟨lease, gen, clamped, s1, ho, hx⟩ := openSession_eq c m (sessionEnded via s0)
  have hv := hs.via_eq
  rw [hv] at hx
  refine ⟨lease, gen, clamped, s1, replied_of_handler hs (by decide) ?_, hx⟩
  refine (hHello_opens (by rwa [hv]) hm (by rwa [hv])).trans ?_
  rw [hv, ho, Res.ok, okDetail]

theorem hello_refused (hs : Starts 0x0000 via pkt s c s0) (hw : waitsOf s0 via = []) (hm : commonMajor s0 (listed c) = none) :
    Replied (exec (.hello via pkt) s) c stVersion dtNone (helloReply s0 0 0 0 0 0 0) s0 :=
  replied_of_handler hs (by decide) (hHello_refuses (by rwa [hs.via_eq]) hm)

/-! ### GOODBYE and FLUSH (R70, R83) -/

theorem goodbye_ends (hs : Starts 0x0001 via pkt s c s0) (hw : waitsOf s0 via = []) :
    Onward (exec (.goodbye via pkt) s) (dropStage (ownerFor via) (endSession via (sendReply 1 via c.pkt stOk dtNone [] s0))) := by
  refine onward_of_handler_later hs (by decide) (d := dtNone) (data := []) ?_
  change hGoodbye c s0 = _
  rw [hGoodbye, hs.via_eq, hw]
  rfl

theorem sessionOf_endSession {fn : Nat} (s : State) : sessionOf (endSession (.ring fn) s) (.ring fn) = none := by
  rw [endSession, sessionOf, updFn_icp]
  exact look_del_same ..

theorem sessionOf_endSession_accel {ep : Nat} (s : State) : sessionOf (endSession (.accel ep) s) (.accel ep) = none := look_del_same ..

theorem flush_idle (hs : Starts 0x0003 via pkt s c s0) (hw : waitsOf s0 via = []) :
    Replied (exec (.flush via pkt) s) c stOk dtNone (layout 8 [(0, 4, 0)]) s0 := by
  refine replied_of_handler hs (by decide) ?_
  change hFlush c s0 = _
  rw [hFlush, hs.via_eq, hw]
  rfl

theorem flush_waits (hs : Starts 0x0003 via pkt s c s0) (hw : waitsOf s0 via ≠ []) :
    Onward (exec (.flush via pkt) s) (addWait c .barrier 0 (waitsOf s0 via).length s0) := by
  refine onward_of_handler_later hs (by decide) (d := dtNone) (data := layout 8 [(0, 4, (waitsOf s0 via).length)]) ?_
  have hop : { c with pkt := { c.pkt with opcode := 3 } } = c := by rw [← hs.opcode_eq]
  change hFlush c s0 = _
  unfold hFlush
  rw [hop, hs.via_eq]
  exact if_neg (mt List.length_eq_zero_iff.mp hw)

/-! ### LEASE_RENEW, GET_IDENTITY and an idle session (R39, R63, R79, R80) -/

/-- The lease period in effect: the one asked for within its bounds, or with 0 the present one. -/
def leasePeriod (c : Ctx) (f : Fn) : Nat := if c.p 0 4 = 0 then f.leaseMs else max 100 (min 60000 (c.p 0 4))

theorem updFn_of_look {fid : Nat} {f : Fn} (h : look s.fns fid = some f) (g : Fn → Fn) : updFn fid g s = setFn fid (g f) s := by
  simp only [updFn, h]

theorem fnD_of_look {fid : Nat} {f : Fn} (h : look s.fns fid = some f) : fnD s fid = f := by
  simp only [fnD, lookD, h, Option.getD_some]

theorem leaseRenew_replies {fn : Nat} {f : Fn} (hs : Starts 0x0002 (.ring fn) pkt s c s0) (hf : look s0.fns fn = some f) :
    Replied (exec (.leaseRenew (.ring fn) pkt) s) c stOk (okDetail (c.p 0 4 != 0 && c.p 0 4 != leasePeriod c f))
      (layout 8 [(0, 4, leasePeriod c f), (4, 2, f.gen)])
      (setFn fn { f with leaseMs := leasePeriod c f, leaseOn := true, leaseFrom := nowSt s0 } s0) := by
  refine replied_of_handler hs (by decide) ?_
  have hfid : c.iss.fid = fn := by rw [hs.iss_eq]; rfl
  change hLeaseRenew c s0 = _
  simp only [hLeaseRenew, hfid, fnD_of_look hf, updFn_of_look hf]
  rfl

/-- Settles O25: the commands by what their handlers answer or leave (`replied_of_handler`, `onward_of_handler_later`). -/
theorem icpSessionsOpenRenewAndEnd : Obligations.IcpSessionsOpenRenewAndEnd := by
  unfold Obligations.IcpSessionsOpenRenewAndEnd
  refine ⟨fun via pkt s s0 c hs hw => ⟨fun m hm hf => ?hello, hello_refused hs hw⟩,
    fun via pkt s s0 c hs hw => ⟨goodbye_ends hs hw, ?goodbye⟩,
    fun via pkt s s0 c hs => ⟨flush_idle hs, flush_waits hs⟩,
    fun fn pkt s s0 c f hs hf => leaseRenew_replies hs hf,
    fun via pkt s s0 c hs => replied_of_handler hs (by decide) rfl,
    fun peer s hp => congrArg _ (if_pos hp)⟩
  case hello =>
    obtain ⟨lease, gen, clamped, s1, hr, hx⟩ := hello_opens hs hw hm hf
    obtain ⟨hlo, hhi⟩ := openedSession_sid c m (sessionEnded via s0)
    exact ⟨_, lease, gen, clamped, s1, hr, hx, rfl, hlo, hhi, rfl, fun h => by subst h; exact openedSession_caps_two .., openedSession_caps_lt .., rfl⟩
  case goodbye =>
    rintro (rfl | rfl | ⟨ep, rfl⟩)
    · exact sessionOf_endSession _
    · exact sessionOf_endSession _
    · exact sessionOf_endSession_accel _

end Sys2Proof.Machine
end

section
/-! What recording an error, logging a decision and driving a pin change: the headers, counters, outputs and the policy log, and nothing of what the other
units hold (R622, R624, R631, R644, R719). -/

namespace Sys2Proof.Machine

open Sys2Proof

variable {s t : State}

/-! ### Recording an error -/

theorem dmaDropped_eq (fid n : Nat) (s : State) : ∃ c, dmaDropped fid n s = s.setCsr c := by
  unfold dmaDropped
  split
  · exact ⟨_, rfl⟩
  · exact ⟨s.csr, rfl⟩

/-- An MSI-X message leaves the part, waits, or is counted as dropped. -/
theorem raiseMsix_eq (fn vec : Nat) (s : State) : ∃ c o p, raiseMsix fn vec s = ((s.setCsr c).setOut o).setPorts p := by
  unfold raiseMsix
  split
  · exact ⟨s.csr, s.out, _, rfl⟩
  · split
    · obtain ⟨c, h⟩ := dmaDropped_eq fn 1 s
      exact ⟨c, s.out, s.ports, h⟩
    · exact ⟨s.csr, s.out ++ [.msix fn vec], s.ports, rfl⟩

theorem notifyErr_eq (b cls : Nat) (s : State) : ∃ c o p, notifyErr b cls s = ((s.setCsr c).setOut o).setPorts p := by
  unfold notifyErr
  split
  · exact ⟨s.csr, s.out, s.ports, rfl⟩
  · dsimp only
    generalize hx : (if errRoute s b % 2 = 1 then raiseMsix (pfId 0 0) (1024 + b) s else s) = x
    obtain ⟨c, o, p, rfl⟩ : ∃ c o p, x = ((s.setCsr c).setOut o).setPorts p := by
      subst hx
      split
      · exact raiseMsix_eq ..
      · exact ⟨s.csr, s.out, s.ports, rfl⟩
    split
    · obtain ⟨c', o', p', h⟩ := raiseMsix_eq (pfId 1 0) (1024 + b) (((s.setCsr c).setOut o).setPorts p)
      exact ⟨c', o', p', h⟩
    · exact ⟨c, o, p, rfl⟩

theorem driveFault_eq (before : Bool) (s : State) : ∃ o h, driveFault before s = (s.setOut o).setTel { s.tel with faultHold := h } := by
  unfold driveFault
  split
  · exact ⟨s.out, s.tel.faultHold, rfl⟩
  · split
    · exact ⟨_, true, rfl⟩
    · exact ⟨s.out, s.tel.faultHold, rfl⟩

/-- The header of a block once an error is recorded in it. -/
def notedHdr (b cls src : Nat) (info : List Nat) (s : State) : ErrHdr :=
  reactErr (now s (blkIsland b)) cls (latchErr (stamp s b) cls src info (errOf s b))

/-- Recording an error changes the block's header, performance counters, registers that count, what is sent and FAULT_N's hold. -/
theorem noteErr_eq (b cls src : Nat) (info : List Nat) (s : State) : ∃ f c o p h, noteErr b cls src info s =
    ((((((setErr b (notedHdr b cls src info s) s).setPerf f).setCsr c).setOut o).setPorts p).setTel { s.tel with faultHold := h }) := by
  unfold noteErr
  dsimp only
  rw [← notedHdr]
  obtain ⟨c, o, p, hn⟩ := notifyErr_eq b cls (perfEvent b (if cls = 1 then 1 else 2) 1 (setErr b (notedHdr b cls src info s) s))
  obtain ⟨o', h, hd⟩ := driveFault_eq (faultAsserted s) (notifyErr b cls (perfEvent b (if cls = 1 then 1 else 2) 1 (setErr b (notedHdr b cls src info s) s)))
  rw [hd, hn]
  exact ⟨_, c, o', p, h, rfl⟩

section
variable (b cls src : Nat) (info : List Nat) (s : State)

@[simp] theorem noteErr_mem : (noteErr b cls src info s).mem = s.mem := (noteErr_frame ..).1
@[simp] theorem noteErr_mason : (noteErr b cls src info s).mason = s.mason := by obtain ⟨_, _, _, _, _, h⟩ := noteErr_eq b cls src info s; rw [h]; rfl
@[simp] theorem noteErr_fns : (noteErr b cls src info s).fns = s.fns := by obtain ⟨_, _, _, _, _, h⟩ := noteErr_eq b cls src info s; rw [h]; rfl
@[simp] theorem noteErr_pwr : (noteErr b cls src info s).pwr = s.pwr := by obtain ⟨_, _, _, _, _, h⟩ := noteErr_eq b cls src info s; rw [h]; rfl
@[simp] theorem noteErr_sec : (noteErr b cls src info s).sec = s.sec := by obtain ⟨_, _, _, _, _, h⟩ := noteErr_eq b cls src info s; rw [h]; rfl
@[simp] theorem noteErr_frozen : (noteErr b cls src info s).tel.frozen = s.tel.frozen := by
  obtain ⟨_, _, _, _, _, h⟩ := noteErr_eq b cls src info s; rw [h]; rfl

end

theorem errOf_setErr (b : Nat) (h : ErrHdr) (s : State) (k : Nat) : errOf (setErr b h s) k = if b = k then h else errOf s k := by
  by_cases hk : b = k
  · rw [if_pos hk, ← hk, errOf_setErr_same]
  · rw [if_neg hk, errOf, errOf, setErr, State.setErr_err, lookD_put_of_ne _ _ _ hk]

theorem errOf_congr (h : t.err = s.err) (k : Nat) : errOf t k = errOf s k := by rw [errOf, errOf, h]

theorem errOf_noteErr_of_ne {b k : Nat} (h : k ≠ b) (cls src : Nat) (info : List Nat) (s : State) : errOf (noteErr b cls src info s) k = errOf s k := by
  rw [errOf, noteErr_err, lookD_put_of_ne _ _ _ (Ne.symm h), errOf]

/-- What recording says depends on the headers alone. -/
theorem Recorded.congr {u : State} {b cls src : Nat} {info : List Nat} (h : Recorded s t b cls src info) (hu : u.err = t.err) :
    Recorded s u b cls src info := by
  unfold Recorded at h ⊢
  rwa [errOf_congr hu]

/-- A fault held by a block of the part asserts FAULT_N. -/
theorem anyFault_of_holds {b : Nat} (hb : b ≤ 60) (h : holdsFault (errOf s b) = true) : anyFault s = true :=
  List.any_eq_true.mpr ⟨b, List.mem_range.mpr (by omega), h⟩

/-! ### The reaction (R625 to R627) -/

@[simp] theorem latchErr_cls (t cls src : Nat) (info : List Nat) (h : ErrHdr) : (latchErr t cls src info h).cls = h.cls := by
  unfold latchErr; dsimp only; split <;> rfl
@[simp] theorem latchErr_running (t cls src : Nat) (info : List Nat) (h : ErrHdr) : (latchErr t cls src info h).running = h.running := by
  unfold latchErr; dsimp only; split <;> rfl
@[simp] theorem latchErr_corSilent (t cls src : Nat) (info : List Nat) (h : ErrHdr) : (latchErr t cls src info h).corSilent = h.corSilent := by
  unfold latchErr; dsimp only; split <;> rfl
@[simp] theorem latchErr_ms (t cls src : Nat) (info : List Nat) (h : ErrHdr) : (latchErr t cls src info h).ms = h.ms := by
  unfold latchErr; dsimp only; split <;> rfl
@[simp] theorem latchErr_timerEnd (t cls src : Nat) (info : List Nat) (h : ErrHdr) : (latchErr t cls src info h).timerEnd = h.timerEnd := by
  unfold latchErr; dsimp only; split <;> rfl

/-- A CON or a FAT leaves its mark in the header. -/
theorem holdsFault_latched {cls : Nat} (h2 : 2 ≤ cls) (h3 : cls ≤ 3) (t src : Nat) (info : List Nat) (h : ErrHdr) :
    holdsFault (latchErr t cls src info h) = true := by
  obtain rfl | rfl : cls = 2 ∨ cls = 3 := by omega
  · simp [holdsFault, latchErr]
  · simp [holdsFault, latchErr]

theorem holdsFault_reactErr (t cls : Nat) (h : ErrHdr) : holdsFault (reactErr t cls h) = holdsFault h := by
  obtain ⟨c, a, r, e, hr⟩ := reactErr_eq t cls h
  rw [hr]
  rfl

section
variable {h : ErrHdr} {cls : Nat} (t : Nat)

theorem reactErr_silent (hs : h.corSilent = true) : reactErr t 1 h = h := if_pos ⟨rfl, hs⟩

theorem reactErr_fat : reactErr t 3 h = { h with cls := 3, acked := false, running := false } :=
  (if_neg (fun hc => absurd hc.1 (by decide))).trans (if_pos rfl)

theorem reactErr_first (hn : ¬ (cls = 1 ∧ h.corSilent = true)) (hc : cls < 3) (h0 : h.cls = 0) :
    reactErr t cls h = { h with cls := cls, acked := false, running := true, timerEnd := t + h.ms * 1000000 } :=
  (if_neg hn).trans ((if_neg (by omega)).trans (if_pos h0))

/-- A CON after a COR whose timer runs goes on with that timer. -/
theorem reactErr_raised (h1 : h.cls = 1) (hr : h.running = true) : reactErr t 2 h = { h with cls := 2 } :=
  (if_neg (fun hc => absurd hc.1 (by decide))).trans ((if_neg (by decide)).trans ((if_neg (by omega)).trans ((if_pos (by omega)).trans (if_pos hr))))

end

/-- FAULT_N is asserted once a CON or a FAT of a block is recorded. -/
theorem faultAsserted_noteErr {b cls : Nat} (hb : b ≤ 60) (h2 : 2 ≤ cls) (h3 : cls ≤ 3) (src : Nat) (info : List Nat) (s : State) :
    faultAsserted (noteErr b cls src info s) = true := by
  have hany : anyFault (noteErr b cls src info s) = true :=
    anyFault_of_holds hb (by rw [errOf_noteErr, holdsFault_reactErr, holdsFault_latched h2 h3])
  rw [faultAsserted, hany, Bool.true_or]

/-! ### Pins -/

theorem driveAlert_eq (before : Bool) (s : State) : ∃ o, driveAlert before s = s.setOut o := by
  unfold driveAlert
  split
  · exact ⟨s.out, rfl⟩
  · exact ⟨_, rfl⟩

section
variable (before : Bool) (s : State)

@[simp] theorem driveAlert_tel : (driveAlert before s).tel = s.tel := by obtain ⟨o, h⟩ := driveAlert_eq before s; rw [h]; rfl
@[simp] theorem driveAlert_pwr : (driveAlert before s).pwr = s.pwr := by obtain ⟨o, h⟩ := driveAlert_eq before s; rw [h]; rfl
@[simp] theorem driveAlert_err : (driveAlert before s).err = s.err := by obtain ⟨o, h⟩ := driveAlert_eq before s; rw [h]; rfl
@[simp] theorem driveAlert_csr : (driveAlert before s).csr = s.csr := by obtain ⟨o, h⟩ := driveAlert_eq before s; rw [h]; rfl
@[simp] theorem driveAlert_mem : (driveAlert before s).mem = s.mem := by obtain ⟨o, h⟩ := driveAlert_eq before s; rw [h]; rfl
@[simp] theorem driveAlert_mason : (driveAlert before s).mason = s.mason := by obtain ⟨o, h⟩ := driveAlert_eq before s; rw [h]; rfl

end

theorem releaseFault_eq (before : Bool) (s : State) : releaseFault before s =
    s.setOut (s.out ++ if before = true ∧ faultAsserted s = false then [.pin .faultN false] else []) := by
  unfold releaseFault
  cases before <;> cases faultAsserted s <;> simp [emit, State.setOut]

@[simp] theorem releaseFault_err (before : Bool) (s : State) : (releaseFault before s).err = s.err := by rw [releaseFault_eq]; rfl

/-! ### Islands -/

theorem islandOf_congr (h : t.pwr.islands = s.pwr.islands) (i : Nat) : islandOf t i = islandOf s i := by rw [islandOf, islandOf, h]

@[simp] theorem islandOf_updIsland_same (i : Nat) (f : IslandPow → IslandPow) (s : State) : islandOf (updIsland i f s) i = f (islandOf s i) := by
  have hl : look (put s.pwr.islands i (f (islandOf s i))) i = some (f (islandOf s i)) := look_put_same ..
  exact show (match look (put s.pwr.islands i (f (islandOf s i))) i with | some x => x | none => _) = _ by rw [hl]

theorem islandOf_updIsland_of_ne {i j : Nat} (h : j ≠ i) (f : IslandPow → IslandPow) (s : State) : islandOf (updIsland i f s) j = islandOf s j := by
  simp only [islandOf, updIsland, setIsland, State.setPwr_pwr, look_put_of_ne _ _ (Ne.symm h)]

/-- Islands updated one after another: each takes its own update once. -/
theorem islandOf_foldl_updIsland {l : List Nat} (hl : l.Nodup) (f : IslandPow → IslandPow) (s : State) (c : Nat) :
    islandOf (l.foldl (fun s c => updIsland c f s) s) c = if c ∈ l then f (islandOf s c) else islandOf s c := by
  induction l generalizing s with
  | nil => rfl
  | cons x r ih =>
    obtain ⟨hx, hr⟩ := List.nodup_cons.mp hl
    rw [List.foldl_cons, ih hr]
    by_cases hc : c = x
    · subst hc
      rw [if_neg hx, if_pos List.mem_cons_self, islandOf_updIsland_same]
    · simp only [List.mem_cons, hc, false_or, islandOf_updIsland_of_ne hc]

/-- Updates of islands change the power record's list of islands alone. -/
theorem foldl_updIsland_eq (l : List Nat) (f : Nat → IslandPow → IslandPow) (s : State) :
    ∃ x, l.foldl (fun s c => updIsland c (f c) s) s = s.setPwr { s.pwr with islands := x } := by
  induction l generalizing s with
  | nil => exact ⟨s.pwr.islands, rfl⟩
  | cons c r ih =>
    obtain ⟨x, hx⟩ := ih (updIsland c (f c) s)
    exact ⟨x, hx⟩

theorem takeFallback_eq (s : State) : ∃ c, takeFallback s = (s.setCsr c).setPwr { s.pwr with fallback := true } := by
  unfold takeFallback
  split
  · next h => exact ⟨s.csr, by rw [show { s.pwr with fallback := true } = s.pwr by rw [← h]]; rfl⟩
  · exact ⟨_, rfl⟩

end Sys2Proof.Machine
end

section
/-! Errors acknowledged, cleared and escalated, and what a FAT freezes (R45, R619, R622 to R631, R692, R693). -/

namespace Sys2Proof.Machine

open Sys2Proof

variable {s : State} {b : Nat}

/-! ### FAT (R629, R693) -/

theorem clustersToP5_eq (s : State) : ∃ c x, clustersToP5 s = (s.setCsr c).setPwr { s.pwr with fallback := true, islands := x } := by
  obtain ⟨c, hc⟩ := takeFallback_eq s
  obtain ⟨x, hx⟩ := foldl_updIsland_eq (List.range 17) (fun _ y => { y with point := 5, mhz := 400 }) (takeFallback s)
  exact ⟨c, x, by rw [clustersToP5, hx, hc]; rfl⟩

theorem islandOf_clustersToP5 {c : Nat} (hc : c < 17) (s : State) :
    (islandOf (clustersToP5 s) c).point = 5 ∧ (islandOf (clustersToP5 s) c).mhz = 400 := by
  have h := islandOf_foldl_updIsland (l := List.range 17) List.nodup_range (fun y => { y with point := 5, mhz := 400 }) (takeFallback s) c
  rw [if_pos (List.mem_range.mpr hc)] at h
  rw [clustersToP5, h]
  exact ⟨rfl, rfl⟩

/-- The part as a FAT has frozen it, before its dump is written. -/
def fatFrozen (b src : Nat) (info : List Nat) (s : State) : State :=
  clustersToP5 ((noteErr b 3 src info s).setTel { (noteErr b 3 src info s).tel with frozen := true })

theorem recordFat_eq (hz : s.tel.frozen = false) (b src : Nat) (info : List Nat) : ∃ d : Dump, d.block = b ∧ d.source = src ∧
    recordFat b src info s =
      driveAlert (alertAsserted s) ((fatFrozen b src info s).setTel { (fatFrozen b src info s).tel with dump := some d }) := by
  refine ⟨{ bytes := dumpBytes (fatFrozen b src info s), block := b, source := src }, rfl, rfl, ?_⟩
  simp only [recordFat, noteErr_frozen, hz, Bool.false_eq_true, if_false, fatFrozen]

theorem fatFrozen_frame (b src : Nat) (info : List Nat) (s : State) : (fatFrozen b src info s).tel.frozen = true ∧
    (fatFrozen b src info s).pwr.fallback = true ∧ (fatFrozen b src info s).err = (noteErr b 3 src info s).err ∧
    (fatFrozen b src info s).mem = s.mem := by
  obtain ⟨c, x, h⟩ := clustersToP5_eq ((noteErr b 3 src info s).setTel { (noteErr b 3 src info s).tel with frozen := true })
  rw [fatFrozen, h]
  exact ⟨rfl, rfl, rfl, noteErr_mem ..⟩

theorem recordFat_freezes (hz : s.tel.frozen = false) (b src : Nat) (info : List Nat) :
    let t := recordFat b src info s
    t.tel.frozen = true ∧ (∃ d, t.tel.dump = some d ∧ d.block = b ∧ d.source = src) ∧ (∀ c, c < 17 → (islandOf t c).point = 5 ∧ (islandOf t c).mhz = 400) ∧
    t.pwr.fallback = true ∧ Recorded s t b 3 src info ∧ t.mem = s.mem := by
  obtain ⟨hfr, hfb, herr, hmem⟩ := fatFrozen_frame b src info s
  have hp5 : ∀ c, c < 17 → (islandOf (fatFrozen b src info s) c).point = 5 ∧ (islandOf (fatFrozen b src info s) c).mhz = 400 :=
    fun c hc => islandOf_clustersToP5 hc _
  obtain ⟨d, hb, hsrc, h⟩ := recordFat_eq hz b src info
  generalize fatFrozen b src info s = x at *
  dsimp only
  rw [h]
  refine ⟨?_, ⟨d, ?_, hb, hsrc⟩, fun c hc => ?_, ?_, (recorded_noteErr b 3 src info s).congr ?_, ?_⟩
  · rw [driveAlert_tel]
    exact hfr
  · rw [driveAlert_tel]
    rfl
  · rw [islandOf_congr (congrArg Power.islands (driveAlert_pwr ..))]
    exact hp5 c hc
  · rw [driveAlert_pwr]
    exact hfb
  · rw [driveAlert_err]
    exact herr
  · rw [driveAlert_mem]
    exact hmem

/-! ### Loss of the clock, a rail or a steward core (R45, R623) -/

theorem clockAndRail (n mv : Nat) (s : State) :
    (s.boot.inReset = true → exec (.referenceClockLost n) s = .next s ∧ exec (.railOutOfRange n mv) s = .next s) ∧
    (s.boot.inReset = false → exec (.referenceClockLost n) s = .next (recordFat blkGlobal 0x0101 [n] s) ∧
      exec (.railOutOfRange n mv) s = .next (recordFat blkPower 0x0100 [n, mv] s)) := by
  refine ⟨fun h => ⟨congrArg _ (if_pos h), congrArg _ (if_pos h)⟩, fun h => ?_⟩
  have hn : ¬ s.boot.inReset = true := by simp [h]
  exact ⟨congrArg _ (if_neg hn), congrArg _ (if_neg hn)⟩

section
variable {n : Nat}

/-- The steward cores left once one has failed. -/
def stewardsLeft (n : Nat) (s : State) : List Nat := s.boot.stewards.filter (fun x => x != n)

theorem stewardCoreFailed_spare (h : s.boot.stewardSpare = some n) :
    exec (.stewardCoreFailed n) s = .next (s.setBoot { s.boot with stewardSpare := none }) := congrArg _ (if_pos h)

theorem stewardCoreFailed_absent (h : s.boot.stewardSpare ≠ some n) (hn : n ∉ s.boot.stewards) : exec (.stewardCoreFailed n) s = .next s :=
  congrArg _ ((if_neg h).trans (if_pos (by simpa using hn)))

theorem stewardCoreFailed_replaced {k : Nat} (hk : k ≠ n) (h : s.boot.stewardSpare = some k) (hn : n ∈ s.boot.stewards) :
    exec (.stewardCoreFailed n) s = .next (logSpare blkSteward 0x0004 n 0
      (s.setBoot { s.boot with stewards := stewardsLeft n s ++ [k], stewardSpare := none })) := by
  refine congrArg _ ((if_neg (by rw [h]; simpa using hk)).trans ((if_neg (by simpa using hn)).trans ?_))
  simp only [h, stewardsLeft]

theorem stewardCoreFailed_last (h : s.boot.stewardSpare = none) (hn : n ∈ s.boot.stewards) : exec (.stewardCoreFailed n) s = .next (
    if stewardsLeft n s = [] then recordFat blkGlobal 0x0100 [] (s.setBoot { s.boot with stewards := stewardsLeft n s })
    else s.setBoot { s.boot with stewards := stewardsLeft n s }) := by
  refine congrArg _ ((if_neg (by simp [h])).trans ((if_neg (by simpa using hn)).trans ?_))
  simp only [h, stewardsLeft, List.isEmpty_iff]

end

/-! ### ACK and CLEAR (R628, R648) -/

section
variable {who : Requester} (hb : b ≤ 60) (seq : Nat)
include hb

theorem errAck_denied (hw : errWriter who b = false) : exec (.errAckAck who b seq) s = .next (countUnmapped (blkBase b + 0x28) s) ∧
    ∀ a, exec (.errAckClear who b seq a) s = .next (countUnmapped (blkBase b + 0x28) s) :=
  ⟨congrArg _ ((if_neg (by omega)).trans (if_neg (by simp [hw]))), fun _ => congrArg _ ((if_neg (by omega)).trans (if_neg (by simp [hw])))⟩

theorem errAckAck_permitted (hw : errWriter who b = true) : exec (.errAckAck who b seq) s = .next (ackErr b seq s) :=
  congrArg _ ((if_neg (by omega)).trans (if_pos hw))

theorem errAckClear_permitted (hw : errWriter who b = true) (a : Bool) :
    exec (.errAckClear who b seq a) s = .next (clearErr b (if a then ackErr b seq s else s)) :=
  congrArg _ ((if_neg (by omega)).trans (if_pos hw))

end

theorem errWriter_false {who : Requester} (h : trusted who = false ∨ (b = blkPower ∧ who ≠ .steward)) : errWriter who b = false := by
  rcases h with h | ⟨rfl, h⟩
  · simp [errWriter, h]
  · simp [errWriter, h]

theorem errWriter_true {who : Requester} (ht : trusted who = true) (h : b ≠ blkPower ∨ who = .steward) : errWriter who b = true := by
  rcases h with h | rfl
  · simp [errWriter, ht, h]
  · simp [errWriter, ht]

theorem ackErr_eq (b seq : Nat) (s : State) : ackErr b seq s = if decide ((errOf s b).valid = true ∧ (errOf s b).seq = seq % 16)
    then setErr b { errOf s b with running := false, acked := true, sparing := false } s else bump blkTelem 0x130 s := by
  simp only [ackErr, Bool.decide_and, Bool.decide_eq_true, beq_eq_decide]
  rfl

/-- The header of a block once a CLEAR has been accepted. -/
def clearedHdr (h : ErrHdr) : ErrHdr :=
  { h with valid := false, ovf := false, highest := 0, ovfCount := 0, info := [0, 0, 0, 0], fcls := 0, source := 0,
           fatSeen := false, conSeen := false, corSeen := false, cls := 0, acked := false, escalated := false,
           running := false, sparing := false, returning := h.isolated }

theorem clearErr_accepted (ha : (errOf s b).acked = true ∨ (errOf s b).escalated = true) (hc : (errOf s b).cls ≠ 3) :
    clearErr b s = releaseFault (faultAsserted s) (setErr b (clearedHdr (errOf s b)) s) := by
  have h : clearAccepted (errOf s b) = true := by simpa [clearAccepted, hc] using ha
  exact if_pos h

theorem errOf_clearErr (ha : (errOf s b).acked = true ∨ (errOf s b).escalated = true) (hc : (errOf s b).cls ≠ 3) (k : Nat) :
    errOf (clearErr b s) k = if b = k then clearedHdr (errOf s b) else errOf s k := by
  rw [clearErr_accepted ha hc, errOf_congr (releaseFault_err ..), errOf_setErr]

/-! ### Isolation and the escalation timer (R619, R626, R628) -/

theorem isolatedBlockReturn_idle (h : (errOf s b).isolated = false ∨ (errOf s b).returning = false) :
    exec (.isolatedBlockReturn b) s = .next s := congrArg _ (if_neg (by rcases h with h | h <;> simp [h]))

theorem isolatedBlockReturn_returns (hi : (errOf s b).isolated = true) (hr : (errOf s b).returning = true) :
    ∃ t, exec (.isolatedBlockReturn b) s = .next (failAdmitted b t) ∧
      errOf t b = { errOf s b with isolated := false, returning := false } ∧ t.csr = s.csr ∧ t.mem = s.mem := by
  refine ⟨_, congrArg _ (if_pos (by simp [hi, hr])), ?_, ?_, ?_⟩
  · rw [errOf_congr (releaseFault_err ..), errOf_setErr_same]
  · rw [releaseFault_eq]
    rfl
  · rw [releaseFault_eq]
    rfl

/-- The part once the escalation timer of a block has expired: the block is escalated, and isolated for a CON. -/
def escalated (b : Nat) (s : State) : State := bump blkTelem 0x13C (setErr b
  { errOf s b with running := false, escalated := true, escTime := stamp s b, isolated := (errOf s b).isolated || (errOf s b).cls == 2, returning := false } s)

/-- The escalation of the power block hands control to the fallback governor (R692). -/
def escalatedPower (b : Nat) (s : State) : State :=
  if (errOf s b).cls = 2 ∧ b = blkPower then driveAlert (alertAsserted (escalated b s)) (takeFallback (escalated b s)) else escalated b s

theorem escalatedPower_eq (b : Nat) (s : State) : ∃ c o p, escalatedPower b s = (((escalated b s).setCsr c).setOut o).setPwr p ∧
    cell ((escalated b s).setCsr c) blkTelem 0x13C = cell (escalated b s) blkTelem 0x13C := by
  unfold escalatedPower
  split
  · unfold takeFallback
    split
    · obtain ⟨o, ho⟩ := driveAlert_eq (alertAsserted (escalated b s)) (escalated b s)
      exact ⟨(escalated b s).csr, o, (escalated b s).pwr, ho, rfl⟩
    · obtain ⟨o, ho⟩ := driveAlert_eq (alertAsserted (escalated b s))
        (bump blkPower 0x11C ((escalated b s).setPwr { (escalated b s).pwr with fallback := true }))
      exact ⟨_, o, { (escalated b s).pwr with fallback := true }, ho, cell_setCell_of_ne (by decide) _ (escalated b s)⟩
  · exact ⟨(escalated b s).csr, (escalated b s).out, (escalated b s).pwr, rfl, rfl⟩

theorem escalationTimerExpiry_eq (h : (errOf s b).running = true) : exec (.escalationTimerExpiry b) s =
    .next (if (errOf s b).cls = 2 then failAdmitted b (escalatedPower b s) else escalatedPower b s) := by
  refine congrArg _ ((if_pos h).trans ?_)
  change (if (errOf s b).cls ≠ 2 then escalated b s else
    failAdmitted b (if b = blkPower then driveAlert (alertAsserted (escalated b s)) (takeFallback (escalated b s)) else escalated b s)) = _
  by_cases hc : (errOf s b).cls = 2
  · simp only [escalatedPower, hc, ne_eq, not_true_eq_false, if_false, if_true, true_and]
  · simp only [escalatedPower, hc, ne_eq, not_false_eq_true, if_true, if_false, false_and]

theorem escalationTimerExpiry_escalates (h : (errOf s b).running = true) :
    ∃ t, exec (.escalationTimerExpiry b) s = .next (if (errOf s b).cls = 2 then failAdmitted b t else t) ∧
      errOf t b = { errOf s b with running := false, escalated := true, escTime := stamp s b,
                                   isolated := (errOf s b).isolated || (errOf s b).cls == 2, returning := false } ∧
      cell t blkTelem 0x13C = (cell s blkTelem 0x13C + 1) % 2 ^ 32 ∧ ((errOf s b).cls = 2 → b = blkPower → t.pwr.fallback = true) ∧ t.mem = s.mem := by
  obtain ⟨c, o, p, he, hcell⟩ := escalatedPower_eq b s
  refine ⟨_, escalationTimerExpiry_eq h, ?_, ?_, fun hc hp => ?_, ?_⟩
  · rw [he]
    exact errOf_setErr_same ..
  · rw [he]
    exact hcell.trans (cell_bump_same ..)
  · rw [escalatedPower, if_pos ⟨hc, hp⟩, driveAlert_pwr]
    obtain ⟨_, ht⟩ := takeFallback_eq (escalated b s)
    rw [ht]
    rfl
  · rw [he]
    rfl

/-! ### The work that an isolated block had admitted (R626, R728; log 206) -/

theorem failAdmitted_none (h1 : b ≠ blkSteward) (h2 : ¬ (2 ≤ b ∧ b ≤ 18)) (h3 : b ≠ blkTable) (h4 : b ≠ blkCourse) (h5 : b ≠ blkStorage)
    (h6 : b ≠ blkTransport) (h7 : b < 53) : failAdmitted b s = s := by
  have h8 : ¬ (53 ≤ b ∧ b ≤ 60) := by omega
  simp only [failAdmitted, h1, h2, h3, h4, h5, h6, h8, if_false]

/-- No job that runs for a descriptor is left once such jobs have been dropped. -/
theorem dropJobs_jobs (mine : Job → Bool) (s : State) : ∀ j ∈ (dropJobs mine s).mason.jobs, mine j = false := by
  intro j hj
  obtain ⟨hmem, hkeep⟩ := List.mem_filter.mp hj
  by_contra hm
  have hgone : s.mason.jobs.any (fun x => x.id == j.id && mine x) = true :=
    List.any_eq_true.mpr ⟨j, hmem, by simpa using hm⟩
  simp [hgone] at hkeep

theorem cqpD_updCqp_same {n : Nat} (h : (cqpOf s n).isSome = true) (f : Cqp → Cqp) : cqpD (updCqp n f s) n = f (cqpD s n) := by
  obtain ⟨q, hq⟩ := Option.isSome_iff_exists.mp h
  have hl : look s.tab.cqps n = some q := hq
  simp only [cqpD, updCqp, hq, setCqp, State.setTab_tab, lookD_put_same]
  rw [lookD, hl, Option.getD_some]

theorem updCqp_eq (n : Nat) (f : Cqp → Cqp) (s : State) : ∃ t, updCqp n f s = s.setTab t := by
  unfold updCqp
  split
  · exact ⟨_, rfl⟩
  · exact ⟨s.tab, rfl⟩

theorem failDesc_isolated {n seq : Nat} {d : Desc} (hq : (cqpOf s n).isSome = true) (hd : admitted s n seq = some d) :
    ∃ y, failDesc n seq csIsolated 0 s = postCqe n d 0 csIsolated 0 0 y ∧
      (cqpD y n).waiting = (cqpD s n).waiting.filter (fun w => w.1 != seq) ∧ (cqpD y n).running = (cqpD s n).running.filter (fun p => p.seq != seq) ∧
      (∀ j ∈ y.mason.jobs, j.of n seq = false) ∧ y.mem = s.mem ∧ y.out = s.out := by
  have hq' : (cqpOf (dropJobs (fun j => j.of n seq) s) n).isSome = true := hq
  let f : Cqp → Cqp := fun q => { q with waiting := q.waiting.filter (fun w => w.1 != seq), running := q.running.filter (fun p => p.seq != seq) }
  have hy : cqpD (updCqp n f (dropJobs (fun j => j.of n seq) s)) n = f (cqpD s n) := cqpD_updCqp_same hq' f
  obtain ⟨t, ht⟩ := updCqp_eq n f (dropJobs (fun j => j.of n seq) s)
  refine ⟨updCqp n f (dropJobs (fun j => j.of n seq) s), by simp only [failDesc, hd, f], by rw [hy], by rw [hy], ?_, by rw [ht]; rfl, by rw [ht]; rfl⟩
  rw [ht]
  exact dropJobs_jobs _ s

theorem faultHoldExpiry_releases (s : State) : ∃ t, exec .faultNMinimumHoldExpiry s = .next t ∧ t.tel.faultHold = false ∧ t.err = s.err ∧
    t.out = s.out ++ (if faultAsserted s = true ∧ anyFault s = false then [.pin .faultN false] else []) := by
  refine ⟨_, rfl, ?_, releaseFault_err .., ?_⟩
  · rw [releaseFault_eq]
    rfl
  · have hf : faultAsserted (s.setTel { s.tel with faultHold := false }) = anyFault s := Bool.or_false _
    rw [releaseFault_eq, hf]
    rfl

/-! ### Recording an error, and the statement -/

/-- Recording an error, by class (R622, R625 to R627, R631). -/
theorem noteErr_records {cls : Nat} (h1 : 1 ≤ cls) (h3 : cls ≤ 3) (b src : Nat) (info : List Nat) (s : State) :
    let t := noteErr b cls src info s
    let h := errOf s b
    let h' := errOf t b
    Recorded s t b cls src info ∧ (∀ k, k ≠ b → errOf t k = errOf s k) ∧
    (cls = 1 → h.corSilent = true → h'.cls = h.cls ∧ h'.running = h.running) ∧ (cls = 3 → h'.cls = 3 ∧ h'.running = false) ∧
    (h.cls = 0 → cls < 3 → ¬ (cls = 1 ∧ h.corSilent = true) →
      h'.cls = cls ∧ h'.running = true ∧ h'.acked = false ∧ h'.timerEnd = now s (blkIsland b) + h.ms * 1000000) ∧
    (h.cls = 1 → h.running = true → cls = 2 → h'.cls = 2 ∧ h'.timerEnd = h.timerEnd) ∧
    (b ≤ 60 → 2 ≤ cls → faultAsserted t = true) ∧ t.mem = s.mem ∧ t.mason = s.mason ∧ t.fns = s.fns := by
  intro t h h'
  have hh : h' = reactErr (now s (blkIsland b)) cls (latchErr (stamp s b) cls src info h) := errOf_noteErr ..
  refine ⟨recorded_noteErr .., fun k hk => errOf_noteErr_of_ne hk .., fun hc hs => ?_, fun hc => ?_, fun h0 hc hs => ?_, fun hc hr h2 => ?_,
    fun hb h2 => faultAsserted_noteErr hb h2 h3 .., noteErr_mem .., noteErr_mason .., noteErr_fns ..⟩
  · subst hc
    rw [hh, reactErr_silent _ ((latchErr_corSilent ..).trans hs), latchErr_cls, latchErr_running]
    exact ⟨rfl, rfl⟩
  · subst hc
    rw [hh, reactErr_fat]
    exact ⟨rfl, rfl⟩
  · rw [hh, reactErr_first _ (by rwa [latchErr_corSilent]) hc ((latchErr_cls ..).trans h0), latchErr_ms]
    exact ⟨rfl, rfl, rfl, rfl⟩
  · subst h2
    rw [hh, reactErr_raised _ ((latchErr_cls ..).trans hc) ((latchErr_running ..).trans hr)]
    exact ⟨rfl, latchErr_timerEnd ..⟩

/-- Settles O53: the recording by `noteErr_records`, the rest by the header that each row leaves. -/
theorem errorsAreRecordedAcknowledgedAndCleared : Obligations.ErrorsAreRecordedAcknowledgedAndCleared := by
  unfold Obligations.ErrorsAreRecordedAcknowledgedAndCleared
  refine ⟨fun b cls src info s h1 h3 => noteErr_records h1 h3 b src info s, fun b src info s hz => recordFat_freezes hz b src info,
    fun s n mv => ⟨(clockAndRail n mv s).1, (clockAndRail n mv s).2, stewardCoreFailed_spare, stewardCoreFailed_absent,
      fun k => stewardCoreFailed_replaced, stewardCoreFailed_last⟩,
    fun who b seq s hb => ⟨fun hw => errAck_denied hb seq (errWriter_false hw), fun ht hw => ?ack⟩,
    fun b s => ⟨isolatedBlockReturn_idle, isolatedBlockReturn_returns, fun h => congrArg _ (if_neg (by simp [h])), escalationTimerExpiry_escalates,
      failAdmitted_none, fun n seq d => failDesc_isolated, rfl, faultHoldExpiry_releases s⟩⟩
  case ack =>
    have hw := errWriter_true ht hw
    refine ⟨(errAckAck_permitted hb seq hw).trans (congrArg _ (ackErr_eq b seq s)), fun ha hc => ?_, fun ha he => ?_, fun hc => ?_, fun hg hc => ?_⟩
    · have hcl := errOf_clearErr ha hc
      refine ⟨_, errAckClear_permitted hb seq hw false, ?_⟩
      rw [if_neg Bool.false_ne_true, hcl b, if_pos rfl]
      exact ⟨rfl, rfl, rfl, rfl, rfl, rfl, rfl, rfl, rfl, rfl, rfl, rfl, fun k hk => by rw [hcl k, if_neg (Ne.symm hk)]⟩
    · exact (errAckClear_permitted hb seq hw false).trans (congrArg _ (clearErr_of_refused (by simp [clearAccepted, ha, he])))
    · exact (errAckClear_permitted hb seq hw false).trans (congrArg _ (clearErr_of_refused (by simp [clearAccepted, hc])))
    · have hacked : ackErr b seq s = setErr b { errOf s b with running := false, acked := true, sparing := false } s :=
        (ackErr_eq b seq s).trans (if_pos hg)
      have he := errOf_setErr_same b { errOf s b with running := false, acked := true, sparing := false } s
      refine ⟨_, errAckClear_permitted hb seq hw true, ?_⟩
      rw [if_pos rfl, hacked, errOf_clearErr (.inl (by rw [he])) (by rw [he]; exact hc), if_pos rfl]
      exact ⟨rfl, rfl⟩

end Sys2Proof.Machine
end

section
/-! Blocks, frames and moves of custody memory (R43, R112, R113, R127 to R131): what taking a frame leaves, which block an update reaches, and that the
moves of an epoch stay within its budget. -/

namespace Sys2Proof.Machine

open Sys2Proof

variable {s t : State}

/-! ### Frames taken -/

/-- Two states differ in memory, and not in the blocks or in the count of the epoch's moves. -/
def FramesOnly (s t : State) : Prop := ∃ m, t = s.setMem m ∧ m.blocks = s.mem.blocks ∧ m.moves = s.mem.moves

theorem takeHot_framesOnly {may : Nat → Bool} {f : Nat} (h : takeHot may s = some (f, t)) : FramesOnly s t := by
  unfold takeHot at h
  dsimp only at h
  split at h
  · cases h
    exact ⟨_, rfl, rfl, rfl⟩
  · split at h <;> cases h
    exact ⟨_, rfl, rfl, rfl⟩

theorem takeFrame_framesOnly {hot reserve : Bool} {f : Nat} (h : takeFrame hot reserve s = some (f, t)) : FramesOnly s t := by
  unfold takeFrame at h
  obtain ⟨-, h⟩ := Option.ite_none_right_eq_some.mp h
  split at h
  · exact takeHot_framesOnly h
  · split at h
    · cases h
      exact ⟨_, rfl, rfl, rfl⟩
    · dsimp only at h
      obtain ⟨-, h⟩ := Option.ite_none_right_eq_some.mp h
      cases h
      exact ⟨_, rfl, rfl, rfl⟩

theorem orElse_cases {α : Type} {o : Option α} {f : Unit → Option α} {x : α} (h : o.orElse f = some x) : o = some x ∨ f () = some x := by
  cases o with
  | none => exact .inr h
  | some y => exact .inl h

/-- A frame for recovery comes from one tier or the other, free or from the reserve. -/
theorem recoverFrame_framesOnly {c : TierClass} {f : Nat} (h : recoverFrame c s = some (f, t)) : FramesOnly s t := by
  unfold recoverFrame at h
  split at h
  · rcases orElse_cases h with h | h <;> exact takeFrame_framesOnly h
  · rcases orElse_cases h with h | h <;> exact takeFrame_framesOnly h
  · rcases orElse_cases h with h | h
    · rcases orElse_cases h with h | h <;> exact takeFrame_framesOnly h
    · exact takeFrame_framesOnly h

theorem moveBudget_congr (h : t.csr = s.csr) : moveBudget t = moveBudget s := by simp only [moveBudget, cell_congr h]

/-! ### The block that an update reaches -/

section
variable {α : Type} {p q : α → Bool} {f : α → α}

theorem find?_updFirst_same (hf : ∀ x, p x = true → p (f x) = true) (l : List α) : (updFirst p f l).find? p = (l.find? p).map f := by
  induction l with
  | nil => rfl
  | cons x r ih =>
    rw [updFirst]
    by_cases hx : p x = true
    · simp [hx, hf x hx]
    · simp [hx, ih]

theorem find?_updFirst_apart (hf : ∀ x, p x = true → q x = false ∧ q (f x) = false) (l : List α) : (updFirst p f l).find? q = l.find? q := by
  induction l with
  | nil => rfl
  | cons x r ih =>
    rw [updFirst]
    by_cases hx : p x = true
    · simp [hx, (hf x hx).1, (hf x hx).2]
    · simp [hx, List.find?_cons, ih]

end

/-- An update that leaves a block where it stands in its table. -/
def KeepsPlace (f : Blk → Blk) : Prop := ∀ b, (f b).table = b.table ∧ (f b).region = b.region ∧ (f b).index = b.index

section
variable {ti r i : Nat} {f : Blk → Blk}

theorem blkFind_congr (h : t.mem.blocks = s.mem.blocks) (ti r i : Nat) : blkFind t ti r i = blkFind s ti r i := by rw [blkFind, blkFind, h]

theorem blkFind_updBlk_same (hf : KeepsPlace f) : blkFind (updBlk ti r i f s) ti r i = (blkFind s ti r i).map f := by
  refine find?_updFirst_same (fun b hb => ?_) s.mem.blocks
  obtain ⟨h1, h2, h3⟩ := hf b
  rwa [h1, h2, h3]

theorem blkFind_updBlk_of_ne {tj q j : Nat} (hne : (tj, q, j) ≠ (ti, r, i)) (hf : KeepsPlace f) : blkFind (updBlk ti r i f s) tj q j = blkFind s tj q j := by
  have key : ∀ b : Blk, (b.table == ti && b.region == r && b.index == i) = true → (b.table == tj && b.region == q && b.index == j) = false := by
    intro b hb
    simp only [Bool.and_eq_true, beq_iff_eq] at hb
    obtain ⟨⟨rfl, rfl⟩, rfl⟩ := hb
    by_contra hc
    simp only [Bool.not_eq_false, Bool.and_eq_true, beq_iff_eq] at hc
    obtain ⟨⟨rfl, rfl⟩, rfl⟩ := hc
    exact hne rfl
  refine find?_updFirst_apart (fun b hb => ⟨key b hb, ?_⟩) s.mem.blocks
  obtain ⟨h1, h2, h3⟩ := hf b
  rw [h1, h2, h3]
  exact key b hb

theorem blkFind_place {b : Blk} (h : blkFind s ti r i = some b) : b.table = ti ∧ b.region = r ∧ b.index = i := by
  have := List.find?_some h
  simp only [Bool.and_eq_true, beq_iff_eq] at this
  exact ⟨this.1.1, this.1.2, this.2⟩

end

@[simp] theorem updBlk_csr (ti r i : Nat) (f : Blk → Blk) (s : State) : (updBlk ti r i f s).csr = s.csr := rfl
@[simp] theorem updBlk_moves (ti r i : Nat) (f : Blk → Blk) (s : State) : (updBlk ti r i f s).mem.moves = s.mem.moves := rfl

theorem updTbl_mem (ti : Nat) (f : Tbl → Tbl) (s : State) : (updTbl ti f s).mem = s.mem := by
  unfold updTbl
  split <;> rfl

/-! ### The moves of an epoch (R128 to R130) -/

/-- The moves begun stay within the epoch's budget, which is the same before and after. -/
structure WithinBudget (s t : State) : Prop where
  csr : t.csr = s.csr
  moves : s.mem.moves ≤ moveBudget s → t.mem.moves ≤ moveBudget s

theorem WithinBudget.rfl : WithinBudget s s := ⟨Eq.refl _, id⟩

theorem WithinBudget.trans {u : State} (h : WithinBudget s t) (h' : WithinBudget t u) : WithinBudget s u := by
  obtain ⟨hc, hm⟩ := h
  obtain ⟨hc', hm'⟩ := h'
  rw [moveBudget_congr hc] at hm'
  exact ⟨hc'.trans hc, fun hs => hm' (hm hs)⟩

/-- A move that begins is counted once. -/
theorem beginMove_counts (hot : Bool) (b : Blk) (s : State) : (beginMove hot b s).2.csr = s.csr ∧ (beginMove hot b s).2.mem.moves ≤ s.mem.moves + 1 ∧
    (moveBudget s ≤ s.mem.moves → (beginMove hot b s).2.mem.moves = s.mem.moves) := by
  unfold beginMove
  split
  · exact ⟨rfl, Nat.le_succ _, fun _ => rfl⟩
  · next hb =>
    split
    · next f t h =>
      obtain ⟨m, rfl, -, hm⟩ := takeFrame_framesOnly h
      exact ⟨rfl, by rw [← hm]; exact le_rfl, fun h => absurd h hb⟩
    · exact ⟨rfl, Nat.le_succ _, fun _ => rfl⟩

theorem beginMove_withinBudget (hot : Bool) (b : Blk) (s : State) : WithinBudget s (beginMove hot b s).2 := by
  obtain ⟨hc, h1, h0⟩ := beginMove_counts hot b s
  refine ⟨hc, fun hs => ?_⟩
  rcases Nat.lt_or_ge s.mem.moves (moveBudget s) with h | h
  · omega
  · rw [h0 h]
    exact hs

theorem demoteBlocks_withinBudget (high : Nat) (l : List Blk) (n : Nat) (s : State) : WithinBudget s (demoteBlocks high l n s).2 := by
  induction l generalizing n s with
  | nil => exact .rfl
  | cons b r ih =>
    have hb := beginMove_withinBudget false b s
    rw [demoteBlocks]
    split
    · generalize beginMove false b s = m at hb ⊢
      obtain ⟨began, t⟩ := m
      cases began
      · exact hb
      · exact hb.trans (ih ..)
    · exact .rfl

theorem promoteBlocks_withinBudget (high : Nat) (l : List Blk) (n : Nat) (s : State) : WithinBudget s (promoteBlocks high l n s).2 := by
  induction l generalizing n s with
  | nil => exact .rfl
  | cons b r ih =>
    have hb := beginMove_withinBudget true b s
    rw [promoteBlocks]
    split
    · generalize beginMove true b s = m at hb ⊢
      obtain ⟨began, t⟩ := m
      cases began
      · exact hb
      · exact hb.trans (ih ..)
    · exact .rfl

/-- The second move of a swap is counted when the first has begun. -/
theorem WithinBudget.moveAfter {x : State} (hc : x.csr = s.csr) (hx : x.mem.moves ≤ s.mem.moves + 1) (hb : s.mem.moves + 2 ≤ moveBudget s)
    (a b : Blk) : WithinBudget s (Machine.moveAfter a b x) := by
  refine ⟨hc, fun _ => ?_⟩
  change x.mem.moves + 1 ≤ _
  omega

/-- A swap begins only where the budget has room for both its moves. -/
theorem swap_withinBudget (hot : Bool) (a b c : Blk) (hb : s.mem.moves + 2 ≤ moveBudget s) : WithinBudget s (moveAfter a b (beginMove hot c s).2) := by
  obtain ⟨hc, h1, -⟩ := beginMove_counts hot c s
  exact .moveAfter hc h1 hb a b

theorem swapBlocks_withinBudget (l : List (Blk × Blk)) (n : Nat) (s : State) : WithinBudget s (swapBlocks l n s).2 := by
  induction l generalizing n s with
  | nil => exact .rfl
  | cons p r ih =>
    unfold swapBlocks
    split
    · exact .rfl
    · next hg =>
      have hb : s.mem.moves + 2 ≤ moveBudget s := by omega
      split
      · exact (swap_withinBudget _ _ _ _ hb).trans (ih ..)
      · split
        · exact (swap_withinBudget _ _ _ _ hb).trans (ih ..)
        · exact ((beginMove_withinBudget ..).trans (beginMove_withinBudget ..)).trans (ih ..)

theorem epochMoves_withinBudget (s : State) : WithinBudget s (epochMoves s).2 := by
  unfold epochMoves
  dsimp only
  split
  · exact demoteBlocks_withinBudget ..
  · split
    · exact promoteBlocks_withinBudget ..
    · exact swapBlocks_withinBudget ..

/-! ### The end of a move (R131) -/

theorem freeFrame_blocksKept (f : Nat) (s : State) : (freeFrame f s).mem.blocks = s.mem.blocks := by
  unfold freeFrame
  split
  · rfl
  · split <;> rfl

theorem l1Forget_blocksKept (fs : List Nat) (s : State) : (l1Forget fs s).mem.blocks = s.mem.blocks := rfl

theorem blkFind_moveBlock {ti r i f g : Nat} {b : Blk} (hb : blkFind s ti r i = some b) (hg : b.frame = some g) :
    blkFind (moveBlock b f s) ti r i = some { b with frame := some f, moving := none, swapFor := none } := by
  obtain ⟨rfl, rfl, rfl⟩ := blkFind_place hb
  simp only [moveBlock, hg]
  rw [blkFind_congr (freeFrame_blocksKept ..), blkFind_congr (l1Forget_blocksKept ..), blkFind_updBlk_same]
  · exact congrArg (Option.map _) hb
  · exact fun _ => ⟨rfl, rfl, rfl⟩

/-- The partner of a swap moves, and no other block changes. -/
theorem blkFind_partnerMove {ti r i : Nat} {p : Option (Nat × Nat × Nat)} (hp : p ≠ some (ti, r, i)) :
    blkFind (partnerMove p s) ti r i = blkFind s ti r i := by
  unfold partnerMove
  split
  · rfl
  · next k =>
    split
    · rfl
    · split
      · split
        · rfl
        · split
          · next h =>
            obtain ⟨m, rfl, hbl, -⟩ := takeFrame_framesOnly h
            rw [blkFind_updBlk_of_ne (fun e => hp (by rw [e]))]
            · exact blkFind_congr hbl ..
            · exact fun _ => ⟨rfl, rfl, rfl⟩
          · rfl
      · rfl

end Sys2Proof.Machine
end

section
/-! Channels that retrain, the scrubber, tiering and the crossings and rows of on-chip memory (R23 to R25, R45, R112 to R131, R144, R146). -/

namespace Sys2Proof.Machine

open Sys2Proof

variable {s : State}

/-! ### Link errors and retraining (R112, R113) -/

theorem thawed_of_running (hz : s.tel.frozen = false) (t : State) : thawed s t = t := if_neg (by simp [hz])

/-- A channel that has begun to retrain, its error counted, before its fence is looked at. -/
def retrainBegun (mc ch : Nat) (s : State) : State :=
  let x := 16 * mc + ch
  let t := now s (0x20 + mc)
  let recent := (lookD s.mem.retrains x []).filter (fun y => decide (t < y + second))
  warn 1 1 (bump (blkMc mc) 0x124 (s.setMem { s.mem with
    retrains := put s.mem.retrains x (t :: recent), retraining := x :: s.mem.retraining.filter (fun y => y != x) }))

section
variable {mc ch retry : Nat} (hm : mc < 6) (hc : ch < 16) (hin : s.mem.channels.contains (16 * mc + ch) = true)
  (hf : has s.mem.fenced (16 * mc + ch) = false)
include hm hc hin hf

theorem linkCrcFail_used : ¬ (5 < mc ∨ 15 < ch ∨ (!s.mem.channels.contains (16 * mc + ch)) = true ∨ has s.mem.fenced (16 * mc + ch) = true) := by
  simp only [hin, hf, Bool.not_true, Bool.false_eq_true, or_false]
  omega

theorem linkCrcFail_early (h : retry < cell s (blkMc mc) 0x10C % 16) : exec (.linkCrcFail mc ch retry) s = .next s :=
  congrArg _ ((if_neg (linkCrcFail_used hm hc hin hf)).trans (if_pos h))

theorem linkCrcFail_last (h : cell s (blkMc mc) 0x10C % 16 ≤ retry) : exec (.linkCrcFail mc ch retry) s = .next (settle (
    if 8 < ((lookD s.mem.retrains (16 * mc + ch) []).filter (fun y => decide (now s (0x20 + mc) < y + 1000000000))).length + 1
    then fenceChannel mc ch 3 (retrainBegun mc ch s) else retrainBegun mc ch s)) :=
  congrArg _ ((if_neg (linkCrcFail_used hm hc hin hf)).trans (if_neg (by omega)))

end

theorem retrainBegun_counted (mc ch : Nat) (s : State) : (retrainBegun mc ch s).mem.retraining.contains (16 * mc + ch) = true ∧
    cell (retrainBegun mc ch s) (blkMc mc) 0x124 = (cell s (blkMc mc) 0x124 + 1) % 2 ^ 32 :=
  ⟨by simp [retrainBegun, warn, bump, bumpBy, setCell], cell_setCell_same ..⟩

/-- The channel retrains no more. -/
def retrainEnded (mc ch : Nat) (s : State) : State := s.setMem { s.mem with retraining := s.mem.retraining.filter (fun y => y != 16 * mc + ch) }

theorem channelRetrainDone_served {mc ch : Nat} (h : s.mem.retraining.contains (16 * mc + ch) = true) (trained : Bool) :
    exec (.channelRetrainDone mc ch trained) s = .next (
      if trained then settle (releaseAccs (retrainEnded mc ch s)) else settle (fenceChannel mc ch 3 (retrainEnded mc ch s))) :=
  congrArg _ (if_neg (by simp only [h, Bool.not_true, Bool.false_eq_true, not_false_eq_true]))

theorem channelRetrainDone_other {mc ch : Nat} (h : s.mem.retraining.contains (16 * mc + ch) = false) (trained : Bool) :
    exec (.channelRetrainDone mc ch trained) s = .next s :=
  congrArg _ (if_pos (by simp only [h, Bool.not_false]))

/-- Where no access waits, none is released. -/
theorem releaseAccs_none (h : s.mem.heldAcc = []) : releaseAccs s = s := by
  have hs : s.setMem { s.mem with heldAcc := [] } = s := by
    rw [show { s.mem with heldAcc := [] } = s.mem by rw [← h]]
    rfl
  simp only [releaseAccs, h, List.filter_nil, List.foldl_nil, hs]

/-! ### Placement, scrubbing and tiering (R43, R123, R128 to R131) -/

section
variable (hz : s.tel.frozen = false)
include hz

theorem poisonedBlockPlaced_places {ti r i f : Nat} {b : Blk} {y : State} (hb : blkFind s ti r i = some b) (hn : b.frame = none)
    (hf : recoverFrame b.cls s = some (f, y)) : ∃ x, exec (.poisonedBlockPlaced ti r i) s = .next (settle x) ∧
      (∃ b', blkFind x ti r i = some b' ∧ b'.frame = some f) ∧ x.mem.cells = y.mem.cells := by
  obtain ⟨m, rfl, hbl, -⟩ := recoverFrame_framesOnly hf
  have he : exec (.poisonedBlockPlaced ti r i) s = .next (thawed s _) := rfl
  simp only [hb, hn, hf, Option.isSome_none, Bool.false_eq_true, if_false, thawed_of_running hz] at he
  refine ⟨_, he, ⟨{ b with frame := some f }, ?_, rfl⟩, by rw [updTbl_mem]; rfl⟩
  rw [blkFind_congr (congrArg Mem.blocks (updTbl_mem ..)), blkFind_updBlk_same]
  · exact congrArg (Option.map _) ((blkFind_congr hbl ti r i).trans hb)
  · exact fun _ => ⟨rfl, rfl, rfl⟩

theorem scrubRead_waits {dpa : Nat} (h : channelHeld s dpa = true) (lf : Option LineFault) : exec (.scrubRead dpa lf) s = .next s :=
  congrArg _ ((thawed_of_running hz _).trans (if_pos (by simp only [h, Bool.true_or])))

theorem scrubRead_reads {dpa : Nat} (h : channelHeld s dpa = false) (hot : isHotFrame (dpa / 65536) = true) (hp : hotPopulated s (dpa / 65536) = true)
    (hr : retired s (dpa / 65536) = false) (hon : (cell s (blkMc (frameChan s (dpa / 65536) / 16)) 0x114).testBit 31 = true) (fault : Option LineFault) :
    exec (.scrubRead dpa fault) s = .next (
      let y := setCell (blkMc (frameChan s (dpa / 65536) / 16)) 0x118 (dpa / 65536) s
      match fault with | some lf => settle (lineFault { lf with dpa := dpa / 128 * 128 } y) | none => y) := by
  have hfb : frameBytes = 65536 := rfl
  have he : exec (.scrubRead dpa fault) s = .next (thawed s _) := rfl
  simp only [thawed_of_running hz, h, hfb, hot, hp, hr, hon, Bool.true_and, Bool.not_true, Bool.not_false, Bool.or_self, Bool.false_eq_true,
    if_false] at he
  exact he

/-- The state in which an epoch's policy acts. -/
def epochBegun (s : State) : State := s.setMem { s.mem with moves := 0 }

theorem tierEpochEnd_off (h : (cell s blkTable 0x10000).testBit 31 = false ∨ isolated s blkTable = true) :
    exec .tierEpochEnd s = .next (heatHalved (epochBegun s)) :=
  congrArg _ ((thawed_of_running hz _).trans (if_pos (by
    rw [Bool.or_eq_true, Bool.not_eq_true']
    exact h)))

section
variable {p d w : Nat} {x : State} (hon : (cell s blkTable 0x10000).testBit 31 = true) (hi : isolated s blkTable = false)
  (he : epochMoves (epochBegun s) = ((p, d, w), x))
include hon hi he

omit hz hon hi in
theorem epochMoves_budget : x.mem.moves ≤ moveBudget s := by
  have h := (epochMoves_withinBudget (epochBegun s)).moves (Nat.zero_le _)
  rw [he, moveBudget_congr (t := epochBegun s) (s := s) rfl] at h
  exact h

theorem tierEpochEnd_on : exec .tierEpochEnd s = .next (
    if (p, d, w) = (0, 0, 0) then heatHalved x
    else logPolicy 0x40 1 6 0 (hotFreeCount s % 2 ^ 22 + p % 2 ^ 22 * 2 ^ 22 + w % 2 ^ 20 * 2 ^ 44)
      ((hotFreeCount s + d - p) % 2 ^ 22 + d % 2 ^ 22 * 2 ^ 22 + w / 2 ^ 20 % 2 ^ 20 * 2 ^ 44) (heatHalved x)) := by
  have hg : ¬ ((!(cell s blkTable 0x10000).testBit 31 || isolated s blkTable) = true) := by
    rw [hon, hi]
    exact Bool.false_ne_true
  refine congrArg _ ((thawed_of_running hz _).trans ((if_neg hg).trans ?_))
  rw [← epochBegun, he]

end

theorem tierMoveComplete_moves {ti r i f g : Nat} {b : Blk} (hb : blkFind s ti r i = some b) (hm : b.moving = some f) (hg : b.frame = some g)
    (hp : b.swapFor ≠ some (ti, r, i)) : ∃ x b', exec (.tierMoveComplete ti r i) s = .next (settle x) ∧ blkFind x ti r i = some b' ∧
      b'.frame = some f ∧ b'.moving = none := by
  have he : exec (.tierMoveComplete ti r i) s = .next (thawed s _) := rfl
  simp only [hb, hm, thawed_of_running hz] at he
  refine ⟨_, { b with frame := some f, moving := none, swapFor := none }, he, ?_, rfl, rfl⟩
  rw [blkFind_partnerMove hp]
  refine blkFind_moveBlock ?_ hg
  split <;> exact hb

end

/-! ### Crossings and rows of on-chip memory (R23 to R25, R45, R144, R146) -/

/-- The mark of a sparing event is none of what recording says. -/
theorem Recorded.setErr_sparing {t : State} {b cls src : Nat} {info : List Nat} (h : Recorded s t b cls src info) :
    Recorded s (setErr b { errOf t b with sparing := true } t) b cls src info := by
  unfold Recorded at h ⊢
  rwa [errOf_setErr_same]

theorem recorded_crossCon (sparing : Bool) (block crossing : Nat) (s : State) : Recorded s (crossCon sparing block crossing s) block 2 1 [crossing] := by
  unfold crossCon
  split
  · exact (recorded_noteErr block 2 1 [crossing] s).setErr_sparing
  · exact recorded_noteErr block 2 1 [crossing] s

theorem crossCon_mem (sparing : Bool) (block crossing : Nat) (s : State) : (crossCon sparing block crossing s).mem = s.mem := by
  unfold crossCon
  split
  · exact noteErr_mem ..
  · exact noteErr_mem ..

/-- The part once what was inside a crossing has been reissued or has completed. -/
def crossReset (inside : List CrossWork) (s : State) : State := settle (stoSettle (inside.foldl (fun s w => crossLost w s) s))

/-- What a mismatch does once the crossing has reset. -/
def crossMismatched (crossing block : Nat) (parity : List Nat) (y : State) : State :=
  if y.mem.crossSpared.contains crossing then crossCluster block parity (crossCon (crossSparesOut block y) block crossing y)
  else
    let x := crossNoted crossing (now y (blkIsland block)) (crossCon (crossedAgain y block crossing) block crossing y)
    if crossedAgain y block crossing then logSpare block 0x0004 crossing 0 (ackSpare block (crossSwitched crossing x)) else x

theorem crossingMismatch_eq {block : Nat} (hb : block < 61) (crossing : Nat) (inside : List CrossWork) (parity : List Nat) (s : State) :
    exec (.crossingMismatch crossing ⟨block, inside, parity⟩) s = .next (crossMismatched crossing block parity (crossReset inside s)) := by
  change execCrossingMismatch crossing ⟨block, inside, parity⟩ s = _
  unfold execCrossingMismatch
  dsimp only
  rw [if_neg (by omega), ← crossReset, crossMismatched]

section
variable {crossing block : Nat} (parity : List Nat) (y : State)

theorem crossMismatched_spared (h : y.mem.crossSpared.contains crossing = true) : ∃ x, Recorded y x block 2 1 [crossing] ∧ x.mem = y.mem ∧
    crossMismatched crossing block parity y = crossCluster block parity x :=
  ⟨_, recorded_crossCon .., crossCon_mem .., if_pos h⟩

theorem crossMismatched_fresh (h : y.mem.crossSpared.contains crossing = false) :
    ∃ x, x.mem.crossFails = put y.mem.crossFails crossing (now y (blkIsland block)) ∧ Recorded y x block 2 1 [crossing] ∧
      crossMismatched crossing block parity y = if crossedAgain y block crossing then
        logSpare block 0x0004 crossing 0 (ackSpare block (x.setMem { x.mem with crossSpared := y.mem.crossSpared ++ [crossing] })) else x := by
  let x := crossNoted crossing (now y (blkIsland block)) (crossCon (crossedAgain y block crossing) block crossing y)
  have hm := crossCon_mem (crossedAgain y block crossing) block crossing y
  have hfails : x.mem.crossFails = put y.mem.crossFails crossing (now y (blkIsland block)) := congrArg (fun m : Mem => put m.crossFails crossing _) hm
  have hspared : x.mem.crossSpared = y.mem.crossSpared :=
    show (crossCon (crossedAgain y block crossing) block crossing y).mem.crossSpared = _ from congrArg Mem.crossSpared hm
  refine ⟨x, hfails, (recorded_crossCon (crossedAgain y block crossing) block crossing y).congr rfl, ?_⟩
  rw [crossMismatched, if_neg (by rw [h]; exact Bool.false_ne_true), ← hspared]
  rfl

end

/-- What an error recorded in a part with the same headers and clocks says of this one. -/
theorem Recorded.of_same {s' t : State} {b cls src : Nat} {info : List Nat} (h : Recorded s' t b cls src info) (he : s'.err = s.err)
    (ht : s'.time = s.time) : Recorded s t b cls src info := by
  have hst : stamp s' b = stamp s b := by simp only [stamp, stampIsl, now, ht]
  unfold Recorded at h ⊢
  rwa [errOf_congr he, hst] at h

/-- A policy record changes the log and the count of records lost. -/
theorem logPolicy_eq (isl policy reason object old new : Nat) (s : State) : ∃ c t, logPolicy isl policy reason object old new s = (s.setCsr c).setTel t := by
  unfold logPolicy
  exact iteInduction (motive := fun x => ∃ c t, x = (s.setCsr c).setTel t) (fun _ => ⟨_, _, rfl⟩) (fun _ => ⟨s.csr, _, rfl⟩)

theorem logSpare_eq (b src unit extra : Nat) (s : State) : ∃ c t, logSpare b src unit extra s =
    noteErr b 1 src [unit, extra] (((s.setMem { s.mem with sparesUsed := s.mem.sparesUsed + 1 }).setCsr c).setTel t) := by
  obtain ⟨c, t, h⟩ := logPolicy_eq (blkIsland b) 7 4 b 0 unit (s.setMem { s.mem with sparesUsed := s.mem.sparesUsed + 1 })
  exact ⟨c, t, by rw [logSpare, h, recordCor]⟩

theorem logSpare_records (b src unit extra : Nat) (s : State) : (logSpare b src unit extra s).mem = { s.mem with sparesUsed := s.mem.sparesUsed + 1 } ∧
    (logSpare b src unit extra s).sec = s.sec ∧ Recorded s (logSpare b src unit extra s) b 1 src [unit, extra] := by
  obtain ⟨c, t, h⟩ := logSpare_eq b src unit extra s
  rw [h]
  exact ⟨noteErr_mem .., noteErr_sec .., (recorded_noteErr ..).of_same rfl rfl⟩

/-- A list of entries changed by key. -/
theorem look_map_key {α : Type} (p : Nat → Bool) (f : α → α) (l : List (Nat × α)) (k : Nat) :
    look (l.map (fun e => if p e.1 then (e.1, f e.2) else e)) k = (look l k).map (fun x => if p k then f x else x) := by
  induction l with
  | nil => rfl
  | cons e r ih =>
    obtain ⟨a, x⟩ := e
    by_cases ha : a = k
    · subst ha
      by_cases hp : p a = true <;> simp [look, hp]
    · by_cases hp : p a = true <;> simp [look, hp, ha, ih]

/-- The keys that a replaced row had lost are there again. -/
theorem rowRestored_key {code h m : Nat} {e : Key} (hl : s.mem.vaultLost.contains (code, h) = true) (hk : look s.sec.keys h = some e)
    (he : e.material = none) (hm : e.sealedCopy = some m) : (look (rowRestored code s).sec.keys h).map (·.material) = some (some m) := by
  have hany : (s.mem.vaultLost.filter (fun x => x.1 == code)).any (fun x => x.2 == h) = true :=
    List.any_eq_true.mpr ⟨(code, h), List.mem_filter.mpr ⟨by simpa using hl, beq_self_eq_true _⟩, beq_self_eq_true _⟩
  have hlook := look_map_key (fun k => (s.mem.vaultLost.filter (fun x => x.1 == code)).any (fun x => x.2 == k))
    (fun x : Key => { x with material := x.material.or x.sealedCopy, sealedCopy := none }) s.sec.keys h
  rw [hk, hany] at hlook
  refine (congrArg (Option.map (·.material)) hlook).trans ?_
  simp [he, hm]

/-- The replacement of a row that is due, before it is logged: its failures are forgotten. -/
def rowReplaced (code : Nat) (s : State) : State :=
  rowRestored code (s.setMem { s.mem with
    sramUsed := s.mem.sramUsed + 1, sramDue := s.mem.sramDue.filter (fun c => c != code), sramFails := del s.mem.sramFails code })

section
variable {block sram row : Nat} {isColumn : Bool} (hb : block < 61) (key : Option VaultKey)
include hb

theorem sramRowSpared_due (hd : s.mem.sramDue.contains (sramCode block sram row isColumn) = true) (hu : s.mem.sramUsed < Config.sramSpares) :
    exec (.sramRowSpared block sram row ⟨isColumn, true, key⟩) s =
      .next (logSpare block 0x0003 sram (row + bit isColumn * 2 ^ 31) (rowReplaced (sramCode block sram row isColumn) s)) :=
  congrArg _ ((if_neg (by omega)).trans ((if_pos rfl).trans (if_pos (by
    rw [hd, Bool.true_and, decide_eq_true_eq]
    exact hu))))

theorem sramRowSpared_notDue (h : ¬ (s.mem.sramDue.contains (sramCode block sram row isColumn) = true ∧ s.mem.sramUsed < Config.sramSpares)) :
    exec (.sramRowSpared block sram row ⟨isColumn, true, key⟩) s = .next s :=
  congrArg _ ((if_neg (by omega)).trans ((if_pos rfl).trans (if_neg (by rwa [Bool.and_eq_true, decide_eq_true_eq]))))

theorem sramRowSpared_parity : exec (.sramRowSpared block sram row ⟨isColumn, false, key⟩) s = .next (
    if block = blkCipher then
      (match key with
       | some k => vaultKeyLost (sramCode block sram row isColumn) k (sramParity (sramCode block sram row isColumn) (now s (blkIsland block)) s)
       | none => sramParity (sramCode block sram row isColumn) (now s (blkIsland block)) s)
    else sramParity (sramCode block sram row isColumn) (now s (blkIsland block)) s) :=
  congrArg _ ((if_neg (by omega)).trans (if_neg Bool.false_ne_true))

/-- A row that is due is spared (R45, R146). -/
theorem sramRowSpared_spares (hd : s.mem.sramDue.contains (sramCode block sram row isColumn) = true) (hu : s.mem.sramUsed < Config.sramSpares) :
    let code := sramCode block sram row isColumn
    ∃ t, exec (.sramRowSpared block sram row ⟨isColumn, true, key⟩) s = .next t ∧ t.mem.sparesUsed = s.mem.sparesUsed + 1 ∧
      t.mem.sramUsed = s.mem.sramUsed + 1 ∧ t.mem.sramDue.contains code = false ∧ look t.mem.sramFails code = none ∧ t.mem.cells = s.mem.cells ∧
      (∀ h e m, s.mem.vaultLost.contains (code, h) = true → look s.sec.keys h = some e → e.material = none → e.sealedCopy = some m →
        (look t.sec.keys h).map (·.material) = some (some m)) ∧
      Recorded s t block 1 3 [sram, row + if isColumn then 2 ^ 31 else 0] := by
  intro code
  obtain ⟨hmem, hsec, hrec⟩ := logSpare_records block 3 sram (row + bit isColumn * 2 ^ 31) (rowReplaced code s)
  refine ⟨_, sramRowSpared_due hb key hd hu, ?_⟩
  rw [hmem, hsec]
  refine ⟨rfl, rfl, ?_, look_del_same .., rfl, fun h e m hl hk he hm => rowRestored_key hl hk he hm, ?_⟩
  · exact show (s.mem.sramDue.filter (fun c => c != code)).contains code = false by simp
  · have hbit : bit isColumn * 2 ^ 31 = if isColumn then 2 ^ 31 else 0 := by cases isColumn <;> rfl
    rw [hbit] at hrec ⊢
    exact hrec.of_same rfl rfl

end

/-- The row failed parity less than 1 s ago. -/
def failedAgain (block code : Nat) (s : State) : Bool :=
  match look s.mem.sramFails code with | some t0 => decide (now s (blkIsland block) < t0 + second) | none => false

theorem sramParity_due (block code : Nat) (s : State) :
    (sramParity code (now s (blkIsland block)) s).mem.sramDue.contains code = (failedAgain block code s || s.mem.sramDue.contains code) := by
  change (if (failedAgain block code s && !s.mem.sramDue.contains code) = true then s.mem.sramDue ++ [code] else s.mem.sramDue).contains code = _
  cases failedAgain block code s <;> cases h : s.mem.sramDue.contains code <;> simp_all

/-- A provisioned key erased from the vault, its sealed copy left (R144). -/
def keyErased (h : Nat) (e : Key) (s : State) : State :=
  s.setSec { s.sec with keys := put s.sec.keys h { e with material := none, sealedCopy := e.sealedCopy.or e.material },
                        keyCache := s.sec.keyCache.filter (fun x => some x.1 != e.material) }

theorem vaultWordLost_eq {h : Nat} {e : Key} (he : keyOf s h = some e) : vaultWordLost h s = settle (stoSettle (abortKeyless (keyErased h e s))) := by
  simp only [vaultWordLost, he, keyErased]

theorem vaultKeyLost_provisioned {code h : Nat} {e : Key} (he : keyOf s h = some e) : ∃ z, vaultKeyLost code (.provisioned h) s =
    settle (stoSettle (abortKeyless z)) ∧ look z.sec.keys h = some { e with material := none, sealedCopy := e.sealedCopy.or e.material } :=
  ⟨_, vaultWordLost_eq (s := s.setMem { s.mem with vaultLost := (code, h) :: s.mem.vaultLost.filter (· != (code, h)) }) he, look_put_same ..⟩

/-- A failure of parity (R45, R144). -/
theorem sramRowSpared_fails {block sram row : Nat} (isColumn : Bool) (key : Option VaultKey) (hb : block < 61) :
    let code := sramCode block sram row isColumn
    let again := failedAgain block code s
    ∃ x, x = s.setMem { s.mem with sramFails := put s.mem.sramFails code (now s (blkIsland block)), sramDue := x.mem.sramDue } ∧
      (x.mem.sramDue.contains code = (again || s.mem.sramDue.contains code)) ∧
      (block ≠ blkCipher ∨ key = none → exec (.sramRowSpared block sram row ⟨isColumn, false, key⟩) s = .next x) ∧
      ∀ k, block = blkCipher → key = some k → exec (.sramRowSpared block sram row ⟨isColumn, false, key⟩) s = .next (vaultKeyLost code k x) ∧
        (k = .deviceId → (vaultKeyLost code k x).sec.deviceKey = false) ∧ (k = .aliasKey → (vaultKeyLost code k x).sec.identity = false) ∧
        ∀ h e, k = .provisioned h → keyOf s h = some e → ∃ z, vaultKeyLost code k x = settle (stoSettle (abortKeyless z)) ∧
          look z.sec.keys h = some { e with material := none, sealedCopy := e.sealedCopy.or e.material } := by
  intro code again
  refine ⟨sramParity code (now s (blkIsland block)) s, rfl, sramParity_due .., fun h => ?_, fun k hc hk => ⟨?_, ?_, ?_, ?_⟩⟩
  · rw [sramRowSpared_parity hb]
    rcases h with h | rfl
    · rw [if_neg h]
    · exact congrArg _ (ite_self _)
  · rw [sramRowSpared_parity hb, if_pos hc, hk]
  · rintro rfl
    rfl
  · rintro rfl
    rfl
  · rintro h e rfl he
    exact vaultKeyLost_provisioned he

/-! ### The statement -/

/-- Settles O37: each row by the state it leaves before the rest of the part goes on. -/
theorem memoryChannelsRetrainAndFence : Obligations.MemoryChannelsRetrainAndFence := by
  unfold Obligations.MemoryChannelsRetrainAndFence
  refine ⟨fun mc ch retry s hm hc hin hf => ⟨linkCrcFail_early hm hc hin hf, fun h => ?retrain⟩,
    fun mc ch s => ⟨fun h => ⟨channelRetrainDone_served h true, fun hn => ?release, channelRetrainDone_served h false⟩, channelRetrainDone_other⟩,
    fun block link s hb hl => congrArg _ (if_neg (by omega)),
    fun ti r i f b s y hz hb hn hf => poisonedBlockPlaced_places hz hb hn hf,
    fun dpa s hz => ⟨scrubRead_waits hz, fun h hot hp hr hon => ⟨scrubRead_reads hz h hot hp hr hon none,
      fun lf => scrubRead_reads hz h hot hp hr hon (some lf)⟩⟩,
    fun s hz => ⟨tierEpochEnd_off hz, fun p d w x hon hi he => ⟨epochMoves_budget he, fun h => ?still, fun h => ?logged⟩⟩,
    fun ti r i f g b s hz hb hm hg hp => tierMoveComplete_moves hz hb hm hg hp,
    fun crossing block inside parity s hb => ?crossing,
    fun block sram row isColumn key s hb => ⟨fun h => sramRowSpared_spares hb key h.1 h.2, sramRowSpared_notDue hb key,
      sramRowSpared_fails isColumn key hb⟩⟩
  case retrain =>
    obtain ⟨hret, hcell⟩ := retrainBegun_counted mc ch s
    exact ⟨retrainBegun mc ch s, linkCrcFail_last hm hc hin hf h, hret, rfl, hcell, rfl, rfl, rfl⟩
  case release =>
    rw [channelRetrainDone_served h true, if_pos rfl, releaseAccs_none (s := retrainEnded mc ch s) hn]
    rfl
  case still => rw [tierEpochEnd_on hz hon hi he, if_pos h]
  case logged => rw [tierEpochEnd_on hz hon hi he, if_neg h]
  case crossing =>
    intro y
    rw [show exec (.crossingMismatch crossing ⟨block, inside, parity⟩) s = .next (crossMismatched crossing block parity y) from
      crossingMismatch_eq hb crossing inside parity s]
    clear_value y
    refine ⟨fun h => ?_, fun h => ?_⟩
    · obtain ⟨x, hrec, hmem, he⟩ := crossMismatched_spared (block := block) parity y h
      exact ⟨x, hrec, hmem, congrArg _ he⟩
    · obtain ⟨x, hfails, hrec, he⟩ := crossMismatched_fresh (block := block) parity y h
      exact ⟨x, hfails, hrec, congrArg _ he⟩

end Sys2Proof.Machine
end

section
/-! Views of the state (R40, R387, R590). A view reads of a state what no step of the part's own work touches: its laws say which parts of the state
it does not read, and of the functions, the sessions and the connections only what work leaves as it is. One lemma for each function says that
every view is the same after it; which views there are is said where they are used. -/

namespace Sys2Proof.Machine

open Sys2Proof

/-- A function but for what the part's work counts and keeps of it. -/
def Fn.core (f : Fn) : Fn := { f with dirty := none, kept := [], lateDiscarded := 0, spoofDrops := 0, reclaim := {} }

/-- The functions by number, each without what work counts of it. -/
def standing (l : List (Nat × Fn)) : List (Nat × Fn) := l.map (fun e => (e.1, e.2.core))

/-- The connections by handle with their owners. -/
def connOwners (l : List (Nat × Conn)) : List (Nat × Nat) := l.map (fun e => (e.1, e.2.owner))

/-- Two lists of sessions have one for the same functions' rings. -/
def SameRings (l m : List (Via × Session)) : Prop := ∀ k, has l (.ring k) = has m (.ring k)

@[simp] theorem sameRings_refl (l : List (Via × Session)) : SameRings l l := fun _ => rfl

theorem sameRings_put_mgmt (l : List (Via × Session)) (p : Nat) (x : Session) : SameRings (put l (.mgmt p) x) l :=
  fun _ => congrArg Option.isSome (look_put_of_ne _ _ Via.noConfusion)

/-- What is read of a state that the part's own work leaves as it is. -/
structure View (α : Type) where
  get : State → α
  draw : ∀ s x, get (s.setDraw x) = get s
  out : ∀ s x, get (s.setOut x) = get s
  csr : ∀ s x, get (s.setCsr x) = get s
  err : ∀ s x, get (s.setErr x) = get s
  perf : ∀ s x, get (s.setPerf x) = get s
  tel : ∀ s x, get (s.setTel x) = get s
  icp : ∀ (s : State) x, SameRings x.sessions s.icp.sessions → get (s.setIcp x) = get s
  rings : ∀ s x, get (s.setRings x) = get s
  fns : ∀ (s : State) x, standing x = standing s.fns → get (s.setFns x) = get s
  ports : ∀ s x, get (s.setPorts x) = get s
  mem : ∀ s x, get (s.setMem x) = get s
  act : ∀ (s : State) x, { x with act := s.boot.act } = s.boot → get (s.setBoot x) = get s
  tab : ∀ s x, get (s.setTab x) = get s
  course : ∀ s x, get (s.setCourse x) = get s
  elastic : ∀ s x, get (s.setElastic x) = get s
  mason : ∀ s x, get (s.setMason x) = get s
  keyCache : ∀ (s : State) x, get (s.setSec { s.sec with keyCache := x }) = get s
  pages : ∀ s x, get (s.setPages x) = get s
  sto : ∀ s x, get (s.setSto x) = get s
  grt : ∀ (s : State) x, connOwners x.conns = connOwners s.grt.conns → x.mrs = s.grt.mrs → get (s.setGrt x) = get s
  pp : ∀ s x, get (s.setPp x) = get s

variable {α : Type} {V : View α}

/-! ### The laws of a view, for `simp` -/

@[simp] theorem View.get_setDraw (s : State) (x) : V.get (s.setDraw x) = V.get s := V.draw s x
@[simp] theorem View.get_setOut (s : State) (x) : V.get (s.setOut x) = V.get s := V.out s x
@[simp] theorem View.get_setCsr (s : State) (x) : V.get (s.setCsr x) = V.get s := V.csr s x
@[simp] theorem View.get_setErr (s : State) (x) : V.get (s.setErr x) = V.get s := V.err s x
@[simp] theorem View.get_setPerf (s : State) (x) : V.get (s.setPerf x) = V.get s := V.perf s x
@[simp] theorem View.get_setTel (s : State) (x) : V.get (s.setTel x) = V.get s := V.tel s x
@[simp] theorem View.get_setRings (s : State) (x) : V.get (s.setRings x) = V.get s := V.rings s x
@[simp] theorem View.get_setPorts (s : State) (x) : V.get (s.setPorts x) = V.get s := V.ports s x
@[simp] theorem View.get_setMem (s : State) (x) : V.get (s.setMem x) = V.get s := V.mem s x
@[simp] theorem View.get_setTab (s : State) (x) : V.get (s.setTab x) = V.get s := V.tab s x
@[simp] theorem View.get_setCourse (s : State) (x) : V.get (s.setCourse x) = V.get s := V.course s x
@[simp] theorem View.get_setElastic (s : State) (x) : V.get (s.setElastic x) = V.get s := V.elastic s x
@[simp] theorem View.get_setMason (s : State) (x) : V.get (s.setMason x) = V.get s := V.mason s x
@[simp] theorem View.get_setPages (s : State) (x) : V.get (s.setPages x) = V.get s := V.pages s x
@[simp] theorem View.get_setSto (s : State) (x) : V.get (s.setSto x) = V.get s := V.sto s x
@[simp] theorem View.get_setPp (s : State) (x) : V.get (s.setPp x) = V.get s := V.pp s x
@[simp] theorem View.get_setIcp {s : State} {x : Icp} (h : SameRings x.sessions s.icp.sessions) :
    V.get (s.setIcp x) = V.get s := V.icp s x h
@[simp] theorem View.get_setGrt {s : State} {x : Grt} (hc : connOwners x.conns = connOwners s.grt.conns) (hm : x.mrs = s.grt.mrs) :
    V.get (s.setGrt x) = V.get s := V.grt s x hc hm
@[simp] theorem View.get_setKeyCache (s : State) (x) : V.get (s.setSec { s.sec with keyCache := x }) = V.get s := V.keyCache s x

@[simp] theorem View.get_ite (c : Prop) [Decidable c] (s t : State) : V.get (if c then s else t) = if c then V.get s else V.get t :=
  apply_ite V.get c s t

@[simp] theorem View.get_foldl {β : Type} {f : State → β → State} (h : ∀ s x, V.get (f s x) = V.get s) (l : List β) (s : State) :
    V.get (l.foldl f s) = V.get s := by
  induction l generalizing s with
  | nil => rfl
  | cons x xs ih => exact (ih (f s x)).trans (h s x)

theorem View.get_foldl_snd {β γ : Type} {f : β × State → γ → β × State} (h : ∀ a x, V.get (f a x).2 = V.get a.2) (l : List γ) (a : β × State) :
    V.get (l.foldl f a).2 = V.get a.2 := by
  induction l generalizing a with
  | nil => rfl
  | cons x xs ih => exact (ih (f a x)).trans (h a x)

/-! ### Functions, connections and sessions -/

theorem standing_put {l : List (Nat × Fn)} {k : Nat} {f g : Fn} (h : look l k = some f) (hc : g.core = f.core) :
    standing (put l k g) = standing l := by
  induction l with
  | nil => cases h
  | cons e r ih =>
    obtain ⟨i, x⟩ := e
    by_cases hi : i = k
    · obtain rfl : x = f := by simpa [look, hi] using h
      simp [put, hi, standing, hc]
    · simp only [look, hi, if_false] at h
      simpa [put, hi, standing] using ih h

theorem connOwners_put {l : List (Nat × Conn)} {k : Nat} {c d : Conn} (h : look l k = some c) (hc : d.owner = c.owner) :
    connOwners (put l k d) = connOwners l := by
  induction l with
  | nil => cases h
  | cons e r ih =>
    obtain ⟨i, x⟩ := e
    by_cases hi : i = k
    · obtain rfl : x = c := by simpa [look, hi] using h
      simp [put, hi, connOwners, hc]
    · simp only [look, hi, if_false] at h
      simpa [put, hi, connOwners] using ih h

theorem updFn_view {g : Fn → Fn} (h : ∀ f, (g f).core = f.core) (fid : Nat) (s : State) : V.get (updFn fid g s) = V.get s := by
  unfold updFn
  split
  · next f hf => exact V.fns _ _ (standing_put hf (h f))
  · rfl

@[simp] theorem updFn_dirty_view (d : Fn → Option DirtyLog) (fid : Nat) (s : State) :
    V.get (updFn fid (fun f => { f with dirty := d f }) s) = V.get s :=
  updFn_view (g := fun f => { f with dirty := d f }) (fun _ => rfl) fid s

@[simp] theorem updFn_lateDiscarded_view (n : Fn → Nat) (fid : Nat) (s : State) :
    V.get (updFn fid (fun f => { f with lateDiscarded := n f }) s) = V.get s :=
  updFn_view (g := fun f => { f with lateDiscarded := n f }) (fun _ => rfl) fid s

@[simp] theorem updFn_spoofDrops_view (n : Fn → Nat) (fid : Nat) (s : State) :
    V.get (updFn fid (fun f => { f with spoofDrops := n f }) s) = V.get s :=
  updFn_view (g := fun f => { f with spoofDrops := n f }) (fun _ => rfl) fid s

theorem setConn_view {h : Nat} {c d : Conn} {s : State} (hc : connOf s h = some c) (ho : d.owner = c.owner) :
    V.get (setConn h d s) = V.get s := V.grt _ _ (connOwners_put hc ho) rfl

/-! ### Outputs, counters, functions and interrupts -/

@[simp] theorem emit_view (o : Out) (s : State) : V.get (emit o s) = V.get s := by simp [emit]

@[simp] theorem joinDomain_view (dst : Nat) (s : State) : V.get (joinDomain dst s) = V.get s := by
  simp [joinDomain]

@[simp] theorem sendDomain_view (dst : Nat) (m : DomainMsg) (s : State) : V.get (sendDomain dst m s) = V.get s := by
  simp [sendDomain]

@[simp] theorem drawn_view (s : State) : V.get (drawn s) = V.get s := by simp [drawn]

@[simp] theorem setCell_view (b rel v : Nat) (s : State) : V.get (setCell b rel v s) = V.get s := by simp [setCell]

@[simp] theorem bumpBy_view (b rel n : Nat) (s : State) : V.get (bumpBy b rel n s) = V.get s := by simp [bumpBy]

@[simp] theorem bump_view (b rel : Nat) (s : State) : V.get (bump b rel s) = V.get s := by simp [bump]

@[simp] theorem resetCfg_view (p : Nat → Bool) (s : State) : V.get (resetCfg p s) = V.get s := by simp [resetCfg]

@[simp] theorem dmaDropped_view (fid n : Nat) (s : State) : V.get (dmaDropped fid n s) = V.get s := by
  unfold dmaDropped
  split <;> simp

@[simp] theorem markPage_view (fid : Nat) (d : DirtyLog) (k : Nat) (s : State) : V.get (markPage fid d k s) = V.get s := by
  simp [markPage]

@[simp] theorem markWrite_view (fid addr n : Nat) (s : State) : V.get (markWrite fid addr n s) = V.get s := by
  unfold markWrite
  split <;> simp

@[simp] theorem dmaOut_view (fid addr : Nat) (bs : Bytes) (s : State) : V.get (dmaOut fid addr bs s) = V.get s := by
  simp [dmaOut]

@[simp] theorem raiseMsix_view (fn vec : Nat) (s : State) : V.get (raiseMsix fn vec s) = V.get s := by
  simp [raiseMsix]

/-! ### Errors and the policy log -/

@[simp] theorem setErr_view (b : Nat) (h : ErrHdr) (s : State) : V.get (setErr b h s) = V.get s := by simp [setErr]

@[simp] theorem notifyErr_view (b cls : Nat) (s : State) : V.get (notifyErr b cls s) = V.get s := by
  simp [notifyErr]

@[simp] theorem driveFault_view (before : Bool) (s : State) : V.get (driveFault before s) = V.get s := by
  simp [driveFault]

@[simp] theorem perfWith_view (b ev : Nat) (unit : Option Nat) (f : PerfCtr → PerfCtr) (s : State) :
    V.get (perfWith b ev unit f s) = V.get s := by simp [perfWith]

@[simp] theorem perfEvent_view (b ev v : Nat) (s : State) : V.get (perfEvent b ev v s) = V.get s := by simp [perfEvent]

@[simp] theorem noteErr_view (b cls src : Nat) (info : List Nat) (s : State) :
    V.get (noteErr b cls src info s) = V.get s := by
  simp [noteErr]

@[simp] theorem recordCor_view (b src : Nat) (info : List Nat) (s : State) : V.get (recordCor b src info s) = V.get s := by
  simp [recordCor]

@[simp] theorem recordCon_view (b src : Nat) (info : List Nat) (s : State) : V.get (recordCon b src info s) = V.get s := by
  simp [recordCon]

@[simp] theorem logPolicy_view (isl policy reason object old new : Nat) (s : State) :
    V.get (logPolicy isl policy reason object old new s) = V.get s := by
  simp [logPolicy]

@[simp] theorem logSpare_view (b src unit extra : Nat) (s : State) :
    V.get (logSpare b src unit extra s) = V.get s := by
  simp [logSpare]

@[simp] theorem ackSpare_view (b : Nat) (s : State) : V.get (ackSpare b s) = V.get s := by
  simp [ackSpare]

@[simp] theorem unstage_view (otype handle : Nat) (s : State) : V.get (unstage otype handle s) = V.get s := by simp [unstage]

@[simp] theorem useWorkingKey_view (k : Nat) (label : Bytes) (s : State) : V.get (useWorkingKey k label s) = V.get s := by
  simp [useWorkingKey]

/-! ### Custody memory and its frames -/

@[simp] theorem setCells_view (m : List Host.Cell) (s : State) : V.get (setCells m s) = V.get s := by simp [setCells]

theorem takeHot_view (may : Nat → Bool) (s : State) : ∀ t, takeHot may s = some t → V.get t.2 = V.get s := by
  unfold takeHot
  dsimp only
  rintro t h
  split at h
  · cases h; simp
  · split at h <;> cases h; simp

theorem takeFrame_view (hot reserve : Bool) (s : State) : ∀ t, takeFrame hot reserve s = some t → V.get t.2 = V.get s := by
  unfold takeFrame
  rintro t h
  split at h
  · split at h
    · exact takeHot_view _ s t h
    · split at h
      · cases h; simp
      · dsimp only at h
        obtain ⟨-, h⟩ := Option.ite_none_right_eq_some.mp h
        cases h
        simp
  · cases h

@[simp] theorem freeFrame_view (f : Nat) (s : State) : V.get (freeFrame f s) = V.get s := by
  simp [freeFrame]

theorem takeSingles_view (hot : Bool) (use : FrameUse) (fuel : Nat) (s : State) :
    ∀ t, takeSingles hot use fuel s = some t → V.get t = V.get s := by
  induction fuel generalizing s with
  | zero => rintro t ⟨⟩; rfl
  | succ n ih =>
    rintro t h
    obtain ⟨fs, hf, ht⟩ := Option.bind_eq_some_iff.mp h
    exact (ih _ t ht).trans ((V.mem ..).trans (takeFrame_view hot false s fs hf))

@[simp] theorem takeRun_view (use : FrameUse) (n : Nat) (s : State) : V.get (takeRun use n s) = V.get s := by simp [takeRun]

theorem takeExtent_view (use : FrameUse) (n : Nat) (s : State) : ∀ t, takeExtent use n s = some t → V.get t = V.get s := by
  unfold takeExtent
  rintro t h
  split at h
  · cases h; rfl
  · split at h
    · cases h
    · split at h
      · cases h; simp
      · exact takeSingles_view true use n s t h

@[simp] theorem freeExtents_view (p : FrameUse → Bool) (s : State) : V.get (freeExtents p s) = V.get s := by simp [freeExtents]

@[simp] theorem poisonLine_view (l : Nat) (s : State) : V.get (poisonLine l s) = V.get s := by
  simp [poisonLine]

@[simp] theorem writeSeg_view (l dpa : Nat) (seg : Bytes) (s : State) : V.get (writeSeg l dpa seg s).1 = V.get s := by
  obtain ⟨m, hm⟩ := writeSeg_eq_setMem l dpa seg s
  rw [hm, View.get_setMem]

@[simp] theorem writeMem_view (dpa : Nat) (bs : Bytes) (s : State) : V.get (writeMem dpa bs s).1 = V.get s := by
  obtain ⟨m, hm⟩ := writeMem_eq_setMem dpa bs s
  rw [hm, View.get_setMem]

@[simp] theorem writeFresh_view (dpa : Nat) (bs : Bytes) (s : State) : V.get (writeFresh dpa bs s) = V.get s := by simp [writeFresh]

@[simp] theorem updBlk_view (table region index : Nat) (f : Blk → Blk) (s : State) :
    V.get (updBlk table region index f s) = V.get s := by simp [updBlk]

@[simp] theorem heatUp_view (table region index : Nat) (s : State) :
    V.get (heatUp table region index s) = V.get s := by simp [heatUp]

/-! ### Replies and waiting commands -/

/-- A function with a cause of its last end is listed. -/
theorem look_of_caused {fid : Nat} {s : State} (h : 3 ≤ (fnD s fid).cause) : look s.fns fid = some (fnD s fid) := by
  cases hl : look s.fns fid with
  | none => simp [fnD, lookD, hl] at h
  | some f => simp [fnD, lookD, hl]

@[simp] theorem setRing_view (k : Nat) (r : Ring) (s : State) : V.get (setRing k r s) = V.get s := by simp [setRing]

@[simp] theorem slotWrite_view (k slot off : Nat) (bs : Bytes) (s : State) :
    V.get (slotWrite k slot off bs s) = V.get s := by
  unfold slotWrite
  repeat' split
  all_goals simp

@[simp] theorem deliverReply_view (k : Nat) (via : Via) (pkt : IcpPkt) (r : IcpReply) (s : State) :
    V.get (deliverReply k via pkt r s) = V.get s := by
  simp [deliverReply]

@[simp] theorem sendPacket_view (via : Via) (r : IcpReply) (s : State) : V.get (sendPacket via r s) = V.get s := by
  unfold sendPacket
  split <;> simp

@[simp] theorem postReply_view (via : Via) (pkt : IcpPkt) (r : IcpReply) (s : State) : V.get (postReply via pkt r s) = V.get s := by
  unfold postReply
  split
  · simp
  · dsimp only
    split
    · refine (View.get_setIcp ?_).trans (by simp)
      exact sameRings_put_mgmt _ _ _
    · simp

@[simp] theorem sendReply_view (op : Nat) (via : Via) (pkt : IcpPkt) (status detail : Nat) (data : Bytes) (s : State) :
    V.get (sendReply op via pkt status detail data s) = V.get s := by
  simp [sendReply]

@[simp] theorem livePause_view (s : State) : V.get (livePause s) = V.get s := by
  unfold livePause
  split
  · split
    · refine (V.act _ _ ?_).trans (View.get_setIcp ?_)
      · rfl
      · exact sameRings_refl _
    · rfl
  · rfl

@[simp] theorem finishWait_view (w : Waiter) (status detail : Nat) (data : Bytes) (s : State) :
    V.get (finishWait w status detail data s) = V.get s := by
  have hw : V.get (s.setIcp { s.icp with waits := dropFirst (fun x => x == w) s.icp.waits }) = V.get s := by simp
  unfold finishWait
  generalize s.setIcp { s.icp with waits := dropFirst (fun x => x == w) s.icp.waits } = x at hw ⊢
  split
  · dsimp only
    split
    · simp [hw]
    · split
      · next h =>
        refine (V.fns _ _ (standing_put (look_of_caused h) ?_)).trans hw
        rfl
      · simp [hw]
  · dsimp only
    split <;> simp [hw]
  · simp [hw]

@[simp] theorem freezeProgress_view (s : State) : V.get (freezeProgress s) = V.get s := by
  simp [freezeProgress]

/-! ### Rows of tables -/

@[simp] theorem setTbl_view (ti : Nat) (t : Tbl) (s : State) : V.get (setTbl ti t s) = V.get s := by simp [setTbl]

@[simp] theorem updTbl_view (ti : Nat) (f : Tbl → Tbl) (s : State) : V.get (updTbl ti f s) = V.get s := by
  unfold updTbl
  split <;> simp

@[simp] theorem writeBlk_view (b : Blk) (off : Nat) (bs : Bytes) (s : State) : V.get (writeBlk b off bs s) = V.get s := by
  unfold writeBlk
  repeat' split
  all_goals simp

@[simp] theorem writeRow_view (ti : Nat) (t : Tbl) (r row : Nat) (bs : Bytes) (s : State) :
    V.get (writeRow ti t r row bs s) = V.get s := View.get_foldl (fun s g => by split <;> simp) _ _

@[simp] theorem heatRow_view (ti : Nat) (t : Tbl) (r row : Nat) (s : State) : V.get (heatRow ti t r row s) = V.get s := by
  simp [heatRow]

@[simp] theorem initTableRow_view (ti : Nat) (t : Tbl) (row x : Nat) (s : State) :
    V.get (initTableRow ti t row x s) = V.get s := by
  simp [initTableRow]

@[simp] theorem freeTable_view (ti : Nat) (s : State) : V.get (freeTable ti s) = V.get s := by
  unfold freeTable
  simp only [View.get_setTab, View.get_ite, freeExtents_view, ite_self]
  refine (View.get_foldl (fun s b => ?_) _ _).trans (by simp)
  cases b.frame <;> cases b.moving <;> simp

@[simp] theorem poisonRow_view (ti row cause : Nat) (key : Bool) (s : State) :
    V.get (poisonRow ti row cause key s) = V.get s := by
  simp [poisonRow]

@[simp] theorem healLines_view (ti : Nat) (s : State) : V.get (healLines ti s) = V.get s := by simp [healLines]

@[simp] theorem wroteRegions_view (ti row mask : Nat) (s : State) : V.get (wroteRegions ti row mask s) = V.get s := by
  simp [wroteRegions]

/-! ### The course -/

@[simp] theorem setRun_view (r : CourseRun) (s : State) : V.get (setRun r s) = V.get s := by simp [setRun]

@[simp] theorem updRun_view (f : CourseRun → CourseRun) (s : State) : V.get (updRun f s) = V.get s := by
  unfold updRun
  split <;> simp

@[simp] theorem sendDown_view (m : DomainMsg) (s : State) : V.get (sendDown m s) = V.get s := by
  simp [sendDown]

@[simp] theorem sendUp_view (m : DomainMsg) (s : State) : V.get (sendUp m s) = V.get s := by
  simp [sendUp]

@[simp] theorem toCapturing_view (s : State) : V.get (toCapturing s) = V.get s := by
  simp [toCapturing]

@[simp] theorem fenceProgress_view (s : State) : V.get (fenceProgress s) = V.get s := by
  simp [fenceProgress]

@[simp] theorem copyBlock_view (ti r i : Nat) (s : State) : V.get (copyBlock ti r i s) = V.get s := by
  simp [copyBlock]

@[simp] theorem captureBefore_view (ti step : Nat) (fronts : List (Nat × Nat)) (s : State) :
    V.get (captureBefore ti step fronts s).1 = V.get s := by
  induction fronts generalizing s with
  | nil => rfl
  | cons g rest ih =>
    unfold captureBefore
    split
    · exact ih s
    · simp [ih]
    · simp

@[simp] theorem noteStep_view (ti step : Nat) (s : State) : V.get (noteStep ti step s) = V.get s := by
  simp [noteStep]

@[simp] theorem setArea_view (k : Nat) (a : Area) (s : State) : V.get (setArea k a s) = V.get s := by simp [setArea]

@[simp] theorem emitLedger_view (k : Nat) (r : LedgerRec) (s : State) : V.get (emitLedger k r s) = V.get s := emit_view ..

@[simp] theorem updRegion_view (id : Nat) (f : AccelRegion → AccelRegion) (s : State) : V.get (updRegion id f s) = V.get s := by simp [updRegion]

@[simp] theorem abortCourse_view (detail : Nat) (s : State) : V.get (abortCourse detail s) = V.get s := by
  simp [abortCourse]

theorem takeArea_view (i len : Nat) (s : State) : ∀ t, takeArea i len s = some t → V.get t.2 = V.get s := by
  unfold takeArea
  dsimp only
  split <;> simp

@[simp] theorem useSignKey_view (s : State) : V.get (useSignKey s) = V.get s := by
  simp [useSignKey]

@[simp] theorem writeEverywhere_view (bs : Bytes) (is : List Nat) (s : State) : V.get (writeEverywhere bs is s).2 = V.get s := by
  unfold writeEverywhere
  refine View.get_foldl_snd (fun a i => ?_) _ _
  split
  · rfl
  · split
    · next h => simpa using takeArea_view _ _ _ _ h
    · simp

@[simp] theorem manifestProgress_view (s : State) : V.get (manifestProgress s) = V.get s := by
  simp [manifestProgress]

@[simp] theorem commitProgress_view (s : State) : V.get (commitProgress s) = V.get s := by
  simp [commitProgress]

@[simp] theorem dropUse_view (u : FrameUse) (s : State) : V.get (dropUse u s) = V.get s := by simp [dropUse]

@[simp] theorem reuse_view (a : FrameUse) (b : FrameUse) (s : State) : V.get (reuse a b s) = V.get s := by simp [reuse]

@[simp] theorem enforcePolicy_view (s : State) : V.get (enforcePolicy s) = V.get s := by
  unfold enforcePolicy
  dsimp only
  split <;> simp

@[simp] theorem openRun_view (id step label format trigger : Nat) (s : State) :
    V.get (openRun id step label format trigger s) = V.get s := by
  simp [openRun]

/-! ### Rings of the queue region -/

@[simp] theorem warn_view (i n : Nat) (s : State) : V.get (warn i n s) = V.get s := by simp [warn]

theorem takeUseFrame_view (use : FrameUse) (reserve : Bool) (s : State) :
    ∀ t, takeUseFrame use reserve s = some t → V.get t.2 = V.get s := by
  rintro t h
  obtain ⟨fs, hf, rfl⟩ := Option.map_eq_some_iff.mp h
  exact (V.mem ..).trans (takeFrame_view true reserve s fs hf)

theorem takeUseFrames_view (use : FrameUse) (fuel : Nat) (s : State) :
    ∀ t, takeUseFrames use fuel s = some t → V.get t.2 = V.get s := by
  induction fuel generalizing s with
  | zero => rintro t ⟨⟩; rfl
  | succ n ih =>
    rintro t h
    obtain ⟨a, ha, h⟩ := Option.bind_eq_some_iff.mp h
    obtain ⟨b, hb, rfl⟩ := Option.map_eq_some_iff.mp h
    exact (ih a.2 b hb).trans (takeUseFrame_view use false s a ha)

theorem placeRing_view (hp owner : Nat) (queue : Option Nat) (reply : Bool) (bytes : Nat) (s : State) :
    ∀ t, placeRing hp owner queue reply bytes s = some t → V.get t.2 = V.get s := by
  rintro t h
  obtain ⟨p, -, ht⟩ := Option.bind_eq_some_iff.mp h
  obtain ⟨a, ha, rfl⟩ := Option.map_eq_some_iff.mp ht
  exact (V.ports ..).trans (takeUseFrames_view .ring _ s a ha)

@[simp] theorem dropRings_view (p : QRing → Bool) (s : State) : V.get (dropRings p s) = V.get s := by
  simp [dropRings]

@[simp] theorem endpointRings_view (ep : Nat) (s : State) : V.get (endpointRings ep s) = V.get s := by
  unfold endpointRings
  dsimp only
  split
  · rfl
  · split
    · next h1 =>
      split
      · next h2 => exact (placeRing_view _ _ _ _ _ _ _ h2).trans (placeRing_view _ _ _ _ _ _ _ h1)
      · rfl
    · rfl

@[simp] theorem armEndpoint_view (ep : Nat) (s : State) : V.get (armEndpoint ep s) = V.get s := by
  simp [armEndpoint]

@[simp] theorem retryRings_view (s : State) : V.get (retryRings s) = V.get s := by
  simp [retryRings]

@[simp] theorem retireRings_view (p : QRing → Bool) (s : State) : V.get (retireRings p s) = V.get s := by simp [retireRings]

@[simp] theorem poisonRowsAt_view (b : Blk) (off n cause : Nat) (s : State) :
    V.get (poisonRowsAt b off n cause s) = V.get s := by
  simp [poisonRowsAt]

@[simp] theorem tableError_view (ti : Nat) (s : State) : V.get (tableError ti s) = V.get s := by
  simp [tableError]

/-! ### Row operations -/

@[simp] theorem rewriteServing_view (ti : Nat) (t : Tbl) (row : Nat) (es : List Nat) (s : State) :
    V.get (rewriteServing ti t row es s) = V.get s := by
  simp [rewriteServing]

@[simp] theorem storeRow_view (ti : Nat) (t : Tbl) (row : Nat) (w : List Nat) (st : List Nat) (s : State) :
    V.get (storeRow ti t row w st s) = V.get s := by
  simp [storeRow]

@[simp] theorem heatKeys_view (ti : Nat) (t : Tbl) (index : Nat) (s : State) : V.get (heatKeys ti t index s) = V.get s := by
  simp [heatKeys]

@[simp] theorem serveRead_view (ti : Nat) (t : Tbl) (r row : Nat) (s : State) :
    V.get (serveRead ti t r row s).state = V.get s := by
  unfold serveRead
  repeat' split
  all_goals simp

@[simp] theorem l1Forget_view (fs : List Nat) (s : State) : V.get (l1Forget fs s) = V.get s := by simp [l1Forget]

@[simp] theorem moveBlock_view (b : Blk) (f : Nat) (s : State) : V.get (moveBlock b f s) = V.get s := by
  unfold moveBlock
  split <;> simp

@[simp] theorem promoteRow_view (ti : Nat) (blocks : List (Nat × Nat)) (s : State) : V.get (promoteRow ti blocks s) = V.get s := by
  refine View.get_foldl (fun s ri => ?_) _ _
  split
  · split
    · split
      · split
        · next h => simpa using takeFrame_view _ _ _ _ h
        · rfl
      · rfl
    · rfl
  · rfl

@[simp] theorem writable_touched_view (ti : Nat) (t : Tbl) (row : Nat) (rs : List Nat) (s : State) :
    V.get (writable.touched ti t row rs s) = V.get s := by
  simp [writable.touched]

@[simp] theorem writable_go_view (ti : Nat) (t : Tbl) (row step : Nat) (rs : List Nat) (s : State) :
    V.get (writable.go ti t row step rs s).state = V.get s := by
  unfold writable.go
  split
  · simp
  · split
    · rfl
    · have h := captureBefore_view (V := V) ti step (blocksOf t rs row) s
      split <;> next he => simpa [he] using h

@[simp] theorem writable_view (ti : Nat) (t : Tbl) (row step : Nat) (rs : List Nat) (overwrite : Bool) (s : State) :
    V.get (writable ti t row step rs overwrite s).state = V.get s := by
  unfold writable
  repeat' split
  all_goals simp

@[simp] theorem insertKey_view (ti : Nat) (t : Tbl) (key step : Nat) (s : State) :
    V.get (insertKey ti t key step s).2.state = V.get s := by
  unfold insertKey
  have h := fun row => writable_view (V := V) ti t row step (tblRegions t) true s
  split
  · rfl
  · next row _ =>
    split
    · rfl
    · specialize h row
      split <;> simp_all

@[simp] theorem updateRow_view (ti : Nat) (t : Tbl) (o : RowOp) (row : Nat) (s : State) :
    V.get (updateRow ti t o row s) = V.get s := by
  simp [updateRow]

@[simp] theorem writeOneRow_view (ti : Nat) (t : Tbl) (o : RowOp) (row : Nat) (s : State) :
    V.get (writeOneRow ti t o row s) = V.get s := by
  simp [writeOneRow]

@[simp] theorem countUpdate_view (ti : Nat) (s : State) : V.get (countUpdate ti s) = V.get s := by
  simp [countUpdate]

@[simp] theorem noteWrite_view (ti : Nat) (t : Tbl) (rs : List Nat) (row step : Nat) (s : State) :
    V.get (noteWrite ti t rs row step s) = V.get s := by
  simp [noteWrite]

@[simp] theorem serveWrite_view (ti : Nat) (t : Tbl) (o : RowOp) (row flags : Nat) (s : State) :
    V.get (serveWrite ti t o row flags s).state = V.get s := by
  unfold serveWrite
  repeat' split
  all_goals simp

@[simp] theorem knowKey_view (ti row : Nat) (s : State) : V.get (knowKey ti row s) = V.get s := by
  simp [knowKey]

@[simp] theorem serveRekey_view (ti : Nat) (t : Tbl) (o : RowOp) (row : Nat) (s : State) :
    V.get (serveRekey ti t o row s).state = V.get s := by
  unfold serveRekey
  have h := writable_view (V := V) ti t row o.step (3 :: writtenRegions t o) true s
  split
  · rfl
  · split
    · rfl
    · split <;> simp_all

@[simp] theorem serveFound_view (ti : Nat) (o : RowOp) (s : State) : V.get (serveFound ti o s).state = V.get s := by
  have hi := insertKey_view (V := V) ti (tblD s ti) o.index o.step s
  have hw := fun row => writable_view (V := V) ti (tblD s ti) row o.step (writtenRegions (tblD s ti) o) (o.op == 5) s
  unfold serveFound
  dsimp only
  split
  · rfl
  · split
    · rfl
    · split
      · rfl
      · split
        · rfl
        · split <;> simp
      · split
        · rfl
        · split
          · split
            · rfl
            · split <;> simp_all
          · split <;> simp
      · next row _ =>
        split
        · rfl
        · split
          · simp
          · simp
          · simp
          · split
            · split <;> simp
            · split
              · simp
              · split <;> simp
          · split
            · rfl
            · specialize hw row
              split <;> simp_all

@[simp] theorem serveIndex_view (ti : Nat) (o : RowOp) (s : State) : V.get (serveIndex ti o s).state = V.get s := by
  unfold serveIndex
  have h := serveFound_view (V := V) ti o s
  split <;> simp_all

/-! ### Kernels and their items -/

@[simp] theorem setUnit_view (p : Nat) (u : ClusterSt) (s : State) : V.get (setUnit p u s) = V.get s := by simp [setUnit]

@[simp] theorem zeroScratch_view (a n : Nat) (s : State) : V.get (zeroScratch a n s) = V.get s := by simp [zeroScratch]

@[simp] theorem l1Clear_view (core : Nat) (s : State) : V.get (l1Clear core s) = V.get s := by simp [l1Clear]

@[simp] theorem releaseKernel_view (ki : Nat) (s : State) : V.get (releaseKernel ki s) = V.get s := by
  unfold releaseKernel
  split <;> simp

@[simp] theorem addJob_view (j : Job) (s : State) : V.get (addJob j s) = V.get s := by simp [addJob]

@[simp] theorem updJob_view (id : Nat) (f : Job → Job) (s : State) : V.get (updJob id f s) = V.get s := by simp [updJob]

@[simp] theorem setThread_view (th : Nat) (t : Thread) (s : State) : V.get (setThread th t s) = V.get s := by simp [setThread]

@[simp] theorem giveItem_view (k : Kernel) (j : Job) (th : Nat) (s : State) : V.get (giveItem k j th s) = V.get s := by simp [giveItem]

@[simp] theorem handSlot_view (ki : Nat) (k : Kernel) (s : State) (th : Nat) : V.get (handSlot ki k s th) = V.get s := by
  unfold handSlot
  repeat' split
  all_goals simp

@[simp] theorem preemptSlot_view (ki : Nat) (k : Kernel) (s : State) (th : Nat) : V.get (preemptSlot ki k s th) = V.get s := by
  unfold preemptSlot
  split <;> simp

@[simp] theorem dispatchItems_view (s : State) : V.get (dispatchItems s) = V.get s := by
  simp [dispatchItems]

/-! ### Custody queue pairs -/

@[simp] theorem setCqp_view (n : Nat) (q : Cqp) (s : State) : V.get (setCqp n q s) = V.get s := by simp [setCqp]

@[simp] theorem updCqp_view (n : Nat) (f : Cqp → Cqp) (s : State) : V.get (updCqp n f s) = V.get s := by
  unfold updCqp
  split <;> simp

@[simp] theorem writeCqe_view (n : Nat) (c : Cqe) (irq : Bool) (s : State) : V.get (writeCqe n c irq s) = V.get s := by
  unfold writeCqe
  split
  · rfl
  · next q _ =>
    cases ringDpa s (some n) q.owner true (16 * q.cqProd) <;> simp

@[simp] theorem postCqe_view (n : Nat) (d : Desc) (count status detail flags : Nat) (s : State) :
    V.get (postCqe n d count status detail flags s) = V.get s := by
  unfold postCqe
  split <;> simp

@[simp] theorem updProg_view (n seq : Nat) (f : InProg → InProg) (s : State) : V.get (updProg n seq f s) = V.get s := by
  simp [updProg]

@[simp] theorem gotIndex_view (n seq k status flags : Nat) (bs : Bytes) (s : State) :
    V.get (gotIndex n seq k status flags bs s) = V.get s := by
  simp [gotIndex]

@[simp] theorem ruleJob_view (origin : JobOrigin) (ti row step : Nat) (grad : Bytes) (fresh : Bool) (s : State) :
    V.get (ruleJob origin ti row step grad fresh s) = V.get s := by
  unfold ruleJob
  dsimp only
  split <;> simp

@[simp] theorem servePosition_view (n seq k : Nat) (s : State) : V.get (servePosition n seq k s) = V.get s := by
  unfold servePosition
  split
  · rfl
  · next p _ =>
    split
    · simp
    · next ti t _ =>
      have h := serveIndex_view (V := V) ti (rowOpAt t p.desc p.io k) s
      dsimp only
      split
      · simp
      · split
        · rfl
        · split
          · split <;> simp_all
          · split
            · split <;> simp
            · rfl

@[simp] theorem kernelComplete_view (n seq halted : Nat) (fault : Option (Nat × Nat)) (s : State) :
    V.get (kernelComplete n seq halted fault s) = V.get s := by
  unfold kernelComplete
  split <;> simp

@[simp] theorem completeDesc_view (n : Nat) (p : InProg) (s : State) : V.get (completeDesc n p s) = V.get s := by
  unfold completeDesc
  dsimp only
  split <;> simp

@[simp] theorem advanceQueue_view (n : Nat) (s : State) : V.get (advanceQueue n s) = V.get s := by
  simp [advanceQueue]

@[simp] theorem fetchDescs_view (n fuel : Nat) (s : State) : V.get (fetchDescs n fuel s) = V.get s := by
  induction fuel generalizing s with
  | zero => rfl
  | succ fuel ih =>
    unfold fetchDescs
    split
    · rfl
    · split
      · rfl
      · split
        · rfl
        · simp [ih]

@[simp] theorem updFwd_view (w : FwdWait) (f : FwdWait → FwdWait) (s : State) : V.get (updFwd w f s) = V.get s := by simp [updFwd]

@[simp] theorem serveForwarded_view (w : FwdWait) (s : State) : V.get (serveForwarded w s) = V.get s := by
  unfold serveForwarded
  dsimp only
  split
  · simp
  · next ti t _ =>
    have h := serveIndex_view (V := V) ti { op := w.op, flags := w.flags, step := w.step, lr := w.lr, index := w.index, data := w.data } s
    split
    · rfl
    · split
      · simp
      · split
        · rfl
        · split <;> simp_all

@[simp] theorem removeCqp_view (n : Nat) (s : State) : V.get (removeCqp n s) = V.get s := by
  simp [removeCqp]

@[simp] theorem destroyProgress_view (s : State) : V.get (destroyProgress s) = V.get s := by
  simp [destroyProgress]

/-! ### Frames of the next course -/

theorem takeCxlArea_view (gib : Nat) (s : State) : ∀ t, takeCxlArea gib s = some t → V.get t = V.get s := by
  unfold takeCxlArea
  dsimp only
  rintro t h
  split at h
  · cases h; rfl
  · split at h
    · cases h
    · split at h
      · cases h; simp
      · exact takeSingles_view false .cxlArea _ s t h

theorem takePolicy_view (p : CoursePolicy) (s : State) : ∀ t, takePolicy p s = some t → V.get t = V.get s := by
  rintro t h
  obtain ⟨u, hu, ht⟩ := Option.bind_eq_some_iff.mp h
  have hs : V.get u = V.get s := (takeExtent_view _ _ _ u hu).trans (reuse_view .courseNext .courseOld s)
  split at ht
  · cases ht; exact hs
  · exact (takeCxlArea_view _ u t ht).trans hs

theorem ensureFrames_view (s : State) : ∀ t, ensureFrames s = some t → V.get t = V.get s := by
  unfold ensureFrames
  rintro t h
  split at h
  · cases h; rfl
  · obtain ⟨u, hu, rfl⟩ := Option.map_eq_some_iff.mp h
    exact (V.course ..).trans (takePolicy_view _ s u hu)

end Sys2Proof.Machine
end

section
/-! What keeps every view: storage, packets and connections. -/

namespace Sys2Proof.Machine

open Sys2Proof

variable {α : Type} {V : View α}

/-! ### Storage -/

@[simp] theorem setCtrl_view (fn : Nat) (c : Nvme) (s : State) : V.get (setCtrl fn c s) = V.get s := by simp [setCtrl]

@[simp] theorem updCtrl_view (fn : Nat) (f : Nvme → Nvme) (s : State) : V.get (updCtrl fn f s) = V.get s := by simp [updCtrl]

@[simp] theorem setNs_view (n : Nat) (x : Ns) (s : State) : V.get (setNs n x s) = V.get s := by simp [setNs]

@[simp] theorem updNs_view (n : Nat) (f : Ns → Ns) (s : State) : V.get (updNs n f s) = V.get s := by
  unfold updNs
  split <;> simp

@[simp] theorem nvmeIrq_view (fn cq : Nat) (q : NCq) (s : State) : V.get (nvmeIrq fn cq q s) = V.get s := by
  simp [nvmeIrq]

@[simp] theorem nvmeWrite_view (fn sq cid status dw0 : Nat) (writes : List (Nat × Bytes)) (s : State) :
    V.get (nvmeWrite fn sq cid status dw0 writes s) = V.get s := by
  unfold nvmeWrite
  dsimp only
  split
  · rfl
  · split <;> simp

@[simp] theorem nvmeDone_view (fn sq cid status dw0 : Nat) (writes : List (Nat × Bytes)) (s : State) :
    V.get (nvmeDone fn sq cid status dw0 writes s) = V.get s := by
  simp [nvmeDone]

@[simp] theorem asyncEvent_view (fn type info log : Nat) (s : State) :
    V.get (asyncEvent fn type info log s) = V.get s := by
  unfold asyncEvent
  dsimp only
  split
  · rfl
  · split <;> simp

@[simp] theorem nsChanged_view (fn nsid : Nat) (s : State) : V.get (nsChanged fn nsid s) = V.get s := by
  simp [nsChanged]

@[simp] theorem updOp_view (id : Nat) (f : NvmeOp → NvmeOp) (s : State) : V.get (updOp id f s) = V.get s := by simp [updOp]

@[simp] theorem dropOp_view (id : Nat) (s : State) : V.get (dropOp id s) = V.get s := by simp [dropOp]

@[simp] theorem postOp_view (o : NvmeOp) (status : Nat) (writes : List (Nat × Bytes)) (s : State) :
    V.get (postOp o status writes s) = V.get s := by
  simp [postOp]

@[simp] theorem endOp_view (o : NvmeOp) (status : Nat) (writes : List (Nat × Bytes)) (s : State) :
    V.get (endOp o status writes s) = V.get s := by
  simp [endOp]

@[simp] theorem writeRecord_view (o : NvmeOp) (s : State) : V.get (writeRecord o s) = V.get s := by
  simp [writeRecord]

@[simp] theorem sanRecord_view (n : Nat) (s : State) : V.get (sanRecord n s) = V.get s := by simp [sanRecord]

@[simp] theorem setSan_view (n : Nat) (f : Sanitize → Sanitize) (s : State) : V.get (setSan n f s) = V.get s := by
  simp [setSan]

@[simp] theorem dropOps_view (n : Nat) (s : State) : V.get (dropOps n s) = V.get s := by simp [dropOps]

@[simp] theorem acceptSan_view (fn op : Nat) (c : NvmeCmd) (s : State) : V.get (acceptSan fn op c s) = V.get s := by
  simp [acceptSan]

@[simp] theorem takeEntries_view (s : State) : V.get (takeEntries s) = V.get s := by
  simp [takeEntries]

@[simp] theorem freshenOps_view (s : State) : V.get (freshenOps s) = V.get s := by
  refine View.get_foldl (fun s o => ?_) _ _
  dsimp only
  split <;> simp

@[simp] theorem finishWaits_view (s : State) : V.get (finishWaits s) = V.get s := by
  unfold finishWaits
  simp only [View.get_ite, finishWait_view, nsChanged_view, updNs_view, ite_self, implies_true, View.get_foldl]
  exact View.get_foldl (fun s e => by split <;> simp) _ _

@[simp] theorem stoSettle_view (s : State) : V.get (stoSettle s) = V.get s := by
  simp [stoSettle]

/-! ### Packets, subscribers and the NIC -/

@[simp] theorem setElastic_view (f : Elastic → Elastic) (s : State) : V.get (setElastic f s) = V.get s := by simp [setElastic]

@[simp] theorem updRestore_view (f : RestoreRun → RestoreRun) (s : State) : V.get (updRestore f s) = V.get s := by simp [updRestore]

@[simp] theorem setEn_view (n : Nat) (p : EnPort) (s : State) : V.get (setEn n p s) = V.get s := by simp [setEn]

@[simp] theorem updEn_view (n : Nat) (f : EnPort → EnPort) (s : State) : V.get (updEn n f s) = V.get s := by simp [updEn]

@[simp] theorem setSub_view (i : Nat) (x : SubPort) (s : State) : V.get (setSub i x s) = V.get s := by simp [setSub]

@[simp] theorem updSub_view (i : Nat) (f : SubPort → SubPort) (s : State) : V.get (updSub i f s) = V.get s := by simp [updSub]

@[simp] theorem bumpEn_view (i rel : Nat) (s : State) : V.get (bumpEn i rel s) = V.get s := by simp [bumpEn]

@[simp] theorem setQp_view (k : Nat) (q : NicQp) (s : State) : V.get (setQp k q s) = V.get s := by simp [setQp]

@[simp] theorem writeNic_view (k : Nat) (c : NicCpl) (s : State) : V.get (writeNic k c s) = V.get s := by
  unfold writeNic
  split <;> simp

@[simp] theorem postNic_view (k : Nat) (c : NicCpl) (s : State) : V.get (postNic k c s) = V.get s := by
  unfold postNic
  split <;> simp

@[simp] theorem txDone_view (fid gen qp index : Nat) (irq : Bool) (st : Nat) (s : State) :
    V.get (txDone fid gen qp index irq st s) = V.get s := by
  simp [txDone]

@[simp] theorem txDoneFree_view (fid gen qp index : Nat) (irq : Bool) (s : State) :
    V.get (txDoneFree fid gen qp index irq s) = V.get s := by
  simp [txDoneFree]

@[simp] theorem setShaper_view (k : Nat × Nat) (x : Shaper) (s : State) : V.get (setShaper k x s) = V.get s := by simp [setShaper]

@[simp] theorem pushFrame_view (i tc : Nat) (f : EgFrame) (s : State) : V.get (pushFrame i tc f s) = V.get s := by simp [pushFrame]

@[simp] theorem dropDone_view (st : Option Nat) (f : EgFrame) (s : State) : V.get (dropDone st f s) = V.get s := by
  unfold dropDone
  repeat' split
  all_goals simp

@[simp] theorem enqueue_view (i tc : Nat) (f : EgFrame) (s : State) : V.get (enqueue i tc f s) = V.get s := by
  simp [enqueue]

@[simp] theorem takeFrom_view (k : Nat × Nat) (t len : Nat) (s : State) : V.get (takeFrom k t len s) = V.get s := by
  simp [takeFrom]

@[simp] theorem transmitDesc_view (k : Nat) (q : NicQp) (d : TxDesc) (data : Option Bytes) (s : State) :
    V.get (transmitDesc k q d data s) = V.get s := by
  unfold transmitDesc
  repeat' split
  all_goals simp

@[simp] theorem nicTransmit_view (k : Nat) (s : State) : V.get (nicTransmit k s) = V.get s := by
  unfold nicTransmit
  split
  · simp
  · split <;> simp

@[simp] theorem deliverHost_view (m : Meta) (h : Nat) (f : Bytes) (s : State) : V.get (deliverHost m h f s) = V.get s := by
  unfold deliverHost
  dsimp only
  split
  · simp
  · split <;> simp

@[simp] theorem deliverSteward_view (sub : Nat) (f : Bytes) (s : State) : V.get (deliverSteward sub f s) = V.get s := by
  simp only [deliverSteward]
  split <;> simp

@[simp] theorem offer_view (i tc : Nat) (f : EgFrame) (s : State) : V.get (offer i tc f s) = V.get s := by
  simp [offer]

@[simp] theorem deliver_view (m : Meta) (stack : List (Nat × Nat)) (f : Bytes) (s : State) :
    V.get (deliver m stack f s) = V.get s := by
  unfold deliver
  split <;> simp

@[simp] theorem policeFrame_view (m : Meta) (s : State) : V.get (policeFrame m s).1 = V.get s := by
  unfold policeFrame
  dsimp only
  split
  · rfl
  · split <;> simp

@[simp] theorem routeFrame_view (sub : Nat) (f : Bytes) (s : State) : V.get (routeFrame sub f s) = V.get s := by
  unfold routeFrame
  dsimp only
  have hu : V.get (if (parseFrame s f).flags = 0 then s else bump blkPacket 0x104 s) = V.get s := by simp
  generalize (if (parseFrame s f).flags = 0 then s else bump blkPacket 0x104 s) = u at hu ⊢
  split
  · simp [hu]
  · split <;> simp [hu]

@[simp] theorem resumeIngress_view (s : State) : V.get (resumeIngress s) = V.get s := by
  simp [resumeIngress]

@[simp] theorem removeNicQp_view (k : Nat) (s : State) : V.get (removeNicQp k s) = V.get s := by
  unfold removeNicQp
  split <;> simp

/-! ### Connections -/

@[simp] theorem setWq_view (w : Nat) (q : Wq) (s : State) : V.get (setWq w q s) = V.get s := by simp [setWq]

@[simp] theorem bumpTr_view (rel : Nat) (s : State) : V.get (bumpTr rel s) = V.get s := by simp [bumpTr]

@[simp] theorem useGrtKey_view (fid sender receiver : Nat) (p : GrtPkt) (s : State) :
    V.get (useGrtKey fid sender receiver p s) = V.get s := by
  unfold useGrtKey
  split <;> simp

@[simp] theorem queuePacket_view (h : Nat) (p : GrtPkt) (s : State) : V.get (queuePacket h p s) = V.get s := by
  simp [queuePacket]

@[simp] theorem writeGrt_view (w : Nat) (x : GrtCpl) (s : State) : V.get (writeGrt w x s) = V.get s := by
  unfold writeGrt
  split <;> simp

@[simp] theorem postGrt_view (w : Nat) (x : GrtCpl) (s : State) : V.get (postGrt w x s) = V.get s := by
  unfold postGrt
  split <;> simp

@[simp] theorem raiseCtr_view (w k n : Nat) (s : State) : V.get (raiseCtr w k n s) = V.get s := by
  unfold raiseCtr
  split <;> simp

@[simp] theorem endReq_view (w h : Nat) (wr : GrtWr) (st : Nat) (s : State) : V.get (endReq w h wr st s) = V.get s := by
  simp [endReq]

@[simp] theorem runLocal_view (w h : Nat) (wr : GrtWr) (s : State) : V.get (runLocal w h wr s) = V.get s := by
  simp [runLocal]

/-- A connection that differs from an unlisted one is listed. -/
theorem connOf_of_ne {h : Nat} {s : State} (hne : connD s h ≠ { owner := 0 }) : connOf s h = some (connD s h) := by
  cases hl : connOf s h with
  | none => exact absurd (congrArg (Option.getD · _) hl) hne
  | some c => exact congrArg some (congrArg (Option.getD · _) hl).symm

theorem connOf_of_ready {h : Nat} {s : State} (hs : (connD s h).state = 1) : connOf s h = some (connD s h) :=
  connOf_of_ne fun h => by simp [h] at hs

/-- A change of a listed connection that keeps its owner. -/
theorem setConn_connD_view {h : Nat} {d : Conn} {s : State} (hc : connOf s h = some (connD s h)) (ho : d.owner = (connD s h).owner) :
    V.get (setConn h d s) = V.get s := setConn_view hc ho

@[simp] theorem drainReqs_view (h fuel : Nat) (s : State) : V.get (drainReqs h fuel s) = V.get s := by
  induction fuel generalizing s with
  | zero => rfl
  | succ fuel ih =>
    unfold drainReqs
    dsimp only
    split
    · rfl
    · next r rest hr =>
      have hs : V.get (setConn h { connD s h with reqs := rest } s) = V.get s :=
        setConn_connD_view (connOf_of_ne fun h => by simp [h] at hr) rfl
      split
      · simp only [ih, endReq_view, hs]
      · split
        · simp only [ih, runLocal_view, hs]
        · rfl

@[simp] theorem drainAll_view (h : Nat) (s : State) : V.get (drainAll h s) = V.get s := by
  simp [drainAll]

theorem sendNew_view {h msn : Nat} {p : GrtPkt} {s : State} (hc : connOf s h = some (connD s h)) : V.get (sendNew h msn p s) = V.get s := by
  unfold sendNew
  exact (queuePacket_view ..).trans (setConn_connD_view hc rfl)

/-- A new packet of a connection that has just changed. -/
theorem sendNew_setConn_view {h msn : Nat} {p : GrtPkt} {d : Conn} {s : State} (hc : connOf s h = some (connD s h))
    (ho : d.owner = (connD s h).owner) : V.get (sendNew h msn p (setConn h d s)) = V.get s := by
  have hl : connOf (setConn h d s) h = some d := look_put_same ..
  refine (sendNew_view (hl.trans (congrArg some ?_))).trans (setConn_connD_view hc ho)
  exact (congrArg (Option.getD · _) hl).symm

@[simp] theorem resend_view (h psn : Nat) (s : State) : V.get (resend h psn s) = V.get s := by
  unfold resend
  dsimp only
  split
  · rfl
  · next x hx =>
    simp only [queuePacket_view, perfEvent_view, bumpTr_view]
    refine setConn_connD_view (connOf_of_ne fun h => ?_) rfl
    simp [h] at hx

theorem sendOne_view (h : Nat) (s : State) : ∀ t, sendOne h s = some t → V.get t = V.get s := by
  unfold sendOne
  dsimp only
  rintro t ht
  split at ht
  · cases ht
  · next hw =>
    have hc : connOf s h = some (connD s h) := connOf_of_ready (not_not.mp (not_or.mp hw).1)
    split at ht
    · obtain ⟨-, ht⟩ := Option.ite_none_right_eq_some.mp ht
      cases ht
      simp
    · split at ht
      · cases ht
      · split at ht
        · obtain ⟨-, ht⟩ := Option.ite_none_right_eq_some.mp ht
          cases ht
          exact sendNew_setConn_view hc rfl
        · split at ht
          · cases ht
          · split at ht
            · cases ht
            · split at ht
              · cases ht
                exact (drainAll_view ..).trans (setConn_connD_view hc rfl)
              · split at ht
                · obtain ⟨-, ht⟩ := Option.ite_none_right_eq_some.mp ht
                  cases ht
                  simp
                · obtain ⟨-, ht⟩ := Option.ite_none_right_eq_some.mp ht
                  cases ht
                  exact sendNew_setConn_view hc rfl

@[simp] theorem pump_view (h fuel : Nat) (s : State) : V.get (pump h fuel s) = V.get s := by
  induction fuel generalizing s with
  | zero => rfl
  | succ fuel ih =>
    unfold pump
    split
    · next t ht => exact (ih t).trans (sendOne_view h s t ht)
    · rfl

@[simp] theorem pumpConn_view (h : Nat) (s : State) : V.get (pumpConn h s) = V.get s := by
  simp [pumpConn]

@[simp] theorem dropConnFrames_view (h : Nat) (s : State) : V.get (dropConnFrames h s) = V.get s := by simp [dropConnFrames]

end Sys2Proof.Machine
end

section
/-! What keeps every view: kernels that end, functions that fail, faults of lines and all that settles. -/

namespace Sys2Proof.Machine

open Sys2Proof

variable {α : Type} {V : View α}

/-! ### Ends of kernels -/

@[simp] theorem nvmeReset_view (fn : Nat) (s : State) : V.get (nvmeReset fn s) = V.get s := by
  simp [nvmeReset]

@[simp] theorem rowUndone_view (ti row : Nat) (j : Job) (s : State) : V.get (rowUndone ti row j s) = V.get s := by
  simp [rowUndone]

@[simp] theorem jobDone_view (j : Job) (s : State) : V.get (jobDone j s) = V.get s := by
  unfold jobDone
  repeat' split
  all_goals simp

@[simp] theorem itemsEnd_view (id n halted : Nat) (fault : Option (Nat × Nat)) (s : State) :
    V.get (itemsEnd id n halted fault s) = V.get s := by
  unfold itemsEnd
  dsimp only
  split <;> simp

@[simp] theorem moveThread_view (ki : Nat) (t : Thread) (s : State) : V.get (moveThread ki t s) = V.get s := by
  unfold moveThread
  split <;> simp

@[simp] theorem abandonCore_view (k : Nat) (s : State) : V.get (abandonCore k s) = V.get s := by
  unfold abandonCore
  dsimp only
  refine (View.get_foldl (fun s e => by split <;> simp) _ _).trans ?_
  simp

@[simp] theorem endUnstarted_view (p : Job → Bool) (ki : Nat) (s : State) : V.get (endUnstarted p ki s) = V.get s := by
  simp [endUnstarted]

@[simp] theorem endWaiting_view (handle : Nat) (s : State) : V.get (endWaiting handle s) = V.get s := by
  simp [endWaiting]

@[simp] theorem stopKernel_view (ki : Nat) (s : State) : V.get (stopKernel ki s) = V.get s := by
  unfold stopKernel
  split <;> simp

@[simp] theorem endRunning_view (p : Job → Bool) (ki : Nat) (s : State) : V.get (endRunning p ki s) = V.get s := by
  simp [endRunning]

@[simp] theorem endDescItems_view (ki : Nat) (s : State) : V.get (endDescItems ki s) = V.get s := by
  simp [endDescItems]

/-! ### Functions that fail -/

@[simp] theorem noRetry_view (ep : Nat) (s : State) : V.get (noRetry ep s) = V.get s := by simp [noRetry]

@[simp] theorem resumeNic_view (k fuel : Nat) (s : State) : V.get (resumeNic k fuel s) = V.get s := by
  induction fuel generalizing s with
  | zero => rfl
  | succ n ih => exact (ih (nicTransmit k s)).trans (nicTransmit_view k s)

@[simp] theorem resumeEgress_view (s : State) : V.get (resumeEgress s) = V.get s := by
  refine (View.get_foldl (fun s x => ?_) _ _).trans (V.pp ..)
  split
  · split <;> simp
  · simp

@[simp] theorem abortWaits_view (fid : Nat) (s : State) : V.get (abortWaits fid s) = V.get s := by
  simp [abortWaits]

@[simp] theorem keepWaits_view (fid gen : Nat) (s : State) : V.get (keepWaits fid gen s) = V.get s := by
  simp [keepWaits]

@[simp] theorem lateCompletions_view (fid n : Nat) (s : State) : V.get (lateCompletions fid n s) = V.get s := by
  simp [lateCompletions]

@[simp] theorem failQueues_view (reset : Bool) (fid : Nat) (s : State) : V.get (failQueues reset fid s) = V.get s := by
  simp [failQueues]

@[simp] theorem restampTables_view (fid : Nat) (s : State) : V.get (restampTables fid s) = V.get s := by simp [restampTables]

@[simp] theorem dropReplies_view (n : Nat) (s : State) : V.get (dropReplies n s) = V.get s := by simp [dropReplies]

/-! ### Endpoints that are reset -/

@[simp] theorem setPb_view (n : Nat) (b : PBlock) (s : State) : V.get (setPb n b s) = V.get s := V.ports ..

@[simp] theorem setLink_view (ep : Nat) (l : PLink) (s : State) : V.get (setLink ep l s) = V.get s := by simp [setLink]

theorem sameRings_del_accel (l : List (Via × Session)) (ep : Nat) : SameRings (del l (.accel ep)) l :=
  fun k => congrArg Option.isSome ((look_filter (fun x => decide (x ≠ Via.accel ep)) l (.ring k)).trans (if_pos (by simp)))

@[simp] theorem endpointReset_view (ep : Nat) (s : State) : V.get (endpointReset ep s) = V.get s := by
  unfold endpointReset
  dsimp only
  refine (V.rings ..).trans ((View.get_setIcp ?_).trans (setLink_view ..))
  exact sameRings_del_accel _ _

/-! ### Faults of lines -/

@[simp] theorem ringPoisoned_view (l : Nat) (q : QRing) (s : State) :
    V.get (ringPoisoned l q s) = V.get s := by
  unfold ringPoisoned
  dsimp only
  split <;> simp

@[simp] theorem lineConsequence_view (lf : LineFault) (s : State) :
    V.get (lineConsequence lf s) = V.get s := by
  unfold lineConsequence
  dsimp only
  split
  · simp
  · split
    · simp
    · split
      · rfl
      · split <;> simp

@[simp] theorem badLine_view (lf : LineFault) (s : State) : V.get (badLine lf s) = V.get s := by
  simp [badLine]

@[simp] theorem lineFault_view (lf : LineFault) (s : State) : V.get (lineFault lf s) = V.get s := by
  unfold lineFault
  dsimp only
  split
  · rfl
  · split
    · simp
    · split
      · exact View.get_foldl (fun s x => by cases x <;> simp) _ _
      · simp

@[simp] theorem lineFaults_view (ls : List LineFault) (s : State) :
    V.get (lineFaults ls s) = V.get s := View.get_foldl (fun s l => lineFault_view l s) ls s

/-! ### Queues run and everything settles -/

@[simp] theorem startDesc_view (n seq : Nat) (d : Desc) (io : DescIo) (s : State) :
    V.get (startDesc n seq d io s) = V.get s := by
  unfold startDesc
  dsimp only
  split
  · simp
  · split
    · simp
    · split
      · split <;> simp
      · simp

@[simp] theorem startDescs_view (n fuel : Nat) (s : State) : V.get (startDescs n fuel s) = V.get s := by
  induction fuel generalizing s with
  | zero => rfl
  | succ fuel ih =>
    unfold startDescs
    split
    · rfl
    · split
      · rfl
      · split <;> simp [ih]

@[simp] theorem runQueue_view (n : Nat) (s : State) : V.get (runQueue n s) = V.get s := by
  simp [runQueue]

@[simp] theorem settleOnce_view (s : State) : V.get (settleOnce s) = V.get s := by
  simp [settleOnce]

@[simp] theorem settleN_view (n : Nat) (s : State) : V.get (settleN n s) = V.get s := by
  induction n generalizing s with
  | zero => rfl
  | succ n ih => exact (ih (settleOnce s)).trans (settleOnce_view s)

@[simp] theorem settle_view (s : State) : V.get (settle s) = V.get s := by
  simp [settle]

/-! ### Courses open -/

theorem rootOpen_view {id step label trigger : Nat} {s t : State} (h : rootOpen id step label trigger s = some t) :
    V.get t = V.get s := by
  obtain ⟨u, hu, rfl⟩ := Option.map_eq_some_iff.mp h
  simp [ensureFrames_view s u hu]

@[simp] theorem autoOpen_view (trigger : Nat) (s : State) : V.get (autoOpen trigger s) = V.get s := by
  unfold autoOpen
  split
  · simp
  · dsimp only
    split
    · next h => exact rootOpen_view h
    · simp

@[simp] theorem earlyOpen_view (s : State) : V.get (earlyOpen s) = V.get s := by
  simp [earlyOpen]

@[simp] theorem openMessage_view (source id step label format trigger : Nat) (s : State) :
    V.get (openMessage source id step label format trigger s) = V.get s := by
  cases h : ensureFrames s with
  | none => simp [openMessage, h]
  | some t => simp [openMessage, h, ensureFrames_view s t h]

/-! ### Kernels stop and functions fail -/

@[simp] theorem failRestore_view (detail origin shard : Nat) (s : State) :
    V.get (failRestore detail origin shard s) = V.get s := by
  unfold failRestore
  split
  · rfl
  · simp only [settle_view, updRestore_view]
    exact View.get_foldl (fun s x => by split <;> simp) _ _

@[simp] theorem restoreTenantLost_view (fid : Nat) (s : State) :
    V.get (restoreTenantLost fid s) = V.get s := by
  simp [restoreTenantLost]

@[simp] theorem coreSafe_view (cluster core : Nat) (s : State) :
    V.get (coreSafe cluster core s) = V.get s := by
  unfold coreSafe
  dsimp only
  split
  · rfl
  · cases logicalCore s cluster core <;> simp

@[simp] theorem spareFirst_view (clusters : List Nat) (s : State) :
    V.get (spareFirst clusters s) = V.get s := by
  simp [spareFirst]

@[simp] theorem killKernel_view (ki : Nat) (s : State) : V.get (killKernel ki s) = V.get s := by
  simp [killKernel]

@[simp] theorem resumeOpens_view (s : State) : V.get (resumeOpens s) = V.get s := by
  unfold resumeOpens
  refine (View.get_foldl (fun s o => ?_) _ _).trans (V.course ..)
  split <;> simp

@[simp] theorem resumeIntake_view (s : State) : V.get (resumeIntake s) = V.get s := by
  simp [resumeIntake]

@[simp] theorem failKernels_view (fid : Nat) (s : State) : V.get (failKernels fid s) = V.get s := by
  simp [failKernels]

end Sys2Proof.Machine
end

section
/-! Power and temperature loops (R685 to R697). What the steps of the loops change: the operating points of islands, the policy log and no other
part of the power record, so that each loop is read off the few writes it makes of its own. -/

namespace Sys2Proof.Machine

open Sys2Proof

variable {s t u : State}

/-! ### Steps that move islands -/

@[simp] theorem logPolicy_pwr (isl policy reason object old new : Nat) (s : State) : (logPolicy isl policy reason object old new s).pwr = s.pwr := by
  obtain ⟨c, t, h⟩ := logPolicy_eq isl policy reason object old new s
  rw [h]
  rfl

@[simp] theorem logPolicy_mem (isl policy reason object old new : Nat) (s : State) : (logPolicy isl policy reason object old new s).mem = s.mem := by
  obtain ⟨c, t, h⟩ := logPolicy_eq isl policy reason object old new s
  rw [h]
  rfl

@[simp] theorem logPolicy_mason (isl policy reason object old new : Nat) (s : State) :
    (logPolicy isl policy reason object old new s).mason = s.mason := by
  obtain ⟨c, t, h⟩ := logPolicy_eq isl policy reason object old new s
  rw [h]
  rfl

@[simp] theorem islandOf_logPolicy (isl policy reason object old new : Nat) (s : State) (i : Nat) :
    islandOf (logPolicy isl policy reason object old new s) i = islandOf s i := islandOf_congr (by simp) i

@[simp] theorem islandOf_drawn (s : State) (i : Nat) : islandOf (drawn s) i = islandOf s i := rfl

@[simp] theorem islandOf_driveAlert (b : Bool) (s : State) (i : Nat) : islandOf (driveAlert b s) i = islandOf s i := islandOf_congr (by simp) i

@[simp] theorem islandOf_requestVolts (s : State) (i : Nat) : islandOf (requestVolts s) i = islandOf s i := rfl

theorem logPolicy_plog (isl policy reason object old new : Nat) (s : State) : ∃ l time seq, (logPolicy isl policy reason object old new s).tel.plog =
    l ++ [{ time := time, seq := seq, policy := policy, reason := reason, object := object, old := old, new := new }] := by
  unfold logPolicy
  extract_lets r full lost tel x
  have hx : ∃ l, x.tel.plog = l ++ [r] := ⟨_, rfl⟩
  obtain ⟨l, hl⟩ := hx
  refine ⟨l, stampIsl s isl, s.tel.plogNext, ?_⟩
  cases lost <;> exact hl

/-- The record of a decision is the last of the log. -/
theorem logPolicy_last (isl policy reason object old new : Nat) (s : State) :
    (logPolicy isl policy reason object old new s).tel.plog.getLast?.map (fun r => (r.policy, r.reason, r.object, r.old, r.new)) =
      some (policy, reason, object, old, new) := by
  obtain ⟨l, time, seq, h⟩ := logPolicy_plog isl policy reason object old new s
  rw [h]
  simp

/-- One state comes of another by new operating points of islands: the rest of the power record, memory and the clusters are as they were. -/
structure IslandsMoved (s t : State) : Prop where
  pwr : t.pwr = { s.pwr with islands := t.pwr.islands }
  mem : t.mem = s.mem
  mason : t.mason = s.mason

theorem IslandsMoved.refl (s : State) : IslandsMoved s s := ⟨rfl, rfl, rfl⟩

theorem IslandsMoved.trans (h : IslandsMoved s t) (k : IslandsMoved t u) : IslandsMoved s u := by
  refine ⟨?_, k.mem.trans h.mem, k.mason.trans h.mason⟩
  rw [k.pwr, h.pwr]

theorem IslandsMoved.foldl {β : Type} {f : State → β → State} (h : ∀ s x, IslandsMoved s (f s x)) (l : List β) (s : State) :
    IslandsMoved s (l.foldl f s) := by
  induction l generalizing s with
  | nil => exact .refl s
  | cons x r ih => exact (h s x).trans (ih _)

theorem IslandsMoved.updIsland (i : Nat) (f : IslandPow → IslandPow) (s : State) : IslandsMoved s (updIsland i f s) := ⟨rfl, rfl, rfl⟩
theorem IslandsMoved.drawn (s : State) : IslandsMoved s (drawn s) := ⟨rfl, rfl, rfl⟩

theorem IslandsMoved.logPolicy (isl policy reason object old new : Nat) (h : IslandsMoved s t) :
    IslandsMoved s (logPolicy isl policy reason object old new t) := by
  refine h.trans ⟨?_, by simp, by simp⟩
  rw [logPolicy_pwr]

theorem IslandsMoved.fwPoint (c p : Nat) (s : State) : IslandsMoved s (fwPoint c p s) := .updIsland ..

theorem IslandsMoved.pinHeld (h : IslandsMoved s t) : pinHeld t = pinHeld s := by rw [Machine.pinHeld, h.pwr]; rfl

theorem IslandsMoved.clustersUp (h : IslandsMoved s t) : clustersUp t = clustersUp s := by
  unfold Machine.clustersUp unitOf
  rw [h.mason]

theorem IslandsMoved.clusterPenalty (c : Nat) (s : State) : IslandsMoved s (let p := min 5 ((islandOf s c).point + 1)
    Machine.logPolicy 0x47 6 3 c (pointMhz (islandOf s c).point) (pointMhz p) (Machine.fwPoint c p s)) := (IslandsMoved.fwPoint ..).logPolicy ..

theorem limiterPenalty_moved (s : State) : IslandsMoved s (limiterPenalty s) := by
  unfold limiterPenalty
  split
  · exact .foldl (fun s c => .clusterPenalty c s) _ _
  · exact .refl s

/-- One cluster of those that shed power. -/
def shedCluster (target : Nat) (s : State) (c : Nat) : State :=
  let x := updIsland c (fun x => { x with capPoint := max x.capPoint target }) s
  if (islandOf s c).point < target then logPolicy 0x47 6 1 c (pointMhz (islandOf s c).point) (pointMhz target) (fwPoint c target x) else x

theorem shedClusters_eq (target mw : Nat) (temps : List (Nat × Nat)) (s : State) : shedClusters target mw temps s =
    (sortBy (fun a b => decide (lookD temps b 0 ≤ lookD temps a 0)) (clustersUp s)).foldl (shedCluster target)
      (s.setPwr { s.pwr with powerMw := mw }) := rfl

theorem shedCluster_moved (target : Nat) (s : State) (c : Nat) : IslandsMoved s (shedCluster target s c) := by
  unfold shedCluster
  dsimp only
  split
  · exact ((IslandsMoved.updIsland ..).trans (.fwPoint ..)).logPolicy ..
  · exact .updIsland ..

/-- One engine of those that shed power. -/
def shedEngine (s : State) (e : Nat) : State :=
  let old := (islandOf s e).mhz
  let lo := min old (Config.engineFloor e)
  let new := lo + Config.freeNat s.draw % (old - lo + 1)
  if new = old then drawn s else logPolicy 0x47 6 1 e old new (updIsland e (fun x => { withMhz new x with capMhz := new }) (drawn s))

theorem shedEngines_eq (s : State) : shedEngines s = engineIslands.foldl shedEngine s := rfl

theorem shedEngine_moved (s : State) (e : Nat) : IslandsMoved s (shedEngine s e) := by
  unfold shedEngine
  dsimp only
  split
  · exact .drawn s
  · exact ((IslandsMoved.drawn s).trans (.updIsland ..)).logPolicy ..

theorem capRelax_moved (s : State) (target : Nat) : IslandsMoved s (capRelax s target) := by
  unfold capRelax
  refine (IslandsMoved.foldl (fun s e => ?_) _ _).trans (.foldl (fun s c => ?_) _ _)
  · dsimp only
    split
    · exact .refl s
    · exact (IslandsMoved.updIsland ..).logPolicy ..
  · dsimp only
    split
    · exact (IslandsMoved.updIsland ..).logPolicy ..
    · exact .refl s

/-! ### Clusters above the target -/

theorem mem_insertBy {α : Type} (le : α → α → Bool) (x y : α) (l : List α) : y ∈ insertBy le x l ↔ y = x ∨ y ∈ l := by
  induction l with
  | nil => simp [insertBy]
  | cons z r ih =>
    unfold insertBy
    split
    · simp
    · simp [ih, or_left_comm]

theorem mem_sortBy {α : Type} (le : α → α → Bool) (y : α) (l : List α) : y ∈ sortBy le l ↔ y ∈ l := by
  induction l with
  | nil => rfl
  | cons x r ih => rw [sortBy, mem_insertBy, ih, List.mem_cons]

theorem capTarget_le (s : State) (mw : Nat) : capTarget s mw ≤ 5 := by
  unfold capTarget
  dsimp only
  cases h : (List.range 6).find? _ with
  | none => exact le_rfl
  | some p =>
    have hp := List.mem_range.mp (List.mem_of_find?_eq_some h)
    exact Nat.lt_succ_iff.mp hp

theorem capTarget_congr (hm : t.mason = s.mason) (hi : t.pwr.islands = s.pwr.islands) (hc : t.pwr.capW = s.pwr.capW) (mw : Nat) :
    capTarget t mw = capTarget s mw := by
  unfold capTarget clustersUp unitOf
  simp only [hm, hc, islandOf_congr hi]

/-- A cluster that stands at the target or below and is not hot keeps so while others shed. -/
structure AtTarget (target c : Nat) (s : State) : Prop where
  free : pinHeld s = false
  cool : (islandOf s c).hot = false
  point : target ≤ (islandOf s c).point

theorem hot_fwPoint (c p : Nat) (s : State) : (islandOf (fwPoint c p s) c).hot = (islandOf s c).hot := by
  rw [fwPoint, islandOf_updIsland_same]
  split <;> rfl

/-- A free island takes the point of firmware's choosing. -/
theorem islandOf_fwPoint {c : Nat} (hp : pinHeld s = false) (hh : (islandOf s c).hot = false) (p : Nat) :
    islandOf (fwPoint c p s) c = { withPoint p (islandOf s c) with fwPoint := p } := by
  rw [fwPoint, islandOf_updIsland_same, if_neg (by simp [hp, hh])]

theorem islandOf_fwPoint_of_ne {i j : Nat} (h : j ≠ i) (p : Nat) (s : State) : islandOf (fwPoint i p s) j = islandOf s j :=
  islandOf_updIsland_of_ne h ..

theorem islandOf_shedCluster_of_ne {c d : Nat} (h : c ≠ d) (target : Nat) (s : State) : islandOf (shedCluster target s d) c = islandOf s c := by
  unfold shedCluster
  dsimp only
  split
  · rw [islandOf_logPolicy, islandOf_fwPoint_of_ne h, islandOf_updIsland_of_ne h]
  · rw [islandOf_updIsland_of_ne h]

theorem shedCluster_hot (target c : Nat) (s : State) : (islandOf (shedCluster target s c) c).hot = (islandOf s c).hot := by
  unfold shedCluster
  dsimp only
  split
  · rw [islandOf_logPolicy, hot_fwPoint, islandOf_updIsland_same]
  · rw [islandOf_updIsland_same]

theorem shedCluster_atTarget {target c : Nat} (h5 : target ≤ 5) (hp : pinHeld s = false) (hh : (islandOf s c).hot = false) :
    AtTarget target c (shedCluster target s c) := by
  refine ⟨(shedCluster_moved ..).pinHeld.trans hp, (shedCluster_hot ..).trans hh, ?_⟩
  unfold shedCluster
  dsimp only
  split
  · rw [islandOf_logPolicy, islandOf_fwPoint (s := updIsland c _ s) hp (by rw [islandOf_updIsland_same]; exact hh)]
    exact le_min h5 le_rfl
  · next hlt =>
    rw [islandOf_updIsland_same]
    exact not_lt.mp hlt

/-- While clusters shed, one of them that is free comes to the target. -/
theorem shed_atTarget {target c : Nat} (h5 : target ≤ 5) (l : List Nat) (s : State) (hp : pinHeld s = false) (hh : (islandOf s c).hot = false)
    (hc : c ∈ l ∨ target ≤ (islandOf s c).point) : AtTarget target c (l.foldl (shedCluster target) s) := by
  induction l generalizing s with
  | nil => exact ⟨hp, hh, hc.resolve_left (List.not_mem_nil)⟩
  | cons d r ih =>
    by_cases hd : c = d
    · subst hd
      obtain ⟨hp', hh', hc'⟩ := shedCluster_atTarget h5 hp hh
      exact ih _ hp' hh' (.inr hc')
    · have hi := islandOf_shedCluster_of_ne hd target s
      refine ih _ ((shedCluster_moved ..).pinHeld.trans hp) (by rw [hi]; exact hh) ?_
      rw [hi]
      exact hc.imp_left (fun h => (List.mem_cons.mp h).resolve_left hd)

theorem islandOf_shedEngine_of_ne {c e : Nat} (h : c ≠ e) (s : State) : islandOf (shedEngine s e) c = islandOf s c := by
  unfold shedEngine
  dsimp only
  split
  · rfl
  · rw [islandOf_logPolicy, islandOf_updIsland_of_ne h, islandOf_drawn]

theorem islandOf_shedEngines {c : Nat} (hc : c < 17) (s : State) : islandOf (shedEngines s) c = islandOf s c := by
  rw [shedEngines_eq]
  have hne : ∀ e ∈ engineIslands, c ≠ e := fun e he => by
    obtain ⟨k, -, rfl⟩ := List.mem_map.mp he
    omega
  revert hne
  generalize engineIslands = l
  intro hne
  induction l generalizing s with
  | nil => rfl
  | cons e r ih =>
    exact (ih _ (fun x hx => hne x (List.mem_cons_of_mem _ hx))).trans (islandOf_shedEngine_of_ne (hne e List.mem_cons_self) s)

theorem lt_of_mem_clustersUp {c : Nat} (h : c ∈ clustersUp s) : c < 17 := List.mem_range.mp (List.mem_filter.mp h).1

/-! ### The package-power loop -/

/-- The state in which a period of the loop compares power and cap. -/
def loopStart (mw : Nat) (temps : List (Nat × Nat)) (s : State) : State :=
  let x := noteHottest temps (applyCap s)
  let y := limiterPenalty (x.setPwr { x.pwr with powerMw := mw, fallback := false })
  y.setPwr { y.pwr with engaged := 0 }

/-- Power above the cap is shed, to a target point. -/
def loopShed (mw : Nat) (temps : List (Nat × Nat)) (target : Nat) (s : State) : State :=
  let x := shedClusters target mw temps s
  let y := if (clustersUp x).all (fun c => (islandOf x c).point == 5) then shedEngines x else x
  let z := if atFloor y && !y.pwr.capUnmet then logPolicy 0x47 6 3 0x50 (y.pwr.capW * 1000) mw y else y
  z.setPwr { z.pwr with capUnmet := atFloor y }

/-- What a period of the loop does between the comparison and the request of voltages. -/
def loopActs (mw : Nat) (temps : List (Nat × Nat)) (s : State) : State :=
  if s.pwr.capW * 1000 < mw then loopShed mw temps (capTarget s mw) s else capRelax (s.setPwr { s.pwr with capUnmet := false }) (capTarget s mw)

theorem packagePowerLoop_eq {mw : Nat} {temps : List (Nat × Nat)} (hr : loopsRun s = true) (hi : isolated s blkPower = false) :
    exec (.packagePowerLoop mw temps) s = .next (driveAlert (alertAsserted s) (requestVolts (loopActs mw temps (loopStart mw temps s)))) := by
  change execPackagePowerLoop mw temps s = _
  unfold execPackagePowerLoop
  extract_lets before _ _ _ _ _ x target y z unmet w _ _ v
  have hx : loopStart mw temps s = x := rfl
  refine congrArg _ ((if_neg (by simp [hr])).trans ((if_neg (by simp [hi])).trans ?_))
  rw [hx]
  clear_value x
  refine congrArg (fun z => driveAlert before (requestVolts z)) ?_
  refine if_ctx_congr Iff.rfl (fun _ => ?_) (fun _ => ?_)
  · unfold loopShed
    have hy : shedClusters (capTarget x mw) mw temps x = y := rfl
    rw [hy]
  · rfl

/-- The power record of the cap in force. -/
def capped (p : Power) : Power := { p with capW := p.nextCap.getD p.capW, nextCap := none }

theorem applyCap_pwr (s : State) : (applyCap s).pwr = capped s.pwr := by
  unfold applyCap
  split
  · next w h => simp [capped, h]
  · next h =>
    cases hp : s.pwr
    rw [hp] at h
    obtain rfl := h
    rfl

theorem applyCap_keeps (s : State) : (applyCap s).mem = s.mem ∧ (applyCap s).mason = s.mason := by
  unfold applyCap
  split <;> simp

theorem noteHottest_eq (temps : List (Nat × Nat)) (s : State) :
    ∃ h i, noteHottest temps s = s.setPwr { s.pwr with hottest := h, hottestIsland := i } := by
  unfold noteHottest
  split
  · exact ⟨s.pwr.hottest, s.pwr.hottestIsland, rfl⟩
  · exact ⟨_, _, rfl⟩

/-- What a period of the loop starts from: the cap in force, control taken back, and islands lowered only where the limiter engaged often. -/
structure LoopStarted (mw : Nat) (s t : State) : Prop where
  powerMw : t.pwr.powerMw = mw
  capW : t.pwr.capW = s.pwr.nextCap.getD s.pwr.capW
  nextCap : t.pwr.nextCap = none
  fallback : t.pwr.fallback = false
  engaged : t.pwr.engaged = 0
  free : pinHeld t = pinHeld s
  mem : t.mem = s.mem
  mason : t.mason = s.mason
  islands : s.pwr.engaged ≤ 10 → t.pwr.islands = s.pwr.islands

theorem loopStart_started (mw : Nat) (temps : List (Nat × Nat)) (s : State) : LoopStarted mw s (loopStart mw temps s) := by
  obtain ⟨hmem, hmason⟩ := applyCap_keeps s
  have hcap := applyCap_pwr s
  obtain ⟨h, i, hn⟩ := noteHottest_eq temps (applyCap s)
  unfold loopStart
  rw [hn]
  generalize applyCap s = y at hmem hmason hcap
  have hc : y.pwr.capW = s.pwr.nextCap.getD s.pwr.capW := by rw [hcap]; rfl
  have hn : y.pwr.nextCap = none := by rw [hcap]; rfl
  have hp : y.pwr.throttlePin = s.pwr.throttlePin := by rw [hcap]; rfl
  have hi : y.pwr.islands = s.pwr.islands := by rw [hcap]; rfl
  have hm := limiterPenalty_moved ((y.setPwr { y.pwr with hottest := h, hottestIsland := i }).setPwr
    { y.pwr with hottest := h, hottestIsland := i, powerMw := mw, fallback := false })
  refine ⟨congrArg Power.powerMw hm.pwr, (congrArg Power.capW hm.pwr).trans hc,
    (congrArg Power.nextCap hm.pwr).trans hn, congrArg Power.fallback hm.pwr, rfl,
    (congrArg Power.throttlePin hm.pwr).trans hp, hm.mem.trans hmem, hm.mason.trans hmason, fun he => ?_⟩
  have hid : ¬ 10 < y.pwr.engaged := by rw [hcap]; exact not_lt.mpr he
  exact (congrArg (fun x : State => x.pwr.islands) (if_neg hid)).trans hi

end Sys2Proof.Machine
end

section
/-! The loops, clause by clause (R686, R687, R690, R692, R695): a period of the package-power loop, a temperature sample and a governor's decision. -/

namespace Sys2Proof.Machine

open Sys2Proof

variable {s t u : State}

/-! ### The package-power loop -/

theorem loopShed_pwr (mw : Nat) (temps : List (Nat × Nat)) (target : Nat) (s : State) :
    ∃ x b, (loopShed mw temps target s).pwr = { s.pwr with powerMw := mw, islands := x, capUnmet := b } ∧
      (loopShed mw temps target s).mem = s.mem ∧ (loopShed mw temps target s).mason = s.mason := by
  have hx : IslandsMoved (s.setPwr { s.pwr with powerMw := mw }) (shedClusters target mw temps s) := .foldl (fun s c => shedCluster_moved target s c) _ _
  unfold loopShed
  generalize shedClusters target mw temps s = x at hx
  have hy : IslandsMoved x (if (clustersUp x).all (fun c => (islandOf x c).point == 5) then shedEngines x else x) := by
    split
    · exact .foldl shedEngine_moved _ _
    · exact .refl x
  have hy := hx.trans hy
  dsimp only
  generalize (if (clustersUp x).all (fun c => (islandOf x c).point == 5) then shedEngines x else x) = y at hy
  have hz : IslandsMoved (s.setPwr { s.pwr with powerMw := mw })
      (if atFloor y && !y.pwr.capUnmet then logPolicy 0x47 6 3 0x50 (y.pwr.capW * 1000) mw y else y) := by
    split
    · exact hy.logPolicy ..
    · exact hy
  generalize (if atFloor y && !y.pwr.capUnmet then logPolicy 0x47 6 3 0x50 (y.pwr.capW * 1000) mw y else y) = z at hz
  exact ⟨z.pwr.islands, atFloor y, congrArg (fun p : Power => { p with capUnmet := atFloor y }) hz.pwr, hz.mem, hz.mason⟩

/-- Of the clusters that shed power one that is free stands at the target or below it. -/
theorem loopShed_point {mw target c : Nat} {temps : List (Nat × Nat)} (h5 : target ≤ 5) (hp : pinHeld s = false) (hc : c ∈ clustersUp s)
    (hh : (islandOf s c).hot = false) : target ≤ (islandOf (loopShed mw temps target s) c).point := by
  have hx : AtTarget target c (shedClusters target mw temps s) := by
    rw [shedClusters_eq]
    exact shed_atTarget h5 _ _ hp hh (.inl ((mem_sortBy ..).mpr hc))
  unfold loopShed
  generalize shedClusters target mw temps s = x at hx
  have hy : target ≤ (islandOf (if (clustersUp x).all (fun c => (islandOf x c).point == 5) then shedEngines x else x) c).point := by
    split
    · rw [islandOf_shedEngines (lt_of_mem_clustersUp hc)]
      exact hx.point
    · exact hx.point
  dsimp only
  generalize (if (clustersUp x).all (fun c => (islandOf x c).point == 5) then shedEngines x else x) = y at hy
  refine le_of_le_of_eq hy (congrArg IslandPow.point ?_)
  have hz : islandOf (if atFloor y && !y.pwr.capUnmet then logPolicy 0x47 6 3 0x50 (y.pwr.capW * 1000) mw y else y) c = islandOf y c := by
    split
    · exact islandOf_logPolicy ..
    · rfl
  exact hz.symm

theorem loopActs_above {mw : Nat} (temps : List (Nat × Nat)) (h : s.pwr.capW * 1000 < mw) :
    loopActs mw temps s = loopShed mw temps (capTarget s mw) s := if_pos h

theorem loopActs_within {mw : Nat} (temps : List (Nat × Nat)) (h : mw ≤ s.pwr.capW * 1000) :
    loopActs mw temps s = capRelax (s.setPwr { s.pwr with capUnmet := false }) (capTarget s mw) := if_neg (not_lt.mpr h)

theorem loopActs_pwr (mw : Nat) (temps : List (Nat × Nat)) (s : State) (hm : s.pwr.powerMw = mw) : ∃ x b,
    (loopActs mw temps s).pwr = { s.pwr with islands := x, capUnmet := b } ∧ (mw ≤ s.pwr.capW * 1000 → b = false) ∧
      (loopActs mw temps s).mem = s.mem ∧ (loopActs mw temps s).mason = s.mason := by
  rcases Nat.lt_or_ge (s.pwr.capW * 1000) mw with h | h
  · obtain ⟨x, b, hp, hmem, hmason⟩ := loopShed_pwr mw temps (capTarget s mw) s
    rw [loopActs_above temps h]
    refine ⟨x, b, ?_, fun hle => absurd h (not_lt.mpr hle), hmem, hmason⟩
    rw [hp, ← hm]
  · have hr := capRelax_moved (s.setPwr { s.pwr with capUnmet := false }) (capTarget s mw)
    rw [loopActs_within temps h]
    exact ⟨_, false, hr.pwr, fun _ => rfl, hr.mem, hr.mason⟩

/-- What a period of the loop leaves, in the words of the obligation. -/
theorem packagePowerLoop_run {mw : Nat} {temps : List (Nat × Nat)} (hr : loopsRun s = true) (hi : isolated s blkPower = false) :
    ∃ t, exec (.packagePowerLoop mw temps) s = .next t ∧ t.pwr.powerMw = mw ∧ t.pwr.capW = s.pwr.nextCap.getD s.pwr.capW ∧ t.pwr.nextCap = none ∧
      t.pwr.fallback = false ∧ t.pwr.engaged = 0 ∧ t.pwr.vddk ≤ 950 ∧ t.pwr.vddq ≤ 850 ∧
      (mw ≤ s.pwr.nextCap.getD s.pwr.capW * 1000 → t.pwr.capUnmet = false) ∧
      (s.pwr.nextCap.getD s.pwr.capW * 1000 < mw → s.pwr.engaged ≤ 10 → pinHeld s = false → ∀ c ∈ clustersUp s, (islandOf s c).hot = false →
        capTarget (s.setPwr { s.pwr with capW := s.pwr.nextCap.getD s.pwr.capW }) mw ≤ (islandOf t c).point) ∧
      t.mem = s.mem ∧ t.mason = s.mason := by
  have hs := loopStart_started mw temps s
  refine ⟨_, packagePowerLoop_eq hr hi, ?_⟩
  generalize loopStart mw temps s = x at hs
  obtain ⟨isl, unmet, hp, hunmet, hmem, hmason⟩ := loopActs_pwr mw temps x hs.powerMw
  have hpt : s.pwr.nextCap.getD s.pwr.capW * 1000 < mw → s.pwr.engaged ≤ 10 → pinHeld s = false → ∀ c ∈ clustersUp s, (islandOf s c).hot = false →
      capTarget (s.setPwr { s.pwr with capW := s.pwr.nextCap.getD s.pwr.capW }) mw ≤ (islandOf (loopActs mw temps x) c).point := by
    intro hlt he hfree c hc hh
    have htgt : capTarget x mw = capTarget (s.setPwr { s.pwr with capW := s.pwr.nextCap.getD s.pwr.capW }) mw := by
      refine capTarget_congr ?_ ?_ ?_ mw
      · exact hs.mason
      · exact hs.islands he
      · exact hs.capW
    have hup : clustersUp x = clustersUp s := by unfold clustersUp unitOf; rw [hs.mason]
    rw [← htgt, loopActs_above temps (by rw [hs.capW]; exact hlt)]
    exact loopShed_point (capTarget_le ..) (hs.free.trans hfree) (by rw [hup]; exact hc) (by rw [islandOf_congr (hs.islands he)]; exact hh)
  generalize loopActs mw temps x = y at hp hmem hmason hpt
  rw [driveAlert_pwr, driveAlert_mem, driveAlert_mason]
  refine ⟨?_, ?_, ?_, ?_, ?_, min_le_left .., min_le_left .., fun hle => ?_, fun a b c d e f => ?_, hmem.trans hs.mem, hmason.trans hs.mason⟩
  · exact (congrArg Power.powerMw hp).trans hs.powerMw
  · exact (congrArg Power.capW hp).trans hs.capW
  · exact (congrArg Power.nextCap hp).trans hs.nextCap
  · exact (congrArg Power.fallback hp).trans hs.fallback
  · exact (congrArg Power.engaged hp).trans hs.engaged
  · exact (congrArg Power.capUnmet hp).trans (hunmet (by rw [hs.capW]; exact hle))
  · rw [islandOf_driveAlert, islandOf_requestVolts]
    exact hpt a b c d e f

/-! ### The temperature loop -/

@[simp] theorem tempTarget_updIsland (i : Nat) (f : IslandPow → IslandPow) (s : State) : tempTarget (updIsland i f s) = tempTarget s := rfl

theorem lowerCeiling_island {i : Nat} (hi : isCluster i = true) (s : State) :
    (islandOf (lowerCeiling i s) i).ceiling = min 5 ((islandOf s i).ceiling + 1) ∧ (islandOf (lowerCeiling i s) i).cool = 0 := by
  have hfw (c p : Nat) (x : State) : (islandOf (fwPoint c p x) c).ceiling = (islandOf x c).ceiling ∧
      (islandOf (fwPoint c p x) c).cool = (islandOf x c).cool := by
    rw [fwPoint, islandOf_updIsland_same]
    split <;> exact ⟨rfl, rfl⟩
  unfold lowerCeiling
  rw [if_pos hi]
  dsimp only
  split
  · split <;> simp [hfw]
  · simp

theorem islandOf_lowerCeiling_of_ne {i j : Nat} (hi : isCluster i = true) (hj : j ≠ i) (s : State) : islandOf (lowerCeiling i s) j = islandOf s j := by
  unfold lowerCeiling
  rw [if_pos hi]
  dsimp only
  split
  · split <;> simp [islandOf_fwPoint_of_ne hj, islandOf_updIsland_of_ne hj]
  · simp [islandOf_updIsland_of_ne hj]

theorem lowerCeiling_moved {i : Nat} (hi : isCluster i = true) (s : State) : IslandsMoved s (lowerCeiling i s) := by
  unfold lowerCeiling
  rw [if_pos hi]
  dsimp only
  split
  · split
    · exact (((IslandsMoved.updIsland ..).logPolicy ..).trans (.fwPoint ..)).logPolicy ..
    · exact ((IslandsMoved.updIsland ..).logPolicy ..).trans (.fwPoint ..)
  · exact (IslandsMoved.updIsland ..).logPolicy ..

theorem raiseCeiling_eq {i : Nat} (hi : isCluster i = true) (s : State) : raiseCeiling i s =
    (let x := updIsland i (fun x => { x with ceiling := (islandOf s i).ceiling - 1, cool := 0 }) s
     if (islandOf s i).ceiling = 0 then x
     else logPolicy 0x47 5 5 i (pointMhz (islandOf s i).ceiling) (pointMhz ((islandOf s i).ceiling - 1)) x) := if_pos hi

/-- What one sample of a cluster does to its island. -/
structure Sampled (i v : Nat) (s t : State) : Prop where
  moved : IslandsMoved s t
  others : ∀ j, j ≠ i → islandOf t j = islandOf s j
  above : tempTarget s < v → (islandOf t i).ceiling = min 5 ((islandOf s i).ceiling + 1) ∧ (islandOf t i).cool = 0
  well : v ≤ tempTarget s → v + 24 ≤ tempTarget s → (islandOf s i).cool + 1 < 10 → islandOf t i = { islandOf s i with cool := (islandOf s i).cool + 1 }
  tenth : v ≤ tempTarget s → v + 24 ≤ tempTarget s → 9 ≤ (islandOf s i).cool →
    islandOf t i = { islandOf s i with ceiling := (islandOf s i).ceiling - 1, cool := 0 } ∧
      ((islandOf s i).ceiling ≠ 0 → t.tel.plog.getLast?.map (fun r => (r.policy, r.reason, r.object, r.old, r.new)) =
        some (5, 5, i, pointMhz (islandOf s i).ceiling, pointMhz ((islandOf s i).ceiling - 1)))
  near : v ≤ tempTarget s → tempTarget s < v + 24 → islandOf t i = { islandOf s i with cool := 0 }

theorem tempSample_sampled {i : Nat} (hi : isCluster i = true) (v : Nat) (s : State) : Sampled i v s (tempSample s (i, v)) := by
  rcases Nat.lt_or_ge (tempTarget s) v with h | h
  · have he : tempSample s (i, v) = lowerCeiling i s := if_pos h
    rw [he]
    exact ⟨lowerCeiling_moved hi s, fun j hj => islandOf_lowerCeiling_of_ne hi hj s, fun _ => lowerCeiling_island hi s,
      fun hle => absurd h (not_lt.mpr hle), fun hle => absurd h (not_lt.mpr hle), fun hle => absurd h (not_lt.mpr hle)⟩
  · by_cases hw : v + 24 ≤ tempTarget s
    · by_cases hc : 10 ≤ (islandOf s i).cool + 1
      · have he : tempSample s (i, v) = raiseCeiling i s := (if_neg (not_lt.mpr h)).trans ((if_pos hw).trans (if_pos hc))
        rw [he, raiseCeiling_eq hi]
        dsimp only
        refine ⟨?_, fun j hj => ?_, fun hlt => absurd h (not_le.mpr hlt), fun _ _ hlt => absurd hc (not_le.mpr hlt), fun _ _ _ => ⟨?_, fun h0 => ?_⟩,
          fun _ hlt => absurd hw (not_le.mpr hlt)⟩
        · split
          · exact .updIsland ..
          · exact (IslandsMoved.updIsland ..).logPolicy ..
        · split <;> simp [islandOf_updIsland_of_ne hj]
        · split <;> simp
        · rw [if_neg h0]
          exact logPolicy_last ..
      · have he : tempSample s (i, v) = updIsland i (fun x => { x with cool := x.cool + 1 }) s := (if_neg (not_lt.mpr h)).trans ((if_pos hw).trans (if_neg hc))
        rw [he]
        exact ⟨.updIsland .., fun j hj => islandOf_updIsland_of_ne hj .., fun hlt => absurd h (not_le.mpr hlt), fun _ _ _ => islandOf_updIsland_same ..,
          fun _ _ h9 => absurd (Nat.succ_le_succ h9) hc, fun _ hlt => absurd hw (not_le.mpr hlt)⟩
    · have he : tempSample s (i, v) = updIsland i (fun x => { x with cool := 0 }) s := (if_neg (not_lt.mpr h)).trans (if_neg hw)
      rw [he]
      exact ⟨.updIsland .., fun j hj => islandOf_updIsland_of_ne hj .., fun hlt => absurd h (not_le.mpr hlt), fun _ hle => absurd hle hw,
        fun _ hle => absurd hle hw, fun _ _ => islandOf_updIsland_same ..⟩

theorem noteHottest_single (i v : Nat) (s : State) : ∃ k, noteHottest [(i, v)] s = s.setPwr { s.pwr with hottest := v, hottestIsland := k } := by
  have hv : (hottestOf [(i, v)]).1 = v := by
    unfold hottestOf
    dsimp only [List.foldl]
    split
    · rfl
    · next h => exact (Nat.eq_zero_of_not_pos h).symm
  refine ⟨(hottestOf [(i, v)]).2, ?_⟩
  rw [noteHottest, if_neg (by simp), hv]

@[simp] theorem requestVolts_tel (s : State) : (requestVolts s).tel = s.tel := rfl

/-- A sample of one cluster. -/
theorem temperatureLoop_single {i : Nat} (v : Nat) (hr : loopsRun s = true) (hi : isolated s blkPower = false) (hc : isCluster i = true) :
    ∃ x t, exec (.temperatureLoop [(i, v)]) s = .next (requestVolts t) ∧ Sampled i v x t ∧ x.pwr.hottest = v ∧ tempTarget x = tempTarget s ∧
      ∀ j, islandOf x j = islandOf s j := by
  obtain ⟨k, hn⟩ := noteHottest_single i v s
  have hf : [(i, v)].filter (fun e => isCluster e.1 || isEngine e.1) = [(i, v)] := by simp [hc]
  have hw : ∃ c, (if (!List.isEmpty [(i, v)]) = true ∧ (100 - (noteHottest [(i, v)] s).course.policy.margin) * 8 ≤ (noteHottest [(i, v)] s).pwr.hottest
      then warn 2 1 (noteHottest [(i, v)] s) else noteHottest [(i, v)] s) = (noteHottest [(i, v)] s).setCourse c := by
    generalize noteHottest [(i, v)] s = y
    split
    · exact ⟨_, rfl⟩
    · exact ⟨y.course, rfl⟩
  obtain ⟨c, hw⟩ := hw
  rw [hn] at hw
  refine ⟨(s.setPwr { s.pwr with hottest := v, hottestIsland := k }).setCourse c, tempSample ((s.setPwr { s.pwr with hottest := v, hottestIsland := k }).setCourse c) (i, v),
    ?_, tempSample_sampled hc v _, rfl, rfl, fun _ => rfl⟩
  refine congrArg _ ((if_neg (by simp [hr])).trans ?_)
  dsimp only
  rw [hn, hw, if_neg (by exact fun h => absurd (hi.symm.trans h) Bool.false_ne_true), hf]
  rfl

end Sys2Proof.Machine
end

section
/-! Governors, hardware protections, the fallback governor and standby (R685, R688 to R693, R697, R722). -/

namespace Sys2Proof.Machine

open Sys2Proof

variable {s t u : State}

/-! ### A governor's decision -/

/-- What a governor asks of an island, in MHz. -/
def governorMhz (s : State) (i occ : Nat) : Nat :=
  if isCluster i then pointMhz (dvfsPoint s i (Config.dvfsWant i occ)) else dvfsMhz s i (Config.dvfsWant i occ)

/-- The island after a governor's decision, its hold apart. -/
def governed (i occ : Nat) (s : State) : State :=
  if isCluster i then fwPoint i (dvfsPoint s i (Config.dvfsWant i occ)) s
  else if (islandOf s i).hot || (isCluster i && pinHeld s) then s else updIsland i (fun x => withMhz (governorMhz s i occ) x) s

/-- A hold ends where the island is no longer hot and is raised. -/
def unhold (mhz before : Nat) (y : IslandPow) : IslandPow := { y with held := y.held && (y.hot || decide (mhz ≤ before)) }

theorem dvfsGovernor_islands {i : Nat} (occ : Nat) (hr : loopsRun s = true) (hi : isolated s blkPower = false) (hc : (isCluster i || isEngine i) = true) :
    ∃ t, exec (.dvfsGovernor i occ) s = .next t ∧
      ∀ j, islandOf t j = islandOf (updIsland i (unhold (governorMhz s i occ) (islandOf s i).mhz) (governed i occ s)) j := by
  have hlog (c : Prop) [Decidable c] (isl p r o a b : Nat) (x : State) (j : Nat) :
      islandOf (if c then logPolicy isl p r o a b x else x) j = islandOf x j := by
    split
    · exact islandOf_logPolicy ..
    · rfl
  refine ⟨_, congrArg Host.Outcome.next (if_neg (by simp [hr, hi, hc])), fun j => ?_⟩
  dsimp only
  rw [islandOf_driveAlert, islandOf_requestVolts, hlog, hlog]
  rfl

theorem islandOf_governed_of_ne {i j : Nat} (hj : j ≠ i) (occ : Nat) (s : State) : islandOf (governed i occ s) j = islandOf s j := by
  unfold governed
  split
  · exact islandOf_fwPoint_of_ne hj ..
  · split
    · rfl
    · exact islandOf_updIsland_of_ne hj ..

theorem min_ceiling_le_dvfsPoint (s : State) (i want : Nat) :
    min 5 (max (islandOf s i).ceiling (islandOf s i).capPoint) ≤ min 5 (dvfsPoint s i want) :=
  min_le_min_left _ ((le_max_right ..).trans (le_max_left ..))

theorem dvfsMhz_le (s : State) (i want : Nat) : dvfsMhz s i want ≤ min (islandOf s i).ceilingMhz (islandOf s i).capMhz :=
  (min_le_right ..).trans (min_le_left ..)

/-- The governor of a free cluster. -/
theorem dvfsGovernor_cluster {i : Nat} (occ : Nat) (hr : loopsRun s = true) (hi : isolated s blkPower = false) (hc : isCluster i = true)
    (hh : (islandOf s i).hot = false) (hp : pinHeld s = false) : ∃ t, exec (.dvfsGovernor i occ) s = .next t ∧
      (islandOf t i).point = min 5 (dvfsPoint s i (Config.dvfsWant i occ)) ∧
      min 5 (max (islandOf s i).ceiling (islandOf s i).capPoint) ≤ (islandOf t i).point ∧ ∀ j, j ≠ i → islandOf t j = islandOf s j := by
  obtain ⟨t, ht, hj⟩ := dvfsGovernor_islands occ hr hi (by rw [hc]; rfl)
  have hpt : (islandOf t i).point = min 5 (dvfsPoint s i (Config.dvfsWant i occ)) := by
    rw [hj, islandOf_updIsland_same, governed, if_pos hc, islandOf_fwPoint hp hh]
    rfl
  refine ⟨t, ht, hpt, ?_, fun j hne => ?_⟩
  · rw [hpt]
    exact min_ceiling_le_dvfsPoint ..
  · rw [hj, islandOf_updIsland_of_ne hne, islandOf_governed_of_ne hne]

/-- The governor of a free engine. -/
theorem dvfsGovernor_engine {i : Nat} (occ : Nat) (hr : loopsRun s = true) (hi : isolated s blkPower = false) (hc : isCluster i = false)
    (he : isEngine i = true) (hh : (islandOf s i).hot = false) : ∃ t, exec (.dvfsGovernor i occ) s = .next t ∧
      (islandOf t i).mhz ≤ min (islandOf s i).ceilingMhz (islandOf s i).capMhz ∧ (islandOf t i).mhz ≤ 2000 ∧
      ∀ j, j ≠ i → islandOf t j = islandOf s j := by
  obtain ⟨t, ht, hj⟩ := dvfsGovernor_islands occ hr hi (by rw [hc, he]; rfl)
  have hm : (islandOf t i).mhz = min 2000 (dvfsMhz s i (Config.dvfsWant i occ)) := by
    rw [hj, islandOf_updIsland_same, governed, if_neg (by simp [hc]), if_neg (by simp [hh, hc]), islandOf_updIsland_same, governorMhz,
      if_neg (by simp [hc])]
    rfl
  refine ⟨t, ht, ?_, ?_, fun j hne => ?_⟩
  · rw [hm]
    exact (min_le_right ..).trans (dvfsMhz_le ..)
  · rw [hm]
    exact min_le_left ..
  · rw [hj, islandOf_updIsland_of_ne hne, islandOf_governed_of_ne hne]

/-! ### Hardware protections -/

/-- A hardware step of an island: a point lower, or half the clock. -/
structure SteppedDown (i : Nat) (x y : IslandPow) : Prop where
  cluster : isCluster i = true → y.point = min 5 (x.point + 1)
  other : isCluster i = false → y.mhz = x.mhz / 2
  held : y.held = x.held
  hot : y.hot = x.hot

theorem throttleStep_island (i : Nat) (s : State) : SteppedDown i (islandOf s i) (islandOf (throttleStep i s) i) := by
  unfold throttleStep
  cases h : isCluster i
  · rw [if_neg Bool.false_ne_true, islandOf_updIsland_same]
    exact ⟨fun hc => absurd (h.symm.trans hc) Bool.false_ne_true, fun _ => rfl, rfl, rfl⟩
  · rw [if_pos rfl, islandOf_updIsland_same]
    exact ⟨fun _ => rfl, fun hc => absurd (h.symm.trans hc) Bool.false_ne_true.symm, rfl, rfl⟩

theorem throttleStep_eq (i : Nat) (s : State) : ∃ f, throttleStep i s = updIsland i f s := by
  unfold throttleStep
  split <;> exact ⟨_, rfl⟩

theorem islandOf_throttleStep_of_ne {i j : Nat} (hj : j ≠ i) (s : State) : islandOf (throttleStep i s) j = islandOf s j := by
  obtain ⟨f, hf⟩ := throttleStep_eq i s
  rw [hf, islandOf_updIsland_of_ne hj]

@[simp] theorem islandOf_bump (b rel : Nat) (s : State) (i : Nat) : islandOf (bump b rel s) i = islandOf s i := rfl

@[simp] theorem cell_driveAlert (before : Bool) (s : State) (b rel : Nat) : cell (driveAlert before s) b rel = cell s b rel :=
  cell_congr (driveAlert_csr ..) ..

theorem csr_throttleStep (i : Nat) (s : State) : (throttleStep i s).csr = s.csr := by
  obtain ⟨f, hf⟩ := throttleStep_eq i s
  rw [hf]
  rfl

theorem thermalThrottle_run {i : Nat} (hr : s.boot.inReset = false) (hi : allIslands.contains i = true) :
    ∃ t, exec (.thermalThrottle i) s = .next t ∧ (islandOf t i).held = true ∧ (islandOf t i).hot = true ∧
      (isCluster i = true → (islandOf t i).point = min 5 ((islandOf s i).point + 1)) ∧
      (isCluster i = false → (islandOf t i).mhz = (islandOf s i).mhz / 2) ∧ (∀ j, j ≠ i → islandOf t j = islandOf s j) ∧
      cell t blkPower 0x118 = (if (islandOf s i).hot then cell s blkPower 0x118 else (cell s blkPower 0x118 + 1) % 2 ^ 32) := by
  refine ⟨_, congrArg Host.Outcome.next (if_neg (by rw [hr, hi]; decide)), ?_⟩
  dsimp only
  have hx (j : Nat) : islandOf (if (islandOf s i).hot then s else bump blkPower 0x118 s) j = islandOf s j := by split <;> rfl
  have hcell : cell (if (islandOf s i).hot then s else bump blkPower 0x118 s) blkPower 0x118 =
      if (islandOf s i).hot then cell s blkPower 0x118 else (cell s blkPower 0x118 + 1) % 2 ^ 32 := by
    split
    · rfl
    · exact cell_bump_same ..
  generalize (if (islandOf s i).hot then s else bump blkPower 0x118 s) = x at hx hcell
  obtain ⟨hcl, hot, hheld, hhot⟩ := throttleStep_island i (updIsland i (fun x => { x with held := true, hot := true }) x)
  rw [islandOf_updIsland_same] at hcl hot hheld hhot
  rw [islandOf_driveAlert, cell_driveAlert, ← hcell]
  refine ⟨hheld, hhot, fun h => (hcl h).trans ?_, fun h => (hot h).trans ?_, fun j hj => ?_, cell_congr ((csr_throttleStep ..).trans rfl) ..⟩
  · rw [← hx]
  · rw [← hx]
  · rw [islandOf_driveAlert, islandOf_throttleStep_of_ne hj, islandOf_updIsland_of_ne hj, hx]

theorem hardwareThrottleStep_hot {i : Nat} (h : (islandOf s i).hot = true) :
    (∃ t, exec (.hardwareThrottleStep i true) s = .next t ∧ islandOf t i = { islandOf s i with hot := false }) ∧
      ∃ t, exec (.hardwareThrottleStep i false) s = .next t ∧ (isCluster i = true → (islandOf t i).point = min 5 ((islandOf s i).point + 1)) ∧
        (isCluster i = false → (islandOf t i).mhz = (islandOf s i).mhz / 2) ∧ (islandOf t i).hot = true := by
  have hn : ¬ (!(islandOf s i).hot) = true := by simp [h]
  refine ⟨⟨_, congrArg Host.Outcome.next ((if_neg hn).trans (if_pos rfl)), islandOf_updIsland_same ..⟩,
    throttleStep i s, congrArg Host.Outcome.next ((if_neg hn).trans (if_neg Bool.false_ne_true)), ?_⟩
  obtain ⟨hcl, hot, -, hhot⟩ := throttleStep_island i s
  exact ⟨hcl, hot, hhot.trans h⟩

/-! ### The limiter, the diode and the pin -/

theorem diodeRead_run {n : Nat} (temp : Nat) (hr : s.boot.inReset = false) : ∃ t, exec (.diodeRead n temp) s = .next t ∧
    t.pwr.diodeState = (if n < 250 then 2 else if 850 < n then 1 else 0) ∧
    t.pwr.diodeTemp = (if 250 ≤ n ∧ n ≤ 850 then temp else s.pwr.diodeTemp) ∧
    ((s.pwr.diodeState ≠ 0 ∨ (250 ≤ n ∧ n ≤ 850)) → t.course = s.course) := by
  have hst : ((if n < 250 then 2 else if 850 < n then 1 else 0) = 0) ↔ (250 ≤ n ∧ n ≤ 850) := by
    split
    · omega
    · split <;> omega
  refine ⟨_, congrArg Host.Outcome.next (if_neg (by simp [hr])), ?_⟩
  dsimp only
  generalize (if n < 250 then 2 else if 850 < n then 1 else 0) = st at hst
  refine ⟨rfl, ?_, fun h => ?_⟩
  · have hpwr : (if st ≠ 0 ∧ s.pwr.diodeState = 0 then warn 2 1 s else s).pwr = s.pwr := by split <;> rfl
    simp only [State.setPwr_pwr, hpwr, hst]
  · refine (congrArg State.course (if_neg fun hw => ?_)).trans rfl
    rcases h with h | h
    · exact h hw.2
    · exact hw.1 (hst.mpr h)

theorem setThrottle_on (hp : s.pwr.throttlePin = false) (c : Nat) (hc : c < 17) : islandOf (setThrottle true s) c =
    withPoint 5 (islandOf s c) := by
  unfold setThrottle
  extract_lets i _ x
  rw [if_pos rfl, if_neg (by exact fun h => absurd (hp.symm.trans h) Bool.false_ne_true), islandOf_foldl_updIsland List.nodup_range,
    if_pos (List.mem_range.mpr hc), islandOf_logPolicy]
  rfl

theorem setThrottle_pin (on : Bool) (s : State) : (setThrottle on s).pwr.throttlePin = on := by
  unfold setThrottle
  extract_lets i _ x
  cases on
  · rfl
  · rw [if_pos rfl]
    split
    · next h => exact h
    · obtain ⟨y, hy⟩ := foldl_updIsland_eq (List.range 17) (fun _ => withPoint 5) (logPolicy 0x50 5 3 21 0 1 (x.setPwr { x.pwr with throttlePin := true }))
      rw [hy]
      exact congrArg Power.throttlePin (logPolicy_pwr ..)

/-! ### The fallback governor -/

/-- A cluster rises by a point where nothing holds it. -/
def stepUp (pin : Bool) (x : IslandPow) : IslandPow := if x.held ∨ pin ∨ x.point ≤ x.fwPoint then x else withPoint (x.point - 1) x

theorem stepUp_held {pin : Bool} {x : IslandPow} (h : x.held = true ∨ pin = true ∨ x.point ≤ x.fwPoint) : stepUp pin x = x := if_pos h

theorem stepUp_free {pin : Bool} {x : IslandPow} (h1 : x.held = false) (h2 : pin = false) (h3 : x.fwPoint < x.point) :
    stepUp pin x = withPoint (x.point - 1) x := if_neg (by simp [h1, h2, h3])

/-- THROTTLE_N is as it was while clusters rise one after another. -/
theorem foldl_stepUp (l : List Nat) (s : State) :
    l.foldl (fun s c => updIsland c (stepUp (pinHeld s)) s) s = l.foldl (fun x c => updIsland c (stepUp (pinHeld s)) x) s := by
  suffices h : ∀ (x : State), pinHeld x = pinHeld s →
      l.foldl (fun s c => updIsland c (stepUp (pinHeld s)) s) x = l.foldl (fun x c => updIsland c (stepUp (pinHeld s)) x) x from h s rfl
  induction l with
  | nil => exact fun _ _ => rfl
  | cons c r ih =>
    intro x hx
    rw [List.foldl_cons, List.foldl_cons, hx]
    exact ih _ hx

/-- One tick of the fallback governor. -/
theorem fallbackGovernorTick_run (n : Nat) (hf : s.pwr.fallback = true) (hr : s.boot.inReset = false) (hz : s.tel.frozen = false) :
    ∃ t, exec (.fallbackGovernorTick n) s = .next t ∧ t.pwr.powerMw = n ∧ ∀ c, c < 17 →
      (s.pwr.capW * 1000 < n → (islandOf t c).point = min 5 ((islandOf s c).point + 1)) ∧
      (n ≤ s.pwr.capW * 1000 → s.pwr.capW * 900 ≤ n → islandOf t c = islandOf s c) ∧
      (n < s.pwr.capW * 900 → ((islandOf s c).held = true ∨ pinHeld s = true ∨ (islandOf s c).point ≤ (islandOf s c).fwPoint) →
        islandOf t c = islandOf s c) ∧
      (n < s.pwr.capW * 900 → (islandOf s c).held = false → pinHeld s = false → (islandOf s c).fwPoint < (islandOf s c).point →
        (islandOf t c).point = min 5 ((islandOf s c).point - 1)) := by
  have hn : ¬ (!s.pwr.fallback || s.boot.inReset) = true := by simp [hf, hr]
  have hz' : ¬ s.tel.frozen = true := by simp [hz]
  rcases Nat.lt_or_ge (s.pwr.capW * 1000) n with h | h
  · refine ⟨_, congrArg Host.Outcome.next ((if_neg hn).trans ((if_neg hz').trans (if_pos h))), ?_, fun c hc => ⟨fun _ => ?_, fun hle => absurd h (not_lt.mpr hle),
      fun hlt => absurd hlt (by omega), fun hlt => absurd hlt (by omega)⟩⟩
    · obtain ⟨y, hy⟩ := foldl_updIsland_eq (List.range 17) (fun _ x => withPoint (x.point + 1) x) (s.setPwr { s.pwr with powerMw := n })
      exact congrArg (fun x : State => x.pwr.powerMw) hy
    · rw [islandOf_foldl_updIsland List.nodup_range, if_pos (List.mem_range.mpr hc)]
      rfl
  · rcases Nat.lt_or_ge n (s.pwr.capW * 900) with hl | hl
    · refine ⟨(List.range 17).foldl (fun s c => updIsland c (stepUp (pinHeld s)) s) (s.setPwr { s.pwr with powerMw := n }),
        congrArg Host.Outcome.next ((if_neg hn).trans ((if_neg hz').trans ((if_neg (not_lt.mpr h)).trans (if_pos hl)))), ?_, fun c hc => ?_⟩
      · rw [foldl_stepUp]
        obtain ⟨y, hy⟩ := foldl_updIsland_eq (List.range 17) (fun _ => stepUp (pinHeld s)) (s.setPwr { s.pwr with powerMw := n })
        exact congrArg (fun x : State => x.pwr.powerMw) hy
      · rw [foldl_stepUp, islandOf_foldl_updIsland List.nodup_range, if_pos (List.mem_range.mpr hc)]
        refine ⟨fun hlt => absurd h (not_le.mpr hlt), fun _ hle => absurd hl (not_lt.mpr hle), fun _ hx => stepUp_held hx, fun _ h1 h2 h3 => ?_⟩
        exact congrArg IslandPow.point (stepUp_free h1 h2 h3)
    · refine ⟨_, congrArg Host.Outcome.next ((if_neg hn).trans ((if_neg hz').trans ((if_neg (not_lt.mpr h)).trans (if_neg (not_lt.mpr hl))))), rfl,
        fun c _ => ⟨fun hlt => absurd h (not_le.mpr hlt), fun _ _ => rfl, fun hlt => absurd hl (not_le.mpr hlt), fun hlt => absurd hl (not_le.mpr hlt)⟩⟩

end Sys2Proof.Machine
end

section
/-! The conditioned inputs and the pins (R608, R717 to R723), and the obligation. What an alarm leaves is read by the view of the alarms: all that
goes on after one keeps the inputs, the alarm's bits and the identity keys. -/

namespace Sys2Proof.Machine

open Sys2Proof

variable {s t : State}

/-! ### Alarms -/

/-- The pins, the bits of the alarm and whether the identity keys are held. -/
def alarmView : View (Pins × Nat × Bool) where
  get s := (s.pins, s.sec.alarm, s.sec.identity)
  draw _ _ := rfl
  out _ _ := rfl
  csr _ _ := rfl
  err _ _ := rfl
  perf _ _ := rfl
  tel _ _ := rfl
  icp _ _ _ := rfl
  rings _ _ := rfl
  fns _ _ _ := rfl
  ports _ _ := rfl
  mem _ _ := rfl
  act _ _ _ := rfl
  tab _ _ := rfl
  course _ _ := rfl
  elastic _ _ := rfl
  mason _ _ := rfl
  keyCache _ _ := rfl
  pages _ _ := rfl
  sto _ _ := rfl
  grt _ _ _ _ := rfl
  pp _ _ := rfl

@[simp] theorem holdCryptoErase_view {α : Type} {V : View α} (s : State) : V.get (holdCryptoErase s) = V.get s := V.sto ..

@[simp] theorem abortKeyless_view {α : Type} {V : View α} (s : State) : V.get (abortKeyless s) = V.get s := by
  unfold abortKeyless
  split <;> simp

/-- An alarm raises its bit and takes the identity keys; it moves no pin. -/
theorem raiseAlarm_alarm (k : Nat) (s : State) : alarmView.get (raiseAlarm k s) = (s.pins, s.sec.alarm ||| 2 ^ k, false) := by
  unfold raiseAlarm alarmCore
  simp only [stoSettle_view, abortKeyless_view, recordCon_view, holdCryptoErase_view]
  rfl

theorem tamperN_raises (h : (tamperInput s).active = false) : ∃ t, exec (.tamperN true) s = .next t ∧ (tamperInput t).active = true ∧
    t.sec.alarm.testBit 0 = true ∧ t.sec.identity = false := by
  obtain ⟨x, hx, he⟩ : ∃ x, x = s.setPins { s.pins with inputs := put s.pins.inputs 20 { tamperInput s with active := true, since := nowAon s } } ∧
      exec (.tamperN true) s = .next (raiseAlarm 0 x) := ⟨_, rfl, congrArg Host.Outcome.next (if_pos (by simp [h]))⟩
  have ha := raiseAlarm_alarm 0 x
  refine ⟨_, he, ?_⟩
  generalize raiseAlarm 0 x = t at ha
  obtain ⟨hpins, hsec⟩ := Prod.mk.injEq .. ▸ ha
  obtain ⟨halarm, hid⟩ := Prod.mk.injEq .. ▸ hsec
  refine ⟨?_, ?_, hid⟩
  · rw [tamperInput, hpins, hx]
    exact congrArg Input.active (lookD_put_same ..)
  · rw [halarm, Nat.testBit_or]
    simp

theorem tamperN_quiet (h : (tamperInput s).active = true) (on : Bool) :
    ∃ t, exec (.tamperN on) s = .next t ∧ t = s.setPins t.pins ∧ (tamperInput t).active = on :=
  ⟨_, congrArg Host.Outcome.next (if_neg (by simp [h])), rfl, congrArg Input.active (lookD_put_same ..)⟩

/-! ### Inputs -/

@[simp] theorem inputOf_setInput (i : Nat) (x : Input) (s : State) : inputOf (setInput i x s) i = x := lookD_put_same ..

theorem settleInput_input (i : Nat) (on : Bool) (s : State) : (inputOf (settleInput i on s) i).active = on ∧
    (inputOf (settleInput i on s) i).due = false ∧ ((inputOf s i).active ≠ on →
      (inputOf (settleInput i on s) i).recorded = true ∧ (inputOf (settleInput i on s) i).lastEvent = nowAon s) := by
  by_cases h : (inputOf s i).active = on
  · have he : settleInput i on s = setInput i { inputOf s i with due := false } s := if_pos h
    rw [he, inputOf_setInput]
    exact ⟨h, rfl, fun hn => absurd h hn⟩
  · have he : settleInput i on s = setInput i { inputOf (inputEffect i on s) i with
        active := on, lastEvent := nowAon s, recorded := true, since := nowAon s, due := false } (inputEffect i on s) := if_neg h
    rw [he, inputOf_setInput]
    exact ⟨rfl, rfl, fun _ => ⟨rfl, rfl⟩⟩

/-! ### Pads and resets -/

theorem padContention_run {g : Nat} (hg : g ≤ 5) (hr : s.boot.inReset = false) : ∃ t, exec (.padContention g) s = .next t ∧
    (cell t blkGlobal 0x168).testBit g = true ∧ cell t blkGlobal 0x164 = (cell s blkGlobal 0x164 + 1) % 2 ^ 32 ∧ t.pins = s.pins := by
  refine ⟨_, congrArg Host.Outcome.next (if_neg (by simp [hr, hg])), ?_, ?_, rfl⟩
  · rw [cell_setCell_same, Nat.testBit_mod_two_pow, Nat.testBit_or, Nat.testBit_two_pow_self]
    simp
    omega
  · rw [cell_setCell_of_ne (by decide)]
    exact cell_bump_same ..

theorem mem_emit_of_mem {o p : Out} (h : o ∈ s.out) : o ∈ (emit p s).out := List.mem_append_left _ h

theorem mem_ite_emit {c : Prop} [Decidable c] {o p : Out} (h : o ∈ s.out) : o ∈ (if c then emit p s else s).out := by
  split
  · exact mem_emit_of_mem h
  · exact h

/-- Released pins change what the part has sent out and nothing else. -/
theorem releasePins_eq (s : State) : ∃ o, releasePins s = s.setOut o ∧ (s.boot.inReset = false → faultAsserted s = true → .pin .faultN false ∈ o) := by
  have hite (c : Prop) [Decidable c] (p : Out) (x : State) : ∃ o, (if c then emit p x else x) = x.setOut o := by
    split
    · exact ⟨_, rfl⟩
    · exact ⟨x.out, rfl⟩
  unfold releasePins
  split
  · next h => exact ⟨s.out, rfl, fun hr => absurd (hr.symm.trans h) Bool.false_ne_true⟩
  · extract_lets a b c
    obtain ⟨o, ho⟩ := hite (faultAsserted s = true) (.pin .faultN false) s
    obtain ⟨o', ho'⟩ := hite (alertAsserted s = true) (.pin .alertN false) a
    obtain ⟨o'', ho''⟩ := hite (s.pwr.tripped = true) (.pin .thermtripN false) b
    obtain ⟨o''', ho'''⟩ := hite (s.fns.any (fun e => e.2.wake) = true) (.pin .wakeN false) c
    have hm (hf : faultAsserted s = true) : .pin .faultN false ∈ (if s.fns.any (fun e => e.2.wake) then emit (.pin .wakeN false) c else c).out := by
      refine mem_ite_emit (mem_ite_emit (mem_ite_emit ?_))
      rw [show a = emit (.pin .faultN false) s from if_pos hf]
      exact List.mem_append_right _ List.mem_cons_self
    rw [ho'''] at hm ⊢
    refine ⟨o''', ?_, fun _ => hm⟩
    rw [show c = b.setOut o'' from ho'', show b = a.setOut o' from ho', show a = s.setOut o from ho]
    rfl

theorem pwrOkFall_run (hr : s.boot.inReset = false) : ∃ t, exec .pwrOkFall s = .next t ∧ t.boot = { s.boot with inReset := true } ∧ t.mem = s.mem ∧
    (faultAsserted s = true → .pin .faultN false ∈ t.out) := by
  obtain ⟨o, ho, hm⟩ := releasePins_eq s
  refine ⟨_, congrArg Host.Outcome.next (if_neg (by simp [hr])), ?_⟩
  dsimp only
  rw [ho]
  exact ⟨rfl, rfl, hm hr⟩

/-! ### The obligation -/

theorem packagePowerLoop_stays (mw : Nat) (temps : List (Nat × Nat)) (h : loopsRun s = false) : exec (.packagePowerLoop mw temps) s = .next s :=
  congrArg Host.Outcome.next (if_pos (by simp [h]))

/-- Settles O56: each loop, protection and pin by its own lemma; a sample of the temperature loop is `Sampled`, a period of the power loop
`packagePowerLoop_run`, and what an alarm leaves is read through `alarmView`. -/
theorem powerThermalAndPadEvents : Obligations.PowerThermalAndPadEvents := by
  unfold Obligations.PowerThermalAndPadEvents
  refine ⟨fun mw i occ temps s h => ⟨packagePowerLoop_stays mw temps h, congrArg Host.Outcome.next (if_pos (by simp [h])),
      congrArg Host.Outcome.next (if_pos (by simp [h]))⟩,
    fun mw temps s h => ⟨fun hi => congrArg Host.Outcome.next ((if_neg (by simp [h])).trans (if_pos hi)), packagePowerLoop_run h⟩,
    fun i v s hr hi hc => ?_,
    fun i occ s hr hi => ⟨fun hc hh hp => dvfsGovernor_cluster occ hr hi hc hh hp, fun hc he hh => dvfsGovernor_engine occ hr hi hc he hh⟩,
    fun i s => ⟨fun h => ?_, thermalThrottle_run, fun h b => congrArg Host.Outcome.next (if_pos (by simp [h])), hardwareThrottleStep_hot, fun h => ?_,
      fun hr ht => ?_⟩,
    fun n temp s => ⟨fun h => ?_, fun hr => ?_, ?_, fun h => ?_, fun hr hs => ?_, fun h => ?_, fallbackGovernorTick_run n, diodeRead_run temp, fun hr => ?_,
      fun h => ?_, fun hr hs => ?_⟩,
    fun i on s => ⟨fun h => ?_, fun hi hr => ⟨fun h1 h2 => ?_, fun h => ?_, ?_⟩, fun h => ?_, fun h1 h2 => ?_, fun h => ?_, fun h1 h2 h3 => ?_, fun h => ?_,
      fun h1 h2 => ?_⟩,
    fun g s => ⟨tamperN_quiet, tamperN_raises, fun h => ?_, padContention_run, fun h => congrArg Host.Outcome.next (if_pos h), pwrOkFall_run⟩⟩
  · obtain ⟨x, t, ht, hs, hhot, htgt, hisl⟩ := temperatureLoop_single v hr hi hc
    refine ⟨_, ht, fun j hj => (hs.others j hj).trans (hisl j), (congrArg Power.hottest hs.moved.pwr).trans hhot, ?_⟩
    obtain ⟨-, -, habove, hwell, htenth, hnear⟩ := hs
    rw [htgt, hisl] at habove hwell htenth hnear
    exact ⟨habove, hwell, htenth, hnear⟩
  · exact congrArg Host.Outcome.next (if_pos (by rcases h with h | h <;> rw [h] <;> simp))
  · exact congrArg Host.Outcome.next (if_pos (by rcases h with h | h <;> simp [h]))
  · have he : exec (.thermalTrip i) s = .next (emit (.pin .thermtripN true) (s.setPwr { s.pwr with tripped := true, trippedIsland := i })) :=
      congrArg Host.Outcome.next (if_neg (by simp [hr, ht]))
    refine ⟨he, fun t h => ?_⟩
    cases he.symm.trans h
    rfl
  · exact ⟨congrArg Host.Outcome.next (if_pos h), congrArg Host.Outcome.next (if_pos (by simp [h])), congrArg Host.Outcome.next (if_pos (by simp [h])),
      congrArg Host.Outcome.next (if_pos h), fun b => congrArg Host.Outcome.next (if_pos h)⟩
  · refine ⟨_, congrArg Host.Outcome.next (if_neg (by simp [hr])), ?_⟩
    rw [driveAlert_pwr, cell_driveAlert]
    exact ⟨rfl, rfl, cell_bump_same ..⟩
  · exact ⟨_, rfl, driveAlert_pwr ..⟩
  · exact congrArg Host.Outcome.next (if_pos (by simp [h]))
  · obtain ⟨c, hc⟩ := takeFallback_eq s
    refine ⟨_, congrArg Host.Outcome.next (if_neg (by simp [hr, hs])), ?_⟩
    rw [driveAlert_pwr, hc]
    rfl
  · exact congrArg Host.Outcome.next (if_pos (by simp [h]))
  · exact ⟨⟨_, congrArg Host.Outcome.next (if_neg (by simp [hr])), setThrottle_pin true s, fun hp c hc => by
        rw [setThrottle_on hp c hc]; exact ⟨rfl, rfl⟩⟩,
      _, congrArg Host.Outcome.next (if_neg (by simp [hr])), setThrottle_pin false s⟩
  · exact congrArg Host.Outcome.next (if_neg (by rcases h with h | h <;> simp [h]))
  · exact ⟨_, congrArg Host.Outcome.next (if_pos (by simp [hr, hs])), driveAlert_pwr ..⟩
  · have hc : (decide (22 < i) || s.boot.inReset) = true := by simpa using h
    exact ⟨congrArg Host.Outcome.next (if_pos hc), congrArg Host.Outcome.next (if_pos hc)⟩
  · exact congrArg Host.Outcome.next ((if_neg (by simp [hr, hi])).trans (if_pos (by simp [h1, h2])))
  · refine ⟨_, congrArg Host.Outcome.next ((if_neg (by simp [hr, hi])).trans (if_neg ?_)), settleInput_input i on s⟩
    rcases h with h | h <;> simp [h]
  · exact congrArg Host.Outcome.next (if_neg (by simp [hr, hi]))
  · exact congrArg Host.Outcome.next (if_neg (by rcases h with h | h <;> simp [h]))
  · exact ⟨_, congrArg Host.Outcome.next (if_pos (by simp [h1, h2])), settleInput_input i on s⟩
  · exact congrArg Host.Outcome.next (if_pos (by rcases h with h | h | h <;> simp [h]))
  · exact congrArg Host.Outcome.next (if_neg (by simp [h2, h3, h1]))
  · exact congrArg Host.Outcome.next (if_neg (by rcases h with h | h <;> simp [h]))
  · exact congrArg Host.Outcome.next (if_pos (by simp [h1, h2]))
  · exact congrArg Host.Outcome.next (if_pos (by simpa using h))

end Sys2Proof.Machine
end

section
/-! What keeps every view: commands of NVM Express controllers (chapter 10), held completions, and links that are reset. -/

namespace Sys2Proof.Machine

open Sys2Proof

variable {α : Type} {V : View α}

/-! ### Held completions -/

@[simp] theorem deliverHeld_view (n : Nat) (s : State) : V.get (deliverHeld n s) = V.get s := by
  simp [deliverHeld]

@[simp] theorem drainNic_view (k fuel : Nat) (s : State) : V.get (drainNic k fuel s) = V.get s := by
  induction fuel generalizing s with
  | zero => rfl
  | succ n ih =>
    unfold drainNic
    split
    · split
      · split <;> simp [ih]
      · rfl
    · rfl

@[simp] theorem drainGrt_view (w fuel : Nat) (s : State) : V.get (drainGrt w fuel s) = V.get s := by
  induction fuel generalizing s with
  | zero => rfl
  | succ n ih =>
    unfold drainGrt
    split
    · split
      · split <;> simp [ih]
      · rfl
    · rfl

@[simp] theorem resetAccelLink_view (n k : Nat) (s : State) : V.get (resetAccelLink n k s) = V.get s := by
  unfold resetAccelLink
  split <;> simp

/-! ### Legs and operations -/

@[simp] theorem updLeg_view (n i : Nat) (f : Leg → Leg) (s : State) : V.get (updLeg n i f s) = V.get s := by
  simp [updLeg]

@[simp] theorem logStorage_view (nsid old new : Nat) (s : State) : V.get (logStorage nsid old new s) = V.get s := by
  simp [logStorage]

@[simp] theorem failLeg_view (n i : Nat) (s : State) : V.get (failLeg n i s) = V.get s := by
  unfold failLeg
  split
  · split <;> simp
  · rfl

@[simp] theorem rawLegs_view (n off : Nat) (data : Bytes) (fails : List Nat) (s : State) : V.get (rawLegs n off data fails s) = V.get s := by
  simp [rawLegs]

@[simp] theorem writeLegs_view (n off : Nat) (data : Bytes) (fails : List Nat) (s : State) : V.get (writeLegs n off data fails s) = V.get s := by
  simp [writeLegs]

@[simp] theorem repairRead_view (n off len : Nat) (io : NvmeIo) (s : State) : V.get (repairRead n off len io s) = V.get s := by
  unfold repairRead
  dsimp only
  split <;> simp

@[simp] theorem copyPiece_view (n i first count : Nat) (s : State) : V.get (copyPiece n i first count s) = V.get s := by
  unfold copyPiece
  dsimp only
  split <;> simp

@[simp] theorem nextRange_view (o : NvmeOp) (first count : Nat) (rest : List (Nat × Nat)) (s : State) : V.get (nextRange o first count rest s) = V.get s := by
  simp [nextRange]

@[simp] theorem noteWait_view (id : Nat) (s : State) : V.get (noteWait id s) = V.get s := by
  unfold noteWait
  split
  · split <;> simp
  · rfl

/-! ### Admin commands -/

section
variable (fn : Nat) (c : NvmeCmd) (s : State)

@[simp] theorem createCq_view : V.get (createCq fn c s) = V.get s := by
  simp [createCq]

@[simp] theorem createSq_view : V.get (createSq fn c s) = V.get s := by
  simp [createSq]

@[simp] theorem deleteSq_view : V.get (deleteSq fn c s) = V.get s := by
  simp [deleteSq]

@[simp] theorem deleteCq_view : V.get (deleteCq fn c s) = V.get s := by
  simp [deleteCq]

@[simp] theorem supersedePs_view : V.get (supersedePs fn s) = V.get s := by
  unfold supersedePs
  dsimp only
  split <;> simp

@[simp] theorem setPower_view : V.get (setPower fn c s) = V.get s := by
  simp [setPower]

@[simp] theorem setFeature_view : V.get (setFeature fn c s) = V.get s := by
  unfold setFeature
  dsimp only
  split <;> simp

@[simp] theorem getFeature_view : V.get (getFeature fn c s) = V.get s := by
  unfold getFeature
  extract_lets k g v
  clear_value v
  cases v <;> simp

@[simp] theorem getLog_view : V.get (getLog fn c s) = V.get s := by
  unfold getLog
  dsimp only
  split <;> simp

@[simp] theorem identify_view : V.get (identify fn c s) = V.get s := by
  unfold identify
  extract_lets give
  have hg (b : Bytes) : V.get (give b) = V.get s := (nvmeDone_view ..).trans (drawn_view s)
  clear_value give
  split
  · split
    · split <;> exact hg _
    · split
      · exact hg _
      · simp
  · exact hg _
  · exact hg _
  · split
    · split
      · exact hg _
      · simp
    · simp
  · simp

@[simp] theorem abortCmd_view : V.get (abortCmd fn c s) = V.get s := by
  unfold abortCmd
  dsimp only
  split <;> simp

@[simp] theorem asyncRequest_view : V.get (asyncRequest fn c s) = V.get s := by
  unfold asyncRequest
  dsimp only
  split <;> simp

@[simp] theorem sanitize_view (act : Nat) : V.get (sanitize act fn c s) = V.get s := by
  simp [sanitize]

@[simp] theorem formatNvm_view : V.get (formatNvm fn c s) = V.get s := by
  unfold formatNvm
  dsimp only
  split
  · simp
  · split
    · simp
    · split <;> simp

@[simp] theorem adminCommand_view (op : Nat) : V.get (adminCommand fn op c s) = V.get s := by
  unfold adminCommand
  split <;> simp

end

end Sys2Proof.Machine
end

section
/-! Views that do not read the security state or the transport's connections: work that an alarm may end on its way keeps these too. -/

namespace Sys2Proof.Machine

open Sys2Proof

/-- A view that reads neither keys, alarms and links' streams nor connections. -/
structure OpenView (α : Type) extends View α where
  sec : ∀ s x, get (s.setSec x) = get s
  allGrt : ∀ s x, get (s.setGrt x) = get s

variable {α : Type} {V : OpenView α}

/-! ### Alarms of the cipher engine -/

@[simp] theorem wipeKeys_open (s : State) : V.get (wipeKeys s) = V.get s := V.sec ..

@[simp] theorem alarmCore_open (k : Nat) (s : State) : V.get (alarmCore k s) = V.get s := by
  simp [alarmCore, V.sec]

@[simp] theorem cipherCheck_open (requester c : Nat) (s : State) : V.get (cipherCheck requester c s) = V.get s := by
  simp [cipherCheck]

/-! ### Commands to namespaces -/

@[simp] theorem startOp_open (o : NvmeOp) (s : State) : V.get (startOp o s) = V.get s := by
  unfold startOp
  extract_lets x off n gone y r w
  have hy : V.get y = V.get s := by
    unfold y
    split <;> simp
  have hr : V.get r = V.get s := (repairRead_view ..).trans hy
  have hw : V.get w = V.get s := (writeLegs_view ..).trans hy
  clear_value r w y
  split
  · simp [hy]
  · split
    · simp [hy]
    · split
      · simp [hy]
      · split
        · split
          · simp [hy]
          · simp [hr]
        · split
          · simp [hy]
          · split
            · simp [hy]
            · split
              · simp [hw]
              · split <;> simp [hw]

@[simp] theorem tryStart_open (o : NvmeOp) (fuel : Nat) (s : State) : V.get (tryStart o fuel s) = V.get s := by
  induction fuel generalizing o s with
  | zero => rfl
  | succ n ih =>
    unfold tryStart
    split
    · split <;> simp [ih]
    · rfl

@[simp] theorem arrive_open (o : NvmeOp) (s : State) : V.get (arrive o s) = V.get s := by
  simp [arrive]

@[simp] theorem ioCommand_open (fn sq op : Nat) (c : NvmeCmd) (io : NvmeIo) (s : State) : V.get (ioCommand fn sq op c io s) = V.get s := by
  unfold ioCommand
  dsimp only
  split
  · simp
  · split
    · simp
    · split
      · split
        · simp
        · split
          · simp
          · split
            · simp
            · split
              · simp
              · split <;> simp
      · simp

@[simp] theorem fetchOne_open (fn sq : Nat) (s : State) : V.get (fetchOne fn sq s) = V.get s := by
  unfold fetchOne
  dsimp only
  split
  · rfl
  · split
    · split
      · rfl
      · simp only [apply_ite V.get, nvmeDone_view, stoSettle_view, adminCommand_view, ioCommand_open, bump_view, updCtrl_view, setCtrl_view, ite_self]
    · rfl

@[simp] theorem fetchMany_open (fn sq fuel : Nat) (s : State) : V.get (fetchMany fn sq fuel s) = V.get s := by
  induction fuel generalizing s with
  | zero => rfl
  | succ n ih => exact (ih _).trans (fetchOne_open ..)

@[simp] theorem fetchTurns_open (fn fuel : Nat) (s : State) : V.get (fetchTurns fn fuel s) = V.get s := by
  induction fuel generalizing s with
  | zero => rfl
  | succ n ih =>
    unfold fetchTurns
    dsimp only
    split <;> simp [ih]

@[simp] theorem fetchNvme_open (fn : Nat) (s : State) : V.get (fetchNvme fn s) = V.get s := by
  simp [fetchNvme]

/-! ### Work requests -/

@[simp] theorem setConn_open (h : Nat) (c : Conn) (s : State) : V.get (setConn h c s) = V.get s := V.allGrt ..

@[simp] theorem startWr_open (w : Nat) (wr : GrtWr) (data : Option Bytes) (s : State) : V.get (startWr w wr data s) = V.get s := by
  unfold startWr
  dsimp only
  split
  · simp
  · split
    · simp
    · simp only [apply_ite V.get, endReq_view, runLocal_view, pumpConn_view, setConn_open, cipherCheck_open, ite_self]

@[simp] theorem fetchWr_open (w : Nat) (wr : GrtWr) (data : Option Bytes) (s : State) : V.get (fetchWr w wr data s) = V.get s := by
  unfold fetchWr
  split <;> simp

@[simp] theorem fetchWq_open (w fuel : Nat) (s : State) : V.get (fetchWq w fuel s) = V.get s := by
  induction fuel generalizing s with
  | zero => rfl
  | succ n ih =>
    unfold fetchWq
    split
    · rfl
    · split
      · rfl
      · split <;> simp [ih]

@[simp] theorem resumeFunction_open (fid : Nat) (s : State) : V.get (resumeFunction fid s) = V.get s := by
  simp [resumeFunction]

/-! ### The ends of a function's connections -/

@[simp] theorem removeConn_open (h : Nat) (s : State) : V.get (removeConn h s) = V.get s := by
  unfold removeConn
  dsimp only
  split
  · simp [V.allGrt]
  · split <;> simp [V.allGrt]

@[simp] theorem removeMr_open (slot : Nat) (s : State) : V.get (removeMr slot s) = V.get s := by
  unfold removeMr
  split <;> simp [V.allGrt]

@[simp] theorem dropTransport_open (fid : Nat) (s : State) : V.get (dropTransport fid s) = V.get s := by
  simp [dropTransport]

@[simp] theorem failHostSide_open (fid : Nat) (s : State) : V.get (failHostSide fid s) = V.get s := by
  simp [failHostSide]

@[simp] theorem endIde_open (hp : Nat) (s : State) : V.get (endIde hp s) = V.get s := V.sec ..

end Sys2Proof.Machine
end

section
/-! The end of a generation (R40, R41, R404, R415). A function is read without what work counts of it: all that goes on when a generation ends
keeps every function so read, but for the one whose generation ends, and takes its session, connections and registrations. -/

namespace Sys2Proof.Machine

open Sys2Proof

variable {s t : State}

/-! ### Functions as they stand -/

/-- A function as it stands, where there is one. -/
def fnCore (s : State) (k : Nat) : Option Fn := (look s.fns k).map Fn.core

theorem look_standing (l : List (Nat × Fn)) (k : Nat) : look (standing l) k = (look l k).map Fn.core := by
  induction l with
  | nil => rfl
  | cons e r ih =>
    by_cases h : e.1 = k
    · simp [standing, look, h]
    · simpa [standing, look, h] using ih

theorem fnD_core (s : State) (k : Nat) : (fnD s k).core = (fnCore s k).getD {} := by
  unfold fnCore fnD lookD
  cases look s.fns k <;> rfl

theorem fnCore_of_listed {k : Nat} (h : (look s.fns k).isSome = true) : fnCore s k = some (fnD s k).core := by
  obtain ⟨f, hf⟩ := Option.isSome_iff_exists.mp h
  rw [fnCore, fnD_of_look hf, hf]
  rfl

/-- What a step makes of the functions that changes one of them. -/
def onFn (k : Nat) (g : Fn → Fn) (c : Nat → Option Fn) (j : Nat) : Option Fn := if j = k then (c j).map g else c j

@[simp] theorem onFn_same (k : Nat) (g : Fn → Fn) (c : Nat → Option Fn) : onFn k g c k = (c k).map g := if_pos rfl

theorem onFn_of_ne {j k : Nat} (h : j ≠ k) (g : Fn → Fn) (c : Nat → Option Fn) : onFn k g c j = c j := if_neg h

/-- The functions, and for which of them a session runs on their ring. -/
def standingView : OpenView ((Nat → Option Fn) × (Nat → Bool)) where
  get s := (fnCore s, fun k => has s.icp.sessions (.ring k))
  draw _ _ := rfl
  out _ _ := rfl
  csr _ _ := rfl
  err _ _ := rfl
  perf _ _ := rfl
  tel _ _ := rfl
  icp _ _ h := congrArg (Prod.mk _) (funext h)
  rings _ _ := rfl
  fns s x h := congrArg (Prod.mk · _) (funext fun k => by
    have hk := congrArg (look · k) h
    simp only [look_standing] at hk
    exact hk)
  ports _ _ := rfl
  mem _ _ := rfl
  act _ _ _ := rfl
  tab _ _ := rfl
  course _ _ := rfl
  elastic _ _ := rfl
  mason _ _ := rfl
  keyCache _ _ := rfl
  pages _ _ := rfl
  sto _ _ := rfl
  grt _ _ _ _ := rfl
  pp _ _ := rfl
  sec _ _ := rfl
  allGrt _ _ := rfl

theorem fnCore_of_view (h : standingView.get t = standingView.get s) : fnCore t = fnCore s := congrArg Prod.fst h

theorem sessions_of_view (h : standingView.get t = standingView.get s) (k : Nat) :
    has t.icp.sessions (.ring k) = has s.icp.sessions (.ring k) := congrFun (congrArg Prod.snd h) k

theorem fnCore_setFn {k : Nat} (f : Fn) (s : State) (j : Nat) : fnCore (setFn k f s) j = if k = j then some f.core else fnCore s j := by
  unfold fnCore setFn
  rw [State.setFns_fns, look_put]
  split <;> rfl

/-- A change that no count enters into. -/
theorem fnCore_updFn {g : Fn → Fn} (hg : ∀ f, (g f).core = g f.core) (k : Nat) (s : State) : fnCore (updFn k g s) = onFn k g (fnCore s) := by
  funext j
  unfold updFn
  cases h : look s.fns k with
  | none =>
    by_cases hj : j = k
    · subst hj
      simp [fnCore, h]
    · exact (onFn_of_ne hj ..).symm
  | some f =>
    dsimp only
    rw [fnCore_setFn]
    by_cases hj : j = k
    · subst hj
      simp [fnCore, h, hg]
    · rw [if_neg (Ne.symm hj), onFn_of_ne hj]

/-! ### The function whose generation ends -/

/-- A function whose generation ends. -/
def fnEnded (reset : Bool) (cause : Nat) (f : Fn) : Fn :=
  { f with gen := nextGen f.gen, prevGen := f.gen, cause := cause, leaseOn := false, st := if !reset ∧ f.st = .frozen then .frozen else .active,
           migBuf := if reset then [] else f.migBuf }

theorem fnEnded_core_of_core {f g : Fn} (h : g.core = f.core) (reset : Bool) (cause : Nat) :
    (fnEnded reset cause g).core = fnEnded reset cause f.core := by
  refine Eq.trans ?_ (congrArg (fnEnded reset cause) h)
  rfl

/-- What follows the end of a function's transport. -/
def failTail (fid held : Nat) (before : Allot) (s : State) : State :=
  let s := restoreTenantLost fid (restampTables fid s)
  let s := lateCompletions fid (held - heldCompletions s fid) s
  settle (livePause (resumeIntake (updFn fid (fun x => { x with reclaim := x.reclaim.plus (before.minus (poolUse s fid)) }) s)))

@[simp] theorem failTail_view {α : Type} {V : View α} (fid held : Nat) (before : Allot) (s : State) : V.get (failTail fid held before s) = V.get s := by
  unfold failTail
  simp only [settle_view, livePause_view, resumeIntake_view]
  refine (updFn_view (fun _ => ?_) ..).trans (by simp)
  rfl

/-- The function takes its next generation. -/
def failGen (reset : Bool) (cause fid : Nat) (f : Fn) (s : State) : State :=
  let unposted := (ringOf s fid).held
  let x := if unposted.isEmpty then s else dropReplies (if reset then unposted.length else 0) (setRing fid { ringOf s fid with held := [] } s)
  setFn fid { fnEnded reset cause f with kept := if reset then f.kept else lastN 64 (f.kept ++ unposted.map (fun e => (e.1.tag, e.2.status))) } x

/-- What its work held is given up. -/
def failWork (reset : Bool) (cause fid gen : Nat) (s : State) : State :=
  let s := if reset then s else keepWaits fid gen s
  let s := s.setIcp { s.icp with sessions := del s.icp.sessions (.ring fid), stage := s.icp.stage.filter (fun e => e.owner != .fn fid) }
  let s := if reset ∨ cause = 5 then s.setRings (del s.rings fid) else s
  let s := updRun (fun r => { r with clients := r.clients.filter (fun c => c.1 != fid) }) s
  failHostSide fid (failKernels fid (failQueues reset fid s))

theorem failFunction_eq {fid : Nat} {f : Fn} (h : look s.fns fid = some f) (reset : Bool) (cause : Nat) :
    ∃ x g, standingView.get x = standingView.get s ∧ look x.fns fid = some g ∧ g.core = f.core ∧
      failFunction reset cause fid s =
        failTail fid (heldCompletions s fid) (poolUse s fid) (failWork reset cause fid g.gen (failGen reset cause fid g x)) := by
  have hx : standingView.get (if reset then abortWaits fid s else s) = standingView.get s := by simp
  have hl : fnCore (if reset then abortWaits fid s else s) fid = some f.core := by
    rw [fnCore_of_view hx, fnCore, h]
    rfl
  obtain ⟨g, hg, hgc⟩ := Option.map_eq_some_iff.mp hl
  refine ⟨_, g, hx, hg, hgc, ?_⟩
  unfold failFunction
  rw [h]
  extract_lets before held x unposted _ y
  have hf : (look x.fns fid).getD f = g := congrArg (Option.getD · f) hg
  dsimp -zeta only
  rw [hf]
  extract_lets f' gen kept _ quiet ringless closed lost
  have hgen : failGen reset cause fid g x = gen := rfl
  rw [show (if reset then abortWaits fid s else s) = x from rfl, hgen]
  clear_value gen
  have hwork : lost = restampTables fid (failWork reset cause fid g.gen gen) := rfl
  unfold failTail
  rw [← hwork]

theorem fnCore_failGen {fid : Nat} {f g : Fn} (hg : g.core = f.core) (hf : look s.fns fid = some f) (hx : standingView.get t = standingView.get s)
    (reset : Bool) (cause : Nat) : fnCore (failGen reset cause fid g t) = onFn fid (fnEnded reset cause) (fnCore s) := by
  funext j
  have hd (c : Prop) [Decidable c] (n : Nat) (r : Ring) : standingView.get (if c then t else dropReplies n (setRing fid r t)) = standingView.get s := by
    split
    · exact hx
    · exact (dropReplies_view ..).trans ((setRing_view ..).trans hx)
  unfold failGen
  dsimp only
  rw [fnCore_setFn]
  by_cases hj : j = fid
  · subst hj
    rw [if_pos rfl, onFn_same, fnCore, hf]
    exact congrArg some ((fnEnded_core_of_core hg reset cause).trans rfl)
  · rw [if_neg (Ne.symm hj), onFn_of_ne hj]
    exact congrFun (fnCore_of_view (hd ..)) j

theorem failWork_standing (reset : Bool) (cause fid gen : Nat) (s : State) : fnCore (failWork reset cause fid gen s) = fnCore s ∧
    has (failWork reset cause fid gen s).icp.sessions (.ring fid) = false := by
  have hend (x : State) : standingView.get (failHostSide fid (failKernels fid (failQueues reset fid
      (updRun (fun r => { r with clients := r.clients.filter (fun c => c.1 != fid) }) (if reset ∨ cause = 5 then x.setRings (del x.rings fid) else x))))) =
      standingView.get x := by
    simp only [failHostSide_open, failKernels_view, failQueues_view, updRun_view, View.get_ite, View.get_setRings, ite_self]
  have hk : standingView.get (if reset then s else keepWaits fid gen s) = standingView.get s := by simp
  unfold failWork
  dsimp only
  generalize (if reset then s else keepWaits fid gen s) = x at hk
  refine ⟨(fnCore_of_view (hend _)).trans ((fnCore_of_view hk).symm.trans rfl).symm, (sessions_of_view (hend _) fid).trans ?_⟩
  exact has_del_same ..

/-- Every function stands as before, but for the one whose generation ended. -/
theorem fnCore_failFunction (reset : Bool) (cause fid : Nat) (s : State) :
    fnCore (failFunction reset cause fid s) = onFn fid (fnEnded reset cause) (fnCore s) := by
  cases hf : look s.fns fid with
  | none =>
    funext j
    have he : failFunction reset cause fid s = s := by rw [failFunction, hf]
    rw [he]
    by_cases hj : j = fid
    · subst hj
      simp [fnCore, hf]
    · rw [onFn_of_ne hj]
  | some f =>
    obtain ⟨x, g, hx, -, hg, he⟩ := failFunction_eq hf reset cause
    rw [he, fnCore_of_view (failTail_view ..), (failWork_standing ..).1, fnCore_failGen hg hf hx]

theorem failFunction_session {fid : Nat} (h : (look s.fns fid).isSome = true) (reset : Bool) (cause : Nat) :
    has (failFunction reset cause fid s).icp.sessions (.ring fid) = false := by
  obtain ⟨f, hf⟩ := Option.isSome_iff_exists.mp h
  obtain ⟨x, g, -, -, -, he⟩ := failFunction_eq hf reset cause
  rw [he]
  exact (sessions_of_view (failTail_view ..) fid).trans (failWork_standing ..).2

/-! ### Its connections and registrations -/

/-- The owners of the connections, and the registrations. -/
def transportView : View (List (Nat × Nat) × List (Nat × Mr)) where
  get s := (connOwners s.grt.conns, s.grt.mrs)
  draw _ _ := rfl
  out _ _ := rfl
  csr _ _ := rfl
  err _ _ := rfl
  perf _ _ := rfl
  tel _ _ := rfl
  icp _ _ _ := rfl
  rings _ _ := rfl
  fns _ _ _ := rfl
  ports _ _ := rfl
  mem _ _ := rfl
  act _ _ _ := rfl
  tab _ _ := rfl
  course _ _ := rfl
  elastic _ _ := rfl
  mason _ _ := rfl
  keyCache _ _ := rfl
  pages _ _ := rfl
  sto _ _ := rfl
  grt _ _ hc hm := by simp only [State.setGrt_grt, hc, hm]
  pp _ _ := rfl

theorem removeConn_grt (h : Nat) (s : State) : (removeConn h s).grt.conns = del s.grt.conns h ∧ (removeConn h s).grt.mrs = s.grt.mrs := by
  unfold removeConn
  extract_lets c a _ b _ x
  have hx : x.grt.conns = del s.grt.conns h ∧ x.grt.mrs = s.grt.mrs := ⟨rfl, rfl⟩
  clear_value x
  split
  · exact hx
  · split
    · exact hx
    · exact hx

theorem mem_del {κ β : Type} [DecidableEq κ] {l : List (κ × β)} {k : κ} {e : κ × β} : e ∈ del l k ↔ e ∈ l ∧ e.1 ≠ k := by
  simp [del]

theorem removeConns_grt (hs : List Nat) (s : State) :
    (∀ e ∈ (hs.foldl (fun s h => removeConn h (dropConnFrames h s)) s).grt.conns, e ∈ s.grt.conns ∧ e.1 ∉ hs) ∧
      (hs.foldl (fun s h => removeConn h (dropConnFrames h s)) s).grt.mrs = s.grt.mrs := by
  induction hs generalizing s with
  | nil => exact ⟨fun e he => ⟨he, List.not_mem_nil⟩, rfl⟩
  | cons h r ih =>
    obtain ⟨hc, hm⟩ := removeConn_grt h (dropConnFrames h s)
    obtain ⟨ihc, ihm⟩ := ih (removeConn h (dropConnFrames h s))
    refine ⟨fun e he => ?_, ihm.trans hm⟩
    obtain ⟨he, hr⟩ := ihc e he
    rw [hc] at he
    obtain ⟨he, hne⟩ := mem_del.mp he
    exact ⟨he, List.not_mem_cons_of_ne_of_not_mem hne hr⟩

theorem look_of_mem {κ β : Type} [DecidableEq κ] {l : List (κ × β)} {e : κ × β} (h : e ∈ l) : (look l e.1).isSome = true := by
  induction l with
  | nil => cases h
  | cons x r ih =>
    by_cases hx : x.1 = e.1
    · simp [look, hx]
    · have hr : e ∈ r := (List.mem_cons.mp h).resolve_left (fun he => hx (congrArg Prod.fst he.symm))
      simpa [look, hx] using ih hr

theorem mem_removeMr {k : Nat} {e : Nat × Mr} (h : e ∈ (removeMr k s).grt.mrs) : e ∈ s.grt.mrs ∧ e.1 ≠ k := by
  unfold removeMr at h
  split at h
  · next hn =>
    refine ⟨h, fun hk => ?_⟩
    have := look_of_mem h
    rw [hk, hn] at this
    exact Bool.false_ne_true this
  · exact mem_del.mp h

theorem removeMr_conns (k : Nat) (s : State) : (removeMr k s).grt.conns = s.grt.conns := by
  unfold removeMr
  split <;> rfl

theorem removeMrs_grt (ks : List Nat) (s : State) : (∀ e ∈ (ks.foldl (fun s k => removeMr k s) s).grt.mrs, e ∈ s.grt.mrs ∧ e.1 ∉ ks) ∧
    (ks.foldl (fun s k => removeMr k s) s).grt.conns = s.grt.conns := by
  induction ks generalizing s with
  | nil => exact ⟨fun e he => ⟨he, List.not_mem_nil⟩, rfl⟩
  | cons k r ih =>
    obtain ⟨ihm, ihc⟩ := ih (removeMr k s)
    refine ⟨fun e he => ?_, ihc.trans (removeMr_conns k s)⟩
    obtain ⟨he, hr⟩ := ihm e he
    obtain ⟨he, hne⟩ := mem_removeMr he
    exact ⟨he, List.not_mem_cons_of_ne_of_not_mem hne hr⟩

/-- A function whose transport has ended owns no connection and no registration. -/
structure NoTransport (fid : Nat) (s : State) : Prop where
  conns : ∀ e ∈ s.grt.conns, e.2.owner ≠ fid
  mrs : ∀ e ∈ s.grt.mrs, e.2.owner ≠ fid

theorem not_owner_of_key_not_mem {β : Type} {own : β → Nat} {l : List (Nat × β)} {fid : Nat} {e : Nat × β} (he : e ∈ l)
    (hk : e.1 ∉ (l.filter (fun e => own e.2 == fid)).map (·.1)) : own e.2 ≠ fid :=
  fun ho => hk (List.mem_map_of_mem (List.mem_filter.mpr ⟨he, by simp [ho]⟩))

theorem dropTransport_none (fid : Nat) (s : State) : NoTransport fid (dropTransport fid s) := by
  unfold dropTransport
  extract_lets hs late x y
  have hx : x.grt = s.grt := by
    unfold x updFn
    split <;> rfl
  obtain ⟨hyc, -⟩ := removeConns_grt hs x
  obtain ⟨hm, hc⟩ := removeMrs_grt ((y.grt.mrs.filter (fun e => e.2.owner == fid)).map (·.1)) y
  refine ⟨fun e he => ?_, fun e he => ?_⟩
  · rw [hc] at he
    obtain ⟨he, hk⟩ := hyc e he
    rw [hx] at he
    exact not_owner_of_key_not_mem (own := Conn.owner) he hk
  · obtain ⟨he, hk⟩ := hm e he
    exact not_owner_of_key_not_mem (own := Mr.owner) he hk

/-- What a view of the transport keeps. -/
theorem NoTransport.of_view {fid : Nat} (h : NoTransport fid s) (hv : transportView.get t = transportView.get s) : NoTransport fid t := by
  obtain ⟨hc, hm⟩ := Prod.mk.inj hv
  refine ⟨fun e he ho => ?_, fun e he => h.mrs e (hm ▸ he)⟩
  have hk : (e.1, e.2.owner) ∈ connOwners s.grt.conns := hc ▸ List.mem_map_of_mem (f := fun e : Nat × Conn => (e.1, e.2.owner)) he
  obtain ⟨x, hx, he⟩ := List.mem_map.mp hk
  exact h.conns x hx ((congrArg Prod.snd he).trans ho)

theorem failWork_transport (reset : Bool) (cause fid gen : Nat) (s : State) : NoTransport fid (failWork reset cause fid gen s) := by
  unfold failWork failHostSide
  exact dropTransport_none ..

theorem failFunction_transport {fid : Nat} (h : (look s.fns fid).isSome = true) (reset : Bool) (cause : Nat) :
    NoTransport fid (failFunction reset cause fid s) := by
  obtain ⟨f, hf⟩ := Option.isSome_iff_exists.mp h
  obtain ⟨x, g, -, -, -, he⟩ := failFunction_eq hf reset cause
  rw [he]
  exact (failWork_transport ..).of_view (failTail_view ..)

end Sys2Proof.Machine
end

section
/-! Resets, leases, power states and virtual functions (R387, R391, R404, R423, R424), and the obligation: each event is read as what it makes of
the functions as they stand. -/

namespace Sys2Proof.Machine

open Sys2Proof

variable {s t : State}

/-! ### Reading a function -/

/-- A listed function as it stands, by what a step makes of it. -/
theorem fnD_core_of_some {k : Nat} {f : Fn} (h : fnCore s k = some f) : (fnD s k).core = f := by
  rw [fnD_core, h]
  rfl

theorem fnD_core_congr {k : Nat} (h : fnCore t k = fnCore s k) : (fnD t k).core = (fnD s k).core := by rw [fnD_core, fnD_core, h]

/-! ### Virtual functions -/

theorem mem_vfsOf {s : State} {pf v : Nat} (h : v ∈ vfsOf s pf) : isVf v = true ∧ (look s.fns v).isSome = true := by
  obtain ⟨e, he, rfl⟩ := List.mem_map.mp h
  obtain ⟨hm, hp⟩ := List.mem_filter.mp he
  simp only [Bool.and_eq_true] at hp
  exact ⟨hp.1.1.1, look_of_mem hm⟩

theorem not_mem_vfsOf_of_isPf {k : Nat} (h : isPf k = true) (s : State) (pf : Nat) : k ∉ vfsOf s pf := fun hm => by
  have hv := (mem_vfsOf hm).1
  simp only [isPf, isVf, decide_eq_true_eq] at h hv
  omega

/-- A VF is reset or lost with VF Enable. -/
def vfOff (reset : Bool) (cause : Nat) (s : State) (v : Nat) : State :=
  updFn v (fun f => { f with on := false, crs := false }) (failFunction reset cause v s)

theorem fnCore_vfOff (reset : Bool) (cause v : Nat) (s : State) :
    fnCore (vfOff reset cause s v) = onFn v (fun f => { fnEnded reset cause f with on := false, crs := false }) (fnCore s) := by
  unfold vfOff
  rw [fnCore_updFn (g := fun f => { f with on := false, crs := false }) (fun _ => rfl), fnCore_failFunction]
  funext j
  by_cases hj : j = v
  · subst hj
    simp only [onFn_same, Option.map_map]
    rfl
  · simp only [onFn_of_ne hj]

theorem fnCore_vfsOff_of_not_mem {k : Nat} (reset : Bool) (cause : Nat) (l : List Nat) (hk : k ∉ l) (s : State) :
    fnCore (l.foldl (vfOff reset cause) s) k = fnCore s k := by
  induction l generalizing s with
  | nil => rfl
  | cons v r ih =>
    obtain ⟨hv, hr⟩ := (⟨List.ne_of_not_mem_cons hk, List.not_mem_of_not_mem_cons hk⟩ : _ ∧ _)
    rw [List.foldl_cons, ih hr, fnCore_vfOff, onFn_of_ne hv]

theorem vfOff_off {v w : Nat} {f : Fn} (reset : Bool) (cause : Nat) (h : fnCore s v = some f) (ho : f.on = false ∨ v = w) :
    ∃ g, fnCore (vfOff reset cause s w) v = some g ∧ g.on = false := by
  rw [fnCore_vfOff]
  by_cases hv : v = w
  · subst hv
    rw [onFn_same, h]
    exact ⟨_, rfl, rfl⟩
  · rw [onFn_of_ne hv]
    exact ⟨f, h, ho.resolve_right hv⟩

/-- A listed VF is off once it has had its turn. -/
theorem vfsOff_off {v : Nat} (reset : Bool) (cause : Nat) (l : List Nat) (s : State) (h : ∃ f, fnCore s v = some f ∧ (f.on = false ∨ v ∈ l)) :
    ∃ g, fnCore (l.foldl (vfOff reset cause) s) v = some g ∧ g.on = false := by
  induction l generalizing s with
  | nil =>
    obtain ⟨f, hf, ho⟩ := h
    exact ⟨f, hf, ho.resolve_right List.not_mem_nil⟩
  | cons w r ih =>
    obtain ⟨f, hf, ho⟩ := h
    refine ih _ ?_
    by_cases hc : f.on = false ∨ v = w
    · obtain ⟨g, hg, hgo⟩ := vfOff_off reset cause hf hc
      exact ⟨g, hg, .inl hgo⟩
    · obtain ⟨hon, hne⟩ := not_or.mp hc
      refine ⟨f, ?_, .inr ((List.mem_cons.mp (ho.resolve_left hon)).resolve_left hne)⟩
      rw [fnCore_vfOff, onFn_of_ne hne, hf]

theorem disableVfs_eq (reset : Bool) (cause pf : Nat) (s : State) : disableVfs reset cause pf s =
    updFn pf (fun f => { f with vfEnable := false }) (resetCfg (fun f => (vfsOf s pf).contains f) ((vfsOf s pf).foldl (vfOff reset cause) s)) := rfl

theorem fnCore_disableVfs (reset : Bool) (cause pf : Nat) (s : State) : fnCore (disableVfs reset cause pf s) =
    onFn pf (fun f => { f with vfEnable := false }) (fnCore ((vfsOf s pf).foldl (vfOff reset cause) s)) := by
  rw [disableVfs_eq, fnCore_updFn (g := fun f => { f with vfEnable := false }) (fun _ => rfl), fnCore_of_view (resetCfg_view ..)]

/-- A PF keeps its generation as its VFs go. -/
theorem fnCore_disableVfs_pf {k : Nat} (hk : isPf k = true) (reset : Bool) (cause pf : Nat) (s : State) :
    fnCore (disableVfs reset cause pf s) k = onFn pf (fun f => { f with vfEnable := false }) (fnCore s) k := by
  rw [fnCore_disableVfs]
  unfold onFn
  rw [fnCore_vfsOff_of_not_mem _ _ _ (not_mem_vfsOf_of_isPf hk s pf)]

theorem disableVfs_off {pf v : Nat} (hv : v ∈ vfsOf s pf) (hne : v ≠ pf) (reset : Bool) (cause : Nat) : (fnD (disableVfs reset cause pf s) v).on = false := by
  obtain ⟨g, hg, ho⟩ := vfsOff_off reset cause (vfsOf s pf) s ⟨_, fnCore_of_listed (mem_vfsOf hv).2, .inr hv⟩
  have hc : fnCore (disableVfs reset cause pf s) v = some g := by rw [fnCore_disableVfs, onFn_of_ne hne, hg]
  exact (congrArg Fn.on (fnD_core_of_some hc)).trans ho

/-! ### The end of a generation, clause by clause -/

theorem nextGen_range (g : Nat) : 1 ≤ nextGen g ∧ nextGen g ≤ 65535 := by
  unfold nextGen
  split <;> omega

theorem failFunction_run {fid : Nat} (reset : Bool) (cause : Nat) (h : (look s.fns fid).isSome = true) :
    (fnD (failFunction reset cause fid s) fid).core = fnEnded reset cause (fnD s fid).core := by
  refine fnD_core_of_some ?_
  rw [fnCore_failFunction, onFn_same, fnCore_of_listed h]
  rfl

theorem failFunction_gen_of_ne {k fid : Nat} (h : k ≠ fid) (reset : Bool) (cause : Nat) (s : State) :
    (fnD (failFunction reset cause fid s) k).gen = (fnD s k).gen := by
  have hc : fnCore (failFunction reset cause fid s) k = fnCore s k := by rw [fnCore_failFunction, onFn_of_ne h]
  have hgen := congrArg Fn.gen (fnD_core_congr hc)
  exact hgen

theorem look_of_fnOf {fid : Nat} (h : (fnOf s fid).isSome = true) : (look s.fns fid).isSome = true := by
  unfold fnOf fnKnown at h
  exact Option.isSome_of_isSome_filter _ _ (Option.isSome_of_isSome_filter _ _ h)

/-! ### Function Level Reset -/

/-- What an FLR makes of the function that it resets. -/
def resetByFlr (f : Fn) : Fn := { f with crs := true, pmeEn := false, numVfs := 0, dstate := .d0 }

theorem configServed_of_running {fn : Nat} (hr : running s = true) (hc : (fnD s fn).crs = false) : configServed s fn = true := by
  simp [configServed, functionServed, hr, hc]

theorem flr_run {fn : Nat} (hf : (fnOf s fn).isSome = true) (hr : running s = true) (hc : (fnD s fn).crs = false) : ∃ t, exec (.flr fn) s = .next t ∧
    (fnD t fn).gen = nextGen (fnD s fn).gen ∧ (fnD t fn).cause = 1 ∧ (fnD t fn).crs = true ∧ (fnD t fn).dstate = .d0 ∧ (fnD t fn).numVfs = 0 := by
  obtain ⟨f, hfn⟩ := Option.isSome_iff_exists.mp hf
  have hl := fnCore_of_listed (look_of_fnOf hf)
  have hend : fnCore (failFunction true 1 fn s) fn = some (fnEnded true 1 (fnD s fn).core) := by
    rw [fnCore_failFunction, onFn_same, hl]
    rfl
  have he : exec (.flr fn) s = .next (updFn fn resetByFlr (resetCfg (· == fn)
      (if isPf fn then disableVfs true 1 fn (failFunction true 1 fn s) else failFunction true 1 fn s))) := by
    change execFlr fn s = _
    unfold execFlr
    rw [hfn]
    exact congrArg Host.Outcome.next (if_neg (by simp [configServed_of_running hr hc]))
  refine ⟨_, he, ?_⟩
  generalize failFunction true 1 fn s = x at hend
  have hvf : ∃ g, fnCore (if isPf fn then disableVfs true 1 fn x else x) fn = some g ∧ g.gen = nextGen (fnD s fn).gen ∧ g.cause = 1 := by
    split
    · next hpf =>
      rw [fnCore_disableVfs_pf hpf, onFn_same, hend]
      exact ⟨_, rfl, rfl, rfl⟩
    · exact ⟨_, hend, rfl, rfl⟩
  generalize (if isPf fn then disableVfs true 1 fn x else x) = y at hvf
  obtain ⟨g, hg, hgen, hcause⟩ := hvf
  have ht : fnCore (updFn fn resetByFlr (resetCfg (· == fn) y)) fn = some (resetByFlr g) := by
    rw [fnCore_updFn (g := resetByFlr) (fun _ => rfl), onFn_same, fnCore_of_view (resetCfg_view ..), hg]
    rfl
  have hd := fnD_core_of_some ht
  exact ⟨(congrArg Fn.gen hd).trans hgen, (congrArg Fn.cause hd).trans hcause, congrArg Fn.crs hd, congrArg Fn.dstate hd, congrArg Fn.numVfs hd⟩

theorem listed_of_crs {fn : Nat} (h : (fnD s fn).crs = true) : look s.fns fn = some (fnD s fn) := by
  cases hl : look s.fns fn with
  | none => simp [fnD, lookD, hl] at h
  | some f => rw [fnD_of_look hl]

theorem flrComplete_run {fn : Nat} (hc : (fnD s fn).crs = true) (hr : running s = true) : ∃ t, exec (.flrComplete fn) s = .next t ∧
    (fnD t fn).crs = false ∧ (ringOf t fn).ready = true ∧ t.grt = s.grt ∧ t.mem = s.mem := by
  have hl := listed_of_crs hc
  have he : exec (.flrComplete fn) s = .next (serveRing fn (updFn fn (fun f => { f with crs := false }) s)) :=
    congrArg Host.Outcome.next (if_pos (by simp [hc, functionServed, hr]))
  have hrun : running (setFn fn { fnD s fn with crs := false } s) = true := hr
  refine ⟨_, he, ?_⟩
  rw [updFn_of_look hl, serveRing, if_pos hrun]
  refine ⟨congrArg Fn.crs (lookD_put_same ..), ?_, rfl, rfl⟩
  rw [ringOf_setRing, if_pos rfl]

/-! ### Power states -/

/-- The D-state of a PF and of its VFs. -/
def setDstate (d : DState) (l : List Nat) (s : State) : State := l.foldl (fun s v => updFn v (fun f => { f with dstate := d }) s) s

theorem fnCore_setDstate_of_not_mem {k : Nat} (d : DState) (l : List Nat) (hk : k ∉ l) (s : State) : fnCore (setDstate d l s) k = fnCore s k := by
  induction l generalizing s with
  | nil => rfl
  | cons v r ih =>
    obtain ⟨hv, hr⟩ := (⟨List.ne_of_not_mem_cons hk, List.not_mem_of_not_mem_cons hk⟩ : _ ∧ _)
    refine (ih hr _).trans ?_
    rw [fnCore_updFn (g := fun f => { f with dstate := d }) (fun _ => rfl), onFn_of_ne hv]

/-- The PF takes the D-state once; its VFs are others. -/
theorem fnCore_setDstate_withVfs {fn : Nat} (hp : isPf fn = true) (d : DState) (x s : State) :
    fnCore (setDstate d (withVfs x fn) s) fn = (fnCore s fn).map (fun f => { f with dstate := d }) := by
  refine (fnCore_setDstate_of_not_mem d (vfsOf x fn) (not_mem_vfsOf_of_isPf hp x fn) _).trans ?_
  rw [fnCore_updFn (g := fun f => { f with dstate := d }) (fun _ => rfl), onFn_same]

theorem fnCore_failAll_of_not_mem {k : Nat} (cause : Nat) (l : List Nat) (hk : k ∉ l) (s : State) :
    fnCore (l.foldl (fun s v => failFunction false cause v s) s) k = fnCore s k := by
  induction l generalizing s with
  | nil => rfl
  | cons v r ih =>
    obtain ⟨hv, hr⟩ := (⟨List.ne_of_not_mem_cons hk, List.not_mem_of_not_mem_cons hk⟩ : _ ∧ _)
    refine (ih hr _).trans ?_
    rw [fnCore_failFunction, onFn_of_ne hv]

@[simp] theorem holdQueues_view {α : Type} {V : View α} (fid : Nat) (s : State) : V.get (holdQueues fid s) = V.get s := by
  simp [holdQueues]

/-- What a change of D-state does once the function's PME_En is written. -/
def dstateActs (fn : Nat) (new : DState) (s : State) : State :=
  match new with
  | .d0 => settle ((withVfs s fn).foldl (fun s v => resumeFunction v s) (setDstate new (withVfs s fn) s))
  | .d3cold =>
    let x := (withVfs s fn).foldl (fun s v => failFunction false 5 v s) s
    setDstate new (withVfs x fn) x
  | _ => (withVfs s fn).foldl (fun s v => holdQueues v s) (setDstate new (withVfs s fn) s)

theorem dStateChange_eq {fn n : Nat} (pme : Bool) (hp : isPf fn = true) (hc : (fnD s fn).crs = false) (hne : dstateOf n ≠ (fnD s fn).dstate) :
    exec (.dStateChange fn n pme) s = .next (dstateActs fn (dstateOf n) (updFn fn (fun f => { f with pmeEn := pme }) s)) :=
  congrArg Host.Outcome.next ((if_neg (by simp [hp])).trans ((if_neg (by simp [hc])).trans ((if_neg (Ne.symm hne)).trans rfl)))

/-- What a change of D-state makes of the PF. -/
theorem dstateActs_run {fn : Nat} {f : Fn} (d : DState) (hp : isPf fn = true) (h : fnCore s fn = some f) :
    fnCore (dstateActs fn d s) fn = some { (if d = .d3cold then fnEnded false 5 f else f) with dstate := d } := by
  have hset (x : State) (g : Fn) (hx : fnCore x fn = some g) : fnCore (setDstate d (withVfs s fn) x) fn = some { g with dstate := d } := by
    rw [fnCore_setDstate_withVfs hp, hx]
    rfl
  unfold dstateActs
  split
  · refine (congrFun (fnCore_of_view ?_) fn).trans (hset s f h)
    rw [settle_view]
    exact View.get_foldl (fun s v => resumeFunction_open v s) ..
  · have hx : fnCore ((withVfs s fn).foldl (fun s v => failFunction false 5 v s) s) fn = some (fnEnded false 5 f) := by
      refine (fnCore_failAll_of_not_mem 5 (vfsOf s fn) (not_mem_vfsOf_of_isPf hp s fn) _).trans ?_
      rw [fnCore_failFunction, onFn_same, h]
      rfl
    refine (fnCore_setDstate_withVfs hp ..).trans ?_
    rw [hx]
    rfl
  · next hd0 hd3 =>
    refine (congrFun (fnCore_of_view ?_) fn).trans ((hset s f h).trans ?_)
    · exact View.get_foldl (fun s v => holdQueues_view v s) ..
    · rw [if_neg hd3]

theorem fnCore_pmeEn {fn : Nat} (pme : Bool) (h : (look s.fns fn).isSome = true) :
    fnCore (updFn fn (fun f => { f with pmeEn := pme }) s) fn = some { (fnD s fn).core with pmeEn := pme } := by
  rw [fnCore_updFn (g := fun f => { f with pmeEn := pme }) (fun _ => rfl), onFn_same, fnCore_of_listed h]
  rfl

theorem dStateChange_cold {fn n : Nat} (pme : Bool) (hp : isPf fn = true) (hc : (fnD s fn).crs = false) (hne : dstateOf n ≠ (fnD s fn).dstate)
    (hd : dstateOf n = .d3cold) (hl : (look s.fns fn).isSome = true) : ∃ t, exec (.dStateChange fn n pme) s = .next t ∧
      (fnD t fn).gen = nextGen (fnD s fn).gen ∧ (fnD t fn).cause = 5 ∧ (fnD t fn).dstate = .d3cold := by
  have ht := fnD_core_of_some (dstateActs_run (dstateOf n) hp (fnCore_pmeEn pme hl))
  refine ⟨_, dStateChange_eq pme hp hc hne, ?_⟩
  rw [hd] at ht ⊢
  exact ⟨congrArg Fn.gen ht, congrArg Fn.cause ht, congrArg Fn.dstate ht⟩

theorem dStateChange_warm {fn n : Nat} (pme : Bool) (hp : isPf fn = true) (hc : (fnD s fn).crs = false) (hne : dstateOf n ≠ (fnD s fn).dstate)
    (hd : dstateOf n ≠ .d3cold) (hl : (look s.fns fn).isSome = true) : ∃ t, exec (.dStateChange fn n pme) s = .next t ∧
      (fnD t fn).gen = (fnD s fn).gen ∧ (fnD t fn).dstate = dstateOf n ∧ (fnD t fn).pmeEn = pme := by
  have ht := fnD_core_of_some (dstateActs_run (dstateOf n) hp (fnCore_pmeEn pme hl))
  refine ⟨_, dStateChange_eq pme hp hc hne, ?_⟩
  rw [if_neg hd] at ht
  have hgen := congrArg Fn.gen ht
  exact ⟨hgen, congrArg Fn.dstate ht, congrArg Fn.pmeEn ht⟩

/-! ### PERST_N -/

/-- What the reset of its host port makes of a PF that has been failed. -/
def perstState (f : Fn) : Fn :=
  { f with numVfs := 0, vfEnable := false, crs := false, pmeEn := f.pmeEn && f.dstate == .d3cold, dstate := if f.dstate = .d3cold then .d3cold else .d0 }

/-- One PF of a host port that is reset. -/
def perstPf (s : State) (p : Nat) : State := updFn p perstState (disableVfs false 5 p (failFunction false 5 p s))

theorem fnCore_perstPf {k : Nat} (hk : isPf k = true) (p : Nat) (s : State) :
    fnCore (perstPf s p) k = onFn p (fun f => perstState { fnEnded false 5 f with vfEnable := false }) (fnCore s) k := by
  unfold perstPf
  rw [fnCore_updFn (g := perstState) (fun _ => rfl)]
  by_cases h : k = p
  · subst h
    rw [onFn_same, fnCore_disableVfs_pf hk, onFn_same, fnCore_failFunction, onFn_same, onFn_same, Option.map_map, Option.map_map]
    rfl
  · rw [onFn_of_ne h, fnCore_disableVfs_pf hk, onFn_of_ne h, fnCore_failFunction, onFn_of_ne h, onFn_of_ne h]

theorem fnCore_perstPfs_of_not_mem {k : Nat} (hk : isPf k = true) (l : List Nat) (hm : k ∉ l) (s : State) :
    fnCore (l.foldl perstPf s) k = fnCore s k := by
  induction l generalizing s with
  | nil => rfl
  | cons p r ih =>
    rw [List.foldl_cons, ih (List.not_mem_of_not_mem_cons hm), fnCore_perstPf hk, onFn_of_ne (List.ne_of_not_mem_cons hm)]

/-- A PF of the port has its turn once. -/
theorem fnCore_perstPfs {k : Nat} (hk : isPf k = true) (l : List Nat) (hn : l.Nodup) (hm : k ∈ l) (s : State) :
    fnCore (l.foldl perstPf s) k = (fnCore s k).map (fun f => perstState { fnEnded false 5 f with vfEnable := false }) := by
  induction l generalizing s with
  | nil => exact absurd hm List.not_mem_nil
  | cons p r ih =>
    obtain ⟨hp, hr⟩ := List.nodup_cons.mp hn
    rw [List.foldl_cons]
    by_cases h : k = p
    · subst h
      rw [fnCore_perstPfs_of_not_mem hk r hp, fnCore_perstPf hk, onFn_same]
    · rw [ih hr ((List.mem_cons.mp hm).resolve_left h), fnCore_perstPf hk, onFn_of_ne h]

theorem fnCore_hostReset (hp : Nat) (s : State) : fnCore (hostReset hp s) = fnCore ((pfsOf hp).foldl perstPf s) := by
  refine fnCore_of_view ?_
  unfold hostReset
  dsimp only
  refine (View.get_foldl (fun s ep => ?_) ..).trans ?_
  · split <;> simp
  · rw [View.get_setPorts, endIde_open, resetCfg_view]
    exact congrArg standingView.get rfl

theorem perstN_run {hp pf : Nat} (hb : (hostPortBlock s hp).isSome = true) (h1 : hp ≤ 1) (h3 : pf < 3) (hl : (look s.fns (pfId hp pf)).isSome = true) :
    ∃ t, exec (.perstN hp true) s = .next t ∧ (fnD t (pfId hp pf)).gen = nextGen (fnD s (pfId hp pf)).gen ∧ (fnD t (pfId hp pf)).cause = 5 ∧
      (fnD t (pfId hp pf)).vfEnable = false ∧ (fnD t (pfId hp pf)).dstate ≠ .d1 ∧ (fnD t (pfId hp pf)).dstate ≠ .d3hot := by
  have hpf : isPf (pfId hp pf) = true := by
    unfold isPf pfId
    exact decide_eq_true (by omega)
  have hn : (pfsOf hp).Nodup := by simp [pfsOf, pfId]
  have hm : pfId hp pf ∈ pfsOf hp := by
    have : pf = 0 ∨ pf = 1 ∨ pf = 2 := by omega
    rcases this with rfl | rfl | rfl <;> simp [pfsOf]
  have ht : fnCore (hostReset hp s) (pfId hp pf) = some (perstState { fnEnded false 5 (fnD s (pfId hp pf)).core with vfEnable := false }) := by
    rw [fnCore_hostReset, fnCore_perstPfs hpf _ hn hm, fnCore_of_listed hl]
    rfl
  have hd := fnD_core_of_some ht
  have he : exec (.perstN hp true) s = .next (hostReset hp s) :=
    congrArg Host.Outcome.next ((if_neg (by simp [Option.isNone_iff_eq_none, Option.isSome_iff_ne_none.mp hb, h1])).trans (if_pos rfl))
  refine ⟨_, he, ?_⟩
  generalize fnD (hostReset hp s) (pfId hp pf) = g at hd ⊢
  generalize fnD s (pfId hp pf) = f at hd ⊢
  have hgen := congrArg Fn.gen hd
  have hstate : g.dstate = .d3cold ∨ g.dstate = .d0 := by
    have h := congrArg Fn.dstate hd
    by_cases hc : f.dstate = .d3cold
    · exact .inl (h.trans (if_pos hc))
    · exact .inr (h.trans (if_neg hc))
  refine ⟨hgen, congrArg Fn.cause hd, congrArg Fn.vfEnable hd, ?_⟩
  rcases hstate with h | h <;> rw [h] <;> exact ⟨nofun, nofun⟩

/-! ### NumVFs, VF Enable and wake events -/

theorem configServed_false {fn : Nat} (h : running s = false ∧ footing s = false ∨ (fnD s fn).crs = true) : configServed s fn = false := by
  rcases h with ⟨hr, hf⟩ | h
  · simp [configServed, functionServed, hr, hf]
  · simp [configServed, h]

theorem flr_unserved {fn : Nat} (h : configServed s fn = false) (hf : (fnOf s fn).isSome = true) : exec (.flr fn) s = .next (configRetry fn s) := by
  obtain ⟨f, hfn⟩ := Option.isSome_iff_exists.mp hf
  change execFlr fn s = _
  unfold execFlr
  rw [hfn]
  exact congrArg Host.Outcome.next (if_pos (by simp [h]))

theorem flr_absent {fn : Nat} (h : fnOf s fn = none) : exec (.flr fn) s = .next s := by
  change execFlr fn s = _
  unfold execFlr
  rw [h]

theorem vfEnable_off {fn : Nat} (hp : isPf fn = true) (hr : running s = true) (hc : (fnD s fn).crs = false) (hv : (fnD s fn).vfEnable = true)
    (hl : (look s.fns fn).isSome = true) : ∃ t, exec (.vfEnable fn false) s = .next t ∧
      (fnD t fn).vfEnable = false ∧ (fnD t fn).gen = (fnD s fn).gen ∧ ∀ v ∈ vfsOf s fn, v ≠ fn → (fnD t v).on = false := by
  have he : exec (.vfEnable fn false) s = .next (disableVfs true 1 fn s) :=
    congrArg Host.Outcome.next ((if_neg (by simp [hp])).trans ((if_neg (by simp [configServed_of_running hr hc])).trans
      ((if_neg (by simp [hv])).trans (if_neg Bool.false_ne_true))))
  have ht : fnCore (disableVfs true 1 fn s) fn = some { (fnD s fn).core with vfEnable := false } := by
    rw [fnCore_disableVfs_pf hp, onFn_same, fnCore_of_listed hl]
    rfl
  have hd := fnD_core_of_some ht
  have hgen := congrArg Fn.gen hd
  exact ⟨_, he, congrArg Fn.vfEnable hd, hgen, fun v hv hne => disableVfs_off hv hne true 1⟩

theorem look_of_listed {k : Nat} (h : (look s.fns k).isSome = true) : look s.fns k = some (fnD s k) := by
  obtain ⟨f, hf⟩ := Option.isSome_iff_exists.mp h
  rw [fnD_of_look hf, hf]

theorem reclaimComplete_run (fn : Nat) (s : State) : ∃ t, exec (.reclaimComplete fn) s = .next t ∧ (fnD t fn).reclaim = {} ∧ t = s.setFns t.fns := by
  cases h : look s.fns fn with
  | none =>
    have he : updFn fn (fun f => { f with reclaim := {} }) s = s := by simp only [updFn, h]
    exact ⟨s, congrArg Host.Outcome.next he, by simp [fnD, lookD, h], rfl⟩
  | some f =>
    refine ⟨_, congrArg Host.Outcome.next (updFn_of_look h _), congrArg Fn.reclaim (lookD_put_same ..), rfl⟩

theorem wakeEvent_run {fn kind : Nat} (hp : isPf fn = true) (hk : kind ≤ 2) :
    ((fnD s fn).pmeEn = false → exec (.wakeEvent fn kind) s = .next (s.setPwr { s.pwr with standby := false })) ∧
    ((fnD s fn).pmeEn = true → ((fnD s fn).dstate = .d1 ∨ (fnD s fn).dstate = .d3hot) →
      exec (.wakeEvent fn kind) s = .next (emit (.pme fn) (s.setPwr { s.pwr with standby := false }))) ∧
    ((fnD s fn).pmeEn = true → (fnD s fn).dstate = .d3cold → exec (.wakeEvent fn kind) s =
      .next (emit (.pin .wakeN true) (updFn fn (fun f => { f with wake := true }) (s.setPwr { s.pwr with standby := false })))) := by
  have hn : ¬ ((!isPf fn) = true ∨ 2 < kind) := by simp [hp, hk]
  refine ⟨fun h => congrArg Host.Outcome.next ((if_neg hn).trans (if_pos (by simp [h]))), fun h hd => ?_, fun h hd => ?_⟩
  · refine congrArg Host.Outcome.next ((if_neg hn).trans ((if_neg (by simp [h])).trans ?_))
    rcases hd with hd | hd <;> rw [hd]
  · refine congrArg Host.Outcome.next ((if_neg hn).trans ((if_neg (by simp [h])).trans ?_))
    rw [hd]

/-- Settles O49: what ends a generation is read as what it makes of the functions as they stand (`fnCore_failFunction`), and the resets, leases,
power states and virtual functions by what they add to it. -/
theorem generationsEndWhole : Obligations.GenerationsEndWhole := by
  unfold Obligations.GenerationsEndWhole
  refine ⟨nextGen_range, fun reset cause fid s hl => ?_,
    fun fn s => ⟨flr_absent, fun h => ?_, fun hf hr hc => flr_run hf hr hc, fun hc => ?_, flrComplete_run, fun h => congrArg Host.Outcome.next (if_neg (by simp [h])),
      fun h => congrArg Host.Outcome.next (if_pos h), reclaimComplete_run fn s, fun h hp pme n => ?_, fun hc hp pme n hne =>
        ⟨fun hd hl => dStateChange_cold pme hp hc hne hd hl, fun hd hl => dStateChange_warm pme hp hc hne hd hl⟩⟩,
    fun hp pf s hb h1 h3 hl => perstN_run hb h1 h3 hl, fun hp s hb h1 => ?_,
    fun fn s => ⟨fun hv hr hc n => ?_, fun hp hr hc hv hl n => ?_, fun on h => ?_, vfEnable_off, fun hp hr hc hv hl => ?_, fun hp kind hk => wakeEvent_run hp hk⟩⟩
  · have hd := failFunction_run reset cause hl
    obtain ⟨hconns, hmrs⟩ := failFunction_transport hl reset cause
    exact ⟨congrArg Fn.gen hd, congrArg Fn.prevGen hd, congrArg Fn.cause hd, congrArg Fn.leaseOn hd, failFunction_session hl reset cause, hconns, hmrs,
      fun k hk => failFunction_gen_of_ne hk reset cause s⟩
  · have hs := configServed_false h
    exact ⟨flr_unserved hs, fun hp => ⟨fun n => congrArg Host.Outcome.next ((if_neg (by simp [hp])).trans (if_pos (by simp [hs]))),
      fun on => congrArg Host.Outcome.next ((if_neg (by simp [hp])).trans (if_pos (by simp [hs])))⟩⟩
  · exact congrArg Host.Outcome.next (if_neg (by simp [hc]))
  · exact congrArg Host.Outcome.next ((if_neg (by simp [hp])).trans (if_pos h))
  · exact congrArg Host.Outcome.next ((if_neg (by simp [Option.isNone_iff_eq_none, Option.isSome_iff_ne_none.mp hb, h1])).trans (if_neg Bool.false_ne_true))
  · refine congrArg Host.Outcome.next ?_
    by_cases hp : isPf fn = true
    · exact (if_neg (by simp [hp])).trans ((if_neg (by simp [configServed_of_running hr hc])).trans (if_pos hv))
    · exact if_pos (by simp [hp])
  · exact congrArg Host.Outcome.next ((if_neg (by simp [hp])).trans ((if_neg (by simp [configServed_of_running hr hc])).trans ((if_neg (by simp [hv])).trans
      (updFn_of_look (look_of_listed hl) _))))
  · rcases h with h | ⟨hr, hc, hv⟩
    · exact congrArg Host.Outcome.next (if_pos (by simp [h]))
    · refine congrArg Host.Outcome.next ?_
      by_cases hp : isPf fn = true
      · exact (if_neg (by simp [hp])).trans ((if_neg (by simp [configServed_of_running hr hc])).trans (if_pos (by simp [hv])))
      · exact if_pos (by simp [hp])
  · refine congrArg Host.Outcome.next ((if_neg (by simp [hp])).trans ((if_neg (by simp [configServed_of_running hr hc])).trans ((if_neg (by simp [hv])).trans
      ((if_pos rfl).trans ?_))))
    rw [updFn_of_look (look_of_listed hl)]

end Sys2Proof.Machine
end

section
/-! What the model refutes of the command protocol's statements (R73, R92, R93, R433), each by one state that the model runs: a reply that counts a dropped
request of another function, and a staged policy bound that touches another owner's staged course policy. -/

namespace Sys2Proof.Machine

open Sys2Proof

/-! ### A reply into logged memory -/

/-- VF 0x1000 of PF1 is in D0; PF0, into whose memory the pages that are written for the VF are logged, is in D3hot. -/
def loggedVf : State :=
  setLink 0 { width := 16, speed := 6 }
    (((State.reset.setBoot { State.reset.boot with inReset := false, stage := 3 }).setPorts { State.reset.ports with blocks := [(0, { role := 1 })] }).setFns
      [(0, { dstate := .d3hot }),
       (0x1000, { pf := 1, vfIndex := 1, dirty := some { issuer := 0, bitmap := 0x90000, base := 0, length := 0x10000 } })])

theorem loggedVf_reached : silenced loggedVf 0x1000 = false := by decide

/-- The reply is written, its page is to be logged, and the log's write is dropped and counted. -/
theorem loggedVf_counts : (sendReply 0x0003 (.ring 0x1000) {} stOk dtNone [] loggedVf).csr ≠ loggedVf.csr := by decide

/-- Refutes O27: the memory of the function that is answered can be reached, yet a register changes. A page of that memory is logged for another function
(R433), whose own memory cannot be reached, and the port block counts the log's request as dropped (R384). -/
theorem not_rejectedCommandsChangeNothing : ¬ Obligations.RejectedCommandsChangeNothing := by
  unfold Obligations.RejectedCommandsChangeNothing
  intro h
  obtain ⟨-, -, -, hframe⟩ := h
  obtain ⟨-, -, -, hcsr, -⟩ := hframe 0x0003 (.ring 0x1000) {} stOk dtNone [] loggedVf
  refine loggedVf_counts (hcsr ?_)
  rintro k ⟨⟩
  exact loggedVf_reached

/-! ### A policy bound staged beside another owner's course policy -/

theorem wakeFor_of_none {s : State} (h : wakeOnce s = none) (n : Nat) : wakeFor n s = s := by
  cases n with
  | zero => rfl
  | succ n => simp only [wakeFor, h]

/-- Where nothing can go on after a reply, the reply is all that an outcome does to the state of the protocol. -/
theorem Replied.icp_eq {r : Ran} {c : Ctx} {st d : Nat} {data : Bytes} {x t : State} (h : Replied r c st d data x) (hr : r = .next t)
    (hw : wakeOnce (sendReply c.pkt.opcode c.via c.pkt st d data x) = none) : t.icp = (sendReply c.pkt.opcode c.via c.pkt st d data x).icp := by
  obtain ⟨n, hn⟩ := h
  rw [wakeFor_of_none hw, hr] at hn
  rw [Host.Outcome.next.inj hn]
  rfl

/-- A part on which PF0 has staged a course policy, and on which an MCTP endpoint has a session. -/
def policyStaged : State :=
  (State.reset.setBoot { State.reset.boot with inReset := false, stage := 3 }).setIcp { State.reset.icp with
    sessions := [(.mctp 9, { sid := 1, major := 3, minor := 1 })], stage := [{ owner := .fn 0, otype := 7, handle := 0, config := [] }] }

/-- CFG_STAGE of a POLICY_SET block: policy 2, on, threshold 0, LOW 5. -/
def stageThreshold : IcpPkt :=
  { major := 3, minor := 1, functionId := 0x3009, sessionId := 1, paramLen := 48,
    params := layout 48 [(0, 2, 9), (8, 2, 32), (16, 1, 2), (17, 1, 1), (24, 8, 5)] }

/-- The command as its handler sees it. -/
def thresholdCtx : Ctx :=
  { via := .mctp 9, pkt := taken 0x0110 (.mctp 9) stageThreshold policyStaged, iss := issuerOf policyStaged (.mctp 9),
    sess := sessionOf policyStaged (.mctp 9) }

theorem stageThreshold_starts : Starts 0x0110 (.mctp 9) stageThreshold policyStaged thresholdCtx policyStaged :=
  ⟨⟨by decide, by decide, by decide, by decide, by decide⟩, by decide, by decide, by decide, rfl⟩

/-- Nothing of the command's own type is staged. -/
theorem policyStaged_other_type : ∀ x ∈ policyStaged.icp.stage, x.otype ≠ 9 := by decide

/-- Refutes O26: POLICY_SET of policy 2 sets the thresholds of the course policy (R646), which PF0 has staged, so the part answers CFG_STAGE with BUSY
(R93) and adds no entry; the statement looks at staged objects of the command's own type only. -/
theorem not_stagedConfigurationCommitsOrAborts : ¬ Obligations.StagedConfigurationCommitsOrAborts := by
  unfold Obligations.StagedConfigurationCommitsOrAborts
  intro h
  obtain ⟨hstage, -⟩ := h
  have hown : ∀ x ∈ policyStaged.icp.stage, x.otype = thresholdCtx.p 0 2 →
      touches (thresholdCtx.p 0 2) (stageCtx thresholdCtx (thresholdCtx.p 0 2) ((thresholdCtx.params.drop 16).take (thresholdCtx.p 8 2))) policyStaged
        x.handle = true → x.owner = ownerFor (.mctp 9) :=
    fun x hx ht => absurd ht (policyStaged_other_type x hx)
  obtain ⟨hreplied, -, -⟩ := hstage (.mctp 9) stageThreshold policyStaged policyStaged _ thresholdCtx _ _ stageThreshold_starts
    (by decide) (by decide) (by decide) (by decide) (by decide) rfl (by decide) (by decide) hown (by decide)
  have hlen := congrArg (fun i : Icp => i.stage.length) (hreplied.icp_eq rfl (by decide))
  exact absurd hlen (by decide)

end Sys2Proof.Machine
end

section
/-! What the model refutes of the statement about starts and activations (R89, R678): the emergency that a deferred activation reports. -/

namespace Sys2Proof.Machine

open Sys2Proof

/-- A live activation that a power emergency has deferred; now island 3 is throttled at the junction limit. -/
def deferredLive : State :=
  (State.reset.setBoot { State.reset.boot with
    inReset := false, stage := 3,
    act := some { via := .ring 0, pkt := {}, slot := 1, mode := 2, flags := 0, deferred := true, detail := dtPower } }).setPwr
    { State.reset.pwr with fallback := false, islands := [(3, { held := true })] }

theorem deferredLive_emergency : emergencyDetail deferredLive = some dtThermal := by decide

/-- The check after 100 ms keeps the detail of the interim reply. -/
theorem deferredLive_retried : ∃ t, exec .activationRetry deferredLive = .next t ∧ t.boot.act.map (·.detail) = some dtPower :=
  ⟨_, rfl, by decide⟩

/-- Refutes O55: an activation that is checked again while another emergency holds than the one that deferred it keeps the detail of its interim reply, with
which it may yet fail (R89); the statement has it take the detail of the emergency that holds now. -/
theorem not_startsImagesAndActivations : ¬ Obligations.StartsImagesAndActivations := by
  unfold Obligations.StartsImagesAndActivations
  intro h
  obtain ⟨-, -, -, -, -, hact, -⟩ := h
  obtain ⟨-, -, hdeferred, -⟩ := hact deferredLive
  obtain ⟨-, hretry, -⟩ := hdeferred _ rfl rfl
  obtain ⟨t, ht, hdetail⟩ := deferredLive_retried
  obtain rfl := Host.Outcome.next.inj (ht.symm.trans (hretry dtThermal deferredLive_emergency))
  exact absurd hdetail (by decide)

end Sys2Proof.Machine
end

section
/-! Queue pairs of the table service: what writing to a client's memory and to the rings leaves of them (R42, R256, R260, R415). -/

namespace Sys2Proof.Machine

open Sys2Proof

variable {s : State} {n : Nat} {q : Cqp}

/-! ### What leaves the part leaves the tables -/

@[simp] theorem emit_tab (o : Out) (s : State) : (emit o s).tab = s.tab := rfl
@[simp] theorem bumpBy_tab (b rel k : Nat) (s : State) : (bumpBy b rel k s).tab = s.tab := rfl
@[simp] theorem countUnmapped_tab (addr : Nat) (s : State) : (countUnmapped addr s).tab = s.tab := rfl

@[simp] theorem dmaDropped_tab (fid k : Nat) (s : State) : (dmaDropped fid k s).tab = s.tab := by
  obtain ⟨c, h⟩ := dmaDropped_eq fid k s
  rw [h]; rfl

@[simp] theorem raiseMsix_tab (fn vec : Nat) (s : State) : (raiseMsix fn vec s).tab = s.tab := by
  obtain ⟨c, o, p, h⟩ := raiseMsix_eq fn vec s
  rw [h]; rfl

@[simp] theorem updFn_tab (fid : Nat) (g : Fn → Fn) (s : State) : (updFn fid g s).tab = s.tab := by
  unfold updFn; split <;> rfl

@[simp] theorem markPage_tab (fid : Nat) (d : DirtyLog) (k : Nat) (s : State) : (markPage fid d k s).tab = s.tab := by
  unfold markPage
  dsimp only
  split <;> simp

theorem foldl_tab {β : Type} {f : State → β → State} (h : ∀ s x, (f s x).tab = s.tab) (l : List β) (s : State) : (l.foldl f s).tab = s.tab := by
  induction l generalizing s with
  | nil => rfl
  | cons x r ih => rw [List.foldl_cons, ih, h]

@[simp] theorem markWrite_tab (fid addr k : Nat) (s : State) : (markWrite fid addr k s).tab = s.tab := by
  have hpages : ∀ (d : DirtyLog) (b : Nat) (l : List Nat) (t : State), (l.foldl (fun s i => markPage fid d (b + i) s) t).tab = t.tab :=
    fun d b => foldl_tab (fun t i => markPage_tab fid d (b + i) t)
  unfold markWrite
  split
  · rfl
  · dsimp only
    split <;> split <;> simp [hpages]

@[simp] theorem dmaOut_tab (fid addr : Nat) (bs : Bytes) (s : State) : (dmaOut fid addr bs s).tab = s.tab := by
  unfold dmaOut
  split
  · rfl
  · split <;> simp

@[simp] theorem writeMem_tab (dpa : Nat) (bs : Bytes) (s : State) : (writeMem dpa bs s).1.tab = s.tab := by
  obtain ⟨m, h⟩ := writeMem_eq_setMem dpa bs s
  rw [h]; rfl

/-- A descriptor is written into custody memory, and nothing else changes. -/
theorem descPut_eq_setMem (n : Nat) (q : Cqp) (d : Desc) (s : State) : ∃ m, descPut n q d s = s.setMem m := by
  unfold descPut
  split
  · exact writeMem_eq_setMem _ _ _
  · exact ⟨s.mem, rfl⟩

/-! ### Reading a queue pair -/

theorem cqpD_of_cqpOf (h : cqpOf s n = some q) : cqpD s n = q := by
  rw [cqpD, lookD, show look s.tab.cqps n = some q from h, Option.getD_some]

theorem cqpOf_congr {t : State} (h : t.tab = s.tab) (n : Nat) : cqpOf t n = cqpOf s n := by rw [cqpOf, cqpOf, h]
theorem cqpD_congr {t : State} (h : t.tab = s.tab) (n : Nat) : cqpD t n = cqpD s n := by rw [cqpD, cqpD, h]

@[simp] theorem cqpD_setCqp_same (n : Nat) (q : Cqp) (s : State) : cqpD (setCqp n q s) n = q := lookD_put_same ..
@[simp] theorem cqpOf_setCqp_same (n : Nat) (q : Cqp) (s : State) : cqpOf (setCqp n q s) n = some q := look_put_same ..

theorem updCqp_of_cqpOf (h : cqpOf s n = some q) (f : Cqp → Cqp) : updCqp n f s = setCqp n (f q) s := by
  rw [updCqp, h]

theorem put_put_same {α : Type} (l : List (Nat × α)) (k : Nat) (v w : α) : put (put l k v) k w = put l k w := by
  induction l with
  | nil => simp [put]
  | cons e r ih =>
    obtain ⟨a, b⟩ := e
    by_cases h : a = k
    · simp [put, h]
    · simp [put, h, ih]

@[simp] theorem setCqp_setCqp (n : Nat) (q q' : Cqp) (s : State) : setCqp n q' (setCqp n q s) = setCqp n q' s := by
  simp only [setCqp, State.setTab_tab, put_put_same]
  rfl

/-! ### The submission ring's tail stands while completions go out -/

/-- Where the next descriptor of a submission ring goes, and how many slots the ring has. -/
def sqPlace (q : Cqp) : Nat × Nat := (q.sqTail, q.sqLog2)

/-- A queue pair whose next completion entry has been used. -/
def cqStepped (q : Cqp) : Cqp :=
  { q with cqProd := if decide (q.cqProd + 1 = cqSlots q) then 0 else q.cqProd + 1,
           cqPass := if decide (q.cqProd + 1 = cqSlots q) then !q.cqPass else q.cqPass }

/-- Of the tables a completion changes its queue pair's producer alone. -/
theorem writeCqe_tab (h : cqpOf s n = some q) (c : Cqe) (irq : Bool) : (writeCqe n c irq s).tab = (setCqp n (cqStepped q) s).tab := by
  unfold writeCqe
  simp only [h]
  cases ringDpa s (some n) q.owner true (16 * q.cqProd) with
  | none =>
    simp only [Bool.not_true, Bool.false_eq_true, if_false, Option.isNone_none, if_true]
    split <;> simp only [raiseMsix_tab, emit_tab, dmaOut_tab] <;> rfl
  | some a =>
    simp only [Option.isNone_some, Bool.false_eq_true, if_false]
    split
    · rfl
    · split <;> simp only [raiseMsix_tab, emit_tab, writeMem_tab] <;> rfl

theorem writeCqe_sqPlace (c : Cqe) (irq : Bool) (s : State) : sqPlace (cqpD (writeCqe n c irq s) n) = sqPlace (cqpD s n) := by
  cases hq : cqpOf s n with
  | none => rw [writeCqe, hq]
  | some q =>
    rw [cqpD_congr (writeCqe_tab hq c irq), cqpD_setCqp_same, cqpD_of_cqpOf hq]
    rfl

theorem deliverHeld_sqPlace (n : Nat) (s : State) : sqPlace (cqpD (deliverHeld n s) n) = sqPlace (cqpD s n) := by
  have hcqes : ∀ (l : List (Cqe × Bool)) (t : State), sqPlace (cqpD (l.foldl (fun s c => writeCqe n c.1 c.2 s) t) n) = sqPlace (cqpD t n) := by
    intro l
    induction l with
    | nil => exact fun _ => rfl
    | cons c r ih => exact fun t => (ih _).trans (writeCqe_sqPlace c.1 c.2 t)
  have hdata : ∀ (fid : Nat) (l : List (Nat × Bytes)) (t : State), (l.foldl (fun s w => dmaOut fid w.1 w.2 s) t).tab = t.tab :=
    fun fid => foldl_tab (fun t w => dmaOut_tab fid w.1 w.2 t)
  unfold deliverHeld
  dsimp only
  rw [hcqes, cqpD_congr (hdata _ _ _), cqpD_setCqp_same]
  rfl

theorem releaseHeld_sqPlace (n : Nat) (s : State) : sqPlace (cqpD (releaseHeld n s) n) = sqPlace (cqpD s n) := by
  unfold releaseHeld
  dsimp only
  split
  · rw [deliverHeld_sqPlace, cqpD_setCqp_same]; rfl
  · rfl

end Sys2Proof.Machine
end

section
/-! Descriptors and doorbells of a custody queue pair (R60, R256, R261, R264, R419, R423): what a descriptor row and a write of SQ_TAIL or CQ_HEAD do
before the rest of the part goes on. -/

namespace Sys2Proof.Machine

open Sys2Proof

variable {s : State} {n : Nat} {q : Cqp} {d : Desc} {io : DescIo}

/-! ### A descriptor enters the ring (R256) -/

/-- The row of a descriptor, by its opcode. -/
def descRow (n : Nat) (d : Desc) (io : DescIo) : Nat → Instr
  | 1 => .lookup n d io
  | 2 => .lookupPool n d io
  | 3 => .update n d io
  | 4 => .readRows n d io
  | 5 => .writeRows n d io
  | 6 => .prefetch n d io
  | _ => .kernel n d io

theorem exec_descRow {op : Nat} (hop : 1 ≤ op ∧ op ≤ 7) (hz : s.tel.frozen = false) : exec (descRow n d io op) s = .next (submit n op d io s) := by
  obtain ⟨hlo, hhi⟩ := hop
  rw [← thawed_of_running hz (submit n op d io s)]
  interval_cases op <;> rfl

/-- The tail has moved by one slot, so one descriptor is new. -/
theorem one_fresh {tail log : Nat} (ht : tail < 2 ^ log) (hl : 0 < log) : ((tail + 1) % 2 ^ log + 2 ^ log - tail) % 2 ^ log = 1 := by
  have h2 : 2 ≤ 2 ^ log := Nat.le_self_pow (by omega) 2
  rcases Nat.lt_or_ge (tail + 1) (2 ^ log) with h | h
  · rw [Nat.mod_eq_of_lt h, show tail + 1 + 2 ^ log - tail = 1 + 2 ^ log by omega, Nat.add_mod_right, Nat.mod_eq_of_lt h2]
  · have he : tail + 1 = 2 ^ log := by omega
    rw [he, Nat.mod_self, show 0 + 2 ^ log - tail = 1 by omega, Nat.mod_eq_of_lt h2]

/-- The queue pair after a descriptor has been written into its ring and made visible. -/
def enqueued (n : Nat) (q : Cqp) (d : Desc) (io : DescIo) (s : State) : State :=
  let s1 := releaseHeld n (descPut n q d s)
  setCqp n { cqpD s1 n with sqTail := (q.sqTail + 1) % 2 ^ q.sqLog2, unread := (cqpD s1 n).unread ++ [(d, io)] } s1

theorem submit_off (hq : cqpOf s n = some q) (hoff : doorbellOff s q.endpoint q.owner = true) (op : Nat) : submit n op d io s = s := by
  simp only [submit, hq, hoff, if_true]

theorem submit_on (hq : cqpOf s n = some q) (hoff : doorbellOff s q.endpoint q.owner = false) (he : q.error = false) (hc : q.closing = false)
    (ht : q.sqTail < 2 ^ q.sqLog2) (hl : 0 < q.sqLog2) (op : Nat) : submit n op d io s = settle (enqueued n q { d with opcode := op } io s) := by
  obtain ⟨m, hput⟩ := descPut_eq_setMem n q { d with opcode := op } s
  have hplace : sqPlace (cqpD (releaseHeld n (descPut n q { d with opcode := op } s)) n) = sqPlace q := by
    rw [releaseHeld_sqPlace, hput, cqpD_congr (State.setMem_tab s m), cqpD_of_cqpOf hq]
  obtain ⟨htail, hlog⟩ := Prod.mk.inj hplace
  simp only [submit, hq, hoff, he, hc, Bool.or_self, Bool.false_eq_true, if_false, ringTail, sqSlots, htail, hlog, one_fresh ht hl, enqueued]
  rfl

/-! ### SQ_TAIL (R60, R256, R419) -/

theorem execSqTail_eq (hz : s.tel.frozen = false) (hq : cqpOf s n = some q) (index who : Nat) (slots : List (Bytes × DescIo)) :
    exec (.sqTail n index who slots) s = .next (
      if !mayRing q who then countUnmapped (4096 * q.page) s
      else if who = q.owner ∧ (fnD s q.owner).dstate ≠ .d0 then s
      else if 2 ^ q.sqLog2 ≤ index then doorbellRange q.owner s
      else if q.error || q.closing then doorbellIgnored s
      else settle (ringTail n index (freshSlots (releaseHeld n s) n index (cqpD (releaseHeld n s) n) slots) (cqpD (releaseHeld n s) n)
        (releaseHeld n s))) := by
  refine congrArg Host.Outcome.next ((thawed_of_running hz _).trans ?_)
  simp only [hq, sqSlots]

/-- A doorbell value out of range is counted and sets DB_ERR of the owner's ring. -/
theorem doorbellRange_eq (owner : Nat) (s : State) : doorbellRange owner s = (s.setIcp { s.icp with dbInvalid := s.icp.dbInvalid + 1 }).setRings
    (put s.rings owner { ringOf s owner with dbErr := true }) := rfl

/-- The new tail makes every slot up to it visible. -/
theorem ringTail_freshSlots (index : Nat) (slots : List (Bytes × DescIo)) (q : Cqp) (x s : State) :
    ringTail n index (freshSlots x n index q slots) q s = setCqp n { q with sqTail := index, unread := q.unread ++ freshSlots x n index q slots } s := by
  have hlen : (freshSlots x n index q slots).length = (index + sqSlots q - q.sqTail) % sqSlots q := by
    rw [freshSlots, List.length_map, List.length_range]
  rw [ringTail, ← hlen, List.take_length]

theorem sqTail_off (hz : s.tel.frozen = false) (hq : cqpOf s n = some q) {index who : Nat} {slots : List (Bytes × DescIo)}
    (hm : mayRing q who = true) (hoff : who = q.owner ∧ (fnD s q.owner).dstate ≠ .d0) : exec (.sqTail n index who slots) s = .next s := by
  rw [execSqTail_eq hz hq, if_neg (by simp [hm]), if_pos hoff]

theorem sqTail_stranger (hz : s.tel.frozen = false) (hq : cqpOf s n = some q) {index who : Nat} {slots : List (Bytes × DescIo)}
    (hm : mayRing q who = false) : exec (.sqTail n index who slots) s = .next (countUnmapped (4096 * q.page) s) := by
  rw [execSqTail_eq hz hq, if_pos (by simp [hm])]

/-- An access under R29 is counted. -/
theorem cell_countUnmapped_count (addr : Nat) (s : State) : cell (countUnmapped addr s) blkGlobal 0x16C = (cell s blkGlobal 0x16C + 1) % 2 ^ 32 := by
  rw [countUnmapped, cell_setCell_of_ne (by decide)]
  exact cell_bump_same ..

section
variable {index who : Nat} {slots : List (Bytes × DescIo)} (hz : s.tel.frozen = false) (hq : cqpOf s n = some q)
  (hm : mayRing q who = true) (hon : ¬ (who = q.owner ∧ (fnD s q.owner).dstate ≠ .d0))
include hz hq hm hon

theorem sqTail_outOfRange (hi : 2 ^ q.sqLog2 ≤ index) : exec (.sqTail n index who slots) s = .next (doorbellRange q.owner s) := by
  rw [execSqTail_eq hz hq, if_neg (by simp [hm]), if_neg hon, if_pos hi]

theorem sqTail_ignored (hi : index < 2 ^ q.sqLog2) (he : q.error = true ∨ q.closing = true) :
    exec (.sqTail n index who slots) s = .next (doorbellIgnored s) := by
  rw [execSqTail_eq hz hq, if_neg (by simp [hm]), if_neg hon, if_neg (Nat.not_le.mpr hi), if_pos (by simpa using he)]

theorem sqTail_taken (hi : index < 2 ^ q.sqLog2) (he : q.error = false) (hc : q.closing = false) :
    exec (.sqTail n index who slots) s = .next (settle (setCqp n { cqpD (releaseHeld n s) n with
      sqTail := index, unread := (cqpD (releaseHeld n s) n).unread ++ freshSlots (releaseHeld n s) n index (cqpD (releaseHeld n s) n) slots }
      (releaseHeld n s))) := by
  rw [execSqTail_eq hz hq, if_neg (by simp [hm]), if_neg hon, if_neg (Nat.not_le.mpr hi), if_neg (by simp [he, hc]), ringTail_freshSlots]

end

/-- The completions held for an adopted queue pair go out before its ring moves on. -/
theorem releaseHeld_of_cqpOf (hq : cqpOf s n = some q) :
    releaseHeld n s = if q.adopted then deliverHeld n (setCqp n { q with adopted := false } s) else s := by
  rw [releaseHeld, cqpD_of_cqpOf hq]

/-! ### CQ_HEAD (R60, R264) -/

theorem execCqHead_eq (hz : s.tel.frozen = false) (hq : cqpOf s n = some q) (index : Nat) : exec (.cqHead n index) s = .next (
    if doorbellOff s q.endpoint q.owner then s
    else if 2 ^ q.cqLog2 ≤ index then doorbellRange q.owner s
    else if q.error then doorbellIgnored s
    else settle (setCqp n { q with cqHead := index, cqUsed := q.cqUsed - (index + 2 ^ q.cqLog2 - q.cqHead) % 2 ^ q.cqLog2 } s)) := by
  refine congrArg Host.Outcome.next ((thawed_of_running hz _).trans ?_)
  simp only [hq]
  rfl

section
variable {index : Nat} (hz : s.tel.frozen = false) (hq : cqpOf s n = some q)
include hz hq

theorem cqHead_off (hoff : doorbellOff s q.endpoint q.owner = true) : exec (.cqHead n index) s = .next s := by
  rw [execCqHead_eq hz hq, if_pos hoff]

variable (hon : doorbellOff s q.endpoint q.owner = false)
include hon

theorem cqHead_outOfRange (hi : 2 ^ q.cqLog2 ≤ index) : exec (.cqHead n index) s = .next (doorbellRange q.owner s) := by
  rw [execCqHead_eq hz hq, if_neg (by simp [hon]), if_pos hi]

theorem cqHead_ignored (he : q.error = true) (hi : index < 2 ^ q.cqLog2) : exec (.cqHead n index) s = .next (doorbellIgnored s) := by
  rw [execCqHead_eq hz hq, if_neg (by simp [hon]), if_neg (Nat.not_le.mpr hi), if_pos he]

theorem cqHead_frees (he : q.error = false) (hi : index < 2 ^ q.cqLog2) : exec (.cqHead n index) s =
    .next (settle (setCqp n { q with cqHead := index, cqUsed := q.cqUsed - (index + 2 ^ q.cqLog2 - q.cqHead) % 2 ^ q.cqLog2 } s)) := by
  rw [execCqHead_eq hz hq, if_neg (by simp [hon]), if_neg (Nat.not_le.mpr hi), if_neg (by simp [he])]

end

end Sys2Proof.Machine
end

section
/-! A descriptor on a queue pair with nothing else in hand (R256, R258, R263, R264): it is fetched, and starts or completes at once. -/

namespace Sys2Proof.Machine

open Sys2Proof

variable {s : State} {n : Nat} {q : Cqp} {d : Desc} {io : DescIo}

/-! ### Starting a descriptor (R258, R263) -/

/-- A descriptor of the queue pair `q` starts in a state in which it waits no more and the lines that it meets have failed. -/
def startAs (n seq : Nat) (q : Cqp) (d : Desc) (io : DescIo) (s : State) : State :=
  let st := descStatus s q d io ((kernelByHandle s d.handle).map (·.2.owner))
  if st ≠ csOk then postCqe n d 0 st 0 0 s
  else if stepClosed s q seq d then postCqe n d 0 csStepClosed 0 0 s
  else if d.opcode = 7 then
    match kernelByHandle s d.handle with
    | none => postCqe n d 0 csBadHandle 0 0 s
    | some (ki, k) =>
      if k.unloading then postCqe n d 0 csKernelFault 8 0 s
      else if d.count = 0 then postCqe n d 0 csOk 0 0 s
      else addJob { id := 0, kernel := ki, origin := .desc n seq, items := d.count, step := d.step,
                    args := descBytes d ++ (io.aux.getD []).take d.bags, client := queueMemory q, gen := genOf s (queueMemory q),
                    buffers := [d.indexAddr, d.dataAddr, d.auxAddr] }
        (updCqp n (fun q => { q with running := q.running ++ [{ seq := seq, desc := d, io := io }] }) s)
  else updCqp n (fun q => { q with running := q.running ++ [{ seq := seq, desc := d, io := io, todo := positions d io }] }) s

theorem startDesc_eq (n seq : Nat) (d : Desc) (io : DescIo) (s : State) : startDesc n seq d io s = startAs n seq (cqpD s n) d io
    (lineFaults io.faults (setCqp n { cqpD s n with waiting := (cqpD s n).waiting.filter (fun w => w.1 != seq) } s)) := rfl

section
variable {seq : Nat} {y : State}

theorem startAs_refused (h : descStatus y q d io ((kernelByHandle y d.handle).map (·.2.owner)) ≠ csOk) :
    startAs n seq q d io y = postCqe n d 0 (descStatus y q d io ((kernelByHandle y d.handle).map (·.2.owner))) 0 0 y := if_pos h

variable (hok : descStatus y q d io ((kernelByHandle y d.handle).map (·.2.owner)) = csOk)
include hok

theorem startAs_closed (h : stepClosed y q seq d = true) : startAs n seq q d io y = postCqe n d 0 csStepClosed 0 0 y :=
  (if_neg (not_not_intro hok)).trans (if_pos h)

variable (hopen : stepClosed y q seq d = false)
include hopen

theorem startAs_indices (h : d.opcode ≠ 7) : startAs n seq q d io y =
    updCqp n (fun q => { q with running := q.running ++ [{ seq := seq, desc := d, io := io, todo := positions d io }] }) y :=
  (if_neg (not_not_intro hok)).trans ((if_neg (by simp [hopen])).trans (if_neg h))

theorem startAs_kernel {ki : Nat} {k : Kernel} (h : d.opcode = 7) (hk : kernelByHandle y d.handle = some (ki, k)) : startAs n seq q d io y =
    if k.unloading then postCqe n d 0 csKernelFault 8 0 y
    else if d.count = 0 then postCqe n d 0 csOk 0 0 y
    else addJob { id := 0, kernel := ki, origin := .desc n seq, items := d.count, step := d.step,
                  args := descBytes d ++ (io.aux.getD []).take d.bags, client := queueMemory q, gen := genOf y (queueMemory q),
                  buffers := [d.indexAddr, d.dataAddr, d.auxAddr] }
      (updCqp n (fun q => { q with running := q.running ++ [{ seq := seq, desc := d, io := io }] }) y) := by
  refine (if_neg (not_not_intro hok)).trans ((if_neg (by simp [hopen])).trans ((if_pos h).trans ?_))
  rw [hk]

end

/-! ### A queue pair that is the only one -/

/-- The queue pair once a descriptor has been written into its ring and fetched. -/
def fetchedCqp (q : Cqp) (d : Desc) (io : DescIo) : Cqp :=
  { q with sqTail := (q.sqTail + 1) % 2 ^ q.sqLog2, sqHead := (q.sqHead + 1) % 2 ^ q.sqLog2, fetched := q.fetched + 1, cqUsed := q.cqUsed + 1,
           waiting := [(q.fetched, d, io)] }

/-- The queue pair with a descriptor visible and not yet fetched. -/
def visibleCqp (q : Cqp) (d : Desc) (io : DescIo) : Cqp := { q with sqTail := (q.sqTail + 1) % 2 ^ q.sqLog2, unread := [(d, io)] }

theorem advanceQueue_of_idle (h : cqpOf s n = some q) (hr : q.running = []) : advanceQueue n s = s := by
  simp [advanceQueue, cqpD_of_cqpOf h, hr]

theorem nextStart_alone {x : State} (hr : q.running = []) (hd : descHeld x d = false) (seq : Nat) :
    nextStart x q [(seq, d, io)] false = some (seq, d, io) := by
  obtain ⟨hk, hf⟩ := Bool.or_eq_false_iff.mp hd
  simp [nextStart, hr, hk, hf]

/-- One visible descriptor is fetched where nothing stops the queue pair. -/
theorem fetchDescs_one {u : Desc × DescIo} (h : cqpOf s n = some q) (hu : q.unread = [u])
    (hgo : (q.held || q.error || queueStopped s q || decide (cqSlots q ≤ q.cqUsed) || slotHeld s n q) = false) :
    fetchDescs n 1 s = setCqp n { q with unread := [], waiting := q.waiting ++ [(q.fetched, u)], fetched := q.fetched + 1,
                                         cqUsed := q.cqUsed + 1, sqHead := (q.sqHead + 1) % sqSlots q } s := by
  simp only [fetchDescs, h, hu]
  exact if_neg (by simp [hgo])

section
variable {x : State} (hidle : QueueIdle s n q) (hx : ∃ m, x = s.setMem m)
include hidle hx

theorem fetchDescs_visible (hs : slotHeld x n q = false) : fetchDescs n 1 (setCqp n (visibleCqp q d io) x) = setCqp n (fetchedCqp q d io) x := by
  obtain ⟨-, -, hun, hwait, -, herr, -, hheld, -, hstop, hroom, -⟩ := hidle
  obtain ⟨m, rfl⟩ := hx
  have hgo : (q.held || q.error || queueStopped s q || decide (cqSlots q ≤ q.cqUsed) || slotHeld (s.setMem m) n q) = false := by
    simp only [hheld, herr, hstop, hs, Bool.or_false, Bool.false_or]
    exact decide_eq_false (Nat.not_le.mpr hroom)
  rw [fetchDescs_one (cqpOf_setCqp_same ..) rfl hgo, setCqp_setCqp]
  simp [visibleCqp, fetchedCqp, hwait, hun, sqSlots]

/-- The queue runs: the descriptor is fetched, starts, and goes on as far as it can. -/
theorem runQueue_visible (hd : descHeld (setCqp n (fetchedCqp q d io) x) d = false) (hs : slotHeld x n q = false) :
    runQueue n (setCqp n (visibleCqp q d io) x) = advanceQueue n (startAs n q.fetched (fetchedCqp q d io) d io
      (lineFaults io.faults (setCqp n { fetchedCqp q d io with waiting := [] } x))) := by
  have hfetch := fetchDescs_visible (d := d) (io := io) hidle hx hs
  obtain ⟨-, -, -, -, hrun, -, -, hheld, -, hstop, -, hfl, -⟩ := hidle
  obtain ⟨m, rfl⟩ := hx
  have hr : (fetchedCqp q d io).running = [] := hrun
  have hgo : ¬ ((fetchedCqp q d io).held = true ∨ (fetchedCqp q d io).inflight ≤ (fetchedCqp q d io).running.length ∨
      queueStopped (setCqp n (fetchedCqp q d io) (s.setMem m)) (fetchedCqp q d io) = true) := by
    have hh : (fetchedCqp q d io).held = false := hheld
    have hi : 1 ≤ (fetchedCqp q d io).inflight := hfl
    have hq : queueStopped (setCqp n (fetchedCqp q d io) (s.setMem m)) (fetchedCqp q d io) = false := hstop
    simp only [hh, hr, hq, List.length_nil, Bool.false_eq_true, false_or, or_false]
    omega
  have hlen : (cqpD (setCqp n (visibleCqp q d io) (s.setMem m)) n).unread.length = 1 := by rw [cqpD_setCqp_same]; rfl
  have hw : (fetchedCqp q d io).waiting = [(q.fetched, d, io)] := rfl
  have hstart : startDescs n 1 (setCqp n (fetchedCqp q d io) (s.setMem m)) =
      advanceQueue n (startDesc n q.fetched d io (setCqp n (fetchedCqp q d io) (s.setMem m))) := by
    simp only [startDescs, cqpOf_setCqp_same, if_neg hgo, hw, nextStart_alone hr hd]
  have hgone : (fetchedCqp q d io).waiting.filter (fun w => w.1 != q.fetched) = [] := by simp [hw]
  simp only [runQueue]
  rw [hlen, hfetch, advanceQueue_of_idle (cqpOf_setCqp_same ..) hr, cqpD_setCqp_same, hw, List.length_singleton, hstart, startDesc_eq,
    cqpD_setCqp_same, setCqp_setCqp, hgone]

end

/-- Where one queue pair alone has one descriptor in hand, the part settles by its queue's run first. -/
theorem settle_single {x : State} (hq : x.tab.cqps = [(n, q)]) (hr : x.ports.ringless = [])
    (hone : q.unread.length + q.waiting.length + q.running.length = 1) :
    settle x = settleN (1 + x.tab.fwd.length) (restOfRound (runQueue n x)) := by
  have hfuel : settleFuel x = (1 + x.tab.fwd.length) + 1 := by
    simp only [settleFuel, hq, List.map_cons, List.map_nil, List.sum_cons, List.sum_nil, hone]
    omega
  have honce : settleOnce x = restOfRound (runQueue n x) := by
    simp only [settleOnce, hq, List.foldl_cons, List.foldl_nil]
    rfl
  rw [settle, retryRings, hr, List.foldl_nil, hfuel, settleN, honce]

/-- On an idle queue pair what has been written into the ring is what is visible. -/
theorem enqueued_idle (hidle : QueueIdle s n q) (d : Desc) (io : DescIo) :
    enqueued n q d io s = setCqp n (visibleCqp q d io) (descPut n q d s) := by
  obtain ⟨-, hcqps, hun, -, -, -, -, -, had, -⟩ := hidle
  have hq : cqpOf s n = some q := by rw [cqpOf, hcqps]; simp [look]
  obtain ⟨m, hput⟩ := descPut_eq_setMem n q d s
  have hd : cqpD (descPut n q d s) n = q := by rw [hput, cqpD_congr (State.setMem_tab s m), cqpD_of_cqpOf hq]
  have hrel : releaseHeld n (descPut n q d s) = descPut n q d s := by
    simp only [releaseHeld, hd, had, Bool.false_eq_true, if_false]
  simp only [enqueued, hrel, hd, hun, List.nil_append]
  rfl

/-- R256, R263: a descriptor on an idle queue pair is fetched and starts; then everything else goes on. -/
theorem submit_idle (hidle : QueueIdle s n q) (op : Nat)
    (hd : descHeld (setCqp n (fetchedCqp q { d with opcode := op } io) (descPut n q { d with opcode := op } s)) { d with opcode := op } = false)
    (hs : slotHeld (descPut n q { d with opcode := op } s) n q = false) :
    submit n op d io s = settleN (1 + s.tab.fwd.length) (restOfRound (advanceQueue n
      (startAs n q.fetched (fetchedCqp q { d with opcode := op } io) { d with opcode := op } io
        (lineFaults io.faults (setCqp n { fetchedCqp q { d with opcode := op } io with waiting := [] } (descPut n q { d with opcode := op } s)))))) := by
  have hput := descPut_eq_setMem n q { d with opcode := op } s
  have hrunq := runQueue_visible (io := io) hidle hput hd hs
  have henq := enqueued_idle hidle { d with opcode := op } io
  obtain ⟨-, hcqps, -, hwait, hrun, herr, hclose, -, -, -, -, -, htail, hlog, hoff, hringless⟩ := hidle
  have hq : cqpOf s n = some q := by rw [cqpOf, hcqps]; simp [look]
  obtain ⟨m, hput⟩ := hput
  have hx : (setCqp n (visibleCqp q { d with opcode := op } io) (descPut n q { d with opcode := op } s)).tab.cqps =
      [(n, visibleCqp q { d with opcode := op } io)] := by
    rw [hput, setCqp, State.setTab_tab, State.setMem_tab, hcqps]
    exact if_pos rfl
  have hone : (visibleCqp q { d with opcode := op } io).unread.length + (visibleCqp q { d with opcode := op } io).waiting.length +
      (visibleCqp q { d with opcode := op } io).running.length = 1 := by
    simp [visibleCqp, hwait, hrun]
  rw [submit_on hq hoff herr hclose htail hlog, henq, settle_single hx (by rw [hput]; exact hringless) hone, hrunq, hput]
  rfl

end Sys2Proof.Machine
end

section
/-! A descriptor whose indices are served one after another, and its completion (R263 to R269). -/

namespace Sys2Proof.Machine

open Sys2Proof

variable {s z : State} {n : Nat} {q : Cqp} {p p' : InProg}

/-! ### Indices served in turn -/

/-- A descriptor in progress once a position has been served. -/
def gotPosition (k st f : Nat) (bs : Bytes) (p : InProg) : InProg :=
  { p with todo := p.todo.filter (· != k), sent := p.sent.filter (· != k), sentTo := del p.sentTo k, got := p.got ++ [(k, st, f, bs)],
           flags := p.flags ||| f }

theorem gotIndex_running {k st f : Nat} {bs : Bytes} (hr : (cqpD s n).running = [p]) (hn : has s.tab.cqps n = true) :
    (cqpD (gotIndex n p.seq k st f bs s) n).running = [gotPosition k st f bs p] := by
  rw [gotIndex, updProg, cqpD_updCqp_same hn, hr]
  exact if_pos (beq_self_eq_true p.seq)

/-- A position that nothing holds up is served at once. -/
theorem servePosition_done {k ti st f : Nat} {t : Tbl} {s1 : State} {bs : Bytes} (hr : (cqpD s n).running = [p])
    (ht : tblServed s p.desc.handle = some (ti, t)) (hstat : t.status ≠ 1) (hb : rowBusy (cqpD s n) p k = false)
    (hown : indexOwner s t (indexAt p.desc p.io k) = some (tableDevice s t)) (hserve : serveIndex ti (rowOpAt t p.desc p.io k) s = .done s1 st f bs) :
    servePosition n p.seq k s = gotIndex n p.seq k st f bs s1 := by
  have hfind : (cqpD s n).running.find? (fun x => x.seq == p.seq) = some p := by rw [hr]; exact List.find?_cons_of_pos (beq_self_eq_true _)
  have howner : indexOwner s t (rowOpAt t p.desc p.io k).index = some (tableDevice s t) := hown
  simp only [servePosition, hfind, ht, if_neg hstat, hb, Bool.false_eq_true, if_false, if_pos howner, hserve]

/-- A run of positions served in turn: the queue serves them and nothing else, and none of them is left. -/
theorem serveAll_of_servedInTurn {l : List Nat} (h : ServedInTurn n p l s p' z) (hr : (cqpD s n).running = [p]) (hs : p.sent = []) :
    l.foldl (fun s k => servePosition n p.seq k s) s = z ∧ (cqpD z n).running = [p'] ∧ p'.desc = p.desc ∧ p'.sent = [] ∧
      ∀ k ∈ p'.todo, k ∈ p.todo ∧ k ∉ l := by
  induction l generalizing p s with
  | nil =>
    obtain ⟨rfl, rfl⟩ := h
    exact ⟨rfl, hr, rfl, hs, fun k hk => ⟨hk, List.not_mem_nil⟩⟩
  | cons k r ih =>
    obtain ⟨-, ti, t, s1, st, f, bs, ht, hstat, hb, hown, hserve, hr1, hn1, hrest⟩ := h
    obtain ⟨hfold, hrun, hdesc, hsent, htodo⟩ := ih (p := gotPosition k st f bs p) hrest (gotIndex_running hr1 hn1) (by simp [gotPosition, hs])
    refine ⟨?_, hrun, hdesc, hsent, fun j hj => ?_⟩
    · rw [List.foldl_cons, servePosition_done hr ht hstat hb hown hserve]
      exact hfold
    · obtain ⟨hmem, hnot⟩ := htodo j hj
      obtain ⟨hin, hne⟩ := List.mem_filter.mp hmem
      exact ⟨hin, fun hc => (List.mem_cons.mp hc).elim (fun e => by simp [e] at hne) hnot⟩

/-- R263: a descriptor all of whose indices are served completes. -/
theorem advanceQueue_of_servedInTurn (hq : cqpOf s n = some q) (hr : q.running = [p]) (hop : p.desc.opcode ≠ 7) (hs : p.sent = [])
    (h : ServedInTurn n p p.todo s p' z) : advanceQueue n s = completeDesc n p' z := by
  have hrun : (cqpD s n).running = [p] := by rw [cqpD_of_cqpOf hq, hr]
  obtain ⟨hfold, hleft, hdesc, hsent, htodo⟩ := serveAll_of_servedInTurn h hrun hs
  have hdone : p'.todo = [] := List.eq_nil_iff_forall_not_mem.mpr fun k hk => (htodo k hk).2 (htodo k hk).1
  have hready : [p'].filter (fun p => p.desc.opcode != 7 && p.todo.isEmpty && p.sent.isEmpty) = [p'] := by simp [hdesc, hop, hdone, hsent]
  simp only [advanceQueue]
  rw [hrun, List.foldl_cons, List.foldl_nil, hfold, hleft, hready]
  rfl

/-! ### The completion (R264 to R269) -/

/-- Nothing is sent of an output of no bytes. -/
theorem dmaOut_unless_empty (fid addr : Nat) (bs : Bytes) (s : State) : (if bs.isEmpty then s else dmaOut fid addr bs s) = dmaOut fid addr bs s := by
  cases bs <;> rfl

/-- The descriptor is no longer in progress. -/
def descEnded (n : Nat) (q : Cqp) (p : InProg) (x : State) : State := setCqp n { q with running := q.running.filter (fun o => o.seq != p.seq) } x

/-- The flags of a completion. -/
def doneFlags (p : InProg) : Nat := p.flags ||| (if lrClamped p.desc then cfClamped else 0)

section
variable (hall : ∀ k < p.desc.count, statusAt p k = csOk)
include hall

theorem no_bad_position : (List.range p.desc.count).filter (fun k => statusAt p k != 0) = [] := by
  refine List.filter_eq_nil_iff.mpr fun k hk => ?_
  rw [hall k (List.mem_range.mp hk)]
  exact Bool.false_ne_true

variable (hq : cqpOf s n = some q)
include hq

/-- A descriptor that gives its client no data. -/
theorem completeDesc_silent (hop : p.desc.opcode = 3 ∨ p.desc.opcode = 5 ∨ p.desc.opcode = 6) :
    completeDesc n p s = postCqe n p.desc (descCount (descEnded n q p s) p) csOk 0 (doneFlags p) (descEnded n q p s) := by
  simp only [completeDesc, if_pos hop, List.isEmpty_nil, if_true, no_bad_position hall, List.head?_nil, updCqp_of_cqpOf hq]
  rfl

/-- A descriptor whose output goes to its client's memory before its completion. -/
theorem completeDesc_output {ti : Nat} {t : Tbl} (hheld : q.held = false) (ht : tblServed s p.desc.handle = some (ti, t))
    (hop : ¬ (p.desc.opcode = 3 ∨ p.desc.opcode = 5 ∨ p.desc.opcode = 6)) :
    completeDesc n p s = postCqe n p.desc (descCount (descEnded n q p (dmaOut (queueMemory q) p.desc.dataAddr (descOutput t p) s)) p) csOk 0 (doneFlags p)
      (descEnded n q p (dmaOut (queueMemory q) p.desc.dataAddr (descOutput t p) s)) := by
  have hq' : cqpOf (dmaOut (queueMemory q) p.desc.dataAddr (descOutput t p) s) n = some q := by rw [cqpOf_congr (dmaOut_tab ..), hq]
  simp only [completeDesc, if_neg hop, ht, cqpD_of_cqpOf hq, hheld, Bool.false_eq_true, if_false, dmaOut_unless_empty, no_bad_position hall,
    List.head?_nil, updCqp_of_cqpOf hq', descEnded, doneFlags]


end

end Sys2Proof.Machine
end

section
/-! Descriptors and doorbells of a custody queue pair: O30. -/

namespace Sys2Proof.Machine

open Sys2Proof

variable {s : State} {n : Nat} {q : Cqp} {d : Desc} {io : DescIo}

/-! ### What a completion tells -/

theorem descCount_pooled {p : InProg} (h : p.desc.opcode = 2) (s : State) : descCount s p = p.desc.bags := by
  unfold descCount
  split
  · rfl
  · omega
  · contradiction

theorem descCount_each {p : InProg} (h2 : p.desc.opcode ≠ 2) (h6 : p.desc.opcode ≠ 6) (s : State) : descCount s p = p.desc.count := by
  unfold descCount
  split
  · contradiction
  · contradiction
  · rfl

/-! ### A descriptor on an idle queue pair -/

/-- The lines that a descriptor meets have failed, and it is the queue pair's only descriptor, no longer waiting. -/
def metLines (s : State) (n : Nat) (q : Cqp) (d : Desc) (io : DescIo) : State :=
  lineFaults io.faults (setCqp n { fetchedCqp q d io with waiting := [] } (descPut n q d s))

/-- The descriptor starts and is in progress, with the positions `todo` to serve. -/
def inProgress (s : State) (n : Nat) (q : Cqp) (d : Desc) (io : DescIo) (todo : List Nat) : State :=
  updCqp n (fun c => { c with running := c.running ++ [{ seq := q.fetched, desc := d, io := io, todo := todo }] }) (metLines s n q d io)

/-- The result of a run in which a queue pair's only descriptor left the state `z`: everything goes on from there. -/
def RanFrom (s : State) (n : Nat) (r : Ran) (z : State) : Prop := r = .next (settleN (1 + s.tab.fwd.length) (restOfRound (advanceQueue n z)))

/-- R258, R263: how the only descriptor of an idle queue pair starts. -/
def StartsAlone (s : State) (n : Nat) (q : Cqp) (d : Desc) (io : DescIo) (r : Ran) : Prop :=
  let y := metLines s n q d io
  let kernel := kernelByHandle y d.handle
  let status := descStatus y (fetchedCqp q d io) d io (kernel.map (·.2.owner))
  let done := RanFrom s n r
  (status ≠ csOk → done (postCqe n d 0 status 0 0 y)) ∧
  (status = csOk → stepClosed y (fetchedCqp q d io) q.fetched d = true → done (postCqe n d 0 csStepClosed 0 0 y)) ∧
  (status = csOk → stepClosed y (fetchedCqp q d io) q.fetched d = false → d.opcode ≠ 7 → done (inProgress s n q d io (positions d io))) ∧
  (∀ ki k, status = csOk → stepClosed y (fetchedCqp q d io) q.fetched d = false → d.opcode = 7 → kernel = some (ki, k) →
    (k.unloading = true → done (postCqe n d 0 csKernelFault 8 0 y)) ∧
    (k.unloading = false → d.count = 0 → done (postCqe n d 0 csOk 0 0 y)) ∧
    (k.unloading = false → d.count ≠ 0 → ∃ j : Job,
      done (addJob j (inProgress s n q d io [])) ∧
      j.kernel = ki ∧ j.origin = .desc n q.fetched ∧ j.items = d.count ∧ j.step = d.step ∧
      j.args = descBytes d ++ (io.aux.getD []).take d.bags ∧ j.client = queueMemory (fetchedCqp q d io) ∧
      j.gen = genOf y (queueMemory (fetchedCqp q d io)) ∧ j.buffers = [d.indexAddr, d.dataAddr, d.auxAddr]))

theorem startsAlone_of_ran {r : Ran} (h : RanFrom s n r (startAs n q.fetched (fetchedCqp q d io) d io (metLines s n q d io))) :
    StartsAlone s n q d io r := by
  refine ⟨fun hbad => ?_, fun hok hclosed => ?_, fun hok hopen hop => ?_, fun ki k hok hopen hop hk => ?_⟩
  · rwa [startAs_refused hbad] at h
  · rwa [startAs_closed hok hclosed] at h
  · rwa [startAs_indices hok hopen hop] at h
  · rw [startAs_kernel hok hopen hop hk] at h
    refine ⟨fun hu => ?_, fun hu hc => ?_, fun hu hc => ?_⟩
    · rwa [if_pos hu] at h
    · rwa [if_neg (by simp [hu]), if_pos hc] at h
    · rw [if_neg (by simp [hu]), if_neg hc] at h
      exact ⟨_, h, rfl, rfl, rfl, rfl, rfl, rfl, rfl, rfl⟩

theorem descRow_startsAlone (hidle : QueueIdle s n q) {op : Nat} (hop : 1 ≤ op ∧ op ≤ 7)
    (hd : descHeld (setCqp n (fetchedCqp q { d with opcode := op } io) (descPut n q { d with opcode := op } s)) { d with opcode := op } = false)
    (hs : slotHeld (descPut n q { d with opcode := op } s) n q = false) :
    StartsAlone s n q { d with opcode := op } io (exec (descRow n d io op) s) := by
  refine startsAlone_of_ran ?_
  rw [RanFrom, exec_descRow hop hidle.1, submit_idle hidle op hd hs]
  rfl

/-! ### The obligation -/

/-- Settles O30: a descriptor's row writes it into its ring and everything goes on; on an idle queue pair the part settles by that queue pair's run
first, which fetches the descriptor and starts it. -/
theorem descriptorsEnterTheirQueuePair : Obligations.DescriptorsEnterTheirQueuePair := by
  refine ⟨fun s n q d io hz hq he hc => ⟨fun hoff => ?_, fun hon ht hl => ?_⟩, fun s n q d io hidle => ?_,
    fun z z' n q p p' hq hr hop hs h => advanceQueue_of_servedInTurn hq hr hop hs h, fun z n ti q t p hq hheld hall ht => ?_,
    fun s n index who q slots hz hq => ?_, fun s n k q b io => rfl, fun s n index q hz hq => ?_⟩
  · have hrow : ∀ op, 1 ≤ op ∧ op ≤ 7 → exec (descRow n d io op) s = .next s :=
      fun op hop => by rw [exec_descRow hop hz, submit_off hq hoff]
    exact ⟨hrow 1 (by decide), hrow 2 (by decide), hrow 3 (by decide), hrow 4 (by decide), hrow 5 (by decide), hrow 6 (by decide), hrow 7 (by decide)⟩
  · have hrow : ∀ op, 1 ≤ op ∧ op ≤ 7 → exec (descRow n d io op) s = .next (settle (enqueued n q { d with opcode := op } io s)) :=
      fun op hop => by rw [exec_descRow hop hz, submit_on hq hon he hc ht hl]
    exact ⟨hrow 1 (by decide), hrow 2 (by decide), hrow 3 (by decide), hrow 4 (by decide), hrow 5 (by decide), hrow 6 (by decide), hrow 7 (by decide)⟩
  · have hrow := fun op hop => descRow_startsAlone (op := op) (d := d) (io := io) hidle hop
    exact ⟨hrow 1 (by decide), hrow 2 (by decide), hrow 3 (by decide), hrow 4 (by decide), hrow 5 (by decide), hrow 6 (by decide), hrow 7 (by decide)⟩
  · refine ⟨fun hop => ?_, fun hop => completeDesc_silent hall hq (.inr (.inr hop)), fun hop => ?_, fun hop => ?_⟩
    · rw [completeDesc_silent hall hq (by omega), descCount_each (by omega) (by omega)]; rfl
    · rw [completeDesc_output hall hq hheld ht (by omega), descCount_each (by omega) (by omega)]; rfl
    · rw [completeDesc_output hall hq hheld ht (by omega), descCount_pooled hop]; rfl
  · refine ⟨sqTail_off hz hq, fun hm => ⟨_, sqTail_stranger hz hq hm, rfl, rfl, cell_countUnmapped_count ..⟩,
      fun hm hon hi => sqTail_outOfRange hz hq hm hon hi, fun hm hon hi he => sqTail_ignored hz hq hm hon hi he, fun hm hon he hc hi => ?_⟩
    rw [sqTail_taken hz hq hm hon hi he hc, releaseHeld_of_cqpOf hq]
    rfl
  · exact ⟨cqHead_off hz hq, fun hon hi => cqHead_outOfRange hz hq hon hi, fun hon he hi => cqHead_ignored hz hq hon he hi,
      fun hon he hi => cqHead_frees hz hq hon he hi⟩

end Sys2Proof.Machine
end

section
/-! Doorbells and registers of an ICP ring (R58 to R62, R66). -/

namespace Sys2Proof.Machine

open Sys2Proof

variable {s : State} {k index : Nat}

/-! ### A ring that is there -/

theorem cmdTail_absent (h : ringThere s k = false) (slots : Option (List IcpSlot)) : exec (.cmdTail k index slots) s = .next s :=
  congrArg Host.Outcome.next (if_pos (by simp [h]))

theorem rplHead_absent (h : ringThere s k = false) : exec (.rplHead k index) s = .next s := congrArg Host.Outcome.next (if_pos (by simp [h]))

theorem icpRingEnable_absent (h : ringThere s k = false) : exec (.icpRingEnable k) s = .next s :=
  congrArg Host.Outcome.next (if_pos (by simp [h]))

theorem icpRingDisable_absent (h : ringThere s k = false) : exec (.icpRingDisable k) s = .next s :=
  congrArg Host.Outcome.next (if_pos (by simp [h]))

section
variable (h : ringThere s k = true)
include h

theorem cmdTail_outOfRange (hi : 2 ^ (ringOf s k).cmdLog2 ≤ index) (slots : Option (List IcpSlot)) :
    exec (.cmdTail k index slots) s = .next (badIcpDoorbell k s) :=
  congrArg Host.Outcome.next ((if_neg (by simp [h])).trans (if_pos hi))

theorem cmdTail_visible (hi : index < 2 ^ (ringOf s k).cmdLog2) (l : List IcpSlot) : exec (.cmdTail k index (some l)) s =
    .next (icpWake (setRing k { ringOf s k with cmdTail := index, unread := slotsTo s k index l } s)) :=
  congrArg Host.Outcome.next ((if_neg (by simp [h])).trans (if_neg (Nat.not_le.mpr hi)))

theorem cmdTail_unreadable (hi : index < 2 ^ (ringOf s k).cmdLog2) : exec (.cmdTail k index none) s =
    .next (setRing k { ringOf s k with cmdTail := index, unread := [], ringErr := (ringOf s k).ringErr || (ringOf s k).enable } s) :=
  congrArg Host.Outcome.next ((if_neg (by simp [h])).trans (if_neg (Nat.not_le.mpr hi)))

theorem rplHead_outOfRange (hi : 2 ^ (ringOf s k).rplLog2 ≤ index) : exec (.rplHead k index) s = .next (badIcpDoorbell k s) :=
  congrArg Host.Outcome.next ((if_neg (by simp [h])).trans (if_pos hi))

theorem rplHead_frees (hi : index < 2 ^ (ringOf s k).rplLog2) : exec (.rplHead k index) s = .next (icpWake (setRing k { ringOf s k with
    rplHead := index,
    rplUsed := (ringOf s k).rplUsed - (index + 2 ^ (ringOf s k).rplLog2 - (ringOf s k).rplHead) % 2 ^ (ringOf s k).rplLog2 } s)) :=
  congrArg Host.Outcome.next ((if_neg (by simp [h])).trans (if_neg (Nat.not_le.mpr hi)))

variable (hk : isAccel k = false)
include hk

theorem icpRingEnable_there : exec (.icpRingEnable k) s = .next (icpWake (ringEnable k true s)) :=
  congrArg Host.Outcome.next (if_neg (by simp [h, hk]))

theorem icpRingDisable_there : exec (.icpRingDisable k) s = .next (icpWake (ringEnable k false s)) :=
  congrArg Host.Outcome.next (if_neg (by simp [h, hk]))

end

/-- ENABLE cleared on an enabled ring drains it. -/
theorem ringEnable_off (he : (ringOf s k).enable = true) : ringEnable k false s = setRing k { ringOf s k with enable := false, draining := true } s :=
  if_pos he

theorem ringEnable_stays_off (he : (ringOf s k).enable = false) : ringEnable k false s = s := if_neg (by simp [he])

/-! ### A doorbell value out of range (R60) -/

theorem ringOf_badIcpDoorbell (k : Nat) (s : State) : ringOf (badIcpDoorbell k s) k = { ringOf s k with dbErr := true } :=
  (ringOf_setRing k { ringOf s k with dbErr := true } s k).trans (if_pos rfl)

theorem badIcpDoorbell_dbInvalid (k : Nat) (s : State) : (badIcpDoorbell k s).icp.dbInvalid = (s.icp.dbInvalid + 1) % 2 ^ 32 := rfl

/-! ### What a ring's slots hold (R58, R66) -/

/-- The slot in which a ring's command is: an endpoint's is read from the queue region. -/
def slotOf (s : State) (k : Nat) (l : List IcpSlot) (i : Nat) : IcpSlot :=
  let x := l.getD i { bytes := List.replicate 4096 0 }
  if isAccel k then { x with bytes := accelSlot s k (((ringOf s k).cmdHead + i) % 2 ^ (ringOf s k).cmdLog2) } else x

theorem slotsTo_eq (s : State) (k index : Nat) (l : List IcpSlot) : slotsTo s k index l =
    (List.range ((index + 2 ^ (ringOf s k).cmdLog2 - (ringOf s k).cmdHead) % 2 ^ (ringOf s k).cmdLog2)).map (fun i => icpPkt false (slotOf s k l i)) := rfl

theorem slotsTo_length (s : State) (k index : Nat) (l : List IcpSlot) : (slotsTo s k index l).length =
    (index + 2 ^ (ringOf s k).cmdLog2 - (ringOf s k).cmdHead) % 2 ^ (ringOf s k).cmdLog2 := by
  rw [slotsTo_eq, List.length_map, List.length_range]

theorem slotsTo_getElem? {l : List IcpSlot} {i : Nat} (hi : i < (slotsTo s k index l).length) :
    (slotsTo s k index l)[i]? = some (icpPkt false (slotOf s k l i)) := by
  rw [slotsTo_length] at hi
  rw [slotsTo_eq, List.getElem?_map, List.getElem?_range hi, Option.map_some]

theorem slotOf_accel (hk : isAccel k = true) (l : List IcpSlot) (i : Nat) :
    (slotOf s k l i).bytes = accelSlot s k (((ringOf s k).cmdHead + i) % 2 ^ (ringOf s k).cmdLog2) := by
  simp only [slotOf, hk, if_true]

theorem slotOf_given {l : List IcpSlot} {i : Nat} (hk : isAccel k = false) (hi : i < l.length) : l[i]? = some (slotOf s k l i) := by
  simp only [slotOf, hk, Bool.false_eq_true, if_false, List.getD_eq_getElem?_getD, List.getElem?_eq_getElem hi, Option.getD_some]

end Sys2Proof.Machine
end

section
/-! Datagrams of the management port and messages of MCTP (R63 to R65, R72, R86). -/

namespace Sys2Proof.Machine

open Sys2Proof

variable {s x : State} {via : Via} {pkt : IcpPkt} {n : Nat} {f : MgmtFrag}

/-! ### A command of a transport that is no ring -/

/-- Whatever has changed, what can go on goes on. -/
theorem onward_icpWake (x : State) : Onward (.next (icpWake x)) x := ⟨_, rfl⟩

/-- Only a ring holds a second reply slot for a deferral. -/
theorem releaseSpare_ringless (hr : ringKey via = none) (pkt : IcpPkt) (before s : State) : releaseSpare via pkt before s = s := by
  simp only [releaseSpare, hr]

theorem taken_ringless (hr : ringKey via = none) (pkt : IcpPkt) (s : State) : taken pkt.opcode via pkt s = pkt := by
  simp only [taken, hr]

section
variable (hr : ringKey via = none)
include hr

theorem icpArrive_unserved (h : transportServed s via = false) : icpArrive via pkt s = s := by
  simp only [icpArrive, hr, h, Bool.not_false, if_true]

theorem icpArrive_open (h : transportServed s via = true) (hp : s.icp.paused = false) : icpArrive via pkt s = acceptPkt via pkt s := by
  simp only [icpArrive, hr, h, hp, Bool.not_true, Bool.false_eq_true, if_false]

theorem startPkt_rejected {st d : Nat} (h : icpCheck pkt.opcode via pkt x = some (st, d)) : startPkt via pkt x = sendReply pkt.opcode via pkt st d [] x := by
  rw [startPkt, releaseSpare_ringless hr, icpStart, h]

section
variable (hc : icpCheck pkt.opcode via pkt x = none) (hfw : pkt.fwFault = false) (hfl : flagBit pkt.flags 1 = false)
include hc hfw hfl

/-- A command that passes its checks is answered as its handler answers it. -/
theorem startPkt_replied {y : State} {st d : Nat} {data : Bytes}
    (hh : handlerOf pkt.opcode { via := via, pkt := pkt, iss := issuerOf x via, sess := sessionOf x via } x = .reply y st d data) :
    startPkt via pkt x = sendReply pkt.opcode via pkt st d data y := by
  rw [startPkt, releaseSpare_ringless hr]
  unfold icpStart
  simp only [hc]
  rw [if_neg (by simp [hfw]), hh]
  exact if_neg (by simp [hfl])

/-- A command that passes its checks and whose reply is still to come leaves the part as its handler leaves it. -/
theorem startPkt_waiting {y : State} {d : Nat} {data : Bytes}
    (hh : handlerOf pkt.opcode { via := via, pkt := pkt, iss := issuerOf x via, sess := sessionOf x via } x = .later y d data) :
    startPkt via pkt x = y := by
  rw [startPkt, releaseSpare_ringless hr]
  unfold icpStart
  simp only [hc]
  rw [if_neg (by simp [hfw]), hh]
  exact if_neg (by simp [hfl])

end

end

theorem icpArrive_paused (h : transportServed s (.mgmt n) = true) (hp : s.icp.paused = true) : icpArrive (.mgmt n) pkt s =
    s.setIcp { s.icp with datagramDrops := s.icp.datagramDrops + 1 } := by
  simp only [icpArrive, ringKey, h, hp, Bool.not_true, Bool.false_eq_true, if_false, if_true]

theorem acceptPkt_kept {r : IcpReply} (h : keptReply s via pkt.tag = some r) : acceptPkt via pkt s = sendPacket via r (touchSession via s) := by
  simp only [acceptPkt, h]

theorem acceptPkt_held (hk : keptReply s via pkt.tag = none) (hm : mustHold (touchSession via s) via pkt = true) : acceptPkt via pkt s =
    (touchSession via s).setIcp { (touchSession via s).icp with behind := (touchSession via s).icp.behind ++ [(via, pkt)] } := by
  simp only [acceptPkt, hk, hm, if_true]

/-! ### Fragments of a datagram (R63) -/

theorem payload_of_total_none {p : FragSet} (h : p.total = none) : p.payload = none := by rw [FragSet.payload, h]

/-- A payload is there once its parts reach its length. -/
theorem payload_of_total {p : FragSet} {m : Nat} (h : p.total = some m) : p.payload =
    if m ≤ (joinParts (sortBy (fun a b => decide (a.1 ≤ b.1)) p.parts) []).length
    then some ((joinParts (sortBy (fun a b => decide (a.1 ≤ b.1)) p.parts) []).take m) else none := by
  rw [FragSet.payload, h]

/-- A part that starts where the others end follows them. -/
theorem joinParts_next (acc bs : Bytes) (r : List (Nat × Bytes)) : joinParts ((acc.length, bs) :: r) acc = joinParts r (acc ++ bs) := by
  rw [joinParts, if_neg (Nat.lt_irrefl _), Nat.sub_self, List.drop_zero]

/-- A datagram in one fragment is its payload. -/
theorem payload_whole (ho : f.offset = 0) (hm : f.more = false) : (FragSet.add {} f).payload = some f.slot.bytes := by
  have htotal : (FragSet.add {} f).total = some f.slot.bytes.length := by simp [FragSet.add, hm, ho]
  have hjoin : joinParts (sortBy (fun a b => decide (a.1 ≤ b.1)) (FragSet.add {} f).parts) [] = f.slot.bytes := by
    simp only [FragSet.add, ho, List.nil_append, sortBy, insertBy]
    exact joinParts_next [] f.slot.bytes []
  rw [payload_of_total htotal, hjoin, if_pos (Nat.le_refl _), List.take_length]

section
variable {g : MgmtFrag} (hgo : g.offset = f.slot.bytes.length)
include hgo

/-- In either order the parts stand by their offsets. -/
theorem sorted_two_fragments (hfo : f.offset = 0) (ha : f.slot.bytes ≠ []) :
    sortBy (fun a b => decide (a.1 ≤ b.1)) ((FragSet.add {} f).add g).parts = [(0, f.slot.bytes), (f.slot.bytes.length, g.slot.bytes)] ∧
    sortBy (fun a b => decide (a.1 ≤ b.1)) ((FragSet.add {} g).add f).parts = [(0, f.slot.bytes), (f.slot.bytes.length, g.slot.bytes)] := by
  simp [FragSet.add, hfo, hgo, sortBy, insertBy, ha]

variable (hgm : g.more = false)
include hgm

theorem total_two_fragments (hfm : f.more = true) : ((FragSet.add {} f).add g).total = some (f.slot.bytes ++ g.slot.bytes).length ∧
    ((FragSet.add {} g).add f).total = some (f.slot.bytes ++ g.slot.bytes).length := by
  simp [FragSet.add, hfm, hgo, hgm]

/-- The last fragment alone is no datagram. -/
theorem payload_last_alone (ha : f.slot.bytes ≠ []) : (FragSet.add {} g).payload = none := by
  have htotal : (FragSet.add {} g).total = some (f.slot.bytes.length + g.slot.bytes.length) := by simp [FragSet.add, hgm, hgo]
  have hpos : 0 < f.slot.bytes.length := List.length_pos_iff.mpr ha
  have hjoin : joinParts (sortBy (fun a b => decide (a.1 ≤ b.1)) (FragSet.add {} g).parts) [] = [] := by
    simp only [FragSet.add, hgo, List.nil_append, sortBy, insertBy]
    exact if_pos hpos
  rw [payload_of_total htotal, hjoin]
  exact if_neg (by simp only [List.length_nil]; omega)

/-- Fragments in either order give the whole payload. -/
theorem payload_two_fragments (hfo : f.offset = 0) (hfm : f.more = true) (ha : f.slot.bytes ≠ []) :
    ((FragSet.add {} f).add g).payload = some (f.slot.bytes ++ g.slot.bytes) ∧
    ((FragSet.add {} g).add f).payload = some (f.slot.bytes ++ g.slot.bytes) := by
  obtain ⟨htotal, htotal'⟩ := total_two_fragments hgo hgm hfm
  obtain ⟨hsort, hsort'⟩ := sorted_two_fragments hgo hfo ha
  have hjoin : joinParts [(0, f.slot.bytes), (f.slot.bytes.length, g.slot.bytes)] [] = f.slot.bytes ++ g.slot.bytes :=
    (joinParts_next [] f.slot.bytes _).trans (joinParts_next f.slot.bytes g.slot.bytes [])
  rw [payload_of_total htotal, payload_of_total htotal', hsort, hsort', hjoin, if_pos (Nat.le_refl _), List.take_length]
  exact ⟨rfl, rfl⟩

end

/-! ### A fragment arrives (R63, R86) -/

theorem fragArrive_ignored (h : f.port ≠ 7141 ∨ transportServed s (.mgmt n) = false) : fragArrive n f s = s :=
  if_pos (h.imp_right fun hs => by simp [hs])

section
variable (hport : f.port = 7141) (hs : transportServed s (.mgmt n) = true)
include hport hs

theorem fragArrive_served : fragArrive n f s =
    if s.icp.paused then
      (if f.offset = 0 then s.setIcp { s.icp with datagramDrops := s.icp.datagramDrops + 1 } else s)
    else match ((lookD s.icp.frags (n, f.v6, f.ident) {}).add f).payload with
      | some bs =>
        if 4096 < bs.length then s.setIcp { s.icp with frags := del s.icp.frags (n, f.v6, f.ident) }
        else acceptPkt (.mgmt n) (icpPkt true { f.slot with bytes := bs }) (s.setIcp { s.icp with frags := del s.icp.frags (n, f.v6, f.ident) })
      | none => s.setIcp { s.icp with frags := put s.icp.frags (n, f.v6, f.ident) ((lookD s.icp.frags (n, f.v6, f.ident) {}).add f) } := by
  refine (if_neg ?_).trans rfl
  simp [hport, hs]

theorem fragArrive_paused (hp : s.icp.paused = true) : fragArrive n f s =
    if f.offset = 0 then s.setIcp { s.icp with datagramDrops := s.icp.datagramDrops + 1 } else s := by
  rw [fragArrive_served hport hs, if_pos hp]

variable (hp : s.icp.paused = false)
include hp

theorem fragArrive_incomplete (h : ((lookD s.icp.frags (n, f.v6, f.ident) {}).add f).payload = none) : fragArrive n f s =
    s.setIcp { s.icp with frags := put s.icp.frags (n, f.v6, f.ident) ((lookD s.icp.frags (n, f.v6, f.ident) {}).add f) } := by
  rw [fragArrive_served hport hs, if_neg (by simp [hp]), h]

theorem fragArrive_complete {bs : Bytes} (h : ((lookD s.icp.frags (n, f.v6, f.ident) {}).add f).payload = some bs) : fragArrive n f s =
    if 4096 < bs.length then s.setIcp { s.icp with frags := del s.icp.frags (n, f.v6, f.ident) }
    else acceptPkt (.mgmt n) (icpPkt true { f.slot with bytes := bs }) (s.setIcp { s.icp with frags := del s.icp.frags (n, f.v6, f.ident) }) := by
  rw [fragArrive_served hport hs, if_neg (by simp [hp]), h]

end

/-- A key that a list does not have is not deleted. -/
theorem del_of_has_false {κ β : Type} [DecidableEq κ] {l : List (κ × β)} {q : κ} (h : has l q = false) : del l q = l := by
  refine List.filter_eq_self.mpr fun e he => decide_eq_true fun hq => ?_
  have hhas : has l q = true := hq ▸ look_of_mem he
  rw [h] at hhas
  cases hhas

theorem lookD_of_has_false {κ β : Type} [DecidableEq κ] {l : List (κ × β)} {q : κ} (h : has l q = false) (d : β) : lookD l q d = d := by
  have hlook : look l q = none := Option.not_isSome_iff_eq_none.mp (by simpa [has] using h)
  rw [lookD, hlook, Option.getD_none]

/-- A datagram in one fragment, none of which had arrived before, arrives as its command. -/
theorem fragArrive_whole (hport : f.port = 7141) (ho : f.offset = 0) (hm : f.more = false) (hlen : f.slot.bytes.length ≤ 4096)
    (hnew : has s.icp.frags (n, f.v6, f.ident) = false) : fragArrive n f s = icpArrive (.mgmt n) (icpPkt true f.slot) s := by
  have hpay : ((lookD s.icp.frags (n, f.v6, f.ident) {}).add f).payload = some f.slot.bytes := by
    rw [lookD_of_has_false hnew, payload_whole ho hm]
  cases hs : transportServed s (.mgmt n) with
  | false => rw [fragArrive_ignored (.inr hs), icpArrive_unserved rfl hs]
  | true =>
    cases hp : s.icp.paused with
    | true => rw [fragArrive_paused hport hs hp, if_pos ho, icpArrive_paused hs hp]
    | false =>
      rw [fragArrive_complete hport hs hp hpay, if_neg (Nat.not_lt.mpr hlen), icpArrive_open rfl hs hp, del_of_has_false hnew]
      rfl

/-! ### The rows -/

theorem managementDatagram_whole (hport : f.port = 7141) (ho : f.offset = 0) (hm : f.more = false) (hlen : f.slot.bytes.length ≤ 4096)
    (hnew : has s.icp.frags (n, f.v6, f.ident) = false) :
    exec (.managementDatagram n f) s = .next (icpWake (icpArrive (.mgmt n) (icpPkt true f.slot) s)) := by
  rw [← fragArrive_whole hport ho hm hlen hnew]
  rfl

theorem mctpMessage_icp (n : Nat) (sl : IcpSlot) (s : State) :
    exec (.mctpMessage n ⟨0x7E, 0x1F6D, sl⟩) s = .next (icpWake (icpArrive (.mctp n) (icpPkt false sl) s)) :=
  congrArg Host.Outcome.next (if_pos ⟨rfl, rfl⟩)

theorem mctpMessage_other {type vendor : Nat} (h : ¬ (type = 0x7E ∧ vendor = 0x1F6D)) (n : Nat) (sl : IcpSlot) (s : State) :
    exec (.mctpMessage n ⟨type, vendor, sl⟩) s = .next (icpWake s) := congrArg Host.Outcome.next (if_neg h)

theorem onward_managementDatagram {y : State} (h : fragArrive n f s = y) : Onward (exec (.managementDatagram n f) s) y := h ▸ onward_icpWake _

/-- A command that names its own opcode is the row of that opcode. -/
theorem getIdentity_eq (h : pkt.opcode = 0x0100) (via : Via) (s : State) :
    exec (.getIdentity via pkt) s = .next (icpWake (icpArrive via pkt s)) := by
  have hpkt : { pkt with opcode := 0x0100 } = pkt := by rw [← h]
  refine congrArg Host.Outcome.next (congrArg icpWake ?_)
  rw [hpkt]

end Sys2Proof.Machine
end

section
/-! Rings, the management port and MCTP: O57. -/

namespace Sys2Proof.Machine

open Sys2Proof

variable {s s0 : State} {via : Via} {pkt : IcpPkt} {n : Nat} {r : Ran} {c : Ctx}

/-! ### A packet that arrives on a transport that is no ring -/

/-- The outcome in which a packet arrives and the part takes what it can. -/
def Arrives (r : Ran) (via : Via) (pkt : IcpPkt) (s : State) : Prop := ringKey via = none ∧ r = .next (icpWake (icpArrive via pkt s))

theorem Arrives.onward {y : State} (h : Arrives r via pkt s) (hy : icpArrive via pkt s = y) : Onward r y := by
  obtain ⟨-, rfl⟩ := h
  exact hy ▸ onward_icpWake _

theorem Arrives.unserved (h : Arrives r via pkt s) (hs : transportServed s via = false) : Onward r s := h.onward (icpArrive_unserved h.1 hs)

theorem Arrives.paused (h : Arrives r (.mgmt n) pkt s) (hs : transportServed s (.mgmt n) = true) (hp : s.icp.paused = true) :
    Onward r (s.setIcp { s.icp with datagramDrops := s.icp.datagramDrops + 1 }) := h.onward (icpArrive_paused hs hp)

section
variable (h : Arrives r via pkt s) (hs : transportServed s via = true) (hp : s.icp.paused = false)
include h hs hp

theorem Arrives.kept {p : IcpReply} (hk : keptReply s via pkt.tag = some p) : Onward r (sendPacket via p (touchSession via s)) :=
  h.onward ((icpArrive_open h.1 hs hp).trans (acceptPkt_kept hk))

theorem Arrives.held (hk : keptReply s via pkt.tag = none) (hm : mustHold (touchSession via s) via pkt = true) : Onward r
    ((touchSession via s).setIcp { (touchSession via s).icp with behind := (touchSession via s).icp.behind ++ [(via, pkt)] }) :=
  h.onward ((icpArrive_open h.1 hs hp).trans (acceptPkt_held hk hm))

theorem Arrives.rejected (hk : keptReply s via pkt.tag = none) (hm : mustHold (touchSession via s) via pkt = false) {st d : Nat}
    (hc : icpCheck pkt.opcode via pkt (touchSession via s) = some (st, d)) :
    Onward r (sendReply pkt.opcode via pkt st d [] (touchSession via s)) :=
  h.onward ((icpArrive_open h.1 hs hp).trans ((acceptPkt_of_free hk hm).trans (startPkt_rejected h.1 hc)))

end

section
variable (h : Arrives r via pkt s) (hst : Starts pkt.opcode via pkt s c s0)
include h hst

theorem Arrives.replied {y : State} {st d : Nat} {data : Bytes} (hh : handlerOf pkt.opcode c s0 = .reply y st d data) :
    Replied r c st d data y := by
  obtain ⟨htake, hcheck, hfw, hfl, rfl⟩ := hst
  simp only [h.1] at htake
  obtain ⟨hs, hp, hk, hm, rfl⟩ := htake
  rw [taken_ringless h.1] at hcheck hh ⊢
  exact h.onward ((icpArrive_open h.1 hs hp).trans ((acceptPkt_of_free hk hm).trans (startPkt_replied h.1 hcheck hfw hfl hh)))

theorem Arrives.waits {y : State} {d : Nat} {data : Bytes} (hh : handlerOf pkt.opcode c s0 = .later y d data) : Onward r y := by
  obtain ⟨htake, hcheck, hfw, hfl, rfl⟩ := hst
  simp only [h.1] at htake
  obtain ⟨hs, hp, hk, hm, rfl⟩ := htake
  rw [taken_ringless h.1] at hcheck hh
  exact h.onward ((icpArrive_open h.1 hs hp).trans ((acceptPkt_of_free hk hm).trans (startPkt_waiting h.1 hcheck hfw hfl hh)))

end

/-! ### The obligation -/

/-- Settles O57: a doorbell's row is its branch on the ring; a whole datagram and an ICP message both arrive as their packet, and the fragments of a
datagram are put together by their offsets. -/
theorem ringsAndPortsTakeTheirPackets : Obligations.RingsAndPortsTakeTheirPackets := by
  refine ⟨fun k index slots s => ⟨fun h => ⟨cmdTail_absent h slots, rplHead_absent h, icpRingEnable_absent h, icpRingDisable_absent h⟩, fun h =>
      ⟨fun hi => ⟨_, cmdTail_outOfRange h hi slots, ?_, badIcpDoorbell_dbInvalid .., ?_⟩, fun hi => ⟨fun l hl => ?_, fun hl => ?_⟩,
        fun hi => ⟨_, rplHead_outOfRange h hi, ?_, ?_⟩, rplHead_frees h, fun hk =>
      ⟨icpRingEnable_there h hk, fun he => ?_, fun he => ?_⟩⟩⟩,
    fun n sl f pkt s via row hrow => ?_, fun n f s => ?_, fun a b f g hfo hfm ha hgo hgm hb hne => ?_,
    fun n type vendor x s h => mctpMessage_other h n x s ▸ onward_icpWake s, fun n x s hop => ?_, fun n f s hport ho hm hlen hnew hop => ?_⟩
  · rw [ringOf_badIcpDoorbell]
  · rw [ringOf_badIcpDoorbell]
  · subst hl
    refine ⟨cmdTail_visible h hi l, slotsTo_length .., fun i hlt => ⟨slotOf s k l i, slotsTo_getElem? hlt, fun hk => slotOf_accel hk l i,
      fun hk hgiven => slotOf_given hk hgiven⟩⟩
  · subst hl
    exact cmdTail_unreadable h hi
  · rw [ringOf_badIcpDoorbell]
  · rw [ringOf_badIcpDoorbell]
  · rw [icpRingDisable_there h hk, ringEnable_off he]
  · rw [icpRingDisable_there h hk, ringEnable_stays_off he]
  · have harr : Arrives (exec row s) via pkt s := by
      rcases hrow with ⟨rfl, rfl, rfl, hport, ho, hm, hlen, hnew, rfl⟩ | ⟨rfl, rfl, rfl⟩
      · exact ⟨rfl, managementDatagram_whole hport ho hm hlen hnew⟩
      · exact ⟨rfl, mctpMessage_icp n sl s⟩
    refine ⟨harr.unserved, fun hs hp hvia => ?_, fun hs hp => ⟨fun p hk => harr.kept hs hp hk, fun hk hm => harr.held hs hp hk hm,
      fun hk hm st d hc => harr.rejected hs hp hk hm hc⟩, fun s0 c st d data y hst hh => harr.replied hst hh,
      fun s0 c dt data y hst hh => harr.waits hst hh⟩
    subst hvia
    exact harr.paused hs hp
  · refine ⟨fun h => onward_managementDatagram (fragArrive_ignored h),
      fun hport hs => ⟨fun hp ho => ?_, fun hp => ⟨fun hpay => ?_, fun bs hpay => ?_⟩⟩⟩
    · exact onward_managementDatagram ((fragArrive_paused hport hs hp).trans (if_neg ho))
    · exact onward_managementDatagram (fragArrive_incomplete hport hs hp hpay)
    · exact ⟨fun hlong => onward_managementDatagram ((fragArrive_complete hport hs hp hpay).trans (if_pos hlong)),
        fun hlen => onward_managementDatagram ((fragArrive_complete hport hs hp hpay).trans (if_neg (Nat.not_lt.mpr hlen)))⟩
  · subst ha hb
    obtain ⟨hfg, hgf⟩ := payload_two_fragments hgo hgm hfo hfm hne
    exact ⟨⟨payload_of_total_none (if_pos hfm), hfg⟩, payload_last_alone hgo hgm hne, hgf⟩
  · rw [mctpMessage_icp, getIdentity_eq hop]
  · rw [managementDatagram_whole hport ho hm hlen hnew, getIdentity_eq hop]

end Sys2Proof.Machine
end

section
/-! Custody memory keeps its canonical form whatever runs (R100; log 7), and the form is canonical: two memories in it that read the same are the same list. -/

namespace Sys2Proof.Machine

open Sys2Proof

/-! ### Equal contents are equal data -/

/-- What a memory in canonical form lists is what reads otherwise than an unlisted address. -/
theorem mem_iff_memGet {m : List Host.Cell} (h : Memory.wf m = true) (a : Nat) (v : Byte) :
    (a, v) ∈ m ↔ memGet m a = v ∧ v ≠ memDefault := by
  rw [Memory.wf_iff] at h
  obtain ⟨hp, hd⟩ := h
  induction m with
  | nil => simpa [memGet] using fun e => e.symm
  | cons x r ih =>
    obtain ⟨k, w⟩ := x
    obtain ⟨hk, hr⟩ := List.pairwise_cons.1 hp
    have hw : w ≠ memDefault := hd _ List.mem_cons_self
    have ih := ih hr (fun c hc => hd c (List.mem_cons_of_mem _ hc))
    rw [List.mem_cons, Prod.mk.injEq, memGet]
    by_cases ha : a = k
    · subst ha
      have hout : (a, v) ∉ r := fun hc => lt_irrefl a (hk _ hc)
      rw [if_pos rfl]
      constructor
      · rintro (⟨-, rfl⟩ | hc)
        · exact ⟨rfl, hw⟩
        · exact absurd hc hout
      · rintro ⟨rfl, -⟩
        exact .inl ⟨rfl, rfl⟩
    · rw [if_neg ha, ← ih]
      simp [ha]

/-- A memory in canonical form lists no cell twice. -/
theorem Memory.nodup_of_wf {m : List Host.Cell} (h : Memory.wf m = true) : m.Nodup :=
  ((Memory.wf_iff m).1 h).1.imp (fun hab he => (congrArg Prod.fst he ▸ hab).false)

/-- Two memories in canonical form that read the same at every address are the same list. -/
theorem Memory.eq_of_memGet_eq {m m' : List Host.Cell} (h : Memory.wf m = true) (h' : Memory.wf m' = true)
    (he : ∀ a, memGet m a = memGet m' a) : m = m' := by
  have hmem : ∀ c, c ∈ m ↔ c ∈ m' := fun c => by
    rw [mem_iff_memGet h, mem_iff_memGet h', he]
  have hperm : m.Perm m' := (List.perm_ext_iff_of_nodup (Memory.nodup_of_wf h) (Memory.nodup_of_wf h')).2 hmem
  exact hperm.eq_of_pairwise (fun a b _ _ hab hba => absurd hab (lt_asymm hba)) ((Memory.wf_iff m).1 h).1 ((Memory.wf_iff m').1 h').1

/-! ### Every command keeps the form -/

/-- The meaning of every row of the opcode table keeps memory in its canonical form. -/
theorem exec_memOk : ∀ (c : Instr) (s : State), memOk s → OutOk (exec c s)
  | .hello via pkt, s, h => execHello_memOk via pkt s h
  | .goodbye via pkt, s, h => execGoodbye_memOk via pkt s h
  | .leaseRenew via pkt, s, h => execLeaseRenew_memOk via pkt s h
  | .flush via pkt, s, h => execFlush_memOk via pkt s h
  | .getIdentity via pkt, s, h => execGetIdentity_memOk via pkt s h
  | .getStraps via pkt, s, h => execGetStraps_memOk via pkt s h
  | .strapOverride via pkt, s, h => execStrapOverride_memOk via pkt s h
  | .getStartReport via pkt, s, h => execGetStartReport_memOk via pkt s h
  | .cfgStage via pkt, s, h => execCfgStage_memOk via pkt s h
  | .cfgCommitRolling via pkt, s, h => execCfgCommitRolling_memOk via pkt s h
  | .cfgCommitDrain via pkt, s, h => execCfgCommitDrain_memOk via pkt s h
  | .drainComplete owner, s, h => execDrainComplete_memOk owner s h
  | .drainBoundExpiry owner, s, h => execDrainBoundExpiry_memOk owner s h
  | .cfgAbort via pkt, s, h => execCfgAbort_memOk via pkt s h
  | .powerCapSet via pkt, s, h => execPowerCapSet_memOk via pkt s h
  | .tableCreate via pkt, s, h => execTableCreate_memOk via pkt s h
  | .tableDestroy via pkt, s, h => execTableDestroy_memOk via pkt s h
  | .tableQuery via pkt, s, h => execTableQuery_memOk via pkt s h
  | .cqpCreate via pkt, s, h => execCqpCreate_memOk via pkt s h
  | .cqpDestroy via pkt, s, h => execCqpDestroy_memOk via pkt s h
  | .kernelLoad via pkt, s, h => execKernelLoad_memOk via pkt s h
  | .kernelUnload via pkt, s, h => execKernelUnload_memOk via pkt s h
  | .ruleRegister via pkt, s, h => execRuleRegister_memOk via pkt s h
  | .coursePolicySet via pkt, s, h => execCoursePolicySet_memOk via pkt s h
  | .courseOpen via pkt, s, h => execCourseOpen_memOk via pkt s h
  | .stepDone via pkt, s, h => execStepDone_memOk via pkt s h
  | .courseStatus via pkt, s, h => execCourseStatus_memOk via pkt s h
  | .courseAbort via pkt, s, h => execCourseAbort_memOk via pkt s h
  | .regionRegister via pkt, s, h => execRegionRegister_memOk via pkt s h
  | .regionDeregister via pkt, s, h => execRegionDeregister_memOk via pkt s h
  | .tableCapturePolicy via pkt, s, h => execTableCapturePolicy_memOk via pkt s h
  | .ledgerQuery via pkt, s, h => execLedgerQuery_memOk via pkt s h
  | .restoreBegin via pkt, s, h => execRestoreBegin_memOk via pkt s h
  | .shardMapLoad via pkt, s, h => execShardMapLoad_memOk via pkt s h
  | .restoreStatus via pkt, s, h => execRestoreStatus_memOk via pkt s h
  | .shardAdopt via pkt, s, h => execShardAdopt_memOk via pkt s h
  | .shrinkDone via pkt, s, h => execShrinkDone_memOk via pkt s h
  | .nsCreate via pkt, s, h => execNsCreate_memOk via pkt s h
  | .nsDelete via pkt, s, h => execNsDelete_memOk via pkt s h
  | .nsAttach via pkt, s, h => execNsAttach_memOk via pkt s h
  | .nsDetach via pkt, s, h => execNsDetach_memOk via pkt s h
  | .nsQuery via pkt, s, h => execNsQuery_memOk via pkt s h
  | .ssdList via pkt, s, h => execSsdList_memOk via pkt s h
  | .nsMirrorSet via pkt, s, h => execNsMirrorSet_memOk via pkt s h
  | .portConfigBlock via pkt, s, h => execPortConfigBlock_memOk via pkt s h
  | .portConfigEthernet via pkt, s, h => execPortConfigEthernet_memOk via pkt s h
  | .nicQpCreate via pkt, s, h => execNicQpCreate_memOk via pkt s h
  | .nicQpDestroy via pkt, s, h => execNicQpDestroy_memOk via pkt s h
  | .portQueryBlock via pkt, s, h => execPortQueryBlock_memOk via pkt s h
  | .portQueryEthernet via pkt, s, h => execPortQueryEthernet_memOk via pkt s h
  | .parseNodeWrite via pkt, s, h => execParseNodeWrite_memOk via pkt s h
  | .clsInsert via pkt, s, h => execClsInsert_memOk via pkt s h
  | .clsDelete via pkt, s, h => execClsDelete_memOk via pkt s h
  | .clsConfigure via pkt, s, h => execClsConfigure_memOk via pkt s h
  | .clsMissAction via pkt, s, h => execClsMissAction_memOk via pkt s h
  | .indirectionEntries via pkt, s, h => execIndirectionEntries_memOk via pkt s h
  | .indirectionProfile via pkt, s, h => execIndirectionProfile_memOk via pkt s h
  | .shaperSet via pkt, s, h => execShaperSet_memOk via pkt s h
  | .policerSet via pkt, s, h => execPolicerSet_memOk via pkt s h
  | .gateListSet via pkt, s, h => execGateListSet_memOk via pkt s h
  | .samplerSet via pkt, s, h => execSamplerSet_memOk via pkt s h
  | .grtConnCreate via pkt, s, h => execGrtConnCreate_memOk via pkt s h
  | .grtConnDestroy via pkt, s, h => execGrtConnDestroy_memOk via pkt s h
  | .mrRegister via pkt, s, h => execMrRegister_memOk via pkt s h
  | .mrRevoke via pkt, s, h => execMrRevoke_memOk via pkt s h
  | .grtConnQuery via pkt, s, h => execGrtConnQuery_memOk via pkt s h
  | .keyProvisionClear via pkt, s, h => execKeyProvisionClear_memOk via pkt s h
  | .keyProvisionWrapped via pkt, s, h => execKeyProvisionWrapped_memOk via pkt s h
  | .keyErase via pkt, s, h => execKeyErase_memOk via pkt s h
  | .lifecycleTransition via pkt, s, h => execLifecycleTransition_memOk via pkt s h
  | .getCertChain via pkt, s, h => execGetCertChain_memOk via pkt s h
  | .securityStatus via pkt, s, h => execSecurityStatus_memOk via pkt s h
  | .errQuery via pkt, s, h => execErrQuery_memOk via pkt s h
  | .errAck via pkt, s, h => execErrAck_memOk via pkt s h
  | .counterSelect via pkt, s, h => execCounterSelect_memOk via pkt s h
  | .counterRead via pkt, s, h => execCounterRead_memOk via pkt s h
  | .policySet via pkt, s, h => execPolicySet_memOk via pkt s h
  | .policyLogRead via pkt, s, h => execPolicyLogRead_memOk via pkt s h
  | .fwStage via pkt, s, h => execFwStage_memOk via pkt s h
  | .fwActivateAtReset via pkt, s, h => execFwActivateAtReset_memOk via pkt s h
  | .fwActivateResetNow via pkt, s, h => execFwActivateResetNow_memOk via pkt s h
  | .fwActivateLive via pkt, s, h => execFwActivateLive_memOk via pkt s h
  | .activationRetry, s, h => execActivationRetry_memOk s h
  | .activationDeferExpiry, s, h => execActivationDeferExpiry_memOk s h
  | .fwQuery via pkt, s, h => execFwQuery_memOk via pkt s h
  | .fnCreate via pkt, s, h => execFnCreate_memOk via pkt s h
  | .fnDestroy via pkt, s, h => execFnDestroy_memOk via pkt s h
  | .fnReset via pkt, s, h => execFnReset_memOk via pkt s h
  | .getFunctionState via pkt, s, h => execGetFunctionState_memOk via pkt s h
  | .adoptQueues via pkt, s, h => execAdoptQueues_memOk via pkt s h
  | .migFreeze via pkt, s, h => execMigFreeze_memOk via pkt s h
  | .migSave via pkt, s, h => execMigSave_memOk via pkt s h
  | .migRestore via pkt, s, h => execMigRestore_memOk via pkt s h
  | .migResume via pkt, s, h => execMigResume_memOk via pkt s h
  | .dirtyLogStart via pkt, s, h => execDirtyLogStart_memOk via pkt s h
  | .dirtyLogStop via pkt, s, h => execDirtyLogStop_memOk via pkt s h
  | .diagStewardSelftest via pkt, s, h => execDiagStewardSelftest_memOk via pkt s h
  | .diagSpiFlashRead via pkt, s, h => execDiagSpiFlashRead_memOk via pkt s h
  | .diagGddr7Training via pkt, s, h => execDiagGddr7Training_memOk via pkt s h
  | .diagLinkTraining via pkt, s, h => execDiagLinkTraining_memOk via pkt s h
  | .diagClusterSpareOut via pkt, s, h => execDiagClusterSpareOut_memOk via pkt s h
  | .diagResult via pkt, s, h => execDiagResult_memOk via pkt s h
  | .dumpRead via pkt, s, h => execDumpRead_memOk via pkt s h
  | .cmdTail ring index slots, s, h => execCmdTail_memOk ring index slots s h
  | .rplHead ring index, s, h => execRplHead_memOk ring index s h
  | .icpRingDisable fn, s, h => execIcpRingDisable_memOk fn s h
  | .managementDatagram peer frag, s, h => execManagementDatagram_memOk peer frag s h
  | .managementSessionIdle peer, s, h => execManagementSessionIdle_memOk peer s h
  | .mctpMessage eid msg, s, h => execMctpMessage_memOk eid msg s h
  | .leaseExpiry fn, s, h => execLeaseExpiry_memOk fn s h
  | .reclaimComplete fn, s, h => execReclaimComplete_memOk fn s h
  | .sqTail queue index who slots, s, h => execSqTail_memOk queue index who slots s h
  | .cqHead queue index, s, h => execCqHead_memOk queue index s h
  | .lookup queue desc io, s, h => execLookup_memOk queue desc io s h
  | .lookupPool queue desc io, s, h => execLookupPool_memOk queue desc io s h
  | .update queue desc io, s, h => execUpdate_memOk queue desc io s h
  | .readRows queue desc io, s, h => execReadRows_memOk queue desc io s h
  | .writeRows queue desc io, s, h => execWriteRows_memOk queue desc io s h
  | .prefetch queue desc io, s, h => execPrefetch_memOk queue desc io s h
  | .kernel queue desc io, s, h => execKernel_memOk queue desc io s h
  | .forwardedIndex dev token domainId op flags step client lr index data faults, s, h => execForwardedIndex_memOk dev token domainId op flags step client lr index data faults s h
  | .forwardResult queue seq position status flags data, s, h => execForwardResult_memOk queue seq position status flags data s h
  | .heldDescriptorRelease queue, s, h => execHeldDescriptorRelease_memOk queue s h
  | .repointRow table row values slotFree, s, h => execRepointRow_memOk table row values slotFree s h
  | .repointTimeout table row, s, h => execRepointTimeout_memOk table row s h
  | .courseOpenMessage source id step label format trigger, s, h => execCourseOpenMessage_memOk source id step label format trigger s h
  | .fenceUp child id peerStep ended, s, h => execFenceUp_memOk child id peerStep ended s h
  | .fenceRelease id ended, s, h => execFenceRelease_memOk id ended s h
  | .fenceClose tenant domain, s, h => execFenceClose_memOk tenant domain s h
  | .fenceTimeout, s, h => execFenceTimeout_memOk s h
  | .spillWaitRelease table region index, s, h => execSpillWaitRelease_memOk table region index s h
  | .captureBlock faults, s, h => execCaptureBlock_memOk faults s h
  | .shardWriteComplete shard dest, s, h => execShardWriteComplete_memOk shard dest s h
  | .shardWriteFailed shard dest, s, h => execShardWriteFailed_memOk shard dest s h
  | .regionPullComplete region data, s, h => execRegionPullComplete_memOk region data s h
  | .commitUp child id entries, s, h => execCommitUp_memOk child id entries s h
  | .rootLedgerDurable dest, s, h => execRootLedgerDurable_memOk dest s h
  | .commitRelease id manifest, s, h => execCommitRelease_memOk id manifest s h
  | .periodicCourse, s, h => execPeriodicCourse_memOk s h
  | .bucketBoundary, s, h => execBucketBoundary_memOk s h
  | .earlyRequest child counter rate, s, h => execEarlyRequest_memOk child counter rate s h
  | .ceAbortReq who value, s, h => execCeAbortReq_memOk who value s h
  | .restoreChunkRead shard chunk head data, s, h => execRestoreChunkRead_memOk shard chunk head data s h
  | .restoreSourceTimeout shard, s, h => execRestoreSourceTimeout_memOk shard s h
  | .restoreComplete, s, h => execRestoreComplete_memOk s h
  | .adoptRowRead table row value slotFree, s, h => execAdoptRowRead_memOk table row value slotFree s h
  | .adoptTimeout table row, s, h => execAdoptTimeout_memOk table row s h
  | .livenessSend, s, h => execLivenessSend_memOk s h
  | .liveness device step adopting below, s, h => execLiveness_memOk device step adopting below s h
  | .livenessTimeout device, s, h => execLivenessTimeout_memOk device s h
  | .memberFailed devices report, s, h => execMemberFailed_memOk devices report s h
  | .linkCrcFail mc channel retry, s, h => execLinkCrcFail_memOk mc channel retry s h
  | .channelRetrainDone mc channel trained, s, h => execChannelRetrainDone_memOk mc channel trained s h
  | .poisonedBlockPlaced table region index, s, h => execPoisonedBlockPlaced_memOk table region index s h
  | .mcFenceReq who mc mask, s, h => execMcFenceReq_memOk who mc mask s h
  | .scrubRead dpa fault, s, h => execScrubRead_memOk dpa fault s h
  | .cxlLinkDown block link, s, h => execCxlLinkDown_memOk block link s h
  | .tierEpochEnd, s, h => execTierEpochEnd_memOk s h
  | .tierMoveComplete table region index, s, h => execTierMoveComplete_memOk table region index s h
  | .crossingMismatch crossing reset, s, h => execCrossingMismatch_memOk crossing reset s h
  | .sramRowSpared block sram row event, s, h => execSramRowSpared_memOk block sram row event s h
  | .residueMismatch th third, s, h => execResidueMismatch_memOk th third s h
  | .registerParityFault th, s, h => execRegisterParityFault_memOk th s h
  | .l1ParityRefetch cluster core line instruction, s, h => execL1ParityRefetch_memOk cluster core line instruction s h
  | .clSpareReq who cluster mask, s, h => execClSpareReq_memOk who cluster mask s h
  | .coreSafePoint cluster core, s, h => execCoreSafePoint_memOk cluster core s h
  | .clusterSpareOut logical badWords, s, h => execClusterSpareOut_memOk logical badWords s h
  | .itemWatchdog th, s, h => execItemWatchdog_memOk th s h
  | .qMv th rd rs, s, h => execQMv_memOk th rd rs s h
  | .qAdd th rd rs, s, h => execQAdd_memOk th rd rs s h
  | .qSub th rd rs, s, h => execQSub_memOk th rd rs s h
  | .qLdk th rd imm, s, h => execQLdk_memOk th rd imm s h
  | .qAddk th rd imm, s, h => execQAddk_memOk th rd imm s h
  | .qShlk th rd imm, s, h => execQShlk_memOk th rd imm s h
  | .qLdD th rd rb off io, s, h => execQLdD_memOk th rd rb off io s h
  | .qStD th rs rb off io, s, h => execQStD_memOk th rs rb off io s h
  | .qLdW th rd rb off io, s, h => execQLdW_memOk th rd rb off io s h
  | .qStW th rs rb off io, s, h => execQStW_memOk th rs rb off io s h
  | .qBeqz th rs off, s, h => execQBeqz_memOk th rs off s h
  | .qBnez th rs off, s, h => execQBnez_memOk th rs off s h
  | .qJmp th off, s, h => execQJmp_memOk th off s h
  | .qJr th rs, s, h => execQJr_memOk th rs s h
  | .qHalt th, s, h => execQHalt_memOk th s h
  | .qNop th, s, h => execQNop_memOk th s h
  | .add th rd rs1 rs2, s, h => execAdd_memOk th rd rs1 rs2 s h
  | .sub th rd rs1 rs2, s, h => execSub_memOk th rd rs1 rs2 s h
  | .and th rd rs1 rs2, s, h => execAnd_memOk th rd rs1 rs2 s h
  | .or th rd rs1 rs2, s, h => execOr_memOk th rd rs1 rs2 s h
  | .xor th rd rs1 rs2, s, h => execXor_memOk th rd rs1 rs2 s h
  | .shl th rd rs1 rs2, s, h => execShl_memOk th rd rs1 rs2 s h
  | .shr th rd rs1 rs2, s, h => execShr_memOk th rd rs1 rs2 s h
  | .sar th rd rs1 rs2, s, h => execSar_memOk th rd rs1 rs2 s h
  | .setlt th rd rs1 rs2, s, h => execSetlt_memOk th rd rs1 rs2 s h
  | .setltu th rd rs1 rs2, s, h => execSetltu_memOk th rd rs1 rs2 s h
  | .min th rd rs1 rs2, s, h => execMin_memOk th rd rs1 rs2 s h
  | .max th rd rs1 rs2, s, h => execMax_memOk th rd rs1 rs2 s h
  | .minu th rd rs1 rs2, s, h => execMinu_memOk th rd rs1 rs2 s h
  | .maxu th rd rs1 rs2, s, h => execMaxu_memOk th rd rs1 rs2 s h
  | .addk th rd rs1 imm, s, h => execAddk_memOk th rd rs1 imm s h
  | .andk th rd rs1 imm, s, h => execAndk_memOk th rd rs1 imm s h
  | .ork th rd rs1 imm, s, h => execOrk_memOk th rd rs1 imm s h
  | .xork th rd rs1 imm, s, h => execXork_memOk th rd rs1 imm s h
  | .setltk th rd rs1 imm, s, h => execSetltk_memOk th rd rs1 imm s h
  | .setltuk th rd rs1 imm, s, h => execSetltuk_memOk th rd rs1 imm s h
  | .shlk th rd rs1 sh, s, h => execShlk_memOk th rd rs1 sh s h
  | .shrk th rd rs1 sh, s, h => execShrk_memOk th rd rs1 sh s h
  | .sark th rd rs1 sh, s, h => execSark_memOk th rd rs1 sh s h
  | .ldi th rd imm, s, h => execLdi_memOk th rd imm s h
  | .ldis th rd imm, s, h => execLdis_memOk th rd imm s h
  | .ldB th rd rs1 imm io, s, h => execLdB_memOk th rd rs1 imm io s h
  | .ldH th rd rs1 imm io, s, h => execLdH_memOk th rd rs1 imm io s h
  | .ldW th rd rs1 imm io, s, h => execLdW_memOk th rd rs1 imm io s h
  | .ldD th rd rs1 imm io, s, h => execLdD_memOk th rd rs1 imm io s h
  | .ldBu th rd rs1 imm io, s, h => execLdBu_memOk th rd rs1 imm io s h
  | .ldHu th rd rs1 imm io, s, h => execLdHu_memOk th rd rs1 imm io s h
  | .ldWu th rd rs1 imm io, s, h => execLdWu_memOk th rd rs1 imm io s h
  | .stB th rs2 rs1 imm io, s, h => execStB_memOk th rs2 rs1 imm io s h
  | .stH th rs2 rs1 imm io, s, h => execStH_memOk th rs2 rs1 imm io s h
  | .stW th rs2 rs1 imm io, s, h => execStW_memOk th rs2 rs1 imm io s h
  | .stD th rs2 rs1 imm io, s, h => execStD_memOk th rs2 rs1 imm io s h
  | .beq th rs1 rs2 off, s, h => execBeq_memOk th rs1 rs2 off s h
  | .bne th rs1 rs2 off, s, h => execBne_memOk th rs1 rs2 off s h
  | .blt th rs1 rs2 off, s, h => execBlt_memOk th rs1 rs2 off s h
  | .bge th rs1 rs2 off, s, h => execBge_memOk th rs1 rs2 off s h
  | .bltu th rs1 rs2 off, s, h => execBltu_memOk th rs1 rs2 off s h
  | .bgeu th rs1 rs2 off, s, h => execBgeu_memOk th rs1 rs2 off s h
  | .beqz th rs1 off, s, h => execBeqz_memOk th rs1 off s h
  | .bnez th rs1 off, s, h => execBnez_memOk th rs1 off s h
  | .bany th mask off, s, h => execBany_memOk th mask off s h
  | .bnone th mask off, s, h => execBnone_memOk th mask off s h
  | .call th rd off, s, h => execCall_memOk th rd off s h
  | .callr th rd rs1 imm, s, h => execCallr_memOk th rd rs1 imm s h
  | .halt th, s, h => execHalt_memOk th s h
  | .fence th scope, s, h => execFence_memOk th scope s h
  | .rdsr th rd imm, s, h => execRdsr_memOk th rd imm s h
  | .rpt th rs1 imm, s, h => execRpt_memOk th rs1 imm s h
  | .aadd th rd rs1 rs2 acquire release wide io, s, h => execAadd_memOk th rd rs1 rs2 acquire release wide io s h
  | .amin th rd rs1 rs2 acquire release wide io, s, h => execAmin_memOk th rd rs1 rs2 acquire release wide io s h
  | .amax th rd rs1 rs2 acquire release wide io, s, h => execAmax_memOk th rd rs1 rs2 acquire release wide io s h
  | .aminu th rd rs1 rs2 acquire release wide io, s, h => execAminu_memOk th rd rs1 rs2 acquire release wide io s h
  | .amaxu th rd rs1 rs2 acquire release wide io, s, h => execAmaxu_memOk th rd rs1 rs2 acquire release wide io s h
  | .aand th rd rs1 rs2 acquire release wide io, s, h => execAand_memOk th rd rs1 rs2 acquire release wide io s h
  | .aor th rd rs1 rs2 acquire release wide io, s, h => execAor_memOk th rd rs1 rs2 acquire release wide io s h
  | .axor th rd rs1 rs2 acquire release wide io, s, h => execAxor_memOk th rd rs1 rs2 acquire release wide io s h
  | .aswap th rd rs1 rs2 acquire release wide io, s, h => execAswap_memOk th rd rs1 rs2 acquire release wide io s h
  | .acas th rd rs1 rs2 acquire release wide io, s, h => execAcas_memOk th rd rs1 rs2 acquire release wide io s h
  | .afadd th rd rs1 rs2 acquire release wide io, s, h => execAfadd_memOk th rd rs1 rs2 acquire release wide io s h
  | .afmin th rd rs1 rs2 acquire release wide io, s, h => execAfmin_memOk th rd rs1 rs2 acquire release wide io s h
  | .afmax th rd rs1 rs2 acquire release wide io, s, h => execAfmax_memOk th rd rs1 rs2 acquire release wide io s h
  | .abfadd2 th rd rs1 rs2 acquire release wide io, s, h => execAbfadd2_memOk th rd rs1 rs2 acquire release wide io s h
  | .mul th rd rs1 rs2, s, h => execMul_memOk th rd rs1 rs2 s h
  | .mulhs th rd rs1 rs2, s, h => execMulhs_memOk th rd rs1 rs2 s h
  | .mulhu th rd rs1 rs2, s, h => execMulhu_memOk th rd rs1 rs2 s h
  | .divs th rd rs1 rs2, s, h => execDivs_memOk th rd rs1 rs2 s h
  | .divu th rd rs1 rs2, s, h => execDivu_memOk th rd rs1 rs2 s h
  | .rems th rd rs1 rs2, s, h => execRems_memOk th rd rs1 rs2 s h
  | .remu th rd rs1 rs2, s, h => execRemu_memOk th rd rs1 rs2 s h
  | .vadd th type rnd zm mask vs2 vs1 vd, s, h => execVadd_memOk th type rnd zm mask vs2 vs1 vd s h
  | .vsub th type rnd zm mask vs2 vs1 vd, s, h => execVsub_memOk th type rnd zm mask vs2 vs1 vd s h
  | .vmul th type rnd zm mask vs2 vs1 vd, s, h => execVmul_memOk th type rnd zm mask vs2 vs1 vd s h
  | .vfma th type rnd zm mask vs2 vs1 vd, s, h => execVfma_memOk th type rnd zm mask vs2 vs1 vd s h
  | .vmin th type rnd zm mask vs2 vs1 vd, s, h => execVmin_memOk th type rnd zm mask vs2 vs1 vd s h
  | .vmax th type rnd zm mask vs2 vs1 vd, s, h => execVmax_memOk th type rnd zm mask vs2 vs1 vd s h
  | .vminu th type rnd zm mask vs2 vs1 vd, s, h => execVminu_memOk th type rnd zm mask vs2 vs1 vd s h
  | .vmaxu th type rnd zm mask vs2 vs1 vd, s, h => execVmaxu_memOk th type rnd zm mask vs2 vs1 vd s h
  | .vand th type rnd zm mask vs2 vs1 vd, s, h => execVand_memOk th type rnd zm mask vs2 vs1 vd s h
  | .vor th type rnd zm mask vs2 vs1 vd, s, h => execVor_memOk th type rnd zm mask vs2 vs1 vd s h
  | .vxor th type rnd zm mask vs2 vs1 vd, s, h => execVxor_memOk th type rnd zm mask vs2 vs1 vd s h
  | .vsll th type rnd zm mask vs2 vs1 vd, s, h => execVsll_memOk th type rnd zm mask vs2 vs1 vd s h
  | .vsrl th type rnd zm mask vs2 vs1 vd, s, h => execVsrl_memOk th type rnd zm mask vs2 vs1 vd s h
  | .vsra th type rnd zm mask vs2 vs1 vd, s, h => execVsra_memOk th type rnd zm mask vs2 vs1 vd s h
  | .vdiv th type rnd zm mask vs2 vs1 vd, s, h => execVdiv_memOk th type rnd zm mask vs2 vs1 vd s h
  | .vsqrt th type rnd zm mask vs1 vd, s, h => execVsqrt_memOk th type rnd zm mask vs1 vd s h
  | .vabs th type rnd zm mask vs1 vd, s, h => execVabs_memOk th type rnd zm mask vs1 vd s h
  | .vneg th type rnd zm mask vs1 vd, s, h => execVneg_memOk th type rnd zm mask vs1 vd s h
  | .vredsum th type rnd zm mask vs1 vd, s, h => execVredsum_memOk th type rnd zm mask vs1 vd s h
  | .vredmax th type rnd zm mask vs1 vd, s, h => execVredmax_memOk th type rnd zm mask vs1 vd s h
  | .vredmin th type rnd zm mask vs1 vd, s, h => execVredmin_memOk th type rnd zm mask vs1 vd s h
  | .vsel th type rnd zm mask vs2 vs1 vd, s, h => execVsel_memOk th type rnd zm mask vs2 vs1 vd s h
  | .vaddS th type rnd zm mask rs vs1 vd, s, h => execVaddS_memOk th type rnd zm mask rs vs1 vd s h
  | .vsubS th type rnd zm mask rs vs1 vd, s, h => execVsubS_memOk th type rnd zm mask rs vs1 vd s h
  | .vmulS th type rnd zm mask rs vs1 vd, s, h => execVmulS_memOk th type rnd zm mask rs vs1 vd s h
  | .vfmaS th type rnd zm mask rs vs1 vd, s, h => execVfmaS_memOk th type rnd zm mask rs vs1 vd s h
  | .vminS th type rnd zm mask rs vs1 vd, s, h => execVminS_memOk th type rnd zm mask rs vs1 vd s h
  | .vmaxS th type rnd zm mask rs vs1 vd, s, h => execVmaxS_memOk th type rnd zm mask rs vs1 vd s h
  | .vbcast th type rnd zm mask rs vd, s, h => execVbcast_memOk th type rnd zm mask rs vd s h
  | .vsllS th type rnd zm mask rs vs1 vd, s, h => execVsllS_memOk th type rnd zm mask rs vs1 vd s h
  | .vsrlS th type rnd zm mask rs vs1 vd, s, h => execVsrlS_memOk th type rnd zm mask rs vs1 vd s h
  | .vsraS th type rnd zm mask rs vs1 vd, s, h => execVsraS_memOk th type rnd zm mask rs vs1 vd s h
  | .veq th type rnd zm mask vs2 vs1 md, s, h => execVeq_memOk th type rnd zm mask vs2 vs1 md s h
  | .vne th type rnd zm mask vs2 vs1 md, s, h => execVne_memOk th type rnd zm mask vs2 vs1 md s h
  | .vlt th type rnd zm mask vs2 vs1 md, s, h => execVlt_memOk th type rnd zm mask vs2 vs1 md s h
  | .vle th type rnd zm mask vs2 vs1 md, s, h => execVle_memOk th type rnd zm mask vs2 vs1 md s h
  | .vltu th type rnd zm mask vs2 vs1 md, s, h => execVltu_memOk th type rnd zm mask vs2 vs1 md s h
  | .vleu th type rnd zm mask vs2 vs1 md, s, h => execVleu_memOk th type rnd zm mask vs2 vs1 md s h
  | .vld th type off mask zm rs1 vd io, s, h => execVld_memOk th type off mask zm rs1 vd io s h
  | .vst th type off mask zm rs1 vd io, s, h => execVst_memOk th type off mask zm rs1 vd io s h
  | .vldb th type off mask zm rs1 vd io, s, h => execVldb_memOk th type off mask zm rs1 vd io s h
  | .vaadd th type off mask zm rs1 vd io, s, h => execVaadd_memOk th type off mask zm rs1 vd io s h
  | .vcvt th type rnd zm mask src vs1 vd, s, h => execVcvt_memOk th type rnd zm mask src vs1 vd s h
  | .vmxpk th type rnd zm mask src vs1 vd, s, h => execVmxpk_memOk th type rnd zm mask src vs1 vd s h
  | .vmxunpk th type rnd zm mask src vs1 vd, s, h => execVmxunpk_memOk th type rnd zm mask src vs1 vd s h
  | .mand th md ma mb, s, h => execMand_memOk th md ma mb s h
  | .mor th md ma mb, s, h => execMor_memOk th md ma mb s h
  | .mxor th md ma mb, s, h => execMxor_memOk th md ma mb s h
  | .mandn th md ma mb, s, h => execMandn_memOk th md ma mb s h
  | .mpop th rd ma, s, h => execMpop_memOk th rd ma s h
  | .mfirst th rd ma, s, h => execMfirst_memOk th rd ma s h
  | .mfroms th md rs1, s, h => execMfroms_memOk th md rs1 s h
  | .mtos th rd ma, s, h => execMtos_memOk th rd ma s h
  | .vext th type lane sr vr, s, h => execVext_memOk th type lane sr vr s h
  | .vins th type lane sr vr, s, h => execVins_memOk th type lane sr vr s h
  | .vidx th type vr, s, h => execVidx_memOk th type vr s h
  | .movs th size rc r1 r0 io, s, h => execMovs_memOk th size rc r1 r0 io s h
  | .fills th size rc r1 r0 io, s, h => execFills_memOk th size rc r1 r0 io s h
  | .cmps th size rc r1 r0 io, s, h => execCmps_memOk th size rc r1 r0 io s h
  | .scans th size rc cond r1 r0 io, s, h => execScans_memOk th size rc cond r1 r0 io s h
  | .gath th wide size rc r2 r1 r0 io, s, h => execGath_memOk th wide size rc r2 r1 r0 io s h
  | .nvmeSqDoorbell fn sq tail entries, s, h => execNvmeSqDoorbell_memOk fn sq tail entries s h
  | .nvmeCqDoorbell fn cq head, s, h => execNvmeCqDoorbell_memOk fn cq head s h
  | .controllerReset fn enable asq asqSize acq acqSize, s, h => execControllerReset_memOk fn enable asq asqSize acq acqSize s h
  | .deleteIoSq fn cmd, s, h => execDeleteIoSq_memOk fn cmd s h
  | .deleteIoCq fn cmd, s, h => execDeleteIoCq_memOk fn cmd s h
  | .createIoSq fn cmd, s, h => execCreateIoSq_memOk fn cmd s h
  | .createIoCq fn cmd, s, h => execCreateIoCq_memOk fn cmd s h
  | .getLogPage fn cmd, s, h => execGetLogPage_memOk fn cmd s h
  | .identify fn cmd, s, h => execIdentify_memOk fn cmd s h
  | .abort fn cmd, s, h => execAbort_memOk fn cmd s h
  | .setFeatures fn cmd, s, h => execSetFeatures_memOk fn cmd s h
  | .setFeaturesPowerManagement fn cmd, s, h => execSetFeaturesPowerManagement_memOk fn cmd s h
  | .powerStateIdle fn, s, h => execPowerStateIdle_memOk fn s h
  | .powerStateAbandon fn, s, h => execPowerStateAbandon_memOk fn s h
  | .getFeatures fn cmd, s, h => execGetFeatures_memOk fn cmd s h
  | .asynchronousEventRequest fn cmd, s, h => execAsynchronousEventRequest_memOk fn cmd s h
  | .formatNvm fn cmd, s, h => execFormatNvm_memOk fn cmd s h
  | .sanitizeExitFailure fn cmd, s, h => execSanitizeExitFailure_memOk fn cmd s h
  | .sanitizeBlockErase fn cmd, s, h => execSanitizeBlockErase_memOk fn cmd s h
  | .sanitizeOverwrite fn cmd, s, h => execSanitizeOverwrite_memOk fn cmd s h
  | .sanitizeCryptoErase fn cmd, s, h => execSanitizeCryptoErase_memOk fn cmd s h
  | .sanitizeProgress nsid ok, s, h => execSanitizeProgress_memOk nsid ok s h
  | .flushNvm fn sq cmd, s, h => execFlushNvm_memOk fn sq cmd s h
  | .nvmeWrite fn sq cmd io, s, h => execNvmeWrite_memOk fn sq cmd io s h
  | .nvmeRead fn sq cmd io, s, h => execNvmeRead_memOk fn sq cmd io s h
  | .compare fn sq cmd io, s, h => execCompare_memOk fn sq cmd io s h
  | .writeZeroes fn sq cmd io, s, h => execWriteZeroes_memOk fn sq cmd io s h
  | .datasetManagement fn sq cmd io, s, h => execDatasetManagement_memOk fn sq cmd io s h
  | .verify fn sq cmd io, s, h => execVerify_memOk fn sq cmd io s h
  | .rangeLockGrant op, s, h => execRangeLockGrant_memOk op s h
  | .journalDurable op, s, h => execJournalDurable_memOk op s h
  | .inPlaceWriteDone op writeFail, s, h => execInPlaceWriteDone_memOk op writeFail s h
  | .legFailed nsid leg ssd, s, h => execLegFailed_memOk nsid leg ssd s h
  | .legReturn nsid leg ssd, s, h => execLegReturn_memOk nsid leg ssd s h
  | .resyncPiece nsid leg, s, h => execResyncPiece_memOk nsid leg s h
  | .ethernetFrameRx sub frame full corrected uncorrectable, s, h => execEthernetFrameRx_memOk sub frame full corrected uncorrectable s h
  | .linkUp sub speed laneMask inverted partner, s, h => execLinkUp_memOk sub speed laneMask inverted partner s h
  | .linkDown sub, s, h => execLinkDown_memOk sub s h
  | .linkDownHoldExpiry sub, s, h => execLinkDownHoldExpiry_memOk sub s h
  | .serviceTimerExpiry sub, s, h => execServiceTimerExpiry_memOk sub s h
  | .laneTrainingFailed port lane, s, h => execLaneTrainingFailed_memOk port lane s h
  | .laneIdentityFound port order, s, h => execLaneIdentityFound_memOk port order s h
  | .txTail fn qp index slots, s, h => execTxTail_memOk fn qp index slots s h
  | .rxTail fn qp index slots, s, h => execRxTail_memOk fn qp index slots s h
  | .nicCqHead fn qp index, s, h => execNicCqHead_memOk fn qp index s h
  | .nicTransmit fn qp, s, h => execNicTransmit_memOk fn qp s h
  | .transmissionSlot sub, s, h => execTransmissionSlot_memOk sub s h
  | .gateListTakeEffect sub, s, h => execGateListTakeEffect_memOk sub s h
  | .samplerInterval sampler, s, h => execSamplerInterval_memOk sampler s h
  | .grtSqTail wq index slots, s, h => execGrtSqTail_memOk wq index slots s h
  | .grtCqHead wq index, s, h => execGrtCqHead_memOk wq index s h
  | .grtWrite wq wr data, s, h => execGrtWrite_memOk wq wr data s h
  | .grtWriteNotify wq wr data, s, h => execGrtWriteNotify_memOk wq wr data s h
  | .grtRead wq wr data, s, h => execGrtRead_memOk wq wr data s h
  | .ctrAdd wq wr, s, h => execCtrAdd_memOk wq wr s h
  | .grtNop wq wr, s, h => execGrtNop_memOk wq wr s h
  | .triggerFire wq, s, h => execTriggerFire_memOk wq s h
  | .grtRxWrite pkt tagOk refused, s, h => execGrtRxWrite_memOk pkt tagOk refused s h
  | .grtRxReadReq pkt data, s, h => execGrtRxReadReq_memOk pkt data s h
  | .grtRxReadResp pkt tagOk, s, h => execGrtRxReadResp_memOk pkt tagOk s h
  | .grtRxAck pkt, s, h => execGrtRxAck_memOk pkt s h
  | .grtRxNak pkt, s, h => execGrtRxNak_memOk pkt s h
  | .grtRxHello pkt, s, h => execGrtRxHello_memOk pkt s h
  | .grtRxClose pkt, s, h => execGrtRxClose_memOk pkt s h
  | .helloRetry conn, s, h => execHelloRetry_memOk conn s h
  | .connectingTimeout conn, s, h => execConnectingTimeout_memOk conn s h
  | .ackDelayExpiry conn, s, h => execAckDelayExpiry_memOk conn s h
  | .retransmitTimeout conn psn, s, h => execRetransmitTimeout_memOk conn psn s h
  | .retryAfterExpiry conn psn, s, h => execRetryAfterExpiry_memOk conn psn s h
  | .pathExclusionExpiry conn path, s, h => execPathExclusionExpiry_memOk conn path s h
  | .persistDurable conn msn ok, s, h => execPersistDurable_memOk conn msn ok s h
  | .revocationDrained rkey, s, h => execRevocationDrained_memOk rkey s h
  | .flr fn, s, h => execFlr_memOk fn s h
  | .perstN hostPort asserted, s, h => execPerstN_memOk hostPort asserted s h
  | .secondaryBusReset block link, s, h => execSecondaryBusReset_memOk block link s h
  | .acceleratorLinkReset block link, s, h => execAcceleratorLinkReset_memOk block link s h
  | .linkTraining block link width speed flit reversed polarity, s, h => execLinkTraining_memOk block link width speed flit reversed polarity s h
  | .numvfsWrite fn count, s, h => execNumvfsWrite_memOk fn count s h
  | .vfEnable fn enable, s, h => execVfEnable_memOk fn enable s h
  | .dStateChange fn state pme, s, h => execDStateChange_memOk fn state pme s h
  | .wakeEvent fn kind, s, h => execWakeEvent_memOk fn kind s h
  | .apertureAccess hostPort offset length write faults, s, h => execApertureAccess_memOk hostPort offset length write faults s h
  | .windowAccess hostPort offset width write, s, h => execWindowAccess_memOk hostPort offset width write s h
  | .aptWrite hostPort entry value, s, h => execAptWrite_memOk hostPort entry value s h
  | .queueRegionAccess hostPort offset length write, s, h => execQueueRegionAccess_memOk hostPort offset length write s h
  | .ideTlpRx hp stream tlps macOk, s, h => execIdeTlpRx_memOk hp stream tlps macOk s h
  | .spdmGetVersion mailbox peer, s, h => execSpdmGetVersion_memOk mailbox peer s h
  | .spdmGetCapabilities mailbox peer version, s, h => execSpdmGetCapabilities_memOk mailbox peer version s h
  | .spdmNegotiateAlgorithms mailbox peer agreed, s, h => execSpdmNegotiateAlgorithms_memOk mailbox peer agreed s h
  | .spdmGetDigests mailbox peer, s, h => execSpdmGetDigests_memOk mailbox peer s h
  | .spdmGetCertificate mailbox peer slot offset length, s, h => execSpdmGetCertificate_memOk mailbox peer slot offset length s h
  | .spdmChallenge mailbox peer slot nonce, s, h => execSpdmChallenge_memOk mailbox peer slot nonce s h
  | .spdmGetMeasurements mailbox peer index signed nonce, s, h => execSpdmGetMeasurements_memOk mailbox peer index signed nonce s h
  | .spdmKeyExchange mailbox peer slot exchange, s, h => execSpdmKeyExchange_memOk mailbox peer slot exchange s h
  | .spdmFinish mailbox peer session verified, s, h => execSpdmFinish_memOk mailbox peer session verified s h
  | .spdmKeyUpdate mailbox peer session operation, s, h => execSpdmKeyUpdate_memOk mailbox peer session operation s h
  | .spdmHeartbeat mailbox peer session, s, h => execSpdmHeartbeat_memOk mailbox peer session s h
  | .spdmEndSession mailbox peer session, s, h => execSpdmEndSession_memOk mailbox peer session s h
  | .ideKm mailbox peer session stream message key, s, h => execIdeKm_memOk mailbox peer session stream message key s h
  | .alarm source, s, h => execAlarm_memOk source s h
  | .sealedCopiesErased, s, h => execSealedCopiesErased_memOk s h
  | .cxAlarmClear who value, s, h => execCxAlarmClear_memOk who value s h
  | .errAckAck who block seq, s, h => execErrAckAck_memOk who block seq s h
  | .errAckClear who block seq withAck, s, h => execErrAckClear_memOk who block seq withAck s h
  | .isolatedBlockReturn block, s, h => execIsolatedBlockReturn_memOk block s h
  | .escalationTimerExpiry block, s, h => execEscalationTimerExpiry_memOk block s h
  | .cntSelWrite who block counter value, s, h => execCntSelWrite_memOk who block counter value s h
  | .unmappedAccess access isCsr isWrite, s, h => execUnmappedAccess_memOk access isCsr isWrite s h
  | .csrWrite who target value, s, h => execCsrWrite_memOk who target value s h
  | .coldReset kind straps densities untrained cxl aonKept stewardOk, s, h => execColdReset_memOk kind straps densities untrained cxl aonKept stewardOk s h
  | .warmReset kind stewardOk, s, h => execWarmReset_memOk kind stewardOk s h
  | .imageVerified network, s, h => execImageVerified_memOk network s h
  | .networkFetchTimeout, s, h => execNetworkFetchTimeout_memOk s h
  | .startComplete, s, h => execStartComplete_memOk s h
  | .startWatchdogExpiry, s, h => execStartWatchdogExpiry_memOk s h
  | .glStartCtlWrite who value, s, h => execGlStartCtlWrite_memOk who value s h
  | .packagePowerLoop milliwatts temps, s, h => execPackagePowerLoop_memOk milliwatts temps s h
  | .temperatureLoop temps, s, h => execTemperatureLoop_memOk temps s h
  | .dvfsGovernor island occupancy, s, h => execDvfsGovernor_memOk island occupancy s h
  | .thermalThrottle island, s, h => execThermalThrottle_memOk island s h
  | .thermalTrip island, s, h => execThermalTrip_memOk island s h
  | .currentLimiterEngage, s, h => execCurrentLimiterEngage_memOk s h
  | .currentLimiterRelease, s, h => execCurrentLimiterRelease_memOk s h
  | .fallbackGovernorTakeover, s, h => execFallbackGovernorTakeover_memOk s h
  | .fallbackGovernorTick milliwatts, s, h => execFallbackGovernorTick_memOk milliwatts s h
  | .diodeRead millivolts temp, s, h => execDiodeRead_memOk millivolts temp s h
  | .throttleN asserted, s, h => execThrottleN_memOk asserted s h
  | .standbyEntry, s, h => execStandbyEntry_memOk s h
  | .inputChange input active, s, h => execInputChange_memOk input active s h
  | .inputRateReread input active, s, h => execInputRateReread_memOk input active s h
  | .inputStuck input, s, h => execInputStuck_memOk input s h
  | .inputUnstuck input, s, h => execInputUnstuck_memOk input s h
  | .tamperN asserted, s, h => execTamperN_memOk asserted s h
  | .padContention group, s, h => execPadContention_memOk group s h
  | .pwrOkFall, s, h => execPwrOkFall_memOk s h
  | .icpRingEnable fn, s, h => execIcpRingEnable_memOk fn s h
  | .undefinedEncoding th word, s, h => execUndefinedEncoding_memOk th word s h
  | .fetchFault th, s, h => execFetchFault_memOk th s h
  | .journalSsdFailed ssd, s, h => execJournalSsdFailed_memOk ssd s h
  | .journalSsdReturn ssd, s, h => execJournalSsdReturn_memOk ssd s h
  | .referenceClockLost island, s, h => execReferenceClockLost_memOk island s h
  | .railOutOfRange rail millivolts, s, h => execRailOutOfRange_memOk rail millivolts s h
  | .stewardCoreFailed core, s, h => execStewardCoreFailed_memOk core s h
  | .faultNMinimumHoldExpiry, s, h => execFaultNMinimumHoldExpiry_memOk s h
  | .interruptCoalescingExpiry fn vector, s, h => execInterruptCoalescingExpiry_memOk fn vector s h
  | .rocev2Cnp conn, s, h => execRocev2Cnp_memOk conn s h
  | .liveActivationResume, s, h => execLiveActivationResume_memOk s h
  | .flrComplete fn, s, h => execFlrComplete_memOk fn s h
  | .diagRunEnd outcomes, s, h => execDiagRunEnd_memOk outcomes s h
  | .hardwareThrottleStep island below98, s, h => execHardwareThrottleStep_memOk island below98 s h
  | .inputGlitch input, s, h => execInputGlitch_memOk input s h

/-- So does a step: the command at the front of the queue, or a tick. -/
theorem step_memOk {s : State} (h : memOk s) : OutOk (step s) := by
  unfold step
  split
  · exact OutOk.mk (tick_memOk s h)
  · exact exec_memOk _ _ h

theorem memOk_of_next {r : Host.Outcome State Fault Refusal} {t : State} (e : r = .next t) (h : OutOk r) : memOk t := by
  subst e
  exact h

/-- Settles O60: each command by the law of its own meaning (`exec_memOk`), a step by those and the tick's, and the last part because a memory in
canonical form lists exactly the addresses that do not read as an unlisted one, in rising order. -/
theorem everyStepKeepsMemoryCanonical : Obligations.EveryStepKeepsMemoryCanonical :=
  ⟨fun _ _ hs he => memOk_of_next he (step_memOk hs), fun c s _ hs he => memOk_of_next he (exec_memOk c s hs),
    fun _ _ hm hm' he => Memory.eq_of_memGet_eq hm hm' he⟩

end Sys2Proof.Machine
end

section
/-! The guarded registers (R136, R343, R617, R681): CE_ABORT_REQ, MC_FENCE_REQ, CX_ALARM and GL_START_CTL, written by PF0 and the steward cores and by
others. -/

namespace Sys2Proof.Machine

open Sys2Proof

section
variable {who : Requester}

/-! ### Writes of others -/

theorem ceAbortReq_untrusted (h : trusted who = false) (v : CsrWord) (s : State) :
    exec (.ceAbortReq who v) s = .next (countUnmapped (blkBase blkCourse + 0x128) s) := congrArg _ (if_pos (by simp [h]))

theorem cxAlarmClear_untrusted (h : trusted who = false) (v : CsrWord) (s : State) :
    exec (.cxAlarmClear who v) s = .next (countUnmapped (blkBase blkCipher + 0x108) s) := congrArg _ (if_pos (by simp [h]))

theorem glStartCtlWrite_untrusted (h : trusted who = false) (v : CsrWord) (s : State) :
    exec (.glStartCtlWrite who v) s = .next (countUnmapped (blkBase blkGlobal + 0x108) s) := congrArg _ (if_pos (by simp [h]))

theorem blkBase_blkMc {mc : Nat} (h : mc < 6) : blkBase (blkMc mc) = 0x3000000 + mc * 0x100000 := by
  have h1 : ¬ 19 + mc = 0 ∧ ¬ 19 + mc = 1 ∧ ¬ 19 + mc ≤ 18 ∧ 19 + mc ≤ 24 := by omega
  simp only [blkBase, blkMc, h1, if_true, if_false]
  omega

theorem mcFenceReq_untrusted (h : trusted who = false) {mc : Nat} (hm : mc < 6) (mask : Nat) (s : State) :
    exec (.mcFenceReq who mc mask) s = .next (countUnmapped (blkBase (blkMc mc) + 0x110) s) :=
  congrArg _ ((if_neg (by omega)).trans (if_pos (by simp [h])))

/-! ### Writes of PF0 and the steward cores -/

variable (h : trusted who = true)
include h

theorem ceAbortReq_aborts {v : CsrWord} {s : State} (hv : v.toNat.testBit 0 = true) (hr : fenceRoot s = true) (hc : courseLive s = true) :
    exec (.ceAbortReq who v) s = .next (settle (abortCourse 0x010B s)) :=
  congrArg _ ((if_neg (by simp [h])).trans (if_pos (by simp [hv, hr, hc])))

theorem mcFenceReq_fences {mc : Nat} (hm : mc < 6) (mask : Nat) (s : State) : exec (.mcFenceReq who mc mask) s =
    .next (settle ((List.range 16).foldl (fun s c => if mask.testBit c then fenceChannel mc c 3 s else s) s)) :=
  congrArg _ ((if_neg (by omega)).trans (if_neg (by simp [h])))

/-- GL_START_CTL holds the threshold written, from 1 to 7 (R665). -/
theorem glStartCtlWrite_threshold (v : CsrWord) (s : State) :
    ∃ t, exec (.glStartCtlWrite who v) s = .next t ∧ cell t blkGlobal 0x108 = clampN 1 7 (v.toNat % 8) := by
  have hlt : clampN 1 7 (v.toNat % 8) < 2 ^ 32 := (clampN_le (by decide) _).trans_lt (by decide)
  have he : startCtl who v.toNat s = bootWrite (fun r => { r with threshold := clampN 1 7 (v.toNat % 8) })
      (setCell blkGlobal 0x108 (clampN 1 7 (v.toNat % 8)) s) := if_neg (by simp [h])
  exact ⟨_, congrArg Host.Outcome.next he, (cell_setCell_same ..).trans (Nat.mod_eq_of_lt hlt)⟩

end

/-- The powers of two that a predicate takes of those below 2 ^ n add up to less than 2 ^ n. -/
theorem sum_two_pow_lt (p : Nat → Bool) (n : Nat) : ((List.range n).map (fun i => if p i then 2 ^ i else 0)).sum < 2 ^ n := by
  induction n with
  | zero => simp
  | succ n ih =>
    rw [List.range_succ, List.map_append, List.sum_append, List.map_singleton, List.sum_singleton, Nat.pow_succ]
    split <;> omega

/-- Their sum has the predicate for its bits. -/
theorem testBit_sum_two_pow (p : Nat → Bool) (n k : Nat) :
    (((List.range n).map (fun i => if p i then 2 ^ i else 0)).sum).testBit k = (decide (k < n) && p k) := by
  induction n with
  | zero => simp
  | succ n ih =>
    have hlast : (if p n then 2 ^ n else 0) = 2 ^ n * (p n).toNat := by cases p n <;> simp
    rw [List.range_succ, List.map_append, List.sum_append, List.map_singleton, List.sum_singleton, hlast, Nat.add_comm,
      Nat.testBit_two_pow_mul_add _ (sum_two_pow_lt p n), ih]
    rcases Nat.lt_trichotomy k n with hk | rfl | hk
    · simp [hk, hk.trans (Nat.lt_succ_self n)]
    · cases p k <;> simp
    · have hbit : (p n).toNat.testBit (k - n) = false :=
        Nat.testBit_lt_two_pow ((Bool.toNat_lt (p n)).trans_le (Nat.pow_le_pow_right (n := 2) (by decide) (by omega : 1 ≤ k - n)))
      simp [hk.not_gt, hk.not_ge, hbit]

/-- The identity keys that follow leave the alarms. -/
@[simp] theorem deriveIdentity_alarm (s : State) : (deriveIdentity s).sec.alarm = s.sec.alarm := by
  unfold deriveIdentity
  split <;> rfl

/-- A write of CX_ALARM clears the bits written with 1, but TAMPER while its input is asserted (R617). -/
theorem cxAlarmClear_clears {who : Requester} (h : trusted who = true) (v : CsrWord) (s : State) : ∃ t, exec (.cxAlarmClear who v) s = .next t ∧
    ∀ k < 5, t.sec.alarm.testBit k = (s.sec.alarm.testBit k && (!v.toNat.testBit k || (k == 0 && (tamperInput s).active))) := by
  refine ⟨_, congrArg Host.Outcome.next (if_neg (by simp [h])), fun k hk => ?_⟩
  rw [deriveIdentity_alarm, State.setSec_sec, testBit_sum_two_pow]
  simp [hk]

/-- Settles O36: each register by what its row does for others and for PF0 and the steward cores. -/
theorem guardedWritesAreIgnoredFromOthers : Obligations.GuardedWritesAreIgnoredFromOthers := by
  unfold Obligations.GuardedWritesAreIgnoredFromOthers
  refine ⟨fun who v s h => ⟨ceAbortReq_untrusted h v s, cxAlarmClear_untrusted h v s, glStartCtlWrite_untrusted h v s⟩,
    fun who mc mask s h hm => ?_, fun a s => ⟨rfl, rfl⟩, fun who v s h => ⟨ceAbortReq_aborts h, glStartCtlWrite_threshold h v s⟩,
    fun who mc mask s h hm => mcFenceReq_fences h hm mask s, fun who v s h => cxAlarmClear_clears h v s⟩
  rw [mcFenceReq_untrusted h hm, blkBase_blkMc hm]

end Sys2Proof.Machine
end

section
/-! The part right after cold reset (R134, R135, R196, R621, R635, R637, R665, R680; log 6). -/

namespace Sys2Proof.Machine

open Sys2Proof

/-- No header is listed, so each is at its first value, which shows no error (R621). -/
theorem errOf_reset (b : Nat) : errOf State.reset b = {} := rfl

/-- Every block answers its first register with its island and its number (R620, R621). -/
theorem csrRead_reset_ident : ∀ b ≤ 60, csrRead State.reset (blkBase b) = blkIsland b * 2 ^ 24 + b := by decide

/-- The retrain and scrub registers of the memory controllers (R134). -/
theorem csrRead_reset_mc : ∀ n < 6, csrRead State.reset (blkBase (blkMc n) + 0x10C) = 4 ∧
    csrRead State.reset (blkBase (blkMc n) + 0x114) = 0x80000018 := by decide

/-- The scheduling register of the clusters (R196). -/
theorem csrRead_reset_cluster : ∀ p < 17, csrRead State.reset (blkBase (blkCluster p) + 0x128) = 256 := by decide

/-- Settles O59: the reset state lists nothing but the six PFs, so each value is the default that its declaration or
`cellReset` names. -/
theorem resetHoldsTheStatedValues : Obligations.ResetHoldsTheStatedValues := by
  unfold Obligations.ResetHoldsTheStatedValues
  refine ⟨rfl, Memory.wf_nil, rfl, fun _ => rfl, fun b => ⟨rfl, rfl, rfl, rfl, ?_⟩, fun _ _ => ⟨rfl, rfl⟩, by decide, by decide, by decide, by decide,
    csrRead_reset_mc, csrRead_reset_cluster, by decide, csrRead_reset_ident, rfl, rfl, rfl, rfl, rfl, rfl, rfl, by decide, by decide⟩
  rw [errOf_reset]
  simp [errOk]

end Sys2Proof.Machine
end

section
/-! What the model refutes of the statements about a thread's loads and stores (R113, R120, R142, R165), each by one state that the model runs: a load from
a line behind a fenced channel, and a store into a memory that is not in its canonical form. -/

namespace Sys2Proof.Machine

open Sys2Proof

/-! ### A thread that runs an item -/

/-- A kernel with its 64 bytes of code in frame 0 and 64 bytes of scratch for each core. -/
def loadedKernel : Kernel := { handle := 1, owner := 0, frames := [0], codeLen := 64, clusters := [0], slots := [0], perCore := 64 }

/-- Thread 0 at the start of the only item of that kernel's only job. -/
def firstItem : TCtx :=
  { th := 0, t := { job := 0, item := 0 }, ki := 0, k := loadedKernel,
    j := { id := 0, kernel := 0, origin := .desc 0 0, items := 1, step := 0, args := [], buffers := [], client := 0 } }

/-- A part whose only channel of GDDR7 is 0, on which that thread runs. -/
def runningItem : State :=
  let s := State.reset.setBoot { State.reset.boot with inReset := false, stage := 3 }
  let s := s.setMason { s.mason with
    units := [(0, { active := 0xFFFF, logical := 0, spare := 16, cores := List.range 16 })], kernels := [(0, loadedKernel)],
    jobs := [firstItem.j], threads := [(0, firstItem.t)] }
  s.setMem { s.mem with channels := [0], hotTotal := 16, hotNext := 1, extents := [{ first := 0, count := 1, use := .kernel 0 }] }

/-! ### Code behind a fenced channel -/

/-- The part once the steward cores have fenced the channel of the code (R136); the thread runs on. -/
def fencedItem : State := mcFenceReq .steward 0 1 runningItem

/-- The context is that of the thread as it runs there. -/
theorem fencedItem_tctx : tctx fencedItem 0 = some firstItem := by decide +kernel

/-- The code that the load names, by DPA. -/
theorem fencedItem_code : resolve fencedItem firstItem 0 8 0 = some (.mem (List.range 8)) := rfl

/-- The code's frame is retired, so its lines report poison (R113), though the list of lines with the poison pattern is empty, no block is isolated
and no channel retrains. -/
theorem fencedItem_line : retired fencedItem 0 = true ∧
    (∀ a ∈ List.range 8, ¬ (lineOf a ∈ fencedItem.mem.poison ∨ isolated fencedItem (lineBlock fencedItem a) = true)) ∧
    ∀ a ∈ List.range 8, channelHeld fencedItem a = false := by decide +kernel

theorem fencedItem_load : loadMem firstItem 0 8 [] false fencedItem = .fault fkPoison fencedItem := by
  obtain ⟨hret, -, -⟩ := fencedItem_line
  have hfail : (List.range 8).any (lineFails fencedItem) = true :=
    List.any_eq_true.2 ⟨0, by decide, by simp [lineFails, poisoned, hret]⟩
  rw [loadMem, fencedItem_code]
  exact if_pos hfail

/-- Refutes O8: a load of code whose channel has been fenced faults with POISON (R113), as a line behind a fenced channel reports poison; the statement
lets a load from W0 fault only where a line is listed as poisoned or its block is isolated, and lets any other go on. -/
theorem not_loadsReturnWhatTheirTargetHolds : ¬ Obligations.LoadsReturnWhatTheirTargetHolds := by
  unfold Obligations.LoadsReturnWhatTheirTargetHolds
  rintro ⟨-, h, -⟩
  obtain ⟨-, -, -, hmem⟩ := h fencedItem firstItem 0 8 [] false
  obtain ⟨-, -, hgoes⟩ := hmem (List.range 8) fencedItem_code
  obtain ⟨-, hfine, hopen⟩ := fencedItem_line
  obtain ⟨bs, s', hok, -⟩ := hgoes hfine hopen
  cases fencedItem_load.symm.trans hok

/-! ### A store into a memory out of its canonical form -/

/-- The address that the scratch of core 0 begins at. -/
def scratchStart : Nat := scratchDpa 0

/-- The part with a memory whose cells are out of order: a byte 7 at the start of scratch, listed behind the byte after it. -/
def unsortedItem : State := runningItem.setMem { runningItem.mem with cells := [(scratchStart + 1, 1), (scratchStart, 7)] }

/-- The start of W2. -/
def scratchWindow : SReg := 0x2000000000000000

theorem unsortedItem_scratch : resolve unsortedItem firstItem scratchWindow 1 1 = some (.scratch scratchStart) := rfl

/-- A zero stored at the start of scratch lists nothing, as nothing stands at that place of the list, and the old byte is read on. -/
theorem unsortedItem_store : storeMem firstItem scratchWindow [0] false unsortedItem = .ok () (storeScratch scratchStart [0] unsortedItem) ∧
    memGet (storeScratch scratchStart [0] unsortedItem).mem.cells scratchStart = 7 := ⟨rfl, by decide⟩

/-- Refutes O10: the statement ranges over states whose memory is not in the canonical form that every step keeps (O60), where a store need not be read
back: the byte 0 stored at the start of scratch leaves a byte 7 that stands out of order. -/
theorem not_storesChangeOnlyTheirBytes : ¬ Obligations.StoresChangeOnlyTheirBytes := by
  unfold Obligations.StoresChangeOnlyTheirBytes
  rintro ⟨-, h, -⟩
  obtain ⟨s', hok, hread, -⟩ := h unsortedItem firstItem scratchWindow [0] false scratchStart unsortedItem_scratch
  obtain ⟨hstore, hold⟩ := unsortedItem_store
  obtain rfl : storeScratch scratchStart [0] unsortedItem = s' := by injection hstore.symm.trans hok
  exact absurd (hold.symm.trans (hread 0 (by decide))) (by decide)

end Sys2Proof.Machine
end

section
/-! Failures of a core and the sparing out of cores and clusters (R141, R142, R180, R186 to R197): what each leaves of memory, threads and units, and
what it records. -/

namespace Sys2Proof.Machine

open Sys2Proof

/-! ### What recording leaves -/

theorem blkBase_blkCluster {p : Nat} (h : p < 17) : blkBase (blkCluster p) = 0x1000000 + p * 0x100000 := by
  have h1 : ¬ 2 + p = 0 ∧ ¬ 2 + p = 1 ∧ 2 + p ≤ 18 := by omega
  simp only [blkBase, blkCluster, h1, if_true, if_false]
  omega

/-- A register of a cluster's block is no port block's counter of dropped requests. -/
theorem noDropCounter_cluster {p rel : Nat} (h : p < 17) (hr : rel < 0x100000) : noDropCounter (blkCluster p) rel := by
  intro n hn
  rw [blkBase_blkPb hn, blkBase_blkCluster h]
  omega

/-- An error that a cluster's block records beside a counter of its own: the counter has risen by one. -/
theorem cell_noteErr_bump {p rel : Nat} (h : p < 17) (hr : rel < 0x100000) (b cls src : Nat) (info : List Nat) {x s : State} (hx : x.csr = s.csr) :
    cell (noteErr b cls src info (bump (blkCluster p) rel x)) (blkCluster p) rel = (cell s (blkCluster p) rel + 1) % 2 ^ 32 := by
  obtain ⟨-, hc⟩ := noteErr_frame b cls src info (bump (blkCluster p) rel x)
  rw [hc _ _ (noDropCounter_cluster h hr), cell_bump_same, cell_congr hx]

/-- The CON of a core that fails: that of a sparing event while a spare core remains (R194). -/
def coreCon (p : Nat) (info : List Nat) (s : State) : State :=
  (if (unitOf s p).spare = 31 then recordCon else sparingCon) (blkCluster p) 0x0101 info s

/-- But for the mark of a sparing event, it is an error recorded like any other. -/
theorem coreCon_eq (p : Nat) (info : List Nat) (s : State) :
    ∃ e, coreCon p info s = (noteErr (blkCluster p) 2 0x0101 info s).setErr e := by
  unfold coreCon
  split
  · exact ⟨_, rfl⟩
  · exact ⟨_, rfl⟩

theorem recorded_coreCon (p : Nat) (info : List Nat) (s : State) : Recorded s (coreCon p info s) (blkCluster p) 2 0x0101 info := by
  unfold coreCon
  split
  · exact recorded_noteErr ..
  · exact (recorded_noteErr ..).setErr_sparing

/-- An acknowledgement changes error headers alone. -/
theorem ackSpare_eq (b : Nat) (s : State) : ∃ e, ackSpare b s = s.setErr e := by
  unfold ackSpare
  exact iteInduction (motive := fun x => ∃ e, x = s.setErr e) (fun _ => ⟨_, rfl⟩) (fun _ => ⟨s.err, rfl⟩)

/-! ### Cores that stop -/

/-- A slot used changes the counts of slots alone. -/
theorem slotUsed_frame (vec wasted : Bool) (th : Nat) (s : State) :
    let y := slotUsed vec wasted th s
    y.err = s.err ∧ y.time = s.time ∧ y.csr = s.csr ∧ y.mem = s.mem ∧ y.mason = { s.mason with slots := y.mason.slots } := by
  unfold slotUsed
  split
  · exact ⟨rfl, rfl, rfl, rfl, rfl⟩
  · split <;> exact ⟨rfl, rfl, rfl, rfl, rfl⟩

/-- A core that stops joins the cores that stop, if it is not one of them already. -/
theorem stopCore_eq (p c : Nat) (s : State) : ∃ l, stopCore p c s = s.setMason { s.mason with stopping := l } ∧
    ∀ x, x ∈ l ↔ x ∈ s.mason.stopping ∨ x = (p, c) := by
  unfold stopCore
  split
  next h =>
    have hin : (p, c) ∈ s.mason.stopping := by simpa using h
    exact ⟨s.mason.stopping, rfl, fun x => ⟨.inl, fun hx => hx.elim id (fun e => e ▸ hin)⟩⟩
  next => exact ⟨_, rfl, fun x => by simp⟩

/-! ### Residue mismatches and parity faults (R186, R188, R189) -/

section
variable {s : State} {th p core : Nat} {c : TCtx} (hc : tctx s th = some c) (hp : physOf s th = some (p, core))
include hc hp

theorem residueMismatch_passed : exec (.residueMismatch th false) s =
    .next (recordCor (blkCluster p) 0x0100 [core, th % 64] (bump (blkCluster p) 0x110 (slotUsed (nextIsVector s c) true th s))) := by
  change execResidueMismatch th false s = _
  simp only [execResidueMismatch, hc, hp]
  rfl

theorem residueMismatch_third : exec (.residueMismatch th true) s =
    .next (stopCore p core (coreCon p [core, th % 64] (bump (blkCluster p) 0x114 (slotUsed (nextIsVector s c) true th s)))) := by
  change execResidueMismatch th true s = _
  simp only [execResidueMismatch, hc, hp]
  rfl

theorem residueMismatch_passed_records (h : p < 17) : ∃ t, exec (.residueMismatch th false) s = .next t ∧
    Recorded s t (blkCluster p) 1 0x0100 [core, th % 64] ∧ cell t (blkCluster p) 0x110 = (cell s (blkCluster p) 0x110 + 1) % 2 ^ 32 ∧
    t.mason = (slotUsed (nextIsVector s c) true th s).mason ∧ t.mason = { s.mason with slots := t.mason.slots } ∧ t.mem = s.mem := by
  obtain ⟨herr, htime, hcsr, hmem, hmason⟩ := slotUsed_frame (nextIsVector s c) true th s
  refine ⟨_, residueMismatch_passed hc hp, (recorded_noteErr ..).of_same herr htime, cell_noteErr_bump h (by decide) _ _ _ _ hcsr, noteErr_mason .., ?_,
    (noteErr_mem ..).trans hmem⟩
  rw [recordCor, noteErr_mason]
  exact hmason

theorem residueMismatch_third_stops (h : p < 17) : ∃ t, exec (.residueMismatch th true) s = .next t ∧
    Recorded s t (blkCluster p) 2 0x0101 [core, th % 64] ∧ cell t (blkCluster p) 0x114 = (cell s (blkCluster p) 0x114 + 1) % 2 ^ 32 ∧
    (p, core) ∈ t.mason.stopping ∧ (∀ x, x ∈ t.mason.stopping ↔ x ∈ s.mason.stopping ∨ x = (p, core)) ∧
    t.mason.threads = s.mason.threads ∧ t.mem = s.mem := by
  obtain ⟨herr, htime, hcsr, hmem, hmason⟩ := slotUsed_frame (nextIsVector s c) true th s
  let y := bump (blkCluster p) 0x114 (slotUsed (nextIsVector s c) true th s)
  let x := coreCon p [core, th % 64] y
  obtain ⟨e, he⟩ := coreCon_eq p [core, th % 64] y
  obtain ⟨l, hl, hin⟩ := stopCore_eq p core x
  have hx : x.mason = (slotUsed (nextIsVector s c) true th s).mason ∧ x.mem = y.mem ∧ x.csr = (noteErr (blkCluster p) 2 0x0101 [core, th % 64] y).csr := by
    rw [show x = _ from he]
    exact ⟨noteErr_mason .., noteErr_mem .., rfl⟩
  obtain ⟨hxmason, hxmem, hxcsr⟩ := hx
  have hstop : ∀ z, z ∈ l ↔ z ∈ s.mason.stopping ∨ z = (p, core) := by
    rw [hxmason, hmason] at hin
    exact hin
  have hrec : Recorded s x (blkCluster p) 2 0x0101 [core, th % 64] := (recorded_coreCon ..).of_same herr htime
  refine ⟨_, (residueMismatch_third hc hp).trans (congrArg _ hl), hrec.congr rfl, (cell_congr hxcsr ..).trans ?_, (hstop _).2 (.inr rfl), hstop, ?_,
    hxmem.trans hmem⟩
  · exact cell_noteErr_bump h (by decide) _ _ _ _ hcsr
  · exact (congrArg Mason.threads (hxmason.trans hmason) :)

/-- The item of a thread whose register fails parity ends, and the core stops where a fault of it lies within the second before (R180, R189). -/
theorem registerParityFault_ends :
    let b := blkCluster p
    let seen := s.setMason { s.mason with parityFails := put s.mason.parityFails (p * 32 + core) (now s (blkIsland b)) }
    ((∃ e ∈ s.mason.parityFails, e.1 = p * 32 + core ∧ now s (blkIsland b) ≤ e.2 + 1000000000) →
      exec (.registerParityFault th) s = .next (endItem c (some fkParity) (stopCore p core seen))) ∧
    ((∀ e ∈ s.mason.parityFails, e.1 = p * 32 + core → e.2 + 1000000000 < now s (blkIsland b)) →
      exec (.registerParityFault th) s = .next (endItem c (some fkParity) seen)) := by
  intro b seen
  have he : exec (.registerParityFault th) s = .next (endItem c (some fkParity)
      (if s.mason.parityFails.any (fun e => e.1 == p * 32 + core && decide (now s (blkIsland b) ≤ e.2 + 1000000000))
        then stopCore p core seen else seen)) := by
    change execRegisterParityFault th s = _
    simp only [execRegisterParityFault, hc, hp]
    rfl
  rw [he]
  constructor
  · rintro ⟨e, hin, hk, ht⟩
    rw [if_pos (List.any_eq_true.2 ⟨e, hin, by simp [hk, ht]⟩)]
  · intro hnone
    rw [if_neg]
    rw [List.any_eq_true]
    rintro ⟨e, hin, hk⟩
    simp only [Bool.and_eq_true, beq_iff_eq, decide_eq_true_eq] at hk
    exact absurd hk.2 (Nat.not_le.2 (hnone e hin hk.1))

end

/-! ### L1 lines fetched again -/

theorem l1ParityRefetch_records {s : State} {cluster core k : Nat} (line : Nat) (instruction : Bool) (h : cluster < 17)
    (hk : logicalCore s cluster core = some k) :
    ∃ t i0 i1, exec (.l1ParityRefetch cluster core line instruction) s = .next t ∧ Recorded s t (blkCluster cluster) 1 2 [i0, i1] ∧
      cell t (blkCluster cluster) 0x118 = (cell s (blkCluster cluster) 0x118 + 1) % 2 ^ 32 ∧ t.mem = s.mem ∧
      (instruction = true → t.mason = s.mason) ∧ (instruction = false → look (l1Of t k) (lineOf line) = none) := by
  let x := if instruction then drawn (drawn s) else l1Drop k (lineOf line) (drawn (drawn s))
  have hx : x.err = s.err ∧ x.time = s.time ∧ x.csr = s.csr ∧ x.mem = s.mem := by
    cases instruction <;> exact ⟨rfl, rfl, rfl, rfl⟩
  obtain ⟨herr, htime, hcsr, hmem⟩ := hx
  have he : exec (.l1ParityRefetch cluster core line instruction) s = .next (recordCor (blkCluster cluster) 2
      [Config.freeNat s.draw, Config.freeNat (s.draw + 1)] (bump (blkCluster cluster) 0x118 x)) := by
    change execL1ParityRefetch cluster core line instruction s = _
    simp only [execL1ParityRefetch, hk]
    rfl
  refine ⟨_, _, _, he, (recorded_noteErr ..).of_same herr htime, cell_noteErr_bump h (by decide) _ _ _ _ hcsr, (noteErr_mem ..).trans hmem, ?_, ?_⟩
  · rintro rfl
    exact noteErr_mason ..
  · rintro rfl
    rw [l1Of, recordCor, noteErr_mason]
    exact (congrArg (look · _) (lookD_put_same ..)).trans (look_del_same ..)

/-! ### CL_SPARE_REQ (R190, R196) -/

/-- A mask with one bit names one core. -/
theorem filter_testBit_two_pow : ∀ p < 17, (List.range 17).filter (fun c => (BitVec.ofNat 17 (2 ^ p)).toNat.testBit c) = [p] := by decide

theorem stoppingIn_eq_zero {s : State} {p : Nat} : stoppingIn s p = 0 ↔ ∀ x ∈ s.mason.stopping, x.1 ≠ p := by
  simp [stoppingIn, List.filter_eq_nil_iff]

section
variable {s : State} {who : Requester} {cluster p : Nat} (hcl : cluster ≤ 16) (hp : p < 17)
include hcl hp

theorem clSpareReq_trusted (ht : trusted who = true) : exec (.clSpareReq who cluster (BitVec.ofNat 17 (2 ^ p))) s =
    .next (if (unitOf s cluster).active.testBit p && (unitOf s cluster).spare != 31 && stoppingIn s cluster == 0 then stopCore cluster p s
      else countUnmapped (blkBase (blkCluster cluster) + 0x11C) s) := by
  refine congrArg Host.Outcome.next ((if_neg (by simp [ht, hcl])).trans ?_)
  rw [filter_testBit_two_pow p hp]
  rfl

theorem clSpareReq_stops (ht : trusted who = true) (ha : (unitOf s cluster).active.testBit p = true) (hs : (unitOf s cluster).spare ≠ 31)
    (hn : ∀ x ∈ s.mason.stopping, x.1 ≠ cluster) :
    ∃ t, exec (.clSpareReq who cluster (BitVec.ofNat 17 (2 ^ p))) s = .next t ∧ t.mason.stopping = s.mason.stopping ++ [(cluster, p)] ∧
      t.mason.units = s.mason.units ∧ t.mem = s.mem ∧ t.csr = s.csr := by
  have hout : ¬ s.mason.stopping.contains (cluster, p) = true := fun h => hn (cluster, p) (by simpa using h) rfl
  refine ⟨_, (clSpareReq_trusted hcl hp ht).trans (congrArg _ ((if_pos ?_).trans (if_neg hout))), rfl, rfl, rfl, rfl⟩
  simp [ha, hs, stoppingIn_eq_zero.2 hn]

theorem clSpareReq_counted (h : trusted who = false ∨ (unitOf s cluster).active.testBit p = false ∨ (unitOf s cluster).spare = 31 ∨
    ∃ x ∈ s.mason.stopping, x.1 = cluster) :
    exec (.clSpareReq who cluster (BitVec.ofNat 17 (2 ^ p))) s = .next (countUnmapped (blkBase (blkCluster cluster) + 0x11C) s) := by
  cases ht : trusted who with
  | false => exact congrArg Host.Outcome.next (if_pos (by simp [ht]))
  | true =>
    refine (clSpareReq_trusted hcl hp ht).trans (congrArg _ (if_neg ?_))
    simp only [Bool.and_eq_true, bne_iff_ne, beq_iff_eq, stoppingIn_eq_zero]
    rintro ⟨⟨ha, hs⟩, hn⟩
    rcases h with h | h | h | ⟨x, hin, hx⟩
    · simp [ht] at h
    · simp [ha] at h
    · exact hs h
    · exact hn x hin hx

end

/-! ### The safe point of a stopped core (R191, R192, R194) -/

/-- What its safe point makes of the unit's masks: the core leaves the active ones and joins the failed ones. -/
def coreLost (core : Nat) (u : ClusterSt) : ClusterSt :=
  { u with active := u.active - (if u.active.testBit core then 2 ^ core else 0), failed := u.failed ||| 2 ^ core }

/-- Another core's number in the place of the lost one. -/
def coreSwapped (core x : Nat) (u : ClusterSt) : List Nat := u.cores.map (fun c => if c = core then x else c)

/-- A bit that is set, taken away. -/
theorem testBit_sub_two_pow {n k : Nat} (h : n.testBit k = true) (i : Nat) :
    (n - 2 ^ k).testBit i = if i = k then false else n.testBit i := by
  have hodd : n / 2 ^ k % 2 = 1 := by simpa [Nat.testBit_eq_decide_div_mod_eq] using h
  obtain ⟨q, hq⟩ : ∃ q, n / 2 ^ k = 2 * q + 1 := ⟨n / 2 ^ k / 2, by omega⟩
  have hlow : n % 2 ^ k < 2 ^ k := Nat.mod_lt _ (Nat.two_pow_pos k)
  have hn : n = 2 ^ k * (2 * q + 1) + n % 2 ^ k := by rw [← hq, Nat.div_add_mod]
  have hsub : n - 2 ^ k = 2 ^ k * (2 * q) + n % 2 ^ k := by
    have := Nat.mul_add_one (2 ^ k) (2 * q)
    omega
  rw [hsub, Nat.testBit_two_pow_mul_add _ hlow]
  conv_rhs => rw [hn, Nat.testBit_two_pow_mul_add _ hlow]
  rcases Nat.lt_trichotomy i k with hi | rfl | hi
  · simp [hi, hi.ne]
  · simp
  · obtain ⟨j, rfl⟩ : ∃ j, i = k + (j + 1) := ⟨i - k - 1, by omega⟩
    have hhalf : (2 * q + 1) / 2 = q := by omega
    simp [Nat.testBit_succ, hhalf]

theorem coreSafePoint_eq {s : State} {cluster core : Nat} (h : (cluster, core) ∈ s.mason.stopping) :
    let u := unitOf s cluster
    let gone := s.setMason { s.mason with stopping := s.mason.stopping.filter (· != (cluster, core)) }
    let clear := fun (x : State) => match logicalCore s cluster core with | some k => l1Clear k x | none => x
    (u.spare ≠ 31 → exec (.coreSafePoint cluster core) s = .next (settle (logSpare (blkCluster cluster) 4 core 0 (ackSpare (blkCluster cluster)
      (setUnit cluster { coreLost core u with
        cores := coreSwapped core u.spare u, active := (coreLost core u).active ||| 2 ^ u.spare, spare := 31 } (clear gone)))))) ∧
    (u.spare = 31 →
      let lost := logPolicy (blkIsland (blkCluster cluster)) 7 4 (blkCluster cluster) core 31
        (setUnit cluster { coreLost core u with cores := coreSwapped core 31 u } (clear gone))
      exec (.coreSafePoint cluster core) s = .next (settle (match logicalCore s cluster core with
        | some k => abandonCore k lost
        | none => lost))) := by
  have hin : ¬ (!s.mason.stopping.contains (cluster, core)) = true := by simpa using h
  exact ⟨fun hs => congrArg Host.Outcome.next ((if_neg hin).trans (if_pos hs)),
    fun hs => congrArg Host.Outcome.next ((if_neg hin).trans (if_neg (not_not.2 hs)))⟩

/-- A core with a spare to take its place: the spare is active under its number, and the core has failed (R191, R194). -/
theorem coreLost_spared {core : Nat} {u : ClusterSt} (ha : u.active.testBit core = true) (i : Nat) :
    ((coreLost core u).active ||| 2 ^ u.spare).testBit i = if i = u.spare then true else if i = core then false else u.active.testBit i := by
  simp only [coreLost, ha, if_true, Nat.testBit_or, testBit_sub_two_pow ha, Nat.testBit_two_pow]
  by_cases h1 : i = u.spare
  · simp [h1]
  · simp [h1, Ne.symm h1]

theorem coreLost_failed (core : Nat) (u : ClusterSt) (i : Nat) :
    (coreLost core u).failed.testBit i = (u.failed.testBit i || decide (i = core)) := by
  rw [coreLost, Nat.testBit_or, Nat.testBit_two_pow, decide_eq_decide.2 (eq_comm (a := core))]

/-! ### A cluster that is spared out (R141, R142, R193) -/

/-- A word of scratch that fails parity in the copy to the spare cluster arrives marked bad. -/
def copiedBad (q : Nat) (s : State) (w : Nat) : State :=
  recordCon (blkCluster q) 0x0102 [w / 8 * 8 % 2 ^ 32, w / 8 * 8 / 2 ^ 32]
    (if s.mem.badWords.contains (w / 8 * 8) then s else s.setMem { s.mem with badWords := s.mem.badWords ++ [w / 8 * 8] })

theorem copiedBad_marks (q : Nat) (s : State) (w : Nat) : (copiedBad q s w).mem.cells = s.mem.cells ∧ (copiedBad q s w).mason = s.mason ∧
    ∀ v, v ∈ (copiedBad q s w).mem.badWords ↔ v ∈ s.mem.badWords ∨ v = w / 8 * 8 := by
  unfold copiedBad recordCon
  rw [noteErr_mem, noteErr_mason]
  split
  next h =>
    have hin : w / 8 * 8 ∈ s.mem.badWords := by simpa using h
    exact ⟨rfl, rfl, fun v => ⟨.inl, fun hv => hv.elim id (fun e => e ▸ hin)⟩⟩
  next => exact ⟨rfl, rfl, fun v => by simp⟩

theorem foldl_copiedBad (q : Nat) (ws : List Nat) (s : State) :
    let t := ws.foldl (copiedBad q) s
    t.mem.cells = s.mem.cells ∧ t.mason = s.mason ∧ ∀ v, v ∈ t.mem.badWords ↔ v ∈ s.mem.badWords ∨ ∃ w ∈ ws, v = w / 8 * 8 := by
  induction ws generalizing s with
  | nil => exact ⟨rfl, rfl, fun v => by simp⟩
  | cons w ws ih =>
    obtain ⟨hcells, hmason, hbad⟩ := ih (copiedBad q s w)
    obtain ⟨hcells', hmason', hbad'⟩ := copiedBad_marks q s w
    refine ⟨hcells.trans hcells', hmason.trans hmason', fun v => ?_⟩
    rw [List.foldl_cons, hbad, hbad']
    simp [or_assoc]

/-- The units once a logical cluster has passed from one physical cluster to the spare one, and what goes with the cluster that is gone. -/
def clusterPassed (k p q : Nat) (u v : ClusterSt) (s : State) : State :=
  let s := setUnit q { v with logical := k } (setUnit p { u with logical := 0xFF, active := 0, failed := 0x1FFFF, spare := 31 } s)
  s.setMason { s.mason with l1 := s.mason.l1.filter (fun e => e.1 / 16 != k), stopping := s.mason.stopping.filter (fun x => x.1 != p) }

/-- The bad words of a copy that lie in the scratch of a logical cluster. -/
def badCopies (k : Nat) (badWords : List Nat) : List Nat := badWords.filter (fun w => decide (scratchDpa k ≤ w ∧ w < scratchDpa (k + 1)))

section
variable {s : State} {logical p q : Nat} {u v : ClusterSt} (badWords : List Nat)

theorem clusterSpareOut_eq (hp : physCluster s logical = some (p, u)) (hq : spareCluster s = some (q, v)) :
    exec (.clusterSpareOut logical badWords) s = .next (settle (logSpare (blkCluster p) 4 p 0
      (ackSpare (blkCluster p) ((badCopies logical badWords).foldl (copiedBad q) (clusterPassed logical p q u v s))))) := by
  change execClusterSpareOut logical badWords s = _
  simp only [execClusterSpareOut, spareOutCluster, hp, hq]
  rfl

theorem clusterSpareOut_passes (hp : physCluster s logical = some (p, u)) (hq : spareCluster s = some (q, v)) (hne : p ≠ q) :
    ∃ x, exec (.clusterSpareOut logical badWords) s = .next (settle (logSpare (blkCluster p) 4 p 0 x)) ∧
      (unitOf x q).logical = logical ∧ (unitOf x q).active = v.active ∧ (unitOf x p).logical = 0xFF ∧ (unitOf x p).active = 0 ∧
      x.mem.cells = s.mem.cells ∧ x.mason.threads = s.mason.threads ∧
      (∀ w ∈ badWords, scratchDpa logical ≤ w → w < scratchDpa (logical + 1) → w / 8 * 8 ∈ x.mem.badWords) := by
  let y := (badCopies logical badWords).foldl (copiedBad q) (clusterPassed logical p q u v s)
  obtain ⟨hcells, hmason, hbad⟩ := foldl_copiedBad q (badCopies logical badWords) (clusterPassed logical p q u v s)
  obtain ⟨e, he⟩ := ackSpare_eq (blkCluster p) y
  have hunits : (ackSpare (blkCluster p) y).mason = (clusterPassed logical p q u v s).mason := by
    rw [he]
    exact hmason
  have hnew : unitOf (ackSpare (blkCluster p) y) q = { v with logical := logical } := by
    rw [unitOf, hunits]
    exact lookD_put_same ..
  have hold : unitOf (ackSpare (blkCluster p) y) p = { u with logical := 0xFF, active := 0, failed := 0x1FFFF, spare := 31 } := by
    rw [unitOf, hunits]
    exact (lookD_put_of_ne _ _ _ hne.symm).trans (lookD_put_same ..)
  refine ⟨_, clusterSpareOut_eq badWords hp hq, by rw [hnew], by rw [hnew], by rw [hold], by rw [hold], ?_,
    (congrArg Mason.threads hunits :), fun w hw h1 h2 => ?_⟩
  · rw [he]
    exact hcells
  · have hin : w ∈ badCopies logical badWords := by simp [badCopies, hw, h1, h2]
    rw [he]
    exact (hbad _).2 (.inr ⟨w, hin, rfl⟩)

end

/-! ### The statement -/

/-- Settles O24: each row by the state that it leaves before the rest of the part goes on. -/
theorem coreFailuresAreRecordedAndSparedOut : Obligations.CoreFailuresAreRecordedAndSparedOut := by
  unfold Obligations.CoreFailuresAreRecordedAndSparedOut
  refine ⟨fun s th p core c hc hp h => ⟨residueMismatch_passed_records hc hp h, residueMismatch_third_stops hc hp h, registerParityFault_ends hc hp⟩,
    fun s cluster core line k instruction h hk => l1ParityRefetch_records line instruction h hk,
    fun s who cluster p hcl hp => ⟨clSpareReq_stops hcl hp, fun h => ?_⟩,
    fun s cluster core h _ => ?_,
    fun s logical p q u v badWords => clusterSpareOut_passes badWords⟩
  · exact ⟨_, clSpareReq_counted hcl hp h, rfl, rfl, cell_countUnmapped_count .., cell_countUnmapped ..⟩
  · obtain ⟨hspared, hlost⟩ := coreSafePoint_eq h
    exact ⟨fun hs ha _ => ⟨_, hspared hs, rfl, rfl, rfl, coreLost_spared ha, coreLost_failed core _⟩,
      fun hs => ⟨_, hlost hs, rfl, hs, rfl⟩⟩

end Sys2Proof.Machine
end

section
/-! An instruction issues (R158, R164, R180, R200): how the part stands after what the instruction makes of its thread. -/

namespace Sys2Proof.Machine

open Sys2Proof

/-- The state after an instruction of `len` bytes, by what it has made of its thread. -/
def afterFlow (vec : Bool) (th len : Nat) (c : TCtx) : Flow → State
  | .next t s => setThread th (advance len t) (slotUsed vec false th s)
  | .jump t target s => setThread th (jumpTo target t) (slotUsed vec false th s)
  | .keep t s => settle (setThread th t s)
  | .halt s => endItem c none (slotUsed vec false th s)
  | .fault k s => endItem c (some k) (slotUsed vec true th s)

section
variable {s : State} {th len : Nat} {c : TCtx}

theorem tctx_th (h : tctx s th = some c) : c.th = th := by
  unfold tctx at h
  split at h
  · cases h
  · split at h
    · cases h
    · split at h
      · cases h
      · split at h
        · cases h
          rfl
        · cases h

theorem Issues.th_eq (h : Issues s th len c) : c.th = th := tctx_th h.1

/-- Where the slot runs an item and the instruction lies within W0, the instruction's own flow decides. -/
theorem issueIn_of_issues (h : Issues s th len c) (vec : Bool) (f : TCtx → State → Flow) :
    issueIn vec th len f s = afterFlow vec th len c (f c s) := by
  obtain ⟨hc, hpc⟩ := h
  have hin : ¬ c.k.codeLen < c.t.pc.toNat + len := by omega
  unfold issueIn
  rw [hc]
  dsimp only
  rw [if_neg hin]
  cases f c s <;> rfl

variable {f : TCtx → State → Flow} {t : Thread} {x : State} {k : Nat}

theorem issue_of_next (h : Issues s th len c) (hf : f c s = .next t x) : (.next (issue th len f s) : Ran) = ran x th len t := by
  rw [issue, issueIn_of_issues h, hf]
  rfl

theorem issue_of_keep (h : Issues s th len c) (hf : f c s = .keep t x) : (.next (issue th len f s) : Ran) = .next (settle (setThread th t x)) := by
  rw [issue, issueIn_of_issues h, hf]
  rfl

theorem issue_of_halt (h : Issues s th len c) (hf : f c s = .halt x) :
    (.next (issue th len f s) : Ran) = .next (endItem c none (slotUsed false false th x)) := by
  rw [issue, issueIn_of_issues h, hf]
  rfl

theorem issue_of_fault (h : Issues s th len c) (hf : f c s = .fault k x) : (.next (issue th len f s) : Ran) = faulted x c k := by
  rw [issue, issueIn_of_issues h, hf, faulted, h.th_eq]
  rfl

theorem issueV_of_next (h : Issues s th len c) (hf : f c s = .next t x) : (.next (issueV th len f s) : Ran) = ranV x th len t := by
  rw [issueV, issueIn_of_issues h, hf]
  rfl

theorem issueV_of_keep (h : Issues s th len c) (hf : f c s = .keep t x) :
    (.next (issueV th len f s) : Ran) = .next (settle (setThread th t x)) := by
  rw [issueV, issueIn_of_issues h, hf]
  rfl

theorem issueV_of_fault (h : Issues s th len c) (hf : f c s = .fault k x) : (.next (issueV th len f s) : Ran) = faultedV x c k := by
  rw [issueV, issueIn_of_issues h, hf, faultedV, h.th_eq]
  rfl

end

end Sys2Proof.Machine
end

section
/-! Stores (R164, R207, R210), atomics (R159 to R162, R212), and fences, halts, rdsr and the faults that need no instruction (R157, R158, R180, R200,
R205, R222): what each makes of its thread. -/

namespace Sys2Proof.Machine

open Sys2Proof

/-! ### Stores -/

section
variable {s : State} {th len : Nat} {c : TCtx}

/-- A store by how its access ends: performed, faulting, or held by the course rules. -/
theorem storeFrom_ends (h : Issues s th len c) (rs : Fin 32) (n : Nat) (addr : Thread → SReg) (io : MemIo) :
    let access := storeMem c (addr c.t) (leBytes n (getS c.t rs).toNat) io.failAt.isSome (storeFaults c io (addr c.t) n 1 s)
    let r : Ran := .next (storeFrom th len rs n addr io s)
    (∀ s', access = .ok () s' → r = ran s' th len c.t) ∧
    (∀ k s', access = .fault k s' → r = faulted s' c k) ∧
    (∀ s', access = .wait s' → r = .next (settle (setThread th c.t s'))) :=
  ⟨fun _ ha => issue_of_next h (by rw [ha]), fun _ _ ha => issue_of_fault h (by rw [ha]), fun _ ha => issue_of_keep h (by rw [ha])⟩

/-- Settles O9: every store is `storeFrom` of its width, register and address. -/
theorem storesGoOnFaultOrWait : Obligations.StoresGoOnFaultOrWait := by
  unfold Obligations.StoresGoOnFaultOrWait
  refine ⟨fun s th c rs2 rs1 imm io h => ?_, fun s th c rs rb off io h => ?_⟩
  · have hst := fun n => storeFrom_ends h rs2 n (based rs1 imm) io
    exact ⟨hst 1, hst 2, hst 4, hst 8⟩
  · have hst := fun n => storeFrom_ends h (primed rs) n (shortBase rb off n) io
    exact ⟨hst 8, hst 4⟩

end

/-! ### Atomics -/

/-- The low half of a 32-bit atomic's destination, and all of a 64-bit one's, is the old value. -/
theorem oldTo_toNat_mod (wide : Bool) (old : Nat) :
    (oldTo wide old).toNat % 2 ^ (8 * if wide then 8 else 4) = old % 2 ^ (8 * if wide then 8 else 4) := by
  cases wide
  case true => simp [oldTo, zx]
  case false =>
    refine Nat.eq_of_testBit_eq fun i => ?_
    rw [show 8 * (if false = true then 8 else 4) = 32 from rfl, Nat.testBit_mod_two_pow, Nat.testBit_mod_two_pow]
    by_cases hi : i < 32
    · have h64 : i < 64 := by omega
      change (decide (i < 32) && (((Config.freeUpper old >>> 32) <<< 32) ||| zx (old % 2 ^ 32)).getLsbD i) = _
      rw [BitVec.getLsbD_or, BitVec.getLsbD_shiftLeft, zx, BitVec.getLsbD_ofNat, Nat.testBit_mod_two_pow]
      simp [hi, h64]
    · simp [hi]

theorem pickS_lesser (w a b : Nat) : pickS false w a b = if sext w a < sext w b then a else b := by
  by_cases h : sext w a < sext w b <;> simp [pickS, h]

theorem pickS_greater (w a b : Nat) : pickS true w a b = if sext w a < sext w b then b else a := by
  by_cases h : sext w a < sext w b <;> simp [pickS, h]

theorem pickU_lesser (a b : Nat) : pickU false a b = if a < b then a else b := by
  by_cases h : a < b <;> simp [pickU, h]

theorem pickU_greater (a b : Nat) : pickU true a b = if a < b then b else a := by
  by_cases h : a < b <;> simp [pickU, h]

/-- How an atomic that stores `new` of the old value ends: the old value in its destination, a fault, or a wait. -/
def AtomicEnds (s : State) (th : Nat) (c : TCtx) (rd rs1 : Fin 32) (acq wide : Bool) (io : MemIo) (new : Nat → Option Nat) (r : Ran) : Prop :=
  let n := if wide then 8 else 4
  let access := atomicMem c (getS c.t rs1) n (fun old => (new (leVal old)).map (leBytes n)) (storeFaults c io (getS c.t rs1) n 2 s)
  (∀ old s', access = .ok old s' →
    ∃ q : SReg, q.toNat % 2 ^ (8 * n) = leVal old % 2 ^ (8 * n) ∧
      r = ran (if acq then l1Clear (coreKey th) s' else s') th 4 (setS rd q c.t)) ∧
  (∀ k s', access = .fault k s' → r = faulted s' c k) ∧
  (∀ s', access = .wait s' → r = .next (settle (setThread th c.t s')))

section
variable {s : State} {th : Nat} {c : TCtx}

/-- An atomic of a width that it has, by how its access ends. -/
theorem atomic_ends (h : Issues s th 4 c) (rd rs1 rs2 : Fin 32) (acq rel : Bool) (io : MemIo) {wide narrowOnly : Bool}
    (hw : (narrowOnly && wide) = false) {f : Nat → Nat → Nat → Nat → Option Nat} {new : Nat → Option Nat}
    (hnew : let w := 8 * if wide then 8 else 4
      ∀ old, f w old ((getS c.t rs2).toNat % 2 ^ w) ((getS c.t rd).toNat % 2 ^ w) = new old) :
    AtomicEnds s th c rd rs1 acq wide io new (.next (atomic th rd rs1 rs2 acq rel wide narrowOnly io f s)) := by
  obtain rfl : _ = new := funext hnew
  refine ⟨fun old s' ha => ⟨oldTo wide (leVal old), oldTo_toNat_mod .., ?_⟩, fun k s' ha => ?_, fun s' ha => ?_⟩
  · exact issue_of_next h (by simp only [orIllegal, hw, ha]; rfl)
  · exact issue_of_fault h (by simp only [orIllegal, hw, ha]; rfl)
  · exact issue_of_keep h (by simp only [orIllegal, hw, ha]; rfl)

/-- The 64-bit width of an atomic that has none is undefined. -/
theorem atomic_wide_illegal (h : Issues s th 4 c) (rd rs1 rs2 : Fin 32) (acq rel : Bool) (io : MemIo) (f : Nat → Nat → Nat → Nat → Option Nat) :
    (.next (atomic th rd rs1 rs2 acq rel true true io f s) : Ran) = faulted s c fkIllegal :=
  issue_of_fault h rfl

end

/-- Settles O11: every atomic is `atomic` of its operation (`atomic_ends`). -/
theorem atomicsReturnTheOldValue : Obligations.AtomicsReturnTheOldValue := by
  unfold Obligations.AtomicsReturnTheOldValue
  intro s th c rd rs1 rs2 acq rel wide io h n v d ends
  have hends : ∀ {narrowOnly : Bool}, (narrowOnly && wide) = false → ∀ (f : Nat → Nat → Nat → Nat → Option Nat) (new : Nat → Option Nat),
      (∀ old, f (8 * n) old v d = new old) → ends new (.next (atomic th rd rs1 rs2 acq rel wide narrowOnly io f s)) :=
    fun hw f new => atomic_ends h rd rs1 rs2 acq rel io hw
  clear_value ends
  have hany := hends (narrowOnly := false) rfl
  refine ⟨hany _ _ fun _ => rfl, hany _ _ fun _ => congrArg some (pickS_lesser ..), hany _ _ fun _ => congrArg some (pickS_greater ..),
    hany _ _ fun _ => congrArg some (pickU_lesser ..), hany _ _ fun _ => congrArg some (pickU_greater ..), hany _ _ fun _ => rfl,
    hany _ _ fun _ => rfl, hany _ _ fun _ => rfl, hany _ _ fun _ => rfl, hany _ _ fun _ => rfl, fun hw => ?_, fun hw => ?_⟩
  · have hnarrow := hends (narrowOnly := true) (by simp [hw])
    exact ⟨hnarrow _ _ fun _ => rfl, hnarrow _ _ fun _ => rfl, hnarrow _ _ fun _ => rfl, hnarrow _ _ fun _ => rfl⟩
  · subst hw
    have hill := atomic_wide_illegal h rd rs1 rs2 acq rel io
    exact ⟨hill _, hill _, hill _, hill _⟩

/-! ### Fences, halts and system reads -/

theorem threadTime_of_cluster {s : State} {th p : Nat} {u : ClusterSt} (h : physCluster s (thCluster th) = some (p, u)) :
    threadTime s th = now s p := by
  rw [threadTime, h]

section
variable {s : State} {th len : Nat} {c : TCtx}

/-- A fence at a scope beyond the core drops the core's L1 data lines. -/
theorem fenceAt_device (h : Issues s th len c) : fenceAt c 2 s = l1Clear (coreKey th) s := congrArg (fun x => l1Clear (coreKey x) s) h.th_eq

theorem fence_defined (h : Issues s th 4 c) {imm : BitVec 12} (hi : imm.toNat ≤ 2) :
    exec (.fence th imm) s = ran (fenceAt c imm.toNat s) th 4 c.t :=
  issue_of_next h (by simp [orIllegal, hi])

theorem fence_undefined (h : Issues s th 4 c) {imm : BitVec 12} (hi : 2 < imm.toNat) : exec (.fence th imm) s = faulted s c fkIllegal :=
  issue_of_fault h (by simp [orIllegal, hi])

theorem rdsr_undefined (h : Issues s th 4 c) (rd : Fin 32) {imm : BitVec 12} (hi : 3 < imm.toNat) :
    exec (.rdsr th rd imm) s = faulted s c fkIllegal := by
  refine issue_of_fault h ?_
  split
  case h_5 => rfl
  all_goals omega

/-- An encoding that the tables leave undefined, of the form that its bit 0 selects. -/
theorem undefinedEncoding_faults {word : BitVec 32} (h : Issues s th (formBytes word.toNat) c) (hw : encodingDefined word.toNat = false) :
    exec (.undefinedEncoding th word) s = faulted s c fkIllegal := by
  change execUndefinedEncoding th word s = _
  rw [execUndefinedEncoding, hw, if_neg Bool.false_ne_true]
  exact issue_of_fault h rfl

theorem undefinedEncoding_defined {word : BitVec 32} (hw : encodingDefined word.toNat = true) (th : Nat) (s : State) :
    exec (.undefinedEncoding th word) s = .next s := by
  change execUndefinedEncoding th word s = _
  rw [execUndefinedEncoding, hw, if_pos rfl]

theorem formBytes_of_lsb (word : BitVec 32) : formBytes word.toNat = if word.getLsbD 0 then 4 else 2 := by
  rcases Nat.mod_two_eq_zero_or_one word.toNat with h | h <;> simp [formBytes, BitVec.getLsbD, h]

/-- The shorter form's two bytes do not lie within W0, so neither form's do. -/
theorem fetchFault_ends (h : tctx s th = some c) (hpc : c.k.codeLen < c.t.pc.toNat + 2) : exec (.fetchFault th) s = ended s c fkWindow := by
  change execFetchFault th s = _
  rw [execFetchFault, h]
  dsimp only
  rw [if_pos (by split <;> omega)]
  rfl

theorem itemWatchdog_ends (h : tctx s th = some c) : exec (.itemWatchdog th) s = ended s c fkWatchdog := by
  change execItemWatchdog th s = _
  rw [execItemWatchdog, h]
  rfl

end

/-- Settles O14: each row by what it makes of its thread. -/
theorem fencesHaltsAndSystemReads : Obligations.FencesHaltsAndSystemReads := by
  unfold Obligations.FencesHaltsAndSystemReads
  refine ⟨fun s th c rd imm word h => ?_, fun s th c word h => ?_, fun s th c h => ⟨fetchFault_ends h, itemWatchdog_ends h⟩⟩
  · have hclear := fenceAt_device h
    refine ⟨?_, ?_, fence_undefined h, ?_, ?_, ?_, ?_, ?_, rdsr_undefined h rd, fun h0 hw => ?_⟩
    · rintro rfl
      exact fence_defined h (by decide)
    · rintro (rfl | rfl) <;> exact (fence_defined h (by decide)).trans (congrArg (ran · th 4 c.t) hclear)
    · exact hclear ▸ issue_of_halt h rfl
    · rintro rfl
      exact issue_of_next h rfl
    · rintro rfl
      exact issue_of_next h rfl
    · rintro rfl
      exact ⟨_, issue_of_next h rfl⟩
    · rintro rfl p u hp
      rw [← threadTime_of_cluster hp]
      exact issue_of_next h rfl
    · exact undefinedEncoding_faults (by rwa [formBytes_of_lsb, if_pos h0]) hw
  · refine ⟨fenceAt_device h ▸ issue_of_halt h rfl, fun h0 hw => ?_, fun hw => undefinedEncoding_defined hw th s⟩
    exact undefinedEncoding_faults (by rwa [formBytes_of_lsb, if_neg (by rw [h0]; decide)]) hw

end Sys2Proof.Machine
end

section
/-! The windows of a thread (R167 to R169, R211): what an access reaches by the window and offset of its address. -/

namespace Sys2Proof.Machine

open Sys2Proof

theorem eq_map_some_of_allSome {α : Type} {l : List (Option α)} {xs : List α} (h : allSome l = some xs) : l = xs.map some := by
  induction l generalizing xs with
  | nil =>
    cases h
    rfl
  | cons o r ih =>
    obtain ⟨a, rfl, h⟩ := Option.bind_eq_some_iff.1 h
    obtain ⟨ys, hr, rfl⟩ := Option.map_eq_some_iff.1 h
    rw [ih hr, List.map_cons]

section
variable (s : State) (c : TCtx) (addr : SReg) (n kind : Nat)

theorem resolve_code (h : addr.toNat / 2 ^ 60 = 0) : resolve s c addr n kind =
    let off := addr.toNat % 2 ^ 60
    if kind = 0 ∧ off + n ≤ c.k.codeLen then some (.mem ((List.range n).map (fun i => codeDpa c.k (off + i)))) else none := by
  simp only [resolve, h]
  rfl

theorem resolve_arguments (h : addr.toNat / 2 ^ 60 = 1) : resolve s c addr n kind =
    let off := addr.toNat % 2 ^ 60
    if kind = 0 ∧ off + n ≤ c.j.args.length then some (.inside ((c.j.args.drop off).take n)) else none := by
  simp only [resolve, h]
  rfl

theorem resolve_privateScratch (h : addr.toNat / 2 ^ 60 = 2) : resolve s c addr n kind =
    let off := addr.toNat % 2 ^ 60
    if off + n ≤ c.k.perCore then some (.scratch (scratchAt c + thCore c.th * c.k.perCore + off)) else none := by
  simp only [resolve, h]
  rfl

theorem resolve_sharedScratch (h : addr.toNat / 2 ^ 60 = 3) : resolve s c addr n kind =
    let off := addr.toNat % 2 ^ 60
    if off + n ≤ c.k.shared then some (.scratch (scratchAt c + 16 * c.k.perCore + off)) else none := by
  simp only [resolve, h]
  rfl

/-- The rows that an access to a table window reaches, of the table bound to it. -/
def windowRows (off n : Nat) (b : Nat × Tbl) : Option Target :=
  let r := windowRegion off
  (allSome ((List.range n).map (fun i => windowByte b.2 r.1 (r.2 + i)))).map (fun bs => .table b.1 r.1 bs)

theorem resolve_tableWindow (h4 : 4 ≤ addr.toNat / 2 ^ 60) (h11 : addr.toNat / 2 ^ 60 ≤ 11) :
    resolve s c addr n kind = (boundTable s c (addr.toNat / 2 ^ 60)).bind (windowRows (addr.toNat % 2 ^ 60) n) := by
  unfold resolve
  dsimp only
  rw [if_neg (by omega), if_neg (by omega), if_neg (by omega), if_neg (by omega), if_pos (by omega)]
  cases boundTable s c (addr.toNat / 2 ^ 60) <;> rfl

theorem resolve_kernelBuffer (h : 12 ≤ addr.toNat / 2 ^ 60) (hr : c.j.rule = none) : resolve s c addr n kind =
    if kind = 2 then none
    else (c.j.buffers[addr.toNat / 2 ^ 60 - 12]?).map (fun b => .client c.j.client ((b + addr.toNat % 2 ^ 60) % 2 ^ 64)) := by
  unfold resolve
  dsimp only
  rw [if_neg (by omega), if_neg (by omega), if_neg (by omega), if_neg (by omega), if_neg (by omega), if_neg (by simp [hr])]
  cases c.j.buffers[addr.toNat / 2 ^ 60 - 12]? <;> rfl

theorem resolve_ruleGradient (h : 12 ≤ addr.toNat / 2 ^ 60) (hr : c.j.rule ≠ none) : resolve s c addr n kind =
    let off := addr.toNat % 2 ^ 60
    if addr.toNat / 2 ^ 60 = 12 ∧ kind = 0 ∧ off + n ≤ c.j.grad.length then some (.inside ((c.j.grad.drop off).take n)) else none := by
  unfold resolve
  dsimp only
  rw [if_neg (by omega), if_neg (by omega), if_neg (by omega), if_neg (by omega), if_neg (by omega), if_pos (Option.isSome_iff_ne_none.2 hr)]

end

/-- What a table window reaches lies in the window's own table, byte by byte. -/
theorem windowRows_eq_some {off n : Nat} {b : Nat × Tbl} {x : Target} (h : windowRows off n b = some x) :
    ∃ bs, x = .table b.1 (windowRegion off).1 bs ∧ bs.length = n ∧
      ∀ i (hi : i < bs.length), windowByte b.2 (windowRegion off).1 ((windowRegion off).2 + i) = some bs[i] := by
  obtain ⟨bs, hbs, rfl⟩ := Option.map_eq_some_iff.1 h
  have hmap := eq_map_some_of_allSome hbs
  have hlen : bs.length = n := by simpa using (congrArg List.length hmap).symm
  refine ⟨bs, rfl, hlen, fun i hi => ?_⟩
  have hget := congrArg (fun l : List (Option (Nat × Nat × Nat)) => l[i]?) hmap
  simpa [hlen ▸ hi, hi] using hget

/-! ### Where nothing is reached -/

section
variable {s : State} {c : TCtx} {addr : SReg}

theorem loadMem_of_unreached {n : Nat} (h : resolve s c addr n 0 = none) (ext : Bytes) (bad : Bool) :
    loadMem c addr n ext bad s = .fault fkWindow s := by
  rw [loadMem, h]

theorem storeMem_of_unreached {data : Bytes} (h : resolve s c addr data.length 1 = none) (bad : Bool) :
    storeMem c addr data bad s = .fault fkWindow s := by
  rw [storeMem, h]

theorem atomicMem_of_unreached {n : Nat} (ha : addr.toNat % n = 0) (h : resolve s c addr n 2 = none) (f : Bytes → Option Bytes) :
    atomicMem c addr n f s = .fault fkWindow s := by
  rw [atomicMem, if_neg (by simpa using ha), h]

end

/-- Settles O7: window by window, by what `resolve` answers there. -/
theorem windowsMapKernelAddresses : Obligations.WindowsMapKernelAddresses := by
  unfold Obligations.WindowsMapKernelAddresses
  intro s c addr n kind _ w off
  refine ⟨resolve_code s c addr n kind, resolve_arguments s c addr n kind, resolve_privateScratch s c addr n kind,
    resolve_sharedScratch s c addr n kind, fun h4 h11 hb => ?_, fun h4 h11 x hx => ?_, fun h hr hk => ?_, fun h hr hk b hb => ?_,
    fun h hr hb => ?_, fun h hr => ?_, fun h hr => ?_, fun ext bad h => loadMem_of_unreached h ext bad,
    fun data bad h => storeMem_of_unreached h bad, fun f ha h => atomicMem_of_unreached ha h f⟩
  · rw [resolve_tableWindow _ _ _ _ _ h4 h11, show boundTable s c _ = none from hb, Option.bind_none]
  · rw [resolve_tableWindow _ _ _ _ _ h4 h11] at hx
    obtain ⟨b, hb, hx⟩ := Option.bind_eq_some_iff.1 hx
    obtain ⟨bs, hbs, hlen, hbytes⟩ := windowRows_eq_some hx
    exact ⟨b.1, b.2, _, bs, hb, hbs, hlen, hbytes⟩
  · rw [resolve_kernelBuffer _ _ _ _ _ h hr, if_pos hk]
  · rw [resolve_kernelBuffer _ _ _ _ _ h hr, if_neg hk, show c.j.buffers[_]? = some b from hb, Option.map_some]
  · rw [resolve_kernelBuffer _ _ _ _ _ h hr, show c.j.buffers[_]? = none from hb, Option.map_none, ite_self]
  · rw [resolve_ruleGradient _ _ _ _ _ h.ge hr]
    exact if_congr (and_iff_right h) rfl rfl
  · rw [resolve_ruleGradient _ _ _ _ _ (Nat.le_of_succ_le h) hr]
    exact if_neg fun hw => absurd hw.1 (Nat.ne_of_gt h)

end Sys2Proof.Machine
end

section
/-! Lanes of a vector register (R230, R232), and the vector accesses to memory (R161, R164, R210, R234): lane after lane, the active ones alone. -/

namespace Sys2Proof.Machine

open Sys2Proof

/-! ### Lanes -/

/-- Numbers below 2 ^ w put together, the first one lowest, have no bit beyond their places. -/
theorem packed_lt (w : Nat) (f : Nat → Nat) (l : List Nat) : l.foldr (fun k a => f k % 2 ^ w + 2 ^ w * a) 0 < 2 ^ (w * l.length) := by
  induction l with
  | nil => simp
  | cons k r ih =>
    have hk : f k % 2 ^ w < 2 ^ w := Nat.mod_lt _ (by positivity)
    rw [List.foldr_cons, List.length_cons, Nat.mul_succ, Nat.add_comm _ w, Nat.pow_add]
    exact Nat.add_mul_lt_mul_of_lt_of_lt hk ih

/-- Each of them is read back at its place. -/
theorem bits_packed (w : Nat) (f : Nat → Nat) (l : List Nat) {i : Nat} (h : i < l.length) :
    bits (l.foldr (fun k a => f k % 2 ^ w + 2 ^ w * a) 0) (w * i) w = f l[i] % 2 ^ w := by
  induction l generalizing i with
  | nil => cases h
  | cons k r ih =>
    have hk : f k % 2 ^ w < 2 ^ w := Nat.mod_lt _ (by positivity)
    cases i with
    | zero => simp [bits]
    | succ i =>
      rw [List.getElem_cons_succ, ← ih (Nat.lt_of_succ_lt_succ h), List.foldr_cons, bits, bits, Nat.mul_succ, Nat.add_comm _ w, Nat.pow_add,
        ← Nat.div_div_eq_div_mul, Nat.add_mul_div_left _ _ (by positivity), Nat.div_eq_of_lt hk, Nat.zero_add]

theorem lane_ofLanes (w : Nat) (f : Nat → Nat) {k : Nat} (h : k < 512 / w) : lane w (ofLanes w f) k = f k % 2 ^ w := by
  have hlen : k < (List.range (laneCount w)).length := by simpa [laneCount] using h
  have hwidth : w * (List.range (laneCount w)).length ≤ 512 := List.length_range ▸ Nat.mul_div_le 512 w
  have hfit := (packed_lt w f (List.range (laneCount w))).trans_le (Nat.pow_le_pow_right Nat.two_pos hwidth)
  rw [lane, ofLanes, BitVec.toNat_ofNat, Nat.mod_eq_of_lt hfit, bits_packed w f _ hlen, List.getElem_range]

theorem lane_lt (w : Nat) (v : VReg) (k : Nat) : lane w v k < 2 ^ w := bits_lt ..

/-- The lanes of a register written under a mask. -/
theorem lane_merged (zm : Bool) (m : SReg) (w : Nat) (old : VReg) (res : Nat → Nat) {k : Nat} (h : k < 512 / w) :
    lane w (ofLanes w (merged zm m w old res)) k = if m.getLsbD k then res k % 2 ^ w else if zm then 0 else lane w old k := by
  rw [lane_ofLanes w _ h, merged, active]
  split
  · rfl
  · split
    · exact Nat.zero_mod _
    · exact Nat.mod_eq_of_lt (lane_lt ..)

/-- A register written under a mask with values of lanes that are known where the lane is active. -/
theorem lanesWritten_merged {w : Nat} {mask : Fin 8} {t : Thread} {res val : Nat → Nat} (s : State) (th : Nat) (zm : Bool) (vd : Fin 16)
    (h : ∀ k < 512 / w, (getM t mask).getLsbD k = true → res k % 2 ^ w = val k) :
    LanesWritten s th t w zm mask vd val (ranV s th 4 (setV vd (ofLanes w (merged zm (getM t mask) w (getV t vd) res)) t)) := by
  refine ⟨_, rfl, fun k hk => ?_⟩
  rw [lane_merged zm _ w _ _ hk]
  exact ite_congr rfl (h k hk) (fun _ => rfl)

/-! ### Accesses one after another -/

/-- A sign-extended field, shifted left. -/
theorem signExtend_shiftLeft {n : Nat} (x : BitVec n) (k : Nat) : x.signExtend 64 <<< k = BitVec.ofInt 64 (x.toInt * 2 ^ k) := by
  have hpow : BitVec.ofInt 64 (2 ^ k) = BitVec.twoPow 64 k :=
    BitVec.eq_of_toNat_eq (by rw [BitVec.toNat_twoPow, ← BitVec.toNat_ofNat, ← BitVec.ofInt_natCast, Nat.cast_pow, Nat.cast_ofNat])
  rw [BitVec.shiftLeft_eq_mul_twoPow, BitVec.ofInt_mul, hpow, BitVec.signExtend]

theorem vmAddr_eq (rs1 : Fin 32) (off : BitVec 6) (t : Thread) : vmAddr rs1 off t = getS t rs1 + BitVec.ofInt 64 (off.toInt * 64) :=
  congrArg (getS t rs1 + ·) (signExtend_shiftLeft off 6)

theorem inTurn_congr {f g : Nat → State → State → Prop} (h : ∀ k x y, f k x y → g k x y) {l : List Nat} {s s' : State} (hf : InTurn f l s s') :
    InTurn g l s s' := by
  induction l generalizing s with
  | nil => exact hf
  | cons k r ih =>
    obtain ⟨s1, hk, hr⟩ := hf
    exact ⟨s1, h _ _ _ hk, ih hr⟩

/-- Accesses for each of some lanes one after another, up to the first that faults or waits. -/
def accessInTurn (access : Nat → State → Acc Unit) : List Nat → State → Acc Unit
  | [], s => .ok () s
  | k :: r, s => match access k s with
    | .ok _ s => accessInTurn access r s
    | .fault e s => .fault e s
    | .wait s => .wait s

theorem accessInTurn_append {access : Nat → State → Acc Unit} {pre : List Nat} {s s1 : State}
    (h : InTurn (fun k x y => access k x = .ok () y) pre s s1) (post : List Nat) :
    accessInTurn access (pre ++ post) s = accessInTurn access post s1 := by
  induction pre generalizing s with
  | nil =>
    obtain rfl : s1 = s := h
    rfl
  | cons k r ih =>
    obtain ⟨s2, hk, hr⟩ := h
    rw [List.cons_append, accessInTurn, hk]
    exact ih hr

theorem accessInTurn_of_inTurn {access : Nat → State → Acc Unit} {l : List Nat} {s s' : State}
    (h : InTurn (fun k x y => access k x = .ok () y) l s s') : accessInTurn access l s = .ok () s' := by
  rw [← List.append_nil l, accessInTurn_append h []]
  rfl

/-- The first access that waits or faults ends them all, with those before it performed. -/
theorem accessInTurn_stops {access : Nat → State → Acc Unit} {pre : List Nat} {s s1 : State}
    (h : InTurn (fun k x y => access k x = .ok () y) pre s s1) (k : Nat) (post : List Nat) :
    (∀ s2, access k s1 = .wait s2 → accessInTurn access (pre ++ k :: post) s = .wait s2) ∧
    (∀ q s2, access k s1 = .fault q s2 → accessInTurn access (pre ++ k :: post) s = .fault q s2) := by
  rw [accessInTurn_append h]
  exact ⟨fun s2 hk => by rw [accessInTurn, hk], fun q s2 hk => by rw [accessInTurn, hk]⟩

/-- A loop that skips the inactive lanes and accesses for each active one accesses for the active ones in turn. -/
theorem loop_eq_accessInTurn {access : Nat → State → Acc Unit} {m : SReg} {loop : List Nat → State → Acc Unit} (hnil : ∀ s, loop [] s = .ok () s)
    (hcons : ∀ k r s, loop (k :: r) s = if !active m k then loop r s
      else match access k s with
        | .ok _ s => loop r s
        | .fault e s => .fault e s
        | .wait s => .wait s) (l : List Nat) (s : State) :
    loop l s = accessInTurn access (l.filter (active m)) s := by
  induction l generalizing s with
  | nil => exact hnil s
  | cons k r ih =>
    rw [hcons, List.filter_cons]
    cases active m k with
    | false => exact ih s
    | true =>
      change _ = accessInTurn access (k :: r.filter (active m)) s
      rw [accessInTurn]
      cases access k s with
      | ok _ s => exact ih s
      | fault e s => rfl
      | wait s => rfl

section
variable (c : TCtx) (m addr : SReg) (v : VReg)

/-- What an atomic add of a lane makes of the old bytes. -/
def addedLane (f : Fmt) (k : Nat) (old : Bytes) : Option Bytes :=
  some (leBytes (f.w / 8) (encF f none ((decF f (leVal old)).add (decF f (lane f.w v k)))))

/-- An atomic add of a lane to memory, by its outcome alone. -/
def addLane (f : Fmt) (k : Nat) (s : State) : Acc Unit :=
  match atomicMem c (addr + BitVec.ofNat 64 (laneOff f.w k)) (f.w / 8) (addedLane v f k) s with
  | .ok _ s => .ok () s
  | .fault e s => .fault e s
  | .wait s => .wait s

theorem addLane_of_ok {f : Fmt} {k : Nat} {s s' : State} {old : Bytes}
    (h : atomicMem c (addr + BitVec.ofNat 64 (laneOff f.w k)) (f.w / 8) (addedLane v f k) s = .ok old s') :
    addLane c addr v f k s = .ok () s' := by
  rw [addLane, h]

theorem storeLanes_eq (w : Nat) (io : MemIo) (l : List Nat) (s : State) : storeLanes c w m addr v io l s =
    accessInTurn (fun k => storeMem c (addr + BitVec.ofNat 64 (laneOff w k)) (leBytes (w / 8) (lane w v k)) (ioFails io k))
      (l.filter (active m)) s :=
  loop_eq_accessInTurn (fun _ => rfl) (fun _ _ _ => rfl) l s

theorem readyLanes_eq (w : Nat) (l : List Nat) (s : State) : readyLanes c w m addr l s =
    accessInTurn (fun k => atomicReady c (addr + BitVec.ofNat 64 (laneOff w k)) (w / 8)) (l.filter (active m)) s :=
  loop_eq_accessInTurn (fun _ => rfl) (fun _ _ _ => rfl) l s

theorem addLanes_eq (f : Fmt) (l : List Nat) (s : State) : addLanes c f m addr v l s =
    accessInTurn (addLane c addr v f) (l.filter (active m)) s := by
  refine loop_eq_accessInTurn (fun _ => rfl) (fun k r s => ?_) l s
  rw [addLanes]
  dsimp only [addLane]
  unfold addedLane
  generalize atomicMem c _ _ _ s = access
  cases access <;> rfl

/-- What a vector load has read once its active lanes have been loaded one after another. -/
theorem loadLanes_of_inTurn (w : Nat) (io : MemIo) (val : Nat → Nat) {l : List Nat} {s s' : State}
    (h : InTurn (fun k x y => ∃ bs, loadMem c (addr + BitVec.ofNat 64 (laneOff w k)) (w / 8) ((io.data.drop (laneOff w k)).take (w / 8))
      (ioFails io k) x = .ok bs y ∧ leVal bs = val k) (l.filter (active m)) s s') (acc : List (Nat × Nat)) :
    ∃ ls, loadLanes c w m addr io l acc s = .ok ls s' ∧
      ∀ q, lookD ls q 0 = if q ∈ l.filter (active m) then val q else lookD acc q 0 := by
  induction l generalizing s acc with
  | nil =>
    obtain rfl : s' = s := h
    exact ⟨acc, rfl, fun q => rfl⟩
  | cons k r ih =>
    rw [List.filter_cons] at h ⊢
    by_cases hk : active m k = true
    · rw [if_pos hk] at h ⊢
      obtain ⟨s1, ⟨bs, hload, hval⟩, hr⟩ := h
      obtain ⟨ls, hls, hlook⟩ := ih hr ((k, leVal bs) :: acc)
      refine ⟨ls, ?_, fun q => ?_⟩
      · rw [loadLanes, hk, hload]
        exact hls
      · rw [hlook]
        by_cases hq : k = q
        · subst hq
          simp [lookD, look, hval]
        · simp [hq, Ne.symm hq, lookD, look]
    · rw [if_neg hk] at h ⊢
      obtain ⟨ls, hls, hlook⟩ := ih h acc
      exact ⟨ls, by rw [loadLanes, if_pos (by simpa using hk), hls], hlook⟩

end

/-! ### vld, vst, vldb and vaadd (R210, R234) -/

/-- The lanes of a width that a mask makes active. -/
abbrev activeLanes (w : Nat) (m : SReg) : List Nat := (List.range (laneCount w)).filter (active m)

theorem mem_activeLanes {w k : Nat} {m : SReg} : k ∈ activeLanes w m ↔ k < 512 / w ∧ m.getLsbD k = true := by
  simp [laneCount, active]

theorem vaaddFmt_eq : ∀ ty : Fin 8, ty.val = 3 ∨ ty.val = 4 → (if ty = 3 then some fp32 else if ty = 4 then some bf16 else none) = vtFmt ty := by
  decide

theorem vaaddFmt_none : ∀ ty : Fin 8, ty.val ≠ 3 → ty.val ≠ 4 → (if ty = 3 then some fp32 else if ty = 4 then some bf16 else none) = none := by
  decide

theorem vtFmt_isSome : ∀ ty : Fin 8, ty.val = 3 ∨ ty.val = 4 → (vtFmt ty).isSome = true := by decide

theorem vtFmt_width {ty : Fin 8} {f : Fmt} (h : vtFmt ty = some f) : f.w = vtWidth ty := by
  revert f
  revert ty
  decide

section
variable {s : State} {th : Nat} {c : TCtx} {ty : Fin 8} {off : BitVec 6} {mask : Fin 8} {zm : Bool} {rs1 : Fin 32} {vd : Fin 16} {io : MemIo}

theorem vld_performed (h : Issues s th 4 c) {val : Nat → Nat} {s' : State}
    (hl : InTurn (fun k x y => ∃ bs, loadMem c (vmAddr rs1 off c.t + BitVec.ofNat 64 (laneOff (vtWidth ty) k)) (vtWidth ty / 8)
      ((io.data.drop (laneOff (vtWidth ty) k)).take (vtWidth ty / 8)) (ioFails io k) x = .ok bs y ∧ leVal bs = val k)
      (activeLanes (vtWidth ty) (getM c.t mask)) (memFaults c io s) s') :
    LanesWritten s' th c.t (vtWidth ty) zm mask vd (fun k => val k % 2 ^ vtWidth ty) (exec (.vld th ty off mask zm rs1 vd io) s) := by
  obtain ⟨ls, hls, hlook⟩ := loadLanes_of_inTurn c _ _ _ io val hl []
  have hres : exec (.vld th ty off mask zm rs1 vd io) s = ranV s' th 4 (setV vd (ofLanes (vtWidth ty)
      (merged zm (getM c.t mask) (vtWidth ty) (getV c.t vd) (fun k => lookD ls k 0))) c.t) :=
    issueV_of_next h (by simp only [hls])
  rw [hres]
  refine lanesWritten_merged s' th zm vd fun k hk ha => ?_
  rw [hlook, if_pos (mem_activeLanes.2 ⟨hk, ha⟩)]

theorem vst_performed (h : Issues s th 4 c) {s' : State}
    (hst : InTurn (fun k x y => storeMem c (vmAddr rs1 off c.t + BitVec.ofNat 64 (laneOff (vtWidth ty) k))
      (leBytes (vtWidth ty / 8) (lane (vtWidth ty) (getV c.t vd) k)) (ioFails io k) x = .ok () y)
      (activeLanes (vtWidth ty) (getM c.t mask)) (storeFaults c io (vmAddr rs1 off c.t) (vtWidth ty / 8) 1 s) s') :
    exec (.vst th ty off mask zm rs1 vd io) s = ranV s' th 4 c.t :=
  issueV_of_next h (by
    dsimp only
    rw [storeLanes_eq, accessInTurn_of_inTurn hst])

theorem vldb_performed (h : Issues s th 4 c) (ha : activeLanes (vtWidth ty) (getM c.t mask) ≠ []) {bs : Bytes} {s' : State}
    (hl : loadMem c (vmAddr rs1 off c.t) (vtWidth ty / 8) io.data io.failAt.isSome (memFaults c io s) = .ok bs s') :
    LanesWritten s' th c.t (vtWidth ty) zm mask vd (fun _ => leVal bs % 2 ^ vtWidth ty) (exec (.vldb th ty off mask zm rs1 vd io) s) := by
  have hsome : ¬ (List.range (laneCount (vtWidth ty))).all (fun k => !active (getM c.t mask) k) = true := fun hall =>
    ha (List.filter_eq_nil_iff.2 (by simpa using hall))
  have hres : exec (.vldb th ty off mask zm rs1 vd io) s = ranV s' th 4 (setV vd (ofLanes (vtWidth ty)
      (merged zm (getM c.t mask) (vtWidth ty) (getV c.t vd) (fun _ => leVal bs))) c.t) :=
    issueV_of_next h (by simp only [if_neg hsome, hl])
  rw [hres]
  exact lanesWritten_merged s' th zm vd fun k _ _ => rfl

theorem vldb_inactive (h : Issues s th 4 c) (ha : activeLanes (vtWidth ty) (getM c.t mask) = []) :
    LanesWritten s th c.t (vtWidth ty) zm mask vd (fun _ => 0) (exec (.vldb th ty off mask zm rs1 vd io) s) := by
  have hnone : (List.range (laneCount (vtWidth ty))).all (fun k => !active (getM c.t mask) k) = true := by
    simpa using List.filter_eq_nil_iff.1 ha
  have hres : exec (.vldb th ty off mask zm rs1 vd io) s = ranV s th 4 (setV vd (ofLanes (vtWidth ty)
      (merged zm (getM c.t mask) (vtWidth ty) (getV c.t vd) (fun _ => 0))) c.t) :=
    issueV_of_next h (by simp only [if_pos hnone])
  rw [hres]
  exact lanesWritten_merged s th zm vd fun k _ _ => Nat.zero_mod _

theorem vaadd_illegal (h : Issues s th 4 c) (h3 : ty.val ≠ 3) (h4 : ty.val ≠ 4) :
    exec (.vaadd th ty off mask zm rs1 vd io) s = faultedV s c fkIllegal :=
  issueV_of_fault h (by simp only [vaaddFmt_none ty h3 h4])

theorem vaadd_misaligned (h : Issues s th 4 c) {f : Fmt} (ht : ty.val = 3 ∨ ty.val = 4) (hf : vtFmt ty = some f)
    (ha : (vmAddr rs1 off c.t).toNat % 64 ≠ 0) : exec (.vaadd th ty off mask zm rs1 vd io) s = faultedV s c fkAlign :=
  issueV_of_fault h (by simp only [vaaddFmt_eq ty ht, hf, if_pos ha])

/-- vaadd at an aligned address, by what the test of its active lanes comes to: added once every lane is ready, else no lane is. -/
theorem vaadd_ends (h : Issues s th 4 c) {f : Fmt} (ht : ty.val = 3 ∨ ty.val = 4) (hf : vtFmt ty = some f)
    (ha : (vmAddr rs1 off c.t).toNat % 64 = 0) :
    let ready := accessInTurn (fun k => atomicReady c (vmAddr rs1 off c.t + BitVec.ofNat 64 (laneOff f.w k)) (f.w / 8))
      (activeLanes f.w (getM c.t mask)) (storeFaults c io (vmAddr rs1 off c.t) (f.w / 8) 2 s)
    let r := exec (.vaadd th ty off mask zm rs1 vd io) s
    (∀ s1 s', ready = .ok () s1 →
      accessInTurn (addLane c (vmAddr rs1 off c.t) (getV c.t vd) f) (activeLanes f.w (getM c.t mask)) s1 = .ok () s' → r = ranV s' th 4 c.t) ∧
    (∀ s', ready = .wait s' → r = .next (settle (setThread th c.t s'))) ∧
    (∀ q s', ready = .fault q s' → r = faultedV s' c q) := by
  have hal : ¬ (vmAddr rs1 off c.t).toNat % 64 ≠ 0 := not_not.2 ha
  refine ⟨fun s1 s' hr hadd => issueV_of_next h ?_, fun s' hr => issueV_of_keep h ?_, fun q s' hr => issueV_of_fault h ?_⟩
  · simp only [vaaddFmt_eq ty ht, hf, if_neg hal, readyLanes_eq, hr, addLanes_eq, hadd]
  · simp only [vaaddFmt_eq ty ht, hf, if_neg hal, readyLanes_eq, hr]
  · simp only [vaaddFmt_eq ty ht, hf, if_neg hal, readyLanes_eq, hr]

end

/-- Settles O23: vld, vst and vldb by their lanes (`lanesWritten_merged`), vaadd by how its test of every active lane ends (`vaadd_ends`). -/
theorem vectorMemoryTouchesActiveLanes : Obligations.VectorMemoryTouchesActiveLanes := by
  unfold Obligations.VectorMemoryTouchesActiveLanes
  intro s th c ty off mask zm rs1 vd io h
  rw [← vmAddr_eq]
  refine ⟨fun val s' hl => vld_performed h hl, fun s' hst => vst_performed h hst, fun bs s' hact hl => vldb_performed h hact hl, vldb_inactive h,
    vaadd_illegal h, fun ht ha => ?_, fun f hf ht ha => ⟨fun s1 s' hr hadd => ?_, fun pre k post s1 s2 hact hr => ?_⟩⟩
  · obtain ⟨f, hf⟩ := Option.isSome_iff_exists.1 (vtFmt_isSome ty ht)
    exact vaadd_misaligned h ht hf ha
  · obtain ⟨hdone, -, -⟩ := vaadd_ends (zm := zm) (mask := mask) (io := io) (vd := vd) h ht hf ha
    rw [← vtFmt_width hf] at hr hadd
    refine hdone s1 s' (accessInTurn_of_inTurn hr) (accessInTurn_of_inTurn (inTurn_congr (fun k x y => ?_) hadd))
    rintro ⟨old, hold⟩
    exact addLane_of_ok c _ _ hold
  · obtain ⟨-, hwait, hfault⟩ := vaadd_ends (zm := zm) (mask := mask) (io := io) (vd := vd) h ht hf ha
    rw [← vtFmt_width hf] at hr hact ⊢
    obtain ⟨hw, hq⟩ := accessInTurn_stops hr k post
    rw [← hact] at hw hq
    exact ⟨fun hk => hwait s2 (hw s2 hk), fun q hk => hfault q s2 (hq q s2 hk)⟩

end Sys2Proof.Machine
end

section
/-! Queue pairs, kernels and rules are made and ended (R80, R172 to R183, R254, R275): what the handler of each command answers, case by case. -/

namespace Sys2Proof.Machine

open Sys2Proof

/-! ### Checks and room (R72) -/

theorem checked_of_bad {s : State} {cs : List (Bool × Nat × Nat)} {st d : Nat} (h : firstBad cs = some (st, d)) (k : Res) :
    checked s cs k = Res.rej s st d := by
  rw [checked, h]

theorem checked_of_good {s : State} {cs : List (Bool × Nat × Nat)} (h : firstBad cs = none) (k : Res) : checked s cs k = k := by
  rw [checked, h]

theorem pass_of_firstBad_none {cs : List (Bool × Nat × Nat)} (h : firstBad cs = none) : ∀ e ∈ cs, e.1 = false := by
  induction cs with
  | nil => exact fun _ he => absurd he List.not_mem_nil
  | cons e r ih =>
    obtain ⟨b, st, d⟩ := e
    cases b with
    | true => cases h
    | false => exact List.forall_mem_cons.2 ⟨rfl, ih h⟩

/-- Where the room does not suffice, nothing further stops the command. -/
theorem roomThen_noResource (s s' : State) (bars : List (Bool × Nat × Nat)) (d : Nat) :
    roomThen s bars (Res.rej s' stNoResource d) = Res.rej s' stNoResource d := rfl

theorem roomThen_ok (s s' : State) (bars : List (Bool × Nat × Nat)) (clamped : Bool) (data : Bytes) :
    roomThen s bars (Res.ok s' clamped data) = checked s bars (Res.ok s' clamped data) := rfl

/-! ### CQP_CREATE (R254) -/

/-- The queue pair that a command asks for, with the sizes and the limit in effect. -/
def cqpAsked (c : Ctx) (s : State) (page : Nat) : Cqp :=
  { owner := c.iss.owner, gen := genOf s c.iss.owner, sqAddr := c.p 0 8, cqAddr := c.p 8 8, sqLog2 := clampN 4 15 (c.p 0x10 1),
    cqLog2 := clampN (clampN 4 15 (c.p 0x10 1)) 15 (c.p 0x11 1), version := c.p 0x12 1, place := c.p 0x13 1, vector := c.p 0x14 2,
    endpoint := c.p 0x16 2, inflight := clampN 1 4096 (c.p 0x18 4), page := page }

/-- The answer once the queue pair `q` is added under the number `n`. -/
def cqpAnswer (c : Ctx) (n : Nat) (q : Cqp) (s : State) : Res :=
  let eff := [(0x10, 1, q.sqLog2), (0x11, 1, q.cqLog2), (0x18, 4, q.inflight)]
  Res.ok (setCqp n q s) (c.differs eff) (c.echo 64 (whole [(0, 8), (8, 8), (0x12, 1), (0x13, 1), (0x14, 2), (0x16, 2)])
    (eff ++ [(0x1C, 4, n), (0x20, 8, q.sqAddr), (0x28, 8, q.cqAddr), (0x30, 8, bar2Addr s c.iss.owner (4096 * q.page))]))

/-- The host port whose queue region holds the rings that a command asks for. -/
def cqpHost (c : Ctx) (s : State) : Nat := queueHost s c.iss.owner (c.p 0x16 2)

/-- The placement of its rings in the queue region. -/
def cqpPlaced (c : Ctx) (n : Nat) (s : State) : Option (Nat × Nat × State) :=
  placeQueue n (cqpHost c s) c.iss.owner (clampN 4 15 (c.p 0x10 1)) (clampN (clampN 4 15 (c.p 0x10 1)) 15 (c.p 0x11 1)) s

section
variable {c : Ctx} {s : State}

theorem hCqpCreate_refused {st d : Nat} (h : firstBad (cqpChecks c s) = some (st, d)) : hCqpCreate c s = Res.rej s st d :=
  checked_of_bad h _

section
variable (hok : firstBad (cqpChecks c s) = none)
include hok

/-- A queue pair that passes its checks is placed in client memory or in the queue region. -/
theorem cqpPlace_le : c.p 0x13 1 ≤ 1 := by
  have h := pass_of_firstBad_none hok (decide (1 < c.p 0x13 1), stNotPermitted, dtField 0x13) (by simp [cqpChecks])
  simpa using h

theorem hCqpCreate_full (h : lowest 8192 (fun n => !has s.tab.cqps n) = none ∨ freePage s c.iss.owner = none) :
    hCqpCreate c s = Res.rej s stNoResource dtNone := by
  unfold hCqpCreate
  rw [checked_of_good hok]
  rcases h with h | h
  · rw [h, roomThen_noResource]
  · rw [h]
    cases lowest 8192 (fun n => !has s.tab.cqps n) <;> rfl

variable {n page : Nat} (hn : lowest 8192 (fun n => !has s.tab.cqps n) = some n) (hpage : freePage s c.iss.owner = some page)
include hn hpage

theorem hCqpCreate_client (h0 : c.p 0x13 1 = 0) : hCqpCreate c s = cqpAnswer c n (cqpAsked c s page) s := by
  unfold hCqpCreate
  dsimp only
  rw [checked_of_good hok, hn, hpage]
  dsimp only
  rw [if_pos h0, roomThen_ok]
  refine checked_of_good ?_ _
  simp [h0, firstBad]

section
variable (h1 : c.p 0x13 1 ≠ 0)
include h1

theorem hCqpCreate_noPlace (hq : cqpPlaced c n s = none) :
    hCqpCreate c s = Res.rej s stNoResource dtNone := by
  unfold hCqpCreate
  dsimp only
  rw [checked_of_good hok, hn, hpage]
  dsimp only
  rw [if_neg h1, show placeQueue n (queueHost _ _ _) _ _ _ s = _ from hq]
  rfl

theorem hCqpCreate_placed {i j : Nat} {s1 : State}
    (hq : cqpPlaced c n s = some (i, j, s1)) :
    let base := bar2Addr s (pfId (cqpHost c s) 0) 0x10000000
    hCqpCreate c s = if (bar2Base s (pfId (cqpHost c s) 0)).isSome
      then cqpAnswer c n { cqpAsked c s page with sqAddr := base + 4096 * i, cqAddr := base + 4096 * j } s1 else Res.rej s stConflict dtNone := by
  have hplace : (c.p 0x13 1 == 1) = true := beq_iff_eq.2 (Nat.le_antisymm (cqpPlace_le hok) (Nat.pos_of_ne_zero h1))
  unfold hCqpCreate
  dsimp only
  rw [checked_of_good hok, hn, hpage]
  dsimp only
  rw [if_neg h1, show placeQueue n (queueHost _ _ _) _ _ _ s = _ from hq]
  dsimp only
  rw [roomThen_ok, hplace]
  cases hbar : bar2Base s (pfId (cqpHost c s) 0) with
  | none =>
    refine checked_of_bad ?_ _
    exact if_pos (congrArg Option.isNone hbar)
  | some b =>
    refine checked_of_good ?_ _
    exact if_neg (Bool.eq_false_iff.1 (congrArg Option.isNone hbar))

end

end

/-! ### CQP_DESTROY (R80) -/

theorem hCqpDestroy_unknown (h : cqpOf s (c.p 0 4) = none) : hCqpDestroy c s = Res.rej s stBadHandle (dtField 0) := by
  rw [hCqpDestroy, h]

section
variable {q : Cqp} (h : cqpOf s (c.p 0 4) = some q)
include h

theorem hCqpDestroy_refused (hr : mayName c q.owner = false ∨ q.closing = true) : hCqpDestroy c s = Res.rej s stBadHandle (dtField 0) := by
  have hbad : (!mayName c q.owner || q.closing) = true := by simpa using hr
  unfold hCqpDestroy
  dsimp only
  rw [h]
  exact if_pos hbad

/-- The queue pair takes in nothing more. -/
def cqpClosed (n : Nat) (q : Cqp) (s : State) : State := setCqp n { q with closing := true, unread := [], waiting := [], closedCount := 0 } s

variable (hm : mayName c q.owner = true) (hc : q.closing = false)
include hm hc

theorem hCqpDestroy_idle (hrun : q.running = []) :
    hCqpDestroy c s = Res.ok (settle (removeCqp (c.p 0 4) (cqpClosed (c.p 0 4) q s))) false (layout 8 [(0, 4, c.p 0 4)]) := by
  unfold hCqpDestroy
  dsimp only
  rw [h]
  dsimp only
  rw [if_neg (by simp [hm, hc]), if_pos (by simp [hrun])]
  rfl

theorem hCqpDestroy_busy (hrun : q.running ≠ []) : ∃ data,
    hCqpDestroy c s = .later (addWait c .destroy (c.p 0 4) 0 (cqpClosed (c.p 0 4) q s)) dtNone data := by
  unfold hCqpDestroy
  dsimp only
  rw [h]
  dsimp only
  rw [if_neg (by simp [hm, hc]), if_neg (by simp [hrun])]
  exact ⟨_, rfl⟩

end

/-! ### KERNEL_LOAD (R172 to R176) -/

theorem roundUp_mod {m : Nat} (h : m ≠ 0) (v : Nat) : roundUp m v % m = 0 := by
  rw [roundUp, if_neg h, Nat.mul_mod_left]

/-- The fields in effect lie in their ranges (R173). -/
theorem askedKernel_bounds (c : Ctx) : let k := askedKernel c
    k.owner = c.iss.owner ∧ 1 ≤ k.threads ∧ k.threads ≤ 64 ∧ k.prio ≤ 3 ∧ k.perCore % 4096 = 0 ∧ k.shared % 4096 = 0 ∧
      1 ≤ k.watchdogMs ∧ k.watchdogMs ≤ 60000 := by
  obtain ⟨ht1, ht2⟩ := clampN_bounds (lo := 1) (hi := 64) (by decide) (c.p 0xD 1)
  obtain ⟨hw1, hw2⟩ := clampN_bounds (lo := 1) (hi := 60000) (by decide) (c.p 0x18 4)
  exact ⟨rfl, ht1, ht2, clampN_le (by decide) _, roundUp_mod (m := 4096) (by decide) _, roundUp_mod (m := 4096) (by decide) _, hw1, hw2⟩

/-- A placed kernel is the one asked for, with its code's length and entry from the image's header, on as many clusters as asked. -/
theorem placeKernel_eq_some {k k' : Kernel} {n : Nat} {im : Bytes} {s s' : State} (h : placeKernel k n im s = some (k', s')) :
    ∃ handle frames slots offsets clusters, clusters.length = n ∧
      k' = { k with handle := handle, frames := frames, codeLen := le im 0xC 4, entry := le im 0x10 4, clusters := clusters, slots := slots, offsets := offsets } := by
  unfold placeKernel at h
  dsimp only at h
  split at h
  next ki _ =>
    split at h
    · cases h
    next hfit =>
      obtain ⟨a, -, ha⟩ := Option.map_eq_some_iff.1 h
      obtain ⟨rfl, -⟩ := Prod.mk.inj ha
      refine ⟨_, _, _, _, _, ?_, rfl⟩
      have := List.length_take_le n ((List.range 16).filter (clusterFits s k.owner k.threads (kernelScratch k)))
      omega
  next => cases h

/-- The checks of KERNEL_LOAD, in the order of the fields. -/
def kernelChecks (c : Ctx) (s : State) : List (Bool × Nat × Nat) :=
  let len := c.p 8 4
  let foreign := fun (i : Nat) => c.p (0x20 + 4 * i) 4 != 0 &&
    !(match tblByHandle s (c.p (0x20 + 4 * i) 4) with | some (_, t) => t.owner == c.iss.owner | none => false)
  [(c.pkt.dma.isNone, stBadAddress, dtField 0), (decide (len < 64 ∨ 1048576 < len), stBadAddress, dtField 8)]
    ++ (List.range 8).map (fun i => (foreign i, stBadHandle, dtField (0x20 + 4 * i))) ++ imageChecks ((c.pkt.dma.getD []).take len)

/-- The placement that a KERNEL_LOAD comes to. -/
def kernelPlaced (c : Ctx) (s : State) : Option (Kernel × State) :=
  placeKernel (askedKernel c) (clampN 1 16 (c.p 0xC 1)) ((c.pkt.dma.getD []).take (c.p 8 4)) (spareFirst (List.range 16) s)

theorem hKernelLoad_refused {st d : Nat} (h : firstBad (kernelChecks c s) = some (st, d)) : hKernelLoad c s = Res.rej s st d :=
  checked_of_bad h _

theorem hKernelLoad_noPlace (hok : firstBad (kernelChecks c s) = none) (h : kernelPlaced c s = none) :
    hKernelLoad c s = Res.rej s stNoResource dtNone := by
  refine (checked_of_good hok _).trans ?_
  rw [show placeKernel _ _ _ _ = _ from h]

theorem hKernelLoad_placed (hok : firstBad (kernelChecks c s) = none) {k : Kernel} {s1 : State} (h : kernelPlaced c s = some (k, s1)) :
    let n := clampN 1 16 (c.p 0xC 1)
    hKernelLoad c s = Res.ok s1 (c.differs [(0xC, 1, n), (0xD, 1, k.threads), (0xE, 1, k.prio), (0x10, 4, k.perCore), (0x14, 4, k.shared),
        (0x18, 4, k.watchdogMs)])
      (layout 32 [(0, 4, k.handle), (4, 1, n), (5, 1, k.threads), (6, 1, k.prio), (8, 4, k.perCore), (0xC, 4, k.shared),
        (0x10, 4, k.watchdogMs), (0x14, 4, k.codeLen), (0x18, 2, (k.clusters.map (2 ^ ·)).sum)]) := by
  refine (checked_of_good hok _).trans ?_
  rw [show placeKernel _ _ _ _ = _ from h]

/-! ### KERNEL_UNLOAD (R181, R183) -/

theorem hKernelUnload_unknown (h : kernelByHandle s (c.p 0 4) = none) : hKernelUnload c s = Res.rej s stBadHandle (dtField 0) := by
  rw [hKernelUnload, h]

section
variable {ki : Nat} {k : Kernel} (h : kernelByHandle s (c.p 0 4) = some (ki, k))
include h

theorem hKernelUnload_refused (hr : mayName c k.owner = false ∨ k.unloading = true) : hKernelUnload c s = Res.rej s stBadHandle (dtField 0) := by
  have hbad : (!mayName c k.owner || k.unloading) = true := by simpa using hr
  unfold hKernelUnload
  rw [h]
  exact if_pos hbad

/-- Items of a kernel that have not ended. -/
def itemsOpen (s : State) (ki : Nat) : Nat := ((s.mason.jobs.filter (fun j => j.kernel == ki)).map (fun j => j.items - j.ended)).sum

variable (hm : mayName c k.owner = true) (hu : k.unloading = false)
include hm hu

theorem hKernelUnload_ruled (hr : ruleHeld s ki = true) : hKernelUnload c s = Res.rej s stBusy dtNone := by
  unfold hKernelUnload
  rw [h]
  dsimp only
  rw [if_neg (by simp [hm, hu]), if_pos hr]

theorem hKernelUnload_idle (hr : ruleHeld s ki = false) (hb : kernelBusy (stopKernel ki (spareFirst k.clusters s)) ki = false) :
    hKernelUnload c s = Res.ok (settle (releaseKernel ki (stopKernel ki (spareFirst k.clusters s)))) false
      (layout 8 [(0, 4, k.handle), (4, 4, itemsOpen s ki)]) := by
  unfold hKernelUnload
  rw [h]
  dsimp only
  rw [if_neg (by simp [hm, hu]), if_neg (by simp [hr]), if_neg (by simp [hb])]
  rfl

theorem hKernelUnload_busy (hr : ruleHeld s ki = false) (hb : kernelBusy (stopKernel ki (spareFirst k.clusters s)) ki = true) : ∃ data,
    hKernelUnload c s = .later (addWait c .destroy ki (itemsOpen s ki) (stopKernel ki (spareFirst k.clusters s))) dtNone data := by
  unfold hKernelUnload
  rw [h]
  dsimp only
  rw [if_neg (by simp [hm, hu]), if_neg (by simp [hr]), if_pos hb]
  exact ⟨_, rfl⟩

end

/-! ### RULE_REGISTER (R275) -/

theorem hRuleRegister_unpopulated (h : s.mem.hotTotal = 0) : hRuleRegister c s = Res.rej s stNoResource dtNone := by
  rw [hRuleRegister]
  exact if_pos h

section
variable (hp : s.mem.hotTotal ≠ 0)
include hp

theorem hRuleRegister_unknown (h : kernelByHandle s (c.p 0 4) = none) : hRuleRegister c s = Res.rej s stBadHandle (dtField 0) := by
  unfold hRuleRegister
  dsimp only
  rw [if_neg hp, h]

variable {ki : Nat} {k : Kernel} (h : kernelByHandle s (c.p 0 4) = some (ki, k))
include h

theorem hRuleRegister_refused (hr : k.owner ≠ c.iss.owner ∨ k.unloading = true) : hRuleRegister c s = Res.rej s stBadHandle (dtField 0) := by
  have hbad : (k.owner != c.iss.owner || k.unloading) = true := by simpa using hr
  unfold hRuleRegister
  dsimp only
  rw [if_neg hp, h]
  exact if_pos hbad

variable (ho : k.owner = c.iss.owner) (hu : k.unloading = false)
include ho hu

theorem hRuleRegister_full (hf : lowest 65536 (fun i => !has s.tab.rules (i + 1)) = none) : hRuleRegister c s = Res.rej s stNoResource dtNone := by
  unfold hRuleRegister
  dsimp only
  rw [if_neg hp, h]
  dsimp only
  rw [if_neg (by simp [ho, hu]), hf]

theorem hRuleRegister_made {i : Nat} (hf : lowest 65536 (fun i => !has s.tab.rules (i + 1)) = some i) :
    let sb := roundUp 16 (clampN 0 16384 (c.p 4 4))
    let r : Rule := { tenant := c.iss.owner, kernel := ki, stateBytes := sb, hyper := [c.p 8 4, c.p 0xC 4, c.p 0x10 4, c.p 0x14 4] }
    hRuleRegister c s = Res.ok (s.setTab { s.tab with rules := put s.tab.rules (i + 1) r }) (sb != c.p 4 4) (layout 16 [(0, 4, i + 1)]) := by
  unfold hRuleRegister
  dsimp only
  rw [if_neg hp, h]
  dsimp only
  rw [if_neg (by simp [ho, hu]), hf, ho]

end

end

/-! ### The statement -/

/-- Settles O29: each command by what its handler answers or leaves (`replied_of_handler`, `onward_of_handler_later`). -/
theorem queuePairsKernelsAndRulesAreMade : Obligations.QueuePairsKernelsAndRulesAreMade := by
  unfold Obligations.QueuePairsKernelsAndRulesAreMade
  refine ⟨fun via pkt s s0 c hs => ?_, fun via pkt s s0 c hs => ?_, fun via pkt s s0 c hs => ?_, fun via pkt s s0 c hs => ?_,
    fun via pkt s s0 c hs => ?_⟩
  · refine ⟨fun st d h => replied_of_handler hs (by decide) (hCqpCreate_refused h), fun hok h => replied_of_handler hs (by decide) (hCqpCreate_full hok h),
      fun n page hok hn hp => ⟨fun h0 => ?_, fun h1 hq => ?_, fun i j s1 h1 hq => ⟨fun hb => ?_, fun hb => ?_⟩⟩⟩
    · exact replied_of_handler hs (by decide) (hCqpCreate_client hok hn hp h0)
    · exact replied_of_handler hs (by decide) (hCqpCreate_noPlace hok hn hp h1 hq)
    · exact replied_of_handler hs (by decide) ((hCqpCreate_placed hok hn hp h1 hq).trans (if_neg (Bool.eq_false_iff.1 hb)))
    · exact replied_of_handler hs (by decide) ((hCqpCreate_placed hok hn hp h1 hq).trans (if_pos hb))
  · refine ⟨fun h => replied_of_handler hs (by decide) (hCqpDestroy_unknown h), fun q h => ⟨fun hr => ?_, fun hm hc hrun => ?_, fun hm hc hrun => ?_⟩⟩
    · exact replied_of_handler hs (by decide) (hCqpDestroy_refused h hr)
    · exact replied_of_handler hs (by decide) (hCqpDestroy_idle h hm hc hrun)
    · obtain ⟨data, hl⟩ := hCqpDestroy_busy h hm hc hrun
      exact onward_of_handler_later hs (by decide) hl
  · refine ⟨fun st d h => replied_of_handler hs (by decide) (hKernelLoad_refused h), fun hok h => ?_, fun k s1 hok h => ⟨?_, ?_⟩⟩
    · exact replied_of_handler hs (by decide) (hKernelLoad_noPlace hok h)
    · exact replied_of_handler hs (by decide) (hKernelLoad_placed hok h)
    · obtain ⟨handle, frames, slots, offsets, clusters, hlen, rfl⟩ := placeKernel_eq_some h
      obtain ⟨howner, hbounds⟩ := askedKernel_bounds c
      exact ⟨howner, rfl, rfl, hlen, hbounds⟩
  · refine ⟨fun h => replied_of_handler hs (by decide) (hKernelUnload_unknown h), fun ki k h => ⟨fun hr => ?_, fun hm hu hr => ?_,
      fun hm hu hr hb => ?_, fun hm hu hr hb => ?_⟩⟩
    · exact replied_of_handler hs (by decide) (hKernelUnload_refused h hr)
    · exact replied_of_handler hs (by decide) (hKernelUnload_ruled h hm hu hr)
    · exact replied_of_handler hs (by decide) (hKernelUnload_idle h hm hu hr hb)
    · obtain ⟨data, hl⟩ := hKernelUnload_busy h hm hu hr hb
      exact onward_of_handler_later hs (by decide) hl
  · refine ⟨fun h => replied_of_handler hs (by decide) (hRuleRegister_unpopulated h), fun hp h => ?_,
      fun ki k hp h => ⟨fun hr => ?_, fun ho hu hf => ?_, fun i ho hu hf => ?_⟩⟩
    · exact replied_of_handler hs (by decide) (hRuleRegister_unknown hp h)
    · exact replied_of_handler hs (by decide) (hRuleRegister_refused hp h hr)
    · exact replied_of_handler hs (by decide) (hRuleRegister_full hp h ho hu hf)
    · exact replied_of_handler hs (by decide) (hRuleRegister_made hp h ho hu hf)

end Sys2Proof.Machine
end

section
/-! Scalar arithmetic (R201, R202, R206, R207, R210): what each scalar instruction writes to its destination. -/

namespace Sys2Proof.Machine

open Sys2Proof

section
variable {s : State} {th len : Nat} {c : TCtx}

/-- An instruction that writes registers only leaves its thread as it makes it. -/
theorem pureOp_ran (h : Issues s th len c) {f : Thread → Thread} {t : Thread} (hf : f c.t = t) :
    (.next (pureOp th len f s) : Ran) = ran s th len t :=
  issue_of_next h (congrArg (Flow.next · s) hf)

theorem pureOp_writes (h : Issues s th len c) {rd : Fin 32} {val : Thread → SReg} {v : SReg} (hv : val c.t = v) :
    (.next (pureOp th len (fun t => setS rd (val t) t) s) : Ran) = ran s th len (setS rd v c.t) :=
  pureOp_ran h (congrArg (setS rd · c.t) hv)

theorem rr_ran (h : Issues s th 4 c) {rd rs1 rs2 : Fin 32} {op : SReg → SReg → SReg} {v : SReg} (hv : op (getS c.t rs1) (getS c.t rs2) = v) :
    (.next (rr th rd rs1 rs2 op s) : Ran) = ran s th 4 (setS rd v c.t) :=
  pureOp_writes h (val := fun t => op (getS t rs1) (getS t rs2)) hv

theorem rk_ran (h : Issues s th 4 c) {rd rs1 : Fin 32} {k : SReg} {op : SReg → SReg → SReg} {v : SReg} (hv : op (getS c.t rs1) k = v) :
    (.next (rk th rd rs1 k op s) : Ran) = ran s th 4 (setS rd v c.t) :=
  pureOp_writes h (val := fun t => op (getS t rs1) k) hv

end

/-! ### Comparisons and products -/

theorem flag64_slt (a b : SReg) : flag64 (a.slt b) = if a.toInt < b.toInt then 1 else 0 := by
  simp [flag64, BitVec.slt]

theorem flag64_ult (a b : SReg) : flag64 (a.ult b) = if a.toNat < b.toNat then 1 else 0 := by
  simp [flag64, BitVec.ult]

theorem ite_slt (a b x y : SReg) : (if a.slt b then x else y) = if a.toInt < b.toInt then x else y := by
  simp [BitVec.slt]

theorem ite_ult (a b x y : SReg) : (if a.ult b then x else y) = if a.toNat < b.toNat then x else y := by
  simp [BitVec.ult]

theorem mul_eq_ofNat (a b : SReg) : a * b = BitVec.ofNat 64 (a.toNat * b.toNat) := by
  rw [BitVec.ofNat_mul, BitVec.ofNat_toNat, BitVec.ofNat_toNat, BitVec.setWidth_eq, BitVec.setWidth_eq]

/-- Settles O1: each row is `pureOp` of its destination and value. -/
theorem scalarArithmeticWritesItsDestination : Obligations.ScalarArithmeticWritesItsDestination := by
  unfold Obligations.ScalarArithmeticWritesItsDestination
  refine ⟨fun s th c rd rs1 rs2 h => ?_, fun s th c rd rs1 imm sh wide h => ?_, fun s th c rd rs imm h => ?_⟩
  · have hrr := @rr_ran s th c h rd rs1 rs2
    exact ⟨hrr rfl, hrr rfl, hrr rfl, hrr rfl, hrr rfl, hrr rfl, hrr rfl, hrr rfl, hrr (flag64_slt ..), hrr (flag64_ult ..), hrr (ite_slt ..),
      hrr (ite_slt ..), hrr (ite_ult ..), hrr (ite_ult ..), hrr (mul_eq_ofNat ..), hrr rfl, hrr rfl⟩
  · have hrk := @rk_ran s th c h rd rs1
    exact ⟨hrk rfl, hrk rfl, hrk rfl, hrk rfl, hrk (flag64_slt ..), hrk (flag64_ult ..), hrk rfl, hrk rfl, hrk rfl, pureOp_ran h rfl,
      pureOp_writes h rfl⟩
  · exact ⟨pureOp_writes h rfl, pureOp_writes h rfl, pureOp_writes h rfl, pureOp_ran h rfl, pureOp_writes h rfl, pureOp_writes h rfl,
      pureOp_ran h rfl⟩

/-! ### Division (R202) -/

section
variable {a b : SReg}

theorem quotS_zero_of_nonneg (h : 0 ≤ a.toInt) : (quotS a 0).toInt = 2 ^ 63 - 1 := by
  have hs : a.slt 0 = false := by simpa [BitVec.slt] using h
  rw [quotS, if_pos rfl, hs]
  decide

theorem quotS_zero_of_neg (h : a.toInt < 0) : (quotS a 0).toInt = -2 ^ 63 := by
  have hs : a.slt 0 = true := by simpa [BitVec.slt] using h
  rw [quotS, if_pos rfl, hs]
  decide

/-- The least integer and minus one, the one pair whose quotient has no 64 bits. -/
theorem eq_of_overflow (ha : a.toInt = -2 ^ 63) (hb : b.toInt = -1) : a = BitVec.intMin 64 ∧ b = -1 :=
  ⟨BitVec.eq_of_toInt_eq (ha.trans (by decide)), BitVec.eq_of_toInt_eq (hb.trans (by decide))⟩

theorem quotS_toInt (hb : b ≠ 0) (h : ¬ (a.toInt = -2 ^ 63 ∧ b.toInt = -1)) : (quotS a b).toInt = a.toInt.tdiv b.toInt := by
  rw [quotS, if_neg hb]
  refine BitVec.toInt_sdiv_of_ne_or_ne a b ?_
  by_contra hc
  simp only [ne_eq, not_or, not_not] at hc
  obtain ⟨rfl, rfl⟩ := hc
  exact h (by decide)

theorem remS_toInt (hb : b ≠ 0) : (remS a b).toInt = a.toInt.tmod b.toInt := by
  rw [remS, if_neg hb, BitVec.toInt_srem]

theorem quotU_toNat (hb : b ≠ 0) : (quotU a b).toNat = a.toNat / b.toNat := by
  rw [quotU, if_neg hb]
  exact BitVec.toNat_udiv

theorem remU_toNat (hb : b ≠ 0) : (remU a b).toNat = a.toNat % b.toNat := by
  rw [remU, if_neg hb]
  exact BitVec.toNat_umod

end

/-- Settles O2: the quotients and remainders are `quotS`, `quotU`, `remS` and `remU` of the operands, corner by corner. -/
theorem divisionSaturatesAndNeverFaults : Obligations.DivisionSaturatesAndNeverFaults := by
  unfold Obligations.DivisionSaturatesAndNeverFaults
  intro s th c rd rs1 rs2 h a b
  refine ⟨quotS a b, quotU a b, remS a b, remU a b, rr_ran h rfl, rr_ran h rfl, rr_ran h rfl, rr_ran h rfl, ?_⟩
  clear_value a b
  refine ⟨?_, ?_, ?_, fun ha hb => ?_, fun hb ho => ?_, fun hb => ⟨quotU_toNat hb, remU_toNat hb⟩⟩
  · rintro rfl
    exact quotS_zero_of_nonneg
  · rintro rfl
    exact quotS_zero_of_neg
  · rintro rfl
    exact ⟨rfl, rfl, rfl⟩
  · obtain ⟨rfl, rfl⟩ := eq_of_overflow ha hb
    decide
  · refine ⟨quotS_toInt hb ho, remS_toInt hb, ?_⟩
    rw [quotS_toInt hb ho, remS_toInt hb, Int.mul_comm, Int.mul_tdiv_add_tmod]

end Sys2Proof.Machine
end

section
/-! Masks (R198, R210), branches and jumps (R213 to R215, R220), and the block repeat (R216 to R218). -/

namespace Sys2Proof.Machine

open Sys2Proof

/-! ### Masks -/

theorem lowestFrom_eq_some {p : Nat → Bool} {n k i : Nat} (h : lowestFrom p n k = some i) :
    i < k + n ∧ p i = true ∧ ∀ j, k ≤ j → j < i → p j = false := by
  induction n generalizing k with
  | zero => cases h
  | succ n ih =>
    rw [lowestFrom] at h
    split at h
    next hk =>
      cases h
      exact ⟨by omega, hk, fun j _ _ => by omega⟩
    next hk =>
      obtain ⟨hlt, hi, hbelow⟩ := ih h
      refine ⟨by omega, hi, fun j hj hji => ?_⟩
      rcases hj.eq_or_lt with rfl | hj
      · simpa using hk
      · exact hbelow j hj hji

theorem lowestFrom_eq_none {p : Nat → Bool} {n k : Nat} (h : lowestFrom p n k = none) : ∀ j, k ≤ j → j < k + n → p j = false := by
  induction n generalizing k with
  | zero => exact fun j _ _ => by omega
  | succ n ih =>
    rw [lowestFrom] at h
    split at h
    next => cases h
    next hk =>
      intro j hj hjn
      rcases hj.eq_or_lt with rfl | hj
      · simpa using hk
      · exact ih h j hj (by omega)

/-- The lowest number below a bound that passes a test, or the bound where none does. -/
theorem lowest_getD_spec (p : Nat → Bool) (n : Nat) :
    (∀ i < (lowest n p).getD n, p i = false) ∧ ((lowest n p).getD n < n → p ((lowest n p).getD n) = true) ∧ (lowest n p).getD n ≤ n := by
  cases h : lowest n p with
  | none => exact ⟨fun i hi => lowestFrom_eq_none h i (Nat.zero_le i) (by simpa using hi), fun hn => absurd hn (Nat.lt_irrefl n), Nat.le_refl n⟩
  | some k =>
    obtain ⟨hlt, hk, hbelow⟩ := lowestFrom_eq_some h
    exact ⟨fun i hi => hbelow i (Nat.zero_le i) hi, fun _ => hk, (by omega : k ≤ n)⟩

section
variable {s : State} {th : Nat} {c : TCtx}

theorem maskOp_ran (h : Issues s th 4 c) (md ma mb : Fin 8) (f : SReg → SReg → SReg) :
    (.next (maskOp th md ma mb f s) : Ran) = ran s th 4 (setM md (f (getM c.t ma) (getM c.t mb)) c.t) :=
  pureOp_ran h rfl

end

/-- Settles O3: each row is `pureOp` of its destination and value; the index of the lowest set bit is `lowest_getD_spec`. -/
theorem maskInstructionsActOnWholeMasks : Obligations.MaskInstructionsActOnWholeMasks := by
  unfold Obligations.MaskInstructionsActOnWholeMasks
  intro s th c rd rs1 md ma mb h a b
  have hop := maskOp_ran h md ma mb
  obtain ⟨hbelow, hset, hle⟩ := lowest_getD_spec (fun i => a.getLsbD i) 64
  exact ⟨hop _, hop _, hop _, hop _, ⟨_, rfl, pureOp_writes h rfl⟩, ⟨_, hbelow, hset, hle, pureOp_writes h rfl⟩, pureOp_ran h rfl,
    pureOp_writes h rfl, rfl, rfl, rfl, rfl⟩

/-! ### Branches and jumps -/

section
variable {s : State} {th len : Nat} {c : TCtx} {f : TCtx → State → Flow} {t : Thread} {target : SReg} {x : State}

theorem issue_of_jump (h : Issues s th len c) (hf : f c s = .jump t target x) : (.next (issue th len f s) : Ran) = jumped x th target t := by
  rw [issue, issueIn_of_issues h, hf]
  rfl

/-- A branch with a field of halfwords as its offset. -/
theorem branch_ends (h : Issues s th len c) {n : Nat} (off : BitVec n) {test : Thread → Bool} {taken : Prop} [Decidable taken]
    (ht : test c.t = true ↔ taken) :
    (.next (branch th len (off.signExtend 64) test s) : Ran) =
      if taken then jumped s th (c.t.pc + BitVec.ofInt 64 (off.toInt * 2)) c.t else ran s th len c.t := by
  have hoff : off.signExtend 64 <<< 1 = BitVec.ofInt 64 (off.toInt * 2) := signExtend_shiftLeft off 1
  split
  next htaken => exact issue_of_jump h ((if_pos (ht.2 htaken)).trans (by rw [hoff]))
  next hnot => exact issue_of_next h (if_neg (mt ht.1 hnot))

theorem getLsbD_zero_eq_false {a : SReg} (h : a % 2 = 0) : a.getLsbD 0 = false := by
  have hn : a.toNat % 2 = 0 := congrArg BitVec.toNat h
  simp [BitVec.getLsbD, hn]

theorem getLsbD_zero_eq_true {a : SReg} (h : a % 2 = 1) : a.getLsbD 0 = true := by
  have hn : a.toNat % 2 = 1 := congrArg BitVec.toNat h
  simp [BitVec.getLsbD, hn]

end

/-- With ACTIVE cleared no repeat is in force. -/
theorem lcActive_lcOff (lc : SReg) : lcActive (lcOff lc) = false := by
  rw [lcActive, lcOff, BitVec.getLsbD_and, BitVec.getLsbD_not]
  simp

/-- Settles O4: a branch is `branch` of its offset and test (`branch_ends`). -/
theorem branchesCompareAndJump : Obligations.BranchesCompareAndJump := by
  unfold Obligations.BranchesCompareAndJump
  refine ⟨fun s th c rs1 rs2 off h => ?_, fun s th c rs1 mask off h => ?_, fun s th c rs off far r h => ?_, fun s th c rd rs1 off imm h => ?_,
    fun t target => ⟨rfl, rfl, lcActive_lcOff t.lc, rfl, rfl, rfl⟩⟩
  · have hslt : (getS c.t rs1).slt (getS c.t rs2) = decide ((getS c.t rs1).toInt < (getS c.t rs2).toInt) := rfl
    have hult : (getS c.t rs1).ult (getS c.t rs2) = decide ((getS c.t rs1).toNat < (getS c.t rs2).toNat) := rfl
    exact ⟨branch_ends h off beq_iff_eq, branch_ends h off bne_iff_ne, branch_ends h off (by simp [hslt]), branch_ends h off (by simp [hslt]),
      branch_ends h off (by simp [hult]), branch_ends h off (by simp [hult])⟩
  · exact ⟨branch_ends h off beq_iff_eq, branch_ends h off bne_iff_ne, branch_ends h off bne_iff_ne, branch_ends h off beq_iff_eq⟩
  · refine ⟨branch_ends h off beq_iff_eq, branch_ends h off bne_iff_ne, (branch_ends h far (iff_true_intro rfl)).trans (if_pos trivial),
      fun heven => issue_of_jump h ?_, fun hodd => issue_of_fault h ?_⟩
    · rw [getLsbD_zero_eq_false heven]
      rfl
    · rw [getLsbD_zero_eq_true hodd]
      rfl
  · refine ⟨issue_of_jump h (by rw [signExtend_shiftLeft]; rfl), fun heven => issue_of_jump h ?_, fun hodd => issue_of_fault h ?_⟩
    · dsimp only [imm12]
      rw [getLsbD_zero_eq_false heven]
      rfl
    · dsimp only [imm12]
      rw [getLsbD_zero_eq_true hodd]
      rfl

/-! ### Block repeat -/

section
variable {start : SReg} {r : Fin 32} {n : Nat}

/-- The fields of lc for a block of `n` instructions, as one number: START, ACTIVE, CREG and LEN lie apart. -/
theorem lcOn_toNat (hn : n - 1 < 32) :
    (lcOn start r n).toNat = 2 ^ 32 * (start.toNat / 2 % 2 ^ 32) + (2 ^ 31 * 1 + (r.val * 32 + (n - 1))) := by
  have hr : r.val * 32 + (n - 1) < 2 ^ 31 := by omega
  have hstart : (start >>> 1 <<< 32).toNat = 2 ^ 32 * (start.toNat / 2 % 2 ^ 32) := by
    rw [BitVec.toNat_shiftLeft, BitVec.toNat_ushiftRight, Nat.shiftLeft_eq, Nat.shiftRight_eq_div_pow]
    omega
  have hlow : (BitVec.ofNat 64 (r.val * 32 + (n - 1))).toNat = r.val * 32 + (n - 1) := by
    rw [BitVec.toNat_ofNat, Nat.mod_eq_of_lt (by omega)]
  rw [lcOn, BitVec.toNat_or, BitVec.toNat_or, hstart, hlow, Nat.or_assoc, show (0x80000000#64).toNat = 2 ^ 31 * 1 from rfl,
    ← Nat.two_pow_add_eq_or_of_lt hr, ← Nat.two_pow_add_eq_or_of_lt (by omega)]

theorem lcActive_lcOn : lcActive (lcOn start r n) = true := by
  simp [lcActive, lcOn]

theorem lcLen_lcOn (hn : n - 1 < 32) : lcLen (lcOn start r n) = n - 1 := by
  rw [lcLen, BitVec.extractLsb'_toNat, lcOn_toNat hn, Nat.shiftRight_eq_div_pow]
  omega

theorem lcCreg_lcOn (hn : n - 1 < 32) : lcCreg (lcOn start r n) = r := by
  apply Fin.ext
  rw [lcCreg, BitVec.val_toFin, BitVec.extractLsb'_toNat, lcOn_toNat hn, Nat.shiftRight_eq_div_pow]
  omega

theorem lcStart_lcOn (hn : n - 1 < 32) : (lcStart (lcOn start r n)).toNat = start.toNat / 2 % 2 ^ 32 := by
  rw [lcStart, BitVec.toNat_ushiftRight, lcOn_toNat hn, Nat.shiftRight_eq_div_pow]
  omega

end

section
variable {s : State} {th : Nat} {c : TCtx} {rs1 : Fin 32} {imm : BitVec 12}

theorem rpt_undefined (h : Issues s th 4 c) (hbad : rs1 = 0 ∨ imm.toNat / 32 ≠ 0 ∨ lcActive c.t.lc = true) :
    exec (.rpt th rs1 imm) s = faulted s c fkIllegal := by
  refine issue_of_fault h (if_pos ?_)
  rw [Bool.or_eq_true, Bool.or_eq_true, beq_iff_eq, decide_eq_true_iff, or_assoc]
  exact hbad.imp_right (Or.imp_left fun hi => by omega)

/-- Where rpt is defined, the thread stands behind the block or at its start. -/
theorem rpt_defined (h : Issues s th 4 c) (h0 : rs1 ≠ 0) (hi : imm.toNat / 32 = 0) (hlc : lcActive c.t.lc = false) :
    exec (.rpt th rs1 imm) s = .next (settle (setThread th
      (if getS c.t rs1 = 0 then { c.t with pc := BitVec.ofNat 64 (codeSpan s c.k (imm.toNat + 1) (c.t.pc.toNat + 4)) }
       else { c.t with pc := c.t.pc + 4, lc := lcOn (c.t.pc + 4) rs1 (imm.toNat + 1), lpos := 0 }) (slotUsed false false th s))) := by
  have hgood : ¬ (rs1 == 0 || decide (32 < imm.toNat + 1) || lcActive c.t.lc) = true := by
    simp only [hlc, Bool.or_false, Bool.or_eq_true, beq_iff_eq, decide_eq_true_iff, h0, false_or]
    omega
  refine issue_of_keep h ((if_neg hgood).trans ?_)
  rw [h.th_eq]
  split <;> rfl

end

/-- What follows an instruction that did not redirect the pc, by the place in the block and the count that is left. -/
theorem advance_cases (t : Thread) (len : Nat) :
    let pc := t.pc + BitVec.ofNat 64 len
    let r := lcCreg t.lc
    (lcActive t.lc = false → advance len t = { t with pc := pc }) ∧
    (lcActive t.lc = true → t.lpos.toNat < lcLen t.lc → advance len t = { t with pc := pc, lpos := t.lpos + 1 }) ∧
    (lcActive t.lc = true → lcLen t.lc ≤ t.lpos.toNat → (getS t r).toNat ≤ 1 →
      advance len t = { setS r 0 t with pc := pc, lc := lcOff t.lc, lpos := 0 }) ∧
    (lcActive t.lc = true → lcLen t.lc ≤ t.lpos.toNat → 1 < (getS t r).toNat →
      advance len t = { setS r (getS t r - 1) t with pc := lcStart t.lc <<< 1, lpos := 0 }) := by
  refine ⟨fun ha => ?_, fun ha hl => ?_, fun ha hl hr => ?_, fun ha hl hr => ?_⟩
  · simp [advance, ha]
  · simp [advance, ha, hl]
  · have hle : getS t (lcCreg t.lc) ≤ 1 := hr
    simp only [advance, ha, Bool.not_true, Bool.false_eq_true, if_false, if_neg (Nat.not_lt.2 hl), if_pos hle]
  · have hle : ¬ getS t (lcCreg t.lc) ≤ 1 := Nat.not_le.2 hr
    simp only [advance, ha, Bool.not_true, Bool.false_eq_true, if_false, if_neg (Nat.not_lt.2 hl), if_neg hle]

/-- Settles O5: rpt by `rpt_undefined` and `rpt_defined`, the end of each instruction by `advance_cases`. -/
theorem blockRepeatRunsItsPasses : Obligations.BlockRepeatRunsItsPasses := by
  unfold Obligations.BlockRepeatRunsItsPasses
  refine ⟨fun s th c rs1 imm h => ⟨rpt_undefined h, fun h0 hi hlc => ⟨fun hz => ?_, fun hz => ?_⟩⟩, fun s k n off => ⟨rfl, rfl⟩,
    fun t len => ?_⟩
  · rw [rpt_defined h h0 hi hlc, if_pos hz]
  · have hn : imm.toNat + 1 - 1 < 32 := by omega
    refine ⟨_, ?_, lcActive_lcOn, lcCreg_lcOn hn, lcLen_lcOn hn, lcStart_lcOn hn⟩
    rw [rpt_defined h h0 hi hlc, if_neg hz]
  · obtain ⟨hfree, hinside, hlast, hagain⟩ := advance_cases t len
    refine ⟨hfree, hinside, fun ha hl hr => ?_, fun ha hl hr => ?_⟩
    · rw [hlast ha hl hr]
      exact ⟨rfl, rfl, lcActive_lcOff t.lc, rfl⟩
    · rw [hagain ha hl hr]
      refine ⟨rfl, rfl, ?_, rfl⟩
      unfold setS
      split <;> rfl

end Sys2Proof.Machine
end

section
/-! Loads (R112, R198, R207, R210, R287) by how their access ends, and what the model refutes about atomics (R160, R211). -/

namespace Sys2Proof.Machine

open Sys2Proof

/-! ### Loads -/

section
variable {s : State} {th len : Nat} {c : TCtx}

/-- A load by how its access ends: bytes in its destination, a fault, or a wait. -/
theorem loadTo_ends (h : Issues s th len c) (rd : Fin 32) (n : Nat) (addr : Thread → SReg) (ext : Nat → SReg) (io : MemIo) :
    let access := loadMem c (addr c.t) n io.data io.failAt.isSome (memFaults c io s)
    let r : Ran := .next (loadTo th len rd n addr ext io s)
    (∀ bs s', access = .ok bs s' → r = ran s' th len (setS rd (ext (leVal bs)) c.t)) ∧
    (∀ k s', access = .fault k s' → r = faulted s' c k) ∧
    (∀ s', access = .wait s' → r = .next (settle (setThread th c.t s'))) :=
  ⟨fun _ _ ha => issue_of_next h (by rw [ha]), fun _ _ ha => issue_of_fault h (by rw [ha]), fun _ ha => issue_of_keep h (by rw [ha])⟩

end

/-- A load waits for a channel that retrains (R112) or a row under repointing (R287) and changes nothing meanwhile. -/
theorem loadMem_wait {c : TCtx} {addr : SReg} {n : Nat} {ext : Bytes} {bad : Bool} {s s' : State} (h : loadMem c addr n ext bad s = .wait s') :
    s' = s ∧ ((∃ as, resolve s c addr n 0 = some (.mem as) ∧ ∃ a ∈ as, channelHeld s a = true) ∨
      (∃ ti region bs, resolve s c addr n 0 = some (.table ti region bs) ∧ tableWaits s ti region bs = true)) := by
  rw [loadMem] at h
  split at h
  case h_1 => cases h
  case h_2 => cases h
  case h_3 a ha => split at h <;> cases h
  case h_4 as ha =>
    split at h
    · cases h
    · split at h
      next hheld =>
        cases h
        exact ⟨rfl, .inl ⟨as, ha, List.any_eq_true.1 hheld⟩⟩
      next => cases h
  case h_5 ti region bs ha =>
    split at h
    · cases h
    · split at h
      next hwaits =>
        cases h
        exact ⟨rfl, .inr ⟨ti, region, bs, ha, hwaits⟩⟩
      next => cases h
  case h_6 => split at h <;> cases h

/-- Settles O6: every load is `loadTo` of its width, address and widening (`loadTo_ends`). -/
theorem loadsWriteTheBytesTheyRead : Obligations.LoadsWriteTheBytesTheyRead := by
  unfold Obligations.LoadsWriteTheBytesTheyRead
  refine ⟨fun s th c rd rs1 imm io h => ?_, fun s th c rd rb off io h => ?_, fun c addr n ext bad s s' => loadMem_wait⟩
  · have hld := fun n ext => loadTo_ends h rd n (based rs1 imm) ext io
    obtain ⟨hb, hbf, hbw⟩ := hld 1 (sx 8)
    obtain ⟨hh, hhf, hhw⟩ := hld 2 (sx 16)
    obtain ⟨hw, hwf, hww⟩ := hld 4 (sx 32)
    obtain ⟨hd, hdf, hdw⟩ := hld 8 zx
    obtain ⟨hbu, hbuf, hbuw⟩ := hld 1 zx
    obtain ⟨hhu, hhuf, hhuw⟩ := hld 2 zx
    obtain ⟨hwu, hwuf, hwuw⟩ := hld 4 zx
    exact ⟨hb, hh, hw, hd, hbu, hhu, hwu, fun k s' ha => ⟨hbf k s' ha, hbuf k s' ha⟩, fun k s' ha => ⟨hhf k s' ha, hhuf k s' ha⟩,
      fun k s' ha => ⟨hwf k s' ha, hwuf k s' ha⟩, hdf, fun s' ha => ⟨hbw s' ha, hbuw s' ha⟩, fun s' ha => ⟨hhw s' ha, hhuw s' ha⟩,
      fun s' ha => ⟨hww s' ha, hwuw s' ha⟩, hdw⟩
  · obtain ⟨hd, hdf, hdw⟩ := loadTo_ends h (primed rd) 8 (shortBase rb off 8) zx io
    obtain ⟨hw, hwf, hww⟩ := loadTo_ends h (primed rd) 4 (shortBase rb off 4) (sx 32) io
    exact ⟨hd, hw, hdf, hwf, hdw, hww⟩

/-! ### An atomic on scratch, in a memory out of its canonical form -/

/-- An atomic that swaps in a zero byte, whatever the old one is. -/
def swapZero (_ : Bytes) : Option Bytes := some [0]

theorem unsortedItem_atomicScratch : resolve unsortedItem firstItem scratchWindow 1 2 = some (.scratch scratchStart) := rfl

theorem unsortedItem_atomic : atomicMem firstItem scratchWindow 1 swapZero unsortedItem = .ok [7] (storeScratch scratchStart [0] unsortedItem) := by
  rw [atomicMem, if_neg (by decide), unsortedItem_atomicScratch]
  rfl

/-- Refutes O12: the access-level clauses range over states whose memory is not in the canonical form that every step keeps (O60), where a byte
swapped into scratch need not be read back: a zero swapped in at the start of scratch leaves a byte 7 that stands out of order. -/
theorem not_atomicsNeverPassTheIoWindows : ¬ Obligations.AtomicsNeverPassTheIoWindows := by
  unfold Obligations.AtomicsNeverPassTheIoWindows
  rintro ⟨-, h⟩
  have hlength : ∀ bs new, swapZero bs = some new → new.length = 1 := fun bs new hnew => by
    cases hnew
    rfl
  obtain ⟨-, -, -, hread⟩ := h unsortedItem _ firstItem scratchWindow 1 scratchStart swapZero [7] unsortedItem_atomicScratch hlength
    unsortedItem_atomic
  obtain ⟨-, hold⟩ := unsortedItem_store
  have hzero := hread [0] rfl
  rw [List.range_one, List.map_singleton, Nat.add_zero, hold] at hzero
  exact absurd hzero (by decide)

end Sys2Proof.Machine
end

section
/-! Vector arithmetic lane by lane (R201, R210, R230, R232, R234 to R236, R241, R242), and the moves of lanes and scalars (R210). -/

namespace Sys2Proof.Machine

open Sys2Proof

/-! ### Numbers of a lane's width -/

theorem vtFmt_of_lt {ty : Fin 8} (h : ty.val < 3) : vtFmt ty = none := by
  revert ty
  decide

theorem vtFmt_isSome_of_le {ty : Fin 8} (h : 3 ≤ ty.val) : (vtFmt ty).isSome = true := by
  revert ty
  decide

theorem vtWidth_pos (ty : Fin 8) : 0 < vtWidth ty := by
  revert ty
  decide

theorem wrapInt_lt (w : Nat) (x : Int) : wrapInt w x < 2 ^ w := by
  have hpos : (0 : Int) < (2 ^ w : Nat) := by positivity
  have hlt := Int.emod_lt_of_pos x hpos
  have hnn := Int.emod_nonneg x hpos.ne'
  rw [wrapInt]
  omega

/-- A shift to the right that fills with the sign, as a number of the width. -/
theorem wrapInt_shift (w n : Nat) (x : Int) : wrapInt w (x / (2 ^ n : Nat)) % 2 ^ w = (x / 2 ^ n % 2 ^ w).toNat := by
  rw [Nat.mod_eq_of_lt (wrapInt_lt ..), wrapInt, Nat.cast_pow, Nat.cast_pow, Nat.cast_ofNat]

theorem pickU_eq_min (a b : Nat) : pickU false a b = min a b := by
  rw [pickU_lesser]
  split <;> omega

theorem pickU_eq_max (a b : Nat) : pickU true a b = max a b := by
  rw [pickU_greater]
  split <;> omega

theorem ite_lt_two_pow {w a b : Nat} (p : Prop) [Decidable p] (ha : a < 2 ^ w) (hb : b < 2 ^ w) : (if p then a else b) < 2 ^ w := by
  split
  · exact ha
  · exact hb

/-- Two's complement of a lane is that of the word with its bits. -/
theorem sext_eq_toInt {w : Nat} (hw : 0 < w) (v : Nat) : sext w v = (BitVec.ofNat w v).toInt := by
  obtain ⟨n, rfl⟩ : ∃ n, w = n + 1 := ⟨w - 1, by omega⟩
  rw [sext, BitVec.toInt_eq_toNat_cond, BitVec.toNat_ofNat, Nat.add_sub_cancel, Nat.pow_succ]
  split <;> split <;> omega

theorem sx_eq_ofInt_sext {w : Nat} (hw : 0 < w) (v : Nat) : sx w v = BitVec.ofInt 64 (sext w v) := by
  rw [sext_eq_toInt hw]
  rfl

/-! ### One operation on every active lane -/

section
variable {s : State} {th : Nat} {c : TCtx} {ty : Fin 8} {rnd zm : Bool} {mask : Fin 8} {vs1 vd : Fin 16} {o : LaneOp} {second : Thread → Nat → Nat}

theorem pureOpV_ran (h : Issues s th 4 c) {f : Thread → Thread} {t : Thread} (hf : f c.t = t) :
    (.next (pureOpV th 4 f s) : Ran) = ranV s th 4 t :=
  issueV_of_next h (congrArg (Flow.next · s) hf)

theorem vecOp_excluded (h : Issues s th 4 c) (hx : o.excluded ty = true) :
    (.next (vecOp o th ty rnd zm mask second vs1 vd s) : Ran) = faultedV s c fkIllegal :=
  issueV_of_fault h (if_pos hx)

/-- An operation that its type has writes every active lane. -/
theorem vecOp_lanes (h : Issues s th 4 c) (hx : o.excluded ty = false) {val : Nat → Nat}
    (hval : ∀ k < 512 / vtWidth ty, o.run ty (laneRound rnd s.draw k) (lane (vtWidth ty) (getV c.t vs1) k) (second c.t k)
      (lane (vtWidth ty) (getV c.t vd) k) % 2 ^ vtWidth ty = val k) :
    LanesWritten (drawLanes (rnd && (vtFmt ty).isSome) s) th c.t (vtWidth ty) zm mask vd val (.next (vecOp o th ty rnd zm mask second vs1 vd s)) := by
  have hres : (.next (vecOp o th ty rnd zm mask second vs1 vd s) : Ran) = _ := issueV_of_next h (if_neg (Bool.eq_false_iff.1 hx))
  rw [hres]
  exact lanesWritten_merged _ th zm vd fun k hk _ => hval k hk

/-- On an integer type. -/
theorem vecOp_int (h : Issues s th 4 c) (hty : vtFmt ty = none) {g : Nat → Nat → Nat → Nat → Nat} (hg : o.int = some g) {val : Nat → Nat}
    (hval : ∀ k, g (vtWidth ty) (lane (vtWidth ty) (getV c.t vs1) k) (second c.t k) (lane (vtWidth ty) (getV c.t vd) k) % 2 ^ vtWidth ty = val k) :
    LanesWritten s th c.t (vtWidth ty) zm mask vd val (.next (vecOp o th ty rnd zm mask second vs1 vd s)) := by
  have hx : o.excluded ty = false := by simp [LaneOp.excluded, hty, hg]
  have hlanes := vecOp_lanes (rnd := rnd) (zm := zm) (mask := mask) (vs1 := vs1) (vd := vd) (second := second) h hx (val := val)
    fun k _ => by simpa only [LaneOp.run, hty, hg] using hval k
  simpa [hty, drawLanes] using hlanes

/-- On an FP type: the draws of random values go on where the rounding is stochastic. -/
theorem vecOp_fp (h : Issues s th 4 c) {f : Fmt} (hty : vtFmt ty = some f) {g : Fmt → Option Nat → Nat → Nat → Nat → Nat} (hg : o.fp = some g)
    {val : Nat → Nat} (hval : ∀ k, g f (laneRound rnd s.draw k) (lane f.w (getV c.t vs1) k) (second c.t k) (lane f.w (getV c.t vd) k) = val k) :
    LanesWritten (drawLanes rnd s) th c.t f.w zm mask vd (fun k => val k % 2 ^ f.w) (.next (vecOp o th ty rnd zm mask second vs1 vd s)) := by
  rw [vtFmt_width hty] at hval ⊢
  have hx : o.excluded ty = false := by simp [LaneOp.excluded, hty, hg]
  have hlanes := vecOp_lanes (rnd := rnd) (zm := zm) (mask := mask) (vs1 := vs1) (vd := vd) (second := second) h hx
    (val := fun k => val k % 2 ^ vtWidth ty) fun k _ => by simp only [LaneOp.run, hty, hg, hval]
  simpa only [hty, Option.isSome_some, Bool.and_true] using hlanes

end

/-- Settles O15: every row is `vecOp` of its lane operation (`vecOp_int`, `vecOp_excluded`), once for each way to give the second operand. -/
theorem integerVectorLanes : Obligations.IntegerVectorLanes := by
  unfold Obligations.IntegerVectorLanes
  constructor
  · intro s th c ty rnd zm mask rs vs2 vs1 vd h hlt w a d lanes forms
    have hty := vtFmt_of_lt hlt
    have ha : ∀ k, a k < 2 ^ w := lane_lt w _
    have hforms : ∀ second : Thread → Nat → Nat, (∀ k, second c.t k < 2 ^ w) → forms (second c.t)
        (.next (vecOp opAdd th ty rnd zm mask second vs1 vd s)) (.next (vecOp opSub th ty rnd zm mask second vs1 vd s))
        (.next (vecOp opMul th ty rnd zm mask second vs1 vd s)) (.next (vecOp opFma th ty rnd zm mask second vs1 vd s))
        (.next (vecOp opMin th ty rnd zm mask second vs1 vd s)) (.next (vecOp opMax th ty rnd zm mask second vs1 vd s))
        (.next (vecOp opSll th ty rnd zm mask second vs1 vd s)) (.next (vecOp opSrl th ty rnd zm mask second vs1 vd s))
        (.next (vecOp opSra th ty rnd zm mask second vs1 vd s)) := by
      intro second hb
      refine ⟨vecOp_int h hty rfl fun k => Nat.mod_mod .., vecOp_int h hty rfl fun k => ?_, vecOp_int h hty rfl fun k => Nat.mod_mod ..,
        vecOp_int h hty rfl fun k => Nat.mod_mod .., vecOp_int h hty rfl fun k => ?_, vecOp_int h hty rfl fun k => ?_,
        vecOp_int h hty rfl fun k => Nat.mod_mod .., vecOp_int h hty rfl fun k => ?_, vecOp_int h hty rfl fun k => ?_⟩
      · exact (Nat.mod_mod ..).trans (congrArg (· % 2 ^ w) (Nat.add_sub_assoc (hb k).le _))
      · rw [pickS_lesser]
        exact Nat.mod_eq_of_lt (ite_lt_two_pow _ (ha k) (hb k))
      · rw [pickS_greater]
        exact Nat.mod_eq_of_lt (ite_lt_two_pow _ (hb k) (ha k))
      · exact Nat.mod_eq_of_lt ((Nat.div_le_self ..).trans_lt (ha k))
      · exact wrapInt_shift ..
    have hb : ∀ k, lane w (getV c.t vs2) k < 2 ^ w := lane_lt w _
    refine ⟨hforms (fun t k => lane w (getV t vs2) k) hb, hforms (fun t _ => (getS t rs).toNat % 2 ^ w) fun _ => Nat.mod_lt _ (by positivity),
      vecOp_int h hty rfl fun k => ?_, vecOp_int h hty rfl fun k => ?_,
      vecOp_int h hty rfl fun k => Nat.mod_eq_of_lt (Nat.and_lt_two_pow _ (hb k)),
      vecOp_int h hty rfl fun k => Nat.mod_eq_of_lt (Nat.or_lt_two_pow (ha k) (hb k)),
      vecOp_int h hty rfl fun k => Nat.mod_eq_of_lt (Nat.xor_lt_two_pow (ha k) (hb k)),
      vecOp_int h hty rfl fun k => ?_, vecOp_int h hty rfl fun k => Nat.mod_mod .., vecOp_excluded h ?_, vecOp_excluded h ?_⟩
    · rw [pickU_eq_min]
      exact Nat.mod_eq_of_lt ((Nat.min_le_left ..).trans_lt (ha k))
    · rw [pickU_eq_max]
      exact Nat.mod_eq_of_lt (max_lt (ha k) (hb k))
    · exact Nat.mod_eq_of_lt (wrapInt_lt ..)
    · simp [LaneOp.excluded, hty, opDiv]
    · simp [LaneOp.excluded, hty, opSqrt]
  · intro s th c ty rnd zm mask rs vs2 vs1 vd h hle
    have hill : ∀ {o : LaneOp} {second : Thread → Nat → Nat}, o.fp = none →
        (.next (vecOp o th ty rnd zm mask second vs1 vd s) : Ran) = faultedV s c fkIllegal := fun hnone =>
      vecOp_excluded h (by simp [LaneOp.excluded, vtFmt_isSome_of_le hle, hnone])
    exact ⟨hill rfl, hill rfl, hill rfl, hill rfl, hill rfl, hill rfl, hill rfl, hill rfl, hill rfl, hill rfl, hill rfl⟩

/-- Settles O16: every row is `vecOp` of its lane operation (`vecOp_fp`), once for each way to give the second operand. -/
theorem floatVectorLanes : Obligations.FloatVectorLanes := by
  unfold Obligations.FloatVectorLanes
  intro s th c ty f rnd zm mask rs vs2 vs1 vd h hty w s' by' pa x z lanes forms pb
  have hforms : ∀ second : Thread → Nat → Nat, forms (second c.t)
      (.next (vecOp opAdd th ty rnd zm mask second vs1 vd s)) (.next (vecOp opSub th ty rnd zm mask second vs1 vd s))
      (.next (vecOp opMul th ty rnd zm mask second vs1 vd s)) (.next (vecOp opFma th ty rnd zm mask second vs1 vd s))
      (.next (vecOp opMin th ty rnd zm mask second vs1 vd s)) (.next (vecOp opMax th ty rnd zm mask second vs1 vd s)) := fun second =>
    ⟨vecOp_fp h hty rfl fun _ => rfl, vecOp_fp h hty rfl fun _ => rfl, vecOp_fp h hty rfl fun _ => rfl, vecOp_fp h hty rfl fun _ => rfl,
      vecOp_fp h hty rfl fun _ => rfl, vecOp_fp h hty rfl fun _ => rfl⟩
  have hw : vtWidth ty = w := (vtFmt_width hty).symm
  have hlane : ∀ k, lane (vtWidth ty) (getV c.t vs2) k = pb k := fun k => by rw [hw]
  have hpb : (fun k => lane (vtWidth ty) (getV c.t vs2) k) = pb := funext hlane
  have hscalar : (fun _ : Nat => (getS c.t rs).toNat % 2 ^ vtWidth ty) = fun _ => (getS c.t rs).toNat % 2 ^ w := by rw [hw]
  refine ⟨hw.symm, hpb ▸ hforms (fun t k => lane (vtWidth ty) (getV t vs2) k),
    hscalar ▸ hforms (fun t _ => (getS t rs).toNat % 2 ^ vtWidth ty), vecOp_fp h hty rfl fun k => ?_, vecOp_fp h hty rfl fun _ => rfl,
    vecOp_fp h hty rfl fun _ => rfl, vecOp_fp h hty rfl fun _ => rfl⟩
  exact congrArg (fun b => encF f (by' k) ((x k).div (decF f b))) (hlane k)

/-! ### Moves of lanes and scalars -/

section
variable {s : State} {th : Nat} {c : TCtx} {ty : Fin 8}

theorem opFirst_run (ty : Fin 8) (rnd : Option Nat) (a b d : Nat) : opFirst.run ty rnd a b d = b := by
  unfold LaneOp.run
  split <;> rfl

theorem opFirst_excluded (ty : Fin 8) : opFirst.excluded ty = false := by
  unfold LaneOp.excluded
  split <;> rfl

/-- A lane's number fits in the lane. -/
theorem laneCount_le (ty : Fin 8) : 512 / vtWidth ty ≤ 2 ^ vtWidth ty := by
  revert ty
  decide

/-- A lane that the type has is read whole, with its sign on an integer type. -/
theorem vext_within (h : Issues s th 4 c) {ln : Fin 64} (hn : ln.val < 512 / vtWidth ty) (sr : Fin 32) (vr : Fin 16) :
    exec (.vext th ty ln sr vr) s = ranV s th 4 (setS sr
      (if ty.val < 3 then BitVec.ofInt 64 (sext (vtWidth ty) (lane (vtWidth ty) (getV c.t vr) ln.val))
      else BitVec.ofNat 64 (lane (vtWidth ty) (getV c.t vr) ln.val)) c.t) := by
  refine issueV_of_next h ((if_neg (Nat.not_le.2 hn)).trans ?_)
  by_cases hlt : ty.val < 3
  · rw [vtFmt_of_lt hlt, if_neg (by decide), if_pos hlt, sx_eq_ofInt_sext (vtWidth_pos ty)]
  · rw [vtFmt_isSome_of_le (Nat.not_lt.1 hlt), if_pos rfl, if_neg hlt]
    rfl

end

/-- Settles O20: each row by the lanes of the register that it makes (`lane_ofLanes`). -/
theorem lanesAndScalarsMove : Obligations.LanesAndScalarsMove := by
  unfold Obligations.LanesAndScalarsMove
  intro s th c ty rnd zm mask rs ln vs2 vs1 vd h w n
  have hfit : ∀ v : VReg, ∀ k, lane w v k % 2 ^ w = lane w v k := fun v k => Nat.mod_eq_of_lt (lane_lt w v k)
  refine ⟨⟨_, pureOpV_ran h rfl, fun k hk => ?_⟩, ?_, ⟨_, pureOpV_ran h rfl, fun k hk => ?_⟩, ⟨_, pureOpV_ran h rfl, fun k hk => ?_⟩,
    fun hn => vext_within h hn rs vs1, fun hn => ⟨_, issueV_of_next h (if_pos hn)⟩⟩
  · rw [lane_ofLanes _ _ hk, apply_ite (· % 2 ^ w), hfit, hfit]
    rfl
  · exact vecOp_lanes (rnd := false) h (opFirst_excluded ty) fun k _ => (congrArg (· % 2 ^ w) (opFirst_run ..)).trans (Nat.mod_mod ..)
  · rw [lane_ofLanes _ _ hk, apply_ite (· % 2 ^ w), hfit]
  · rw [lane_ofLanes _ _ hk]
    cases vtFmt ty with
    | none => exact Nat.mod_eq_of_lt (hk.trans_le (laneCount_le ty))
    | some f => rfl

end Sys2Proof.Machine
end

section
/-! Compares (R233) by the bits of the mask they write, and reductions (R231) by what holds along their tree. -/

namespace Sys2Proof.Machine

open Sys2Proof

/-! ### Bits put together -/

theorem sum_bits_lt (p : Nat → Bool) (n : Nat) : ((List.range n).map (fun k => if p k then 2 ^ k else 0)).sum < 2 ^ n := by
  induction n with
  | zero => simp
  | succ n ih =>
    rw [List.range_succ, List.map_append, List.sum_append, List.map_singleton, List.sum_singleton, Nat.pow_succ]
    split <;> omega

/-- A number whose bits are given one by one reads them back. -/
theorem testBit_sum_bits (p : Nat → Bool) (n j : Nat) :
    ((List.range n).map (fun k => if p k then 2 ^ k else 0)).sum.testBit j = (decide (j < n) && p j) := by
  induction n with
  | zero => simp
  | succ n ih =>
    have hlast : (if p n then 2 ^ n else 0) = 2 ^ n * (p n).toNat := by cases p n <;> simp
    rw [List.range_succ, List.map_append, List.sum_append, List.map_singleton, List.sum_singleton, hlast, Nat.add_comm,
      Nat.two_pow_add_eq_or_of_lt (sum_bits_lt p n), Nat.testBit_or, ih, Nat.testBit_two_pow_mul, Nat.testBit_bool_toNat]
    rcases Nat.lt_trichotomy j n with h | rfl | h
    · simp [h, Nat.lt_succ_of_lt h, Nat.not_le.2 h]
    · simp
    · have h0 : j - n ≠ 0 := by omega
      have hout : ¬ j < n + 1 := by omega
      simp [hout, Nat.not_lt.2 h.le, h0]

/-! ### Compares -/

/-- The relation of two lanes of a type, as `compare` takes it. -/
def LaneRel.run (o : LaneRel) (ty : Fin 8) (a b : Nat) : Bool :=
  match vtFmt ty, o.fp with
  | some f, some g => g (decF f a) (decF f b)
  | _, _ => o.int (vtWidth ty) a b

/-- The outcome is the next state in which the thread goes on with md holding, bit by bit, which active lanes are in a relation. -/
def MaskWritten (s : State) (th : Nat) (t : Thread) (w : Nat) (mask md : Fin 8) (rel : Nat → Prop) (r : Ran) : Prop :=
  ∃ m : SReg, r = ranV s th 4 (setM md m t) ∧ ∀ k < 64, (m.getLsbD k = true ↔ k < 512 / w ∧ (getM t mask).getLsbD k = true ∧ rel k)

section
variable {s : State} {th : Nat} {c : TCtx} {ty : Fin 8} {mask md : Fin 8} {vs2 vs1 : Fin 16} {o : LaneRel}

theorem compare_excluded (h : Issues s th 4 c) (hty : (vtFmt ty).isSome = true) (ho : o.fp = none) :
    (.next (compare o th ty mask vs2 vs1 md s) : Ran) = faultedV s c fkIllegal :=
  issueV_of_fault h (if_pos (by simp [hty, ho]))

theorem compare_writes (h : Issues s th 4 c) (hx : ((vtFmt ty).isSome && o.fp.isNone) = false) {rel : Nat → Prop}
    (hrel : ∀ k, o.run ty (lane (vtWidth ty) (getV c.t vs1) k) (lane (vtWidth ty) (getV c.t vs2) k) = true ↔ rel k) :
    MaskWritten s th c.t (vtWidth ty) mask md rel (.next (compare o th ty mask vs2 vs1 md s)) := by
  refine ⟨_, issueV_of_next h (if_neg (Bool.eq_false_iff.1 hx)), fun k hk => ?_⟩
  rw [BitVec.getLsbD_ofNat, testBit_sum_bits, Bool.and_eq_true, Bool.and_eq_true, Bool.and_eq_true, decide_eq_true_iff, decide_eq_true_iff,
    ← hrel k]
  exact and_iff_right hk

/-- On an integer type. -/
theorem compare_int (h : Issues s th 4 c) (hty : vtFmt ty = none) {rel : Nat → Prop}
    (hrel : ∀ k, o.int (vtWidth ty) (lane (vtWidth ty) (getV c.t vs1) k) (lane (vtWidth ty) (getV c.t vs2) k) = true ↔ rel k) :
    MaskWritten s th c.t (vtWidth ty) mask md rel (.next (compare o th ty mask vs2 vs1 md s)) :=
  compare_writes h (by simp [hty]) fun k => by simpa only [LaneRel.run, hty] using hrel k

/-- On an FP type. -/
theorem compare_fp (h : Issues s th 4 c) {f : Fmt} (hty : vtFmt ty = some f) {g : FV → FV → Bool} (hg : o.fp = some g) {rel : Nat → Prop}
    (hrel : ∀ k, g (decF f (lane (vtWidth ty) (getV c.t vs1) k)) (decF f (lane (vtWidth ty) (getV c.t vs2) k)) = true ↔ rel k) :
    MaskWritten s th c.t (vtWidth ty) mask md rel (.next (compare o th ty mask vs2 vs1 md s)) :=
  compare_writes h (by simp [hg]) fun k => by simpa only [LaneRel.run, hty, hg] using hrel k

end

/-- Nothing is ordered against a NaN. -/
theorem FV.lt_nan (x : FV) : x.lt .nan = none := by cases x <;> rfl

theorem FV.compare_nan {x y : FV} (h : x = .nan ∨ y = .nan) : x.eq y = none ∧ x.lt y = none ∧ y.lt x = none := by
  rcases h with rfl | rfl
  · exact ⟨rfl, rfl, FV.lt_nan y⟩
  · exact ⟨by rw [FV.eq, FV.lt_nan], FV.lt_nan x, rfl⟩

/-- Settles O19: each row is `compare` of its relation (`compare_int`, `compare_fp`). -/
theorem comparesWriteMaskBits : Obligations.ComparesWriteMaskBits := by
  unfold Obligations.ComparesWriteMaskBits
  refine ⟨?_, fun x y => FV.compare_nan⟩
  intro s th c ty rnd zm mask vs2 vs1 md h w a b wrote
  refine ⟨fun hlt => ?_, fun f hty => ?_⟩
  · have hty := vtFmt_of_lt hlt
    exact ⟨compare_int h hty fun _ => beq_iff_eq, compare_int h hty fun _ => bne_iff_ne, compare_int h hty fun _ => decide_eq_true_iff,
      compare_int h hty fun _ => decide_eq_true_iff, compare_int h hty fun _ => decide_eq_true_iff, compare_int h hty fun _ => decide_eq_true_iff⟩
  · have hsome : (vtFmt ty).isSome = true := by rw [hty]; rfl
    exact ⟨compare_fp h hty rfl fun _ => beq_iff_eq, compare_fp h hty rfl fun _ => bne_iff_ne, compare_fp h hty rfl fun _ => beq_iff_eq,
      compare_fp h hty rfl fun _ => beq_iff_eq, compare_excluded h hsome rfl, compare_excluded h hsome rfl⟩

/-! ### Trees -/

theorem pairUp_length (f : Nat → Nat → Nat → Nat) (i : Nat) (l : List Nat) : (pairUp f i l).length = (l.length + 1) / 2 := by
  induction i, l using pairUp.induct with
  | case1 => rfl
  | case2 => simp [pairUp]
  | case3 i a b r ih =>
    rw [pairUp, List.length_cons, ih, List.length_cons, List.length_cons]
    omega

/-- What a level of the tree keeps of its list holds of the one value that the tree leaves. -/
theorem treeFold_keeps {f : Nat → Nat → Nat → Nat} {keeps : List Nat → Prop} (hlevel : ∀ i l, keeps l → keeps (pairUp f i l)) {n i : Nat}
    {l : List Nat} (h0 : 0 < l.length) (hn : l.length ≤ 2 ^ n) (h : keeps l) : keeps [treeFold f n i l] := by
  induction n generalizing i l with
  | zero =>
    obtain ⟨a, rfl⟩ := List.length_eq_one_iff.1 (Nat.le_antisymm hn h0)
    exact h
  | succ n ih =>
    rw [Nat.pow_succ] at hn
    exact ih (by rw [pairUp_length]; omega) (by rw [pairUp_length]; omega) (hlevel i l h)

/-- A tree of sums modulo M leaves the sum of its list modulo M. -/
theorem treeFold_sum {M n : Nat} {l : List Nat} (h0 : 0 < l.length) (hn : l.length ≤ 2 ^ n) :
    treeFold (fun _ a b => (a + b) % M) n 0 l % M = l.sum % M := by
  have hlevel : ∀ i k, k.sum % M = l.sum % M → (pairUp (fun _ a b => (a + b) % M) i k).sum % M = l.sum % M := by
    intro i k hk
    rw [← hk]
    clear hk
    induction i, k using pairUp.induct with
    | case1 => rfl
    | case2 => rfl
    | case3 i a b r ih => rw [pairUp, List.sum_cons, Nat.add_mod, ih, ← Nat.add_mod, List.sum_cons, List.sum_cons, ← Nat.add_assoc,
        Nat.add_mod, Nat.mod_mod, ← Nat.add_mod]
  simpa using treeFold_keeps (keeps := fun k => k.sum % M = l.sum % M) hlevel h0 hn rfl

/-- A tree that picks one of two values at each node, the one further along an order, leaves a value of its list that none lies beyond. -/
theorem treeFold_pick {pick : Nat → Nat → Nat} {beyond : Nat → Nat → Prop} (hrefl : ∀ a, beyond a a)
    (htrans : ∀ a b c, beyond a b → beyond b c → beyond a c)
    (hpick : ∀ a b, (pick a b = a ∨ pick a b = b) ∧ beyond a (pick a b) ∧ beyond b (pick a b)) {n : Nat} {l : List Nat} (h0 : 0 < l.length)
    (hn : l.length ≤ 2 ^ n) :
    treeFold (fun _ => pick) n 0 l ∈ l ∧ ∀ x ∈ l, beyond x (treeFold (fun _ => pick) n 0 l) := by
  have hup : ∀ i k, (∀ y ∈ pairUp (fun _ => pick) i k, y ∈ k) ∧ ∀ x ∈ k, ∃ y ∈ pairUp (fun _ => pick) i k, beyond x y := by
    intro i k
    induction i, k using pairUp.induct with
    | case1 => simp [pairUp]
    | case2 i a => exact ⟨fun y hy => hy, fun x hx => ⟨x, hx, hrefl x⟩⟩
    | case3 i a b r ih =>
      obtain ⟨hmem, hbeyond⟩ := ih
      obtain ⟨hone, ha, hb⟩ := hpick a b
      simp only [pairUp, List.forall_mem_cons, List.exists_mem_cons_iff]
      refine ⟨⟨?_, fun y hy => List.mem_cons_of_mem _ (List.mem_cons_of_mem _ (hmem y hy))⟩, .inl ha, .inl hb,
        fun x hx => .inr (hbeyond x hx)⟩
      rcases hone with h | h <;> simp [h]
  have hlevel : ∀ i k, ((∀ y ∈ k, y ∈ l) ∧ ∀ x ∈ l, ∃ y ∈ k, beyond x y) →
      (∀ y ∈ pairUp (fun _ => pick) i k, y ∈ l) ∧ ∀ x ∈ l, ∃ y ∈ pairUp (fun _ => pick) i k, beyond x y := by
    rintro i k ⟨hin, hall⟩
    obtain ⟨hmem, hbeyond⟩ := hup i k
    refine ⟨fun y hy => hin y (hmem y hy), fun x hx => ?_⟩
    obtain ⟨y, hy, hxy⟩ := hall x hx
    obtain ⟨z, hz, hyz⟩ := hbeyond y hy
    exact ⟨z, hz, htrans x y z hxy hyz⟩
  simpa using treeFold_keeps (keeps := fun k => (∀ y ∈ k, y ∈ l) ∧ ∀ x ∈ l, ∃ y ∈ k, beyond x y) hlevel h0 hn
    ⟨fun y hy => hy, fun x hx => ⟨x, hx, hrefl x⟩⟩

/-! ### Reductions -/

/-- The lanes that a reduction combines: the active ones, and an idle value in place of each other. -/
def lanesOr (w : Nat) (m : SReg) (v : VReg) (idle : Nat) : List Nat :=
  (List.range (laneCount w)).map (fun k => if active m k then lane w v k else idle)

theorem sum_lanesOr (w : Nat) (m : SReg) (v : VReg) : (lanesOr w m v 0).sum = ((activeLanes w m).map (lane w v)).sum := by
  unfold lanesOr activeLanes
  induction List.range (laneCount w) with
  | nil => rfl
  | cons k r ih =>
    rw [List.map_cons, List.sum_cons, ih, List.filter_cons]
    split <;> simp

theorem mem_lanesOr {w : Nat} {m : SReg} {v : VReg} {idle x : Nat} (h : x ∈ lanesOr w m v idle) :
    x = idle ∨ x ∈ (activeLanes w m).map (lane w v) := by
  obtain ⟨k, hk, rfl⟩ := List.mem_map.1 h
  split
  next ha => exact .inr (List.mem_map_of_mem (List.mem_filter.2 ⟨hk, ha⟩))
  next => exact .inl rfl

theorem lane_mem_lanesOr {w : Nat} {m : SReg} (v : VReg) (idle : Nat) {k : Nat} (h : k ∈ activeLanes w m) : lane w v k ∈ lanesOr w m v idle := by
  obtain ⟨hk, ha⟩ := List.mem_filter.1 h
  exact List.mem_map.2 ⟨k, hk, if_pos ha⟩

theorem lanesOr_length (ty : Fin 8) (m : SReg) (v : VReg) (idle : Nat) :
    0 < (lanesOr (vtWidth ty) m v idle).length ∧ (lanesOr (vtWidth ty) m v idle).length ≤ 2 ^ 6 := by
  rw [lanesOr, List.length_map, List.length_range]
  revert ty
  decide

theorem extreme_least {ty : Fin 8} (h : vtFmt ty = none) : extreme ty false = 2 ^ (vtWidth ty - 1) := by
  simp [extreme, h]

theorem extreme_greatest {ty : Fin 8} (h : vtFmt ty = none) : extreme ty true = 2 ^ (vtWidth ty - 1) - 1 := by
  simp [extreme, h]

theorem lanesOr_lt {ty : Fin 8} (hty : vtFmt ty = none) {m : SReg} {v : VReg} {greatest : Bool} {x : Nat}
    (h : x ∈ lanesOr (vtWidth ty) m v (extreme ty greatest)) : x < 2 ^ vtWidth ty := by
  rcases mem_lanesOr h with rfl | hx
  · have hpow : 2 ^ (vtWidth ty - 1) < 2 ^ vtWidth ty := Nat.pow_lt_pow_right (by decide) (Nat.sub_lt (vtWidth_pos ty) Nat.one_pos)
    cases greatest with
    | false => rwa [extreme_least hty]
    | true => exact extreme_greatest hty ▸ (Nat.sub_le ..).trans_lt hpow
  · obtain ⟨k, -, rfl⟩ := List.mem_map.1 hx
    exact lane_lt ..

section
variable {s : State} {th : Nat} {c : TCtx} {ty : Fin 8} (h : Issues s th 4 c) (kind : Nat) (rnd : Bool) (mask : Fin 8) (vs1 vd : Fin 16)
include h

theorem reduce_int (hty : vtFmt ty = none) : (.next (reduce kind th ty rnd mask vs1 vd s) : Ran) =
    ranV s th 4 (setV vd (BitVec.ofNat 512 (treeFold
      (fun _ a b => if kind = 0 then (a + b) % 2 ^ vtWidth ty else pickS (kind == 1) (vtWidth ty) a b) 6 0
      (lanesOr (vtWidth ty) (getM c.t mask) (getV c.t vs1) (if kind = 0 then 0 else extreme ty (kind == 2))) % 2 ^ vtWidth ty)) c.t) :=
  issueV_of_next h (by simp only [hty]; rfl)

theorem reduce_fp {f : Fmt} (hty : vtFmt ty = some f) : (.next (reduce kind th ty rnd mask vs1 vd s) : Ran) =
    ranV (if rnd then s.setDraw (s.draw + 128) else s) th 4 (setV vd (BitVec.ofNat 512 (treeFold
      (fun i a b => if kind = 0 then encF fp32 (laneRound rnd s.draw i) ((f32 a).add (f32 b)) else fpick fp32 (kind == 1) a b) 6 0
      ((List.range (512 / f.w)).map (fun k => r32 (decF f (if active (getM c.t mask) k then lane f.w (getV c.t vs1) k
        else if kind = 0 then 0 else extreme ty (kind == 2))))) % 2 ^ 32)) c.t) :=
  issueV_of_next h (by simp only [hty, vtFmt_width hty, List.map_map]; rfl)

/-- A minimum or maximum of an integer type is one of the active lanes or the idle value, with no active lane beyond it. -/
theorem reduce_pick (hty : vtFmt ty = none) (hkind : kind ≠ 0) {beyond : Int → Int → Prop} (hrefl : ∀ a, beyond a a)
    (htrans : ∀ a b c, beyond a b → beyond b c → beyond a c)
    (hpick : ∀ a b, beyond (sext (vtWidth ty) a) (sext (vtWidth ty) (pickS (kind == 1) (vtWidth ty) a b)) ∧
      beyond (sext (vtWidth ty) b) (sext (vtWidth ty) (pickS (kind == 1) (vtWidth ty) a b))) :
    ∃ r < 2 ^ vtWidth ty, (.next (reduce kind th ty rnd mask vs1 vd s) : Ran) = ranV s th 4 (setV vd (BitVec.ofNat 512 r) c.t) ∧
      (∀ k ∈ activeLanes (vtWidth ty) (getM c.t mask), beyond (sext (vtWidth ty) (lane (vtWidth ty) (getV c.t vs1) k)) (sext (vtWidth ty) r)) ∧
      (r = extreme ty (kind == 2) ∨ r ∈ (activeLanes (vtWidth ty) (getM c.t mask)).map (lane (vtWidth ty) (getV c.t vs1))) := by
  have hone : ∀ a b, pickS (kind == 1) (vtWidth ty) a b = a ∨ pickS (kind == 1) (vtWidth ty) a b = b := fun a b => by
    unfold pickS
    split
    · exact .inr rfl
    · exact .inl rfl
  obtain ⟨h0, hn⟩ := lanesOr_length ty (getM c.t mask) (getV c.t vs1) (extreme ty (kind == 2))
  obtain ⟨hmem, hall⟩ := treeFold_pick (pick := pickS (kind == 1) (vtWidth ty))
    (beyond := fun a b => beyond (sext (vtWidth ty) a) (sext (vtWidth ty) b))
    (fun a => hrefl _) (fun a b c => htrans _ _ _) (fun a b => ⟨hone a b, hpick a b⟩) h0 hn
  have hr := mem_lanesOr hmem
  have hlt := lanesOr_lt hty hmem
  refine ⟨_, hlt, ?_, fun k hk => hall _ (lane_mem_lanesOr _ _ hk), hr⟩
  rw [reduce_int h kind rnd mask vs1 vd hty]
  simp only [if_neg hkind, Nat.mod_eq_of_lt hlt]

end

/-- Settles O18: on an integer type by what holds along the tree (`treeFold_sum`, `reduce_pick`), on an FP type by the tree itself (`reduce_fp`). -/
theorem reductionsCombineTheActiveLanes : Obligations.ReductionsCombineTheActiveLanes := by
  unfold Obligations.ReductionsCombineTheActiveLanes
  constructor
  · intro s th c ty rnd zm mask vs1 vd h hlt w a act
    have hty := vtFmt_of_lt hlt
    refine ⟨?_, ?_, ?_⟩
    · obtain ⟨h0, hn⟩ := lanesOr_length ty (getM c.t mask) (getV c.t vs1) 0
      have hsum := treeFold_sum (M := 2 ^ vtWidth ty) h0 hn
      rw [sum_lanesOr] at hsum
      exact (reduce_int h 0 rnd mask vs1 vd hty).trans (congrArg (fun r => ranV s th 4 (setV vd (BitVec.ofNat 512 r) c.t)) hsum)
    · rw [← extreme_least hty]
      refine reduce_pick h 1 rnd mask vs1 vd hty (by decide) (beyond := (· ≤ ·)) Int.le_refl (fun _ _ _ => Int.le_trans) fun x y => ?_
      rw [show (1 == 1) = true from rfl, pickS_greater]
      split <;> omega
    · rw [← extreme_greatest hty]
      refine reduce_pick h 2 rnd mask vs1 vd hty (by decide) (beyond := (· ≥ ·)) Int.le_refl
        (fun _ _ _ hab hbc => Int.le_trans hbc hab) fun x y => ?_
      rw [show (2 == 1) = false from rfl, pickS_lesser]
      split <;> omega
  · intro s th c ty f rnd zm mask vs1 vd h hty w s' by' lanes wrote
    exact ⟨reduce_fp h 0 rnd mask vs1 vd hty, reduce_fp h 1 rnd mask vs1 vd hty, reduce_fp h 2 rnd mask vs1 vd hty⟩

end Sys2Proof.Machine
end

section
/-! Number formats (R235, R236, R239, R241): every pattern is decoded exactly, and a magnitude beyond the greatest of an 8-bit type saturates. -/

namespace Sys2Proof.Machine

open Sys2Proof

/-! ### The parts of a pattern -/

section
variable {f : Fmt}

/-- Sign, exponent and mantissa put together are the pattern they were taken from. -/
theorem withSign_parts (hw : f.w = f.eb + f.mb + 1) {v : Nat} (hv : v < 2 ^ f.w) :
    f.withSign (v.testBit (f.w - 1)) (bits v f.mb f.eb * 2 ^ f.mb + bits v 0 f.mb) = v := by
  have hsplit : v % 2 ^ (f.mb + f.eb) = v % 2 ^ f.mb + 2 ^ f.mb * (v / 2 ^ f.mb % 2 ^ f.eb) := by rw [Nat.pow_add, Nat.mod_mul]
  have htop : v / 2 ^ (f.mb + f.eb) < 2 := Nat.div_lt_of_lt_mul (by rwa [← Nat.pow_succ, Nat.add_comm f.mb, Nat.succ_eq_add_one, ← hw])
  have hsign : bit (v.testBit (f.w - 1)) = v / 2 ^ (f.mb + f.eb) := by
    rw [hw, Nat.add_sub_cancel, Nat.add_comm f.eb, Nat.testBit_eq_decide_div_mod_eq, Nat.mod_eq_of_lt htop]
    rcases Nat.lt_succ_iff_lt_or_eq.1 htop with h | h
    · simp [bit, Nat.lt_one_iff.1 h]
    · simp [bit, h]
  rw [Fmt.withSign, hsign, bits, bits, Nat.pow_zero, Nat.div_one, Nat.mul_comm _ (2 ^ f.mb), Nat.add_comm (2 ^ f.mb * _), ← hsplit,
    show f.w - 1 = f.mb + f.eb by omega, Nat.mul_comm, Nat.div_add_mod]

/-- A pattern that is neither a NaN nor an infinity lies within the codes of finite magnitudes. -/
theorem parts_le_maxCode {ex mant : Nat} (hex : ex < 2 ^ f.eb) (hmant : mant < 2 ^ f.mb) (htop : f.ieee = true → ex ≠ 2 ^ f.eb - 1)
    (hnan : f.oneNan = true → ¬ (ex = 2 ^ f.eb - 1 ∧ mant = 2 ^ f.mb - 1)) : ex * 2 ^ f.mb + mant ≤ f.maxCode := by
  have hnext : ∀ b, ex < b → ex * 2 ^ f.mb + 2 ^ f.mb ≤ b * 2 ^ f.mb := fun b hb => Nat.succ_mul ex _ ▸ Nat.mul_le_mul_right _ hb
  have hall := hnext _ hex
  unfold Fmt.maxCode
  split
  next hieee =>
    have hlast := hnext (2 ^ f.eb - 1) (by have := htop hieee; omega)
    omega
  next =>
    rw [Nat.pow_add]
    split
    next hone =>
      by_cases hlast : ex = 2 ^ f.eb - 1
      · have hm : mant ≠ 2 ^ f.mb - 1 := fun hm => hnan hone ⟨hlast, hm⟩
        omega
      · have hbefore := hnext (2 ^ f.eb - 1) (by omega)
        rw [Nat.sub_mul, Nat.one_mul] at hbefore
        omega
    next => omega

/-! ### Magnitudes that the format holds -/

/-- A magnitude whose place in the format is its own is encoded as it stands, whatever the rounding. -/
theorem encMag_exact (rnd : Option Nat) (neg : Bool) {m : Nat} {e : Int} (hm : m ≠ 0)
    (hplace : max (1 - (f.bias : Int) - f.mb) ((Nat.log2 m : Int) + e - f.mb) = e)
    (hcode : ((e + f.mb + f.bias).toNat - 1) * 2 ^ f.mb + m ≤ f.maxCode) :
    encMag f rnd neg m e = f.withSign neg (((e + f.mb + f.bias).toNat - 1) * 2 ^ f.mb + m) := by
  simp only [encMag, if_neg hm, hplace, le_refl, if_true, Int.sub_self, Int.toNat_zero, Nat.pow_zero, Nat.mul_one, if_pos hcode]

theorem encMag_subnormal (rnd : Option Nat) (neg : Bool) {mant : Nat} (hmant : mant < 2 ^ f.mb) (hcode : mant ≤ f.maxCode) :
    encMag f rnd neg mant (1 - (f.bias : Int) - f.mb) = f.withSign neg mant := by
  by_cases hm : mant = 0
  · rw [hm, encMag, if_pos rfl]
  · have hlog : Nat.log2 mant < f.mb := (Nat.log2_lt hm).2 hmant
    have hfield : (1 - (f.bias : Int) - f.mb + f.mb + f.bias).toNat - 1 = 0 := by omega
    have hsame : ((1 - (f.bias : Int) - f.mb + f.mb + f.bias).toNat - 1) * 2 ^ f.mb + mant = mant := by rw [hfield, Nat.zero_mul, Nat.zero_add]
    rw [encMag_exact rnd neg hm (by omega) (hsame.trans_le hcode), hsame]

theorem encMag_normal (rnd : Option Nat) (neg : Bool) {ex mant : Nat} (hex : ex ≠ 0) (hmant : mant < 2 ^ f.mb)
    (hcode : ex * 2 ^ f.mb + mant ≤ f.maxCode) :
    encMag f rnd neg (2 ^ f.mb + mant) ((ex : Int) - f.bias - f.mb) = f.withSign neg (ex * 2 ^ f.mb + mant) := by
  have hm : 2 ^ f.mb + mant ≠ 0 := by have := Nat.two_pow_pos f.mb; omega
  have hlog : Nat.log2 (2 ^ f.mb + mant) = f.mb := (Nat.log2_eq_iff hm).2 ⟨Nat.le_add_right .., by rw [Nat.pow_succ]; omega⟩
  have hfield : ((ex : Int) - f.bias - f.mb + f.mb + f.bias).toNat - 1 = ex - 1 := by omega
  have hsame : (((ex : Int) - f.bias - f.mb + f.mb + f.bias).toNat - 1) * 2 ^ f.mb + (2 ^ f.mb + mant) = ex * 2 ^ f.mb + mant := by
    obtain ⟨n, rfl⟩ := Nat.exists_eq_succ_of_ne_zero hex
    rw [hfield, Nat.succ_mul, Nat.succ_sub_one, Nat.add_assoc]
  rw [encMag_exact rnd neg hm (by rw [hlog]; omega) (hsame.trans_le hcode), hsame]

/-- Every pattern that is no NaN is given back by rounding its value, and a NaN becomes the canonical one. -/
theorem encF_decF (hw : f.w = f.eb + f.mb + 1) (rnd : Option Nat) {v : Nat} (hv : v < 2 ^ f.w) :
    ((decF f v).isNan = false → encF f rnd (decF f v) = v) ∧ ((decF f v).isNan = true → encF f rnd (decF f v) = f.canon) := by
  have hparts := withSign_parts hw hv
  have hex := bits_lt v f.mb f.eb
  have hmant := bits_lt v 0 f.mb
  unfold decF
  dsimp only
  generalize v.testBit (f.w - 1) = neg at hparts ⊢
  generalize bits v f.mb f.eb = ex at hparts hex ⊢
  generalize bits v 0 f.mb = mant at hparts hmant ⊢
  split
  next htop =>
    obtain ⟨hieee, hlast⟩ := Bool.and_eq_true_iff.1 htop
    split
    next hzero =>
      refine ⟨fun _ => ?_, nofun⟩
      rw [encF, if_pos hieee, ← beq_iff_eq.1 hlast]
      rwa [hzero] at hparts
    next => exact ⟨nofun, fun _ => rfl⟩
  next htop =>
    split
    next => exact ⟨nofun, fun _ => rfl⟩
    next hone =>
      have hcode : ex * 2 ^ f.mb + mant ≤ f.maxCode := parts_le_maxCode hex hmant
        (fun hieee hlast => htop (by simp [hieee, hlast])) (fun hnan hlast => hone (by simp [hnan, hlast]))
      split
      next hzero =>
        refine ⟨fun _ => ?_, nofun⟩
        rw [hzero, Nat.zero_mul, Nat.zero_add] at hparts hcode
        rw [encF, encMag_subnormal rnd neg hmant hcode, hparts]
      next hne =>
        refine ⟨fun _ => ?_, nofun⟩
        rw [encF, encMag_normal rnd neg hne hmant hcode, hparts]

end

/-! ### Saturation -/

theorem le_roundShift (rnd : Option Nat) (m sh : Nat) : m / 2 ^ sh ≤ roundShift rnd m sh := by
  unfold roundShift
  dsimp only
  split <;> split <;> omega

/-- From the greatest magnitude (2 ^ mb + x) * 2 ^ t of a saturating format on, every whole number is encoded as that magnitude. -/
theorem encMag_saturates {f : Fmt} (hsat : f.sat = true) (rnd : Option Nat) (neg : Bool) {t x m : Nat} (ht : 0 < t) (hx : x < 2 ^ f.mb)
    (hmax : f.maxCode = (t + f.mb + f.bias - 1) * 2 ^ f.mb + (2 ^ f.mb + x)) (hm : (2 ^ f.mb + x) * 2 ^ t ≤ m) :
    encMag f rnd neg m 0 = f.withSign neg f.maxCode := by
  have hm0 : m ≠ 0 := by
    have : 0 < (2 ^ f.mb + x) * 2 ^ t := by positivity
    omega
  obtain ⟨j, hj⟩ : ∃ j, Nat.log2 m = f.mb + t + j :=
    Nat.exists_eq_add_of_le ((Nat.le_log2 hm0).2 (le_trans (by rw [Nat.pow_add]; exact Nat.mul_le_mul_right _ (Nat.le_add_right ..)) hm))
  have hplace : max (1 - (f.bias : Int) - f.mb) ((Nat.log2 m : Int) + 0 - f.mb) = (t + j : Nat) := by omega
  have hround := le_roundShift rnd m (t + j)
  have hkept : (t + f.mb + f.bias - 1) * 2 ^ f.mb + (2 ^ f.mb + x) ≤ (t + j + f.mb + f.bias - 1) * 2 ^ f.mb + m / 2 ^ (t + j) := by
    rcases Nat.eq_zero_or_pos j with rfl | hpos
    · exact Nat.add_le_add_left ((Nat.le_div_iff_mul_le (by positivity)).2 hm) _
    · have hk : 2 ^ f.mb ≤ m / 2 ^ (t + j) := (Nat.le_div_iff_mul_le (by positivity)).2 (by
        rw [← Nat.pow_add, ← Nat.add_assoc, ← hj]
        exact Nat.log2_self_le hm0)
      have hfield := Nat.mul_le_mul_right (2 ^ f.mb) (show t + f.mb + f.bias - 1 + 1 ≤ t + j + f.mb + f.bias - 1 by omega)
      rw [Nat.succ_mul] at hfield
      omega
  have hcode : f.maxCode ≤ (((t + j : Nat) + (f.mb : Int) + f.bias).toNat - 1) * 2 ^ f.mb + roundShift rnd m (t + j) := by
    rw [hmax, show ((t + j : Nat) + (f.mb : Int) + f.bias).toNat = t + j + f.mb + f.bias by omega]
    omega
  have hbeyond : ¬ ((t + j : Nat) : Int) ≤ 0 := by omega
  simp only [encMag, if_neg hm0, hplace, if_neg hbeyond, Int.sub_zero, Int.toNat_natCast, hsat, if_true]
  split
  next hle => rw [Nat.le_antisymm hle hcode]
  next => rfl

/-- Settles O17: by `encF_decF` for each format, and by `encMag_saturates` beyond the greatest magnitudes 14 * 2 ^ 5 of E4M3 and 7 * 2 ^ 13 of E5M2. -/
theorem formatsReencodeTheirPatterns : Obligations.FormatsReencodeTheirPatterns := by
  unfold Obligations.FormatsReencodeTheirPatterns
  have hwidth : ∀ f ∈ [fp32, bf16, fp16, e4m3, e5m2, e3m2, e2m3, e2m1], f.w = f.eb + f.mb + 1 := by decide
  refine ⟨fun f hf v rnd hv => encF_decF (hwidth f hf) rnd hv, fun rnd n => ⟨?_, ?_, fun m hm => ?_, fun m hm => ?_⟩, rfl, rfl, rfl, rfl, rfl⟩
  · cases n <;> rfl
  · cases n <;> rfl
  · rw [encF, encMag_saturates (t := 5) (x := 6) rfl rnd n (by decide) (by decide) rfl (Nat.le_of_lt hm)]
    cases n <;> rfl
  · rw [encF, encMag_saturates (t := 13) (x := 3) rfl rnd n (by decide) (by decide) rfl (Nat.le_of_lt hm)]
    cases n <;> rfl

end Sys2Proof.Machine
end

section
/-! Conversions between types (R237, R238, R241): the lanes of a group of registers, and the table of conversions of one element. -/

namespace Sys2Proof.Machine

open Sys2Proof

/-! ### Groups of registers -/

theorem vAt_vSet {i : Nat} (hi : i < 16) (v : VReg) (t : Thread) (j : Nat) : vAt (vSet i v t) j = if j = i then v else vAt t j := by
  rw [vSet, dif_pos hi]
  by_cases hj : j < 16
  · simp [vAt, hj, getV, setV, Vector.get_eq_getElem, Vector.getElem_set, eq_comm]
  · have hne : j ≠ i := by omega
    simp [vAt, hj, hne]

/-- Only the vector registers change. -/
theorem vSet_frame (i : Nat) (v : VReg) (t : Thread) : vSet i v t = { t with v := (vSet i v t).v } := by
  unfold vSet
  split <;> rfl

/-- `n` registers from one on, written in turn. -/
def setGroup (first : Nat) (g : Nat → VReg) (n : Nat) (t : Thread) : Thread := (List.range n).foldl (fun t i => vSet (first + i) (g i) t) t

theorem setGroup_succ (first : Nat) (g : Nat → VReg) (n : Nat) (t : Thread) :
    setGroup first g (n + 1) t = vSet (first + n) (g n) (setGroup first g n t) := by
  rw [setGroup, List.range_succ, List.foldl_append]
  rfl

theorem setGroup_frame (first : Nat) (g : Nat → VReg) (n : Nat) (t : Thread) : setGroup first g n t = { t with v := (setGroup first g n t).v } := by
  induction n with
  | zero => rfl
  | succ n ih =>
    rw [setGroup_succ, vSet_frame]
    exact congrArg (fun x : Thread => { x with v := (vSet (first + n) (g n) (setGroup first g n t)).v }) ih

theorem vAt_setGroup {first n : Nat} (h : first + n ≤ 16) (g : Nat → VReg) (t : Thread) (j : Nat) :
    vAt (setGroup first g n t) j = if first ≤ j ∧ j < first + n then g (j - first) else vAt t j := by
  induction n with
  | zero => exact (if_neg (by omega)).symm
  | succ n ih =>
    rw [setGroup_succ, vAt_vSet (by omega), ih (by omega)]
    rcases Nat.lt_trichotomy j (first + n) with hj | rfl | hj
    · rw [if_neg (by omega)]
      exact if_congr (by omega) rfl rfl
    · rw [if_pos rfl, if_pos (by omega), Nat.add_sub_cancel_left]
    · rw [if_neg (by omega), if_neg (by omega), if_neg (by omega)]

theorem groupSize_dvd (ty src : Fin 8) : groupSize (vtWidth ty) (vtWidth src) ∣ 16 := by
  revert ty src
  decide

/-- A group whose first register is a multiple of its size lies within the registers. -/
theorem group_le {first n : Nat} (hfirst : first < 16) (hmod : first % n = 0) (hn : n ∣ 16) : first + n ≤ 16 := by
  obtain ⟨b, hb⟩ := hn
  obtain ⟨a, rfl⟩ := Nat.dvd_of_mod_eq_zero hmod
  rw [hb] at hfirst ⊢
  exact Nat.mul_succ n a ▸ Nat.mul_le_mul_left n (Nat.lt_of_mul_lt_mul_left hfirst)

/-- Lane k of a group whose registers have been written lane by lane. -/
theorem groupLane_setGroup {w first n k : Nat} (h : first + n ≤ 16) (out : Nat → Nat → Nat) (t : Thread) (hk : k < n * (512 / w)) :
    groupLane w (setGroup first (fun i => ofLanes w (out i)) n t) first k = out (k / (512 / w)) (k % (512 / w)) % 2 ^ w := by
  have hpos : 0 < 512 / w := Nat.pos_of_ne_zero fun h0 => by simp [h0] at hk
  have hreg : k / (512 / w) < n := (Nat.div_lt_iff_lt_mul hpos).2 hk
  rw [groupLane, laneCount, vAt_setGroup h, if_pos ⟨Nat.le_add_right .., Nat.add_lt_add_left hreg first⟩, Nat.add_sub_cancel_left,
    lane_ofLanes w _ (Nat.mod_lt _ hpos)]

/-! ### vcvt (R237) -/

section
variable {s : State} {th : Nat} {c : TCtx} {ty src : Fin 8} {rnd zm : Bool} {mask : Fin 8} {vs1 vd : Fin 16}

theorem vcvt_illegal (h : Issues s th 4 c)
    (hbad : vs1.val % groupSize (vtWidth src) (vtWidth ty) ≠ 0 ∨ vd.val % groupSize (vtWidth ty) (vtWidth src) ≠ 0) :
    exec (.vcvt th ty rnd zm mask src vs1 vd) s = faultedV s c fkIllegal :=
  issueV_of_fault h (if_pos (decide_eq_true hbad))

/-- Lane k of register i of the destination group, as vcvt writes it. -/
def convertedLane (s : State) (t : Thread) (ty src : Fin 8) (rnd zm : Bool) (mask : Fin 8) (vs1 vd : Fin 16) (i k : Nat) : Nat :=
  let n := i * laneCount (vtWidth ty) + k
  if active (getM t mask) n then convert src ty (laneRound rnd s.draw n) (groupLane (vtWidth src) t vs1.val n)
  else if zm then 0 else lane (vtWidth ty) (vAt t (vd.val + i)) k

theorem vcvt_ran (h : Issues s th 4 c) (h1 : vs1.val % groupSize (vtWidth src) (vtWidth ty) = 0)
    (hd : vd.val % groupSize (vtWidth ty) (vtWidth src) = 0) :
    exec (.vcvt th ty rnd zm mask src vs1 vd) s = ranV (drawLanes rnd s) th 4 (setGroup vd.val
      (fun i => ofLanes (vtWidth ty) (convertedLane s c.t ty src rnd zm mask vs1 vd i)) (groupSize (vtWidth ty) (vtWidth src)) c.t) :=
  issueV_of_next h (if_neg (by simp [h1, hd]))

theorem groupLane_converted (hd : vd.val % groupSize (vtWidth ty) (vtWidth src) = 0) (t : Thread) {n : Nat}
    (hn : n < groupSize (vtWidth ty) (vtWidth src) * (512 / vtWidth ty)) :
    groupLane (vtWidth ty) (setGroup vd.val (fun i => ofLanes (vtWidth ty) (convertedLane s t ty src rnd zm mask vs1 vd i))
      (groupSize (vtWidth ty) (vtWidth src)) t) vd.val n =
      if (getM t mask).getLsbD n then convert src ty (laneRound rnd s.draw n) (groupLane (vtWidth src) t vs1.val n) % 2 ^ vtWidth ty
      else if zm then 0 else groupLane (vtWidth ty) t vd.val n := by
  rw [groupLane_setGroup (group_le vd.isLt hd (groupSize_dvd ty src)) _ t hn]
  have hplace : n / (512 / vtWidth ty) * laneCount (vtWidth ty) + n % (512 / vtWidth ty) = n := Nat.div_add_mod' ..
  rw [convertedLane, hplace, active]
  split
  · rfl
  · split
    · exact Nat.zero_mod _
    · exact Nat.mod_eq_of_lt (lane_lt ..)

end

/-! ### The conversion of one element (R238) -/

theorem sext_wrapInt {w : Nat} (hw : 0 < w) {x : Int} (hlo : -(2 : Int) ^ (w - 1) ≤ x) (hhi : x ≤ (2 : Int) ^ (w - 1) - 1) :
    sext w (wrapInt w x) = x := by
  have hbits : BitVec.ofNat w (wrapInt w x) = BitVec.ofInt w x := by
    apply BitVec.eq_of_toNat_eq
    rw [BitVec.toNat_ofNat, BitVec.toNat_ofInt, Nat.mod_eq_of_lt (wrapInt_lt w x), wrapInt]
  rw [sext_eq_toInt hw, hbits, BitVec.toInt_ofInt_eq_self hw hlo (Int.lt_of_le_sub_one hhi)]

theorem cast_two_pow_sub_one (n : Nat) : ((2 ^ n - 1 : Nat) : Int) = 2 ^ n - 1 := by
  rw [Nat.cast_sub Nat.one_le_two_pow]
  simp

/-- A value rounded to an integer lies within the integers of its width. -/
theorem toInt_bounds (rnd : Option Nat) (w : Nat) (v : FV) :
    -(2 : Int) ^ (w - 1) ≤ toInt rnd w v ∧ toInt rnd w v ≤ (2 : Int) ^ (w - 1) - 1 := by
  have hpos : (0 : Int) < 2 ^ (w - 1) := by positivity
  cases v with
  | nan => rw [toInt]; omega
  | inf n =>
    cases n <;> simp only [toInt, cast_two_pow_sub_one, Nat.cast_pow, Nat.cast_ofNat, if_true, if_false, Bool.false_eq_true] <;> omega
  | fin n m e =>
    cases n <;> simp only [toInt, cast_two_pow_sub_one, Nat.cast_pow, Nat.cast_ofNat, if_true, if_false, Bool.false_eq_true] <;> omega

section
variable {src dst : Fin 8} (rnd : Option Nat) (x : Nat)

theorem convert_fp_fp {f g : Fmt} (hs : vtFmt src = some f) (hd : vtFmt dst = some g) : convert src dst rnd x = encF g rnd (decF f x) := by
  simp only [convert, hs, hd]

theorem convert_fp_int {f : Fmt} (hs : vtFmt src = some f) (hd : vtFmt dst = none) :
    convert src dst rnd x = wrapInt (vtWidth dst) (toInt rnd (vtWidth dst) (decF f x)) := by
  simp only [convert, hs, hd]

theorem convert_int_fp {g : Fmt} (hs : vtFmt src = none) (hd : vtFmt dst = some g) :
    convert src dst rnd x = encF g rnd (FV.ofInt (sext (vtWidth src) x)) := by
  simp only [convert, hs, hd]

theorem convert_int_int (hs : vtFmt src = none) (hd : vtFmt dst = none) : convert src dst rnd x =
    wrapInt (vtWidth dst) (max (-(2 : Int) ^ (vtWidth dst - 1)) (min ((2 : Int) ^ (vtWidth dst - 1) - 1) (sext (vtWidth src) x))) := by
  simp only [convert, hs, hd, cast_two_pow_sub_one, Nat.cast_pow, Nat.cast_ofNat]

theorem convert_nan {f : Fmt} (hs : vtFmt src = some f) (hd : vtFmt dst = none) (hnan : (decF f x).isNan = true) : convert src dst rnd x = 0 := by
  have hv : decF f x = .nan := by
    cases hx : decF f x with
    | nan => rfl
    | inf n => rw [hx] at hnan; cases hnan
    | fin n m e => rw [hx] at hnan; cases hnan
  rw [convert_fp_int rnd x hs hd, hv, toInt, wrapInt, Int.zero_emod, Int.toNat_zero]

end

/-- Settles O21: vcvt by the lanes of its group (`groupLane_converted`), one element by the pairs of types (`sext_wrapInt` where it saturates). -/
theorem conversionsFollowTheirTable : Obligations.ConversionsFollowTheirTable := by
  unfold Obligations.ConversionsFollowTheirTable
  constructor
  · intro s th c ty src rnd zm mask vs1 vd h wd ws rs rd by'
    refine ⟨vcvt_illegal h, fun h1 hd => ⟨_, vcvt_ran h h1 hd, fun n hn => groupLane_converted hd c.t hn, fun i _ hi => ?_, ?_⟩⟩
    · exact (vAt_setGroup (group_le vd.isLt hd (groupSize_dvd ty src)) _ c.t i).trans (if_neg (hi.elim (by omega) fun hi => by omega))
    · rw [setGroup_frame]
      exact ⟨rfl, rfl, rfl, rfl, rfl⟩
  · intro src dst rnd x
    refine ⟨fun f g hs hd => convert_fp_fp rnd x hs hd, fun f hs hd => ⟨?_, convert_nan rnd x hs hd⟩, fun g hs hd => convert_int_fp rnd x hs hd,
      fun hs hd => ?_⟩
    · obtain ⟨hlo, hhi⟩ := toInt_bounds rnd (vtWidth dst) (decF f x)
      rw [convert_fp_int rnd x hs hd, sext_wrapInt (vtWidth_pos dst) hlo hhi]
    · have hpos : (0 : Int) < 2 ^ (vtWidth dst - 1) := by positivity
      rw [convert_int_int rnd x hs hd]
      exact sext_wrapInt (vtWidth_pos dst) (by omega) (by omega)

end Sys2Proof.Machine
end

section
/-! Microscaling blocks (R239, R240, R241): 32 elements packed with their shared scale, and unpacked again. -/

namespace Sys2Proof.Machine

open Sys2Proof

/-! ### Fields of a packed block -/

/-- A field that lies below what is added is as it was. -/
theorem bits_add_high (a x : Nat) {lo n hi : Nat} (h : lo + n ≤ hi) : bits (a + x * 2 ^ hi) lo n = bits a lo n := by
  obtain ⟨d, rfl⟩ := Nat.exists_eq_add_of_le h
  rw [bits, bits, show x * 2 ^ (lo + n + d) = x * 2 ^ d * 2 ^ n * 2 ^ lo by rw [Nat.pow_add, Nat.pow_add]; ring,
    Nat.add_mul_div_right _ _ (by positivity), Nat.add_mul_mod_self_right]

/-- The number that a run of packed elements spells. -/
theorem leVal_packBits (w : Nat) (es : List Nat) : leVal (packBits w es) = es.foldr (fun e a => e % 2 ^ w + 2 ^ w * a) 0 := by
  have hlt := packed_lt w id es
  have hfit : 2 ^ (w * es.length) ≤ 256 ^ ((w * es.length + 7) / 8) := by
    rw [show 256 = 2 ^ 8 from rfl, ← Nat.pow_mul]
    exact Nat.pow_le_pow_right Nat.two_pos (by omega)
  rw [packBits, leVal_leBytes]
  exact Nat.mod_eq_of_lt (hlt.trans_le hfit)

/-- A register of `n` packed elements of `w` bits with a scale code above them: each field read back. -/
theorem packed_fields {w n hi : Nat} (hw : w * n ≤ hi) (g : Nat → Nat) {code : Nat} (hcode : code < 2 ^ 8) :
    let v := BitVec.ofNat (hi + 8) (leVal (packBits w ((List.range n).map g)) + code * 2 ^ hi)
    (∀ k < n, bits v.toNat (w * k) w = g k % 2 ^ w) ∧ bits v.toNat hi 8 = code ∧ bits v.toNat (w * n) (hi - w * n) = 0 := by
  have hval : leVal (packBits w ((List.range n).map g)) = (List.range n).foldr (fun k a => g k % 2 ^ w + 2 ^ w * a) 0 := by
    rw [leVal_packBits, List.foldr_map]
  have hlt : leVal (packBits w ((List.range n).map g)) < 2 ^ (w * n) := by
    simpa only [hval, List.length_range] using packed_lt w g (List.range n)
  have hbelow : leVal (packBits w ((List.range n).map g)) < 2 ^ hi := hlt.trans_le (Nat.pow_le_pow_right Nat.two_pos hw)
  have hv : (BitVec.ofNat (hi + 8) (leVal (packBits w ((List.range n).map g)) + code * 2 ^ hi)).toNat =
      leVal (packBits w ((List.range n).map g)) + code * 2 ^ hi := by
    rw [BitVec.toNat_ofNat, Nat.mul_comm code, Nat.pow_add]
    exact Nat.mod_eq_of_lt (Nat.add_mul_lt_mul_of_lt_of_lt hbelow hcode)
  intro v
  rw [hv]
  refine ⟨fun k hk => ?_, ?_, ?_⟩
  · rw [bits_add_high _ _ (by rw [← Nat.mul_succ]; exact (Nat.mul_le_mul_left w hk).trans hw), hval,
      bits_packed w g _ (by rwa [List.length_range]), List.getElem_range]
  · rw [bits, Nat.add_mul_div_right _ _ (by positivity), Nat.div_eq_of_lt hbelow, Nat.zero_add]
    exact Nat.mod_eq_of_lt hcode
  · rw [bits_add_high _ _ (by omega), bits, Nat.div_eq_of_lt hlt, Nat.zero_mod]

/-! ### Scale codes (R240) -/

theorem mxScale_lt (emax : Nat) (vs : List FV) : mxScale emax vs < 2 ^ 8 := by
  unfold mxScale
  dsimp only
  split
  · decide
  · split
    · decide
    · omega

theorem mxScale_of_nonfinite (emax : Nat) {vs : List FV} (h : ∃ v ∈ vs, v.isFin = false) : mxScale emax vs = 0xFF := by
  obtain ⟨v, hv, hf⟩ := h
  rw [mxScale, if_pos (List.any_eq_true.2 ⟨v, hv, by rw [hf]; rfl⟩)]

theorem mxScale_of_zero (emax : Nat) {vs : List FV} (h : ∀ v ∈ vs, v.isZero = true) : mxScale emax vs = 127 := by
  have hfin : ¬ vs.any (fun v => !v.isFin) = true := by
    rw [List.any_eq_true]
    rintro ⟨v, hv, hf⟩
    have hz := h v hv
    cases v with
    | fin => cases hf
    | nan => cases hz
    | inf => cases hz
  unfold mxScale
  dsimp only
  rw [if_neg hfin, List.filterMap_eq_nil_iff.2]
  intro v hv
  have hz := h v hv
  cases v with
  | fin n m e => exact if_pos (beq_iff_eq.1 hz)
  | nan => rfl
  | inf => rfl

theorem mxElem_of_nonfinite (f : Fmt) (rnd : Option Nat) (v : FV) : mxElem f 0xFF rnd v = 0 := if_pos rfl

/-! ### vmxpk and vmxunpk -/

theorem map_zipIdx_range {α β : Type} (n : Nat) (el : Nat → α) (g : α × Nat → β) :
    ((List.range n).map el).zipIdx.map g = (List.range n).map (fun k => g (el k, k)) := by
  apply List.ext_getElem
  · simp
  · simp

theorem mxFmt_width {src : Fin 8} {f : Fmt} {emax : Nat} (h : mxFmt src.val = some (f, emax)) : f.w ≤ 8 := by
  have hall : ∀ src : Fin 8, ∀ p ∈ mxFmt src.val, p.1.w ≤ 8 := by decide
  exact hall src _ h

theorem mxFmt_none {src : Fin 8} (h : 4 < src.val) : mxFmt src.val = none := by
  revert src
  decide

theorem mxBad_iff (ty mask src : Fin 8) (wide : Fin 16) : mxBad ty mask src wide = true ↔
    (ty.val ≠ 3 ∧ ty.val ≠ 4) ∨ 4 < src.val ∨ mask ≠ 0 ∨ (ty.val = 3 ∧ wide.val % 2 = 1) := by
  have hsrc : ∀ src : Fin 8, (mxFmt src.val).isNone = true ↔ 4 < src.val := by decide
  have hty : ∀ n : Fin 8, (ty == n) = true ↔ ty.val = n.val := fun n => beq_iff_eq.trans Fin.ext_iff
  simp only [mxBad, Bool.or_eq_true, Bool.and_eq_true, Bool.not_eq_true', ← Bool.not_eq_true, hsrc, hty, bne_iff_ne, decide_eq_true_iff,
    or_assoc, not_or, Nat.mod_two_ne_zero]
  rfl

section
variable {s : State} {th : Nat} {c : TCtx} {ty src : Fin 8} {rnd zm : Bool} {mask : Fin 8} {vs1 vd : Fin 16} {f : Fmt} {emax : Nat}

theorem vmxpk_illegal (h : Issues s th 4 c) (hbad : mxBad ty mask src vs1 = true) :
    exec (.vmxpk th ty rnd zm mask src vs1 vd) s = faultedV s c fkIllegal :=
  issueV_of_fault h (by simp only [hbad])

theorem vmxunpk_illegal (h : Issues s th 4 c) (hbad : mxBad ty mask src vd = true) :
    exec (.vmxunpk th ty rnd zm mask src vs1 vd) s = faultedV s c fkIllegal :=
  issueV_of_fault h (by simp only [hbad])

theorem vmxpk_ran (h : Issues s th 4 c) (hgood : mxBad ty mask src vs1 = false) (hf : mxFmt src.val = some (f, emax)) {el : Nat → FV}
    (hel : wideElems ty c.t vs1.val = (List.range 32).map el) :
    exec (.vmxpk th ty rnd zm mask src vs1 vd) s = ranV (drawLanes rnd s) th 4 (setV vd (BitVec.ofNat 512
      (leVal (packBits f.w ((List.range 32).map (fun k => mxElem f (mxScale emax ((List.range 32).map el)) (laneRound rnd s.draw k) (el k)))) +
        mxScale emax ((List.range 32).map el) * 2 ^ 504)) c.t) :=
  issueV_of_next h (by simp only [hgood, hf, hel, map_zipIdx_range])

/-- An element of a block as vmxunpk writes it to a lane of a format. -/
def unpackedLane (s : State) (rnd : Bool) (f : Fmt) (v : VReg) (g : Fmt) (k : Nat) : Nat :=
  encF g (laneRound rnd s.draw k) (mxValue f (bits v.toNat 504 8) (bits v.toNat (f.w * k) f.w))

theorem vmxunpk_narrow (h : Issues s th 4 c) (hgood : mxBad ty mask src vd = false) (hf : mxFmt src.val = some (f, emax)) (hty : ty.val = 4) :
    exec (.vmxunpk th ty rnd zm mask src vs1 vd) s = ranV (drawLanes rnd s) th 4
      (setV vd (ofLanes 16 (unpackedLane s rnd f (getV c.t vs1) bf16)) c.t) := by
  obtain rfl : ty = 4 := Fin.ext hty
  exact issueV_of_next h (by simp only [hgood, hf]; rfl)

theorem vmxunpk_pair (h : Issues s th 4 c) (hgood : mxBad ty mask src vd = false) (hf : mxFmt src.val = some (f, emax)) (hty : ty.val = 3)
    (hd : vd.val + 1 < 16) :
    exec (.vmxunpk th ty rnd zm mask src vs1 vd) s = ranV (drawLanes rnd s) th 4 (setV ⟨vd.val + 1, hd⟩
      (ofLanes 32 (fun k => unpackedLane s rnd f (getV c.t vs1) fp32 (16 + k)))
      (setV vd (ofLanes 32 (unpackedLane s rnd f (getV c.t vs1) fp32)) c.t)) := by
  obtain rfl : ty = 3 := Fin.ext hty
  refine issueV_of_next h ?_
  simp only [hgood, hf, vSet, dif_pos hd]
  rfl

end

/-- The 32 wide elements by the FP32 pair or the BF16 register that holds them. -/
theorem wideElems_eq (ty : Fin 8) (t : Thread) (first : Nat) : wideElems ty t first =
    (List.range 32).map (fun k => decF (if ty.val = 3 then fp32 else bf16) (groupLane (if ty.val = 3 then 32 else 16) t first k)) := by
  have hty : ty = 3 ↔ ty.val = 3 := Fin.ext_iff
  unfold wideElems
  refine List.map_congr_left fun k _ => ?_
  by_cases h : ty.val = 3
  · rw [if_pos (hty.2 h), if_pos h, if_pos h]
  · rw [if_neg (mt hty.1 h), if_neg h, if_neg h]

/-- Settles O22: vmxpk by the fields of its block (`packed_fields`), vmxunpk by its lanes (`lane_ofLanes`). -/
theorem microscalingBlocksPackAndUnpack : Obligations.MicroscalingBlocksPackAndUnpack := by
  unfold Obligations.MicroscalingBlocksPackAndUnpack
  intro s th c ty src rnd zm mask vs1 vd h
  refine ⟨fun hbad => ?_, fun hty hodd => vmxpk_illegal h ((mxBad_iff ..).2 (.inr (.inr (.inr ⟨hty, hodd⟩)))),
    fun hty hodd => vmxunpk_illegal h ((mxBad_iff ..).2 (.inr (.inr (.inr ⟨hty, hodd⟩)))), fun f emax hf hm hty => ?_⟩
  · have hall : ∀ wide, mxBad ty mask src wide = true := fun wide =>
      (mxBad_iff ..).2 (hbad.imp_right (Or.imp_right .inl))
    exact ⟨vmxpk_illegal h (hall _), vmxunpk_illegal h (hall _)⟩
  · have hsrc : src.val ≤ 4 := by
      by_contra hlt
      rw [mxFmt_none (Nat.not_le.1 hlt)] at hf
      cases hf
    have hgood : ∀ wide : Fin 16, ¬ (ty.val = 3 ∧ wide.val % 2 = 1) → mxBad ty mask src wide = false := fun wide hpair => by
      rw [← Bool.not_eq_true, mxBad_iff]
      rintro (hbad | hbad | hbad | hbad)
      · omega
      · omega
      · exact hbad hm
      · exact hpair hbad
    intro by' s' wide el code packed
    have hel : wideElems ty c.t vs1.val = (List.range 32).map el := wideElems_eq ..
    refine ⟨fun hpair => ?_, fun h4 => ⟨_, vmxunpk_narrow h (hgood vd (by omega)) hf h4, fun k hk => lane_ofLanes 16 _ hk⟩,
      fun h3 heven => ?_⟩
    · have hfit : f.w * 32 ≤ 504 := (Nat.mul_le_mul_right 32 (mxFmt_width hf)).trans (by decide)
      obtain ⟨hfield, hscale, hgap⟩ := packed_fields hfit (fun k => mxElem f code (by' k) (el k)) (mxScale_lt emax ((List.range 32).map el))
      refine ⟨_, vmxpk_ran h (hgood vs1 hpair) hf hel, hfield, hscale, hgap, fun ⟨k, hk, hfin⟩ => ?_, fun hzero => ?_⟩
      · have hcode : code = 0xFF := mxScale_of_nonfinite emax ⟨el k, List.mem_map_of_mem (List.mem_range.2 hk), hfin⟩
        exact ⟨hcode, fun j _ => hcode ▸ mxElem_of_nonfinite f (by' j) (el j)⟩
      · refine mxScale_of_zero emax fun v hv => ?_
        obtain ⟨k, hk, rfl⟩ := List.mem_map.1 hv
        exact hzero k (List.mem_range.1 hk)
    · have hd : vd.val + 1 < 16 := by omega
      exact ⟨_, _, hd, vmxunpk_pair h (hgood vd (by omega)) hf h3 hd, fun k hk => ⟨lane_ofLanes 32 _ hk, lane_ofLanes 32 _ hk⟩⟩

end Sys2Proof.Machine
end

section
/-! Serving one index of a descriptor (R112, R128, R261, R264, R265, R269, R271, R273, R285, R303): what each way that an index can go answers. -/

namespace Sys2Proof.Machine

open Sys2Proof

variable {s x : State}

/-! ### The heat of blocks (R128) -/

theorem HeatOnly.refl (s : State) : HeatOnly s s := ⟨rfl, rfl⟩

theorem HeatOnly.trans {t u : State} (h : HeatOnly s t) (h' : HeatOnly t u) : HeatOnly s u := by
  obtain ⟨ht, hb⟩ := h
  obtain ⟨hu, hb'⟩ := h'
  refine ⟨hu.trans ?_, hb'.trans hb⟩
  rw [ht]
  rfl

theorem HeatOnly.tab (h : HeatOnly s x) : x.tab = s.tab := by
  rw [h.1]
  rfl

theorem HeatOnly.cells (h : HeatOnly s x) : x.mem.cells = s.mem.cells := by
  rw [h.1]
  rfl

theorem HeatOnly.poison (h : HeatOnly s x) : x.mem.poison = s.mem.poison := by
  rw [h.1]
  rfl

/-- The frame of a block does not hang on its heat. -/
theorem blkFrame_eq_cooled (s : State) (ti r i : Nat) : blkFrame s ti r i =
    ((s.mem.blocks.map (fun b => { b with heat := 0 })).find? (fun b => b.table == ti && b.region == r && b.index == i)).bind (·.frame) := by
  rw [List.find?_map, Option.bind_map]
  rfl

theorem HeatOnly.blkFrame (h : HeatOnly s x) (ti r i : Nat) : blkFrame x ti r i = blkFrame s ti r i := by
  rw [blkFrame_eq_cooled, h.2, ← blkFrame_eq_cooled]

theorem map_updFirst_of_same {α β : Type} {p : α → Bool} {f : α → α} {g : α → β} (h : ∀ a, g (f a) = g a) (l : List α) :
    (updFirst p f l).map g = l.map g := by
  induction l with
  | nil => rfl
  | cons a r ih =>
    by_cases ha : p a = true
    · simp [updFirst, ha, h]
    · simp [updFirst, ha, ih]

theorem heatUp_heatOnly (ti r i : Nat) (s : State) : HeatOnly s (heatUp ti r i s) :=
  ⟨rfl, map_updFirst_of_same (f := fun b => { b with heat := satAdd 255 b.heat 1 }) (fun _ => rfl) s.mem.blocks⟩

theorem foldl_heatOnly {α : Type} {f : State → α → State} (hf : ∀ s a, HeatOnly s (f s a)) (l : List α) (s : State) :
    HeatOnly s (l.foldl f s) := by
  induction l generalizing s with
  | nil => exact .refl s
  | cons a r ih => exact (hf s a).trans (ih _)

theorem heatRow_heatOnly (ti : Nat) (t : Tbl) (r row : Nat) (s : State) : HeatOnly s (heatRow ti t r row s) :=
  foldl_heatOnly (fun s (g : Nat × Nat × Nat) => heatUp_heatOnly ti r g.1 s) _ s

/-- The blocks of a row in several regions gain heat. -/
theorem heatRows_heatOnly (ti : Nat) (t : Tbl) (rs : List Nat) (row : Nat) (s : State) :
    HeatOnly s (rs.foldl (fun s r => heatRow ti t r row s) s) :=
  foldl_heatOnly (fun s r => heatRow_heatOnly ti t r row s) rs s

theorem heatKeys_heatOnly (ti : Nat) (t : Tbl) (index : Nat) (s : State) : HeatOnly s (heatKeys ti t index s) := by
  unfold heatKeys
  split
  · exact foldl_heatOnly (fun s i => heatUp_heatOnly ti 3 i s) _ s
  · exact .refl s

/-! ### A read of a row (R264, R265, R285) -/

/-- What a row reads as hangs on the bytes of memory and the frames of blocks alone. -/
theorem readRow_congr {ti : Nat} (hc : x.mem.cells = s.mem.cells) (hf : ∀ r i, blkFrame x ti r i = blkFrame s ti r i) (t : Tbl) (r row : Nat) :
    readRow x ti t r row = readRow s ti t r row := by
  simp only [readRow, readMem, hc, hf]

/-- The state in which a lookup has been counted and its row's blocks have gained heat. -/
def lookedUp (ti : Nat) (t : Tbl) (r row : Nat) (s : State) : State :=
  perfEvent blkTable 0x100 1 (heatRow ti t r row (updTbl ti (fun t => { t with lookups := (t.lookups + 1) % 2 ^ 64 }) s))

section
variable (ti : Nat) (t : Tbl) (r row : Nat) (s : State)

theorem lookedUp_cells : (lookedUp ti t r row s).mem.cells = s.mem.cells :=
  (heatRow_heatOnly ..).cells.trans (congrArg Mem.cells (updTbl_mem ..))

theorem lookedUp_poison : (lookedUp ti t r row s).mem.poison = s.mem.poison :=
  (heatRow_heatOnly ..).poison.trans (congrArg Mem.poison (updTbl_mem ..))

theorem lookedUp_blkFrame (r' i : Nat) : blkFrame (lookedUp ti t r row s) ti r' i = blkFrame s ti r' i :=
  ((heatRow_heatOnly ..).blkFrame ti r' i).trans (congrArg (·.bind (·.frame)) (blkFind_congr (congrArg Mem.blocks (updTbl_mem ..)) ti r' i))

theorem lookedUp_lookups (ht : tblOf s ti = some t) : (tblD (lookedUp ti t r row s) ti).lookups = (t.lookups + 1) % 2 ^ 64 := by
  have htab : (lookedUp ti t r row s).tab = (setTbl ti { t with lookups := (t.lookups + 1) % 2 ^ 64 } s).tab := by
    refine (heatRow_heatOnly ..).tab.trans (congrArg State.tab ?_)
    rw [updTbl, ht]
  rw [tblD, htab]
  exact congrArg Tbl.lookups (lookD_put_same ..)

end

section
variable {ti : Nat} {t : Tbl} {r row : Nat}

theorem serveRead_repointing {b : BadRow} (h : badRow t row = some b) (hb : b.repointing = true) : serveRead ti t r row s = .wait s 0 := by
  rw [serveRead, h]
  exact if_pos hb

theorem serveRead_poisoned {b : BadRow} (h : badRow t row = some b) (hb : b.repointing = false) :
    serveRead ti t r row s = .done (heatRow ti t r row s) csIntegrity (rolledFlag t row) [] := by
  rw [serveRead, h]
  exact if_neg (Bool.eq_false_iff.1 hb)

variable (hgood : badRow t row = none) (hplaced : rowPlaced s ti t r row = true)
include hgood hplaced

theorem serveRead_retrains (hr : rowRetrains s ti t [r] row = true) : serveRead ti t r row s = .wait s 0 := by
  simp [serveRead, hgood, hplaced, hr]

theorem serveRead_stored (hr : rowRetrains s ti t [r] row = false) :
    serveRead ti t r row s = .done (lookedUp ti t r row s) csOk (touchFlags s ti t [r] row) (readRow s ti t r row) := by
  have hread : readRow (lookedUp ti t r row s) ti t r row = readRow s ti t r row :=
    readRow_congr (lookedUp_cells ..) (lookedUp_blkFrame ti t r row s) t r row
  rw [← hread]
  simp [serveRead, hgood, hplaced, hr, lookedUp]

end

/-! ### A write of a poisoned row (R273, R285) -/

section
variable {ti : Nat} {t : Tbl} {row : Nat} {b : BadRow} (h : badRow t row = some b)
include h

theorem writable_repointing (hb : b.repointing = true) (step : Nat) (rs : List Nat) (overwrite : Bool) :
    writable ti t row step rs overwrite s = .wait s 0 := by
  rw [writable, h]
  exact if_pos hb

theorem writable_poisoned (hb : b.repointing = false) (step : Nat) (rs : List Nat) : writable ti t row step rs false s =
    .done (rs.foldl (fun s r => heatRow ti t r row s) s) csIntegrity (rolledFlag t row) [] := by
  rw [writable, h]
  exact if_neg (Bool.eq_false_iff.1 hb)

end

/-! ### The row that an index names (R278, R280) -/

theorem keyRows_of_plain {t : Tbl} (h : t.hashed = false) (index : Nat) : keyRows t index = [] := by simp [keyRows, h]

theorem keysIsolated_of_plain {t : Tbl} (h : t.hashed = false) (ti index : Nat) : keysIsolated s ti t index = false := by
  rw [keysIsolated, keyRows_of_plain h, List.any_nil]

theorem keysRetrain_of_plain {t : Tbl} (h : t.hashed = false) (ti index : Nat) : keysRetrain s ti t index = false := by
  rw [keysRetrain, keyRows_of_plain h, List.any_nil]

theorem rowRef_of_whole {t : Tbl} (h : t.hashed = false) (hs : t.sharded = false) (ti index : Nat) :
    rowRef s ti t index = if t.rows ≤ index then .bad else .row index := by simp [rowRef, h, hs]

theorem tblD_of_tblOf {ti : Nat} {t : Tbl} (h : tblOf s ti = some t) : tblD s ti = t := by
  rw [tblD, lookD, show look s.tab.tbls ti = some t from h, Option.getD_some]

/-! ### One index, once its row is found -/

/-- The region that a descriptor reads: the one that READ_ROWS addresses, and the serving one of a lookup. -/
def readRegion (t : Tbl) (o : RowOp) : Nat := if o.op = 4 then addressed t o.flags else servedRegion t

section
variable {ti : Nat} {t : Tbl} {o : RowOp} (ht : tblOf s ti = some t)
include ht

theorem serveFound_keysIsolated (h : keysIsolated s ti t o.index = true) : serveFound ti o s = .done s csIsolated 0 [] := by
  simp [serveFound, tblD_of_tblOf ht, h]

variable (hiso : keysIsolated s ti t o.index = false)
include hiso

theorem serveFound_keysRetrain (h : keysRetrain s ti t o.index = true) : serveFound ti o s = .wait s 0 := by
  simp [serveFound, tblD_of_tblOf ht, hiso, h]

variable (hretrain : keysRetrain s ti t o.index = false)
include hretrain

theorem serveFound_bad (h : rowRef s ti t o.index = .bad) : serveFound ti o s = .done s csBadIndex 0 [] := by
  simp [serveFound, tblD_of_tblOf ht, hiso, hretrain, h]

theorem serveFound_absent_lookup (h : rowRef s ti t o.index = .absent) (hadopt : adoptHolds s ti t o.index = false) (hop : o.op = 1 ∨ o.op = 2) :
    serveFound ti o s = .done s csOk 0 (List.replicate (regionRow t (servedRegion t)) 0) := by
  rcases hop with hop | hop <;> simp [serveFound, tblD_of_tblOf ht, hiso, hretrain, h, hadopt, hop]

section
variable {b : BadRow} (h : rowRef s ti t o.index = .lost b)
include h

theorem serveFound_lost_repointing (hb : b.repointing = true) : serveFound ti o s = .wait s 0 := by
  simp [serveFound, tblD_of_tblOf ht, hiso, hretrain, h, hb]

variable (hb : b.repointing = false)
include hb

theorem serveFound_lost_fails (hop : o.op ≠ 5) : serveFound ti o s = .done s csIntegrity (rolledFlag t b.row) [] := by
  simp [serveFound, tblD_of_tblOf ht, hiso, hretrain, h, hb, hop]

theorem serveFound_lost_rekey (hop : o.op = 5) : serveFound ti o s = serveRekey ti t o b.row s := by
  simp [serveFound, tblD_of_tblOf ht, hiso, hretrain, h, hb, hop]

end

section
variable {row : Nat} (h : rowRef s ti t o.index = .row row)
include h

theorem serveFound_row_isolated (hrow : rowIsolated s ti t (opRegions t o) row = true) : serveFound ti o s = .done s csIsolated 0 [] := by
  simp [serveFound, tblD_of_tblOf ht, hiso, hretrain, h, hrow]

variable (hrow : rowIsolated s ti t (opRegions t o) row = false)
include hrow

theorem serveFound_read (hop : o.op = 1 ∨ o.op = 2 ∨ o.op = 4) : serveFound ti o s = serveRead ti t (readRegion t o) row s := by
  rcases hop with hop | hop | hop <;> simp [serveFound, tblD_of_tblOf ht, hiso, hretrain, h, hrow, hop, readRegion]

theorem serveFound_write_held (hop : o.op = 3 ∨ o.op = 5) (hf : heldByFence s ti o.step = true) : serveFound ti o s = .wait s 0 := by
  rcases hop with hop | hop <;> simp [serveFound, tblD_of_tblOf ht, hiso, hretrain, h, hrow, hop, hf]

/-- A write that the row does not take yet waits with it. -/
theorem serveFound_write_waits (hop : o.op = 3 ∨ o.op = 5) (hf : heldByFence s ti o.step = false)
    (hw : ∀ overwrite, writable ti t row o.step (writtenRegions t o) overwrite s = .wait s 0) : serveFound ti o s = .wait s 0 := by
  rcases hop with hop | hop <;> simp [serveFound, tblD_of_tblOf ht, hiso, hretrain, h, hrow, hop, hf, hw]

theorem serveFound_update_poisoned {b : BadRow} (hop : o.op = 3) (hf : heldByFence s ti o.step = false) (hbad : badRow t row = some b)
    (hb : b.repointing = false) : serveFound ti o s =
      .done ((writtenRegions t o).foldl (fun s r => heatRow ti t r row s) s) csIntegrity (rolledFlag t row) [] := by
  simp [serveFound, tblD_of_tblOf ht, hiso, hretrain, h, hrow, hop, hf, writable_poisoned hbad hb, csIntegrity]

theorem serveFound_prefetch_repointing {b : BadRow} (hop : o.op = 6) (hbad : badRow t row = some b) (hb : b.repointing = true) :
    serveFound ti o s = .wait s 0 := by
  simp [serveFound, tblD_of_tblOf ht, hiso, hretrain, h, hrow, hop, hbad, hb]

theorem serveFound_prefetch_poisoned {b : BadRow} (hop : o.op = 6) (hbad : badRow t row = some b) (hb : b.repointing = false) :
    serveFound ti o s = .done ((tblRegions t).foldl (fun s r => heatRow ti t r row s) s) csIntegrity (rolledFlag t row) [] := by
  simp [serveFound, tblD_of_tblOf ht, hiso, hretrain, h, hrow, hop, hbad, hb]

/-! #### A poisoned row (R285, R287) -/

section
variable {b : BadRow} (hop : 1 ≤ o.op ∧ o.op ≤ 6) (hf : o.op = 3 ∨ o.op = 5 → heldByFence s ti o.step = false) (hbad : badRow t row = some b)
include hop hf hbad

theorem serveFound_repointing (hb : b.repointing = true) : serveFound ti o s = .wait s 0 := by
  have hcases : (o.op = 1 ∨ o.op = 2 ∨ o.op = 4) ∨ (o.op = 3 ∨ o.op = 5) ∨ o.op = 6 := by omega
  rcases hcases with hread | hwrite | hfetch
  · rw [serveFound_read ht hiso hretrain h hrow hread, serveRead_repointing hbad hb]
  · exact serveFound_write_waits ht hiso hretrain h hrow hwrite (hf hwrite) (writable_repointing hbad hb _ _)
  · exact serveFound_prefetch_repointing ht hiso hretrain h hrow hfetch hbad hb

theorem serveFound_poisoned (hne : o.op ≠ 5) (hb : b.repointing = false) :
    ∃ x, serveFound ti o s = .done x csIntegrity (rolledFlag t row) [] ∧ HeatOnly s x := by
  have hcases : (o.op = 1 ∨ o.op = 2 ∨ o.op = 4) ∨ o.op = 3 ∨ o.op = 6 := by omega
  rcases hcases with hread | hupdate | hfetch
  · exact ⟨_, (serveFound_read ht hiso hretrain h hrow hread).trans (serveRead_poisoned hbad hb), heatRow_heatOnly ..⟩
  · exact ⟨_, serveFound_update_poisoned ht hiso hretrain h hrow hupdate (hf (.inl hupdate)) hbad hb, heatRows_heatOnly ..⟩
  · exact ⟨_, serveFound_prefetch_poisoned ht hiso hretrain h hrow hfetch hbad hb, heatRows_heatOnly ..⟩

end

end

end

/-! ### The index served -/

section
variable {ti : Nat} {o : RowOp} {f : Nat}

theorem serveIndex_of_wait (h : serveFound ti o s = .wait x f) : serveIndex ti o s = .wait x f := by rw [serveIndex, h]

theorem serveIndex_of_done {st : Nat} {bs : Bytes} (h : serveFound ti o s = .done x st f bs) :
    serveIndex ti o s = .done (heatKeys ti (tblD s ti) o.index x) st f bs := by rw [serveIndex, h]

theorem serveIndex_heatOnly {st : Nat} {bs : Bytes} (h : serveFound ti o s = .done x st f bs) (hx : HeatOnly s x) :
    ∃ s', serveIndex ti o s = .done s' st f bs ∧ HeatOnly s s' :=
  ⟨_, serveIndex_of_done h, hx.trans (heatKeys_heatOnly ..)⟩

/-- A row that is read keeps every byte and every mark of poison, and the read is counted. -/
theorem serveIndex_of_lookedUp {t : Tbl} {r row : Nat} {bs : Bytes} (ht : tblOf s ti = some t)
    (h : serveFound ti o s = .done (lookedUp ti t r row s) csOk f bs) : ∃ s' f, serveIndex ti o s = .done s' csOk f bs ∧
      (∀ a, memGet s'.mem.cells a = memGet s.mem.cells a) ∧ s'.mem.poison = s.mem.poison ∧
      (tblD s' ti).lookups = (t.lookups + 1) % 2 ^ 64 := by
  have hheat := heatKeys_heatOnly ti (tblD s ti) o.index (lookedUp ti t r row s)
  refine ⟨_, f, serveIndex_of_done h, fun a => ?_, hheat.poison.trans (lookedUp_poison ..), ?_⟩
  · rw [hheat.cells, lookedUp_cells]
  · rw [tblD, hheat.tab]
    exact lookedUp_lookups ti t r row s ht

end

/-! ### The statement -/

/-- Settles O31: an index ends with what `serveFound` comes to, after which the blocks of its key have gained heat at most (`serveIndex_heatOnly`). -/
theorem aDescriptorsIndexIsServedByItsOperation : Obligations.ADescriptorsIndexIsServedByItsOperation := by
  unfold Obligations.ADescriptorsIndexIsServedByItsOperation
  intro s ti row t o ht here ends
  refine ⟨fun h => serveIndex_heatOnly (serveFound_keysIsolated ht h) (.refl s), fun hi h => serveIndex_of_wait (serveFound_keysRetrain ht hi h),
    fun hp => ⟨keysIsolated_of_plain hp .., keysRetrain_of_plain hp ..⟩, fun hp hs => rowRef_of_whole hp hs .., fun hi hr => ?_⟩
  refine ⟨fun h hgood hrow r hserved haddr hop hplaced => ?_, fun h hrow => ?_, fun h hrow hop hf => ?_, fun b h hrow hbad hop hf => ?_, fun b h => ?_,
    fun h => ?_, fun h hadopt hop => ?_⟩
  · obtain rfl : r = readRegion t o := by
      rcases hop with h1 | h2 | h4
      · simp [readRegion, h1, hserved (.inl h1)]
      · simp [readRegion, h2, hserved (.inr h2)]
      · simp [readRegion, h4, haddr h4]
    have hfound := serveFound_read ht hi hr h hrow hop
    exact ⟨fun hw => serveIndex_of_wait (hfound.trans (serveRead_retrains hgood hplaced hw)),
      fun hw => serveIndex_of_lookedUp ht (hfound.trans (serveRead_stored hgood hplaced hw))⟩
  · exact serveIndex_heatOnly (serveFound_row_isolated ht hi hr h hrow) (.refl s)
  · exact serveIndex_of_wait (serveFound_write_held ht hi hr h hrow hop hf)
  · refine ⟨fun hb => serveIndex_of_wait (serveFound_repointing ht hi hr h hrow hop hf hbad hb), fun hb hne => ?_⟩
    obtain ⟨x, hfound, hx⟩ := serveFound_poisoned ht hi hr h hrow hop hf hbad hne hb
    exact serveIndex_heatOnly hfound hx
  · refine ⟨fun hb => serveIndex_of_wait (serveFound_lost_repointing ht hi hr h hb),
      fun hb hne => serveIndex_heatOnly (serveFound_lost_fails ht hi hr h hb hne) (.refl s), fun hb hop hrow => ?_, fun hb hop hrow hf => ?_⟩
    · exact serveIndex_heatOnly ((serveFound_lost_rekey ht hi hr h hb hop).trans (if_pos hrow)) (.refl s)
    · exact serveIndex_of_wait ((serveFound_lost_rekey ht hi hr h hb hop).trans ((if_neg (Bool.eq_false_iff.1 hrow)).trans (if_pos hf)))
  · exact serveIndex_heatOnly (serveFound_bad ht hi hr h) (.refl s)
  · exact serveIndex_heatOnly (serveFound_absent_lookup ht hi hr h hadopt hop) (.refl s)

end Sys2Proof.Machine
end

section
/-! Tables are created, queried and destroyed (R243 to R251): what the handler of each command answers, case by case. -/

namespace Sys2Proof.Machine

open Sys2Proof

section
variable {c : Ctx} {s : State}

/-! ### TABLE_CREATE (R243 to R247) -/

/-- The table that a command asks for, under the handle of an index. -/
def tableAsked (c : Ctx) (s : State) (ti : Nat) : Tbl :=
  { createTbl c s with handle := ((fnD s c.iss.owner).slot.getD 0) % 1024 * 2 ^ 22 + ti * 2 ^ 10 + lookD s.tab.gens ti 1 }

/-- The fields of the block in effect that can differ from those given. -/
def tableEffect (t : Tbl) : List (Nat × Nat × Nat) :=
  [(0, 8, t.rows), (0xC, 4, t.rowBytes), (0x10, 4, t.dim), (0x18, 4, t.initValue), (0x20, 4, t.lr), (0x24, 4, t.beta1),
    (0x28, 4, t.beta2), (0x2C, 4, t.epsilon), (0x30, 4, t.decay), (0x34, 4, t.momentum), (0x38, 4, t.trustMax),
    (0x3C, 4, t.gradScale), (0x44, 4, t.ruleId), (0x48, 4, t.domainId), (0x58, 4, t.ringEntries)]

/-- The domain ID that a command names is another table's. -/
def domainTaken (c : Ctx) (s : State) : Bool := (c.p 0x14 1).testBit 1 && domainHeld s (c.p 0x48 4)

/-- The memory, the quota or the frames do not suffice for the table asked for. -/
def TableShort (c : Ctx) (s : State) (ti : Nat) : Prop :=
  quotaOf s c.iss.owner < quotaUsed s c.iss.owner + tblCharge (tableAsked c s ti) ∨ allocTable ti (tableAsked c s ti) s = none

theorem buildTable_of_index {ti : Nat} (hti : freeTableIndex s = some ti) : buildTable (createTbl c s) s =
    if s.mem.hotTotal = 0 ∨ quotaOf s c.iss.owner < quotaUsed s c.iss.owner + tblCharge (tableAsked c s ti) then none
    else (allocTable ti (tableAsked c s ti) s).map (fun x =>
      (ti, tableAsked c s ti, initTable ti (tableAsked c s ti) (setTbl ti (tableAsked c s ti) x))) := by
  rw [buildTable, hti]
  rfl

theorem buildTable_unplaced (h : freeTableIndex s = none ∨ s.mem.hotTotal = 0) : buildTable (createTbl c s) s = none := by
  cases hti : freeTableIndex s with
  | none => rw [buildTable, hti, Option.bind_none]
  | some ti => rw [buildTable_of_index hti, if_pos (.inl (h.resolve_left (by simp [hti])))]

theorem buildTable_short {ti : Nat} (hti : freeTableIndex s = some ti) (h : TableShort c s ti) : buildTable (createTbl c s) s = none := by
  rw [buildTable_of_index hti]
  rcases h with h | h
  · rw [if_pos (.inr h)]
  · rw [h, Option.map_none, ite_self]

theorem buildTable_made {ti : Nat} {s1 : State} (hti : freeTableIndex s = some ti) (hpop : s.mem.hotTotal ≠ 0)
    (hq : quotaUsed s c.iss.owner + tblCharge (tableAsked c s ti) ≤ quotaOf s c.iss.owner) (ha : allocTable ti (tableAsked c s ti) s = some s1) :
    buildTable (createTbl c s) s = some (ti, tableAsked c s ti, initTable ti (tableAsked c s ti) (setTbl ti (tableAsked c s ti) s1)) := by
  rw [buildTable_of_index hti, if_neg (not_or.2 ⟨hpop, Nat.not_lt.2 hq⟩), ha, Option.map_some]

theorem hTableCreate_refused {st d : Nat} (h : firstBad (createChecks c s) = some (st, d)) : hTableCreate c s = Res.rej s st d :=
  checked_of_bad h _

section
variable (hok : firstBad (createChecks c s) = none)
include hok

theorem hTableCreate_noRoom (hb : buildTable (createTbl c s) s = none) : hTableCreate c s = Res.rej s stNoResource dtNone := by
  unfold hTableCreate
  rw [checked_of_good hok, hb, roomThen_noResource]

section
variable {ti : Nat} {t : Tbl} {x : State} (hb : buildTable (createTbl c s) s = some (ti, t, x))
include hb

theorem hTableCreate_built : hTableCreate c s = checked s [(domainTaken c s, stConflict, 0x012C)]
    (Res.ok x (c.differs (tableEffect t)) (c.echo 128 tableNames (tableEffect t ++ [(0x4C, 4, t.handle)]))) := by
  unfold hTableCreate
  rw [checked_of_good hok, hb]
  rfl

theorem hTableCreate_conflict (hd : domainTaken c s = true) : hTableCreate c s = Res.rej s stConflict 0x012C := by
  rw [hTableCreate_built hok hb]
  refine checked_of_bad ?_ _
  exact if_pos hd

theorem hTableCreate_made (hd : domainTaken c s = false) : hTableCreate c s =
    Res.ok x (c.differs (tableEffect t)) (c.echo 128 tableNames (tableEffect t ++ [(0x4C, 4, t.handle)])) := by
  rw [hTableCreate_built hok hb]
  refine checked_of_good ?_ _
  exact if_neg (Bool.eq_false_iff.1 hd)

end

end

/-- Bits [21:10] of a handle are the index that it was made of (R249). -/
theorem handleIndex_of_parts {slot ti gen : Nat} (hti : ti < 4096) (hg : gen < 1024) : handleIndex (slot * 2 ^ 22 + ti * 2 ^ 10 + gen) = ti := by
  simp only [handleIndex, bits]
  omega

theorem freeTableIndex_lt {ti : Nat} (h : freeTableIndex s = some ti) : ti < 4096 := by
  obtain ⟨hlt, -, -⟩ := lowestFrom_eq_some h
  omega

/-! ### TABLE_QUERY (R251) -/

theorem tblOf_of_tblFor {h ti : Nat} {t : Tbl} (hf : tblFor c s h = some (ti, t)) : tblOf s ti = some t := by
  unfold tblFor at hf
  split at hf
  next u hu =>
    obtain ⟨-, hf⟩ := Option.ite_none_right_eq_some.1 hf
    cases hf
    exact hu
  next => cases hf

theorem hTableQuery_unknown (h : tblFor c s (c.p 0 4) = none) : hTableQuery c s = Res.rej s stBadHandle (dtField 0) := by
  rw [hTableQuery, h]

section
variable {ti : Nat} {t : Tbl} (h : tblFor c s (c.p 0 4) = some (ti, t))
include h

/-- Blocks of a table in one tier. -/
def tierBlocks (s : State) (ti : Nat) (hot : Bool) : Nat :=
  ((s.mem.blocks.filter (fun b => b.table == ti)).filter (fun b => match b.frame with | some f => isHotFrame f == hot | none => false)).length

theorem hTableQuery_known : hTableQuery c s = Res.ok s false (layout 128 [(0, 4, t.handle), (4, 4, t.status), (8, 8, t.localRows),
    (0x10, 8, if t.hashed then keysUsed s ti t else t.localRows), (0x18, 4, tierBlocks s ti true), (0x1C, 4, tierBlocks s ti false),
    (0x20, 8, poisonedRows t), (0x28, 8, t.rolledBack), (0x30, 4, t.lastCourse), (0x34, 4, t.ringLost), (0x38, 8, t.updates),
    (0x40, 8, t.lookups)]) := by
  rw [hTableQuery, h]
  rfl

end

/-! ### TABLE_DESTROY (R249) -/

/-- An open course covers a table. -/
def courseCovers (s : State) (ti : Nat) : Bool := courseLive s && (crun s).tables.contains ti

theorem hTableDestroy_unknown (h : tblFor c s (c.p 0 4) = none) : hTableDestroy c s = Res.rej s stBadHandle (dtField 0) := by
  rw [hTableDestroy, h]

section
variable {ti : Nat} {t : Tbl} (h : tblFor c s (c.p 0 4) = some (ti, t))
include h

theorem hTableDestroy_again (hst : t.status = 2) : hTableDestroy c s = Res.rej s stBadHandle (dtField 0) := by
  rw [hTableDestroy, h]
  exact if_pos hst

variable (hst : t.status ≠ 2)
include hst

theorem hTableDestroy_covered (hc : courseCovers s ti = true) : hTableDestroy c s = Res.rej s stBusy dtNone := by
  rw [hTableDestroy, h]
  exact (if_neg hst).trans (if_pos hc)

variable (hc : courseCovers s ti = false)
include hc

theorem hTableDestroy_open : hTableDestroy c s =
    if tableBusy s ti then .later (addWait c .destroy ti 0 (updTbl ti (fun t => { t with status := 2 }) s)) dtNone
      (layout 8 [(0, 4, t.handle), (4, 4, tblCharge t)])
    else Res.ok (freeTable ti s) false (layout 8 [(0, 4, t.handle), (4, 4, tableFrames s ti)]) := by
  rw [hTableDestroy, h]
  exact (if_neg hst).trans (if_neg (Bool.eq_false_iff.1 hc))

theorem hTableDestroy_idle (hb : tableBusy s ti = false) :
    hTableDestroy c s = Res.ok (freeTable ti s) false (layout 8 [(0, 4, t.handle), (4, 4, tblCharge t)]) := by
  rw [hTableDestroy_open h hst hc, if_neg (Bool.eq_false_iff.1 hb), tableFrames, tblD_of_tblOf (tblOf_of_tblFor h)]

theorem hTableDestroy_busy (hb : tableBusy s ti = true) : hTableDestroy c s = .later (addWait c .destroy ti 0 (setTbl ti { t with status := 2 } s)) dtNone
    (layout 8 [(0, 4, t.handle), (4, 4, tblCharge t)]) := by
  rw [hTableDestroy_open h hst hc, if_pos hb, updTbl, tblOf_of_tblFor h]

end

end

/-! ### The statement -/

/-- Settles O28: each command by what its handler answers or leaves (`replied_of_handler`, `onward_of_handler_later`). -/
theorem tablesAreCreatedQueriedAndDestroyed : Obligations.TablesAreCreatedQueriedAndDestroyed := by
  unfold Obligations.TablesAreCreatedQueriedAndDestroyed
  refine ⟨fun via pkt s s0 c hs => ?_, fun via pkt s s0 c hs => ?_, fun via pkt s s0 c hs => ?_⟩
  · refine ⟨fun st d h => replied_of_handler hs (by decide) (hTableCreate_refused h),
      fun hok h => replied_of_handler hs (by decide) (hTableCreate_noRoom hok (buildTable_unplaced h)),
      fun ti hok hti hpop => ⟨fun h => ?_, fun s1 hq ha => ?_, rfl, rfl, rfl, fun hg => handleIndex_of_parts (freeTableIndex_lt hti) hg⟩⟩
    · exact replied_of_handler hs (by decide) (hTableCreate_noRoom hok (buildTable_short hti h))
    · have hb := buildTable_made hti hpop hq ha
      exact ⟨fun hd => replied_of_handler hs (by decide) (hTableCreate_conflict hok hb hd),
        fun hd => replied_of_handler hs (by decide) (hTableCreate_made hok hb hd)⟩
  · exact ⟨fun h => replied_of_handler hs (by decide) (hTableQuery_unknown h), fun ti t h => replied_of_handler hs (by decide) (hTableQuery_known h)⟩
  · refine ⟨fun h => replied_of_handler hs (by decide) (hTableDestroy_unknown h),
      fun ti t h => ⟨fun hst => ?_, fun hst hc => ?_, fun hst hc hb => ?_, fun hst hc hb => ?_⟩⟩
    · exact replied_of_handler hs (by decide) (hTableDestroy_again h hst)
    · exact replied_of_handler hs (by decide) (hTableDestroy_covered h hst hc)
    · exact replied_of_handler hs (by decide) (hTableDestroy_idle h hst hc hb)
    · exact onward_of_handler_later hs (by decide) (hTableDestroy_busy h hst hc hb)

end Sys2Proof.Machine
end

section
/-! Forwarded indices and the repointing of poisoned rows (R281 to R288, R305, R309): what the row of each event makes of a part that is not frozen. -/

namespace Sys2Proof.Machine

open Sys2Proof

variable {s : State}

/-- With one captured value, the run of rows that one record covers is that row or none (R288). -/
theorem repointRun_one {ti row : Nat} {t : Tbl} {b : BadRow} (hbad : badRow t row = some b) :
    repointRun s ti t row b 1 = if b.repointing && rowWhole s ti t row then 1 else 0 := by
  simp [repointRun, List.range_succ, List.takeWhile_cons, hbad, apply_ite List.length]

section
variable (hz : s.tel.frozen = false)
include hz

/-! ### Forwarded indices and waits (R281 to R284, R305, R309) -/

theorem exec_forwardedIndex (dev token dom op flags step client lr index : Nat) (data : Bytes) (faults : List LineFault) :
    let w : FwdWait := { dev := dev, token := token, domainId := dom, op := op, flags := flags, step := step, client := client, lr := lr,
                         index := index, data := data }
    let s1 := lineFaults faults s
    exec (.forwardedIndex dev token dom op flags step client lr index data faults) s =
      .next (settle (s1.setTab { s1.tab with fwd := s1.tab.fwd ++ [w] })) :=
  congrArg Host.Outcome.next (thawed_of_running hz _)

theorem exec_forwardResult {n seq : Nat} {p : InProg} (hp : (cqpD s n).running.find? (fun p => p.seq == seq) = some p) (k st f : Nat)
    (data : Bytes) : exec (.forwardResult n seq k st f data) s =
      .next (if p.sent.contains k then settle (gotIndex n seq k st (f ||| cfForwarded) data s) else s) := by
  refine congrArg Host.Outcome.next ((thawed_of_running hz _).trans ?_)
  rw [hp]

theorem exec_heldDescriptorRelease (n : Nat) : exec (.heldDescriptorRelease n) s = .next (settle (runQueue n s)) :=
  congrArg Host.Outcome.next (thawed_of_running hz _)

theorem exec_spillWaitRelease (ti r i : Nat) : exec (.spillWaitRelease ti r i) s =
    .next (if courseLive s && (crun s).waiting.contains (ti, r, i) then s else settle s) :=
  congrArg Host.Outcome.next (thawed_of_running hz _)

/-! ### Repointing (R285 to R288) -/

section
variable {ti row : Nat}

/-- With no course committed, or for a row that is not poisoned, there is nothing to repoint. -/
theorem exec_repointRow_idle (vs : List CapturedRow) (slotFree : Bool) (h : badRow (tblD s ti) row = none ∨ s.course.committed = none) :
    exec (.repointRow ti row vs slotFree) s = .next s := by
  refine congrArg Host.Outcome.next ((thawed_of_running hz _).trans ?_)
  rcases h with h | h
  · rw [h]
  · rw [h]
    cases badRow (tblD s ti) row <;> rfl

theorem exec_repointTimeout_good (h : badRow (tblD s ti) row = none) : exec (.repointTimeout ti row) s = .next s := by
  refine congrArg Host.Outcome.next ((thawed_of_running hz _).trans ?_)
  rw [h]

section
variable {t : Tbl} {b : BadRow} (ht : tblOf s ti = some t) (hbad : badRow t row = some b)
include ht hbad

theorem exec_repointTimeout_repointing (hb : b.repointing = true) : exec (.repointTimeout ti row) s =
    .next (settle (setTbl ti { t with bad := t.bad.map (fun x => if x.row = row then { x with repointing := false } else x) } s)) := by
  refine congrArg Host.Outcome.next ((thawed_of_running hz _).trans ?_)
  rw [tblD_of_tblOf ht, hbad]
  refine (if_pos hb).trans ?_
  rw [updTbl, ht]

theorem exec_repointRow_one {id step : Nat} (hc : s.course.committed = some (id, step)) (v : CapturedRow) (slotFree : Bool) :
    exec (.repointRow ti row [v] slotFree) s = .next (if b.repointing && rowWhole s ti t row then
      settle (rollbackRecord ti row 1 id step b.cause slotFree (repointOne ti row id step b.cause v s)) else s) := by
  refine congrArg Host.Outcome.next ((thawed_of_running hz _).trans ?_)
  rw [tblD_of_tblOf ht, hbad, hc]
  simp only [List.length_singleton, repointRun_one hbad, ht, Option.isSome_some, and_true]
  cases hr : b.repointing && rowWhole s ti t row <;> simp

end

end

end

/-! ### The statement -/

/-- Settles O32: each row by what it makes of a part that is not frozen; one captured value repoints one row (`repointRun_one`). -/
theorem forwardedIndicesAndRepointing : Obligations.ForwardedIndicesAndRepointing := by
  unfold Obligations.ForwardedIndicesAndRepointing
  refine ⟨fun s dev token dom op flags step client lr index data faults hz => ?_, fun s n seq k st f data p hz hp => ⟨fun hk => ?_, fun hk => ?_⟩,
    fun s n hz => exec_heldDescriptorRelease hz n, fun s ti r i hz => ⟨fun hw => ?_, fun hw => ?_⟩,
    fun s ti row id step t b v slotFree hz ht hbad => ⟨fun hc hb hw => ?_, fun h => ?_, exec_repointTimeout_repointing hz ht hbad⟩,
    fun s ti row vs slotFree hz h => ⟨exec_repointRow_idle hz vs slotFree (.inl h), exec_repointTimeout_good hz h⟩⟩
  · exact ⟨_, exec_forwardedIndex hz .., rfl, rfl, rfl, rfl, rfl, rfl, rfl, rfl, rfl, rfl, rfl⟩
  · rw [exec_forwardResult hz hp, if_pos (List.contains_iff_mem.2 hk)]
  · rw [exec_forwardResult hz hp, if_neg (mt List.contains_iff_mem.1 hk)]
  · rw [exec_spillWaitRelease hz, if_pos (by simpa using hw)]
  · rw [exec_spillWaitRelease hz, if_neg (by simpa using hw)]
  · rw [exec_repointRow_one hz ht hbad hc, if_pos (by rw [hb, hw]; rfl)]
  · cases hc : s.course.committed with
    | none => exact exec_repointRow_idle hz [v] slotFree (.inr hc)
    | some cs =>
      obtain ⟨id', step'⟩ := cs
      have hnot : ¬ (b.repointing && rowWhole s ti t row) = true := by
        rcases h with h | h | h
        · cases hc.symm.trans h
        · simp [h]
        · simp [h]
      rw [exec_repointRow_one hz ht hbad hc, if_neg hnot]

end Sys2Proof.Machine
end

section
/-! The open course as it stands (R296, R337, R338, R341): what an update of the run leaves, what the part's outputs leave of the course, and what an
abort makes of it. -/

namespace Sys2Proof.Machine

open Sys2Proof

variable {s t : State}

/-- What a row makes of a part that is not frozen is its outcome (R629). -/
theorem next_thawed {x y : State} (hz : s.tel.frozen = false) (h : x = y) : (Host.Outcome.next (thawed s x) : Ran) = .next y :=
  congrArg Host.Outcome.next ((thawed_of_running hz x).trans h)

/-! ### The run -/

theorem run_of_courseLive (h : courseLive s = true) : s.course.run = some (crun s) := by
  unfold courseLive at h
  split at h
  next r hr => rw [crun, hr, Option.getD_some]
  next => cases h

/-- A course is open while its status is FENCING, CAPTURING or COMMITTING (R296). -/
theorem courseLive_iff (h : s.course.run = some (crun s)) : courseLive s = true ↔ 1 ≤ (crun s).status ∧ (crun s).status ≤ 3 := by
  rw [courseLive, h]
  exact decide_eq_true_iff

theorem crun_congr (h : t.course = s.course) : crun t = crun s := by rw [crun, crun, h]
theorem courseLive_congr (h : t.course = s.course) : courseLive t = courseLive s := by rw [courseLive, courseLive, h]

@[simp] theorem crun_setRun (r : CourseRun) (s : State) : crun (setRun r s) = r := rfl

theorem updRun_of_run (h : s.course.run = some (crun s)) (f : CourseRun → CourseRun) : updRun f s = setRun (f (crun s)) s := by
  rw [updRun, h]

theorem crun_updRun (h : s.course.run = some (crun s)) (f : CourseRun → CourseRun) : crun (updRun f s) = f (crun s) := by
  rw [updRun_of_run h, crun_setRun]

theorem run_updRun (h : s.course.run = some (crun s)) (f : CourseRun → CourseRun) : (updRun f s).course.run = some (f (crun s)) := by
  rw [updRun_of_run h]
  rfl

/-- An update of the run changes the run alone. -/
theorem updRun_eq_setCourse (f : CourseRun → CourseRun) (s : State) : ∃ r, updRun f s = s.setCourse { s.course with run := r } := by
  unfold updRun
  split
  · exact ⟨_, rfl⟩
  · exact ⟨s.course.run, rfl⟩

section
variable (f : CourseRun → CourseRun) (s : State)

@[simp] theorem updRun_mem : (updRun f s).mem = s.mem := by obtain ⟨r, h⟩ := updRun_eq_setCourse f s; rw [h]; rfl
@[simp] theorem updRun_tab : (updRun f s).tab = s.tab := by obtain ⟨r, h⟩ := updRun_eq_setCourse f s; rw [h]; rfl
@[simp] theorem updRun_out : (updRun f s).out = s.out := by obtain ⟨r, h⟩ := updRun_eq_setCourse f s; rw [h]; rfl
@[simp] theorem updRun_areas : (updRun f s).course.areas = s.course.areas := by obtain ⟨r, h⟩ := updRun_eq_setCourse f s; rw [h]; rfl
@[simp] theorem updRun_policy : (updRun f s).course.policy = s.course.policy := by obtain ⟨r, h⟩ := updRun_eq_setCourse f s; rw [h]; rfl
@[simp] theorem updRun_peerSteps : (updRun f s).course.peerSteps = s.course.peerSteps := by obtain ⟨r, h⟩ := updRun_eq_setCourse f s; rw [h]; rfl

end

/-! ### Outputs and the course -/

/-- Two states differ at most in what has been sent, in counters and in what the functions keep of it. -/
def SentOnly (s t : State) : Prop := ∃ c f o, t = ((s.setCsr c).setFns f).setOut o

theorem SentOnly.refl (s : State) : SentOnly s s := ⟨s.csr, s.fns, s.out, rfl⟩

theorem SentOnly.trans {u : State} (h : SentOnly s t) (g : SentOnly t u) : SentOnly s u := by
  obtain ⟨_, _, _, rfl⟩ := h
  obtain ⟨c, f, o, rfl⟩ := g
  exact ⟨c, f, o, rfl⟩

theorem SentOnly.course (h : SentOnly s t) : t.course = s.course := by obtain ⟨_, _, _, rfl⟩ := h; rfl
theorem SentOnly.mem (h : SentOnly s t) : t.mem = s.mem := by obtain ⟨_, _, _, rfl⟩ := h; rfl

theorem emit_sentOnly (o : Out) (s : State) : SentOnly s (emit o s) := ⟨s.csr, s.fns, _, rfl⟩

theorem dmaDropped_sentOnly (fid n : Nat) (s : State) : SentOnly s (dmaDropped fid n s) := by
  obtain ⟨c, h⟩ := dmaDropped_eq fid n s
  exact ⟨c, s.fns, s.out, h⟩

theorem updFn_sentOnly (fid : Nat) (g : Fn → Fn) (s : State) : SentOnly s (updFn fid g s) := by
  unfold updFn
  split
  · next f _ => exact ⟨s.csr, put s.fns fid (g f), s.out, rfl⟩
  · exact .refl s

theorem markPage_sentOnly (fid : Nat) (d : DirtyLog) (k : Nat) (s : State) : SentOnly s (markPage fid d k s) := by
  unfold markPage
  dsimp only
  split
  · exact (updFn_sentOnly ..).trans (dmaDropped_sentOnly ..)
  · exact (updFn_sentOnly ..).trans (emit_sentOnly ..)

theorem markWrite_sentOnly (fid addr n : Nat) (s : State) : SentOnly s (markWrite fid addr n s) := by
  have hout : ∀ (p : Prop) [Decidable p] (g : Fn → Fn), SentOnly s (if p then s else updFn fid g s) := fun p _ g => by
    split
    · exact .refl s
    · exact updFn_sentOnly ..
  unfold markWrite
  split
  · exact .refl s
  · dsimp only
    split
    · exact List.foldlRecOn (motive := SentOnly s) _ _ (hout ..) (fun _ ht _ _ => ht.trans (markPage_sentOnly ..))
    · exact hout ..

theorem dmaOut_sentOnly (fid addr : Nat) (bs : Bytes) (s : State) : SentOnly s (dmaOut fid addr bs s) := by
  unfold dmaOut
  split
  · exact .refl s
  · split
    · exact dmaDropped_sentOnly ..
    · exact (emit_sentOnly ..).trans (markWrite_sentOnly ..)

@[simp] theorem dmaOut_course (fid addr : Nat) (bs : Bytes) (s : State) : (dmaOut fid addr bs s).course = s.course := (dmaOut_sentOnly ..).course
@[simp] theorem dmaOut_mem (fid addr : Nat) (bs : Bytes) (s : State) : (dmaOut fid addr bs s).mem = s.mem := (dmaOut_sentOnly ..).mem

/-- Bytes for a function that takes them and logs no pages leave as one write. -/
theorem dmaOut_served {fid : Nat} {bs : Bytes} (hb : bs.isEmpty = false) (hs : silenced s fid = false) (hd : (fnD s fid).dirty = none)
    (addr : Nat) : dmaOut fid addr bs s = emit (.dma fid (genOf s fid) addr bs) s := by
  have hd' : (fnD (emit (.dma fid (genOf s fid) addr bs) s) fid).dirty = none := hd
  rw [dmaOut, if_neg (Bool.eq_false_iff.1 hb), if_neg (Bool.eq_false_iff.1 hs), markWrite, hd']

@[simp] theorem joinDomain_course (dst : Nat) (s : State) : (joinDomain dst s).course = s.course := by
  unfold joinDomain
  split <;> rfl

@[simp] theorem joinDomain_mem (dst : Nat) (s : State) : (joinDomain dst s).mem = s.mem := by
  unfold joinDomain
  split <;> rfl

@[simp] theorem sendDomain_course (dst : Nat) (m : DomainMsg) (s : State) : (sendDomain dst m s).course = s.course := joinDomain_course dst s
@[simp] theorem sendDomain_mem (dst : Nat) (m : DomainMsg) (s : State) : (sendDomain dst m s).mem = s.mem := joinDomain_mem dst s

@[simp] theorem sendDown_course (m : DomainMsg) (s : State) : (sendDown m s).course = s.course := by
  unfold sendDown
  split
  · rfl
  · exact sendDomain_course ..

@[simp] theorem sendDown_mem (m : DomainMsg) (s : State) : (sendDown m s).mem = s.mem := by
  unfold sendDown
  split
  · rfl
  · exact sendDomain_mem ..

@[simp] theorem sendUp_course (m : DomainMsg) (s : State) : (sendUp m s).course = s.course := by
  unfold sendUp
  split
  · rfl
  · exact sendDomain_course ..

@[simp] theorem sendUp_mem (m : DomainMsg) (s : State) : (sendUp m s).mem = s.mem := by
  unfold sendUp
  split
  · rfl
  · exact sendDomain_mem ..

/-- With children, a message down the tree goes out; with none, nothing does. -/
theorem sendDown_out (m : DomainMsg) (s : State) :
    (s.course.policy.children = 0 → (sendDown m s).out = s.out) ∧
    (s.course.policy.children ≠ 0 → (sendDown m s).out = s.out ++ [.domain downTree m]) :=
  ⟨fun h => by rw [sendDown, if_pos h], fun h => by rw [sendDown, if_neg h]; rfl⟩

theorem sendUp_of_member (h : fenceRoot s = false) (m : DomainMsg) : sendUp m s = sendDomain (fenceParent s) m s :=
  if_neg (Bool.eq_false_iff.1 h)

@[simp] theorem logPolicy_course (isl policy reason object old new : Nat) (s : State) :
    (logPolicy isl policy reason object old new s).course = s.course := by
  obtain ⟨c, x, h⟩ := logPolicy_eq isl policy reason object old new s
  rw [h]
  rfl

/-! ### The end of a course without a commit (R337, R338) -/

/-- Every block is marked captured: no course front stands. -/
def frontless (m : Mem) : Mem := { m with blocks := m.blocks.map (fun b => { b with captured := true }) }

/-- The release records of regions that are not released yet change the regions' sequences and what is sent. -/
theorem releaseRecords_keep (gs : List AccelRegion) (c st : Nat) (s : State) :
    let x := gs.foldl (fun s g => dmaOut g.endpoint g.notify (regionRecord g c st 1)
      (updRegion g.id (fun y => { y with seq := (y.seq + 1) % 65536 }) s)) s
    x.mem = s.mem ∧ ∃ rs, x.course = { s.course with regions := rs } := by
  refine List.foldlRecOn (motive := fun x : State => x.mem = s.mem ∧ ∃ rs, x.course = { s.course with regions := rs }) gs _
    ⟨rfl, s.course.regions, rfl⟩ ?_
  rintro x ⟨hm, rs, hc⟩ g -
  refine ⟨(dmaOut_mem ..).trans hm, ?_⟩
  simp only [dmaOut_course, updRegion, State.setCourse_course, hc]
  exact ⟨_, rfl⟩

theorem abortCourse_closed (h : courseLive s = false) (d : Nat) : abortCourse d s = s := if_pos (by rw [h]; rfl)

/-- The run of an aborted course: what it held of blocks, shards and records due is gone. -/
def abortedRun (d : Nat) (r : CourseRun) : CourseRun :=
  { r with status := 5, detail := d, spill := [], images := [], waiting := [], shards := [], ledgerDue := [], ledgerRest := [] }

/-- What an abort leaves: no course front, and a course whose outcome and run say so. -/
theorem abortCourse_live (h : courseLive s = true) (d : Nat) : (abortCourse d s).mem = frontless s.mem ∧
    ∃ rs as, (abortCourse d s).course =
      { s.course with regions := rs, areas := as, lastOutcome := 2, lastDetail := d, run := some (abortedRun d (crun s)) } := by
  unfold abortCourse
  rw [if_neg (by rw [h]; exact Bool.false_ne_true)]
  dsimp only
  obtain ⟨hm, rs, hc⟩ := releaseRecords_keep (s.course.regions.filter (fun g => g.inCourse && !g.staged)) (crun s).id (crun s).step s
  generalize List.foldl _ s _ = x at hm hc ⊢
  constructor
  · simp only [sendDown_mem, sendUp_mem, updRun_mem, State.setCourse_mem, State.setMem_mem, hm, frontless]
  · simp only [sendDown_course, sendUp_course, updRun, State.setCourse_course, State.setMem_course, setRun, hc, run_of_courseLive h]
    exact ⟨_, _, rfl⟩

section
variable (h : courseLive s = true) (d : Nat)
include h

theorem crun_abortCourse : crun (abortCourse d s) = abortedRun d (crun s) := by
  obtain ⟨-, _, _, hc⟩ := abortCourse_live h d
  rw [crun, hc, Option.getD_some]

theorem courseLive_abortCourse : courseLive (abortCourse d s) = false := by
  obtain ⟨-, _, _, hc⟩ := abortCourse_live h d
  rw [courseLive, hc]
  rfl

theorem abortCourse_outcome : (abortCourse d s).course.lastOutcome = 2 ∧ (abortCourse d s).course.lastDetail = d := by
  obtain ⟨-, _, _, hc⟩ := abortCourse_live h d
  rw [hc]
  exact ⟨rfl, rfl⟩

end

end Sys2Proof.Machine
end

section
/-! Fences of a course (R298 to R305, R331 to R333, R338): what the row of each event makes of a part that is not frozen. -/

namespace Sys2Proof.Machine

open Sys2Proof

variable {s : State}

/-! ### The course that opens (R295, R296) -/

/-- The run of a course that opens is new: in FENCING, with no child's FENCE_UP and its domain fence open. -/
theorem openRun_fresh (id step label format trigger : Nat) (s : State) : let o := openRun id step label format trigger s
    courseLive o = true ∧ (crun o).id = id ∧ (crun o).step = step ∧ (crun o).status = 1 ∧ (crun o).ups = [] ∧ (crun o).domainClosed = false :=
  ⟨rfl, rfl, rfl, rfl, rfl, rfl⟩

/-! ### Messages of the fence tree (R298, R304) -/

/-- The state after a child's FENCE_UP has been counted and its highest step noted. -/
def fenceUpCounted (child : Nat) (peer : Option Nat) (s : State) : State :=
  updRun (fun r => { r with ups := if r.ups.contains child then r.ups else r.ups ++ [child] }) (notePeer child peer s)

/-- The state after FENCE_RELEASE has been passed down and the domain fence closed. -/
def domainReleased (id : Nat) (s : State) : State := updRun (fun r => { r with domainClosed := true }) (sendDown (.fenceRelease id) s)

/-- The state after a tenant's fence has closed. -/
def tenantClosed (tenant : Nat) (s : State) : State := updRun (fun r => { r with closed := r.closed ++ [tenant] }) s

section
variable (hz : s.tel.frozen = false)
include hz

theorem exec_courseOpenMessage_paused (hp : coursePaused s = true) (source id step label format trigger : Nat) :
    exec (.courseOpenMessage source id step label format trigger) s = .next (holdOpen (.message source id step label format trigger) s) :=
  next_thawed hz (if_pos hp)

theorem exec_courseOpenMessage (hp : coursePaused s = false) (source id step label format trigger : Nat) :
    exec (.courseOpenMessage source id step label format trigger) s = .next (openMessage source id step label format trigger s) :=
  next_thawed hz (if_neg (Bool.eq_false_iff.1 hp))

section
variable (hl : courseLive s = true) {id : Nat} (hid : (crun s).id = id)
include hl hid

theorem exec_fenceUp (child : Nat) (peer : Option Nat) : exec (.fenceUp child id peer none) s = .next (settle (fenceUpCounted child peer s)) :=
  next_thawed hz (if_pos (by simp [hl, hid]))

theorem exec_fenceUp_ended (child d : Nat) (peer : Option Nat) : exec (.fenceUp child id peer (some d)) s =
    .next (if d = 0x0100 ∧ !fenceRoot s then sendUp (.openRefused id) s else settle (abortCourse d s)) :=
  next_thawed hz (if_pos (by simp [hl, hid]))

theorem exec_fenceRelease : exec (.fenceRelease id none) s = .next (settle (toCapturing (domainReleased id s))) :=
  next_thawed hz (if_pos (by simp [hl, hid]))

theorem exec_fenceRelease_ended (d : Nat) : exec (.fenceRelease id (some d)) s = .next (settle (abortCourse d s)) :=
  next_thawed hz (if_pos (by simp [hl, hid]))

end

/-- A message about another course than the open one changes nothing. -/
theorem exec_fenceMessage_other {id : Nat} (h : courseLive s = false ∨ (crun s).id ≠ id) (child : Nat) (peer ended : Option Nat) :
    exec (.fenceUp child id peer ended) s = .next s ∧ exec (.fenceRelease id ended) s = .next s := by
  have hno : ¬ (courseLive s && (crun s).id == id) = true := by
    rcases h with h | h <;> simp [h]
  exact ⟨next_thawed hz (if_neg hno), next_thawed hz (if_neg hno)⟩

theorem exec_fenceClose {tenant : Nat} (hl : courseLive s = true) (hd : tenantDone s tenant = true) (hn : tenant ∉ (crun s).closed) :
    exec (.fenceClose tenant false) s = .next (settle (toCapturing (tenantClosed tenant s))) :=
  next_thawed hz ((if_neg (by simp [hl])).trans
    ((if_neg Bool.false_ne_true).trans (if_pos (by simp [hd, hn]))))

theorem exec_fenceClose_idle {tenant : Nat} (h : courseLive s = false ∨ tenantDone s tenant = false ∨ tenant ∈ (crun s).closed) :
    exec (.fenceClose tenant false) s = .next s := by
  refine next_thawed hz ?_
  cases hl : courseLive s with
  | false => rfl
  | true =>
    have hno : ¬ (tenantDone s tenant && !(crun s).closed.contains tenant) = true := by
      rcases h.resolve_left (by simp [hl]) with h | h <;> simp [h]
    exact (if_neg Bool.false_ne_true).trans ((if_neg Bool.false_ne_true).trans (if_neg hno))

theorem exec_fenceTimeout (hl : courseLive s = true) (h1 : (crun s).status = 1) : exec .fenceTimeout s = .next (settle (abortCourse 0x0105 s)) :=
  next_thawed hz (if_pos (by simp [hl, h1]))

theorem exec_fenceTimeout_idle (h : courseLive s = false ∨ (crun s).status ≠ 1) : exec .fenceTimeout s = .next s :=
  next_thawed hz (if_neg (by rcases h with h | h <;> simp [h]))

theorem exec_periodicCourse (hr : running s = true) (hh : periodicHere s = true) : exec .periodicCourse s =
    .next (if coursePaused s then holdOpen .periodic s else autoOpen 1 s) :=
  next_thawed hz (if_pos (by simp [hr, hh]))

theorem exec_periodicCourse_idle (h : running s = false ∨ periodicHere s = false) : exec .periodicCourse s = .next s :=
  next_thawed hz (if_neg (by rcases h with h | h <;> simp [h]))

theorem exec_earlyRequest {child : Nat} (hc : child ≠ deviceIndex s) (counter rate : Nat) : exec (.earlyRequest child counter rate) s =
    .next (requestEarly counter rate s) :=
  next_thawed hz (if_neg hc)

end

/-- A member refuses what it may not open: one course at a time, its formats, no step that it has passed (R33, R298). -/
theorem openMessage_refused {step format : Nat}
    (h : courseLive s = true ∨ (format ≠ 3 ∧ format ≠ ownFormat) ∨ ∃ x, ownStep s = some x ∧ step < x) (source id label trigger : Nat) :
    openMessage source id step label format trigger s = sendDomain source (.openRefused id) s := by
  refine if_pos ?_
  rcases h with h | ⟨h3, ho⟩ | ⟨x, hx, hlt⟩
  · simp [h]
  · simp [h3, ho]
  · simp [hx, hlt]

theorem openMessage_opens {step format : Nat} {s2 : State} (hl : courseLive s = false) (hf : format = 3 ∨ format = ownFormat)
    (hs : ∀ x, ownStep s = some x → x ≤ step) (he : ensureFrames s = some s2) (source id label trigger : Nat) :
    openMessage source id step label format trigger s =
      settle (sendDown (.courseOpen id step label format trigger) (openRun id step label format trigger s2)) := by
  have hstep : (match ownStep s with | some x => decide (step < x) | none => false) = false := by
    cases hx : ownStep s with
    | none => rfl
    | some x => simpa using hs x hx
  have hfmt : (format == 3 || format == ownFormat) = true := by simpa using hf
  refine (if_neg ?_).trans (by rw [he])
  rw [hl, hfmt, Bool.not_true, Bool.false_or, Bool.false_or]
  exact Bool.eq_false_iff.1 hstep

/-! ### The ends of a fence (R299, R302, R304, R305) -/

@[simp] theorem notePeer_run (child : Nat) (peer : Option Nat) (s : State) : (notePeer child peer s).course.run = s.course.run := by
  cases peer <;> rfl
@[simp] theorem notePeer_mem (child : Nat) (peer : Option Nat) (s : State) : (notePeer child peer s).mem = s.mem := by
  cases peer <;> rfl
@[simp] theorem notePeer_tab (child : Nat) (peer : Option Nat) (s : State) : (notePeer child peer s).tab = s.tab := by
  cases peer <;> rfl

@[simp] theorem crun_notePeer (child : Nat) (peer : Option Nat) (s : State) : crun (notePeer child peer s) = crun s := by
  rw [crun, crun, notePeer_run]

theorem crun_fenceUpCounted (h : courseLive s = true) (child : Nat) (peer : Option Nat) : crun (fenceUpCounted child peer s) =
    { crun s with ups := if (crun s).ups.contains child then (crun s).ups else (crun s).ups ++ [child] } := by
  rw [fenceUpCounted, crun_updRun (by rw [notePeer_run, crun_notePeer, run_of_courseLive h]), crun_notePeer]

theorem fenceUpCounted_peerStep (child p : Nat) (s : State) : look (fenceUpCounted child (some p) s).course.peerSteps child = some p := by
  rw [fenceUpCounted, updRun_peerSteps]
  exact look_put_same ..

@[simp] theorem fenceUpCounted_mem (child : Nat) (peer : Option Nat) (s : State) : (fenceUpCounted child peer s).mem = s.mem := by
  rw [fenceUpCounted, updRun_mem, notePeer_mem]
@[simp] theorem fenceUpCounted_tab (child : Nat) (peer : Option Nat) (s : State) : (fenceUpCounted child peer s).tab = s.tab := by
  rw [fenceUpCounted, updRun_tab, notePeer_tab]

theorem crun_domainReleased (h : courseLive s = true) (id : Nat) : crun (domainReleased id s) = { crun s with domainClosed := true } := by
  rw [domainReleased, crun_updRun (by rw [sendDown_course, crun_congr (sendDown_course ..), run_of_courseLive h]), crun_congr (sendDown_course ..)]

theorem domainReleased_out (id : Nat) (s : State) : (domainReleased id s).out = (sendDown (.fenceRelease id) s).out := updRun_out ..

theorem crun_tenantClosed (h : courseLive s = true) (tenant : Nat) :
    crun (tenantClosed tenant s) = { crun s with closed := (crun s).closed ++ [tenant] } := crun_updRun (run_of_courseLive h) _

/-! ### Periodic and early courses (R331, R333) -/

theorem autoOpen_barred {bad : Nat × Nat} (h : firstBad (openBars s) = some bad) (trigger : Nat) :
    autoOpen trigger s = logPolicy 0x41 2 6 trigger s.course.highId s.course.highId s := by
  rw [autoOpen, h]

theorem autoOpen_opens {trigger : Nat} {x : State} (h : firstBad (openBars s) = none)
    (hr : rootOpen (s.course.highId + 1) (((domainStep s).getD 0 + (openPolicy s).stepLead) % 2 ^ 32) 0 trigger s = some x) :
    autoOpen trigger s = x := by
  unfold autoOpen
  simp only [h, hr]

theorem requestEarly_member (h : fenceRoot s = false) (counter rate : Nat) :
    requestEarly counter rate s = sendDomain (fenceParent s) (.earlyRequest counter rate) s := by
  rw [requestEarly, h, sendUp_of_member h]
  rfl

theorem requestEarly_paused (h : fenceRoot s = true) (hp : coursePaused s = true) (counter rate : Nat) :
    requestEarly counter rate s = holdOpen .early s := (if_pos h).trans (if_pos hp)

theorem requestEarly_root (h : fenceRoot s = true) (hp : coursePaused s = false) (counter rate : Nat) :
    requestEarly counter rate s = earlyOpen s := (if_pos h).trans (if_neg (Bool.eq_false_iff.1 hp))

/-- While a course is open, or within EARLY_MIN_GAP_S of the last early course, a request for one is logged and skipped (R333). -/
theorem earlyOpen_skipped (h : courseLive s = true ∨
    ∃ x, s.course.lastEarly = some x ∧ now s 0x41 < x + s.course.policy.earlyGap * 1000000000) :
    earlyOpen s = logPolicy 0x41 2 6 2 s.course.highId s.course.highId s := by
  refine if_pos ?_
  rcases h with h | ⟨x, hx, hlt⟩
  · simp [h]
  · simp [hx, hlt]

/-- An early course that opens is noted as the last. -/
theorem earlyOpen_first (hl : courseLive s = false) (hn : s.course.lastEarly = none) (ho : courseLive (earlyOpen s) = true) :
    (earlyOpen s).course.lastEarly = some (now s 0x41) := by
  have he : earlyOpen s = if courseLive (autoOpen 2 s) then
      (autoOpen 2 s).setCourse { (autoOpen 2 s).course with lastEarly := some (now s 0x41) } else autoOpen 2 s :=
    if_neg (by simp [hl, hn])
  rw [he] at ho ⊢
  split
  · rfl
  next h =>
    rw [if_neg h] at ho
    exact absurd ho h

/-! ### The warning buckets (R332, R333) -/

/-- The present counters have become the newest buckets. -/
def bucketsTurned (s : State) : State :=
  s.setCourse { s.course with
    buckets := (List.range 4).map (fun i => (s.course.present.getD i 0 :: s.course.buckets.getD i []).take 16), present := [0, 0, 0, 0] }

/-- What one counter at the end of a bucket makes of the part: where its rate reaches its threshold, a record and a request. -/
def warned (s : State) (i : Nat) : State :=
  if s.course.policy.thresh.getD i 0 ≤ warnRate s i then
    requestEarly i (warnRate s i) (logPolicy 0x41 2 1 i (s.course.policy.thresh.getD i 0) (warnRate s i) s)
  else s

theorem warned_below {i : Nat} (h : warnRate s i < s.course.policy.thresh.getD i 0) : warned s i = s := if_neg (Nat.not_le.2 h)

theorem foldl_warned_below {l : List Nat} (h : ∀ i ∈ l, warnRate s i < s.course.policy.thresh.getD i 0) : l.foldl warned s = s := by
  induction l with
  | nil => rfl
  | cons i r ih =>
    rw [List.foldl_cons, warned_below (h i List.mem_cons_self), ih (fun j hj => h j (List.mem_cons_of_mem _ hj))]

/-- A member's warning is a record and a request to its parent. -/
theorem warned_member {i : Nat} (hr : fenceRoot s = false) (h : s.course.policy.thresh.getD i 0 ≤ warnRate s i) :
    warned s i = sendDomain (fenceParent s) (.earlyRequest i (warnRate s i))
      (logPolicy 0x41 2 1 i (s.course.policy.thresh.getD i 0) (warnRate s i) s) := by
  have hp : fenceParent (logPolicy 0x41 2 1 i (s.course.policy.thresh.getD i 0) (warnRate s i) s) = fenceParent s := by
    rw [fenceParent, logPolicy_course, fenceParent]
  rw [warned, if_pos h, requestEarly_member (by rwa [fenceRoot, hp, ← fenceRoot]), hp]

theorem warned_member_course {i : Nat} (hr : fenceRoot s = false) : (warned s i).course = s.course := by
  by_cases h : s.course.policy.thresh.getD i 0 ≤ warnRate s i
  · rw [warned_member hr h, sendDomain_course, logPolicy_course]
  · rw [warned, if_neg h]

/-- Where one counter alone of a list of different ones reaches its threshold, only that one acts. -/
theorem foldl_warned_one {l : List Nat} {i : Nat} (hl : l.Nodup) (hi : i ∈ l) (hr : fenceRoot s = false)
    (hj : ∀ j ∈ l, j ≠ i → warnRate s j < s.course.policy.thresh.getD j 0) : l.foldl warned s = warned s i := by
  induction l with
  | nil => exact absurd hi List.not_mem_nil
  | cons k r ih =>
    obtain ⟨hk, hr'⟩ := List.nodup_cons.1 hl
    rw [List.foldl_cons]
    by_cases e : k = i
    · subst e
      refine foldl_warned_below (fun j hjr => ?_)
      have hc := warned_member_course (i := k) hr
      have hw : warnRate (warned s k) j = warnRate s j := by rw [warnRate, warnRate, hc]
      rw [hw, hc]
      exact hj j (List.mem_cons_of_mem _ hjr) (fun he => hk (he ▸ hjr))
    · rw [warned_below (hj k List.mem_cons_self e)]
      exact ih hr' ((List.mem_cons.1 hi).resolve_left (Ne.symm e)) (fun j hjr => hj j (List.mem_cons_of_mem _ hjr))

section
variable (hz : s.tel.frozen = false)
include hz

theorem exec_bucketBoundary (he : s.course.policy.early = true) :
    exec .bucketBoundary s = .next ((List.range 4).foldl warned (bucketsTurned s)) :=
  next_thawed hz (if_neg (by simp [he]))

theorem exec_bucketBoundary_quiet
    (h : s.course.policy.early = false ∨ ∀ i < 4, warnRate (bucketsTurned s) i < s.course.policy.thresh.getD i 0) :
    exec .bucketBoundary s = .next (bucketsTurned s) := by
  cases he : s.course.policy.early with
  | false => exact next_thawed hz (if_pos (by simp [he]))
  | true =>
    rw [exec_bucketBoundary hz he, foldl_warned_below]
    exact fun i hi => h.resolve_left (by simp [he]) i (List.mem_range.1 hi)

/-- One counter of a member reaches its threshold at the end of a bucket. -/
theorem exec_bucketBoundary_one {i : Nat} (hi : i < 4) (he : s.course.policy.early = true) (hr : fenceRoot s = false)
    (hge : s.course.policy.thresh.getD i 0 ≤ warnRate (bucketsTurned s) i)
    (hlt : ∀ j < 4, j ≠ i → warnRate (bucketsTurned s) j < s.course.policy.thresh.getD j 0) :
    exec .bucketBoundary s = .next (sendDomain (fenceParent s) (.earlyRequest i (warnRate (bucketsTurned s) i))
      (logPolicy 0x41 2 1 i (s.course.policy.thresh.getD i 0) (warnRate (bucketsTurned s) i) (bucketsTurned s))) := by
  have hrb : fenceRoot (bucketsTurned s) = false := hr
  have hgb : (bucketsTurned s).course.policy.thresh.getD i 0 ≤ warnRate (bucketsTurned s) i := hge
  rw [exec_bucketBoundary hz he, foldl_warned_one List.nodup_range (List.mem_range.2 hi) hrb (fun j hj => hlt j (List.mem_range.1 hj)),
    warned_member hrb hgb]
  rfl

end

/-! ### The statement -/

/-- Settles O34: each message and each end of a fence by what its row makes of a part that is not frozen; of the warning counters, one alone acts
(`foldl_warned_one`). -/
theorem courseFencesCloseAndTimeOut : Obligations.CourseFencesCloseAndTimeOut := by
  unfold Obligations.CourseFencesCloseAndTimeOut
  intro s hz
  refine ⟨fun source id step label format trigger hp => ?_, fun hp => ⟨exec_courseOpenMessage_paused hz hp, fun hr hh => ?_,
      fun child counter rate hc hr => ?_⟩, fun child id peer hl hid => ⟨fenceUpCounted child peer s, exec_fenceUp hz hl hid child peer, ?_⟩,
    fun child id d peer hl hid => ?_, fun child id peer ended h => exec_fenceMessage_other hz h child peer ended,
    fun id d hl hid => ⟨exec_fenceRelease_ended hz hl hid d, domainReleased id s, exec_fenceRelease hz hl hid, ?_⟩,
    fun tenant hl hd hn => ⟨tenantClosed tenant s, exec_fenceClose hz hl hd hn, ?_⟩, fun tenant h => exec_fenceClose_idle hz h,
    fun hl h1 => ?_, exec_fenceTimeout_idle hz, fun hp hr hh => ?_, exec_periodicCourse_idle hz, exec_bucketBoundary_quiet hz,
    fun i hi he hr hge hlt => exec_bucketBoundary_one hz hi he hr hge hlt, fun child counter rate hc => ?_⟩
  · rw [exec_courseOpenMessage hz hp]
    refine ⟨fun h => by rw [openMessage_refused (h.imp_right .inl)], fun x hx hlt => by rw [openMessage_refused (.inr (.inr ⟨x, hx, hlt⟩))],
      fun s2 hl hf hs he => ?_⟩
    obtain ⟨hlive, hid, hstep, -, hups, hdomain⟩ := openRun_fresh id step label format trigger s2
    exact ⟨by rw [openMessage_opens hl hf hs he], hlive, hid, hstep, hups, hdomain⟩
  · rw [exec_periodicCourse hz hr hh, if_pos hp]
  · rw [exec_earlyRequest hz hc, requestEarly_paused hr hp]
  · simp only [crun_fenceUpCounted hl, List.contains_iff_mem]
    refine ⟨trivial, trivial, fun p hp => ?_, fenceUpCounted_mem .., fenceUpCounted_tab ..⟩
    rw [hp, fenceUpCounted_peerStep]
  · simp only [exec_fenceUp_ended hz hl hid, Bool.not_eq_true']
  · rw [crun_domainReleased hl, domainReleased_out]
    exact ⟨rfl, rfl, (sendDown_out ..).1, (sendDown_out ..).2⟩
  · rw [crun_tenantClosed hl]
    exact ⟨rfl, rfl, updRun_mem ..⟩
  · exact ⟨exec_fenceTimeout hz hl h1, (abortCourse_outcome hl _).1, (abortCourse_outcome hl _).2, courseLive_abortCourse hl _⟩
  · rw [exec_periodicCourse hz hr hh, if_neg (Bool.eq_false_iff.1 hp)]
    exact ⟨fun bad hb => by rw [autoOpen_barred hb], fun x hb hx => by rw [autoOpen_opens hb hx]⟩
  · rw [exec_earlyRequest hz hc]
    exact ⟨fun hr => by rw [requestEarly_member hr], fun hp hr h => by rw [requestEarly_root hr hp, earlyOpen_skipped h],
      fun hp hr hl hn => ⟨earlyOpen s, by rw [requestEarly_root hr hp], earlyOpen_first hl hn⟩⟩

end Sys2Proof.Machine
end

section
/-! What a course captures and makes durable (R307 to R311, R323, R324, R329, R330, R335, R338): blocks, shards and their writes, staged regions,
and the commit. -/

namespace Sys2Proof.Machine

open Sys2Proof

variable {s : State}

/-! ### Blocks behind the course front (R307, R308) -/

/-- A block is marked captured. -/
def FrontPassed (b : Nat × Nat × Nat) (s : State) : Prop := ∃ k, blkFind s b.1 b.2.1 b.2.2 = some k ∧ k.captured = true

theorem FrontPassed.congr {t : State} {b : Nat × Nat × Nat} (h : FrontPassed b s) (hm : t.mem = s.mem) : FrontPassed b t := by
  obtain ⟨k, hk, hc⟩ := h
  exact ⟨k, (blkFind_congr (by rw [hm]) ..).trans hk, hc⟩

/-- An abort marks every block. -/
theorem FrontPassed.abortCourse {b : Nat × Nat × Nat} (h : FrontPassed b s) (d : Nat) : FrontPassed b (abortCourse d s) := by
  cases hl : courseLive s with
  | false => rwa [abortCourse_closed hl]
  | true =>
    obtain ⟨k, hk, -⟩ := h
    refine ⟨{ k with captured := true }, ?_, rfl⟩
    rw [blkFind, (abortCourse_live hl d).1, frontless, List.find?_map]
    exact congrArg (Option.map _) hk

@[simp] theorem useWorkingKey_mem (k : Nat) (label : Bytes) (s : State) : (useWorkingKey k label s).mem = s.mem := by
  unfold useWorkingKey
  split <;> rfl

@[simp] theorem updShard_mem (n : Nat) (f : Shard → Shard) (s : State) : (updShard n f s).mem = s.mem := updRun_mem ..
@[simp] theorem sendShard_mem (o i : Nat) (h : Shard) (s : State) : (sendShard o i h s).mem = s.mem := updShard_mem ..

@[simp] theorem packShard_mem (h : Shard) (data : Bytes) (s : State) : (packShard h data s).2.mem = s.mem := by
  unfold packShard
  split
  · rfl
  · dsimp only
    rw [updShard_mem]
    split
    · exact useWorkingKey_mem ..
    · rfl

/-- A shard that goes out leaves memory as it is, but where an abort ends the course. -/
theorem FrontPassed.sendOut {b : Nat × Nat × Nat} (hb : FrontPassed b s) (h : Shard) (data : Bytes) : FrontPassed b (sendOut h data s) := by
  unfold Machine.sendOut
  split
  · exact hb.abortCourse _
  · exact hb.congr (List.foldlRecOn (motive := fun x : State => x.mem = s.mem) _ _ (packShard_mem ..) (fun x hx i _ => (sendShard_mem ..).trans hx))

/-- The block that the walker captures is left marked captured. -/
theorem captureBlock_frontPassed {b : Nat × Nat × Nat} {k : Blk} (hk : blkFind s b.1 b.2.1 b.2.2 = some k) : FrontPassed b (captureBlock b s) := by
  have hkeep : KeepsPlace (fun x => { x with captured := true }) := fun _ => ⟨rfl, rfl, rfl⟩
  unfold captureBlock
  refine List.foldlRecOn (motive := FrontPassed b) _ _ ⟨{ k with captured := true }, ?_, rfl⟩ (fun x hx h _ => ?_)
  · rw [blkFind_updBlk_same hkeep, blkFind_congr (s := s), hk]
    · rfl
    · rw [updRun_mem]
      split <;> rfl
  · split
    · exact hx.sendOut _ _
    · exact hx

section
variable (hz : s.tel.frozen = false)
include hz

theorem exec_captureBlock {b : Nat × Nat × Nat} (hb : nextCapture s = some b) : exec (.captureBlock []) s = .next (settle (captureBlock b s)) := by
  refine next_thawed hz ?_
  simp only [lineFaults, List.foldl_nil, hb]

theorem exec_captureBlock_idle (hb : nextCapture s = none) : exec (.captureBlock []) s = .next s := by
  refine next_thawed hz ?_
  simp only [lineFaults, List.foldl_nil, hb]

end

/-! ### Shards (R323, R324) -/

theorem crun_updShard (h : courseLive s = true) (n : Nat) (f : Shard → Shard) :
    crun (updShard n f s) = { crun s with shards := updFirst (fun h => h.number == n) f (crun s).shards } :=
  crun_updRun (run_of_courseLive h) _

theorem find?_updShard {n : Nat} {h : Shard} (hl : courseLive s = true) (hh : (crun s).shards.find? (fun h => h.number == n) = some h)
    {f : Shard → Shard} (hf : ∀ x, (f x).number = x.number) :
    (crun (updShard n f s)).shards.find? (fun h => h.number == n) = some (f h) := by
  rw [crun_updShard hl, find?_updFirst_same (fun x hx => by rwa [hf]), hh]
  rfl

/-- A shard durable on one destination more, and one whose write to a destination has been tried once more. -/
def Shard.durableOn (d : Nat) (h : Shard) : Shard := { h with durable := h.durable ++ [d] }
def Shard.retriedOn (d : Nat) (h : Shard) : Shard := { h with retries := put h.retries d (lookD h.retries d 0 + 1) }

/-- The state after a shard has become durable on a destination. -/
def shardDurable (n d : Nat) (h : Shard) (s : State) : State :=
  freeStaged (updRun (fun r => { r with drained := r.drained + h.dataOffset + h.rowCount * h.rowBytes }) (updShard n (Shard.durableOn d) s))

/-- The state after a failed write has been sent again, at the same place. -/
def shardRetried (n d off : Nat) (h : Shard) (s : State) : State :=
  writeShard (destKey (destAt s d)) off h (updShard n (Shard.retriedOn d) s)

theorem crun_shardDurable (hl : courseLive s = true) (n d : Nat) (h : Shard) : crun (shardDurable n d h s) =
    { crun (updShard n (Shard.durableOn d) s) with drained := (crun s).drained + h.dataOffset + h.rowCount * h.rowBytes } := by
  have hrun : (updShard n (Shard.durableOn d) s).course.run = some (crun (updShard n (Shard.durableOn d) s)) := by
    rw [crun_updShard hl]
    exact run_updRun (run_of_courseLive hl) _
  refine (crun_updRun hrun _).trans ?_
  rw [crun_updShard hl]

@[simp] theorem shardDurable_out (n d : Nat) (h : Shard) (s : State) : (shardDurable n d h s).out = s.out := (updRun_out ..).trans (updRun_out ..)
@[simp] theorem shardDurable_mem (n d : Nat) (h : Shard) (s : State) : (shardDurable n d h s).mem = s.mem := (updRun_mem ..).trans (updRun_mem ..)

theorem shardRetried_out (n d off : Nat) (h : Shard) (s : State) : (shardRetried n d off h s).out =
    s.out ++ [.dest (destKey (destAt s d)) (off + h.dataOffset) h.body, .dest (destKey (destAt s d)) off h.head] := by
  have ho : (updShard n (Shard.retriedOn d) s).out = s.out := updRun_out ..
  simp [shardRetried, writeShard, emit, ho]

section
variable (hz : s.tel.frozen = false) {n d : Nat} {h : Shard} (hh : (crun s).shards.find? (fun h => h.number == n) = some h)
include hz hh

theorem exec_shardWriteComplete_again (hd : h.durable.contains d = true) : exec (.shardWriteComplete n d) s = .next s := by
  refine next_thawed hz ?_
  rw [hh]
  exact if_neg (by rw [hd, Bool.not_true, Bool.and_false]; exact Bool.false_ne_true)

variable (hl : courseLive s = true)
include hl

theorem exec_shardWriteComplete (hs : has h.sent d = true) (hd : h.durable.contains d = false) :
    exec (.shardWriteComplete n d) s = .next (settle (shardDurable n d h s)) := by
  refine next_thawed hz ?_
  rw [hh]
  exact if_pos (by rw [hl, hs, hd]; rfl)

variable {off : Nat} (hs : look h.sent d = some off) (hd : h.durable.contains d = false)
include hs hd

theorem exec_shardWriteFailed : exec (.shardWriteFailed n d) s =
    .next (if lookD h.retries d 0 < 3 then shardRetried n d off h s else settle (destFailed d s)) := by
  refine next_thawed hz ?_
  rw [hh]
  dsimp only
  rw [hs]
  exact if_neg (by rw [hl, hd]; exact Bool.false_ne_true)

end

/-- The state after a destination has been noted as failed for the course. -/
def destMarked (d : Nat) (s : State) : State :=
  updRun (fun r => { r with failed := if r.failed.contains d then r.failed else r.failed ++ [d] }) s

/-- A destination failed for the course is none of those in use (R338). -/
theorem mem_liveDests_destMarked (hl : courseLive s = true) {d i : Nat} (hi : i ∈ liveDests (destMarked d s)) :
    i ∈ (liveDests s).filter (· ≠ d) := by
  unfold liveDests dests destMarked at hi
  rw [crun_updRun (run_of_courseLive hl), updRun_policy, List.mem_filter] at hi
  obtain ⟨hr, hf⟩ := hi
  rw [List.mem_filter, liveDests, List.mem_filter]
  split at hf
  next hd =>
    simp only [List.contains_eq_mem, decide_eq_true_eq, Bool.not_eq_true', decide_eq_false_iff_not] at hd hf ⊢
    exact ⟨⟨hr, hf⟩, fun he => hf (he ▸ hd)⟩
  next hd =>
    simp only [List.contains_eq_mem, List.mem_append, List.mem_singleton, Bool.not_eq_true', decide_eq_false_iff_not, not_or, decide_eq_true_eq]
      at hf ⊢
    exact ⟨⟨hr, hf.1⟩, hf.2⟩

theorem courseLive_destMarked (hl : courseLive s = true) (d : Nat) : courseLive (destMarked d s) = true := by
  rw [courseLive, destMarked, run_updRun (run_of_courseLive hl)]
  exact decide_eq_true ((courseLive_iff (run_of_courseLive hl)).1 hl)

/-- The course ends where the last destination in use fails (R338). -/
theorem destFailed_last (hl : courseLive s = true) {d : Nat} (h : (liveDests s).filter (· ≠ d) = []) :
    (destFailed d s).course.lastDetail = 0x0106 ∧ courseLive (destFailed d s) = false := by
  have hnone : (liveDests (destMarked d s)).isEmpty = true := by
    rw [List.isEmpty_iff, List.eq_nil_iff_forall_not_mem]
    intro i hi
    have := mem_liveDests_destMarked hl hi
    rw [h] at this
    exact absurd this List.not_mem_nil
  have hend : destFailed d s = abortCourse 0x0106 (destMarked d s) := if_pos hnone
  rw [hend]
  exact ⟨(abortCourse_outcome (courseLive_destMarked hl d) _).2, courseLive_abortCourse (courseLive_destMarked hl d) _⟩

/-! ### Staged regions (R335) -/

/-- The state after the last byte of a region is in staging and its release record has left. -/
def regionStaged (g : AccelRegion) (data : Bytes) (s : State) : State :=
  dmaOut g.endpoint g.notify (regionRecord g (crun s).id (crun s).step 0)
    (updRegion g.id (fun g => { g with staged := true, data := data, seq := (g.seq + 1) % 65536 }) s)

/-- The release record of a region that its endpoint takes leaves as one write. -/
theorem regionStaged_out {g : AccelRegion} (hs : silenced s g.endpoint = false) (hd : (fnD s g.endpoint).dirty = none) (data : Bytes) :
    (regionStaged g data s).out = s.out ++ [.dma g.endpoint (genOf s g.endpoint) g.notify (regionRecord g (crun s).id (crun s).step 0)] := by
  have hne : (regionRecord g (crun s).id (crun s).step 0).isEmpty = false := by
    have hlen : (regionRecord g (crun s).id (crun s).step 0).length = 16 := layout_length (by simp)
    rw [List.isEmpty_eq_false_iff_exists_mem]
    exact List.exists_mem_of_length_pos (by omega)
  exact congrArg State.out (dmaOut_served (s := updRegion _ _ s) hne hs hd _)

/-- The shards of a staged region, each sent while the course is open. -/
def drainRegion (g : AccelRegion) (x : State) : State :=
  (accelShards x g).foldl (fun s h => if courseLive s then sendOut h (shardBytes s h) s else s)
    (updRun (fun r => { r with shards := r.shards ++ accelShards x g }) x)

section
variable (hz : s.tel.frozen = false) {g : AccelRegion} (hg : nextPull s = some g) (hl : courseLive s = true)
include hz hg

theorem exec_regionPullComplete_waits (hf : stagingFull s = true) (data : Bytes) : exec (.regionPullComplete g.id data) s = .next s := by
  refine next_thawed hz ?_
  rw [hg]
  exact if_neg (by simp [hf])

include hl

theorem exec_regionPullComplete {x : Nat} (hd : g.done = some x) (hx : (crun s).step ≤ x) (hf : stagingFull s = false) (data : Bytes) :
    exec (.regionPullComplete g.id data) s = .next (settle (drainRegion g (regionStaged g data s))) := by
  refine next_thawed hz ?_
  rw [hg]
  exact if_pos (by simp [hl, hf, hd, hx])

end

/-! ### Commit (R329, R330) -/

/-- The state after a child's COMMIT_UP has been counted. -/
def commitUpCounted (child : Nat) (es : List (Nat × Nat × Nat × Bytes)) (s : State) : State :=
  updRun (fun r => { r with upsCommit := r.upsCommit ++ [child], members := r.members ++ es.map (fun e =>
    { device := e.1, shards := e.2.1, length := e.2.2.1, digest := e.2.2.2 }) }) s

/-- The state after the root's record has become durable on a destination that holds shards of the root. -/
def ledgerDurable (d : Nat) (s : State) : State :=
  updRun (fun r => { r with ledgerDue := r.ledgerDue.filter (· != d) })
    (setLedger (destKey (destAt s d)) (ledgerFor s true d (crun s).manifest (lookD (crun s).manifestOff d 0)) s)

theorem run_ledgerDurable (hl : courseLive s = true) (d : Nat) :
    (ledgerDurable d s).course.run = some { crun s with ledgerDue := (crun s).ledgerDue.filter (· != d) } :=
  run_updRun (run_of_courseLive (s := setLedger _ _ s) hl) _

theorem crun_ledgerDurable (hl : courseLive s = true) (d : Nat) :
    crun (ledgerDurable d s) = { crun s with ledgerDue := (crun s).ledgerDue.filter (· != d) } := by
  rw [crun, run_ledgerDurable hl, Option.getD_some]

@[simp] theorem ledgerDurable_out (d : Nat) (s : State) : (ledgerDurable d s).out = s.out := updRun_out ..

section
variable (hz : s.tel.frozen = false)
include hz

section
variable {child : Nat} (id : Nat) (es : List (Nat × Nat × Nat × Bytes))

theorem exec_commitUp (hl : courseLive s = true) (hid : (crun s).id = id) (hc : child ∉ (crun s).upsCommit) :
    exec (.commitUp child id es) s = .next (settle (commitUpCounted child es s)) :=
  next_thawed hz (if_pos (by simp [hl, hid, hc]))

theorem exec_commitUp_again (hc : child ∈ (crun s).upsCommit) : exec (.commitUp child id es) s = .next s :=
  next_thawed hz (if_neg (by simp [hc]))

end

theorem exec_rootLedgerDurable (hl : courseLive s = true) {d : Nat} (hd : (crun s).ledgerDue.contains d = true) :
    exec (.rootLedgerDurable d) s = .next (if (crun (ledgerDurable d s)).ledgerDue.isEmpty then
      settle (courseCommitted (sendDown (.commitRelease (crun s).id (crun s).manifest) (ledgerDurable d s))) else ledgerDurable d s) :=
  next_thawed hz (if_pos (by rw [hl, hd]; rfl))

theorem exec_rootLedgerDurable_rest {d : Nat} (h : courseLive s = true ∨ (crun s).status = 4) (hd : (crun s).ledgerDue.contains d = false)
    (hr : (crun s).ledgerRest.contains d = true) : exec (.rootLedgerDurable d) s = .next (lateLedger d s) := by
  refine next_thawed hz ((if_neg ?_).trans (if_pos ?_))
  · rw [hd, Bool.and_false]
    exact Bool.false_ne_true
  · rw [hr, Bool.and_true]
    simpa using h

section
variable (hl : courseLive s = true) {id : Nat} (hid : (crun s).id = id) (hsent : (crun s).commitSent = true) (hroot : fenceRoot s = false)
  {manifest : Bytes}
include hl hid hsent hroot

/-- A member whose area has no room for the course manifest ends the course. -/
theorem exec_commitRelease_full (hw : courseLive (writeEverywhere manifest (liveDests s) s).2 = false) :
    exec (.commitRelease id manifest) s = .next (settle (writeEverywhere manifest (liveDests s) s).2) :=
  next_thawed hz ((if_pos (by simp [hl, hid, hsent, hroot])).trans (if_pos (by rw [hw]; rfl)))

theorem exec_commitRelease (hw : courseLive (writeEverywhere manifest (liveDests s) s).2 = true) : ∃ x,
    exec (.commitRelease id manifest) s = .next (settle (courseCommitted (sendDown (.commitRelease id manifest) x))) :=
  ⟨_, next_thawed hz ((if_pos (by simp [hl, hid, hsent, hroot])).trans
    (if_neg (by rw [hw]; exact Bool.false_ne_true)))⟩

end

theorem exec_commitRelease_idle {id : Nat} (h : courseLive s = false ∨ (crun s).id ≠ id ∨ (crun s).commitSent = false ∨ fenceRoot s = true)
    (manifest : Bytes) : exec (.commitRelease id manifest) s = .next s := by
  refine next_thawed hz (if_neg ?_)
  rcases h with h | h | h | h <;> simp [h]

end

/-- A course committed on this device is its latest, and every block may be written again. -/
theorem courseCommitted_commits (h : s.course.run = some (crun s)) :
    (courseCommitted s).course.committed = some ((crun s).id, (crun s).step) ∧ (crun (courseCommitted s)).status = 4 ∧
    ∀ b ∈ (courseCommitted s).mem.blocks, b.captured = true := by
  refine ⟨rfl, ?_, fun b hb => ?_⟩
  · exact (congrArg CourseRun.status (crun_updRun h _) :)
  · obtain ⟨x, -, rfl⟩ := List.mem_map.1 hb
    rfl

/-! ### The statement -/

/-- Settles O35: each event by what its row makes of a part that is not frozen; the block captured keeps its mark while shards go out
(`captureBlock_frontPassed`). -/
theorem capturedBlocksBecomeDurableShards : Obligations.CapturedBlocksBecomeDurableShards := by
  unfold Obligations.CapturedBlocksBecomeDurableShards
  intro s hz
  refine ⟨fun b hb => ⟨exec_captureBlock hz hb, fun k hk => captureBlock_frontPassed hk⟩, exec_captureBlock_idle hz,
    fun n d h hh hl hs => ⟨fun hd => ⟨shardDurable n d h s, exec_shardWriteComplete hz hh hl hs hd, ?_⟩,
      fun hd => exec_shardWriteComplete_again hz hh hd⟩,
    fun n d off h hh hl hs hd => ⟨fun ht => ⟨shardRetried n d off h s, ?_⟩, fun ht => ⟨?_, destFailed_last hl⟩⟩,
    fun g data hg hl hdone => ⟨fun hf => exec_regionPullComplete_waits hz hg hf data, fun hf => ⟨regionStaged g data s, ?_⟩⟩,
    fun child id es hl hid => ⟨fun hc => ⟨commitUpCounted child es s, exec_commitUp hz id es hl hid hc, ?_⟩, exec_commitUp_again hz id es⟩,
    fun d hl hd => ⟨fun e he hne => ⟨ledgerDurable d s, ?_⟩,
      fun hall => ⟨sendDown (.commitRelease (crun s).id (crun s).manifest) (ledgerDurable d s), ?_⟩⟩,
    fun d h hd hr => exec_rootLedgerDurable_rest hz h hd hr,
    fun id manifest hl hid hsent hroot => ⟨exec_commitRelease_full hz hl hid hsent hroot, exec_commitRelease hz hl hid hsent hroot⟩,
    fun id manifest h => exec_commitRelease_idle hz h manifest⟩
  · rw [crun_shardDurable hl]
    exact ⟨find?_updShard hl hh (fun _ => rfl), rfl, shardDurable_out .., shardDurable_mem ..⟩
  · rw [exec_shardWriteFailed hz hh hl hs hd, if_pos ht]
    exact ⟨rfl, shardRetried_out .., updRun_areas .., _, find?_updShard hl hh (fun _ => rfl), lookD_put_same .., rfl⟩
  · rw [exec_shardWriteFailed hz hh hl hs hd, if_neg (Nat.not_lt.2 ht)]
  · obtain ⟨x, hd, hx⟩ := hdone
    refine ⟨exec_regionPullComplete hz hg hl hd hx hf data, ?_, fun _ hs hd => regionStaged_out hs hd data⟩
    rw [regionStaged, dmaOut_course]
    rfl
  · rw [commitUpCounted, crun_updRun (run_of_courseLive hl)]
    exact ⟨rfl, rfl, updRun_mem .., updRun_out ..⟩
  · have hleft : (crun (ledgerDurable d s)).ledgerDue.isEmpty = false := by
      rw [crun_ledgerDurable hl, List.isEmpty_eq_false_iff_exists_mem]
      exact ⟨e, List.mem_filter.2 ⟨he, by simpa using hne⟩⟩
    rw [exec_rootLedgerDurable hz hl hd, hleft, crun_ledgerDurable hl]
    exact ⟨rfl, rfl, fun hm => by simp at hm, ledgerDurable_out ..⟩
  · have hnone : (crun (ledgerDurable d s)).ledgerDue.isEmpty = true := by
      rw [crun_ledgerDurable hl, List.isEmpty_iff, List.filter_eq_nil_iff]
      exact fun e he => by simp [hall e he]
    have hc : crun (sendDown (.commitRelease (crun s).id (crun s).manifest) (ledgerDurable d s)) = crun (ledgerDurable d s) :=
      crun_congr (sendDown_course ..)
    have hcommit := courseCommitted_commits (s := sendDown (.commitRelease (crun s).id (crun s).manifest) (ledgerDurable d s))
      (by rw [hc, sendDown_course, run_ledgerDurable hl, crun_ledgerDurable hl])
    rw [hc, crun_ledgerDurable hl] at hcommit
    exact ⟨by rw [exec_rootLedgerDurable hz hl hd, if_pos hnone], hcommit⟩

end Sys2Proof.Machine
end

section
/-! Frames that a policy takes and the course that opens with them (R290, R293 to R296): what each leaves of tables, queue pairs and the course. -/

namespace Sys2Proof.Machine

open Sys2Proof

variable {s t : State}

/-! ### Frames of a policy (R293, R294) -/

theorem FramesOnly.refl (s : State) : FramesOnly s s := ⟨s.mem, rfl, rfl, rfl⟩

theorem FramesOnly.trans {u : State} (h : FramesOnly s t) (g : FramesOnly t u) : FramesOnly s u := by
  obtain ⟨m, rfl, hb, hm⟩ := h
  obtain ⟨m', rfl, hb', hm'⟩ := g
  exact ⟨m', rfl, hb'.trans hb, hm'.trans hm⟩

theorem FramesOnly.course (h : FramesOnly s t) : t.course = s.course := by obtain ⟨_, rfl, _, _⟩ := h; rfl
theorem FramesOnly.tab (h : FramesOnly s t) : t.tab = s.tab := by obtain ⟨_, rfl, _, _⟩ := h; rfl

theorem takeSingles_framesOnly {hot : Bool} {use : FrameUse} {n : Nat} (h : takeSingles hot use n s = some t) : FramesOnly s t := by
  induction n generalizing s with
  | zero => cases h; exact .refl _
  | succ n ih =>
    obtain ⟨fs, hf, ht⟩ := Option.bind_eq_some_iff.1 h
    have hadd : FramesOnly fs.2 (fs.2.setMem { fs.2.mem with extents := fs.2.mem.extents ++ [{ first := fs.1, count := 1, use := use }] }) :=
      ⟨_, rfl, rfl, rfl⟩
    exact (takeFrame_framesOnly hf).trans (hadd.trans (ih ht))

theorem takeExtent_framesOnly {use : FrameUse} {n : Nat} (h : takeExtent use n s = some t) : FramesOnly s t := by
  unfold takeExtent at h
  split at h
  · cases h; exact .refl s
  · split at h
    · cases h
    · split at h
      · cases h; exact ⟨_, rfl, rfl, rfl⟩
      · exact takeSingles_framesOnly h

theorem takeCxlArea_framesOnly {gib : Nat} (h : takeCxlArea gib s = some t) : FramesOnly s t := by
  unfold takeCxlArea at h
  dsimp only at h
  split at h
  · cases h; exact .refl s
  · split at h
    · cases h
    · split at h
      · cases h; exact ⟨_, rfl, rfl, rfl⟩
      · exact takeSingles_framesOnly h

theorem takePolicy_framesOnly {p : CoursePolicy} (h : takePolicy p s = some t) : FramesOnly s t := by
  obtain ⟨u, hu, ht⟩ := Option.bind_eq_some_iff.1 h
  have hreuse : FramesOnly s (reuse .courseNext .courseOld s) := ⟨_, rfl, rfl, rfl⟩
  have hs : FramesOnly s u := hreuse.trans (takeExtent_framesOnly hu)
  split at ht
  · cases ht; exact hs
  · exact hs.trans (takeCxlArea_framesOnly ht)

/-- An accepted policy governs at once, or from the next COURSE_OPEN while a course is open (R290). -/
theorem acceptPolicy_governs {p : CoursePolicy} (h : acceptPolicy false p s = some t) :
    (courseLive s = true → t.course.next = some p ∧ t.course.policy = s.course.policy) ∧ (courseLive s = false → t.course.policy = p) := by
  obtain ⟨u, hu, rfl⟩ := Option.map_eq_some_iff.1 h
  have hc := (takePolicy_framesOnly hu).course
  rw [Bool.false_or, courseLive_congr hc]
  constructor
  · intro hl
    rw [if_pos hl, hc]
    exact ⟨rfl, rfl⟩
  · intro hl
    rw [if_neg (Bool.eq_false_iff.1 hl)]
    rfl

/-- The frames of the policy are there before a course opens; of the course, that alone is noted. -/
theorem ensureFrames_keeps (h : ensureFrames s = some t) : t.tab = s.tab ∧ ∃ b, t.course = { s.course with framesTaken := b } := by
  unfold ensureFrames at h
  split at h
  · cases h
    exact ⟨rfl, s.course.framesTaken, rfl⟩
  · obtain ⟨u, hu, rfl⟩ := Option.map_eq_some_iff.1 h
    refine ⟨(takePolicy_framesOnly hu).tab, true, ?_⟩
    rw [State.setCourse_course, (takePolicy_framesOnly hu).course]

/-! ### The opening (R295, R296) -/

theorem enforcePolicy_cqps (s : State) : (enforcePolicy s).tab.cqps = s.tab.cqps := by
  unfold enforcePolicy
  dsimp only
  split <;> split <;> rfl

theorem enforcePolicy_highId (s : State) : (enforcePolicy s).course.highId = s.course.highId := by
  unfold enforcePolicy
  dsimp only
  split <;> split <;> rfl

/-- The clients of a fence are all queue pairs of the part (R299). -/
theorem crun_openRun_clients (id step label format trigger : Nat) (s : State) :
    (crun (openRun id step label format trigger s)).clients = s.tab.cqps.map (fun e => (e.2.owner, e.1)) :=
  congrArg (List.map fun e : Nat × Cqp => (e.2.owner, e.1)) (enforcePolicy_cqps s)

theorem openRun_highId (id step label format trigger : Nat) (s : State) :
    (openRun id step label format trigger s).course.highId = max s.course.highId id := by
  refine Eq.trans ?_ (congrArg (max · id) (enforcePolicy_highId s))
  rfl

/-- The root opens with the lower of its policy's format and the domain's (R33). -/
theorem rootOpen_of_frames (h : ensureFrames s = some t) (id step label trigger : Nat) :
    let f := min (openPolicy s).format (subtreeFormat s)
    rootOpen id step label trigger s = some (settle (sendDown (.courseOpen id step label f trigger) (openRun id step label f trigger t))) := by
  obtain ⟨-, b, hc⟩ := ensureFrames_keeps h
  have hp : openPolicy t = openPolicy s := by rw [openPolicy, hc, openPolicy]
  have hf : subtreeFormat t = subtreeFormat s := by rw [subtreeFormat, fenceParent, hc, subtreeFormat, fenceParent]
  dsimp only
  rw [rootOpen, h, Option.map_some, hp, hf]

end Sys2Proof.Machine
end

section
/-! The commands of the course engine (R290 to R301, R316, R328, R334, R338, R341): what the handler of each answers. -/

namespace Sys2Proof.Machine

open Sys2Proof

variable {c : Ctx} {s : State}

/-! ### Fields of a block -/

theorem leVal_lt (bs : Bytes) : leVal bs < 256 ^ bs.length := by
  induction bs with
  | nil => simp [leVal]
  | cons b r ih =>
    have hb : b.toNat < 256 := b.isLt
    rw [leVal, List.length_cons, pow_succ]
    omega

theorem le_lt (bs : Bytes) (off n : Nat) : le bs off n < 2 ^ (8 * n) := by
  calc le bs off n < 256 ^ ((bs.drop off).take n).length := leVal_lt _
    _ ≤ 256 ^ n := Nat.pow_le_pow_right (by decide) (List.length_take_le _ _)
    _ = 2 ^ (8 * n) := (pow_mul 2 8 n).symm

/-- An echo of fields that use all their bits holds them as given. -/
theorem echo_whole (c : Ctx) (size : Nat) (l : List (Nat × Nat)) :
    c.echo size (whole l) [] = layout size (l.map (fun f => (f.1, f.2, c.p f.1 f.2))) := by
  have hfield : ∀ f : Nat × Nat, c.p f.1 f.2 &&& 2 ^ (8 * f.2) - 1 = c.p f.1 f.2 := fun f =>
    Nat.and_two_pow_sub_one_of_lt_two_pow (le_lt _ _ _)
  rw [Ctx.echo, List.append_nil, whole, List.map_map]
  refine congrArg (layout size) (List.map_congr_left (fun f _ => ?_))
  simp only [Function.comp_apply, hfield]

/-! ### COURSE_POLICY_SET (R290 to R294) -/

/-- The fields of the block in effect that can differ from those given. -/
def policyEffect (p : CoursePolicy) : List (Nat × Nat × Nat) :=
  policyFields p ++ (p.dests.zipIdx.map (fun x => (0x48 + 16 * x.2, 4, x.1.areaGib)))

theorem hCoursePolicySet_ok {t : State} (hc : firstBad (policyChecks c s (policyOf c)) = none)
    (hd : ∀ d ∈ (policyOf c).dests, destAttached s d = false) (ha : acceptPolicy false (policyOf c) s = some t) :
    hCoursePolicySet c s = c.okEcho t 128 policyNames (policyEffect (policyOf c)) := by
  have hfree : (policyOf c).dests.any (destAttached s) = false := by simpa using hd
  simp only [hCoursePolicySet, hCoursePolicy, ha]
  rw [checked_of_good hc, Ctx.okEcho, roomThen_ok]
  exact checked_of_good (by rw [hfree]; rfl) _

/-- The fence timeout, the shard size and the spill of a policy in effect lie in their ranges (R290). -/
theorem policyOf_bounds (c : Ctx) : let p := policyOf c
    100 ≤ p.fenceMs ∧ p.fenceMs ≤ 600000 ∧ p.shardMib % 4 = 0 ∧ 16 ≤ p.shardMib ∧ p.shardMib ≤ 4096 ∧ 1 ≤ p.spillGib ∧ p.spillGib ≤ 32 := by
  obtain ⟨hf1, hf2⟩ := clampN_bounds (lo := 100) (hi := 600000) (by decide) (c.p 0xC 4)
  obtain ⟨hs1, hs2⟩ := clampN_bounds (lo := 1) (hi := 32) (by decide) (c.p 4 1)
  obtain ⟨hm1, hm2⟩ := clampN_bounds (lo := 16) (hi := 4096) (by decide) (c.p 8 4)
  have hup : ∀ v, 16 ≤ v → v ≤ 4096 → 16 ≤ roundUp 4 v ∧ roundUp 4 v ≤ 4096 := fun v h1 h2 => by
    rw [roundUp, if_neg (by decide)]
    omega
  exact ⟨hf1, hf2, roundUp_mod (m := 4) (by decide) _, (hup _ hm1 hm2).1, (hup _ hm1 hm2).2, hs1, hs2⟩

/-! ### COURSE_OPEN (R295 to R298) -/

/-- The ID that COURSE_OPEN names, and the step; 0 and all ones ask for the next (R296, R297). -/
def askedId (c : Ctx) (s : State) : Nat := if c.p 0 4 = 0 then s.course.highId + 1 else c.p 0 4
def askedStep (c : Ctx) (s : State) : Nat :=
  if c.p 4 4 = 0xFFFFFFFF then ((domainStep s).getD 0 + (openPolicy s).stepLead) % 2 ^ 32 else c.p 4 4

/-- The reply to COURSE_OPEN in the part that the opening has left. -/
def openReply (id step high : Nat) (x : State) : Bytes :=
  layout 32 [(0, 4, id), (4, 4, step), (8, 2, (crun x).format), (0xA, 1, 0), (0xC, 4, high), (0x10, 8, (crun x).total)]

section
variable (hid : c.p 0 4 = 0 ∨ s.course.highId < c.p 0 4) (hb : firstBad (openBars s) = none)
include hid hb

theorem openChecks_pass : firstBad ((c.p 0 4 != 0 && decide (c.p 0 4 ≤ s.course.highId), stBadHandle, 0x0101) :: openBars s) = none := by
  have hok : (c.p 0 4 != 0 && decide (c.p 0 4 ≤ s.course.highId)) = false := by
    rcases hid with h | h
    · simp [h]
    · simp [Nat.not_le.2 h]
  rw [firstBad, hok]
  exact hb

theorem hCourseOpen_opens {x : State} (hs : domainStep s = none ∨ (domainStep s).getD 0 < askedStep c s)
    (hr : rootOpen (askedId c s) (askedStep c s) (c.p 8 8) 0 s = some x) :
    hCourseOpen c s = Res.ok x false (openReply (askedId c s) (askedStep c s) ((domainStep s).getD 0) x) := by
  have hstep : ¬ (askedStep c s ≤ (domainStep s).getD 0 ∧ (domainStep s).isSome = true) := by
    rintro ⟨hle, hsome⟩
    rcases hs with h | h
    · rw [h] at hsome; cases hsome
    · omega
  refine (checked_of_good (openChecks_pass hid hb) _).trans ((if_neg hstep).trans ?_)
  exact (congrArg (fun o : Option State => match o with
    | none => Res.rej s stNoResource dtNone
    | some x => Res.ok x false (openReply (askedId c s) (askedStep c s) ((domainStep s).getD 0) x)) hr :)

theorem hCourseOpen_passed (hsome : (domainStep s).isSome = true) (hle : askedStep c s ≤ (domainStep s).getD 0) :
    hCourseOpen c s = .reply s stConflict 0x0100 (layout 32 [(0xC, 4, (domainStep s).getD 0)]) :=
  (checked_of_good (openChecks_pass hid hb) _).trans (if_pos ⟨hle, hsome⟩)

end

/-! ### STEP_DONE (R300, R301) -/

/-- A queue pair after a report of a step: the highest step, and the tail as it stands. -/
def Cqp.reported (step : Nat) (q : Cqp) : Cqp :=
  { q with stepDone := some (max step (q.stepDone.getD 0)), sampled := q.fetched + q.unread.length,
           samples := if (match q.stepDone with | some x => decide (x < step) | none => true)
             then q.samples ++ [(step, q.fetched + q.unread.length)] else q.samples }

theorem reportStep_eq (step n : Nat) (s : State) : reportStep step n s = updCqp n (Cqp.reported step) s := rfl

/-- The same report twice says no more than once. -/
theorem Cqp.reported_reported (step : Nat) (q : Cqp) : Cqp.reported step (Cqp.reported step q) = Cqp.reported step q := by
  simp [Cqp.reported]

@[simp] theorem reportStep_tbls (step n : Nat) (s : State) : (reportStep step n s).tab.tbls = s.tab.tbls := by
  rw [reportStep_eq, updCqp]
  split <;> rfl

@[simp] theorem reportStep_mem (step n : Nat) (s : State) : (reportStep step n s).mem = s.mem := by
  rw [reportStep_eq, updCqp]
  split <;> rfl

theorem look_reportStep (step n : Nat) (s : State) (k : Nat) :
    look (reportStep step n s).tab.cqps k = (look s.tab.cqps k).map (fun q => if k = n then Cqp.reported step q else q) := by
  rw [reportStep_eq, updCqp]
  by_cases hk : k = n
  · subst hk
    cases h : look s.tab.cqps k with
    | none => simp [cqpOf, h]
    | some q => simp [cqpOf, h, setCqp]
  · cases h : cqpOf s n with
    | none => simp [hk]
    | some q => simp [hk, setCqp, look_put_of_ne _ _ (Ne.symm hk)]

/-- A report reaches each queue pair that it names and no other. -/
theorem look_reportSteps (step : Nat) (qs : List Nat) (s : State) (k : Nat) :
    look (qs.foldl (fun s n => reportStep step n s) s).tab.cqps k =
      (look s.tab.cqps k).map (fun q => if k ∈ qs then Cqp.reported step q else q) := by
  induction qs generalizing s with
  | nil => simp
  | cons n r ih =>
    rw [List.foldl_cons, ih, look_reportStep, Option.map_map]
    congr 1
    funext q
    by_cases hn : k = n <;> by_cases hr : k ∈ r <;> simp [hn, hr, Cqp.reported_reported]

/-- The state after the queue pairs that a STEP_DONE names, and the regions of the endpoint that sends it, have the step. -/
def stepReported (c : Ctx) (s : State) : State :=
  let x := (stepQueues c s (c.p 4 4)).foldl (fun s n => reportStep (c.p 0 4) n s) (warn 3 (c.p 8 2) s)
  if c.iss.kind = 4 then x.setCourse { x.course with regions := x.course.regions.map (fun g =>
    if g.endpoint = c.iss.fid then { g with done := some (max (c.p 0 4) (g.done.getD 0)) } else g) } else x

theorem stepReported_keeps (c : Ctx) (s : State) : let x := stepReported c s
    (∀ k, look x.tab.cqps k = (look s.tab.cqps k).map (fun q => if k ∈ stepQueues c s (c.p 4 4) then Cqp.reported (c.p 0 4) q else q)) ∧
    x.tab.tbls = s.tab.tbls ∧ x.mem = s.mem := by
  have hregions : ∀ (x : State) (r : Course), (if c.iss.kind = 4 then x.setCourse r else x).tab = x.tab ∧
      (if c.iss.kind = 4 then x.setCourse r else x).mem = x.mem := fun x r => by split <;> exact ⟨rfl, rfl⟩
  have hrest := List.foldlRecOn (motive := fun x : State => x.tab.tbls = s.tab.tbls ∧ x.mem = s.mem) (stepQueues c s (c.p 4 4))
    (fun s n => reportStep (c.p 0 4) n s) (b := warn 3 (c.p 8 2) s) ⟨rfl, rfl⟩
    (fun x hx n _ => ⟨(reportStep_tbls ..).trans hx.1, (reportStep_mem ..).trans hx.2⟩)
  dsimp only
  rw [stepReported, (hregions _ _).1, (hregions _ _).2]
  exact ⟨look_reportSteps _ _ _, hrest⟩

theorem hStepDone_ok (hq : c.p 4 4 = 0xFFFFFFFF ∨ stepQueues c s (c.p 4 4) ≠ []) : ∃ fin, hStepDone c s =
    Res.ok (settle (stepReported c s)) false (layout 8 [(0, 4, if courseLive s then (crun s).id else 0), (4, 4, bit fin)]) := by
  refine ⟨_, checked_of_pass ?_ _⟩
  have hnamed : (c.p 4 4 != 0xFFFFFFFF && (stepQueues c s (c.p 4 4)).isEmpty) = false := by
    rcases hq with h | h <;> simp [h]
  simpa using hnamed

/-! ### COURSE_STATUS, COURSE_ABORT and LEDGER_QUERY (R338, R341) -/

theorem hCourseStatus_ok (h : c.p 0 4 = 0 ∨ (s.course.run.isSome = true ∧ c.p 0 4 = (crun s).id)) :
    hCourseStatus c s = Res.ok s false (courseStatus s) := by
  refine checked_of_pass ?_ _
  rcases h with h | ⟨hr, h⟩
  · simp [h]
  · simp [h, hr]

theorem hCourseAbort_ok (hl : courseLive s = true) (hr : fenceRoot s = true) (h : c.p 0 4 = 0 ∨ c.p 0 4 = (crun s).id) :
    hCourseAbort c s = Res.ok (settle (abortCourse 0x010B s)) false (layout 8 [(0, 4, (crun s).id), (4, 4, 5)]) := by
  refine checked_of_pass ?_ _
  rcases h with h | h <;> simp [h, hl, hr]

/-- The bytes of a ledger slot; zeros where it holds no valid record (R341). -/
def slotBytes (r : Option LedgerRec) : Bytes := match r with | some x => x.bytes | none => List.replicate 128 0

theorem hLedgerQuery_ok (h : c.p 0 4 < (dests s).length) : hLedgerQuery c s =
    Res.ok s false (slotBytes (areaOf s (destKey (destAt s (c.p 0 4)))).slot0 ++ slotBytes (areaOf s (destKey (destAt s (c.p 0 4)))).slot1) :=
  checked_of_pass (by simpa using h) _

/-! ### Regions (R334) -/

/-- The region that a command registers. -/
def askedRegion (c : Ctx) (s : State) : AccelRegion :=
  { id := s.course.nextRegion, owner := c.iss.owner, endpoint := c.p 0 2, addr := c.p 8 8, length := c.p 0x10 8,
    notify := c.p 0x18 8, tag := c.p 0x20 8, joins := courseLive s }

theorem hRegionRegister_ok (he : endpointLive s (c.p 0 2) = true) (hk : c.iss.kind = 4 → c.p 0 2 = c.iss.fid) (hlo : 4096 ≤ c.p 0x10 8)
    (hhi : c.p 0x10 8 ≤ 2 ^ 36) (hm : c.p 0x10 8 % 4096 = 0) : hRegionRegister c s =
    Res.ok (s.setCourse { s.course with regions := s.course.regions ++ [askedRegion c s], nextRegion := s.course.nextRegion + 1 }) false
      (layout 16 [(0, 4, (askedRegion c s).id)]) := by
  refine checked_of_pass ?_ _
  simp only [List.mem_cons, List.not_mem_nil, or_false, forall_eq_or_imp, forall_eq, he, Bool.not_true, Bool.false_or, Bool.and_eq_false_iff,
    decide_eq_false_iff_not]
  refine ⟨?_, by omega⟩
  by_cases h4 : c.iss.kind = 4
  · exact .inr (by simp [hk h4])
  · exact .inl (by simpa using h4)

theorem hRegionDeregister_ok {g : AccelRegion} (hg : s.course.regions.find? (fun g => g.id == c.p 0 4 && !g.leaves) = some g)
    (hn : mayName c g.owner = true) : hRegionDeregister c s =
    Res.ok (if courseLive s then updRegion g.id (fun g => { g with leaves := true }) s
      else s.setCourse { s.course with regions := s.course.regions.filter (fun x => x.id != g.id) }) false (layout 8 [(0, 4, g.id)]) := by
  simp only [hRegionDeregister, hg, hn, Bool.not_true, Bool.false_eq_true, if_false]

/-! ### TABLE_CAPTURE_POLICY (R316) -/

theorem firstBad_append_pass {l : List (Bool × Nat × Nat)} (h : firstBad l = none) (st d : Nat) : firstBad (l ++ [(false, st, d)]) = none := by
  induction l with
  | nil => rfl
  | cons e r ih =>
    obtain ⟨b, st', d'⟩ := e
    cases b with
    | true => cases h
    | false => exact ih h

theorem hTableCapturePolicy_ok {ti : Nat} {t : Tbl} (ht : tblFor c s (c.p 0 4) = some (ti, t))
    (hc : firstBad (capChecks t (c.p 4 1) (c.p 5 1) (c.p 6 1) (c.p 7 1)) = none) (hl : courseLive s = false) :
    hTableCapturePolicy c s =
      Res.ok (setTbl ti { t with include_ := c.p 4 1 == 1, capWeight := c.p 5 1, capState := c.p 6 1, capServing := c.p 7 1 == 1, capNext := none } s)
        false (layout 64 [(0, 4, c.p 0 4), (4, 1, c.p 4 1), (5, 1, c.p 5 1), (6, 1, c.p 6 1), (7, 1, c.p 7 1)]) := by
  simp only [hTableCapturePolicy, hCapturePolicy, ht]
  rw [hl, checked_of_good (firstBad_append_pass hc _ _), echo_whole]
  rfl

/-! ### The statement -/

/-- Settles O33: each command by what its handler answers (`replied_of_handler`). -/
theorem courseCommandsAnswerAndAct : Obligations.CourseCommandsAnswerAndAct := by
  unfold Obligations.CourseCommandsAnswerAndAct
  refine ⟨fun via pkt s s0 s1 c hs => ?_, fun via pkt s s0 s2 c hs => ?_, fun via pkt s s0 c hs => ?_,
    fun via pkt s s0 c hs h => replied_of_handler hs (by decide) (hCourseStatus_ok h), fun via pkt s s0 c hs hl hr h => ?_,
    fun via pkt s s0 c hs he hk hlo hhi hm => replied_of_handler hs (by decide) (hRegionRegister_ok he hk hlo hhi hm),
    fun via pkt s s0 c g hs hg hn => replied_of_handler hs (by decide) (hRegionDeregister_ok hg hn),
    fun via pkt s s0 c ti t hs ht hc hl hf => replied_of_handler hs (by decide) (direct_of_reply (hTableCapturePolicy_ok ht hc hl) hf),
    fun via pkt s s0 c hs h => replied_of_handler hs (by decide) (hLedgerQuery_ok h)⟩
  · intro p fields hc hd ha hf
    exact ⟨replied_of_handler hs (by decide) (direct_of_reply (hCoursePolicySet_ok hc hd ha) hf), (acceptPolicy_governs ha).1,
      (acceptPolicy_governs ha).2, policyOf_bounds c⟩
  · intro id high step f hid hb he o x
    have hr := rootOpen_of_frames he (askedId c s0) (askedStep c s0) (c.p 8 8) 0
    obtain ⟨-, hrid, hrstep, hrstatus, -, -⟩ := openRun_fresh id step (c.p 8 8) f 0 s2
    refine ⟨fun hstep => ⟨replied_of_handler hs (by decide) (hCourseOpen_opens hid hb hstep hr), hrid, hrstep, hrstatus, ?_, openRun_highId ..⟩,
      fun hsome hle => replied_of_handler hs (by decide) (hCourseOpen_passed hid hb hsome hle)⟩
    rw [crun_openRun_clients, (ensureFrames_keeps he).1]
  · intro qs hq
    obtain ⟨fin, hfin⟩ := hStepDone_ok hq
    obtain ⟨hcqps, htbls, hmem⟩ := stepReported_keeps c s0
    refine ⟨stepReported c s0, fin, replied_of_handler hs (by decide) hfin, fun n q hn => ?_, htbls, hmem⟩
    rw [hcqps, hn]
    rfl
  · exact ⟨replied_of_handler hs (by decide) (hCourseAbort_ok hl hr h), congrArg CourseRun.status (crun_abortCourse hl _),
      (abortCourse_outcome hl _).2⟩

end Sys2Proof.Machine
end

section
/-! Chunks of a restore as they are read (R352, R353, R364): what an update of the restore and of a shard of its plan leaves, and what a read that fails,
a header, a chunk and a source that does not answer make of it. -/

namespace Sys2Proof.Machine

open Sys2Proof

variable {s : State} {i j : Nat} {h : PlanShard} {head data : Bytes}

/-! ### The restore and its plan -/

/-- A shard in the plan is one of a restore that is there. -/
theorem restore_of_plan (hp : (rrun s).plan[i]? = some h) : s.elastic.restore = some (rrun s) := by
  cases hr : s.elastic.restore with
  | none =>
    rw [rrun, hr] at hp
    cases hp
  | some r => rw [rrun, hr, Option.getD_some]

/-- Without a restore the state is IDLE. -/
theorem restore_of_state (hs : (rrun s).state ≠ 0) : s.elastic.restore = some (rrun s) := by
  cases hr : s.elastic.restore with
  | none =>
    rw [rrun, hr] at hs
    exact absurd rfl hs
  | some r => rw [rrun, hr, Option.getD_some]

theorem rrun_congr {t : State} (he : t.elastic = s.elastic) : rrun t = rrun s := by rw [rrun, rrun, he]

theorem rrun_updRestore (hr : s.elastic.restore = some (rrun s)) (f : RestoreRun → RestoreRun) : rrun (updRestore f s) = f (rrun s) := by
  rw [rrun, updRestore, setElastic, State.setElastic_elastic, hr, Option.map_some, Option.getD_some]

section
variable (f : RestoreRun → RestoreRun) (s : State)

@[simp] theorem updRestore_mem : (updRestore f s).mem = s.mem := rfl
@[simp] theorem updRestore_tab : (updRestore f s).tab = s.tab := rfl

end

section
variable (i : Nat) (f : PlanShard → PlanShard) (s : State)

@[simp] theorem updPlan_mem : (updPlan i f s).mem = s.mem := rfl
@[simp] theorem updPlan_tab : (updPlan i f s).tab = s.tab := rfl

end

/-- The restore after an update of one shard of its plan. -/
theorem rrun_updPlan (hp : (rrun s).plan[i]? = some h) (f : PlanShard → PlanShard) :
    ∃ plan, rrun (updPlan i f s) = { rrun s with plan := plan } ∧ plan[i]? = some (f h) := by
  refine ⟨_, rrun_updRestore (restore_of_plan hp) _, ?_⟩
  rw [List.getElem?_map, List.getElem?_zipIdx, hp]
  simp

/-! ### A read that fails (R353) -/

/-- The item is read again: one shard of the plan has changed, and a chunk read again is counted. -/
theorem readAgain_updPlan (hp : (rrun s).plan[i]? = some h) (item : Nat) (f : PlanShard → PlanShard) :
    let x := readAgain item (updPlan i f s)
    (rrun x).plan[i]? = some (f h) ∧ (rrun x).retries = (rrun s).retries + (if item = 0 then 0 else 1) ∧ x.mem = s.mem := by
  obtain ⟨plan, hplan, hi⟩ := rrun_updPlan hp f
  unfold readAgain
  dsimp only
  split
  · exact ⟨by rw [hplan]; exact hi, by rw [hplan, Nat.add_zero], rfl⟩
  · rw [rrun_updRestore (restore_of_plan (h := f h) (by rw [hplan]; exact hi)), hplan]
    exact ⟨hi, rfl, rfl⟩

/-- What a failed read of an item comes to: once more from the same source, then from the next one, and at last the end of the restore. -/
theorem readFailed_outcome (hp : (rrun s).plan[i]? = some h) (item detail : Nat) :
    let o := readFailed i h item detail s
    let n := lookD h.passed item 0
    (h.retried.contains item = false → (rrun o).plan[i]? = some { h with retried := item :: h.retried } ∧
      (rrun o).retries = (rrun s).retries + (if item = 0 then 0 else 1) ∧ o.mem = s.mem) ∧
    (h.retried.contains item = true → n + 1 < h.sources.length →
      (rrun o).plan[i]? = some { h with passed := put h.passed item (n + 1), retried := h.retried.filter (· != item) } ∧
      (rrun o).retries = (rrun s).retries + (if item = 0 then 0 else 1) ∧ o.mem = s.mem) ∧
    (h.retried.contains item = true → h.sources.length ≤ n + 1 → o = failRestore detail h.origin h.index s) := by
  intro o n
  refine ⟨fun hn => ?_, fun hy hl => ?_, fun hy hl => ?_⟩
  · have ho : o = readAgain item (updPlan i (fun h => { h with retried := item :: h.retried }) s) := if_pos (by rw [hn]; rfl)
    rw [ho]
    exact readAgain_updPlan hp item _
  · have ho : o = readAgain item (updPlan i (fun h => { h with passed := put h.passed item (n + 1), retried := h.retried.filter (· != item) }) s) :=
      (if_neg (by simpa using hy)).trans (if_pos hl)
    rw [ho]
    exact readAgain_updPlan hp item _
  · exact (if_neg (by simpa using hy)).trans (if_neg (Nat.not_lt.2 hl))

/-! ### Headers and chunks (R352) -/

/-- A header taken changes the restore alone. -/
theorem takeHead_eq {y : State} (hy : takeHead i h head s = some y) : ∃ e, y = s.setElastic e := by
  unfold takeHead at hy
  split at hy
  · cases hy
    exact ⟨s.elastic, rfl⟩
  · split at hy
    · cases hy
      exact ⟨_, rfl⟩
    · cases hy

theorem useWorkingKey_eq (k : Nat) (label : Bytes) (s : State) : ∃ c, useWorkingKey k label s = s.setSec { s.sec with keyCache := c } := by
  unfold useWorkingKey
  split
  · exact ⟨s.sec.keyCache, rfl⟩
  · exact ⟨_, rfl⟩

/-- The check of a chunk uses working keys: the security state's cache of them changes alone. -/
theorem useSealKeys_eq (course : Nat) (h : PlanShard) (head : Bytes) (s : State) :
    ∃ c, useSealKeys course h head s = s.setSec { s.sec with keyCache := c } := by
  unfold useSealKeys
  split
  · refine List.foldlRecOn (motive := fun x : State => ∃ c, x = s.setSec { s.sec with keyCache := c }) _ _ ⟨s.sec.keyCache, rfl⟩ ?_
    rintro x ⟨c, rfl⟩ k -
    exact useWorkingKey_eq k _ _
  · exact ⟨s.sec.keyCache, rfl⟩

/-- A shard of the plan with a chunk of its plaintext kept. -/
def withChunk (j : Nat) (p : Bytes) (h : PlanShard) : PlanShard :=
  { h with chunks := h.chunks.filter (· != j), got := put h.got j p, retried := h.retried.filter (· != j + 1) }

/-- A chunk that verifies is counted and kept with its shard. -/
def chunkKept (i j : Nat) (h : PlanShard) (head data p : Bytes) (s : State) : State :=
  updPlan i (withChunk j p) (updRestore (fun r => { r with bytesDone := r.bytesDone + data.length }) (useSealKeys (rrun s).courseId h head s))

theorem chunkKept_eq (i j : Nat) (h : PlanShard) (head data p : Bytes) (s : State) :
    (chunkKept i j h head data p s).mem = s.mem ∧ (chunkKept i j h head data p s).tab = s.tab := by
  obtain ⟨c, hc⟩ := useSealKeys_eq (rrun s).courseId h head s
  simp only [chunkKept, updPlan_mem, updPlan_tab, updRestore_mem, updRestore_tab, hc, State.setSec_mem, State.setSec_tab, and_self]

theorem rrun_chunkKept (hp : (rrun s).plan[i]? = some h) (j : Nat) (head data p : Bytes) :
    (rrun (chunkKept i j h head data p s)).plan[i]? = some (withChunk j p h) ∧
    (rrun (chunkKept i j h head data p s)).bytesDone = (rrun s).bytesDone + data.length := by
  obtain ⟨c, hc⟩ := useSealKeys_eq (rrun s).courseId h head s
  have hx : rrun (updRestore (fun r => { r with bytesDone := r.bytesDone + data.length }) (useSealKeys (rrun s).courseId h head s)) =
      { rrun s with bytesDone := (rrun s).bytesDone + data.length } := by
    rw [hc]
    exact rrun_updRestore (s := s.setSec { s.sec with keyCache := c }) (restore_of_plan hp) _
  obtain ⟨plan, hplan, hi⟩ := rrun_updPlan (i := i) (h := h) (by rw [hx]; exact hp) (withChunk j p)
  rw [chunkKept, hplan, hx]
  exact ⟨hi, rfl⟩

section
variable {g : PlanShard}

theorem takeChunk_read (hj : g.chunks.contains j = false) (head data : Bytes) (s : State) : takeChunk i j g head data s = s :=
  if_pos (by rw [hj]; rfl)

theorem takeChunk_bad {d : Nat} (hj : g.chunks.contains j = true) (ho : openChunk s (rrun s).courseId g head j data = .inr d) :
    takeChunk i j g head data s = readFailed i g (j + 1) d s := by
  unfold takeChunk
  rw [if_neg (by rw [hj]; decide), ho]

/-- A chunk that verifies is kept, and with the last one the shard's rows are placed. -/
theorem takeChunk_good {p : Bytes} (hp : (rrun s).plan[i]? = some g) (hj : g.chunks.contains j = true)
    (ho : openChunk s (rrun s).courseId g head j data = .inl p) : takeChunk i j g head data s =
      if (withChunk j p g).chunks.isEmpty then placeShard i (withChunk j p g) (chunkKept i j g head data p s) else chunkKept i j g head data p s := by
  unfold takeChunk
  rw [if_neg (by rw [hj]; decide), ho]
  show (match (rrun (chunkKept i j g head data p s)).plan[i]? with
    | some h => if h.chunks.isEmpty then placeShard i h (chunkKept i j g head data p s) else chunkKept i j g head data p s
    | none => chunkKept i j g head data p s) = _
  rw [(rrun_chunkKept hp j head data p).1]

end

/-! ### The rows of the events -/

section
variable (hz : s.tel.frozen = false)
include hz

/-- While the restore does not read, and while a live activation pauses it, no chunk is taken (R364). -/
theorem exec_restoreChunkRead_stopped (hs : (rrun s).state ≠ 2 ∨ s.icp.paused = true) (i j : Nat) (head data : Bytes) :
    exec (.restoreChunkRead i j head data) s = .next s := by
  refine next_thawed hz ?_
  split
  · rfl
  · exact if_pos (hs.imp_right .inl)

section
variable (hp : (rrun s).plan[i]? = some h) (hs : (rrun s).state = 2) (hl : s.icp.paused = false) (hk : h.keyed = false) (hj : h.chunks.contains j = true)
include hp hs hl hk hj

theorem exec_restoreChunkRead_badHead (ht : takeHead i h head s = none) :
    exec (.restoreChunkRead i j head data) s = .next (readFailed i h 0 0x0123 s) := by
  refine next_thawed hz ?_
  simp only [hp, ht]
  rw [if_neg (by simp [hs, hl, hk, List.contains_iff_mem.1 hj])]

theorem exec_restoreChunkRead_head {y : State} {g : PlanShard} (ht : takeHead i h head s = some y) (hg : (rrun y).plan[i]? = some g) :
    exec (.restoreChunkRead i j head data) s = .next (takeChunk i j g (h.head.getD head) data y) := by
  refine next_thawed hz ?_
  simp only [hp, ht, hg, Option.getD_some]
  rw [if_neg (by simp [hs, hl, hk, List.contains_iff_mem.1 hj])]

end

/-! ### A source that does not answer (R353) -/

theorem exec_restoreSourceTimeout_next (hp : (rrun s).plan[i]? = some h) (hs : (rrun s).state = 2) (hl : h.placed = false)
    (hn : presentSource h + 1 < h.sources.length) :
    exec (.restoreSourceTimeout i) s = .next (updPlan i (passOver (presentSource h)) s) := by
  refine next_thawed hz ?_
  simp only [hp]
  rw [if_neg (by simp [hs, hl]), if_pos hn]

theorem exec_restoreSourceTimeout_last (hp : (rrun s).plan[i]? = some h) (hs : (rrun s).state = 2) (hl : h.placed = false)
    (hn : h.sources.length ≤ presentSource h + 1) :
    exec (.restoreSourceTimeout i) s = .next (failRestore 0x0126 h.origin h.index s) := by
  refine next_thawed hz ?_
  simp only [hp]
  rw [if_neg (by simp [hs, hl]), if_neg (Nat.not_lt.2 hn)]

end

/-- The entries of some keys that pass a test are set to one value. -/
theorem lookD_foldl_put {κ α : Type} [DecidableEq κ] (t : κ → Prop) [DecidablePred t] (v d : α) (l : List κ) (p : List (κ × α)) (q : κ) :
    lookD (l.foldl (fun p k => if t k then put p k v else p) p) q d = if q ∈ l ∧ t q then v else lookD p q d := by
  induction l generalizing p with
  | nil => simp
  | cons k r ih =>
    rw [List.foldl_cons, ih]
    by_cases hk : q = k
    · subst hk
      by_cases hq : t q <;> simp [hq]
    · have hput : lookD (if t k then put p k v else p) q d = lookD p q d := by
        split
        · exact lookD_put_of_ne p v d (Ne.symm hk)
        · rfl
      simp [hput, hk]

/-- What is read from a source that does not answer is read from the next one, and all else from where it was. -/
theorem lookD_passOver (n : Nat) (h : PlanShard) (k : Nat) : lookD (passOver n h).passed k 0 =
    if (outstanding h).contains k && lookD h.passed k 0 == n then n + 1 else lookD h.passed k 0 := by
  simp only [passOver, lookD_foldl_put (fun k => lookD h.passed k 0 = n), Bool.and_eq_true, List.contains_iff_mem, beq_iff_eq]

end Sys2Proof.Machine
end

section
/-! A restore that is complete (R356 to R361): what its last steps leave of the restore and of the courses known, and which tables become visible. -/

namespace Sys2Proof.Machine

open Sys2Proof

variable {s t : State}

theorem SentOnly.elastic (h : SentOnly s t) : t.elastic = s.elastic := by obtain ⟨_, _, _, rfl⟩ := h; rfl
theorem SentOnly.err (h : SentOnly s t) : t.err = s.err := by obtain ⟨_, _, _, rfl⟩ := h; rfl

@[simp] theorem dmaOut_elastic (fid addr : Nat) (bs : Bytes) (s : State) : (dmaOut fid addr bs s).elastic = s.elastic := (dmaOut_sentOnly ..).elastic
@[simp] theorem dmaOut_err (fid addr : Nat) (bs : Bytes) (s : State) : (dmaOut fid addr bs s).err = s.err := (dmaOut_sentOnly ..).err

/-! ### Rows and tables -/

theorem writeBlk_eq_setMem (b : Blk) (off : Nat) (bs : Bytes) (s : State) : ∃ m, writeBlk b off bs s = s.setMem m := by
  unfold writeBlk
  dsimp only
  split <;> split
  · exact ⟨_, rfl⟩
  · exact ⟨_, rfl⟩
  · exact ⟨_, rfl⟩
  · exact ⟨s.mem, rfl⟩

/-- A row written changes memory alone. -/
theorem writeRow_eq_setMem (ti : Nat) (t : Tbl) (r row : Nat) (bs : Bytes) (s : State) : ∃ m, writeRow ti t r row bs s = s.setMem m := by
  refine List.foldlRecOn (motive := fun x : State => ∃ m, x = s.setMem m) _ _ ⟨s.mem, rfl⟩ ?_
  rintro x ⟨m, rfl⟩ g -
  split
  · exact writeBlk_eq_setMem ..
  · exact ⟨m, rfl⟩

/-- An update of a table changes the tables alone. -/
theorem updTbl_eq_setTab (ti : Nat) (f : Tbl → Tbl) (s : State) : ∃ x, updTbl ti f s = s.setTab x := by
  unfold updTbl
  split
  · exact ⟨_, rfl⟩
  · exact ⟨s.tab, rfl⟩

@[simp] theorem updTbl_elastic (ti : Nat) (f : Tbl → Tbl) (s : State) : (updTbl ti f s).elastic = s.elastic := by
  obtain ⟨x, h⟩ := updTbl_eq_setTab ti f s
  rw [h]
  rfl

theorem tblOf_updTbl (ti k : Nat) (f : Tbl → Tbl) (s : State) : tblOf (updTbl ti f s) k = if ti = k then (tblOf s k).map f else tblOf s k := by
  unfold updTbl
  split
  · next t ht =>
    rw [tblOf, setTbl, State.setTab_tab, look_put]
    split
    · next hk => rw [← hk, ht, Option.map_some]
    · rfl
  · next ht =>
    split
    · next hk => rw [← hk, ht, Option.map_none]
    · rfl

theorem tblD_updTbl_same {ti : Nat} (h : tblOf s ti ≠ none) (f : Tbl → Tbl) : tblD (updTbl ti f s) ti = f (tblD s ti) := by
  obtain ⟨t, ht⟩ := Option.ne_none_iff_exists'.1 h
  rw [tblD_of_tblOf ht]
  refine tblD_of_tblOf ?_
  rw [tblOf_updTbl, if_pos rfl, ht, Option.map_some]

/-! ### The steps of a completion -/

/-- The restore is as it was, and so are the highest course and the latest committed one. -/
structure RestoreKept (s t : State) : Prop where
  elastic : t.elastic = s.elastic
  highId : t.course.highId = s.course.highId
  committed : t.course.committed = s.course.committed

theorem RestoreKept.refl (s : State) : RestoreKept s s := ⟨rfl, rfl, rfl⟩

theorem RestoreKept.trans {u : State} (h : RestoreKept s t) (g : RestoreKept t u) : RestoreKept s u :=
  ⟨g.elastic.trans h.elastic, g.highId.trans h.highId, g.committed.trans h.committed⟩

theorem RestoreKept.of_course (he : t.elastic = s.elastic) (hc : t.course = s.course) : RestoreKept s t := ⟨he, by rw [hc], by rw [hc]⟩

theorem foldl_restoreKept {α : Type} {f : State → α → State} (hf : ∀ s x, RestoreKept s (f s x)) (l : List α) (s : State) :
    RestoreKept s (l.foldl f s) :=
  List.foldlRecOn (motive := RestoreKept s) _ _ (.refl s) (fun _ hx _ _ => hx.trans (hf ..))

theorem updTbl_restoreKept (ti : Nat) (f : Tbl → Tbl) (s : State) : RestoreKept s (updTbl ti f s) := by
  obtain ⟨x, h⟩ := updTbl_eq_setTab ti f s
  rw [h]
  exact .of_course rfl rfl

theorem writeRow_restoreKept (ti : Nat) (t : Tbl) (r row : Nat) (bs : Bytes) (s : State) : RestoreKept s (writeRow ti t r row bs s) := by
  obtain ⟨m, h⟩ := writeRow_eq_setMem ti t r row bs s
  rw [h]
  exact .of_course rfl rfl

theorem rebuildServing_restoreKept (r : RestoreRun) (num : Nat) (x : RestTab) (s : State) : RestoreKept s (rebuildServing r num x s) := by
  unfold rebuildServing
  split
  · exact .refl s
  · split
    · exact .refl s
    · exact foldl_restoreKept (fun s w => writeRow_restoreKept ..) _ _

theorem restoreLost_restoreKept (r : RestoreRun) (l : Nat × Nat × Nat × Nat) (s : State) : RestoreKept s (restoreLost r l s) := by
  unfold restoreLost
  split
  · exact updTbl_restoreKept ..
  · exact .refl s

/-- A restored region's registrant is told (R359). -/
def regionRestored (r : RestoreRun) (s : State) (id : Nat) : State :=
  match s.course.regions.find? (fun g => g.id == id) with
  | some g => dmaOut g.endpoint g.notify (regionRecord g r.courseId r.step 0) (updRegion id (fun x => { x with seq := (x.seq + 1) % 65536 }) s)
  | none => s

theorem regionRestored_restoreKept (r : RestoreRun) (s : State) (id : Nat) : RestoreKept s (regionRestored r s id) := by
  unfold regionRestored
  split
  · exact (show RestoreKept s (updRegion _ _ s) from ⟨rfl, rfl, rfl⟩).trans (.of_course (dmaOut_elastic ..) (dmaOut_course ..))
  · exact .refl s

/-- A restored table becomes visible, at the course's step (R358, R360). -/
def tabShown (step : Nat) (s : State) (x : RestTab) : State :=
  match x.ti with | some ti => updTbl ti (fun t => { t with visible := true, highStep := some step }) s | none => s

theorem tabShown_restoreKept (step : Nat) (s : State) (x : RestTab) : RestoreKept s (tabShown step s x) := by
  unfold tabShown
  split
  · exact updTbl_restoreKept ..
  · exact .refl s

/-- What a complete restore rebuilds, poisons, tells and shows, before its course counts as known. -/
def restoredRows (r : RestoreRun) (s : State) : State :=
  let s := r.lost.foldl (fun s l => restoreLost r l s) (r.tabs.zipIdx.foldl (fun s x => rebuildServing r x.2 x.1 s) s)
  let s := r.regions.foldl (regionRestored r) s
  if r.handleMap = 0 then s else dmaOut r.issuer r.handleMap (handleMapBytes r s) s

theorem restoredRows_restoreKept (r : RestoreRun) (s : State) : RestoreKept s (restoredRows r s) := by
  have hrows := (foldl_restoreKept (fun s (x : RestTab × Nat) => rebuildServing_restoreKept r x.2 x.1 s) r.tabs.zipIdx s).trans
    ((foldl_restoreKept (fun s l => restoreLost_restoreKept r l s) r.lost _).trans (foldl_restoreKept (regionRestored_restoreKept r) r.regions _))
  unfold restoredRows
  dsimp only
  split
  · exact hrows
  · exact hrows.trans (.of_course (dmaOut_elastic ..) (dmaOut_course ..))

/-- The part when a restore is complete, before what waited for it goes on. -/
def restored (r : RestoreRun) (s : State) : State :=
  let s := r.tabs.foldl (tabShown r.step) (restoredRows r s)
  let s := s.setCourse { s.course with highId := max s.course.highId r.courseId, committed := laterCourse s.course.committed (r.courseId, r.step) }
  match r.map with | some m => activate m s | none => s

/-- The restore stays as it was, and its course is the latest committed unless a later one is known (R369). -/
theorem restored_keeps (r : RestoreRun) (s : State) : rrun (restored r s) = rrun s ∧
    (restored r s).course.highId = max s.course.highId r.courseId ∧
    (restored r s).course.committed = laterCourse s.course.committed (r.courseId, r.step) ∧
    (restored r s).tab = (r.tabs.foldl (tabShown r.step) (restoredRows r s)).tab := by
  obtain ⟨he, hh, hc⟩ := (restoredRows_restoreKept r s).trans (foldl_restoreKept (tabShown_restoreKept r.step) r.tabs _)
  unfold restored
  dsimp only
  generalize List.foldl (tabShown r.step) (restoredRows r s) r.tabs = x at he hh hc ⊢
  rw [hh, hc]
  split
  · exact ⟨rrun_congr (t := x) he, rfl, rfl, rfl⟩
  · exact ⟨rrun_congr (t := x) he, rfl, rfl, rfl⟩

/-! ### Tables that become visible -/

/-- A table, where it is there, is visible and stands at a step. -/
def ShownAt (step ti : Nat) (s : State) : Prop := ∀ t, tblOf s ti = some t → t.visible = true ∧ t.highStep = some step

theorem ShownAt.tabShown {step ti : Nat} (h : ShownAt step ti s) (x : RestTab) : ShownAt step ti (tabShown step s x) := by
  unfold Machine.tabShown
  split
  · next k _ =>
    intro t ht
    rw [tblOf_updTbl] at ht
    split at ht
    · obtain ⟨u, -, rfl⟩ := Option.map_eq_some_iff.1 ht
      exact ⟨rfl, rfl⟩
    · exact h t ht
  · exact h

theorem tabShown_shownAt {x : RestTab} {ti : Nat} (hx : x.ti = some ti) (step : Nat) (s : State) : ShownAt step ti (tabShown step s x) := by
  intro t ht
  rw [tabShown, hx] at ht
  dsimp only at ht
  rw [tblOf_updTbl, if_pos rfl] at ht
  obtain ⟨u, -, rfl⟩ := Option.map_eq_some_iff.1 ht
  exact ⟨rfl, rfl⟩

theorem foldl_tabShown_shownAt {x : RestTab} {ti : Nat} (hx : x.ti = some ti) (step : Nat) {l : List RestTab} (hl : x ∈ l) (s : State) :
    ShownAt step ti (l.foldl (tabShown step) s) := by
  obtain ⟨before, after, rfl⟩ := List.append_of_mem hl
  rw [List.foldl_append, List.foldl_cons]
  exact List.foldlRecOn (motive := ShownAt step ti) _ _ (tabShown_shownAt hx step _) (fun _ h y _ => h.tabShown y)

theorem restored_shows {r : RestoreRun} {x : RestTab} {ti : Nat} (hx : x ∈ r.tabs) (ht : x.ti = some ti)
    (h : (look (restored r s).tab.tbls ti).isSome = true) : (tblD (restored r s) ti).visible = true ∧ (tblD (restored r s) ti).highStep = some r.step := by
  obtain ⟨t, htbl⟩ := Option.isSome_iff_exists.1 h
  rw [tblD_of_tblOf (show tblOf (restored r s) ti = some t from htbl)]
  rw [(restored_keeps r s).2.2.2] at htbl
  exact foldl_tabShown_shownAt ht r.step hx _ t htbl

/-! ### The row -/

/-- The restore is COMPLETE. -/
def restoreDone (s : State) : State := updRestore (fun r => { r with state := 3 }) s

theorem rrun_restoreDone (hs : (rrun s).state = 2) : rrun (restoreDone s) = { rrun s with state := 3 } :=
  rrun_updRestore (restore_of_state (by rw [hs]; decide)) _

theorem restore_placed (hs : (rrun s).state = 2) (hp : ∀ h ∈ (rrun s).plan, h.placed = true) :
    ¬ ((rrun s).state ≠ 2 ∨ (rrun s).plan.any (fun h => !h.placed) = true) := by
  simpa [hs] using hp

section
variable (hz : s.tel.frozen = false)
include hz

theorem exec_restoreComplete_idle (hs : (rrun s).state ≠ 2) : exec .restoreComplete s = .next s :=
  next_thawed hz (if_pos (.inl hs))

section
variable (hs : (rrun s).state = 2) (hp : ∀ h ∈ (rrun s).plan, h.placed = true)
include hs hp

theorem exec_restoreComplete_open (hc : (rrun s).tabs.zipIdx.all (fun x => tabCovered (rrun s) x.2 x.1) = false) :
    exec .restoreComplete s = .next (failRestore 0x012A 0 0 s) :=
  next_thawed hz ((if_neg (restore_placed hs hp)).trans (if_pos (by rw [hc]; rfl)))

section
variable (hc : (rrun s).tabs.zipIdx.all (fun x => tabCovered (rrun s) x.2 x.1) = true)
include hc

theorem exec_restoreComplete_verified (hv : (rrun s).verifyOnly = true) : exec .restoreComplete s = .next (restoreDone s) :=
  next_thawed hz ((if_neg (restore_placed hs hp)).trans ((if_neg (by rw [hc]; decide)).trans (if_pos hv)))

theorem exec_restoreComplete_restored (hv : (rrun s).verifyOnly = false) :
    exec .restoreComplete s = .next (settle (restored (rrun s) (restoreDone s))) :=
  next_thawed hz ((if_neg (restore_placed hs hp)).trans ((if_neg (by rw [hc]; decide)).trans (if_neg (by rw [hv]; decide))))

end
end
end

end Sys2Proof.Machine
end

section
/-! Rows that an adoption waits for (R285, R352, R353, R356, R370, R371): what the shards of a row come to by their checks and the row's key, and a row
that is not read in time. -/

namespace Sys2Proof.Machine

open Sys2Proof

variable {s : State}

/-! ### What writing and recording a row leave -/

/-- A row written from its shards changes memory alone. -/
theorem placeParts_eq_setMem (ti row w : Nat) (hs : List PlanShard) (s : State) : ∃ m, placeParts ti row w hs s = s.setMem m := by
  have hfold : ∀ t : Tbl, ∃ m, hs.foldl (fun s h => writeRow ti t h.region w (placedBytes t h (readRow s ti t h.region w) (partBytes h row)) s) s =
      s.setMem m := fun t => by
    refine List.foldlRecOn (motive := fun x : State => ∃ m, x = s.setMem m) _ _ ⟨s.mem, rfl⟩ ?_
    rintro x ⟨m, rfl⟩ h -
    exact writeRow_eq_setMem ..
  obtain ⟨m, hm⟩ := hfold (tblD s ti)
  unfold placeParts
  dsimp only
  rw [hm]
  split
  · exact writeRow_eq_setMem ..
  · exact ⟨m, rfl⟩

@[simp] theorem rowGood_elastic (ti row : Nat) (s : State) : (rowGood ti row s).elastic = s.elastic := updTbl_elastic ..
@[simp] theorem rowGood_cells (ti row : Nat) (s : State) : (rowGood ti row s).mem.cells = s.mem.cells := by
  rw [rowGood, healLines, State.setMem_mem, updTbl_mem]

@[simp] theorem updRun_elastic (f : CourseRun → CourseRun) (s : State) : (updRun f s).elastic = s.elastic := by
  obtain ⟨r, h⟩ := updRun_eq_setCourse f s
  rw [h]
  rfl

theorem noteRollback_keeps (ti row course step cause : Nat) (s : State) :
    (noteRollback ti row course step cause s).mem = s.mem ∧ (noteRollback ti row course step cause s).elastic = s.elastic := by
  unfold noteRollback
  dsimp only
  split
  · exact ⟨updRun_mem .., updRun_elastic ..⟩
  · exact ⟨rfl, rfl⟩

/-- A rollback record changes its table and what is sent. -/
theorem rollbackRecord_keeps (ti row n course step cause : Nat) (slotFree : Bool) (s : State) :
    (rollbackRecord ti row n course step cause slotFree s).mem = s.mem ∧
    (rollbackRecord ti row n course step cause slotFree s).elastic = s.elastic := by
  unfold rollbackRecord
  split
  · exact ⟨rfl, rfl⟩
  · dsimp only
    split
    · exact ⟨rfl, rfl⟩
    · split
      · exact ⟨rfl, rfl⟩
      · exact ⟨dmaOut_mem .., dmaOut_elastic ..⟩

/-- An adopted row is done in a part whose memory holds it. -/
theorem adoptPut_eq (a : AdoptRun) (ti row from_ w : Nat) (hs : List PlanShard) (slotFree : Bool) (s : State) :
    ∃ x, adoptPut a ti row from_ w hs slotFree s = adoptedRow ti row 1 0 x ∧ x.mem.cells = (placeParts ti from_ w hs s).mem.cells ∧
      x.elastic = s.elastic := by
  obtain ⟨m, hm⟩ := placeParts_eq_setMem ti from_ w hs s
  refine ⟨_, rfl, ?_, ?_⟩
  · rw [(rollbackRecord_keeps ..).1, (noteRollback_keeps ..).1, rowGood_cells]
  · rw [(rollbackRecord_keeps ..).2, (noteRollback_keeps ..).2, rowGood_elastic, hm, State.setMem_elastic]

/-! ### The shards of a row -/

/-- The working keys that the checks of a row's shards use. -/
def shardKeysUsed (a : AdoptRun) (l : List (ShardRead × PlanShard)) (s : State) : State :=
  l.foldl (fun s x => useSealKeys a.courseId x.2 x.1.head s) s

theorem shardKeysUsed_eq (a : AdoptRun) (l : List (ShardRead × PlanShard)) (s : State) :
    shardKeysUsed a l s = s.setSec (shardKeysUsed a l s).sec := by
  have h : ∃ k, shardKeysUsed a l s = s.setSec k := by
    refine List.foldlRecOn (motive := fun x : State => ∃ k, x = s.setSec k) _ _ ⟨s.sec, rfl⟩ ?_
    rintro x ⟨k, rfl⟩ e -
    obtain ⟨c, hc⟩ := useSealKeys_eq a.courseId e.2 e.1.head (s.setSec k)
    exact ⟨_, hc⟩
  obtain ⟨k, hk⟩ := h
  rw [hk]
  rfl

/-- A row whose shards have been checked is written, and done. -/
theorem adoptPut_checked (a : AdoptRun) (ti row from_ w : Nat) (hs : List PlanShard) (slotFree : Bool) (l : List (ShardRead × PlanShard)) (s : State) :
    ∃ x, adoptPut a ti row from_ w hs slotFree (shardKeysUsed a l s) = adoptedRow ti row 1 0 x ∧
      x.mem.cells = (placeParts ti from_ w hs (shardKeysUsed a l s)).mem.cells ∧ x.elastic = s.elastic := by
  obtain ⟨x, hx, hcells, he⟩ := adoptPut_eq a ti row from_ w hs slotFree (shardKeysUsed a l s)
  exact ⟨x, hx, hcells, he.trans (by rw [shardKeysUsed_eq, State.setSec_elastic])⟩

/-- The key that the shards of a row give it. -/
def partsKey (from_ : Nat) (parts : List PlanShard) : Nat :=
  ((parts.find? (fun h => h.region == 3)).map (fun h => leVal (partBytes h from_))).getD emptyKey

/-- All columns of a row lie in some shards, region by region. -/
def partsWhole (t : Tbl) (from_ : Nat) (parts : List PlanShard) : Bool :=
  (courseRegions t parts).all (fun g => rowCovered t (parts.filter (fun h => h.region == g)) from_)

/-- What a row of an adoption comes to when its shards have passed their checks. -/
def adoptChecked (a : AdoptRun) (t : Tbl) (ti row from_ : Nat) (parts : List PlanShard) (slotFree : Bool) (s : State) : State :=
  if !partsWhole t from_ parts then s
  else if !t.hashed then adoptPut a ti row from_ row parts slotFree s
  else if partsKey from_ parts = emptyKey ∨ (keyArray t (partsKey from_ parts)).isNone then adoptedRow ti row 0 0 (updTbl ti (rowEmpty row) s)
  else match freeSlot s ti (adoptRoom t) (partsKey from_ parts) with
    | some w => adoptPut a ti row from_ w parts slotFree s
    | none => adoptFull s

section
variable {a : AdoptRun} {t : Tbl} {ti row from_ : Nat} {parts : List PlanShard} {slotFree : Bool}

theorem adoptChecked_partial (hw : partsWhole t from_ parts = false) : adoptChecked a t ti row from_ parts slotFree s = s :=
  if_pos (by rw [hw]; rfl)

section
variable (hw : partsWhole t from_ parts = true)
include hw

theorem adoptChecked_plain (hh : t.hashed = false) :
    adoptChecked a t ti row from_ parts slotFree s = adoptPut a ti row from_ row parts slotFree s :=
  (if_neg (by rw [hw]; decide)).trans (if_pos (by rw [hh]; rfl))

section
variable (hh : t.hashed = true)
include hh

/-- An empty place of a hashed table, and a key that has no place here, adopt nothing. -/
theorem adoptChecked_gone (hk : partsKey from_ parts = emptyKey ∨ keyArray t (partsKey from_ parts) = none) :
    adoptChecked a t ti row from_ parts slotFree s = adoptedRow ti row 0 0 (updTbl ti (rowEmpty row) s) :=
  (if_neg (by rw [hw]; decide)).trans ((if_neg (by rw [hh]; decide)).trans (if_pos (hk.imp_right Option.isNone_iff_eq_none.2)))

section
variable (hk : ¬ (partsKey from_ parts = emptyKey ∨ keyArray t (partsKey from_ parts) = none))
include hk

theorem adoptChecked_placed {w : Nat} (hf : freeSlot s ti (adoptRoom t) (partsKey from_ parts) = some w) :
    adoptChecked a t ti row from_ parts slotFree s = adoptPut a ti row from_ w parts slotFree s := by
  unfold adoptChecked
  rw [if_neg (by rw [hw]; decide), if_neg (by rw [hh]; decide), if_neg (fun h => hk (h.imp_right Option.isNone_iff_eq_none.1)), hf]

theorem adoptChecked_full (hf : freeSlot s ti (adoptRoom t) (partsKey from_ parts) = none) :
    adoptChecked a t ti row from_ parts slotFree s = adoptFull s := by
  unfold adoptChecked
  rw [if_neg (by rw [hw]; decide), if_neg (by rw [hh]; decide), if_neg (fun h => hk (h.imp_right Option.isNone_iff_eq_none.1)), hf]

end
end
end
end

/-! ### The rows of the events -/

/-- The origin whose sources bound the reads of a row. -/
def readOrigin (v : AdoptRead) : Nat := ((v.shards.head?).map (·.origin)).getD 0

/-- The row of the course that an adopted row is read from. -/
def courseRow (t : Tbl) (row : Nat) (v : AdoptRead) : Nat := if t.hashed then v.row else rowIdentity t row

section
variable (hz : s.tel.frozen = false) {a : AdoptRun} {ti row : Nat} {v : AdoptRead} {slotFree : Bool}
include hz

/-- A row that no adoption waits for changes nothing. -/
theorem exec_adopt_idle (h : ∀ a, s.elastic.adopt = some a → a.todo = []) (ti row : Nat) (v : AdoptRead) (slotFree : Bool) :
    exec (.adoptRowRead ti row v slotFree) s = .next s ∧ exec (.adoptTimeout ti row) s = .next s := by
  refine ⟨next_thawed hz ?_, next_thawed hz ?_⟩
  all_goals
    split
    · rfl
    · next a ha =>
      rw [h a ha]
      rfl

section
variable (ha : s.elastic.adopt = some a)
include ha

theorem exec_adoptRowRead_spent (hf : readsAllowed s (readOrigin v) ≤ lookD a.failed (ti, row) 0) :
    exec (.adoptRowRead ti row v slotFree) s = .next s := by
  refine next_thawed hz ?_
  simp only [ha]
  exact if_pos (.inr hf)

section
variable (ht : a.todo.contains (ti, row) = true)
include ht

theorem exec_adoptTimeout_row : exec (.adoptTimeout ti row) s = .next (adoptedRow ti row 0 1 (updTbl ti (rowLost row) s)) := by
  refine next_thawed hz ?_
  simp only [ha]
  exact if_neg (by rw [ht]; decide)

section
variable (hf : lookD a.failed (ti, row) 0 < readsAllowed s (readOrigin v))
include hf

theorem exec_adoptRowRead_failed (hl : (v.shards.filterMap (readShard s a.courseId (tblD s ti))).length < v.shards.length) :
    exec (.adoptRowRead ti row v slotFree) s = .next (adoptReread ti row s) := by
  refine next_thawed hz ?_
  simp only [ha]
  exact (if_neg (by simpa using ⟨List.contains_iff_mem.1 ht, hf⟩)).trans (if_pos hl)

theorem exec_adoptRowRead_checked (hl : (v.shards.filterMap (readShard s a.courseId (tblD s ti))).length = v.shards.length) :
    let t := tblD s ti
    let hs := v.shards.filterMap (readShard s a.courseId t)
    exec (.adoptRowRead ti row v slotFree) s = .next (adoptChecked a t ti row (courseRow t row v) (rowParts t (courseRow t row v) hs) slotFree
      (shardKeysUsed a (v.shards.zip hs) s)) := by
  refine next_thawed hz ?_
  simp only [ha]
  exact (if_neg (by simpa using ⟨List.contains_iff_mem.1 ht, hf⟩)).trans (if_neg (by omega))

end
end
end
end

/-- A failed read of a row counts against it, and nothing else changes. -/
theorem adoptReread_eq {a : AdoptRun} (ha : s.elastic.adopt = some a) (ti row : Nat) : (adoptReread ti row s).elastic.adopt =
    some { a with failed := put a.failed (ti, row) (lookD a.failed (ti, row) 0 + 1) } := by
  rw [adoptReread, updAdopt, setElastic, State.setElastic_elastic, ha]
  rfl

theorem adoptMark_plain {t : Tbl} (hh : t.hashed = false) (row : Nat) : adoptMark t row = row := if_pos (by rw [hh]; rfl)

end Sys2Proof.Machine
end

section
/-! Liveness of the members of a domain (R33, R367), members that are lost, and O39: each event by what its row makes of the part. -/

namespace Sys2Proof.Machine

open Sys2Proof

variable {s t : State} {d : Nat}

/-! ### LIVENESS -/

/-- What a member tells of its step changes the steps known alone. -/
theorem notePeer_eq (d : Nat) (step : Option Nat) (s : State) : ∃ ps, notePeer d step s = s.setCourse { s.course with peerSteps := ps } ∧
    ∀ x, step = some x → look ps d = some x := by
  cases step with
  | none => exact ⟨s.course.peerSteps, rfl, nofun⟩
  | some y =>
    refine ⟨_, rfl, fun x hx => ?_⟩
    cases hx
    exact look_put_same ..

theorem joinDomain_eq (dst : Nat) (s : State) : ∃ g, joinDomain dst s = s.setGrt g := by
  unfold joinDomain
  split
  · exact ⟨s.grt, rfl⟩
  · exact ⟨_, rfl⟩

theorem mem_put_same {κ α : Type} [DecidableEq κ] (l : List (κ × α)) (k : κ) (v : α) : (k, v) ∈ put l k v := by
  induction l with
  | nil => exact List.mem_singleton_self _
  | cons e r ih =>
    unfold put
    split
    · exact List.mem_cons_self
    · exact List.mem_cons_of_mem _ ih

theorem foldl_min_le {α : Type} (f : α → Nat) (l : List α) (n : Nat) :
    l.foldl (fun m e => min m (f e)) n ≤ n ∧ ∀ e ∈ l, l.foldl (fun m e => min m (f e)) n ≤ f e := by
  induction l generalizing n with
  | nil => exact ⟨le_rfl, nofun⟩
  | cons x r ih =>
    obtain ⟨hn, hr⟩ := ih (min n (f x))
    refine ⟨hn.trans (min_le_left ..), fun e he => ?_⟩
    rcases List.mem_cons.1 he with rfl | he
    · exact hn.trans (min_le_right ..)
    · exact hr e he

/-- Every member's version bounds the domain's (R33). -/
theorem domainGrt_le {e : Nat × Nat} (h : e ∈ s.course.peerGrt) : domainGrt s ≤ e.2 := (foldl_min_le _ _ _).2 e h

/-- What a neighbour's LIVENESS tells beside its step. -/
def neighbourHeard (d : Nat) (adopting : Bool) (below : LiveBelow) (s : State) : State :=
  let s := setElastic (fun e => { e with heard := put e.heard d (now s 0x41),
                                         below := if d = fenceParent s then e.below else put e.below d below.members }) s
  let others := s.course.peersAdopting.filter (· != d)
  s.setCourse { s.course with peersAdopting := if adopting then others ++ [d] else others,
                              peerFormats := put s.course.peerFormats d below.format, peerGrt := put s.course.peerGrt d below.grt }

section
variable (d : Nat) (adopting : Bool) (below : LiveBelow) (s : State)

theorem neighbourHeard_course : (neighbourHeard d adopting below s).course = { s.course with
    peersAdopting := if adopting then s.course.peersAdopting.filter (· != d) ++ [d] else s.course.peersAdopting.filter (· != d)
    peerFormats := put s.course.peerFormats d below.format, peerGrt := put s.course.peerGrt d below.grt } := by
  simp only [neighbourHeard, setElastic, State.setCourse_course, State.setElastic_course]

theorem neighbourHeard_elastic : (neighbourHeard d adopting below s).elastic = { s.elastic with
    heard := put s.elastic.heard d (now s 0x41)
    below := if d = fenceParent s then s.elastic.below else put s.elastic.below d below.members } := by
  simp only [neighbourHeard, setElastic, State.setCourse_elastic, State.setElastic_elastic]

/-- LIVENESS changes nothing but what is known of the members. -/
theorem neighbourHeard_frame : (neighbourHeard d adopting below s).mem = s.mem ∧ (neighbourHeard d adopting below s).tab = s.tab ∧
    (neighbourHeard d adopting below s).out = s.out := by
  simp only [neighbourHeard, setElastic, State.setCourse_mem, State.setCourse_tab, State.setCourse_out, State.setElastic_mem, State.setElastic_tab,
    State.setElastic_out, and_self]

end

/-- What a neighbour tells of its step changes the steps known, and every connection of the domain then runs at the domain's version. -/
theorem peerLevelled (d : Nat) (step : Option Nat) (s : State) : let t := levelDomain (joinDomain d (notePeer d step s))
    ∃ ps, t.course = { s.course with peerSteps := ps } ∧ (∀ x, step = some x → look ps d = some x) ∧ (∀ e ∈ t.grt.domain, e.2 = domainGrt t) ∧
      t.elastic = s.elastic ∧ t.mem = s.mem ∧ t.tab = s.tab ∧ t.out = s.out := by
  obtain ⟨ps, hpeer, hps⟩ := notePeer_eq d step s
  obtain ⟨g, hjoin⟩ := joinDomain_eq d (s.setCourse { s.course with peerSteps := ps })
  rw [hpeer, hjoin]
  refine ⟨ps, rfl, hps, fun e he => ?_, rfl, rfl, rfl, rfl⟩
  obtain ⟨f, -, rfl⟩ := List.mem_map.1 he
  rfl

section
variable (hz : s.tel.frozen = false)
include hz

theorem exec_liveness_eq (d : Nat) (step : Option Nat) (adopting : Bool) (below : LiveBelow) : exec (.liveness d step adopting below) s =
    .next (levelDomain (joinDomain d (notePeer d step (neighbourHeard d adopting below s)))) := next_thawed hz rfl

theorem exec_liveness_tells (d : Nat) (step : Option Nat) (adopting : Bool) (format grt : Nat) (below : List Nat) : ∃ t,
    exec (.liveness d step adopting ⟨format, below, grt⟩) s = .next t ∧ look t.course.peerFormats d = some format ∧
    look t.course.peerGrt d = some grt ∧ (∀ e ∈ t.grt.domain, e.2 = domainGrt t ∧ e.2 ≤ grt) ∧ look t.elastic.heard d = some (now s 0x41) ∧
    (d ≠ fenceParent s → look t.elastic.below d = some below) ∧ t.course.peersAdopting.contains d = adopting ∧
    (∀ x, step = some x → look t.course.peerSteps d = some x) ∧ t.mem = s.mem ∧ t.tab = s.tab ∧ t.out = s.out := by
  refine ⟨_, exec_liveness_eq hz .., ?_⟩
  obtain ⟨ps, hcourse, hps, hlevel, he, hmem, htab, hout⟩ := peerLevelled d step (neighbourHeard d adopting ⟨format, below, grt⟩ s)
  obtain ⟨hm, ht, ho⟩ := neighbourHeard_frame d adopting ⟨format, below, grt⟩ s
  generalize levelDomain _ = t at hcourse hlevel he hmem htab hout ⊢
  rw [neighbourHeard_course] at hcourse
  rw [neighbourHeard_elastic] at he
  refine ⟨by rw [hcourse]; exact look_put_same .., by rw [hcourse]; exact look_put_same .., fun e hd => ⟨hlevel e hd, ?_⟩,
    by rw [he]; exact look_put_same .., fun hd => ?_, ?_, by rw [hcourse]; exact hps, hmem.trans hm, htab.trans ht, hout.trans ho⟩
  · rw [hlevel e hd]
    exact domainGrt_le (e := (d, grt)) (by rw [hcourse]; exact mem_put_same ..)
  · rw [he]
    dsimp only
    rw [if_neg hd, look_put_same]
  · rw [hcourse]
    cases adopting <;> simp

theorem exec_livenessSend_alone (ht : hasTree s = false) : exec .livenessSend s = .next s ∧ ∀ d, exec (.livenessTimeout d) s = .next s :=
  ⟨next_thawed hz (if_pos (by rw [ht]; rfl)), fun _ => next_thawed hz (if_pos (by rw [ht]; rfl))⟩

theorem exec_livenessSend_tells (ht : hasTree s = true) : exec .livenessSend s =
    .next (sendDown (.liveness (deviceIndex s) (ownStep s) s.elastic.adopt.isSome ownFormat (domainGrt s) [])
      (sendUp (.liveness (deviceIndex s) (subtreeStep s) (s.elastic.adopt.isSome || s.course.peersAdopting.any (· != fenceParent s))
        (subtreeFormat s) (subtreeGrt s) (heardBelow s)) s)) :=
  next_thawed hz (if_neg (by rw [ht]; decide))

/-- A neighbour that is no longer heard is declared failed. -/
theorem exec_livenessTimeout_lost (ht : hasTree s = true) (hl : s.elastic.lost.contains d = false) :
    exec (.livenessTimeout d) s = .next (neighbourLost d s) :=
  next_thawed hz (if_neg (by rw [ht, hl]; decide))

theorem exec_memberFailed (ds : List Nat) : exec (.memberFailed ds false) s = .next (membersLost ds (sendDown (.memberFailed ds) s)) ∧
    (fenceRoot s = false → exec (.memberFailed ds true) s = .next (sendDomain (fenceParent s) (.lostReport ds) s)) := by
  refine ⟨next_thawed hz rfl, fun hr => next_thawed hz ?_⟩
  have hm : ¬ fenceRoot s = true := Bool.eq_false_iff.1 hr
  exact (if_neg hm).trans ((if_neg hm).trans (sendUp_of_member hr _))

end

theorem neighbourLost_parent (h : d = fenceParent s) : neighbourLost d s = membersLost [d] s := if_pos h

/-- With a child, the members of its subtree that are no longer heard are lost. -/
theorem neighbourLost_child (h : d ≠ fenceParent s) : ∃ rest, neighbourLost d s = membersLost (d :: rest) (reportLost (d :: rest) s) :=
  ⟨_, if_neg h⟩

/-! ### Members lost -/

theorem courseLive_of_run (h : t.course.run = s.course.run) : courseLive t = courseLive s := by rw [courseLive, courseLive, h]

section
variable (b cls src : Nat) (info : List Nat) (s : State)

@[simp] theorem noteErr_course : (noteErr b cls src info s).course = s.course := by obtain ⟨_, _, _, _, _, h⟩ := noteErr_eq b cls src info s; rw [h]; rfl
@[simp] theorem noteErr_elastic : (noteErr b cls src info s).elastic = s.elastic := by obtain ⟨_, _, _, _, _, h⟩ := noteErr_eq b cls src info s; rw [h]; rfl

end

theorem sendDomain_eq (dst : Nat) (m : DomainMsg) (s : State) : ∃ g o, sendDomain dst m s = (s.setGrt g).setOut o := by
  obtain ⟨g, h⟩ := joinDomain_eq dst s
  rw [sendDomain, h]
  exact ⟨g, _, rfl⟩

theorem sendDown_eq (m : DomainMsg) (s : State) : ∃ g o, sendDown m s = (s.setGrt g).setOut o := by
  unfold sendDown
  split
  · exact ⟨s.grt, s.out, rfl⟩
  · exact sendDomain_eq ..

theorem sendUp_eq (m : DomainMsg) (s : State) : ∃ g o, sendUp m s = (s.setGrt g).setOut o := by
  unfold sendUp
  split
  · exact ⟨s.grt, s.out, rfl⟩
  · exact sendDomain_eq ..

section
variable (m : DomainMsg) (s : State)

@[simp] theorem sendDown_elastic : (sendDown m s).elastic = s.elastic := by obtain ⟨_, _, h⟩ := sendDown_eq m s; rw [h]; rfl
@[simp] theorem sendDown_err : (sendDown m s).err = s.err := by obtain ⟨_, _, h⟩ := sendDown_eq m s; rw [h]; rfl
@[simp] theorem sendUp_elastic : (sendUp m s).elastic = s.elastic := by obtain ⟨_, _, h⟩ := sendUp_eq m s; rw [h]; rfl
@[simp] theorem sendUp_err : (sendUp m s).err = s.err := by obtain ⟨_, _, h⟩ := sendUp_eq m s; rw [h]; rfl

end

@[simp] theorem updRun_err (f : CourseRun → CourseRun) (s : State) : (updRun f s).err = s.err := by
  obtain ⟨r, h⟩ := updRun_eq_setCourse f s
  rw [h]
  rfl

/-- The release records of regions change nothing of the restore and of the error headers. -/
theorem releaseRecords_elastic_err (gs : List AccelRegion) (c st : Nat) (s : State) :
    let x := gs.foldl (fun s g => dmaOut g.endpoint g.notify (regionRecord g c st 1)
      (updRegion g.id (fun y => { y with seq := (y.seq + 1) % 65536 }) s)) s
    x.elastic = s.elastic ∧ x.err = s.err := by
  refine List.foldlRecOn (motive := fun x : State => x.elastic = s.elastic ∧ x.err = s.err) gs _ ⟨rfl, rfl⟩ ?_
  rintro x ⟨he, hr⟩ g -
  exact ⟨(dmaOut_elastic ..).trans he, (dmaOut_err ..).trans hr⟩

/-- An abort leaves the restore, the adoption and the error headers as they are. -/
theorem abortCourse_elastic_err (d : Nat) (s : State) : (abortCourse d s).elastic = s.elastic ∧ (abortCourse d s).err = s.err := by
  unfold abortCourse
  split
  · exact ⟨rfl, rfl⟩
  · dsimp only
    obtain ⟨he, hr⟩ := releaseRecords_elastic_err (s.course.regions.filter (fun g => g.inCourse && !g.staged)) (crun s).id (crun s).step s
    generalize List.foldl _ s _ = x at he hr ⊢
    simp only [sendDown_elastic, sendDown_err, sendUp_elastic, sendUp_err, updRun_elastic, updRun_err, State.setCourse_elastic, State.setCourse_err,
      State.setMem_elastic, State.setMem_err, he, hr, and_self]

theorem courseLive_after_abort (d : Nat) (s : State) : courseLive (abortCourse d s) = false := by
  cases hl : courseLive s with
  | true => exact courseLive_abortCourse hl d
  | false => rwa [abortCourse_closed hl]

/-- A lost member is recorded and counts, and what it told is forgotten. -/
def memberForgotten (d : Nat) (s : State) : State :=
  let s := recordCor blkCourse 0x0100 [d] s
  let s := levelDomain (s.setCourse { s.course with
    peerSteps := s.course.peerSteps.filter (fun e => !([d].contains e.1)), peerFormats := s.course.peerFormats.filter (fun e => !([d].contains e.1)),
    peerGrt := s.course.peerGrt.filter (fun e => !([d].contains e.1)), peersAdopting := s.course.peersAdopting.filter (fun x => !([d].contains x)) })
  setElastic (fun e => { e with lost := e.lost ++ [d], heard := e.heard.filter (fun h => !([d].contains h.1)) }) s

/-- A member is lost, before what goes on behind it: the open course aborts, and what the member was to serve waits. -/
def memberLost (d : Nat) (s : State) : State := requeueSent [d] (abortCourse 0x010A (memberForgotten d s))

theorem membersLost_one (hl : s.elastic.lost.contains d = false) (hd : d ≠ deviceIndex s) : membersLost [d] s = settle (memberLost d s) := by
  have hf : [d].filter (fun d => !s.elastic.lost.contains d && d != deviceIndex s) = [d] := by
    rw [List.filter_singleton, hl, bne_iff_ne.2 hd]
    rfl
  unfold membersLost
  rw [hf]
  rfl

theorem memberForgotten_leaves (d : Nat) (s : State) : (memberForgotten d s).elastic.lost = s.elastic.lost ++ [d] ∧
    (memberForgotten d s).err = (noteErr blkCourse 1 0x0100 [d] s).err ∧ (memberForgotten d s).course.run = s.course.run := by
  simp only [memberForgotten, setElastic, levelDomain, recordCor, State.setElastic_elastic, State.setElastic_err, State.setElastic_course,
    State.setGrt_elastic, State.setGrt_err, State.setGrt_course, State.setCourse_elastic, State.setCourse_err, State.setCourse_course,
    noteErr_elastic, noteErr_course, and_self]

/-- R40, R367: a lost member is listed and recorded as a COR, and ends the open course. -/
theorem memberLost_leaves (d : Nat) (s : State) : (memberLost d s).elastic.lost = s.elastic.lost ++ [d] ∧ courseLive (memberLost d s) = false ∧
    (courseLive s = true → (memberLost d s).course.lastDetail = 0x010A) ∧ Recorded s (memberLost d s) blkCourse 1 0x0100 [d] := by
  obtain ⟨hlost, herr, hrun⟩ := memberForgotten_leaves d s
  obtain ⟨he, hr⟩ := abortCourse_elastic_err 0x010A (memberForgotten d s)
  refine ⟨?_, courseLive_after_abort .., fun hl => (abortCourse_outcome ((courseLive_of_run hrun).trans hl) 0x010A).2, ?_⟩
  · exact (congrArg Elastic.lost he).trans hlost
  · exact (recorded_noteErr blkCourse 1 0x0100 [d] s).congr (hr.trans herr)

end Sys2Proof.Machine
end

section
/-! Restored rows and lost members: O39. -/

namespace Sys2Proof.Machine

open Sys2Proof

/-- Settles O39: the chunks by what taking and failing a read leave (`chunkKept`, `readFailed_outcome`), the completion by `restored`, the adopted
rows by `adoptChecked`, and the members by what LIVENESS tells and by `memberLost`. -/
theorem restoredRowsAndLostMembers : Obligations.RestoredRowsAndLostMembers := by
  unfold Obligations.RestoredRowsAndLostMembers
  intro s hz
  refine ⟨fun i j h head data hp hs hl hk hj => ?chunks, fun i h hp hs hpl => ⟨fun hn => ?source, exec_restoreSourceTimeout_last hz hp hs hpl⟩,
    ?complete, exec_restoreComplete_idle hz, fun hs i j head data => exec_restoreChunkRead_stopped hz hs i j head data,
    fun a ti row v slotFree ha ht => ?adopt, exec_adopt_idle hz, ⟨exec_livenessSend_alone hz, exec_livenessSend_tells hz⟩,
    exec_liveness_tells hz, fun d ht hl => ?neighbour, exec_memberFailed hz,
    fun d hl hd => ⟨_, membersLost_one hl hd, memberLost_leaves d s⟩⟩
  case chunks =>
    intro fails
    have hfails : ∀ (g : PlanShard) (item detail : Nat) (z : State) (o : Host.Outcome State Fault Refusal), (rrun z).plan[i]? = some g →
        o = .next (readFailed i g item detail z) → fails g item detail z o := by
      rintro g item detail z o hg rfl
      obtain ⟨hfirst, hnext, hlast⟩ := readFailed_outcome hg item detail
      exact ⟨fun hr => ⟨_, rfl, hfirst hr⟩, fun hr hn => ⟨_, rfl, hnext hr hn⟩, fun hr hn => congrArg Host.Outcome.next (hlast hr hn)⟩
    refine ⟨fun ht => hfails h 0 _ s _ hp (exec_restoreChunkRead_badHead hz hp hs hl hk hj ht), fun y g ht hg => ?_⟩
    have hexec := exec_restoreChunkRead_head (data := data) hz hp hs hl hk hj ht hg
    refine ⟨fun hgj => hexec.trans (congrArg _ (takeChunk_read hgj ..)),
      fun d hgj ho => hfails g (j + 1) d y _ hg (hexec.trans (congrArg _ (takeChunk_bad hgj ho))), fun p hgj ho => ?_⟩
    obtain ⟨hplan, hdone⟩ := rrun_chunkKept hg j (h.head.getD head) data p
    obtain ⟨hmem, htab⟩ := chunkKept_eq i j g (h.head.getD head) data p y
    obtain ⟨e, rfl⟩ := takeHead_eq ht
    refine ⟨chunkKept i j g (h.head.getD head) data p (s.setElastic e), ?_, ⟨withChunk j p g, hplan, lookD_put_same .., rfl, rfl⟩, hdone, hmem, htab⟩
    rw [hplan]
    exact hexec.trans (congrArg _ (takeChunk_good hg hgj ho))
  case source =>
    obtain ⟨plan, hplan, hi⟩ := rrun_updPlan hp (passOver (presentSource h))
    exact ⟨_, _, exec_restoreSourceTimeout_next hz hp hs hpl hn, by rw [hplan]; exact hi, lookD_passOver _ h, rfl, rfl, rfl, rfl, rfl⟩
  case complete =>
    intro r hs hp
    refine ⟨exec_restoreComplete_open hz hs hp, fun hc => ⟨exec_restoreComplete_verified hz hs hp hc, fun hv => ?_⟩⟩
    obtain ⟨hr, hhigh, hcom, -⟩ := restored_keeps r (restoreDone s)
    exact ⟨_, exec_restoreComplete_restored hz hs hp hc hv, by rw [hr, rrun_restoreDone hs], hhigh, hcom, fun t ht ti hti => restored_shows ht hti⟩
  case adopt =>
    intro t tries hs from_ parts whole
    refine ⟨exec_adoptRowRead_spent hz ha, fun hf => ⟨fun hl => ⟨_, _, exec_adoptRowRead_failed hz ha ht hf hl, adoptReread_eq ha ti row, rfl,
      lookD_put_same .., rfl, rfl⟩, fun hl => ⟨shardKeysUsed a (v.shards.zip hs) s, shardKeysUsed_eq .., ?_⟩⟩, (adoptMark_plain · row), ?_⟩
    · have hexec := exec_adoptRowRead_checked (slotFree := slotFree) hz ha ht hf hl
      refine ⟨fun hw => hexec.trans (congrArg _ (adoptChecked_partial hw)), fun hw hh => ?_, fun hw hh => ?_⟩
      · obtain ⟨x, hx, hkeep⟩ := adoptPut_checked a ti row from_ row parts slotFree (v.shards.zip hs) s
        exact ⟨x, hexec.trans (congrArg _ ((adoptChecked_plain hw hh).trans hx)), hkeep⟩
      · intro key gone
        refine ⟨fun hg => hexec.trans (congrArg _ (adoptChecked_gone hw hh hg)), fun w hg hfree => ?_,
          fun hg hfree => hexec.trans (congrArg _ (adoptChecked_full hw hh hg hfree))⟩
        obtain ⟨x, hx, hkeep⟩ := adoptPut_checked a ti row from_ w parts slotFree (v.shards.zip hs) s
        exact ⟨x, hexec.trans (congrArg _ ((adoptChecked_placed hw hh hg hfree).trans hx)), hkeep⟩
    · exact ⟨_, exec_adoptTimeout_row hz ha ht, updTbl_mem .., updTbl_elastic .., fun htbl => congrArg Tbl.bad (tblD_updTbl_same htbl _)⟩
  case neighbour =>
    have hexec := exec_livenessTimeout_lost hz ht hl
    refine ⟨fun h => hexec.trans (congrArg _ (neighbourLost_parent h)), fun h => ?_⟩
    obtain ⟨rest, hrest⟩ := neighbourLost_child h
    exact ⟨rest, hexec.trans (congrArg _ hrest)⟩

end Sys2Proof.Machine
end

section
/-! The commands of restores and adoptions (R344 to R351, R363, R365, R368, R370, R372, R373): what the handler of each answers. -/

namespace Sys2Proof.Machine

open Sys2Proof

variable {via : Via} {pkt : IcpPkt} {s s0 : State} {c : Ctx}

/-! ### SHARD_MAP_LOAD (R344, R347) -/

/-- The map that a piece joins: the one loaded under the identifier, or a new one. -/
def joinedMap (c : Ctx) (s : State) : ShardMap :=
  match s.elastic.loading with | some m => if m.id = c.p 0 4 then m else { id := c.p 0 4 } | none => { id := c.p 0 4 }

/-- The bytes of the map with the piece. -/
def joinedBytes (c : Ctx) (s : State) : Bytes := (joinedMap c s).bytes ++ (c.params.drop 16).take (c.p 8 2)

/-- A map is the one that is loaded. -/
def loadedMap (m : ShardMap) (s : State) : State := s.setElastic { s.elastic with loading := some m }

section
variable (hid : c.p 0 4 ≠ 0) (hoff : c.p 4 4 = (joinedMap c s).bytes.length) (hend : c.p 4 4 + c.p 8 2 ≤ 2 ^ 20) (hn : c.p 8 2 ≤ 4048)
  (hlen : 16 + c.p 8 2 ≤ c.params.length)
include hid hoff hend hn hlen

/-- A piece that follows what is loaded joins it; the last one is followed by the checks of the whole map. -/
theorem hShardMapLoad_eq : hShardMapLoad c s =
    if !(c.p 0xA 2).testBit 0 then
      Res.ok (loadedMap { joinedMap c s with bytes := joinedBytes c s, complete := false } s) false
        (layout 16 [(0, 4, c.p 0 4), (4, 4, (joinedBytes c s).length), (8, 4, 0), (0xC, 4, le (joinedBytes c s) 0x1C 4)])
    else match firstBad (mapChecks s (joinedBytes c s)) with
      | some (st, d) => .reply (loadedMap { id := c.p 0 4 } s) st d []
      | none => Res.ok (loadedMap { readMap (joinedBytes c s) with id := c.p 0 4 } s) false
        (layout 16 [(0, 4, c.p 0 4), (4, 4, (joinedBytes c s).length), (8, 4, 1), (0xC, 4, le (joinedBytes c s) 0x1C 4)]) := by
  refine checked_of_pass ?_ _
  simp only [List.mem_cons, List.not_mem_nil, or_false, forall_eq_or_imp, forall_eq]
  refine ⟨beq_false_of_ne hid, decide_eq_false ?_, decide_eq_false ?_⟩
  · rintro (h | h)
    · exact h hoff
    · omega
  · omega

end

/-! ### RESTORE_BEGIN (R349 to R351) -/

theorem Starts.reads_eq {op : Nat} (hs : Starts op via pkt s c s0) : c.pkt.reads = pkt.reads := by
  obtain ⟨-, -, -, -, hc⟩ := hs
  rw [hc]
  show (taken op via pkt s).reads = pkt.reads
  unfold taken
  split <;> rfl

theorem hRestoreBegin_unrecorded (hb : firstBad (beginChecks c s) = none) (hl : ledgerBest c.pkt.reads.ledgers = none) :
    hRestoreBegin c s = Res.rej s stFailed 0x0120 := by
  rw [hRestoreBegin, checked_of_good hb, hl]

theorem hRestoreBegin_starts {l : Bytes} (hb : firstBad (beginChecks c s) = none) (hl : ledgerBest c.pkt.reads.ledgers = some l)
    (hc : firstBad (beginStructChecks c (beginSet c s l) s) = none) :
    hRestoreBegin c s = startRestore c (beginSet c s l) (restTabs (beginSet c s l) s) s := by
  rw [hRestoreBegin, checked_of_good hb, hl]
  exact checked_of_good hc _

/-- What the checks of a restore's structures have shown once they pass (R350, R351). -/
theorem structures_verify {r : RestoreSet} (hc : firstBad (beginStructChecks c r s) = none) :
    (c.p 0 4 = 0 ∨ c.p 0 4 = le r.ledger 0x10 4) ∧ digest48 r.course = (r.ledger.drop 0x30).take 48 ∧ signedByDomain s r.course = true := by
  have h := pass_of_firstBad_none hc
  have hid := h _ (List.mem_append_left _ (List.mem_append_left _ List.mem_cons_self))
  have hverify := fun e he => h e (List.mem_append_left _ (List.mem_append_right _ (List.mem_append_left _ (List.mem_append_left _ he))))
  have hdigest := hverify _ List.mem_cons_self
  have hsigned := hverify _ (List.mem_cons_of_mem _ List.mem_cons_self)
  refine ⟨?_, by simpa using hdigest, by simpa using hsigned⟩
  simpa [Decidable.imp_iff_not_or] using hid

/-- A restore that starts is in READING, with the record's course and step, and one that only verifies leaves memory and tables as they are. -/
theorem startRestore_starts {r : RestoreSet} {tabs : List (Ctx × RestTab)} {s1 : State} {d : Nat} {data : Bytes}
    (h : startRestore c r tabs s = .reply s1 stOk d data) : (rrun s1).id = s.elastic.nextRestore ∧ (rrun s1).courseId = le r.ledger 0x10 4 ∧
      (rrun s1).step = le r.ledger 0x14 4 ∧ (rrun s1).state = 2 ∧ ((c.p 0xA 2).testBit 0 = true → s1.mem = s.mem ∧ s1.tab = s.tab) := by
  unfold startRestore at h
  dsimp only at h
  split at h
  · cases h
  · next ts s' hb =>
    cases h
    refine ⟨rfl, rfl, rfl, rfl, fun hv => ?_⟩
    rw [if_pos hv] at hb
    cases hb
    exact ⟨rfl, rfl⟩

/-! ### RESTORE_STATUS (R365) -/

theorem hRestoreStatus_ok (h : c.p 0 4 = 0 ∨ c.p 0 4 = (rrun s).id) : ∃ data, hRestoreStatus c s = Res.ok s false data ∧
    le data 0 4 = (rrun s).id % 2 ^ 32 ∧ le data 4 1 = (rrun s).state % 2 ^ 8 ∧ le data 6 2 = (rrun s).detail % 2 ^ 16 ∧
    le data 8 4 = (rrun s).courseId % 2 ^ 32 := by
  refine ⟨_, checked_of_pass ?_ _, ?_, ?_, ?_, ?_⟩
  · rcases h with h | h <;> simp [h]
  · exact le_layout [] _ 4 le_rfl nofun (by decide) (by simp)
  · exact le_layout [_] _ 1 le_rfl (by simp) (by decide) (by simp)
  · exact le_layout [_, _] _ 2 le_rfl (by simp) (by decide) (by simp)
  · exact le_layout [_, _, _] _ 4 le_rfl (by simp) (by decide) (by simp)

/-! ### SHARD_ADOPT (R368, R370, R373) -/

/-- Where no state forbids a command, it answers as far as its room goes. -/
theorem roomThen_of_pass {bars : List (Bool × Nat × Nat)} (hb : ∀ e ∈ bars, e.1 = false) (r : Res) : roomThen s bars r = r := by
  cases r with
  | reply x st d data =>
    unfold roomThen
    dsimp only
    split
    · rfl
    · exact checked_of_pass hb _
  | later x d data => exact checked_of_pass hb _

/-- ADOPT_TIMEOUT_MS in effect, and whether a value in effect differs from the one given (R34). -/
def adoptMs (c : Ctx) : Nat := if c.p 0xC 4 = 0 then 60000 else clampN 1000 600000 (c.p 0xC 4)
def adoptClamped (c : Ctx) : Bool := adoptMs c != c.p 0xC 4 || clampN 1 16 (c.p 4 2) != c.p 4 2

/-- The adoption that a command begins, with the rows that it waits for. -/
def begunAdopt (c : Ctx) (m : ShardMap) (rows : List (Nat × Nat)) (s : State) : AdoptRun :=
  { wait := { via := c.via, pkt := c.pkt, kind := .adopt, gen := genOf s c.iss.fid }, mapId := m.id,
    courseId := (s.course.committed.map (·.1)).getD 0, step := (s.course.committed.map (·.2)).getD 0, timeoutMs := adoptMs c, started := now s 0x41,
    highStep := deviceStep s, todo := rows, clamped := adoptClamped c }

/-- The part in which a map governs and what had gone to the lost members waits again. -/
def adoptedMap (c : Ctx) (m : ShardMap) (s : State) : State := requeueSent (lostList c) (activate { m with shrunk := false } s)

section
variable {m : ShardMap} {rows : List (Nat × Nat)} {s1 : State} (hf : (c.p 6 2).testBit 0 = false) (hm : mapById s (c.p 0 4) = some m)
  (hc : c.p 8 4 = 0 ∨ some (c.p 8 4) = s.course.committed.map (·.1)) (hl : movesLive s m (lostList c) = false) (hk : s.course.committed.isSome = true)
  (ha : adoptAll m (oldTodo s) (supersede s) = some (rows, s1))
include hf hm hc hl hk ha

theorem hAdopt_eq : hAdopt c s = if rows.isEmpty then
      Res.ok (settle (releaseShrink (adoptedMap c m s1))) (adoptClamped c) (adoptData (adoptedMap c m s1) (begunAdopt c m rows s))
    else Res.wait (settle (setElastic (fun e => { e with adopt := some (begunAdopt c m rows s) }) (adoptedMap c m s1))) (adoptClamped c)
      (adoptData (adoptedMap c m s1) (begunAdopt c m rows s)) := by
  have hid : ∀ e ∈ [(c.p 8 4 != 0 && some (c.p 8 4) != s.course.committed.map (·.1), stBadHandle, dtField 8)], e.1 = false := by
    simp only [List.mem_singleton, forall_eq]
    rcases hc with h | h <;> simp [h]
  have hbars : ∀ e ∈ [(movesLive s m (lostList c), stConflict, 0x012D), (s.course.committed.isNone, stFailed, 0x0120)], e.1 = false := by
    simpa [hl] using hk
  unfold hAdopt hShardAdopt
  rw [if_neg (by rw [hf]; decide), hm]
  dsimp only
  rw [checked_of_pass hid, ha]
  exact roomThen_of_pass hbars _

end

/-! ### SHRINK_DONE (R372) -/

section
variable (hf : (c.p 6 2).testBit 0 = true) (hm : s.elastic.active.map (·.id) = some (c.p 0 4))
include hf hm

theorem hAdopt_shrink : hAdopt c s = if s.elastic.adopt.isSome then .later (addWait c .adopt 0 0 s) dtNone (shrinkData s)
    else Res.ok (failOwnerless s) false (shrinkData s) :=
  (if_pos hf).trans (if_neg (not_not.2 hm))

end

end Sys2Proof.Machine
end

section
/-! Restores and adoptions as commands: O38. -/

namespace Sys2Proof.Machine

open Sys2Proof

/-- Settles O38: each command by what its handler answers (`replied_of_handler`, `onward_of_handler_later`). -/
theorem restoreAndAdoptionCommands : Obligations.RestoreAndAdoptionCommands := by
  unfold Obligations.RestoreAndAdoptionCommands
  refine ⟨fun via pkt s s0 c hs => ?load, fun via pkt s s0 c hs hb => ?begin_, fun via pkt s s0 c hs h => ?status,
    fun via pkt s s0 s1 c m rows hs hf hm hc hl hk ha => ?adopt, fun via pkt s s0 c hs hf hm => ?shrink⟩
  case load =>
    intro id n m b hid hoff hend hn hlen keep
    have hload := hShardMapLoad_eq hid hoff hend hn hlen
    refine ⟨fun hlast => replied_of_handler hs (by decide) (hload.trans (if_pos (by rw [hlast]; rfl))), fun hlast hgood => ?_,
      fun st d hlast hbad => ?_⟩
    all_goals
      refine replied_of_handler hs (by decide) (hload.trans ((if_neg (by rw [hlast]; decide)).trans ?_))
    · rw [show firstBad (mapChecks s0 (joinedBytes c s0)) = none from hgood]
      rfl
    · rw [show firstBad (mapChecks s0 (joinedBytes c s0)) = some (st, d) from hbad]
      rfl
  case begin_ =>
    rw [← hs.reads_eq]
    refine ⟨fun hl => replied_of_handler hs (by decide) (hRestoreBegin_unrecorded hb hl), fun l s1 d data hl hc hr => ?_⟩
    obtain ⟨hid, hcourse, hstep, hstate, hverify⟩ := startRestore_starts hr
    obtain ⟨hasked, hdigest, hsigned⟩ := structures_verify hc
    exact ⟨replied_of_handler hs (by decide) ((hRestoreBegin_starts hb hl hc).trans hr), hid, hcourse, hstep, hstate, hasked, hdigest, hsigned, hverify⟩
  case status =>
    obtain ⟨data, hok, hfields⟩ := hRestoreStatus_ok h
    exact ⟨data, replied_of_handler hs (by decide) hok, hfields⟩
  case adopt =>
    intro ms x
    have hadopt := hAdopt_eq hf hm hc hl hk ha
    refine ⟨fun hr => ⟨_, replied_of_handler hs (by decide) (hadopt.trans (if_pos (List.isEmpty_iff.2 hr)))⟩, fun hr => ?_⟩
    exact ⟨_, onward_of_handler_later hs (by decide) (hadopt.trans (if_neg (mt List.isEmpty_iff.1 hr))), rfl, ⟨_, rfl, rfl, rfl, rfl, rfl⟩, rfl, rfl⟩
  case shrink =>
    have hshrink := hAdopt_shrink hf hm
    exact ⟨fun h => onward_of_handler_later hs (by decide) (hshrink.trans (if_pos h)),
      fun h => replied_of_handler hs (by decide) (hshrink.trans (if_neg (by rw [h]; decide)))⟩

end Sys2Proof.Machine
end

section
/-! FN_CREATE, FN_RESET, FN_DESTROY and GET_FUNCTION_STATE (R408 to R419): what the handler of each answers. -/

namespace Sys2Proof.Machine

open Sys2Proof

variable {c : Ctx} {s : State}

/-! ### FN_CREATE (R408 to R411) -/

theorem le_clampN (lo hi v : Nat) : lo ≤ clampN lo hi v := Nat.le_max_left ..

/-- The lowest spill slot that no function holds. -/
def freeSpillSlot (s : State) : Option Nat := lowest 1024 (fun k => s.fns.all (fun e => e.2.slot != some k))

theorem freeSpillSlot_isSome {k : Nat} (hk : k < 1024) (hfree : ∀ e ∈ s.fns, e.2.slot ≠ some k) : (freeSpillSlot s).isSome = true := by
  cases h : freeSpillSlot s with
  | some j => rfl
  | none =>
    have hheld := lowestFrom_eq_none h k (Nat.zero_le k) (by omega)
    exact absurd (List.all_eq_true.2 (fun e he => bne_iff_ne.2 (hfree e he))) (by rw [hheld]; decide)

theorem freeSpillSlot_free {k : Nat} (h : freeSpillSlot s = some k) : k < 1024 ∧ ∀ e ∈ s.fns, e.2.slot ≠ some k := by
  obtain ⟨hlt, hfree, -⟩ := lowestFrom_eq_some h
  exact ⟨by omega, fun e he => bne_iff_ne.1 (List.all_eq_true.1 hfree e he)⟩

/-- The function as FN_CREATE leaves it. -/
def createdFn (c : Ctx) (s : State) : Fn :=
  let f := fnD s (c.p 0 2)
  let a := clampAllot s (c.p 0 2) (askedAllot c)
  { f with allot := a, spoof := c.p 2 2 % 16, vlan := c.p 0x1E 2, mac := be c.params 0x20 6, ipv4 := c.p 0x28 4, ipv6 := be c.params 0x30 16,
           ipv6Len := min 128 (c.p 0x26 1), slot := if f.slot.isSome ∨ a.quota = 0 then f.slot else freeSpillSlot s }

theorem hFnCreate_ok (hf : (fnOf s (c.p 0 2)).isSome = true) (hv : c.p 0x1E 2 ≤ 4094) (hm : (c.p 0x20 1).testBit 0 = false)
    (ha : (fnD s (c.p 0 2)).st ≠ .frozen) (hs : (fnD s (c.p 0 2)).slot.isSome = true ∨ (clampAllot s (c.p 0 2) (askedAllot c)).quota = 0 ∨
      (freeSpillSlot s).isSome = true) : ∃ clamped data, hFnCreate c s = Res.ok (setFn (c.p 0 2) (createdFn c s) s) clamped data := by
  have hlen : clampN 0 128 (c.p 0x26 1) = min 128 (c.p 0x26 1) := clampN_zero ..
  have hslot : ((fnD s (c.p 0 2)).slot.isNone && (clampAllot s (c.p 0 2) (askedAllot c)).quota != 0 && (freeSpillSlot s).isNone) = false := by
    rcases hs with h | h | h
    · simp [Option.isNone_eq_false_iff.2 h]
    · simp [h]
    · simp [Option.isNone_eq_false_iff.2 h]
  rw [createdFn, ← hlen]
  refine ⟨_, _, checked_of_pass ?_ _⟩
  have hgone : (fnOf s (c.p 0 2)).isNone = false := Option.isNone_eq_false_iff.2 hf
  simp only [List.mem_cons, List.not_mem_nil, or_false, forall_eq_or_imp, forall_eq]
  exact ⟨hgone, by simpa using hv, hm, hslot, by simpa using ha⟩

theorem createdFn_slot_kept (h : (fnD s (c.p 0 2)).slot.isSome = true ∨ (clampAllot s (c.p 0 2) (askedAllot c)).quota = 0) :
    (createdFn c s).slot = (fnD s (c.p 0 2)).slot := if_pos h

theorem createdFn_slot_taken (hn : (fnD s (c.p 0 2)).slot = none) (hq : (clampAllot s (c.p 0 2) (askedAllot c)).quota ≠ 0)
    (hfree : (freeSpillSlot s).isSome = true) : ∃ k, (createdFn c s).slot = some k ∧ k < 1024 ∧ ∀ e ∈ s.fns, e.2.slot ≠ some k := by
  obtain ⟨k, hk⟩ := Option.isSome_iff_exists.1 hfree
  have hslot : (createdFn c s).slot = freeSpillSlot s := if_neg (by simp [hn, hq])
  exact ⟨k, hslot.trans hk, freeSpillSlot_free hk⟩

/-- No pool of an allotment falls below what is in use (R409). -/
theorem poolUse_le_clampAllot (s : State) (fid : Nat) (a : Allot) :
    (poolUse s fid).conns ≤ (clampAllot s fid a).conns ∧ (poolUse s fid).limiters ≤ (clampAllot s fid a).limiters ∧
    ((fnD s fid).pf = 0 → (poolUse s fid).cqps ≤ (clampAllot s fid a).cqps) := by
  refine ⟨le_clampN .., le_clampN .., fun h => ?_⟩
  have hcqps : (clampAllot s fid a).cqps = clampN (poolUse s fid).cqps _ a.cqps := if_pos h
  exact hcqps ▸ le_clampN ..

/-! ### FN_RESET and FN_DESTROY (R412 to R414) -/

theorem selfReset_of_ne {fid : Nat} (h : c.via ≠ .ring fid) : selfReset c fid = false := beq_eq_false_iff_ne.2 h
theorem selfReset_of_eq {fid : Nat} (h : c.via = .ring fid) : selfReset c fid = true := beq_iff_eq.2 h

/-- A part on which a reply has been dropped and counted. -/
def replyDropped (t : State) : State := t.setIcp { t.icp with replyDrops := t.icp.replyDrops + 1 }

theorem hFnReset_eq (hf : (fnOf s (c.p 0 2)).isSome = true) : hFnReset c s =
    let t := failFunction true 2 (c.p 0 2) s
    let data := layout 8 [(0, 2, c.p 0 2), (2, 2, (fnD t (c.p 0 2)).gen), (4, 4, abortCount s (c.p 0 2))]
    if selfReset c (c.p 0 2) then .later (replyDropped t) dtNone data else Res.ok t false data :=
  checked_of_pass (by simpa using hf) _

/-- The part without a function that FN_DESTROY removes. -/
def fnDestroyed (fid : Nat) (s : State) : State :=
  settle (updFn fid (fun f => { f with allot := {}, slot := none }) (freeOwned fid (failFunction true 2 fid s)))

section
variable (hf : (fnOf s (c.p 0 2)).isSome = true) (h0 : c.p 0 2 ≠ 0) (h3 : c.p 0 2 ≠ 3)
  (hcourse : courseLive s = false ∨ (crun s).tables.any (fun ti => (tblD s ti).owner == c.p 0 2) = false)
include hf h0 h3 hcourse

/-- What stands before the last check of FN_DESTROY passes. -/
theorem fnDestroy_passes : ∀ e ∈ [((fnOf s (c.p 0 2)).isNone, stBadHandle, dtField 0), (c.p 0 2 == 0 || c.p 0 2 == 3, stNotPermitted, dtField 0),
    (courseLive s && (crun s).tables.any (fun ti => (tblD s ti).owner == c.p 0 2), stBusy, dtNone)], e.1 = false := by
  simp only [List.mem_cons, List.not_mem_nil, or_false, forall_eq_or_imp, forall_eq]
  refine ⟨Option.isNone_eq_false_iff.2 hf, by simp [h0, h3], ?_⟩
  rcases hcourse with h | h <;> simp [h]

theorem hFnDestroy_busy (hsan : ∃ e ∈ attachedTo s (c.p 0 2), sanActive e.2 = true) : hFnDestroy c s = Res.rej s stBusy dtSanActive := by
  have hpass := fnDestroy_passes hf h0 h3 hcourse
  simp only [List.mem_cons, List.not_mem_nil, or_false, forall_eq_or_imp, forall_eq] at hpass
  obtain ⟨hknown, hpf0, hfree⟩ := hpass
  refine checked_of_bad ?_ _
  simp only [firstBad, hknown, hpf0, hfree, List.any_eq_true.2 hsan, Bool.false_eq_true, if_false, if_true]

theorem hFnDestroy_eq (hsan : ∀ e ∈ attachedTo s (c.p 0 2), sanActive e.2 = false) : hFnDestroy c s =
    let data := layout 8 [(0, 2, c.p 0 2), (4, 4, (s.tab.tbls.filter (fun e => e.2.owner == c.p 0 2)).length)]
    if selfReset c (c.p 0 2) then .later (replyDropped (fnDestroyed (c.p 0 2) s)) dtNone data
    else Res.ok (fnDestroyed (c.p 0 2) s) false data := by
  refine checked_of_pass (fun e he => ?_) _
  have hidle : (attachedTo s (c.p 0 2)).any (fun e => sanActive e.2) = false := List.any_eq_false.2 (fun e he => by simp [hsan e he])
  rw [List.mem_cons, List.mem_cons, List.mem_cons, List.mem_singleton] at he
  rcases he with h | h | h | rfl
  · exact fnDestroy_passes hf h0 h3 hcourse e (by simp [h])
  · exact fnDestroy_passes hf h0 h3 hcourse e (by simp [h])
  · exact fnDestroy_passes hf h0 h3 hcourse e (by simp [h])
  · exact hidle

end

/-! ### GET_FUNCTION_STATE and the adoption of queue pairs (R418, R419) -/

theorem hGetFunctionState_reads (hk : (fnKnown s (c.p 0 2)).isSome = true) (ha : (c.p 2 2).testBit 0 = false)
    (hi : c.iss.priv = true ∨ c.p 0 2 = c.iss.fid) : hGetFunctionState c s = Res.ok s false (functionState s (c.p 0 2)) := by
  have hnamed : ((fnKnown s (c.p 0 2)).isNone || (!c.iss.priv && c.p 0 2 != c.iss.fid)) = false := by
    rw [Option.isNone_eq_false_iff.2 hk, Bool.false_or]
    rcases hi with h | h <;> simp [h]
  unfold hGetFunctionState
  dsimp only
  rw [ha]
  exact checked_of_pass (by simpa using hnamed) _

/-- A queue pair that its function has adopted under a generation. -/
def Cqp.adoptedBy (g : Nat) (q : Cqp) : Cqp := { q with gen := g, adopted := true }

/-- Every held queue pair of an old generation of a function has the current one. -/
def adoptHeld (fid : Nat) (s : State) : State :=
  (heldQueues s fid).foldl (fun x e => updCqp e.1 (Cqp.adoptedBy (fnD s fid).gen) x) s

theorem hGetFunctionState_adopts (hk : (fnKnown s (c.p 0 2)).isSome = true) (ha : (c.p 2 2).testBit 0 = true) (hi : c.p 0 2 = c.iss.fid)
    (hg : c.pkt.generation = (fnD s (c.p 0 2)).gen) :
    hGetFunctionState c s = Res.ok (adoptHeld (c.p 0 2) s) false (functionState (adoptHeld (c.p 0 2) s) (c.p 0 2)) := by
  have hnamed : ((fnKnown s (c.p 0 2)).isNone || (!c.iss.priv && c.p 0 2 != c.iss.fid)) = false := by
    rw [Option.isNone_eq_false_iff.2 hk, Bool.false_or]
    simp [hi]
  unfold hGetFunctionState
  dsimp only
  rw [ha, if_pos rfl]
  refine checked_of_pass ?_ _
  simp only [List.mem_cons, List.not_mem_nil, or_false, forall_eq_or_imp, forall_eq]
  exact ⟨hnamed, by simp [hi], by simp [hg]⟩

theorem look_updCqp (n : Nat) (f : Cqp → Cqp) (s : State) (k : Nat) :
    look (updCqp n f s).tab.cqps k = (look s.tab.cqps k).map (fun q => if n = k then f q else q) := by
  cases h : cqpOf s n with
  | none =>
    have hl : look s.tab.cqps n = none := h
    rw [updCqp, h]
    by_cases hk : n = k
    · rw [← hk, hl]; rfl
    · simp [hk]
  | some q =>
    have hl : look s.tab.cqps n = some q := h
    rw [updCqp_of_cqpOf h, setCqp, State.setTab_tab, look_put]
    by_cases hk : n = k
    · simp [← hk, hl]
    · simp [hk]

/-- A change that says no more twice than once reaches each queue pair that a list names, and no other. -/
theorem look_updCqps {f : Cqp → Cqp} (hf : ∀ q, f (f q) = f q) (l : List (Nat × Cqp)) (s : State) (k : Nat) :
    look (l.foldl (fun x e => updCqp e.1 f x) s).tab.cqps k = (look s.tab.cqps k).map (fun q => if l.any (fun e => e.1 == k) then f q else q) := by
  induction l generalizing s with
  | nil => simp
  | cons e r ih =>
    rw [List.foldl_cons, ih, look_updCqp, Option.map_map]
    congr 1
    funext q
    by_cases he : e.1 = k <;> by_cases hr : r.any (fun e => e.1 == k) = true <;> simp [he, hr, hf]

theorem updCqps_setTab (f : Cqp → Cqp) (l : List (Nat × Cqp)) (s : State) :
    ∃ q, l.foldl (fun x e => updCqp e.1 f x) s = s.setTab { s.tab with cqps := q } := by
  induction l generalizing s with
  | nil => exact ⟨s.tab.cqps, rfl⟩
  | cons e r ih =>
    obtain ⟨q, hq⟩ := ih (updCqp e.1 f s)
    refine ⟨q, hq.trans ?_⟩
    unfold updCqp
    split <;> rfl

theorem adoptHeld_eq (fid : Nat) (s : State) : adoptHeld fid s = s.setTab { s.tab with cqps := (adoptHeld fid s).tab.cqps } := by
  obtain ⟨q, hq⟩ := updCqps_setTab (Cqp.adoptedBy (fnD s fid).gen) (heldQueues s fid) s
  have h : adoptHeld fid s = s.setTab { s.tab with cqps := q } := hq
  rw [h]
  rfl

theorem cqpD_adoptHeld (fid : Nat) (s : State) (q : Nat) : cqpD (adoptHeld fid s) q =
    if (heldQueues s fid).any (fun e => e.1 == q) then Cqp.adoptedBy (fnD s fid).gen (cqpD s q) else cqpD s q := by
  have hlook := look_updCqps (f := Cqp.adoptedBy (fnD s fid).gen) (fun _ => rfl) (heldQueues s fid) s q
  rw [cqpD, lookD, adoptHeld, hlook, cqpD, lookD]
  cases hl : look s.tab.cqps q with
  | some x => simp only [Option.map_some, Option.getD_some]
  | none =>
    have hno : (heldQueues s fid).any (fun e => e.1 == q) = false := List.any_eq_false.2 (fun e he hq => by
      have hsome := look_of_mem (List.mem_filter.1 he).1
      rw [beq_iff_eq.1 hq, hl] at hsome
      exact absurd hsome (by decide))
    rw [hno]
    rfl

end Sys2Proof.Machine
end

section
/-! Moving a tenant between hosts and the dirty log (R426 to R435): what the handler of each command answers. -/

namespace Sys2Proof.Machine

open Sys2Proof

variable {c : Ctx} {s : State}

@[simp] theorem updFn_draw (fid : Nat) (g : Fn → Fn) (s : State) : (updFn fid g s).draw = s.draw := by
  unfold updFn
  split <;> rfl

/-! ### MIG_FREEZE and MIG_RESUME (R426, R431) -/

/-- A VF fetches no more. -/
def fnFrozen (fid : Nat) (s : State) : State := updFn fid (fun f => { f with st := .frozen, migBuf := [] }) s

theorem hMigFreeze_eq (hv : vfHere s (c.p 0 2) = true) : hMigFreeze c s =
    if quiet (fnFrozen (c.p 0 2) s) (c.p 0 2) then Res.ok (drawn (fnFrozen (c.p 0 2) s)) false (layout 16 [(0, 4, Config.freeNat s.draw)])
    else .later (addWait { c with pkt := { c.pkt with opcode := 0x0904 } } .destroy (c.p 0 2) 0 (fnFrozen (c.p 0 2) s)) dtNone
      (layout 16 [(0, 4, Config.freeNat s.draw)]) := by
  rw [← updFn_draw (c.p 0 2) (fun f => { f with st := .frozen, migBuf := [] }) s]
  exact checked_of_pass (by simpa using hv) _

theorem hMigResume_ok (hv : vfHere s (c.p 0 2) = true) (hz : isFrozen s (c.p 0 2) = true) : hMigResume c s =
    Res.ok (settle (resumeFunction (c.p 0 2) (updFn (c.p 0 2) (fun f => { f with st := .active, migBuf := [] }) s))) false
      (layout 8 [(0, 2, c.p 0 2), (2, 2, (fnD s (c.p 0 2)).gen)]) :=
  checked_of_pass (by simp [hv, hz]) _

/-! ### MIG_SAVE and MIG_RESTORE (R427 to R430) -/

theorem hMigSave_ok {k : Nat} (hv : vfHere s (c.p 0 2) = true) (hz : isFrozen s (c.p 0 2) = true) (hk : migKey s = some k) :
    let fresh := (fnD s (c.p 0 2)).migBuf.isEmpty
    let record := if fresh then sealRecord k s (c.p 0 2) else (fnD s (c.p 0 2)).migBuf
    let piece := (record.drop (c.p 0x10 8)).take (c.p 4 4)
    c.p 0x10 8 ≤ record.length → hMigSave c s = Res.ok (dmaOut c.iss.owner (c.p 8 8) piece
      (if fresh then useWorkingKey ((migBase s).getD 0) migLabel (drawn (updFn (c.p 0 2) (fun f => { f with migBuf := record }) s)) else s)) false
        (layout 32 [(0, 4, piece.length), (8, 8, record.length), (0x10, 4, 1)]) := by
  intro fresh record piece hoff
  unfold hMigSave
  simp only [hk]
  refine checked_of_pass ?_ _
  simp only [List.mem_cons, List.not_mem_nil, or_false, forall_eq_or_imp, forall_eq]
  exact ⟨by simp [hv], by rw [decide_eq_false (Nat.not_lt.2 hoff)]; rfl, by simp [hz], rfl⟩

/-- A record as the pieces of MIG_RESTORE have it. -/
def gathered (c : Ctx) (d : Bytes) (s : State) : Bytes := (if c.p 0x10 8 = 0 then [] else (fnD s (c.p 0 2)).migBuf) ++ d.take (c.p 4 4)

/-- What MIG_RESTORE answers once its fields pass: a record that is not whole is kept, and a whole one is opened. -/
theorem hMigRestore_eq {k : Nat} {d : Bytes} (hv : vfHere s (c.p 0 2) = true) (hk : migKey s = some k) (ht : restoreTarget s (c.p 0 2) = true)
    (hd : c.pkt.dma = some d)
    (hsrc : c.p 2 2 = 0xFFFF ∨ (vfHere s (c.p 2 2) = true ∧ c.p 2 2 ≠ c.p 0 2 ∧ isFrozen s (c.p 2 2) = true))
    (hoff : c.p 0x10 8 = 0 ∨ c.p 0x10 8 = (fnD s (c.p 0 2)).migBuf.length) :
    ∃ data, hMigRestore c s = if 20 ≤ (gathered c d s).length ∧ le (gathered c d s) 0 8 ≤ (gathered c d s).length then
        finishRestore c (c.p 0 2) (c.p 2 2) k (gathered c d s) s
      else Res.ok (updFn (c.p 0 2) (fun f => { f with migBuf := gathered c d s }) s) false data := by
  unfold hMigRestore
  simp only [hk, hd, Option.getD_some]
  refine ⟨_, checked_of_pass ?_ _⟩
  have hplace : (c.p 0x10 8 != 0 && c.p 0x10 8 != (fnD s (c.p 0 2)).migBuf.length) = false := by
    rcases hoff with h | h <;> simp [h]
  have hnamed : (c.p 2 2 != 0xFFFF && (!vfHere s (c.p 2 2) || c.p 2 2 == c.p 0 2)) = false ∧ (c.p 2 2 != 0xFFFF && !isFrozen s (c.p 2 2)) = false := by
    rcases hsrc with h | ⟨hhere, hne, hz⟩
    · simp [h]
    · simp [hhere, hne, hz]
  simp only [List.mem_cons, List.not_mem_nil, or_false, forall_eq_or_imp, forall_eq]
  exact ⟨by simp [hv], hnamed.1, rfl, hplace, hnamed.2, by simp [ht], rfl⟩

/-- The part once the working key of migration has been used. -/
def migKeyUsed (s : State) : State := useWorkingKey ((migBase s).getD 0) migLabel s

/-- The reply data of the last MIG_RESTORE of a record. -/
def restoreData (c : Ctx) (record : Bytes) : Bytes := layout 32 [(0, 4, (c.pkt.dma.getD []).length), (8, 8, record.length), (0x10, 4, 1)]

/-- A part on which a record has been put aside. -/
def recordDropped (fid : Nat) (s : State) : State := updFn fid (fun f => { f with migBuf := [] }) s

section
variable {dst src k : Nat} {record plain : Bytes} {m : MigImage}

theorem finishRestore_unopened (h : Config.unsealBytes k ((record.drop 8).take 12) (record.drop 20) = none) :
    finishRestore c dst src k record s = .reply (bump blkCipher 0x120 (recordDropped dst (migKeyUsed s))) stIntegrity dtNone [] := by
  unfold finishRestore
  simp only [h]
  rfl

variable (h : Config.unsealBytes k ((record.drop 8).take 12) (record.drop 20) = some plain)
include h

theorem finishRestore_unread (hm : migImage plain = none) :
    finishRestore c dst src k record s = .reply (recordDropped dst (migKeyUsed s)) stIntegrity dtNone [] := by
  unfold finishRestore
  simp only [h, hm]
  rfl

theorem finishRestore_opened (hm : migImage plain = some m) : finishRestore c dst src k record s =
    if src ≠ 0xFFFF then Res.ok (restoreHere src dst m (migKeyUsed s)) false (restoreData c record)
    else if numbersFree (migKeyUsed s) m then Res.ok (restoreForeign dst m (migKeyUsed s)) false (restoreData c record)
    else .reply (recordDropped dst (migKeyUsed s)) stNoResource dtNone [] := by
  unfold finishRestore
  simp only [h, hm]
  rfl

end

/-! ### The dirty log (R432 to R435) -/

theorem hDirtyLogStart_ok (hv : vfHere s (c.p 0 2) = true) (hb : c.p 0x10 8 % 4096 = 0) (hl : c.p 0x18 8 ≠ 0)
    (ha : atomicReq s (fnD s c.iss.owner).hp = true) : hDirtyLogStart c s = Res.ok
      (updFn (c.p 0 2) (fun f => { f with dirty := some { issuer := c.iss.owner, bitmap := c.p 8 8, base := c.p 0x10 8, length := c.p 0x18 8 } }) s)
      false (layout 16 [(0, 8, ceilDiv (c.p 0x18 8) 4096)]) :=
  checked_of_pass (by simp [hv, hb, hl, ha]) _

theorem hDirtyLogStop_ok {d : DirtyLog} (hv : vfHere s (c.p 0 2) = true) (hd : (fnD s (c.p 0 2)).dirty = some d) : hDirtyLogStop c s =
    Res.ok (updFn (c.p 0 2) (fun f => { f with dirty := none }) s) false (layout 16 [(0, 8, d.pages.length), (8, 4, d.outside)]) := by
  unfold hDirtyLogStop
  simp only [hd]
  exact checked_of_pass (by simp [hv]) _

end Sys2Proof.Machine
end

section
/-! The commands of functions (R408 to R435): O48. -/

namespace Sys2Proof.Machine

open Sys2Proof

/-- What memory a command refers to is as its packet gives it. -/
theorem Starts.dma_eq {op : Nat} {via : Via} {pkt : IcpPkt} {s s0 : State} {c : Ctx} (hs : Starts op via pkt s c s0) : c.pkt.dma = pkt.dma := by
  obtain ⟨-, -, -, -, hc⟩ := hs
  rw [hc]
  change (taken op via pkt s).dma = pkt.dma
  unfold taken
  split <;> rfl

/-- Settles O48: each command by what its handler answers or leaves (`replied_of_handler`, `onward_of_handler_later`). -/
theorem functionCommandsAnswerAndAct : Obligations.FunctionCommandsAnswerAndAct := by
  unfold Obligations.FunctionCommandsAnswerAndAct
  refine ⟨fun via pkt s s0 c hs => ?create, fun via pkt s s0 c hs => ?reset, fun via pkt s s0 c hs => ?destroy, fun via pkt s s0 c => ?query,
    fun via pkt s s0 c hv => ?migrate⟩
  case create =>
    intro fid f a hf hvlan hmac hst hslot
    have hfree : f.slot.isSome = true ∨ a.quota = 0 ∨ (freeSpillSlot s0).isSome = true :=
      hslot.imp_right (Or.imp_right fun ⟨_, hk, h⟩ => freeSpillSlot_isSome hk h)
    obtain ⟨clamped, data, hok⟩ := hFnCreate_ok hf hvlan hmac hst hfree
    refine ⟨clamped, data, createdFn c s0, replied_of_handler hs (by decide) hok, rfl, createdFn_slot_kept, fun hn hq => ?_,
      poolUse_le_clampAllot ..⟩
    refine createdFn_slot_taken hn hq (hfree.elim (fun h => ?_) (fun h => h.resolve_left hq))
    rw [hn] at h
    cases h
  case reset =>
    intro fid t hf
    have hreset := hFnReset_eq hf
    exact ⟨fun hne => replied_of_handler hs (by decide) (hreset.trans (if_neg (Bool.eq_false_iff.1 (selfReset_of_ne (hs.via_eq.trans_ne hne))))),
      fun heq => onward_of_handler_later hs (by decide) (hreset.trans (if_pos (selfReset_of_eq (hs.via_eq.trans heq))))⟩
  case destroy =>
    intro fid t hf h0 h3 hcourse
    refine ⟨fun hsan => replied_of_handler hs (by decide) (hFnDestroy_busy hf h0 h3 hcourse hsan), fun hsan => ?_⟩
    have hdestroy := hFnDestroy_eq hf h0 h3 hcourse hsan
    exact ⟨fun hne => replied_of_handler hs (by decide) (hdestroy.trans (if_neg (Bool.eq_false_iff.1 (selfReset_of_ne (hs.via_eq.trans_ne hne))))),
      fun heq => onward_of_handler_later hs (by decide) (hdestroy.trans (if_pos (selfReset_of_eq (hs.via_eq.trans heq))))⟩
  case query =>
    intro fid hk
    exact ⟨fun hs ha hi => replied_of_handler hs (by decide) (hGetFunctionState_reads hk ha hi),
      fun hs ha hi hg => ⟨_, replied_of_handler hs (by decide) (hGetFunctionState_adopts hk ha hi hg), adoptHeld_eq .., fun q => cqpD_adoptHeld fid s0 q⟩⟩
  case migrate =>
    intro fid x fresh off
    refine ⟨fun hs => ?freeze, fun hs hz => replied_of_handler hs (by decide) (hMigResume_ok hv hz),
      fun k hs hz hk hoff => replied_of_handler hs (by decide) (hMigSave_ok hv hz hk hoff),
      fun k d hs hk ht hd hsrc hoff => ?restore,
      fun hs hb hl ha => replied_of_handler hs (by decide) (hDirtyLogStart_ok hv hb hl ha),
      fun d hs hd => replied_of_handler hs (by decide) (hDirtyLogStop_ok hv hd)⟩
    case freeze =>
      have hfreeze := hMigFreeze_eq hv
      have hpkt : { c with pkt := { c.pkt with opcode := 0x0904 } } = c := by rw [← hs.opcode_eq]
      rw [hpkt] at hfreeze
      exact ⟨fun hq => replied_of_handler hs (by decide) (hfreeze.trans (if_pos hq)),
        fun hq => onward_of_handler_later hs (by decide) (hfreeze.trans (if_neg (Bool.eq_false_iff.1 hq)))⟩
    case restore =>
      intro record opened s1
      obtain ⟨data, hrestore⟩ := hMigRestore_eq hv hk ht (hs.dma_eq.trans hd) hsrc hoff
      refine ⟨fun hshort => ⟨data, replied_of_handler hs (by decide) (hrestore.trans (if_neg fun h => ?_))⟩, fun hlen hwhole => ?_⟩
      · have hlong : 20 ≤ record.length ∧ le record 0 8 ≤ record.length := h
        omega
      have hfinish := hrestore.trans (if_pos ⟨hlen, hwhole⟩)
      refine ⟨fun hn => replied_of_handler hs (by decide) (hfinish.trans (finishRestore_unopened hn)), fun plain hp => ⟨restoreData c record, ?_⟩⟩
      refine ⟨fun hn => replied_of_handler hs (by decide) (hfinish.trans (finishRestore_unread hp hn)), fun m hm => ?_⟩
      have hopened := hfinish.trans (finishRestore_opened hp hm)
      exact ⟨fun hsrc => replied_of_handler hs (by decide) (hopened.trans (if_pos hsrc)),
        fun hsrc hfree => replied_of_handler hs (by decide) (hopened.trans ((if_neg (not_not.2 hsrc)).trans (if_pos hfree))),
        fun hsrc hfree => replied_of_handler hs (by decide)
          (hopened.trans ((if_neg (not_not.2 hsrc)).trans (if_neg (Bool.eq_false_iff.1 hfree))))⟩

end Sys2Proof.Machine
end

section
/-! PORT_CONFIG of an Ethernet port, and what it lets go on (R418, R483, R487). The frames of a sub-port that a mode removes are dropped, their
completions go to the function, and with the last of them a MIG_FREEZE may answer. Where its issuer is an accelerator endpoint, whose reply ring
lies in custody memory, that answer is written into the memory: `y.mem = s0.mem` fails. -/

namespace Sys2Proof.Machine

open Sys2Proof

variable {s t x y : State}

/-! ### Posts -/

/-- What a state keeps that no completion, interrupt or reply changes: the commands that wait, those held behind a barrier, the replies dropped,
the open commits, the connections, the queue pairs and the frames held on the way out. -/
def standby (s : State) :
    List Waiter × List (Via × IcpPkt) × Nat × List Commit × List (Nat × Conn) × List (Nat × Cqp) × List (Nat × Nat × EgFrame) :=
  (s.icp.waits, s.icp.behind, s.icp.replyDrops, s.icp.commits, s.grt.conns, s.tab.cqps, s.pp.egressHeld)

/-- `t` is `s` but for what has been posted since. -/
structure Posts (s t : State) : Prop where
  standby : standby t = standby s
  fns : t.fns = [] → s.fns = []
  out : s.out.Sublist t.out

theorem Posts.refl (s : State) : Posts s s := ⟨rfl, id, .refl _⟩

theorem Posts.trans (h : Posts s t) (g : Posts t x) : Posts s x :=
  ⟨g.standby.trans h.standby, h.fns ∘ g.fns, h.out.trans g.out⟩

theorem Posts.foldl {α : Type} {f : State → α → State} (h : ∀ s a, Posts s (f s a)) (l : List α) (s : State) : Posts s (l.foldl f s) := by
  induction l generalizing s with
  | nil => exact .refl s
  | cons a l ih => exact (h s a).trans (ih _)

theorem Posts.ite {c : Prop} [Decidable c] (ht : Posts s t) (hx : Posts s x) : Posts s (if c then t else x) := by
  split
  · exact ht
  · exact hx

/-- A step that leaves what stands by, the functions and the outputs. -/
theorem Posts.of_eq (hs : Machine.standby t = Machine.standby s) (hf : t.fns = s.fns) (ho : t.out = s.out) : Posts s t :=
  ⟨hs, fun h => hf ▸ h, ho ▸ .refl _⟩

theorem put_ne_nil {α β : Type} [DecidableEq α] (l : List (α × β)) (k : α) (v : β) : put l k v ≠ [] := by
  cases l with
  | nil => exact List.cons_ne_nil _ _
  | cons e r =>
    unfold put
    split
    · exact List.cons_ne_nil _ _
    · exact List.cons_ne_nil _ _

theorem emit_posts (o : Out) (s : State) : Posts s (emit o s) := ⟨rfl, id, List.sublist_append_left _ _⟩

theorem bumpBy_posts (b rel n : Nat) (s : State) : Posts s (bumpBy b rel n s) := .of_eq rfl rfl rfl

theorem setRing_posts (k : Nat) (r : Ring) (s : State) : Posts s (setRing k r s) := .of_eq rfl rfl rfl

theorem setQp_posts (k : Nat) (q : NicQp) (s : State) : Posts s (setQp k q s) := .of_eq rfl rfl rfl

theorem dmaDropped_posts (fid n : Nat) (s : State) : Posts s (dmaDropped fid n s) := by
  unfold dmaDropped
  split
  · exact bumpBy_posts ..
  · exact .refl s

theorem updFn_posts (fid : Nat) (g : Fn → Fn) (s : State) : Posts s (updFn fid g s) := by
  unfold updFn
  split
  · exact ⟨rfl, fun h => absurd h (put_ne_nil _ _ _), .refl _⟩
  · exact .refl s

theorem markPage_posts (fid : Nat) (d : DirtyLog) (k : Nat) (s : State) : Posts s (markPage fid d k s) := by
  unfold markPage
  exact (updFn_posts ..).trans (.ite (dmaDropped_posts ..) (emit_posts ..))

theorem markWrite_posts (fid addr n : Nat) (s : State) : Posts s (markWrite fid addr n s) := by
  unfold markWrite
  split
  · exact .refl s
  · next d _ =>
    extract_lets lo hi u
    have hu : Posts s u := .ite (.refl s) (updFn_posts ..)
    exact .ite (hu.trans (.foldl (fun s i => markPage_posts ..) _ _)) hu

theorem dmaOut_posts (fid addr : Nat) (bs : Bytes) (s : State) : Posts s (dmaOut fid addr bs s) := by
  unfold dmaOut
  exact .ite (.refl s) (.ite (dmaDropped_posts ..) ((emit_posts ..).trans (markWrite_posts ..)))

theorem raiseMsix_posts (fn vec : Nat) (s : State) : Posts s (raiseMsix fn vec s) := by
  unfold raiseMsix
  exact .ite (.of_eq rfl rfl rfl) (.ite (dmaDropped_posts ..) (emit_posts ..))

theorem slotWrite_posts (k slot off : Nat) (bs : Bytes) (s : State) : Posts s (slotWrite k slot off bs s) := by
  unfold slotWrite
  refine .ite ?_ (dmaOut_posts ..)
  split
  · next dpa _ =>
    obtain ⟨m, hm⟩ := writeMem_eq_setMem dpa bs s
    exact hm ▸ .of_eq rfl rfl rfl
  · exact .refl s

theorem touchSession_posts (via : Via) (s : State) : Posts s (touchSession via s) := by
  unfold touchSession
  split
  · exact .of_eq rfl rfl rfl
  · exact .refl s

theorem livePause_posts (s : State) : Posts s (livePause s) := by
  unfold livePause
  split
  · exact .ite (.of_eq rfl rfl rfl) (.refl s)
  · exact .refl s

theorem fetchSlot_posts (k : Nat) (s : State) : Posts s (fetchSlot k s) := by
  unfold fetchSlot
  dsimp only
  split
  · exact .refl s
  · exact setRing_posts ..

/-! ### A reply -/

/-- The reply that the slot of a reply ring takes is written, and put out. -/
theorem deliverReply_posts (k : Nat) (via : Via) (pkt : IcpPkt) (r : IcpReply) (s : State) :
    Posts (emit (.reply via r) (slotWrite k r.slot 0 (r.header false) (slotWrite k r.slot 32 r.data s))) (deliverReply k via pkt r s) :=
  .ite (raiseMsix_posts ..) (.refl _)

theorem sendPacket_posts (via : Via) (r : IcpReply) (s : State) : Posts (emit (.reply via r) s) (sendPacket via r s) := by
  unfold sendPacket
  dsimp only
  split
  · exact emit_posts ..
  · exact emit_posts ..
  · exact .refl _

/-- With no function to be in D1 or D3hot, a reply of a ring goes out at once (R423). -/
theorem heldOrDelivered_posts {k : Nat} {via : Via} {pkt : IcpPkt} {r : IcpReply} {g : Ring} {u : State}
    (hf : (if (fnD u k).dstate = .d1 ∨ (fnD u k).dstate = .d3hot then setRing k g u else deliverReply k via pkt r u).fns = []) :
    ∃ v, Posts u v ∧ Posts (emit (.reply via r) v)
      (if (fnD u k).dstate = .d1 ∨ (fnD u k).dstate = .d3hot then setRing k g u else deliverReply k via pkt r u) := by
  split at hf
  · next hd =>
    have hu : u.fns = [] := hf
    exact absurd hd (by simp [fnD, lookD, hu, look])
  · next hd =>
    rw [if_neg hd]
    exact ⟨_, (slotWrite_posts ..).trans (slotWrite_posts ..), deliverReply_posts ..⟩

/-- A reply that no function holds back goes out, and around it only posts. -/
theorem sendReply_posts {op : Nat} {via : Via} {pkt : IcpPkt} {st d : Nat} {data : Bytes} {s : State}
    (hf : (sendReply op via pkt st d data s).fns = []) :
    ∃ r u, r.opcode = op ∧ r.data = data ∧ Posts s u ∧ Posts (emit (.reply via r) u) (sendReply op via pkt st d data s) := by
  unfold sendReply postReply at hf ⊢
  cases hk : ringKey via with
  | some k =>
    simp only [hk] at hf ⊢
    obtain ⟨v, hv, hp⟩ := heldOrDelivered_posts hf
    refine ⟨_, v, ?_, ?_, (setRing_posts ..).trans hv, hp⟩ <;> rfl
  | none =>
    refine ⟨mkReply op via pkt st d data s, s, rfl, rfl, .refl s, (sendPacket_posts ..).trans ?_⟩
    simp only
    split
    · exact .of_eq rfl rfl rfl
    · exact .refl _

end Sys2Proof.Machine
end

section
/-! What a part that waits for one answer only has told. -/

namespace Sys2Proof.Machine

open Sys2Proof

variable {n : Nat} {s t x y : State} {via : Via} {op st d : Nat} {data : Bytes} {pkt : IcpPkt} {w : Waiter}

theorem mem_of_mem_dropFirst {α : Type} {p : α → Bool} {a : α} {l : List α} (h : a ∈ dropFirst p l) : a ∈ l := by
  induction l with
  | nil => exact h
  | cons b l ih =>
    unfold dropFirst at h
    split at h
    · exact List.mem_cons_of_mem _ h
    · rcases List.mem_cons.1 h with rfl | h
      · exact List.mem_cons_self
      · exact List.mem_cons_of_mem _ (ih h)

theorem eq_or_mem_dropFirst {α : Type} [BEq α] [LawfulBEq α] {a b : α} {l : List α} (h : a ∈ l) :
    a = b ∨ a ∈ dropFirst (fun x => x == b) l := by
  induction l with
  | nil => cases h
  | cons c l ih =>
    unfold dropFirst
    rcases List.mem_cons.1 h with rfl | h
    · by_cases hb : (a == b) = true
      · exact .inl (eq_of_beq hb)
      · rw [if_neg hb]
        exact .inr List.mem_cons_self
    · split
      · exact .inr h
      · exact (ih h).imp_right (List.mem_cons_of_mem _)

/-! ### The answers that are due -/

/-- The answer of MIG_FREEZE to the accelerator endpoint. -/
def FreezeAnswer (via : Via) (op : Nat) (data : Bytes) : Prop := via = .accel 0 ∧ op = 0x0904 ∧ data.length = 16

/-- The answer of PORT_CONFIG of an Ethernet port to the manager. -/
def PortAnswer (via : Via) (op : Nat) (data : Bytes) : Prop := via = .mctp 9 ∧ op = 0x0500 ∧ le data 0 1 = 1

/-- No other answer is due. -/
def Due (via : Via) (op : Nat) (data : Bytes) : Prop := FreezeAnswer via op data ∨ PortAnswer via op data

def toManager : Out → Bool
  | .reply v _ => v == .mctp 9
  | _ => false

/-- A CQP_DESTROY that waits though no queue pair is left: whatever looks at the waiting commands answers it. -/
def leftOver : Waiter := { via := .accel 0, pkt := { opcode := 0x0205 }, kind := .destroy }

/-- A part that has told nothing but what is due, the manager at most `n` times, with no function, connection or queue pair, and frames held on
the way out with no commit that would hold them. -/
structure Untold (n : Nat) (s : State) : Prop where
  fns : s.fns = []
  drops : s.icp.replyDrops = 0
  commits : s.icp.commits = []
  conns : s.grt.conns = []
  cqps : s.tab.cqps = []
  held : s.pp.egressHeld ≠ []
  behind : ∀ b ∈ s.icp.behind, b.1 = .mctp 9
  leftOver : leftOver ∈ s.icp.waits
  waits : ∀ w ∈ s.icp.waits, w.via = .accel 0 ∧ (w.pkt.opcode = 0x0904 ∨ w.pkt.opcode = 0x0205)
  told : ∀ v r, .reply v r ∈ s.out → Due v r.opcode r.data
  count : s.out.countP toManager ≤ n

theorem Untold.of_posts (h : Untold n t) (hp : Posts s t) : Untold n s := by
  obtain ⟨hs, hf, ho⟩ := hp
  simp only [standby, Prod.mk.injEq] at hs
  obtain ⟨hw, hb, hd, hc, hg, hq, he⟩ := hs
  exact ⟨hf h.fns, hd ▸ h.drops, hc ▸ h.commits, hg ▸ h.conns, hq ▸ h.cqps, he ▸ h.held, hb ▸ h.behind, hw ▸ h.leftOver, hw ▸ h.waits,
    fun v r hr => h.told v r (ho.subset hr), ho.countP_le.trans h.count⟩

theorem Untold.of_foldl {α : Type} {f : State → α → State} {l : List α} (hf : ∀ s, ∀ a ∈ l, Untold n (f s a) → Untold n s)
    (h : Untold n (l.foldl f s)) : Untold n s := by
  induction l generalizing s with
  | nil => exact h
  | cons a l ih => exact hf s a List.mem_cons_self (ih (fun s b hb => hf s b (List.mem_cons_of_mem _ hb)) h)

/-- Before a reply that was due nothing else was told, and to the manager one answer less. -/
theorem Untold.of_sendReply (h : Untold n (sendReply op via pkt st d data s)) :
    Due via op data ∧ Untold n s ∧ (via = .mctp 9 → ∃ m, n = m + 1 ∧ Untold m s) := by
  obtain ⟨r, u, rfl, rfl, hsu, hut⟩ := sendReply_posts h.fns
  have he : Untold n (emit (.reply via r) u) := h.of_posts hut
  refine ⟨he.told via r (List.mem_append_right _ List.mem_cons_self), he.of_posts ((hsu.trans (emit_posts ..))), fun hv => ?_⟩
  have hs : Untold n s := he.of_posts ((hsu.trans (emit_posts ..)))
  have hc : u.out.countP toManager + 1 ≤ n := by
    have := he.count
    simpa [emit, toManager, hv] using this
  have hsu' := hsu.out.countP_le (p := toManager)
  refine ⟨n - 1, by omega, hs.fns, hs.drops, hs.commits, hs.conns, hs.cqps, hs.held, hs.behind, hs.leftOver, hs.waits, hs.told, by omega⟩

theorem Untold.sendReply_due (h : Untold n (sendReply op via pkt st d data s)) : Due via op data := h.of_sendReply.1

theorem not_untold_dropped (s : State) : ¬ Untold n (s.setIcp { s.icp with replyDrops := s.icp.replyDrops + 1 }) :=
  fun h => Nat.succ_ne_zero _ h.drops

/-- A waiting command that ends has told an answer that was due. -/
theorem Untold.of_finishWait (h : Untold n (finishWait w st d data s)) :
    Due w.via w.pkt.opcode data ∧ Untold n (s.setIcp { s.icp with waits := dropFirst (fun x => x == w) s.icp.waits }) := by
  have sent : ∀ {x : State}, Untold n (sendReply w.pkt.opcode w.via w.pkt st d data x) → Due w.via w.pkt.opcode data ∧ Untold n x :=
    fun h => ⟨h.of_sendReply.1, h.of_sendReply.2.1⟩
  unfold finishWait at h
  dsimp only at h
  split at h
  · split at h
    · exact sent h
    · split at h
      · exact absurd h.fns (put_ne_nil _ _ _)
      · exact absurd h (not_untold_dropped _)
  · split at h
    · exact sent h
    · exact absurd h (not_untold_dropped _)
  · exact sent h

/-- Before MIG_FREEZE answered the endpoint nothing else was told. -/
theorem Untold.of_freezeAnswer (h : Untold n (finishWait w st d data s)) (hop : w.pkt.opcode = 0x0904) : Untold n s := by
  obtain ⟨hdue, hs⟩ := h.of_finishWait
  have hvia : w.via = .accel 0 := by
    rcases hdue with ⟨hv, -, -⟩ | ⟨-, ho, -⟩
    · exact hv
    · exact absurd (hop.symm.trans ho) (by decide)
  refine ⟨hs.fns, hs.drops, hs.commits, hs.conns, hs.cqps, hs.held, hs.behind, mem_of_mem_dropFirst hs.leftOver, fun v hv => ?_, hs.told, hs.count⟩
  rcases eq_or_mem_dropFirst (b := w) hv with rfl | hv
  · exact ⟨hvia, .inl hop⟩
  · exact hs.waits v hv

theorem Untold.of_freezeProgress (h : Untold n (freezeProgress s)) : Untold n s := by
  unfold freezeProgress at h
  refine h.of_foldl (fun x w hw hx => ?_)
  split at hx
  · have hop : w.pkt.opcode = 0x0904 := by
      have := (List.mem_filter.1 hw).2
      simp only [Bool.and_eq_true, beq_iff_eq] at this
      exact this.2
    exact (hx.of_freezeAnswer hop).of_posts (.of_eq rfl rfl rfl)
  · exact hx

/-! ### Frames that are dropped -/

theorem writeNic_posts (k : Nat) (c : NicCpl) (s : State) : Posts s (writeNic k c s) := by
  unfold writeNic
  split
  · exact .refl s
  · exact .ite (((setQp_posts ..).trans (dmaOut_posts ..)).trans (raiseMsix_posts ..)) ((setQp_posts ..).trans (dmaOut_posts ..))

theorem postNic_posts (k : Nat) (c : NicCpl) (s : State) : Posts s (postNic k c s) := by
  unfold postNic
  split
  · exact .refl s
  · exact .ite (setQp_posts ..) (writeNic_posts ..)

theorem Untold.of_txDone {fid gen qp index : Nat} {irq : Bool} (h : Untold n (txDone fid gen qp index irq st s)) : Untold n s := by
  unfold txDone at h
  split at h
  · exact h.of_posts (updFn_posts ..)
  · exact h.of_freezeProgress.of_posts (postNic_posts ..)

theorem Untold.of_dropDone {o : Option Nat} {f : EgFrame} (h : Untold n (dropDone o f s)) : Untold n s := by
  unfold dropDone at h
  split at h
  · split at h
    · exact h.of_txDone
    · exact h.of_txDone.of_posts (.of_eq rfl rfl rfl)
  · exact h

theorem Untold.of_dropQueued {i : Nat} (h : Untold n (dropQueued i s)) : Untold n s := by
  unfold dropQueued at h
  exact (h.of_foldl fun x f _ hx => hx.of_dropDone).of_posts (.of_eq rfl rfl rfl)

theorem unstage_posts (otype handle : Nat) (s : State) : Posts s (unstage otype handle s) := .of_eq rfl rfl rfl

theorem unstageSub_posts (i : Nat) (s : State) : Posts s (unstageSub i s) :=
  (unstage_posts ..).trans (.foldl (fun _ _ => unstage_posts ..) _ _)

theorem Untold.of_enqueue {i tc : Nat} {f : EgFrame} (h : Untold n (enqueue i tc f s)) : Untold n s := by
  unfold enqueue at h
  dsimp only at h
  split at h
  · exact h.of_dropDone.of_posts (bumpBy_posts ..)
  · split at h
    · exact h.of_dropDone.of_posts (bumpBy_posts ..)
    · exact h.of_posts (.of_eq rfl rfl rfl)

/-! ### Frames that go on (R414, R487) -/

theorem Untold.conns_nil_of_view (h : Untold n t) (hv : transportView.get t = transportView.get s) : s.grt.conns = [] := by
  have ho : connOwners t.grt.conns = connOwners s.grt.conns := congrArg Prod.fst hv
  rw [h.conns] at ho
  exact List.map_eq_nil_iff.1 ho.symm

theorem Untold.look_fns_of_view (h : Untold n t) (hv : standingView.get t = standingView.get s) (k : Nat) : look s.fns k = none := by
  have hk : fnCore s k = none := by
    rw [← fnCore_of_view hv, fnCore, h.fns]
    rfl
  exact Option.map_eq_none_iff.1 hk

theorem Untold.egress_open (h : Untold n s) : egressPaused s = false := by
  simp [egressPaused, drainsType, h.commits]

theorem not_untold_resumeEgress (s : State) : ¬ Untold n (resumeEgress s) := by
  intro h
  unfold resumeEgress at h
  refine (h.of_foldl fun x e _ hx => ?_).held rfl
  split at hx
  · split at hx
    · next g p _ _ hc =>
      have : x.grt.conns = [] := hx.conns_nil_of_view (by simp)
      rw [connOf, this] at hc
      cases hc
    · exact hx
  · exact hx.of_enqueue

theorem nicTransmit_of_no_fn (hf : ∀ k, look s.fns k = none) (k : Nat) : nicTransmit k s = s := by
  have hn : ∀ fid, nicServed s fid = false := fun fid => by simp [nicServed, fnOf, fnKnown, hf]
  unfold nicTransmit
  split
  · rfl
  · split
    · rfl
    · simp [hn]

theorem resumeNic_of_no_fn (hf : ∀ k, look s.fns k = none) (k i : Nat) : resumeNic k i s = s := by
  induction i with
  | zero => rfl
  | succ i ih => rw [resumeNic, nicTransmit_of_no_fn hf, ih]

theorem resumeNics_of_no_fn (hf : ∀ k, look s.fns k = none) (l : List (Nat × NicQp)) :
    l.foldl (fun s e => resumeNic e.1 e.2.txq.length s) s = s := by
  induction l with
  | nil => rfl
  | cons e l ih => rw [List.foldl_cons, resumeNic_of_no_fn hf, ih]

/-- Where frames may go on none is held. -/
theorem not_untold_resumeIntake (s : State) : ¬ Untold n (resumeIntake s) := by
  intro h
  unfold resumeIntake at h
  extract_lets a b c at h
  split at h
  · next hb => exact absurd h.egress_open (by simp [hb])
  · have hc : c.grt.conns = [] := h.conns_nil_of_view (by simp)
    have hf : ∀ k, look c.fns k = none := h.look_fns_of_view (by simp)
    rw [hc, resumeNics_of_no_fn hf] at h
    exact not_untold_resumeEgress b h

theorem not_untold_goodbyeNow (via : Via) (pkt : IcpPkt) (s : State) : ¬ Untold n (goodbyeNow via pkt s) :=
  fun h => not_untold_resumeIntake _ (h.of_posts (livePause_posts _))

end Sys2Proof.Machine
end

section
/-! PORT_CONFIG of an Ethernet port tells what is due, and only it does (R380, R487). -/

namespace Sys2Proof.Machine

open Sys2Proof

variable {n : Nat} {s t : State} {c : Ctx} {st d : Nat} {data : Bytes} {r : Res} {cs : List (Bool × Nat × Nat)}

theorem checked_eq (s : State) (cs : List (Bool × Nat × Nat)) (r : Res) : (∃ st d, checked s cs r = Res.rej s st d) ∨ checked s cs r = r := by
  unfold checked
  split
  · exact .inl ⟨_, _, rfl⟩
  · exact .inr rfl

theorem setEn_posts (i : Nat) (p : EnPort) (s : State) : Posts s (setEn i p s) := .of_eq rfl rfl rfl
theorem fillPeaks_posts (s : State) : Posts s (fillPeaks s) := .of_eq rfl rfl rfl
theorem warn_posts (i k : Nat) (s : State) : Posts s (warn i k s) := .of_eq rfl rfl rfl

/-- Before PORT_CONFIG of an Ethernet port no more had been told. -/
theorem Untold.of_hPortConfigEthernet (h : Untold n t) (hr : hPortConfigEthernet c s = .reply t st d data) : Untold n s := by
  unfold hPortConfigEthernet at hr
  extract_lets p old new gone changed u subs lanes lanes' v w at hr
  have hu : Untold n u → Untold n s := fun hu => hu.of_foldl fun x i _ hx => (hx.of_posts (unstageSub_posts ..)).of_dropQueued
  have hv : Posts u v := setEn_posts ..
  have hw : Posts u w := Posts.ite (hv.trans (fillPeaks_posts v)) hv
  have hx : Posts u (if changed = true then warn 1 1 (bump (blkEn p) 0x13C w) else w) :=
    .ite (hw.trans ((bumpBy_posts ..).trans (warn_posts ..))) hw
  rcases checked_eq s _ _ with ⟨_, _, he⟩ | he
  · rw [he] at hr
    cases hr
    exact h
  · rw [he] at hr
    cases hr
    exact hu (h.of_posts hx)

/-- The data of an answer that has any begins with a byte. -/
def Res.LedBy (k : Nat) : Res → Prop
  | .reply _ _ _ data => data = [] ∨ le data 0 1 = k
  | .later .. => False

theorem ledBy_rej (k : Nat) (s : State) (st d : Nat) : (Res.rej s st d).LedBy k := .inl rfl

theorem ledBy_ok {k : Nat} {b : Bool} (h : le data 0 1 = k) : (Res.ok s b data).LedBy k := .inr h

theorem ledBy_checked {k : Nat} (h : r.LedBy k) : (checked s cs r).LedBy k := by
  rcases checked_eq s cs r with ⟨_, _, he⟩ | he
  · rw [he]
    exact ledBy_rej ..
  · rw [he]
    exact h

/-- Data that repeats the kind and has no other field there begins with it. -/
theorem le_echo_kind {k : Nat} (hk : c.p 0 1 = k) (l fs : List (Nat × Nat × Nat)) (hl : ∀ f ∈ l, f.1 + f.2.1 ≤ 64 ∧ 1 ≤ f.1)
    (hf : ∀ f ∈ fs, f.1 + f.2.1 ≤ 64 ∧ 1 ≤ f.1) : le (c.echo 64 ((0, 1, 255) :: l) fs) 0 1 = k % 256 := by
  have hafter : ∀ f ∈ l.map (fun f => (f.1, f.2.1, c.p f.1 f.2.1 &&& f.2.2)) ++ fs, f.1 + f.2.1 ≤ 64 ∧ (0 + 1 ≤ f.1 ∨ f.1 + f.2.1 ≤ 0) := by
    intro f hm
    rcases List.mem_append.1 hm with hm | hm
    · obtain ⟨g, hg, rfl⟩ := List.mem_map.1 hm
      exact (hl g hg).imp_right .inl
    · exact (hf f hm).imp_right .inl
  have h255 : k &&& 255 = k % 256 := Nat.and_two_pow_sub_one_eq_mod k 8
  calc le (c.echo 64 ((0, 1, 255) :: l) fs) 0 1
      = (c.p 0 1 &&& 255) % 256 ^ 1 := le_layout (size := 64) [] _ 1 le_rfl (by simp) (by decide) hafter
    _ = k % 256 := by rw [hk, h255]; exact Nat.mod_mod ..

theorem hPortConfigBlock_ledBy (hk : c.p 0 1 = 0) : (hPortConfigBlock c s).LedBy 0 := by
  unfold hPortConfigBlock
  extract_lets n old x hosts
  refine ledBy_checked ?_
  have hn : whole [(0, 1), (1, 1), (2, 1), (3, 1), (4, 1)] ++ [(5, 1, 1)] =
      (0, 1, 255) :: (whole [(1, 1), (2, 1), (3, 1), (4, 1)] ++ [(5, 1, 1)]) := rfl
  rw [Ctx.okEcho, hn]
  exact ledBy_ok (le_echo_kind hk _ _ (by decide) (by simp))

theorem hNicQp_ledBy (hk : c.p 0 1 = 2) : (hNicQp c s).LedBy 2 := by
  unfold hNicQp
  split
  · refine ledBy_checked ?_
    split
    · exact ledBy_ok (le_echo_kind hk nicNames.tail _ (by decide) (by simp))
    · exact ledBy_rej ..
  · exact ledBy_checked (ledBy_ok (le_echo_kind hk nicNames.tail _ (by decide) (by simp)))
  · exact ledBy_rej ..

/-- PORT_CONFIG that answers as for an Ethernet port was one. -/
theorem hPortConfig_ethernet (hr : hPortConfig c s = .reply t st d data) (h1 : le data 0 1 = 1) : hPortConfigEthernet c s = .reply t st d data := by
  have apart : ∀ {k r}, Res.LedBy k r → k ≠ 1 → r ≠ .reply t st d data := by
    rintro k r hl hk rfl
    rcases hl with rfl | hl
    · cases h1
    · exact hk (hl.symm.trans h1)
  unfold hPortConfig at hr
  split at hr
  · next hk => exact absurd hr (apart (hPortConfigBlock_ledBy hk) (by decide))
  · exact hr
  · next hk => exact absurd hr (apart (hNicQp_ledBy hk) (by decide))
  · exact absurd hr (apart (ledBy_rej 0 ..) (by decide))

end Sys2Proof.Machine
end

section
/-! Handlers that answer at once (R54). All but those of fourteen opcodes do; what each of the fourteen leaves for later says so in the state. -/

namespace Sys2Proof.Machine

open Sys2Proof

variable {c : Ctx} {s : State} {r r' : Res} {cs bars : List (Bool × Nat × Nat)}

/-- A handler answers at once. -/
def Res.AtOnce (r : Res) : Prop := ∃ s st d data, r = .reply s st d data

theorem atOnce_reply {st d : Nat} {data : Bytes} : (Res.reply s st d data).AtOnce := ⟨_, _, _, _, rfl⟩
theorem atOnce_rej {st d : Nat} : (Res.rej s st d).AtOnce := ⟨_, _, _, _, rfl⟩
theorem atOnce_ok {b : Bool} {data : Bytes} : (Res.ok s b data).AtOnce := ⟨_, _, _, _, rfl⟩
theorem atOnce_okEcho {k : Nat} {l fs : List (Nat × Nat × Nat)} : (c.okEcho s k l fs).AtOnce := ⟨_, _, _, _, rfl⟩

theorem atOnce_checked (h : r.AtOnce) : (checked s cs r).AtOnce := by
  rcases checked_eq s cs r with ⟨_, _, he⟩ | he
  · rw [he]
    exact atOnce_rej
  · rwa [he]

theorem atOnce_ite {p : Prop} [Decidable p] (h : r.AtOnce) (h' : r'.AtOnce) : (if p then r else r').AtOnce := by
  split
  · exact h
  · exact h'

theorem atOnce_roomThen (h : r.AtOnce) : (roomThen s bars r).AtOnce := by
  obtain ⟨x, st, d, data, rfl⟩ := h
  exact atOnce_ite atOnce_reply (atOnce_checked atOnce_reply)

/-! ### Sessions, straps and the power cap -/

theorem hLeaseRenew_atOnce : (hLeaseRenew c s).AtOnce := atOnce_ok
theorem hGetIdentity_atOnce : (hGetIdentity c s).AtOnce := atOnce_ok
theorem hGetStraps_atOnce : (hGetStraps c s).AtOnce := atOnce_ok
theorem hStrapOverride_atOnce : (hStrapOverride c s).AtOnce := atOnce_checked atOnce_ok
theorem hGetStartReport_atOnce : (hGetStartReport c s).AtOnce := atOnce_ok
theorem hCfgAbort_atOnce : (hCfgAbort c s).AtOnce := atOnce_checked atOnce_ok
theorem hPowerCapSet_atOnce : (hPowerCapSet c s).AtOnce := atOnce_ok

theorem hCfgStage_atOnce : (hCfgStage c s).AtOnce := by
  refine atOnce_checked ?_
  split
  · exact atOnce_rej
  · exact atOnce_ite atOnce_rej (atOnce_ite atOnce_rej (atOnce_ite atOnce_rej (atOnce_ite atOnce_rej (atOnce_ite atOnce_rej atOnce_ok))))

/-! ### Tables, queue pairs and kernels -/

theorem hTableCreate_atOnce : (hTableCreate c s).AtOnce := by
  refine atOnce_checked (atOnce_roomThen ?_)
  split
  · exact atOnce_rej
  · exact atOnce_ok

theorem hTableQuery_atOnce : (hTableQuery c s).AtOnce := by
  unfold hTableQuery
  split
  · exact atOnce_rej
  · exact atOnce_ok

theorem hCqpCreate_atOnce : (hCqpCreate c s).AtOnce := by
  refine atOnce_checked (atOnce_roomThen ?_)
  split
  · refine atOnce_ite atOnce_ok ?_
    dsimp only
    split
    · exact atOnce_ok
    · exact atOnce_rej
  · exact atOnce_rej

theorem hKernelLoad_atOnce : (hKernelLoad c s).AtOnce := by
  refine atOnce_checked ?_
  split
  · exact atOnce_rej
  · exact atOnce_ok

theorem hRuleRegister_atOnce : (hRuleRegister c s).AtOnce := by
  refine atOnce_ite atOnce_rej ?_
  split
  · exact atOnce_rej
  · refine atOnce_ite atOnce_rej ?_
    split
    · exact atOnce_rej
    · exact atOnce_ok

/-! ### Courses, restores and shard maps -/

theorem hCourseOpen_atOnce : (hCourseOpen c s).AtOnce := by
  refine atOnce_checked (atOnce_ite atOnce_reply ?_)
  split
  · exact atOnce_rej
  · exact atOnce_ok

theorem hStepDone_atOnce : (hStepDone c s).AtOnce := atOnce_checked atOnce_ok
theorem hCourseStatus_atOnce : (hCourseStatus c s).AtOnce := atOnce_checked atOnce_ok
theorem hCourseAbort_atOnce : (hCourseAbort c s).AtOnce := atOnce_checked atOnce_ok
theorem hRegionRegister_atOnce : (hRegionRegister c s).AtOnce := atOnce_checked atOnce_ok

theorem hRegionDeregister_atOnce : (hRegionDeregister c s).AtOnce := by
  unfold hRegionDeregister
  split
  · exact atOnce_rej
  · exact atOnce_ite atOnce_rej atOnce_ok

theorem hLedgerQuery_atOnce : (hLedgerQuery c s).AtOnce := atOnce_checked atOnce_ok

theorem hRestoreBegin_atOnce : (hRestoreBegin c s).AtOnce := by
  refine atOnce_checked ?_
  split
  · exact atOnce_rej
  · refine atOnce_checked ?_
    unfold startRestore
    dsimp only
    split
    · exact atOnce_rej
    · exact atOnce_ok

theorem hShardMapLoad_atOnce : (hShardMapLoad c s).AtOnce := by
  refine atOnce_checked (atOnce_ite atOnce_ok ?_)
  split
  · exact atOnce_reply
  · exact atOnce_ok

theorem hRestoreStatus_atOnce : (hRestoreStatus c s).AtOnce := atOnce_checked atOnce_ok

/-! ### Namespaces -/

theorem hNsCreate_atOnce : (hNsCreate c s).AtOnce := by
  refine atOnce_checked (atOnce_roomThen ?_)
  dsimp only
  split
  · exact atOnce_rej
  · exact atOnce_ite atOnce_rej atOnce_ok

theorem hNsDelete_atOnce : (hNsDelete c s).AtOnce := by
  unfold hNsDelete
  dsimp only
  split
  · exact atOnce_rej
  · exact atOnce_ite atOnce_rej (atOnce_ite atOnce_rej (atOnce_ite atOnce_rej atOnce_ok))

theorem hNsAttach_atOnce : (hNsAttach c s).AtOnce := by
  unfold hNsAttach
  dsimp only
  split
  · exact atOnce_rej
  · exact atOnce_checked atOnce_ok

theorem hNsQuery_atOnce : (hNsQuery c s).AtOnce := by
  unfold hNsQuery
  split
  · exact atOnce_rej
  · exact atOnce_ite atOnce_rej atOnce_ok

theorem hSsdList_atOnce : (hSsdList c s).AtOnce := atOnce_ok

theorem hNsMirrorSet_atOnce : (hNsMirrorSet c s).AtOnce := by
  unfold hNsMirrorSet
  dsimp only
  split
  · exact atOnce_rej
  · refine atOnce_checked ?_
    split
    · exact atOnce_checked atOnce_ok
    · exact atOnce_checked atOnce_ok
    · exact atOnce_checked atOnce_ok

/-! ### Ports, the packet path and connections -/

theorem hPortConfig_atOnce : (hPortConfig c s).AtOnce := by
  unfold hPortConfig
  split
  · exact atOnce_checked atOnce_okEcho
  · exact atOnce_checked atOnce_ok
  · unfold hNicQp
    split
    · refine atOnce_checked ?_
      split
      · exact atOnce_ok
      · exact atOnce_rej
    · exact atOnce_checked atOnce_ok
    · exact atOnce_rej
  · exact atOnce_rej

theorem hPortQuery_atOnce : (hPortQuery c s).AtOnce := by
  unfold hPortQuery
  split
  · exact atOnce_checked atOnce_ok
  · exact atOnce_ite atOnce_rej atOnce_ok
  · exact atOnce_rej

theorem hSamplerSet_atOnce : (hSamplerSet c s).AtOnce := atOnce_checked atOnce_okEcho

theorem hGrtConnCreate_atOnce : (hGrtConnCreate c s).AtOnce := by
  refine atOnce_checked (atOnce_roomThen ?_)
  split
  · exact atOnce_rej
  · refine atOnce_ite atOnce_ok ?_
    split
    · exact atOnce_ok
    · exact atOnce_rej

theorem hGrtConnDestroy_atOnce : (hGrtConnDestroy c s).AtOnce := by
  unfold hGrtConnDestroy
  dsimp only
  split
  · exact atOnce_rej
  · exact atOnce_ok

theorem hMrRegister_atOnce : (hMrRegister c s).AtOnce := by
  refine atOnce_checked (atOnce_roomThen ?_)
  split
  · exact atOnce_rej
  · exact atOnce_ok

theorem hGrtConnQuery_atOnce : (hGrtConnQuery c s).AtOnce := by
  unfold hGrtConnQuery
  dsimp only
  split
  · exact atOnce_rej
  · exact atOnce_ok

/-! ### What may be staged -/

theorem hClsEntryWrite_atOnce : (hClsEntryWrite c s).AtOnce := by
  refine atOnce_checked (atOnce_ite (atOnce_checked atOnce_ok) ?_)
  split
  · exact atOnce_ok
  · exact atOnce_reply

theorem hIndirectionWrite_atOnce : (hIndirectionWrite c s).AtOnce := by
  unfold hIndirectionWrite
  split
  · exact atOnce_checked atOnce_ok
  · exact atOnce_checked atOnce_ok
  · exact atOnce_rej

theorem hCoursePolicySet_atOnce : (hCoursePolicySet c s).AtOnce := by
  refine atOnce_checked (atOnce_roomThen ?_)
  split
  · exact atOnce_rej
  · exact atOnce_okEcho

theorem hTableCapturePolicy_atOnce : (hTableCapturePolicy c s).AtOnce := by
  unfold hTableCapturePolicy hCapturePolicy
  dsimp only
  split
  · exact atOnce_rej
  · exact atOnce_checked atOnce_ok

theorem stageHandler_atOnce (t : Nat) : (stageHandler t c s).AtOnce := by
  unfold stageHandler
  split
  · exact atOnce_checked atOnce_okEcho
  · exact hClsEntryWrite_atOnce
  · exact hIndirectionWrite_atOnce
  · exact atOnce_checked atOnce_okEcho
  · exact atOnce_checked atOnce_okEcho
  · exact atOnce_checked atOnce_okEcho
  · exact hCoursePolicySet_atOnce
  · exact hTableCapturePolicy_atOnce
  · exact atOnce_checked atOnce_okEcho

theorem direct_atOnce (t : Nat) : (direct t c s).AtOnce := by
  obtain ⟨x, st, d, data, he⟩ := stageHandler_atOnce (c := c) (s := s) t
  simp only [direct, he]
  exact atOnce_ite (atOnce_ite atOnce_rej atOnce_rej) atOnce_reply

/-! ### Keys and the life cycle -/

theorem hKeyProvision_atOnce : (hKeyProvision c s).AtOnce := by
  refine atOnce_checked ?_
  split
  · exact atOnce_rej
  · refine atOnce_ite atOnce_rej ?_
    split
    · exact atOnce_rej
    · exact atOnce_ok

theorem hKeyErase_atOnce : (hKeyErase c s).AtOnce := by
  unfold hKeyErase
  dsimp only
  split
  · exact atOnce_rej
  · exact atOnce_ite atOnce_rej atOnce_ok

theorem hLifecycleTransition_atOnce : (hLifecycleTransition c s).AtOnce := atOnce_checked (atOnce_ite atOnce_reply atOnce_ok)
theorem hGetCertChain_atOnce : (hGetCertChain c s).AtOnce := atOnce_ite atOnce_rej (atOnce_ite atOnce_rej atOnce_ok)
theorem hSecurityStatus_atOnce : (hSecurityStatus c s).AtOnce := atOnce_ok

/-! ### Errors, counters, firmware and the dump -/

theorem hErrQuery_atOnce : (hErrQuery c s).AtOnce := atOnce_ite atOnce_ok (atOnce_checked atOnce_ok)

theorem hErrAck_atOnce : (hErrAck c s).AtOnce :=
  atOnce_checked (atOnce_ite (atOnce_ite atOnce_reply (atOnce_ite atOnce_ok atOnce_reply)) (atOnce_ite atOnce_reply atOnce_ok))

theorem hCounterSelect_atOnce : (hCounterSelect c s).AtOnce := atOnce_checked atOnce_okEcho
theorem hCounterRead_atOnce : (hCounterRead c s).AtOnce := atOnce_checked atOnce_ok
theorem hPolicyLogRead_atOnce : (hPolicyLogRead c s).AtOnce := atOnce_ok

theorem hFwStage_atOnce : (hFwStage c s).AtOnce := by
  refine atOnce_checked (atOnce_ite atOnce_ok ?_)
  split
  · exact atOnce_reply
  · exact atOnce_ok

theorem hFwQuery_atOnce : (hFwQuery c s).AtOnce := atOnce_ok
theorem hDiagRun_atOnce {k : Nat} : (hDiagRun k c s).AtOnce := atOnce_checked atOnce_ok

theorem hDiagResult_atOnce : (hDiagResult c s).AtOnce := by
  unfold hDiagResult
  split
  · exact atOnce_rej
  · exact atOnce_ite atOnce_rej atOnce_ok

theorem hDumpRead_atOnce : (hDumpRead c s).AtOnce := atOnce_checked atOnce_ok

/-! ### Functions and migration -/

theorem hFnCreate_atOnce : (hFnCreate c s).AtOnce := atOnce_checked atOnce_ok
theorem hGetFunctionState_atOnce : (hGetFunctionState c s).AtOnce := atOnce_checked atOnce_ok
theorem hMigSave_atOnce : (hMigSave c s).AtOnce := atOnce_checked atOnce_ok
theorem hMigResume_atOnce : (hMigResume c s).AtOnce := atOnce_checked atOnce_ok
theorem hDirtyLogStart_atOnce : (hDirtyLogStart c s).AtOnce := atOnce_checked atOnce_ok
theorem hDirtyLogStop_atOnce : (hDirtyLogStop c s).AtOnce := atOnce_checked atOnce_ok

theorem hMigRestore_atOnce : (hMigRestore c s).AtOnce := by
  refine atOnce_checked (atOnce_ite ?_ atOnce_ok)
  unfold finishRestore
  dsimp only
  split
  · exact atOnce_reply
  · split
    · exact atOnce_ite atOnce_ok (atOnce_ite atOnce_ok atOnce_reply)
    · exact atOnce_reply

end Sys2Proof.Machine
end

section
/-! What is left for later is heard of: a command that waits, a reply that was dropped, or whatever else lets a part go on. -/

namespace Sys2Proof.Machine

open Sys2Proof

variable {n : Nat} {c : Ctx} {s t : State} {r r' : Res} {cs bars : List (Bool × Nat × Nat)} {P : State → Prop} {w : Waiter}

/-- More was heard of the part than was due. -/
def Heard (s : State) : Prop := ∀ n, ¬ Untold n s

theorem heard_of_posts (h : Heard s) (hp : Posts s t) : Heard t := fun n ht => h n (ht.of_posts hp)

/-- A command that waits, unless it is one of those that may. -/
theorem heard_addWait (kind : WaitKind) (obj count : Nat) (s : State)
    (h : c.via = .accel 0 → c.pkt.opcode ≠ 0x0904 ∧ c.pkt.opcode ≠ 0x0205) : Heard (addWait c kind obj count s) := by
  intro n hu
  obtain ⟨hv, ho⟩ := hu.waits _ (List.mem_append_right _ List.mem_cons_self)
  obtain ⟨h4, h5⟩ := h hv
  exact ho.elim h4 h5

theorem heard_addWait_of_opcode {k : Nat} (ho : c.pkt.opcode = k) (hk : k ≠ 0x0904 ∧ k ≠ 0x0205) {kind : WaitKind} {obj count : Nat} :
    Heard (addWait c kind obj count s) := heard_addWait _ _ _ _ fun _ => ho.symm ▸ hk

theorem heard_dropped (s : State) : Heard (s.setIcp { s.icp with replyDrops := s.icp.replyDrops + 1 }) := fun _ => not_untold_dropped s

/-! ### Settling (R80, R249) -/

/-- What is made of one waiting TABLE_DESTROY, CQP_DESTROY or KERNEL_UNLOAD. -/
def destroyStep (s : State) (w : Waiter) : State :=
  if w.pkt.opcode = 0x0201 ∧ !tableBusy s w.obj then
    finishWait w stOk dtNone (layout 8 [(0, 4, (tblD s w.obj).handle), (4, 4, tableFrames s w.obj)]) (freeTable w.obj s)
  else if w.pkt.opcode = 0x0205 ∧ (cqpD s w.obj).running.isEmpty then
    finishWait w stOk dtNone (layout 8 [(0, 4, w.obj), (4, 4, (cqpD s w.obj).closedCount)]) (removeCqp w.obj s)
  else if w.pkt.opcode = 0x0211 ∧ !kernelBusy s w.obj then
    finishWait w stOk dtNone (layout 8 [(0, 4, ((look s.mason.kernels w.obj).map (·.handle)).getD 0), (4, 4, w.count)]) (releaseKernel w.obj s)
  else s

theorem destroyProgress_eq (s : State) :
    destroyProgress s = freezeProgress ((s.icp.waits.filter (fun w => w.kind == .destroy)).foldl destroyStep s) := rfl

theorem not_untold_finishWait {st d : Nat} {data : Bytes} (h4 : w.pkt.opcode ≠ 0x0904) (h5 : w.pkt.opcode ≠ 0x0500) :
    ¬ Untold n (finishWait w st d data s) := by
  intro h
  rcases h.of_finishWait.1 with ⟨-, ho, -⟩ | ⟨-, ho, -⟩
  · exact h4 ho
  · exact h5 ho

/-- None of them has ended, so none could. -/
theorem Untold.of_destroyStep (h : Untold n (destroyStep s w)) :
    destroyStep s w = s ∧ (w.pkt.opcode = 0x0205 → (cqpD s w.obj).running.isEmpty = false) := by
  unfold destroyStep at h ⊢
  split
  · next ho => rw [if_pos ho] at h; exact absurd h (not_untold_finishWait (by simp [ho.1]) (by simp [ho.1]))
  · next h1 =>
    rw [if_neg h1] at h
    split
    · next ho => rw [if_pos ho] at h; exact absurd h (not_untold_finishWait (by simp [ho.1]) (by simp [ho.1]))
    · next h2 =>
      rw [if_neg h2] at h
      have hq : w.pkt.opcode = 0x0205 → (cqpD s w.obj).running.isEmpty = false := fun ho => by simpa [ho] using h2
      split
      · next ho => rw [if_pos ho] at h; exact absurd h (not_untold_finishWait (by simp [ho.1]) (by simp [ho.1]))
      · exact ⟨rfl, hq⟩

theorem Untold.of_destroySteps {l : List Waiter} (h : Untold n (l.foldl destroyStep s)) :
    l.foldl destroyStep s = s ∧ ∀ w ∈ l, w.pkt.opcode = 0x0205 → (cqpD s w.obj).running.isEmpty = false := by
  induction l generalizing s with
  | nil => exact ⟨rfl, by simp⟩
  | cons a l ih =>
    obtain ⟨hl, hq⟩ := ih h
    rw [List.foldl_cons, hl] at h
    obtain ⟨ha, hqa⟩ := h.of_destroyStep
    rw [ha] at hl hq
    refine ⟨by rw [List.foldl_cons, ha, hl], fun w hw => ?_⟩
    rcases List.mem_cons.1 hw with rfl | hw
    · exact hqa
    · exact hq w hw

/-- What is left over would have been answered. -/
theorem heard_destroyProgress (s : State) : Heard (destroyProgress s) := by
  intro n h
  rw [destroyProgress_eq] at h
  have hl := h.of_freezeProgress
  obtain ⟨he, hq⟩ := hl.of_destroySteps
  rw [he] at hl
  have := hq leftOver (List.mem_filter.2 ⟨hl.leftOver, rfl⟩) rfl
  simp [cqpD, lookD, hl.cqps, look] at this

theorem heard_settleN (k : Nat) (s : State) : Heard (settleN (k + 1) s) := by
  induction k generalizing s with
  | zero => exact heard_destroyProgress _
  | succ k ih => exact ih (settleOnce s)

theorem heard_settle (s : State) : Heard (settle s) := by
  unfold settle settleFuel
  rw [Nat.add_assoc, Nat.add_comm]
  exact heard_settleN _ _

/-! ### The fourteen handlers -/

/-- Where a handler leaves its reply for later, the state it leaves satisfies `P`. -/
def Res.Later (P : State → Prop) : Res → Prop
  | .reply .. => True
  | .later s _ _ => P s

theorem Res.AtOnce.later (h : r.AtOnce) : r.Later P := by
  obtain ⟨s, st, d, data, rfl⟩ := h
  trivial

theorem later_checked (h : r.Later P) : (checked s cs r).Later P := by
  rcases checked_eq s cs r with ⟨_, _, he⟩ | he
  · rw [he]
    trivial
  · rwa [he]

theorem later_ite {p : Prop} [Decidable p] (h : r.Later P) (h' : r'.Later P) : (if p then r else r').Later P := by
  split
  · exact h
  · exact h'

theorem later_roomThen (h : r.Later P) : (roomThen s bars r).Later P := by
  cases r with
  | reply x st d data => exact later_ite trivial (later_checked trivial)
  | later x d data => exact later_checked h

theorem helloNow_atOnce : (helloNow c s).AtOnce := by
  unfold helloNow
  split
  · exact atOnce_reply
  · exact atOnce_ite atOnce_rej atOnce_ok

theorem hHello_later : (hHello c s).Later Heard := by
  have hwait : Heard (addWait { c with pkt := { c.pkt with opcode := 0 } } .barrier 0 (waitsOf s c.via).length s) :=
    heard_addWait_of_opcode (k := 0) rfl (by decide)
  refine later_ite helloNow_atOnce.later ?_
  split
  · exact later_ite hwait (later_ite trivial hwait)
  · exact hwait

theorem hGoodbye_later : (hGoodbye c s).Later Heard :=
  later_ite (fun _ => not_untold_goodbyeNow _ _ _) (heard_addWait_of_opcode (k := 1) rfl (by decide))

theorem hFlush_later : (hFlush c s).Later Heard := later_ite trivial (heard_addWait_of_opcode (k := 3) rfl (by decide))

theorem hCfgCommit_later (mode : Nat) : (hCfgCommit mode c s).Later Heard := by
  have hwait : ∀ kind k x, Heard (addWait { c with pkt := { c.pkt with opcode := 0x0111 } } kind 0 k x) :=
    fun _ _ _ => heard_addWait_of_opcode (k := 0x0111) rfl (by decide)
  refine later_checked ?_
  split
  · trivial
  · exact later_ite (later_ite (hwait _ _ _) trivial) (hwait _ _ _)

theorem hFwActivate_later (mode : Nat) : (hFwActivate mode c s).Later Heard := by
  have hwait : ∀ x, Heard (addWait { c with pkt := { c.pkt with opcode := 0x0801 } } .activate 0 0 x) :=
    fun _ => heard_addWait_of_opcode (k := 0x0801) rfl (by decide)
  refine later_checked ?_
  split
  · trivial
  · trivial
  · exact heard_of_posts (hwait _) (livePause_posts _)
  · exact hwait _

theorem hTableDestroy_later (ho : c.pkt.opcode = 0x0201) : (hTableDestroy c s).Later Heard := by
  unfold hTableDestroy
  split
  · trivial
  · refine later_ite trivial (later_ite trivial (later_ite ?_ trivial))
    exact heard_addWait_of_opcode ho (by decide)

theorem hCqpDestroy_later (hv : c.via ≠ .accel 0) : (hCqpDestroy c s).Later Heard := by
  unfold hCqpDestroy
  dsimp only
  split
  · trivial
  · exact later_ite trivial (later_ite trivial (heard_addWait _ _ _ _ (fun h => absurd h hv)))

theorem hKernelUnload_later (ho : c.pkt.opcode = 0x0211) : (hKernelUnload c s).Later Heard := by
  unfold hKernelUnload
  split
  · trivial
  · refine later_ite trivial (later_ite trivial (later_ite ?_ trivial))
    exact heard_addWait_of_opcode ho (by decide)

theorem hShardAdopt_later : (hShardAdopt c s).Later Heard := by
  unfold hShardAdopt
  dsimp only
  split
  · trivial
  · refine later_checked (later_roomThen ?_)
    split
    · trivial
    · exact later_ite trivial (heard_settle _)

theorem hAdopt_later (ho : c.pkt.opcode = 0x0313) : (hAdopt c s).Later Heard := by
  refine later_ite (later_ite trivial (later_ite ?_ trivial)) hShardAdopt_later
  exact heard_addWait_of_opcode ho (by decide)

theorem hNsDetach_later (ho : c.pkt.opcode = 0x0403) : (hNsDetach c s).Later Heard := by
  unfold hNsDetach
  dsimp only
  split
  · trivial
  · exact later_checked (later_ite (heard_addWait_of_opcode ho (by decide)) trivial)

theorem hMrRevoke_later (ho : c.pkt.opcode = 0x0513) : (hMrRevoke c s).Later Heard := by
  unfold hMrRevoke
  dsimp only
  split
  · trivial
  · exact later_ite trivial (later_ite trivial (heard_addWait_of_opcode ho (by decide)))

theorem hFnDestroy_later : (hFnDestroy c s).Later Heard := later_checked (later_ite (heard_dropped _) trivial)
theorem hFnReset_later : (hFnReset c s).Later Heard := later_checked (later_ite (heard_dropped _) trivial)

theorem hMigFreeze_later (hv : c.via ≠ .accel 0) : (hMigFreeze c s).Later Heard :=
  later_checked (later_ite trivial (heard_addWait _ _ _ _ (fun h => absurd h hv)))

/-- Whatever handler leaves its reply for later, it is heard of; of the commands that might wait unheard an accelerator endpoint issues none. -/
theorem handlers_later : ∀ e ∈ handlers, c.pkt.opcode = e.1 → (c.via = .accel 0 → e.1 ≠ 0x0904 ∧ e.1 ≠ 0x0205) → (e.2 c s).Later Heard := by
  simp only [handlers, List.cons_append, List.nil_append, List.forall_mem_cons]
  exact ⟨fun _ _ => hHello_later, fun _ _ => hGoodbye_later, fun _ _ => hLeaseRenew_atOnce.later, fun _ _ => hFlush_later,
    fun _ _ => hGetIdentity_atOnce.later, fun _ _ => hGetStraps_atOnce.later, fun _ _ => hStrapOverride_atOnce.later,
    fun _ _ => hGetStartReport_atOnce.later, fun _ _ => hCfgStage_atOnce.later, fun _ _ => hCfgCommit_later _,
    fun _ _ => hCfgAbort_atOnce.later, fun _ _ => hPowerCapSet_atOnce.later, fun _ _ => hTableCreate_atOnce.later,
    fun ho _ => hTableDestroy_later ho, fun _ _ => hTableQuery_atOnce.later, fun _ _ => hCqpCreate_atOnce.later,
    fun _ hv => hCqpDestroy_later fun h => (hv h).2 rfl, fun _ _ => hKernelLoad_atOnce.later, fun ho _ => hKernelUnload_later ho,
    fun _ _ => hRuleRegister_atOnce.later,
    fun _ _ => (direct_atOnce _).later, fun _ _ => hCourseOpen_atOnce.later, fun _ _ => hStepDone_atOnce.later,
    fun _ _ => hCourseStatus_atOnce.later, fun _ _ => hCourseAbort_atOnce.later, fun _ _ => hRegionRegister_atOnce.later,
    fun _ _ => hRegionDeregister_atOnce.later, fun _ _ => (direct_atOnce _).later, fun _ _ => hLedgerQuery_atOnce.later,
    fun _ _ => hRestoreBegin_atOnce.later, fun _ _ => hShardMapLoad_atOnce.later, fun _ _ => hRestoreStatus_atOnce.later,
    fun ho _ => hAdopt_later ho, fun _ _ => hNsCreate_atOnce.later, fun _ _ => hNsDelete_atOnce.later, fun _ _ => hNsAttach_atOnce.later,
    fun ho _ => hNsDetach_later ho, fun _ _ => hNsQuery_atOnce.later, fun _ _ => hSsdList_atOnce.later, fun _ _ => hNsMirrorSet_atOnce.later,
    fun _ _ => hPortConfig_atOnce.later, fun _ _ => hPortQuery_atOnce.later, fun _ _ => (direct_atOnce _).later,
    fun _ _ => (direct_atOnce _).later, fun _ _ => (direct_atOnce _).later, fun _ _ => (direct_atOnce _).later,
    fun _ _ => (direct_atOnce _).later, fun _ _ => (direct_atOnce _).later, fun _ _ => hSamplerSet_atOnce.later,
    fun _ _ => hGrtConnCreate_atOnce.later, fun _ _ => hGrtConnDestroy_atOnce.later, fun _ _ => hMrRegister_atOnce.later,
    fun ho _ => hMrRevoke_later ho, fun _ _ => hGrtConnQuery_atOnce.later, fun _ _ => hKeyProvision_atOnce.later,
    fun _ _ => hKeyErase_atOnce.later, fun _ _ => hLifecycleTransition_atOnce.later, fun _ _ => hGetCertChain_atOnce.later,
    fun _ _ => hSecurityStatus_atOnce.later, fun _ _ => hErrQuery_atOnce.later,
    fun _ _ => hErrAck_atOnce.later, fun _ _ => hCounterSelect_atOnce.later, fun _ _ => hCounterRead_atOnce.later,
    fun _ _ => (direct_atOnce _).later, fun _ _ => hPolicyLogRead_atOnce.later, fun _ _ => hFwStage_atOnce.later,
    fun _ _ => hFwActivate_later _, fun _ _ => hFwQuery_atOnce.later, fun _ _ => hFnCreate_atOnce.later, fun _ _ => hFnDestroy_later,
    fun _ _ => hFnReset_later, fun _ _ => hGetFunctionState_atOnce.later, fun _ hv => hMigFreeze_later fun h => (hv h).1 rfl,
    fun _ _ => hMigSave_atOnce.later, fun _ _ => hMigRestore_atOnce.later, fun _ _ => hMigResume_atOnce.later,
    fun _ _ => hDirtyLogStart_atOnce.later, fun _ _ => hDirtyLogStop_atOnce.later, fun _ _ => hDiagRun_atOnce.later,
    fun _ _ => hDiagResult_atOnce.later, fun _ _ => hDumpRead_atOnce.later, by simp⟩

theorem handlerOf_later {op : Nat} (ho : c.pkt.opcode = op) (hv : c.via = .accel 0 → op ≠ 0x0904 ∧ op ≠ 0x0205) :
    (handlerOf op c s).Later Heard := by
  cases hf : handlers.find? (fun h => h.1 == op) with
  | some e =>
    have hop : e.1 = op := by simpa using List.find?_some hf
    simp only [handlerOf, hf]
    exact handlers_later e (List.mem_of_find?_eq_some hf) (ho.trans hop.symm) (hop.symm ▸ hv)
  | none =>
    simp only [handlerOf, hf]
    trivial

end Sys2Proof.Machine
end

section
/-! What lets a part go on tells something (R54, R70, R83). -/

namespace Sys2Proof.Machine

open Sys2Proof

variable {n op : Nat} {via : Via} {pkt : IcpPkt} {s t : State}

theorem not_due_nil : ¬ Due via op [] := by
  rintro (⟨-, -, h⟩ | ⟨-, -, h⟩) <;> exact absurd h (by decide)

/-- A command that passes its checks is listed for its issuer (R72 step 7). -/
theorem issuerListed_of_icpCheck {o : OpSpec} (h : icpCheck op via pkt s = none) (ho : opSpec op = some o) :
    issuerListed o (issuerOf s via) = true := by
  have hpass := pass_of_firstBad_none h (!issuerListed o (issuerOf s via), stNotPermitted, dtIssuerKind)
    (by simp only [icpChecks, ho]; simp)
  simpa using hpass

/-- Neither MIG_FREEZE nor CQP_DESTROY is listed for an accelerator endpoint (R77). -/
theorem icpCheck_accel_unlisted {ep : Nat} (h : icpCheck op (.accel ep) pkt s = none) : op ≠ 0x0904 ∧ op ≠ 0x0205 := by
  constructor <;> rintro rfl <;> exact absurd (issuerListed_of_icpCheck h rfl) (by simp [issuerListed, issuerOf])

theorem releaseSpare_posts (via : Via) (pkt : IcpPkt) (u s : State) : Posts s (releaseSpare via pkt u s) := by
  unfold releaseSpare
  dsimp only
  split
  · exact .ite (setRing_posts ..) (.refl s)
  · exact .refl s

/-- A command that starts and tells only what is due is a PORT_CONFIG of the manager. -/
theorem Untold.of_startPkt (h : Untold n (startPkt via pkt s)) : via = .mctp 9 ∧ ∃ m, n = m + 1 ∧ Untold m s := by
  have hi := h.of_posts (releaseSpare_posts ..)
  unfold icpStart at hi
  split at hi
  · exact absurd hi.sendReply_due not_due_nil
  · next hc =>
    have hv : via = .accel 0 → pkt.opcode ≠ 0x0904 ∧ pkt.opcode ≠ 0x0205 := fun hv => icpCheck_accel_unlisted (hv ▸ hc)
    have sent : ∀ {st d data x}, Untold n (sendReply pkt.opcode via pkt st d data x) →
        pkt.opcode = 0x0500 ∧ le data 0 1 = 1 ∧ via = .mctp 9 ∧ ∃ m, n = m + 1 ∧ Untold m x := by
      intro st d data x hx
      obtain ⟨hdue, -, hm⟩ := hx.of_sendReply
      rcases hdue with ⟨hva, ho, -⟩ | ⟨hvm, ho, hd⟩
      · exact absurd ho (hv hva).1
      · exact ⟨ho, hd, hvm, hm hvm⟩
    dsimp only at hi
    split at hi
    · exact absurd hi.sendReply_due not_due_nil
    · split at hi
      · next x st d data hr =>
        split at hi
        · exact (sent hi).2.2
        · obtain ⟨ho, hd, hvm, m, hn, hx⟩ := sent hi
          rw [ho] at hr
          exact ⟨hvm, m, hn, hx.of_hPortConfigEthernet (hPortConfig_ethernet hr hd)⟩
      · next x d data hr =>
        split at hi
        · obtain ⟨ho, -⟩ := sent hi
          rw [ho] at hr
          obtain ⟨y, st, d', data', he⟩ := hPortConfig_atOnce (s := s)
            (c := { via := via, pkt := { pkt with opcode := 0x0500 }, iss := issuerOf s via, sess := sessionOf s via })
          exact absurd (hr.symm.trans he) Res.noConfusion
        · have hl := handlerOf_later (s := s) (op := pkt.opcode)
            (c := { via := via, pkt := { pkt with opcode := pkt.opcode }, iss := issuerOf s via, sess := sessionOf s via }) rfl hv
          rw [hr] at hl
          exact absurd hi (hl n)

theorem not_untold_finishBarrier (w : Waiter) (s : State) : ¬ Untold n (finishBarrier w s) := by
  unfold finishBarrier
  split
  · next ho => exact not_untold_finishWait (by simp [ho]) (by simp [ho])
  · dsimp only
    split
    · exact not_untold_goodbyeNow _ _ _
    · intro h
      obtain ⟨x, st, d, data, he⟩ := helloNow_atOnce (s := s.setIcp { s.icp with waits := dropFirst (fun x => x == w) s.icp.waits })
        (c := { via := w.via, pkt := w.pkt, iss := issuerOf (s.setIcp { s.icp with waits := dropFirst (fun x => x == w) s.icp.waits }) w.via,
                sess := sessionOf (s.setIcp { s.icp with waits := dropFirst (fun x => x == w) s.icp.waits }) w.via })
      simp only [he] at h
      rcases h.sendReply_due with ⟨-, ho, -⟩ | ⟨-, ho, -⟩ <;> cases ho

theorem not_untold_finishRolling {w : Waiter} (hw : rolledOut s w = true) : ¬ Untold n (finishRolling s w) := by
  intro h
  unfold finishRolling at h
  simp only [rolledOut, Bool.and_eq_true] at hw
  split at h
  · next v k hk =>
    have hu : unflipped s k.owner = false := by simpa [hk] using hw.2
    rw [if_neg (by simp [hu])] at h
    have h32 : ∀ b ap time, (commitReply 0 b ap 0 time).length = 32 := fun _ _ _ => layout_length (by simp)
    have h0 : ∀ b ap time, le (commitReply 0 b ap 0 time) 0 1 = 0 := fun _ _ _ => le_layout [] _ 1 le_rfl (by simp) (by decide) (by simp)
    rcases h.of_finishWait.1 with ⟨-, -, hl⟩ | ⟨-, -, hd⟩
    · exact absurd ((h32 ..).symm.trans hl) (by decide)
    · exact absurd ((h0 ..).symm.trans hd) (by decide)
  · next hk => simp [hk] at hw

theorem viaOf_ne_mctp (k eid : Nat) : viaOf k ≠ .mctp eid := by
  unfold viaOf
  split <;> exact Via.noConfusion

/-- A command of a ring that is taken is heard of. -/
theorem heard_acceptPkt_ring (k : Nat) (pkt : IcpPkt) (s : State) : Heard (acceptPkt (viaOf k) pkt s) := by
  intro n h
  have hkept : keptReply s (viaOf k) pkt.tag = none := by
    unfold viaOf
    split <;> rfl
  simp only [acceptPkt, hkept] at h
  split at h
  · exact viaOf_ne_mctp k 9 (h.behind (viaOf k, pkt) (List.mem_append_right _ List.mem_cons_self))
  · exact viaOf_ne_mctp k 9 h.of_startPkt.1

/-- Each step by which a part goes on tells the manager what is due. -/
theorem Untold.of_wakeOnce (hw : wakeOnce s = some t) (h : Untold n t) : ∃ m, n = m + 1 ∧ Untold m s := by
  unfold wakeOnce at hw
  split at hw
  · cases hw
    exact absurd h (not_untold_finishBarrier _ _)
  · split at hw
    · next w hf =>
      cases hw
      exact absurd (h.of_posts (livePause_posts _)) (not_untold_finishRolling (List.find?_some hf))
    · split at hw
      · next b _ =>
        cases hw
        obtain ⟨hb, m, hn, hm⟩ := h.of_startPkt
        refine ⟨m, hn, hm.fns, hm.drops, hm.commits, hm.conns, hm.cqps, hm.held, fun a ha => ?_, hm.leftOver, hm.waits, hm.told, hm.count⟩
        rcases eq_or_mem_dropFirst (b := b) ha with rfl | ha
        · exact hb
        · exact hm.behind a ha
      · split at hw
        · next k _ =>
          obtain ⟨p, -, rfl⟩ := Option.map_eq_some_iff.1 hw
          exact absurd h (heard_acceptPkt_ring _ _ _ n)
        · cases hw

/-- A part that has already told the manager goes on no further. -/
theorem wakeFor_of_told {k : Nat} (hs : ¬ Untold 0 s) (h : Untold 1 (wakeFor k s)) : wakeFor k s = s := by
  induction k generalizing s with
  | zero => rfl
  | succ k ih =>
    unfold wakeFor at h ⊢
    cases hw : wakeOnce s with
    | none => rfl
    | some u =>
      simp only [hw] at h
      have hu : ¬ Untold 0 u := fun hu => by obtain ⟨m, hm, -⟩ := hu.of_wakeOnce hw; cases hm
      rw [ih hu h] at h
      obtain ⟨m, hm, hsm⟩ := h.of_wakeOnce hw
      obtain rfl : m = 0 := by omega
      exact absurd hsm hs

end Sys2Proof.Machine
end

section
/-! The part that refutes it: a VF's migration is to be frozen for an accelerator endpoint whose reply ring lies in custody memory, and waits for a
frame of that VF on a sub-port which the manager's PORT_CONFIG removes. -/

namespace Sys2Proof.Machine

open Sys2Proof

/-- MIG_FREEZE of the VF 0x1000 for the accelerator endpoint 0, not answered yet. -/
def frozenWait : Waiter :=
  { via := .accel 0, pkt := { opcode := 0x0904 }, kind := .destroy, gen := genOf State.reset 0x4000, obj := 0x1000 }

/-- Port 0 with the frame of the VF that the MIG_FREEZE waits for in a queue of its first sub-port. -/
def queuedPort : EnPort :=
  { mode := 1, subs := [{ queues := [[{ src := .nic 0x1000 1 0 0 false, len := 64 }], [], [], [], [], [], [], []] }, {}, {}, {}] }

/-- The endpoint's reply ring in custody memory. -/
def custodyRing : QRing := { hp := 0, page := 0, pages := 1, frames := [5], owner := 0x4000, queue := none, reply := true }

def freezingPart : State :=
  let s := (State.reset.setBoot { State.reset.boot with inReset := false, stage := 3 }).setFns []
  let s := s.setIcp { s.icp with sessions := [(.mctp 9, { sid := 1, major := 3, minor := 1 })], waits := [frozenWait, leftOver] }
  let s := s.setPorts { s.ports with qrings := [custodyRing] }
  s.setPp { s.pp with en := [(0, queuedPort)], egressHeld := [(0, 0, { src := .grt 0, len := 64 })] }

/-- The manager asks for mode 0 of port 0. -/
def modeCommand : IcpPkt :=
  { major := 3, minor := 1, functionId := 0x3009, sessionId := 1, paramLen := 64, params := layout 64 [(0, 1, 1), (1, 1, 0), (4, 2, 1518)] }

/-- The part when the command is done. -/
def frozenPart : State :=
  match exec (.portConfigEthernet (.mctp 9) modeCommand) freezingPart with
  | .next t => t
  | _ => freezingPart

theorem exec_modeCommand : exec (.portConfigEthernet (.mctp 9) modeCommand) freezingPart = .next frozenPart := rfl

/-- An output that is due, or no reply. -/
def outDue : Out → Bool
  | .reply v r => (v == .accel 0 && r.opcode == 0x0904 && r.data.length == 16) || (v == .mctp 9 && r.opcode == 0x0500 && le r.data 0 1 == 1)
  | _ => true

theorem due_of_outDue {v : Via} {r : IcpReply} (h : outDue (.reply v r) = true) : Due v r.opcode r.data := by
  simp only [outDue, Bool.or_eq_true, Bool.and_eq_true, beq_iff_eq] at h
  exact h.imp (fun h => ⟨h.1.1, h.1.2, h.2⟩) (fun h => ⟨h.1.1, h.1.2, h.2⟩)

theorem frozenPart_out : frozenPart.out.all outDue = true := by decide +kernel

theorem frozenPart_untold : Untold 1 frozenPart where
  fns := by decide +kernel
  drops := by decide +kernel
  commits := by decide +kernel
  conns := by decide +kernel
  cqps := by decide +kernel
  held := by decide +kernel
  behind := by decide +kernel
  leftOver := by decide +kernel
  waits := by decide +kernel
  told _ _ h := due_of_outDue (List.all_eq_true.1 frozenPart_out _ h)
  count := by decide +kernel

/-- The answer of the MIG_FREEZE. -/
def freezeReply : IcpReply :=
  { opcode := 0x0904, functionId := 0x4000, generation := 1, phase := true, data := layout 16 [(0, 4, Config.freeNat 0)] }

/-- It stands in the memory, its data first and then its header. -/
theorem frozenPart_cells :
    frozenPart.mem.cells = memPutBytes (memPutBytes [] 327712 freezeReply.data) 327680 (freezeReply.header false) := rfl

/-- The memory is not as it was: it holds the low byte of the answer's opcode. -/
theorem frozenPart_mem : frozenPart.mem ≠ freezingPart.mem := by
  intro h
  have hwf : Memory.wf (memPutBytes [] 327712 freezeReply.data) = true := Memory.wf_memPutBytes _ _ rfl
  have hget : memGet frozenPart.mem.cells 327682 = 4 := by
    rw [frozenPart_cells, memGet_memPutBytes hwf]
    decide +kernel
  rw [h] at hget
  exact absurd hget (by decide)

/-- The command of the manager, and the part once it has started. -/
def modeTaken : State := touchSession (.mctp 9) freezingPart

def modeCtx : Ctx :=
  { via := .mctp 9, pkt := taken 0x0500 (.mctp 9) (withByte 0 (fun _ => 1) modeCommand) freezingPart, iss := issuerOf modeTaken (.mctp 9),
    sess := sessionOf modeTaken (.mctp 9) }

theorem modeCommand_starts : Starts 0x0500 (.mctp 9) (withByte 0 (fun _ => 1) modeCommand) freezingPart modeCtx modeTaken :=
  ⟨⟨by decide, by decide, rfl, by decide, rfl⟩, by decide, by decide, by decide, rfl⟩

theorem settleReady_posts (s : State) : Posts s (settleReady s) := .of_eq rfl rfl rfl

theorem sendReply_mctp_mem (op eid : Nat) (pkt : IcpPkt) (st d : Nat) (data : Bytes) (s : State) :
    (sendReply op (.mctp eid) pkt st d data s).mem = s.mem := rfl

/-- No part whose memory is as it was before the command is the one that the command leaves. -/
theorem not_replied_frozenPart {st d : Nat} {data : Bytes} {y : State} (hm : y.mem = modeTaken.mem) :
    ¬ Replied (.next frozenPart) modeCtx st d data y := by
  rintro ⟨k, hk⟩
  have he : frozenPart = settleReady (wakeFor k (sendReply 0x0500 (.mctp 9) modeCtx.pkt st d data y)) := by injection hk
  have hu := (he ▸ frozenPart_untold).of_posts (settleReady_posts _)
  have htold : ¬ Untold 0 (sendReply 0x0500 (.mctp 9) modeCtx.pkt st d data y) := fun h => by
    obtain ⟨m, h0, -⟩ := h.of_sendReply.2.2 rfl
    cases h0
  rw [wakeFor_of_told htold hu] at he
  have hmem : frozenPart.mem = freezingPart.mem := by
    rw [he]
    exact hm
  exact frozenPart_mem hmem

/-- Refutes O44: in `freezingPart` an accelerator endpoint, whose reply ring lies in custody memory, waits for the answer to its MIG_FREEZE, and with
it for a frame on a sub-port that PORT_CONFIG of an Ethernet port removes. The frame's end lets the answer go, and it is written into the memory that
the statement says is left as it was. Every step by which a part goes on would have told something more. -/
theorem not_portsAndPacketObjectsAreConfigured : ¬ Obligations.PortsAndPacketObjectsAreConfigured := by
  unfold Obligations.PortsAndPacketObjectsAreConfigured
  intro h
  obtain ⟨y, hr, -, -, -, -, -, -, -, -, hm⟩ := h.2.1 (.mctp 9) modeCommand freezingPart modeTaken modeCtx modeCommand_starts (by decide) (by decide)
    (by decide) (by decide) (by decide) (by decide) (by decide)
  rw [exec_modeCommand] at hr
  exact not_replied_frozenPart hm hr

end Sys2Proof.Machine
end
